-- ==== Sys2Proof/Word.lean ====
section
/-!
DEFINITION. The word types of the model.  A register of the ZN3216 is 32 bits wide (R4); a byte is the unit of
every structure that the device and a host exchange in memory (R3).
-/
namespace Sys2Proof

/-- One 32-bit register of PF BAR0 or VF BAR0 (R4). -/
abbrev Word := BitVec 32

/-- One byte of host memory, device memory, a frame or a ring entry. -/
abbrev Byte := BitVec 8

/-- A run of bytes, the lowest address first. -/
abbrev Bytes := List Byte

end Sys2Proof
end

