-- ==== Sys2Proof/Syntax.lean ====
section
/-!
DEFINITION. The commands of the block: one constructor for each row of spec/opcode_table.json, with the operands the rules
give it, and the types of those operands.
-/
namespace Sys2Proof

/-- A function of the device (R117, R128): a PF by its device-wide index, VF number n + 1 of a PF, or firmware, whose own
queues and jobs are named the same way. -/
inductive Fn where
  | pf (i : Nat)
  | vf (pf n : Nat)
  | fw
deriving DecidableEq, Repr

/-- The path by which an access reaches a register (R9, R472, R476): a function's BARs, firmware on a service core, the management bus, or a
debug session or the TAP; tee is a request to a function's BARs that carries the T bit on a selective IDE stream (R152). -/
inductive Path where
  | fn (f : Fn)
  | tee (f : Fn) (stream : Nat)
  | firmware
  | mgmt
  | debug
deriving DecidableEq, Repr

/-- A unit that the power manager starts and stops (R16). -/
inductive DUnit where
  | hifHalf (h : Nat)
  | qm
  | macPort (n : Nat)
  | mgt
  | prsPair (p : Nat)
  | packet
  | cryEngine (e : Nat)
  | sto
  | dmv
  | svcCore (c : Nat)
  | akzPort (p : Nat)
  | rel
deriving DecidableEq, Repr

/-- How one read of host memory came back (R134, R135, R144). -/
inductive HostRead where
  | data (bytes : Bytes)
  | timeout
  | abort
  | poisoned
  | badAddress
deriving DecidableEq, Repr

/-- How a write of the device to host memory ended (R181, R194). -/
inductive HostWriteEnd where
  | landed
  | failed
deriving DecidableEq, Repr

/-- Whose event queues an event goes to (R175, R155). -/
inductive Scope where
  /-- The event concerns one function. -/
  | function (f : Fn)
  /-- The event concerns a CQ of a function and goes to the EQ its TARGET names. -/
  | cq (f : Fn) (q : Nat)
  /-- A device-wide event: every PF whose QM_EVENT_MASK selects the block. -/
  | device
  /-- Every PF of a half (R155). -/
  | half (h : Nat)
deriving DecidableEq, Repr

/-- The main rails, in CAI_RAIL_STATUS order (R87). -/
inductive Rail where
  | vppHbm | vddio | vddaSerdes | vddHbm | vddSerdes | vddCore
deriving DecidableEq, Repr

/-- The firmware settings of one PF, applied in BRINGUP (R117, R183). -/
structure PfSettings where
  enabled : Bool := false
  /-- false NET, true NVME (R118). -/
  nvme : Bool := false
  totalVfs : Nat := 0
  /-- MSI-X vectors of the PF itself. -/
  vectors : Nat := 1
  qBase : Nat := 0
  qCount : Nat := 0
  eqBase : Nat := 0
  eqCount : Nat := 0
  vportFirst : Nat := 0
  vportCount : Nat := 0
  subsystemId : Nat := 0
deriving DecidableEq, Repr

/-- The firmware settings applied in BRINGUP, and the units they enable (R98 step 9, R117). -/
structure Settings where
  pfs : List PfSettings := []
  /-- Physical Ethernet ports to enable, as (port, MAC_PORT_CFG value). -/
  ports : List (Nat × Word) := []
  /-- Akzal ports to enable. -/
  akz : List Nat := []
  /-- Service cores to enable, by logical number. -/
  cores : List Nat := []
  /-- Other units to enable: TBL, TM, CRY, STO, DMV by block code. -/
  blocks : List Nat := []
  /-- The NC-SI Package ID, the logical port of each channel, at most four, and the vport of the management controller (R223). -/
  ncsiPackage : Nat := 0
  ncsiPorts : List Nat := []
  ncsiVport : Nat := 0
deriving DecidableEq, Repr

/-- What the boot sources deliver at a start (R98 steps 6 to 9, R456): the flash as the first start finds it, with the two copies of its
directory, the two banks, the recovery region and the two settings regions. -/
structure BootInput where
  directory0 : Bytes := []
  directory1 : Bytes := []
  bankA : Option Bytes := none
  bankB : Option Bytes := none
  recovery : Option Bytes := none
  settingsA : Option Bytes := none
  settingsB : Option Bytes := none
  /-- Under Akzal boot, the image the UP neighbour sends; none when it has not begun within BOOT_WAIT. -/
  neighbour : Option Bytes := none
  /-- The units of kinds 0 to 6, as kind and number, that fail REL's self-test at this BRINGUP (R436). -/
  failed : List (Nat × Nat) := []
deriving DecidableEq, Repr

/-- An IEEE 1149.1 or 1149.6 instruction (R89), or a private one, which needs a debug session (R89, R455). -/
inductive TapCode where
  | bypass | idcode | samplePreload | extest | highz | clamp | extestPulse | extestTrain
  | priv (code : Nat)
deriving DecidableEq, Repr

/-- A change of a function's MSI-X control or of one table entry (R125, R126, R176). -/
inductive MsixChange where
  /-- MSI-X Enable and Function Mask as written. -/
  | control (enable mask : Bool)
  /-- Dword part (0 to 3) of table entry n written with v. -/
  | entry (n part : Nat) (v : Word)
deriving DecidableEq, Repr

/-- The host's answer to a Page Request (R144). -/
inductive PrgAnswer where
  | success | invalidRequest | responseFailure
deriving DecidableEq, Repr

/-- How a doorbell was written (R161, R163): 8 bytes, 4 bytes to the low word, any other form, or poisoned. -/
inductive DoorbellForm where
  | full | low | other | poisoned
deriving DecidableEq, Repr

/-- VENDOR_DEFINED_REQUEST messages of IDE_KM and TDISP (R149, R150, R152, R153). -/
inductive VendorMsg where
  | ideQuery
  | ideKeyProg (stream sub dir set key iv : Nat)
  | ideKeySetGo (stream sub dir set : Nat)
  | ideKeySetStop (stream sub dir set : Nat)
  | tdispGetVersion
  | tdispGetCapabilities
  | tdispLockInterface (f : Fn) (stream : Nat)
  | tdispGetReport (f : Fn) (off len : Nat)
  | tdispGetState (f : Fn)
  | tdispStartInterface (f : Fn) (nonce : Nat)
  | other
deriving DecidableEq, Repr

/-- A PTP measurement that firmware passes to TIM (R32, R33, R50, R51, R62). Times in units of 2^-16 ns. -/
structure PtpMeasurement where
  /-- Peer-to-peer delay; otherwise end-to-end. -/
  peer : Bool := false
  t1 : Int := 0
  t2 : Int := 0
  t3 : Int := 0
  t4 : Int := 0
  cSync : Int := 0
  cDelay : Int := 0
  /-- The measured peer link delay. -/
  linkDelay : Int := 0
  /-- The port's Sync interval, ns. -/
  interval : Nat := 62500000
  /-- currentUtcOffset and currentUtcOffsetValid. -/
  utcOffset : Int := 0
  utcValid : Bool := false
  leap61 : Bool := false
  leap59 : Bool := false
  grandmaster : Nat := 0
  stepsRemoved : Nat := 0
deriving DecidableEq, Repr

/-- A ZDA or RMC sentence received on TOD_RX, with its checksum judged: which one it is, status A of an RMC sentence, and its UTC date and
time; the year of an RMC sentence has two digits (R35). -/
structure Nmea where
  rmc : Bool := false
  checksumOk : Bool := true
  statusA : Bool := true
  year : Nat := 1970
  month : Nat := 1
  day : Nat := 1
  hour : Nat := 0
  minute : Nat := 0
  second : Nat := 0
deriving DecidableEq, Repr

/-- What a link frame of an Akzal port brings to the link itself (R413, R414): a numbered frame, an acknowledgement of every frame up to
a sequence, or credit of a class in cells. -/
inductive LinkRx where
  | frame (seq : Nat)
  | ack (seq : Nat)
  | credit (cls cells : Nat)
deriving DecidableEq, Repr

/-- A HELLO frame as received (R415, R416): whether the sender has joined, its member number and serial, MASTER_OK of the members it
reaches, MEMBERS, REACH, and the lowest serial with HEAD set and the lowest serial at all that it knows of away from the receiver. -/
structure Hello where
  joined : Bool := true
  member : Nat := 0
  serial : Nat := 0
  masterOk : Nat := 0
  members : Nat := 0
  reach : Nat := 0
  headSerial : Option Nat := none
  lowSerial : Nat := 0
deriving DecidableEq, Repr

/-- An access as it arrives (R4): its bytes, and what a write brings, none for a read. -/
structure Sized where
  size : Nat
  data : Option (BitVec 64) := none
deriving DecidableEq, Repr

/-- A main rail that leaves its range, and whether it has fallen below 10% of nominal (R72, R73). -/
structure RailLoss where
  rail : Rail
  below10 : Bool := false
deriving DecidableEq, Repr

/-- A store line of a pair that is written again, and the stacks whose golden copy of it reads poisoned (R255). -/
structure LineRewrite where
  pair : Nat
  poisoned : List Nat := []
deriving DecidableEq, Repr

/-- What the reads of an NVMe write return: its descriptor list, and the in-capsule data where the capsule carries it (R351, R359). -/
structure WriteReads where
  list : HostRead
  host : HostRead
deriving DecidableEq, Repr

/-- An edge on an input pin: its direction, and how long the pin keeps the new level, ns (R34). -/
structure PinEdge where
  rising : Bool
  held : Nat := 1000000
deriving DecidableEq, Repr

/-- The commands, in the order of the table. Each docstring is the row: its rule and what it does. -/
inductive Instr where
  /-- REGISTER_WRITE (R7): An aligned 32-bit write to a register field that has no row of its own takes effect as its access code states. -/
  | registerWrite (p : Path) (off : Nat) (v : Word)
  /-- BAD_ACCESS (R4): A BAR0 access of the wrong size or alignment is rejected, a read returns all ones, and HIF_ACCESS_ERR records it. -/
  | badAccess (p : Path) (off : Nat) (access : Sized)
  /-- LOW_WORD_READ (R5): A read of the low word of a 64-bit register pair captures the high word into a shadow for the same function. -/
  | lowWordRead (p : Path) (off : Nat)
  /-- READ_CLEAR (R9): A completed read of an RC field returns its value and clears it. -/
  | readClear (p : Path) (off : Nat)
  /-- W1C_HARDWARE_SET (R8): Hardware sets a W1C bit and increments the bit's sticky occurrence count. -/
  | w1cHardwareSet (p : Path) (off : Nat) (bit : Nat)
  /-- HELD_ACCESS (R15): An access above offset 0x00FF to a GATED or STOPPING block starts the domain and is held until it runs. -/
  | heldAccess (p : Path) (off : Nat) (v : Option Word)
  /-- DOMAIN_STOP (R78): The power manager begins to stop a fast domain, pair, engine or core once IDLE_HOLD has passed with its conditions met. -/
  | domainStop (u : DUnit)
  /-- DOMAIN_GATED (R79): A STOPPING unit reaches GATED, and a wake that arrived during STOPPING starts it again. -/
  | domainGated (u : DUnit)
  /-- DOMAIN_START_DONE (R79): A unit finishes its start, reinitialisation, self-test and new epoch, and the held work is released. -/
  | domainStartDone (u : DUnit) (passed : Bool)
  /-- AON_RAIL_UP (R95): Both stage A rails come within range and the device goes from OFF to HELD. -/
  | aonRailUp
  /-- AON_RAIL_LOSS (R475): VDD_AON or VDDIO_AON leaves its range, the device goes to OFF and time is lost. -/
  | aonRailLoss
  /-- PORST_ASSERT (R83): PORST_N held low beyond its filter puts the device in HELD and resets everything. -/
  | porstAssert
  /-- PORST_DEASSERT (R94): PORST_N rises after its minimum low time, the straps are sampled and the device goes to STANDBY. -/
  | porstDeassert (straps : BitVec 8)
  /-- RAIL_GOOD (R73): A main rail has been within range for 1 ms and is marked good. -/
  | railGood (rail : Rail)
  /-- RAIL_FAULT (R73): A main rail leaves its range for over 5 µs, every fast domain stops and FAULT_N goes low. -/
  | railFault (loss : RailLoss)
  /-- RAIL_ORDER (R72): A stage C rail rises while a stage B rail is below range, so fast domains are held in reset and FAULT_N goes low. -/
  | railOrder (rail : Rail)
  /-- THERMAL_WARN (R85): The hottest junction reading reaches WARN. -/
  | thermalWarn (sensor : Nat) (reading : Int)
  /-- THERMAL_TRIP (R85): A junction reading reaches TRIP and the device stops as for a rail fault. -/
  | thermalTrip (sensor : Nat) (reading : Int)
  /-- THERMAL_RECOVER (R107): After a trip, every reading falls 10 °C below TRIP and the wake-pending flag is set. -/
  | thermalRecover (readings : List Int)
  /-- SYSCLK_FAULT (R76): SYSCLK_IN stops and the Cairn domain changes over to TOSC_IN within 1 µs. -/
  | sysclkFault
  /-- SYSCLK_RETURN (R76): SYSCLK_IN returns and the Cairn domain changes back to it. -/
  | sysclkReturn
  /-- ETH_REFCLK_LOSS (R77): Loss of ETH_REFCLK takes every Ethernet and Akzal port down. -/
  | ethRefclkLoss
  /-- ETH_REFCLK_RETURN (R77): ETH_REFCLK returns and enabled ports begin to come up again. -/
  | ethRefclkReturn
  /-- PCIE_REFCLK_LOSS (R77): Loss of PCIE_REFCLKn takes the link of that half down. -/
  | pcieRefclkLoss (half : Nat)
  /-- PCIE_REFCLK_RETURN (R84): PCIE_REFCLKn has run for 100 µs, so the half may begin training. -/
  | pcieRefclkReturn (half : Nat)
  /-- MCTP_MESSAGE (R81): An MCTP message addressed to the device arrives on I3C or SMBus, and in main-off standby it is a wake source. -/
  | mctpMessage (body : Bytes)
  /-- WAKE_AT_REACHED (R81): In STANDBY, device time reaches CAI_WAKE_AT, the wake-pending flag is set and CAI_WAKE_AT is zeroed. -/
  | wakeAtReached
  /-- BRINGUP_START (R98): With a wake pending and every main rail good, BRINGUP runs its boot steps from the boot ROM. -/
  | bringupStart (boot : BootInput)
  /-- BOOT_WAIT_EXPIRY (R98): Under Akzal boot no image has begun to arrive within BOOT_WAIT, so BOOT_FALLBACK is set and flash is read. -/
  | bootWaitExpiry
  /-- UNIT_READY (R102): A unit reports itself ready, and BRINGUP ends once every enabled unit is ready. -/
  | unitReady (unit : Nat)
  /-- FUNCTION_READY (R100): A function becomes ready and a DRS or FRS Message is sent. -/
  | functionReady (f : Fn)
  /-- DRAIN (R105): CAI_MODE_REQ DRAIN stops fetching from every SQ and DMV channel within 1 µs. -/
  | drain (p : Path)
  /-- DRAIN_STANDBY (R105): CAI_MODE_REQ DRAIN_STANDBY drains, and the device then goes to STANDBY. -/
  | drainStandby (p : Path)
  /-- CANCEL (R95): CAI_MODE_REQ CANCEL returns the device from DRAIN to SERVICE or SPARED. -/
  | cancel (p : Path)
  /-- RESTART (R97): CAI_MODE_REQ RESTART starts BRINGUP again, keeping time, trace, life-cycle state and straps. -/
  | restartRequest (p : Path)
  /-- DRAIN_LIMIT_EXPIRY (R105): DRAIN_LIMIT ms after entry, unfinished fetched work completes with FLUSHED. -/
  | drainLimitExpiry
  /-- DRAIN_FINISHED (R105): No fetched work remains, and after DRAIN_STANDBY the device enters STANDBY. -/
  | drainFinished
  /-- PERST_ASSERT (R83): PERSTn_N falls, its half and its functions are reset, and the device may go to HELD or ISOLATED. -/
  | perstAssert (half : Nat)
  /-- PERST_DEASSERT (R84): PERSTn_N rises and the half begins training within 1 ms once its clock and rails allow. -/
  | perstDeassert (half : Nat)
  /-- PCIE_LINK_UP (R119): Training on a half succeeds, the link is reported up and LINK_UP is raised. -/
  | pcieLinkUp (half : Nat) (rate : Nat) (width : Nat) (flit : Bool)
  /-- HOT_RESET (R119): A Hot Reset resets the half's functions and takes its link down. -/
  | hotReset (half : Nat)
  /-- LINK_DISABLE (R119): A Link Disable resets the half's functions and takes its link down. -/
  | linkDisable (half : Nat)
  /-- PCIE_LINK_FAILURE (R119): A link failure on a half resets its functions, takes the link down and may make the mode ISOLATED. -/
  | pcieLinkFailure (half : Nat)
  /-- CONFIG_READ (R124): A configuration read completes within 2 µs, or with Request Retry Status while the function is not ready. -/
  | configRead (f : Fn) (off : Nat)
  /-- BUS_MASTER_DISABLE (R140): Clearing Bus Master Enable silences the function within 1 µs and quiesces its queues. -/
  | busMasterDisable (f : Fn)
  /-- QUIESCE_DONE (R140): No request of the function remains outstanding and QUIESCED reads 1. -/
  | quiesceDone (f : Fn)
  /-- INITIATE_FLR (R141): A write of Initiate FLR acts as a Bus Master Enable clear within 1 µs. -/
  | initiateFlr (f : Fn)
  /-- FLR_DONE (R141): An FLR completes, orphans outstanding reads, resets the function and sends an FRS Message. -/
  | flrDone (f : Fn)
  /-- VF_ENABLE (R130): Setting VF Enable makes VFs 1 to NumVFs ready within 10 ms and sends one FRS Message. -/
  | vfEnable (pf : Nat)
  /-- VF_DISABLE (R130): Clearing VF Enable resets every VF of the PF within 2 ms and sends one FRS Message. -/
  | vfDisable (pf : Nat)
  /-- POWER_STATE_CHANGE (R122): A PowerState write changes the power state, and a D3hot-to-D0 transition leads to readiness within 10 ms. -/
  | powerStateChange (f : Fn) (state : Nat)
  /-- MSIX_UNMASK (R176): MSI-X Enable, Function Mask or a vector mask changes so that pending PBA vectors are sent. -/
  | msixUnmask (f : Fn) (change : MsixChange)
  /-- TAG_SLOT_GRANT (R131): A waiting non-posted request receives a free slot and tag value and is issued; which: the function served, or whichever waits longest. -/
  | tagSlotGrant (which : Option Fn)
  /-- HOST_COMPLETION (R135): A completion from the host is matched to its request, or is discarded as unexpected. -/
  | hostCompletion (f : Fn) (tag : Nat) (status : HostRead) (last : Bool)
  /-- COMPLETION_TIMEOUT (R134): A request's timer expires, the request ends with HOST_READ_TIMEOUT and its slot is quarantined. -/
  | completionTimeout (slot : Nat)
  /-- QUARANTINE_END (R134): A quarantine of twice the timeout ends and the slot and tag value are freed. -/
  | quarantineEnd (slot : Nat)
  /-- POISONED_POSTED_WRITE (R146): A poisoned posted write from the host is logged as Poisoned TLP Received and dropped. -/
  | poisonedPostedWrite (f : Fn)
  /-- ATS_INVALIDATION (R143): An Invalidation Request is completed within 1 ms, after every request that used the translations. -/
  | atsInvalidation (f : Fn) (pasid : Option Nat) (page : Nat) (count : Nat)
  /-- PAGE_REQUEST (R144): A translation grants no access and the device sends a Page Request. -/
  | pageRequest (f : Fn) (q : Nat)
  /-- PRG_RESPONSE (R144): A Page Request answer arrives, and the operation either translates again or completes with BAD_ADDRESS. -/
  | prgResponse (f : Fn) (q : Nat) (answer : PrgAnswer)
  /-- PAGE_REQUEST_TIMEOUT (R144): No answer to a Page Request arrives within 1 s, the operation completes with BAD_ADDRESS and PRI_FAILURE is raised. -/
  | pageRequestTimeout (f : Fn) (q : Nat)
  /-- PTM_REQUEST (R147): A PTM Request is answered with the device time, timestamped at the PHY. -/
  | ptmRequest (half : Nat)
  /-- DOE_REQUEST (R148): A data object is written to the DOE mailbox and processed. -/
  | doeRequest (half : Nat) (protocol : Nat) (length : Nat) (index : Nat)
  /-- DOE_ABORT (R148): DOE Abort is honoured within 1 ms. -/
  | doeAbort (half : Nat)
  /-- GET_VERSION (R149): An SPDM GET_VERSION request is answered. -/
  | getVersion (half : Nat)
  /-- GET_CAPABILITIES (R149): An SPDM GET_CAPABILITIES request is answered. -/
  | getCapabilities (half : Nat) (version : Nat)
  /-- NEGOTIATE_ALGORITHMS (R149): An SPDM NEGOTIATE_ALGORITHMS request is answered. -/
  | negotiateAlgorithms (half : Nat) (baseAsym : Nat) (baseHash : Nat) (dhe : Nat) (aead : Nat)
  /-- GET_DIGESTS (R149): An SPDM GET_DIGESTS request is answered. -/
  | getDigests (half : Nat)
  /-- GET_CERTIFICATE (R452): An SPDM GET_CERTIFICATE request returns the DeviceID and attestation certificate chain. -/
  | getCertificate (half : Nat) (slot : Nat) (off : Nat) (len : Nat)
  /-- CHALLENGE (R452): An SPDM CHALLENGE is answered and signed with the attestation key. -/
  | challenge (half : Nat) (slot : Nat) (nonce : Nat) (kind : Nat)
  /-- GET_MEASUREMENTS (R452): An SPDM GET_MEASUREMENTS request returns the measurement blocks. -/
  | getMeasurements (half : Nat) (index : Nat) (nonce : Nat) (signed : Bool)
  /-- KEY_EXCHANGE (R149): An SPDM KEY_EXCHANGE opens a session, or is answered SessionLimitExceeded when four are open. -/
  | keyExchange (half : Nat) (slot : Nat) (reqId : Nat) (exchange : Nat)
  /-- FINISH (R149): An SPDM FINISH request is answered. -/
  | finish (half : Nat) (session : Nat) (verified : Bool)
  /-- KEY_UPDATE (R149): An SPDM KEY_UPDATE request is answered. -/
  | keyUpdate (half : Nat) (session : Nat) (operation : Nat)
  /-- HEARTBEAT (R149): An SPDM HEARTBEAT request is answered. -/
  | heartbeat (half : Nat) (session : Nat)
  /-- END_SESSION (R149): An SPDM END_SESSION closes a session. -/
  | endSession (half : Nat) (session : Nat)
  /-- VENDOR_DEFINED_REQUEST (R149): An SPDM VENDOR_DEFINED_REQUEST carries IDE_KM or TDISP messages. -/
  | vendorDefinedRequest (half : Nat) (session : Nat) (msg : VendorMsg)
  /-- STOP_INTERFACE (R153): STOP_INTERFACE clears the VF's queues, buffers and key slots and returns the interface to CONFIG_UNLOCKED. -/
  | stopInterface (f : Fn)
  /-- IDE_INTEGRITY_FAILURE (R151): A received TLP fails IDE integrity, the stream becomes Insecure and its outstanding requests end with HOST_ABORT. -/
  | ideIntegrityFailure (half : Nat) (stream : Nat)
  /-- DOORBELL_WRITE (R162): A doorbell write moves an SQ producer or a CQ/EQ consumer counter, or is stale or invalid, and applies ARM. -/
  | doorbellWrite (f : Fn) (q : Nat) (v : BitVec 64) (form : DoorbellForm)
  /-- SQ_ENTRY_FETCH (R139): QM fetches an SQ entry and checks its phase and header. -/
  | sqEntryFetch (f : Fn) (q : Nat) (got : HostRead)
  /-- STALE_RETRY (R139): 1 µs after a phase mismatch the entry is read once more, and either runs or completes STALE_ENTRY. -/
  | staleRetry (f : Fn) (q : Nat) (got : HostRead)
  /-- COMPLETION_WRITE (R169): A due completion is written to its CQ in SQ order, or placed in overflow. -/
  | completionWrite (f : Fn) (q : Nat) (res : HostWriteEnd)
  /-- EVENT_RAISE (R174): An event source occurs, setting its pending bit or adding to its repeat count. -/
  | eventRaise (block : Nat) (code : Nat) (detail : Nat) (scope : Scope)
  /-- EQ_ENTRY_WRITE (R174): A pending event source's entry is written when its EQ has room. -/
  | eqEntryWrite (f : Fn) (q : Nat) (res : HostWriteEnd)
  /-- MODERATION_TIMER (R176): TIMER µs pass since the oldest unsignalled entry, and the vector is sent. -/
  | moderationTimer (f : Fn) (q : Nat)
  /-- CREATE (R178): QM_Q_CTRL CREATE sets both counters to N and makes a DISABLED queue ACTIVE. -/
  | qCreate (p : Path)
  /-- DESTROY (R179): QM_Q_CTRL DESTROY stops fetching, and the queue becomes DISABLED once its work is done. -/
  | qDestroy (p : Path)
  /-- QUEUE_DISABLED (R179): The last work of a queue being destroyed ends, and it becomes DISABLED with RESULT DONE. -/
  | queueDisabled (f : Fn) (q : Nat)
  /-- QUEUE_RESTART (R180): QM_Q_CTRL RESTART reapplies settings and makes a QUIESCED or ERROR queue ACTIVE. -/
  | queueRestart (p : Path)
  /-- TX_FRAME (R166): A TX_FRAME entry gathers a frame from up to three host segments for transmission. -/
  | txFrame (f : Fn) (q : Nat)
  /-- RX_BUFFER (R167): An RX_BUFFER entry posts one receive buffer. -/
  | rxBuffer (f : Fn) (q : Nat)
  /-- HOST_TX_RESUME (R296): Cells become free and a host or injected frame waiting for cells proceeds. -/
  | hostTxResume (frame : Nat)
  /-- SQ_FETCH_RESUME (R299): The egress queue depth falls below QLIMIT_G, and the held SQ or injection path resumes fetching. -/
  | sqFetchResume (queue : Nat)
  /-- GRANT (R185): HIF_VF_CTRL GRANT applies a VF's queue, EQ and vector grant. -/
  | vfGrant (pf : Nat)
  /-- VPORT_BIND (R186): A write of HIF_VF_VPORT binds or unbinds a VF's vport. -/
  | vportBind (pf : Nat) (v : Word)
  /-- LOG_START (R190): LOG_START makes buffer A active and begins dirty-page logging. -/
  | logStart (pf : Nat)
  /-- LOG_SWAP (R191): LOG_SWAP makes the other log buffer active after recording earlier writes. -/
  | logSwap (pf : Nat)
  /-- LOG_STOP (R190): LOG_STOP clears LOGGING after recording every earlier write. -/
  | logStop (pf : Nat)
  /-- DIRTY_PAGE_LOG (R190): A write by a logging VF sets the bits of the pages it touches in the active buffer. -/
  | dirtyPageLog (f : Fn) (addr : Nat) (len : Nat)
  /-- FREEZE (R192): FREEZE stops a VF's fetching within 1 µs, parks unstarted work and makes it FREEZING. -/
  | vfFreeze (pf : Nat)
  /-- FREEZE_DONE (R192): The last running work of a FREEZING VF ends and the VF becomes FROZEN. -/
  | freezeDone (f : Fn)
  /-- MIG_SLOW (R192): FREEZE_LIMIT passes with the VF still FREEZING, and MIG_SLOW is raised. -/
  | migSlow (f : Fn)
  /-- SAVE (R194): SAVE writes a FROZEN VF's state image to the image buffer. -/
  | vfSave (pf : Nat) (res : HostWriteEnd)
  /-- RESTORE (R195): RESTORE checks a state image whole and applies it to a FROZEN VF. -/
  | vfRestore (pf : Nat) (image : HostRead)
  /-- UNFREEZE (R196): UNFREEZE returns a VF to RUNNING and runs its parked work first. -/
  | vfUnfreeze (pf : Nat)
  /-- VF_MIG_DONE (R189): A pending migration action ends and VF_MIG_DONE is raised. -/
  | vfMigDone (f : Fn)
  /-- TIME_PAGE_WRITE (R56): TIM writes an enabled function's time page each TIM_PAGE_PERIOD, or within 10 µs of a forcing change. -/
  | timePageWrite (f : Fn)
  /-- FRAME_RECEIVED (R208): A frame arriving on a logical port is timestamped, filtered and written into cells. -/
  | frameReceived (lp : Nat) (bytes : Bytes) (fcs : BitVec 32)
  /-- FRAME_END (R18): The end of a received frame arrives and its FCS is checked, and a failing frame is dropped. -/
  | frameEnd (frame : Nat)
  /-- PAUSE_REFRESH (R214): Every REFRESH quanta while the count stays at or above XON_CELLS, the pause frame is repeated. -/
  | pauseRefresh (lp : Nat) (prio : Nat)
  /-- PAUSE_FRAME_RX (R213): A received PAUSE or PFC frame holds or releases the matching priorities. -/
  | pauseFrameRx (lp : Nat) (opcode : Nat) (enable : Nat) (quanta : List Nat)
  /-- PAUSE_HOLD_EXPIRY (R213): A pause hold expires and the head frame is judged as if its gate had just been reached. -/
  | pauseHoldExpiry (lp : Nat) (prio : Nat)
  /-- PAUSE_RX_STORM (R216): A priority has been held by received pause for WD_TIME, so received pause is ignored for it. -/
  | pauseRxStorm (lp : Nat) (prio : Nat)
  /-- PAUSE_TX_STORM (R216): A priority has been held in XOFF for WD_TIME, so 0 is sent and the priority becomes lossy. -/
  | pauseTxStorm (lp : Nat) (prio : Nat)
  /-- STORM_RECOVER (R216): WD_RECOVER passes without storm conditions, and RX_STORM or TX_STORM clears. -/
  | stormRecover (lp : Nat) (prio : Nat)
  /-- LINK_UP (R201): A logical port's lanes are locked and FEC has been locked for 10 ms, so the port is up. -/
  | linkUp (lp : Nat)
  /-- LINK_DOWN (R201): A lane loses lock for over 1 µs, or the port is disabled, and the logical port goes down. -/
  | linkDown (lp : Nat)
  /-- FEC_WINDOW (R203): A 1 ms FEC window ends, and FEC_DEGRADED sets or clears against DEGRADE_LIMIT. -/
  | fecWindow (lp : Nat) (corrected : Nat) (uncorrected : Nat)
  /-- PORT_CFG_WRITE (R199): A write of MAC_PORTn_CFG enables or disables a physical port and may change its mode. -/
  | portCfgWrite (p : Path) (port : Nat) (v : Word)
  /-- FILTER_ADD (R210): MAC_FLT_CTRL ADD places a filter entry at a free index. -/
  | filterAdd (p : Path)
  /-- FILTER_DELETE (R210): MAC_FLT_CTRL DELETE clears the filter entry at INDEX. -/
  | filterDelete (p : Path) (index : Nat)
  /-- FILTER_READ (R210): MAC_FLT_CTRL READ copies the filter entry at INDEX into DATA0–3. -/
  | filterRead (p : Path) (index : Nat)
  /-- STAT_SNAP (R217): A write to MAC_LP_STAT_SNAP copies every counter, with the time and bound, in one cycle. -/
  | statSnap (p : Path) (lp : Nat)
  /-- MGT_FRAME_RX (R403): A good frame received by MGT is delivered to channel 0 as a FRAME message. -/
  | mgtFrameRx (bytes : Bytes) (fcsOk : Bool)
  /-- MGT_TX (R403): An MGT_TX message on channel 1 queues a frame for MGT to send. -/
  | mgtTx
  /-- COLLISION (R221): A half-duplex collision causes a jam and a back-off, or drops the frame after 16 attempts or when late. -/
  | collision (bitTimes : Nat)
  /-- BACKOFF_EXPIRY (R221): A back-off of r slot times ends and the frame is retried. -/
  | backoffExpiry
  /-- MDIO_START (R222): A write to MGT_MDIO_CTRL starts one MDIO frame and sets BUSY. -/
  | mdioStart (p : Path) (v : Word)
  /-- MDIO_DONE (R222): The MDIO frame ends, BUSY clears and the read data or NO_ACK is set. -/
  | mdioDone (data : Option (BitVec 16))
  /-- NCSI_COMMAND (R223): An NC-SI command from the management controller is answered. -/
  | ncsiCommand (channel : Nat) (command : Nat) (payload : Bytes)
  /-- RESET_CHANNEL (R223): An NC-SI Reset Channel stops pass-through on a channel and raises NCSI_CHANNEL_RESET. -/
  | resetChannel (channel : Nat)
  /-- PARSE_DISPATCH (R228): A frame whose first cell is written is dispatched to a free engine of a running pair. -/
  | parseDispatch (frame : Nat) (engine : Nat)
  /-- NEXT (R235): A microword with BR_OP NEXT continues at the next word. -/
  | microNext (engine : Nat)
  /-- JUMP (R235): A microword with BR_OP JUMP continues at BR_TARGET. -/
  | microJump (engine : Nat)
  /-- JZ (R235): A microword branches to BR_TARGET when its register is zero. -/
  | microJz (engine : Nat)
  /-- JNZ (R235): A microword branches to BR_TARGET when its register is not zero. -/
  | microJnz (engine : Nat)
  /-- MATCH (R235): A microword branches to the target of the first matching entry of its match set. -/
  | microMatch (engine : Nat)
  /-- CALL (R235): A microword pushes the return address and continues at BR_TARGET. -/
  | microCall (engine : Nat)
  /-- RET (R235): A microword pops the call stack and continues there. -/
  | microRet (engine : Nat)
  /-- MICRO_END (R241): An END microword ends the parse with disposition TABLE, EXCEPTION or DROP. -/
  | microEnd (engine : Nat)
  /-- ADD (R236): The ALU adds A and B. -/
  | microAdd (engine : Nat)
  /-- SUB (R236): The ALU subtracts B from A. -/
  | microSub (engine : Nat)
  /-- AND (R236): The ALU takes A AND B. -/
  | microAnd (engine : Nat)
  /-- OR (R236): The ALU takes A OR B. -/
  | microOr (engine : Nat)
  /-- XOR (R236): The ALU takes A XOR B. -/
  | microXor (engine : Nat)
  /-- SHL (R236): The ALU shifts A left. -/
  | microShl (engine : Nat)
  /-- SHR (R236): The ALU shifts A right with zero fill. -/
  | microShr (engine : Nat)
  /-- MOV (R236): The ALU copies B. -/
  | microMov (engine : Nat)
  /-- BFX (R236): The ALU extracts a bit field of A. -/
  | microBfx (engine : Nat)
  /-- SEQ (R236): The ALU sets 1 when A equals B. -/
  | microSeq (engine : Nat)
  /-- SLT (R236): The ALU sets 1 when A is less than B, unsigned. -/
  | microSlt (engine : Nat)
  /-- MIN (R236): The ALU takes the smaller of A and B. -/
  | microMin (engine : Nat)
  /-- MAX (R236): The ALU takes the larger of A and B. -/
  | microMax (engine : Nat)
  /-- CSUM (R236): The ALU takes the ones'-complement sum of the halves of A and B. -/
  | microCsum (engine : Nat)
  /-- MARK (R238): AUX MARK writes the cursor to a mark and sets its MARK_VALID bit. -/
  | microMark (engine : Nat)
  /-- FRAG (R249): AUX FRAG takes the fragment decision over 8 cycles against the fragment table. -/
  | microFrag (engine : Nat)
  /-- HASHREG (R238): AUX HASHREG feeds a register's four bytes into the hash. -/
  | microHashreg (engine : Nat)
  /-- TRAP (R238): AUX TRAP takes a software trap with cause SOFT. -/
  | microTrap (engine : Nat)
  /-- RESUME (R244): AUX RESUME ends a trap handler, restores the saved state and retries or skips the trapping word. -/
  | microResume (engine : Nat)
  /-- HASHRST (R238): AUX HASHRST empties the hash accumulator. -/
  | microHashrst (engine : Nat)
  /-- BUDGET (R240): The cycle count reaches 64 after a word that is not END, so the parse ends as EXCEPTION 0x80. -/
  | microBudget (engine : Nat)
  /-- FRAG_ENTRY_EXPIRY (R250): A fragment entry passes TIMEOUT since its last refresh and stops being live. -/
  | fragEntryExpiry (set : Nat) (way : Nat)
  /-- PARITY_ERROR (R255): A parity check fails in PRS, the frame is re-run on another pair and the failing line is rewritten from the golden copy. -/
  | parityError (engine : Nat) (store : Bool)
  /-- PAIR_LINE_REWRITTEN (R255): The failing store line has been rewritten and checked, so the pair takes frames again. -/
  | pairLineRewritten (line : LineRewrite)
  /-- PRS_LOAD_START (R253): PRS_LOAD_CTRL START checks, verifies and loads a PRS image into every pair. -/
  | prsLoadStart (p : Path)
  /-- LOAD_DONE (R253): A PRS load finishes writing and checking every store and ends DONE, or with LOAD_FAIL. -/
  | loadDone (failed : List Nat)
  /-- PRS_IND_WRITE (R256): A write of PRS_IND_CFG or PRS_IND_ENTRY changes an indirection table or switches its bank, subject to ownership. -/
  | prsIndWrite (p : Path) (entry : Bool) (v : Word)
  /-- TABLE_PROGRAM (R261): TBL runs a frame's table program in the active bank and ends as FINISH, DROP or MISS. -/
  | tableProgram (frame : Nat)
  /-- VPORT_STEP (R267): A VPORT step looks up the vport table. -/
  | vportStep (frame : Nat)
  /-- TUNNEL_STEP (R268): A TUNNEL step looks up the tunnel endpoint table. -/
  | tunnelStep (frame : Nat)
  /-- FLOW_STEP (R276): A FLOW step looks up the flow cache and table, sets HIT, and diverts HOLD entries. -/
  | flowStep (frame : Nat)
  /-- LPM_STEP (R278): An LPM step probes route lengths longest first through the length filter. -/
  | lpmStep (frame : Nat)
  /-- ACL_STEP (R279): An ACL step finds the best-priority matching entry of its group. -/
  | aclStep (frame : Nat)
  /-- ACTION_LIST (R264): The action stage executes a frame's action list in order. -/
  | actionList (frame : Nat)
  /-- END (R264): Action END ends the current contribution. -/
  | actEnd (frame : Nat)
  /-- NOP (R265): Action NOP does nothing. -/
  | actNop (frame : Nat)
  /-- DROP (R265): Action DROP ends the list and frees the frame. -/
  | actDrop (frame : Nat)
  /-- CHAIN (R265): Action CHAIN continues at an action-store list. -/
  | actChain (frame : Nat)
  /-- DECAP (R265): Action DECAP removes every byte before a mark. -/
  | actDecap (frame : Nat)
  /-- ENCAP (R268): Action ENCAP prepends a tunnel endpoint template and fills in its lengths. -/
  | actEncap (frame : Nat)
  /-- REWRITE (R265): Action REWRITE writes a value at a mark plus an offset. -/
  | actRewrite (frame : Nat)
  /-- DEC_TTL (R266): Action DEC_TTL decrements the TTL or hop limit, and diverts or drops the frame at zero. -/
  | actDecTtl (frame : Nat)
  /-- VLAN_PUSH (R265): Action VLAN_PUSH inserts a tag. -/
  | actVlanPush (frame : Nat)
  /-- VLAN_POP (R265): Action VLAN_POP removes the first tag. -/
  | actVlanPop (frame : Nat)
  /-- METER (R306): Action METER colours the frame and drops it by colour. -/
  | actMeter (frame : Nat)
  /-- COUNT (R265): Action COUNT adds the frame to a counter. -/
  | actCount (frame : Nat)
  /-- SET_CLASS (R265): Action SET_CLASS sets the egress priority. -/
  | actSetClass (frame : Nat)
  /-- ENCRYPT (R334): Action ENCRYPT takes a number from the key slot and ciphers the frame for ESP, MACsec or TLS. -/
  | actEncrypt (frame : Nat)
  /-- DECRYPT (R335): Action DECRYPT authenticates and decrypts the frame, or drops it. -/
  | actDecrypt (frame : Nat)
  /-- DELIVER_VPORT (R267): Action DELIVER_VPORT delivers a copy to a vport's function. -/
  | actDeliverVport (frame : Nat)
  /-- DELIVER_QUEUE (R265): Action DELIVER_QUEUE delivers a copy to a receive queue of a vport's function. -/
  | actDeliverQueue (frame : Nat)
  /-- DELIVER_IND (R247): Action DELIVER_IND delivers a copy through an indirection table. -/
  | actDeliverInd (frame : Nat)
  /-- DELIVER_PORT (R298): Action DELIVER_PORT admits a copy to an egress queue or drops it. -/
  | actDeliverPort (frame : Nat)
  /-- DELIVER_CHANNEL (R400): Action DELIVER_CHANNEL delivers a copy to a service channel as a FRAME message. -/
  | actDeliverChannel (frame : Nat)
  /-- DELIVER_AKZAL (R420): Action DELIVER_AKZAL sends a copy to another chain member. -/
  | actDeliverAkzal (frame : Nat)
  /-- MIRROR (R266): Action MIRROR makes a copy and runs a list on it. -/
  | actMirror (frame : Nat)
  /-- LEARN (R281): Action LEARN queues a learn request, or discards it when the queue is full. -/
  | actLearn (frame : Nat)
  /-- TS_INSERT (R207): Action TS_INSERT asks the MAC for one-step timestamp insertion at egress. -/
  | actTsInsert (frame : Nat)
  /-- LEARN_REQUEST (R282): A queued learn request takes effect: it inserts, refreshes, records a candidate or moves an entry. -/
  | learnRequest
  /-- AGE_VISIT (R284): The sweeper visits an entry of an age class, clearing HIT, setting AGE_COUNT or removing it. -/
  | ageVisit (index : Nat)
  /-- LOCK_EXPIRED (R288): LOCK_TIMEOUT passes after a lock was set, so the lock is released and LOCK_EXPIRED raised. -/
  | lockExpired (index : Nat)
  /-- INSERT (R272): Table INSERT adds a flow or route through two-choice placement, relocation or the stash. -/
  | tblInsert (f : Fn) (q : Nat)
  /-- RELOCATION_MOVE (R273): A bank's relocator moves one slot to its alternate bucket. -/
  | relocationMove (bank : Nat)
  /-- TABLE_DELETE (R287): Table DELETE removes the entry with the record's key. -/
  | tblDelete (f : Fn) (q : Nat)
  /-- LOOKUP (R287): Table LOOKUP writes the entry with the record's key to BUF. -/
  | tblLookup (f : Fn) (q : Nat)
  /-- TABLE_READ (R287): Table READ writes entry INDEX to BUF. -/
  | tblRead (f : Fn) (q : Nat)
  /-- TABLE_WRITE (R287): Table WRITE writes entry INDEX from BUF. -/
  | tblWrite (f : Fn) (q : Nat)
  /-- LOCK (R288): Table LOCK locks a flow entry and writes it to BUF. -/
  | tblLock (f : Fn) (q : Nat)
  /-- WRITE_UNLOCK (R287): Table WRITE_UNLOCK writes a flow entry and clears LOCK in one step. -/
  | tblWriteUnlock (f : Fn) (q : Nat)
  /-- UNLOCK (R287): Table UNLOCK clears LOCK. -/
  | tblUnlock (f : Fn) (q : Nat)
  /-- COUNTER_READ (R287): Table COUNTER_READ writes counters to BUF, clearing them when CLEAR is set. -/
  | tblCounterRead (f : Fn) (q : Nat)
  /-- FILTER_REBUILD (R278): Deletes exceed a quarter of the routes, so TBL rebuilds the LPM filter into a second copy. -/
  | filterRebuild
  /-- FILTER_SWITCH (R278): The rebuilt LPM filter is complete and TBL switches to it in one step. -/
  | filterSwitch
  /-- HASH_SEED_WRITE (R271): A write of TBL_HASH_SEED is applied only while the tables are empty, and otherwise sets SEED_REFUSED. -/
  | hashSeedWrite (p : Path) (which : Nat) (v : Word)
  /-- TBL_PROG_WRITE (R258): TBL_PROG_WRITE stores a step in the inactive program bank. -/
  | tblProgWrite (p : Path)
  /-- PROG_BANK_SWITCH (R258): A write of TBL_PROG_CTRL switches the active program bank atomically. -/
  | progBankSwitch (p : Path) (bank : Bool)
  /-- SCHEDULE_DECISION (R301): A port that can start a frame chooses a class, group and queue and starts its head copy. -/
  | scheduleDecision (lp : Nat)
  /-- SHAPER_CREDIT (R304): Token credit is applied to a shaped node, which may make it eligible. -/
  | shaperCredit (node : Nat)
  /-- LAUNCH_TIME_REACHED (R309): A head copy's launch time arrives and its queue becomes eligible. -/
  | launchTimeReached (queue : Nat)
  /-- FRAME_TRANSMITTED (R205): A copy finishes transmitting and its egress timestamp is taken. -/
  | frameTransmitted (lp : Nat)
  /-- COPY_FINISHED (R22): The last copy of a frame finishes, its cells are freed and a host frame completes. -/
  | copyFinished (frame : Nat)
  /-- GATE_ENTRY_CHANGE (R311): A gate control list entry's interval ends and the next gate states take effect. -/
  | gateEntryChange (lp : Nat)
  /-- GATE_COMMIT (R312): MAC_GATE_COMMIT copies the admin list into a pending list and computes its change time. -/
  | gateCommit (p : Path) (lp : Nat)
  /-- GATE_LIST_ACTIVE (R312): CONFIG_CHANGE_TIME arrives and the pending list becomes operational. -/
  | gateListActive (lp : Nat)
  /-- NODE_WRITE (R302): A write to a scheduler node's registers changes its structure or shaper, or ends BAD_CONFIG. -/
  | nodeWrite (p : Path) (reg : Nat) (v : Word)
  /-- METER_WRITE (R319): TM_METER_CTRL WRITE writes a meter record, subject to ownership. -/
  | meterWrite (p : Path)
  /-- METER_READ (R319): TM_METER_CTRL READ reads a meter record. -/
  | meterRead (p : Path)
  /-- KEY_WRITE (R330): KEY_WRITE replaces a slot's key and record. -/
  | keyWrite (f : Fn) (q : Nat)
  /-- KEY_UNWRAP (R330): KEY_UNWRAP unwraps a key under a KEK slot and writes it to the slot. -/
  | keyUnwrap (f : Fn) (q : Nat)
  /-- SLOT_UPDATE (R331): SLOT_UPDATE writes NEXT, REKEY_AT and TCP_NEXT and clears RESYNC. -/
  | slotUpdate (f : Fn) (q : Nat)
  /-- SLOT_READ (R329): SLOT_READ returns a slot's record. -/
  | slotRead (f : Fn) (q : Nat)
  /-- KEY_CLEAR (R330): KEY_CLEAR zeroises a key and its record everywhere within 1 µs. -/
  | keyClear (f : Fn) (q : Nat)
  /-- LA_ENCRYPT (R339): LA_ENCRYPT encrypts a message in memory. -/
  | laEncrypt (f : Fn) (q : Nat)
  /-- LA_DECRYPT (R339): LA_DECRYPT decrypts a message, writing DST only when the tag compares. -/
  | laDecrypt (f : Fn) (q : Nat)
  /-- SLOT_FETCH_DONE (R327): A slot missing from the cache has been fetched and unwrapped, and its waiting work proceeds. -/
  | slotFetchDone (slot : Nat)
  /-- CIPHER_DONE (R322): An engine's output is complete, the checker agrees and the output is released. -/
  | cipherDone (engine : Nat)
  /-- CHECKER_MISMATCH (R323): The checker disagrees with an engine, the output is discarded and the message runs again. -/
  | checkerMismatch (engine : Nat)
  /-- SUSPEND_MESSAGE (R340): A look-aside message is suspended at a block boundary for a more urgent one, and later resumed. -/
  | suspendMessage
  /-- NVME_SQ_DOORBELL (R350): A host writes an NVMe SQ tail doorbell. -/
  | nvmeSqDoorbell (f : Fn) (q : Nat) (v : Nat)
  /-- NVME_CQ_DOORBELL (R350): A host writes an NVMe CQ head doorbell. -/
  | nvmeCqDoorbell (f : Fn) (q : Nat) (v : Nat)
  /-- CC_ENABLE (R346): CC.EN written from 0 to 1 makes the controller ready within 10 ms. -/
  | ccEnable (f : Fn) (cc : Nat)
  /-- CC_DISABLE (R346): CC.EN written from 1 to 0 discards unsent commands and clears RDY within 10 ms. -/
  | ccDisable (f : Fn)
  /-- SHUTDOWN (R346): A CC.SHN shutdown stops fetching and sets SHST once sent commands complete. -/
  | shutdown (f : Fn)
  /-- SHUTDOWN_TIMEOUT (R346): Commands have not completed within 1 s of shutdown, so SHST is set and they are discarded. -/
  | shutdownTimeout (f : Fn)
  /-- NVME_COMMAND_FETCH (R350): An NVMe command is fetched and takes a tracker entry. -/
  | nvmeCommandFetch (f : Fn) (q : Nat) (got : HostRead)
  /-- DELETE_IO_SQ (R347): Admin Delete I/O SQ. -/
  | deleteIoSq (f : Fn)
  /-- CREATE_IO_SQ (R347): Admin Create I/O SQ. -/
  | createIoSq (f : Fn)
  /-- GET_LOG_PAGE (R347): Admin Get Log Page. -/
  | getLogPage (f : Fn) (list : HostRead)
  /-- DELETE_IO_CQ (R347): Admin Delete I/O CQ. -/
  | deleteIoCq (f : Fn)
  /-- CREATE_IO_CQ (R347): Admin Create I/O CQ. -/
  | createIoCq (f : Fn)
  /-- IDENTIFY (R347): Admin Identify. -/
  | identify (f : Fn) (list : HostRead)
  /-- NVME_ABORT (R352): Admin Abort removes an unsent command or forwards the Abort to the remote controller. -/
  | nvmeAbort (f : Fn)
  /-- SET_FEATURES (R347): Admin Set Features. -/
  | setFeatures (f : Fn)
  /-- GET_FEATURES (R347): Admin Get Features. -/
  | getFeatures (f : Fn)
  /-- ASYNCHRONOUS_EVENT_REQUEST (R347): Admin Asynchronous Event Request. -/
  | asynchronousEventRequest (f : Fn)
  /-- NVME_FLUSH (R347): NVM Flush, forwarded on the active path. -/
  | nvmeFlush (f : Fn) (q : Nat)
  /-- NVME_WRITE (R351): NVM Write, whose data is read from the host as the transport asks for it. -/
  | nvmeWrite (f : Fn) (q : Nat) (reads : WriteReads)
  /-- NVME_READ (R351): NVM Read, whose data is written to the host as it arrives. -/
  | nvmeRead (f : Fn) (q : Nat) (list : HostRead)
  /-- WRITE_ZEROES (R347): NVM Write Zeroes. -/
  | writeZeroes (f : Fn) (q : Nat)
  /-- DATASET_MANAGEMENT (R347): NVM Dataset Management, with Deallocate forwarded. -/
  | datasetManagement (f : Fn) (q : Nat) (ranges : HostRead)
  /-- C2H_DATA (R351): A C2HData PDU arrives and its data is written to the host. -/
  | c2hData (ctx : Nat) (wire : Nat) (off : Nat) (data : Bytes) (headerOk : Bool) (dataOk : Bool)
  /-- REMOTE_RESPONSE (R353): A remote response or acknowledgement arrives, its tracker entry is freed and the completion is posted. -/
  | remoteResponse (ctx : Nat) (wire : Nat) (status : Nat) (dw0 : Nat) (data : Bytes) (icrcOk : Bool) (ecn : Bool)
  /-- CMD_TIMEOUT (R356): A command has waited CMD_TIMEOUT after it was sent, so its connection is judged failed. -/
  | cmdTimeout (ctx : Nat)
  /-- CONNECTION_FAILURE (R360): A digest failure, TermReq, RST, FIN or retry limit makes a context RECOVERING and may fail its path over. -/
  | connectionFailure (ctx : Nat) (digest : Bool)
  /-- RETRY_TIMEOUT (R359): A TCP RTO or RoCEv2 ACK timeout expires and the segment or operation is retried. -/
  | retryTimeout (ctx : Nat)
  /-- LOSS_TMO (R358): LOSS_TMO passes in RECOVERING, the context becomes FAILED and held work completes. -/
  | lossTmo (ctx : Nat)
  /-- CTX_WRITE (R358): STO_CTX_CTRL WRITE establishes a DISABLED context. -/
  | ctxWrite (p : Path)
  /-- CTX_READ (R368): STO_CTX_CTRL READ reads a context. -/
  | ctxRead (p : Path)
  /-- CTX_RESUME (R358): STO_CTX_CTRL RESUME re-establishes a RECOVERING context and re-sends held commands. -/
  | ctxResume (p : Path)
  /-- CTX_DISABLE (R358): STO_CTX_CTRL DISABLE disables a context and completes its work. -/
  | ctxDisable (p : Path)
  /-- NS_WRITE (R348): STO_NS_CTRL WRITE writes a namespace map entry. -/
  | nsWrite (p : Path)
  /-- NS_READ (R368): STO_NS_CTRL READ reads a namespace map entry. -/
  | nsRead (p : Path)
  /-- CNP_RX (R361): A received CNP halves the context's rate. -/
  | cnpRx (ctx : Nat)
  /-- RATE_RECOVERY (R361): Every 100 µs a context's rate recovers by RATE / 16. -/
  | rateRecovery (ctx : Nat)
  /-- REMOTE_ACCESS (R362): An incoming RDMA READ or WRITE is served or NAKed against its rkey. -/
  | remoteAccess (ctx : Nat) (write : Bool) (rkey : Nat) (off : Nat) (len : Nat) (data : Bytes) (host : HostRead) (icrcOk : Bool) (ecn : Bool)
  /-- SEND_RECEIVED (R365): A RoCEv2 SEND lands in a posted RECV_BUFFER and completes it. -/
  | sendReceived (ctx : Nat) (data : Bytes) (imm : Option (BitVec 32)) (icrcOk : Bool) (ecn : Bool)
  /-- NVMF_CMD (R365): A STORAGE-class NVMF_CMD sends an NVMe command over a fabric context. -/
  | nvmfCmd (f : Fn) (q : Nat)
  /-- RDMA_SEND (R365): A STORAGE-class RDMA_SEND. -/
  | rdmaSend (f : Fn) (q : Nat)
  /-- RDMA_WRITE (R365): A STORAGE-class RDMA_WRITE. -/
  | rdmaWrite (f : Fn) (q : Nat)
  /-- RDMA_READ (R365): A STORAGE-class RDMA_READ. -/
  | rdmaRead (f : Fn) (q : Nat)
  /-- RECV_BUFFER (R365): A STORAGE-class RECV_BUFFER posts a receive buffer. -/
  | recvBuffer (f : Fn) (q : Nat)
  /-- TRACKER_GRANT (R354): Work waiting for an in-flight tracker entry is granted one, round robin among functions. -/
  | trackerGrant
  /-- COPY (R376): Mover COPY. -/
  | copy (ch : Nat) (n : Nat) (src : HostRead)
  /-- FILL (R376): Mover FILL. -/
  | fill (ch : Nat) (n : Nat)
  /-- GATHER (R376): Mover GATHER. -/
  | gather (ch : Nat) (n : Nat) (src : HostRead) (idx : HostRead)
  /-- SCATTER (R376): Mover SCATTER. -/
  | scatter (ch : Nat) (n : Nat) (src : HostRead) (idx : HostRead)
  /-- INTERLEAVE (R376): Mover INTERLEAVE. -/
  | interleave (ch : Nat) (n : Nat) (src : HostRead)
  /-- DEINTERLEAVE (R376): Mover DEINTERLEAVE. -/
  | deinterleave (ch : Nat) (n : Nat) (src : HostRead)
  /-- TO_PLANES (R377): Mover TO_PLANES. -/
  | toPlanes (ch : Nat) (n : Nat) (src : HostRead)
  /-- FROM_PLANES (R377): Mover FROM_PLANES. -/
  | fromPlanes (ch : Nat) (n : Nat) (src : HostRead)
  /-- MOVER_ASSIGN (R372): At a beat boundary movers are assigned to waiting channels, pre-empting less urgent ones. -/
  | moverAssign
  /-- JOB_COMPLETE (R378): A job's writes have completed and its flushing read has returned, so its completion is written. -/
  | jobComplete (ch : Nat) (flush : HostRead)
  /-- BUS_ERROR (R380): A bus error halts the channel, latches the failure and completes the job with BUS_ERROR_HALTED. -/
  | busError (ch : Nat) (cause : Nat) (addr : Nat) (write : Bool) (flush : Bool) (device : Bool)
  /-- CHANNEL_RESUME (R381): DMV RESUME clears a HALTED channel's latch and starts its next job. -/
  | channelResume (p : Path) (ch : Nat)
  /-- CHANNEL_ABORT (R381): DMV ABORT flushes a HALTED channel's waiting jobs and returns it to IDLE. -/
  | channelAbort (p : Path) (ch : Nat)
  /-- CHANNEL_START (R383): DMV START runs a register-started job on a firmware channel. -/
  | channelStart (p : Path) (ch : Nat)
  /-- TFORK (R392): TFORK starts a FREE thread of the same core. -/
  | tfork (core : Nat)
  /-- TJOIN (R393): TJOIN waits for a child thread to end and frees it. -/
  | tjoin (core : Nat)
  /-- TEXIT (R393): TEXIT ends the calling thread. -/
  | texit (core : Nat)
  /-- TKILL (R393): TKILL ends a thread of the caller's domain. -/
  | tkill (core : Nat)
  /-- CPUT (R398): CPUT appends a word to the staging. -/
  | cput (core : Nat)
  /-- CSEND (R398): CSEND commits the staging as one message, waiting while the channel is full. -/
  | csend (core : Nat)
  /-- CTRYSEND (R398): CTRYSEND commits the staging unless the channel is full. -/
  | ctrysend (core : Nat)
  /-- CCLEAR (R392): CCLEAR empties the staging. -/
  | cclear (core : Nat)
  /-- CRECV (R394): CRECV waits for a message or a deadline. -/
  | crecv (core : Nat)
  /-- CPOLL (R394): CPOLL receives a message without waiting. -/
  | cpoll (core : Nat)
  /-- CGET (R392): CGET reads a word of the receive buffer. -/
  | cget (core : Nat)
  /-- TWAIT (R392): TWAIT waits until device time reaches a deadline. -/
  | twait (core : Nat)
  /-- HALLOC (R401): HALLOC allocates a frame handle, waiting while every pool is empty. -/
  | halloc (core : Nat)
  /-- HFREE (R401): HFREE frees a handle and its cells. -/
  | hfree (core : Nat)
  /-- WAIT_DEADLINE (R394): A waiting thread's deadline passes and its wait ends. -/
  | waitDeadline (thread : Nat)
  /-- INJECT (R402): An INJECT message on channel 2 is taken and its frame enters the datapath. -/
  | inject
  /-- STALL (R406): A domain has been stalled in internal waits, so STALL is raised to its supervisor. -/
  | stall (domain : Nat)
  /-- DOMAIN_RESTART (R407): SVC_DOMAIN_CTRL RESTART ends a domain's threads except the supervisor and increments EPOCH. -/
  | domainRestart (thread : Nat)
  /-- FREE_HANDLES (R407): SVC_DOMAIN_CTRL FREE_HANDLES releases every handle the domain holds. -/
  | freeHandles (thread : Nat)
  /-- SVC_CH_CFG_WRITE (R397): A write of SVC_CH_CFG configures a channel from the channel store, or ends BAD_CONFIG or NO_SPACE. -/
  | svcChCfgWrite (p : Path) (v : Word)
  /-- LANE_MISMATCH (R391): A core's two lanes disagree, so the instruction is reissued and the core's Scree counter charged. -/
  | laneMismatch (core : Nat)
  /-- CONTEXT_EXCHANGE (R391): Every 1 µs a core holding 17 contexts exchanges the one that has waited longest. -/
  | contextExchange (core : Nat)
  /-- DEBUG_HALT (R405): A debugger halts a thread at its next instruction boundary. -/
  | debugHalt (thread : Nat)
  /-- DEBUG_RESUME (R405): A debugger resumes a halted thread, and an abandoned wait runs again. -/
  | debugResume (thread : Nat)
  /-- HARTRESET (R405): hartreset ends a thread as TKILL does and discards its staging. -/
  | hartreset (thread : Nat)
  /-- MBX_SEND (R408): MBX_H2F_CTRL SEND copies the mailbox data to channel 4, or sets REFUSED when full. -/
  | mbxSend (f : Fn) (v : Word)
  /-- MBX_F2H_POP (R408): A read of MBX_F2H_POP clears F2H_FULL and sends MBX_F2H_READ to channel 4. -/
  | mbxF2hPop (f : Fn)
  /-- FMBX_SEND (R408): SVC_FMBX_CTRL SEND places a firmware reply in a function's mailbox and raises MBX_F2H. -/
  | fmbxSend (p : Path) (v : Word)
  /-- PTP_MEASUREMENT (R33): Firmware passes a PTP measurement to TIM, which judges it and runs the servo. -/
  | ptpMeasurement (slot : Nat) (m : PtpMeasurement)
  /-- PPS_EDGE (R34): An edge on PPS_IN is timestamped and judged as a candidate second marker. -/
  | ppsEdge (pin : Nat) (edge : PinEdge)
  /-- NMEA_SENTENCE (R35): A ZDA or RMC sentence on TOD_RX labels a pulse, or is discarded with NMEA_ERROR. -/
  | nmeaSentence (sentence : Nmea)
  /-- MANUAL_COMMIT (R37): A write to TIM_MANUAL_COMMIT steps the time and enters HOLDOVER, or is refused in LOCKED. -/
  | manualCommit (p : Path)
  /-- REACQUIRE (R43): TIM_CTRL REACQUIRE moves a LOCKED or HOLDOVER device to ACQUIRING. -/
  | reacquire (p : Path)
  /-- REF_QUALIFIED (R38): A slot completes QUAL_TIME without reaching MISS_LIMIT and becomes QUALIFIED. -/
  | refQualified (slot : Nat)
  /-- MISSED_INTERVAL (R39): An expected measurement interval passes with none accepted, and a slot reaching MISS_LIMIT is lost. -/
  | missedInterval (slot : Nat)
  /-- TIM_REF_CFG_WRITE (R39): A write of TIM_REF_CFG enables a slot or disables it at once. -/
  | timRefCfgWrite (p : Path) (slot : Nat) (v : Word)
  /-- BOUND_RECOMPUTE (R47): TIM recomputes the bound every 256 ns. -/
  | boundRecompute
  /-- BOUND_ALARM_WRITE (R477): A write of TIM_BOUND_ALARM that leaves the bound above the new limit counts as a crossing. -/
  | boundAlarmWrite (p : Path) (v : Word)
  /-- OSC_FAULT (R53): TOSC_IN stops or leaves ±200 ppm, so TIM changes to SYSCLK_IN and sets OSC_FAULT. -/
  | oscFault
  /-- OSC_RETURN (R53): TOSC_IN returns, TIM changes back at a tick and clears OSC_FAULT. -/
  | oscReturn
  /-- TIM_UTC_WRITE (R51): A write of TIM_UTC sets UTC_OFFSET, or announces or withdraws a leap. -/
  | timUtcWrite (p : Path) (v : Word)
  /-- LEAP_AT_WRITE (R51): A write of TIM_LEAP_AT moves a pending leap announced through TIM_UTC. -/
  | leapAtWrite (p : Path) (high : Bool) (v : Word)
  /-- LEAP_APPLIED (R51): The leap tick arrives and UTC_OFFSET changes. -/
  | leapApplied
  /-- PPS_OUT_EDGE (R59): Device time advances through a PERIOD boundary plus OFFSET, and PPS_OUT rises. -/
  | ppsOutEdge (pin : Nat)
  /-- PPS_OUT_FALL (R59): WIDTH of elapsed ticks ends the PPS_OUT high time. -/
  | ppsOutFall (pin : Nat)
  /-- TOD_TX_SENTENCE (R61): 1 ms after a PPS_OUT0 pulse that starts a second, a ZDA sentence is sent on TOD_TX. -/
  | todTxSentence
  /-- TRACE_PERIODIC (R62): Every TRACE_PERIOD seconds TIM appends a PERIODIC trace record. -/
  | tracePeriodic
  /-- TIM_SNAP (R65): A write to TIM_SNAP captures time and bound into the accessor's snapshot registers. -/
  | timSnap (p : Path)
  /-- AKZ_PORT_UP (R412): An Akzal port's lanes lock and FEC has been locked for 10 ms, so the port is up. -/
  | akzPortUp (port : Nat)
  /-- AKZ_PORT_DOWN (R412): An Akzal port loses lock, is disabled, loses its clock or exhausts its replays, and goes down. -/
  | akzPortDown (port : Nat)
  /-- LINK_FRAME_RX (R413): An Akzal link frame arrives and is acknowledged, or NAKed when it fails its CRC or sequence. -/
  | linkFrameRx (port : Nat) (crcOk : Bool) (rx : LinkRx)
  /-- LINK_NAK_RX (R413): A NAK arrives and the sender replays from the named sequence. -/
  | linkNakRx (port : Nat) (seq : Nat)
  /-- HELLO_TX (R416): Every 100 µs a joined port sends a HELLO frame. -/
  | helloTx (port : Nat)
  /-- HELLO_RX (R416): A HELLO frame updates the port's REACH and membership. -/
  | helloRx (port : Nat) (h : Hello)
  /-- HELLO_TIMEOUT (R416): 4 HELLO intervals pass without a HELLO, so REACH clears and MEMBER_LOST is raised. -/
  | helloTimeout (port : Nat)
  /-- MASTER_CHANGE (R417): Within 1 ms of a change of reach, every member re-evaluates the master. -/
  | masterChange
  /-- FORGET (R418): AKZ_CTRL FORGET removes a lost member from MEMBERS. -/
  | forget (p : Path) (member : Nat)
  /-- AKZ_DATA_RX (R421): A DATA frame is delivered locally by KIND, or forwarded in transit. -/
  | akzDataRx (port : Nat) (header : Bytes) (body : Bytes)
  /-- TIME_FRAME_TX (R423): Every 1/1,024 s a joined port sends a TIME frame stamped one-step. -/
  | timeFrameTx (port : Nat)
  /-- TIME_FRAME_RX (R424): A received TIME frame forms a measurement for an Akzal slot. -/
  | timeFrameRx (port : Nat) (body : Bytes)
  /-- BOOT_REQ (R425): Under Akzal boot, BOOT_REQ is sent every 10 ms and an UP neighbour answers with IMAGE frames. -/
  | bootReq (received : Bool)
  /-- IMAGE_FRAME (R426): An IMAGE frame is staged, verified and passed down the chain. -/
  | imageFrame (body : Bytes)
  /-- IMAGE_RESULT (R426): An IMAGE_RESULT reaches the master, which raises IMAGE_DONE when every member has reported. -/
  | imageResult (member : Nat) (status : Nat)
  /-- FAULT_COUNT (R434): A detected and absorbed fault counts in a unit's or row's Scree counter. -/
  | faultCount (kind : Nat) (index : Nat) (row : Nat) (recheckFailed : Bool)
  /-- SCREE_SUBWINDOW (R434): A Scree sub-window boundary passes and the oldest sub-window leaves the window. -/
  | screeSubwindow (kind : Nat)
  /-- HANDOFF_DONE (R440): A Saddle hand-off completes and the incoming unit re-runs the held work. -/
  | handoffDone (kind : Nat)
  /-- REPAIR_RETEST (R438): After REPAIR_DELAY a retired unit is self-tested and returns, or is CONDEMNED. -/
  | repairRetest (kind : Nat) (index : Nat) (passed : Bool)
  /-- SCRUB (R432): The background scrubber reads and corrects a line. -/
  | scrub (hbm : Bool) (line : Nat) (index : Nat) (row : Nat) (stored : Bytes) (reread : Bytes) (secondCopy : Bool)
  /-- MACHINE_CHECK_FATAL (R443): A fatal machine check stops every fast domain and the mode becomes STANDBY. -/
  | machineCheckFatal (kind : Nat) (index : Nat)
  /-- MC_RESTART (R443): 1 ms after a fatal machine check the device starts from the boot ROM. -/
  | mcRestart
  /-- TOKEN_SUBMIT (R454): LCS_TOKEN_CTRL SUBMIT judges a token and opens a debug session or makes a transition. -/
  | tokenSubmit (p : Path)
  /-- DEBUG_END (R455): LCS_TOKEN_CTRL DEBUG_END closes the debug session. -/
  | debugEnd (p : Path)
  /-- NONCE_READ (R454): A read of LCS_NONCE_LO issues a fresh nonce. -/
  | nonceRead (p : Path)
  /-- DEBUG_EXPIRY (R455): A debug session's DURATION passes on the Cairn clock and the session ends. -/
  | debugExpiry
  /-- MBX_STAGE (R459): Mailbox STAGE reads an image into the inactive bank and verifies it. -/
  | mbxStage (f : Fn) (addr : Nat) (len : Nat) (image : HostRead)
  /-- MBX_QUERY (R459): Mailbox QUERY reports the banks and versions. -/
  | mbxQuery (f : Fn)
  /-- REQUEST_UPDATE (R459): PLDM Type 5 RequestUpdate. -/
  | requestUpdate
  /-- PASS_COMPONENT_TABLE (R459): PLDM Type 5 PassComponentTable. -/
  | passComponentTable (classification : Nat) (identifier : Nat)
  /-- UPDATE_COMPONENT (R459): PLDM Type 5 UpdateComponent. -/
  | updateComponent (classification : Nat) (identifier : Nat) (size : Nat)
  /-- ACTIVATE_FIRMWARE (R459): PLDM Type 5 ActivateFirmware performs ACTIVATE. -/
  | activateFirmware
  /-- GET_STATUS (R459): PLDM Type 5 GetStatus. -/
  | getStatus
  /-- CANCEL_UPDATE (R459): PLDM Type 5 CancelUpdate. -/
  | cancelUpdate
  /-- ACTIVATE (R460): ACTIVATE starts switching the chain to the staged image, or is refused. -/
  | activate (p : Path)
  /-- MEMBER_SWITCH (R462): A member receives ACTIVATE, enters PAUSE and starts the new image. -/
  | memberSwitch (rollback : Bool)
  /-- SWITCHED (R462): Firmware writes SWITCHED, the active bank flips and PAUSE ends. -/
  | switched (p : Path)
  /-- SWITCHED_REPLY (R461): A member's SWITCHED or REVERTED reply reaches the master, which goes on or stops. -/
  | switchedReply (member : Nat) (reverted : Bool)
  /-- ACTIVATE_REVERTED (R462): SWITCHED has not been written 2.5 ms after entry, so the old image is restored. -/
  | activateReverted
  /-- DIR_WRITTEN (R463): The flash directory is written after SWITCHED and DIR_PENDING clears. -/
  | dirWritten
  /-- COMMIT (R464): COMMIT raises the SVN floor and sets COMMITTED. -/
  | commit (p : Path)
  /-- ROLLBACK (R464): ROLLBACK switches back to the previous bank and its settings. -/
  | rollback (p : Path)
  /-- AUTO_COMMIT (R464): AUTO_COMMIT seconds after SWITCHED, COMMIT is applied. -/
  | autoCommit
  /-- CONFIG_WRITE (R130): A configuration write to a function changes Command, NumVFs, ARI Capable Hierarchy, PTM Enable, timeout encodings and other RW capability fields. -/
  | configWrite (f : Fn) (off : Nat) (v : Word)
  /-- INSTRUCTION_ISSUE (R389): A core issues an ordinary RV64IMAC instruction from its next ready thread. -/
  | instructionIssue (core : Nat)
  /-- TAP_INSTRUCTION (R89): An IEEE 1149.1 instruction is shifted into the TAP and executed, public ones in every state and private ones under a debug session. -/
  | tapInstruction (code : TapCode) (data : Nat)
  /-- MGT_LINK_UP (R225): The PHY or NC-SI channel reports link, MGT_STATUS LINK_UP sets and LINK_UP of MGT is raised. -/
  | mgtLinkUp
  /-- MGT_LINK_DOWN (R225): The PHY or NC-SI channel loses link, MGT_STATUS LINK_UP clears and LINK_DOWN of MGT is raised. -/
  | mgtLinkDown
  /-- MGT_FRAME_SENT (R403): MGT finishes sending a frame, releases its handle and sends MGT_TX_DONE with SUCCESS. -/
  | mgtFrameSent
  /-- MGT_CARRIER_DROP (R221): In half duplex, carrier sense on the RGMII receive control falls and a deferring frame may start after the inter-frame gap. -/
  | mgtCarrierDrop
  /-- NVME_TCP_R2T (R351): An R2T PDU arrives and the device reads the requested Write data from host memory and sends H2CData. -/
  | nvmeTcpR2t (ctx : Nat) (wire : Nat) (off : Nat) (len : Nat) (host : HostRead)
  /-- THERMAL_WARN_REARM (R85): The hottest junction reading falls 3 °C below WARN, so THERMAL_WARN can be raised again. -/
  | thermalWarnRearm (sensor : Nat) (reading : Int)
  /-- FIRMWARE_DATA_RECEIVED (R459): The update agent's response to a PLDM RequestFirmwareData arrives with a piece of the image to stage. -/
  | firmwareDataReceived (data : Bytes)
deriving DecidableEq, Repr

end Sys2Proof
end

