-- ==== Sys2Proof/Decode.lean ====
section
/-!
DEFINITION. The commands that words spell.  No row of the opcode table has bits: the ZN3216 is commanded by register
accesses and events, and not by instruction words, so no word spells a command.
-/
namespace Sys2Proof

/-- The command that a word of nbits bits spells: none, since no row of the table gives bits. -/
def decodeTableWord (_nbits _w : Nat) : Option Instr := none

end Sys2Proof
end

