-- ==== Sys2Proof/Config.lean ====
section
/-!
DEFINITION. What one implementation fixes and what the spec leaves open: constants without a body, so that no proof can
see a value.  The key names the entry of the assumption log that says which value each stands for.
-/
namespace Sys2Proof.Config

/-- Free values, one per use (assumption 1): the step reads and advances State.free. -/
opaque freeValue : Nat → Nat

/-- The device serial number, fused (R62, R467): 128 bits. -/
opaque serial : Nat

/-- ECDSA P-384 (R63, R253, R449, R452, R454): does a signature over a digest verify under a public key? -/
opaque verifies : (key digest signature : Nat) → Bool

/-- ECDSA P-384 signature of a digest with the attestation key of a life-cycle state and an owner's hash (R63, R451, R452). -/
opaque sign : (life : Nat) → (owner : Bytes) → (digest : Nat) → Nat

/-- ECDSA P-384 signature of a digest with the DeviceID key (R450). -/
opaque signDevice : (digest : Nat) → Nat

/-- The certificate of the attestation key of a life-cycle state and an owner's hash (R451, R452). -/
opaque attestCertificate : (life : Nat) → (owner : Bytes) → Bytes

/-- Key agreement and key schedule of an SPDM session (R149): the responder's exchange data and the session keys. -/
opaque exchange : (seed : Nat) → Nat

/-- The placement of fragment keys into the 16,384 sets of the fragment table (R249, R250): the spec does not give it. -/
opaque fragSet : List Nat → Nat

/-- Does the responder ask for mutual authentication in an SPDM session (R149)? The rule says only that it is supported. -/
opaque mutualAuth : Bool

/-- What SPDM puts before the certificates of a chain (kind 0), an interface report (kind 1) and the DeviceID certificate (kind 2) (R149, R152,
R451, R452). -/
opaque certificate : (kind page : Nat) → Bytes

/-- The phase of FREQ_OUT in FREERUN, ns (R60), and the pattern in which an LED blinks on activity (R87): the spec gives neither. -/
opaque freqPhase : Nat
opaque ledBlink : (elapsed : Nat) → Bool

/-- The boundary-scan register (R89): its cells are in no order that the spec gives. What it captures from the levels of the outputs and from
what the inputs carry, and the pins that it drives. -/
opaque boundaryCapture : (levels : List Nat) → (inputs : Nat) → Nat
opaque boundaryDrives : (register pin : Nat) → Bool

/-- The extended capability ID of Physical Layer 128.0 GT/s (R121): the spec leaves it to the base specification. -/
opaque phy128Id : Nat

/-- Repair rows of each bank of the fitted HBM3E stacks (R436): at least one, and otherwise the stack's own. -/
opaque hbmRepairRows : (bank : Nat) → Nat

/-- The fewest repair rows of any bank of the fitted stacks (R436). -/
opaque hbmFewestRows : Nat

/-- Does an SRAM array hold Ochre cells or a cache (R439), and how many Ochre cells one of its rows holds? -/
opaque macroHoldsCells : (array : Nat) → Bool
opaque cellsPerRow : (array : Nat) → Nat

/-- Where the boot controller places the image of a bank in device memory, as a service thread's address (R98, R390, R410): the spec
does not say. -/
opaque imageBase : (bank : Nat) → Nat

/-- The lines that hold the cells of a frame, as `poisonKey` numbers them (R294, R431): the spec does not say where a cell lies. -/
opaque cellLines : (frame : Nat) → List Nat

/-- How many bytes zeroisation zeroes and reads back (R450): the implementation's memories. -/
opaque zeroisedBytes : Nat

/-- SHA-384 of the boot ROM (R452). -/
opaque romHash : Bytes

/-- The sealing key (R451): HKDF-SHA-384 from the fused unique secret, the life-cycle state and the current owner slot's hash. -/
opaque sealingKey : (life : Nat) → (owner : Bytes) → Bytes

/-- What the DATA of a settings block spells under the Iluchaum settings schema of its VERSION (R465), which the spec does not give: FUNCTIONS
the PFs, BOARD the Subsystem ID and
the NC-SI package, channels and vport, PORTS the Ethernet ports with their MAC_PORT_CFG and the Akzal ports, SERVICES the cores and the other units. -/
opaque schemaFunctions : (version : Nat) → (data : Bytes) → List PfSettings
opaque schemaBoard : (version : Nat) → (data : Bytes) → Nat × Nat × List Nat × Nat
opaque schemaPorts : (version : Nat) → (data : Bytes) → List (Nat × Word) × List Nat
opaque schemaServices : (version : Nat) → (data : Bytes) → List Nat × List Nat

/-- The DATA of a block of a TYPE, migrated from one VERSION of its schema to a later one (R466). -/
opaque schemaMigrate : (type old new : Nat) → (data : Bytes) → Bytes

/-- Does a transport unit of STO serve a connection context (R355)? The spec does not say which serves which. -/
opaque transportServes : (unit ctx : Nat) → Bool

/-- The room for in-capsule data that the target of a connection tells by its IOCCSZ, in bytes (R359). -/
opaque capsuleRoom : (ctx : Nat) → Nat

/-- Identify fields that the spec leaves to the implementation (R347): serial and model numbers, NQN, namespace identifiers, by kind. -/
opaque identify : (kind index : Nat) → Bytes

/-- The body of an NC-SI answer that reports the values named, in DSP0222's layout (R223). -/
opaque ncsiAnswer : (command channel : Nat) → (values : List Nat) → Bytes

/-- The answer to an MCTP message of PLDM Type 0 or 2 (R89), with the sensors' values where it reports them: PLDM gives its format. -/
opaque pldmAnswer : Bytes → (sensors : List Nat) → Bytes

/-- The device's power over the n-th 10 ms of the Cairn clock, units of 0.1 W, at most the 210 W of R70 (R87): a measurement. -/
opaque powerDrawn : (n : Nat) → Fin 2101

/-- SHA-384 of the maker's public key, fused (R448, R454). -/
opaque makerKeyHash : Bytes

/-- The on-die random source (R454), by the use. -/
opaque random : Nat → Nat

end Sys2Proof.Config
end

