-- ==== Sys2Proof/Machine/Bits.lean ====
section
/-!
DEFINITION. Bit fields and byte order: R2 numbers bits from the least significant one and includes both ends of
a range; R3 makes every structure exchanged with a host little-endian and leaves packet fields in network order.
-/
namespace Sys2Proof.Machine

/-- Field [hi:lo] of a number (R2). -/
def bits (v hi lo : Nat) : Nat := (v >>> lo) % 2 ^ (hi + 1 - lo)

/-- Field [hi:lo] of a register (R2). -/
def fld (w : Word) (hi lo : Nat) : Nat := bits w.toNat hi lo

/-- Bit n of a number, as a Bool. -/
def bitOf (v n : Nat) : Bool := v.testBit n

/-- Bit n of a register. -/
def wbit (w : Word) (n : Nat) : Bool := w.toNat.testBit n

/-- v placed at bit lo. -/
def at_ (lo v : Nat) : Nat := v <<< lo

/-- A Bool as a bit. -/
def b2n (b : Bool) : Nat := if b then 1 else 0

/-- The register value of a number, cut to 32 bits. -/
def w32 (n : Nat) : Word := BitVec.ofNat 32 n

/-- A mask of bits hi down to lo. -/
def maskOf (hi lo : Nat) : Nat := (2 ^ (hi + 1 - lo) - 1) <<< lo

/-- w with field [hi:lo] replaced by v. -/
def setFld (w : Word) (hi lo v : Nat) : Word :=
  (w &&& ~~~ (w32 (maskOf hi lo))) ||| w32 ((v % 2 ^ (hi + 1 - lo)) <<< lo)

/-- The number whose little-endian bytes these are (R3). -/
def leNat : Bytes → Nat
  | [] => 0
  | b :: t => b.toNat + 256 * leNat t

/-- n little-endian bytes of v (R3). -/
def leBytes : Nat → Nat → Bytes
  | 0, _ => []
  | n + 1, v => BitVec.ofNat 8 v :: leBytes n (v / 256)

/-- The number whose bytes, most significant first, these are (a packet field in network order). -/
def beNat (bs : Bytes) : Nat := bs.foldl (fun a b => a * 256 + b.toNat) 0

/-- n bytes of v, most significant first. -/
def beBytes (n v : Nat) : Bytes := (leBytes n v).reverse

/-- n bytes from offset off, zero-filled beyond the end. -/
def slice (bs : Bytes) (off n : Nat) : Bytes :=
  let t := (bs.drop off).take n
  t ++ List.replicate (n - t.length) 0

/-- The byte at offset i, 0 beyond the end. -/
def byteAt (bs : Bytes) (i : Nat) : Nat := (bs.getD i 0).toNat

/-- bs with the bytes from offset off replaced by new, its length kept. -/
def overwrite (bs : Bytes) (off : Nat) (new : Bytes) : Bytes :=
  (bs.take off ++ new ++ bs.drop (off + new.length)).take bs.length

/-- Little-endian field of n bytes at offset off of a structure (R3). -/
def leAt (bs : Bytes) (off n : Nat) : Nat := leNat (slice bs off n)

/-- Network-order field of n bytes at offset off of a packet. -/
def beAt (bs : Bytes) (off n : Nat) : Nat := beNat (slice bs off n)

/-- Field of n bytes at byte off of a 64-byte ring entry (R3, R164). -/
def entryField (e : BitVec 512) (off n : Nat) : Nat := (e.toNat >>> (8 * off)) % 2 ^ (8 * n)

/-- Every one of n entry bytes from off on is zero. -/
def entryZero (e : BitVec 512) (off n : Nat) : Bool := entryField e off n == 0

/-- The bytes of a 64-byte ring entry. -/
def entryBytes (e : BitVec 512) : Bytes := leBytes 64 e.toNat

/-- Two's-complement value of an n-bit number. -/
def signed (n v : Nat) : Int := if v < 2 ^ (n - 1) then (v : Int) else (v : Int) - (2 ^ n : Nat)

/-- The n-bit two's-complement code of an integer. -/
def unsigned (n : Nat) (v : Int) : Nat := (v % (2 ^ n : Nat)).toNat

/-- A saturating increment. -/
def satAdd (limit a b : Nat) : Nat := min limit (a + b)

/-- n div d, rounded up. -/
def ceilDiv (n d : Nat) : Nat := (n + d - 1) / d

/-- The first n elements that a function gives some value for, in order. -/
def firstSome {α β : Type} (f : α → Option β) : List α → Option β
  | [] => none
  | a :: t => match f a with
    | some b => some b
    | none => firstSome f t

/-- The list with its first element that meets p changed by f; unchanged where none does. -/
def updFirst {α : Type} (p : α → Bool) (f : α → α) : List α → List α
  | [] => []
  | a :: t => if p a then f a :: t else a :: updFirst p f t

/-- Element i of a list changed by f. -/
def updAt {α : Type} (i : Nat) (f : α → α) (l : List α) : List α :=
  match l[i]? with
  | some a => l.set i (f a)
  | none => l

/-- The list without its first element that meets p. -/
def dropFirst {α : Type} (p : α → Bool) : List α → List α
  | [] => []
  | a :: t => if p a then t else a :: dropFirst p t

end Sys2Proof.Machine
end

