-- ==== Sys2Proof/Machine/RegTable.lean ====
section
/-!
DEFINITION. The register tables of the spec: every register of PF BAR0 and VF BAR0 by the manual's own name, with its
fields (access code of R7, value at the reset of its kind), its offset, its repetition, what it is held for, which
PF may write it (R473) and which reset governs it (R469, R470).  The window header of R13 is BLOCK_ID and
BLOCK_DOMAIN, one of each per block.
-/
namespace Sys2Proof.Machine

/-- Access codes of R7. -/
inductive Acc where
  | rw | ro | w1c | w1s | wo | rc | rwl
deriving DecidableEq, Repr

/-- What a register is held once for: the device; the accessing function; the accessing path (R476); a VF that
HIF_VF_SELECT names; a queue, scheduler node, mover channel, mover window, indirection table, NVMe controller,
service channel or fault domain that a selection register names; a half (R479). -/
inductive Held where
  | device | function | path | vf | queue | node | channel | window | ind | ctrl | svcChannel | domain | half
deriving DecidableEq, Repr

/-- Which PF may write a register (R473): any, PF0 of a half in use, none, or the VF that owns VF BAR0. -/
inductive Right where
  | any | pf0 | none | own
deriving DecidableEq, Repr

/-- Reset kinds of R469. -/
inductive ResetKind where
  | power | restart | function
deriving DecidableEq, Repr

/-- Where a register stands: a block window of PF BAR0 (its block code), or VF BAR0. -/
inductive Space where
  | block (code : Nat) | vf
deriving DecidableEq, Repr

/-- One field of a register. -/
structure Field where
  hi : Nat
  lo : Nat
  acc : Acc
  reset : Nat := 0
deriving DecidableEq, Repr

/-- One register family of the spec: offset + i * stride + j * stride2 for i < count, j < count2. -/
structure RegInfo where
  space : Space
  off : Nat
  fields : List Field
  count : Nat := 1
  stride : Nat := 0
  count2 : Nat := 1
  stride2 : Nat := 0
  held : Held := .device
  right : Right := .none
  kind : ResetKind := .restart
deriving DecidableEq, Repr

/-- Every register of PF BAR0 and VF BAR0, by its name in the spec. -/
inductive Reg where
  | BLOCK_ID | BLOCK_DOMAIN
  | TIM_CTRL | TIM_STATUS | TIM_BOUND | TIM_SNAP | TIM_SNAP_SEC_LO | TIM_SNAP_SEC_HI | TIM_SNAP_NS | TIM_SNAP_FRAC
  | TIM_SNAP_BOUND | TIM_SERVO_CFG | TIM_LOCK_CFG | TIM_STEP_THRESH | TIM_SLEW_LIMIT | TIM_LOCK_FREQ_ALLOW
  | TIM_HOLD_FREQ_ALLOW | TIM_HOLD_AGING_ALLOW | TIM_OSC_FAULT_ALLOW | TIM_BOUND_ALARM | TIM_UTC | TIM_LEAP_AT_LO
  | TIM_LEAP_AT_HI | TIM_HOLD_AVG | TIM_PF_PAGE_LO | TIM_PF_PAGE_HI | TIM_REF_CFG | TIM_REF_UPSTREAM_ALLOW
  | TIM_REF_ASYM_ALLOW | TIM_REF_CORRECTION | TIM_REF_LAST_OFFSET_LO | TIM_REF_LAST_OFFSET_HI | TIM_REF_STATE
  | TIM_REF_MISSES | TIM_PPS_OUT_CFG | TIM_PPS_OUT_OFFSET | TIM_FREQ_OUT_CFG | TIM_TOD_CFG | TIM_PPS_IN_CFG
  | TIM_PAGE_PERIOD | TIM_TRACE_CFG | TIM_TRACE_HEAD | TIM_TRACE_OVERWRITES | TIM_TRACE_SELECT | TIM_TRACE_WINDOW
  | TIM_MANUAL_TIME_LO | TIM_MANUAL_TIME_HI | TIM_MANUAL_BOUND | TIM_MANUAL_COMMIT | CAI_STRAP | CAI_RESET_CAUSE
  | CAI_RAIL_STATUS | CAI_FAULT | CAI_PM_CFG | CAI_TEMP | CAI_THERM_CFG | CAI_LED_CFG | CAI_WAKE_AT_LO
  | CAI_WAKE_AT_HI | CAI_POWER | CAI_MODE | CAI_MODE_REQ | CAI_MODE_CFG | HIF_PF_STATUS | HIF_ACCESS_ERR
  | HIF_ACCESS_ERR_OFFSET | HIF_LINK_STATUS | HIF_CTO_VALUE | HIF_TAGS | HIF_FN_TAG_LIMIT | HIF_PF_QUIESCE
  | HIF_UNEXP_CPL | HIF_CTO_COUNT | HIF_PF_RES | VF_STATUS | VF_QUIESCE | TIM_VF_PAGE_LO | TIM_VF_PAGE_HI
  | QM_Q_SELECT | QM_Q_BASE_LO | QM_Q_BASE_HI | QM_Q_CFG | QM_CQ_MODERATION | QM_Q_STATE | QM_Q_CTRL | QM_Q_PASID
  | QM_EVENT_MASK | QM_DB_INVALID | HIF_PF_QPOOL | HIF_PF_QCOUNT | HIF_PF_EQPOOL | HIF_PF_VPORTS | HIF_VF_SELECT
  | HIF_VF_Q_BASE | HIF_VF_Q_COUNT | HIF_VF_EQ | HIF_VF_VECTORS | HIF_VF_VPORT | HIF_VF_PERM | HIF_VF_CTRL
  | HIF_VF_MIG_STATE | HIF_VF_IMG_LO | HIF_VF_IMG_HI | HIF_VF_IMG_LEN | HIF_VF_IMG_USED | HIF_VF_LOG_A_LO
  | HIF_VF_LOG_A_HI | HIF_VF_LOG_B_LO | HIF_VF_LOG_B_HI | HIF_VF_LOG_IOVA_LO | HIF_VF_LOG_IOVA_HI
  | HIF_VF_LOG_PAGES | HIF_VF_FREEZE_LIMIT | MAC_PORT_CFG | MAC_PORT_STATUS | MAC_LP_CFG | MAC_LP_STATUS
  | MAC_LP_SA_LO | MAC_LP_SA_HI | MAC_LP_TS_RX_CORR | MAC_LP_TS_TX_CORR | MAC_LP_FC_CFG | MAC_LP_FC_REFRESH
  | MAC_LP_WD_CFG | MAC_LP_WD_STATUS | MAC_LP_FEC_CFG | MAC_LP_XOFF_CELLS | MAC_LP_XON_CELLS | MAC_LP_MAX_CELLS
  | MAC_LP_CELLS_HELD | MAC_LP_STAT_SNAP | MAC_LP_SNAP_TIME_LO | MAC_LP_SNAP_TIME_HI | MAC_LP_SNAP_BOUND
  | MAC_LP_STAT | MAC_MC_HASH | MAC_FLT_DATA | MAC_FLT_CTRL | MAC_FLT_STATUS | MGT_CFG | MGT_SA_LO | MGT_SA_HI
  | MGT_STATUS | MGT_MDIO_CTRL | MGT_MDIO_DATA | MGT_STAT | PRS_LOAD_ADDR_LO | PRS_LOAD_ADDR_HI | PRS_LOAD_CTRL
  | PRS_LOAD_STATUS | PRS_BUILD_ID | PRS_FRAG_CFG | PRS_FRAG_USED | PRS_RUNNING | PRS_EP | PRS_BIND_LPORT
  | PRS_BIND_HOST | PRS_BIND_AKZ | PRS_BIND_SVC | PRS_HASH_KEY | PRS_STAT | PRS_IND_SELECT | PRS_IND_CFG
  | PRS_IND_ENTRY | PRS_IND_STATUS | TBL_HASH_SEED | TBL_STATUS | TBL_ADMIN | TBL_LOCK_TIMEOUT | TBL_FLOW_HWM
  | TBL_FLOW_USED | TBL_STASH_USED | TBL_LPM_USED | TBL_ACL_USED | TBL_AGE_PERIOD | TBL_PROG_CTRL | TBL_PROG_SELECT
  | TBL_PROG_DATA | TBL_PROG_WRITE | TBL_MOVE | TBL_STAT | TBL_PROG_MISS | MAC_GATE_CFG | MAC_GATE_COMMIT
  | MAC_GATE_STATUS | MAC_GATE_ADMIN_BASE_LO | MAC_GATE_ADMIN_BASE_HI | MAC_GATE_ADMIN_CYCLE | MAC_GATE_ADMIN_LEN
  | MAC_GATE_CHANGE_TIME_LO | MAC_GATE_CHANGE_TIME_HI | MAC_GATE_OPER_BASE_LO | MAC_GATE_OPER_BASE_HI
  | MAC_GATE_OPER_CYCLE | MAC_GATE_OPER_LEN | MAC_GATE_WINDOW | MAC_GATE_ADMIN_ENTRY_LO | MAC_GATE_ADMIN_ENTRY_HI
  | MAC_GATE_OPER_ENTRY_LO | MAC_GATE_OPER_ENTRY_HI | TM_POOL_FREE_OCHRE | TM_POOL_FREE_UMBER | TM_POOL_FREE_SIENNA
  | TM_POOL_LOW_OCHRE | TM_POOL_LOW_UMBER | TM_POOL_LOW_SIENNA | TM_STAT | TM_LAUNCH_LATE | TM_NODE_SELECT
  | TM_NODE_CFG | TM_NODE_RATE | TM_NODE_BURST | TM_NODE_ADJ | TM_NODE_TOKENS | TM_NODE_QLIMIT_G | TM_NODE_QLIMIT_Y
  | TM_NODE_QLIMIT_R | TM_NODE_DEPTH | TM_NODE_DEFQ | TM_NODE_DROPS | TM_NODE_STATUS | TM_METER_SELECT
  | TM_METER_DATA | TM_METER_CTRL | TM_METER_STATUS | CRY_ENGINES | CRY_CHECKERS | CRY_SLOTS_VALID | CRY_CACHE_HIT
  | CRY_CACHE_MISS | CRY_STAT | STO_TRK_USED | STO_TRK_HWM | STO_TRK_FN_LIMIT | STO_CTX_SELECT | STO_CTX_CTRL
  | STO_CTX_STATUS | STO_CTX_DATA | STO_NS_SELECT | STO_NS_CTRL | STO_NS_STATUS | STO_NS_DATA | STO_CTRL_SELECT
  | STO_CTRL_CFG | STO_CTRL_STATUS | STO_STAT | DMV_MOVERS | DMV_CH_SELECT | DMV_CH_CFG | DMV_CH_CTRL
  | DMV_CH_STATUS | DMV_CH_FAIL_ADDR_LO | DMV_CH_FAIL_ADDR_HI | DMV_CH_DESC | DMV_WIN_SELECT | DMV_WIN_BASE_LO
  | DMV_WIN_BASE_HI | DMV_WIN_SIZE | DMV_WIN_OWNER | DMV_STAT | VF_DMV_CTRL | VF_DMV_STATUS | MBX_H2F_DATA
  | MBX_H2F_CTRL | MBX_STATUS | MBX_F2H_DATA | MBX_F2H_POP | SVC_CORES | SVC_CH_SELECT | SVC_CH_CFG | SVC_CH_STATUS
  | SVC_CH_STORE_FREE | SVC_DOMAIN_SELECT | SVC_DOMAIN_CFG | SVC_DOMAIN_CTRL | SVC_DOMAIN_STATUS | SVC_HANDLES_FREE
  | SVC_FW_EVENT_MASK | SVC_FMBX_DATA | SVC_FMBX_CTRL | SVC_FMBX_STATUS | SVC_STAT | AKZ_CFG | AKZ_STATUS
  | AKZ_PORT_STATUS | AKZ_CTRL | AKZ_QLIMIT | AKZ_CREDIT_CELLS | AKZ_MEMBER_SERIAL_LO | AKZ_MEMBER_SERIAL_HI
  | AKZ_STAT | REL_SUMMARY | REL_READY0 | REL_READY1 | REL_READY2 | REL_UNIT_SELECT | REL_UNIT_STATUS
  | REL_SCREE_CFG | REL_SPARES | REL_CORR_S | REL_CORR_H | REL_POISON_WRITTEN | REL_POISON_READ | REL_PAGES_RETIRED
  | REL_SCRUB_CFG | REL_REPAIR_DELAY | REL_CAP_DROP | REL_MC_SELECT | REL_MC_HEAD | REL_MC_WINDOW | LCS_STATE
  | LCS_DEBUG_LEFT | LCS_SERIAL | LCS_NONCE_LO | LCS_NONCE_HI | LCS_TOKEN_CTRL | LCS_TOKEN_STATUS | LCS_TOKEN_BUF
  | LCS_FW_STATUS | LCS_FW_CTRL | LCS_FW_CFG | LCS_FW_RUNNING | LCS_FW_STAGED | LCS_CERT_SELECT | LCS_CERT_LEN
  | LCS_CERT_WINDOW
deriving DecidableEq, Repr

/-- The entry of each register in the register tables of the spec (R13, R65, R87, R112, R154, R177, R188, R218, R224, R256,
R292, R316, R318, R342, R368, R384, R385, R410, R427, R445, R467, R474). -/
def Reg.info : Reg → RegInfo
  | .BLOCK_ID => { space := .block 0, off := 0, fields := [⟨31, 24, .ro, 0⟩, ⟨23, 16, .ro, 1⟩, ⟨15, 8, .ro, 0⟩], count := 16, stride := 0x200000 }
  | .BLOCK_DOMAIN => { space := .block 0, off := 4, fields := [⟨16, 16, .rw, 0⟩, ⟨15, 8, .rc, 0⟩, ⟨2, 0, .ro, 0⟩], count := 16, stride := 0x200000, held := .half, right := .any }
  | .TIM_CTRL => { space := .block 0xd, off := 0x100, fields := [⟨0, 0, .wo, 0⟩], right := .pf0, kind := .power }
  | .TIM_STATUS => { space := .block 0xd, off := 0x104, fields := [⟨31, 24, .ro, 0⟩, ⟨18, 16, .ro, 0⟩, ⟨6, 6, .w1c, 0⟩, ⟨5, 5, .ro, 0⟩, ⟨4, 4, .ro, 0⟩, ⟨3, 3, .ro, 0⟩, ⟨2, 2, .ro, 0⟩, ⟨1, 1, .w1c, 0⟩, ⟨0, 0, .w1c, 0⟩], right := .pf0, kind := .power }
  | .TIM_BOUND => { space := .block 0xd, off := 0x108, fields := [⟨31, 0, .ro, 0xffffffff⟩], right := .pf0, kind := .power }
  | .TIM_SNAP => { space := .block 0xd, off := 0x10c, fields := [⟨0, 0, .wo, 0⟩], held := .path, right := .any, kind := .function }
  | .TIM_SNAP_SEC_LO => { space := .block 0xd, off := 0x110, fields := [⟨31, 0, .ro, 0⟩], held := .path, right := .pf0, kind := .function }
  | .TIM_SNAP_SEC_HI => { space := .block 0xd, off := 0x114, fields := [⟨15, 0, .ro, 0⟩], held := .path, right := .pf0, kind := .function }
  | .TIM_SNAP_NS => { space := .block 0xd, off := 0x118, fields := [⟨31, 0, .ro, 0⟩], held := .path, right := .pf0, kind := .function }
  | .TIM_SNAP_FRAC => { space := .block 0xd, off := 0x11c, fields := [⟨15, 0, .ro, 0⟩], held := .path, right := .pf0, kind := .function }
  | .TIM_SNAP_BOUND => { space := .block 0xd, off := 0x120, fields := [⟨31, 0, .ro, 0⟩], held := .path, right := .pf0, kind := .function }
  | .TIM_SERVO_CFG => { space := .block 0xd, off := 0x140, fields := [⟨3, 0, .rw, 2⟩, ⟨11, 8, .rw, 6⟩, ⟨23, 16, .rw, 0x10⟩], right := .pf0, kind := .power }
  | .TIM_LOCK_CFG => { space := .block 0xd, off := 0x144, fields := [⟨15, 0, .rw, 0x32⟩, ⟨23, 16, .rw, 0x10⟩], right := .pf0, kind := .power }
  | .TIM_STEP_THRESH => { space := .block 0xd, off := 0x148, fields := [⟨31, 0, .rw, 0xf4240⟩], right := .pf0, kind := .power }
  | .TIM_SLEW_LIMIT => { space := .block 0xd, off := 0x14c, fields := [⟨31, 0, .rw, 0x2710⟩], right := .pf0, kind := .power }
  | .TIM_LOCK_FREQ_ALLOW => { space := .block 0xd, off := 0x150, fields := [⟨31, 0, .rw, 0xf42400⟩], right := .pf0, kind := .power }
  | .TIM_HOLD_FREQ_ALLOW => { space := .block 0xd, off := 0x154, fields := [⟨31, 0, .rw, 0x1f40⟩], right := .pf0, kind := .power }
  | .TIM_HOLD_AGING_ALLOW => { space := .block 0xd, off := 0x158, fields := [⟨31, 0, .rw, 0x4b0⟩], right := .pf0, kind := .power }
  | .TIM_OSC_FAULT_ALLOW => { space := .block 0xd, off := 0x15c, fields := [⟨31, 0, .rw, 0xc350⟩], right := .pf0, kind := .power }
  | .TIM_BOUND_ALARM => { space := .block 0xd, off := 0x160, fields := [⟨31, 0, .rw, 0x64⟩], right := .pf0, kind := .power }
  | .TIM_UTC => { space := .block 0xd, off := 0x164, fields := [⟨15, 0, .rw, 0⟩, ⟨16, 16, .rw, 0⟩, ⟨17, 17, .rw, 0⟩, ⟨18, 18, .rw, 0⟩], right := .pf0, kind := .power }
  | .TIM_LEAP_AT_LO => { space := .block 0xd, off := 0x168, fields := [⟨31, 0, .rw, 0⟩], right := .pf0, kind := .power }
  | .TIM_LEAP_AT_HI => { space := .block 0xd, off := 0x16c, fields := [⟨31, 0, .rw, 0⟩], right := .pf0, kind := .power }
  | .TIM_HOLD_AVG => { space := .block 0xd, off := 0x170, fields := [⟨31, 0, .rw, 0x400⟩], right := .pf0, kind := .power }
  | .TIM_PF_PAGE_LO => { space := .block 0xd, off := 0x180, fields := [⟨31, 6, .rw, 0⟩, ⟨0, 0, .rw, 0⟩], held := .function, right := .any, kind := .function }
  | .TIM_PF_PAGE_HI => { space := .block 0xd, off := 0x184, fields := [⟨31, 0, .rw, 0⟩], held := .function, right := .any, kind := .function }
  | .TIM_REF_CFG => { space := .block 0xd, off := 0x220, fields := [⟨31, 31, .rw, 0⟩, ⟨27, 24, .rw, 8⟩, ⟨23, 16, .rw, 0xa⟩, ⟨15, 8, .rw, 3⟩, ⟨0, 0, .rw, 0⟩], count := 20, stride := 0x20, right := .pf0, kind := .power }
  | .TIM_REF_UPSTREAM_ALLOW => { space := .block 0xd, off := 0x224, fields := [⟨31, 0, .rw, 0⟩], count := 20, stride := 0x20, right := .pf0, kind := .power }
  | .TIM_REF_ASYM_ALLOW => { space := .block 0xd, off := 0x228, fields := [⟨31, 0, .rw, 0⟩], count := 20, stride := 0x20, right := .pf0, kind := .power }
  | .TIM_REF_CORRECTION => { space := .block 0xd, off := 0x22c, fields := [⟨31, 0, .rw, 0⟩], count := 20, stride := 0x20, right := .pf0, kind := .power }
  | .TIM_REF_LAST_OFFSET_LO => { space := .block 0xd, off := 0x230, fields := [⟨31, 0, .ro, 0⟩], count := 20, stride := 0x20, right := .pf0, kind := .power }
  | .TIM_REF_LAST_OFFSET_HI => { space := .block 0xd, off := 0x234, fields := [⟨31, 0, .ro, 0⟩], count := 20, stride := 0x20, right := .pf0, kind := .power }
  | .TIM_REF_STATE => { space := .block 0xd, off := 0x238, fields := [⟨1, 0, .ro, 0⟩, ⟨2, 2, .ro, 0⟩, ⟨3, 3, .ro, 0⟩], count := 20, stride := 0x20, right := .pf0, kind := .power }
  | .TIM_REF_MISSES => { space := .block 0xd, off := 0x23c, fields := [⟨31, 0, .rc, 0⟩], count := 20, stride := 0x20, right := .pf0, kind := .power }
  | .TIM_PPS_OUT_CFG => { space := .block 0xd, off := 0x500, fields := [⟨31, 31, .rw, 0⟩, ⟨30, 30, .rw, 1⟩, ⟨27, 24, .rw, 0⟩, ⟨23, 0, .rw, 0x186a0⟩], count := 2, stride := 0x10, right := .pf0, kind := .power }
  | .TIM_PPS_OUT_OFFSET => { space := .block 0xd, off := 0x504, fields := [⟨31, 0, .rw, 0⟩], count := 2, stride := 0x10, right := .pf0, kind := .power }
  | .TIM_FREQ_OUT_CFG => { space := .block 0xd, off := 0x520, fields := [⟨0, 0, .rw, 0⟩, ⟨1, 1, .rw, 1⟩], right := .pf0, kind := .power }
  | .TIM_TOD_CFG => { space := .block 0xd, off := 0x530, fields := [⟨23, 0, .rw, 0x2580⟩, ⟨24, 24, .rw, 0⟩, ⟨25, 25, .rw, 0⟩, ⟨26, 26, .rw, 0⟩], right := .pf0, kind := .power }
  | .TIM_PPS_IN_CFG => { space := .block 0xd, off := 0x540, fields := [⟨0, 0, .rw, 0⟩], count := 2, stride := 0x8, right := .pf0, kind := .power }
  | .TIM_PAGE_PERIOD => { space := .block 0xd, off := 0x600, fields := [⟨31, 0, .rw, 0x3e8⟩], right := .pf0, kind := .power }
  | .TIM_TRACE_CFG => { space := .block 0xd, off := 0x700, fields := [⟨15, 0, .rw, 1⟩, ⟨23, 16, .rw, 0x40⟩], right := .pf0, kind := .power }
  | .TIM_TRACE_HEAD => { space := .block 0xd, off := 0x704, fields := [⟨31, 0, .ro, 0⟩], right := .pf0, kind := .power }
  | .TIM_TRACE_OVERWRITES => { space := .block 0xd, off := 0x708, fields := [⟨31, 0, .rc, 0⟩], right := .pf0, kind := .power }
  | .TIM_TRACE_SELECT => { space := .block 0xd, off := 0x70c, fields := [⟨31, 0, .rw, 0⟩], held := .path, right := .pf0, kind := .power }
  | .TIM_TRACE_WINDOW => { space := .block 0xd, off := 0x800, fields := [⟨31, 0, .ro, 0⟩], count := 32, stride := 0x4, right := .pf0, kind := .power }
  | .TIM_MANUAL_TIME_LO => { space := .block 0xd, off := 0x900, fields := [⟨31, 0, .rw, 0⟩], right := .pf0, kind := .power }
  | .TIM_MANUAL_TIME_HI => { space := .block 0xd, off := 0x904, fields := [⟨31, 0, .rw, 0⟩], right := .pf0, kind := .power }
  | .TIM_MANUAL_BOUND => { space := .block 0xd, off := 0x908, fields := [⟨31, 0, .rw, 0⟩], right := .pf0, kind := .power }
  | .TIM_MANUAL_COMMIT => { space := .block 0xd, off := 0x90c, fields := [⟨0, 0, .wo, 0⟩], right := .pf0, kind := .power }
  | .CAI_STRAP => { space := .block 0x0, off := 0x100, fields := [⟨7, 7, .ro, 0⟩, ⟨6, 6, .ro, 0⟩, ⟨5, 5, .ro, 0⟩, ⟨4, 4, .ro, 0⟩, ⟨3, 2, .ro, 0⟩, ⟨1, 0, .ro, 0⟩], right := .pf0, kind := .power }
  | .CAI_RESET_CAUSE => { space := .block 0x0, off := 0x104, fields := [⟨3, 0, .ro, 0⟩], right := .pf0, kind := .power }
  | .CAI_RAIL_STATUS => { space := .block 0x0, off := 0x108, fields := [⟨5, 0, .ro, 0⟩], right := .pf0, kind := .power }
  | .CAI_FAULT => { space := .block 0x0, off := 0x10c, fields := [⟨5, 0, .w1c, 0⟩, ⟨8, 8, .w1c, 0⟩, ⟨9, 9, .w1c, 0⟩, ⟨10, 10, .w1c, 0⟩, ⟨11, 11, .w1c, 0⟩, ⟨12, 12, .w1c, 0⟩, ⟨13, 13, .w1c, 0⟩], right := .pf0, kind := .power }
  | .CAI_PM_CFG => { space := .block 0x0, off := 0x110, fields := [⟨31, 24, .rw, 8⟩, ⟨23, 20, .rw, 2⟩, ⟨19, 16, .rw, 2⟩, ⟨15, 0, .rw, 0x64⟩], right := .pf0 }
  | .CAI_TEMP => { space := .block 0x0, off := 0x114, fields := [⟨15, 0, .ro, 0⟩, ⟨19, 16, .ro, 0⟩], right := .pf0, kind := .power }
  | .CAI_THERM_CFG => { space := .block 0x0, off := 0x118, fields := [⟨7, 0, .rw, 0x6c⟩, ⟨15, 8, .rw, 0x78⟩], right := .pf0 }
  | .CAI_LED_CFG => { space := .block 0x0, off := 0x11c, fields := [⟨3, 0, .rw, 1⟩, ⟨7, 4, .rw, 3⟩, ⟨11, 8, .rw, 2⟩, ⟨15, 12, .rw, 8⟩], right := .pf0 }
  | .CAI_WAKE_AT_LO => { space := .block 0x0, off := 0x120, fields := [⟨31, 0, .rw, 0⟩], right := .pf0 }
  | .CAI_WAKE_AT_HI => { space := .block 0x0, off := 0x124, fields := [⟨31, 0, .rw, 0⟩], right := .pf0 }
  | .CAI_POWER => { space := .block 0x0, off := 0x128, fields := [⟨31, 0, .ro, 0⟩], right := .pf0, kind := .power }
  | .CAI_MODE => { space := .block 0x0, off := 0x130, fields := [⟨31, 20, .ro, 0⟩, ⟨17, 16, .ro, 0⟩, ⟨15, 15, .w1c, 0⟩, ⟨14, 14, .w1c, 0⟩, ⟨13, 13, .w1c, 0⟩, ⟨11, 8, .ro, 1⟩, ⟨3, 0, .ro, 2⟩], right := .pf0, kind := .power }
  | .CAI_MODE_REQ => { space := .block 0x0, off := 0x134, fields := [⟨3, 0, .wo, 0⟩], right := .any, kind := .power }
  | .CAI_MODE_CFG => { space := .block 0x0, off := 0x138, fields := [⟨31, 16, .rw, 0x3e8⟩, ⟨15, 8, .rw, 0xf⟩, ⟨0, 0, .rw, 0⟩], right := .pf0, kind := .power }
  | .HIF_PF_STATUS => { space := .block 0x2, off := 0x100, fields := [⟨11, 8, .ro, 0⟩, ⟨0, 0, .ro, 0⟩], held := .function, right := .any, kind := .function }
  | .HIF_ACCESS_ERR => { space := .block 0x2, off := 0x104, fields := [⟨31, 20, .ro, 0⟩, ⟨19, 19, .ro, 0⟩, ⟨18, 18, .ro, 0⟩, ⟨0, 0, .w1c, 0⟩], held := .function, right := .any, kind := .function }
  | .HIF_ACCESS_ERR_OFFSET => { space := .block 0x2, off := 0x108, fields := [⟨24, 0, .ro, 0⟩], held := .function, right := .any, kind := .function }
  | .HIF_LINK_STATUS => { space := .block 0x2, off := 0x110, fields := [⟨2, 0, .ro, 0⟩, ⟨7, 3, .ro, 0⟩, ⟨8, 8, .ro, 0⟩, ⟨9, 9, .ro, 0⟩], held := .function, right := .any, kind := .function }
  | .HIF_CTO_VALUE => { space := .block 0x2, off := 0x114, fields := [⟨25, 0, .rw, 0⟩], held := .function, right := .any, kind := .function }
  | .HIF_TAGS => { space := .block 0x2, off := 0x118, fields := [⟨14, 0, .ro, 0⟩, ⟨30, 16, .ro, 0⟩], held := .function, right := .any, kind := .function }
  | .HIF_FN_TAG_LIMIT => { space := .block 0x2, off := 0x11c, fields := [⟨14, 0, .rw, 0x1000⟩], held := .function, right := .any, kind := .function }
  | .HIF_PF_QUIESCE => { space := .block 0x2, off := 0x120, fields := [⟨0, 0, .ro, 1⟩], held := .function, right := .any, kind := .function }
  | .HIF_UNEXP_CPL => { space := .block 0x2, off := 0x124, fields := [⟨31, 0, .rc, 0⟩], held := .function, right := .any, kind := .function }
  | .HIF_CTO_COUNT => { space := .block 0x2, off := 0x128, fields := [⟨31, 0, .rc, 0⟩], held := .function, right := .any, kind := .function }
  | .HIF_PF_RES => { space := .block 0x2, off := 0x12c, fields := [⟨10, 0, .ro, 0⟩, ⟨13, 12, .ro, 0⟩, ⟨16, 16, .ro, 0⟩, ⟨31, 19, .ro, 0⟩], held := .function, right := .any, kind := .function }
  | .VF_STATUS => { space := .vf, off := 0x0, fields := [⟨11, 8, .ro, 0⟩, ⟨0, 0, .ro, 0⟩], held := .function, right := .own, kind := .function }
  | .VF_QUIESCE => { space := .vf, off := 0x4, fields := [⟨0, 0, .ro, 1⟩], held := .function, right := .own, kind := .function }
  | .TIM_VF_PAGE_LO => { space := .vf, off := 0x100, fields := [⟨31, 6, .rw, 0⟩, ⟨0, 0, .rw, 0⟩], held := .function, right := .own, kind := .function }
  | .TIM_VF_PAGE_HI => { space := .vf, off := 0x104, fields := [⟨31, 0, .rw, 0⟩], held := .function, right := .own, kind := .function }
  | .QM_Q_SELECT => { space := .block 0x3, off := 0x100, fields := [⟨18, 0, .rw, 0⟩], held := .path, right := .any, kind := .function }
  | .QM_Q_BASE_LO => { space := .block 0x3, off := 0x104, fields := [⟨31, 12, .rw, 0⟩], held := .queue, right := .any, kind := .function }
  | .QM_Q_BASE_HI => { space := .block 0x3, off := 0x108, fields := [⟨31, 0, .rw, 0⟩], held := .queue, right := .any, kind := .function }
  | .QM_Q_CFG => { space := .block 0x3, off := 0x10c, fields := [⟨31, 31, .rw, 0⟩, ⟨30, 28, .rw, 0⟩, ⟨27, 26, .rw, 0⟩, ⟨23, 4, .rw, 0⟩, ⟨3, 0, .rw, 0⟩], held := .queue, right := .any, kind := .function }
  | .QM_CQ_MODERATION => { space := .block 0x3, off := 0x110, fields := [⟨31, 24, .rw, 0⟩, ⟨23, 16, .rw, 1⟩, ⟨10, 0, .rw, 0⟩], held := .queue, right := .any, kind := .function }
  | .QM_Q_STATE => { space := .block 0x3, off := 0x114, fields := [⟨31, 16, .ro, 0⟩, ⟨15, 12, .ro, 0⟩, ⟨2, 0, .ro, 0⟩], held := .queue, right := .any, kind := .function }
  | .QM_Q_CTRL => { space := .block 0x3, off := 0x118, fields := [⟨1, 0, .wo, 0⟩], held := .queue, right := .any, kind := .function }
  | .QM_Q_PASID => { space := .block 0x3, off := 0x11c, fields := [⟨19, 0, .rw, 0⟩, ⟨31, 31, .rw, 0⟩], held := .queue, right := .any, kind := .function }
  | .QM_EVENT_MASK => { space := .block 0x3, off := 0x120, fields := [⟨15, 0, .rw, 0x7fff⟩], held := .function, right := .any, kind := .function }
  | .QM_DB_INVALID => { space := .block 0x3, off := 0x124, fields := [⟨31, 0, .rc, 0⟩], held := .function, right := .any, kind := .function }
  | .HIF_PF_QPOOL => { space := .block 0x2, off := 0x130, fields := [⟨16, 0, .ro, 0⟩], held := .function, right := .any, kind := .function }
  | .HIF_PF_QCOUNT => { space := .block 0x2, off := 0x134, fields := [⟨17, 0, .ro, 0⟩], held := .function, right := .any, kind := .function }
  | .HIF_PF_EQPOOL => { space := .block 0x2, off := 0x138, fields := [⟨12, 0, .ro, 0⟩, ⟨27, 14, .ro, 0⟩], held := .function, right := .any, kind := .function }
  | .HIF_PF_VPORTS => { space := .block 0x2, off := 0x13c, fields := [⟨11, 0, .ro, 0⟩, ⟨24, 12, .ro, 0⟩], held := .function, right := .any, kind := .function }
  | .HIF_VF_SELECT => { space := .block 0x2, off := 0x200, fields := [⟨11, 0, .rw, 0⟩], held := .path, right := .any, kind := .function }
  | .HIF_VF_Q_BASE => { space := .block 0x2, off := 0x204, fields := [⟨16, 0, .rw, 0⟩], held := .vf, right := .any, kind := .function }
  | .HIF_VF_Q_COUNT => { space := .block 0x2, off := 0x208, fields := [⟨10, 0, .rw, 0⟩, ⟨25, 16, .rw, 0⟩], held := .vf, right := .any, kind := .function }
  | .HIF_VF_EQ => { space := .block 0x2, off := 0x20c, fields := [⟨12, 0, .rw, 0⟩, ⟨22, 16, .rw, 0⟩], held := .vf, right := .any, kind := .function }
  | .HIF_VF_VECTORS => { space := .block 0x2, off := 0x210, fields := [⟨11, 0, .rw, 0⟩], held := .vf, right := .any, kind := .function }
  | .HIF_VF_VPORT => { space := .block 0x2, off := 0x214, fields := [⟨11, 0, .rw, 0⟩, ⟨31, 31, .rw, 0⟩], held := .vf, right := .any, kind := .function }
  | .HIF_VF_PERM => { space := .block 0x2, off := 0x218, fields := [⟨27, 16, .rw, 0⟩, ⟨5, 5, .rw, 0⟩, ⟨4, 4, .rw, 0⟩, ⟨3, 3, .rw, 0⟩, ⟨2, 2, .rw, 0⟩, ⟨1, 1, .rw, 1⟩, ⟨0, 0, .rw, 1⟩], held := .vf, right := .any, kind := .function }
  | .HIF_VF_CTRL => { space := .block 0x2, off := 0x21c, fields := [⟨3, 0, .wo, 0⟩], held := .vf, right := .any, kind := .function }
  | .HIF_VF_MIG_STATE => { space := .block 0x2, off := 0x220, fields := [⟨10, 10, .ro, 0⟩, ⟨9, 9, .ro, 0⟩, ⟨8, 8, .ro, 0⟩, ⟨7, 4, .ro, 0⟩, ⟨2, 0, .ro, 0⟩], held := .vf, right := .any, kind := .function }
  | .HIF_VF_IMG_LO => { space := .block 0x2, off := 0x224, fields := [⟨31, 12, .rw, 0⟩], held := .vf, right := .any, kind := .function }
  | .HIF_VF_IMG_HI => { space := .block 0x2, off := 0x228, fields := [⟨31, 0, .rw, 0⟩], held := .vf, right := .any, kind := .function }
  | .HIF_VF_IMG_LEN => { space := .block 0x2, off := 0x22c, fields := [⟨31, 0, .rw, 0⟩], held := .vf, right := .any, kind := .function }
  | .HIF_VF_IMG_USED => { space := .block 0x2, off := 0x230, fields := [⟨31, 0, .ro, 0⟩], held := .vf, right := .any, kind := .function }
  | .HIF_VF_LOG_A_LO => { space := .block 0x2, off := 0x234, fields := [⟨31, 12, .rw, 0⟩], held := .vf, right := .any, kind := .function }
  | .HIF_VF_LOG_A_HI => { space := .block 0x2, off := 0x238, fields := [⟨31, 0, .rw, 0⟩], held := .vf, right := .any, kind := .function }
  | .HIF_VF_LOG_B_LO => { space := .block 0x2, off := 0x23c, fields := [⟨31, 12, .rw, 0⟩], held := .vf, right := .any, kind := .function }
  | .HIF_VF_LOG_B_HI => { space := .block 0x2, off := 0x240, fields := [⟨31, 0, .rw, 0⟩], held := .vf, right := .any, kind := .function }
  | .HIF_VF_LOG_IOVA_LO => { space := .block 0x2, off := 0x244, fields := [⟨31, 12, .rw, 0⟩], held := .vf, right := .any, kind := .function }
  | .HIF_VF_LOG_IOVA_HI => { space := .block 0x2, off := 0x248, fields := [⟨31, 0, .rw, 0⟩], held := .vf, right := .any, kind := .function }
  | .HIF_VF_LOG_PAGES => { space := .block 0x2, off := 0x24c, fields := [⟨31, 0, .rw, 0⟩], held := .vf, right := .any, kind := .function }
  | .HIF_VF_FREEZE_LIMIT => { space := .block 0x2, off := 0x250, fields := [⟨31, 0, .rw, 0x64⟩], held := .vf, right := .any, kind := .function }
  | .MAC_PORT_CFG => { space := .block 0x4, off := 0x100, fields := [⟨31, 31, .rw, 0⟩, ⟨9, 8, .rw, 0⟩, ⟨1, 0, .rw, 0⟩], count := 2, stride := 0x4, right := .pf0 }
  | .MAC_PORT_STATUS => { space := .block 0x4, off := 0x108, fields := [⟨7, 0, .ro, 0⟩, ⟨15, 8, .ro, 0⟩], count := 2, stride := 0x4, right := .pf0 }
  | .MAC_LP_CFG => { space := .block 0x4, off := 0x1000, fields := [⟨31, 31, .rw, 0⟩, ⟨30, 30, .rw, 0⟩, ⟨29, 29, .rw, 0⟩, ⟨28, 28, .rw, 0⟩, ⟨18, 16, .rw, 0⟩, ⟨14, 0, .rw, 0x5f2⟩], count := 16, stride := 0x400, right := .pf0 }
  | .MAC_LP_STATUS => { space := .block 0x4, off := 0x1004, fields := [⟨0, 0, .ro, 0⟩, ⟨1, 1, .ro, 0⟩, ⟨15, 8, .ro, 0⟩, ⟨23, 16, .ro, 0⟩], count := 16, stride := 0x400, right := .pf0 }
  | .MAC_LP_SA_LO => { space := .block 0x4, off := 0x1008, fields := [⟨31, 0, .rw, 0⟩], count := 16, stride := 0x400, right := .pf0 }
  | .MAC_LP_SA_HI => { space := .block 0x4, off := 0x100c, fields := [⟨15, 0, .rw, 0⟩], count := 16, stride := 0x400, right := .pf0 }
  | .MAC_LP_TS_RX_CORR => { space := .block 0x4, off := 0x1010, fields := [⟨31, 0, .rw, 0⟩], count := 16, stride := 0x400, right := .pf0 }
  | .MAC_LP_TS_TX_CORR => { space := .block 0x4, off := 0x1014, fields := [⟨31, 0, .rw, 0⟩], count := 16, stride := 0x400, right := .pf0 }
  | .MAC_LP_FC_CFG => { space := .block 0x4, off := 0x1020, fields := [⟨1, 0, .rw, 0⟩, ⟨15, 8, .rw, 0⟩, ⟨31, 16, .rw, 0xffff⟩], count := 16, stride := 0x400, right := .pf0 }
  | .MAC_LP_FC_REFRESH => { space := .block 0x4, off := 0x1024, fields := [⟨15, 0, .rw, 0x7fff⟩], count := 16, stride := 0x400, right := .pf0 }
  | .MAC_LP_WD_CFG => { space := .block 0x4, off := 0x1028, fields := [⟨15, 0, .rw, 0x32⟩, ⟨31, 16, .rw, 0x64⟩], count := 16, stride := 0x400, right := .pf0 }
  | .MAC_LP_WD_STATUS => { space := .block 0x4, off := 0x102c, fields := [⟨7, 0, .ro, 0⟩, ⟨15, 8, .ro, 0⟩], count := 16, stride := 0x400, right := .pf0 }
  | .MAC_LP_FEC_CFG => { space := .block 0x4, off := 0x1030, fields := [⟨15, 0, .rw, 1⟩], count := 16, stride := 0x400, right := .pf0 }
  | .MAC_LP_XOFF_CELLS => { space := .block 0x4, off := 0x1040, fields := [⟨23, 0, .rw, 0x4000⟩], count := 16, stride := 0x400, count2 := 8, stride2 := 0x10, right := .pf0 }
  | .MAC_LP_XON_CELLS => { space := .block 0x4, off := 0x1044, fields := [⟨23, 0, .rw, 0x3000⟩], count := 16, stride := 0x400, count2 := 8, stride2 := 0x10, right := .pf0 }
  | .MAC_LP_MAX_CELLS => { space := .block 0x4, off := 0x1048, fields := [⟨23, 0, .rw, 0x8000⟩], count := 16, stride := 0x400, count2 := 8, stride2 := 0x10, right := .pf0 }
  | .MAC_LP_CELLS_HELD => { space := .block 0x4, off := 0x104c, fields := [⟨23, 0, .ro, 0⟩], count := 16, stride := 0x400, count2 := 8, stride2 := 0x10, right := .pf0 }
  | .MAC_LP_STAT_SNAP => { space := .block 0x4, off := 0x1100, fields := [⟨0, 0, .wo, 0⟩], count := 16, stride := 0x400, right := .pf0 }
  | .MAC_LP_SNAP_TIME_LO => { space := .block 0x4, off := 0x1108, fields := [⟨31, 0, .ro, 0⟩], count := 16, stride := 0x400, right := .pf0 }
  | .MAC_LP_SNAP_TIME_HI => { space := .block 0x4, off := 0x110c, fields := [⟨31, 0, .ro, 0⟩], count := 16, stride := 0x400, right := .pf0 }
  | .MAC_LP_SNAP_BOUND => { space := .block 0x4, off := 0x1110, fields := [⟨31, 0, .ro, 0xffffffff⟩], count := 16, stride := 0x400, right := .pf0 }
  | .MAC_LP_STAT => { space := .block 0x4, off := 0x1200, fields := [⟨31, 0, .ro, 0⟩], count := 16, stride := 0x400, count2 := 38, stride2 := 0x4, right := .pf0 }
  | .MAC_MC_HASH => { space := .block 0x4, off := 0x8000, fields := [⟨31, 0, .rw, 0⟩], count := 16, stride := 0x200, count2 := 128, stride2 := 0x4, right := .pf0 }
  | .MAC_FLT_DATA => { space := .block 0x4, off := 0xa000, fields := [⟨31, 0, .rw, 0⟩], count := 4, stride := 0x4, held := .path, right := .any }
  | .MAC_FLT_CTRL => { space := .block 0x4, off := 0xa010, fields := [⟨1, 0, .wo, 0⟩, ⟨30, 16, .wo, 0⟩], held := .path, right := .any }
  | .MAC_FLT_STATUS => { space := .block 0x4, off := 0xa014, fields := [⟨2, 0, .ro, 0⟩, ⟨30, 16, .ro, 0⟩], held := .path, right := .pf0 }
  | .MGT_CFG => { space := .block 0x5, off := 0x100, fields := [⟨31, 31, .rw, 0⟩, ⟨8, 8, .w1c, 0⟩, ⟨2, 1, .rw, 2⟩, ⟨0, 0, .rw, 0⟩] }
  | .MGT_SA_LO => { space := .block 0x5, off := 0x104, fields := [⟨31, 0, .rw, 0⟩] }
  | .MGT_SA_HI => { space := .block 0x5, off := 0x108, fields := [⟨15, 0, .rw, 0⟩] }
  | .MGT_STATUS => { space := .block 0x5, off := 0x10c, fields := [⟨0, 0, .ro, 0⟩, ⟨2, 1, .ro, 0⟩, ⟨3, 3, .ro, 0⟩] }
  | .MGT_MDIO_CTRL => { space := .block 0x5, off := 0x110, fields := [⟨31, 31, .ro, 0⟩, ⟨30, 30, .ro, 0⟩, ⟨29, 29, .rw, 0⟩, ⟨27, 26, .rw, 0⟩, ⟨25, 24, .rw, 0⟩, ⟨20, 16, .rw, 0⟩, ⟨12, 8, .rw, 0⟩] }
  | .MGT_MDIO_DATA => { space := .block 0x5, off := 0x114, fields := [⟨15, 0, .rw, 0⟩] }
  | .MGT_STAT => { space := .block 0x5, off := 0x120, fields := [⟨31, 0, .rc, 0⟩], count := 8, stride := 0x4 }
  | .PRS_LOAD_ADDR_LO => { space := .block 0x6, off := 0x100, fields := [⟨31, 6, .rw, 0⟩] }
  | .PRS_LOAD_ADDR_HI => { space := .block 0x6, off := 0x104, fields := [⟨31, 0, .rw, 0⟩] }
  | .PRS_LOAD_CTRL => { space := .block 0x6, off := 0x108, fields := [⟨0, 0, .wo, 0⟩] }
  | .PRS_LOAD_STATUS => { space := .block 0x6, off := 0x10c, fields := [⟨1, 0, .ro, 0⟩, ⟨6, 4, .ro, 0⟩, ⟨29, 16, .ro, 0⟩] }
  | .PRS_BUILD_ID => { space := .block 0x6, off := 0x110, fields := [⟨31, 0, .ro, 0⟩], count := 4, stride := 0x4 }
  | .PRS_FRAG_CFG => { space := .block 0x6, off := 0x120, fields := [⟨15, 0, .rw, 0x1e⟩] }
  | .PRS_FRAG_USED => { space := .block 0x6, off := 0x124, fields := [⟨16, 0, .ro, 0⟩] }
  | .PRS_RUNNING => { space := .block 0x6, off := 0x128, fields := [⟨7, 0, .ro, 0⟩] }
  | .PRS_EP => { space := .block 0x6, off := 0x200, fields := [⟨15, 0, .rw, 0⟩, ⟨31, 31, .rw, 0⟩], count := 32, stride := 0x4 }
  | .PRS_BIND_LPORT => { space := .block 0x6, off := 0x300, fields := [⟨4, 0, .rw, 0⟩, ⟨31, 31, .rw, 0⟩], count := 16, stride := 0x4 }
  | .PRS_BIND_HOST => { space := .block 0x6, off := 0x340, fields := [⟨4, 0, .rw, 0⟩, ⟨31, 31, .rw, 0⟩], count := 4, stride := 0x4 }
  | .PRS_BIND_AKZ => { space := .block 0x6, off := 0x350, fields := [⟨4, 0, .rw, 0⟩, ⟨31, 31, .rw, 0⟩], count := 2, stride := 0x4 }
  | .PRS_BIND_SVC => { space := .block 0x6, off := 0x358, fields := [⟨4, 0, .rw, 0⟩, ⟨31, 31, .rw, 0⟩] }
  | .PRS_HASH_KEY => { space := .block 0x6, off := 0x400, fields := [⟨31, 0, .rw, 0⟩], count := 18, stride := 0x4 }
  | .PRS_STAT => { space := .block 0x6, off := 0x500, fields := [⟨31, 0, .rc, 0⟩], count := 9, stride := 0x4 }
  | .PRS_IND_SELECT => { space := .block 0x6, off := 0x600, fields := [⟨9, 0, .rw, 0⟩, ⟨18, 10, .rw, 0⟩, ⟨19, 19, .rw, 0⟩], held := .path, right := .any }
  | .PRS_IND_CFG => { space := .block 0x6, off := 0x604, fields := [⟨11, 0, .rw, 0⟩, ⟨15, 12, .rw, 0⟩, ⟨16, 16, .rw, 0⟩, ⟨17, 17, .rw, 0⟩, ⟨31, 31, .rw, 0⟩], held := .ind, right := .any }
  | .PRS_IND_ENTRY => { space := .block 0x6, off := 0x608, fields := [⟨23, 0, .rw, 0⟩], held := .ind, right := .any }
  | .PRS_IND_STATUS => { space := .block 0x6, off := 0x60c, fields := [⟨1, 0, .ro, 0⟩], held := .path }
  | .TBL_HASH_SEED => { space := .block 0x7, off := 0x100, fields := [⟨31, 0, .rw, 0⟩], count := 2, stride := 0x4 }
  | .TBL_STATUS => { space := .block 0x7, off := 0x108, fields := [⟨0, 0, .w1c, 0⟩, ⟨1, 1, .ro, 0⟩] }
  | .TBL_ADMIN => { space := .block 0x7, off := 0x10c, fields := [⟨3, 0, .rw, 1⟩] }
  | .TBL_LOCK_TIMEOUT => { space := .block 0x7, off := 0x110, fields := [⟨31, 0, .rw, 0x64⟩] }
  | .TBL_FLOW_HWM => { space := .block 0x7, off := 0x114, fields := [⟨24, 0, .rw, 0xf00000⟩] }
  | .TBL_FLOW_USED => { space := .block 0x7, off := 0x120, fields := [⟨24, 0, .ro, 0⟩] }
  | .TBL_STASH_USED => { space := .block 0x7, off := 0x124, fields := [⟨10, 0, .ro, 0⟩, ⟨25, 16, .ro, 0⟩] }
  | .TBL_LPM_USED => { space := .block 0x7, off := 0x128, fields := [⟨21, 0, .ro, 0⟩] }
  | .TBL_ACL_USED => { space := .block 0x7, off := 0x12c, fields := [⟨14, 0, .ro, 0⟩] }
  | .TBL_AGE_PERIOD => { space := .block 0x7, off := 0x144, fields := [⟨15, 0, .rw, 0⟩], count := 7, stride := 0x4 }
  | .TBL_PROG_CTRL => { space := .block 0x7, off := 0x160, fields := [⟨0, 0, .rw, 0⟩] }
  | .TBL_PROG_SELECT => { space := .block 0x7, off := 0x164, fields := [⟨7, 0, .rw, 0⟩, ⟨10, 8, .rw, 0⟩], held := .path }
  | .TBL_PROG_DATA => { space := .block 0x7, off := 0x168, fields := [⟨31, 0, .rw, 0⟩], count := 4, stride := 0x4, held := .path }
  | .TBL_PROG_WRITE => { space := .block 0x7, off := 0x178, fields := [⟨0, 0, .wo, 0⟩], held := .path }
  | .TBL_MOVE => { space := .block 0x7, off := 0x200, fields := [⟨0, 0, .ro, 0⟩, ⟨31, 16, .ro, 0⟩], count := 16, stride := 0x4 }
  | .TBL_STAT => { space := .block 0x7, off := 0x300, fields := [⟨31, 0, .rc, 0⟩], count := 13, stride := 0x4 }
  | .TBL_PROG_MISS => { space := .block 0x7, off := 0x400, fields := [⟨15, 0, .rw, 0⟩, ⟨31, 31, .rw, 0⟩], count := 256, stride := 0x4 }
  | .MAC_GATE_CFG => { space := .block 0x4, off := 0x10000, fields := [⟨15, 8, .rw, 0xff⟩, ⟨0, 0, .rw, 0⟩], count := 16, stride := 0x2000, right := .pf0 }
  | .MAC_GATE_COMMIT => { space := .block 0x4, off := 0x10004, fields := [⟨0, 0, .wo, 0⟩], count := 16, stride := 0x2000, right := .pf0 }
  | .MAC_GATE_STATUS => { space := .block 0x4, off := 0x10008, fields := [⟨26, 24, .ro, 0⟩, ⟨23, 16, .ro, 0⟩, ⟨15, 8, .ro, 0xff⟩, ⟨1, 1, .ro, 0⟩, ⟨0, 0, .ro, 0⟩], count := 16, stride := 0x2000, right := .pf0 }
  | .MAC_GATE_ADMIN_BASE_LO => { space := .block 0x4, off := 0x10010, fields := [⟨31, 0, .rw, 0⟩], count := 16, stride := 0x2000, right := .pf0 }
  | .MAC_GATE_ADMIN_BASE_HI => { space := .block 0x4, off := 0x10014, fields := [⟨31, 0, .rw, 0⟩], count := 16, stride := 0x2000, right := .pf0 }
  | .MAC_GATE_ADMIN_CYCLE => { space := .block 0x4, off := 0x10018, fields := [⟨31, 0, .rw, 0xf4240⟩], count := 16, stride := 0x2000, right := .pf0 }
  | .MAC_GATE_ADMIN_LEN => { space := .block 0x4, off := 0x1001c, fields := [⟨8, 0, .rw, 1⟩], count := 16, stride := 0x2000, right := .pf0 }
  | .MAC_GATE_CHANGE_TIME_LO => { space := .block 0x4, off := 0x10020, fields := [⟨31, 0, .ro, 0⟩], count := 16, stride := 0x2000, right := .pf0 }
  | .MAC_GATE_CHANGE_TIME_HI => { space := .block 0x4, off := 0x10024, fields := [⟨31, 0, .ro, 0⟩], count := 16, stride := 0x2000, right := .pf0 }
  | .MAC_GATE_OPER_BASE_LO => { space := .block 0x4, off := 0x10028, fields := [⟨31, 0, .ro, 0⟩], count := 16, stride := 0x2000, right := .pf0 }
  | .MAC_GATE_OPER_BASE_HI => { space := .block 0x4, off := 0x1002c, fields := [⟨31, 0, .ro, 0⟩], count := 16, stride := 0x2000, right := .pf0 }
  | .MAC_GATE_OPER_CYCLE => { space := .block 0x4, off := 0x10030, fields := [⟨31, 0, .ro, 0⟩], count := 16, stride := 0x2000, right := .pf0 }
  | .MAC_GATE_OPER_LEN => { space := .block 0x4, off := 0x10034, fields := [⟨8, 0, .ro, 0⟩], count := 16, stride := 0x2000, right := .pf0 }
  | .MAC_GATE_WINDOW => { space := .block 0x4, off := 0x10080, fields := [⟨31, 0, .ro, 0xffffffff⟩], count := 16, stride := 0x2000, count2 := 8, stride2 := 0x4, right := .pf0 }
  | .MAC_GATE_ADMIN_ENTRY_LO => { space := .block 0x4, off := 0x10800, fields := [⟨31, 0, .rw, 0⟩], count := 16, stride := 0x2000, count2 := 256, stride2 := 0x8, right := .pf0 }
  | .MAC_GATE_ADMIN_ENTRY_HI => { space := .block 0x4, off := 0x10804, fields := [⟨7, 0, .rw, 0⟩, ⟨15, 8, .rw, 0⟩], count := 16, stride := 0x2000, count2 := 256, stride2 := 0x8, right := .pf0 }
  | .MAC_GATE_OPER_ENTRY_LO => { space := .block 0x4, off := 0x11000, fields := [⟨31, 0, .ro, 0⟩], count := 16, stride := 0x2000, count2 := 256, stride2 := 0x8, right := .pf0 }
  | .MAC_GATE_OPER_ENTRY_HI => { space := .block 0x4, off := 0x11004, fields := [⟨7, 0, .ro, 0⟩, ⟨15, 8, .ro, 0⟩], count := 16, stride := 0x2000, count2 := 256, stride2 := 0x8, right := .pf0 }
  | .TM_POOL_FREE_OCHRE => { space := .block 0x8, off := 0x100, fields := [⟨18, 0, .ro, 0x40000⟩] }
  | .TM_POOL_FREE_UMBER => { space := .block 0x8, off := 0x104, fields := [⟨24, 0, .ro, 0x1000000⟩] }
  | .TM_POOL_FREE_SIENNA => { space := .block 0x8, off := 0x108, fields := [⟨21, 0, .ro, 0x200000⟩] }
  | .TM_POOL_LOW_OCHRE => { space := .block 0x8, off := 0x110, fields := [⟨18, 0, .rw, 0x2000⟩], right := .pf0 }
  | .TM_POOL_LOW_UMBER => { space := .block 0x8, off := 0x114, fields := [⟨24, 0, .rw, 0x100000⟩], right := .pf0 }
  | .TM_POOL_LOW_SIENNA => { space := .block 0x8, off := 0x118, fields := [⟨21, 0, .rw, 0x20000⟩], right := .pf0 }
  | .TM_STAT => { space := .block 0x8, off := 0x120, fields := [⟨31, 0, .rc, 0⟩], count := 5, stride := 0x4 }
  | .TM_LAUNCH_LATE => { space := .block 0x8, off := 0x140, fields := [⟨31, 0, .rw, 0x2710⟩], right := .pf0 }
  | .TM_NODE_SELECT => { space := .block 0x8, off := 0x200, fields := [⟨1, 0, .rw, 0⟩, ⟨23, 8, .rw, 0⟩], held := .path, right := .pf0 }
  | .TM_NODE_CFG => { space := .block 0x8, off := 0x204, fields := [⟨31, 31, .rw, 0⟩, ⟨30, 30, .rw, 0⟩, ⟨29, 29, .rw, 0⟩, ⟨23, 16, .rw, 1⟩, ⟨15, 0, .rw, 0⟩], held := .node, right := .pf0 }
  | .TM_NODE_RATE => { space := .block 0x8, off := 0x208, fields := [⟨31, 0, .rw, 0⟩], held := .node, right := .pf0 }
  | .TM_NODE_BURST => { space := .block 0x8, off := 0x20c, fields := [⟨23, 0, .rw, 0x4000⟩, ⟨31, 31, .rw, 0⟩], held := .node, right := .pf0 }
  | .TM_NODE_ADJ => { space := .block 0x8, off := 0x210, fields := [⟨7, 0, .rw, 0x14⟩], held := .node, right := .pf0 }
  | .TM_NODE_TOKENS => { space := .block 0x8, off := 0x214, fields := [⟨31, 0, .ro, 0x4000⟩], held := .node, right := .pf0 }
  | .TM_NODE_QLIMIT_G => { space := .block 0x8, off := 0x218, fields := [⟨23, 0, .rw, 0x4000⟩], held := .node, right := .pf0 }
  | .TM_NODE_QLIMIT_Y => { space := .block 0x8, off := 0x21c, fields := [⟨23, 0, .rw, 0x2000⟩], held := .node, right := .pf0 }
  | .TM_NODE_QLIMIT_R => { space := .block 0x8, off := 0x220, fields := [⟨23, 0, .rw, 0x1000⟩], held := .node, right := .pf0 }
  | .TM_NODE_DEPTH => { space := .block 0x8, off := 0x224, fields := [⟨24, 0, .ro, 0⟩], held := .node, right := .pf0 }
  | .TM_NODE_DEFQ => { space := .block 0x8, off := 0x228, fields := [⟨15, 0, .rw, 0⟩, ⟨31, 31, .rw, 0⟩], held := .node, right := .pf0 }
  | .TM_NODE_DROPS => { space := .block 0x8, off := 0x22c, fields := [⟨31, 0, .rc, 0⟩], held := .node, right := .pf0 }
  | .TM_NODE_STATUS => { space := .block 0x8, off := 0x230, fields := [⟨1, 0, .ro, 0⟩], held := .path }
  | .TM_METER_SELECT => { space := .block 0x8, off := 0x300, fields := [⟨17, 0, .rw, 0⟩], held := .path, right := .any }
  | .TM_METER_DATA => { space := .block 0x8, off := 0x304, fields := [⟨31, 0, .rw, 0⟩], count := 8, stride := 0x4, held := .path, right := .any }
  | .TM_METER_CTRL => { space := .block 0x8, off := 0x324, fields := [⟨1, 0, .wo, 0⟩], held := .path, right := .any }
  | .TM_METER_STATUS => { space := .block 0x8, off := 0x328, fields := [⟨1, 0, .ro, 0⟩], held := .path }
  | .CRY_ENGINES => { space := .block 0x9, off := 0x100, fields := [⟨4, 0, .ro, 0x16⟩, ⟨12, 8, .ro, 0⟩, ⟨17, 16, .ro, 2⟩] }
  | .CRY_CHECKERS => { space := .block 0x9, off := 0x104, fields := [⟨0, 0, .ro, 1⟩, ⟨1, 1, .ro, 1⟩] }
  | .CRY_SLOTS_VALID => { space := .block 0x9, off := 0x108, fields := [⟨20, 0, .ro, 0⟩] }
  | .CRY_CACHE_HIT => { space := .block 0x9, off := 0x10c, fields := [⟨31, 0, .rc, 0⟩] }
  | .CRY_CACHE_MISS => { space := .block 0x9, off := 0x110, fields := [⟨31, 0, .rc, 0⟩] }
  | .CRY_STAT => { space := .block 0x9, off := 0x120, fields := [⟨31, 0, .rc, 0⟩], count := 8, stride := 0x4 }
  | .STO_TRK_USED => { space := .block 0xa, off := 0x100, fields := [⟨18, 0, .ro, 0⟩] }
  | .STO_TRK_HWM => { space := .block 0xa, off := 0x104, fields := [⟨18, 0, .rw, 0x38000⟩] }
  | .STO_TRK_FN_LIMIT => { space := .block 0xa, off := 0x108, fields := [⟨18, 0, .rw, 0x4000⟩] }
  | .STO_CTX_SELECT => { space := .block 0xa, off := 0x110, fields := [⟨15, 0, .rw, 0⟩], held := .path }
  | .STO_CTX_CTRL => { space := .block 0xa, off := 0x114, fields := [⟨2, 0, .wo, 0⟩], held := .path }
  | .STO_CTX_STATUS => { space := .block 0xa, off := 0x118, fields := [⟨1, 0, .ro, 0⟩, ⟨6, 4, .ro, 0⟩, ⟨28, 16, .ro, 0⟩], held := .path }
  | .STO_CTX_DATA => { space := .block 0xa, off := 0x200, fields := [⟨31, 0, .rw, 0⟩], count := 32, stride := 0x4, held := .path }
  | .STO_NS_SELECT => { space := .block 0xa, off := 0x300, fields := [⟨15, 0, .rw, 0⟩], held := .path }
  | .STO_NS_CTRL => { space := .block 0xa, off := 0x304, fields := [⟨1, 0, .wo, 0⟩], held := .path }
  | .STO_NS_STATUS => { space := .block 0xa, off := 0x308, fields := [⟨1, 0, .ro, 0⟩], held := .path }
  | .STO_NS_DATA => { space := .block 0xa, off := 0x320, fields := [⟨31, 0, .rw, 0⟩], count := 8, stride := 0x4, held := .path }
  | .STO_CTRL_SELECT => { space := .block 0xa, off := 0x400, fields := [⟨11, 0, .rw, 0⟩], held := .path }
  | .STO_CTRL_CFG => { space := .block 0xa, off := 0x404, fields := [⟨10, 0, .rw, 0x40⟩], held := .ctrl }
  | .STO_CTRL_STATUS => { space := .block 0xa, off := 0x408, fields := [⟨0, 0, .ro, 0⟩, ⟨1, 1, .ro, 0⟩, ⟨2, 2, .ro, 1⟩, ⟨3, 3, .ro, 0⟩], held := .ctrl }
  | .STO_STAT => { space := .block 0xa, off := 0x500, fields := [⟨31, 0, .rc, 0⟩], count := 5, stride := 0x4 }
  | .DMV_MOVERS => { space := .block 0xb, off := 0x100, fields := [⟨3, 0, .ro, 8⟩, ⟨7, 4, .ro, 1⟩] }
  | .DMV_CH_SELECT => { space := .block 0xb, off := 0x110, fields := [⟨5, 0, .rw, 0⟩], held := .path, right := .any }
  | .DMV_CH_CFG => { space := .block 0xb, off := 0x114, fields := [⟨31, 31, .rw, 0⟩, ⟨26, 24, .rw, 0⟩, ⟨15, 15, .rw, 0⟩, ⟨14, 14, .rw, 0⟩, ⟨13, 12, .rw, 0⟩, ⟨11, 0, .rw, 0⟩], held := .channel, right := .any }
  | .DMV_CH_CTRL => { space := .block 0xb, off := 0x118, fields := [⟨1, 0, .wo, 0⟩], held := .channel, right := .any }
  | .DMV_CH_STATUS => { space := .block 0xb, off := 0x11c, fields := [⟨2, 0, .ro, 0⟩, ⟨6, 4, .ro, 0⟩, ⟨8, 8, .ro, 0⟩, ⟨9, 9, .ro, 0⟩, ⟨10, 10, .ro, 0⟩, ⟨14, 12, .ro, 0⟩, ⟨15, 15, .ro, 0⟩, ⟨23, 16, .ro, 0⟩], held := .channel }
  | .DMV_CH_FAIL_ADDR_LO => { space := .block 0xb, off := 0x120, fields := [⟨31, 0, .ro, 0⟩], held := .channel }
  | .DMV_CH_FAIL_ADDR_HI => { space := .block 0xb, off := 0x124, fields := [⟨31, 0, .ro, 0⟩], held := .channel }
  | .DMV_CH_DESC => { space := .block 0xb, off := 0x140, fields := [⟨31, 0, .rw, 0⟩], count := 16, stride := 0x4, held := .channel }
  | .DMV_WIN_SELECT => { space := .block 0xb, off := 0x180, fields := [⟨7, 0, .rw, 0⟩], held := .path, right := .any }
  | .DMV_WIN_BASE_LO => { space := .block 0xb, off := 0x184, fields := [⟨31, 12, .rw, 0⟩], held := .window, right := .any }
  | .DMV_WIN_BASE_HI => { space := .block 0xb, off := 0x188, fields := [⟨31, 0, .rw, 0⟩], held := .window, right := .any }
  | .DMV_WIN_SIZE => { space := .block 0xb, off := 0x18c, fields := [⟨27, 0, .rw, 0⟩], held := .window, right := .any }
  | .DMV_WIN_OWNER => { space := .block 0xb, off := 0x190, fields := [⟨11, 0, .rw, 0⟩, ⟨31, 31, .rw, 0⟩], held := .window, right := .any }
  | .DMV_STAT => { space := .block 0xb, off := 0x200, fields := [⟨31, 0, .rc, 0⟩], count := 3, stride := 0x4 }
  | .VF_DMV_CTRL => { space := .vf, off := 0x300, fields := [⟨5, 0, .wo, 0⟩, ⟨9, 8, .wo, 0⟩], held := .function, right := .own, kind := .function }
  | .VF_DMV_STATUS => { space := .vf, off := 0x304, fields := [⟨31, 0, .ro, 0⟩], held := .function, right := .own, kind := .function }
  | .MBX_H2F_DATA => { space := .block 0xc, off := 0x100, fields := [⟨31, 0, .rw, 0⟩], count := 14, stride := 0x4, held := .function, right := .any, kind := .function }
  | .MBX_H2F_CTRL => { space := .block 0xc, off := 0x138, fields := [⟨5, 0, .wo, 0⟩, ⟨31, 31, .wo, 0⟩], held := .function, right := .any, kind := .function }
  | .MBX_STATUS => { space := .block 0xc, off := 0x13c, fields := [⟨0, 0, .ro, 0⟩, ⟨1, 1, .ro, 0⟩, ⟨2, 2, .w1c, 0⟩, ⟨3, 3, .w1c, 0⟩, ⟨13, 8, .ro, 0⟩], held := .function, right := .any, kind := .function }
  | .MBX_F2H_DATA => { space := .block 0xc, off := 0x140, fields := [⟨31, 0, .ro, 0⟩], count := 14, stride := 0x4, held := .function, right := .any, kind := .function }
  | .MBX_F2H_POP => { space := .block 0xc, off := 0x178, fields := [⟨5, 0, .rc, 0⟩, ⟨31, 31, .rc, 0⟩], held := .function, right := .any, kind := .function }
  | .SVC_CORES => { space := .block 0xc, off := 0x200, fields := [⟨6, 0, .ro, 0x40⟩, ⟨10, 8, .ro, 4⟩, ⟨20, 16, .ro, 0⟩] }
  | .SVC_CH_SELECT => { space := .block 0xc, off := 0x210, fields := [⟨13, 0, .rw, 0⟩], held := .path }
  | .SVC_CH_CFG => { space := .block 0xc, off := 0x214, fields := [⟨31, 31, .rw, 0⟩, ⟨30, 30, .rw, 0⟩, ⟨29, 29, .rw, 0⟩, ⟨28, 28, .rw, 0⟩, ⟨21, 16, .rw, 0⟩, ⟨13, 8, .rw, 0⟩, ⟨3, 0, .rw, 0⟩], held := .svcChannel }
  | .SVC_CH_STATUS => { space := .block 0xc, off := 0x218, fields := [⟨12, 0, .ro, 0⟩, ⟨13, 13, .ro, 0⟩, ⟨18, 16, .ro, 0⟩], held := .svcChannel }
  | .SVC_CH_STORE_FREE => { space := .block 0xc, off := 0x21c, fields := [⟨20, 0, .ro, 0xfbb00⟩] }
  | .SVC_DOMAIN_SELECT => { space := .block 0xc, off := 0x220, fields := [⟨5, 0, .rw, 0⟩], held := .path }
  | .SVC_DOMAIN_CFG => { space := .block 0xc, off := 0x224, fields := [⟨9, 0, .rw, 0⟩], held := .domain }
  | .SVC_DOMAIN_CTRL => { space := .block 0xc, off := 0x228, fields := [⟨1, 0, .wo, 0⟩], held := .domain }
  | .SVC_DOMAIN_STATUS => { space := .block 0xc, off := 0x22c, fields := [⟨10, 0, .ro, 0⟩, ⟨11, 11, .ro, 0⟩, ⟨12, 12, .ro, 0⟩, ⟨14, 13, .ro, 0⟩, ⟨31, 16, .ro, 0⟩], held := .domain }
  | .SVC_HANDLES_FREE => { space := .block 0xc, off := 0x230, fields := [⟨16, 0, .ro, 0x10000⟩] }
  | .SVC_FW_EVENT_MASK => { space := .block 0xc, off := 0x234, fields := [⟨31, 0, .rw, 0xffff⟩] }
  | .SVC_FMBX_DATA => { space := .block 0xc, off := 0x240, fields := [⟨31, 0, .rw, 0⟩], count := 14, stride := 0x4, held := .path }
  | .SVC_FMBX_CTRL => { space := .block 0xc, off := 0x278, fields := [⟨11, 0, .wo, 0⟩, ⟨13, 12, .wo, 0⟩, ⟨14, 14, .wo, 0⟩, ⟨21, 16, .wo, 0⟩, ⟨31, 31, .wo, 0⟩], held := .path }
  | .SVC_FMBX_STATUS => { space := .block 0xc, off := 0x27c, fields := [⟨1, 0, .ro, 0⟩], held := .path }
  | .SVC_STAT => { space := .block 0xc, off := 0x300, fields := [⟨31, 0, .rc, 0⟩], count := 5, stride := 0x4 }
  | .AKZ_CFG => { space := .block 0xe, off := 0x100, fields := [⟨0, 0, .rw, 0⟩, ⟨1, 1, .rw, 0⟩, ⟨2, 2, .rw, 0⟩, ⟨3, 3, .rw, 1⟩] }
  | .AKZ_STATUS => { space := .block 0xe, off := 0x104, fields := [⟨2, 0, .ro, 0⟩, ⟨3, 3, .ro, 0⟩, ⟨4, 4, .ro, 0⟩, ⟨5, 5, .ro, 0⟩, ⟨6, 6, .ro, 0⟩, ⟨10, 8, .ro, 0⟩, ⟨23, 16, .ro, 0⟩, ⟨31, 24, .ro, 0⟩] }
  | .AKZ_PORT_STATUS => { space := .block 0xe, off := 0x108, fields := [⟨0, 0, .ro, 0⟩, ⟨1, 1, .ro, 0⟩, ⟨10, 8, .ro, 0⟩, ⟨23, 16, .ro, 0⟩], count := 2, stride := 0x4 }
  | .AKZ_CTRL => { space := .block 0xe, off := 0x110, fields := [⟨2, 0, .wo, 0⟩, ⟨31, 31, .wo, 0⟩] }
  | .AKZ_QLIMIT => { space := .block 0xe, off := 0x114, fields := [⟨23, 0, .rw, 0x4000⟩] }
  | .AKZ_CREDIT_CELLS => { space := .block 0xe, off := 0x118, fields := [⟨15, 0, .rw, 0x800⟩] }
  | .AKZ_MEMBER_SERIAL_LO => { space := .block 0xe, off := 0x120, fields := [⟨31, 0, .ro, 0⟩], count := 8, stride := 0x8 }
  | .AKZ_MEMBER_SERIAL_HI => { space := .block 0xe, off := 0x124, fields := [⟨31, 0, .ro, 0⟩], count := 8, stride := 0x8 }
  | .AKZ_STAT => { space := .block 0xe, off := 0x180, fields := [⟨31, 0, .rc, 0⟩], count := 6, stride := 0x4 }
  | .REL_SUMMARY => { space := .block 0xf, off := 0x100, fields := [⟨10, 0, .ro, 0⟩, ⟨26, 16, .ro, 0⟩] }
  | .REL_READY0 => { space := .block 0xf, off := 0x104, fields := [⟨15, 0, .ro, 0⟩, ⟨17, 16, .ro, 0⟩, ⟨18, 18, .ro, 0⟩, ⟨19, 19, .ro, 0⟩, ⟨20, 20, .ro, 0⟩, ⟨21, 21, .ro, 0⟩, ⟨22, 22, .ro, 0⟩] }
  | .REL_READY1 => { space := .block 0xf, off := 0x108, fields := [⟨31, 0, .ro, 0⟩] }
  | .REL_READY2 => { space := .block 0xf, off := 0x10c, fields := [⟨31, 0, .ro, 0⟩] }
  | .REL_UNIT_SELECT => { space := .block 0xf, off := 0x110, fields := [⟨3, 0, .rw, 0⟩, ⟨23, 8, .rw, 0⟩], held := .path }
  | .REL_UNIT_STATUS => { space := .block 0xf, off := 0x114, fields := [⟨3, 0, .ro, 0⟩, ⟨5, 4, .ro, 0⟩, ⟨15, 8, .ro, 0⟩, ⟨31, 16, .ro, 0⟩], held := .path }
  | .REL_SCREE_CFG => { space := .block 0xf, off := 0x200, fields := [⟨23, 0, .rw, 0⟩, ⟨31, 24, .rw, 0⟩], count := 11, stride := 0x4 }
  | .REL_SPARES => { space := .block 0xf, off := 0x300, fields := [⟨11, 0, .ro, 0⟩, ⟨19, 12, .ro, 0⟩, ⟨27, 20, .ro, 0⟩], count := 11, stride := 0x4 }
  | .REL_CORR_S => { space := .block 0xf, off := 0x400, fields := [⟨31, 0, .rc, 0⟩] }
  | .REL_CORR_H => { space := .block 0xf, off := 0x404, fields := [⟨31, 0, .rc, 0⟩] }
  | .REL_POISON_WRITTEN => { space := .block 0xf, off := 0x408, fields := [⟨31, 0, .rc, 0⟩] }
  | .REL_POISON_READ => { space := .block 0xf, off := 0x40c, fields := [⟨31, 0, .rc, 0⟩] }
  | .REL_PAGES_RETIRED => { space := .block 0xf, off := 0x410, fields := [⟨20, 0, .ro, 0⟩] }
  | .REL_SCRUB_CFG => { space := .block 0xf, off := 0x414, fields := [⟨7, 0, .rw, 0x3c⟩, ⟨15, 8, .rw, 0x18⟩] }
  | .REL_REPAIR_DELAY => { space := .block 0xf, off := 0x418, fields := [⟨31, 0, .rw, 0xe10⟩] }
  | .REL_CAP_DROP => { space := .block 0xf, off := 0x41c, fields := [⟨31, 0, .rc, 0⟩] }
  | .REL_MC_SELECT => { space := .block 0xf, off := 0x500, fields := [⟨31, 0, .rw, 0⟩], held := .path }
  | .REL_MC_HEAD => { space := .block 0xf, off := 0x504, fields := [⟨31, 0, .ro, 0⟩] }
  | .REL_MC_WINDOW => { space := .block 0xf, off := 0x520, fields := [⟨31, 0, .ro, 0⟩], count := 8, stride := 0x4 }
  | .LCS_STATE => { space := .block 0x1, off := 0x100, fields := [⟨2, 0, .ro, 0⟩, ⟨5, 4, .ro, 0⟩, ⟨6, 6, .ro, 0⟩, ⟨13, 8, .ro, 0⟩, ⟨19, 16, .ro, 0⟩] }
  | .LCS_DEBUG_LEFT => { space := .block 0x1, off := 0x104, fields := [⟨31, 0, .ro, 0⟩], kind := .power }
  | .LCS_SERIAL => { space := .block 0x1, off := 0x108, fields := [⟨31, 0, .ro, 0⟩], count := 4, stride := 0x4 }
  | .LCS_NONCE_LO => { space := .block 0x1, off := 0x118, fields := [⟨31, 0, .ro, 0⟩] }
  | .LCS_NONCE_HI => { space := .block 0x1, off := 0x11c, fields := [⟨31, 0, .ro, 0⟩] }
  | .LCS_TOKEN_CTRL => { space := .block 0x1, off := 0x120, fields := [⟨0, 0, .wo, 0⟩, ⟨1, 1, .wo, 0⟩], held := .path, right := .pf0 }
  | .LCS_TOKEN_STATUS => { space := .block 0x1, off := 0x124, fields := [⟨3, 0, .ro, 0⟩], held := .path }
  | .LCS_TOKEN_BUF => { space := .block 0x1, off := 0x200, fields := [⟨31, 0, .rw, 0⟩], count := 88, stride := 0x4, held := .path, right := .pf0 }
  | .LCS_FW_STATUS => { space := .block 0x1, off := 0x400, fields := [⟨0, 0, .ro, 0⟩, ⟨1, 1, .ro, 0⟩, ⟨2, 2, .ro, 0⟩, ⟨3, 3, .ro, 0⟩, ⟨4, 4, .ro, 0⟩, ⟨15, 8, .ro, 0⟩] }
  | .LCS_FW_CTRL => { space := .block 0x1, off := 0x404, fields := [⟨2, 0, .wo, 0⟩] }
  | .LCS_FW_CFG => { space := .block 0x1, off := 0x408, fields := [⟨15, 0, .rw, 0⟩] }
  | .LCS_FW_RUNNING => { space := .block 0x1, off := 0x40c, fields := [⟨31, 0, .ro, 0⟩] }
  | .LCS_FW_STAGED => { space := .block 0x1, off := 0x410, fields := [⟨31, 0, .ro, 0⟩] }
  | .LCS_CERT_SELECT => { space := .block 0x1, off := 0x500, fields := [⟨1, 0, .rw, 0⟩, ⟨27, 12, .rw, 0⟩], held := .path }
  | .LCS_CERT_LEN => { space := .block 0x1, off := 0x504, fields := [⟨31, 0, .ro, 0⟩] }
  | .LCS_CERT_WINDOW => { space := .block 0x1, off := 0x1000, fields := [⟨31, 0, .ro, 0⟩], count := 1024, stride := 0x4 }

/-- The registers of block TIM. -/
def timRegs : List Reg :=
  [.TIM_CTRL, .TIM_STATUS, .TIM_BOUND, .TIM_SNAP, .TIM_SNAP_SEC_LO, .TIM_SNAP_SEC_HI, .TIM_SNAP_NS, .TIM_SNAP_FRAC,
   .TIM_SNAP_BOUND, .TIM_SERVO_CFG, .TIM_LOCK_CFG, .TIM_STEP_THRESH, .TIM_SLEW_LIMIT, .TIM_LOCK_FREQ_ALLOW,
   .TIM_HOLD_FREQ_ALLOW, .TIM_HOLD_AGING_ALLOW, .TIM_OSC_FAULT_ALLOW, .TIM_BOUND_ALARM, .TIM_UTC, .TIM_LEAP_AT_LO,
   .TIM_LEAP_AT_HI, .TIM_HOLD_AVG, .TIM_PF_PAGE_LO, .TIM_PF_PAGE_HI, .TIM_REF_CFG, .TIM_REF_UPSTREAM_ALLOW,
   .TIM_REF_ASYM_ALLOW, .TIM_REF_CORRECTION, .TIM_REF_LAST_OFFSET_LO, .TIM_REF_LAST_OFFSET_HI, .TIM_REF_STATE,
   .TIM_REF_MISSES, .TIM_PPS_OUT_CFG, .TIM_PPS_OUT_OFFSET, .TIM_FREQ_OUT_CFG, .TIM_TOD_CFG, .TIM_PPS_IN_CFG,
   .TIM_PAGE_PERIOD, .TIM_TRACE_CFG, .TIM_TRACE_HEAD, .TIM_TRACE_OVERWRITES, .TIM_TRACE_SELECT, .TIM_TRACE_WINDOW,
   .TIM_MANUAL_TIME_LO, .TIM_MANUAL_TIME_HI, .TIM_MANUAL_BOUND, .TIM_MANUAL_COMMIT]

/-- The registers of block CAI. -/
def caiRegs : List Reg :=
  [.CAI_STRAP, .CAI_RESET_CAUSE, .CAI_RAIL_STATUS, .CAI_FAULT, .CAI_PM_CFG, .CAI_TEMP, .CAI_THERM_CFG, .CAI_LED_CFG,
   .CAI_WAKE_AT_LO, .CAI_WAKE_AT_HI, .CAI_POWER, .CAI_MODE, .CAI_MODE_REQ, .CAI_MODE_CFG]

/-- The registers of block HIF. -/
def hifRegs : List Reg :=
  [.HIF_PF_STATUS, .HIF_ACCESS_ERR, .HIF_ACCESS_ERR_OFFSET, .HIF_LINK_STATUS, .HIF_CTO_VALUE, .HIF_TAGS,
   .HIF_FN_TAG_LIMIT, .HIF_PF_QUIESCE, .HIF_UNEXP_CPL, .HIF_CTO_COUNT, .HIF_PF_RES, .HIF_PF_QPOOL, .HIF_PF_QCOUNT,
   .HIF_PF_EQPOOL, .HIF_PF_VPORTS, .HIF_VF_SELECT, .HIF_VF_Q_BASE, .HIF_VF_Q_COUNT, .HIF_VF_EQ, .HIF_VF_VECTORS,
   .HIF_VF_VPORT, .HIF_VF_PERM, .HIF_VF_CTRL, .HIF_VF_MIG_STATE, .HIF_VF_IMG_LO, .HIF_VF_IMG_HI, .HIF_VF_IMG_LEN,
   .HIF_VF_IMG_USED, .HIF_VF_LOG_A_LO, .HIF_VF_LOG_A_HI, .HIF_VF_LOG_B_LO, .HIF_VF_LOG_B_HI, .HIF_VF_LOG_IOVA_LO,
   .HIF_VF_LOG_IOVA_HI, .HIF_VF_LOG_PAGES, .HIF_VF_FREEZE_LIMIT]

/-- The registers of VF BAR0. -/
def vfRegs : List Reg :=
  [.VF_STATUS, .VF_QUIESCE, .TIM_VF_PAGE_LO, .TIM_VF_PAGE_HI, .VF_DMV_CTRL, .VF_DMV_STATUS]

/-- The registers of block QM. -/
def qmRegs : List Reg :=
  [.QM_Q_SELECT, .QM_Q_BASE_LO, .QM_Q_BASE_HI, .QM_Q_CFG, .QM_CQ_MODERATION, .QM_Q_STATE, .QM_Q_CTRL, .QM_Q_PASID,
   .QM_EVENT_MASK, .QM_DB_INVALID]

/-- The registers of block MAC. -/
def macRegs : List Reg :=
  [.MAC_PORT_CFG, .MAC_PORT_STATUS, .MAC_LP_CFG, .MAC_LP_STATUS, .MAC_LP_SA_LO, .MAC_LP_SA_HI, .MAC_LP_TS_RX_CORR,
   .MAC_LP_TS_TX_CORR, .MAC_LP_FC_CFG, .MAC_LP_FC_REFRESH, .MAC_LP_WD_CFG, .MAC_LP_WD_STATUS, .MAC_LP_FEC_CFG,
   .MAC_LP_XOFF_CELLS, .MAC_LP_XON_CELLS, .MAC_LP_MAX_CELLS, .MAC_LP_CELLS_HELD, .MAC_LP_STAT_SNAP,
   .MAC_LP_SNAP_TIME_LO, .MAC_LP_SNAP_TIME_HI, .MAC_LP_SNAP_BOUND, .MAC_LP_STAT, .MAC_MC_HASH, .MAC_FLT_DATA,
   .MAC_FLT_CTRL, .MAC_FLT_STATUS, .MAC_GATE_CFG, .MAC_GATE_COMMIT, .MAC_GATE_STATUS, .MAC_GATE_ADMIN_BASE_LO,
   .MAC_GATE_ADMIN_BASE_HI, .MAC_GATE_ADMIN_CYCLE, .MAC_GATE_ADMIN_LEN, .MAC_GATE_CHANGE_TIME_LO,
   .MAC_GATE_CHANGE_TIME_HI, .MAC_GATE_OPER_BASE_LO, .MAC_GATE_OPER_BASE_HI, .MAC_GATE_OPER_CYCLE,
   .MAC_GATE_OPER_LEN, .MAC_GATE_WINDOW, .MAC_GATE_ADMIN_ENTRY_LO, .MAC_GATE_ADMIN_ENTRY_HI,
   .MAC_GATE_OPER_ENTRY_LO, .MAC_GATE_OPER_ENTRY_HI]

/-- The registers of block MGT. -/
def mgtRegs : List Reg :=
  [.MGT_CFG, .MGT_SA_LO, .MGT_SA_HI, .MGT_STATUS, .MGT_MDIO_CTRL, .MGT_MDIO_DATA, .MGT_STAT]

/-- The registers of block PRS. -/
def prsRegs : List Reg :=
  [.PRS_LOAD_ADDR_LO, .PRS_LOAD_ADDR_HI, .PRS_LOAD_CTRL, .PRS_LOAD_STATUS, .PRS_BUILD_ID, .PRS_FRAG_CFG,
   .PRS_FRAG_USED, .PRS_RUNNING, .PRS_EP, .PRS_BIND_LPORT, .PRS_BIND_HOST, .PRS_BIND_AKZ, .PRS_BIND_SVC,
   .PRS_HASH_KEY, .PRS_STAT, .PRS_IND_SELECT, .PRS_IND_CFG, .PRS_IND_ENTRY, .PRS_IND_STATUS]

/-- The registers of block TBL. -/
def tblRegs : List Reg :=
  [.TBL_HASH_SEED, .TBL_STATUS, .TBL_ADMIN, .TBL_LOCK_TIMEOUT, .TBL_FLOW_HWM, .TBL_FLOW_USED, .TBL_STASH_USED,
   .TBL_LPM_USED, .TBL_ACL_USED, .TBL_AGE_PERIOD, .TBL_PROG_CTRL, .TBL_PROG_SELECT, .TBL_PROG_DATA, .TBL_PROG_WRITE,
   .TBL_MOVE, .TBL_STAT, .TBL_PROG_MISS]

/-- The registers of block TM. -/
def tmRegs : List Reg :=
  [.TM_POOL_FREE_OCHRE, .TM_POOL_FREE_UMBER, .TM_POOL_FREE_SIENNA, .TM_POOL_LOW_OCHRE, .TM_POOL_LOW_UMBER,
   .TM_POOL_LOW_SIENNA, .TM_STAT, .TM_LAUNCH_LATE, .TM_NODE_SELECT, .TM_NODE_CFG, .TM_NODE_RATE, .TM_NODE_BURST,
   .TM_NODE_ADJ, .TM_NODE_TOKENS, .TM_NODE_QLIMIT_G, .TM_NODE_QLIMIT_Y, .TM_NODE_QLIMIT_R, .TM_NODE_DEPTH,
   .TM_NODE_DEFQ, .TM_NODE_DROPS, .TM_NODE_STATUS, .TM_METER_SELECT, .TM_METER_DATA, .TM_METER_CTRL,
   .TM_METER_STATUS]

/-- The registers of block CRY. -/
def cryRegs : List Reg :=
  [.CRY_ENGINES, .CRY_CHECKERS, .CRY_SLOTS_VALID, .CRY_CACHE_HIT, .CRY_CACHE_MISS, .CRY_STAT]

/-- The registers of block STO. -/
def stoRegs : List Reg :=
  [.STO_TRK_USED, .STO_TRK_HWM, .STO_TRK_FN_LIMIT, .STO_CTX_SELECT, .STO_CTX_CTRL, .STO_CTX_STATUS, .STO_CTX_DATA,
   .STO_NS_SELECT, .STO_NS_CTRL, .STO_NS_STATUS, .STO_NS_DATA, .STO_CTRL_SELECT, .STO_CTRL_CFG, .STO_CTRL_STATUS,
   .STO_STAT]

/-- The registers of block DMV. -/
def dmvRegs : List Reg :=
  [.DMV_MOVERS, .DMV_CH_SELECT, .DMV_CH_CFG, .DMV_CH_CTRL, .DMV_CH_STATUS, .DMV_CH_FAIL_ADDR_LO,
   .DMV_CH_FAIL_ADDR_HI, .DMV_CH_DESC, .DMV_WIN_SELECT, .DMV_WIN_BASE_LO, .DMV_WIN_BASE_HI, .DMV_WIN_SIZE,
   .DMV_WIN_OWNER, .DMV_STAT]

/-- The registers of block SVC. -/
def svcRegs : List Reg :=
  [.MBX_H2F_DATA, .MBX_H2F_CTRL, .MBX_STATUS, .MBX_F2H_DATA, .MBX_F2H_POP, .SVC_CORES, .SVC_CH_SELECT, .SVC_CH_CFG,
   .SVC_CH_STATUS, .SVC_CH_STORE_FREE, .SVC_DOMAIN_SELECT, .SVC_DOMAIN_CFG, .SVC_DOMAIN_CTRL, .SVC_DOMAIN_STATUS,
   .SVC_HANDLES_FREE, .SVC_FW_EVENT_MASK, .SVC_FMBX_DATA, .SVC_FMBX_CTRL, .SVC_FMBX_STATUS, .SVC_STAT]

/-- The registers of block AKZ. -/
def akzRegs : List Reg :=
  [.AKZ_CFG, .AKZ_STATUS, .AKZ_PORT_STATUS, .AKZ_CTRL, .AKZ_QLIMIT, .AKZ_CREDIT_CELLS, .AKZ_MEMBER_SERIAL_LO,
   .AKZ_MEMBER_SERIAL_HI, .AKZ_STAT]

/-- The registers of block REL. -/
def relRegs : List Reg :=
  [.REL_SUMMARY, .REL_READY0, .REL_READY1, .REL_READY2, .REL_UNIT_SELECT, .REL_UNIT_STATUS, .REL_SCREE_CFG,
   .REL_SPARES, .REL_CORR_S, .REL_CORR_H, .REL_POISON_WRITTEN, .REL_POISON_READ, .REL_PAGES_RETIRED, .REL_SCRUB_CFG,
   .REL_REPAIR_DELAY, .REL_CAP_DROP, .REL_MC_SELECT, .REL_MC_HEAD, .REL_MC_WINDOW]

/-- The registers of block LCS. -/
def lcsRegs : List Reg :=
  [.LCS_STATE, .LCS_DEBUG_LEFT, .LCS_SERIAL, .LCS_NONCE_LO, .LCS_NONCE_HI, .LCS_TOKEN_CTRL, .LCS_TOKEN_STATUS,
   .LCS_TOKEN_BUF, .LCS_FW_STATUS, .LCS_FW_CTRL, .LCS_FW_CFG, .LCS_FW_RUNNING, .LCS_FW_STAGED, .LCS_CERT_SELECT,
   .LCS_CERT_LEN, .LCS_CERT_WINDOW]

/-- The registers of one space, by block code (R12). -/
def regsOf : Space → List Reg
  | .vf => vfRegs
  | .block 0 => caiRegs
  | .block 1 => lcsRegs
  | .block 2 => hifRegs
  | .block 3 => qmRegs
  | .block 4 => macRegs
  | .block 5 => mgtRegs
  | .block 6 => prsRegs
  | .block 7 => tblRegs
  | .block 8 => tmRegs
  | .block 9 => cryRegs
  | .block 10 => stoRegs
  | .block 11 => dmvRegs
  | .block 12 => svcRegs
  | .block 13 => timRegs
  | .block 14 => akzRegs
  | .block 15 => relRegs
  | .block _ => []

/-- Every register. -/
def allRegs : List Reg :=
  [Reg.BLOCK_ID, Reg.BLOCK_DOMAIN] ++ (List.range 16).flatMap (fun i => regsOf (.block i)) ++ vfRegs


/-- The reset value of a register: its fields at their Reset columns. -/
def Reg.resetWord (r : Reg) : Word :=
  r.info.fields.foldl (fun w f => setFld w f.hi f.lo f.reset) 0

/-- The mask of the fields of a register that carry one of the given access codes. -/
def Reg.accMask (r : Reg) (p : Acc → Bool) : Word :=
  w32 (r.info.fields.foldl (fun m f => if p f.acc then m ||| maskOf f.hi f.lo else m) 0)

/-- Does an index pair and a register match this offset of its space? -/
def Reg.indexAt (r : Reg) (off : Nat) : Option Nat :=
  let g := r.info
  if off < g.off then none else
    let d := off - g.off
    let i := if g.stride = 0 then 0 else d / g.stride
    let d2 := d - i * g.stride
    let j := if g.stride2 = 0 then 0 else d2 / g.stride2
    if i < g.count ∧ j < g.count2 ∧ d2 = j * g.stride2 then some (i * g.count2 + j) else none

/-- The register at an offset of PF BAR0, with its index (R12, R13, R14). -/
def pfRegAt (off : Nat) : Option (Reg × Nat) :=
  let blk := off / 0x200000
  let o := off % 0x200000
  if o = 0 then some (.BLOCK_ID, blk)
  else if o = 4 then some (.BLOCK_DOMAIN, blk)
  else if o < 0x100 then none
  else firstSome (fun r => (r.indexAt o).map (fun i => (r, i))) (regsOf (.block blk))

/-- The register at an offset of VF BAR0, with its index (R474). The queue set-up registers stand 0x0100 higher than in the
QM window (R177) and the mailbox at 0x0400 (R408). -/
def vfRegAt (off : Nat) : Option (Reg × Nat) :=
  if 0x200 ≤ off ∧ off < 0x228 then
    if off = 0x220 then none
    else firstSome (fun r => (r.indexAt (off - 0x100)).map (fun i => (r, i))) (regsOf (.block 3))
  else if 0x400 ≤ off ∧ off < 0x480 then
    firstSome (fun r => (r.indexAt (off - 0x300)).map (fun i => (r, i))) ((regsOf (.block 12)).filter (fun r => r.info.held == .function))
  else firstSome (fun r => (r.indexAt off).map (fun i => (r, i))) (regsOf .vf)

/-- The key of a stored register: the register, its index and its holder. -/
def regKey (r : Reg) (i h : Nat) : Nat := (r.ctorIdx * 2 ^ 20 + i) * 2 ^ 24 + h

/-- The byte of the occurrence-count region that belongs to a W1C bit (R444): block code, window offset and bit. -/
def occKey (blk off bit h : Nat) : Nat := ((blk * 0x10000 + 0x10 * (off - 0x100) + 2 * bit) * 2 ^ 16) + h

/-- The window offset of instance i of a register. -/
def regOff (r : Reg) (i : Nat) : Nat :=
  let g := r.info
  g.off + (i / g.count2) * g.stride + (i % g.count2) * g.stride2

/-- The block code of a register's window; VF BAR0 counts with HIF. -/
def regBlock (r : Reg) (i : Nat) : Nat :=
  match r, r.info.space with
  | .BLOCK_ID, _ => i
  | .BLOCK_DOMAIN, _ => i
  | _, .block c => c
  | _, .vf => 2

end Sys2Proof.Machine
end

