-- ==== Sys2Proof/Machine/Map.lean ====
section
/-!
DEFINITION. Sparse maps from numbers, as plain data in one canonical form: keys strictly rising, and no entry that
equals what an unlisted key reads as.  Registers, device memory, tables, queues and every other numbered family of
the machine are held in this form, so that equal contents are equal data.
-/
namespace Sys2Proof.Machine

/-- A sparse map: (key, value) pairs. -/
abbrev NMap (α : Type) := List (Nat × α)

/-- The value listed at key k. -/
def mfind {α : Type} : NMap α → Nat → Option α
  | [], _ => none
  | (j, v) :: t, k => if k = j then some v else mfind t k

/-- m with v listed at key k. -/
def mput {α : Type} : NMap α → Nat → α → NMap α
  | [], k, v => [(k, v)]
  | (j, u) :: t, k, v =>
    if k = j then (k, v) :: t
    else if k < j then (k, v) :: (j, u) :: t
    else (j, u) :: mput t k v

/-- m with nothing listed at key k. -/
def mdel {α : Type} (m : NMap α) (k : Nat) : NMap α := m.filter (fun e => e.1 != k)

/-- The value at key k, d where none is listed. -/
def mget {α : Type} (d : α) (m : NMap α) (k : Nat) : α := (mfind m k).getD d

/-- m with value v at key k: the entry is dropped where v is what an unlisted key reads as. -/
def mset {α : Type} [DecidableEq α] (d : α) (m : NMap α) (k : Nat) (v : α) : NMap α :=
  if v = d then mdel m k else mput m k v

/-- m with the value at key k changed by f. -/
def mmod {α : Type} [DecidableEq α] (d : α) (m : NMap α) (k : Nat) (f : α → α) : NMap α :=
  mset d m k (f (mget d m k))

/-- The canonical form: strictly rising keys, no listed default. -/
def NMapWf {α : Type} (d : Nat → α) (m : NMap α) : Prop :=
  m.Pairwise (fun a b => a.1 < b.1) ∧ ∀ e ∈ m, e.2 ≠ d e.1

end Sys2Proof.Machine
end

