-- ==== Sys2Proof/Machine/StateCai.lean ====
section
/-!
DEFINITION. The state of the Cairn domain: modes, rails, clocks, reset pins, straps, temperatures, clock domains and
held accesses (package_power_clocks, startup_and_modes).
-/
namespace Sys2Proof.Machine

/-- The twelve operating modes of R93. -/
inductive Mode where
  | off | held | standby | bringup | service | spared | pause | drain | isolated | recovery | test | returned
deriving DecidableEq, Repr

/-- The code of a mode in CAI_MODE (R93). -/
def Mode.code : Mode → Nat
  | .off => 0 | .held => 1 | .standby => 2 | .bringup => 3 | .service => 4 | .spared => 5
  | .pause => 6 | .drain => 7 | .isolated => 8 | .recovery => 9 | .test => 10 | .returned => 11

/-- What the Cairn domain sees of one main rail (R71, R73). -/
structure RailSt where
  /-- Within its recommended range (R68). -/
  inRange : Bool := false
  /-- Cairn clock, ns, at which the rail last came into range. -/
  since : Nat := 0
  /-- GOOD: within range for 1 ms (R73, R87). -/
  good : Bool := false
  /-- Below 10% of nominal (R71, R72). -/
  below10 : Bool := true
  /-- It has been below 10% of nominal since the order fault that stands (R72). -/
  fell : Bool := false
deriving DecidableEq, Repr

/-- State of one unit of a fast domain (R13, R79). -/
inductive DState where
  | gated | starting | running | stopping
deriving DecidableEq, Repr

/-- STATE encoding of BLOCK_DOMAIN (R13). -/
def DState.code : DState → Nat
  | .gated => 0 | .starting => 1 | .running => 2 | .stopping => 3

/-- One unit that the power manager starts and stops (R16, R78, R79, R80). -/
structure DomainSt where
  st : DState := .gated
  /-- Cairn clock, ns, at which the state was entered. -/
  since : Nat := 0
  /-- A wake arrived during STOPPING (R79). -/
  wakeQueued : Bool := false
  /-- The self-test failed once in this start (R80). -/
  retried : Bool := false
  /-- The start failed twice and no spare was left (R80). -/
  dead : Bool := false
deriving DecidableEq, Repr

/-- What a BAR access does: an aligned 4-byte read or write, or an aligned 8-byte one where R126 and R161 honour it. -/
inductive AccessKind where
  | read
  | write (v : Word)
  | readWide
  | writeWide (v : BitVec 64)
deriving DecidableEq, Repr

/-- A BAR access held for a domain start or a Col pause (R15, R103, R127). -/
structure HeldAccess where
  path : Path
  off : Nat
  kind : AccessKind := .read
  /-- The thread that makes it, where firmware does. -/
  thread : Nat := 0
deriving DecidableEq, Repr

/-- BRINGUP in progress (R98). -/
structure Bringup where
  /-- Cairn clock, ns, at the start (R99). -/
  started : Nat := 0
  /-- Under Akzal boot, the moment at which BOOT_WAIT ends (R98 step 6). -/
  waitUntil : Option Nat := none
  /-- The bank that is read before the other; none is the active one (R97, R111). -/
  first : Option Nat := none
  /-- The main rails have stayed on since STANDBY, so that HBM holds an image (R108). -/
  warm : Bool := false
  /-- The boot ROM has begun its steps; false between a RESTART and BRINGUP_START. -/
  booted : Bool := true
  /-- Firmware runs: steps 8 and 9 are done. -/
  firmware : Bool := false
deriving DecidableEq, Repr

/-- DRAIN in progress (R105). -/
structure DrainSt where
  /-- Cairn clock, ns, at entry. -/
  entered : Nat := 0
  /-- DRAIN_STANDBY asked for it. -/
  standby : Bool := false
deriving DecidableEq, Repr

/-- A JTAG TAP (R89). -/
structure Tap where
  /-- The instruction register; Test-Logic-Reset selects IDCODE. -/
  instruction : Nat := 0
  /-- What the selected data register shifts out. -/
  dataOut : Nat := 0x132164E5
  /-- The boundary-scan register, as SAMPLE/PRELOAD and EXTEST load it. -/
  boundary : Nat := 0
  /-- The pins are driven by the boundary-scan register (1: EXTEST, CLAMP), released (2: HIGHZ), or work (0). -/
  pins : Nat := 0
deriving DecidableEq, Repr

/-- The Cairn domain (R13 to R17, R67 to R115). -/
structure Cai where
  /-- CAI_MODE.MODE (R93, R112). -/
  mode : Mode := .standby
  /-- CAI_MODE.PREV_MODE (R112). -/
  prevMode : Mode := .held
  /-- PORST_N is low past its filter (R83). -/
  porstLow : Bool := false
  /-- Cairn clock, ns, at which PORST_N fell. -/
  porstSince : Nat := 0
  /-- VDD_AON and VDDIO_AON within range (R475). -/
  stageA : Bool := true
  /-- The six main rails, in CAI_RAIL_STATUS order (R73, R87). -/
  rails : List RailSt := List.replicate 6 {}
  /-- The order fault of R72 stands until the rails have fallen and risen in order. -/
  orderFault : Bool := false
  /-- A rail fault of R73 stands until every main rail is good and the fast domains run again (R86). -/
  railFault : Bool := false
  /-- A thermal trip of R85 stands until every reading has fallen 10 °C below TRIP. -/
  tripped : Bool := false
  /-- A fatal machine check of R443 stands until the restart (R86). -/
  fatal : Bool := false
  /-- Cairn clock, ns, at which the restart of R443 falls due. -/
  fatalRestartAt : Option Nat := none
  /-- PERST0_N and PERST1_N high (R83). -/
  perstHigh : List Bool := [false, false]
  /-- STRAP0 to STRAP7 as sampled (R82). -/
  straps : BitVec 8 := 0
  /-- The wake-pending flag of R107, set by the rise of PORST_N. -/
  wakePending : Bool := true
  /-- A wake source of R81 is pending: it holds WAKE_N low until every main rail is good. -/
  wakeSource : Bool := false
  /-- What CAI_RESET_CAUSE takes when the pending wake starts BRINGUP (R87). -/
  wakeCause : Nat := 0
  /-- CAI_RESET_CAUSE (R87). -/
  resetCause : Nat := 0
  /-- CAI_MODE.BOOT_TIME, ms (R99, R112). -/
  bootTime : Nat := 0
  /-- CAI_MODE.BOOT_IMAGE (R112). -/
  bootImage : Nat := 0
  /-- BRINGUP in progress (R98). -/
  bringup : Option Bringup := none
  /-- DRAIN in progress (R105). -/
  drain : Option DrainSt := none
  /-- The settings applied in the last BRINGUP (R98 step 9, R117). -/
  settings : Settings := {}
  /-- Units that have reported ready (R102): Ethernet logical port p as p, Akzal port p as 0x100 + p, a block as
  0x200 + its code, a service core c as 0x300 + c. -/
  ready : List Nat := []
  /-- Junction readings of the sixteen sensors, units of 0.25 °C (R85, R87). -/
  temps : List Int := List.replicate 16 0
  /-- THERMAL_WARN may be raised again (R85). -/
  warnArmed : Bool := true
  /-- SYSCLK_IN runs (R76). -/
  sysclk : Bool := true
  /-- ETH_REFCLK runs (R77). -/
  ethRef : Bool := true
  /-- Cairn clock, ns, since which PCIE_REFCLK0 and PCIE_REFCLK1 have run; none while stopped (R77, R84). -/
  pcieRef : List (Option Nat) := [none, none]
  /-- The units of the fast domains, by DUnit code (R16). -/
  domains : NMap DomainSt := []
  /-- Accesses held for a start or a pause, oldest first (R15, R103). -/
  heldAccesses : List HeldAccess := []
  /-- The IEEE 1149.1 TAP (R89). -/
  tap : Tap := {}
deriving DecidableEq, Repr

/-- A number for each unit, as the key of its record. -/
def unitCode : DUnit → Nat
  | .hifHalf h => 0x200 + h
  | .qm => 0x300
  | .macPort n => 0x400 + n
  | .mgt => 0x500
  | .prsPair p => 0x6000 + p
  | .packet => 0x700
  | .cryEngine e => 0x900 + e
  | .sto => 0xA00
  | .dmv => 0xB00
  | .svcCore c => 0xC00 + c
  | .akzPort p => 0xE00 + p
  | .rel => 0xF00

end Sys2Proof.Machine
end

