-- ==== Sys2Proof/Machine/StateCry.lean ====
section
/-!
DEFINITION. The state of CRY (ciphers_and_keys), REL (hidden_failure) and LCS (lifecycle_and_update).
-/
namespace Sys2Proof.Machine

/-- A key slot: its record (R325) and its key. An empty slot's record is zero. -/
structure KeySlot where
  /-- The key, 16 or 32 bytes; none while no key is present (VALID). -/
  key : Option Bytes := none
  dir : Bool := false
  explicitOk : Bool := false
  kek : Bool := false
  replay : Bool := false
  sciInclude : Bool := false
  exhausted : Bool := false
  resync : Bool := false
  proto : Nat := 0
  keyLen : Nat := 0
  param : Nat := 0
  /-- OWNER: vport in 11:0, DEVICE in 15. -/
  owner : Nat := 0
  window : Nat := 0
  vfCreated : Bool := false
  salt : Bytes := List.replicate 12 0
  spi : Nat := 0
  sci : Nat := 0
  next : Nat := 0
  rekeyAt : Nat := 0
  tcpNext : Nat := 0
  authFails : Nat := 0
  replays : Nat := 0
  /-- Numbers accepted at or above NEXT - REPLAY_WINDOW (R335, R336). -/
  seen : List Nat := []
  /-- Numbers below this one count as seen (R341). -/
  seenBelow : Nat := 0
  /-- The last 16 (TCP sequence, record number) pairs of R338, the latest first. -/
  history : List (Nat × Nat) := []
deriving DecidableEq, Repr

/-- What a message in an engine is for. -/
inductive CrySrc where
  | frame (id : Nat)
  | lookaside (f : Fn) (q ctr : Nat)
deriving DecidableEq, Repr

/-- A message of CRY (R321 to R324, R340): everything is computed when it is dispatched, and released by its check. -/
structure CryMsg where
  src : CrySrc
  slot : Nat
  encrypt : Bool
  /-- 0 a frame of the datapath, 1 + URGENCY a look-aside message. -/
  urgency : Nat := 0
  /-- The number it uses, where it uses one. -/
  n : Nat := 0
  /-- The tag compared (decryption). -/
  ok : Bool := true
  /-- The output: the frame's new bytes, or what goes to DST. -/
  out : Bytes := []
  dst : Nat := 0
  /-- Bytes 24 to 31 of the completion. -/
  extra : Nat := 0
  /-- Edits of the frame: position, bytes removed, bytes inserted. -/
  edits : List (Nat × Nat × Nat) := []
  /-- Engines whose run the checker refused, first first (R323). -/
  refused : List Nat := []
deriving DecidableEq, Repr

/-- One engine: the message that runs and the one it holds suspended (R340). -/
structure CryEngine where
  running : Option CryMsg := none
  suspended : Option CryMsg := none
deriving DecidableEq, Repr

/-- CRY (R321 to R343). -/
structure Cry where
  slots : NMap KeySlot := []
  /-- Cached slots, the latest first, at most 4,096 (R327). -/
  cache : List Nat := []
  /-- Slots being fetched (R327). -/
  fetching : List Nat := []
  /-- Engines by physical number. -/
  engines : NMap CryEngine := []
  /-- Messages that wait for an engine, oldest first. -/
  waiting : List CryMsg := []
  /-- Messages that failed every run (R323). -/
  held : List CryMsg := []
deriving DecidableEq, Repr

/-- One unit that REL watches (R434 to R438, R445). -/
structure RelUnit where
  /-- STATE of REL_UNIT_STATUS: 0 ACTIVE, 1 SPARE, 3 RETIRED, 4 TESTING, 5 CONDEMNED. -/
  st : Nat := 0
  strikes : Nat := 0
  epoch : Nat := 0
  /-- Counts by the Cairn clock at which they arrived, so that a new WINDOW divides them anew (R434, R435). -/
  counts : NMap Nat := []
  /-- Cairn clock, ns, of the retirement. -/
  retiredAt : Nat := 0
  /-- Control copy: its standby pair is in use (R437). -/
  standbyUsed : Bool := false
deriving DecidableEq, Repr

/-- A Saddle hand-off under way: the kind, the unit that leaves and the one that joins (R440). -/
structure Handoff where
  kind : Nat
  leaves : Nat
  joins : Option Nat
deriving DecidableEq, Repr

/-- REL (R429 to R447). -/
structure Rel where
  /-- Units that differ from their state after BRINGUP, by kind * 65536 + index. -/
  units : NMap RelUnit := []
  /-- Scree counts of memory rows, by (kind * 65536 + macro or bank) * 2^40 + row. -/
  rows : NMap RelUnit := []
  /-- Spare rows used per macro or bank, by kind * 65536 + index. -/
  rowsUsed : NMap Nat := []
  /-- Engagements per kind (R438). -/
  engaged : NMap Nat := []
  /-- Kinds for which SPARE_EXHAUSTED has been raised. -/
  exhausted : List Nat := []
  /-- The last epoch given per kind. -/
  epochs : NMap Nat := []
  handoffs : List Handoff := []
  /-- Poisoned lines, by line number (R431). -/
  poison : NMap Bool := []
  pagesRetired : Nat := 0
  /-- Machine-check records held, by SEQ (R446), and the next SEQ. -/
  log : NMap Bytes := []
  logNext : Nat := 0
  /-- Units that stopped in order at DRAIN_STANDBY (R441). -/
  stoppedInOrder : Bool := false
deriving DecidableEq, Repr

/-- An open debug session (R455). -/
structure DebugSession where
  perms : Nat
  /-- Cairn clock, ns, at which it ends. -/
  endAt : Nat
deriving DecidableEq, Repr

/-- A switch under way in PAUSE (R462). -/
structure Switch where
  /-- Cairn clock, ns, of the entry. -/
  entered : Nat
  /-- The bank switched to. -/
  bank : Nat
  rollback : Bool := false
  /-- The sender of ACTIVATE on the master, for a member's reply. -/
  fromMaster : Bool := false
deriving DecidableEq, Repr

/-- An activation of the chain, on the master (R461): members still to switch, in order. -/
structure ChainSwitch where
  rollback : Bool := false
  left : List Nat
deriving DecidableEq, Repr

/-- PLDM Type 5 states of the update agent's view (R459). -/
inductive PldmSt where
  | idle | learn | ready | download
deriving DecidableEq, Repr

/-- A valid copy of the flash directory (R456): SEQ, ACTIVE, COMMITTED and the (offset, length) entries of BANK_A, BANK_B, RECOVERY, SETTINGS_A
and SETTINGS_B. -/
structure FlashDir where
  seq : Nat := 0
  active : Nat := 0
  committed : Bool := true
  entries : List (Nat × Nat) := []
deriving DecidableEq, Repr

/-- LCS (R448 to R468). -/
structure Lcs where
  /-- Life-cycle state, code of R448. -/
  life : Nat := 0
  /-- SHA-384 of the owner keys in the four fused slots, as filled. -/
  owners : List Bytes := []
  returnPending : Bool := false
  /-- The state that RETURN_PENDING leads to. -/
  returnTo : Nat := 3
  svnFloor : Nat := 0
  session : Option DebugSession := none
  /-- The current nonce; none when consumed or never issued. -/
  nonce : Option Nat := none
  /-- The nonce as LCS_NONCE shows it. -/
  nonceShown : Nat := 0
  /-- The ZEROISE record (R450). -/
  zeroise : Bytes := []
  /-- Flash: the two banks, the recovery region and the two settings regions, once read or written (R456, R457, R465). -/
  bankA : Option Bytes := none
  bankB : Option Bytes := none
  recovery : Option Bytes := none
  regionA : Option Bytes := none
  regionB : Option Bytes := none
  /-- The two copies of the flash directory; none where a copy is not valid (R456). -/
  dir0 : Option FlashDir := none
  dir1 : Option FlashDir := none
  /-- The flash has been read since it was fitted. -/
  flashRead : Bool := false
  /-- The bank that runs, and COMMITTED (R462, R464). -/
  active : Nat := 0
  committed : Bool := true
  /-- The running image's bytes; empty before any image has run. -/
  running : Bytes := []
  /-- A staged and verified image is in the inactive bank. -/
  staged : Option Bytes := none
  /-- Status of each member's IMAGE_RESULT for the staged image, by member. -/
  memberResults : NMap Nat := []
  /-- Cairn clock, ns, by which the directory must be written; none when it is (R463). -/
  dirPending : Option Nat := none
  /-- RESULT of LCS_FW_STATUS. -/
  result : Nat := 0
  /-- Whom the answer to an ACTIVATE or ROLLBACK of the chain is owed: a PF by its mailbox (R459). -/
  replyTo : Option Fn := none
  switch_ : Option Switch := none
  chain : Option ChainSwitch := none
  /-- Cairn clock, ns, of the last SWITCHED (R464). -/
  switchedAt : Nat := 0
  /-- The settings region in use, 0 A and 1 B; none where none has been applied (R452, R465). -/
  regionUsed : Option Nat := none
  /-- What the last BRINGUP derived the attestation key from: the life-cycle state and the owner's hash; none where there is no such key (R451). -/
  attest : Option (Nat × Bytes) := none
  /-- The sealing key as the last BRINGUP derived it (R451). -/
  sealKey : Bytes := []
  /-- The bank whose staged image has not started yet (R466). -/
  freshImage : Option Nat := none
  /-- The region that a staging has filled and no image has started from yet (R465, R466). -/
  freshRegion : Option Nat := none
  pldm : PldmSt := .idle
  /-- PLDM: expected length and what has been received. -/
  pldmLen : Nat := 0
  pldmGot : Bytes := []
deriving DecidableEq, Repr

end Sys2Proof.Machine
end

