-- ==== Sys2Proof/Machine/StateHif.lean ====
section
/-!
DEFINITION. The state of the host interface: links, functions, configuration space, tags, translations, DOE, SPDM, IDE
and TDISP (host_link), and the resources and migration of virtual functions (functions_and_migration).
-/
namespace Sys2Proof.Machine

/-- One PCIe half (R116, R119, R154). -/
structure HalfSt where
  /-- HIF_LINK_STATUS.UP. -/
  up : Bool := false
  /-- HIF_LINK_STATUS rate code, 1 for 2.5 GT/s to 7 for 128 GT/s, 0 down. -/
  rate : Nat := 0
  /-- HIF_LINK_STATUS width in lanes. -/
  width : Nat := 0
  /-- HIF_LINK_STATUS.FLIT. -/
  flit : Bool := false
  /-- The half is training (R84, R119). -/
  training : Bool := false
deriving DecidableEq, Repr

/-- What a non-posted request of the device serves (R131). -/
inductive ReqUse where
  /-- Read number idx of a fetched submission entry. -/
  | work (sq ctr idx : Nat)
  /-- The translation of a page for a fetched entry (R143). -/
  | translate (sq ctr page : Nat)
  /-- Any other read. -/
  | other
deriving DecidableEq, Repr

/-- A request that waits for a slot and a tag (R131). -/
structure Req where
  fn : Fn
  use : ReqUse
  addr : Nat := 0
  len : Nat := 0
deriving DecidableEq, Repr

/-- What a tracking slot is doing (R131, R134, R135, R141). -/
inductive SlotSt where
  | outstanding | endedEarly | orphaned | quarantined
deriving DecidableEq, Repr

/-- One tracking slot (R131). -/
structure Slot where
  req : Req
  tag : Nat
  /-- Cairn clock, ns, of the issue. -/
  issued : Nat
  /-- Completion timeout, ns (R133). -/
  timeout : Nat
  st : SlotSt := .outstanding
  /-- Data received so far. -/
  got : Bytes := []
  /-- The selective IDE stream that carried it. -/
  stream : Option Nat := none
  /-- Cairn clock, ns, at which a quarantine ends. -/
  quarantineEnd : Nat := 0
deriving DecidableEq, Repr

/-- A VF's resources as GRANT applied them (R184, R185). -/
structure Grant where
  base : Nat := 0
  sqs : Nat := 0
  cqs : Nat := 0
  eqBase : Nat := 0
  eqs : Nat := 0
  vectors : Nat := 0
deriving DecidableEq, Repr

/-- STATE of HIF_VF_MIG_STATE (R188). -/
inductive MigSt where
  | running | freezing | frozen | saving | restoring
deriving DecidableEq, Repr

/-- Its encoding (R188). -/
def MigSt.code : MigSt → Nat
  | .running => 0 | .freezing => 1 | .frozen => 2 | .saving => 3 | .restoring => 4

/-- A VF's migration state (R188 to R196). -/
structure Mig where
  st : MigSt := .running
  /-- RESULT of HIF_VF_MIG_STATE. -/
  result : Nat := 0
  /-- The action that is PENDING, by its ACTION code. -/
  action : Option Nat := none
  /-- The RESULT with which the pending SAVE or RESTORE ends. -/
  ending : Nat := 0
  /-- A RESTORE has begun whose image has not been read. -/
  imageDue : Bool := false
  /-- Cairn clock, ns, at which FREEZE began (R192). -/
  freezeAt : Nat := 0
  /-- MIG_SLOW has been raised for this freeze. -/
  slow : Bool := false
  logging : Bool := false
  activeB : Bool := false
  rangeMiss : Bool := false
  /-- HIF_VF_IMG_USED. -/
  imgUsed : Nat := 0
  /-- The last RESTORE applied an image of another device (R196). -/
  foreign : Bool := false
deriving DecidableEq, Repr

/-- TDISP interface states (R152, R153). -/
inductive TdiSt where
  | unlocked | locked | run | error
deriving DecidableEq, Repr

/-- A TDISP device interface (R152, R153). -/
structure Tdi where
  st : TdiSt := .unlocked
  /-- The bound selective IDE stream. -/
  stream : Nat := 0
  /-- The nonce of LOCK_INTERFACE, which START_INTERFACE must return. -/
  nonce : Nat := 0
deriving DecidableEq, Repr

/-- A Page Request that the host has not answered (R144). -/
structure PageReq where
  fn : Fn
  sq : Nat
  ctr : Nat
  page : Nat
  /-- Cairn clock, ns, at which it was sent. -/
  sent : Nat
deriving DecidableEq, Repr

/-- One function (R100, R140 to R142, R176, R183 to R196). -/
structure FnSt where
  /-- Ready under R100. -/
  ready : Bool := false
  /-- The VF exists: VF Enable of its PF is set and its number is at most NumVFs (R130). -/
  enabled : Bool := false
  /-- What FUNCTION_READY reports: 0 DRS, 1 FLR, 2 VF Enable, 3 D3hot to D0 (R100); none when nothing is awaited. -/
  readyWhy : Option Nat := none
  /-- Bus Master Enable was cleared and QUIESCED has not read 1 since, or no queue has been restarted since (R140, R142). -/
  silent : Bool := false
  /-- Requests were outstanding at that clear, and QUIESCED has not read 1 since (R142). -/
  awaitQuiesce : Bool := false
  /-- Cairn clock, ns, at which the FLR under way began (R141). -/
  flrAt : Option Nat := none
  /-- VF: the grant applied (R185). -/
  grant : Option Grant := none
  /-- The bound vport (R186). -/
  vport : Option Nat := none
  /-- Event queues created with DEFAULT set, the latest first (R177). -/
  defaultEqs : List Nat := []
  /-- MSI-X table entries written: address in bits 63:0, data in 95:64, vector control in 127:96 (R125). -/
  msix : NMap Nat := []
  /-- Set bits of the pending bit array, rising (R176). -/
  pba : List Nat := []
  mig : Mig := {}
  tdi : Tdi := {}
  /-- Page requests outstanding of the PF and its VFs, oldest first (R144). -/
  pageRequests : List PageReq := []
deriving DecidableEq, Repr

/-- A cached translation (R143). -/
structure AtsEntry where
  fn : Fn
  pasid : Option Nat := none
  page : Nat
  dest : Nat
deriving DecidableEq, Repr

/-- A secure session of a DOE instance (R149). -/
structure SpdmSession where
  id : Nat
  /-- FINISH has been answered: application data may flow. -/
  established : Bool := false
  /-- The responder asked for mutual authentication, and how far its ENCAPSULATED requests have come: none sent, GET_DIGESTS, GET_CERTIFICATE,
  or all answered. -/
  mutually : Bool := false
  encap : Nat := 0
  /-- KEY_UPDATE generations of the two directions. -/
  reqGen : Nat := 0
  rspGen : Nat := 0
deriving DecidableEq, Repr

/-- One DOE instance and the SPDM responder behind it (R148, R149). -/
structure Doe where
  /-- DOE Error. -/
  error : Bool := false
  /-- Data Object Ready. -/
  ready : Bool := false
  /-- The data object that waits to be read. -/
  answer : Bytes := []
  /-- SPDM connection: 0 nothing, 1 version known, 2 capabilities known, 3 algorithms negotiated. -/
  phase : Nat := 0
  /-- Negotiated version, 0x12 or 0x13. -/
  version : Nat := 0
  sessions : List SpdmSession := []
  /-- The next responder half of a session identifier. -/
  nextSession : Nat := 1
deriving DecidableEq, Repr

/-- One IDE stream (R150, R151). -/
structure Ide where
  enabled : Bool := false
  /-- Stream state: true Secure, false Insecure. -/
  secure : Bool := false
  /-- Integrity check failure is logged in the IDE capability. -/
  failLogged : Bool := false
  /-- Keys programmed: (sub-stream and direction and key set code, key, iv). -/
  keys : List (Nat × Nat × Nat) := []
  /-- Key sets in use per sub-stream and direction. -/
  active : List (Nat × Nat) := []
deriving DecidableEq, Repr

/-- The host interface (R116 to R155, R183 to R197). -/
structure Hif where
  halves : List HalfSt := [{}, {}]
  /-- Functions, by function code. -/
  fns : NMap FnSt := []
  /-- Configuration space dwords that differ from reset, by function code * 1024 + dword number (R120 to R130). -/
  cfg : NMap Word := []
  /-- The 16,384 tracking slots in use, by slot number (R131). -/
  slots : NMap Slot := []
  /-- Requests that wait for a slot or a tag, oldest first (R131). -/
  waiting : List Req := []
  /-- The translation cache (R143). -/
  ats : List AtsEntry := []
  doe : List Doe := [{}, {}]
  /-- IDE streams by half * 32 + stream: stream 0 the link stream, 1 to 16 selective (R150). -/
  ide : NMap Ide := []
deriving DecidableEq, Repr

end Sys2Proof.Machine
end

