-- ==== Sys2Proof/Machine/StateNet.lean ====
section
/-!
DEFINITION. The state of the datapath: ports and the management MAC (ethernet_ports), parse engines (frastra), tables,
actions and learning, and cells, scheduling, meters and gates.
-/
namespace Sys2Proof.Machine

/-- What the MAC keeps for one priority of a logical port (R213, R214, R216). -/
structure PrioSt where
  /-- Cairn clock, ns, at which a received pause hold ends; none when not held. -/
  holdUntil : Option Nat := none
  /-- Cairn clock, ns, since which the hold has lasted without a break. -/
  heldSince : Nat := 0
  /-- Cairn clock, ns, of the last received pause time above 0. -/
  lastPause : Nat := 0
  rxStorm : Bool := false
  /-- In XOFF (R214). -/
  xoff : Bool := false
  xoffSince : Nat := 0
  /-- Cairn clock, ns, of the last pause frame sent. -/
  lastSent : Nat := 0
  txStorm : Bool := false
  /-- Cairn clock, ns, since which the count has stayed below XON_CELLS. -/
  belowSince : Option Nat := none
deriving DecidableEq, Repr

/-- A gate control list: base time, cycle time and (interval, gate states) entries (R311, R312). -/
structure GateList where
  base : Nat := 0
  cycle : Nat := 1000000
  entries : List (Nat × Nat) := []
  /-- CONFIG_CHANGE_TIME. -/
  change : Nat := 0
deriving DecidableEq, Repr

/-- A copy queued for a logical port (R298). -/
structure Copy where
  frame : Nat
  bytes : Bytes
  colour : Nat := 0
  cls : Nat := 0
  lport : Nat := 0
  launch : Option Nat := none
  tsInsert : Option (Nat × Nat × Nat) := none
  /-- Ingress timestamp for RESIDENCE, 2^-16 ns (R207). -/
  rxTs : Nat := 0
  /-- Its arrival at the head has been judged (R309, R315). -/
  judged : Bool := false
deriving DecidableEq, Repr

/-- A copy in transmission (R205, R301): the copy, its start on the Cairn clock in units of 5 ps, its length on the wire, its transmit
timestamp in 2^-16 ns and the bound then. -/
structure Sending where
  copy : Copy
  start : Nat
  len : Nat
  ts : Nat
  bound : Nat
deriving DecidableEq, Repr

/-- One logical port (R198 to R217, R311 to R316). -/
structure LPort where
  up : Bool := false
  /-- It begins to come up again (R201). -/
  starting : Bool := false
  fecDegraded : Bool := false
  /-- Consecutive windows at or below DEGRADE_LIMIT. -/
  goodWindows : Nat := 0
  prios : List PrioSt := List.replicate 8 {}
  /-- The 64-bit counters, k to value (R217). -/
  counters : NMap Nat := []
  /-- The copy in transmission. -/
  sending : Option Sending := none
  /-- The moment at which the last frame and its gap have ended, on the Cairn clock in units of 5 ps. -/
  freeAt : Nat := 0
  oper : Option GateList := none
  pending : Option GateList := none
  /-- RESULT of MAC_GATE_STATUS. -/
  gateResult : Nat := 0
  /-- CONFIG_CHANGE_TIME of the list committed last (R312). -/
  gateChange : Nat := 0
  /-- Cairn clock, ns, of the first change that the last PFC frame carries (R214). -/
  pfcAt : Option Nat := none
deriving DecidableEq, Repr

/-- The Ethernet MACs (R198 to R219). -/
structure Mac where
  lports : List LPort := List.replicate 16 {}
  /-- MAC_PORTn_STATUS: lock and signal bits per physical port. -/
  lock : List Nat := [0, 0]
  /-- Filter entries, 16 bytes each, by index (R209). -/
  filters : NMap Bytes := []
deriving DecidableEq, Repr

/-- One NC-SI channel (R223). -/
structure NcsiChannel where
  enabled : Bool := false
  txEnabled : Bool := false
  aen : Nat := 0
  macs : List Nat := []
  vlans : List Nat := []
  vlanMode : Nat := 0
  broadcast : Nat := 0
  multicast : Nat := 0
  initial : Bool := true
deriving DecidableEq, Repr

/-- The management MAC (R220 to R225). -/
structure Mgt where
  linkUp : Bool := false
  /-- Frames queued for sending, oldest first: (handle, bytes) (R403). -/
  queue : List (Nat × Bytes) := []
  /-- The frame at the head is being sent. -/
  sending : Bool := false
  /-- Collisions of the head frame. -/
  attempts : Nat := 0
  /-- Cairn clock, ns, at which a back-off ends. -/
  backoffUntil : Option Nat := none
  carrier : Bool := false
  /-- Cairn clock, ns, at which a received pause hold ends (R220). -/
  pauseUntil : Option Nat := none
  mdioBusy : Bool := false
  mdioNoAck : Bool := false
  ncsi : List NcsiChannel := List.replicate 4 {}
  ncsiSelected : Bool := false
deriving DecidableEq, Repr

/-- Where a frame stands (R18, R228, R241, R261, R264). -/
inductive Stage where
  | waiting | parsing | parsed | table | actions | finished
deriving DecidableEq, Repr

/-- The 32-byte context block (R260). -/
structure Ctx where
  srcVport : Nat := 0xFFFF
  vsi : Nat := 0
  vrf : Nat := 0
  tunnel : Nat := 0
  user : Nat := 0
deriving DecidableEq, Repr

/-- A delivery of a host-transmitted or injected frame that waits for the end of the frame's list, since nothing of a frame leaves that
completes with another status than SUCCESS (R23): the frame whose copy it is, the action entry, and the copy. -/
structure Delivery where
  frame : Nat
  word : Nat
  bytes : Bytes
  colour : Nat := 0
  cls : Option Nat := none
  tsInsert : Option (Nat × Nat × Nat) := none
deriving DecidableEq, Repr

/-- How a copy of a frame has finished (R22): dropped by its list, lost on the way, delivered, or transmitted by a port. -/
inductive CopyEnd where
  | dropped | lost | delivered | port
deriving DecidableEq, Repr

/-- Which copy's time the completion shows (R22): a transmitted one's before a delivered one's; a lost one's only where no copy has done
better. -/
def CopyEnd.rank : CopyEnd → Nat
  | .dropped => 0 | .lost => 1 | .delivered => 2 | .port => 3

/-- A frame held in cells (R18, R228, R232, R264). -/
structure Frame where
  /-- INGRESS of the header vector: KIND in bits 2:0, INDEX in bits 15:4 (R232). -/
  ingress : Nat
  /-- The ingress source: the host transmit of a PF by its PF, a queue for order (R20, R228). -/
  source : Nat
  /-- Its bytes as the actions have left them, FCS not included. -/
  bytes : Bytes
  /-- Its bytes as they entered (DEC_TTL with EXC, R266). -/
  asEntered : Bytes := []
  fcs : Nat := 0
  /-- Its end has arrived and its FCS is good. -/
  ended : Bool := false
  /-- Cells held in Ochre, Umber and Sienna (R295). -/
  ochre : Nat := 0
  umber : Nat := 0
  sienna : Nat := 0
  vport : Nat := 0xFFFF
  rxFlags : Nat := 0
  prio : Nat := 0
  /-- Ingress timestamp in units of 2^-16 ns, and the bound then. -/
  ts : Nat := 0
  bound : Nat := 0
  metadata : Nat := 0
  /-- Entry point named by an injection (R402). -/
  entryPoint : Option Nat := none
  /-- Flow index named by an injection (R291). -/
  flowIndex : Option Nat := none
  /-- The submission entry that sent it: function, SQ, counter. -/
  origin : Option (Fn × Nat × Nat) := none
  /-- Injected by a thread: REPLY channel, TAG, domain and that domain's EPOCH (R402). -/
  injected : Option (Nat × Nat × Nat × Nat) := none
  launch : Option Nat := none
  hv : Bytes := []
  stage : Stage := .waiting
  ctx : Ctx := {}
  /-- Table program: bank, number, step. -/
  bank : Nat := 0
  program : Nat := 0
  step : Nat := 0
  /-- Its table program has begun. -/
  begun : Bool := false
  /-- The banks in which its lookup waits for a move to end before it reads again (R274). -/
  retry : List Nat := []
  /-- Contributed lists still to run, in order: each a list of entries and the action-store list it continues in. -/
  lists : List (List Nat) := []
  executed : Nat := 0
  /-- Positions of MARK0 to MARK7; none where not valid. -/
  marks : List (Option Nat) := []
  /-- Colour: 0 green, 1 yellow, 2 red. -/
  colour : Nat := 0
  /-- Class set by SET_CLASS. -/
  cls : Option Nat := none
  tsInsert : Option (Nat × Nat × Nat) := none
  decrypted : Bool := false
  /-- A message of it is in CRY (R323, R334). -/
  inCry : Bool := false
  /-- This is a mirror copy running its own list (R266). -/
  mirror : Bool := false
  /-- The frame that it is a mirror copy of (R266). -/
  parent : Option Nat := none
  /-- Its list contains an ENCRYPT, so that its copies wait for the end of the list (R337). -/
  holds : Bool := false
  /-- Deliveries that wait for the end of its list (R23, R337). -/
  deferred : List Delivery := []
  /-- It waits for cells (R296). -/
  waitCells : Bool := false
  /-- PRS_STAT counters that its parse will count once its FCS is good (R228). -/
  prsCounts : List Nat := []
  /-- The pair that a re-run of its parse avoids (R255). -/
  notPair : Option Nat := none
  /-- Copies made, and copies not yet finished (R22). -/
  copies : Nat := 0
  live : Nat := 0
  /-- The best end of a copy so far, and the latest time and bound of a copy that ended so (R22). -/
  best : CopyEnd := .dropped
  lastTs : Nat := 0
  lastBound : Nat := 0
  /-- Status that a condition of R23 gave. -/
  status : Nat := 0
  /-- It came over an Akzal port: the port, class and cells of the credit that its end returns (R414). -/
  back : Option (Nat × Nat × Nat) := none
  /-- The bindings and permissions in force at its parse: function code, vport, HIF_VF_PERM (R186, R187). -/
  bindings : Option (List (Nat × Nat × Word)) := none
deriving DecidableEq, Repr

/-- One Frastra engine with a frame (R231, R243). -/
structure Engine where
  frame : Nat
  entry : Nat := 0
  pc : Nat := 0
  /-- G0 to G15. -/
  g : List Nat := List.replicate 16 0
  cursor : Nat := 0
  /-- The four call-stack entries, and the depth. -/
  stack : List Nat := List.replicate 4 0
  depth : Nat := 0
  /-- MARK0 to MARK7 and their MARK_VALID bits. -/
  marks : List Nat := List.replicate 8 0
  marked : Nat := 0
  /-- Bytes fed to the hash since the last HASHRST, the first 64 (R246). -/
  fed : Bytes := []
  /-- Header-vector bytes. -/
  hv : Bytes := []
  cycles : Nat := 0
  traps : Nat := 0
  fragResult : Nat := 0xFF
  /-- In a handler: trapping word, cursor, call-stack depth, G14, G15 saved (R243). -/
  saved : Option (Nat × Nat × Nat × Nat × Nat) := none
  /-- W and the window bytes. -/
  window : Bytes := []
  /-- The hash key in force at dispatch, from the most significant bit (R246). -/
  key : Nat := 0
deriving DecidableEq, Repr

/-- One fragment entry (R249, R250). -/
structure Frag where
  key : List Nat
  ports : Nat
  /-- Cairn clock, ns, of the last refresh. -/
  at_ : Nat
deriving DecidableEq, Repr

/-- An indirection table (R247, R256). -/
structure IndTable where
  cfg : Word := 0
  /-- Targets by bank * 512 + index. -/
  targets : NMap Nat := []
deriving DecidableEq, Repr

/-- A loaded PRS image (R252). -/
structure PrsImage where
  words : List Nat := []
  /-- 256 match entries. -/
  matches_ : List Nat := []
  /-- 32 entry points. -/
  entries : List Nat := []
  buildId : Nat := 0
deriving DecidableEq, Repr

/-- The parse array (R226 to R257). -/
structure Prs where
  /-- Pairs in which a failing line awaits its rewrite (R255). -/
  rewriting : List Nat := []
  /-- The golden copies of the image, one in each HBM stack (R253, R255). -/
  golden : List PrsImage := [{}, {}]
  /-- Gated pairs that run for a load, to be gated again (R253). -/
  loadPairs : List Nat := []
  engines : NMap Engine := []
  image : PrsImage := {}
  loaded : Bool := false
  /-- RESULT of PRS_LOAD_STATUS; an image being loaded. -/
  loadResult : Nat := 0
  loading : Option PrsImage := none
  /-- Fragment entries by set * 4 + way. -/
  frags : NMap Frag := []
  ind : NMap IndTable := []
deriving DecidableEq, Repr

/-- A slot of a flow bucket: signature, index, generation (R270, R273). -/
structure Slot8 where
  sig : Nat
  index : Nat
  gen : Nat := 0
deriving DecidableEq, Repr

/-- A lock on a flow entry (R288). -/
structure FlowLock where
  fn : Fn
  sq : Nat
  /-- Cairn clock, ns, at which it was set. -/
  at_ : Nat
deriving DecidableEq, Repr

/-- A queued learn request (R281). -/
structure Learn where
  vsi : Nat
  vport : Nat
  mac : Nat
  vid : Nat
  ts : Nat
deriving DecidableEq, Repr

/-- A slot that waits for the way that a path of moves frees (R272): the slot, its bucket, and the table operation that inserted it. -/
structure Placing where
  slot : Slot8
  bucket : Nat
  work : Option (Fn × Nat × Nat) := none
deriving DecidableEq, Repr

/-- The move-in-progress register of a bank (R273): the slot's signature and index, its source and destination buckets, and ACTIVE. -/
structure MoveReg where
  sig : Nat := 0
  index : Nat := 0
  source : Nat := 0
  dest : Nat := 0
  active : Bool := false
deriving DecidableEq, Repr

/-- The tables (R258 to R293). -/
structure Tbl where
  /-- Program steps, 16 bytes as a number, by bank * 2048 + program * 8 + step. -/
  programs : NMap Nat := []
  /-- Vport, tunnel endpoint, VSI and ACL entries and action lists, by index; an unlisted one is all zero. -/
  vports : NMap Bytes := []
  tunnels : NMap Bytes := []
  vsis : NMap Bytes := []
  acl : NMap Bytes := []
  actions : NMap Bytes := []
  /-- Flow entries, 128 bytes each, by index. -/
  flows : NMap Bytes := []
  /-- LPM routes, 32 bytes each, by a number of the model's own; its slot carries GEN (R277). -/
  routes : NMap Bytes := []
  /-- Buckets by bank * 262144 + bucket: 8 ways in the flow banks 0 to 15, 4 in the LPM banks, which stand as 16 to 23. -/
  buckets : NMap (List (Option Slot8)) := []
  /-- Stashes by bank. -/
  stash : NMap (List Slot8) := []
  /-- A path of moves still to be carried out, per bank: (from bucket, index moved, to bucket), last move first (R272). -/
  moves : NMap (List (Nat × Nat × Nat)) := []
  placing : NMap Placing := []
  moveSeq : NMap Nat := []
  /-- Move-in-progress registers by bank (R273). -/
  moveReg : NMap MoveReg := []
  /-- Set bits of the length filter, and of the second copy during a rebuild (R278). -/
  filter : NMap Bool := []
  filter2 : NMap Bool := []
  rebuilding : Bool := false
  deletes : Nat := 0
  /-- Counters: frames, bytes (R280). -/
  counters : NMap (Nat × Nat) := []
  locks : NMap FlowLock := []
  learnQ : List Learn := []
  /-- Cairn clock, ns, at which the sweeper's next visit is due, per flow index (R284). -/
  visits : NMap Nat := []
deriving DecidableEq, Repr

/-- What TM keeps for one scheduler node beside its registers (R300, R301, R304). -/
structure NodeSt where
  /-- Tokens in units of 10^-6 bit. -/
  tokens : Int := 0
  /-- The bucket has been filled since the node became VALID. -/
  filled : Bool := false
  /-- Cairn clock, ns, to which credit has been applied. -/
  creditAt : Nat := 0
  /-- DRR deficit D, bytes. -/
  deficit : Nat := 0
  /-- As a parent: the child under visit, and whether its visit has begun. -/
  cur : Nat := 0
  visiting : Bool := false
  /-- Queues: the copies held, oldest first. -/
  copies : List Copy := []
deriving DecidableEq, Repr

/-- A meter record (R305): its configuration bytes, and its tokens in units of 10^-6 bit. -/
structure Meter where
  /-- Record bytes 0 to 31 as a number; TC and TE_TP as written are replaced by the buckets. -/
  rec_ : Nat := 0
  tc : Nat := 0
  te : Nat := 0
  /-- Cairn clock, ns, to which credit has been applied. -/
  creditAt : Nat := 0
deriving DecidableEq, Repr

/-- The traffic manager (R294 to R320). -/
structure Tm where
  freeOchre : Nat := 0x40000
  freeUmber : Nat := 0x1000000
  freeSienna : Nat := 0x200000
  /-- POOL_LOW has been raised and the count has not yet risen to twice the threshold, per pool (R320). -/
  lowRaised : List Bool := [false, false, false]
  /-- Frames in cells, by their number in ingress order. -/
  frames : NMap Frame := []
  nextFrame : Nat := 0
  /-- Scheduler nodes by level * 65536 + index. -/
  nodes : NMap NodeSt := []
  /-- Frames that entered in each of the last 1 µs windows: (window on the Cairn clock, count), the latest first, at most 16 (R78). -/
  arrivals : List (Nat × Nat) := []
  /-- The egress queue whose depth holds the injection path (R299). -/
  injectHeld : Option Nat := none
  meters : NMap Meter := []
deriving DecidableEq, Repr

end Sys2Proof.Machine
end

