-- ==== Sys2Proof/Machine/StateQm.lean ====
section
/-!
DEFINITION. The state of the queue manager: queues, fetched work, completions, event sources and moderation
(rings_and_doorbells).
-/
namespace Sys2Proof.Machine

/-- STATE of QM_Q_STATE (R177). -/
inductive QState where
  | disabled | active | blocked | quiesced | error
deriving DecidableEq, Repr

/-- Its encoding (R177). -/
def QState.code : QState → Nat
  | .disabled => 0 | .active => 1 | .blocked => 2 | .quiesced => 3 | .error => 4

/-- The three kinds of queue (R156). -/
inductive QKind where
  | sq | cq | eq
deriving DecidableEq, Repr

/-- How an entry finished: status of R170, time and bound, and bytes 19 to 31 of its completion (R168). -/
structure Done where
  status : Nat
  ts : Nat
  bound : Nat
  extra : Nat := 0
  /-- Cairn clock, ns, at which it finished. -/
  order : Nat := 0
deriving DecidableEq, Repr

/-- One read of host memory that an entry needs. -/
structure WorkRead where
  addr : Nat
  len : Nat
  /-- How it ended; none while it waits or is outstanding. -/
  got : Option HostRead := none
deriving DecidableEq, Repr

/-- A fetched submission entry (R164, R169). -/
structure Work where
  /-- Its counter value. -/
  ctr : BitVec 16
  entry : BitVec 512
  /-- CLASS of its queue at the fetch (R165). -/
  cls : Nat := 0
  /-- Its operation has begun. -/
  started : Bool := false
  /-- It has made a remote request or a host write (R192). -/
  touched : Bool := false
  /-- Parked by a freeze (R192). -/
  parked : Bool := false
  /-- Reads of host memory it needs, in order. -/
  reads : List WorkRead := []
  /-- The frame, job or tracker entry that carries it out. -/
  ref : Option Nat := none
  /-- RECEIVE: bytes of data written to the buffer. -/
  filled : Nat := 0
  /-- The pages whose translations granted no access, and for which no Page Request has been sent yet (R144). -/
  noAccess : List Nat := []
  done : Option Done := none
  /-- Its number in the order of arrival, and its in-flight tracker entry (R354). -/
  arrived : Nat := 0
  trk : Option Nat := none
deriving DecidableEq, Repr

/-- A completion entry (R168). -/
structure Cqe where
  status : Nat
  batch : Bool
  tag : Nat
  sq : Nat
  covered : Nat
  ts : Nat
  bound : Nat
  extra : Nat := 0
deriving DecidableEq, Repr

/-- One queue (R158, R171, R176 to R180). -/
structure Queue where
  st : QState := .disabled
  /-- Producer counter P (R158). -/
  p : BitVec 16 := 0
  /-- Consumer counter C (R158). -/
  c : BitVec 16 := 0
  /-- COUNTER as the doorbell reads it: the last value accepted (R161). -/
  counter : BitVec 16 := 0
  /-- ARM (R161, R176). -/
  armed : Bool := false
  /-- Settings in force, taken at CREATE or RESTART (R177). -/
  base : Nat := 0
  cfg : Word := 0
  pasid : Word := 0
  /-- CQ and EQ: QM_CQ_MODERATION as the last entry took it (R177). -/
  moder : Word := 0
  /-- DESTROY is under way (R179). -/
  destroying : Bool := false
  /-- SQ: fetched entries that no completion has covered, in order. -/
  work : List Work := []
  /-- SQ: the entry at C mismatched its phase at this Cairn time (R139). -/
  staleAt : Option Nat := none
  /-- SQ: fetching waits for an egress queue to empty (R299). -/
  heldBy : Option Nat := none
  /-- CQ: the overflow of R171. -/
  overflow : List Cqe := []
  /-- CQ: completions that wait in the units that did the work (R171). -/
  waiting : List Cqe := []
  /-- Unsignalled entries, and the Cairn time of the oldest (R176). -/
  unsignalled : Nat := 0
  oldest : Nat := 0
deriving DecidableEq, Repr

/-- One event source that is pending (R173, R174). -/
structure EvSrc where
  block : Nat
  code : Nat
  detail : Nat
  /-- The function whose EQ it is for. -/
  fn : Fn
  /-- The EQ, by its number in the function; none while the function has no suitable EQ (R175). -/
  eq : Option Nat
  /-- The EQ counter of its written entry. -/
  written : Option (BitVec 16) := none
  /-- Occurrences the entry covers. -/
  count : Nat := 1
  ts : Nat
  bound : Nat
  /-- Occurrences counted after the entry was written, with the stamp of the first. -/
  more : Nat := 0
  moreTs : Nat := 0
  moreBound : Nat := 0
deriving DecidableEq, Repr

/-- The queue manager (R156 to R182). -/
structure Qm where
  /-- Queues, by function code * 2^20 + queue number. -/
  queues : NMap Queue := []
  /-- Pending event sources, in the order of their first occurrence (R174). -/
  events : List EvSrc := []
  /-- The queue whose DESTROY was a function's last QM_Q_CTRL write, while RESULT shows PENDING (R177, R179). -/
  lastDestroy : NMap Nat := []
deriving DecidableEq, Repr

end Sys2Proof.Machine
end

