-- ==== Sys2Proof/Machine/StateSto.lean ====
section
/-!
DEFINITION. The state of STO: emulated controllers, namespaces, connection contexts, work in flight (storage_and_rdma), and of the DMA
mover (dma_mover).
-/
namespace Sys2Proof.Machine

/-- An NVMe submission queue of a controller (R345, R347, R367). -/
structure NSq where
  base : Nat
  /-- Entries. -/
  size : Nat
  cq : Nat
  head : Nat := 0
  tail : Nat := 0
deriving DecidableEq, Repr

/-- An NVMe completion queue of a controller (R345, R347, R367). -/
structure NCq where
  base : Nat
  size : Nat
  vector : Nat := 0
  ien : Bool := true
  head : Nat := 0
  tail : Nat := 0
  /-- Phase tag of the next entry. -/
  phase : Bool := true
  /-- Completions that wait for room, oldest first. -/
  waiting : List (List Nat) := []
deriving DecidableEq, Repr

/-- Where a fetched NVMe command stands (R350, R351, R353, R363). -/
inductive NSt where
  /-- Fetched; nothing of it has been carried out. -/
  | fetched
  /-- It waits to be sent, in order, on its path. -/
  | ready
  /-- Sent on a connection; its response has not arrived. -/
  | sent
  /-- Held while its connection recovers. -/
  | held
deriving DecidableEq, Repr

/-- A fetched NVMe command (R350 to R353). -/
structure NCmd where
  sq : Nat
  entry : BitVec 512
  /-- Its place in the order of arrival. -/
  no : Nat
  st : NSt := .fetched
  /-- Its tracker entry (R354). -/
  trk : Option Nat := none
  ctx : Nat := 0xFFFF
  wireId : Nat := 0
  /-- Cairn clock, ns, at which it was sent (R356). -/
  sentAt : Nat := 0
  /-- Host pages or blocks of its data: address and length, in order. -/
  buf : List (Nat × Nat) := []
  /-- Ranges of a Deallocate. -/
  ranges : Bytes := []
  /-- The map entry of its namespace as it was fetched, empty for none (R348). -/
  ns : Bytes := []
  /-- In-capsule data of a Write (R359). -/
  capsule : Bytes := []
  /-- Its place in the order of first sending, 0 before it (R363). -/
  sentNo : Nat := 0
  /-- Times a data digest failed, and whether it is to be re-sent when its response arrives (R360). -/
  digestFails : Nat := 0
  resend : Bool := false
  /-- A host data access of it failed (R353). -/
  dataError : Bool := false
  /-- Its controller was reset or its SQ deleted: its data and response are discarded (R346, R353). -/
  discard : Bool := false
deriving DecidableEq, Repr

/-- An emulated controller (R344 to R347, R353, R367). -/
structure Nvme where
  cc : Nat := 0
  aqa : Nat := 0
  asq : Nat := 0
  acq : Nat := 0
  rdy : Bool := false
  /-- Bus Master Enable of the function was cleared since the controller was enabled (R140). -/
  quiesced : Bool := false
  /-- CSTS.SHST. -/
  shst : Nat := 0
  /-- Cairn clock, ns, at which a shutdown under way began (R346). -/
  shutAt : Option Nat := none
  sqs : NMap NSq := []
  cqs : NMap NCq := []
  /-- Feature values that differ from zero, by feature (R347). -/
  features : NMap Nat := []
  /-- CIDs of outstanding Asynchronous Event Requests, oldest first; events that wait for one: Dword 0 of their completions. -/
  aers : List Nat := []
  events : List Nat := []
  /-- Changed Namespace List (R348). -/
  changed : List Nat := []
  /-- SMART/Health counts: data units read and written in bytes, host read and write commands (R347). -/
  readBytes : Nat := 0
  wroteBytes : Nat := 0
  readCmds : Nat := 0
  writeCmds : Nat := 0
  /-- Error Information entries, the latest first, 64 bytes each (R347). -/
  errors : List Bytes := []
  errorCount : Nat := 0
  cmds : List NCmd := []
deriving DecidableEq, Repr

/-- STATE of a connection context (R357). -/
inductive CxSt where
  | disabled | established | recovering | failed
deriving DecidableEq, Repr

/-- Its code (R357). -/
def CxSt.code : CxSt → Nat
  | .disabled => 0 | .established => 1 | .recovering => 2 | .failed => 3

/-- A connection context (R357, R358, R361). -/
structure Conn where
  /-- Bytes 0 to 127 as written, SEQ_TX and SEQ_RX brought up to date. -/
  data : Bytes := List.replicate 128 0
  st : CxSt := .disabled
  /-- Cairn clock, ns, at which it began to recover. -/
  downAt : Nat := 0
  /-- Retries of what is outstanding, without an acknowledgement (R360). -/
  retries : Nat := 0
  /-- The next wire command identifier. -/
  nextWire : Nat := 0
  /-- Rate in force, Mb/s; 0 for no ceiling (R361). -/
  rate : Nat := 0
  /-- Cairn clock, ns, of the last change of the rate (R361). -/
  rateAt : Nat := 0
  /-- Cairn clock, ns, of the last CNP sent. -/
  cnpAt : Option Nat := none
deriving DecidableEq, Repr

/-- A STORAGE-class operation that has been dispatched (R362, R363, R366). -/
structure StoOp where
  fn : Fn
  sq : Nat
  ctr : BitVec 16
  trk : Nat
  ctx : Nat
  op : Nat
  no : Nat
  sent : Bool := false
  sentAt : Nat := 0
  wireId : Nat := 0
  buf : Nat := 0
  len : Nat := 0
  /-- The generation of its rkey (R362). -/
  gen : Nat := 0
  /-- Its place in the order of first sending, 0 before it; times a data digest failed, and whether it is to be re-sent (R360, R363). -/
  sentNo : Nat := 0
  digestFails : Nat := 0
  resend : Bool := false
deriving DecidableEq, Repr

/-- STO (R344 to R369). -/
structure Sto where
  /-- Controllers by function code. -/
  ctrls : NMap Nvme := []
  /-- Namespace map entries of 32 bytes, by index; an unlisted one is zero. -/
  ns : NMap Bytes := []
  conns : NMap Conn := []
  ops : List StoOp := []
  /-- The number of the next arrival, for the order of R350, R354 and R363. -/
  arrivals : Nat := 0
  /-- The number of the next first sending (R363). -/
  sends : Nat := 1
  /-- The function served last by the tracker's round robin (R354). -/
  lastFn : Nat := 0
  /-- Generations of rkeys by tracker index (R362). -/
  gens : NMap Nat := []
  /-- TRACKER_HIGH has been raised and the count has not been below the level since. -/
  highRaised : Bool := false
deriving DecidableEq, Repr

/-- STATE of a mover channel that is enabled (R384). -/
inductive MvSt where
  | idle | running | preempted | halted
deriving DecidableEq, Repr

/-- A mover job that has reached its channel (R371, R375). -/
structure Job where
  fn : Fn
  /-- Its SQ and counter; none for a register-started job. -/
  work : Option (Nat × BitVec 16) := none
  entry : BitVec 512
  /-- Tracker entry of a register-started job, and its place among the requests for one (R354, R371). -/
  trk : Option Nat := none
  arrived : Nat := 0
  pasid : Option Nat := none
  /-- The source and index table as they were read when the job began. -/
  src : Option Bytes := none
  idx : Bytes := []
  /-- Bytes or elements written so far. -/
  pos : Nat := 0
  /-- Status it ended with, while its completion waits for the flush. -/
  status : Nat := 0
deriving DecidableEq, Repr

/-- A mover channel (R370 to R373, R380, R384). -/
structure MvChan where
  st : MvSt := .idle
  /-- Jobs in order; the first is the current one. -/
  jobs : List Job := []
  /-- Jobs whose writes have all been issued, and which wait for their completion (R378, R379). -/
  flushing : List Job := []
  /-- Number of its last start of waiting, and of its current run (R372). -/
  waitNo : Nat := 0
  runNo : Nat := 0
  /-- The mover, by its physical number, on which the channel runs (R370, R440). -/
  mover : Nat := 0
  /-- When the latch was taken (R381). -/
  haltAt : Option Nat := none
  /-- The latch (R380): CAUSE, DIR, FLUSH, SPACE and the address. -/
  cause : Nat := 0
  dirWrite : Bool := false
  flushErr : Bool := false
  device : Bool := false
  failAddr : Nat := 0
  /-- STATUS of the last register-started job. -/
  jobStatus : Option Nat := none
deriving DecidableEq, Repr

/-- The DMA mover (R370 to R386). -/
structure Dmv where
  chans : NMap MvChan := []
  next : Nat := 1
  /-- The channel last named in VF_DMV_CTRL, by function (R385). -/
  vfChan : NMap Nat := []
deriving DecidableEq, Repr

end Sys2Proof.Machine
end

