-- ==== Sys2Proof/Machine/StateSvc.lean ====
section
/-!
DEFINITION. The state of the service array (service_cores: threads, channels, frame handles, domains, mailboxes) and of the Akzal
cascade (akzal_cascade: link, membership, time and images along the chain).
-/
namespace Sys2Proof.Machine

/-- States of a thread (R389, R393, R394). -/
inductive ThSt where
  | free | running | waiting | zombie
deriving DecidableEq, Repr

/-- What a WAITING thread waits in (R394). -/
inductive Wait where
  | recv (ch : Nat)
  | send (ch : Nat)
  | join (child : Nat)
  | until
  | halloc (len : Nat)
deriving DecidableEq, Repr

/-- One thread: a RISC-V hart with the state of the thread extension (R388, R392 to R395). -/
structure Thread where
  st : ThSt := .free
  pc : Nat := 0
  /-- x1 to x31, 64 bits; x0 is never stored. -/
  x : NMap Nat := []
  /-- M mode; otherwise U mode. -/
  mmode : Bool := true
  /-- CSRs that differ from zero, by number. -/
  csr : NMap Nat := []
  /-- TDOMAIN. -/
  domain : Nat := 0
  parent : Option Nat := none
  /-- Words in staging, first first (R398). -/
  staging : List Nat := []
  /-- The receive buffer (R394). -/
  rx : List Nat := []
  wait : Option Wait := none
  /-- The deadline of the wait, TAI ns. -/
  deadline : Option Nat := none
  /-- Its place among waiters: the number of the wait (R399). -/
  waitNo : Nat := 0
  /-- What the wait writes when it ends: rd, and the word a CSEND appends. -/
  waitRd : Nat := 0
  waitVal : Nat := 0
  exit : Nat := 0
  halted : Bool := false
  /-- LR reservation: the address of the reserved set. -/
  reserved : Option Nat := none
deriving DecidableEq, Repr

/-- A message in a channel (R397, R400). -/
structure ChMsg where
  words : List Nat
  /-- SOURCE: 0 thread, 1 datapath, 2 device. -/
  source : Nat := 2
  /-- The sending thread, its domain and that domain's EPOCH at the commit. -/
  sender : Nat := 0
  domain : Nat := 0
  epoch : Nat := 0
deriving DecidableEq, Repr

/-- A configured channel (R396, R397). -/
structure Channel where
  /-- SVC_CH_CFG. -/
  cfg : Word := 0
  msgs : List ChMsg := []
deriving DecidableEq, Repr

/-- Who holds a frame handle (R401). -/
inductive HOwner where
  | channel (c : Nat)
  | domain (d : Nat)
  /-- Passed to the datapath or to MGT by an accepted message. -/
  | device
deriving DecidableEq, Repr

/-- A frame handle in use (R401). -/
structure Handle where
  owner : HOwner
  /-- The header vector as the parse left it. -/
  hv : Bytes := []
  /-- The context block as TBL left it. -/
  ctx : Bytes := []
  bytes : Bytes
  /-- Delivered as a copy of this frame, whose cells it shares (R295). -/
  share : Option Nat := none
  ochre : Nat := 0
  umber : Nat := 0
  sienna : Nat := 0
  /-- The logical port and priority of the frame, for which its cells count (R212). -/
  port : Option (Nat × Nat) := none
deriving DecidableEq, Repr

/-- A domain of threads (R406, R407). -/
structure Domain where
  epoch : Nat := 0
  /-- STALLED: STALL has been raised, and no thread of the domain has left its wait since. -/
  stalled : Bool := false
  /-- Interrupt 16 is pending for its supervisor (R395, R406). -/
  irq : Bool := false
deriving DecidableEq, Repr

/-- A function's mailbox (R408). -/
structure Mbx where
  h2fFull : Bool := false
  f2hFull : Bool := false
  f2h : Bytes := []
deriving DecidableEq, Repr

/-- An answer owed for an injection or an MGT transmission, held by the handle while the device has it (R402, R403). -/
structure Owed where
  /-- TYPE of the message that answers: 0x11 or 0x13. -/
  kind : Nat
  reply : Nat
  tag : Nat
  domain : Nat
  epoch : Nat
deriving DecidableEq, Repr

/-- The service array (R387 to R411). -/
structure Svc where
  threads : NMap Thread := []
  /-- Contexts of a logical core that does not hold just its own sixteen, in the order of their slots; the first sixteen run (R391). -/
  hosts : NMap (List Nat) := []
  /-- The physical core that a logical core runs on, where it is not the one of its own number (R387, R391). -/
  phys : NMap Nat := []
  /-- The slot that each core issued from last (R389). -/
  last : NMap Nat := []
  waitNext : Nat := 0
  channels : NMap Channel := []
  handles : NMap Handle := []
  domains : NMap Domain := []
  mbx : NMap Mbx := []
  /-- Messages of the device that wait for room in a channel, oldest first. -/
  deferred : List (Nat × ChMsg) := []
  /-- Answers owed, by handle. -/
  owed : NMap Owed := []
deriving DecidableEq, Repr

/-- A copy or transit frame in a class queue of an Akzal port, or a control frame (R413, R421). -/
structure AkzItem where
  header : Bytes
  body : Bytes
  /-- The frame whose copy it is; none for a transit or control frame. -/
  copy : Option Nat := none
  /-- A transit frame: the port, class and cells of the credit that its end returns (R414). -/
  back : Option (Nat × Nat × Nat) := none
  /-- Cells the transit frame holds. -/
  ochre : Nat := 0
  umber : Nat := 0
  sienna : Nat := 0
deriving DecidableEq, Repr

/-- An unacknowledged link frame (R413). -/
structure LinkFrame where
  seq : Nat
  item : AkzItem
deriving DecidableEq, Repr

/-- One Akzal port (R412 to R416, R421, R423). -/
structure AkzPort where
  up : Bool := false
  /-- It trains while enabled and the clock runs (R412). -/
  training : Bool := false
  /-- The next LINK_SEQ to send, and the unacknowledged frames, oldest first. -/
  sendSeq : Nat := 0
  replay : List LinkFrame := []
  /-- Replays of the oldest unacknowledged frame. -/
  replayed : Nat := 0
  /-- The next LINK_SEQ expected. -/
  expect : Nat := 0
  /-- Credit held per class, cells (R414). -/
  credit : List Nat := List.replicate 8 0
  queues : List (List AkzItem) := List.replicate 8 []
  /-- The neighbour: joined, its number and serial (R415, R416). -/
  nbJoined : Bool := false
  nbMember : Nat := 0
  nbSerial : Nat := 0
  /-- REACH received, and the lowest serial with HEAD set that is known through this port (R415). -/
  reach : Nat := 0
  headSerial : Option Nat := none
  /-- LIFECYCLE frames that wait for room in the replay buffer, the oldest first (R413, R414). -/
  ctl : List AkzItem := []
  /-- An image on its way to the neighbour, and how much of it has been sent (R425, R426). -/
  imgOut : Bytes := []
  imgOff : Nat := 0
  /-- Cairn clock, ns, of the last HELLO. -/
  helloAt : Nat := 0
  /-- TIME: the next SEQ, and (SEQ, transmit timestamp in 2^-16 ns, Cairn clock) of frames sent, the latest first. -/
  timeSeq : Nat := 0
  timeSent : List (Nat × Nat × Nat) := []
  /-- SEQ of the last TIME frame received and its receive timestamp in 2^-16 ns. -/
  timeRx : Option (Nat × Nat) := none
deriving DecidableEq, Repr

/-- The cascade (R412 to R428). -/
structure Akz where
  /-- Data frames for this member that a Col pause holds: port, header and body, the oldest first (R103). -/
  heldRx : List (Nat × Bytes × Bytes) := []
  /-- UP, then DOWN. -/
  ports : List AkzPort := [{}, {}]
  joined : Bool := false
  member : Nat := 0
  /-- MEMBERS, kept in Cairn state (R415). -/
  members : Nat := 0
  /-- Members reachable when last judged (R416). -/
  reachable : Nat := 0
  /-- MASTER_OK of the members, as their HELLOs told it. -/
  masterOk : Nat := 0
  master : Option Nat := none
  whole : Bool := false
  /-- TOO_MANY_MEMBERS has been raised for this attempt to join. -/
  tooMany : Bool := false
  /-- Serials by member number (R427). -/
  serials : NMap Nat := []
  /-- The image that comes down the chain (R426): total length, its SHA-384 and the bytes received. -/
  imgLen : Nat := 0
  imgHash : Bytes := []
  imgGot : Bytes := []
  /-- The master awaits results for an image it has passed down (R426). -/
  passing : Bool := false
deriving DecidableEq, Repr

end Sys2Proof.Machine
end

