-- ==== Sys2Proof/Machine/StateTim.lean ====
section
/-!
DEFINITION. The state of the time unit (time_and_traceability): the clock, the servo, the reference slots, the bound,
leap seconds, timing pins, time pages and the trace.
-/
namespace Sys2Proof.Machine

/-- Servo states of R43, in the encoding of TIM_STATUS. -/
inductive Servo where
  | freerun | acquiring | locked | holdover
deriving DecidableEq, Repr

/-- STATE of TIM_STATUS (R65). -/
def Servo.code : Servo → Nat
  | .freerun => 0 | .acquiring => 1 | .locked => 2 | .holdover => 3

/-- STATE of TIM_REF_STATE (R65). -/
inductive RefSt where
  | disabled | qualifying | qualified | lost
deriving DecidableEq, Repr

/-- Its encoding (R65). -/
def RefSt.code : RefSt → Nat
  | .disabled => 0 | .qualifying => 1 | .qualified => 2 | .lost => 3

/-- A leap as its source announces it (R51). -/
inductive Announce where
  | none
  /-- leap61 (or LEAP61) with insert, leap59 (or LEAP59) without: on the last day of the current UTC month. -/
  | month (insert : Bool)
  /-- LEAP_AT and LEAP_OFFSET of an Akzal neighbour. -/
  | at_ (t : Nat) (offset : Int)
deriving DecidableEq, Repr

/-- One reference slot (R30, R38, R39). Offsets are in units of 2^-16 ns. -/
structure RefSlot where
  st : RefSt := .disabled
  inconsistent : Bool := false
  /-- Consecutive missed intervals (R38). -/
  missRun : Nat := 0
  /-- Cairn clock, ns, at which the slot last began to qualify. -/
  qualAt : Nat := 0
  /-- Cairn clock, 2^-16 ns, from which the next expected interval runs. -/
  expectAt : Nat := 0
  /-- Expected interval, 2^-16 ns (R38). -/
  interval : Nat := 1000000000 * 0x10000
  /-- θ of the last accepted measurement. -/
  lastTheta : Int := 0
  /-- |θ| of the last accepted measurements, 64 at most, the latest first: B_RES takes RES_WINDOW of them (R45, R65). -/
  window : List Nat := []
  /-- Latest mean path delay (B_ASYM of a PTP slot). -/
  mpd : Nat := 0
  /-- Cairn clock, ns, of the last accepted measurement. -/
  lastAccepted : Nat := 0
  /-- The neighbour's bound at the measurement, in bound units (Akzal slots). -/
  neighbour : Nat := 0
  /-- SOURCE_ID, HOPS and UPSTREAM_SEQ of the trace (R62). -/
  sourceId : Nat := 0
  hops : Nat := 0
  upstreamSeq : Nat := 0
  /-- currentUtcOffset of the slot, while its currentUtcOffsetValid is set; UTC_OFFSET of the neighbour (R50). -/
  utc : Option Int := none
  /-- The leap that the slot announces (R51). -/
  announce : Announce := .none
  /-- PATH of the last measurement of an Akzal slot (R423). -/
  path : Nat := 0
deriving DecidableEq, Repr

/-- What announced a pending leap (R51). -/
inductive LeapSrc where
  | utcRegister
  | slot (id : Nat)
deriving DecidableEq, Repr

/-- A pending leap second (R51). -/
structure Leap where
  at_ : Nat
  offset : Int
  src : LeapSrc
deriving DecidableEq, Repr

/-- Which model the bound follows (R40, R45, R46, R478). -/
inductive BoundModel where
  /-- FREERUN: UNKNOWN. -/
  | unknown
  /-- The sum of R45 for the selected slot. -/
  | terms
  /-- After a switch: a base plus B_DRIFT (R40). -/
  | base
  /-- R46. -/
  | holdover
deriving DecidableEq, Repr

/-- One function's time page (R55 to R58). -/
structure PageSt where
  /-- The last even SEQ written. -/
  seq : Nat := 0
  /-- Cairn clock, ns, of the last write. -/
  lastWrite : Nat := 0
  /-- An update is forced (R56). -/
  forced : Bool := false
  /-- A step has happened since the previous update. -/
  stepped : Bool := false
  /-- ANCHOR_TIME of the last page written (R57). -/
  anchor : Nat := 0
  /-- BOUND_AT_ANCHOR and BOUND_RATE of the last page written (R58); none: no page yet, or the bound was UNKNOWN. -/
  line : Option (Nat × Nat) := none
deriving DecidableEq, Repr

/-- One PPS output pin (R59). -/
structure PpsOut where
  high : Bool := false
  /-- Cairn clock, ns, at which the high time ends. -/
  fallAt : Nat := 0
  /-- Device time, ns, up to which boundaries have been judged. -/
  judged : Nat := 0
  /-- Cairn clock, ns, at which the ZDA sentence of the last second pulse falls due (R61). -/
  sentenceAt : Option Nat := none
  /-- The TAI second that pulse started. -/
  second : Nat := 0
deriving DecidableEq, Repr

/-- One PPS input pin (R34 to R36). -/
structure PpsIn where
  /-- TAI second of the last window in which an edge was used. -/
  usedSecond : Option Nat := none
  /-- The last used edge: device time in units of 2^-16 ns, and Cairn clock. -/
  edge : Nat := 0
  edgeAt : Option Nat := none
  /-- Cairn clock, ns, of the last change of the pin's level. -/
  changedAt : Option Nat := none
  /-- The TAI second of the previous label. -/
  lastLabel : Option Nat := none
  /-- A LABEL 1 sentence that waits for the following pulse: its UTC second, and the Cairn clock at its last character. -/
  nextLabel : Option (Nat × Nat) := none
deriving DecidableEq, Repr

/-- The time unit (R26 to R66, R477, R478). -/
structure Tim where
  /-- The 96-bit time, in units of 2^-48 ns since the PTP epoch (R26, R27, R29). -/
  t48 : Nat := 0
  /-- The increment per tick, units of 2^-48 ns (R29). -/
  increment : Nat := 2 ^ 48
  servo : Servo := .freerun
  /-- Time has been discarded and has not started again (R29). -/
  lost : Bool := false
  /-- A PRIORITY was written: selection is judged again at the next measurement or bound computation (R40, R65). -/
  reselectDue : Bool := false
  /-- The selected slot (R40). -/
  selected : Option Nat := none
  /-- REF_ID: selected or last selected reference (R65). -/
  refId : Nat := 0
  /-- Slots 1 to 0x14 (R30). -/
  slots : NMap RefSlot := []
  /-- integ of the servo, units of 2^-16 ns (R41). -/
  integ : Int := 0
  /-- Consecutive measurements within LOCK_THRESH (R43). -/
  lockRun : Nat := 0
  /-- Cairn clock, ns, at which LOCKED was entered. -/
  lockedAt : Nat := 0
  /-- Increments in force during lock: (Cairn clock at which it took effect, increment), the latest first (R52). -/
  history : List (Nat × Nat) := []
  oscFault : Bool := false
  /-- TOSC_IN runs within 200 ppm (R53). -/
  tosc : Bool := true
  holdShort : Bool := false
  model : BoundModel := .unknown
  /-- B_entry of R46, or the base of R40, in bound units of 5 * 10^-16 ns. -/
  bBase : Nat := 0
  /-- Growth since, in bound units. -/
  bGrow : Nat := 0
  /-- Cairn clock, ns, to which bGrow has been taken. -/
  bGrowAt : Nat := 0
  /-- Cairn clock, ns, of the entry to HOLDOVER. -/
  holdAt : Nat := 0
  /-- The bound in force, bound units; none is UNKNOWN (R44, R47). -/
  bound : Option Nat := none
  /-- The bound that was in force before the last change, for a timestamp of the same tick (R47). -/
  boundBefore : Option Nat := none
  boundChangedAt : Nat := 0
  /-- B_REF, B_ASYM, B_MEAS and B_RES as the value in force holds them, in bound units (R45, R62). -/
  terms : List Nat := []
  /-- REACQUIRE was written and no measurement of a selected slot has been accepted since (R478). -/
  reacquired : Bool := false
  /-- UTC_OFFSET and UTC_VALID (R50). -/
  utcOffset : Int := 0
  utcValid : Bool := false
  leap : Option Leap := none
  /-- Steps since time was last lost (R57). -/
  stepCount : Nat := 0
  pages : NMap PageSt := []
  ppsOut : List PpsOut := [{}, {}]
  ppsIn : List PpsIn := [{}, {}]
  /-- Trace records held, by SEQ (R62, R64). -/
  trace : NMap Bytes := []
  /-- SEQ of the next record. -/
  traceNext : Nat := 0
  /-- Accepted measurements since the previous record, and records since the last SIGNATURE (R62). -/
  measCount : Nat := 0
  unsignedRecs : Nat := 0
  /-- Cairn clock, ns, of the last PERIODIC record. -/
  periodicAt : Nat := 0
  /-- A step has happened since the previous record (FLAGS bit 2 of R62). -/
  recStepped : Bool := false
deriving DecidableEq, Repr

end Sys2Proof.Machine
end

