-- ==== Sys2Proof/Machine/State.lean ====
section
/-!
DEFINITION. The state of the ZN3216: the queue of waiting commands, the registers, and one record per block.
-/
namespace Sys2Proof.Machine

/-- How a request of the device leaves (R137, R143, R150, R152): Relaxed Ordering, a translated address, the IDE stream that carries it, counted as
in `Hif.ide`, with PCRC, and the T bit. -/
structure Tlp where
  ro : Bool := false
  translated : Bool := false
  stream : Option Nat := none
  pcrc : Bool := false
  tee : Bool := false
deriving DecidableEq, Repr

/-- The level of a pin: driven low, driven high, or not driven (R59, R92). -/
inductive Level where
  | low | high | z
deriving DecidableEq, Repr

/-- The digital outputs of R92. -/
inductive OutPin where
  | faultN | wakeN
  | ppsOut (n : Nat)
  | freqOut | todTx
  | led (n : Nat)
  | smbScl | smbSda | smbAlertN | i3cScl | i3cSda | jtagTdo
  | xspiCsN | xspiSclk | xspiResetN
  | xspiDq (n : Nat)
  | xspiDqs | mgtTxCtl
  | mgtTxd (n : Nat)
  | mgtTxc | mgtMdc | mgtMdio
deriving DecidableEq, Repr

/-- What leaves the block: writes to host memory, messages, answers, frames, and the values that accesses return. -/
inductive Output where
  /-- A posted write to a function's DMA address space (R136, R137). -/
  | hostWrite (f : Fn) (pasid : Option Nat) (addr : Nat) (bytes : Bytes) (t : Tlp)
  /-- A write that sets bits of one byte of a dirty-page log and leaves the others (R190, R191). -/
  | setBits (f : Fn) (addr : Nat) (mask : Nat) (t : Tlp)
  /-- An MSI-X message of a vector (R176). -/
  | msix (f : Fn) (vector addr data : Nat) (t : Tlp)
  /-- A non-posted read issued with a tag (R131). -/
  | hostRead (f : Fn) (tag addr len : Nat) (t : Tlp)
  /-- The value a register access returned. -/
  | readData (p : Path) (off : Nat) (v : Word)
  /-- The value an aligned 8-byte read returned (R126, R161). -/
  | readWide (p : Path) (off : Nat) (v : BitVec 64)
  /-- A configuration completion; none is Request Retry Status (R100, R124). -/
  | configData (f : Fn) (off : Nat) (v : Option Word)
  /-- A request completed with Unsupported Request. -/
  | unsupported (f : Fn)
  /-- A DRS Message of a half's PF0, or an FRS Message with its reason (R100, R130, R141). -/
  | drs (f : Fn)
  | frs (f : Fn) (reason : Nat)
  /-- An Invalidation Completion or a Page Request (R143, R144). -/
  | atsDone (f : Fn)
  | pageRequest (f : Fn) (addr : Nat)
  /-- A PTM response with the device time (R54, R147). -/
  | ptm (half : Nat) (time : Nat)
  /-- A DOE data object or an SPDM answer: its code and body (R148, R149). -/
  | doe (half : Nat) (code : Nat) (body : Bytes)
  /-- A frame starts on a logical port; a pause frame is sent. -/
  | frameOut (lp : Nat) (ts : Nat) (bytes : Bytes)
  | pauseOut (lp : Nat) (source opcode enable : Nat) (quanta : List Nat)
  /-- MGT: a frame, an MDIO frame, an NC-SI answer. -/
  | mgtOut (bytes : Bytes)
  | mdioOut (v : Word) (data : Nat)
  | ncsi (channel code reason : Nat) (body : Bytes)
  /-- A level change of an output pin. -/
  | pin (p : OutPin) (level : Level)
  /-- Bits on TOD_TX at a baud rate, the first to leave first (R61). -/
  | serial (baud : Nat) (bits : List Bool)
  /-- An MCTP or PLDM answer (R89, R459). -/
  | mctp (code : Nat) (body : Bytes)
  /-- What the TAP shifts out (R89). -/
  | tap (data : Nat)
  /-- A frame or PDU to a remote storage or RDMA peer, by context (R351, R359, R365). -/
  | remote (ctx : Nat) (kind : Nat) (body : Bytes)
  /-- A link frame on an Akzal port: its type and contents (R413). -/
  | akz (port : Nat) (kind : Nat) (seq : Nat) (body : Bytes)
  /-- A write of the flash: its region and contents (R457, R463). -/
  | flash (region : Nat) (body : Bytes)
deriving DecidableEq, Repr

/-- The state of the machine. -/
structure State where
  /-- The commands that wait, first in, first out. -/
  pending : List Instr := []
  /-- The Cairn clock: nanosecond ticks since power came (R29). -/
  elapsed : Nat := 0
  /-- What has left the block, the latest first. -/
  out : List Output := []
  /-- Cairn clock, ns, of the last work of each unit of the fast domains, by `unitCode` (R78). -/
  lastWork : NMap Nat := []
  /-- The model's own counter of free values taken (assumption 1). -/
  free : Nat := 0
  /-- Stored register fields, by register, index and holder; an unlisted one holds its reset value (R7, R469). -/
  regs : NMap Word := []
  /-- Sticky occurrence counts of W1C bits, by their place in the region of R444, holder and half word. -/
  occ : NMap Nat := []
  /-- The shadows of R5: the captured high words, by path code * 2^26 + offset of the high word. -/
  shadow : NMap Word := []
  cai : Cai := {}
  hif : Hif := {}
  qm : Qm := {}
  mac : Mac := {}
  mgt : Mgt := {}
  prs : Prs := {}
  tbl : Tbl := {}
  tm : Tm := {}
  tim : Tim := {}
  cry : Cry := {}
  rel : Rel := {}
  lcs : Lcs := {}
  sto : Sto := {}
  dmv : Dmv := {}
  svc : Svc := {}
  akz : Akz := {}
  /-- Device memory that has been written, by raw device address (R374, R390); an unlisted byte reads zero. -/
  dev : NMap Byte := []
deriving DecidableEq, Repr

/-- Reasons for a fault. -/
inductive Fault where
  /-- Raised by no command: the block has no state in which it stops with an error of its own; a fatal machine check is a
  next state (R443). Safe. -/
  | none
deriving DecidableEq, Repr

/-- Reasons for a refusal. -/
inductive Refusal where
  /-- A command whose meaning is not modelled yet; raised by exec's arm for it. Safe: it proves nothing. -/
  | notModelled (mnemonic : String)
deriving DecidableEq, Repr

/-- The machine right after PORST_N has risen and the device has gone to STANDBY: every field at its reset value. Time has just started
with the bound UNKNOWN, so BOUND_ALARM is set, counted once, and its event is pending for PF0 and for firmware (R404, R477). -/
def State.reset : State :=
  { regs := [(regKey .TIM_STATUS 0 0, 2)], occ := [(occKey 0xD 0x104 1 0, 1)],
    qm := { events := [{ block := 0xD, code := 0x06, detail := 0, fn := .pf 0, eq := none, ts := 0, bound := 0xFFFF },
      { block := 0xD, code := 0x06, detail := 0, fn := .fw, eq := none, ts := 0, bound := 0xFFFF }] } }

/-- The three outcomes of a command. -/
abbrev Outcome := Host.Outcome State Fault Refusal

end Sys2Proof.Machine
end

