-- ==== Sys2Proof/Machine/Ops.lean ====
section
/-!
DEFINITION. The shared operations over the state: functions and halves, stored registers, occurrence counts, time stamps,
events, device memory and outputs.
-/
namespace Sys2Proof.Machine

/-! ### Functions and halves (R117, R155) -/

/-- A function's number, laid out as FUNCTION in the vport entry (R155, R267); firmware has a number above. -/
def fnCode : Fn → Nat
  | .pf i => at_ 12 i
  | .vf p n => 0x4000 + at_ 12 p + n
  | .fw => 0x8000

/-- The PF a function belongs to. -/
def fnPf : Fn → Nat
  | .pf i => i
  | .vf p _ => p
  | .fw => 4

/-- Is this function a VF? -/
def isVf : Fn → Bool
  | .vf _ _ => true
  | _ => false

/-- A path's number, as the holder of registers held once per path (R476). -/
def pathCode : Path → Nat
  | .fn f | .tee f _ => fnCode f
  | .firmware => 0x8000
  | .mgmt => 0x8001
  | .debug => 0x8002

/-- x8+x8 mode (R82): BIFURCATION is 1; 2 and 3 are treated as 0. -/
def bifurcated (s : State) : Bool := bits s.cai.straps.toNat 3 2 == 1

/-- The half of a PF (R117). -/
def pfHalf (s : State) (i : Nat) : Nat := if bifurcated s && decide (2 ≤ i) then 1 else 0

/-- The half of a function. -/
def fnHalf (s : State) (f : Fn) : Nat := pfHalf s (fnPf f)

/-- Is a half in use (R94)? -/
def halfInUse (s : State) (h : Nat) : Bool := h == 0 || (h == 1 && bifurcated s)

/-- PF0 of a half, by its device-wide index (R117). -/
def pf0Of (h : Nat) : Nat := if h = 0 then 0 else 2

/-- Is PF i the PF0 of a half in use (R117, R473)? -/
def isPf0 (s : State) (i : Nat) : Bool := i == 0 || (i == 2 && bifurcated s)

/-- The function number of a PF on its link (R117). -/
def pfFunction (s : State) (i : Nat) : Nat := if bifurcated s then i % 2 else i

/-- The settings of a PF (R117). -/
def pfSet (s : State) (i : Nat) : PfSettings := s.cai.settings.pfs.getD i {}

/-- Is a PF enabled (R117)? PF0 of each half in use always is. -/
def pfEnabled (s : State) (i : Nat) : Bool := decide (i < 4) && ((pfSet s i).enabled || isPf0 s i)

/-- The state of a half. -/
def halfSt (s : State) (h : Nat) : HalfSt := s.hif.halves.getD h {}

/-- s with half h changed by g. -/
def modHalf (h : Nat) (g : HalfSt → HalfSt) (s : State) : State :=
  { s with hif := { s.hif with halves := updAt h g s.hif.halves } }

/-- The record of a function. -/
def fnSt (s : State) (f : Fn) : FnSt := mget {} s.hif.fns (fnCode f)

/-- s with a function's record changed by g. -/
def modFn (f : Fn) (g : FnSt → FnSt) (s : State) : State :=
  { s with hif := { s.hif with fns := mmod {} s.hif.fns (fnCode f) g } }

/-- Does a function exist: an enabled PF, or a VF of one that VF Enable brought up (R117, R130)? -/
def fnExists (s : State) : Fn → Bool
  | .pf i => pfEnabled s i
  | .vf p n => pfEnabled s p && (fnSt s (.vf p n)).enabled
  | .fw => true

/-- A function's link is up. -/
def linkUp (s : State) (f : Fn) : Bool := f == .fw || (halfSt s (fnHalf s f)).up

/-- s with the CAI record changed by g. -/
def modCai (g : Cai → Cai) (s : State) : State := { s with cai := g s.cai }
/-- s with the TIM record changed by g. -/
def modTim (g : Tim → Tim) (s : State) : State := { s with tim := g s.tim }
/-- s with the HIF record changed by g. -/
def modHif (g : Hif → Hif) (s : State) : State := { s with hif := g s.hif }
/-- s with the QM record changed by g. -/
def modQm (g : Qm → Qm) (s : State) : State := { s with qm := g s.qm }
/-- s with the TBL record changed by g. -/
def modTbl (g : Tbl → Tbl) (s : State) : State := { s with tbl := g s.tbl }
/-- s with the TM record changed by g. -/
def modTm (g : Tm → Tm) (s : State) : State := { s with tm := g s.tm }
/-- s with the PRS record changed by g. -/
def modPrs (g : Prs → Prs) (s : State) : State := { s with prs := g s.prs }
/-- s with the MAC record changed by g. -/
def modMac (g : Mac → Mac) (s : State) : State := { s with mac := g s.mac }
/-- s with the MGT record changed by g. -/
def modMgt (g : Mgt → Mgt) (s : State) : State := { s with mgt := g s.mgt }

/-- s with the CRY record changed by g. -/
def modCry (g : Cry → Cry) (s : State) : State := { s with cry := g s.cry }
/-- s with the REL record changed by g. -/
def modRel (g : Rel → Rel) (s : State) : State := { s with rel := g s.rel }
/-- s with the LCS record changed by g. -/
def modLcs (g : Lcs → Lcs) (s : State) : State := { s with lcs := g s.lcs }

/-- s with the STO record changed by g. -/
def modSto (g : Sto → Sto) (s : State) : State := { s with sto := g s.sto }
/-- s with the DMV record changed by g. -/
def modDmv (g : Dmv → Dmv) (s : State) : State := { s with dmv := g s.dmv }
/-- s with the SVC record changed by g. -/
def modSvc (g : Svc → Svc) (s : State) : State := { s with svc := g s.svc }
/-- s with the AKZ record changed by g. -/
def modAkz (g : Akz → Akz) (s : State) : State := { s with akz := g s.akz }

/-- Something leaves the block. -/
def emit (o : Output) (s : State) : State := { s with out := o :: s.out }

/-- A free value, and the state that has taken it (assumption 1). -/
def takeFree (s : State) : Nat × State := (Config.freeValue s.free, { s with free := s.free + 1 })

/-- Fold a list of operations over the state, in order. -/
def foldS {α : Type} (f : α → State → State) : List α → State → State
  | [], s => s
  | a :: t, s => foldS f t (f a s)

/-! ### Stored registers (R7, R469) -/

/-- The reset value of instance i of a register: its table's, but for the reference slots whose class gives it (R65) and Scree's defaults of
each kind (R435). -/
def resetAt (r : Reg) (i : Nat) : Word :=
  match r with
  | .TIM_REF_UPSTREAM_ALLOW => if i < 16 then 0x3E8 else if i < 18 then 0x64 else 0
  | .TIM_REF_ASYM_ALLOW => if i < 16 then 0xFFFFFFFF else if i < 18 then 0x14 else 2
  | .BLOCK_ID => setFld (setFld 0 31 24 i) 23 16 1
  | .REL_SCREE_CFG =>
    w32 ((if i < 9 then 1000 else 3600000) + at_ 24 (match i with
      | 0 | 4 | 5 | 6 => 4
      | 1 | 2 | 7 | 8 => 2
      | 3 => 8
      | _ => 3))
  | _ => r.resetWord

/-- The stored value of instance i of register r, for holder h. -/
def reg (s : State) (r : Reg) (i h : Nat) : Word := mget (resetAt r i) s.regs (regKey r i h)

/-- s with that value stored. -/
def setReg (r : Reg) (i h : Nat) (v : Word) (s : State) : State :=
  { s with regs := mset (resetAt r i) s.regs (regKey r i h) v }

/-- A field of a register held once for the device. -/
def dfld (s : State) (r : Reg) (hi lo : Nat) : Nat := fld (reg s r 0 0) hi lo

/-- A write by field access codes (R6, R7): RW fields take the written bits, W1C fields clear at 1, W1S fields set at 1; every other
bit is kept. -/
def applyWrite (r : Reg) (old v : Word) : Word :=
  let rw := r.accMask (· == .rw)
  let c := r.accMask (· == .w1c)
  let st := r.accMask (· == .w1s)
  ((old &&& ~~~ rw) ||| (v &&& rw)) &&& ~~~ (v &&& c) ||| (v &&& st)

/-- What a read of the stored bits shows (R6, R7): WO fields and reserved bits read zero. -/
def readMask (r : Reg) (v : Word) : Word :=
  v &&& r.accMask (fun a => a != .wo)

/-- A saturating 32-bit count in an RC register. -/
def bump (r : Reg) (i h n : Nat) (s : State) : State :=
  setReg r i h (w32 (satAdd 0xFFFFFFFF (reg s r i h).toNat n)) s

/-- The 64-bit value of a register pair, low word first (R5). -/
def pair64 (s : State) (lo hi : Reg) (i h : Nat) : Nat :=
  (reg s lo i h).toNat + 2 ^ 32 * (reg s hi i h).toNat

/-- A 64-bit value stored in a register pair (R5). -/
def setPair64 (lo hi : Reg) (i h v : Nat) (s : State) : State :=
  setReg hi i h (w32 (v / 2 ^ 32)) (setReg lo i h (w32 v) s)

/-- One more occurrence of a W1C bit: 16 bits, saturating (R8, R444). -/
def countOcc (r : Reg) (i h bit : Nat) (s : State) : State :=
  { s with occ := mmod 0 s.occ (occKey (regBlock r i) (regOff r i) bit h) (satAdd 0xFFFF 1) }

/-- Hardware sets a W1C bit and counts the occurrence (R8). -/
def hwSet (r : Reg) (i h bit : Nat) (s : State) : State :=
  countOcc r i h bit (setReg r i h (reg s r i h ||| w32 (2 ^ bit)) s)

/-! ### Time and bounds (R27, R28, R47, R48) -/

/-- Device time in units of 2^-16 ns. -/
def nowFrac (s : State) : Nat := s.tim.t48 / 2 ^ 32

/-- A time in units of 2^-16 ns as the 64-bit count of R28: the nearest nanosecond, halves up. -/
def toNs (t : Nat) : Nat := (t + 0x8000) / 0x10000

/-- Device time as the 64-bit count of TAI nanoseconds (R28). -/
def now (s : State) : Nat := toNs (nowFrac s)

/-- Bound units per nanosecond: a bound is held in units of 5 * 10^-16 ns. -/
def nsUnits : Nat := 2000000000000000

/-- A reference slot by its REF_ID (R30). -/
def slotOf (s : State) (id : Nat) : RefSlot := mget {} s.tim.slots id

/-- Is id a PPS slot (R30)? -/
def isPps (id : Nat) : Bool := id == 0x11 || id == 0x12
/-- Is id an Akzal slot (R30)? -/
def isAkz (id : Nat) : Bool := id == 0x13 || id == 0x14

/-- Bound units of a time in 2^-16 ns. -/
def fracUnits (t : Nat) : Nat := ceilDiv (t * nsUnits) 0x10000

/-- RES_WINDOW, 1 to 64 (R65). -/
def resWindow (s : State) : Nat := max 1 (min 64 (dfld s .TIM_SERVO_CFG 23 16))

/-- B_REF of a slot in bound units (R45). -/
def bRef (s : State) (id : Nat) : Nat :=
  (reg s .TIM_REF_UPSTREAM_ALLOW (id - 1) 0).toNat * nsUnits + (if isAkz id then (slotOf s id).neighbour else 0)

/-- B_ASYM of a slot (R45). -/
def bAsym (s : State) (id : Nat) : Nat :=
  let a := reg s .TIM_REF_ASYM_ALLOW (id - 1) 0
  if a = 0xFFFFFFFF ∧ id ≤ 0x10 then fracUnits (slotOf s id).mpd else a.toNat * nsUnits

/-- B_RES of a slot (R45): the largest |θ| of the last RES_WINDOW accepted measurements. -/
def bRes (s : State) (id : Nat) : Nat := fracUnits (((slotOf s id).window.take (resWindow s)).foldl max 0)

/-- The terms of R45 but B_DRIFT: B_REF, B_ASYM, B_MEAS and B_RES. -/
def slotTerms (s : State) (id : Nat) : List Nat := [bRef s id, bAsym s id, 2 * nsUnits, bRes s id]

/-- The bound a slot gives at a measurement: every term of R45 but B_DRIFT. -/
def slotBound (s : State) (id : Nat) : Nat := (slotTerms s id).sum

/-- The rate of B_DRIFT, in bound units per ns: TIM_LOCK_FREQ_ALLOW, or TIM_OSC_FAULT_ALLOW under OSC_FAULT (R45, R53). -/
def driftRate (s : State) : Nat :=
  2 * (if s.tim.oscFault then (reg s .TIM_OSC_FAULT_ALLOW 0 0).toNat * 1000000 else (reg s .TIM_LOCK_FREQ_ALLOW 0 0).toNat)

/-- Growth of the bound from one Cairn time to another, in bound units (R45, R46, R53). -/
def growth (s : State) (from_ till : Nat) : Nat :=
  match s.tim.model with
  | .unknown => 0
  | .holdover =>
    let f := if s.tim.oscFault then driftRate s else
      2 * (reg s .TIM_HOLD_FREQ_ALLOW 0 0).toNat * (if s.tim.holdShort then 4 else 1)
    let a := (reg s .TIM_HOLD_AGING_ALLOW 0 0).toNat
    let t1 := from_ - s.tim.holdAt
    let t2 := till - s.tim.holdAt
    f * (till - from_) + ceilDiv (a * (t2 * t2 - t1 * t1)) (10 ^ 12)
  | _ => driftRate s * (till - from_)

/-- The model's value, without growth after bGrowAt (R40, R45, R46). -/
def modelBase (s : State) : Option Nat :=
  match s.tim.model with
  | .unknown => none
  | .terms => (s.tim.selected.map (fun id => slotBound s id)).map (· + s.tim.bGrow)
  | _ => some (s.tim.bBase + s.tim.bGrow)

/-- The larger of two bounds; UNKNOWN exceeds every bound (R47, R477). -/
def larger : Option Nat → Option Nat → Option Nat
  | some a, some b => some (max a b)
  | _, _ => none

/-- The bound a timestamp taken now carries (R47): the model's value at the end of the 256 ns interval that holds this tick, and at the tick
of a change the larger of the old and new values. `tim.bound` is the value in force up to bGrowAt + 256; the values that follow it are
computed here (assumption 125). -/
def boundNow (s : State) : Option Nat :=
  let t := s.tim
  if s.elapsed < t.bGrowAt + 256 then
    (if t.boundChangedAt = s.elapsed then larger t.bound t.boundBefore else t.bound)
  else
    let next := (modelBase s).map (· + growth s t.bGrowAt (t.bGrowAt + 256 * ((s.elapsed - t.bGrowAt) / 256 + 1)))
    if s.elapsed = t.bGrowAt + 256 then larger next t.bound else next

/-- A bound as a field of n bits: ceil(B + 0.5) ns saturating; all ones for UNKNOWN (R48). -/
def boundField (n : Nat) : Option Nat → Nat
  | none => 2 ^ n - 1
  | some b => min (2 ^ n - 1) (ceilDiv (b + nsUnits / 2) nsUnits)

/-- The 16-bit BOUND of a timestamp taken now (R48). -/
def bound16 (s : State) : Nat := boundField 16 (boundNow s)

/-- The 32-bit bound now (R48). -/
def bound32 (s : State) : Nat := boundField 32 (boundNow s)

/-- Does the time counter run: VDD_AON is present, PORST_N is high, a clock runs, and time has not been discarded (R29, R53, R83)? -/
def timeRuns (s : State) : Bool := s.cai.mode != .off && !s.cai.porstLow && (s.tim.tosc || s.cai.sysclk) && !s.tim.lost

/-- n ticks of the Cairn clock: n nanoseconds pass, and the time counter takes the increment n times (R29). -/
def ticks (n : Nat) (s : State) : State :=
  { s with elapsed := s.elapsed + n,
           tim := if timeRuns s then { s.tim with t48 := (s.tim.t48 + n * s.tim.increment) % 2 ^ 128 } else s.tim }

/-- One tick (assumption 2). -/
def tick (s : State) : State := ticks 1 s

/-- A command that tells of a moment brings the Cairn clock forward to it (assumption 3). -/
def advanceTo (t : Nat) (s : State) : State := ticks (t - s.elapsed) s

/-- The same for a moment of device time, TAI ns (assumption 3). -/
def advanceTai (t : Nat) (s : State) : State :=
  ticks (ceilDiv (t * 2 ^ 48 - s.tim.t48) (max 1 s.tim.increment)) s

/-! ### Queues and their work (R156, R158) -/

/-- Device-wide limits of R156: queue numbers of SQs, CQs and EQs of a PF and of a VF. -/
def qKind (f : Fn) (q : Nat) : Option QKind :=
  if isVf f then
    if q < 1024 then some .sq else if q < 1984 then some .cq else if q < 2048 then some .eq else none
  else
    if q < 131072 then some .sq else if q < 262144 then some .cq else if q < 270336 then some .eq else none

/-- The key of a queue. -/
def qKey (f : Fn) (q : Nat) : Nat := fnCode f * 2 ^ 20 + q

/-- A queue. -/
def queue (s : State) (f : Fn) (q : Nat) : Queue := mget {} s.qm.queues (qKey f q)

/-- s with a queue changed by g. -/
def modQueue (f : Fn) (q : Nat) (g : Queue → Queue) (s : State) : State :=
  { s with qm := { s.qm with queues := mmod {} s.qm.queues (qKey f q) g } }

/-- Ring size N of a queue, from its settings in force (R157). -/
def ringSize (u : Queue) : Nat := 2 ^ fld u.cfg 3 0

/-- TARGET of a queue's settings (R177). -/
def qTarget (u : Queue) : Nat := fld u.cfg 23 4

/-- CLASS of an SQ (R165). -/
def qClass (u : Queue) : Nat := fld u.cfg 30 28

/-- Is this bit of a counter its phase (R159)? -/
def phaseOf (u : Queue) (c : BitVec 16) : Bool := c.toNat.testBit (fld u.cfg 3 0)

/-- The created state of a queue: anything but DISABLED. -/
def created (u : Queue) : Bool := u.st != .disabled

/-- The queue, the entry and their owner where an entry with counter ctr of SQ q is held. -/
def workOf (s : State) (f : Fn) (q : Nat) (ctr : BitVec 16) : Option Work :=
  (queue s f q).work.find? (fun w => w.ctr == ctr)

/-- s with a fetched entry changed by g. -/
def modWork (f : Fn) (q : Nat) (ctr : BitVec 16) (g : Work → Work) (s : State) : State :=
  modQueue f q (fun u => { u with work := updFirst (fun w => w.ctr == ctr) g u.work }) s

/-- An entry finishes now with a status and the class's completion bytes (R168, R170). -/
def finishWork (f : Fn) (q : Nat) (ctr : BitVec 16) (status extra : Nat) (s : State) : State :=
  modWork f q ctr (fun w => { w with done := some { status := status, ts := now s, bound := bound16 s, extra := extra, order := s.elapsed } }) s

/-- OPCODE of an entry (R164). -/
def opcode (w : Work) : Nat := entryField w.entry 0 1

/-- Has the start of a unit, by its unitCode, failed twice with no spare left (R80)? -/
def unitDead (s : State) (c : Nat) : Bool := (mget ({} : DomainSt) s.cai.domains c).dead

/-- Does an entry hold an in-flight tracker entry: a look-aside message, a table operation, a STORAGE-class operation or a mover job (R354)? -/
def needsTracker (cls op : Nat) : Bool := cls == 2 && decide (op < 0x10) || decide (3 ≤ cls)

/-- Does a VF carry on: it is RUNNING (R188, R192)? -/
def migRuns (s : State) (f : Fn) : Bool := (fnSt s f).mig.st == .running

/-- Is a VF frozen, so that it makes no host write (R193): FROZEN, SAVING or RESTORING? -/
def frozen (s : State) (f : Fn) : Bool :=
  match (fnSt s f).mig.st with
  | .running | .freezing => false
  | _ => true

/-- Does a fetched entry wait for a translation: one it asked for, one that was refused, or one that a Page Request is to open (R143, R144)? -/
def translating (s : State) (f : Fn) (q ctr : Nat) : Bool :=
  let mine (r : Req) : Bool := r.fn == f && (match r.use with
    | .translate q' c' _ => q' == q && c' == ctr
    | _ => false)
  s.hif.waiting.any mine || s.hif.slots.any (fun e => e.2.st != .quarantined && mine e.2.req) ||
    (fnSt s (.pf (fnPf f))).pageRequests.any (fun r => r.fn == f && r.sq == q && r.ctr == ctr) ||
    (match workOf s f q (BitVec.ofNat 16 ctr) with
     | some w => !w.noAccess.isEmpty
     | none => false)

/-- Does work wait for a block: the settings enable it, and it has not reported ready (R102)? -/
def blockWaits (s : State) (blk : Nat) : Bool := s.cai.settings.blocks.contains blk && !s.cai.ready.contains (0x200 + blk)

/-- Does work of a class wait for its unit: CRYPTO for CRY, TABLE for TBL, storage and RDMA for STO (R102)? -/
def classWaits (s : State) (cls : Nat) : Bool :=
  match cls with
  | 0 | 1 => false
  | 2 => blockWaits s 9
  | 3 => blockWaits s 7
  | _ => blockWaits s 10

/-- The oldest fetched entry of an SQ that has not begun, when its opcode is op and its class is cls: an FENCE waits for every
earlier entry to finish (R165), work that needs a tracker entry waits for one (R354), or for translations (R143), and for
a unit that is not ready (R102), and that of a VF that is not RUNNING is parked (R192). -/
def nextWork (s : State) (f : Fn) (q cls op : Nat) : Option Work :=
  let u := queue s f q
  let rec go : Bool → List Work → Option Work
    | _, [] => none
    | allDone, w :: t =>
      if w.started || w.done.isSome then go (allDone && w.done.isSome) t
      else if bitOf (entryField w.entry 1 1) 2 && !allDone then none
      else if w.cls == cls && opcode w == op && (w.trk.isSome || !needsTracker cls op) && !translating s f q w.ctr.toNat then some w else none
  if migRuns s f && !classWaits s cls then go true u.work else none

/-- The status that the end of a read gives the operation it served: BAD_ADDRESS, and in the order of R23 a timeout, an abort and poisoned
data (R134, R135, R144). -/
def hostReadStatus : HostRead → Nat
  | .data _ => 0
  | .badAddress => 0x03
  | .timeout => 0x08
  | .abort => 0x09
  | .poisoned => 0x0A

/-- The status of several reads together: the first row of R23 that one of them meets. -/
def readsStatus (rs : List HostRead) : Nat := ([0x03, 0x08, 0x09, 0x0A].find? (fun st => rs.any (fun r => hostReadStatus r == st))).getD 0

/-- What the reads of an entry delivered: its bytes and their status, or nothing yet (R23, R134, R135, R144). -/
def readsOf (w : Work) : Option (Bytes × Nat) :=
  if w.reads.any (fun r => r.got.isNone) then none
  else some (w.reads.flatMap (fun r => match r.got with
    | some (.data d) => slice d 0 r.len
    | _ => []), readsStatus (w.reads.filterMap WorkRead.got))

/-! ### Writes to host memory (R136, R137, R143, R150 to R152, R190) -/

/-- Selective stream register blocks of the IDE capability: block k of 16, its first dword (R150). -/
def ideBlock (k : Nat) : Nat := (0x3E4 + 0x2C * k) / 4

/-- Dword d of the configuration space of PF0 of a half, where its reset value is 0. -/
def pf0Dword (s : State) (h d : Nat) : Word := mget 0 s.hif.cfg (fnCode (.pf (pf0Of h)) * 1024 + d)

/-- Does one of the two address association blocks of a selective stream hold an address (R150; assumption 122)? -/
def ideAddress (s : State) (h k addr : Nat) : Bool :=
  [5, 8].any (fun o =>
    let w := pf0Dword s h (ideBlock k + o)
    let base := at_ 20 (fld w 19 8) + at_ 32 (pf0Dword s h (ideBlock k + o + 2)).toNat
    let limit := at_ 20 (fld w 31 20) + 0xFFFFF + at_ 32 (pf0Dword s h (ideBlock k + o + 1)).toNat
    wbit w 0 && decide (base ≤ addr ∧ addr ≤ limit))

/-- The selective stream of a half that an address belongs to, outside TEE-Limited ones: by its association blocks, or the Default Stream. -/
def ideSelective (s : State) (h addr : Nat) : Option Nat :=
  let on (k : Nat) : Bool := wbit (pf0Dword s h (ideBlock k + 1)) 0 && !wbit (pf0Dword s h (ideBlock k + 1)) 23
  match (List.range 16).find? (fun k => on k && ideAddress s h k addr) with
  | some k => some (k + 1)
  | none => ((List.range 16).find? (fun k => on k && wbit (pf0Dword s h (ideBlock k + 1)) 22)).map (· + 1)

/-- How a request of a function to an address leaves: none where its stream is Insecure and carries nothing (R150 to R152). -/
def tlpFor (s : State) (f : Fn) (addr : Nat) (ro : Bool) : Option Tlp :=
  let h := fnHalf s f
  let st (k : Nat) : Ide := mget {} s.hif.ide (h * 32 + k)
  let carried (k : Nat) (tee : Bool) : Option Tlp :=
    if (st k).secure then some { ro := ro, stream := some k, pcrc := wbit (pf0Dword s h (if k = 0 then 0x3DC / 4 else ideBlock (k - 1) + 1)) 8, tee := tee }
    else none
  if f = .fw then some { ro := ro }
  else if (fnSt s f).tdi.st = .run then carried (fnSt s f).tdi.stream true
  else match ideSelective s h addr with
  | some k => carried k false
  | none => if (st 0).enabled then carried 0 false else some { ro := ro }

/-- The cached translation of a page (R143). -/
def translationOf (s : State) (f : Fn) (pasid : Option Nat) (page : Nat) : Option Nat :=
  (s.hif.ats.find? (fun e => e.fn == f && e.pasid == pasid && e.page == page)).map AtsEntry.dest

/-- An address with its page translated, where the cache holds it. -/
def translatedAddr (s : State) (f : Fn) (pasid : Option Nat) (addr : Nat) : Nat × Bool :=
  match translationOf s f pasid (addr / 4096) with
  | some d => (d / 4096 * 4096 + addr % 4096, true)
  | none => (addr, false)

/-- Bytes at an address in pieces that lie in one page each. -/
def pagePieces : Nat → Nat → Bytes → List (Nat × Bytes)
  | 0, addr, bs => [(addr, bs)]
  | fuel + 1, addr, bs =>
    let n := 4096 - addr % 4096
    if bs.length ≤ n then [(addr, bs)] else (addr, bs.take n) :: pagePieces fuel (addr + n) (bs.drop n)

/-- A write leaves: whole, or where the function has cached translations in pieces of one page, each at its translated address. -/
def sendWrite (f : Fn) (pasid : Option Nat) (addr : Nat) (bytes : Bytes) (t : Tlp) (s : State) : State :=
  if !s.hif.ats.any (fun e => e.fn == f && e.pasid == pasid) then emit (.hostWrite f pasid addr bytes t) s
  else foldS (fun (x : Nat × Bytes) s =>
    let a := translatedAddr s f pasid x.1
    emit (.hostWrite f pasid a.1 x.2 { t with translated := a.2 }) s) (pagePieces (bytes.length / 4096 + 1) addr bytes) s

/-- Bits of the active dirty-page log that a write sets, where the function is logging (R190, R191). -/
def logWrite (f : Fn) (addr len : Nat) (s : State) : State :=
  let m := (fnSt s f).mig
  if !m.logging then s else
    let h := fnCode f
    let pf := Fn.pf (fnPf f)
    let iova := pair64 s .HIF_VF_LOG_IOVA_LO .HIF_VF_LOG_IOVA_HI 0 h
    let pages := (reg s .HIF_VF_LOG_PAGES 0 h).toNat
    let buf := if m.activeB then pair64 s .HIF_VF_LOG_B_LO .HIF_VF_LOG_B_HI 0 h
      else pair64 s .HIF_VF_LOG_A_LO .HIF_VF_LOG_A_HI 0 h
    let first := addr / 4096
    let n := (addr + max len 1 - 1) / 4096 + 1 - first
    foldS (fun k s =>
      let a := (first + k) * 4096
      if iova ≤ a ∧ (a - iova) / 4096 < pages then
        let i := (a - iova) / 4096
        match tlpFor s pf (buf + i / 8) false with
        | some t => emit (.setBits pf (buf + i / 8) (2 ^ (i % 8)) t) s
        | none => s
      else modFn f (fun r => { r with mig := { r.mig with rangeMiss := true } }) s) (List.range n) s

/-- A posted write of a function to its DMA address space; a silent function makes none, nor does one whose stream is Insecure (R140, R151). -/
def hostWrite (f : Fn) (pasid : Option Nat) (addr : Nat) (bytes : Bytes) (ro : Bool) (s : State) : State :=
  if (fnSt s f).silent then s
  else match tlpFor s f addr ro with
  | some t => logWrite f addr bytes.length (sendWrite f pasid addr bytes t s)
  | none => s

/-- The PASID a queue's requests carry (R122, R177). -/
def qPasid (u : Queue) : Option Nat := if wbit u.pasid 31 then some (fld u.pasid 19 0) else none

/-! ### Units of the fast domains (R16, R78, R479) -/

/-- Outside x8+x8 mode HIF has one domain (R479). -/
def unitOfDomain (s : State) : DUnit → DUnit
  | .hifHalf h => .hifHalf (if bifurcated s then h else 0)
  | u => u

/-- The record of a unit. -/
def domainSt (s : State) (u : DUnit) : DomainSt := mget {} s.cai.domains (unitCode (unitOfDomain s u))

/-- s with a unit's record changed by g. -/
def modDomain (u : DUnit) (g : DomainSt → DomainSt) (s : State) : State :=
  modCai (fun c => { c with domains := mmod {} c.domains (unitCode (unitOfDomain s u)) g }) s

/-- A unit has had work until now (R78). -/
def worked (u : DUnit) (s : State) : State := { s with lastWork := mset 0 s.lastWork (unitCode (unitOfDomain s u)) s.elapsed }

/-! ### Threads and channels, as far as events need them (R394, R396, R404) -/

/-- A thread. -/
def thread (s : State) (t : Nat) : Thread := mget {} s.svc.threads t

/-- s with a thread changed by g. -/
def modThread (t : Nat) (g : Thread → Thread) (s : State) : State :=
  modSvc (fun v => { v with threads := mmod {} v.threads t g }) s

/-- Integer register r of a thread; x0 reads zero. -/
def xreg (h : Thread) (r : Nat) : Nat := if r = 0 then 0 else mget 0 h.x r

/-- A thread with integer register r written, 64 bits; x0 discards the write. -/
def setX (r v : Nat) (h : Thread) : Thread := if r = 0 then h else { h with x := mset 0 h.x r (v % 2 ^ 64) }

/-- The fixed configuration of the reserved channels, with the RX_DOMAIN that firmware has set (R396). -/
def reservedCfg (s : State) (c : Nat) : Word :=
  let rx := maskOf 13 8
  let mine := (mget ({} : Channel) s.svc.channels c).cfg &&& w32 rx
  match c with
  | 0 => mine ||| w32 (at_ 31 1 + at_ 30 1 + at_ 29 1 + 10)
  | 1 => w32 (at_ 31 1 + at_ 28 1 + 8)
  | 2 => w32 (at_ 31 1 + at_ 28 1 + 12)
  | 3 => mine ||| w32 (at_ 31 1 + at_ 29 1 + 12)
  | 4 => mine ||| w32 (at_ 31 1 + at_ 29 1 + 13)
  | _ => 0

/-- SVC_CH_CFG of a channel (R397). -/
def chCfg (s : State) (c : Nat) : Word := if c < 16 then reservedCfg s c else (mget ({} : Channel) s.svc.channels c).cfg

/-- The messages of a channel, oldest first. -/
def chMsgs (s : State) (c : Nat) : List ChMsg := (mget ({} : Channel) s.svc.channels c).msgs

/-- s with the messages of a channel changed by g. -/
def modMsgs (c : Nat) (g : List ChMsg → List ChMsg) (s : State) : State :=
  modSvc (fun v => { v with channels := mmod {} v.channels c (fun x => { x with msgs := g x.msgs }) }) s

/-- Is a channel full (R397)? -/
def chFull (s : State) (c : Nat) : Bool := decide (2 ^ fld (chCfg s c) 3 0 ≤ (chMsgs s c).length)

/-- The thread that has waited longest for what p holds of (R399). -/
def longestWaiter (s : State) (p : Wait → Bool) : Option Nat :=
  let ws := s.svc.threads.filter (fun e => e.2.st == .waiting && (match e.2.wait with
    | some w => p w
    | none => false))
  (ws.foldl (fun best e => match best with
    | some (t, n) => if e.2.waitNo < n then some (e.1, e.2.waitNo) else some (t, n)
    | none => some (e.1, e.2.waitNo)) (none : Option (Nat × Nat))).map Prod.fst

/-- The contexts that a logical core holds: its own sixteen unless some have moved (R388, R391). -/
def coreContexts (s : State) (c : Nat) : List Nat := (mfind s.svc.hosts c).getD ((List.range 16).map (fun t => 16 * c + t))

/-- The physical core of a logical core (R387). -/
def corePhys (s : State) (c : Nat) : Nat := mget c s.svc.phys c

/-- Is the core of a thread's context running, so that the thread can take a message (R399)? -/
def threadAwake (s : State) (t : Nat) : Bool :=
  (((List.range 64).find? (fun c => (coreContexts s c).contains t)).map (fun c => (domainSt s (.svcCore (corePhys s c))).st == .running)).getD false

/-- The thread that receives a message as it is committed: none while older messages wait in the channel, or while the core of the thread that
has waited longest does not run (R399). -/
def receiver (s : State) (c : Nat) : Option Nat :=
  if (chMsgs s c).isEmpty then (longestWaiter s (· == .recv c)).filter (threadAwake s) else none

/-- A wait ends: its rd is written and the thread goes on after the instruction (R394); its domain may stall again (R406). -/
def endWait (t v : Nat) (s : State) : State :=
  let d := (thread s t).domain
  modSvc (fun u => { u with domains := mmod {} u.domains d (fun x => { x with stalled := false }) })
    (modThread t (fun h => setX h.waitRd v { h with st := .running, pc := (h.pc + 4) % 2 ^ 64, wait := none, deadline := none }) s)

/-- What CRECV and CPOLL write to rd (R394). -/
def recvCode (m : ChMsg) : Nat := m.words.length + at_ 4 m.source + (if m.source = 0 then at_ 8 m.sender else 0)

/-- The EVENT message of a source: type 0x30, and its event entry with PHASE 0 (R173, R400). -/
def eventWords (e : EvSrc) : List Nat :=
  [0x30, e.block % 16 + at_ 4 (bits e.detail 18 16) + at_ 8 e.code + at_ 16 e.count + at_ 32 e.bound + at_ 48 (e.detail % 2 ^ 16), e.ts]

/-- Do the fast domains run in this mode, so that firmware has its channels (R93)? -/
def fastRuns (s : State) : Bool :=
  match s.cai.mode with
  | .off | .standby => false
  | .held => !s.cai.porstLow
  | _ => true

/-- Are frames forwarded in this mode: the fast domains run, and no Col pause holds the frames (R93, R103)? -/
def forwards (s : State) : Bool := fastRuns s && s.cai.mode != .pause

/-- Sources for firmware that have no EVENT message yet get one while channel 3 has room: the thread that waits longest, or the channel,
receives it (R399, R404). -/
def pumpEvents (s : State) : State :=
  if !fastRuns s then s else
  foldS (fun (e : EvSrc) s =>
    let same (x : EvSrc) : Bool := x.fn == .fw && x.block == e.block && x.code == e.code && x.detail == e.detail && x.written.isNone
    let m : ChMsg := { words := eventWords e }
    match receiver s 3 with
    | some t =>
      endWait t (recvCode m) (modThread t (fun h => { h with rx := m.words })
        (modQm (fun q => { q with events := dropFirst same q.events }) s))
    | none =>
      if chFull s 3 then s
      else modMsgs 3 (· ++ [m]) (modQm (fun q => { q with events := updFirst same (fun x => { x with written := some 0 }) q.events }) s))
    (s.qm.events.filter (fun e => e.fn == .fw && e.written.isNone)) s

/-! ### Events (R173 to R175) -/

/-- Put an occurrence at an event source, as one function sees it: a new source, or a count in a pending one (R174). A source for
firmware goes to channel 3 (R404). -/
def postSource (f : Fn) (eq : Option Nat) (block code detail : Nat) (s : State) : State :=
  let same (e : EvSrc) : Bool := e.block == block && e.code == code && e.detail == detail && e.fn == f && e.eq == eq
  match s.qm.events.find? same with
  | some _ => modQm (fun q => { q with events := updFirst same (fun e =>
      if e.written.isSome then
        { e with more := satAdd 0xFFFF e.more 1, moreTs := if e.more = 0 then now s else e.moreTs,
                 moreBound := if e.more = 0 then bound16 s else e.moreBound }
      else { e with count := satAdd 0xFFFF e.count 1 }) q.events }) s
  | none =>
    let s1 := modQm (fun q => { q with events := q.events ++
      [{ block := block, code := code, detail := detail, fn := f, eq := eq, ts := now s, bound := bound16 s }] }) s
    if f = .fw then pumpEvents s1 else s1

/-- The default EQ of a function (R175, R177). -/
def defaultEq (s : State) (f : Fn) : Option Nat := (fnSt s f).defaultEqs.head?

/-- The PFs that a device-wide event of a block reaches (R175). -/
def maskedPfs (s : State) (block : Nat) : List Fn :=
  ((List.range 4).filter (fun i => pfEnabled s i && wbit (reg s .QM_EVENT_MASK 0 (fnCode (.pf i))) block)).map Fn.pf

/-- Where an event goes (R155, R175, R404). -/
def eventTargets (s : State) (block : Nat) : Scope → List (Fn × Option Nat)
  | .function f => [(f, defaultEq s f)]
  | .cq f q => [(f, some (qTarget (queue s f q)))]
  | .device => (maskedPfs s block).map (fun f => (f, defaultEq s f)) ++
    (if wbit (reg s .SVC_FW_EVENT_MASK 0 0) block then [(Fn.fw, none)] else [])
  | .half h => (((List.range 4).filter (fun i => pfEnabled s i && pfHalf s i == h)).map Fn.pf).map (fun f => (f, defaultEq s f))

/-- An event source occurs (R174, R175). -/
def raise (block code detail : Nat) (sc : Scope) (s : State) : State :=
  foldS (fun t s => postSource t.1 t.2 block code detail s) (eventTargets s block sc) s

/-! ### Who may write (R470, R473) -/

/-- Does this register act for the accessing function (R470)? -/
def actsForFunction (r : Reg) : Bool :=
  match r with
  | .TIM_SNAP | .TIM_SNAP_SEC_LO | .TIM_SNAP_SEC_HI | .TIM_SNAP_NS | .TIM_SNAP_FRAC | .TIM_SNAP_BOUND => false
  | .QM_Q_SELECT => true
  | _ => match r.info.held with
    | .function | .vf | .queue => true
    | _ => false

/-- May a path write a register (R470, R473)? A VF reaches its own VF BAR0 alone. -/
def mayWrite (s : State) (p : Path) (r : Reg) : Bool :=
  match p with
  | .fn (.pf i) => match r.info.right with
    | .any => true
    | .pf0 => isPf0 s i
    | _ => false
  | .fn (.vf _ _) => r.info.space == .vf || (actsForFunction r && (r.info.space == .block 3 || r.info.space == .block 12))
  | .fn .fw => false
  | _ => !actsForFunction r

/-- The directory that the boot ROM uses, the valid copy with the higher SEQ, and which copy it is; none with no valid copy (R456). -/
def directory (s : State) : Option (Nat × FlashDir) :=
  match s.lcs.dir0, s.lcs.dir1 with
  | some a, some b => some (if b.seq ≤ a.seq then (0, a) else (1, b))
  | some a, none => some (0, a)
  | none, some b => some (1, b)
  | none, none => none

end Sys2Proof.Machine
end

