-- ==== Sys2Proof/Machine/Operands.lean ====
section
/-!
DEFINITION. Operand forms: the submission entries of every class, the checks R165 makes of them in its order, and the reads of host
memory each needs.
-/
namespace Sys2Proof.Machine

/-- Opcodes defined for a class (R165, R166, R167, R287, R329, R365, R376). -/
def opcodeDefined (cls op : Nat) : Bool :=
  match cls with
  | 0 => op == 0x01
  | 1 => op == 0x01
  | 2 => decide (1 ≤ op ∧ op ≤ 2 ∨ 0x10 ≤ op ∧ op ≤ 0x14)
  | 3 => decide (1 ≤ op ∧ op ≤ 9)
  | 4 => decide (1 ≤ op ∧ op ≤ 5)
  | 5 => decide (1 ≤ op ∧ op ≤ 8)
  | _ => false

/-- Bytes that a STORAGE-class operation does not name are zero, and its encodings are defined (R365). -/
def stoLayout (e : BitVec 512) : Bool :=
  entryZero e 6 1 && entryZero e 8 8 && entryZero e 48 16 &&
  (match entryField e 0 1 with
   | 1 => entryZero e 28 4 && decide (entryField e 40 1 < 3) && entryZero e 41 7
   | 2 => entryZero e 32 8 && decide (entryField e 40 1 < 2) && entryZero e 41 7
   | 3 => decide (entryField e 40 1 < 2) && entryZero e 41 3
   | 4 => entryZero e 28 4 && entryZero e 40 4
   | _ => entryZero e 28 20)

/-- SPACES of a mover entry: SRC 0, DST 1 or INDEX 2 in DEVICE space (R374, R375). -/
def mvDevice (e : BitVec 512) (k : Nat) : Bool := bits (entryField e 44 1) (2 * k + 1) (2 * k) == 1

/-- Fields that a mover operation leaves unused are zero, and its encodings are defined (R375, R376). -/
def mvLayout (e : BitVec 512) : Bool :=
  let sp := entryField e 44 1
  let ok (used : Bool) (k : Nat) : Bool := if used then bits sp (2 * k + 1) (2 * k) < 2 else bits sp (2 * k + 1) (2 * k) == 0
  let z (used : Bool) (off n : Nat) : Bool := used || entryZero e off n
  let op := entryField e 0 1
  let idx := op == 3 || op == 4
  let str := op == 5 || op == 6
  let elem := decide (3 ≤ op)
  entryField e 4 3 / 64 == 0 && decide (sp < 64) && entryZero e 46 18
    && ok (op != 2) 0 && ok true 1 && ok idx 2
    && z (op != 2) 8 8 && z (idx || op == 2) 24 8 && z elem 36 4 && z elem 40 2 && z str 42 2 && (if idx then decide (entryField e 45 1 < 2) else entryZero e 45 1)

/-- Is a table operation defined for the TABLE it names (R287)? 0 FLOW, 1 LPM, 2 ACL, 3 VPORT, 4 TUNNEL, 5 VSI, 6 ACTION, 7 COUNTER. -/
def opForTable (op table : Nat) : Bool :=
  match op with
  | 1 | 2 | 3 => decide (table < 2)
  | 4 | 5 => decide (table < 7 ∧ table ≠ 1)
  | 9 => table == 7
  | _ => table == 0

/-- Entries of a table, and bytes of its record (R258, R264, R267 to R270, R277, R279, R280). -/
def tableSize (table : Nat) : Nat :=
  match table with
  | 0 => 16777216
  | 1 => 2097152
  | 2 => 16384
  | 3 => 4096
  | 4 => 65536
  | 5 => 4096
  | 6 => 1048576
  | _ => 4194304

def recordSize (table : Nat) : Nat :=
  match table with
  | 0 | 4 => 128
  | 2 => 96
  | 6 => 64
  | 7 => 16
  | _ => 32

/-- Reserved bytes and bits of an entry's layout are zero (R165, R166, R167, R286, R365, R375). -/
def layoutZero (cls : Nat) (e : BitVec 512) : Bool :=
  match cls with
  | 0 =>
    let segs := entryField e 18 1
    entryZero e 19 5 && entryZero e 54 2 && (bitOf (entryField e 1 1) 3 || entryZero e 8 8) && (decide (1 ≤ segs) || entryZero e 48 2)
      && (decide (2 ≤ segs) || entryZero e 50 2) && (decide (3 ≤ segs) || entryZero e 52 2)
  | 1 => entryZero e 8 8 && entryZero e 28 36
  | 2 =>
    if entryField e 0 1 < 0x10 then entryZero e 52 12 && (entryField e 38 1 == 1 || entryZero e 40 12)
    else entryZero e 8 8 && entryZero e 28 36 && entryField e 16 1 % 8 == 0 && (entryField e 0 1 != 0x14 || entryZero e 16 8)
      && (if entryField e 0 1 = 0x11 then decide (entryField e 24 4 < 1048576) else entryZero e 24 4)
  | 3 => entryZero e 8 8 && entryZero e 32 32 && decide (entryField e 24 1 < 8) && decide (entryField e 25 1 < 4) && entryZero e 31 1
      && opForTable (entryField e 0 1) (entryField e 24 1)
  | 4 => stoLayout e
  | 5 => mvLayout e
  | _ => true

/-- The checks of R165 after the permission: BAD_OPCODE (1), or 0. -/
def headerStatus (cls : Nat) (e : BitVec 512) : Nat :=
  let flags := entryField e 1 1
  if opcodeDefined cls (entryField e 0 1) && decide (flags < 32) && entryZero e 7 1 && (cls == 0 || !bitOf flags 3)
    && (cls == 5 || !bitOf flags 4) && layoutZero cls e then 0 else 1

/-- The remaining checks of a TRANSMIT entry, in the order BAD_CONTEXT, BAD_LENGTH, NOT_PERMITTED (R166, R186, R308). -/
def txStatus (s : State) (f : Fn) (e : BitVec 512) : Nat :=
  let total := entryField e 16 2
  let segs := entryField e 18 1
  let lens := [entryField e 48 2, entryField e 50 2, entryField e 52 2].take segs
  if entryField e 4 3 ≠ 0 then 4
  else if total < 14 ∨ 16380 < total ∨ segs < 1 ∨ 3 < segs ∨ lens.any (· == 0) ∨ lens.foldl (· + ·) 0 ≠ total then 2
  else if (fnSt s f).vport.isNone then 5
  else if bitOf (entryField e 1 1) 3 && decide (now s + 1000000000 < entryField e 8 8) then 5
  else 0

/-- The remaining checks of a RECEIVE entry (R167). -/
def rxStatus (e : BitVec 512) : Nat :=
  let len := entryField e 24 4
  if entryField e 4 3 ≠ 0 then 4
  else if len < 64 ∨ 65536 < len ∨ len % 64 ≠ 0 then 2 else 0

/-- The remaining checks of a CRYPTO entry: BAD_CONTEXT, then BAD_LENGTH of a look-aside entry (R329, R339). -/
def cryStatus (e : BitVec 512) : Nat :=
  if 1048576 ≤ entryField e 4 3 then 4
  else if entryField e 0 1 < 0x10 ∧ (65536 < entryField e 32 4 ∨ 4096 < entryField e 36 2 ∨ 1 < entryField e 38 1 ∨ 2 < entryField e 39 1) then 2
  else 0

/-- The remaining checks of a TABLE entry (R286, R287): BAD_CONTEXT, BAD_LENGTH, and BAD_ADDRESS for a BUF that is not aligned
(assumption 87). -/
def tblStatus (e : BitVec 512) : Nat :=
  let op := entryField e 0 1
  let n := if op = 9 then entryField e 26 2 else 1
  if entryField e 4 3 ≠ 0 then 4
  else if 4 ≤ op ∧ tableSize (entryField e 24 1) < entryField e 28 3 + max 1 n then 4
  else if op = 9 ∧ (n < 1 ∨ 256 < n) then 2
  else if op ≠ 8 ∧ entryField e 16 8 % 8 ≠ 0 then 3 else 0

/-- A connection context. -/
def connOf (s : State) (c : Nat) : Conn := mget {} s.sto.conns c

/-- TYPE, FLAGS and OWNER of a context (R357). -/
def cxType (c : Conn) : Nat := byteAt c.data 0
def cxFlag (c : Conn) (b : Nat) : Bool := bitOf (byteAt c.data 2) b
def cxOwner (c : Conn) : Nat := leAt c.data 4 2

/-- Path MTU of a RoCEv2 context (R357). -/
def cxPmtu (c : Conn) : Nat := 128 <<< byteAt c.data 3

/-- Does the TYPE of a context carry a STORAGE-class opcode (R365)? -/
def cxCarries (c : Conn) (op : Nat) : Bool :=
  match op with
  | 1 => cxFlag c 4 && (cxType c == 1 || cxType c == 2)
  | 2 | 5 => cxType c == 2 || cxType c == 3
  | _ => cxType c == 2

/-- Is the owner of a context a vport in the range of a function's PF, or the device for firmware (R365)? -/
def cxPermitted (s : State) (f : Fn) (c : Conn) : Bool :=
  let o := cxOwner c
  match f with
  | .fw => bitOf o 15
  | _ => let g := pfSet s (fnPf f); o < 4096 && decide (g.vportFirst ≤ o ∧ o < g.vportFirst + g.vportCount)

/-- Is a vport bound to a VF that is FREEZING or FROZEN (R366)? -/
def vportFrozen (s : State) (v : Nat) : Bool :=
  s.hif.fns.any (fun e => decide (0x4000 ≤ e.1) && e.2.vport == some v && e.2.mig.st != .running)

/-- The remaining checks of a STORAGE entry (R365, R366): NOT_PERMITTED, BAD_CONTEXT, BAD_LENGTH, FROZEN. -/
def stoStatus (s : State) (f : Fn) (e : BitVec 512) : Nat :=
  let c := connOf s (entryField e 4 2)
  let op := entryField e 0 1
  let len := entryField e 24 4
  if cxType c = 0 then 0x04
  else if !cxPermitted s f c then 0x05
  else if !cxCarries c op then 0x04
  else if (if op = 5 then decide (len < 64 ∨ 65536 < len) else decide (2097152 < len) || (op == 2 && cxType c == 3 && decide (cxPmtu c < len))) then 0x02
  else if vportFrozen s (cxOwner c) then 0x31 else 0

/-- The raw device address of n bytes at a DEVICE address of a function, where its window reaches them (R374). -/
def devAddr (s : State) (f : Fn) (a n : Nat) : Option Nat :=
  let w := bits a 63 56
  let off := bits a 39 0
  if bits a 55 40 ≠ 0 then none
  else if w = 0xFF then (if f = .fw ∧ off + n ≤ 2 ^ 36 then some off else none)
  else
    let owner := reg s .DMV_WIN_OWNER 0 w
    let base := pair64 s .DMV_WIN_BASE_LO .DMV_WIN_BASE_HI 0 w
    if wbit owner 31 ∧ (fnSt s f).vport = some (fld owner 11 0) ∧ off + n ≤ fld (reg s .DMV_WIN_SIZE 0 w) 27 0 * 4096 ∧ base + off + n ≤ 2 ^ 36 then
      some (base + off) else none

/-- Limits of a mover operation (R376). -/
def mvLengthOk (e : BitVec 512) : Bool :=
  let len := entryField e 32 4
  let count := entryField e 36 4
  let elem := entryField e 40 2
  let str := entryField e 42 2
  let cap := 268435456
  match entryField e 0 1 with
  | 1 | 2 => decide (1 ≤ len ∧ len ≤ cap)
  | 3 | 4 => decide (1 ≤ elem ∧ elem ≤ 4096 ∧ 1 ≤ count ∧ count * elem ≤ cap ∧ elem ≤ len)
  | 5 | 6 => decide (2 ≤ str ∧ str ≤ 256 ∧ 1 ≤ elem ∧ elem ≤ 4096 ∧ len = str * count * elem ∧ len ≤ cap)
  | _ => decide ((elem = 1 ∨ elem = 2 ∨ elem = 4 ∨ elem = 8) ∧ count % 64 = 0 ∧ len = count * elem ∧ len ≤ cap)

/-- Lengths of the contiguous ranges of a mover job: SRC, DST and INDEX; none for an indexed one (R374, R376). -/
def mvSpans (e : BitVec 512) : Option Nat × Option Nat × Option Nat :=
  let len := entryField e 32 4
  let total := entryField e 36 4 * entryField e 40 2
  let table := entryField e 36 4 * (if entryField e 45 1 = 1 then 8 else 4)
  match entryField e 0 1 with
  | 1 => (some len, some len, none)
  | 2 => (none, some len, none)
  | 3 => (none, some total, some table)
  | 4 => (some total, none, some table)
  | _ => (some len, some len, none)

/-- Do the contiguous DEVICE ranges of a job lie in the function's windows (R374)? -/
def mvRangesOk (s : State) (f : Fn) (e : BitVec 512) : Bool :=
  let one (k off : Nat) (n : Option Nat) : Bool := match n with
    | some n => !mvDevice e k || (devAddr s f (entryField e off 8) n).isSome
    | none => true
  let r := mvSpans e
  one 0 8 r.1 && one 1 16 r.2.1 && one 2 24 r.2.2

/-- DMV_CH_CFG of a channel, and the function that owns it (R370, R384). -/
def mvCfg (s : State) (ch : Nat) : Word := reg s .DMV_CH_CFG 0 ch
def mvOwner (s : State) (ch : Nat) : Fn :=
  let c := mvCfg s ch
  if wbit c 15 then .fw else if wbit c 14 then .vf (fld c 13 12) (fld c 11 0) else .pf (fld c 13 12)

/-- The remaining checks of a MOVER entry (R375, R376): BAD_CONTEXT, BAD_LENGTH, and BAD_ADDRESS for a contiguous DEVICE range. -/
def mvStatus (s : State) (f : Fn) (e : BitVec 512) : Nat :=
  let ch := entryField e 4 1 % 64
  if !wbit (mvCfg s ch) 31 ∨ mvOwner s ch ≠ f then 0x04
  else if !mvLengthOk e then 0x02
  else if !mvRangesOk s f e then 0x03 else 0

/-- The VF permission that a class needs (R187): bit of HIF_VF_PERM. -/
def classPermitted (s : State) (f : Fn) (cls : Nat) : Bool :=
  if !isVf f then true else
    let p := reg s .HIF_VF_PERM 0 (fnCode f)
    match cls with
    | 2 => wbit p 3
    | 3 => wbit p 4
    | 5 => wbit p 5
    | _ => true

/-- The status that the checks at the fetch give an entry, 0 where it goes on (R165). -/
def entryStatus (s : State) (f : Fn) (_q cls : Nat) (e : BitVec 512) : Nat :=
  if !classPermitted s f cls then 5
  else if headerStatus cls e ≠ 0 then 1
  else if unitDead s 0x700 ∧ (cls = 0 ∨ cls = 2 ∨ cls = 3) then 0x3F
  else match cls with
  | 0 => txStatus s f e
  | 1 => rxStatus e
  | 2 => cryStatus e
  | 3 => tblStatus e
  | 4 => stoStatus s f e
  | 5 => mvStatus s f e
  | _ => 0

/-- The reads of host memory that an entry needs before its operation begins (R166, R287, R329, R365). -/
def entryReads (cls : Nat) (e : BitVec 512) : List WorkRead :=
  match cls with
  | 0 => ([{ addr := entryField e 24 8, len := entryField e 48 2 }, { addr := entryField e 32 8, len := entryField e 50 2 },
      { addr := entryField e 40 8, len := entryField e 52 2 }] : List WorkRead).take (entryField e 18 1)
  | 2 =>
    let op := entryField e 0 1
    if op = 0x10 then [{ addr := entryField e 16 8, len := 96 }]
    else if op = 0x11 then [{ addr := entryField e 16 8, len := 104 }]
    else if op = 0x12 then [{ addr := entryField e 16 8, len := 64 }]
    else if op < 0x10 then
      (if entryField e 36 2 = 0 then [] else [{ addr := entryField e 8 8, len := entryField e 36 2 }]) ++
        (let n := entryField e 32 4 + (if op = 2 then 16 else 0)
         if n = 0 then [] else [{ addr := entryField e 16 8, len := n }])
    else []
  | 3 =>
    let op := entryField e 0 1
    if op = 4 ∨ op = 6 ∨ 8 ≤ op then [] else [{ addr := entryField e 16 8, len := recordSize (entryField e 24 1) }]
  | 4 =>
    match entryField e 0 1 with
    | 1 => [{ addr := entryField e 32 8, len := 64 }]
    | 2 | 3 => if entryField e 24 4 = 0 then [] else [{ addr := entryField e 16 8, len := entryField e 24 4 }]
    | _ => []
  | _ => []

/-- A read of n bytes in pieces that cross no page, as no request does (R131, R143). -/
def readPieces : Nat → Nat → Nat → List WorkRead
  | 0, addr, n => [{ addr := addr, len := n }]
  | fuel + 1, addr, n =>
    let k := 4096 - addr % 4096
    if n ≤ k then [{ addr := addr, len := n }] else { addr := addr, len := k } :: readPieces fuel (addr + k) (n - k)

/-- The buffers of host memory that an entry's data is written to, as address and length (R143, R167, R287, R329, R339, R365). -/
def entryWrites (cls : Nat) (e : BitVec 512) : List (Nat × Nat) :=
  match cls with
  | 1 => [(entryField e 16 8, entryField e 24 4)]
  | 2 => if entryField e 0 1 < 0x10 ∧ entryField e 32 4 ≠ 0 then [(entryField e 24 8, entryField e 32 4 + (if entryField e 0 1 = 1 then 16 else 0))]
    else if entryField e 0 1 = 0x13 then [(entryField e 16 8, 64)] else []
  | 3 => if [3, 4, 6].contains (entryField e 0 1) then [(entryField e 16 8, recordSize (entryField e 24 1))] else []
  | 4 => if [4, 5].contains (entryField e 0 1) ∨ entryField e 0 1 = 1 ∧ entryField e 40 1 = 1 then [(entryField e 16 8, entryField e 24 4)] else []
  | _ => []

end Sys2Proof.Machine
end

