-- ==== Sys2Proof/Machine/DevMem.lean ====
section
/-!
DEFINITION. Device memory by raw device address (R374, R390, R431), and payload writes to a host (R137).
-/
namespace Sys2Proof.Machine

/-- n bytes of device memory from a raw address; a byte that nothing has written reads zero. -/
def devRead (s : State) (a n : Nat) : Bytes := (List.range n).map (fun i => mget 0 s.dev (a + i))

/-- A thread's reservation ends when its line of device memory is written (R387; the reserved set is a line of 64 bytes, assumption 72). -/
def breakReservation (a n : Nat) (h : Thread) : Thread :=
  match h.reserved with
  | some r => if a / 64 ≤ r / 64 ∧ r / 64 ≤ (a + n - 1) / 64 then { h with reserved := none } else h
  | none => h

/-- Is line n of device memory inside the n bytes from a? -/
def lineWithin (a n line : Nat) : Bool := decide (a ≤ 64 * line ∧ 64 * line + 64 ≤ a + n)

/-- s with bytes written to device memory; reservations of the lines written end, and a line written whole is no longer poisoned (R431). -/
def devWrite (a : Nat) (bs : Bytes) (s : State) : State :=
  let s1 := { s with
    dev := bs.zipIdx.foldl (fun m e => mset 0 m (a + e.2) e.1) s.dev,
    rel := { s.rel with poison := s.rel.poison.filter (fun e => !lineWithin a bs.length e.1) } }
  modSvc (fun v => { v with threads := v.threads.map (fun e => (e.1, breakReservation a bs.length e.2)) }) s1

/-- Does a range of device memory touch a poisoned line (R431)? -/
def devPoisoned (s : State) (a n : Nat) : Bool :=
  s.rel.poison.any (fun e => decide (e.1 < 2 ^ 40 ∧ a / 64 ≤ e.1 ∧ e.1 ≤ (a + n - 1) / 64 ∧ 0 < n))

/-- Enable Relaxed Ordering of a function's PF (R137). -/
def relaxedOrdering (s : State) (f : Fn) : Bool := wbit (mget (w32 0x2110) s.hif.cfg (fnCode f * 1024 + 22)) 4

/-- A write of payload data into a host buffer (R137). -/
def payloadWrite (f : Fn) (pasid : Option Nat) (addr : Nat) (bytes : Bytes) (s : State) : State :=
  if bytes.isEmpty then s else hostWrite f pasid addr bytes (relaxedOrdering s f) s

/-! ### The in-flight tracker (R354) -/

/-- Tracker entries in use: of queue entries, of NVMe commands and of register-started mover jobs. A mover job holds its entry until its
completion is written (R371). -/
def trkUsed (s : State) : List Nat :=
  (s.qm.queues.map (fun e => e.2.work.filterMap (fun w => if w.done.isNone || w.cls == 5 then w.trk else none))).flatten
    ++ (s.sto.ctrls.map (fun e => e.2.cmds.filterMap NCmd.trk)).flatten
    ++ (s.dmv.chans.map (fun e => (e.2.jobs ++ e.2.flushing).filterMap Job.trk)).flatten

/-- Entries that one function holds. -/
def trkHeld (s : State) (f : Fn) : Nat :=
  let c := fnCode f
  trkUsed { s with qm := { s.qm with queues := s.qm.queues.filter (fun e => e.1 / 2 ^ 20 == c) },
                   sto := { s.sto with ctrls := s.sto.ctrls.filter (fun e => e.1 == c) },
                   dmv := { s.dmv with chans := if f = .fw then s.dmv.chans else [] } } |>.length

/-- May a function take another entry: one is free, and it holds fewer than STO_TRK_FN_LIMIT (R354)? -/
def trkRoom (s : State) (f : Fn) : Bool :=
  decide ((trkUsed s).length < 262144 ∧ trkHeld s f < max 1 (min 262144 (dfld s .STO_TRK_FN_LIMIT 18 0)))

/-- TRACKER_HIGH is raised when the level reaches STO_TRK_HWM (R368, R369). -/
def trkHigh (s : State) : State :=
  let high := decide (dfld s .STO_TRK_HWM 18 0 ≤ (trkUsed s).length)
  if high ∧ !s.sto.highRaised then raise 0xA 0x05 0 .device (modSto (fun t => { t with highRaised := true }) s)
  else if !high then modSto (fun t => { t with highRaised := false }) s else s

end Sys2Proof.Machine
end

