-- ==== Sys2Proof/Machine/Aes.lean ====
section
/-!
DEFINITION. AES-128 and AES-256, AES-GCM and the AES key wrap of RFC 3394, which R321, R326, R329 and R332 name: the cipher
datapaths of CRY.
-/
namespace Sys2Proof.Machine

/-- The S-box of AES, entry i in bits 8i+7 to 8i, and its inverse. -/
def aesSbox : Nat :=
  0x16bb54b00f2d99416842e6bf0d89a18cdf2855cee9871e9b948ed9691198f8e19e1dc186b95735610ef6034866b53e708a8bbd4b1f74dde8c6b4a61c2e2578ba08ae7a65eaf4566ca94ed58d6d37c8e779e4959162acd3c25c2406490a3a32e0db0b5ede14b8ee4688902a22dc4f816073195d643d7ea7c41744975fec130ccdd2f3ff1021dab6bcf5389d928f40a351a89f3c507f02f94585334d43fbaaefd0cf584c4a39becb6a5bb1fc20ed00d153842fe329b3d63b52a05a6e1b1a2c830975b227ebe28012079a059618c323c7041531d871f1e5a534ccf73f362693fdb7c072a49cafa2d4adf04759fa7dc982ca76abd7fe2b670130c56f6bf27b777c63

def aesInvSbox : Nat :=
  0x7d0c2155631469e126d677ba7e042b17619953833cbbebc8b0f52aae4d3be0a0ef9cc9939f7ae52d0d4ab519a97f51605fec8027591012b131c7078833a8dd1ff45acd78fec0db9a2079d2c64b3e56fc1bbe18aa0e62b76f89c5291d711af1476edf751ce837f9e28535ade72274ac9673e6b4f0cecff297eadc674f4111913a6b8a130103bdafc1020f3fca8f1e2cd00645b3b80558e4f70ad3bc8c00abd890849d8da75746155edab9edfd5048706c92b6655dcc5ca4d41698688664f6f87225d18b6d49a25b76b224d92866a12e084ec3fa420b954cee3d23c2a632947b54cbe9dec444438e3487ff2f9b8239e37cfbd7f3819ea340bf38a53630d56a0952

/-- A byte through a box. -/
def boxByte (box : Nat) (b : Byte) : Byte := BitVec.ofNat 8 (box >>> (8 * b.toNat))

/-- Multiplication by x in the field of AES. -/
def xtime (b : Byte) : Byte := (b <<< 1) ^^^ (if b.msb then 0x1B else 0)

/-- Multiplication in the field of AES by a small constant. -/
def gfMul : Nat → Nat → Byte → Byte
  | 0, _, _ => 0
  | n + 1, k, b => (if k % 2 = 1 then b else 0) ^^^ gfMul n (k / 2) (xtime b)

/-- Byte-wise exclusive or. -/
def xorBytes (a b : Bytes) : Bytes := List.zipWith (· ^^^ ·) a b

/-- Groups of four bytes. -/
def words4 : Nat → Bytes → List Bytes
  | 0, _ => []
  | n + 1, bs => bs.take 4 :: words4 n (bs.drop 4)

/-- The key schedule, newest word first: n more words. -/
def aesExpand (nk : Nat) : Nat → Byte → List Bytes → List Bytes
  | 0, _, ws => ws
  | n + 1, rcon, ws =>
    let i := ws.length
    let t := ws.headD []
    let sub := t.map (boxByte aesSbox)
    let rot := (t.drop 1 ++ t.take 1).map (boxByte aesSbox)
    let u := if i % nk = 0 then xorBytes rot [rcon, 0, 0, 0] else if nk = 8 ∧ i % nk = 4 then sub else t
    aesExpand nk n (if i % nk = 0 then xtime rcon else rcon) (xorBytes (ws.getD (nk - 1) []) u :: ws)

/-- The round keys of a 16- or 32-byte key. -/
def aesKeys (key : Bytes) : List Bytes :=
  let nk := key.length / 4
  let ws := (aesExpand nk (4 * (nk + 7) - nk) 1 (words4 nk key).reverse).reverse
  (List.range (nk + 7)).map (fun r => ((ws.drop (4 * r)).take 4).flatten)

/-- ShiftRows (dir 1) and its inverse (dir 3). -/
def shiftRows (dir : Nat) (st : Bytes) : Bytes :=
  (List.range 16).map (fun i => st.getD ((i + 4 * dir * (i % 4)) % 16) 0)

/-- MixColumns with the coefficients of its matrix's first row. -/
def mixColumns (c : List Nat) (st : Bytes) : Bytes :=
  (List.range 16).map (fun i =>
    let col := st.drop (4 * (i / 4))
    (List.range 4).foldl (fun a j => a ^^^ gfMul 4 (c.getD ((j + 4 - i % 4) % 4) 0) (col.getD j 0)) 0)

/-- One AES block encryption under round keys. -/
def aesEncrypt (ks : List Bytes) (blk : Bytes) : Bytes :=
  let rec go : List Bytes → Bytes → Bytes
    | [], st => st
    | [k], st => xorBytes (shiftRows 1 (st.map (boxByte aesSbox))) k
    | k :: t, st => go t (xorBytes (mixColumns [2, 3, 1, 1] (shiftRows 1 (st.map (boxByte aesSbox)))) k)
  go (ks.drop 1) (xorBytes blk (ks.headD []))

/-- One AES block decryption under round keys. -/
def aesDecrypt (ks : List Bytes) (blk : Bytes) : Bytes :=
  let rec go : List Bytes → Bytes → Bytes
    | [], st => st
    | [k], st => xorBytes ((shiftRows 3 st).map (boxByte aesInvSbox)) k
    | k :: t, st => go t (mixColumns [14, 11, 13, 9] (xorBytes ((shiftRows 3 st).map (boxByte aesInvSbox)) k))
  let rk := ks.reverse
  go (rk.drop 1) (xorBytes blk (rk.headD []))

/-- Multiplication of GHASH: the first bit of a block is its most significant. -/
def ghashMul (x y : Nat) : Nat :=
  let rec go : Nat → Nat → Nat → Nat
    | 0, z, _ => z
    | n + 1, z, v =>
      go n (if x.testBit n then z ^^^ v else z) (if v.testBit 0 then (v / 2) ^^^ (0xE1 <<< 120) else v / 2)
  go 128 0 y

/-- Zero padding to whole blocks. -/
def padBlocks (bs : Bytes) : Bytes := bs ++ List.replicate ((16 - bs.length % 16) % 16) 0

/-- GHASH over whole blocks. -/
def ghash (h : Nat) : Nat → Bytes → Nat → Nat
  | 0, _, y => y
  | n + 1, bs, y => ghash h n (bs.drop 16) (ghashMul (y ^^^ beNat (bs.take 16)) h)

/-- Counter-mode encryption from a counter block on. -/
def gctr (ks : List Bytes) : Nat → Nat → Bytes → Bytes
  | 0, _, _ => []
  | n + 1, ctr, bs =>
    xorBytes (bs.take 16) (aesEncrypt ks (beBytes 16 ctr)) ++ gctr ks n (ctr / 2 ^ 32 * 2 ^ 32 + (ctr + 1) % 2 ^ 32) (bs.drop 16)

/-- The counter block of a 96-bit nonce. -/
def gcmJ0 (nonce : Bytes) : Nat := beNat nonce * 2 ^ 32 + 1

/-- The 16-byte tag of AES-GCM over additional data and ciphertext. -/
def gcmTag (key nonce aad ct : Bytes) : Bytes :=
  let ks := aesKeys key
  let h := beNat (aesEncrypt ks (List.replicate 16 0))
  let d := padBlocks aad ++ padBlocks ct ++ beBytes 8 (8 * aad.length) ++ beBytes 8 (8 * ct.length)
  xorBytes (aesEncrypt ks (beBytes 16 (gcmJ0 nonce))) (beBytes 16 (ghash h (d.length / 16) d 0))

/-- AES-GCM's text transform, the same in both directions. -/
def gcmText (key nonce text : Bytes) : Bytes :=
  let j := gcmJ0 nonce
  gctr (aesKeys key) (ceilDiv text.length 16) (j / 2 ^ 32 * 2 ^ 32 + 2) text

/-- AES-GCM encryption: ciphertext and tag. -/
def gcmSeal (key nonce aad text : Bytes) : Bytes × Bytes :=
  let ct := gcmText key nonce text
  (ct, gcmTag key nonce aad ct)

/-- AES-GCM decryption: the text, where the tag compares. -/
def gcmOpen (key nonce aad ct tag : Bytes) : Option Bytes :=
  if gcmTag key nonce aad ct = tag then some (gcmText key nonce ct) else none

/-- Key unwrap of RFC 3394: the key data, where the integrity check holds. -/
def keyUnwrap (kek wrapped : Bytes) : Option Bytes :=
  let ks := aesKeys kek
  let n := wrapped.length / 8 - 1
  let r0 := (List.range n).map (fun i => slice wrapped (8 * (i + 1)) 8)
  let step (st : Bytes × List Bytes) (t : Nat) : Bytes × List Bytes :=
    let i := (t + n - 1) % n
    let b := aesDecrypt ks (xorBytes st.1 (beBytes 8 t) ++ st.2.getD i [])
    (b.take 8, st.2.set i (b.drop 8))
  let f := ((List.range (6 * n)).reverse.map (· + 1)).foldl step (wrapped.take 8, r0)
  if n ≠ 0 ∧ f.1 = List.replicate 8 0xA6 then some f.2.flatten else none

end Sys2Proof.Machine
end

