-- ==== Sys2Proof/Machine/FlowOps.lean ====
section
/-!
DEFINITION. Logical ports as registers and counters, and their flow control: cells held per priority, pause frames sent, and their
watchdogs' state (R198, R212 to R218, R294).
-/
namespace Sys2Proof.Machine

/-- A logical port. -/
def lport (s : State) (lp : Nat) : LPort := s.mac.lports.getD lp {}

/-- s with a logical port changed by g. -/
def modLport (lp : Nat) (g : LPort → LPort) (s : State) : State := modMac (fun m => { m with lports := updAt lp g m.lports }) s

/-- MAC_PORTn_CFG of the physical port that a logical port belongs to (R198). -/
def portCfg (s : State) (lp : Nat) : Word := reg s .MAC_PORT_CFG (lp / 8) 0

/-- Does the breakout mode use this logical port number (R198)? -/
def lpUsed (s : State) (lp : Nat) : Bool := decide (lp < 16) && lp % 8 % (8 >>> fld (portCfg s lp) 1 0) == 0

/-- The logical port that a MAC register belongs to: those of MAC_LP_, the multicast hash and the gates (R198, R218). -/
def regPort (r : Reg) (i : Nat) : Option Nat :=
  let g := r.info
  if g.space = .block 4 ∧ g.count = 16 then some (i / g.count2) else none

/-- Does a register belong to a logical port that the mode does not use, so that it reads 0 and ignores writes (R198)? -/
def portAbsent (s : State) (r : Reg) (i : Nat) : Bool := (regPort r i).any (fun lp => !lpUsed s lp)

/-- The rate of a logical port, Gb/s (R198). -/
def lpRate (s : State) (lp : Nat) : Nat := 1600 >>> fld (portCfg s lp) 1 0

/-- MAC_LP_CFG of a logical port. -/
def lpCfg (s : State) (lp : Nat) : Word := reg s .MAC_LP_CFG lp 0

/-- MAX_FRAME, clamped to 64 to 16,384 (R218). -/
def maxFrame (s : State) (lp : Nat) : Nat := max 64 (min 16384 (fld (lpCfg s lp) 14 0))

/-- Counter k of a logical port grows by n, modulo 2^64 (R217). -/
def lpCount (lp k n : Nat) (s : State) : State :=
  modLport lp (fun p => { p with counters := mmod 0 p.counters k (fun v => (v + n) % 2 ^ 64) }) s


/-! ### Flow control (R212 to R216) -/

/-- Cell units a frame holds (R294). -/
def frameUnits (f : Frame) : Nat := f.ochre + f.umber + 8 * f.sienna

/-- FC_MODE: 0 none, 1 PAUSE, 2 PFC; 3 is treated as 0 (R218). -/
def fcMode (s : State) (lp : Nat) : Nat := let m := fld (reg s .MAC_LP_FC_CFG lp 0) 1 0; if m = 3 then 0 else m

/-- The priority whose watermarks a priority counts towards: in PAUSE mode, priority 0 (R212). -/
def fcPrio (s : State) (lp p : Nat) : Nat := if fcMode s lp = 1 then 0 else p

/-- The state the MAC keeps for a priority. -/
def prioSt (s : State) (lp p : Nat) : PrioSt := (lport s lp).prios.getD p {}

/-- s with it changed by g. -/
def modPrio (lp p : Nat) (g : PrioSt → PrioSt) (s : State) : State :=
  modLport lp (fun x => { x with prios := updAt p g x.prios }) s

/-- Cells that the frames of a logical port and priority hold, those that handles keep among them. -/
def cellsHeld (s : State) (lp p : Nat) : Nat :=
  s.svc.handles.foldl (fun n (e : Nat × Handle) => match e.2.port with
    | some (l, q) => if l = lp ∧ fcPrio s lp q = p then n + e.2.ochre + e.2.umber + 8 * e.2.sienna else n
    | none => n) 0 +
  s.tm.frames.foldl (fun n e => if e.2.ingress = at_ 4 lp ∧ e.2.parent.isNone ∧ fcPrio s lp e.2.prio = p then n + frameUnits e.2 else n) 0

/-- Watermarks of a priority; XON_CELLS is at most XOFF_CELLS (R218). -/
def xoffCells (s : State) (lp p : Nat) : Nat := fld (reg s .MAC_LP_XOFF_CELLS (lp * 8 + p) 0) 23 0
def xonCells (s : State) (lp p : Nat) : Nat := min (xoffCells s lp p) (fld (reg s .MAC_LP_XON_CELLS (lp * 8 + p) 0) 23 0)
def maxCells (s : State) (lp p : Nat) : Nat := fld (reg s .MAC_LP_MAX_CELLS (lp * 8 + p) 0) 23 0

/-- Is a priority lossless: enabled for PFC, or priority 0 in PAUSE mode; not during a transmit storm (R214, R216)? -/
def lossless (s : State) (lp p : Nat) : Bool :=
  (match fcMode s lp with
   | 1 => p == 0
   | 2 => wbit (reg s .MAC_LP_FC_CFG lp 0) (8 + p)
   | _ => false) && !(prioSt s lp p).txStorm

/-- QUANTA of a logical port. -/
def fcQuanta (s : State) (lp : Nat) : Nat := fld (reg s .MAC_LP_FC_CFG lp 0) 31 16

/-- A pause frame of 64 bytes with q quanta for a priority is sent from the port's address and counted (R214, R217): changes within 100 ns share one PFC frame (R214). -/
def sendPause (lp p q : Nat) (s : State) : State :=
  let sa := pair64 s .MAC_LP_SA_LO .MAC_LP_SA_HI lp 0
  let count (s : State) : State := lpCount lp 11 64 (lpCount lp 10 1 (lpCount lp 12 1 s))
  if !(lport s lp).up then s
  else if fcMode s lp ≠ 2 then count (emit (.pauseOut lp sa 1 0 [q]) s)
  else
    let join := match (lport s lp).pfcAt with
      | some t => decide (s.elapsed < t + 100)
      | none => false
    let mine (o : Output) : Bool := match o with
      | .pauseOut l _ _ _ _ => l == lp
      | _ => false
    if join && s.out.any mine then
      { s with out := updFirst mine (fun o => match o with
          | .pauseOut l a c e qs => .pauseOut l a c (e ||| 2 ^ p) (qs.set p q)
          | o => o) s.out }
    else
      count (emit (.pauseOut lp sa 0x101 (2 ^ p) ((List.replicate 8 0).set p q)) (modLport lp (fun x => { x with pfcAt := some s.elapsed }) s))

/-- The cells held for a priority have changed (R214, R216). -/
def judgeFlow (lp p : Nat) (s : State) : State :=
  let x := prioSt s lp p
  let held := cellsHeld s lp p
  if x.txStorm then
    modPrio lp p (fun x => { x with belowSince := if held < xonCells s lp p then some (x.belowSince.getD s.elapsed) else none }) s
  else if !lossless s lp p then s
  else if !x.xoff && decide (xoffCells s lp p ≤ held) then
    modPrio lp p (fun x => { x with xoff := true, xoffSince := s.elapsed, lastSent := s.elapsed }) (sendPause lp p (fcQuanta s lp) s)
  else if x.xoff && decide (held < xonCells s lp p) then modPrio lp p (fun x => { x with xoff := false }) (sendPause lp p 0 s)
  else s

/-- Cells of a frame that came in by a logical port have come or gone. -/
def judgeFrame (f : Frame) (s : State) : State :=
  if f.ingress % 8 = 0 ∧ f.parent.isNone then judgeFlow (f.ingress / 16) (fcPrio s (f.ingress / 16) f.prio) s else s

end Sys2Proof.Machine
end

