-- ==== Sys2Proof/Machine/Hash.lean ====
section
/-!
DEFINITION. The hashes the spec names by standard: CRC-32 as 802.3 computes the FCS (R211), CRC-32C (R271, R351), SHA-384 (R62,
R197, R252) and the Toeplitz hash (R246).
-/
namespace Sys2Proof.Machine

/-- One byte of a reflected CRC with a reversed polynomial. -/
def crcByte (poly c : Nat) (b : Byte) : Nat :=
  let step (c : Nat) : Nat := if c % 2 = 1 then (c / 2) ^^^ poly else c / 2
  step (step (step (step (step (step (step (step (c ^^^ b.toNat))))))))

/-- A reflected CRC that starts from all ones and is complemented at the end. -/
def crcOf (poly : Nat) (bs : Bytes) : Nat := (bs.foldl (crcByte poly) 0xFFFFFFFF) ^^^ 0xFFFFFFFF

/-- CRC-32 as 802.3 computes the FCS (R211). -/
def crc32 (bs : Bytes) : Nat := crcOf 0xEDB88320 bs

/-- CRC-32C (R271). -/
def crc32c (bs : Bytes) : Nat := crcOf 0x82F63B78 bs

/-- The greatest r + x below r + 2^n whose k-th power is at most m: the bits of an integer root, the highest first. -/
def rootBits (k m : Nat) : Nat → Nat → Nat
  | 0, r => r
  | n + 1, r => rootBits k m n (if (r + 2 ^ n) ^ k ≤ m then r + 2 ^ n else r)

/-- The first 64 bits of the fraction of the k-th root of p. -/
def rootFraction (k p : Nat) : BitVec 64 := BitVec.ofNat 64 (rootBits k (p * 2 ^ (64 * k)) 69 0)

/-- The primes below 410 in their order, the first eighty: n is prime where nothing below 21 other than itself divides it. -/
def smallPrimes : List Nat :=
  ((List.range 410).drop 2).filter (fun n => [2, 3, 5, 7, 11, 13, 17, 19].all (fun d => n == d || n % d != 0))

/-- The eight words of SHA-384's state, as one value (FIPS 180-4, 5.3.4: of the square roots of the ninth to the sixteenth prime). -/
structure ShaState where
  a : BitVec 64
  b : BitVec 64
  c : BitVec 64
  d : BitVec 64
  e : BitVec 64
  f : BitVec 64
  g : BitVec 64
  h : BitVec 64
  deriving DecidableEq, Repr

/-- A state from the function that gives its words by number. -/
def ShaState.of (w : Nat → BitVec 64) : ShaState :=
  { a := w 0, b := w 1, c := w 2, d := w 3, e := w 4, f := w 5, g := w 6, h := w 7 }

/-- The words of a state, in order. -/
def ShaState.words (v : ShaState) : List (BitVec 64) := [v.a, v.b, v.c, v.d, v.e, v.f, v.g, v.h]

/-- The initial state. -/
def shaStart : ShaState := .of (fun i => rootFraction 2 (smallPrimes.getD (8 + i) 0))

/-- Three turns of a word, added without carries: by x, by y, and by z or, where the last is a shift, down by z. -/
def shaTurns (v : BitVec 64) (x y z : Nat) (shift : Bool) : BitVec 64 :=
  v.rotateRight x ^^^ v.rotateRight y ^^^ (if shift then v >>> z else v.rotateRight z)

/-- The message words of a block from word number 16 on, each from the sixteen before it, which are kept the oldest first: one word a
round, with the constant of the round (FIPS 180-4, 6.4.2: of the cube roots of the first eighty primes). -/
def shaRounds : List Nat → List (BitVec 64) → ShaState → ShaState
  | [], _, v => v
  | _, [], v => v
  | p :: ps, w :: ws, v =>
    let pick := (v.e &&& v.f) ||| (v.g &&& ~~~ v.e)
    let most := (v.a &&& (v.b ||| v.c)) ||| (v.b &&& v.c)
    let x := v.h + shaTurns v.e 14 18 41 false + pick + rootFraction 3 p + w
    let next := w + shaTurns (ws.getD 0 0) 1 8 7 true + ws.getD 8 0 + shaTurns (ws.getD 13 0) 19 61 6 true
    shaRounds ps (ws ++ [next])
      { a := x + shaTurns v.a 28 34 39 false + most, b := v.a, c := v.b, d := v.c, e := v.d + x, f := v.e, g := v.f, h := v.g }

/-- The state after one block of 128 bytes, at the front of bs. -/
def shaBlock (v : ShaState) (bs : Bytes) : ShaState :=
  let u := shaRounds smallPrimes ((List.range 16).map (fun i => BitVec.ofNat 64 (beAt bs (8 * i) 8))) v
  .of (fun i => v.words.getD i 0 + u.words.getD i 0)

/-- The state after n blocks. -/
def shaBlocks : Nat → Bytes → ShaState → ShaState
  | 0, _, v => v
  | n + 1, bs, v => shaBlocks n (bs.drop 128) (shaBlock v bs)

/-- SHA-384 of a message: 48 bytes. The message is ended with a one bit and its length in bits, on a boundary of 128 bytes. -/
def sha384 (bs : Bytes) : Bytes :=
  let n := (bs.length + 16) / 128 + 1
  let ended := bs ++ [0x80] ++ List.replicate (128 * n - bs.length - 17) 0 ++ beBytes 16 (8 * bs.length)
  beBytes 48 (beNat ((shaBlocks n ended shaStart).words.flatMap (fun w => beBytes 8 w.toNat)) / 2 ^ 128)

/-- HMAC-SHA-384 (R451, R465): a key of at most one block of 128 bytes. -/
def hmac384 (key bs : Bytes) : Bytes :=
  let padded := key ++ List.replicate (128 - key.length) 0
  sha384 (padded.map (· ^^^ 0x5C) ++ sha384 (padded.map (· ^^^ 0x36) ++ bs))

/-- The Toeplitz hash of R246: key is the 576-bit key, fed the bytes in feed order, bytes beyond the 64th ignored. -/
def toeplitz (key : Nat) (fed : Bytes) : Nat :=
  let bs := fed.take 64
  (List.range (8 * bs.length)).foldl (fun h i =>
    if (byteAt bs (i / 8)).testBit (7 - i % 8) then h ^^^ ((key >>> (576 - 64 - i)) % 2 ^ 64) else h) 0

end Sys2Proof.Machine
end

