-- ==== Sys2Proof/Machine/TimeBase.lean ====
section
/-!
DEFINITION. Shared operations of the time unit: the bound (R44 to R48, R477), the trace (R62 to R64), state changes and the servo
(R41 to R43, R46, R52), selection (R38 to R40) and leap seconds (R50, R51).
-/
namespace Sys2Proof.Machine

/-- s with a slot changed by g. -/
def modSlot (id : Nat) (g : RefSlot → RefSlot) (s : State) : State :=
  modTim (fun t => { t with slots := mmod {} t.slots id g }) s

/-- TIM_REF_CFG of a slot (R65). -/
def slotCfg (s : State) (id : Nat) : Word := reg s .TIM_REF_CFG (id - 1) 0

/-! ### The bound -/

/-- The bound a slot would itself give now (R40, R45): its terms, with B_DRIFT since its last accepted measurement. -/
def candidateBound (s : State) (id : Nat) : Nat := slotBound s id + driftRate s * (s.elapsed - (slotOf s id).lastAccepted)

/-- Growth taken up to now. -/
def growNow (s : State) : State :=
  modTim (fun t => { t with bGrow := t.bGrow + growth s t.bGrowAt s.elapsed, bGrowAt := s.elapsed }) s

/-- The value in force for the next 256 ns: the model at the end of that interval (R47). -/
def modelNext (s : State) : Option Nat := (modelBase s).map (· + growth s s.tim.bGrowAt (s.tim.bGrowAt + 256))

/-- Is a bound above the alarm limit (R477)? UNKNOWN exceeds every limit. -/
def aboveAlarm (limit : Nat) : Option Nat → Bool
  | none => true
  | some b => decide (limit * nsUnits < b)

/-! ### PPS outputs under SQUELCH (R59) -/

/-- s with a PPS output changed by g. -/
def modPpsOut (pin : Nat) (g : PpsOut → PpsOut) (s : State) : State :=
  modTim (fun t => { t with ppsOut := updAt pin g t.ppsOut }) s

/-- SQUELCH holds a pin of this TIM_PPS_OUTn_CFG low (R59). -/
def squelched (s : State) (c : Word) : Bool :=
  wbit c 30 && (s.tim.servo == .freerun || wbit (reg s .TIM_STATUS 0 0) 1)

/-- A PPS output that is high goes low where SQUELCH now holds it low, and is released where ENABLE is now clear; the sentence of a pulse
cut so is not sent (R59, R61, R92). -/
def settlePin (pin : Nat) (s : State) : State :=
  let c := reg s .TIM_PPS_OUT_CFG pin 0
  let u := s.tim.ppsOut.getD pin {}
  if u.high ∧ (squelched s c ∨ ¬ wbit c 31) then
    emit (.pin (.ppsOut pin) (if wbit c 31 then .low else .z)) (modPpsOut pin (fun u => { u with high := false, sentenceAt := none }) s)
  else s

/-- Both PPS outputs as SQUELCH and ENABLE now hold them. -/
def settlePins (s : State) : State := settlePin 1 (settlePin 0 s)

/-- A crossing of the alarm limit sets BOUND_ALARM, counts it and raises the event (R477); SQUELCH then holds its pins low (R59). -/
def boundAlarm (s : State) : State := settlePins (raise 0xD 0x06 0 .device (hwSet .TIM_STATUS 0 0 1 s))

/-- Every page is to be updated (R56). -/
def forcePages (stepped : Bool) (s : State) : State :=
  modTim (fun t => { t with pages := t.pages.map (fun e => (e.1, { e.2 with forced := true, stepped := e.2.stepped || stepped })) }) s

/-- The bound that a page's line gives now, in bound units (R58): none where the page states no bound. -/
def pageLine (s : State) (pg : PageSt) : Option Nat :=
  pg.line.map (fun l => l.1 * nsUnits + l.2 * 2 * (now s - pg.anchor))

/-- A bound above the line of the last page written forces an update of that page (R56, R58). -/
def pageRise (b : Nat) (s : State) : State :=
  modTim (fun t => { t with pages := t.pages.map (fun e =>
    (e.1, if decide ((pageLine s e.2).getD b < b) then { e.2 with forced := true } else e.2)) }) s

/-- The four terms but B_DRIFT that the model holds now: those of the selected slot; B_entry of R46 or the base of R40 stands in B_REF
(R62, assumption 124). -/
def modelTerms (s : State) : List Nat :=
  match s.tim.model, s.tim.selected with
  | .terms, some id => slotTerms s id
  | _, _ => [s.tim.bBase, 0, 0, 0]

/-- The bound takes a new value, with its terms (R47, R477); a rise above a page's line forces that page (R56). -/
def setBound (b : Option Nat) (s0 : State) : State :=
  let s := modTim (fun t => { t with terms := modelTerms s0 }) s0
  if b = s.tim.bound then s else
    let limit := (reg s .TIM_BOUND_ALARM 0 0).toNat
    let was := aboveAlarm limit s.tim.bound
    let s' := modTim (fun t => { t with bound := b, boundBefore := t.bound, boundChangedAt := s.elapsed }) s
    let s'' := match b with
      | some v => pageRise v s'
      | none => s'
    if !was && aboveAlarm limit b then boundAlarm s'' else s''

/-- The growth up to now is taken, and the value in force is computed anew (R47). -/
def refreshBound (s : State) : State :=
  let s' := growNow s
  setBound (modelNext s') s'

/-- A new model, its growth from now, and the bound it gives. -/
def setModel (m : BoundModel) (base : Nat) (s : State) : State :=
  let s' := modTim (fun t => { t with model := m, bBase := base, bGrow := 0, bGrowAt := s.elapsed }) s
  setBound (modelNext s') s'

/-! ### The trace (R62 to R64) -/

/-- The five terms of a trace record in units of 2^-8 ns: the four terms of the value in force, and B_DRIFT as the rest of the bound held, so
that they sum to it (R24, R62, assumption 124). -/
def traceTerms (s : State) : List Nat :=
  match boundNow s with
  | none => List.replicate 5 0xFFFFFFFF
  | some b =>
    let held := (if s.elapsed < s.tim.bGrowAt + 256 then s.tim.terms else modelTerms s).map (fun u => u * 256 / nsUnits)
    (held ++ [ceilDiv (b * 256) nsUnits - held.sum]).map (min 0xFFFFFFFF)

/-- A record put into the ring of 2,048: the oldest is overwritten when the ring is full (R64). -/
def pushRecord (bs : Bytes) (s : State) : State :=
  let n := s.tim.traceNext
  let s' := modTim (fun t => { t with trace := mput (if 2048 ≤ n then mdel t.trace (n - 2048) else t.trace) n bs, traceNext := n + 1 }) s
  if 2048 ≤ n then raise 0xD 0x09 0 .device (bump .TIM_TRACE_OVERWRITES 0 0 1 s') else s'

/-- The record of a TYPE as the state gives it (R62). SOURCE_ID, HOPS and UPSTREAM_SEQ are those of the slot that REF_ID names, zero where it
names a PPS slot, MANUAL or none; the first record after time was lost has no record before it, and its PREV_HASH is zero
(assumption 124). -/
def traceRecord (type : Nat) (s : State) : Bytes :=
  let n := s.tim.traceNext
  let id := s.tim.refId
  let sl := slotOf s id
  let prev := if n = 0 then List.replicate 48 0 else sha384 (mget [] s.tim.trace (n - 1))
  let adj : Int := (((s.tim.increment : Int) - (2 ^ 48 : Nat)) * (10 ^ 12 : Nat)) / (2 ^ 48 : Nat)
  let named := decide (1 ≤ id ∧ id ≤ 0x14) && !isPps id
  leBytes 8 n ++ [BitVec.ofNat 8 type, BitVec.ofNat 8 s.tim.servo.code, BitVec.ofNat 8 s.tim.refId,
    BitVec.ofNat 8 (b2n s.tim.utcValid + 2 * b2n s.tim.oscFault + 4 * b2n s.tim.recStepped + 8 * b2n s.tim.holdShort)]
    ++ leBytes 8 (now s) ++ leBytes 4 (bound32 s) ++ (traceTerms s).flatMap (leBytes 4) ++ leBytes 4 (unsigned 32 adj)
    ++ leBytes 2 (unsigned 16 s.tim.utcOffset) ++ leBytes 2 (min 0xFFFF s.tim.measCount)
    ++ (if named then (if isAkz id then leBytes 8 sl.sourceId else beBytes 8 sl.sourceId) else List.replicate 8 0)
    ++ leBytes 2 (if named then sl.hops else 0) ++ [0, 0] ++ leBytes 8 (if isAkz id then sl.upstreamSeq else 0)
    ++ List.replicate 8 0 ++ prev

/-- What the attestation key is derived from; SPENT stands for no key. -/
def attestOf (s : State) : Nat × Bytes := s.lcs.attest.getD (4, [])

/-- A signature over the SHA-384 of bytes with the attestation key (R63, R452). -/
def attestSign (s : State) (bs : Bytes) : Bytes := beBytes 96 (Config.sign (attestOf s).1 (attestOf s).2 (beNat (sha384 bs)))

/-- The DeviceID certificate (R451). -/
def deviceCert : Bytes := Config.certificate 2 0

/-- The attestation certificate; empty where there is no attestation key (R451, R467). -/
def attestCert (s : State) : Bytes := ((s.lcs.attest.map (fun a => Config.attestCertificate a.1 a.2)).getD [])

/-- TIM appends a record, and a SIGNATURE record after every SIGN_INTERVAL of the others (R62, R63). -/
def trace (type : Nat) (s : State) : State :=
  let bs := traceRecord type s
  let s1 := pushRecord bs s
  let s2 := modTim (fun t => { t with measCount := 0, recStepped := false, unsignedRecs := t.unsignedRecs + 1 }) s1
  let interval := dfld s .TIM_TRACE_CFG 23 16
  if interval ≤ s2.tim.unsignedRecs ∧ 0 < interval then
    let r := leBytes 8 s2.tim.traceNext ++ [3] ++ List.replicate 7 0 ++ attestSign s bs ++ List.replicate 16 0
    modTim (fun t => { t with unsignedRecs := 0 }) (pushRecord r s2)
  else s2

/-- TIM_STATUS, its W1C bits as stored (R65). -/
def timStatus (s : State) : Nat :=
  (reg s .TIM_STATUS 0 0).toNat % 128 &&& 0x43 ||| (at_ 24 s.tim.refId + at_ 16 s.tim.servo.code + at_ 5 (b2n s.tim.holdShort)
    + at_ 4 (b2n s.tim.leap.isSome) + at_ 3 (b2n s.tim.utcValid) + at_ 2 (b2n s.tim.oscFault))

/-! ### State changes, steps and the servo -/

/-- The average increment over the last TIM_HOLD_AVG seconds of lock (R52); the increment in force without a lock. -/
def averageIncrement (s : State) : Nat :=
  let t0 := s.elapsed - (reg s .TIM_HOLD_AVG 0 0).toNat * 1000000000
  let rec go : Nat → List (Nat × Nat) → Nat × Nat
    | _, [] => (0, 0)
    | till, (at_, inc) :: r =>
      let from_ := max at_ t0
      let rest := if at_ ≤ t0 then (0, 0) else go at_ r
      (rest.1 + inc * (till - from_), rest.2 + (till - from_))
  let g := go s.elapsed s.tim.history
  if g.2 = 0 then s.tim.increment else g.1 / g.2

/-- The servo state changes: the event, the record and the pages (R43, R56, R62, R66). -/
def setServo (v : Servo) (s : State) : State :=
  if v = s.tim.servo then s else
    let s1 := modTim (fun t => { t with servo := v }) s
    forcePages false (trace 2 (raise 0xD 0x01 v.code .device s1))

/-- LOCKED is entered (R43). -/
def enterLocked (s : State) : State :=
  setServo .locked (modTim (fun t => { t with lockedAt := s.elapsed, history := [(s.elapsed, t.increment)] }) s)

/-- HOLDOVER is entered, with an entry bound (R46, R52): none where the bound is UNKNOWN. -/
def enterHoldover (entry : Option Nat) (s : State) : State :=
  let locked := s.tim.servo == .locked
  let short := !locked || decide (s.elapsed - s.tim.lockedAt < (reg s .TIM_HOLD_AVG 0 0).toNat * 1000000000)
  let inc := if locked then averageIncrement s else s.tim.increment
  let s1 := modTim (fun t => { t with increment := inc, holdShort := short, holdAt := s.elapsed, lockRun := 0 }) s
  let s2 := match entry with
    | some b => setModel .holdover b s1
    | none => setModel .unknown 0 s1
  setServo .holdover s2

/-- The bound at this instant, as the model gives it. -/
def modelNow (s : State) : Option Nat := modelBase (growNow s)

/-- A step: every timestamp point at one tick (R42). -/
def stepTime (t48 : Nat) (s : State) : State :=
  let s1 := modTim (fun t => { t with t48 := t48, stepCount := (t.stepCount + 1) % 2 ^ 32, recStepped := true,
                                      ppsOut := t.ppsOut.map (fun p => { p with judged := toNs (t48 / 2 ^ 32) }) }) s
  forcePages true (trace 2 (raise 0xD 0x05 0 .device (hwSet .TIM_STATUS 0 0 0 s1)))

/-! ### Wakes (R81, R85, R107) -/

/-- Does the Cairn domain run (R83, R93)? -/
def cairnRuns (s : State) : Bool := s.cai.mode != .off && !s.cai.porstLow

/-- Every main rail is good. -/
def railsGood (s : State) : Bool := s.cai.rails.all (fun r => r.good)

/-- The wake-pending flag is set in STANDBY, with what CAI_RESET_CAUSE will take (R87, R107). -/
def setWake (cause : Nat) (s : State) : State :=
  if s.cai.mode = .standby then modCai (fun c => { c with wakePending := true, wakeCause := cause }) s else s

/-- A wake source of R81: WAKE_REQUEST is raised, and WAKE_N goes low until every main rail is good. -/
def wakeRequest (s : State) : State :=
  if s.cai.mode ≠ .standby then s
  else
    let s1 := raise 0x0 0x06 0 .device (modCai (fun c => { c with wakeSource := true }) (setWake 6 s))
    if railsGood s then s1 else emit (.pin .wakeN .low) s1

/-- In STANDBY a CAI_WAKE_AT at or before device time counts as reached at once, and the device writes it to zero: whether it had passed when it
was written or on entry, or was passed by a step (R81, R87). -/
def wakePassed (s : State) : State :=
  let t := pair64 s .CAI_WAKE_AT_LO .CAI_WAKE_AT_HI 0 0
  if s.cai.mode = .standby ∧ t ≠ 0 ∧ t ≤ now s then setPair64 .CAI_WAKE_AT_LO .CAI_WAKE_AT_HI 0 0 0 (wakeRequest s) else s

/-- Time moved by a signed offset of 2^-16 ns units; a step may pass CAI_WAKE_AT (R42, R81). -/
def stepBy (theta : Int) (s : State) : State :=
  wakePassed (stepTime (((s.tim.t48 : Int) + theta * (2 ^ 32 : Nat)).toNat) s)

/-- The servo for one accepted measurement of the selected reference (R41); the interval is in 2^-16 ns. -/
def runServo (theta : Int) (interval : Nat) (s : State) : State :=
  let cfg := reg s .TIM_SERVO_CFG 0 0
  if s.tim.servo = .acquiring ∧ (reg s .TIM_STEP_THRESH 0 0).toNat * 0x10000 < theta.natAbs then
    modTim (fun t => { t with integ := 0 }) (stepBy theta s)
  else
    let integ := s.tim.integ + theta / (2 ^ fld cfg 11 8 : Nat)
    let corr := theta / (2 ^ fld cfg 3 0 : Nat) + integ
    let limit : Int := (2 ^ 48 * (reg s .TIM_SLEW_LIMIT 0 0).toNat / 10 ^ 9 : Nat)
    let y := max (-limit) (min limit (corr * (2 ^ 48 : Nat) / (max interval 1 : Nat)))
    let inc := ((2 ^ 48 : Nat) + y).toNat
    let keep := s.elapsed - (reg s .TIM_HOLD_AVG 0 0).toNat * 1000000000
    modTim (fun t => { t with integ := integ, increment := inc,
                              history := if t.servo = .locked then
                                (s.elapsed, inc) :: (t.history.take (1 + (t.history.takeWhile (fun e => keep < e.1)).length)) else t.history }) s

/-! ### UTC and leap seconds (R50, R51) -/

/-- Days from 1970-01-01 to a date of the Gregorian calendar. -/
def dayNo (year month day : Nat) : Nat :=
  -- years are counted from March, in eras of 400 years
  let y := if month ≤ 2 then year - 1 else year
  let doy := (153 * ((month + 9) % 12) + 2) / 5 + day - 1
  let doe := y % 400 * 365 + y % 400 / 4 - y % 400 / 100 + doy
  y / 400 * 146097 + doe - 719468

/-- The year, month and day of a count of days from 1970-01-01. -/
def civil (d : Nat) : Nat × Nat × Nat :=
  let z := d + 719468
  let doe := z % 146097
  let yoe := (doe - doe / 1460 + doe / 36524 - doe / 146096) / 365
  let doy := doe - (365 * yoe + yoe / 4 - yoe / 100)
  let mp := (5 * doy + 2) / 153
  let month := if mp < 10 then mp + 3 else mp - 9
  (z / 146097 * 400 + yoe + (if month ≤ 2 then 1 else 0), month, doy - (153 * mp + 2) / 5 + 1)

/-- Days from 1970-01-01 to the first day of the month after the one that holds day d. -/
def nextMonth (d : Nat) : Nat :=
  let c := civil d
  if c.2.1 = 12 then dayNo (c.1 + 1) 1 1 else dayNo c.1 (c.2.1 + 1) 1

/-- The leap that is announced on the last day of the current UTC month (R51). -/
def monthLeap (insert : Bool) (src : LeapSrc) (s : State) : Leap :=
  let utc := ((now s / 1000000000 : Nat) : Int) - s.tim.utcOffset
  let midnight := nextMonth (utc.toNat / 86400) * 86400
  let at_ : Int := (midnight : Int) + s.tim.utcOffset + (if insert then 1 else -1)
  { at_ := at_.toNat * 1000000000, offset := s.tim.utcOffset + (if insert then 1 else -1), src := src }

/-- The pending leap changes: announced, moved or withdrawn; TIM_LEAP_AT follows and the pages are updated (R51). -/
def setLeap (l : Option Leap) (s : State) : State :=
  if l = s.tim.leap then s else
    forcePages false (setPair64 .TIM_LEAP_AT_LO .TIM_LEAP_AT_HI 0 0 ((l.map Leap.at_).getD 0) (modTim (fun t => { t with leap := l }) s))

/-- A source supplies UTC_OFFSET (R50): a change outside a leap raises LEAP_APPLIED, is recorded and forces the pages. -/
def supplyUtc (off : Int) (s : State) : State :=
  if s.tim.utcValid ∧ s.tim.utcOffset = off then s else
    let changed := s.tim.utcOffset ≠ off
    let s1 := modTim (fun t => { t with utcOffset := off, utcValid := true }) s
    if changed then forcePages false (trace 2 (raise 0xD 0x08 0 .device s1)) else s1

/-- A source announces a leap, or announces none (R51): its own pending leap is withdrawn then. -/
def announceLeap (src : LeapSrc) (a : Announce) (s : State) : State :=
  let mine := s.tim.leap.map Leap.src == some src
  match a with
  | .none => if mine then setLeap none s else s
  | .month insert => if mine || !s.tim.utcValid then s else setLeap (some (monthLeap insert src s)) s
  | .at_ t off => setLeap (some { at_ := t, offset := off, src := src }) s

/-- Does TIM_UTC govern UTC_OFFSET now (R50)? -/
def utcFromRegister (s : State) : Bool :=
  match s.tim.selected with
  | some id => !isAkz id && (slotOf s id).utc.isNone
  | none => true

/-- LEAP61 and LEAP59 of TIM_UTC (R65). -/
def registerLeap (v : Word) : Announce := if wbit v 17 then .month true else if wbit v 18 then .month false else .none

/-- TIM_UTC with the value u is the source of UTC_OFFSET and the leap flags (R50, R51). -/
def registerUtc (u : Word) (s : State) : State :=
  announceLeap .utcRegister (registerLeap u) (if wbit u 16 then supplyUtc (signed 16 (fld u 15 0)) s else s)

/-- UTC_OFFSET and the leap flags from the source in force: the selected slot, or else TIM_UTC (R50, R51). -/
def governUtc (s : State) : State :=
  if utcFromRegister s then registerUtc (reg s .TIM_UTC 0 0) s
  else match s.tim.selected with
  | some id =>
    (match (slotOf s id).utc with
     | some off => announceLeap (.slot id) (slotOf s id).announce (supplyUtc off s)
     | none => s)
  | none => s

/-! ### Selection (R38 to R40) -/

/-- The better of two QUALIFIED slots: the lower PRIORITY, the smaller bound, the lower REF_ID (R40). -/
def betterSlot (s : State) (a b : Nat) : Nat :=
  let pa := fld (slotCfg s a) 27 24
  let pb := fld (slotCfg s b) 27 24
  if pa < pb then a else if pb < pa then b
  else if candidateBound s a < candidateBound s b then a else if candidateBound s b < candidateBound s a then b
  else min a b

/-- The slot selection names (R40). -/
def bestSlot (s : State) : Option Nat :=
  let q := ((List.range 0x15).filter (fun id => (slotOf s id).st == .qualified))
  match q with
  | [] => none
  | a :: t => some (t.foldl (betterSlot s) a)

/-- A slot is selected in place of what was (R40, R43, R66). After REACQUIRE the model in force goes on: the terms that it took from the slot
selected till now stay as they are (R478). -/
def switchTo (id : Nat) (s : State) : State :=
  let cand := fracUnits (slotOf s id).lastTheta.natAbs + candidateBound s id
  let s0 := match s.tim.model, modelNow s with
    | .terms, some b => if s.tim.reacquired then setModel .base b s else s
    | _, _ => s
  let s1 := modTim (fun t => { t with selected := some id, refId := id }) s0
  let s2 := if s.tim.servo = .holdover ∨ s.tim.reacquired then s1
    else match modelNow s with
      | some b => setModel .base (min b cand) s1
      | none => setModel .base cand s1
  let s3 := raise 0xD 0x02 id .device s2
  governUtc (if s.tim.servo = .freerun then setServo .acquiring s3 else forcePages false (trace 2 s3))

/-- Selection is judged again: TIM switches to a better slot at once (R40). -/
def reselect (s : State) : State :=
  match bestSlot s with
  | some id => if s.tim.selected = some id then s else switchTo id s
  | none => s

/-- The next measurement or bound computation takes a PRIORITY that was written (R65). -/
def reselectIfDue (s : State) : State :=
  if s.tim.reselectDue then reselect (modTim (fun t => { t with reselectDue := false }) s) else s

/-- TIM recomputes the bound (R47, R65). -/
def recompute (s : State) : State := refreshBound (reselectIfDue s)

/-- The selected slot has gone: another QUALIFIED slot is selected, or the state changes as R43 gives. -/
def loseSelected (s : State) : State :=
  match bestSlot s with
  | some id => switchTo id s
  | none =>
    let b := modelNow s
    let s1 := modTim (fun t => { t with selected := none }) s
    governUtc (if s.tim.servo = .locked ∨ s.tim.servo = .acquiring then enterHoldover b s1 else s1)

/-- A slot is lost, or disabled: REF_LOST, and what follows where it was selected (R39). -/
def loseSlot (id : Nat) (dest : RefSt) (s : State) : State :=
  let s1 := raise 0xD 0x03 id .device (modSlot id (fun r => { r with st := dest, missRun := 0 }) s)
  if s.tim.selected = some id then loseSelected s1 else s1

/-! ### Measurements (R33, R38, R41, R43) -/

/-- What an accepted measurement brings beside θ. -/
structure MeasInfo where
  mpd : Nat := 0
  interval : Nat := 1000000000 * 0x10000
  neighbour : Nat := 0
  sourceId : Nat := 0
  hops : Nat := 0
  upstreamSeq : Nat := 0
deriving DecidableEq, Repr

/-- A measurement of the selected slot moves the servo and the bound (R40, R41, R43, R45, R53). -/
def applySelected (id : Nat) (theta : Int) (interval : Nat) (s : State) : State :=
  let thresh := dfld s .TIM_LOCK_CFG 15 0 * 0x10000
  let count := max 1 (dfld s .TIM_LOCK_CFG 23 16)
  let s0 := modTim (fun t => { t with refId := id, reacquired := false }) s
  match s.tim.servo with
  | .freerun => s0
  | .acquiring =>
    let s1 := setModel .terms 0 (runServo theta interval s0)
    let run := if theta.natAbs ≤ thresh ∧ ¬ s.tim.oscFault then s.tim.lockRun + 1 else 0
    let s2 := modTim (fun t => { t with lockRun := run }) s1
    if count ≤ run then enterLocked s2 else s2
  | .locked => setModel .terms 0 (runServo theta interval s0)
  | .holdover =>
    if s.tim.oscFault then s0 else
      let cand := fracUnits theta.natAbs + slotBound s id
      let b := match modelNow s with
        | some x => min x cand
        | none => cand
      let s1 := setModel .base b s0
      let s2 := if theta.natAbs ≤ thresh then enterLocked s1
        else setServo .acquiring (modTim (fun t => { t with lockRun := 0 }) s1)
      runServo theta interval s2

/-- One measurement of a slot is judged (R33, R38, R39). -/
def judgeMeasurement (id : Nat) (theta : Int) (m : MeasInfo) (s : State) : State :=
  let r := slotOf s id
  if r.st = .disabled then s else
    let s0 := modSlot id (fun r => { r with neighbour := m.neighbour, mpd := m.mpd }) s
    let strict := s.tim.servo == .locked || s.tim.servo == .holdover
    let ok := !strict || (match boundNow s with
      | none => true
      | some b => decide (fracUnits theta.natAbs ≤ b + slotBound s0 id))
    if !ok then
      if r.st = .lost then s
      else loseSlot id .lost (raise 0xD 0x04 id .device (modSlot id (fun r => { r with inconsistent := true }) s))
    else
      let s1 := modSlot id (fun r => { r with
        lastTheta := theta, window := (theta.natAbs :: r.window).take 64, lastAccepted := s.elapsed, expectAt := s.elapsed * 0x10000,
        missRun := 0, interval := m.interval, sourceId := m.sourceId, hops := m.hops, upstreamSeq := m.upstreamSeq,
        st := if r.st = .lost then .qualifying else r.st, qualAt := if r.st = .lost then s.elapsed else r.qualAt }) s0
      let s2 := modTim (fun t => { t with measCount := t.measCount + 1 }) s1
      let s3 := setReg .TIM_REF_LAST_OFFSET_HI (id - 1) 0 (w32 (unsigned 64 theta / 2 ^ 32))
        (setReg .TIM_REF_LAST_OFFSET_LO (id - 1) 0 (w32 (unsigned 64 theta)) s2)
      if s.tim.selected = some id then applySelected id theta m.interval s3 else s3

/-- A measurement reaches TIM while time runs (R29, R33); a PRIORITY written since the last is in force with it (R65). -/
def measure (id : Nat) (theta : Int) (m : MeasInfo) (s : State) : State :=
  if timeRuns s then judgeMeasurement id theta m (reselectIfDue s) else s

end Sys2Proof.Machine
end

