-- ==== Sys2Proof/Machine/Time.lean ====
section
/-!
DEFINITION. The commands of the time unit (time_and_traceability).
-/
namespace Sys2Proof.Machine

/-- θ of a PTP measurement (R32), in units of 2^-16 ns, with CORRECTION in units of 2^-8 ns. -/
def ptpTheta (s : State) (slot : Nat) (m : PtpMeasurement) : Int × Int :=
  let corr := signed 32 (reg s .TIM_REF_CORRECTION (slot - 1) 0).toNat * 256
  let mpd := if m.peer then m.linkDelay else ((m.t2 - m.t1) + (m.t4 - m.t3) - m.cSync - m.cDelay) / 2
  (m.t1 + m.cSync + mpd + corr - m.t2, mpd)

/-- What a PTP slot's Announce data do to UTC and a pending leap (R50, R51). -/
def ptpUtc (slot : Nat) (m : PtpMeasurement) (s : State) : State :=
  let a : Announce := if m.leap61 then .month true else if m.leap59 then .month false else .none
  let s1 := modSlot slot (fun r => { r with utc := if m.utcValid then some m.utcOffset else none, announce := a }) s
  let s2 := if a = .none then announceLeap (.slot slot) .none s1 else s1
  if s.tim.selected = some slot then governUtc s2 else s2

/-- PTP_MEASUREMENT (R32, R33): discarded when its slot is disabled or its t2 is more than 100 ms old. -/
def execPtpMeasurement (slot : Nat) (m : PtpMeasurement) (s : State) : Outcome :=
  if slot < 1 ∨ 0x10 < slot ∨ (slotOf s slot).st = .disabled ∨ (nowFrac s : Int) - m.t2 > (100000000 * 0x10000 : Nat) then .next s
  else
    let th := ptpTheta s slot m
    let info : MeasInfo := { mpd := th.2.natAbs, interval := m.interval * 0x10000, sourceId := m.grandmaster, hops := m.stepsRemoved }
    .next (ptpUtc slot m (measure slot th.1 info s))

/-- Does PPS pin n take its time of day from TOD_RX (R36)? When both slots ask, PPS_IN1 measures phase only. -/
def ppsNmea (s : State) (pin : Nat) : Bool :=
  wbit (slotCfg s (0x11 + pin)) 0 && !(pin == 1 && wbit (slotCfg s 0x11) 0)

/-- s with a PPS input changed by g. -/
def modPpsIn (pin : Nat) (g : PpsIn → PpsIn) (s : State) : State :=
  modTim (fun t => { t with ppsIn := updAt pin g t.ppsIn }) s

/-- Half width of the acceptance window, units of 2^-16 ns (R34). -/
def ppsWindow (s : State) : Nat :=
  if s.tim.servo = .locked ∨ s.tim.servo = .holdover then
    (match boundNow s with
     | some b => 1000 * 0x10000 + b * 0x10000 / nsUnits
     | none => 100000000 * 0x10000)
  else 100000000 * 0x10000

/-- A labelled pulse: θ is its second minus the time it was seen at (R34, R35, R36). -/
def ppsMeasure (pin : Nat) (second edge : Nat) (s : State) : State :=
  measure (0x11 + pin) ((second * 1000000000 * 0x10000 : Nat) - (edge : Int)) {} s

/-- Is a label's TAI second exactly one greater than the previous label, where there is one (R35)? -/
def labelInOrder (u : PpsIn) (tai : Nat) : Bool :=
  match u.lastLabel with
  | some l => decide (tai = l + 1)
  | none => true

/-- In LOCKED and HOLDOVER a label differs from device time, as the pulse was seen at it, by no more than the acceptance window (R35). -/
def labelNear (s : State) (tai edge : Nat) : Bool :=
  !(s.tim.servo == .locked || s.tim.servo == .holdover)
    || decide (((tai * 1000000000 * 0x10000 : Nat) - (edge : Int)).natAbs ≤ ppsWindow s)

/-- A sentence's UTC second labels the pulse seen at edge, or is discarded with NMEA_ERROR and the pulse is not used (R35); the sentence is the
previous label of the next one either way (assumption 126). -/
def labelPulse (pin utc : Nat) (timely : Bool) (edge : Nat) (s : State) : State :=
  let u := s.tim.ppsIn.getD pin {}
  let tai := ((utc : Int) + s.tim.utcOffset).toNat
  let s1 := modPpsIn pin (fun u => { u with lastLabel := some tai }) s
  if timely && labelInOrder u tai && labelNear s tai edge then ppsMeasure pin tai edge s1 else raise 0xD 0x0B 0 .device s1

/-- The first edge in a window is used (R34): with NMEA set a LABEL 1 sentence that came at least 50 ms before labels it, and without it the
second nearest to the device's time does (R35, R36). -/
def useEdge (pin sec edge : Nat) (s : State) : State :=
  let u := s.tim.ppsIn.getD pin {}
  let s1 := modPpsIn pin (fun u => { u with usedSecond := some sec, edge := edge, edgeAt := some s.elapsed, nextLabel := none }) s
  if !ppsNmea s pin then ppsMeasure pin sec edge s1
  else match dfld s .TIM_TOD_CFG 26 26, u.nextLabel with
    | 1, some (utc, at_) => labelPulse pin utc (decide (at_ + 50000000 ≤ s.elapsed)) edge s1
    | _, _ => s1

/-- PPS_EDGE (R34): a level that lasts less than 100 ns, before the edge or after it, makes no edge; an edge of the configured polarity is
judged against the window round the second. -/
def execPpsEdge (pin : Nat) (edge : PinEdge) (s0 : State) : Outcome :=
  let u := s0.tim.ppsIn.getD pin {}
  let s := modPpsIn pin (fun u => { u with changedAt := some s0.elapsed }) s0
  let short := decide (edge.held < 100) || (match u.changedAt with
    | some t => decide (s0.elapsed < t + 100)
    | none => false)
  if 2 ≤ pin ∨ !timeRuns s0 then .next s0
  else if short ∨ (slotOf s (0x11 + pin)).st = .disabled ∨ edge.rising = wbit (reg s .TIM_PPS_IN_CFG pin 0) 0 then .next s
  else
    let corr := signed 32 (reg s .TIM_REF_CORRECTION (0x10 + pin) 0).toNat * 256
    let t := ((nowFrac s : Int) + corr).toNat
    let sec := (t + 500000000 * 0x10000) / (1000000000 * 0x10000)
    let err := ((sec * 1000000000 * 0x10000 : Nat) - (t : Int)).natAbs
    if ppsWindow s < err ∨ u.usedSecond = some sec then .next (raise 0xD 0x0A 0 .device s) else .next (useEdge pin sec t s)

/-- The UTC second that a sentence names, from 1970-01-01; the two digits of an RMC year are 2000 to 2099 (R35). -/
def nmeaUtc (n : Nmea) : Nat :=
  dayNo (if n.rmc then 2000 + n.year % 100 else n.year) n.month n.day * 86400 + n.hour * 3600 + n.minute * 60 + n.second

/-- The PPS input whose pulses sentences label (R35, R36). -/
def nmeaPin (s : State) : Option Nat := if ppsNmea s 0 then some 0 else if ppsNmea s 1 then some 1 else none

/-- NMEA_SENTENCE (R35): a sentence of the kind that RX_SENTENCE selects labels the preceding pulse 10 ms to 950 ms after it, or with LABEL 1
waits for the following one; or it is discarded with NMEA_ERROR. -/
def execNmeaSentence (sentence : Nmea) (s : State) : Outcome :=
  match nmeaPin s with
  | none => .next s
  | some pin =>
    if !timeRuns s ∨ sentence.rmc ≠ decide (dfld s .TIM_TOD_CFG 25 25 = 1) then .next s
    else if !sentence.checksumOk ∨ (sentence.rmc ∧ !sentence.statusA) then .next (raise 0xD 0x0B 0 .device s)
    else
      let utc := nmeaUtc sentence
      let u := s.tim.ppsIn.getD pin {}
      if dfld s .TIM_TOD_CFG 26 26 = 1 then .next (modPpsIn pin (fun u => { u with nextLabel := some (utc, s.elapsed) }) s)
      else
        let timely := match u.edgeAt with
          | some t => decide (t + 10000000 ≤ s.elapsed ∧ s.elapsed ≤ t + 950000000)
          | none => false
        .next (labelPulse pin utc timely u.edge s)

/-- MANUAL_COMMIT (R37): steps the time and enters HOLDOVER, or sets MANUAL_REFUSED in LOCKED. -/
def manualCommit (p : Path) (s : State) : State :=
  if !mayWrite s p .TIM_MANUAL_COMMIT ∨ !timeRuns s then s
  else if s.tim.servo = .locked then hwSet .TIM_STATUS 0 0 6 s
  else
    let t := pair64 s .TIM_MANUAL_TIME_LO .TIM_MANUAL_TIME_HI 0 0
    let b := (reg s .TIM_MANUAL_BOUND 0 0).toNat * nsUnits
    let s1 := modTim (fun u => { u with refId := 0x15 }) (stepTime (t * 2 ^ 48) s)
    enterHoldover (some b) s1

/-- REACQUIRE (R43, R478): LOCKED or HOLDOVER goes to ACQUIRING; the bound model stays in force. -/
def reacquire (p : Path) (s : State) : State :=
  if mayWrite s p .TIM_CTRL && (s.tim.servo == .locked || s.tim.servo == .holdover) then
    setServo .acquiring (modTim (fun t => { t with lockRun := 0, reacquired := true }) s)
  else s

/-- May a PPS slot qualify now (R35, R36)? -/
def ppsMayQualify (s : State) (slot : Nat) : Bool :=
  if isPps slot then
    if ppsNmea s (slot - 0x11) then s.tim.utcValid
    else s.tim.servo != .freerun && (match boundNow s with
      | some b => decide (b < 400000000 * nsUnits)
      | none => false)
  else true

/-- REF_QUALIFIED (R38, R39, R40): QUAL_TIME has passed without a run of missed intervals; 0, outside the field's range, acts as 1
(assumption 127). -/
def execRefQualified (slot : Nat) (s : State) : Outcome :=
  let r := slotOf s slot
  let s1 := advanceTo (r.qualAt + max 1 (fld (slotCfg s slot) 23 16) * 1000000000) s
  if r.st = .qualifying ∧ timeRuns s ∧ ppsMayQualify s1 slot then
    .next (reselect (modSlot slot (fun r => { r with st := .qualified, inconsistent := false }) s1))
  else .next s

/-- MISSED_INTERVAL (R38, R39): an expected interval has passed with no accepted measurement; a MISS_LIMIT of 0, outside the field's range,
acts as 1 (assumption 127). -/
def execMissedInterval (slot : Nat) (s : State) : Outcome :=
  let r := slotOf s slot
  if (r.st = .qualifying ∨ r.st = .qualified) ∧ timeRuns s then
    let due := r.expectAt + r.interval
    let s0 := advanceTo (ceilDiv due 0x10000) s
    let s1 := bump .TIM_REF_MISSES (slot - 1) 0 1 (modSlot slot (fun r => { r with missRun := r.missRun + 1, expectAt := due }) s0)
    if max 1 (fld (slotCfg s slot) 15 8) ≤ r.missRun + 1 then .next (loseSlot slot .lost s1) else .next s1
  else .next s

/-- The expected interval of a slot before its first measurement, 2^-16 ns (R38): 1/1,024 s for Akzal, 1 s for PPS, and 1 s for PTP until a
measurement tells the port's Sync interval (assumption 127). -/
def firstInterval (slot : Nat) : Nat := if isAkz slot then 64000000000 else 65536000000000

/-- A write of TIM_REF_CFG (R38, R39, R65): ENABLE acts at once, a PRIORITY at the next measurement or bound computation; NMEA is reserved but
in PPS slots. -/
def refCfgWrite (p : Path) (slot : Nat) (v : Word) (s : State) : State :=
  if slot < 1 ∨ 0x14 < slot ∨ !mayWrite s p .TIM_REF_CFG then s
  else
    let v' := if isPps slot then v else setFld v 0 0 0
    let s1 := setReg .TIM_REF_CFG (slot - 1) 0 (applyWrite .TIM_REF_CFG (slotCfg s slot) v') s
    let r := slotOf s slot
    if wbit v 31 then
      if r.st = .disabled then
        modSlot slot (fun _ => { st := .qualifying, qualAt := s.elapsed, expectAt := s.elapsed * 0x10000, interval := firstInterval slot }) s1
      else modTim (fun t => { t with reselectDue := true }) s1
    else if r.st = .disabled then s1
    else modSlot slot (fun r => { r with inconsistent := false }) (loseSlot slot .disabled s1)

/-- BOUND_RECOMPUTE (R47): once the 256 ns of the value in force have passed. -/
def execBoundRecompute (s : State) : Outcome :=
  if timeRuns s then .next (recompute (advanceTo (s.tim.bGrowAt + 256) s)) else .next s

/-- A write of TIM_BOUND_ALARM (R477): one that leaves the bound above the new limit counts as a crossing. -/
def boundAlarmWrite (p : Path) (v : Word) (s : State) : State :=
  if !mayWrite s p .TIM_BOUND_ALARM then s
  else
    let s1 := setReg .TIM_BOUND_ALARM 0 0 v s
    if aboveAlarm v.toNat (boundNow s) then boundAlarm s1 else s1

/-- Time is discarded (R29): no bound holds, and the counter stands at zero until time starts again. -/
def discardTime (s : State) : State :=
  modTim (fun t => { t with lost := true, t48 := 0, model := .unknown, bound := none, boundBefore := none, terms := [] }) s

/-- Time that was discarded starts again at zero, in FREERUN, with the bound UNKNOWN (R29, R43, R477). The registers of TIM are Cairn state:
enabled slots begin to qualify again. -/
def beginTime (s : State) : State :=
  let was := s.tim.servo
  let s1 := modTim (fun t => { ({} : Tim) with
    slots := t.slots.map (fun e => (e.1, if e.2.st = .disabled then e.2 else
      { ({} : RefSlot) with st := .qualifying, qualAt := s.elapsed, expectAt := s.elapsed * 0x10000, interval := e.2.interval })),
    pages := t.pages.map (fun e => (e.1, { e.2 with forced := true, line := none })), oscFault := t.oscFault, tosc := t.tosc,
    ppsOut := t.ppsOut.map (fun u => { u with judged := 0, sentenceAt := none }),
    bGrowAt := s.elapsed, boundChangedAt := s.elapsed, periodicAt := s.elapsed }) (setLeap none s)
  let s2 := governUtc (boundAlarm s1)
  if was = .freerun then s2 else trace 2 (raise 0xD 0x01 0 .device s2)

/-- A clock has returned, or the restart has come: time that was discarded starts again, where power and a clock are present (R29). -/
def resumeTime (s : State) : State :=
  if s.tim.lost ∧ (s.tim.tosc ∨ s.cai.sysclk) ∧ s.cai.mode ≠ .off ∧ ¬ s.cai.porstLow ∧ s.cai.fatalRestartAt = none then beginTime s else s

/-- OSC_FAULT (R53): TIM changes over to SYSCLK_IN; with both clocks stopped time is lost (R29). -/
def execOscFault (s : State) : Outcome :=
  if !s.tim.tosc then .next s
  else
    let s1 := modTim (fun t => { t with tosc := false, oscFault := true }) (growNow s)
    let s2 := raise 0xD 0x07 0 .device s1
    if !s.cai.sysclk then .next (discardTime s2)
    else if s.tim.servo = .locked then .next (trace 2 (enterHoldover (modelNow s) s2))
    else .next (trace 2 (setBound (modelNext s2) (modTim (fun t => { t with lockRun := 0 }) s2)))

/-- OSC_RETURN (R53): TIM changes back, and the bound goes on from its accumulated value; time that was lost starts again (R29). Not where the
strap says that no oscillator is fitted (R76). -/
def execOscReturn (s : State) : Outcome :=
  if s.tim.tosc ∨ bits s.cai.straps.toNat 1 0 = 3 then .next s
  else
    let s1 := modTim (fun t => { t with tosc := true, oscFault := false, lockRun := 0 }) (growNow s)
    if s.tim.lost then .next (resumeTime s1) else .next (trace 2 (setBound (modelNext s1) s1))

/-- A write of TIM_UTC (R50, R51): sets UTC_OFFSET, announces or withdraws a leap. -/
def utcWrite (p : Path) (v : Word) (s : State) : State :=
  if !mayWrite s p .TIM_UTC then s
  else
    let s1 := setReg .TIM_UTC 0 0 (applyWrite .TIM_UTC (reg s .TIM_UTC 0 0) v) s
    if utcFromRegister s then registerUtc v s1
    else if registerLeap v = .none then announceLeap .utcRegister .none s1 else s1

/-- A write of half of TIM_LEAP_AT (R51): moves a pending leap announced through TIM_UTC, and has no other effect. -/
def leapAtWrite (p : Path) (high : Bool) (v : Word) (s : State) : State :=
  match s.tim.leap with
  | some l =>
    if mayWrite s p .TIM_LEAP_AT_LO && l.src == .utcRegister then
      let a := if high then l.at_ % 2 ^ 32 + 2 ^ 32 * v.toNat else l.at_ / 2 ^ 32 * 2 ^ 32 + v.toNat
      setLeap (some { l with at_ := a }) s
    else s
  | none => s

/-- LEAP_APPLIED (R51): the leap tick. -/
def execLeapApplied (s : State) : Outcome :=
  match s.tim.leap with
  | some l =>
    let s1 := modTim (fun t => { t with utcOffset := l.offset }) (advanceTai l.at_ s)
    let s2 := setLeap none s1
    let s3 := if l.src = .utcRegister then
      setReg .TIM_UTC 0 0 (setFld (setFld (reg s .TIM_UTC 0 0) 15 0 (unsigned 16 l.offset)) 18 17 0) s2 else s2
    .next (forcePages false (trace 2 (raise 0xD 0x08 0 .device s3)))
  | none => .next s

/-! ### Timing pins (R59, R61) -/

/-- PERIOD of a PPS output, ns (R59). -/
def ppsPeriod (c : Word) : Nat :=
  match fld c 27 24 with
  | 1 => 100000000
  | 2 => 10000000
  | 3 => 1000000
  | _ => 1000000000

/-- High time, ns: WIDTH between 1 and 500,000 µs, or half the period when that is not shorter (R59). -/
def ppsWidth (c : Word) : Nat :=
  let w := max 1 (min 500000 (fld c 23 0)) * 1000
  if ppsPeriod c ≤ w then ppsPeriod c / 2 else w

/-- The OFFSET of a pin, ±500 ms (R59). -/
def ppsOffset (s : State) (pin : Nat) : Int :=
  max (-500000000) (min 500000000 (signed 32 (reg s .TIM_PPS_OUT_OFFSET pin 0).toNat))

/-- PPS_OUT_EDGE (R59): device time advances through a PERIOD boundary plus OFFSET, the next one after the time at which the pin was
last judged. -/
def execPpsOutEdge (pin : Nat) (s0 : State) : Outcome :=
  let c := reg s0 .TIM_PPS_OUT_CFG pin 0
  let u := s0.tim.ppsOut.getD pin {}
  let per := (ppsPeriod c : Int)
  let off := ppsOffset s0 pin
  if 2 ≤ pin ∨ !timeRuns s0 then .next s0
  else
    -- a boundary passed since the pin was judged, or else the next one
    let passed := ((now s0 : Int) - off) / per
    let k := if (u.judged : Int) < passed * per + off then passed else passed + 1
    let s := advanceTai (k * per + off).toNat s0
    let s1 := modPpsOut pin (fun u => { u with judged := now s }) s
    if !wbit c 31 || squelched s c || u.high then .next s1
    else
      let second := if (k * per) % 1000000000 = 0 then some ((k * per).toNat / 1000000000) else none
      let s2 := modPpsOut pin (fun u => { u with
        high := true, fallAt := s.elapsed + ppsWidth c,
        sentenceAt := if pin = 0 ∧ second.isSome then some (s.elapsed + 1000000) else u.sentenceAt,
        second := second.getD u.second }) s1
      .next (emit (.pin (.ppsOut pin) .high) s2)

/-- PPS_OUT_FALL (R59): WIDTH of elapsed ticks ends the high time. -/
def execPpsOutFall (pin : Nat) (s : State) : Outcome :=
  let u := s.tim.ppsOut.getD pin {}
  if u.high ∧ timeRuns s then
    .next (emit (.pin (.ppsOut pin) .low) (modPpsOut pin (fun u => { u with high := false }) (advanceTo u.fallAt s)))
  else .next s

/-- The decimal digits of a number, ASCII, n of them. -/
def decimal : Nat → Nat → Bytes
  | 0, _ => []
  | n + 1, v => decimal n (v / 10) ++ [BitVec.ofNat 8 (0x30 + v % 10)]

/-- A hexadecimal digit, ASCII. -/
def hexDigit (v : Nat) : Byte := BitVec.ofNat 8 (if v < 10 then 0x30 + v else 0x37 + v)

/-- The UTC date and time of a TAI second: year, month, day and second of the day, 86,400 within an inserted leap second (R51, R61). A second
at or after a pending leap takes the offset that the leap brings. -/
def utcOf (s : State) (tai : Nat) : Nat × Nat × Nat × Nat :=
  let off := match s.tim.leap with
    | some l => if l.at_ ≤ tai * 1000000000 then l.offset else s.tim.utcOffset
    | none => s.tim.utcOffset
  let utc := ((tai : Int) - off).toNat
  let inLeap := match s.tim.leap with
    | some l => decide (s.tim.utcOffset < l.offset ∧ tai * 1000000000 + 1000000000 = l.at_)
    | none => false
  let day := utc / 86400 - b2n inLeap
  let c := civil day
  (c.1, c.2.1, c.2.2, utc - day * 86400)

/-- The characters between $ and * of a ZDA sentence: talker II, zone 00,00, and 60 in the seconds field of an inserted leap second (R61). -/
def zdaBody (year month day sod : Nat) : Bytes :=
  let leap := decide (86400 ≤ sod)
  let m := if leap then 86399 else sod
  [0x49, 0x49, 0x5A, 0x44, 0x41, 0x2C] ++ decimal 2 (m / 3600) ++ decimal 2 (m / 60 % 60) ++ decimal 2 (if leap then 60 else m % 60)
    ++ [0x2E, 0x30, 0x30, 0x2C] ++ decimal 2 day ++ [0x2C] ++ decimal 2 month ++ [0x2C] ++ decimal 4 year
    ++ [0x2C, 0x30, 0x30, 0x2C, 0x30, 0x30]

/-- A sentence: $, its characters, *, the exclusive or of them in two hexadecimal digits, carriage return and line feed (R61). -/
def nmeaText (body : Bytes) : Bytes :=
  let sum := (body.foldl (· ^^^ ·) 0).toNat
  [0x24] ++ body ++ [0x2A, hexDigit (sum / 16), hexDigit (sum % 16), 0x0D, 0x0A]

/-- The bits of a character on the line: a start bit, 8 data bits with the least significant first, no parity, 1 stop bit (R61). -/
def charBits (b : Byte) : List Bool := [false] ++ (List.range 8).map b.toNat.testBit ++ [true]

/-- BAUD, within 9,600 to 921,600 (R61, assumption 127). -/
def todBaud (s : State) : Nat := max 9600 (min 921600 (dfld s .TIM_TOD_CFG 23 0))

/-- TOD_TX_SENTENCE (R61): 1 ms after a PPS_OUT0 pulse that started a second, the ZDA sentence that labels it in UTC. -/
def execTodTxSentence (s : State) : Outcome :=
  let u := s.tim.ppsOut.getD 0 {}
  match u.sentenceAt with
  | some t =>
    if !timeRuns s then .next s
    else
      let s1 := modPpsOut 0 (fun u => { u with sentenceAt := none }) (advanceTo t s)
      if dfld s .TIM_TOD_CFG 24 24 = 1 then
        let d := utcOf s u.second
        .next (emit (.serial (todBaud s) ((nmeaText (zdaBody d.1 d.2.1 d.2.2.1 d.2.2.2)).flatMap charBits)) s1)
      else .next s1
  | none => .next s

/-- TRACE_PERIODIC (R62): every TRACE_PERIOD seconds; 0 acts as 1 (assumption 124). -/
def execTracePeriodic (s : State) : Outcome :=
  let s1 := advanceTo (s.tim.periodicAt + max 1 (dfld s .TIM_TRACE_CFG 15 0) * 1000000000) s
  if timeRuns s then .next (trace 1 (modTim (fun t => { t with periodicAt := s1.elapsed }) s1)) else .next s

/-- TIM_SNAP (R65, R470): time and bound into the accessor's own snapshot registers. -/
def timSnap (p : Path) (s : State) : State :=
  if !mayWrite s p .TIM_SNAP then s
  else
    let h := pathCode p
    let ns := nowFrac s / 0x10000
    let sec := ns / 1000000000
    setReg .TIM_SNAP_SEC_LO 0 h (w32 sec) (setReg .TIM_SNAP_SEC_HI 0 h (w32 (bits (sec / 2 ^ 32) 15 0))
      (setReg .TIM_SNAP_NS 0 h (w32 (ns % 1000000000)) (setReg .TIM_SNAP_FRAC 0 h (w32 (nowFrac s % 0x10000))
        (setReg .TIM_SNAP_BOUND 0 h (w32 (bound32 s)) s))))

/-! ### Time pages (R55 to R58) -/

/-- The page registers of a function: LO and HI (R55). -/
def pageAddr (s : State) (f : Fn) : Bool × Nat :=
  let lo := if isVf f then reg s .TIM_VF_PAGE_LO 0 (fnCode f) else reg s .TIM_PF_PAGE_LO 0 (fnCode f)
  let hi := if isVf f then reg s .TIM_VF_PAGE_HI 0 (fnCode f) else reg s .TIM_PF_PAGE_HI 0 (fnCode f)
  (wbit lo 0, fld lo 31 6 * 64 + 2 ^ 32 * hi.toNat)

/-- TIM_PAGE_PERIOD, µs, between 125 and 1,000,000 (R65). -/
def pagePeriod (s : State) : Nat := max 125 (min 1000000 (reg s .TIM_PAGE_PERIOD 0 0).toNat)

/-- BOUND_RATE, units of 10^-15: it covers the growth of the model for two periods (R58), saturating where its 32 bits cannot hold that
(assumption 127). -/
def boundRate (s : State) : Nat :=
  match s.tim.model with
  | .unknown => 0xFFFFFFFF
  | _ =>
    let span := 2 * pagePeriod s * 1000
    min 0xFFFFFFFE (ceilDiv (growth s s.elapsed (s.elapsed + span)) (2 * span) + 1)

/-- Bytes 4 to 63 of a page (R57). -/
def pageBody (s : State) (f : Fn) : Bytes :=
  let pg := mget ({} : PageSt) s.tim.pages (fnCode f)
  let flags := b2n s.tim.utcValid + 2 * b2n s.tim.leap.isSome + 4 * b2n s.tim.oscFault + 8 * b2n pg.stepped
    + 16 * b2n (fnSt s f).mig.foreign
  [1, BitVec.ofNat 8 s.tim.servo.code, BitVec.ofNat 8 s.tim.refId, BitVec.ofNat 8 flags]
    ++ leBytes 8 (now s) ++ leBytes 4 (bound32 s) ++ leBytes 4 (boundRate s)
    ++ leBytes 2 (unsigned 16 s.tim.utcOffset) ++ [0, 0] ++ leBytes 4 s.tim.stepCount
    ++ leBytes 8 ((s.tim.leap.map Leap.at_).getD 0)
    ++ leBytes 8 ((s.tim.leap.map (fun l => unsigned 16 l.offset)).getD 0)
    ++ leBytes 8 (s.tim.traceNext - 1) ++ leBytes 8 (Config.serial % 2 ^ 64)

/-- Bus Master Enable of a function: bit 2 of its Command register, and for a VF that of its PF too (R120, R140). -/
def busMaster (s : State) (f : Fn) : Bool :=
  let bit (c : Nat) : Bool := wbit (mget 0 s.hif.cfg (c * 1024 + 1)) 2
  match f with
  | .pf i => bit (fnCode (.pf i))
  | .vf p n => bit (fnCode (.vf p n)) && bit (fnCode (.pf p))
  | .fw => true

/-- TIME_PAGE_WRITE (R56, R57): three posted writes, when due, to an enabled function whose Bus Master Enable is set, whose link is up and
which is not frozen. -/
def execTimePageWrite (f : Fn) (s0 : State) : Outcome :=
  let pg := mget ({} : PageSt) s0.tim.pages (fnCode f)
  let s := if pg.forced then s0 else advanceTo (pg.lastWrite + pagePeriod s0 * 1000) s0
  let pa := pageAddr s f
  if timeRuns s && pa.1 && fnExists s f && busMaster s f && linkUp s f && !(fnSt s f).silent && (fnSt s f).mig.st == .running then
    let odd := (pg.seq + 1) % 2 ^ 32
    let even := (pg.seq + 2) % 2 ^ 32
    let s1 := hostWrite f none pa.2 (leBytes 4 odd) false s
    let s2 := hostWrite f none (pa.2 + 4) (pageBody s f) false s1
    let s3 := hostWrite f none pa.2 (leBytes 4 even) false s2
    let s4 := modFn f (fun r => { r with mig := { r.mig with foreign := false } }) s3
    let written : PageSt :=
      { seq := even, lastWrite := s.elapsed, anchor := now s, line := (boundNow s).map (fun _ => (bound32 s, boundRate s)) }
    .next (modTim (fun t => { t with pages := mset {} t.pages (fnCode f) written }) s4)
  else .next s0

end Sys2Proof.Machine
end

