-- ==== Sys2Proof/Machine/Rings.lean ====
section
/-!
DEFINITION. Doorbells, fetching, completions, events, interrupts and queue set-up (rings_and_doorbells).
-/
namespace Sys2Proof.Machine

/-! ### Ownership, reach and silence -/

/-- MSI-X vectors granted to a function (R122, R185). -/
def vectorsOf (s : State) : Fn → Nat
  | .pf i => (pfSet s i).vectors
  | .vf p n => ((fnSt s (.vf p n)).grant.map Grant.vectors).getD 0
  | .fw => 0

/-- Is an index of a PF's pool, or an EQ of it, granted to one of its VFs (R184, R185)? -/
def grantedAway (s : State) (pf : Nat) (isEq : Bool) (d : Nat) : Bool :=
  s.hif.fns.any (fun e => decide (0x4000 + at_ 12 pf ≤ e.1 ∧ e.1 < 0x4000 + at_ 12 pf + 4096) &&
    (match e.2.grant with
     | some g => if isEq then decide (g.eqBase ≤ d ∧ d < g.eqBase + g.eqs)
        else decide (g.base ≤ d ∧ d < g.base + max g.sqs g.cqs)
     | none => false))

/-- Does a queue number belong to a function (R156, R183 to R185)? -/
def ownsQueue (s : State) (f : Fn) (q : Nat) : Bool :=
  match f with
  | .pf i =>
    let g := pfSet s i
    match qKind f q with
    | some .eq => let e := q - 262144; decide (g.eqBase ≤ e ∧ e < g.eqBase + g.eqCount) && !grantedAway s i true e
    | some _ => let d := q % 131072; decide (g.qBase ≤ d ∧ d < g.qBase + g.qCount) && !grantedAway s i false d
    | none => false
  | .vf p n =>
    match (fnSt s (.vf p n)).grant with
    | some g => decide (q < g.sqs ∨ 1024 ≤ q ∧ q < 1024 + g.cqs ∨ 1984 ≤ q ∧ q < 1984 + g.eqs)
    | none => false
  | .fw => (qKind f q).isSome

/-- Requests of a function that hold a slot or wait for one (R131, R140). -/
def outstanding (s : State) (f : Fn) : Nat :=
  (s.hif.slots.filter (fun e => e.2.req.fn == f && (e.2.st == .outstanding || e.2.st == .endedEarly))).length

/-- QUIESCED of a function: no request outstanding (R140, R154). -/
def quiesced (s : State) (f : Fn) : Bool := outstanding s f == 0

/-- A queue of a VF that is frozen, quiesced or under FLR raises no QM event (R182). -/
def qmMuted (s : State) (f : Fn) : Bool :=
  isVf f && ((fnSt s f).mig.st != .running || (fnSt s f).silent || (fnSt s f).flrAt.isSome)

/-- A QM event of a queue (R182). -/
def qmEvent (f : Fn) (q code : Nat) (sc : Scope) (s : State) : State :=
  if qmMuted s f then s else raise 0x3 code q sc s

/-- Where an event of a queue goes (R175): one that concerns a CQ to the EQ of its TARGET. -/
def queueScope (f : Fn) (q : Nat) : Scope := if qKind f q = some .cq then .cq f q else .function f

/-- A queue enters ERROR (R181). -/
def queueError (f : Fn) (q : Nat) (s : State) : State :=
  qmEvent f q 0x03 (queueScope f q) (modQueue f q (fun u => { u with st := .error }) s)

/-! ### Interrupts (R176) -/

/-- An MSI-X table entry: masked at reset, as the PCIe base specification gives. -/
def msixEntry (s : State) (f : Fn) (v : Nat) : Nat := mget (2 ^ 96) (fnSt s f).msix v

/-- MSI-X Enable and Function Mask of a function (R122). -/
def msixOpen (s : State) (f : Fn) : Bool :=
  let c := mget 0 s.hif.cfg (fnCode f * 1024 + 40)
  wbit c 31 && !wbit c 30

/-- May a function send MSI-X messages now (R140, R176, R193)? -/
def mayInterrupt (s : State) (f : Fn) : Bool :=
  msixOpen s f && busMaster s f && linkUp s f && !(fnSt s f).silent && (fnSt s f).mig.st == .running

/-- A vector fires: its message is sent, or its PBA bit is set (R140, R176, R193). -/
def sendVector (f : Fn) (v : Nat) (s : State) : State :=
  let e := msixEntry s f v
  if mayInterrupt s f && !bitOf e 96 then
    match tlpFor s f (bits e 63 0) false with
    | some t => emit (.msix f v (bits e 63 0) (bits e 95 64) t) s
    | none => s
  else modFn f (fun r => { r with pba := if r.pba.contains v then r.pba else (r.pba.filter (· < v)) ++ [v] ++ (r.pba.filter (v < ·)) }) s

/-- Pending vectors that may now be sent are sent (R140, R176, R196). -/
def flushPba (f : Fn) (s : State) : State :=
  if mayInterrupt s f then
    let go := (fnSt s f).pba.filter (fun v => !bitOf (msixEntry s f v) 96)
    foldS (fun v s => sendVector f v s) go (modFn f (fun r => { r with pba := r.pba.filter (fun v => !go.contains v) }) s)
  else s

/-- The moderation settings of a queue in its register, which its next entry takes (R177). -/
def moderation (s : State) (f : Fn) (q : Nat) : Word := reg s .QM_CQ_MODERATION q (fnCode f)

/-- Send a queue's vector: the unsignalled count resets, and ARM clears in ARMED mode (R176). -/
def signal (f : Fn) (q : Nat) (s : State) : State :=
  sendVector f (fld (queue s f q).moder 10 0)
    (modQueue f q (fun u => { u with unsignalled := 0, armed := if fld u.cfg 27 26 = 2 then false else u.armed }) s)

/-- The device sends the vector when the conditions of R176 hold. -/
def maybeSignal (f : Fn) (q : Nat) (s : State) : State :=
  let u := queue s f q
  let m := u.moder
  let mode := fld u.cfg 27 26
  let due := decide (0 < u.unsignalled) &&
    (decide (max 1 (fld m 23 16) ≤ u.unsignalled) || decide (u.oldest + fld m 31 24 * 1000 ≤ s.elapsed))
  if due && (mode == 1 || (mode == 2 && u.armed)) then signal f q s else s

/-- MODERATION_TIMER (R176): TIMER µs have passed since the oldest unsignalled entry. -/
def execModerationTimer (f : Fn) (q : Nat) (s : State) : Outcome :=
  let u := queue s f q
  if u.unsignalled = 0 then .next s
  else .next (maybeSignal f q (advanceTo (u.oldest + fld u.moder 31 24 * 1000) s))

/-- One entry is written to the ring at P: the bytes, P moves, and the entry is unsignalled, under the moderation settings as they now stand
(R158, R176, R177). -/
def writeRing (f : Fn) (q size : Nat) (bytes : Bytes) (s : State) : State :=
  let u := queue s f q
  let a := u.base + (u.p.toNat % ringSize u) * size
  let s1 := hostWrite f (qPasid u) a bytes false s
  maybeSignal f q (modQueue f q (fun u => { u with
    p := u.p + 1, oldest := if u.unsignalled = 0 then s.elapsed else u.oldest, unsignalled := u.unsignalled + 1, moder := moderation s f q }) s1)

/-- Is a CQ or EQ full (R158)? -/
def ringFull (u : Queue) : Bool := decide (ringSize u ≤ (u.p - u.c).toNat)

/-! ### Completions (R168 to R172) -/

/-- The bytes of a CQ entry at the counter its phase follows (R159, R168). -/
def cqeBytes (u : Queue) (e : Cqe) : Bytes :=
  [BitVec.ofNat 8 e.status, BitVec.ofNat 8 (b2n (phaseOf u u.p) + 2 * b2n e.batch)] ++ leBytes 2 e.tag ++ leBytes 2 e.sq ++ leBytes 2 e.covered
    ++ leBytes 8 e.ts ++ leBytes 2 e.bound ++ [BitVec.ofNat 8 (bits e.sq 16 16)] ++ leBytes 13 e.extra

/-- Write completions to a CQ while it has room; what is left over, in order. -/
def writeCqes (f : Fn) (q : Nat) : List Cqe → State → State × List Cqe
  | [], s => (s, [])
  | e :: t, s =>
    let u := queue s f q
    if ringFull u || u.st == .error || frozen s f then (s, e :: t)
    else writeCqes f q t (writeRing f q 32 (cqeBytes u e) s)

/-- The SQs of a function that complete to a CQ. -/
def sqsOf (s : State) (f : Fn) (cq : Nat) : List Nat :=
  ((s.qm.queues.filter (fun e => decide (e.1 / 2 ^ 20 = fnCode f) && qKind f (e.1 % 2 ^ 20) == some .sq && created e.2 && qTarget e.2 == cq)).map
    (fun e => e.1 % 2 ^ 20))

/-- The SQs of a CQ, and the CQ, change between ACTIVE and BLOCKED (R171, R172). -/
def setBlocked (f : Fn) (cq : Nat) (block : Bool) (s : State) : State :=
  let g (u : Queue) : Queue :=
    if block then (if u.st = .active then { u with st := .blocked } else u)
    else (if u.st = .blocked then { u with st := .active } else u)
  foldS (fun q s => modQueue f q g s) (cq :: sqsOf s f cq) s

/-- Hand completions to a CQ that may be full: the ring first, then the overflow of 64, then waiting (R171, R172). -/
def settle (f : Fn) (cq : Nat) (all : List Cqe) (s : State) : State :=
  let before := (queue s f cq).overflow.length
  let r := writeCqes f cq all s
  let s1 := modQueue f cq (fun u => { u with overflow := r.2.take 64, waiting := r.2.drop 64 }) r.1
  if r.2.isEmpty then setBlocked f cq false s1
  else if 64 ≤ r.2.length ∧ before < 64 then
    qmEvent f cq 0x01 (.cq f cq) (setBlocked f cq true s1)
  else s1

/-- A due completion goes to its CQ (R171). -/
def postCqe (f : Fn) (cq : Nat) (e : Cqe) (s : State) : State :=
  let u := queue s f cq
  settle f cq (u.overflow ++ u.waiting ++ [e]) s

/-- TAG of an entry (R164). -/
def tagOf (w : Work) : Nat := entryField w.entry 2 2

/-- TIMESTAMP and BOUND of the covered entry that finished latest (R168). -/
def latestDone (ws : List Work) : Nat × Nat :=
  (ws.foldl (fun (a : Nat × Nat × Nat) w => match w.done with
    | some d => if a.1 ≤ d.order then (d.order, d.ts, d.bound) else a
    | none => a) (0, 0, 0)).2

/-- The next completion of an SQ that is due, and the entries it covers (R169). -/
def dueCompletion (q : Nat) (ws : List Work) : Option (Cqe × Nat) :=
  let ok (w : Work) : Bool := match w.done with
    | some d => d.status == 0
    | none => false
  let plain (w : Work) : Bool := ok w && !bitOf (entryField w.entry 1 1) 1 && w.cls != 1
  let pre := ws.takeWhile plain
  let group (l : List Work) (last : Work) (st : Nat) (extra : Nat) (batch : Bool) : Cqe :=
    let t := latestDone l
    { status := st, batch := batch, tag := tagOf last, sq := q, covered := l.length, ts := t.1, bound := t.2, extra := extra }
  match ws.drop pre.length with
  | [] => none
  | w :: _ =>
    match w.done with
    | none => none
    | some d =>
      if d.status = 0 ∧ w.cls ≠ 1 then
        some (group (pre ++ [w]) w 0 d.extra true, pre.length + 1)
      else match pre.getLast? with
        | some l => some (group pre l 0 ((l.done.map Done.extra).getD 0) true, pre.length)
        | none =>
          let tag := if d.status = 0x06 then w.ctr.toNat else tagOf w
          some ({ status := d.status, batch := false, tag := tag, sq := q, covered := 1, ts := d.ts, bound := d.bound, extra := d.extra }, 1)

/-- COMPLETION_WRITE (R169, R171, R181): the next due completion of an SQ is written to its CQ, or placed in overflow. -/
def execCompletionWrite (f : Fn) (q : Nat) (res : HostWriteEnd) (s : State) : Outcome :=
  let u := queue s f q
  if (fnSt s f).silent ∨ frozen s f ∨ qKind f q ≠ some .sq then .next s
  else match dueCompletion q u.work with
  | none => .next s
  | some (e, n) =>
    let s1 := modQueue f q (fun u => { u with work := u.work.drop n }) s
    let cq := qTarget u
    match res with
    | .landed => .next (postCqe f cq e s1)
    | .failed =>
      let c := queue s1 f cq
      if ringFull c ∨ !c.overflow.isEmpty then .next (postCqe f cq e s1)
      else .next (postCqe f cq e (queueError f cq s1))

/-! ### Doorbells (R161 to R163) -/

/-- Are a function's BAR registers and doorbells reachable (R100, R126)? -/
def barOpen (s : State) (f : Fn) : Bool :=
  fnExists s f && (fnSt s f).ready && linkUp s f &&
    (match f with
     | .pf i => wbit (mget 0 s.hif.cfg (fnCode (.pf i) * 1024 + 1)) 1
     | .vf p _ => wbit (mget 0 s.hif.cfg (fnCode (.pf p) * 1024 + 94)) 3
     | .fw => true)

/-- An access that R4 rejects is recorded (R4, R154): the first since ERR was last cleared; later ones are only counted. -/
def accessError (f : Fn) (off : Nat) (write : Bool) (s : State) : State :=
  let pf := Fn.pf (fnPf f)
  let h := fnCode pf
  if f = .fw then s else
  let s1 := if wbit (reg s .HIF_ACCESS_ERR 0 h) 0 then s else
    setReg .HIF_ACCESS_ERR_OFFSET 0 h (w32 (bits off 24 0))
      (setReg .HIF_ACCESS_ERR 0 h (w32 (match f with
        | .vf _ n => at_ 20 n + at_ 19 1 + at_ 18 (b2n write)
        | _ => at_ 18 (b2n write))) s)
  raise 0x2 0x08 (fnCode f) (.function pf) (hwSet .HIF_ACCESS_ERR 0 h 0 s1)

/-- Event sources whose entries the driver's consumer counter has passed clear; those counted meanwhile become pending again (R174). -/
def passEvents (f : Fn) (q : Nat) (old new : BitVec 16) (s : State) : State :=
  let passed (e : EvSrc) : Bool := e.fn == f && e.eq == some q && (match e.written with
    | some k => decide ((k - old).toNat < (new - old).toNat)
    | none => false)
  let again := (s.qm.events.filter (fun e => passed e && decide (0 < e.more))).map (fun e =>
    { e with written := none, count := e.more, ts := e.moreTs, bound := e.moreBound, more := 0, moreTs := 0, moreBound := 0 })
  -- entries that wait are written in the order of their first occurrence
  let put (l : List EvSrc) (e : EvSrc) : List EvSrc :=
    let before (x : EvSrc) : Bool := x.written.isSome || decide (x.ts ≤ e.ts)
    l.takeWhile before ++ e :: l.dropWhile before
  modQm (fun m => { m with events := again.foldl put (m.events.filter (fun e => !passed e)) }) s

/-- ARM of a CQ or EQ (R161, R176). -/
def applyArm (f : Fn) (q : Nat) (arm : Bool) (s : State) : State :=
  if !arm then s else
    let s1 := modQueue f q (fun u => { u with armed := true }) s
    let u := queue s1 f q
    if fld u.cfg 27 26 = 2 ∧ u.p ≠ u.c then signal f q s1 else s1

/-- An accepted value moves the counter (R162), with what follows from the room it makes (R172, R174). -/
def acceptDoorbell (f : Fn) (q : Nat) (k : QKind) (v : BitVec 16) (s : State) : State :=
  match k with
  | .sq => modQueue f q (fun u => { u with p := v, counter := v }) s
  | .cq =>
    let s1 := modQueue f q (fun u => { u with c := v, counter := v }) s
    let u := queue s1 f q
    if u.overflow.isEmpty then s1 else settle f q (u.overflow ++ u.waiting) s1
  | .eq =>
    let old := (queue s f q).c
    passEvents f q old v (modQueue f q (fun u => { u with c := v, counter := v }) s)

/-- A doorbell write that the queue's state lets act (R162, R163). -/
def doorbell (f : Fn) (q : Nat) (k : QKind) (v : BitVec 64) (s : State) : State :=
  let u := queue s f q
  let val : BitVec 16 := v.truncate 16
  let arm := bitOf v.toNat 16 && k != .sq
  let x := if k = .sq then u.p else u.c
  let limit := if k = .sq then ringSize u - (u.p - u.c).toNat else (u.p - u.c).toNat
  if (val - x).toNat ≤ limit then applyArm f q arm (acceptDoorbell f q k val s)
  else if 1 ≤ (x - val).toNat ∧ (x - val).toNat ≤ ringSize u then applyArm f q arm s
  else qmEvent f q 0x02 (queueScope f q) (bump .QM_DB_INVALID 0 (fnCode f) 1 s)

/-- A doorbell write of a queue, its low word or all of it: it acts where the function owns the queue and the queue's state lets it (R161,
R163); elsewhere it is ignored (R125). -/
def doorbellTaken (f : Fn) (q : Nat) (v : BitVec 64) (s : State) : State :=
  match qKind f q with
  | none => s
  | some k => if ownsQueue s f q && ((queue s f q).st == .active || (queue s f q).st == .blocked) then doorbell f q k v s else s

/-! ### Fetching (R139, R158, R163, R165, R181) -/

/-- Modes in which submission queues are fetched (R93, R103, R105). -/
def modeFetches (s : State) : Bool :=
  match s.cai.mode with
  | .bringup | .service | .spared | .recovery | .test | .isolated => true
  | _ => false

/-- May an SQ fetch now (R105, R140, R142, R163, R171, R179, R181, R192, R296, R299)? -/
def mayFetch (s : State) (f : Fn) (q : Nat) : Bool :=
  let u := queue s f q
  let c := queue s f (qTarget u)
  qKind f q == some .sq && u.st == .active && u.p != u.c && !u.destroying && u.heldBy.isNone && c.st != .error && c.st != .blocked
    && modeFetches s && (fnSt s f).mig.st == .running && !(fnSt s f).silent && (f == .fw || (fnSt s f).ready && busMaster s f && linkUp s f)
    && !(qClass u == 0 && s.tm.frames.any (fun e => e.2.waitCells && (match e.2.origin with
      | some (g, _, _) => fnPf g == fnPf f
      | none => false)))

/-- The pages that n bytes at an address lie in. -/
def pagesOf (addr n : Nat) : List Nat := if n = 0 then [] else (List.range ((addr + n - 1) / 4096 + 1 - addr / 4096)).map (· + addr / 4096)

/-- Requests for the translations of pages that an entry uses and the cache does not hold, where ATS Enable of the function is set (R143). -/
def askTranslations (f : Fn) (q ctr : Nat) (pages : List Nat) (s : State) : State :=
  let ats := wbit (mget 0 s.hif.cfg (fnCode f * 1024 + 113)) 31
  let new := (pages.eraseDups).filter (fun p => (translationOf s f (qPasid (queue s f q)) p).isNone)
  if !ats then s
  else modHif (fun h => { h with waiting := h.waiting ++ new.map (fun p => { fn := f, use := .translate q ctr p, addr := p * 4096, len := 8 }) }) s

/-- The reads a fetched entry needs go to the waiting requests, behind the translations of the pages that it reads and writes (R131, R143). -/
def requestReads (f : Fn) (q : Nat) (ctr : BitVec 16) (reads : List WorkRead) (dest : List (Nat × Nat)) (s : State) : State :=
  let pages := (reads.map (fun r => (r.addr, r.len)) ++ dest).flatMap (fun x => pagesOf x.1 x.2)
  let rd := (List.range reads.length).map (fun i =>
    let r := reads.getD i { addr := 0, len := 0 }
    ({ fn := f, use := .work q ctr.toNat i, addr := r.addr, len := r.len } : Req))
  modHif (fun h => { h with waiting := h.waiting ++ rd }) (askTranslations f q ctr.toNat pages s)

/-- A fetched entry with a valid phase joins the SQ's work: its status where a check fails, its reads otherwise (R165). -/
def acceptEntry (f : Fn) (q : Nat) (e : BitVec 512) (s : State) : State :=
  let u := queue s f q
  let w : Work := { ctr := u.c, entry := e, cls := qClass u, arrived := s.sto.arrivals }
  let st := entryStatus s f q (qClass u) e
  let reads := if st = 0 then (entryReads (qClass u) e).flatMap (fun r => readPieces (r.len / 4096 + 1) r.addr r.len) else []
  let s1 := modSto (fun t => { t with arrivals := t.arrivals + 1 })
    (modQueue f q (fun u => { u with work := u.work ++ [{ w with reads := reads }], c := u.c + 1, staleAt := none }) s)
  if st ≠ 0 then finishWork f q u.c st 0 s1 else requestReads f q u.c reads (entryWrites (qClass u) e) s1

/-- RX_BUFFER (R167): the next fetched RX_BUFFER entry posts its buffer. -/
def execRxBuffer (f : Fn) (q : Nat) (s : State) : Outcome :=
  match nextWork s f q 1 0x01 with
  | some w => .next (modWork f q w.ctr (fun w => { w with started := true }) s)
  | none => .next s

/-- SQ_FETCH_RESUME (R299): the depth of an egress queue is below QLIMIT_G again, and the SQs it held fetch again. -/
def releaseHeld (eg : Nat) (s : State) : State :=
  modQm (fun m => { m with queues := m.queues.map (fun e => (e.1, if e.2.heldBy = some eg then { e.2 with heldBy := none } else e.2)) }) s

/-! ### Event queue entries (R173, R174) -/

/-- EVENT_RAISE (R174, R175). -/
def execEventRaise (block code detail : Nat) (scope : Scope) (s : State) : Outcome := .next (raise block code detail scope s)

/-- The bytes of an EQ entry (R173). -/
def eqeBytes (u : Queue) (e : EvSrc) : Bytes :=
  [BitVec.ofNat 8 (e.block % 16 + at_ 4 (bits e.detail 18 16) + at_ 7 (b2n (phaseOf u u.p))), BitVec.ofNat 8 e.code]
    ++ leBytes 2 e.count ++ leBytes 2 e.bound ++ leBytes 2 e.detail ++ leBytes 8 e.ts

/-- EQ_ENTRY_WRITE (R174, R181): the oldest unwritten source of an EQ is written when the EQ has room. -/
def execEqEntryWrite (f : Fn) (q : Nat) (res : HostWriteEnd) (s : State) : Outcome :=
  let u := queue s f q
  let mine (e : EvSrc) : Bool := e.fn == f && e.eq == some q && e.written.isNone
  if qKind f q ≠ some .eq ∨ u.st ≠ .active ∨ ringFull u ∨ (fnSt s f).silent ∨ frozen s f ∨ !busMaster s f ∨ !linkUp s f then .next s
  else match s.qm.events.find? mine with
  | none => .next s
  | some e =>
    match res with
    | .failed => .next (queueError f q s)
    | .landed =>
      let s1 := modQm (fun m => { m with events := updFirst mine (fun e => { e with written := some u.p }) m.events }) s
      .next (writeRing f q 16 (eqeBytes u e) s1)

/-! ### Setting queues up (R177 to R180) -/

/-- The queue a path's QM_Q_SELECT names (R177, R476). -/
def selectedQ (s : State) (p : Path) : Nat := fld (reg s .QM_Q_SELECT 0 (pathCode p)) 18 0

/-- RESULT of the last QM_Q_CTRL write of a path (R177, R476). -/
def setQResult (p : Path) (r : Nat) (s : State) : State :=
  modQm (fun m => { m with lastDestroy := mdel m.lastDestroy (pathCode p) }) (setReg .QM_Q_STATE 0 (pathCode p) (w32 (at_ 12 r)) s)

/-- The settings in the registers pass the checks of CREATE (R178). -/
def settingsOk (s : State) (f : Fn) (q : Nat) : Bool :=
  let cfg := reg s .QM_Q_CFG q (fnCode f)
  let size := fld cfg 3 0
  let t := fld cfg 23 4
  let vec := fld (moderation s f q) 10 0
  decide (6 ≤ size) &&
  (match qKind f q with
   | some .sq => decide (fld cfg 30 28 < 6) && (fld cfg 30 28 != 4 || (!isVf f && (f == .fw || !(pfSet s (fnPf f)).nvme))) && qKind f t == some .cq && ownsQueue s f t && created (queue s f t)
   | some .cq => decide (vec < vectorsOf s f) && qKind f t == some .eq && ownsQueue s f t && created (queue s f t)
   | some .eq => decide (vec < vectorsOf s f)
   | none => false)

/-- The settings in the registers come into force: both counters at N, ACTIVE (R178, R180). -/
def applySettings (f : Fn) (q : Nat) (s : State) : State :=
  let h := fnCode f
  let cfg := reg s .QM_Q_CFG q h
  let n : BitVec 16 := BitVec.ofNat 16 (2 ^ fld cfg 3 0)
  modQueue f q (fun _ => { st := .active, p := n, c := n, counter := n, base := pair64 s .QM_Q_BASE_LO .QM_Q_BASE_HI q h, cfg := cfg,
                           pasid := reg s .QM_Q_PASID q h, moder := reg s .QM_CQ_MODERATION q h }) s

/-- Locks held by an SQ are released (R288). -/
def releaseLocks (f : Fn) (q : Option Nat) (s : State) : State :=
  modTbl (fun t => { t with locks := t.locks.filter (fun e => !(e.2.fn == f && (q.isNone || q == some e.2.sq))) }) s

/-- A created EQ with DEFAULT set governs, and takes the events that waited for one; one restarted without it is a default EQ no more (R175, R177,
R180). -/
def newDefaultEq (f : Fn) (q : Nat) (s : State) : State :=
  if wbit (queue s f q).cfg 31 then
    modQm (fun m => { m with events := m.events.map (fun e => if e.fn == f && e.eq.isNone then { e with eq := some q } else e) })
      (modFn f (fun r => { r with defaultEqs := q :: r.defaultEqs.filter (· != q) }) s)
  else modFn f (fun r => { r with defaultEqs := r.defaultEqs.filter (· != q) }) s

/-- CREATE of the selected queue (R178). -/
def qCreate (p : Path) (s : State) : State :=
  match p with
  | .fn f =>
    let q := selectedQ s p
    if !ownsQueue s f q then setQResult p 1 s
    else if created (queue s f q) then setQResult p 3 s
    else if !settingsOk s f q then setQResult p 2 s
    else setQResult p 0 (if qKind f q = some .eq then newDefaultEq f q (applySettings f q s) else applySettings f q s)
  | _ => s

/-- Is any created queue of a function aimed at q? -/
def targeted (s : State) (f : Fn) (q : Nat) (k : QKind) : Bool :=
  s.qm.queues.any (fun e => decide (e.1 / 2 ^ 20 = fnCode f) && qKind f (e.1 % 2 ^ 20) == some k && created e.2 && qTarget e.2 == q)

/-- DESTROY of the selected queue (R179). Posted receive buffers that hold no data end with FLUSHED (R170). -/
def qDestroy (p : Path) (s : State) : State :=
  match p with
  | .fn f =>
    let q := selectedQ s p
    let u := queue s f q
    if !ownsQueue s f q then setQResult p 1 s
    else if !created u then setQResult p 0 s
    else if qKind f q = some .cq ∧ targeted s f q .sq ∨ qKind f q = some .eq ∧ targeted s f q .cq then setQResult p 3 s
    else
      let s1 := modQueue f q (fun u => { u with destroying := true }) s
      let s2 := foldS (fun (w : Work) s => if w.cls = 1 ∧ w.done.isNone ∧ w.filled = 0 then finishWork f q w.ctr 0x30 0 s else s) u.work s1
      modQm (fun m => { m with lastDestroy := mput m.lastDestroy (pathCode p) q }) (setQResult p 4 (releaseLocks f (some q) s2))
  | _ => s

/-- QUEUE_DISABLED (R179): no fetched work is unfinished or still to be completed under R169, and a CQ's overflow is empty; entries that finished
with SUCCESS after the last boundary get no completion. RESULT becomes DONE where the function's last QM_Q_CTRL write was this DESTROY (R177). -/
def execQueueDisabled (f : Fn) (q : Nat) (s : State) : Outcome :=
  let u := queue s f q
  if u.destroying && u.work.all (fun w => w.done.isSome) && (dueCompletion q u.work).isNone && u.overflow.isEmpty && u.waiting.isEmpty then
    let s1 := modQueue f q (fun _ => {}) s
    let s2 := modFn f (fun r => { r with defaultEqs := r.defaultEqs.filter (· != q) }) s1
    let s3 := modQm (fun m => { m with events := m.events.map (fun e =>
      if e.fn == f && e.eq == some q then { e with eq := none, written := none, count := satAdd 0xFFFF e.count e.more, more := 0 } else e) }) s2
    .next (if mfind s.qm.lastDestroy (fnCode f) = some q then setQResult (.fn f) 0 s3 else s3)
  else .next s

/-- RESTART of the selected queue (R180): the completions that a CQ in ERROR holds are written to the restarted ring (R171, R181); in QUIESCED or ERROR, and only while QUIESCED of the function reads 1. -/
def qRestart (p : Path) (s : State) : State :=
  match p with
  | .fn f =>
    let q := selectedQ s p
    let u := queue s f q
    if !ownsQueue s f q then setQResult p 1 s
    else if !((u.st == .quiesced || u.st == .error) && quiesced s f) then setQResult p 3 s
    else if !settingsOk s f q then setQResult p 2 s
    else
      let s0 := applySettings f q s
      let s1 := if u.st = .error ∧ qKind f q = some .cq then settle f q (u.overflow ++ u.waiting) s0 else s0
      let s2 := modQm (fun m => { m with events := m.events.map (fun e =>
        if e.fn == f && e.eq == some q then { e with written := none, count := satAdd 0xFFFF e.count e.more, more := 0 } else e) }) s1
      let s3 := if qKind f q = some .eq then newDefaultEq f q s2 else s2
      let s4 := if busMaster s f ∧ (fnSt s f).tdi.st ≠ .error then flushPba f (modFn f (fun r => { r with silent := false }) s3) else s3
      setQResult p 0 (releaseLocks f (some q) s4)
  | _ => s

end Sys2Proof.Machine
end

