-- ==== Sys2Proof/Machine/SvcOps.lean ====
section
/-!
DEFINITION. Shared operations of the service array: the ends of threads, channels, firmware events and mailboxes (R393 to R400, R404,
R407 to R409).
-/
namespace Sys2Proof.Machine

/-! ### Channels (R396 to R400) -/

/-- EPOCH of a domain (R407). -/
def domEpoch (s : State) (d : Nat) : Nat := (mget ({} : Domain) s.svc.domains d).epoch

/-- The function that FUNCTION names, laid out as in the vport entry (R400). -/
def fnOfCode (n : Nat) : Fn := if bitOf n 14 then .vf (bits n 13 12) (bits n 11 0) else .pf (bits n 13 12)

/-- A function's mailbox (R408). -/
def mbxOf (s : State) (f : Fn) : Mbx := mget {} s.svc.mbx (fnCode f)

/-- s with a function's mailbox changed by g. -/
def modMbx (f : Fn) (g : Mbx → Mbx) (s : State) : State := modSvc (fun v => { v with mbx := mmod {} v.mbx (fnCode f) g }) s

/-- TYPE of a message (R400). -/
def msgType (m : ChMsg) : Nat := bits (m.words.headD 0) 7 0

/-- The event source whose EVENT message a thread has received is no longer pending; occurrences counted meanwhile become pending again
(R174, R404). -/
def eventTaken (m : ChMsg) (s : State) : State :=
  let w := m.words.getD 1 0
  let same (e : EvSrc) : Bool := e.fn == .fw && e.written.isSome && e.block % 16 == bits w 3 0 && e.code == bits w 15 8
    && e.detail == bits w 63 48 + at_ 16 (bits w 6 4)
  let again := (s.qm.events.filter (fun e => same e && decide (0 < e.more))).map (fun e =>
    { e with written := none, count := e.more, ts := e.moreTs, bound := e.moreBound, more := 0, moreTs := 0, moreBound := 0 })
  pumpEvents (modQm (fun q => { q with events := q.events.filter (fun e => !same e) ++ again }) s)

/-- What the receipt of a message does beside filling the buffer: a FRAME handle passes to the domain (R401), a mailbox empties (R408),
an event source clears (R404). -/
def msgTaken (d c : Nat) (m : ChMsg) (s : State) : State :=
  if m.source = 0 then s
  else match msgType m with
  | 0x01 => modSvc (fun v =>
      let h := bits (m.words.headD 0) 47 32
      { v with handles := match mfind v.handles h with
        | some x => mput v.handles h { x with owner := .domain d }
        | none => v.handles }) s
  | 0x20 =>
    let f := fnOfCode (bits (m.words.headD 0) 31 16)
    if c = 4 then raise 0xC 0x02 0 (.function f) (modMbx f (fun b => { b with h2fFull := false }) s) else s
  | 0x30 => if c = 3 then eventTaken m s else s
  | _ => s

/-- A message is committed to a channel: to the thread that waits longest, where its core runs, or at the tail (R398, R399). -/
def commitMsg (c : Nat) (m : ChMsg) (s : State) : State :=
  match receiver s c with
  | some t =>
    let d := (thread s t).domain
    msgTaken d c m (endWait t (recvCode m) (modThread t (fun h => { h with rx := m.words }) s))
  | none => modMsgs c (· ++ [m]) s

/-- A slot of a channel has become free: a message of the device that waits, or the thread that waits longest to send, commits (R398). -/
def roomMade (c : Nat) (s : State) : State :=
  match s.svc.deferred.find? (fun e => e.1 == c) with
  | some e => commitMsg c e.2 (modSvc (fun v => { v with deferred := dropFirst (· == e) v.deferred }) s)
  | none =>
    match longestWaiter s (· == .send c) with
    | none => s
    | some t =>
      let h := thread s t
      commitMsg c { words := h.staging ++ [h.waitVal], source := 0, sender := t, domain := h.domain, epoch := domEpoch s h.domain }
        (endWait t 0 (modThread t (fun h => { h with staging := [], waitRd := 0 }) s))

/-- The next message of a channel, taken by a thread (R399): its rd, and the state after. -/
def takeMsg (t c : Nat) (s : State) : Option (Nat × State) :=
  match chMsgs s c with
  | [] => none
  | m :: _ =>
    let d := (thread s t).domain
    let s1 := modThread t (fun h => { h with rx := m.words }) (modMsgs c (·.drop 1) s)
    some (recvCode m, msgTaken d c m (roomMade c s1))

/-- The messages that wait in a channel go to the threads that wait on it, the longest first, while their cores run: at most n (R399). -/
def serveChannel (c : Nat) : Nat → State → State
  | 0, s => s
  | n + 1, s =>
    match chMsgs s c, (longestWaiter s (· == .recv c)).filter (threadAwake s) with
    | m :: _, some t =>
      let d := (thread s t).domain
      serveChannel c n (msgTaken d c m (roomMade c (endWait t (recvCode m) (modThread t (fun h => { h with rx := m.words }) (modMsgs c (·.drop 1) s)))))
    | _, _ => s

/-- The channels on which the contexts of a physical core wait to receive. -/
def awaited (s : State) (phys : Nat) : List Nat :=
  ((List.range 64).filter (fun c => corePhys s c == phys)).flatMap (fun c => (coreContexts s c).filterMap (fun t =>
    match (thread s t).wait with
    | some (.recv k) => some k
    | _ => none))

/-- A core that has started takes the messages that have waited for it (R399). -/
def serveCore (phys : Nat) (s : State) : State := foldS (fun c s => serveChannel c (chMsgs s c).length s) (awaited s phys).eraseDups s

/-- The device sends a message to a channel: nothing for "none" or a channel that is not VALID; it waits while the channel is full (R400). -/
def devPost (c : Nat) (m : ChMsg) (s : State) : State :=
  if 16384 ≤ c ∨ !wbit (chCfg s c) 31 then s
  else if chFull s c ∨ s.svc.deferred.any (fun e => e.1 == c) then modSvc (fun v => { v with deferred := v.deferred ++ [(c, m)] }) s
  else commitMsg c m s

/-- A message of the device that no domain is owed. -/
def devSend (c : Nat) (words : List Nat) (s : State) : State := devPost c { words := words } s

/-- INJECT_DONE (kind 0x11) or MGT_TX_DONE (0x13) for work of a domain, unless its EPOCH has moved on since the commit (R402, R403, R407). -/
def sendDone (kind reply status tag domain epoch : Nat) (s : State) : State :=
  if domEpoch s domain = epoch then devPost reply { words := [kind + at_ 8 status, tag], domain := domain, epoch := epoch } s else s

/-- Is a message of the device one that is owed to work of a domain under an epoch (R407)? -/
def owedTo (d epoch : Nat) (m : ChMsg) : Bool :=
  m.source == 2 && (msgType m == 0x11 || msgType m == 0x13) && m.domain == d && m.epoch == epoch

/-! ### Threads end (R393) -/

/-- Is a thread live, so that a child that ends waits for it as a ZOMBIE (R393)? -/
def live (s : State) (t : Nat) : Bool := (thread s t).st == .running || (thread s t).st == .waiting

/-- The state of a FREE thread: nothing of the one that ended stays. -/
def freeThread (t : Nat) (s : State) : State := modSvc (fun v => { v with threads := mset {} v.threads t {} }) s

/-- A thread ends with an exit value (R393): its children are detached, its staging and receive buffer are lost, and it becomes a ZOMBIE
while its parent lives; a parent that waits in TJOIN goes on. Its domain may stall again where it was waiting (R406). -/
def endThread (t v : Nat) (s : State) : State :=
  let h := thread s t
  let s0 := if h.st = .waiting then modSvc (fun u => { u with domains := mmod {} u.domains h.domain (fun x => { x with stalled := false }) }) s else s
  let s1 := foldS (fun (e : Nat × Thread) s =>
    if e.2.parent = some t then
      (if e.2.st = .zombie then freeThread e.1 s else modThread e.1 (fun c => { c with parent := none }) s)
    else s) s0.svc.threads s0
  match h.parent with
  | some p =>
    if live s1 p then
      if (thread s1 p).st = .waiting ∧ (thread s1 p).wait = some (.join t) then endWait p v (freeThread t s1)
      else modThread t (fun _ => { st := .zombie, parent := some p, exit := v, domain := h.domain }) s1
    else freeThread t s1
  | none => freeThread t s1

/-- Threads that are not FREE, by identifier. -/
def usedThreads (s : State) : List Nat := (s.svc.threads.filter (fun e => e.2.st != .free)).map Prod.fst

/-- Every thread for which p holds ends as under TKILL (R393, R407, R462). -/
def killThreads (p : Nat → Thread → Bool) (s : State) : State :=
  foldS (fun t s => if (thread s t).st ≠ .free ∧ p t (thread s t) then endThread t (2 ^ 64 - 1) s else s) (usedThreads s) s

/-- A thread as a start leaves it: M mode, the integer registers zero but a0, TFORKDOM at TDOMAIN, and mie bit 16 set (R392, R395). -/
def startedThread (pc a0 dom : Nat) (parent : Option Nat) : Thread :=
  { st := .running, pc := pc % 2 ^ 64, x := mset 0 [] 10 (a0 % 2 ^ 64), domain := dom, parent := parent,
    csr := mset 0 (mset 0 [] 0x304 (2 ^ 16)) 0x7C0 dom }

/-- Firmware starts on logical thread 0, domain 0, in M mode, at the image's entry point, as the supervisor of domain 0 (R98, R410). -/
def startFirmware (entry : Nat) (s : State) : State :=
  pumpEvents (modThread 0 (fun _ => startedThread entry 0 0 none) s)

/-! ### Mailboxes (R408, R409) -/

/-- Is a message an unread MBX_H2F of a function for which p holds? -/
def isH2f (p : Fn → Bool) (m : ChMsg) : Bool := m.source == 2 && msgType m == 0x20 && p (fnOfCode (bits (m.words.headD 0) 31 16))

/-- A reset clears both mailboxes of a function and its unread message, and reports what they held (R409). -/
def abortMailbox (f : Fn) (s : State) : State :=
  let b := mbxOf s f
  let s1 := modSvc (fun v => { v with deferred := v.deferred.filter (fun e => !(e.1 == 4 && isH2f (· == f) e.2)) })
    (modMsgs 4 (·.filter (fun m => !isH2f (· == f) m)) (modMbx f (fun _ => {}) s))
  if b.h2fFull || b.f2hFull then
    devSend 4 [0x21 + at_ 8 (b2n b.h2fFull + 2 * b2n b.f2hFull) + at_ 16 (fnCode f)] s1
  else s1

/-- A RESTART of the domain that receives channel 4 removes every unread MBX_H2F message (R409). -/
def dropH2f (s : State) : State :=
  let waiting := (s.svc.deferred.filter (fun e => e.1 == 4)).map Prod.snd
  let fns := ((chMsgs s 4 ++ waiting).filter (isH2f (fun _ => true))).map (fun m => fnOfCode (bits (m.words.headD 0) 31 16))
  foldS (fun f s => raise 0xC 0x03 0 (.function f) (hwSet .MBX_STATUS 0 (fnCode f) 2 (modMbx f (fun b => { b with h2fFull := false }) s))) fns
    (modSvc (fun v => { v with deferred := v.deferred.filter (fun e => !(e.1 == 4 && isH2f (fun _ => true) e.2)) })
      (modMsgs 4 (·.filter (fun m => !isH2f (fun _ => true) m)) s))

/-- Has a function a mailbox: it exists and is of NET personality (R408)? -/
def hasMailbox (s : State) (f : Fn) : Bool := f != .fw && fnExists s f && !(pfSet s (fnPf f)).nvme

/-- Firmware's reply is placed in a function's mailbox (R408): RESULT 0 DONE, 1 BUSY, 2 NO_FUNCTION, 3 NOT_READY. -/
def f2hSend (f : Fn) (data : Bytes) (s : State) : Nat × State :=
  if !hasMailbox s f then (2, s)
  else if !(fnSt s f).ready then (3, s)
  else if (mbxOf s f).f2hFull then (1, s)
  else (0, raise 0xC 0x01 0 (.function f) (modMbx f (fun b => { b with f2hFull := true, f2h := data }) s))

end Sys2Proof.Machine
end

