-- ==== Sys2Proof/Machine/FrameOps.lean ====
section
/-!
DEFINITION. Frames in cells: taking and freeing cells, finishing copies and dropping frames (R18 to R23, R294 to R296).
-/
namespace Sys2Proof.Machine

/-- Sources of frames, for the order of R20: their kind in the multiples of 2^24. A port by its logical port, a host SQ by its
function and number, an Akzal port by its number, the injection path. -/
def srcPort (lp : Nat) : Nat := lp
def srcHost (f : Fn) (q : Nat) : Nat := 2 ^ 40 + qKey f q
def srcAkz (p : Nat) : Nat := 2 ^ 41 + p
def srcInject : Nat := 2 ^ 42

/-- Is a source a host submission queue? -/
def fromHost (src : Nat) : Bool := decide (2 ^ 40 ≤ src ∧ src < 2 ^ 41)

/-- A frame in cells. -/
def frameOf (s : State) (id : Nat) : Option Frame := mfind s.tm.frames id

/-- s with frame id changed by g. -/
def modFrame (id : Nat) (g : Frame → Frame) (s : State) : State :=
  match mfind s.tm.frames id with
  | some f => modTm (fun t => { t with frames := mput t.frames id (g f) }) s
  | none => s

/-- The cells that n bytes take: from Ochre while more than the reserve is free, then Umber, then Sienna; none where all are
empty before the end (R295, R296). -/
def cellsFor (reserve : Nat) : Nat → Nat → (Nat × Nat × Nat) → (Nat × Nat × Nat) → Option (Nat × Nat × Nat)
  | 0, _, _, got => some got
  | fuel + 1, n, free, got =>
    if n = 0 then some got
    else if reserve < free.1 then cellsFor reserve fuel (n - 256) (free.1 - 1, free.2) (got.1 + 1, got.2)
    else if 0 < free.2.1 then cellsFor reserve fuel (n - 256) (free.1, free.2.1 - 1, free.2.2) (got.1, got.2.1 + 1, got.2.2)
    else if 0 < free.2.2 then cellsFor reserve fuel (n - 2048) (free.1, free.2.1, free.2.2 - 1) (got.1, got.2.1, got.2.2 + 1)
    else none

/-- Events of a pool whose free count has crossed its threshold (R320). -/
def poolLow (s : State) : State :=
  let one (k free low : Nat) (s : State) : State :=
    if free < low ∧ !s.tm.lowRaised.getD k false then
      raise 0x8 0x01 k .device (modTm (fun t => { t with lowRaised := t.lowRaised.set k true }) s)
    else if 2 * low ≤ free then modTm (fun t => { t with lowRaised := t.lowRaised.set k false }) s
    else s
  one 2 s.tm.freeSienna (dfld s .TM_POOL_LOW_SIENNA 21 0)
    (one 1 s.tm.freeUmber (dfld s .TM_POOL_LOW_UMBER 24 0) (one 0 s.tm.freeOchre (dfld s .TM_POOL_LOW_OCHRE 18 0) s))

/-- Take the cells of n bytes for frame id; none where no pool has room. -/
def takeCells (action : Bool) (id n : Nat) (s : State) : Option State :=
  let free := (s.tm.freeOchre, s.tm.freeUmber, s.tm.freeSienna)
  (cellsFor (if action then 0 else 4096) (n / 256 + 1) n free (0, 0, 0)).map (fun c =>
    poolLow (modFrame id (fun f => { f with ochre := f.ochre + c.1, umber := f.umber + c.2.1, sienna := f.sienna + c.2.2 })
      (modTm (fun t => { t with freeOchre := t.freeOchre - c.1, freeUmber := t.freeUmber - c.2.1, freeSienna := t.freeSienna - c.2.2 }) s)))

/-- Is a cell free for a frame that waits for one (R296)? -/
def cellFree (s : State) : Bool := decide (4096 < s.tm.freeOchre ∨ 0 < s.tm.freeUmber ∨ 0 < s.tm.freeSienna)

/-- A byte with no defined value (R376, R401). -/
def freeByte (s : State) : Byte × State := let r := takeFree s; (BitVec.ofNat 8 r.1, r.2)

/-- n bytes with no defined value. -/
def freeBytes : Nat → State → Bytes × State
  | 0, s => ([], s)
  | n + 1, s => let a := freeByte s; let r := freeBytes n a.2; (a.1 :: r.1, r.2)

/-- The lowest frame handle that is free (R401). -/
def freeHandleNo (s : State) : Option Nat :=
  (List.range (s.svc.handles.length + 1)).find? (fun k => decide (k < 65536) && (mfind s.svc.handles k).isNone)

/-- A frame handle of n bytes for a domain, its bytes undefined until written (R401): none where no pool has room. -/
def hallocNow (k n d : Nat) (s : State) : Option State :=
  let free := (s.tm.freeOchre, s.tm.freeUmber, s.tm.freeSienna)
  (cellsFor 4096 (n / 256 + 1) n free (0, 0, 0)).map (fun c =>
    let b := freeBytes n s
    let x : Handle := { owner := .domain d, bytes := b.1, ochre := c.1, umber := c.2.1, sienna := c.2.2 }
    poolLow (modSvc (fun v => { v with handles := mput v.handles k x })
      (modTm (fun t => { t with freeOchre := t.freeOchre - c.1, freeUmber := t.freeUmber - c.2.1, freeSienna := t.freeSienna - c.2.2 }) b.2)))

/-- The thread that has waited longest in HALLOC goes on, where there is room for it now (R394, R401). -/
def wakeHalloc (s : State) : State :=
  match longestWaiter s (fun w => match w with
    | .halloc _ => true
    | _ => false) with
  | none => s
  | some t => match (thread s t).wait with
    | some (.halloc n) =>
      match freeHandleNo s with
      | some k => match hallocNow k n (thread s t).domain s with
        | some s1 => endWait t k s1
        | none => s
      | none => endWait t (2 ^ 64 - 1) s
    | _ => s

/-- Cells return to their pools (R295). -/
def returnCells (o u h : Nat) (s : State) : State :=
  wakeHalloc (poolLow (modTm (fun t => { t with freeOchre := t.freeOchre + o, freeUmber := t.freeUmber + u, freeSienna := t.freeSienna + h }) s))

/-- A handle that shares the cells of frame id (R295, R401). -/
def sharer (s : State) (id : Nat) : Option Nat := (s.svc.handles.find? (fun e => e.2.share == some id)).map Prod.fst

/-- Cells of frame id go to a handle that shares them, or return to their pools (R295, R401). -/
def passCells (id o u h : Nat) (s : State) : State :=
  match sharer s id with
  | some k => modSvc (fun v => { v with handles := match mfind v.handles k with
      | some x => mput v.handles k { x with ochre := x.ochre + o, umber := x.umber + u, sienna := x.sienna + h }
      | none => v.handles }) s
  | none => returnCells o u h s

/-- A frame handle is released, with its cells (R401). -/
def freeHandle (k : Nat) (s : State) : State :=
  match mfind s.svc.handles k with
  | none => s
  | some x =>
    let s1 := modSvc (fun v => { v with handles := mdel v.handles k }) s
    let s2 := match x.share with
      | some id => passCells id x.ochre x.umber x.sienna s1
      | none => returnCells x.ochre x.umber x.sienna s1
    match x.port with
    | some (lp, p) => judgeFlow lp (fcPrio s2 lp p) s2
    | none => s2

/-- Credit for cells of a class goes back to the sender on an Akzal port (R414). -/
def grantCredit (back : Option (Nat × Nat × Nat)) (s : State) : State :=
  match back with
  | some (p, cls, n) => if (s.akz.ports.getD p {}).up then emit (.akz p 3 0 (leBytes 1 cls ++ leBytes 2 n)) s else s
  | none => s

/-- The frame's cells are freed, or stay with the handles that share them, and the frame is gone (R22, R295, R401). -/
def freeFrame (id : Nat) (s : State) : State :=
  match frameOf s id with
  | none => s
  | some f => judgeFrame f (grantCredit f.back (passCells id f.ochre f.umber f.sienna (modTm (fun t => { t with frames := mdel t.frames id }) s)))

/-- The status of a host-transmitted frame whose copies have finished (R23): a condition's status, NOT_PERMITTED where nothing left. -/
def frameStatus (f : Frame) : Nat := if f.status ≠ 0 then f.status else if f.best ≠ .dropped then 0 else 0x05

/-- INJECT_DONE for an injected frame, unless its domain's EPOCH has moved on (R402, R407). -/
def injectDone (f : Frame) (s : State) : State :=
  match f.injected with
  | some (reply, tag, d, ep) => sendDone 0x11 reply (frameStatus f) tag d ep s
  | none => s

/-- A frame completes: the entry that sent it finishes, with the time and bound of R22, INJECT_DONE is sent for an injected one, and its
cells are freed. -/
def completeTop (id : Nat) (s : State) : State :=
  match frameOf s id with
  | none => s
  | some f =>
    let s1 := match f.origin with
      | some (fn, q, ctr) =>
        let d : Done := { order := s.elapsed, status := frameStatus f, ts := if f.best ≠ .dropped then f.lastTs else now s, bound := if f.best ≠ .dropped then f.lastBound else bound16 s }
        modWork fn q (BitVec.ofNat 16 ctr) (fun w => if w.ref = some id then { w with done := some d } else w) s
      | none => s
    injectDone f (freeFrame id s1)

/-- A frame whose list has ended and whose copies have all finished: has it nothing left to do (R22)? -/
def settled (f : Frame) : Bool := f.stage == .finished && f.live == 0 && f.deferred.isEmpty

/-- A copy of a frame has finished: by a port with its egress time, by delivery, or dropped (R22). -/
def countDone (id : Nat) (how : CopyEnd) (ts bound : Nat) (s : State) : State :=
  modFrame id (fun f =>
    let take := decide (f.best.rank < how.rank) || (how == f.best && decide (f.lastTs ≤ ts))
    { f with live := f.live - 1, best := if f.best.rank < how.rank then how else f.best,
             lastTs := if take then ts else f.lastTs, lastBound := if take then bound else f.lastBound }) s

/-- A frame whose list has ended and whose copies have all finished completes (R22); a mirror copy that does so has finished as a copy of
its frame. -/
def settleFrame (id : Nat) (s : State) : State :=
  match frameOf s id with
  | some f =>
    if settled f then
      match f.parent with
      | none => completeTop id s
      | some p =>
        let s1 := countDone p f.best f.lastTs f.lastBound (freeFrame id s)
        if (match frameOf s1 p with
          | some g => settled g
          | none => false) then completeTop p s1 else s1
    else s
  | none => s

/-- A copy of a frame has finished, and the frame completes with its last one (R22). -/
def copyDone (id : Nat) (how : CopyEnd) (ts bound : Nat) (s : State) : State := settleFrame id (countDone id how ts bound s)

/-- Does nothing that a frame's own list makes leave before the list has ended: a host-transmitted or injected frame, or a list with an ENCRYPT
(R23, R337)? -/
def holdsOwn (f : Frame) : Bool := f.origin.isSome || f.injected.isSome || f.holds

/-- Does a mirror copy wait for the end of the list that made it (R23, R337)? -/
def heldByParent (s : State) (f : Frame) : Bool :=
  match f.parent.bind (frameOf s) with
  | some g => holdsOwn g
  | none => false

/-- Do copies that a frame's list makes wait for the end of a list (R23, R337)? -/
def holdsBack (s : State) (f : Frame) : Bool := holdsOwn f || heldByParent s f

/-- Copies of frames for which p holds leave the egress queues. -/
def unqueue (p : Nat → Bool) (s : State) : State :=
  modTm (fun t => { t with nodes := t.nodes.map (fun e => (e.1, { e.2 with copies := e.2.copies.filter (fun c => !p c.frame) })) }) s

/-- Mirror copies of a frame, by number. -/
def mirrorsOf (s : State) (id : Nat) : List Nat := (s.tm.frames.filter (fun e => e.2.parent == some id)).map Prod.fst

/-- Copies of a host-transmitted or injected frame that are still in the device are withdrawn, its mirror copies with them (R23, R337). -/
def withdrawCopies (id : Nat) (s : State) : State :=
  let ms := mirrorsOf s id
  foldS freeFrame ms (unqueue (fun n => n == id || ms.contains n)
    (modFrame id (fun f => { f with live := 0, best := .dropped, deferred := [] }) s))

/-- Does a line that holds cells of a frame read as poison (R23, R431)? -/
def cellsPoisoned (s : State) (id : Nat) : Bool := s.rel.poison.any (fun e => (Config.cellLines id).contains e.1)

/-- A whole frame is dropped: a host-transmitted or injected one leaves by no path and completes with the status given (R23); copies that
another frame has already made stand (R19, R264). -/
def dropFrame (id status : Nat) (s : State) : State :=
  match frameOf s id with
  | none => s
  | some f =>
    let s1 := if f.origin.isSome || f.injected.isSome then withdrawCopies id s else s
    let st := if cellsPoisoned s id then 0x0A else status
    let s2 := if cellsPoisoned s id then bump .REL_POISON_READ 0 0 1 s1 else s1
    settleFrame id (modFrame id (fun f => { f with stage := .finished, status := if f.status = 0 then st else f.status, inCry := false }) s2)

/-- A frame has entered: the 1 µs windows of R78 count it. -/
def noteArrival (t : Nat) (a : List (Nat × Nat)) : List (Nat × Nat) :=
  match a with
  | (w, n) :: r => if w = t / 1000 then (w, n + 1) :: r else (t / 1000, 1) :: a.take 15
  | [] => [(t / 1000, 1)]

/-- A frame enters from a source with its number in ingress order; its cells are taken by the caller. -/
def newFrame (f : Frame) (s : State) : Nat × State :=
  (s.tm.nextFrame, modTm (fun t => { t with
    frames := mput t.frames t.nextFrame f, nextFrame := t.nextFrame + 1,
    arrivals := if f.parent.isSome then t.arrivals else noteArrival s.elapsed t.arrivals }) s)

/-- Is frame id the oldest of its source that has not run its list to an end (R20)? -/
def oldestOfSource (s : State) (id : Nat) : Bool :=
  match frameOf s id with
  | none => false
  | some f => f.parent.isSome || !s.tm.frames.any (fun e => decide (e.1 < id) && e.2.source == f.source && e.2.stage != .finished)

/-- The function that a key of the functions' records names. -/
def fnOfKey (k : Nat) : Fn := if k < 0x4000 then .pf (k / 4096) else .vf ((k - 0x4000) / 4096) ((k - 0x4000) % 4096)

/-- The function bound to a vport (R186). -/
def vportFn (s : State) (v : Nat) : Option Fn := firstSome (fun e => if e.2.vport = some v then some (fnOfKey e.1) else none) s.hif.fns

/-- A mark of a frame that has been cut to n bytes (R266). -/
def cutMark (n : Nat) (p : Option Nat) : Option Nat := p.bind (fun p => if p < n then some p else none)

end Sys2Proof.Machine
end

