-- ==== Sys2Proof/Machine/CryOps.lean ====
section
/-!
DEFINITION. The key store and the engines of CRY as shared operations (ciphers_and_keys).
-/
namespace Sys2Proof.Machine

/-! ### Slots (R325, R331) -/

/-- A key slot. -/
def slot_ (s : State) (n : Nat) : KeySlot := mget {} s.cry.slots n

/-- s with a slot changed by g. -/
def modKeySlot (n : Nat) (g : KeySlot → KeySlot) (s : State) : State := modCry (fun c => { c with slots := mmod {} c.slots n g }) s

/-- FLAGS of a record (R325). -/
def slotFlags (k : KeySlot) : Nat :=
  b2n k.key.isSome + 2 * b2n k.dir + 4 * b2n k.explicitOk + 8 * b2n k.kek + 16 * b2n k.replay + 32 * b2n k.sciInclude
    + 64 * b2n k.exhausted + 128 * b2n k.resync

/-- The 64-byte record of a slot, as SLOT_READ returns it (R325). -/
def slotRecord (k : KeySlot) : Bytes :=
  leBytes 1 (slotFlags k) ++ leBytes 1 k.proto ++ leBytes 1 k.keyLen ++ leBytes 1 k.param ++ leBytes 2 k.owner ++ leBytes 1 k.window
    ++ leBytes 1 (b2n k.vfCreated) ++ k.salt ++ beBytes 4 k.spi ++ beBytes 8 k.sci ++ leBytes 8 k.next ++ leBytes 8 k.rekeyAt
    ++ leBytes 4 k.tcpNext ++ leBytes 4 0 ++ leBytes 4 k.authFails ++ leBytes 4 k.replays

/-- A slot as a KEY_WRITE of this record leaves it: fields kept by the device start again (R330). -/
def slotFrom (rec : Bytes) (key : Bytes) (ownerFlags : Bool) : KeySlot :=
  let fl := byteAt rec 0
  { key := some key, dir := bitOf fl 1, explicitOk := bitOf fl 2, kek := bitOf fl 3, replay := bitOf fl 4, sciInclude := bitOf fl 5,
    proto := byteAt rec 1, keyLen := byteAt rec 2, param := byteAt rec 3, owner := leAt rec 4 2, window := byteAt rec 6,
    vfCreated := ownerFlags, salt := slice rec 8 12, spi := beAt rec 20 4, sci := beAt rec 24 8, next := leAt rec 32 8,
    rekeyAt := leAt rec 40 8, tcpNext := leAt rec 48 4 }

/-- A record holds no reserved encoding or bit (R325, R330). -/
def recordOk (rec : Bytes) : Bool :=
  let proto := byteAt rec 1
  let param := byteAt rec 3
  decide (proto < 4 ∧ byteAt rec 2 < 2 ∧ byteAt rec 6 ≤ 128 ∧ byteAt rec 7 < 2 ∧ bits (leAt rec 4 2) 14 12 = 0 ∧ leAt rec 52 4 = 0)
    && (if proto = 1 ∨ proto = 2 then decide (param < 4) else param == 0)
    && (!(proto == 0 || proto == 1) || leAt rec 12 8 == 0)

/-- The vport range of a PF (R183). -/
def inVportRange (s : State) (pf v : Nat) : Bool :=
  let g := pfSet s pf
  decide (g.vportFirst ≤ v ∧ v < g.vportFirst + g.vportCount)

/-- May a submitter act on an object with this OWNER: vport in 11:0, DEVICE in 15 (R331)? -/
def ownerRights (s : State) (f : Fn) (owner : Nat) : Bool :=
  match f with
  | .fw => true
  | .pf i => !bitOf owner 15 && inVportRange s i (bits owner 11 0)
  | .vf p n => !bitOf owner 15 && (fnSt s (.vf p n)).vport == some (bits owner 11 0)

/-- The largest number of a slot (R337). -/
def slotMax (k : KeySlot) : Nat := if k.proto = 1 ∧ !bitOf k.param 0 then 2 ^ 32 - 1 else 2 ^ 64 - 1

/-- A CRY event of a slot: its two codes, DETAIL, and whom it reaches (R343). -/
def cryEvent (code slot : Nat) (s : State) : State :=
  let k := slot_ s slot
  let c := if slot < 524288 then code else code + 1
  if bitOf k.owner 15 then raise 0x9 c (slot % 524288) (.function .fw) s
  else match vportFn s (bits k.owner 11 0) with
    | some f => raise 0x9 c (slot % 524288) (.function f) s
    | none => s

/-- Take the next number of a slot (R337): none where EXHAUSTED refuses. -/
def takeNumber (slot : Nat) (s : State) : Option Nat × State :=
  let k := slot_ s slot
  if k.exhausted then (none, s)
  else if k.next = slotMax k then (some k.next, cryEvent 0x03 slot (modKeySlot slot (fun k => { k with exhausted := true }) s))
  else
    let s1 := modKeySlot slot (fun k => { k with next := k.next + 1 }) s
    (some k.next, if k.rekeyAt ≠ 0 ∧ k.next + 1 = k.rekeyAt then cryEvent 0x01 slot s1 else s1)

/-- One more in CRY_STAT_k (R342). -/
def cryStat (k : Nat) (s : State) : State := bump .CRY_STAT k 0 1 s

/-! ### The slot cache (R327) -/

/-- Is a slot ready in the cache? A miss is counted once and its fetch begins. -/
def useCache (slot : Nat) (s : State) : Bool × State :=
  if s.cry.cache.contains slot then (true, bump .CRY_CACHE_HIT 0 0 1 s)
  else if s.cry.fetching.contains slot then (false, s)
  else (false, modCry (fun c => { c with fetching := c.fetching ++ [slot] }) (bump .CRY_CACHE_MISS 0 0 1 s))

/-! ### Messages and engines (R321 to R324, R340) -/

/-- State of a REL unit at the last BRINGUP of a device with no failed unit (R436): how many units and how many active. -/
def unitCounts (kind : Nat) : Nat × Nat :=
  match kind with
  | 0 => (136, 128) | 1 => (24, 22) | 2 => (2, 1) | 3 => (68, 64) | 4 => (9, 8) | 5 => (18, 16) | 6 => (18, 16) | 7 => (12, 12) | 8 => (3, 3)
  | _ => (0, 0)

/-- A unit's record where none is listed: active below the active count, a spare above. -/
def unitReset (kind index : Nat) : RelUnit := { st := if index < (unitCounts kind).2 then 0 else 1 }

/-- The record of a REL unit. -/
def unitOf (s : State) (kind index : Nat) : RelUnit := mget (unitReset kind index) s.rel.units (kind * 65536 + index)

/-- Units of a kind in a state. -/
def unitsIn (s : State) (kind st : Nat) : List Nat :=
  (List.range (unitCounts kind).1).filter (fun i => (unitOf s kind i).st == st)

/-- The active set of a kind. -/
def activeUnits (s : State) (kind : Nat) : List Nat := unitsIn s kind 0

/-- An engine. -/
def cryEngine (s : State) (e : Nat) : CryEngine := mget {} s.cry.engines e

def modEngine (e : Nat) (g : CryEngine → CryEngine) (s : State) : State := modCry (fun c => { c with engines := mmod {} c.engines e g }) s

/-- No unit of a kind remains: none is active, and no hand-off brings one in (R442). -/
def kindGone (s : State) (kind : Nat) : Bool := (activeUnits s kind).isEmpty && !s.rel.handoffs.any (fun h => h.kind == kind && h.joins.isSome)

/-- CRY can serve nothing: no engine or no checker remains (R324). -/
def cryGone (s : State) : Bool := kindGone s 1 || kindGone s 2

/-- Does an engine take messages: active, and RUNNING (R78, R324)? -/
def engineRuns (s : State) (e : Nat) : Bool := (activeUnits s 1).contains e && (domainSt s (.cryEngine e)).st == .running

/-- The most urgent waiting message, the first among equals (R340). -/
def mostUrgent : List CryMsg → Option CryMsg
  | [] => none
  | m :: t => match mostUrgent t with
    | some b => if b.urgency < m.urgency then some b else some m
    | none => some m

/-- An idle engine that runs takes the message it holds suspended unless a more urgent one waits, or else the most urgent one (R340). -/
def engineNext (e : Nat) (s : State) : State :=
  let u := cryEngine s e
  if u.running.isSome ∨ !engineRuns s e ∨ blockWaits s 9 then s
  else match u.suspended, mostUrgent s.cry.waiting with
    | some m, some w =>
      if w.urgency < m.urgency then
        modEngine e (fun u => { u with running := some w }) (modCry (fun c => { c with waiting := dropFirst (· == w) c.waiting }) s)
      else modEngine e (fun _ => { running := some m }) s
    | some m, none => modEngine e (fun _ => { running := some m }) s
    | none, some w => modEngine e (fun u => { u with running := some w }) (modCry (fun c => { c with waiting := dropFirst (· == w) c.waiting }) s)
    | none, none => s

/-- A message is dispatched: to a free engine, or it waits (R340). -/
def dispatch (m : CryMsg) (s : State) : State :=
  let s1 := modCry (fun c => { c with waiting := c.waiting ++ [m] }) s
  match (activeUnits s 1).find? (fun e => engineRuns s e && (cryEngine s e).running.isNone) with
  | some e => engineNext e s1
  | none => s1

/-- Every message of CRY. -/
def cryMsgs (s : State) : List CryMsg :=
  s.cry.waiting ++ s.cry.held ++ s.cry.engines.flatMap (fun e => e.2.running.toList ++ e.2.suspended.toList)

/-- Messages that meet p leave CRY, and the engines that they leave take what waits (R340). -/
def removeMsgs (p : CryMsg → Bool) (s : State) : State :=
  let left (s : State) : State := if s.cry.waiting.isEmpty && s.cry.engines.all (fun e => e.2.suspended.isNone) then s
    else foldS engineNext (activeUnits s 1) s
  left <| modCry (fun c => { c with
    waiting := c.waiting.filter (fun m => !p m), held := c.held.filter (fun m => !p m),
    engines := (c.engines.map (fun e => (e.1, ({
      running := e.2.running.filter (fun m => !p m), suspended := e.2.suspended.filter (fun m => !p m) } : CryEngine)))).filter
        (fun e => e.2 != {}) }) s

/-- A message is refused or ended: a look-aside entry or a host frame with a status, another frame dropped and counted, its list's copies
withdrawn (R324, R337). -/
def refuseMsg (src : CrySrc) (status stat : Nat) (s : State) : State :=
  match src with
  | .lookaside f q ctr => finishWork f q (BitVec.ofNat 16 ctr) status 0 s
  | .frame id =>
    match frameOf s id with
    | some fr =>
      if fromHost fr.source then dropFrame (fr.parent.getD id) status s
      else dropFrame id status (cryStat stat (if status = 0x3F then s else withdrawCopies id s))
    | none => s

/-- KEY_CLEAR of a slot (R330): the key and the record are zero in every copy, and operations that use the key end as for an empty
slot. -/
def keyClear (slot : Nat) (s : State) : State :=
  let ms := (cryMsgs s).filter (fun m => m.slot == slot)
  let s1 := removeMsgs (fun m => m.slot == slot) (modCry (fun c => { c with slots := mdel c.slots slot }) s)
  foldS (fun (m : CryMsg) s => refuseMsg m.src 0x12 2 s) ms s1

/-- Every engine that is idle takes its next message; with no engine or no checker left, every message ends as for want of one (R324). -/
def serveCry (s : State) : State :=
  if cryGone s then
    let ms := cryMsgs s
    foldS (fun (m : CryMsg) s => refuseMsg m.src 0x3F 6 s) ms (removeMsgs (fun _ => true) s)
  else foldS engineNext (activeUnits s 1) s

end Sys2Proof.Machine
end

