-- ==== Sys2Proof/Machine/PortOps.lean ====
section
/-!
DEFINITION. Logical ports: which the breakout modes use, their counters, and their links going down and beginning to come up (R77, R94,
R198 to R202).
-/
namespace Sys2Proof.Machine

/-- Is a logical port enabled: its physical port's ENABLE, and RX_EN or TX_EN (R199, R201)? -/
def lpEnabled (s : State) (lp : Nat) : Bool :=
  lpUsed s lp && wbit (portCfg s lp) 31 && (wbit (lpCfg s lp) 31 || wbit (lpCfg s lp) 30)

/-- Modes in which the Ethernet ports run (R93). -/
def portsRun (s : State) : Bool :=
  match s.cai.mode with
  | .bringup | .service | .spared | .pause | .drain | .isolated => true
  | _ => false

/-- A logical port that is enabled begins to come up while ETH_REFCLK runs and the mode lets ports run; INTERFACE 3 brings nothing up
(R77, R94, R199 to R201). -/
def beginUp (lp : Nat) (s : State) : State :=
  modLport lp (fun p => { p with starting := !p.up && lpEnabled s lp && s.cai.ethRef && portsRun s && fld (portCfg s lp) 9 8 != 3 }) s

/-- The frame in transmission is cut off: counted in TX_LINK_DOWN_DROP, and its copy has finished (R202). -/
def cutOff (lp : Nat) (s : State) : State :=
  match (lport s lp).sending with
  | none => s
  | some x => copyDone x.copy.frame .lost (now s) (bound16 s) (lpCount lp 13 1 (modLport lp (fun p => { p with sending := none }) s))

/-- Lock and signal of the lanes of a logical port, as MAC_PORTn_STATUS shows them (R198, R218). -/
def setLanes (lp : Nat) (on : Bool) (s : State) : State :=
  let m := at_ (lp % 8) (2 ^ (8 >>> fld (portCfg s lp) 1 0) - 1) * 257
  modMac (fun x => { x with lock := updAt (lp / 8) (fun w => if on then w ||| m else w &&& (65535 - m)) x.lock }) s

/-- An AEN to the controller of each NC-SI channel that is mapped to a logical port, enabled, and has that AEN enabled: 0 Link Status
Change, 1 Configuration Required, 2 Host NC Driver Status Change (R223). -/
def ncsiAen (kind lp : Nat) (s : State) : State :=
  if !bitOf s.cai.straps.toNat 6 then s
  else
    foldS (fun (c : Nat × NcsiChannel) s =>
      if s.cai.settings.ncsiPorts.getD c.1 16 = lp ∧ c.2.enabled ∧ bitOf c.2.aen kind then
        emit (.ncsi c.1 0xFF kind (Config.ncsiAnswer (0x100 + kind) c.1 [b2n (lport s lp).up])) s
      else s) (s.mgt.ncsi.zipIdx.map (fun e => (e.2, e.1))) s

/-- A logical port goes down (R201, R202); it begins to come up again where nothing keeps it down. -/
def lportDown (lp : Nat) (s : State) : State :=
  if !(lport s lp).up then beginUp lp s
  else beginUp lp (ncsiAen 0 lp (raise 0x4 0x02 lp .device (lpCount lp 18 1 (setLanes lp false (modLport lp (fun p => { p with up := false }) (cutOff lp s))))))

/-- An Akzal port: 0 UP, 1 DOWN. -/
def akzPort (s : State) (p : Nat) : AkzPort := s.akz.ports.getD p {}

/-- s with an Akzal port changed by g. -/
def modAkzPort (p : Nat) (g : AkzPort → AkzPort) (s : State) : State := modAkz (fun a => { a with ports := updAt p g a.ports }) s

/-- May an Akzal port run: it is enabled, ETH_REFCLK runs, and the mode lets the cascade run, as it does while PERST_HOLD holds the
device (R77, R93, R94, R412); under Akzal boot the UP port runs alone before firmware does (R425). -/
def akzMayRun (s : State) (p : Nat) : Bool :=
  let booting := s.cai.mode == .bringup && bitOf s.cai.straps.toNat 5 && p == 0
  s.cai.ethRef && (wbit (reg s .AKZ_CFG 0 0) p || booting) && (portsRun s || (s.cai.mode == .held && !s.cai.porstLow))

/-- An Akzal port that is not up begins to train, where it may run (R77, R412). -/
def akzBegin (p : Nat) (s : State) : State := modAkzPort p (fun x => { x with training := !x.up && akzMayRun s p }) s

/-- Every logical port. -/
def allLports : List Nat := List.range 16

end Sys2Proof.Machine
end

