-- ==== Sys2Proof/Machine/TblStore.lean ====
section
/-!
DEFINITION. The two-choice tables: the places of a key, lookups, placement, relocation, stashes and removal, for flow entries and for LPM
routes, and the filter of route lengths (R270 to R274, R277, R278).
-/
namespace Sys2Proof.Machine

/-- A TBL event (R293). -/
def tblEvent (code detail : Nat) (s : State) : State := raise 0x7 code detail .device s

/-- CRC-32C over a seed, as 4 bytes little-endian, and a key (R271). -/
def seeded (seed : Nat) (key : Bytes) : Nat := crc32c (leBytes 4 seed ++ key)

/-- TBL_HASH_SEED i. -/
def hashSeed (s : State) (i : Nat) : Nat := (reg s .TBL_HASH_SEED i 0).toNat

/-- Where a key may stand: its bank, its two buckets and its signature (R271, R277). LPM banks are numbered from 16. -/
structure Places where
  bank : Nat
  b1 : Nat
  b2 : Nat
  sig : Nat
deriving DecidableEq, Repr

def placesOf (s : State) (lpm : Bool) (key : Bytes) : Places :=
  let h1 := seeded (hashSeed s 0) key
  let h2 := seeded (hashSeed s 1) key
  let b1 := if lpm then bits h1 19 3 else bits h1 21 4
  let b := if lpm then bits h2 19 3 else bits h2 21 4
  { bank := if lpm then 16 + h1 % 8 else h1 % 16, b1 := b1, b2 := if b = b1 then b1 ^^^ 1 else b,
    sig := seeded (hashSeed s 0 ^^^ hashSeed s 1) key }

/-- KEY of a flow entry; VRF, FAMILY, LENGTH and PREFIX of a route, as its key (R270, R277; assumption 86). -/
def flowKey (rec : Bytes) : Bytes := slice rec 0 48
def routeKey (rec : Bytes) : Bytes :=
  slice rec 16 2 ++ [BitVec.ofNat 8 (bits (byteAt rec 19) 1 1), BitVec.ofNat 8 (byteAt rec 18)] ++ slice rec 0 16

/-- The flow entry of an index. -/
def flowAt (s : State) (i : Nat) : Option Bytes := mfind s.tbl.flows i

/-- The key that an index of a table holds. -/
def keyAt (s : State) (lpm : Bool) (i : Nat) : Option Bytes :=
  if lpm then (mfind s.tbl.routes i).map routeKey else (flowAt s i).map flowKey

/-- Ways of a bucket of a bank. -/
def waysOf (bank : Nat) : Nat := if bank < 16 then 8 else 4

/-- A bucket, and s with it replaced. -/
def bucketAt (s : State) (bank b : Nat) : List (Option Slot8) := mget (List.replicate (waysOf bank) none) s.tbl.buckets (bank * 262144 + b)

def setBucket (bank b : Nat) (ws : List (Option Slot8)) (s : State) : State :=
  modTbl (fun t => { t with buckets := mset (List.replicate (waysOf bank) none) t.buckets (bank * 262144 + b) ws }) s

/-- The stash of a bank. -/
def stashAt (s : State) (bank : Nat) : List Slot8 := mget [] s.tbl.stash bank
def setStash (bank : Nat) (l : List Slot8) (s : State) : State := modTbl (fun t => { t with stash := mset [] t.stash bank l }) s

/-- A lookup reads both buckets and the stash, and an entry matches only on an equal key (R271). -/
def findKey (s : State) (lpm : Bool) (key : Bytes) : Option Nat :=
  let p := placesOf s lpm key
  let slots := (bucketAt s p.bank p.b1).filterMap id ++ (bucketAt s p.bank p.b2).filterMap id ++ stashAt s p.bank
  (slots.find? (fun x => x.sig == p.sig && keyAt s lpm x.index == some key)).map Slot8.index

/-- The first free way of a bucket takes a slot, where one is free. -/
def putWay (bank b : Nat) (x : Slot8) (s : State) : Option State :=
  let ws := bucketAt s bank b
  (ws.findIdx? Option.isNone).map (fun i => setBucket bank b (ws.set i (some x)) s)

/-- The other bucket of the slot's key. -/
def alternate (s : State) (bank b i : Nat) : Option Nat :=
  (keyAt s (decide (16 ≤ bank)) i).map (fun key => let p := placesOf s (decide (16 ≤ bank)) key; if p.b1 = b then p.b2 else p.b1)

/-- The moves out of a bucket: each occupant and where it could go. -/
def movesFrom (s : State) (bank b : Nat) : List (Nat × Nat) :=
  (bucketAt s bank b).filterMap (fun x => x.bind (fun x => (alternate s bank b x.index).map (fun a => (x.index, a))))

/-- Paths one move longer, from a list of (bucket reached, moves last first). -/
def longer (s : State) (bank : Nat) (ps : List (Nat × List (Nat × Nat × Nat))) : List (Nat × List (Nat × Nat × Nat)) :=
  (ps.map (fun p => ((movesFrom s bank p.1).filter (fun m => !(p.2.any (fun e => e.2.1 == m.1)))).map
    (fun m => (m.2, (p.1, m.1, m.2) :: p.2)))).flatten

/-- A shortest path of at most n moves that ends in a bucket with a free way (R272): the moves, last first. -/
def findPath (s : State) (bank : Nat) : Nat → List (Nat × List (Nat × Nat × Nat)) → Option (List (Nat × Nat × Nat))
  | 0, _ => none
  | n + 1, ps =>
    let qs := longer s bank ps
    match qs.find? (fun q => (bucketAt s bank q.1).any Option.isNone) with
    | some q => some q.2
    | none => findPath s bank n qs

/-- STASH_HIGH, as more than 48 slots of a bank's stash come into use (R293). -/
def stashHigh (bank : Nat) (s : State) : State :=
  if (stashAt s bank).length = 49 then tblEvent 0x03 (bank % 16 + at_ 4 (bank / 16)) s else s

/-- An index is placed for its key: in a free way of either bucket, by a path of moves that begins now, or in the stash; none where there is
no place (R272). -/
def place (lpm : Bool) (i : Nat) (key : Bytes) (work : Option (Fn × Nat × Nat)) (s : State) : Option State :=
  let p := placesOf s lpm key
  let x : Slot8 := { sig := p.sig, index := i }
  match (putWay p.bank p.b1 x s).or (putWay p.bank p.b2 x s) with
  | some t => some t
  | none =>
    match findPath s p.bank 4 [(p.b1, []), (p.b2, [])] with
    | some path =>
      let dest := (path.getLast?.map (fun (m : Nat × Nat × Nat) => m.1)).getD p.b1
      some (modTbl (fun t => { t with
        moves := mput t.moves p.bank path, placing := mput t.placing p.bank { slot := x, bucket := dest, work := work } }) s)
    | none =>
      if (stashAt s p.bank).length < 64 then some (stashHigh p.bank (setStash p.bank (stashAt s p.bank ++ [x]) s)) else none

/-- Is a bank carrying out the moves of an insert, so that other changes in it wait (R290)? -/
def bankBusy (s : State) (bank : Nat) : Bool := (mfind s.tbl.placing bank).isSome

/-- A slot of the stash whose key may stand in a bucket moves back into it (R272). -/
def unstash (bank b : Nat) (s : State) : State :=
  let fits (x : Slot8) : Bool := match keyAt s (decide (16 ≤ bank)) x.index with
    | some key => let p := placesOf s (decide (16 ≤ bank)) key; p.b1 == b || p.b2 == b
    | none => false
  match (stashAt s bank).find? fits with
  | none => s
  | some x => match putWay bank b x s with
    | some t => setStash bank ((stashAt t bank).filter (fun y => y.index != x.index)) t
    | none => s

/-- The slot of an index goes, and a stash slot takes the freed way. -/
def removeSlot (lpm : Bool) (i : Nat) (key : Bytes) (s : State) : State :=
  let p := placesOf s lpm key
  let clear (b : Nat) (s : State) : State :=
    let ws := bucketAt s p.bank b
    if ws.any (fun x => x.any (fun x => x.index == i)) then
      unstash p.bank b (setBucket p.bank b (ws.map (fun x => if x.any (fun x => x.index == i) then none else x)) s)
    else s
  clear p.b2 (clear p.b1 (setStash p.bank ((stashAt s p.bank).filter (fun x => x.index != i)) s))

/-- A flow entry is removed, with its lock (R287, R288). -/
def removeFlow (i : Nat) (s : State) : State :=
  match flowAt s i with
  | none => s
  | some rec =>
    let s1 := removeSlot false i (flowKey rec) s
    modTbl (fun t => { t with flows := mdel t.flows i, locks := mdel t.locks i, visits := mdel t.visits i }) s1

/-- OWNER of a flow entry, and its flags (R270). -/
def flowOwner (rec : Bytes) : Nat := leAt rec 52 2
def flowFlag (rec : Bytes) (b : Nat) : Bool := bitOf (byteAt rec 48) b

/-- An FLR of a VF, or the clearing of VF Enable, deletes the entries that it created (R289). -/
def dropCreated (v : Nat) (s : State) : State :=
  foldS removeFlow ((s.tbl.flows.filter (fun e => flowFlag e.2 4 && flowOwner e.2 == v)).map Prod.fst) s

/-! ### Route lengths and the filter (R278) -/

/-- The four filter bits of a route's key. -/
def filterBits (s : State) (key : Bytes) : List Nat :=
  let h1 := seeded (hashSeed s 0) key
  let h2 := seeded (hashSeed s 1) key
  (List.range 4).map (fun i => (h1 + i * h2) % 2 ^ 27)

/-- A route that is added sets its bits, in both copies during a rebuild. -/
def filterAddKey (key : Bytes) (s : State) : State :=
  let put (m : NMap Bool) : NMap Bool := (filterBits s key).foldl (fun m i => mset false m i true) m
  modTbl (fun t => { t with filter := put t.filter, filter2 := if t.rebuilding then put t.filter2 else t.filter2 }) s

/-- Does the filter answer "possibly present"? -/
def filterHas (s : State) (key : Bytes) : Bool := (filterBits s key).all (fun i => mget false s.tbl.filter i)

/-- Does a VRF hold a route of a family at a length: the map of lengths? -/
def lengthUsed (s : State) (vrf fam len : Nat) : Bool :=
  s.tbl.routes.any (fun e => leAt e.2 16 2 % 4096 == vrf && bits (byteAt e.2 19) 1 1 == fam && byteAt e.2 18 == len)

/-- A prefix with the bits beyond a length zero (R277). -/
def cutPrefix (len : Nat) (p : Bytes) : Bytes :=
  let n := beNat (slice p 0 16)
  beBytes 16 (n / 2 ^ (128 - min 128 len) * 2 ^ (128 - min 128 len))

/-- The route of a VRF, family and length for an address, probed through the filter. -/
def probeRoute (s : State) (vrf fam len : Nat) (addr : Bytes) : Option Bytes :=
  let key := leBytes 2 vrf ++ [BitVec.ofNat 8 fam, BitVec.ofNat 8 len] ++ cutPrefix len addr
  if lengthUsed s vrf fam len ∧ filterHas s key then (findKey s true key).bind (mfind s.tbl.routes) else none

/-- The longest route that matches an address (R278). -/
def lookupRoute (s : State) (vrf fam : Nat) (addr : Bytes) : Option Bytes :=
  let top := if fam = 1 then 128 else 32
  firstSome (fun k => probeRoute s vrf fam (top - k) addr) (List.range (top + 1))

/-- The banks of the lengths that a lookup probes without a match before it finds its route, or none (R274, R277). -/
def missedBanks (s : State) (vrf fam : Nat) (addr : Bytes) : List Nat :=
  let top := if fam = 1 then 128 else 32
  ((List.range (top + 1)).takeWhile (fun k => (probeRoute s vrf fam (top - k) addr).isNone)).filterMap (fun k =>
    let key := leBytes 2 vrf ++ [BitVec.ofNat 8 fam, BitVec.ofNat 8 (top - k)] ++ cutPrefix (top - k) addr
    if lengthUsed s vrf fam (top - k) ∧ filterHas s key then some (placesOf s true key).bank else none)

end Sys2Proof.Machine
end

