-- ==== Sys2Proof/Machine/Resets.lean ====
section
/-!
DEFINITION. Resets and mode changes as shared operations: FUNCTION, half, RESTART and POWER resets (R83, R119, R141, R469), the
silencing of a function (R140), the stop of every fast domain (R73) and the record of a mode (R95, R112, R115).
-/
namespace Sys2Proof.Machine

/-! ### Modes (R93, R95, R115) -/

/-- Does any kind have a spare engaged (R95, R438)? -/
def sparesEngaged (s : State) : Bool := s.rel.engaged.any (fun e => decide (0 < e.2))

/-- Where the table of R95 says "SERVICE or SPARED". -/
def serviceMode (s : State) : Mode := if sparesEngaged s then .spared else .service

/-- The mode changes: CAI_MODE records it, and MODE_CHANGE is raised except between SERVICE and SPARED (R112, R115); a CAI_WAKE_AT that has
passed on entry to STANDBY counts as reached (R81). -/
def setMode (m : Mode) (s : State) : State :=
  let old := s.cai.mode
  if m = old then s
  else
    let s1 := modCai (fun c => { c with mode := m, prevMode := old, drain := if m = .drain then c.drain else none }) s
    if (old = .service ∧ m = .spared) ∨ (old = .spared ∧ m = .service) then s1
    else wakePassed (raise 0x0 0x07 (m.code + 16 * old.code) .device s1)

/-- Some half has a trained link. -/
def anyLink (s : State) : Bool := s.hif.halves.any (fun h => h.up)

/-- Some PF whose link is up is ready. -/
def anyPfReady (s : State) : Bool :=
  (List.range 4).any (fun i => pfEnabled s i && (fnSt s (.pf i)).ready && linkUp s (.pf i))

/-- The condition of R94 through PERST_HOLD: it is set, and PERSTn_N of every half in use is low. -/
def perstHold (s : State) : Bool :=
  wbit (reg s .CAI_MODE_CFG 0 0) 0 && !s.cai.perstHigh.getD 0 false && !(bifurcated s && s.cai.perstHigh.getD 1 false)

/-! ### Registers by reset kind (R469) -/

/-- The register that a key of the store belongs to. -/
def regOfKey (k : Nat) : Option Reg := allRegs.find? (fun r => r.ctorIdx == k / 2 ^ 44)

/-- The register whose W1C bit an occurrence count belongs to; the counts of configuration space, kept above the blocks, reset with the
registers that act for their PF (R444). -/
def regOfOcc (k : Nat) : Option Reg :=
  let w := k / 2 ^ 16
  if 0x200000 ≤ w then some .HIF_ACCESS_ERR
  else (pfRegAt (w / 0x10000 * 0x200000 + 0x100 + (w % 0x10000) / 0x40 * 4)).map Prod.fst

/-- Stored registers and occurrence counts for which p holds, of register and holder, return to reset (R444, R469). -/
def resetRegs (p : Reg → Nat → Bool) (s : State) : State :=
  { s with
    regs := s.regs.filter (fun e => match regOfKey e.1 with
      | some r => !p r (e.1 % 2 ^ 24)
      | none => true),
    occ := s.occ.filter (fun e => match regOfOcc e.1 with
      | some r => !p r (e.1 % 2 ^ 16)
      | none => true) }

/-! ### Functions (R140, R141, R153, R469) -/

/-- The VFs of a PF that have a record. -/
def vfsOf (s : State) (pf : Nat) : List Fn :=
  (s.hif.fns.filter (fun e => decide (0x4000 + at_ 12 pf ≤ e.1 ∧ e.1 < 0x4000 + at_ 12 pf + 4096))).map (fun e => .vf pf (e.1 % 4096))

/-- The VFs of a PF that VF Enable has brought up (R130). -/
def enabledVfs (s : State) (pf : Nat) : List Fn := (vfsOf s pf).filter (fun f => (fnSt s f).enabled)

/-- Requests of a function that wait for a slot or a tag are never issued (R131). -/
def dropWaiting (f : Fn) (s : State) : State := modHif (fun h => { h with waiting := h.waiting.filter (fun r => r.fn != f) }) s

/-- The latch of a mover channel clears (R380, R381). -/
def mvUnlatch (u : MvChan) : MvChan := { u with st := .idle, cause := 0, dirWrite := false, flushErr := false, device := false, failAddr := 0, haltAt := none }

/-- A function's mover channels stop: their jobs end without a completion entry, and the latch clears (R382). -/
def dropJobs (f : Fn) (s : State) : State :=
  modDmv (fun d => { d with chans := d.chans.map (fun e =>
    if mvOwner s e.1 = f then (e.1, { mvUnlatch e.2 with jobs := [], flushing := [] }) else e) }) s

/-- Commands not yet sent are discarded, and those sent have their data and responses discarded (R346, R353). -/
def nvDiscard (p : NCmd → Bool) (x : Nvme) : Nvme :=
  { x with cmds := (x.cmds.filter (fun c => !p c || c.st == .sent || c.st == .held)).map (fun c => if p c then { c with discard := true } else c) }

/-- What the units hold of a function's fetched work goes (R140): its look-aside messages and storage operations end without a completion
entry, an insertion under way completes none, and the commands of its emulated controller are discarded as for CC.EN cleared; the
controller fetches no more before it is enabled again. -/
def dropUnits (f : Fn) (s : State) : State :=
  let s1 := removeMsgs (fun m => match m.src with
    | .lookaside g _ _ => g == f
    | .frame _ => false) s
  let s2 := modTbl (fun t => { t with placing := t.placing.map (fun e =>
    (e.1, if e.2.work.any (fun w => w.1 == f) then { e.2 with work := none } else e.2)) }) s1
  modSto (fun t => { t with
    ops := t.ops.filter (fun o => o.fn != f)
    ctrls := t.ctrls.map (fun e => (e.1,
      if e.1 = fnCode f then { nvDiscard (fun _ => true) e.2 with aers := [], quiesced := true } else e.2)) }) s2

/-- A function's emulated controller at reset; commands that were sent stay until their responses arrive (R141, R346). -/
def resetController (f : Fn) (s : State) : State :=
  modSto (fun t => { t with ctrls := mset {} t.ctrls (fnCode f) { ({} : Nvme) with cmds := (mget ({} : Nvme) t.ctrls (fnCode f)).cmds } }) s

/-- One function goes silent: its queues enter QUIESCED and its unfinished work ends without a completion (R140). -/
def silenceOne (f : Fn) (s : State) : State :=
  let s1 := modQm (fun m => { m with queues := m.queues.map (fun e =>
    if e.1 / 2 ^ 20 = fnCode f ∧ created e.2 then (e.1, { e.2 with st := .quiesced, work := [], staleAt := none }) else e) }) s
  dropUnits f (dropJobs f (dropWaiting f (modFn f (fun r => { r with silent := true, awaitQuiesce := decide (0 < outstanding s f) }) s1)))

/-- A function goes silent, and with a PF its VFs (R140). -/
def silence (f : Fn) (s : State) : State :=
  match f with
  | .pf i => foldS silenceOne (.pf i :: enabledVfs s i) s
  | _ => silenceOne f s

/-- A TDISP interface in CONFIG_LOCKED or RUN moves to ERROR (R153). -/
def tdiError (f : Fn) (s : State) : State :=
  let r := fnSt s f
  if r.tdi.st = .locked ∨ r.tdi.st = .run then
    raise 0x2 0x0A (fnCode f) (.function (.pf (fnPf f)))
      (silenceOne f (modFn f (fun r => { r with tdi := { r.tdi with st := .error } }) s))
  else s

/-- Reads of a function that are outstanding become orphaned (R141). -/
def orphan (f : Fn) (s : State) : State :=
  modHif (fun h => { h with slots := h.slots.map (fun e =>
    if e.2.req.fn = f ∧ (e.2.st = .outstanding ∨ e.2.st = .endedEarly) then (e.1, { e.2 with st := .orphaned }) else e) }) s

/-- A pending migration action ends, its result shows, and VF_MIG_DONE is raised (R189). -/
def migDone (f : Fn) (result : Nat) (s : State) : State :=
  match (fnSt s f).mig.action with
  | none => s
  | some _ =>
    raise 0x2 0x0C (fnCode f % 4096) (.function (.pf (fnPf f)))
      (modFn f (fun r => { r with mig := { r.mig with action := none, imageDue := false, result := result } }) s)

/-- A reset of a VF ends its pending action with ABORTED, returns STATE to RUNNING and stops the log (R189). -/
def abortMigration (f : Fn) (s : State) : State :=
  modFn f (fun r => { r with mig := { r.mig with st := .running, logging := false } }) (migDone f 7 s)

/-- Key slots that a VF created for its own vport are zeroised with its reset (R326). -/
def zeroiseVf (f : Fn) (s : State) : State :=
  match f, (fnSt s f).vport with
  | .vf _ _, some v =>
    foldS keyClear ((s.cry.slots.filter (fun e => e.2.vfCreated && e.2.owner == v)).map Prod.fst) s
  | _, _ => s

/-- The first vport of a NET PF's range, to which it is bound (R186). -/
def pfVport (s : State) (i : Nat) : Option Nat :=
  let g := pfSet s i
  if g.nvme ∨ g.vportCount = 0 then none else some g.vportFirst

/-- A FUNCTION reset of one function (R141, R188, R189, R409, R469). keep: a VF keeps what R188 lets it keep. -/
def resetFunction (keep : Bool) (f : Fn) (s0 : State) : State :=
  let c := fnCode f
  let own : List Nat := if isVf f then (fnSt s0 f).vport.toList else []
  let s := abortMailbox f (foldS dropCreated own (releaseLocks f none (migDone f 7 (zeroiseVf f s0))))
  let r := fnSt s f
  let vfRegs (h : Nat) : Bool := match f with
    | .pf i => decide (0x4000 + at_ 12 i ≤ h ∧ h < 0x4000 + at_ 12 i + 4096)
    | _ => false
  let s1 := resetRegs (fun g h => g.info.kind == .function &&
    (if g.info.held == .vf then vfRegs h || (h == c && !keep) else h == c)) s
  let new : FnSt := match f with
    | .pf i => { vport := pfVport s i }
    | _ =>
      let base : FnSt := { tdi := r.tdi, mig := { result := r.mig.result, imgUsed := r.mig.imgUsed } }
      if keep then { base with grant := r.grant, vport := r.vport, enabled := r.enabled } else {}
  let vports := r.vport.toList
  let s2 := modHif (fun h => { h with
    fns := mset {} h.fns c new, cfg := h.cfg.filter (fun e => e.1 / 1024 != c), ats := h.ats.filter (fun e => e.fn != f) }) s1
  let s3 := modQm (fun m => { m with
    queues := m.queues.filter (fun e => e.1 / 2 ^ 20 != c), events := m.events.filter (fun e => e.fn != f), lastDestroy := mdel m.lastDestroy c }) s2
  let s4 := modTim (fun t => { t with pages := mdel t.pages c }) s3
  let s5 := modMac (fun m => { m with filters := m.filters.filter (fun e => !vports.contains (leAt e.2 8 2 % 4096)) }) s4
  let s6 := if isVf f then modFn (.pf (fnPf f)) (fun r => { r with pageRequests := r.pageRequests.filter (fun x => x.fn != f) }) s5 else s5
  resetController f (dropUnits f (dropJobs f (orphan f (dropWaiting f s6))))

/-- Every function of a half is reset, with its configuration space and queues; VFs are disabled (R83, R119). -/
def resetHalfFns (h : Nat) (s : State) : State :=
  let pfs := (List.range 4).filter (fun i => pfHalf s i == h)
  let s1 := foldS (fun i s => resetFunction false (.pf i) (foldS (resetFunction false) (vfsOf s i) s)) pfs s
  modHif (fun x => { x with doe := x.doe.set h {}, ide := x.ide.filter (fun e => e.1 / 32 != h) }) s1

/-- A half's link goes down and its functions are reset (R119): LINK_DOWN is raised where it was up. -/
def halfDown (h : Nat) (s : State) : State :=
  let was := (halfSt s h).up
  let s1 := modHalf h (fun _ => {}) (resetHalfFns h s)
  let s2 := foldS (fun i s => modFn (.pf i) (fun r => { r with readyWhy := some 0 }) s) ((List.range 4).filter (fun i => pfHalf s i == h && pfEnabled s i)) s1
  if was then raise 0x2 0x02 h (.half h) s2 else s2

/-- A half trains while its PERSTn_N is high, its reference clock has run for 100 µs, and every main rail is good, in a mode in which
HIF runs: in BRINGUP from step 5 on, and in RECOVERY and RETURN half 0 alone, where PF0 is (R84, R93, R98, R109, R111). -/
def mayTrain (s : State) (h : Nat) : Bool :=
  halfInUse s h && s.cai.perstHigh.getD h false && (s.cai.pcieRef.getD h none).isSome && s.cai.rails.all (fun r => r.good) &&
    (match s.cai.mode with
     | .off | .standby => false
     | .held => !s.cai.porstLow
     | .bringup => match s.cai.bringup with
       | some b => b.booted
       | none => true
     | .recovery => h == 0
     | .returned => s.lcs.life != 4 && h == 0
     | _ => true)

/-- A half that may train and is not up begins training (R84, R119). -/
def startTraining (h : Nat) (s : State) : State :=
  if mayTrain s h ∧ !(halfSt s h).up then modHalf h (fun x => { x with training := true }) s
  else modHalf h (fun x => { x with training := false }) s

/-- The device is HELD through PERST_HOLD: every logical port goes down (R94). -/
def enterHold (s : State) : State := foldS lportDown allLports (setMode .held s)

/-- HELD through PERST_HOLD ends: the device is ISOLATED until a PF is ready, and every enabled logical port begins to come up (R94, R95). -/
def leaveHold (s : State) : State :=
  if s.cai.mode = .held ∧ !s.cai.porstLow ∧ !perstHold s then
    foldS beginUp allLports (setMode (if anyPfReady s then serviceMode s else .isolated) s)
  else s

/-- The mode after a link has gone down, or the PERST_HOLD condition has come to hold (R94, R95, R96). -/
def modeAfterLinks (s : State) : State :=
  match s.cai.mode with
  | .service | .spared | .drain => if perstHold s then enterHold s else if anyLink s then s else setMode .isolated s
  | .isolated => if perstHold s then enterHold s else s
  | _ => s

/-! ### Stops and restarts (R73, R97, R108, R443, R469) -/

/-- The work of the fast domains is gone; nothing in flight completes (R73). -/
def stopFast (s : State) : State :=
  let s1 := halfDown 0 (halfDown 1 s)
  let s2 := modHif (fun h => { h with halves := h.halves.map (fun x => { x with training := false }) }) s1
  { s2 with
    tm := { s2.tm with frames := [], freeOchre := ({} : Tm).freeOchre, freeUmber := ({} : Tm).freeUmber, freeSienna := ({} : Tm).freeSienna,
                       nodes := s2.tm.nodes.map (fun e => (e.1, { e.2 with copies := [] })) },
    mac := { s2.mac with lports := ({} : Mac).lports }, mgt := {}, prs := { s2.prs with engines := [] },
    cry := { s2.cry with engines := [], waiting := [], held := [], fetching := [] },
    sto := { s2.sto with ops := [], ctrls := [] }, dmv := {}, svc := {}, dev := if s2.cai.rails.all (fun r => r.inRange) then s2.dev else [],
    tbl := if s2.cai.rails.all (fun r => r.inRange) then s2.tbl else {},
    akz := { s2.akz with ports := ({} : Akz).ports, reachable := 0, whole := false, imgGot := [], passing := false, master := none, masterOk := 0 },
    cai := { s2.cai with bringup := none, domains := [], heldAccesses := [], ready := [] },
    lcs := { s2.lcs with switch_ := none, chain := none } }

/-- The active set of a kind is formed at BRINGUP from the lowest-numbered units that are not CONDEMNED (R436). -/
def formSet (kind : Nat) (r : Rel) : Rel :=
  let all := List.range (unitCounts kind).1
  let old (i : Nat) : RelUnit := mget (unitReset kind i) r.units (kind * 65536 + i)
  let good := all.filter (fun i => (old i).st != 5)
  all.foldl (fun r i =>
    let u := old i
    let st := if u.st = 5 then 5 else if (good.take (unitCounts kind).2).contains i then 0 else 1
    { r with units := mset (unitReset kind i) r.units (kind * 65536 + i) { st := st, strikes := u.strikes, epoch := u.epoch } }) r

/-- The physical cores of the logical cores 0 to 63 at BRINGUP: the lowest-numbered that are not CONDEMNED (R387, R436). -/
def corePlaces (r : Rel) : NMap Nat :=
  let good := ((List.range 68).filter (fun i => (mget (unitReset 3 i) r.units (3 * 65536 + i)).st != 5)).take 64
  (List.range good.length).foldl (fun m c => mset c m c (good.getD c c)) []

/-- A RESTART reset, at the entry to BRINGUP (R97, R469): time, the trace, the life-cycle state, the straps and Cairn state are kept; events
that arose while the links were down stay (R88). From a STANDBY whose main rails stayed on HBM is not rewritten, and its tables are used again
only under the epoch rule (R108, R441). -/
def restartReset (s : State) : State :=
  let s1 := resetRegs (fun g _ => g.info.kind != .power) s
  let warm := s.cai.mode == .standby
  let keepTbl := warm && s.rel.stoppedInOrder && s.rel.poison.isEmpty
  let pfs (i : Nat) : FnSt := { vport := pfVport s i, readyWhy := if pfEnabled s i then some 0 else none }
  let r0 : Rel := { ({} : Rel) with
    units := s.rel.units, epochs := s.rel.epochs, log := s.rel.log, logNext := s.rel.logNext, poison := if warm then s.rel.poison else [] }
  { s1 with
    dev := if warm then s.dev else [],
    hif := { fns := (List.range 4).foldl (fun m i => mset {} m (fnCode (.pf i)) (pfs i)) [] },
    qm := { events := (s.qm.events.filter (fun e => e.block == 0 || e.block == 1 || e.block == 0xD || e.block == 0xF)).map (fun e =>
      if e.fn = .fw then { e with written := none, count := satAdd 0xFFFF e.count e.more, more := 0 } else e) },
    mac := {}, mgt := {}, prs := {}, tbl := if keepTbl then s.tbl else {}, tm := { nextFrame := s.tm.nextFrame }, cry := {},
    sto := {}, dmv := {}, svc := { phys := corePlaces s.rel }, akz := { ({} : Akz) with joined := s.akz.joined, member := s.akz.member, members := s.akz.members, serials := s.akz.serials },
    rel := (List.range 9).foldl (fun r k => formSet k r) r0,
    tim := { s.tim with pages := [] },
    lcs := { s.lcs with
      nonce := none, nonceShown := 0, pldm := .idle, pldmLen := 0, pldmGot := [], replyTo := none, staged := none, memberResults := [], result := 0,
      switch_ := none, chain := none },
    cai := { s.cai with domains := [], heldAccesses := [], ready := [], drain := none } }

/-- A POWER reset (R83, R469): fuses and flash stay, and so does what the board drives. -/
def powerReset (s : State) : State :=
  let c := s.cai
  { ({} : State) with
    pending := s.pending, elapsed := s.elapsed, out := s.out, free := s.free,
    cai := { ({} : Cai) with
      stageA := c.stageA, rails := c.rails, perstHigh := c.perstHigh, temps := c.temps, sysclk := c.sysclk, ethRef := c.ethRef,
      pcieRef := c.pcieRef, wakePending := false },
    tim := { ({} : Tim) with tosc := s.tim.tosc, lost := true, servo := s.tim.servo },
    lcs := { ({} : Lcs) with
      life := s.lcs.life, owners := s.lcs.owners, returnPending := s.lcs.returnPending, returnTo := s.lcs.returnTo, svnFloor := s.lcs.svnFloor,
      zeroise := s.lcs.zeroise, flashRead := s.lcs.flashRead, dir0 := s.lcs.dir0, dir1 := s.lcs.dir1, bankA := s.lcs.bankA, bankB := s.lcs.bankB,
      recovery := s.lcs.recovery, regionA := s.lcs.regionA, regionB := s.lcs.regionB, freshImage := s.lcs.freshImage,
      freshRegion := s.lcs.freshRegion,
      active := ((directory s).map (fun d => d.2.active)).getD 0, committed := ((directory s).map (fun d => d.2.committed)).getD true } }

end Sys2Proof.Machine
end

