-- ==== Sys2Proof/Machine/ConfigSpace.lean ====
section
/-!
DEFINITION. Configuration space (R120 to R130, R143 to R150): the value of every dword and the effect of writing one.  Offsets of fields
within a capability are those of the PCIe base specification (assumption 20).
-/
namespace Sys2Proof.Machine

/-- The dword under which an offset is stored: a VF's ATS control stands at 0x114 and its PF's at 0x1C4, where a VF has nothing (R123). -/
def cfgDword (f : Fn) (off : Nat) : Nat :=
  let d := off % 4096 / 4
  if isVf f then (if d = 0x114 / 4 then 0x1C4 / 4 else if d = 0x1C4 / 4 then 0x114 / 4 else d) else d

/-- Reset value of the stored, writable bits of a dword (R122, R128, R146). -/
def cfgReset (d : Nat) : Word :=
  if d = 0x58 / 4 then 0x2110 else if d = 0x190 / 4 then 1 else if d = 0x10C / 4 then 0x00062010 else if d = 0x114 / 4 then 0xA000 else 0

/-- The stored bits of a dword. -/
def cfgGet (s : State) (f : Fn) (d : Nat) : Word := mget (cfgReset d) s.hif.cfg (fnCode f * 1024 + d)

/-- s with the stored bits of a dword set. -/
def cfgSet (f : Fn) (d : Nat) (v : Word) (s : State) : State :=
  modHif (fun h => { h with cfg := mset (cfgReset d) h.cfg (fnCode f * 1024 + d) v }) s

/-- Enabled PFs of a half, by index. -/
def pfsOfHalf (s : State) (h : Nat) : List Nat := (List.range 4).filter (fun i => pfEnabled s i && pfHalf s i == h)

/-- TotalVFs of a PF (R117, R128). -/
def totalVfs (s : State) (i : Nat) : Nat := (pfSet s i).totalVfs

/-- First VF Offset of a PF (R129). -/
def firstVfOffset (s : State) (i : Nat) : Nat :=
  let pfs := pfsOfHalf s (pfHalf s i)
  let fn := pfFunction s i
  pfs.length - fn + ((pfs.filter (fun j => pfFunction s j < fn)).map (totalVfs s)).foldl (· + ·) 0

/-- The Requester ID of a function on its link, counted from PF0 of its half (R117, R128, R129; assumption 121). -/
def requesterId (s : State) : Fn → Nat
  | .pf i => pfFunction s i
  | .vf p n => pfFunction s p + firstVfOffset s p + n
  | .fw => 0

/-- The header log of AER takes an error that finds no other logged, with the Requester ID of the function in the TLP's second dword and, for a
completion, its third; the rest of the header is a free value (R123, R146). -/
def headerLog (f : Fn) (bit : Nat) (s : State) : State :=
  let pf := Fn.pf (fnPf f)
  if (cfgGet s pf (0x104 / 4)) ≠ 0 ∨ bit = 14 then s
  else
    let r := takeFree s
    let id := at_ 16 (requesterId s f)
    let word (k : Nat) : Word := w32 (if k = (if bit = 16 then 2 else 1) then id + bits r.1 (32 * k + 15) (32 * k) else bits r.1 (32 * k + 31) (32 * k))
    foldS (fun k s => cfgSet pf (0x11C / 4 + k) (word k) s) [0, 1, 2, 3] (cfgSet pf (0x118 / 4) (w32 bit) r.2)

/-- An error is logged in the AER capability of a function's PF: the uncorrectable bit with the header log, and for an advisory non-fatal error
the correctable bit 13 (R123, R134, R135, R146). The status bits count occurrences under R8 (R444). -/
def aerLog (f : Fn) (bit : Nat) (advisory : Bool) (s0 : State) : State :=
  let pf := Fn.pf (fnPf f)
  let s := headerLog f bit s0
  let count (n : Nat) (s : State) : State := { s with occ := mmod 0 s.occ ((0x200000 + n) * 2 ^ 16 + fnCode pf) (satAdd 0xFFFF 1) }
  let s1 := count bit (cfgSet pf (0x104 / 4) (cfgGet s pf (0x104 / 4) ||| w32 (2 ^ bit)) s)
  if advisory then count (32 + 13) (cfgSet pf (0x110 / 4) (cfgGet s1 pf (0x110 / 4) ||| w32 (2 ^ 13)) s1) else s1

/-- A request that the function does not support: it completes with Unsupported Request, which AER logs as an advisory non-fatal error (R126,
R146). -/
def rejectRequest (f : Fn) (s : State) : State := if f = .fw then s else emit (.unsupported f) (aerLog f 20 true s)

/-- Bits of a dword that a write changes (R120, R122, R123, R128, R146, R150). -/
def cfgWritable (s : State) (f : Fn) (d : Nat) : Word :=
  if isVf f then
    if d = 1 then 0x544 else if d = 0x0C / 4 then 0xFF else if d = 0x3C / 4 then 0xFF else if d = 0x44 / 4 then 3
    else if d = 0x58 / 4 then 0x70F0 &&& ~~~ 0x0100#32 else if d = 0x78 / 4 then 0xF else if d = 0xA0 / 4 then 0xC0000000
    else if d = 0x1C4 / 4 then 0x801F0000 else 0
  else
    if d = 1 then 0x546 else if d = 0x0C / 4 then 0xFF
    else if d = 0x10 / 4 then 0xFE000000 else if d = 0x18 / 4 then 0xFF000000 else if d = 0x20 / 4 then 0xFFFF0000
    else if d = 0x14 / 4 ∨ d = 0x1C / 4 ∨ d = 0x24 / 4 then 0xFFFFFFFF
    else if d = 0x3C / 4 then 0xFF else if d = 0x44 / 4 then 3
    else if d = 0x58 / 4 then 0x71F0 else if d = 0x78 / 4 then 0x100F else if d = 0xA0 / 4 then 0xC0000000
    else if d = 0x108 / 4 ∨ d = 0x10C / 4 then 0x177010 else if d = 0x114 / 4 then 0xB1C1
    else if d = 0x178 / 4 then (if isPf0 s (fnPf f) then 0x19 else 0x09)
    else if d = 0x180 / 4 then 0xFFFF else if d = 0x190 / 4 then 0xFFFFFFFF else if d = 0x194 / 4 then 0xFFFF0000 else if d = 0x198 / 4 then 0xFFFFFFFF
    else if d = 0x1B4 / 4 then 0x004C0000 else if d = 0x1C4 / 4 then 0x801F0000 else if d = 0x1D4 / 4 then 0x00010000
    else if d = 0x1E4 / 4 then 1 else if d = 0x1EC / 4 then 0xFFFFFFFF else if d = 0x1F8 / 4 then 1 else if d = 0x398 / 4 then 4
    else if isPf0 s (fnPf f) then
      if d = 0x3DC / 4 then 0xFFFFFFFF
      else if (List.range 16).any (fun k => decide (ideBlock k < d ∧ d < ideBlock (k + 1) ∧ d ≠ ideBlock k + 2)) then 0xFFFFFFFF
      else 0
    else 0

/-- Bits of a dword that clear where 1 is written (R120, R146). -/
def cfgW1c (f : Fn) (d : Nat) : Word :=
  if d = 1 then 0xF9000000 else if isVf f then 0 else if d = 0x104 / 4 then 0x177010 else if d = 0x110 / 4 then 0xB1C1 else 0

/-- The next capability of each capability of a PF's chain, its ID and version (R121): the extended ones. -/
def extCaps (s : State) (i : Nat) : List (Nat × Nat × Nat × Nat) :=
  let noSriov := s.cai.mode = .recovery
  [(0x100, 0x0001, 2, 0x150), (0x150, 0x0003, 1, 0x160), (0x160, 0x000E, 1, if noSriov then 0x1B0 else 0x170), (0x170, 0x0010, 1, 0x1B0),
   (0x1B0, 0x000D, 1, 0x1C0), (0x1C0, 0x000F, 1, 0x1D0), (0x1D0, 0x001B, 1, 0x1E0), (0x1E0, 0x0013, 1, 0x1F0), (0x1F0, 0x001F, 1, 0x200),
   (0x200, 0x0019, 1, 0x230), (0x230, 0x0025, 1, 0x240), (0x240, 0x0026, 1, 0x280), (0x280, 0x002A, 1, 0x2C0), (0x2C0, 0x0031, 1, 0x300),
   (0x300, Config.phy128Id % 65536, 1, 0x340), (0x340, 0x0027, 1, 0x390), (0x390, 0x002F, 1, 0x3A0),
   (0x3A0, 0x0022, 1, if isPf0 s i then 0x3B0 else 0x700), (0x3B0, 0x002E, 2, 0x3D0), (0x3D0, 0x0030, 1, 0x700), (0x700, 0x0023, 1, 0)]

/-- Read-only bits of the capabilities that PFs and VFs share. -/
def cfgShared (s : State) (f : Fn) (d : Nat) : Option Nat :=
  let h := halfSt s (fnHalf s f)
  let width := if bifurcated s then 8 else 16
  if d = 0x34 / 4 then some 0x40
  else if d = 0x40 / 4 then some 0x00035001
  else if d = 0x44 / 4 then some 8
  else if d = 0x50 / 4 then some 0x0002A010
  else if d = 0x54 / 4 then some 0x50008022
  else if d = 0x58 / 4 then some (if 0 < outstanding s f then 2 ^ 21 else 0)
  else if d = 0x5C / 4 then some (7 + 16 * width + 2 ^ 11)
  else if d = 0x60 / 4 then some (at_ 16 h.rate + at_ 20 h.width)
  else if d = 0x74 / 4 then some 0x8003000F
  else if d = 0x7C / 4 then some 0xFE
  else if d = 0xA0 / 4 then some (0x11 + at_ 16 (vectorsOf s f - 1))
  else if d = 0xA4 / 4 then some (if isVf f then 0x8000 else 4)
  else if d = 0xA8 / 4 then some (if isVf f then 0xC000 else 0x8000 + 4)
  else if d = 0x1C4 / 4 then some 0x60
  else none

/-- The read-only part of a PF's dword (R120 to R122, R128, R129, R148, R150, R152). -/
def cfgPf (s : State) (i d : Nat) : Nat :=
  let f := Fn.pf i
  let g := pfSet s i
  let pfs := pfsOfHalf s (pfHalf s i)
  let sriov := s.cai.mode != .recovery
  match cfgShared s f d with
  | some v => v
  | none =>
    match (extCaps s i).find? (fun c => c.1 == d * 4) with
    | some c =>
      if (c.1 = 0x170 ∧ !sriov) ∨ ((c.1 = 0x3B0 ∨ c.1 = 0x3D0) ∧ !isPf0 s i) then 0 else c.2.1 + at_ 16 c.2.2.1 + at_ 20 c.2.2.2
    | none =>
      if d = 0 then 0x3216E2A5
      else if d = 1 then 0x00100000
      else if d = 2 then at_ 8 (if g.nvme then 0x010802 else 0x020000) + 1
      else if d = 3 then (if 1 < pfs.length then 0x00800000 else 0)
      else if d = 4 ∨ d = 6 ∨ d = 8 then 4
      else if d = 0x2C / 4 then 0xE2A5 + at_ 16 (g.subsystemId % 65536)
      else if d = 0x154 / 4 then Config.serial % 2 ^ 32
      else if d = 0x158 / 4 then Config.serial / 2 ^ 32 % 2 ^ 32
      else if d = 0x164 / 4 then at_ 8 (((pfs.filter (fun j => i < j)).map (pfFunction s)).headD 0)
      else if d = 0x178 / 4 then (if isPf0 s i then 0 else (cfgGet s (.pf (pf0Of (pfHalf s i))) (0x178 / 4)).toNat &&& 0x10)
      else if d = 0x17C / 4 ∧ sriov then totalVfs s i + at_ 16 (totalVfs s i)
      else if d = 0x180 / 4 ∧ sriov then at_ 16 (pfFunction s i)
      else if d = 0x184 / 4 ∧ sriov then firstVfOffset s i + at_ 16 1
      else if d = 0x188 / 4 ∧ sriov then at_ 16 0x3217
      else if d = 0x18C / 4 ∧ sriov then 0x15
      else if d = 0x194 / 4 ∧ sriov then 4
      else if d = 0x1B4 / 4 then 0x4C
      else if d = 0x1D4 / 4 then 0x1400
      else if d = 0x1E4 / 4 then 0x80000000
      else if d = 0x1E8 / 4 then 512
      else if d = 0x1F4 / 4 then 0x0A
      else if d = 0x394 / 4 then 6
      else if d = 0x3A4 / 4 then 0x80000000 + (5 * 512 + 24) + at_ 12 (4 * 512 + 20)
      else if d = 0x3A8 / 4 then (3 * 512 + 62) + at_ 12 (3 * 512 + 306)
      else if d = 0x3AC / 4 then 3 * 512 + 306
      else if d = 0x3BC / 4 ∧ isPf0 s i then
        let e := s.hif.doe.getD (pfHalf s i) {}
        at_ 2 (b2n e.error) + at_ 31 (b2n e.ready)
      else if d = 0x3C4 / 4 ∧ isPf0 s i then leAt (s.hif.doe.getD (pfHalf s i) {}).answer 0 4
      else if d = 0x3D4 / 4 ∧ isPf0 s i then 0x010F0063
      else if d = 0x3E0 / 4 ∧ isPf0 s i then
        let e := mget ({} : Ide) s.hif.ide (pfHalf s i * 32)
        (if e.secure then 2 else 0) + at_ 31 (b2n e.failLogged)
      else if isPf0 s i ∧ (List.range 16).any (fun k => d == ideBlock k) then 2
      else if isPf0 s i then
        match (List.range 16).find? (fun k => d == ideBlock k + 2) with
        | some k =>
          let e := mget ({} : Ide) s.hif.ide (pfHalf s i * 32 + 1 + k)
          (if e.secure then 2 else 0) + at_ 31 (b2n e.failLogged)
        | none => if d = 0x704 / 4 then 0xE2A5 + at_ 16 1 + at_ 20 12 else
          if d = 0x708 / 4 then 1 + at_ 16 i + at_ 18 (pfHalf s i) + at_ 19 (b2n g.nvme) else 0
      else if d = 0x704 / 4 then 0xE2A5 + at_ 16 1 + at_ 20 12
      else if d = 0x708 / 4 then 1 + at_ 16 i + at_ 18 (pfHalf s i) + at_ 19 (b2n g.nvme)
      else 0

/-- The read-only part of a VF's dword (R123). -/
def cfgVf (s : State) (f : Fn) (off : Nat) : Nat :=
  let d := off % 4096 / 4
  if d = 0 then 0xFFFFFFFF
  else if d = 1 then 0x00100000
  else if d = 2 then at_ 8 (if (pfSet s (fnPf f)).nvme then 0x010802 else 0x020000) + 1
  else if d = 0x2C / 4 then 0xE2A5 + at_ 16 ((pfSet s (fnPf f)).subsystemId % 65536)
  else if d = 0x100 / 4 then 0x000E + at_ 16 1 + at_ 20 0x110
  else if d = 0x110 / 4 then 0x000F + at_ 16 1
  else if d = 0x114 / 4 then 0x60
  else if d < 0x40 then (cfgShared s f d).getD 0
  else 0

/-- The value of a configuration dword (R120 to R130). -/
def cfgRead (s : State) (f : Fn) (off : Nat) : Word :=
  let d := cfgDword f off
  let stored := cfgGet s f d &&& (cfgWritable s f d ||| cfgW1c f d)
  let ro := match f with
    | .pf i => cfgPf s i d
    | _ => cfgVf s f off
  -- VF Enable without SR-IOV in RECOVERY reads 0, and a VF's RO copies are not stored
  (if s.cai.mode = .recovery ∧ decide (0x174 / 4 ≤ d ∧ d ≤ 0x198 / 4) then 0 else stored) ||| w32 ro

end Sys2Proof.Machine
end

