-- ==== Sys2Proof/Machine/Hostif.lean ====
section
/-!
DEFINITION. The PCIe endpoint (host_link): configuration accesses, Bus Master Enable, FLR, SR-IOV, power states, MSI-X, tags and
completions, translations, page requests and PTM.
-/
namespace Sys2Proof.Machine

/-! ### Bus Master Enable (R140, R142) -/

/-- Bus Master Enable of a function is cleared (R140): BME_CLEARED, and the function goes silent. -/
def busMasterOff (f : Fn) (s : State) : State :=
  let c := cfgGet s f 1
  if !wbit c 2 then s
  else
    let s1 := cfgSet f 1 (setFld c 2 2 0) s
    let s2 := if isVf f then tdiError f s1 else s1
    raise 0x2 0x07 (fnCode f) (.function (.pf (fnPf f))) (silence f s2)

/-- A function whose requests have ended since its clear may issue requests again (R142); an interface in ERROR stays silent (R153). -/
def speakAgain (f : Fn) (s : State) : State :=
  flushPba f (modFn f (fun r => { r with silent := r.silent && (r.awaitQuiesce || r.tdi.st == .error) }) s)

/-- Bus Master Enable of a function is set (R140, R142): pending vectors are sent. -/
def busMasterOn (f : Fn) (s : State) : State :=
  let c := cfgGet s f 1
  if wbit c 2 then s
  else
    let s1 := cfgSet f 1 (setFld c 2 2 1) s
    match f with
    | .pf i => foldS speakAgain (.pf i :: enabledVfs s1 i) s1
    | _ => speakAgain f (tdiError f s1)

/-- BUS_MASTER_DISABLE (R140). -/
def execBusMasterDisable (f : Fn) (s : State) : Outcome := .next (busMasterOff f s)

/-- QUIESCE_DONE (R140, R142): no request of the function remains outstanding. -/
def execQuiesceDone (f : Fn) (s : State) : Outcome :=
  if outstanding s f = 0 then .next (modFn f (fun r => { r with awaitQuiesce := false }) s) else .next s

/-! ### FLR (R141, R142) -/

/-- Initiate FLR (R141): while one is under way a further write has no effect. -/
def initiateFlr (f : Fn) (s : State) : State :=
  if (fnSt s f).flrAt.isSome ∨ f = .fw then s
  else
    let all := match f with
      | .pf i => .pf i :: vfsOf s i
      | _ => [f]
    let s1 := foldS tdiError (all.filter isVf) (foldS abortMigration (all.filter isVf) s)
    let s2 := silence f s1
    foldS (fun g s => modFn g (fun r => { r with ready := false }) s) all (modFn f (fun r => { r with flrAt := some s.elapsed }) s2)

def execInitiateFlr (f : Fn) (s : State) : Outcome := .next (initiateFlr f s)

/-- FRS reasons of the PCIe base specification (R100). -/
def frsD3 : Nat := 2
def frsFlr : Nat := 3
def frsVfEnabled : Nat := 8
def frsVfDisabled : Nat := 9

/-- A VF is reset and gone; its interface stays in ERROR (R130, R141, R153). -/
def resetVf (f : Fn) (s : State) : State :=
  let old := (fnSt s f).tdi
  modFn f (fun r => { r with tdi := old, silent := old.st == .error }) (resetFunction false f s)

/-- FLR_DONE (R141): the function and, with a PF, its VFs are at reset; during a Col pause it waits for the pause to end (R142). -/
def execFlrDone (f : Fn) (s : State) : Outcome :=
  if (fnSt s f).flrAt.isNone ∨ s.cai.mode = .pause then .next s
  else
    let s1 := match f with
      | .pf i =>
        let had := !(enabledVfs s i).isEmpty
        let t := foldS resetVf (vfsOf s i) s
        let t1 := if isPf0 s i then modHif (fun x => { x with doe := x.doe.set (pfHalf s i) {}, ide := x.ide.filter (fun e => e.1 / 32 != pfHalf s i) }) t else t
        if had then emit (.frs (.pf i) frsVfDisabled) t1 else t1
      | _ => s
    let s2 := modFn f (fun r => { r with ready := true, flrAt := none, silent := r.tdi.st == .error, awaitQuiesce := false }) (resetFunction (isVf f) f s1)
    .next (emit (.frs f frsFlr) (raise 0x2 0x06 (fnCode f) (.function (.pf (fnPf f))) s2))

/-! ### SR-IOV (R128, R130) -/

/-- ARI Capable Hierarchy of a PF: PF0's value (R128). -/
def ariCapable (s : State) (i : Nat) : Bool := wbit (cfgGet s (.pf (pf0Of (pfHalf s i))) (0x178 / 4)) 4

/-- VF Enable of a PF. -/
def vfEnabled (s : State) (i : Nat) : Bool := wbit (cfgGet s (.pf i) (0x178 / 4)) 0

/-- VF Enable is set (R130): VFs 1 to NumVFs become ready, with one FRS Message; without ARI Capable Hierarchy it has no effect. -/
def vfEnable (i : Nat) (s : State) : State :=
  if vfEnabled s i ∨ !ariCapable s i ∨ !pfEnabled s i ∨ s.cai.mode = .recovery ∨ s.cai.mode = .returned then s
  else
    let n := min (fld (cfgGet s (.pf i) (0x180 / 4)) 15 0) (totalVfs s i)
    let s1 := cfgSet (.pf i) (0x178 / 4) (setFld (cfgGet s (.pf i) (0x178 / 4)) 0 0 1) s
    let s2 := foldS (fun k s => modFn (.vf i k) (fun r => { r with enabled := true, ready := true }) s) (List.range n) s1
    emit (.frs (.pf i) frsVfEnabled) s2

/-- VF Enable is cleared (R130): every VF is reset, with one FRS Message. -/
def vfDisable (i : Nat) (s : State) : State :=
  if !vfEnabled s i then s
  else
    let s1 := cfgSet (.pf i) (0x178 / 4) (setFld (cfgGet s (.pf i) (0x178 / 4)) 0 0 0) s
    let s2 := foldS (fun f s =>
      modFn f (fun r => { r with enabled := false, ready := false, silent := r.tdi.st == .error }) (resetFunction true f (tdiError f s))) (vfsOf s i) s1
    emit (.frs (.pf i) frsVfDisabled) s2

def execVfEnable (pf : Nat) (s : State) : Outcome := .next (vfEnable pf s)
def execVfDisable (pf : Nat) (s : State) : Outcome := .next (vfDisable pf s)

/-! ### Power states (R100, R122) -/

/-- A write of PowerState (R122): D1 and D2 are ignored; from D3hot to D0 the function becomes ready again (R100). -/
def powerState (f : Fn) (v : Nat) (s : State) : State :=
  let old := fld (cfgGet s f (0x44 / 4)) 1 0
  if v = 3 then cfgSet f (0x44 / 4) 3 s
  else if v = 0 ∧ old = 3 then modFn f (fun r => { r with ready := false, readyWhy := some 3 }) (cfgSet f (0x44 / 4) 0 s)
  else s

def execPowerStateChange (f : Fn) (state : Nat) (s : State) : Outcome := .next (powerState f state s)

/-! ### MSI-X (R122, R126, R176) -/

/-- A change of MSI-X control or of a table entry: pending vectors that it opens are sent (R176). -/
def msixChange (f : Fn) (c : MsixChange) (s : State) : State :=
  match c with
  | .control enable mask => flushPba f (cfgSet f (0xA0 / 4) (w32 (at_ 31 (b2n enable) + at_ 30 (b2n mask))) s)
  | .entry n part v =>
    if vectorsOf s f ≤ n ∨ 4 ≤ part then s
    else
      let e := msixEntry s f n
      let low := e % 2 ^ (32 * part)
      let high := e / 2 ^ (32 * (part + 1)) * 2 ^ (32 * (part + 1))
      let v' := if part = 3 then v.toNat % 2 else if part = 0 then v.toNat / 4 * 4 else v.toNat
      flushPba f (modFn f (fun r => { r with msix := mset (2 ^ 96) r.msix n (high + at_ (32 * part) v' + low) }) s)

/-! ### Configuration accesses (R100, R117, R124) -/

/-- DOE Abort (R148). -/
def doeAbort (h : Nat) (s : State) : State :=
  modHif (fun x => { x with doe := updAt h (fun d => { d with error := false, ready := false, answer := [] }) x.doe }) s

/-- A write of the DOE Read Data Mailbox: the dword has been read, and the next one stands there; after the last, Data Object Ready clears (R148,
assumption 123). -/
def doeTake (h : Nat) (s : State) : State :=
  modHif (fun x => { x with doe := updAt h (fun d => { d with ready := d.ready && decide (4 < d.answer.length), answer := d.answer.drop 4 }) x.doe }) s

/-- Is a dword the control register of an IDE stream of PF0? -/
def isIdeControl (d : Nat) : Bool := d == 0x3DC / 4 || (List.range 16).any (fun k => d == ideBlock k + 1)

/-- The IDE stream a control dword enables. -/
def ideOf (d : Nat) : Nat := if d = 0x3DC / 4 then 0 else (d - ideBlock 0) / 11 + 1

/-- A stream that is enabled and has keys in use on all six lanes is Secure (R150). -/
def ideSecure (e : Ide) : Ide := { e with secure := e.enabled && (List.range 6).all (fun l => e.active.any (fun a => a.1 == l)) }

/-- A write of a configuration dword (R120 to R130, R150): the stored bits, then what the fields do. -/
def configWrite (f : Fn) (off : Nat) (v : Word) (s : State) : State :=
  let d := cfgDword f off
  let old := cfgGet s f d
  let w := cfgWritable s f d
  let plain := ((old &&& ~~~ w) ||| (v &&& w)) &&& ~~~ (v &&& cfgW1c f d)
  if d = 1 then
    let s1 := cfgSet f d (setFld plain 2 2 (fld old 2 2)) s
    if wbit v 2 then busMasterOn f s1 else busMasterOff f s1
  else if d = 0x44 / 4 then powerState f (fld v 1 0) s
  else if d = 0x58 / 4 then
    let s1 := cfgSet f d plain s
    if wbit v 15 then initiateFlr f s1 else s1
  else if d = 0xA0 / 4 then msixChange f (.control (wbit v 31) (wbit v 30)) s
  else if isVf f then cfgSet f d plain s
  else if d = 0x178 / 4 then
    let i := fnPf f
    let s1 := cfgSet f d (setFld plain 0 0 (fld old 0 0)) s
    let s2 := if wbit old 3 ≠ wbit v 3 then foldS tdiError (enabledVfs s1 i) s1 else s1
    if wbit v 0 then vfEnable i s2 else vfDisable i s2
  else if d = 0x180 / 4 then
    if vfEnabled s (fnPf f) then s else cfgSet f d (w32 (min (fld v 15 0) (totalVfs s (fnPf f)))) s
  else if d = 0x3B8 / 4 ∧ isPf0 s (fnPf f) then (if wbit v 0 then doeAbort (fnHalf s f) s else s)
  else if d = 0x3C4 / 4 ∧ isPf0 s (fnPf f) then doeTake (fnHalf s f) s
  else if isPf0 s (fnPf f) ∧ isIdeControl d then
    let h := fnHalf s f
    let on := wbit v 0 && (wbit old 0 || (halfSt s h).flit)
    modHif (fun x => { x with ide := mmod {} x.ide (h * 32 + ideOf d) (fun e => ideSecure { e with enabled := on }) })
      (cfgSet f d (setFld plain 0 0 (b2n on)) s)
  else cfgSet f d plain s

/-- How a function answers a configuration request: none when it does not answer, some false with Request Retry Status (R100, R117, R141). -/
def configAnswers (s : State) (f : Fn) : Option Bool :=
  if f = .fw ∨ !linkUp s f ∨ !fnExists s f then none
  else some ((fnSt s f).ready && (fnSt s f).flrAt.isNone)

/-- A configuration request that no function answers: over a link that is up the half's PF0 logs it (R117, R146). -/
def configRejected (f : Fn) (s : State) : State :=
  if f ≠ .fw ∧ linkUp s f then emit (.unsupported f) (aerLog (.pf (pf0Of (fnHalf s f))) 20 true s) else emit (.unsupported f) s

/-- CONFIG_READ (R124). -/
def execConfigRead (f : Fn) (off : Nat) (s : State) : Outcome :=
  match configAnswers s f with
  | none => .next (configRejected f s)
  | some false => .next (emit (.configData f off none) s)
  | some true => .next (emit (.configData f off (some (cfgRead s f off))) s)

/-- CONFIG_WRITE (R120 to R130). -/
def execConfigWrite (f : Fn) (off : Nat) (v : Word) (s : State) : Outcome :=
  match configAnswers s f with
  | none => .next (configRejected f s)
  | some false => .next (emit (.configData f off none) s)
  | some true => .next (configWrite f off v s)

/-! ### Tags and completions (R131 to R135, R141) -/

/-- The completion timeout of a function, ns (R133). -/
def timeoutOf (s : State) (f : Fn) : Nat :=
  let ms := 1000000
  let r : Nat × Nat × Nat := match fld (cfgGet s f (0x78 / 4)) 3 0 with
    | 1 => (50000, 100000, 100000)
    | 2 => (1 * ms, 10 * ms, 10 * ms)
    | 5 => (16 * ms, 55 * ms, 55 * ms)
    | 6 => (65 * ms, 210 * ms, 210 * ms)
    | 9 => (260 * ms, 900 * ms, 900 * ms)
    | 10 => (1000 * ms, 3500 * ms, 3500 * ms)
    | 13 => (4000 * ms, 13000 * ms, 13000 * ms)
    | 14 => (17000 * ms, 64000 * ms, 64000 * ms)
    | _ => (50000, 50 * ms, 10 * ms)
  let v := fld (reg s .HIF_CTO_VALUE 0 (fnCode (.pf (fnPf f)))) 25 0 * 1000
  if v = 0 then r.2.2 else max r.1 (min r.2.1 v)

/-- How many tag values a function's requests choose from (R131). -/
def tagCount (s : State) (f : Fn) : Nat :=
  let pf := Fn.pf (fnPf f)
  if wbit (cfgGet s pf (0x398 / 4)) 2 && (halfSt s (fnHalf s f)).flit then 2 ^ 14
  else if wbit (cfgGet s pf (0x78 / 4)) 12 then 2 ^ 10 else 2 ^ 8

/-- A free number below n: the one that a free value names where it is free, or else the lowest free (assumption 5). -/
def pickFree (used : List Nat) (n : Nat) (s : State) : Option Nat × State :=
  let r := takeFree s
  let v := r.1 % max 1 n
  if v < n ∧ !used.contains v then (some v, r.2)
  else ((List.range (min n (used.length + 1))).find? (fun i => !used.contains i), r.2)

/-- Slots a function holds (R132). -/
def slotsHeld (s : State) (f : Fn) : Nat := (s.hif.slots.filter (fun e => e.2.req.fn == f)).length

/-- Tag values of a function's Requester ID that no new request may take (R131). -/
def tagsUsed (s : State) (f : Fn) : List Nat := (s.hif.slots.filter (fun e => e.2.req.fn == f)).map (fun e => e.2.tag)

/-- May a function issue a non-posted request to an address now: it may issue requests at all, its stream carries them, it is below its limit,
and a slot and a tag value are free (R131, R132, R140, R151)? -/
def mayTake (s : State) (f : Fn) (addr : Nat) : Bool :=
  let limit := max 1 (min 16384 (fld (reg s .HIF_FN_TAG_LIMIT 0 (fnCode (.pf (fnPf f)))) 14 0))
  (f == .fw || (busMaster s f && linkUp s f && !(fnSt s f).silent)) && (tlpFor s f addr false).isSome && decide (slotsHeld s f < limit)
    && decide (s.hif.slots.length < 16384) && decide ((tagsUsed s f).length < tagCount s f)

/-- May a waiting request be issued now? An entry's reads wait for its translations (R143). -/
def mayIssue (s : State) (r : Req) : Bool :=
  mayTake s r.fn r.addr && (match r.use with
    | .work q c _ => !translating s r.fn q c
    | _ => true)

/-- A request takes a free slot and a free tag value of its Requester ID (R131): the number of the slot, the tag, and what the slot holds. -/
def takeSlot (r : Req) (s : State) : Option (Nat × Slot × State) :=
  let a := pickFree (s.hif.slots.map Prod.fst) 16384 s
  let b := pickFree (tagsUsed s r.fn) (tagCount s r.fn) a.2
  match a.1, b.1 with
  | some slot, some tag =>
    let t := tlpFor s r.fn r.addr false
    some (slot, { req := r, tag := tag, issued := s.elapsed, timeout := timeoutOf s r.fn, stream := t.bind Tlp.stream }, b.2)
  | _, _ => none

/-- Is a waiting request one that a grant may serve: it may be issued, and it is of the function named, if one is? -/
def grantable (s : State) (which : Option Fn) (r : Req) : Bool := which.all (fun f => f == r.fn) && mayIssue s r

/-- TAG_SLOT_GRANT (R131, R132): the oldest request that may be issued, of the function that the grant names, gets a free slot and a free tag
value of its Requester ID. -/
def execTagSlotGrant (which : Option Fn) (s : State) : Outcome :=
  match s.hif.waiting.find? (grantable s which) with
  | none => .next s
  | some r =>
    match takeSlot r s with
    | some (slot, x, s1) =>
      let pasid := match r.use with
        | .work q _ _ => qPasid (queue s r.fn q)
        | _ => none
      let a := match r.use with
        | .work .. => translatedAddr s r.fn pasid r.addr
        | _ => (r.addr, false)
      .next (emit (.hostRead r.fn x.tag a.1 r.len { ((tlpFor s r.fn r.addr false).getD {}) with translated := a.2 })
        (modHif (fun h => { h with waiting := dropFirst (· == r) h.waiting, slots := mput h.slots slot x }) s1))
    | none => .next s

/-- Requests of an entry that still wait are never issued. -/
def dropRequests (f : Fn) (q ctr : Nat) (s : State) : State :=
  let mine (r : Req) : Bool := r.fn == f && (match r.use with
    | .work q' c' _ | .translate q' c' _ => q' == q && c' == ctr
    | .other => false)
  modHif (fun h => { h with waiting := h.waiting.filter (fun r => !mine r) }) s

/-- A translation of an entry has failed: it ends with a status, and what it still waited to read is not read (R134, R135, R144). -/
def translationFails (f : Fn) (q ctr status : Nat) (s : State) : State :=
  dropRequests f q ctr (finishWork f q (BitVec.ofNat 16 ctr) status 0 s)

/-- An operation's read ends (R134, R135, R144): its result goes to the entry it served; a translation fills the cache, or is refused. -/
def deliver (r : Req) (got : HostRead) (s : State) : State :=
  match r.use with
  | .work q c i =>
    modWork r.fn q (BitVec.ofNat 16 c) (fun w => { w with reads := updAt i (fun x => { x with got := some got }) w.reads }) s
  | .translate q c page =>
    match got with
    | .data bs =>
      let pasid := qPasid (queue s r.fn q)
      modHif (fun h => { h with ats := ({ fn := r.fn, pasid := pasid, page := page, dest := leNat bs } :: h.ats).take 65536 }) s
    | .badAddress =>
      if wbit (cfgGet s (.pf (fnPf r.fn)) (0x1E4 / 4)) 0 then
        modWork r.fn q (BitVec.ofNat 16 c) (fun w => if w.done.isSome then w else { w with noAccess := w.noAccess ++ [page] }) s
      else translationFails r.fn q c 0x03 s
    | e => translationFails r.fn q c (hostReadStatus e) s
  | .other => s

/-- A completion that matches nothing (R135). -/
def unexpected (f : Fn) (s : State) : State :=
  raise 0x2 0x05 (fnCode f) (.function (.pf (fnPf f))) (bump .HIF_UNEXP_CPL 0 (fnCode (.pf (fnPf f))) 1 (aerLog f 16 true s))

/-- s with slot n as g leaves it; none frees it. -/
def setSlot (n : Nat) (x : Option Slot) (s : State) : State :=
  modHif (fun h => { h with slots := match x with
    | some y => mput h.slots n y
    | none => mdel h.slots n }) s

/-- HOST_COMPLETION (R134, R135, R141): matched by Requester ID and tag; data, or an early end; freed at the last one. -/
def execHostCompletion (f : Fn) (tag : Nat) (status : HostRead) (last : Bool) (s : State) : Outcome :=
  match s.hif.slots.find? (fun e => e.2.req.fn == f && e.2.tag == tag && e.2.st != .quarantined) with
  | none => .next (unexpected f s)
  | some (n, x) =>
    let keep (y : Slot) (s : State) : State := setSlot n (if last then none else some y) s
    match x.st, status with
    | .outstanding, .data bs =>
      let y := { x with got := x.got ++ bs }
      if last then .next (deliver x.req (.data y.got) (keep y s)) else .next (keep y s)
    | .outstanding, .timeout => .next s
    | .outstanding, e => .next (deliver x.req e (keep { x with st := .endedEarly } s))
    | _, _ => .next (keep x s)

/-- A completion timeout is logged as an advisory non-fatal error, counted and raised (R134). -/
def timedOut (f : Fn) (s : State) : State :=
  raise 0x2 0x04 (fnCode f) (.function (.pf (fnPf f))) (bump .HIF_CTO_COUNT 0 (fnCode (.pf (fnPf f))) 1 (aerLog f 14 true s))

/-- A read that a command makes and whose end it brings (R131 to R135): none while the request would wait for a slot, a tag or its function's limit.
Data frees the slot at once; after an abort or poison the request stays in its slot; a timeout takes the function's completion timeout and
quarantines the slot and the tag; a refused translation issues nothing. -/
def operandRead (f : Fn) (addr : Nat) (got : HostRead) (s : State) : Option State :=
  if !mayTake s f addr then none
  else match got with
  | .data _ | .badAddress => some s
  | .timeout => (takeSlot { fn := f, use := .other, addr := addr } s).map (fun x =>
      let s1 := advanceTo (s.elapsed + x.2.1.timeout) x.2.2
      timedOut f (setSlot x.1 (some { x.2.1 with st := .quarantined, quarantineEnd := s1.elapsed + 2 * x.2.1.timeout }) s1))
  | _ => (takeSlot { fn := f, use := .other, addr := addr } s).map (fun x => setSlot x.1 (some { x.2.1 with st := .endedEarly }) x.2.2)

/-- What follows a read whose end the command brings; while the read would wait, nothing has happened yet. -/
def withRead (f : Fn) (addr : Nat) (got : HostRead) (k : State → State) (s : State) : State :=
  match operandRead f addr got s with
  | some s1 => k s1
  | none => s

/-- COMPLETION_TIMEOUT (R134, R135, R141): the timer of a request expires and its slot and tag are quarantined. -/
def execCompletionTimeout (slot : Nat) (s0 : State) : Outcome :=
  match mfind s0.hif.slots slot with
  | none => .next s0
  | some x =>
    if x.st = .quarantined then .next s0
    else
      let s := advanceTo (x.issued + x.timeout) s0
      let s1 := setSlot slot (some { x with st := .quarantined, quarantineEnd := s.elapsed + 2 * x.timeout, got := [] }) s
      if x.st = .outstanding then .next (timedOut x.req.fn (deliver x.req .timeout s1)) else .next s1

/-- QUARANTINE_END (R134). -/
def execQuarantineEnd (slot : Nat) (s : State) : Outcome :=
  match mfind s.hif.slots slot with
  | some x => if x.st = .quarantined then .next (setSlot slot none (advanceTo x.quarantineEnd s)) else .next s
  | none => .next s

/-- POISONED_POSTED_WRITE (R146). -/
def execPoisonedPostedWrite (f : Fn) (s : State) : Outcome := .next (aerLog f 12 false s)

/-! ### Submission entries (R139) -/

/-- Where the entry at C of an SQ lies (R157). -/
def sqeAddr (u : Queue) : Nat := u.base + (u.c.toNat % ringSize u) * 64

/-- SQ_ENTRY_FETCH (R139, R165, R181): the read of the entry at C came back. -/
def execSqEntryFetch (f : Fn) (q : Nat) (got : HostRead) (s : State) : Outcome :=
  let u := queue s f q
  if !mayFetch s f q ∨ u.staleAt.isSome then .next s
  else match got, operandRead f (sqeAddr u) got s with
  | _, none => .next s
  | .data bs, _ =>
    let e : BitVec 512 := BitVec.ofNat 512 (leNat (slice bs 0 64))
    if bitOf (entryField e 1 1) 0 = phaseOf u u.c then .next (acceptEntry f q e s)
    else .next (modQueue f q (fun u => { u with staleAt := some s.elapsed }) s)
  | _, some s1 => .next (queueError f q s1)

/-- STALE_RETRY (R139): 1 µs later the entry is read once more; it runs, or completes as STALE_ENTRY and the queue goes on. -/
def execStaleRetry (f : Fn) (q : Nat) (got : HostRead) (s : State) : Outcome :=
  let u := queue s f q
  match u.staleAt with
  | none => .next s
  | some t =>
    let s := advanceTo (t + 1000) s
    if !mayFetch s f q then .next s
    else match got, operandRead f (sqeAddr u) got s with
    | _, none => .next s
    | .data bs, _ =>
      let e : BitVec 512 := BitVec.ofNat 512 (leNat (slice bs 0 64))
      if bitOf (entryField e 1 1) 0 = phaseOf u u.c then .next (acceptEntry f q e s)
      else
        let s1 := modQueue f q (fun u => { u with
          work := u.work ++ [{ ctr := u.c, entry := e, cls := qClass u, started := true }], c := u.c + 1, staleAt := none }) s
        .next (finishWork f q u.c 0x06 0 s1)
    | _, some s1 => .next (queueError f q s1)

/-! ### Translations (R143, R144) -/

/-- ATS_INVALIDATION (R143): the translations go. Reads that wait and used one of them ask for it anew before they are issued, so that every
request that used the invalidated translations has been issued when the answer leaves. -/
def execAtsInvalidation (f : Fn) (pasid : Option Nat) (page count : Nat) (s : State) : Outcome :=
  let gone (p : Nat) : Bool := decide (page ≤ p ∧ p < page + count)
  let s1 := modHif (fun h => { h with ats := h.ats.filter (fun e => !(e.fn == f && e.pasid == pasid && gone e.page)) }) s
  let s2 := foldS (fun (r : Req) s => match r.use with
    | .work q c _ =>
      if r.fn = f ∧ qPasid (queue s f q) = pasid then askTranslations f q c ((pagesOf r.addr r.len).filter gone) s else s
    | _ => s) s.hif.waiting s1
  .next (emit (.atsDone f) s2)

/-- The oldest entry of an SQ whose translation granted no access. -/
def refusedWork (s : State) (f : Fn) (q : Nat) : Option (Work × Nat) :=
  firstSome (fun (w : Work) => if w.done.isSome then none else w.noAccess.head?.map (fun p => (w, p))) (queue s f q).work

/-- PAGE_REQUEST (R144): sent while fewer than the allocation are outstanding for the PF. -/
def execPageRequest (f : Fn) (q : Nat) (s : State) : Outcome :=
  let pf := Fn.pf (fnPf f)
  match refusedWork s f q with
  | some (w, p) =>
    if (fnSt s pf).pageRequests.length < (cfgGet s pf (0x1EC / 4)).toNat then
      .next (emit (.pageRequest f (p * 4096))
        (modFn pf (fun r => { r with pageRequests := r.pageRequests ++ [{ fn := f, sq := q, ctr := w.ctr.toNat, page := p, sent := s.elapsed }] })
          (modWork f q w.ctr (fun w => { w with noAccess := w.noAccess.drop 1 }) s)))
    else .next s
  | none => .next s

/-- The oldest Page Request of an SQ that has not been answered. -/
def openPageReq (s : State) (f : Fn) (q : Nat) : Option PageReq :=
  (fnSt s (.pf (fnPf f))).pageRequests.find? (fun r => r.fn == f && r.sq == q)

/-- A Page Request has been answered, or has not (R144): with Success its page is translated again, else the entry ends with BAD_ADDRESS. One
whose entry has gone only frees its place. -/
def pageAnswered (r : PageReq) (success failure : Bool) (s : State) : State :=
  let pf := Fn.pf (fnPf r.fn)
  let s1 := modFn pf (fun x => { x with pageRequests := dropFirst (· == r) x.pageRequests }) s
  match workOf s1 r.fn r.sq (BitVec.ofNat 16 r.ctr) with
  | none => s1
  | some w =>
    if w.done.isSome then s1
    else if success then
      modHif (fun h => { h with waiting := { fn := r.fn, use := .translate r.sq r.ctr r.page, addr := r.page * 4096, len := 8 } :: h.waiting }) s1
    else
      let s2 := translationFails r.fn r.sq r.ctr 0x03 s1
      if failure then raise 0x2 0x0B (fnCode r.fn) (.function pf) s2 else s2

/-- PRG_RESPONSE (R144). -/
def execPrgResponse (f : Fn) (q : Nat) (answer : PrgAnswer) (s : State) : Outcome :=
  match openPageReq s f q with
  | some r => .next (pageAnswered r (answer == .success) (answer == .responseFailure) s)
  | none => .next s

/-- PAGE_REQUEST_TIMEOUT (R144): 1 s without an answer. -/
def execPageRequestTimeout (f : Fn) (q : Nat) (s : State) : Outcome :=
  match openPageReq s f q with
  | some r => .next (pageAnswered r false true (advanceTo (r.sent + 1000000000) s))
  | none => .next s

/-! ### PTM (R54, R147) -/

/-- PTM_REQUEST (R54, R147): answered with device time while PTM Enable of the half's PF0 is set. -/
def execPtmRequest (half : Nat) (s : State) : Outcome :=
  let pf := Fn.pf (pf0Of half)
  if !halfInUse s half ∨ !(halfSt s half).up then .next s
  else if wbit (cfgGet s pf (0x1F8 / 4)) 0 then .next (emit (.ptm half (now s)) s)
  else .next (rejectRequest pf s)

/-- DOE_ABORT (R148). -/
def execDoeAbort (half : Nat) (s : State) : Outcome := .next (doeAbort half s)

end Sys2Proof.Machine
end

