-- ==== Sys2Proof/Machine/RelOps.lean ====
section
/-!
DEFINITION. Scree counters, spares, hand-offs, epochs and the machine-check log as shared operations (hidden_failure).
-/
namespace Sys2Proof.Machine

/-! ### The machine-check log (R446) -/

/-- A machine-check record is appended; the ring holds 1,024 (R446). -/
def mcLog (cls kind index spare epoch addr value : Nat) (s : State) : State :=
  let n := s.rel.logNext
  let bs := leBytes 8 (now s) ++ leBytes 1 cls ++ leBytes 1 kind ++ leBytes 2 index ++ leBytes 2 spare ++ leBytes 2 epoch ++ leBytes 8 addr
    ++ leBytes 4 n ++ leBytes 1 (min 255 value) ++ leBytes 2 (bound16 s) ++ [0]
  modRel (fun r => { r with log := mput (r.log.filter (fun e => decide (n < e.1 + 1024))) n bs, logNext := n + 1 }) s

/-- DETAIL of a REL event (R447). -/
def relDetail (kind index : Nat) : Nat := kind + at_ 4 (index % 4096)

/-- A REL event (R447). -/
def relEvent (code kind index : Nat) (s : State) : State := raise 0xF code (relDetail kind index) .device s

/-! ### Scree (R434, R435) -/

/-- WINDOW of a kind in ns, and its THRESHOLD (R435, R445). -/
def screeWindow (s : State) (kind : Nat) : Nat := max 1 (fld (reg s .REL_SCREE_CFG kind 0) 23 0) * 1000000
def screeThreshold (s : State) (kind : Nat) : Nat := max 1 (fld (reg s .REL_SCREE_CFG kind 0) 31 24)

/-- The sub-window of an instant of the Cairn clock: WINDOW / 8 each (R434). -/
def subWindowAt (s : State) (kind t : Nat) : Nat := t * 8 / screeWindow s kind

/-- The sub-window now. -/
def subWindow (s : State) (kind : Nat) : Nat := subWindowAt s kind s.elapsed

/-- The counts that a counter still holds: of the current sub-window and the seven before it (R434). -/
def liveCounts (s : State) (kind : Nat) (u : RelUnit) : NMap Nat :=
  u.counts.filter (fun e => decide (subWindow s kind < subWindowAt s kind e.1 + 8))

/-- The value of a counter (R434). -/
def screeValue (s : State) (kind : Nat) (u : RelUnit) : Nat := ((liveCounts s kind u).map Prod.snd).foldl (· + ·) 0

/-- One more in the current sub-window. -/
def addCount (s : State) (kind : Nat) (u : RelUnit) : RelUnit := { u with counts := mmod 0 (liveCounts s kind u) s.elapsed (· + 1) }

/-! ### Units (R436 to R438, R441) -/

/-- s with a unit's record changed by g. -/
def modUnit (kind index : Nat) (g : RelUnit → RelUnit) (s : State) : State :=
  modRel (fun r => { r with units := mmod (unitReset kind index) r.units (kind * 65536 + index) g }) s

/-- A new epoch for a unit: one more than the last of its kind (R441). -/
def newEpoch (kind index : Nat) (s : State) : State :=
  let e := (mget 0 s.rel.epochs kind + 1) % 65536
  modUnit kind index (fun u => { u with epoch := e }) (modRel (fun r => { r with epochs := mset 0 r.epochs kind e }) s)

/-- The mode follows the engagements (R95). -/
def modeAfterSpares (s : State) : State :=
  match s.cai.mode with
  | .service | .spared => setMode (serviceMode s) s
  | _ => s

/-- Engagements of a kind become n. -/
def setEngaged (kind n : Nat) (s : State) : State := modeAfterSpares (modRel (fun r => { r with engaged := mset 0 r.engaged kind n }) s)

/-- The count of engagements of a kind. -/
def engagedOf (s : State) (kind : Nat) : Nat := mget 0 s.rel.engaged kind

/-- The mode after a fast-domain stop for a fault: the modes that R95 lists go to STANDBY, and no other changes. -/
def faultMode (s : State) : State :=
  match s.cai.mode with
  | .bringup | .service | .spared | .pause | .drain | .isolated | .recovery => setMode .standby s
  | _ => s

/-- A fatal machine check (R443, R86): every fast domain stops, FAULT_N goes low, and the mode becomes STANDBY where R95 lists it, from which
the restart falls due 1 ms later. One that arises from the Cairn copies discards time, and the log with it (R446). Without power there is
none. -/
def fatalCheck (kind index : Nat) (s : State) : State :=
  if s.cai.mode = .off then s
  else
    let s1 := mcLog 7 kind index 0xFFFF 0 0 0 s
    let s2 := faultMode (stopFast s1)
    let s3 := modCai (fun c => { c with
      fatal := true, wakeCause := 4,
      fatalRestartAt := if c.mode = .standby then some (s.elapsed + 1000000) else c.fatalRestartAt }) s2
    let s4 := emit (.pin .faultN .low) (relEvent 0x06 kind index s3)
    if kind = 8 then modRel (fun r => { r with log := [], logNext := 0 }) (discardTime s4) else s4

/-- Spares left of a kind (R436, R445): for rows, the fewest left in any macro or bank. -/
def sparesLeft (s : State) (kind : Nat) : Nat :=
  let rows (all start : Nat) (own : Nat → Nat) : Nat :=
    ((s.rel.rowsUsed.filter (fun e => e.1 / 65536 == all)).map (fun e => own (e.1 % 65536) - e.2)).foldl min start
  match kind with
  | 7 => ((List.range 12).filter (fun i => !(unitOf s 7 i).standbyUsed)).length
  | 8 => 0
  | 9 => rows 9 16 (fun _ => 16)
  | 10 => rows 10 (max 1 Config.hbmFewestRows) (fun b => max 1 (Config.hbmRepairRows b))
  | _ => (unitsIn s kind 1).length

/-- Has a kind no spare left, as REL_SUMMARY shows it? The Cairn copies tolerate one lasting fault (R436). -/
def noSpareLeft (s : State) (kind : Nat) : Bool := if kind = 8 then !(unitsIn s 8 3).isEmpty else sparesLeft s kind == 0

/-- A kind that has no spare left: SPARE_EXHAUSTED once (R442). -/
def spareExhausted (kind index : Nat) (s : State) : State :=
  if noSpareLeft s kind ∧ !s.rel.exhausted.contains kind then
    relEvent 0x03 kind index (modRel (fun r => { r with exhausted := r.exhausted ++ [kind] }) s)
  else s

/-- Frames in parse on a pair that leaves begin again from the entry microword (R229, R440). -/
def rerunPair (p : Nat) (s : State) : State :=
  let es := s.prs.engines.filter (fun e => e.1 / 2 == p)
  let s1 := modPrs (fun x => { x with engines := x.engines.filter (fun e => e.1 / 2 != p) }) s
  foldS (fun (e : Nat × Engine) s => modFrame e.2.frame (fun f => { f with stage := .waiting, prsCounts := [] }) s) es s1

/-- What a unit that leaves was doing ends without effect, and waits for another unit (R440): frames in parse on a pair (R229), messages on a
cipher engine, suspended ones included, and with an engine or a checker the messages that failed every run (R323, R324); commands and operations
that a transport unit of STO has sent and whose response has not arrived, which the new unit sends again (R355). -/
def takeBack (kind index : Nat) (s : State) : State :=
  match kind with
  | 0 => rerunPair index s
  | 1 =>
    let u := cryEngine s index
    modCry (fun c => { c with engines := mdel c.engines index, waiting := u.running.toList ++ u.suspended.toList ++ c.held ++ c.waiting, held := [] }) s
  | 2 => modCry (fun c => { c with waiting := c.held ++ c.waiting, held := [] }) s
  | 5 => modSto (fun t => { t with
      ctrls := t.ctrls.map (fun (e : Nat × Nvme) => (e.1, { e.2 with cmds := e.2.cmds.map (fun n =>
        if n.st = .sent ∧ Config.transportServes index n.ctx then { n with st := .held } else n) })),
      ops := t.ops.map (fun o => if o.sent ∧ Config.transportServes index o.ctx then { o with sent := false } else o) }) s
  | _ => s

/-- The unit of the power manager that a REL unit of kinds 0, 1 and 3 is (R78). -/
def powerUnit (kind index : Nat) : Option DUnit :=
  match kind with
  | 0 => some (.prsPair index)
  | 1 => some (.cryEngine index)
  | 3 => some (.svcCore index)
  | _ => none

/-- The record of a unit's power state becomes d. -/
def setPower (kind index : Nat) (d : DomainSt) (s : State) : State :=
  match powerUnit kind index with
  | some u => modDomain u (fun _ => d) s
  | none => s

/-- A unit of kinds 0 to 6 has become lasting (R437, R438): it retires, or is CONDEMNED with STRIKES 1, and a hand-off to the lowest-numbered
spare that is not already promised begins. It takes no more work, and what it was doing waits for another unit (R229, R440). -/
def retire (kind index value : Nat) (s : State) : State :=
  let s1 := mcLog 1 kind index 0xFFFF 0 0 value
    (modUnit kind index (fun u => { u with st := if 0 < u.strikes then 5 else 3, retiredAt := s.elapsed, counts := [] }) s)
  let promised := (s1.rel.handoffs.filter (fun h => h.kind == kind)).filterMap Handoff.joins
  let spare := (unitsIn s1 kind 1).find? (fun i => !promised.contains i)
  takeBack kind index (modRel (fun r => { r with handoffs := r.handoffs ++ [{ kind := kind, leaves := index, joins := spare }] }) s1)

/-- A spare has become lasting (R253, R438): it retires, and no hand-off is needed. -/
def retireSpare (kind index : Nat) (s : State) : State :=
  spareExhausted kind index (mcLog 1 kind index 0xFFFF 0 0 0
    (modUnit kind index (fun u => { u with st := if 0 < u.strikes then 5 else 3, retiredAt := s.elapsed, counts := [] }) s))

/-- A counted fault of a control copy or a Cairn copy that has become lasting (R437, R442). -/
def lastingCopy (kind index value : Nat) (s : State) : State :=
  let u := unitOf s kind index
  if kind = 7 then
    if u.standbyUsed then fatalCheck 7 index s
    else
      let s1 := newEpoch 7 index (modUnit 7 index (fun u => { u with standbyUsed := true, counts := [] }) s)
      let s2 := mcLog 2 7 index index (unitOf s1 7 index).epoch 0 value s1
      spareExhausted 7 index (relEvent 0x01 7 index (setEngaged 7 (engagedOf s2 7 + 1) s2))
  else if !(unitsIn s 8 3).isEmpty then fatalCheck 8 index s
  else
    let s1 := modUnit 8 index (fun u => { u with st := 3, counts := [] }) s
    spareExhausted 8 index (relEvent 0x04 8 index (mcLog 3 8 index 0xFFFF 0 0 value s1))

/-- The unit of the power manager in whose work a fault of an instance is found (R16, R436); none for a checker or a Cairn copy. -/
def instanceUnit (kind index : Nat) : Option DUnit :=
  match kind with
  | 4 => some .dmv
  | 5 => some .sto
  | 6 => some .packet
  | 7 => (match index with
    | 0 => some (.hifHalf 0)
    | 1 => some (.hifHalf 1)
    | 2 => some .qm
    | 3 | 6 => some .packet
    | 4 => some .mgt
    | 5 => some .sto
    | 7 => some .rel
    | 8 | 9 => some (.macPort (index - 8))
    | _ => some (.akzPort (index - 10)))
  | _ => powerUnit kind index

/-- Is an instance gated, so that it does no work and counts nothing (R434)? -/
def instanceGated (s : State) (kind index : Nat) : Bool := ((instanceUnit kind index).map (fun u => (domainSt s u).st == .gated)).getD false

/-- A detected and absorbed fault of a unit of kinds 0 to 8 (R434, R435): only units of the active set that run count. -/
def countUnit (kind index : Nat) (recheck : Bool) (s : State) : State :=
  if (unitOf s kind index).st ≠ 0 ∨ (unitCounts kind).1 ≤ index ∨ instanceGated s kind index then s
  else
    let s1 := modUnit kind index (addCount s kind) s
    let v := screeValue s1 kind (unitOf s1 kind index)
    if recheck ∨ screeThreshold s kind ≤ v then
      (if kind < 7 then retire kind index v s1 else lastingCopy kind index v s1)
    else mcLog 0 kind index 0xFFFF 0 0 v s1

/-! ### Memory rows (R435, R439) -/

/-- The key of a memory row's counter. -/
def rowKey (kind index row : Nat) : Nat := (kind * 65536 + index) * 2 ^ 40 + row

/-- A 4 KiB page of HBM is taken from Sienna, or from Umber, where half of the pool stays (R439). -/
def takePage (s : State) : Option State :=
  if 0x200000 / 2 ≤ s.tm.freeSienna - 2 ∧ 2 ≤ s.tm.freeSienna then some (modTm (fun t => { t with freeSienna := t.freeSienna - 2 }) s)
  else if 0x1000000 / 2 ≤ s.tm.freeUmber - 16 ∧ 16 ≤ s.tm.freeUmber then some (modTm (fun t => { t with freeUmber := t.freeUmber - 16 }) s)
  else none

/-- A lasting fault in a memory row (R439): index is the macro of an SRAM row or the bank of an HBM row, row the address of its first line. -/
def lastingRow (kind index row value : Nat) (s : State) : State :=
  let key := kind * 65536 + index
  let used := mget 0 s.rel.rowsUsed key
  let s1 := modRel (fun r => { r with rows := mdel r.rows (rowKey kind index row) }) s
  let remap (s : State) : State :=
    spareExhausted kind index (mcLog 5 kind index 0xFFFF 0 row value (modRel (fun r => { r with rowsUsed := mset 0 r.rowsUsed key (used + 1) }) s))
  if kind = 9 then
    if used < 16 then remap s1
    else if Config.macroHoldsCells index then
      relEvent 0x04 9 index <| mcLog 3 9 index 0xFFFF 0 row value (modTm (fun t => { t with freeOchre := t.freeOchre - Config.cellsPerRow index }) s1)
    else fatalCheck 9 index (mcLog 1 9 index 0xFFFF 0 row value s1)
  else if used < max 1 (Config.hbmRepairRows index) then remap s1
  else match takePage s1 with
    | some s2 => mcLog 5 10 index 0xFFFF 0 row value (modRel (fun r => { r with pagesRetired := r.pagesRetired + 1 }) s2)
    | none => mcLog 1 10 index 0xFFFF 0 row value s1

/-- A corrected memory error charged to its row (R432, R434, R435). -/
def countRow (kind index row : Nat) (recheck : Bool) (s : State) : State :=
  let u := mget ({} : RelUnit) s.rel.rows (rowKey kind index row)
  let u1 := addCount s kind u
  let s1 := modRel (fun r => { r with rows := mset {} r.rows (rowKey kind index row) u1 }) s
  let v := screeValue s1 kind u1
  if recheck ∨ screeThreshold s kind ≤ v then lastingRow kind index row v s1 else mcLog 0 kind index 0xFFFF 0 row v s1

/-- A fault counts in a unit's or row's Scree counter (R434). -/
def countFault (kind index row : Nat) (recheck : Bool) (s : State) : State :=
  if kind < 9 then countUnit kind index recheck s else if kind < 11 then countRow kind index row recheck s else s

/-- The key of a line: HBM line n holds bytes 64n to 64n + 63 of raw device memory (R430); SRAM lines are numbered above. The log names it by
the address of its first byte (R446), an SRAM line by its place in the macro (assumption 132). -/
def poisonKey (hbm : Bool) (line : Nat) : Nat := if hbm then line else 2 ^ 40 + line

/-- A line of device memory is poisoned (R431, R446, R447). -/
def poisonLine (hbm : Bool) (line index : Nat) (s : State) : State :=
  let kind := if hbm then 10 else 9
  relEvent 0x05 kind index (mcLog 6 kind index 0xFFFF 0 (64 * line) 0
    (bump .REL_POISON_WRITTEN 0 0 1 (modRel (fun r => { r with poison := mput r.poison (poisonKey hbm line) true }) s)))

end Sys2Proof.Machine
end

