-- ==== Sys2Proof/Machine/Dmv.lean ====
section
/-!
DEFINITION. The DMA mover (dma_mover): channels, movers, jobs, flushing reads and bus errors.
-/
namespace Sys2Proof.Machine

/-! ### Channels and movers (R370 to R373) -/

/-- A channel. -/
def mvChan (s : State) (ch : Nat) : MvChan := mget {} s.dmv.chans ch

/-- s with a channel changed by g. -/
def modChan (ch : Nat) (g : MvChan → MvChan) (s : State) : State := modDmv (fun d => { d with chans := mmod {} d.chans ch g }) s

/-- PRIO of a channel (R370). -/
def mvPrio (s : State) (ch : Nat) : Nat := fld (mvCfg s ch) 26 24

/-- The next number of the order of R372. -/
def mvTick (s : State) : Nat × State := (s.dmv.next, modDmv (fun d => { d with next := d.next + 1 }) s)

/-- Is BARRIER set in a job (R379)? -/
def mvBarrier (j : Job) : Bool := bitOf (entryField j.entry 1 1) 4

/-- Has a job its tracker entry, so that it has reached its channel (R371)? A register-started job holds its own. -/
def mvTracked (j : Job) : Bool := j.work.isSome || j.trk.isSome

/-- Has a channel work that a mover could run: a job that has reached it, no halt, and no job with BARRIER that waits for its completion
(R379)? -/
def mvReady (u : MvChan) : Bool :=
  (u.jobs.head?.map mvTracked).getD false && (u.st == .idle || u.st == .preempted) && !u.flushing.any mvBarrier

/-- A channel begins to wait for a mover (R372). -/
def mvWait (ch : Nat) (s : State) : State := let t := mvTick s; modChan ch (fun u => { u with waitNo := t.1 }) t.2

/-- A job reaches its channel (R371). -/
def jobReaches (ch : Nat) (j : Job) (s : State) : State :=
  let first := (mvChan s ch).jobs.isEmpty
  let s1 := modChan ch (fun u => { u with jobs := u.jobs ++ [j] }) s
  if first then mvWait ch s1 else s1

/-- Channels for which p holds. -/
def mvSelect (s : State) (p : MvChan → Bool) : List Nat := (s.dmv.chans.filter (fun e => p e.2)).map Prod.fst

/-- The channel with the least key. -/
def mvLeast (key : Nat → Nat) (cs : List Nat) : Option Nat :=
  cs.foldl (fun best c => match best with
    | some b => if key c < key b then some c else some b
    | none => some c) none

/-- Mover m runs a channel. -/
def mvRun (ch m : Nat) (s : State) : State := let t := mvTick s; modChan ch (fun u => { u with st := .running, runNo := t.1, mover := m }) t.2

/-- The channels that run on a mover of the active set; one whose mover has left waits for the hand-off (R440). -/
def mvRunning (s : State) : List Nat := mvSelect s (fun u => u.st == .running && (activeUnits s 4).contains u.mover)

/-- The movers of the active set that run no channel. -/
def freeMovers (s : State) : List Nat := (activeUnits s 4).filter (fun m => (mvSelect s (fun u => u.st == .running && u.mover == m)).isEmpty)

/-! ### What a job writes (R376, R377) -/

/-- idx[i] of a job (R376). -/
def mvIndex (j : Job) (i : Nat) : Nat := let n := if entryField j.entry 45 1 = 1 then 8 else 4; leAt j.idx (i * n) n

/-- The bit of a byte string (R377). -/
def bitAt (bs : Bytes) (i : Nat) : Bool := (byteAt bs (i / 8)).testBit (i % 8)

/-- Bytes from bits, least significant bit of the lowest byte first. -/
def packBits (n : Nat) (f : Nat → Bool) : Bytes :=
  (List.range n).map (fun k => BitVec.ofNat 8 ((List.range 8).foldl (fun a b => a + at_ b (b2n (f (8 * k + b)))) 0))

/-- Cut bytes into 64-byte beats, with their offsets (R370). -/
def beats (bs : Bytes) : List (Nat × Bytes) := (List.range (ceilDiv bs.length 64)).map (fun k => (64 * k, (bs.drop (64 * k)).take 64))

/-- The pieces a job writes, in order: offset from DST, and bytes; none for an element outside the indexed region (R376, R377). -/
def mvPieces (j : Job) : List (Option (Nat × Bytes)) :=
  let e := j.entry
  let src := j.src.getD []
  let len := entryField e 32 4
  let count := entryField e 36 4
  let elem := entryField e 40 2
  let str := entryField e 42 2
  let el (k : Nat) : Bytes := slice src (k * elem) elem
  match entryField e 0 1 with
  | 1 => (beats (slice src 0 len)).map some
  | 2 => let pat := leBytes 8 (entryField e 24 8)
         (beats ((List.range len).map (fun k => pat.getD (k % 8) 0))).map some
  | 3 => (List.range count).map (fun i => if (mvIndex j i + 1) * elem ≤ len then some (i * elem, el (mvIndex j i)) else none)
  | 4 => (List.range count).map (fun i => if (mvIndex j i + 1) * elem ≤ len then some (mvIndex j i * elem, el i) else none)
  | 5 => (List.range (str * count)).map (fun k => some (k * elem, el (k % str * count + k / str)))
  | 6 => (List.range (str * count)).map (fun k => some (k * elem, el (k % count * str + k / count)))
  | 7 => (beats (packBits len (fun b => bitAt src (b % count * (8 * elem) + b / count)))).map some
  | _ => (beats (packBits len (fun b => bitAt src (b % (8 * elem) * count + b / (8 * elem))))).map some

/-- BYTES_DONE and ELEMS_DONE of a job, as the completion's bytes 19 to 31 (R375). -/
def mvExtra (j : Job) : Nat :=
  let n := ((mvPieces j).take j.pos).foldl (fun a p => match p with
    | some q => a + q.2.length
    | none => a) 0
  let elems := if entryField j.entry 0 1 < 3 then 0 else n / max 1 (entryField j.entry 40 2)
  at_ 8 n + at_ 72 elems

/-- The bytes of SRC that a job reads: the indexed region of a GATHER. -/
def mvSourceLen (e : BitVec 512) : Option Nat := if entryField e 0 1 = 3 then some (entryField e 32 4) else (mvSpans e).1

/-- The ranges a job reads, SRC and INDEX, each in raw device memory or at host addresses (R374, R376). -/
def mvReadSpans (s : State) (j : Job) : List (Bool × Nat × Nat) :=
  let one (k off : Nat) (n : Option Nat) : Option (Bool × Nat × Nat) :=
    let a := entryField j.entry off 8
    n.bind (fun n => if mvDevice j.entry k then (devAddr s j.fn a 1).map (fun r => (true, r, n)) else some (false, a, n))
  (one 0 8 (mvSourceLen j.entry)).toList ++ (one 2 24 (mvSpans j.entry).2.2).toList

/-- Bytes to be written at an address, those that overlap what an operation other than COPY reads undefined (R376). -/
def mvBlur (s : State) (j : Job) (dev : Bool) (a : Nat) (bs : Bytes) : Bytes × State :=
  let spans := if entryField j.entry 0 1 = 1 then [] else mvReadSpans s j
  let inside (x : Nat) : Bool := spans.any (fun r => r.1 == dev && decide (r.2.1 ≤ x ∧ x < r.2.1 + r.2.2))
  bs.zipIdx.foldl (fun acc e =>
    if inside (a + e.2) then let r := freeByte acc.2; (acc.1 ++ [r.1], r.2) else (acc.1 ++ [e.1], acc.2)) ([], s)

/-- Elements of a SCATTER that go to the same place as element i (R376). -/
def mvTwins (j : Job) (i : Nat) : List Nat :=
  if entryField j.entry 0 1 = 4 then (List.range (entryField j.entry 36 4)).filter (fun k => mvIndex j k == mvIndex j i) else [i]

/-- The bytes of piece i: the last of several SCATTER elements of one index is any of them (R376). -/
def mvChoose (j : Job) (i : Nat) (bs : Bytes) (s : State) : Bytes × State :=
  let t := mvTwins j i
  if 1 < t.length ∧ t.getLast? = some i then
    let r := takeFree s
    match (mvPieces j).getD (t.getD (r.1 % t.length) i) none with
    | some p => (p.2, r.2)
    | none => (bs, r.2)
  else (bs, s)

/-- One piece is written; false where it lies outside its DEVICE window. -/
def mvWritePiece (j : Job) (i : Nat) (off : Nat) (bs : Bytes) (s : State) : Bool × State :=
  let e := j.entry
  let dst := entryField e 16 8
  if mvDevice e 1 then
    match devAddr s j.fn (dst + off) bs.length with
    | none => (false, s)
    | some a =>
      let c := mvChoose j i bs s
      let r := mvBlur c.2 j true a c.1
      (true, devWrite a r.1 r.2)
  else
    let c := mvChoose j i bs s
    let r := mvBlur c.2 j false (dst + off) c.1
    (true, payloadWrite j.fn j.pasid (dst + off) r.1 r.2)

/-! ### Ends of jobs (R378 to R381) -/

/-- A job's completion (R371, R375): its entry finishes, or DMV_CH_STATUS shows it and JOB_DONE is raised. -/
def jobDone (ch : Nat) (j : Job) (status : Nat) (s : State) : State :=
  match j.work with
  | some (q, ctr) => finishWork j.fn q ctr status (mvExtra j) (worked .dmv s)
  | none => raise 0xB 0x02 ch (.function .fw) (modChan ch (fun u => { u with jobStatus := some status }) (worked .dmv s))

/-- The current job has issued its last write or has ended (R379): the mover is free, and the next job waits. -/
def jobWritten (ch status : Nat) (s : State) : State :=
  let s1 := modChan ch (fun u => { u with
    st := .idle, jobs := u.jobs.drop 1, flushing := u.flushing ++ (u.jobs.take 1).map (fun j => { j with status := status }) }) s
  if (mvChan s1 ch).jobs.isEmpty then s1 else mvWait ch s1

/-- Does a bus error take the latch: a channel that is HALTED keeps its own, but for an error of the same instant at a lower address (R380,
R381, assumption 131)? -/
def mvLatches (s : State) (u : MvChan) (addr : Nat) : Bool :=
  u.st != .halted || (u.haltAt == some s.elapsed && decide (addr < u.failAddr))

/-- A bus error (R380): the channel halts and latches it, CHANNEL_HALTED is raised, and the failing jobs complete with BUS_ERROR_HALTED: those
whose flushing read it was, or the current job, which has ended already where the channel is HALTED. -/
def busError (ch cause addr : Nat) (write flush device : Bool) (s : State) : State :=
  let u := mvChan s ch
  let current := if flush || u.st == .halted then 0 else 1
  let bad := if flush then u.flushing else u.jobs.take current
  let s1 := foldS (fun j s => jobDone ch j 0x28 s) bad (bump .DMV_STAT 1 0 1 s)
  let s2 := if mvLatches s u addr then modChan ch (fun u => { u with
    cause := cause, dirWrite := write, flushErr := flush, device := device, failAddr := addr, haltAt := some s.elapsed }) s1 else s1
  let s3 := modChan ch (fun u => { u with
    st := .halted, jobs := u.jobs.drop current, flushing := if flush then [] else u.flushing }) s2
  raise 0xB 0x01 ch (.function (mvOwner s ch)) s3

/-- CAUSE of a host read that failed (R380, R384). -/
def readCause : HostRead → Nat
  | .data _ => 0 | .timeout => 1 | .abort => 2 | .poisoned => 3 | .badAddress => 5

/-- What a job reads, SRC or INDEX: device memory, or what the host returned; otherwise the cause, the address and the space of the error. A
poisoned line of device memory shows when the piece that needs it is reached. -/
def mvFetch (s : State) (j : Job) (k off : Nat) (n : Option Nat) (host : HostRead) : Except (Nat × Nat × Bool) Bytes :=
  let a := entryField j.entry off 8
  match n with
  | none => .ok []
  | some n =>
    if mvDevice j.entry k then
      .ok (match devAddr s j.fn a 1 with
        | some r => devRead s r n
        | none => [])
    else match host with
    | .data bs => .ok (slice bs 0 n)
    | e => .error (readCause e, a, false)

/-- A job's read of HOST space, and what follows it (R131 to R135). -/
def mvReads (j : Job) (k off : Nat) (n : Option Nat) (host : HostRead) (next : State → State) (s : State) : State :=
  if n.isNone || mvDevice j.entry k then next s else withRead j.fn (entryField j.entry off 8) host next s

/-- The DEVICE addresses and lengths that piece i of a job needs, of INDEX and of SRC; a reshuffle into or from planes needs its whole source
first. -/
def mvPieceReads (j : Job) (i : Nat) : List (Nat × Nat) :=
  let e := j.entry
  let elem := entryField e 40 2
  let len := entryField e 32 4
  let count := entryField e 36 4
  let str := entryField e 42 2
  let n := if entryField e 45 1 = 1 then 8 else 4
  let at_src (off n : Nat) : List (Nat × Nat) := if mvDevice e 0 then [(entryField e 8 8 + off, n)] else []
  let index : List (Nat × Nat) := if mvDevice e 2 then [(entryField e 24 8 + i * n, n)] else []
  match entryField e 0 1 with
  | 1 => at_src (64 * i) (min 64 (len - 64 * i))
  | 2 => []
  | 3 => index ++ at_src (mvIndex j i * elem) elem
  | 4 => index ++ at_src (i * elem) elem
  | 5 => at_src ((i % str * count + i / str) * elem) elem
  | 6 => at_src ((i % count * str + i / count) * elem) elem
  | _ => if i = 0 then at_src 0 len else []

/-- The first DEVICE address that piece i needs and that holds a poisoned line (R380). -/
def mvPoisonAt (s : State) (j : Job) (i : Nat) : Option Nat :=
  ((mvPieceReads j i).find? (fun r => match devAddr s j.fn r.1 r.2 with
    | some a => devPoisoned s a r.2
    | none => false)).map Prod.fst

/-- Is the element of a GATHER inside its DEVICE window (R376)? -/
def mvElementOk (s : State) (j : Job) (i : Nat) : Bool :=
  let e := j.entry
  entryField e 0 1 != 3 || !mvDevice e 0 || (devAddr s j.fn (entryField e 8 8 + mvIndex j i * entryField e 40 2) (entryField e 40 2)).isSome

/-- The pieces from position i on are written, at most n of them, until one fails or the last is written. -/
def mvAdvance (ch : Nat) (j : Job) (ps : List (Option (Nat × Bytes))) : Nat → Nat → State → State
  | 0, i, s => modChan ch (fun u => { u with jobs := updAt 0 (fun x => { x with pos := i }) u.jobs }) s
  | n + 1, i, s =>
    let stop (status : Nat) (s : State) : State :=
      jobWritten ch status (modChan ch (fun u => { u with jobs := updAt 0 (fun x => { x with pos := i }) u.jobs }) s)
    if ps.length ≤ i then stop 0 s
    else match ps.getD i none with
    | none => stop 0x03 s
    | some p =>
      if !mvElementOk s j i then stop 0x03 s
      else match mvPoisonAt s j i with
      | some a => busError ch 3 a false false true (bump .REL_POISON_READ 0 0 1
          (modChan ch (fun u => { u with jobs := updAt 0 (fun x => { x with pos := i }) u.jobs }) s))
      | none =>
        let r := mvWritePiece j i p.1 p.2 s
        if r.1 then (if i + 1 = ps.length then
            jobWritten ch 0 (modChan ch (fun u => { u with jobs := updAt 0 (fun x => { x with pos := i + 1 }) u.jobs }) r.2)
          else mvAdvance ch j ps n (i + 1) r.2)
        else stop 0x03 s

/-- A running channel carries out its job, at most n pieces of it: 64-byte beats, or elements (R372, R376). The source and the index table are
read when the job begins. -/
def mvWork (op ch n : Nat) (src idx : HostRead) (s : State) : State :=
  let u := mvChan s ch
  match u.jobs with
  | [] => s
  | j :: _ =>
    if u.st ≠ .running ∨ !(activeUnits s 4).contains u.mover ∨ entryField j.entry 0 1 ≠ op then s
    else match j.src with
    | some _ => mvAdvance ch j (mvPieces j) n j.pos s
    | none => mvReads j 2 24 (mvSpans j.entry).2.2 idx (fun s =>
      match mvFetch s j 2 24 (mvSpans j.entry).2.2 idx with
      | .error x => busError ch x.1 x.2.1 false false x.2.2 s
      | .ok ib => mvReads j 0 8 (mvSourceLen j.entry) src (fun s =>
        match mvFetch s j 0 8 (mvSourceLen j.entry) src with
        | .error x => busError ch x.1 x.2.1 false false x.2.2 s
        | .ok sb =>
          let j1 := { j with src := some sb, idx := ib }
          mvAdvance ch j1 (mvPieces j1) n 0 (modChan ch (fun u => { u with jobs := updAt 0 (fun _ => j1) u.jobs }) s)) s) s

/-- COPY (R376). -/
def execCopy (ch n : Nat) (src : HostRead) (s : State) : Outcome := .next (mvWork 1 ch n src src s)
/-- FILL (R376). -/
def execFill (ch n : Nat) (s : State) : Outcome := .next (mvWork 2 ch n (.data []) (.data []) s)
/-- GATHER (R376). -/
def execGather (ch n : Nat) (src idx : HostRead) (s : State) : Outcome := .next (mvWork 3 ch n src idx s)
/-- SCATTER (R376). -/
def execScatter (ch n : Nat) (src idx : HostRead) (s : State) : Outcome := .next (mvWork 4 ch n src idx s)
/-- INTERLEAVE (R376). -/
def execInterleave (ch n : Nat) (src : HostRead) (s : State) : Outcome := .next (mvWork 5 ch n src src s)
/-- DEINTERLEAVE (R376). -/
def execDeinterleave (ch n : Nat) (src : HostRead) (s : State) : Outcome := .next (mvWork 6 ch n src src s)
/-- TO_PLANES (R377). -/
def execToPlanes (ch n : Nat) (src : HostRead) (s : State) : Outcome := .next (mvWork 7 ch n src src s)
/-- FROM_PLANES (R377). -/
def execFromPlanes (ch n : Nat) (src : HostRead) (s : State) : Outcome := .next (mvWork 8 ch n src src s)

/-- Has a job written to HOST space (R378)? -/
def wroteHost (j : Job) : Bool := !mvDevice j.entry 1 && decide (0 < j.pos)

/-- The last address that a job has written: that of the last byte of its last piece (R378). -/
def mvLastAddr (j : Job) : Nat :=
  entryField j.entry 16 8 + (match (mvPieces j).getD (j.pos - 1) none with
    | some p => p.1 + (p.2.length - 1)
    | none => 0)

/-- JOB_COMPLETE (R378): the jobs whose writes have been issued complete together, behind one flushing read where any wrote to HOST space. -/
def execJobComplete (ch : Nat) (flush : HostRead) (s : State) : Outcome :=
  let u := mvChan s ch
  if u.flushing.isEmpty then .next s
  else
    let host := u.flushing.any wroteHost
    let ends (s : State) : State := foldS (fun j s => jobDone ch j j.status s) u.flushing (modChan ch (fun u => { u with flushing := [] }) s)
    if !host then .next (ends s)
    else
      let j := (u.flushing.filter wroteHost).getLast?
      let a := (j.map mvLastAddr).getD 0
      .next (withRead ((j.map Job.fn).getD .fw) a flush (fun s =>
        let s1 := bump .DMV_STAT 2 0 1 s
        match flush with
        | .data _ => ends s1
        | _ => busError ch (readCause flush) a false true false s1) s)

/-- May a bus error arise on a channel: on a flushing read of it, in its current job, or, HALTED, in the instant in which it halted (R381)? -/
def mvErrs (s : State) (u : MvChan) (flush : Bool) : Bool :=
  if flush then !u.flushing.isEmpty else if u.st == .halted then u.haltAt == some s.elapsed else !u.jobs.isEmpty

/-- BUS_ERROR (R380): cause 1 TIMEOUT to 5 TRANSLATION, in a data transfer, an index read or a flushing read of a channel's job. -/
def execBusError (ch cause addr : Nat) (write flush device : Bool) (s : State) : Outcome :=
  if mvErrs s (mvChan s ch) flush then .next (busError ch cause addr write flush device s) else .next s

/-! ### Channel controls (R381, R383 to R385) -/

/-- MOVER_ASSIGN (R372, R373): a free mover goes to the waiting channel with the smallest PRIO, the one that has waited longest among equals;
with none free, the running channel with the largest PRIO, the latest run among equals, is pre-empted by a more urgent one. -/
def execMoverAssign (s : State) : Outcome :=
  match mvLeast (fun c => mvPrio s c * 2 ^ 64 + (mvChan s c).waitNo) (mvSelect s mvReady) with
  | none => .next s
  | some w =>
    if blockWaits s 11 then .next s
    else if kindGone s 4 ∨ unitDead s 0xB00 then .next (jobWritten w 0x3F s)
    else match (freeMovers s).head?, mvLeast (fun c => (7 - mvPrio s c) * 2 ^ 64 + (2 ^ 64 - 1 - (mvChan s c).runNo)) (mvRunning s) with
    | some m, _ => .next (mvRun w m s)
    | none, some v =>
      if mvPrio s w < mvPrio s v then
        .next (mvRun w (mvChan s v).mover (mvWait v (modChan v (fun u => { u with st := .preempted }) (bump .DMV_STAT 0 0 1 s))))
      else .next s
    | none, none => .next s

/-- May a path resume, abort or enable a channel (R384, R385)? -/
def mvControls (s : State) (p : Path) (ch : Nat) : Bool :=
  match p with
  | .fn (.pf i) => mvOwner s ch != .fw && fnPf (mvOwner s ch) == i
  | .fn f => mvOwner s ch == f
  | _ => true

/-- RESULT of DMV_CH_STATUS, as a path sees it (R384, R476). -/
def mvResult (p : Path) (r : Nat) (s : State) : State := setReg .DMV_CH_STATUS 0 (pathCode p) (w32 (at_ 12 r)) s

/-- CHANNEL_RESUME (R381). -/
def mvChannelResume (p : Path) (ch : Nat) (s : State) : State :=
  if !mvControls s p ch then (mvResult p 2 s)
  else if (mvChan s ch).st ≠ .halted then (mvResult p 1 s)
  else (mvResult p 0 (mvWait ch (modChan ch mvUnlatch s)))

/-- CHANNEL_ABORT (R381): every job waiting on the channel completes with FLUSHED. -/
def mvChannelAbort (p : Path) (ch : Nat) (s : State) : State :=
  if !mvControls s p ch then (mvResult p 2 s)
  else if (mvChan s ch).st ≠ .halted then (mvResult p 1 s)
  else
    let js := (mvChan s ch).jobs
    (mvResult p 0 (foldS (fun j s => jobDone ch j 0x30 s) js (modChan ch (fun u => { mvUnlatch u with jobs := [] }) s)))

/-- The entry in DMV_CH_DESC0-15 of a channel (R383). -/
def descEntry (s : State) (ch : Nat) : BitVec 512 :=
  BitVec.ofNat 512 ((List.range 16).foldl (fun a i => a + at_ (32 * i) (reg s .DMV_CH_DESC i ch).toNat) 0)

/-- A tracker number that no entry in use has. -/
def trkFree (s : State) : Nat := let u := trkUsed s; ((List.range (u.length + 1)).find? (fun i => !u.contains i)).getD 0

/-- CHANNEL_START (R383): firmware starts the register descriptor on a firmware-owned channel; its checks are those of an entry, and its job
then waits for a tracker entry as an entry's does (R371).
While the mode fetches nothing the channel answers BUSY (R105, assumption 130). -/
def mvChannelStart (p : Path) (ch : Nat) (s : State) : State :=
  let u := mvChan s ch
  let e := descEntry s ch
  if mvOwner s ch ≠ .fw ∨ !mayWrite s p .DMV_CH_DESC then (mvResult p 2 s)
  else if !u.jobs.isEmpty ∨ !u.flushing.isEmpty ∨ !modeFetches s then (mvResult p 1 s)
  else
    let st := if headerStatus 5 e ≠ 0 then 1 else if entryField e 4 1 % 64 ≠ ch then 4 else mvStatus s .fw e
    let j : Job := { fn := .fw, entry := e }
    let s1 := mvResult p 0 (modChan ch (fun u => { u with jobStatus := none }) s)
    if st ≠ 0 then (jobDone ch { j with src := some [] } st s1)
    else modChan ch (fun u => { u with jobs := [{ j with arrived := s1.sto.arrivals }] }) (modSto (fun t => { t with arrivals := t.arrivals + 1 }) s1)

/-! ### The in-flight tracker (R354) -/

/-- Entries of a queue that ask for a tracker entry: those whose FENCE, and that of every earlier one, lets them be dispatched (R165, R354). -/
def trkAsks (ws : List Work) : List Work :=
  let rec go : Bool → List Work → List Work
    | _, [] => []
    | allDone, w :: t =>
      if bitOf (entryField w.entry 1 1) 2 && !allDone then []
      else if needsTracker w.cls (opcode w) && w.trk.isNone && w.done.isNone then w :: go false t
      else go (allDone && w.done.isSome) t
  go true ws

/-- A request for a tracker entry: its arrival, and a fetched entry, an NVMe command or a register-started job. -/
structure TrkAsk where
  no : Nat
  sq : Nat
  ctr : BitVec 16 := 0
  nvme : Bool := false
  /-- The channel of a register-started mover job. -/
  ch : Option Nat := none
deriving DecidableEq, Repr

/-- Every function code that has queues or a controller, but those of VFs that are not RUNNING, whose work is parked (R192), and firmware's. -/
def trkFns (s : State) : List Nat :=
  (fnCode .fw :: s.qm.queues.map (fun (e : Nat × Queue) => e.1 / 2 ^ 20) ++ s.sto.ctrls.map (fun (e : Nat × Nvme) => e.1)).eraseDups.filter
    (fun c => (mget ({} : FnSt) s.hif.fns c).mig.st == MigSt.running)

/-- The function that a code names (R155). -/
def fnOf (c : Nat) : Fn := if 0x8000 ≤ c then .fw else if 0x4000 ≤ c then .vf ((c - 0x4000) / 4096) (c % 4096) else .pf (c / 4096)

/-- The oldest request of a function. -/
def oldestAsk (s : State) (c : Nat) : Option TrkAsk :=
  let qs := (s.qm.queues.filter (fun e => e.1 / 2 ^ 20 == c)).map (fun (e : Nat × Queue) =>
    (trkAsks e.2.work).map (fun w => ({ no := w.arrived, sq := e.1 % 2 ^ 20, ctr := w.ctr } : TrkAsk)))
  let ns := match mfind s.sto.ctrls c with
    | some x => (x.cmds.filter (fun n => n.trk.isNone && n.st == .fetched)).map (fun n => ({ no := n.no, sq := n.sq, nvme := true } : TrkAsk))
    | none => []
  let js := if c ≠ fnCode .fw then [] else s.dmv.chans.flatMap (fun e =>
    (e.2.jobs.filter (fun j => !mvTracked j)).map (fun j => ({ no := j.arrived, sq := 0, ch := some e.1 } : TrkAsk)))
  (qs.flatten ++ ns ++ js).foldl (fun best a => match best with
    | some b => if a.no < b.no then some a else some b
    | none => some a) none

/-- TRACKER_GRANT (R354): round robin among functions, in arrival order within one; a mover job then reaches its channel (R371). -/
def execTrackerGrant (s : State) : Outcome :=
  let ok := (trkFns s).filter (fun c => (oldestAsk s c).isSome && trkRoom s (fnOf c))
  match mvLeast (fun c => (BitVec.ofNat 16 c - BitVec.ofNat 16 (s.sto.lastFn + 1)).toNat) ok with
  | none => .next s
  | some c =>
    match oldestAsk s c with
    | none => .next s
    | some a =>
      let f := fnOf c
      let k := trkFree s
      let s1 := modSto (fun t => { t with lastFn := c, gens := mset 0 t.gens k ((mget 0 t.gens k + 1) % 2 ^ 14) }) s
      match a.ch with
      | some ch =>
        .next (trkHigh (mvWait ch (modChan ch (fun u => { u with jobs := u.jobs.map (fun j => if mvTracked j then j else { j with trk := some k }) }) s1)))
      | none =>
      if a.nvme then
        .next (trkHigh (modSto (fun t => { t with ctrls := mmod {} t.ctrls c (fun x => { x with
          cmds := updFirst (fun n => n.no == a.no) (fun n => { n with trk := some k }) x.cmds }) }) s1))
      else
        let s2 := modWork f a.sq a.ctr (fun w => { w with trk := some k }) s1
        match workOf s2 f a.sq a.ctr with
        | some w =>
          if w.cls = 5 then
            let ch := entryField w.entry 4 1 % 64
            .next (trkHigh (jobReaches ch { fn := f, work := some (a.sq, a.ctr), entry := w.entry, pasid := qPasid (queue s2 f a.sq) }
              (modWork f a.sq a.ctr (fun w => { w with started := true }) s2)))
          else .next (trkHigh s2)
        | none => .next (trkHigh s2)

end Sys2Proof.Machine
end

