-- ==== Sys2Proof/Machine/LcsOps.lean ====
section
/-!
DEFINITION. Images, the flash directory, zeroisation and debug sessions as shared operations (lifecycle_and_update).
-/
namespace Sys2Proof.Machine

/-- An LCS event (R468). -/
def lcsEvent (code detail : Nat) (s : State) : State := raise 0x1 code detail .device s

/-! ### Images (R252, R253, R457, R458) -/

/-- A signature over a digest by a public key, both big-endian (R454, R457). -/
def sigOk (key digest sig : Bytes) : Bool := Config.verifies (beNat key) (beNat digest) (beNat sig)

/-- Is every byte from offset off, n of them, zero? -/
def zeroAt (bs : Bytes) (off n : Nat) : Bool := leAt bs off n == 0

/-- Is the form of a PRS image right: MAGIC, VERSION, WORDS, TOTAL_LEN and the reserved fields (R252, R253)? -/
def prsFormOk (bs : Bytes) : Bool :=
  let w := leAt bs 6 2
  let t := 256 + 24 * w + 2048 + 144
  leAt bs 0 4 == 0x5A4E5053 && leAt bs 4 2 == 1 && decide (1 ≤ w ∧ w ≤ 8192) && leAt bs 8 4 == t && bs.length == t
    && zeroAt bs 12 4 && zeroAt bs 160 96
    && (List.range 32).all (fun i => leAt bs (32 + 4 * i) 4 % 2 ^ 31 < 2 ^ 13)
    && (List.range 256).all (fun i => bits (leAt bs (256 + 24 * w + 8 * i) 8) 62 45 == 0)

/-- Do the digest and the signature of a PRS image verify under a key (R252, R253)? -/
def prsSigOk (key bs : Bytes) : Bool :=
  let n := bs.length - 144
  let d := slice bs n 48
  sha384 (bs.take n) == d && sigOk key d (slice bs (n + 48) 96)

/-- What a PRS image loads (R252). -/
def prsImageOf (bs : Bytes) : PrsImage :=
  let w := leAt bs 6 2
  { words := (List.range w).map (fun i => leAt bs (256 + 24 * i) 24),
    matches_ := (List.range 256).map (fun i => leAt bs (256 + 24 * w + 8 * i) 8),
    entries := (List.range 32).map (fun i => leAt bs (32 + 4 * i) 4),
    buildId := leAt bs 16 16 }

/-- SHA-384 of a loaded image's header, words and match memory (R253): the header is that of its fields. -/
def prsDigest (i : PrsImage) : Bytes :=
  sha384 (leBytes 4 0x5A4E5053 ++ leBytes 2 1 ++ leBytes 2 i.words.length ++ leBytes 4 (256 + 24 * i.words.length + 2048 + 144) ++ leBytes 4 0
    ++ leBytes 16 i.buildId ++ (i.entries.map (leBytes 4)).flatten ++ leBytes 96 0 ++ (i.words.map (leBytes 24)).flatten
    ++ (i.matches_.map (leBytes 8)).flatten)

/-- The hash of the key that images need in the life-cycle state (R448): the maker's, or the current owner slot's; none in SPENT. -/
def imageKeyHash (s : State) : Option Bytes :=
  match s.lcs.life with
  | 0 | 3 => some Config.makerKeyHash
  | 1 | 2 => some (s.lcs.owners.getLast?.getD (List.replicate 48 0))
  | _ => none

/-- Is the header of a firmware image well formed, for a region of cap bytes (R457)? -/
def imageFormOk (cap : Nat) (bs : Bytes) : Bool :=
  let t := leAt bs 8 4
  let inBody (off len : Nat) : Bool := decide (off + len ≤ t - 144) && (len == 0 || decide (512 ≤ off))
  leAt bs 0 4 == 0x5A4E4657 && leAt bs 4 2 == 1 && leAt bs 6 2 == 512 && bs.length == t && decide (656 ≤ t ∧ t ≤ 268435456 ∧ t ≤ cap)
    && decide (1 ≤ byteAt bs 12 ∧ byteAt bs 12 ≤ 2) && decide (byteAt bs 13 < 2) && decide (byteAt bs 14 < 64) && byteAt bs 15 == 1
    && inBody (leAt bs 36 4) (leAt bs 40 4) && inBody (leAt bs 44 4) (leAt bs 48 4) && zeroAt bs 212 300

/-- The PRS image that a firmware image embeds; empty for none (R457). -/
def embeddedPrs (bs : Bytes) : Bytes := if leAt bs 48 4 = 0 then [] else slice bs (leAt bs 44 4) (leAt bs 48 4)

/-- The status of an image under R458, 0 where it is accepted: its form, its key, its digest and signatures, its SVN, and its KIND. -/
def imageStatus (s : State) (cap kind : Nat) (bs : Bytes) : Nat :=
  let key := slice bs 116 96
  let n := bs.length - 144
  let d := slice bs n 48
  let prs := embeddedPrs bs
  if !imageFormOk cap bs then 0x02
  else if imageKeyHash s ≠ some (sha384 key) then 0x10
  else if sha384 (bs.take n) ≠ d ∨ !sigOk key d (slice bs (n + 48) 96) ∨ (!prs.isEmpty ∧ !(prsFormOk prs && prsSigOk key prs)) then 0x10
  else if byteAt bs 14 < s.lcs.svnFloor then 0x05
  else if byteAt bs 12 ≠ kind then 0x01 else 0

/-! ### The flash (R456) -/

/-- A directory copy as bytes (R456). -/
def dirBytes (d : FlashDir) : Bytes :=
  let body := leBytes 4 0x5A4E4449 ++ leBytes 4 d.seq ++ leBytes 1 d.active ++ leBytes 1 (b2n d.committed) ++ leBytes 6 0
    ++ (d.entries.map (fun e => leBytes 4 e.1 ++ leBytes 4 e.2)).flatten ++ List.replicate 4036 0
  body ++ leBytes 4 (crc32c body)

/-- A directory copy as the flash holds it, where it is valid (R456). -/
def dirOf (bs : Bytes) : Option FlashDir :=
  if bs.length = 4096 ∧ leAt bs 0 4 = 0x5A4E4449 ∧ byteAt bs 8 < 2 ∧ leAt bs 4092 4 = crc32c (bs.take 4092) then
    some { seq := leAt bs 4 4, active := byteAt bs 8, committed := bitOf (byteAt bs 9) 0,
           entries := (List.range 5).map (fun i => (leAt bs (16 + 8 * i) 4, leAt bs (20 + 8 * i) 4)) }
  else none

/-- A write of the directory goes to the older copy with SEQ + 1 (R456). -/
def writeDir (active : Nat) (committed : Bool) (s : State) : State :=
  match directory s with
  | none => s
  | some (k, d) =>
    let new := { d with seq := (d.seq + 1) % 2 ^ 32, active := active, committed := committed }
    emit (.flash (6 - k) (dirBytes new)) (modLcs (fun l => if k = 0 then { l with dir1 := some new } else { l with dir0 := some new }) s)

/-- Bytes of a region of the flash: 0 and 1 the banks, 2 RECOVERY, 3 and 4 the settings (R456), at most what an image may have (R457). -/
def regionSize (s : State) (i : Nat) : Nat := min 268435456 (((directory s).map (fun d => (d.2.entries.getD i (0, 0)).2)).getD 268435456)

/-- The first start reads the flash (R98, R456): the device runs the bank that the directory names. -/
def readFlash (boot : BootInput) (s : State) : State :=
  if s.lcs.flashRead then s
  else
    let d0 := dirOf boot.directory0
    let d1 := dirOf boot.directory1
    let s1 := modLcs (fun l => { l with
      flashRead := true, dir0 := d0, dir1 := d1, bankA := boot.bankA, bankB := boot.bankB, recovery := boot.recovery,
      regionA := boot.settingsA, regionB := boot.settingsB }) s
    match directory s1 with
    | some (_, d) => modLcs (fun l => { l with active := d.active, committed := d.committed }) s1
    | none => s1

/-! ### Settings (R465, R466) -/

/-- One block of a settings region (R465). -/
structure SettingsBlock where
  type : Nat
  version : Nat
  data : Bytes
deriving DecidableEq, Repr

/-- A block as bytes: TYPE, VERSION, LENGTH, and DATA padded to 8 bytes (R465). -/
def blockBytes (x : SettingsBlock) : Bytes :=
  leBytes 2 x.type ++ leBytes 2 x.version ++ leBytes 4 x.data.length ++ x.data ++ List.replicate ((8 - x.data.length % 8) % 8) 0

/-- The blocks that bytes begin with, up to the block of TYPE 0, and the bytes after that one; none where they are cut off. -/
def splitBlocks : Nat → Bytes → Option (List SettingsBlock × Bytes)
  | 0, _ => none
  | n + 1, bs =>
    let whole := 8 + (leAt bs 4 4 + 7) / 8 * 8
    if bs.length < 8 ∨ bs.length < whole then none
    else if leAt bs 0 2 = 0 then some ([], bs.drop whole)
    else (splitBlocks n (bs.drop whole)).map
      (fun r => ({ type := leAt bs 0 2, version := leAt bs 2 2, data := slice bs 8 (leAt bs 4 4) } :: r.1, r.2))

/-- The blocks of bytes, and what stands after the block of TYPE 0. -/
def blocksOf (bs : Bytes) : Option (List SettingsBlock × Bytes) := splitBlocks (bs.length / 8 + 1) bs

/-- A settings region of the flash, 0 A and 1 B. -/
def regionBytes (s : State) (b : Nat) : Bytes := ((if b = 0 then s.lcs.regionA else s.lcs.regionB).getD [])

/-- The blocks of a region whose HMAC under the sealing key holds; none where it fails (R465). -/
def sealedBlocks (s : State) (b : Nat) : Option (List SettingsBlock) :=
  let bs := regionBytes s b
  match blocksOf bs with
  | some (xs, rest) => if rest.take 48 = hmac384 s.lcs.sealKey (bs.take (bs.length - rest.length)) then some xs else none
  | none => none

/-- The blocks of the region in use. -/
def blocksInUse (s : State) : List SettingsBlock := ((s.lcs.regionUsed.bind (sealedBlocks s)).getD [])

/-- A region of the flash takes blocks, which LCS seals (R465). -/
def sealRegion (b : Nat) (xs : List SettingsBlock) (s : State) : State :=
  let body := (xs.map blockBytes).flatten ++ leBytes 8 0
  let bs := body ++ hmac384 s.lcs.sealKey body
  emit (.flash (3 + b) bs) (modLcs (fun l => if b = 0 then { l with regionA := some bs } else { l with regionB := some bs }) s)

/-- A bundle of a new region (R465): blocks up to the one of TYPE 0, then the owner's public key and its signature over SHA-384 of the blocks.
Its blocks, key and signature; none where the bytes are no such bundle. -/
def bundleOf (bs : Bytes) : Option (List SettingsBlock × Bytes × Bytes) :=
  if leAt bs 0 4 = 0x5A4E4657 then none
  else match blocksOf bs with
  | some (xs, rest) => if rest.length = 192 then some (xs, rest.take 96, rest.drop 96) else none
  | none => none

/-- SETTINGS_VER of an image for a TYPE; none where it does not list it (R457). -/
def settingsVerOf (bs : Bytes) (ty : Nat) : Option Nat :=
  ((List.range 16).find? (fun i => leAt bs (52 + 4 * i) 2 == ty && ty != 0)).map (fun i => leAt bs (54 + 4 * i) 2)

/-- Is a block's VERSION no higher than an image's entry for its TYPE? A TYPE that the image does not list passes (R458). -/
def covers (bs : Bytes) (x : SettingsBlock) : Bool := ((settingsVerOf bs x.type).map (fun v => decide (x.version ≤ v))).getD true

/-- The status of an image for staging (R458): the rules of boot, and then that its SETTINGS_VER covers every block in use and its
AKZ_VERSION equals the running image's. -/
def stageStatus (s : State) (bs : Bytes) : Nat :=
  let st := imageStatus s (regionSize s (1 - s.lcs.active)) 1 bs
  if st ≠ 0 then st
  else if (blocksInUse s).all (covers bs) && (s.lcs.running.isEmpty || byteAt bs 15 == byteAt s.lcs.running 15) then 0 else 0x05

/-- FW_VERSION of an image (R457). -/
def fwVersion (bs : Bytes) : Nat := leAt bs 32 4

/-! ### Banks -/

/-- A bank of the flash. -/
def bankOf (s : State) (b : Nat) : Option Bytes := if b = 0 then s.lcs.bankA else s.lcs.bankB

/-- The flash's inactive bank takes an image (R459). -/
def writeBank (b : Nat) (bs : Bytes) (s : State) : State :=
  emit (.flash b bs) (modLcs (fun l => if b = 0 then { l with bankA := some bs } else { l with bankB := some bs }) s)

/-- A block as an image of SETTINGS_VER v for its TYPE keeps it: migrated where its VERSION is below v (R466). -/
def migrateBlock (bs : Bytes) (x : SettingsBlock) : SettingsBlock :=
  match settingsVerOf bs x.type with
  | some v => if x.version < v then { x with version := v, data := Config.schemaMigrate x.type x.version v x.data } else x
  | none => x

/-- The region that an image of a bank starts from (R465, R466): its own, or at the first start of a staged image the one in use unless a staging
has filled its own; the other where the HMAC of that one fails, and none where both fail. -/
def regionFor (s : State) (bank : Nat) : Option Nat :=
  let own := s.lcs.freshImage != some bank || s.lcs.freshRegion == some bank
  let first := if own then bank else s.lcs.regionUsed.getD (1 - bank)
  if (sealedBlocks s first).isSome then some first else if (sealedBlocks s (1 - first)).isSome then some (1 - first) else none

/-- Firmware takes the settings at the start of an image (R465, R466): it migrates the blocks below the image's versions and writes the migrated
region, sealed, to the region of the image's bank. -/
def migrateSettings (bs : Bytes) (bank : Nat) (s : State) : State :=
  let r := regionFor s bank
  let old := ((r.bind (sealedBlocks s)).getD [])
  let new := old.map (migrateBlock bs)
  let n := ((old.zip new).filter (fun p => p.1 != p.2)).length
  let moves := r.isSome && (decide (0 < n) || (r != some bank && s.lcs.freshImage == some bank))
  let s1 := if moves then sealRegion bank new s else s
  let s2 := modLcs (fun l => { l with
    regionUsed := if moves then some bank else r,
    freshImage := if l.freshImage = some bank then none else l.freshImage,
    freshRegion := if l.freshRegion = some bank then none else l.freshRegion }) s1
  if n = 0 then s2 else lcsEvent 0x0A n s2

/-- The DATA of a TYPE as an image applies it: none where the region has no such block or the image does not list the TYPE (R466). -/
def blockFor (bs : Bytes) (xs : List SettingsBlock) (ty : Nat) : Option SettingsBlock :=
  (xs.find? (fun x => x.type == ty)).filter (fun x => (settingsVerOf bs x.type).isSome)

/-- The settings that an image finds in the region in use (R465). -/
def spelled (bs : Bytes) (s : State) : Settings :=
  let xs := blocksInUse s
  let board := ((blockFor bs xs 2).map (fun x => Config.schemaBoard x.version x.data)).getD (0, 0, [], 0)
  let pfs := ((blockFor bs xs 1).map (fun x => Config.schemaFunctions x.version x.data)).getD []
  let ports := ((blockFor bs xs 3).map (fun x => Config.schemaPorts x.version x.data)).getD ([], [])
  let services := ((blockFor bs xs 5).map (fun x => Config.schemaServices x.version x.data)).getD ([], [])
  { pfs := pfs.map (fun p => { p with subsystemId := board.1 }), ports := ports.1, akz := ports.2, cores := services.1, blocks := services.2,
    ncsiPackage := board.2.1 % 8, ncsiPorts := board.2.2.1.take 4, ncsiVport := board.2.2.2 }

/-! ### Debug sessions (R455) -/

/-- The open debug session ends (R455). -/
def closeDebug (s : State) : State :=
  match s.lcs.session with
  | some _ => lcsEvent 0x04 0 (modLcs (fun l => { l with session := none }) s)
  | none => s

/-- Does a session, or the MAKER state, grant a permission: 0 TRACE, 1 CORE, 2 MEMORY, 3 SCAN (R448, R455)? -/
def debugGrants (s : State) (bit : Nat) : Bool :=
  s.lcs.life == 0 || (match s.lcs.session with
    | some d => bitOf d.perms bit
    | none => false)

/-! ### Zeroisation (R450) -/

/-- The settings regions of the flash are zeroed, over the bytes that the directory gives each (R450, R456). -/
def zeroRegions (s : State) : State :=
  let zeros (i : Nat) : Bytes := List.replicate (((directory s).map (fun d => (d.2.entries.getD i (0, 0)).2)).getD 0) 0
  emit (.flash 4 (zeros 4)) (emit (.flash 3 (zeros 3)) (modLcs (fun l => { l with regionA := some (zeros 3), regionB := some (zeros 4), regionUsed := none }) s))

/-- Zeroisation at BRINGUP (R450): the keys, settings, HBM and SRAM are zeroed and read back, the ZEROISE record is written
over the digest of that many zero bytes, and the fuse of the new state blows. The machine-check log and the trace stay. -/
def zeroise (s : State) : State :=
  let dest := s.lcs.returnTo
  let head := leBytes 16 Config.serial ++ leBytes 8 (now s) ++ sha384 (List.replicate Config.zeroisedBytes 0) ++ leBytes 4 (bound32 s) ++ List.replicate 84 0
  let rec_ := head ++ beBytes 96 (Config.signDevice (beNat (sha384 head)))
  let s1 := { s with
    cry := {}, dev := [], tbl := {}, prs := {}, hif := { s.hif with doe := [{}, {}], ide := [] }, rel := { s.rel with poison := [] } }
  lcsEvent 0x05 dest (closeDebug (modLcs (fun l => { l with life := dest, returnPending := false, zeroise := rec_, attest := none, sealKey := [] })
    (zeroRegions s1)))

end Sys2Proof.Machine
end

