-- ==== Sys2Proof/Machine/StoOps.lean ====
section
/-!
DEFINITION. Emulated controllers, connections and the sending of work on them as shared operations (storage_and_rdma).
-/
namespace Sys2Proof.Machine

/-! ### Controllers (R344 to R347, R353) -/

/-- Is a function an emulated controller (R118, R344)? -/
def isNvme (s : State) (f : Fn) : Bool := f != .fw && (pfSet s (fnPf f)).nvme && fnExists s f

/-- Controllers of a PF: itself and its TotalVFs. -/
def ctrlSpan (s : State) (i : Nat) : Nat := if pfEnabled s i && (pfSet s i).nvme then 1 + (pfSet s i).totalVfs else 0

/-- The controller number of a function: NVME PFs in ascending order, each followed by its VFs (assumption 60). -/
def ctrlNo (s : State) (f : Fn) : Nat :=
  ((List.range (fnPf f)).map (ctrlSpan s)).foldl (· + ·) 0 + (match f with
    | .vf _ n => n + 1
    | _ => 0)

/-- A controller. -/
def nvme (s : State) (f : Fn) : Nvme := mget {} s.sto.ctrls (fnCode f)

/-- s with a controller changed by g. -/
def modNvme (f : Fn) (g : Nvme → Nvme) (s : State) : State := modSto (fun t => { t with ctrls := mmod {} t.ctrls (fnCode f) g }) s

/-- A status field: status code, status code type and DNR (R353). -/
def nvSt (sct sc dnr : Nat) : Nat := sc + at_ 8 sct + at_ 14 dnr

/-- STO_CTRL_CFG.IOQ_PAIRS of a controller (R347). -/
def ioqPairs (s : State) (f : Fn) : Nat := min 1024 (fld (reg s .STO_CTRL_CFG 0 (ctrlNo s f)) 10 0)

/-- Page size of a controller, CC.MPS (R345). -/
def nvPage (x : Nvme) : Nat := 4096 <<< min 4 (bits x.cc 10 7)

/-- One completion goes to the ring of its CQ, with its phase, and the vector is sent (R350, R345). -/
def nvWriteCqe (f : Fn) (cq : Nat) (c : NCq) (dws : List Nat) (s : State) : State :=
  let d3 := dws.getD 3 0
  let bytes := leBytes 4 (dws.getD 0 0) ++ leBytes 4 0 ++ leBytes 4 (dws.getD 2 0) ++ leBytes 4 (d3 + at_ 16 (b2n c.phase))
  let s1 := hostWrite f none (c.base + 16 * c.tail) bytes false s
  let wrap := c.tail + 1 = c.size
  let s2 := modNvme f (fun x => { x with cqs := mput x.cqs cq { c with tail := if wrap then 0 else c.tail + 1, phase := if wrap then !c.phase else c.phase } }) s1
  if c.ien then sendVector f c.vector s2 else s2

/-- Completions that wait for room in a CQ are written while it has some. -/
def nvDrain (f : Fn) (cq : Nat) : List (List Nat) → State → State
  | [], s => modNvme f (fun x => { x with cqs := match mfind x.cqs cq with
      | some c => mput x.cqs cq { c with waiting := [] }
      | none => x.cqs }) s
  | d :: t, s =>
    match mfind (nvme s f).cqs cq with
    | none => s
    | some c =>
      if (c.tail + 1) % max 1 c.size = c.head ∨ frozen s f then
        modNvme f (fun x => { x with cqs := mput x.cqs cq { c with waiting := d :: t } }) s
      else nvDrain f cq t (nvWriteCqe f cq c d s)

/-- A shutdown under way ends when no command remains (R346). -/
def nvShutCheck (f : Fn) (s : State) : State :=
  let x := nvme s f
  if x.shutAt.isSome ∧ x.cmds.isEmpty then modNvme f (fun x => { x with shst := 2, shutAt := none }) s else s

/-- An Error Information entry (R347): count, SQ, CID and status. -/
def nvError (sq cid st n : Nat) : Bytes := leBytes 8 n ++ leBytes 2 sq ++ leBytes 2 cid ++ leBytes 2 (2 * st) ++ List.replicate 50 0

/-- A command completes with a status field and Dword 0 (R350, R353): it leaves the tracker, and its completion is posted to its CQ. -/
def nvComplete (f : Fn) (no st dw0 : Nat) (s : State) : State :=
  let x := nvme s f
  match x.cmds.find? (fun c => c.no == no) with
  | none => s
  | some c =>
    let cid := entryField c.entry 2 2
    let s1 := modNvme f (fun x => { x with cmds := dropFirst (fun c => c.no == no) x.cmds }) (worked .sto s)
    if c.discard then nvShutCheck f s1
    else
      let s2 := if st = 0 then s1 else modNvme f (fun x => { x with
        errorCount := x.errorCount + 1, errors := (nvError c.sq cid st (x.errorCount + 1) :: x.errors).take 64 }) s1
      match mfind (nvme s2 f).sqs c.sq with
      | none => nvShutCheck f s2
      | some q =>
        let waiting := ((mfind (nvme s2 f).cqs q.cq).map NCq.waiting).getD []
        nvShutCheck f (nvDrain f q.cq (waiting ++ [[dw0, 0, q.head + at_ 16 c.sq, cid + at_ 17 st]]) s2)

/-- An asynchronous event: the oldest outstanding request completes with its Dword 0, or it waits for one (R348). -/
def nvAen (f : Fn) (dw0 : Nat) (s : State) : State :=
  let x := nvme s f
  match x.aers with
  | [] => modNvme f (fun x => { x with events := x.events ++ [dw0] }) s
  | a :: t => if !migRuns s f then modNvme f (fun x => { x with events := x.events ++ [dw0] }) s else nvComplete f a 0 dw0 (modNvme f (fun x => { x with aers := t }) s)

/-- The controller is reset: CC.EN is cleared (R346). -/
def nvDisable (f : Fn) (s : State) : State :=
  modNvme f (fun x =>
    let y := nvDiscard (fun _ => true) x
    { ({} : Nvme) with
      cc := x.cc / 2 * 2, aqa := x.aqa, asq := x.asq, acq := x.acq, cmds := y.cmds, errors := x.errors, errorCount := x.errorCount,
      readBytes := x.readBytes, wroteBytes := x.wroteBytes, readCmds := x.readCmds, writeCmds := x.writeCmds, changed := x.changed }) s

/-! ### Namespaces (R348, R349) -/

/-- A namespace map entry. -/
def nsEntry (s : State) (i : Nat) : Bytes := mget (List.replicate 32 0) s.sto.ns i
def nsValid (e : Bytes) : Bool := bitOf (byteAt e 6) 0
def nsCtrl (e : Bytes) : Nat := leAt e 0 2 % 4096
def nsId (e : Bytes) : Nat := leAt e 2 4
/-- The connection context and remote NSID of a path. -/
def nsCtx (e : Bytes) (k : Nat) : Nat := leAt e (if k = 0 then 16 else 22) 2
def nsRemote (e : Bytes) (k : Nat) : Nat := leAt e (if k = 0 then 18 else 24) 4
def nsActive (e : Bytes) : Nat := byteAt e 28

/-- The VALID entry of a namespace of a controller: its index and bytes. -/
def nsFind (s : State) (f : Fn) (nsid : Nat) : Option (Nat × Bytes) :=
  s.sto.ns.find? (fun e => nsValid e.2 && nsCtrl e.2 == ctrlNo s f && nsId e.2 == nsid)

/-- The map entry that a command runs under: its namespace's, or what that was as the command was fetched where it has been cleared since (R348). -/
def nsOf (s : State) (f : Fn) (c : NCmd) : Option Bytes :=
  match nsFind s f (entryField c.entry 4 4) with
  | some (_, e) => some e
  | none => if c.ns.isEmpty then none else some c.ns

/-- The function of a controller number (assumption 60). -/
def ctrlByNo (s : State) (n : Nat) : Option Fn :=
  firstSome (fun i =>
    let base := ((List.range i).map (ctrlSpan s)).foldl (· + ·) 0
    if n < base ∨ base + ctrlSpan s i ≤ n then none else some (if n = base then .pf i else .vf i (n - base - 1))) (List.range 4)

/-! ### Connections (R357 to R363) -/

/-- s with a context changed by g. -/
def modConn (c : Nat) (g : Conn → Conn) (s : State) : State := modSto (fun t => { t with conns := mmod {} t.conns c g }) s

/-- SEQ_TX grows: bytes for TCP, packets for RoCEv2 (R357). -/
def seqTx (c n : Nat) (s : State) : State :=
  modConn c (fun x => { x with data := overwrite x.data 48 (leBytes 4
    (if cxType x = 1 then (leAt x.data 48 4 + n) % 2 ^ 32 else (leAt x.data 48 4 + n) % 2 ^ 24)) }) s

/-- SEQ_RX grows likewise. -/
def seqRx (c n : Nat) (s : State) : State :=
  modConn c (fun x => { x with data := overwrite x.data 52 (leBytes 4
    (if cxType x = 1 then (leAt x.data 52 4 + n) % 2 ^ 32 else (leAt x.data 52 4 + n) % 2 ^ 24)) }) s

/-- Length of an NVMe/TCP PDU on the wire: its header, digests and data (R359). -/
def pduLen (x : Conn) (header data : Nat) : Nat :=
  header + (if cxFlag x 0 then 4 else 0) + (if data = 0 then 0 else data + (if cxFlag x 1 then 4 else 0))

/-- Packets of a RoCEv2 message (R361). -/
def packets (x : Conn) (n : Nat) : Nat := max 1 (ceilDiv n (max 1 (cxPmtu x)))

/-- Commands and operations in flight on a context (R357, R368). -/
def cxInFlight (s : State) (c : Nat) : Nat :=
  (s.sto.ctrls.map (fun (e : Nat × Nvme) => (e.2.cmds.filter (fun n => n.ctx == c && n.st == .sent)).length)).foldl (· + ·) 0
    + (s.sto.ops.filter (fun o => o.ctx == c && o.sent)).length

/-- A work item of a context: an NVMe command of a controller, or a STORAGE-class operation. -/
inductive CxItem where
  | cmd (fn : Nat) (no : Nat)
  | op (no : Nat)
deriving DecidableEq, Repr

/-- The place of an item in what waits to be sent: what has been sent before in the order of its first sending, and then what has not, in the order
of arrival (R350, R363). -/
def sendRank (sentNo no : Nat) : Nat := if sentNo = 0 then 2 ^ 64 + no else sentNo

/-- The next item that waits to be sent on a context (R350, R363): posted receive buffers are not sent, nor is parked work (R192). -/
def cxNext (s : State) (c : Nat) : Option (CxItem × Nat) :=
  let runs (code : Nat) : Bool := (mget ({} : FnSt) s.hif.fns code).mig.st == MigSt.running
  let cs := (s.sto.ctrls.map (fun (e : Nat × Nvme) =>
    (e.2.cmds.filter (fun n => n.ctx == c && (n.st == .ready && runs e.1 || n.st == .held) && n.trk.isSome)).map
      (fun n => (CxItem.cmd e.1 n.no, sendRank n.sentNo n.no)))).flatten
  let os := (s.sto.ops.filter (fun o => o.ctx == c && !o.sent && o.op != 5)).map (fun o => (CxItem.op o.no, sendRank o.sentNo o.no))
  (cs ++ os).foldl (fun best a => match best with
    | some b => if a.2 < b.2 then some a else some b
    | none => some a) none

/-- The function of a controller code. -/
def ctrlFn (c : Nat) : Fn := if 0x4000 ≤ c then .vf ((c - 0x4000) / 4096) (c % 4096) else .pf (c / 4096)

/-- The command as it goes to the remote controller: the wire identifier, and the remote NSID of its path (R348, R350). -/
def wireEntry (s : State) (f : Fn) (c : NCmd) (wire : Nat) : Bytes :=
  let bs := overwrite (entryBytes c.entry) 2 (leBytes 2 wire)
  match nsOf s f c with
  | some e => overwrite bs 4 (leBytes 4 (nsRemote e (if nsCtx e 0 = c.ctx then 0 else 1)))
  | none => bs

/-- Is a wire identifier that of an outstanding command or operation of a context (R350)? -/
def wireTaken (s : State) (c w : Nat) : Bool :=
  s.sto.ctrls.any (fun (e : Nat × Nvme) => e.2.cmds.any (fun n => n.ctx == c && n.st == .sent && n.wireId == w))
    || s.sto.ops.any (fun o => o.ctx == c && o.sent && o.wireId == w)

/-- The first wire identifier from w on that is unique among those outstanding on a context (R350). -/
def freshWire (s : State) (c : Nat) : Nat → Nat → Nat
  | 0, w => w
  | k + 1, w => if wireTaken s c w then freshWire s c k ((w + 1) % 65536) else w

/-- One item is sent (R350, R365): a new wire identifier, its capsule or request, and the time of sending. What has been sent before counts in
RESENT. -/
def cxSend (c : Nat) (i : CxItem) (s : State) : State :=
  let x := connOf s c
  let w := freshWire s c 4096 x.nextWire
  let k := s.sto.sends
  let s1 := modSto (fun t => { t with sends := k + 1 }) (modConn c (fun x => { x with nextWire := (w + 1) % 65536 }) s)
  let again (sentNo : Nat) (s : State) : State := if sentNo = 0 then s else bump .STO_STAT 4 0 1 s
  match i with
  | .cmd code no =>
    let f := ctrlFn code
    match (nvme s f).cmds.find? (fun n => n.no == no) with
    | none => s1
    | some n =>
      let d := n.ranges ++ n.capsule
      let s2 := modNvme f (fun y => { y with cmds := updFirst (fun n => n.no == no) (fun n =>
        { n with st := .sent, wireId := w, sentAt := s.elapsed, resend := false, sentNo := if n.sentNo = 0 then k else n.sentNo }) y.cmds }) (again n.sentNo s1)
      emit (.remote c 0x04 (wireEntry s f n w ++ d)) (seqTx c (if cxType x = 1 then pduLen x 72 d.length else packets x (64 + d.length)) s2)
  | .op no =>
    match s.sto.ops.find? (fun o => o.no == no) with
    | none => s1
    | some o =>
      let s2 := modSto (fun t => { t with ops := updFirst (fun o => o.no == no) (fun o =>
        { o with sent := true, sentAt := s.elapsed, wireId := w, resend := false, sentNo := if o.sentNo = 0 then k else o.sentNo }) t.ops }) (again o.sentNo s1)
      let d := match workOf s o.fn o.sq o.ctr with
        | some k => ((readsOf k).map Prod.fst).getD []
        | none => []
      let n := if o.op = 1 then (if cxType x = 1 then pduLen x 72 0 else 1) else packets x o.len
      emit (.remote c o.op d) (seqTx c n s2)

/-- Does a transport unit that is leaving serve a context, so that nothing is sent on it before the hand-off is done (R355)? -/
def cxLeaving (s : State) (c : Nat) : Bool := s.rel.handoffs.any (fun h => h.kind == 5 && Config.transportServes h.leaves c)

/-- Items that wait are sent in order while the context is ESTABLISHED, a unit serves it and it has fewer than MAX_OUT in flight (R350, R355, R357). -/
def cxPump (c : Nat) : Nat → State → State
  | 0, s => s
  | k + 1, s =>
    let x := connOf s c
    if x.st = .established ∧ !cxLeaving s c ∧ cxInFlight s c < max 1 (leAt x.data 64 2) then
      match cxNext s c with
      | some i => cxPump c k (cxSend c i.1 s)
      | none => s
    else s

/-- As many rounds as items can wait. -/
def cxSendAll (c : Nat) (s : State) : State := cxPump c 4096 s

/-- A STORAGE-class operation ends (R366): its entry finishes. -/
def opDone (no status extra : Nat) (s : State) : State :=
  match s.sto.ops.find? (fun o => o.no == no) with
  | none => s
  | some o => finishWork o.fn o.sq o.ctr status extra (modSto (fun t => { t with ops := dropFirst (fun o => o.no == no) t.ops }) (worked .sto s))

/-- All held and waiting work of a context completes: 0h, 22h for NVMe commands, CONNECTION_LOST for operations (R363). -/
def cxLose (c : Nat) (s : State) : State :=
  let s1 := foldS (fun (e : Nat × Nvme) s =>
    foldS (fun (n : NCmd) s => if n.ctx = c then nvComplete (ctrlFn e.1) n.no (nvSt 0 0x22 0) 0 s else s) e.2.cmds s) s.sto.ctrls s
  foldS (fun (o : StoOp) s => if o.ctx = c then opDone o.no 0x21 0 s else s) s.sto.ops s1

/-- Failover of the namespaces whose ACTIVE path has left ESTABLISHED: their held commands move to the other path (R349, R363). -/
def failover (c : Nat) (s : State) : State :=
  foldS (fun (e : Nat × Bytes) s =>
    let b := e.2
    let k := nsActive b
    let o := nsCtx b (1 - k)
    if nsValid b ∧ bitOf (byteAt b 6) 2 ∧ nsCtx b k = c ∧ o ≠ 0xFFFF ∧ (connOf s o).st = .established then
      let s1 := modSto (fun t => { t with ns := mput t.ns e.1 (overwrite b 28 (leBytes 1 (1 - k))) }) s
      let s2 := modSto (fun t => { t with ctrls := t.ctrls.map (fun (x : Nat × Nvme) =>
        if ctrlNo s (ctrlFn x.1) = nsCtrl b then
          (x.1, { x.2 with cmds := x.2.cmds.map (fun n =>
            if n.ctx = c ∧ (n.st = .held ∨ n.st = .ready) ∧ entryField n.entry 4 4 = nsId b then { n with ctx := o } else n) })
        else x) }) s1
      cxSendAll o s2
    else s) s.sto.ns s

/-- A connection fails (R358, R360, R363): RECOVERING, CONN_DOWN, and what it has sent is held. -/
def connFail (c : Nat) (s : State) : State :=
  if (connOf s c).st ≠ .established then s
  else
    let s1 := modConn c (fun x => { x with st := .recovering, downAt := s.elapsed, retries := 0 }) s
    let s2 := modSto (fun t => { t with ctrls := t.ctrls.map (fun (e : Nat × Nvme) => (e.1, { e.2 with cmds := e.2.cmds.map (fun n =>
      if n.ctx = c ∧ n.st = .sent then { n with st := .held } else n) })) }) s1
    failover c (raise 0xA 0x01 c .device s2)

/-- RETRY_LIMIT of a context (R357). -/
def retryLimit (x : Conn) : Nat := max 1 (byteAt x.data 70)

/-! ### Host buffers (R347, R351, R353) -/

/-- The part of a segment list from offset off, n bytes. -/
def bufPart : List (Nat × Nat) → Nat → Nat → List (Nat × Nat)
  | [], _, _ => []
  | (a, l) :: t, off, n =>
    if n = 0 then []
    else if l ≤ off then bufPart t (off - l) n
    else let k := min n (l - off); (a + off, k) :: bufPart t 0 (n - k)

/-- Data written to a host buffer from offset off on (R351). -/
def bufWrite (f : Fn) (buf : List (Nat × Nat)) (off : Nat) (data : Bytes) (s : State) : State :=
  ((bufPart buf off data.length).foldl (fun (acc : Bytes × State) p =>
    (acc.1.drop p.2, payloadWrite f none p.1 (acc.1.take p.2) acc.2)) (data, s)).2

/-- The segments of PRP1, PRP2 and a PRP list for n bytes; none where an entry is malformed (R347, R353). -/
def prpSegs (page prp1 prp2 n : Nat) (list : Bytes) : Option (List (Nat × Nat)) :=
  let first := min n (page - prp1 % page)
  let rest := n - first
  if prp1 % 4 ≠ 0 then none
  else if rest = 0 then some [(prp1, first)]
  else if rest ≤ page then (if prp2 % page = 0 then some [(prp1, first), (prp2, rest)] else none)
  else
    let k := ceilDiv rest page
    let es := (List.range k).map (fun i => leAt list (8 * i) 8)
    if prp2 % 8 ≠ 0 ∨ list.length < 8 * k ∨ es.any (fun a => a % page != 0) then none
    else some ((prp1, first) :: (List.range k).map (fun i => (es.getD i 0, if i + 1 = k then rest - page * (k - 1) else page)))

/-- The segments of an SGL for n bytes: one Data Block, or the Data Blocks of its segments in order (R347, R353). -/
def sglSegs (d : Bytes) (n : Nat) (list : Bytes) : Option (List (Nat × Nat)) :=
  let blocks (bs : Bytes) : List (Nat × Nat × Nat) :=
    (List.range (bs.length / 16)).map (fun i => (leAt bs (16 * i) 8, leAt bs (16 * i + 8) 4, byteAt bs (16 * i + 15)))
  let use := if byteAt d 15 / 16 = 0 then blocks d else blocks list
  if byteAt d 15 / 16 = 1 ∨ 3 < byteAt d 15 / 16 ∨ use.any (fun b => b.2.2 / 16 != 0) ∨ (use.map (fun b => b.2.1)).foldl (· + ·) 0 < n then none
  else some (bufPart (use.map (fun b => (b.1, b.2.1))) 0 n)

end Sys2Proof.Machine
end

