-- ==== Sys2Proof/Machine/Sto.lean ====
section
/-!
DEFINITION. STO (storage_and_rdma): the emulated NVMe controllers, namespaces, connections, NVMe/TCP and RoCEv2.
-/
namespace Sys2Proof.Machine

/-! ### Controller (R345, R346) -/

/-- Do the values of CC and the admin queue registers let a controller be enabled (R345, R346)? -/
def nvEnableOk (x : Nvme) (cc : Nat) : Bool :=
  bits cc 19 16 == 6 && bits cc 23 20 == 4 && decide (bits cc 10 7 ≤ 4) && bits cc 6 4 == 0 && decide (1 ≤ bits x.aqa 11 0 ∧ 1 ≤ bits x.aqa 27 16)
    && x.asq % (4096 <<< bits cc 10 7) == 0 && x.acq % (4096 <<< bits cc 10 7) == 0

/-- The fields of CC as written, EN apart: bits 3:1 and 31:24 are reserved (R6, R345). -/
def ccFields (v : Nat) : Nat := v &&& 0x00FFFFF0

/-- CC is written with EN set (R346): the admin queues of AQA, ASQ and ACQ, and RDY. It restarts the function's queues, so a function that a
clear of Bus Master Enable made silent issues requests again (R142). -/
def ccEnable (f : Fn) (cc : Nat) (s : State) : State :=
  let x := nvme s f
  if bitOf x.cc 0 ∨ !nvEnableOk x cc then s
  else
    let go := busMaster s f && quiesced s f && (fnSt s f).tdi.st != .error
    let speak (s : State) : State := if go then flushPba f (modFn f (fun r => { r with silent := false }) s) else s
    speak (modNvme f (fun x => { x with
    cc := ccFields cc + 1, rdy := true, shst := 0, shutAt := none,
    sqs := [(0, { base := x.asq, size := bits x.aqa 11 0 + 1, cq := 0 })],
    cqs := [(0, { base := x.acq, size := bits x.aqa 27 16 + 1, vector := 0, ien := true })], aers := [], events := [] }) s)

/-- CC_ENABLE (R346). -/
def execCcEnable (f : Fn) (cc : Nat) (s : State) : Outcome := if isNvme s f then .next (ccEnable f cc s) else .next s

/-- CC_DISABLE (R346). -/
def execCcDisable (f : Fn) (s : State) : Outcome := if isNvme s f ∧ bitOf (nvme s f).cc 0 then .next (nvDisable f s) else .next s

/-- SHUTDOWN (R346): CC.SHN stops fetching; with nothing sent it is complete at once. -/
def shutdown (f : Fn) (s : State) : State :=
  if !bitOf (nvme s f).cc 0 ∨ (nvme s f).shst ≠ 0 then s
  else nvShutCheck f (modNvme f (fun x => { x with
    shst := 1, shutAt := some s.elapsed, cmds := x.cmds.filter (fun c => c.st == .sent || c.st == .held), aers := [] }) s)

def execShutdown (f : Fn) (s : State) : Outcome := if isNvme s f then .next (shutdown f s) else .next s

/-- SHUTDOWN_TIMEOUT (R346): after 1 s SHST is set, and the outstanding commands are handled as for CC.EN cleared. -/
def execShutdownTimeout (f : Fn) (s : State) : Outcome :=
  match (nvme s f).shutAt with
  | some t => .next (modNvme f (fun x => { nvDiscard (fun _ => true) x with shst := 2, shutAt := none }) (advanceTo (t + 1000000000) s))
  | none => .next s

/-- A doorbell value beyond the queue, or of a queue that does not exist: an error event of NVMe 2.0. -/
def nvBadDoorbell (f : Fn) (info : Nat) (s : State) : State := nvAen f (at_ 16 1 + at_ 8 info) s

/-- A submission queue's tail doorbell is written (R344, R350). -/
def nvSqTail (f : Fn) (q v : Nat) (s : State) : State :=
  let x := nvme s f
  if !isNvme s f ∨ !x.rdy then s
  else match mfind x.sqs q with
  | none => nvBadDoorbell f 0 s
  | some u =>
    if v % 65536 < u.size then modNvme f (fun x => { x with sqs := mput x.sqs q { u with tail := v % 65536 } }) s
    else nvBadDoorbell f 1 s

/-- A completion queue's head doorbell is written (R344, R350): the room made takes the completions that wait. -/
def nvCqHead (f : Fn) (q v : Nat) (s : State) : State :=
  let x := nvme s f
  if !isNvme s f ∨ !x.rdy then s
  else match mfind x.cqs q with
  | none => nvBadDoorbell f 0 s
  | some u =>
    if v % 65536 < u.size then
      nvDrain f q u.waiting (modNvme f (fun x => { x with cqs := mput x.cqs q { u with head := v % 65536 } }) s)
    else nvBadDoorbell f 1 s

/-- May a controller fetch commands (R105, R140, R192, R346)? -/
def nvFetches (s : State) (f : Fn) : Bool :=
  let x := nvme s f
  isNvme s f && x.rdy && !x.quiesced && x.shst == 0 && modeFetches s && (fnSt s f).mig.st == .running && !(fnSt s f).silent && (fnSt s f).ready
    && busMaster s f && linkUp s f

/-- NVME_COMMAND_FETCH (R350): the command at the head of an SQ; a read that fails is made again (assumption 61). -/
def execNvmeCommandFetch (f : Fn) (q : Nat) (got : HostRead) (s : State) : Outcome :=
  match mfind (nvme s f).sqs q with
  | some u =>
    if nvFetches s f ∧ u.head ≠ u.tail then
      .next (withRead f (u.base + 64 * u.head) got (fun s => match got with
        | .data bs =>
          let e : BitVec 512 := BitVec.ofNat 512 (leNat (slice bs 0 64))
          let c : NCmd := { sq := q, entry := e, no := s.sto.arrivals, ns := ((nsFind s f (entryField e 4 4)).map Prod.snd).getD [] }
          modSto (fun t => { t with arrivals := t.arrivals + 1 }) (modNvme f (fun x => { x with
            sqs := mput x.sqs q { u with head := (u.head + 1) % u.size }, cmds := x.cmds ++ [c] }) s)
        | _ => s) s)
    else .next s
  | none => .next s

/-- The oldest command of an SQ that has not been carried out, when it has its tracker entry and its opcode is op (R350, R354); that of a VF
that is not RUNNING is parked (R192). -/
def nvNext (s : State) (f : Fn) (q op : Nat) : Option NCmd :=
  if !migRuns s f || blockWaits s 10 then none else match (nvme s f).cmds.find? (fun c => c.sq == q && c.st == .fetched) with
  | some c => if c.trk.isSome && entryField c.entry 0 1 == op then some c else none
  | none => none

/-- Command Dwords 10 to 15 (NVMe 2.0). -/
def cdw (c : NCmd) (n : Nat) : Nat := entryField c.entry (4 * n) 4

/-- Fields of PRP1, PRP2 and PSDT. -/
def prp1 (c : NCmd) : Nat := entryField c.entry 24 8
def prp2 (c : NCmd) : Nat := entryField c.entry 32 8
def psdt (c : NCmd) : Nat := bits (entryField c.entry 1 1) 7 6

/-- Opcodes of R347, admin and I/O. -/
def adminOps : List Nat := [0, 1, 2, 4, 5, 6, 8, 9, 0xA, 0xC]
def ioOps : List Nat := [0, 1, 2, 8, 9]

/-- An admin command at the head of the admin SQ is carried out by g; an opcode that R347 does not list completes with Invalid Command Opcode
under any row. -/
def admin (f : Fn) (op : Nat) (g : NCmd → State → State) (s : State) : State :=
  match nvNext s f 0 op with
  | some c => g c s
  | none =>
    match (nvme s f).cmds.find? (fun c => c.sq == 0 && c.st == .fetched) with
    | some c => if c.trk.isSome ∧ !adminOps.contains (entryField c.entry 0 1) then nvComplete f c.no (nvSt 0 1 0) 0 s else s
    | none => s

/-- Does one queue more take a pair of the device-wide pool, n being the queues of its kind and m of the other, with none left (R347)? -/
def poolFull (taken n m : Nat) : Bool := decide (m ≤ n ∧ 65536 ≤ taken)

/-- Queue pairs of the device-wide pool that are taken (R347). -/
def pairsTaken (s : State) : Nat :=
  (s.sto.ctrls.map (fun (e : Nat × Nvme) => if e.2.rdy then max e.2.sqs.length e.2.cqs.length else 0)).foldl (· + ·) 0

/-- CREATE_IO_CQ (R345, R347). -/
def execCreateIoCq (f : Fn) (s : State) : Outcome :=
  .next (admin f 5 (fun c s =>
    let x := nvme s f
    let q := cdw c 10 % 65536
    let size := cdw c 10 / 65536
    let st :=
      if psdt c ≠ 0 ∨ !bitOf (cdw c 11) 0 then nvSt 0 2 0
      else if q = 0 ∨ ioqPairs s f < q ∨ (mfind x.cqs q).isSome ∨ poolFull (pairsTaken s) x.cqs.length x.sqs.length then nvSt 1 1 0
      else if size = 0 ∨ 0xFFF < size then nvSt 1 2 0
      else if vectorsOf s f ≤ cdw c 11 / 65536 then nvSt 1 8 0
      else if prp1 c % nvPage x ≠ 0 then nvSt 0 0x13 0 else 0
    let nq : NCq := { base := prp1 c, size := size + 1, vector := cdw c 11 / 65536, ien := bitOf (cdw c 11) 1 }
    let s1 := if st = 0 then modNvme f (fun x => { x with cqs := mput x.cqs q nq }) s else s
    nvComplete f c.no st 0 s1) s)

/-- CREATE_IO_SQ (R345, R347). -/
def execCreateIoSq (f : Fn) (s : State) : Outcome :=
  .next (admin f 1 (fun c s =>
    let x := nvme s f
    let q := cdw c 10 % 65536
    let size := cdw c 10 / 65536
    let cq := cdw c 11 / 65536
    let st :=
      if psdt c ≠ 0 ∨ !bitOf (cdw c 11) 0 then nvSt 0 2 0
      else if q = 0 ∨ ioqPairs s f < q ∨ (mfind x.sqs q).isSome ∨ poolFull (pairsTaken s) x.sqs.length x.cqs.length then nvSt 1 1 0
      else if cq = 0 ∨ (mfind x.cqs cq).isNone then nvSt 1 0 0
      else if size = 0 ∨ 0xFFF < size then nvSt 1 2 0
      else if prp1 c % nvPage x ≠ 0 then nvSt 0 0x13 0 else 0
    let s1 := if st = 0 then modNvme f (fun x => { x with sqs := mput x.sqs q { base := prp1 c, size := size + 1, cq := cq } }) s else s
    nvComplete f c.no st 0 s1) s)

/-- Commands of a deleted SQ complete with Command Aborted due to SQ Deletion (R353); those sent have their data and responses discarded. -/
def nvSqGone (f : Fn) (q : Nat) (s : State) : State :=
  let cs := (nvme s f).cmds.filter (fun c => c.sq == q && !c.discard)
  let post (c : NCmd) (s : State) : State :=
    let s1 := nvComplete f c.no (nvSt 0 8 0) 0 s
    if c.st = .sent ∨ c.st = .held then modNvme f (fun x => { x with cmds := x.cmds ++ [{ c with discard := true }] }) s1 else s1
  foldS post cs s

/-- DELETE_IO_SQ (R347, R353). -/
def execDeleteIoSq (f : Fn) (s : State) : Outcome :=
  .next (admin f 0 (fun c s =>
    let q := cdw c 10 % 65536
    if q = 0 ∨ (mfind (nvme s f).sqs q).isNone then nvComplete f c.no (nvSt 1 1 0) 0 s
    else nvComplete f c.no 0 0 (modNvme f (fun x => { x with sqs := mdel x.sqs q }) (nvSqGone f q s))) s)

/-- DELETE_IO_CQ (R347). -/
def execDeleteIoCq (f : Fn) (s : State) : Outcome :=
  .next (admin f 4 (fun c s =>
    let x := nvme s f
    let q := cdw c 10 % 65536
    let st := if q = 0 ∨ (mfind x.cqs q).isNone then nvSt 1 1 0 else if x.sqs.any (fun e => e.2.cq == q) then nvSt 1 0xC 0 else 0
    nvComplete f c.no st 0 (if st = 0 then modNvme f (fun x => { x with cqs := mdel x.cqs q }) s else s)) s)

/-- Does the data pointer of a command with n bytes need a list from host memory (R352)? -/
def nvNeedsList (s : State) (f : Fn) (c : NCmd) (n : Nat) : Bool :=
  match psdt c with
  | 0 => decide (nvPage (nvme s f) < n - min n (nvPage (nvme s f) - prp1 c % nvPage (nvme s f)))
  | _ => byteAt (leBytes 16 (entryField c.entry 24 16)) 15 / 16 != 0

/-- The read of a command's PRP or SGL list, where its data pointer needs one for n bytes, and what follows it (R131 to R135, R352). -/
def withList (f : Fn) (c : NCmd) (n : Nat) (list : HostRead) (k : State → State) (s : State) : State :=
  if nvNeedsList s f c n then withRead f (if psdt c = 0 then prp2 c else entryField c.entry 24 8) list k s else k s

/-- Data of an admin command goes to the host through PRP1 and PRP2 (R347); a PRP list that cannot be read is a Data Transfer Error (R353). -/
def adminData (f : Fn) (c : NCmd) (bs : Bytes) (list : HostRead) (s : State) : State :=
  if psdt c ≠ 0 then nvComplete f c.no (nvSt 0 2 1) 0 s
  else withList f c bs.length list (fun s =>
    let put (lb : Bytes) : State := match prpSegs (nvPage (nvme s f)) (prp1 c) (prp2 c) bs.length lb with
      | some segs => nvComplete f c.no 0 0 (bufWrite f segs 0 bs s)
      | none => nvComplete f c.no (nvSt 0 2 1) 0 s
    match list with
    | .data b => put b
    | _ => if nvNeedsList s f c bs.length then nvComplete f c.no (nvSt 0 4 0) 0 s else put []) s

/-- A structure of 4,096 bytes from its named fields: offset, length and value. -/
def page4k (fs : List (Nat × Nat × Nat)) : Bytes := fs.foldl (fun b e => overwrite b e.1 (leBytes e.2.1 e.2.2)) (List.replicate 4096 0)

/-- The Identify Controller data structure (R347). -/
def identifyCtrl (s : State) (f : Fn) : Bytes :=
  let p := page4k [(0, 2, 0xE2A5), (2, 2, 0xE2A5), (77, 1, 9), (78, 2, ctrlNo s f), (80, 4, 0x20000), (92, 4, 0x100), (111, 1, 1), (258, 1, 3), (259, 1, 3),
    (262, 1, 63), (512, 1, 0x66), (513, 1, 0x44), (516, 4, 256), (520, 2, 0x000C), (525, 1, 1), (536, 4, 1)]
  overwrite (overwrite p 4 (slice (Config.identify 0 (ctrlNo s f)) 0 68)) 768 (slice (Config.identify 1 (ctrlNo s f)) 0 256)

/-- The Identify Namespace data structure (R347, R348). -/
def identifyNs (e : Bytes) : Bytes :=
  let n := leAt e 8 8
  page4k [(0, 8, n), (8, 8, n), (16, 8, n), (99, 1, b2n (bitOf (byteAt e 6) 1)), (130, 1, byteAt e 7)]

/-- Active NSIDs of a controller above n, ascending (R348). -/
def activeNs (s : State) (f : Fn) (n : Nat) : List Nat :=
  (List.range 257).filter (fun i => decide (n < i) && (nsFind s f i).isSome)

/-- IDENTIFY (R347). -/
def execIdentify (f : Fn) (list : HostRead) (s : State) : Outcome :=
  .next (admin f 6 (fun c s =>
    let nsid := cdw c 1
    match cdw c 10 % 256 with
    | 0 =>
      if nsid = 0 ∨ 256 < nsid then nvComplete f c.no (nvSt 0 0xB 0) 0 s
      else adminData f c (match nsFind s f nsid with
        | some e => identifyNs e.2
        | none => List.replicate 4096 0) list s
    | 1 => adminData f c (identifyCtrl s f) list s
    | 2 =>
      if 0xFFFFFFFE ≤ nsid then nvComplete f c.no (nvSt 0 0xB 0) 0 s
      else adminData f c (slice ((activeNs s f nsid).map (leBytes 4)).flatten 0 4096) list s
    | 3 =>
      match nsFind s f nsid with
      | some e => adminData f c (slice (Config.identify 2 e.1) 0 4096) list s
      | none => nvComplete f c.no (nvSt 0 0xB 0) 0 s
    | _ => nvComplete f c.no (nvSt 0 2 0) 0 s) s)

/-- The hottest junction reading and its sensor (R85, R87). -/
def hottest (s : State) : Int × Nat :=
  (List.range 16).foldl (fun b i => if b.1 < s.cai.temps.getD i 0 then (s.cai.temps.getD i 0, i) else b) (s.cai.temps.getD 0 0, 0)

/-- The SMART/Health log (R347): the temperature in kelvin, data units of 512,000 bytes, host commands. -/
def smartLog (s : State) (x : Nvme) : Bytes :=
  let k := unsigned 16 ((hottest s).1 / 4 + 273)
  (page4k [(1, 2, k), (3, 1, 100), (32, 16, ceilDiv x.readBytes 512000), (48, 16, ceilDiv x.wroteBytes 512000), (64, 16, x.readCmds), (80, 16, x.writeCmds),
    (176, 16, x.errorCount)]).take 512

/-- GET_LOG_PAGE (R347): reading the Changed Namespace List clears it. -/
def execGetLogPage (f : Fn) (list : HostRead) (s : State) : Outcome :=
  .next (admin f 2 (fun c s =>
    let x := nvme s f
    let n := 4 * (cdw c 10 / 65536 + at_ 16 (cdw c 11 % 65536) + 1)
    let off := cdw c 12 + at_ 32 (cdw c 13)
    let page (bs : Bytes) (s : State) : State :=
      if bs.length < off ∨ 2097152 < n ∨ off % 4 ≠ 0 then nvComplete f c.no (nvSt 0 2 1) 0 s else adminData f c (slice (bs.drop off) 0 n) list s
    match cdw c 10 % 256 with
    | 1 => page (slice x.errors.flatten 0 4096) s
    | 2 => page (smartLog s x) s
    | 3 => page ((page4k [(0, 1, 1)]).take 512) s
    | 4 =>
      let ids := x.changed
      page (slice (if 1024 < ids.length then leBytes 4 0xFFFFFFFF else (ids.map (leBytes 4)).flatten) 0 4096) (modNvme f (fun x => { x with changed := [] }) s)
    | _ => nvComplete f c.no (nvSt 0 2 0) 0 s) s)

/-- NVME_ABORT (R352): a command that has not been sent is removed; one that has is aborted on its connection. -/
def execNvmeAbort (f : Fn) (s : State) : Outcome :=
  .next (admin f 8 (fun c s =>
    let sq := cdw c 10 % 65536
    let cid := cdw c 10 / 65536
    let aborts := (nvme s f).cmds.filter (fun n => n.sq == 0 && entryField n.entry 0 1 == 8 && n.st != .fetched)
    match (nvme s f).cmds.find? (fun n => n.sq == sq && entryField n.entry 2 2 == cid && n.no != c.no && !n.discard) with
    | none => nvComplete f c.no 0 1 s
    | some n =>
      if 4 ≤ aborts.length then nvComplete f c.no (nvSt 1 3 0) 0 s
      else if n.st = .sent ∨ n.st = .held then
        cxSendAll n.ctx (modNvme f (fun x => { x with cmds := updFirst (fun y => y.no == c.no) (fun y =>
          { y with st := .ready, ctx := n.ctx, entry := BitVec.ofNat 512 (leNat (overwrite (entryBytes y.entry) 40 (leBytes 2 0 ++ leBytes 2 n.wireId))) }) x.cmds }) s)
      else
        let s1 := modNvme f (fun x => { x with aers := x.aers.filter (· != n.no) }) s
        nvComplete f c.no 0 0 (nvComplete f n.no (nvSt 0 7 0) 0 s1)) s)

/-- The key of a feature's value: Interrupt Vector Configuration has one for each vector. -/
def featKey (fid iv : Nat) : Nat := if fid = 9 then 0x900 + iv else fid

/-- Features of R347. -/
def featIds : List Nat := [1, 2, 6, 7, 8, 9, 0xB]

/-- SET_FEATURES (R347). -/
def execSetFeatures (f : Fn) (s : State) : Outcome :=
  .next (admin f 9 (fun c s =>
    let fid := cdw c 10 % 256
    let v := cdw c 11
    let n := ioqPairs s f
    if !featIds.contains fid ∨ bitOf (cdw c 10) 31 ∨ (fid = 2 ∧ v % 32 ≠ 0) ∨ (fid = 9 ∧ vectorsOf s f ≤ v % 65536) then nvComplete f c.no (nvSt 0 2 0) 0 s
    else if fid = 7 then nvComplete f c.no 0 ((n - 1) + at_ 16 (n - 1)) s
    else nvComplete f c.no 0 0 (modNvme f (fun x => { x with features := mset 0 x.features (featKey fid (v % 65536)) v }) s)) s)

/-- The current value of a feature (R347, R367). -/
def featValue (s : State) (f : Fn) (fid iv : Nat) : Nat :=
  if fid = 7 then (ioqPairs s f - 1) + at_ 16 (ioqPairs s f - 1)
  else let v := mget 0 (nvme s f).features (featKey fid iv); if fid = 9 then v / 65536 * 65536 + iv else v

/-- GET_FEATURES (R347). -/
def execGetFeatures (f : Fn) (s : State) : Outcome :=
  .next (admin f 0xA (fun c s =>
    let fid := cdw c 10 % 256
    if !featIds.contains fid ∨ bits (cdw c 10) 10 8 ≠ 0 then nvComplete f c.no (nvSt 0 2 0) 0 s
    else nvComplete f c.no 0 (featValue s f fid (cdw c 11 % 65536)) s) s)

/-- ASYNCHRONOUS_EVENT_REQUEST (R347): at most 4 are outstanding; an event that waits completes it. -/
def execAsynchronousEventRequest (f : Fn) (s : State) : Outcome :=
  .next (admin f 0xC (fun c s =>
    let x := nvme s f
    if 4 ≤ x.aers.length then nvComplete f c.no (nvSt 1 5 0) 0 s
    else match x.events with
    | [] => modNvme f (fun x => { x with aers := x.aers ++ [c.no], cmds := updFirst (fun n => n.no == c.no) (fun n => { n with st := .ready, ctx := 0x10000 }) x.cmds }) s
    | e :: t => nvComplete f c.no 0 e (modNvme f (fun x => { x with events := t }) s)) s)

/-! ### I/O commands (R347 to R353) -/

/-- No transport unit is left, or the storage domain cannot start (R80, R442). -/
def stoGone (s : State) : Bool := (activeUnits s 5).isEmpty || unitDead s 0xA00

/-- The command goes to its ACTIVE path, or completes where that is lost (R349, R350, R363). -/
def nvDispatch (f : Fn) (c : NCmd) (e : Bytes) (s : State) : State :=
  let x := nsCtx e (nsActive e)
  if stoGone s then nvComplete f c.no (nvSt 7 0x3F 0) 0 s
  else if x = 0xFFFF ∨ (connOf s x).st = .failed ∨ (connOf s x).st = .disabled then nvComplete f c.no (nvSt 0 0x22 0) 0 s
  else cxSendAll x (modNvme f (fun y => { y with cmds := updFirst (fun n => n.no == c.no) (fun _ => { c with st := .ready, ctx := x }) y.cmds }) s)

/-- The segments of the host buffer of n bytes that a command's data pointer and its list name, none where they are wrong (R352). -/
def nvSegs (s : State) (f : Fn) (c : NCmd) (n : Nat) (lb : Bytes) : Option (List (Nat × Nat)) :=
  match psdt c with
  | 0 => prpSegs (nvPage (nvme s f)) (prp1 c) (prp2 c) n lb
  | 3 => none
  | _ => sglSegs (leBytes 16 (entryField c.entry 24 16)) n lb

/-- The checks of R353 on an I/O command in their order, with the status of the first that fails, else its segments. -/
def nvCheck (s : State) (f : Fn) (c : NCmd) (e : Bytes) (rw data wr : Bool) (list : HostRead) : Nat × List (Nat × Nat) :=
  let blocks := cdw c 12 % 65536 + 1
  let n := blocks * 2 ^ byteAt e 7
  let lb := match list with
    | .data b => some b
    | _ => none
  let segs := nvSegs s f c n (lb.getD [])
  let unread : Bool := data && nvNeedsList s f c n && lb.isNone
  if data && decide (2 ^ 21 < n) then (nvSt 0 2 1, [])
  else if data && !unread && segs.isNone then (nvSt 0 2 1, [])
  else if rw && decide (leAt e 8 8 < entryField c.entry 40 8 + blocks) then (nvSt 0 0x80 1, [])
  else if wr && bitOf (byteAt e 6) 1 then (nvSt 1 0x82 1, [])
  else if unread then (nvSt 0 4 0, [])
  else (0, if data then segs.getD [] else [])

/-- The read and write statistics of a controller (R348). -/
def nvCountIo (f : Fn) (op n : Nat) (s : State) : State :=
  modNvme f (fun x =>
    if op = 2 then { x with readCmds := x.readCmds + 1, readBytes := x.readBytes + n }
    else if op = 1 then { x with writeCmds := x.writeCmds + 1, wroteBytes := x.wroteBytes + n } else x) s

/-- The host address at an offset of a segmented buffer. -/
def segAddr (segs : List (Nat × Nat)) (off : Nat) : Nat := (((bufPart segs off 1).head?).map Prod.fst).getD 0

/-- Does a Write of n bytes carry its data in its capsule: its NVMe/TCP target has room, at most 8,192 bytes, and the path is not lost (R359)? -/
def inCapsule (s : State) (e : Bytes) (n : Nat) : Bool :=
  let c := nsCtx e (nsActive e)
  let x := connOf s c
  c != 0xFFFF && cxType x == 1 && (x.st == .established || x.st == .recovering) && decide (n ≤ min 8192 (Config.capsuleRoom c))

/-- A command that has passed its checks is dispatched; the data of a Write that goes in its capsule is read first (R351, R359). -/
def nvLaunch (f : Fn) (c : NCmd) (e : Bytes) (op n : Nat) (host : HostRead) (s : State) : State :=
  if op = 1 && inCapsule s e n && !stoGone s then
    withRead f (segAddr c.buf 0) host (fun s => match host with
      | .data bs => nvDispatch f { c with capsule := slice bs 0 n } e (nvCountIo f op n s)
      | _ => nvComplete f c.no (nvSt 0 4 0) 0 s) s
  else nvDispatch f c e (nvCountIo f op n s)

/-- An I/O command of an SQ: rw for one with a range of blocks in Dwords 10 to 12, data for one with a host buffer of that range, wr for
one that a READ_ONLY namespace refuses; host is the read of in-capsule data. -/
def nvIo (f : Fn) (q op : Nat) (rw data wr : Bool) (list host : HostRead) (s : State) : State :=
  match nvNext s f q op with
  | none =>
    match (nvme s f).cmds.find? (fun c => c.sq == q && c.st == .fetched) with
    | some c => if c.trk.isSome ∧ q ≠ 0 ∧ !ioOps.contains (entryField c.entry 0 1) then nvComplete f c.no (nvSt 0 1 0) 0 s else s
    | none => s
  | some c =>
    if q = 0 then s
    else match nsOf s f c with
    | none => nvComplete f c.no (nvSt 0 0xB 0) 0 s
    | some e =>
      let n := (cdw c 12 % 65536 + 1) * 2 ^ byteAt e 7
      let go (s : State) : State :=
        let k := nvCheck s f c e rw data wr list
        if k.1 ≠ 0 then nvComplete f c.no k.1 0 s else nvLaunch f { c with buf := k.2 } e op n host s
      if data ∧ n ≤ 2 ^ 21 then withList f c n list go s else go s

/-- NVME_READ (R351). -/
def execNvmeRead (f : Fn) (q : Nat) (list : HostRead) (s : State) : Outcome := .next (nvIo f q 2 true true false list (.data []) s)
/-- NVME_WRITE (R351, R359). -/
def execNvmeWrite (f : Fn) (q : Nat) (reads : WriteReads) (s : State) : Outcome := .next (nvIo f q 1 true true true reads.list reads.host s)
/-- WRITE_ZEROES (R347). -/
def execWriteZeroes (f : Fn) (q : Nat) (s : State) : Outcome := .next (nvIo f q 8 true false true (.data []) (.data []) s)
/-- NVME_FLUSH (R347). -/
def execNvmeFlush (f : Fn) (q : Nat) (s : State) : Outcome := .next (nvIo f q 0 false false false (.data []) (.data []) s)

/-- DATASET_MANAGEMENT (R347): Deallocate is forwarded with its ranges, and hints are ignored; a range that passes NSZE is refused (R353). -/
def execDatasetManagement (f : Fn) (q : Nat) (ranges : HostRead) (s : State) : Outcome :=
  match nvNext s f q 9 with
  | none => .next (nvIo f q 9 false false false ranges (.data []) s)
  | some c =>
    match nsOf s f c with
    | none => .next (nvComplete f c.no (nvSt 0 0xB 0) 0 s)
    | some e =>
      let n := cdw c 10 % 256 + 1
      if (prpSegs (nvPage (nvme s f)) (prp1 c) (prp2 c) (16 * n) []).isNone ∨ psdt c = 3 then .next (nvComplete f c.no (nvSt 0 2 1) 0 s)
      else .next (withRead f (if psdt c = 0 then prp1 c else entryField c.entry 24 8) ranges (fun s => match ranges with
        | .data bs =>
          let rs := slice bs 0 (16 * n)
          let bad := (List.range n).any (fun i => decide (leAt e 8 8 < leAt rs (16 * i + 8) 8 + leAt rs (16 * i + 4) 4))
          if bad then nvComplete f c.no (nvSt 0 0x80 1) 0 s
          else if !bitOf (cdw c 11) 2 then nvComplete f c.no 0 0 s
          else if bitOf (byteAt e 6) 1 then nvComplete f c.no (nvSt 1 0x82 1) 0 s
          else nvDispatch f { c with ranges := rs } e s
        | _ => nvComplete f c.no (if bitOf (cdw c 11) 2 && bitOf (byteAt e 6) 1 then nvSt 1 0x82 1 else nvSt 0 4 0) 0 s) s)

/-! ### Transport (R350 to R356, R359 to R364) -/

/-- A command or operation that a wire identifier of a context names, among those sent. -/
def wireCmd (s : State) (ctx w : Nat) : Option (Fn × NCmd) :=
  firstSome (fun (e : Nat × Nvme) => (e.2.cmds.find? (fun n => n.ctx == ctx && n.wireId == w && n.st == .sent)).map (fun n => (ctrlFn e.1, n))) s.sto.ctrls
def wireOp (s : State) (ctx w : Nat) : Option StoOp := s.sto.ops.find? (fun o => o.ctx == ctx && o.wireId == w && o.sent)

/-- s with a command changed by g. -/
def modCmd (f : Fn) (no : Nat) (g : NCmd → NCmd) (s : State) : State :=
  modNvme f (fun x => { x with cmds := updFirst (fun n => n.no == no) g x.cmds }) s

/-- s with an operation changed by g. -/
def modOp (no : Nat) (g : StoOp → StoOp) (s : State) : State := modSto (fun t => { t with ops := updFirst (fun o => o.no == no) g t.ops }) s

/-- What arrives on a context acknowledges what was sent (R360). -/
def heard (ctx : Nat) (s : State) : State := modConn ctx (fun x => { x with retries := 0 }) s

/-- A received PDU fails its header digest (R360): DIGEST_ERROR, an H2CTermReq, and the connection fails. -/
def headerFailure (ctx : Nat) (s : State) : State := raise 0xA 0x04 ctx .device (connFail ctx (emit (.remote ctx 0x02 []) s))

/-- C2H_DATA (R351, R359, R360): Read data from an NVMe/TCP target is written to the host buffer as it arrives. A header digest failure
is a connection failure; a data digest failure makes the command run again. -/
def execC2hData (ctx wire off : Nat) (data : Bytes) (headerOk dataOk : Bool) (s : State) : Outcome :=
  let x := connOf s ctx
  if x.st ≠ .established ∨ cxType x ≠ 1 then .next s
  else if !headerOk then .next (headerFailure ctx s)
  else
    let s1 := heard ctx (seqRx ctx (pduLen x 24 data.length) s)
    match wireCmd s ctx wire with
    | some (f, n) =>
      if !dataOk then .next (modCmd f n.no (fun n => { n with digestFails := n.digestFails + 1, resend := true }) (bump .STO_STAT 3 0 1 s1))
      else if n.discard then .next s1
      else .next (bufWrite f n.buf off data s1)
    | none =>
      match wireOp s ctx wire with
      | some o =>
        if dataOk then .next (payloadWrite o.fn (qPasid (queue s o.fn o.sq)) (o.buf + off) (data.take (o.len - off)) s1)
        else .next (modOp o.no (fun o => { o with digestFails := o.digestFails + 1, resend := true }) (bump .STO_STAT 3 0 1 s1))
      | none => .next (bump .STO_STAT 0 0 1 s1)

/-- Data goes to an NVMe/TCP target in H2CData PDUs of at most MAXH2CDATA (R357, R359). -/
def h2cData (ctx wire off : Nat) (data : Bytes) (s : State) : State :=
  let x := connOf s ctx
  let most := 4096 * max 1 (leAt x.data 66 2)
  foldS (fun k s =>
    let part := (data.drop (k * most)).take most
    emit (.remote ctx 0x06 (leBytes 2 wire ++ leBytes 4 (off + k * most) ++ part)) (seqTx ctx (pduLen x 24 part.length) s))
    (List.range (max 1 (ceilDiv data.length most))) s

/-- NVME_TCP_R2T (R351, R359): the target asks for Write data; it is read from the host and sent in H2CData. A host access that fails makes
the command complete with Data Transfer Error (R353). -/
def execNvmeTcpR2t (ctx wire off len : Nat) (host : HostRead) (s : State) : Outcome :=
  let x := connOf s ctx
  if x.st ≠ .established ∨ cxType x ≠ 1 then .next s
  else
    let send (bs : Bytes) (s : State) : State := h2cData ctx wire off (slice bs 0 len) s
    match wireCmd s ctx wire with
    | some (f, n) => .next (withRead f (segAddr n.buf off) host (fun s1 => match host with
      | .data bs => send bs (heard ctx (seqRx ctx (pduLen x 24 0) s1))
      | _ => modCmd f n.no (fun n => { n with dataError := true }) (heard ctx (seqRx ctx (pduLen x 24 0) s1))) s)
    | none => match wireOp s ctx wire with
      | some o => .next (withRead o.fn (o.buf + off) host (fun s1 => match host with
        | .data bs => send bs (heard ctx (seqRx ctx (pduLen x 24 0) s1))
        | e => opDone o.no (hostReadStatus e) 0 (heard ctx (seqRx ctx (pduLen x 24 0) s1))) s)
      | none => .next (heard ctx (seqRx ctx (pduLen x 24 0) s))

/-- A CNP answers an ECN-marked arrival, at most once per 50 µs (R361). -/
def cnpSend (ctx : Nat) (ecn : Bool) (s : State) : State :=
  let x := connOf s ctx
  let due : Bool := match x.cnpAt with
    | some t => decide (t + 50000 ≤ s.elapsed)
    | none => true
  if ecn ∧ cxFlag x 3 ∧ due then emit (.remote ctx 0x81 []) (modConn ctx (fun x => { x with cnpAt := some s.elapsed }) s) else s

/-- The end of a command whose response has arrived (R353, R360, R363). -/
def nvRespond (f : Fn) (n : NCmd) (status dw0 : Nat) (s : State) : State :=
  if n.discard then nvComplete f n.no 0 0 s
  else if n.dataError then nvComplete f n.no (nvSt 0 4 0) 0 s
  else if n.resend then
    if retryLimit (connOf s n.ctx) ≤ n.digestFails then nvComplete f n.no (nvSt 0 0x22 0) 0 s
    else modCmd f n.no (fun n => { n with st := .held }) s
  else nvComplete f n.no (status % 2 ^ 15) dw0 s

/-- The Cairn time at which the oldest item sent on a context was sent. -/
def oldestSent (s : State) (ctx : Nat) : Option Nat :=
  let cs := (s.sto.ctrls.map (fun (e : Nat × Nvme) => (e.2.cmds.filter (fun n => n.ctx == ctx && n.st == .sent)).map NCmd.sentAt)).flatten
  (cs ++ (s.sto.ops.filter (fun o => o.ctx == ctx && o.sent)).map StoOp.sentAt).foldl (fun b t => match b with
    | some u => some (min u t)
    | none => some t) none

/-- An Abort that waits to be sent for a command whose response has arrived completes with Dword 0 bit 0 set (R352). -/
def abortMissed (f : Fn) (n : NCmd) (s : State) : State :=
  match (nvme s f).cmds.find? (fun a => a.sq == 0 && entryField a.entry 0 1 == 8 && a.ctx == n.ctx && a.sentNo == 0 && a.st != .fetched
      && entryField a.entry 42 2 == n.wireId) with
  | some a => nvComplete f a.no 0 1 s
  | none => s

/-- What is unacknowledged on a context is sent again; retried RETRY_LIMIT times already, the connection fails (R359, R360). -/
def cxRetry (ctx : Nat) (s : State) : State :=
  let x := connOf s ctx
  if x.st ≠ .established ∨ (oldestSent s ctx).isNone then s
  else if retryLimit x ≤ x.retries then connFail ctx s
  else emit (.remote ctx 0x82 []) (modConn ctx (fun x => { x with retries := x.retries + 1 }) s)

/-- The end of an operation whose response or acknowledgement has arrived: status 0, an NVMe status or a NAK (R360, R366). -/
def opRespond (o : StoOp) (status dw0 : Nat) (data : Bytes) (s : State) : State :=
  let reply (st : Nat) : Nat := if o.op = 1 then at_ 8 (dw0 % 2 ^ 32) + at_ 40 (st % 2 ^ 16) else 0
  if o.resend then
    if retryLimit (connOf s o.ctx) ≤ o.digestFails then opDone o.no 0x20 (reply 0x22) s
    else modOp o.no (fun o => { o with sent := false }) s
  else
    let s1 := if o.op = 4 ∧ status = 0 then payloadWrite o.fn (qPasid (queue s o.fn o.sq)) o.buf (data.take o.len) s else s
    opDone o.no (if status = 0 then 0 else 0x20) (reply status) s1

/-- REMOTE_RESPONSE (R350, R352, R353, R355, R361, R364, R366): the response of a command, or the answer to an operation: status 0 or a
non-zero NVMe status or NAK; data is what an RDMA READ brought. On a RoCEv2 context status 0x1_0000 stands for a NAK of a sequence error or an RNR
NAK, which is retried (R360, R361). -/
def execRemoteResponse (ctx wire status dw0 : Nat) (data : Bytes) (icrcOk ecn : Bool) (s0 : State) : Outcome :=
  let x := connOf s0 ctx
  if cxType x ≠ 1 ∧ !icrcOk then .next (bump .STO_STAT 2 0 1 s0)
  else if cxType x ≠ 1 ∧ status = 0x10000 then .next (cxRetry ctx (cnpSend ctx ecn s0))
  else
    let s := cnpSend ctx ecn (if cxType x = 1 then seqRx ctx (pduLen x 24 0) s0 else s0)
    match wireCmd s ctx wire with
    | some (f, n) => .next (cxSendAll ctx (abortMissed f n (nvRespond f n status dw0 (heard ctx s))))
    | none =>
      match wireOp s ctx wire with
      | some o => .next (cxSendAll ctx (opRespond o status dw0 data (heard ctx s)))
      | none => .next (bump .STO_STAT 0 0 1 s)

/-- CMD_TIMEOUT (R356): the oldest command of a connection has waited CMD_TIMEOUT seconds, so the connection is judged failed. -/
def execCmdTimeout (ctx : Nat) (s : State) : Outcome :=
  match oldestSent s ctx with
  | some t => .next (connFail ctx (advanceTo (t + leAt (connOf s ctx).data 74 2 * 1000000000) s))
  | none => .next s

/-- CONNECTION_FAILURE (R358, R360): by a termination request, TCP RST or FIN, a malformed PDU, or a header digest, which also raises
DIGEST_ERROR. -/
def execConnectionFailure (ctx : Nat) (digest : Bool) (s : State) : Outcome :=
  if (connOf s ctx).st ≠ .established then .next s
  else .next (if digest then headerFailure ctx s else connFail ctx s)

/-- RETRY_TIMEOUT (R359, R360): what is unacknowledged is sent again, and after RETRY_LIMIT retries the connection fails. -/
def execRetryTimeout (ctx : Nat) (s : State) : Outcome := .next (cxRetry ctx s)

/-- LOSS_TMO (R358, R363): the context becomes FAILED and all of its held and waiting work completes. -/
def execLossTmo (ctx : Nat) (s : State) : Outcome :=
  let x := connOf s ctx
  if x.st ≠ .recovering then .next s
  else
    let s1 := advanceTo (x.downAt + leAt x.data 72 2 * 1000000000) s
    .next (cxLose ctx (raise 0xA 0x03 ctx .device (modConn ctx (fun x => { x with st := .failed }) s1)))

/-! ### Contexts and namespaces by register (R348, R357, R358, R368) -/

/-- The context a path has selected, and its data registers. -/
def cxSelected (s : State) (p : Path) : Nat := fld (reg s .STO_CTX_SELECT 0 (pathCode p)) 15 0
def cxData (s : State) (p : Path) : Bytes := ((List.range 32).map (fun i => leBytes 4 (reg s .STO_CTX_DATA i (pathCode p)).toNat)).flatten

/-- RESULT of a context action of a path (R368). -/
def cxResult (p : Path) (r : Nat) (s : State) : State := setReg .STO_CTX_STATUS 0 (pathCode p) (w32 (at_ 4 r)) s

/-- Is a context as written well formed (R357)? -/
def cxOk (d : Bytes) : Bool :=
  let ty := byteAt d 0
  ty == 0 || (decide (ty < 4) && byteAt d 2 / 64 == 0 && (if ty = 1 then byteAt d 3 == 0 else decide (3 ≤ byteAt d 3 ∧ byteAt d 3 ≤ 5))
    && bits (leAt d 4 2) 14 12 == 0 && decide (byteAt d 6 < 16) && decide (byteAt d 7 < 8) && leAt d 10 2 == 0
    && decide (1 ≤ leAt d 64 2 ∧ leAt d 64 2 ≤ 4096) && decide (1 ≤ byteAt d 70 ∧ byteAt d 70 ≤ 7) && byteAt d 71 == 0
    && decide (leAt d 72 2 ≤ 3600) && decide (1 ≤ leAt d 74 2 ∧ leAt d 74 2 ≤ 255) && (ty != 1 || decide (1 ≤ leAt d 66 2)) && leNat (slice d 94 34) == 0)

/-- Only firmware, and what reaches the device as it does, writes the STO registers (R368). -/
def stoWriter (p : Path) : Bool := p == .firmware || p == .mgmt || p == .debug

/-- CTX_WRITE (R357, R358). -/
def ctxWrite (p : Path) (s : State) : State :=
  let c := cxSelected s p
  let d := cxData s p
  if !stoWriter p then s
  else if (connOf s c).st ≠ .disabled then (cxResult p 1 s)
  else if !cxOk d then (cxResult p 2 s)
  else (cxResult p 0 (modConn c (fun _ =>
    { data := overwrite d 1 [0], st := if byteAt d 0 = 0 then .disabled else .established, rate := leAt d 76 4 }) s))

/-- CTX_READ (R357). -/
def ctxRead (p : Path) (s : State) : State :=
  let x := connOf s (cxSelected s p)
  let d := overwrite x.data 1 (leBytes 1 x.st.code)
  if !stoWriter p then s
  else (cxResult p 0 (foldS (fun i s => setReg .STO_CTX_DATA i (pathCode p) (w32 (leAt d (4 * i) 4)) s) (List.range 32) s))

/-- CTX_RESUME (R358, R363): the sequence numbers, QPN and ports come from the data; held NVMe commands are re-sent, and operations other than
NVMF_CMD that had been sent complete with CONNECTION_LOST. -/
def ctxResume (p : Path) (s : State) : State :=
  let c := cxSelected s p
  let d := cxData s p
  if !stoWriter p then s
  else if (connOf s c).st ≠ .recovering then (cxResult p 1 s)
  else
    let kept (x : Conn) := overwrite (overwrite (overwrite x.data 44 (slice d 44 4)) 48 (slice d 48 8)) 60 (slice d 60 4)
    let s1 := modConn c (fun x => { x with st := .established, retries := 0, data := kept x }) s
    let s2 := raise 0xA 0x02 c .device s1
    let s3 := foldS (fun (o : StoOp) s => if o.ctx = c ∧ o.sent ∧ o.op ≠ 1 then opDone o.no 0x21 0 s else s) s.sto.ops s2
    let s4 := modSto (fun t => { t with ops := t.ops.map (fun o => if o.ctx = c ∧ o.op = 1 then { o with sent := false } else o) }) s3
    (cxResult p 0 (cxSendAll c s4))

/-- CTX_DISABLE (R358, R363). -/
def ctxDisable (p : Path) (s : State) : State :=
  let c := cxSelected s p
  if !stoWriter p then s
  else (cxResult p 0 (cxLose c (failover c (modConn c (fun x => { x with st := .disabled }) s))))

/-- The map entry a path has selected, and its data registers. -/
def nsSelected (s : State) (p : Path) : Nat := fld (reg s .STO_NS_SELECT 0 (pathCode p)) 15 0
def nsData (s : State) (p : Path) : Bytes := ((List.range 8).map (fun i => leBytes 4 (reg s .STO_NS_DATA i (pathCode p)).toNat)).flatten

/-- A namespace attribute change is told to a controller, when that event is enabled (R348). -/
def nsChanged (ctrl nsid : Nat) (s : State) : State :=
  match ctrlByNo s ctrl with
  | none => s
  | some f =>
    let x := nvme s f
    let s1 := modNvme f (fun x => { x with changed := if x.changed.contains nsid then x.changed else (x.changed.filter (· < nsid)) ++ [nsid] ++ x.changed.filter (nsid < ·) }) s
    if x.rdy ∧ bitOf (mget 0 x.features 0xB) 8 ∧ x.changed.isEmpty then nvAen f (at_ 16 4 + 2) s1 else s1

/-- A map entry as written: reserved bits as zero, and ACTIVE at path 0 (R348, R349). -/
def nsRecord (d : Bytes) : Bytes :=
  [(1, byteAt d 1 % 16), (6, byteAt d 6 % 8), (28, 0), (29, 0), (30, 0), (31, 0)].foldl (fun r m => overwrite r m.1 (leBytes 1 m.2)) d

/-- NS_WRITE (R348, R349): BAD_CONFIG changes nothing; a write puts ACTIVE at path 0. -/
def nsWrite (p : Path) (s : State) : State :=
  let i := nsSelected s p
  let d := nsRecord (nsData s p)
  let result (r : Nat) (s : State) : State := setReg .STO_NS_STATUS 0 (pathCode p) (w32 r) s
  let old := nsEntry s i
  let same := s.sto.ns.any (fun e => e.1 != i && nsValid e.2 && nsCtrl e.2 == nsCtrl d && nsId e.2 == nsId d)
  let ctxOk (k : Nat) : Bool := nsCtx d k == 0xFFFF || cxType (connOf s (nsCtx d k)) != 0
  if !stoWriter p then s
  else if nsValid d && same || (byteAt d 7 != 9 && byteAt d 7 != 12) || !ctxOk 0 || !ctxOk 1 then (result 2 s)
  else
    let s1 := modSto (fun t => { t with ns := mset (List.replicate 32 0) t.ns i d }) s
    let s2 := if nsValid old ∧ !(nsValid d ∧ nsCtrl old = nsCtrl d ∧ nsId old = nsId d) then nsChanged (nsCtrl old) (nsId old) s1 else s1
    let s3 := if nsValid d ∧ !(nsValid old ∧ nsCtrl old = nsCtrl d ∧ nsId old = nsId d) then nsChanged (nsCtrl d) (nsId d) s2 else s2
    (result 0 s3)

/-- NS_READ (R348). -/
def nsRead (p : Path) (s : State) : State :=
  let d := nsEntry s (nsSelected s p)
  if !stoWriter p then s
  else (setReg .STO_NS_STATUS 0 (pathCode p) 0
    (foldS (fun i s => setReg .STO_NS_DATA i (pathCode p) (w32 (leAt d (4 * i) 4)) s) (List.range 8) s))

/-! ### RoCEv2 (R361, R362) -/

/-- The most that a context may send, Mb/s: its RATE, or the rate of its port where it has no ceiling (R357, R361). -/
def cxTop (s : State) (x : Conn) : Nat :=
  if leAt x.data 76 4 = 0 then (1600 >>> fld (reg s .MAC_PORT_CFG (byteAt x.data 6 / 8) 0) 1 0) * 1000 else leAt x.data 76 4

/-- CNP_RX (R361): the context's rate halves; with no ceiling it starts from the rate of its port. -/
def execCnpRx (ctx : Nat) (s : State) : Outcome :=
  let x := connOf s ctx
  if cxType x < 2 ∨ x.st = .disabled then .next s
  else
    .next (modConn ctx (fun y => { y with rate := max 1 ((if x.rate = 0 then cxTop s x else x.rate) / 2), rateAt := s.elapsed }) s)

/-- RATE_RECOVERY (R361): 100 µs after its last change the rate recovers by RATE / 16, up to RATE. -/
def execRateRecovery (ctx : Nat) (s : State) : Outcome :=
  let x := connOf s ctx
  if cxType x < 2 ∨ x.rate = 0 then .next s
  else
    let top := cxTop s x
    let r := min top (x.rate + max 1 (top / 16))
    if x.rate = top then .next s
    else
      let s1 := advanceTo (x.rateAt + 100000) s
      .next (modConn ctx (fun x => { x with rate := if r = top ∧ leAt x.data 76 4 = 0 then 0 else r, rateAt := s1.elapsed }) s1)

/-- What an rkey names, in flight on a context: the function, its PASID, and the segments of its buffer (R362). -/
def rkeyBuf (s : State) (ctx rkey : Nat) : Option (Fn × Option Nat × List (Nat × Nat)) :=
  let idx := bits rkey 17 0
  if mget 0 s.sto.gens idx ≠ bits rkey 31 18 then none
  else match firstSome (fun (e : Nat × Nvme) => (e.2.cmds.find? (fun n => n.ctx == ctx && n.trk == some idx && n.st == .sent && !n.discard)).map
      (fun n => (ctrlFn e.1, n.buf))) s.sto.ctrls with
  | some (f, b) => some (f, none, b)
  | none => (s.sto.ops.find? (fun o => o.ctx == ctx && o.trk == idx && o.sent && (o.op == 1 || o.op == 3 || o.op == 4))).map
      (fun o => (o.fn, qPasid (queue s o.fn o.sq), [(o.buf, o.len)]))

/-- REMOTE_ACCESS (R361, R362): an RDMA READ or WRITE of a peer to a key that is in flight; any other key, or a range outside the entry's
buffer, is answered with a remote access NAK. -/
def execRemoteAccess (ctx : Nat) (write : Bool) (rkey off len : Nat) (data : Bytes) (host : HostRead) (icrcOk ecn : Bool) (s0 : State) : Outcome :=
  let x := connOf s0 ctx
  if cxType x ≠ 2 ∨ x.st ≠ .established then .next s0
  else if !icrcOk then .next (bump .STO_STAT 2 0 1 s0)
  else
    let s := cnpSend ctx ecn s0
    match rkeyBuf s ctx rkey with
    | some (f, pasid, segs) =>
      if (segs.map Prod.snd).foldl (· + ·) 0 < off + len then .next (emit (.remote ctx 0x83 []) (bump .STO_STAT 1 0 1 s))
      else if write then
        .next (seqRx ctx (packets x len) (((bufPart segs off len).foldl (fun (acc : Bytes × State) p =>
          (acc.1.drop p.2, payloadWrite f pasid p.1 (acc.1.take p.2) acc.2)) (slice data 0 len, s)).2))
      else .next (withRead f (segAddr segs off) host (fun s => match host with
        | .data bs => emit (.remote ctx 0x84 (slice bs 0 len)) (seqRx ctx (packets x len) s)
        | _ =>
          let mark (n : NCmd) : NCmd := if n.ctx = ctx ∧ n.trk = some (bits rkey 17 0) then { n with dataError := true } else n
          let all (t : Sto) : NMap Nvme := t.ctrls.map (fun (e : Nat × Nvme) => (e.1, { e.2 with cmds := e.2.cmds.map mark }))
          let s1 := emit (.remote ctx 0x85 []) (modSto (fun t => { t with ctrls := all t }) s)
          match s.sto.ops.find? (fun o => o.ctx == ctx && o.trk == bits rkey 17 0 && o.sent && o.op != 2) with
          | some o => opDone o.no (hostReadStatus host) 0 s1
          | none => s1) s)
    | none => .next (emit (.remote ctx 0x83 []) (bump .STO_STAT 1 0 1 s))

/-- SEND_RECEIVED (R361, R365, R366): a SEND lands in the oldest posted buffer of its context; with none posted it is answered with an RNR NAK
on RC, and dropped on UD. -/
def execSendReceived (ctx : Nat) (data : Bytes) (imm : Option (BitVec 32)) (icrcOk ecn : Bool) (s0 : State) : Outcome :=
  let x := connOf s0 ctx
  if cxType x < 2 ∨ x.st ≠ .established then .next s0
  else if !icrcOk then .next (bump .STO_STAT 2 0 1 s0)
  else
    let s := cnpSend ctx ecn s0
    match (s.sto.ops.filter (fun o => o.ctx == ctx && o.op == 5)).foldl (fun (b : Option StoOp) o => match b with
      | some y => if o.no < y.no then some o else some y
      | none => some o) none with
    | none => if cxType x = 2 then .next (emit (.remote ctx 0x86 []) s) else .next s
    | some o =>
      if o.len < data.length then .next (emit (.remote ctx 0x85 []) (opDone o.no 0x02 0 s))
      else
        let extra := at_ 8 data.length + at_ 40 ((imm.map BitVec.toNat).getD 0) + at_ 72 (b2n imm.isSome)
        .next (opDone o.no 0 extra (seqRx ctx (packets x data.length)
          (payloadWrite o.fn (qPasid (queue s o.fn o.sq)) o.buf data s)))

/-! ### STORAGE-class operations (R365, R366) -/

/-- The next STORAGE-class entry of an SQ is dispatched (R354, R365, R366): a host read that failed gives its status; a FAILED or DISABLED
context CONNECTION_LOST; otherwise it is sent on its connection, or waits for it. -/
def stoDispatch (f : Fn) (q op : Nat) (s : State) : State :=
  match nextWork s f q 4 op with
  | none => s
  | some w =>
    match readsOf w with
    | none => s
    | some (_, st) =>
      let c := entryField w.entry 4 2
      let x := connOf s c
      let s1 := modWork f q w.ctr (fun w => { w with started := true }) s
      if st ≠ 0 then finishWork f q w.ctr st 0 s1
      else if stoGone s then finishWork f q w.ctr 0x3F 0 s1
      else if x.st = .failed ∨ x.st = .disabled then finishWork f q w.ctr 0x21 0 s1
      else
        let t := w.trk.getD 0
        let o : StoOp := { fn := f, sq := q, ctr := w.ctr, trk := t, ctx := c, op := op, no := w.arrived, buf := entryField w.entry 16 8,
                           len := entryField w.entry 24 4, gen := mget 0 s.sto.gens t }
        cxSendAll c (modSto (fun t => { t with ops := t.ops ++ [o] }) s1)

def execNvmfCmd (f : Fn) (q : Nat) (s : State) : Outcome := .next (stoDispatch f q 1 s)
def execRdmaSend (f : Fn) (q : Nat) (s : State) : Outcome := .next (stoDispatch f q 2 s)
def execRdmaWrite (f : Fn) (q : Nat) (s : State) : Outcome := .next (stoDispatch f q 3 s)
def execRdmaRead (f : Fn) (q : Nat) (s : State) : Outcome := .next (stoDispatch f q 4 s)
def execRecvBuffer (f : Fn) (q : Nat) (s : State) : Outcome := .next (stoDispatch f q 5 s)

end Sys2Proof.Machine
end

