-- ==== Sys2Proof/Machine/AkzOps.lean ====
section
/-!
DEFINITION. The Akzal link, routing and membership as shared operations (R412 to R422).
-/
namespace Sys2Proof.Machine

/-- An AKZ event (R428). -/
def akzEvent (code detail : Nat) (s : State) : State := raise 0xE code detail .device s

/-- An AKZ_STAT counter (R427): 0 UNREACHABLE_DROP, 1 TTL_DROP, 2 QUEUE_DROP, 3 REPLAYS, 4 REROUTED, 5 LOST_IN_FLIGHT. -/
def akzStat (k n : Nat) (s : State) : State := bump .AKZ_STAT k 0 n s

/-- The serial that members exchange: the low 64 bits (R451). -/
def serial64 : Nat := Config.serial % 2 ^ 64

/-- A cascade header (R414). -/
def akzHeader (type src dest kind ttl cls colour target ts bound vport : Nat) : Bytes :=
  [BitVec.ofNat 8 (type + 0x10), BitVec.ofNat 8 (src + at_ 3 dest + at_ 6 kind), BitVec.ofNat 8 ttl, BitVec.ofNat 8 (cls + at_ 3 colour)]
    ++ leBytes 4 target ++ leBytes 8 ts ++ leBytes 2 bound ++ leBytes 2 vport ++ leBytes 4 0

/-- Fields of a cascade header (R414). -/
def hdType (h : Bytes) : Nat := byteAt h 0 % 16
def hdSrc (h : Bytes) : Nat := byteAt h 1 % 8
def hdDest (h : Bytes) : Nat := byteAt h 1 / 8 % 8
def hdKind (h : Bytes) : Nat := byteAt h 1 / 64
def hdCls (h : Bytes) : Nat := byteAt h 3 % 8
def hdColour (h : Bytes) : Nat := byteAt h 3 / 8 % 4
def hdTarget (h : Bytes) : Nat := leAt h 4 3

/-- Cells of a carried frame (R414). -/
def akzCells (body : Bytes) : Nat := max 1 (ceilDiv body.length 256)

/-- Bytes of a link frame: header, carried frame and CRC-32 (R413). -/
def linkBytes (i : AkzItem) : Nat := i.header.length + i.body.length + 4

/-! ### Sending (R413, R414) -/

/-- May a new link frame of n bytes start: fewer than 2,048 are unacknowledged, and the replay buffer of 1 MiB has room (R413)? -/
def linkRoom (x : AkzPort) (n : Nat) : Bool :=
  decide (x.replay.length < 2048 ∧ (x.replay.map (fun f => linkBytes f.item)).foldl (· + ·) 0 + n ≤ 1048576)

/-- The bytes of a link frame: the header, the carried frame and the CRC-32 of both, as the 802.3 FCS is computed (R413). -/
def linkFrame (i : AkzItem) : Bytes := i.header ++ i.body ++ leBytes 4 (crc32 (i.header ++ i.body))

/-- A link frame starts: it takes the next LINK_SEQ and is held until it is acknowledged (R413). -/
def startLink (p : Nat) (i : AkzItem) (s : State) : State :=
  let seq := (akzPort s p).sendSeq
  let j := { i with header := overwrite i.header 20 (leBytes 2 seq) }
  emit (.akz p (hdType j.header) seq (linkFrame j))
    (modAkzPort p (fun x => { x with sendSeq := (seq + 1) % 4096, replay := x.replay ++ [{ seq := seq, item := j }] }) s)

/-- A control item of a type for a member (R414). -/
def controlItem (s : State) (type dest : Nat) (body : Bytes) : AkzItem :=
  { header := akzHeader type s.akz.member dest 0 7 0 0 0 0 0 0xFFFF, body := body }

/-- May a control frame start on a port: it is up, its replay buffer has room, and a device that could not join sends HELLO alone (R413, R415)? -/
def controlRoom (s : State) (p type : Nat) (i : AkzItem) : Bool :=
  (akzPort s p).up && linkRoom (akzPort s p) (linkBytes i) && !(s.akz.tooMany && type != 1)

/-- A control frame on a port: it needs no credit (R414). One that comes again every interval is not kept where it finds no room. -/
def sendControl (p type dest : Nat) (body : Bytes) (s : State) : State :=
  let i := controlItem s type dest body
  if controlRoom s p type i then startLink p i s else s

/-- The oldest LIFECYCLE frame that waits on a port starts, where one may. -/
def sendWaiting (p : Nat) (s : State) : State :=
  match (akzPort s p).ctl with
  | [] => s
  | i :: rest => if controlRoom s p 5 i then startLink p i (modAkzPort p (fun x => { x with ctl := rest }) s) else s

/-- A LIFECYCLE item on a port, at the end of those that wait or ahead of them. -/
def joinCtl (p : Nat) (front : Bool) (i : AkzItem) (s : State) : State :=
  modAkzPort p (fun x => { x with ctl := if front then i :: x.ctl else x.ctl ++ [i] }) s

/-- The next piece of an image for the neighbour (R426 step 1). -/
def sendPiece (p : Nat) (s : State) : State :=
  let x := akzPort s p
  let piece := (x.imgOut.drop x.imgOff).take 4096
  if piece.isEmpty then s
  else
    let body := leBytes 4 x.imgOff ++ leBytes 4 x.imgOut.length ++ sha384 x.imgOut ++ piece
    let i : AkzItem := { header := akzHeader 4 s.akz.member x.nbMember 0 7 0 0 0 0 0 0xFFFF, body := body }
    if x.up ∧ linkRoom x (linkBytes i) then
      startLink p i (modAkzPort p (fun x =>
        if x.imgOut.length ≤ x.imgOff + piece.length then { x with imgOut := [], imgOff := 0 } else { x with imgOff := x.imgOff + piece.length }) s)
    else s

/-- The highest class whose oldest item has credit for all of its cells (R414, R421). -/
def nextData (x : AkzPort) : Option (Nat × AkzItem) :=
  firstSome (fun c => match (x.queues.getD c []).head? with
    | some i => if akzCells i.body ≤ x.credit.getD c 0 then some (c, i) else none
    | none => none) [7, 6, 5, 4, 3, 2, 1, 0]

/-- One data frame starts, where one may (R414, R421). -/
def sendData (p : Nat) (s : State) : State :=
  let x := akzPort s p
  match nextData x with
  | some (c, i) =>
    if x.up ∧ linkRoom x (linkBytes i) then
      startLink p i (modAkzPort p (fun x => { x with
        queues := updAt c (·.drop 1) x.queues, credit := updAt c (· - akzCells i.body) x.credit }) s)
    else s
  | none => s

/-- Everything that may start on a port starts: control frames first, then image pieces, then data (R414). -/
def akzPump (p : Nat) (s : State) : State :=
  let n := ((akzPort s p).queues.map List.length).foldl (· + ·) 0
  let s1 := foldS (fun _ s => sendWaiting p s) (akzPort s p).ctl s
  foldS (fun _ s => sendData p s) (List.range n) (foldS (fun _ s => sendPiece p s) (List.range 256) s1)

/-! ### Routing (R420 to R422) -/

/-- Is a member reachable through a port (R416)? A device that could not join reaches none (R415). -/
def reaches (s : State) (p dest : Nat) : Bool := (akzPort s p).up && bitOf (akzPort s p).reach dest && !s.akz.tooMany

/-- The port for a destination: the preferred one where it reaches it, else the other (R420). -/
def route (s : State) (prefer dest : Nat) : Option Nat :=
  if reaches s prefer dest then some prefer else if reaches s (1 - prefer) dest then some (1 - prefer) else none

/-- The cells of an item that goes no further return, with its credit; a copy has finished (R22, R414). -/
def endItem (how : CopyEnd) (i : AkzItem) (s : State) : State :=
  match i.copy with
  | some id => copyDone id how (now s) (bound16 s) s
  | none => grantCredit i.back (returnCells i.ochre i.umber i.sienna s)

/-- An item joins a class queue, at its end or ahead of later traffic. -/
def joinQueue (p : Nat) (front : Bool) (i : AkzItem) (s : State) : State :=
  modAkzPort p (fun x => { x with queues := updAt (hdCls i.header) (fun q => if front then i :: q else q ++ [i]) x.queues }) s

/-- Cells that a class queue holds (R421). -/
def queueCells (s : State) (p cls : Nat) : Nat :=
  (((akzPort s p).queues.getD cls []).map (fun i => akzCells i.body)).foldl (· + ·) 0

/-- An item is routed and queued, or is dropped and counted in UNREACHABLE_DROP (R420). -/
def forwardItem (prefer : Nat) (i : AkzItem) (s : State) : State :=
  match route s prefer (hdDest i.header) with
  | some p => akzPump p (joinQueue p false i s)
  | none => endItem .lost i (akzStat 0 1 s)

/-! ### Membership (R415 to R418) -/

/-- The members that a device reaches: itself, and the REACH of its ports (R416). -/
def reachNow (s : State) : Nat :=
  if s.akz.joined then (2 ^ s.akz.member) ||| (akzPort s 0).reach ||| (akzPort s 1).reach else 0

/-- The set bits of an 8-bit mask. -/
def maskBits (m : Nat) : List Nat := (List.range 8).filter (bitOf m)

/-- Is every member reachable (R418)? A device that has joined no chain is a chain of its own (assumption 70). -/
def chainWhole (s : State) : Bool := s.akz.whole || !s.akz.joined

/-- A reply of firmware in a mailbox (R459). -/
def mbxReply (f : Fn) (op status : Nat) (more : Bytes) (s : State) : State := (f2hSend f (leBytes 1 (op + 0x80) ++ leBytes 1 status ++ more) s).2

/-- An ACTIVATE or ROLLBACK of the chain ends with a status (R459, R461, R467). -/
def chainDone (rollback : Bool) (status : Nat) (s : State) : State :=
  let s1 := modLcs (fun l => { l with chain := none, result := status, replyTo := none }) s
  match s.lcs.replyTo with
  | some f => mbxReply f (if rollback then 4 else 2) status [] s1
  | none => s1

/-- Image passing ends as WHOLE clears, and so does an activation of the chain that awaits another member's reply (R418, R426, R461). -/
def chainBroken (s : State) : State :=
  let s1 := modAkz (fun a => { a with
    passing := false, imgGot := [], imgLen := 0, imgHash := [], ports := a.ports.map (fun x => { x with imgOut := [], imgOff := 0 }) }) s
  let s2 := modLcs (fun l => { l with memberResults := [] }) s1
  match s.lcs.chain with
  | some c => if c.left.any (· != s.akz.member) then chainDone c.rollback 0x05 s2 else s2
  | none => s2

/-- Reach is judged again: MEMBER_LOST and MEMBER_JOINED, CHAIN_BROKEN and CHAIN_WHOLE (R416, R418). -/
def judgeChain (s : State) : State :=
  let old := s.akz.reachable
  let new := reachNow s
  let s1 := modAkz (fun a => { a with reachable := new }) s
  let s2 := foldS (fun m s => akzEvent 0x04 m s) ((maskBits old).filter (fun m => !bitOf new m)) s1
  let s3 := foldS (fun m s => akzEvent 0x03 m s) ((maskBits new).filter (fun m => !bitOf old m && m != s.akz.member)) s2
  let gone := (maskBits s.akz.members).filter (fun m => !bitOf new m)
  let back := (maskBits new).filter (fun m => !bitOf old m)
  let whole := s.akz.joined && gone.isEmpty
  let s4 := modAkz (fun a => { a with whole := whole }) s3
  if s.akz.whole ∧ !whole then akzEvent 0x06 (gone.headD 0) (chainBroken s4)
  else if !s.akz.whole ∧ whole ∧ old ≠ 0 then akzEvent 0x07 (back.headD s.akz.member) s4
  else s4

/-- The device joins as a member, or with number 8 or more does not (R415). -/
def joinAs (n : Nat) (s : State) : State :=
  if 8 ≤ n then
    (if s.akz.tooMany then s else akzEvent 0x09 n (modAkz (fun a => { a with tooMany := true }) s))
  else modAkz (fun a => { a with
    joined := true, member := n, members := a.members ||| 2 ^ n, tooMany := false, serials := mput a.serials n serial64 }) s

/-- Is this device the head of the chain (R415)? low: the lowest serial that a neighbour knows of, which is this device's own only in a
ring. -/
def isHead (s : State) (low : Option Nat) : Bool :=
  let own := if wbit (reg s .AKZ_CFG 0 0) 2 then [serial64] else []
  let heads := own ++ (s.akz.ports.filterMap AkzPort.headSerial)
  match heads with
  | [] => !(akzPort s 0).up || low == some serial64
  | h :: t => t.foldl min h == serial64

/-- The number of a device that is not the head: its UP neighbour's plus 1, or the lowest free where another serial holds that (R415). -/
def nextNumber (s : State) : Nat :=
  let n := (akzPort s 0).nbMember + 1
  match mfind s.akz.serials n with
  | some x => if x = serial64 ∨ !bitOf s.akz.members n then n else ((List.range 9).find? (fun k => !bitOf s.akz.members k)).getD 8
  | none => n

/-- A device that has not joined does so where it can tell its number (R415). -/
def tryJoin (low : Option Nat) (s : State) : State :=
  if s.akz.joined then s
  else if isHead s low then joinAs 0 s
  else if (akzPort s 0).up ∧ (akzPort s 0).nbJoined then joinAs (nextNumber s) s
  else s

/-! ### A port goes down (R412, R416, R422) -/

/-- A port goes down: what its replay buffer holds goes out by the other port where that reaches the destination, ahead of later traffic, and
is lost otherwise; what has not been sent is routed again; its REACH clears (R412, R416, R420, R422). -/
def akzPortDown (p : Nat) (s : State) : State :=
  let x := akzPort s p
  if !x.up then akzBegin p s
  else
    let s1 := akzBegin p (modAkzPort p (fun y => { ({} : AkzPort) with timeSeq := y.timeSeq, timeSent := y.timeSent, helloAt := y.helloAt }) s)
    let held := x.replay.map LinkFrame.item
    let ok (i : AkzItem) : Bool := (hdType i.header == 0 || hdType i.header == 5) && reaches s1 (1 - p) (hdDest i.header)
    let moved := held.filter ok
    let lost := held.filter (fun i => !ok i)
    let again (i : AkzItem) (s : State) : State := if hdType i.header = 5 then joinCtl (1 - p) true i s else joinQueue (1 - p) true i s
    let s2 := foldS again moved.reverse s1
    let s3 := akzStat 5 lost.length (akzStat 4 moved.length (foldS (fun i s => endItem .lost i s) lost s2))
    let s4 := foldS (fun i s => forwardItem (1 - p) i s) x.queues.flatten (foldS (joinCtl (1 - p) false) (x.ctl.filter ok) s3)
    judgeChain (akzEvent 0x02 p (akzPump (1 - p) s4))

/-! ### Images along the chain (R426) -/

/-- Does an image go on down from this device: it has a DOWN neighbour, which is not member 0 (R426)? -/
def passesOn (s : State) : Bool := (akzPort s 1).up && (akzPort s 1).nbJoined && (akzPort s 1).nbMember != 0

/-- A verified image is passed to the DOWN neighbour, while the chain is WHOLE (R426). -/
def passDown (bs : Bytes) (s : State) : State :=
  if s.akz.whole ∧ passesOn s then akzPump 1 (modAkzPort 1 (fun x => { x with imgOut := bs, imgOff := 0 }) s) else s

/-- Is this device the master of its chain, or in no chain (R417)? -/
def isMaster (s : State) : Bool := !s.akz.joined || s.akz.master == some s.akz.member

/-- A member's result for the staged image reaches the master, which raises IMAGE_DONE once every member has reported (R426). -/
def takeResult (member status : Nat) (s : State) : State :=
  let s1 := modLcs (fun l => { l with memberResults := mput l.memberResults member status }) s
  if s.akz.passing ∧ (maskBits s.akz.members).all (fun m => m == s.akz.member || (mfind s1.lcs.memberResults m).isSome) then
    akzEvent 0x08 member (modAkz (fun a => { a with passing := false }) s1)
  else s1

/-- A bundle is staged: where the owner's key signed its blocks, LCS seals them into the region of the inactive bank (R465). -/
def stageBundle (xs : List SettingsBlock) (key sig : Bytes) (s : State) : Nat × State :=
  let body := (xs.map blockBytes).flatten ++ leBytes 8 0
  if s.lcs.owners.getLast? ≠ some (sha384 key) ∨ !sigOk key (sha384 body) sig then (0x10, s)
  else if regionSize s (4 - s.lcs.active) < body.length + 48 then (0x02, s)
  else
    let b := 1 - s.lcs.active
    (0, modLcs (fun l => { l with freshRegion := some b }) (sealRegion b xs s))

/-- An image is staged: it replaces an earlier one, goes to the inactive bank in flash and in HBM, and is verified; a verified one goes down
the chain (R458, R459, R426). While an activation runs or is uncommitted it is refused. -/
def stageImage (bs : Bytes) (s : State) : Nat × State :=
  if !s.lcs.committed ∨ s.lcs.chain.isSome ∨ s.lcs.switch_.isSome then (0x05, s)
  else match bundleOf bs with
  | some (xs, key, sig) => stageBundle xs key sig s
  | none =>
    let b := 1 - s.lcs.active
    let st := stageStatus s bs
    let s1 := modLcs (fun l => { l with staged := if st = 0 then some bs else none, freshImage := some b, memberResults := [] }) (writeBank b bs s)
    if st ≠ 0 then (st, s1)
    else (0, passDown bs (modAkz (fun a => { a with passing := isMaster s && passesOn s && s.akz.whole }) (devWrite (Config.imageBase b) bs s1)))

/-- A LIFECYCLE frame to a member, on the port that reaches it (R414, R420). -/
def sendTo (dest : Nat) (body : Bytes) (s : State) : State :=
  match route s 0 dest with
  | some p => akzPump p (joinCtl p false (controlItem s 5 dest body) s)
  | none => s

end Sys2Proof.Machine
end

