-- ==== Sys2Proof/Machine/Ridgeline.lean ====
section
/-!
DEFINITION. The Ridgeline codes (R429 to R431): Reed-Solomon over GF(2^8), four codewords interleaved in a 64-byte line, and how a
stored line reads.
-/
namespace Sys2Proof.Machine

/-- Multiplication in GF(2^8) of the polynomial 0x11D (R429). -/
def gmul (a b : Nat) : Nat :=
  let rec go : Nat → Nat → Nat → Nat → Nat
    | 0, _, _, r => r
    | n + 1, a, b, r => go n (let d := a * 2; if 256 ≤ d then d ^^^ 0x11D else d) (b / 2) (if b % 2 = 1 then r ^^^ a else r)
  go 8 a b 0

/-- α to a power (R429). -/
def gpow : Nat → Nat
  | 0 => 1
  | n + 1 => gmul 2 (gpow n)

/-- The inverse of a non-zero element: its 254th power. -/
def ginv (a : Nat) : Nat :=
  let rec go : Nat → Nat → Nat
    | 0, r => r
    | n + 1, r => go n (gmul r a)
  go 254 1

/-- Check symbols of Ridgeline-S and Ridgeline-H (R430). -/
def checkCount (hbm : Bool) : Nat := if hbm then 4 else 3

/-- The generator polynomial's coefficients below the leading one, the highest first (R429). -/
def generator (r : Nat) : List Nat :=
  let step (g : List Nat) (i : Nat) : List Nat :=
    List.zipWith (· ^^^ ·) (g ++ [0]) (0 :: g.map (gmul (gpow i)))
  ((List.range r).foldl step [1]).drop 1

/-- The check symbols of 16 data symbols: the remainder of R429, the highest coefficient first. -/
def rsCheck (r : Nat) (data : List Nat) : List Nat :=
  let g := generator r
  data.foldl (fun rem d =>
    let f := d ^^^ rem.headD 0
    List.zipWith (· ^^^ ·) (rem.drop 1 ++ [0]) (g.map (gmul f))) (List.replicate r 0)

/-- The stored bytes of a 64-byte line (R430). -/
def encodeLine (hbm : Bool) (data : Bytes) : Bytes :=
  let r := checkCount hbm
  let cw (w : Nat) : List Nat := rsCheck r ((List.range 16).map (fun i => byteAt data (4 * i + w)))
  (data.take 64) ++ (List.range (4 * r)).map (fun k => BitVec.ofNat 8 ((cw (k % 4)).getD (k / 4) 0))

/-- Codeword w of a stored line, the highest coefficient first. -/
def codeword (hbm : Bool) (stored : Bytes) (w : Nat) : List Nat :=
  (List.range (16 + checkCount hbm)).map (fun i => byteAt stored (4 * i + w))

/-- The syndromes of a codeword (R429). -/
def syndromes (r : Nat) (c : List Nat) : List Nat :=
  (List.range r).map (fun k => c.foldl (fun a x => gmul a (gpow k) ^^^ x) 0)

/-- How a codeword decodes: its errors as (position, value) pairs, poisoned, or uncorrectable. -/
inductive CwRead where
  | good (errors : List (Nat × Nat))
  | poisoned
  | uncorrectable
deriving DecidableEq, Repr

/-- The syndromes of errors at positions given as exponents. -/
def errorSyndromes (r : Nat) (es : List (Nat × Nat)) : List Nat :=
  (List.range r).map (fun k => es.foldl (fun a e => a ^^^ gmul e.2 (gpow (e.1 * k))) 0)

/-- Decode a codeword: one byte for Ridgeline-S, two for Ridgeline-H (R430), poison by its syndrome (R431). -/
def decodeCw (hbm : Bool) (c : List Nat) : CwRead :=
  let r := checkCount hbm
  let n := 16 + r
  let s := syndromes r c
  if s.all (· == 0) then .good []
  else if s = 1 :: List.replicate (r - 1) 0 then .poisoned
  else
    let s0 := s.getD 0 0
    let s1 := s.getD 1 0
    let one := (List.range n).find? (fun p => errorSyndromes r [(p, s0)] == s)
    match one with
    | some p => if s0 = 0 then .uncorrectable else .good [(p, s0)]
    | none =>
      if !hbm then .uncorrectable
      else
        let pair (a b : Nat) : List (Nat × Nat) :=
          let xa := gpow a
          let xb := gpow b
          let eb := gmul (s1 ^^^ gmul xa s0) (ginv (xa ^^^ xb))
          [(a, s0 ^^^ eb), (b, eb)]
        match ((List.range n).flatMap (fun a => ((List.range n).filter (a < ·)).map (pair a))).find? (fun e => errorSyndromes r e == s) with
        | some e => .good e
        | none => .uncorrectable

/-- What a read of a stored line finds (R431, R433). -/
inductive LineRead where
  | clean
  | corrected
  | poisoned
  | uncorrectable
deriving DecidableEq, Repr

/-- A read of a stored line (R430, R431). -/
def readLine (hbm : Bool) (stored : Bytes) : LineRead :=
  let rs := (List.range 4).map (fun w => decodeCw hbm (codeword hbm stored w))
  if rs.any (· == .poisoned) then .poisoned
  else if rs.any (· == .uncorrectable) then .uncorrectable
  else if rs.any (fun r => match r with
    | .good (_ :: _) => true
    | _ => false) then .corrected else .clean

/-- The stored form of a poisoned line (R431): P has the value 1 at α^0 and 0 at the other roots. -/
def poisonedLine (hbm : Bool) (data : Bytes) : Bytes :=
  let r := checkCount hbm
  -- the product of (x - α^i), i from 1 to r - 1, scaled to the value 1 at 1
  let step (g : List Nat) (i : Nat) : List Nat := List.zipWith (· ^^^ ·) (g ++ [0]) (0 :: g.map (gmul (gpow i)))
  let q := ((List.range (r - 1)).map (· + 1)).foldl step [1]
  let at1 := q.foldl (fun a x => a ^^^ x) 0
  let p := q.map (gmul (ginv at1))
  let e := encodeLine hbm data
  e.take 64 ++ (List.range (4 * r)).map (fun k => (e.getD (64 + k) 0) ^^^ BitVec.ofNat 8 (p.getD (k / 4) 0))

end Sys2Proof.Machine
end

