-- ==== Sys2Proof/Machine/Rel.lean ====
section
/-!
DEFINITION. REL's commands (hidden_failure): counted faults, sub-windows, hand-offs, repairs, scrubbing and fatal machine checks.
-/
namespace Sys2Proof.Machine

/-- FAULT_COUNT (R434, R435). -/
def execFaultCount (kind index row : Nat) (recheckFailed : Bool) (s : State) : Outcome :=
  .next (countFault kind index row recheckFailed s)

/-- SCREE_SUBWINDOW (R434): the next boundary of a kind's sub-windows; counts older than the window leave. -/
def execScreeSubwindow (kind : Nat) (s : State) : Outcome :=
  let s1 := advanceTo (ceilDiv ((subWindow s kind + 1) * screeWindow s kind) 8) s
  let prune (u : RelUnit) : RelUnit := { u with counts := liveCounts s1 kind u }
  .next (modRel (fun r => { r with
    units := (r.units.map (fun e => if e.1 / 65536 = kind then (e.1, prune e.2) else e)).filter (fun e => e.2 != unitReset (e.1 / 65536) (e.1 % 65536)),
    rows := (r.rows.map (fun e => if e.1 / 2 ^ 56 = kind then (e.1, prune e.2) else e)).filter (fun e => e.2 != {}) }) s1)

/-- The work that a unit held runs again on another (R25, R440): CRY's messages go to the engines that are idle, or end where no engine or no
checker is left (R324); what a transport unit of STO had sent is sent again (R355); frames wait for dispatch. -/
def rerun (kind : Nat) (s : State) : State :=
  match kind with
  | 1 | 2 => serveCry s
  | 5 => foldS (fun (e : Nat × Conn) s => cxSendAll e.1 s) s.sto.conns s
  | _ => s

/-- The surviving logical core that holds the fewest contexts, the lowest-numbered of those (R391). -/
def emptiestCore (s : State) (except : Nat) : Option Nat :=
  (((List.range 64).filter (fun c => c != except && !(coreContexts s c).isEmpty)).foldl (fun best c => match best with
    | some (b, n) => if (coreContexts s c).length < n then some (c, (coreContexts s c).length) else some (b, n)
    | none => some (c, (coreContexts s c).length)) (none : Option (Nat × Nat))).map Prod.fst

/-- The contexts of a service core that leaves: to the spare, or one each to the surviving cores that hold the fewest (R391). -/
def moveCore (leaves : Nat) (joins : Option Nat) (s : State) : State :=
  match (List.range 64).find? (fun c => corePhys s c == leaves && !(coreContexts s c).isEmpty), joins with
  | none, _ => s
  | some c, some j => modSvc (fun v => { v with phys := mset c v.phys c j }) s
  | some c, none =>
    foldS (fun t s => match emptiestCore s c with
      | some d => modSvc (fun v => { v with hosts := mput v.hosts d (coreContexts s d ++ [t]) }) s
      | none => s) (coreContexts s c) (modSvc (fun v => { v with hosts := mput v.hosts c [] }) s)

/-- The channel of a mover that leaves: the one that joins carries it on from its current beat; with none it waits for another (R440). -/
def moveMover (leaves : Nat) (joins : Option Nat) (s : State) : State :=
  modDmv (fun d => { d with next := d.next + 1, chans := d.chans.map (fun e =>
    if e.2.st = .running ∧ e.2.mover = leaves then (e.1, match joins with
      | some j => { e.2 with mover := j }
      | none => { e.2 with st := .preempted, waitNo := d.next })
    else e) }) s

/-- A repaired core that joins the active set again: the lowest-numbered logical core without contexts runs on it, and its own sixteen return
(R438, assumption 132). -/
def returnCore (index : Nat) (s : State) : State :=
  match (List.range 64).find? (fun c => (coreContexts s c).isEmpty) with
  | none => s
  | some c =>
    let own := (List.range 16).map (fun t => 16 * c + t)
    modSvc (fun v => { v with
      phys := mset c v.phys c index,
      hosts := (List.range 64).foldl (fun m d =>
        if d = c then mdel m c
        else match mfind m d with
          | some ts => mput m d (ts.filter (fun t => !own.contains t))
          | none => m) v.hosts }) s

/-- What a unit that leaves held goes to the one that joins, or to those that remain (R391, R440). -/
def moveUnit (kind leaves : Nat) (joins : Option Nat) (s : State) : State :=
  match kind with
  | 3 => foldS serveCore (List.range 68) (moveCore leaves joins s)
  | 4 => moveMover leaves joins s
  | _ => s

/-- HANDOFF_DONE (R437, R440, R442): the oldest hand-off of a kind completes; the unit that joins runs where the one that leaves did. -/
def execHandoffDone (kind : Nat) (s : State) : Outcome :=
  match s.rel.handoffs.find? (fun h => h.kind == kind) with
  | none => .next s
  | some h =>
    let s1 := modRel (fun r => { r with handoffs := dropFirst (· == h) r.handoffs }) s
    match h.joins with
    | some j =>
      let power := (powerUnit kind h.leaves).map (domainSt s1)
      let own := (powerUnit kind j).map (domainSt s1)
      let st := if (own.map DomainSt.st).getD .gated = .gated then (power.map DomainSt.st).getD .gated else (own.map DomainSt.st).getD .gated
      let s2 := newEpoch kind j (modUnit kind j (fun u => { u with st := 0 })
        (setPower kind j { st := st, since := s1.elapsed } (setPower kind h.leaves {} s1)))
      let s3 := mcLog 2 kind h.leaves j (unitOf s2 kind j).epoch 0 0 s2
      let s4 := relEvent 0x01 kind h.leaves (setEngaged kind (engagedOf s3 kind + 1) s3)
      .next (rerun kind (spareExhausted kind h.leaves (moveUnit kind h.leaves (some j) s4)))
    | none =>
      let s2 := relEvent 0x04 kind h.leaves (mcLog 3 kind h.leaves 0xFFFF 0 0 0 (setPower kind h.leaves {} s1))
      let s3 := rerun kind (spareExhausted kind h.leaves s2)
      if kind = 3 ∧ (activeUnits s3 3).isEmpty then .next (fatalCheck 3 h.leaves s3) else .next (moveUnit kind h.leaves none s3)

/-- REPAIR_RETEST (R438): after REPAIR_DELAY a retired unit returns, first to a reduced active set and otherwise as a spare, or is
CONDEMNED. A hand-off whose spare has not yet joined counts as if it had. -/
def execRepairRetest (kind index : Nat) (passed : Bool) (s0 : State) : Outcome :=
  let u := unitOf s0 kind index
  if u.st ≠ 3 ∨ 7 ≤ kind then .next s0
  else
    let s := advanceTo (u.retiredAt + dfld s0 .REL_REPAIR_DELAY 31 0 * 1000000000) s0
    if !passed then .next (mcLog 1 kind index 0xFFFF 0 0 0 (modUnit kind index (fun u => { u with st := 5 }) s))
    else
      let s1 := newEpoch kind index (modUnit kind index (fun u => { u with strikes := 1, counts := [] }) s)
      let e := (unitOf s1 kind index).epoch
      let joining := (s1.rel.handoffs.filter (fun h => h.kind == kind && h.joins.isSome)).length
      if (activeUnits s1 kind).length + joining < (unitCounts kind).2 then
        let s2 := mcLog 4 kind index index e 0 0 (modUnit kind index (fun u => { u with st := 0 }) s1)
        .next (rerun kind (if kind = 3 then returnCore index s2 else s2))
      else
        let s2 := mcLog 4 kind index 0xFFFF e 0 0 (modUnit kind index (fun u => { u with st := 1 }) s1)
        if 0 < engagedOf s2 kind then .next (relEvent 0x02 kind index (setEngaged kind (engagedOf s2 kind - 1) s2)) else .next s2

/-- SCRUB (R432, R433): the line as it is stored, and as it reads again after its correction. -/
def execScrub (hbm : Bool) (line index row : Nat) (stored reread : Bytes) (secondCopy : Bool) (s : State) : Outcome :=
  match readLine hbm stored with
  | .clean => .next s
  | .corrected =>
    .next (countFault (if hbm then 10 else 9) index row (readLine hbm reread != .clean)
      (bump (if hbm then .REL_CORR_H else .REL_CORR_S) 0 0 1 s))
  | .poisoned =>
    if secondCopy then .next (modRel (fun r => { r with poison := mdel r.poison (poisonKey hbm line) }) s) else .next (bump .REL_POISON_READ 0 0 1 s)
  | .uncorrectable =>
    if secondCopy then .next s else .next (poisonLine hbm line index (bump .REL_POISON_READ 0 0 1 s))

/-- MACHINE_CHECK_FATAL (R443). -/
def execMachineCheckFatal (kind index : Nat) (s : State) : Outcome := .next (fatalCheck kind index s)

/-- MC_RESTART (R107, R443): 1 ms after the stop a wake is pending, and the device starts from the boot ROM. -/
def execMcRestart (s : State) : Outcome :=
  match s.cai.fatalRestartAt with
  | some t => .next (resumeTime (modCai (fun c => { c with fatalRestartAt := none, wakePending := true, wakeCause := 4 }) (advanceTo t s)))
  | none => .next s

end Sys2Proof.Machine
end

