-- ==== Sys2Proof/Machine/Domains.lean ====
section
/-!
DEFINITION. The fast domains and the power manager (R13 to R17, R78 to R80): which units run, which are held running, how many are kept,
and the window headers.
-/
namespace Sys2Proof.Machine

/-! ### Units and blocks (R12, R16) -/

/-- The kind and number under which REL watches a unit, for those that come in numbers (R435). -/
def unitKind : DUnit → Option (Nat × Nat)
  | .prsPair p => some (0, p)
  | .cryEngine e => some (1, e)
  | .svcCore c => some (3, c)
  | _ => none

/-- The units of the numbered kinds, by kind. -/
def unitsOfKind (kind : Nat) : List DUnit :=
  match kind with
  | 0 => (List.range 136).map .prsPair
  | 1 => (List.range 24).map .cryEngine
  | 3 => (List.range 68).map .svcCore
  | _ => []

/-- The units of a block, as a path sees them: a PF sees its own half of HIF (R16, R479). -/
def blockUnits (s : State) (p : Path) (blk : Nat) : List DUnit :=
  match blk with
  | 2 => match p with
    | .fn f => [.hifHalf (fnHalf s f)]
    | _ => if bifurcated s then [.hifHalf 0, .hifHalf 1] else [.hifHalf 0]
  | 3 => [.qm]
  | 4 => [.macPort 0, .macPort 1]
  | 5 => [.mgt]
  | 6 => unitsOfKind 0
  | 7 | 8 => [.packet]
  | 9 => unitsOfKind 1
  | 10 => [.sto]
  | 11 => [.dmv]
  | 12 => unitsOfKind 3
  | 14 => [.akzPort 0, .akzPort 1]
  | 15 => [.rel]
  | _ => []

/-- The blocks whose KEEP_AWAKE keeps a unit running: TBL and TM share their domain (R13, R16). -/
def unitBlocks : DUnit → List Nat
  | .hifHalf _ => [2]
  | .qm => [3]
  | .macPort _ => [4]
  | .mgt => [5]
  | .prsPair _ => [6]
  | .packet => [7, 8]
  | .cryEngine _ => [9]
  | .sto => [10]
  | .dmv => [11]
  | .svcCore _ => [12]
  | .akzPort _ => [14]
  | .rel => [15]

/-- CAI, LCS and TIM: the Cairn domain, which never stops (R13). -/
def cairnBlock (blk : Nat) : Bool := blk == 0 || blk == 1 || blk == 13

/-! ### What holds a unit running (R16, R78) -/

/-- Has a physical core a thread that is runnable? -/
def coreRunnable (s : State) (c : Nat) : Bool :=
  (List.range 64).any (fun l => corePhys s l == c && (coreContexts s l).any (fun t => (thread s t).st == .running && !(thread s t).halted))

/-- Is a wake due on a physical core: a thread of it waits for a channel that holds a message (R16, R399)? -/
def wakeDue (s : State) (c : Nat) : Bool := (awaited s c).any (fun k => !(chMsgs s k).isEmpty)

/-- Has a physical core a thread that the debugger has halted (R405)? -/
def coreHalted (s : State) (c : Nat) : Bool :=
  (List.range 64).any (fun l => corePhys s l == c && (coreContexts s l).any (fun t => (thread s t).st != .free && (thread s t).halted))

/-- The highest rate of arrivals over the last sixteen windows, Mpps (R78). -/
def ingressRate (s : State) : Nat := ((s.tm.arrivals.filter (fun a => decide (s.elapsed / 1000 < a.1 + 16))).map Prod.snd).foldl max 0

/-- How many units of a numbered kind are kept running (R78). -/
def unitsNeeded (s : State) (kind : Nat) : Nat :=
  match kind with
  | 0 => min 128 (ceilDiv (ingressRate s) 50 + min 128 (dfld s .CAI_PM_CFG 31 24))
  | 1 => dfld s .CAI_PM_CFG 23 20 + (s.cry.engines.filter (fun e => e.2.running.isSome || e.2.suspended.isSome)).length + s.cry.waiting.length
  | 3 => dfld s .CAI_PM_CFG 19 16 + ((List.range 68).filter (coreRunnable s)).length
  | _ => 0

/-- Is a host-bound delivery pending (R16): a copy that waits to go to a receive queue, a completion or an event entry not yet written? -/
def hostBound (s : State) : Bool :=
  s.tm.frames.any (fun e => e.2.deferred.any (fun d => let op := d.word % 256; op == 0x20 || op == 0x21 || op == 0x22))
    || s.qm.queues.any (fun e => !e.2.overflow.isEmpty || !e.2.waiting.isEmpty || e.2.work.any (fun w => w.done.isSome))
    || s.qm.events.any (fun e => e.fn != .fw && e.eq.isSome && e.written.isNone)

/-- Is the unit held running by R16, the Packet and Reliability domains apart, which follow the others? -/
def heldAlone (s : State) : DUnit → Bool
  | .hifHalf h => (halfSt s h).up || hostBound s
  | .qm => s.hif.halves.any (fun h => h.up) || hostBound s
  | .macPort n => wbit (reg s .MAC_PORT_CFG n 0) 31
  | .mgt => wbit (reg s .MGT_CFG 0 0) 31
  | .prsPair p => (mfind s.prs.engines (2 * p)).isSome || (mfind s.prs.engines (2 * p + 1)).isSome
  | .cryEngine e => (cryEngine s e).running.isSome || (cryEngine s e).suspended.isSome
  | .sto => s.sto.ctrls.any (fun c => bitOf c.2.cc 0) || s.sto.conns.any (fun c => c.2.st != .disabled)
  | .dmv => (List.range 64).any (fun c => wbit (reg s .DMV_CH_CFG 0 c) 31)
  | .svcCore c => coreRunnable s c || wakeDue s c || coreHalted s c
  | .akzPort p => wbit (reg s .AKZ_CFG 0 0) p
  | .packet | .rel => false

/-- The whole units whose running keeps the Packet domain running: Port, Host and Cascade (R16). -/
def packetFeeders : List DUnit := [.hifHalf 0, .hifHalf 1, .qm, .macPort 0, .macPort 1, .akzPort 0, .akzPort 1]

/-- The units of a kind that are not gated, by their records. -/
def unitsUp (s : State) (kind : Nat) : List DUnit := (unitsOfKind kind).filter (fun u => (domainSt s u).st != .gated)

/-- The units of a kind that the power manager is starting, to reach the count of R78: the lowest-numbered of the active set. -/
def unitsToStart (s : State) (kind : Nat) : List DUnit :=
  ((unitsOfKind kind).filter (fun u => match unitKind u with
    | some (k, i) => (activeUnits s k).contains i && (domainSt s u).st == .gated
    | none => false)).take (unitsNeeded s kind - (unitsUp s kind).length)

/-- Is the unit held running (R16)? -/
def heldRunning (s : State) (u : DUnit) : Bool :=
  match u with
  | .packet => packetFeeders.any (fun v => heldAlone s v || (domainSt s v).st == .running)
  | .rel =>
    s.cai.domains.any (fun e => e.1 != unitCode .rel && (e.2.st == .running || e.2.st == .starting)) ||
      (packetFeeders ++ [DUnit.mgt, DUnit.sto, DUnit.dmv]).any (heldAlone s) || (List.range 68).any (fun c => heldAlone s (.svcCore c)) ||
      [0, 1, 3].any (fun k => !(unitsToStart s k).isEmpty)
  | _ => heldAlone s u

/-- Does a gated unit start: R16 holds it running, or R78 needs one more of its kind? -/
def toStart (s : State) (u : DUnit) : Bool :=
  fastRuns s && (heldRunning s u || (match unitKind u with
    | some (k, _) => (unitsToStart s k).contains u
    | none => false))

/-- The state of a unit: a gated one that is to start is STARTING; one that cannot start stays GATED (R13, R79, R80). -/
def unitState (s : State) (u : DUnit) : DState :=
  let d := domainSt s u
  if d.dead then .gated else if d.st = .gated ∧ toStart s (unitOfDomain s u) then .starting else d.st

/-- STATE of a block (R13), and of HIF as R479 combines its halves; the other blocks of several units are combined in the same way
(assumption 128). -/
def blockState (s : State) (p : Path) (blk : Nat) : DState :=
  if cairnBlock blk then .running
  else
    let sts := (blockUnits s p blk).map (unitState s)
    if sts.contains .running then .running else if sts.contains .starting then .starting else if sts.contains .stopping then .stopping else .gated

/-- Has the start of every unit of a block failed for good (R80)? -/
def blockDead (s : State) (p : Path) (blk : Nat) : Bool := !cairnBlock blk && (blockUnits s p blk).all (fun u => (domainSt s u).dead)

/-! ### The window header (R13, R479) -/

/-- The holders of a block's header that a path reaches: in x8+x8 mode HIF has one per half. -/
def headerHolders (s : State) (p : Path) (blk : Nat) : List Nat :=
  if blk = 2 ∧ bifurcated s then (match p with
    | .fn f => [fnHalf s f]
    | _ => [0, 1])
  else [0]

/-- Where a path's count of starts is held: the paths that are no function share one of their own for HIF. -/
def wakesHolder (s : State) (p : Path) (blk : Nat) : Nat :=
  if blk = 2 ∧ bifurcated s then (match p with
    | .fn f => fnHalf s f
    | _ => 2)
  else 0

/-- KEEP_AWAKE of a block, as a path reads it. -/
def keepAwake (s : State) (p : Path) (blk : Nat) : Bool :=
  !cairnBlock blk && (headerHolders s p blk).any (fun h => wbit (reg s .BLOCK_DOMAIN blk h) 16)

/-- <BLOCK>_DOMAIN as a path reads it. -/
def domainWord (s : State) (p : Path) (blk : Nat) : Word :=
  w32 ((blockState s p blk).code + at_ 8 (fld (reg s .BLOCK_DOMAIN blk (wakesHolder s p blk)) 15 8) + at_ 16 (b2n (keepAwake s p blk)))

/-- A read of it clears WAKES. -/
def clearWakes (p : Path) (blk : Nat) (s : State) : State :=
  let h := wakesHolder s p blk
  setReg .BLOCK_DOMAIN blk h (setFld (reg s .BLOCK_DOMAIN blk h) 15 8 0) s

/-- A write of <BLOCK>_DOMAIN: KEEP_AWAKE. -/
def writeKeepAwake (p : Path) (blk : Nat) (v : Word) (s : State) : State :=
  if cairnBlock blk then s
  else foldS (fun h s => setReg .BLOCK_DOMAIN blk h (setFld (reg s .BLOCK_DOMAIN blk h) 16 16 (fld v 16 16)) s) (headerHolders s p blk) s

/-- One more start of a unit, in WAKES of its blocks: every unit of a block of several counts (R13, assumption 128). -/
def countWake (u : DUnit) (s : State) : State :=
  let one (blk h : Nat) (s : State) : State :=
    setReg .BLOCK_DOMAIN blk h (setFld (reg s .BLOCK_DOMAIN blk h) 15 8 (satAdd 0xFF (fld (reg s .BLOCK_DOMAIN blk h) 15 8) 1)) s
  match u with
  | .hifHalf h => if bifurcated s then one 2 2 (one 2 h s) else one 2 0 s
  | _ => foldS (fun blk s => one blk 0 s) (unitBlocks u) s

/-! ### Stops and starts (R78 to R80) -/

/-- Does KEEP_AWAKE of a unit's block keep it (R78)? -/
def unitKept (s : State) (u : DUnit) : Bool :=
  match unitOfDomain s u with
  | .hifHalf h => wbit (reg s .BLOCK_DOMAIN 2 (if bifurcated s then h else 0)) 16
  | v => (unitBlocks v).any (fun blk => wbit (reg s .BLOCK_DOMAIN blk 0) 16)

/-- Does the count left running stay at or above the count of R78? -/
def unitSpared (s : State) (u : DUnit) : Bool :=
  match unitKind u with
  | some (k, _) => decide (unitsNeeded s k < ((unitsOfKind k).filter (fun v => (domainSt s v).st == .running)).length)
  | none => true

/-- May the power manager stop a unit, its idle time apart (R78)? -/
def mayStop (s : State) (u : DUnit) : Bool :=
  unitState s u == .running && !heldRunning s (unitOfDomain s u) && !unitKept s u && unitSpared s u

/-- IDLE_HOLD, ns (R87). -/
def idleHold (s : State) : Nat := max 1 (dfld s .CAI_PM_CFG 15 0) * 1000

/-- A unit begins to stop: it has had no work for IDLE_HOLD (R78, assumption 3). -/
def beginStop (u : DUnit) (s : State) : State :=
  if !mayStop s u then s
  else
    let d := domainSt s u
    let s1 := advanceTo (max d.since (mget 0 s.lastWork (unitCode (unitOfDomain s u))) + idleHold s) s
    modDomain u (fun d => { d with st := .stopping, since := s1.elapsed, wakeQueued := false }) s1

/-- STOPPING ends (R79). -/
def endStop (u : DUnit) (s : State) : State :=
  let d := domainSt s u
  if d.st ≠ .stopping then s
  else modDomain u (fun d => { d with st := if d.wakeQueued then .starting else .gated, since := s.elapsed, wakeQueued := false, retried := false }) s

/-- A wake of a unit: a gated one starts, one that is stopping starts after GATED (R79). -/
def wakeUnit (u : DUnit) (s : State) : State :=
  let d := domainSt s u
  if !fastRuns s ∨ d.dead then s
  else match d.st with
  | .gated => modDomain u (fun d => { d with st := .starting, since := s.elapsed, retried := false }) s
  | .stopping => modDomain u (fun d => { d with wakeQueued := true }) s
  | _ => s

/-- A path's access to a block is work for it, and wakes it where no unit of it runs or starts (R15). -/
def wakeBlock (p : Path) (blk : Nat) (s : State) : State :=
  let us := blockUnits s p blk
  match us.find? (fun u => unitState s u == .running || unitState s u == .starting) with
  | some u => if (domainSt s u).st = .running then worked u s else s
  | none => match us.find? (fun u => !(domainSt s u).dead && (match unitKind u with
      | some (k, i) => (activeUnits s k).contains i
      | none => true)) with
    | some u => wakeUnit u s
    | none => s

/-- The instances that REL watches in a unit, as kind and number (R435, R436): a pair, engine or core itself; of a whole domain its control
copies, and its movers, transport units or lookup engines. -/
def unitInstances (s : State) (u : DUnit) : List (Nat × Nat) :=
  match u with
  | .prsPair p => [(0, p)]
  | .cryEngine e => [(1, e)]
  | .svcCore c => [(3, c)]
  | .hifHalf h => if bifurcated s then [(7, h)] else [(7, 0), (7, 1)]
  | .qm => [(7, 2)]
  | .packet => (7, 3) :: (7, 6) :: (activeUnits s 6).map (fun i => (6, i))
  | .mgt => [(7, 4)]
  | .sto => (7, 5) :: (activeUnits s 5).map (fun i => (5, i))
  | .dmv => (activeUnits s 4).map (fun i => (4, i))
  | .rel => [(7, 7)]
  | .macPort n => [(7, 8 + n)]
  | .akzPort p => [(7, 10 + p)]

/-- A unit runs: its start is counted, and each of its instances has a new epoch (R13, R79, R441); a cipher engine takes a message that
waits, and the threads of a core those that wait in their channels (R399). -/
def unitRuns (u : DUnit) (s : State) : State :=
  let s1 := countWake (unitOfDomain s u) (worked u (modDomain u (fun _ => { st := .running, since := s.elapsed }) s))
  let s2 := foldS (fun (e : Nat × Nat) s => newEpoch e.1 e.2 s) (unitInstances s1 u) s1
  match u with
  | .cryEngine e => engineNext e s2
  | .svcCore c => serveCore c s2
  | _ => s2

/-- The start of the Reliability domain is part of every other start (R79). -/
def withRel (u : DUnit) (s : State) : State :=
  if u ≠ .rel ∧ (domainSt s .rel).st ≠ .running ∧ !(domainSt s .rel).dead then unitRuns .rel s else s

/-- The lowest-numbered spare of a kind that no hand-off has taken (R80, R437). -/
def spareOf (s : State) (kind index : Nat) : Option Nat :=
  let taken := (s.rel.handoffs.filter (fun h => h.kind == kind)).filterMap Handoff.joins
  (unitsIn s kind 1).find? (fun i => !taken.contains i && i != index)

/-- The control copy of a whole domain whose standby pair is still unused (R436). -/
def standbyFor (s : State) (u : DUnit) : Option Nat :=
  ((unitInstances s u).find? (fun e => e.1 == 7 && !(unitOf s 7 e.2).standbyUsed)).map Prod.snd

/-- A unit that fails the self-test of its start is CONDEMNED and leaves as for a lasting fault; a spare that was to join is replaced by the
next (R80, R434). -/
def condemn (kind index : Nat) (s : State) : State :=
  let promised := s.rel.handoffs.any (fun h => h.kind == kind && h.joins == some index)
  let s1 := modUnit kind index (fun u => { u with st := 5 }) (if promised then mcLog 1 kind index 0xFFFF 0 0 0 s else retire kind index 0 s)
  let taken := (s1.rel.handoffs.filter (fun h => h.kind == kind)).filterMap Handoff.joins
  let next := (unitsIn s1 kind 1).find? (fun i => !taken.contains i)
  modRel (fun r => { r with handoffs := r.handoffs.map (fun h => if h.kind = kind ∧ h.joins = some index then { h with joins := next } else h) }) s1

/-- The unit that is to take a unit's place. -/
def successor (s : State) (kind index : Nat) : Option DUnit :=
  (spareOf s kind index).bind (fun i => (unitsOfKind kind).find? (fun v => unitKind v == some (kind, i)))

/-- A start has failed for the second time (R80): a spare starts and takes over through a hand-off, or the domain stays down; a pair, engine or
core leaves the active set, as for a lasting fault. -/
def startFails (u : DUnit) (s : State) : State :=
  let down (s : State) : State :=
    raise 0x0 0x05 ((unitBlocks u).headD 0) .device (hwSet .CAI_FAULT 0 0 12 (modDomain u (fun _ => { since := s.elapsed, dead := true }) s))
  match unitKind u with
  | some (k, i) =>
    let s1 := condemn k i s
    match successor s k i with
    | some v => modDomain v (fun _ => { st := .starting, since := s.elapsed }) (modDomain u (fun _ => { since := s.elapsed }) s1)
    | none => down s1
  | none => match standbyFor s u with
    | some c => unitRuns u (lastingCopy 7 c 0 s)
    | none => down s

/-- A start ends, or its self-test fails (R79, R80). -/
def endStart (u : DUnit) (passed : Bool) (s : State) : State :=
  if unitState s u ≠ .starting then s
  else if passed then withRel u (unitRuns u s)
  else if (domainSt s u).retried then startFails u s
  else modDomain u (fun d => { d with st := .starting, retried := true }) s

end Sys2Proof.Machine
end

