-- ==== Sys2Proof/Machine/ModeOps.lean ====
section
/-!
DEFINITION. Boot, restart, drain and fault stops as shared operations (R72, R73, R95 to R111).
-/
namespace Sys2Proof.Machine

/-! ### Fault stops (R72, R73, R85, R86) -/

/-- Every fast domain stops for a rail, rail-order or thermal fault: FAULT_N goes low, and the modes that R95 lists go to STANDBY. -/
def faultStop (s : State) : State :=
  faultMode (emit (.pin .faultN .low) (stopFast s))

/-! ### The end of BRINGUP (R95, R98 step 10, R102) -/

/-- Does firmware run, so that functions can become ready (R98 steps 8 to 10, R109, R111)? -/
def firmwareUp (s : State) : Bool :=
  match s.cai.mode with
  | .off | .standby | .test => false
  | .held => !s.cai.porstLow
  | .bringup => match s.cai.bringup with
    | some b => b.firmware
    | none => false
  | .returned => s.lcs.life != 4
  | _ => true

/-- The units that the settings enable, coded as in `Cai.ready` (R98 step 9, R102). -/
def enabledUnits (s : State) : List Nat :=
  allLports.filter (fun p => lpUsed s p && wbit (portCfg s p) 31)
    ++ ((List.range 2).filter (fun p => wbit (reg s .AKZ_CFG 0 0) p)).map (· + 0x100)
    ++ s.cai.settings.blocks.map (· + 0x200) ++ s.cai.settings.cores.map (· + 0x300)

/-- BRINGUP has ended in mode m: its duration is recorded (R99, R112). -/
def bringupDone (m : Mode) (s : State) : State :=
  let t := match s.cai.bringup with
    | some b => min 0xFFF ((s.elapsed - b.started) / 1000000)
    | none => s.cai.bootTime
  setMode m (modCai (fun c => { c with bringup := none, bootTime := t }) s)

/-- BRINGUP ends once every enabled unit is ready, and either a PF is ready or no half has a trained link (R95); in ISOLATED the PERST_HOLD
condition is judged at once (R94, R96). -/
def tryFinish (s : State) : State :=
  if s.cai.mode = .bringup ∧ firmwareUp s ∧ (enabledUnits s).all (fun u => s.cai.ready.contains u) then
    if anyPfReady s then bringupDone .service s
    else if !anyLink s then modeAfterLinks (bringupDone .isolated s)
    else s
  else s

/-! ### Boot (R98, R109 to R111) -/

/-- BOOT_FALLBACK: the boot has left a source, 0 bank A, 1 bank B, 2 the Akzal UP neighbour (R98, R112, R115). -/
def bootFallback (source : Nat) (s : State) : State := raise 0x0 0x08 source .device (hwSet .CAI_MODE 0 0 14 s)

/-- Do n numbers from a and m numbers from b have one in common? -/
def rangesMeet (a n b m : Nat) : Bool := decide (0 < n ∧ 0 < m ∧ a < b + m ∧ b < a + n)

/-- Do the pools of two PFs overlap (R183)? -/
def poolsMeet (x y : PfSettings) : Bool :=
  rangesMeet x.qBase x.qCount y.qBase y.qCount || rangesMeet x.eqBase x.eqCount y.eqBase y.eqCount
    || rangesMeet x.vportFirst x.vportCount y.vportFirst y.vportCount

/-- May these settings of PFs stand (R118, R123, R128, R183, R185)? The pools are disjoint and within the device, the VFs are at most 4,096, and
so are the NVME functions. -/
def pfsStand (l : List PfSettings) : Bool :=
  let total (l : List PfSettings) : Nat := (l.map PfSettings.totalVfs).foldl (· + ·) 0
  let nvme := l.filter PfSettings.nvme
  decide (l.length ≤ 4) && decide (total l ≤ 4096) && decide (nvme.length + total nvme ≤ 4096)
    && decide ((l.map PfSettings.vectors).foldl (· + ·) 0 ≤ 65536)
    && l.all (fun x => decide (1 ≤ x.vectors ∧ x.vectors ≤ 2048 ∧ x.qBase + x.qCount ≤ 131072 ∧ x.eqBase + x.eqCount ≤ 8192
        ∧ x.vportFirst + x.vportCount ≤ 4096))
    && decide (l.Pairwise (fun x y => poolsMeet x y = false))

/-- The settings of PFs as firmware applies them, and whether any was refused: PF0 of each half in use is NET (R344), and settings that cannot
stand leave only those PFs. -/
def pfsApplied (l : List PfSettings) (s : State) : List PfSettings × Bool :=
  if pfsStand l then
    let fixed := (l.zip (List.range 4)).map (fun e => if isPf0 s e.2 then { e.1 with nvme := false } else e.1)
    (fixed, fixed != l)
  else ([], true)

/-- The settings take effect (R98 step 9, R117, R186): PFs, ports and cascade; every enabled PF has its readiness to come. -/
def applyBootSettings (st : Settings) (s : State) : State :=
  let pfs := pfsApplied st.pfs s
  let s0 := modCai (fun c => { c with settings := { st with pfs := pfs.1 } }) s
  let s1 := if pfs.2 then raise 0xA 0x06 0 .device s0 else s0
  let s2 := foldS (fun i s => modFn (.pf i) (fun r =>
    { r with vport := pfVport s1 i, readyWhy := if pfEnabled s1 i && !r.ready then some 0 else none }) s) (List.range 4) s1
  let s3 := foldS (fun (e : Nat × Word) s => setReg .MAC_PORT_CFG e.1 0 (readMask .MAC_PORT_CFG e.2) s) st.ports s2
  let s4 := foldS (fun p s => setReg .AKZ_CFG 0 0 (reg s .AKZ_CFG 0 0 ||| w32 (2 ^ p)) s) (st.akz.filter (· < 2)) s3
  foldS akzBegin [0, 1] (foldS beginUp allLports s4)

/-- In RECOVERY and RETURN the ports and the cascade are down, and PF0 of half 0 is the only function (R93, R109, R111): what came up during the
boot goes down. -/
def downForImage (s : State) : State :=
  let s1 := foldS lportDown allLports (foldS akzPortDown [0, 1] s)
  if (halfSt s1 1).up then halfDown 1 s1 else s1

/-- Where a thread sees raw device memory (R390). -/
def devBase : Nat := 0x10000000000

/-- An image starts: its bytes stand in device memory, its PRS image is loaded, and firmware runs on logical thread 0 (R98 steps 8
and 9, R410). -/
def startImage (slot : Nat) (bs : Bytes) (s : State) : State :=
  let s1 := modCai (fun c => { c with bootImage := slot }) (modLcs (fun l => { l with running := bs }) s)
  let s2 := devWrite (Config.imageBase slot) bs s1
  let prs := embeddedPrs bs
  let s3 := if prs.isEmpty then s2 else modPrs (fun p => { p with image := prsImageOf prs, loaded := true }) s2
  startFirmware (devBase + Config.imageBase slot + leAt bs 36 4) s3

/-- An image of bank b has verified: in RETURNED the mode becomes RETURN with PF0 of half 0 alone, otherwise the settings apply and units
come up (R98 steps 8 and 9, R109, R466). -/
def bootInto (b : Nat) (bs : Bytes) (s : State) : State :=
  let s1 := startImage b bs s
  if s.lcs.life = 3 then bringupDone .returned (applyBootSettings {} (downForImage s1))
  else
    let s2 := modCai (fun c => { c with bringup := c.bringup.map (fun x => { x with firmware := true, waitUntil := none }) }) s1
    let s3 := migrateSettings bs b s2
    tryFinish (applyBootSettings (spelled bs s3) s3)

/-- No bank verifies, or no copy of the directory is valid: the recovery image runs, or else the loader of the boot ROM (R98 step 7, R111, R456). -/
def bootRecovery (s : State) : State :=
  let loader := modCai (fun c => { c with bootImage := 3 }) s
  let s1 := match (directory s).bind (fun _ => s.lcs.recovery) with
    | some bs => if imageStatus s (regionSize s 2) 2 bs = 0 then startImage 2 bs s else loader
    | none => loader
  bringupDone .recovery (applyBootSettings {} (downForImage s1))

/-- The bank that the boot reads first: the active bank, or in a restart from RECOVERY the staged one (R97, R98, R111). -/
def firstBank (s : State) : Nat := (s.cai.bringup.bind Bringup.first).getD s.lcs.active

/-- Steps 6 and 7 from a bank, and then from the other (R98); the active bank stays as it was recorded (R97). With no valid copy of the
directory no bank is read, but for one just staged (R111, R456). -/
def bootBanks (s : State) : State :=
  let known := (directory s).isSome || (s.cai.bringup.bind Bringup.first).isSome
  let good (b : Nat) : Option Bytes := (bankOf s b).filter (fun bs => known && imageStatus s (regionSize s b) 1 bs == 0)
  let a := firstBank s
  match good a, good (1 - a) with
  | some bs, _ => bootInto a bs s
  | none, some bs => bootInto (1 - a) bs (bootFallback a s)
  | none, none => if known then bootRecovery (bootFallback (1 - a) (bootFallback a s)) else bootRecovery s

/-- The image of the Akzal UP neighbour has arrived (R98 step 6, R425). -/
def bootNeighbour (bs : Bytes) (s : State) : State :=
  if imageStatus s 268435456 1 bs = 0 then bootInto s.lcs.active bs s else bootBanks (bootFallback 2 s)

/-- Steps 4 and 5 (R98): the Reliability domain and HIF start. -/
def bootDomains (s : State) : State :=
  foldS wakeUnit (.rel :: (if bifurcated s then [.hifHalf 0, .hifHalf 1] else [.hifHalf 0])) s

/-- The image that HBM still holds after a STANDBY whose main rails stayed on, where it verifies again, and its slot (R108). -/
def heldImage (s : State) : Option (Nat × Bytes) :=
  let slot := s.cai.bootImage
  let bs := devRead s (Config.imageBase slot) s.lcs.running.length
  if (s.cai.bringup.map Bringup.warm).getD false && decide (slot < 2) && !s.lcs.running.isEmpty && imageStatus s (regionSize s slot) 1 bs == 0
  then some (slot, bs) else none

/-- The attestation key and the sealing key are derived (R451), from zero hashes in MAKER and RETURNED; SPENT has none. -/
def deriveKeys (s : State) : State :=
  let owner := if s.lcs.life = 0 ∨ s.lcs.life = 3 then List.replicate 48 0 else s.lcs.owners.getLast?.getD (List.replicate 48 0)
  modLcs (fun l => { l with
    attest := if l.life = 4 then none else some (l.life, owner)
    sealKey := if l.life = 4 then [] else Config.sealingKey l.life owner }) s

/-- REL's self-test at a BRINGUP (R434, R436): a unit that fails is CONDEMNED, and the active sets form anew without it. -/
def selfTest (failed : List (Nat × Nat)) (s : State) : State :=
  let bad := failed.filter (fun e => decide (e.1 < 7 ∧ e.2 < (unitCounts e.1).1 ∧ (unitOf s e.1 e.2).st ≠ 5))
  if bad.isEmpty then s
  else
    let s1 := foldS (fun (e : Nat × Nat) s => mcLog 1 e.1 e.2 0xFFFF 0 0 0 (modUnit e.1 e.2 (fun u => { u with st := 5 }) s)) bad s
    let s2 := modRel (fun r => (List.range 9).foldl (fun r k => formSet k r) r) s1
    foldS (fun (e : Nat × Nat) s => spareExhausted e.1 e.2 s) bad (modSvc (fun v => { v with phys := corePlaces s2.rel }) s2)

/-- Steps 1 to 7 of BRINGUP (R98), with the units' self-test (R436). -/
def bootSteps (boot : BootInput) (s : State) : State :=
  let s0 := readFlash boot (selfTest boot.failed s)
  let s1 := deriveKeys (if s.lcs.returnPending then zeroise s0 else s0)
  let test := bitOf s1.cai.straps.toNat 7
  if test ∧ (s1.lcs.life = 0 ∨ s1.lcs.life = 3) then bringupDone .test s1
  else if s1.lcs.life = 4 then bringupDone .returned s1
  else
    let s2 := if test then raise 0x0 0x09 0 .device (hwSet .CAI_MODE 0 0 15 s1) else s1
    let s3 := startTraining 1 (startTraining 0 (bootDomains s2))
    match heldImage s3 with
    | some (slot, bs) => bootInto slot bs s3
    | none =>
    if bitOf s.cai.straps.toNat 5 ∧ (s.cai.bringup.bind Bringup.first).isNone then
      match boot.neighbour with
      | some bs => bootNeighbour bs s3
      | none =>
        let wait := max 1 (dfld s .CAI_MODE_CFG 15 8) * 10000000
        akzBegin 0 (modCai (fun c => { c with bringup := c.bringup.map (fun b => { b with waitUntil := some (s.elapsed + wait) }) }) s3)
    else bootBanks s3

/-! ### Restart and drain (R95, R97, R105) -/

/-- A RESTART, by request or by LCS (R95, R97, R111, R450): in RECOVERY it starts from a staged image. It answers whether the mode lists it. -/
def restartDevice (s : State) : Option State :=
  let go (first : Option Nat) (s : State) : State :=
    modCai (fun c => { c with resetCause := 5, bringup := some { started := s.elapsed, booted := false, first := first } })
      (setMode .bringup (restartReset (stopFast s)))
  match s.cai.mode with
  | .recovery => some (if s.lcs.staged.isSome then go (some (1 - s.lcs.active)) (modLcs (fun l => { l with staged := none }) s) else go none s)
  | .service | .spared | .isolated => some (go none s)
  | _ => none

/-- A request that does not apply in the mode (R96). -/
def refuseRequest (s : State) : State := hwSet .CAI_MODE 0 0 13 s

/-- Who may write CAI_MODE_REQ: any PF, firmware, and the board through PLDM (R113). -/
def mayRequest (s : State) : Path → Bool
  | .fn (.pf i) => pfEnabled s i
  | .firmware | .mgmt => true
  | _ => false

/-- A write of CAI_MODE_REQ (R95, R96, R112, R113). -/
def modeRequest (p : Path) (request : Nat) (s : State) : State :=
  if !mayRequest s p then s
  else match request with
  | 1 | 2 =>
    if s.cai.mode = .service ∨ s.cai.mode = .spared then
      modCai (fun c => { c with drain := some { entered := s.elapsed, standby := request == 2 } }) (setMode .drain s)
    else refuseRequest s
  | 3 => if s.cai.mode = .drain then setMode (serviceMode s) s else refuseRequest s
  | 4 => (restartDevice s).getD (refuseRequest s)
  | _ => s

/-- Is a fetched entry unfinished work of a drain: not a receive buffer, which stays posted or completes with its frame (R105)? -/
def holdsDrain (w : Work) : Bool := w.done.isNone && w.cls != 1

/-- Fetched work that remains (R105). -/
def fetchedWork (s : State) : Bool :=
  s.qm.queues.any (fun e => e.2.work.any (fun w => holdsDrain w || (w.cls == 1 && w.done.isNone && decide (0 < w.filled))))
    || s.sto.ctrls.any (fun e => !e.2.cmds.isEmpty) || s.dmv.chans.any (fun e => !e.2.jobs.isEmpty || !e.2.flushing.isEmpty)

/-- Unfinished fetched work completes with FLUSHED (R105, R356). An NVMe command has no such status, and ends as aborted (assumption 62). -/
def drainFlush (s : State) : State :=
  let s1 := foldS (fun (e : Nat × MvChan) s =>
    modChan e.1 (fun u => { mvUnlatch u with jobs := [], flushing := [] })
      (foldS (fun j s => jobDone e.1 j 0x30 s) (e.2.flushing ++ e.2.jobs) s)) s.dmv.chans s
  let s2 := foldS (fun (o : StoOp) s => opDone o.no 0x30 0 s) s1.sto.ops s1
  let s3 := foldS (fun (e : Nat × Nvme) s =>
    foldS (fun (n : NCmd) s => nvComplete (ctrlFn e.1) n.no (nvSt 0 0x07 0) 0 s) e.2.cmds s) s2.sto.ctrls s2
  let s4 := foldS (fun (e : Nat × Frame) s => if e.2.origin.isSome then dropFrame e.1 0x30 s else s) s3.tm.frames s3
  let s5 := removeMsgs (fun m => match m.src with
    | .lookaside .. => true
    | .frame _ => false) s4
  foldS (fun (e : Nat × Queue) s =>
    foldS (fun (w : Work) s => if holdsDrain w then finishWork (fnOf (e.1 / 2 ^ 20)) (e.1 % 2 ^ 20) w.ctr 0x30 0 s else s) e.2.work s)
    s5.qm.queues s5

/-- The mode at the end of a Col pause, whether it succeeded or not (R95). -/
def endPause (s : State) : State :=
  if s.cai.mode ≠ .pause then s
  else if perstHold s then enterHold s
  else if anyLink s then setMode (serviceMode s) s
  else setMode .isolated s

end Sys2Proof.Machine
end

