-- ==== Sys2Proof/Machine/Akz.lean ====
section
/-!
DEFINITION. The commands of akzal_cascade on links, membership, time and images.
-/
namespace Sys2Proof.Machine

/-! ### Ports (R77, R412, R414) -/

/-- AKZ_PORT_UP (R412, R414, R415): the port is up, grants AKZ_CREDIT_CELLS per class, and the head joins. -/
def execAkzPortUp (port : Nat) (s : State) : Outcome :=
  if 2 ≤ port ∨ (akzPort s port).up ∨ !akzMayRun s port then .next s
  else
    let s1 := akzEvent 0x01 port (modAkzPort port (fun x => { x with up := true, training := false }) s)
    let s2 := foldS (fun c s => grantCredit (some (port, c, dfld s .AKZ_CREDIT_CELLS 15 0)) s) (List.range 8) s1
    .next (judgeChain (tryJoin none s2))

/-- AKZ_PORT_DOWN (R412, R416, R422). -/
def execAkzPortDown (port : Nat) (s : State) : Outcome := if port < 2 then .next (akzPortDown port s) else .next s

/-- ETH_REFCLK_LOSS (R77, R202, R412): every Ethernet and Akzal port goes down. -/
def execEthRefclkLoss (s : State) : Outcome :=
  .next (akzPortDown 1 (akzPortDown 0 (foldS lportDown allLports (modCai (fun c => { c with ethRef := false }) s))))

/-- ETH_REFCLK_RETURN (R77, R201, R412): every port that is still enabled begins to come up. -/
def execEthRefclkReturn (s : State) : Outcome :=
  .next (foldS akzBegin [0, 1] (foldS beginUp allLports (modCai (fun c => { c with ethRef := true }) s)))

/-! ### The link (R413, R414) -/

/-- Frames up to a sequence are acknowledged: their copies have finished, and room may let others start (R413, R414). -/
def acked (port seq : Nat) (s : State) : State :=
  let x := akzPort s port
  let n := (seq + 4096 - (x.replay.map LinkFrame.seq).headD 0) % 4096 + 1
  if x.replay.length < n then s
  else
    let s1 := modAkzPort port (fun x => { x with replay := x.replay.drop n, replayed := 0 }) s
    akzPump port (foldS (fun (f : LinkFrame) s => endItem .delivered f.item s) (x.replay.take n) s1)

/-- LINK_FRAME_RX (R413, R414): a good frame in sequence is acknowledged; one that fails its CRC or arrives out of sequence is discarded
and answered with a NAK that names the first sequence lacking. Acknowledgements and credit are taken. -/
def execLinkFrameRx (port : Nat) (crcOk : Bool) (rx : LinkRx) (s : State) : Outcome :=
  let x := akzPort s port
  if 2 ≤ port ∨ !x.up then .next s
  else match rx with
  | .frame seq =>
    if crcOk ∧ seq % 4096 = x.expect then
      .next (emit (.akz port 3 1 (leBytes 2 seq)) (modAkzPort port (fun x => { x with expect := (x.expect + 1) % 4096 }) s))
    else .next (emit (.akz port 3 2 (leBytes 2 x.expect)) s)
  | .ack seq => if crcOk then .next (acked port (seq % 4096) s) else .next s
  | .credit cls cells =>
    if crcOk ∧ cls < 8 then .next (akzPump port (modAkzPort port (fun x => { x with credit := updAt cls (· + cells) x.credit }) s)) else .next s

/-- LINK_NAK_RX (R412, R413): everything before the named sequence has arrived, and the rest is replayed; after 8 replays of one frame the
port goes down. -/
def execLinkNakRx (port seq : Nat) (s : State) : Outcome :=
  if 2 ≤ port ∨ !(akzPort s port).up then .next s
  else
    let s1 := acked port ((seq + 4095) % 4096) s
    let x := akzPort s1 port
    if (x.replay.map LinkFrame.seq).head? ≠ some (seq % 4096) then .next s1
    else if 8 ≤ x.replayed then .next (akzPortDown port s1)
    else
      let s2 := akzStat 3 x.replay.length (modAkzPort port (fun x => { x with replayed := x.replayed + 1 }) s1)
      .next (foldS (fun (f : LinkFrame) s => emit (.akz port (hdType f.item.header) f.seq (linkFrame f.item)) s) x.replay s2)

/-! ### Membership (R415 to R418) -/

/-- HELLO_TX (R416): member number, serial, MASTER_OK, MEMBERS and REACH through this device away from the receiver. -/
def execHelloTx (port : Nat) (s : State) : Outcome :=
  if 2 ≤ port ∨ !(akzPort s port).up then .next s
  else
    let a := s.akz
    let own := if a.joined then 2 ^ a.member else 0
    let ok := (a.masterOk &&& (255 - own)) ||| (if wbit (reg s .AKZ_CFG 0 0) 3 then own else 0)
    let body := leBytes 1 a.member ++ leBytes 8 serial64 ++ leBytes 1 ok ++ leBytes 1 a.members ++ leBytes 1 (own ||| (akzPort s (1 - port)).reach)
    .next (sendControl port 1 0 body s)

/-- HELLO_RX (R415, R416, R418). -/
def execHelloRx (port : Nat) (h : Hello) (s : State) : Outcome :=
  if 2 ≤ port ∨ !(akzPort s port).up then .next s
  else
    let reach := if h.joined then h.reach % 256 else 0
    let s1 := modAkzPort port (fun x => { x with
      nbJoined := h.joined, nbMember := h.member % 8, nbSerial := h.serial, reach := reach, headSerial := h.headSerial, helloAt := s.elapsed }) s
    let was := s.akz.joined
    let s2 := tryJoin (some h.lowSerial) s1
    let s3 := modAkz (fun a => { a with
      masterOk := (a.masterOk &&& (255 - reach)) ||| (h.masterOk &&& reach),
      members := a.members ||| (if a.joined then reach ||| (if was then 0 else h.members % 256) else 0),
      serials := if h.joined then mput a.serials (h.member % 8) h.serial else a.serials }) s2
    .next (judgeChain s3)

/-- HELLO_TIMEOUT (R416): 4 intervals of 100 µs have passed without a HELLO. -/
def execHelloTimeout (port : Nat) (s : State) : Outcome :=
  if 2 ≤ port ∨ !(akzPort s port).up then .next s
  else
    let s1 := advanceTo ((akzPort s port).helloAt + 400000) s
    .next (judgeChain (modAkzPort port (fun x => { x with reach := 0, nbJoined := false }) s1))

/-- MASTER_CHANGE (R417): the lowest-numbered reachable member that has MASTER_OK set is the master. -/
def execMasterChange (s : State) : Outcome :=
  let a := s.akz
  let ok := (a.masterOk &&& (255 - 2 ^ a.member)) ||| (if wbit (reg s .AKZ_CFG 0 0) 3 then 2 ^ a.member else 0)
  let m := if a.joined then (maskBits a.reachable).find? (bitOf ok) else none
  if m = a.master then .next s
  else .next (akzEvent 0x05 (m.getD a.member) (modAkz (fun a => { a with master := m }) s))

/-- A write of AKZ_CTRL by firmware (R418, R427): FORGET removes a lost member from MEMBERS. -/
def akzForget (p : Path) (member : Nat) (s : State) : State :=
  if !mayWrite s p .AKZ_CTRL ∨ 8 ≤ member ∨ bitOf (reachNow s) member ∨ !bitOf s.akz.members member then s
  else
    let s1 := modAkz (fun a => { a with members := a.members &&& (255 - 2 ^ member), serials := mdel a.serials member }) s
    let whole := s1.akz.joined && (maskBits s1.akz.members).all (fun m => bitOf (reachNow s1) m)
    if whole ∧ !s.akz.whole then akzEvent 0x07 member (modAkz (fun a => { a with whole := true }) s1) else s1

/-! ### Time along the chain (R423, R424, R50, R51) -/

/-- TIME_FRAME_TX (R423): every 1/1,024 s, stamped as the frame leaves. -/
def execTimeFrameTx (port : Nat) (s : State) : Outcome :=
  let x := akzPort s port
  if 2 ≤ port ∨ !s.akz.joined ∨ !controlRoom s port 2 (controlItem s 2 0 (List.replicate 64 0)) then .next s
  else
    let t := nowFrac s
    let echo := x.timeRx.getD (0, 0)
    let sel := isAkz s.tim.refId
    let own := 2 ^ s.akz.member
    let body := leBytes 8 (t / 0x10000) ++ leBytes 2 (t % 0x10000) ++ leBytes 2 x.timeSeq ++ leBytes 2 echo.1 ++ [0, 0]
      ++ leBytes 8 (echo.2 / 0x10000) ++ leBytes 2 (echo.2 % 0x10000)
      ++ leBytes 1 s.tim.servo.code ++ leBytes 1 (b2n s.tim.utcValid + 2 * b2n s.tim.leap.isSome) ++ leBytes 4 (bound32 s)
      ++ leBytes 2 (unsigned 16 s.tim.utcOffset) ++ leBytes 1 (if sel then (slotOf s s.tim.refId).hops else 0)
      ++ leBytes 1 (own ||| (if sel then (slotOf s s.tim.refId).path else 0)) ++ leBytes 8 (s.tim.traceNext - 1)
      ++ leBytes 8 ((s.tim.leap.map Leap.at_).getD 0) ++ leBytes 2 ((s.tim.leap.map (fun l => unsigned 16 l.offset)).getD 0)
      ++ List.replicate 10 0
    .next (modAkzPort port (fun x => { x with
      timeSeq := (x.timeSeq + 1) % 65536, timeSent := ((x.timeSeq, t, s.elapsed) :: x.timeSent).take 8 }) (sendControl port 2 0 body s))

/-- UTC and a pending leap from the neighbour on an Akzal slot (R50, R51). -/
def akzUtc (slot : Nat) (b : Bytes) (s : State) : State :=
  let a : Announce := if bitOf (byteAt b 27) 1 then .at_ (leAt b 44 8) (signed 16 (leAt b 52 2)) else .none
  let s1 := modSlot slot (fun r => { r with
    utc := if bitOf (byteAt b 27) 0 then some (signed 16 (leAt b 32 2)) else none, announce := a }) s
  let s2 := if a = .none then announceLeap (.slot slot) .none s1 else s1
  if s.tim.selected = some slot then governUtc s2 else s2

/-- TIME_FRAME_RX (R32, R423, R424): the 64-byte body, received now. -/
def execTimeFrameRx (port : Nat) (body : Bytes) (s : State) : Outcome :=
  let x := akzPort s port
  if 2 ≤ port ∨ !x.up then .next s
  else
    let t2 := nowFrac s
    let slot := 0x13 + port
    let s1 := modAkzPort port (fun x => { x with timeRx := some (leAt body 10 2, t2) }) s
    let sent := x.timeSent.find? (fun e => e.1 == leAt body 12 2 && decide (s.elapsed ≤ e.2.2 + 4000000))
    let bound := leAt body 28 4
    match sent with
    | none => .next s1
    | some e =>
      if (slotOf s slot).st = .disabled ∨ byteAt body 26 < 2 ∨ bound = 0xFFFFFFFF ∨ bitOf (byteAt body 35) s.akz.member then .next s1
      else
        let t1 := leAt body 0 8 * 0x10000 + leAt body 8 2
        let t4 := leAt body 16 8 * 0x10000 + leAt body 24 2
        let m : PtpMeasurement := { t1 := t1, t2 := t2, t3 := e.2.1, t4 := t4 }
        let th := ptpTheta s slot m
        let info : MeasInfo := { mpd := th.2.natAbs, interval := firstInterval slot, neighbour := bound * nsUnits, sourceId := x.nbSerial,
                                 hops := byteAt body 34 + 1, upstreamSeq := leAt body 36 8 }
        .next (akzUtc slot body (measure slot th.1 info (modSlot slot (fun r => { r with path := byteAt body 35 }) s1)))

/-! ### Images (R425, R426) -/

/-- BOOT_REQ (R425): a booting device sends one on its UP port; received on the DOWN port in SERVICE, SPARED or ISOLATED, it is answered with
the active image. -/
def execBootReq (received : Bool) (s : State) : Outcome :=
  if received then
    (match s.cai.mode with
     | .service | .spared | .isolated =>
       if (akzPort s 1).up ∧ !s.lcs.running.isEmpty then
         .next (akzPump 1 (modAkzPort 1 (fun x => { x with imgOut := s.lcs.running, imgOff := 0 }) s)) else .next s
     | _ => .next s)
  else if bitOf s.cai.straps.toNat 5 ∧ (s.cai.bringup.map Bringup.waitUntil).getD none ≠ none then .next (sendControl 0 5 0 (leBytes 1 0) s)
  else .next s

/-- IMAGE_FRAME (R425, R426): a piece of an image from the UP neighbour. A booting device verifies and starts the whole image; a member
stages it, passes it on, and reports its result towards the master. -/
def execImageFrame (body : Bytes) (s : State) : Outcome :=
  let off := leAt body 0 4
  let booting := s.cai.mode == .bringup && bitOf s.cai.straps.toNat 5 && !firmwareUp s && s.cai.bringup.isSome
  if !(akzPort s 0).up ∨ (!booting ∧ !s.akz.whole) ∨ (off ≠ 0 ∧ off ≠ s.akz.imgGot.length) then .next s
  else
    let got := (if off = 0 then [] else s.akz.imgGot) ++ body.drop 56
    let s1 := modAkz (fun a => { a with imgLen := leAt body 4 4, imgHash := slice body 8 48, imgGot := got })
      (modCai (fun c => { c with bringup := c.bringup.map (fun b => { b with waitUntil := none }) }) s)
    if got.length < leAt body 4 4 then .next s1
    else
      let s2 := modAkz (fun a => { a with imgGot := [] }) s1
      let ok := sha384 got == slice body 8 48
      if booting then
        .next (if ok then bootNeighbour got s2 else bootBanks (bootFallback 2 s2))
      else
        let r := if ok then stageImage got s2 else (0x10, s2)
        .next (match s.akz.master with
          | some m => sendTo m (leBytes 1 1 ++ leBytes 1 s.akz.member ++ leBytes 1 r.1) r.2
          | none => r.2)

/-- IMAGE_RESULT (R426): it reaches the master, or is passed on towards it. -/
def execImageResult (member status : Nat) (s : State) : Outcome :=
  if isMaster s then .next (takeResult (member % 8) (status % 256) s)
  else match s.akz.master with
  | some m => .next (sendTo m (leBytes 1 1 ++ leBytes 1 member ++ leBytes 1 status) s)
  | none => .next s

end Sys2Proof.Machine
end

