-- ==== Sys2Proof/Machine/Mac.lean ====
section
/-!
DEFINITION. The Ethernet MACs (ethernet_ports): links, receive filters, the entry of frames, flow control, FEC windows, filters and statistics.
-/
namespace Sys2Proof.Machine

/-- A MAC event: DETAIL holds the logical port and, where one applies, the priority (R219). -/
def macEvent (code lp p : Nat) (s : State) : State := raise 0x4 code (lp + at_ 4 p) .device s

/-! ### Links (R199 to R203) -/

/-- LINK_UP (R201): a logical port that is coming up has lock on every lane and 10 ms of FEC lock. -/
def execLinkUp (lp : Nat) (s : State) : Outcome :=
  if !(lport s lp).starting then .next s
  else .next (ncsiAen 0 lp <| macEvent 0x01 lp 0 (setLanes lp true (modLport lp (fun p => { p with up := true, starting := false }) s)))

/-- LINK_DOWN (R201): a lane has lost lock for more than 1 µs. -/
def execLinkDown (lp : Nat) (s : State) : Outcome := if (lport s lp).up then .next (lportDown lp s) else .next s

/-- FEC_WINDOW (R203): FEC_DEGRADED sets above DEGRADE_LIMIT and clears after 100 consecutive windows at or below it. -/
def execFecWindow (lp corrected uncorrected : Nat) (s : State) : Outcome :=
  if !(lport s lp).up then .next s
  else
    let s1 := lpCount lp 17 uncorrected (lpCount lp 16 corrected s)
    if fld (reg s .MAC_LP_FEC_CFG lp 0) 15 0 < uncorrected then
      .next (macEvent 0x03 lp 0 (modLport lp (fun p => { p with fecDegraded := true, goodWindows := 0 }) s1))
    else .next (modLport lp (fun p => { p with fecDegraded := p.fecDegraded && decide (p.goodWindows < 99), goodWindows := p.goodWindows + 1 }) s1)

/-- The logical port numbers of a physical port. -/
def lpsOf (n : Nat) : List Nat := (List.range 8).map (fun k => 8 * n + k)

/-- A write of MAC_PORTn_CFG (R199): MODE and INTERFACE do not change while ENABLE is 1. -/
def portCfgWrite (p : Path) (n : Nat) (v : Word) (s : State) : State :=
  if !mayWrite s p .MAC_PORT_CFG ∨ 2 ≤ n then s
  else
    let old := reg s .MAC_PORT_CFG n 0
    let new := applyWrite .MAC_PORT_CFG old v
    if wbit old 31 ∧ (fld new 9 8 ≠ fld old 9 8 ∨ fld new 1 0 ≠ fld old 1 0) then
      let s1 := setReg .MAC_PORT_CFG n 0 (setFld old 31 31 (fld new 31 31)) s
      if wbit new 31 then s1 else foldS lportDown (lpsOf n) s1
    else
      let s1 := setReg .MAC_PORT_CFG n 0 new s
      if wbit new 31 then foldS (fun lp s => if (lport s lp).up then s else beginUp lp s) (lpsOf n) s1 else foldS lportDown (lpsOf n) s1

/-- A write of MAC_LP_CFG (R201): a port whose RX_EN and TX_EN are both clear goes down; one that is enabled begins to come up. -/
def lpCfgWrite (p : Path) (lp : Nat) (v : Word) (s : State) : State :=
  if !mayWrite s p .MAC_LP_CFG ∨ !lpUsed s lp then s
  else
    let s0 := setReg .MAC_LP_CFG lp 0 (applyWrite .MAC_LP_CFG (lpCfg s lp) v) s
    let host : Bool := match p with
      | .fn _ => true
      | _ => false
    let s1 := if host && wbit (lpCfg s0 lp) 30 != wbit (lpCfg s lp) 30 then ncsiAen 2 lp s0 else s0
    if !lpEnabled s1 lp then lportDown lp s1
    else if (lport s1 lp).up then s1 else beginUp lp s1

/-! ### Receive filters (R208 to R211) -/

/-- An 802.1Q or 802.1ad tag after the addresses: its TCI (R209, R212). -/
def tagTci (bs : Bytes) : Option Nat :=
  let t := beAt bs 12 2
  if t = 0x8100 ∨ t = 0x88A8 then some (beAt bs 14 2) else none

/-- A filter entry's LPORT and VPORT (R209). -/
def fltLport (e : Bytes) : Nat := bits (leAt e 8 2) 15 12
def fltVport (e : Bytes) : Nat := bits (leAt e 8 2) 11 0

/-- Does a filter entry match a frame (R209)? -/
def fltMatches (lp : Nat) (bs : Bytes) (e : Bytes) : Bool :=
  bitOf (byteAt e 10) 0 && fltLport e == lp && slice e 0 6 == slice bs 0 6 &&
    (!bitOf (leAt e 6 2) 12 || (match tagTci bs with
      | some t => t % 4096 == leAt e 6 2 % 4096
      | none => false))

/-- The entry that matches: one with VLAN_MATCH wins (R209). -/
def fltMatch (s : State) (lp : Nat) (bs : Bytes) : Option Bytes :=
  let hits := (s.mac.filters.filter (fun e => fltMatches lp bs e.2)).map Prod.snd
  match hits.find? (fun e => bitOf (leAt e 6 2) 12) with
  | some e => some e
  | none => hits.head?

/-- A vport with an entry of the port in the filter memory has a FLAGS bit set: it is taken as bound to the port (R208). -/
def vportFlag (s : State) (lp bit : Nat) : Bool :=
  s.mac.filters.any (fun e => bitOf (byteAt e.2 10) 0 && fltLport e.2 == lp &&
    (let v := byteAt (mget [] s.tbl.vports (fltVport e.2)) 6; bitOf v 0 && bitOf v bit))

def isBroadcast (bs : Bytes) : Bool := beAt bs 0 6 == 0xFFFFFFFFFFFF
def isMulticast (bs : Bytes) : Bool := bitOf (byteAt bs 0) 0

/-- The bit of an address in the multicast hash (R211). -/
def hashBit (s : State) (lp : Nat) (mac : Bytes) : Bool :=
  let i := crc32 mac % 4096
  wbit (reg s .MAC_MC_HASH (lp * 128 + i / 32) 0) (i % 32)

/-- Is a frame admitted by rules 1 to 5 of R208? -/
def admitted (s : State) (lp : Nat) (bs : Bytes) : Bool :=
  let c := lpCfg s lp
  isBroadcast bs || (fltMatch s lp bs).isSome
    || (isMulticast bs && (hashBit s lp (slice bs 0 6) || wbit c 28 || vportFlag s lp 1)) || wbit c 29 || vportFlag s lp 2

/-- Priority of a received frame (R212): the PCP of its first tag, or DEFAULT_PRIO. -/
def rxPrio (s : State) (lp : Nat) (bs : Bytes) : Nat :=
  match tagTci bs with
  | some t => bits t 15 13
  | none => fld (lpCfg s lp) 18 16

/-! ### Received pause (R212, R213, R216) -/

/-- Is a priority held by received pause now (R213)? -/
def pauseHeld (s : State) (lp p : Nat) : Bool :=
  match (prioSt s lp (fcPrio s lp p)).holdUntil with
  | some t => decide (s.elapsed < t)
  | none => false

/-- A pause time of q quanta arrives for a priority (R213, R216). -/
def pauseTime (lp p q : Nat) (s : State) : State :=
  let x := prioSt s lp p
  let s1 := if 0 < q then modPrio lp p (fun x => { x with lastPause := s.elapsed }) s else s
  if x.rxStorm then s1
  else if q = 0 then modPrio lp p (fun x => { x with holdUntil := none }) s1
  else
    let held := pauseHeld s lp p
    modPrio lp p (fun x => { x with
      holdUntil := some (s.elapsed + ceilDiv (q * 512) (lpRate s lp)), heldSince := if held then x.heldSince else s.elapsed }) s1

/-- A MAC control frame of n bytes is admitted and consumed (R208, R212, R217): PAUSE and PFC are counted, and act where FC_MODE matches. -/
def controlFrame (lp n opcode enable : Nat) (quanta : List Nat) (s0 : State) : State :=
  let s := lpCount lp 1 n (lpCount lp 0 1 s0)
  if opcode ≠ 0x0001 ∧ opcode ≠ 0x0101 then lpCount lp 7 1 s
  else
    let s1 := lpCount lp 6 1 s
    if opcode = 0x0001 ∧ fcMode s lp = 1 then pauseTime lp 0 (quanta.headD 0 % 65536) s1
    else if opcode = 0x0101 ∧ fcMode s lp = 2 then
      foldS (fun p s => if bitOf enable p then pauseTime lp p (quanta.getD p 0 % 65536) s else s) (List.range 8) s1
    else s1

/-- PAUSE_FRAME_RX (R212, R213). -/
def execPauseFrameRx (lp opcode enable : Nat) (quanta : List Nat) (s : State) : Outcome :=
  if !(lport s lp).up then .next s
  else if !wbit (lpCfg s lp) 31 then .next (lpCount lp 5 1 s)
  else .next (controlFrame lp 64 opcode enable quanta s)

/-- PAUSE_HOLD_EXPIRY (R213): the hold ends; the scheduler judges the head frame anew at its next decision. -/
def execPauseHoldExpiry (lp prio : Nat) (s : State) : Outcome :=
  match (prioSt s lp prio).holdUntil with
  | some t => .next (modPrio lp prio (fun x => { x with holdUntil := none }) (advanceTo t s))
  | none => .next s

/-- PAUSE_REFRESH (R214): the pause frame is repeated every REFRESH quanta while the count stays at or above XON_CELLS. -/
def execPauseRefresh (lp prio : Nat) (s : State) : Outcome :=
  let x := prioSt s lp prio
  if !x.xoff ∨ !lossless s lp prio ∨ cellsHeld s lp prio < xonCells s lp prio then .next s
  else
    let q := max 1 (fld (reg s .MAC_LP_FC_REFRESH lp 0) 15 0)
    let s1 := advanceTo (x.lastSent + ceilDiv (q * 512) (lpRate s lp)) s
    .next (modPrio lp prio (fun y => { y with lastSent := s1.elapsed }) (sendPause lp prio (fcQuanta s lp) s1))

/-! ### The pause watchdog (R216) -/

/-- WD_TIME and WD_RECOVER, ns. -/
def wdTime (s : State) (lp : Nat) : Nat := fld (reg s .MAC_LP_WD_CFG lp 0) 15 0 * 1000000
def wdRecover (s : State) (lp : Nat) : Nat := max 1 (fld (reg s .MAC_LP_WD_CFG lp 0) 31 16) * 1000000

/-- PAUSE_RX_STORM (R216): a priority has been held for WD_TIME without a break. -/
def execPauseRxStorm (lp prio : Nat) (s : State) : Outcome :=
  let x := prioSt s lp prio
  match x.holdUntil with
  | some t =>
    if wdTime s lp = 0 ∨ x.rxStorm ∨ t < x.heldSince + wdTime s lp then .next s
    else .next (macEvent 0x04 lp prio (modPrio lp prio (fun x => { x with rxStorm := true, holdUntil := none })
      (advanceTo (x.heldSince + wdTime s lp) s)))
  | none => .next s

/-- PAUSE_TX_STORM (R216): a priority has been in XOFF for WD_TIME without a break. -/
def execPauseTxStorm (lp prio : Nat) (s : State) : Outcome :=
  let x := prioSt s lp prio
  if wdTime s lp = 0 ∨ !x.xoff ∨ !lossless s lp prio then .next s
  else
    let s1 := advanceTo (x.xoffSince + wdTime s lp) s
    let s2 := modPrio lp prio (fun x => { x with xoff := false, txStorm := true, belowSince := none }) (sendPause lp prio 0 s1)
    .next (macEvent 0x05 lp prio (judgeFlow lp prio s2))

/-- The received storm of a priority ends (R216). -/
def rxRecover (lp prio : Nat) (s : State) : State :=
  modPrio lp prio (fun x => { x with rxStorm := false }) (advanceTo ((prioSt s lp prio).lastPause + wdRecover s lp) s)

/-- The transmitted storm of a priority, below XON_CELLS since a moment, ends (R216). -/
def txRecover (lp prio since : Nat) (s : State) : State :=
  judgeFlow lp prio (modPrio lp prio (fun x => { x with txStorm := false, belowSince := none }) (advanceTo (since + wdRecover s lp) s))

/-- STORM_RECOVER (R216): WD_RECOVER has passed without a storm's condition; of two storms the one whose time ends first clears. -/
def execStormRecover (lp prio : Nat) (s : State) : Outcome :=
  let x := prioSt s lp prio
  match x.rxStorm, (if x.txStorm then x.belowSince else none) with
  | true, some t => .next (if x.lastPause ≤ t then rxRecover lp prio s else txRecover lp prio t s)
  | true, none => .next (rxRecover lp prio s)
  | false, some t => .next (txRecover lp prio t s)
  | false, none => .next s

/-! ### Frames enter (R18, R204, R205, R208, R215, R295, R296) -/

/-- A received timestamp: device time and the port's correction, in 2^-16 ns (R205). -/
def rxStamp (s : State) (lp : Nat) : Nat :=
  ((nowFrac s : Int) + signed 32 (reg s .MAC_LP_TS_RX_CORR lp 0).toNat * 256).toNat

/-- A frame cannot get a cell: it is dropped whole and counted in POOL_DROP (R296). -/
def poolDrop (s : State) : State := raise 0x8 0x02 0 .device (bump .TM_STAT 0 0 1 s)

/-- A frame arrives that the filters admit: it is written into cells, unless its priority holds MAX_CELLS or no pool has room. -/
def takeFrame (lp : Nat) (bytes : Bytes) (fcs : Nat) (s : State) : State :=
  let prio := rxPrio s lp bytes
  let p := fcPrio s lp prio
  if maxCells s lp p ≤ cellsHeld s lp p then
    let s1 := lpCount lp 8 1 s
    if lossless s lp p then macEvent 0x06 lp p (lpCount lp 9 1 s1) else s1
  else
    let hit := fltMatch s lp bytes
    let flags := prio + at_ 3 (b2n hit.isSome) + at_ 4 (b2n (isMulticast bytes)) + at_ 5 (b2n (isBroadcast bytes))
    let f : Frame := { ingress := at_ 4 lp, source := srcPort lp, bytes := bytes, asEntered := bytes, fcs := fcs, prio := prio, rxFlags := flags,
                       vport := (hit.map fltVport).getD 0xFFFF, ts := rxStamp s lp, bound := bound16 s }
    let r := newFrame f s
    match takeCells false r.1 (bytes.length + 4) r.2 with
    | some t => judgeFlow lp p t
    | none => poolDrop s

/-- FRAME_RECEIVED (R204, R208, R212): bytes without FCS, and the FCS received. -/
def execFrameReceived (lp : Nat) (bytes : Bytes) (fcs : BitVec 32) (s : State) : Outcome :=
  let n := bytes.length + 4
  if !(lport s lp).up then .next s
  else if n < 64 then .next (lpCount lp 3 1 s)
  else if maxFrame s lp < n then .next (lpCount lp 4 1 s)
  else if !wbit (lpCfg s lp) 31 then .next (lpCount lp 5 1 s)
  else if beAt bytes 12 2 = 0x8808 then
    if fcs.toNat = crc32 bytes then
      .next (controlFrame lp n (beAt bytes 14 2) (if beAt bytes 14 2 = 1 then 0 else beAt bytes 16 2)
        (if beAt bytes 14 2 = 1 then [beAt bytes 16 2] else (List.range 8).map (fun k => beAt bytes (18 + 2 * k) 2)) s)
    else .next (lpCount lp 2 1 s)
  else if !admitted s lp bytes then .next (lpCount lp 5 1 s)
  else .next (takeFrame lp bytes fcs.toNat s)

/-! ### Filters (R210) and statistics (R217) -/

/-- RESULT of MAC_FLT_STATUS for a path, its INDEX kept or set. -/
def fltResult (p : Path) (r : Nat) (idx : Option Nat) (s : State) : State :=
  let old := reg s .MAC_FLT_STATUS 0 (pathCode p)
  setReg .MAC_FLT_STATUS 0 (pathCode p) (w32 (r + at_ 16 (idx.getD (fld old 30 16)))) s

/-- May a path act on a vport's filters (R210)? -/
def fltOwns (s : State) (p : Path) (v : Nat) : Bool :=
  match p with
  | .fn f => inVportRange s (fnPf f) v
  | _ => true

/-- The entry in DATA0 to DATA3 of a path. -/
def fltData (s : State) (p : Path) : Bytes := ((List.range 4).map (fun i => leBytes 4 (reg s .MAC_FLT_DATA i (pathCode p)).toNat)).flatten

/-- The address of an entry: LPORT, MAC, VLAN_MATCH and VID. -/
def fltKey (e : Bytes) : Nat × Nat × Nat := (fltLport e, beAt e 0 6, leAt e 6 2 % 8192)

/-- Is an entry of the filter memory VALID (R209)? An index whose entry is not is free. -/
def fltValid (e : Bytes) : Bool := bitOf (byteAt e 10) 0

/-- An entry is placed as it is held, MULTICAST being a copy of its address's bit, at a free index, which the device chooses (assumption 5); the
result and the index (R209, R210). -/
def fltPlace (e : Bytes) (s : State) : Nat × Option Nat × State :=
  let held := s.mac.filters.filter (fun x => fltValid x.2)
  if held.any (fun x => fltKey x.2 == fltKey e) then (3, none, s)
  else if 32768 ≤ held.length then (4, none, s)
  else
    let r := pickFree (held.map Prod.fst) 32768 s
    match r.1 with
    | some i =>
      let e1 := overwrite e 10 [BitVec.ofNat 8 (b2n (fltValid e) + 2 * b2n (isMulticast e))]
      (0, some i, modMac (fun m => { m with filters := mput m.filters i e1 }) r.2)
    | none => (4, none, s)

/-- ADD (R210). -/
def filterAdd (p : Path) (s : State) : State :=
  if !mayWrite s p .MAC_FLT_CTRL then s
  else
    let e := fltData s p
    if !fltOwns s p (fltVport e) then fltResult p 1 none s
    else if !lpUsed s (fltLport e) ∨ 8192 ≤ leAt e 6 2 ∨ 4 ≤ byteAt e 10 ∨ leAt e 11 5 ≠ 0 then fltResult p 2 none s
    else let r := fltPlace e s; fltResult p r.1 r.2.1 r.2.2

/-- DELETE and READ (R210). A free index names no vport. -/
def filterOther (p : Path) (read : Bool) (index : Nat) (s : State) : State :=
  if !mayWrite s p .MAC_FLT_CTRL then s
  else
    let i := index % 32768
    let e := mfind s.mac.filters i
    if (match e with
      | some e => !fltOwns s p (fltVport e)
      | none => false) then fltResult p 1 none s
    else if read then
      fltResult p 0 none (foldS (fun k s => setReg .MAC_FLT_DATA k (pathCode p) (w32 (leAt (e.getD []) (4 * k) 4)) s) (List.range 4) s)
    else fltResult p 0 none (modMac (fun m => { m with filters := mdel m.filters i }) s)

/-- STAT_SNAP (R217). -/
def statSnap (p : Path) (lp : Nat) (s : State) : State :=
  if !mayWrite s p .MAC_LP_STAT_SNAP ∨ !lpUsed s lp then s
  else
    let one (k : Nat) (s : State) : State :=
      let v := mget 0 (lport s lp).counters k
      setReg .MAC_LP_STAT (lp * 38 + 2 * k + 1) 0 (w32 (v / 2 ^ 32)) (setReg .MAC_LP_STAT (lp * 38 + 2 * k) 0 (w32 v) s)
    setReg .MAC_LP_SNAP_BOUND lp 0 (w32 (bound32 s)) (setPair64 .MAC_LP_SNAP_TIME_LO .MAC_LP_SNAP_TIME_HI lp 0 (now s) (foldS one (List.range 19) s))

end Sys2Proof.Machine
end

