-- ==== Sys2Proof/Machine/SchedOps.lean ====
section
/-!
DEFINITION. The scheduler tree and the gates as shared operations: nodes and their paths, shapers, gate lists at an instant, the judging of
head copies, and the admission of copies to egress queues (R297 to R304, R309 to R315).
-/
namespace Sys2Proof.Machine

/-! ### Nodes (R297) -/

/-- The key of a node: its level (0 port, 1 class, 2 group, 3 queue) and number. -/
def nodeKey (level i : Nat) : Nat := level * 65536 + i

/-- Nodes of a level (R297). -/
def nodeCount (level : Nat) : Nat := match level with
  | 0 => 16
  | 1 => 128
  | 2 => 8192
  | _ => 65536

/-- What TM keeps for a node. -/
def nodeSt (s : State) (k : Nat) : NodeSt := mget {} s.tm.nodes k

/-- s with it changed by g. -/
def modNode (k : Nat) (g : NodeSt → NodeSt) (s : State) : State := modTm (fun t => { t with nodes := mmod {} t.nodes k g }) s

/-- TM_NODE_CFG of a node. -/
def nodeCfg (s : State) (k : Nat) : Word := reg s .TM_NODE_CFG 0 k

/-- Is a node VALID: classes and ports always are (R318)? -/
def nodeValid (s : State) (k : Nat) : Bool := decide (k < nodeKey 2 0) || wbit (nodeCfg s k) 31

/-- The parent of a node; none for a port (R297). -/
def nodeParent (s : State) (k : Nat) : Option Nat :=
  match k / 65536 with
  | 0 => none
  | 1 => some (nodeKey 0 (k % 65536 / 8))
  | 2 => some (nodeKey 1 (fld (nodeCfg s k) 15 0 % 128))
  | _ => some (nodeKey 2 (fld (nodeCfg s k) 15 0 % 8192))

/-- A node and those above it, from the node upwards. -/
def pathUp (s : State) (k : Nat) : List Nat :=
  match nodeParent s k with
  | none => [k]
  | some a => match nodeParent s a with
    | none => [k, a]
    | some b => match nodeParent s b with
      | none => [k, a, b]
      | some c => [k, a, b, c]

/-- Cell units that a queue's copies hold (R298). -/
def queueUnits (s : State) (n : NodeSt) : Nat :=
  n.copies.foldl (fun u c => u + ((frameOf s c.frame).map frameUnits).getD 0) 0

/-- Queues that hold copies, as node keys. -/
def busyQueues (s : State) : List Nat := (s.tm.nodes.filter (fun e => !e.2.copies.isEmpty)).map Prod.fst

/-- Queues with copies in a node's subtree. -/
def busyUnder (s : State) (k : Nat) : List Nat := (busyQueues s).filter (fun q => (pathUp s q).contains k)

/-- Cell units held in a node's subtree (R318). -/
def nodeDepth (s : State) (k : Nat) : Nat := (busyUnder s k).foldl (fun u q => u + queueUnits s (nodeSt s q)) 0

/-! ### Shapers (R303, R304) -/

/-- RATE, BURST, CREDIT_CAP and LEN_ADJ of a node. -/
def nodeRate (s : State) (k : Nat) : Nat := (reg s .TM_NODE_RATE 0 k).toNat
def nodeBurst (s : State) (k : Nat) : Nat := fld (reg s .TM_NODE_BURST 0 k) 23 0
def nodeCap (s : State) (k : Nat) : Bool := wbit (reg s .TM_NODE_BURST 0 k) 31
def nodeAdj (s : State) (k : Nat) : Int := signed 8 (fld (reg s .TM_NODE_ADJ 0 k) 7 0)

/-- A byte in the unit of tokens, 10^-6 bit. -/
def tokenByte : Nat := 8000000

/-- The tokens of a node before credit: BURST, or 0 with CREDIT_CAP, until it has been filled. -/
def nodeTokens (s : State) (k : Nat) : Int :=
  let n := nodeSt s k
  if n.filled then n.tokens else if nodeCap s k then 0 else (nodeBurst s k * tokenByte : Nat)

/-- Tokens as R304 limits them: at most BURST, and at most 0 while CREDIT_CAP is set and the subtree holds no copy. -/
def capTokens (s : State) (k : Nat) (t : Int) : Int :=
  let a := min t ((nodeBurst s k * tokenByte : Nat) : Int)
  if nodeCap s k && (busyUnder s k).isEmpty then min a 0 else a

/-- Credit to now: RATE in kb/s is RATE units of 10^-6 bit a nanosecond (R304). -/
def applyCredit (k : Nat) (s : State) : State :=
  let dt := s.elapsed - (nodeSt s k).creditAt
  let t := capTokens s k (nodeTokens s k + (nodeRate s k * dt : Nat))
  modNode k (fun n => { n with tokens := t, filled := true, creditAt := s.elapsed }) s

/-- Credit to now for every node of a queue's path. -/
def creditPath (q : Nat) (s : State) : State := foldS applyCredit (pathUp s q) s

/-- Does a node's shaper allow (R300)? -/
def shaperAllows (s : State) (k : Nat) : Bool := nodeRate s k == 0 || decide (0 ≤ nodeTokens s k)

/-- L_wire of a copy: padded to 64 bytes with its FCS (R303). -/
def wireLen (c : Copy) : Nat := max 64 (c.bytes.length + 4)

/-- The accounted length of a frame at a node (R303). -/
def accounted (s : State) (k len : Nat) : Nat := ((len : Int) + nodeAdj s k).toNat

/-! ### Gates (R311 to R315) -/

/-- The list that governs a port at device time t, ns: a pending list from its change time, the operational one before. -/
def gateListAt (p : LPort) (t : Nat) : Option GateList :=
  match p.pending with
  | some l => if l.change ≤ t then some l else p.oper
  | none => p.oper

/-- Is ENABLE of MAC_GATE_CFG set? -/
def gateEnabled (s : State) (lp : Nat) : Bool := wbit (reg s .MAC_GATE_CFG lp 0) 0

/-- The stretches of one cycle, as (length, gate states): the last entry lasts to the cycle's end, and an entry in force there is cut
short (R311). -/
def cycleParts (cycle : Nat) : List (Nat × Nat) → Nat → List (Nat × Nat)
  | [], _ => []
  | [e], at_ => if at_ < cycle then [(cycle - at_, e.2)] else []
  | e :: t, at_ => if cycle ≤ at_ + e.1 then (if at_ < cycle then [(cycle - at_, e.2)] else []) else (e.1, e.2) :: cycleParts cycle t (at_ + e.1)

def gateParts (l : GateList) : List (Nat × Nat) := cycleParts l.cycle l.entries 0

/-- The position in the cycle at t: cycles start at every base + k * cycle, k any integer (R311). -/
def cyclePos (l : GateList) (t : Nat) : Nat := (((t : Int) - l.base) % (max 1 l.cycle : Nat)).toNat

/-- The entry in force at a position of the cycle, its states, and what remains of it. -/
def partAt : List (Nat × Nat) → Nat → Nat → Nat × Nat × Nat
  | [], i, _ => (i, 0xFF, 0)
  | (n, g) :: t, i, pos => if pos < n then (i, g, n - pos) else partAt t (i + 1) (pos - n)

/-- Gate states in force at device time t, ns (R311). -/
def gatesAt (s : State) (lp t : Nat) : Nat :=
  if !gateEnabled s lp then 0xFF
  else match gateListAt (lport s lp) t with
  | none => fld (reg s .MAC_GATE_CFG lp 0) 15 8
  | some l => (partAt (gateParts l) 0 (cyclePos l t)).2.1

/-- How long gate c stays open through stretches, from their start; none where it does not close in them. -/
def openRun (c : Nat) : List (Nat × Nat) → Nat → Option Nat
  | [], _ => none
  | (n, g) :: t, acc => if bitOf g c then openRun c t (acc + n) else some acc

/-- How long gate c of a list stays open from position pos, none for ever. -/
def openLeft (l : GateList) (c pos : Nat) : Option Nat :=
  let ps := gateParts l
  let x := partAt ps 0 pos
  openRun c ((x.2.2, x.2.1) :: (ps.drop (x.1 + 1) ++ ps)) 0

/-- The next instant, device ns, at which gate c closes, seen from t while it is open; none where it never does (R314). -/
def nextClose (s : State) (lp c t : Nat) : Option Nat :=
  if !gateEnabled s lp then none
  else
    let p := lport s lp
    let within : Option Nat := match gateListAt p t with
      | some l => (openLeft l c (cyclePos l t)).map (· + t)
      | none => none
    match p.pending with
    | some l =>
      if l.change ≤ t then within
      else
        let after : Option Nat := match l.entries.head? with
          | some e => if bitOf e.2 c then (openLeft l c 0).map (· + l.change) else some l.change
          | none => none
        match within with
        | some x => if x ≤ l.change then some x else after
        | none => after
    | none => within

/-- The longest stretch of a list's cycle through which gate c stays open, none for ever (R315). -/
def longestOpen (l : GateList) (c : Nat) : Option Nat :=
  let ps := gateParts l
  if ps.all (fun e => bitOf e.2 c) then none
  else
    let runs := (ps ++ ps).foldl (fun (a : Nat × Nat) e => if bitOf e.2 c then (max a.1 (a.2 + e.1), a.2 + e.1) else (a.1, 0)) (0, 0)
    some runs.1

/-- MAC_GATE_WINDOW_c of a port now (R315). -/
def gateWindow (s : State) (lp c : Nat) : Option Nat :=
  if !gateEnabled s lp then none
  else match gateListAt (lport s lp) (now s) with
  | some l => longestOpen l c
  | none => none

/-- Time to pass n bytes on a port's wire, in units of 5 ps (R314). -/
def wireTime (s : State) (lp n : Nat) : Nat := n * 1600 / lpRate s lp

/-! ### Starting instants (R205, R309, R314) -/

/-- The instant at which a port may start its next frame, in units of 5 ps of the Cairn clock. -/
def startAt (s : State) (lp : Nat) : Nat := max (lport s lp).freeAt (s.elapsed * 200)

/-- That instant as device time, in units of 2^-16 ns. -/
def startTime (s : State) (lp : Nat) : Nat := nowFrac s + (startAt s lp - s.elapsed * 200) * 65536 / 200

/-- The transmit timestamp of a frame that starts then, 2^-16 ns: the first bit after preamble and delimiter, corrected (R205). -/
def txStamp (s : State) (lp : Nat) : Nat :=
  ((startTime s lp + wireTime s lp 8 * 65536 / 200 : Nat) + signed 32 (reg s .MAC_LP_TS_TX_CORR lp 0).toNat * 256 : Int).toNat

/-- May a copy of class c start now under its gate (R314)? -/
def gateAdmits (s : State) (lp c : Nat) (x : Copy) : Bool :=
  let t := startTime s lp
  let ns := t / 65536
  bitOf (gatesAt s lp ns) c &&
    (match nextClose s lp c ns with
     | none => true
     | some e => decide (t + wireTime s lp (wireLen x + 8) * 65536 / 200 ≤ e * 65536))

/-- Has a copy's launch time been reached (R309)? -/
def launched (s : State) (lp : Nat) (x : Copy) : Bool :=
  match x.launch with
  | some t => decide (t * 65536 ≤ txStamp s lp)
  | none => true

/-! ### Copies at the head of a queue (R202, R204, R309, R315) -/

/-- The class that a queue stands under. -/
def queueClass (s : State) (q : Nat) : Nat := (((pathUp s q)[2]?).getD 0) % 8

/-- How the head copy of a queue is dropped as it is judged, with its counter: at a down port, too long for the port, late, or too long
for any opening of its gate. -/
def headDrop (s : State) (q : Nat) (x : Copy) : Option (State → State) :=
  let lp := x.lport
  if !(lport s lp).up then some (lpCount lp 13 1)
  else if x.judged then none
  else if maxFrame s lp < wireLen x then some (lpCount lp 14 1)
  else if wbit (nodeCfg s q) 29 && (match x.launch with
      | some t => decide (t + (reg s .TM_LAUNCH_LATE 0 0).toNat < now s)
      | none => false) then some (bump .TM_STAT 3 0 1)
  else match gateWindow s lp (queueClass s q) with
  | some w => if w * 200 < wireTime s lp (wireLen x + 8) then some (bump .TM_STAT 4 0 1) else none
  | none => none

/-- A queue's subtree ancestors that hold no copy any more have D set to 0, and keep no credit under CREDIT_CAP (R301, R304). -/
def subtreeEmptied (q : Nat) (s : State) : State :=
  foldS (fun k s => if (busyUnder s k).isEmpty then
    modNode k (fun n => { n with deficit := 0, tokens := if nodeCap s k then min n.tokens 0 else n.tokens }) s else s) (pathUp s q) s

/-- The head copy leaves a queue. -/
def popHead (q : Nat) (s : State) : State := subtreeEmptied q (modNode q (fun n => { n with copies := n.copies.drop 1 }) (creditPath q s))

/-- Copies at the head of a queue are judged until one stays, or none is left; each that is dropped has finished (R22, R202). -/
def judgeHead (q : Nat) : Nat → State → State
  | 0, s => s
  | fuel + 1, s =>
    match (nodeSt s q).copies.head? with
    | none => s
    | some x =>
      match headDrop s q x with
      | some count => judgeHead q fuel (copyDone x.frame .lost (now s) (bound16 s) (count (popHead q s)))
      | none => modNode q (fun n => { n with copies := n.copies.set 0 { x with judged := true } }) s

/-- The head of a queue is judged. -/
def judgeQueue (q : Nat) (s : State) : State := judgeHead q ((nodeSt s q).copies.length + 1) s

/-! ### Admission (R298, R299) -/

/-- The queue that a DELIVER_PORT names, as a node key: the class default queue, or the queue itself; none for BAD_QUEUE_DROP (R298). -/
def portQueue (s : State) (lp q cls : Nat) (default_ : Bool) : Option Nat :=
  let d := reg s .TM_NODE_DEFQ 0 (nodeKey 1 (8 * lp + cls))
  let k := nodeKey 3 (if default_ then fld d 15 0 else q)
  if 16 ≤ lp ∨ (default_ ∧ !wbit d 31) ∨ !nodeValid s k then none
  else match nodeParent s k with
  | some g => if nodeValid s g ∧ fld (nodeCfg s k) 15 0 < 8192 ∧ fld (nodeCfg s g) 15 0 / 8 = lp then some k else none
  | none => none

/-- The limit of a queue for a colour (R298). -/
def colourLimit (s : State) (k colour : Nat) : Nat :=
  fld (reg s (if colour = 0 then .TM_NODE_QLIMIT_G else if colour = 1 then .TM_NODE_QLIMIT_Y else .TM_NODE_QLIMIT_R) 0 k) 23 0

/-- The submitting SQ, or the injection path, of a frame stops for an egress queue (R299): queues of Akzal ports are numbered from
0x20000. -/
def holdSource (f : Frame) (eg : Nat) (s : State) : State :=
  match f.origin with
  | some (fn, q, _) => modQueue fn q (fun u => { u with heldBy := some eg }) s
  | none => if f.injected.isSome then modTm (fun t => { t with injectHeld := some eg }) s else s

/-- Is a frame never dropped for a queue limit: from a host SQ or the injection path (R299)? -/
def neverLimited (f : Frame) : Bool := f.origin.isSome || f.injected.isSome

/-- A copy that is not queued has finished, as at a down port (R22, R202, R298). -/
def lostCopy (id : Nat) (s : State) : State := copyDone id .lost (now s) (bound16 s) s

/-- A copy is admitted to a queue of a logical port, or is dropped (R298, R299). src: the frame that the host or a thread sent, whose hold
R299 names. -/
def admitCopy (src : Frame) (k : Nat) (c : Copy) (s : State) : State :=
  let tooDeep := decide (colourLimit s k c.colour ≤ queueUnits s (nodeSt s k))
  let q := k % 65536
  if tooDeep && !neverLimited src then
    lostCopy c.frame (raise 0x8 0x03 q .device (bump .TM_NODE_DROPS 0 k 1 (bump .TM_STAT 1 0 1 s)))
  else
    let s1 := modNode k (fun n => { n with copies := n.copies ++ [c] }) (creditPath k s)
    judgeQueue k (if tooDeep then holdSource src q s1 else s1)

/-- Every queue of a logical port is judged, as where it is down (R202). -/
def judgePort (lp : Nat) (s : State) : State := foldS judgeQueue (busyUnder s (nodeKey 0 lp)) s

end Sys2Proof.Machine
end

