-- ==== Sys2Proof/Machine/SvcCmds.lean ====
section
/-!
DEFINITION. The commands of service_cores on waits, injections, stalls, domains, channels, cores, the debugger and mailboxes.
-/
namespace Sys2Proof.Machine

/-- An SVC_STAT counter (R410): 0 CHAN_DROP, 1 HANDLE_DROP, 2 RESTART_DROP, 3 STALLS, 4 LANE_RETRIES. -/
def svcStat (k n : Nat) (s : State) : State := bump .SVC_STAT k 0 n s

/-! ### Waits and interrupts (R394, R395, R406) -/

/-- WAIT_DEADLINE (R394): device time reaches the deadline of a wait, which ends with rd = 0. -/
def execWaitDeadline (thread : Nat) (s : State) : Outcome :=
  let h := Machine.thread s thread
  match h.deadline with
  | some d => if h.st = .waiting ∧ !h.halted then .next (endWait thread 0 (advanceTai d s)) else .next s
  | none => .next s

/-- The supervisor of a domain (R406, R410). -/
def supervisor (s : State) (d : Nat) : Nat := fld (reg s .SVC_DOMAIN_CFG 0 d) 9 0

/-- A thread abandons its wait, without effect: it runs again from the waiting instruction (R394). -/
def abandonWait (t : Nat) (s : State) : State :=
  let d := (thread s t).domain
  if (thread s t).st ≠ .waiting then s
  else modSvc (fun u => { u with domains := mmod {} u.domains d (fun x => { x with stalled := false }) })
    (modThread t (fun h => { h with st := .running, wait := none, deadline := none }) s)

/-- A trap into M mode: mepc, mcause and mtval take the pc, the cause and its value; MPIE, MIE and MPP follow; the pc goes to mtvec, by vector for
an interrupt in vectored mode (R388, R395). -/
def trap (interrupt : Bool) (cause value : Nat) (t : Nat) (s : State) : State :=
  modThread t (fun h =>
    let st := mget 0 h.csr 0x300
    let st1 := at_ 7 (b2n (bitOf st 3)) + at_ 11 (if h.mmode then 3 else 0) + (st &&& (2 ^ 17 + 2 ^ 21))
    let tv := mget 0 h.csr 0x305
    let c1 := mset 0 (mset 0 (mset 0 (mset 0 h.csr 0x341 h.pc) 0x342 (cause + at_ 63 (b2n interrupt))) 0x343 value) 0x300 st1
    { h with mmode := true, csr := c1, reserved := none, pc := tv / 4 * 4 + (if interrupt && tv % 4 == 1 then 4 * cause else 0) }) s

/-- Is interrupt 16 enabled for a thread (R395)? -/
def stallEnabled (h : Thread) : Bool := bitOf (mget 0 h.csr 0x304) 16 && (!h.mmode || bitOf (mget 0 h.csr 0x300) 3)

/-- The domains whose STALL interrupt is pending for a thread. -/
def stallPending (s : State) (t : Nat) : List Nat := (s.svc.domains.filter (fun e => e.2.irq && supervisor s e.1 == t)).map Prod.fst

/-- A thread takes the STALL interrupt, where it is pending and enabled, and neither FREE nor halted (R394, R395, R406). -/
def takeStall (t : Nat) (s : State) : State :=
  let h := thread s t
  match stallPending s t with
  | [] => s
  | d :: _ =>
    if (h.st = .running ∨ h.st = .waiting) ∧ !h.halted ∧ stallEnabled h then
      trap true 16 0 t (abandonWait t (modSvc (fun u => { u with domains := mmod {} u.domains d (fun x => { x with irq := false }) }) s))
    else s

/-- Is a thread's wait internal to its domain (R406)? -/
def internalWait (s : State) (h : Thread) : Bool :=
  match h.wait with
  | some (.recv c) => !wbit (chCfg s c) 29 && !wbit (chCfg s c) 28 && fld (chCfg s c) 21 16 == h.domain
  | some (.send c) => fld (chCfg s c) 13 8 == h.domain
  | some (.join _) => true
  | _ => false

/-- Is a domain stalled (R406)? -/
def stalledNow (s : State) (d : Nat) : Bool :=
  let ts := s.svc.threads.filter (fun e => e.2.domain == d && e.2.st != .free)
  !ts.isEmpty && ts.all (fun e => e.2.st == .waiting && !e.2.halted && e.2.deadline.isNone && internalWait s e.2)

/-- STALL (R406): once per stall. -/
def execStall (domain : Nat) (s : State) : Outcome :=
  let x := mget ({} : Domain) s.svc.domains domain
  if 64 ≤ domain ∨ x.stalled ∨ !stalledNow s domain then .next s
  else
    let s1 := modSvc (fun u => { u with domains := mmod {} u.domains domain (fun x => { x with stalled := true, irq := true }) }) s
    .next (takeStall (supervisor s domain) (raise 0xC 0x11 domain .device (svcStat 3 1 s1)))

/-! ### Injection (R402) -/

/-- The status of an INJECT message: BAD_OPCODE, BAD_CONTEXT and BAD_LENGTH, 0 where it is accepted. -/
def injectStatus (s : State) (m : ChMsg) : Nat :=
  let w := (m.words.map (leBytes 8)).flatten
  let h := mfind s.svc.handles (leAt w 4 2)
  if m.words.length ≠ 5 ∨ byteAt w 0 ≠ 0x10 ∨ 4 ≤ byteAt w 1 ∨ leAt w 6 2 ≠ 0 ∨ 32 ≤ byteAt w 10 ∨ byteAt w 11 ≠ 0 ∨ byteAt w 15 ≠ 0
    ∨ 16 ≤ byteAt w 25 ∨ leAt w 26 6 ≠ 0 then 0x01
  else if leAt w 8 2 < 14 then 0x02
  else match h with
  | none => 0x04
  | some x =>
    if x.owner ≠ .domain m.domain then 0x04
    else if x.bytes.length < leAt w 8 2 then 0x02
    else 0

/-- INJECT (R402): the oldest message of channel 2, while nothing holds the injection path (R296, R299). -/
def execInject (s : State) : Outcome :=
  match chMsgs s 2 with
  | [] => .next s
  | m :: _ =>
    if s.tm.injectHeld.isSome ∨ !cellFree s then .next s
    else
      let w := (m.words.map (leBytes 8)).flatten
      let s1 := roomMade 2 (modMsgs 2 (·.drop 1) s)
      let st := injectStatus s m
      let reply := leAt w 2 2
      let tag := leAt w 32 8
      match mfind s.svc.handles (leAt w 4 2) with
      | some x =>
        if st ≠ 0 then .next (sendDone 0x11 reply st tag m.domain m.epoch s1)
        else
          let bytes := x.bytes.take (leAt w 8 2)
          let f : Frame := { ingress := 3 + at_ 4 (leAt w 24 2), source := srcInject, bytes := bytes, asEntered := bytes, ended := true,
                             ochre := x.ochre, umber := x.umber, sienna := x.sienna, ts := nowFrac s, bound := bound16 s, metadata := leAt w 16 8,
                             entryPoint := if bitOf (byteAt w 1) 1 then none else some (byteAt w 10),
                             flowIndex := if bitOf (byteAt w 1) 0 then some (leAt w 12 3) else none,
                             injected := some (reply, tag, m.domain, m.epoch) }
          .next (newFrame f (modSvc (fun v => { v with handles := mdel v.handles (leAt w 4 2) }) s1)).2
      | none => .next (sendDone 0x11 reply st tag m.domain m.epoch s1)

/-! ### Domains (R407) -/

/-- The domain that firmware has selected. -/
def domSelected (s : State) : Nat := fld (reg s .SVC_DOMAIN_SELECT 0 (pathCode .firmware)) 5 0

/-- May a thread write SVC_DOMAIN_CTRL of a domain: its supervisor, or that of domain 0? -/
def controlsDomain (s : State) (t d : Nat) : Bool := t == supervisor s d || t == supervisor s 0

/-- RESULT of SVC_DOMAIN_CTRL, as firmware sees it (R476). -/
def domResult (r : Nat) (s : State) : State := setReg .SVC_DOMAIN_STATUS 0 (pathCode .firmware) (w32 (at_ 13 r)) s

/-- RESTART of the selected domain by a thread. -/
def domainRestart (t : Nat) (s : State) : State :=
  let d := domSelected s
  if !controlsDomain s t d then domResult 1 s
  else
    let s1 := killThreads (fun k h => h.domain == d && k != supervisor s d) s
    let s2 := modSvc (fun v => { v with
      domains := mmod {} v.domains d (fun x => { x with epoch := (x.epoch + 1) % 65536 }),
      deferred := v.deferred.filter (fun e => !owedTo d (domEpoch s d) e.2) }) s1
    domResult 0 (if fld (chCfg s 4) 13 8 = d then dropH2f s2 else s2)

def execDomainRestart (thread : Nat) (s : State) : Outcome := .next (domainRestart thread s)

/-- FREE_HANDLES of the selected domain by a thread. -/
def freeHandles (t : Nat) (s : State) : State :=
  let d := domSelected s
  if !controlsDomain s t d then domResult 1 s
  else
    let hs := (s.svc.handles.filter (fun e => e.2.owner == .domain d)).map Prod.fst
    domResult 0 (svcStat 2 hs.length (foldS freeHandle hs s))

def execFreeHandles (thread : Nat) (s : State) : Outcome := .next (freeHandles thread s)

/-! ### Channel configuration (R397) -/

/-- Slots of the channel store in use: 17,664 for the reserved channels (R397). -/
def slotsUsed (s : State) : Nat :=
  17664 + ((s.svc.channels.filter (fun e => decide (16 ≤ e.1) && wbit e.2.cfg 31)).map (fun e => 2 ^ fld e.2.cfg 3 0)).foldl (· + ·) 0

/-- Does a channel hold messages, or has it a thread waiting on it? -/
def chBusy (s : State) (c : Nat) : Bool :=
  !(chMsgs s c).isEmpty || (longestWaiter s (fun w => w == .recv c || w == .send c)).isSome

/-- A write of SVC_CH_CFG of the selected channel. -/
def chCfgWrite (p : Path) (v0 : Word) (s : State) : State :=
  let c := fld (reg s .SVC_CH_SELECT 0 (pathCode p)) 13 0
  let v := readMask .SVC_CH_CFG v0
  let old := chCfg s c
  let rx := w32 (maskOf 13 8)
  let result (r : Nat) (s : State) : State := setReg .SVC_CH_STATUS 0 (pathCode p) (w32 (at_ 16 r)) s
  let put (w : Word) (s : State) : State := modSvc (fun x => { x with channels := mmod {} x.channels c (fun y => { y with cfg := w }) }) s
  if !mayWrite s p .SVC_CH_CFG then s
  else if v ≠ old ∧ wbit old 31 ∧ chBusy s c then result 1 s
  else if c < 16 then
    (if v = old then result 0 s
     else if (c = 0 ∨ c = 3 ∨ c = 4) ∧ v &&& ~~~ rx = old &&& ~~~ rx then result 0 (put (v &&& rx) s)
     else result 1 s)
  else if fld v 3 0 < 4 ∨ 12 < fld v 3 0 then result 1 s
  else
    let others := slotsUsed s - (if wbit old 31 then 2 ^ fld old 3 0 else 0)
    if wbit v 31 ∧ 1048576 < others + 2 ^ fld v 3 0 then result 2 s else result 0 (put v s)

/-! ### Cores (R391) -/

/-- Does a logical core run: its physical core is active and not gated (R78, R391)? -/
def coreUp (s : State) (core : Nat) : Bool :=
  (activeUnits s 3).contains (corePhys s core) && (domainSt s (.svcCore (corePhys s core))).st == .running

/-- LANE_MISMATCH: the instruction that a running core has issued is issued again, and REL charges the core's Scree counter. -/
def execLaneMismatch (core : Nat) (s : State) : Outcome :=
  if coreUp s core then .next (countFault 3 (corePhys s core) 0 false (svcStat 4 1 s)) else .next s

/-- CONTEXT_EXCHANGE: a core that holds more contexts than it runs takes in the one that has waited longest. -/
def execContextExchange (core : Nat) (s : State) : Outcome :=
  let l := coreContexts s core
  if l.length ≤ 16 then .next s else .next (modSvc (fun v => { v with hosts := mput v.hosts core (l.drop 1 ++ l.take 1) }) s)

/-! ### The debugger (R394, R405, R455) -/

/-- DEBUG_HALT, with the CORE permission: at the next instruction boundary; a wait is abandoned. -/
def execDebugHalt (thread : Nat) (s : State) : Outcome :=
  if !debugGrants s 1 ∨ (Machine.thread s thread).st = .free ∨ (Machine.thread s thread).st = .zombie then .next s
  else .next (modThread thread (fun h => { h with halted := true }) (abandonWait thread s))

/-- DEBUG_RESUME: the thread goes on, and an abandoned wait runs again. -/
def execDebugResume (thread : Nat) (s : State) : Outcome :=
  if !debugGrants s 1 then .next s else .next (takeStall thread (modThread thread (fun h => { h with halted := false }) s))

/-- HARTRESET: the thread ends as under TKILL. -/
def execHartreset (thread : Nat) (s : State) : Outcome :=
  if !debugGrants s 1 ∨ !live s thread then .next s else .next (endThread thread (2 ^ 64 - 1) s)

/-! ### Mailboxes (R408) -/

/-- MBX_SEND: a write of MBX_H2F_CTRL. -/
def mbxSend (f : Fn) (v : Word) (s : State) : State :=
  if !hasMailbox s f ∨ !wbit v 31 then s
  else if (mbxOf s f).h2fFull then hwSet .MBX_STATUS 0 (fnCode f) 3 s
  else
    let len := min 56 (fld v 5 0)
    let data := ((List.range 14).map (fun i => leBytes 4 (reg s .MBX_H2F_DATA i (fnCode f)).toNat)).flatten
    let body := slice (data.take len) 0 56
    devSend 4 ((0x20 + at_ 8 len + at_ 16 (fnCode f)) :: (List.range 7).map (fun i => leAt body (8 * i) 8))
      (modMbx f (fun b => { b with h2fFull := true }) s)

/-- MBX_F2H_POP: what the read returns, and the state after it. -/
def mbxPop (f : Fn) (s : State) : Word × State :=
  let b := mbxOf s f
  if !b.f2hFull then (0, s)
  else (w32 (b.f2h.length + at_ 31 1), devSend 4 [0x22 + at_ 16 (fnCode f)] (modMbx f (fun b => { b with f2hFull := false, f2h := [] }) s))

/-- FMBX_SEND: a write of SVC_FMBX_CTRL by firmware. -/
def fmbxSend (p : Path) (v : Word) (s : State) : State :=
  if !mayWrite s p .SVC_FMBX_CTRL ∨ !wbit v 31 then s
  else
    let data := ((List.range 14).map (fun i => leBytes 4 (reg s .SVC_FMBX_DATA i (pathCode p)).toNat)).flatten
    let r := f2hSend (fnOfCode (fld v 14 0)) (data.take (min 56 (fld v 21 16))) s
    setReg .SVC_FMBX_STATUS 0 (pathCode p) (w32 r.1) r.2

end Sys2Proof.Machine
end

