-- ==== Sys2Proof/Machine/Deliver.lean ====
section
/-!
DEFINITION. Deliveries of copies: to receive queues of vports, through indirection tables, to logical ports, to service channels and along
the cascade (R21, R167, R186, R187, R193, R247, R265, R267, R298, R400, R419, R421).
-/
namespace Sys2Proof.Machine

/-! ### Counters of vports (R280) -/

/-- A counter takes one frame of n bytes; both counts wrap modulo 2^64. -/
def countAt (i n : Nat) (s : State) : State :=
  modTbl (fun t => { t with counters := mmod (0, 0) t.counters i (fun c => ((c.1 + 1) % 2 ^ 64, (c.2 + n) % 2 ^ 64)) }) s

/-- Statistic k of vport v: 0 delivered, 1 sent, 2 host down, 3 no buffer, 4 frozen, 5 SPOOF_CHECK, 6 VLAN_ENFORCE (R280). -/
def vportStat (v k n : Nat) (s : State) : State := if v < 4096 then countAt (16 * v + k) n s else s

/-- A TBL_STAT counter (R292). -/
def tblStat (k : Nat) (s : State) : State := bump .TBL_STAT k 0 1 s

/-- The frame that the block received, whose mirror copy a frame may be. -/
def rootFrame (s : State) (f : Frame) : Frame :=
  match f.parent.bind (frameOf s) with
  | some g => g
  | none => f

/-- A copy has been delivered (R22). -/
def delivered (id : Nat) (s : State) : State := copyDone id .delivered (now s) (bound16 s) s

/-! ### Service channels (R400, R401) -/

/-- A context block as bytes, fields in network order (R260). -/
def ctxBytes (c : Ctx) : Bytes :=
  beBytes 2 c.srcVport ++ beBytes 2 c.vsi ++ beBytes 2 c.vrf ++ beBytes 2 c.tunnel ++ beBytes 8 c.user ++ List.replicate 16 0

/-- Words of a message from its bytes (R400). -/
def wordsOf (n : Nat) (bs : Bytes) : List Nat := (List.range n).map (fun i => leAt bs (8 * i) 8)

/-- The FRAME message of a handle (R400). -/
def frameWords (f : Frame) (k len reason origin vport : Nat) (flow : Option Nat) : List Nat :=
  wordsOf 8 ([1, BitVec.ofNat 8 reason, BitVec.ofNat 8 origin, 0] ++ leBytes 4 k ++ leBytes 2 len ++ leBytes 2 f.ingress ++ leBytes 2 vport ++ [0, 0]
    ++ leBytes 8 (toNs f.ts) ++ leBytes 2 f.bound ++ List.replicate 6 0 ++ slice f.hv 32 8 ++ leBytes 8 f.metadata
    ++ (match flow with
        | some i => leBytes 4 (i + at_ 31 1)
        | none => leBytes 4 0) ++ List.replicate 12 0)

/-- A copy of frame id goes to a channel as a FRAME message with SOURCE 1, or is dropped and counted; either way it has finished (R400).
Its handle shares the frame's cells (R295, R401). -/
def deliverChannel (id c reason origin : Nat) (bytes : Bytes) (flow : Option Nat) (s : State) : State :=
  match frameOf s id with
  | none => s
  | some f =>
    let cfg := chCfg s c
    if 16384 ≤ c ∨ !wbit cfg 31 ∨ !wbit cfg 30 then lostCopy id (bump .SVC_STAT 0 0 1 s)
    else if chFull s c then lostCopy id (raise 0xC 0x10 c .device (bump .SVC_STAT 0 0 1 s))
    else match freeHandleNo s with
    | none => lostCopy id (bump .SVC_STAT 1 0 1 s)
    | some k =>
      let x : Handle := { owner := .channel c, hv := f.hv, ctx := if origin = 0 then List.replicate 32 0 else ctxBytes f.ctx, bytes := bytes,
                          share := some id, port := if f.ingress % 8 = 0 ∧ f.parent.isNone then some (f.ingress / 16, f.prio) else none }
      let words := frameWords f k bytes.length reason origin (if origin = 0 then 0xFFFF else f.ctx.srcVport) flow
      delivered id (commitMsg c { words := words, source := 1 } (modSvc (fun v => { v with handles := mput v.handles k x }) s))

/-! ### Receive queues (R21, R167, R168, R187, R193) -/

/-- The buffers of a queue that hold no data yet, up to the one with which they hold n bytes; none where they do not. -/
def buffersFor : Nat → List Work → Option (List Work)
  | _, [] => none
  | n, w :: t =>
    let len := entryField w.entry 24 4
    if n ≤ len then some [w] else (buffersFor (n - len) t).map (w :: ·)

/-- A frame's bytes go to its buffers, each of which completes by itself with COVERED 1 (R167, R168). L3_OK and L4_OK are free values: the
spec names the bits and no rule for them (assumption 81). -/
def fillBuffers (fn : Fn) (q ts bound flags : Nat) (hash : Bytes) : List Work → Bytes → State → State
  | [], _, s => s
  | w :: t, bs, s =>
    let n := min bs.length (entryField w.entry 24 4)
    let rest := bs.drop n
    let r := takeFree s
    let rx := b2n (!rest.isEmpty) + at_ 1 (r.1 % 4) + flags
    let extra := leNat ([BitVec.ofNat 8 rx] ++ leBytes 4 n ++ hash)
    let d : Done := { status := 0, ts := ts, bound := bound, extra := extra }
    let s1 := payloadWrite fn (qPasid (queue s fn q)) (entryField w.entry 16 8) (bs.take n) r.2
    fillBuffers fn q ts bound flags hash t rest (modWork fn q w.ctr (fun w => { w with filled := n, done := some d }) s1)

/-- HIF_VF_PERM of a VF. -/
def vfPerm (s : State) (f : Fn) : Word := reg s .HIF_VF_PERM 0 (fnCode f)

/-- The bindings of vports and the permissions as they stand (R186, R187). -/
def bindingsNow (s : State) : List (Nat × Nat × Word) :=
  s.hif.fns.filterMap (fun e => e.2.vport.map (fun v => (e.1, v, reg s .HIF_VF_PERM 0 e.1)))

/-- The bindings that a frame meets: those in force when it, or the frame it is a copy of, was parsed (R186, R187). -/
def bindingsOf (s : State) (f : Frame) : List (Nat × Nat × Word) := (rootFrame s f).bindings.getD (bindingsNow s)

/-- The function that a frame finds bound to vport v (R186). -/
def boundFn (s : State) (f : Frame) (v : Nat) : Option Fn := ((bindingsOf s f).find? (fun b => b.2.1 == v)).map (fun b => fnOfKey b.1)

/-- The permissions of a VF that a frame finds (R187). -/
def permSeen (s : State) (f : Frame) (fn : Fn) : Word :=
  (((bindingsOf s f).find? (fun b => b.1 == fnCode fn)).map (fun b => b.2.2)).getD (vfPerm s fn)

/-- Does VLAN_ENFORCE keep a frame from a VF (R187)? -/
def vlanRefused (s : State) (f : Frame) (fn : Fn) (bs : Bytes) : Bool :=
  isVf fn && wbit (permSeen s f fn) 1 && (match tagTci bs with
    | some t => t % 4096 != fld (permSeen s f fn) 27 16
    | none => true)

/-- A copy is delivered to a receive queue of a function bound to vport v, or dropped and counted in v's statistics. -/
def deliverTo (id v : Nat) (fn : Fn) (q : Nat) (bytes : Bytes) (s : State) : State :=
  match frameOf s id with
  | none => s
  | some f =>
    let n := bytes.length
    let lose (k : Nat) : State := lostCopy id (vportStat v k n s)
    let u := queue s fn q
    if !migRuns s fn then lose 4
    else if !linkUp s fn then lose 2
    else if vlanRefused s f fn bytes then lose 6
    else if qKind fn q ≠ some .sq ∨ !ownsQueue s fn q ∨ !(u.st == .active || u.st == .blocked) ∨ qClass u ≠ 1 ∨ (fnSt s fn).silent then lose 3
    else match buffersFor n (u.work.filter (fun w => w.cls == 1 && w.started && w.done.isNone && w.filled == 0)) with
    | none => lose 3
    | some ws => delivered id (vportStat v 0 n (fillBuffers fn q (toNs f.ts) f.bound (at_ 3 (b2n f.decrypted)) (slice f.hv 32 8) ws bytes s))

/-- The vport entry of v, and whether it is VALID (R267). -/
def vportEntry (s : State) (v : Nat) : Bytes := mget [] s.tbl.vports v
def vportValid (s : State) (v : Nat) : Bool := decide (v < 4096) && bitOf (byteAt (vportEntry s v) 6) 0

/-- A copy for a vport that is not VALID, or that no function is bound to (R266). The list itself drops it (R23). -/
def unboundCopy (id : Nat) (s : State) : State := copyDone id .dropped (now s) (bound16 s) (tblStat 5 s)

/-- DELIVER_QUEUE: a copy for local receive queue q of vport v's function (R265, R266). -/
def deliverQueue (id v q : Nat) (bytes : Bytes) (s : State) : State :=
  match (frameOf s id).bind (fun f => boundFn s f v) with
  | some fn => if vportValid s v then deliverTo id v fn q bytes s else unboundCopy id s
  | none => unboundCopy id s

/-- An indirection table. -/
def indTable (s : State) (t : Nat) : IndTable := mget {} s.prs.ind t

/-- DELIVER_IND: the entry that the flow hash picks in the active bank (R247). -/
def deliverInd (id t : Nat) (bytes : Bytes) (s : State) : State :=
  match frameOf s id with
  | none => s
  | some f =>
    let x := indTable s t
    let v := fld x.cfg 11 0
    let i := leAt f.hv 32 8 % 2 ^ min 9 (fld x.cfg 15 12)
    let target := mget 0 x.targets (fld x.cfg 17 17 * 512 + i)
    if !wbit x.cfg 31 then lostCopy id (vportStat v 3 bytes.length s)
    else if wbit x.cfg 16 then deliverChannel id target 0 3 bytes none s
    else match boundFn s f v with
    | some fn => deliverTo id v fn target bytes s
    | none => lostCopy id (vportStat v 3 bytes.length s)

/-- DELIVER_VPORT: by the vport's RX_MODE (R267); any RX_MODE but 1 is taken as 0 (assumption 82). -/
def deliverVport (id v : Nat) (bytes : Bytes) (s : State) : State :=
  let e := vportEntry s v
  if !vportValid s v ∨ ((frameOf s id).bind (fun f => boundFn s f v)).isNone then unboundCopy id s
  else if byteAt e 7 = 1 then deliverInd id (leAt e 8 2 % 1024) bytes s
  else deliverQueue id v (leAt e 8 2) bytes s

/-! ### Logical ports and the cascade (R298, R299, R419 to R421) -/

/-- The class of a copy: SET_CLASS, or the MAC's priority of a port frame, or 0 (R298). -/
def copyClass (s : State) (f : Frame) (cls : Option Nat) : Nat :=
  cls.getD (let r := rootFrame s f; if r.ingress % 8 = 0 then r.prio else 0)

/-- DELIVER_PORT (R298, R299). -/
def deliverPort (id lp q cls : Nat) (default_ : Bool) (colour : Nat) (ts : Option (Nat × Nat × Nat)) (bytes : Bytes) (s : State) : State :=
  match frameOf s id with
  | none => s
  | some f =>
    match portQueue s lp q cls default_ with
    | none => lostCopy id (bump .TM_STAT 2 0 1 s)
    | some k =>
      let c : Copy := { frame := id, bytes := bytes, colour := colour, cls := cls, lport := lp, launch := (rootFrame s f).launch, tsInsert := ts,
                        rxTs := f.ts }
      admitCopy (rootFrame s f) k c s

/-- A frame that enters PRS from the cascade: as Akzal ingress of a port (R230, R421). Where no pool has room it is dropped whole (R296). -/
def enterAkz (port ts bound : Nat) (bytes : Bytes) (back : Option (Nat × Nat × Nat)) (s : State) : State :=
  let f : Frame := { ingress := 2 + at_ 4 port, source := srcAkz port, bytes := bytes, asEntered := bytes, ended := true, ts := ts, bound := bound,
                     back := back }
  let r := newFrame f s
  match takeCells false r.1 bytes.length r.2 with
  | some t => t
  | none => grantCredit back (poolDrop s)

/-- A copy of frame id handled at its destination member, by the KIND and TARGET of its header (R421). -/
def akzLocal (id port : Nat) (h : Bytes) (bytes : Bytes) (s : State) : State :=
  let t := hdTarget h
  match hdKind h with
  | 0 => delivered id (enterAkz port (nowFrac s) (bound16 s) bytes none s)
  | 1 => deliverVport id (bits t 11 0) bytes s
  | 2 => deliverPort id (bits t 3 0) (bits t 19 4) (hdCls h) (bitOf t 20) (hdColour h) none bytes s
  | _ => deliverChannel id (bits t 13 0) 0 2 bytes none s

/-- DELIVER_AKZAL: to this member at once, or into a class queue of the port that reaches the destination (R419 to R421). -/
def deliverAkzal (id word cls colour : Nat) (bytes : Bytes) (s : State) : State :=
  match frameOf s id with
  | none => s
  | some f =>
    let port := bits word 8 8
    let dest := bits word 34 32
    let h := akzHeader 0 s.akz.member dest (bits word 36 35) 7 cls colour (bits word 63 40) (toNs f.ts) f.bound f.ctx.srcVport
    if dest = s.akz.member ∧ s.akz.joined then akzLocal id port h bytes s
    else match route s port dest with
    | none => lostCopy id (akzStat 0 1 s)
    | some p =>
      let tooDeep := decide (dfld s .AKZ_QLIMIT 23 0 ≤ queueCells s p cls)
      let src := rootFrame s f
      if tooDeep && !neverLimited src then lostCopy id (akzStat 2 1 s)
      else forwardItem port { header := h, body := bytes, copy := some id } (if tooDeep then holdSource src (0x20000 + p * 8 + cls) s else s)

/-! ### One copy (R264, R265) -/

/-- The copy that a DELIVER entry has made goes to its destination. The code 0x99, which no entry has as OP, stands for the TTL exception of
DEC_TTL (R266). -/
def deliverCopy (d : Delivery) (s : State) : State :=
  match frameOf s d.frame with
  | none => s
  | some f =>
    let w := d.word
    match w % 256 with
    | 0x20 => deliverVport d.frame (bits w 19 8) d.bytes s
    | 0x21 => deliverQueue d.frame (bits w 19 8) (bits w 47 32) d.bytes s
    | 0x22 => deliverInd d.frame (bits w 17 8) d.bytes s
    | 0x23 => deliverPort d.frame (bits w 11 8) (bits w 47 32) (copyClass s f d.cls) (bitOf w 48) d.colour d.tsInsert d.bytes s
    | 0x24 => deliverChannel d.frame (bits w 23 8) (bits w 31 24) 2 d.bytes none s
    | 0x99 => deliverChannel d.frame (bits w 23 8) 0x99 1 d.bytes none s
    | _ => deliverAkzal d.frame w (copyClass s f d.cls) d.colour d.bytes s

/-- A copy is made of frame id by an entry (R264): it goes at once, or waits for the end of the list (R23). -/
def makeCopy (id word : Nat) (bytes : Bytes) (s : State) : State :=
  match frameOf s id with
  | none => s
  | some f =>
    let d : Delivery := { frame := id, word := word, bytes := bytes, colour := f.colour, cls := f.cls, tsInsert := f.tsInsert }
    let s1 := modFrame id (fun f => { f with copies := f.copies + 1, live := f.live + 1 }) s
    if holdsBack s f then modFrame id (fun f => { f with deferred := f.deferred ++ [d] }) s1 else deliverCopy d s1

end Sys2Proof.Machine
end

