-- ==== Sys2Proof/Machine/TblOps.lean ====
section
/-!
DEFINITION. Table records, the rights to them, and changes to flow entries and routes (R265, R267 to R270, R277, R285, R287 to R290).
-/
namespace Sys2Proof.Machine

/-! ### Action entries (R265) -/

/-- TARGET bits that a KIND of DELIVER_AKZAL names: 0 PARSE, 1 VPORT, 2 PORT, 3 CHANNEL (R419). -/
def akzTarget (kind : Nat) : Nat :=
  match kind with
  | 0 => 0
  | 1 => maskOf 51 40
  | 2 => maskOf 43 40 + maskOf 60 44
  | _ => maskOf 53 40

/-- The operand bits that an entry may set by its OP, beside OP itself: bits that a table does not name for it must be zero, and MARK is zero for
MACSEC; none for an undefined OP (R265, R333, R419). -/
def opBits (w : Nat) : Option Nat :=
  match w % 256 with
  | 0x00 | 0x01 | 0x02 | 0x0D => some 0
  | 0x03 => some (maskOf 31 8)
  | 0x08 | 0x12 => some (maskOf 10 8)
  | 0x09 => some (maskOf 23 8)
  | 0x0A => some (maskOf 21 8 + maskOf 63 32)
  | 0x0B => some (maskOf 11 8)
  | 0x0C => some (maskOf 24 8)
  | 0x10 => some (maskOf 33 8)
  | 0x11 => some (maskOf 29 8)
  | 0x18 | 0x19 => some (maskOf 27 8 + maskOf 43 35 + (if bits w 37 35 = 2 then 0 else maskOf 34 32))
  | 0x20 => some (maskOf 19 8)
  | 0x21 => some (maskOf 19 8 + maskOf 47 32)
  | 0x22 => some (maskOf 17 8)
  | 0x23 => some (maskOf 11 8 + maskOf 48 32)
  | 0x24 => some (maskOf 31 8)
  | 0x25 => some (maskOf 8 8 + maskOf 36 32 + akzTarget (bits w 36 35))
  | 0x28 => some (maskOf 39 8)
  | 0x30 => some (maskOf 27 8)
  | 0x31 => some (maskOf 18 8)
  | _ => none

/-- May a record carry this action entry? -/
def actionOk (w : Nat) : Bool :=
  match opBits w with
  | some m => w / 256 * 256 &&& m == w / 256 * 256
  | none => false

/-- The 8 entries of 64 bytes. -/
def listOf (bs : Bytes) : List Nat := wordsOf 8 bs

/-! ### Records -/

/-- Record bytes cut to masks. -/
def keepBits (ms : List (Nat × Nat)) (rec : Bytes) : Bytes :=
  ms.foldl (fun r m => overwrite r m.1 [BitVec.ofNat 8 (byteAt r m.1 &&& m.2)]) rec

/-- n bytes from offset off are zero. -/
def zeros (off n : Nat) : List (Nat × Nat) := (List.range n).map (fun i => (off + i, 0))

/-- Bits of each record that software sets: reserved bits are stored as zero, and bits that the device keeps take no written value. -/
def writtenBits (table : Nat) : List (Nat × Nat) :=
  match table with
  | 0 => [(48, 0x0F), (49, 7), (50, 0), (51, 0), (53, 0x8F)] ++ zeros 54 10
  | 1 => [(17, 0x0F), (19, 3), (23, 0)] ++ zeros 24 8
  | 2 => [(82, 0xBF), (83, 0), (87, 0)] ++ zeros 88 8
  | 3 => [(0, 0), (1, 0), (3, 0x0F), (5, 0x0F), (6, 0x0F), (10, 0), (11, 0), (15, 0x80)] ++ zeros 24 8
  | 4 => [(0, 0x1F), (3, 0), (5, 0x0F), (6, 0), (7, 0)]
  | 5 => [(0, 7), (6, 7), (7, 0), (11, 0), (15, 0)] ++ zeros 16 16
  | _ => []

/-- A record of a table as software writes it. -/
def recordIn (table : Nat) (bs : Bytes) : Bytes := keepBits (writtenBits table) (slice bs 0 (recordSize table))

/-- What an unlisted entry of a direct table reads as: zeros, but for MOVE_HOLD of the VSI table (R269). -/
def blank (table : Nat) : Bytes :=
  if table = 5 then overwrite (List.replicate 32 0) 2 [0xE8, 0x03] else List.replicate (recordSize table) 0

/-- The entries of a direct table: 2 ACL, 3 VPORT, 4 TUNNEL, 5 VSI, 6 ACTION. -/
def direct (s : State) (table : Nat) : NMap Bytes :=
  match table with
  | 2 => s.tbl.acl
  | 3 => s.tbl.vports
  | 4 => s.tbl.tunnels
  | 5 => s.tbl.vsis
  | _ => s.tbl.actions

/-- An entry of a direct table, as stored. -/
def stored (s : State) (table i : Nat) : Bytes := mget (blank table) (direct s table) i

/-- s with an entry of a direct table stored. -/
def store (table i : Nat) (rec : Bytes) (s : State) : State :=
  modTbl (fun t => match table with
    | 2 => { t with acl := mset (blank 2) t.acl i rec }
    | 3 => { t with vports := mset (blank 3) t.vports i rec }
    | 4 => { t with tunnels := mset (blank 4) t.tunnels i rec }
    | 5 => { t with vsis := mset (blank 5) t.vsis i rec }
    | _ => { t with actions := mset (blank 6) t.actions i rec }) s

/-- SCOPE of a flow key, a VSI or a vport (R270, R281). -/
def flowScope (rec : Bytes) : Nat := beAt rec 1 2

/-- LEARNED of a VSI: its learned flow entries (R269). -/
def learnedOf (s : State) (v : Nat) : Nat := (s.tbl.flows.filter (fun e => flowFlag e.2 2 && flowScope e.2 == v)).length

/-- The FUNCTION field of a vport entry (R267). -/
def functionOf (s : State) (v : Nat) : Nat :=
  match vportFn s v with
  | some f => fnCode f + at_ 15 1
  | none => 0

/-- An entry of a direct table as an operation reads it: FUNCTION and LEARNED as they stand. -/
def shown (s : State) (table i : Nat) : Bytes :=
  let e := stored s table i
  match table with
  | 3 => overwrite e 0 (leBytes 2 (functionOf s i))
  | 5 => overwrite e 16 (leBytes 3 (learnedOf s i))
  | _ => e

/-- A flow entry as an operation reads it, with LOCK (R270, R288). -/
def shownFlow (s : State) (i : Nat) : Option Bytes :=
  (flowAt s i).map (fun e => overwrite e 50 [BitVec.ofNat 8 (b2n (mfind s.tbl.locks i).isSome)])

/-- A route as an operation reads it, with the GEN of its slot (R277). -/
def shownRoute (s : State) (i : Nat) : Option Bytes :=
  (mfind s.tbl.routes i).map (fun e =>
    let p := placesOf s true (routeKey e)
    let slot := ((bucketAt s p.bank p.b1 ++ bucketAt s p.bank p.b2).filterMap id ++ stashAt s p.bank).find? (fun x => x.index == i)
    overwrite e 19 [BitVec.ofNat 8 (byteAt e 19 % 4 + at_ 4 ((slot.map Slot8.gen).getD 0))])

/-- A flow record as an insert or write leaves the entry (R270, R285): HIT set, AGE_COUNT, LOCK and CAND_VALID clear, VF_CREATED as given. -/
def flowRecord (created : Bool) (bs : Bytes) : Bytes :=
  let r := recordIn 0 bs
  overwrite (overwrite r 48 [BitVec.ofNat 8 (byteAt r 48 + at_ 4 (b2n created))]) 49 [BitVec.ofNat 8 (byteAt r 49 + 8)]

/-- A route as an add stores it: PREFIX cut to LENGTH, VALID set (R277). -/
def routeRecord (bs : Bytes) : Bytes :=
  let r := recordIn 1 bs
  overwrite (overwrite r 0 (cutPrefix (byteAt r 18) r)) 19 [BitVec.ofNat 8 (byteAt r 19 ||| 1)]

/-- HIT of a flow entry is set (R285). -/
def setHit (i : Nat) (s : State) : State :=
  match flowAt s i with
  | some e => modTbl (fun t => { t with flows := mput t.flows i (overwrite e 49 [BitVec.ofNat 8 (byteAt e 49 ||| 8)]) }) s
  | none => s

/-! ### Rights (R289) -/

/-- Firmware, and a PF with its TBL_ADMIN bit set. -/
def tblAdmin (s : State) (f : Fn) : Bool :=
  match f with
  | .fw => true
  | .pf i => wbit (reg s .TBL_ADMIN 0 0) i
  | .vf _ _ => false

/-- May a VF's flow use this action entry: it names no vport but its own? -/
def vfAction (v w : Nat) : Bool :=
  match w % 256 with
  | 0x00 | 0x01 | 0x02 | 0x0A | 0x0B | 0x0C | 0x0D => true
  | 0x20 | 0x21 => bits w 19 8 == v
  | _ => false

/-- A function's rights to a flow entry. -/
def flowRights (s : State) (f : Fn) (rec : Bytes) : Bool :=
  let o := flowOwner rec
  match f with
  | .fw => true
  | .pf i => tblAdmin s f || (!bitOf o 15 && inVportRange s i o)
  | .vf _ _ => match (fnSt s f).vport with
    | some v => o == v && flowScope rec == v && flowFlag rec 4 && (listOf (slice rec 64 64)).all (vfAction v)
    | none => false

/-- Rights to an entry of a direct table: VPORT entries in the PF's range, the rest for administrators. -/
def directRights (s : State) (f : Fn) (table i : Nat) : Bool :=
  match f with
  | .fw => true
  | .pf p => if table = 3 then inVportRange s p i else tblAdmin s f
  | .vf _ _ => false

/-- Rights to n counters from an index. -/
def counterRights (s : State) (f : Fn) (i n : Nat) : Bool :=
  let last := (i + n - 1) / 16
  match f with
  | .fw => true
  | .pf p => tblAdmin s f || (decide (last < 4096) && inVportRange s p (i / 16) && inVportRange s p last)
  | .vf _ _ => match (fnSt s f).vport with
    | some v => i / 16 == v && last == v
    | none => false

/-- Is a flow owned by a FREEZING or FROZEN VF, and the function another one (R193, R289)? -/
def flowFrozen (s : State) (f : Fn) (rec : Bytes) : Bool :=
  let o := flowOwner rec
  !bitOf o 15 && vportFrozen s o && vportFn s o != some f

/-- Is an entry locked by another SQ (R288)? -/
def lockedOut (s : State) (f : Fn) (q i : Nat) : Bool :=
  match mfind s.tbl.locks i with
  | some l => !(l.fn == f && l.sq == q)
  | none => false

/-- The status that rights, a freeze or a lock give an operation on an existing flow entry, 0 where it may go on. -/
def flowStatus (s : State) (f : Fn) (q i : Nat) (rec : Bytes) (locks : Bool) : Nat :=
  if !flowRights s f rec then 0x05
  else if flowFrozen s f rec then 0x31
  else if locks && lockedOut s f q i then 0x19 else 0

/-! ### Ends of operations (R287) -/

/-- Fields of a TABLE-class entry (R286). -/
def opTable (w : Work) : Nat := entryField w.entry 24 1
def opOpt (w : Work) (b : Nat) : Bool := bitOf (entryField w.entry 25 1) b
def opIndex (w : Work) : Nat := entryField w.entry 28 3

/-- An operation ends with a status alone. -/
def tblFail (f : Fn) (q : Nat) (w : Work) (st : Nat) (s : State) : State := finishWork f q w.ctr st 0 s

/-- An operation ends with SUCCESS and a RESULT: 0 DONE, 1 NOT_FOUND, 2 EXISTS. -/
def tblDone (f : Fn) (q : Nat) (w : Work) (result : Nat) (s : State) : State := finishWork f q w.ctr 0 result s

/-- The same of a FLOW operation, with the entry's index; a free value where there is no entry. -/
def flowDone (f : Fn) (q : Nat) (w : Work) (result : Nat) (i : Option Nat) (s : State) : State :=
  match i with
  | some i => finishWork f q w.ctr 0 (result + at_ 8 i) s
  | none => let r := takeFree s; finishWork f q w.ctr 0 (result + at_ 8 (r.1 % 16777216)) r.2

/-- A result record goes to BUF. -/
def toBuf (f : Fn) (q : Nat) (w : Work) (bs : Bytes) (s : State) : State :=
  hostWrite f (qPasid (queue s f q)) (entryField w.entry 16 8) bs false s

/-- Run the oldest table operation of an SQ, where its opcode is op, once its record is in and the operations before it have ended (R286,
R290): g gets the entry, the record and the state; it leaves the state as it is where the operation must wait. -/
def runTbl (f : Fn) (q op : Nat) (g : Work → Bytes → State → State) (s : State) : State :=
  match nextWork s f q 3 op with
  | none => s
  | some w =>
    if (queue s f q).work.any (fun x => x.cls == 3 && x.started && x.done.isNone) then s
    else match readsOf w with
    | none => s
    | some (bs, 0) => g w bs s
    | some (_, st) => tblFail f q w st s

/-! ### Changes to flow entries and routes -/

/-- FLOW_HIGH_WATER, as the occupancy reaches TBL_FLOW_HWM (R292, R293). -/
def highWater (before : Nat) (s : State) : State :=
  let hwm := dfld s .TBL_FLOW_HWM 24 0
  if before < hwm ∧ hwm ≤ s.tbl.flows.length then tblEvent 0x02 0 s else s

/-- A flow entry is added at a free index (R270, R272); none for TABLE_FULL. -/
def addFlow (rec : Bytes) (work : Option (Fn × Nat × Nat)) (s : State) : Option (Nat × State) :=
  let r := pickFree (s.tbl.flows.map Prod.fst) 16777216 s
  match r.1 with
  | none => none
  | some i =>
    let s1 := modTbl (fun t => { t with flows := mput t.flows i rec, visits := mdel t.visits i }) r.2
    (place false i (flowKey rec) work s1).map (fun t => (i, highWater s.tbl.flows.length t))

/-- A flow entry is written in place; its key stays. -/
def writeFlow (i : Nat) (rec : Bytes) (s : State) : State :=
  modTbl (fun t => { t with flows := mput t.flows i rec }) s

/-- A route is added (R277, R278); none for TABLE_FULL. -/
def addRoute (rec : Bytes) (work : Option (Fn × Nat × Nat)) (s : State) : Option State :=
  if 2097152 ≤ s.tbl.routes.length then none
  else
    let r := pickFree (s.tbl.routes.map Prod.fst) 2097152 s
    match r.1 with
    | none => none
    | some i =>
      let s1 := modTbl (fun t => { t with routes := mput t.routes i rec }) r.2
      (place true i (routeKey rec) work s1).map (filterAddKey (routeKey rec))

/-- A route is removed; its filter bits stay, and the deletes since the last rebuild count up (R278). -/
def removeRoute (i : Nat) (s : State) : State :=
  match mfind s.tbl.routes i with
  | none => s
  | some rec =>
    modTbl (fun t => { t with routes := mdel t.routes i, deletes := t.deletes + 1 }) (removeSlot true i (routeKey rec) s)

/-- The bank of a key. -/
def bankOfKey (s : State) (lpm : Bool) (key : Bytes) : Nat := (placesOf s lpm key).bank

/-- An insert whose slot waits for moves completes when the last of them ends; any other at once (R272, R286). -/
def inserted (f : Fn) (q bank : Nat) (w : Work) (fin : State → State) (s : State) : State :=
  if bankBusy s bank then modWork f q w.ctr (fun w => { w with started := true }) s else fin s

end Sys2Proof.Machine
end

