-- ==== Sys2Proof/Machine/TblCmds.lean ====
section
/-!
DEFINITION. The table operations of TABLE-class queues, relocation, locks' ends, filter rebuilds, hash seeds and table programs' storage
(R258, R271 to R273, R278, R286 to R292).
-/
namespace Sys2Proof.Machine

/-! ### INSERT (R272, R287) -/

/-- INSERT of a flow record. -/
def insertFlow (f : Fn) (q : Nat) (w : Work) (bs : Bytes) (s : State) : State :=
  let rcd := flowRecord (isVf f) bs
  let bank := bankOfKey s false (flowKey rcd)
  if !flowFlag rcd 0 || !(listOf (slice rcd 64 64)).all actionOk then tblFail f q w 0x01 s
  else if !flowRights s f rcd then tblFail f q w 0x05 s
  else if flowFrozen s f rcd then tblFail f q w 0x31 s
  else match findKey s false (flowKey rcd) with
  | some i =>
    if !opOpt w 0 then flowDone f q w 2 (some i) s
    else if bankBusy s bank then s
    else
      let st := flowStatus s f q i ((flowAt s i).getD []) true
      if st ≠ 0 then tblFail f q w st s else flowDone f q w 0 (some i) (writeFlow i rcd s)
  | none =>
    if bankBusy s bank then s
    else match addFlow rcd (some (f, q, w.ctr.toNat)) s with
    | none => tblFail f q w 0x18 s
    | some (i, t) => inserted f q bank w (flowDone f q w 0 (some i)) t

/-- INSERT of a route. -/
def insertRoute (f : Fn) (q : Nat) (w : Work) (bs : Bytes) (s : State) : State :=
  let rcd := routeRecord bs
  let bank := bankOfKey s true (routeKey rcd)
  if (if bits (byteAt rcd 19) 1 1 = 1 then 128 else 32) < byteAt rcd 18 then tblFail f q w 0x02 s
  else if !tblAdmin s f then tblFail f q w 0x05 s
  else match findKey s true (routeKey rcd) with
  | some i =>
    if !opOpt w 0 then tblDone f q w 2 s
    else if bankBusy s bank then s
    else tblDone f q w 0 (modTbl (fun t => { t with routes := mput t.routes i rcd }) s)
  | none =>
    if bankBusy s bank then s
    else match addRoute rcd (some (f, q, w.ctr.toNat)) s with
    | none => tblFail f q w 0x18 s
    | some t => inserted f q bank w (tblDone f q w 0) t

/-- INSERT (R272, R287). -/
def execTblInsert (f : Fn) (q : Nat) (s : State) : Outcome :=
  .next (runTbl f q 1 (fun w bs s => if opTable w = 0 then insertFlow f q w bs s else insertRoute f q w bs s) s)

/-! ### RELOCATION_MOVE (R272, R273) -/

/-- The slot that a path made room for is placed, and the operation that inserted it completes. -/
def endPlacing (bank : Nat) (s : State) : State :=
  match mfind s.tbl.placing bank with
  | none => s
  | some x =>
    let s1 := modTbl (fun t => { t with moves := mdel t.moves bank, placing := mdel t.placing bank }) s
    let s2 := if (keyAt s1 (decide (16 ≤ bank)) x.slot.index).isSome then (putWay bank x.bucket x.slot s1).getD s1 else s1
    match x.work with
    | none => s2
    | some (f, q, ctr) => finishWork f q (BitVec.ofNat 16 ctr) 0 (if bank < 16 then at_ 8 x.slot.index else 0) s2

/-- The way of a bucket that names an index. -/
def wayOf (s : State) (bank b index : Nat) : Option Nat := (bucketAt s bank b).findIdx? (fun x => x.any (fun x => x.index == index))

/-- The move-in-progress register of a bank. -/
def moveRegOf (s : State) (bank : Nat) : MoveReg := mget {} s.tbl.moveReg bank

/-- Steps 1 and 2 of a move (R273): the register takes the slot's signature, index and buckets, ACTIVE is set, MOVE_SEQ counts, and the slot stands
in the destination with its next generation. -/
def beginMove (bank src index dst : Nat) (s : State) : State :=
  let x := (((wayOf s bank src index).bind (fun k => (bucketAt s bank src).getD k none)).getD { sig := 0, index := index })
  let s1 := modTbl (fun t => { t with
    moveReg := mput t.moveReg bank { sig := x.sig, index := index, source := src, dest := dst, active := true },
    moveSeq := mmod 0 t.moveSeq bank (fun n => (n + 1) % 65536) }) s
  if (wayOf s bank src index).isSome then (putWay bank dst { x with gen := (x.gen + 1) % 16 } s1).getD s1 else s1

/-- Steps 3 and 4 of a move (R273): the source way is clear, ACTIVE clears and MOVE_SEQ counts. -/
def finishMove (bank : Nat) (s : State) : State :=
  let m := moveRegOf s bank
  let s1 := match wayOf s bank m.source m.index with
    | some k => setBucket bank m.source ((bucketAt s bank m.source).set k none) s
    | none => s
  modTbl (fun t => { t with
    moveReg := mmod {} t.moveReg bank (fun m => { m with active := false }),
    moves := mmod [] t.moves bank (fun l => l.drop 1),
    moveSeq := mmod 0 t.moveSeq bank (fun n => (n + 1) % 65536) }) s1

/-- Does a lookup that is to read a bank again keep its relocator from starting a move (R274)? -/
def movesHeld (s : State) (bank : Nat) : Bool := s.tm.frames.any (fun e => e.2.stage == .table && e.2.retry.contains bank)

/-- RELOCATION_MOVE (R273): the bank's next move, last move of the path first, begins, where no lookup's second reading keeps it back (R274); a move
in progress ends. Banks 16 to 23 are those of the LPM table. -/
def execRelocationMove (bank : Nat) (s : State) : Outcome :=
  if (moveRegOf s bank).active then
    let s1 := finishMove bank s
    .next (if (mget [] s1.tbl.moves bank).isEmpty then endPlacing bank s1 else s1)
  else match mget [] s.tbl.moves bank with
    | [] => .next s
    | (src, index, dst) :: _ => .next (if movesHeld s bank then s else beginMove bank src index dst s)

/-! ### DELETE and LOOKUP (R287, R288) -/

/-- DELETE of the flow entry with the record's key. -/
def deleteFlow (f : Fn) (q : Nat) (w : Work) (bs : Bytes) (s : State) : State :=
  let key := slice bs 0 48
  if bankBusy s (bankOfKey s false key) then s
  else match findKey s false key with
  | none => flowDone f q w 1 none s
  | some i =>
    let st := flowStatus s f q i ((flowAt s i).getD []) true
    if st ≠ 0 then tblFail f q w st s else flowDone f q w 0 (some i) (removeFlow i s)

/-- DELETE of the route with the record's key. -/
def deleteRoute (f : Fn) (q : Nat) (w : Work) (bs : Bytes) (s : State) : State :=
  let key := routeKey (routeRecord bs)
  if !tblAdmin s f then tblFail f q w 0x05 s
  else if bankBusy s (bankOfKey s true key) then s
  else match findKey s true key with
  | none => tblDone f q w 1 s
  | some i => tblDone f q w 0 (removeRoute i s)

/-- DELETE. -/
def execTblDelete (f : Fn) (q : Nat) (s : State) : Outcome :=
  .next (runTbl f q 2 (fun w bs s => if opTable w = 0 then deleteFlow f q w bs s else deleteRoute f q w bs s) s)

/-- LOOKUP of the flow entry with the record's key. -/
def findFlow (f : Fn) (q : Nat) (w : Work) (bs : Bytes) (s : State) : State :=
  match findKey s false (slice bs 0 48) with
  | none => flowDone f q w 1 none s
  | some i =>
    let st := flowStatus s f q i ((flowAt s i).getD []) false
    if st ≠ 0 then tblFail f q w st s else flowDone f q w 0 (some i) (toBuf f q w ((shownFlow s i).getD []) s)

/-- LOOKUP of the route with the record's key. -/
def findRoute (f : Fn) (q : Nat) (w : Work) (bs : Bytes) (s : State) : State :=
  if !tblAdmin s f then tblFail f q w 0x05 s
  else match findKey s true (routeKey (routeRecord bs)) with
  | none => tblDone f q w 1 s
  | some i => tblDone f q w 0 (toBuf f q w ((shownRoute s i).getD []) s)

/-- LOOKUP. -/
def execTblLookup (f : Fn) (q : Nat) (s : State) : Outcome :=
  .next (runTbl f q 3 (fun w bs s => if opTable w = 0 then findFlow f q w bs s else findRoute f q w bs s) s)

/-! ### READ and WRITE (R287, R289) -/

/-- An operation on the flow entry INDEX: NOT_FOUND where there is none (assumption 88), the status that refuses it, or g. -/
def onFlow (f : Fn) (q : Nat) (w : Work) (locks : Bool) (g : Bytes → State → State) (s : State) : State :=
  match shownFlow s (opIndex w) with
  | none => flowDone f q w 1 (some (opIndex w)) s
  | some e =>
    let st := flowStatus s f q (opIndex w) e locks
    if st ≠ 0 then tblFail f q w st s else g e s

/-- READ. -/
def execTblRead (f : Fn) (q : Nat) (s : State) : Outcome :=
  .next (runTbl f q 4 (fun w _ s =>
    if opTable w = 0 then onFlow f q w false (fun e s => flowDone f q w 0 (some (opIndex w)) (toBuf f q w e s)) s
    else if !directRights s f (opTable w) (opIndex w) then tblFail f q w 0x05 s
    else tblDone f q w 0 (toBuf f q w (shown s (opTable w) (opIndex w)) s)) s)

/-- A flow entry INDEX is written, its key and VF_CREATED kept; a VF's new contents stay within its rights (R287, R289). -/
def overwriteFlow (f : Fn) (q : Nat) (w : Work) (bs : Bytes) (unlock : Bool) (s : State) : State :=
  if !bitOf (byteAt bs 48) 0 || !(listOf (slice bs 64 64)).all actionOk then tblFail f q w 0x01 s
  else onFlow f q w true (fun e s =>
    let rcd := overwrite (flowRecord (flowFlag e 4) bs) 0 (slice e 0 48)
    if !flowRights s f rcd then tblFail f q w 0x05 s
    else if flowFrozen s f rcd then tblFail f q w 0x31 s
    else if bankBusy s (bankOfKey s false (flowKey e)) then s
    else
      let s1 := writeFlow (opIndex w) rcd s
      flowDone f q w 0 (some (opIndex w)) (if unlock then modTbl (fun t => { t with locks := mdel t.locks (opIndex w) }) s1 else s1)) s

/-- May a function write these flags of a vport entry (R267)? -/
def vportFlagsOk (s : State) (f : Fn) (v flags : Nat) : Bool :=
  let trusted := match vportFn s v with
    | some g => !isVf g || wbit (vfPerm s g) 2
    | none => true
  (trusted || bits flags 2 1 == 0) && (tblAdmin s f || !bitOf flags 3)

/-- WRITE of an entry of a direct table (R267, R287). -/
def writeDirect (f : Fn) (q : Nat) (w : Work) (bs : Bytes) (s : State) : State :=
  let t := opTable w
  let i := opIndex w
  let rcd := recordIn t bs
  if t = 6 ∧ !(listOf rcd).all actionOk then tblFail f q w 0x01 s
  else if !directRights s f t i then tblFail f q w 0x05 s
  else if t = 3 ∧ !vportFlagsOk s f i (byteAt rcd 6) then tblFail f q w 0x05 s
  else
    let gone := (t = 2 ∧ !bitOf (byteAt rcd 82) 7) ∨ (t = 4 ∧ !bitOf (byteAt rcd 0) 0)
    tblDone f q w 0 (store t i (if gone then blank t else rcd) s)

/-- WRITE. -/
def execTblWrite (f : Fn) (q : Nat) (s : State) : Outcome :=
  .next (runTbl f q 5 (fun w bs s => if opTable w = 0 then overwriteFlow f q w bs false s else writeDirect f q w bs s) s)

/-! ### Locks (R288) -/

/-- LOCK: a locked entry stays with its holder. -/
def execTblLock (f : Fn) (q : Nat) (s : State) : Outcome :=
  .next (runTbl f q 6 (fun w _ s => onFlow f q w false (fun _ s =>
    let i := opIndex w
    if (mfind s.tbl.locks i).isSome then tblFail f q w 0x19 s
    else
      let s1 := modTbl (fun t => { t with locks := mput t.locks i { fn := f, sq := q, at_ := s.elapsed } }) s
      flowDone f q w 0 (some i) (toBuf f q w ((shownFlow s1 i).getD []) s1)) s) s)

/-- WRITE_UNLOCK. -/
def execTblWriteUnlock (f : Fn) (q : Nat) (s : State) : Outcome :=
  .next (runTbl f q 7 (fun w bs s => overwriteFlow f q w bs true s) s)

/-- UNLOCK. -/
def execTblUnlock (f : Fn) (q : Nat) (s : State) : Outcome :=
  .next (runTbl f q 8 (fun w _ s => onFlow f q w true (fun _ s =>
    flowDone f q w 0 (some (opIndex w)) (modTbl (fun t => { t with locks := mdel t.locks (opIndex w) }) s)) s) s)

/-- LOCK_TIMEOUT in ns; 0 is treated as 1 ms (R292). -/
def lockTimeout (s : State) : Nat := max 1 (dfld s .TBL_LOCK_TIMEOUT 15 0) * 1000000

/-- LOCK_EXPIRED (R288, R293): LOCK_TIMEOUT after the lock was set. -/
def execLockExpired (index : Nat) (s : State) : Outcome :=
  match mfind s.tbl.locks index with
  | none => .next s
  | some l =>
    let s1 := modTbl (fun t => { t with locks := mdel t.locks index }) (advanceTo (l.at_ + lockTimeout s) s)
    .next (raise 0x7 0x01 l.sq (.function l.fn) (tblStat 11 s1))

/-! ### Counters (R280, R287) -/

/-- COUNTER_READ. -/
def execTblCounterRead (f : Fn) (q : Nat) (s : State) : Outcome :=
  .next (runTbl f q 9 (fun w _ s =>
    let i := opIndex w
    let n := entryField w.entry 26 2
    if !counterRights s f i n then tblFail f q w 0x05 s
    else
      let all := (List.range n).map (fun k => mget (0, 0) s.tbl.counters (i + k))
      let s1 := toBuf f q w ((all.map (fun c => leBytes 8 c.1 ++ leBytes 8 c.2)).flatten) s
      tblDone f q w 0 (if opOpt w 1 then
        modTbl (fun t => { t with counters := t.counters.filter (fun e => decide (e.1 < i ∨ i + n ≤ e.1)) }) s1 else s1)) s)

/-! ### The length filter (R278) -/

/-- FILTER_REBUILD: the deletes since the last rebuild exceed a quarter of the routes present. -/
def execFilterRebuild (s : State) : Outcome :=
  if s.tbl.deletes * 4 ≤ s.tbl.routes.length ∨ s.tbl.rebuilding then .next s
  else
    let keys := s.tbl.routes.map (fun e => routeKey e.2)
    let all := keys.foldl (fun m k => (filterBits s k).foldl (fun m i => mset false m i true) m) ([] : NMap Bool)
    .next (modTbl (fun t => { t with filter2 := all, rebuilding := true, deletes := 0 }) s)

/-- FILTER_SWITCH: the new copy takes the place of the old one in one step. -/
def execFilterSwitch (s : State) : Outcome :=
  if s.tbl.rebuilding then .next (modTbl (fun t => { t with filter := t.filter2, filter2 := [], rebuilding := false }) s) else .next s

/-! ### Registers (R258, R271, R292) -/

/-- Are the flow table, the stashes and the LPM table empty (R271)? -/
def tablesEmpty (s : State) : Bool := s.tbl.flows.isEmpty && s.tbl.routes.isEmpty && s.tbl.stash.isEmpty

/-- A write of a hash seed (R271). -/
def seedWrite (p : Path) (which : Nat) (v : Word) (s : State) : State :=
  if !mayWrite s p .TBL_HASH_SEED ∨ 2 ≤ which then s
  else if tablesEmpty s then setReg .TBL_HASH_SEED which 0 v s else hwSet .TBL_STATUS 0 0 0 s

/-- TBL_PROG_WRITE with bit 0 set: the staged step goes to the inactive bank as it is (R258, R292). -/
def progWrite (p : Path) (s : State) : State :=
  if !mayWrite s p .TBL_PROG_WRITE then s
  else
    let sel := reg s .TBL_PROG_SELECT 0 (pathCode p)
    let bank := 1 - dfld s .TBL_PROG_CTRL 0 0
    let v := (List.range 4).foldl (fun n i => n + (reg s .TBL_PROG_DATA i (pathCode p)).toNat * 2 ^ (32 * i)) 0
    modTbl (fun t => { t with programs := mset 0 t.programs (bank * 2048 + fld sel 7 0 * 8 + fld sel 10 8) v }) s

end Sys2Proof.Machine
end

