-- ==== Sys2Proof/Machine/Learn.lean ====
section
/-!
DEFINITION. Learning, learning notifications and aging (R281 to R285).
-/
namespace Sys2Proof.Machine

/-! ### Notifications (R283, R400) -/

/-- A NOTIFY message of 5 words goes to a channel that is VALID and takes datapath messages and is not full; it is discarded and counted
otherwise. -/
def notifyChannel (c : Nat) (note : Bytes) (s : State) : State :=
  let cfg := chCfg s c
  if 16384 ≤ c ∨ !wbit cfg 31 ∨ !wbit cfg 30 ∨ chFull s c then tblStat 9 s
  else commitMsg c { words := wordsOf 5 ([2, 0, 0, 0, 0, 0, 0, 0] ++ note), source := 1 } s

/-- The 32-byte notification of an event of flow index i (R283): 1 LEARNED, 2 MOVED, 3 AGED, with the vports after and before. -/
def notification (s : State) (kind i : Nat) (ent : Bytes) (newV oldV : Nat) : Bytes :=
  [BitVec.ofNat 8 kind, 0] ++ leBytes 2 (flowScope ent) ++ leBytes 4 i ++ slice ent 3 6 ++ leBytes 2 (beAt ent 9 2) ++ leBytes 2 newV
    ++ leBytes 2 oldV ++ leBytes 4 (bound32 s) ++ leBytes 8 (now s)

/-- The VSI entry of a flow entry's SCOPE. -/
def vsiOf (s : State) (v : Nat) : Bytes := stored s 5 (v % 4096)

/-- An event of an entry with NOTIFY set is told to its VSI's NOTIFY_CHANNEL, where it has one (R283). -/
def notifyFlow (kind i : Nat) (ent : Bytes) (newV oldV : Nat) (s : State) : State :=
  let c := leAt (vsiOf s (flowScope ent)) 4 2
  if flowFlag ent 3 ∧ c ≠ 0xFFFF then notifyChannel c (notification s kind i ent newV oldV) s else s

/-! ### Learning (R281, R282) -/

/-- The key that a request learns (R281). -/
def learnKey (prof : Nat) (l : Learn) : Bytes :=
  [BitVec.ofNat 8 prof] ++ beBytes 2 l.vsi ++ beBytes 6 l.mac ++ beBytes 2 l.vid ++ List.replicate 37 0

/-- The vport of the first DELIVER_VPORT of an entry's ACTIONS (R282). -/
def entryVport (ent : Bytes) : Option Nat :=
  ((listOf (slice ent 64 64)).find? (fun w => w % 256 == 0x20)).map (fun w => bits w 19 8)

/-- ACTIONS with the first DELIVER_VPORT set to vport p. -/
def withVport (p : Nat) (acts : Bytes) : Bytes :=
  ((updFirst (fun w => w % 256 == 0x20) (fun w => w - at_ 8 (bits w 19 8) + at_ 8 (p % 4096)) (listOf acts)).map (leBytes 8)).flatten

/-- The entry that a request inserts (R282, R285). -/
def learnedEntry (v : Bytes) (key : Bytes) (acts : Bytes) (p : Nat) : Bytes :=
  key ++ [BitVec.ofNat 8 (5 + 8 * b2n (bitOf (byteAt v 0) 2)), BitVec.ofNat 8 (byteAt v 6 % 8 + 8), 0, 0] ++ leBytes 2 0x8000 ++ List.replicate 10 0
    ++ withVport p acts

/-- CAND_VALID, CAND_VPORT and CAND_SINCE of an entry, the time in ns (R270). -/
def candValid (ent : Bytes) : Bool := bitOf (byteAt ent 57) 7
def candVport (ent : Bytes) : Nat := leAt ent 56 2 % 4096
def candSince (ent : Bytes) : Nat := leAt ent 58 6 * 1024

/-- MOVE_HOLD of a VSI in ns; 0 is treated as 1 ms (R269). -/
def moveHold (v : Bytes) : Nat := max 1 (leAt v 2 2) * 1000000

/-- An entry with its candidate cleared and HIT set. -/
def confirmed (ent : Bytes) : Bytes :=
  overwrite (overwrite ent 57 [BitVec.ofNat 8 (byteAt ent 57 % 128)]) 49 [BitVec.ofNat 8 (byteAt ent 49 ||| 8)]

/-- A request for a key that no entry has: it is inserted, or counted in LEARN_FULL (R282). -/
def learnNew (v key : Bytes) (l : Learn) (s : State) : State :=
  let acts := stored s 6 (leAt v 8 3)
  if leAt v 12 3 ≤ learnedOf s l.vsi ∨ !(listOf acts).any (fun w => w % 256 == 0x20) then tblStat 7 s
  else
    let ent := learnedEntry v key acts l.vport
    match addFlow ent none s with
    | none => tblStat 7 s
    | some (i, t) => notifyFlow 1 i ent l.vport 0 t

/-- A request for an entry of its key (R193, R282). -/
def learnSeen (v : Bytes) (i : Nat) (ent : Bytes) (l : Learn) (s : State) : State :=
  let put (e : Bytes) (s : State) : State := writeFlow i e s
  if (mfind s.tbl.locks i).isSome then tblStat 8 s
  else if !flowFlag ent 2 ∨ (!bitOf (flowOwner ent) 15 && vportFrozen s (flowOwner ent)) then s
  else if entryVport ent = some l.vport then put (confirmed ent) s
  else if !candValid ent ∨ candVport ent ≠ l.vport then
    put (overwrite ent 56 (leBytes 2 (l.vport + 0x8000) ++ leBytes 6 (l.ts / 1024))) s
  else if candSince ent + moveHold v ≤ l.ts then
    let moved := overwrite (confirmed ent) 64 (withVport l.vport (slice ent 64 64))
    notifyFlow 2 i moved l.vport ((entryVport ent).getD 0) (put moved s)
  else s

/-- A learn request takes effect (R282). -/
def learnNow (l : Learn) (s : State) : State :=
  let v := vsiOf s l.vsi
  let key := learnKey (byteAt v 1) l
  if !bitOf (byteAt v 0) 0 ∨ !bitOf (byteAt v 0) 1 then s
  else match findKey s false key with
  | some i => learnSeen v i ((flowAt s i).getD []) l s
  | none => learnNew v key l s

/-- LEARN_REQUEST (R281, R282, R290): the oldest queued request takes effect, once its bank has ended the moves of an insert. -/
def execLearnRequest (s : State) : Outcome :=
  match s.tbl.learnQ with
  | [] => .next s
  | l :: rest =>
    if bankBusy s (bankOfKey s false (learnKey (byteAt (vsiOf s l.vsi) 1) l)) then .next s
    else .next (learnNow l (modTbl (fun t => { t with learnQ := rest }) s))

/-- LEARN queues a request, or drops it where the queue is full (R281, R293). -/
def queueLearn (l : Learn) (s : State) : State :=
  if 65536 ≤ s.tbl.learnQ.length then tblEvent 0x04 l.vsi (tblStat 6 s)
  else modTbl (fun t => { t with learnQ := t.learnQ ++ [l] }) s

/-! ### Aging (R284) -/

/-- V of an age class in ns; 0 where its entries never age. -/
def agePeriod (s : State) (k : Nat) : Nat := if k = 0 then 0 else fld (reg s .TBL_AGE_PERIOD (k - 1) 0) 15 0 * 1000000000

/-- What a visit does to an entry that is not locked, and whose owner is not frozen. -/
def ageEntry (i : Nat) (ent : Bytes) (s : State) : State :=
  let b := byteAt ent 49
  if bitOf b 3 then writeFlow i (overwrite ent 49 [BitVec.ofNat 8 (b % 8)]) s
  else if !bitOf b 4 then writeFlow i (overwrite ent 49 [BitVec.ofNat 8 (b + 16)]) s
  else notifyFlow 3 i ent 0 ((entryVport ent).getD 0) (tblStat 10 (removeFlow i s))

/-- AGE_VISIT (R284): the first visit of an entry may come at any phase of its period, each later one when the visit before it said, so that a new
period takes effect from the next visit. -/
def execAgeVisit (index : Nat) (s : State) : Outcome :=
  match flowAt s index with
  | none => .next s
  | some ent =>
    let v := agePeriod s (byteAt ent 49 % 8)
    if v = 0 ∨ bankBusy s (bankOfKey s false (flowKey ent)) then .next s
    else
      let s1 := match mfind s.tbl.visits index with
        | some due => advanceTo due s
        | none => s
      let s2 := modTbl (fun t => { t with visits := mput t.visits index (s1.elapsed + v) }) s1
      if (mfind s.tbl.locks index).isSome ∨ (!bitOf (flowOwner ent) 15 && vportFrozen s (flowOwner ent)) then .next s2
      else .next (ageEntry index ent s2)

end Sys2Proof.Machine
end

