-- ==== Sys2Proof/Machine/Cry.lean ====
section
/-!
DEFINITION. CRY's commands (ciphers_and_keys): key and slot operations, look-aside messages, the slot cache, and the engines with
their checker.
-/
namespace Sys2Proof.Machine

/-! ### Key and slot operations (R329 to R331) -/

/-- Run the next entry of a CRYPTO SQ with an opcode once its reads are in: g gets the entry, the bytes read, and answers a status and the
state. A read that failed ends it. -/
def runCry (f : Fn) (q op : Nat) (g : Work → Bytes → State → Nat × State) (s : State) : State :=
  match nextWork s f q 2 op with
  | none => s
  | some w => match readsOf w with
    | none => s
    | some (bs, 0) =>
      let r := g w bs (modWork f q w.ctr (fun w => { w with started := true }) s)
      finishWork f q w.ctr r.1 0 r.2
    | some (_, st) => finishWork f q w.ctr st 0 s

/-- The slot that an entry names (R329). -/
def ctxSlot (w : Work) : Nat := entryField w.entry 4 3 % 1048576

/-- May a submitter write this record over a slot: it may act on the slot, and OWNER stays within its rights (R331)? An empty slot is judged
by the new OWNER alone (assumption 40). -/
def mayWriteSlot (s : State) (f : Fn) (slot : Nat) (rec : Bytes) : Bool :=
  let k := slot_ s slot
  ownerRights s f (leAt rec 4 2) && (k.key.isNone || ownerRights s f k.owner)

/-- VF_CREATED of a write (R325). -/
def ownerFlags (f : Fn) (rec : Bytes) : Bool :=
  match f with
  | .vf _ _ => true
  | .pf _ => false
  | .fw => bitOf (byteAt rec 7) 0

/-- A checked record and key replace a slot (R330). -/
def putSlot (f : Fn) (slot : Nat) (rec key : Bytes) (s : State) : State :=
  modKeySlot slot (fun _ => slotFrom rec key (ownerFlags f rec)) s

/-- KEY_WRITE of a record and 32 key bytes (R330): its status, and the state. -/
def keyWrite (f : Fn) (w : Work) (bs : Bytes) (s : State) : Nat × State :=
  let rec_ := slice bs 0 64
  let key := slice bs 64 32
  let slot := ctxSlot w
  if !recordOk rec_ ∨ (byteAt rec_ 2 = 0 ∧ leNat (key.drop 16) ≠ 0) then (0x02, s)
  else if !mayWriteSlot s f slot rec_ then (0x05, s)
  else (0, putSlot f slot rec_ (if byteAt rec_ 2 = 0 then key.take 16 else key) s)

/-- KEY_WRITE (R330). -/
def execKeyWrite (f : Fn) (q : Nat) (s : State) : Outcome := .next (runCry f q 0x10 (keyWrite f) s)

/-- KEY_UNWRAP under the key of KEK_SLOT, a slot within the submitter's rights (R330, R331): a failed integrity check changes nothing. -/
def keyUnwrapOp (f : Fn) (w : Work) (bs : Bytes) (s : State) : Nat × State :=
  let rec_ := slice bs 0 64
  let slot := ctxSlot w
  let kek := slot_ s (entryField w.entry 24 4 % 1048576)
  if !recordOk rec_ then (0x02, s)
  else if !mayWriteSlot s f slot rec_ then (0x05, s)
  else match kek.key with
  | none => (0x05, s)
  | some kk =>
    if !kek.kek ∨ !ownerRights s f kek.owner then (0x05, s)
    else match keyUnwrap kk (slice bs 64 (if byteAt rec_ 2 = 0 then 24 else 40)) with
    | none => (0x10, s)
    | some key => (0, putSlot f slot rec_ key s)

/-- KEY_UNWRAP (R330). -/
def execKeyUnwrap (f : Fn) (q : Nat) (s : State) : Outcome := .next (runCry f q 0x11 (keyUnwrapOp f) s)

/-- SLOT_UPDATE (R331): NEXT, REKEY_AT and TCP_NEXT; a transmit slot's NEXT never falls, a receive slot's window empties with a new NEXT. -/
def slotUpdate (f : Fn) (w : Work) (bs : Bytes) (s : State) : Nat × State :=
  let slot := ctxSlot w
  let k := slot_ s slot
  let next := leAt bs 32 8
  if !ownerRights s f k.owner then (0x05, s)
  else if !k.dir ∧ next < k.next then (0x05, s)
  else
    (0, modKeySlot slot (fun k => { k with
      next := next, rekeyAt := leAt bs 40 8, tcpNext := leAt bs 48 4, resync := false,
      seen := if k.dir ∧ next ≠ k.next then [] else k.seen, seenBelow := if k.dir ∧ next ≠ k.next then 0 else k.seenBelow }) s)

/-- SLOT_UPDATE (R331). -/
def execSlotUpdate (f : Fn) (q : Nat) (s : State) : Outcome := .next (runCry f q 0x12 (slotUpdate f) s)

/-- SLOT_READ (R329): the record goes to BUF. -/
def slotRead (f : Fn) (q : Nat) (w : Work) (_ : Bytes) (s : State) : Nat × State :=
  let k := slot_ s (ctxSlot w)
  if !ownerRights s f k.owner then (0x05, s)
  else (0, hostWrite f (qPasid (queue s f q)) (entryField w.entry 16 8) (slotRecord k) false s)

/-- SLOT_READ (R329). -/
def execSlotRead (f : Fn) (q : Nat) (s : State) : Outcome := .next (runCry f q 0x13 (slotRead f q) s)

/-- KEY_CLEAR (R330), within the submitter's rights (R331). -/
def execKeyClear (f : Fn) (q : Nat) (s : State) : Outcome :=
  .next (runCry f q 0x14 (fun w _ s =>
    if ownerRights s f (slot_ s (ctxSlot w)).owner then (0, keyClear (ctxSlot w) s) else (0x05, s)) s)

/-! ### Look-aside messages (R333, R337, R339) -/

/-- The 96-bit nonce of a LOOKASIDE slot in counter mode (R333). -/
def laNonce (k : KeySlot) (n : Nat) : Bytes := k.salt.take 4 ++ beBytes 8 n

/-- A look-aside message of an entry whose slot is cached is dispatched (R337, R339). -/
def lookaside (f : Fn) (q : Nat) (encrypt : Bool) (w : Work) (bs : Bytes) (s : State) : State :=
  let slot := ctxSlot w
  let k := slot_ s slot
  let explicit := entryField w.entry 38 1 == 1
  let aadLen := entryField w.entry 36 2
  let len := entryField w.entry 32 4
  let aad := slice bs 0 aadLen
  let text := slice bs aadLen len
  let src : CrySrc := .lookaside f q w.ctr.toNat
  let ctr := w.ctr
  let fin (st : Nat) (s : State) : State := finishWork f q ctr st 0 s
  if cryGone s then fin 0x3F s
  else match k.key with
  | none => fin 0x12 s
  | some key =>
    if k.proto ≠ 0 ∨ k.kek ∨ k.dir = encrypt ∨ !ownerRights s f k.owner then fin 0x05 s
    else if encrypt ∧ explicit ∧ !k.explicitOk ∨ !encrypt ∧ !explicit then fin 0x05 s
    else
      let r := if explicit then (some 0, s) else takeNumber slot s
      match r.1 with
      | none => fin 0x11 r.2
      | some n =>
        let nonce := if explicit then slice (entryBytes w.entry) 40 12 else laNonce k n
        let m : CryMsg := { src := src, slot := slot, encrypt := encrypt, urgency := 1 + entryField w.entry 39 1, n := n,
                            dst := entryField w.entry 24 8, extra := if explicit then 0 else n }
        let m1 := if encrypt then
            let o := gcmSeal key nonce aad text
            { m with out := o.1 ++ o.2 }
          else match gcmOpen key nonce aad text (slice bs (aadLen + len) 16) with
            | some t => { m with out := t }
            | none => { m with ok := false }
        dispatch m1 (modWork f q ctr (fun w => { w with started := true }) r.2)

/-- The next look-aside entry of an opcode runs once its reads are in and its slot is cached (R327). -/
def runLookaside (f : Fn) (q op : Nat) (encrypt : Bool) (s : State) : State :=
  match nextWork s f q 2 op with
  | none => s
  | some w => match readsOf w with
    | none => s
    | some (bs, 0) =>
      let c := useCache (ctxSlot w) s
      if c.1 then lookaside f q encrypt w bs c.2 else c.2
    | some (_, st) => finishWork f q w.ctr st 0 s

/-- LA_ENCRYPT (R339). -/
def execLaEncrypt (f : Fn) (q : Nat) (s : State) : Outcome := .next (runLookaside f q 0x01 true s)

/-- LA_DECRYPT (R339). -/
def execLaDecrypt (f : Fn) (q : Nat) (s : State) : Outcome := .next (runLookaside f q 0x02 false s)

/-- SLOT_FETCH_DONE (R327): the slot is in the cache of 4,096, and what waits for it proceeds. -/
def execSlotFetchDone (slot : Nat) (s : State) : Outcome :=
  if s.cry.fetching.contains slot then
    .next (modCry (fun c => { c with fetching := c.fetching.filter (· != slot), cache := (slot :: c.cache.filter (· != slot)).take 4096 }) s)
  else .next s

/-! ### Engines and the checker (R322, R323, R335, R336, R340) -/

/-- Is a number below the replay window, or already taken (R335)? -/
def replayed (k : KeySlot) (n : Nat) : Bool :=
  k.replay && (decide (n + k.window < k.next) || k.seen.contains n || decide (n < k.seenBelow))

/-- A frame with this number has authenticated: the window and NEXT of its slot change (R336). -/
def acceptNumber (k : KeySlot) (n : Nat) : KeySlot :=
  let next := max k.next (n + 1)
  { k with next := next, seen := (n :: k.seen).filter (fun m => decide (next ≤ m + 128)) }

/-- One more in a saturating count of a slot. -/
def bumpSlot (n : Nat) : Nat := satAdd 0xFFFFFFFF n 1

/-- A decrypted frame of a slot is released, or dropped where its tag fails or its number is taken (R335, R336). -/
def releaseDecrypted (m : CryMsg) (id : Nat) (s : State) : State :=
  let k := slot_ s m.slot
  if !m.ok then
    dropFrame id 0x05 (cryEvent 0x05 m.slot (cryStat 0 (modKeySlot m.slot (fun k => { k with authFails := bumpSlot k.authFails }) s)))
  else if k.proto ≠ 3 ∧ replayed k m.n then
    dropFrame id 0x05 (cryStat 1 (modKeySlot m.slot (fun k => { k with replays := bumpSlot k.replays }) s))
  else
    let s1 := modKeySlot m.slot (fun k => if k.proto = 3 then { k with next := m.n + 1, tcpNext := m.extra } else acceptNumber k m.n) s
    modFrame id (fun f => { f with bytes := m.out, inCry := false, decrypted := true }) s1

/-- A mark after an edit: e.2.1 bytes from e.1 on have given way to e.2.2 others, and the mark of a removed byte is invalid (R266, R334). -/
def editMark (p : Option Nat) (e : Nat × Nat × Nat) : Option Nat :=
  p.bind (fun p => if p < e.1 then some p else if p < e.1 + e.2.1 then none else some (p + e.2.2 - e.2.1))

/-- An output is released (R322): a look-aside message writes DST and completes, a frame goes on with its new bytes. -/
def releaseMsg (m : CryMsg) (s : State) : State :=
  match m.src with
  | .lookaside f q ctr =>
    let c := BitVec.ofNat 16 ctr
    if !m.ok then finishWork f q c 0x10 0 s
    else finishWork f q c 0 (at_ 40 m.extra) (hostWrite f (qPasid (queue s f q)) m.dst m.out false s)
  | .frame id =>
    let moved (s : State) : State := modFrame id (fun f => { f with marks := f.marks.map (fun p => m.edits.foldl editMark p) }) s
    if m.encrypt then moved (modFrame id (fun f => { f with bytes := m.out, inCry := false }) s)
    else if m.ok then modFrame id (fun f => { f with marks := f.marks.map (cutMark m.out.length) }) (moved (releaseDecrypted m id s))
    else releaseDecrypted m id s

/-- CIPHER_DONE (R322, R323): a checker is in use, and it agrees. A second run that passes charges the first engine, a third run through the spare checker
the checker in use. -/
def execCipherDone (engine : Nat) (s : State) : Outcome :=
  match (cryEngine s engine).running with
  | none => .next s
  | some m => if (activeUnits s 2).isEmpty then .next s else
    let s1 := releaseMsg m (modEngine engine (fun u => { u with running := none }) (worked (.cryEngine engine) s))
    let s2 := match m.refused with
      | [] => s1
      | [e] => countFault 1 e 0 false s1
      | _ => match activeUnits s1 2 with
        | c :: _ => countFault 2 c 0 false s1
        | [] => s1
    .next (engineNext engine s2)

/-- CHECKER_MISMATCH (R323): the output is discarded and the message runs again from its start, on another engine and then through the spare
checker; a message that fails every run is held. -/
def execCheckerMismatch (engine : Nat) (s : State) : Outcome :=
  match (cryEngine s engine).running with
  | none => .next s
  | some m =>
    let m1 := { m with refused := m.refused ++ [engine] }
    let s1 := modEngine engine (fun u => { u with running := none }) s
    if 3 ≤ m1.refused.length then
      .next (engineNext engine (modCry (fun c => { c with held := c.held ++ [{ m1 with refused := [] }] }) s1))
    else
      -- another engine than the one that failed, where there is one
      match (activeUnits s1 1).find? (fun e => e != engine && engineRuns s1 e && (cryEngine s1 e).running.isNone) with
      | some e => .next (engineNext engine (modEngine e (fun u => { u with running := some m1 }) s1))
      | none => .next (modCry (fun c => { c with waiting := m1 :: c.waiting }) (engineNext engine s1))

/-- SUSPEND_MESSAGE (R340): a more urgent message waits, no engine is free, and among the engines that hold no suspended message the one
running the least urgent look-aside message suspends it; ties go to the message with the most bytes. -/
def execSuspendMessage (s : State) : Outcome :=
  let act := activeUnits s 1
  match mostUrgent s.cry.waiting with
  | none => .next s
  | some w =>
    if act.any (fun e => engineRuns s e && (cryEngine s e).running.isNone) then .next s
    else
      let able := act.filterMap (fun e =>
        let u := cryEngine s e
        match u.running, u.suspended with
        | some m, none => if w.urgency < m.urgency ∧ m.urgency ≠ 0 then some (e, m) else none
        | _, _ => none)
      let better (a b : Nat × CryMsg) : Nat × CryMsg :=
        if a.2.urgency < b.2.urgency ∨ (a.2.urgency = b.2.urgency ∧ a.2.out.length < b.2.out.length) then b else a
      match able with
      | [] => .next s
      | a :: t =>
        let v := t.foldl better a
        .next (cryStat 7 (modEngine v.1 (fun _ => { running := some w, suspended := some v.2 })
          (modCry (fun c => { c with waiting := dropFirst (· == w) c.waiting }) s)))

end Sys2Proof.Machine
end

