-- ==== Sys2Proof/Machine/Cipher.lean ====
section
/-!
DEFINITION. What ENCRYPT and DECRYPT make of a frame (R332 to R338): ESP, MACsec and TLS 1.3 records.  A frame's bytes do not include
its FCS.
-/
namespace Sys2Proof.Machine

/-! ### Internet checksums -/

/-- The 16-bit one's complement sum of bytes, from a start value. -/
def sum16 : Bytes → Nat → Nat
  | a :: b :: t, s => sum16 t (s + a.toNat * 256 + b.toNat)
  | [a], s => s + a.toNat * 256
  | [], s => s

/-- A sum folded to 16 bits. -/
def fold16 (s : Nat) : Nat :=
  let a := s % 65536 + s / 65536
  let b := a % 65536 + a / 65536
  b % 65536 + b / 65536

/-- The checksum of bytes (all ones complement of the sum). -/
def inetSum (bs : Bytes) : Nat := 65535 - fold16 (sum16 bs 0)

/-- IP version of the header at a position. -/
def ipVersion (bs : Bytes) (p : Nat) : Nat := byteAt bs p / 16

/-- Length of an IPv4 header. -/
def ihl (bs : Bytes) (p : Nat) : Nat := 4 * (byteAt bs p % 16)

/-- The IPv4 header checksum at p recomputed. -/
def fixIp4Sum (bs : Bytes) (p : Nat) : Bytes :=
  let z := overwrite bs (p + 10) [0, 0]
  overwrite z (p + 10) (beBytes 2 (inetSum (slice z p (ihl z p))))

/-- The length of the IP packet at p changed by d bytes, and with it the IPv4 checksum. -/
def fixIpLength (bs : Bytes) (p : Nat) (d : Int) : Bytes :=
  if ipVersion bs p = 6 then overwrite bs (p + 4) (beBytes 2 (((beAt bs (p + 4) 2 : Int) + d).toNat % 65536))
  else fixIp4Sum (overwrite bs (p + 2) (beBytes 2 (((beAt bs (p + 2) 2 : Int) + d).toNat % 65536))) p

/-- The protocol field of the IP header at p, and setting it. -/
def ipProto (bs : Bytes) (p : Nat) : Nat := if ipVersion bs p = 6 then byteAt bs (p + 6) else byteAt bs (p + 9)

def setIpProto (bs : Bytes) (p v : Nat) : Bytes :=
  if ipVersion bs p = 6 then overwrite bs (p + 6) [BitVec.ofNat 8 v] else fixIp4Sum (overwrite bs (p + 9) [BitVec.ofNat 8 v]) p

/-- The end of the IP packet at p. -/
def ipEnd (bs : Bytes) (p : Nat) : Nat := if ipVersion bs p = 6 then p + 40 + beAt bs (p + 4) 2 else p + beAt bs (p + 2) 2

/-- The TCP checksum of the segment at l4 in the IP packet at p recomputed. -/
def fixTcpSum (bs : Bytes) (p l4 : Nat) : Bytes :=
  let len := ipEnd bs p - l4
  let z := overwrite bs (l4 + 16) [0, 0]
  let pseudo := (if ipVersion bs p = 6 then slice bs (p + 8) 32 else slice bs (p + 12) 8) ++ beBytes 2 6 ++ beBytes 2 len
  overwrite z (l4 + 16) (beBytes 2 (inetSum (pseudo ++ slice z l4 len)))

/-! ### Operands and results -/

/-- Positions that an ENCRYPT or DECRYPT entry names (R333): the protected byte, the IP header and the TCP header. -/
structure CryMarks where
  mark : Nat
  ip : Nat
  l4 : Nat
deriving DecidableEq, Repr

/-- A transformed frame: its bytes, and its edits as position, bytes removed, bytes inserted. -/
structure CryOut where
  bytes : Bytes
  edits : List (Nat × Nat × Nat) := []
deriving DecidableEq, Repr

/-! ### ESP (R333, R334, R336) -/

/-- Additional data of ESP (R333). -/
def espAad (k : KeySlot) (n : Nat) : Bytes :=
  beBytes 4 k.spi ++ (if bitOf k.param 0 then beBytes 8 n else beBytes 4 (n % 2 ^ 32))

/-- ESP encryption from MARK to the end of the frame (R334). -/
def espSeal (k : KeySlot) (key : Bytes) (n : Nat) (m : CryMarks) (bs : Bytes) : CryOut :=
  let transport := bitOf k.param 1
  let body := bs.drop m.mark
  let pad := (4 - (body.length + 2) % 4) % 4
  let next := if transport then ipProto bs m.ip else if ipVersion bs m.mark = 6 then 41 else 4
  let text := body ++ ([1, 2, 3] : Bytes).take pad ++ [BitVec.ofNat 8 pad, BitVec.ofNat 8 next]
  let o := gcmSeal key (k.salt.take 4 ++ beBytes 8 n) (espAad k n) text
  let esp := beBytes 4 k.spi ++ beBytes 4 (n % 2 ^ 32) ++ beBytes 8 n ++ o.1 ++ o.2
  let all := bs.take m.mark ++ esp
  { bytes := if transport then fixIpLength (setIpProto all m.ip 50) m.ip ((esp.length : Int) - body.length) else all,
    edits := [(m.mark, 0, 16)] }

/-- The 64-bit number of a received low half, as RFC 4303 Appendix A infers it (R335). -/
def inferNumber (k : KeySlot) (low : Nat) : Nat :=
  let top := k.next - 1
  let w := max 1 k.window
  let tl := top % 2 ^ 32
  let th := top / 2 ^ 32
  if w - 1 ≤ tl then (if tl + 1 - w ≤ low then th * 2 ^ 32 + low else (th + 1) * 2 ^ 32 + low)
  else (if tl + 2 ^ 32 + 1 - w ≤ low ∧ 0 < th then (th - 1) * 2 ^ 32 + low else th * 2 ^ 32 + low)

/-- The number of a received ESP packet whose header stands at MARK. -/
def espNumber (k : KeySlot) (m : CryMarks) (bs : Bytes) : Nat :=
  let low := beAt bs (m.mark + 4) 4
  if bitOf k.param 0 then inferNumber k low else low

/-- ESP decryption (R336): none where the tag fails. Header, IV, padding, trailer and ICV go. -/
def espOpen (k : KeySlot) (key : Bytes) (n : Nat) (m : CryMarks) (bs : Bytes) : Option CryOut :=
  let body := bs.drop (m.mark + 16)
  let ct := body.take (body.length - 16)
  match gcmOpen key (k.salt.take 4 ++ slice bs (m.mark + 8) 8) (espAad k n) ct (body.drop (body.length - 16)) with
  | none => none
  | some t =>
    let pad := byteAt t (t.length - 2)
    let next := byteAt t (t.length - 1)
    let inner := t.take (t.length - 2 - pad)
    let all := bs.take m.mark ++ inner
    some { bytes := if bitOf k.param 1 then fixIpLength (setIpProto all m.ip next) m.ip (-((bs.length : Int) - all.length)) else all,
           edits := [(m.mark, 16, 0)] }

/-! ### MACsec (R333, R334, R336) -/

/-- The nonce of MACsec (R333). -/
def macsecNonce (k : KeySlot) (n : Nat) : Bytes := xorBytes (beBytes 4 k.spi ++ beBytes 8 n) k.salt

/-- MACsec encryption after the source address (R334). -/
def macsecSeal (k : KeySlot) (key : Bytes) (n : Nat) (bs : Bytes) : CryOut :=
  let body := bs.drop 12
  let tci := at_ 5 (b2n k.sciInclude) + 0x0C + k.param % 4
  let tag := beBytes 2 0x88E5 ++ [BitVec.ofNat 8 tci, BitVec.ofNat 8 (if body.length < 48 then body.length else 0)] ++ beBytes 4 (n % 2 ^ 32)
    ++ (if k.sciInclude then beBytes 8 k.sci else [])
  let o := gcmSeal key (macsecNonce k n) (bs.take 12 ++ tag) body
  { bytes := bs.take 12 ++ tag ++ o.1 ++ o.2, edits := [(12, 0, tag.length)] }

/-- The SecTAG's length, AN and SCI match of a received frame (R335). -/
def secTagLen (bs : Bytes) : Nat := if bitOf (byteAt bs 14) 5 then 16 else 8

def macsecMatches (k : KeySlot) (bs : Bytes) : Bool :=
  beAt bs 12 2 == 0x88E5 && byteAt bs 14 % 4 == k.param % 4 && (!bitOf (byteAt bs 14) 5 || beAt bs 20 8 == k.sci)

/-- MACsec decryption (R336): none where the tag fails. -/
def macsecOpen (k : KeySlot) (key : Bytes) (n : Nat) (bs : Bytes) : Option CryOut :=
  let tl := secTagLen bs
  let rest := bs.drop (12 + tl)
  let sl := byteAt bs 15 % 64
  let ctLen := if sl ≠ 0 ∧ sl + 16 ≤ rest.length then sl else rest.length - 16
  match gcmOpen key (macsecNonce k n) (bs.take (12 + tl)) (rest.take ctLen) (slice rest ctLen 16) with
  | none => none
  | some t => some { bytes := bs.take 12 ++ t, edits := [(12, tl, 0)] }

/-! ### TLS 1.3 records (R333, R334, R336, R338) -/

/-- The nonce of TLS 1.3 (R333). -/
def tlsNonce (k : KeySlot) (n : Nat) : Bytes := xorBytes k.salt (beBytes 4 0 ++ beBytes 8 n)

/-- The TCP payload at MARK holds exactly one whole record of application data with room for its tag (R334, R335). -/
def tlsWhole (m : CryMarks) (bs : Bytes) : Bool :=
  let len := beAt bs (m.mark + 3) 2
  byteAt bs m.mark == 23 && decide (16 ≤ len) && decide (m.mark + 5 + len = ipEnd bs m.ip) && decide (ipEnd bs m.ip ≤ bs.length)

/-- The TCP sequence number of a segment, and its payload length. -/
def tcpSeq (m : CryMarks) (bs : Bytes) : Nat := beAt bs (m.l4 + 4) 4
def tlsPayload (m : CryMarks) (bs : Bytes) : Nat := ipEnd bs m.ip - m.mark

/-- TLS encryption in place (R334). -/
def tlsSeal (k : KeySlot) (key : Bytes) (n : Nat) (m : CryMarks) (bs : Bytes) : CryOut :=
  let len := beAt bs (m.mark + 3) 2
  let o := gcmSeal key (tlsNonce k n) (slice bs m.mark 5) (slice bs (m.mark + 5) (len - 16))
  { bytes := fixTcpSum (overwrite bs (m.mark + 5) (o.1 ++ o.2)) m.ip m.l4 }

/-- TLS decryption in place (R336): none where the tag fails; header and tag bytes stay. -/
def tlsOpen (k : KeySlot) (key : Bytes) (n : Nat) (m : CryMarks) (bs : Bytes) : Option CryOut :=
  let len := beAt bs (m.mark + 3) 2
  match gcmOpen key (tlsNonce k n) (slice bs m.mark 5) (slice bs (m.mark + 5) (len - 16)) (slice bs (m.mark + 5 + len - 16) 16) with
  | none => none
  | some t => some { bytes := overwrite bs (m.mark + 5) t }

/-! ### ENCRYPT and DECRYPT of a frame -/

/-- A message of a frame goes to CRY; the frame waits for it. -/
def sendFrame (id : Nat) (m : CryMsg) (s : State) : State := dispatch m (modFrame id (fun f => { f with inCry := true }) s)

/-- ENCRYPT of a frame under a slot (R334, R337, R338). -/
def encryptFrame (id slot proto : Nat) (m : CryMarks) (s : State) : State :=
  match frameOf s id with
  | none => s
  | some fr =>
    let k := slot_ s slot
    let src : CrySrc := .frame id
    let cipherWith (n : Nat) (key : Bytes) (s : State) : State :=
      let o := if proto = 1 then espSeal k key n m fr.bytes else if proto = 2 then macsecSeal k key n fr.bytes else tlsSeal k key n m fr.bytes
      sendFrame id { src := src, slot := slot, encrypt := true, n := n, out := o.bytes, edits := o.edits } s
    if cryGone s then refuseMsg src 0x3F 6 s
    else match k.key with
    | none => refuseMsg src 0x12 2 s
    | some key =>
      if k.proto ≠ proto ∨ k.proto = 0 ∨ k.dir ∨ k.kek then refuseMsg src 0x05 3 s
      else if proto = 3 then
        let seq := tcpSeq m fr.bytes
        if !tlsWhole m fr.bytes then refuseMsg src 0x05 3 s
        else if seq = k.tcpNext then
          let r := takeNumber slot s
          match r.1 with
          | none => refuseMsg src 0x11 4 r.2
          | some n => cipherWith n key (modKeySlot slot (fun k => { k with
              tcpNext := (k.tcpNext + tlsPayload m fr.bytes) % 2 ^ 32, history := ((seq, n) :: k.history).take 16 }) r.2)
        else match k.history.find? (fun e => e.1 == seq) with
        | some e => cipherWith e.2 key s
        | none => refuseMsg src 0x05 3 s
      else
        let r := takeNumber slot s
        match r.1 with
        | none => refuseMsg src 0x11 4 r.2
        | some n => cipherWith n key r.2

/-- DECRYPT of a frame under a slot: the first outcome of R335 that applies before the cipher runs; the rest at its end. -/
def decryptFrame (id slot proto : Nat) (m : CryMarks) (s : State) : State :=
  match frameOf s id with
  | none => s
  | some fr =>
    let k := slot_ s slot
    let bs := fr.bytes
    let drop (stat : Nat) (s : State) : State := dropFrame id 0x05 (cryStat stat s)
    let send (n extra : Nat) (o : Option CryOut) (s : State) : State :=
      sendFrame id { src := .frame id, slot := slot, encrypt := false, n := n, extra := extra, ok := o.isSome,
                     out := (o.map CryOut.bytes).getD [], edits := (o.map CryOut.edits).getD [] } s
    let replayDrop (s : State) : State := drop 1 (modKeySlot slot (fun k => { k with replays := bumpSlot k.replays }) s)
    if cryGone s then refuseMsg (.frame id) 0x3F 6 s
    else match k.key with
    | none => drop 2 s
    | some key =>
      if k.proto ≠ proto ∨ proto = 0 ∨ !k.dir ∨ k.kek ∨ (proto = 1 ∧ beAt bs m.mark 4 ≠ k.spi) ∨ (proto = 2 ∧ !macsecMatches k bs) then drop 3 s
      else if proto = 3 then
        if tcpSeq m bs ≠ k.tcpNext ∨ !tlsWhole m bs ∨ k.resync then
          let s1 := cryStat 5 (modKeySlot slot (fun k => { k with resync := true }) s)
          if k.resync then s1 else cryEvent 0x07 slot s1
        else send k.next ((k.tcpNext + tlsPayload m bs) % 2 ^ 32) (tlsOpen k key k.next m bs) s
      else if proto = 1 then
        let n := espNumber k m bs
        if replayed k n then replayDrop s else send n 0 (espOpen k key n m bs) s
      else
        let n := inferNumber k (beAt bs 16 4)
        if replayed k n then replayDrop s else send n 0 (macsecOpen k key n bs) s

end Sys2Proof.Machine
end

