-- ==== Sys2Proof/Machine/Parse.lean ====
section
/-!
DEFINITION. Frastra parse engines: dispatch, microwords, micro-traps, fragments, hand-over of results, loads and parity (R226 to R257), and
the end of a received frame (R18).
-/
namespace Sys2Proof.Machine

/-- A PRS event (R257). -/
def prsEvent (code detail : Nat) (s : State) : State := raise 0x6 code detail .device s

/-- Counters that a parse will count in PRS_STAT once its frame's FCS is good (R228, R256): 0 UNBOUND_DROP, 1 MICRO_DROP, 2 EXCEPTION,
3 BUDGET, 4 DOUBLE_TRAP, 5 FRAG_FIRST, 6 FRAG_HIT, 7 FRAG_MISS, 8 FRAG_FULL. -/
def noteCount (id k : Nat) (s : State) : State := modFrame id (fun f => { f with prsCounts := f.prsCounts ++ [k] }) s

/-! ### Dispatch (R228 to R232, R241, R442) -/

/-- The ingress source of R228: a logical port, the host transmit of a PF, an Akzal port, or the injection path. -/
def ingressSrc (f : Frame) : Nat := if f.ingress % 8 = 3 then 3 else f.ingress

/-- The register that binds a frame's ingress to an entry point. -/
def bindOf (s : State) (f : Frame) : Word :=
  let i := f.ingress / 16
  match f.ingress % 8 with
  | 0 => reg s .PRS_BIND_LPORT i 0
  | 1 => reg s .PRS_BIND_HOST i 0
  | 2 => reg s .PRS_BIND_AKZ i 0
  | _ => reg s .PRS_BIND_SVC 0 0

/-- The entry point of a frame and its first word; none where it is unbound (R241). -/
def entryOf (s : State) (f : Frame) : Option (Nat × Nat) :=
  let b := bindOf s f
  let named : Option Nat := match f.entryPoint with
    | some e => some e
    | none => if wbit b 31 then some (fld b 4 0) else none
  match named with
  | some e =>
    let x := s.prs.image.entries.getD e 0
    if wbit (reg s .PRS_EP e 0) 31 ∧ bitOf x 31 then some (e, bits x 12 0) else none
  | none => none

/-- The packet window (R230): a host-transmitted frame has no FCS. An Akzal or service frame brings none either, and the FCS bytes of one of 253
to 255 bytes are those that its bytes give (assumption 129). -/
def windowOf (f : Frame) : Bytes :=
  if f.ingress % 8 = 1 ∨ f.bytes.length ≤ 252 then f.bytes.take 256
  else (f.bytes ++ leBytes 4 (if f.ingress % 8 = 0 then f.fcs else crc32 f.bytes)).take 256

/-- Bytes 0 to 31 of the header vector (R232). -/
def hvHead (f : Frame) (w e : Nat) : Bytes :=
  leBytes 2 f.ingress ++ leBytes 2 f.vport ++ leBytes 2 w ++ [BitVec.ofNat 8 e, BitVec.ofNat 8 f.rxFlags] ++ leBytes 8 (toNs f.ts)
    ++ leBytes 8 f.metadata ++ List.replicate 8 0

/-- The hash key, from its most significant bit (R246, R256). -/
def hashKey (s : State) : Nat := (List.range 18).foldl (fun k i => k * 2 ^ 32 + (reg s .PRS_HASH_KEY i 0).toNat) 0

/-- The engine as the first microword finds it (R231, R232). -/
def freshEngine (s : State) (id : Nat) (f : Frame) (e pc : Nat) : Engine :=
  let win := windowOf f
  let g : List Nat := [0, win.length, f.ingress + at_ 16 f.vport] ++ List.replicate 13 0
  { frame := id, entry := e, pc := pc, g := g, hv := hvHead f win.length e ++ List.replicate 480 0, window := win, key := hashKey s }

/-- Is a frame the oldest of its ingress source that waits for dispatch (R228)? -/
def nextToParse (s : State) (id : Nat) (f : Frame) : Bool :=
  !s.tm.frames.any (fun e => decide (e.1 < id) && e.2.parent.isNone && e.2.stage == .waiting && ingressSrc e.2 == ingressSrc f)

/-- The header vector of a frame that no engine parses. -/
def bareHv (f : Frame) : Bytes := hvHead f (windowOf f).length 0 ++ List.replicate 480 0

/-- A frame gets its result without a parse: DROP of an unbound frame, counted (R241), or 3 where no pair is left (R442). -/
def dropUnparsed (id disp : Nat) (f : Frame) (s : State) : State :=
  let hv := overwrite (overwrite (bareHv f) 57 [0xFF]) 59 [BitVec.ofNat 8 disp]
  modFrame id (fun f => { f with stage := .parsed, hv := hv, prsCounts := if disp = 2 then [0] else [] }) s

/-- Is a host frame dropped by SPOOF_CHECK: its source address is not among the VF's unicast filters (R187)? -/
def spoofed (s : State) (f : Frame) : Bool :=
  match f.origin with
  | some (fn, _, _) => isVf fn && wbit (vfPerm s fn) 0 &&
      !s.mac.filters.any (fun e => bitOf (byteAt e.2 10) 0 && !isMulticast e.2 && fltVport e.2 == f.vport && slice e.2 0 6 == slice f.bytes 6 6)
  | none => false

/-- May an engine take this frame: free, of an active pair that runs and holds no failing line, and of another pair where a re-run asks for
one (R228, R229, R255)? -/
def engineFree (s : State) (f : Frame) (e : Nat) : Bool :=
  let act := activeUnits s 0
  act.contains (e / 2) && (domainSt s (.prsPair (e / 2))).st == .running && !s.prs.rewriting.contains (e / 2) && (mfind s.prs.engines e).isNone
    && (f.notPair != some (e / 2) || act == [e / 2])

/-- Every pair has gone: a port, Akzal or injected frame is dropped and counted in REL_CAP_DROP, a host frame ends with
CAPACITY_EXHAUSTED (R442). -/
def prsGone (id : Nat) (f : Frame) (s : State) : State :=
  dropFrame id 0x3F (if f.origin.isSome then s else bump .REL_CAP_DROP 0 0 1 s)

/-! ### The microword (R233 to R240) -/

/-- Field [hi:lo] of a microword. -/
def mw (w hi lo : Nat) : Nat := bits w hi lo

/-- Register r of an engine: G0 reads 0 (R231). -/
def greg (e : Engine) (r : Nat) : Nat := if r = 0 then 0 else e.g.getD r 0

/-- An engine with G[r] written, 32 bits; G0 ignores writes. -/
def setG (r v : Nat) (e : Engine) : Engine := if r = 0 then e else { e with g := e.g.set r (v % 2 ^ 32) }

/-- The store word at a pc; a word beyond the image reads zero (assumption 84). -/
def wordAt (s : State) (pc : Nat) : Nat := s.prs.image.words.getD pc 0

/-- Does the predicate let the slots act (R234)? -/
def predOk (e : Engine) (w : Nat) : Bool :=
  !bitOf w 20 || ((greg e (mw w 18 15) != 0) == bitOf w 19)

/-- Does an extract's slot write header-vector bytes outside 64 to 511? dst: its lowest bit. -/
def badDst (dst len : Nat) : Bool := decide (dst < 64 ∨ 512 < dst + len)

/-- ILLEGAL by the word itself, whether or not its predicate passes (R234, R235, R236, R238, R244; assumption 85). -/
def illegalWord (e : Engine) (w : Nat) : Bool :=
  let ld := bitOf w 143
  let st := bitOf w 82
  let alu := mw w 127 124
  let aux := mw w 52 49
  let arg := mw w 48 45
  let ldDst := mw w 139 136
  let aluDst := mw w 123 120
  mw w 14 0 != 0
    || (ld && mw w 141 140 == 3) || (st && mw w 81 80 == 3) || alu == 15 || decide (7 ≤ aux) || (aux == 2 && decide (1 < arg))
    || (aux == 5 && (decide (1 < arg) || e.saved.isNone))
    || (mw w 191 189 == 7 && (decide (3 ≤ mw w 184 181) || (mw w 184 181 == 1 && decide (128 ≤ mw w 175 168))))
    || (bitOf w 167 && badDst (mw w 152 144) (mw w 157 153 + 1)) || (bitOf w 44 && badDst (mw w 29 21) (mw w 34 30 + 1))
    || (st && badDst (mw w 75 67) (2 ^ mw w 81 80))
    || (ld && alu != 0 && ldDst == aluDst && ldDst != 0)
    || (aux == 2 && ((ld && (ldDst == 12 || ldDst == 13)) || (alu != 0 && (aluDst == 12 || aluDst == 13))))

/-- The first missing byte of a window read of n bytes at a, where it reaches W (R237, R242). -/
def missing (e : Engine) (a n : Nat) : Option Nat := if e.window.length < a + n then some (max a e.window.length) else none

/-- MARK1 and MARK2 as FRAG uses them: MARK1 by its value (R249). -/
def mark1 (e : Engine) : Nat := e.marks.getD 1 0

/-- The first window byte that a word's reads lack, in the order XA, XB, LD, FRAG. -/
def firstMissing (e : Engine) (w : Nat) : Option Nat :=
  let xa := if bitOf w 167 then missing e (e.cursor + mw w 165 158) (mw w 157 153 + 1) else none
  let xb := if bitOf w 44 then missing e (e.cursor + mw w 42 35) (mw w 34 30 + 1) else none
  let ldAt := (if bitOf w 142 then 0 else e.cursor) + mw w 135 128
  let ld := if bitOf w 143 then missing e ldAt (2 ^ mw w 141 140) else none
  let fr := if mw w 52 49 ≠ 2 then none
    else if mw w 48 45 = 0 then missing e (mark1 e) 20
    else (missing e (mark1 e) 40).or (missing e e.cursor 8)
  xa.or (xb.or (ld.or fr))

/-- The trap that a word takes, with its sub-code: ILLEGAL, BOUNDS, STACK, SOFT, in that order (R242; assumption 85). -/
def trapOf (e : Engine) (w : Nat) : Option (Nat × Nat) :=
  let br := mw w 191 189
  if illegalWord e w then some (2, 0)
  else match (if predOk e w then firstMissing e w else none) with
  | some a => some (0, a)
  | none =>
    if mw w 52 49 = 5 ∧ predOk e w then none
    else if br = 5 ∧ 4 ≤ e.depth then some (1, 0)
    else if br = 6 ∧ e.depth = 0 then some (1, 1)
    else if mw w 52 49 = 4 ∧ predOk e w then some (3, mw w 48 45) else none

/-- The ones'-complement sum of the halves of A and B, folded to 16 bits (R236). -/
def csum (a b : Nat) : Nat := fold16 (a / 65536 + a % 65536 + b / 65536 + b % 65536)

/-- ALU results (R236), one per operation. -/
def aluAdd (a b : Nat) : Nat := (a + b) % 2 ^ 32
def aluSub (a b : Nat) : Nat := (BitVec.ofNat 32 a - BitVec.ofNat 32 b).toNat
def aluShl (a b : Nat) : Nat := (a * 2 ^ (b % 32)) % 2 ^ 32
def aluShr (a b : Nat) : Nat := a / 2 ^ (b % 32)
def aluBfx (a b : Nat) : Nat := let w := bits b 9 5; (a / 2 ^ (b % 32)) % 2 ^ (if w = 0 then 32 else w)

/-- The ALU's result. -/
def aluResult (op a b : Nat) : Nat :=
  match op with
  | 1 => aluAdd a b
  | 2 => aluSub a b
  | 3 => a &&& b
  | 4 => a ||| b
  | 5 => a ^^^ b
  | 6 => aluShl a b
  | 7 => aluShr a b
  | 8 => b
  | 9 => aluBfx a b
  | 10 => b2n (a == b)
  | 11 => b2n (decide (a < b))
  | 12 => min a b
  | 13 => max a b
  | _ => csum a b

/-- The header-vector writes of XA, XB and ST, in that order (R234). -/
def hvWrites (e : Engine) (w : Nat) : Bytes :=
  let a := if bitOf w 167 then overwrite e.hv (mw w 152 144) (slice e.window (e.cursor + mw w 165 158) (mw w 157 153 + 1)) else e.hv
  let b := if bitOf w 44 then overwrite a (mw w 29 21) (slice e.window (e.cursor + mw w 42 35) (mw w 34 30 + 1)) else a
  let n := 2 ^ mw w 81 80
  if bitOf w 82 then overwrite b (mw w 75 67) (beBytes n (greg e (mw w 79 76))) else b

/-- Bytes that a word feeds to the hash: XA, XB, HASHREG (R238). -/
def hashFeed (e : Engine) (w : Nat) : Bytes :=
  (if bitOf w 167 && bitOf w 166 then slice e.window (e.cursor + mw w 165 158) (mw w 157 153 + 1) else [])
    ++ (if bitOf w 44 && bitOf w 43 then slice e.window (e.cursor + mw w 42 35) (mw w 34 30 + 1) else [])
    ++ (if mw w 52 49 = 3 then beBytes 4 (greg e (mw w 48 45)) else [])

/-- Register writes of LD and the ALU (R234). -/
def regWrites (e : Engine) (w : Nat) (x : Engine) : Engine :=
  let at_ := (if bitOf w 142 then 0 else e.cursor) + mw w 135 128
  let x1 := if bitOf w 143 then setG (mw w 139 136) (beNat (slice e.window at_ (2 ^ mw w 141 140))) x else x
  let b := if bitOf w 115 then mw w 114 83 else greg e (mw w 86 83)
  if mw w 127 124 = 0 then x1 else setG (mw w 123 120) (aluResult (mw w 127 124) (greg e (mw w 119 116)) b) x1

/-- The cursor after a word; it saturates at 511 (R234). -/
def nextCursor (e : Engine) (w : Nat) : Nat :=
  min 511 (match mw w 66 65 with
    | 0 => e.cursor
    | 1 => e.cursor + mw w 60 53
    | 2 => e.cursor + greg e (mw w 64 61)
    | _ => mw w 60 53)

/-! ### Fragments (R249 to R251) -/

/-- TIMEOUT of PRS_FRAG_CFG, ns. -/
def fragTimeout (s : State) : Nat := max 1 (dfld s .PRS_FRAG_CFG 15 0) * 1000000

/-- Is a fragment entry live: for up to TIMEOUT + 1 ms after its last refresh (R250)? -/
def fragLive (s : State) (x : Frag) : Bool := decide (s.elapsed < x.at_ + fragTimeout s + 1000000)

/-- The fields of a fragment: key, offset not zero, and MF or M (R249). -/
def fragFields (e : Engine) (v6 : Bool) : List Nat × Bool × Bool :=
  let m := mark1 e
  let head := [leAt e.hv 0 2, leAt e.hv 2 2, greg e 11]
  let at_ (n o : Nat) : Nat := beAt e.window o n
  if v6 then
    (head ++ [1, at_ 16 (m + 8), at_ 16 (m + 24), at_ 1 e.cursor, at_ 4 (e.cursor + 4)], at_ 2 (e.cursor + 2) / 8 != 0, bitOf (at_ 2 (e.cursor + 2)) 0)
  else (head ++ [0, at_ 4 (m + 12), at_ 4 (m + 16), at_ 1 (m + 9), at_ 2 (m + 4)], at_ 2 (m + 6) % 8192 != 0, bitOf (at_ 2 (m + 6)) 13)

/-- The set of a key (the spec does not give the placement: Config.fragSet). -/
def fragSetOf (key : List Nat) : Nat := Config.fragSet key % 16384

/-- The way of a set that holds a live entry with this key. -/
def fragFind (s : State) (key : List Nat) : Option Nat :=
  (List.range 4).find? (fun w => match mfind s.prs.frags (fragSetOf key * 4 + w) with
    | some x => fragLive s x && x.key == key
    | none => false)

/-- A way that holds no live entry. -/
def fragFree (s : State) (key : List Nat) : Option Nat :=
  (List.range 4).find? (fun w => match mfind s.prs.frags (fragSetOf key * 4 + w) with
    | some x => !fragLive s x
    | none => true)

/-- An entry written and refreshed now. -/
def fragPut (key : List Nat) (way ports : Nat) (s : State) : State :=
  modPrs (fun p => { p with frags := mput p.frags (fragSetOf key * 4 + way) { key := key, ports := ports, at_ := s.elapsed } }) s

/-- FRAG on the table: the result, G12, and what it does (R249). -/
def fragTable (e : Engine) (v6 : Bool) (s : State) : Nat × Nat × State :=
  let r := fragFields e v6
  let key := r.1
  let m2 := e.marks.getD 2 0
  let ports := beAt e.window m2 4
  if r.2.1 then
    match fragFind s key with
    | some w =>
      let p := ((mfind s.prs.frags (fragSetOf key * 4 + w)).map Frag.ports).getD 0
      (2, p, noteCount e.frame 6 (fragPut key w p s))
    | none => (3, 0, noteCount e.frame 7 s)
  else if !r.2.2 then (0, 0, s)
  else if !bitOf e.marked 2 ∨ e.window.length < m2 + 4 then (5, 0, s)
  else match (fragFind s key).or (fragFree s key) with
  | some w => (1, 0, noteCount e.frame 5 (fragPut key w ports s))
  | none => (4, 0, noteCount e.frame 8 (prsEvent 0x05 (fragSetOf key) s))

/-! ### Ends of a parse (R232, R240, R241, R245) -/

/-- Bytes 32 to 63 of the header vector at the end (R232). -/
def hvTail (e : Engine) (disp code : Nat) : Bytes :=
  leBytes 8 (toeplitz e.key e.fed) ++ (e.marks.map (leBytes 2)).flatten
    ++ [BitVec.ofNat 8 e.marked, BitVec.ofNat 8 e.fragResult, BitVec.ofNat 8 code, BitVec.ofNat 8 disp, BitVec.ofNat 8 (min 255 e.cycles),
        BitVec.ofNat 8 e.traps, 0, 0]

/-- The marks of a result, as the action stage keeps them (R266). -/
def marksOf (e : Engine) : List (Option Nat) := (List.range 8).map (fun k => if bitOf e.marked k then some (e.marks.getD k 0) else none)

/-- A delivery of an exception: the frame, unmodified, goes to a channel, and nothing else is left of it (R241, R261). -/
def toChannel (id c reason origin : Nat) (flow : Option Nat) (s : State) : State :=
  match frameOf s id with
  | none => s
  | some f =>
    deliverChannel id c reason origin f.bytes flow
      (modFrame id (fun f => { f with stage := .finished, copies := f.copies + 1, live := f.live + 1 }) s)

/-- The result of a parse passes on by its disposition (R241): to TBL, to the entry point's channel, or as a drop. -/
def passResult (id : Nat) (f : Frame) (s : State) : State :=
  let sent := f.origin.isSome && decide (byteAt f.hv 59 < 3) && !f.prsCounts.contains 0
  let s1 := foldS (fun k s => bump .PRS_STAT k 0 1 s) f.prsCounts (if sent then vportStat f.vport 1 f.bytes.length s else s)
  match byteAt f.hv 59 with
  | 0 => modFrame id (fun f => { f with stage := .table }) s1
  | 1 => toChannel id (fld (reg s .PRS_EP (byteAt f.hv 6) 0) 15 0) (byteAt f.hv 58) 0 none s1
  | 2 => dropFrame id 0x05 s1
  | _ => prsGone id f s1

/-- One frame's result goes on, where its FCS is good and no older frame of its ingress source still waits to (R18, R228). -/
def handOne (id : Nat) (s : State) : State :=
  match frameOf s id with
  | none => s
  | some f =>
    let open_ (x : Frame) : Bool := x.stage == .waiting || x.stage == .parsing || x.stage == .parsed
    let first := !s.tm.frames.any (fun e => decide (e.1 < id) && e.2.parent.isNone && open_ e.2 && ingressSrc e.2 == ingressSrc f)
    if f.stage == .parsed && f.ended && first then passResult id f s else s

/-- Every result that may go on does, in ingress order (R228). -/
def handOver (s : State) : State := foldS handOne (s.tm.frames.map Prod.fst) s

/-- A parse ends with a disposition and CODE; the engine is free. -/
def endParse (k : Nat) (e : Engine) (disp code : Nat) (s : State) : State :=
  let hv := e.hv.take 32 ++ hvTail e disp code ++ e.hv.drop 64
  let note := if disp = 1 then [2] else if disp = 2 then [1] else []
  handOver (modFrame e.frame (fun f => { f with stage := .parsed, hv := hv, marks := marksOf e, prsCounts := f.prsCounts ++ note })
    (modPrs (fun p => { p with engines := mdel p.engines k }) (worked (.prsPair (k / 2)) s)))

/-- s with engine k changed. -/
def putEngine (k : Nat) (e : Engine) (s : State) : State := modPrs (fun p => { p with engines := mput p.engines k e }) s

/-- The cycles a word takes: FRAG 8, any other 1 (R239). -/
def wordCycles (w : Nat) : Nat := if mw w 52 49 = 2 then 8 else 1

/-- A trap (R242 to R245): the handler's vector word, or the end of the parse where a handler was running. -/
def takeTrap (k : Nat) (e : Engine) (w cause sub : Nat) (s : State) : State :=
  let e1 := { e with cycles := e.cycles + wordCycles w, traps := e.traps + 1 }
  if e.saved.isSome then endParse k e1 1 0x81 (noteCount e.frame 4 (prsEvent 0x04 e.entry s))
  else
    let e2 := setG 14 (cause + at_ 8 (sub % 65536)) (setG 15 e.pc e1)
    putEngine k { e2 with saved := some (e.pc, e.cursor, e.depth, greg e 14, greg e 15), pc := cause } s

/-- The target of MATCH: the lowest-numbered valid entry of the set that matches, or BR_TARGET (R235). -/
def matchTarget (s : State) (e : Engine) (w : Nat) : Nat :=
  let v := greg e (mw w 188 185) % 65536
  let hit := firstSome (fun j =>
    let m := s.prs.image.matches_.getD (16 * mw w 184 181 + j) 0
    if bitOf m 63 ∧ v &&& bits m 31 16 = bits m 15 0 &&& bits m 31 16 then some (bits m 44 32) else none) (List.range 16)
  hit.getD (mw w 180 168)

/-- Where a word's branch goes on, and the call stack after it (R235). -/
def branch (s : State) (e : Engine) (w : Nat) : Nat × List Nat × Nat :=
  let next := (e.pc + 1) % 8192
  let tgt := mw w 180 168
  let r := greg e (mw w 188 185)
  match mw w 191 189 with
  | 0 => (next, e.stack, e.depth)
  | 1 => (tgt, e.stack, e.depth)
  | 2 => (if r = 0 then tgt else next, e.stack, e.depth)
  | 3 => (if r ≠ 0 then tgt else next, e.stack, e.depth)
  | 4 => (matchTarget s e w, e.stack, e.depth)
  | 5 => (tgt, e.stack.set e.depth next, e.depth + 1)
  | 6 => (e.stack.getD (e.depth - 1) 0, e.stack, e.depth - 1)
  | _ => (next, e.stack, e.depth)

/-- RESUME: what was saved comes back, and the trapping word is tried again or passed over (R244). -/
def resume (w : Nat) (saved : Nat × Nat × Nat × Nat × Nat) (x : Engine) : Engine :=
  let y := setG 14 saved.2.2.2.1 (setG 15 saved.2.2.2.2 x)
  { y with cursor := saved.2.1, depth := saved.2.2.1, saved := none, pc := if mw w 48 45 = 0 then saved.1 else (saved.1 + 1) % 8192 }

/-- The slots of a word but its branch, where the predicate lets them act (R234): the engine after them, and FRAG's effect. -/
def slots (e : Engine) (w : Nat) (s : State) : Engine × State :=
  let x : Engine := regWrites e w { e with hv := hvWrites e w, fed := (e.fed ++ hashFeed e w).take 64 }
  let y := { x with cursor := nextCursor e w }
  match mw w 52 49 with
  | 1 => let m := mw w 47 45
         ({ y with marks := y.marks.set m e.cursor, marked := y.marked ||| 2 ^ m }, s)
  | 2 => let r := fragTable e (mw w 48 45 == 1) s
         ({ setG 12 r.2.1 (setG 13 r.1 y) with fragResult := r.1 }, r.2.2)
  | 6 => ({ y with fed := [] }, s)
  | _ => (y, s)

/-- A word that takes no trap executes whole (R234, R239). -/
def runWord (k : Nat) (e : Engine) (w : Nat) (s : State) : State :=
  let ok := predOk e w
  let r := if ok then slots e w s else (e, s)
  let b := branch s e w
  let x := { r.1 with cycles := e.cycles + wordCycles w }
  match e.saved with
  | some sv =>
    if ok ∧ mw w 52 49 = 5 then putEngine k (resume w sv x) r.2
    else if mw w 191 189 = 7 then endParse k x (mw w 184 181) (mw w 175 168) r.2
    else putEngine k { x with pc := b.1, stack := b.2.1, depth := b.2.2 } r.2
  | none =>
    if mw w 191 189 = 7 then endParse k x (mw w 184 181) (mw w 175 168) r.2
    else putEngine k { x with pc := b.1, stack := b.2.1, depth := b.2.2 } r.2

/-- The word at an engine's pc executes, where its slots hold what p asks for and the budget is not spent (R240). -/
def microword (p : Nat → Bool) (k : Nat) (s : State) : State :=
  match mfind s.prs.engines k with
  | none => s
  | some e =>
    let w := wordAt s e.pc
    if !p w ∨ 64 ≤ e.cycles then s
    else match trapOf e w with
    | some t => takeTrap k e w t.1 t.2 s
    | none => runWord k e w s

/-- A word whose BR_OP, ALU_OP or AUX_OP is n. -/
def hasBr (n w : Nat) : Bool := mw w 191 189 == n
def hasAlu (n w : Nat) : Bool := mw w 127 124 == n
def hasAux (n w : Nat) : Bool := mw w 52 49 == n

def execMicroNext (engine : Nat) (s : State) : Outcome := .next (microword (hasBr 0) engine s)
def execMicroJump (engine : Nat) (s : State) : Outcome := .next (microword (hasBr 1) engine s)
def execMicroJz (engine : Nat) (s : State) : Outcome := .next (microword (hasBr 2) engine s)
def execMicroJnz (engine : Nat) (s : State) : Outcome := .next (microword (hasBr 3) engine s)
def execMicroMatch (engine : Nat) (s : State) : Outcome := .next (microword (hasBr 4) engine s)
def execMicroCall (engine : Nat) (s : State) : Outcome := .next (microword (hasBr 5) engine s)
def execMicroRet (engine : Nat) (s : State) : Outcome := .next (microword (hasBr 6) engine s)
def execMicroEnd (engine : Nat) (s : State) : Outcome := .next (microword (hasBr 7) engine s)
def execMicroAdd (engine : Nat) (s : State) : Outcome := .next (microword (hasAlu 1) engine s)
def execMicroSub (engine : Nat) (s : State) : Outcome := .next (microword (hasAlu 2) engine s)
def execMicroAnd (engine : Nat) (s : State) : Outcome := .next (microword (hasAlu 3) engine s)
def execMicroOr (engine : Nat) (s : State) : Outcome := .next (microword (hasAlu 4) engine s)
def execMicroXor (engine : Nat) (s : State) : Outcome := .next (microword (hasAlu 5) engine s)
def execMicroShl (engine : Nat) (s : State) : Outcome := .next (microword (hasAlu 6) engine s)
def execMicroShr (engine : Nat) (s : State) : Outcome := .next (microword (hasAlu 7) engine s)
def execMicroMov (engine : Nat) (s : State) : Outcome := .next (microword (hasAlu 8) engine s)
def execMicroBfx (engine : Nat) (s : State) : Outcome := .next (microword (hasAlu 9) engine s)
def execMicroSeq (engine : Nat) (s : State) : Outcome := .next (microword (hasAlu 10) engine s)
def execMicroSlt (engine : Nat) (s : State) : Outcome := .next (microword (hasAlu 11) engine s)
def execMicroMin (engine : Nat) (s : State) : Outcome := .next (microword (hasAlu 12) engine s)
def execMicroMax (engine : Nat) (s : State) : Outcome := .next (microword (hasAlu 13) engine s)
def execMicroCsum (engine : Nat) (s : State) : Outcome := .next (microword (hasAlu 14) engine s)
def execMicroMark (engine : Nat) (s : State) : Outcome := .next (microword (hasAux 1) engine s)
def execMicroFrag (engine : Nat) (s : State) : Outcome := .next (microword (hasAux 2) engine s)
def execMicroHashreg (engine : Nat) (s : State) : Outcome := .next (microword (hasAux 3) engine s)
def execMicroTrap (engine : Nat) (s : State) : Outcome := .next (microword (hasAux 4) engine s)
def execMicroResume (engine : Nat) (s : State) : Outcome := .next (microword (hasAux 5) engine s)
def execMicroHashrst (engine : Nat) (s : State) : Outcome := .next (microword (hasAux 6) engine s)

/-- BUDGET (R240): 64 cycles or more after a word that is not END. -/
def execMicroBudget (engine : Nat) (s : State) : Outcome :=
  match mfind s.prs.engines engine with
  | none => .next s
  | some e => if e.cycles < 64 then .next s else .next (endParse engine e 1 0x80 (noteCount e.frame 3 (prsEvent 0x03 e.entry s)))

/-- FRAG_ENTRY_EXPIRY (R250): TIMEOUT after its last refresh. -/
def execFragEntryExpiry (set way : Nat) (s : State) : Outcome :=
  let k := set * 4 + way
  match mfind s.prs.frags k with
  | some x => .next (modPrs (fun p => { p with frags := mdel p.frags k }) (advanceTo (x.at_ + fragTimeout s) s))
  | none => .next s

/-! ### PARSE_DISPATCH and FRAME_END -/

/-- A frame meets the bindings and permissions as they stand when its parse begins; what a host sends bears its function's vport (R186, R187). -/
def seeBindings (s : State) (f : Frame) : Frame :=
  { f with bindings := some (bindingsNow s), vport := match f.origin with
    | some (fn, _, _) => ((fnSt s fn).vport).getD 0xFFFF
    | none => f.vport }

/-- The frame goes to an engine, to a result without a parse, or is dropped (R186, R187, R228, R241, R442). -/
def dispatchSeen (id k : Nat) (f : Frame) (s : State) : State :=
  if f.origin.isSome ∧ f.vport = 0xFFFF then dropFrame id 0x05 s
  else if kindGone s 0 then handOver (dropUnparsed id 3 f s)
  else if spoofed s f then dropFrame id 0x05 (vportStat f.vport 5 f.bytes.length s)
  else match entryOf s f with
  | none => handOver (dropUnparsed id 2 f s)
  | some (e, pc) =>
    if engineFree s f k then
      putEngine k (freshEngine s id f e pc) (modFrame id (fun f => { f with stage := .parsing, prsCounts := [] }) s)
    else s

/-- A frame is dispatched under the bindings and permissions of this moment (R186, R187). -/
def dispatchFrame (id k : Nat) (f : Frame) (s : State) : State :=
  let g := seeBindings s f
  dispatchSeen id k g (modFrame id (fun _ => g) s)

/-- Is dispatch held: in PAUSE, and in BRINGUP before any binding is enabled (R254)? -/
def dispatchHeld (s : State) : Bool :=
  let bound := (List.range 16).any (fun i => wbit (reg s .PRS_BIND_LPORT i 0) 31) || (List.range 4).any (fun i => wbit (reg s .PRS_BIND_HOST i 0) 31)
    || (List.range 2).any (fun i => wbit (reg s .PRS_BIND_AKZ i 0) 31) || wbit (reg s .PRS_BIND_SVC 0 0) 31
  s.cai.mode == .pause || (s.cai.mode == .bringup && !bound)

/-- PARSE_DISPATCH (R228): a frame whose first cell is written, the oldest of its ingress source that waits, while dispatch is not held
(R254). -/
def execParseDispatch (frame engine : Nat) (s : State) : Outcome :=
  match frameOf s frame with
  | none => .next s
  | some f =>
    if f.stage == .waiting && !f.waitCells && fastRuns s && !dispatchHeld s && nextToParse s frame f then .next (dispatchFrame frame engine f s) else .next s

/-- A frame whose FCS fails leaves nothing but its count (R18). -/
def badFrame (id : Nat) (f : Frame) (s : State) : State :=
  let s1 := modPrs (fun p => { p with engines := p.engines.filter (fun e => e.2.frame != id) }) s
  handOver (lpCount (f.ingress / 16) 2 1 (freeFrame id s1))

/-- FRAME_END (R18, R204): the end of a received frame, its FCS judged. -/
def execFrameEnd (frame : Nat) (s : State) : Outcome :=
  match frameOf s frame with
  | none => .next s
  | some f =>
    if f.ended ∨ f.ingress % 8 ≠ 0 then .next s
    else if f.fcs = crc32 f.asEntered then
      let lp := f.ingress / 16
      .next (handOver (modFrame frame (fun f => { f with ended := true }) (lpCount lp 1 (f.asEntered.length + 4) (lpCount lp 0 1 s))))
    else .next (badFrame frame f s)

/-! ### Parity (R255) and loads (R252 to R254) -/

/-- PARITY_ERROR (R255): the frame begins again on another pair; a failing store line keeps the pair from frames until it is rewritten; REL
counts it. -/
def execParityError (engine : Nat) (store : Bool) (s : State) : Outcome :=
  match mfind s.prs.engines engine with
  | none => .next s
  | some e =>
    let p := engine / 2
    let s1 := modFrame e.frame (fun f => { f with stage := .waiting, notPair := some p, prsCounts := [] })
      (modPrs (fun x => { x with engines := mdel x.engines engine, rewriting := if store && !x.rewriting.contains p then p :: x.rewriting else x.rewriting }) s)
    .next (countFault 0 p 0 false s1)

/-- May a failing line be written again (R255): from a golden copy in which it does not read poisoned, or, both being poisoned, from the store
of a running pair whose copy of the line passes parity? -/
def lineSource (s : State) (pair : Nat) (poisoned : List Nat) : Bool :=
  !(poisoned.contains 0 && poisoned.contains 1)
    || (activeUnits s 0).any (fun p => p != pair && (domainSt s (.prsPair p)).st == .running && !s.prs.rewriting.contains p)

/-- PAIR_LINE_REWRITTEN (R255): the failing line of a pair is written from the golden copy and checked again, and the pair takes frames; a
golden line that is poisoned in both stacks is written again from a running pair. -/
def execPairLineRewritten (line : LineRewrite) (s : State) : Outcome :=
  if !s.prs.rewriting.contains line.pair ∨ !lineSource s line.pair line.poisoned then .next s
  else .next (modPrs (fun x => { x with
    rewriting := x.rewriting.filter (· != line.pair), golden := if line.poisoned.contains 0 && line.poisoned.contains 1 then [x.image, x.image] else x.golden }) s)

/-- The owner's image key: of the firmware image in force, where its hash is the one fused (R253, R448). -/
def ownerKey (s : State) : Bytes := slice ((bankOf s s.lcs.active).getD []) 116 96

/-- A load that fails: RESULT, and LOAD_FAIL (R253, R257). -/
def loadFail (r : Nat) (s : State) : State := prsEvent 0x02 r (modPrs (fun p => { p with loadResult := r }) s)

/-- A gated pair starts for a load: its start is counted, and it has a new epoch (R79, R253). -/
def startForLoad (p : Nat) (s : State) : State :=
  if (domainSt s (.prsPair p)).st = .gated ∧ ¬ (domainSt s (.prsPair p)).dead then
    newEpoch 0 p (modPrs (fun x => { x with loadPairs := x.loadPairs ++ [p] }) (modDomain (.prsPair p) (fun _ => { st := .running, since := s.elapsed }) s))
  else s

/-- START of a load (R253, R254): the image is checked, its signature verified, the golden copies are written, and the stores of every pair are
being written, gated ones started for it. A START while a load runs has no effect (assumption 129). -/
def prsLoadStart (p : Path) (s : State) : State :=
  if !mayWrite s p .PRS_LOAD_CTRL ∨ s.prs.loading.isSome then s
  else if !dispatchHeld s then modPrs (fun p => { p with loadResult := 1 }) s
  else
    let a := pair64 s .PRS_LOAD_ADDR_LO .PRS_LOAD_ADDR_HI 0 0
    let len := min 199056 (leNat (devRead s (a + 8) 4))
    let bs := devRead s a len
    if !prsFormOk bs then loadFail 2 s
    else if imageKeyHash s ≠ some (sha384 (ownerKey s)) ∨ !prsSigOk (ownerKey s) bs then loadFail 3 s
    else
      let i := prsImageOf bs
      foldS startForLoad (activeUnits s 0) (modPrs (fun p => { p with loading := some i, golden := [i, i], loadResult := 4 }) s)

/-- A pair that failed the comparison twice is handed to REL as a lasting fault (R253). -/
def loadFails (p : Nat) (s : State) : State :=
  match (unitOf s 0 p).st with
  | 0 => countFault 0 p 0 true s
  | 1 => retireSpare 0 p s
  | _ => s

/-- LOAD_DONE (R253): every store is written, pairs that ran for the load are gated again, and pairs that failed the comparison twice are handed
to REL as lasting faults. -/
def execLoadDone (failed : List Nat) (s : State) : Outcome :=
  match s.prs.loading with
  | none => .next s
  | some i =>
    let s1 := foldS (fun p s => modDomain (.prsPair p) (fun _ => { since := s.elapsed }) s) s.prs.loadPairs s
    let s2 := modPrs (fun p => { p with image := i, loaded := true, loading := none, loadResult := 0, loadPairs := [] }) s1
    .next (prsEvent 0x01 0 (foldS loadFails failed s2))

/-! ### Indirection tables (R247, R248, R256) -/

/-- RESULT of a path's last PRS_IND_ write. -/
def indResult (p : Path) (r : Nat) (s : State) : State := setReg .PRS_IND_STATUS 0 (pathCode p) (w32 r) s

/-- May a path act on a vport's tables (R256)? -/
def indOwns (s : State) (p : Path) (v : Nat) : Bool := match p with
  | .fn f => inVportRange s (fnPf f) v
  | _ => true

/-- A write of PRS_IND_CFG or PRS_IND_ENTRY (R256): a PF's to a table that it does not own has no effect. -/
def indWrite (p : Path) (entry : Bool) (v : Word) (s : State) : State :=
  if !mayWrite s p .PRS_IND_CFG then s
  else
    let sel := reg s .PRS_IND_SELECT 0 (pathCode p)
    let t := fld sel 9 0
    let x := indTable s t
    if !indOwns s p (fld x.cfg 11 0) then s
    else if entry then
      let k := fld sel 19 19 * 512 + fld sel 18 10 % 512
      indResult p 0 (modPrs (fun y => { y with ind := mmod {} y.ind t (fun x => { x with targets := mset 0 x.targets k (fld v 23 0) }) }) s)
    else
      let c := applyWrite .PRS_IND_CFG x.cfg v
      if !indOwns s p (fld c 11 0) then indResult p 1 s
      else if 9 < fld c 15 12 then indResult p 2 s
      else indResult p 0 (modPrs (fun y => { y with ind := mmod {} y.ind t (fun x => { x with cfg := c }) }) s)

end Sys2Proof.Machine
end

