-- ==== Sys2Proof/Machine/Lookup.lean ====
section
/-!
DEFINITION. Table programs and their steps (R258 to R262, R267, R268, R276 to R279, R291).
-/
namespace Sys2Proof.Machine

/-- A step of a program: 16 bytes as a number (R258). -/
def stepAt (s : State) (bank program step : Nat) : Nat := mget 0 s.tbl.programs (bank * 2048 + program * 8 + step)

/-- The step that a frame is at. -/
def frameStep (s : State) (f : Frame) : Nat := stepAt s f.bank f.program f.step

/-- Fields of a step. -/
def stKind (x : Nat) : Nat := bits x 2 0
def stNext (x : Nat) (hit : Bool) : Nat := if hit then bits x 11 8 else bits x 15 12
def stUse (x : Nat) : Bool := bitOf x 16
def stCtx (x : Nat) : Bool := bitOf x 17
def stCount (x : Nat) : Nat := bits x 20 18
def stSelect (x : Nat) : Nat := bits x 31 24

/-- Extract i of a step: SRC and LEN (R258). -/
def stExtract (x i : Nat) : Nat × Nat := let e := x / 2 ^ (32 + 24 * i) % 2 ^ 24; (bits e 9 0, bits e 15 10 + 1)

/-- The bytes of one extract; none where it passes byte 511 or 543, or begins beyond (R259). -/
def extract (f : Frame) (e : Nat × Nat) : Option Bytes :=
  if e.1 < 512 then (if e.1 + e.2 ≤ 512 then some (slice f.hv e.1 e.2) else none)
  else if e.1 + e.2 ≤ 544 then some (slice (ctxBytes f.ctx) (e.1 - 512) e.2) else none

/-- The extracts of a step, joined; none where one of them fails, or where NEXTRACT is above 4 (R259). -/
def joined (f : Frame) (x : Nat) : Option Bytes :=
  if 4 < stCount x then none
  else (List.range (stCount x)).foldl (fun k i => k.bind (fun k => (extract f (stExtract x i)).map (k ++ ·))) (some [])

/-- A key padded to n bytes; none where the extracts are longer (R259). -/
def padded (n : Nat) (k : Option Bytes) : Option Bytes := k.bind (fun k => if k.length ≤ n then some (slice k 0 n) else none)

/-! ### Ends of a program (R261) -/

/-- The miss channel of a frame's program. -/
def missChannel (s : State) (f : Frame) : Nat := fld (reg s .TBL_PROG_MISS (byteAt f.hv 58) 0) 15 0

/-- PROG_ERROR (R258). -/
def progError (id : Nat) (s : State) : State := dropFrame id 0x05 (tblStat 12 s)

/-- Bytes inserted at a position of a frame; its marks follow their bytes (R266). -/
def insertAt (pos : Nat) (new : Bytes) (f : Frame) : Frame :=
  { f with bytes := f.bytes.take pos ++ new ++ f.bytes.drop pos,
           marks := f.marks.map (fun m => m.map (fun m => if pos ≤ m then m + new.length else m)) }

/-- Bytes from a up to b are removed from a frame; the marks of removed bytes become invalid (R266). -/
def removeAt (a b : Nat) (f : Frame) : Frame :=
  { f with bytes := f.bytes.take a ++ f.bytes.drop b,
           marks := f.marks.map (fun m => m.bind (fun m => if m < a then some m else if m < b then none else some (m - (b - a)))) }

/-- Cells for a frame that has outgrown the room of those it holds, with the action stage's reserve (R295, R296). -/
def growCells (id : Nat) (s : State) : State :=
  match frameOf s id with
  | none => s
  | some f =>
    let more := f.bytes.length - (256 * (f.ochre + f.umber) + 2048 * f.sienna)
    if more = 0 then s else (takeCells true id more s).getD s

/-- A frame takes bytes at a position, and the cells for them. -/
def insertBytes (id pos : Nat) (new : Bytes) (s : State) : State :=
  match frameOf s id with
  | none => s
  | some _ => growCells id (modFrame id (insertAt pos new) s)

/-- The tag of TPID 0x8100 or 0x88A8 with a TCI (R265). -/
def tagBytes (ad : Bool) (tci : Nat) : Bytes := beBytes 2 (if ad then 0x88A8 else 0x8100) ++ beBytes 2 tci

/-- The tag that VLAN_ENFORCE gives what a VF sends (R187). -/
def enforcedTag (s : State) (f : Frame) : Option Nat :=
  match f.origin with
  | some (fn, _, _) => if isVf fn && wbit (permSeen s f fn) 1 then some (fld (permSeen s f fn) 27 16) else none
  | none => none

/-- An action-store list by number; a number beyond the store names none (R264). -/
def actionList (s : State) (n : Nat) : Option (List Nat) := if n < 1048576 then some (listOf (stored s 6 n)) else none

/-- Does a list reach an ENCRYPT, the lists that it chains into included, before its END or DROP (R264, R337)? -/
def encrypts (s : State) : Nat → List Nat → Bool
  | 0, _ => false
  | _ + 1, [] => false
  | n + 1, w :: rest =>
    match w % 256 with
    | 0x18 => true
    | 0x00 | 0x02 => false
    | 0x03 => (match actionList s (bits w 31 8) with
      | some l => encrypts s n l
      | none => encrypts s n rest)
    | _ => encrypts s n rest

/-- A frame whose program has ended as FINISH goes to the action stage, tagged where VLAN_ENFORCE asks for it. -/
def toActions (id : Nat) (s : State) : State :=
  match frameOf s id with
  | none => s
  | some f =>
    let s1 := modFrame id (fun f => { f with stage := .actions, holds := f.lists.any (encrypts s 33) }) s
    match enforcedTag s f with
    | some v => insertBytes id 12 (tagBytes false v) s1
    | none => s1

/-- A frame comes to a step: FINISH and the reserved kinds end the program there (R258, R259). -/
def arrive (id step : Nat) (s : State) : State :=
  match frameOf s id with
  | none => s
  | some f =>
    match stKind (stepAt s f.bank f.program step) with
    | 0 => toActions id s
    | 1 | 2 | 3 | 4 | 5 => modFrame id (fun f => { f with step := step }) s
    | _ => progError id s

/-- A step has ended with a hit or a miss: where NEXT goes on (R258, R261). -/
def leave (id : Nat) (hit : Bool) (s : State) : State :=
  match frameOf s id with
  | none => s
  | some f =>
    match stNext (frameStep s f) hit with
    | 0xF => toActions id s
    | 0xD => dropFrame id 0x05 (tblStat 0 s)
    | 0xE => toChannel id (missChannel s f) (0x90 + f.step) 1 none s
    | n => if n < 8 then arrive id n s else progError id s

/-- A step has hit: it contributes a list, where USE is set, loads context, where CTX is set, and leaves by its hit side. -/
def hit (id : Nat) (list : Option (List Nat)) (ctx : Ctx → Ctx) (s : State) : State :=
  match frameOf s id with
  | none => s
  | some f =>
    let x := frameStep s f
    leave id true (modFrame id (fun f => { f with
      lists := f.lists ++ (if stUse x then list.toList else []), ctx := if stCtx x then ctx f.ctx else f.ctx }) s)

/-- The current step of a frame, where its kind is k. -/
def onStep (id k : Nat) (g : Frame → Nat → State → State) (s : State) : State :=
  match frameOf s id with
  | none => s
  | some f => if f.stage == .table && f.begun && forwards s && stKind (frameStep s f) == k then g f (frameStep s f) s else s

/-! ### Steps (R259, R260, R267, R268, R276 to R279) -/

/-- VPORT: the index below 4,096 and VALID (R267). -/
def vportLookup (id : Nat) (f : Frame) (x : Nat) (s : State) : State :=
  match padded 2 (joined f x) with
  | none => leave id false s
  | some key =>
    let i := beNat key
    let e := stored s 3 i
    if 4096 ≤ i ∨ !bitOf (byteAt e 6) 0 then leave id false s
    else hit id (if bitOf (byteAt e 15) 7 then none else actionList s (leAt e 12 3))
      (fun c => { c with srcVport := i, vsi := leAt e 2 2, vrf := leAt e 4 2, user := leAt e 16 8 }) s

/-- VPORT_STEP (R267). -/
def execVportStep (frame : Nat) (s : State) : Outcome := .next (onStep frame 1 (vportLookup frame) s)

/-- TUNNEL: VALID, DECAP_OK and MATCH; a tunnel entry has no list (R268). -/
def tunnelLookup (id : Nat) (f : Frame) (x : Nat) (s : State) : State :=
  match padded 26 (joined f x) with
  | none => leave id false s
  | some key =>
    let i := beAt key 0 2
    let e := stored s 4 i
    if byteAt e 0 % 4 = 3 ∧ slice e 8 24 = slice key 2 24 then hit id none (fun c => { c with tunnel := i, vsi := leAt e 4 2 }) s
    else leave id false s

/-- TUNNEL_STEP (R268). -/
def execTunnelStep (frame : Nat) (s : State) : Outcome := .next (onStep frame 2 (tunnelLookup frame) s)

/-- A lookup has found no match in these banks: where a move is in progress in one, it waits for the move to end and reads again, and no other move
starts there before it has (R274); otherwise it goes on. -/
def missedIn (id : Nat) (banks : List Nat) (goOn : State → State) (s : State) : State :=
  if banks.any (fun b => (moveRegOf s b).active) then modFrame id (fun f => { f with retry := banks }) s
  else goOn (modFrame id (fun f => { f with retry := [] }) s)

/-- FLOW: a VALID entry with the key; HIT is set, and HOLD ends the program as MISS with reason 0x98 (R276, R285). -/
def flowLookup (id : Nat) (f : Frame) (x : Nat) (s : State) : State :=
  match padded 47 (joined f x) with
  | none => leave id false s
  | some k =>
    let key := BitVec.ofNat 8 (stSelect x) :: k
    match findKey s false key with
    | none => missedIn id [bankOfKey s false key] (leave id false) s
    | some i =>
      let e := (flowAt s i).getD []
      let s1 := setHit i (missedIn id [] (fun s => s) s)
      if flowFlag e 1 then toChannel id (missChannel s f) 0x98 1 (some i) s1
      else hit id (some (listOf (slice e 64 64))) (fun c => c) s1

/-- FLOW_STEP (R276). -/
def execFlowStep (frame : Nat) (s : State) : Outcome := .next (onStep frame 3 (flowLookup frame) s)

/-- LPM: one extract of 4 or 16 bytes, in the context's VRF (R259, R278). -/
def lpmLookup (id : Nat) (f : Frame) (x : Nat) (s : State) : State :=
  match joined f x with
  | none => leave id false s
  | some a =>
    if stCount x ≠ 1 ∨ (a.length ≠ 4 ∧ a.length ≠ 16) then leave id false s
    else missedIn id (missedBanks s f.ctx.vrf (b2n (a.length == 16)) (slice a 0 16)) (fun s =>
      match lookupRoute s f.ctx.vrf (b2n (a.length == 16)) (slice a 0 16) with
      | some r => hit id (actionList s (leAt r 20 3)) (fun c => c) s
      | none => leave id false s) s

/-- LPM_STEP (R278). -/
def execLpmStep (frame : Nat) (s : State) : Outcome := .next (onStep frame 4 (lpmLookup frame) s)

/-- The entry of a group that matches a key: the lowest PRIORITY, ties to the lowest index (R279). -/
def aclMatch (s : State) (group : Nat) (key : Bytes) : Option Bytes :=
  let ok (e : Bytes) : Bool := bitOf (byteAt e 82) 7 && byteAt e 82 % 64 == group &&
    leNat (slice e 0 40) &&& leNat (slice e 40 40) == leNat key &&& leNat (slice e 40 40)
  (s.tbl.acl.filter (fun e => ok e.2)).foldl (fun best e => match best with
    | some b => if leAt e.2 80 2 < leAt b 80 2 then some e.2 else some b
    | none => some e.2) none

/-- ACL (R279). -/
def aclLookup (id : Nat) (f : Frame) (x : Nat) (s : State) : State :=
  match (padded 40 (joined f x)).bind (aclMatch s (stSelect x % 64)) with
  | some e => hit id (actionList s (leAt e 84 3)) (fun c => c) s
  | none => leave id false s

/-- ACL_STEP (R279). -/
def execAclStep (frame : Nat) (s : State) : Outcome := .next (onStep frame 5 (aclLookup frame) s)

/-! ### TABLE_PROGRAM (R258, R260, R291, R442) -/

/-- An injected frame with a named flow index runs that entry's ACTIONS (R291). -/
def namedFlow (id i : Nat) (s : State) : State :=
  match flowAt s i with
  | some e => toActions id (modFrame id (fun f => { f with
      begun := true, ctx := { srcVport := leAt f.hv 2 2 }, lists := [listOf (slice e 64 64)] }) s)
  | none => dropFrame id 0x05 (tblStat 5 s)

/-- A frame begins its program in the active bank, where the program is VALID (R258, R260). -/
def beginProgram (id : Nat) (f : Frame) (s : State) : State :=
  let p := byteAt f.hv 58
  if !wbit (reg s .TBL_PROG_MISS p 0) 31 then dropFrame id 0x05 (bump .PRS_STAT 0 0 1 s)
  else
    arrive id 0 (modFrame id (fun f => { f with
      begun := true, bank := dfld s .TBL_PROG_CTRL 0 0, program := p, ctx := { srcVport := leAt f.hv 2 2 } }) s)

/-- TABLE_PROGRAM (R258, R261): a frame that PRS has handed to TBL begins its program; its steps run it to its end. It waits where no lookup
engine is active yet, for TBL to be ready and through a Col pause (R102, R103). -/
def execTableProgram (frame : Nat) (s : State) : Outcome :=
  match frameOf s frame with
  | none => .next s
  | some f =>
    if f.stage != .table || f.begun || !forwards s || blockWaits s 7 then .next s
    else if kindGone s 6 ∨ unitDead s 0x700 then .next (prsGone frame f s)
    else match f.flowIndex with
    | some i => .next (namedFlow frame i s)
    | none => .next (beginProgram frame f s)

end Sys2Proof.Machine
end

