-- ==== Sys2Proof/Machine/Meters.lean ====
section
/-!
DEFINITION. Colour meters (R305 to R307, R319).
-/
namespace Sys2Proof.Machine

/-- A meter, and its configuration (R305). -/
def meterOf (s : State) (i : Nat) : Meter := mget {} s.tm.meters i
def mtValid (m : Meter) : Bool := bitOf m.rec_ 0
def mtTwoRate (m : Meter) : Bool := bitOf m.rec_ 1
def mtAware (m : Meter) : Bool := bitOf m.rec_ 2
def mtAdj (m : Meter) : Int := signed 8 (bits m.rec_ 15 8)
def mtOwner (m : Meter) : Nat := bits m.rec_ 31 16
def mtCir (m : Meter) : Nat := bits m.rec_ 63 32
def mtPir (m : Meter) : Nat := bits m.rec_ 95 64
def mtCbs (m : Meter) : Nat := bits m.rec_ 119 96
def mtEbs (m : Meter) : Nat := bits m.rec_ 151 128

/-- A meter with credit applied to a moment of the Cairn clock (R306): in single-rate mode, what TC cannot take goes to TE. -/
def metered (t : Nat) (m : Meter) : Meter :=
  let dt := t - m.creditAt
  let full := m.tc + mtCir m * dt
  let tc := min (mtCbs m * tokenByte) full
  let more := if mtTwoRate m then mtPir m * dt else full - tc
  { m with tc := tc, te := min (mtEbs m * tokenByte) (m.te + more), creditAt := t }

/-- The two-rate marker (R306): the colour and the meter after b tokens, from a colour. 0 green, 1 yellow, 2 red. -/
def markTwo (b col : Nat) (m : Meter) : Nat × Meter :=
  if col = 2 ∨ m.te < b then (2, m)
  else if col = 1 ∨ m.tc < b then (1, { m with te := m.te - b })
  else (0, { m with tc := m.tc - b, te := m.te - b })

/-- The single-rate marker (R306). -/
def markOne (b col : Nat) (m : Meter) : Nat × Meter :=
  if col = 0 ∧ b ≤ m.tc then (0, { m with tc := m.tc - b })
  else if col ≠ 2 ∧ b ≤ m.te then (1, { m with te := m.te - b })
  else (2, m)

/-- A frame of n bytes and a colour is metered now: its new colour and the meter (R306). -/
def meterFrame (now_ n col : Nat) (m : Meter) : Nat × Meter :=
  let x := metered now_ m
  let b := ((n : Int) + mtAdj m).toNat * tokenByte
  let c := if mtAware m then col else 0
  if mtTwoRate m then markTwo b c x else markOne b c x

/-! ### Registers (R305, R319) -/

/-- The record that a path has staged. -/
def meterData (s : State) (p : Path) : Nat :=
  (List.range 8).foldl (fun n i => n + (reg s .TM_METER_DATA i (pathCode p)).toNat * 2 ^ (32 * i)) 0

/-- Is a record without reserved bits, and with PIR zero in single-rate mode (R319)? -/
def meterOk (r : Nat) : Bool :=
  bits r 7 3 == 0 && bits r 30 28 == 0 && bits r 127 120 == 0 && bits r 159 152 == 0 && bits r 191 185 == 0 && bits r 223 217 == 0
    && bits r 255 224 == 0 && (bitOf r 1 || bits r 95 64 == 0)

/-- May a path act on a meter with this OWNER? -/
def meterOwns (s : State) (p : Path) (owner : Nat) : Bool :=
  match p with
  | .fn f => !bitOf owner 15 && inVportRange s (fnPf f) (bits owner 11 0)
  | _ => true

/-- RESULT of a path's last meter action: 0 DONE, 1 NOT_OWNED, 2 BAD_CONFIG. -/
def meterResult (p : Path) (r : Nat) (s : State) : State := setReg .TM_METER_STATUS 0 (pathCode p) (w32 r) s

/-- A meter from a record: a token field above its bucket's size is stored as that size (R305). -/
def meterFrom (t r : Nat) : Meter :=
  { rec_ := r, tc := min (bits r 119 96) (bits r 184 160) * tokenByte, te := min (bits r 151 128) (bits r 216 192) * tokenByte, creditAt := t }

/-- The record of a meter now, tokens as whole bytes rounded down. -/
def meterRecord (t : Nat) (m : Meter) : Nat :=
  let x := metered t m
  m.rec_ % 2 ^ 160 + x.tc / tokenByte * 2 ^ 160 + x.te / tokenByte * 2 ^ 192

/-- The meter that a path selects. -/
def selectedMeter (s : State) (p : Path) : Nat := fld (reg s .TM_METER_SELECT 0 (pathCode p)) 17 0

/-- WRITE of the selected meter. -/
def meterWrite (p : Path) (s : State) : State :=
  let i := selectedMeter s p
  let r := meterData s p
  if !mayWrite s p .TM_METER_CTRL then s
  else if !meterOwns s p (mtOwner (meterOf s i)) ∨ !meterOwns s p (bits r 31 16) then meterResult p 1 s
  else if !meterOk r then meterResult p 2 s
  else meterResult p 0 (modTm (fun t => { t with meters := mset {} t.meters i (meterFrom s.elapsed r) }) s)

/-- READ of the selected meter into the path's data registers. -/
def meterRead (p : Path) (s : State) : State :=
  let m := meterOf s (selectedMeter s p)
  if !mayWrite s p .TM_METER_CTRL then s
  else if !meterOwns s p (mtOwner m) then meterResult p 1 s
  else
    let r := meterRecord s.elapsed m
    meterResult p 0 (foldS (fun i s => setReg .TM_METER_DATA i (pathCode p) (w32 (r / 2 ^ (32 * i))) s) (List.range 8) s)

end Sys2Proof.Machine
end

