-- ==== Sys2Proof/Machine/Mgt.lean ====
section
/-!
DEFINITION. The management MAC: frames by the service channels, half duplex, MDIO and NC-SI (R220 to R225, R403).
-/
namespace Sys2Proof.Machine

/-- An MGT event (R225) and an MGT_STAT counter (R224): 0 TX_OK, 1 RX_OK, 2 FCS_ERR, 3 SIZE_ERR, 4 COLLISIONS, 5 LATE_COLL,
6 EXCESS_COLL, 7 PAUSE_RX. -/
def mgtEvent (code detail : Nat) (s : State) : State := raise 0x5 code detail .device s
def mgtStat (k : Nat) (s : State) : State := bump .MGT_STAT k 0 1 s

/-- MGT_CFG, and the mode of the strap: RMII with NC-SI (R82, R220). -/
def mgtCfg (s : State) : Word := reg s .MGT_CFG 0 0
def mgtRmii (s : State) : Bool := bitOf s.cai.straps.toNat 6

/-- Speed in use, Mb/s, and half duplex in use (R220). -/
def mgtSpeed (s : State) : Nat := if mgtRmii s then 100 else match fld (mgtCfg s) 2 1 with
  | 0 => 10
  | 1 => 100
  | _ => 1000
def mgtHalf (s : State) : Bool := !mgtRmii s && wbit (mgtCfg s) 0

/-- n bit times, ns. -/
def bitTime (s : State) (n : Nat) : Nat := n * 1000 / mgtSpeed s

/-- LINK_UP: of the PHY, and in RMII mode the state of the NC-SI channels, of which one must be enabled (R223, R224). -/
def mgtLink (s : State) : Bool := if mgtRmii s then s.mgt.ncsi.any NcsiChannel.enabled else s.mgt.linkUp

/-- May MGT receive and send: its domain runs, it is enabled and its link is up? -/
def mgtRuns (s : State) : Bool := fastRuns s && wbit (mgtCfg s) 31 && mgtLink s

/-- Does pass-through run for a frame of the management controller with this address: the channel that holds the address in its filters is
enabled, or any channel where none holds it (R223)? -/
def ncsiPasses (s : State) (mac : Nat) : Bool :=
  let mine := s.mgt.ncsi.filter (fun x => x.macs.contains mac)
  !mgtRmii s || (if mine.isEmpty then s.mgt.ncsi else mine).any NcsiChannel.enabled

/-- Does a frame of the controller's go on towards the network: its channel's transmission is enabled too? -/
def ncsiForwards (s : State) (mac : Nat) : Bool :=
  let mine := s.mgt.ncsi.filter (fun x => x.macs.contains mac)
  !mgtRmii s || (if mine.isEmpty then s.mgt.ncsi else mine).any (fun x => x.enabled && x.txEnabled)

/-! ### Sending (R220, R221, R403) -/

/-- Is sending held by a received PAUSE frame (R213, R220)? -/
def mgtPaused (s : State) : Bool := match s.mgt.pauseUntil with
  | some t => decide (s.elapsed < t)
  | none => false

/-- The frame at the head of the queue starts, where nothing holds it. -/
def mgtStart (s : State) : State :=
  if mgtRuns s && !s.mgt.queue.isEmpty && !s.mgt.sending && s.mgt.backoffUntil.isNone && !(mgtHalf s && s.mgt.carrier) && !mgtPaused s then
    modMgt (fun m => { m with sending := true }) s
  else s

/-- The answer owed for a handle is sent, unless its domain's EPOCH has moved on, and the handle is released (R403, R407). -/
def mgtAnswer (k status : Nat) (s : State) : State :=
  let s1 := freeHandle k (modSvc (fun v => { v with owed := mdel v.owed k }) s)
  match mfind s.svc.owed k with
  | some o => sendDone o.kind o.reply status o.tag o.domain o.epoch s1
  | none => s1

/-- The head frame has finished with a status, and the next may start. -/
def mgtFinish (status : Nat) (s : State) : State :=
  match s.mgt.queue with
  | [] => s
  | f :: t => mgtStart (mgtAnswer f.1 status (modMgt (fun m => { m with queue := t, sending := false, attempts := 0, backoffUntil := none }) s))

/-- Every queued frame ends with FLUSHED, as MGT is disabled or its link is down (R403). -/
def mgtFlush (s : State) : State :=
  let q := s.mgt.queue
  foldS (fun (f : Nat × Bytes) s => mgtAnswer f.1 0x30 s) q
    (modMgt (fun m => { m with queue := [], sending := false, attempts := 0, backoffUntil := none, carrier := false, pauseUntil := none }) s)

/-- The status of an MGT_TX message: BAD_CONTEXT or BAD_LENGTH where it is refused (R403). -/
def mgtTxStatus (s : State) (m : ChMsg) : Nat :=
  let w := (m.words.map (leBytes 8)).flatten
  let len := leAt w 8 2
  if m.words.length ≠ 3 ∨ byteAt w 0 ≠ 0x12 then 0x04
  else match mfind s.svc.handles (leAt w 4 4) with
  | none => 0x04
  | some x => if x.owner ≠ .domain m.domain then 0x04 else if len < 14 ∨ 1518 < len ∨ x.bytes.length < len then 0x02 else 0

/-- MGT_TX (R403): the oldest message of channel 1 queues its frame, or is refused; FLUSHED where MGT is disabled or its link is down. -/
def execMgtTx (s : State) : Outcome :=
  match chMsgs s 1 with
  | [] => .next s
  | m :: _ =>
    let w := (m.words.map (leBytes 8)).flatten
    let k := leAt w 4 4
    let st := mgtTxStatus s m
    let s1 := roomMade 1 (modMsgs 1 (·.drop 1) s)
    if st ≠ 0 then .next (sendDone 0x13 (leAt w 2 2) st (leAt w 16 8) m.domain m.epoch s1)
    else
      let bytes := ((mfind s.svc.handles k).map Handle.bytes).getD []
      let o : Owed := { kind := 0x13, reply := leAt w 2 2, tag := leAt w 16 8, domain := m.domain, epoch := m.epoch }
      let s2 := modSvc (fun v => { v with
        owed := mput v.owed k o, handles := (match mfind v.handles k with
          | some x => mput v.handles k { x with owner := .device }
          | none => v.handles) }) s1
      if !mgtRuns s ∨ !ncsiPasses s (beAt bytes 0 6) then .next (mgtAnswer k 0x30 s2)
      else .next (mgtStart (modMgt (fun x => { x with queue := x.queue ++ [(k, bytes.take (leAt w 8 2))] }) s2))

/-- MGT_FRAME_SENT (R403): the frame being sent leaves whole, padded and with its FCS. A frame that only a received pause holds starts as
the hold ends, and is sent. -/
def execMgtFrameSent (s : State) : Outcome :=
  let s1 := if s.mgt.sending then s else match s.mgt.pauseUntil with
    | some t => mgtStart (modMgt (fun m => { m with pauseUntil := none }) (advanceTo t s))
    | none => s
  match s1.mgt.queue with
  | [] => .next s
  | f :: _ =>
    if !s1.mgt.sending then .next s
    else
      let body := f.2 ++ List.replicate (60 - f.2.length) 0
      .next (mgtFinish 0 (mgtStat 0 (emit (.mgtOut (body ++ leBytes 4 (crc32 body))) s1)))

/-- COLLISION (R221): in half duplex, a collision within the first 512 bit times jams and backs off r slot times, r drawn by an on-die
generator, a free value; the 16th drops the frame; a late one aborts it. -/
def execCollision (bitTimes : Nat) (s : State) : Outcome :=
  if !(mgtHalf s ∧ s.mgt.sending) then .next s
  else
    let s1 := mgtStat 4 s
    if 512 < bitTimes then .next (mgtFinish 0x30 (mgtStat 5 s1))
    else
      let n := s.mgt.attempts + 1
      if 16 ≤ n then .next (mgtFinish 0x30 (mgtEvent 0x03 0 (mgtStat 6 s1)))
      else
        let r := takeFree s1
        let wait := s.elapsed + bitTime s (r.1 % 2 ^ min n 10 * 512 + 32)
        .next (modMgt (fun m => { m with sending := false, attempts := n, backoffUntil := some wait }) r.2)

/-- BACKOFF_EXPIRY (R221): the frame is retried, once no carrier is sensed. -/
def execBackoffExpiry (s : State) : Outcome :=
  match s.mgt.backoffUntil with
  | some t => .next (mgtStart (modMgt (fun m => { m with backoffUntil := none }) (advanceTo t s)))
  | none => .next s

/-- MGT_CARRIER_DROP (R221): carrier falls, and a deferring frame starts after the gap of 96 bit times. -/
def execMgtCarrierDrop (s : State) : Outcome :=
  if s.mgt.carrier then
    let s1 := modMgt (fun m => { m with carrier := false }) s
    .next (if mgtHalf s ∧ !s.mgt.queue.isEmpty then mgtStart (advanceTo (s.elapsed + bitTime s 96) s1) else s1)
  else .next s

/-- MGT_LINK_UP (R225). -/
def execMgtLinkUp (s : State) : Outcome :=
  if s.mgt.linkUp ∨ !fastRuns s ∨ mgtRmii s then .next s else .next (mgtEvent 0x01 0 (modMgt (fun m => { m with linkUp := true }) s))

/-- MGT_LINK_DOWN (R225, R403). -/
def execMgtLinkDown (s : State) : Outcome :=
  if s.mgt.linkUp then .next (mgtEvent 0x02 0 (mgtFlush (modMgt (fun m => { m with linkUp := false }) s))) else .next s

/-- A write of MGT_CFG by firmware (R220): in RGMII mode 1000 Mb/s with half duplex changes neither field and sets CFG_REFUSED. -/
def mgtCfgWrite (p : Path) (v : Word) (s : State) : State :=
  if !mayWrite s p .MGT_CFG then s
  else
    let old := mgtCfg s
    let new := applyWrite .MGT_CFG old v
    let bad := !mgtRmii s && decide (2 ≤ fld new 2 1) && wbit new 0
    let keep := setFld (setFld new 2 1 (fld old 2 1)) 0 0 (fld old 0 0)
    let s1 := setReg .MGT_CFG 0 0 (if bad then keep else new) s
    let s2 := if bad then hwSet .MGT_CFG 0 0 8 s1 else s1
    if wbit new 31 then s2 else mgtFlush s2

/-! ### Receiving (R220, R403) -/

/-- A good frame goes to channel 0 as a FRAME message with ORIGIN 4, in cells of its handle (R400, R401, R403). -/
def mgtDeliver (bytes : Bytes) (s : State) : State :=
  if chFull s 0 then raise 0xC 0x10 0 .device (bump .SVC_STAT 0 0 1 s)
  else match freeHandleNo s with
  | none => bump .SVC_STAT 1 0 1 s
  | some k =>
    match hallocNow k bytes.length 0 s with
    | none => poolDrop s
    | some t =>
      let f : Frame := { ingress := 0xFFFF, source := 0, bytes := bytes, ts := nowFrac s, bound := bound16 s }
      let x : Handle := { owner := .channel 0, bytes := bytes }
      let s1 := modSvc (fun v => { v with handles := match mfind v.handles k with
        | some y => mput v.handles k { x with ochre := y.ochre, umber := y.umber, sienna := y.sienna }
        | none => v.handles }) { t with free := s.free }
      commitMsg 0 { words := frameWords f k bytes.length 0 4 0xFFFF none, source := 1 } s1

/-- A received PAUSE frame (R213, R220): in full duplex it holds transmission for its quanta of 512 bit times. -/
def mgtPause (bytes : Bytes) (s : State) : State :=
  let q := beAt bytes 16 2
  let s1 := mgtStat 7 s
  if mgtHalf s then s1
  else if q = 0 then mgtStart (modMgt (fun m => { m with pauseUntil := none }) s1)
  else modMgt (fun m => { m with pauseUntil := some (s.elapsed + bitTime s (q * 512)) }) s1

/-- MGT_FRAME_RX (R220, R403): bytes without FCS, and whether the FCS is good. -/
def execMgtFrameRx (bytes : Bytes) (fcsOk : Bool) (s : State) : Outcome :=
  let n := bytes.length + 4
  let s1 := if mgtHalf s then modMgt (fun m => { m with carrier := true }) s else s
  if !mgtRuns s ∨ !ncsiForwards s (beAt bytes 6 6) then .next s
  else if n < 64 ∨ 1522 < n then .next (mgtStat 3 s1)
  else if !fcsOk then .next (mgtStat 2 s1)
  else if beAt bytes 12 2 = 0x8808 ∧ beAt bytes 14 2 = 1 then .next (mgtPause bytes s1)
  else .next (mgtDeliver bytes (mgtStat 1 s1))

/-! ### MDIO (R222) -/

/-- A write of MGT_MDIO_CTRL: it starts one MDIO frame and sets BUSY; while BUSY it has no effect. -/
def mdioStart (p : Path) (v : Word) (s : State) : State :=
  if !mayWrite s p .MGT_MDIO_CTRL ∨ s.mgt.mdioBusy then s
  else
    let c := applyWrite .MGT_MDIO_CTRL (reg s .MGT_MDIO_CTRL 0 0) v
    emit (.mdioOut c (fld (reg s .MGT_MDIO_DATA 0 0) 15 0))
      (modMgt (fun m => { m with mdioBusy := true, mdioNoAck := false }) (setReg .MGT_MDIO_CTRL 0 0 c s))

/-- Does the MDIO frame in MGT_MDIO_CTRL read: OP 2 of Clause 22, OP 2 or 3 of Clause 45? -/
def mdioReads (s : State) : Bool :=
  let c := reg s .MGT_MDIO_CTRL 0 0
  if fld c 25 24 = 0 then decide (2 ≤ fld c 27 26) else fld c 27 26 == 2

/-- MDIO_DONE (R222): the frame ends; none: the turnaround of a read was not driven low. -/
def execMdioDone (data : Option (BitVec 16)) (s : State) : Outcome :=
  if !s.mgt.mdioBusy then .next s
  else
    let s1 := modMgt (fun m => { m with mdioBusy := false, mdioNoAck := mdioReads s && data.isNone }) s
    if mdioReads s then .next (setReg .MGT_MDIO_DATA 0 0 (w32 ((data.map BitVec.toNat).getD 0xFFFF)) s1) else .next s1

/-! ### NC-SI (R223; codes of DSP0222, assumption 83) -/

/-- A channel. -/
def ncsiCh (s : State) (c : Nat) : NcsiChannel := s.mgt.ncsi.getD c {}
def modNcsi (c : Nat) (g : NcsiChannel → NcsiChannel) (s : State) : State := modMgt (fun m => { m with ncsi := updAt c g m.ncsi }) s

/-- The logical port of a channel, and whether the package has the channel (R223). -/
def ncsiLp (s : State) (c : Nat) : Nat := s.cai.settings.ncsiPorts.getD c 16
def ncsiHas (s : State) (c : Nat) : Bool := decide (c < min 4 s.cai.settings.ncsiPorts.length)

/-- The VLAN fields of a channel's filter entries: each VLAN ID in VLAN modes 1 and 2, and without VLAN_MATCH but in mode 1. -/
def ncsiVlans (x : NcsiChannel) : List Nat :=
  let vids := (x.vlans.filter (· != 0)).map (fun v => 4096 + v)
  if x.vlanMode = 1 then vids else if x.vlanMode = 2 then 0 :: vids else [0]

/-- The filter-memory entries that firmware installs for a channel, of the controller's vport (R209, R223). -/
def ncsiEntries (s : State) (c : Nat) : List Bytes :=
  let x := ncsiCh s c
  ((x.macs.filter (· != 0)).map (fun m => (ncsiVlans x).map (fun v =>
    beBytes 6 m ++ leBytes 2 v ++ leBytes 2 (s.cai.settings.ncsiVport % 4096 + at_ 12 (ncsiLp s c)) ++ leBytes 1 1 ++ leBytes 5 0))).flatten

/-- Firmware replaces a channel's entries in the filter memory (R223). -/
def ncsiInstall (c : Nat) (s : State) : State :=
  let mine (e : Bytes) : Bool := fltVport e == s.cai.settings.ncsiVport % 4096 && fltLport e == ncsiLp s c
  foldS (fun e s => (fltPlace e s).2.2) (ncsiEntries s c) (modMac (fun m => { m with filters := m.filters.filter (fun e => !mine e.2) }) s)

/-- A channel changes: the events and the queue of MGT follow its link in RMII mode (R224, R225). -/
def ncsiLink (before : Bool) (s : State) : State :=
  if mgtLink s = before then s else if before then mgtEvent 0x02 0 (mgtFlush s) else mgtEvent 0x01 0 s

/-- An answer to the controller: response code and reason. -/
def ncsiReply (c code reason : Nat) (body : Bytes) (s : State) : State := emit (.ncsi c code reason body) s
def ncsiOk (c : Nat) (s : State) : State := ncsiReply c 0 0 [] s

/-- Reset Channel (R223): pass-through stops until the controller enables the channel again, and NCSI_CHANNEL_RESET is raised. -/
def ncsiReset (c : Nat) (s : State) : State :=
  let lp := ncsiLp s c
  let s1 := if bitOf (ncsiCh s c).aen 1 then emit (.ncsi c 0xFF 1 (Config.ncsiAnswer 0x101 c [b2n (lport s lp).up])) s else s
  mgtEvent 0x04 c (ncsiLink (mgtLink s) (ncsiInstall c (modNcsi c (fun _ => {}) s1)))

/-- RESET_CHANNEL (R223). -/
def execResetChannel (channel : Nat) (s : State) : Outcome :=
  if mgtRmii s ∧ ncsiHas s channel ∧ fastRuns s then .next (ncsiOk channel (ncsiReset channel s)) else .next s

/-- A set or cleared entry of a list of filters: its 1-based number, its value, none to clear. -/
def ncsiFilter (n : Nat) (l : List Nat) (i : Nat) (v : Option Nat) : List Nat :=
  ((l ++ List.replicate (n - l.length) 0).set (i - 1) (v.getD 0)).take n

/-- Set Link: refused while a host driver has TX_EN set on the logical port (R223). -/
def ncsiSetLink (c : Nat) (s : State) : State :=
  if wbit (lpCfg s (ncsiLp s c)) 30 then ncsiReply c 1 0x0901 [] s else ncsiOk c s

/-- A command on a channel that has left the Initial State. -/
def ncsiOn (c cmd : Nat) (pl : Bytes) (s : State) : State :=
  let x := ncsiCh s c
  let lp := ncsiLp s c
  let set (g : NcsiChannel → NcsiChannel) : State := ncsiOk c (ncsiLink (mgtLink s) (modNcsi c g s))
  let setFilters (g : NcsiChannel → NcsiChannel) : State := ncsiOk c (ncsiInstall c (modNcsi c g s))
  let bad : State := ncsiReply c 1 0x0002 [] s
  let say (vs : List Nat) : State := ncsiReply c 0 0 (Config.ncsiAnswer cmd c vs) s
  match cmd with
  | 0x03 => set (fun x => { x with enabled := true })
  | 0x04 => set (fun x => { x with enabled := false })
  | 0x06 => set (fun x => { x with txEnabled := true })
  | 0x07 => set (fun x => { x with txEnabled := false })
  | 0x08 => set (fun x => { x with aen := beAt pl 4 4 % 8 })
  | 0x09 => ncsiSetLink c s
  | 0x0A => say [b2n (lport s lp).up, lpRate s lp]
  | 0x0B => let i := byteAt pl 6
            if i = 0 ∨ 8 < i then bad
            else setFilters (fun x => { x with vlans := ncsiFilter 8 x.vlans i (if bitOf (byteAt pl 7) 0 then some (beAt pl 2 2 % 4096) else none) })
  | 0x0C => if byteAt pl 3 = 0 ∨ 3 < byteAt pl 3 then bad else setFilters (fun x => { x with vlanMode := byteAt pl 3 })
  | 0x0D => setFilters (fun x => { x with vlanMode := 0 })
  | 0x0E => let i := byteAt pl 6
            if i = 0 ∨ 4 < i then bad
            else setFilters (fun x => { x with macs := ncsiFilter 4 x.macs i (if bitOf (byteAt pl 7) 0 then some (beAt pl 0 6) else none) })
  | 0x10 => set (fun x => { x with broadcast := beAt pl 0 4 % 16 })
  | 0x11 => set (fun x => { x with broadcast := 0 })
  | 0x12 => set (fun x => { x with multicast := beAt pl 0 4 % 64 })
  | 0x13 => set (fun x => { x with multicast := 0 })
  | 0x15 => say []
  | 0x16 => say [4, 8]
  | 0x17 => say (x.macs ++ x.vlans ++ [x.vlanMode, x.broadcast, x.multicast, b2n x.enabled, b2n x.txEnabled, x.aen])
  | 0x18 => say ((List.range 19).map (fun k => mget 0 (lport s lp).counters k))
  | 0x1A => say [(reg s .MGT_STAT 0 0).toNat, (reg s .MGT_STAT 1 0).toNat]
  | _ => ncsiReply c 3 0x7FFF [] s

/-- NCSI_COMMAND (R223): the Channel ID holds the package in bits 7:5, and a command of another package is not this device's. Package commands name
channel 0x1F. -/
def execNcsiCommand (channel command : Nat) (payload : Bytes) (s : State) : Outcome :=
  let c := channel % 32
  if !mgtRmii s ∨ !fastRuns s ∨ channel / 32 ≠ s.cai.settings.ncsiPackage then .next s
  else if command = 0x01 ∨ command = 0x02 then .next (ncsiOk channel (modMgt (fun m => { m with ncsiSelected := command == 0x01 }) s))
  else if !ncsiHas s c then .next (ncsiReply channel 1 0x0002 [] s)
  else if command = 0x00 then .next (ncsiOk c (modNcsi c (fun x => { x with initial := false }) s))
  else if command = 0x05 then .next (ncsiOk c (ncsiReset c s))
  else if (ncsiCh s c).initial then .next (ncsiReply c 1 0x0001 [] s)
  else .next (ncsiOn c command payload s)

end Sys2Proof.Machine
end

