-- ==== Sys2Proof/Machine/Migration.lean ====
section
/-!
DEFINITION. A VF's grant and vport, the dirty-page log, freezing, saving, restoring and unfreezing (R184 to R197, R341, R367).
-/
namespace Sys2Proof.Machine

/-! ### The selected VF and its actions (R188, R189) -/

/-- The VF that HIF_VF_SELECT of a PF names, where it exists. -/
def selectedVf (s : State) (pf : Nat) : Option Fn :=
  let n := fld (reg s .HIF_VF_SELECT 0 (fnCode (.pf pf))) 11 0
  if pfEnabled s pf ∧ n < totalVfs s pf then some (.vf pf n) else none

/-- s with the migration record of a VF changed by g. -/
def modMig (f : Fn) (g : Mig → Mig) (s : State) : State := modFn f (fun r => { r with mig := g r.mig }) s

/-- RESULT of a VF's last action. -/
def migResult (f : Fn) (r : Nat) (s : State) : State := modMig f (fun m => { m with result := r }) s

/-- An action of the selected VF: BUSY while another is PENDING (R189), else g. -/
def migAction (pf : Nat) (g : Fn → State → State) (s : State) : State :=
  match selectedVf s pf with
  | none => s
  | some f => if (fnSt s f).mig.action.isSome then migResult f 2 s else g f s

/-- An action becomes PENDING (R189). -/
def migPend (f : Fn) (a : Nat) (s : State) : State := modMig f (fun m => { m with action := some a, result := 1 }) s

/-- A register of a VF. -/
def vfReg (s : State) (f : Fn) (r : Reg) : Word := reg s r 0 (fnCode f)

/-! ### Grants and vports (R184 to R187) -/

/-- The grant that the registers of a VF describe (R184). -/
def grantOf (s : State) (f : Fn) : Grant :=
  { base := fld (vfReg s f .HIF_VF_Q_BASE) 16 0, sqs := fld (vfReg s f .HIF_VF_Q_COUNT) 10 0, cqs := fld (vfReg s f .HIF_VF_Q_COUNT) 25 16,
    eqBase := fld (vfReg s f .HIF_VF_EQ) 12 0, eqs := fld (vfReg s f .HIF_VF_EQ) 22 16, vectors := fld (vfReg s f .HIF_VF_VECTORS) 11 0 }

/-- Do two ranges overlap? -/
def overlaps (a n b m : Nat) : Bool := decide (a < b + m ∧ b < a + n)

/-- MSI-X vectors granted to every function but one (R185). -/
def vectorsElsewhere (s : State) (f : Fn) : Nat :=
  (((List.range 4).filter (pfEnabled s)).map (fun i => (pfSet s i).vectors)).foldl (· + ·) 0
    + ((s.hif.fns.filter (fun e => e.1 != fnCode f)).map (fun e => (e.2.grant.map Grant.vectors).getD 0)).foldl (· + ·) 0

/-- Does a grant pass the checks of R185? -/
def grantOk (s : State) (f : Fn) (g : Grant) : Bool :=
  let p := pfSet s (fnPf f)
  let n := max g.sqs g.cqs
  let clash (e : Nat × FnSt) : Bool := decide (e.1 / 4096 = fnCode f / 4096) && e.1 != fnCode f && (match e.2.grant with
    | some h => overlaps g.base n h.base (max h.sqs h.cqs) || overlaps g.eqBase g.eqs h.eqBase h.eqs
    | none => false)
  decide (1 ≤ g.sqs ∧ g.sqs ≤ 1024 ∧ 1 ≤ g.cqs ∧ g.cqs ≤ 960 ∧ 1 ≤ g.eqs ∧ g.eqs ≤ 64 ∧ 1 ≤ g.vectors ∧ g.vectors ≤ 1024) &&
  decide (p.qBase ≤ g.base ∧ g.base + n ≤ p.qBase + p.qCount ∧ p.eqBase ≤ g.eqBase ∧ g.eqBase + g.eqs ≤ p.eqBase + p.eqCount) &&
  !s.hif.fns.any clash && decide (vectorsElsewhere s f + g.vectors ≤ 65536)

/-- GRANT (R153, R185). -/
def vfGrant (pf : Nat) (s : State) : State :=
  migAction pf (fun f s =>
    let g := grantOf s f
    if vfEnabled s pf then migResult f 2 s
    else if !grantOk s f g then migResult f 3 s
    else migResult f 0 (tdiError f (modFn f (fun r => { r with grant := some g }) s))) s

/-- Is a vport bound to a function other than f? -/
def vportTaken (s : State) (f : Fn) (v : Nat) : Bool :=
  s.hif.fns.any (fun e => e.1 != fnCode f && e.2.vport == some v) || (List.range 4).any (fun i => pfEnabled s i && pfVport s i == some v)

/-- VPORT_BIND (R186, R187): a write of HIF_VF_VPORT. -/
def vportBind (pf : Nat) (v : Word) (s : State) : State :=
  match selectedVf s pf with
  | none => s
  | some f =>
    let n := fld v 11 0
    let put (p : Option Nat) : State :=
      let s1 := if (fnSt s f).vport = p then s else tdiError f (modFn f (fun r => { r with vport := p }) s)
      setReg .HIF_VF_VPORT 0 (fnCode f) (applyWrite .HIF_VF_VPORT (vfReg s f .HIF_VF_VPORT) v) s1
    if !wbit v 31 then put none
    else if (pfSet s pf).nvme ∨ !inVportRange s pf n ∨ vportTaken s f n then migResult f 3 s
    else put (some n)

/-! ### The dirty-page log (R190, R191) -/

/-- Do the log registers and the VF's settings pass the checks of LOG_START? -/
def logOk (s : State) (f : Fn) : Bool :=
  let h := fnCode f
  let pages := (vfReg s f .HIF_VF_LOG_PAGES).toNat
  decide (pair64 s .HIF_VF_LOG_A_LO .HIF_VF_LOG_A_HI 0 h % 4096 = 0 ∧ pair64 s .HIF_VF_LOG_B_LO .HIF_VF_LOG_B_HI 0 h % 4096 = 0
    ∧ pair64 s .HIF_VF_LOG_IOVA_LO .HIF_VF_LOG_IOVA_HI 0 h % 4096 = 0 ∧ pages ≠ 0 ∧ pages % 32768 = 0)
    && !wbit (cfgGet s f 113) 31
    && !s.qm.queues.any (fun e => decide (e.1 / 2 ^ 20 = h) && created e.2 && wbit e.2.pasid 31)

/-- LOG_START (R190). -/
def logStart (pf : Nat) (s : State) : State :=
  migAction pf (fun f s => if logOk s f then
    modMig f (fun m => { m with result := 0, logging := true, activeB := false, rangeMiss := false }) s else migResult f 3 s) s

/-- LOG_SWAP (R191). -/
def logSwap (pf : Nat) (s : State) : State :=
  migAction pf (fun f s => modMig f (fun m => { m with result := 0, activeB := !m.activeB, rangeMiss := false }) s) s

/-- LOG_STOP (R190). -/
def logStop (pf : Nat) (s : State) : State := migAction pf (fun f s => modMig f (fun m => { m with result := 0, logging := false }) s) s

/-- DIRTY_PAGE_LOG (R190): the record of a write of len bytes. -/
def execDirtyPageLog (f : Fn) (addr len : Nat) (s : State) : Outcome := .next (logWrite f addr len s)

/-! ### Freezing (R192, R193) -/

/-- The SQs of a function that hold work. -/
def workingSqs (s : State) (f : Fn) : List (Nat × Queue) :=
  (s.qm.queues.filter (fun e => decide (e.1 / 2 ^ 20 = fnCode f))).map (fun e => (e.1 % 2 ^ 20, e.2))

/-- Is a mover job one of an entry, and has it written nothing? -/
def jobFresh (f : Fn) (j : Job) : Bool := j.fn == f && j.work.isSome && j.pos == 0 && j.status == 0

/-- Has an entry made a remote request or a host write, so that it goes to its end (R192)? Nothing of a host's frame leaves before its list has
ended (R23), and look-aside and TABLE entries write to the host at their end alone. -/
def begun (s : State) (f : Fn) (q : Nat) (w : Work) : Bool :=
  w.started && (match w.cls with
    | 0 => ((w.ref.bind (frameOf s)).map (fun r => r.stage == .finished)).getD true
    | 1 => w.filled != 0
    | 2 | 3 => false
    | 4 => s.sto.ops.all (fun o => !(o.fn == f && o.sq == q && o.ctr == w.ctr) || o.sent)
    | 5 => s.dmv.chans.all (fun e => e.2.jobs.all (fun j => !(jobFresh f j && j.work == some (q, w.ctr))))
    | _ => true)

/-- The entries of an SQ, those without a remote request or host write parked (R192): of the entries that have ended, those that wait behind a
parked one and never ran. A parked entry that held a buffer, a connection's turn or a channel begins anew. -/
def parkWork (s : State) (f : Fn) (q : Nat) (ws : List Work) : List Work :=
  let rec go : Bool → List Work → List Work
    | _, [] => []
    | behind, w :: t =>
      if w.done.isNone && !begun s f q w || w.done.isSome && behind && !w.started then
        { w with parked := true, started := false, ref := if w.cls = 0 then none else w.ref, trk := if w.cls = 5 then none else w.trk } :: go true t
      else w :: go behind t
  go false ws

/-- Parked jobs leave their channels, whose next job then waits for a mover. -/
def parkJobs (f : Fn) (s : State) : State :=
  foldS (fun (e : Nat × MvChan) s =>
    let rest := e.2.jobs.filter (fun j => !jobFresh f j)
    if rest.length = e.2.jobs.length then s
    else
      let headGone := (e.2.jobs.head?.map (jobFresh f)).getD false
      let s1 := modChan e.1 (fun u => { u with jobs := rest, st := if headGone && (u.st == .running || u.st == .preempted) then .idle else u.st }) s
      if headGone && !rest.isEmpty then mvWait e.1 s1 else s1) s.dmv.chans s

/-- A frame that has not left is withdrawn whole: its engine, its messages in CRY, its mirror copies and its cells. -/
def retractFrame (id : Nat) (s : State) : State :=
  let ids := id :: mirrorsOf s id
  let s1 := removeMsgs (fun m => match m.src with
    | .frame n => ids.contains n
    | .lookaside .. => false) s
  let s2 := modPrs (fun p => { p with engines := p.engines.filter (fun e => !ids.contains e.2.frame) }) s1
  foldS freeFrame ids s2

/-- Frames of a VF's parked TX_FRAME entries are withdrawn (R192). -/
def parkFrames (f : Fn) (s : State) : State :=
  let mine := s.tm.frames.filter (fun e => e.2.parent.isNone && e.2.stage != .finished && e.2.origin.any (fun o => o.1 == f))
  foldS retractFrame (mine.map Prod.fst) s

/-- An insertion of the VF that waits for moves is undone, for its entry is parked (R192); the moves under way go on. -/
def parkInserts (f : Fn) (s : State) : State :=
  foldS (fun (e : Nat × Placing) s =>
    if e.2.work.any (fun w => w.1 == f) then
      let s1 := if e.1 < 16 then removeFlow e.2.slot.index s else removeRoute e.2.slot.index s
      modTbl (fun t => { t with placing := mput t.placing e.1 { e.2 with work := none } }) s1
    else s) s.tbl.placing s

/-- Look-aside messages of the VF leave CRY with their parked entries (R192). -/
def parkMsgs (f : Fn) (s : State) : State :=
  removeMsgs (fun m => match m.src with
    | .lookaside g _ _ => g == f
    | .frame _ => false) s

/-- Does a request serve a parked entry? -/
def servesParked (s : State) (f : Fn) (r : Req) : Bool :=
  let at_ (q c : Nat) : Bool := (workOf s f q (BitVec.ofNat 16 c)).any Work.parked
  r.fn == f && (match r.use with
    | .work q c _ => at_ q c
    | .translate q c _ => at_ q c
    | .other => false)

/-- A VF's work is parked. -/
def park (f : Fn) (s : State) : State :=
  let s1 := modQm (fun m => { m with queues := m.queues.map (fun e =>
    if e.1 / 2 ^ 20 = fnCode f then (e.1, { e.2 with work := parkWork s f (e.1 % 2 ^ 20) e.2.work, staleAt := none }) else e) }) s
  let s2 := modSto (fun t => { t with ops := t.ops.filter (fun o => !(o.fn == f && !o.sent)) })
    (parkMsgs f (parkInserts f (parkFrames f (parkJobs f s1))))
  modHif (fun h => { h with waiting := h.waiting.filter (fun r => !servesParked s2 f r) }) s2

/-- FREEZE (R153, R192): it acts on a RUNNING VF. -/
def vfFreeze (pf : Nat) (s : State) : State :=
  migAction pf (fun f s =>
    let t := (fnSt s f).tdi.st
    if t = .locked ∨ t = .run then migResult f 8 s
    else if !migRuns s f then migResult f 3 s
    else modMig f (fun m => { m with st := .freezing, freezeAt := s.elapsed, slow := false }) (park f (migPend f 5 s))) s

/-- Does no work remain that has made a remote request or a host write (R192)? -/
def freezeReady (s : State) (f : Fn) : Bool :=
  let x := nvme s f
  (workingSqs s f).all (fun e => e.2.work.all Work.parked) &&
    x.cmds.all (fun c => c.st == .fetched || c.st == .ready) && x.cqs.all (fun e => e.2.waiting.isEmpty) &&
    s.dmv.chans.all (fun e => (e.2.jobs ++ e.2.flushing).all (fun j => j.fn != f))

/-- FREEZE_DONE (R192): STATE becomes FROZEN and the action ends DONE. -/
def freezeDone (f : Fn) (s : State) : State :=
  if (fnSt s f).mig.st = .freezing ∧ freezeReady s f then migDone f 0 (modMig f (fun m => { m with st := .frozen }) s) else s

def execFreezeDone (f : Fn) (s : State) : Outcome := .next (freezeDone f s)

/-- MIG_SLOW (R192): FREEZE_LIMIT milliseconds have passed in FREEZING. -/
def migSlow (f : Fn) (s : State) : State :=
  let m := (fnSt s f).mig
  if m.st ≠ .freezing ∨ m.slow then s
  else
    let s1 := advanceTo (m.freezeAt + (vfReg s f .HIF_VF_FREEZE_LIMIT).toNat * 1000000) s
    raise 0x2 0x0D (fnCode f % 4096) (.function (.pf (fnPf f))) (modMig f (fun m => { m with slow := true }) s1)

def execMigSlow (f : Fn) (s : State) : Outcome := .next (migSlow f s)

/-! ### The image: sections (R197, R341, R367) -/

/-- Bytes, with zeros up to a record's length. -/
def padTo (n : Nat) (bs : Bytes) : Bytes := slice bs 0 n

/-- The created queues of a VF, by number. -/
def createdQueues (s : State) (f : Fn) : List (Nat × Queue) := (workingSqs s f).filter (fun e => created e.2)

/-- KIND of a QUEUES record. -/
def QKind.code : QKind → Nat
  | .sq => 0 | .cq => 1 | .eq => 2

/-- A QUEUES record. -/
def queueRecord (s : State) (f : Fn) (q : Nat) (u : Queue) : Bytes :=
  padTo 64 (leBytes 2 q ++ leBytes 1 (((qKind f q).map QKind.code).getD 0) ++ leBytes 1 u.st.code ++ leBytes 4 u.cfg.toNat ++ leBytes 8 u.base
    ++ leBytes 4 (moderation s f q).toNat ++ leBytes 4 u.pasid.toNat ++ leBytes 2 u.p.toNat ++ leBytes 2 u.c.toNat
    ++ leBytes 2 (b2n u.armed) ++ leBytes 2 u.unsignalled)

/-- OVERFLOW records: the completions that no CQ has taken, in order for each CQ. -/
def overflowRecords (s : State) (f : Fn) : List Bytes :=
  ((createdQueues s f).map (fun e => (e.2.overflow ++ e.2.waiting).map (fun c => cqeBytes { e.2 with p := 0 } c))).flatten

/-- EVENTS records: sources not yet written, and what has been counted since an entry was written. -/
def eventRecords (s : State) (f : Fn) : List Bytes :=
  (s.qm.events.filter (fun e => e.fn == f && (e.written.isNone || decide (0 < e.more)))).map (fun e =>
    eqeBytes {} (if e.written.isNone then e else { e with count := e.more, ts := e.moreTs, bound := e.moreBound }))

/-- Vectors of a VF in use: the largest one in a created queue, an NVMe completion queue, the table or the PBA, plus 1. -/
def vectorsUsed (s : State) (f : Fn) : Nat :=
  let qs := ((createdQueues s f).filter (fun e => qKind f e.1 != some .sq)).map (fun e => fld (moderation s f e.1) 10 0 + 1)
  let ns := (nvme s f).cqs.map (fun e => e.2.vector + 1)
  let ts := (fnSt s f).msix.map (fun e => e.1 + 1)
  let ps := (fnSt s f).pba.map (· + 1)
  min (vectorsOf s f) ((qs ++ ns ++ ts ++ ps).foldl max 0)

/-- MSIX records: one for each vector in use, and the PBA bits of vectors 0 to 127. -/
def msixRecords (s : State) (f : Fn) : List Bytes :=
  (List.range (vectorsUsed s f)).map (fun v => leBytes 16 (msixEntry s f v))
    ++ [leBytes 16 (((fnSt s f).pba.filter (· < 128)).foldl (fun a v => a + 2 ^ v) 0)]

/-- An INFLIGHT record; bit 0 of byte 68 marks an NVMe command. -/
def inflightRecord (entry : BitVec 512) (q ctr : Nat) (nv : Bool) : Bytes :=
  padTo 128 (entryBytes entry ++ leBytes 2 q ++ leBytes 2 ctr ++ leBytes 1 (b2n nv))

/-- INFLIGHT records: parked entries in SQ order, then parked NVMe commands. -/
def inflightRecords (s : State) (f : Fn) : List Bytes :=
  let x := nvme s f
  ((workingSqs s f).map (fun e => (e.2.work.filter Work.parked).map (fun w => inflightRecord w.entry e.1 w.ctr.toNat false))).flatten
    ++ (x.cmds.filter (fun c => !c.discard && !x.aers.contains c.no)).map (fun c => inflightRecord c.entry c.sq 0 true)

/-- FILTERS, METERS and FLOWS records: those whose OWNER is the vport. -/
def filterRecords (s : State) (v : Nat) : List Bytes := (s.mac.filters.filter (fun e => fltValid e.2 && fltVport e.2 == v)).map Prod.snd
def meterRecords (s : State) (v : Nat) : List Bytes :=
  (s.tm.meters.filter (fun e => mtOwner e.2 == v)).map (fun e => leBytes 32 (meterRecord s.elapsed e.2))
def flowRecords (s : State) (v : Nat) : List Bytes := (s.tbl.flows.filter (fun e => flowOwner e.2 == v)).map (fun e => padTo 128 e.2)

/-- KEYREFS records (R341). -/
def keyrefRecords (s : State) (v : Nat) : List Bytes :=
  (s.cry.slots.filter (fun e => e.2.owner == v && e.2.key.isSome)).map (fun e =>
    padTo 32 (leBytes 4 e.1 ++ leBytes 1 (slotFlags e.2) ++ leBytes 1 e.2.proto ++ leBytes 2 0 ++ leBytes 8 e.2.next ++ leBytes 4 e.2.tcpNext))

/-- The record of an I/O queue pair (R367); bytes 34 and 35 hold the CQ of the SQ. -/
def pairRecord (x : Nvme) (q : Nat) : Bytes :=
  let sq := mfind x.sqs q
  let cq := mfind x.cqs q
  let a (g : NSq → Nat) : Nat := (sq.map g).getD 0
  let c (g : NCq → Nat) : Nat := (cq.map g).getD 0
  padTo 64 (leBytes 2 q ++ leBytes 8 (a NSq.base) ++ leBytes 2 (a NSq.size) ++ leBytes 8 (c NCq.base) ++ leBytes 2 (c NCq.size)
    ++ leBytes 2 (c NCq.vector) ++ leBytes 1 (c (fun u => b2n u.ien)) ++ leBytes 2 (a NSq.head) ++ leBytes 2 (a NSq.tail)
    ++ leBytes 2 (c NCq.head) ++ leBytes 2 (c NCq.tail) ++ leBytes 1 (c (fun u => b2n u.phase)) ++ leBytes 2 (a NSq.cq))

/-- CC, AQA, ASQ, ACQ and CSTS of a controller (R345, R346, R367). -/
def nvCsts (x : Nvme) : Nat := b2n x.rdy + at_ 2 x.shst

/-- CONTROLLER records (R367). -/
def controllerRecords (s : State) (f : Fn) : List Bytes :=
  let x := nvme s f
  let cids := x.aers.map (fun n => match x.cmds.find? (fun c => c.no == n) with
    | some c => entryField c.entry 2 2
    | none => 0)
  let feats := featIds.map (fun i => leBytes 4 (featValue s f i 0))
  let aens := leBytes 1 cids.length ++ leBytes 1 (min 13 x.events.length) ++ padTo 10 ((cids.map (leBytes 2)).flatten)
    ++ padTo 52 (((x.events.take 13).map (leBytes 4)).flatten)
  let nss := (activeNs s f 0).map (leBytes 4)
  let r0 := leBytes 4 x.cc ++ leBytes 4 x.aqa ++ leBytes 8 x.asq ++ leBytes 8 x.acq ++ leBytes 4 (nvCsts x) ++ padTo 36 feats.flatten ++ aens
    ++ padTo 1024 nss.flatten
  let qs := ((x.sqs.map Prod.fst) ++ (x.cqs.map Prod.fst)).eraseDups.filter (· != 0)
  padTo 4096 r0 :: (List.range (ceilDiv qs.length 64)).map (fun k => padTo 4096 (((qs.drop (64 * k)).take 64).map (pairRecord x)).flatten)

/-- TIMEPAGE record: the page address, then ENABLE in bit 0 of byte 8. -/
def timepageRecord (s : State) (f : Fn) : Bytes := let p := pageAddr s f; padTo 16 (leBytes 8 p.2 ++ leBytes 1 (b2n p.1))

/-- RECORD_LEN of a section TYPE that VERSION 1 knows. -/
def sectionLen (t : Nat) : Option Nat :=
  match t with
  | 1 => some 64 | 2 => some 32 | 3 => some 16 | 4 => some 16 | 5 => some 128 | 6 => some 16
  | 7 => some 32 | 8 => some 128 | 9 => some 32 | 0xA => some 4096 | 0xB => some 16
  | _ => none

/-- A section: its header and records. -/
def sectionBytes (t : Nat) (rs : List Bytes) : Bytes :=
  let n := (sectionLen t).getD 0
  leBytes 2 t ++ leBytes 2 n ++ leBytes 4 rs.length ++ leBytes 8 0 ++ rs.flatten

/-- The sections of a VF's image that hold a record, in the order of their types. -/
def imageSections (s : State) (f : Fn) : List (Nat × List Bytes) :=
  let own (g : State → Nat → List Bytes) : List Bytes := match (fnSt s f).vport with
    | some v => g s v
    | none => []
  let all := [(1, (createdQueues s f).map (fun e => queueRecord s f e.1 e.2)), (2, overflowRecords s f), (3, eventRecords s f),
    (4, msixRecords s f), (5, inflightRecords s f), (6, own filterRecords), (7, own meterRecords), (8, own flowRecords), (9, own keyrefRecords),
    (0xA, if isNvme s f then controllerRecords s f else []), (0xB, [timepageRecord s f])]
  all.filter (fun e => !e.2.isEmpty)

/-- The largest local number of a kind in use, plus 1. -/
def usedOf (s : State) (f : Fn) (k : QKind) (base : Nat) : Nat :=
  (((createdQueues s f).filter (fun e => qKind f e.1 == some k)).map (fun e => e.1 + 1 - base)).foldl max 0

/-- PERSONALITY of a VF. -/
def personality (s : State) (f : Fn) : Nat := b2n (pfSet s (fnPf f)).nvme

/-- The state image of a VF (R197). -/
def stateImage (s : State) (f : Fn) : Bytes :=
  let secs := imageSections s f
  let body := (secs.map (fun e => sectionBytes e.1 e.2)).flatten
  let total := 128 + body.length + 48
  let head := leBytes 4 0x5A4E5646 ++ leBytes 2 1 ++ leBytes 2 128 ++ leBytes 4 total ++ leBytes 2 secs.length ++ leBytes 1 (personality s f)
    ++ leBytes 1 0 ++ leBytes 8 (Config.serial % 2 ^ 64) ++ leBytes 8 (now s) ++ leBytes 2 (usedOf s f .sq 0) ++ leBytes 2 (usedOf s f .cq 1024)
    ++ leBytes 1 (usedOf s f .eq 1984) ++ leBytes 1 0 ++ leBytes 2 (vectorsUsed s f) ++ leBytes 2 (bound16 s)
  let bs := padTo 128 head ++ body
  bs ++ sha384 bs

/-- The image buffer of a VF, in the PF's addresses. -/
def imageBuf (s : State) (f : Fn) : Nat := pair64 s .HIF_VF_IMG_LO .HIF_VF_IMG_HI 0 (fnCode f)

/-- SAVE (R194): the image is written to the buffer, with the PF's Requester ID; STATE shows SAVING until VF_MIG_DONE. -/
def vfSave (pf : Nat) (res : HostWriteEnd) (s : State) : State :=
  migAction pf (fun f s =>
    if (fnSt s f).mig.st ≠ .frozen then migResult f 3 s
    else
      let img := stateImage s f
      let n := img.length
      let fin (r : Nat) (s : State) : State := modMig f (fun m => { m with st := .saving, ending := r }) (migPend f 6 s)
      let used (s : State) : State := modMig f (fun m => { m with imgUsed := n }) s
      if (vfReg s f .HIF_VF_IMG_LEN).toNat < n then fin 5 (used s)
      else match res with
      | .failed => fin 6 s
      | .landed => fin 0 (used (hostWrite (.pf pf) none (imageBuf s f) img false s))) s

/-! ### Restoring (R195, R197) -/

/-- Records of n bytes each. -/
def cutRecords (n k : Nat) (bs : Bytes) : List Bytes := (List.range k).map (fun i => slice bs (n * i) n)

/-- The sections of an image, where every one is known and lies within it. -/
def readSections : Nat → Bytes → Option (List (Nat × List Bytes))
  | 0, bs => if bs.isEmpty then some [] else none
  | k + 1, bs =>
    let n := leAt bs 2 2
    let c := leAt bs 4 4
    if bs.length < 16 + n * c ∨ sectionLen (leAt bs 0 2) ≠ some n then none
    else (readSections k (bs.drop (16 + n * c))).map (fun t => (leAt bs 0 2, cutRecords n c (bs.drop 16)) :: t)

/-- The sections of a whole image that passes the checks of its header and its hash (R195). -/
def readImage (s : State) (f : Fn) (data : Bytes) : Option (List (Nat × List Bytes)) :=
  let n := leAt data 8 4
  let bs := data.take n
  if data.length < n ∨ n < 176 ∨ leAt bs 0 4 ≠ 0x5A4E5646 ∨ bs.drop (n - 48) ≠ sha384 (bs.take (n - 48)) then none
  else if leAt bs 4 2 ≠ 1 ∨ byteAt bs 14 ≠ personality s f then none
  else readSections (leAt bs 12 2) ((bs.take (n - 48)).drop 128)

/-- All records of a type. -/
def recordsOf (secs : List (Nat × List Bytes)) (t : Nat) : List Bytes := ((secs.filter (fun e => e.1 == t)).map Prod.snd).flatten

/-- Does the image need no more than the VF was granted? -/
def grantFits (s : State) (f : Fn) (data : Bytes) : Bool :=
  match (fnSt s f).grant with
  | some g => decide (leAt data 32 2 ≤ g.sqs ∧ leAt data 34 2 ≤ g.cqs ∧ byteAt data 36 ≤ g.eqs ∧ leAt data 38 2 ≤ g.vectors)
  | none => leAt data 32 8 % 2 ^ 40 == 0 && leAt data 38 2 == 0

/-- A QUEUES record names local numbers and a vector within the grant. -/
def queueRecordOk (s : State) (f : Fn) (r : Bytes) : Bool :=
  let q := leAt r 0 2
  let u : Queue := { cfg := w32 (leAt r 4 4) }
  let k := qKind f q
  ownsQueue s f q && k.map QKind.code == some (byteAt r 2) && decide (byteAt r 3 < 5) && (k == some .eq || ownsQueue s f (qTarget u)) &&
    (k == some .sq || decide (leAt r 16 2 % 2048 < vectorsOf s f))

/-- MSIX records name granted vectors only. -/
def msixOk (s : State) (f : Fn) (rs : List Bytes) : Bool :=
  decide (rs.length ≤ vectorsOf s f + 1) && (List.range 128).all (fun v => !(leNat (rs.getLast?.getD [])).testBit v || decide (v < vectorsOf s f))

/-- A record's flow, owned by the destination's vport. -/
def ownedFlow (v : Nat) (r : Bytes) : Bytes := overwrite r 52 (leBytes 2 v)

/-- Do the VF's permissions allow a flow: it is not one of the VF's making, or it lies within the VF's rights (R187, R289)? -/
def flowAllowed (s : State) (f : Fn) (v : Nat) (r : Bytes) : Bool :=
  !flowFlag r 4 || (wbit (vfPerm s f) 4 && flowRights s f (ownedFlow v r))

/-- A KEYREFS record's slot is no DEVICE slot and holds no key of another owner (R341). -/
def keyrefOk (s : State) (v : Nat) (r : Bytes) : Bool :=
  let k := slot_ s (leAt r 0 4 % 1048576)
  !bitOf k.owner 15 && (k.key.isNone || k.owner == v)

/-- An EVENTS record of QM names a queue of the VF (R182, R195). -/
def eventRecordOk (s : State) (f : Fn) (r : Bytes) : Bool :=
  byteAt r 0 % 16 != 3 || ownsQueue s f (leAt r 6 2 + at_ 16 (bits (byteAt r 0) 6 4))

/-- The queue pairs of a CONTROLLER record from the second on name granted vectors and queues of the controller (R195, R367). -/
def pairsOk (s : State) (f : Fn) (r : Bytes) : Bool :=
  (List.range 64).all (fun k =>
    let q := leAt r (64 * k) 2
    q == 0 || (decide (q ≤ ioqPairs s f) && (leAt r (64 * k + 20) 2 == 0 || decide (leAt r (64 * k + 22) 2 < vectorsOf s f))))

/-- Is every namespace of an NVME image attached to the destination controller (R195)? -/
def namespacesOk (s : State) (f : Fn) (rs : List Bytes) : Bool :=
  match rs with
  | [] => true
  | r :: _ => (List.range 256).all (fun i => let n := leAt r (128 + 4 * i) 4; n == 0 || (nsFind s f n).isSome)

/-- The checks of R195 on the records. -/
def recordsOk (s : State) (f : Fn) (secs : List (Nat × List Bytes)) : Bool :=
  let on (t : Nat) (p : Bytes → Bool) : Bool := (recordsOf secs t).all p
  on 1 (queueRecordOk s f) && on 2 (fun r => ownsQueue s f (leAt r 4 2)) && msixOk s f (recordsOf secs 4)
    && on 3 (eventRecordOk s f) && ((recordsOf secs 0xA).drop 1).all (pairsOk s f)
    && on 5 (fun r => bitOf (byteAt r 68) 0 || (ownsQueue s f (leAt r 64 2) && qKind f (leAt r 64 2) == some .sq))
    && namespacesOk s f (recordsOf secs 0xA)
    && (match (fnSt s f).vport with
      | some v => on 8 (flowAllowed s f v) && on 9 (keyrefOk s v)
      | none => [6, 7, 8, 9].all (fun t => (recordsOf secs t).isEmpty))

/-- STATE of a QUEUES record. -/
def qStateOf (n : Nat) : QState :=
  match n with
  | 1 => .active | 2 => .blocked | 3 => .quiesced | 4 => .error
  | _ => .disabled

/-- A queue takes a recorded state and counters. -/
def restoreQueue (f : Fn) (r : Bytes) (s : State) : State :=
  let q := leAt r 0 2
  let h := fnCode f
  let p : BitVec 16 := BitVec.ofNat 16 (leAt r 24 2)
  let c : BitVec 16 := BitVec.ofNat 16 (leAt r 26 2)
  let u : Queue := { st := qStateOf (byteAt r 3), p := p, c := c, counter := if qKind f q = some .sq then p else c, armed := bitOf (byteAt r 28) 0,
                     base := leAt r 8 8, cfg := w32 (leAt r 4 4), pasid := w32 (leAt r 20 4), unsignalled := leAt r 30 2, oldest := s.elapsed }
  let s1 := setReg .QM_CQ_MODERATION q h (w32 (leAt r 16 4)) (setReg .QM_Q_CFG q h u.cfg (setReg .QM_Q_PASID q h u.pasid s))
  let s2 := modQueue f q (fun _ => u) (setPair64 .QM_Q_BASE_LO .QM_Q_BASE_HI q h u.base s1)
  if qKind f q = some .eq ∧ created u then newDefaultEq f q s2 else s2

/-- An OVERFLOW record waits for its CQ (R171). -/
def restoreCqe (f : Fn) (r : Bytes) (s : State) : State :=
  let e : Cqe := { status := byteAt r 0, batch := bitOf (byteAt r 1) 1, tag := leAt r 2 2, sq := leAt r 4 2, covered := leAt r 6 2,
                   ts := leAt r 8 8, bound := leAt r 16 2, extra := leAt r 19 13 }
  postCqe f (qTarget (queue s f e.sq)) e s

/-- An EVENTS record is a pending source again (R174): an event of a CQ goes to the EQ of the CQ, the rest to the default EQ. -/
def restoreEvent (f : Fn) (r : Bytes) (s : State) : State :=
  let b := byteAt r 0
  let d := leAt r 6 2 + at_ 16 (bits b 6 4)
  let dq := (fnSt s f).defaultEqs.head?
  let own := b % 16 == 3 && qKind f d == some .cq
  let e : EvSrc := { block := b % 16, code := byteAt r 1, detail := d, fn := f, eq := if own then some (qTarget (queue s f d)) else dq,
                     count := leAt r 2 2, ts := leAt r 8 8, bound := leAt r 4 2 }
  modQm (fun m => { m with events := m.events ++ [e] }) s

/-- MSIX records: the table, and the PBA bits of the last record. -/
def restoreMsix (f : Fn) (rs : List Bytes) (s : State) : State :=
  let n := rs.length - 1
  let bitsOf := leNat (rs.getLast?.getD [])
  let tab := (List.range n).foldl (fun m v => mset (2 ^ 96) m v (leNat (rs.getD v []))) (fnSt s f).msix
  if rs.isEmpty then s
  else modFn f (fun r => { r with msix := tab, pba := (List.range 128).filter (fun v => bitsOf.testBit v) }) s

/-- An INFLIGHT record is parked again: an SQ entry with the status that its checks give, or an NVMe command. -/
def restoreWork (f : Fn) (r : Bytes) (s : State) : State :=
  let q := leAt r 64 2
  let e : BitVec 512 := BitVec.ofNat 512 (leNat (slice r 0 64))
  let no := s.sto.arrivals
  let s1 := modSto (fun t => { t with arrivals := t.arrivals + 1 }) s
  if bitOf (byteAt r 68) 0 then modNvme f (fun x => { x with cmds := x.cmds ++ [{ sq := q, entry := e, no := no }] }) s1
  else
    let ctr : BitVec 16 := BitVec.ofNat 16 (leAt r 66 2)
    let cls := qClass (queue s f q)
    let st := entryStatus s f q cls e
    let w : Work := { ctr := ctr, entry := e, cls := cls, parked := true, arrived := no, reads := if st = 0 then entryReads cls e else [] }
    let s2 := modQueue f q (fun u => { u with work := u.work ++ [w] }) s1
    if st = 0 then s2 else finishWork f q ctr st 0 s2

/-- A FILTERS record is added with the destination's vport (R210). -/
def restoreFilter (v : Nat) (r : Bytes) (s : State) : State :=
  (fltPlace (overwrite r 8 (leBytes 2 (v + at_ 12 (fltLport r)))) s).2.2

/-- A METERS record is written with the destination's vport, at a meter that no VALID record uses (R319). -/
def restoreMeter (v : Nat) (r : Bytes) (s : State) : State :=
  let p := pickFree ((s.tm.meters.filter (fun e => mtValid e.2)).map Prod.fst) 262144 s
  match p.1 with
  | some i => modTm (fun t => { t with meters := mset {} t.meters i (meterFrom s.elapsed (leNat (overwrite r 2 (leBytes 2 v)))) }) p.2
  | none => p.2

/-- A FLOWS record is installed, owned by the destination's vport (R289). -/
def restoreFlow (v : Nat) (r : Bytes) (s : State) : State :=
  match addFlow (flowRecord (flowFlag r 4) (ownedFlow v r)) none s with
  | some t => t.2
  | none => s

/-- A KEYREFS record (R341). -/
def restoreKeyref (v : Nat) (r : Bytes) (s : State) : State :=
  modKeySlot (leAt r 0 4 % 1048576) (fun k =>
    let next := max k.next (leAt r 8 8)
    { k with owner := v, next := next, tcpNext := max k.tcpNext (leAt r 16 4), seenBelow := next, seen := [] }) s

/-- A queue pair of a CONTROLLER record. -/
def restorePair (f : Fn) (r : Bytes) (s : State) : State :=
  let q := leAt r 0 2
  let sq : NSq := { base := leAt r 2 8, size := leAt r 10 2, cq := leAt r 34 2, head := leAt r 25 2, tail := leAt r 27 2 }
  let cq : NCq := { base := leAt r 12 8, size := leAt r 20 2, vector := leAt r 22 2, ien := bitOf (byteAt r 24) 0, head := leAt r 29 2,
                    tail := leAt r 31 2, phase := bitOf (byteAt r 33) 0 }
  if q = 0 then s
  else modNvme f (fun x => { x with
    sqs := if sq.size = 0 then x.sqs else mput x.sqs q sq, cqs := if cq.size = 0 then x.cqs else mput x.cqs q cq }) s

/-- An outstanding Asynchronous Event Request of a CONTROLLER record. -/
def restoreAer (f : Fn) (cid : Nat) (s : State) : State :=
  let no := s.sto.arrivals
  let e : BitVec 512 := BitVec.ofNat 512 (0xC + at_ 16 cid)
  modNvme f (fun x => { x with aers := x.aers ++ [no], cmds := x.cmds ++ [{ sq := 0, entry := e, no := no, st := .ready, ctx := 0x10000 }] })
    (modSto (fun t => { t with arrivals := t.arrivals + 1 }) s)

/-- The admin pair of a restored controller. The image does not carry its heads, tails and phase: they are free values. -/
def adminPair (aqa asq acq : Nat) (s : State) : NSq × NCq × State :=
  let a := takeFree s
  let b := takeFree a.2
  let c := takeFree b.2
  let d := takeFree c.2
  let e := takeFree d.2
  let n := bits aqa 11 0 + 1
  let m := bits aqa 27 16 + 1
  ({ base := asq, size := n, cq := 0, head := a.1 % n, tail := b.1 % n },
   { base := acq, size := m, head := c.1 % m, tail := d.1 % m, phase := bitOf e.1 0 }, e.2)

/-- CONTROLLER records (R367). -/
def restoreController (f : Fn) (rs : List Bytes) (s : State) : State :=
  match rs with
  | [] => s
  | r :: t =>
    let aqa := leAt r 4 4
    let rdy := bitOf (byteAt r 24) 0
    let ap := adminPair aqa (leAt r 8 8) (leAt r 16 8) s
    let feats := featIds.zipIdx.foldl (fun m e => mset 0 m (featKey e.1 0) (leAt r (28 + 4 * e.2) 4)) []
    let x : Nvme := { cc := leAt r 0 4, aqa := aqa, asq := leAt r 8 8, acq := leAt r 16 8, rdy := rdy, shst := bits (byteAt r 24) 3 2,
                      sqs := if rdy then [(0, ap.1)] else [], cqs := if rdy then [(0, ap.2.1)] else [], features := feats,
                      events := (List.range (byteAt r 65)).map (fun i => leAt r (76 + 4 * i) 4) }
    let s1 := modNvme f (fun _ => x) (if rdy then ap.2.2 else s)
    let pairs := (t.map (cutRecords 64 64)).flatten
    let s2 := foldS (restorePair f) pairs s1
    foldS (fun i s => restoreAer f (leAt r (66 + 2 * i) 2) s) (List.range (byteAt r 64)) s2

/-- A TIMEPAGE record: the page's address and ENABLE. -/
def restorePage (f : Fn) (r : Bytes) (s : State) : State :=
  let a := leAt r 0 8
  let lo := w32 (a % 2 ^ 32 / 64 * 64 + byteAt r 8 % 2)
  let hi := w32 (a / 2 ^ 32)
  let s1 := if isVf f then setReg .TIM_VF_PAGE_LO 0 (fnCode f) lo (setReg .TIM_VF_PAGE_HI 0 (fnCode f) hi s)
    else setReg .TIM_PF_PAGE_LO 0 (fnCode f) lo (setReg .TIM_PF_PAGE_HI 0 (fnCode f) hi s)
  modTim (fun t => { t with pages := mmod {} t.pages (fnCode f) (fun p => { p with forced := true }) }) s1

/-- A checked image is applied: queues first, then the sections that name them. -/
def applyImage (f : Fn) (secs : List (Nat × List Bytes)) (serial : Nat) (s : State) : State :=
  let each (t : Nat) (g : Bytes → State → State) (s : State) : State := foldS g (recordsOf secs t) s
  let own (t : Nat) (g : Nat → Bytes → State → State) (s : State) : State := match (fnSt s f).vport with
    | some v => each t (g v) s
    | none => s
  let s1 := each 2 (restoreCqe f) (each 1 (restoreQueue f) s)
  let s2 := restoreMsix f (recordsOf secs 4) (each 3 (restoreEvent f) s1)
  let s3 := each 5 (restoreWork f) (restoreController f (recordsOf secs 0xA) s2)
  let s4 := own 9 restoreKeyref (own 8 restoreFlow (own 7 restoreMeter (own 6 restoreFilter s3)))
  modMig f (fun m => { m with foreign := serial != Config.serial % 2 ^ 64 }) (each 0xB (restorePage f) s4)

/-- RESTORE (R195): on a FROZEN VF whose queues are all DISABLED; STATE shows RESTORING until VF_MIG_DONE, and the image is read. -/
def restoreStart (pf : Nat) (s : State) : State :=
  migAction pf (fun f s =>
    if (fnSt s f).mig.st ≠ .frozen ∨ !(createdQueues s f).isEmpty then migResult f 3 s
    else modMig f (fun m => { m with st := .restoring, imageDue := true }) (migPend f 7 s)) s

/-- The image of a RESTORE has been read, or the read has failed: what the image checks and applies, and the RESULT that VF_MIG_DONE shows. -/
def restoreImage (f : Fn) (image : HostRead) (s : State) : State :=
  let fin (r : Nat) (s : State) : State := modMig f (fun m => { m with imageDue := false, ending := r }) s
  match image with
  | .data bs =>
    let data := bs.take (vfReg s f .HIF_VF_IMG_LEN).toNat
    match readImage s f data with
    | none => fin 4 s
    | some secs => if grantFits s f data && recordsOk s f secs then fin 0 (applyImage f secs (leAt data 16 8) s) else fin 4 s
  | _ => fin 6 s

/-- The VF of a PF whose RESTORE waits for its image. -/
def restoring (s : State) (pf : Nat) : Option Fn :=
  firstSome (fun (e : Nat × FnSt) => if isVf (fnOfCode e.1) && fnPf (fnOfCode e.1) == pf && e.2.mig.imageDue then some (fnOfCode e.1) else none) s.hif.fns

/-- The image's read, from the PF's addresses (R131 to R135, R195). -/
def vfRestore (pf : Nat) (image : HostRead) (s : State) : State :=
  match restoring s pf with
  | none => s
  | some f => ((operandRead (.pf pf) (imageBuf s f) image s).map (restoreImage f image)).getD s

/-! ### The end of an action, and UNFREEZE (R189, R196) -/

/-- VF_MIG_DONE (R189): a pending SAVE or RESTORE ends with its RESULT, and the VF is FROZEN; a FREEZE ends as FREEZE_DONE gives. -/
def vfMigDone (f : Fn) (s : State) : State :=
  let m := (fnSt s f).mig
  match m.action with
  | none => s
  | some 5 => freezeDone f s
  | some _ => if m.imageDue then s else migDone f m.ending (modMig f (fun m => { m with st := .frozen }) s)

def execVfMigDone (f : Fn) (s : State) : Outcome := .next (vfMigDone f s)

/-- Reads of a parked entry that nothing serves are asked for again. -/
def askReads (f : Fn) (q : Nat) (w : Work) (s : State) : State :=
  let mine (r : Req) : Bool := r.fn == f && (match r.use with
    | .work p c _ => p == q && c == w.ctr.toNat
    | .translate p c _ => p == q && c == w.ctr.toNat
    | .other => false)
  if w.parked && w.done.isNone && w.reads.any (fun r => r.got.isNone) && !s.hif.waiting.any mine && !s.hif.slots.any (fun e => mine e.2.req) then
    requestReads f q w.ctr w.reads (entryWrites w.cls w.entry) s else s

/-- Parked work runs again (R196). -/
def unpark (f : Fn) (s : State) : State :=
  let s1 := foldS (fun (e : Nat × Queue) s => foldS (fun w s => askReads f e.1 w s) e.2.work s) (workingSqs s f) s
  modQm (fun m => { m with queues := m.queues.map (fun e =>
    if e.1 / 2 ^ 20 = fnCode f then (e.1, { e.2 with work := e.2.work.map (fun w => { w with parked := false }) }) else e) }) s1

/-- Completions and events that a frozen VF held go out: CQs with an overflow, NVMe completion queues, pending vectors, and commands that wait
for a connection. -/
def wakeVf (f : Fn) (s : State) : State :=
  let cqs := (workingSqs s f).filter (fun e => !(e.2.overflow ++ e.2.waiting).isEmpty)
  let s1 := foldS (fun (e : Nat × Queue) s => settle f e.1 (e.2.overflow ++ e.2.waiting) s) cqs s
  let x := nvme s1 f
  let s2 := foldS (fun (e : Nat × NCq) s => nvDrain f e.1 e.2.waiting s) x.cqs s1
  let s3 := foldS (nvAen f) x.events (modNvme f (fun x => { x with events := [] }) s2)
  let s4 := foldS cxSendAll ((x.cmds.map NCmd.ctx).eraseDups) (if x = {} then s2 else s3)
  flushPba f s4

/-- UNFREEZE (R196): a FREEZING or FROZEN VF runs again; a FREEZE under way ends with it. -/
def vfUnfreeze (pf : Nat) (s : State) : State :=
  match selectedVf s pf with
  | none => s
  | some f =>
    let st := (fnSt s f).mig.st
    let go (s : State) : State := migResult f 0 (wakeVf f (unpark f (modMig f (fun m => { m with st := .running }) s)))
    if st = .freezing then go (migDone f 7 s)
    else if (fnSt s f).mig.action.isSome then migResult f 2 s
    else if st = .frozen then go s
    else migResult f 3 s

end Sys2Proof.Machine
end

