-- ==== Sys2Proof/Machine/Modes.lean ====
section
/-!
DEFINITION. The commands of startup_and_modes: boot, readiness, requests, drain, PERSTn_N and the links of the halves.
-/
namespace Sys2Proof.Machine

/-! ### Boot (R98) -/

/-- BRINGUP_START (R86, R95, R98, R107, R108): from STANDBY with a wake pending and every main rail good, or in the BRINGUP that a RESTART has
entered. -/
def execBringupStart (boot : BootInput) (s : State) : Outcome :=
  match s.cai.mode, s.cai.bringup with
  | .standby, _ =>
    if !s.cai.wakePending ∨ !railsGood s ∨ s.cai.orderFault ∨ s.cai.tripped ∨ s.cai.fatalRestartAt.isSome then .next s
    else
      let low := s.cai.railFault || s.cai.fatal
      let s1 := modCai (fun c => { c with
        wakePending := false, wakeSource := false, wakeCause := 0, resetCause := c.wakeCause, railFault := false, fatal := false,
        bringup := some { started := s.elapsed, warm := !s.dev.isEmpty } }) (restartReset s)
      let s2 := setMode .bringup s1
      .next (bootSteps boot (if low then emit (.pin .faultN .high) s2 else s2))
  | .bringup, some b =>
    if b.booted then .next s
    else .next (bootSteps boot (modCai (fun c => { c with bringup := some { b with booted := true } }) s))
  | _, _ => .next s

/-- BOOT_WAIT_EXPIRY (R98 step 6): no image has begun to arrive. -/
def execBootWaitExpiry (s : State) : Outcome :=
  match s.cai.bringup with
  | some b => match b.waitUntil with
    | some t => .next (bootBanks (bootFallback 2 (modCai (fun c => { c with bringup := some { b with waitUntil := none } }) (advanceTo t s))))
    | none => .next s
  | none => .next s

/-- UNIT_READY (R95, R102): units are numbered as in `Cai.ready`. -/
def execUnitReady (unit : Nat) (s : State) : Outcome :=
  if !firmwareUp s ∨ s.cai.ready.contains unit then .next s
  else .next (tryFinish (modCai (fun c => { c with ready := c.ready ++ [unit] }) s))

/-- FUNCTION_READY (R95, R100, R101, R109, R111): after a conventional reset PF0 of a half sends a DRS Message, and a return from D3hot an FRS
Message; FLR and VF Enable report through FLR_DONE and VF_ENABLE. -/
def execFunctionReady (f : Fn) (s : State) : Outcome :=
  match (fnSt s f).readyWhy with
  | none => .next s
  | some why =>
    if !fnExists s f ∨ !linkUp s f ∨ !firmwareUp s ∨ ((s.cai.mode = .recovery ∨ s.cai.mode = .returned) ∧ f ≠ .pf 0) then .next s
    else
      let s1 := modFn f (fun r => { r with ready := true, readyWhy := none }) s
      let s2 :=
        if why = 3 then emit (.frs f frsD3) s1
        else match f with
          | .pf i => if isPf0 s i then emit (.drs f) s1 else s1
          | _ => s1
      .next (tryFinish (if s.cai.mode = .isolated ∧ !isVf f then setMode (serviceMode s2) s2 else s2))

/-! ### Requests and drain (R95, R105, R112) -/

/-- DRAIN_LIMIT_EXPIRY (R105). -/
def execDrainLimitExpiry (s : State) : Outcome :=
  match s.cai.drain with
  | some d =>
    if s.cai.mode ≠ .drain then .next s
    else .next (drainFlush (advanceTo (d.entered + max 1 (dfld s .CAI_MODE_CFG 31 16) * 1000000) s))
  | none => .next s

/-- DRAIN_FINISHED (R95, R105, R441): after DRAIN_STANDBY the units stop in order. -/
def execDrainFinished (s : State) : Outcome :=
  match s.cai.drain with
  | some d =>
    if s.cai.mode ≠ .drain ∨ fetchedWork s ∨ !d.standby then .next s
    else .next (modRel (fun r => { r with stoppedInOrder := true }) (setMode .standby (stopFast s)))
  | none => .next s

/-! ### Reset pins and links of the halves (R83, R84, R94, R95, R106, R119) -/

/-- A half's link goes down, its functions are reset, and the mode follows (R83, R95, R119). -/
def linkLost (h : Nat) (s : State) : State := tryFinish (modeAfterLinks (startTraining h (halfDown h s)))

/-- PERST_ASSERT (R83, R94, R95): PERST1_N is ignored in x16 mode. -/
def execPerstAssert (half : Nat) (s : State) : Outcome :=
  let s1 := modCai (fun c => { c with perstHigh := c.perstHigh.set half false }) s
  if !halfInUse s half ∨ 2 ≤ half ∨ s.cai.mode = .off ∨ s.cai.porstLow then .next s1 else .next (linkLost half s1)

/-- PERST_DEASSERT (R84, R94, R95, R107). -/
def execPerstDeassert (half : Nat) (s : State) : Outcome :=
  let s1 := modCai (fun c => { c with perstHigh := c.perstHigh.set half true }) s
  if !halfInUse s half ∨ 2 ≤ half ∨ s.cai.mode = .off ∨ s.cai.porstLow then .next s1
  else
    let s2 := if railsGood s ∧ !s.cai.perstHigh.getD half false then setWake 6 s1 else s1
    .next (leaveHold (startTraining half s2))

/-- The widest link of a half, in lanes (R116). -/
def fullWidth (s : State) : Nat := if bifurcated s then 8 else 16

/-- Does the device support a link of this rate, width and encoding (R116)? Non-Flit mode ends at 32 GT/s, code 5. -/
def linkSupported (s : State) (rate width : Nat) (flit : Bool) : Bool :=
  decide (1 ≤ rate ∧ rate ≤ 7) && [1, 2, 4, 8, 16].contains width && decide (width ≤ fullWidth s) && (flit || decide (rate ≤ 5))

/-- A link below its rate or width raises LINK_DEGRADED (R155). -/
def noteDegraded (half rate width : Nat) (s : State) : State :=
  if rate < 7 ∨ width < fullWidth s then raise 0x2 0x03 half (.half half) s else s

/-- PCIE_LINK_UP (R84, R116, R155): rate code, width in lanes and FLIT mode as negotiated. A link that is up takes a new rate or width, which it
has when lanes fail. -/
def execPcieLinkUp (half rate width : Nat) (flit : Bool) (s : State) : Outcome :=
  if !linkSupported s rate width flit then .next s
  else if (halfSt s half).up then
    if halfInUse s half ∧ flit = (halfSt s half).flit ∧ (rate ≠ (halfSt s half).rate ∨ width ≠ (halfSt s half).width) then
      .next (noteDegraded half rate width (modHalf half (fun h => { h with rate := rate, width := width }) s))
    else .next s
  else if !mayTrain s half then .next s
  else
    let s1 := modHalf half (fun _ => { up := true, rate := rate, width := width, flit := flit, training := false }) s
    .next (noteDegraded half rate width (raise 0x2 0x01 half (.half half) s1))

/-- HOT_RESET, LINK_DISABLE and PCIE_LINK_FAILURE (R119); a disabled link trains again when the host lets it. -/
def execHotReset (half : Nat) (s : State) : Outcome := if (halfSt s half).up then .next (linkLost half s) else .next s
def execLinkDisable (half : Nat) (s : State) : Outcome := if (halfSt s half).up then .next (linkLost half s) else .next s
def execPcieLinkFailure (half : Nat) (s : State) : Outcome := if (halfSt s half).up then .next (linkLost half s) else .next s

end Sys2Proof.Machine
end

