-- ==== Sys2Proof/Machine/Actions.lean ====
section
/-!
DEFINITION. The action stage: action lists and their entries (R18 to R20, R207, R264 to R268, R280, R281, R306, R307, R334, R335).
-/
namespace Sys2Proof.Machine

/-! ### Running a list (R264) -/

/-- Fields of an action entry (R265). -/
def acOp (w : Nat) : Nat := w % 256

/-- The position that a mark of a frame names, where it is valid (R266). -/
def markAt (f : Frame) (m : Nat) : Option Nat := (f.marks[m]?).getD none

/-- ACTION_SKIPPED (R266). -/
def skipped (s : State) : State := tblStat 3 s

/-- The contributions still to run; one whose entries have run out has ended (R264). -/
def openLists (f : Frame) : List (List Nat) := f.lists.dropWhile List.isEmpty

/-- Is a mirror list of a frame still running? -/
def mirrorRuns (s : State) (id : Nat) : Bool := s.tm.frames.any (fun e => e.2.parent == some id && e.2.stage != .finished)

/-- May a frame's list go on: it is in the action stage, its cipher has ended, and so has its mirror's list; frames of one source run their
lists in order (R19, R20, R266), and no Col pause holds it (R103)? -/
def mayAct (s : State) (id : Nat) (f : Frame) : Bool :=
  f.stage == .actions && forwards s && !f.inCry && !mirrorRuns s id && oldestOfSource s id

/-- The deliveries that a frame has kept back go on (R23). -/
def flush (id : Nat) (s : State) : State :=
  match frameOf s id with
  | none => s
  | some f => foldS deliverCopy f.deferred (modFrame id (fun f => { f with deferred := [] }) s)

/-- A list has ended (R264); a frame whose cells read as poison is dropped (R23). What a host-transmitted or injected frame and its mirrors have kept back goes on with the frame's own end. -/
def endList (id : Nat) (s : State) : State :=
  match frameOf s id with
  | none => s
  | some f =>
    let s1 := modFrame id (fun f => { f with stage := .finished, lists := [] }) s
    if f.parent.isNone ∧ cellsPoisoned s id then dropFrame id 0x0A s
    else if heldByParent s f then settleFrame id s1
    else
      let ms := mirrorsOf s1 id
      settleFrame id (foldS (fun m s => settleFrame m (flush m s)) ms (flush id s1))

/-- A list ends where its entries have run out: a frame that made no copy is counted in NO_DELIVER (R264). -/
def endOfEntries (id : Nat) (s : State) : State :=
  match frameOf s id with
  | none => s
  | some f => endList id (if f.copies = 0 then tblStat 1 s else s)

/-- Copies that a frame has kept back leave where its list has been ended from outside and they stand (R19, R264, R337). -/
def letStand (id : Nat) (s : State) : State :=
  match frameOf s id with
  | some f => if f.stage == .finished && !f.deferred.isEmpty && !heldByParent s f then settleFrame id (flush id s) else s
  | none => s

/-- After an entry: the list ends where nothing of it is left and no cipher or mirror runs. -/
def afterEntry (id : Nat) (s : State) : State :=
  match frameOf s id with
  | none => s
  | some f => if f.stage == .finished then letStand id s else if f.stage == .actions && !f.inCry && !mirrorRuns s id && (openLists f).isEmpty then endOfEntries id s else s

/-- The next entry of a frame's list is taken, where p holds of its OP: the 33rd ends the list (R264), any other acts as g gives. -/
def runEntry (id : Nat) (p : Nat → Bool) (g : Nat → Frame → State → State) (s : State) : State :=
  match frameOf s id with
  | none => s
  | some f =>
    if !mayAct s id f then s
    else match openLists f with
    | [] => s
    | [] :: _ => s
    | (w :: rest) :: more =>
      if !p (acOp w) then s
      else if 32 ≤ f.executed then endList id (tblStat 2 s)
      else
        let s1 := modFrame id (fun f => { f with executed := f.executed + 1, lists := rest :: more }) s
        afterEntry id (g w f s1)

/-- DELIVER entries: one copy of the frame as it stands (R264). -/
def actDeliver (id w : Nat) (f : Frame) (s : State) : State := makeCopy id w f.bytes s

/-- END: the contribution, with the lists that it has chained into, has ended. -/
def actEnd (id : Nat) (s : State) : State := modFrame id (fun f => { f with lists := f.lists.drop 1 }) s

/-- CHAIN: entry 0 of an action-store list comes next; a list beyond the store is passed over (R264). -/
def actChain (id w : Nat) (s : State) : State :=
  match actionList s (bits w 31 8) with
  | some l => modFrame id (fun f => { f with lists := l :: f.lists.drop 1 }) s
  | none => skipped s

/-! ### Changes to the frame (R265, R266, R268) -/

/-- DECAP: every byte before the mark goes. -/
def actDecap (id w : Nat) (f : Frame) (s : State) : State :=
  match markAt f (bits w 10 8) with
  | some m => modFrame id (removeAt 0 m) s
  | none => skipped s

/-- The fields that an ENCAP fills in, from the new frame's own lengths (R268). -/
def encapFields (flags ip hash : Nat) (bs : Bytes) : Bytes :=
  let n := bs.length
  let a := if bitOf flags 4 then overwrite bs (ip + 4) (beBytes 2 (n - ip - 40)) else fixIp4Sum (overwrite bs (ip + 2) (beBytes 2 (n - ip))) ip
  let udp := if bitOf flags 4 then ip + 40 else ip + ihl bs ip
  if bits flags 3 2 = 1 then overwrite (overwrite a udp (beBytes 2 (0xC000 ||| hash % 2 ^ 14))) (udp + 4) (beBytes 2 (n - udp) ++ [0, 0]) else a

/-- ENCAP: the template of a tunnel endpoint goes before the frame; an entry that is not VALID drops it (R268). -/
def actEncap (id w : Nat) (f : Frame) (s : State) : State :=
  let e := stored s 4 (bits w 23 8)
  if !bitOf (byteAt e 0) 0 then endList id (tblStat 5 s)
  else
    let s1 := insertBytes id 0 (slice e 32 (min 96 (byteAt e 1))) s
    modFrame id (fun g => { g with bytes := encapFields (byteAt e 0) (byteAt e 2) (leAt f.hv 32 8) g.bytes }) s1

/-- REWRITE: LEN bytes at mark + offset, within the frame and its first 512 bytes (R266). -/
def actRewrite (id w : Nat) (f : Frame) (s : State) : State :=
  let n := bits w 21 20 + 1
  match markAt f (bits w 10 8) with
  | some m =>
    let at_ := m + bits w 19 11
    if min 512 f.bytes.length < at_ + n then skipped s
    else modFrame id (fun f => { f with bytes := overwrite f.bytes at_ (beBytes n (bits w 63 32)) }) s
  | none => skipped s

/-- An IPv4 header checksum corrected for a changed 16-bit word: the one's complement sum of the old sum, less the old word, plus the new
one. -/
def adjustSum (sum old new : Nat) : Nat := 65535 - fold16 ((65535 - sum) + (65535 - old) + new)

/-- The IPv4 header at p with its TTL one lower and its checksum corrected, or the IPv6 header with its hop limit one lower. -/
def lowerTtl (bs : Bytes) (p : Nat) : Bytes :=
  if ipVersion bs p = 6 then overwrite bs (p + 7) [BitVec.ofNat 8 (byteAt bs (p + 7) - 1)]
  else
    let a := overwrite bs (p + 8) [BitVec.ofNat 8 (byteAt bs (p + 8) - 1)]
    overwrite a (p + 10) (beBytes 2 (adjustSum (beAt bs (p + 10) 2) (beAt bs (p + 8) 2) (beAt a (p + 8) 2)))

/-- The TTL or hop limit would reach 0 (R266): the unmodified frame goes to the miss channel, or the frame is dropped and counted. -/
def ttlExpired (id : Nat) (exc : Bool) (f : Frame) (s : State) : State :=
  if exc then endList id (makeCopy id (0x99 + at_ 8 (missChannel s f)) f.asEntered s) else endList id (tblStat 4 s)

/-- DEC_TTL; a mark at which no IP header stands is passed over. -/
def actDecTtl (id w : Nat) (f : Frame) (s : State) : State :=
  match markAt f (bits w 10 8) with
  | none => skipped s
  | some p =>
    let v := ipVersion f.bytes p
    let ttl := byteAt f.bytes (if v = 6 then p + 7 else p + 8)
    if (v ≠ 4 ∧ v ≠ 6) ∨ f.bytes.length < p + 12 then skipped s
    else if ttl ≤ 1 then ttlExpired id (bitOf w 11) f s
    else modFrame id (fun f => { f with bytes := lowerTtl f.bytes p }) s

/-- VLAN_PUSH: a tag after the source address. -/
def actVlanPush (id w : Nat) (s : State) : State := insertBytes id 12 (tagBytes (bitOf w 24) (bits w 23 8)) s

/-- VLAN_POP: the first tag goes; an untagged frame stays as it is. -/
def actVlanPop (id : Nat) (f : Frame) (s : State) : State :=
  if (tagTci f.bytes).isSome then modFrame id (removeAt 12 16) s else s

/-! ### Meters, counters and classes (R265, R280, R306, R307) -/

/-- METER: the frame takes its new colour, or is dropped by it (R307). -/
def actMeter (id w : Nat) (f : Frame) (s : State) : State :=
  let i := bits w 31 8
  let m := meterOf s i
  if 262144 ≤ i ∨ !mtValid m then skipped s
  else
    let r := meterFrame s.elapsed f.bytes.length f.colour m
    let s1 := modFrame id (fun f => { f with colour := r.1 }) (modTm (fun t => { t with meters := mset {} t.meters i r.2 }) s)
    if (r.1 = 2 ∧ bitOf w 32) ∨ (r.1 = 1 ∧ bitOf w 33) then endList id s1 else s1

/-- COUNT: one frame and its length without FCS. -/
def actCount (w : Nat) (f : Frame) (s : State) : State := countAt (bits w 29 8) f.bytes.length s

/-- SET_CLASS. -/
def actSetClass (id w : Nat) (s : State) : State := modFrame id (fun f => { f with cls := some (bits w 10 8) }) s

/-! ### Ciphers, mirrors, learning and time stamps (R207, R266, R281, R334, R335) -/

/-- The marks that an ENCRYPT or DECRYPT entry uses; none where one of them is invalid (R266, R333). -/
def cipherMarks (s : State) (w : Nat) (f : Frame) : Option CryMarks :=
  let proto := bits w 37 35
  let use (needed : Bool) (m : Nat) : Option Nat := if needed then markAt f m else some 0
  let ip := proto == 3 || (proto == 1 && bitOf (slot_ s (bits w 27 8)).param 1)
  match use (proto == 1 || proto == 3) (bits w 34 32), use ip (bits w 40 38), use (proto == 3) (bits w 43 41) with
  | some a, some b, some c => some { mark := a, ip := b, l4 := c }
  | _, _, _ => none

/-- ENCRYPT, or DECRYPT. -/
def actCipher (encrypt : Bool) (id w : Nat) (f : Frame) (s : State) : State :=
  match cipherMarks s w f with
  | none => skipped s
  | some m => if encrypt then encryptFrame id (bits w 27 8) (bits w 37 35) m s else decryptFrame id (bits w 27 8) (bits w 37 35) m s

/-- The next entry of a frame's list runs, where p holds of its OP and it is ENCRYPT or DECRYPT, once its slot is in the cache (R327). -/
def awaitSlot (id : Nat) (p : Nat → Bool) (run : State → State) (s : State) : State :=
  match frameOf s id with
  | none => s
  | some f =>
    match openLists f with
    | (w :: _) :: _ =>
      if mayAct s id f && p (acOp w) && (acOp w == 0x18 || acOp w == 0x19) && decide (f.executed < 32) && (cipherMarks s w f).isSome then
        let c := useCache (bits w 27 8) s
        if c.1 then run c.2 else c.2
      else run s
    | _ => run s

/-- MIRROR: a copy, cut to the truncation, that runs the named list by itself; within a mirror list, NOP (R266). -/
def actMirror (id w : Nat) (f : Frame) (s : State) : State :=
  if f.mirror then s
  else match actionList s (bits w 31 8) with
  | none => skipped s
  | some l =>
    let t := bits w 39 32
    let bs := if t = 0 then f.bytes else f.bytes.take (64 * t)
    let g : Frame := { f with
      bytes := bs, marks := if t = 0 then f.marks else f.marks.map (cutMark bs.length), lists := [l], executed := 0, mirror := true, parent := some id, origin := none, injected := none, deferred := [],
      holds := encrypts s 33 l,
      copies := 0, live := 0, best := .dropped, lastTs := 0, lastBound := 0, status := 0, back := none,
      ochre := 0, umber := 0, sienna := 0 }
    let r := newFrame g (modFrame id (fun f => { f with copies := f.copies + 1, live := f.live + 1 }) s)
    (takeCells true r.1 bs.length r.2).getD r.2

/-- LEARN queues a request with the addresses that the header vector holds; an offset beyond it is passed over. -/
def actLearn (w : Nat) (f : Frame) (s : State) : State :=
  let m := bits w 17 8
  let v := bits w 27 18
  if 512 < m + 6 ∨ (v ≠ 0x3FF ∧ 512 < v + 2) then skipped s
  else queueLearn { vsi := f.ctx.vsi, vport := f.ctx.srcVport % 4096, mac := beAt f.hv m 6, vid := if v = 0x3FF then 0 else beAt f.hv v 2 % 4096,
                    ts := toNs f.ts } s

/-- TS_INSERT asks for one-step insertion: OFFSET, KIND and CKSUM (R207). -/
def actTsInsert (id w : Nat) (s : State) : State :=
  modFrame id (fun f => { f with tsInsert := some (bits w 15 8, bits w 16 16, bits w 18 17) }) s

/-! ### The rows -/

/-- What an entry does, by its OP; an OP that R265 does not define is passed over. -/
def actEntry (id w : Nat) (f : Frame) (s : State) : State :=
  match acOp w with
  | 0x00 => actEnd id s
  | 0x01 => s
  | 0x02 => endList id s
  | 0x03 => actChain id w s
  | 0x08 => actDecap id w f s
  | 0x09 => actEncap id w f s
  | 0x0A => actRewrite id w f s
  | 0x0B => actDecTtl id w f s
  | 0x0C => actVlanPush id w s
  | 0x0D => actVlanPop id f s
  | 0x10 => actMeter id w f s
  | 0x11 => actCount w f s
  | 0x12 => actSetClass id w s
  | 0x18 => actCipher true id w f s
  | 0x19 => actCipher false id w f s
  | 0x20 | 0x21 | 0x22 | 0x23 | 0x24 | 0x25 => actDeliver id w f s
  | 0x28 => actMirror id w f s
  | 0x30 => actLearn w f s
  | 0x31 => actTsInsert id w s
  | _ => skipped s

/-- ACTION_LIST (R264): the frame's list goes on by one entry, or ends where none is left. -/
def execActionList (frame : Nat) (s : State) : Outcome :=
  match frameOf s frame with
  | none => .next s
  | some f =>
    if f.stage == .finished then .next (letStand frame s)
    else if mayAct s frame f && (openLists f).isEmpty then .next (endOfEntries frame s)
    else .next (awaitSlot frame (fun _ => true) (runEntry frame (fun _ => true) (actEntry frame)) s)

def execActEnd (frame : Nat) (s : State) : Outcome := .next (runEntry frame (· == 0x00) (fun _ _ s => actEnd frame s) s)
def execActNop (frame : Nat) (s : State) : Outcome := .next (runEntry frame (· == 0x01) (fun _ _ s => s) s)
def execActDrop (frame : Nat) (s : State) : Outcome := .next (runEntry frame (· == 0x02) (fun _ _ s => endList frame s) s)
def execActChain (frame : Nat) (s : State) : Outcome := .next (runEntry frame (· == 0x03) (fun w _ s => actChain frame w s) s)
def execActDecap (frame : Nat) (s : State) : Outcome := .next (runEntry frame (· == 0x08) (fun w f s => actDecap frame w f s) s)
def execActEncap (frame : Nat) (s : State) : Outcome := .next (runEntry frame (· == 0x09) (fun w f s => actEncap frame w f s) s)
def execActRewrite (frame : Nat) (s : State) : Outcome := .next (runEntry frame (· == 0x0A) (fun w f s => actRewrite frame w f s) s)
def execActDecTtl (frame : Nat) (s : State) : Outcome := .next (runEntry frame (· == 0x0B) (fun w f s => actDecTtl frame w f s) s)
def execActVlanPush (frame : Nat) (s : State) : Outcome := .next (runEntry frame (· == 0x0C) (fun w _ s => actVlanPush frame w s) s)
def execActVlanPop (frame : Nat) (s : State) : Outcome := .next (runEntry frame (· == 0x0D) (fun _ f s => actVlanPop frame f s) s)
def execActMeter (frame : Nat) (s : State) : Outcome := .next (runEntry frame (· == 0x10) (fun w f s => actMeter frame w f s) s)
def execActCount (frame : Nat) (s : State) : Outcome := .next (runEntry frame (· == 0x11) (fun w f s => actCount w f s) s)
def execActSetClass (frame : Nat) (s : State) : Outcome := .next (runEntry frame (· == 0x12) (fun w _ s => actSetClass frame w s) s)
def execActEncrypt (frame : Nat) (s : State) : Outcome := .next (awaitSlot frame (· == 0x18) (runEntry frame (· == 0x18) (fun w f s => actCipher true frame w f s)) s)
def execActDecrypt (frame : Nat) (s : State) : Outcome := .next (awaitSlot frame (· == 0x19) (runEntry frame (· == 0x19) (fun w f s => actCipher false frame w f s)) s)
def execActDeliverVport (frame : Nat) (s : State) : Outcome := .next (runEntry frame (· == 0x20) (fun w f s => actDeliver frame w f s) s)
def execActDeliverQueue (frame : Nat) (s : State) : Outcome := .next (runEntry frame (· == 0x21) (fun w f s => actDeliver frame w f s) s)
def execActDeliverInd (frame : Nat) (s : State) : Outcome := .next (runEntry frame (· == 0x22) (fun w f s => actDeliver frame w f s) s)
def execActDeliverPort (frame : Nat) (s : State) : Outcome := .next (runEntry frame (· == 0x23) (fun w f s => actDeliver frame w f s) s)
def execActDeliverChannel (frame : Nat) (s : State) : Outcome := .next (runEntry frame (· == 0x24) (fun w f s => actDeliver frame w f s) s)
def execActDeliverAkzal (frame : Nat) (s : State) : Outcome := .next (runEntry frame (· == 0x25) (fun w f s => actDeliver frame w f s) s)
def execActMirror (frame : Nat) (s : State) : Outcome := .next (runEntry frame (· == 0x28) (fun w f s => actMirror frame w f s) s)
def execActLearn (frame : Nat) (s : State) : Outcome := .next (runEntry frame (· == 0x30) (fun w f s => actLearn w f s) s)
def execActTsInsert (frame : Nat) (s : State) : Outcome := .next (runEntry frame (· == 0x31) (fun w _ s => actTsInsert frame w s) s)

end Sys2Proof.Machine
end

