-- ==== Sys2Proof/Machine/Sched.lean ====
section
/-!
DEFINITION. Host transmit ingress, the scheduler's decisions, transmission and one-step insertion, gates' lists and node registers
(R22, R166, R205, R207, R296, R299 to R304, R309, R311, R312, R318, R319), and frames that arrive over the cascade (R420, R421).
-/
namespace Sys2Proof.Machine

/-! ### Host transmit (R166, R296, R299) -/

/-- The frame that a TX_FRAME entry sends (R166, R232). -/
def hostFrame (s : State) (f : Fn) (q : Nat) (w : Work) (bs : Bytes) : Frame :=
  { ingress := 1 + at_ 4 (fnPf f), source := srcHost f q, bytes := bs, asEntered := bs, ended := true, vport := ((fnSt s f).vport).getD 0xFFFF,
    ts := nowFrac s, bound := bound16 s, metadata := entryField w.entry 56 8, origin := some (f, q, w.ctr.toNat),
    launch := if bitOf (entryField w.entry 1 1) 3 then some (entryField w.entry 8 8) else none }

/-- A frame takes its cells, or waits for them (R296). -/
def enterCells (id : Nat) (s : State) : State :=
  match frameOf s id with
  | none => s
  | some f => match takeCells false id f.bytes.length s with
    | some t => modFrame id (fun f => { f with waitCells := false, ts := nowFrac s, bound := bound16 s }) t
    | none => modFrame id (fun f => { f with waitCells := true }) s

/-- The next TX_FRAME entry of an SQ sends its frame, once its reads are in and no frame of its PF waits for cells; a read that failed ends it
(R23, R134, R135, R166, R296). -/
def txFrame (f : Fn) (q : Nat) (s : State) : State :=
  let waits (e : Nat × Frame) : Bool := e.2.waitCells && e.2.origin.any (fun o => fnPf o.1 == fnPf f)
  match nextWork s f q 0 1 with
  | none => s
  | some w => if s.tm.frames.any waits then s else match readsOf w with
    | none => s
    | some (bs, 0) =>
      let r := newFrame (hostFrame s f q w bs) (modWork f q w.ctr (fun w => { w with started := true }) s)
      enterCells r.1 (modWork f q w.ctr (fun w => { w with ref := some r.1 }) r.2)
    | some (_, st) => finishWork f q w.ctr st 0 s

/-- TX_FRAME (R166). -/
def execTxFrame (f : Fn) (q : Nat) (s : State) : Outcome := .next (txFrame f q s)

/-- HOST_TX_RESUME (R296): cells have come free for a frame that waits. -/
def execHostTxResume (frame : Nat) (s : State) : Outcome :=
  match frameOf s frame with
  | some f => if f.waitCells then .next (enterCells frame s) else .next s
  | none => .next s

/-- Is the depth of an egress queue below its limit again: QLIMIT_G of a queue, or AKZ_QLIMIT of a class queue of an Akzal port, which are
numbered from 0x20000 (R299, R421)? -/
def belowLimit (s : State) (eg : Nat) : Bool :=
  if eg < 0x20000 then decide (queueUnits s (nodeSt s (nodeKey 3 eg)) < colourLimit s (nodeKey 3 eg) 0)
  else decide (queueCells s ((eg - 0x20000) / 8) ((eg - 0x20000) % 8) < dfld s .AKZ_QLIMIT 23 0)

/-- SQ_FETCH_RESUME (R299). -/
def execSqFetchResume (queue : Nat) (s : State) : Outcome :=
  if belowLimit s queue then
    .next (modTm (fun t => { t with injectHeld := if t.injectHeld = some queue then none else t.injectHeld }) (releaseHeld queue s))
  else .next s

/-! ### Eligibility (R300) -/

/-- The queues of a logical port that hold copies, in ascending number. -/
def portQueues (s : State) (lp : Nat) : List Nat := busyUnder s (nodeKey 0 lp)

/-- Is a queue of class c eligible? -/
def queueEligible (s : State) (lp c q : Nat) : Bool :=
  shaperAllows s q && (match (nodeSt s q).copies.head? with
    | some x => launched s lp x && gateAdmits s lp c x
    | none => false)

/-- The eligible queues of a group, and the eligible groups of a class, in ascending number. -/
def queuesOf (s : State) (lp c g : Nat) : List Nat := (portQueues s lp).filter (fun q => nodeParent s q == some g && queueEligible s lp c q)

def groupsOf (s : State) (lp c : Nat) : List Nat :=
  let gs := (((portQueues s lp).filterMap (nodeParent s)).eraseDups).filter (fun g => nodeParent s g == some (nodeKey 1 (8 * lp + c)))
  (gs.filter (fun g => nodeValid s g && shaperAllows s g && !(queuesOf s lp c g).isEmpty)).mergeSort (fun a b => decide (a ≤ b))

/-- Is a class eligible: its shaper, its gate, received pause, and a group? -/
def classEligible (s : State) (lp c : Nat) : Bool :=
  shaperAllows s (nodeKey 1 (8 * lp + c)) && bitOf (gatesAt s lp (startTime s lp / 65536)) c && !pauseHeld s lp c && !(groupsOf s lp c).isEmpty

/-- Can a port start a frame: its link, its transmitter, the frame before, and its shaper? -/
def portReady (s : State) (lp : Nat) : Bool :=
  (lport s lp).up && wbit (lpCfg s lp) 30 && (lport s lp).sending.isNone && shaperAllows s (nodeKey 0 lp)

/-! ### DRR (R301) -/

/-- WEIGHT of a node; 0 is treated as 1. -/
def nodeWeight (s : State) (k : Nat) : Nat := max 1 (fld (nodeCfg s k) 23 16)

/-- One round after another over the eligible children of a parent, in ascending number: the child whose next frame, of len bytes, its D
covers is charged for it. cur is the child under visit, or the place from which the next visit is sought. -/
def drr (parent : Nat) (kids : List Nat) (len : Nat → Nat) : Nat → State → Option Nat × State
  | 0, s => (none, s)
  | fuel + 1, s =>
    let n := nodeSt s parent
    let need := len n.cur + 20
    if n.visiting && kids.contains n.cur && decide (need ≤ (nodeSt s n.cur).deficit) then
      (some n.cur, modNode n.cur (fun x => { x with deficit := x.deficit - need }) s)
    else
      let start := if n.visiting then n.cur + 1 else n.cur
      match (kids.find? (fun k => decide (start ≤ k))).or kids.head? with
      | none => (none, s)
      | some k =>
        drr parent kids len fuel (modNode parent (fun x => { x with cur := k, visiting := true })
          (modNode k (fun x => { x with deficit := x.deficit + nodeWeight s k * 512 }) s))

/-- Rounds that suffice for a frame of the greatest length at the least weight. -/
def drrFuel (kids : List Nat) : Nat := 40 * kids.length + 2

/-- The length of the head copy of a queue. -/
def headLen (s : State) (q : Nat) : Nat := (((nodeSt s q).copies.head?).map wireLen).getD 0

/-- The queue that a group would send from, and the state after its choice. -/
def pickQueue (s : State) (lp c g : Nat) : Option Nat × State :=
  let ks := queuesOf s lp c g
  drr g ks (headLen s) (drrFuel ks) s

/-- The length of the frame that a group would send. -/
def groupLen (s : State) (lp c g : Nat) : Nat := (((pickQueue s lp c g).1).map (headLen s)).getD 0

/-- The queue that a class sends from: a group by DRR, then a queue by DRR. -/
def pickGroup (s : State) (lp c : Nat) : Option Nat × State :=
  let gs := groupsOf s lp c
  let r := drr (nodeKey 1 (8 * lp + c)) gs (groupLen s lp c) (drrFuel gs) s
  match r.1 with
  | some g => pickQueue r.2 lp c g
  | none => (none, s)

/-- The length of the frame that a class would send. -/
def classLen (s : State) (lp k : Nat) : Nat := (((pickGroup s lp (k % 8)).1).map (headLen s)).getD 0

/-- The queue that a port sends from (R301): the highest eligible strict class, or a WEIGHTED class by DRR. -/
def pickClass (s : State) (lp : Nat) : Option Nat × State :=
  let ok := (List.range 8).filter (classEligible s lp)
  let key (c : Nat) : Nat := nodeKey 1 (8 * lp + c)
  match (ok.filter (fun c => !wbit (nodeCfg s (key c)) 30)).getLast? with
  | some c => pickGroup s lp c
  | none =>
    let ks := ok.map key
    let r := drr (nodeKey 0 lp) ks (classLen s lp) (drrFuel ks) s
    match r.1 with
    | some k => pickGroup r.2 lp (k % 8)
    | none => (none, s)

/-! ### SCHEDULE_DECISION (R205, R301, R304) -/

/-- A frame's accounted length is taken from the tokens of every shaped node on its path (R304). -/
def chargePath (q len : Nat) (s : State) : State :=
  foldS (fun k s => if nodeRate s k = 0 then s else
    modNode k (fun n => { n with tokens := n.tokens - ((accounted s k len * tokenByte : Nat) : Int) }) s) (pathUp s q) s

/-- The copy at the head of a queue is read and its frame's cells are poison (R23, R431): it does not leave, and a host-transmitted or injected
frame of which nothing has left ends POISONED. -/
def poisonedCopy (q : Nat) (x : Copy) (s : State) : State :=
  let s1 := judgeQueue q (popHead q s)
  let whole : Bool := match frameOf s x.frame with
    | some f => (f.origin.isSome || f.injected.isSome) && f.best == .dropped && !s.mac.lports.any (fun p => p.sending.any (fun y => y.copy.frame == x.frame))
    | none => false
  if whole then dropFrame x.frame 0x0A s1 else copyDone x.frame .dropped (now s) (bound16 s) (bump .REL_POISON_READ 0 0 1 s1)

/-- The head copy of a queue starts on a port. -/
def startCopy (lp q : Nat) (s : State) : State :=
  match (nodeSt s q).copies.head? with
  | none => s
  | some x =>
    if cellsPoisoned s x.frame then poisonedCopy q x s
    else
    let at_ := startAt s lp
    let n := wireLen x
    let go : Sending := { copy := x, start := at_, len := n, ts := txStamp s lp, bound := bound16 s }
    judgeQueue q (popHead q (chargePath q n (creditPath q
      (modLport lp (fun p => { p with sending := some go, freeAt := at_ + wireTime s lp (n + 20) }) s))))

/-- Do copies wait for a port: TM or the enabled port has not reported ready (R102)? -/
def portWaits (s : State) (lp : Nat) : Bool := blockWaits s 8 || (lpUsed s lp && wbit (portCfg s lp) 31 && !s.cai.ready.contains lp && s.cai.mode == .bringup)

/-- SCHEDULE_DECISION (R301), at the moment the port is free again; none in a Col pause, and none for a port that is not ready (R102, R103). -/
def execScheduleDecision (lp : Nat) (s : State) : Outcome :=
  if 16 ≤ lp ∨ (lport s lp).sending.isSome ∨ !forwards s ∨ portWaits s lp then .next s
  else
    let s0 := advanceTo ((lport s lp).freeAt / 200) s
    let s1 := foldS creditPath (portQueues s0 lp) (judgePort lp s0)
    if !portReady s1 lp then .next s1
    else
      let r := pickClass s1 lp
      match r.1 with
      | some q => .next (startCopy lp q r.2)
      | none => .next s1

/-- SHAPER_CREDIT (R304): a shaped node's tokens are credited, to the moment at which they are at least 0 where they are below. -/
def execShaperCredit (node : Nat) (s : State) : Outcome :=
  if nodeCount (node / 65536) ≤ node % 65536 ∨ 4 * 65536 ≤ node ∨ nodeRate s node = 0 then .next s
  else .next (applyCredit node (advanceTo ((nodeSt s node).creditAt + ceilDiv (-(nodeTokens s node)).toNat (nodeRate s node)) s))

/-- LAUNCH_TIME_REACHED (R309): device time comes to where the head copy's transmit timestamp would be its launch time. -/
def execLaunchTimeReached (queue : Nat) (s : State) : Outcome :=
  match (nodeSt s (nodeKey 3 queue)).copies.head? with
  | some x => match x.launch with
    | some t =>
      let lead := txStamp s x.lport - startTime s x.lport
      .next (if launched s x.lport x then s else advanceTai (ceilDiv (t * 65536 - lead) 65536) s)
    | none => .next s
  | none => .next s

/-! ### One-step insertion (R207) -/

/-- Is the frame IPv4, after any tags? -/
def isIpv4 (bs : Bytes) : Bool :=
  let tag (p : Nat) : Bool := beAt bs p 2 == 0x8100 || beAt bs p 2 == 0x88A8
  let p := if tag 12 then (if tag 16 then 20 else 16) else 12
  beAt bs p 2 == 0x0800

/-- correctionField with an addition, held at its greatest value (R207). -/
def addCorrection (old : Nat) (d : Int) : Nat := unsigned 64 (min (signed 64 old + d) 0x7FFFFFFFFFFFFFFF)

/-- The last two bytes of the UDP payload that keep the sum of the datagram at udp what it was (R207, CKSUM 2). -/
def keepUdpSum (old new : Bytes) (udp : Nat) : Bytes :=
  let n := beAt new (udp + 4) 2
  let p := udp + n - 2
  let z := overwrite new p [0, 0]
  let v := ((65535 * 2 + sum16 (slice old udp n) 0 % 65535) - sum16 (slice z udp n) 0 % 65535) % 65535
  overwrite z p (if n % 2 = 0 then beBytes 2 v else leBytes 2 v)

/-- The frame with its transmit timestamp inserted, in units of 2^-16 ns; none where the entry is ignored (R207). -/
def oneStep (x : Copy) (ts : Nat) : Option Bytes :=
  match x.tsInsert with
  | none => none
  | some (off, kind, cksum) =>
    let bs := x.bytes
    if min 256 bs.length < off + 44 then none
    else
      let ns := ts / 65536
      let corr := beAt bs (off + 8) 8
      let a := if kind = 0 then
          overwrite (overwrite bs (off + 8) (beBytes 8 (addCorrection corr (ts % 65536 : Nat))))
            (off + 34) (beBytes 6 (ns / 1000000000) ++ beBytes 4 (ns % 1000000000))
        else overwrite bs (off + 8) (beBytes 8 (addCorrection corr ((ts : Int) - x.rxTs)))
      some (if cksum = 1 ∧ isIpv4 bs then overwrite a (off - 2) [0, 0] else if cksum = 2 then keepUdpSum bs a (off - 8) else a)

/-- A frame as it goes on the wire: padded to 60 bytes, with its FCS (R166, R303). -/
def onWire (bs : Bytes) : Bytes :=
  let p := bs ++ List.replicate (60 - bs.length) 0
  p ++ leBytes 4 (crc32 p)

/-- FRAME_TRANSMITTED (R22, R205, R207): the last bit of the copy in transmission has left. -/
def execFrameTransmitted (lp : Nat) (s : State) : Outcome :=
  match (lport s lp).sending with
  | none => .next s
  | some x =>
    let s0 := advanceTo (ceilDiv (x.start + wireTime s lp (x.len + 8)) 200) s
    let ins := oneStep x.copy x.ts
    let s1 := if ins.isSome then lpCount lp 15 1 s0 else s0
    let s2 := lpCount lp 11 x.len (lpCount lp 10 1 (modLport lp (fun p => { p with sending := none }) s1))
    .next (copyDone x.copy.frame .port (toNs x.ts) x.bound (emit (.frameOut lp (toNs x.ts) (onWire (ins.getD x.copy.bytes))) s2))

/-- COPY_FINISHED (R22): a frame whose last copy has finished completes. -/
def execCopyFinished (frame : Nat) (s : State) : Outcome := .next (settleFrame frame s)

/-! ### Gates (R311, R312, R317) -/

/-- The pending list becomes operational (R312, R317). -/
def activateList (lp : Nat) (s : State) : State :=
  match (lport s lp).pending with
  | none => s
  | some l => macEvent 0x07 lp 0 (modLport lp (fun p => { p with oper := some l, pending := none }) s)

/-- GATE_LIST_ACTIVE (R312), at CONFIG_CHANGE_TIME. -/
def execGateListActive (lp : Nat) (s : State) : Outcome :=
  match (lport s lp).pending with
  | none => .next s
  | some l => .next (activateList lp (advanceTai l.change s))

/-- GATE_ENTRY_CHANGE (R311): device time comes to the end of the entry in force. -/
def execGateEntryChange (lp : Nat) (s : State) : Outcome :=
  if !gateEnabled s lp then .next s
  else match gateListAt (lport s lp) (now s) with
  | none => .next s
  | some l =>
    let t := nowFrac s / 65536
    .next (advanceTai (t + (partAt (gateParts l) 0 (cyclePos l t)).2.2) s)

/-- Entry i of the admin list: its interval and gate states, and its OPERATION (R316). -/
def adminEntry (s : State) (lp i : Nat) : (Nat × Nat) × Nat :=
  let hi := reg s .MAC_GATE_ADMIN_ENTRY_HI (lp * 256 + i) 0
  (((reg s .MAC_GATE_ADMIN_ENTRY_LO (lp * 256 + i) 0).toNat, fld hi 7 0), fld hi 15 8)

/-- The admin list of a port, where it may be committed (R310, R312). -/
def adminList (s : State) (lp : Nat) : Option GateList :=
  let n := fld (reg s .MAC_GATE_ADMIN_LEN lp 0) 8 0
  let cycle := (reg s .MAC_GATE_ADMIN_CYCLE lp 0).toNat
  let es := (List.range n).map (adminEntry s lp)
  if !gateEnabled s lp ∨ n < 1 ∨ 256 < n ∨ cycle < 256 ∨ 1000000000 < cycle then none
  else if es.all (fun e => decide (1 ≤ e.1.1 ∧ e.1.1 ≤ 1000000000) && e.2 == 0) then
    some { base := pair64 s .MAC_GATE_ADMIN_BASE_LO .MAC_GATE_ADMIN_BASE_HI lp 0, cycle := cycle, entries := es.map Prod.fst }
  else none

/-- CONFIG_CHANGE_TIME of a list that is committed at t, ns (R312). -/
def changeTime (base cycle t : Nat) : Nat := if t + 1000 ≤ base then base else base + ceilDiv (t + 1000 - base) cycle * cycle

/-- COMMIT of a port's admin list (R312). A pending list whose time has come takes effect first. -/
def gateCommit (p : Path) (lp : Nat) (s : State) : State :=
  if !mayWrite s p .MAC_GATE_COMMIT ∨ !lpUsed s lp then s
  else match adminList s lp with
  | none => modLport lp (fun x => { x with gateResult := 1 }) s
  | some l =>
    let due : Bool := match (lport s lp).pending with
      | some m => decide (m.change ≤ now s)
      | none => false
    let s1 := if due then activateList lp s else s
    let change := changeTime l.base l.cycle (ceilDiv (nowFrac s) 65536)
    modLport lp (fun x => { x with gateResult := 0, pending := some { l with change := change }, gateChange := change }) s1

/-! ### Node registers (R302, R304, R318, R319) -/

/-- The node that a path selects; none where its level has no such index (R297). -/
def selectedNode (s : State) (p : Path) : Option Nat :=
  let v := reg s .TM_NODE_SELECT 0 (pathCode p)
  if fld v 23 8 < nodeCount (fld v 1 0) then some (nodeKey (fld v 1 0) (fld v 23 8)) else none

/-- RESULT of a path's last node write: 0 DONE, 1 NOT_OWNED, 2 BAD_CONFIG. -/
def nodeResult (p : Path) (r : Nat) (s : State) : State := setReg .TM_NODE_STATUS 0 (pathCode p) (w32 r) s

/-- Fields of TM_NODE_CFG that apply at a level (R318). -/
def cfgFields (level : Nat) : Nat :=
  match level with
  | 0 => 0
  | 1 => maskOf 30 30 + maskOf 23 16
  | 2 => maskOf 31 31 + maskOf 23 0
  | _ => maskOf 31 31 + maskOf 29 29 + maskOf 23 0

/-- Does a write of TM_NODE_CFG end with BAD_CONFIG (R302)? -/
def cfgRefused (s : State) (k : Nat) (old new : Word) : Bool :=
  let moves := fld old 15 0 != fld new 15 0 || (wbit old 31 && !wbit new 31)
  let orphan := if k / 65536 = 2 then decide (128 ≤ fld new 15 0) || !lpUsed s (fld new 15 0 / 8) else decide (8192 ≤ fld new 15 0)
  decide (2 ≤ k / 65536) && (moves && !(busyUnder s k).isEmpty || orphan)

/-- T of a node that becomes VALID: BURST, or 0 with CREDIT_CAP (R304). -/
def fillNode (k : Nat) (s : State) : State :=
  modNode k (fun n => { n with tokens := if nodeCap s k then 0 else ((nodeBurst s k * tokenByte : Nat) : Int), filled := true, creditAt := s.elapsed }) s

/-- A write of TM_NODE_CFG. -/
def cfgWrite (p : Path) (k : Nat) (v : Word) (s : State) : State :=
  let old := nodeCfg s k
  let m := w32 (cfgFields (k / 65536))
  let new := (old &&& ~~~ m) ||| (v &&& m)
  if cfgRefused s k old new then nodeResult p 2 s
  else
    let s1 := setReg .TM_NODE_CFG 0 k new s
    nodeResult p 0 (if wbit new 31 && !wbit old 31 then fillNode k s1 else s1)

/-- A write of another register of a node. -/
def plainWrite (p : Path) (r : Reg) (k : Nat) (v : Word) (s : State) : State :=
  nodeResult p 0 (setReg r 0 k (applyWrite r (reg s r 0 k) v) s)

/-- A write of RATE, from the credit so far, or of BURST, which cuts tokens above it (R302). -/
def shaperWrite (p : Path) (r : Reg) (k : Nat) (v : Word) (s : State) : State :=
  let s1 := plainWrite p r k v (applyCredit k s)
  modNode k (fun n => { n with tokens := capTokens s1 k n.tokens }) s1

/-- A write of a node register, by its offset in the window (R318). A register that does not apply to the level ignores it. -/
def nodeWrite (p : Path) (off : Nat) (v : Word) (s : State) : State :=
  if !mayWrite s p .TM_NODE_CFG then s
  else match selectedNode s p with
  | none => s
  | some k =>
    match off with
    | 0x204 => cfgWrite p k v s
    | 0x208 => shaperWrite p .TM_NODE_RATE k v s
    | 0x20C => shaperWrite p .TM_NODE_BURST k v s
    | 0x210 => plainWrite p .TM_NODE_ADJ k v s
    | 0x218 => if k / 65536 = 3 then plainWrite p .TM_NODE_QLIMIT_G k v s else s
    | 0x21C => if k / 65536 = 3 then plainWrite p .TM_NODE_QLIMIT_Y k v s else s
    | 0x220 => if k / 65536 = 3 then plainWrite p .TM_NODE_QLIMIT_R k v s else s
    | 0x228 => if k / 65536 = 1 then plainWrite p .TM_NODE_DEFQ k v s else s
    | _ => s

/-! ### Frames from the cascade (R420, R421) -/

/-- A frame for this member, by its KIND. Its flow hash is a free value: the header carries none (assumption 89). -/
def akzArrive (port : Nat) (h body : Bytes) (s : State) : State :=
  let back := some (port, hdCls h, akzCells body)
  let ts := leAt h 8 8 * 65536
  let bound := leAt h 16 2
  if hdKind h = 0 then enterAkz port (nowFrac s) (bound16 s) body back s
  else
    let b := freeBytes 8 s
    let f : Frame := { ingress := 2 + at_ 4 port, source := srcAkz port, bytes := body, asEntered := body, ended := true, ts := ts, bound := bound,
                       hv := List.replicate 32 0 ++ b.1 ++ List.replicate 472 0, stage := .finished, ctx := { srcVport := leAt h 18 2 },
                       colour := hdColour h, copies := 1, live := 1, back := back }
    let r := newFrame f b.2
    akzLocal r.1 port h body ((takeCells false r.1 body.length r.2).getD r.2)

/-- Frames for this member that a Col pause has held are handled (R103). -/
def releaseAkz (s : State) : State :=
  foldS (fun (e : Nat × Bytes × Bytes) s => akzArrive e.1 e.2.1 e.2.2 s) s.akz.heldRx (modAkz (fun a => { a with heldRx := [] }) s)

/-- AKZ_DATA_RX (R420, R421): a data frame for this member is handled by its KIND, or waits through a Col pause (R103); one for another member goes on by the opposite port with
TTL lower by 1. -/
def execAkzDataRx (port : Nat) (header : Bytes) (body : Bytes) (s : State) : Outcome :=
  let back := some (port, hdCls header, akzCells body)
  if 2 ≤ port ∨ !(akzPort s port).up ∨ hdType header ≠ 0 ∨ !s.akz.joined then .next s
  else if hdDest header = s.akz.member then
    (if s.cai.mode = .pause then .next (modAkz (fun a => { a with heldRx := a.heldRx ++ [(port, header, body)] }) s) else .next (akzArrive port header body s))
  else if byteAt header 2 ≤ 1 then .next (grantCredit back (akzStat 1 1 s))
  else .next (forwardItem (1 - port) { header := overwrite header 2 [BitVec.ofNat 8 (byteAt header 2 - 1)], body := body, back := back } s)

end Sys2Proof.Machine
end

