-- ==== Sys2Proof/Machine/RegReads.lean ====
section
/-!
DEFINITION. What a read of each register shows (R7, R470 to R476): where a path's register is stored, and the values of the fields that
report the machine's state.
-/
namespace Sys2Proof.Machine

/-! ### Where a path's register is stored (R470, R476) -/

/-- The mover channel that a path has selected (R384). -/
def mvSelected (s : State) (p : Path) : Nat := fld (reg s .DMV_CH_SELECT 0 (pathCode p)) 5 0

/-- The mover window that a path has selected: 0 to 254 (R384). -/
def winSelected (s : State) (p : Path) : Option Nat :=
  let w := fld (reg s .DMV_WIN_SELECT 0 (pathCode p)) 7 0
  if w < 255 then some w else none

/-- Is a register of TM_NODE_ one that applies at a level (R318)? -/
def nodeApplies (r : Reg) (level : Nat) : Bool :=
  match r with
  | .TM_NODE_QLIMIT_G | .TM_NODE_QLIMIT_Y | .TM_NODE_QLIMIT_R | .TM_NODE_DROPS => level == 3
  | .TM_NODE_DEFQ => level == 1
  | _ => true

/-- Index and holder of the stored value that a path reaches through a register; none where it reaches none. -/
def regPlace (s : State) (p : Path) (r : Reg) (i : Nat) : Option (Nat × Nat) :=
  match r.info.held with
  | .device => some (i, 0)
  | .function => match p with
    | .fn .fw => none
    | .fn f => some (i, fnCode f)
    | _ => none
  | .path => match p with
    | .fn .fw => none
    | .fn f => some (i, fnCode f)
    | _ => if actsForFunction r then none else some (i, pathCode p)
  | .vf => match p with
    | .fn (.pf k) => (selectedVf s k).map (fun f => (i, fnCode f))
    | _ => none
  | .queue => match p with
    | .fn .fw => none
    | .fn f => if ownsQueue s f (selectedQ s p) then some (selectedQ s p, fnCode f) else none
    | _ => none
  | .node => match selectedNode s p with
    | some k => if nodeApplies r (k / 65536) then some (i, k) else none
    | none => none
  | .channel => some (i, mvSelected s p)
  | .window => (winSelected s p).map (fun w => (i, w))
  | .ctrl => some (i, fld (reg s .STO_CTRL_SELECT 0 (pathCode p)) 11 0)
  | .domain => some (i, fld (reg s .SVC_DOMAIN_SELECT 0 (pathCode p)) 5 0)
  | .ind | .svcChannel | .half => none

/-- The stored value, zero where a path reaches none. -/
def storedReg (s : State) (p : Path) (r : Reg) (i : Nat) : Word :=
  match regPlace s p r i with
  | some (j, h) => reg s r j h
  | none => 0

/-! ### Fields that report state -/

/-- TIM_REF_STATE of slot id (R65). -/
def refState (s : State) (id : Nat) : Nat :=
  (slotOf s id).st.code + at_ 2 (b2n (s.tim.selected == some id)) + at_ 3 (b2n (slotOf s id).inconsistent)

/-- The record of a ring whose SEQ has these low 32 bits. -/
def bySeq (m : NMap Bytes) (sel : Nat) : Bytes := ((m.find? (fun e => e.1 % 2 ^ 32 == sel)).map Prod.snd).getD []

/-- TIM registers (R65). -/
def timValue (s : State) (p : Path) (r : Reg) (i : Nat) : Nat :=
  match r with
  | .TIM_STATUS => timStatus s
  | .TIM_BOUND => bound32 s
  | .TIM_REF_STATE => refState s (i + 1)
  | .TIM_TRACE_HEAD => s.tim.traceNext - 1
  | .TIM_TRACE_WINDOW => leAt (bySeq s.tim.trace (reg s .TIM_TRACE_SELECT 0 (pathCode p)).toNat) (4 * i) 4
  | _ => (storedReg s p r i).toNat

/-- The mode as HIF_PF_STATUS and VF_STATUS show it (R114). -/
def shownMode (s : State) : Nat := if s.cai.mode = .spared then 4 else s.cai.mode.code

/-- CAI registers (R87, R112). -/
def caiValue (s : State) (p : Path) (r : Reg) (i : Nat) : Nat :=
  match r with
  | .CAI_STRAP => s.cai.straps.toNat
  | .CAI_RESET_CAUSE => s.cai.resetCause
  | .CAI_RAIL_STATUS => (List.range 6).foldl (fun m k => m + at_ k (b2n ((s.cai.rails.getD k {}).good))) 0
  | .CAI_TEMP => unsigned 16 (hottest s).1 + at_ 16 (hottest s).2
  | .CAI_POWER => (Config.powerDrawn (s.elapsed / 10000000)).val
  | .CAI_MODE => (reg s .CAI_MODE 0 0).toNat &&& 0xE000 ||| (s.cai.mode.code + at_ 8 s.cai.prevMode.code + at_ 16 s.cai.bootImage + at_ 20 (min 0xFFF s.cai.bootTime))
  | _ => (storedReg s p r i).toNat

/-- The PF that a path acts for; none where it is no PF. -/
def pathPf : Path → Option Nat
  | .fn (.pf i) => some i
  | _ => none

/-- HIF_LINK_STATUS of a half (R154). -/
def linkStatus (h : HalfSt) : Nat := if h.up then h.rate + at_ 3 h.width + at_ 8 (b2n h.flit) + at_ 9 1 else 0

/-- HIF_VF_MIG_STATE of a VF (R188). -/
def migStatus (m : Mig) : Nat :=
  m.st.code + at_ 4 m.result + at_ 8 (b2n m.logging) + at_ 9 (b2n m.activeB) + at_ 10 (b2n m.rangeMiss)

/-- HIF registers that report state, for PF i (R114, R154, R183, R188). -/
def hifPfValue (s : State) (r : Reg) (i : Nat) : Option Nat :=
  let g := pfSet s i
  match r with
  | .HIF_PF_STATUS => some (b2n (fnSt s (.pf i)).ready + at_ 8 (shownMode s))
  | .HIF_LINK_STATUS => some (linkStatus (halfSt s (pfHalf s i)))
  | .HIF_PF_QUIESCE => some (b2n (quiesced s (.pf i)))
  | .HIF_PF_RES => some ((g.vectors - 1) % 2048 + at_ 12 i + at_ 16 (b2n g.nvme) + at_ 19 g.totalVfs)
  | .HIF_PF_QPOOL => some g.qBase
  | .HIF_PF_QCOUNT => some g.qCount
  | .HIF_PF_EQPOOL => some (g.eqBase + at_ 14 g.eqCount)
  | .HIF_PF_VPORTS => some (g.vportFirst + at_ 12 g.vportCount)
  | .HIF_VF_MIG_STATE => some (match selectedVf s i with
    | some f => migStatus (fnSt s f).mig
    | none => 0)
  | .HIF_VF_IMG_USED => some (match selectedVf s i with
    | some f => (fnSt s f).mig.imgUsed
    | none => 0)
  | _ => none

/-- HIF registers; HIF_TAGS counts for the device, whatever the path (R154). -/
def hifValue (s : State) (p : Path) (r : Reg) (i : Nat) : Nat :=
  if r = .HIF_TAGS then s.hif.slots.length + at_ 16 (s.hif.slots.filter (fun e => e.2.st == .quarantined)).length
  else match (pathPf p).bind (hifPfValue s r) with
  | some v => v
  | none => (storedReg s p r i).toNat

/-- QM registers (R177): QM_Q_STATE shows the path's RESULT whatever queue is selected; moderation is a CQ's or an EQ's. -/
def qmValue (s : State) (p : Path) (r : Reg) (i : Nat) : Nat :=
  match r, p with
  | .QM_Q_STATE, .fn f =>
    let q := selectedQ s p
    let u := queue s f q
    (reg s .QM_Q_STATE 0 (pathCode p)).toNat +
      (if ownsQueue s f q then u.st.code + at_ 16 (if qKind f q = some .sq then u.c.toNat else u.p.toNat) else 0)
  | .QM_CQ_MODERATION, .fn f => if qKind f (selectedQ s p) = some .sq then 0 else (storedReg s p r i).toNat
  | .QM_EVENT_MASK, .fn (.vf _ _) => 0
  | _, _ => (storedReg s p r i).toNat

/-- One bit per priority for which g holds. -/
def prioMask (g : Nat → Bool) : Nat := (List.range 8).foldl (fun m k => m + at_ k (b2n (g k))) 0

/-- The entry in force of a port's gates, and whether a list is in force (R311, R316). -/
def gateStatus (s : State) (lp : Nat) : Nat :=
  let x := lport s lp
  let l := gateListAt x (now s)
  at_ 24 x.gateResult
    + at_ 16 (match l with
      | some g => (partAt (gateParts g) 0 (cyclePos g (now s))).1 % 256
      | none => 0)
    + at_ 8 (gatesAt s lp (now s)) + at_ 1 (b2n l.isSome)
    + b2n (match x.pending with
      | some g => decide (now s < g.change)
      | none => false)

/-- The gate registers of logical port lp (R316). -/
def gateValue (s : State) (lp : Nat) (r : Reg) (i : Nat) : Option Nat :=
  let l := gateListAt (lport s lp) (now s)
  let oper (g : GateList → Nat) : Option Nat := some ((l.map g).getD 0)
  let entry : Nat × Nat := ((l.map GateList.entries).getD []).getD (i % 256) (0, 0)
  match r with
  | .MAC_GATE_STATUS => some (gateStatus s lp)
  | .MAC_GATE_CHANGE_TIME_LO => some ((lport s lp).gateChange)
  | .MAC_GATE_CHANGE_TIME_HI => some ((lport s lp).gateChange / 2 ^ 32)
  | .MAC_GATE_OPER_BASE_LO => oper GateList.base
  | .MAC_GATE_OPER_BASE_HI => oper (fun g => g.base / 2 ^ 32)
  | .MAC_GATE_OPER_CYCLE => oper GateList.cycle
  | .MAC_GATE_OPER_LEN => oper (fun g => g.entries.length)
  | .MAC_GATE_WINDOW => some ((gateWindow s lp (i % 8)).getD 0xFFFFFFFF)
  | .MAC_GATE_OPER_ENTRY_LO => some entry.1
  | .MAC_GATE_OPER_ENTRY_HI => some entry.2
  | _ => none

/-- MAC registers (R218, R316). -/
def macValue (s : State) (p : Path) (r : Reg) (i : Nat) : Nat :=
  if portAbsent s r i then 0
  else match r with
  | .MAC_PORT_STATUS => s.mac.lock.getD i 0
  | .MAC_LP_STATUS =>
    b2n (lport s i).up + at_ 1 (b2n (lport s i).fecDegraded) + at_ 8 (prioMask (fun k => (prioSt s i k).holdUntil.isSome))
      + at_ 16 (prioMask (fun k => (prioSt s i k).xoff))
  | .MAC_LP_WD_STATUS => prioMask (fun k => (prioSt s i k).rxStorm) + at_ 8 (prioMask (fun k => (prioSt s i k).txStorm))
  | .MAC_LP_CELLS_HELD => min 0xFFFFFF (cellsHeld s (i / 8) (i % 8))
  | _ => (gateValue s (i / r.info.count2) r i).getD (storedReg s p r i).toNat

/-- MGT registers (R224). -/
def mgtValue (s : State) (p : Path) (r : Reg) (i : Nat) : Nat :=
  match r with
  | .MGT_STATUS => b2n (mgtLink s) + at_ 1 (if mgtSpeed s = 10 then 0 else if mgtSpeed s = 100 then 1 else 2) + at_ 3 (b2n (mgtHalf s))
  | .MGT_MDIO_CTRL => (storedReg s p r i).toNat % 2 ^ 30 + at_ 30 (b2n s.mgt.mdioNoAck) + at_ 31 (b2n s.mgt.mdioBusy)
  | _ => (storedReg s p r i).toNat

/-- The state of the loaded microcode: 0 NONE, 1 LOADING, 2 LOADED (R256). -/
def prsLoadState (s : State) : Nat := if s.prs.loading.isSome then 1 else if s.prs.loaded then 2 else 0

/-- PRS registers (R256). -/
def prsValue (s : State) (p : Path) (r : Reg) (i : Nat) : Nat :=
  let sel := reg s .PRS_IND_SELECT 0 (pathCode p)
  let x := indTable s (fld sel 9 0)
  match r with
  | .PRS_LOAD_STATUS => prsLoadState s + at_ 4 s.prs.loadResult + at_ 16 s.prs.image.words.length
  | .PRS_BUILD_ID => bits s.prs.image.buildId (32 * i + 31) (32 * i)
  | .PRS_FRAG_USED => (s.prs.frags.filter (fun e => fragLive s e.2)).length
  | .PRS_RUNNING => ((activeUnits s 0).filter (fun p => (domainSt s (.prsPair p)).st == .running)).length
  | .PRS_IND_CFG => x.cfg.toNat
  | .PRS_IND_ENTRY => mget 0 x.targets (fld sel 19 19 * 512 + fld sel 18 10)
  | _ => (storedReg s p r i).toNat

/-- Slots in the stashes of the flow banks, or of the LPM banks. -/
def stashUsed (s : State) (lpm : Bool) : Nat :=
  ((s.tbl.stash.filter (fun e => decide (16 ≤ e.1) == lpm)).map (fun e => e.2.length)).foldl (· + ·) 0

/-- TBL registers (R292). -/
def tblValue (s : State) (p : Path) (r : Reg) (i : Nat) : Nat :=
  match r with
  | .TBL_STATUS => (storedReg s p r i).toNat % 2 + at_ 1 (b2n s.tbl.rebuilding)
  | .TBL_FLOW_USED => s.tbl.flows.length
  | .TBL_STASH_USED => stashUsed s false + at_ 16 (stashUsed s true)
  | .TBL_LPM_USED => s.tbl.routes.length
  | .TBL_ACL_USED => (s.tbl.acl.filter (fun e => bitOf (byteAt e.2 96) 0)).length
  | .TBL_MOVE => b2n (mget ({} : MoveReg) s.tbl.moveReg i).active + at_ 16 (mget 0 s.tbl.moveSeq i)
  | _ => (storedReg s p r i).toNat

/-- Fields of TM_NODE_CFG at a node's level: VALID of ports and classes reads 1, and a class's PARENT is its port (R318). -/
def nodeCfgValue (s : State) (k : Nat) : Nat :=
  (nodeCfg s k).toNat &&& cfgFields (k / 65536) ||| (match k / 65536 with
    | 0 => at_ 31 1
    | 1 => at_ 31 1 + k % 65536 / 8
    | _ => 0)

/-- TM registers (R318). -/
def tmValue (s : State) (p : Path) (r : Reg) (i : Nat) : Nat :=
  let node (g : Nat → Nat) : Nat := match selectedNode s p with
    | some k => g k
    | none => 0
  match r with
  | .TM_POOL_FREE_OCHRE => s.tm.freeOchre
  | .TM_POOL_FREE_UMBER => s.tm.freeUmber
  | .TM_POOL_FREE_SIENNA => s.tm.freeSienna
  | .TM_NODE_CFG => node (nodeCfgValue s)
  | .TM_NODE_TOKENS => node (fun k => unsigned 32 (Int.tdiv (nodeTokens (applyCredit k s) k) (tokenByte : Int)))
  | .TM_NODE_DEPTH => node (nodeDepth s)
  | _ => (storedReg s p r i).toNat

/-- Units of a numbered kind that run. -/
def unitsRunning (s : State) (kind : Nat) : Nat :=
  ((unitsOfKind kind).filter (fun u => (domainSt s u).st == .running && (match unitKind u with
    | some (k, i) => (activeUnits s k).contains i
    | none => true))).length

/-- CRY registers (R342). -/
def cryValue (s : State) (p : Path) (r : Reg) (i : Nat) : Nat :=
  match r with
  | .CRY_ENGINES => (activeUnits s 1).length + at_ 8 (unitsRunning s 1) + at_ 16 (unitsIn s 1 1).length
  | .CRY_CHECKERS => b2n (!(activeUnits s 2).isEmpty) + at_ 1 (b2n (!(unitsIn s 2 1).isEmpty))
  | .CRY_SLOTS_VALID => (s.cry.slots.filter (fun e => e.2.key.isSome)).length
  | _ => (storedReg s p r i).toNat

/-- STO_CTRL_STATUS of a controller's function (R368). -/
def ctrlStatus (s : State) (c : Nat) : Nat :=
  match s.sto.ctrls.find? (fun e => ctrlNo s (ctrlFn e.1) == c) with
  | some e => b2n (bitOf e.2.cc 0) + at_ 1 (b2n e.2.rdy) + at_ 2 (b2n (quiesced s (ctrlFn e.1))) + at_ 3 (b2n (e.2.shst == 2))
  | none => 4

/-- STO registers (R368). -/
def stoValue (s : State) (p : Path) (r : Reg) (i : Nat) : Nat :=
  match r with
  | .STO_TRK_USED => (trkUsed s).length
  | .STO_CTX_STATUS =>
    let c := cxSelected s p
    (reg s .STO_CTX_STATUS 0 (pathCode p)).toNat + (connOf s c).st.code + at_ 16 (min 8191 (cxInFlight s c))
  | .STO_CTRL_STATUS => ctrlStatus s (fld (reg s .STO_CTRL_SELECT 0 (pathCode p)) 11 0)
  | _ => (storedReg s p r i).toNat

/-- DMV_CH_STATUS of a channel without RESULT (R384). -/
def mvStatusWord (s : State) (ch : Nat) : Nat :=
  let u := mvChan s ch
  let st : Nat := if !wbit (mvCfg s ch) 31 then 0 else match u.st with
    | .idle => 1
    | .running => 2
    | .preempted => 3
    | .halted => 4
  st + at_ 4 u.cause + at_ 8 (b2n u.dirWrite) + at_ 9 (b2n u.flushErr) + at_ 10 (b2n u.device)
    + (match u.jobStatus with
      | some x => at_ 15 1 + at_ 16 x
      | none => 0)

/-- DMV registers (R384). -/
def dmvValue (s : State) (p : Path) (r : Reg) (i : Nat) : Nat :=
  match r with
  | .DMV_MOVERS => (activeUnits s 4).length + at_ 4 (unitsIn s 4 1).length
  | .DMV_CH_STATUS => mvStatusWord s (mvSelected s p) + (reg s .DMV_CH_STATUS 0 (pathCode p)).toNat
  | .DMV_CH_FAIL_ADDR_LO => (mvChan s (mvSelected s p)).failAddr
  | .DMV_CH_FAIL_ADDR_HI => (mvChan s (mvSelected s p)).failAddr / 2 ^ 32
  | _ => (storedReg s p r i).toNat

/-- The mailbox registers of a function (R408). -/
def mbxValue (s : State) (f : Fn) (r : Reg) (i : Nat) : Option Nat :=
  let b := mbxOf s f
  match r with
  | .MBX_STATUS => some ((reg s .MBX_STATUS 0 (fnCode f)).toNat &&& 0xC ||| (b2n b.h2fFull + at_ 1 (b2n b.f2hFull) + at_ 8 b.f2h.length))
  | .MBX_F2H_DATA => some (leAt b.f2h (4 * i) 4)
  | _ => none

/-- Cores that hold 17 contexts (R391, R410). -/
def fullCores (s : State) : Nat := (s.svc.hosts.filter (fun e => decide (16 < e.2.length))).length

/-- SVC_DOMAIN_STATUS of a domain without RESULT (R410). -/
def domainStatus (s : State) (d : Nat) : Nat :=
  let ts := s.svc.threads.filter (fun e => e.2.domain == d && e.2.st != .free)
  ts.length + at_ 11 (b2n (mget ({} : Domain) s.svc.domains d).stalled) + at_ 12 (b2n (ts.any (fun e => e.2.halted))) + at_ 16 (domEpoch s d)

/-- SVC registers (R408, R410). -/
def svcValue (s : State) (p : Path) (r : Reg) (i : Nat) : Nat :=
  let c := fld (reg s .SVC_CH_SELECT 0 (pathCode p)) 13 0
  match r with
  | .SVC_CORES => (activeUnits s 3).length + at_ 8 (unitsIn s 3 1).length + at_ 16 (fullCores s)
  | .SVC_CH_CFG => (chCfg s c).toNat
  | .SVC_CH_STATUS => (chMsgs s c).length + at_ 13 (b2n (wbit (chCfg s c) 31 && chFull s c)) + (reg s .SVC_CH_STATUS 0 (pathCode p)).toNat
  | .SVC_CH_STORE_FREE => 1048576 - slotsUsed s
  | .SVC_DOMAIN_STATUS => domainStatus s (fld (reg s .SVC_DOMAIN_SELECT 0 (pathCode p)) 5 0) + (reg s .SVC_DOMAIN_STATUS 0 (pathCode p)).toNat
  | .SVC_HANDLES_FREE => 65536 - s.svc.handles.length
  | _ => match p with
    | .fn f => if f = .fw then 0 else (mbxValue s f r i).getD (storedReg s p r i).toNat
    | _ => (storedReg s p r i).toNat

/-- AKZ_STATUS (R427): RING while every member is reached through both ports. -/
def akzStatus (s : State) : Nat :=
  let a := s.akz
  let up := akzPort s 0
  let down := akzPort s 1
  a.member + at_ 3 (b2n a.joined) + at_ 4 (b2n (a.joined && a.master == some a.member)) + at_ 5 (b2n a.whole)
    + at_ 6 (b2n (up.up && down.up && (up.reach &&& down.reach) &&& (255 - 2 ^ a.member) != 0)) + at_ 8 (a.master.getD 0)
    + at_ 16 a.members + at_ 24 (if a.joined then reachNow s else 0)

/-- AKZ registers (R427). -/
def akzValue (s : State) (p : Path) (r : Reg) (i : Nat) : Nat :=
  match r with
  | .AKZ_STATUS => akzStatus s
  | .AKZ_PORT_STATUS =>
    let x := akzPort s i
    b2n x.up + at_ 1 (b2n x.nbJoined) + at_ 8 x.nbMember + at_ 16 x.reach
  | .AKZ_MEMBER_SERIAL_LO => mget 0 s.akz.serials i
  | .AKZ_MEMBER_SERIAL_HI => mget 0 s.akz.serials i / 2 ^ 32
  | _ => (storedReg s p r i).toNat

/-- One bit per kind for which g holds. -/
def kindMask (g : Nat → Bool) : Nat := (List.range 11).foldl (fun m k => m + at_ k (b2n (g k))) 0

/-- REL_UNIT_STATUS of a unit: an active unit whose domain is gated shows GATED (R445). -/
def unitStatus (s : State) (kind index : Nat) : Nat :=
  if (unitCounts kind).1 ≤ index then 0
  else
    let u := unitOf s kind index
    let gated := (unitsOfKind kind).any (fun v => unitKind v == some (kind, index) && unitState s v == .gated)
    (if u.st = 0 ∧ gated then 2 else u.st) + at_ 4 u.strikes + at_ 8 (min 255 (screeValue s kind u)) + at_ 16 u.epoch

/-- REL_READY0: readiness of ports and blocks (R102, R445). -/
def ready0 (s : State) : Nat :=
  let has (u k : Nat) : Nat := at_ k (b2n (s.cai.ready.contains u))
  (List.range 16).foldl (fun m k => m + has k k) 0 + has 0x100 16 + has 0x101 17 + has 0x207 18 + has 0x208 19 + has 0x209 20 + has 0x20A 21 + has 0x20B 22

/-- REL registers (R445). -/
def relValue (s : State) (p : Path) (r : Reg) (i : Nat) : Nat :=
  let sel := reg s .REL_UNIT_SELECT 0 (pathCode p)
  let cores (base : Nat) : Nat := (List.range 32).foldl (fun m k => m + at_ k (b2n (s.cai.ready.contains (0x300 + base + k)))) 0
  match r with
  | .REL_SUMMARY => kindMask (fun k => decide (0 < engagedOf s k)) + at_ 16 (kindMask (noSpareLeft s))
  | .REL_READY0 => ready0 s
  | .REL_READY1 => cores 0
  | .REL_READY2 => cores 32
  | .REL_UNIT_STATUS => unitStatus s (fld sel 3 0) (fld sel 23 8)
  | .REL_SPARES => (activeUnits s i).length + at_ 12 (min 255 (sparesLeft s i))
      + at_ 20 ((unitsIn s i 3).length + (unitsIn s i 4).length + (unitsIn s i 5).length)
  | .REL_PAGES_RETIRED => s.rel.pagesRetired
  | .REL_MC_HEAD => s.rel.logNext - 1
  | .REL_MC_WINDOW => leAt (bySeq s.rel.log (reg s .REL_MC_SELECT 0 (pathCode p)).toNat) (4 * i) 4
  | _ => (storedReg s p r i).toNat

/-- VF_DMV_STATUS: DMV_CH_STATUS of the channel last named, with NOT_OWNED where it is not the VF's (R385). -/
def vfMvStatus (s : State) (f : Fn) : Nat :=
  let ch := mget 0 s.dmv.vfChan (fnCode f)
  if mvOwner s ch = f then mvStatusWord s ch + (reg s .DMV_CH_STATUS 0 (fnCode f)).toNat else at_ 12 2

/-- Registers of VF BAR0 (R114, R154, R385). -/
def vfValue (s : State) (p : Path) (r : Reg) (i : Nat) : Nat :=
  match p, r with
  | .fn (.vf k n), .VF_STATUS => b2n (fnSt s (.vf k n)).ready + at_ 8 (shownMode s)
  | .fn (.vf k n), .VF_QUIESCE => b2n (quiesced s (.vf k n))
  | .fn (.vf k n), .VF_DMV_STATUS => vfMvStatus s (.vf k n)
  | _, _ => (storedReg s p r i).toNat

/-- The 32 bits that a register holds now, as a path sees them; window headers apart. LCS answers for itself. -/
def regNow (s : State) (p : Path) (r : Reg) (i : Nat) : Nat :=
  match r.info.space with
  | .vf => vfValue s p r i
  | .block 0 => caiValue s p r i
  | .block 2 => hifValue s p r i
  | .block 3 => qmValue s p r i
  | .block 4 => macValue s p r i
  | .block 5 => mgtValue s p r i
  | .block 6 => prsValue s p r i
  | .block 7 => tblValue s p r i
  | .block 8 => tmValue s p r i
  | .block 9 => cryValue s p r i
  | .block 10 => stoValue s p r i
  | .block 11 => dmvValue s p r i
  | .block 12 => svcValue s p r i
  | .block 13 => timValue s p r i
  | .block 14 => akzValue s p r i
  | .block 15 => relValue s p r i
  | .block _ => 0

end Sys2Proof.Machine
end

