-- ==== Sys2Proof/Machine/RegWrites.lean ====
section
/-!
DEFINITION. What an aligned write of each register does (R7, R470, R473): the stored fields by their access codes, and the actions of the
registers that act.
-/
namespace Sys2Proof.Machine

/-- A plain write: the fields by their access codes, for a path that may write the register and reaches an instance of it. -/
def plainReg (p : Path) (r : Reg) (i : Nat) (v : Word) (s : State) : State :=
  if !mayWrite s p r then s
  else match regPlace s p r i with
  | some (j, h) => setReg r j h (applyWrite r (reg s r j h) v) s
  | none => s

/-- A write of TIM_PPS_OUTn_CFG (R59): ENABLE drives the pin, low till its next edge, and without it the pin is released. -/
def ppsCfgWrite (p : Path) (pin : Nat) (v : Word) (s : State) : State :=
  let driven (s : State) : Bool := wbit (reg s .TIM_PPS_OUT_CFG pin 0) 31
  let s1 := plainReg p .TIM_PPS_OUT_CFG pin v s
  if driven s = driven s1 then settlePins s1
  else if driven s1 then emit (.pin (.ppsOut pin) .low) (settlePins s1)
  else if (s.tim.ppsOut.getD pin {}).high then settlePins s1 else emit (.pin (.ppsOut pin) .z) (settlePins s1)

/-- TIM registers that act (R65, R477). -/
def timWrite (p : Path) (r : Reg) (i : Nat) (v : Word) (s : State) : State :=
  match r with
  | .TIM_CTRL => if wbit v 0 then reacquire p s else s
  | .TIM_STATUS => plainReg p r i (if aboveAlarm (reg s .TIM_BOUND_ALARM 0 0).toNat (boundNow s) then setFld v 1 1 0 else v) s
  | .TIM_SNAP => if wbit v 0 then timSnap p s else s
  | .TIM_BOUND_ALARM => boundAlarmWrite p v s
  | .TIM_UTC => utcWrite p v s
  | .TIM_LEAP_AT_LO => leapAtWrite p false v s
  | .TIM_LEAP_AT_HI => leapAtWrite p true v s
  | .TIM_REF_CFG => refCfgWrite p (i + 1) v s
  | .TIM_MANUAL_COMMIT => if wbit v 0 then manualCommit p s else s
  | .TIM_PPS_OUT_CFG => ppsCfgWrite p i v s
  | _ => plainReg p r i v s

/-- CAI registers that act (R81, R94, R112, R113). -/
def caiWrite (p : Path) (r : Reg) (i : Nat) (v : Word) (s : State) : State :=
  match r with
  | .CAI_MODE_REQ => modeRequest p (fld v 3 0) s
  | .CAI_WAKE_AT_LO | .CAI_WAKE_AT_HI => wakePassed (plainReg p r i v s)
  | .CAI_MODE_CFG => let s1 := plainReg p r i v s; if mayWrite s p r then leaveHold (modeAfterLinks s1) else s
  | _ => plainReg p r i v s

/-- ACTION of HIF_VF_CTRL (R188); MIG_RESTORE brings the image that a RESTORE reads (assumption 90). -/
def vfCtrl (pf a : Nat) (s : State) : State :=
  match a with
  | 1 => vfGrant pf s
  | 2 => logStart pf s
  | 3 => logSwap pf s
  | 4 => logStop pf s
  | 5 => vfFreeze pf s
  | 6 => vfSave pf .landed s
  | 7 => restoreStart pf s
  | 8 => vfUnfreeze pf s
  | _ => s

/-- HIF registers that act (R153, R186 to R196). -/
def hifWrite (p : Path) (r : Reg) (i : Nat) (v : Word) (s : State) : State :=
  match p, r with
  | .fn (.pf k), .HIF_VF_VPORT => vportBind k v s
  | .fn (.pf k), .HIF_VF_CTRL => vfCtrl k (fld v 3 0) s
  | .fn (.pf k), .HIF_VF_PERM =>
    let s1 := plainReg p r i v s
    match selectedVf s k with
    | some f => if reg s r 0 (fnCode f) = reg s1 r 0 (fnCode f) then s1 else tdiError f s1
    | none => s1
  | _, _ => plainReg p r i v s

/-- QM registers that act (R177 to R180). -/
def qmWrite (p : Path) (r : Reg) (i : Nat) (v : Word) (s : State) : State :=
  match p, r with
  | .fn _, .QM_Q_CTRL => (match fld v 1 0 with
    | 1 => qCreate p s
    | 2 => qDestroy p s
    | 3 => qRestart p s
    | _ => s)
  | .fn f, .QM_CQ_MODERATION => if qKind f (selectedQ s p) = some .sq then s else plainReg p r i v s
  | .fn (.vf _ _), .QM_EVENT_MASK => s
  | _, _ => plainReg p r i v s

/-- MAC registers that act (R202, R210, R217, R310, R316). -/
def macWrite (p : Path) (r : Reg) (i : Nat) (v : Word) (s : State) : State :=
  if portAbsent s r i then s
  else match r with
  | .MAC_PORT_CFG => portCfgWrite p i v s
  | .MAC_LP_CFG => lpCfgWrite p i v s
  | .MAC_LP_STAT_SNAP => if wbit v 0 then statSnap p i s else s
  | .MAC_GATE_COMMIT => if wbit v 0 then gateCommit p i s else s
  | .MAC_FLT_CTRL => (match fld v 1 0 with
    | 1 => filterAdd p s
    | 2 => filterOther p false (fld v 30 16) s
    | 3 => filterOther p true (fld v 30 16) s
    | _ => s)
  | _ => plainReg p r i v s

/-- MGT, PRS and TBL registers that act (R221, R222, R253, R256, R258, R271). -/
def parseWrite (p : Path) (r : Reg) (i : Nat) (v : Word) (s : State) : State :=
  match r with
  | .MGT_CFG => mgtCfgWrite p v s
  | .MGT_MDIO_CTRL => mdioStart p v s
  | .PRS_LOAD_CTRL => if wbit v 0 then prsLoadStart p s else s
  | .PRS_IND_SELECT => if mayWrite s p r then indResult p 0 (plainReg p r i v s) else s
  | .PRS_IND_CFG => indWrite p false v s
  | .PRS_IND_ENTRY => indWrite p true v s
  | .TBL_HASH_SEED => seedWrite p i v s
  | .TBL_PROG_WRITE => if wbit v 0 then progWrite p s else s
  | _ => plainReg p r i v s

/-- TM registers that act (R302, R318, R319). -/
def tmWrite (p : Path) (r : Reg) (i : Nat) (v : Word) (s : State) : State :=
  match r with
  | .TM_NODE_CFG | .TM_NODE_RATE | .TM_NODE_BURST | .TM_NODE_ADJ | .TM_NODE_QLIMIT_G | .TM_NODE_QLIMIT_Y | .TM_NODE_QLIMIT_R | .TM_NODE_DEFQ =>
    nodeWrite p (regOff r i) v s
  | .TM_METER_CTRL => (match fld v 1 0 with
    | 1 => meterWrite p s
    | 2 => meterRead p s
    | _ => s)
  | _ => plainReg p r i v s

/-- STO registers that act (R357, R361, R368). -/
def stoWrite (p : Path) (r : Reg) (i : Nat) (v : Word) (s : State) : State :=
  match r with
  | .STO_CTX_CTRL => (match fld v 2 0 with
    | 1 => ctxWrite p s
    | 2 => ctxRead p s
    | 3 => ctxResume p s
    | 4 => ctxDisable p s
    | _ => s)
  | .STO_NS_CTRL => (match fld v 1 0 with
    | 1 => nsWrite p s
    | 2 => nsRead p s
    | _ => s)
  | _ => plainReg p r i v s

/-- A write of DMV_CH_CFG: firmware's in full, a PF's of ENABLE and PRIO of channels of its own (R384). -/
def mvCfgWrite (p : Path) (v : Word) (s : State) : State :=
  let ch := mvSelected s p
  let old := mvCfg s ch
  match p with
  | .fn (.pf _) =>
    if !mvControls s p ch then mvResult p 2 s
    else mvResult p 0 (setReg .DMV_CH_CFG 0 ch (setFld (setFld old 31 31 (fld v 31 31)) 26 24 (fld v 26 24)) s)
  | .fn _ => s
  | _ => mvResult p 0 (setReg .DMV_CH_CFG 0 ch (applyWrite .DMV_CH_CFG old v) s)

/-- Does a job under way use a window: one of its DEVICE addresses names it (R374, R384)? -/
def winInUse (s : State) (w : Nat) : Bool :=
  let names (e : BitVec 512) (k off : Nat) : Bool := mvDevice e k && bits (entryField e off 8) 63 56 == w
  s.dmv.chans.any (fun c => (c.2.jobs ++ c.2.flushing).any (fun j => names j.entry 0 8 || names j.entry 1 16 || names j.entry 2 24))

/-- A write of a window register (R374, R384): a PF's window is one whose OWNER lies in its range, and stays so. -/
def winWrite (p : Path) (r : Reg) (v : Word) (s : State) : State :=
  match winSelected s p with
  | none => s
  | some w =>
    let old := reg s r 0 w
    let new := applyWrite r old v
    let mine (o : Word) : Bool := match p with
      | .fn (.pf i) => inVportRange s i (fld o 11 0)
      | .fn _ => false
      | _ => true
    if !mine (reg s .DMV_WIN_OWNER 0 w) ∨ (r = .DMV_WIN_OWNER ∧ !mine new) then mvResult p 2 s
    else if r ≠ .DMV_WIN_OWNER ∧ new ≠ old ∧ winInUse s w then mvResult p 3 s
    else mvResult p 0 (setReg r 0 w new s)

/-- An ACTION on a mover channel (R381, R383, R384). -/
def mvAction (p : Path) (ch a : Nat) (s : State) : State :=
  match a with
  | 1 => mvChannelResume p ch s
  | 2 => mvChannelAbort p ch s
  | 3 => mvChannelStart p ch s
  | _ => s

/-- DMV registers that act (R384). Other writes of a PF end with NOT_OWNED; its selections are its own. -/
def dmvWrite (p : Path) (r : Reg) (i : Nat) (v : Word) (s : State) : State :=
  match r with
  | .DMV_CH_CFG => mvCfgWrite p v s
  | .DMV_CH_CTRL => mvAction p (mvSelected s p) (fld v 1 0) s
  | .DMV_WIN_BASE_LO | .DMV_WIN_BASE_HI | .DMV_WIN_SIZE | .DMV_WIN_OWNER => winWrite p r v s
  | .DMV_CH_DESC => if mayWrite s p r then plainReg p r i v s else mvResult p 2 s
  | _ => plainReg p r i v s

/-- SVC registers that act (R397, R407, R408), written by thread t where firmware writes them. -/
def svcWrite (p : Path) (t : Nat) (r : Reg) (i : Nat) (v : Word) (s : State) : State :=
  match p, r with
  | _, .SVC_CH_CFG => chCfgWrite p v s
  | .firmware, .SVC_DOMAIN_CTRL => (match fld v 1 0 with
    | 1 => domainRestart t s
    | 2 => freeHandles t s
    | _ => s)
  | .fn _, .SVC_DOMAIN_CTRL => s
  | _, .SVC_DOMAIN_CTRL => setReg .SVC_DOMAIN_STATUS 0 (pathCode p) (w32 (at_ 13 1)) s
  | .fn f, .MBX_H2F_CTRL => mbxSend f v s
  | _, .SVC_FMBX_CTRL => fmbxSend p v s
  | _, _ => plainReg p r i v s

/-- A write of AKZ_CFG: a port that is enabled begins to train, one that is disabled goes down (R411, R427). -/
def akzCfgWrite (p : Path) (v : Word) (s : State) : State :=
  let old := reg s .AKZ_CFG 0 0
  let s1 := plainReg p .AKZ_CFG 0 v s
  foldS (fun k s => if wbit old k = wbit (reg s .AKZ_CFG 0 0) k then s else if wbit old k then akzPortDown k s else akzBegin k s) [0, 1] s1

/-- The registers of VF BAR0 that act (R385). -/
def vfWrite (p : Path) (r : Reg) (i : Nat) (v : Word) (s : State) : State :=
  match p, r with
  | .fn (.vf k n), .VF_DMV_CTRL =>
    let ch := fld v 5 0
    mvAction p ch (if fld v 9 8 < 3 then fld v 9 8 else 0)
      (modDmv (fun d => { d with vfChan := mset 0 d.vfChan (fnCode (.vf k n)) ch }) s)
  | _, _ => plainReg p r i v s

/-- What an aligned write of instance i of a register does; LCS answers for itself. -/
def regStore (p : Path) (t : Nat) (r : Reg) (i : Nat) (v : Word) (s : State) : State :=
  match r.info.space with
  | .vf => vfWrite p r i v s
  | .block 0 => caiWrite p r i v s
  | .block 2 => hifWrite p r i v s
  | .block 3 => qmWrite p r i v s
  | .block 4 => macWrite p r i v s
  | .block 5 | .block 6 | .block 7 => parseWrite p r i v s
  | .block 8 => tmWrite p r i v s
  | .block 10 => stoWrite p r i v s
  | .block 11 => dmvWrite p r i v s
  | .block 12 => svcWrite p t r i v s
  | .block 13 => timWrite p r i v s
  | .block 14 => (match r with
    | .AKZ_CFG => akzCfgWrite p v s
    | .AKZ_CTRL => if wbit v 31 then akzForget p (fld v 2 0) s else s
    | _ => plainReg p r i v s)
  | .block _ => plainReg p r i v s

end Sys2Proof.Machine
end

