-- ==== Sys2Proof/Machine/AccessBlock.lean ====
section
/-!
DEFINITION. Accesses to the BARs by every path (R4 to R9, R14, R15, R17, R103, R125 to R127, R161, R344, R444, R470, R474), the LCS window
apart: reads and writes, the shadow of 64-bit quantities, read-clear, occurrence counts, and accesses held for a start or a pause. Offsets below 0x0200_0000 are BAR0's;
a PF's BAR2 and BAR4 stand at 0x0200_0000 and 0x0300_0000 (assumption 91).
-/
namespace Sys2Proof.Machine

/-! ### What an offset reaches -/

/-- Does a path reach an NVMe function's BARs (R344)? -/
def nvmePath (s : State) : Path → Bool
  | .fn f => isNvme s f
  | _ => false

/-- Does an access reach a block window of PF BAR0? -/
def windowed (s : State) (p : Path) (off : Nat) : Bool :=
  decide (off < 0x2000000) && !nvmePath s p && (match p with
    | .fn f => !isVf f
    | _ => true)

/-- The window header and the rest of the first 256 bytes, which the Cairn domain serves (R13). -/
def headerAccess (s : State) (p : Path) (off : Nat) : Bool := windowed s p off && decide (off % 0x200000 < 0x100)

/-- The block that answers an access: a window's; behind the other BARs, the block whose registers or doorbells stand there. -/
def accessBlk (s : State) (p : Path) (off : Nat) : Nat :=
  if windowed s p off then off / 0x200000
  else if nvmePath s p then (if off < 0x4000 then 10 else 2)
  else match p with
  | .fn (.vf _ _) =>
    if 0x200 ≤ off ∧ off < 0x228 ∨ 0x4000 ≤ off ∧ off < 0x8000 then 3
    else if 0x300 ≤ off ∧ off < 0x308 then 11 else if 0x400 ≤ off ∧ off < 0x490 then 12 else 2
  | _ => if off < 0x3000000 then 3 else 2

/-- The register at an offset of a path's BAR0, with its index. -/
def regAt (p : Path) (off : Nat) : Option (Reg × Nat) :=
  match p with
  | .fn (.vf _ _) => vfRegAt off
  | _ => pfRegAt off

/-- Is a register the low word of a 64-bit quantity (R5)? -/
def lowWord (r : Reg) (i : Nat) : Bool :=
  match r with
  | .TIM_SNAP_SEC_LO | .TIM_LEAP_AT_LO | .TIM_PF_PAGE_LO | .TIM_REF_LAST_OFFSET_LO | .TIM_MANUAL_TIME_LO | .CAI_WAKE_AT_LO | .TIM_VF_PAGE_LO
  | .QM_Q_BASE_LO | .HIF_VF_IMG_LO | .HIF_VF_LOG_A_LO | .HIF_VF_LOG_B_LO | .HIF_VF_LOG_IOVA_LO | .MAC_LP_SA_LO | .MAC_LP_SNAP_TIME_LO | .MGT_SA_LO
  | .PRS_LOAD_ADDR_LO | .MAC_GATE_ADMIN_BASE_LO | .MAC_GATE_CHANGE_TIME_LO | .MAC_GATE_OPER_BASE_LO | .DMV_CH_FAIL_ADDR_LO | .DMV_WIN_BASE_LO
  | .AKZ_MEMBER_SERIAL_LO => true
  | .MAC_LP_STAT => i % 2 == 0
  | _ => false

/-! ### Occurrence counts (R444) -/

/-- Two counts as one word; the read clears both. -/
def occTake (lo hi : Nat) (s : State) : Word × State :=
  (w32 (mget 0 s.occ lo + at_ 16 (mget 0 s.occ hi)), { s with occ := mdel (mdel s.occ lo) hi })

/-- The holder of the counts of the register at an offset of a block's window, as a path sees them. -/
def occHolder (p : Path) (blk off : Nat) : Option Nat :=
  match pfRegAt (0x200000 * blk + off) with
  | some (r, _) =>
    if r.info.held = .function then (match p with
      | .fn f => some (fnCode f)
      | _ => none)
    else some 0
  | none => none

/-- A read of the counts of a bit and the next one, of the register at an offset of a block's window. -/
def occPart (p : Path) (blk off bit : Nat) (s : State) : Word × State :=
  match occHolder p blk off with
  | some h => occTake (occKey blk off bit h) (occKey blk off (bit + 1) h) s
  | none => (0, s)

/-- A read of the region at REL offset 0x10_0000 + rel. -/
def occRegion (p : Path) (rel : Nat) (s : State) : Word × State :=
  occPart p (rel / 0x10000) (0x100 + rel % 0x10000 / 0x40 * 4) (rel % 0x10000 % 0x40 / 2) s

/-- Bits of a function's Status, and of its AER registers in the order of R146: uncorrectable errors first; 32 and above are correctable. -/
def cfgOccBits : List Nat := [8, 11, 12, 13, 14, 15]
def aerOccBits : List Nat := [4, 12, 13, 14, 16, 17, 18, 20, 32, 38, 39, 40, 44, 45, 47]

/-- The key of an occurrence count of configuration space: Status bits stand 64 above the AER bits. -/
def cfgOccKey (bit h : Nat) : Nat := (0x200000 + bit) * 2 ^ 16 + h

/-- Word k of a function's configuration counts: Status first, and then AER for a PF. -/
def cfgOcc (f : Fn) (k : Nat) (s : State) : Word × State :=
  let all := if k < 3 then cfgOccBits.map (· + 64) else aerOccBits
  let j := if k < 3 then k else k - 4
  match all[2 * j]?, all[2 * j + 1]? with
  | some a, some b => occTake (cfgOccKey a (fnCode f)) (cfgOccKey b (fnCode f)) s
  | some a, none => occTake (cfgOccKey a (fnCode f)) (cfgOccKey 63 (fnCode f)) s
  | _, _ => (0, s)

/-! ### Reads of registers (R5, R7, R9) -/

/-- What a read shows of a register, and the register's RC fields cleared by it (R7, R9). -/
def takeReg (p : Path) (r : Reg) (i : Nat) (s : State) : Word × State :=
  match p, r with
  | .fn f, .MBX_F2H_POP => if f = .fw then (0, s) else mbxPop f s
  | _, _ =>
    let v := readMask r (w32 (regNow s p r i))
    let rc := r.accMask (· == .rc)
    if rc = 0 then (v, s)
    else match regPlace s p r i with
    | some (j, h) => (v, setReg r j h (reg s r j h &&& ~~~ rc) s)
    | none => (v, s)

/-- The key of a shadow. -/
def shadowKey (p : Path) (off : Nat) : Nat := pathCode p * 2 ^ 26 + off

/-- A read of a register: a low word captures its high word, and a high word that a shadow holds is read from it (R5). -/
def readReg (p : Path) (off : Nat) (s : State) : Word × State :=
  match regAt p off with
  | none => (0, s)
  | some (r, i) =>
    match mfind s.shadow (shadowKey p off) with
    | some v => (v, { s with shadow := mdel s.shadow (shadowKey p off) })
    | none =>
      let x := takeReg p r i s
      if lowWord r i then
        let hi : Word := match regAt p (off + 4) with
          | some (r', i') => readMask r' (w32 (regNow s p r' i'))
          | none => 0
        (x.1, { x.2 with shadow := mput x.2.shadow (shadowKey p (off + 4)) hi })
      else x

/-! ### Doorbells, MSI-X tables and NVMe properties as words (R123, R125, R161, R345) -/

/-- A 4-byte read of a doorbell: COUNTER and ARM, or DEVICE_COUNTER (R161). -/
def doorbellWord (s : State) (f : Fn) (q : Nat) (high : Bool) : Word :=
  let u := queue s f q
  if !ownsQueue s f q then 0
  else if high then w32 (if qKind f q = some .sq then u.c.toNat else u.p.toNat)
  else w32 (u.counter.toNat + at_ 16 (b2n u.armed))

/-- The doorbell of queue q, as an offset of its function's BARs (R125, R156). -/
def doorbellBar (f : Fn) (q : Nat) : Nat := if isVf f then 0x4000 + 8 * q else 0x2000000 + 8 * q

/-- A dword of an MSI-X table, and of the PBA. -/
def msixWord (s : State) (f : Fn) (o : Nat) : Word :=
  if o / 16 < vectorsOf s f then w32 (msixEntry s f (o / 16) / 2 ^ (32 * (o % 16 / 4))) else 0
def pbaWord (s : State) (f : Fn) (o : Nat) : Word :=
  w32 ((List.range 32).foldl (fun m k => m + at_ k (b2n ((fnSt s f).pba.contains (8 * o + k)))) 0)

/-- A dword of an MSI-X table entry, as an offset of its function's BARs (R123, R125). -/
def msixBar (f : Fn) (n part : Nat) : Nat := (if isVf f then 0x8000 else 0x3000000) + 16 * n + 4 * part

/-- The controller properties (R345). -/
def nvProperty (x : Nvme) (off : Nat) : Word :=
  match off with
  | 0x00 => 0x02010FFF
  | 0x04 => 0x00400020
  | 0x08 => 0x00020000
  | 0x14 => w32 x.cc
  | 0x1C => w32 (nvCsts x)
  | 0x24 => w32 x.aqa
  | 0x28 => w32 x.asq
  | 0x2C => w32 (x.asq / 2 ^ 32)
  | 0x30 => w32 x.acq
  | 0x34 => w32 (x.acq / 2 ^ 32)
  | _ => 0

/-- A read of a controller property: the low word of a 64-bit one captures its high word, which the next read of that returns (R5, R345). -/
def nvPropertyRead (f : Fn) (off : Nat) (s : State) : Word × State :=
  let x := nvme s f
  match mfind s.shadow (shadowKey (.fn f) off) with
  | some v => (v, { s with shadow := mdel s.shadow (shadowKey (.fn f) off) })
  | none =>
    if off = 0 ∨ off = 0x28 ∨ off = 0x30 then
      (nvProperty x off, { s with shadow := mput s.shadow (shadowKey (.fn f) (off + 4)) (nvProperty x (off + 4)) })
    else (nvProperty x off, s)

/-- A write of CC (R346): EN enables or disables the controller, SHN begins a shutdown. -/
def ccWrite (f : Fn) (v : Nat) (s : State) : State :=
  let old := (nvme s f).cc
  let store (s : State) : State := modNvme f (fun x => { x with cc := ccFields v + x.cc % 2 }) s
  if bitOf old 0 then
    (if !bitOf v 0 then store (nvDisable f s)
     else if bits v 15 14 ≠ 0 then shutdown f (store s) else store s)
  else if bitOf v 0 then ccEnable f v (store s) else store s

/-- A write of a controller property or of an NVMe doorbell (R344, R345). -/
def nvWrite (f : Fn) (off : Nat) (v : Word) (s : State) : State :=
  let n := v.toNat
  let low (old new : Nat) : Nat := old / 2 ^ 32 * 2 ^ 32 + new / 4096 * 4096
  let high (old new : Nat) : Nat := old % 2 ^ 32 + new * 2 ^ 32
  match off with
  | 0x14 => ccWrite f n s
  | 0x24 => modNvme f (fun x => { x with aqa := n &&& 0x0FFF0FFF }) s
  | 0x28 => modNvme f (fun x => { x with asq := low x.asq n }) s
  | 0x2C => modNvme f (fun x => { x with asq := high x.asq n }) s
  | 0x30 => modNvme f (fun x => { x with acq := low x.acq n }) s
  | 0x34 => modNvme f (fun x => { x with acq := high x.acq n }) s
  | _ =>
    if off < 0x1000 ∨ 0x4000 ≤ off then s
    else if off % 8 = 0 then nvSqTail f ((off - 0x1000) / 8) n s
    else nvCqHead f ((off - 0x1000) / 8) n s

/-! ### Reads and writes that complete -/

/-- What a debug session may do: everything with SCAN; with TRACE, reads of the REL window and of the traceability record (R455, R470). -/
def debugReaches (s : State) (off : Nat) (write : Bool) : Bool :=
  debugGrants s 3 || (debugGrants s 0 && !write && (off / 0x200000 == 15 || decide (0x1A00700 ≤ off ∧ off < 0x1A00880)))

/-- A read of a PF BAR0 window that its block answers. -/
def readWindow (p : Path) (off : Nat) (s : State) : Word × State :=
  let blk := off / 0x200000
  let o := off % 0x200000
  if o = 0 then (reg s .BLOCK_ID blk 0, s)
  else if o = 4 then (domainWord s p blk, clearWakes p blk s)
  else if blk = 15 ∧ 0x100000 ≤ o then occRegion p (o - 0x100000) s
  else if blk = 2 ∧ 0x800 ≤ o ∧ o < 0x830 then (match p with
    | .fn (.pf i) => cfgOcc (.pf i) ((o - 0x800) / 4) s
    | _ => (0, s))
  else readReg p off s

/-- A read of a VF's BAR0 (R474). -/
def readVf (f : Fn) (off : Nat) (s : State) : Word × State :=
  if 0x8000 ≤ off then (if off < 0xC000 then msixWord s f (off - 0x8000) else pbaWord s f (off - 0xC000), s)
  else if 0x4000 ≤ off then (doorbellWord s f ((off - 0x4000) / 8) (off % 8 == 4), s)
  else if off = 0x480 then occTake (occKey 0xC 0x13C 2 (fnCode f)) (occKey 0xC 0x13C 3 (fnCode f)) s
  else if 0x484 ≤ off ∧ off < 0x490 then cfgOcc f ((off - 0x484) / 4) s
  else readReg (.fn f) off s

/-- A read that a function's BARs answer. -/
def readFn (f : Fn) (off : Nat) (s : State) : Word × State :=
  if 0x3000000 ≤ off then
    (if off < 0x3008000 then msixWord s f (off - 0x3000000) else if off < 0x3010000 then pbaWord s f (off - 0x3008000) else 0, s)
  else if isNvme s f then
    (if off < 0x1000 then nvPropertyRead f off s
     else if isVf f ∧ 0x8000 ≤ off then (if off < 0xC000 then msixWord s f (off - 0x8000) else pbaWord s f (off - 0xC000), s)
     else (0, s))
  else if isVf f then readVf f off s
  else if 0x2000000 ≤ off then (doorbellWord s f ((off - 0x2000000) / 8) (off % 8 == 4), s)
  else readWindow (.fn f) off s

/-- A read that completes. -/
def readBlock (p : Path) (off : Nat) (s : State) : Word × State :=
  match p with
  | .fn f => readFn f off s
  | .debug => if debugReaches s off false then readWindow p off s else (0, s)
  | _ => readWindow p off s

/-- A write of a PF BAR0 window that its block takes. -/
def writeWindow (p : Path) (t off : Nat) (v : Word) (s : State) : State :=
  if off % 0x200000 = 4 then writeKeepAwake p (off / 0x200000) v s
  else match regAt p off with
  | some (r, i) => regStore p t r i v s
  | none => s

/-- A 4-byte write of a doorbell: of its low word it acts, of its high word it is rejected (R161); where the function owns no such queue
there is no doorbell, and the write is ignored (R125). -/
def doorbellWord32 (f : Fn) (q : Nat) (high : Bool) (off : Nat) (v : Word) (s : State) : State :=
  if !high then doorbellTaken f q (v.zeroExtend 64) s
  else if ownsQueue s f q then accessError f off true s else s

/-- A write of a dword of an MSI-X table (R126, R176). -/
def msixWordWrite (f : Fn) (o : Nat) (v : Word) (s : State) : State := msixChange f (.entry (o / 16) (o % 16 / 4) v) s

/-- A write that a function's BARs take. -/
def writeFn (f : Fn) (off : Nat) (v : Word) (s : State) : State :=
  if 0x3000000 ≤ off then (if off < 0x3008000 then msixWordWrite f (off - 0x3000000) v s else s)
  else if isNvme s f then
    (if isVf f ∧ 0x8000 ≤ off then (if off < 0xC000 then msixWordWrite f (off - 0x8000) v s else s) else nvWrite f off v s)
  else if isVf f then
    (if 0x8000 ≤ off then (if off < 0xC000 then msixWordWrite f (off - 0x8000) v s else s)
     else if 0x4000 ≤ off then doorbellWord32 f ((off - 0x4000) / 8) (off % 8 == 4) off v s
     else match regAt (.fn f) off with
     | some (r, i) => regStore (.fn f) 0 r i v s
     | none => s)
  else if 0x2000000 ≤ off then
    (if (qKind f ((off - 0x2000000) / 8)).isSome then doorbellWord32 f ((off - 0x2000000) / 8) (off % 8 == 4) (off - 0x2000000) v s else s)
  else writeWindow (.fn f) 0 off v s

/-- A write that completes. -/
def writeBlock (p : Path) (t off : Nat) (v : Word) (s : State) : State :=
  match p with
  | .fn f => writeFn f off v s
  | .debug => if debugReaches s off true then writeWindow p t off v s else s
  | _ => writeWindow p t off v s

/-! ### Aligned 8-byte accesses (R126, R161) -/

/-- Does an offset lie in a function's MSI-X table or PBA (R123, R125)? -/
def msixSpace (f : Fn) (off : Nat) : Bool :=
  if isVf f then decide (0x8000 ≤ off ∧ off < 0x10000) else decide (0x3000000 ≤ off ∧ off < 0x3010000)

/-- The queue whose doorbell an offset of a function's BARs lies in (R125, R156). -/
def doorbellAt (s : State) (f : Fn) (off : Nat) : Option Nat :=
  let q := if isVf f then (off - 0x4000) / 8 else (off - 0x2000000) / 8
  let inside : Bool := if isVf f then decide (0x4000 ≤ off ∧ off < 0x8000) else decide (0x2000000 ≤ off ∧ off < 0x3000000)
  if inside && !isNvme s f && ownsQueue s f q then some q else none

/-- Is an aligned 8-byte access honoured at an offset: a doorbell, an MSI-X table or a PBA? -/
def wideHonoured (s : State) (p : Path) (off : Nat) : Bool :=
  match p with
  | .fn f => off % 8 == 0 && (msixSpace f off || (doorbellAt s f off).isSome)
  | _ => false

/-- Does an offset lie in the part of a PF's BAR2 that holds no doorbell, which reads 0 and ignores writes (R125, R344)? -/
def bar2Rest (s : State) (p : Path) (off : Nat) : Bool :=
  match p with
  | .fn f => !isVf f && decide (0x2000000 ≤ off ∧ off < 0x3000000) && (doorbellAt s f off).isNone
  | _ => false

/-- An aligned 8-byte write that its block takes: a doorbell whole, or the two words of an MSI-X table entry. -/
def writeBlockWide (p : Path) (off : Nat) (v : BitVec 64) (s : State) : State :=
  match p with
  | .fn f => match doorbellAt s f off with
    | some q => doorbellTaken f q v s
    | none => writeFn f (off + 4) (w32 (v.toNat / 2 ^ 32)) (writeFn f off (w32 v.toNat) s)
  | _ => s

/-! ### Accesses held for a start or a pause (R15, R17, R80, R103, R127) -/

/-- Does a Col pause hold the access: a PF's, to a window other than those of CAI, LCS and TIM? -/
def pauseHolds (s : State) (p : Path) (off : Nat) : Bool :=
  s.cai.mode == .pause && windowed s p off && (match p with
    | .fn _ => true
    | _ => false)

/-- The Cairn windows and the window headers answer at once, whatever is held (R13, R103). -/
def neverHeld (s : State) (p : Path) (off : Nat) : Bool := headerAccess s p off || (windowed s p off && cairnBlock (accessBlk s p off))

/-- Is an access held by itself: its block does not run, or a pause holds it? One of a block whose start has failed for good is not (R80). -/
def heldHere (s : State) (p : Path) (off : Nat) : Bool :=
  !blockDead s p (accessBlk s p off) && (blockState s p (accessBlk s p off) != .running || pauseHolds s p off)

/-- Does an access wait behind a held one of its path (R15, R127): one to the same block, any one that a pause holds, and for a VF any? A PF's
access to a block that runs is not held behind the start of another (R15). -/
def heldBehind (s : State) (p : Path) (off : Nat) (h : HeldAccess) : Bool :=
  h.path == p && (accessBlk s p off == accessBlk s h.path h.off || pauseHolds s h.path h.off || (match p with
    | .fn f => isVf f
    | _ => false))

/-- Must an access wait? -/
def accessWaits (s : State) (p : Path) (off : Nat) : Bool :=
  !neverHeld s p off && (heldHere s p off || s.cai.heldAccesses.any (heldBehind s p off))

/-- An access joins those that are held, and its block starts (R15). -/
def holdAccess (h : HeldAccess) (s : State) : State :=
  wakeBlock h.path (accessBlk s h.path h.off) (modCai (fun c => { c with heldAccesses := c.heldAccesses ++ [h] }) s)

/-- An access that completes is work for its block; one of a block whose start failed for good reads ones and writes nothing (R15, R80). -/
def completeRead (p : Path) (off : Nat) (s : State) : Word × State :=
  if headerAccess s p off then readBlock p off s
  else if blockDead s p (accessBlk s p off) then (0xFFFFFFFF, s)
  else readBlock p off (wakeBlock p (accessBlk s p off) s)

/-- An access completes: a read's value leaves the block. -/
def completeAccess (h : HeldAccess) (s : State) : State :=
  let p := h.path
  let blk := accessBlk s p h.off
  let dead := !headerAccess s p h.off && blockDead s p blk
  let work (s : State) : State := if headerAccess s p h.off then s else wakeBlock p blk s
  match h.kind with
  | .read => let r := completeRead p h.off s; emit (.readData p h.off r.1) r.2
  | .readWide =>
    let lo := completeRead p h.off s
    let hi := completeRead p (h.off + 4) lo.2
    emit (.readWide p h.off (hi.1 ++ lo.1)) hi.2
  | .write v => if dead then s else writeBlock p h.thread h.off v (work s)
  | .writeWide v => if dead then s else writeBlockWide p h.off v (work s)

/-- A held access completes where nothing holds it any more, and waits on otherwise. -/
def releaseOne (h : HeldAccess) (s : State) : State :=
  if accessWaits s h.path h.off then modCai (fun c => { c with heldAccesses := c.heldAccesses ++ [h] }) s else completeAccess h s

/-- The held accesses whose block runs, or whose pause has ended, complete in the order in which they arrived (R15, R103, R127). -/
def releaseHolds (s : State) : State := foldS releaseOne s.cai.heldAccesses (modCai (fun c => { c with heldAccesses := [] }) s)

/-! ### The power manager's commands -/

/-- DOMAIN_STOP (R78). -/
def execDomainStop (u : DUnit) (s : State) : Outcome := .next (beginStop u s)

/-- DOMAIN_GATED (R79). -/
def execDomainGated (u : DUnit) (s : State) : Outcome := .next (endStop u s)

/-- DOMAIN_START_DONE (R17, R79, R80): the work that was held is released. -/
def execDomainStartDone (u : DUnit) (passed : Bool) (s : State) : Outcome := .next (releaseHolds (endStart u passed s))

end Sys2Proof.Machine
end

