-- ==== Sys2Proof/Machine/Lcs.lean ====
section
/-!
DEFINITION. The commands of lifecycle_and_update: tokens and debug sessions, staging, the activation of a chain, commit and rollback.
-/
namespace Sys2Proof.Machine

/-! ### Tokens (R449, R453 to R455) -/

/-- The permissions that a state lets a token grant: none in SPENT, SCAN in MAKER and RETURNED only, TRACE alone in FIELD (R448, R455). -/
def permsAllowed (life : Nat) : Nat :=
  match life with
  | 0 | 3 => 15
  | 1 => 7
  | 2 => 1
  | _ => 0

/-- Is the form of a token right (R453, R454 step 1)? -/
def tokenFormOk (t : Bytes) : Bool :=
  let kind := byteAt t 4
  let fills := kind == 2 && byteAt t 5 == 1
  leAt t 0 4 == 0x5A4E544B && (kind == 1 || kind == 2) && (if kind = 1 then byteAt t 5 == 0 else decide (byteAt t 5 < 5))
    && decide (byteAt t 6 < 2) && byteAt t 7 == 0 && zeroAt t 88 72
    && (if kind = 1 then decide (leAt t 32 4 < 16 ∧ 1 ≤ leAt t 36 4 ∧ leAt t 36 4 ≤ 86400) else zeroAt t 32 8)
    && (fills || zeroAt t 40 48)

/-- The fused hash that SIGNER names (R454 step 4). -/
def signerHash (s : State) (signer : Nat) : Option Bytes := if signer = 0 then some Config.makerKeyHash else s.lcs.owners.getLast?

/-- May a token of this kind, target, signer and permissions act in the state: 0, NOT_PERMITTED or NO_OWNER_SLOT (R448, R449)? -/
def tokenAllowed (s : State) (t : Bytes) : Nat :=
  let life := s.lcs.life
  let signer := byteAt t 6
  if byteAt t 4 = 1 then
    let who := life == 0 || ((life == 1 || life == 2) && signer == 1) || (life == 3 && signer == 0)
    if who ∧ leAt t 32 4 &&& permsAllowed life = leAt t 32 4 then 0 else 6
  else match life, byteAt t 5 with
  | 0, 1 => 0
  | 1, 2 => if signer = 1 then 0 else 6
  | 1, 3 => if signer = 1 then 0 else 6
  | 2, 3 => if signer = 1 then 0 else 6
  | 1, 4 => if signer = 1 then 0 else 6
  | 2, 4 => if signer = 1 then 0 else 6
  | 3, 1 => if signer ≠ 0 then 6 else if 4 ≤ s.lcs.owners.length then 7 else 0
  | 3, 4 => if signer = 0 then 0 else 6
  | _, _ => 6

/-- The RESULT of a token: the first step of R454 that fails, 0 where it is accepted. -/
def judgeToken (s : State) (t : Bytes) : Nat :=
  let maker := s.lcs.life == 0
  let key := slice t 160 96
  if !tokenFormOk t then 1
  else if leAt t 8 16 ≠ Config.serial % 2 ^ 128 then 2
  else if s.lcs.nonce ≠ some (leAt t 24 8) then 3
  else if !maker && signerHash s (byteAt t 6) != some (sha384 key) then 4
  else if !maker && !sigOk key (sha384 (t.take 256)) (slice t 256 96) then 5
  else tokenAllowed s t

/-- Every TDISP interface in CONFIG_LOCKED or RUN moves to ERROR (R455). -/
def allTdiError (s : State) : State := foldS (fun (e : Nat × FnSt) s => tdiError (fnOf e.1) s) s.hif.fns s

/-- An accepted DEBUG token opens a session, which replaces an open one (R455). -/
def openDebug (t : Bytes) (s : State) : State :=
  let perms := leAt t 32 4
  let s1 := if 2 ≤ perms then allTdiError s else s
  lcsEvent 0x03 perms (modLcs (fun l => { l with session := some { perms := perms, endAt := s.elapsed + leAt t 36 4 * 1000000000 } }) s1)

/-- An accepted TRANSITION token (R449, R450). -/
def transition (t : Bytes) (s : State) : State :=
  let dest := byteAt t 5
  if dest = 3 ∨ (dest = 4 ∧ s.lcs.life ≠ 3) then
    let s1 := modLcs (fun l => { l with returnPending := true, returnTo := dest }) s
    (restartDevice s1).getD s1
  else
    let fill := if dest = 1 then [slice t 40 48] else []
    let s1 := lcsEvent 0x05 dest (closeDebug (modLcs (fun l => { l with life := dest, owners := l.owners ++ fill }) s))
    if dest = 4 then (restartDevice s1).getD s1 else s1

/-- A token is submitted on a path: it consumes the nonce, and its RESULT shows there (R454). -/
def tokenSubmit (p : Path) (s : State) : State :=
  if !mayWrite s p .LCS_TOKEN_CTRL ∨ s.lcs.life = 4 then s
  else
    let t := ((List.range 88).map (fun i => leBytes 4 (reg s .LCS_TOKEN_BUF i (pathCode p)).toNat)).flatten
    let r := judgeToken s t
    let s1 := setReg .LCS_TOKEN_STATUS 0 (pathCode p) (w32 r) (modLcs (fun l => { l with nonce := none }) s)
    if r ≠ 0 then lcsEvent 0x02 r s1
    else
      let s2 := lcsEvent 0x01 (byteAt t 4) s1
      if byteAt t 4 = 1 then openDebug t s2 else transition t s2

/-- DEBUG_END (R455). -/
def debugEnd (p : Path) (s : State) : State := if mayWrite s p .LCS_TOKEN_CTRL ∧ s.lcs.life ≠ 4 then closeDebug s else s

/-- NONCE_READ (R5, R454): a fresh nonce, the low word read and the high word held for the path; VFs have no access (R467), and in SPENT the
register does not answer. -/
def nonceRead (p : Path) (s : State) : Word × State :=
  match p with
  | .fn (.vf _ _) | .fn .fw => (0, s)
  | _ =>
    if s.lcs.life = 4 then (0, s)
    else
      let v := takeFree s
      let n := v.1 % 2 ^ 64
      (w32 n, { modLcs (fun l => { l with nonce := some n, nonceShown := n }) v.2 with
        shadow := mput v.2.shadow (pathCode p * 2 ^ 26 + 0x20011C) (w32 (n / 2 ^ 32)) })

/-- DEBUG_EXPIRY (R455): DURATION seconds on the Cairn clock. -/
def execDebugExpiry (s : State) : Outcome :=
  match s.lcs.session with
  | some d => .next (closeDebug (advanceTo d.endAt s))
  | none => .next s

/-! ### Staging (R459) -/

/-- Is a function PF0 of a half in use (R459)? -/
def fnPf0 (s : State) : Fn → Bool
  | .pf i => isPf0 s i
  | _ => false

/-- MBX_STAGE (R458, R459): the image as it was read from the requester's memory, len bytes from addr. -/
def execMbxStage (f : Fn) (addr len : Nat) (image : HostRead) (s : State) : Outcome :=
  if !firmwareUp s ∨ !(fnSt s f).ready then .next s
  else if !fnPf0 s f ∨ !isMaster s then .next (mbxReply f 1 0x05 [] s)
  else .next (withRead f addr image (fun s => match image with
    | .data bs => let r := stageImage (slice bs 0 len) s; mbxReply f 1 r.1 [] r.2
    | e => mbxReply f 1 (hostReadStatus e) [] s) s)

/-- MBX_QUERY (R459). -/
def execMbxQuery (f : Fn) (s : State) : Outcome :=
  if !firmwareUp s ∨ !(fnSt s f).ready then .next s
  else if !fnPf0 s f then .next (mbxReply f 5 0x05 [] s)
  else
    let staged := (s.lcs.staged.map fwVersion).getD 0
    .next (mbxReply f 5 0 (leBytes 1 s.lcs.active ++ leBytes 1 (b2n s.lcs.staged.isSome + 2 * b2n s.lcs.committed) ++ leBytes 4 0
      ++ leBytes 4 (fwVersion s.lcs.running) ++ leBytes 4 staged ++ leBytes 1 s.lcs.svnFloor) s)

/-! ### Activation of the chain (R460 to R464) -/

/-- Firmware starts from the image of a bank in HBM, every thread having ended and every domain's EPOCH having moved on (R462), so that what was
owed to work of the domains is no longer sent (R407). -/
def switchThreads (bank : Nat) (bs : Bytes) (s : State) : State :=
  let s1 := killThreads (fun _ _ => true) s
  let moved (m : NMap Domain) : NMap Domain := (List.range 64).foldl (fun m d => mmod {} m d (fun x => { x with epoch := (x.epoch + 1) % 65536 })) m
  let s2 := modSvc (fun v => { v with
    domains := moved v.domains, deferred := v.deferred.filter (fun e => !owedTo e.2.domain (domEpoch s e.2.domain) e.2) }) s1
  startFirmware (devBase + Config.imageBase bank + leAt bs 36 4) (devWrite (Config.imageBase bank) bs s2)

/-- The PRS image of a firmware image, where it embeds one (R253, R462). -/
def loadPrsOf (bs : Bytes) (s : State) : State :=
  let prs := embeddedPrs bs
  if prs.isEmpty then s else modPrs (fun p => { p with image := prsImageOf prs, loaded := true }) s

/-- The image of the other bank: the staged one, or at a rollback the one that ran before. -/
def otherImage (rollback : Bool) (s : State) : Option Bytes := if rollback then bankOf s (1 - s.lcs.active) else s.lcs.staged

/-- PAUSE is entered and the new image starts (R462 steps 1 to 3); none where the mode or the images do not allow it. -/
def enterSwitch (rollback fromMaster : Bool) (s : State) : Option State :=
  match s.cai.mode, otherImage rollback s with
  | .service, some bs | .spared, some bs =>
    if rollback && s.lcs.committed then none
    else
      let b := 1 - s.lcs.active
      let s1 := setMode .pause s
      some (switchThreads b bs (modLcs (fun l => { l with
        switch_ := some { entered := s.elapsed, bank := b, rollback := rollback, fromMaster := fromMaster } }) s1))
  | _, _ => none

/-- The next member of the chain switches: another gets ACTIVATE in a LIFECYCLE frame, the master switches last (R461). -/
def chainNext (s : State) : State :=
  match s.lcs.chain with
  | none => s
  | some c => match c.left with
    | [] => chainDone c.rollback 0 s
    | m :: _ =>
      if m = s.akz.member ∨ !s.akz.joined then (enterSwitch c.rollback false s).getD (chainDone c.rollback 0x20 s)
      else sendTo m (leBytes 1 2 ++ leBytes 1 (b2n c.rollback)) s

/-- Every other member has reported SUCCESS for the staged image (R460). -/
def allVerified (s : State) : Bool := (maskBits s.akz.members).all (fun m => m == s.akz.member || mfind s.lcs.memberResults m == some 0)

/-- The members that switch, in descending order with the master last (R461). -/
def switchOrder (s : State) : List Nat :=
  if s.akz.joined then ((maskBits s.akz.members).filter (· != s.akz.member)).reverse ++ [s.akz.member] else [0]

/-- Who asks: a PF through its mailbox, which must be PF0 of a half, or firmware by LCS_FW_CTRL or for PLDM (R459, R467). -/
def actionAsker (s : State) : Path → Option (Option Fn)
  | .fn (.pf i) => if pfEnabled s i then some (some (.pf i)) else none
  | .firmware | .mgmt | .debug => some none
  | _ => none

/-- An action of an asker ends with a status: RESULT shows it, and a mailbox request is answered. -/
def answerAction (who : Option Fn) (op status : Nat) (s : State) : State :=
  let s1 := modLcs (fun l => { l with result := status }) s
  match who with
  | some f => mbxReply f op status [] s1
  | none => s1

/-- May an asker act at all (R459)? -/
def askerOk (s : State) (who : Option Fn) : Bool :=
  match who with
  | some f => fnPf0 s f
  | none => true

/-- ACTIVATE (R460, R461); in a mode that does not list it, it also sets REQ_REFUSED (R96). -/
def activate (p : Path) (s : State) : State :=
  match actionAsker s p with
  | none => s
  | some who =>
    let mode := s.cai.mode == .service || s.cai.mode == .spared
    if askerOk s who && mode && isMaster s && chainWhole s && s.lcs.staged.isSome && allVerified s && s.lcs.committed && s.lcs.chain.isNone then
      chainNext (modLcs (fun l => { l with chain := some { left := switchOrder s }, replyTo := who }) s)
    else answerAction who 2 0x05 (if mode then s else refuseRequest s)

/-- MEMBER_SWITCH (R461, R462): a member receives ACTIVATE, or the same for a ROLLBACK, from the master. -/
def execMemberSwitch (rollback : Bool) (s : State) : Outcome :=
  if isMaster s ∨ s.lcs.switch_.isSome then .next s
  else match enterSwitch rollback true s with
  | some t => .next t
  | none => match s.akz.master with
    | some m => .next (sendTo m (leBytes 1 4 ++ leBytes 1 s.akz.member) s)
    | none => .next s

/-- A switch has ended on this device: PAUSE ends, held accesses complete, and the master or the asker hears of it (R461, R462). -/
def switchEnds (w : Switch) (reverted : Bool) (s : State) : State :=
  let s1 := releaseHolds (releaseAkz (endPause (modLcs (fun l => { l with switch_ := none }) s)))
  if w.fromMaster then
    match s.akz.master with
    | some m => sendTo m (leBytes 1 (if reverted then 4 else 3) ++ leBytes 1 s.akz.member) s1
    | none => s1
  else if s.lcs.chain.isSome then chainDone w.rollback (if reverted then 0x20 else 0) s1
  else s1

/-- SWITCHED (R462, R463, R464, R466): firmware writes it in time. -/
def switched (p : Path) (s : State) : State :=
  match s.lcs.switch_, s.cai.mode with
  | some w, .pause =>
    if !mayWrite s p .LCS_FW_CTRL ∨ w.entered + 2500000 < s.elapsed then s
    else
      let bs := (otherImage w.rollback s).getD []
      let s1 := loadPrsOf bs (migrateSettings bs w.bank s)
      let s2 := modLcs (fun l => { l with
        active := w.bank, committed := w.rollback, running := bs, staged := none, memberResults := [],
        dirPending := some (s.elapsed + 100000000), switchedAt := s.elapsed }) s1
      switchEnds w false (lcsEvent (if w.rollback then 0x09 else 0x06) w.bank s2)
  | _, _ => s

/-- SWITCHED_REPLY (R461): a member's reply reaches the master, which goes on or stops. -/
def execSwitchedReply (member : Nat) (reverted : Bool) (s : State) : Outcome :=
  match s.lcs.chain with
  | none => .next s
  | some c =>
    if c.left.head? ≠ some member then .next s
    else if reverted then .next (chainDone c.rollback 0x20 s)
    else .next (chainNext (modLcs (fun l => { l with chain := some { c with left := c.left.drop 1 } }) s))

/-- ACTIVATE_REVERTED (R462): 2.5 ms after entry SWITCHED has not been written; the old image, its PRS image and its settings return. DETAIL
is the bank that runs again. -/
def execActivateReverted (s : State) : Outcome :=
  match s.lcs.switch_, s.cai.mode with
  | some w, .pause =>
    let s1 := advanceTo (w.entered + 2500000) s
    let s2 := loadPrsOf s.lcs.running (switchThreads s.lcs.active s.lcs.running s1)
    .next (switchEnds w true (lcsEvent 0x07 s.lcs.active s2))
  | _, _ => .next s

/-- DIR_WRITTEN (R456, R463): within 100 ms of SWITCHED the older copy of the directory is written with SEQ + 1. -/
def execDirWritten (s : State) : Outcome :=
  if s.lcs.dirPending.isNone then .next s
  else
    .next (modLcs (fun l => { l with dirPending := none }) (writeDir s.lcs.active s.lcs.committed s))

/-- Has a ROLLBACK begun (R464)? -/
def rollingBack (s : State) : Bool :=
  (match s.lcs.chain with
   | some c => c.rollback
   | none => false) || (match s.lcs.switch_ with
   | some w => w.rollback
   | none => false)

/-- COMMIT takes effect (R464): the SVN floor rises, and COMMITTED is set in the directory. -/
def commitNow (s : State) : State :=
  let floor := max s.lcs.svnFloor (byteAt s.lcs.running 14)
  let s1 := modLcs (fun l => { l with svnFloor := floor, committed := true }) s
  lcsEvent 0x08 floor (if s.lcs.dirPending.isSome then s1 else writeDir s.lcs.active true s1)

/-- COMMIT (R464). -/
def commit (p : Path) (s : State) : State :=
  match actionAsker s p with
  | none => s
  | some who => if askerOk s who && !s.lcs.committed && !rollingBack s then answerAction who 3 0 (commitNow s) else answerAction who 3 0x05 s

/-- ROLLBACK (R461, R464): in the same order as an activation. -/
def rollback (p : Path) (s : State) : State :=
  match actionAsker s p with
  | none => s
  | some who =>
    let mode := s.cai.mode == .service || s.cai.mode == .spared
    if askerOk s who && mode && isMaster s && !s.lcs.committed && s.lcs.chain.isNone then
      chainNext (modLcs (fun l => { l with chain := some { rollback := true, left := switchOrder s }, replyTo := who }) s)
    else answerAction who 4 0x05 s

/-- AUTO_COMMIT (R464): that many seconds after SWITCHED, unless a ROLLBACK has begun. -/
def execAutoCommit (s : State) : Outcome :=
  let n := dfld s .LCS_FW_CFG 15 0
  if n = 0 ∨ s.lcs.committed ∨ rollingBack s then .next s
  else .next (commitNow (advanceTo (s.lcs.switchedAt + n * 1000000000) s))

/-! ### PLDM Type 5 (R459) -/

/-- An answer of the update agent's partner: the command, its completion code and what follows (assumption 71). -/
def pldm (cmd cc : Nat) (more : Bytes) (s : State) : State := emit (.mctp cmd (leBytes 1 cc ++ more)) s

/-- s in a PLDM state. -/
def setPldm (x : PldmSt) (s : State) : State := modLcs (fun l => { l with pldm := x }) s

/-- REQUEST_UPDATE. -/
def execRequestUpdate (s : State) : Outcome :=
  if !firmwareUp s then .next s
  else if s.lcs.pldm ≠ .idle then .next (pldm 0x10 0x81 [] s)
  else .next (pldm 0x10 0 (leBytes 3 0) (setPldm .learn (modLcs (fun l => { l with pldmGot := [], pldmLen := 0 }) s)))

/-- PASS_COMPONENT_TABLE: one component, classification 0x000A, identifier 0x3216. -/
def execPassComponentTable (classification identifier : Nat) (s : State) : Outcome :=
  if !firmwareUp s then .next s
  else match s.lcs.pldm with
  | .idle => .next (pldm 0x13 0x80 [] s)
  | .learn =>
    if classification = 0xA ∧ identifier = 0x3216 then .next (pldm 0x13 0 (leBytes 2 0) (setPldm .ready s))
    else .next (pldm 0x13 0 (leBytes 1 1 ++ leBytes 1 6) s)
  | _ => .next (pldm 0x13 0x84 [] s)

/-- The device asks for the next piece of the image. -/
def pldmAsk (s : State) : State := pldm 0x15 0 (leBytes 4 s.lcs.pldmGot.length ++ leBytes 4 (s.lcs.pldmLen - s.lcs.pldmGot.length)) s

/-- UPDATE_COMPONENT. -/
def execUpdateComponent (classification identifier size : Nat) (s : State) : Outcome :=
  if !firmwareUp s then .next s
  else match s.lcs.pldm with
  | .idle => .next (pldm 0x14 0x80 [] s)
  | .ready =>
    if classification = 0xA ∧ identifier = 0x3216 then
      .next (pldmAsk (pldm 0x14 0 (leBytes 2 0) (setPldm .download (modLcs (fun l => { l with pldmLen := size, pldmGot := [] }) s))))
    else .next (pldm 0x14 0 (leBytes 1 1 ++ leBytes 1 6) s)
  | _ => .next (pldm 0x14 0x84 [] s)

/-- FIRMWARE_DATA_RECEIVED: the image being whole, the device reports TransferComplete, stages and verifies it, and reports VerifyComplete and
ApplyComplete. -/
def execFirmwareDataReceived (data : Bytes) (s : State) : Outcome :=
  if !firmwareUp s ∨ s.lcs.pldm ≠ .download then .next s
  else
    let s1 := modLcs (fun l => { l with pldmGot := (l.pldmGot ++ data).take l.pldmLen }) s
    if s1.lcs.pldmGot.length < s1.lcs.pldmLen then .next (pldmAsk s1)
    else
      let s2 := pldm 0x16 0 [] s1
      let r := if isMaster s2 then stageImage s2.lcs.pldmGot s2 else (0x05, s2)
      let s3 := setPldm .ready (modLcs (fun l => { l with pldmGot := [] }) (pldm 0x17 r.1 [] r.2))
      .next (if r.1 = 0 then pldm 0x18 0 [] s3 else s3)

/-- ACTIVATE_FIRMWARE performs ACTIVATE, with self-contained activation. -/
def execActivateFirmware (s : State) : Outcome :=
  if !firmwareUp s then .next s
  else match s.lcs.pldm with
  | .idle => .next (pldm 0x1A 0x80 [] s)
  | .ready =>
    let s1 := activate .mgmt (setPldm .idle s)
    .next (pldm 0x1A (if s1.lcs.chain.isSome ∨ s1.lcs.switch_.isSome ∨ s1.lcs.result = 0 then 0 else 0x84) [] s1)
  | _ => .next (pldm 0x1A 0x84 [] s)

/-- The number of a PLDM state. -/
def pldmNo : PldmSt → Nat
  | .idle => 0 | .learn => 1 | .ready => 2 | .download => 3

/-- GET_STATUS. -/
def execGetStatus (s : State) : Outcome := if firmwareUp s then .next (pldm 0x1B 0 (leBytes 1 (pldmNo s.lcs.pldm)) s) else .next s

/-- CANCEL_UPDATE. -/
def execCancelUpdate (s : State) : Outcome :=
  if !firmwareUp s then .next s
  else if s.lcs.pldm = .idle then .next (pldm 0x1D 0x80 [] s)
  else .next (pldm 0x1D 0 [] (setPldm .idle (modLcs (fun l => { l with pldmGot := [], pldmLen := 0 }) s)))

end Sys2Proof.Machine
end

