-- ==== Sys2Proof/Machine/Access.lean ====
section
/-!
DEFINITION. Register accesses whole (R4 to R9, R15): the LCS window (R467), and the commands by which the paths read and write.
-/
namespace Sys2Proof.Machine

/-! ### The LCS window (R467) -/

/-- The registers that answer in SPENT. -/
def lcsAnswers (s : State) (r : Reg) : Bool :=
  s.lcs.life != 4 || (match r with
    | .LCS_STATE | .LCS_SERIAL | .LCS_CERT_SELECT | .LCS_CERT_LEN | .LCS_CERT_WINDOW => true
    | _ => false)

/-- The object that a path's LCS_CERT_SELECT names: the DeviceID certificate, the attestation certificate of the state and owner, or the
ZEROISE record (R450, R451, R467). -/
def certObject (s : State) (p : Path) : Bytes :=
  match fld (reg s .LCS_CERT_SELECT 0 (pathCode p)) 1 0 with
  | 0 => deviceCert
  | 1 => attestCert s
  | 2 => s.lcs.zeroise
  | _ => []

/-- Whole seconds that the open debug session has left (R455). -/
def debugLeft (s : State) : Nat :=
  match s.lcs.session with
  | some d => (d.endAt - s.elapsed) / 1000000000
  | none => 0

/-- LCS_STATE: SPENT and the other states show the fuses; PERMS those of the open session. -/
def lcsState (s : State) : Nat :=
  s.lcs.life + at_ 4 ((s.lcs.owners.length - 1) % 4) + at_ 6 (b2n s.lcs.returnPending) + at_ 8 s.lcs.svnFloor
    + at_ 16 ((s.lcs.session.map DebugSession.perms).getD 0)

/-- LCS_FW_STATUS. -/
def fwStatus (s : State) : Nat :=
  s.lcs.active + at_ 1 (b2n s.lcs.committed) + at_ 2 (b2n s.lcs.staged.isSome) + at_ 3 (b2n s.lcs.dirPending.isSome)
    + at_ 4 (b2n (s.cai.mode == .pause)) + at_ 8 s.lcs.result

/-- What an LCS register shows. -/
def lcsValue (s : State) (p : Path) (r : Reg) (i : Nat) : Nat :=
  match r with
  | .LCS_STATE => lcsState s
  | .LCS_DEBUG_LEFT => debugLeft s
  | .LCS_SERIAL => Config.serial / 2 ^ (32 * i)
  | .LCS_NONCE_HI => s.lcs.nonceShown / 2 ^ 32
  | .LCS_FW_STATUS => fwStatus s
  | .LCS_FW_RUNNING => fwVersion s.lcs.running
  | .LCS_FW_STAGED => (s.lcs.staged.map fwVersion).getD 0
  | .LCS_CERT_LEN => (certObject s p).length
  | .LCS_CERT_WINDOW => leAt (certObject s p) (4096 * fld (reg s .LCS_CERT_SELECT 0 (pathCode p)) 27 12 + 4 * i) 4
  | _ => (storedReg s p r i).toNat

/-- A read of the LCS window above its header: LCS_NONCE_LO issues a nonce, and its high word follows R5. -/
def readLcs (p : Path) (off : Nat) (s : State) : Word × State :=
  match regAt p off with
  | none => (0, s)
  | some (r, i) =>
    if !lcsAnswers s r then (0, s)
    else if r = .LCS_NONCE_LO then nonceRead p s
    else match mfind s.shadow (shadowKey p off) with
    | some v => (v, { s with shadow := mdel s.shadow (shadowKey p off) })
    | none => (readMask r (w32 (lcsValue s p r i)), s)

/-- ACTION of LCS_FW_CTRL (R461 to R464). -/
def fwAction (p : Path) (a : Nat) (s : State) : State :=
  if !mayWrite s p .LCS_FW_CTRL then s
  else match a with
  | 1 => activate p s
  | 2 => commit p s
  | 3 => rollback p s
  | 4 => switched p s
  | _ => s

/-- What a write of an LCS register does. -/
def lcsStore (p : Path) (r : Reg) (i : Nat) (v : Word) (s : State) : State :=
  if !lcsAnswers s r then s
  else match r with
  | .LCS_TOKEN_CTRL =>
    let s1 := if wbit v 0 then tokenSubmit p s else s
    if wbit v 1 then debugEnd p s1 else s1
  | .LCS_FW_CTRL => fwAction p (fld v 2 0) s
  | _ => plainReg p r i v s

/-- A write of the LCS window above its header. -/
def writeLcs (p : Path) (off : Nat) (v : Word) (s : State) : State :=
  match regAt p off with
  | none => s
  | some (r, i) => lcsStore p r i v s

/-! ### An access by a path -/

/-- Does an access reach the LCS window above its header? -/
def lcsAccess (s : State) (p : Path) (off : Nat) : Bool :=
  windowed s p off && off / 0x200000 == 1 && !headerAccess s p off && (match p with
    | .debug => debugGrants s 3
    | _ => true)

/-- Is a function's interface in RUN (R152)? -/
def tdiRuns (s : State) (f : Fn) : Bool := (fnSt s f).tdi.st == .run

/-- Can a path reach the registers at all: a function whose memory space is open, or another path while the Cairn domain runs (R100, R117)? An
interface in RUN takes requests with the T bit on its bound stream alone, and no other takes one with a T bit (R152). -/
def pathOpen (s : State) : Path → Bool
  | .fn f => barOpen s f && !tdiRuns s f
  | .tee f k => barOpen s f && tdiRuns s f && (fnSt s f).tdi.stream == k && (mget {} s.hif.ide (fnHalf s f * 32 + k)).secure
  | _ => cairnRuns s

/-- The path as which an admitted request acts: its T bit has done its work. -/
def asPath : Path → Path
  | .tee f _ => .fn f
  | p => p

/-- A path that cannot reach the registers: a function's request completes with Unsupported Request, logged in AER (R100, R126). -/
def turnAway (p : Path) (s : State) : State :=
  match p with
  | .fn f | .tee f _ => rejectRequest f s
  | _ => s

/-- An access that a path makes: it completes at once, or is held (R15, R103, R127). -/
def access (h : HeldAccess) (s : State) : State := if accessWaits s h.path h.off then holdAccess h s else completeAccess h s

/-- An aligned 32-bit read by a path. -/
def accessRead (by_ : Path) (off : Nat) (s : State) : State :=
  let p := asPath by_
  if !pathOpen s by_ then turnAway by_ s
  else if lcsAccess s p off then let r := readLcs p off s; emit (.readData p off r.1) r.2
  else access { path := p, off := off } s

/-- An aligned 32-bit write by a path, of thread t where firmware makes it. -/
def accessWrite (by_ : Path) (t off : Nat) (v : Word) (s : State) : State :=
  let p := asPath by_
  if !pathOpen s by_ then turnAway by_ s
  else if lcsAccess s p off then writeLcs p off v s
  else access { path := p, off := off, kind := .write v, thread := t } s

/-- An access that R4 rejects: a write has no effect, a read returns ones; it is recorded where a function made it, with its offset within its
BAR (R4, R9, R154, R470). -/
def rejectAccess (p : Path) (off : Nat) (write : Bool) (s : State) : State :=
  let s1 := match p with
    | .fn f => accessError f (off % 0x1000000 + (if off < 0x2000000 then off / 0x1000000 * 0x1000000 else 0)) write s
    | _ => s
  if write then s1 else emit (.readData p off 0xFFFFFFFF) s1

/-- An access of any size: an aligned 4-byte one as such, an aligned 8-byte one where R126 and R161 honour it; the rest of a PF's BAR2 reads 0
and ignores writes (R125), and R4 rejects every other. -/
def accessSized (by_ : Path) (off size : Nat) (data : Option (BitVec 64)) (s : State) : State :=
  let p := asPath by_
  if !pathOpen s by_ then turnAway by_ s
  else if size = 4 ∧ off % 4 = 0 then (match data with
    | none => accessRead by_ off s
    | some v => accessWrite by_ 0 off (w32 v.toNat) s)
  else if bar2Rest s p off then (if data.isNone then emit (.readData p off 0) s else s)
  else if size = 8 ∧ wideHonoured s p off then access { path := p, off := off, kind := match data with
    | none => .readWide
    | some v => .writeWide v } s
  else rejectAccess p off data.isSome s

/-- A load by firmware of a register: its value, or none while the access waits for its block, which starts (R15). -/
def regRead (off : Nat) (s : State) : Option Word × State :=
  if lcsAccess s .firmware off then let r := readLcs .firmware off s; (some r.1, r.2)
  else if accessWaits s .firmware off then (none, wakeBlock .firmware (accessBlk s .firmware off) s)
  else let r := completeRead .firmware off s; (some r.1, r.2)

/-- A store by firmware to a register, by thread t. -/
def regWrite (t off : Nat) (v : Word) (s : State) : State := accessWrite .firmware t off v s

/-! ### The commands -/

/-- The offset of the 32-bit word that an aligned access reaches. -/
def wordOff (off : Nat) : Nat := off / 4 * 4

/-- REGISTER_WRITE (R7, R14, R473). Where the path is firmware, domain 0's supervisor writes. -/
def execRegisterWrite (p : Path) (off : Nat) (v : Word) (s : State) : Outcome := .next (accessWrite p (supervisor s 0) (wordOff off) v s)

/-- BAD_ACCESS (R4): an access of a size. -/
def execBadAccess (p : Path) (off : Nat) (access : Sized) (s : State) : Outcome := .next (accessSized p off access.size access.data s)

/-- LOW_WORD_READ (R5): an aligned 32-bit read; that of a low word captures its high word. -/
def execLowWordRead (p : Path) (off : Nat) (s : State) : Outcome := .next (accessRead p (wordOff off) s)

/-- READ_CLEAR (R9): an aligned 32-bit read; it clears the register's RC fields. -/
def execReadClear (p : Path) (off : Nat) (s : State) : Outcome := .next (accessRead p (wordOff off) s)

/-- DOORBELL_WRITE (R125, R161 to R163, R146): an 8-byte or a low-word write is an access to its function's BARs; one of another form is
rejected, and a poisoned one is logged and dropped. -/
def execDoorbellWrite (f : Fn) (q : Nat) (v : BitVec 64) (form : DoorbellForm) (s : State) : Outcome :=
  let p := Path.fn f
  let off := doorbellBar f q
  match form with
  | .full => .next (accessSized p off 8 (some v) s)
  | .low => .next (accessWrite p 0 off (w32 v.toNat) s)
  | .other => .next (accessSized p (off + 4) 4 (some v) s)
  | .poisoned => .next (if pathOpen s p then aerLog f 12 false s else rejectRequest f s)

/-- MSIX_UNMASK (R122, R126, R176): a write of MSI-X control, or of a dword of the table, which is an access to the function's BARs. -/
def execMsixUnmask (f : Fn) (change : MsixChange) (s : State) : Outcome :=
  match change with
  | .control .. => .next (msixChange f change s)
  | .entry n part v => .next (if part < 4 then accessWrite (.fn f) 0 (msixBar f n part) v s else s)

/-- NVME_SQ_DOORBELL and NVME_CQ_DOORBELL (R344, R350): writes to the doorbells of an NVMe function's BAR0. -/
def execNvmeSqDoorbell (f : Fn) (q v : Nat) (s : State) : Outcome :=
  .next (if isNvme s f then accessWrite (.fn f) 0 (0x1000 + 8 * q) (w32 v) s else s)
def execNvmeCqDoorbell (f : Fn) (q v : Nat) (s : State) : Outcome :=
  .next (if isNvme s f then accessWrite (.fn f) 0 (0x1004 + 8 * q) (w32 v) s else s)

/-- The W1C bit of a function's configuration space that a dword and a bit name, with its occurrence count (R8, R146, R444). -/
def cfgHwSet (f : Fn) (off bit : Nat) (s : State) : State :=
  let d := off / 4
  if !wbit (cfgW1c f d) bit then s
  else
    let n := if d = 1 then bit - 16 + 64 else if d = 0x104 / 4 then bit else 32 + bit
    { cfgSet f d (cfgGet s f d ||| w32 (2 ^ bit)) s with occ := mmod 0 s.occ (cfgOccKey n (fnCode f)) (satAdd 0xFFFF 1) }

/-- W1C_HARDWARE_SET (R8): hardware sets a W1C bit of the register at an offset, and counts the occurrence. The configuration space of a
function stands at 0x0400_0000 (assumption 91). -/
def execW1cHardwareSet (p : Path) (off bit : Nat) (s : State) : Outcome :=
  match p with
  | .fn f =>
    if 0x4000000 ≤ off then .next (if f ≠ .fw ∧ bit < 32 ∧ off < 0x4001000 then cfgHwSet f (off - 0x4000000) bit s else s)
    else match regAt p off with
    | some (r, i) =>
      if wbit (r.accMask (· == .w1c)) bit then .next (hwSet r i (if r.info.held = .function then fnCode f else 0) bit s) else .next s
    | none => .next s
  | _ => match regAt p off with
    | some (r, i) => if wbit (r.accMask (· == .w1c)) bit ∧ r.info.held ≠ .function then .next (hwSet r i 0 bit s) else .next s
    | none => .next s

/-- HELD_ACCESS (R15, R103): an access above offset 0x00FF; one to a block that does not run, or that a Col pause holds, starts the block and
waits. -/
def execHeldAccess (p : Path) (off : Nat) (v : Option Word) (s : State) : Outcome :=
  match v with
  | none => .next (accessRead p (wordOff off) s)
  | some w => .next (accessWrite p 0 (wordOff off) w s)

end Sys2Proof.Machine
end

