-- ==== Sys2Proof/Machine/Riscv.lean ====
section
/-!
DEFINITION. The RV64IMAC instruction set as the service cores run it (R387, R388): fields, compressed forms, and arithmetic on 64-bit values
held as natural numbers.  The encodings and results are those of the RISC-V specification, which R387 names.
-/
namespace Sys2Proof.Machine

/-! ### Fields of a 32-bit instruction -/

def opc (w : Nat) : Nat := w % 128
def rdOf (w : Nat) : Nat := bits w 11 7
def f3Of (w : Nat) : Nat := bits w 14 12
def rs1Of (w : Nat) : Nat := bits w 19 15
def rs2Of (w : Nat) : Nat := bits w 24 20
def f7Of (w : Nat) : Nat := bits w 31 25

/-- An n-bit number sign-extended to 64 bits. -/
def sext (n v : Nat) : Nat := unsigned 64 (signed n (v % 2 ^ n))

/-- Immediates, sign-extended to 64 bits. -/
def immI (w : Nat) : Nat := sext 12 (bits w 31 20)
def immS (w : Nat) : Nat := sext 12 (at_ 5 (f7Of w) + rdOf w)
def immB (w : Nat) : Nat := sext 13 (at_ 12 (bits w 31 31) + at_ 11 (bits w 7 7) + at_ 5 (bits w 30 25) + at_ 1 (bits w 11 8))
def immU (w : Nat) : Nat := sext 32 (at_ 12 (bits w 31 12))
def immJ (w : Nat) : Nat := sext 21 (at_ 20 (bits w 31 31) + at_ 12 (bits w 19 12) + at_ 11 (bits w 20 20) + at_ 1 (bits w 30 21))

/-! ### Building 32-bit instructions, for the compressed forms -/

def mkR (op rd f3 rs1 rs2 f7 : Nat) : Nat := op + at_ 7 rd + at_ 12 f3 + at_ 15 rs1 + at_ 20 rs2 + at_ 25 f7
def mkI (op rd f3 rs1 imm : Nat) : Nat := op + at_ 7 rd + at_ 12 f3 + at_ 15 rs1 + at_ 20 (imm % 4096)
def mkS (op f3 rs1 rs2 imm : Nat) : Nat := op + at_ 7 (imm % 32) + at_ 12 f3 + at_ 15 rs1 + at_ 20 rs2 + at_ 25 (imm / 32 % 128)
def mkB (f3 rs1 rs2 imm : Nat) : Nat :=
  0x63 + at_ 7 (bits imm 11 11) + at_ 8 (bits imm 4 1) + at_ 12 f3 + at_ 15 rs1 + at_ 20 rs2 + at_ 25 (bits imm 10 5) + at_ 31 (bits imm 12 12)
def mkJ (rd imm : Nat) : Nat :=
  0x6F + at_ 7 rd + at_ 12 (bits imm 19 12) + at_ 20 (bits imm 11 11) + at_ 21 (bits imm 10 1) + at_ 31 (bits imm 20 20)

/-- Immediates of compressed forms. -/
def cImm6 (c : Nat) : Nat := sext 6 (at_ 5 (bits c 12 12) + bits c 6 2)
def cShamt (c : Nat) : Nat := at_ 5 (bits c 12 12) + bits c 6 2
def cLw (c : Nat) : Nat := at_ 6 (bits c 5 5) + at_ 3 (bits c 12 10) + at_ 2 (bits c 6 6)
def cLd (c : Nat) : Nat := at_ 6 (bits c 6 5) + at_ 3 (bits c 12 10)
def cJ (c : Nat) : Nat :=
  sext 12 (at_ 11 (bits c 12 12) + at_ 10 (bits c 8 8) + at_ 8 (bits c 10 9) + at_ 7 (bits c 6 6) + at_ 6 (bits c 7 7) + at_ 5 (bits c 2 2)
    + at_ 4 (bits c 11 11) + at_ 1 (bits c 5 3))
def cB (c : Nat) : Nat :=
  sext 9 (at_ 8 (bits c 12 12) + at_ 6 (bits c 6 5) + at_ 5 (bits c 2 2) + at_ 3 (bits c 11 10) + at_ 1 (bits c 4 3))

/-- Quadrant 0 of the compressed forms. -/
def expand0 (c : Nat) : Option Nat :=
  let rd := 8 + bits c 4 2
  let rs := 8 + bits c 9 7
  match bits c 15 13 with
  | 0 =>
    let imm := at_ 6 (bits c 10 7) + at_ 4 (bits c 12 11) + at_ 3 (bits c 5 5) + at_ 2 (bits c 6 6)
    if imm = 0 then none else some (mkI 0x13 rd 0 2 imm)
  | 2 => some (mkI 0x03 rd 2 rs (cLw c))
  | 3 => some (mkI 0x03 rd 3 rs (cLd c))
  | 6 => some (mkS 0x23 2 rs rd (cLw c))
  | 7 => some (mkS 0x23 3 rs rd (cLd c))
  | _ => none

/-- The arithmetic forms of quadrant 1. -/
def expandArith (c : Nat) : Option Nat :=
  let rs := 8 + bits c 9 7
  let r2 := 8 + bits c 4 2
  match bits c 11 10 with
  | 0 => some (mkI 0x13 rs 5 rs (cShamt c))
  | 1 => some (mkI 0x13 rs 5 rs (0x400 + cShamt c))
  | 2 => some (mkI 0x13 rs 7 rs (cImm6 c))
  | _ => match bits c 12 12, bits c 6 5 with
    | 0, 0 => some (mkR 0x33 rs 0 rs r2 0x20)
    | 0, 1 => some (mkR 0x33 rs 4 rs r2 0)
    | 0, 2 => some (mkR 0x33 rs 6 rs r2 0)
    | 0, _ => some (mkR 0x33 rs 7 rs r2 0)
    | _, 0 => some (mkR 0x3B rs 0 rs r2 0x20)
    | _, 1 => some (mkR 0x3B rs 0 rs r2 0)
    | _, _ => none

/-- Quadrant 1 of the compressed forms. -/
def expand1 (c : Nat) : Option Nat :=
  let rd := bits c 11 7
  match bits c 15 13 with
  | 0 => some (mkI 0x13 rd 0 rd (cImm6 c))
  | 1 => if rd = 0 then none else some (mkI 0x1B rd 0 rd (cImm6 c))
  | 2 => some (mkI 0x13 rd 0 0 (cImm6 c))
  | 3 =>
    if rd = 2 then
      let imm := sext 10 (at_ 9 (bits c 12 12) + at_ 7 (bits c 4 3) + at_ 6 (bits c 5 5) + at_ 5 (bits c 2 2) + at_ 4 (bits c 6 6))
      if imm = 0 then none else some (mkI 0x13 2 0 2 imm)
    else if cImm6 c = 0 then none else some (0x37 + at_ 7 rd + at_ 12 (cImm6 c % 2 ^ 20))
  | 4 => expandArith c
  | 5 => some (mkJ 0 (cJ c))
  | 6 => some (mkB 0 (8 + bits c 9 7) 0 (cB c))
  | _ => some (mkB 1 (8 + bits c 9 7) 0 (cB c))

/-- Quadrant 2 of the compressed forms. -/
def expand2 (c : Nat) : Option Nat :=
  let rd := bits c 11 7
  let r2 := bits c 6 2
  match bits c 15 13 with
  | 0 => some (mkI 0x13 rd 1 rd (cShamt c))
  | 2 => if rd = 0 then none else some (mkI 0x03 rd 2 2 (at_ 6 (bits c 3 2) + at_ 5 (bits c 12 12) + at_ 2 (bits c 6 4)))
  | 3 => if rd = 0 then none else some (mkI 0x03 rd 3 2 (at_ 6 (bits c 4 2) + at_ 5 (bits c 12 12) + at_ 3 (bits c 6 5)))
  | 4 =>
    if bits c 12 12 = 0 then
      (if r2 = 0 then (if rd = 0 then none else some (mkI 0x67 0 0 rd 0)) else some (mkR 0x33 rd 0 0 r2 0))
    else if r2 = 0 then (if rd = 0 then some 0x00100073 else some (mkI 0x67 1 0 rd 0))
    else some (mkR 0x33 rd 0 rd r2 0)
  | 6 => some (mkS 0x23 2 2 r2 (at_ 6 (bits c 8 7) + at_ 2 (bits c 12 9)))
  | 7 => some (mkS 0x23 3 2 r2 (at_ 6 (bits c 9 7) + at_ 3 (bits c 12 10)))
  | _ => none

/-- The 32-bit instruction that a compressed one stands for; none where it is illegal. -/
def expandC (c : Nat) : Option Nat :=
  match c % 4 with
  | 0 => expand0 c
  | 1 => expand1 c
  | 2 => expand2 c
  | _ => none

/-! ### Arithmetic -/

def m64 (v : Nat) : Nat := v % 2 ^ 64
def sub64 (a b : Nat) : Nat := (BitVec.ofNat 64 a - BitVec.ofNat 64 b).toNat
def sgn (v : Nat) : Int := signed 64 v
def sgn32 (v : Nat) : Int := signed 32 (v % 2 ^ 32)
def of64 (v : Int) : Nat := unsigned 64 v

/-- The base integer operations on 64 bits: alt selects SUB and SRA. -/
def alu (f3 : Nat) (alt : Bool) (a b : Nat) : Nat :=
  match f3 with
  | 0 => if alt then sub64 a b else m64 (a + b)
  | 1 => m64 (a <<< (b % 64))
  | 2 => b2n (sgn a < sgn b)
  | 3 => b2n (a < b)
  | 4 => a ^^^ b
  | 5 => if alt then of64 (sgn a >>> (b % 64)) else a >>> (b % 64)
  | 6 => a ||| b
  | _ => a &&& b

/-- The operations on 32 bits, sign-extended. -/
def aluW (f3 : Nat) (alt : Bool) (a b : Nat) : Nat :=
  match f3 with
  | 0 => sext 32 (if alt then sub64 a b else a + b)
  | 1 => sext 32 (a <<< (b % 32))
  | _ => if alt then sext 32 (unsigned 32 (sgn32 a >>> (b % 32))) else sext 32 (a % 2 ^ 32 >>> (b % 32))

/-- Multiply and divide on 64 bits, with the RISC-V results for a zero divisor and for overflow. -/
def mulDiv (f3 a b : Nat) : Nat :=
  match f3 with
  | 0 => m64 (a * b)
  | 1 => of64 ((sgn a * sgn b) >>> 64)
  | 2 => of64 ((sgn a * (b : Int)) >>> 64)
  | 3 => a * b / 2 ^ 64
  | 4 => if b = 0 then 2 ^ 64 - 1 else of64 ((sgn a).tdiv (sgn b))
  | 5 => if b = 0 then 2 ^ 64 - 1 else a / b
  | 6 => if b = 0 then a else of64 ((sgn a).tmod (sgn b))
  | _ => if b = 0 then a else a % b

/-- Multiply and divide on 32 bits, sign-extended; none where the encoding is illegal. -/
def mulDivW (f3 a b : Nat) : Option Nat :=
  let ua := a % 2 ^ 32
  let ub := b % 2 ^ 32
  match f3 with
  | 0 => some (sext 32 (a * b))
  | 4 => some (if ub = 0 then 2 ^ 64 - 1 else of64 ((sgn32 a).tdiv (sgn32 b)) |> fun v => sext 32 v)
  | 5 => some (if ub = 0 then 2 ^ 64 - 1 else sext 32 (ua / ub))
  | 6 => some (if ub = 0 then sext 32 ua else sext 32 (of64 ((sgn32 a).tmod (sgn32 b))))
  | 7 => some (if ub = 0 then sext 32 ua else sext 32 (ua % ub))
  | _ => none

/-- Is a branch taken; none where the encoding is illegal? -/
def branchTaken (f3 a b : Nat) : Option Bool :=
  match f3 with
  | 0 => some (a == b)
  | 1 => some (a != b)
  | 4 => some (decide (sgn a < sgn b))
  | 5 => some (decide (sgn b ≤ sgn a))
  | 6 => some (decide (a < b))
  | 7 => some (decide (b ≤ a))
  | _ => none

/-- What an AMO stores, of n bytes; none where the encoding is illegal. -/
def amoOp (f5 n old b : Nat) : Option Nat :=
  let m := 2 ^ (8 * n)
  let so := signed (8 * n) (old % m)
  let sb := signed (8 * n) (b % m)
  match f5 with
  | 0x01 => some (b % m)
  | 0x00 => some ((old + b) % m)
  | 0x04 => some ((old ^^^ b) % m)
  | 0x0C => some ((old &&& b) % m)
  | 0x08 => some ((old ||| b) % m)
  | 0x10 => some (unsigned (8 * n) (min so sb))
  | 0x14 => some (unsigned (8 * n) (max so sb))
  | 0x18 => some (min (old % m) (b % m))
  | 0x1C => some (max (old % m) (b % m))
  | _ => none

end Sys2Proof.Machine
end

