-- ==== Sys2Proof/Machine/Harts.lean ====
section
/-!
DEFINITION. The harts of the service cores: memory, CSRs, instruction issue and the thread extension (R387 to R395, R398 to R401).
-/
namespace Sys2Proof.Machine

/-! ### Memory as threads see it (R388, R390, R401) -/

/-- What an access of a thread is for. -/
inductive Access where
  | fetch | load | store
deriving DecidableEq, Repr

/-- The access-fault cause of each kind. -/
def Access.cause : Access → Nat
  | .fetch => 1 | .load => 5 | .store => 7

/-- The PMP entry that matches a byte of n bytes at an address, as its configuration byte, the lowest-numbered of 16, and whether it matches
all of them (R388). -/
def pmpMatch (h : Thread) (a n : Nat) : Option (Nat × Bool) :=
  let cfg (i : Nat) : Nat := bits (mget 0 h.csr (0x3A0 + i / 8 * 2)) (i % 8 * 8 + 7) (i % 8 * 8)
  let adr (i : Nat) : Nat := mget 0 h.csr (0x3B0 + i)
  let covers (i a : Nat) : Bool := match bits (cfg i) 4 3 with
    | 1 => decide ((if i = 0 then 0 else 4 * adr (i - 1)) ≤ a ∧ a < 4 * adr i)
    | 2 => a / 4 == adr i
    | 3 =>
      let ones := ((List.range 54).find? (fun k => !bitOf (adr i) k)).getD 54
      a / 4 >>> (ones + 1) == adr i >>> (ones + 1)
    | _ => false
  let bytes := (List.range n).map (a + ·)
  ((List.range 16).find? (fun i => bytes.any (covers i))).map (fun i => (cfg i, bytes.all (covers i)))

/-- Does PMP let a thread access n bytes at an address in a mode? An entry that matches a part of them alone refuses them. -/
def pmpOk (h : Thread) (m : Bool) (k : Access) (a n : Nat) : Bool :=
  let bit := match k with
    | .load => 0 | .store => 1 | .fetch => 2
  match pmpMatch h a n with
  | some (c, whole) => whole && ((m && !bitOf c 7) || bitOf c bit)
  | none => m

/-- The mode of a data access: MPRV makes it MPP's (mstatus bit 17). -/
def dataMode (h : Thread) : Bool :=
  let st := mget 0 h.csr 0x300
  if h.mmode && bitOf st 17 then bits st 12 11 == 3 else h.mmode

/-- The byte of a frame handle's aperture at an offset; none at or beyond the handle's length (R401). -/
def apertureByte (x : Handle) (off : Nat) : Option Byte :=
  if off < 512 then some (x.hv.getD off 0)
  else if off < 544 then some (x.ctx.getD (off - 512) 0)
  else if off < 1024 then some 0
  else if off - 1024 < x.bytes.length then some (x.bytes.getD (off - 1024) 0)
  else none

/-- A handle with a byte of its aperture written; the reserved bytes ignore writes. -/
def apertureSet (x : Handle) (off : Nat) (b : Byte) : Handle :=
  let put (l : Bytes) (n i : Nat) : Bytes := (slice l 0 n).set i b
  if off < 512 then { x with hv := put x.hv 512 off }
  else if off < 544 then { x with ctx := put x.ctx 32 (off - 512) }
  else if off < 1024 then x
  else { x with bytes := x.bytes.set (off - 1024) b }

/-- Where an address lies. -/
inductive Region where
  | regs (off : Nat) | aperture (handle off : Nat) | device (raw : Nat) | none
deriving DecidableEq, Repr

/-- The address map of R390 for n bytes at an address. -/
def regionOf (a n : Nat) : Region :=
  if a + n ≤ 0x2000000 then .regs a
  else if 0x100000000 ≤ a ∧ a + n ≤ 0x180000000 then .aperture ((a - 0x100000000) / 0x8000) ((a - 0x100000000) % 0x8000)
  else if devBase ≤ a ∧ a + n ≤ devBase + 2 ^ 36 then .device (a - devBase)
  else .none

/-- The handle of an aperture that a domain may reach over n bytes. -/
def ownAperture (s : State) (d k off n : Nat) : Option Handle :=
  match mfind s.svc.handles k with
  | some x => if x.owner = .domain d ∧ (List.range n).all (fun i => (apertureByte x (off + i)).isSome) then some x else none
  | none => none

/-- A load of n bytes by a thread: the value and the state after it, none for an access fault; no value while a register's block does not run,
and the thread waits for it (R15). Poison is an access fault (assumption 73). -/
def loadMem (t a n : Nat) (s : State) : Option (Option Nat × State) :=
  let h := thread s t
  if !pmpOk h (dataMode h) .load a n then none
  else match regionOf a n with
  | .regs off =>
    if n = 4 ∧ off % 4 = 0 then let r := regRead off s; some (r.1.map BitVec.toNat, r.2)
    else some (some (2 ^ (8 * n) - 1), s)
  | .aperture k off =>
    (ownAperture s h.domain k off n).map (fun x => (some (leNat ((List.range n).map (fun i => (apertureByte x (off + i)).getD 0))), s))
  | .device raw => if devPoisoned s raw n then none else some (some (leNat (devRead s raw n)), s)
  | .none => none

/-- A read of n bytes at an address that returned poison is counted (R445). -/
def countPoison (a n : Nat) (s : State) : State :=
  match regionOf a n with
  | .device raw => if devPoisoned s raw n then bump .REL_POISON_READ 0 0 1 s else s
  | _ => s

/-- A store of n bytes by a thread. -/
def storeMem (t a n v : Nat) (s : State) : Option State :=
  let h := thread s t
  if !pmpOk h (dataMode h) .store a n then none
  else match regionOf a n with
  | .regs off =>
    if n = 4 ∧ off % 4 = 0 then some (regWrite t off (w32 v) s) else some s
  | .aperture k off =>
    (ownAperture s h.domain k off n).map (fun x =>
      let y := (leBytes n v).zipIdx.foldl (fun x e => apertureSet x (off + e.2) e.1) x
      modSvc (fun u => { u with handles := mput u.handles k y }) s)
  | .device raw => some (devWrite raw (leBytes n v) s)
  | .none => none

/-- A parcel of 16 bits at the pc: device memory alone holds instructions (assumption 74). -/
def fetchParcel (s : State) (h : Thread) (a : Nat) : Option Nat :=
  if !pmpOk h h.mmode .fetch a 2 then none
  else match regionOf a 2 with
  | .device raw => if devPoisoned s raw 2 then none else some (leNat (devRead s raw 2))
  | _ => none

/-- The instruction at a thread's pc, as 32 bits with its length, and its own bits: none for an access fault; some none for an illegal
compressed form. -/
def fetchInstr (s : State) (h : Thread) : Option (Option Nat × Nat × Nat) :=
  match fetchParcel s h h.pc with
  | none => none
  | some lo =>
    if lo % 4 ≠ 3 then some (expandC lo, 2, lo)
    else (fetchParcel s h (h.pc + 2)).map (fun hi => (some (lo + at_ 16 hi), 4, lo + at_ 16 hi))

/-! ### CSRs (R388, R395) -/

/-- misa: RV64 with I, M, A, C and U mode (R387, R388). -/
def misa : Nat := at_ 63 1 + at_ 20 1 + at_ 12 1 + at_ 8 1 + at_ 2 1 + 1

/-- The value of a CSR for a thread; none where it does not exist or its mode may not read it. -/
def csrRead (t n : Nat) (s : State) : Option Nat :=
  let h := thread s t
  let raw := mget 0 h.csr n
  let en := mget 0 h.csr 0x306
  let cycles := m64 (2 * s.elapsed + mget 0 h.csr 0xB00)
  match n with
  | 0xC00 => if h.mmode || bitOf en 0 then some cycles else none
  | 0xC01 => some (now s)
  | 0xC02 => if h.mmode || bitOf en 2 then some (mget 0 h.csr 0xB02) else none
  | _ =>
    if !h.mmode then none
    else match n with
    | 0x300 => some ((raw &&& (2 ^ 3 + 2 ^ 7 + at_ 11 3 + 2 ^ 17 + 2 ^ 21)) + at_ 33 1)
    | 0x301 => some misa
    | 0x304 | 0x305 | 0x306 | 0x340 | 0x341 | 0x342 | 0x343 | 0x3A0 | 0x3A2 | 0xB02 | 0x7C0 => some raw
    | 0x320 | 0xF11 | 0xF12 | 0xF13 | 0xF15 => some 0
    | 0x344 => some (if (stallPending s t).isEmpty then 0 else 2 ^ 16)
    | 0xB00 => some cycles
    | 0xF14 => some t
    | 0xFC0 => some h.domain
    | 0xFC1 => some h.staging.length
    | 0xFC2 => some (h.parent.getD (2 ^ 64 - 1))
    | _ =>
      if 0x3B0 ≤ n ∧ n ≤ 0x3BF then some raw
      else if (0xB03 ≤ n ∧ n ≤ 0xB1F) ∨ (0x323 ≤ n ∧ n ≤ 0x33F) then some 0
      else none

/-- A write of a PMP configuration register: locked entries keep their byte. -/
def pmpCfgWrite (old v : Nat) : Nat :=
  leNat ((List.range 8).map (fun i =>
    let o := bits old (8 * i + 7) (8 * i)
    BitVec.ofNat 8 (if bitOf o 7 then o else bits v (8 * i + 7) (8 * i) &&& 0x9F)))

/-- Is a PMP address register locked: by its own entry, or by the next where that is top-of-range? -/
def pmpLocked (h : Thread) (i : Nat) : Bool :=
  let cfg (i : Nat) : Nat := bits (mget 0 h.csr (0x3A0 + i / 8 * 2)) (i % 8 * 8 + 7) (i % 8 * 8)
  bitOf (cfg i) 7 || (decide (i < 15) && bitOf (cfg (i + 1)) 7 && bits (cfg (i + 1)) 4 3 == 1)

/-- A write of a CSR that exists and is writable: fields without a function keep their legal value. The instruction that writes minstret does
not count itself. -/
def csrWrite (t n v : Nat) (s : State) : State :=
  let put (x : Nat) : State := modThread t (fun h => { h with csr := mset 0 h.csr n x }) s
  let h := thread s t
  match n with
  | 0x300 =>
    let mpp := if bits v 12 11 = 3 then 3 else if bits v 12 11 = 0 then 0 else bits (mget 0 h.csr 0x300) 12 11
    put ((v &&& (2 ^ 3 + 2 ^ 7 + 2 ^ 17 + 2 ^ 21)) + at_ 11 mpp)
  | 0x304 => put (v &&& 2 ^ 16)
  | 0x305 => put (v / 4 * 4 + v % 2)
  | 0x306 => put (v % 8)
  | 0x340 | 0x342 | 0x343 => put v
  | 0xB02 => put (sub64 v 1)
  | 0x341 => put (v / 2 * 2)
  | 0x3A0 | 0x3A2 => put (pmpCfgWrite (mget 0 h.csr n) v)
  | 0xB00 => put (sub64 v (m64 (2 * s.elapsed)))
  | 0x7C0 => put (v % 64)
  | _ => if 0x3B0 ≤ n ∧ n ≤ 0x3BF ∧ !pmpLocked h (n - 0x3B0) then put (v % 2 ^ 54) else s

/-! ### Ends of instructions -/

/-- The instruction retires: rd takes a value and the pc moves on. -/
def retire_ (t rd v size : Nat) (s : State) : State :=
  modThread t (fun h => setX rd v { h with pc := m64 (h.pc + size), csr := mset 0 h.csr 0xB02 (m64 (mget 0 h.csr 0xB02 + 1)) }) s

/-- A jump retires: rd takes the address after it. -/
def jumpTo (t rd size target : Nat) (s : State) : State :=
  modThread t (fun h => setX rd (m64 (h.pc + size)) { h with pc := target, csr := mset 0 h.csr 0xB02 (m64 (mget 0 h.csr 0xB02 + 1)) }) s

/-- The illegal-instruction exception. -/
def illegal (t bits_ : Nat) (s : State) : State := trap false 2 bits_ t s

/-- A thread begins to wait (R394). -/
def beginWait (t : Nat) (w : Wait) (deadline : Option Nat) (rd v : Nat) (s : State) : State :=
  let n := s.svc.waitNext
  modThread t (fun h => { h with st := .waiting, wait := some w, deadline := deadline, waitNo := n, waitRd := rd, waitVal := v })
    (modSvc (fun u => { u with waitNext := n + 1 }) s)

/-! ### Ordinary instructions (R387) -/

/-- Loads. -/
def doLoad (t w size bits_ : Nat) (s : State) : State :=
  let a := m64 (xreg (thread s t) (rs1Of w) + immI w)
  let n := 2 ^ (f3Of w % 4)
  if f3Of w = 7 then illegal t bits_ s
  else match loadMem t a n s with
  | none => trap false 5 a t (if pmpOk (thread s t) (dataMode (thread s t)) .load a n then countPoison a n s else s)
  | some (none, s1) => s1
  | some (some v, s1) => retire_ t (rdOf w) (if f3Of w < 4 then sext (8 * n) v else v) size s1

/-- Stores. -/
def doStore (t w size bits_ : Nat) (s : State) : State :=
  let a := m64 (xreg (thread s t) (rs1Of w) + immS w)
  let n := 2 ^ (f3Of w % 4)
  if 4 ≤ f3Of w then illegal t bits_ s
  else
    let next := retire_ t 0 0 size s
    match storeMem t a n (xreg (thread s t) (rs2Of w) % 2 ^ (8 * n)) next with
    | none => trap false 7 a t s
    | some s1 => s1

/-- LR, SC and AMO on device memory, atomic because an instruction is one step (R387). -/
def doAmo (t w size bits_ : Nat) (s : State) : State :=
  let h := thread s t
  let a := xreg h (rs1Of w)
  let b := xreg h (rs2Of w)
  let f5 := bits w 31 27
  let n := 2 ^ f3Of w
  let ok (k : Access) : Bool := match regionOf a n with
    | .device raw => pmpOk h (dataMode h) k a n && !devPoisoned s raw n
    | _ => false
  let raw := a - devBase
  if f3Of w ≠ 2 ∧ f3Of w ≠ 3 then illegal t bits_ s
  else match f5 with
  | 0x02 =>
    if rs2Of w ≠ 0 then illegal t bits_ s
    else if a % n ≠ 0 then trap false 4 a t s
    else if !ok .load then trap false 5 a t (if pmpOk h (dataMode h) .load a n then countPoison a n s else s)
    else retire_ t (rdOf w) (sext (8 * n) (leNat (devRead s raw n))) size (modThread t (fun h => { h with reserved := some raw }) s)
  | 0x03 =>
    if a % n ≠ 0 then trap false 6 a t s
    else if !ok .store then trap false 7 a t s
    else if h.reserved = some raw then
      retire_ t (rdOf w) 0 size (modThread t (fun h => { h with reserved := none }) (devWrite raw (leBytes n b) s))
    else retire_ t (rdOf w) 1 size (modThread t (fun h => { h with reserved := none }) s)
  | _ =>
    let old := leNat (devRead s raw n)
    match amoOp f5 n old b with
    | none => illegal t bits_ s
    | some v =>
      if a % n ≠ 0 then trap false 6 a t s
      else if !ok .load ∨ !ok .store then trap false 7 a t (if pmpOk h (dataMode h) .load a n then countPoison a n s else s)
      else retire_ t (rdOf w) (sext (8 * n) old) size (devWrite raw (leBytes n v) s)

/-- MRET: back to the mode and enable that the trap saved. -/
def mret (t : Nat) (s : State) : State :=
  modThread t (fun h =>
    let st := mget 0 h.csr 0x300
    let m := bits st 12 11 == 3
    let st1 := at_ 3 (b2n (bitOf st 7)) + at_ 7 1 + (st &&& ((if m then 2 ^ 17 else 0) + 2 ^ 21))
    { h with mmode := m, pc := mget 0 h.csr 0x341, csr := mset 0 (mset 0 h.csr 0x300 st1) 0xB02 (m64 (mget 0 h.csr 0xB02 + 1)) }) s

/-- ECALL, EBREAK, MRET, WFI, which ends at once, and the CSR instructions. -/
def doSystem (t w size bits_ : Nat) (s : State) : State :=
  let h := thread s t
  if f3Of w = 0 then
    (if w = 0x00000073 then trap false (if h.mmode then 11 else 8) 0 t s
     else if w = 0x00100073 then trap false 3 h.pc t s
     else if w = 0x30200073 then (if h.mmode then mret t s else illegal t bits_ s)
     else if w = 0x10500073 then (if h.mmode || !bitOf (mget 0 h.csr 0x300) 21 then retire_ t 0 0 size s else illegal t bits_ s)
     else illegal t bits_ s)
  else if f3Of w = 4 then illegal t bits_ s
  else
    let n := bits w 31 20
    let src := if 4 < f3Of w then rs1Of w else xreg h (rs1Of w)
    let writes := f3Of w % 4 == 1 || rs1Of w != 0
    match csrRead t n s with
    | none => illegal t bits_ s
    | some old =>
      if writes && bits n 11 10 == 3 then illegal t bits_ s
      else
        let v := match f3Of w % 4 with
          | 1 => src
          | 2 => old ||| src
          | _ => old &&& (2 ^ 64 - 1 - src)
        retire_ t (rdOf w) old size (if writes then csrWrite t n v s else s)

/-- OP: base, M and illegal encodings. -/
def doOp (t w size bits_ : Nat) (s : State) : State :=
  let h := thread s t
  let a := xreg h (rs1Of w)
  let b := xreg h (rs2Of w)
  let f3 := f3Of w
  match f7Of w with
  | 0 => retire_ t (rdOf w) (alu f3 false a b) size s
  | 0x20 => if f3 = 0 ∨ f3 = 5 then retire_ t (rdOf w) (alu f3 true a b) size s else illegal t bits_ s
  | 1 => retire_ t (rdOf w) (mulDiv f3 a b) size s
  | _ => illegal t bits_ s

/-- OP-32. -/
def doOpW (t w size bits_ : Nat) (s : State) : State :=
  let h := thread s t
  let a := xreg h (rs1Of w)
  let b := xreg h (rs2Of w)
  let f3 := f3Of w
  match f7Of w with
  | 0 => if f3 = 0 ∨ f3 = 1 ∨ f3 = 5 then retire_ t (rdOf w) (aluW f3 false a b) size s else illegal t bits_ s
  | 0x20 => if f3 = 0 ∨ f3 = 5 then retire_ t (rdOf w) (aluW f3 true a b) size s else illegal t bits_ s
  | 1 => match mulDivW f3 a b with
    | some v => retire_ t (rdOf w) v size s
    | none => illegal t bits_ s
  | _ => illegal t bits_ s

/-- OP-IMM. -/
def doOpImm (t w size bits_ : Nat) (s : State) : State :=
  let a := xreg (thread s t) (rs1Of w)
  let sh := bits w 25 20
  match f3Of w with
  | 1 => if bits w 31 26 = 0 then retire_ t (rdOf w) (alu 1 false a sh) size s else illegal t bits_ s
  | 5 =>
    if bits w 31 26 = 0 then retire_ t (rdOf w) (alu 5 false a sh) size s
    else if bits w 31 26 = 0x10 then retire_ t (rdOf w) (alu 5 true a sh) size s
    else illegal t bits_ s
  | f3 => retire_ t (rdOf w) (alu f3 false a (immI w)) size s

/-- OP-IMM-32. -/
def doOpImmW (t w size bits_ : Nat) (s : State) : State :=
  let a := xreg (thread s t) (rs1Of w)
  match f3Of w with
  | 0 => retire_ t (rdOf w) (aluW 0 false a (immI w)) size s
  | 1 => if f7Of w = 0 then retire_ t (rdOf w) (aluW 1 false a (rs2Of w)) size s else illegal t bits_ s
  | 5 =>
    if f7Of w = 0 then retire_ t (rdOf w) (aluW 5 false a (rs2Of w)) size s
    else if f7Of w = 0x20 then retire_ t (rdOf w) (aluW 5 true a (rs2Of w)) size s
    else illegal t bits_ s
  | _ => illegal t bits_ s

/-- One ordinary instruction of a thread: w its 32-bit form, size its bytes, bits_ as it stands in memory. -/
def ordinary (t w size bits_ : Nat) (s : State) : State :=
  let h := thread s t
  match opc w with
  | 0x37 => retire_ t (rdOf w) (immU w) size s
  | 0x17 => retire_ t (rdOf w) (m64 (h.pc + immU w)) size s
  | 0x6F => jumpTo t (rdOf w) size (m64 (h.pc + immJ w)) s
  | 0x67 =>
    if f3Of w = 0 then jumpTo t (rdOf w) size (m64 (xreg h (rs1Of w) + immI w) / 2 * 2) s else illegal t bits_ s
  | 0x63 =>
    match branchTaken (f3Of w) (xreg h (rs1Of w)) (xreg h (rs2Of w)) with
    | some true => jumpTo t 0 size (m64 (h.pc + immB w)) s
    | some false => retire_ t 0 0 size s
    | none => illegal t bits_ s
  | 0x03 => doLoad t w size bits_ s
  | 0x23 => doStore t w size bits_ s
  | 0x13 => doOpImm t w size bits_ s
  | 0x1B => doOpImmW t w size bits_ s
  | 0x33 => doOp t w size bits_ s
  | 0x3B => doOpW t w size bits_ s
  | 0x0F => if f3Of w < 2 then retire_ t 0 0 size s else illegal t bits_ s
  | 0x73 => doSystem t w size bits_ s
  | 0x2F => doAmo t w size bits_ s
  | _ => illegal t bits_ s

/-! ### The thread extension (R392 to R401) -/

/-- CHANNEL_FAULT (R395). -/
def channelFault (t c : Nat) (s : State) : State := trap false 24 c t s

/-- May a thread's domain send to a channel (R398)? -/
def maySend (s : State) (t c : Nat) : Bool :=
  decide (c < 16384) && wbit (chCfg s c) 31 && (wbit (chCfg s c) 28 || fld (chCfg s c) 21 16 == (thread s t).domain)

/-- May a thread's domain receive from a channel (R399)? -/
def mayRecv (s : State) (t c : Nat) : Bool := decide (c < 16384) && c != 1 && c != 2 && fld (chCfg s c) 13 8 == (thread s t).domain

/-- The message that a thread's staging makes with a final word. -/
def stagedMsg (s : State) (t last : Nat) : ChMsg :=
  let h := thread s t
  { words := h.staging ++ [last], source := 0, sender := t, domain := h.domain, epoch := domEpoch s h.domain }

/-- TFORK: the lowest-numbered FREE thread of the same core. The child has its parent's mode and CSRs (assumption 75). -/
def tFork (t rd a b : Nat) (s : State) : State :=
  let h := thread s t
  match (List.range 16).find? (fun i => (thread s (t / 16 * 16 + i)).st == .free) with
  | none => retire_ t rd (2 ^ 64 - 1) 4 s
  | some i =>
    let c := t / 16 * 16 + i
    let d := mget 0 h.csr 0x7C0
    let child := startedThread (a / 2 * 2) b d (some t)
    let csr := mset 0 (mset 0 (mset 0 (mset 0 h.csr 0x300 0) 0x304 (2 ^ 16)) 0x7C0 d) 0xB02 0
    retire_ t rd c 4 (modThread c (fun _ => { child with mmode := h.mmode, csr := csr }) s)

/-- TJOIN. -/
def tJoin (t rd a w : Nat) (s : State) : State :=
  let c := thread s a
  if 1024 ≤ a ∨ c.st = .free ∨ c.parent ≠ some t then illegal t w s
  else if c.st = .zombie then retire_ t rd c.exit 4 (freeThread a s)
  else beginWait t (.join a) none rd 0 s

/-- TKILL. -/
def tKill (t a w : Nat) (s : State) : State :=
  if !(thread s t).mmode then illegal t w s
  else if a = t then endThread t (2 ^ 64 - 1) s
  else if 1024 ≤ a ∨ (thread s a).st = .free ∨ (thread s a).domain ≠ (thread s t).domain then illegal t w s
  else retire_ t 0 0 4 (if live s a then endThread a (2 ^ 64 - 1) s else s)

/-- CSEND. -/
def cSend (t a b : Nat) (s : State) : State :=
  if !maySend s t a then channelFault t a s
  else if chFull s a then beginWait t (.send a) none 0 b s
  else retire_ t 0 0 4 (modThread t (fun h => { h with staging := [] }) (commitMsg a (stagedMsg s t b) s))

/-- CTRYSEND. -/
def cTrySend (t rd a b : Nat) (s : State) : State :=
  if !maySend s t a then channelFault t a s
  else if chFull s a then retire_ t rd 1 4 s
  else retire_ t rd 0 4 (modThread t (fun h => { h with staging := [] }) (commitMsg a (stagedMsg s t b) s))

/-- CRECV: a message, or the deadline, or a wait. -/
def cRecv (t rd a b : Nat) (s : State) : State :=
  if !mayRecv s t a then channelFault t a s
  else match takeMsg t a s with
  | some (v, s1) => retire_ t rd v 4 s1
  | none => if b ≠ 0 ∧ b ≤ now s then retire_ t rd 0 4 s else beginWait t (.recv a) (if b = 0 then none else some b) rd 0 s

/-- CPOLL. -/
def cPoll (t rd a : Nat) (s : State) : State :=
  if !mayRecv s t a then channelFault t a s
  else match takeMsg t a s with
  | some (v, s1) => retire_ t rd v 4 s1
  | none => retire_ t rd 0 4 s

/-- HALLOC: for a length outside 14 to 16,380 the spec states no result: rd is a free value and no handle is taken (assumption 1). -/
def hAlloc (t rd n : Nat) (s : State) : State :=
  if n < 14 ∨ 16380 < n then let v := takeFree s; retire_ t rd (m64 v.1) 4 v.2
  else match freeHandleNo s with
  | none => retire_ t rd (2 ^ 64 - 1) 4 s
  | some k => match hallocNow k n (thread s t).domain s with
    | some s1 => retire_ t rd k 4 s1
    | none => beginWait t (.halloc n) none rd 0 s

/-- HFREE: a handle that the caller's domain does not hold stays as it is (assumption 76). -/
def hFree (t a : Nat) (s : State) : State :=
  match mfind s.svc.handles a with
  | some x => retire_ t 0 0 4 (if x.owner = .domain (thread s t).domain then freeHandle a s else s)
  | none => retire_ t 0 0 4 s

/-- One instruction of the thread extension (R392): a field it does not use must be zero. -/
def extension (t w : Nat) (s : State) : State :=
  let h := thread s t
  let rd := rdOf w
  let a := xreg h (rs1Of w)
  let b := xreg h (rs2Of w)
  let no (d r1 r2 : Bool) : Bool := (d || rd == 0) && (r1 || rs1Of w == 0) && (r2 || rs2Of w == 0)
  if f3Of w ≠ 0 then illegal t w s
  else match f7Of w with
  | 0x00 => tFork t rd a b s
  | 0x01 => if no true true false then tJoin t rd a w s else illegal t w s
  | 0x02 => if no false true false then endThread t a s else illegal t w s
  | 0x03 => if no false true false then tKill t a w s else illegal t w s
  | 0x08 =>
    if no false true false && decide (h.staging.length < 7) then retire_ t 0 0 4 (modThread t (fun h => { h with staging := h.staging ++ [a] }) s)
    else illegal t w s
  | 0x09 => if no false true true then cSend t a b s else illegal t w s
  | 0x0A => cTrySend t rd a b s
  | 0x0B => if no false false false then retire_ t 0 0 4 (modThread t (fun h => { h with staging := [] }) s) else illegal t w s
  | 0x0C => cRecv t rd a b s
  | 0x0D => if no true true false then cPoll t rd a s else illegal t w s
  | 0x0E => if no true true false then retire_ t rd (if a < h.rx.length then h.rx.getD a 0 else 0) 4 s else illegal t w s
  | 0x10 =>
    if !no false true false then illegal t w s
    else if a ≤ now s then retire_ t 0 0 4 s else beginWait t .until (some a) 0 0 s
  | 0x14 => if no true true false then hAlloc t rd a s else illegal t w s
  | 0x15 => if no false true false then hFree t a s else illegal t w s
  | _ => illegal t w s

/-! ### Issue (R389) -/

/-- Is a thread ready? -/
def ready_ (s : State) (t : Nat) : Bool := (thread s t).st == .running && !(thread s t).halted

/-- The thread that a core issues from next: the first ready one after the last, in slot order (R389); a core that holds more than sixteen
contexts runs the first sixteen (R391). -/
def nextThread (s : State) (core : Nat) : Option (Nat × Nat) :=
  let l := (coreContexts s core).take 16
  let last := mget 15 s.svc.last core
  firstSome (fun k =>
    let i := (last + 1 + k) % 16
    match l[i]? with
    | some t => if ready_ s t then some (i, t) else none
    | none => none) (List.range 16)

/-- A core that runs issues one instruction of its next ready thread, where p holds of it: a pending STALL interrupt that the thread may take
comes first. -/
def issue (p : Nat → Bool) (core : Nat) (s : State) : State :=
  if !fastRuns s || !coreUp s core then s
  else match nextThread s core with
  | none => s
  | some (i, t) =>
    let s1 := takeStall t s
    let h := thread s1 t
    let s2 := worked (.svcCore (corePhys s core)) (modSvc (fun v => { v with last := mset 15 v.last core i }) s1)
    if h.pc % 2 ≠ 0 then trap false 0 h.pc t s2
    else match fetchInstr s1 h with
    | none => if p 0 then trap false 1 h.pc t (if pmpOk h h.mmode .fetch h.pc 2 then countPoison h.pc 4 s2 else s2) else s
    | some (none, _, own) => if p 0 then illegal t own s2 else s
    | some (some w, size, own) =>
      if !p w then s
      else if opc w = 0x0B ∧ size = 4 then extension t w s2 else ordinary t w size own s2

/-- Is a word an instruction of the thread extension with this funct7? -/
def isExt (f7 w : Nat) : Bool := opc w == 0x0B && f3Of w == 0 && f7Of w == f7

/-- Is a word one of the fourteen instructions of the thread extension? -/
def anyExt (w : Nat) : Bool := [0, 1, 2, 3, 8, 9, 0xA, 0xB, 0xC, 0xD, 0xE, 0x10, 0x14, 0x15].any (fun f => isExt f w)

/-- INSTRUCTION_ISSUE: any instruction but those of the thread extension, which have rows of their own. -/
def execInstructionIssue (core : Nat) (s : State) : Outcome := .next (issue (fun w => !anyExt w) core s)

/-- The instructions of the thread extension: the core's next ready thread issues its instruction, where it is that one. -/
def execTfork (core : Nat) (s : State) : Outcome := .next (issue (isExt 0x00) core s)
def execTjoin (core : Nat) (s : State) : Outcome := .next (issue (isExt 0x01) core s)
def execTexit (core : Nat) (s : State) : Outcome := .next (issue (isExt 0x02) core s)
def execTkill (core : Nat) (s : State) : Outcome := .next (issue (isExt 0x03) core s)
def execCput (core : Nat) (s : State) : Outcome := .next (issue (isExt 0x08) core s)
def execCsend (core : Nat) (s : State) : Outcome := .next (issue (isExt 0x09) core s)
def execCtrysend (core : Nat) (s : State) : Outcome := .next (issue (isExt 0x0A) core s)
def execCclear (core : Nat) (s : State) : Outcome := .next (issue (isExt 0x0B) core s)
def execCrecv (core : Nat) (s : State) : Outcome := .next (issue (isExt 0x0C) core s)
def execCpoll (core : Nat) (s : State) : Outcome := .next (issue (isExt 0x0D) core s)
def execCget (core : Nat) (s : State) : Outcome := .next (issue (isExt 0x0E) core s)
def execTwait (core : Nat) (s : State) : Outcome := .next (issue (isExt 0x10) core s)
def execHalloc (core : Nat) (s : State) : Outcome := .next (issue (isExt 0x14) core s)
def execHfree (core : Nat) (s : State) : Outcome := .next (issue (isExt 0x15) core s)

end Sys2Proof.Machine
end

