-- ==== Sys2Proof/Machine/PathCmds.lean ====
section
/-!
DEFINITION. The commands that are a path's write or read of one register (R7, R15, R100, R103, R127): each is that access to the path's BARs,
so that a path that cannot reach the registers is turned away, and a block that does not run, or that a Col pause holds, is waited for.
What the write does stands with the registers that act.
-/
namespace Sys2Proof.Machine

/-- The offset of instance i of a register in a path's BAR0, where the path has the register (R12, R14, R177, R408, R474). -/
def regBar (p : Path) (r : Reg) (i : Nat) : Option Nat :=
  if r.info.count * r.info.count2 ≤ i then none
  else match asPath p, r.info.space with
  | .fn (.vf _ _), .vf => some (regOff r i)
  | .fn (.vf _ _), .block 3 => if r = .QM_EVENT_MASK then none else some (0x100 + regOff r i)
  | .fn (.vf _ _), .block 12 => if r.info.held = .function then some (0x300 + regOff r i) else none
  | .fn (.vf _ _), _ => none
  | _, .block b => some (0x200000 * b + regOff r i)
  | _, .vf => none

/-- A path's write of a register; one that the path does not have is not written. -/
def writeOf (p : Path) (r : Reg) (i : Nat) (v : Word) (s : State) : State :=
  match regBar p r i with
  | some off => accessWrite p 0 off v s
  | none => s

/-- A path's read of a register. -/
def readOf (p : Path) (r : Reg) (i : Nat) (s : State) : State :=
  match regBar p r i with
  | some off => accessRead p off s
  | none => s

/-- Does an access by a path to an offset of a block's window or of a VF's BAR0 act at once: the path is open to the registers, no NVMe function's
BARs stand there, and the block runs with nothing held before it? -/
def actsAt (p : Path) (off : Nat) (s : State) : Bool :=
  pathOpen s p && !nvmePath s (asPath p) && !accessWaits s (asPath p) off && !blockDead s (asPath p) (accessBlk s (asPath p) off)
    && (p != .debug || debugReaches s off true)

/-- A path acts as a VF. -/
def vfPath (p : Path) : Bool :=
  match asPath p with
  | .fn f => isVf f
  | _ => false

/-- Does a path find instance i of a register at an offset: of a VF's BAR0 below its doorbells, or of a block's window past its header, that of
LCS apart (R12, R14, R467, R474)? -/
def findsAt (p : Path) (off : Nat) (r : Reg) (i : Nat) : Bool :=
  regAt (asPath p) off == some (r, i) &&
    (if vfPath p then decide (off < 0x4000) else decide (off < 0x2000000 ∧ off / 0x200000 ≠ 1 ∧ 0x100 ≤ off % 0x200000))

/-- Do the occurrence counts stand at an offset of a path's BAR0 (R444, R474)? -/
def countsAt (p : Path) (off : Nat) : Bool :=
  if vfPath p then decide (0x480 ≤ off ∧ off < 0x490)
  else decide ((off / 0x200000 = 15 ∧ 0x100000 ≤ off % 0x200000) ∨ (off / 0x200000 = 2 ∧ 0x800 ≤ off % 0x200000 ∧ off % 0x200000 < 0x830))

/-- The state in which an access acts: it is work for its block (R15, R78). -/
def atWork (p : Path) (off : Nat) (s : State) : State := wakeBlock (asPath p) (accessBlk s (asPath p) off) s

/-! ### Modes (R95, R96, R112) -/

/-- DRAIN, DRAIN_STANDBY, CANCEL and RESTART: REQUEST of CAI_MODE_REQ. -/
def execDrain (p : Path) (s : State) : Outcome := .next (writeOf p .CAI_MODE_REQ 0 1 s)
def execDrainStandby (p : Path) (s : State) : Outcome := .next (writeOf p .CAI_MODE_REQ 0 2 s)
def execCancel (p : Path) (s : State) : Outcome := .next (writeOf p .CAI_MODE_REQ 0 3 s)
def execRestartRequest (p : Path) (s : State) : Outcome := .next (writeOf p .CAI_MODE_REQ 0 4 s)

/-! ### Queues (R177 to R180) -/

/-- CREATE, DESTROY and RESTART: ACTION of QM_Q_CTRL. -/
def execQCreate (p : Path) (s : State) : Outcome := .next (writeOf p .QM_Q_CTRL 0 1 s)
def execQDestroy (p : Path) (s : State) : Outcome := .next (writeOf p .QM_Q_CTRL 0 2 s)
def execQueueRestart (p : Path) (s : State) : Outcome := .next (writeOf p .QM_Q_CTRL 0 3 s)

/-! ### Functions and migration (R185 to R196) -/

/-- ACTION of a PF's HIF_VF_CTRL. -/
def vfCtrlWrite (pf action : Nat) (s : State) : State := writeOf (.fn (.pf pf)) .HIF_VF_CTRL 0 (w32 action) s

/-- GRANT, LOG_START, LOG_SWAP, LOG_STOP, FREEZE and UNFREEZE. -/
def execVfGrant (pf : Nat) (s : State) : Outcome := .next (vfCtrlWrite pf 1 s)
def execLogStart (pf : Nat) (s : State) : Outcome := .next (vfCtrlWrite pf 2 s)
def execLogSwap (pf : Nat) (s : State) : Outcome := .next (vfCtrlWrite pf 3 s)
def execLogStop (pf : Nat) (s : State) : Outcome := .next (vfCtrlWrite pf 4 s)
def execVfFreeze (pf : Nat) (s : State) : Outcome := .next (vfCtrlWrite pf 5 s)
def execVfUnfreeze (pf : Nat) (s : State) : Outcome := .next (vfCtrlWrite pf 8 s)

/-- VPORT_BIND: a write of HIF_VF_VPORT. -/
def execVportBind (pf : Nat) (v : Word) (s : State) : Outcome := .next (writeOf (.fn (.pf pf)) .HIF_VF_VPORT 0 v s)

/-- A PF's action whose host access ends as op says, where the write takes effect at once. -/
def vfCtrlEnds (pf action : Nat) (op : State → State) (s : State) : State :=
  let p := Path.fn (.pf pf)
  match regBar p .HIF_VF_CTRL 0 with
  | none => s
  | some off => if !pathOpen s p || accessWaits s p off || blockDead s p 2 || nvmePath s p then vfCtrlWrite pf action s else op (wakeBlock p 2 s)

/-- SAVE: the write begins it, and its host writes land or fail. One that is held lands when it is released. -/
def execVfSave (pf : Nat) (res : HostWriteEnd) (s : State) : Outcome := .next (vfCtrlEnds pf 6 (vfSave pf res) s)

/-- RESTORE: the write begins it where none waits for its image, and the image is read. -/
def execVfRestore (pf : Nat) (image : HostRead) (s : State) : Outcome :=
  .next (vfRestore pf image (if (restoring s pf).isSome then s else vfCtrlWrite pf 7 s))

/-! ### Ports and parse engines (R202, R210, R217, R222, R253, R256) -/

def execPortCfgWrite (p : Path) (port : Nat) (v : Word) (s : State) : Outcome := .next (writeOf p .MAC_PORT_CFG port v s)

/-- ADD, DELETE and READ of MAC_FLT_CTRL. -/
def execFilterAdd (p : Path) (s : State) : Outcome := .next (writeOf p .MAC_FLT_CTRL 0 1 s)
def execFilterDelete (p : Path) (index : Nat) (s : State) : Outcome := .next (writeOf p .MAC_FLT_CTRL 0 (w32 (2 + at_ 16 index)) s)
def execFilterRead (p : Path) (index : Nat) (s : State) : Outcome := .next (writeOf p .MAC_FLT_CTRL 0 (w32 (3 + at_ 16 index)) s)

def execStatSnap (p : Path) (lp : Nat) (s : State) : Outcome := .next (writeOf p .MAC_LP_STAT_SNAP lp 1 s)
def execGateCommit (p : Path) (lp : Nat) (s : State) : Outcome := .next (writeOf p .MAC_GATE_COMMIT lp 1 s)
def execMdioStart (p : Path) (v : Word) (s : State) : Outcome := .next (writeOf p .MGT_MDIO_CTRL 0 v s)
def execPrsLoadStart (p : Path) (s : State) : Outcome := .next (writeOf p .PRS_LOAD_CTRL 0 1 s)

/-- PRS_IND_WRITE: a write of PRS_IND_ENTRY, or of PRS_IND_CFG. -/
def execPrsIndWrite (p : Path) (entry : Bool) (v : Word) (s : State) : Outcome :=
  .next (writeOf p (if entry then .PRS_IND_ENTRY else .PRS_IND_CFG) 0 v s)

/-! ### Tables, scheduler and meters (R258, R271, R302, R318, R319) -/

def execHashSeedWrite (p : Path) (which : Nat) (v : Word) (s : State) : Outcome := .next (writeOf p .TBL_HASH_SEED which v s)
def execTblProgWrite (p : Path) (s : State) : Outcome := .next (writeOf p .TBL_PROG_WRITE 0 1 s)
def execProgBankSwitch (p : Path) (bank : Bool) (s : State) : Outcome := .next (writeOf p .TBL_PROG_CTRL 0 (w32 (b2n bank)) s)

/-- The register of a scheduler node at an offset of the TM window (R318). -/
def nodeReg (off : Nat) : Option Reg :=
  [Reg.TM_NODE_CFG, .TM_NODE_RATE, .TM_NODE_BURST, .TM_NODE_ADJ, .TM_NODE_QLIMIT_G, .TM_NODE_QLIMIT_Y, .TM_NODE_QLIMIT_R, .TM_NODE_DEFQ].find?
    (fun r => r.info.off == off)

/-- NODE_WRITE: a write of the node register at an offset of the TM window. -/
def execNodeWrite (p : Path) (off : Nat) (v : Word) (s : State) : Outcome :=
  match nodeReg off with
  | some r => .next (writeOf p r 0 v s)
  | none => .next s

def execMeterWrite (p : Path) (s : State) : Outcome := .next (writeOf p .TM_METER_CTRL 0 1 s)
def execMeterRead (p : Path) (s : State) : Outcome := .next (writeOf p .TM_METER_CTRL 0 2 s)

/-! ### Storage and mover (R348, R357, R358, R381, R383 to R385) -/

/-- ACTION of STO_CTX_CTRL and of STO_NS_CTRL. -/
def execCtxWrite (p : Path) (s : State) : Outcome := .next (writeOf p .STO_CTX_CTRL 0 1 s)
def execCtxRead (p : Path) (s : State) : Outcome := .next (writeOf p .STO_CTX_CTRL 0 2 s)
def execCtxResume (p : Path) (s : State) : Outcome := .next (writeOf p .STO_CTX_CTRL 0 3 s)
def execCtxDisable (p : Path) (s : State) : Outcome := .next (writeOf p .STO_CTX_CTRL 0 4 s)
def execNsWrite (p : Path) (s : State) : Outcome := .next (writeOf p .STO_NS_CTRL 0 1 s)
def execNsRead (p : Path) (s : State) : Outcome := .next (writeOf p .STO_NS_CTRL 0 2 s)

/-- An action on a mover channel: a VF names the channel in the write; any other path selects it first (R384, R385). -/
def channelAction (p : Path) (ch action : Nat) (s : State) : State :=
  match asPath p with
  | .fn (.vf _ _) => writeOf p .VF_DMV_CTRL 0 (w32 (ch % 64 + at_ 8 action)) s
  | _ => writeOf p .DMV_CH_CTRL 0 (w32 action) (writeOf p .DMV_CH_SELECT 0 (w32 ch) s)

/-- RESUME and ABORT, and START, which a VF does not have. -/
def execChannelResume (p : Path) (ch : Nat) (s : State) : Outcome := .next (channelAction p ch 1 s)
def execChannelAbort (p : Path) (ch : Nat) (s : State) : Outcome := .next (channelAction p ch 2 s)
def execChannelStart (p : Path) (ch : Nat) (s : State) : Outcome := .next (channelAction p ch 3 s)

/-! ### Services, time, cascade and lifecycle (R48 to R52, R397, R408, R417, R454, R455, R461 to R464) -/

def execSvcChCfgWrite (p : Path) (v : Word) (s : State) : Outcome := .next (writeOf p .SVC_CH_CFG 0 v s)
def execMbxSend (f : Fn) (v : Word) (s : State) : Outcome := .next (writeOf (.fn f) .MBX_H2F_CTRL 0 v s)
def execMbxF2hPop (f : Fn) (s : State) : Outcome := .next (readOf (.fn f) .MBX_F2H_POP 0 s)
def execFmbxSend (p : Path) (v : Word) (s : State) : Outcome := .next (writeOf p .SVC_FMBX_CTRL 0 v s)

def execManualCommit (p : Path) (s : State) : Outcome := .next (writeOf p .TIM_MANUAL_COMMIT 0 1 s)
def execReacquire (p : Path) (s : State) : Outcome := .next (writeOf p .TIM_CTRL 0 1 s)

/-- TIM_REF_CFG_WRITE: the configuration of reference slot 1 to 20. -/
def execTimRefCfgWrite (p : Path) (slot : Nat) (v : Word) (s : State) : Outcome :=
  .next (if slot = 0 then s else writeOf p .TIM_REF_CFG (slot - 1) v s)

def execBoundAlarmWrite (p : Path) (v : Word) (s : State) : Outcome := .next (writeOf p .TIM_BOUND_ALARM 0 v s)
def execTimUtcWrite (p : Path) (v : Word) (s : State) : Outcome := .next (writeOf p .TIM_UTC 0 v s)

/-- LEAP_AT_WRITE: a word of TIM_LEAP_AT. -/
def execLeapAtWrite (p : Path) (high : Bool) (v : Word) (s : State) : Outcome :=
  .next (writeOf p (if high then .TIM_LEAP_AT_HI else .TIM_LEAP_AT_LO) 0 v s)

def execTimSnap (p : Path) (s : State) : Outcome := .next (writeOf p .TIM_SNAP 0 1 s)

/-- FORGET of a member: a write of AKZ_CTRL. -/
def execForget (p : Path) (member : Nat) (s : State) : Outcome := .next (writeOf p .AKZ_CTRL 0 (w32 (member % 8 + at_ 31 1)) s)

def execTokenSubmit (p : Path) (s : State) : Outcome := .next (writeOf p .LCS_TOKEN_CTRL 0 1 s)
def execDebugEnd (p : Path) (s : State) : Outcome := .next (writeOf p .LCS_TOKEN_CTRL 0 2 s)
def execNonceRead (p : Path) (s : State) : Outcome := .next (readOf p .LCS_NONCE_LO 0 s)

/-- A path asks for an action on the image: a function by a message of its mailbox, which firmware carries out, any other path by ACTION of
LCS_FW_CTRL, which no function may write (R459, R470). -/
def fwAsk (p : Path) (v : Word) (act : Path → State → State) (s : State) : State :=
  match p with
  | .fn f => if firmwareUp s && (fnSt s f).ready then act p s else s
  | _ => writeOf p .LCS_FW_CTRL 0 v s

def execActivate (p : Path) (s : State) : Outcome := .next (fwAsk p 1 activate s)
def execCommit (p : Path) (s : State) : Outcome := .next (fwAsk p 2 commit s)
def execRollback (p : Path) (s : State) : Outcome := .next (fwAsk p 3 rollback s)
/-- SWITCHED: ACTION of LCS_FW_CTRL. -/
def execSwitched (p : Path) (s : State) : Outcome := .next (writeOf p .LCS_FW_CTRL 0 4 s)

end Sys2Proof.Machine
end

