-- ==== Sys2Proof/Machine/Pins.lean ====
section
/-!
DEFINITION. The levels of the output pins (R59 to R61, R81, R86, R87, R89, R92): what each drives as the state stands, and the moments at which all
of them are released.
-/
namespace Sys2Proof.Machine

/-- Every digital output of R92. -/
def digitalOutputs : List OutPin :=
  [.faultN, .wakeN, .ppsOut 0, .ppsOut 1, .freqOut, .todTx, .led 0, .led 1, .led 2, .led 3, .smbScl, .smbSda, .smbAlertN, .i3cScl, .i3cSda, .jtagTdo,
   .xspiCsN, .xspiSclk, .xspiResetN] ++ (List.range 8).map .xspiDq ++ [.xspiDqs, .mgtTxCtl] ++ (List.range 4).map .mgtTxd ++ [.mgtTxc, .mgtMdc, .mgtMdio]

/-- With PORST_N low, and with the rails of the pins absent, every digital output is released (R92). -/
def releasePins (s : State) : State := foldS (fun p s => emit (.pin p .z) s) digitalOutputs s

/-- Does one of the causes of R86 hold FAULT_N low? -/
def faultLow (s : State) : Bool := s.cai.orderFault || s.cai.railFault || s.cai.tripped || s.cai.fatal

/-- FREQ_OUT (R60): 10 MHz, high for the first half of each 100 ns; a rising edge falls on each TAI second, but in FREERUN the wave runs from the
time counter with a phase of its own (assumption 1); held low in FREERUN under SQUELCH, and not driven without ENABLE. -/
def freqOut (s : State) : Level :=
  let c := reg s .TIM_FREQ_OUT_CFG 0 0
  let free := s.tim.servo == .freerun
  if !wbit c 0 then .z
  else if free && wbit c 1 then .low
  else if (nowFrac s / 0x10000 + (if free then Config.freqPhase else 0)) % 100 < 50 then .high else .low

/-- A logical port of physical port n is up; its activity blinks the LED by a pattern that the spec does not give (assumption 1). -/
def portLed (s : State) (n : Nat) : Bool :=
  let ps := (s.mac.lports.drop (8 * n)).take 8
  ps.any (fun p => p.up) && (ps.all (fun p => p.sending.isNone) || Config.ledBlink s.elapsed)

/-- What an LED code shows (R87): 6 blinks at 1 Hz, lit for half of each second (assumption 127); 9 to 15 are treated as 0. -/
def ledLit (s : State) (code : Nat) : Bool :=
  match code with
  | 1 => portLed s 0
  | 2 => portLed s 1
  | 3 => s.tim.servo == .locked
  | 4 => (halfSt s 0).up
  | 5 => (halfSt s 1).up
  | 6 => decide (s.elapsed % 1000000000 < 500000000)
  | 7 => true
  | 8 => faultLow s
  | _ => false

/-- WAKE_N (R81): open-drain, low in STANDBY while a wake source is pending and until every main rail is good. -/
def wakeLow (s : State) : Bool := s.cai.mode == .standby && s.cai.wakeSource && !railsGood s

/-- What the function of a pin drives (R59, R60, R81, R86, R87); the bus pins idle (R92). -/
def functionLevel (s : State) : OutPin → Level
  | .faultN => if faultLow s then .low else .high
  | .wakeN => if wakeLow s then .low else .z
  | .ppsOut n => if wbit (reg s .TIM_PPS_OUT_CFG n 0) 31 then (if (s.tim.ppsOut.getD n {}).high then .high else .low) else .z
  | .freqOut => freqOut s
  | .todTx => if dfld s .TIM_TOD_CFG 24 24 = 1 then .high else .z
  | .led n => if ledLit s (fld (reg s .CAI_LED_CFG 0 0) (4 * n + 3) (4 * n)) then .low else .z
  | .xspiCsN | .xspiResetN => if railsGood s then .high else .z
  | .xspiSclk | .mgtTxCtl | .mgtMdc => if railsGood s then .low else .z
  | _ => .z

/-- The level of a pin (R89, R92): released with PORST_N low or without the stage A rails; the boundary-scan register drives it under EXTEST and
CLAMP, HIGHZ releases it, and else its function drives it. -/
def pinLevel (s : State) (p : OutPin) : Level :=
  if !cairnRuns s then .z
  else match s.cai.tap.pins with
  | 1 => if Config.boundaryDrives s.cai.tap.boundary (digitalOutputs.idxOf p) then .high else .low
  | 2 => .z
  | _ => functionLevel s p

/-- The level that the board's resistors give a pin that is not driven (R92); those without a resistor are as the board leaves them. -/
def boardHigh : OutPin → Option Bool
  | .faultN | .ppsOut _ | .freqOut | .xspiSclk | .xspiResetN | .mgtTxCtl | .mgtMdc => some false
  | .wakeN | .todTx | .led _ | .smbScl | .smbSda | .smbAlertN | .jtagTdo | .xspiCsN | .mgtMdio => some true
  | _ => none

/-- A pin as the boundary-scan register captures it (R89): 0, 1, or 2 where nothing fixes it. -/
def captured (s : State) (p : OutPin) : Nat :=
  match pinLevel s p with
  | .low => 0
  | .high => 1
  | .z => match boardHigh p with
    | some b => b2n b
    | none => 2

end Sys2Proof.Machine
end

