-- ==== Sys2Proof/Machine/Power.lean ====
section
/-!
DEFINITION. The commands of package_power_clocks on rails, PORST_N, temperatures, clocks, wakes and the board interfaces.
-/
namespace Sys2Proof.Machine

/-! ### Always-on rails and PORST_N (R83, R94, R95, R475) -/

/-- AON_RAIL_UP: both stage A rails are within range; HELD until PORST_N has been low for its minimum and has risen (R94). -/
def execAonRailUp (s : State) : Outcome :=
  if s.cai.mode ≠ .off then .next s
  else .next (modCai (fun c => { c with stageA := true, mode := .held, prevMode := .off, porstLow := true, porstSince := s.elapsed }) (powerReset s))

/-- AON_RAIL_LOSS: the device is OFF, time is lost, and the pins are released (R29, R92, R475). -/
def execAonRailLoss (s : State) : Outcome :=
  .next (modCai (fun c => { c with stageA := false, mode := .off, prevMode := .off }) (releasePins (powerReset s)))

/-- PORST_ASSERT: low beyond its filter of 10 µs, the device is HELD, everything is reset and the pins are released (R83, R92, R95). -/
def execPorstAssert (s : State) : Outcome :=
  if s.cai.mode = .off then .next s
  else .next (modCai (fun c => { c with mode := .held, prevMode := s.cai.mode, porstLow := true, porstSince := s.elapsed })
    (releasePins (powerReset s)))

/-- PORST_DEASSERT: after the minimum low time of 1 ms the straps are sampled, a wake is pending, time starts in FREERUN with the bound
UNKNOWN, and the device goes to STANDBY (R29, R82, R83, R94, R107, R477); the change is recorded and raised (R115). With no oscillator fitted OSC_FAULT is set for good (R76). -/
def execPorstDeassert (straps : BitVec 8) (s : State) : Outcome :=
  if s.cai.mode ≠ .held ∨ !s.cai.porstLow then .next s
  else
    let s1 := powerReset (advanceTo (s.cai.porstSince + 1000000) s)
    let none_ := bits straps.toNat 1 0 == 3
    let s2 := modCai (fun c => { c with mode := .standby, prevMode := .held, porstLow := false, straps := straps, wakePending := true }) s1
    let s3 := modTim (fun t => { t with oscFault := none_ || !t.tosc, tosc := t.tosc && !none_ }) s2
    .next (raise 0x0 0x07 (Mode.standby.code + 16 * Mode.held.code) .device (resumeTime (emit (.pin .faultN .high) s3)))

/-! ### Main rails (R71 to R74, R86, R107) -/

/-- The place of a rail in CAI_RAIL_STATUS (R87). -/
def railNo : Rail → Nat
  | .vppHbm => 0 | .vddio => 1 | .vddaSerdes => 2 | .vddHbm => 3 | .vddSerdes => 4 | .vddCore => 5

/-- s with a rail changed by g. -/
def modRail (r : Rail) (g : RailSt → RailSt) (s : State) : State := modCai (fun c => { c with rails := updAt (railNo r) g c.rails }) s

/-- RAIL_GOOD (R73, R84, R86, R107): the return of every main rail ends an order fault, once each has fallen below 10%, or a rail fault. -/
def execRailGood (rail : Rail) (s : State) : Outcome :=
  let r := s.cai.rails.getD (railNo rail) {}
  if r.good then .next s
  else
    let s1 := modRail rail (fun r => { r with inRange := true, good := true, below10 := false }) (if r.inRange then advanceTo (r.since + 1000000) s else s)
    if !railsGood s1 ∨ !cairnRuns s1 then .next s1
    else
      let fell := s1.cai.rails.all (fun r => r.fell)
      let s2 := if s.cai.mode = .standby ∧ s.cai.wakeSource then emit (.pin .wakeN .z) s1 else s1
      let s3 :=
        if s.cai.orderFault then
          (if fell then setWake 3 (modCai (fun c => { c with orderFault := false, railFault := true }) s2) else s2)
        else if s.cai.railFault then setWake 1 s2 else s2
      .next (startTraining 1 (startTraining 0 s3))

/-- The main rails have gone in STANDBY: what HBM and the SRAM of the fast domains held is gone, and a pending wake source drives WAKE_N low
(R74, R81). -/
def railsRemoved (s : State) : State :=
  let s1 := { s with dev := [], tbl := {}, rel := { s.rel with stoppedInOrder := false, poison := [] } }
  if s.cai.wakeSource then emit (.pin .wakeN .low) s1 else s1

/-- RAIL_FAULT (R73, R74, R86, R88): a main rail leaves its range for more than 5 µs, and may have fallen below 10% of nominal. In STANDBY and HELD that is an orderly removal. -/
def execRailFault (loss : RailLoss) (s : State) : Outcome :=
  let s1 := modRail loss.rail (fun r => { r with inRange := false, good := false, below10 := loss.below10, fell := r.fell || loss.below10 }) s
  match s.cai.mode with
  | .off => .next s1
  | .standby => .next (railsRemoved s1)
  | .held => if s.cai.porstLow then .next s1 else .next (stopFast s1)
  | _ =>
    let s2 := hwSet .CAI_FAULT 0 0 9 (hwSet .CAI_FAULT 0 0 (railNo loss.rail) s1)
    .next (raise 0x0 0x01 (railNo loss.rail) .device
      (modCai (fun c => { c with railFault := true, wakePending := false, wakeCause := 1 }) (faultStop s2)))

/-- RAIL_ORDER (R72): a stage C rail rises above 10% while a stage B rail is below its range. -/
def execRailOrder (rail : Rail) (s : State) : Outcome :=
  let stageB := (s.cai.rails.take 3).all (fun r => r.inRange)
  if railNo rail < 3 ∨ stageB ∨ !cairnRuns s then .next (if railNo rail < 3 then s else modRail rail (fun r => { r with below10 := false }) s)
  else
    let s1 := modCai (fun c => { c with rails := c.rails.map (fun r => { r with fell := r.below10 }) }) s
    let s2 := modRail rail (fun r => { r with below10 := false, fell := false }) (hwSet .CAI_FAULT 0 0 8 s1)
    .next (raise 0x0 0x02 (railNo rail) .device
      (modCai (fun c => { c with orderFault := true, wakePending := false, wakeCause := 3 }) (faultStop s2)))

/-! ### Temperatures (R85) -/

/-- WARN and TRIP in units of 0.25 °C (R87). -/
def warnAt (s : State) : Int := 4 * (dfld s .CAI_THERM_CFG 7 0 : Int)
def tripAt (s : State) : Int := 4 * (min 125 (dfld s .CAI_THERM_CFG 15 8) : Nat)

/-- A sensor's reading: THERMAL_WARN is set and raised at WARN, and again only after 3 °C below it (R85). -/
def takeReading (sensor : Nat) (v : Int) (s : State) : State :=
  let s1 := modCai (fun c => { c with temps := c.temps.set sensor v }) s
  let h := hottest s1
  if warnAt s ≤ h.1 ∧ s.cai.warnArmed then
    raise 0x0 0x03 h.2 .device (hwSet .CAI_FAULT 0 0 10 (modCai (fun c => { c with warnArmed := false }) s1))
  else if h.1 ≤ warnAt s - 12 then modCai (fun c => { c with warnArmed := true }) s1
  else s1

/-- THERMAL_WARN and THERMAL_WARN_REARM: a reading of a sensor, in units of 0.25 °C (R85). -/
def execThermalWarn (sensor : Nat) (reading : Int) (s : State) : Outcome := if cairnRuns s then .next (takeReading sensor reading s) else .next s
def execThermalWarnRearm (sensor : Nat) (reading : Int) (s : State) : Outcome := if cairnRuns s then .next (takeReading sensor reading s) else .next s

/-- THERMAL_TRIP: a reading reaches TRIP, and the device stops as for a rail fault (R85). -/
def execThermalTrip (sensor : Nat) (reading : Int) (s : State) : Outcome :=
  if !cairnRuns s then .next s
  else
    let s1 := takeReading sensor reading s
    if 16 ≤ sensor ∨ reading < tripAt s ∨ s.cai.tripped then .next s1
    else .next (raise 0x0 0x04 sensor .device
      (modCai (fun c => { c with tripped := true, wakePending := false, wakeCause := 2 }) (faultStop (hwSet .CAI_FAULT 0 0 11 s1))))

/-- THERMAL_RECOVER: every reading is 10 °C below TRIP (R85, R107); the rails being good, the restart is due. -/
def execThermalRecover (readings : List Int) (s : State) : Outcome :=
  if !cairnRuns s then .next s
  else
    let s1 := foldS (fun (e : Int × Nat) s => takeReading e.2 e.1 s) (readings.take 16).zipIdx s
    if s.cai.tripped ∧ s1.cai.temps.all (fun t => decide (t ≤ tripAt s - 40)) then
      .next (setWake 2 (modCai (fun c => { c with tripped := false, railFault := true }) s1))
    else .next s1

/-! ### Clocks (R76, R77, R84) -/

/-- SYSCLK_FAULT: the Cairn domain changes over to TOSC_IN where that runs, and time is unaffected (R76); with neither clock, time is
lost (R29). -/
def execSysclkFault (s : State) : Outcome :=
  if !s.cai.sysclk then .next s
  else
    let s1 := modCai (fun c => { c with sysclk := false }) s
    if !cairnRuns s then .next s1
    else if s.tim.tosc then .next (hwSet .CAI_FAULT 0 0 13 s1)
    else .next (discardTime s1)

/-- SYSCLK_RETURN: the Cairn domain changes back (R76); time that was lost with both clocks starts again (R29). -/
def execSysclkReturn (s : State) : Outcome := .next (resumeTime (modCai (fun c => { c with sysclk := true }) s))

/-- PCIE_REFCLK_LOSS: the link on that half goes down, with its functions reset (R77, R106). -/
def execPcieRefclkLoss (half : Nat) (s : State) : Outcome :=
  let s1 := modCai (fun c => { c with pcieRef := c.pcieRef.set half none }) s
  if halfInUse s half ∧ half < 2 ∧ cairnRuns s then .next (tryFinish (modeAfterLinks (startTraining half (if (halfSt s half).up then halfDown half s1 else s1))))
  else .next s1

/-- PCIE_REFCLK_RETURN: the clock has run for 100 µs, and the half may train (R77, R84). -/
def execPcieRefclkReturn (half : Nat) (s : State) : Outcome :=
  let s1 := modCai (fun c => { c with pcieRef := c.pcieRef.set half (some s.elapsed) }) s
  if half < 2 then .next (startTraining half s1) else .next s1

/-! ### Wakes and board interfaces (R81, R89, R107) -/

/-- What the Type 2 sensors report (R89): each junction reading in units of 0.25 °C, GOOD of each rail, CAI_POWER, the state of the servo, and the
bound. -/
def sensors (s : State) : List Nat :=
  s.cai.temps.map (unsigned 16) ++ s.cai.rails.map (fun r => b2n r.good)
    ++ [(Config.powerDrawn (s.elapsed / 10000000)).val, timStatus s, bound32 s]

/-- MCTP_MESSAGE: a wake source in STANDBY; PLDM Types 0 and 2 answer while the Cairn domain runs (R81, R89, R109). The formats are
PLDM's, so the answer's layout is a free value of the request and the sensors (assumption 1). -/
def execMctpMessage (body : Bytes) (s : State) : Outcome :=
  if !cairnRuns s then .next s else .next (emit (.mctp 0 (Config.pldmAnswer body (sensors s))) (wakeRequest s))

/-- WAKE_AT_REACHED: in STANDBY, with CAI_WAKE_AT non-zero, device time reaches it; the device writes it to zero (R81). -/
def execWakeAtReached (s : State) : Outcome :=
  let t := pair64 s .CAI_WAKE_AT_LO .CAI_WAKE_AT_HI 0 0
  if t = 0 ∨ s.cai.mode ≠ .standby then .next s
  else .next (setPair64 .CAI_WAKE_AT_LO .CAI_WAKE_AT_HI 0 0 0 (wakeRequest (advanceTai t s)))

/-- The level of pins under the boundary-scan instructions (R89): 0 their function, 1 driven by the boundary register, 2 released. -/
def tapPins : TapCode → Nat
  | .extest | .clamp | .extestPulse | .extestTrain => 1
  | .highz => 2
  | _ => 0

/-- The bits of the instructions that R89 and R455 name, as the model numbers them; the encodings are not in the spec. -/
def tapNo : TapCode → Nat
  | .idcode => 0 | .bypass => 1 | .samplePreload => 2 | .extest => 3 | .highz => 4 | .clamp => 5 | .extestPulse => 6 | .extestTrain => 7
  | .priv c => 16 + c

/-- TAP_INSTRUCTION (R89, R455): public instructions reach the pins only, and IDCODE reads 0x132164E5. SAMPLE/PRELOAD and the EXTEST
instructions capture the pins and load the boundary-scan register with what is shifted in. A private one behaves as BYPASS without the
permission it needs; with one it selects a data register whose contents the spec does not give, a free value (assumption 1). What a debug
session then reads and writes are the accesses of the path `debug` and the DEBUG commands. -/
def execTapInstruction (code : TapCode) (data : Nat) (s : State) : Outcome :=
  if !cairnRuns s then .next s
  else
    let shown (v boundary : Nat) (s : State) : Outcome :=
      .next (emit (.tap v) (modCai (fun c => { c with tap := { instruction := tapNo code, dataOut := v, boundary := boundary, pins := tapPins code } }) s))
    let kept := s.cai.tap.boundary
    let inputs := takeFree s
    match code with
    | .idcode => shown 0x132164E5 kept s
    | .bypass | .highz | .clamp => shown (data % 2) kept s
    | .samplePreload | .extest | .extestPulse | .extestTrain =>
      shown (Config.boundaryCapture (digitalOutputs.map (captured s)) inputs.1) data inputs.2
    | .priv _ =>
      if debugGrants s 0 ∨ debugGrants s 1 ∨ debugGrants s 2 ∨ debugGrants s 3 then shown inputs.1 kept inputs.2 else shown (data % 2) kept s

end Sys2Proof.Machine
end

