-- ==== Sys2Proof/Machine/Spdm.lean ====
section
/-!
DEFINITION. DOE, the SPDM responder, IDE key management and failures, and TDISP (R148 to R153, R452). Message codes and error codes are
those of the SPDM, IDE_KM and TDISP specifications (assumption 80).
-/
namespace Sys2Proof.Machine

/-- The DOE instance of a half. -/
def doeOf (s : State) (h : Nat) : Doe := s.hif.doe.getD h {}

/-- s with a half's DOE instance changed by g. -/
def modDoe (h : Nat) (g : Doe → Doe) (s : State) : State := modHif (fun x => { x with doe := updAt h g x.doe }) s

/-- Does the instance of a half take data objects (R148): in every mode except OFF and HELD, over a link that is up? -/
def doeOpen (s : State) (h : Nat) : Bool :=
  halfInUse s h && (halfSt s h).up && s.cai.mode != .off && s.cai.mode != .held && !(doeOf s h).error

/-- Does it answer SPDM: in SPENT it answers only DOE Discovery (R148)? -/
def spdmOpen (s : State) (h : Nat) : Bool := doeOpen s h && s.lcs.life != 4

/-- An answer waits in the read mailbox: Data Object Ready (R148). -/
def doeAnswer (h code : Nat) (body : Bytes) (s : State) : State :=
  emit (.doe h code body) (modDoe h (fun d => { d with ready := true, answer := d.answer ++ BitVec.ofNat 8 code :: body }) s)

/-- An SPDM ERROR answer. -/
def spdmError (h code : Nat) (s : State) : State := doeAnswer h 0x7F [BitVec.ofNat 8 code] s

def errInvalid : Nat := 0x01
def errSession : Nat := 0x02
def errUnexpected : Nat := 0x04
def errDecrypt : Nat := 0x06
def errLimit : Nat := 0x0A
def errVersion : Nat := 0x41

/-- The DOE Discovery answer to an index: the protocol there, and the next index (R148). -/
def discovery (i : Nat) : Bytes :=
  if i < 3 then leBytes 2 1 ++ leBytes 1 i ++ leBytes 1 ((i + 1) % 3) else leBytes 2 0xFFFF ++ leBytes 2 0

/-- The next ENCAPSULATED request of a handshake, by how far it has come: GET_DIGESTS, GET_CERTIFICATE, and none. -/
def encapRequest (step : Nat) : Bytes :=
  match step with
  | 0 => [0x81]
  | 1 => [0x82]
  | _ => []

/-- GET_ENCAPSULATED_REQUEST and DELIVER_ENCAPSULATED_RESPONSE (R149): in a session that asks for mutual authentication and is not yet
established, the requester fetches the responder's next request, and delivers its answer. -/
def encapsulated (half code : Nat) (s : State) : State :=
  match (doeOf s half).sessions.find? (fun x => x.mutually && !x.established) with
  | none => spdmError half errUnexpected s
  | some x =>
    let put (n : Nat) (s : State) : State :=
      modDoe half (fun d => { d with sessions := updFirst (fun y => y.id == x.id) (fun y => { y with encap := n }) d.sessions }) s
    if code = 0xEA then (if x.encap = 0 then doeAnswer half 0x6A (encapRequest 0) s else spdmError half errUnexpected s)
    else if x.encap < 2 then doeAnswer half 0x6B (encapRequest (x.encap + 1)) (put (x.encap + 1) s)
    else spdmError half errUnexpected s

/-- DOE_REQUEST (R148, R149): an object of more than 16,384 DW sets DOE Error and is discarded; DOE Discovery is answered; an SPDM object is
accepted, and its message is answered by its own command, the two that carry ENCAPSULATED requests here; other protocols are discarded. -/
def execDoeRequest (half protocol length index : Nat) (s : State) : Outcome :=
  if !doeOpen s half then .next s
  else if 16384 < length then .next (modDoe half (fun d => { d with error := true }) s)
  else if protocol = 0 then .next (doeAnswer half 0 (discovery index) s)
  else if protocol = 1 ∧ spdmOpen s half ∧ (index = 0xEA ∨ index = 0xEB) then .next (encapsulated half index s)
  else .next s

/-! ### The connection (R149) -/

/-- GET_VERSION (R149): 1.2 and 1.3; the connection starts anew. -/
def execGetVersion (half : Nat) (s : State) : Outcome :=
  if !spdmOpen s half then .next s
  else .next (doeAnswer half 0x04 [0x12, 0x13] (modDoe half (fun d => { d with phase := 1, version := 0, sessions := [] }) s))

/-- GET_CAPABILITIES (R149): for a version it answered. -/
def execGetCapabilities (half version : Nat) (s : State) : Outcome :=
  if !spdmOpen s half then .next s
  else if (doeOf s half).phase ≠ 1 then .next (spdmError half errUnexpected s)
  else if version ≠ 0x12 ∧ version ≠ 0x13 then .next (spdmError half errVersion s)
  else .next (doeAnswer half 0x61 [BitVec.ofNat 8 version] (modDoe half (fun d => { d with phase := 2, version := version }) s))

/-- NEGOTIATE_ALGORITHMS (R149): ECDSA P-384, SHA-384, secp384r1 and AES-256-GCM, each by its bit in the request. -/
def execNegotiateAlgorithms (half baseAsym baseHash dhe aead : Nat) (s : State) : Outcome :=
  if !spdmOpen s half then .next s
  else if (doeOf s half).phase ≠ 2 then .next (spdmError half errUnexpected s)
  else if !(bitOf baseAsym 7 && bitOf baseHash 1) then .next (spdmError half errInvalid s)
  else .next (doeAnswer half 0x63 (leBytes 4 0x80 ++ leBytes 4 0x02 ++ leBytes 2 (if bitOf dhe 4 then 0x10 else 0) ++ leBytes 2 (if bitOf aead 1 then 0x02 else 0))
    (modDoe half (fun d => { d with phase := 3 }) s))

/-- A request that needs negotiated algorithms is answered by g, or with an ERROR. -/
def negotiated (half : Nat) (g : State → State) (s : State) : Outcome :=
  if !spdmOpen s half then .next s
  else if (doeOf s half).phase ≠ 3 then .next (spdmError half errUnexpected s)
  else .next (g s)

/-- The chain in certificate slot 0: the DeviceID certificate, then the attestation certificate (R452). -/
def certChain (s : State) : Bytes := Config.certificate 0 0 ++ deviceCert ++ attestCert s

/-- GET_DIGESTS (R149, R452). -/
def execGetDigests (half : Nat) (s : State) : Outcome := negotiated half (fun s => doeAnswer half 0x01 (1 :: sha384 (certChain s)) s) s

/-- GET_CERTIFICATE (R149, R452): a portion of slot 0, and the length that remains. -/
def execGetCertificate (half slot off len : Nat) (s : State) : Outcome :=
  negotiated half (fun s =>
    if slot ≠ 0 ∨ (certChain s).length ≤ off then spdmError half errInvalid s
    else
      let part := ((certChain s).drop off).take len
      doeAnswer half 0x02 (leBytes 2 part.length ++ leBytes 2 ((certChain s).length - off - part.length) ++ part) s) s

/-- An answer signed with the attestation key (R452): the signature covers the digest of the requester's nonce, the responder's nonce and
the body (assumption 80). -/
def signedBody (s : State) (nonce mine : Nat) (body : Bytes) : Bytes :=
  let all := body ++ leBytes 32 mine
  all ++ attestSign s (leBytes 32 nonce ++ all)

/-- CHALLENGE (R149, R452): kind is the type of measurement summary asked for. -/
def execChallenge (half slot nonce kind : Nat) (s : State) : Outcome :=
  negotiated half (fun s =>
    if slot ≠ 0 then spdmError half errInvalid s
    else
      let r := takeFree s
      doeAnswer half 0x03 (signedBody s nonce r.1 (sha384 (certChain s) ++ leBytes 1 kind)) r.2) s

/-! ### Measurements (R452) -/

/-- A digest that is not there, for nothing is running or loaded: a free value (assumption 1). -/
def noDigest (s : State) : Bytes × State := let r := takeFree s; (leBytes 48 r.1, r.2)

/-- Measurement block i (R452). -/
def measurement (i : Nat) (s : State) : Bytes × State :=
  match i with
  | 1 => (Config.romHash, s)
  | 2 => if s.lcs.running.isEmpty then noDigest s else (slice s.lcs.running (s.lcs.running.length - 144) 48, s)
  | 3 => if s.prs.loaded then (prsDigest s.prs.image, s) else noDigest s
  | 4 => match s.lcs.regionUsed with
    | some b => (sha384 (regionBytes s b), s)
    | none => noDigest s
  | _ => ([BitVec.ofNat 8 s.lcs.life, BitVec.ofNat 8 s.lcs.svnFloor,
      BitVec.ofNat 8 ((s.lcs.session.map DebugSession.perms).getD 0), BitVec.ofNat 8 (s.lcs.owners.length - 1)], s)

/-- Blocks in order, each after its index. -/
def measurements : List Nat → State → Bytes × State
  | [], s => ([], s)
  | i :: t, s => let a := measurement i s; let r := measurements t a.2; (BitVec.ofNat 8 i :: (a.1 ++ r.1), r.2)

/-- GET_MEASUREMENTS (R452): index 0 asks for the number of blocks, 0xFF for all of them. -/
def execGetMeasurements (half index nonce : Nat) (signed_ : Bool) (s : State) : Outcome :=
  negotiated half (fun s =>
    let reply (x : Bytes × State) : State :=
      if signed_ then let r := takeFree x.2; doeAnswer half 0x60 (signedBody s nonce r.1 x.1) r.2 else doeAnswer half 0x60 x.1 x.2
    if index = 0 then reply ([5], s)
    else if index = 0xFF then reply (measurements [1, 2, 3, 4, 5] s)
    else if index ≤ 5 then reply (measurements [index] s)
    else spdmError half errInvalid s) s

/-! ### Sessions (R149) -/

/-- KEY_EXCHANGE (R149): a session opens, or the fifth at once receives SessionLimitExceeded. -/
def execKeyExchange (half slot reqId exchange : Nat) (s : State) : Outcome :=
  negotiated half (fun s =>
    let d := doeOf s half
    if slot ≠ 0 then spdmError half errInvalid s
    else if 4 ≤ d.sessions.length then spdmError half errLimit s
    else
      let id := reqId % 65536 + 65536 * (d.nextSession % 65536)
      doeAnswer half 0x64 (leBytes 4 id ++ [BitVec.ofNat 8 (b2n Config.mutualAuth)] ++ leBytes 96 (Config.exchange exchange))
        (modDoe half (fun d => { d with sessions := d.sessions ++ [{ id := id, mutually := Config.mutualAuth }], nextSession := (d.nextSession + 1) % 65536 }) s)) s

/-- A session of a half. -/
def sessionOf (s : State) (h id : Nat) : Option SpdmSession := (doeOf s h).sessions.find? (fun x => x.id == id)

/-- s with a session changed by g. -/
def modSession (h id : Nat) (g : SpdmSession → SpdmSession) (s : State) : State :=
  modDoe h (fun d => { d with sessions := updFirst (fun x => x.id == id) g d.sessions }) s

/-- A session of a half ends. -/
def dropSession (h id : Nat) (s : State) : State := modDoe h (fun d => { d with sessions := d.sessions.filter (fun x => x.id != id) }) s

/-- FINISH (R149): the requester's MAC over the exchange verifies, with mutual authentication its signature as well, and the session is
established; else it ends. With mutual authentication the ENCAPSULATED requests have been answered before. -/
def execFinish (half session : Nat) (verified : Bool) (s : State) : Outcome :=
  negotiated half (fun s => match sessionOf s half session with
    | none => spdmError half errSession s
    | some x =>
      if x.established || (x.mutually && x.encap != 2) then spdmError half errUnexpected s
      else if verified then doeAnswer half 0x65 (leBytes 4 session) (modSession half session (fun x => { x with established := true }) s)
      else spdmError half errDecrypt (dropSession half session s)) s

/-- A request of an established session is answered by g. -/
def inSession (half session : Nat) (g : State → State) (s : State) : Outcome :=
  negotiated half (fun s => match sessionOf s half session with
    | some x => if x.established then g s else spdmError half errUnexpected s
    | none => spdmError half errSession s) s

/-- KEY_UPDATE (R149): operation 1 updates the requester's key, 2 both, 3 verifies the new key. -/
def execKeyUpdate (half session operation : Nat) (s : State) : Outcome :=
  inSession half session (fun s =>
    if operation = 0 ∨ 3 < operation then spdmError half errInvalid s
    else doeAnswer half 0x69 [BitVec.ofNat 8 operation] (modSession half session (fun x =>
      { x with reqGen := if operation < 3 then x.reqGen + 1 else x.reqGen, rspGen := if operation = 2 then x.rspGen + 1 else x.rspGen }) s)) s

/-- HEARTBEAT (R149). -/
def execHeartbeat (half session : Nat) (s : State) : Outcome := inSession half session (doeAnswer half 0x68 []) s

/-- END_SESSION (R149). -/
def execEndSession (half session : Nat) (s : State) : Outcome :=
  inSession half session (fun s => doeAnswer half 0x6C [] (dropSession half session s)) s

/-! ### IDE key management (R150) -/

/-- The IDE stream of a half: 0 the link stream, 1 to 16 selective. -/
def ideSt (s : State) (h k : Nat) : Ide := mget {} s.hif.ide (h * 32 + k)

/-- s with an IDE stream changed by g. -/
def modIde (h k : Nat) (g : Ide → Ide) (s : State) : State := modHif (fun x => { x with ide := mmod {} x.ide (h * 32 + k) g }) s

/-- Sub-stream (PR 0, NPR 1, CPL 2) and direction (receive 0, transmit 1) as one number. -/
def ideLane (sub dir : Nat) : Nat := sub * 2 + dir

/-- Are the stream, sub-stream, direction and key set among those supported (R150)? -/
def ideNamed (stream sub dir set : Nat) : Bool := decide (stream ≤ 16 ∧ sub < 3 ∧ dir < 2 ∧ set < 2)

/-- KEY_PROG: a key and its IV for one lane and set. -/
def ideProg (h stream sub dir set key iv : Nat) (s : State) : State :=
  if !ideNamed stream sub dir set then doeAnswer h 0x7E [0, 0x03, 3] s
  else
    let c := ideLane sub dir * 2 + set
    doeAnswer h 0x7E [0, 0x03, 0] (modIde h stream (fun e => { e with keys := e.keys.filter (fun k => k.1 != c) ++ [(c, key, iv)] }) s)

/-- K_SET_GO: the lane uses the key set, once it is programmed. -/
def ideGo (h stream sub dir set : Nat) (s : State) : State :=
  let c := ideLane sub dir * 2 + set
  if !ideNamed stream sub dir set || !(ideSt s h stream).keys.any (fun k => k.1 == c) then doeAnswer h 0x7E [0, 0x06, 3] s
  else doeAnswer h 0x7E [0, 0x06, 0] (modIde h stream (fun e =>
    ideSecure { e with active := e.active.filter (fun a => a.1 != ideLane sub dir) ++ [(ideLane sub dir, set)] }) s)

/-- K_SET_STOP: the lane stops using the key set, and its key is gone. -/
def ideStop (h stream sub dir set : Nat) (s : State) : State :=
  let c := ideLane sub dir * 2 + set
  if !ideNamed stream sub dir set then doeAnswer h 0x7E [0, 0x06, 3] s
  else doeAnswer h 0x7E [0, 0x06, 0] (modIde h stream (fun e =>
    ideSecure { e with active := e.active.filter (fun a => a != (ideLane sub dir, set)), keys := e.keys.filter (fun k => k.1 != c) }) s)

/-! ### TDISP (R152, R153) -/

/-- Is a function a TDISP interface of a half: a VF that exists there (R152)? -/
def tdiOf (s : State) (h : Nat) (f : Fn) : Bool := isVf f && fnExists s f && fnHalf s f == h

/-- STATE of an interface as TDISP reports it. -/
def TdiSt.code : TdiSt → Nat
  | .unlocked => 0 | .locked => 1 | .run => 2 | .error => 3

/-- A TDISP answer: its message type and body. -/
def tdisp (h kind : Nat) (body : Bytes) (s : State) : State := doeAnswer h 0x7E (1 :: BitVec.ofNat 8 kind :: body) s

/-- A TDISP error answer. -/
def tdispError (h code : Nat) (s : State) : State := tdisp h 0x7F (leBytes 4 code) s

/-- LOCK_INTERFACE: an unlocked interface locks, bound to a selective stream that is Secure, and gives a nonce. -/
def tdiLock (h : Nat) (f : Fn) (stream : Nat) (s : State) : State :=
  if !tdiOf s h f then tdispError h 0x101 s
  else if (fnSt s f).tdi.st ≠ .unlocked then tdispError h 0x04 s
  else if stream = 0 ∨ 16 < stream ∨ !(ideSt s h stream).secure then tdispError h 0x01 s
  else
    let r := takeFree s
    let n := r.1 % 2 ^ 256
    tdisp h 0x03 (leBytes 32 n) (modFn f (fun x => { x with tdi := { st := .locked, stream := stream, nonce := n } }) r.2)

/-- START_INTERFACE: a locked interface runs when the nonce is returned. -/
def tdiStart (h : Nat) (f : Fn) (nonce : Nat) (s : State) : State :=
  if !tdiOf s h f then tdispError h 0x101 s
  else if (fnSt s f).tdi.st ≠ .locked then tdispError h 0x04 s
  else if (fnSt s f).tdi.nonce ≠ nonce then tdispError h 0x102 s
  else tdisp h 0x06 [] (modFn f (fun x => { x with tdi := { x.tdi with st := .run } }) s)

/-- A message of IDE_KM or TDISP (R149, R150, R152). -/
def vendorMsg (h : Nat) (m : VendorMsg) (s : State) : State :=
  match m with
  | .ideQuery => doeAnswer h 0x7E [0, 0x01, BitVec.ofNat 8 h, 16] s
  | .ideKeyProg stream sub dir set key iv => ideProg h stream sub dir set key iv s
  | .ideKeySetGo stream sub dir set => ideGo h stream sub dir set s
  | .ideKeySetStop stream sub dir set => ideStop h stream sub dir set s
  | .tdispGetVersion => tdisp h 0x01 [1, 0x10] s
  | .tdispGetCapabilities => tdisp h 0x02 [] s
  | .tdispLockInterface f stream => tdiLock h f stream s
  | .tdispGetReport f off len =>
    if !tdiOf s h f then tdispError h 0x101 s
    else if (fnSt s f).tdi.st = .locked ∨ (fnSt s f).tdi.st = .run then tdisp h 0x04 (((Config.certificate 1 (fnCode f)).drop off).take len) s
    else tdispError h 0x04 s
  | .tdispGetState f => if tdiOf s h f then tdisp h 0x05 [BitVec.ofNat 8 (fnSt s f).tdi.st.code] s else tdispError h 0x101 s
  | .tdispStartInterface f nonce => tdiStart h f nonce s
  | .other => spdmError h 0x07 s

/-- VENDOR_DEFINED_REQUEST (R149, R150, R152): inside an established session of the same half. -/
def execVendorDefinedRequest (half session : Nat) (msg : VendorMsg) (s : State) : Outcome := inSession half session (vendorMsg half msg) s

/-- Every queue, buffer and key slot of a VF is cleared (R153). -/
def clearVf (f : Fn) (s : State) : State :=
  let s1 := match (fnSt s f).vport with
    | some v => foldS keyClear ((s.cry.slots.filter (fun e => e.2.owner == v)).map Prod.fst) s
    | none => s
  let s2 := releaseLocks f none (abortMailbox f s1)
  let s3 := modQm (fun m => { m with queues := m.queues.filter (fun e => e.1 / 2 ^ 20 != fnCode f), events := m.events.filter (fun e => e.fn != f) }) s2
  dropJobs f (orphan f (dropWaiting f (modFn f (fun r => { r with defaultEqs := [] }) s3)))

/-- STOP_INTERFACE (R153): from any state the interface returns to CONFIG_UNLOCKED after the clearing. -/
def execStopInterface (f : Fn) (s : State) : Outcome :=
  let h := fnHalf s f
  if !spdmOpen s h then .next s
  else if !tdiOf s h f then .next (tdispError h 0x101 s)
  else if (fnSt s f).tdi.st = .unlocked then .next (tdisp h 0x07 [] s)
  else .next (tdisp h 0x07 [] (modFn f (fun r => { r with tdi := {}, silent := r.awaitQuiesce }) (clearVf f s)))

/-! ### IDE failures (R151) -/

/-- IDE_INTEGRITY_FAILURE (R151): the stream is Insecure and must be keyed again; the failure is logged; outstanding requests of the
stream end as HOST_ABORT; interfaces bound to it move to ERROR (R153); IDE_ERROR. -/
def execIdeIntegrityFailure (half stream : Nat) (s : State) : Outcome :=
  if !(ideSt s half stream).secure then .next s
  else
    let s1 := modIde half stream (fun e => { e with secure := false, failLogged := true, keys := [], active := [] }) s
    let hit (x : Slot) : Bool := x.st == .outstanding && x.stream == some stream && fnHalf s x.req.fn == half
    let s2 := foldS (fun (e : Nat × Slot) s => deliver e.2.req .abort (setSlot e.1 (some { e.2 with st := .endedEarly }) s)) (s1.hif.slots.filter (fun e => hit e.2)) s1
    let bound (e : Nat × FnSt) : Bool := e.2.tdi.stream == stream && fnHalf s (fnOf e.1) == half
    let s3 := foldS (fun (e : Nat × FnSt) s => tdiError (fnOf e.1) s) (s2.hif.fns.filter bound) s2
    let f := Fn.pf (pf0Of half)
    .next (raise 0x2 0x09 (fnCode f) (.function f) s3)

end Sys2Proof.Machine
end

