-- ==== Sys2Proof/Machine/Dispatch.lean ====
section
/-!
DEFINITION. One arm per command: a direct call of its meaning.
-/
namespace Sys2Proof.Machine

def exec (i : Instr) (s : State) : Host.Outcome State Fault Refusal :=
  match i with
  | .registerWrite p off v => Sys2Proof.Machine.execRegisterWrite p off v s
  | .badAccess p off access => Sys2Proof.Machine.execBadAccess p off access s
  | .lowWordRead p off => Sys2Proof.Machine.execLowWordRead p off s
  | .readClear p off => Sys2Proof.Machine.execReadClear p off s
  | .w1cHardwareSet p off bit => Sys2Proof.Machine.execW1cHardwareSet p off bit s
  | .heldAccess p off v => Sys2Proof.Machine.execHeldAccess p off v s
  | .domainStop u => Sys2Proof.Machine.execDomainStop u s
  | .domainGated u => Sys2Proof.Machine.execDomainGated u s
  | .domainStartDone u passed => Sys2Proof.Machine.execDomainStartDone u passed s
  | .aonRailUp => Sys2Proof.Machine.execAonRailUp s
  | .aonRailLoss => Sys2Proof.Machine.execAonRailLoss s
  | .porstAssert => Sys2Proof.Machine.execPorstAssert s
  | .porstDeassert straps => Sys2Proof.Machine.execPorstDeassert straps s
  | .railGood rail => Sys2Proof.Machine.execRailGood rail s
  | .railFault loss => Sys2Proof.Machine.execRailFault loss s
  | .railOrder rail => Sys2Proof.Machine.execRailOrder rail s
  | .thermalWarn sensor reading => Sys2Proof.Machine.execThermalWarn sensor reading s
  | .thermalTrip sensor reading => Sys2Proof.Machine.execThermalTrip sensor reading s
  | .thermalRecover readings => Sys2Proof.Machine.execThermalRecover readings s
  | .sysclkFault => Sys2Proof.Machine.execSysclkFault s
  | .sysclkReturn => Sys2Proof.Machine.execSysclkReturn s
  | .ethRefclkLoss => Sys2Proof.Machine.execEthRefclkLoss s
  | .ethRefclkReturn => Sys2Proof.Machine.execEthRefclkReturn s
  | .pcieRefclkLoss half => Sys2Proof.Machine.execPcieRefclkLoss half s
  | .pcieRefclkReturn half => Sys2Proof.Machine.execPcieRefclkReturn half s
  | .mctpMessage body => Sys2Proof.Machine.execMctpMessage body s
  | .wakeAtReached => Sys2Proof.Machine.execWakeAtReached s
  | .bringupStart boot => Sys2Proof.Machine.execBringupStart boot s
  | .bootWaitExpiry => Sys2Proof.Machine.execBootWaitExpiry s
  | .unitReady unit => Sys2Proof.Machine.execUnitReady unit s
  | .functionReady f => Sys2Proof.Machine.execFunctionReady f s
  | .drain p => Sys2Proof.Machine.execDrain p s
  | .drainStandby p => Sys2Proof.Machine.execDrainStandby p s
  | .cancel p => Sys2Proof.Machine.execCancel p s
  | .restartRequest p => Sys2Proof.Machine.execRestartRequest p s
  | .drainLimitExpiry => Sys2Proof.Machine.execDrainLimitExpiry s
  | .drainFinished => Sys2Proof.Machine.execDrainFinished s
  | .perstAssert half => Sys2Proof.Machine.execPerstAssert half s
  | .perstDeassert half => Sys2Proof.Machine.execPerstDeassert half s
  | .pcieLinkUp half rate width flit => Sys2Proof.Machine.execPcieLinkUp half rate width flit s
  | .hotReset half => Sys2Proof.Machine.execHotReset half s
  | .linkDisable half => Sys2Proof.Machine.execLinkDisable half s
  | .pcieLinkFailure half => Sys2Proof.Machine.execPcieLinkFailure half s
  | .configRead f off => Sys2Proof.Machine.execConfigRead f off s
  | .busMasterDisable f => Sys2Proof.Machine.execBusMasterDisable f s
  | .quiesceDone f => Sys2Proof.Machine.execQuiesceDone f s
  | .initiateFlr f => Sys2Proof.Machine.execInitiateFlr f s
  | .flrDone f => Sys2Proof.Machine.execFlrDone f s
  | .vfEnable pf => Sys2Proof.Machine.execVfEnable pf s
  | .vfDisable pf => Sys2Proof.Machine.execVfDisable pf s
  | .powerStateChange f state => Sys2Proof.Machine.execPowerStateChange f state s
  | .msixUnmask f change => Sys2Proof.Machine.execMsixUnmask f change s
  | .tagSlotGrant which => Sys2Proof.Machine.execTagSlotGrant which s
  | .hostCompletion f tag status last => Sys2Proof.Machine.execHostCompletion f tag status last s
  | .completionTimeout slot => Sys2Proof.Machine.execCompletionTimeout slot s
  | .quarantineEnd slot => Sys2Proof.Machine.execQuarantineEnd slot s
  | .poisonedPostedWrite f => Sys2Proof.Machine.execPoisonedPostedWrite f s
  | .atsInvalidation f pasid page count => Sys2Proof.Machine.execAtsInvalidation f pasid page count s
  | .pageRequest f q => Sys2Proof.Machine.execPageRequest f q s
  | .prgResponse f q answer => Sys2Proof.Machine.execPrgResponse f q answer s
  | .pageRequestTimeout f q => Sys2Proof.Machine.execPageRequestTimeout f q s
  | .ptmRequest half => Sys2Proof.Machine.execPtmRequest half s
  | .doeRequest half protocol length index => Sys2Proof.Machine.execDoeRequest half protocol length index s
  | .doeAbort half => Sys2Proof.Machine.execDoeAbort half s
  | .getVersion half => Sys2Proof.Machine.execGetVersion half s
  | .getCapabilities half version => Sys2Proof.Machine.execGetCapabilities half version s
  | .negotiateAlgorithms half baseAsym baseHash dhe aead => Sys2Proof.Machine.execNegotiateAlgorithms half baseAsym baseHash dhe aead s
  | .getDigests half => Sys2Proof.Machine.execGetDigests half s
  | .getCertificate half slot off len => Sys2Proof.Machine.execGetCertificate half slot off len s
  | .challenge half slot nonce kind => Sys2Proof.Machine.execChallenge half slot nonce kind s
  | .getMeasurements half index nonce signed => Sys2Proof.Machine.execGetMeasurements half index nonce signed s
  | .keyExchange half slot reqId exchange => Sys2Proof.Machine.execKeyExchange half slot reqId exchange s
  | .finish half session verified => Sys2Proof.Machine.execFinish half session verified s
  | .keyUpdate half session operation => Sys2Proof.Machine.execKeyUpdate half session operation s
  | .heartbeat half session => Sys2Proof.Machine.execHeartbeat half session s
  | .endSession half session => Sys2Proof.Machine.execEndSession half session s
  | .vendorDefinedRequest half session msg => Sys2Proof.Machine.execVendorDefinedRequest half session msg s
  | .stopInterface f => Sys2Proof.Machine.execStopInterface f s
  | .ideIntegrityFailure half stream => Sys2Proof.Machine.execIdeIntegrityFailure half stream s
  | .doorbellWrite f q v form => Sys2Proof.Machine.execDoorbellWrite f q v form s
  | .sqEntryFetch f q got => Sys2Proof.Machine.execSqEntryFetch f q got s
  | .staleRetry f q got => Sys2Proof.Machine.execStaleRetry f q got s
  | .completionWrite f q res => Sys2Proof.Machine.execCompletionWrite f q res s
  | .eventRaise block code detail scope => Sys2Proof.Machine.execEventRaise block code detail scope s
  | .eqEntryWrite f q res => Sys2Proof.Machine.execEqEntryWrite f q res s
  | .moderationTimer f q => Sys2Proof.Machine.execModerationTimer f q s
  | .qCreate p => Sys2Proof.Machine.execQCreate p s
  | .qDestroy p => Sys2Proof.Machine.execQDestroy p s
  | .queueDisabled f q => Sys2Proof.Machine.execQueueDisabled f q s
  | .queueRestart p => Sys2Proof.Machine.execQueueRestart p s
  | .txFrame f q => Sys2Proof.Machine.execTxFrame f q s
  | .rxBuffer f q => Sys2Proof.Machine.execRxBuffer f q s
  | .hostTxResume frame => Sys2Proof.Machine.execHostTxResume frame s
  | .sqFetchResume queue => Sys2Proof.Machine.execSqFetchResume queue s
  | .vfGrant pf => Sys2Proof.Machine.execVfGrant pf s
  | .vportBind pf v => Sys2Proof.Machine.execVportBind pf v s
  | .logStart pf => Sys2Proof.Machine.execLogStart pf s
  | .logSwap pf => Sys2Proof.Machine.execLogSwap pf s
  | .logStop pf => Sys2Proof.Machine.execLogStop pf s
  | .dirtyPageLog f addr len => Sys2Proof.Machine.execDirtyPageLog f addr len s
  | .vfFreeze pf => Sys2Proof.Machine.execVfFreeze pf s
  | .freezeDone f => Sys2Proof.Machine.execFreezeDone f s
  | .migSlow f => Sys2Proof.Machine.execMigSlow f s
  | .vfSave pf res => Sys2Proof.Machine.execVfSave pf res s
  | .vfRestore pf image => Sys2Proof.Machine.execVfRestore pf image s
  | .vfUnfreeze pf => Sys2Proof.Machine.execVfUnfreeze pf s
  | .vfMigDone f => Sys2Proof.Machine.execVfMigDone f s
  | .timePageWrite f => Sys2Proof.Machine.execTimePageWrite f s
  | .frameReceived lp bytes fcs => Sys2Proof.Machine.execFrameReceived lp bytes fcs s
  | .frameEnd frame => Sys2Proof.Machine.execFrameEnd frame s
  | .pauseRefresh lp prio => Sys2Proof.Machine.execPauseRefresh lp prio s
  | .pauseFrameRx lp opcode enable quanta => Sys2Proof.Machine.execPauseFrameRx lp opcode enable quanta s
  | .pauseHoldExpiry lp prio => Sys2Proof.Machine.execPauseHoldExpiry lp prio s
  | .pauseRxStorm lp prio => Sys2Proof.Machine.execPauseRxStorm lp prio s
  | .pauseTxStorm lp prio => Sys2Proof.Machine.execPauseTxStorm lp prio s
  | .stormRecover lp prio => Sys2Proof.Machine.execStormRecover lp prio s
  | .linkUp lp => Sys2Proof.Machine.execLinkUp lp s
  | .linkDown lp => Sys2Proof.Machine.execLinkDown lp s
  | .fecWindow lp corrected uncorrected => Sys2Proof.Machine.execFecWindow lp corrected uncorrected s
  | .portCfgWrite p port v => Sys2Proof.Machine.execPortCfgWrite p port v s
  | .filterAdd p => Sys2Proof.Machine.execFilterAdd p s
  | .filterDelete p index => Sys2Proof.Machine.execFilterDelete p index s
  | .filterRead p index => Sys2Proof.Machine.execFilterRead p index s
  | .statSnap p lp => Sys2Proof.Machine.execStatSnap p lp s
  | .mgtFrameRx bytes fcsOk => Sys2Proof.Machine.execMgtFrameRx bytes fcsOk s
  | .mgtTx => Sys2Proof.Machine.execMgtTx s
  | .collision bitTimes => Sys2Proof.Machine.execCollision bitTimes s
  | .backoffExpiry => Sys2Proof.Machine.execBackoffExpiry s
  | .mdioStart p v => Sys2Proof.Machine.execMdioStart p v s
  | .mdioDone data => Sys2Proof.Machine.execMdioDone data s
  | .ncsiCommand channel command payload => Sys2Proof.Machine.execNcsiCommand channel command payload s
  | .resetChannel channel => Sys2Proof.Machine.execResetChannel channel s
  | .parseDispatch frame engine => Sys2Proof.Machine.execParseDispatch frame engine s
  | .microNext engine => Sys2Proof.Machine.execMicroNext engine s
  | .microJump engine => Sys2Proof.Machine.execMicroJump engine s
  | .microJz engine => Sys2Proof.Machine.execMicroJz engine s
  | .microJnz engine => Sys2Proof.Machine.execMicroJnz engine s
  | .microMatch engine => Sys2Proof.Machine.execMicroMatch engine s
  | .microCall engine => Sys2Proof.Machine.execMicroCall engine s
  | .microRet engine => Sys2Proof.Machine.execMicroRet engine s
  | .microEnd engine => Sys2Proof.Machine.execMicroEnd engine s
  | .microAdd engine => Sys2Proof.Machine.execMicroAdd engine s
  | .microSub engine => Sys2Proof.Machine.execMicroSub engine s
  | .microAnd engine => Sys2Proof.Machine.execMicroAnd engine s
  | .microOr engine => Sys2Proof.Machine.execMicroOr engine s
  | .microXor engine => Sys2Proof.Machine.execMicroXor engine s
  | .microShl engine => Sys2Proof.Machine.execMicroShl engine s
  | .microShr engine => Sys2Proof.Machine.execMicroShr engine s
  | .microMov engine => Sys2Proof.Machine.execMicroMov engine s
  | .microBfx engine => Sys2Proof.Machine.execMicroBfx engine s
  | .microSeq engine => Sys2Proof.Machine.execMicroSeq engine s
  | .microSlt engine => Sys2Proof.Machine.execMicroSlt engine s
  | .microMin engine => Sys2Proof.Machine.execMicroMin engine s
  | .microMax engine => Sys2Proof.Machine.execMicroMax engine s
  | .microCsum engine => Sys2Proof.Machine.execMicroCsum engine s
  | .microMark engine => Sys2Proof.Machine.execMicroMark engine s
  | .microFrag engine => Sys2Proof.Machine.execMicroFrag engine s
  | .microHashreg engine => Sys2Proof.Machine.execMicroHashreg engine s
  | .microTrap engine => Sys2Proof.Machine.execMicroTrap engine s
  | .microResume engine => Sys2Proof.Machine.execMicroResume engine s
  | .microHashrst engine => Sys2Proof.Machine.execMicroHashrst engine s
  | .microBudget engine => Sys2Proof.Machine.execMicroBudget engine s
  | .fragEntryExpiry set way => Sys2Proof.Machine.execFragEntryExpiry set way s
  | .parityError engine store => Sys2Proof.Machine.execParityError engine store s
  | .pairLineRewritten line => Sys2Proof.Machine.execPairLineRewritten line s
  | .prsLoadStart p => Sys2Proof.Machine.execPrsLoadStart p s
  | .loadDone failed => Sys2Proof.Machine.execLoadDone failed s
  | .prsIndWrite p entry v => Sys2Proof.Machine.execPrsIndWrite p entry v s
  | .tableProgram frame => Sys2Proof.Machine.execTableProgram frame s
  | .vportStep frame => Sys2Proof.Machine.execVportStep frame s
  | .tunnelStep frame => Sys2Proof.Machine.execTunnelStep frame s
  | .flowStep frame => Sys2Proof.Machine.execFlowStep frame s
  | .lpmStep frame => Sys2Proof.Machine.execLpmStep frame s
  | .aclStep frame => Sys2Proof.Machine.execAclStep frame s
  | .actionList frame => Sys2Proof.Machine.execActionList frame s
  | .actEnd frame => Sys2Proof.Machine.execActEnd frame s
  | .actNop frame => Sys2Proof.Machine.execActNop frame s
  | .actDrop frame => Sys2Proof.Machine.execActDrop frame s
  | .actChain frame => Sys2Proof.Machine.execActChain frame s
  | .actDecap frame => Sys2Proof.Machine.execActDecap frame s
  | .actEncap frame => Sys2Proof.Machine.execActEncap frame s
  | .actRewrite frame => Sys2Proof.Machine.execActRewrite frame s
  | .actDecTtl frame => Sys2Proof.Machine.execActDecTtl frame s
  | .actVlanPush frame => Sys2Proof.Machine.execActVlanPush frame s
  | .actVlanPop frame => Sys2Proof.Machine.execActVlanPop frame s
  | .actMeter frame => Sys2Proof.Machine.execActMeter frame s
  | .actCount frame => Sys2Proof.Machine.execActCount frame s
  | .actSetClass frame => Sys2Proof.Machine.execActSetClass frame s
  | .actEncrypt frame => Sys2Proof.Machine.execActEncrypt frame s
  | .actDecrypt frame => Sys2Proof.Machine.execActDecrypt frame s
  | .actDeliverVport frame => Sys2Proof.Machine.execActDeliverVport frame s
  | .actDeliverQueue frame => Sys2Proof.Machine.execActDeliverQueue frame s
  | .actDeliverInd frame => Sys2Proof.Machine.execActDeliverInd frame s
  | .actDeliverPort frame => Sys2Proof.Machine.execActDeliverPort frame s
  | .actDeliverChannel frame => Sys2Proof.Machine.execActDeliverChannel frame s
  | .actDeliverAkzal frame => Sys2Proof.Machine.execActDeliverAkzal frame s
  | .actMirror frame => Sys2Proof.Machine.execActMirror frame s
  | .actLearn frame => Sys2Proof.Machine.execActLearn frame s
  | .actTsInsert frame => Sys2Proof.Machine.execActTsInsert frame s
  | .learnRequest => Sys2Proof.Machine.execLearnRequest s
  | .ageVisit index => Sys2Proof.Machine.execAgeVisit index s
  | .lockExpired index => Sys2Proof.Machine.execLockExpired index s
  | .tblInsert f q => Sys2Proof.Machine.execTblInsert f q s
  | .relocationMove bank => Sys2Proof.Machine.execRelocationMove bank s
  | .tblDelete f q => Sys2Proof.Machine.execTblDelete f q s
  | .tblLookup f q => Sys2Proof.Machine.execTblLookup f q s
  | .tblRead f q => Sys2Proof.Machine.execTblRead f q s
  | .tblWrite f q => Sys2Proof.Machine.execTblWrite f q s
  | .tblLock f q => Sys2Proof.Machine.execTblLock f q s
  | .tblWriteUnlock f q => Sys2Proof.Machine.execTblWriteUnlock f q s
  | .tblUnlock f q => Sys2Proof.Machine.execTblUnlock f q s
  | .tblCounterRead f q => Sys2Proof.Machine.execTblCounterRead f q s
  | .filterRebuild => Sys2Proof.Machine.execFilterRebuild s
  | .filterSwitch => Sys2Proof.Machine.execFilterSwitch s
  | .hashSeedWrite p which v => Sys2Proof.Machine.execHashSeedWrite p which v s
  | .tblProgWrite p => Sys2Proof.Machine.execTblProgWrite p s
  | .progBankSwitch p bank => Sys2Proof.Machine.execProgBankSwitch p bank s
  | .scheduleDecision lp => Sys2Proof.Machine.execScheduleDecision lp s
  | .shaperCredit node => Sys2Proof.Machine.execShaperCredit node s
  | .launchTimeReached queue => Sys2Proof.Machine.execLaunchTimeReached queue s
  | .frameTransmitted lp => Sys2Proof.Machine.execFrameTransmitted lp s
  | .copyFinished frame => Sys2Proof.Machine.execCopyFinished frame s
  | .gateEntryChange lp => Sys2Proof.Machine.execGateEntryChange lp s
  | .gateCommit p lp => Sys2Proof.Machine.execGateCommit p lp s
  | .gateListActive lp => Sys2Proof.Machine.execGateListActive lp s
  | .nodeWrite p reg v => Sys2Proof.Machine.execNodeWrite p reg v s
  | .meterWrite p => Sys2Proof.Machine.execMeterWrite p s
  | .meterRead p => Sys2Proof.Machine.execMeterRead p s
  | .keyWrite f q => Sys2Proof.Machine.execKeyWrite f q s
  | .keyUnwrap f q => Sys2Proof.Machine.execKeyUnwrap f q s
  | .slotUpdate f q => Sys2Proof.Machine.execSlotUpdate f q s
  | .slotRead f q => Sys2Proof.Machine.execSlotRead f q s
  | .keyClear f q => Sys2Proof.Machine.execKeyClear f q s
  | .laEncrypt f q => Sys2Proof.Machine.execLaEncrypt f q s
  | .laDecrypt f q => Sys2Proof.Machine.execLaDecrypt f q s
  | .slotFetchDone slot => Sys2Proof.Machine.execSlotFetchDone slot s
  | .cipherDone engine => Sys2Proof.Machine.execCipherDone engine s
  | .checkerMismatch engine => Sys2Proof.Machine.execCheckerMismatch engine s
  | .suspendMessage => Sys2Proof.Machine.execSuspendMessage s
  | .nvmeSqDoorbell f q v => Sys2Proof.Machine.execNvmeSqDoorbell f q v s
  | .nvmeCqDoorbell f q v => Sys2Proof.Machine.execNvmeCqDoorbell f q v s
  | .ccEnable f cc => Sys2Proof.Machine.execCcEnable f cc s
  | .ccDisable f => Sys2Proof.Machine.execCcDisable f s
  | .shutdown f => Sys2Proof.Machine.execShutdown f s
  | .shutdownTimeout f => Sys2Proof.Machine.execShutdownTimeout f s
  | .nvmeCommandFetch f q got => Sys2Proof.Machine.execNvmeCommandFetch f q got s
  | .deleteIoSq f => Sys2Proof.Machine.execDeleteIoSq f s
  | .createIoSq f => Sys2Proof.Machine.execCreateIoSq f s
  | .getLogPage f list => Sys2Proof.Machine.execGetLogPage f list s
  | .deleteIoCq f => Sys2Proof.Machine.execDeleteIoCq f s
  | .createIoCq f => Sys2Proof.Machine.execCreateIoCq f s
  | .identify f list => Sys2Proof.Machine.execIdentify f list s
  | .nvmeAbort f => Sys2Proof.Machine.execNvmeAbort f s
  | .setFeatures f => Sys2Proof.Machine.execSetFeatures f s
  | .getFeatures f => Sys2Proof.Machine.execGetFeatures f s
  | .asynchronousEventRequest f => Sys2Proof.Machine.execAsynchronousEventRequest f s
  | .nvmeFlush f q => Sys2Proof.Machine.execNvmeFlush f q s
  | .nvmeWrite f q reads => Sys2Proof.Machine.execNvmeWrite f q reads s
  | .nvmeRead f q list => Sys2Proof.Machine.execNvmeRead f q list s
  | .writeZeroes f q => Sys2Proof.Machine.execWriteZeroes f q s
  | .datasetManagement f q ranges => Sys2Proof.Machine.execDatasetManagement f q ranges s
  | .c2hData ctx wire off data headerOk dataOk => Sys2Proof.Machine.execC2hData ctx wire off data headerOk dataOk s
  | .remoteResponse ctx wire status dw0 data icrcOk ecn => Sys2Proof.Machine.execRemoteResponse ctx wire status dw0 data icrcOk ecn s
  | .cmdTimeout ctx => Sys2Proof.Machine.execCmdTimeout ctx s
  | .connectionFailure ctx digest => Sys2Proof.Machine.execConnectionFailure ctx digest s
  | .retryTimeout ctx => Sys2Proof.Machine.execRetryTimeout ctx s
  | .lossTmo ctx => Sys2Proof.Machine.execLossTmo ctx s
  | .ctxWrite p => Sys2Proof.Machine.execCtxWrite p s
  | .ctxRead p => Sys2Proof.Machine.execCtxRead p s
  | .ctxResume p => Sys2Proof.Machine.execCtxResume p s
  | .ctxDisable p => Sys2Proof.Machine.execCtxDisable p s
  | .nsWrite p => Sys2Proof.Machine.execNsWrite p s
  | .nsRead p => Sys2Proof.Machine.execNsRead p s
  | .cnpRx ctx => Sys2Proof.Machine.execCnpRx ctx s
  | .rateRecovery ctx => Sys2Proof.Machine.execRateRecovery ctx s
  | .remoteAccess ctx write rkey off len data host icrcOk ecn => Sys2Proof.Machine.execRemoteAccess ctx write rkey off len data host icrcOk ecn s
  | .sendReceived ctx data imm icrcOk ecn => Sys2Proof.Machine.execSendReceived ctx data imm icrcOk ecn s
  | .nvmfCmd f q => Sys2Proof.Machine.execNvmfCmd f q s
  | .rdmaSend f q => Sys2Proof.Machine.execRdmaSend f q s
  | .rdmaWrite f q => Sys2Proof.Machine.execRdmaWrite f q s
  | .rdmaRead f q => Sys2Proof.Machine.execRdmaRead f q s
  | .recvBuffer f q => Sys2Proof.Machine.execRecvBuffer f q s
  | .trackerGrant => Sys2Proof.Machine.execTrackerGrant s
  | .copy ch n src => Sys2Proof.Machine.execCopy ch n src s
  | .fill ch n => Sys2Proof.Machine.execFill ch n s
  | .gather ch n src idx => Sys2Proof.Machine.execGather ch n src idx s
  | .scatter ch n src idx => Sys2Proof.Machine.execScatter ch n src idx s
  | .interleave ch n src => Sys2Proof.Machine.execInterleave ch n src s
  | .deinterleave ch n src => Sys2Proof.Machine.execDeinterleave ch n src s
  | .toPlanes ch n src => Sys2Proof.Machine.execToPlanes ch n src s
  | .fromPlanes ch n src => Sys2Proof.Machine.execFromPlanes ch n src s
  | .moverAssign => Sys2Proof.Machine.execMoverAssign s
  | .jobComplete ch flush => Sys2Proof.Machine.execJobComplete ch flush s
  | .busError ch cause addr write flush device => Sys2Proof.Machine.execBusError ch cause addr write flush device s
  | .channelResume p ch => Sys2Proof.Machine.execChannelResume p ch s
  | .channelAbort p ch => Sys2Proof.Machine.execChannelAbort p ch s
  | .channelStart p ch => Sys2Proof.Machine.execChannelStart p ch s
  | .tfork core => Sys2Proof.Machine.execTfork core s
  | .tjoin core => Sys2Proof.Machine.execTjoin core s
  | .texit core => Sys2Proof.Machine.execTexit core s
  | .tkill core => Sys2Proof.Machine.execTkill core s
  | .cput core => Sys2Proof.Machine.execCput core s
  | .csend core => Sys2Proof.Machine.execCsend core s
  | .ctrysend core => Sys2Proof.Machine.execCtrysend core s
  | .cclear core => Sys2Proof.Machine.execCclear core s
  | .crecv core => Sys2Proof.Machine.execCrecv core s
  | .cpoll core => Sys2Proof.Machine.execCpoll core s
  | .cget core => Sys2Proof.Machine.execCget core s
  | .twait core => Sys2Proof.Machine.execTwait core s
  | .halloc core => Sys2Proof.Machine.execHalloc core s
  | .hfree core => Sys2Proof.Machine.execHfree core s
  | .waitDeadline thread => Sys2Proof.Machine.execWaitDeadline thread s
  | .inject => Sys2Proof.Machine.execInject s
  | .stall domain => Sys2Proof.Machine.execStall domain s
  | .domainRestart thread => Sys2Proof.Machine.execDomainRestart thread s
  | .freeHandles thread => Sys2Proof.Machine.execFreeHandles thread s
  | .svcChCfgWrite p v => Sys2Proof.Machine.execSvcChCfgWrite p v s
  | .laneMismatch core => Sys2Proof.Machine.execLaneMismatch core s
  | .contextExchange core => Sys2Proof.Machine.execContextExchange core s
  | .debugHalt thread => Sys2Proof.Machine.execDebugHalt thread s
  | .debugResume thread => Sys2Proof.Machine.execDebugResume thread s
  | .hartreset thread => Sys2Proof.Machine.execHartreset thread s
  | .mbxSend f v => Sys2Proof.Machine.execMbxSend f v s
  | .mbxF2hPop f => Sys2Proof.Machine.execMbxF2hPop f s
  | .fmbxSend p v => Sys2Proof.Machine.execFmbxSend p v s
  | .ptpMeasurement slot m => Sys2Proof.Machine.execPtpMeasurement slot m s
  | .ppsEdge pin edge => Sys2Proof.Machine.execPpsEdge pin edge s
  | .nmeaSentence sentence => Sys2Proof.Machine.execNmeaSentence sentence s
  | .manualCommit p => Sys2Proof.Machine.execManualCommit p s
  | .reacquire p => Sys2Proof.Machine.execReacquire p s
  | .refQualified slot => Sys2Proof.Machine.execRefQualified slot s
  | .missedInterval slot => Sys2Proof.Machine.execMissedInterval slot s
  | .timRefCfgWrite p slot v => Sys2Proof.Machine.execTimRefCfgWrite p slot v s
  | .boundRecompute => Sys2Proof.Machine.execBoundRecompute s
  | .boundAlarmWrite p v => Sys2Proof.Machine.execBoundAlarmWrite p v s
  | .oscFault => Sys2Proof.Machine.execOscFault s
  | .oscReturn => Sys2Proof.Machine.execOscReturn s
  | .timUtcWrite p v => Sys2Proof.Machine.execTimUtcWrite p v s
  | .leapAtWrite p high v => Sys2Proof.Machine.execLeapAtWrite p high v s
  | .leapApplied => Sys2Proof.Machine.execLeapApplied s
  | .ppsOutEdge pin => Sys2Proof.Machine.execPpsOutEdge pin s
  | .ppsOutFall pin => Sys2Proof.Machine.execPpsOutFall pin s
  | .todTxSentence => Sys2Proof.Machine.execTodTxSentence s
  | .tracePeriodic => Sys2Proof.Machine.execTracePeriodic s
  | .timSnap p => Sys2Proof.Machine.execTimSnap p s
  | .akzPortUp port => Sys2Proof.Machine.execAkzPortUp port s
  | .akzPortDown port => Sys2Proof.Machine.execAkzPortDown port s
  | .linkFrameRx port crcOk rx => Sys2Proof.Machine.execLinkFrameRx port crcOk rx s
  | .linkNakRx port seq => Sys2Proof.Machine.execLinkNakRx port seq s
  | .helloTx port => Sys2Proof.Machine.execHelloTx port s
  | .helloRx port h => Sys2Proof.Machine.execHelloRx port h s
  | .helloTimeout port => Sys2Proof.Machine.execHelloTimeout port s
  | .masterChange => Sys2Proof.Machine.execMasterChange s
  | .forget p member => Sys2Proof.Machine.execForget p member s
  | .akzDataRx port header body => Sys2Proof.Machine.execAkzDataRx port header body s
  | .timeFrameTx port => Sys2Proof.Machine.execTimeFrameTx port s
  | .timeFrameRx port body => Sys2Proof.Machine.execTimeFrameRx port body s
  | .bootReq received => Sys2Proof.Machine.execBootReq received s
  | .imageFrame body => Sys2Proof.Machine.execImageFrame body s
  | .imageResult member status => Sys2Proof.Machine.execImageResult member status s
  | .faultCount kind index row recheckFailed => Sys2Proof.Machine.execFaultCount kind index row recheckFailed s
  | .screeSubwindow kind => Sys2Proof.Machine.execScreeSubwindow kind s
  | .handoffDone kind => Sys2Proof.Machine.execHandoffDone kind s
  | .repairRetest kind index passed => Sys2Proof.Machine.execRepairRetest kind index passed s
  | .scrub hbm line index row stored reread secondCopy => Sys2Proof.Machine.execScrub hbm line index row stored reread secondCopy s
  | .machineCheckFatal kind index => Sys2Proof.Machine.execMachineCheckFatal kind index s
  | .mcRestart => Sys2Proof.Machine.execMcRestart s
  | .tokenSubmit p => Sys2Proof.Machine.execTokenSubmit p s
  | .debugEnd p => Sys2Proof.Machine.execDebugEnd p s
  | .nonceRead p => Sys2Proof.Machine.execNonceRead p s
  | .debugExpiry => Sys2Proof.Machine.execDebugExpiry s
  | .mbxStage f addr len image => Sys2Proof.Machine.execMbxStage f addr len image s
  | .mbxQuery f => Sys2Proof.Machine.execMbxQuery f s
  | .requestUpdate => Sys2Proof.Machine.execRequestUpdate s
  | .passComponentTable classification identifier => Sys2Proof.Machine.execPassComponentTable classification identifier s
  | .updateComponent classification identifier size => Sys2Proof.Machine.execUpdateComponent classification identifier size s
  | .activateFirmware => Sys2Proof.Machine.execActivateFirmware s
  | .getStatus => Sys2Proof.Machine.execGetStatus s
  | .cancelUpdate => Sys2Proof.Machine.execCancelUpdate s
  | .activate p => Sys2Proof.Machine.execActivate p s
  | .memberSwitch rollback => Sys2Proof.Machine.execMemberSwitch rollback s
  | .switched p => Sys2Proof.Machine.execSwitched p s
  | .switchedReply member reverted => Sys2Proof.Machine.execSwitchedReply member reverted s
  | .activateReverted => Sys2Proof.Machine.execActivateReverted s
  | .dirWritten => Sys2Proof.Machine.execDirWritten s
  | .commit p => Sys2Proof.Machine.execCommit p s
  | .rollback p => Sys2Proof.Machine.execRollback p s
  | .autoCommit => Sys2Proof.Machine.execAutoCommit s
  | .configWrite f off v => Sys2Proof.Machine.execConfigWrite f off v s
  | .instructionIssue core => Sys2Proof.Machine.execInstructionIssue core s
  | .tapInstruction code data => Sys2Proof.Machine.execTapInstruction code data s
  | .mgtLinkUp => Sys2Proof.Machine.execMgtLinkUp s
  | .mgtLinkDown => Sys2Proof.Machine.execMgtLinkDown s
  | .mgtFrameSent => Sys2Proof.Machine.execMgtFrameSent s
  | .mgtCarrierDrop => Sys2Proof.Machine.execMgtCarrierDrop s
  | .nvmeTcpR2t ctx wire off len host => Sys2Proof.Machine.execNvmeTcpR2t ctx wire off len host s
  | .thermalWarnRearm sensor reading => Sys2Proof.Machine.execThermalWarnRearm sensor reading s
  | .firmwareDataReceived data => Sys2Proof.Machine.execFirmwareDataReceived data s

end Sys2Proof.Machine
end

