-- ==== Sys2Proof/Safety.lean ====
section
/-!
DEFINITION. What the statements say in common: the parts of the state and which of them each command may change (frames), and the legal
life-cycle states and their transitions (R448 to R450).
-/
namespace Sys2Proof.Machine

/-! ### Frames -/

/-- The parts of the state: the fields of State, and the life-cycle fuses of the LCS record apart. -/
inductive Part where
  | pending | elapsed | out | free | regs | occ | shadow | cai | hif | qm | mac | mgt
  | prs | tbl | tm | tim | cry | rel | lcs | sto | dmv | svc | akz | dev | fuses | lastWork
deriving DecidableEq, Repr

/-- The life-cycle fuses: the state, the owner slots, and the return that is pending (R448 to R450). -/
def lifeFuses (s : State) : Nat × List Bytes × Bool × Nat := (s.lcs.life, s.lcs.owners, s.lcs.returnPending, s.lcs.returnTo)

/-- t holds the part as s does. -/
def Part.same (s t : State) : Part → Prop
  | .pending => t.pending = s.pending
  | .elapsed => t.elapsed = s.elapsed
  | .out => t.out = s.out
  | .free => t.free = s.free
  | .regs => t.regs = s.regs
  | .occ => t.occ = s.occ
  | .shadow => t.shadow = s.shadow
  | .cai => t.cai = s.cai
  | .hif => t.hif = s.hif
  | .qm => t.qm = s.qm
  | .mac => t.mac = s.mac
  | .mgt => t.mgt = s.mgt
  | .prs => t.prs = s.prs
  | .tbl => t.tbl = s.tbl
  | .tm => t.tm = s.tm
  | .tim => t.tim = s.tim
  | .cry => t.cry = s.cry
  | .rel => t.rel = s.rel
  | .lcs => t.lcs = s.lcs
  | .sto => t.sto = s.sto
  | .dmv => t.dmv = s.dmv
  | .svc => t.svc = s.svc
  | .akz => t.akz = s.akz
  | .dev => t.dev = s.dev
  | .fuses => lifeFuses t = lifeFuses s
  | .lastWork => t.lastWork = s.lastWork

/-- t differs from s in no part but those listed. -/
def OnlyChanges (ps : List Part) (s t : State) : Prop := ∀ p, p ∉ ps → p.same s t

/-- Every part but those listed. -/
def allBut (ps : List Part) : List Part :=
  [.pending, .elapsed, .out, .free, .regs, .occ, .shadow, .cai, .hif, .qm, .mac, .mgt,
   .prs, .tbl, .tm, .tim, .cry, .rel, .lcs, .sto, .dmv, .svc, .akz, .dev, .fuses, .lastWork].filter (fun p => !ps.contains p)

/-- The parts of the state that each command may change. A command that raises an event reaches the queue manager, which holds event sources,
and the service cores, whose channel 3 they go to (R174, R404); one that tells of a moment brings the clocks forward (assumption 3); an
instruction of a thread may be a store to any register (R390). -/
def mayChange : Instr → List Part
  | .registerWrite _ _ _ | .badAccess _ _ _ | .heldAccess _ _ _ | .instructionIssue _ => allBut [.pending, .elapsed]
  | .lowWordRead _ _ | .readClear _ _ | .mbxF2hPop _ | .nonceRead _ => [.out, .free, .regs, .occ, .shadow, .cai, .hif, .qm, .tm, .lcs, .svc, .lastWork]
  | .w1cHardwareSet _ _ _ => [.regs, .occ, .hif]
  | .domainStop _ => [.elapsed, .cai, .tim]
  | .domainGated _ => [.cai]
  | .domainStartDone _ _ | .switched _ => allBut [.pending, .elapsed, .fuses]
  | .aonRailUp => allBut [.pending, .elapsed, .out, .free, .fuses]
  | .aonRailLoss | .porstAssert => allBut [.pending, .elapsed, .free, .fuses]
  | .porstDeassert _ => allBut [.pending, .free, .fuses]
  | .railGood _ => [.elapsed, .out, .cai, .hif, .tim]
  | .railFault _ | .drainFinished | .parityError _ _ | .loadDone _ | .laneMismatch _ | .faultCount _ _ _ _ | .handoffDone _ | .scrub _ _ _ _ _ _ _
  | .machineCheckFatal _ _ => allBut [.pending, .elapsed, .shadow, .fuses, .lastWork]
  | .railOrder _ | .thermalTrip _ _ => allBut [.pending, .elapsed, .shadow, .rel, .fuses, .lastWork]
  | .thermalWarn _ _ | .thermalRecover _ | .thermalWarnRearm _ _ => [.regs, .occ, .cai, .qm, .svc]
  | .sysclkFault => [.regs, .occ, .cai, .tim]
  | .sysclkReturn | .ptpMeasurement _ _ | .ppsEdge _ _ | .nmeaSentence _ => [.out, .regs, .occ, .cai, .qm, .tim, .svc]
  | .ethRefclkLoss => [.out, .free, .regs, .cai, .qm, .mac, .tm, .lcs, .svc, .akz]
  | .ethRefclkReturn => [.cai, .mac, .akz]
  | .pcieRefclkLoss _ | .perstAssert _ | .hotReset _ | .linkDisable _ | .pcieLinkFailure _ =>
    [.out, .free, .regs, .occ, .cai, .hif, .qm, .mac, .tbl, .tm, .tim, .cry, .sto, .dmv, .svc]
  | .pcieRefclkReturn _ => [.cai, .hif]
  | .mctpMessage _ => [.out, .cai, .qm, .svc]
  | .wakeAtReached => [.elapsed, .out, .regs, .cai, .qm, .tim, .svc]
  | .bringupStart _ => allBut [.pending, .elapsed, .shadow, .lastWork]
  | .bootWaitExpiry => allBut [.pending, .shadow, .mgt, .fuses, .lastWork]
  | .unitReady _ => [.out, .free, .regs, .cai, .qm, .mac, .tm, .svc]
  | .functionReady _ => [.out, .free, .regs, .cai, .hif, .qm, .mac, .tm, .svc]
  | .drain _ | .drainStandby _ | .cancel _ | .restartRequest _ | .cipherDone _ => allBut [.pending, .elapsed, .shadow, .fuses]
  | .drainLimitExpiry => [.elapsed, .out, .free, .regs, .hif, .qm, .mac, .tm, .tim, .cry, .sto, .dmv, .svc, .lastWork]
  | .perstDeassert _ => [.out, .regs, .cai, .hif, .qm, .mac, .svc]
  | .pcieLinkUp _ _ _ _ | .prgResponse _ _ _ | .freezeDone _ | .vfMigDone _ => [.hif, .qm, .svc]
  | .configRead _ _ | .ptmRequest _ => [.out, .free, .occ, .hif]
  | .busMasterDisable _ | .initiateFlr _ | .ideIntegrityFailure _ _ => [.hif, .qm, .tbl, .cry, .sto, .dmv, .svc]
  | .quiesceDone _ | .powerStateChange _ _ | .doeAbort _ => [.hif]
  | .flrDone _ | .vfDisable _ | .configWrite _ _ _ => [.out, .free, .regs, .occ, .hif, .qm, .mac, .tbl, .tm, .tim, .cry, .sto, .dmv, .svc]
  | .vfEnable _ | .atsInvalidation _ _ _ _ | .doeRequest _ _ _ _ | .getVersion _ | .getCapabilities _ _ | .negotiateAlgorithms _ _ _ _ _ | .getDigests _
  | .getCertificate _ _ _ _ | .keyExchange _ _ _ _ | .finish _ _ _ | .keyUpdate _ _ _ | .heartbeat _ _ | .endSession _ _ | .dirtyPageLog _ _ _ => [.out, .hif]
  | .msixUnmask _ _ | .doorbellWrite _ _ _ _ | .vfUnfreeze _ | .nvmeSqDoorbell _ _ _ | .nvmeCqDoorbell _ _ _ | .ctxResume _ | .mbxSend _ _
  | .fmbxSend _ _ => [.out, .free, .regs, .occ, .cai, .hif, .qm, .sto, .svc, .lastWork]
  | .tagSlotGrant _ | .challenge _ _ _ _ | .getMeasurements _ _ _ _ | .vendorDefinedRequest _ _ _ => [.out, .free, .hif]
  | .hostCompletion _ _ _ _ => [.free, .regs, .occ, .hif, .qm, .svc]
  | .completionTimeout _ => [.elapsed, .free, .regs, .occ, .hif, .qm, .tim, .svc]
  | .quarantineEnd _ => [.elapsed, .hif, .tim]
  | .poisonedPostedWrite _ => [.free, .occ, .hif]
  | .pageRequest _ _ | .slotRead _ _ => [.out, .hif, .qm]
  | .pageRequestTimeout _ _ | .migSlow _ => [.elapsed, .hif, .qm, .tim, .svc]
  | .stopInterface _ => [.out, .free, .regs, .hif, .qm, .mac, .tbl, .tm, .cry, .dmv, .svc]
  | .sqEntryFetch _ _ _ | .staleRetry _ _ _ | .nvmeCommandFetch _ _ _ => [.elapsed, .free, .regs, .occ, .hif, .qm, .tim, .sto, .svc]
  | .completionWrite _ _ _ | .eqEntryWrite _ _ _ => [.out, .hif, .qm, .svc]
  | .eventRaise _ _ _ _ | .mbxQuery _ => [.qm, .svc]
  | .moderationTimer _ _ => [.elapsed, .out, .hif, .qm, .tim]
  | .qCreate _ | .ctxDisable _ => [.out, .free, .regs, .occ, .cai, .hif, .qm, .sto, .lastWork]
  | .qDestroy _ => [.out, .free, .regs, .occ, .cai, .hif, .qm, .tbl, .sto, .lastWork]
  | .queueDisabled _ _ => [.regs, .hif, .qm]
  | .queueRestart _ => [.out, .free, .regs, .occ, .cai, .hif, .qm, .tbl, .sto, .svc, .lastWork]
  | .txFrame _ _ | .hostTxResume _ | .inject => [.qm, .tm, .svc]
  | .rxBuffer _ _ => [.qm]
  | .sqFetchResume _ => [.qm, .tm]
  | .vfGrant _ | .vportBind _ _ => [.out, .free, .regs, .occ, .cai, .hif, .qm, .tbl, .cry, .sto, .dmv, .svc, .lastWork]
  | .logStart _ | .logSwap _ | .logStop _ | .vfSave _ _ | .statSnap _ _ | .hashSeedWrite _ _ _ | .progBankSwitch _ _ | .meterRead _ | .ctxWrite _
  | .ctxRead _ | .nsWrite _ | .nsRead _ | .timSnap _ => [.out, .free, .regs, .occ, .cai, .hif, .sto, .lastWork]
  | .vfFreeze _ => allBut [.pending, .elapsed, .shadow, .mgt, .tim, .rel, .lcs, .akz, .dev, .fuses]
  | .vfRestore _ _ => allBut [.pending, .shadow, .mgt, .prs, .rel, .lcs, .dmv, .akz, .dev, .fuses]
  | .timePageWrite _ => [.elapsed, .out, .hif, .tim]
  | .frameReceived _ _ _ => [.out, .regs, .qm, .mac, .tm, .svc]
  | .frameEnd _ | .parseDispatch _ _ => [.out, .free, .regs, .qm, .mac, .prs, .tbl, .tm, .svc]
  | .pauseRefresh _ _ | .stormRecover _ _ => [.elapsed, .out, .mac, .tim]
  | .pauseFrameRx _ _ _ _ => [.mac]
  | .pauseHoldExpiry _ _ => [.elapsed, .mac, .tim]
  | .pauseRxStorm _ _ | .gateListActive _ => [.elapsed, .qm, .mac, .tim, .svc]
  | .pauseTxStorm _ _ => [.elapsed, .out, .qm, .mac, .tim, .svc]
  | .linkUp _ => [.out, .qm, .mac, .svc]
  | .linkDown _ | .copyFinished _ => [.out, .free, .qm, .mac, .tm, .svc]
  | .fecWindow _ _ _ => [.qm, .mac, .svc]
  | .portCfgWrite _ _ _ => [.out, .free, .regs, .occ, .cai, .hif, .qm, .mac, .tm, .sto, .svc, .lastWork]
  | .filterAdd _ | .filterDelete _ _ | .filterRead _ _ => [.out, .free, .regs, .occ, .cai, .hif, .mac, .sto, .lastWork]
  | .mgtFrameRx _ _ => [.free, .regs, .qm, .mgt, .tm, .svc]
  | .mgtTx | .ncsiCommand _ _ _ | .resetChannel _ | .mgtLinkDown => [.out, .free, .qm, .mac, .mgt, .tm, .svc]
  | .collision _ => [.out, .free, .regs, .qm, .mac, .mgt, .tm, .svc]
  | .backoffExpiry | .mgtCarrierDrop => [.elapsed, .mgt, .tim]
  | .mdioStart _ _ => [.out, .free, .regs, .occ, .cai, .hif, .mgt, .sto, .lastWork]
  | .mdioDone _ => [.regs, .mgt]
  | .microNext _ | .microJump _ | .microJz _ | .microJnz _ | .microMatch _ | .microCall _ | .microRet _ | .microEnd _ | .microAdd _ | .microSub _
  | .microAnd _ | .microOr _ | .microXor _ | .microShl _ | .microShr _ | .microMov _ | .microBfx _ | .microSeq _ | .microSlt _ | .microMin _
  | .microMax _ | .microCsum _ | .microMark _ | .microFrag _ | .microHashreg _ | .microTrap _ | .microResume _ | .microHashrst _ | .microBudget _ =>
    [.out, .free, .regs, .qm, .mac, .prs, .tbl, .tm, .svc, .lastWork]
  | .fragEntryExpiry _ _ => [.elapsed, .prs, .tim]
  | .pairLineRewritten _ => [.prs]
  | .prsLoadStart _ => [.out, .free, .occ, .cai, .hif, .qm, .prs, .rel, .sto, .svc, .lastWork]
  | .prsIndWrite _ _ _ => [.out, .free, .regs, .occ, .cai, .hif, .prs, .sto, .lastWork]
  | .tableProgram _ | .vportStep _ | .tunnelStep _ | .lpmStep _ | .aclStep _ | .freeHandles _ => [.out, .free, .regs, .qm, .mac, .tm, .svc]
  | .flowStep _ => [.out, .free, .regs, .qm, .mac, .tbl, .tm, .svc]
  | .actionList _ | .actEncrypt _ | .actDecrypt _ => [.out, .free, .regs, .hif, .qm, .mac, .tbl, .tm, .cry, .svc, .akz]
  | .actEnd _ | .actNop _ | .actDrop _ | .actChain _ | .actDecap _ | .actEncap _ | .actRewrite _ | .actDecTtl _ | .actVlanPush _ | .actVlanPop _
  | .actMeter _ | .actCount _ | .actSetClass _ | .actDeliverVport _ | .actDeliverQueue _ | .actDeliverInd _ | .actDeliverPort _ | .actDeliverChannel _
  | .actDeliverAkzal _ | .actMirror _ | .actLearn _ | .actTsInsert _ | .akzDataRx _ _ _ => [.out, .free, .regs, .hif, .qm, .mac, .tbl, .tm, .svc, .akz]
  | .learnRequest => [.free, .regs, .qm, .tbl, .svc]
  | .ageVisit _ | .lockExpired _ => [.elapsed, .regs, .qm, .tbl, .tim, .svc]
  | .tblInsert _ _ => [.free, .qm, .tbl, .svc]
  | .relocationMove _ => [.qm, .tbl]
  | .tblDelete _ _ | .tblWrite _ _ | .tblWriteUnlock _ _ | .tblUnlock _ _ => [.free, .qm, .tbl]
  | .tblLookup _ _ | .tblRead _ _ => [.out, .free, .hif, .qm]
  | .tblLock _ _ => [.out, .free, .hif, .qm, .tbl]
  | .tblCounterRead _ _ => [.out, .hif, .qm, .tbl]
  | .filterRebuild | .filterSwitch => [.tbl]
  | .tblProgWrite _ => [.out, .free, .occ, .cai, .hif, .tbl, .sto, .lastWork]
  | .scheduleDecision _ => [.elapsed, .out, .free, .regs, .qm, .mac, .tm, .tim, .svc]
  | .shaperCredit _ => [.elapsed, .tm, .tim]
  | .launchTimeReached _ | .gateEntryChange _ => [.elapsed, .tim]
  | .frameTransmitted _ => [.elapsed, .out, .free, .qm, .mac, .tm, .tim, .svc]
  | .gateCommit _ _ => [.out, .free, .occ, .cai, .hif, .qm, .mac, .sto, .svc, .lastWork]
  | .nodeWrite _ _ _ | .meterWrite _ => [.out, .free, .regs, .occ, .cai, .hif, .tm, .sto, .lastWork]
  | .keyWrite _ _ | .keyUnwrap _ _ | .slotUpdate _ _ => [.qm, .cry]
  | .keyClear _ _ => [.out, .free, .regs, .qm, .mac, .tm, .cry, .svc]
  | .laEncrypt _ _ | .laDecrypt _ _ => [.regs, .qm, .cry, .svc]
  | .slotFetchDone _ | .checkerMismatch _ => [.cry]
  | .suspendMessage => [.regs, .cry]
  | .ccEnable _ _ => [.out, .hif, .sto]
  | .ccDisable _ | .shutdown _ | .cnpRx _ => [.sto]
  | .shutdownTimeout _ | .rateRecovery _ => [.elapsed, .tim, .sto]
  | .deleteIoSq _ | .createIoSq _ | .deleteIoCq _ | .createIoCq _ | .setFeatures _ | .getFeatures _ | .asynchronousEventRequest _ => [.out, .hif, .sto, .lastWork]
  | .getLogPage _ _ | .identify _ _ | .nvmeFlush _ _ | .nvmeWrite _ _ _ | .nvmeRead _ _ _ | .writeZeroes _ _ | .datasetManagement _ _ _
  | .remoteAccess _ _ _ _ _ _ _ _ _ | .nvmeTcpR2t _ _ _ _ _ => [.elapsed, .out, .free, .regs, .occ, .hif, .qm, .tim, .sto, .svc, .lastWork]
  | .nvmeAbort _ => [.out, .regs, .hif, .sto, .lastWork]
  | .c2hData _ _ _ _ _ _ => [.out, .regs, .hif, .qm, .sto, .svc]
  | .remoteResponse _ _ _ _ _ _ _ => [.out, .regs, .hif, .qm, .sto, .svc, .lastWork]
  | .cmdTimeout _ => [.elapsed, .out, .regs, .qm, .tim, .sto, .svc]
  | .connectionFailure _ _ | .retryTimeout _ => [.out, .regs, .qm, .sto, .svc]
  | .lossTmo _ => [.elapsed, .out, .hif, .qm, .tim, .sto, .svc, .lastWork]
  | .sendReceived _ _ _ _ _ => [.out, .regs, .hif, .qm, .sto, .lastWork]
  | .nvmfCmd _ _ | .rdmaSend _ _ | .rdmaWrite _ _ | .rdmaRead _ _ | .recvBuffer _ _ => [.out, .regs, .qm, .sto]
  | .trackerGrant => [.qm, .sto, .dmv, .svc]
  | .copy _ _ _ | .fill _ _ | .gather _ _ _ _ | .scatter _ _ _ _ | .interleave _ _ _ | .deinterleave _ _ _ | .toPlanes _ _ _ | .fromPlanes _ _ _ =>
    [.elapsed, .out, .free, .regs, .occ, .hif, .qm, .tim, .rel, .dmv, .svc, .dev, .lastWork]
  | .moverAssign => [.regs, .dmv]
  | .jobComplete _ _ => [.elapsed, .free, .regs, .occ, .hif, .qm, .tim, .dmv, .svc, .lastWork]
  | .busError _ _ _ _ _ _ => [.regs, .qm, .dmv, .svc, .lastWork]
  | .channelResume _ _ => [.out, .free, .regs, .occ, .cai, .hif, .sto, .dmv, .lastWork]
  | .channelAbort _ _ | .channelStart _ _ => [.out, .free, .regs, .occ, .cai, .hif, .qm, .sto, .dmv, .svc, .lastWork]
  | .tfork _ | .tjoin _ | .texit _ | .tkill _ | .cput _ | .cclear _ | .cget _ | .twait _ => [.regs, .svc, .lastWork]
  | .csend _ | .ctrysend _ | .crecv _ | .cpoll _ => [.regs, .qm, .svc, .lastWork]
  | .halloc _ => [.free, .regs, .qm, .tm, .svc, .lastWork]
  | .hfree _ => [.out, .free, .regs, .qm, .mac, .tm, .svc, .lastWork]
  | .waitDeadline _ => [.elapsed, .tim, .svc]
  | .stall _ => [.regs, .qm, .svc]
  | .domainRestart _ => [.regs, .occ, .qm, .svc]
  | .svcChCfgWrite _ _ => [.out, .free, .regs, .occ, .cai, .hif, .sto, .svc, .lastWork]
  | .contextExchange _ | .debugHalt _ | .debugResume _ | .hartreset _ => [.svc]
  | .manualCommit _ | .reacquire _ | .timRefCfgWrite _ _ _ | .boundAlarmWrite _ _ | .timUtcWrite _ _ =>
    [.out, .free, .regs, .occ, .cai, .hif, .qm, .tim, .sto, .svc, .lastWork]
  | .refQualified _ | .missedInterval _ | .boundRecompute => [.elapsed, .out, .regs, .occ, .qm, .tim, .svc]
  | .oscFault | .oscReturn => [.out, .regs, .occ, .qm, .tim, .svc]
  | .leapAtWrite _ _ _ => [.out, .free, .regs, .occ, .cai, .hif, .tim, .sto, .lastWork]
  | .leapApplied | .tracePeriodic => [.elapsed, .regs, .qm, .tim, .svc]
  | .ppsOutEdge _ | .ppsOutFall _ | .todTxSentence => [.elapsed, .out, .tim]
  | .akzPortUp _ | .imageResult _ _ => [.out, .qm, .lcs, .svc, .akz]
  | .akzPortDown _ | .linkNakRx _ _ => [.out, .free, .regs, .qm, .mac, .tm, .lcs, .svc, .akz]
  | .linkFrameRx _ _ _ => [.out, .free, .qm, .mac, .tm, .svc, .akz]
  | .helloTx _ | .timeFrameTx _ | .bootReq _ => [.out, .akz]
  | .helloRx _ _ => [.qm, .lcs, .svc, .akz]
  | .helloTimeout _ => [.elapsed, .qm, .tim, .lcs, .svc, .akz]
  | .masterChange => [.qm, .svc, .akz]
  | .forget _ _ => [.out, .free, .occ, .cai, .hif, .qm, .sto, .svc, .akz, .lastWork]
  | .timeFrameRx _ _ => [.out, .regs, .occ, .cai, .qm, .tim, .svc, .akz]
  | .imageFrame _ => allBut [.pending, .elapsed, .shadow, .mgt, .fuses, .lastWork]
  | .screeSubwindow _ => [.elapsed, .tim, .rel]
  | .repairRetest _ _ _ => [.elapsed, .out, .free, .regs, .cai, .qm, .mac, .tm, .tim, .cry, .rel, .sto, .svc]
  | .mcRestart => [.elapsed, .out, .regs, .occ, .cai, .qm, .tim, .svc]
  | .tokenSubmit _ => allBut [.pending, .elapsed, .shadow]
  | .debugEnd _ | .commit _ => [.out, .free, .regs, .occ, .cai, .hif, .qm, .lcs, .sto, .svc, .lastWork]
  | .debugExpiry => [.elapsed, .qm, .tim, .lcs, .svc]
  | .mbxStage _ _ _ _ => [.elapsed, .out, .free, .regs, .occ, .hif, .qm, .tim, .rel, .lcs, .svc, .akz, .dev]
  | .requestUpdate | .passComponentTable _ _ | .updateComponent _ _ _ | .cancelUpdate | .dirWritten => [.out, .lcs]
  | .activateFirmware => [.out, .regs, .occ, .cai, .qm, .rel, .lcs, .svc, .akz, .dev]
  | .getStatus => [.out]
  | .activate _ | .rollback _ => [.out, .free, .regs, .occ, .cai, .hif, .qm, .rel, .lcs, .sto, .svc, .akz, .dev, .lastWork]
  | .memberSwitch _ | .switchedReply _ _ => [.out, .regs, .cai, .qm, .rel, .lcs, .svc, .akz, .dev]
  | .activateReverted => allBut [.pending, .fuses]
  | .autoCommit => [.elapsed, .out, .qm, .tim, .lcs, .svc]
  | .tapInstruction _ _ => [.out, .free, .cai]
  | .mgtLinkUp => [.qm, .mgt, .svc]
  | .mgtFrameSent => [.elapsed, .out, .free, .regs, .qm, .mac, .mgt, .tm, .tim, .svc]
  | .firmwareDataReceived _ => [.out, .rel, .lcs, .svc, .akz, .dev]

/-- The canonical form of device memory, as a test: addresses strictly rising, and no byte listed that reads as an unlisted one (zero). -/
def Memory.wf (m : NMap Byte) : Bool :=
  decide (m.Pairwise (fun a b => a.1 < b.1)) && m.all (fun e => decide (e.2 ≠ 0))

/-! ### The life cycle (R448 to R450) -/

/-- A legal life-cycle state: one of the five, at most four owner slots, of which one is filled exactly when the device has left MAKER, and a
return pending only in OWNED or FIELD, on its way to RETURNED or SPENT. -/
def LifeOk (l : Lcs) : Prop :=
  l.life ≤ 4 ∧ l.owners.length ≤ 4 ∧ (l.life = 0 ↔ l.owners = []) ∧
    (l.returnPending = true → (l.life = 1 ∨ l.life = 2) ∧ (l.returnTo = 3 ∨ l.returnTo = 4))

/-- The state stays, or changes as the table of R449 gives; from OWNED and FIELD to RETURNED and SPENT only with RETURN_PENDING (R450). -/
def LifeEdge (a b : Lcs) : Prop :=
  b.life = a.life ∨ (a.life = 0 ∧ b.life = 1) ∨ (a.life = 1 ∧ b.life = 2) ∨
    ((a.life = 1 ∨ a.life = 2) ∧ a.returnPending = true ∧ (b.life = 3 ∨ b.life = 4)) ∨ (a.life = 3 ∧ (b.life = 1 ∨ b.life = 4))

end Sys2Proof.Machine
end

