-- ==== Sys2Proof/Certificates/Slice0/Obligations.lean ====
section
/-!
DEFINITION. The statements about the model: first what holds of every step and every command, then one statement per family of
commands. Rule numbers are the spec's; assumption numbers are those of the assumption log.
-/
section
open Sys2Proof Sys2Proof.Machine

/-- A step runs the front command: for every command and state, step of a state whose queue begins with the command is exec of it on the state with the rest of the queue. The queue is the model's own form of the commands' order (assumption 2). Rests on spec/00_scope.md. -/
def Obligations.StepRunsFrontCommand : Prop :=
  ∀ (i : Instr) (rest : List Instr) (s : State), s.pending = i :: rest → step s = exec i { s with pending := rest }

/-- What a step does on an empty queue: one nanosecond passes. Device time takes one increment where it runs, and nothing else of the state changes. That a step on an empty queue ticks is the model's choice (assumption 2); that time advances by the increment at each tick is the spec's. Rests on R26, R29 and R45. -/
def Obligations.EmptyQueueTicks : Prop :=
  ∀ s : State, s.pending = [] →
      ∃ t, step s = .next t ∧ t.elapsed = s.elapsed + 1 ∧
        t.tim = (if timeRuns s then { s.tim with t48 := (s.tim.t48 + s.tim.increment) % 2 ^ 128 } else s.tim) ∧
        OnlyChanges [.elapsed, .tim] s t

/-- The state after reset: no command waits, nothing has left the block, the device is in STANDBY with its wake pending, time is at zero in FREERUN with the bound UNKNOWN, the life-cycle state is MAKER with no owner (the model's choice of fuses), no queue is created, and every register holds its reset value but TIM_STATUS, in which BOUND_ALARM is set. Rests on R7, R29, R95, R107, R448, R469 and R477. -/
def Obligations.ResetState : Prop :=
  (State.reset.pending = [] ∧ State.reset.out = [] ∧ State.reset.elapsed = 0 ∧ State.reset.cai.mode = .standby ∧ State.reset.cai.wakePending = true ∧
      State.reset.tim.t48 = 0 ∧ State.reset.tim.servo = .freerun ∧ State.reset.tim.bound = none ∧ State.reset.lcs.life = 0 ∧
      State.reset.lcs.owners = [] ∧ State.reset.qm.queues = [] ∧ State.reset.dev = []) ∧
  (∀ (r : Reg) (i h : Nat), reg State.reset r i h = if regKey r i h = regKey .TIM_STATUS 0 0 then 2 else resetAt r i)

/-- At reset the life-cycle state is legal, and device memory is in its canonical form: addresses strictly rising, no byte listed that reads as an unlisted one. The two invariants that every step keeps (LifeCycleKept, DeviceMemoryCanonical) hold there. Rests on R374, R448 and R449. -/
def Obligations.InvariantsAtReset : Prop :=
  LifeOk State.reset.lcs ∧ NMapWf (fun _ => (0 : Byte)) State.reset.dev

/-- No command stops the block: in every state, exec of every command answers a next state. What that state holds is said by the statements of the families. Rests on R1 and R10. -/
def Obligations.EveryCommandCompletes : Prop :=
  ∀ (i : Instr) (s : State), ∃ t, exec i s = .next t

/-- The frame of every command: where exec answers a next state, every part of the state outside the command's list mayChange is as it was. The parts are the fields of State and, apart, the life-cycle fuses. Rests on spec/00_scope.md, spec/01_system_overview.md and spec/19_register_index.md. -/
def Obligations.EveryCommandChangesOnlyItsParts : Prop :=
  ∀ (i : Instr) (s t : State), exec i s = .next t → OnlyChanges (mayChange i) s t

/-- Commands run first in, first out: after a step the queue is what it was without its front command, whatever the command did. No command adds to the queue or takes from it. The queue is the model's own (assumption 2). Rests on spec/00_scope.md. -/
def Obligations.QueueAdvancesByOne : Prop :=
  ∀ s t : State, step s = .next t → t.pending = s.pending.tail

/-- The life cycle: from every state whose life-cycle record is legal, a step leaves a legal one, and the life-cycle state stays or takes a permitted transition: MAKER to OWNED, OWNED to FIELD, RETURNED to OWNED or SPENT, and from OWNED or FIELD to RETURNED or SPENT only where RETURN_PENDING was set. Rests on R448, R449 and R450. -/
def Obligations.LifeCycleKept : Prop :=
  ∀ s t : State, LifeOk s.lcs → step s = .next t → LifeOk t.lcs ∧ LifeEdge s.lcs t.lcs

/-- Device memory is a list of written bytes by raw address. From every state in which its addresses rise strictly and no listed byte is zero, a step leaves it so: equal memories stay equal data, whichever of the movers, the threads, the loaders and the resets wrote them. The form is the model's own. Rests on R108, R374 and R390. -/
def Obligations.DeviceMemoryCanonical : Prop :=
  ∀ s t : State, NMapWf (fun _ => (0 : Byte)) s.dev → step s = .next t → NMapWf (fun _ => (0 : Byte)) t.dev

/-- The Cairn clock only advances: after every step the count of its ticks is what it was or more, also where a command tells of a moment to which the clock is brought forward (assumption 3). Rests on R29, R45 and R68. -/
def Obligations.TimeNeverGoesBack : Prop :=
  ∀ s t : State, step s = .next t → s.elapsed ≤ t.elapsed

/-- R243, trap entry: the engine saves the trapping word's address, the cursor, the call-stack depth, G14 and G15, loads G14 with the cause and the sub-code and G15 with the word's address, counts the trap, and saves neither the header vector nor the hash accumulator, which RESUME leaves as the handler made them. Formalises R243. -/
def Obligations.TrapEntry : Prop :=
  (∀ (k w cause sub : Nat) (e : Engine) (s : State), e.saved = none → e.g.length = 16 → e.pc < 8192 → cause < 256 → sub < 65536 →
      ∃ x, mfind (takeTrap k e w cause sub s).prs.engines k = some x ∧ x.saved = some (e.pc, e.cursor, e.depth, greg e 14, greg e 15) ∧
        greg x 14 = cause + 256 * sub ∧ greg x 15 = e.pc ∧ x.traps = e.traps + 1 ∧ x.hv = e.hv ∧ x.fed = e.fed ∧ (∀ i, i < 14 → greg x i = greg e i)) ∧
  (∀ (w : Nat) (sv : Nat × Nat × Nat × Nat × Nat) (x : Engine), (resume w sv x).hv = x.hv ∧ (resume w sv x).fed = x.fed)

/-- R317, GATE_LIST_ACTIVE: when a logical port's pending list takes effect, block 0x4 raises code 0x07 with the port as DETAIL, and the event goes to the default EQ of each enabled PF whose QM_EVENT_MASK bit 4 is set (R219); firmware takes a copy where SVC_FW_EVENT_MASK asks for it (R404). Formalises R317. -/
def Obligations.GateListEvent : Prop :=
  (∀ (lp : Nat) (l : GateList) (s : State), lp < 16 → (lport s lp).pending = some l →
      exec (.gateListActive lp) s = .next (raise 0x4 0x07 lp .device (modLport lp (fun p => { p with oper := some l, pending := none }) (advanceTai l.change s)))) ∧
  (∀ (i : Nat) (eq : Option Nat) (s : State),
      (Fn.pf i, eq) ∈ eventTargets s 0x4 .device ↔ i < 4 ∧ pfEnabled s i = true ∧ wbit (reg s .QM_EVENT_MASK 0 (fnCode (.pf i))) 4 = true ∧ eq = defaultEq s (.pf i))

/-- A VF has no access to the registers of LCS: whatever a VF writes, at whatever offset and with whatever value, the life-cycle state, the owner slots and the pending return stay as they were. Rests on R448, R449 and R467. -/
def Obligations.VfNeverMovesLifeCycle : Prop :=
  ∀ (p n off : Nat) (v : Word) (s t : State), exec (.registerWrite (.fn (.vf p n)) off v) s = .next t → lifeFuses t = lifeFuses s

/-- R244: outside a handler a RESUME word traps ILLEGAL (cause 2). In a handler its other slots act first; then the engine restores the cursor, the call-stack depth, G14 and G15 over whatever those slots made of them, keeps everything else that they did, and goes on at the trapping word (RETRY) or at the word after it (SKIP). Formalises R244. -/
def Obligations.ResumeWord : Prop :=
  (∀ (w : Nat) (e : Engine), mw w 52 49 = 5 → e.saved = none → trapOf e w = some (2, 0)) ∧
  (∀ (k w : Nat) (e y : Engine) (sv : Nat × Nat × Nat × Nat × Nat) (s : State), mfind s.prs.engines k = some e → w = wordAt s e.pc → e.cycles < 64 →
      e.saved = some sv → trapOf e w = none → predOk e w = true → mw w 52 49 = 5 → y = (slots e w s).1 → y.g.length = 16 →
      ∃ t x, exec (.microResume k) s = .next t ∧ mfind t.prs.engines k = some x ∧ x.saved = none ∧
        x.cursor = sv.2.1 ∧ x.depth = sv.2.2.1 ∧ greg x 14 = sv.2.2.2.1 % 2 ^ 32 ∧ greg x 15 = sv.2.2.2.2 % 2 ^ 32 ∧
        (∀ i, i < 14 → greg x i = greg y i) ∧ x.hv = y.hv ∧ x.fed = y.fed ∧ x.marks = y.marks ∧ x.marked = y.marked ∧
        x.pc = if mw w 48 45 = 0 then sv.1 else (sv.1 + 1) % 8192)

/-- R245: while a handler runs, a trap of any cause ends the parse with disposition EXCEPTION (1) and reason 0x81, and raises DOUBLE_TRAP (code 0x04 of PRS, with the entry point in DETAIL); a handler's END word ends the parse as any END does. noteCount 4 is the count DOUBLE_TRAP of PRS_STAT. Formalises R245. -/
def Obligations.DoubleTrap : Prop :=
  (∀ (k w cause sub : Nat) (e : Engine) (s : State), e.saved.isSome = true →
      takeTrap k e w cause sub s = endParse k { e with cycles := e.cycles + wordCycles w, traps := e.traps + 1 } 1 0x81
        (noteCount e.frame 4 (raise 0x6 0x04 e.entry .device s))) ∧
  (∀ (k w : Nat) (e : Engine) (sv : Nat × Nat × Nat × Nat × Nat) (s : State), mfind s.prs.engines k = some e → w = wordAt s e.pc → e.cycles < 64 →
      e.saved = some sv → trapOf e w = none → predOk e w = false → mw w 191 189 = 7 →
      exec (.microEnd k) s = .next (endParse k { e with cycles := e.cycles + wordCycles w } (mw w 184 181) (mw w 175 168) s))

/-- A measurement of an enabled slot is taken at once: θ as R32 gives it, a missed run of 0, one more measurement; a pulse inside the window is one of its slot, one outside it or a second one raises PPS_ERROR; a sentence that names the next second in time labels its pulse (R35); QUAL_TIME qualifies a slot, a missed interval counts and MISS_LIMIT of them lose it (R38, R39); a write of TIM_REF_CFG enables one (R65). A QUAL_TIME or MISS_LIMIT of 0 acts as 1, and a command that tells of a moment brings the clock to it: the model's choices (assumptions 3 and 127). Rests on R32, R33, R34, R35, R38, R39 and R65. -/
def Obligations.TimeReferences : Prop :=
  (∀ (slot : Nat) (m : PtpMeasurement) (s u : State), 1 ≤ slot → slot ≤ 0x10 → timeRuns s = true → (slotOf s slot).st ≠ .disabled → u = reselectIfDue s →
      (nowFrac s : Int) - m.t2 ≤ (100000000 * 0x10000 : Nat) → (slotOf u slot).st ≠ .disabled → u.tim.servo = .freerun ∨ u.tim.servo = .acquiring → u.tim.selected ≠ some slot →
      ∃ t, exec (.ptpMeasurement slot m) s = .next t ∧ (slotOf t slot).lastTheta = (ptpTheta s slot m).1 ∧ (slotOf t slot).missRun = 0 ∧
        (slotOf t slot).lastAccepted = u.elapsed ∧ t.tim.measCount = u.tim.measCount + 1) ∧
  (∀ (pin held : Nat) (rising : Bool) (s0 s : State), pin < 2 → timeRuns s0 = true → 100 ≤ held → (∀ t, (s0.tim.ppsIn.getD pin {}).changedAt = some t → t + 100 ≤ s0.elapsed) →
      s = modPpsIn pin (fun u => { u with changedAt := some s0.elapsed }) s0 → (slotOf s0 (0x11 + pin)).st ≠ .disabled → rising ≠ wbit (reg s0 .TIM_PPS_IN_CFG pin 0) 0 →
      ∀ edge sec : Nat, edge = ((nowFrac s0 : Int) + signed 32 (reg s0 .TIM_REF_CORRECTION (0x10 + pin) 0).toNat * 256).toNat →
      sec = (edge + 500000000 * 0x10000) / (1000000000 * 0x10000) →
      (((sec * 1000000000 * 0x10000 : Nat) - (edge : Int)).natAbs ≤ ppsWindow s → (s0.tim.ppsIn.getD pin {}).usedSecond ≠ some sec →
        exec (.ppsEdge pin ⟨rising, held⟩) s0 = .next (useEdge pin sec edge s)) ∧
      (ppsWindow s < ((sec * 1000000000 * 0x10000 : Nat) - (edge : Int)).natAbs ∨ (s0.tim.ppsIn.getD pin {}).usedSecond = some sec →
        exec (.ppsEdge pin ⟨rising, held⟩) s0 = .next (raise 0xD 0x0A 0 .device s))) ∧
  (∀ (pin sec edge : Nat) (s u : State), ppsNmea s pin = false → timeRuns s = true →
      u = reselectIfDue (modPpsIn pin (fun u => { u with usedSecond := some sec, edge := edge, edgeAt := some s.elapsed, nextLabel := none }) s) →
      (slotOf u (0x11 + pin)).st ≠ .disabled → u.tim.servo = .freerun ∨ u.tim.servo = .acquiring → u.tim.selected ≠ some (0x11 + pin) →
      (slotOf (useEdge pin sec edge s) (0x11 + pin)).lastTheta = ((sec * 1000000000 * 0x10000 : Nat) - (edge : Int)) ∧
        (slotOf (useEdge pin sec edge s) (0x11 + pin)).missRun = 0 ∧ (useEdge pin sec edge s).tim.measCount = u.tim.measCount + 1) ∧
  (∀ (n : Nmea) (pin at_ tai : Nat) (s : State), nmeaPin s = some pin → timeRuns s = true → n.rmc = decide (dfld s .TIM_TOD_CFG 25 25 = 1) → dfld s .TIM_TOD_CFG 26 26 = 0 →
      n.checksumOk = true → (n.rmc = true → n.statusA = true) →
      (s.tim.ppsIn.getD pin {}).edgeAt = some at_ → at_ + 10000000 ≤ s.elapsed → s.elapsed ≤ at_ + 950000000 → tai = ((nmeaUtc n : Int) + s.tim.utcOffset).toNat →
      ((∀ l, (s.tim.ppsIn.getD pin {}).lastLabel = some l → tai = l + 1) →
        (s.tim.servo = .locked ∨ s.tim.servo = .holdover → ((tai * 1000000000 * 0x10000 : Nat) - ((s.tim.ppsIn.getD pin {}).edge : Int)).natAbs ≤ ppsWindow s) →
        exec (.nmeaSentence n) s = .next (measure (0x11 + pin) ((tai * 1000000000 * 0x10000 : Nat) - ((s.tim.ppsIn.getD pin {}).edge : Int)) {}
          (modPpsIn pin (fun u => { u with lastLabel := some tai }) s))) ∧
      (∀ l, (s.tim.ppsIn.getD pin {}).lastLabel = some l → tai ≠ l + 1 →
        exec (.nmeaSentence n) s = .next (raise 0xD 0x0B 0 .device (modPpsIn pin (fun u => { u with lastLabel := some tai }) s)))) ∧
  (∀ (slot : Nat) (s : State), timeRuns s = true → (slotOf s slot).st = .qualifying →
      ppsMayQualify (advanceTo ((slotOf s slot).qualAt + max 1 (fld (slotCfg s slot) 23 16) * 1000000000) s) slot = true →
      exec (.refQualified slot) s =
        .next (reselect (modSlot slot (fun r => { r with st := .qualified, inconsistent := false })
          (advanceTo ((slotOf s slot).qualAt + max 1 (fld (slotCfg s slot) 23 16) * 1000000000) s)))) ∧
  (∀ (slot : Nat) (s : State), timeRuns s = true → (slotOf s slot).st = .qualifying ∨ (slotOf s slot).st = .qualified →
      (slotOf s slot).missRun + 1 < max 1 (fld (slotCfg s slot) 15 8) →
      ∃ t, exec (.missedInterval slot) s = .next t ∧ (slotOf t slot).missRun = (slotOf s slot).missRun + 1 ∧
        (slotOf t slot).st = (slotOf s slot).st ∧
        reg t .TIM_REF_MISSES (slot - 1) 0 = w32 (satAdd 0xFFFFFFFF (reg s .TIM_REF_MISSES (slot - 1) 0).toNat 1)) ∧
  (∀ (slot : Nat) (s : State), timeRuns s = true → (slotOf s slot).st = .qualifying ∨ (slotOf s slot).st = .qualified →
      max 1 (fld (slotCfg s slot) 15 8) ≤ (slotOf s slot).missRun + 1 →
      ∀ s0, s0 = advanceTo (ceilDiv ((slotOf s slot).expectAt + (slotOf s slot).interval) 0x10000) s →
      exec (.missedInterval slot) s = .next (loseSlot slot .lost (bump .TIM_REF_MISSES (slot - 1) 0 1
        (modSlot slot (fun r => { r with missRun := r.missRun + 1, expectAt := (slotOf s slot).expectAt + (slotOf s slot).interval }) s0)))) ∧
  (∀ (p : Path) (slot off : Nat) (v : Word) (s : State), 1 ≤ slot → slot ≤ 0x14 → regBar p .TIM_REF_CFG (slot - 1) = some off → actsAt p off s = true →
      mayWrite s (asPath p) .TIM_REF_CFG = true → wbit v 31 = true → (slotOf s slot).st = .disabled →
      exec (.timRefCfgWrite p slot v) s = .next (modSlot slot (fun _ => { st := .qualifying, qualAt := s.elapsed, expectAt := s.elapsed * 0x10000, interval := (if isAkz slot then 64000000000 else 65536000000000) })
        (setReg .TIM_REF_CFG (slot - 1) 0 (applyWrite .TIM_REF_CFG (slotCfg s slot) (if isPps slot then v else setFld v 0 0 0)) s)))

/-- A manual commit steps the time and enters HOLDOVER, or is refused in LOCKED (R37); REACQUIRE goes to ACQUIRING (R43); the bound is recomputed once the value in force has run out (R47); a bound alarm below the bound is crossed at once (R477); the oscillator stops and returns (R53); a periodic trace record is appended (R62); a snapshot takes time and bound (R65). A command that tells of a moment brings the clock to it, and a TRACE_PERIOD of 0 acts as 1: the model's choices (assumptions 3 and 124). Rests on R37, R43, R47, R53, R62, R65 and R477. -/
def Obligations.TimeServoAndBound : Prop :=
  (∀ (p : Path) (off : Nat) (s : State), regBar p .TIM_MANUAL_COMMIT 0 = some off → actsAt p off s = true → mayWrite s (asPath p) .TIM_MANUAL_COMMIT = true →
      timeRuns s = true → s.tim.servo ≠ .locked →
      exec (.manualCommit p) s = .next (enterHoldover (some ((reg s .TIM_MANUAL_BOUND 0 0).toNat * nsUnits))
        (modTim (fun u => { u with refId := 0x15 }) (stepTime (pair64 s .TIM_MANUAL_TIME_LO .TIM_MANUAL_TIME_HI 0 0 * 2 ^ 48) s)))) ∧
  (∀ (p : Path) (off : Nat) (s : State), regBar p .TIM_MANUAL_COMMIT 0 = some off → actsAt p off s = true → mayWrite s (asPath p) .TIM_MANUAL_COMMIT = true →
      timeRuns s = true → s.tim.servo = .locked →
      exec (.manualCommit p) s = .next (hwSet .TIM_STATUS 0 0 6 s)) ∧
  (∀ (p : Path) (off : Nat) (s : State), regBar p .TIM_CTRL 0 = some off → actsAt p off s = true → mayWrite s (asPath p) .TIM_CTRL = true →
      s.tim.servo = .locked ∨ s.tim.servo = .holdover →
      exec (.reacquire p) s = .next (setServo .acquiring (modTim (fun t => { t with lockRun := 0, reacquired := true }) s))) ∧
  (∀ (s s1 : State), timeRuns s = true → s1 = reselectIfDue (advanceTo (s.tim.bGrowAt + 256) s) →
      ∃ t, exec .boundRecompute s = .next t ∧ t.tim.bound = modelNext (growNow s1) ∧ t.elapsed = max s.elapsed (s.tim.bGrowAt + 256)) ∧
  (∀ (p : Path) (off : Nat) (v : Word) (s : State), regBar p .TIM_BOUND_ALARM 0 = some off → actsAt p off s = true → mayWrite s (asPath p) .TIM_BOUND_ALARM = true →
      aboveAlarm v.toNat (boundNow s) = false →
      exec (.boundAlarmWrite p v) s = .next (setReg .TIM_BOUND_ALARM 0 0 v s)) ∧
  (∀ (p : Path) (off : Nat) (v : Word) (s : State), regBar p .TIM_BOUND_ALARM 0 = some off → actsAt p off s = true → mayWrite s (asPath p) .TIM_BOUND_ALARM = true →
      aboveAlarm v.toNat (boundNow s) = true →
      exec (.boundAlarmWrite p v) s = .next (settlePins (raise 0xD 0x06 0 .device (hwSet .TIM_STATUS 0 0 1 (setReg .TIM_BOUND_ALARM 0 0 v s))))) ∧
  (∀ s : State, s.tim.tosc = true → s.cai.sysclk = true → s.tim.servo ≠ .locked →
      ∀ u, u = raise 0xD 0x07 0 .device (modTim (fun t => { t with tosc := false, oscFault := true }) (growNow s)) →
      exec .oscFault s = .next (trace 2 (setBound (modelNext u) (modTim (fun t => { t with lockRun := 0 }) u)))) ∧
  (∀ s : State, s.tim.tosc = true → s.cai.sysclk = false → ∃ t, exec .oscFault s = .next t ∧ t.tim.lost = true ∧ t.tim.bound = none ∧ t.tim.t48 = 0 ∧ t.tim.oscFault = true) ∧
  (∀ s : State, s.tim.tosc = true → s.cai.sysclk = true → s.tim.servo = .locked →
      exec .oscFault s = .next (trace 2 (enterHoldover (modelNow s)
        (raise 0xD 0x07 0 .device (modTim (fun t => { t with tosc := false, oscFault := true }) (growNow s)))))) ∧
  (∀ s u : State, s.tim.tosc = false → bits s.cai.straps.toNat 1 0 ≠ 3 → u = modTim (fun t => { t with tosc := true, oscFault := false, lockRun := 0 }) (growNow s) →
      exec .oscReturn s = .next (if s.tim.lost then resumeTime u else trace 2 (setBound (modelNext u) u))) ∧
  (∀ s s1 : State, timeRuns s = true → s1 = advanceTo (s.tim.periodicAt + max 1 (dfld s .TIM_TRACE_CFG 15 0) * 1000000000) s →
      exec .tracePeriodic s = .next (trace 1 (modTim (fun t => { t with periodicAt := s1.elapsed }) s1))) ∧
  (∀ (p : Path) (off : Nat) (s : State), regBar p .TIM_SNAP 0 = some off → actsAt p off s = true → mayWrite s (asPath p) .TIM_SNAP = true →
     
      ∃ t, exec (.timSnap p) s = .next t ∧ reg t .TIM_SNAP_BOUND 0 (pathCode (asPath p)) = w32 (bound32 s) ∧
        reg t .TIM_SNAP_NS 0 (pathCode (asPath p)) = w32 (nowFrac s / 0x10000 % 1000000000) ∧
        reg t .TIM_SNAP_SEC_LO 0 (pathCode (asPath p)) = w32 (nowFrac s / 0x10000 / 1000000000))

/-- A write of TIM_UTC sets UTC_OFFSET where it is the source (R50); TIM_LEAP_AT moves a leap that TIM_UTC announced and nothing else, and the leap tick applies it (R51); a PPS output rises at the next boundary and falls after WIDTH (R59); the ZDA sentence of the second that a pulse started leaves 1 ms after it (R61); a time page is written by three posted writes, its sequence even after them (R56, R57). A command that tells of a moment brings the clock to it: the model's choice (assumption 3). Rests on R50, R51, R56, R57, R59 and R61. -/
def Obligations.TimeUtcAndOutputs : Prop :=
  (∀ (p : Path) (off : Nat) (v : Word) (s : State), regBar p .TIM_UTC 0 = some off → actsAt p off s = true → mayWrite s (asPath p) .TIM_UTC = true → utcFromRegister s = true → wbit v 16 = true → wbit v 17 = false →
      wbit v 18 = false → s.tim.leap = none → s.tim.utcValid = true → s.tim.utcOffset ≠ signed 16 (fld v 15 0) →
      exec (.timUtcWrite p v) s = .next (forcePages false (trace 2 (raise 0xD 0x08 0 .device
        (modTim (fun t => { t with utcOffset := signed 16 (fld v 15 0), utcValid := true })
          (setReg .TIM_UTC 0 0 (applyWrite .TIM_UTC (reg s .TIM_UTC 0 0) v) s)))))) ∧
  (∀ (p : Path) (off : Nat) (high : Bool) (v : Word) (s : State), regBar p (if high then .TIM_LEAP_AT_HI else .TIM_LEAP_AT_LO) 0 = some off → actsAt p off s = true →
      (∀ l : Leap, s.tim.leap = some l → mayWrite s (asPath p) .TIM_LEAP_AT_LO = true → l.src = .utcRegister →
        exec (.leapAtWrite p high v) s = .next (setLeap (some { l with at_ := (if high then l.at_ % 2 ^ 32 + 2 ^ 32 * v.toNat else l.at_ / 2 ^ 32 * 2 ^ 32 + v.toNat) }) s)) ∧
      (s.tim.leap = none ∨ (∃ l, s.tim.leap = some l ∧ l.src ≠ .utcRegister) → exec (.leapAtWrite p high v) s = .next s)) ∧
  (∀ (s u : State) (l : Leap), s.tim.leap = some l → u = setLeap none (modTim (fun t => { t with utcOffset := l.offset }) (advanceTai l.at_ s)) →
      exec .leapApplied s = .next (forcePages false (trace 2 (raise 0xD 0x08 0 .device (if l.src = .utcRegister then
        setReg .TIM_UTC 0 0 (setFld (setFld (reg s .TIM_UTC 0 0) 15 0 (unsigned 16 l.offset)) 18 17 0) u else u))))) ∧
  (∀ (pin : Nat) (s : State), pin < 2 → timeRuns s = true → wbit (reg s .TIM_PPS_OUT_CFG pin 0) 31 = true →
      squelched s (reg s .TIM_PPS_OUT_CFG pin 0) = false → (s.tim.ppsOut.getD pin {}).high = false →
      ∀ (per passed : Int) (u : State), per = (ppsPeriod (reg s .TIM_PPS_OUT_CFG pin 0) : Int) → passed = ((now s : Int) - ppsOffset s pin) / per →
      passed * per + ppsOffset s pin ≤ ((s.tim.ppsOut.getD pin {}).judged : Int) →
      u = advanceTai ((passed + 1) * per + ppsOffset s pin).toNat s → squelched u (reg s .TIM_PPS_OUT_CFG pin 0) = false →
      ∃ t, exec (.ppsOutEdge pin) s = .next t ∧ t.out = .pin (.ppsOut pin) .high :: s.out ∧ t.elapsed = u.elapsed ∧ t.regs = s.regs) ∧
  (∀ (pin : Nat) (s : State), timeRuns s = true → (s.tim.ppsOut.getD pin {}).high = true →
      ∃ t, exec (.ppsOutFall pin) s = .next t ∧ t.out = .pin (.ppsOut pin) .low :: s.out ∧
        t.elapsed = max s.elapsed (s.tim.ppsOut.getD pin {}).fallAt) ∧
  (∀ (s : State) (at_ y mo d sod : Nat), timeRuns s = true → (s.tim.ppsOut.getD 0 {}).sentenceAt = some at_ → dfld s .TIM_TOD_CFG 24 24 = 1 →
      utcOf s (s.tim.ppsOut.getD 0 {}).second = (y, mo, d, sod) →
      ∃ t, exec .todTxSentence s = .next t ∧ t.out = .serial (todBaud s) ((nmeaText (zdaBody y mo d sod)).flatMap charBits) :: s.out ∧
        t.elapsed = max s.elapsed at_ ∧ (t.tim.ppsOut.getD 0 {}).sentenceAt = none) ∧
  (∀ (f : Fn) (s : State), timeRuns s = true → (mget ({} : PageSt) s.tim.pages (fnCode f)).forced = true → (pageAddr s f).1 = true → fnExists s f = true →
      busMaster s f = true → linkUp s f = true → (fnSt s f).silent = false → (fnSt s f).mig.st = .running →
      ∀ q : Nat, q = (mget ({} : PageSt) s.tim.pages (fnCode f)).seq →
      ∃ t, exec (.timePageWrite f) s = .next t ∧ t.elapsed = s.elapsed ∧
        (mget ({} : PageSt) t.tim.pages (fnCode f)) =
          { seq := (q + 2) % 2 ^ 32, lastWrite := s.elapsed, anchor := now s, line := (boundNow s).map (fun _ => (bound32 s, boundRate s)) })

/-- What the commands of the rails and of PORST_N make of the state. Rests on R29, R72, R73, R74, R83, R86, R94, R95 and R475. -/
def Obligations.RailsAndResetPins : Prop :=
  (∀ s : State, s.cai.mode = .off →
      ∃ t, exec .aonRailUp s = .next t ∧ t.cai.mode = .held ∧ t.cai.stageA = true ∧ t.cai.porstLow = true ∧ t.cai.porstSince = s.elapsed) ∧
  (∀ s : State, ∃ t, exec .aonRailLoss s = .next t ∧ t.cai.mode = .off ∧ t.cai.stageA = false ∧ t.tim.lost = true ∧ t.tim.bound = none ∧ t.pending = s.pending) ∧
  (∀ s : State, s.cai.mode ≠ .off →
      ∃ t, exec .porstAssert s = .next t ∧ t.cai.mode = .held ∧ t.cai.porstLow = true ∧ t.cai.porstSince = s.elapsed ∧
        ∀ p ∈ digitalOutputs, .pin p .z ∈ t.out) ∧
  (∀ (straps : BitVec 8) (s : State), s.cai.mode = .held → s.cai.porstLow = true → s.cai.sysclk = true →
      ∃ t, exec (.porstDeassert straps) s = .next t ∧ t.cai.mode = .standby ∧ t.cai.prevMode = .held ∧ t.cai.straps = straps ∧ t.cai.wakePending = true ∧
        t.cai.porstLow = false ∧ t.tim.servo = .freerun ∧ t.tim.bound = none) ∧
  (∀ (rail : Rail) (s s1 : State), (s.cai.rails.getD (railNo rail) {}).good = false →
      s1 = modRail rail (fun r => { r with inRange := true, good := true, below10 := false })
        (if (s.cai.rails.getD (railNo rail) {}).inRange then advanceTo ((s.cai.rails.getD (railNo rail) {}).since + 1000000) s else s) →
      railsGood s1 = false ∨ cairnRuns s1 = false → exec (.railGood rail) s = .next s1) ∧
  (∀ (rail : Rail) (below10 : Bool) (s : State), s.cai.mode ∈ [.bringup, .service, .spared, .pause, .drain, .isolated, .recovery] →
      ∃ t, exec (.railFault ⟨rail, below10⟩) s = .next t ∧ t.cai.railFault = true ∧ t.cai.wakePending = false ∧ t.cai.wakeCause = 1 ∧ t.cai.mode = .standby) ∧
  (∀ (rail : Rail) (s : State), 3 ≤ railNo rail → (s.cai.rails.take 3).all (fun r => r.inRange) = false → cairnRuns s = true →
      ∃ t, exec (.railOrder rail) s = .next t ∧ t.cai.orderFault = true ∧ t.cai.wakePending = false ∧ t.cai.wakeCause = 3) ∧
  (∀ (sensor : Nat) (v : Int) (s : State), cairnRuns s = true → s.cai.warnArmed = true →
      warnAt s ≤ (hottest (modCai (fun c => { c with temps := c.temps.set sensor v }) s)).1 →
      ∃ t, exec (.thermalWarn sensor v) s = .next t ∧ t.cai.warnArmed = false ∧ t.cai.temps = s.cai.temps.set sensor v ∧
        reg t .CAI_FAULT 0 0 = reg s .CAI_FAULT 0 0 ||| w32 (2 ^ 10)) ∧
  (∀ (sensor : Nat) (v : Int) (s : State), cairnRuns s = true →
      (hottest (modCai (fun c => { c with temps := c.temps.set sensor v }) s)).1 ≤ warnAt s - 12 →
      exec (.thermalWarnRearm sensor v) s = .next (modCai (fun c => { c with temps := s.cai.temps.set sensor v, warnArmed := true }) s)) ∧
  (∀ (sensor : Nat) (v : Int) (s : State), cairnRuns s = true → sensor < 16 → tripAt s ≤ v → s.cai.tripped = false →
      ∃ t, exec (.thermalTrip sensor v) s = .next t ∧ t.cai.tripped = true ∧ t.cai.wakePending = false ∧ t.cai.wakeCause = 2) ∧
  (∀ (readings : List Int) (s s1 : State), cairnRuns s = true → s.cai.tripped = true →
      s1 = foldS (fun (e : Int × Nat) s => takeReading e.2 e.1 s) (readings.take 16).zipIdx s →
      s1.cai.temps.all (fun t => decide (t ≤ tripAt s - 40)) = true →
      exec (.thermalRecover readings) s = .next (setWake 2 (modCai (fun c => { c with tripped := false, railFault := true }) s1)))

/-- What the commands of the clocks, the wake sources, MCTP and the TAP make of the state. Rests on R29, R76, R77, R81, R84, R89 and R107. -/
def Obligations.ClocksAndWakes : Prop :=
  (∀ s : State, s.cai.sysclk = true → cairnRuns s = true → s.tim.tosc = true →
      exec .sysclkFault s = .next (hwSet .CAI_FAULT 0 0 13 (modCai (fun c => { c with sysclk := false }) s))) ∧
  (∀ s : State, s.cai.sysclk = true → cairnRuns s = true → s.tim.tosc = false →
      exec .sysclkFault s = .next (discardTime (modCai (fun c => { c with sysclk := false }) s))) ∧
  (∀ s : State, ∃ t, exec .sysclkReturn s = .next t ∧ t.cai = { s.cai with sysclk := true } ∧
      (s.tim.lost = false → t.tim = s.tim) ∧
      (s.tim.lost = true → s.cai.mode ≠ .off → s.cai.porstLow = false → s.cai.fatalRestartAt = none →
        t.tim.servo = .freerun ∧ t.tim.bound = none ∧ t.tim.lost = false)) ∧
  (∀ (half : Nat) (s : State), halfInUse s half = false ∨ 2 ≤ half ∨ cairnRuns s = false →
      exec (.pcieRefclkLoss half) s = .next (modCai (fun c => { c with pcieRef := c.pcieRef.set half none }) s)) ∧
  (∀ (half : Nat) (s : State), halfInUse s half = true → half < 2 → cairnRuns s = true → (halfSt s half).up = true →
      exec (.pcieRefclkLoss half) s = .next (tryFinish (modeAfterLinks (startTraining half
        (halfDown half (modCai (fun c => { c with pcieRef := c.pcieRef.set half none }) s)))))) ∧
  (∀ (half : Nat) (s : State), half < 2 →
      exec (.pcieRefclkReturn half) s = .next (startTraining half (modCai (fun c => { c with pcieRef := c.pcieRef.set half (some s.elapsed) }) s))) ∧
  (∀ (body : Bytes) (s : State), cairnRuns s = true →
      ∃ t, exec (.mctpMessage body) s = .next t ∧ t.out.head? = some (.mctp 0 (Config.pldmAnswer body (sensors s))) ∧
        (s.cai.mode = .standby → t.cai.wakePending = true ∧ t.cai.wakeCause = 6) ∧ t.cai.mode = s.cai.mode) ∧
  (∀ s : State, pair64 s .CAI_WAKE_AT_LO .CAI_WAKE_AT_HI 0 0 ≠ 0 → s.cai.mode = .standby →
      ∃ t, exec .wakeAtReached s = .next t ∧ reg t .CAI_WAKE_AT_LO 0 0 = 0 ∧ reg t .CAI_WAKE_AT_HI 0 0 = 0 ∧
        t.cai.wakePending = true ∧ t.cai.wakeCause = 6) ∧
  (∀ (data : Nat) (s : State), cairnRuns s = true →
      ∃ t, exec (.tapInstruction .idcode data) s = .next t ∧ t.out = .tap 0x132164E5 :: s.out ∧ t.cai.tap.dataOut = 0x132164E5) ∧
  (∀ (c data : Nat) (s : State), cairnRuns s = true → (∀ p : Nat, p < 4 → debugGrants s p = false) →
      ∃ t, exec (.tapInstruction (.priv c) data) s = .next t ∧ t.out = .tap (data % 2) :: s.out)

/-- What the commands of boot, readiness, PERSTn_N and the PCIe links make of the state. Rests on R83, R84, R94, R95, R98, R100, R102 and R119. -/
def Obligations.BootAndReadiness : Prop :=
  (∀ (boot : BootInput) (s : State), s.cai.mode = .standby → s.cai.wakePending = true → railsGood s = true → s.cai.orderFault = false →
      s.cai.tripped = false → s.cai.railFault = false → s.cai.fatal = false → s.cai.fatalRestartAt = none →
      exec (.bringupStart boot) s = .next (bootSteps boot (setMode .bringup (modCai (fun c => { c with
        wakePending := false, wakeSource := false, wakeCause := 0, resetCause := c.wakeCause, railFault := false, fatal := false,
        bringup := some { started := s.elapsed, warm := !s.dev.isEmpty } }) (restartReset s))))) ∧
  (∀ (boot : BootInput) (s : State) (b : Bringup), s.cai.mode = .bringup → s.cai.bringup = some b → b.booted = false →
      exec (.bringupStart boot) s = .next (bootSteps boot (modCai (fun c => { c with bringup := some { b with booted := true } }) s))) ∧
  (∀ (s : State) (b : Bringup) (at_ : Nat), s.cai.bringup = some b → b.waitUntil = some at_ →
      exec .bootWaitExpiry s = .next (bootBanks (bootFallback 2
        (modCai (fun c => { c with bringup := some { b with waitUntil := none } }) (advanceTo at_ s))))) ∧
  (∀ (unit : Nat) (s : State), firmwareUp s = true → s.cai.ready.contains unit = false →
      exec (.unitReady unit) s = .next (tryFinish (modCai (fun c => { c with ready := c.ready ++ [unit] }) s))) ∧
  (∀ (i why : Nat) (s : State), (fnSt s (.pf i)).readyWhy = some why → why ≠ 3 → isPf0 s i = true → fnExists s (.pf i) = true →
      linkUp s (.pf i) = true → firmwareUp s = true → s.cai.mode = .service →
      ∃ t, exec (.functionReady (.pf i)) s = .next t ∧ (fnSt t (.pf i)).ready = true ∧ (fnSt t (.pf i)).readyWhy = none ∧
        t.out = .drs (.pf i) :: s.out) ∧
  (∀ (half : Nat) (s : State), halfInUse s half = true → half < 2 → s.cai.mode ≠ .off → s.cai.porstLow = false →
      exec (.perstAssert half) s = .next (tryFinish (modeAfterLinks (startTraining half (halfDown half
        (modCai (fun c => { c with perstHigh := c.perstHigh.set half false }) s)))))) ∧
  (∀ (half : Nat) (s : State), halfInUse s half = true → half < 2 → s.cai.mode ≠ .off → s.cai.porstLow = false → railsGood s = true →
      s.cai.perstHigh.getD half false = false →
      exec (.perstDeassert half) s = .next (leaveHold (startTraining half (setWake 6
        (modCai (fun c => { c with perstHigh := c.perstHigh.set half true }) s))))) ∧
  (∀ (half rate width : Nat) (flit : Bool) (s : State), linkSupported s rate width flit = true → mayTrain s half = true → (halfSt s half).up = false →
      half < s.hif.halves.length →
      ∃ t, exec (.pcieLinkUp half rate width flit) s = .next t ∧
        halfSt t half = { up := true, rate := rate, width := width, flit := flit, training := false }) ∧
  (∀ (half rate width : Nat) (flit : Bool) (s : State), linkSupported s rate width flit = true → (halfSt s half).up = true → halfInUse s half = true →
      flit = (halfSt s half).flit → rate ≠ (halfSt s half).rate ∨ width ≠ (halfSt s half).width → half < s.hif.halves.length →
      ∃ t, exec (.pcieLinkUp half rate width flit) s = .next t ∧ halfSt t half = { halfSt s half with rate := rate, width := width }) ∧
  (∀ (half : Nat) (s : State), (halfSt s half).up = true →
      exec (.hotReset half) s = .next (tryFinish (modeAfterLinks (startTraining half (halfDown half s)))) ∧
      exec (.linkDisable half) s = .next (tryFinish (modeAfterLinks (startTraining half (halfDown half s)))) ∧
      exec (.pcieLinkFailure half) s = .next (tryFinish (modeAfterLinks (startTraining half (halfDown half s)))))

/-- What the writes of CAI_MODE_REQ and the end of a drain make of the mode. Rests on R95, R96, R97 and R105. -/
def Obligations.ModeRequests : Prop :=
  (∀ (p : Path) (off : Nat) (s : State), regBar p .CAI_MODE_REQ 0 = some off → actsAt p off s = true → mayRequest s (asPath p) = true → s.cai.mode = .service ∨ s.cai.mode = .spared →
      ∃ t u, exec (.drain p) s = .next t ∧ t.cai.mode = .drain ∧ t.cai.drain = some { entered := s.elapsed, standby := false } ∧
        exec (.drainStandby p) s = .next u ∧ u.cai.mode = .drain ∧ u.cai.drain = some { entered := s.elapsed, standby := true }) ∧
  (∀ (p : Path) (off : Nat) (s : State), regBar p .CAI_MODE_REQ 0 = some off → actsAt p off s = true → mayRequest s (asPath p) = true → s.cai.mode = .test →
      exec (.drain p) s = .next (hwSet .CAI_MODE 0 0 13 s) ∧ exec (.drainStandby p) s = .next (hwSet .CAI_MODE 0 0 13 s) ∧
      exec (.cancel p) s = .next (hwSet .CAI_MODE 0 0 13 s) ∧ exec (.restartRequest p) s = .next (hwSet .CAI_MODE 0 0 13 s)) ∧
  (∀ (p : Path) (off : Nat) (s : State), regBar p .CAI_MODE_REQ 0 = some off → actsAt p off s = true → mayRequest s (asPath p) = true → s.cai.mode = .drain →
      ∃ t, exec (.cancel p) s = .next t ∧ t.cai.mode = serviceMode s ∧ t.cai.drain = none) ∧
  (∀ (p : Path) (off : Nat) (s : State), regBar p .CAI_MODE_REQ 0 = some off → actsAt p off s = true → mayRequest s (asPath p) = true → s.cai.mode = .service ∨ s.cai.mode = .spared ∨ s.cai.mode = .isolated →
      exec (.restartRequest p) s = .next (modCai (fun c => { c with resetCause := 5, bringup := some { started := s.elapsed, booted := false } })
        (setMode .bringup (restartReset (stopFast s))))) ∧
  (∀ (s : State) (d : DrainSt), s.cai.drain = some d → s.cai.mode = .drain →
      exec .drainLimitExpiry s = .next (drainFlush (advanceTo (d.entered + max 1 (dfld s .CAI_MODE_CFG 31 16) * 1000000) s))) ∧
  (∀ (s : State) (d : DrainSt), s.cai.drain = some d → s.cai.mode = .drain → fetchedWork s = false → d.standby = true →
      exec .drainFinished s = .next (modRel (fun r => { r with stoppedInOrder := true }) (setMode .standby (stopFast s))))

/-- What clearing Bus Master Enable, an FLR, VF Enable, a PowerState write and an MSI-X change make of the state. Rests on R100, R122, R130, R140, R141, R142 and R176. -/
def Obligations.FunctionLife : Prop :=
  (∀ (i : Nat) (s : State), wbit (cfgGet s (.pf i) 1) 2 = true →
      exec (.busMasterDisable (.pf i)) s = .next (raise 0x2 0x07 (fnCode (.pf i)) (.function (.pf i))
        (silence (.pf i) (cfgSet (.pf i) 1 (setFld (cfgGet s (.pf i) 1) 2 2 0) s)))) ∧
  (∀ (p n : Nat) (s : State), wbit (cfgGet s (.vf p n) 1) 2 = true →
      exec (.busMasterDisable (.vf p n)) s = .next (raise 0x2 0x07 (fnCode (.vf p n)) (.function (.pf p))
        (silence (.vf p n) (tdiError (.vf p n) (cfgSet (.vf p n) 1 (setFld (cfgGet s (.vf p n) 1) 2 2 0) s))))) ∧
  (∀ (f : Fn) (s : State), outstanding s f = 0 →
      exec (.quiesceDone f) s = .next (modFn f (fun r => { r with awaitQuiesce := false }) s)) ∧
  (∀ (p n : Nat) (s : State), (fnSt s (.vf p n)).flrAt = none →
      ∃ t, exec (.initiateFlr (.vf p n)) s = .next t ∧ (fnSt t (.vf p n)).flrAt = some s.elapsed ∧ (fnSt t (.vf p n)).ready = false) ∧
  (∀ (p n : Nat) (s : State), (fnSt s (.vf p n)).flrAt.isSome = true → s.cai.mode ≠ .pause →
      ∃ t, exec (.flrDone (.vf p n)) s = .next t ∧ (fnSt t (.vf p n)).ready = true ∧ (fnSt t (.vf p n)).flrAt = none ∧
        (fnSt t (.vf p n)).silent = ((fnSt t (.vf p n)).tdi.st == .error) ∧ t.out.head? = some (.frs (.vf p n) frsFlr)) ∧
  (∀ (i : Nat) (s : State), (fnSt s (.pf i)).flrAt.isSome = true → s.cai.mode ≠ .pause →
      ∃ t, exec (.flrDone (.pf i)) s = .next t ∧ (fnSt t (.pf i)).ready = true ∧ (fnSt t (.pf i)).flrAt = none ∧
        (fnSt t (.pf i)).silent = ((fnSt t (.pf i)).tdi.st == .error) ∧ t.out.head? = some (.frs (.pf i) frsFlr)) ∧
  (∀ (pf : Nat) (s : State), vfEnabled s pf = false → ariCapable s pf = true → pfEnabled s pf = true → s.cai.mode = .service ∨ s.cai.mode = .spared →
      exec (.vfEnable pf) s = .next (emit (.frs (.pf pf) frsVfEnabled)
        (foldS (fun k u => modFn (.vf pf k) (fun r => { r with enabled := true, ready := true }) u)
          (List.range (min (fld (cfgGet s (.pf pf) (0x180 / 4)) 15 0) (totalVfs s pf)))
          (cfgSet (.pf pf) (0x178 / 4) (setFld (cfgGet s (.pf pf) (0x178 / 4)) 0 0 1) s)))) ∧
  (∀ (pf : Nat) (s : State), vfEnabled s pf = true →
      ∀ s1, s1 = cfgSet (.pf pf) (0x178 / 4) (setFld (cfgGet s (.pf pf) (0x178 / 4)) 0 0 0) s →
      exec (.vfDisable pf) s = .next (emit (.frs (.pf pf) frsVfDisabled)
        (foldS (fun f u => modFn f (fun r => { r with enabled := false, ready := false, silent := r.tdi.st == .error }) (resetFunction true f (tdiError f u)))
          (vfsOf s pf) s1))) ∧
  (∀ (f : Fn) (s : State), exec (.powerStateChange f 3) s = .next (cfgSet f (0x44 / 4) 3 s) ∧
      exec (.powerStateChange f 1) s = .next s ∧ exec (.powerStateChange f 2) s = .next s ∧
      (fld (cfgGet s f (0x44 / 4)) 1 0 = 3 → exec (.powerStateChange f 0) s = .next
        (modFn f (fun r => { r with ready := false, readyWhy := some 3 }) (cfgSet f (0x44 / 4) 0 s)))) ∧
  (∀ (f : Fn) (enable mask : Bool) (s : State), exec (.msixUnmask f (.control enable mask)) s =
      .next (flushPba f (cfgSet f (0xA0 / 4) (w32 (at_ 31 (b2n enable) + at_ 30 (b2n mask))) s))) ∧
  (∀ (f : Fn) (n off : Nat) (v : Word) (s s1 : State), f ≠ .fw → off = msixBar f n 3 → n < (if isVf f then 1024 else 2048) → n < vectorsOf s f →
      pathOpen s (.fn f) = true → accessWaits s (.fn f) off = false → blockDead s (.fn f) (accessBlk s (.fn f) off) = false → s1 = atWork (.fn f) off s →
      vectorsOf s1 f = vectorsOf s f →
      exec (.msixUnmask f (.entry n 3 v)) s = .next (flushPba f (modFn f (fun r => { r with msix := mset (2 ^ 96) r.msix n (msixEntry s1 f n / 2 ^ 128 * 2 ^ 128 + at_ 96 (v.toNat % 2) + msixEntry s1 f n % 2 ^ 96) }) s1)))

/-- What configuration accesses, tags, completions, translations, page requests, PTM and DOE Abort make of the state. Rests on R54, R117, R124, R131, R134, R135, R143, R144, R146, R147 and R148. -/
def Obligations.ConfigAndRequests : Prop :=
  (∀ (f : Fn) (off : Nat) (s : State), configAnswers s f = some true →
      exec (.configRead f off) s = .next (emit (.configData f off (some (cfgRead s f off))) s)) ∧
  (∀ (f : Fn) (off : Nat) (v : Word) (s : State), (configAnswers s f = none →
        exec (.configRead f off) s = .next (configRejected f s) ∧ exec (.configWrite f off v) s = .next (configRejected f s) ∧
        (configRejected f s).out.head? = some (.unsupported f)) ∧
      (configAnswers s f = some false →
        exec (.configRead f off) s = .next (emit (.configData f off none) s) ∧ exec (.configWrite f off v) s = .next (emit (.configData f off none) s))) ∧
  (∀ (i off : Nat) (v : Word) (s : State), configAnswers s (.pf i) = some true → cfgDword (.pf i) off = 0x180 / 4 → vfEnabled s i = false →
      exec (.configWrite (.pf i) off v) s = .next (cfgSet (.pf i) (0x180 / 4) (w32 (min (fld v 15 0) (totalVfs s i))) s)) ∧
  (∀ (f : Fn) (off : Nat) (v old w : Word) (s : State), configAnswers s f = some true → cfgDword f off = 0x58 / 4 → wbit v 15 = false →
      old = cfgGet s f (0x58 / 4) → w = cfgWritable s f (0x58 / 4) →
      exec (.configWrite f off v) s = .next (cfgSet f (0x58 / 4) (((old &&& ~~~ w) ||| (v &&& w)) &&& ~~~ (v &&& cfgW1c f (0x58 / 4))) s)) ∧
  (∀ (which : Option Fn) (s s1 : State) (r : Req) (x : Slot) (t : Tlp) (slot : Nat),
      s.hif.waiting.find? (grantable s which) = some r → r.use = .other → tlpFor s r.fn r.addr false = some t → takeSlot r s = some (slot, x, s1) →
      exec (.tagSlotGrant which) s = .next (emit (.hostRead r.fn x.tag r.addr r.len { t with translated := false })
        (modHif (fun h => { h with waiting := dropFirst (· == r) h.waiting, slots := mput h.slots slot x }) s1)) ∧
      x.req = r ∧ x.issued = s.elapsed ∧ x.timeout = timeoutOf s r.fn ∧ x.stream = t.stream) ∧
  (∀ (which : Option Fn) (s s1 : State) (r : Req) (x : Slot) (t : Tlp) (slot q c i : Nat),
      s.hif.waiting.find? (grantable s which) = some r → r.use = .work q c i → tlpFor s r.fn r.addr false = some t → takeSlot r s = some (slot, x, s1) →
      ∀ a : Nat × Bool, a = translatedAddr s r.fn (qPasid (queue s r.fn q)) r.addr →
      exec (.tagSlotGrant which) s = .next (emit (.hostRead r.fn x.tag a.1 r.len { t with translated := a.2 })
        (modHif (fun h => { h with waiting := dropFirst (· == r) h.waiting, slots := mput h.slots slot x }) s1))) ∧
  (∀ (f : Fn) (tag n : Nat) (x : Slot) (bs : Bytes) (s : State),
      s.hif.slots.find? (fun e => e.2.req.fn == f && e.2.tag == tag && e.2.st != .quarantined) = some (n, x) → x.st = .outstanding →
      exec (.hostCompletion f tag (.data bs) true) s = .next (deliver x.req (.data (x.got ++ bs)) (setSlot n none s)) ∧
      exec (.hostCompletion f tag (.data bs) false) s = .next (setSlot n (some { x with got := x.got ++ bs }) s)) ∧
  (∀ (f : Fn) (tag : Nat) (status : HostRead) (last : Bool) (s : State),
      s.hif.slots.find? (fun e => e.2.req.fn == f && e.2.tag == tag && e.2.st != .quarantined) = none →
      exec (.hostCompletion f tag status last) s = .next (raise 0x2 0x05 (fnCode f) (.function (.pf (fnPf f)))
        (bump .HIF_UNEXP_CPL 0 (fnCode (.pf (fnPf f))) 1 (aerLog f 16 true s)))) ∧
  (∀ (slot : Nat) (x : Slot) (s s1 : State), mfind s.hif.slots slot = some x → x.st = .outstanding → s1 = advanceTo (x.issued + x.timeout) s →
      exec (.completionTimeout slot) s = .next (raise 0x2 0x04 (fnCode x.req.fn) (.function (.pf (fnPf x.req.fn)))
        (bump .HIF_CTO_COUNT 0 (fnCode (.pf (fnPf x.req.fn))) 1 (aerLog x.req.fn 14 true (deliver x.req .timeout
          (setSlot slot (some { x with st := .quarantined, quarantineEnd := s1.elapsed + 2 * x.timeout, got := [] }) s1)))))) ∧
  (∀ (slot : Nat) (x : Slot) (s : State), mfind s.hif.slots slot = some x → x.st = .quarantined →
      ∃ t, exec (.quarantineEnd slot) s = .next t ∧ mfind t.hif.slots slot = none ∧ t.elapsed = max s.elapsed x.quarantineEnd) ∧
  (∀ (f : Fn) (s : State), exec (.poisonedPostedWrite f) s = .next (aerLog f 12 false s)) ∧
  (∀ (f : Fn) (pasid : Option Nat) (page count : Nat) (s : State), ∃ t, exec (.atsInvalidation f pasid page count) s = .next t ∧
      t.out = .atsDone f :: s.out ∧
      (∀ e, e ∈ t.hif.ats ↔ e ∈ s.hif.ats ∧ ¬ (e.fn = f ∧ e.pasid = pasid ∧ page ≤ e.page ∧ e.page < page + count))) ∧
  (∀ (f : Fn) (q page : Nat) (w : Work) (s : State), refusedWork s f q = some (w, page) →
      (fnSt s (.pf (fnPf f))).pageRequests.length < (cfgGet s (.pf (fnPf f)) (0x1EC / 4)).toNat →
      exec (.pageRequest f q) s = .next (emit (.pageRequest f (page * 4096))
        (modFn (.pf (fnPf f)) (fun r => { r with pageRequests := r.pageRequests ++ [{ fn := f, sq := q, ctr := w.ctr.toNat, page := page, sent := s.elapsed }] })
          (modWork f q w.ctr (fun w => { w with noAccess := w.noAccess.drop 1 }) s)))) ∧
  (∀ (f : Fn) (q : Nat) (r : PageReq) (w : Work) (s s0 s1 : State), openPageReq s f q = some r → s0 = s →
      s1 = modFn (.pf (fnPf r.fn)) (fun x => { x with pageRequests := dropFirst (· == r) x.pageRequests }) s0 →
      workOf s1 r.fn r.sq (BitVec.ofNat 16 r.ctr) = some w → w.done = none →
      exec (.prgResponse f q .success) s = .next (modHif (fun h => { h with waiting := { fn := r.fn, use := .translate r.sq r.ctr r.page, addr := r.page * 4096, len := 8 } :: h.waiting }) s1) ∧
      exec (.prgResponse f q .invalidRequest) s = .next (translationFails r.fn r.sq r.ctr 0x03 s1) ∧
      exec (.prgResponse f q .responseFailure) s = .next (raise 0x2 0x0B (fnCode r.fn) (.function (.pf (fnPf r.fn))) (translationFails r.fn r.sq r.ctr 0x03 s1))) ∧
  (∀ (f : Fn) (q : Nat) (r : PageReq) (w : Work) (s s0 s1 : State), openPageReq s f q = some r → s0 = advanceTo (r.sent + 1000000000) s →
      s1 = modFn (.pf (fnPf r.fn)) (fun x => { x with pageRequests := dropFirst (· == r) x.pageRequests }) s0 →
      workOf s1 r.fn r.sq (BitVec.ofNat 16 r.ctr) = some w → w.done = none →
      exec (.pageRequestTimeout f q) s = .next (raise 0x2 0x0B (fnCode r.fn) (.function (.pf (fnPf r.fn))) (translationFails r.fn r.sq r.ctr 0x03 s1))) ∧
  (∀ (half : Nat) (s : State), halfInUse s half = true → (halfSt s half).up = true →
      wbit (cfgGet s (.pf (pf0Of half)) (0x1F8 / 4)) 0 = true →
      exec (.ptmRequest half) s = .next (emit (.ptm half (now s)) s)) ∧
  (∀ (half : Nat) (s : State), half < s.hif.doe.length →
      ∃ t d, exec (.doeAbort half) s = .next t ∧ t.hif.doe[half]? = some d ∧ d.error = false ∧ d.ready = false ∧ d.answer = [])

/-- What the DOE mailbox and the SPDM requests before a session make of the state. The message and answer codes are those of the SPDM specification, which the spec names and does not repeat (assumption 80). Rests on R148, R149 and R452. -/
def Obligations.SpdmConnection : Prop :=
  (∀ (half protocol length index : Nat) (s : State), doeOpen s half = true → 16384 < length →
      exec (.doeRequest half protocol length index) s = .next (modDoe half (fun d => { d with error := true }) s)) ∧
  (∀ (half length index : Nat) (s : State), doeOpen s half = true → length ≤ 16384 →
      exec (.doeRequest half 0 length index) s = .next (doeAnswer half 0 (discovery index) s)) ∧
  (∀ (half length : Nat) (x : SpdmSession) (s : State), spdmOpen s half = true → length ≤ 16384 →
      (doeOf s half).sessions.find? (fun x => x.mutually && !x.established) = some x → x.encap = 0 →
      exec (.doeRequest half 1 length 0xEA) s = .next (doeAnswer half 0x6A [0x81] s)) ∧
  (∀ (half : Nat) (s : State), spdmOpen s half = true →
      exec (.getVersion half) s = .next (doeAnswer half 0x04 [0x12, 0x13] (modDoe half (fun d => { d with phase := 1, version := 0, sessions := [] }) s))) ∧
  (∀ (half version : Nat) (s : State), spdmOpen s half = true → (doeOf s half).phase = 1 → version = 0x12 ∨ version = 0x13 →
      exec (.getCapabilities half version) s = .next (doeAnswer half 0x61 [BitVec.ofNat 8 version] (modDoe half (fun d => { d with phase := 2, version := version }) s))) ∧
  (∀ (half asym hash dhe aead : Nat) (s : State), spdmOpen s half = true → (doeOf s half).phase = 2 → bitOf asym 7 = true → bitOf hash 1 = true →
      ∃ t, exec (.negotiateAlgorithms half asym hash dhe aead) s = .next t ∧
        (half < s.hif.doe.length → (doeOf t half).phase = 3 ∧ (doeOf t half).ready = true)) ∧
  (∀ (half : Nat) (s : State), spdmOpen s half = true → (doeOf s half).phase = 3 →
      exec (.getDigests half) s = .next (doeAnswer half 0x01 (1 :: sha384 (certChain s)) s)) ∧
  (∀ (half off len : Nat) (part : Bytes) (s : State), spdmOpen s half = true → (doeOf s half).phase = 3 → part = ((certChain s).drop off).take len →
      exec (.getCertificate half 0 off len) s = .next (if (certChain s).length ≤ off then spdmError half errInvalid s
        else doeAnswer half 0x02 (leBytes 2 part.length ++ leBytes 2 ((certChain s).length - off - part.length) ++ part) s)) ∧
  (∀ (half nonce kind : Nat) (s : State), spdmOpen s half = true → (doeOf s half).phase = 3 →
      exec (.challenge half 0 nonce kind) s = .next (doeAnswer half 0x03 (signedBody s nonce (Config.freeValue s.free) (sha384 (certChain s) ++ leBytes 1 kind)) { s with free := s.free + 1 })) ∧
  (∀ (half nonce : Nat) (s : State), spdmOpen s half = true → (doeOf s half).phase = 3 →
      exec (.getMeasurements half 0 nonce false) s = .next (doeAnswer half 0x60 [5] s) ∧
      exec (.getMeasurements half 5 nonce false) s = .next (doeAnswer half 0x60
        [5, BitVec.ofNat 8 s.lcs.life, BitVec.ofNat 8 s.lcs.svnFloor, BitVec.ofNat 8 ((s.lcs.session.map DebugSession.perms).getD 0), BitVec.ofNat 8 (s.lcs.owners.length - 1)] s)) ∧
  (∀ (half a b c d : Nat) (g : Bool) (s : State), spdmOpen s half = false →
      exec (.getVersion half) s = .next s ∧ exec (.getCapabilities half a) s = .next s ∧ exec (.negotiateAlgorithms half a b c d) s = .next s ∧
      exec (.getDigests half) s = .next s ∧ exec (.getCertificate half a b c) s = .next s ∧ exec (.challenge half a b c) s = .next s ∧
      exec (.getMeasurements half a b g) s = .next s)

/-- What the SPDM session requests, the IDE_KM and TDISP messages inside a session and an IDE integrity failure make of the state (message codes: assumption 80; whether firmware asks for mutual authentication is a setting of its own: assumption 1). Rests on R149, R150, R151, R152 and R153. -/
def Obligations.SpdmSessions : Prop :=
  (∀ (half req exch id : Nat) (s : State), spdmOpen s half = true → (doeOf s half).phase = 3 → (doeOf s half).sessions.length < 4 →
      id = req % 65536 + 65536 * ((doeOf s half).nextSession % 65536) →
      exec (.keyExchange half 0 req exch) s = .next (doeAnswer half 0x64 (leBytes 4 id ++ [BitVec.ofNat 8 (b2n Config.mutualAuth)] ++ leBytes 96 (Config.exchange exch))
        (modDoe half (fun d => { d with sessions := d.sessions ++ [{ id := id, mutually := Config.mutualAuth }], nextSession := (d.nextSession + 1) % 65536 }) s))) ∧
  (∀ (half req exch : Nat) (s : State), spdmOpen s half = true → (doeOf s half).phase = 3 → 4 ≤ (doeOf s half).sessions.length →
      exec (.keyExchange half 0 req exch) s = .next (spdmError half errLimit s)) ∧
  (∀ (half session : Nat) (x : SpdmSession) (s : State), spdmOpen s half = true → (doeOf s half).phase = 3 → sessionOf s half session = some x →
      x.established = false → x.mutually = false ∨ x.encap = 2 →
      exec (.finish half session true) s = .next (doeAnswer half 0x65 (leBytes 4 session) (modSession half session (fun x => { x with established := true }) s)) ∧
      exec (.finish half session false) s = .next (spdmError half errDecrypt (dropSession half session s))) ∧
  (∀ (half session : Nat) (x : SpdmSession) (s : State), spdmOpen s half = true → (doeOf s half).phase = 3 → sessionOf s half session = some x →
      x.established = true →
      exec (.keyUpdate half session 1) s = .next (doeAnswer half 0x69 [1] (modSession half session (fun x => { x with reqGen := x.reqGen + 1 }) s)) ∧
      exec (.keyUpdate half session 2) s = .next (doeAnswer half 0x69 [2] (modSession half session (fun x => { x with reqGen := x.reqGen + 1, rspGen := x.rspGen + 1 }) s)) ∧
      exec (.heartbeat half session) s = .next (doeAnswer half 0x68 [] s) ∧
      exec (.endSession half session) s = .next (doeAnswer half 0x6C [] (dropSession half session s))) ∧
  (∀ (half session stream sub dir set key iv : Nat) (x : SpdmSession) (s : State), spdmOpen s half = true → (doeOf s half).phase = 3 →
      sessionOf s half session = some x → x.established = true → ideNamed stream sub dir set = true →
      ∃ t, exec (.vendorDefinedRequest half session (.ideKeyProg stream sub dir set key iv)) s = .next t ∧
        (ideLane sub dir * 2 + set, key, iv) ∈ (ideSt t half stream).keys) ∧
  (∀ (half session stream : Nat) (f : Fn) (x : SpdmSession) (s : State), spdmOpen s half = true → (doeOf s half).phase = 3 →
      sessionOf s half session = some x → x.established = true → tdiOf s half f = true → (fnSt s f).tdi.st = .unlocked → 1 ≤ stream → stream ≤ 16 →
      (ideSt s half stream).secure = true →
      ∃ t, exec (.vendorDefinedRequest half session (.tdispLockInterface f stream)) s = .next t ∧ (fnSt t f).tdi.st = .locked ∧
        (fnSt t f).tdi.stream = stream) ∧
  (∀ (half session nonce : Nat) (f : Fn) (x : SpdmSession) (s : State), spdmOpen s half = true → (doeOf s half).phase = 3 →
      sessionOf s half session = some x → x.established = true → tdiOf s half f = true → (fnSt s f).tdi.st = .locked → (fnSt s f).tdi.nonce = nonce →
      ∃ t, exec (.vendorDefinedRequest half session (.tdispStartInterface f nonce)) s = .next t ∧ (fnSt t f).tdi.st = .run) ∧
  (∀ (f : Fn) (s : State), spdmOpen s (fnHalf s f) = true → tdiOf s (fnHalf s f) f = true → (fnSt s f).tdi.st ≠ .unlocked →
      ∃ t, exec (.stopInterface f) s = .next t ∧ (fnSt t f).tdi.st = .unlocked ∧ t = tdisp (fnHalf s f) 0x07 [] (modFn f (fun r => { r with tdi := {}, silent := r.awaitQuiesce }) (clearVf f s))) ∧
  (∀ (half stream : Nat) (s : State), (ideSt s half stream).secure = true → s.hif.slots = [] →
      ∃ t, exec (.ideIntegrityFailure half stream) s = .next t ∧ (ideSt t half stream).secure = false ∧
        (ideSt t half stream).failLogged = true ∧ (ideSt t half stream).keys = [])

/-- What doorbells, fetches of submission entries, completion writes, event entries and the moderation timer make of the state. Rests on R139, R158, R161, R162, R165, R169, R171, R174, R176 and R181. -/
def Obligations.RingsAndEntries : Prop :=
  (∀ (f : Fn) (q : Nat) (s : State), (queue s f q).unsignalled ≠ 0 → fld (queue s f q).cfg 27 26 = 1 →
      exec (.moderationTimer f q) s = .next (signal f q (advanceTo ((queue s f q).oldest + fld (queue s f q).moder 31 24 * 1000) s))) ∧
  (∀ (f : Fn) (q n : Nat) (e : Cqe) (s : State), (fnSt s f).silent = false → frozen s f = false → qKind f q = some .sq →
      dueCompletion q (queue s f q).work = some (e, n) →
      exec (.completionWrite f q .landed) s = .next (postCqe f (qTarget (queue s f q)) e (modQueue f q (fun u => { u with work := u.work.drop n }) s))) ∧
  (∀ (f : Fn) (q n : Nat) (e : Cqe) (s s1 : State), (fnSt s f).silent = false → frozen s f = false → qKind f q = some .sq →
      dueCompletion q (queue s f q).work = some (e, n) → s1 = modQueue f q (fun u => { u with work := u.work.drop n }) s →
      ringFull (queue s1 f (qTarget (queue s f q))) = false → (queue s1 f (qTarget (queue s f q))).overflow = [] →
      exec (.completionWrite f q .failed) s = .next (postCqe f (qTarget (queue s f q)) e (queueError f (qTarget (queue s f q)) s1))) ∧
  (∀ (f : Fn) (q off : Nat) (v : BitVec 64) (u : Queue) (s : State), off = doorbellBar f q → doorbellAt s f off = some q → pathOpen s (.fn f) = true → accessWaits s (.fn f) off = false → blockDead s (.fn f) (accessBlk s (.fn f) off) = false →
      qKind f q = some .sq → u = queue s f q → u.st = .active → (v.truncate 16 - u.p).toNat ≤ ringSize u - (u.p - u.c).toNat →
      exec (.doorbellWrite f q v .full) s = .next (modQueue f q (fun u => { u with p := v.truncate 16, counter := v.truncate 16 }) (atWork (.fn f) off s))) ∧
  (∀ (f : Fn) (q off : Nat) (v : BitVec 64) (u : Queue) (s : State), off = doorbellBar f q → doorbellAt s f off = some q → pathOpen s (.fn f) = true → accessWaits s (.fn f) off = false → blockDead s (.fn f) (accessBlk s (.fn f) off) = false →
      qKind f q = some .sq → u = queue s f q → u.st = .active → ringSize u - (u.p - u.c).toNat < (v.truncate 16 - u.p).toNat →
      ringSize u < (u.p - v.truncate 16).toNat →
      exec (.doorbellWrite f q v .full) s = .next (qmEvent f q 0x02 (.function f) (bump .QM_DB_INVALID 0 (fnCode f) 1 (atWork (.fn f) off s)))) ∧
  (∀ (f : Fn) (q off : Nat) (v : BitVec 64) (s : State), off = doorbellBar f q → doorbellAt s f off = some q → pathOpen s (.fn f) = true → accessWaits s (.fn f) off = false → blockDead s (.fn f) (accessBlk s (.fn f) off) = false →
      (queue s f q).st = .disabled ∨ (queue s f q).st = .error →
      exec (.doorbellWrite f q v .full) s = .next (atWork (.fn f) off s)) ∧
  (∀ (f : Fn) (q : Nat) (v : BitVec 64) (s : State), f ≠ .fw → pathOpen s (.fn f) = false →
      ∀ form : DoorbellForm, exec (.doorbellWrite f q v form) s = .next (rejectRequest f s) ∧ (rejectRequest f s).out.head? = some (.unsupported f)) ∧
  (∀ (f : Fn) (q : Nat) (bs : Bytes) (e : BitVec 512) (s : State), mayFetch s f q = true → (queue s f q).staleAt = none →
      mayTake s f (sqeAddr (queue s f q)) = true → e = BitVec.ofNat 512 (leNat (slice bs 0 64)) →
      (bitOf (entryField e 1 1) 0 = phaseOf (queue s f q) (queue s f q).c → exec (.sqEntryFetch f q (.data bs)) s = .next (acceptEntry f q e s)) ∧
      (bitOf (entryField e 1 1) 0 ≠ phaseOf (queue s f q) (queue s f q).c →
        exec (.sqEntryFetch f q (.data bs)) s = .next (modQueue f q (fun u => { u with staleAt := some s.elapsed }) s))) ∧
  (∀ (f : Fn) (q : Nat) (s s1 : State), mayFetch s f q = true → (queue s f q).staleAt = none →
      (operandRead f (sqeAddr (queue s f q)) .abort s = some s1 → exec (.sqEntryFetch f q .abort) s = .next (queueError f q s1)) ∧
      (operandRead f (sqeAddr (queue s f q)) .poisoned s = some s1 → exec (.sqEntryFetch f q .poisoned) s = .next (queueError f q s1)) ∧
      (operandRead f (sqeAddr (queue s f q)) .timeout s = some s1 → exec (.sqEntryFetch f q .timeout) s = .next (queueError f q s1))) ∧
  (∀ (f : Fn) (q at_ : Nat) (bs : Bytes) (e : BitVec 512) (u : Queue) (s s1 : State), u = queue s f q → u.staleAt = some at_ → s1 = advanceTo (at_ + 1000) s →
      mayFetch s1 f q = true → mayTake s1 f (sqeAddr u) = true → e = BitVec.ofNat 512 (leNat (slice bs 0 64)) →
      (bitOf (entryField e 1 1) 0 = phaseOf u u.c → exec (.staleRetry f q (.data bs)) s = .next (acceptEntry f q e s1)) ∧
      (bitOf (entryField e 1 1) 0 ≠ phaseOf u u.c → exec (.staleRetry f q (.data bs)) s = .next (finishWork f q u.c 0x06 0
        (modQueue f q (fun x => { x with work := x.work ++ [{ ctr := u.c, entry := e, cls := qClass u, started := true }], c := x.c + 1, staleAt := none }) s1)))) ∧
  (∀ (f : Fn) (q : Nat) (w : Work) (s : State), nextWork s f q 1 0x01 = some w →
      exec (.rxBuffer f q) s = .next (modWork f q w.ctr (fun w => { w with started := true }) s)) ∧
  (∀ (f : Fn) (block code detail : Nat) (s : State), f ≠ .fw →
      s.qm.events.find? (fun e => e.block == block && e.code == code && e.detail == detail && e.fn == f && e.eq == defaultEq s f) = none →
      ∃ t, exec (.eventRaise block code detail (.function f)) s = .next t ∧
        t.qm.events = s.qm.events ++ [{ block := block, code := code, detail := detail, fn := f, eq := defaultEq s f, ts := now s, bound := bound16 s }]) ∧
  (∀ (f : Fn) (q : Nat) (e : EvSrc) (s : State), qKind f q = some .eq → (queue s f q).st = .active → ringFull (queue s f q) = false →
      (fnSt s f).silent = false → frozen s f = false → busMaster s f = true → linkUp s f = true →
      s.qm.events.find? (fun e => e.fn == f && e.eq == some q && e.written.isNone) = some e →
      exec (.eqEntryWrite f q .landed) s = .next (writeRing f q 16 (eqeBytes (queue s f q) e)
        (modQm (fun m => { m with events := updFirst (fun e => e.fn == f && e.eq == some q && e.written.isNone) (fun e => { e with written := some (queue s f q).p }) m.events }) s)) ∧
      exec (.eqEntryWrite f q .failed) s = .next (queueError f q s))

/-- What CREATE, DESTROY and RESTART of the selected queue make of it, and the end of a DESTROY. Rests on R177, R178, R179 and R180. -/
def Obligations.QueueControl : Prop :=
  (∀ (f : Fn) (q off : Nat) (n : BitVec 16) (cfg : Word) (s0 s : State), regBar (.fn f) .QM_Q_CTRL 0 = some off → actsAt (.fn f) off s0 = true → s = atWork (.fn f) off s0 → 
      q = selectedQ s (.fn f) → ownsQueue s f q = true → created (queue s f q) = false →
      settingsOk s f q = true → cfg = reg s .QM_Q_CFG q (fnCode f) → n = BitVec.ofNat 16 (2 ^ fld cfg 3 0) →
      ∃ t, exec (.qCreate (.fn f)) s0 = .next t ∧ fld (reg t .QM_Q_STATE 0 (pathCode (.fn f))) 15 12 = 0 ∧
        queue t f q = { st := .active, p := n, c := n, counter := n, base := pair64 s .QM_Q_BASE_LO .QM_Q_BASE_HI q (fnCode f), cfg := cfg, pasid := reg s .QM_Q_PASID q (fnCode f), moder := reg s .QM_CQ_MODERATION q (fnCode f) }) ∧
  (∀ (f : Fn) (q off : Nat) (s0 s : State), regBar (.fn f) .QM_Q_CTRL 0 = some off → actsAt (.fn f) off s0 = true → s = atWork (.fn f) off s0 → 
      q = selectedQ s (.fn f) →
      (ownsQueue s f q = false → exec (.qCreate (.fn f)) s0 = .next (setQResult (.fn f) 1 s)) ∧
      (ownsQueue s f q = true → created (queue s f q) = true → exec (.qCreate (.fn f)) s0 = .next (setQResult (.fn f) 3 s)) ∧
      (ownsQueue s f q = true → created (queue s f q) = false → settingsOk s f q = false → exec (.qCreate (.fn f)) s0 = .next (setQResult (.fn f) 2 s))) ∧
  (∀ (f : Fn) (q off : Nat) (s0 s : State), regBar (.fn f) .QM_Q_CTRL 0 = some off → actsAt (.fn f) off s0 = true → s = atWork (.fn f) off s0 → 
      q = selectedQ s (.fn f) → ownsQueue s f q = true → created (queue s f q) = true → qKind f q = some .sq →
      (queue s f q).work = [] →
      exec (.qDestroy (.fn f)) s0 = .next (modQm (fun m => { m with lastDestroy := mput m.lastDestroy (fnCode f) q }) (setQResult (.fn f) 4 (releaseLocks f (some q) (modQueue f q (fun u => { u with destroying := true }) s))))) ∧
  (∀ (f : Fn) (q : Nat) (u : Queue) (s : State), u = queue s f q → u.destroying = true → u.work.all (fun w => w.done.isSome) = true → dueCompletion q u.work = none → u.overflow = [] → u.waiting = [] →
      mfind s.qm.lastDestroy (fnCode f) = some q →
      ∃ t, exec (.queueDisabled f q) s = .next t ∧ queue t f q = {} ∧ fld (reg t .QM_Q_STATE 0 (pathCode (.fn f))) 15 12 = 0) ∧
  (∀ (f : Fn) (q off : Nat) (n : BitVec 16) (cfg : Word) (s0 s : State), regBar (.fn f) .QM_Q_CTRL 0 = some off → actsAt (.fn f) off s0 = true → s = atWork (.fn f) off s0 → 
      q = selectedQ s (.fn f) → ownsQueue s f q = true →
      (queue s f q).st = .quiesced ∨ ((queue s f q).st = .error ∧ (qKind f q = some .cq → (queue s f q).overflow = [] ∧ (queue s f q).waiting = [])) → quiesced s f = true → settingsOk s f q = true → cfg = reg s .QM_Q_CFG q (fnCode f) →
      n = BitVec.ofNat 16 (2 ^ fld cfg 3 0) →
      ∃ t, exec (.queueRestart (.fn f)) s0 = .next t ∧ fld (reg t .QM_Q_STATE 0 (pathCode (.fn f))) 15 12 = 0 ∧
        (queue t f q).st = .active ∧ (queue t f q).p = n ∧ (queue t f q).c = n)

/-- What a PF's writes of HIF_VF_CTRL and HIF_VF_VPORT make of the selected VF. Each is stated for a write that takes effect at once; s is the state in which HIF has noted its work, and no action of the VF is PENDING. That a RESTORE brings its image with the command is the model's convention (assumption 90). Rests on R185, R186, R189, R190, R191, R192, R194, R195 and R196. -/
def Obligations.VfMigration : Prop :=
  (∀ (pf off : Nat) (f : Fn) (s0 s : State), regBar (.fn (.pf pf)) .HIF_VF_CTRL 0 = some off → actsAt (.fn (.pf pf)) off s0 = true → s = atWork (.fn (.pf pf)) off s0 →
      selectedVf s pf = some f → (fnSt s f).mig.action = none →
      (vfEnabled s pf = true → exec (.vfGrant pf) s0 = .next (migResult f 2 s)) ∧
      (vfEnabled s pf = false → grantOk s f (grantOf s f) = false → exec (.vfGrant pf) s0 = .next (migResult f 3 s)) ∧
      (vfEnabled s pf = false → grantOk s f (grantOf s f) = true →
        exec (.vfGrant pf) s0 = .next (migResult f 0 (tdiError f (modFn f (fun r => { r with grant := some (grantOf s f) }) s))))) ∧
  (∀ (pf off : Nat) (v : Word) (f : Fn) (s0 s : State), regBar (.fn (.pf pf)) .HIF_VF_VPORT 0 = some off → actsAt (.fn (.pf pf)) off s0 = true → s = atWork (.fn (.pf pf)) off s0 →
      selectedVf s pf = some f → wbit v 31 = true → (pfSet s pf).nvme = false →
      inVportRange s pf (fld v 11 0) = true → vportTaken s f (fld v 11 0) = false → (fnSt s f).vport ≠ some (fld v 11 0) →
      exec (.vportBind pf v) s0 = .next (setReg .HIF_VF_VPORT 0 (fnCode f) (applyWrite .HIF_VF_VPORT (vfReg s f .HIF_VF_VPORT) v)
        (tdiError f (modFn f (fun r => { r with vport := some (fld v 11 0) }) s)))) ∧
  (∀ (pf off : Nat) (f : Fn) (s0 s : State), regBar (.fn (.pf pf)) .HIF_VF_CTRL 0 = some off → actsAt (.fn (.pf pf)) off s0 = true → s = atWork (.fn (.pf pf)) off s0 →
      selectedVf s pf = some f → (fnSt s f).mig.action = none → logOk s f = true →
      ∃ t, exec (.logStart pf) s0 = .next t ∧ (fnSt t f).mig.logging = true ∧ (fnSt t f).mig.activeB = false ∧
        (fnSt t f).mig.rangeMiss = false ∧ (fnSt t f).mig.result = 0) ∧
  (∀ (pf off : Nat) (f : Fn) (s0 s : State), regBar (.fn (.pf pf)) .HIF_VF_CTRL 0 = some off → actsAt (.fn (.pf pf)) off s0 = true → s = atWork (.fn (.pf pf)) off s0 →
      selectedVf s pf = some f → (fnSt s f).mig.action = none →
      ∃ t, exec (.logSwap pf) s0 = .next t ∧ (fnSt t f).mig.activeB = !(fnSt s f).mig.activeB ∧ (fnSt t f).mig.rangeMiss = false ∧
        (fnSt t f).mig.result = 0 ∧ (fnSt t f).mig.logging = (fnSt s f).mig.logging) ∧
  (∀ (pf off : Nat) (f : Fn) (s0 s : State), regBar (.fn (.pf pf)) .HIF_VF_CTRL 0 = some off → actsAt (.fn (.pf pf)) off s0 = true → s = atWork (.fn (.pf pf)) off s0 →
      selectedVf s pf = some f → (fnSt s f).mig.action = none →
      ∃ t, exec (.logStop pf) s0 = .next t ∧ (fnSt t f).mig.logging = false ∧ (fnSt t f).mig.result = 0) ∧
  (∀ (f : Fn) (addr len : Nat) (s : State), (fnSt s f).mig.logging = false → exec (.dirtyPageLog f addr len) s = .next s) ∧
  (∀ (f : Fn) (addr len a i iova : Nat) (s : State), (fnSt s f).mig.logging = true → (fnSt s f).mig.activeB = false → addr % 4096 + max len 1 ≤ 4096 →
      a = addr / 4096 * 4096 → iova = pair64 s .HIF_VF_LOG_IOVA_LO .HIF_VF_LOG_IOVA_HI 0 (fnCode f) → iova ≤ a → i = (a - iova) / 4096 →
      i < (reg s .HIF_VF_LOG_PAGES 0 (fnCode f)).toNat →
      ∀ (w : Nat) (t : Tlp), w = pair64 s .HIF_VF_LOG_A_LO .HIF_VF_LOG_A_HI 0 (fnCode f) + i / 8 → tlpFor s (.pf (fnPf f)) w false = some t →
      exec (.dirtyPageLog f addr len) s = .next (emit (.setBits (.pf (fnPf f)) w (2 ^ (i % 8)) t) s)) ∧
  (∀ (pf off : Nat) (f : Fn) (s0 s : State), regBar (.fn (.pf pf)) .HIF_VF_CTRL 0 = some off → actsAt (.fn (.pf pf)) off s0 = true → s = atWork (.fn (.pf pf)) off s0 →
      selectedVf s pf = some f → (fnSt s f).mig.action = none →
      ((fnSt s f).tdi.st = .locked ∨ (fnSt s f).tdi.st = .run → exec (.vfFreeze pf) s0 = .next (migResult f 8 s)) ∧
      ((fnSt s f).tdi.st = .unlocked → migRuns s f = true → exec (.vfFreeze pf) s0 = .next
        (modMig f (fun m => { m with st := .freezing, freezeAt := s.elapsed, slow := false }) (park f
          (modMig f (fun m => { m with action := some 5, result := 1 }) s))))) ∧
  (∀ (f : Fn) (s : State), (fnSt s f).mig.st = .freezing → freezeReady s f = true →
      exec (.freezeDone f) s = .next (migDone f 0 (modMig f (fun m => { m with st := .frozen }) s))) ∧
  (∀ (f : Fn) (s : State), (fnSt s f).mig.st = .freezing → (fnSt s f).mig.slow = false →
      exec (.migSlow f) s = .next (raise 0x2 0x0D (fnCode f % 4096) (.function (.pf (fnPf f))) (modMig f (fun m => { m with slow := true })
        (advanceTo ((fnSt s f).mig.freezeAt + (vfReg s f .HIF_VF_FREEZE_LIMIT).toNat * 1000000) s)))) ∧
  (∀ (pf n off : Nat) (f : Fn) (s0 s : State), regBar (.fn (.pf pf)) .HIF_VF_CTRL 0 = some off → actsAt (.fn (.pf pf)) off s0 = true → s = atWork (.fn (.pf pf)) off s0 →
      selectedVf s pf = some f → (fnSt s f).mig.action = none → (fnSt s f).mig.st = .frozen →
      n = (stateImage s f).length →
      (n ≤ (vfReg s f .HIF_VF_IMG_LEN).toNat → exec (.vfSave pf .landed) s0 = .next
        (modMig f (fun m => { m with st := .saving, ending := 0 }) (migPend f 6 (modMig f (fun m => { m with imgUsed := n })
          (hostWrite (.pf pf) none (imageBuf s f) (stateImage s f) false s))))) ∧
      ((vfReg s f .HIF_VF_IMG_LEN).toNat < n → exec (.vfSave pf .landed) s0 = .next
        (modMig f (fun m => { m with st := .saving, ending := 5 }) (migPend f 6 (modMig f (fun m => { m with imgUsed := n }) s))))) ∧
  (∀ (pf off : Nat) (bs : Bytes) (f : Fn) (s0 s : State), restoring s0 pf = none → regBar (.fn (.pf pf)) .HIF_VF_CTRL 0 = some off → actsAt (.fn (.pf pf)) off s0 = true → s = atWork (.fn (.pf pf)) off s0 →
      selectedVf s pf = some f →
      (fnSt s f).mig.action = none → (fnSt s f).mig.st = .frozen → createdQueues s f = [] →
      ∀ s1, s1 = modMig f (fun m => { m with st := .restoring, imageDue := true }) (migPend f 7 s) → restoring s1 pf = some f →
      mayTake s1 (.pf pf) (imageBuf s1 f) = true → exec (.vfRestore pf (.data bs)) s0 = .next (restoreImage f (.data bs) s1)) ∧
  (∀ (pf : Nat) (bs data : Bytes) (f : Fn) (s : State), restoring s pf = some f → mayTake s (.pf pf) (imageBuf s f) = true →
      data = bs.take (vfReg s f .HIF_VF_IMG_LEN).toNat →
      (readImage s f data = none → exec (.vfRestore pf (.data bs)) s = .next (modMig f (fun m => { m with imageDue := false, ending := 4 }) s)) ∧
      (∀ secs, readImage s f data = some secs → grantFits s f data = true → recordsOk s f secs = true →
        exec (.vfRestore pf (.data bs)) s = .next (modMig f (fun m => { m with imageDue := false, ending := 0 }) (applyImage f secs (leAt data 16 8) s)))) ∧
  (∀ (f : Fn) (a : Nat) (s : State), (fnSt s f).mig.action = some a → a ≠ 5 → (fnSt s f).mig.imageDue = false →
      exec (.vfMigDone f) s = .next (migDone f (fnSt s f).mig.ending (modMig f (fun m => { m with st := .frozen }) s))) ∧
  (∀ (pf off : Nat) (f : Fn) (s0 s : State), regBar (.fn (.pf pf)) .HIF_VF_CTRL 0 = some off → actsAt (.fn (.pf pf)) off s0 = true → s = atWork (.fn (.pf pf)) off s0 →
      selectedVf s pf = some f → (fnSt s f).mig.action = none → (fnSt s f).mig.st = .frozen →
      exec (.vfUnfreeze pf) s0 = .next (migResult f 0 (wakeVf f (unpark f (modMig f (fun m => { m with st := .running }) s))))) ∧
  (∀ (pf off : Nat) (f : Fn) (s0 s : State), regBar (.fn (.pf pf)) .HIF_VF_CTRL 0 = some off → actsAt (.fn (.pf pf)) off s0 = true → s = atWork (.fn (.pf pf)) off s0 →
      selectedVf s pf = some f → (fnSt s f).mig.action.isSome = true →
      exec (.vfGrant pf) s0 = .next (migResult f 2 s) ∧ exec (.logStart pf) s0 = .next (migResult f 2 s) ∧
      exec (.logSwap pf) s0 = .next (migResult f 2 s) ∧ exec (.logStop pf) s0 = .next (migResult f 2 s) ∧
      exec (.vfFreeze pf) s0 = .next (migResult f 2 s) ∧ exec (.vfSave pf .landed) s0 = .next (migResult f 2 s))

/-- What the commands of the links, the FEC windows, flow control and the pause watchdog make of the state of a logical port. Rests on R199, R201, R203, R212, R213, R214 and R216. -/
def Obligations.PortLinksAndFlowControl : Prop :=
  (∀ (lp : Nat) (s : State), (lport s lp).starting = true →
      exec (.linkUp lp) s = .next (ncsiAen 0 lp (raise 0x4 0x01 (lp + at_ 4 0) .device
        (setLanes lp true (modLport lp (fun p => { p with up := true, starting := false }) s))))) ∧
  (∀ (lp : Nat) (s : State), (lport s lp).up = true → exec (.linkDown lp) s = .next (lportDown lp s)) ∧
  (∀ (lp c u : Nat) (s : State), (lport s lp).up = true → fld (reg s .MAC_LP_FEC_CFG lp 0) 15 0 < u →
      exec (.fecWindow lp c u) s = .next (raise 0x4 0x03 (lp + at_ 4 0) .device
        (modLport lp (fun p => { p with fecDegraded := true, goodWindows := 0 }) (lpCount lp 17 u (lpCount lp 16 c s))))) ∧
  (∀ (lp c u : Nat) (s : State), (lport s lp).up = true → u ≤ fld (reg s .MAC_LP_FEC_CFG lp 0) 15 0 →
      exec (.fecWindow lp c u) s = .next (modLport lp (fun p => { p with fecDegraded := p.fecDegraded && decide (p.goodWindows < 99), goodWindows := p.goodWindows + 1 })
        (lpCount lp 17 u (lpCount lp 16 c s)))) ∧
  (∀ (p : Path) (off n : Nat) (v old new : Word) (s0 s : State), regBar p .MAC_PORT_CFG n = some off → actsAt p off s0 = true → s = atWork p off s0 →
      mayWrite s (asPath p) .MAC_PORT_CFG = true → n < 2 → old = reg s .MAC_PORT_CFG n 0 →
      new = applyWrite .MAC_PORT_CFG old v → wbit old 31 = false →
      (wbit new 31 = true → exec (.portCfgWrite p n v) s0 = .next (foldS (fun lp s => if (lport s lp).up then s else beginUp lp s) (lpsOf n) (setReg .MAC_PORT_CFG n 0 new s))) ∧
      (wbit new 31 = false → exec (.portCfgWrite p n v) s0 = .next (foldS lportDown (lpsOf n) (setReg .MAC_PORT_CFG n 0 new s)))) ∧
  (∀ (lp enable : Nat) (quanta : List Nat) (s : State), (lport s lp).up = true → wbit (lpCfg s lp) 31 = true → fcMode s lp = 1 →
      exec (.pauseFrameRx lp 1 enable quanta) s = .next (pauseTime lp 0 (quanta.headD 0 % 65536) (lpCount lp 6 1 (lpCount lp 1 64 (lpCount lp 0 1 s))))) ∧
  (∀ (lp prio at_ : Nat) (s : State), (prioSt s lp prio).holdUntil = some at_ →
      exec (.pauseHoldExpiry lp prio) s = .next (modPrio lp prio (fun x => { x with holdUntil := none }) (advanceTo at_ s))) ∧
  (∀ (lp prio : Nat) (s s1 : State), (prioSt s lp prio).xoff = true → lossless s lp prio = true → xonCells s lp prio ≤ cellsHeld s lp prio →
      s1 = advanceTo ((prioSt s lp prio).lastSent + ceilDiv (max 1 (fld (reg s .MAC_LP_FC_REFRESH lp 0) 15 0) * 512) (lpRate s lp)) s →
      exec (.pauseRefresh lp prio) s = .next (modPrio lp prio (fun y => { y with lastSent := s1.elapsed }) (sendPause lp prio (fcQuanta s lp) s1))) ∧
  (∀ (lp prio at_ : Nat) (s : State), (prioSt s lp prio).holdUntil = some at_ → wdTime s lp ≠ 0 → (prioSt s lp prio).rxStorm = false →
      (prioSt s lp prio).heldSince + wdTime s lp ≤ at_ →
      exec (.pauseRxStorm lp prio) s = .next (raise 0x4 0x04 (lp + Machine.at_ 4 prio) .device (modPrio lp prio (fun x => { x with rxStorm := true, holdUntil := none })
        (advanceTo ((prioSt s lp prio).heldSince + wdTime s lp) s)))) ∧
  (∀ (lp prio : Nat) (s : State), wdTime s lp ≠ 0 → (prioSt s lp prio).xoff = true → lossless s lp prio = true →
      exec (.pauseTxStorm lp prio) s = .next (raise 0x4 0x05 (lp + at_ 4 prio) .device (judgeFlow lp prio
        (modPrio lp prio (fun x => { x with xoff := false, txStorm := true, belowSince := none })
          (sendPause lp prio 0 (advanceTo ((prioSt s lp prio).xoffSince + wdTime s lp) s)))))) ∧
  (∀ (lp prio : Nat) (s : State), (prioSt s lp prio).rxStorm = true →
      ((prioSt s lp prio).txStorm = false ∨ (prioSt s lp prio).belowSince = none → exec (.stormRecover lp prio) s =
        .next (modPrio lp prio (fun x => { x with rxStorm := false }) (advanceTo ((prioSt s lp prio).lastPause + wdRecover s lp) s))) ∧
      (∀ since, (prioSt s lp prio).txStorm = true → (prioSt s lp prio).belowSince = some since →
        exec (.stormRecover lp prio) s = .next (if (prioSt s lp prio).lastPause ≤ since
          then modPrio lp prio (fun x => { x with rxStorm := false }) (advanceTo ((prioSt s lp prio).lastPause + wdRecover s lp) s)
          else judgeFlow lp prio (modPrio lp prio (fun x => { x with txStorm := false, belowSince := none }) (advanceTo (since + wdRecover s lp) s))))) ∧
  (∀ (lp prio at_ : Nat) (s : State), (prioSt s lp prio).rxStorm = false → (prioSt s lp prio).txStorm = true → (prioSt s lp prio).belowSince = some at_ →
      exec (.stormRecover lp prio) s = .next (judgeFlow lp prio (modPrio lp prio (fun x => { x with txStorm := false, belowSince := none }) (advanceTo (at_ + wdRecover s lp) s))))

/-- What a received frame, the filter actions and STAT_SNAP make of the state; each action of a path is stated for a write that takes effect at once, s being the state in which its block has noted its work. The index ADD chooses is a free value (assumption 5). Rests on R204, R208, R210, R212, R217 and R296. -/
def Obligations.PortFramesAndFilters : Prop :=
  (∀ (lp : Nat) (bytes : Bytes) (fcs : BitVec 32) (s : State), (lport s lp).up = true →
      (bytes.length + 4 < 64 → exec (.frameReceived lp bytes fcs) s = .next (lpCount lp 3 1 s)) ∧
      (64 ≤ bytes.length + 4 → maxFrame s lp < bytes.length + 4 → exec (.frameReceived lp bytes fcs) s = .next (lpCount lp 4 1 s))) ∧
  (∀ (lp : Nat) (bytes : Bytes) (fcs : BitVec 32) (s : State), (lport s lp).up = true → 64 ≤ bytes.length + 4 → bytes.length + 4 ≤ maxFrame s lp →
      (wbit (lpCfg s lp) 31 = false → exec (.frameReceived lp bytes fcs) s = .next (lpCount lp 5 1 s)) ∧
      (wbit (lpCfg s lp) 31 = true → beAt bytes 12 2 ≠ 0x8808 → admitted s lp bytes = false → exec (.frameReceived lp bytes fcs) s = .next (lpCount lp 5 1 s)) ∧
      (wbit (lpCfg s lp) 31 = true → beAt bytes 12 2 ≠ 0x8808 → admitted s lp bytes = true → exec (.frameReceived lp bytes fcs) s = .next (takeFrame lp bytes fcs.toNat s))) ∧
  (∀ (p : Path) (off : Nat) (e : Bytes) (i : Nat) (held : NMap Bytes) (r : Option Nat × State) (s0 s : State), regBar p .MAC_FLT_CTRL 0 = some off → actsAt p off s0 = true →
      s = atWork p off s0 → mayWrite s (asPath p) .MAC_FLT_CTRL = true → e = fltData s (asPath p) → fltOwns s (asPath p) (fltVport e) = true →
      lpUsed s (fltLport e) = true → leAt e 6 2 < 8192 → byteAt e 10 < 4 → leAt e 11 5 = 0 →
      held = s.mac.filters.filter (fun x => fltValid x.2) → held.any (fun x => fltKey x.2 == fltKey e) = false → held.length < 32768 →
      r = pickFree (held.map Prod.fst) 32768 s → r.1 = some i →
      ∃ t, exec (.filterAdd p) s0 = .next t ∧ t.mac.filters = mput s.mac.filters i (overwrite e 10 [BitVec.ofNat 8 (b2n (fltValid e) + 2 * b2n (isMulticast e))]) ∧
        reg t .MAC_FLT_STATUS 0 (pathCode (asPath p)) = w32 (0 + at_ 16 i)) ∧
  (∀ (p : Path) (off index : Nat) (e : Bytes) (s0 s : State), regBar p .MAC_FLT_CTRL 0 = some off → actsAt p off s0 = true → s = atWork p off s0 →
      mayWrite s (asPath p) .MAC_FLT_CTRL = true → mfind s.mac.filters (index % 32768) = some e → fltOwns s (asPath p) (fltVport e) = true →
      exec (.filterDelete p index) s0 = .next (fltResult (asPath p) 0 none (modMac (fun m => { m with filters := mdel m.filters (index % 32768) }) s))) ∧
  (∀ (p : Path) (off index : Nat) (e : Bytes) (s0 s : State), regBar p .MAC_FLT_CTRL 0 = some off → actsAt p off s0 = true → s = atWork p off s0 →
      mayWrite s (asPath p) .MAC_FLT_CTRL = true → mfind s.mac.filters (index % 32768) = some e → fltOwns s (asPath p) (fltVport e) = true →
      exec (.filterRead p index) s0 = .next (fltResult (asPath p) 0 none
        (foldS (fun k s => setReg .MAC_FLT_DATA k (pathCode (asPath p)) (w32 (leAt e (4 * k) 4)) s) (List.range 4) s))) ∧
  (∀ (p : Path) (off index : Nat) (e : Bytes) (s0 s : State), regBar p .MAC_FLT_CTRL 0 = some off → actsAt p off s0 = true → s = atWork p off s0 →
      mayWrite s (asPath p) .MAC_FLT_CTRL = true → mfind s.mac.filters (index % 32768) = some e → fltOwns s (asPath p) (fltVport e) = false →
      exec (.filterDelete p index) s0 = .next (fltResult (asPath p) 1 none s) ∧ exec (.filterRead p index) s0 = .next (fltResult (asPath p) 1 none s)) ∧
  (∀ (p : Path) (off lp : Nat) (s0 s : State), regBar p .MAC_LP_STAT_SNAP lp = some off → actsAt p off s0 = true → s = atWork p off s0 →
      mayWrite s (asPath p) .MAC_LP_STAT_SNAP = true → lpUsed s lp = true →
      ∃ t, exec (.statSnap p lp) s0 = .next t ∧ reg t .MAC_LP_SNAP_BOUND lp 0 = w32 (bound32 s) ∧
        reg t .MAC_LP_SNAP_TIME_LO lp 0 = w32 (now s) ∧ reg t .MAC_LP_SNAP_TIME_HI lp 0 = w32 (now s / 2 ^ 32) ∧ t.mac = s.mac)

/-- What the commands of the management MAC make of the state. The NC-SI codes are those of DSP0222, which the spec names (assumption 83); the back-off draw is a free value (assumption 1). Rests on R213, R220, R221, R222, R223, R225 and R403. -/
def Obligations.ManagementMac : Prop :=
  (∀ (m : ChMsg) (rest : List ChMsg) (s : State), chMsgs s 1 = m :: rest → mgtTxStatus s m ≠ 0 →
      exec .mgtTx s = .next (sendDone 0x13 (leAt (m.words.map (leBytes 8)).flatten 2 2) (mgtTxStatus s m)
        (leAt (m.words.map (leBytes 8)).flatten 16 8) m.domain m.epoch (roomMade 1 (modMsgs 1 (·.drop 1) s)))) ∧
  (∀ (m : ChMsg) (rest : List ChMsg) (w : Bytes) (x : Handle) (k : Nat) (s : State), chMsgs s 1 = m :: rest → mgtTxStatus s m = 0 → w = (m.words.map (leBytes 8)).flatten →
      k = leAt w 4 4 → mfind s.svc.handles k = some x → mgtRuns s = true → ncsiPasses s (beAt x.bytes 0 6) = true →
      ∃ u, exec .mgtTx s = .next (mgtStart (modMgt (fun y => { y with queue := y.queue ++ [(k, x.bytes.take (leAt w 8 2))] }) u)) ∧
        mfind u.svc.owed k = some { kind := 0x13, reply := leAt w 2 2, tag := leAt w 16 8, domain := m.domain, epoch := m.epoch }) ∧
  (∀ (f : Nat × Bytes) (rest : List (Nat × Bytes)) (s : State), s.mgt.sending = true → s.mgt.queue = f :: rest →
      exec .mgtFrameSent s = .next (mgtFinish 0 (bump .MGT_STAT 0 0 1 (emit (.mgtOut ((f.2 ++ List.replicate (60 - f.2.length) 0)
        ++ leBytes 4 (crc32 (f.2 ++ List.replicate (60 - f.2.length) 0)))) s)))) ∧
  (∀ (n wait : Nat) (s : State), mgtHalf s = true → s.mgt.sending = true → n ≤ 512 → s.mgt.attempts + 1 < 16 →
      wait = s.elapsed + bitTime s (Config.freeValue s.free % 2 ^ min (s.mgt.attempts + 1) 10 * 512 + 32) →
      ∃ t, exec (.collision n) s = .next t ∧ t.mgt.sending = false ∧ t.mgt.attempts = s.mgt.attempts + 1 ∧ t.mgt.backoffUntil = some wait ∧
        reg t .MGT_STAT 4 0 = w32 (satAdd 0xFFFFFFFF (reg s .MGT_STAT 4 0).toNat 1)) ∧
  (∀ (n : Nat) (s : State), mgtHalf s = true → s.mgt.sending = true → 512 < n →
      exec (.collision n) s = .next (mgtFinish 0x30 (bump .MGT_STAT 5 0 1 (bump .MGT_STAT 4 0 1 s)))) ∧
  (∀ (at_ : Nat) (s : State), s.mgt.backoffUntil = some at_ →
      exec .backoffExpiry s = .next (mgtStart (modMgt (fun m => { m with backoffUntil := none }) (advanceTo at_ s)))) ∧
  (∀ s : State, s.mgt.carrier = true → mgtHalf s = true → s.mgt.queue ≠ [] →
      exec .mgtCarrierDrop s = .next (mgtStart (advanceTo (s.elapsed + bitTime s 96) (modMgt (fun m => { m with carrier := false }) s)))) ∧
  (∀ s : State, s.mgt.linkUp = false → fastRuns s = true → mgtRmii s = false →
      exec .mgtLinkUp s = .next (raise 0x5 0x01 0 .device (modMgt (fun m => { m with linkUp := true }) s))) ∧
  (∀ s : State, s.mgt.linkUp = true →
      exec .mgtLinkDown s = .next (raise 0x5 0x02 0 .device (mgtFlush (modMgt (fun m => { m with linkUp := false }) s)))) ∧
  (∀ (bytes : Bytes) (s : State), mgtRuns s = true → mgtHalf s = false → ncsiForwards s (beAt bytes 6 6) = true →
      (64 ≤ bytes.length + 4 → bytes.length + 4 ≤ 1522 → exec (.mgtFrameRx bytes false) s = .next (bump .MGT_STAT 2 0 1 s)) ∧
      (64 ≤ bytes.length + 4 → bytes.length + 4 ≤ 1522 → beAt bytes 12 2 ≠ 0x8808 → exec (.mgtFrameRx bytes true) s = .next (mgtDeliver bytes (bump .MGT_STAT 1 0 1 s))) ∧
      (bytes.length + 4 < 64 → exec (.mgtFrameRx bytes true) s = .next (bump .MGT_STAT 3 0 1 s))) ∧
  (∀ (p : Path) (off : Nat) (v c : Word) (s0 s : State), regBar p .MGT_MDIO_CTRL 0 = some off → actsAt p off s0 = true → s = atWork p off s0 →
      mayWrite s (asPath p) .MGT_MDIO_CTRL = true → s.mgt.mdioBusy = false → c = applyWrite .MGT_MDIO_CTRL (reg s .MGT_MDIO_CTRL 0 0) v →
      exec (.mdioStart p v) s0 = .next (emit (.mdioOut c (fld (reg s .MGT_MDIO_DATA 0 0) 15 0))
        (modMgt (fun m => { m with mdioBusy := true, mdioNoAck := false }) (setReg .MGT_MDIO_CTRL 0 0 c s)))) ∧
  (∀ (p : Path) (off : Nat) (v : Word) (s0 s : State), regBar p .MGT_MDIO_CTRL 0 = some off → actsAt p off s0 = true → s = atWork p off s0 →
      s.mgt.mdioBusy = true → exec (.mdioStart p v) s0 = .next s) ∧
  (∀ (data : Option (BitVec 16)) (s : State), s.mgt.mdioBusy = true → mdioReads s = true →
      exec (.mdioDone data) s = .next (setReg .MGT_MDIO_DATA 0 0 (w32 ((data.map BitVec.toNat).getD 0xFFFF))
        (modMgt (fun m => { m with mdioBusy := false, mdioNoAck := data.isNone }) s))) ∧
  (∀ (c : Nat) (s u : State), mgtRmii s = true → ncsiHas s c = true → fastRuns s = true → bitOf (ncsiCh s c).aen 1 = false →
      u = ncsiInstall c (modNcsi c (fun _ => {}) s) →
      exec (.resetChannel c) s = .next (emit (.ncsi c 0 0 []) (raise 0x5 0x04 c .device (ncsiLink (mgtLink s) u)))) ∧
  (∀ (id c : Nat) (pl : Bytes) (s : State), mgtRmii s = true → fastRuns s = true → id / 32 = s.cai.settings.ncsiPackage → c = id % 32 →
      (ncsiHas s c = false → exec (.ncsiCommand id 0 pl) s = .next (emit (.ncsi id 1 2 []) s)) ∧
      (ncsiHas s c = true → exec (.ncsiCommand id 0 pl) s = .next (emit (.ncsi c 0 0 []) (modNcsi c (fun x => { x with initial := false }) s))) ∧
      (ncsiHas s c = true → (ncsiCh s c).initial = true → exec (.ncsiCommand id 3 pl) s = .next (emit (.ncsi c 1 1 []) s)) ∧
      (ncsiHas s c = true → (ncsiCh s c).initial = false →
        exec (.ncsiCommand id 3 pl) s = .next (emit (.ncsi c 0 0 []) (ncsiLink (mgtLink s) (modNcsi c (fun x => { x with enabled := true }) s))))) ∧
  (∀ (id cmd : Nat) (pl : Bytes) (s : State), mgtRmii s = true → fastRuns s = true → id / 32 ≠ s.cai.settings.ncsiPackage → exec (.ncsiCommand id cmd pl) s = .next s)

/-- A microword whose ALU slot holds an operation writes its result, cut to 32 bits, to the destination register, for each of the 14 operations of R236. The word takes no trap, its predicate lets it act, it goes on to the next word, and the engine runs no trap handler. Rests on R234, R236 and R240. -/
def Obligations.MicrowordAlu : Prop :=
  (∀ (k w a b dst : Nat) (e : Engine) (s : State), mfind s.prs.engines k = some e → w = wordAt s e.pc → e.cycles < 64 → e.saved = none → trapOf e w = none →
      predOk e w = true → mw w 191 189 = 0 → mw w 52 49 = 0 → a = greg e (mw w 119 116) → (b = if bitOf w 115 then mw w 114 83 else greg e (mw w 86 83)) →
      dst = mw w 123 120 → dst ≠ 0 → dst < e.g.length →
      (mw w 127 124 = 1 → ∃ t x, exec (.microAdd k) s = .next t ∧ mfind t.prs.engines k = some x ∧ greg x dst = (a + b) % 2 ^ 32 ∧ x.pc = (e.pc + 1) % 8192) ∧
      (mw w 127 124 = 2 → ∃ t x, exec (.microSub k) s = .next t ∧ mfind t.prs.engines k = some x ∧ greg x dst = (BitVec.ofNat 32 a - BitVec.ofNat 32 b).toNat ∧ x.pc = (e.pc + 1) % 8192) ∧
      (mw w 127 124 = 3 → ∃ t x, exec (.microAnd k) s = .next t ∧ mfind t.prs.engines k = some x ∧ greg x dst = (a &&& b) % 2 ^ 32 ∧ x.pc = (e.pc + 1) % 8192) ∧
      (mw w 127 124 = 4 → ∃ t x, exec (.microOr k) s = .next t ∧ mfind t.prs.engines k = some x ∧ greg x dst = (a ||| b) % 2 ^ 32 ∧ x.pc = (e.pc + 1) % 8192) ∧
      (mw w 127 124 = 5 → ∃ t x, exec (.microXor k) s = .next t ∧ mfind t.prs.engines k = some x ∧ greg x dst = (a ^^^ b) % 2 ^ 32 ∧ x.pc = (e.pc + 1) % 8192) ∧
      (mw w 127 124 = 6 → ∃ t x, exec (.microShl k) s = .next t ∧ mfind t.prs.engines k = some x ∧ greg x dst = a * 2 ^ (b % 32) % 2 ^ 32 ∧ x.pc = (e.pc + 1) % 8192) ∧
      (mw w 127 124 = 7 → ∃ t x, exec (.microShr k) s = .next t ∧ mfind t.prs.engines k = some x ∧ greg x dst = a / 2 ^ (b % 32) % 2 ^ 32 ∧ x.pc = (e.pc + 1) % 8192) ∧
      (mw w 127 124 = 8 → ∃ t x, exec (.microMov k) s = .next t ∧ mfind t.prs.engines k = some x ∧ greg x dst = b % 2 ^ 32 ∧ x.pc = (e.pc + 1) % 8192) ∧
      (mw w 127 124 = 9 → ∃ t x, exec (.microBfx k) s = .next t ∧ mfind t.prs.engines k = some x ∧
        greg x dst = a / 2 ^ (b % 32) % 2 ^ (if bits b 9 5 = 0 then 32 else bits b 9 5) % 2 ^ 32 ∧ x.pc = (e.pc + 1) % 8192) ∧
      (mw w 127 124 = 10 → ∃ t x, exec (.microSeq k) s = .next t ∧ mfind t.prs.engines k = some x ∧ greg x dst = (if a = b then 1 else 0) ∧ x.pc = (e.pc + 1) % 8192) ∧
      (mw w 127 124 = 11 → ∃ t x, exec (.microSlt k) s = .next t ∧ mfind t.prs.engines k = some x ∧ greg x dst = (if a < b then 1 else 0) ∧ x.pc = (e.pc + 1) % 8192) ∧
      (mw w 127 124 = 12 → ∃ t x, exec (.microMin k) s = .next t ∧ mfind t.prs.engines k = some x ∧ greg x dst = min a b % 2 ^ 32 ∧ x.pc = (e.pc + 1) % 8192) ∧
      (mw w 127 124 = 13 → ∃ t x, exec (.microMax k) s = .next t ∧ mfind t.prs.engines k = some x ∧ greg x dst = max a b % 2 ^ 32 ∧ x.pc = (e.pc + 1) % 8192) ∧
      (mw w 127 124 = 14 → ∃ t x, exec (.microCsum k) s = .next t ∧ mfind t.prs.engines k = some x ∧
        greg x dst = fold16 (a / 65536 + a % 65536 + b / 65536 + b % 65536) % 2 ^ 32 ∧ x.pc = (e.pc + 1) % 8192)) ∧
  (∀ (q : Nat × Instr) (k w : Nat) (e : Engine) (s : State), q ∈ [(1, Instr.microAdd k), (2, .microSub k), (3, .microAnd k), (4, .microOr k), (5, .microXor k), (6, .microShl k), (7, .microShr k), (8, .microMov k), (9, .microBfx k), (10, .microSeq k), (11, .microSlt k), (12, .microMin k), (13, .microMax k), (14, .microCsum k)] →
      mfind s.prs.engines k = some e → w = wordAt s e.pc → e.cycles < 64 → e.saved = none → trapOf e w = none →
      mw w 191 189 = 0 → mw w 52 49 = 0 → mw w 127 124 = q.1 → (predOk e w = false ∨ (mw w 123 120 = 0 ∧ bitOf w 143 = false)) →
      ∃ t x, exec q.2 s = .next t ∧ mfind t.prs.engines k = some x ∧ x.g = e.g ∧ x.pc = (e.pc + 1) % 8192 ∧ x.cycles = e.cycles + 1)

/-- What a microword's branch and its AUX slot make of its engine, where the word takes no trap and the engine runs no trap handler; what a trap and RESUME do; and the end of a parse by END or by the budget. Rests on R234, R235, R238, R240, R242, R243, R244 and R249. -/
def Obligations.MicrowordBranchesAndSlots : Prop :=
  (∀ (k w : Nat) (e : Engine) (s : State), mfind s.prs.engines k = some e → w = wordAt s e.pc → e.cycles < 64 → e.saved = none → trapOf e w = none →
      (mw w 191 189 = 0 → ∃ t x, exec (.microNext k) s = .next t ∧ mfind t.prs.engines k = some x ∧ x.pc = (e.pc + 1) % 8192 ∧ x.depth = e.depth) ∧
      (mw w 191 189 = 1 → ∃ t x, exec (.microJump k) s = .next t ∧ mfind t.prs.engines k = some x ∧ x.pc = mw w 180 168 ∧ x.depth = e.depth) ∧
      (mw w 191 189 = 2 → ∃ t x, exec (.microJz k) s = .next t ∧ mfind t.prs.engines k = some x ∧
        x.pc = if greg e (mw w 188 185) = 0 then mw w 180 168 else (e.pc + 1) % 8192) ∧
      (mw w 191 189 = 3 → ∃ t x, exec (.microJnz k) s = .next t ∧ mfind t.prs.engines k = some x ∧
        x.pc = if greg e (mw w 188 185) ≠ 0 then mw w 180 168 else (e.pc + 1) % 8192) ∧
      (mw w 191 189 = 4 → ∃ t x, exec (.microMatch k) s = .next t ∧ mfind t.prs.engines k = some x ∧ x.pc = matchTarget s e w) ∧
      (mw w 191 189 = 5 → ∃ t x, exec (.microCall k) s = .next t ∧ mfind t.prs.engines k = some x ∧ x.pc = mw w 180 168 ∧
        x.stack = e.stack.set e.depth ((e.pc + 1) % 8192) ∧ x.depth = e.depth + 1) ∧
      (mw w 191 189 = 6 → ∃ t x, exec (.microRet k) s = .next t ∧ mfind t.prs.engines k = some x ∧ x.pc = e.stack.getD (e.depth - 1) 0 ∧
        x.depth = e.depth - 1)) ∧
  (∀ (k w : Nat) (e : Engine) (s : State), mfind s.prs.engines k = some e → w = wordAt s e.pc → e.cycles < 64 → e.saved = none → trapOf e w = none →
      predOk e w = false → mw w 191 189 = 7 →
      exec (.microEnd k) s = .next (endParse k { e with cycles := e.cycles + wordCycles w } (mw w 184 181) (mw w 175 168) s)) ∧
  (∀ (k w : Nat) (e : Engine) (s : State), mfind s.prs.engines k = some e → w = wordAt s e.pc → e.cycles < 64 → e.saved = none → trapOf e w = none →
      predOk e w = true → mw w 191 189 = 0 → bitOf w 167 = false → bitOf w 44 = false → bitOf w 82 = false →
      (mw w 52 49 = 1 → ∃ t x, exec (.microMark k) s = .next t ∧ mfind t.prs.engines k = some x ∧ x.marks = e.marks.set (mw w 47 45) e.cursor ∧
        x.marked = e.marked ||| 2 ^ mw w 47 45) ∧
      (mw w 52 49 = 2 → ∃ t x, exec (.microFrag k) s = .next t ∧ mfind t.prs.engines k = some x ∧ x.fragResult = (fragTable e (mw w 48 45 == 1) s).1 ∧
        x.cycles = e.cycles + 8) ∧
      (mw w 52 49 = 3 → ∃ t x, exec (.microHashreg k) s = .next t ∧ mfind t.prs.engines k = some x ∧
        x.fed = (e.fed ++ beBytes 4 (greg e (mw w 48 45))).take 64) ∧
      (mw w 52 49 = 6 → ∃ t x, exec (.microHashrst k) s = .next t ∧ mfind t.prs.engines k = some x ∧ x.fed = [])) ∧
  (∀ (k w : Nat) (e : Engine) (s : State), mfind s.prs.engines k = some e → w = wordAt s e.pc → e.cycles < 64 → e.saved = none →
      trapOf e w = some (3, mw w 48 45) → mw w 52 49 = 4 → 16 ≤ e.g.length →
      ∃ t x, exec (.microTrap k) s = .next t ∧ mfind t.prs.engines k = some x ∧ x.pc = 3 ∧ greg x 15 = e.pc % 2 ^ 32 ∧
        greg x 14 = (3 + at_ 8 (mw w 48 45 % 65536)) % 2 ^ 32 ∧ x.saved = some (e.pc, e.cursor, e.depth, greg e 14, greg e 15) ∧ x.traps = e.traps + 1) ∧
  (∀ (k w : Nat) (e : Engine) (sv : Nat × Nat × Nat × Nat × Nat) (s : State), mfind s.prs.engines k = some e → w = wordAt s e.pc → e.cycles < 64 →
      e.saved = some sv → trapOf e w = none → predOk e w = true → mw w 52 49 = 5 →
      ∃ t x, exec (.microResume k) s = .next t ∧ mfind t.prs.engines k = some x ∧ x.saved = none ∧ x.cursor = sv.2.1 ∧ x.depth = sv.2.2.1 ∧
        x.pc = if mw w 48 45 = 0 then sv.1 else (sv.1 + 1) % 8192) ∧
  (∀ (k : Nat) (e : Engine) (s : State), mfind s.prs.engines k = some e → 64 ≤ e.cycles →
      exec (.microBudget k) s = .next (endParse k e 1 0x80 (noteCount e.frame 3 (raise 0x6 0x03 e.entry .device s))))

/-- Dispatch to an engine and the cases in which a frame is not parsed (R187, R228, R241), the end of a received frame (R18), the expiry of a fragment entry (R250), parity errors (R255), a program image's load (R252 to R254) and writes of the indirection tables (R256). Rests on R18, R187, R228, R241, R250, R252, R253, R254, R255, R256 and R257. -/
def Obligations.ParserDispatchAndStores : Prop :=
  (∀ (set way : Nat) (s : State) (x : Frag), mfind s.prs.frags (set * 4 + way) = some x →
      ∃ t, exec (.fragEntryExpiry set way) s = .next t ∧ t.prs.frags = mdel s.prs.frags (set * 4 + way)) ∧
  (∀ (id k pc e : Nat) (f g : Frame) (s s1 : State), frameOf s id = some f → f.stage = .waiting → f.waitCells = false → fastRuns s = true → dispatchHeld s = false →
      nextToParse s id f = true → g = seeBindings s f → s1 = modFrame id (fun _ => g) s →
      (g.origin.isSome = true → g.vport = 0xFFFF → exec (.parseDispatch id k) s = .next (dropFrame id 0x05 s1)) ∧
      ((g.origin.isSome = false ∨ g.vport ≠ 0xFFFF) →
        (kindGone s1 0 = true → exec (.parseDispatch id k) s = .next (handOver (dropUnparsed id 3 g s1))) ∧
        (kindGone s1 0 = false → spoofed s1 g = true →
          exec (.parseDispatch id k) s = .next (dropFrame id 0x05 (vportStat g.vport 5 g.bytes.length s1))) ∧
        (kindGone s1 0 = false → spoofed s1 g = false → entryOf s1 g = none →
          exec (.parseDispatch id k) s = .next (handOver (dropUnparsed id 2 g s1))) ∧
        (kindGone s1 0 = false → spoofed s1 g = false → entryOf s1 g = some (e, pc) → engineFree s1 g k = true →
          ∃ t, exec (.parseDispatch id k) s = .next t ∧ mfind t.prs.engines k = some (freshEngine s1 id g e pc) ∧
            frameOf t id = some { g with stage := .parsing, prsCounts := [] }))) ∧
  (∀ (id : Nat) (f : Frame) (s : State), frameOf s id = some f → f.ended = false → f.ingress % 8 = 0 →
      (f.fcs = crc32 f.asEntered → exec (.frameEnd id) s =
        .next (handOver (modFrame id (fun f => { f with ended := true }) (lpCount (f.ingress / 16) 1 (f.asEntered.length + 4) (lpCount (f.ingress / 16) 0 1 s))))) ∧
      (f.fcs ≠ crc32 f.asEntered → exec (.frameEnd id) s = .next (badFrame id f s))) ∧
  (∀ (k : Nat) (store : Bool) (e : Engine) (s : State), mfind s.prs.engines k = some e →
      ∃ t, exec (.parityError k store) s = .next t ∧
        t = countFault 0 (k / 2) 0 false (modFrame e.frame (fun f => { f with stage := .waiting, notPair := some (k / 2), prsCounts := [] })
          (modPrs (fun x => { x with engines := mdel x.engines k, rewriting := if store && !x.rewriting.contains (k / 2) then (k / 2) :: x.rewriting else x.rewriting }) s))) ∧
  (∀ (p : Nat) (poisoned : List Nat) (s : State), s.prs.rewriting.contains p = true →
      (lineSource s p poisoned = true → ∃ t, exec (.pairLineRewritten ⟨p, poisoned⟩) s = .next t ∧ t.prs.rewriting = s.prs.rewriting.filter (· != p) ∧
        t.prs.engines = s.prs.engines ∧ t.prs.golden = (if poisoned.contains 0 && poisoned.contains 1 then [s.prs.image, s.prs.image] else s.prs.golden)) ∧
      (lineSource s p poisoned = false → exec (.pairLineRewritten ⟨p, poisoned⟩) s = .next s)) ∧
  (∀ (p : Path) (off : Nat) (s0 s : State), regBar p .PRS_LOAD_CTRL 0 = some off → actsAt p off s0 = true → s = atWork p off s0 →
      mayWrite s (asPath p) .PRS_LOAD_CTRL = true →
      (s.prs.loading.isSome = true → exec (.prsLoadStart p) s0 = .next s) ∧
      (s.prs.loading = none → dispatchHeld s = false → exec (.prsLoadStart p) s0 = .next (modPrs (fun p => { p with loadResult := 1 }) s)) ∧
      (∀ bs : Bytes, dispatchHeld s = true → s.prs.loading = none →
        bs = devRead s (pair64 s .PRS_LOAD_ADDR_LO .PRS_LOAD_ADDR_HI 0 0)
          (min 199056 (leNat (devRead s (pair64 s .PRS_LOAD_ADDR_LO .PRS_LOAD_ADDR_HI 0 0 + 8) 4))) →
        (prsFormOk bs = false → exec (.prsLoadStart p) s0 = .next (loadFail 2 s)) ∧
        (prsFormOk bs = true →
          if imageKeyHash s = some (sha384 (ownerKey s)) ∧ prsSigOk (ownerKey s) bs = true then
            exec (.prsLoadStart p) s0 = .next (foldS startForLoad (activeUnits s 0)
              (modPrs (fun p => { p with loading := some (prsImageOf bs), golden := [prsImageOf bs, prsImageOf bs], loadResult := 4 }) s))
          else exec (.prsLoadStart p) s0 = .next (loadFail 3 s)))) ∧
  (∀ (i : PrsImage) (s : State), s.prs.loading = some i →
      ∃ t, exec (.loadDone []) s = .next t ∧ t.prs.image = i ∧ t.prs.loaded = true ∧ t.prs.loading = none ∧ t.prs.loadResult = 0) ∧
  (∀ (p : Path) (off t : Nat) (v sel : Word) (s0 s : State) (en : Bool), regBar p (if en then .PRS_IND_ENTRY else .PRS_IND_CFG) 0 = some off → actsAt p off s0 = true →
      s = atWork p off s0 → mayWrite s (asPath p) .PRS_IND_CFG = true → sel = reg s .PRS_IND_SELECT 0 (pathCode (asPath p)) → t = fld sel 9 0 →
      (indOwns s (asPath p) (fld (indTable s t).cfg 11 0) = false → exec (.prsIndWrite p en v) s0 = .next s) ∧
      (indOwns s (asPath p) (fld (indTable s t).cfg 11 0) = true → en = true →
        ∃ u, exec (.prsIndWrite p en v) s0 = .next u ∧ u.prs.ind = mmod {} s.prs.ind t (fun x => { x with
          targets := mset 0 x.targets (fld sel 19 19 * 512 + fld sel 18 10 % 512) (fld v 23 0) })) ∧
      (indOwns s (asPath p) (fld (indTable s t).cfg 11 0) = true → en = false → indOwns s (asPath p) (fld (applyWrite .PRS_IND_CFG (indTable s t).cfg v) 11 0) = true →
        fld (applyWrite .PRS_IND_CFG (indTable s t).cfg v) 15 12 ≤ 9 →
        ∃ u, exec (.prsIndWrite p en v) s0 = .next u ∧ u.prs.ind = mmod {} s.prs.ind t (fun x => { x with cfg := applyWrite .PRS_IND_CFG (indTable s t).cfg v })))

/-- A frame's table program begins at step 0 of the program that its header vector names, in the active bank; a step of each kind, with its key, ends in a hit (which contributes the entry's list and loads the context) or a miss (R258 to R261, R267, R268, R276 to R279). Rests on R258, R259, R260, R261, R267, R268, R276, R278, R279 and R285. -/
def Obligations.TableProgramsAndSteps : Prop :=
  (∀ (id i : Nat) (key e : Bytes) (f : Frame) (s : State), frameOf s id = some f → f.stage = .table → f.begun = true → forwards s = true → stKind (frameStep s f) = 1 →
      padded 2 (joined f (frameStep s f)) = some key → i = beNat key → e = stored s 3 i →
      (i < 4096 → bitOf (byteAt e 6) 0 = true → exec (.vportStep id) s =
        .next (hit id (if bitOf (byteAt e 15) 7 then none else actionList s (leAt e 12 3))
          (fun c => { c with srcVport := i, vsi := leAt e 2 2, vrf := leAt e 4 2, user := leAt e 16 8 }) s)) ∧
      ((4096 ≤ i ∨ bitOf (byteAt e 6) 0 = false) → exec (.vportStep id) s = .next (leave id false s))) ∧
  (∀ (id i : Nat) (key e : Bytes) (f : Frame) (s : State), frameOf s id = some f → f.stage = .table → f.begun = true → forwards s = true → stKind (frameStep s f) = 2 →
      padded 26 (joined f (frameStep s f)) = some key → i = beAt key 0 2 → e = stored s 4 i →
      (byteAt e 0 % 4 = 3 → slice e 8 24 = slice key 2 24 → exec (.tunnelStep id) s =
        .next (hit id none (fun c => { c with tunnel := i, vsi := leAt e 4 2 }) s)) ∧
      ((byteAt e 0 % 4 ≠ 3 ∨ slice e 8 24 ≠ slice key 2 24) → exec (.tunnelStep id) s = .next (leave id false s))) ∧
  (∀ (id i b : Nat) (key : Bytes) (f : Frame) (s r : State), frameOf s id = some f → f.stage = .table → f.begun = true → forwards s = true → stKind (frameStep s f) = 3 →
      padded 47 (joined f (frameStep s f)) = some key → b = bankOfKey s false (BitVec.ofNat 8 (stSelect (frameStep s f)) :: key) →
      r = modFrame id (fun f => { f with retry := [] }) s →
      (findKey s false (BitVec.ofNat 8 (stSelect (frameStep s f)) :: key) = none →
        ((moveRegOf s b).active = false → exec (.flowStep id) s = .next (leave id false r)) ∧
        ((moveRegOf s b).active = true → exec (.flowStep id) s = .next (modFrame id (fun f => { f with retry := [b] }) s))) ∧
      (∀ e, findKey s false (BitVec.ofNat 8 (stSelect (frameStep s f)) :: key) = some i → flowAt s i = some e →
        (flowFlag e 1 = true → exec (.flowStep id) s = .next (toChannel id (missChannel s f) 0x98 1 (some i) (setHit i r))) ∧
        (flowFlag e 1 = false → exec (.flowStep id) s = .next (hit id (some (listOf (slice e 64 64))) (fun c => c) (setHit i r))))) ∧
  (∀ (id : Nat) (a : Bytes) (f : Frame) (s r : State), frameOf s id = some f → f.stage = .table → f.begun = true → forwards s = true → stKind (frameStep s f) = 4 →
      joined f (frameStep s f) = some a → r = modFrame id (fun f => { f with retry := [] }) s →
      ((stCount (frameStep s f) ≠ 1 ∨ (a.length ≠ 4 ∧ a.length ≠ 16)) → exec (.lpmStep id) s = .next (leave id false s)) ∧
      (stCount (frameStep s f) = 1 → (a.length = 4 ∨ a.length = 16) →
        ((missedBanks s f.ctx.vrf (b2n (a.length == 16)) (slice a 0 16)).any (fun b => (moveRegOf s b).active) = true → exec (.lpmStep id) s =
          .next (modFrame id (fun g => { g with retry := missedBanks s f.ctx.vrf (b2n (a.length == 16)) (slice a 0 16) }) s)) ∧
        ((missedBanks s f.ctx.vrf (b2n (a.length == 16)) (slice a 0 16)).any (fun b => (moveRegOf s b).active) = false →
          (∀ e, lookupRoute r f.ctx.vrf (b2n (a.length == 16)) (slice a 0 16) = some e →
            exec (.lpmStep id) s = .next (hit id (actionList r (leAt e 20 3)) (fun c => c) r)) ∧
          (lookupRoute r f.ctx.vrf (b2n (a.length == 16)) (slice a 0 16) = none → exec (.lpmStep id) s = .next (leave id false r))))) ∧
  (∀ (id : Nat) (key : Bytes) (f : Frame) (s : State), frameOf s id = some f → f.stage = .table → f.begun = true → forwards s = true → stKind (frameStep s f) = 5 →
      padded 40 (joined f (frameStep s f)) = some key →
      (∀ e, aclMatch s (stSelect (frameStep s f) % 64) key = some e → exec (.aclStep id) s = .next (hit id (actionList s (leAt e 84 3)) (fun c => c) s)) ∧
      (aclMatch s (stSelect (frameStep s f) % 64) key = none → exec (.aclStep id) s = .next (leave id false s))) ∧
  (∀ (id : Nat) (f : Frame) (s : State), frameOf s id = some f → f.stage = .table → f.begun = false → forwards s = true → blockWaits s 7 = false →
      kindGone s 6 = false → unitDead s 0x700 = false →
      (f.flowIndex = none → wbit (reg s .TBL_PROG_MISS (byteAt f.hv 58) 0) 31 = true → exec (.tableProgram id) s =
        .next (arrive id 0 (modFrame id (fun g => { g with begun := true, bank := dfld s .TBL_PROG_CTRL 0 0, program := byteAt f.hv 58, ctx := { srcVport := leAt g.hv 2 2 } }) s))) ∧
      (f.flowIndex = none → wbit (reg s .TBL_PROG_MISS (byteAt f.hv 58) 0) 31 = false → exec (.tableProgram id) s =
        .next (dropFrame id 0x05 (bump .PRS_STAT 0 0 1 s))) ∧
      (∀ i e, f.flowIndex = some i → flowAt s i = some e → exec (.tableProgram id) s =
        .next (toActions id (modFrame id (fun f => { f with begun := true, ctx := { srcVport := leAt f.hv 2 2 }, lists := [listOf (slice e 64 64)] }) s)))) ∧
  (∀ (id : Nat) (f : Frame) (s : State), frameOf s id = some f → f.stage = .table → f.begun = false → forwards s = true → blockWaits s 7 = false →
      (kindGone s 6 = true ∨ unitDead s 0x700 = true) → exec (.tableProgram id) s = .next (prsGone id f s))

/-- A frame whose list may go on takes the next entry of its first open contribution; where fewer than 32 have been executed the entry acts by its OP and the list goes on after it (R264, R265), and the 33rd ends the list. One clause says what each entry's own operation does. Rests on R264, R265, R266, R268, R280, R281, R306, R307, R334, R335 and R207. -/
def Obligations.ActionEntries : Prop :=
  (∀ (id w : Nat) (rest : List Nat) (more : List (List Nat)) (f : Frame) (s u : State), frameOf s id = some f → mayAct s id f = true →
      openLists f = (w :: rest) :: more → f.executed < 32 →
      u = modFrame id (fun f => { f with executed := f.executed + 1, lists := rest :: more }) s →
      (w % 256 = 0x00 → exec (.actEnd id) s = .next (afterEntry id (modFrame id (fun f => { f with lists := f.lists.drop 1 }) u))) ∧
      (w % 256 = 0x01 → exec (.actNop id) s = .next (afterEntry id u)) ∧
      (w % 256 = 0x02 → exec (.actDrop id) s = .next (afterEntry id (endList id u))) ∧
      (w % 256 = 0x03 → exec (.actChain id) s = .next (afterEntry id (actChain id w u))) ∧
      (w % 256 = 0x08 → exec (.actDecap id) s = .next (afterEntry id (actDecap id w f u))) ∧
      (w % 256 = 0x09 → exec (.actEncap id) s = .next (afterEntry id (actEncap id w f u))) ∧
      (w % 256 = 0x0A → exec (.actRewrite id) s = .next (afterEntry id (actRewrite id w f u))) ∧
      (w % 256 = 0x0B → exec (.actDecTtl id) s = .next (afterEntry id (actDecTtl id w f u))) ∧
      (w % 256 = 0x0C → exec (.actVlanPush id) s = .next (afterEntry id (insertBytes id 12 (tagBytes (bitOf w 24) (bits w 23 8)) u))) ∧
      (w % 256 = 0x0D → exec (.actVlanPop id) s = .next (afterEntry id (if (tagTci f.bytes).isSome then modFrame id (removeAt 12 16) u else u))) ∧
      (w % 256 = 0x10 → exec (.actMeter id) s = .next (afterEntry id (actMeter id w f u))) ∧
      (w % 256 = 0x11 → exec (.actCount id) s = .next (afterEntry id (countAt (bits w 29 8) f.bytes.length u))) ∧
      (w % 256 = 0x12 → exec (.actSetClass id) s = .next (afterEntry id (modFrame id (fun f => { f with cls := some (bits w 10 8) }) u))) ∧
      (w % 256 = 0x20 → exec (.actDeliverVport id) s = .next (afterEntry id (makeCopy id w f.bytes u))) ∧
      (w % 256 = 0x21 → exec (.actDeliverQueue id) s = .next (afterEntry id (makeCopy id w f.bytes u))) ∧
      (w % 256 = 0x22 → exec (.actDeliverInd id) s = .next (afterEntry id (makeCopy id w f.bytes u))) ∧
      (w % 256 = 0x23 → exec (.actDeliverPort id) s = .next (afterEntry id (makeCopy id w f.bytes u))) ∧
      (w % 256 = 0x24 → exec (.actDeliverChannel id) s = .next (afterEntry id (makeCopy id w f.bytes u))) ∧
      (w % 256 = 0x25 → exec (.actDeliverAkzal id) s = .next (afterEntry id (makeCopy id w f.bytes u))) ∧
      (w % 256 = 0x28 → exec (.actMirror id) s = .next (afterEntry id (actMirror id w f u))) ∧
      (w % 256 = 0x30 → exec (.actLearn id) s = .next (afterEntry id (actLearn w f u))) ∧
      (w % 256 = 0x31 → exec (.actTsInsert id) s = .next (afterEntry id (modFrame id (fun f => { f with tsInsert := some (bits w 15 8, bits w 16 16, bits w 18 17) }) u)))) ∧
  (∀ (id w k : Nat) (en : Bool) (rest : List Nat) (more : List (List Nat)) (f : Frame) (s : State), frameOf s id = some f → mayAct s id f = true →
      openLists f = (w :: rest) :: more → f.executed < 32 → w % 256 = (if en then 0x18 else 0x19) → k = bits w 27 8 →
      (cipherMarks s w f = none → exec (if en then .actEncrypt id else .actDecrypt id) s =
        .next (afterEntry id (actCipher en id w f (modFrame id (fun f => { f with executed := f.executed + 1, lists := rest :: more }) s)))) ∧
      ((cipherMarks s w f).isSome = true →
        (s.cry.cache.contains k = true → exec (if en then .actEncrypt id else .actDecrypt id) s =
          .next (afterEntry id (actCipher en id w f (modFrame id (fun f => { f with executed := f.executed + 1, lists := rest :: more }) (bump .CRY_CACHE_HIT 0 0 1 s))))) ∧
        (s.cry.cache.contains k = false → s.cry.fetching.contains k = true → exec (if en then .actEncrypt id else .actDecrypt id) s = .next s) ∧
        (s.cry.cache.contains k = false → s.cry.fetching.contains k = false → exec (if en then .actEncrypt id else .actDecrypt id) s =
          .next (modCry (fun c => { c with fetching := c.fetching ++ [k] }) (bump .CRY_CACHE_MISS 0 0 1 s))))) ∧
  (∀ (id : Nat) (f : Frame) (s : State), frameOf s id = some f →
      (f.stage = .finished → exec (.actionList id) s = .next (letStand id s)) ∧
      (mayAct s id f = true → openLists f = [] → exec (.actionList id) s = .next (endList id (if f.copies = 0 then tblStat 1 s else s))) ∧
      (∀ w rest more, mayAct s id f = true → openLists f = (w :: rest) :: more →
        (f.executed < 32 → ((acOp w == 0x18 || acOp w == 0x19) && (cipherMarks s w f).isSome) = false → exec (.actionList id) s =
          .next (afterEntry id (actEntry id w f (modFrame id (fun f => { f with executed := f.executed + 1, lists := rest :: more }) s)))) ∧
        (32 ≤ f.executed → exec (.actionList id) s = .next (endList id (tblStat 2 s))))) ∧
  (∀ (id w m : Nat) (f : Frame) (u : State), markAt f (bits w 10 8) = some m →
      actDecap id w f u = modFrame id (removeAt 0 m) u ∧
      (m + bits w 19 11 + bits w 21 20 + 1 ≤ min 512 f.bytes.length → actRewrite id w f u =
        modFrame id (fun f => { f with bytes := overwrite f.bytes (m + bits w 19 11) (beBytes (bits w 21 20 + 1) (bits w 63 32)) }) u) ∧
      (ipVersion f.bytes m = 4 → m + 12 ≤ f.bytes.length → 1 < byteAt f.bytes (m + 8) → actDecTtl id w f u =
        modFrame id (fun f => { f with bytes := lowerTtl f.bytes m }) u) ∧
      (ipVersion f.bytes m = 6 → m + 12 ≤ f.bytes.length → 1 < byteAt f.bytes (m + 7) → actDecTtl id w f u =
        modFrame id (fun f => { f with bytes := lowerTtl f.bytes m }) u) ∧
      (∀ l, actionList u (bits w 31 8) = some l → actChain id w u = modFrame id (fun f => { f with lists := l :: f.lists.drop 1 }) u))

/-- The oldest learn request takes effect in order (R282): insertion of a new key, a counted refusal where the VSI's limit is reached, a confirmation, a candidate and a move. An aging visit clears HIT, counts the visit or removes the entry (R284). A meter is written and read through its path's selection (R305, R319). The first visit of an entry may come at any phase of its period (the model's choice, NOTES.md), each later one when the visit before said. Rests on R270, R281, R282, R283, R284, R285, R305, R306 and R319. -/
def Obligations.LearningAgingAndMeters : Prop :=
  (∀ (l : Learn) (rest : List Learn) (v key : Bytes) (s : State), s.tbl.learnQ = l :: rest → v = vsiOf s l.vsi → key = learnKey (byteAt v 1) l →
      bankBusy s (bankOfKey s false key) = false →
      (bitOf (byteAt v 0) 0 = true → bitOf (byteAt v 0) 1 = true →
        (findKey (modTbl (fun t => { t with learnQ := rest }) s) false key = none → exec .learnRequest s =
          .next (learnNew v key l (modTbl (fun t => { t with learnQ := rest }) s))) ∧
        (∀ i e, findKey (modTbl (fun t => { t with learnQ := rest }) s) false key = some i → flowAt s i = some e → exec .learnRequest s =
          .next (learnSeen v i e l (modTbl (fun t => { t with learnQ := rest }) s)))) ∧
      ((bitOf (byteAt v 0) 0 = false ∨ bitOf (byteAt v 0) 1 = false) → exec .learnRequest s = .next (modTbl (fun t => { t with learnQ := rest }) s))) ∧
  (∀ (l : Learn) (i : Nat) (v e : Bytes) (s : State), mfind s.tbl.locks i = none → flowFlag e 2 = true → (bitOf (flowOwner e) 15 = true ∨ vportFrozen s (flowOwner e) = false) →
      (entryVport e = some l.vport → learnSeen v i e l s = writeFlow i (confirmed e) s) ∧
      (entryVport e ≠ some l.vport → (candValid e = false ∨ candVport e ≠ l.vport) →
        learnSeen v i e l s = writeFlow i (overwrite e 56 (leBytes 2 (l.vport + 0x8000) ++ leBytes 6 (l.ts / 1024))) s) ∧
      (entryVport e ≠ some l.vport → candValid e = true → candVport e = l.vport → l.ts < candSince e + moveHold v → learnSeen v i e l s = s)) ∧
  (∀ (i v : Nat) (e : Bytes) (s s1 s2 : State), flowAt s i = some e → v = agePeriod s (byteAt e 49 % 8) → v ≠ 0 → bankBusy s (bankOfKey s false (flowKey e)) = false →
      mfind s.tbl.locks i = none → (bitOf (flowOwner e) 15 = true ∨ vportFrozen s (flowOwner e) = false) →
      s1 = (match mfind s.tbl.visits i with | some due => advanceTo due s | none => s) →
      s2 = modTbl (fun t => { t with visits := mput t.visits i (s1.elapsed + v) }) s1 →
      (bitOf (byteAt e 49) 3 = true → exec (.ageVisit i) s = .next (writeFlow i (overwrite e 49 [BitVec.ofNat 8 (byteAt e 49 % 8)]) s2)) ∧
      (bitOf (byteAt e 49) 3 = false → bitOf (byteAt e 49) 4 = false → exec (.ageVisit i) s =
        .next (writeFlow i (overwrite e 49 [BitVec.ofNat 8 (byteAt e 49 + 16)]) s2)) ∧
      (bitOf (byteAt e 49) 3 = false → bitOf (byteAt e 49) 4 = true → exec (.ageVisit i) s =
        .next (notifyFlow 3 i e 0 ((entryVport e).getD 0) (tblStat 10 (removeFlow i s2))))) ∧
  (∀ (p : Path) (off i r : Nat) (s0 s : State), regBar p .TM_METER_CTRL 0 = some off → actsAt p off s0 = true → s = atWork p off s0 →
      mayWrite s (asPath p) .TM_METER_CTRL = true → i = selectedMeter s (asPath p) → r = meterData s (asPath p) →
      (meterOwns s (asPath p) (mtOwner (meterOf s i)) = true → meterOwns s (asPath p) (bits r 31 16) = true →
        (meterOk r = true → ∃ t, exec (.meterWrite p) s0 = .next t ∧ t.tm.meters = mset {} s.tm.meters i (meterFrom s.elapsed r) ∧
          reg t .TM_METER_STATUS 0 (pathCode (asPath p)) = 0) ∧
        (meterOk r = false → ∃ t, exec (.meterWrite p) s0 = .next t ∧ t.tm.meters = s.tm.meters ∧ reg t .TM_METER_STATUS 0 (pathCode (asPath p)) = 2)) ∧
      ((meterOwns s (asPath p) (mtOwner (meterOf s i)) = false ∨ meterOwns s (asPath p) (bits r 31 16) = false) →
        ∃ t, exec (.meterWrite p) s0 = .next t ∧ t.tm.meters = s.tm.meters ∧ reg t .TM_METER_STATUS 0 (pathCode (asPath p)) = 1)) ∧
  (∀ (p : Path) (off i : Nat) (s0 s : State), regBar p .TM_METER_CTRL 0 = some off → actsAt p off s0 = true → s = atWork p off s0 →
      mayWrite s (asPath p) .TM_METER_CTRL = true → i = selectedMeter s (asPath p) →
      (meterOwns s (asPath p) (mtOwner (meterOf s i)) = true → exec (.meterRead p) s0 =
        .next (setReg .TM_METER_STATUS 0 (pathCode (asPath p)) 0 (foldS (fun j u => setReg .TM_METER_DATA j (pathCode (asPath p))
          (w32 (meterRecord s.elapsed (meterOf s i) / 2 ^ (32 * j))) u) (List.range 8) s))) ∧
      (meterOwns s (asPath p) (mtOwner (meterOf s i)) = false → exec (.meterRead p) s0 = .next (setReg .TM_METER_STATUS 0 (pathCode (asPath p)) 1 s)))

/-- The oldest TABLE-class entry of a queue, its record read and the operation before it ended, completes as R286 to R290 say: success with DONE, NOT_FOUND or EXISTS, or the status that refuses it. Index of an absent entry in RESULT is a free value (assumption 1), and the order of the refusals is the model's reading (assumption 88). Rests on R270, R272, R280, R286, R287, R288, R289 and R290. -/
def Obligations.TableOperations : Prop :=
  (∀ (f : Fn) (q i : Nat) (w : Work) (bs e : Bytes) (s : State), nextWork s f q 3 1 = some w → (queue s f q).work.any (fun x => x.cls == 3 && x.started && x.done.isNone) = false →
      readsOf w = some (bs, 0) → opTable w = 0 → e = flowRecord (isVf f) bs →
      ((flowFlag e 0 = false ∨ (listOf (slice e 64 64)).all actionOk = false) → exec (.tblInsert f q) s = .next (tblFail f q w 0x01 s)) ∧
      (flowFlag e 0 = true → (listOf (slice e 64 64)).all actionOk = true → flowRights s f e = false → exec (.tblInsert f q) s = .next (tblFail f q w 0x05 s)) ∧
      (flowFlag e 0 = true → (listOf (slice e 64 64)).all actionOk = true → flowRights s f e = true → flowFrozen s f e = false →
        (findKey s false (flowKey e) = some i → opOpt w 0 = false → exec (.tblInsert f q) s = .next (flowDone f q w 2 (some i) s)) ∧
        (findKey s false (flowKey e) = none → bankBusy s (bankOfKey s false (flowKey e)) = false →
          exec (.tblInsert f q) s = .next (match addFlow e (some (f, q, w.ctr.toNat)) s with
            | none => tblFail f q w 0x18 s
            | some (j, t) => inserted f q (bankOfKey s false (flowKey e)) w (flowDone f q w 0 (some j)) t)))) ∧
  (∀ (f : Fn) (q i : Nat) (w : Work) (bs e : Bytes) (s : State), (queue s f q).work.any (fun x => x.cls == 3 && x.started && x.done.isNone) = false →
      readsOf w = some (bs, 0) → opTable w = 0 →
      (nextWork s f q 3 2 = some w → bankBusy s (bankOfKey s false (slice bs 0 48)) = false →
        (findKey s false (slice bs 0 48) = none → exec (.tblDelete f q) s = .next (flowDone f q w 1 none s)) ∧
        (findKey s false (slice bs 0 48) = some i → flowAt s i = some e → flowStatus s f q i e true = 0 → exec (.tblDelete f q) s =
          .next (flowDone f q w 0 (some i) (removeFlow i s))) ∧
        (findKey s false (slice bs 0 48) = some i → flowAt s i = some e → flowStatus s f q i e true ≠ 0 → exec (.tblDelete f q) s =
          .next (tblFail f q w (flowStatus s f q i e true) s))) ∧
      (nextWork s f q 3 3 = some w →
        (findKey s false (slice bs 0 48) = none → exec (.tblLookup f q) s = .next (flowDone f q w 1 none s)) ∧
        (findKey s false (slice bs 0 48) = some i → flowAt s i = some e → flowStatus s f q i e false = 0 → exec (.tblLookup f q) s =
          .next (flowDone f q w 0 (some i) (toBuf f q w ((shownFlow s i).getD []) s))))) ∧
  (∀ (f : Fn) (q : Nat) (w : Work) (bs : Bytes) (s : State), (queue s f q).work.any (fun x => x.cls == 3 && x.started && x.done.isNone) = false →
      readsOf w = some (bs, 0) → opTable w = 1 → tblAdmin s f = false →
      (byteAt (routeRecord bs) 18 ≤ 32 → nextWork s f q 3 1 = some w → exec (.tblInsert f q) s = .next (tblFail f q w 0x05 s)) ∧
      (nextWork s f q 3 2 = some w → exec (.tblDelete f q) s = .next (tblFail f q w 0x05 s)) ∧
      (nextWork s f q 3 3 = some w → exec (.tblLookup f q) s = .next (tblFail f q w 0x05 s))) ∧
  (∀ (f : Fn) (q : Nat) (w : Work) (bs : Bytes) (s : State), (queue s f q).work.any (fun x => x.cls == 3 && x.started && x.done.isNone) = false →
      readsOf w = some (bs, 0) → opTable w ≠ 0 →
      (nextWork s f q 3 4 = some w →
        (directRights s f (opTable w) (opIndex w) = true → exec (.tblRead f q) s = .next (tblDone f q w 0 (toBuf f q w (shown s (opTable w) (opIndex w)) s))) ∧
        (directRights s f (opTable w) (opIndex w) = false → exec (.tblRead f q) s = .next (tblFail f q w 0x05 s))) ∧
      (nextWork s f q 3 5 = some w →
        (directRights s f (opTable w) (opIndex w) = true → opTable w = 5 →
          exec (.tblWrite f q) s = .next (tblDone f q w 0 (store 5 (opIndex w) (recordIn 5 bs) s))) ∧
        (opTable w = 6 → (listOf (recordIn 6 bs)).all actionOk = false → exec (.tblWrite f q) s = .next (tblFail f q w 0x01 s)) ∧
        (opTable w ≠ 6 → directRights s f (opTable w) (opIndex w) = false → exec (.tblWrite f q) s = .next (tblFail f q w 0x05 s)))) ∧
  (∀ (f : Fn) (q i : Nat) (w : Work) (bs e r : Bytes) (s : State), (queue s f q).work.any (fun x => x.cls == 3 && x.started && x.done.isNone) = false →
      readsOf w = some (bs, 0) → opTable w = 0 → i = opIndex w → shownFlow s i = some e → r = overwrite (flowRecord (flowFlag e 4) bs) 0 (slice e 0 48) →
      (nextWork s f q 3 4 = some w → flowStatus s f q i e false = 0 → exec (.tblRead f q) s = .next (flowDone f q w 0 (some i) (toBuf f q w e s))) ∧
      (flowStatus s f q i e true = 0 → bitOf (byteAt bs 48) 0 = true → (listOf (slice bs 64 64)).all actionOk = true → flowRights s f r = true →
        flowFrozen s f r = false → bankBusy s (bankOfKey s false (flowKey e)) = false →
        (nextWork s f q 3 5 = some w → exec (.tblWrite f q) s = .next (flowDone f q w 0 (some i) (writeFlow i r s))) ∧
        (nextWork s f q 3 7 = some w → exec (.tblWriteUnlock f q) s =
          .next (flowDone f q w 0 (some i) (modTbl (fun t => { t with locks := mdel t.locks i }) (writeFlow i r s))))) ∧
      (nextWork s f q 3 6 = some w → flowStatus s f q i e false = 0 → (mfind s.tbl.locks i).isSome = true → exec (.tblLock f q) s = .next (tblFail f q w 0x19 s)) ∧
      (∀ u, nextWork s f q 3 6 = some w → flowStatus s f q i e false = 0 → (mfind s.tbl.locks i).isSome = false →
        u = modTbl (fun t => { t with locks := mput t.locks i { fn := f, sq := q, at_ := s.elapsed } }) s →
        exec (.tblLock f q) s = .next (flowDone f q w 0 (some i) (toBuf f q w ((shownFlow u i).getD []) u))) ∧
      (nextWork s f q 3 8 = some w → flowStatus s f q i e true = 0 → exec (.tblUnlock f q) s =
        .next (flowDone f q w 0 (some i) (modTbl (fun t => { t with locks := mdel t.locks i }) s)))) ∧
  (∀ (f : Fn) (q n : Nat) (w : Work) (bs : Bytes) (s u : State), nextWork s f q 3 9 = some w → (queue s f q).work.any (fun x => x.cls == 3 && x.started && x.done.isNone) = false →
      readsOf w = some (bs, 0) → n = entryField w.entry 26 2 →
      (counterRights s f (opIndex w) n = false → exec (.tblCounterRead f q) s = .next (tblFail f q w 0x05 s)) ∧
      (counterRights s f (opIndex w) n = true →
        u = toBuf f q w ((((List.range n).map (fun k => mget (0, 0) s.tbl.counters (opIndex w + k))).map (fun c => leBytes 8 c.1 ++ leBytes 8 c.2)).flatten) s →
        (opOpt w 1 = false → exec (.tblCounterRead f q) s = .next (tblDone f q w 0 u)) ∧
        (opOpt w 1 = true → exec (.tblCounterRead f q) s =
          .next (tblDone f q w 0 (modTbl (fun t => { t with counters := t.counters.filter (fun e => decide (e.1 < opIndex w ∨ opIndex w + n ≤ e.1)) }) u)))))

/-- A bank's next relocation move begins, where no lookup keeps it back, and the next command ends it; each counts MOVE_SEQ (R273, R274); a lock that reaches its timeout is dropped, counted and reported (R288, R293); the length filter is rebuilt and switched (R278); a hash seed can be written only while the tables are empty (R271); a table program's step goes to the inactive bank, and the banks switch (R258, R292). Rests on R258, R271, R272, R273, R274, R278, R288, R292 and R293. -/
def Obligations.TableUpkeep : Prop :=
  (∀ (b src index dst : Nat) (rest : List (Nat × Nat × Nat)) (s : State), (moveRegOf s b).active = false → mget [] s.tbl.moves b = (src, index, dst) :: rest →
      (movesHeld s b = false → ∃ t, exec (.relocationMove b) s = .next t ∧ t = beginMove b src index dst s ∧ (moveRegOf t b).active = true ∧
        (moveRegOf t b).index = index ∧ (moveRegOf t b).source = src ∧ (moveRegOf t b).dest = dst ∧ t.tbl.moves = s.tbl.moves) ∧
      (movesHeld s b = true → exec (.relocationMove b) s = .next s)) ∧
  (∀ (b : Nat) (s : State), (moveRegOf s b).active = true →
      ((mget [] (finishMove b s).tbl.moves b).isEmpty = true → exec (.relocationMove b) s = .next (endPlacing b (finishMove b s))) ∧
      ((mget [] (finishMove b s).tbl.moves b).isEmpty = false → exec (.relocationMove b) s = .next (finishMove b s)) ∧
      (moveRegOf (finishMove b s) b).active = false) ∧
  (∀ (i : Nat) (l : FlowLock) (s : State), mfind s.tbl.locks i = some l →
      exec (.lockExpired i) s = .next (raise 0x7 0x01 l.sq (.function l.fn)
        (tblStat 11 (modTbl (fun t => { t with locks := mdel t.locks i }) (advanceTo (l.at_ + lockTimeout s) s))))) ∧
  (∀ s : State, s.tbl.routes.length < s.tbl.deletes * 4 → s.tbl.rebuilding = false →
      ∃ t, exec .filterRebuild s = .next t ∧ t.tbl.rebuilding = true ∧ t.tbl.deletes = 0 ∧ t.tbl.filter = s.tbl.filter ∧
        t.tbl.filter2 = (s.tbl.routes.map (fun e => routeKey e.2)).foldl (fun m k => (filterBits s k).foldl (fun m i => mset false m i true) m) []) ∧
  (∀ s : State, s.tbl.rebuilding = true → ∃ t, exec .filterSwitch s = .next t ∧ t.tbl.filter = s.tbl.filter2 ∧ t.tbl.filter2 = [] ∧ t.tbl.rebuilding = false ∧ t.tbl.routes = s.tbl.routes) ∧
  (∀ (p : Path) (off k : Nat) (v : Word) (s0 s : State), regBar p .TBL_HASH_SEED k = some off → actsAt p off s0 = true → s = atWork p off s0 →
      mayWrite s (asPath p) .TBL_HASH_SEED = true → k < 2 →
      (tablesEmpty s = true → ∃ t, exec (.hashSeedWrite p k v) s0 = .next t ∧ reg t .TBL_HASH_SEED k 0 = v) ∧
      (tablesEmpty s = false → exec (.hashSeedWrite p k v) s0 = .next (hwSet .TBL_STATUS 0 0 0 s) ∧ reg (hwSet .TBL_STATUS 0 0 0 s) .TBL_HASH_SEED k 0 = reg s .TBL_HASH_SEED k 0)) ∧
  (∀ (p : Path) (off : Nat) (sel : Word) (b v : Nat) (s0 s : State), regBar p .TBL_PROG_WRITE 0 = some off → actsAt p off s0 = true → s = atWork p off s0 →
      mayWrite s (asPath p) .TBL_PROG_WRITE = true → sel = reg s .TBL_PROG_SELECT 0 (pathCode (asPath p)) → b = dfld s .TBL_PROG_CTRL 0 0 →
      v = (List.range 4).foldl (fun n i => n + (reg s .TBL_PROG_DATA i (pathCode (asPath p))).toNat * 2 ^ (32 * i)) 0 →
      ∃ t, exec (.tblProgWrite p) s0 = .next t ∧ t.tbl.programs = mset 0 s.tbl.programs ((1 - b) * 2048 + fld sel 7 0 * 8 + fld sel 10 8) v) ∧
  (∀ (p : Path) (off : Nat) (b : Bool) (s0 s : State), regBar p .TBL_PROG_CTRL 0 = some off → actsAt p off s0 = true → s = atWork p off s0 →
      mayWrite s (asPath p) .TBL_PROG_CTRL = true →
      ∃ t, exec (.progBankSwitch p b) s0 = .next t ∧ reg t .TBL_PROG_CTRL 0 0 = applyWrite .TBL_PROG_CTRL (reg s .TBL_PROG_CTRL 0 0) (w32 (b2n b)) ∧
        fld (reg t .TBL_PROG_CTRL 0 0) 0 0 = b2n b ∧ t.tbl.programs = s.tbl.programs)

/-- A TX_FRAME entry whose reads are in sends its frame or ends with the failed read's status (R166); a frame takes its cells or waits (R296); held queues go on below their limit (R299); a port's decision starts the chosen queue's head copy (R301); a shaper's credit comes to the moment its tokens are at least 0 (R304); a launch time is reached (R309); the last bit of a copy leaves (R205, R207); a port's gate list is committed, activated and followed (R311, R312). Rests on R22, R166, R205, R207, R296, R299, R301, R304, R309, R311, R312 and R317. -/
def Obligations.HostTransmitAndScheduler : Prop :=
  (∀ (f : Fn) (q st : Nat) (w : Work) (bs : Bytes) (s : State), nextWork s f q 0 1 = some w →
      s.tm.frames.any (fun e => e.2.waitCells && e.2.origin.any (fun o => fnPf o.1 == fnPf f)) = false →
      (readsOf w = some (bs, 0) → ∀ r, r = newFrame (hostFrame s f q w bs) (modWork f q w.ctr (fun w => { w with started := true }) s) →
        exec (.txFrame f q) s = .next (enterCells r.1 (modWork f q w.ctr (fun w => { w with ref := some r.1 }) r.2))) ∧
      (readsOf w = some (bs, st) → st ≠ 0 → exec (.txFrame f q) s = .next (finishWork f q w.ctr st 0 s))) ∧
  (∀ (id : Nat) (f : Frame) (s : State), frameOf s id = some f → f.waitCells = true →
      (∀ t, takeCells false id f.bytes.length s = some t → exec (.hostTxResume id) s =
        .next (modFrame id (fun f => { f with waitCells := false, ts := nowFrac s, bound := bound16 s }) t)) ∧
      (takeCells false id f.bytes.length s = none → exec (.hostTxResume id) s = .next (modFrame id (fun f => { f with waitCells := true }) s))) ∧
  (∀ (q : Nat) (s : State), belowLimit s q = true →
      exec (.sqFetchResume q) s = .next (modTm (fun t => { t with injectHeld := if t.injectHeld = some q then none else t.injectHeld }) (releaseHeld q s))) ∧
  (∀ (lp q : Nat) (s s0 s1 u : State), lp < 16 → (lport s lp).sending = none → forwards s = true → portWaits s lp = false → s0 = advanceTo ((lport s lp).freeAt / 200) s →
      s1 = foldS creditPath (portQueues s0 lp) (judgePort lp s0) → portReady s1 lp = true → pickClass s1 lp = (some q, u) →
      exec (.scheduleDecision lp) s = .next (startCopy lp q u)) ∧
  (∀ (lp q : Nat) (x : Copy) (s : State), (nodeSt s q).copies.head? = some x → cellsPoisoned s x.frame = false →
      startCopy lp q s = judgeQueue q (popHead q (chargePath q (wireLen x) (creditPath q
        (modLport lp (fun p => { p with
          sending := some { copy := x, start := startAt s lp, len := wireLen x, ts := txStamp s lp, bound := bound16 s },
          freeAt := startAt s lp + wireTime s lp (wireLen x + 20) }) s))))) ∧
  (∀ (k : Nat) (s : State), k % 65536 < nodeCount (k / 65536) → k < 4 * 65536 → nodeRate s k ≠ 0 →
      exec (.shaperCredit k) s = .next (applyCredit k (advanceTo ((nodeSt s k).creditAt + ceilDiv (-(nodeTokens s k)).toNat (nodeRate s k)) s))) ∧
  (∀ (q t : Nat) (x : Copy) (s : State), (nodeSt s (nodeKey 3 q)).copies.head? = some x → x.launch = some t →
      (launched s x.lport x = false → exec (.launchTimeReached q) s =
        .next (advanceTai (ceilDiv (t * 65536 - (txStamp s x.lport - startTime s x.lport)) 65536) s)) ∧
      (launched s x.lport x = true → exec (.launchTimeReached q) s = .next s)) ∧
  (∀ (lp : Nat) (x : Sending) (s s0 s1 : State), (lport s lp).sending = some x → s0 = advanceTo (ceilDiv (x.start + wireTime s lp (x.len + 8)) 200) s →
      s1 = (if (oneStep x.copy x.ts).isSome then lpCount lp 15 1 s0 else s0) →
      exec (.frameTransmitted lp) s = .next (copyDone x.copy.frame .port (toNs x.ts) x.bound
        (emit (.frameOut lp (toNs x.ts) (onWire ((oneStep x.copy x.ts).getD x.copy.bytes)))
          (lpCount lp 11 x.len (lpCount lp 10 1 (modLport lp (fun p => { p with sending := none }) s1)))))) ∧
  (∀ (id : Nat) (s : State), exec (.copyFinished id) s = .next (settleFrame id s)) ∧
  (∀ (lp : Nat) (l : GateList) (s : State), (lport s lp).pending = some l →
      exec (.gateListActive lp) s = .next (activateList lp (advanceTai l.change s))) ∧
  (∀ (lp : Nat) (l : GateList) (s : State), gateEnabled s lp = true → gateListAt (lport s lp) (now s) = some l →
      exec (.gateEntryChange lp) s = .next (advanceTai (nowFrac s / 65536 + (partAt (gateParts l) 0 (cyclePos l (nowFrac s / 65536))).2.2) s)) ∧
  (∀ (p : Path) (off lp : Nat) (s0 s : State), regBar p .MAC_GATE_COMMIT lp = some off → actsAt p off s0 = true → s = atWork p off s0 →
      mayWrite s (asPath p) .MAC_GATE_COMMIT = true → lpUsed s lp = true →
      (adminList s lp = none → exec (.gateCommit p lp) s0 = .next (modLport lp (fun x => { x with gateResult := 1 }) s)) ∧
      (∀ l change, adminList s lp = some l → (lport s lp).pending = none → change = changeTime l.base l.cycle (ceilDiv (nowFrac s) 65536) →
        exec (.gateCommit p lp) s0 = .next (modLport lp (fun x => { x with gateResult := 0, pending := some { l with change := change }, gateChange := change }) s))) ∧
  (∀ base cycle t : Nat, 0 < cycle → t + 1000 ≤ changeTime base cycle t ∧ (t + 1000 ≤ base → changeTime base cycle t = base) ∧
      (base < t + 1000 → changeTime base cycle t < t + 1000 + cycle ∧ cycle ∣ changeTime base cycle t - base))

/-- A path's write of a register of its selected node takes effect with RESULT 0, or ends with BAD_CONFIG and changes nothing else (R302, R318, R319). A data frame of the cascade for this member is handled by its KIND, one for another goes on by the opposite port with TTL lower by 1, or is dropped and counted where its TTL has run out (R420, R421). Rests on R297, R302, R304, R318, R319, R420 and R421. -/
def Obligations.NodeRegistersAndCascadeFrames : Prop :=
  (∀ (p : Path) (off k : Nat) (v new : Word) (s0 s : State), regBar p .TM_NODE_CFG 0 = some off → actsAt p off s0 = true → s = atWork p off s0 →
      mayWrite s (asPath p) .TM_NODE_CFG = true → selectedNode s (asPath p) = some k →
      new = (nodeCfg s k &&& ~~~ w32 (cfgFields (k / 65536))) ||| (v &&& w32 (cfgFields (k / 65536))) →
      (cfgRefused s k (nodeCfg s k) new = true → exec (.nodeWrite p 0x204 v) s0 = .next (nodeResult (asPath p) 2 s)) ∧
      (cfgRefused s k (nodeCfg s k) new = false → wbit new 31 = true → wbit (nodeCfg s k) 31 = false →
        exec (.nodeWrite p 0x204 v) s0 = .next (nodeResult (asPath p) 0 (fillNode k (setReg .TM_NODE_CFG 0 k new s)))) ∧
      (cfgRefused s k (nodeCfg s k) new = false → (wbit new 31 = false ∨ wbit (nodeCfg s k) 31 = true) →
        exec (.nodeWrite p 0x204 v) s0 = .next (nodeResult (asPath p) 0 (setReg .TM_NODE_CFG 0 k new s)))) ∧
  (∀ (p : Path) (o off k : Nat) (r : Reg) (v : Word) (s0 s : State), nodeReg o = some r → regBar p r 0 = some off → actsAt p off s0 = true → s = atWork p off s0 →
      mayWrite s (asPath p) .TM_NODE_CFG = true → selectedNode s (asPath p) = some k →
      (o = 0x210 → exec (.nodeWrite p o v) s0 = .next (nodeResult (asPath p) 0 (setReg .TM_NODE_ADJ 0 k (applyWrite .TM_NODE_ADJ (reg s .TM_NODE_ADJ 0 k) v) s))) ∧
      (o = 0x218 → k / 65536 = 3 → exec (.nodeWrite p o v) s0 =
        .next (nodeResult (asPath p) 0 (setReg .TM_NODE_QLIMIT_G 0 k (applyWrite .TM_NODE_QLIMIT_G (reg s .TM_NODE_QLIMIT_G 0 k) v) s))) ∧
      (o = 0x218 → k / 65536 ≠ 3 → exec (.nodeWrite p o v) s0 = .next s) ∧
      (o = 0x228 → k / 65536 = 1 → exec (.nodeWrite p o v) s0 =
        .next (nodeResult (asPath p) 0 (setReg .TM_NODE_DEFQ 0 k (applyWrite .TM_NODE_DEFQ (reg s .TM_NODE_DEFQ 0 k) v) s))) ∧
      (o = 0x208 → ∃ t, exec (.nodeWrite p o v) s0 = .next t ∧ t = shaperWrite (asPath p) .TM_NODE_RATE k v s ∧ fld (reg t .TM_NODE_STATUS 0 (pathCode (asPath p))) 31 0 = 0)) ∧
  (∀ (port : Nat) (h body : Bytes) (s : State), port < 2 → (akzPort s port).up = true → hdType h = 0 → s.akz.joined = true →
      (hdDest h = s.akz.member → s.cai.mode = .pause → exec (.akzDataRx port h body) s =
        .next (modAkz (fun a => { a with heldRx := a.heldRx ++ [(port, h, body)] }) s)) ∧
      (hdDest h = s.akz.member → s.cai.mode ≠ .pause → hdKind h = 0 → exec (.akzDataRx port h body) s =
        .next (enterAkz port (nowFrac s) (bound16 s) body (some (port, hdCls h, akzCells body)) s)) ∧
      (hdDest h ≠ s.akz.member → byteAt h 2 ≤ 1 → exec (.akzDataRx port h body) s =
        .next (grantCredit (some (port, hdCls h, akzCells body)) (akzStat 1 1 s))) ∧
      (hdDest h ≠ s.akz.member → 1 < byteAt h 2 → exec (.akzDataRx port h body) s =
        .next (forwardItem (1 - port) { header := overwrite h 2 [BitVec.ofNat 8 (byteAt h 2 - 1)], body := body, back := some (port, hdCls h, akzCells body) } s)))

/-- The oldest CRYPTO-class entry of a queue, its reads in, ends with the status that R329 to R331 give and the slot changed as they say; a look-aside message of a cached slot is dispatched or refused (R333, R337, R339); a fetched slot enters the cache (R327); an output that the checker agrees with is released (R322, R335, R336), one that it does not is run again or held (R323); a message is suspended for a more urgent one (R340). An empty slot is judged by the new OWNER alone (assumption 40, the model's choice). Rests on R322, R323, R327, R329, R330, R331, R333, R335, R336, R337, R339 and R340. -/
def Obligations.KeysAndCiphers : Prop :=
  (∀ (f : Fn) (q : Nat) (w : Work) (bs r k : Bytes) (s u : State), nextWork s f q 2 0x10 = some w → readsOf w = some (bs, 0) →
      u = modWork f q w.ctr (fun w => { w with started := true }) s → r = slice bs 0 64 → k = slice bs 64 32 →
      ((recordOk r = false ∨ (byteAt r 2 = 0 ∧ leNat (k.drop 16) ≠ 0)) → exec (.keyWrite f q) s = .next (finishWork f q w.ctr 0x02 0 u)) ∧
      (recordOk r = true → ¬ (byteAt r 2 = 0 ∧ leNat (k.drop 16) ≠ 0) →
        (mayWriteSlot u f (ctxSlot w) r = false → exec (.keyWrite f q) s = .next (finishWork f q w.ctr 0x05 0 u)) ∧
        (mayWriteSlot u f (ctxSlot w) r = true → exec (.keyWrite f q) s =
          .next (finishWork f q w.ctr 0 0 (putSlot f (ctxSlot w) r (if byteAt r 2 = 0 then k.take 16 else k) u))))) ∧
  (∀ (f : Fn) (q : Nat) (w : Work) (bs r kk : Bytes) (kek : KeySlot) (s u : State), nextWork s f q 2 0x11 = some w → readsOf w = some (bs, 0) →
      u = modWork f q w.ctr (fun w => { w with started := true }) s → r = slice bs 0 64 → kek = slot_ u (entryField w.entry 24 4 % 1048576) →
      (recordOk r = false → exec (.keyUnwrap f q) s = .next (finishWork f q w.ctr 0x02 0 u)) ∧
      (recordOk r = true → mayWriteSlot u f (ctxSlot w) r = true → (kek.key = none ∨ kek.kek = false ∨ ownerRights u f kek.owner = false) →
        exec (.keyUnwrap f q) s = .next (finishWork f q w.ctr 0x05 0 u)) ∧
      (recordOk r = true → mayWriteSlot u f (ctxSlot w) r = true → kek.key = some kk → kek.kek = true → ownerRights u f kek.owner = true →
        (keyUnwrap kk (slice bs 64 (if byteAt r 2 = 0 then 24 else 40)) = none → exec (.keyUnwrap f q) s = .next (finishWork f q w.ctr 0x10 0 u)) ∧
        (∀ k, keyUnwrap kk (slice bs 64 (if byteAt r 2 = 0 then 24 else 40)) = some k → exec (.keyUnwrap f q) s =
          .next (finishWork f q w.ctr 0 0 (putSlot f (ctxSlot w) r k u))))) ∧
  (∀ (f : Fn) (q : Nat) (w : Work) (bs : Bytes) (k : KeySlot) (s u : State), readsOf w = some (bs, 0) →
      u = modWork f q w.ctr (fun w => { w with started := true }) s → k = slot_ u (ctxSlot w) →
      (ownerRights u f k.owner = false →
        (nextWork s f q 2 0x12 = some w → exec (.slotUpdate f q) s = .next (finishWork f q w.ctr 0x05 0 u)) ∧
        (nextWork s f q 2 0x13 = some w → exec (.slotRead f q) s = .next (finishWork f q w.ctr 0x05 0 u)) ∧
        (nextWork s f q 2 0x14 = some w → exec (.keyClear f q) s = .next (finishWork f q w.ctr 0x05 0 u))) ∧
      (ownerRights u f k.owner = true →
        (nextWork s f q 2 0x12 = some w → k.dir = false → leAt bs 32 8 < k.next → exec (.slotUpdate f q) s = .next (finishWork f q w.ctr 0x05 0 u)) ∧
        (nextWork s f q 2 0x12 = some w → k.dir = false → k.next ≤ leAt bs 32 8 → exec (.slotUpdate f q) s =
          .next (finishWork f q w.ctr 0 0 (modKeySlot (ctxSlot w) (fun x => { x with
            next := leAt bs 32 8, rekeyAt := leAt bs 40 8, tcpNext := leAt bs 48 4, resync := false,
            seen := if x.dir ∧ leAt bs 32 8 ≠ x.next then [] else x.seen, seenBelow := if x.dir ∧ leAt bs 32 8 ≠ x.next then 0 else x.seenBelow }) u))) ∧
        (nextWork s f q 2 0x13 = some w → exec (.slotRead f q) s =
          .next (finishWork f q w.ctr 0 0 (hostWrite f (qPasid (queue u f q)) (entryField w.entry 16 8) (slotRecord k) false u))) ∧
        (nextWork s f q 2 0x14 = some w → exec (.keyClear f q) s = .next (finishWork f q w.ctr 0 0 (keyClear (ctxSlot w) u))))) ∧
  (∀ (f : Fn) (q : Nat) (w : Work) (bs key : Bytes) (k : KeySlot) (s u : State), readsOf w = some (bs, 0) → useCache (ctxSlot w) s = (true, u) →
      cryGone u = false → k = slot_ u (ctxSlot w) → k.key = some key →
      ((k.proto ≠ 0 ∨ k.kek = true ∨ ownerRights u f k.owner = false) →
        (nextWork s f q 2 1 = some w → exec (.laEncrypt f q) s = .next (finishWork f q w.ctr 0x05 0 u)) ∧
        (nextWork s f q 2 2 = some w → exec (.laDecrypt f q) s = .next (finishWork f q w.ctr 0x05 0 u))) ∧
      (∀ n t, nextWork s f q 2 1 = some w → k.proto = 0 → k.kek = false → ownerRights u f k.owner = true → k.dir = false → entryField w.entry 38 1 ≠ 1 →
        takeNumber (ctxSlot w) u = (some n, t) → exec (.laEncrypt f q) s =
          .next (dispatch { src := .lookaside f q w.ctr.toNat, slot := ctxSlot w, encrypt := true, urgency := 1 + entryField w.entry 39 1, n := n, dst := entryField w.entry 24 8, extra := n, out := (gcmSeal key (laNonce k n) (slice bs 0 (entryField w.entry 36 2)) (slice bs (entryField w.entry 36 2) (entryField w.entry 32 4))).1 ++ (gcmSeal key (laNonce k n) (slice bs 0 (entryField w.entry 36 2)) (slice bs (entryField w.entry 36 2) (entryField w.entry 32 4))).2 }
            (modWork f q w.ctr (fun w => { w with started := true }) t))) ∧
      (∀ x, nextWork s f q 2 2 = some w → k.proto = 0 → k.kek = false → ownerRights u f k.owner = true → k.dir = true → entryField w.entry 38 1 = 1 →
        gcmOpen key (slice (entryBytes w.entry) 40 12) (slice bs 0 (entryField w.entry 36 2)) (slice bs (entryField w.entry 36 2) (entryField w.entry 32 4))
          (slice bs (entryField w.entry 36 2 + entryField w.entry 32 4) 16) = some x → exec (.laDecrypt f q) s =
          .next (dispatch { src := .lookaside f q w.ctr.toNat, slot := ctxSlot w, encrypt := false, urgency := 1 + entryField w.entry 39 1, n := 0, dst := entryField w.entry 24 8, extra := 0, out := x } (modWork f q w.ctr (fun w => { w with started := true }) u)))) ∧
  (∀ (n : Nat) (s : State), s.cry.fetching.contains n = true →
      ∃ t, exec (.slotFetchDone n) s = .next t ∧ t.cry.fetching = s.cry.fetching.filter (· != n) ∧ t.cry.cache = (n :: s.cry.cache.filter (· != n)).take 4096) ∧
  (∀ (e : Nat) (m : CryMsg) (s s1 : State), (cryEngine s e).running = some m → (activeUnits s 2).isEmpty = false →
      s1 = releaseMsg m (modEngine e (fun u => { u with running := none }) (worked (.cryEngine e) s)) →
      (m.refused = [] → exec (.cipherDone e) s = .next (engineNext e s1)) ∧
      (∀ d, m.refused = [d] → exec (.cipherDone e) s = .next (engineNext e (countFault 1 d 0 false s1))) ∧
      (∀ d1 d2 more c rest, m.refused = d1 :: d2 :: more → activeUnits s1 2 = c :: rest → exec (.cipherDone e) s = .next (engineNext e (countFault 2 c 0 false s1)))) ∧
  (∀ (m : CryMsg) (id : Nat) (s : State), m.ok = true → m.src = .frame id → m.encrypt = false → (slot_ s m.slot).proto ≠ 3 →
      (replayed (slot_ s m.slot) m.n = true → releaseDecrypted m id s =
        dropFrame id 0x05 (cryStat 1 (modKeySlot m.slot (fun k => { k with replays := bumpSlot k.replays }) s))) ∧
      (replayed (slot_ s m.slot) m.n = false → releaseDecrypted m id s =
        modFrame id (fun f => { f with bytes := m.out, inCry := false, decrypted := true })
          (modKeySlot m.slot (fun k => if k.proto = 3 then { k with next := m.n + 1, tcpNext := m.extra } else acceptNumber k m.n) s))) ∧
  (∀ (e : Nat) (m : CryMsg) (s u : State), (cryEngine s e).running = some m → u = modEngine e (fun u => { u with running := none }) s →
      (2 ≤ m.refused.length → exec (.checkerMismatch e) s =
        .next (engineNext e (modCry (fun c => { c with held := c.held ++ [{ m with refused := [] }] }) u))) ∧
      (∀ d, m.refused.length < 2 → (activeUnits u 1).find? (fun x => x != e && engineRuns u x && (cryEngine u x).running.isNone) = some d → exec (.checkerMismatch e) s =
        .next (engineNext e (modEngine d (fun x => { x with running := some { m with refused := m.refused ++ [e] } }) u))) ∧
      (m.refused.length < 2 → (activeUnits u 1).find? (fun x => x != e && engineRuns u x && (cryEngine u x).running.isNone) = none → exec (.checkerMismatch e) s =
        .next (modCry (fun c => { c with waiting := { m with refused := m.refused ++ [e] } :: c.waiting }) (engineNext e u)))) ∧
  (∀ (e : Nat) (w m : CryMsg) (s : State), mostUrgent s.cry.waiting = some w → activeUnits s 1 = [e] → (cryEngine s e).running = some m →
      (cryEngine s e).suspended = none → w.urgency < m.urgency →
      exec .suspendMessage s = .next (cryStat 7 (modEngine e (fun _ => { running := some w, suspended := some m })
        (modCry (fun c => { c with waiting := dropFirst (· == w) c.waiting }) s))))

/-- CC.EN set with valid values makes the controller ready with its admin queues (R345, R346); a doorbell moves a queue's pointer or is an error event (R344, R350); the command at an SQ's head is fetched (R350); each admin command of R347 completes with its result or the status that refuses it. The statuses of Create and Delete and of bad doorbells are those of NVMe 2.0, which the spec names (assumption 60 and NOTES.md). Rests on R344, R345, R346, R347, R348, R350, R352, R353 and R354. -/
def Obligations.NvmeControllers : Prop :=
  (∀ (f : Fn) (cc : Nat) (s : State), isNvme s f = true → bitOf (nvme s f).cc 0 = false → nvEnableOk (nvme s f) cc = true →
      ∃ t, exec (.ccEnable f cc) s = .next t ∧ (nvme t f).rdy = true ∧ bitOf (nvme t f).cc 0 = true ∧ (nvme t f).shst = 0 ∧ (nvme t f).aers = [] ∧
        (nvme t f).sqs = [(0, { base := (nvme s f).asq, size := bits (nvme s f).aqa 11 0 + 1, cq := 0 })] ∧
        (nvme t f).cqs = [(0, { base := (nvme s f).acq, size := bits (nvme s f).aqa 27 16 + 1, vector := 0, ien := true })]) ∧
  (∀ (f : Fn) (s : State), isNvme s f = true → bitOf (nvme s f).cc 0 = true →
      ∃ t, exec (.ccDisable f) s = .next t ∧ (nvme t f).rdy = false ∧ (nvme t f).sqs = [] ∧ (nvme t f).cqs = [] ∧ (nvme t f).cc = (nvme s f).cc / 2 * 2 ∧
        (nvme t f).asq = (nvme s f).asq ∧ (nvme t f).acq = (nvme s f).acq ∧ (nvme t f).aqa = (nvme s f).aqa) ∧
  (∀ (f : Fn) (s : State), isNvme s f = true → bitOf (nvme s f).cc 0 = true → (nvme s f).shst = 0 →
      exec (.shutdown f) s = .next (nvShutCheck f (modNvme f (fun x => { x with shst := 1, shutAt := some s.elapsed, cmds := x.cmds.filter (fun c => c.st == .sent || c.st == .held), aers := [] }) s))) ∧
  (∀ (f : Fn) (a : Nat) (s : State), (nvme s f).shutAt = some a →
      ∃ t, exec (.shutdownTimeout f) s = .next t ∧ (nvme t f).shst = 2 ∧ (nvme t f).shutAt = none ∧ max s.elapsed (a + 1000000000) = t.elapsed) ∧
  (∀ (f : Fn) (q off v : Nat) (s0 s : State), off = 0x1000 + 8 * q → off < 0x4000 → isNvme s0 f = true → pathOpen s0 (.fn f) = true →
      accessWaits s0 (.fn f) off = false → blockDead s0 (.fn f) (accessBlk s0 (.fn f) off) = false → s = atWork (.fn f) off s0 → v < 2 ^ 32 →
      (nvme s f).rdy = true →
      (mfind (nvme s f).sqs q = none → exec (.nvmeSqDoorbell f q v) s0 = .next (nvAen f (at_ 16 1 + at_ 8 0) s)) ∧
      (∀ u, mfind (nvme s f).sqs q = some u →
        (v % 65536 < u.size → ∃ t, exec (.nvmeSqDoorbell f q v) s0 = .next t ∧ mfind (nvme t f).sqs q = some { u with tail := v % 65536 }) ∧
        (u.size ≤ v % 65536 → exec (.nvmeSqDoorbell f q v) s0 = .next (nvAen f (at_ 16 1 + at_ 8 1) s)))) ∧
  (∀ (f : Fn) (q off v : Nat) (s0 s : State), off = 0x1004 + 8 * q → off < 0x4000 → isNvme s0 f = true → pathOpen s0 (.fn f) = true →
      accessWaits s0 (.fn f) off = false → blockDead s0 (.fn f) (accessBlk s0 (.fn f) off) = false → s = atWork (.fn f) off s0 → v < 2 ^ 32 →
      (nvme s f).rdy = true →
      (mfind (nvme s f).cqs q = none → exec (.nvmeCqDoorbell f q v) s0 = .next (nvAen f (at_ 16 1 + at_ 8 0) s)) ∧
      (∀ u, mfind (nvme s f).cqs q = some u →
        (v % 65536 < u.size → exec (.nvmeCqDoorbell f q v) s0 = .next (nvDrain f q u.waiting (modNvme f (fun x => { x with cqs := mput x.cqs q { u with head := v % 65536 } }) s))) ∧
        (u.size ≤ v % 65536 → exec (.nvmeCqDoorbell f q v) s0 = .next (nvAen f (at_ 16 1 + at_ 8 1) s)))) ∧
  (∀ (f : Fn) (q : Nat) (bs : Bytes) (e : BitVec 512) (u : NSq) (s : State), mfind (nvme s f).sqs q = some u → nvFetches s f = true → u.head ≠ u.tail →
      mayTake s f (u.base + 64 * u.head) = true → e = BitVec.ofNat 512 (leNat (slice bs 0 64)) →
      ∃ t, exec (.nvmeCommandFetch f q (.data bs)) s = .next t ∧ mfind (nvme t f).sqs q = some { u with head := (u.head + 1) % u.size } ∧
        (nvme t f).cmds = (nvme s f).cmds ++ [{ sq := q, entry := e, no := s.sto.arrivals, ns := ((nsFind s f (entryField e 4 4)).map Prod.snd).getD [] }] ∧
        t.sto.arrivals = s.sto.arrivals + 1) ∧
  (∀ (f : Fn) (q : Nat) (got : HostRead) (u : NSq) (s s1 : State), mfind (nvme s f).sqs q = some u → nvFetches s f = true → u.head ≠ u.tail →
      operandRead f (u.base + 64 * u.head) got s = some s1 → (∀ bs, got ≠ .data bs) → exec (.nvmeCommandFetch f q got) s = .next s1) ∧
  (∀ (f : Fn) (c : NCmd) (q size : Nat) (s : State), q = cdw c 10 % 65536 → size = cdw c 10 / 65536 → psdt c = 0 → bitOf (cdw c 11) 0 = true →
      q ≠ 0 → q ≤ ioqPairs s f → size ≠ 0 → size ≤ 0xFFF → prp1 c % nvPage (nvme s f) = 0 →
      (nvNext s f 0 5 = some c → (mfind (nvme s f).cqs q) = none → poolFull (pairsTaken s) (nvme s f).cqs.length (nvme s f).sqs.length = false → cdw c 11 / 65536 < vectorsOf s f →
        exec (.createIoCq f) s = .next (nvComplete f c.no 0 0 (modNvme f (fun x => { x with
          cqs := mput x.cqs q { base := prp1 c, size := size + 1, vector := cdw c 11 / 65536, ien := bitOf (cdw c 11) 1 } }) s))) ∧
      (nvNext s f 0 5 = some c → (mfind (nvme s f).cqs q).isSome = true → exec (.createIoCq f) s = .next (nvComplete f c.no (nvSt 1 1 0) 0 s)) ∧
      (nvNext s f 0 1 = some c → (mfind (nvme s f).sqs q) = none → poolFull (pairsTaken s) (nvme s f).sqs.length (nvme s f).cqs.length = false → cdw c 11 / 65536 ≠ 0 → (mfind (nvme s f).cqs (cdw c 11 / 65536)).isSome = true →
        exec (.createIoSq f) s = .next (nvComplete f c.no 0 0 (modNvme f (fun x => { x with
          sqs := mput x.sqs q { base := prp1 c, size := size + 1, cq := cdw c 11 / 65536 } }) s))) ∧
      (nvNext s f 0 1 = some c → (mfind (nvme s f).sqs q) = none → poolFull (pairsTaken s) (nvme s f).sqs.length (nvme s f).cqs.length = false → cdw c 11 / 65536 = 0 → exec (.createIoSq f) s = .next (nvComplete f c.no (nvSt 1 0 0) 0 s))) ∧
  (∀ (f : Fn) (c : NCmd) (q : Nat) (s : State), q = cdw c 10 % 65536 →
      (nvNext s f 0 0 = some c →
        ((q = 0 ∨ mfind (nvme s f).sqs q = none) → exec (.deleteIoSq f) s = .next (nvComplete f c.no (nvSt 1 1 0) 0 s)) ∧
        (q ≠ 0 → (mfind (nvme s f).sqs q).isSome = true → exec (.deleteIoSq f) s =
          .next (nvComplete f c.no 0 0 (modNvme f (fun x => { x with sqs := mdel x.sqs q }) (nvSqGone f q s))))) ∧
      (nvNext s f 0 4 = some c →
        ((q = 0 ∨ mfind (nvme s f).cqs q = none) → exec (.deleteIoCq f) s = .next (nvComplete f c.no (nvSt 1 1 0) 0 s)) ∧
        (q ≠ 0 → (mfind (nvme s f).cqs q).isSome = true → (nvme s f).sqs.any (fun e => e.2.cq == q) = true → exec (.deleteIoCq f) s =
          .next (nvComplete f c.no (nvSt 1 0xC 0) 0 s)) ∧
        (q ≠ 0 → (mfind (nvme s f).cqs q).isSome = true → (nvme s f).sqs.any (fun e => e.2.cq == q) = false → exec (.deleteIoCq f) s =
          .next (nvComplete f c.no 0 0 (modNvme f (fun x => { x with cqs := mdel x.cqs q }) s))))) ∧
  (∀ (f : Fn) (c : NCmd) (list : HostRead) (s : State),
      (nvNext s f 0 6 = some c →
        (cdw c 10 % 256 = 1 → exec (.identify f list) s = .next (adminData f c (identifyCtrl s f) list s)) ∧
        (cdw c 10 % 256 = 0 → (cdw c 1 = 0 ∨ 256 < cdw c 1) → exec (.identify f list) s = .next (nvComplete f c.no (nvSt 0 0xB 0) 0 s)) ∧
        (∀ e, cdw c 10 % 256 = 0 → cdw c 1 ≠ 0 → cdw c 1 ≤ 256 → nsFind s f (cdw c 1) = some e → exec (.identify f list) s =
          .next (adminData f c (identifyNs e.2) list s)) ∧
        (cdw c 10 % 256 = 2 → cdw c 1 < 0xFFFFFFFE → exec (.identify f list) s =
          .next (adminData f c (slice ((activeNs s f (cdw c 1)).map (leBytes 4)).flatten 0 4096) list s)) ∧
        (3 < cdw c 10 % 256 → exec (.identify f list) s = .next (nvComplete f c.no (nvSt 0 2 0) 0 s))) ∧
      (nvNext s f 0 2 = some c →
        ((cdw c 10 % 256 = 0 ∨ 4 < cdw c 10 % 256) → exec (.getLogPage f list) s = .next (nvComplete f c.no (nvSt 0 2 0) 0 s)) ∧
        (cdw c 10 % 256 = 2 → cdw c 10 / 65536 = 127 → cdw c 11 % 65536 = 0 → cdw c 12 = 0 → cdw c 13 = 0 → (smartLog s (nvme s f)).length = 512 →
          exec (.getLogPage f list) s = .next (adminData f c (slice (smartLog s (nvme s f)) 0 512) list s)))) ∧
  (∀ (f : Fn) (c n : NCmd) (s : State), nvNext s f 0 8 = some c →
      ((nvme s f).cmds.find? (fun n => n.sq == cdw c 10 % 65536 && entryField n.entry 2 2 == cdw c 10 / 65536 && n.no != c.no && !n.discard) = none →
        exec (.nvmeAbort f) s = .next (nvComplete f c.no 0 1 s)) ∧
      ((nvme s f).cmds.find? (fun n => n.sq == cdw c 10 % 65536 && entryField n.entry 2 2 == cdw c 10 / 65536 && n.no != c.no && !n.discard) = some n →
        ((nvme s f).cmds.filter (fun n => n.sq == 0 && entryField n.entry 0 1 == 8 && n.st != .fetched)).length < 4 → n.st = .ready →
        exec (.nvmeAbort f) s = .next (nvComplete f c.no 0 0 (nvComplete f n.no (nvSt 0 7 0) 0 (modNvme f (fun x => { x with aers := x.aers.filter (· != n.no) }) s))))) ∧
  (∀ (f : Fn) (c : NCmd) (fid v : Nat) (s : State), fid = cdw c 10 % 256 → v = cdw c 11 → fid ∈ featIds →
      (nvNext s f 0 9 = some c → bitOf (cdw c 10) 31 = false →
        (fid = 7 → exec (.setFeatures f) s = .next (nvComplete f c.no 0 ((ioqPairs s f - 1) + at_ 16 (ioqPairs s f - 1)) s)) ∧
        (fid = 1 ∨ fid = 6 ∨ fid = 8 ∨ fid = 0xB → exec (.setFeatures f) s =
          .next (nvComplete f c.no 0 0 (modNvme f (fun x => { x with features := mset 0 x.features fid v }) s))) ∧
        (fid = 2 → v % 32 ≠ 0 → exec (.setFeatures f) s = .next (nvComplete f c.no (nvSt 0 2 0) 0 s))) ∧
      (nvNext s f 0 0xA = some c → bits (cdw c 10) 10 8 = 0 → exec (.getFeatures f) s = .next (nvComplete f c.no 0 (featValue s f fid (v % 65536)) s))) ∧
  (∀ (f : Fn) (c : NCmd) (s : State), nvNext s f 0 0xC = some c →
      (4 ≤ (nvme s f).aers.length → exec (.asynchronousEventRequest f) s = .next (nvComplete f c.no (nvSt 1 5 0) 0 s)) ∧
      ((nvme s f).aers.length < 4 → (nvme s f).events = [] → ∃ t, exec (.asynchronousEventRequest f) s = .next t ∧ (nvme t f).aers = (nvme s f).aers ++ [c.no]) ∧
      (∀ e rest, (nvme s f).aers.length < 4 → (nvme s f).events = e :: rest → exec (.asynchronousEventRequest f) s =
        .next (nvComplete f c.no 0 e (modNvme f (fun x => { x with events := rest }) s))))

/-- An I/O command that passes the checks of R353 goes to the ACTIVE path of its namespace, one that does not completes with the status of the first check that fails; data of an NVMe/TCP target lands in the host buffer (R351), an R2T is answered with H2CData (R351, R359), a response completes its command (R350, R353); a connection fails by a timeout, a termination or a header digest (R356, R358, R360), retries (R359) and is lost after LOSS_TMO (R363). Rests on R347, R349, R350, R351, R353, R354, R356, R358, R359, R360, R363 and R364. -/
def Obligations.NvmeIoAndTransport : Prop :=
  (∀ (f : Fn) (q n : Nat) (c : NCmd) (e lb : Bytes) (h : HostRead) (s : State), q ≠ 0 → n = (cdw c 12 % 65536 + 1) * 2 ^ byteAt e 7 →
      (nvNeedsList s f c n = false ∨ mayTake s f (if psdt c = 0 then prp2 c else entryField c.entry 24 8) = true) →
      (nvNext s f q 2 = some c →
        (nsOf s f c = none → exec (.nvmeRead f q (.data lb)) s = .next (nvComplete f c.no (nvSt 0 0xB 0) 0 s)) ∧
        (nsOf s f c = some e → (nvCheck s f c e true true false (.data lb)).1 ≠ 0 → exec (.nvmeRead f q (.data lb)) s =
          .next (nvComplete f c.no (nvCheck s f c e true true false (.data lb)).1 0 s)) ∧
        (nsOf s f c = some e → (nvCheck s f c e true true false (.data lb)).1 = 0 → exec (.nvmeRead f q (.data lb)) s =
          .next (nvDispatch f { c with buf := (nvCheck s f c e true true false (.data lb)).2 } e (nvCountIo f 2 n s)))) ∧
      (nvNext s f q 1 = some c →
        (nsOf s f c = none → exec (.nvmeWrite f q ⟨.data lb, h⟩) s = .next (nvComplete f c.no (nvSt 0 0xB 0) 0 s)) ∧
        (nsOf s f c = some e → (nvCheck s f c e true true true (.data lb)).1 ≠ 0 → exec (.nvmeWrite f q ⟨.data lb, h⟩) s =
          .next (nvComplete f c.no (nvCheck s f c e true true true (.data lb)).1 0 s)) ∧
        (nsOf s f c = some e → (nvCheck s f c e true true true (.data lb)).1 = 0 → inCapsule s e n = false → exec (.nvmeWrite f q ⟨.data lb, h⟩) s =
          .next (nvDispatch f { c with buf := (nvCheck s f c e true true true (.data lb)).2 } e (nvCountIo f 1 n s))) ∧
        (∀ bs, nsOf s f c = some e → (nvCheck s f c e true true true (.data lb)).1 = 0 → stoGone s = false →
          mayTake s f (segAddr (nvCheck s f c e true true true (.data lb)).2 0) = true → exec (.nvmeWrite f q ⟨.data lb, .data bs⟩) s =
          .next (nvDispatch f { c with buf := (nvCheck s f c e true true true (.data lb)).2, capsule := if inCapsule s e n then slice bs 0 n else c.capsule } e
            (nvCountIo f 1 n s))))) ∧
  (∀ (f : Fn) (q n : Nat) (c : NCmd) (e : Bytes) (s : State), q ≠ 0 → n = (cdw c 12 % 65536 + 1) * 2 ^ byteAt e 7 →
      (nvNext s f q 8 = some c →
        (nsOf s f c = none → exec (.writeZeroes f q) s = .next (nvComplete f c.no (nvSt 0 0xB 0) 0 s)) ∧
        (nsOf s f c = some e → (nvCheck s f c e true false true (.data [])).1 ≠ 0 → exec (.writeZeroes f q) s =
          .next (nvComplete f c.no (nvCheck s f c e true false true (.data [])).1 0 s)) ∧
        (nsOf s f c = some e → (nvCheck s f c e true false true (.data [])).1 = 0 → exec (.writeZeroes f q) s =
          .next (nvDispatch f { c with buf := (nvCheck s f c e true false true (.data [])).2 } e (nvCountIo f 8 n s)))) ∧
      (nvNext s f q 0 = some c →
        (nsOf s f c = none → exec (.nvmeFlush f q) s = .next (nvComplete f c.no (nvSt 0 0xB 0) 0 s)) ∧
        (nsOf s f c = some e → exec (.nvmeFlush f q) s = .next (nvDispatch f { c with buf := [] } e (nvCountIo f 0 n s))))) ∧
  (∀ (s : State) (f : Fn) (c : NCmd) (e : Bytes) (wr : Bool) (segs : List (Nat × Nat)) (lb : Bytes),
      (cdw c 12 % 65536 + 1) * 2 ^ byteAt e 7 ≤ 2 ^ 21 → nvSegs s f c ((cdw c 12 % 65536 + 1) * 2 ^ byteAt e 7) lb = some segs →
      (leAt e 8 8 < entryField c.entry 40 8 + (cdw c 12 % 65536 + 1) → nvCheck s f c e true true wr (.data lb) = (nvSt 0 0x80 1, [])) ∧
      (entryField c.entry 40 8 + (cdw c 12 % 65536 + 1) ≤ leAt e 8 8 → bitOf (byteAt e 6) 1 = true → nvCheck s f c e true true true (.data lb) = (nvSt 1 0x82 1, [])) ∧
      (entryField c.entry 40 8 + (cdw c 12 % 65536 + 1) ≤ leAt e 8 8 → (wr = false ∨ bitOf (byteAt e 6) 1 = false) → nvCheck s f c e true true wr (.data lb) = (0, segs))) ∧
  (∀ (f : Fn) (q n : Nat) (c : NCmd) (e bs rs : Bytes) (s : State), nvNext s f q 9 = some c → n = cdw c 10 % 256 + 1 → rs = slice bs 0 (16 * n) →
      (nsOf s f c = none → exec (.datasetManagement f q (.data bs)) s = .next (nvComplete f c.no (nvSt 0 0xB 0) 0 s)) ∧
      (nsOf s f c = some e → (prpSegs (nvPage (nvme s f)) (prp1 c) (prp2 c) (16 * n) []).isSome = true → psdt c ≠ 3 →
        mayTake s f (if psdt c = 0 then prp1 c else entryField c.entry 24 8) = true →
        ((List.range n).any (fun i => decide (leAt e 8 8 < leAt rs (16 * i + 8) 8 + leAt rs (16 * i + 4) 4)) = true →
          exec (.datasetManagement f q (.data bs)) s = .next (nvComplete f c.no (nvSt 0 0x80 1) 0 s)) ∧
        ((List.range n).any (fun i => decide (leAt e 8 8 < leAt rs (16 * i + 8) 8 + leAt rs (16 * i + 4) 4)) = false → bitOf (cdw c 11) 2 = false →
          exec (.datasetManagement f q (.data bs)) s = .next (nvComplete f c.no 0 0 s)) ∧
        ((List.range n).any (fun i => decide (leAt e 8 8 < leAt rs (16 * i + 8) 8 + leAt rs (16 * i + 4) 4)) = false → bitOf (cdw c 11) 2 = true →
          bitOf (byteAt e 6) 1 = false → exec (.datasetManagement f q (.data bs)) s = .next (nvDispatch f { c with ranges := rs } e s)))) ∧
  (∀ (ctx wire off : Nat) (data : Bytes) (f : Fn) (n : NCmd) (s u : State), (connOf s ctx).st = .established → cxType (connOf s ctx) = 1 →
      u = seqRx ctx (pduLen (connOf s ctx) 24 data.length) s → wireCmd s ctx wire = some (f, n) →
      (exec (.c2hData ctx wire off data true false) s = .next (modCmd f n.no (fun n => { n with digestFails := n.digestFails + 1, resend := true }) (bump .STO_STAT 3 0 1 (heard ctx u)))) ∧
      (n.discard = false → exec (.c2hData ctx wire off data true true) s = .next (bufWrite f n.buf off data (heard ctx u))) ∧
      (n.discard = true → exec (.c2hData ctx wire off data true true) s = .next (heard ctx u)) ∧
      (∀ d, exec (.c2hData ctx wire off data false d) s = .next (raise 0xA 0x04 ctx .device (connFail ctx (emit (.remote ctx 0x02 []) s))))) ∧
  (∀ (ctx wire off len most : Nat) (bs : Bytes) (f : Fn) (n : NCmd) (s u : State), (connOf s ctx).st = .established → cxType (connOf s ctx) = 1 →
      u = heard ctx (seqRx ctx (pduLen (connOf s ctx) 24 0) s) → wireCmd s ctx wire = some (f, n) → mayTake s f (segAddr n.buf off) = true →
      most = 4096 * max 1 (leAt (connOf u ctx).data 66 2) → (slice bs 0 len).length ≤ most →
      exec (.nvmeTcpR2t ctx wire off len (.data bs)) s =
        .next (emit (.remote ctx 0x06 (leBytes 2 wire ++ leBytes 4 off ++ slice bs 0 len)) (seqTx ctx (pduLen (connOf u ctx) 24 (slice bs 0 len).length) u))) ∧
  (∀ (ctx wire off len : Nat) (got : HostRead) (f : Fn) (n : NCmd) (s s1 : State), (connOf s ctx).st = .established → cxType (connOf s ctx) = 1 →
      wireCmd s ctx wire = some (f, n) → operandRead f (segAddr n.buf off) got s = some s1 → (∀ bs, got ≠ .data bs) →
      exec (.nvmeTcpR2t ctx wire off len got) s = .next (modCmd f n.no (fun n => { n with dataError := true })
        (heard ctx (seqRx ctx (pduLen (connOf s ctx) 24 0) s1)))) ∧
  (∀ (ctx wire status dw0 : Nat) (data : Bytes) (ic ecn : Bool) (f : Fn) (n : NCmd) (s u : State), cxType (connOf s ctx) = 1 →
      u = cnpSend ctx ecn (seqRx ctx (pduLen (connOf s ctx) 24 0) s) → wireCmd u ctx wire = some (f, n) →
      exec (.remoteResponse ctx wire status dw0 data ic ecn) s = .next (cxSendAll ctx (abortMissed f n (nvRespond f n status dw0 (heard ctx u))))) ∧
  (∀ (f : Fn) (n : NCmd) (status dw0 : Nat) (s : State),
      (n.discard = false → n.dataError = false → n.resend = false → nvRespond f n status dw0 s = nvComplete f n.no (status % 2 ^ 15) dw0 s) ∧
      (n.discard = false → n.dataError = true → nvRespond f n status dw0 s = nvComplete f n.no (nvSt 0 4 0) 0 s) ∧
      (n.discard = false → n.dataError = false → n.resend = true → n.digestFails < retryLimit (connOf s n.ctx) →
        nvRespond f n status dw0 s = modCmd f n.no (fun n => { n with st := .held }) s)) ∧
  (∀ (ctx a : Nat) (s : State), oldestSent s ctx = some a →
      exec (.cmdTimeout ctx) s = .next (connFail ctx (advanceTo (a + leAt (connOf s ctx).data 74 2 * 1000000000) s))) ∧
  (∀ (ctx : Nat) (s : State), (connOf s ctx).st = .established →
      exec (.connectionFailure ctx false) s = .next (connFail ctx s) ∧ exec (.connectionFailure ctx true) s = .next (headerFailure ctx s)) ∧
  (∀ (ctx : Nat) (s : State), (connOf s ctx).st = .established → (oldestSent s ctx).isSome = true →
      (retryLimit (connOf s ctx) ≤ (connOf s ctx).retries → exec (.retryTimeout ctx) s = .next (connFail ctx s)) ∧
      ((connOf s ctx).retries < retryLimit (connOf s ctx) → exec (.retryTimeout ctx) s =
        .next (emit (.remote ctx 0x82 []) (modConn ctx (fun x => { x with retries := x.retries + 1 }) s)))) ∧
  (∀ (ctx : Nat) (s : State), (connOf s ctx).st = .recovering →
      exec (.lossTmo ctx) s = .next (cxLose ctx (raise 0xA 0x03 ctx .device (modConn ctx (fun x => { x with st := .failed })
        (advanceTo ((connOf s ctx).downAt + leAt (connOf s ctx).data 72 2 * 1000000000) s)))))

/-- A context or a namespace entry is written, read, resumed and disabled through the data registers of firmware (R348, R357, R358, R363, R368); a CNP halves a context's rate and it recovers (R361; a context with no ceiling starts from the rate of its port, which is this model's choice, assumption 140); a peer's READ or WRITE reaches only a key in flight (R361, R362); a SEND lands in the oldest posted buffer (R365, R366); a STORAGE-class entry is sent on its connection or completes with the status that refuses it (R354, R365, R366). Rests on R348, R349, R354, R357, R358, R361, R362, R363, R365, R366 and R368. -/
def Obligations.ContextsAndRdma : Prop :=
  (∀ (p : Path) (off c : Nat) (d : Bytes) (s0 s : State), regBar p .STO_CTX_CTRL 0 = some off → actsAt p off s0 = true → s = atWork p off s0 →
      stoWriter (asPath p) = true → c = cxSelected s (asPath p) → d = cxData s (asPath p) →
      ((connOf s c).st ≠ .disabled → exec (.ctxWrite p) s0 = .next (cxResult (asPath p) 1 s)) ∧
      ((connOf s c).st = .disabled → cxOk d = false → exec (.ctxWrite p) s0 = .next (cxResult (asPath p) 2 s)) ∧
      ((connOf s c).st = .disabled → cxOk d = true → exec (.ctxWrite p) s0 =
        .next (cxResult (asPath p) 0 (modConn c (fun _ => { data := overwrite d 1 [0], st := if byteAt d 0 = 0 then .disabled else .established, rate := leAt d 76 4 }) s)))) ∧
  (∀ (p : Path) (off : Nat) (x : Conn) (s0 s : State), regBar p .STO_CTX_CTRL 0 = some off → actsAt p off s0 = true → s = atWork p off s0 →
      stoWriter (asPath p) = true → x = connOf s (cxSelected s (asPath p)) →
      exec (.ctxRead p) s0 = .next (cxResult (asPath p) 0 (foldS (fun i u => setReg .STO_CTX_DATA i (pathCode (asPath p))
        (w32 (leAt (overwrite x.data 1 (leBytes 1 x.st.code)) (4 * i) 4)) u) (List.range 32) s))) ∧
  (∀ (p : Path) (off c : Nat) (s0 s : State), regBar p .STO_CTX_CTRL 0 = some off → actsAt p off s0 = true → s = atWork p off s0 →
      stoWriter (asPath p) = true → c = cxSelected s (asPath p) → (connOf s c).st ≠ .recovering →
      exec (.ctxResume p) s0 = .next (cxResult (asPath p) 1 s)) ∧
  (∀ (p : Path) (off c : Nat) (d : Bytes) (s0 s u : State), regBar p .STO_CTX_CTRL 0 = some off → actsAt p off s0 = true → s = atWork p off s0 →
      stoWriter (asPath p) = true → c = cxSelected s (asPath p) → d = cxData s (asPath p) →
      (connOf s c).st = .recovering → s.sto.ops = [] →
      u = raise 0xA 0x02 c .device (modConn c (fun x => { x with st := .established, retries := 0, data := overwrite (overwrite (overwrite x.data 44 (slice d 44 4)) 48 (slice d 48 8)) 60 (slice d 60 4) }) s) →
      exec (.ctxResume p) s0 = .next (cxResult (asPath p) 0 (cxSendAll c (modSto (fun t => { t with ops := t.ops.map (fun o => if o.ctx = c ∧ o.op = 1 then { o with sent := false } else o) }) u)))) ∧
  (∀ (p : Path) (off c : Nat) (s0 s : State), regBar p .STO_CTX_CTRL 0 = some off → actsAt p off s0 = true → s = atWork p off s0 →
      stoWriter (asPath p) = true → c = cxSelected s (asPath p) →
      exec (.ctxDisable p) s0 = .next (cxResult (asPath p) 0 (cxLose c (failover c (modConn c (fun x => { x with st := .disabled }) s))))) ∧
  (∀ (p : Path) (o1 o2 : Nat) (s0 s : State), stoWriter (asPath p) = false →
      (regBar p .STO_CTX_CTRL 0 = some o1 → actsAt p o1 s0 = true → s = atWork p o1 s0 →
        exec (.ctxWrite p) s0 = .next s ∧ exec (.ctxRead p) s0 = .next s ∧ exec (.ctxResume p) s0 = .next s ∧ exec (.ctxDisable p) s0 = .next s) ∧
      (regBar p .STO_NS_CTRL 0 = some o2 → actsAt p o2 s0 = true → s = atWork p o2 s0 → exec (.nsWrite p) s0 = .next s ∧ exec (.nsRead p) s0 = .next s)) ∧
  (∀ (p : Path) (off i : Nat) (d : Bytes) (s0 s : State), regBar p .STO_NS_CTRL 0 = some off → actsAt p off s0 = true → s = atWork p off s0 →
      stoWriter (asPath p) = true → i = nsSelected s (asPath p) → d = nsRecord (nsData s (asPath p)) →
      (byteAt d 7 ≠ 9 → byteAt d 7 ≠ 12 → exec (.nsWrite p) s0 = .next (setReg .STO_NS_STATUS 0 (pathCode (asPath p)) 2 s)) ∧
      (nsValid d = false → nsValid (nsEntry s i) = false → (byteAt d 7 = 9 ∨ byteAt d 7 = 12) →
        (nsCtx d 0 = 0xFFFF ∨ cxType (connOf s (nsCtx d 0)) ≠ 0) → (nsCtx d 1 = 0xFFFF ∨ cxType (connOf s (nsCtx d 1)) ≠ 0) → exec (.nsWrite p) s0 =
        .next (setReg .STO_NS_STATUS 0 (pathCode (asPath p)) 0 (modSto (fun t => { t with ns := mset (List.replicate 32 0) t.ns i d }) s)))) ∧
  (∀ (p : Path) (off : Nat) (s0 s : State), regBar p .STO_NS_CTRL 0 = some off → actsAt p off s0 = true → s = atWork p off s0 →
      stoWriter (asPath p) = true → exec (.nsRead p) s0 = .next (setReg .STO_NS_STATUS 0 (pathCode (asPath p)) 0
      (foldS (fun i u => setReg .STO_NS_DATA i (pathCode (asPath p)) (w32 (leAt (nsEntry s (nsSelected s (asPath p))) (4 * i) 4)) u) (List.range 8) s))) ∧
  (∀ (ctx top : Nat) (s : State), 2 ≤ cxType (connOf s ctx) → top = leAt (connOf s ctx).data 76 4 → top ≠ 0 → (connOf s ctx).rate ≠ 0 →
      ((connOf s ctx).st ≠ .disabled → exec (.cnpRx ctx) s = .next (modConn ctx (fun x => { x with rate := max 1 ((connOf s ctx).rate / 2), rateAt := s.elapsed }) s)) ∧
      ((connOf s ctx).rate = top → exec (.rateRecovery ctx) s = .next s) ∧
      ((connOf s ctx).rate ≠ top → ∃ t, exec (.rateRecovery ctx) s = .next t ∧ t.elapsed = (advanceTo ((connOf s ctx).rateAt + 100000) s).elapsed ∧
        (connOf t ctx).rate = min top ((connOf s ctx).rate + max 1 (top / 16)) ∧ (connOf t ctx).rateAt = t.elapsed)) ∧
  (∀ (ctx : Nat) (s : State), 2 ≤ cxType (connOf s ctx) → (connOf s ctx).st ≠ .disabled → (connOf s ctx).rate = 0 → leAt (connOf s ctx).data 76 4 = 0 →
      exec (.cnpRx ctx) s = .next (modConn ctx (fun x => { x with rate := max 1 ((1600 >>> fld (reg s .MAC_PORT_CFG (byteAt (connOf s ctx).data 6 / 8) 0) 1 0) * 1000 / 2), rateAt := s.elapsed }) s)) ∧
  (∀ (ctx rkey off len : Nat) (data bs : Bytes) (host : HostRead) (ecn : Bool) (f : Fn) (pasid : Option Nat) (segs : List (Nat × Nat)) (s u : State),
      cxType (connOf s ctx) = 2 → (connOf s ctx).st = .established → u = cnpSend ctx ecn s →
      (exec (.remoteAccess ctx false rkey off len data host false ecn) s = .next (bump .STO_STAT 2 0 1 s)) ∧
      (∀ w, rkeyBuf u ctx rkey = none → exec (.remoteAccess ctx w rkey off len data host true ecn) s = .next (emit (.remote ctx 0x83 []) (bump .STO_STAT 1 0 1 u))) ∧
      (rkeyBuf u ctx rkey = some (f, pasid, segs) →
        ((segs.map Prod.snd).foldl (· + ·) 0 < off + len → ∀ w, exec (.remoteAccess ctx w rkey off len data host true ecn) s =
          .next (emit (.remote ctx 0x83 []) (bump .STO_STAT 1 0 1 u))) ∧
        (off + len ≤ (segs.map Prod.snd).foldl (· + ·) 0 →
          mayTake u f (segAddr segs off) = true → exec (.remoteAccess ctx false rkey off len data (.data bs) true ecn) s =
          .next (emit (.remote ctx 0x84 (slice bs 0 len)) (seqRx ctx (packets (connOf s ctx) len) u))))) ∧
  (∀ (ctx : Nat) (data : Bytes) (imm : Option (BitVec 32)) (ecn : Bool) (o : StoOp) (s u : State), cxType (connOf s ctx) = 2 → (connOf s ctx).st = .established →
      u = cnpSend ctx ecn s →
      (exec (.sendReceived ctx data imm false ecn) s = .next (bump .STO_STAT 2 0 1 s)) ∧
      (u.sto.ops.filter (fun o => o.ctx == ctx && o.op == 5) = [] → exec (.sendReceived ctx data imm true ecn) s = .next (emit (.remote ctx 0x86 []) u)) ∧
      (u.sto.ops.filter (fun o => o.ctx == ctx && o.op == 5) = [o] →
        (o.len < data.length → exec (.sendReceived ctx data imm true ecn) s = .next (emit (.remote ctx 0x85 []) (opDone o.no 0x02 0 u))) ∧
        (data.length ≤ o.len → exec (.sendReceived ctx data imm true ecn) s =
          .next (opDone o.no 0 (at_ 8 data.length + at_ 40 ((imm.map BitVec.toNat).getD 0) + at_ 72 (b2n imm.isSome))
            (seqRx ctx (packets (connOf s ctx) data.length) (payloadWrite o.fn (qPasid (queue u o.fn o.sq)) o.buf data u)))))) ∧
  (∀ (f : Fn) (q op c : Nat) (w : Work) (bs : Bytes) (s u : State), nextWork s f q 4 op = some w → readsOf w = some (bs, 0) → c = entryField w.entry 4 2 →
      u = modWork f q w.ctr (fun w => { w with started := true }) s → stoGone s = false → ∀ r : State,
      (((connOf s c).st = .failed ∨ (connOf s c).st = .disabled) ∧ r = finishWork f q w.ctr 0x21 0 u ∨
        ((connOf s c).st = .established ∨ (connOf s c).st = .recovering) ∧
          r = cxSendAll c (modSto (fun t => { t with ops := t.ops ++ [{ fn := f, sq := q, ctr := w.ctr, trk := w.trk.getD 0, ctx := c, op := op, no := w.arrived, buf := entryField w.entry 16 8, len := entryField w.entry 24 4, gen := mget 0 s.sto.gens (w.trk.getD 0) }] }) u)) →
      (op = 1 → exec (.nvmfCmd f q) s = .next r) ∧ (op = 2 → exec (.rdmaSend f q) s = .next r) ∧ (op = 3 → exec (.rdmaWrite f q) s = .next r) ∧
      (op = 4 → exec (.rdmaRead f q) s = .next r) ∧ (op = 5 → exec (.recvBuffer f q) s = .next r))

/-- A running channel carries out its first job, reading source and index table when the job begins (R372, R376, R377); issued jobs complete together behind a flushing read (R378); a bus error halts and latches the channel (R380); movers are assigned and pre-empted by priority (R372, R373); a halted channel is resumed or aborted, a descriptor started, unless the mode fetches nothing (R381, R383; that BUSY answers then is the model's reading, assumption 130); a tracker entry is granted (R354). Rests on R354, R371, R372, R373, R376, R377, R378, R380, R381, R383 and R384. -/
def Obligations.DataMover : Prop :=
  (∀ (ch n : Nat) (src idx : HostRead) (j : Job) (js : List Job) (s r : State), (mvChan s ch).jobs = j :: js → (mvChan s ch).st = .running →
      (activeUnits s 4).contains (mvChan s ch).mover = true →
      ((∃ b, j.src = some b ∧ r = mvAdvance ch j (mvPieces j) n j.pos s) ∨
        (j.src = none ∧ (∀ m, (mvSpans j.entry).2.2 = some m → mvDevice j.entry 2 = false → mayTake s j.fn (entryField j.entry 24 8) = true) ∧
          (∃ sb ib, mvFetch s j 2 24 (mvSpans j.entry).2.2 idx = .ok ib ∧
            (∀ m, mvSourceLen j.entry = some m → mvDevice j.entry 0 = false → mayTake s j.fn (entryField j.entry 8 8) = true) ∧
            mvFetch s j 0 8 (mvSourceLen j.entry) src = .ok sb ∧
            r = mvAdvance ch { j with src := some sb, idx := ib } (mvPieces { j with src := some sb, idx := ib }) n 0
              (modChan ch (fun u => { u with jobs := updAt 0 (fun _ => { j with src := some sb, idx := ib }) u.jobs }) s))) ∨
        (j.src = none ∧ (∀ m, (mvSpans j.entry).2.2 = some m → mvDevice j.entry 2 = false → mayTake s j.fn (entryField j.entry 24 8) = true) ∧
          (∃ ib x s1, mvFetch s j 2 24 (mvSpans j.entry).2.2 idx = .ok ib ∧ operandRead j.fn (entryField j.entry 8 8) src s = some s1 ∧
            mvFetch s1 j 0 8 (mvSourceLen j.entry) src = .error x ∧ r = busError ch x.1 x.2.1 false false x.2.2 s1))) →
      (entryField j.entry 0 1 = 1 → src = idx → exec (.copy ch n src) s = .next r) ∧
      (entryField j.entry 0 1 = 2 → src = .data [] → idx = .data [] → exec (.fill ch n) s = .next r) ∧
      (entryField j.entry 0 1 = 3 → exec (.gather ch n src idx) s = .next r) ∧
      (entryField j.entry 0 1 = 4 → exec (.scatter ch n src idx) s = .next r) ∧
      (entryField j.entry 0 1 = 5 → src = idx → exec (.interleave ch n src) s = .next r) ∧
      (entryField j.entry 0 1 = 6 → src = idx → exec (.deinterleave ch n src) s = .next r) ∧
      (entryField j.entry 0 1 = 7 → src = idx → exec (.toPlanes ch n src) s = .next r) ∧
      (entryField j.entry 0 1 = 8 → src = idx → exec (.fromPlanes ch n src) s = .next r)) ∧
  (∀ (ch n i : Nat) (j : Job) (ps : List (Option (Nat × Bytes))) (a : Nat) (bs : Bytes) (s t : State), ps.getD i none = some (a, bs) →
      mvElementOk s j i = true → mvPoisonAt s j i = none → mvWritePiece j i a bs s = (true, t) →
      (i + 1 < ps.length → mvAdvance ch j ps (n + 1) i s = mvAdvance ch j ps n (i + 1) t) ∧
      (i + 1 = ps.length → mvAdvance ch j ps (n + 1) i s = jobWritten ch 0 (modChan ch (fun u => { u with jobs := updAt 0 (fun x => { x with pos := i + 1 }) u.jobs }) t))) ∧
  (∀ (ch : Nat) (js : List Job) (s : State), (mvChan s ch).flushing = js → js ≠ [] →
      (∀ got, js.any wroteHost = false → exec (.jobComplete ch got) s = .next (foldS (fun j s => jobDone ch j j.status s) js (modChan ch (fun u => { u with flushing := [] }) s))) ∧
      (∀ j bs, (js.filter wroteHost).getLast? = some j → mayTake s j.fn (mvLastAddr j) = true → exec (.jobComplete ch (.data bs)) s =
        .next (foldS (fun j s => jobDone ch j j.status s) js (modChan ch (fun u => { u with flushing := [] }) (bump .DMV_STAT 2 0 1 s)))) ∧
      (∀ j got s1, (js.filter wroteHost).getLast? = some j → (∀ bs, got ≠ .data bs) → operandRead j.fn (mvLastAddr j) got s = some s1 → exec (.jobComplete ch got) s =
        .next (busError ch (readCause got) (mvLastAddr j) false true false (bump .DMV_STAT 2 0 1 s1)))) ∧
  (∀ (ch cause addr : Nat) (write flush device : Bool) (s : State),
      (flush = true ∧ (mvChan s ch).flushing ≠ [] ∨ flush = false ∧ (mvChan s ch).st ≠ .halted ∧ (mvChan s ch).jobs ≠ [] ∨
        flush = false ∧ (mvChan s ch).st = .halted ∧ (mvChan s ch).haltAt = some s.elapsed) →
      ∃ t, exec (.busError ch cause addr write flush device) s = .next t ∧ t = busError ch cause addr write flush device s ∧ (mvChan t ch).st = .halted ∧
        (((mvChan s ch).st ≠ .halted ∨ (mvChan s ch).haltAt = some s.elapsed ∧ addr < (mvChan s ch).failAddr) → (mvChan t ch).cause = cause ∧ (mvChan t ch).dirWrite = write ∧
          (mvChan t ch).flushErr = flush ∧ (mvChan t ch).device = device ∧ (mvChan t ch).failAddr = addr ∧ (mvChan t ch).haltAt = some s.elapsed)) ∧
  (∀ (w v : Nat) (s : State), mvLeast (fun c => mvPrio s c * 2 ^ 64 + (mvChan s c).waitNo) (mvSelect s mvReady) = some w → blockWaits s 11 = false →
      (kindGone s 4 = true → exec .moverAssign s = .next (jobWritten w 0x3F s)) ∧
      (kindGone s 4 = false → unitDead s 0xB00 = false →
        (∀ m, (freeMovers s).head? = some m → exec .moverAssign s = .next (mvRun w m s)) ∧
        (freeMovers s = [] →
          mvLeast (fun c => (7 - mvPrio s c) * 2 ^ 64 + (2 ^ 64 - 1 - (mvChan s c).runNo)) (mvRunning s) = some v →
          (mvPrio s w < mvPrio s v → exec .moverAssign s = .next (mvRun w (mvChan s v).mover (mvWait v (modChan v (fun u => { u with st := .preempted }) (bump .DMV_STAT 0 0 1 s))))) ∧
          (mvPrio s v ≤ mvPrio s w → exec .moverAssign s = .next s)))) ∧
  (∀ (p q : Path) (o1 o2 ch c : Nat) (s0 s1 s : State), vfPath p = false → q = asPath p →
      regBar p .DMV_CH_SELECT 0 = some o1 → actsAt p o1 s0 = true → s1 = plainReg q .DMV_CH_SELECT 0 (w32 ch) (atWork p o1 s0) →
      regBar p .DMV_CH_CTRL 0 = some o2 → actsAt p o2 s1 = true → s = atWork p o2 s1 → c = mvSelected s q →
      (mvControls s q c = false → exec (.channelResume p ch) s0 = .next (mvResult q 2 s) ∧ exec (.channelAbort p ch) s0 = .next (mvResult q 2 s)) ∧
      (mvControls s q c = true → (mvChan s c).st ≠ .halted → exec (.channelResume p ch) s0 = .next (mvResult q 1 s) ∧ exec (.channelAbort p ch) s0 = .next (mvResult q 1 s)) ∧
      (mvControls s q c = true → (mvChan s c).st = .halted →
        exec (.channelResume p ch) s0 = .next (mvResult q 0 (mvWait c (modChan c mvUnlatch s))) ∧
        exec (.channelAbort p ch) s0 = .next (mvResult q 0 (foldS (fun j s => jobDone c j 0x30 s) (mvChan s c).jobs (modChan c (fun u => { mvUnlatch u with jobs := [] }) s)))) ∧
      ((mvOwner s c ≠ .fw ∨ mayWrite s q .DMV_CH_DESC = false) → exec (.channelStart p ch) s0 = .next (mvResult q 2 s)) ∧
      (mvOwner s c = .fw → mayWrite s q .DMV_CH_DESC = true → ((mvChan s c).jobs ≠ [] ∨ modeFetches s = false) → exec (.channelStart p ch) s0 = .next (mvResult q 1 s)) ∧
      (∀ u, mvOwner s c = .fw → mayWrite s q .DMV_CH_DESC = true → (mvChan s c).jobs = [] → (mvChan s c).flushing = [] → modeFetches s = true → headerStatus 5 (descEntry s c) = 0 →
        entryField (descEntry s c) 4 1 % 64 = c → mvStatus s .fw (descEntry s c) = 0 → u = mvResult q 0 (modChan c (fun u => { u with jobStatus := none }) s) →
        exec (.channelStart p ch) s0 = .next (modChan c (fun x => { x with jobs := [{ fn := .fw, entry := descEntry s c, arrived := u.sto.arrivals }] })
          (modSto (fun t => { t with arrivals := t.arrivals + 1 }) u)))) ∧
  (∀ (p : Path) (v m off ch c : Nat) (s0 s : State), asPath p = .fn (.vf v m) → regBar p .VF_DMV_CTRL 0 = some off → actsAt p off s0 = true → c = ch % 64 →
      s = modDmv (fun d => { d with vfChan := mset 0 d.vfChan (fnCode (.vf v m)) c }) (atWork p off s0) →
      (mvControls s (.fn (.vf v m)) c = false → exec (.channelResume p ch) s0 = .next (mvResult (.fn (.vf v m)) 2 s) ∧ exec (.channelAbort p ch) s0 = .next (mvResult (.fn (.vf v m)) 2 s)) ∧
      (mvControls s (.fn (.vf v m)) c = true → (mvChan s c).st = .halted →
        exec (.channelResume p ch) s0 = .next (mvResult (.fn (.vf v m)) 0 (mvWait c (modChan c mvUnlatch s))) ∧
        exec (.channelAbort p ch) s0 = .next (mvResult (.fn (.vf v m)) 0 (foldS (fun j s => jobDone c j 0x30 s) (mvChan s c).jobs (modChan c (fun u => { mvUnlatch u with jobs := [] }) s)))) ∧
      exec (.channelStart p ch) s0 = .next s) ∧
  (∀ (c : Nat) (a : TrkAsk) (s s1 : State),
      mvLeast (fun c => (BitVec.ofNat 16 c - BitVec.ofNat 16 (s.sto.lastFn + 1)).toNat) ((trkFns s).filter (fun c => (oldestAsk s c).isSome && trkRoom s (fnOf c))) = some c →
      oldestAsk s c = some a → s1 = modSto (fun t => { t with lastFn := c, gens := mset 0 t.gens (trkFree s) ((mget 0 t.gens (trkFree s) + 1) % 2 ^ 14) }) s →
      (∀ ch, a.ch = some ch → exec .trackerGrant s = .next (trkHigh (mvWait ch (modChan ch (fun u => { u with
        jobs := u.jobs.map (fun j => if mvTracked j then j else { j with trk := some (trkFree s) }) }) s1)))) ∧
      (a.ch = none → a.nvme = true → exec .trackerGrant s = .next (trkHigh (modSto (fun t => { t with ctrls := mmod {} t.ctrls c (fun x => { x with
        cmds := updFirst (fun n => n.no == a.no) (fun n => { n with trk := some (trkFree s) }) x.cmds }) }) s1))) ∧
      (∀ w, a.ch = none → a.nvme = false → workOf (modWork (fnOf c) a.sq a.ctr (fun w => { w with trk := some (trkFree s) }) s1) (fnOf c) a.sq a.ctr = some w → w.cls ≠ 5 →
        exec .trackerGrant s = .next (trkHigh (modWork (fnOf c) a.sq a.ctr (fun w => { w with trk := some (trkFree s) }) s1))))

/-- Where the fast domain and the core run, the next ready thread has no STALL interrupt to take, its pc is even and its fetch is permitted, the core issues its instruction (R389): one of the thread extension has the effect of R392 to R401 on the thread, the channel or the handle; any other is an instruction of RV64IMAC (R388). Rests on R388, R389, R392, R393, R394, R395, R398, R399, R400 and R401. -/
def Obligations.ThreadInstructions : Prop :=
  (∀ (core i t w own a b : Nat) (s u : State), fastRuns s = true → coreUp s core = true → nextThread s core = some (i, t) → stallPending s t = [] → (thread s t).pc % 2 = 0 →
      fetchInstr s (thread s t) = some (some w, 4, own) → opc w = 0x0B → f3Of w = 0 → u = worked (.svcCore (corePhys s core)) (modSvc (fun v => { v with last := mset 15 v.last core i }) s) →
      a = xreg (thread s t) (rs1Of w) → b = xreg (thread s t) (rs2Of w) →
      (f7Of w = 0x00 → exec (.tfork core) s = .next (tFork t (rdOf w) a b u)) ∧
      (f7Of w = 0x01 → rs2Of w = 0 → exec (.tjoin core) s = .next (tJoin t (rdOf w) a w u)) ∧
      (f7Of w = 0x02 → rdOf w = 0 → rs2Of w = 0 → exec (.texit core) s = .next (endThread t a u)) ∧
      (f7Of w = 0x03 → rdOf w = 0 → rs2Of w = 0 → exec (.tkill core) s = .next (tKill t a w u)) ∧
      (f7Of w = 0x08 → rdOf w = 0 → rs2Of w = 0 → (thread s t).staging.length < 7 → exec (.cput core) s =
        .next (retire_ t 0 0 4 (modThread t (fun h => { h with staging := h.staging ++ [a] }) u))) ∧
      (f7Of w = 0x09 → rdOf w = 0 → exec (.csend core) s = .next (cSend t a b u)) ∧
      (f7Of w = 0x0A → exec (.ctrysend core) s = .next (cTrySend t (rdOf w) a b u)) ∧
      (f7Of w = 0x0B → rdOf w = 0 → rs1Of w = 0 → rs2Of w = 0 → exec (.cclear core) s = .next (retire_ t 0 0 4 (modThread t (fun h => { h with staging := [] }) u))) ∧
      (f7Of w = 0x0C → exec (.crecv core) s = .next (cRecv t (rdOf w) a b u)) ∧
      (f7Of w = 0x0D → rs2Of w = 0 → exec (.cpoll core) s = .next (cPoll t (rdOf w) a u)) ∧
      (f7Of w = 0x0E → rs2Of w = 0 → exec (.cget core) s =
        .next (retire_ t (rdOf w) (if a < (thread s t).rx.length then (thread s t).rx.getD a 0 else 0) 4 u)) ∧
      (f7Of w = 0x10 → rdOf w = 0 → rs2Of w = 0 → exec (.twait core) s = .next (if a ≤ now u then retire_ t 0 0 4 u else beginWait t .until (some a) 0 0 u)) ∧
      (f7Of w = 0x14 → rs2Of w = 0 → exec (.halloc core) s = .next (hAlloc t (rdOf w) a u)) ∧
      (f7Of w = 0x15 → rdOf w = 0 → rs2Of w = 0 → exec (.hfree core) s = .next (hFree t a u))) ∧
  (∀ (t rd a b w : Nat) (u : State),
      (∀ k, (List.range 16).find? (fun k => (thread u (t / 16 * 16 + k)).st == .free) = some k → tFork t rd a b u =
        retire_ t rd (t / 16 * 16 + k) 4 (modThread (t / 16 * 16 + k) (fun _ => { startedThread (a / 2 * 2) b (mget 0 (thread u t).csr 0x7C0) (some t) with
          mmode := (thread u t).mmode, csr := mset 0 (mset 0 (mset 0 (mset 0 (thread u t).csr 0x300 0) 0x304 (2 ^ 16)) 0x7C0 (mget 0 (thread u t).csr 0x7C0)) 0xB02 0 }) u)) ∧
      ((List.range 16).find? (fun k => (thread u (t / 16 * 16 + k)).st == .free) = none → tFork t rd a b u = retire_ t rd (2 ^ 64 - 1) 4 u) ∧
      (a < 1024 → (thread u a).st = .zombie → (thread u a).parent = some t → tJoin t rd a w u = retire_ t rd (thread u a).exit 4 (freeThread a u)) ∧
      (a < 1024 → (thread u a).st = .running → (thread u a).parent = some t → tJoin t rd a w u = beginWait t (.join a) none rd 0 u) ∧
      ((thread u t).mmode = true → a ≠ t → a < 1024 → live u a = true → (thread u a).domain = (thread u t).domain → tKill t a w u = retire_ t 0 0 4 (endThread a (2 ^ 64 - 1) u)) ∧
      (maySend u t a = false → cSend t a b u = channelFault t a u ∧ cTrySend t rd a b u = channelFault t a u) ∧
      (maySend u t a = true → chFull u a = true → cSend t a b u = beginWait t (.send a) none 0 b u ∧ cTrySend t rd a b u = retire_ t rd 1 4 u) ∧
      (maySend u t a = true → chFull u a = false →
        cSend t a b u = retire_ t 0 0 4 (modThread t (fun h => { h with staging := [] }) (commitMsg a (stagedMsg u t b) u)) ∧
        cTrySend t rd a b u = retire_ t rd 0 4 (modThread t (fun h => { h with staging := [] }) (commitMsg a (stagedMsg u t b) u))) ∧
      (mayRecv u t a = false → cRecv t rd a b u = channelFault t a u ∧ cPoll t rd a u = channelFault t a u) ∧
      (∀ v u1, mayRecv u t a = true → takeMsg t a u = some (v, u1) → cRecv t rd a b u = retire_ t rd v 4 u1 ∧ cPoll t rd a u = retire_ t rd v 4 u1) ∧
      (mayRecv u t a = true → takeMsg t a u = none → cPoll t rd a u = retire_ t rd 0 4 u ∧ (b = 0 → cRecv t rd a b u = beginWait t (.recv a) none rd 0 u)) ∧
      (∀ k u1, 14 ≤ a → a ≤ 16380 → freeHandleNo u = some k → hallocNow k a (thread u t).domain u = some u1 → hAlloc t rd a u = retire_ t rd k 4 u1) ∧
      (14 ≤ a → a ≤ 16380 → freeHandleNo u = none → hAlloc t rd a u = retire_ t rd (2 ^ 64 - 1) 4 u) ∧
      (∀ x, mfind u.svc.handles a = some x → x.owner = .domain (thread u t).domain → hFree t a u = retire_ t 0 0 4 (freeHandle a u))) ∧
  (∀ (core i t w size own a b : Nat) (s u : State), fastRuns s = true → coreUp s core = true → nextThread s core = some (i, t) → stallPending s t = [] → (thread s t).pc % 2 = 0 →
      fetchInstr s (thread s t) = some (some w, size, own) → opc w ≠ 0x0B → u = worked (.svcCore (corePhys s core)) (modSvc (fun v => { v with last := mset 15 v.last core i }) s) →
      a = xreg (thread s t) (rs1Of w) → b = xreg (thread s t) (rs2Of w) →
      exec (.instructionIssue core) s = .next (ordinary t w size own u) ∧
      (opc w = 0x37 → exec (.instructionIssue core) s = .next (retire_ t (rdOf w) (immU w) size u)) ∧
      (opc w = 0x17 → exec (.instructionIssue core) s = .next (retire_ t (rdOf w) (m64 ((thread s t).pc + immU w)) size u)) ∧
      (opc w = 0x6F → exec (.instructionIssue core) s = .next (jumpTo t (rdOf w) size (m64 ((thread s t).pc + immJ w)) u)) ∧
      (opc w = 0x63 → branchTaken (f3Of w) a b = some true → exec (.instructionIssue core) s = .next (jumpTo t 0 size (m64 ((thread s t).pc + immB w)) u)) ∧
      (opc w = 0x63 → branchTaken (f3Of w) a b = some false → exec (.instructionIssue core) s = .next (retire_ t 0 0 size u)) ∧
      (opc w = 0x33 → f7Of w = 0 → exec (.instructionIssue core) s = .next (retire_ t (rdOf w) (alu (f3Of w) false a b) size u)) ∧
      (opc w = 0x33 → f7Of w = 1 → exec (.instructionIssue core) s = .next (retire_ t (rdOf w) (mulDiv (f3Of w) a b) size u)) ∧
      (opc w = 0x73 → w = 0x00000073 → exec (.instructionIssue core) s = .next (trap false (if (thread s t).mmode then 11 else 8) 0 t u)) ∧
      (opc w = 0x73 → w = 0x30200073 → (thread s t).mmode = true → exec (.instructionIssue core) s = .next (mret t u)))

/-- A wait's deadline is reached (R394); a stall is raised once (R406); the oldest INJECT message becomes a frame or is answered with the status that refuses it (R402); a supervisor restarts a domain or frees its handles (R407); a channel is configured (R397); a mismatch of lanes and an exchange of contexts (R391); the debugger halts, resumes and resets a thread (R394, R405); mailboxes carry messages both ways (R408). Rests on R391, R394, R397, R400, R402, R405, R406, R407, R408 and R393. -/
def Obligations.ServiceArray : Prop :=
  (∀ (t d : Nat) (s : State), (thread s t).deadline = some d → (thread s t).st = .waiting → (thread s t).halted = false →
      exec (.waitDeadline t) s = .next (endWait t 0 (advanceTai d s))) ∧
  (∀ (d : Nat) (s s1 : State), d < 64 → (mget ({} : Domain) s.svc.domains d).stalled = false → stalledNow s d = true →
      s1 = modSvc (fun u => { u with domains := mmod {} u.domains d (fun x => { x with stalled := true, irq := true }) }) s →
      exec (.stall d) s = .next (takeStall (supervisor s d) (raise 0xC 0x11 d .device (svcStat 3 1 s1))) ∧ (mget ({} : Domain) s1.svc.domains d).stalled = true) ∧
  (∀ (m : ChMsg) (rest : List ChMsg) (w : Bytes) (s s1 : State), chMsgs s 2 = m :: rest → s.tm.injectHeld = none → cellFree s = true →
      w = (m.words.map (leBytes 8)).flatten → s1 = roomMade 2 (modMsgs 2 (·.drop 1) s) →
      (mfind s.svc.handles (leAt w 4 2) = none → exec .inject s = .next (sendDone 0x11 (leAt w 2 2) (injectStatus s m) (leAt w 32 8) m.domain m.epoch s1)) ∧
      (∀ x, mfind s.svc.handles (leAt w 4 2) = some x →
        (injectStatus s m ≠ 0 → exec .inject s = .next (sendDone 0x11 (leAt w 2 2) (injectStatus s m) (leAt w 32 8) m.domain m.epoch s1)) ∧
        (injectStatus s m = 0 → exec .inject s = .next (newFrame { ingress := 3 + at_ 4 (leAt w 24 2), source := srcInject, bytes := x.bytes.take (leAt w 8 2), asEntered := x.bytes.take (leAt w 8 2), ended := true, ochre := x.ochre, umber := x.umber, sienna := x.sienna, ts := nowFrac s, bound := bound16 s, metadata := leAt w 16 8, entryPoint := if bitOf (byteAt w 1) 1 then none else some (byteAt w 10), flowIndex := if bitOf (byteAt w 1) 0 then some (leAt w 12 3) else none, injected := some (leAt w 2 2, leAt w 32 8, m.domain, m.epoch) }
          (modSvc (fun v => { v with handles := mdel v.handles (leAt w 4 2) }) s1)).2))) ∧
  (∀ (t d : Nat) (s : State), d = domSelected s →
      (controlsDomain s t d = false → exec (.domainRestart t) s = .next (domResult 1 s) ∧ exec (.freeHandles t) s = .next (domResult 1 s)) ∧
      (controlsDomain s t d = true → fld (chCfg s 4) 13 8 ≠ d → exec (.domainRestart t) s =
        .next (domResult 0 (modSvc (fun v => { v with
            domains := mmod {} v.domains d (fun x => { x with epoch := (x.epoch + 1) % 65536 })
            deferred := v.deferred.filter (fun e => !owedTo d (domEpoch s d) e.2) })
          (killThreads (fun k h => h.domain == d && k != supervisor s d) s)))) ∧
      (∀ hs, controlsDomain s t d = true → hs = (s.svc.handles.filter (fun e => e.2.owner == .domain d)).map Prod.fst → exec (.freeHandles t) s =
        .next (domResult 0 (svcStat 2 hs.length (foldS freeHandle hs s))))) ∧
  (∀ (p q : Path) (off c : Nat) (v0 v : Word) (s0 s : State), q = asPath p → regBar p .SVC_CH_CFG 0 = some off → actsAt p off s0 = true → s = atWork p off s0 →
      mayWrite s q .SVC_CH_CFG = true → c = fld (reg s .SVC_CH_SELECT 0 (pathCode q)) 13 0 → v = readMask .SVC_CH_CFG v0 →
      (v ≠ chCfg s c → wbit (chCfg s c) 31 = true → chBusy s c = true → exec (.svcChCfgWrite p v0) s0 = .next (setReg .SVC_CH_STATUS 0 (pathCode q) (w32 (at_ 16 1)) s)) ∧
      (16 ≤ c → 4 ≤ fld v 3 0 → fld v 3 0 ≤ 12 → wbit (chCfg s c) 31 = false →
        (wbit v 31 = true → 1048576 < slotsUsed s + 2 ^ fld v 3 0 → exec (.svcChCfgWrite p v0) s0 = .next (setReg .SVC_CH_STATUS 0 (pathCode q) (w32 (at_ 16 2)) s)) ∧
        (wbit v 31 = true → slotsUsed s + 2 ^ fld v 3 0 ≤ 1048576 → exec (.svcChCfgWrite p v0) s0 =
          .next (setReg .SVC_CH_STATUS 0 (pathCode q) (w32 (at_ 16 0)) (modSvc (fun x => { x with channels := mmod {} x.channels c (fun y => { y with cfg := v }) }) s)))) ∧
      (16 ≤ c → (fld v 3 0 < 4 ∨ 12 < fld v 3 0) → wbit (chCfg s c) 31 = false → exec (.svcChCfgWrite p v0) s0 = .next (setReg .SVC_CH_STATUS 0 (pathCode q) (w32 (at_ 16 1)) s))) ∧
  (∀ (core : Nat) (s : State), (coreUp s core = true → exec (.laneMismatch core) s = .next (countFault 3 (corePhys s core) 0 false (svcStat 4 1 s))) ∧
      (coreUp s core = false → exec (.laneMismatch core) s = .next s)) ∧
  (∀ (core : Nat) (s : State), 16 < (coreContexts s core).length → ∃ t, exec (.contextExchange core) s = .next t ∧
      t.svc.hosts = mput s.svc.hosts core ((coreContexts s core).drop 1 ++ (coreContexts s core).take 1)) ∧
  (∀ (t : Nat) (s : State), debugGrants s 1 = true →
      (((thread s t).st = .running ∨ (thread s t).st = .waiting) →
        exec (.debugHalt t) s = .next (modThread t (fun h => { h with halted := true }) (abandonWait t s)) ∧ exec (.hartreset t) s = .next (endThread t (2 ^ 64 - 1) s)) ∧
      exec (.debugResume t) s = .next (takeStall t (modThread t (fun h => { h with halted := false }) s))) ∧
  (∀ (t : Nat) (s : State), debugGrants s 1 = false → exec (.debugHalt t) s = .next s ∧ exec (.debugResume t) s = .next s ∧ exec (.hartreset t) s = .next s) ∧
  (∀ (f : Fn) (off : Nat) (v : Word) (body : Bytes) (s0 s : State), regBar (.fn f) .MBX_H2F_CTRL 0 = some off → actsAt (.fn f) off s0 = true → s = atWork (.fn f) off s0 →
      hasMailbox s f = true → wbit v 31 = true →
      ((mbxOf s f).h2fFull = true → exec (.mbxSend f v) s0 = .next (hwSet .MBX_STATUS 0 (fnCode f) 3 s)) ∧
      ((mbxOf s f).h2fFull = false →
        body = slice (((List.range 14).map (fun i => leBytes 4 (reg s .MBX_H2F_DATA i (fnCode f)).toNat)).flatten.take (min 56 (fld v 5 0))) 0 56 →
        exec (.mbxSend f v) s0 = .next (devSend 4 ((0x20 + at_ 8 (min 56 (fld v 5 0)) + at_ 16 (fnCode f)) :: (List.range 7).map (fun i => leAt body (8 * i) 8))
          (modMbx f (fun b => { b with h2fFull := true }) s)))) ∧
  (∀ (f : Fn) (off : Nat) (s0 s : State), f ≠ .fw → regBar (.fn f) .MBX_F2H_POP 0 = some off → actsAt (.fn f) off s0 = true → s = atWork (.fn f) off s0 →
      mfind s.shadow (shadowKey (.fn f) off) = none →
      ((mbxOf s f).f2hFull = true → exec (.mbxF2hPop f) s0 = .next (emit (.readData (.fn f) off (w32 ((mbxOf s f).f2h.length + at_ 31 1)))
        (devSend 4 [0x22 + at_ 16 (fnCode f)] (modMbx f (fun b => { b with f2hFull := false, f2h := [] }) s)))) ∧
      ((mbxOf s f).f2hFull = false → exec (.mbxF2hPop f) s0 = .next (emit (.readData (.fn f) off 0) s))) ∧
  (∀ (p q : Path) (off : Nat) (v : Word) (d : Bytes) (s0 s : State), q = asPath p → regBar p .SVC_FMBX_CTRL 0 = some off → actsAt p off s0 = true → s = atWork p off s0 →
      mayWrite s q .SVC_FMBX_CTRL = true → wbit v 31 = true →
      d = ((List.range 14).map (fun i => leBytes 4 (reg s .SVC_FMBX_DATA i (pathCode q)).toNat)).flatten.take (min 56 (fld v 21 16)) →
      (hasMailbox s (fnOfCode (fld v 14 0)) = false → exec (.fmbxSend p v) s0 = .next (setReg .SVC_FMBX_STATUS 0 (pathCode q) 2 s)) ∧
      (hasMailbox s (fnOfCode (fld v 14 0)) = true → (fnSt s (fnOfCode (fld v 14 0))).ready = false →
        exec (.fmbxSend p v) s0 = .next (setReg .SVC_FMBX_STATUS 0 (pathCode q) 3 s)) ∧
      (hasMailbox s (fnOfCode (fld v 14 0)) = true → (fnSt s (fnOfCode (fld v 14 0))).ready = true → (mbxOf s (fnOfCode (fld v 14 0))).f2hFull = true →
        exec (.fmbxSend p v) s0 = .next (setReg .SVC_FMBX_STATUS 0 (pathCode q) 1 s)) ∧
      (hasMailbox s (fnOfCode (fld v 14 0)) = true → (fnSt s (fnOfCode (fld v 14 0))).ready = true → (mbxOf s (fnOfCode (fld v 14 0))).f2hFull = false →
        exec (.fmbxSend p v) s0 = .next (setReg .SVC_FMBX_STATUS 0 (pathCode q) 0
          (raise 0xC 0x01 0 (.function (fnOfCode (fld v 14 0))) (modMbx (fnOfCode (fld v 14 0)) (fun b => { b with f2hFull := true, f2h := d }) s)))))

/-- A port comes up and grants its credit (R412, R414) or goes down; a link frame in sequence is acknowledged and any other answered with a NAK (R413); a NAK replays (R412, R413); a HELLO carries and updates membership (R415, R416), its absence loses the neighbour, and the master is judged (R417); time frames are stamped and measured (R423, R424); images are asked for, passed and reported (R425, R426). A device that has joined no chain is a chain of its own (assumption 70); LINK frames are unnumbered and result bodies are the model's layout (NOTES.md). Rests on R77, R412, R413, R414, R415, R416, R417, R418, R423, R424, R425 and R426. -/
def Obligations.AkzalCascade : Prop :=
  (∀ (p : Nat) (s s1 s2 : State), p < 2 → (akzPort s p).up = false → akzMayRun s p = true →
      s1 = akzEvent 0x01 p (modAkzPort p (fun x => { x with up := true, training := false }) s) →
      s2 = foldS (fun c s => grantCredit (some (p, c, dfld s .AKZ_CREDIT_CELLS 15 0)) s) (List.range 8) s1 →
      exec (.akzPortUp p) s = .next (judgeChain (tryJoin none s2))) ∧
  (∀ (p : Nat) (s : State), (p < 2 → exec (.akzPortDown p) s = .next (akzPortDown p s)) ∧
      exec .ethRefclkLoss s = .next (akzPortDown 1 (akzPortDown 0 (foldS lportDown allLports (modCai (fun c => { c with ethRef := false }) s)))) ∧
      exec .ethRefclkReturn s = .next (foldS akzBegin [0, 1] (foldS beginUp allLports (modCai (fun c => { c with ethRef := true }) s)))) ∧
  (∀ (p q c n : Nat) (ok : Bool) (s : State), p < 2 → (akzPort s p).up = true →
      (ok = true → q % 4096 = (akzPort s p).expect → exec (.linkFrameRx p ok (.frame q)) s =
        .next (emit (.akz p 3 1 (leBytes 2 q)) (modAkzPort p (fun x => { x with expect := (x.expect + 1) % 4096 }) s))) ∧
      ((ok = false ∨ q % 4096 ≠ (akzPort s p).expect) → exec (.linkFrameRx p ok (.frame q)) s = .next (emit (.akz p 3 2 (leBytes 2 (akzPort s p).expect)) s)) ∧
      (exec (.linkFrameRx p true (.ack q)) s = .next (acked p (q % 4096) s)) ∧
      (c < 8 → exec (.linkFrameRx p true (.credit c n)) s = .next (akzPump p (modAkzPort p (fun x => { x with credit := updAt c (· + n) x.credit }) s)))) ∧
  (∀ (p q : Nat) (s s1 : State), p < 2 → (akzPort s p).up = true → s1 = acked p ((q + 4095) % 4096) s → ((akzPort s1 p).replay.map LinkFrame.seq).head? = some (q % 4096) →
      (8 ≤ (akzPort s1 p).replayed → exec (.linkNakRx p q) s = .next (akzPortDown p s1)) ∧
      ((akzPort s1 p).replayed < 8 → exec (.linkNakRx p q) s =
        .next (foldS (fun (f : LinkFrame) s => emit (.akz p (hdType f.item.header) f.seq (linkFrame f.item)) s) (akzPort s1 p).replay
          (akzStat 3 (akzPort s1 p).replay.length (modAkzPort p (fun x => { x with replayed := x.replayed + 1 }) s1))))) ∧
  (∀ (p own : Nat) (s : State), p < 2 → (akzPort s p).up = true → own = (if s.akz.joined then 2 ^ s.akz.member else 0) →
      exec (.helloTx p) s = .next (sendControl p 1 0 (leBytes 1 s.akz.member ++ leBytes 8 serial64 ++
        leBytes 1 ((s.akz.masterOk &&& (255 - own)) ||| (if wbit (reg s .AKZ_CFG 0 0) 3 then own else 0)) ++ leBytes 1 s.akz.members ++ leBytes 1 (own ||| (akzPort s (1 - p)).reach)) s)) ∧
  (∀ (p : Nat) (h : Hello) (s s2 : State), p < 2 → (akzPort s p).up = true → h.joined = true →
      s2 = tryJoin (some h.lowSerial) (modAkzPort p (fun x => { x with nbJoined := true, nbMember := h.member % 8, nbSerial := h.serial, reach := h.reach % 256, headSerial := h.headSerial, helloAt := s.elapsed }) s) →
      exec (.helloRx p h) s = .next (judgeChain (modAkz (fun a => { a with masterOk := (a.masterOk &&& (255 - h.reach % 256)) ||| (h.masterOk &&& (h.reach % 256)), members := a.members ||| (if a.joined then h.reach % 256 ||| (if s.akz.joined then 0 else h.members % 256) else 0), serials := mput a.serials (h.member % 8) h.serial }) s2))) ∧
  (∀ (p : Nat) (s : State), p < 2 → (akzPort s p).up = true → exec (.helloTimeout p) s =
      .next (judgeChain (modAkzPort p (fun x => { x with reach := 0, nbJoined := false }) (advanceTo ((akzPort s p).helloAt + 400000) s)))) ∧
  (∀ (m : Option Nat) (s : State),
      m = (if s.akz.joined then (maskBits s.akz.reachable).find? (bitOf ((s.akz.masterOk &&& (255 - 2 ^ s.akz.member)) |||
        (if wbit (reg s .AKZ_CFG 0 0) 3 then 2 ^ s.akz.member else 0))) else none) →
      (m = s.akz.master → exec .masterChange s = .next s) ∧
      (m ≠ s.akz.master → ∃ t, exec .masterChange s = .next t ∧ t.akz.master = m ∧ t = akzEvent 0x05 (m.getD s.akz.member) (modAkz (fun a => { a with master := m }) s))) ∧
  (∀ (p q : Path) (off m : Nat) (s0 s s1 : State), q = asPath p → regBar p .AKZ_CTRL 0 = some off → actsAt p off s0 = true → s = atWork p off s0 →
      mayWrite s q .AKZ_CTRL = true → m < 8 → bitOf (reachNow s) m = false → bitOf s.akz.members m = true →
      s1 = modAkz (fun a => { a with members := a.members &&& (255 - 2 ^ m), serials := mdel a.serials m }) s →
      ((s.akz.whole = true ∨ s1.akz.joined = false ∨ (maskBits s1.akz.members).all (fun k => bitOf (reachNow s1) k) = false) → exec (.forget p m) s0 = .next s1) ∧
      (s.akz.whole = false → s1.akz.joined = true → (maskBits s1.akz.members).all (fun k => bitOf (reachNow s1) k) = true →
        exec (.forget p m) s0 = .next (akzEvent 0x07 m (modAkz (fun a => { a with whole := true }) s1)))) ∧
  (∀ (p : Nat) (s : State), p < 2 → s.akz.joined = true →
      (controlRoom s p 2 (controlItem s 2 0 (List.replicate 64 0)) = false → exec (.timeFrameTx p) s = .next s) ∧
      (controlRoom s p 2 (controlItem s 2 0 (List.replicate 64 0)) = true →
      ∃ body, exec (.timeFrameTx p) s = .next (modAkzPort p (fun x => { x with timeSeq := (x.timeSeq + 1) % 65536, timeSent := ((x.timeSeq, nowFrac s, s.elapsed) :: x.timeSent).take 8 })
          (sendControl p 2 0 body s)) ∧
        body.length = 64 ∧ body.take 12 = leBytes 8 (nowFrac s / 0x10000) ++ leBytes 2 (nowFrac s % 0x10000) ++ leBytes 2 (akzPort s p).timeSeq)) ∧
  (∀ (p : Nat) (b : Bytes) (s s1 : State), p < 2 → (akzPort s p).up = true → s1 = modAkzPort p (fun x => { x with timeRx := some (leAt b 10 2, nowFrac s) }) s →
      ((akzPort s p).timeSent.find? (fun e => e.1 == leAt b 12 2 && decide (s.elapsed ≤ e.2.2 + 4000000)) = none → exec (.timeFrameRx p b) s = .next s1) ∧
      (∀ e th, (akzPort s p).timeSent.find? (fun e => e.1 == leAt b 12 2 && decide (s.elapsed ≤ e.2.2 + 4000000)) = some e →
        (slotOf s (0x13 + p)).st ≠ .disabled → 2 ≤ byteAt b 26 → leAt b 28 4 ≠ 0xFFFFFFFF → bitOf (byteAt b 35) s.akz.member = false →
        th = ptpTheta s (0x13 + p) { t1 := leAt b 0 8 * 0x10000 + leAt b 8 2, t2 := nowFrac s, t3 := e.2.1, t4 := leAt b 16 8 * 0x10000 + leAt b 24 2 } →
        exec (.timeFrameRx p b) s = .next (akzUtc (0x13 + p) b (measure (0x13 + p) th.1
          { mpd := th.2.natAbs, interval := firstInterval (0x13 + p), neighbour := leAt b 28 4 * nsUnits, sourceId := (akzPort s p).nbSerial, hops := byteAt b 34 + 1, upstreamSeq := leAt b 36 8 }
          (modSlot (0x13 + p) (fun r => { r with path := byteAt b 35 }) s1))))) ∧
  (∀ s : State,
      ((s.cai.mode = .service ∨ s.cai.mode = .spared ∨ s.cai.mode = .isolated) → (akzPort s 1).up = true → s.lcs.running ≠ [] →
        exec (.bootReq true) s = .next (akzPump 1 (modAkzPort 1 (fun x => { x with imgOut := s.lcs.running, imgOff := 0 }) s))) ∧
      (bitOf s.cai.straps.toNat 5 = true → (s.cai.bringup.map Bringup.waitUntil).getD none ≠ none → exec (.bootReq false) s = .next (sendControl 0 5 0 (leBytes 1 0) s))) ∧
  (∀ (b got : Bytes) (s s1 : State), (akzPort s 0).up = true → s.akz.whole = true → (leAt b 0 4 = 0 ∨ leAt b 0 4 = s.akz.imgGot.length) → s.cai.mode ≠ .bringup →
      got = (if leAt b 0 4 = 0 then [] else s.akz.imgGot) ++ b.drop 56 →
      s1 = modAkz (fun a => { a with imgLen := leAt b 4 4, imgHash := slice b 8 48, imgGot := got })
        (modCai (fun c => { c with bringup := c.bringup.map (fun b => { b with waitUntil := none }) }) s) →
      (got.length < leAt b 4 4 → exec (.imageFrame b) s = .next s1) ∧
      (∀ r, leAt b 4 4 ≤ got.length → s.akz.master = none → (sha384 got == slice b 8 48) = true → r = stageImage got (modAkz (fun a => { a with imgGot := [] }) s1) →
        exec (.imageFrame b) s = .next r.2) ∧
      (∀ r m, leAt b 4 4 ≤ got.length → s.akz.master = some m → (sha384 got == slice b 8 48) = true → r = stageImage got (modAkz (fun a => { a with imgGot := [] }) s1) →
        exec (.imageFrame b) s = .next (sendTo m (leBytes 1 1 ++ leBytes 1 s.akz.member ++ leBytes 1 r.1) r.2))) ∧
  (∀ (m st : Nat) (s : State), (isMaster s = true → exec (.imageResult m st) s = .next (takeResult (m % 8) (st % 256) s)) ∧
      (∀ k, isMaster s = false → s.akz.master = some k → exec (.imageResult m st) s = .next (sendTo k (leBytes 1 1 ++ leBytes 1 m ++ leBytes 1 st) s)))

/-- A fault is counted (R434); a sub-window's boundary forgets the counts that are older than the window (R434); a hand-off puts the spare into the active set or leaves the set reduced (R437, R440); a retired unit is retested (R438); a scrubbed line is corrected and counted, or poisoned (R432, R433); a fatal check stops the device, and 1 ms later it starts again (R107, R443). Rests on R107, R432, R433, R434, R437, R438, R440 and R443. -/
def Obligations.Reliability : Prop :=
  (∀ (k i r v : Nat) (b : Bool) (s s1 : State),
      (11 ≤ k → exec (.faultCount k i r b) s = .next s) ∧
      (k < 9 → ((unitOf s k i).st ≠ 0 ∨ (unitCounts k).1 ≤ i ∨ instanceGated s k i = true) → exec (.faultCount k i r b) s = .next s) ∧
      (k < 9 → (unitOf s k i).st = 0 → i < (unitCounts k).1 → instanceGated s k i = false → s1 = modUnit k i (addCount s k) s → v = screeValue s1 k (unitOf s1 k i) →
        (b = false → v < screeThreshold s k → exec (.faultCount k i r b) s = .next (mcLog 0 k i 0xFFFF 0 0 v s1)) ∧
        ((b = true ∨ screeThreshold s k ≤ v) → k < 7 → exec (.faultCount k i r b) s = .next (retire k i v s1)) ∧
        ((b = true ∨ screeThreshold s k ≤ v) → 7 ≤ k → exec (.faultCount k i r b) s = .next (lastingCopy k i v s1))) ∧
      (∀ u, 9 ≤ k → k < 11 → u = addCount s k (mget {} s.rel.rows (rowKey k i r)) → s1 = modRel (fun x => { x with rows := mset {} x.rows (rowKey k i r) u }) s → v = screeValue s1 k u →
        (b = false → v < screeThreshold s k → exec (.faultCount k i r b) s = .next (mcLog 0 k i 0xFFFF 0 r v s1)) ∧
        ((b = true ∨ screeThreshold s k ≤ v) → exec (.faultCount k i r b) s = .next (lastingRow k i r v s1)))) ∧
  (∀ (k i : Nat) (s : State), (s.cai.mode = .off → exec (.machineCheckFatal k i) s = .next s) ∧
      (s.cai.mode ≠ .off → ∃ t, exec (.machineCheckFatal k i) s = .next t ∧ t.cai.fatal = true ∧ t.cai.wakeCause = 4 ∧
        ((s.cai.mode = .bringup ∨ s.cai.mode = .service ∨ s.cai.mode = .spared ∨ s.cai.mode = .pause ∨ s.cai.mode = .drain ∨ s.cai.mode = .isolated ∨ s.cai.mode = .recovery) →
          t.cai.mode = .standby ∧ t.cai.fatalRestartAt = some (s.elapsed + 1000000)) ∧
        ((s.cai.mode = .held ∨ s.cai.mode = .standby ∨ s.cai.mode = .test ∨ s.cai.mode = .returned) → t.cai.mode = s.cai.mode) ∧
        (k = 8 → t.rel.log = [] ∧ t.tim.lost = true))) ∧
  (∀ (k : Nat) (s s1 : State), s1 = advanceTo (ceilDiv ((subWindow s k + 1) * screeWindow s k) 8) s →
      ∃ t, exec (.screeSubwindow k) s = .next t ∧ t.elapsed = s1.elapsed ∧
        t.rel.units = (s1.rel.units.map (fun e => if e.1 / 65536 = k then (e.1, { e.2 with counts := liveCounts s1 k e.2 }) else e)).filter
          (fun e => e.2 != unitReset (e.1 / 65536) (e.1 % 65536)) ∧
        t.rel.rows = (s1.rel.rows.map (fun e => if e.1 / 2 ^ 56 = k then (e.1, { e.2 with counts := liveCounts s1 k e.2 }) else e)).filter (fun e => e.2 != {})) ∧
  (∀ (k : Nat) (h : Handoff) (s s1 s2 s3 s4 : State), s.rel.handoffs.find? (fun h => h.kind == k) = some h → s1 = modRel (fun r => { r with handoffs := dropFirst (· == h) r.handoffs }) s →
      (∀ j power own st, h.joins = some j → power = ((powerUnit k h.leaves).map (fun u => (domainSt s1 u).st)).getD .gated → own = ((powerUnit k j).map (fun u => (domainSt s1 u).st)).getD .gated →
        st = (if own = .gated then power else own) →
        s2 = newEpoch k j (modUnit k j (fun u => { u with st := 0 }) (setPower k j { st := st, since := s1.elapsed } (setPower k h.leaves {} s1))) →
        s3 = mcLog 2 k h.leaves j (unitOf s2 k j).epoch 0 0 s2 → s4 = relEvent 0x01 k h.leaves (setEngaged k (engagedOf s3 k + 1) s3) →
        exec (.handoffDone k) s = .next (rerun k (spareExhausted k h.leaves (moveUnit k h.leaves (some j) s4)))) ∧
      (h.joins = none → s2 = relEvent 0x04 k h.leaves (mcLog 3 k h.leaves 0xFFFF 0 0 0 (setPower k h.leaves {} s1)) → s3 = rerun k (spareExhausted k h.leaves s2) →
        (k = 3 → activeUnits s3 3 = [] → exec (.handoffDone k) s = .next (fatalCheck 3 h.leaves s3)) ∧
        ((k ≠ 3 ∨ activeUnits s3 3 ≠ []) → exec (.handoffDone k) s = .next (moveUnit k h.leaves none s3)))) ∧
  (∀ (k i e : Nat) (u : RelUnit) (s0 s s1 s2 : State), u = unitOf s0 k i → u.st = 3 → k < 7 → s = advanceTo (u.retiredAt + dfld s0 .REL_REPAIR_DELAY 31 0 * 1000000000) s0 →
      (exec (.repairRetest k i false) s0 = .next (mcLog 1 k i 0xFFFF 0 0 0 (modUnit k i (fun u => { u with st := 5 }) s))) ∧
      (s1 = newEpoch k i (modUnit k i (fun u => { u with strikes := 1, counts := [] }) s) → e = (unitOf s1 k i).epoch →
        ((activeUnits s1 k).length + (s1.rel.handoffs.filter (fun h => h.kind == k && h.joins.isSome)).length < (unitCounts k).2 →
          s2 = mcLog 4 k i i e 0 0 (modUnit k i (fun u => { u with st := 0 }) s1) → exec (.repairRetest k i true) s0 = .next (rerun k (if k = 3 then returnCore i s2 else s2))) ∧
        ((unitCounts k).2 ≤ (activeUnits s1 k).length + (s1.rel.handoffs.filter (fun h => h.kind == k && h.joins.isSome)).length →
          s2 = mcLog 4 k i 0xFFFF e 0 0 (modUnit k i (fun u => { u with st := 1 }) s1) →
          (0 < engagedOf s2 k → exec (.repairRetest k i true) s0 = .next (relEvent 0x02 k i (setEngaged k (engagedOf s2 k - 1) s2))) ∧
          (engagedOf s2 k = 0 → exec (.repairRetest k i true) s0 = .next s2)))) ∧
  (∀ (hbm : Bool) (line i r : Nat) (st re : Bytes) (two : Bool) (s : State),
      (readLine hbm st = .clean → exec (.scrub hbm line i r st re two) s = .next s) ∧
      (readLine hbm st = .corrected → exec (.scrub hbm line i r st re two) s =
        .next (countFault (if hbm then 10 else 9) i r (readLine hbm re != .clean) (bump (if hbm then .REL_CORR_H else .REL_CORR_S) 0 0 1 s))) ∧
      (readLine hbm st = .uncorrectable → two = false → exec (.scrub hbm line i r st re two) s = .next (poisonLine hbm line i (bump .REL_POISON_READ 0 0 1 s))) ∧
      (readLine hbm st = .poisoned → two = true → exec (.scrub hbm line i r st re two) s = .next (modRel (fun r => { r with poison := mdel r.poison (poisonKey hbm line) }) s))) ∧
  (∀ (a : Nat) (s : State), s.cai.fatalRestartAt = some a →
      ∃ t, exec .mcRestart s = .next t ∧ t.cai.fatalRestartAt = none ∧ t.cai.wakePending = true ∧ t.cai.wakeCause = 4 ∧ a ≤ t.elapsed)

/-- A submitted token consumes the nonce and is judged by the steps of R454: a refused one shows its RESULT, an accepted one opens a debug session or moves the life cycle (R449, R450, R455). An image is staged through a mailbox (R459); an activation runs the members in their order and the device switches, commits, rolls back or reverts (R460 to R464). DETAIL of ACTIVATE_REVERTED and the bodies of LIFECYCLE frames are the model's choices (NOTES.md). Rests on R449, R450, R454, R455, R459, R460, R461, R462, R463, R464, R466 and R467. -/
def Obligations.TokensAndUpdates : Prop :=
  (∀ (p q : Path) (off r : Nat) (t : Bytes) (s s1 : State), q = asPath p → regBar p .LCS_TOKEN_CTRL 0 = some off → pathOpen s p = true → lcsAccess s q off = true → s.lcs.life ≠ 4 → mayWrite s q .LCS_TOKEN_CTRL = true →
      t = ((List.range 88).map (fun i => leBytes 4 (reg s .LCS_TOKEN_BUF i (pathCode q)).toNat)).flatten → r = judgeToken s t →
      s1 = setReg .LCS_TOKEN_STATUS 0 (pathCode q) (w32 r) (modLcs (fun l => { l with nonce := none }) s) →
      exec (.tokenSubmit p) s = .next (if r ≠ 0 then lcsEvent 0x02 r s1
        else if byteAt t 4 = 1 then openDebug t (lcsEvent 0x01 (byteAt t 4) s1) else transition t (lcsEvent 0x01 (byteAt t 4) s1))) ∧
  (∀ (s : State) (t : Bytes),
      (tokenFormOk t = false → judgeToken s t = 1) ∧
      (tokenFormOk t = true → judgeToken s t =
        if leAt t 8 16 ≠ Config.serial % 2 ^ 128 then 2
        else if s.lcs.nonce ≠ some (leAt t 24 8) then 3
        else if s.lcs.life ≠ 0 ∧ signerHash s (byteAt t 6) ≠ some (sha384 (slice t 160 96)) then 4
        else if s.lcs.life ≠ 0 ∧ sigOk (slice t 160 96) (sha384 (t.take 256)) (slice t 256 96) = false then 5 else tokenAllowed s t)) ∧
  (∀ (p q : Path) (off : Nat) (d : DebugSession) (s : State),
      (q = asPath p → regBar p .LCS_TOKEN_CTRL 0 = some off → pathOpen s p = true → lcsAccess s q off = true → s.lcs.life ≠ 4 → mayWrite s q .LCS_TOKEN_CTRL = true → exec (.debugEnd p) s = .next (closeDebug s)) ∧
      (s.lcs.session = some d → exec .debugExpiry s = .next (closeDebug (advanceTo d.endAt s)))) ∧
  (∀ (p q : Path) (off n : Nat) (s : State), q = asPath p → regBar p .LCS_NONCE_LO 0 = some off → pathOpen s p = true → lcsAccess s q off = true → s.lcs.life ≠ 4 → ((∃ i, q = .fn (.pf i)) ∨ q = .firmware ∨ q = .mgmt ∨ q = .debug) → n = (takeFree s).1 % 2 ^ 64 →
      ∃ t, exec (.nonceRead p) s = .next (emit (.readData q off (w32 n)) t) ∧ t.lcs.nonce = some n ∧ t.lcs.nonceShown = n ∧
        mfind t.shadow (pathCode q * 2 ^ 26 + 0x20011C) = some (w32 (n / 2 ^ 32)) ∧ t.regs = s.regs) ∧
  (∀ (f : Fn) (a len : Nat) (bs : Bytes) (s : State), firmwareUp s = true → (fnSt s f).ready = true →
      ((fnPf0 s f = false ∨ isMaster s = false) → ∀ img, exec (.mbxStage f a len img) s = .next (mbxReply f 1 0x05 [] s)) ∧
      (fnPf0 s f = true → isMaster s = true →
        (mayTake s f a = true → exec (.mbxStage f a len (.data bs)) s = .next (mbxReply f 1 (stageImage (slice bs 0 len) s).1 [] (stageImage (slice bs 0 len) s).2)) ∧
        (∀ got s1, got = .badAddress ∨ got = .timeout ∨ got = .abort ∨ got = .poisoned → operandRead f a got s = some s1 →
          exec (.mbxStage f a len got) s = .next (mbxReply f 1 (hostReadStatus got) [] s1))) ∧
      (fnPf0 s f = true → exec (.mbxQuery f) s = .next (mbxReply f 5 0 (leBytes 1 s.lcs.active ++ leBytes 1 (b2n s.lcs.staged.isSome + 2 * b2n s.lcs.committed) ++ leBytes 4 0
        ++ leBytes 4 (fwVersion s.lcs.running) ++ leBytes 4 ((s.lcs.staged.map fwVersion).getD 0) ++ leBytes 1 s.lcs.svnFloor) s)) ∧
      (fnPf0 s f = false → exec (.mbxQuery f) s = .next (mbxReply f 5 0x05 [] s))) ∧
  (∀ (p q : Path) (w : Option Fn) (s : State), ((∃ f, p = .fn f ∧ q = p ∧ firmwareUp s = true ∧ (fnSt s f).ready = true) ∨
        ((∀ f, p ≠ .fn f) ∧ q = asPath p ∧ s.lcs.life ≠ 4 ∧ mayWrite s q .LCS_FW_CTRL = true ∧
          ∃ off, regBar p .LCS_FW_CTRL 0 = some off ∧ pathOpen s p = true ∧ lcsAccess s q off = true)) → actionAsker s q = some w →
      (askerOk s w = false → exec (.commit p) s = .next (answerAction w 3 0x05 s) ∧ exec (.rollback p) s = .next (answerAction w 4 0x05 s)) ∧
      ((s.cai.mode = .service ∨ s.cai.mode = .spared) →
        ((askerOk s w = false ∨ isMaster s = false ∨ chainWhole s = false ∨ s.lcs.staged = none ∨ allVerified s = false ∨ s.lcs.committed = false ∨ s.lcs.chain.isSome = true) →
          exec (.activate p) s = .next (answerAction w 2 0x05 s)) ∧
        ((isMaster s = false ∨ s.lcs.committed = true ∨ s.lcs.chain.isSome = true) → exec (.rollback p) s = .next (answerAction w 4 0x05 s))) ∧
      (s.cai.mode ≠ .service → s.cai.mode ≠ .spared → exec (.activate p) s = .next (answerAction w 2 0x05 (refuseRequest s)) ∧
        exec (.rollback p) s = .next (answerAction w 4 0x05 s)) ∧
      (askerOk s w = true → (s.cai.mode = .service ∨ s.cai.mode = .spared) → isMaster s = true → s.lcs.chain = none →
        (chainWhole s = true → s.lcs.staged.isSome = true → allVerified s = true → s.lcs.committed = true →
          exec (.activate p) s = .next (chainNext (modLcs (fun l => { l with chain := some { left := switchOrder s }, replyTo := w }) s))) ∧
        (s.lcs.committed = false →
          exec (.rollback p) s = .next (chainNext (modLcs (fun l => { l with chain := some { rollback := true, left := switchOrder s }, replyTo := w }) s)))) ∧
      (askerOk s w = true → s.lcs.committed = false → rollingBack s = false → exec (.commit p) s = .next (answerAction w 3 0 (commitNow s))) ∧
      ((s.lcs.committed = true ∨ rollingBack s = true) → exec (.commit p) s = .next (answerAction w 3 0x05 s))) ∧
  (∀ s : State, (commitNow s).lcs.svnFloor = max s.lcs.svnFloor (byteAt s.lcs.running 14) ∧ (commitNow s).lcs.committed = true ∧
      (∀ k d, s.lcs.dirPending = none → directory s = some (k, d) →
        (if k = 0 then (commitNow s).lcs.dir1 else (commitNow s).lcs.dir0) = some { d with seq := (d.seq + 1) % 2 ^ 32, active := s.lcs.active, committed := true }) ∧
      (dfld s .LCS_FW_CFG 15 0 ≠ 0 → s.lcs.committed = false → rollingBack s = false → exec .autoCommit s =
        .next (commitNow (advanceTo (s.lcs.switchedAt + dfld s .LCS_FW_CFG 15 0 * 1000000000) s)))) ∧
  (∀ (r : Bool) (s : State), isMaster s = false → s.lcs.switch_ = none →
      (∀ t, enterSwitch r true s = some t → exec (.memberSwitch r) s = .next t) ∧
      (∀ m, enterSwitch r true s = none → s.akz.master = some m → exec (.memberSwitch r) s = .next (sendTo m (leBytes 1 4 ++ leBytes 1 s.akz.member) s))) ∧
  (∀ (bs : Bytes) (from_ : Bool) (s : State), (s.cai.mode = .service ∨ s.cai.mode = .spared) → s.lcs.staged = some bs →
      enterSwitch false from_ s = some (switchThreads (1 - s.lcs.active) bs (modLcs (fun l => { l with
        switch_ := some { entered := s.elapsed, bank := 1 - s.lcs.active, rollback := false, fromMaster := from_ } }) (setMode .pause s)))) ∧
  (∀ (p q : Path) (off : Nat) (w : Switch) (s : State), s.lcs.switch_ = some w → s.cai.mode = .pause →
      (∀ bs s2, q = asPath p → regBar p .LCS_FW_CTRL 0 = some off → pathOpen s p = true → lcsAccess s q off = true → s.lcs.life ≠ 4 → mayWrite s q .LCS_FW_CTRL = true → s.elapsed ≤ w.entered + 2500000 → bs = (otherImage w.rollback s).getD [] →
        s2 = modLcs (fun l => { l with active := w.bank, committed := w.rollback, running := bs, staged := none, memberResults := [], dirPending := some (s.elapsed + 100000000), switchedAt := s.elapsed })
          (loadPrsOf bs (migrateSettings bs w.bank s)) →
        exec (.switched p) s = .next (switchEnds w false (lcsEvent (if w.rollback then 0x09 else 0x06) w.bank s2))) ∧
      (exec .activateReverted s = .next (switchEnds w true (lcsEvent 0x07 s.lcs.active
        (loadPrsOf s.lcs.running (switchThreads s.lcs.active s.lcs.running (advanceTo (w.entered + 2500000) s))))))) ∧
  (∀ (m : Nat) (c : ChainSwitch) (s : State), s.lcs.chain = some c → c.left.head? = some m →
      exec (.switchedReply m true) s = .next (chainDone c.rollback 0x20 s) ∧
      exec (.switchedReply m false) s = .next (chainNext (modLcs (fun l => { l with chain := some { c with left := c.left.drop 1 } }) s))) ∧
  (∀ s : State, s.lcs.dirPending.isSome = true →
      (directory s = none → exec .dirWritten s = .next (modLcs (fun l => { l with dirPending := none }) s)) ∧
      (∀ k d, directory s = some (k, d) → ∃ t, exec .dirWritten s = .next t ∧ t.lcs.dirPending = none ∧
        (if k = 0 then t.lcs.dir1 else t.lcs.dir0) = some { d with seq := (d.seq + 1) % 2 ^ 32, active := s.lcs.active, committed := s.lcs.committed } ∧
        (if k = 0 then t.lcs.dir0 else t.lcs.dir1) = (if k = 0 then s.lcs.dir0 else s.lcs.dir1)))

/-- Each command of the update agent moves the PLDM state and is answered (R459): REQUEST_UPDATE, the component table, UPDATE_COMPONENT, the pieces of the image, activation, status and cancellation. The command and completion codes are those of DSP0267, which the spec names (assumption 71). Rests on R459. -/
def Obligations.PldmUpdate : Prop :=
  (∀ (n : Nat) (s : State), firmwareUp s = true →
      (s.lcs.pldm = .idle →
        exec .requestUpdate s = .next (pldm 0x10 0 (leBytes 3 0) (setPldm .learn (modLcs (fun l => { l with pldmGot := [], pldmLen := 0 }) s))) ∧
        exec (.passComponentTable 0xA 0x3216) s = .next (pldm 0x13 0x80 [] s) ∧ exec (.updateComponent 0xA 0x3216 n) s = .next (pldm 0x14 0x80 [] s) ∧
        exec .activateFirmware s = .next (pldm 0x1A 0x80 [] s) ∧ exec .cancelUpdate s = .next (pldm 0x1D 0x80 [] s)) ∧
      (s.lcs.pldm ≠ .idle → exec .requestUpdate s = .next (pldm 0x10 0x81 [] s) ∧
        exec .cancelUpdate s = .next (pldm 0x1D 0 [] (setPldm .idle (modLcs (fun l => { l with pldmGot := [], pldmLen := 0 }) s)))) ∧
      (s.lcs.pldm = .learn → exec (.passComponentTable 0xA 0x3216) s = .next (pldm 0x13 0 (leBytes 2 0) (setPldm .ready s))) ∧
      (s.lcs.pldm = .ready → exec (.updateComponent 0xA 0x3216 n) s =
        .next (pldmAsk (pldm 0x14 0 (leBytes 2 0) (setPldm .download (modLcs (fun l => { l with pldmLen := n, pldmGot := [] }) s))))) ∧
      exec .getStatus s = .next (pldm 0x1B 0 (leBytes 1 (pldmNo s.lcs.pldm)) s)) ∧
  (∀ (d : Bytes) (s s1 : State), firmwareUp s = true → s.lcs.pldm = .download → s1 = modLcs (fun l => { l with pldmGot := (l.pldmGot ++ d).take l.pldmLen }) s →
      (s1.lcs.pldmGot.length < s1.lcs.pldmLen → exec (.firmwareDataReceived d) s = .next (pldmAsk s1)) ∧
      (∀ r, s1.lcs.pldmLen ≤ s1.lcs.pldmGot.length → isMaster (pldm 0x16 0 [] s1) = true → r = stageImage s1.lcs.pldmGot (pldm 0x16 0 [] s1) →
        exec (.firmwareDataReceived d) s = .next (if r.1 ≠ 0 then setPldm .ready (modLcs (fun l => { l with pldmGot := [] }) (pldm 0x17 r.1 [] r.2))
          else pldm 0x18 0 [] (setPldm .ready (modLcs (fun l => { l with pldmGot := [] }) (pldm 0x17 r.1 [] r.2)))))) ∧
  (∀ s s1 : State, firmwareUp s = true → s.lcs.pldm = .ready → s1 = activate .mgmt (setPldm .idle s) →
      exec .activateFirmware s = .next (pldm 0x1A (if s1.lcs.chain.isSome ∨ s1.lcs.switch_.isSome ∨ s1.lcs.result = 0 then 0 else 0x84) [] s1))

/-- An access of a path that reaches the registers of a block that runs completes: a write takes effect bit by bit as the access codes state (R7), a read of a low word captures its high word, which the next read of that word takes (R5), and a read clears the RC fields (R9); an access that R4 rejects reads ones, and HIF_ACCESS_ERR records the first; hardware sets a W1C bit (R8); an access to a block that does not run is held, and the block starts (R15); a unit that may stop becomes STOPPING, then GATED or STARTING, and a start that passes makes it RUNNING (R78 to R80). The places of BAR2, BAR4 and configuration space in offsets, and the moment to which a stop brings the clock, are the model's (assumptions 3 and 91). Rests on R4, R5, R7, R8, R9, R14, R15, R78, R79, R80, R100 and R103. -/
def Obligations.RegisterAccess : Prop :=
  (∀ (p : Path) (off i j h k : Nat) (v : Word) (r : Reg) (s : State),
      r ∈ [Reg.TIM_SERVO_CFG, .TIM_TRACE_CFG, .CAI_PM_CFG, .CAI_LED_CFG, .CAI_FAULT, .CAI_MODE, .HIF_ACCESS_ERR, .TBL_STATUS, .MBX_STATUS] →
      findsAt p off r i = true → actsAt p off s = true → off % 4 = 0 → mayWrite s (asPath p) r = true → regPlace s (asPath p) r i = some (j, h) →
      ∃ w, exec (.registerWrite p off v) s = .next (setReg r j h w (atWork p off s)) ∧
        w.getLsbD k = (if (r.accMask (· == .rw)).getLsbD k then v.getLsbD k
          else if (r.accMask (· == .w1c)).getLsbD k then (reg s r j h).getLsbD k && !v.getLsbD k
          else if (r.accMask (· == .w1s)).getLsbD k then (reg s r j h).getLsbD k || v.getLsbD k else (reg s r j h).getLsbD k)) ∧
  (∀ (p : Path) (off size : Nat) (data : Option (BitVec 64)) (s : State), pathOpen s p = true → ¬(size = 4 ∧ off % 4 = 0) →
      bar2Rest s (asPath p) off = false → ¬(size = 8 ∧ wideHonoured s (asPath p) off = true) →
      ∃ t, exec (.badAccess p off ⟨size, data⟩) s = .next t ∧ t.out = (if data.isSome then s.out else .readData (asPath p) off 0xFFFFFFFF :: s.out) ∧
        (∀ f, f ≠ .fw → asPath p = .fn f → let h := fnCode (.pf (fnPf f));
          (wbit (reg s .HIF_ACCESS_ERR 0 h) 0 = false → (reg t .HIF_ACCESS_ERR_OFFSET 0 h).toNat = off % 0x1000000 + (if off < 0x2000000 then off / 0x1000000 * 0x1000000 else 0) ∧
            reg t .HIF_ACCESS_ERR 0 h = w32 ((match f with
              | .vf _ n => at_ 20 n + at_ 19 1
              | _ => 0) + at_ 18 (b2n data.isSome)) ||| 1) ∧
          (wbit (reg s .HIF_ACCESS_ERR 0 h) 0 = true → reg t .HIF_ACCESS_ERR_OFFSET 0 h = reg s .HIF_ACCESS_ERR_OFFSET 0 h)) ∧
        ((∀ f, asPath p ≠ .fn f) → data.isSome = true → t = s)) ∧
  (∀ (p : Path) (off i : Nat) (r : Reg) (s : State), findsAt p off r i = true → countsAt p off = false → actsAt p off s = true → off % 4 = 0 →
      let u := atWork p off s
      (∀ v, mfind s.shadow (shadowKey (asPath p) off) = some v →
        exec (.lowWordRead p off) s = .next (emit (.readData (asPath p) off v) { u with shadow := mdel s.shadow (shadowKey (asPath p) off) })) ∧
      (∀ r' i', lowWord r i = true → mfind s.shadow (shadowKey (asPath p) off) = none → regAt (asPath p) (off + 4) = some (r', i') →
        ∃ t, exec (.lowWordRead p off) s = .next t ∧ t.out = .readData (asPath p) off (readMask r (w32 (regNow u (asPath p) r i))) :: s.out ∧
          mfind t.shadow (shadowKey (asPath p) (off + 4)) = some (readMask r' (w32 (regNow u (asPath p) r' i'))))) ∧
  (∀ (p : Path) (off i j k : Nat) (r : Reg) (s : State), findsAt p off r i = true → countsAt p off = false → actsAt p off s = true → off % 4 = 0 →
      r ≠ .MBX_F2H_POP → lowWord r i = false → mfind s.shadow (shadowKey (asPath p) off) = none → regPlace s (asPath p) r i = some (j, k) →
      regPlace (atWork p off s) (asPath p) r i = some (j, k) → r.accMask (· == .rc) ≠ 0 →
      ∃ t, exec (.readClear p off) s = .next t ∧ t.out = .readData (asPath p) off (readMask r (w32 (regNow (atWork p off s) (asPath p) r i))) :: s.out ∧
        reg t r j k = reg s r j k &&& ~~~ r.accMask (· == .rc)) ∧
  (∀ (p : Path) (off b i : Nat) (r : Reg) (s : State), regAt p off = some (r, i) → wbit (r.accMask (· == .w1c)) b = true →
      (p = .firmware ∨ p = .mgmt ∨ p = .debug → r.info.held ≠ .function → exec (.w1cHardwareSet p off b) s = .next (hwSet r i 0 b s) ∧
        reg (hwSet r i 0 b s) r i 0 = reg s r i 0 ||| w32 (2 ^ b)) ∧
      (∀ f, p = .fn f → off < 0x4000000 → let h := if r.info.held = .function then fnCode f else 0
        exec (.w1cHardwareSet p off b) s = .next (hwSet r i h b s) ∧ reg (hwSet r i h b s) r i h = reg s r i h ||| w32 (2 ^ b))) ∧
  (∀ (p : Path) (off : Nat) (v : Option Word) (s : State), pathOpen s p = true → windowed s (asPath p) off = true → off % 4 = 0 → 0x100 ≤ off % 0x200000 →
      off / 0x200000 = 3 → (domainSt s .qm).st = .gated → (domainSt s .qm).dead = false → toStart s .qm = false → fastRuns s = true →
      ∃ t, exec (.heldAccess p off v) s = .next t ∧ (domainSt t .qm).st = .starting ∧ t.regs = s.regs ∧ t.qm = s.qm ∧
        t.cai.heldAccesses = s.cai.heldAccesses ++ [{ path := asPath p, off := off, kind := match v with
          | none => .read
          | some w => .write w }]) ∧
  (∀ (u : DUnit) (s : State),
      (mayStop s u = true → ∃ t, exec (.domainStop u) s = .next t ∧ (domainSt t u).st = .stopping ∧ s.elapsed ≤ t.elapsed ∧
        (domainSt s u).since + idleHold s ≤ t.elapsed) ∧
      ((domainSt s u).st = .stopping → ∃ t, exec (.domainGated u) s = .next t ∧
        (domainSt t u).st = if (domainSt s u).wakeQueued then .starting else .gated) ∧
      (unitState s u = .starting → s.cai.heldAccesses = [] → (unitCode u = unitCode .rel → u = .rel) → ∃ t, exec (.domainStartDone u true) s = .next t ∧ (domainSt t u).st = .running ∧ (domainSt t u).since = s.elapsed) ∧
      (unitState s u = .starting → s.cai.heldAccesses = [] → (domainSt s u).retried = false → ∃ t, exec (.domainStartDone u false) s = .next t ∧
        (domainSt t u).st = .starting ∧ (domainSt t u).retried = true))

end
end

