-- ==== Sys2Proof/Laws/Exec.lean ====
section
/-!
SUPPORT. exec, command by command: each one's meaning.
-/
namespace Sys2Proof.Machine
set_option linter.all false

@[simp] theorem exec_registerWrite (p : Path) (off : Nat) (v : Word) (s : State) : exec (.registerWrite p off v) s = execRegisterWrite p off v s := rfl
@[simp] theorem exec_badAccess (p : Path) (off : Nat) (access : Sized) (s : State) : exec (.badAccess p off access) s = execBadAccess p off access s := rfl
@[simp] theorem exec_lowWordRead (p : Path) (off : Nat) (s : State) : exec (.lowWordRead p off) s = execLowWordRead p off s := rfl
@[simp] theorem exec_readClear (p : Path) (off : Nat) (s : State) : exec (.readClear p off) s = execReadClear p off s := rfl
@[simp] theorem exec_w1cHardwareSet (p : Path) (off : Nat) (bit : Nat) (s : State) : exec (.w1cHardwareSet p off bit) s = execW1cHardwareSet p off bit s := rfl
@[simp] theorem exec_heldAccess (p : Path) (off : Nat) (v : Option Word) (s : State) : exec (.heldAccess p off v) s = execHeldAccess p off v s := rfl
@[simp] theorem exec_domainStop (u : DUnit) (s : State) : exec (.domainStop u) s = execDomainStop u s := rfl
@[simp] theorem exec_domainGated (u : DUnit) (s : State) : exec (.domainGated u) s = execDomainGated u s := rfl
@[simp] theorem exec_domainStartDone (u : DUnit) (passed : Bool) (s : State) : exec (.domainStartDone u passed) s = execDomainStartDone u passed s := rfl
@[simp] theorem exec_aonRailUp (s : State) : exec (.aonRailUp) s = execAonRailUp s := rfl
@[simp] theorem exec_aonRailLoss (s : State) : exec (.aonRailLoss) s = execAonRailLoss s := rfl
@[simp] theorem exec_porstAssert (s : State) : exec (.porstAssert) s = execPorstAssert s := rfl
@[simp] theorem exec_porstDeassert (straps : BitVec 8) (s : State) : exec (.porstDeassert straps) s = execPorstDeassert straps s := rfl
@[simp] theorem exec_railGood (rail : Rail) (s : State) : exec (.railGood rail) s = execRailGood rail s := rfl
@[simp] theorem exec_railFault (loss : RailLoss) (s : State) : exec (.railFault loss) s = execRailFault loss s := rfl
@[simp] theorem exec_railOrder (rail : Rail) (s : State) : exec (.railOrder rail) s = execRailOrder rail s := rfl
@[simp] theorem exec_thermalWarn (sensor : Nat) (reading : Int) (s : State) : exec (.thermalWarn sensor reading) s = execThermalWarn sensor reading s := rfl
@[simp] theorem exec_thermalTrip (sensor : Nat) (reading : Int) (s : State) : exec (.thermalTrip sensor reading) s = execThermalTrip sensor reading s := rfl
@[simp] theorem exec_thermalRecover (readings : List Int) (s : State) : exec (.thermalRecover readings) s = execThermalRecover readings s := rfl
@[simp] theorem exec_sysclkFault (s : State) : exec (.sysclkFault) s = execSysclkFault s := rfl
@[simp] theorem exec_sysclkReturn (s : State) : exec (.sysclkReturn) s = execSysclkReturn s := rfl
@[simp] theorem exec_ethRefclkLoss (s : State) : exec (.ethRefclkLoss) s = execEthRefclkLoss s := rfl
@[simp] theorem exec_ethRefclkReturn (s : State) : exec (.ethRefclkReturn) s = execEthRefclkReturn s := rfl
@[simp] theorem exec_pcieRefclkLoss (half : Nat) (s : State) : exec (.pcieRefclkLoss half) s = execPcieRefclkLoss half s := rfl
@[simp] theorem exec_pcieRefclkReturn (half : Nat) (s : State) : exec (.pcieRefclkReturn half) s = execPcieRefclkReturn half s := rfl
@[simp] theorem exec_mctpMessage (body : Bytes) (s : State) : exec (.mctpMessage body) s = execMctpMessage body s := rfl
@[simp] theorem exec_wakeAtReached (s : State) : exec (.wakeAtReached) s = execWakeAtReached s := rfl
@[simp] theorem exec_bringupStart (boot : BootInput) (s : State) : exec (.bringupStart boot) s = execBringupStart boot s := rfl
@[simp] theorem exec_bootWaitExpiry (s : State) : exec (.bootWaitExpiry) s = execBootWaitExpiry s := rfl
@[simp] theorem exec_unitReady (unit : Nat) (s : State) : exec (.unitReady unit) s = execUnitReady unit s := rfl
@[simp] theorem exec_functionReady (f : Fn) (s : State) : exec (.functionReady f) s = execFunctionReady f s := rfl
@[simp] theorem exec_drain (p : Path) (s : State) : exec (.drain p) s = execDrain p s := rfl
@[simp] theorem exec_drainStandby (p : Path) (s : State) : exec (.drainStandby p) s = execDrainStandby p s := rfl
@[simp] theorem exec_cancel (p : Path) (s : State) : exec (.cancel p) s = execCancel p s := rfl
@[simp] theorem exec_restartRequest (p : Path) (s : State) : exec (.restartRequest p) s = execRestartRequest p s := rfl
@[simp] theorem exec_drainLimitExpiry (s : State) : exec (.drainLimitExpiry) s = execDrainLimitExpiry s := rfl
@[simp] theorem exec_drainFinished (s : State) : exec (.drainFinished) s = execDrainFinished s := rfl
@[simp] theorem exec_perstAssert (half : Nat) (s : State) : exec (.perstAssert half) s = execPerstAssert half s := rfl
@[simp] theorem exec_perstDeassert (half : Nat) (s : State) : exec (.perstDeassert half) s = execPerstDeassert half s := rfl
@[simp] theorem exec_pcieLinkUp (half : Nat) (rate : Nat) (width : Nat) (flit : Bool) (s : State) : exec (.pcieLinkUp half rate width flit) s = execPcieLinkUp half rate width flit s := rfl
@[simp] theorem exec_hotReset (half : Nat) (s : State) : exec (.hotReset half) s = execHotReset half s := rfl
@[simp] theorem exec_linkDisable (half : Nat) (s : State) : exec (.linkDisable half) s = execLinkDisable half s := rfl
@[simp] theorem exec_pcieLinkFailure (half : Nat) (s : State) : exec (.pcieLinkFailure half) s = execPcieLinkFailure half s := rfl
@[simp] theorem exec_configRead (f : Fn) (off : Nat) (s : State) : exec (.configRead f off) s = execConfigRead f off s := rfl
@[simp] theorem exec_busMasterDisable (f : Fn) (s : State) : exec (.busMasterDisable f) s = execBusMasterDisable f s := rfl
@[simp] theorem exec_quiesceDone (f : Fn) (s : State) : exec (.quiesceDone f) s = execQuiesceDone f s := rfl
@[simp] theorem exec_initiateFlr (f : Fn) (s : State) : exec (.initiateFlr f) s = execInitiateFlr f s := rfl
@[simp] theorem exec_flrDone (f : Fn) (s : State) : exec (.flrDone f) s = execFlrDone f s := rfl
@[simp] theorem exec_vfEnable (pf : Nat) (s : State) : exec (.vfEnable pf) s = execVfEnable pf s := rfl
@[simp] theorem exec_vfDisable (pf : Nat) (s : State) : exec (.vfDisable pf) s = execVfDisable pf s := rfl
@[simp] theorem exec_powerStateChange (f : Fn) (state : Nat) (s : State) : exec (.powerStateChange f state) s = execPowerStateChange f state s := rfl
@[simp] theorem exec_msixUnmask (f : Fn) (change : MsixChange) (s : State) : exec (.msixUnmask f change) s = execMsixUnmask f change s := rfl
@[simp] theorem exec_tagSlotGrant (which : Option Fn) (s : State) : exec (.tagSlotGrant which) s = execTagSlotGrant which s := rfl
@[simp] theorem exec_hostCompletion (f : Fn) (tag : Nat) (status : HostRead) (last : Bool) (s : State) : exec (.hostCompletion f tag status last) s = execHostCompletion f tag status last s := rfl
@[simp] theorem exec_completionTimeout (slot : Nat) (s : State) : exec (.completionTimeout slot) s = execCompletionTimeout slot s := rfl
@[simp] theorem exec_quarantineEnd (slot : Nat) (s : State) : exec (.quarantineEnd slot) s = execQuarantineEnd slot s := rfl
@[simp] theorem exec_poisonedPostedWrite (f : Fn) (s : State) : exec (.poisonedPostedWrite f) s = execPoisonedPostedWrite f s := rfl
@[simp] theorem exec_atsInvalidation (f : Fn) (pasid : Option Nat) (page : Nat) (count : Nat) (s : State) : exec (.atsInvalidation f pasid page count) s = execAtsInvalidation f pasid page count s := rfl
@[simp] theorem exec_pageRequest (f : Fn) (q : Nat) (s : State) : exec (.pageRequest f q) s = execPageRequest f q s := rfl
@[simp] theorem exec_prgResponse (f : Fn) (q : Nat) (answer : PrgAnswer) (s : State) : exec (.prgResponse f q answer) s = execPrgResponse f q answer s := rfl
@[simp] theorem exec_pageRequestTimeout (f : Fn) (q : Nat) (s : State) : exec (.pageRequestTimeout f q) s = execPageRequestTimeout f q s := rfl
@[simp] theorem exec_ptmRequest (half : Nat) (s : State) : exec (.ptmRequest half) s = execPtmRequest half s := rfl
@[simp] theorem exec_doeRequest (half : Nat) (protocol : Nat) (length : Nat) (index : Nat) (s : State) : exec (.doeRequest half protocol length index) s = execDoeRequest half protocol length index s := rfl
@[simp] theorem exec_doeAbort (half : Nat) (s : State) : exec (.doeAbort half) s = execDoeAbort half s := rfl
@[simp] theorem exec_getVersion (half : Nat) (s : State) : exec (.getVersion half) s = execGetVersion half s := rfl
@[simp] theorem exec_getCapabilities (half : Nat) (version : Nat) (s : State) : exec (.getCapabilities half version) s = execGetCapabilities half version s := rfl
@[simp] theorem exec_negotiateAlgorithms (half : Nat) (baseAsym : Nat) (baseHash : Nat) (dhe : Nat) (aead : Nat) (s : State) : exec (.negotiateAlgorithms half baseAsym baseHash dhe aead) s = execNegotiateAlgorithms half baseAsym baseHash dhe aead s := rfl
@[simp] theorem exec_getDigests (half : Nat) (s : State) : exec (.getDigests half) s = execGetDigests half s := rfl
@[simp] theorem exec_getCertificate (half : Nat) (slot : Nat) (off : Nat) (len : Nat) (s : State) : exec (.getCertificate half slot off len) s = execGetCertificate half slot off len s := rfl
@[simp] theorem exec_challenge (half : Nat) (slot : Nat) (nonce : Nat) (kind : Nat) (s : State) : exec (.challenge half slot nonce kind) s = execChallenge half slot nonce kind s := rfl
@[simp] theorem exec_getMeasurements (half : Nat) (index : Nat) (nonce : Nat) (signed : Bool) (s : State) : exec (.getMeasurements half index nonce signed) s = execGetMeasurements half index nonce signed s := rfl
@[simp] theorem exec_keyExchange (half : Nat) (slot : Nat) (reqId : Nat) (exchange : Nat) (s : State) : exec (.keyExchange half slot reqId exchange) s = execKeyExchange half slot reqId exchange s := rfl
@[simp] theorem exec_finish (half : Nat) (session : Nat) (verified : Bool) (s : State) : exec (.finish half session verified) s = execFinish half session verified s := rfl
@[simp] theorem exec_keyUpdate (half : Nat) (session : Nat) (operation : Nat) (s : State) : exec (.keyUpdate half session operation) s = execKeyUpdate half session operation s := rfl
@[simp] theorem exec_heartbeat (half : Nat) (session : Nat) (s : State) : exec (.heartbeat half session) s = execHeartbeat half session s := rfl
@[simp] theorem exec_endSession (half : Nat) (session : Nat) (s : State) : exec (.endSession half session) s = execEndSession half session s := rfl
@[simp] theorem exec_vendorDefinedRequest (half : Nat) (session : Nat) (msg : VendorMsg) (s : State) : exec (.vendorDefinedRequest half session msg) s = execVendorDefinedRequest half session msg s := rfl
@[simp] theorem exec_stopInterface (f : Fn) (s : State) : exec (.stopInterface f) s = execStopInterface f s := rfl
@[simp] theorem exec_ideIntegrityFailure (half : Nat) (stream : Nat) (s : State) : exec (.ideIntegrityFailure half stream) s = execIdeIntegrityFailure half stream s := rfl
@[simp] theorem exec_doorbellWrite (f : Fn) (q : Nat) (v : BitVec 64) (form : DoorbellForm) (s : State) : exec (.doorbellWrite f q v form) s = execDoorbellWrite f q v form s := rfl
@[simp] theorem exec_sqEntryFetch (f : Fn) (q : Nat) (got : HostRead) (s : State) : exec (.sqEntryFetch f q got) s = execSqEntryFetch f q got s := rfl
@[simp] theorem exec_staleRetry (f : Fn) (q : Nat) (got : HostRead) (s : State) : exec (.staleRetry f q got) s = execStaleRetry f q got s := rfl
@[simp] theorem exec_completionWrite (f : Fn) (q : Nat) (res : HostWriteEnd) (s : State) : exec (.completionWrite f q res) s = execCompletionWrite f q res s := rfl
@[simp] theorem exec_eventRaise (block : Nat) (code : Nat) (detail : Nat) (scope : Scope) (s : State) : exec (.eventRaise block code detail scope) s = execEventRaise block code detail scope s := rfl
@[simp] theorem exec_eqEntryWrite (f : Fn) (q : Nat) (res : HostWriteEnd) (s : State) : exec (.eqEntryWrite f q res) s = execEqEntryWrite f q res s := rfl
@[simp] theorem exec_moderationTimer (f : Fn) (q : Nat) (s : State) : exec (.moderationTimer f q) s = execModerationTimer f q s := rfl
@[simp] theorem exec_qCreate (p : Path) (s : State) : exec (.qCreate p) s = execQCreate p s := rfl
@[simp] theorem exec_qDestroy (p : Path) (s : State) : exec (.qDestroy p) s = execQDestroy p s := rfl
@[simp] theorem exec_queueDisabled (f : Fn) (q : Nat) (s : State) : exec (.queueDisabled f q) s = execQueueDisabled f q s := rfl
@[simp] theorem exec_queueRestart (p : Path) (s : State) : exec (.queueRestart p) s = execQueueRestart p s := rfl
@[simp] theorem exec_txFrame (f : Fn) (q : Nat) (s : State) : exec (.txFrame f q) s = execTxFrame f q s := rfl
@[simp] theorem exec_rxBuffer (f : Fn) (q : Nat) (s : State) : exec (.rxBuffer f q) s = execRxBuffer f q s := rfl
@[simp] theorem exec_hostTxResume (frame : Nat) (s : State) : exec (.hostTxResume frame) s = execHostTxResume frame s := rfl
@[simp] theorem exec_sqFetchResume (queue : Nat) (s : State) : exec (.sqFetchResume queue) s = execSqFetchResume queue s := rfl
@[simp] theorem exec_vfGrant (pf : Nat) (s : State) : exec (.vfGrant pf) s = execVfGrant pf s := rfl
@[simp] theorem exec_vportBind (pf : Nat) (v : Word) (s : State) : exec (.vportBind pf v) s = execVportBind pf v s := rfl
@[simp] theorem exec_logStart (pf : Nat) (s : State) : exec (.logStart pf) s = execLogStart pf s := rfl
@[simp] theorem exec_logSwap (pf : Nat) (s : State) : exec (.logSwap pf) s = execLogSwap pf s := rfl
@[simp] theorem exec_logStop (pf : Nat) (s : State) : exec (.logStop pf) s = execLogStop pf s := rfl
@[simp] theorem exec_dirtyPageLog (f : Fn) (addr : Nat) (len : Nat) (s : State) : exec (.dirtyPageLog f addr len) s = execDirtyPageLog f addr len s := rfl
@[simp] theorem exec_vfFreeze (pf : Nat) (s : State) : exec (.vfFreeze pf) s = execVfFreeze pf s := rfl
@[simp] theorem exec_freezeDone (f : Fn) (s : State) : exec (.freezeDone f) s = execFreezeDone f s := rfl
@[simp] theorem exec_migSlow (f : Fn) (s : State) : exec (.migSlow f) s = execMigSlow f s := rfl
@[simp] theorem exec_vfSave (pf : Nat) (res : HostWriteEnd) (s : State) : exec (.vfSave pf res) s = execVfSave pf res s := rfl
@[simp] theorem exec_vfRestore (pf : Nat) (image : HostRead) (s : State) : exec (.vfRestore pf image) s = execVfRestore pf image s := rfl
@[simp] theorem exec_vfUnfreeze (pf : Nat) (s : State) : exec (.vfUnfreeze pf) s = execVfUnfreeze pf s := rfl
@[simp] theorem exec_vfMigDone (f : Fn) (s : State) : exec (.vfMigDone f) s = execVfMigDone f s := rfl
@[simp] theorem exec_timePageWrite (f : Fn) (s : State) : exec (.timePageWrite f) s = execTimePageWrite f s := rfl
@[simp] theorem exec_frameReceived (lp : Nat) (bytes : Bytes) (fcs : BitVec 32) (s : State) : exec (.frameReceived lp bytes fcs) s = execFrameReceived lp bytes fcs s := rfl
@[simp] theorem exec_frameEnd (frame : Nat) (s : State) : exec (.frameEnd frame) s = execFrameEnd frame s := rfl
@[simp] theorem exec_pauseRefresh (lp : Nat) (prio : Nat) (s : State) : exec (.pauseRefresh lp prio) s = execPauseRefresh lp prio s := rfl
@[simp] theorem exec_pauseFrameRx (lp : Nat) (opcode : Nat) (enable : Nat) (quanta : List Nat) (s : State) : exec (.pauseFrameRx lp opcode enable quanta) s = execPauseFrameRx lp opcode enable quanta s := rfl
@[simp] theorem exec_pauseHoldExpiry (lp : Nat) (prio : Nat) (s : State) : exec (.pauseHoldExpiry lp prio) s = execPauseHoldExpiry lp prio s := rfl
@[simp] theorem exec_pauseRxStorm (lp : Nat) (prio : Nat) (s : State) : exec (.pauseRxStorm lp prio) s = execPauseRxStorm lp prio s := rfl
@[simp] theorem exec_pauseTxStorm (lp : Nat) (prio : Nat) (s : State) : exec (.pauseTxStorm lp prio) s = execPauseTxStorm lp prio s := rfl
@[simp] theorem exec_stormRecover (lp : Nat) (prio : Nat) (s : State) : exec (.stormRecover lp prio) s = execStormRecover lp prio s := rfl
@[simp] theorem exec_linkUp (lp : Nat) (s : State) : exec (.linkUp lp) s = execLinkUp lp s := rfl
@[simp] theorem exec_linkDown (lp : Nat) (s : State) : exec (.linkDown lp) s = execLinkDown lp s := rfl
@[simp] theorem exec_fecWindow (lp : Nat) (corrected : Nat) (uncorrected : Nat) (s : State) : exec (.fecWindow lp corrected uncorrected) s = execFecWindow lp corrected uncorrected s := rfl
@[simp] theorem exec_portCfgWrite (p : Path) (port : Nat) (v : Word) (s : State) : exec (.portCfgWrite p port v) s = execPortCfgWrite p port v s := rfl
@[simp] theorem exec_filterAdd (p : Path) (s : State) : exec (.filterAdd p) s = execFilterAdd p s := rfl
@[simp] theorem exec_filterDelete (p : Path) (index : Nat) (s : State) : exec (.filterDelete p index) s = execFilterDelete p index s := rfl
@[simp] theorem exec_filterRead (p : Path) (index : Nat) (s : State) : exec (.filterRead p index) s = execFilterRead p index s := rfl
@[simp] theorem exec_statSnap (p : Path) (lp : Nat) (s : State) : exec (.statSnap p lp) s = execStatSnap p lp s := rfl
@[simp] theorem exec_mgtFrameRx (bytes : Bytes) (fcsOk : Bool) (s : State) : exec (.mgtFrameRx bytes fcsOk) s = execMgtFrameRx bytes fcsOk s := rfl
@[simp] theorem exec_mgtTx (s : State) : exec (.mgtTx) s = execMgtTx s := rfl
@[simp] theorem exec_collision (bitTimes : Nat) (s : State) : exec (.collision bitTimes) s = execCollision bitTimes s := rfl
@[simp] theorem exec_backoffExpiry (s : State) : exec (.backoffExpiry) s = execBackoffExpiry s := rfl
@[simp] theorem exec_mdioStart (p : Path) (v : Word) (s : State) : exec (.mdioStart p v) s = execMdioStart p v s := rfl
@[simp] theorem exec_mdioDone (data : Option (BitVec 16)) (s : State) : exec (.mdioDone data) s = execMdioDone data s := rfl
@[simp] theorem exec_ncsiCommand (channel : Nat) (command : Nat) (payload : Bytes) (s : State) : exec (.ncsiCommand channel command payload) s = execNcsiCommand channel command payload s := rfl
@[simp] theorem exec_resetChannel (channel : Nat) (s : State) : exec (.resetChannel channel) s = execResetChannel channel s := rfl
@[simp] theorem exec_parseDispatch (frame : Nat) (engine : Nat) (s : State) : exec (.parseDispatch frame engine) s = execParseDispatch frame engine s := rfl
@[simp] theorem exec_microNext (engine : Nat) (s : State) : exec (.microNext engine) s = execMicroNext engine s := rfl
@[simp] theorem exec_microJump (engine : Nat) (s : State) : exec (.microJump engine) s = execMicroJump engine s := rfl
@[simp] theorem exec_microJz (engine : Nat) (s : State) : exec (.microJz engine) s = execMicroJz engine s := rfl
@[simp] theorem exec_microJnz (engine : Nat) (s : State) : exec (.microJnz engine) s = execMicroJnz engine s := rfl
@[simp] theorem exec_microMatch (engine : Nat) (s : State) : exec (.microMatch engine) s = execMicroMatch engine s := rfl
@[simp] theorem exec_microCall (engine : Nat) (s : State) : exec (.microCall engine) s = execMicroCall engine s := rfl
@[simp] theorem exec_microRet (engine : Nat) (s : State) : exec (.microRet engine) s = execMicroRet engine s := rfl
@[simp] theorem exec_microEnd (engine : Nat) (s : State) : exec (.microEnd engine) s = execMicroEnd engine s := rfl
@[simp] theorem exec_microAdd (engine : Nat) (s : State) : exec (.microAdd engine) s = execMicroAdd engine s := rfl
@[simp] theorem exec_microSub (engine : Nat) (s : State) : exec (.microSub engine) s = execMicroSub engine s := rfl
@[simp] theorem exec_microAnd (engine : Nat) (s : State) : exec (.microAnd engine) s = execMicroAnd engine s := rfl
@[simp] theorem exec_microOr (engine : Nat) (s : State) : exec (.microOr engine) s = execMicroOr engine s := rfl
@[simp] theorem exec_microXor (engine : Nat) (s : State) : exec (.microXor engine) s = execMicroXor engine s := rfl
@[simp] theorem exec_microShl (engine : Nat) (s : State) : exec (.microShl engine) s = execMicroShl engine s := rfl
@[simp] theorem exec_microShr (engine : Nat) (s : State) : exec (.microShr engine) s = execMicroShr engine s := rfl
@[simp] theorem exec_microMov (engine : Nat) (s : State) : exec (.microMov engine) s = execMicroMov engine s := rfl
@[simp] theorem exec_microBfx (engine : Nat) (s : State) : exec (.microBfx engine) s = execMicroBfx engine s := rfl
@[simp] theorem exec_microSeq (engine : Nat) (s : State) : exec (.microSeq engine) s = execMicroSeq engine s := rfl
@[simp] theorem exec_microSlt (engine : Nat) (s : State) : exec (.microSlt engine) s = execMicroSlt engine s := rfl
@[simp] theorem exec_microMin (engine : Nat) (s : State) : exec (.microMin engine) s = execMicroMin engine s := rfl
@[simp] theorem exec_microMax (engine : Nat) (s : State) : exec (.microMax engine) s = execMicroMax engine s := rfl
@[simp] theorem exec_microCsum (engine : Nat) (s : State) : exec (.microCsum engine) s = execMicroCsum engine s := rfl
@[simp] theorem exec_microMark (engine : Nat) (s : State) : exec (.microMark engine) s = execMicroMark engine s := rfl
@[simp] theorem exec_microFrag (engine : Nat) (s : State) : exec (.microFrag engine) s = execMicroFrag engine s := rfl
@[simp] theorem exec_microHashreg (engine : Nat) (s : State) : exec (.microHashreg engine) s = execMicroHashreg engine s := rfl
@[simp] theorem exec_microTrap (engine : Nat) (s : State) : exec (.microTrap engine) s = execMicroTrap engine s := rfl
@[simp] theorem exec_microResume (engine : Nat) (s : State) : exec (.microResume engine) s = execMicroResume engine s := rfl
@[simp] theorem exec_microHashrst (engine : Nat) (s : State) : exec (.microHashrst engine) s = execMicroHashrst engine s := rfl
@[simp] theorem exec_microBudget (engine : Nat) (s : State) : exec (.microBudget engine) s = execMicroBudget engine s := rfl
@[simp] theorem exec_fragEntryExpiry (set : Nat) (way : Nat) (s : State) : exec (.fragEntryExpiry set way) s = execFragEntryExpiry set way s := rfl
@[simp] theorem exec_parityError (engine : Nat) (store : Bool) (s : State) : exec (.parityError engine store) s = execParityError engine store s := rfl
@[simp] theorem exec_pairLineRewritten (line : LineRewrite) (s : State) : exec (.pairLineRewritten line) s = execPairLineRewritten line s := rfl
@[simp] theorem exec_prsLoadStart (p : Path) (s : State) : exec (.prsLoadStart p) s = execPrsLoadStart p s := rfl
@[simp] theorem exec_loadDone (failed : List Nat) (s : State) : exec (.loadDone failed) s = execLoadDone failed s := rfl
@[simp] theorem exec_prsIndWrite (p : Path) (entry : Bool) (v : Word) (s : State) : exec (.prsIndWrite p entry v) s = execPrsIndWrite p entry v s := rfl
@[simp] theorem exec_tableProgram (frame : Nat) (s : State) : exec (.tableProgram frame) s = execTableProgram frame s := rfl
@[simp] theorem exec_vportStep (frame : Nat) (s : State) : exec (.vportStep frame) s = execVportStep frame s := rfl
@[simp] theorem exec_tunnelStep (frame : Nat) (s : State) : exec (.tunnelStep frame) s = execTunnelStep frame s := rfl
@[simp] theorem exec_flowStep (frame : Nat) (s : State) : exec (.flowStep frame) s = execFlowStep frame s := rfl
@[simp] theorem exec_lpmStep (frame : Nat) (s : State) : exec (.lpmStep frame) s = execLpmStep frame s := rfl
@[simp] theorem exec_aclStep (frame : Nat) (s : State) : exec (.aclStep frame) s = execAclStep frame s := rfl
@[simp] theorem exec_actionList (frame : Nat) (s : State) : exec (.actionList frame) s = execActionList frame s := rfl
@[simp] theorem exec_actEnd (frame : Nat) (s : State) : exec (.actEnd frame) s = execActEnd frame s := rfl
@[simp] theorem exec_actNop (frame : Nat) (s : State) : exec (.actNop frame) s = execActNop frame s := rfl
@[simp] theorem exec_actDrop (frame : Nat) (s : State) : exec (.actDrop frame) s = execActDrop frame s := rfl
@[simp] theorem exec_actChain (frame : Nat) (s : State) : exec (.actChain frame) s = execActChain frame s := rfl
@[simp] theorem exec_actDecap (frame : Nat) (s : State) : exec (.actDecap frame) s = execActDecap frame s := rfl
@[simp] theorem exec_actEncap (frame : Nat) (s : State) : exec (.actEncap frame) s = execActEncap frame s := rfl
@[simp] theorem exec_actRewrite (frame : Nat) (s : State) : exec (.actRewrite frame) s = execActRewrite frame s := rfl
@[simp] theorem exec_actDecTtl (frame : Nat) (s : State) : exec (.actDecTtl frame) s = execActDecTtl frame s := rfl
@[simp] theorem exec_actVlanPush (frame : Nat) (s : State) : exec (.actVlanPush frame) s = execActVlanPush frame s := rfl
@[simp] theorem exec_actVlanPop (frame : Nat) (s : State) : exec (.actVlanPop frame) s = execActVlanPop frame s := rfl
@[simp] theorem exec_actMeter (frame : Nat) (s : State) : exec (.actMeter frame) s = execActMeter frame s := rfl
@[simp] theorem exec_actCount (frame : Nat) (s : State) : exec (.actCount frame) s = execActCount frame s := rfl
@[simp] theorem exec_actSetClass (frame : Nat) (s : State) : exec (.actSetClass frame) s = execActSetClass frame s := rfl
@[simp] theorem exec_actEncrypt (frame : Nat) (s : State) : exec (.actEncrypt frame) s = execActEncrypt frame s := rfl
@[simp] theorem exec_actDecrypt (frame : Nat) (s : State) : exec (.actDecrypt frame) s = execActDecrypt frame s := rfl
@[simp] theorem exec_actDeliverVport (frame : Nat) (s : State) : exec (.actDeliverVport frame) s = execActDeliverVport frame s := rfl
@[simp] theorem exec_actDeliverQueue (frame : Nat) (s : State) : exec (.actDeliverQueue frame) s = execActDeliverQueue frame s := rfl
@[simp] theorem exec_actDeliverInd (frame : Nat) (s : State) : exec (.actDeliverInd frame) s = execActDeliverInd frame s := rfl
@[simp] theorem exec_actDeliverPort (frame : Nat) (s : State) : exec (.actDeliverPort frame) s = execActDeliverPort frame s := rfl
@[simp] theorem exec_actDeliverChannel (frame : Nat) (s : State) : exec (.actDeliverChannel frame) s = execActDeliverChannel frame s := rfl
@[simp] theorem exec_actDeliverAkzal (frame : Nat) (s : State) : exec (.actDeliverAkzal frame) s = execActDeliverAkzal frame s := rfl
@[simp] theorem exec_actMirror (frame : Nat) (s : State) : exec (.actMirror frame) s = execActMirror frame s := rfl
@[simp] theorem exec_actLearn (frame : Nat) (s : State) : exec (.actLearn frame) s = execActLearn frame s := rfl
@[simp] theorem exec_actTsInsert (frame : Nat) (s : State) : exec (.actTsInsert frame) s = execActTsInsert frame s := rfl
@[simp] theorem exec_learnRequest (s : State) : exec (.learnRequest) s = execLearnRequest s := rfl
@[simp] theorem exec_ageVisit (index : Nat) (s : State) : exec (.ageVisit index) s = execAgeVisit index s := rfl
@[simp] theorem exec_lockExpired (index : Nat) (s : State) : exec (.lockExpired index) s = execLockExpired index s := rfl
@[simp] theorem exec_tblInsert (f : Fn) (q : Nat) (s : State) : exec (.tblInsert f q) s = execTblInsert f q s := rfl
@[simp] theorem exec_relocationMove (bank : Nat) (s : State) : exec (.relocationMove bank) s = execRelocationMove bank s := rfl
@[simp] theorem exec_tblDelete (f : Fn) (q : Nat) (s : State) : exec (.tblDelete f q) s = execTblDelete f q s := rfl
@[simp] theorem exec_tblLookup (f : Fn) (q : Nat) (s : State) : exec (.tblLookup f q) s = execTblLookup f q s := rfl
@[simp] theorem exec_tblRead (f : Fn) (q : Nat) (s : State) : exec (.tblRead f q) s = execTblRead f q s := rfl
@[simp] theorem exec_tblWrite (f : Fn) (q : Nat) (s : State) : exec (.tblWrite f q) s = execTblWrite f q s := rfl
@[simp] theorem exec_tblLock (f : Fn) (q : Nat) (s : State) : exec (.tblLock f q) s = execTblLock f q s := rfl
@[simp] theorem exec_tblWriteUnlock (f : Fn) (q : Nat) (s : State) : exec (.tblWriteUnlock f q) s = execTblWriteUnlock f q s := rfl
@[simp] theorem exec_tblUnlock (f : Fn) (q : Nat) (s : State) : exec (.tblUnlock f q) s = execTblUnlock f q s := rfl
@[simp] theorem exec_tblCounterRead (f : Fn) (q : Nat) (s : State) : exec (.tblCounterRead f q) s = execTblCounterRead f q s := rfl
@[simp] theorem exec_filterRebuild (s : State) : exec (.filterRebuild) s = execFilterRebuild s := rfl
@[simp] theorem exec_filterSwitch (s : State) : exec (.filterSwitch) s = execFilterSwitch s := rfl
@[simp] theorem exec_hashSeedWrite (p : Path) (which : Nat) (v : Word) (s : State) : exec (.hashSeedWrite p which v) s = execHashSeedWrite p which v s := rfl
@[simp] theorem exec_tblProgWrite (p : Path) (s : State) : exec (.tblProgWrite p) s = execTblProgWrite p s := rfl
@[simp] theorem exec_progBankSwitch (p : Path) (bank : Bool) (s : State) : exec (.progBankSwitch p bank) s = execProgBankSwitch p bank s := rfl
@[simp] theorem exec_scheduleDecision (lp : Nat) (s : State) : exec (.scheduleDecision lp) s = execScheduleDecision lp s := rfl
@[simp] theorem exec_shaperCredit (node : Nat) (s : State) : exec (.shaperCredit node) s = execShaperCredit node s := rfl
@[simp] theorem exec_launchTimeReached (queue : Nat) (s : State) : exec (.launchTimeReached queue) s = execLaunchTimeReached queue s := rfl
@[simp] theorem exec_frameTransmitted (lp : Nat) (s : State) : exec (.frameTransmitted lp) s = execFrameTransmitted lp s := rfl
@[simp] theorem exec_copyFinished (frame : Nat) (s : State) : exec (.copyFinished frame) s = execCopyFinished frame s := rfl
@[simp] theorem exec_gateEntryChange (lp : Nat) (s : State) : exec (.gateEntryChange lp) s = execGateEntryChange lp s := rfl
@[simp] theorem exec_gateCommit (p : Path) (lp : Nat) (s : State) : exec (.gateCommit p lp) s = execGateCommit p lp s := rfl
@[simp] theorem exec_gateListActive (lp : Nat) (s : State) : exec (.gateListActive lp) s = execGateListActive lp s := rfl
@[simp] theorem exec_nodeWrite (p : Path) (reg : Nat) (v : Word) (s : State) : exec (.nodeWrite p reg v) s = execNodeWrite p reg v s := rfl
@[simp] theorem exec_meterWrite (p : Path) (s : State) : exec (.meterWrite p) s = execMeterWrite p s := rfl
@[simp] theorem exec_meterRead (p : Path) (s : State) : exec (.meterRead p) s = execMeterRead p s := rfl
@[simp] theorem exec_keyWrite (f : Fn) (q : Nat) (s : State) : exec (.keyWrite f q) s = execKeyWrite f q s := rfl
@[simp] theorem exec_keyUnwrap (f : Fn) (q : Nat) (s : State) : exec (.keyUnwrap f q) s = execKeyUnwrap f q s := rfl
@[simp] theorem exec_slotUpdate (f : Fn) (q : Nat) (s : State) : exec (.slotUpdate f q) s = execSlotUpdate f q s := rfl
@[simp] theorem exec_slotRead (f : Fn) (q : Nat) (s : State) : exec (.slotRead f q) s = execSlotRead f q s := rfl
@[simp] theorem exec_keyClear (f : Fn) (q : Nat) (s : State) : exec (.keyClear f q) s = execKeyClear f q s := rfl
@[simp] theorem exec_laEncrypt (f : Fn) (q : Nat) (s : State) : exec (.laEncrypt f q) s = execLaEncrypt f q s := rfl
@[simp] theorem exec_laDecrypt (f : Fn) (q : Nat) (s : State) : exec (.laDecrypt f q) s = execLaDecrypt f q s := rfl
@[simp] theorem exec_slotFetchDone (slot : Nat) (s : State) : exec (.slotFetchDone slot) s = execSlotFetchDone slot s := rfl
@[simp] theorem exec_cipherDone (engine : Nat) (s : State) : exec (.cipherDone engine) s = execCipherDone engine s := rfl
@[simp] theorem exec_checkerMismatch (engine : Nat) (s : State) : exec (.checkerMismatch engine) s = execCheckerMismatch engine s := rfl
@[simp] theorem exec_suspendMessage (s : State) : exec (.suspendMessage) s = execSuspendMessage s := rfl
@[simp] theorem exec_nvmeSqDoorbell (f : Fn) (q : Nat) (v : Nat) (s : State) : exec (.nvmeSqDoorbell f q v) s = execNvmeSqDoorbell f q v s := rfl
@[simp] theorem exec_nvmeCqDoorbell (f : Fn) (q : Nat) (v : Nat) (s : State) : exec (.nvmeCqDoorbell f q v) s = execNvmeCqDoorbell f q v s := rfl
@[simp] theorem exec_ccEnable (f : Fn) (cc : Nat) (s : State) : exec (.ccEnable f cc) s = execCcEnable f cc s := rfl
@[simp] theorem exec_ccDisable (f : Fn) (s : State) : exec (.ccDisable f) s = execCcDisable f s := rfl
@[simp] theorem exec_shutdown (f : Fn) (s : State) : exec (.shutdown f) s = execShutdown f s := rfl
@[simp] theorem exec_shutdownTimeout (f : Fn) (s : State) : exec (.shutdownTimeout f) s = execShutdownTimeout f s := rfl
@[simp] theorem exec_nvmeCommandFetch (f : Fn) (q : Nat) (got : HostRead) (s : State) : exec (.nvmeCommandFetch f q got) s = execNvmeCommandFetch f q got s := rfl
@[simp] theorem exec_deleteIoSq (f : Fn) (s : State) : exec (.deleteIoSq f) s = execDeleteIoSq f s := rfl
@[simp] theorem exec_createIoSq (f : Fn) (s : State) : exec (.createIoSq f) s = execCreateIoSq f s := rfl
@[simp] theorem exec_getLogPage (f : Fn) (list : HostRead) (s : State) : exec (.getLogPage f list) s = execGetLogPage f list s := rfl
@[simp] theorem exec_deleteIoCq (f : Fn) (s : State) : exec (.deleteIoCq f) s = execDeleteIoCq f s := rfl
@[simp] theorem exec_createIoCq (f : Fn) (s : State) : exec (.createIoCq f) s = execCreateIoCq f s := rfl
@[simp] theorem exec_identify (f : Fn) (list : HostRead) (s : State) : exec (.identify f list) s = execIdentify f list s := rfl
@[simp] theorem exec_nvmeAbort (f : Fn) (s : State) : exec (.nvmeAbort f) s = execNvmeAbort f s := rfl
@[simp] theorem exec_setFeatures (f : Fn) (s : State) : exec (.setFeatures f) s = execSetFeatures f s := rfl
@[simp] theorem exec_getFeatures (f : Fn) (s : State) : exec (.getFeatures f) s = execGetFeatures f s := rfl
@[simp] theorem exec_asynchronousEventRequest (f : Fn) (s : State) : exec (.asynchronousEventRequest f) s = execAsynchronousEventRequest f s := rfl
@[simp] theorem exec_nvmeFlush (f : Fn) (q : Nat) (s : State) : exec (.nvmeFlush f q) s = execNvmeFlush f q s := rfl
@[simp] theorem exec_nvmeWrite (f : Fn) (q : Nat) (reads : WriteReads) (s : State) : exec (.nvmeWrite f q reads) s = execNvmeWrite f q reads s := rfl
@[simp] theorem exec_nvmeRead (f : Fn) (q : Nat) (list : HostRead) (s : State) : exec (.nvmeRead f q list) s = execNvmeRead f q list s := rfl
@[simp] theorem exec_writeZeroes (f : Fn) (q : Nat) (s : State) : exec (.writeZeroes f q) s = execWriteZeroes f q s := rfl
@[simp] theorem exec_datasetManagement (f : Fn) (q : Nat) (ranges : HostRead) (s : State) : exec (.datasetManagement f q ranges) s = execDatasetManagement f q ranges s := rfl
@[simp] theorem exec_c2hData (ctx : Nat) (wire : Nat) (off : Nat) (data : Bytes) (headerOk : Bool) (dataOk : Bool) (s : State) : exec (.c2hData ctx wire off data headerOk dataOk) s = execC2hData ctx wire off data headerOk dataOk s := rfl
@[simp] theorem exec_remoteResponse (ctx : Nat) (wire : Nat) (status : Nat) (dw0 : Nat) (data : Bytes) (icrcOk : Bool) (ecn : Bool) (s : State) : exec (.remoteResponse ctx wire status dw0 data icrcOk ecn) s = execRemoteResponse ctx wire status dw0 data icrcOk ecn s := rfl
@[simp] theorem exec_cmdTimeout (ctx : Nat) (s : State) : exec (.cmdTimeout ctx) s = execCmdTimeout ctx s := rfl
@[simp] theorem exec_connectionFailure (ctx : Nat) (digest : Bool) (s : State) : exec (.connectionFailure ctx digest) s = execConnectionFailure ctx digest s := rfl
@[simp] theorem exec_retryTimeout (ctx : Nat) (s : State) : exec (.retryTimeout ctx) s = execRetryTimeout ctx s := rfl
@[simp] theorem exec_lossTmo (ctx : Nat) (s : State) : exec (.lossTmo ctx) s = execLossTmo ctx s := rfl
@[simp] theorem exec_ctxWrite (p : Path) (s : State) : exec (.ctxWrite p) s = execCtxWrite p s := rfl
@[simp] theorem exec_ctxRead (p : Path) (s : State) : exec (.ctxRead p) s = execCtxRead p s := rfl
@[simp] theorem exec_ctxResume (p : Path) (s : State) : exec (.ctxResume p) s = execCtxResume p s := rfl
@[simp] theorem exec_ctxDisable (p : Path) (s : State) : exec (.ctxDisable p) s = execCtxDisable p s := rfl
@[simp] theorem exec_nsWrite (p : Path) (s : State) : exec (.nsWrite p) s = execNsWrite p s := rfl
@[simp] theorem exec_nsRead (p : Path) (s : State) : exec (.nsRead p) s = execNsRead p s := rfl
@[simp] theorem exec_cnpRx (ctx : Nat) (s : State) : exec (.cnpRx ctx) s = execCnpRx ctx s := rfl
@[simp] theorem exec_rateRecovery (ctx : Nat) (s : State) : exec (.rateRecovery ctx) s = execRateRecovery ctx s := rfl
@[simp] theorem exec_remoteAccess (ctx : Nat) (write : Bool) (rkey : Nat) (off : Nat) (len : Nat) (data : Bytes) (host : HostRead) (icrcOk : Bool) (ecn : Bool) (s : State) : exec (.remoteAccess ctx write rkey off len data host icrcOk ecn) s = execRemoteAccess ctx write rkey off len data host icrcOk ecn s := rfl
@[simp] theorem exec_sendReceived (ctx : Nat) (data : Bytes) (imm : Option (BitVec 32)) (icrcOk : Bool) (ecn : Bool) (s : State) : exec (.sendReceived ctx data imm icrcOk ecn) s = execSendReceived ctx data imm icrcOk ecn s := rfl
@[simp] theorem exec_nvmfCmd (f : Fn) (q : Nat) (s : State) : exec (.nvmfCmd f q) s = execNvmfCmd f q s := rfl
@[simp] theorem exec_rdmaSend (f : Fn) (q : Nat) (s : State) : exec (.rdmaSend f q) s = execRdmaSend f q s := rfl
@[simp] theorem exec_rdmaWrite (f : Fn) (q : Nat) (s : State) : exec (.rdmaWrite f q) s = execRdmaWrite f q s := rfl
@[simp] theorem exec_rdmaRead (f : Fn) (q : Nat) (s : State) : exec (.rdmaRead f q) s = execRdmaRead f q s := rfl
@[simp] theorem exec_recvBuffer (f : Fn) (q : Nat) (s : State) : exec (.recvBuffer f q) s = execRecvBuffer f q s := rfl
@[simp] theorem exec_trackerGrant (s : State) : exec (.trackerGrant) s = execTrackerGrant s := rfl
@[simp] theorem exec_copy (ch : Nat) (n : Nat) (src : HostRead) (s : State) : exec (.copy ch n src) s = execCopy ch n src s := rfl
@[simp] theorem exec_fill (ch : Nat) (n : Nat) (s : State) : exec (.fill ch n) s = execFill ch n s := rfl
@[simp] theorem exec_gather (ch : Nat) (n : Nat) (src : HostRead) (idx : HostRead) (s : State) : exec (.gather ch n src idx) s = execGather ch n src idx s := rfl
@[simp] theorem exec_scatter (ch : Nat) (n : Nat) (src : HostRead) (idx : HostRead) (s : State) : exec (.scatter ch n src idx) s = execScatter ch n src idx s := rfl
@[simp] theorem exec_interleave (ch : Nat) (n : Nat) (src : HostRead) (s : State) : exec (.interleave ch n src) s = execInterleave ch n src s := rfl
@[simp] theorem exec_deinterleave (ch : Nat) (n : Nat) (src : HostRead) (s : State) : exec (.deinterleave ch n src) s = execDeinterleave ch n src s := rfl
@[simp] theorem exec_toPlanes (ch : Nat) (n : Nat) (src : HostRead) (s : State) : exec (.toPlanes ch n src) s = execToPlanes ch n src s := rfl
@[simp] theorem exec_fromPlanes (ch : Nat) (n : Nat) (src : HostRead) (s : State) : exec (.fromPlanes ch n src) s = execFromPlanes ch n src s := rfl
@[simp] theorem exec_moverAssign (s : State) : exec (.moverAssign) s = execMoverAssign s := rfl
@[simp] theorem exec_jobComplete (ch : Nat) (flush : HostRead) (s : State) : exec (.jobComplete ch flush) s = execJobComplete ch flush s := rfl
@[simp] theorem exec_busError (ch : Nat) (cause : Nat) (addr : Nat) (write : Bool) (flush : Bool) (device : Bool) (s : State) : exec (.busError ch cause addr write flush device) s = execBusError ch cause addr write flush device s := rfl
@[simp] theorem exec_channelResume (p : Path) (ch : Nat) (s : State) : exec (.channelResume p ch) s = execChannelResume p ch s := rfl
@[simp] theorem exec_channelAbort (p : Path) (ch : Nat) (s : State) : exec (.channelAbort p ch) s = execChannelAbort p ch s := rfl
@[simp] theorem exec_channelStart (p : Path) (ch : Nat) (s : State) : exec (.channelStart p ch) s = execChannelStart p ch s := rfl
@[simp] theorem exec_tfork (core : Nat) (s : State) : exec (.tfork core) s = execTfork core s := rfl
@[simp] theorem exec_tjoin (core : Nat) (s : State) : exec (.tjoin core) s = execTjoin core s := rfl
@[simp] theorem exec_texit (core : Nat) (s : State) : exec (.texit core) s = execTexit core s := rfl
@[simp] theorem exec_tkill (core : Nat) (s : State) : exec (.tkill core) s = execTkill core s := rfl
@[simp] theorem exec_cput (core : Nat) (s : State) : exec (.cput core) s = execCput core s := rfl
@[simp] theorem exec_csend (core : Nat) (s : State) : exec (.csend core) s = execCsend core s := rfl
@[simp] theorem exec_ctrysend (core : Nat) (s : State) : exec (.ctrysend core) s = execCtrysend core s := rfl
@[simp] theorem exec_cclear (core : Nat) (s : State) : exec (.cclear core) s = execCclear core s := rfl
@[simp] theorem exec_crecv (core : Nat) (s : State) : exec (.crecv core) s = execCrecv core s := rfl
@[simp] theorem exec_cpoll (core : Nat) (s : State) : exec (.cpoll core) s = execCpoll core s := rfl
@[simp] theorem exec_cget (core : Nat) (s : State) : exec (.cget core) s = execCget core s := rfl
@[simp] theorem exec_twait (core : Nat) (s : State) : exec (.twait core) s = execTwait core s := rfl
@[simp] theorem exec_halloc (core : Nat) (s : State) : exec (.halloc core) s = execHalloc core s := rfl
@[simp] theorem exec_hfree (core : Nat) (s : State) : exec (.hfree core) s = execHfree core s := rfl
@[simp] theorem exec_waitDeadline (thread : Nat) (s : State) : exec (.waitDeadline thread) s = execWaitDeadline thread s := rfl
@[simp] theorem exec_inject (s : State) : exec (.inject) s = execInject s := rfl
@[simp] theorem exec_stall (domain : Nat) (s : State) : exec (.stall domain) s = execStall domain s := rfl
@[simp] theorem exec_domainRestart (thread : Nat) (s : State) : exec (.domainRestart thread) s = execDomainRestart thread s := rfl
@[simp] theorem exec_freeHandles (thread : Nat) (s : State) : exec (.freeHandles thread) s = execFreeHandles thread s := rfl
@[simp] theorem exec_svcChCfgWrite (p : Path) (v : Word) (s : State) : exec (.svcChCfgWrite p v) s = execSvcChCfgWrite p v s := rfl
@[simp] theorem exec_laneMismatch (core : Nat) (s : State) : exec (.laneMismatch core) s = execLaneMismatch core s := rfl
@[simp] theorem exec_contextExchange (core : Nat) (s : State) : exec (.contextExchange core) s = execContextExchange core s := rfl
@[simp] theorem exec_debugHalt (thread : Nat) (s : State) : exec (.debugHalt thread) s = execDebugHalt thread s := rfl
@[simp] theorem exec_debugResume (thread : Nat) (s : State) : exec (.debugResume thread) s = execDebugResume thread s := rfl
@[simp] theorem exec_hartreset (thread : Nat) (s : State) : exec (.hartreset thread) s = execHartreset thread s := rfl
@[simp] theorem exec_mbxSend (f : Fn) (v : Word) (s : State) : exec (.mbxSend f v) s = execMbxSend f v s := rfl
@[simp] theorem exec_mbxF2hPop (f : Fn) (s : State) : exec (.mbxF2hPop f) s = execMbxF2hPop f s := rfl
@[simp] theorem exec_fmbxSend (p : Path) (v : Word) (s : State) : exec (.fmbxSend p v) s = execFmbxSend p v s := rfl
@[simp] theorem exec_ptpMeasurement (slot : Nat) (m : PtpMeasurement) (s : State) : exec (.ptpMeasurement slot m) s = execPtpMeasurement slot m s := rfl
@[simp] theorem exec_ppsEdge (pin : Nat) (edge : PinEdge) (s : State) : exec (.ppsEdge pin edge) s = execPpsEdge pin edge s := rfl
@[simp] theorem exec_nmeaSentence (sentence : Nmea) (s : State) : exec (.nmeaSentence sentence) s = execNmeaSentence sentence s := rfl
@[simp] theorem exec_manualCommit (p : Path) (s : State) : exec (.manualCommit p) s = execManualCommit p s := rfl
@[simp] theorem exec_reacquire (p : Path) (s : State) : exec (.reacquire p) s = execReacquire p s := rfl
@[simp] theorem exec_refQualified (slot : Nat) (s : State) : exec (.refQualified slot) s = execRefQualified slot s := rfl
@[simp] theorem exec_missedInterval (slot : Nat) (s : State) : exec (.missedInterval slot) s = execMissedInterval slot s := rfl
@[simp] theorem exec_timRefCfgWrite (p : Path) (slot : Nat) (v : Word) (s : State) : exec (.timRefCfgWrite p slot v) s = execTimRefCfgWrite p slot v s := rfl
@[simp] theorem exec_boundRecompute (s : State) : exec (.boundRecompute) s = execBoundRecompute s := rfl
@[simp] theorem exec_boundAlarmWrite (p : Path) (v : Word) (s : State) : exec (.boundAlarmWrite p v) s = execBoundAlarmWrite p v s := rfl
@[simp] theorem exec_oscFault (s : State) : exec (.oscFault) s = execOscFault s := rfl
@[simp] theorem exec_oscReturn (s : State) : exec (.oscReturn) s = execOscReturn s := rfl
@[simp] theorem exec_timUtcWrite (p : Path) (v : Word) (s : State) : exec (.timUtcWrite p v) s = execTimUtcWrite p v s := rfl
@[simp] theorem exec_leapAtWrite (p : Path) (high : Bool) (v : Word) (s : State) : exec (.leapAtWrite p high v) s = execLeapAtWrite p high v s := rfl
@[simp] theorem exec_leapApplied (s : State) : exec (.leapApplied) s = execLeapApplied s := rfl
@[simp] theorem exec_ppsOutEdge (pin : Nat) (s : State) : exec (.ppsOutEdge pin) s = execPpsOutEdge pin s := rfl
@[simp] theorem exec_ppsOutFall (pin : Nat) (s : State) : exec (.ppsOutFall pin) s = execPpsOutFall pin s := rfl
@[simp] theorem exec_todTxSentence (s : State) : exec (.todTxSentence) s = execTodTxSentence s := rfl
@[simp] theorem exec_tracePeriodic (s : State) : exec (.tracePeriodic) s = execTracePeriodic s := rfl
@[simp] theorem exec_timSnap (p : Path) (s : State) : exec (.timSnap p) s = execTimSnap p s := rfl
@[simp] theorem exec_akzPortUp (port : Nat) (s : State) : exec (.akzPortUp port) s = execAkzPortUp port s := rfl
@[simp] theorem exec_akzPortDown (port : Nat) (s : State) : exec (.akzPortDown port) s = execAkzPortDown port s := rfl
@[simp] theorem exec_linkFrameRx (port : Nat) (crcOk : Bool) (rx : LinkRx) (s : State) : exec (.linkFrameRx port crcOk rx) s = execLinkFrameRx port crcOk rx s := rfl
@[simp] theorem exec_linkNakRx (port : Nat) (seq : Nat) (s : State) : exec (.linkNakRx port seq) s = execLinkNakRx port seq s := rfl
@[simp] theorem exec_helloTx (port : Nat) (s : State) : exec (.helloTx port) s = execHelloTx port s := rfl
@[simp] theorem exec_helloRx (port : Nat) (h : Hello) (s : State) : exec (.helloRx port h) s = execHelloRx port h s := rfl
@[simp] theorem exec_helloTimeout (port : Nat) (s : State) : exec (.helloTimeout port) s = execHelloTimeout port s := rfl
@[simp] theorem exec_masterChange (s : State) : exec (.masterChange) s = execMasterChange s := rfl
@[simp] theorem exec_forget (p : Path) (member : Nat) (s : State) : exec (.forget p member) s = execForget p member s := rfl
@[simp] theorem exec_akzDataRx (port : Nat) (header : Bytes) (body : Bytes) (s : State) : exec (.akzDataRx port header body) s = execAkzDataRx port header body s := rfl
@[simp] theorem exec_timeFrameTx (port : Nat) (s : State) : exec (.timeFrameTx port) s = execTimeFrameTx port s := rfl
@[simp] theorem exec_timeFrameRx (port : Nat) (body : Bytes) (s : State) : exec (.timeFrameRx port body) s = execTimeFrameRx port body s := rfl
@[simp] theorem exec_bootReq (received : Bool) (s : State) : exec (.bootReq received) s = execBootReq received s := rfl
@[simp] theorem exec_imageFrame (body : Bytes) (s : State) : exec (.imageFrame body) s = execImageFrame body s := rfl
@[simp] theorem exec_imageResult (member : Nat) (status : Nat) (s : State) : exec (.imageResult member status) s = execImageResult member status s := rfl
@[simp] theorem exec_faultCount (kind : Nat) (index : Nat) (row : Nat) (recheckFailed : Bool) (s : State) : exec (.faultCount kind index row recheckFailed) s = execFaultCount kind index row recheckFailed s := rfl
@[simp] theorem exec_screeSubwindow (kind : Nat) (s : State) : exec (.screeSubwindow kind) s = execScreeSubwindow kind s := rfl
@[simp] theorem exec_handoffDone (kind : Nat) (s : State) : exec (.handoffDone kind) s = execHandoffDone kind s := rfl
@[simp] theorem exec_repairRetest (kind : Nat) (index : Nat) (passed : Bool) (s : State) : exec (.repairRetest kind index passed) s = execRepairRetest kind index passed s := rfl
@[simp] theorem exec_scrub (hbm : Bool) (line : Nat) (index : Nat) (row : Nat) (stored : Bytes) (reread : Bytes) (secondCopy : Bool) (s : State) : exec (.scrub hbm line index row stored reread secondCopy) s = execScrub hbm line index row stored reread secondCopy s := rfl
@[simp] theorem exec_machineCheckFatal (kind : Nat) (index : Nat) (s : State) : exec (.machineCheckFatal kind index) s = execMachineCheckFatal kind index s := rfl
@[simp] theorem exec_mcRestart (s : State) : exec (.mcRestart) s = execMcRestart s := rfl
@[simp] theorem exec_tokenSubmit (p : Path) (s : State) : exec (.tokenSubmit p) s = execTokenSubmit p s := rfl
@[simp] theorem exec_debugEnd (p : Path) (s : State) : exec (.debugEnd p) s = execDebugEnd p s := rfl
@[simp] theorem exec_nonceRead (p : Path) (s : State) : exec (.nonceRead p) s = execNonceRead p s := rfl
@[simp] theorem exec_debugExpiry (s : State) : exec (.debugExpiry) s = execDebugExpiry s := rfl
@[simp] theorem exec_mbxStage (f : Fn) (addr : Nat) (len : Nat) (image : HostRead) (s : State) : exec (.mbxStage f addr len image) s = execMbxStage f addr len image s := rfl
@[simp] theorem exec_mbxQuery (f : Fn) (s : State) : exec (.mbxQuery f) s = execMbxQuery f s := rfl
@[simp] theorem exec_requestUpdate (s : State) : exec (.requestUpdate) s = execRequestUpdate s := rfl
@[simp] theorem exec_passComponentTable (classification : Nat) (identifier : Nat) (s : State) : exec (.passComponentTable classification identifier) s = execPassComponentTable classification identifier s := rfl
@[simp] theorem exec_updateComponent (classification : Nat) (identifier : Nat) (size : Nat) (s : State) : exec (.updateComponent classification identifier size) s = execUpdateComponent classification identifier size s := rfl
@[simp] theorem exec_activateFirmware (s : State) : exec (.activateFirmware) s = execActivateFirmware s := rfl
@[simp] theorem exec_getStatus (s : State) : exec (.getStatus) s = execGetStatus s := rfl
@[simp] theorem exec_cancelUpdate (s : State) : exec (.cancelUpdate) s = execCancelUpdate s := rfl
@[simp] theorem exec_activate (p : Path) (s : State) : exec (.activate p) s = execActivate p s := rfl
@[simp] theorem exec_memberSwitch (rollback : Bool) (s : State) : exec (.memberSwitch rollback) s = execMemberSwitch rollback s := rfl
@[simp] theorem exec_switched (p : Path) (s : State) : exec (.switched p) s = execSwitched p s := rfl
@[simp] theorem exec_switchedReply (member : Nat) (reverted : Bool) (s : State) : exec (.switchedReply member reverted) s = execSwitchedReply member reverted s := rfl
@[simp] theorem exec_activateReverted (s : State) : exec (.activateReverted) s = execActivateReverted s := rfl
@[simp] theorem exec_dirWritten (s : State) : exec (.dirWritten) s = execDirWritten s := rfl
@[simp] theorem exec_commit (p : Path) (s : State) : exec (.commit p) s = execCommit p s := rfl
@[simp] theorem exec_rollback (p : Path) (s : State) : exec (.rollback p) s = execRollback p s := rfl
@[simp] theorem exec_autoCommit (s : State) : exec (.autoCommit) s = execAutoCommit s := rfl
@[simp] theorem exec_configWrite (f : Fn) (off : Nat) (v : Word) (s : State) : exec (.configWrite f off v) s = execConfigWrite f off v s := rfl
@[simp] theorem exec_instructionIssue (core : Nat) (s : State) : exec (.instructionIssue core) s = execInstructionIssue core s := rfl
@[simp] theorem exec_tapInstruction (code : TapCode) (data : Nat) (s : State) : exec (.tapInstruction code data) s = execTapInstruction code data s := rfl
@[simp] theorem exec_mgtLinkUp (s : State) : exec (.mgtLinkUp) s = execMgtLinkUp s := rfl
@[simp] theorem exec_mgtLinkDown (s : State) : exec (.mgtLinkDown) s = execMgtLinkDown s := rfl
@[simp] theorem exec_mgtFrameSent (s : State) : exec (.mgtFrameSent) s = execMgtFrameSent s := rfl
@[simp] theorem exec_mgtCarrierDrop (s : State) : exec (.mgtCarrierDrop) s = execMgtCarrierDrop s := rfl
@[simp] theorem exec_nvmeTcpR2t (ctx : Nat) (wire : Nat) (off : Nat) (len : Nat) (host : HostRead) (s : State) : exec (.nvmeTcpR2t ctx wire off len host) s = execNvmeTcpR2t ctx wire off len host s := rfl
@[simp] theorem exec_thermalWarnRearm (sensor : Nat) (reading : Int) (s : State) : exec (.thermalWarnRearm sensor reading) s = execThermalWarnRearm sensor reading s := rfl
@[simp] theorem exec_firmwareDataReceived (data : Bytes) (s : State) : exec (.firmwareDataReceived data) s = execFirmwareDataReceived data s := rfl

end Sys2Proof.Machine
end

