-- ==== Sys2Proof/Laws/Frame.lean ====
section
/-!
SUPPORT. Frames. `forget m s` is s with the parts that m names cleared, so that `forget m (op s) = forget m s` says once everything that
an operation can change: the parts in m and nothing else. Bits 0 to 23 of m are the fields of State in order, but for lastWork, which is
bit 25; bit 24 is the life-cycle fuses, which bit 18 (the rest of the LCS record) does not take in.
-/
namespace Sys2Proof.Machine
set_option linter.all false

/-- The life-cycle fuses, and the return that they await (R448 to R450). -/
def fuses (l : Lcs) : Nat × List Bytes × Bool × Nat := (l.life, l.owners, l.returnPending, l.returnTo)

/-- An LCS record with nothing but those fuses. -/
def onlyFuses (l : Lcs) : Lcs :=
  { life := l.life, owners := l.owners, returnPending := l.returnPending, returnTo := l.returnTo }

/-- An LCS record with the fuses cleared, the rest cleared, or neither. -/
def forgetLcs (rest fused : Bool) (l : Lcs) : Lcs :=
  match rest, fused with
  | false, false => l
  | true, false => onlyFuses l
  | false, true => { l with life := 0, owners := [], returnPending := false, returnTo := 0 }
  | true, true => {}

/-- s with the parts of m cleared. -/
def forget (m : Nat) (s : State) : State where
  pending := if m.testBit 0 then [] else s.pending
  elapsed := if m.testBit 1 then 0 else s.elapsed
  out := if m.testBit 2 then [] else s.out
  free := if m.testBit 3 then 0 else s.free
  regs := if m.testBit 4 then [] else s.regs
  occ := if m.testBit 5 then [] else s.occ
  shadow := if m.testBit 6 then [] else s.shadow
  cai := if m.testBit 7 then {} else s.cai
  hif := if m.testBit 8 then {} else s.hif
  qm := if m.testBit 9 then {} else s.qm
  mac := if m.testBit 10 then {} else s.mac
  mgt := if m.testBit 11 then {} else s.mgt
  prs := if m.testBit 12 then {} else s.prs
  tbl := if m.testBit 13 then {} else s.tbl
  tm := if m.testBit 14 then {} else s.tm
  tim := if m.testBit 15 then {} else s.tim
  cry := if m.testBit 16 then {} else s.cry
  rel := if m.testBit 17 then {} else s.rel
  lcs := forgetLcs (m.testBit 18) (m.testBit 24) s.lcs
  sto := if m.testBit 19 then {} else s.sto
  dmv := if m.testBit 20 then {} else s.dmv
  svc := if m.testBit 21 then {} else s.svc
  akz := if m.testBit 22 then {} else s.akz
  dev := if m.testBit 23 then [] else s.dev
  lastWork := if m.testBit 25 then [] else s.lastWork

/-- An or of bits that adds nothing keeps every bit. -/
theorem bit_of_or {a m : Nat} (h : a ||| m = m) (k : Nat) (ha : a.testBit k = true) : m.testBit k = true := by
  rw [← h, Nat.testBit_or, ha, Bool.true_or]

/-- Clearing fewer parts first makes no difference. -/
theorem forget_forget {a m : Nat} (h : a ||| m = m) (s : State) : forget m (forget a s) = forget m s := by
  have k := bit_of_or h
  have l : forgetLcs (m.testBit 18) (m.testBit 24) (forgetLcs (a.testBit 18) (a.testBit 24) s.lcs)
      = forgetLcs (m.testBit 18) (m.testBit 24) s.lcs := by
    have k1 := k 18
    have k2 := k 24
    revert k1 k2
    cases a.testBit 18 <;> cases a.testBit 24 <;> cases m.testBit 18 <;> cases m.testBit 24 <;> simp [forgetLcs, onlyFuses]
  have e {α : Type} (i : Nat) (x y : α) : (if m.testBit i then x else if a.testBit i then x else y) = if m.testBit i then x else y := by
    cases hm : m.testBit i
    · cases ha : a.testBit i
      · rfl
      · rw [k i ha] at hm; cases hm
    · rfl
  simp only [forget, l, e]

/-- A frame holds for every larger set of parts. -/
theorem widen {a m : Nat} {s t : State} (h : a ||| m = m) (e : forget a t = forget a s) : forget m t = forget m s := by
  rw [← forget_forget h t, e, forget_forget h]

/-- Inclusion of parts is transitive. -/
theorem or_trans {a b m : Nat} (h : a ||| b = b) (k : b ||| m = m) : a ||| m = m := by
  rw [← k, ← Nat.or_assoc, h]

/-- A frame of a conditional state. -/
@[simp] theorem forget_ite (m : Nat) (c : Prop) [Decidable c] (a b : State) :
    forget m (if c then a else b) = if c then forget m a else forget m b := apply_ite (forget m) c a b

/-- A frame of a fold of operations. -/
theorem forget_foldS {α : Type} (m : Nat) (f : α → State → State) (h : ∀ a t, forget m (f a t) = forget m t) :
    ∀ (l : List α) (s : State), forget m (foldS f l s) = forget m s
  | [], _ => rfl
  | a :: t, s => (forget_foldS m f h t (f a s)).trans (h a s)

/-- The state of an outcome, with parts cleared; that of d where there is none. -/
def forgetO (m : Nat) (d : State) : Outcome → State
  | .next t => forget m t
  | _ => forget m d

@[simp] theorem forgetO_next (m : Nat) (d t : State) : forgetO m d (.next t) = forget m t := rfl

@[simp] theorem forgetO_ite (m : Nat) (d : State) (c : Prop) [Decidable c] (a b : Outcome) :
    forgetO m d (if c then a else b) = if c then forgetO m d a else forgetO m d b := apply_ite (forgetO m d) c a b

/-- A frame of an outcome, for every larger set of parts. -/
theorem widenO {a m : Nat} {s : State} {o : Outcome} (h : a ||| m = m) (e : forgetO a s o = forget a s) : forgetO m s o = forget m s := by
  cases o with
  | next t => exact widen h e
  | fault r => rfl
  | refused r => rfl

/-- The frame of a command's next state. -/
theorem frame_of_next {m : Nat} {s t : State} {o : Outcome} (h : forgetO m s o = forget m s) (n : o = .next t) :
    forget m t = forget m s := by
  rw [n] at h
  exact h

/-- What a frame says of pending. -/
theorem pending_of_frame {m : Nat} {s t : State} (h : forget m t = forget m s) (b : m.testBit 0 = false) : t.pending = s.pending := by
  have e := congrArg State.pending h
  simpa only [forget, b, Bool.false_eq_true, if_false] using e

/-- What a frame says of elapsed. -/
theorem elapsed_of_frame {m : Nat} {s t : State} (h : forget m t = forget m s) (b : m.testBit 1 = false) : t.elapsed = s.elapsed := by
  have e := congrArg State.elapsed h
  simpa only [forget, b, Bool.false_eq_true, if_false] using e

/-- What a frame says of out. -/
theorem out_of_frame {m : Nat} {s t : State} (h : forget m t = forget m s) (b : m.testBit 2 = false) : t.out = s.out := by
  have e := congrArg State.out h
  simpa only [forget, b, Bool.false_eq_true, if_false] using e

/-- What a frame says of free. -/
theorem free_of_frame {m : Nat} {s t : State} (h : forget m t = forget m s) (b : m.testBit 3 = false) : t.free = s.free := by
  have e := congrArg State.free h
  simpa only [forget, b, Bool.false_eq_true, if_false] using e

/-- What a frame says of regs. -/
theorem regs_of_frame {m : Nat} {s t : State} (h : forget m t = forget m s) (b : m.testBit 4 = false) : t.regs = s.regs := by
  have e := congrArg State.regs h
  simpa only [forget, b, Bool.false_eq_true, if_false] using e

/-- What a frame says of occ. -/
theorem occ_of_frame {m : Nat} {s t : State} (h : forget m t = forget m s) (b : m.testBit 5 = false) : t.occ = s.occ := by
  have e := congrArg State.occ h
  simpa only [forget, b, Bool.false_eq_true, if_false] using e

/-- What a frame says of shadow. -/
theorem shadow_of_frame {m : Nat} {s t : State} (h : forget m t = forget m s) (b : m.testBit 6 = false) : t.shadow = s.shadow := by
  have e := congrArg State.shadow h
  simpa only [forget, b, Bool.false_eq_true, if_false] using e

/-- What a frame says of cai. -/
theorem cai_of_frame {m : Nat} {s t : State} (h : forget m t = forget m s) (b : m.testBit 7 = false) : t.cai = s.cai := by
  have e := congrArg State.cai h
  simpa only [forget, b, Bool.false_eq_true, if_false] using e

/-- What a frame says of hif. -/
theorem hif_of_frame {m : Nat} {s t : State} (h : forget m t = forget m s) (b : m.testBit 8 = false) : t.hif = s.hif := by
  have e := congrArg State.hif h
  simpa only [forget, b, Bool.false_eq_true, if_false] using e

/-- What a frame says of qm. -/
theorem qm_of_frame {m : Nat} {s t : State} (h : forget m t = forget m s) (b : m.testBit 9 = false) : t.qm = s.qm := by
  have e := congrArg State.qm h
  simpa only [forget, b, Bool.false_eq_true, if_false] using e

/-- What a frame says of mac. -/
theorem mac_of_frame {m : Nat} {s t : State} (h : forget m t = forget m s) (b : m.testBit 10 = false) : t.mac = s.mac := by
  have e := congrArg State.mac h
  simpa only [forget, b, Bool.false_eq_true, if_false] using e

/-- What a frame says of mgt. -/
theorem mgt_of_frame {m : Nat} {s t : State} (h : forget m t = forget m s) (b : m.testBit 11 = false) : t.mgt = s.mgt := by
  have e := congrArg State.mgt h
  simpa only [forget, b, Bool.false_eq_true, if_false] using e

/-- What a frame says of prs. -/
theorem prs_of_frame {m : Nat} {s t : State} (h : forget m t = forget m s) (b : m.testBit 12 = false) : t.prs = s.prs := by
  have e := congrArg State.prs h
  simpa only [forget, b, Bool.false_eq_true, if_false] using e

/-- What a frame says of tbl. -/
theorem tbl_of_frame {m : Nat} {s t : State} (h : forget m t = forget m s) (b : m.testBit 13 = false) : t.tbl = s.tbl := by
  have e := congrArg State.tbl h
  simpa only [forget, b, Bool.false_eq_true, if_false] using e

/-- What a frame says of tm. -/
theorem tm_of_frame {m : Nat} {s t : State} (h : forget m t = forget m s) (b : m.testBit 14 = false) : t.tm = s.tm := by
  have e := congrArg State.tm h
  simpa only [forget, b, Bool.false_eq_true, if_false] using e

/-- What a frame says of tim. -/
theorem tim_of_frame {m : Nat} {s t : State} (h : forget m t = forget m s) (b : m.testBit 15 = false) : t.tim = s.tim := by
  have e := congrArg State.tim h
  simpa only [forget, b, Bool.false_eq_true, if_false] using e

/-- What a frame says of cry. -/
theorem cry_of_frame {m : Nat} {s t : State} (h : forget m t = forget m s) (b : m.testBit 16 = false) : t.cry = s.cry := by
  have e := congrArg State.cry h
  simpa only [forget, b, Bool.false_eq_true, if_false] using e

/-- What a frame says of rel. -/
theorem rel_of_frame {m : Nat} {s t : State} (h : forget m t = forget m s) (b : m.testBit 17 = false) : t.rel = s.rel := by
  have e := congrArg State.rel h
  simpa only [forget, b, Bool.false_eq_true, if_false] using e

/-- What a frame says of sto. -/
theorem sto_of_frame {m : Nat} {s t : State} (h : forget m t = forget m s) (b : m.testBit 19 = false) : t.sto = s.sto := by
  have e := congrArg State.sto h
  simpa only [forget, b, Bool.false_eq_true, if_false] using e

/-- What a frame says of dmv. -/
theorem dmv_of_frame {m : Nat} {s t : State} (h : forget m t = forget m s) (b : m.testBit 20 = false) : t.dmv = s.dmv := by
  have e := congrArg State.dmv h
  simpa only [forget, b, Bool.false_eq_true, if_false] using e

/-- What a frame says of svc. -/
theorem svc_of_frame {m : Nat} {s t : State} (h : forget m t = forget m s) (b : m.testBit 21 = false) : t.svc = s.svc := by
  have e := congrArg State.svc h
  simpa only [forget, b, Bool.false_eq_true, if_false] using e

/-- What a frame says of akz. -/
theorem akz_of_frame {m : Nat} {s t : State} (h : forget m t = forget m s) (b : m.testBit 22 = false) : t.akz = s.akz := by
  have e := congrArg State.akz h
  simpa only [forget, b, Bool.false_eq_true, if_false] using e

/-- What a frame says of dev. -/
theorem dev_of_frame {m : Nat} {s t : State} (h : forget m t = forget m s) (b : m.testBit 23 = false) : t.dev = s.dev := by
  have e := congrArg State.dev h
  simpa only [forget, b, Bool.false_eq_true, if_false] using e

/-- What a frame says of lastWork. -/
theorem lastWork_of_frame {m : Nat} {s t : State} (h : forget m t = forget m s) (b : m.testBit 25 = false) : t.lastWork = s.lastWork := by
  have e := congrArg State.lastWork h
  simpa only [forget, b, Bool.false_eq_true, if_false] using e

/-- What a frame says of the LCS record. -/
theorem lcs_of_frame {m : Nat} {s t : State} (h : forget m t = forget m s) (b : m.testBit 18 = false) (b2 : m.testBit 24 = false) :
    t.lcs = s.lcs := by
  have e := congrArg State.lcs h
  simpa only [forget, b, b2, forgetLcs] using e

/-- What a frame says of the life-cycle fuses. -/
theorem fuses_of_frame {m : Nat} {s t : State} (h : forget m t = forget m s) (b : m.testBit 24 = false) :
    fuses t.lcs = fuses s.lcs := by
  have e := congrArg State.lcs h
  revert e
  cases hb : m.testBit 18 <;> simp only [forget, b, hb, forgetLcs]
  · intro e; rw [e]
  · intro e
    simp only [onlyFuses, Lcs.mk.injEq] at e
    simp only [fuses, e]

/-! ### The plain updates -/

@[simp] theorem modCai_frame (m : Nat) (h : 128 ||| m = m) (g : Cai → Cai) (s : State) : forget m (modCai g s) = forget m s := by
  have b := bit_of_or h
  simp only [forget, b 7 rfl, if_true, modCai]

@[simp] theorem modTim_frame (m : Nat) (h : 32768 ||| m = m) (g : Tim → Tim) (s : State) : forget m (modTim g s) = forget m s := by
  have b := bit_of_or h
  simp only [forget, b 15 rfl, if_true, modTim]

@[simp] theorem modHif_frame (m : Nat) (h : 256 ||| m = m) (g : Hif → Hif) (s : State) : forget m (modHif g s) = forget m s := by
  have b := bit_of_or h
  simp only [forget, b 8 rfl, if_true, modHif]

@[simp] theorem modQm_frame (m : Nat) (h : 512 ||| m = m) (g : Qm → Qm) (s : State) : forget m (modQm g s) = forget m s := by
  have b := bit_of_or h
  simp only [forget, b 9 rfl, if_true, modQm]

@[simp] theorem modTbl_frame (m : Nat) (h : 8192 ||| m = m) (g : Tbl → Tbl) (s : State) : forget m (modTbl g s) = forget m s := by
  have b := bit_of_or h
  simp only [forget, b 13 rfl, if_true, modTbl]

@[simp] theorem modTm_frame (m : Nat) (h : 16384 ||| m = m) (g : Tm → Tm) (s : State) : forget m (modTm g s) = forget m s := by
  have b := bit_of_or h
  simp only [forget, b 14 rfl, if_true, modTm]

@[simp] theorem modPrs_frame (m : Nat) (h : 4096 ||| m = m) (g : Prs → Prs) (s : State) : forget m (modPrs g s) = forget m s := by
  have b := bit_of_or h
  simp only [forget, b 12 rfl, if_true, modPrs]

@[simp] theorem modMac_frame (m : Nat) (h : 1024 ||| m = m) (g : Mac → Mac) (s : State) : forget m (modMac g s) = forget m s := by
  have b := bit_of_or h
  simp only [forget, b 10 rfl, if_true, modMac]

@[simp] theorem modMgt_frame (m : Nat) (h : 2048 ||| m = m) (g : Mgt → Mgt) (s : State) : forget m (modMgt g s) = forget m s := by
  have b := bit_of_or h
  simp only [forget, b 11 rfl, if_true, modMgt]

@[simp] theorem modCry_frame (m : Nat) (h : 65536 ||| m = m) (g : Cry → Cry) (s : State) : forget m (modCry g s) = forget m s := by
  have b := bit_of_or h
  simp only [forget, b 16 rfl, if_true, modCry]

@[simp] theorem modRel_frame (m : Nat) (h : 131072 ||| m = m) (g : Rel → Rel) (s : State) : forget m (modRel g s) = forget m s := by
  have b := bit_of_or h
  simp only [forget, b 17 rfl, if_true, modRel]

@[simp] theorem modSto_frame (m : Nat) (h : 524288 ||| m = m) (g : Sto → Sto) (s : State) : forget m (modSto g s) = forget m s := by
  have b := bit_of_or h
  simp only [forget, b 19 rfl, if_true, modSto]

@[simp] theorem modDmv_frame (m : Nat) (h : 1048576 ||| m = m) (g : Dmv → Dmv) (s : State) : forget m (modDmv g s) = forget m s := by
  have b := bit_of_or h
  simp only [forget, b 20 rfl, if_true, modDmv]

@[simp] theorem modSvc_frame (m : Nat) (h : 2097152 ||| m = m) (g : Svc → Svc) (s : State) : forget m (modSvc g s) = forget m s := by
  have b := bit_of_or h
  simp only [forget, b 21 rfl, if_true, modSvc]

@[simp] theorem modAkz_frame (m : Nat) (h : 4194304 ||| m = m) (g : Akz → Akz) (s : State) : forget m (modAkz g s) = forget m s := by
  have b := bit_of_or h
  simp only [forget, b 22 rfl, if_true, modAkz]

@[simp] theorem modHalf_frame (m : Nat) (h : 256 ||| m = m) (k : Nat) (g : HalfSt → HalfSt) (s : State) : forget m (modHalf k g s) = forget m s := by
  have b := bit_of_or h
  simp only [forget, b 8 rfl, if_true, modHalf]

@[simp] theorem modFn_frame (m : Nat) (h : 256 ||| m = m) (f : Fn) (g : FnSt → FnSt) (s : State) : forget m (modFn f g s) = forget m s := by
  have b := bit_of_or h
  simp only [forget, b 8 rfl, if_true, modFn]

@[simp] theorem emit_frame (m : Nat) (h : 4 ||| m = m) (o : Output) (s : State) : forget m (emit o s) = forget m s := by
  have b := bit_of_or h
  simp only [forget, b 2 rfl, if_true, emit]

@[simp] theorem takeFree_frame (m : Nat) (h : 8 ||| m = m) (s : State) : forget m ((takeFree s).2) = forget m s := by
  have b := bit_of_or h
  simp only [forget, b 3 rfl, if_true, takeFree]

@[simp] theorem setReg_frame (m : Nat) (h : 16 ||| m = m) (r : Reg) (i k : Nat) (v : Word) (s : State) : forget m (setReg r i k v s) = forget m s := by
  have b := bit_of_or h
  simp only [forget, b 4 rfl, if_true, setReg]

@[simp] theorem countOcc_frame (m : Nat) (h : 32 ||| m = m) (r : Reg) (i k bit : Nat) (s : State) : forget m (countOcc r i k bit s) = forget m s := by
  have b := bit_of_or h
  simp only [forget, b 5 rfl, if_true, countOcc]

@[simp] theorem ticks_frame (m : Nat) (h : 32770 ||| m = m) (n : Nat) (s : State) : forget m (ticks n s) = forget m s := by
  have b := bit_of_or h
  simp only [forget, b 1 rfl, b 15 rfl, if_true, ticks]

@[simp] theorem modQueue_frame (m : Nat) (h : 512 ||| m = m) (f : Fn) (q : Nat) (g : Queue → Queue) (s : State) : forget m (modQueue f q g s) = forget m s := by
  have b := bit_of_or h
  simp only [forget, b 9 rfl, if_true, modQueue]

theorem modLcs_frame (m : Nat) (h : 262144 ||| m = m) (g : Lcs → Lcs) (s : State) (e : ∀ l, fuses (g l) = fuses l) :
    forget m (modLcs g s) = forget m s := by
  have b := bit_of_or h
  have e' := e s.lcs
  cases c : m.testBit 24 <;> simp only [forget, b 18 rfl, c, modLcs, forgetLcs]
  simp only [fuses, Prod.mk.injEq] at e'
  simp only [onlyFuses, e']

theorem modLcs_frame_all (m : Nat) (h : 17039360 ||| m = m) (g : Lcs → Lcs) (s : State) : forget m (modLcs g s) = forget m s := by
  have b := bit_of_or h
  simp only [forget, b 18 rfl, b 24 rfl, modLcs, forgetLcs]

/-- A raw update of one field of a state. -/
@[simp] theorem set_pending_frame (m : Nat) (h : 1 ||| m = m) (x : List Instr) (s : State) : forget m ({ s with pending := x }) = forget m s := by
  have b := bit_of_or h
  simp only [forget, b 0 rfl, if_true]

@[simp] theorem set_elapsed_frame (m : Nat) (h : 2 ||| m = m) (x : Nat) (s : State) : forget m ({ s with elapsed := x }) = forget m s := by
  have b := bit_of_or h
  simp only [forget, b 1 rfl, if_true]

@[simp] theorem set_out_frame (m : Nat) (h : 4 ||| m = m) (x : List Output) (s : State) : forget m ({ s with out := x }) = forget m s := by
  have b := bit_of_or h
  simp only [forget, b 2 rfl, if_true]

@[simp] theorem set_free_frame (m : Nat) (h : 8 ||| m = m) (x : Nat) (s : State) : forget m ({ s with free := x }) = forget m s := by
  have b := bit_of_or h
  simp only [forget, b 3 rfl, if_true]

@[simp] theorem set_regs_frame (m : Nat) (h : 16 ||| m = m) (x : NMap Word) (s : State) : forget m ({ s with regs := x }) = forget m s := by
  have b := bit_of_or h
  simp only [forget, b 4 rfl, if_true]

@[simp] theorem set_occ_frame (m : Nat) (h : 32 ||| m = m) (x : NMap Nat) (s : State) : forget m ({ s with occ := x }) = forget m s := by
  have b := bit_of_or h
  simp only [forget, b 5 rfl, if_true]

@[simp] theorem set_shadow_frame (m : Nat) (h : 64 ||| m = m) (x : NMap Word) (s : State) : forget m ({ s with shadow := x }) = forget m s := by
  have b := bit_of_or h
  simp only [forget, b 6 rfl, if_true]

@[simp] theorem set_cai_frame (m : Nat) (h : 128 ||| m = m) (x : Cai) (s : State) : forget m ({ s with cai := x }) = forget m s := by
  have b := bit_of_or h
  simp only [forget, b 7 rfl, if_true]

@[simp] theorem set_hif_frame (m : Nat) (h : 256 ||| m = m) (x : Hif) (s : State) : forget m ({ s with hif := x }) = forget m s := by
  have b := bit_of_or h
  simp only [forget, b 8 rfl, if_true]

@[simp] theorem set_qm_frame (m : Nat) (h : 512 ||| m = m) (x : Qm) (s : State) : forget m ({ s with qm := x }) = forget m s := by
  have b := bit_of_or h
  simp only [forget, b 9 rfl, if_true]

@[simp] theorem set_mac_frame (m : Nat) (h : 1024 ||| m = m) (x : Mac) (s : State) : forget m ({ s with mac := x }) = forget m s := by
  have b := bit_of_or h
  simp only [forget, b 10 rfl, if_true]

@[simp] theorem set_mgt_frame (m : Nat) (h : 2048 ||| m = m) (x : Mgt) (s : State) : forget m ({ s with mgt := x }) = forget m s := by
  have b := bit_of_or h
  simp only [forget, b 11 rfl, if_true]

@[simp] theorem set_prs_frame (m : Nat) (h : 4096 ||| m = m) (x : Prs) (s : State) : forget m ({ s with prs := x }) = forget m s := by
  have b := bit_of_or h
  simp only [forget, b 12 rfl, if_true]

@[simp] theorem set_tbl_frame (m : Nat) (h : 8192 ||| m = m) (x : Tbl) (s : State) : forget m ({ s with tbl := x }) = forget m s := by
  have b := bit_of_or h
  simp only [forget, b 13 rfl, if_true]

@[simp] theorem set_tm_frame (m : Nat) (h : 16384 ||| m = m) (x : Tm) (s : State) : forget m ({ s with tm := x }) = forget m s := by
  have b := bit_of_or h
  simp only [forget, b 14 rfl, if_true]

@[simp] theorem set_tim_frame (m : Nat) (h : 32768 ||| m = m) (x : Tim) (s : State) : forget m ({ s with tim := x }) = forget m s := by
  have b := bit_of_or h
  simp only [forget, b 15 rfl, if_true]

@[simp] theorem set_cry_frame (m : Nat) (h : 65536 ||| m = m) (x : Cry) (s : State) : forget m ({ s with cry := x }) = forget m s := by
  have b := bit_of_or h
  simp only [forget, b 16 rfl, if_true]

@[simp] theorem set_rel_frame (m : Nat) (h : 131072 ||| m = m) (x : Rel) (s : State) : forget m ({ s with rel := x }) = forget m s := by
  have b := bit_of_or h
  simp only [forget, b 17 rfl, if_true]

@[simp] theorem set_sto_frame (m : Nat) (h : 524288 ||| m = m) (x : Sto) (s : State) : forget m ({ s with sto := x }) = forget m s := by
  have b := bit_of_or h
  simp only [forget, b 19 rfl, if_true]

@[simp] theorem set_dmv_frame (m : Nat) (h : 1048576 ||| m = m) (x : Dmv) (s : State) : forget m ({ s with dmv := x }) = forget m s := by
  have b := bit_of_or h
  simp only [forget, b 20 rfl, if_true]

@[simp] theorem set_svc_frame (m : Nat) (h : 2097152 ||| m = m) (x : Svc) (s : State) : forget m ({ s with svc := x }) = forget m s := by
  have b := bit_of_or h
  simp only [forget, b 21 rfl, if_true]

@[simp] theorem set_akz_frame (m : Nat) (h : 4194304 ||| m = m) (x : Akz) (s : State) : forget m ({ s with akz := x }) = forget m s := by
  have b := bit_of_or h
  simp only [forget, b 22 rfl, if_true]

@[simp] theorem set_dev_frame (m : Nat) (h : 8388608 ||| m = m) (x : NMap Byte) (s : State) : forget m ({ s with dev := x }) = forget m s := by
  have b := bit_of_or h
  simp only [forget, b 23 rfl, if_true]

@[simp] theorem set_lastWork_frame (m : Nat) (h : 33554432 ||| m = m) (x : NMap Nat) (s : State) : forget m ({ s with lastWork := x }) = forget m s := by
  have b := bit_of_or h
  simp only [forget, b 25 rfl, if_true]

end Sys2Proof.Machine
end

