-- ==== Sys2Proof/Laws/FrameOps.lean ====
section
/-!
SUPPORT. Frames of the operations of Machine/Ops.lean: the parts of the state that each can change.
-/
namespace Sys2Proof.Machine
set_option linter.all false

@[simp] theorem modWork_frame (μ : Nat) (hm : 512 ||| μ = μ) (f : Fn) (q : Nat) (ctr : BitVec 16) (g : Work → Work) (s : State) : forget μ (modWork f q ctr g s) = forget μ s := widen (a := 512) hm (by
  unfold modWork
  simp)

@[simp] theorem hwSet_frame (μ : Nat) (hm : 48 ||| μ = μ) (r : Reg) (i : Nat) (h : Nat) (bit : Nat) (s : State) : forget μ (hwSet r i h bit s) = forget μ s := widen (a := 48) hm (by
  unfold hwSet
  simp)

@[simp] theorem modMsgs_frame (μ : Nat) (hm : 2097152 ||| μ = μ) (c : Nat) (g : List ChMsg → List ChMsg) (s : State) : forget μ (modMsgs c g s) = forget μ s := widen (a := 2097152) hm (by
  unfold modMsgs
  simp)

@[simp] theorem modThread_frame (μ : Nat) (hm : 2097152 ||| μ = μ) (t : Nat) (g : Thread → Thread) (s : State) : forget μ (modThread t g s) = forget μ s := widen (a := 2097152) hm (by
  unfold modThread
  simp)

@[simp] theorem endWait_frame (μ : Nat) (hm : 2097152 ||| μ = μ) (t : Nat) (v : Nat) (s : State) : forget μ (endWait t v s) = forget μ s := widen (a := 2097152) hm (by
  unfold endWait
  simp)

@[simp] theorem pumpEvents_frame (μ : Nat) (hm : 2097664 ||| μ = μ) (s : State) : forget μ (pumpEvents s) = forget μ s := widen (a := 2097664) hm (by
  unfold pumpEvents
  repeat' (first | with_reducible rfl | simp only [↓endWait_frame, ↓modThread_frame, ↓modQm_frame, ↓modMsgs_frame, forget_ite, ite_self, Nat.reduceOr] | (refine Eq.trans (forget_foldS _ _ (fun _ _ => ?_) _ _) ?_) | (refine Eq.trans (congrArg (forget _) (congrArg Prod.snd ‹_ = (_, _)›).symm) ?_) | split | dsimp only))

@[simp] theorem postSource_frame (μ : Nat) (hm : 2097664 ||| μ = μ) (f : Fn) (eq : Option Nat) (block : Nat) (code : Nat) (detail : Nat) (s : State) : forget μ (postSource f eq block code detail s) = forget μ s := widen (a := 2097664) hm (by
  unfold postSource
  repeat' (first | with_reducible rfl | simp only [↓modQm_frame, ↓pumpEvents_frame, forget_ite, ite_self, Nat.reduceOr] | split))

@[simp] theorem raise_frame (μ : Nat) (hm : 2097664 ||| μ = μ) (block : Nat) (code : Nat) (detail : Nat) (sc : Scope) (s : State) : forget μ (raise block code detail sc s) = forget μ s := widen (a := 2097664) hm (by
  unfold raise
  repeat' (first | with_reducible rfl | simp only [↓postSource_frame, Nat.reduceOr] | (refine Eq.trans (forget_foldS _ _ (fun _ _ => ?_) _ _) ?_) | (refine Eq.trans (congrArg (forget _) (congrArg Prod.snd ‹_ = (_, _)›).symm) ?_) | split | dsimp only))

@[simp] theorem bump_frame (μ : Nat) (hm : 16 ||| μ = μ) (r : Reg) (i : Nat) (h : Nat) (n : Nat) (s : State) : forget μ (bump r i h n s) = forget μ s := widen (a := 16) hm (by
  unfold bump
  simp)

@[simp] theorem setPair64_frame (μ : Nat) (hm : 16 ||| μ = μ) (lo : Reg) (hi : Reg) (i : Nat) (h : Nat) (v : Nat) (s : State) : forget μ (setPair64 lo hi i h v s) = forget μ s := widen (a := 16) hm (by
  unfold setPair64
  simp)

@[simp] theorem worked_frame (μ : Nat) (hm : 33554432 ||| μ = μ) (u : DUnit) (s : State) : forget μ (worked u s) = forget μ s := widen (a := 33554432) hm (by
  unfold worked
  simp)

@[simp] theorem finishWork_frame (μ : Nat) (hm : 512 ||| μ = μ) (f : Fn) (q : Nat) (ctr : BitVec 16) (status : Nat) (extra : Nat) (s : State) : forget μ (finishWork f q ctr status extra s) = forget μ s := widen (a := 512) hm (by
  unfold finishWork
  simp)

@[simp] theorem sendWrite_frame (μ : Nat) (hm : 4 ||| μ = μ) (f : Fn) (pasid : Option Nat) (addr : Nat) (bytes : Bytes) (t : Tlp) (s : State) : forget μ (sendWrite f pasid addr bytes t s) = forget μ s := widen (a := 4) hm (by
  unfold sendWrite
  repeat' (first | with_reducible rfl | simp only [↓emit_frame, forget_ite, Nat.reduceOr] | (refine Eq.trans (forget_foldS _ _ (fun _ _ => ?_) _ _) ?_) | (refine Eq.trans (congrArg (forget _) (congrArg Prod.snd ‹_ = (_, _)›).symm) ?_) | split | dsimp only))

@[simp] theorem logWrite_frame (μ : Nat) (hm : 260 ||| μ = μ) (f : Fn) (addr : Nat) (len : Nat) (s : State) : forget μ (logWrite f addr len s) = forget μ s := widen (a := 260) hm (by
  unfold logWrite
  repeat' (first | with_reducible rfl | simp only [↓emit_frame, ↓modFn_frame, forget_ite, Nat.reduceOr] | (refine Eq.trans (forget_foldS _ _ (fun _ _ => ?_) _ _) ?_) | (refine Eq.trans (congrArg (forget _) (congrArg Prod.snd ‹_ = (_, _)›).symm) ?_) | split | dsimp only))

@[simp] theorem hostWrite_frame (μ : Nat) (hm : 260 ||| μ = μ) (f : Fn) (pasid : Option Nat) (addr : Nat) (bytes : Bytes) (ro : Bool) (s : State) : forget μ (hostWrite f pasid addr bytes ro s) = forget μ s := widen (a := 260) hm (by
  unfold hostWrite
  (repeat' split) <;> simp)

@[simp] theorem modDomain_frame (μ : Nat) (hm : 128 ||| μ = μ) (u : DUnit) (g : DomainSt → DomainSt) (s : State) : forget μ (modDomain u g s) = forget μ s := widen (a := 128) hm (by
  unfold modDomain
  simp)

@[simp] theorem advanceTo_frame (μ : Nat) (hm : 32770 ||| μ = μ) (t : Nat) (s : State) : forget μ (advanceTo t s) = forget μ s := widen (a := 32770) hm (by
  unfold advanceTo
  simp)

@[simp] theorem advanceTai_frame (μ : Nat) (hm : 32770 ||| μ = μ) (t : Nat) (s : State) : forget μ (advanceTai t s) = forget μ s := widen (a := 32770) hm (by
  unfold advanceTai
  simp)

@[simp] theorem tick_frame (μ : Nat) (hm : 32770 ||| μ = μ) (s : State) : forget μ (tick s) = forget μ s := widen (a := 32770) hm (by
  unfold tick
  simp)

end Sys2Proof.Machine
end

