-- ==== Sys2Proof/Laws/FrameOperands.lean ====
section
/-!
SUPPORT. Frames of the operations of Machine/Operands.lean: the parts of the state that each can change.
-/
namespace Sys2Proof.Machine
set_option linter.all false

end Sys2Proof.Machine
end

