-- ==== Sys2Proof/Laws/FrameDevMem.lean ====
section
/-!
SUPPORT. Frames of the operations of Machine/DevMem.lean: the parts of the state that each can change.
-/
namespace Sys2Proof.Machine
set_option linter.all false

@[simp] theorem devWrite_frame (μ : Nat) (hm : 10616832 ||| μ = μ) (a : Nat) (bs : Bytes) (s : State) : forget μ (devWrite a bs s) = forget μ s := by
  have b := bit_of_or hm
  simp only [forget, devWrite, modSvc, b 17 rfl, b 21 rfl, b 23 rfl, if_true]

@[simp] theorem payloadWrite_frame (μ : Nat) (hm : 260 ||| μ = μ) (f : Fn) (pasid : Option Nat) (addr : Nat) (bytes : Bytes) (s : State) : forget μ (payloadWrite f pasid addr bytes s) = forget μ s := widen (a := 260) hm (by
  unfold payloadWrite
  simp)

@[simp] theorem trkHigh_frame (μ : Nat) (hm : 2621952 ||| μ = μ) (s : State) : forget μ (trkHigh s) = forget μ s := widen (a := 2621952) hm (by
  unfold trkHigh
  simp)

end Sys2Proof.Machine
end

