-- ==== Sys2Proof/Laws/FrameFlowOps.lean ====
section
/-!
SUPPORT. Frames of the operations of Machine/FlowOps.lean: the parts of the state that each can change.
-/
namespace Sys2Proof.Machine
set_option linter.all false

@[simp] theorem modLport_frame (μ : Nat) (hm : 1024 ||| μ = μ) (lp : Nat) (g : LPort → LPort) (s : State) : forget μ (modLport lp g s) = forget μ s := widen (a := 1024) hm (by
  unfold modLport
  simp)

@[simp] theorem lpCount_frame (μ : Nat) (hm : 1024 ||| μ = μ) (lp : Nat) (k : Nat) (n : Nat) (s : State) : forget μ (lpCount lp k n s) = forget μ s := widen (a := 1024) hm (by
  unfold lpCount
  simp)

@[simp] theorem sendPause_frame (μ : Nat) (hm : 1028 ||| μ = μ) (lp : Nat) (p : Nat) (q : Nat) (s : State) : forget μ (sendPause lp p q s) = forget μ s := widen (a := 1028) hm (by
  unfold sendPause
  simp)

@[simp] theorem modPrio_frame (μ : Nat) (hm : 1024 ||| μ = μ) (lp : Nat) (p : Nat) (g : PrioSt → PrioSt) (s : State) : forget μ (modPrio lp p g s) = forget μ s := widen (a := 1024) hm (by
  unfold modPrio
  simp)

@[simp] theorem judgeFlow_frame (μ : Nat) (hm : 1028 ||| μ = μ) (lp : Nat) (p : Nat) (s : State) : forget μ (judgeFlow lp p s) = forget μ s := widen (a := 1028) hm (by
  unfold judgeFlow
  simp)

@[simp] theorem judgeFrame_frame (μ : Nat) (hm : 1028 ||| μ = μ) (f : Frame) (s : State) : forget μ (judgeFrame f s) = forget μ s := widen (a := 1028) hm (by
  unfold judgeFrame
  simp)

end Sys2Proof.Machine
end

