-- ==== Sys2Proof/Laws/FrameTimeBase.lean ====
section
/-!
SUPPORT. Frames of the operations of Machine/TimeBase.lean: the parts of the state that each can change.
-/
namespace Sys2Proof.Machine
set_option linter.all false

@[simp] theorem modPpsOut_frame (μ : Nat) (hm : 32768 ||| μ = μ) (pin : Nat) (g : PpsOut → PpsOut) (s : State) : forget μ (modPpsOut pin g s) = forget μ s := widen (a := 32768) hm (by
  unfold modPpsOut
  simp)

@[simp] theorem settlePin_frame (μ : Nat) (hm : 32772 ||| μ = μ) (pin : Nat) (s : State) : forget μ (settlePin pin s) = forget μ s := widen (a := 32772) hm (by
  unfold settlePin
  simp)

@[simp] theorem settlePins_frame (μ : Nat) (hm : 32772 ||| μ = μ) (s : State) : forget μ (settlePins s) = forget μ s := widen (a := 32772) hm (by
  unfold settlePins
  simp)

@[simp] theorem boundAlarm_frame (μ : Nat) (hm : 2130484 ||| μ = μ) (s : State) : forget μ (boundAlarm s) = forget μ s := widen (a := 2130484) hm (by
  unfold boundAlarm
  simp)

@[simp] theorem pageRise_frame (μ : Nat) (hm : 32768 ||| μ = μ) (b : Nat) (s : State) : forget μ (pageRise b s) = forget μ s := widen (a := 32768) hm (by
  unfold pageRise
  simp)

@[simp] theorem setBound_frame (μ : Nat) (hm : 2130484 ||| μ = μ) (b : Option Nat) (s0 : State) : forget μ (setBound b s0) = forget μ s0 := widen (a := 2130484) hm (by
  unfold setBound
  (repeat' split) <;> simp)

@[simp] theorem growNow_frame (μ : Nat) (hm : 32768 ||| μ = μ) (s : State) : forget μ (growNow s) = forget μ s := widen (a := 32768) hm (by
  unfold growNow
  simp)

@[simp] theorem refreshBound_frame (μ : Nat) (hm : 2130484 ||| μ = μ) (s : State) : forget μ (refreshBound s) = forget μ s := widen (a := 2130484) hm (by
  unfold refreshBound
  simp)

@[simp] theorem pushRecord_frame (μ : Nat) (hm : 2130448 ||| μ = μ) (bs : Bytes) (s : State) : forget μ (pushRecord bs s) = forget μ s := widen (a := 2130448) hm (by
  unfold pushRecord
  simp)

@[simp] theorem trace_frame (μ : Nat) (hm : 2130448 ||| μ = μ) (type : Nat) (s : State) : forget μ (trace type s) = forget μ s := widen (a := 2130448) hm (by
  unfold trace
  simp)

@[simp] theorem forcePages_frame (μ : Nat) (hm : 32768 ||| μ = μ) (stepped : Bool) (s : State) : forget μ (forcePages stepped s) = forget μ s := widen (a := 32768) hm (by
  unfold forcePages
  simp)

@[simp] theorem setServo_frame (μ : Nat) (hm : 2130448 ||| μ = μ) (v : Servo) (s : State) : forget μ (setServo v s) = forget μ s := widen (a := 2130448) hm (by
  unfold setServo
  simp)

@[simp] theorem setModel_frame (μ : Nat) (hm : 2130484 ||| μ = μ) (m : BoundModel) (base : Nat) (s : State) : forget μ (setModel m base s) = forget μ s := widen (a := 2130484) hm (by
  unfold setModel
  simp)

@[simp] theorem enterHoldover_frame (μ : Nat) (hm : 2130484 ||| μ = μ) (entry : Option Nat) (s : State) : forget μ (enterHoldover entry s) = forget μ s := widen (a := 2130484) hm (by
  unfold enterHoldover
  (repeat' split) <;> simp)

@[simp] theorem stepTime_frame (μ : Nat) (hm : 2130480 ||| μ = μ) (t48 : Nat) (s : State) : forget μ (stepTime t48 s) = forget μ s := widen (a := 2130480) hm (by
  unfold stepTime
  simp)

@[simp] theorem supplyUtc_frame (μ : Nat) (hm : 2130448 ||| μ = μ) (off : Int) (s : State) : forget μ (supplyUtc off s) = forget μ s := widen (a := 2130448) hm (by
  unfold supplyUtc
  simp)

@[simp] theorem setLeap_frame (μ : Nat) (hm : 32784 ||| μ = μ) (l : Option Leap) (s : State) : forget μ (setLeap l s) = forget μ s := widen (a := 32784) hm (by
  unfold setLeap
  simp)

@[simp] theorem announceLeap_frame (μ : Nat) (hm : 32784 ||| μ = μ) (src : LeapSrc) (a : Announce) (s : State) : forget μ (announceLeap src a s) = forget μ s := widen (a := 32784) hm (by
  unfold announceLeap
  (repeat' split) <;> simp)

@[simp] theorem registerUtc_frame (μ : Nat) (hm : 2130448 ||| μ = μ) (u : Word) (s : State) : forget μ (registerUtc u s) = forget μ s := widen (a := 2130448) hm (by
  unfold registerUtc
  simp)

@[simp] theorem governUtc_frame (μ : Nat) (hm : 2130448 ||| μ = μ) (s : State) : forget μ (governUtc s) = forget μ s := widen (a := 2130448) hm (by
  unfold governUtc
  (repeat' split) <;> simp)

@[simp] theorem switchTo_frame (μ : Nat) (hm : 2130484 ||| μ = μ) (id : Nat) (s : State) : forget μ (switchTo id s) = forget μ s := widen (a := 2130484) hm (by
  unfold switchTo
  (repeat' split) <;> simp)

@[simp] theorem loseSelected_frame (μ : Nat) (hm : 2130484 ||| μ = μ) (s : State) : forget μ (loseSelected s) = forget μ s := widen (a := 2130484) hm (by
  unfold loseSelected
  (repeat' split) <;> simp)

@[simp] theorem modSlot_frame (μ : Nat) (hm : 32768 ||| μ = μ) (id : Nat) (g : RefSlot → RefSlot) (s : State) : forget μ (modSlot id g s) = forget μ s := widen (a := 32768) hm (by
  unfold modSlot
  simp)

@[simp] theorem loseSlot_frame (μ : Nat) (hm : 2130484 ||| μ = μ) (id : Nat) (dest : RefSt) (s : State) : forget μ (loseSlot id dest s) = forget μ s := widen (a := 2130484) hm (by
  unfold loseSlot
  simp)

@[simp] theorem setWake_frame (μ : Nat) (hm : 128 ||| μ = μ) (cause : Nat) (s : State) : forget μ (setWake cause s) = forget μ s := widen (a := 128) hm (by
  unfold setWake
  simp)

@[simp] theorem wakeRequest_frame (μ : Nat) (hm : 2097796 ||| μ = μ) (s : State) : forget μ (wakeRequest s) = forget μ s := widen (a := 2097796) hm (by
  unfold wakeRequest
  simp)

@[simp] theorem wakePassed_frame (μ : Nat) (hm : 2097812 ||| μ = μ) (s : State) : forget μ (wakePassed s) = forget μ s := widen (a := 2097812) hm (by
  unfold wakePassed
  simp)

@[simp] theorem reselect_frame (μ : Nat) (hm : 2130484 ||| μ = μ) (s : State) : forget μ (reselect s) = forget μ s := widen (a := 2130484) hm (by
  unfold reselect
  (repeat' split) <;> simp)

@[simp] theorem reselectIfDue_frame (μ : Nat) (hm : 2130484 ||| μ = μ) (s : State) : forget μ (reselectIfDue s) = forget μ s := widen (a := 2130484) hm (by
  unfold reselectIfDue
  simp)

@[simp] theorem enterLocked_frame (μ : Nat) (hm : 2130448 ||| μ = μ) (s : State) : forget μ (enterLocked s) = forget μ s := widen (a := 2130448) hm (by
  unfold enterLocked
  simp)

@[simp] theorem stepBy_frame (μ : Nat) (hm : 2130612 ||| μ = μ) (theta : Int) (s : State) : forget μ (stepBy theta s) = forget μ s := widen (a := 2130612) hm (by
  unfold stepBy
  simp)

@[simp] theorem runServo_frame (μ : Nat) (hm : 2130612 ||| μ = μ) (theta : Int) (interval : Nat) (s : State) : forget μ (runServo theta interval s) = forget μ s := widen (a := 2130612) hm (by
  unfold runServo
  simp)

@[simp] theorem applySelected_frame (μ : Nat) (hm : 2130612 ||| μ = μ) (id : Nat) (theta : Int) (interval : Nat) (s : State) : forget μ (applySelected id theta interval s) = forget μ s := widen (a := 2130612) hm (by
  unfold applySelected
  (repeat' split) <;> simp)

@[simp] theorem judgeMeasurement_frame (μ : Nat) (hm : 2130612 ||| μ = μ) (id : Nat) (theta : Int) (m : MeasInfo) (s : State) : forget μ (judgeMeasurement id theta m s) = forget μ s := widen (a := 2130612) hm (by
  unfold judgeMeasurement
  simp)

@[simp] theorem measure_frame (μ : Nat) (hm : 2130612 ||| μ = μ) (id : Nat) (theta : Int) (m : MeasInfo) (s : State) : forget μ (measure id theta m s) = forget μ s := widen (a := 2130612) hm (by
  unfold measure
  simp)

@[simp] theorem recompute_frame (μ : Nat) (hm : 2130484 ||| μ = μ) (s : State) : forget μ (recompute s) = forget μ s := widen (a := 2130484) hm (by
  unfold recompute
  simp)

end Sys2Proof.Machine
end

