-- ==== Sys2Proof/Laws/FrameTime.lean ====
section
/-!
SUPPORT. Frames of the operations of Machine/Time.lean: the parts of the state that each can change.
-/
namespace Sys2Proof.Machine
set_option linter.all false

@[simp] theorem manualCommit_frame (μ : Nat) (hm : 2130484 ||| μ = μ) (p : Path) (s : State) : forget μ (manualCommit p s) = forget μ s := widen (a := 2130484) hm (by
  unfold manualCommit
  simp)

@[simp] theorem refCfgWrite_frame (μ : Nat) (hm : 2130484 ||| μ = μ) (p : Path) (slot : Nat) (v : Word) (s : State) : forget μ (refCfgWrite p slot v s) = forget μ s := widen (a := 2130484) hm (by
  unfold refCfgWrite
  simp)

@[simp] theorem leapAtWrite_frame (μ : Nat) (hm : 32784 ||| μ = μ) (p : Path) (high : Bool) (v : Word) (s : State) : forget μ (leapAtWrite p high v s) = forget μ s := widen (a := 32784) hm (by
  unfold leapAtWrite
  (repeat' split) <;> simp)

@[simp] theorem utcWrite_frame (μ : Nat) (hm : 2130448 ||| μ = μ) (p : Path) (v : Word) (s : State) : forget μ (utcWrite p v s) = forget μ s := widen (a := 2130448) hm (by
  unfold utcWrite
  simp)

@[simp] theorem boundAlarmWrite_frame (μ : Nat) (hm : 2130484 ||| μ = μ) (p : Path) (v : Word) (s : State) : forget μ (boundAlarmWrite p v s) = forget μ s := widen (a := 2130484) hm (by
  unfold boundAlarmWrite
  simp)

@[simp] theorem timSnap_frame (μ : Nat) (hm : 16 ||| μ = μ) (p : Path) (s : State) : forget μ (timSnap p s) = forget μ s := widen (a := 16) hm (by
  unfold timSnap
  simp)

@[simp] theorem reacquire_frame (μ : Nat) (hm : 2130448 ||| μ = μ) (p : Path) (s : State) : forget μ (reacquire p s) = forget μ s := widen (a := 2130448) hm (by
  unfold reacquire
  simp)

@[simp] theorem discardTime_frame (μ : Nat) (hm : 32768 ||| μ = μ) (s : State) : forget μ (discardTime s) = forget μ s := widen (a := 32768) hm (by
  unfold discardTime
  simp)

@[simp] theorem execPpsOutFall_frame (μ : Nat) (hm : 32774 ||| μ = μ) (pin : Nat) (s : State) : forgetO μ s (execPpsOutFall pin s) = forget μ s := widenO (a := 32774) hm (by
  unfold execPpsOutFall
  simp)

@[simp] theorem execTimePageWrite_frame (μ : Nat) (hm : 33030 ||| μ = μ) (f : Fn) (s0 : State) : forgetO μ s0 (execTimePageWrite f s0) = forget μ s0 := widenO (a := 33030) hm (by
  unfold execTimePageWrite
  simp)

@[simp] theorem ppsMeasure_frame (μ : Nat) (hm : 2130612 ||| μ = μ) (pin : Nat) (second : Nat) (edge : Nat) (s : State) : forget μ (ppsMeasure pin second edge s) = forget μ s := widen (a := 2130612) hm (by
  unfold ppsMeasure
  simp)

@[simp] theorem modPpsIn_frame (μ : Nat) (hm : 32768 ||| μ = μ) (pin : Nat) (g : PpsIn → PpsIn) (s : State) : forget μ (modPpsIn pin g s) = forget μ s := widen (a := 32768) hm (by
  unfold modPpsIn
  simp)

@[simp] theorem labelPulse_frame (μ : Nat) (hm : 2130612 ||| μ = μ) (pin : Nat) (utc : Nat) (timely : Bool) (edge : Nat) (s : State) : forget μ (labelPulse pin utc timely edge s) = forget μ s := widen (a := 2130612) hm (by
  unfold labelPulse
  simp)

@[simp] theorem useEdge_frame (μ : Nat) (hm : 2130612 ||| μ = μ) (pin : Nat) (sec : Nat) (edge : Nat) (s : State) : forget μ (useEdge pin sec edge s) = forget μ s := widen (a := 2130612) hm (by
  unfold useEdge
  repeat' (first | with_reducible rfl | simp only [↓modPpsIn_frame, ↓ppsMeasure_frame, ↓labelPulse_frame, forget_ite, Nat.reduceOr] | split))

@[simp] theorem execPpsEdge_frame (μ : Nat) (hm : 2130612 ||| μ = μ) (pin : Nat) (edge : PinEdge) (s0 : State) : forgetO μ s0 (execPpsEdge pin edge s0) = forget μ s0 := widenO (a := 2130612) hm (by
  unfold execPpsEdge
  repeat' (first | with_reducible rfl | simp only [↓modPpsIn_frame, ↓raise_frame, ↓useEdge_frame, ite_self, forgetO_next, forgetO_ite, Nat.reduceOr] | split))

@[simp] theorem ptpUtc_frame (μ : Nat) (hm : 2130448 ||| μ = μ) (slot : Nat) (m : PtpMeasurement) (s : State) : forget μ (ptpUtc slot m s) = forget μ s := widen (a := 2130448) hm (by
  unfold ptpUtc
  simp)

@[simp] theorem execPtpMeasurement_frame (μ : Nat) (hm : 2130612 ||| μ = μ) (slot : Nat) (m : PtpMeasurement) (s : State) : forgetO μ s (execPtpMeasurement slot m s) = forget μ s := widenO (a := 2130612) hm (by
  unfold execPtpMeasurement
  simp)

@[simp] theorem beginTime_frame (μ : Nat) (hm : 2130484 ||| μ = μ) (s : State) : forget μ (beginTime s) = forget μ s := widen (a := 2130484) hm (by
  unfold beginTime
  simp)

@[simp] theorem execMissedInterval_frame (μ : Nat) (hm : 2130486 ||| μ = μ) (slot : Nat) (s : State) : forgetO μ s (execMissedInterval slot s) = forget μ s := widenO (a := 2130486) hm (by
  unfold execMissedInterval
  simp)

@[simp] theorem execPpsOutEdge_frame (μ : Nat) (hm : 32774 ||| μ = μ) (pin : Nat) (s0 : State) : forgetO μ s0 (execPpsOutEdge pin s0) = forget μ s0 := widenO (a := 32774) hm (by
  unfold execPpsOutEdge
  simp)

@[simp] theorem execBoundRecompute_frame (μ : Nat) (hm : 2130486 ||| μ = μ) (s : State) : forgetO μ s (execBoundRecompute s) = forget μ s := widenO (a := 2130486) hm (by
  unfold execBoundRecompute
  simp)

@[simp] theorem execRefQualified_frame (μ : Nat) (hm : 2130486 ||| μ = μ) (slot : Nat) (s : State) : forgetO μ s (execRefQualified slot s) = forget μ s := widenO (a := 2130486) hm (by
  unfold execRefQualified
  simp)

@[simp] theorem resumeTime_frame (μ : Nat) (hm : 2130484 ||| μ = μ) (s : State) : forget μ (resumeTime s) = forget μ s := widen (a := 2130484) hm (by
  unfold resumeTime
  simp)

@[simp] theorem execOscReturn_frame (μ : Nat) (hm : 2130484 ||| μ = μ) (s : State) : forgetO μ s (execOscReturn s) = forget μ s := widenO (a := 2130484) hm (by
  unfold execOscReturn
  simp)

@[simp] theorem execLeapApplied_frame (μ : Nat) (hm : 2130450 ||| μ = μ) (s : State) : forgetO μ s (execLeapApplied s) = forget μ s := widenO (a := 2130450) hm (by
  unfold execLeapApplied
  (repeat' split) <;> simp)

@[simp] theorem execTracePeriodic_frame (μ : Nat) (hm : 2130450 ||| μ = μ) (s : State) : forgetO μ s (execTracePeriodic s) = forget μ s := widenO (a := 2130450) hm (by
  unfold execTracePeriodic
  simp)

@[simp] theorem execTodTxSentence_frame (μ : Nat) (hm : 32774 ||| μ = μ) (s : State) : forgetO μ s (execTodTxSentence s) = forget μ s := widenO (a := 32774) hm (by
  unfold execTodTxSentence
  repeat' (first | with_reducible rfl | simp only [↓modPpsOut_frame, ↓advanceTo_frame, ↓emit_frame, ite_self, forgetO_next, forgetO_ite, Nat.reduceOr] | split))

@[simp] theorem execOscFault_frame (μ : Nat) (hm : 2130484 ||| μ = μ) (s : State) : forgetO μ s (execOscFault s) = forget μ s := widenO (a := 2130484) hm (by
  unfold execOscFault
  simp)

@[simp] theorem execNmeaSentence_frame (μ : Nat) (hm : 2130612 ||| μ = μ) (sentence : Nmea) (s : State) : forgetO μ s (execNmeaSentence sentence s) = forget μ s := widenO (a := 2130612) hm (by
  unfold execNmeaSentence
  (repeat' split) <;> simp)

end Sys2Proof.Machine
end

