-- ==== Sys2Proof/Laws/FrameRings.lean ====
section
/-!
SUPPORT. Frames of the operations of Machine/Rings.lean: the parts of the state that each can change.
-/
namespace Sys2Proof.Machine
set_option linter.all false

@[simp] theorem sendVector_frame (μ : Nat) (hm : 260 ||| μ = μ) (f : Fn) (v : Nat) (s : State) : forget μ (sendVector f v s) = forget μ s := widen (a := 260) hm (by
  unfold sendVector
  repeat' (first | with_reducible rfl | simp only [↓emit_frame, ↓modFn_frame, forget_ite, Nat.reduceOr] | split))

@[simp] theorem releaseLocks_frame (μ : Nat) (hm : 8192 ||| μ = μ) (f : Fn) (q : Option Nat) (s : State) : forget μ (releaseLocks f q s) = forget μ s := widen (a := 8192) hm (by
  unfold releaseLocks
  simp)

@[simp] theorem flushPba_frame (μ : Nat) (hm : 260 ||| μ = μ) (f : Fn) (s : State) : forget μ (flushPba f s) = forget μ s := widen (a := 260) hm (by
  unfold flushPba
  repeat' (first | with_reducible rfl | simp only [↓sendVector_frame, ↓modFn_frame, forget_ite, Nat.reduceOr] | (refine Eq.trans (forget_foldS _ _ (fun _ _ => ?_) _ _) ?_) | (refine Eq.trans (congrArg (forget _) (congrArg Prod.snd ‹_ = (_, _)›).symm) ?_) | split | dsimp only))

@[simp] theorem newDefaultEq_frame (μ : Nat) (hm : 768 ||| μ = μ) (f : Fn) (q : Nat) (s : State) : forget μ (newDefaultEq f q s) = forget μ s := widen (a := 768) hm (by
  unfold newDefaultEq
  simp)

@[simp] theorem qmEvent_frame (μ : Nat) (hm : 2097664 ||| μ = μ) (f : Fn) (q : Nat) (code : Nat) (sc : Scope) (s : State) : forget μ (qmEvent f q code sc s) = forget μ s := widen (a := 2097664) hm (by
  unfold qmEvent
  simp)

@[simp] theorem setBlocked_frame (μ : Nat) (hm : 512 ||| μ = μ) (f : Fn) (cq : Nat) (block : Bool) (s : State) : forget μ (setBlocked f cq block s) = forget μ s := widen (a := 512) hm (by
  unfold setBlocked
  repeat' (first | with_reducible rfl | simp only [↓modQueue_frame, Nat.reduceOr] | (refine Eq.trans (forget_foldS _ _ (fun _ _ => ?_) _ _) ?_) | (refine Eq.trans (congrArg (forget _) (congrArg Prod.snd ‹_ = (_, _)›).symm) ?_) | split | dsimp only))

@[simp] theorem signal_frame (μ : Nat) (hm : 772 ||| μ = μ) (f : Fn) (q : Nat) (s : State) : forget μ (signal f q s) = forget μ s := widen (a := 772) hm (by
  unfold signal
  simp)

@[simp] theorem maybeSignal_frame (μ : Nat) (hm : 772 ||| μ = μ) (f : Fn) (q : Nat) (s : State) : forget μ (maybeSignal f q s) = forget μ s := widen (a := 772) hm (by
  unfold maybeSignal
  simp)

@[simp] theorem writeRing_frame (μ : Nat) (hm : 772 ||| μ = μ) (f : Fn) (q : Nat) (size : Nat) (bytes : Bytes) (s : State) : forget μ (writeRing f q size bytes s) = forget μ s := widen (a := 772) hm (by
  unfold writeRing
  simp)

@[simp] theorem writeCqes_frame (μ : Nat) (hm : 772 ||| μ = μ) (f : Fn) (q : Nat) : ∀ (l : List Cqe) (s : State), forget μ (writeCqes f q l s).1 = forget μ s
  | [], _ => rfl
  | e :: l, s => by
    unfold writeCqes
    dsimp only
    split
    · rfl
    · exact (writeCqes_frame μ hm f q l _).trans (writeRing_frame μ (or_trans rfl hm) _ _ _ _ _)

@[simp] theorem settle_frame (μ : Nat) (hm : 2097924 ||| μ = μ) (f : Fn) (cq : Nat) (all : List Cqe) (s : State) : forget μ (settle f cq all s) = forget μ s := widen (a := 2097924) hm (by
  unfold settle
  simp)

@[simp] theorem applySettings_frame (μ : Nat) (hm : 512 ||| μ = μ) (f : Fn) (q : Nat) (s : State) : forget μ (applySettings f q s) = forget μ s := widen (a := 512) hm (by
  unfold applySettings
  simp)

@[simp] theorem setQResult_frame (μ : Nat) (hm : 528 ||| μ = μ) (p : Path) (r : Nat) (s : State) : forget μ (setQResult p r s) = forget μ s := widen (a := 528) hm (by
  unfold setQResult
  simp)

@[simp] theorem qRestart_frame (μ : Nat) (hm : 2106132 ||| μ = μ) (p : Path) (s : State) : forget μ (qRestart p s) = forget μ s := widen (a := 2106132) hm (by
  unfold qRestart
  (repeat' split) <;> simp)

@[simp] theorem qDestroy_frame (μ : Nat) (hm : 8720 ||| μ = μ) (p : Path) (s : State) : forget μ (qDestroy p s) = forget μ s := widen (a := 8720) hm (by
  unfold qDestroy
  repeat' (first | with_reducible rfl | simp only [↓setQResult_frame, ↓modQueue_frame, ↓finishWork_frame, ↓modQm_frame, ↓releaseLocks_frame, forget_ite, ite_self, Nat.reduceOr] | (refine Eq.trans (forget_foldS _ _ (fun _ _ => ?_) _ _) ?_) | (refine Eq.trans (congrArg (forget _) (congrArg Prod.snd ‹_ = (_, _)›).symm) ?_) | split | dsimp only))

@[simp] theorem qCreate_frame (μ : Nat) (hm : 784 ||| μ = μ) (p : Path) (s : State) : forget μ (qCreate p s) = forget μ s := widen (a := 784) hm (by
  unfold qCreate
  (repeat' split) <;> simp)

@[simp] theorem askTranslations_frame (μ : Nat) (hm : 256 ||| μ = μ) (f : Fn) (q : Nat) (ctr : Nat) (pages : List Nat) (s : State) : forget μ (askTranslations f q ctr pages s) = forget μ s := widen (a := 256) hm (by
  unfold askTranslations
  simp)

@[simp] theorem requestReads_frame (μ : Nat) (hm : 256 ||| μ = μ) (f : Fn) (q : Nat) (ctr : BitVec 16) (reads : List WorkRead) (dest : List (Nat × Nat)) (s : State) : forget μ (requestReads f q ctr reads dest s) = forget μ s := widen (a := 256) hm (by
  unfold requestReads
  simp)

@[simp] theorem accessError_frame (μ : Nat) (hm : 2097712 ||| μ = μ) (f : Fn) (off : Nat) (write : Bool) (s : State) : forget μ (accessError f off write s) = forget μ s := widen (a := 2097712) hm (by
  unfold accessError
  simp)

@[simp] theorem passEvents_frame (μ : Nat) (hm : 512 ||| μ = μ) (f : Fn) (q : Nat) (old : BitVec 16) (new : BitVec 16) (s : State) : forget μ (passEvents f q old new s) = forget μ s := widen (a := 512) hm (by
  unfold passEvents
  simp)

@[simp] theorem acceptDoorbell_frame (μ : Nat) (hm : 2097924 ||| μ = μ) (f : Fn) (q : Nat) (k : QKind) (v : BitVec 16) (s : State) : forget μ (acceptDoorbell f q k v s) = forget μ s := widen (a := 2097924) hm (by
  unfold acceptDoorbell
  (repeat' split) <;> simp)

@[simp] theorem applyArm_frame (μ : Nat) (hm : 772 ||| μ = μ) (f : Fn) (q : Nat) (arm : Bool) (s : State) : forget μ (applyArm f q arm s) = forget μ s := widen (a := 772) hm (by
  unfold applyArm
  simp)

@[simp] theorem doorbell_frame (μ : Nat) (hm : 2097940 ||| μ = μ) (f : Fn) (q : Nat) (k : QKind) (v : BitVec 64) (s : State) : forget μ (doorbell f q k v s) = forget μ s := widen (a := 2097940) hm (by
  unfold doorbell
  simp)

@[simp] theorem doorbellTaken_frame (μ : Nat) (hm : 2097940 ||| μ = μ) (f : Fn) (q : Nat) (v : BitVec 64) (s : State) : forget μ (doorbellTaken f q v s) = forget μ s := widen (a := 2097940) hm (by
  unfold doorbellTaken
  (repeat' split) <;> simp)

@[simp] theorem execEventRaise_frame (μ : Nat) (hm : 2097664 ||| μ = μ) (block : Nat) (code : Nat) (detail : Nat) (scope : Scope) (s : State) : forgetO μ s (execEventRaise block code detail scope s) = forget μ s := widenO (a := 2097664) hm (by
  unfold execEventRaise
  simp)

@[simp] theorem queueError_frame (μ : Nat) (hm : 2097664 ||| μ = μ) (f : Fn) (q : Nat) (s : State) : forget μ (queueError f q s) = forget μ s := widen (a := 2097664) hm (by
  unfold queueError
  simp)

@[simp] theorem acceptEntry_frame (μ : Nat) (hm : 525056 ||| μ = μ) (f : Fn) (q : Nat) (e : BitVec 512) (s : State) : forget μ (acceptEntry f q e s) = forget μ s := widen (a := 525056) hm (by
  unfold acceptEntry
  simp)

@[simp] theorem postCqe_frame (μ : Nat) (hm : 2097924 ||| μ = μ) (f : Fn) (cq : Nat) (e : Cqe) (s : State) : forget μ (postCqe f cq e s) = forget μ s := widen (a := 2097924) hm (by
  unfold postCqe
  simp)

@[simp] theorem releaseHeld_frame (μ : Nat) (hm : 512 ||| μ = μ) (eg : Nat) (s : State) : forget μ (releaseHeld eg s) = forget μ s := widen (a := 512) hm (by
  unfold releaseHeld
  simp)

@[simp] theorem execRxBuffer_frame (μ : Nat) (hm : 512 ||| μ = μ) (f : Fn) (q : Nat) (s : State) : forgetO μ s (execRxBuffer f q s) = forget μ s := widenO (a := 512) hm (by
  unfold execRxBuffer
  (repeat' split) <;> simp)

@[simp] theorem execQueueDisabled_frame (μ : Nat) (hm : 784 ||| μ = μ) (f : Fn) (q : Nat) (s : State) : forgetO μ s (execQueueDisabled f q s) = forget μ s := widenO (a := 784) hm (by
  unfold execQueueDisabled
  simp)

@[simp] theorem execModerationTimer_frame (μ : Nat) (hm : 33542 ||| μ = μ) (f : Fn) (q : Nat) (s : State) : forgetO μ s (execModerationTimer f q s) = forget μ s := widenO (a := 33542) hm (by
  unfold execModerationTimer
  simp)

@[simp] theorem execEqEntryWrite_frame (μ : Nat) (hm : 2097924 ||| μ = μ) (f : Fn) (q : Nat) (res : HostWriteEnd) (s : State) : forgetO μ s (execEqEntryWrite f q res s) = forget μ s := widenO (a := 2097924) hm (by
  unfold execEqEntryWrite
  repeat' (first | with_reducible rfl | simp only [↓queueError_frame, ↓modQm_frame, ↓writeRing_frame, forgetO_next, forgetO_ite, Nat.reduceOr] | split))

@[simp] theorem execCompletionWrite_frame (μ : Nat) (hm : 2097924 ||| μ = μ) (f : Fn) (q : Nat) (res : HostWriteEnd) (s : State) : forgetO μ s (execCompletionWrite f q res s) = forget μ s := widenO (a := 2097924) hm (by
  unfold execCompletionWrite
  repeat' (first | with_reducible rfl | simp only [↓modQueue_frame, ↓postCqe_frame, ↓queueError_frame, ite_self, forgetO_next, forgetO_ite, Nat.reduceOr] | split))

end Sys2Proof.Machine
end

