-- ==== Sys2Proof/Laws/FrameSvcOps.lean ====
section
/-!
SUPPORT. Frames of the operations of Machine/SvcOps.lean: the parts of the state that each can change.
-/
namespace Sys2Proof.Machine
set_option linter.all false

@[simp] theorem modMbx_frame (μ : Nat) (hm : 2097152 ||| μ = μ) (f : Fn) (g : Mbx → Mbx) (s : State) : forget μ (modMbx f g s) = forget μ s := widen (a := 2097152) hm (by
  unfold modMbx
  simp)

@[simp] theorem f2hSend_frame (μ : Nat) (hm : 2097664 ||| μ = μ) (f : Fn) (data : Bytes) (s : State) : forget μ (f2hSend f data s).2 = forget μ s := widen (a := 2097664) hm (by
  unfold f2hSend
  (repeat' split) <;> simp)

@[simp] theorem eventTaken_frame (μ : Nat) (hm : 2097664 ||| μ = μ) (m : ChMsg) (s : State) : forget μ (eventTaken m s) = forget μ s := widen (a := 2097664) hm (by
  unfold eventTaken
  simp)

@[simp] theorem msgTaken_frame (μ : Nat) (hm : 2097664 ||| μ = μ) (d : Nat) (c : Nat) (m : ChMsg) (s : State) : forget μ (msgTaken d c m s) = forget μ s := widen (a := 2097664) hm (by
  unfold msgTaken
  (repeat' split) <;> simp)

@[simp] theorem commitMsg_frame (μ : Nat) (hm : 2097664 ||| μ = μ) (c : Nat) (m : ChMsg) (s : State) : forget μ (commitMsg c m s) = forget μ s := widen (a := 2097664) hm (by
  unfold commitMsg
  (repeat' split) <;> simp)

@[simp] theorem devPost_frame (μ : Nat) (hm : 2097664 ||| μ = μ) (c : Nat) (m : ChMsg) (s : State) : forget μ (devPost c m s) = forget μ s := widen (a := 2097664) hm (by
  unfold devPost
  simp)

@[simp] theorem sendDone_frame (μ : Nat) (hm : 2097664 ||| μ = μ) (kind : Nat) (reply : Nat) (status : Nat) (tag : Nat) (domain : Nat) (epoch : Nat) (s : State) : forget μ (sendDone kind reply status tag domain epoch s) = forget μ s := widen (a := 2097664) hm (by
  unfold sendDone
  simp)

@[simp] theorem devSend_frame (μ : Nat) (hm : 2097664 ||| μ = μ) (c : Nat) (words : List Nat) (s : State) : forget μ (devSend c words s) = forget μ s := widen (a := 2097664) hm (by
  unfold devSend
  simp)

@[simp] theorem dropH2f_frame (μ : Nat) (hm : 2097712 ||| μ = μ) (s : State) : forget μ (dropH2f s) = forget μ s := widen (a := 2097712) hm (by
  unfold dropH2f
  repeat' (first | with_reducible rfl | simp only [↓raise_frame, ↓hwSet_frame, ↓modMbx_frame, ↓modSvc_frame, ↓modMsgs_frame, Nat.reduceOr] | (refine Eq.trans (forget_foldS _ _ (fun _ _ => ?_) _ _) ?_) | (refine Eq.trans (congrArg (forget _) (congrArg Prod.snd ‹_ = (_, _)›).symm) ?_) | split | dsimp only))

@[simp] theorem freeThread_frame (μ : Nat) (hm : 2097152 ||| μ = μ) (t : Nat) (s : State) : forget μ (freeThread t s) = forget μ s := widen (a := 2097152) hm (by
  unfold freeThread
  simp)

@[simp] theorem endThread_frame (μ : Nat) (hm : 2097152 ||| μ = μ) (t : Nat) (v : Nat) (s : State) : forget μ (endThread t v s) = forget μ s := widen (a := 2097152) hm (by
  unfold endThread
  repeat' (first | with_reducible rfl | simp only [↓modSvc_frame, ↓freeThread_frame, ↓modThread_frame, ↓endWait_frame, forget_ite, ite_self, Nat.reduceOr] | (refine Eq.trans (forget_foldS _ _ (fun _ _ => ?_) _ _) ?_) | (refine Eq.trans (congrArg (forget _) (congrArg Prod.snd ‹_ = (_, _)›).symm) ?_) | split | dsimp only))

@[simp] theorem killThreads_frame (μ : Nat) (hm : 2097152 ||| μ = μ) (p : Nat → Thread → Bool) (s : State) : forget μ (killThreads p s) = forget μ s := widen (a := 2097152) hm (by
  unfold killThreads
  repeat' (first | with_reducible rfl | simp only [↓endThread_frame, forget_ite, ite_self, Nat.reduceOr] | (refine Eq.trans (forget_foldS _ _ (fun _ _ => ?_) _ _) ?_) | (refine Eq.trans (congrArg (forget _) (congrArg Prod.snd ‹_ = (_, _)›).symm) ?_) | split | dsimp only))

@[simp] theorem abortMailbox_frame (μ : Nat) (hm : 2097664 ||| μ = μ) (f : Fn) (s : State) : forget μ (abortMailbox f s) = forget μ s := widen (a := 2097664) hm (by
  unfold abortMailbox
  simp)

@[simp] theorem startFirmware_frame (μ : Nat) (hm : 2097664 ||| μ = μ) (entry : Nat) (s : State) : forget μ (startFirmware entry s) = forget μ s := widen (a := 2097664) hm (by
  unfold startFirmware
  simp)

@[simp] theorem roomMade_frame (μ : Nat) (hm : 2097664 ||| μ = μ) (c : Nat) (s : State) : forget μ (roomMade c s) = forget μ s := widen (a := 2097664) hm (by
  unfold roomMade
  (repeat' split) <;> simp)

theorem takeMsg_frame (μ : Nat) (hm : 2097664 ||| μ = μ) (t : Nat) (c : Nat) (s : State) (z : _) (e : takeMsg t c s = some z) : forget μ z.2 = forget μ s := widen (a := 2097664) hm (by
  revert e
  unfold takeMsg
  repeat' (first | (intro e; cases e; done) | (intro e; cases e; repeat' (first | with_reducible rfl | simp only [↓modThread_frame, ↓modMsgs_frame, ↓msgTaken_frame, ↓roomMade_frame, Nat.reduceOr] | (refine Eq.trans (forget_foldS _ _ (fun _ _ => ?_) _ _) ?_) | (refine Eq.trans (congrArg (forget _) (congrArg Prod.snd ‹_ = (_, _)›).symm) ?_) | split | dsimp only)) | (intro e; obtain ⟨_, _, rfl⟩ := Option.map_eq_some_iff.mp e; repeat' (first | with_reducible rfl | simp only [↓modThread_frame, ↓modMsgs_frame, ↓msgTaken_frame, ↓roomMade_frame, Nat.reduceOr] | (refine Eq.trans (forget_foldS _ _ (fun _ _ => ?_) _ _) ?_) | (refine Eq.trans (congrArg (forget _) (congrArg Prod.snd ‹_ = (_, _)›).symm) ?_) | split | dsimp only)) | split | dsimp only))

@[simp] theorem serveChannel_frame (μ : Nat) (hm : 2097664 ||| μ = μ) (c : Nat) (x10 : Nat) (x22 : State) : forget μ (serveChannel c x10 x22) = forget μ x22 := widen (a := 2097664) hm (by
  fun_induction serveChannel c x10 x22
  all_goals repeat' (first | with_reducible rfl | simp only [↓msgTaken_frame, ↓roomMade_frame, ↓endWait_frame, ↓modThread_frame, ↓modMsgs_frame, Nat.reduceOr, *] | (refine Eq.trans (forget_foldS _ _ (fun _ _ => ?_) _ _) ?_) | (refine Eq.trans (congrArg (forget _) (congrArg Prod.snd ‹_ = (_, _)›).symm) ?_) | split | dsimp only))

@[simp] theorem serveCore_frame (μ : Nat) (hm : 2097664 ||| μ = μ) (phys : Nat) (s : State) : forget μ (serveCore phys s) = forget μ s := widen (a := 2097664) hm (by
  unfold serveCore
  repeat' (first | with_reducible rfl | simp only [↓serveChannel_frame, Nat.reduceOr] | (refine Eq.trans (forget_foldS _ _ (fun _ _ => ?_) _ _) ?_) | (refine Eq.trans (congrArg (forget _) (congrArg Prod.snd ‹_ = (_, _)›).symm) ?_) | split | dsimp only))

end Sys2Proof.Machine
end

