-- ==== Sys2Proof/Laws/FrameFrameOps.lean ====
section
/-!
SUPPORT. Frames of the operations of Machine/FrameOps.lean: the parts of the state that each can change.
-/
namespace Sys2Proof.Machine
set_option linter.all false

@[simp] theorem poolLow_frame (μ : Nat) (hm : 2114048 ||| μ = μ) (s : State) : forget μ (poolLow s) = forget μ s := widen (a := 2114048) hm (by
  unfold poolLow
  simp)

@[simp] theorem freeByte_frame (μ : Nat) (hm : 8 ||| μ = μ) (s : State) : forget μ (freeByte s).2 = forget μ s := widen (a := 8) hm (by
  unfold freeByte
  simp)

@[simp] theorem freeBytes_frame (μ : Nat) (hm : 8 ||| μ = μ) : ∀ (n : Nat) (s : State), forget μ (freeBytes n s).2 = forget μ s
  | 0, _ => rfl
  | n + 1, s => (freeBytes_frame μ hm n (freeByte s).2).trans (freeByte_frame μ (or_trans rfl hm) s)

theorem hallocNow_frame (μ : Nat) (hm : 2114056 ||| μ = μ) (k : Nat) (n : Nat) (d : Nat) (s : State) (z : State) (e : hallocNow k n d s = some z) : forget μ z = forget μ s := widen (a := 2114056) hm (by
  revert e
  unfold hallocNow
  repeat' (first | (intro e; cases e; done) | (intro e; cases e; repeat' (first | with_reducible rfl | simp only [↓freeBytes_frame, ↓poolLow_frame, ↓modSvc_frame, ↓modTm_frame, Nat.reduceOr] | (refine Eq.trans (forget_foldS _ _ (fun _ _ => ?_) _ _) ?_) | (refine Eq.trans (congrArg (forget _) (congrArg Prod.snd ‹_ = (_, _)›).symm) ?_) | split | dsimp only)) | (intro e; obtain ⟨_, _, rfl⟩ := Option.map_eq_some_iff.mp e; repeat' (first | with_reducible rfl | simp only [↓freeBytes_frame, ↓poolLow_frame, ↓modSvc_frame, ↓modTm_frame, Nat.reduceOr] | (refine Eq.trans (forget_foldS _ _ (fun _ _ => ?_) _ _) ?_) | (refine Eq.trans (congrArg (forget _) (congrArg Prod.snd ‹_ = (_, _)›).symm) ?_) | split | dsimp only)) | split | dsimp only))

@[simp] theorem wakeHalloc_frame (μ : Nat) (hm : 2114056 ||| μ = μ) (s : State) : forget μ (wakeHalloc s) = forget μ s := widen (a := 2114056) hm (by
  unfold wakeHalloc
  repeat' (first | with_reducible rfl | simp only [↓endWait_frame, Nat.reduceOr] | (refine Eq.trans (forget_foldS _ _ (fun _ _ => ?_) _ _) ?_) | (refine Eq.trans (congrArg (forget _) (congrArg Prod.snd ‹_ = (_, _)›).symm) ?_) | (refine Eq.trans (hallocNow_frame _ (by decide) _ _ _ _ _ ‹_›) ?_) | simp only [Option.getD] | split | dsimp only))

@[simp] theorem returnCells_frame (μ : Nat) (hm : 2114056 ||| μ = μ) (o : Nat) (u : Nat) (h : Nat) (s : State) : forget μ (returnCells o u h s) = forget μ s := widen (a := 2114056) hm (by
  unfold returnCells
  simp)

@[simp] theorem grantCredit_frame (μ : Nat) (hm : 4 ||| μ = μ) (back : Option (Nat × Nat × Nat)) (s : State) : forget μ (grantCredit back s) = forget μ s := widen (a := 4) hm (by
  unfold grantCredit
  (repeat' split) <;> simp)

@[simp] theorem modFrame_frame (μ : Nat) (hm : 16384 ||| μ = μ) (id : Nat) (g : Frame → Frame) (s : State) : forget μ (modFrame id g s) = forget μ s := widen (a := 16384) hm (by
  unfold modFrame
  (repeat' split) <;> simp)

@[simp] theorem countDone_frame (μ : Nat) (hm : 16384 ||| μ = μ) (id : Nat) (how : CopyEnd) (ts : Nat) (bound : Nat) (s : State) : forget μ (countDone id how ts bound s) = forget μ s := widen (a := 16384) hm (by
  unfold countDone
  simp)

@[simp] theorem passCells_frame (μ : Nat) (hm : 2114056 ||| μ = μ) (id : Nat) (o : Nat) (u : Nat) (h : Nat) (s : State) : forget μ (passCells id o u h s) = forget μ s := widen (a := 2114056) hm (by
  unfold passCells
  (repeat' split) <;> simp)

@[simp] theorem freeFrame_frame (μ : Nat) (hm : 2115084 ||| μ = μ) (id : Nat) (s : State) : forget μ (freeFrame id s) = forget μ s := widen (a := 2115084) hm (by
  unfold freeFrame
  (repeat' split) <;> simp)

@[simp] theorem injectDone_frame (μ : Nat) (hm : 2097664 ||| μ = μ) (f : Frame) (s : State) : forget μ (injectDone f s) = forget μ s := widen (a := 2097664) hm (by
  unfold injectDone
  (repeat' split) <;> simp)

@[simp] theorem completeTop_frame (μ : Nat) (hm : 2115084 ||| μ = μ) (id : Nat) (s : State) : forget μ (completeTop id s) = forget μ s := widen (a := 2115084) hm (by
  unfold completeTop
  (repeat' split) <;> simp)

@[simp] theorem settleFrame_frame (μ : Nat) (hm : 2115084 ||| μ = μ) (id : Nat) (s : State) : forget μ (settleFrame id s) = forget μ s := widen (a := 2115084) hm (by
  unfold settleFrame
  (repeat' split) <;> simp)

@[simp] theorem copyDone_frame (μ : Nat) (hm : 2115084 ||| μ = μ) (id : Nat) (how : CopyEnd) (ts : Nat) (bound : Nat) (s : State) : forget μ (copyDone id how ts bound s) = forget μ s := widen (a := 2115084) hm (by
  unfold copyDone
  simp)

@[simp] theorem freeHandle_frame (μ : Nat) (hm : 2115084 ||| μ = μ) (k : Nat) (s : State) : forget μ (freeHandle k s) = forget μ s := widen (a := 2115084) hm (by
  unfold freeHandle
  (repeat' split) <;> simp)

@[simp] theorem unqueue_frame (μ : Nat) (hm : 16384 ||| μ = μ) (p : Nat → Bool) (s : State) : forget μ (unqueue p s) = forget μ s := widen (a := 16384) hm (by
  unfold unqueue
  simp)

@[simp] theorem withdrawCopies_frame (μ : Nat) (hm : 2115084 ||| μ = μ) (id : Nat) (s : State) : forget μ (withdrawCopies id s) = forget μ s := widen (a := 2115084) hm (by
  unfold withdrawCopies
  repeat' (first | with_reducible rfl | simp only [↓freeFrame_frame, ↓unqueue_frame, ↓modFrame_frame, Nat.reduceOr] | (refine Eq.trans (forget_foldS _ _ (fun _ _ => ?_) _ _) ?_) | (refine Eq.trans (congrArg (forget _) (congrArg Prod.snd ‹_ = (_, _)›).symm) ?_) | split | dsimp only))

@[simp] theorem dropFrame_frame (μ : Nat) (hm : 2115100 ||| μ = μ) (id : Nat) (status : Nat) (s : State) : forget μ (dropFrame id status s) = forget μ s := widen (a := 2115100) hm (by
  unfold dropFrame
  (repeat' split) <;> simp)

theorem takeCells_frame (μ : Nat) (hm : 2114048 ||| μ = μ) (action : Bool) (id : Nat) (n : Nat) (s : State) (z : State) (e : takeCells action id n s = some z) : forget μ z = forget μ s := widen (a := 2114048) hm (by
  revert e
  unfold takeCells
  repeat' (first | (intro e; cases e; done) | (intro e; cases e; repeat' (first | with_reducible rfl | simp only [↓poolLow_frame, ↓modFrame_frame, ↓modTm_frame, Nat.reduceOr] | (refine Eq.trans (forget_foldS _ _ (fun _ _ => ?_) _ _) ?_) | (refine Eq.trans (congrArg (forget _) (congrArg Prod.snd ‹_ = (_, _)›).symm) ?_) | split | dsimp only)) | (intro e; obtain ⟨_, _, rfl⟩ := Option.map_eq_some_iff.mp e; repeat' (first | with_reducible rfl | simp only [↓poolLow_frame, ↓modFrame_frame, ↓modTm_frame, Nat.reduceOr] | (refine Eq.trans (forget_foldS _ _ (fun _ _ => ?_) _ _) ?_) | (refine Eq.trans (congrArg (forget _) (congrArg Prod.snd ‹_ = (_, _)›).symm) ?_) | split | dsimp only)) | split | dsimp only))

@[simp] theorem newFrame_frame (μ : Nat) (hm : 16384 ||| μ = μ) (f : Frame) (s : State) : forget μ (newFrame f s).2 = forget μ s := widen (a := 16384) hm (by
  unfold newFrame
  simp)

end Sys2Proof.Machine
end

