-- ==== Sys2Proof/Laws/FrameCryOps.lean ====
section
/-!
SUPPORT. Frames of the operations of Machine/CryOps.lean: the parts of the state that each can change.
-/
namespace Sys2Proof.Machine
set_option linter.all false

@[simp] theorem modEngine_frame (μ : Nat) (hm : 65536 ||| μ = μ) (e : Nat) (g : CryEngine → CryEngine) (s : State) : forget μ (modEngine e g s) = forget μ s := widen (a := 65536) hm (by
  unfold modEngine
  simp)

@[simp] theorem engineNext_frame (μ : Nat) (hm : 65536 ||| μ = μ) (e : Nat) (s : State) : forget μ (engineNext e s) = forget μ s := widen (a := 65536) hm (by
  unfold engineNext
  repeat' (first | with_reducible rfl | simp only [↓modEngine_frame, ↓modCry_frame, forget_ite, ite_self, Nat.reduceOr] | split))

@[simp] theorem removeMsgs_frame (μ : Nat) (hm : 65536 ||| μ = μ) (p : CryMsg → Bool) (s : State) : forget μ (removeMsgs p s) = forget μ s := widen (a := 65536) hm (by
  unfold removeMsgs
  repeat' (first | with_reducible rfl | simp only [↓engineNext_frame, ↓modCry_frame, forget_ite, Nat.reduceOr] | (refine Eq.trans (forget_foldS _ _ (fun _ _ => ?_) _ _) ?_) | (refine Eq.trans (congrArg (forget _) (congrArg Prod.snd ‹_ = (_, _)›).symm) ?_) | split | dsimp only))

@[simp] theorem cryStat_frame (μ : Nat) (hm : 16 ||| μ = μ) (k : Nat) (s : State) : forget μ (cryStat k s) = forget μ s := widen (a := 16) hm (by
  unfold cryStat
  simp)

@[simp] theorem refuseMsg_frame (μ : Nat) (hm : 2115100 ||| μ = μ) (src : CrySrc) (status : Nat) (stat : Nat) (s : State) : forget μ (refuseMsg src status stat s) = forget μ s := widen (a := 2115100) hm (by
  unfold refuseMsg
  (repeat' split) <;> simp)

@[simp] theorem keyClear_frame (μ : Nat) (hm : 2180636 ||| μ = μ) (slot : Nat) (s : State) : forget μ (keyClear slot s) = forget μ s := widen (a := 2180636) hm (by
  unfold keyClear
  repeat' (first | with_reducible rfl | simp only [↓removeMsgs_frame, ↓modCry_frame, ↓refuseMsg_frame, Nat.reduceOr] | (refine Eq.trans (forget_foldS _ _ (fun _ _ => ?_) _ _) ?_) | (refine Eq.trans (congrArg (forget _) (congrArg Prod.snd ‹_ = (_, _)›).symm) ?_) | split | dsimp only))

@[simp] theorem modKeySlot_frame (μ : Nat) (hm : 65536 ||| μ = μ) (n : Nat) (g : KeySlot → KeySlot) (s : State) : forget μ (modKeySlot n g s) = forget μ s := widen (a := 65536) hm (by
  unfold modKeySlot
  simp)

@[simp] theorem cryEvent_frame (μ : Nat) (hm : 2097664 ||| μ = μ) (code : Nat) (slot : Nat) (s : State) : forget μ (cryEvent code slot s) = forget μ s := widen (a := 2097664) hm (by
  unfold cryEvent
  repeat' (first | with_reducible rfl | simp only [↓raise_frame, forget_ite, Nat.reduceOr] | split))

@[simp] theorem takeNumber_frame (μ : Nat) (hm : 2163200 ||| μ = μ) (slot : Nat) (s : State) : forget μ (takeNumber slot s).2 = forget μ s := widen (a := 2163200) hm (by
  unfold takeNumber
  repeat' (first | with_reducible rfl | simp only [↓cryEvent_frame, ↓modKeySlot_frame, forget_ite, ite_self, Nat.reduceOr] | split))

@[simp] theorem dispatch_frame (μ : Nat) (hm : 65536 ||| μ = μ) (m : CryMsg) (s : State) : forget μ (dispatch m s) = forget μ s := widen (a := 65536) hm (by
  unfold dispatch
  (repeat' split) <;> simp)

@[simp] theorem useCache_frame (μ : Nat) (hm : 65552 ||| μ = μ) (slot : Nat) (s : State) : forget μ (useCache slot s).2 = forget μ s := widen (a := 65552) hm (by
  unfold useCache
  (repeat' split) <;> simp)

@[simp] theorem serveCry_frame (μ : Nat) (hm : 2180636 ||| μ = μ) (s : State) : forget μ (serveCry s) = forget μ s := widen (a := 2180636) hm (by
  unfold serveCry
  repeat' (first | with_reducible rfl | simp only [↓refuseMsg_frame, ↓removeMsgs_frame, ↓engineNext_frame, forget_ite, Nat.reduceOr] | (refine Eq.trans (forget_foldS _ _ (fun _ _ => ?_) _ _) ?_) | (refine Eq.trans (congrArg (forget _) (congrArg Prod.snd ‹_ = (_, _)›).symm) ?_) | split | dsimp only))

end Sys2Proof.Machine
end

