-- ==== Sys2Proof/Laws/FramePortOps.lean ====
section
/-!
SUPPORT. Frames of the operations of Machine/PortOps.lean: the parts of the state that each can change.
-/
namespace Sys2Proof.Machine
set_option linter.all false

@[simp] theorem modAkzPort_frame (μ : Nat) (hm : 4194304 ||| μ = μ) (p : Nat) (g : AkzPort → AkzPort) (s : State) : forget μ (modAkzPort p g s) = forget μ s := widen (a := 4194304) hm (by
  unfold modAkzPort
  simp)

@[simp] theorem akzBegin_frame (μ : Nat) (hm : 4194304 ||| μ = μ) (p : Nat) (s : State) : forget μ (akzBegin p s) = forget μ s := widen (a := 4194304) hm (by
  unfold akzBegin
  simp)

@[simp] theorem beginUp_frame (μ : Nat) (hm : 1024 ||| μ = μ) (lp : Nat) (s : State) : forget μ (beginUp lp s) = forget μ s := widen (a := 1024) hm (by
  unfold beginUp
  simp)

@[simp] theorem cutOff_frame (μ : Nat) (hm : 2115084 ||| μ = μ) (lp : Nat) (s : State) : forget μ (cutOff lp s) = forget μ s := widen (a := 2115084) hm (by
  unfold cutOff
  (repeat' split) <;> simp)

@[simp] theorem setLanes_frame (μ : Nat) (hm : 1024 ||| μ = μ) (lp : Nat) (on : Bool) (s : State) : forget μ (setLanes lp on s) = forget μ s := widen (a := 1024) hm (by
  unfold setLanes
  simp)

@[simp] theorem ncsiAen_frame (μ : Nat) (hm : 4 ||| μ = μ) (kind : Nat) (lp : Nat) (s : State) : forget μ (ncsiAen kind lp s) = forget μ s := widen (a := 4) hm (by
  unfold ncsiAen
  repeat' (first | with_reducible rfl | simp only [↓emit_frame, forget_ite, ite_self, Nat.reduceOr] | (refine Eq.trans (forget_foldS _ _ (fun _ _ => ?_) _ _) ?_) | (refine Eq.trans (congrArg (forget _) (congrArg Prod.snd ‹_ = (_, _)›).symm) ?_) | split | dsimp only))

@[simp] theorem lportDown_frame (μ : Nat) (hm : 2115084 ||| μ = μ) (lp : Nat) (s : State) : forget μ (lportDown lp s) = forget μ s := widen (a := 2115084) hm (by
  unfold lportDown
  simp)

end Sys2Proof.Machine
end

