-- ==== Sys2Proof/Laws/FrameTblStore.lean ====
section
/-!
SUPPORT. Frames of the operations of Machine/TblStore.lean: the parts of the state that each can change.
-/
namespace Sys2Proof.Machine
set_option linter.all false

@[simp] theorem setStash_frame (μ : Nat) (hm : 8192 ||| μ = μ) (bank : Nat) (l : List Slot8) (s : State) : forget μ (setStash bank l s) = forget μ s := widen (a := 8192) hm (by
  unfold setStash
  simp)

@[simp] theorem setBucket_frame (μ : Nat) (hm : 8192 ||| μ = μ) (bank : Nat) (b : Nat) (ws : List (Option Slot8)) (s : State) : forget μ (setBucket bank b ws s) = forget μ s := widen (a := 8192) hm (by
  unfold setBucket
  simp)

theorem putWay_frame (μ : Nat) (hm : 8192 ||| μ = μ) (bank : Nat) (b : Nat) (x : Slot8) (s : State) (z : State) (e : putWay bank b x s = some z) : forget μ z = forget μ s := widen (a := 8192) hm (by
  revert e
  unfold putWay
  repeat' (first | (intro e; cases e; done) | (intro e; cases e; repeat' (first | with_reducible rfl | simp only [↓setBucket_frame, Nat.reduceOr] | (refine Eq.trans (forget_foldS _ _ (fun _ _ => ?_) _ _) ?_) | (refine Eq.trans (congrArg (forget _) (congrArg Prod.snd ‹_ = (_, _)›).symm) ?_) | split | dsimp only)) | (intro e; obtain ⟨_, _, rfl⟩ := Option.map_eq_some_iff.mp e; repeat' (first | with_reducible rfl | simp only [↓setBucket_frame, Nat.reduceOr] | (refine Eq.trans (forget_foldS _ _ (fun _ _ => ?_) _ _) ?_) | (refine Eq.trans (congrArg (forget _) (congrArg Prod.snd ‹_ = (_, _)›).symm) ?_) | split | dsimp only)) | split | dsimp only))

@[simp] theorem unstash_frame (μ : Nat) (hm : 8192 ||| μ = μ) (bank b : Nat) (s : State) : forget μ (unstash bank b s) = forget μ s := by
  unfold unstash
  dsimp only
  split
  · rfl
  · split
    · rename_i h
      exact (setStash_frame μ (or_trans rfl hm) _ _ _).trans (putWay_frame μ (or_trans rfl hm) _ _ _ _ _ h)
    · rfl

@[simp] theorem removeSlot_frame (μ : Nat) (hm : 8192 ||| μ = μ) (lpm : Bool) (i : Nat) (key : Bytes) (s : State) : forget μ (removeSlot lpm i key s) = forget μ s := widen (a := 8192) hm (by
  unfold removeSlot
  simp)

@[simp] theorem removeFlow_frame (μ : Nat) (hm : 8192 ||| μ = μ) (i : Nat) (s : State) : forget μ (removeFlow i s) = forget μ s := widen (a := 8192) hm (by
  unfold removeFlow
  (repeat' split) <;> simp)

@[simp] theorem dropCreated_frame (μ : Nat) (hm : 8192 ||| μ = μ) (v : Nat) (s : State) : forget μ (dropCreated v s) = forget μ s := widen (a := 8192) hm (by
  unfold dropCreated
  repeat' (first | with_reducible rfl | simp only [↓removeFlow_frame, Nat.reduceOr] | (refine Eq.trans (forget_foldS _ _ (fun _ _ => ?_) _ _) ?_) | (refine Eq.trans (congrArg (forget _) (congrArg Prod.snd ‹_ = (_, _)›).symm) ?_) | split | dsimp only))

@[simp] theorem tblEvent_frame (μ : Nat) (hm : 2097664 ||| μ = μ) (code : Nat) (detail : Nat) (s : State) : forget μ (tblEvent code detail s) = forget μ s := widen (a := 2097664) hm (by
  unfold tblEvent
  simp)

@[simp] theorem stashHigh_frame (μ : Nat) (hm : 2097664 ||| μ = μ) (bank : Nat) (s : State) : forget μ (stashHigh bank s) = forget μ s := widen (a := 2097664) hm (by
  unfold stashHigh
  simp)

theorem place_frame (μ : Nat) (hm : 2105856 ||| μ = μ) (lpm : Bool) (i : Nat) (key : Bytes) (work : Option (Fn × Nat × Nat)) (s : State)
    (z : State) (e : place lpm i key work s = some z) : forget μ z = forget μ s := widen (a := 2105856) hm (by
  revert e
  unfold place
  dsimp only
  split
  · intro e
    cases e
    rename_i h
    rcases Option.or_eq_some_iff.mp h with h | ⟨_, h⟩
    · exact putWay_frame _ (by decide) _ _ _ _ _ h
    · exact putWay_frame _ (by decide) _ _ _ _ _ h
  · split
    · intro e
      cases e
      exact modTbl_frame _ (by decide) _ _
    · split
      · intro e
        cases e
        exact (stashHigh_frame _ (by decide) _ _).trans (setStash_frame _ (by decide) _ _ _)
      · intro e
        cases e)

@[simp] theorem filterAddKey_frame (μ : Nat) (hm : 8192 ||| μ = μ) (key : Bytes) (s : State) : forget μ (filterAddKey key s) = forget μ s := widen (a := 8192) hm (by
  unfold filterAddKey
  simp)

end Sys2Proof.Machine
end

