-- ==== Sys2Proof/Laws/FrameResets.lean ====
section
/-!
SUPPORT. Frames of the operations of Machine/Resets.lean: the parts of the state that each can change.
-/
namespace Sys2Proof.Machine
set_option linter.all false

@[simp] theorem dropWaiting_frame (μ : Nat) (hm : 256 ||| μ = μ) (f : Fn) (s : State) : forget μ (dropWaiting f s) = forget μ s := widen (a := 256) hm (by
  unfold dropWaiting
  simp)

@[simp] theorem dropJobs_frame (μ : Nat) (hm : 1048576 ||| μ = μ) (f : Fn) (s : State) : forget μ (dropJobs f s) = forget μ s := widen (a := 1048576) hm (by
  unfold dropJobs
  simp)

@[simp] theorem dropUnits_frame (μ : Nat) (hm : 598016 ||| μ = μ) (f : Fn) (s : State) : forget μ (dropUnits f s) = forget μ s := widen (a := 598016) hm (by
  unfold dropUnits
  simp)

@[simp] theorem silenceOne_frame (μ : Nat) (hm : 1647360 ||| μ = μ) (f : Fn) (s : State) : forget μ (silenceOne f s) = forget μ s := widen (a := 1647360) hm (by
  unfold silenceOne
  simp)

@[simp] theorem tdiError_frame (μ : Nat) (hm : 3744512 ||| μ = μ) (f : Fn) (s : State) : forget μ (tdiError f s) = forget μ s := widen (a := 3744512) hm (by
  unfold tdiError
  simp)

@[simp] theorem migDone_frame (μ : Nat) (hm : 2097920 ||| μ = μ) (f : Fn) (result : Nat) (s : State) : forget μ (migDone f result s) = forget μ s := widen (a := 2097920) hm (by
  unfold migDone
  (repeat' split) <;> simp)

@[simp] theorem setMode_frame (μ : Nat) (hm : 2097812 ||| μ = μ) (m : Mode) (s : State) : forget μ (setMode m s) = forget μ s := widen (a := 2097812) hm (by
  unfold setMode
  simp)

@[simp] theorem enterHold_frame (μ : Nat) (hm : 2115228 ||| μ = μ) (s : State) : forget μ (enterHold s) = forget μ s := widen (a := 2115228) hm (by
  unfold enterHold
  repeat' (first | with_reducible rfl | simp only [↓lportDown_frame, ↓setMode_frame, Nat.reduceOr] | (refine Eq.trans (forget_foldS _ _ (fun _ _ => ?_) _ _) ?_) | (refine Eq.trans (congrArg (forget _) (congrArg Prod.snd ‹_ = (_, _)›).symm) ?_) | split | dsimp only))

@[simp] theorem modeAfterLinks_frame (μ : Nat) (hm : 2115228 ||| μ = μ) (s : State) : forget μ (modeAfterLinks s) = forget μ s := widen (a := 2115228) hm (by
  unfold modeAfterLinks
  (repeat' split) <;> simp)

@[simp] theorem leaveHold_frame (μ : Nat) (hm : 2098836 ||| μ = μ) (s : State) : forget μ (leaveHold s) = forget μ s := widen (a := 2098836) hm (by
  unfold leaveHold
  repeat' (first | with_reducible rfl | simp only [↓beginUp_frame, ↓setMode_frame, forget_ite, Nat.reduceOr] | (refine Eq.trans (forget_foldS _ _ (fun _ _ => ?_) _ _) ?_) | (refine Eq.trans (congrArg (forget _) (congrArg Prod.snd ‹_ = (_, _)›).symm) ?_) | split | dsimp only))

@[simp] theorem orphan_frame (μ : Nat) (hm : 256 ||| μ = μ) (f : Fn) (s : State) : forget μ (orphan f s) = forget μ s := widen (a := 256) hm (by
  unfold orphan
  simp)

@[simp] theorem resetController_frame (μ : Nat) (hm : 524288 ||| μ = μ) (f : Fn) (s : State) : forget μ (resetController f s) = forget μ s := widen (a := 524288) hm (by
  unfold resetController
  simp)

@[simp] theorem resetRegs_frame (μ : Nat) (hm : 48 ||| μ = μ) (p : Reg → Nat → Bool) (s : State) : forget μ (resetRegs p s) = forget μ s := by
  have b := bit_of_or hm
  simp only [forget, resetRegs, b 4 rfl, b 5 rfl, if_true]

@[simp] theorem zeroiseVf_frame (μ : Nat) (hm : 2180636 ||| μ = μ) (f : Fn) (s : State) : forget μ (zeroiseVf f s) = forget μ s := widen (a := 2180636) hm (by
  unfold zeroiseVf
  repeat' (first | with_reducible rfl | simp only [↓keyClear_frame, Nat.reduceOr] | (refine Eq.trans (forget_foldS _ _ (fun _ _ => ?_) _ _) ?_) | (refine Eq.trans (congrArg (forget _) (congrArg Prod.snd ‹_ = (_, _)›).symm) ?_) | split | dsimp only))

@[simp] theorem resetFunction_frame (μ : Nat) (hm : 3794748 ||| μ = μ) (keep : Bool) (f : Fn) (s0 : State) : forget μ (resetFunction keep f s0) = forget μ s0 := widen (a := 3794748) hm (by
  unfold resetFunction
  repeat' (first | with_reducible rfl | simp only [↓abortMailbox_frame, ↓dropCreated_frame, ↓releaseLocks_frame, ↓migDone_frame, ↓zeroiseVf_frame, ↓resetRegs_frame, ↓modHif_frame, ↓modQm_frame, ↓modTim_frame, ↓modMac_frame, ↓modFn_frame, ↓resetController_frame, ↓dropUnits_frame, ↓dropJobs_frame, ↓orphan_frame, ↓dropWaiting_frame, forget_ite, ite_self, Nat.reduceOr] | (refine Eq.trans (forget_foldS _ _ (fun _ _ => ?_) _ _) ?_) | (refine Eq.trans (congrArg (forget _) (congrArg Prod.snd ‹_ = (_, _)›).symm) ?_) | split | dsimp only))

@[simp] theorem resetHalfFns_frame (μ : Nat) (hm : 3794748 ||| μ = μ) (h : Nat) (s : State) : forget μ (resetHalfFns h s) = forget μ s := widen (a := 3794748) hm (by
  unfold resetHalfFns
  repeat' (first | with_reducible rfl | simp only [↓resetFunction_frame, ↓modHif_frame, Nat.reduceOr] | (refine Eq.trans (forget_foldS _ _ (fun _ _ => ?_) _ _) ?_) | (refine Eq.trans (congrArg (forget _) (congrArg Prod.snd ‹_ = (_, _)›).symm) ?_) | split | dsimp only))

@[simp] theorem halfDown_frame (μ : Nat) (hm : 3794748 ||| μ = μ) (h : Nat) (s : State) : forget μ (halfDown h s) = forget μ s := widen (a := 3794748) hm (by
  unfold halfDown
  repeat' (first | with_reducible rfl | simp only [↓modHalf_frame, ↓resetHalfFns_frame, ↓modFn_frame, ↓raise_frame, forget_ite, ite_self, Nat.reduceOr] | (refine Eq.trans (forget_foldS _ _ (fun _ _ => ?_) _ _) ?_) | (refine Eq.trans (congrArg (forget _) (congrArg Prod.snd ‹_ = (_, _)›).symm) ?_) | split | dsimp only))

@[simp] theorem stopFast_frame (μ : Nat) (hm : 16646076 ||| μ = μ) (s : State) : forget μ (stopFast s) = forget μ s := by
  have b := bit_of_or hm
  unfold stopFast
  extract_lets s1 s2
  have e : forget μ s2 = forget μ s :=
    (modHif_frame μ (or_trans rfl hm) _ _).trans ((halfDown_frame μ (or_trans rfl hm) _ _).trans (halfDown_frame μ (or_trans rfl hm) _ _))
  clear_value s2
  rw [← e]
  cases c : μ.testBit 24
  · simp only [forget, b 2 rfl, b 3 rfl, b 4 rfl, b 5 rfl, b 7 rfl, b 8 rfl, b 9 rfl, b 10 rfl, b 11 rfl, b 12 rfl, b 13 rfl, b 14 rfl, b 15 rfl, b 16 rfl, b 18 rfl, b 19 rfl, b 20 rfl, b 21 rfl, b 22 rfl, b 23 rfl, c, if_true, forgetLcs, onlyFuses]
    rfl
  · simp only [forget, b 2 rfl, b 3 rfl, b 4 rfl, b 5 rfl, b 7 rfl, b 8 rfl, b 9 rfl, b 10 rfl, b 11 rfl, b 12 rfl, b 13 rfl, b 14 rfl, b 15 rfl, b 16 rfl, b 18 rfl, b 19 rfl, b 20 rfl, b 21 rfl, b 22 rfl, b 23 rfl, c, if_true, forgetLcs]

@[simp] theorem restartReset_frame (μ : Nat) (hm : 16777136 ||| μ = μ) (s : State) : forget μ (restartReset s) = forget μ s := by
  have b := bit_of_or hm
  refine Eq.trans ?_ (resetRegs_frame μ (or_trans rfl hm) (fun g _ => g.info.kind != .power) s)
  cases c : μ.testBit 24
  · simp only [forget, restartReset, b 4 rfl, b 5 rfl, b 7 rfl, b 8 rfl, b 9 rfl, b 10 rfl, b 11 rfl, b 12 rfl, b 13 rfl, b 14 rfl, b 15 rfl, b 16 rfl, b 17 rfl, b 18 rfl, b 19 rfl, b 20 rfl, b 21 rfl, b 22 rfl, b 23 rfl, c, if_true, forgetLcs, onlyFuses]
    rfl
  · simp only [forget, restartReset, b 4 rfl, b 5 rfl, b 7 rfl, b 8 rfl, b 9 rfl, b 10 rfl, b 11 rfl, b 12 rfl, b 13 rfl, b 14 rfl, b 15 rfl, b 16 rfl, b 17 rfl, b 18 rfl, b 19 rfl, b 20 rfl, b 21 rfl, b 22 rfl, b 23 rfl, c, if_true, forgetLcs]

@[simp] theorem silence_frame (μ : Nat) (hm : 1647360 ||| μ = μ) (f : Fn) (s : State) : forget μ (silence f s) = forget μ s := widen (a := 1647360) hm (by
  unfold silence
  repeat' (first | with_reducible rfl | simp only [↓silenceOne_frame, Nat.reduceOr] | (refine Eq.trans (forget_foldS _ _ (fun _ _ => ?_) _ _) ?_) | (refine Eq.trans (congrArg (forget _) (congrArg Prod.snd ‹_ = (_, _)›).symm) ?_) | split | dsimp only))

@[simp] theorem abortMigration_frame (μ : Nat) (hm : 2097920 ||| μ = μ) (f : Fn) (s : State) : forget μ (abortMigration f s) = forget μ s := widen (a := 2097920) hm (by
  unfold abortMigration
  simp)

@[simp] theorem startTraining_frame (μ : Nat) (hm : 256 ||| μ = μ) (h : Nat) (s : State) : forget μ (startTraining h s) = forget μ s := widen (a := 256) hm (by
  unfold startTraining
  simp)

@[simp] theorem powerReset_frame (μ : Nat) (hm : 50331632 ||| μ = μ) (s : State) : forget μ (powerReset s) = forget μ s := by
  have b := bit_of_or hm
  cases c : μ.testBit 24 <;>
    simp only [forget, powerReset, b 4 rfl, b 5 rfl, b 6 rfl, b 7 rfl, b 8 rfl, b 9 rfl, b 10 rfl, b 11 rfl, b 12 rfl, b 13 rfl, b 14 rfl, b 15 rfl, b 16 rfl, b 17 rfl, b 18 rfl, b 19 rfl, b 20 rfl, b 21 rfl, b 22 rfl, b 23 rfl, b 25 rfl, c, if_true, forgetLcs, onlyFuses, ite_self]

end Sys2Proof.Machine
end

