-- ==== Sys2Proof/Laws/FrameConfigSpace.lean ====
section
/-!
SUPPORT. Frames of the operations of Machine/ConfigSpace.lean: the parts of the state that each can change.
-/
namespace Sys2Proof.Machine
set_option linter.all false

@[simp] theorem cfgSet_frame (μ : Nat) (hm : 256 ||| μ = μ) (f : Fn) (d : Nat) (v : Word) (s : State) : forget μ (cfgSet f d v s) = forget μ s := widen (a := 256) hm (by
  unfold cfgSet
  simp)

@[simp] theorem headerLog_frame (μ : Nat) (hm : 264 ||| μ = μ) (f : Fn) (bit : Nat) (s : State) : forget μ (headerLog f bit s) = forget μ s := widen (a := 264) hm (by
  unfold headerLog
  repeat' (first | with_reducible rfl | simp only [↓takeFree_frame, ↓cfgSet_frame, forget_ite, Nat.reduceOr] | (refine Eq.trans (forget_foldS _ _ (fun _ _ => ?_) _ _) ?_) | (refine Eq.trans (congrArg (forget _) (congrArg Prod.snd ‹_ = (_, _)›).symm) ?_) | split | dsimp only))

@[simp] theorem aerLog_frame (μ : Nat) (hm : 296 ||| μ = μ) (f : Fn) (bit : Nat) (advisory : Bool) (s0 : State) : forget μ (aerLog f bit advisory s0) = forget μ s0 := widen (a := 296) hm (by
  unfold aerLog
  simp)

@[simp] theorem rejectRequest_frame (μ : Nat) (hm : 300 ||| μ = μ) (f : Fn) (s : State) : forget μ (rejectRequest f s) = forget μ s := widen (a := 300) hm (by
  unfold rejectRequest
  simp)

end Sys2Proof.Machine
end

