-- ==== Sys2Proof/Laws/FrameHostif.lean ====
section
/-!
SUPPORT. Frames of the operations of Machine/Hostif.lean: the parts of the state that each can change.
-/
namespace Sys2Proof.Machine
set_option linter.all false

@[simp] theorem pickFree_frame (μ : Nat) (hm : 8 ||| μ = μ) (used : List Nat) (n : Nat) (s : State) : forget μ (pickFree used n s).2 = forget μ s := widen (a := 8) hm (by
  unfold pickFree
  repeat' (first | with_reducible rfl | simp only [↓takeFree_frame, Nat.reduceOr] | split))

@[simp] theorem msixChange_frame (μ : Nat) (hm : 260 ||| μ = μ) (f : Fn) (c : MsixChange) (s : State) : forget μ (msixChange f c s) = forget μ s := widen (a := 260) hm (by
  unfold msixChange
  (repeat' split) <;> simp)

@[simp] theorem unexpected_frame (μ : Nat) (hm : 2097976 ||| μ = μ) (f : Fn) (s : State) : forget μ (unexpected f s) = forget μ s := widen (a := 2097976) hm (by
  unfold unexpected
  simp)

@[simp] theorem initiateFlr_frame (μ : Nat) (hm : 3744512 ||| μ = μ) (f : Fn) (s : State) : forget μ (initiateFlr f s) = forget μ s := widen (a := 3744512) hm (by
  unfold initiateFlr
  repeat' (first | with_reducible rfl | simp only [↓tdiError_frame, ↓abortMigration_frame, ↓silence_frame, ↓modFn_frame, forget_ite, Nat.reduceOr] | (refine Eq.trans (forget_foldS _ _ (fun _ _ => ?_) _ _) ?_) | (refine Eq.trans (congrArg (forget _) (congrArg Prod.snd ‹_ = (_, _)›).symm) ?_) | split | dsimp only))

@[simp] theorem execInitiateFlr_frame (μ : Nat) (hm : 3744512 ||| μ = μ) (f : Fn) (s : State) : forgetO μ s (execInitiateFlr f s) = forget μ s := widenO (a := 3744512) hm (by
  unfold execInitiateFlr
  simp)

theorem takeSlot_frame (μ : Nat) (hm : 8 ||| μ = μ) (r : Req) (s : State) (z : _) (e : takeSlot r s = some z) : forget μ z.2.2 = forget μ s := widen (a := 8) hm (by
  revert e
  unfold takeSlot
  repeat' (first | (intro e; cases e; done) | (intro e; cases e; repeat' (first | with_reducible rfl | simp only [↓pickFree_frame, Nat.reduceOr] | (refine Eq.trans (forget_foldS _ _ (fun _ _ => ?_) _ _) ?_) | (refine Eq.trans (congrArg (forget _) (congrArg Prod.snd ‹_ = (_, _)›).symm) ?_) | split | dsimp only)) | (intro e; obtain ⟨_, _, rfl⟩ := Option.map_eq_some_iff.mp e; repeat' (first | with_reducible rfl | simp only [↓pickFree_frame, Nat.reduceOr] | (refine Eq.trans (forget_foldS _ _ (fun _ _ => ?_) _ _) ?_) | (refine Eq.trans (congrArg (forget _) (congrArg Prod.snd ‹_ = (_, _)›).symm) ?_) | split | dsimp only)) | split | dsimp only))

@[simp] theorem setSlot_frame (μ : Nat) (hm : 256 ||| μ = μ) (n : Nat) (x : Option Slot) (s : State) : forget μ (setSlot n x s) = forget μ s := widen (a := 256) hm (by
  unfold setSlot
  simp)

@[simp] theorem timedOut_frame (μ : Nat) (hm : 2097976 ||| μ = μ) (f : Fn) (s : State) : forget μ (timedOut f s) = forget μ s := widen (a := 2097976) hm (by
  unfold timedOut
  simp)

theorem operandRead_frame (μ : Nat) (hm : 2130746 ||| μ = μ) (f : Fn) (addr : Nat) (got : HostRead) (s : State) (z : State) (e : operandRead f addr got s = some z) : forget μ z = forget μ s := widen (a := 2130746) hm (by
  revert e
  unfold operandRead
  repeat' (first | (intro e; cases e; done) | (intro e; cases e; repeat' (first | with_reducible rfl | simp only [↓advanceTo_frame, ↓timedOut_frame, ↓setSlot_frame, Nat.reduceOr] | (refine Eq.trans (forget_foldS _ _ (fun _ _ => ?_) _ _) ?_) | (refine Eq.trans (congrArg (forget _) (congrArg Prod.snd ‹_ = (_, _)›).symm) ?_) | (refine Eq.trans (takeSlot_frame _ (by first | decide | exact or_trans rfl hm) _ _ (_, _, _) ‹_›) ?_) | (refine Eq.trans (takeSlot_frame _ (by first | decide | exact or_trans rfl hm) _ _ _ ‹_›) ?_) | simp only [Option.getD] | split | dsimp only)) | (intro e; obtain ⟨_, _, rfl⟩ := Option.map_eq_some_iff.mp e; repeat' (first | with_reducible rfl | simp only [↓advanceTo_frame, ↓timedOut_frame, ↓setSlot_frame, Nat.reduceOr] | (refine Eq.trans (forget_foldS _ _ (fun _ _ => ?_) _ _) ?_) | (refine Eq.trans (congrArg (forget _) (congrArg Prod.snd ‹_ = (_, _)›).symm) ?_) | (refine Eq.trans (takeSlot_frame _ (by first | decide | exact or_trans rfl hm) _ _ (_, _, _) ‹_›) ?_) | (refine Eq.trans (takeSlot_frame _ (by first | decide | exact or_trans rfl hm) _ _ _ ‹_›) ?_) | simp only [Option.getD] | split | dsimp only)) | split | dsimp only))

theorem withRead_frame (μ : Nat) (hm : 2130746 ||| μ = μ) (f : Fn) (addr : Nat) (got : HostRead) (k : State → State) (s : State) (h_k : ∀ v0, forget μ (k v0) = forget μ v0) : forget μ (withRead f addr got k s) = forget μ s := by
  unfold withRead
  repeat' (first | with_reducible rfl | simp only [h_k] | (refine Eq.trans (forget_foldS _ _ (fun _ _ => ?_) _ _) ?_) | (refine Eq.trans (congrArg (forget _) (congrArg Prod.snd ‹_ = (_, _)›).symm) ?_) | (refine Eq.trans (operandRead_frame _ (by first | decide | exact or_trans rfl hm) _ _ _ _ _ ‹_›) ?_) | simp only [Option.getD] | split | dsimp only)

@[simp] theorem execPageRequest_frame (μ : Nat) (hm : 772 ||| μ = μ) (f : Fn) (q : Nat) (s : State) : forgetO μ s (execPageRequest f q s) = forget μ s := widenO (a := 772) hm (by
  unfold execPageRequest
  (repeat' split) <;> simp)

@[simp] theorem vfEnable_frame (μ : Nat) (hm : 260 ||| μ = μ) (i : Nat) (s : State) : forget μ (vfEnable i s) = forget μ s := widen (a := 260) hm (by
  unfold vfEnable
  repeat' (first | with_reducible rfl | simp only [↓cfgSet_frame, ↓modFn_frame, ↓emit_frame, forget_ite, Nat.reduceOr] | (refine Eq.trans (forget_foldS _ _ (fun _ _ => ?_) _ _) ?_) | (refine Eq.trans (congrArg (forget _) (congrArg Prod.snd ‹_ = (_, _)›).symm) ?_) | split | dsimp only))

@[simp] theorem execVfEnable_frame (μ : Nat) (hm : 260 ||| μ = μ) (pf : Nat) (s : State) : forgetO μ s (execVfEnable pf s) = forget μ s := widenO (a := 260) hm (by
  unfold execVfEnable
  simp)

@[simp] theorem powerState_frame (μ : Nat) (hm : 256 ||| μ = μ) (f : Fn) (v : Nat) (s : State) : forget μ (powerState f v s) = forget μ s := widen (a := 256) hm (by
  unfold powerState
  simp)

@[simp] theorem execPowerStateChange_frame (μ : Nat) (hm : 256 ||| μ = μ) (f : Fn) (state : Nat) (s : State) : forgetO μ s (execPowerStateChange f state s) = forget μ s := widenO (a := 256) hm (by
  unfold execPowerStateChange
  simp)

@[simp] theorem doeTake_frame (μ : Nat) (hm : 256 ||| μ = μ) (h : Nat) (s : State) : forget μ (doeTake h s) = forget μ s := widen (a := 256) hm (by
  unfold doeTake
  simp)

@[simp] theorem doeAbort_frame (μ : Nat) (hm : 256 ||| μ = μ) (h : Nat) (s : State) : forget μ (doeAbort h s) = forget μ s := widen (a := 256) hm (by
  unfold doeAbort
  simp)

@[simp] theorem vfDisable_frame (μ : Nat) (hm : 3794748 ||| μ = μ) (i : Nat) (s : State) : forget μ (vfDisable i s) = forget μ s := widen (a := 3794748) hm (by
  unfold vfDisable
  repeat' (first | with_reducible rfl | simp only [↓cfgSet_frame, ↓modFn_frame, ↓resetFunction_frame, ↓tdiError_frame, ↓emit_frame, forget_ite, Nat.reduceOr] | (refine Eq.trans (forget_foldS _ _ (fun _ _ => ?_) _ _) ?_) | (refine Eq.trans (congrArg (forget _) (congrArg Prod.snd ‹_ = (_, _)›).symm) ?_) | split | dsimp only))

@[simp] theorem busMasterOff_frame (μ : Nat) (hm : 3744512 ||| μ = μ) (f : Fn) (s : State) : forget μ (busMasterOff f s) = forget μ s := widen (a := 3744512) hm (by
  unfold busMasterOff
  simp)

@[simp] theorem speakAgain_frame (μ : Nat) (hm : 260 ||| μ = μ) (f : Fn) (s : State) : forget μ (speakAgain f s) = forget μ s := widen (a := 260) hm (by
  unfold speakAgain
  simp)

@[simp] theorem busMasterOn_frame (μ : Nat) (hm : 3744516 ||| μ = μ) (f : Fn) (s : State) : forget μ (busMasterOn f s) = forget μ s := widen (a := 3744516) hm (by
  unfold busMasterOn
  repeat' (first | with_reducible rfl | simp only [↓cfgSet_frame, ↓speakAgain_frame, ↓tdiError_frame, forget_ite, Nat.reduceOr] | (refine Eq.trans (forget_foldS _ _ (fun _ _ => ?_) _ _) ?_) | (refine Eq.trans (congrArg (forget _) (congrArg Prod.snd ‹_ = (_, _)›).symm) ?_) | split | dsimp only))

@[simp] theorem configWrite_frame (μ : Nat) (hm : 3794748 ||| μ = μ) (f : Fn) (off : Nat) (v : Word) (s : State) : forget μ (configWrite f off v s) = forget μ s := widen (a := 3794748) hm (by
  unfold configWrite
  repeat' (first | with_reducible rfl | simp only [↓cfgSet_frame, ↓busMasterOn_frame, ↓busMasterOff_frame, ↓powerState_frame, ↓initiateFlr_frame, ↓msixChange_frame, ↓tdiError_frame, ↓vfEnable_frame, ↓vfDisable_frame, ↓doeAbort_frame, ↓doeTake_frame, ↓modHif_frame, forget_ite, ite_self, Nat.reduceOr] | (refine Eq.trans (forget_foldS _ _ (fun _ _ => ?_) _ _) ?_) | (refine Eq.trans (congrArg (forget _) (congrArg Prod.snd ‹_ = (_, _)›).symm) ?_) | split | dsimp only))

@[simp] theorem execQuiesceDone_frame (μ : Nat) (hm : 256 ||| μ = μ) (f : Fn) (s : State) : forgetO μ s (execQuiesceDone f s) = forget μ s := widenO (a := 256) hm (by
  unfold execQuiesceDone
  simp)

@[simp] theorem dropRequests_frame (μ : Nat) (hm : 256 ||| μ = μ) (f : Fn) (q : Nat) (ctr : Nat) (s : State) : forget μ (dropRequests f q ctr s) = forget μ s := widen (a := 256) hm (by
  unfold dropRequests
  simp)

@[simp] theorem translationFails_frame (μ : Nat) (hm : 768 ||| μ = μ) (f : Fn) (q : Nat) (ctr : Nat) (status : Nat) (s : State) : forget μ (translationFails f q ctr status s) = forget μ s := widen (a := 768) hm (by
  unfold translationFails
  simp)

@[simp] theorem pageAnswered_frame (μ : Nat) (hm : 2097920 ||| μ = μ) (r : PageReq) (success : Bool) (failure : Bool) (s : State) : forget μ (pageAnswered r success failure s) = forget μ s := widen (a := 2097920) hm (by
  unfold pageAnswered
  repeat' (first | with_reducible rfl | simp only [↓modFn_frame, ↓modHif_frame, ↓translationFails_frame, ↓raise_frame, forget_ite, ite_self, Nat.reduceOr] | split))

@[simp] theorem execPrgResponse_frame (μ : Nat) (hm : 2097920 ||| μ = μ) (f : Fn) (q : Nat) (answer : PrgAnswer) (s : State) : forgetO μ s (execPrgResponse f q answer s) = forget μ s := widenO (a := 2097920) hm (by
  unfold execPrgResponse
  (repeat' split) <;> simp)

@[simp] theorem execStaleRetry_frame (μ : Nat) (hm : 2655034 ||| μ = μ) (f : Fn) (q : Nat) (got : HostRead) (s : State) : forgetO μ s (execStaleRetry f q got s) = forget μ s := widenO (a := 2655034) hm (by
  unfold execStaleRetry
  repeat' (first | with_reducible rfl | simp only [↓advanceTo_frame, ↓acceptEntry_frame, ↓modQueue_frame, ↓finishWork_frame, ↓queueError_frame, ite_self, forgetO_next, forgetO_ite, Nat.reduceOr] | (refine Eq.trans (forget_foldS _ _ (fun _ _ => ?_) _ _) ?_) | (refine Eq.trans (congrArg (forget _) (congrArg Prod.snd ‹_ = (_, _)›).symm) ?_) | (refine Eq.trans (operandRead_frame _ (by first | decide | exact or_trans rfl hm) _ _ _ _ _ ‹_›) ?_) | simp only [Option.getD] | split | dsimp only))

@[simp] theorem execBusMasterDisable_frame (μ : Nat) (hm : 3744512 ||| μ = μ) (f : Fn) (s : State) : forgetO μ s (execBusMasterDisable f s) = forget μ s := widenO (a := 3744512) hm (by
  unfold execBusMasterDisable
  simp)

@[simp] theorem execTagSlotGrant_frame (μ : Nat) (hm : 268 ||| μ = μ) (which : Option Fn) (s : State) : forgetO μ s (execTagSlotGrant which s) = forget μ s := widenO (a := 268) hm (by
  unfold execTagSlotGrant
  repeat' (first | with_reducible rfl | simp only [↓emit_frame, ↓modHif_frame, forgetO_next, Nat.reduceOr] | (refine Eq.trans (forget_foldS _ _ (fun _ _ => ?_) _ _) ?_) | (refine Eq.trans (congrArg (forget _) (congrArg Prod.snd ‹_ = (_, _)›).symm) ?_) | (refine Eq.trans (takeSlot_frame _ (by first | decide | exact or_trans rfl hm) _ _ (_, _, _) ‹_›) ?_) | (refine Eq.trans (takeSlot_frame _ (by first | decide | exact or_trans rfl hm) _ _ _ ‹_›) ?_) | simp only [Option.getD] | split | dsimp only))

@[simp] theorem resetVf_frame (μ : Nat) (hm : 3794748 ||| μ = μ) (f : Fn) (s : State) : forget μ (resetVf f s) = forget μ s := widen (a := 3794748) hm (by
  unfold resetVf
  simp)

@[simp] theorem execFlrDone_frame (μ : Nat) (hm : 3794748 ||| μ = μ) (f : Fn) (s : State) : forgetO μ s (execFlrDone f s) = forget μ s := widenO (a := 3794748) hm (by
  unfold execFlrDone
  repeat' (first | with_reducible rfl | simp only [↓resetVf_frame, ↓modHif_frame, ↓emit_frame, ↓modFn_frame, ↓resetFunction_frame, ↓raise_frame, forget_ite, ite_self, forgetO_next, forgetO_ite, Nat.reduceOr] | (refine Eq.trans (forget_foldS _ _ (fun _ _ => ?_) _ _) ?_) | (refine Eq.trans (congrArg (forget _) (congrArg Prod.snd ‹_ = (_, _)›).symm) ?_) | split | dsimp only))

@[simp] theorem execPoisonedPostedWrite_frame (μ : Nat) (hm : 296 ||| μ = μ) (f : Fn) (s : State) : forgetO μ s (execPoisonedPostedWrite f s) = forget μ s := widenO (a := 296) hm (by
  unfold execPoisonedPostedWrite
  simp)

@[simp] theorem deliver_frame (μ : Nat) (hm : 768 ||| μ = μ) (r : Req) (got : HostRead) (s : State) : forget μ (deliver r got s) = forget μ s := widen (a := 768) hm (by
  unfold deliver
  (repeat' split) <;> simp)

@[simp] theorem execCompletionTimeout_frame (μ : Nat) (hm : 2130746 ||| μ = μ) (slot : Nat) (s0 : State) : forgetO μ s0 (execCompletionTimeout slot s0) = forget μ s0 := widenO (a := 2130746) hm (by
  unfold execCompletionTimeout
  (repeat' split) <;> simp)

@[simp] theorem configRejected_frame (μ : Nat) (hm : 300 ||| μ = μ) (f : Fn) (s : State) : forget μ (configRejected f s) = forget μ s := widen (a := 300) hm (by
  unfold configRejected
  simp)

@[simp] theorem execVfDisable_frame (μ : Nat) (hm : 3794748 ||| μ = μ) (pf : Nat) (s : State) : forgetO μ s (execVfDisable pf s) = forget μ s := widenO (a := 3794748) hm (by
  unfold execVfDisable
  simp)

@[simp] theorem execDoeAbort_frame (μ : Nat) (hm : 256 ||| μ = μ) (half : Nat) (s : State) : forgetO μ s (execDoeAbort half s) = forget μ s := widenO (a := 256) hm (by
  unfold execDoeAbort
  simp)

@[simp] theorem execHostCompletion_frame (μ : Nat) (hm : 2097976 ||| μ = μ) (f : Fn) (tag : Nat) (status : HostRead) (last : Bool) (s : State) : forgetO μ s (execHostCompletion f tag status last s) = forget μ s := widenO (a := 2097976) hm (by
  unfold execHostCompletion
  (repeat' split) <;> simp)

@[simp] theorem execConfigWrite_frame (μ : Nat) (hm : 3794748 ||| μ = μ) (f : Fn) (off : Nat) (v : Word) (s : State) : forgetO μ s (execConfigWrite f off v s) = forget μ s := widenO (a := 3794748) hm (by
  unfold execConfigWrite
  (repeat' split) <;> simp)

@[simp] theorem execSqEntryFetch_frame (μ : Nat) (hm : 2655034 ||| μ = μ) (f : Fn) (q : Nat) (got : HostRead) (s : State) : forgetO μ s (execSqEntryFetch f q got s) = forget μ s := widenO (a := 2655034) hm (by
  unfold execSqEntryFetch
  repeat' (first | with_reducible rfl | simp only [↓acceptEntry_frame, ↓modQueue_frame, ↓queueError_frame, ite_self, forgetO_next, forgetO_ite, Nat.reduceOr] | (refine Eq.trans (forget_foldS _ _ (fun _ _ => ?_) _ _) ?_) | (refine Eq.trans (congrArg (forget _) (congrArg Prod.snd ‹_ = (_, _)›).symm) ?_) | (refine Eq.trans (operandRead_frame _ (by first | decide | exact or_trans rfl hm) _ _ _ _ _ ‹_›) ?_) | simp only [Option.getD] | split | dsimp only))

@[simp] theorem execPtmRequest_frame (μ : Nat) (hm : 300 ||| μ = μ) (half : Nat) (s : State) : forgetO μ s (execPtmRequest half s) = forget μ s := widenO (a := 300) hm (by
  unfold execPtmRequest
  simp)

@[simp] theorem execPageRequestTimeout_frame (μ : Nat) (hm : 2130690 ||| μ = μ) (f : Fn) (q : Nat) (s : State) : forgetO μ s (execPageRequestTimeout f q s) = forget μ s := widenO (a := 2130690) hm (by
  unfold execPageRequestTimeout
  (repeat' split) <;> simp)

@[simp] theorem execAtsInvalidation_frame (μ : Nat) (hm : 260 ||| μ = μ) (f : Fn) (pasid : Option Nat) (page : Nat) (count : Nat) (s : State) : forgetO μ s (execAtsInvalidation f pasid page count s) = forget μ s := widenO (a := 260) hm (by
  unfold execAtsInvalidation
  repeat' (first | with_reducible rfl | simp only [↓modHif_frame, ↓askTranslations_frame, ↓emit_frame, forget_ite, ite_self, forgetO_next, Nat.reduceOr] | (refine Eq.trans (forget_foldS _ _ (fun _ _ => ?_) _ _) ?_) | (refine Eq.trans (congrArg (forget _) (congrArg Prod.snd ‹_ = (_, _)›).symm) ?_) | split | dsimp only))

@[simp] theorem execQuarantineEnd_frame (μ : Nat) (hm : 33026 ||| μ = μ) (slot : Nat) (s : State) : forgetO μ s (execQuarantineEnd slot s) = forget μ s := widenO (a := 33026) hm (by
  unfold execQuarantineEnd
  (repeat' split) <;> simp)

@[simp] theorem execConfigRead_frame (μ : Nat) (hm : 300 ||| μ = μ) (f : Fn) (off : Nat) (s : State) : forgetO μ s (execConfigRead f off s) = forget μ s := widenO (a := 300) hm (by
  unfold execConfigRead
  (repeat' split) <;> simp)

end Sys2Proof.Machine
end

