-- ==== Sys2Proof/Laws/FrameRelOps.lean ====
section
/-!
SUPPORT. Frames of the operations of Machine/RelOps.lean: the parts of the state that each can change.
-/
namespace Sys2Proof.Machine
set_option linter.all false

@[simp] theorem modUnit_frame (μ : Nat) (hm : 131072 ||| μ = μ) (kind : Nat) (index : Nat) (g : RelUnit → RelUnit) (s : State) : forget μ (modUnit kind index g s) = forget μ s := widen (a := 131072) hm (by
  unfold modUnit
  simp)

@[simp] theorem newEpoch_frame (μ : Nat) (hm : 131072 ||| μ = μ) (kind : Nat) (index : Nat) (s : State) : forget μ (newEpoch kind index s) = forget μ s := widen (a := 131072) hm (by
  unfold newEpoch
  simp)

@[simp] theorem faultMode_frame (μ : Nat) (hm : 2097812 ||| μ = μ) (s : State) : forget μ (faultMode s) = forget μ s := widen (a := 2097812) hm (by
  unfold faultMode
  (repeat' split) <;> simp)

@[simp] theorem mcLog_frame (μ : Nat) (hm : 131072 ||| μ = μ) (cls : Nat) (kind : Nat) (index : Nat) (spare : Nat) (epoch : Nat) (addr : Nat) (value : Nat) (s : State) : forget μ (mcLog cls kind index spare epoch addr value s) = forget μ s := widen (a := 131072) hm (by
  unfold mcLog
  simp)

@[simp] theorem relEvent_frame (μ : Nat) (hm : 2097664 ||| μ = μ) (code : Nat) (kind : Nat) (index : Nat) (s : State) : forget μ (relEvent code kind index s) = forget μ s := widen (a := 2097664) hm (by
  unfold relEvent
  simp)

@[simp] theorem spareExhausted_frame (μ : Nat) (hm : 2228736 ||| μ = μ) (kind : Nat) (index : Nat) (s : State) : forget μ (spareExhausted kind index s) = forget μ s := widen (a := 2228736) hm (by
  unfold spareExhausted
  simp)

@[simp] theorem retireSpare_frame (μ : Nat) (hm : 2228736 ||| μ = μ) (kind : Nat) (index : Nat) (s : State) : forget μ (retireSpare kind index s) = forget μ s := widen (a := 2228736) hm (by
  unfold retireSpare
  simp)

theorem takePage_frame (μ : Nat) (hm : 16384 ||| μ = μ) (s : State) (z : State) (e : takePage s = some z) : forget μ z = forget μ s := widen (a := 16384) hm (by
  revert e
  unfold takePage
  repeat' (first | (intro e; cases e; done) | (intro e; cases e; repeat' (first | with_reducible rfl | simp only [↓modTm_frame, Nat.reduceOr] | (refine Eq.trans (forget_foldS _ _ (fun _ _ => ?_) _ _) ?_) | (refine Eq.trans (congrArg (forget _) (congrArg Prod.snd ‹_ = (_, _)›).symm) ?_) | split | dsimp only)) | (intro e; obtain ⟨_, _, rfl⟩ := Option.map_eq_some_iff.mp e; repeat' (first | with_reducible rfl | simp only [↓modTm_frame, Nat.reduceOr] | (refine Eq.trans (forget_foldS _ _ (fun _ _ => ?_) _ _) ?_) | (refine Eq.trans (congrArg (forget _) (congrArg Prod.snd ‹_ = (_, _)›).symm) ?_) | split | dsimp only)) | split | dsimp only))

@[simp] theorem fatalCheck_frame (μ : Nat) (hm : 16777148 ||| μ = μ) (kind : Nat) (index : Nat) (s : State) : forget μ (fatalCheck kind index s) = forget μ s := widen (a := 16777148) hm (by
  unfold fatalCheck
  simp)

@[simp] theorem lastingRow_frame (μ : Nat) (hm : 16777148 ||| μ = μ) (kind : Nat) (index : Nat) (row : Nat) (value : Nat) (s : State) : forget μ (lastingRow kind index row value s) = forget μ s := widen (a := 16777148) hm (by
  unfold lastingRow
  repeat' (first | with_reducible rfl | simp only [↓modRel_frame, ↓spareExhausted_frame, ↓mcLog_frame, ↓relEvent_frame, ↓modTm_frame, ↓fatalCheck_frame, forget_ite, ite_self, Nat.reduceOr] | (refine Eq.trans (forget_foldS _ _ (fun _ _ => ?_) _ _) ?_) | (refine Eq.trans (congrArg (forget _) (congrArg Prod.snd ‹_ = (_, _)›).symm) ?_) | (refine Eq.trans (takePage_frame _ (by first | decide | exact or_trans rfl hm) _ _ ‹_›) ?_) | simp only [Option.getD] | split | dsimp only))

@[simp] theorem countRow_frame (μ : Nat) (hm : 16777148 ||| μ = μ) (kind : Nat) (index : Nat) (row : Nat) (recheck : Bool) (s : State) : forget μ (countRow kind index row recheck s) = forget μ s := widen (a := 16777148) hm (by
  unfold countRow
  simp)

@[simp] theorem modeAfterSpares_frame (μ : Nat) (hm : 2097812 ||| μ = μ) (s : State) : forget μ (modeAfterSpares s) = forget μ s := widen (a := 2097812) hm (by
  unfold modeAfterSpares
  (repeat' split) <;> simp)

@[simp] theorem setEngaged_frame (μ : Nat) (hm : 2228884 ||| μ = μ) (kind : Nat) (n : Nat) (s : State) : forget μ (setEngaged kind n s) = forget μ s := widen (a := 2228884) hm (by
  unfold setEngaged
  simp)

@[simp] theorem lastingCopy_frame (μ : Nat) (hm : 16777148 ||| μ = μ) (kind : Nat) (index : Nat) (value : Nat) (s : State) : forget μ (lastingCopy kind index value s) = forget μ s := widen (a := 16777148) hm (by
  unfold lastingCopy
  simp)

@[simp] theorem rerunPair_frame (μ : Nat) (hm : 20480 ||| μ = μ) (p : Nat) (s : State) : forget μ (rerunPair p s) = forget μ s := widen (a := 20480) hm (by
  unfold rerunPair
  repeat' (first | with_reducible rfl | simp only [↓modPrs_frame, ↓modFrame_frame, Nat.reduceOr] | (refine Eq.trans (forget_foldS _ _ (fun _ _ => ?_) _ _) ?_) | (refine Eq.trans (congrArg (forget _) (congrArg Prod.snd ‹_ = (_, _)›).symm) ?_) | split | dsimp only))

@[simp] theorem takeBack_frame (μ : Nat) (hm : 610304 ||| μ = μ) (kind : Nat) (index : Nat) (s : State) : forget μ (takeBack kind index s) = forget μ s := widen (a := 610304) hm (by
  unfold takeBack
  (repeat' split) <;> simp)

@[simp] theorem retire_frame (μ : Nat) (hm : 741376 ||| μ = μ) (kind : Nat) (index : Nat) (value : Nat) (s : State) : forget μ (retire kind index value s) = forget μ s := widen (a := 741376) hm (by
  unfold retire
  simp)

@[simp] theorem countUnit_frame (μ : Nat) (hm : 16777148 ||| μ = μ) (kind : Nat) (index : Nat) (recheck : Bool) (s : State) : forget μ (countUnit kind index recheck s) = forget μ s := widen (a := 16777148) hm (by
  unfold countUnit
  simp)

@[simp] theorem countFault_frame (μ : Nat) (hm : 16777148 ||| μ = μ) (kind : Nat) (index : Nat) (row : Nat) (recheck : Bool) (s : State) : forget μ (countFault kind index row recheck s) = forget μ s := widen (a := 16777148) hm (by
  unfold countFault
  simp)

@[simp] theorem poisonLine_frame (μ : Nat) (hm : 2228752 ||| μ = μ) (hbm : Bool) (line : Nat) (index : Nat) (s : State) : forget μ (poisonLine hbm line index s) = forget μ s := widen (a := 2228752) hm (by
  unfold poisonLine
  simp)

@[simp] theorem setPower_frame (μ : Nat) (hm : 128 ||| μ = μ) (kind : Nat) (index : Nat) (d : DomainSt) (s : State) : forget μ (setPower kind index d s) = forget μ s := widen (a := 128) hm (by
  unfold setPower
  (repeat' split) <;> simp)

end Sys2Proof.Machine
end

