-- ==== Sys2Proof/Laws/FrameDmv.lean ====
section
/-!
SUPPORT. Frames of the operations of Machine/Dmv.lean: the parts of the state that each can change.
-/
namespace Sys2Proof.Machine
set_option linter.all false

@[simp] theorem mvResult_frame (μ : Nat) (hm : 16 ||| μ = μ) (p : Path) (r : Nat) (s : State) : forget μ (mvResult p r s) = forget μ s := widen (a := 16) hm (by
  unfold mvResult
  simp)

@[simp] theorem modChan_frame (μ : Nat) (hm : 1048576 ||| μ = μ) (ch : Nat) (g : MvChan → MvChan) (s : State) : forget μ (modChan ch g s) = forget μ s := widen (a := 1048576) hm (by
  unfold modChan
  simp)

@[simp] theorem jobDone_frame (μ : Nat) (hm : 36700672 ||| μ = μ) (ch : Nat) (j : Job) (status : Nat) (s : State) : forget μ (jobDone ch j status s) = forget μ s := widen (a := 36700672) hm (by
  unfold jobDone
  (repeat' split) <;> simp)

@[simp] theorem mvChannelStart_frame (μ : Nat) (hm : 37224976 ||| μ = μ) (p : Path) (ch : Nat) (s : State) : forget μ (mvChannelStart p ch s) = forget μ s := widen (a := 37224976) hm (by
  unfold mvChannelStart
  simp)

@[simp] theorem mvChannelAbort_frame (μ : Nat) (hm : 36700688 ||| μ = μ) (p : Path) (ch : Nat) (s : State) : forget μ (mvChannelAbort p ch s) = forget μ s := widen (a := 36700688) hm (by
  unfold mvChannelAbort
  repeat' (first | with_reducible rfl | simp only [↓mvResult_frame, ↓jobDone_frame, ↓modChan_frame, forget_ite, Nat.reduceOr] | (refine Eq.trans (forget_foldS _ _ (fun _ _ => ?_) _ _) ?_) | (refine Eq.trans (congrArg (forget _) (congrArg Prod.snd ‹_ = (_, _)›).symm) ?_) | split | dsimp only))

@[simp] theorem mvTick_frame (μ : Nat) (hm : 1048576 ||| μ = μ) (s : State) : forget μ (mvTick s).2 = forget μ s := widen (a := 1048576) hm (by
  unfold mvTick
  simp)

@[simp] theorem mvWait_frame (μ : Nat) (hm : 1048576 ||| μ = μ) (ch : Nat) (s : State) : forget μ (mvWait ch s) = forget μ s := widen (a := 1048576) hm (by
  unfold mvWait
  simp)

@[simp] theorem mvChannelResume_frame (μ : Nat) (hm : 1048592 ||| μ = μ) (p : Path) (ch : Nat) (s : State) : forget μ (mvChannelResume p ch s) = forget μ s := widen (a := 1048592) hm (by
  unfold mvChannelResume
  simp)

@[simp] theorem busError_frame (μ : Nat) (hm : 36700688 ||| μ = μ) (ch : Nat) (cause : Nat) (addr : Nat) (write : Bool) (flush : Bool) (device : Bool) (s : State) : forget μ (busError ch cause addr write flush device s) = forget μ s := widen (a := 36700688) hm (by
  unfold busError
  repeat' (first | with_reducible rfl | simp only [↓jobDone_frame, ↓bump_frame, ↓modChan_frame, ↓raise_frame, forget_ite, ite_self, Nat.reduceOr] | (refine Eq.trans (forget_foldS _ _ (fun _ _ => ?_) _ _) ?_) | (refine Eq.trans (congrArg (forget _) (congrArg Prod.snd ‹_ = (_, _)›).symm) ?_) | split | dsimp only))

theorem mvReads_frame (μ : Nat) (hm : 2130746 ||| μ = μ) (j : Job) (k : Nat) (off : Nat) (n : Option Nat) (host : HostRead) (next : State → State) (s : State) (h_next : ∀ v0, forget μ (next v0) = forget μ v0) : forget μ (mvReads j k off n host next s) = forget μ s := by
  unfold mvReads
  repeat' (first | with_reducible rfl | simp only [forget_ite, h_next] | (refine Eq.trans (withRead_frame _ (by first | decide | exact or_trans rfl hm) _ _ _ _ _ (fun _ => ?_)) ?_) | (refine Eq.trans (forget_foldS _ _ (fun _ _ => ?_) _ _) ?_) | (refine Eq.trans (congrArg (forget _) (congrArg Prod.snd ‹_ = (_, _)›).symm) ?_) | split | dsimp only)

@[simp] theorem mvBlur_frame (μ : Nat) (hm : 8 ||| μ = μ) (s : State) (j : Job) (dev : Bool) (a : Nat) (bs : Bytes) :
    forget μ (mvBlur s j dev a bs).2 = forget μ s := by
  have h (c : Nat → Bool) : ∀ (l : List (Byte × Nat)) (acc : Bytes × State), forget μ (l.foldl (fun acc e =>
      if c e.2 then ((acc.1 ++ [(freeByte acc.2).1], (freeByte acc.2).2) : Bytes × State) else (acc.1 ++ [e.1], acc.2)) acc).2 = forget μ acc.2 := by
    intro l
    induction l with
    | nil => intro acc; rfl
    | cons e t ih =>
      intro acc
      refine (ih _).trans ?_
      dsimp only
      split
      · exact freeByte_frame μ (or_trans rfl hm) _
      · rfl
  unfold mvBlur
  extract_lets spans inside
  refine Eq.trans ?_ (h (fun k => inside (a + k)) bs.zipIdx ([], s))
  rfl

@[simp] theorem mvChoose_frame (μ : Nat) (hm : 8 ||| μ = μ) (j : Job) (i : Nat) (bs : Bytes) (s : State) : forget μ (mvChoose j i bs s).2 = forget μ s := widen (a := 8) hm (by
  unfold mvChoose
  repeat' (first | with_reducible rfl | simp only [↓takeFree_frame, Nat.reduceOr] | split))

@[simp] theorem mvWritePiece_frame (μ : Nat) (hm : 10617100 ||| μ = μ) (j : Job) (i : Nat) (off : Nat) (bs : Bytes) (s : State) : forget μ (mvWritePiece j i off bs s).2 = forget μ s := widen (a := 10617100) hm (by
  unfold mvWritePiece
  repeat' (first | with_reducible rfl | simp only [↓mvChoose_frame, ↓mvBlur_frame, ↓devWrite_frame, ↓payloadWrite_frame, Nat.reduceOr] | split))

@[simp] theorem jobWritten_frame (μ : Nat) (hm : 1048576 ||| μ = μ) (ch : Nat) (status : Nat) (s : State) : forget μ (jobWritten ch status s) = forget μ s := widen (a := 1048576) hm (by
  unfold jobWritten
  simp)

@[simp] theorem mvAdvance_frame (μ : Nat) (hm : 45220636 ||| μ = μ) (ch : Nat) (j : Job) (ps : List (Option (Nat × Bytes))) :
    ∀ (n i : Nat) (s : State), forget μ (mvAdvance ch j ps n i s) = forget μ s
  | 0, i, s => modChan_frame μ (or_trans rfl hm) _ _ _
  | n + 1, i, s => by
    have a (g : MvChan → MvChan) (t : State) : forget μ (modChan ch g t) = forget μ t := modChan_frame μ (or_trans rfl hm) _ _ _
    have b (x : Nat) (t : State) : forget μ (jobWritten ch x t) = forget μ t := jobWritten_frame μ (or_trans rfl hm) _ _ _
    unfold mvAdvance
    dsimp only
    split
    · rw [b, a]
    · split
      · rw [b, a]
      · split
        · rw [b, a]
        · split
          · exact (busError_frame μ (or_trans rfl hm) _ _ _ _ _ _ _).trans ((bump_frame μ (or_trans rfl hm) _ _ _ _ _).trans (a _ _))
          · split
            · split
              · rw [b, a]
                exact mvWritePiece_frame μ (or_trans rfl hm) _ _ _ _ _
              · exact (mvAdvance_frame μ hm ch j ps n _ _).trans (mvWritePiece_frame μ (or_trans rfl hm) _ _ _ _ _)
            · rw [b, a]

@[simp] theorem mvWork_frame (μ : Nat) (hm : 45253438 ||| μ = μ) (op : Nat) (ch : Nat) (n : Nat) (src : HostRead) (idx : HostRead) (s : State) : forget μ (mvWork op ch n src idx s) = forget μ s := widen (a := 45253438) hm (by
  unfold mvWork
  repeat' (first | with_reducible rfl | simp only [↓mvAdvance_frame, ↓busError_frame, ↓modChan_frame, forget_ite, Nat.reduceOr] | (refine Eq.trans (mvReads_frame _ (by first | decide | exact or_trans rfl hm) _ _ _ _ _ _ _ (fun _ => ?_)) ?_) | (refine Eq.trans (forget_foldS _ _ (fun _ _ => ?_) _ _) ?_) | (refine Eq.trans (congrArg (forget _) (congrArg Prod.snd ‹_ = (_, _)›).symm) ?_) | split | dsimp only))

@[simp] theorem execFromPlanes_frame (μ : Nat) (hm : 45253438 ||| μ = μ) (ch : Nat) (n : Nat) (src : HostRead) (s : State) : forgetO μ s (execFromPlanes ch n src s) = forget μ s := widenO (a := 45253438) hm (by
  unfold execFromPlanes
  simp)

@[simp] theorem execBusError_frame (μ : Nat) (hm : 36700688 ||| μ = μ) (ch : Nat) (cause : Nat) (addr : Nat) (write : Bool) (flush : Bool) (device : Bool) (s : State) : forgetO μ s (execBusError ch cause addr write flush device s) = forget μ s := widenO (a := 36700688) hm (by
  unfold execBusError
  simp)

@[simp] theorem execInterleave_frame (μ : Nat) (hm : 45253438 ||| μ = μ) (ch : Nat) (n : Nat) (src : HostRead) (s : State) : forgetO μ s (execInterleave ch n src s) = forget μ s := widenO (a := 45253438) hm (by
  unfold execInterleave
  simp)

@[simp] theorem jobReaches_frame (μ : Nat) (hm : 1048576 ||| μ = μ) (ch : Nat) (j : Job) (s : State) : forget μ (jobReaches ch j s) = forget μ s := widen (a := 1048576) hm (by
  unfold jobReaches
  simp)

@[simp] theorem mvRun_frame (μ : Nat) (hm : 1048576 ||| μ = μ) (ch : Nat) (m : Nat) (s : State) : forget μ (mvRun ch m s) = forget μ s := widen (a := 1048576) hm (by
  unfold mvRun
  simp)

@[simp] theorem execMoverAssign_frame (μ : Nat) (hm : 1048592 ||| μ = μ) (s : State) : forgetO μ s (execMoverAssign s) = forget μ s := widenO (a := 1048592) hm (by
  unfold execMoverAssign
  repeat' (first | with_reducible rfl | simp only [↓jobWritten_frame, ↓mvRun_frame, ↓mvWait_frame, ↓modChan_frame, ↓bump_frame, ite_self, forgetO_next, forgetO_ite, Nat.reduceOr] | split))

@[simp] theorem execTrackerGrant_frame (μ : Nat) (hm : 3670528 ||| μ = μ) (s : State) : forgetO μ s (execTrackerGrant s) = forget μ s := widenO (a := 3670528) hm (by
  unfold execTrackerGrant
  repeat' (first | with_reducible rfl | simp only [↓modSto_frame, ↓trkHigh_frame, ↓mvWait_frame, ↓modChan_frame, ↓modWork_frame, ↓jobReaches_frame, ite_self, forgetO_next, forgetO_ite, Nat.reduceOr] | split))

@[simp] theorem execScatter_frame (μ : Nat) (hm : 45253438 ||| μ = μ) (ch : Nat) (n : Nat) (src : HostRead) (idx : HostRead) (s : State) : forgetO μ s (execScatter ch n src idx s) = forget μ s := widenO (a := 45253438) hm (by
  unfold execScatter
  simp)

@[simp] theorem execJobComplete_frame (μ : Nat) (hm : 36733754 ||| μ = μ) (ch : Nat) (flush : HostRead) (s : State) : forgetO μ s (execJobComplete ch flush s) = forget μ s := widenO (a := 36733754) hm (by
  unfold execJobComplete
  repeat' (first | with_reducible rfl | simp only [↓jobDone_frame, ↓modChan_frame, ↓bump_frame, ↓busError_frame, forgetO_next, forgetO_ite, Nat.reduceOr] | (refine Eq.trans (withRead_frame _ (by first | decide | exact or_trans rfl hm) _ _ _ _ _ (fun _ => ?_)) ?_) | (refine Eq.trans (forget_foldS _ _ (fun _ _ => ?_) _ _) ?_) | (refine Eq.trans (congrArg (forget _) (congrArg Prod.snd ‹_ = (_, _)›).symm) ?_) | split | dsimp only))

@[simp] theorem execToPlanes_frame (μ : Nat) (hm : 45253438 ||| μ = μ) (ch : Nat) (n : Nat) (src : HostRead) (s : State) : forgetO μ s (execToPlanes ch n src s) = forget μ s := widenO (a := 45253438) hm (by
  unfold execToPlanes
  simp)

@[simp] theorem execDeinterleave_frame (μ : Nat) (hm : 45253438 ||| μ = μ) (ch : Nat) (n : Nat) (src : HostRead) (s : State) : forgetO μ s (execDeinterleave ch n src s) = forget μ s := widenO (a := 45253438) hm (by
  unfold execDeinterleave
  simp)

@[simp] theorem execGather_frame (μ : Nat) (hm : 45253438 ||| μ = μ) (ch : Nat) (n : Nat) (src : HostRead) (idx : HostRead) (s : State) : forgetO μ s (execGather ch n src idx s) = forget μ s := widenO (a := 45253438) hm (by
  unfold execGather
  simp)

@[simp] theorem execFill_frame (μ : Nat) (hm : 45253438 ||| μ = μ) (ch : Nat) (n : Nat) (s : State) : forgetO μ s (execFill ch n s) = forget μ s := widenO (a := 45253438) hm (by
  unfold execFill
  simp)

@[simp] theorem execCopy_frame (μ : Nat) (hm : 45253438 ||| μ = μ) (ch : Nat) (n : Nat) (src : HostRead) (s : State) : forgetO μ s (execCopy ch n src s) = forget μ s := widenO (a := 45253438) hm (by
  unfold execCopy
  simp)

end Sys2Proof.Machine
end

