-- ==== Sys2Proof/Laws/FrameLcsOps.lean ====
section
/-!
SUPPORT. Frames of the operations of Machine/LcsOps.lean: the parts of the state that each can change.
-/
namespace Sys2Proof.Machine
set_option linter.all false

@[simp] theorem lcsEvent_frame (μ : Nat) (hm : 2097664 ||| μ = μ) (code : Nat) (detail : Nat) (s : State) : forget μ (lcsEvent code detail s) = forget μ s := widen (a := 2097664) hm (by
  unfold lcsEvent
  simp)

@[simp] theorem sealRegion_frame (μ : Nat) (hm : 262148 ||| μ = μ) (b : Nat) (xs : List SettingsBlock) (s : State) : forget μ (sealRegion b xs s) = forget μ s := widen (a := 262148) hm (by
  unfold sealRegion
  repeat' (first | with_reducible rfl | simp only [↓emit_frame, Nat.reduceOr] | (refine Eq.trans (forget_foldS _ _ (fun _ _ => ?_) _ _) ?_) | (refine Eq.trans (congrArg (forget _) (congrArg Prod.snd ‹_ = (_, _)›).symm) ?_) | (refine Eq.trans (modLcs_frame _ (by decide) _ _ (fun _ => ?_)) ?_) | (show fuses _ = fuses _; first | rfl | (split <;> rfl)) | simp only [Option.getD] | split | dsimp only))

@[simp] theorem migrateSettings_frame (μ : Nat) (hm : 2359812 ||| μ = μ) (bs : Bytes) (bank : Nat) (s : State) : forget μ (migrateSettings bs bank s) = forget μ s := widen (a := 2359812) hm (by
  unfold migrateSettings
  repeat' (first | with_reducible rfl | simp only [↓sealRegion_frame, ↓lcsEvent_frame, forget_ite, ite_self, Nat.reduceOr] | (refine Eq.trans (forget_foldS _ _ (fun _ _ => ?_) _ _) ?_) | (refine Eq.trans (congrArg (forget _) (congrArg Prod.snd ‹_ = (_, _)›).symm) ?_) | (refine Eq.trans (modLcs_frame _ (by decide) _ _ (fun _ => ?_)) ?_) | (show fuses _ = fuses _; first | rfl | (split <;> rfl)) | simp only [Option.getD] | split | dsimp only))

@[simp] theorem writeDir_frame (μ : Nat) (hm : 262148 ||| μ = μ) (active : Nat) (committed : Bool) (s : State) : forget μ (writeDir active committed s) = forget μ s := widen (a := 262148) hm (by
  unfold writeDir
  repeat' (first | with_reducible rfl | simp only [↓emit_frame, Nat.reduceOr] | (refine Eq.trans (forget_foldS _ _ (fun _ _ => ?_) _ _) ?_) | (refine Eq.trans (congrArg (forget _) (congrArg Prod.snd ‹_ = (_, _)›).symm) ?_) | (refine Eq.trans (modLcs_frame _ (by decide) _ _ (fun _ => ?_)) ?_) | (show fuses _ = fuses _; first | rfl | (split <;> rfl)) | simp only [Option.getD] | split | dsimp only))

@[simp] theorem closeDebug_frame (μ : Nat) (hm : 2359808 ||| μ = μ) (s : State) : forget μ (closeDebug s) = forget μ s := widen (a := 2359808) hm (by
  unfold closeDebug
  repeat' (first | with_reducible rfl | simp only [↓lcsEvent_frame, Nat.reduceOr] | (refine Eq.trans (forget_foldS _ _ (fun _ _ => ?_) _ _) ?_) | (refine Eq.trans (congrArg (forget _) (congrArg Prod.snd ‹_ = (_, _)›).symm) ?_) | (refine Eq.trans (modLcs_frame _ (by decide) _ _ (fun _ => ?_)) ?_) | (show fuses _ = fuses _; first | rfl | (split <;> rfl)) | simp only [Option.getD] | split | dsimp only))

@[simp] theorem writeBank_frame (μ : Nat) (hm : 262148 ||| μ = μ) (b : Nat) (bs : Bytes) (s : State) : forget μ (writeBank b bs s) = forget μ s := widen (a := 262148) hm (by
  unfold writeBank
  repeat' (first | with_reducible rfl | simp only [↓emit_frame, Nat.reduceOr] | (refine Eq.trans (forget_foldS _ _ (fun _ _ => ?_) _ _) ?_) | (refine Eq.trans (congrArg (forget _) (congrArg Prod.snd ‹_ = (_, _)›).symm) ?_) | (refine Eq.trans (modLcs_frame _ (by decide) _ _ (fun _ => ?_)) ?_) | (show fuses _ = fuses _; first | rfl | (split <;> rfl)) | simp only [Option.getD] | split | dsimp only))

@[simp] theorem readFlash_frame (μ : Nat) (hm : 262144 ||| μ = μ) (boot : BootInput) (s : State) : forget μ (readFlash boot s) = forget μ s := widen (a := 262144) hm (by
  unfold readFlash
  repeat' (first | with_reducible rfl | simp only [forget_ite] | (refine Eq.trans (forget_foldS _ _ (fun _ _ => ?_) _ _) ?_) | (refine Eq.trans (congrArg (forget _) (congrArg Prod.snd ‹_ = (_, _)›).symm) ?_) | (refine Eq.trans (modLcs_frame _ (by decide) _ _ (fun _ => ?_)) ?_) | (show fuses _ = fuses _; first | rfl | (split <;> rfl)) | simp only [Option.getD] | split | dsimp only))

@[simp] theorem zeroRegions_frame (μ : Nat) (hm : 262148 ||| μ = μ) (s : State) : forget μ (zeroRegions s) = forget μ s := widen (a := 262148) hm (by
  unfold zeroRegions
  repeat' (first | with_reducible rfl | simp only [↓emit_frame, Nat.reduceOr] | (refine Eq.trans (forget_foldS _ _ (fun _ _ => ?_) _ _) ?_) | (refine Eq.trans (congrArg (forget _) (congrArg Prod.snd ‹_ = (_, _)›).symm) ?_) | (refine Eq.trans (modLcs_frame _ (by decide) _ _ (fun _ => ?_)) ?_) | (show fuses _ = fuses _; first | rfl | (split <;> rfl)) | simp only [Option.getD] | split | dsimp only))

@[simp] theorem zeroise_frame (μ : Nat) (hm : 27734788 ||| μ = μ) (s : State) : forget μ (zeroise s) = forget μ s := by
  have b := bit_of_or hm
  unfold zeroise
  dsimp only
  refine (lcsEvent_frame μ (or_trans rfl hm) _ _ _).trans ((closeDebug_frame μ (or_trans rfl hm) _).trans ((modLcs_frame_all μ (or_trans rfl hm) _ _).trans
    ((zeroRegions_frame μ (or_trans rfl hm) _).trans ?_)))
  simp only [forget, b 2 rfl, b 8 rfl, b 9 rfl, b 12 rfl, b 13 rfl, b 16 rfl, b 17 rfl, b 18 rfl, b 21 rfl, b 23 rfl, b 24 rfl, if_true]

end Sys2Proof.Machine
end

