-- ==== Sys2Proof/Laws/FrameStoOps.lean ====
section
/-!
SUPPORT. Frames of the operations of Machine/StoOps.lean: the parts of the state that each can change.
-/
namespace Sys2Proof.Machine
set_option linter.all false

@[simp] theorem modNvme_frame (μ : Nat) (hm : 524288 ||| μ = μ) (f : Fn) (g : Nvme → Nvme) (s : State) : forget μ (modNvme f g s) = forget μ s := widen (a := 524288) hm (by
  unfold modNvme
  simp)

@[simp] theorem nvWriteCqe_frame (μ : Nat) (hm : 524548 ||| μ = μ) (f : Fn) (cq : Nat) (c : NCq) (dws : List Nat) (s : State) : forget μ (nvWriteCqe f cq c dws s) = forget μ s := widen (a := 524548) hm (by
  unfold nvWriteCqe
  simp)

@[simp] theorem nvDrain_frame (μ : Nat) (hm : 524548 ||| μ = μ) (f : Fn) (cq : Nat) (x30 : List (List Nat)) (x54 : State) : forget μ (nvDrain f cq x30 x54) = forget μ x54 := widen (a := 524548) hm (by
  fun_induction nvDrain f cq x30 x54
  all_goals repeat' (first | with_reducible rfl | simp only [↓modNvme_frame, ↓nvWriteCqe_frame, Nat.reduceOr, *] | (refine Eq.trans (forget_foldS _ _ (fun _ _ => ?_) _ _) ?_) | (refine Eq.trans (congrArg (forget _) (congrArg Prod.snd ‹_ = (_, _)›).symm) ?_) | split | dsimp only))

@[simp] theorem nvShutCheck_frame (μ : Nat) (hm : 524288 ||| μ = μ) (f : Fn) (s : State) : forget μ (nvShutCheck f s) = forget μ s := widen (a := 524288) hm (by
  unfold nvShutCheck
  simp)

@[simp] theorem nvComplete_frame (μ : Nat) (hm : 34078980 ||| μ = μ) (f : Fn) (no : Nat) (st : Nat) (dw0 : Nat) (s : State) : forget μ (nvComplete f no st dw0 s) = forget μ s := widen (a := 34078980) hm (by
  unfold nvComplete
  repeat' (first | with_reducible rfl | simp only [↓modNvme_frame, ↓worked_frame, ↓nvShutCheck_frame, ↓nvDrain_frame, forget_ite, ite_self, Nat.reduceOr] | split))

@[simp] theorem nvAen_frame (μ : Nat) (hm : 34078980 ||| μ = μ) (f : Fn) (dw0 : Nat) (s : State) : forget μ (nvAen f dw0 s) = forget μ s := widen (a := 34078980) hm (by
  unfold nvAen
  repeat' (first | with_reducible rfl | simp only [↓modNvme_frame, ↓nvComplete_frame, forget_ite, ite_self, Nat.reduceOr] | split))

@[simp] theorem modConn_frame (μ : Nat) (hm : 524288 ||| μ = μ) (c : Nat) (g : Conn → Conn) (s : State) : forget μ (modConn c g s) = forget μ s := widen (a := 524288) hm (by
  unfold modConn
  simp)

@[simp] theorem seqTx_frame (μ : Nat) (hm : 524288 ||| μ = μ) (c : Nat) (n : Nat) (s : State) : forget μ (seqTx c n s) = forget μ s := widen (a := 524288) hm (by
  unfold seqTx
  simp)

@[simp] theorem cxSend_frame (μ : Nat) (hm : 524308 ||| μ = μ) (c : Nat) (i : CxItem) (s : State) : forget μ (cxSend c i s) = forget μ s := widen (a := 524308) hm (by
  unfold cxSend
  repeat' (first | with_reducible rfl | simp only [↓modSto_frame, ↓modConn_frame, ↓bump_frame, ↓modNvme_frame, ↓emit_frame, ↓seqTx_frame, forget_ite, ite_self, Nat.reduceOr] | split))

@[simp] theorem cxPump_frame (μ : Nat) (hm : 524308 ||| μ = μ) (c : Nat) (x10 : Nat) (x22 : State) : forget μ (cxPump c x10 x22) = forget μ x22 := widen (a := 524308) hm (by
  fun_induction cxPump c x10 x22
  all_goals repeat' (first | with_reducible rfl | simp only [↓cxSend_frame, Nat.reduceOr, *] | (refine Eq.trans (forget_foldS _ _ (fun _ _ => ?_) _ _) ?_) | (refine Eq.trans (congrArg (forget _) (congrArg Prod.snd ‹_ = (_, _)›).symm) ?_) | split | dsimp only))

@[simp] theorem cxSendAll_frame (μ : Nat) (hm : 524308 ||| μ = μ) (c : Nat) (s : State) : forget μ (cxSendAll c s) = forget μ s := widen (a := 524308) hm (by
  unfold cxSendAll
  simp)

@[simp] theorem failover_frame (μ : Nat) (hm : 524308 ||| μ = μ) (c : Nat) (s : State) : forget μ (failover c s) = forget μ s := widen (a := 524308) hm (by
  unfold failover
  repeat' (first | with_reducible rfl | simp only [↓modSto_frame, ↓cxSendAll_frame, forget_ite, ite_self, Nat.reduceOr] | (refine Eq.trans (forget_foldS _ _ (fun _ _ => ?_) _ _) ?_) | (refine Eq.trans (congrArg (forget _) (congrArg Prod.snd ‹_ = (_, _)›).symm) ?_) | split | dsimp only))

@[simp] theorem opDone_frame (μ : Nat) (hm : 34079232 ||| μ = μ) (no : Nat) (status : Nat) (extra : Nat) (s : State) : forget μ (opDone no status extra s) = forget μ s := widen (a := 34079232) hm (by
  unfold opDone
  (repeat' split) <;> simp)

@[simp] theorem cxLose_frame (μ : Nat) (hm : 34079492 ||| μ = μ) (c : Nat) (s : State) : forget μ (cxLose c s) = forget μ s := widen (a := 34079492) hm (by
  unfold cxLose
  repeat' (first | with_reducible rfl | simp only [↓nvComplete_frame, ↓opDone_frame, forget_ite, ite_self, Nat.reduceOr] | (refine Eq.trans (forget_foldS _ _ (fun _ _ => ?_) _ _) ?_) | (refine Eq.trans (congrArg (forget _) (congrArg Prod.snd ‹_ = (_, _)›).symm) ?_) | split | dsimp only))

@[simp] theorem nvDisable_frame (μ : Nat) (hm : 524288 ||| μ = μ) (f : Fn) (s : State) : forget μ (nvDisable f s) = forget μ s := widen (a := 524288) hm (by
  unfold nvDisable
  simp)

theorem payloadFold_frame (μ : Nat) (hm : 260 ||| μ = μ) (f : Fn) (pasid : Option Nat) : ∀ (l : List (Nat × Nat)) (acc : Bytes × State),
    forget μ (l.foldl (fun (acc : Bytes × State) p => (acc.1.drop p.2, payloadWrite f pasid p.1 (acc.1.take p.2) acc.2)) acc).2 = forget μ acc.2
  | [], _ => rfl
  | p :: l, acc => (payloadFold_frame μ hm f pasid l _).trans (payloadWrite_frame μ (or_trans rfl hm) _ _ _ _ _)

theorem bufWrite_frame (μ : Nat) (hm : 260 ||| μ = μ) (f : Fn) (buf : List (Nat × Nat)) (off : Nat) (data : Bytes) (s : State) :
    forget μ (bufWrite f buf off data s) = forget μ s := payloadFold_frame μ (or_trans rfl hm) f none _ _

@[simp] theorem seqRx_frame (μ : Nat) (hm : 524288 ||| μ = μ) (c : Nat) (n : Nat) (s : State) : forget μ (seqRx c n s) = forget μ s := widen (a := 524288) hm (by
  unfold seqRx
  simp)

@[simp] theorem connFail_frame (μ : Nat) (hm : 2621972 ||| μ = μ) (c : Nat) (s : State) : forget μ (connFail c s) = forget μ s := widen (a := 2621972) hm (by
  unfold connFail
  simp)

end Sys2Proof.Machine
end

