-- ==== Sys2Proof/Laws/FrameSto.lean ====
section
/-!
SUPPORT. Frames of the operations of Machine/Sto.lean: the parts of the state that each can change.
-/
namespace Sys2Proof.Machine
set_option linter.all false

@[simp] theorem nsRead_frame (μ : Nat) (hm : 16 ||| μ = μ) (p : Path) (s : State) : forget μ (nsRead p s) = forget μ s := widen (a := 16) hm (by
  unfold nsRead
  repeat' (first | with_reducible rfl | simp only [↓setReg_frame, forget_ite, Nat.reduceOr] | (refine Eq.trans (forget_foldS _ _ (fun _ _ => ?_) _ _) ?_) | (refine Eq.trans (congrArg (forget _) (congrArg Prod.snd ‹_ = (_, _)›).symm) ?_) | split | dsimp only))

@[simp] theorem nsChanged_frame (μ : Nat) (hm : 34078980 ||| μ = μ) (ctrl : Nat) (nsid : Nat) (s : State) : forget μ (nsChanged ctrl nsid s) = forget μ s := widen (a := 34078980) hm (by
  unfold nsChanged
  (repeat' split) <;> simp)

@[simp] theorem nsWrite_frame (μ : Nat) (hm : 34078996 ||| μ = μ) (p : Path) (s : State) : forget μ (nsWrite p s) = forget μ s := widen (a := 34078996) hm (by
  unfold nsWrite
  simp)

@[simp] theorem cxResult_frame (μ : Nat) (hm : 16 ||| μ = μ) (p : Path) (r : Nat) (s : State) : forget μ (cxResult p r s) = forget μ s := widen (a := 16) hm (by
  unfold cxResult
  simp)

@[simp] theorem ctxDisable_frame (μ : Nat) (hm : 34079508 ||| μ = μ) (p : Path) (s : State) : forget μ (ctxDisable p s) = forget μ s := widen (a := 34079508) hm (by
  unfold ctxDisable
  simp)

@[simp] theorem ctxResume_frame (μ : Nat) (hm : 36176404 ||| μ = μ) (p : Path) (s : State) : forget μ (ctxResume p s) = forget μ s := widen (a := 36176404) hm (by
  unfold ctxResume
  repeat' (first | with_reducible rfl | simp only [↓cxResult_frame, ↓modConn_frame, ↓raise_frame, ↓opDone_frame, ↓modSto_frame, ↓cxSendAll_frame, forget_ite, ite_self, Nat.reduceOr] | (refine Eq.trans (forget_foldS _ _ (fun _ _ => ?_) _ _) ?_) | (refine Eq.trans (congrArg (forget _) (congrArg Prod.snd ‹_ = (_, _)›).symm) ?_) | split | dsimp only))

@[simp] theorem ctxRead_frame (μ : Nat) (hm : 16 ||| μ = μ) (p : Path) (s : State) : forget μ (ctxRead p s) = forget μ s := widen (a := 16) hm (by
  unfold ctxRead
  repeat' (first | with_reducible rfl | simp only [↓cxResult_frame, ↓setReg_frame, forget_ite, Nat.reduceOr] | (refine Eq.trans (forget_foldS _ _ (fun _ _ => ?_) _ _) ?_) | (refine Eq.trans (congrArg (forget _) (congrArg Prod.snd ‹_ = (_, _)›).symm) ?_) | split | dsimp only))

@[simp] theorem ctxWrite_frame (μ : Nat) (hm : 524304 ||| μ = μ) (p : Path) (s : State) : forget μ (ctxWrite p s) = forget μ s := widen (a := 524304) hm (by
  unfold ctxWrite
  simp)

@[simp] theorem nvBadDoorbell_frame (μ : Nat) (hm : 34078980 ||| μ = μ) (f : Fn) (info : Nat) (s : State) : forget μ (nvBadDoorbell f info s) = forget μ s := widen (a := 34078980) hm (by
  unfold nvBadDoorbell
  simp)

@[simp] theorem nvCqHead_frame (μ : Nat) (hm : 34078980 ||| μ = μ) (f : Fn) (q : Nat) (v : Nat) (s : State) : forget μ (nvCqHead f q v s) = forget μ s := widen (a := 34078980) hm (by
  unfold nvCqHead
  repeat' (first | with_reducible rfl | simp only [↓nvBadDoorbell_frame, ↓nvDrain_frame, ↓modNvme_frame, forget_ite, ite_self, Nat.reduceOr] | split))

@[simp] theorem nvSqTail_frame (μ : Nat) (hm : 34078980 ||| μ = μ) (f : Fn) (q : Nat) (v : Nat) (s : State) : forget μ (nvSqTail f q v s) = forget μ s := widen (a := 34078980) hm (by
  unfold nvSqTail
  repeat' (first | with_reducible rfl | simp only [↓nvBadDoorbell_frame, ↓modNvme_frame, forget_ite, ite_self, Nat.reduceOr] | split))

@[simp] theorem ccEnable_frame (μ : Nat) (hm : 524548 ||| μ = μ) (f : Fn) (cc : Nat) (s : State) : forget μ (ccEnable f cc s) = forget μ s := widen (a := 524548) hm (by
  unfold ccEnable
  simp)

@[simp] theorem shutdown_frame (μ : Nat) (hm : 524288 ||| μ = μ) (f : Fn) (s : State) : forget μ (shutdown f s) = forget μ s := widen (a := 524288) hm (by
  unfold shutdown
  simp)

@[simp] theorem modOp_frame (μ : Nat) (hm : 524288 ||| μ = μ) (no : Nat) (g : StoOp → StoOp) (s : State) : forget μ (modOp no g s) = forget μ s := widen (a := 524288) hm (by
  unfold modOp
  simp)

@[simp] theorem modCmd_frame (μ : Nat) (hm : 524288 ||| μ = μ) (f : Fn) (no : Nat) (g : NCmd → NCmd) (s : State) : forget μ (modCmd f no g s) = forget μ s := widen (a := 524288) hm (by
  unfold modCmd
  simp)

@[simp] theorem heard_frame (μ : Nat) (hm : 524288 ||| μ = μ) (ctx : Nat) (s : State) : forget μ (heard ctx s) = forget μ s := widen (a := 524288) hm (by
  unfold heard
  simp)

@[simp] theorem headerFailure_frame (μ : Nat) (hm : 2621972 ||| μ = μ) (ctx : Nat) (s : State) : forget μ (headerFailure ctx s) = forget μ s := widen (a := 2621972) hm (by
  unfold headerFailure
  simp)

@[simp] theorem execC2hData_frame (μ : Nat) (hm : 2622228 ||| μ = μ) (ctx : Nat) (wire : Nat) (off : Nat) (data : Bytes) (headerOk : Bool) (dataOk : Bool) (s : State) : forgetO μ s (execC2hData ctx wire off data headerOk dataOk s) = forget μ s := widenO (a := 2622228) hm (by
  unfold execC2hData
  repeat' (first | with_reducible rfl | simp only [↓headerFailure_frame, ↓heard_frame, ↓seqRx_frame, ↓modCmd_frame, ↓bump_frame, ↓bufWrite_frame, ↓payloadWrite_frame, ↓modOp_frame, ite_self, forgetO_next, forgetO_ite, Nat.reduceOr] | split))

theorem admin_frame (μ : Nat) (hm : 34078980 ||| μ = μ) (f : Fn) (op : Nat) (g : NCmd → State → State) (s : State) (h_g : ∀ v0 v1, forget μ (g v0 v1) = forget μ v1) : forget μ (admin f op g s) = forget μ s := by
  unfold admin
  repeat' (first | with_reducible rfl | simp only [↓(nvComplete_frame μ (or_trans (a := 34078980) (b := 34078980) rfl hm)), forget_ite, ite_self, h_g] | (refine Eq.trans (forget_foldS _ _ (fun _ _ => ?_) _ _) ?_) | (refine Eq.trans (congrArg (forget _) (congrArg Prod.snd ‹_ = (_, _)›).symm) ?_) | split | dsimp only)

@[simp] theorem execGetFeatures_frame (μ : Nat) (hm : 34078980 ||| μ = μ) (f : Fn) (s : State) : forgetO μ s (execGetFeatures f s) = forget μ s := widenO (a := 34078980) hm (by
  unfold execGetFeatures
  repeat' (first | with_reducible rfl | simp only [↓nvComplete_frame, forget_ite, ite_self, forgetO_next, Nat.reduceOr] | (refine Eq.trans (admin_frame _ (by first | decide | exact or_trans rfl hm) _ _ _ _ (fun _ _ => ?_)) ?_) | (refine Eq.trans (forget_foldS _ _ (fun _ _ => ?_) _ _) ?_) | (refine Eq.trans (congrArg (forget _) (congrArg Prod.snd ‹_ = (_, _)›).symm) ?_) | split | dsimp only))

@[simp] theorem cxRetry_frame (μ : Nat) (hm : 2621972 ||| μ = μ) (ctx : Nat) (s : State) : forget μ (cxRetry ctx s) = forget μ s := widen (a := 2621972) hm (by
  unfold cxRetry
  simp)

@[simp] theorem execRetryTimeout_frame (μ : Nat) (hm : 2621972 ||| μ = μ) (ctx : Nat) (s : State) : forgetO μ s (execRetryTimeout ctx s) = forget μ s := widenO (a := 2621972) hm (by
  unfold execRetryTimeout
  simp)

@[simp] theorem execLossTmo_frame (μ : Nat) (hm : 36209414 ||| μ = μ) (ctx : Nat) (s : State) : forgetO μ s (execLossTmo ctx s) = forget μ s := widenO (a := 36209414) hm (by
  unfold execLossTmo
  simp)

@[simp] theorem cnpSend_frame (μ : Nat) (hm : 524292 ||| μ = μ) (ctx : Nat) (ecn : Bool) (s : State) : forget μ (cnpSend ctx ecn s) = forget μ s := widen (a := 524292) hm (by
  unfold cnpSend
  simp)

theorem withList_frame (μ : Nat) (hm : 2130746 ||| μ = μ) (f : Fn) (c : NCmd) (n : Nat) (list : HostRead) (k : State → State) (s : State) (h_k : ∀ v0, forget μ (k v0) = forget μ v0) : forget μ (withList f c n list k s) = forget μ s := by
  unfold withList
  repeat' (first | with_reducible rfl | simp only [forget_ite, h_k] | (refine Eq.trans (withRead_frame _ (by first | decide | exact or_trans rfl hm) _ _ _ _ _ (fun _ => ?_)) ?_) | (refine Eq.trans (forget_foldS _ _ (fun _ _ => ?_) _ _) ?_) | (refine Eq.trans (congrArg (forget _) (congrArg Prod.snd ‹_ = (_, _)›).symm) ?_) | split | dsimp only)

@[simp] theorem nvCountIo_frame (μ : Nat) (hm : 524288 ||| μ = μ) (f : Fn) (op : Nat) (n : Nat) (s : State) : forget μ (nvCountIo f op n s) = forget μ s := widen (a := 524288) hm (by
  unfold nvCountIo
  simp)

@[simp] theorem nvDispatch_frame (μ : Nat) (hm : 34078996 ||| μ = μ) (f : Fn) (c : NCmd) (e : Bytes) (s : State) : forget μ (nvDispatch f c e s) = forget μ s := widen (a := 34078996) hm (by
  unfold nvDispatch
  simp)

@[simp] theorem nvLaunch_frame (μ : Nat) (hm : 36209470 ||| μ = μ) (f : Fn) (c : NCmd) (e : Bytes) (op : Nat) (n : Nat) (host : HostRead) (s : State) : forget μ (nvLaunch f c e op n host s) = forget μ s := widen (a := 36209470) hm (by
  unfold nvLaunch
  repeat' (first | with_reducible rfl | simp only [↓nvDispatch_frame, ↓nvCountIo_frame, ↓nvComplete_frame, forget_ite, Nat.reduceOr] | (refine Eq.trans (withRead_frame _ (by first | decide | exact or_trans rfl hm) _ _ _ _ _ (fun _ => ?_)) ?_) | (refine Eq.trans (forget_foldS _ _ (fun _ _ => ?_) _ _) ?_) | (refine Eq.trans (congrArg (forget _) (congrArg Prod.snd ‹_ = (_, _)›).symm) ?_) | split | dsimp only))

@[simp] theorem nvIo_frame (μ : Nat) (hm : 36209470 ||| μ = μ) (f : Fn) (q : Nat) (op : Nat) (rw : Bool) (data : Bool) (wr : Bool) (list : HostRead) (host : HostRead) (s : State) : forget μ (nvIo f q op rw data wr list host s) = forget μ s := widen (a := 36209470) hm (by
  unfold nvIo
  repeat' (first | with_reducible rfl | simp only [↓nvComplete_frame, ↓nvLaunch_frame, forget_ite, ite_self, Nat.reduceOr] | (refine Eq.trans (withList_frame _ (by first | decide | exact or_trans rfl hm) _ _ _ _ _ _ (fun _ => ?_)) ?_) | (refine Eq.trans (forget_foldS _ _ (fun _ _ => ?_) _ _) ?_) | (refine Eq.trans (congrArg (forget _) (congrArg Prod.snd ‹_ = (_, _)›).symm) ?_) | split | dsimp only))

@[simp] theorem execWriteZeroes_frame (μ : Nat) (hm : 36209470 ||| μ = μ) (f : Fn) (q : Nat) (s : State) : forgetO μ s (execWriteZeroes f q s) = forget μ s := widenO (a := 36209470) hm (by
  unfold execWriteZeroes
  simp)

@[simp] theorem execNvmeAbort_frame (μ : Nat) (hm : 34078996 ||| μ = μ) (f : Fn) (s : State) : forgetO μ s (execNvmeAbort f s) = forget μ s := widenO (a := 34078996) hm (by
  unfold execNvmeAbort
  repeat' (first | with_reducible rfl | simp only [↓nvComplete_frame, ↓cxSendAll_frame, ↓modNvme_frame, forget_ite, ite_self, forgetO_next, Nat.reduceOr] | (refine Eq.trans (admin_frame _ (by first | decide | exact or_trans rfl hm) _ _ _ _ (fun _ _ => ?_)) ?_) | (refine Eq.trans (forget_foldS _ _ (fun _ _ => ?_) _ _) ?_) | (refine Eq.trans (congrArg (forget _) (congrArg Prod.snd ‹_ = (_, _)›).symm) ?_) | split | dsimp only))

@[simp] theorem nvSqGone_frame (μ : Nat) (hm : 34078980 ||| μ = μ) (f : Fn) (q : Nat) (s : State) : forget μ (nvSqGone f q s) = forget μ s := widen (a := 34078980) hm (by
  unfold nvSqGone
  repeat' (first | with_reducible rfl | simp only [↓nvComplete_frame, ↓modNvme_frame, forget_ite, ite_self, Nat.reduceOr] | (refine Eq.trans (forget_foldS _ _ (fun _ _ => ?_) _ _) ?_) | (refine Eq.trans (congrArg (forget _) (congrArg Prod.snd ‹_ = (_, _)›).symm) ?_) | split | dsimp only))

@[simp] theorem execDeleteIoSq_frame (μ : Nat) (hm : 34078980 ||| μ = μ) (f : Fn) (s : State) : forgetO μ s (execDeleteIoSq f s) = forget μ s := widenO (a := 34078980) hm (by
  unfold execDeleteIoSq
  repeat' (first | with_reducible rfl | simp only [↓nvComplete_frame, ↓modNvme_frame, ↓nvSqGone_frame, forget_ite, ite_self, forgetO_next, Nat.reduceOr] | (refine Eq.trans (admin_frame _ (by first | decide | exact or_trans rfl hm) _ _ _ _ (fun _ _ => ?_)) ?_) | (refine Eq.trans (forget_foldS _ _ (fun _ _ => ?_) _ _) ?_) | (refine Eq.trans (congrArg (forget _) (congrArg Prod.snd ‹_ = (_, _)›).symm) ?_) | split | dsimp only))

@[simp] theorem execSetFeatures_frame (μ : Nat) (hm : 34078980 ||| μ = μ) (f : Fn) (s : State) : forgetO μ s (execSetFeatures f s) = forget μ s := widenO (a := 34078980) hm (by
  unfold execSetFeatures
  repeat' (first | with_reducible rfl | simp only [↓nvComplete_frame, ↓modNvme_frame, forget_ite, ite_self, forgetO_next, Nat.reduceOr] | (refine Eq.trans (admin_frame _ (by first | decide | exact or_trans rfl hm) _ _ _ _ (fun _ _ => ?_)) ?_) | (refine Eq.trans (forget_foldS _ _ (fun _ _ => ?_) _ _) ?_) | (refine Eq.trans (congrArg (forget _) (congrArg Prod.snd ‹_ = (_, _)›).symm) ?_) | split | dsimp only))

@[simp] theorem stoDispatch_frame (μ : Nat) (hm : 524820 ||| μ = μ) (f : Fn) (q : Nat) (op : Nat) (s : State) : forget μ (stoDispatch f q op s) = forget μ s := widen (a := 524820) hm (by
  unfold stoDispatch
  (repeat' split) <;> simp)

@[simp] theorem execCreateIoCq_frame (μ : Nat) (hm : 34078980 ||| μ = μ) (f : Fn) (s : State) : forgetO μ s (execCreateIoCq f s) = forget μ s := widenO (a := 34078980) hm (by
  unfold execCreateIoCq
  repeat' (first | with_reducible rfl | simp only [↓modNvme_frame, ↓nvComplete_frame, forget_ite, ite_self, forgetO_next, Nat.reduceOr] | (refine Eq.trans (admin_frame _ (by first | decide | exact or_trans rfl hm) _ _ _ _ (fun _ _ => ?_)) ?_) | (refine Eq.trans (forget_foldS _ _ (fun _ _ => ?_) _ _) ?_) | (refine Eq.trans (congrArg (forget _) (congrArg Prod.snd ‹_ = (_, _)›).symm) ?_) | split | dsimp only))

@[simp] theorem execDeleteIoCq_frame (μ : Nat) (hm : 34078980 ||| μ = μ) (f : Fn) (s : State) : forgetO μ s (execDeleteIoCq f s) = forget μ s := widenO (a := 34078980) hm (by
  unfold execDeleteIoCq
  repeat' (first | with_reducible rfl | simp only [↓nvComplete_frame, ↓modNvme_frame, forget_ite, ite_self, forgetO_next, Nat.reduceOr] | (refine Eq.trans (admin_frame _ (by first | decide | exact or_trans rfl hm) _ _ _ _ (fun _ _ => ?_)) ?_) | (refine Eq.trans (forget_foldS _ _ (fun _ _ => ?_) _ _) ?_) | (refine Eq.trans (congrArg (forget _) (congrArg Prod.snd ‹_ = (_, _)›).symm) ?_) | split | dsimp only))

@[simp] theorem nvRespond_frame (μ : Nat) (hm : 34078980 ||| μ = μ) (f : Fn) (n : NCmd) (status : Nat) (dw0 : Nat) (s : State) : forget μ (nvRespond f n status dw0 s) = forget μ s := widen (a := 34078980) hm (by
  unfold nvRespond
  simp)

@[simp] theorem execNvmeFlush_frame (μ : Nat) (hm : 36209470 ||| μ = μ) (f : Fn) (q : Nat) (s : State) : forgetO μ s (execNvmeFlush f q s) = forget μ s := widenO (a := 36209470) hm (by
  unfold execNvmeFlush
  simp)

@[simp] theorem adminData_frame (μ : Nat) (hm : 36209470 ||| μ = μ) (f : Fn) (c : NCmd) (bs : Bytes) (list : HostRead) (s : State) : forget μ (adminData f c bs list s) = forget μ s := widen (a := 36209470) hm (by
  unfold adminData
  repeat' (first | with_reducible rfl | simp only [↓nvComplete_frame, ↓bufWrite_frame, forget_ite, Nat.reduceOr] | (refine Eq.trans (withList_frame _ (by first | decide | exact or_trans rfl hm) _ _ _ _ _ _ (fun _ => ?_)) ?_) | (refine Eq.trans (forget_foldS _ _ (fun _ _ => ?_) _ _) ?_) | (refine Eq.trans (congrArg (forget _) (congrArg Prod.snd ‹_ = (_, _)›).symm) ?_) | split | dsimp only))

@[simp] theorem execNvmeWrite_frame (μ : Nat) (hm : 36209470 ||| μ = μ) (f : Fn) (q : Nat) (reads : WriteReads) (s : State) : forgetO μ s (execNvmeWrite f q reads s) = forget μ s := widenO (a := 36209470) hm (by
  unfold execNvmeWrite
  simp)

@[simp] theorem opRespond_frame (μ : Nat) (hm : 34079492 ||| μ = μ) (o : StoOp) (status : Nat) (dw0 : Nat) (data : Bytes) (s : State) : forget μ (opRespond o status dw0 data s) = forget μ s := widen (a := 34079492) hm (by
  unfold opRespond
  simp)

@[simp] theorem abortMissed_frame (μ : Nat) (hm : 34078980 ||| μ = μ) (f : Fn) (n : NCmd) (s : State) : forget μ (abortMissed f n s) = forget μ s := widen (a := 34078980) hm (by
  unfold abortMissed
  (repeat' split) <;> simp)

@[simp] theorem execRemoteResponse_frame (μ : Nat) (hm : 36176660 ||| μ = μ) (ctx : Nat) (wire : Nat) (status : Nat) (dw0 : Nat) (data : Bytes) (icrcOk : Bool) (ecn : Bool) (s0 : State) : forgetO μ s0 (execRemoteResponse ctx wire status dw0 data icrcOk ecn s0) = forget μ s0 := widenO (a := 36176660) hm (by
  unfold execRemoteResponse
  repeat' (first | with_reducible rfl | simp only [↓bump_frame, ↓cxRetry_frame, ↓cnpSend_frame, ↓seqRx_frame, ↓cxSendAll_frame, ↓abortMissed_frame, ↓nvRespond_frame, ↓heard_frame, ↓opRespond_frame, forget_ite, ite_self, forgetO_next, forgetO_ite, Nat.reduceOr] | split))

@[simp] theorem execRdmaSend_frame (μ : Nat) (hm : 524820 ||| μ = μ) (f : Fn) (q : Nat) (s : State) : forgetO μ s (execRdmaSend f q s) = forget μ s := widenO (a := 524820) hm (by
  unfold execRdmaSend
  simp)

@[simp] theorem execRemoteAccess_frame (μ : Nat) (hm : 36209470 ||| μ = μ) (ctx : Nat) (write : Bool) (rkey : Nat) (off : Nat) (len : Nat) (data : Bytes) (host : HostRead) (icrcOk : Bool) (ecn : Bool) (s0 : State) : forgetO μ s0 (execRemoteAccess ctx write rkey off len data host icrcOk ecn s0) = forget μ s0 := widenO (a := 36209470) hm (by
  unfold execRemoteAccess
  repeat' (first | with_reducible rfl | simp only [↓bump_frame, ↓cnpSend_frame, ↓emit_frame, ↓seqRx_frame, ↓modSto_frame, ↓opDone_frame, forgetO_next, forgetO_ite, Nat.reduceOr] | (refine Eq.trans (withRead_frame _ (by first | decide | exact or_trans rfl hm) _ _ _ _ _ (fun _ => ?_)) ?_) | (refine Eq.trans (forget_foldS _ _ (fun _ _ => ?_) _ _) ?_) | (refine Eq.trans (congrArg (forget _) (congrArg Prod.snd ‹_ = (_, _)›).symm) ?_) | (refine Eq.trans (payloadFold_frame _ (by decide) _ _ _ _) ?_) | split | dsimp only))

@[simp] theorem execCmdTimeout_frame (μ : Nat) (hm : 2654742 ||| μ = μ) (ctx : Nat) (s : State) : forgetO μ s (execCmdTimeout ctx s) = forget μ s := widenO (a := 2654742) hm (by
  unfold execCmdTimeout
  (repeat' split) <;> simp)

@[simp] theorem execShutdown_frame (μ : Nat) (hm : 524288 ||| μ = μ) (f : Fn) (s : State) : forgetO μ s (execShutdown f s) = forget μ s := widenO (a := 524288) hm (by
  unfold execShutdown
  simp)

@[simp] theorem execCcDisable_frame (μ : Nat) (hm : 524288 ||| μ = μ) (f : Fn) (s : State) : forgetO μ s (execCcDisable f s) = forget μ s := widenO (a := 524288) hm (by
  unfold execCcDisable
  simp)

@[simp] theorem execCnpRx_frame (μ : Nat) (hm : 524288 ||| μ = μ) (ctx : Nat) (s : State) : forgetO μ s (execCnpRx ctx s) = forget μ s := widenO (a := 524288) hm (by
  unfold execCnpRx
  simp)

@[simp] theorem execConnectionFailure_frame (μ : Nat) (hm : 2621972 ||| μ = μ) (ctx : Nat) (digest : Bool) (s : State) : forgetO μ s (execConnectionFailure ctx digest s) = forget μ s := widenO (a := 2621972) hm (by
  unfold execConnectionFailure
  simp)

@[simp] theorem execRdmaWrite_frame (μ : Nat) (hm : 524820 ||| μ = μ) (f : Fn) (q : Nat) (s : State) : forgetO μ s (execRdmaWrite f q s) = forget μ s := widenO (a := 524820) hm (by
  unfold execRdmaWrite
  simp)

@[simp] theorem execNvmfCmd_frame (μ : Nat) (hm : 524820 ||| μ = μ) (f : Fn) (q : Nat) (s : State) : forgetO μ s (execNvmfCmd f q s) = forget μ s := widenO (a := 524820) hm (by
  unfold execNvmfCmd
  simp)

@[simp] theorem execNvmeRead_frame (μ : Nat) (hm : 36209470 ||| μ = μ) (f : Fn) (q : Nat) (list : HostRead) (s : State) : forgetO μ s (execNvmeRead f q list s) = forget μ s := widenO (a := 36209470) hm (by
  unfold execNvmeRead
  simp)

@[simp] theorem execGetLogPage_frame (μ : Nat) (hm : 36209470 ||| μ = μ) (f : Fn) (list : HostRead) (s : State) : forgetO μ s (execGetLogPage f list s) = forget μ s := widenO (a := 36209470) hm (by
  unfold execGetLogPage
  repeat' (first | with_reducible rfl | simp only [↓nvComplete_frame, ↓adminData_frame, ↓modNvme_frame, forget_ite, ite_self, forgetO_next, Nat.reduceOr] | (refine Eq.trans (admin_frame _ (by first | decide | exact or_trans rfl hm) _ _ _ _ (fun _ _ => ?_)) ?_) | (refine Eq.trans (forget_foldS _ _ (fun _ _ => ?_) _ _) ?_) | (refine Eq.trans (congrArg (forget _) (congrArg Prod.snd ‹_ = (_, _)›).symm) ?_) | split | dsimp only))

@[simp] theorem execCcEnable_frame (μ : Nat) (hm : 524548 ||| μ = μ) (f : Fn) (cc : Nat) (s : State) : forgetO μ s (execCcEnable f cc s) = forget μ s := widenO (a := 524548) hm (by
  unfold execCcEnable
  simp)

@[simp] theorem h2cData_frame (μ : Nat) (hm : 524292 ||| μ = μ) (ctx : Nat) (wire : Nat) (off : Nat) (data : Bytes) (s : State) : forget μ (h2cData ctx wire off data s) = forget μ s := widen (a := 524292) hm (by
  unfold h2cData
  repeat' (first | with_reducible rfl | simp only [↓emit_frame, ↓seqTx_frame, Nat.reduceOr] | (refine Eq.trans (forget_foldS _ _ (fun _ _ => ?_) _ _) ?_) | (refine Eq.trans (congrArg (forget _) (congrArg Prod.snd ‹_ = (_, _)›).symm) ?_) | split | dsimp only))

@[simp] theorem execNvmeTcpR2t_frame (μ : Nat) (hm : 36209470 ||| μ = μ) (ctx : Nat) (wire : Nat) (off : Nat) (len : Nat) (host : HostRead) (s : State) : forgetO μ s (execNvmeTcpR2t ctx wire off len host s) = forget μ s := widenO (a := 36209470) hm (by
  unfold execNvmeTcpR2t
  repeat' (first | with_reducible rfl | simp only [↓h2cData_frame, ↓heard_frame, ↓seqRx_frame, ↓modCmd_frame, ↓opDone_frame, forgetO_next, forgetO_ite, Nat.reduceOr] | (refine Eq.trans (withRead_frame _ (by first | decide | exact or_trans rfl hm) _ _ _ _ _ (fun _ => ?_)) ?_) | (refine Eq.trans (forget_foldS _ _ (fun _ _ => ?_) _ _) ?_) | (refine Eq.trans (congrArg (forget _) (congrArg Prod.snd ‹_ = (_, _)›).symm) ?_) | split | dsimp only))

@[simp] theorem execRecvBuffer_frame (μ : Nat) (hm : 524820 ||| μ = μ) (f : Fn) (q : Nat) (s : State) : forgetO μ s (execRecvBuffer f q s) = forget μ s := widenO (a := 524820) hm (by
  unfold execRecvBuffer
  simp)

@[simp] theorem execRdmaRead_frame (μ : Nat) (hm : 524820 ||| μ = μ) (f : Fn) (q : Nat) (s : State) : forgetO μ s (execRdmaRead f q s) = forget μ s := widenO (a := 524820) hm (by
  unfold execRdmaRead
  simp)

@[simp] theorem execSendReceived_frame (μ : Nat) (hm : 34079508 ||| μ = μ) (ctx : Nat) (data : Bytes) (imm : Option (BitVec 32)) (icrcOk : Bool) (ecn : Bool) (s0 : State) : forgetO μ s0 (execSendReceived ctx data imm icrcOk ecn s0) = forget μ s0 := widenO (a := 34079508) hm (by
  unfold execSendReceived
  repeat' (first | with_reducible rfl | simp only [↓bump_frame, ↓cnpSend_frame, ↓emit_frame, ↓opDone_frame, ↓seqRx_frame, ↓payloadWrite_frame, ite_self, forgetO_next, forgetO_ite, Nat.reduceOr] | split))

@[simp] theorem execRateRecovery_frame (μ : Nat) (hm : 557058 ||| μ = μ) (ctx : Nat) (s : State) : forgetO μ s (execRateRecovery ctx s) = forget μ s := widenO (a := 557058) hm (by
  unfold execRateRecovery
  simp)

@[simp] theorem execDatasetManagement_frame (μ : Nat) (hm : 36209470 ||| μ = μ) (f : Fn) (q : Nat) (ranges : HostRead) (s : State) : forgetO μ s (execDatasetManagement f q ranges s) = forget μ s := widenO (a := 36209470) hm (by
  unfold execDatasetManagement
  repeat' (first | with_reducible rfl | simp only [↓nvIo_frame, ↓nvComplete_frame, ↓nvDispatch_frame, forget_ite, ite_self, forgetO_next, forgetO_ite, Nat.reduceOr] | (refine Eq.trans (withRead_frame _ (by first | decide | exact or_trans rfl hm) _ _ _ _ _ (fun _ => ?_)) ?_) | (refine Eq.trans (forget_foldS _ _ (fun _ _ => ?_) _ _) ?_) | (refine Eq.trans (congrArg (forget _) (congrArg Prod.snd ‹_ = (_, _)›).symm) ?_) | split | dsimp only))

@[simp] theorem execAsynchronousEventRequest_frame (μ : Nat) (hm : 34078980 ||| μ = μ) (f : Fn) (s : State) : forgetO μ s (execAsynchronousEventRequest f s) = forget μ s := widenO (a := 34078980) hm (by
  unfold execAsynchronousEventRequest
  repeat' (first | with_reducible rfl | simp only [↓nvComplete_frame, ↓modNvme_frame, forget_ite, forgetO_next, Nat.reduceOr] | (refine Eq.trans (admin_frame _ (by first | decide | exact or_trans rfl hm) _ _ _ _ (fun _ _ => ?_)) ?_) | (refine Eq.trans (forget_foldS _ _ (fun _ _ => ?_) _ _) ?_) | (refine Eq.trans (congrArg (forget _) (congrArg Prod.snd ‹_ = (_, _)›).symm) ?_) | split | dsimp only))

@[simp] theorem execIdentify_frame (μ : Nat) (hm : 36209470 ||| μ = μ) (f : Fn) (list : HostRead) (s : State) : forgetO μ s (execIdentify f list s) = forget μ s := widenO (a := 36209470) hm (by
  unfold execIdentify
  repeat' (first | with_reducible rfl | simp only [↓nvComplete_frame, ↓adminData_frame, forget_ite, ite_self, forgetO_next, Nat.reduceOr] | (refine Eq.trans (admin_frame _ (by first | decide | exact or_trans rfl hm) _ _ _ _ (fun _ _ => ?_)) ?_) | (refine Eq.trans (forget_foldS _ _ (fun _ _ => ?_) _ _) ?_) | (refine Eq.trans (congrArg (forget _) (congrArg Prod.snd ‹_ = (_, _)›).symm) ?_) | split | dsimp only))

@[simp] theorem execCreateIoSq_frame (μ : Nat) (hm : 34078980 ||| μ = μ) (f : Fn) (s : State) : forgetO μ s (execCreateIoSq f s) = forget μ s := widenO (a := 34078980) hm (by
  unfold execCreateIoSq
  repeat' (first | with_reducible rfl | simp only [↓modNvme_frame, ↓nvComplete_frame, forget_ite, ite_self, forgetO_next, Nat.reduceOr] | (refine Eq.trans (admin_frame _ (by first | decide | exact or_trans rfl hm) _ _ _ _ (fun _ _ => ?_)) ?_) | (refine Eq.trans (forget_foldS _ _ (fun _ _ => ?_) _ _) ?_) | (refine Eq.trans (congrArg (forget _) (congrArg Prod.snd ‹_ = (_, _)›).symm) ?_) | split | dsimp only))

@[simp] theorem execNvmeCommandFetch_frame (μ : Nat) (hm : 2655034 ||| μ = μ) (f : Fn) (q : Nat) (got : HostRead) (s : State) : forgetO μ s (execNvmeCommandFetch f q got s) = forget μ s := widenO (a := 2655034) hm (by
  unfold execNvmeCommandFetch
  repeat' (first | with_reducible rfl | simp only [↓modSto_frame, ↓modNvme_frame, forgetO_next, forgetO_ite, Nat.reduceOr] | (refine Eq.trans (withRead_frame _ (by first | decide | exact or_trans rfl hm) _ _ _ _ _ (fun _ => ?_)) ?_) | (refine Eq.trans (forget_foldS _ _ (fun _ _ => ?_) _ _) ?_) | (refine Eq.trans (congrArg (forget _) (congrArg Prod.snd ‹_ = (_, _)›).symm) ?_) | split | dsimp only))

@[simp] theorem execShutdownTimeout_frame (μ : Nat) (hm : 557058 ||| μ = μ) (f : Fn) (s : State) : forgetO μ s (execShutdownTimeout f s) = forget μ s := widenO (a := 557058) hm (by
  unfold execShutdownTimeout
  (repeat' split) <;> simp)

end Sys2Proof.Machine
end

