-- ==== Sys2Proof/Laws/FrameAkzOps.lean ====
section
/-!
SUPPORT. Frames of the operations of Machine/AkzOps.lean: the parts of the state that each can change.
-/
namespace Sys2Proof.Machine
set_option linter.all false

@[simp] theorem akzEvent_frame (μ : Nat) (hm : 2097664 ||| μ = μ) (code : Nat) (detail : Nat) (s : State) : forget μ (akzEvent code detail s) = forget μ s := widen (a := 2097664) hm (by
  unfold akzEvent
  simp)

@[simp] theorem startLink_frame (μ : Nat) (hm : 4194308 ||| μ = μ) (p : Nat) (i : AkzItem) (s : State) : forget μ (startLink p i s) = forget μ s := widen (a := 4194308) hm (by
  unfold startLink
  simp)

@[simp] theorem sendPiece_frame (μ : Nat) (hm : 4194308 ||| μ = μ) (p : Nat) (s : State) : forget μ (sendPiece p s) = forget μ s := widen (a := 4194308) hm (by
  unfold sendPiece
  simp)

@[simp] theorem sendData_frame (μ : Nat) (hm : 4194308 ||| μ = μ) (p : Nat) (s : State) : forget μ (sendData p s) = forget μ s := widen (a := 4194308) hm (by
  unfold sendData
  repeat' (first | with_reducible rfl | simp only [↓startLink_frame, ↓modAkzPort_frame, forget_ite, ite_self, Nat.reduceOr] | split))

@[simp] theorem sendWaiting_frame (μ : Nat) (hm : 4194308 ||| μ = μ) (p : Nat) (s : State) : forget μ (sendWaiting p s) = forget μ s := widen (a := 4194308) hm (by
  unfold sendWaiting
  (repeat' split) <;> simp)

@[simp] theorem akzPump_frame (μ : Nat) (hm : 4194308 ||| μ = μ) (p : Nat) (s : State) : forget μ (akzPump p s) = forget μ s := widen (a := 4194308) hm (by
  unfold akzPump
  repeat' (first | with_reducible rfl | simp only [↓sendWaiting_frame, ↓sendData_frame, ↓sendPiece_frame, Nat.reduceOr] | (refine Eq.trans (forget_foldS _ _ (fun _ _ => ?_) _ _) ?_) | (refine Eq.trans (congrArg (forget _) (congrArg Prod.snd ‹_ = (_, _)›).symm) ?_) | split | dsimp only))

@[simp] theorem mbxReply_frame (μ : Nat) (hm : 2097664 ||| μ = μ) (f : Fn) (op : Nat) (status : Nat) (more : Bytes) (s : State) : forget μ (mbxReply f op status more s) = forget μ s := widen (a := 2097664) hm (by
  unfold mbxReply
  simp)

@[simp] theorem chainDone_frame (μ : Nat) (hm : 2359808 ||| μ = μ) (rollback : Bool) (status : Nat) (s : State) : forget μ (chainDone rollback status s) = forget μ s := widen (a := 2359808) hm (by
  unfold chainDone
  repeat' (first | with_reducible rfl | simp only [↓mbxReply_frame, Nat.reduceOr] | (refine Eq.trans (forget_foldS _ _ (fun _ _ => ?_) _ _) ?_) | (refine Eq.trans (congrArg (forget _) (congrArg Prod.snd ‹_ = (_, _)›).symm) ?_) | (refine Eq.trans (modLcs_frame _ (by decide) _ _ (fun _ => ?_)) ?_) | (show fuses _ = fuses _; first | rfl | (split <;> rfl)) | simp only [Option.getD] | split | dsimp only))

@[simp] theorem chainBroken_frame (μ : Nat) (hm : 6554112 ||| μ = μ) (s : State) : forget μ (chainBroken s) = forget μ s := widen (a := 6554112) hm (by
  unfold chainBroken
  repeat' (first | with_reducible rfl | simp only [↓modAkz_frame, ↓chainDone_frame, forget_ite, ite_self, Nat.reduceOr] | (refine Eq.trans (forget_foldS _ _ (fun _ _ => ?_) _ _) ?_) | (refine Eq.trans (congrArg (forget _) (congrArg Prod.snd ‹_ = (_, _)›).symm) ?_) | (refine Eq.trans (modLcs_frame _ (by decide) _ _ (fun _ => ?_)) ?_) | (show fuses _ = fuses _; first | rfl | (split <;> rfl)) | simp only [Option.getD] | split | dsimp only))

@[simp] theorem judgeChain_frame (μ : Nat) (hm : 6554112 ||| μ = μ) (s : State) : forget μ (judgeChain s) = forget μ s := widen (a := 6554112) hm (by
  unfold judgeChain
  repeat' (first | with_reducible rfl | simp only [↓modAkz_frame, ↓akzEvent_frame, ↓chainBroken_frame, forget_ite, ite_self, Nat.reduceOr] | (refine Eq.trans (forget_foldS _ _ (fun _ _ => ?_) _ _) ?_) | (refine Eq.trans (congrArg (forget _) (congrArg Prod.snd ‹_ = (_, _)›).symm) ?_) | split | dsimp only))

@[simp] theorem akzStat_frame (μ : Nat) (hm : 16 ||| μ = μ) (k : Nat) (n : Nat) (s : State) : forget μ (akzStat k n s) = forget μ s := widen (a := 16) hm (by
  unfold akzStat
  simp)

@[simp] theorem endItem_frame (μ : Nat) (hm : 2115084 ||| μ = μ) (how : CopyEnd) (i : AkzItem) (s : State) : forget μ (endItem how i s) = forget μ s := widen (a := 2115084) hm (by
  unfold endItem
  (repeat' split) <;> simp)

@[simp] theorem joinQueue_frame (μ : Nat) (hm : 4194304 ||| μ = μ) (p : Nat) (front : Bool) (i : AkzItem) (s : State) : forget μ (joinQueue p front i s) = forget μ s := widen (a := 4194304) hm (by
  unfold joinQueue
  simp)

@[simp] theorem forwardItem_frame (μ : Nat) (hm : 6309404 ||| μ = μ) (prefer : Nat) (i : AkzItem) (s : State) : forget μ (forwardItem prefer i s) = forget μ s := widen (a := 6309404) hm (by
  unfold forwardItem
  (repeat' split) <;> simp)

@[simp] theorem joinCtl_frame (μ : Nat) (hm : 4194304 ||| μ = μ) (p : Nat) (front : Bool) (i : AkzItem) (s : State) : forget μ (joinCtl p front i s) = forget μ s := widen (a := 4194304) hm (by
  unfold joinCtl
  simp)

@[simp] theorem akzPortDown_frame (μ : Nat) (hm : 6571548 ||| μ = μ) (p : Nat) (s : State) : forget μ (akzPortDown p s) = forget μ s := widen (a := 6571548) hm (by
  unfold akzPortDown
  repeat' (first | with_reducible rfl | simp only [↓akzBegin_frame, ↓modAkzPort_frame, ↓joinCtl_frame, ↓joinQueue_frame, ↓akzStat_frame, ↓endItem_frame, ↓forwardItem_frame, ↓judgeChain_frame, ↓akzEvent_frame, ↓akzPump_frame, forget_ite, ite_self, Nat.reduceOr] | (refine Eq.trans (forget_foldS _ _ (fun _ _ => ?_) _ _) ?_) | (refine Eq.trans (congrArg (forget _) (congrArg Prod.snd ‹_ = (_, _)›).symm) ?_) | split | dsimp only))

@[simp] theorem sendTo_frame (μ : Nat) (hm : 4194308 ||| μ = μ) (dest : Nat) (body : Bytes) (s : State) : forget μ (sendTo dest body s) = forget μ s := widen (a := 4194308) hm (by
  unfold sendTo
  (repeat' split) <;> simp)

@[simp] theorem passDown_frame (μ : Nat) (hm : 4194308 ||| μ = μ) (bs : Bytes) (s : State) : forget μ (passDown bs s) = forget μ s := widen (a := 4194308) hm (by
  unfold passDown
  simp)

@[simp] theorem stageBundle_frame (μ : Nat) (hm : 262148 ||| μ = μ) (xs : List SettingsBlock) (key : Bytes) (sig : Bytes) (s : State) : forget μ (stageBundle xs key sig s).2 = forget μ s := widen (a := 262148) hm (by
  unfold stageBundle
  extract_lets body b
  split
  · rfl
  · split
    · rfl
    · refine (modLcs_frame _ (by decide) _ _ (fun _ => rfl)).trans (sealRegion_frame _ (by decide) _ _ _))

@[simp] theorem stageImage_frame (μ : Nat) (hm : 15073284 ||| μ = μ) (bs : Bytes) (s : State) : forget μ (stageImage bs s).2 = forget μ s := by
  unfold stageImage
  extract_lets b st s1
  have e : forget μ s1 = forget μ s := by
    refine (modLcs_frame μ (or_trans rfl hm) _ _ ?_).trans (writeBank_frame μ (or_trans rfl hm) _ _ _)
    intro l
    rfl
  clear_value s1 st
  split
  · rfl
  · split
    · exact stageBundle_frame μ (or_trans rfl hm) _ _ _ _
    · split
      · exact e
      · exact (passDown_frame μ (or_trans rfl hm) _ _).trans ((modAkz_frame μ (or_trans rfl hm) _ _).trans ((devWrite_frame μ (or_trans rfl hm) _ _ _).trans e))

@[simp] theorem sendControl_frame (μ : Nat) (hm : 4194308 ||| μ = μ) (p : Nat) (type : Nat) (dest : Nat) (body : Bytes) (s : State) : forget μ (sendControl p type dest body s) = forget μ s := widen (a := 4194308) hm (by
  unfold sendControl
  simp)

@[simp] theorem takeResult_frame (μ : Nat) (hm : 6554112 ||| μ = μ) (member : Nat) (status : Nat) (s : State) : forget μ (takeResult member status s) = forget μ s := widen (a := 6554112) hm (by
  unfold takeResult
  repeat' (first | with_reducible rfl | simp only [↓akzEvent_frame, ↓modAkz_frame, forget_ite, ite_self, Nat.reduceOr] | (refine Eq.trans (forget_foldS _ _ (fun _ _ => ?_) _ _) ?_) | (refine Eq.trans (congrArg (forget _) (congrArg Prod.snd ‹_ = (_, _)›).symm) ?_) | (refine Eq.trans (modLcs_frame _ (by decide) _ _ (fun _ => ?_)) ?_) | (show fuses _ = fuses _; first | rfl | (split <;> rfl)) | simp only [Option.getD] | split | dsimp only))

@[simp] theorem joinAs_frame (μ : Nat) (hm : 6291968 ||| μ = μ) (n : Nat) (s : State) : forget μ (joinAs n s) = forget μ s := widen (a := 6291968) hm (by
  unfold joinAs
  simp)

@[simp] theorem tryJoin_frame (μ : Nat) (hm : 6291968 ||| μ = μ) (low : Option Nat) (s : State) : forget μ (tryJoin low s) = forget μ s := widen (a := 6291968) hm (by
  unfold tryJoin
  simp)

end Sys2Proof.Machine
end

