-- ==== Sys2Proof/Laws/FrameRel.lean ====
section
/-!
SUPPORT. Frames of the operations of Machine/Rel.lean: the parts of the state that each can change.
-/
namespace Sys2Proof.Machine
set_option linter.all false

@[simp] theorem returnCore_frame (μ : Nat) (hm : 2097152 ||| μ = μ) (index : Nat) (s : State) : forget μ (returnCore index s) = forget μ s := widen (a := 2097152) hm (by
  unfold returnCore
  (repeat' split) <;> simp)

@[simp] theorem execMachineCheckFatal_frame (μ : Nat) (hm : 16777148 ||| μ = μ) (kind : Nat) (index : Nat) (s : State) : forgetO μ s (execMachineCheckFatal kind index s) = forget μ s := widenO (a := 16777148) hm (by
  unfold execMachineCheckFatal
  simp)

@[simp] theorem moveMover_frame (μ : Nat) (hm : 1048576 ||| μ = μ) (leaves : Nat) (joins : Option Nat) (s : State) : forget μ (moveMover leaves joins s) = forget μ s := widen (a := 1048576) hm (by
  unfold moveMover
  simp)

@[simp] theorem moveCore_frame (μ : Nat) (hm : 2097152 ||| μ = μ) (leaves : Nat) (joins : Option Nat) (s : State) : forget μ (moveCore leaves joins s) = forget μ s := widen (a := 2097152) hm (by
  unfold moveCore
  repeat' (first | with_reducible rfl | simp only [↓modSvc_frame, Nat.reduceOr] | (refine Eq.trans (forget_foldS _ _ (fun _ _ => ?_) _ _) ?_) | (refine Eq.trans (congrArg (forget _) (congrArg Prod.snd ‹_ = (_, _)›).symm) ?_) | split | dsimp only))

@[simp] theorem moveUnit_frame (μ : Nat) (hm : 3146240 ||| μ = μ) (kind : Nat) (leaves : Nat) (joins : Option Nat) (s : State) : forget μ (moveUnit kind leaves joins s) = forget μ s := widen (a := 3146240) hm (by
  unfold moveUnit
  repeat' (first | with_reducible rfl | simp only [↓serveCore_frame, ↓moveCore_frame, ↓moveMover_frame, Nat.reduceOr] | (refine Eq.trans (forget_foldS _ _ (fun _ _ => ?_) _ _) ?_) | (refine Eq.trans (congrArg (forget _) (congrArg Prod.snd ‹_ = (_, _)›).symm) ?_) | split | dsimp only))

@[simp] theorem execScreeSubwindow_frame (μ : Nat) (hm : 163842 ||| μ = μ) (kind : Nat) (s : State) : forgetO μ s (execScreeSubwindow kind s) = forget μ s := widenO (a := 163842) hm (by
  unfold execScreeSubwindow
  simp)

@[simp] theorem rerun_frame (μ : Nat) (hm : 2704924 ||| μ = μ) (kind : Nat) (s : State) : forget μ (rerun kind s) = forget μ s := widen (a := 2704924) hm (by
  unfold rerun
  repeat' (first | with_reducible rfl | simp only [↓serveCry_frame, ↓cxSendAll_frame, Nat.reduceOr] | (refine Eq.trans (forget_foldS _ _ (fun _ _ => ?_) _ _) ?_) | (refine Eq.trans (congrArg (forget _) (congrArg Prod.snd ‹_ = (_, _)›).symm) ?_) | split | dsimp only))

@[simp] theorem execHandoffDone_frame (μ : Nat) (hm : 16777148 ||| μ = μ) (kind : Nat) (s : State) : forgetO μ s (execHandoffDone kind s) = forget μ s := widenO (a := 16777148) hm (by
  unfold execHandoffDone
  (repeat' split) <;> simp)

@[simp] theorem execMcRestart_frame (μ : Nat) (hm : 2130614 ||| μ = μ) (s : State) : forgetO μ s (execMcRestart s) = forget μ s := widenO (a := 2130614) hm (by
  unfold execMcRestart
  (repeat' split) <;> simp)

@[simp] theorem execScrub_frame (μ : Nat) (hm : 16777148 ||| μ = μ) (hbm : Bool) (line : Nat) (index : Nat) (row : Nat) (stored : Bytes) (reread : Bytes) (secondCopy : Bool) (s : State) : forgetO μ s (execScrub hbm line index row stored reread secondCopy s) = forget μ s := widenO (a := 16777148) hm (by
  unfold execScrub
  (repeat' split) <;> simp)

@[simp] theorem execRepairRetest_frame (μ : Nat) (hm : 2868894 ||| μ = μ) (kind : Nat) (index : Nat) (passed : Bool) (s0 : State) : forgetO μ s0 (execRepairRetest kind index passed s0) = forget μ s0 := widenO (a := 2868894) hm (by
  unfold execRepairRetest
  simp)

@[simp] theorem execFaultCount_frame (μ : Nat) (hm : 16777148 ||| μ = μ) (kind : Nat) (index : Nat) (row : Nat) (recheckFailed : Bool) (s : State) : forgetO μ s (execFaultCount kind index row recheckFailed s) = forget μ s := widenO (a := 16777148) hm (by
  unfold execFaultCount
  simp)

end Sys2Proof.Machine
end

