-- ==== Sys2Proof/Laws/FrameDomains.lean ====
section
/-!
SUPPORT. Frames of the operations of Machine/Domains.lean: the parts of the state that each can change.
-/
namespace Sys2Proof.Machine
set_option linter.all false

@[simp] theorem writeKeepAwake_frame (μ : Nat) (hm : 16 ||| μ = μ) (p : Path) (blk : Nat) (v : Word) (s : State) : forget μ (writeKeepAwake p blk v s) = forget μ s := widen (a := 16) hm (by
  unfold writeKeepAwake
  repeat' (first | with_reducible rfl | simp only [↓setReg_frame, forget_ite, Nat.reduceOr] | (refine Eq.trans (forget_foldS _ _ (fun _ _ => ?_) _ _) ?_) | (refine Eq.trans (congrArg (forget _) (congrArg Prod.snd ‹_ = (_, _)›).symm) ?_) | split | dsimp only))

@[simp] theorem wakeUnit_frame (μ : Nat) (hm : 128 ||| μ = μ) (u : DUnit) (s : State) : forget μ (wakeUnit u s) = forget μ s := widen (a := 128) hm (by
  unfold wakeUnit
  repeat' (first | with_reducible rfl | simp only [↓modDomain_frame, forget_ite, Nat.reduceOr] | split))

@[simp] theorem wakeBlock_frame (μ : Nat) (hm : 33554560 ||| μ = μ) (p : Path) (blk : Nat) (s : State) : forget μ (wakeBlock p blk s) = forget μ s := widen (a := 33554560) hm (by
  unfold wakeBlock
  repeat' (first | with_reducible rfl | simp only [↓worked_frame, ↓wakeUnit_frame, forget_ite, ite_self, Nat.reduceOr] | split))

@[simp] theorem clearWakes_frame (μ : Nat) (hm : 16 ||| μ = μ) (p : Path) (blk : Nat) (s : State) : forget μ (clearWakes p blk s) = forget μ s := widen (a := 16) hm (by
  unfold clearWakes
  simp)

@[simp] theorem endStop_frame (μ : Nat) (hm : 128 ||| μ = μ) (u : DUnit) (s : State) : forget μ (endStop u s) = forget μ s := widen (a := 128) hm (by
  unfold endStop
  simp)

@[simp] theorem countWake_frame (μ : Nat) (hm : 16 ||| μ = μ) (u : DUnit) (s : State) : forget μ (countWake u s) = forget μ s := widen (a := 16) hm (by
  unfold countWake
  repeat' (first | with_reducible rfl | simp only [↓setReg_frame, forget_ite, ite_self, Nat.reduceOr] | (refine Eq.trans (forget_foldS _ _ (fun _ _ => ?_) _ _) ?_) | (refine Eq.trans (congrArg (forget _) (congrArg Prod.snd ‹_ = (_, _)›).symm) ?_) | split | dsimp only))

@[simp] theorem unitRuns_frame (μ : Nat) (hm : 35848848 ||| μ = μ) (u : DUnit) (s : State) : forget μ (unitRuns u s) = forget μ s := widen (a := 35848848) hm (by
  unfold unitRuns
  repeat' (first | with_reducible rfl | simp only [↓countWake_frame, ↓worked_frame, ↓modDomain_frame, ↓newEpoch_frame, ↓engineNext_frame, ↓serveCore_frame, Nat.reduceOr] | (refine Eq.trans (forget_foldS _ _ (fun _ _ => ?_) _ _) ?_) | (refine Eq.trans (congrArg (forget _) (congrArg Prod.snd ‹_ = (_, _)›).symm) ?_) | split | dsimp only))

@[simp] theorem condemn_frame (μ : Nat) (hm : 741376 ||| μ = μ) (kind : Nat) (index : Nat) (s : State) : forget μ (condemn kind index s) = forget μ s := widen (a := 741376) hm (by
  unfold condemn
  simp)

@[simp] theorem startFails_frame (μ : Nat) (hm : 50331580 ||| μ = μ) (u : DUnit) (s : State) : forget μ (startFails u s) = forget μ s := widen (a := 50331580) hm (by
  unfold startFails
  (repeat' split) <;> simp)

@[simp] theorem beginStop_frame (μ : Nat) (hm : 32898 ||| μ = μ) (u : DUnit) (s : State) : forget μ (beginStop u s) = forget μ s := widen (a := 32898) hm (by
  unfold beginStop
  simp)

@[simp] theorem withRel_frame (μ : Nat) (hm : 35848848 ||| μ = μ) (u : DUnit) (s : State) : forget μ (withRel u s) = forget μ s := widen (a := 35848848) hm (by
  unfold withRel
  simp)

@[simp] theorem endStart_frame (μ : Nat) (hm : 50331580 ||| μ = μ) (u : DUnit) (passed : Bool) (s : State) : forget μ (endStart u passed s) = forget μ s := widen (a := 50331580) hm (by
  unfold endStart
  simp)

end Sys2Proof.Machine
end

