-- ==== Sys2Proof/Laws/FrameModeOps.lean ====
section
/-!
SUPPORT. Frames of the operations of Machine/ModeOps.lean: the parts of the state that each can change.
-/
namespace Sys2Proof.Machine
set_option linter.all false

theorem restartDevice_frame (μ : Nat) (hm : 16777148 ||| μ = μ) (s : State) (z : State) (e : restartDevice s = some z) : forget μ z = forget μ s := widen (a := 16777148) hm (by
  revert e
  unfold restartDevice
  repeat' (first | (intro e; cases e; done) | (intro e; cases e; repeat' (first | with_reducible rfl | simp only [↓modCai_frame, ↓setMode_frame, ↓restartReset_frame, ↓stopFast_frame, forget_ite, Nat.reduceOr] | (refine Eq.trans (forget_foldS _ _ (fun _ _ => ?_) _ _) ?_) | (refine Eq.trans (congrArg (forget _) (congrArg Prod.snd ‹_ = (_, _)›).symm) ?_) | (refine Eq.trans (modLcs_frame _ (by decide) _ _ (fun _ => ?_)) ?_) | (show fuses _ = fuses _; first | rfl | (split <;> rfl)) | simp only [Option.getD] | split | dsimp only)) | (intro e; obtain ⟨_, _, rfl⟩ := Option.map_eq_some_iff.mp e; repeat' (first | with_reducible rfl | simp only [↓modCai_frame, ↓setMode_frame, ↓restartReset_frame, ↓stopFast_frame, forget_ite, Nat.reduceOr] | (refine Eq.trans (forget_foldS _ _ (fun _ _ => ?_) _ _) ?_) | (refine Eq.trans (congrArg (forget _) (congrArg Prod.snd ‹_ = (_, _)›).symm) ?_) | (refine Eq.trans (modLcs_frame _ (by decide) _ _ (fun _ => ?_)) ?_) | (show fuses _ = fuses _; first | rfl | (split <;> rfl)) | simp only [Option.getD] | split | dsimp only)) | split | dsimp only))

@[simp] theorem refuseRequest_frame (μ : Nat) (hm : 48 ||| μ = μ) (s : State) : forget μ (refuseRequest s) = forget μ s := widen (a := 48) hm (by
  unfold refuseRequest
  simp)

@[simp] theorem modeRequest_frame (μ : Nat) (hm : 16777148 ||| μ = μ) (p : Path) (request : Nat) (s : State) : forget μ (modeRequest p request s) = forget μ s := widen (a := 16777148) hm (by
  unfold modeRequest
  repeat' (first | with_reducible rfl | simp only [↓modCai_frame, ↓setMode_frame, ↓refuseRequest_frame, forget_ite, ite_self, Nat.reduceOr] | (refine Eq.trans (forget_foldS _ _ (fun _ _ => ?_) _ _) ?_) | (refine Eq.trans (congrArg (forget _) (congrArg Prod.snd ‹_ = (_, _)›).symm) ?_) | (refine Eq.trans (restartDevice_frame _ (by first | decide | exact or_trans rfl hm) _ _ ‹_›) ?_) | simp only [Option.getD] | split | dsimp only))

@[simp] theorem endPause_frame (μ : Nat) (hm : 2115228 ||| μ = μ) (s : State) : forget μ (endPause s) = forget μ s := widen (a := 2115228) hm (by
  unfold endPause
  simp)

@[simp] theorem bringupDone_frame (μ : Nat) (hm : 2097812 ||| μ = μ) (m : Mode) (s : State) : forget μ (bringupDone m s) = forget μ s := widen (a := 2097812) hm (by
  unfold bringupDone
  simp)

@[simp] theorem tryFinish_frame (μ : Nat) (hm : 2115228 ||| μ = μ) (s : State) : forget μ (tryFinish s) = forget μ s := widen (a := 2115228) hm (by
  unfold tryFinish
  simp)

@[simp] theorem drainFlush_frame (μ : Nat) (hm : 37308188 ||| μ = μ) (s : State) : forget μ (drainFlush s) = forget μ s := widen (a := 37308188) hm (by
  unfold drainFlush
  repeat' (first | with_reducible rfl | simp only [↓modChan_frame, ↓jobDone_frame, ↓opDone_frame, ↓nvComplete_frame, ↓dropFrame_frame, ↓removeMsgs_frame, ↓finishWork_frame, forget_ite, ite_self, Nat.reduceOr] | (refine Eq.trans (forget_foldS _ _ (fun _ _ => ?_) _ _) ?_) | (refine Eq.trans (congrArg (forget _) (congrArg Prod.snd ‹_ = (_, _)›).symm) ?_) | split | dsimp only))

@[simp] theorem faultStop_frame (μ : Nat) (hm : 16646076 ||| μ = μ) (s : State) : forget μ (faultStop s) = forget μ s := widen (a := 16646076) hm (by
  unfold faultStop
  (repeat' split) <;> simp)

@[simp] theorem bootDomains_frame (μ : Nat) (hm : 128 ||| μ = μ) (s : State) : forget μ (bootDomains s) = forget μ s := widen (a := 128) hm (by
  unfold bootDomains
  repeat' (first | with_reducible rfl | simp only [↓wakeUnit_frame, Nat.reduceOr] | (refine Eq.trans (forget_foldS _ _ (fun _ _ => ?_) _ _) ?_) | (refine Eq.trans (congrArg (forget _) (congrArg Prod.snd ‹_ = (_, _)›).symm) ?_) | split | dsimp only))

@[simp] theorem downForImage_frame (μ : Nat) (hm : 8251196 ||| μ = μ) (s : State) : forget μ (downForImage s) = forget μ s := widen (a := 8251196) hm (by
  unfold downForImage
  repeat' (first | with_reducible rfl | simp only [↓lportDown_frame, ↓akzPortDown_frame, ↓halfDown_frame, forget_ite, ite_self, Nat.reduceOr] | (refine Eq.trans (forget_foldS _ _ (fun _ _ => ?_) _ _) ?_) | (refine Eq.trans (congrArg (forget _) (congrArg Prod.snd ‹_ = (_, _)›).symm) ?_) | split | dsimp only))

@[simp] theorem applyBootSettings_frame (μ : Nat) (hm : 6293392 ||| μ = μ) (st : Settings) (s : State) : forget μ (applyBootSettings st s) = forget μ s := widen (a := 6293392) hm (by
  unfold applyBootSettings
  repeat' (first | with_reducible rfl | simp only [↓modCai_frame, ↓raise_frame, ↓modFn_frame, ↓setReg_frame, ↓akzBegin_frame, ↓beginUp_frame, forget_ite, ite_self, Nat.reduceOr] | (refine Eq.trans (forget_foldS _ _ (fun _ _ => ?_) _ _) ?_) | (refine Eq.trans (congrArg (forget _) (congrArg Prod.snd ‹_ = (_, _)›).symm) ?_) | split | dsimp only))

@[simp] theorem startImage_frame (μ : Nat) (hm : 10883712 ||| μ = μ) (slot : Nat) (bs : Bytes) (s : State) : forget μ (startImage slot bs s) = forget μ s := widen (a := 10883712) hm (by
  unfold startImage
  repeat' (first | with_reducible rfl | simp only [↓modCai_frame, ↓devWrite_frame, ↓modPrs_frame, ↓startFirmware_frame, forget_ite, ite_self, Nat.reduceOr] | (refine Eq.trans (forget_foldS _ _ (fun _ _ => ?_) _ _) ?_) | (refine Eq.trans (congrArg (forget _) (congrArg Prod.snd ‹_ = (_, _)›).symm) ?_) | (refine Eq.trans (modLcs_frame _ (by decide) _ _ (fun _ => ?_)) ?_) | (show fuses _ = fuses _; first | rfl | (split <;> rfl)) | simp only [Option.getD] | split | dsimp only))

@[simp] theorem bootRecovery_frame (μ : Nat) (hm : 16775100 ||| μ = μ) (s : State) : forget μ (bootRecovery s) = forget μ s := widen (a := 16775100) hm (by
  unfold bootRecovery
  (repeat' split) <;> simp)

@[simp] theorem bootFallback_frame (μ : Nat) (hm : 2097712 ||| μ = μ) (source : Nat) (s : State) : forget μ (bootFallback source s) = forget μ s := widen (a := 2097712) hm (by
  unfold bootFallback
  simp)

@[simp] theorem bootInto_frame (μ : Nat) (hm : 16775100 ||| μ = μ) (b : Nat) (bs : Bytes) (s : State) : forget μ (bootInto b bs s) = forget μ s := widen (a := 16775100) hm (by
  unfold bootInto
  simp)

@[simp] theorem bootBanks_frame (μ : Nat) (hm : 16775100 ||| μ = μ) (s : State) : forget μ (bootBanks s) = forget μ s := widen (a := 16775100) hm (by
  unfold bootBanks
  repeat' (first | with_reducible rfl | simp only [↓bootInto_frame, ↓bootFallback_frame, ↓bootRecovery_frame, forget_ite, ite_self, Nat.reduceOr] | split))

@[simp] theorem bootNeighbour_frame (μ : Nat) (hm : 16775100 ||| μ = μ) (bs : Bytes) (s : State) : forget μ (bootNeighbour bs s) = forget μ s := widen (a := 16775100) hm (by
  unfold bootNeighbour
  simp)

@[simp] theorem deriveKeys_frame (μ : Nat) (hm : 262144 ||| μ = μ) (s : State) : forget μ (deriveKeys s) = forget μ s := widen (a := 262144) hm (by
  unfold deriveKeys
  repeat' (first | with_reducible rfl | simp only [] | (refine Eq.trans (forget_foldS _ _ (fun _ _ => ?_) _ _) ?_) | (refine Eq.trans (congrArg (forget _) (congrArg Prod.snd ‹_ = (_, _)›).symm) ?_) | (refine Eq.trans (modLcs_frame _ (by decide) _ _ (fun _ => ?_)) ?_) | (show fuses _ = fuses _; first | rfl | (split <;> rfl)) | simp only [Option.getD] | split | dsimp only))

@[simp] theorem selfTest_frame (μ : Nat) (hm : 2228736 ||| μ = μ) (failed : List (Nat × Nat)) (s : State) : forget μ (selfTest failed s) = forget μ s := widen (a := 2228736) hm (by
  unfold selfTest
  repeat' (first | with_reducible rfl | simp only [↓mcLog_frame, ↓modUnit_frame, ↓modRel_frame, ↓spareExhausted_frame, ↓modSvc_frame, forget_ite, Nat.reduceOr] | (refine Eq.trans (forget_foldS _ _ (fun _ _ => ?_) _ _) ?_) | (refine Eq.trans (congrArg (forget _) (congrArg Prod.snd ‹_ = (_, _)›).symm) ?_) | split | dsimp only))

@[simp] theorem bootSteps_frame (μ : Nat) (hm : 33552316 ||| μ = μ) (boot : BootInput) (s : State) : forget μ (bootSteps boot s) = forget μ s := widen (a := 33552316) hm (by
  unfold bootSteps
  repeat' (first | with_reducible rfl | simp only [↓readFlash_frame, ↓selfTest_frame, ↓deriveKeys_frame, ↓zeroise_frame, ↓bringupDone_frame, ↓raise_frame, ↓hwSet_frame, ↓startTraining_frame, ↓bootDomains_frame, ↓bootInto_frame, ↓bootNeighbour_frame, ↓akzBegin_frame, ↓modCai_frame, ↓bootBanks_frame, forget_ite, ite_self, Nat.reduceOr] | split))

end Sys2Proof.Machine
end

