-- ==== Sys2Proof/Laws/FrameAkz.lean ====
section
/-!
SUPPORT. Frames of the operations of Machine/Akz.lean: the parts of the state that each can change.
-/
namespace Sys2Proof.Machine
set_option linter.all false

@[simp] theorem akzForget_frame (μ : Nat) (hm : 6291968 ||| μ = μ) (p : Path) (member : Nat) (s : State) : forget μ (akzForget p member s) = forget μ s := widen (a := 6291968) hm (by
  unfold akzForget
  simp)

@[simp] theorem execMasterChange_frame (μ : Nat) (hm : 6291968 ||| μ = μ) (s : State) : forgetO μ s (execMasterChange s) = forget μ s := widenO (a := 6291968) hm (by
  unfold execMasterChange
  simp)

@[simp] theorem akzUtc_frame (μ : Nat) (hm : 2130448 ||| μ = μ) (slot : Nat) (b : Bytes) (s : State) : forget μ (akzUtc slot b s) = forget μ s := widen (a := 2130448) hm (by
  unfold akzUtc
  simp)

@[simp] theorem execTimeFrameRx_frame (μ : Nat) (hm : 6324916 ||| μ = μ) (port : Nat) (body : Bytes) (s : State) : forgetO μ s (execTimeFrameRx port body s) = forget μ s := widenO (a := 6324916) hm (by
  unfold execTimeFrameRx
  repeat' (first | with_reducible rfl | simp only [↓modAkzPort_frame, ↓akzUtc_frame, ↓measure_frame, ↓modSlot_frame, ite_self, forgetO_next, forgetO_ite, Nat.reduceOr] | split))

@[simp] theorem execBootReq_frame (μ : Nat) (hm : 4194308 ||| μ = μ) (received : Bool) (s : State) : forgetO μ s (execBootReq received s) = forget μ s := widenO (a := 4194308) hm (by
  unfold execBootReq
  (repeat' split) <;> simp)

@[simp] theorem execEthRefclkLoss_frame (μ : Nat) (hm : 6571676 ||| μ = μ) (s : State) : forgetO μ s (execEthRefclkLoss s) = forget μ s := widenO (a := 6571676) hm (by
  unfold execEthRefclkLoss
  repeat' (first | with_reducible rfl | simp only [↓akzPortDown_frame, ↓lportDown_frame, ↓modCai_frame, forgetO_next, Nat.reduceOr] | (refine Eq.trans (forget_foldS _ _ (fun _ _ => ?_) _ _) ?_) | (refine Eq.trans (congrArg (forget _) (congrArg Prod.snd ‹_ = (_, _)›).symm) ?_) | split | dsimp only))

@[simp] theorem execImageFrame_frame (μ : Nat) (hm : 16775100 ||| μ = μ) (body : Bytes) (s : State) : forgetO μ s (execImageFrame body s) = forget μ s := widenO (a := 16775100) hm (by
  unfold execImageFrame
  repeat' (first | with_reducible rfl | simp only [↓modAkz_frame, ↓modCai_frame, ↓bootNeighbour_frame, ↓bootBanks_frame, ↓bootFallback_frame, ↓stageImage_frame, ↓sendTo_frame, forget_ite, ite_self, forgetO_next, forgetO_ite, Nat.reduceOr] | split))

@[simp] theorem execHelloRx_frame (μ : Nat) (hm : 6554112 ||| μ = μ) (port : Nat) (h : Hello) (s : State) : forgetO μ s (execHelloRx port h s) = forget μ s := widenO (a := 6554112) hm (by
  unfold execHelloRx
  simp)

@[simp] theorem acked_frame (μ : Nat) (hm : 6309388 ||| μ = μ) (port : Nat) (seq : Nat) (s : State) : forget μ (acked port seq s) = forget μ s := widen (a := 6309388) hm (by
  unfold acked
  repeat' (first | with_reducible rfl | simp only [↓modAkzPort_frame, ↓akzPump_frame, ↓endItem_frame, forget_ite, Nat.reduceOr] | (refine Eq.trans (forget_foldS _ _ (fun _ _ => ?_) _ _) ?_) | (refine Eq.trans (congrArg (forget _) (congrArg Prod.snd ‹_ = (_, _)›).symm) ?_) | split | dsimp only))

@[simp] theorem execLinkNakRx_frame (μ : Nat) (hm : 6571548 ||| μ = μ) (port : Nat) (seq : Nat) (s : State) : forgetO μ s (execLinkNakRx port seq s) = forget μ s := widenO (a := 6571548) hm (by
  unfold execLinkNakRx
  repeat' (first | with_reducible rfl | simp only [↓acked_frame, ↓akzPortDown_frame, ↓akzStat_frame, ↓modAkzPort_frame, ↓emit_frame, forgetO_next, forgetO_ite, Nat.reduceOr] | (refine Eq.trans (forget_foldS _ _ (fun _ _ => ?_) _ _) ?_) | (refine Eq.trans (congrArg (forget _) (congrArg Prod.snd ‹_ = (_, _)›).symm) ?_) | split | dsimp only))

@[simp] theorem execAkzPortDown_frame (μ : Nat) (hm : 6571548 ||| μ = μ) (port : Nat) (s : State) : forgetO μ s (execAkzPortDown port s) = forget μ s := widenO (a := 6571548) hm (by
  unfold execAkzPortDown
  simp)

@[simp] theorem execImageResult_frame (μ : Nat) (hm : 6554116 ||| μ = μ) (member : Nat) (status : Nat) (s : State) : forgetO μ s (execImageResult member status s) = forget μ s := widenO (a := 6554116) hm (by
  unfold execImageResult
  (repeat' split) <;> simp)

@[simp] theorem execTimeFrameTx_frame (μ : Nat) (hm : 4194308 ||| μ = μ) (port : Nat) (s : State) : forgetO μ s (execTimeFrameTx port s) = forget μ s := widenO (a := 4194308) hm (by
  unfold execTimeFrameTx
  simp)

@[simp] theorem execHelloTimeout_frame (μ : Nat) (hm : 6586882 ||| μ = μ) (port : Nat) (s : State) : forgetO μ s (execHelloTimeout port s) = forget μ s := widenO (a := 6586882) hm (by
  unfold execHelloTimeout
  simp)

@[simp] theorem execHelloTx_frame (μ : Nat) (hm : 4194308 ||| μ = μ) (port : Nat) (s : State) : forgetO μ s (execHelloTx port s) = forget μ s := widenO (a := 4194308) hm (by
  unfold execHelloTx
  simp)

@[simp] theorem execLinkFrameRx_frame (μ : Nat) (hm : 6309388 ||| μ = μ) (port : Nat) (crcOk : Bool) (rx : LinkRx) (s : State) : forgetO μ s (execLinkFrameRx port crcOk rx s) = forget μ s := widenO (a := 6309388) hm (by
  unfold execLinkFrameRx
  (repeat' split) <;> simp)

@[simp] theorem execAkzPortUp_frame (μ : Nat) (hm : 6554116 ||| μ = μ) (port : Nat) (s : State) : forgetO μ s (execAkzPortUp port s) = forget μ s := widenO (a := 6554116) hm (by
  unfold execAkzPortUp
  repeat' (first | with_reducible rfl | simp only [↓akzEvent_frame, ↓modAkzPort_frame, ↓grantCredit_frame, ↓judgeChain_frame, ↓tryJoin_frame, forgetO_next, forgetO_ite, Nat.reduceOr] | (refine Eq.trans (forget_foldS _ _ (fun _ _ => ?_) _ _) ?_) | (refine Eq.trans (congrArg (forget _) (congrArg Prod.snd ‹_ = (_, _)›).symm) ?_) | split | dsimp only))

@[simp] theorem execEthRefclkReturn_frame (μ : Nat) (hm : 4195456 ||| μ = μ) (s : State) : forgetO μ s (execEthRefclkReturn s) = forget μ s := widenO (a := 4195456) hm (by
  unfold execEthRefclkReturn
  repeat' (first | with_reducible rfl | simp only [↓akzBegin_frame, ↓beginUp_frame, ↓modCai_frame, forgetO_next, Nat.reduceOr] | (refine Eq.trans (forget_foldS _ _ (fun _ _ => ?_) _ _) ?_) | (refine Eq.trans (congrArg (forget _) (congrArg Prod.snd ‹_ = (_, _)›).symm) ?_) | split | dsimp only))

end Sys2Proof.Machine
end

