-- ==== Sys2Proof/Laws/FrameMac.lean ====
section
/-!
SUPPORT. Frames of the operations of Machine/Mac.lean: the parts of the state that each can change.
-/
namespace Sys2Proof.Machine
set_option linter.all false

@[simp] theorem fltResult_frame (μ : Nat) (hm : 16 ||| μ = μ) (p : Path) (r : Nat) (idx : Option Nat) (s : State) : forget μ (fltResult p r idx s) = forget μ s := widen (a := 16) hm (by
  unfold fltResult
  simp)

@[simp] theorem filterOther_frame (μ : Nat) (hm : 1040 ||| μ = μ) (p : Path) (read : Bool) (index : Nat) (s : State) : forget μ (filterOther p read index s) = forget μ s := widen (a := 1040) hm (by
  unfold filterOther
  repeat' (first | with_reducible rfl | simp only [↓fltResult_frame, ↓setReg_frame, ↓modMac_frame, forget_ite, Nat.reduceOr] | (refine Eq.trans (forget_foldS _ _ (fun _ _ => ?_) _ _) ?_) | (refine Eq.trans (congrArg (forget _) (congrArg Prod.snd ‹_ = (_, _)›).symm) ?_) | split | dsimp only))

@[simp] theorem fltPlace_frame (μ : Nat) (hm : 1032 ||| μ = μ) (e : Bytes) (s : State) : forget μ (fltPlace e s).2.2 = forget μ s := widen (a := 1032) hm (by
  unfold fltPlace
  repeat' (first | with_reducible rfl | simp only [↓pickFree_frame, ↓modMac_frame, Nat.reduceOr] | split))

@[simp] theorem filterAdd_frame (μ : Nat) (hm : 1048 ||| μ = μ) (p : Path) (s : State) : forget μ (filterAdd p s) = forget μ s := widen (a := 1048) hm (by
  unfold filterAdd
  simp)

@[simp] theorem macEvent_frame (μ : Nat) (hm : 2097664 ||| μ = μ) (code : Nat) (lp : Nat) (p : Nat) (s : State) : forget μ (macEvent code lp p s) = forget μ s := widen (a := 2097664) hm (by
  unfold macEvent
  simp)

@[simp] theorem statSnap_frame (μ : Nat) (hm : 16 ||| μ = μ) (p : Path) (lp : Nat) (s : State) : forget μ (statSnap p lp s) = forget μ s := widen (a := 16) hm (by
  unfold statSnap
  repeat' (first | with_reducible rfl | simp only [↓setReg_frame, ↓setPair64_frame, forget_ite, Nat.reduceOr] | (refine Eq.trans (forget_foldS _ _ (fun _ _ => ?_) _ _) ?_) | (refine Eq.trans (congrArg (forget _) (congrArg Prod.snd ‹_ = (_, _)›).symm) ?_) | split | dsimp only))

@[simp] theorem lpCfgWrite_frame (μ : Nat) (hm : 2115100 ||| μ = μ) (p : Path) (lp : Nat) (v : Word) (s : State) : forget μ (lpCfgWrite p lp v s) = forget μ s := widen (a := 2115100) hm (by
  unfold lpCfgWrite
  simp)

@[simp] theorem portCfgWrite_frame (μ : Nat) (hm : 2115100 ||| μ = μ) (p : Path) (n : Nat) (v : Word) (s : State) : forget μ (portCfgWrite p n v s) = forget μ s := widen (a := 2115100) hm (by
  unfold portCfgWrite
  repeat' (first | with_reducible rfl | simp only [↓setReg_frame, ↓lportDown_frame, ↓beginUp_frame, forget_ite, ite_self, Nat.reduceOr] | (refine Eq.trans (forget_foldS _ _ (fun _ _ => ?_) _ _) ?_) | (refine Eq.trans (congrArg (forget _) (congrArg Prod.snd ‹_ = (_, _)›).symm) ?_) | split | dsimp only))

@[simp] theorem poolDrop_frame (μ : Nat) (hm : 2097680 ||| μ = μ) (s : State) : forget μ (poolDrop s) = forget μ s := widen (a := 2097680) hm (by
  unfold poolDrop
  simp)

@[simp] theorem execPauseRxStorm_frame (μ : Nat) (hm : 2131458 ||| μ = μ) (lp : Nat) (prio : Nat) (s : State) : forgetO μ s (execPauseRxStorm lp prio s) = forget μ s := widenO (a := 2131458) hm (by
  unfold execPauseRxStorm
  repeat' (first | with_reducible rfl | simp only [↓macEvent_frame, ↓modPrio_frame, ↓advanceTo_frame, ite_self, forgetO_next, forgetO_ite, Nat.reduceOr] | split))

@[simp] theorem execLinkDown_frame (μ : Nat) (hm : 2115084 ||| μ = μ) (lp : Nat) (s : State) : forgetO μ s (execLinkDown lp s) = forget μ s := widenO (a := 2115084) hm (by
  unfold execLinkDown
  simp)

@[simp] theorem execPauseRefresh_frame (μ : Nat) (hm : 33798 ||| μ = μ) (lp : Nat) (prio : Nat) (s : State) : forgetO μ s (execPauseRefresh lp prio s) = forget μ s := widenO (a := 33798) hm (by
  unfold execPauseRefresh
  simp)

@[simp] theorem takeFrame_frame (μ : Nat) (hm : 2115092 ||| μ = μ) (lp : Nat) (bytes : Bytes) (fcs : Nat) (s : State) : forget μ (takeFrame lp bytes fcs s) = forget μ s := widen (a := 2115092) hm (by
  unfold takeFrame
  repeat' (first | with_reducible rfl | simp only [↓lpCount_frame, ↓macEvent_frame, ↓newFrame_frame, ↓judgeFlow_frame, ↓poolDrop_frame, forget_ite, ite_self, Nat.reduceOr] | (refine Eq.trans (forget_foldS _ _ (fun _ _ => ?_) _ _) ?_) | (refine Eq.trans (congrArg (forget _) (congrArg Prod.snd ‹_ = (_, _)›).symm) ?_) | (refine Eq.trans (takeCells_frame _ (by first | decide | exact or_trans rfl hm) _ _ _ _ _ ‹_›) ?_) | simp only [Option.getD] | split | dsimp only))

@[simp] theorem pauseTime_frame (μ : Nat) (hm : 1024 ||| μ = μ) (lp : Nat) (p : Nat) (q : Nat) (s : State) : forget μ (pauseTime lp p q s) = forget μ s := widen (a := 1024) hm (by
  unfold pauseTime
  simp)

@[simp] theorem controlFrame_frame (μ : Nat) (hm : 1024 ||| μ = μ) (lp : Nat) (n : Nat) (opcode : Nat) (enable : Nat) (quanta : List Nat) (s0 : State) : forget μ (controlFrame lp n opcode enable quanta s0) = forget μ s0 := widen (a := 1024) hm (by
  unfold controlFrame
  repeat' (first | with_reducible rfl | simp only [↓lpCount_frame, ↓pauseTime_frame, forget_ite, ite_self, Nat.reduceOr] | (refine Eq.trans (forget_foldS _ _ (fun _ _ => ?_) _ _) ?_) | (refine Eq.trans (congrArg (forget _) (congrArg Prod.snd ‹_ = (_, _)›).symm) ?_) | split | dsimp only))

@[simp] theorem txRecover_frame (μ : Nat) (hm : 33798 ||| μ = μ) (lp : Nat) (prio : Nat) (since : Nat) (s : State) : forget μ (txRecover lp prio since s) = forget μ s := widen (a := 33798) hm (by
  unfold txRecover
  simp)

@[simp] theorem rxRecover_frame (μ : Nat) (hm : 33794 ||| μ = μ) (lp : Nat) (prio : Nat) (s : State) : forget μ (rxRecover lp prio s) = forget μ s := widen (a := 33794) hm (by
  unfold rxRecover
  simp)

@[simp] theorem execPauseTxStorm_frame (μ : Nat) (hm : 2131462 ||| μ = μ) (lp : Nat) (prio : Nat) (s : State) : forgetO μ s (execPauseTxStorm lp prio s) = forget μ s := widenO (a := 2131462) hm (by
  unfold execPauseTxStorm
  simp)

@[simp] theorem execStormRecover_frame (μ : Nat) (hm : 33798 ||| μ = μ) (lp : Nat) (prio : Nat) (s : State) : forgetO μ s (execStormRecover lp prio s) = forget μ s := widenO (a := 33798) hm (by
  unfold execStormRecover
  repeat' (first | with_reducible rfl | simp only [↓rxRecover_frame, ↓txRecover_frame, forget_ite, ite_self, forgetO_next, Nat.reduceOr] | split))

@[simp] theorem execFecWindow_frame (μ : Nat) (hm : 2098688 ||| μ = μ) (lp : Nat) (corrected : Nat) (uncorrected : Nat) (s : State) : forgetO μ s (execFecWindow lp corrected uncorrected s) = forget μ s := widenO (a := 2098688) hm (by
  unfold execFecWindow
  simp)

@[simp] theorem execLinkUp_frame (μ : Nat) (hm : 2098692 ||| μ = μ) (lp : Nat) (s : State) : forgetO μ s (execLinkUp lp s) = forget μ s := widenO (a := 2098692) hm (by
  unfold execLinkUp
  simp)

@[simp] theorem execPauseHoldExpiry_frame (μ : Nat) (hm : 33794 ||| μ = μ) (lp : Nat) (prio : Nat) (s : State) : forgetO μ s (execPauseHoldExpiry lp prio s) = forget μ s := widenO (a := 33794) hm (by
  unfold execPauseHoldExpiry
  (repeat' split) <;> simp)

@[simp] theorem execPauseFrameRx_frame (μ : Nat) (hm : 1024 ||| μ = μ) (lp : Nat) (opcode : Nat) (enable : Nat) (quanta : List Nat) (s : State) : forgetO μ s (execPauseFrameRx lp opcode enable quanta s) = forget μ s := widenO (a := 1024) hm (by
  unfold execPauseFrameRx
  simp)

@[simp] theorem execFrameReceived_frame (μ : Nat) (hm : 2115092 ||| μ = μ) (lp : Nat) (bytes : Bytes) (fcs : BitVec 32) (s : State) : forgetO μ s (execFrameReceived lp bytes fcs s) = forget μ s := widenO (a := 2115092) hm (by
  unfold execFrameReceived
  simp)

end Sys2Proof.Machine
end

