-- ==== Sys2Proof/Laws/FrameSchedOps.lean ====
section
/-!
SUPPORT. Frames of the operations of Machine/SchedOps.lean: the parts of the state that each can change.
-/
namespace Sys2Proof.Machine
set_option linter.all false

@[simp] theorem modNode_frame (μ : Nat) (hm : 16384 ||| μ = μ) (k : Nat) (g : NodeSt → NodeSt) (s : State) : forget μ (modNode k g s) = forget μ s := widen (a := 16384) hm (by
  unfold modNode
  simp)

@[simp] theorem applyCredit_frame (μ : Nat) (hm : 16384 ||| μ = μ) (k : Nat) (s : State) : forget μ (applyCredit k s) = forget μ s := widen (a := 16384) hm (by
  unfold applyCredit
  simp)

@[simp] theorem lostCopy_frame (μ : Nat) (hm : 2115084 ||| μ = μ) (id : Nat) (s : State) : forget μ (lostCopy id s) = forget μ s := widen (a := 2115084) hm (by
  unfold lostCopy
  simp)

@[simp] theorem holdSource_frame (μ : Nat) (hm : 16896 ||| μ = μ) (f : Frame) (eg : Nat) (s : State) : forget μ (holdSource f eg s) = forget μ s := widen (a := 16896) hm (by
  unfold holdSource
  (repeat' split) <;> simp)

@[simp] theorem creditPath_frame (μ : Nat) (hm : 16384 ||| μ = μ) (q : Nat) (s : State) : forget μ (creditPath q s) = forget μ s := widen (a := 16384) hm (by
  unfold creditPath
  repeat' (first | with_reducible rfl | simp only [↓applyCredit_frame, Nat.reduceOr] | (refine Eq.trans (forget_foldS _ _ (fun _ _ => ?_) _ _) ?_) | (refine Eq.trans (congrArg (forget _) (congrArg Prod.snd ‹_ = (_, _)›).symm) ?_) | split | dsimp only))

@[simp] theorem subtreeEmptied_frame (μ : Nat) (hm : 16384 ||| μ = μ) (q : Nat) (s : State) : forget μ (subtreeEmptied q s) = forget μ s := widen (a := 16384) hm (by
  unfold subtreeEmptied
  repeat' (first | with_reducible rfl | simp only [↓modNode_frame, forget_ite, ite_self, Nat.reduceOr] | (refine Eq.trans (forget_foldS _ _ (fun _ _ => ?_) _ _) ?_) | (refine Eq.trans (congrArg (forget _) (congrArg Prod.snd ‹_ = (_, _)›).symm) ?_) | split | dsimp only))

@[simp] theorem popHead_frame (μ : Nat) (hm : 16384 ||| μ = μ) (q : Nat) (s : State) : forget μ (popHead q s) = forget μ s := widen (a := 16384) hm (by
  unfold popHead
  simp)

theorem headDrop_frame (μ : Nat) (hm : 1040 ||| μ = μ) (s t : State) (q : Nat) (x : Copy) (g : State → State)
    (h : headDrop s q x = some g) : forget μ (g t) = forget μ t := by
  revert h
  unfold headDrop
  repeat' (first | (intro h; cases h; done) | (intro h; cases h; first | exact lpCount_frame μ (or_trans rfl hm) _ _ _ _ | exact bump_frame μ (or_trans rfl hm) _ _ _ _ _) | split | dsimp only)

theorem judgeHead_frame (μ : Nat) (hm : 2115100 ||| μ = μ) (q : Nat) : ∀ (n : Nat) (s : State), forget μ (judgeHead q n s) = forget μ s
  | 0, _ => rfl
  | n + 1, s => by
    unfold judgeHead
    split
    · rfl
    · split
      · rename_i h
        refine (judgeHead_frame μ hm q n _).trans ?_
        refine (copyDone_frame μ (or_trans rfl hm) _ _ _ _ _).trans ?_
        exact (headDrop_frame μ (or_trans rfl hm) _ _ _ _ _ h).trans (popHead_frame μ (or_trans rfl hm) q s)
      · exact modNode_frame μ (or_trans rfl hm) _ _ _

@[simp] theorem judgeQueue_frame (μ : Nat) (hm : 2115100 ||| μ = μ) (q : Nat) (s : State) : forget μ (judgeQueue q s) = forget μ s := widen (a := 2115100) hm (by
  unfold judgeQueue
  repeat' (first | with_reducible rfl | simp only [↓judgeHead_frame, Nat.reduceOr] | split))

@[simp] theorem admitCopy_frame (μ : Nat) (hm : 2115100 ||| μ = μ) (src : Frame) (k : Nat) (c : Copy) (s : State) : forget μ (admitCopy src k c s) = forget μ s := widen (a := 2115100) hm (by
  unfold admitCopy
  simp)

@[simp] theorem judgePort_frame (μ : Nat) (hm : 2115100 ||| μ = μ) (lp : Nat) (s : State) : forget μ (judgePort lp s) = forget μ s := widen (a := 2115100) hm (by
  unfold judgePort
  repeat' (first | with_reducible rfl | simp only [↓judgeQueue_frame, Nat.reduceOr] | (refine Eq.trans (forget_foldS _ _ (fun _ _ => ?_) _ _) ?_) | (refine Eq.trans (congrArg (forget _) (congrArg Prod.snd ‹_ = (_, _)›).symm) ?_) | split | dsimp only))

end Sys2Proof.Machine
end

