-- ==== Sys2Proof/Laws/FrameSvcCmds.lean ====
section
/-!
SUPPORT. Frames of the operations of Machine/SvcCmds.lean: the parts of the state that each can change.
-/
namespace Sys2Proof.Machine
set_option linter.all false

@[simp] theorem trap_frame (μ : Nat) (hm : 2097152 ||| μ = μ) (interrupt : Bool) (cause : Nat) (value : Nat) (t : Nat) (s : State) : forget μ (trap interrupt cause value t s) = forget μ s := widen (a := 2097152) hm (by
  unfold trap
  simp)

@[simp] theorem fmbxSend_frame (μ : Nat) (hm : 2097680 ||| μ = μ) (p : Path) (v : Word) (s : State) : forget μ (fmbxSend p v s) = forget μ s := widen (a := 2097680) hm (by
  unfold fmbxSend
  simp)

@[simp] theorem mbxSend_frame (μ : Nat) (hm : 2097712 ||| μ = μ) (f : Fn) (v : Word) (s : State) : forget μ (mbxSend f v s) = forget μ s := widen (a := 2097712) hm (by
  unfold mbxSend
  simp)

@[simp] theorem svcStat_frame (μ : Nat) (hm : 16 ||| μ = μ) (k : Nat) (n : Nat) (s : State) : forget μ (svcStat k n s) = forget μ s := widen (a := 16) hm (by
  unfold svcStat
  simp)

@[simp] theorem domResult_frame (μ : Nat) (hm : 16 ||| μ = μ) (r : Nat) (s : State) : forget μ (domResult r s) = forget μ s := widen (a := 16) hm (by
  unfold domResult
  simp)

@[simp] theorem freeHandles_frame (μ : Nat) (hm : 2115100 ||| μ = μ) (t : Nat) (s : State) : forget μ (freeHandles t s) = forget μ s := widen (a := 2115100) hm (by
  unfold freeHandles
  repeat' (first | with_reducible rfl | simp only [↓domResult_frame, ↓svcStat_frame, ↓freeHandle_frame, forget_ite, Nat.reduceOr] | (refine Eq.trans (forget_foldS _ _ (fun _ _ => ?_) _ _) ?_) | (refine Eq.trans (congrArg (forget _) (congrArg Prod.snd ‹_ = (_, _)›).symm) ?_) | split | dsimp only))

@[simp] theorem domainRestart_frame (μ : Nat) (hm : 2097712 ||| μ = μ) (t : Nat) (s : State) : forget μ (domainRestart t s) = forget μ s := widen (a := 2097712) hm (by
  unfold domainRestart
  simp)

@[simp] theorem chCfgWrite_frame (μ : Nat) (hm : 2097168 ||| μ = μ) (p : Path) (v0 : Word) (s : State) : forget μ (chCfgWrite p v0 s) = forget μ s := widen (a := 2097168) hm (by
  unfold chCfgWrite
  simp)

@[simp] theorem mbxPop_frame (μ : Nat) (hm : 2097664 ||| μ = μ) (f : Fn) (s : State) : forget μ (mbxPop f s).2 = forget μ s := widen (a := 2097664) hm (by
  unfold mbxPop
  repeat' (first | with_reducible rfl | simp only [↓devSend_frame, ↓modMbx_frame, Nat.reduceOr] | split))

@[simp] theorem abandonWait_frame (μ : Nat) (hm : 2097152 ||| μ = μ) (t : Nat) (s : State) : forget μ (abandonWait t s) = forget μ s := widen (a := 2097152) hm (by
  unfold abandonWait
  simp)

@[simp] theorem takeStall_frame (μ : Nat) (hm : 2097152 ||| μ = μ) (t : Nat) (s : State) : forget μ (takeStall t s) = forget μ s := widen (a := 2097152) hm (by
  unfold takeStall
  (repeat' split) <;> simp)

@[simp] theorem execFreeHandles_frame (μ : Nat) (hm : 2115100 ||| μ = μ) (thread : Nat) (s : State) : forgetO μ s (execFreeHandles thread s) = forget μ s := widenO (a := 2115100) hm (by
  unfold execFreeHandles
  simp)

@[simp] theorem execInject_frame (μ : Nat) (hm : 2114048 ||| μ = μ) (s : State) : forgetO μ s (execInject s) = forget μ s := widenO (a := 2114048) hm (by
  unfold execInject
  repeat' (first | with_reducible rfl | simp only [↓roomMade_frame, ↓modMsgs_frame, ↓sendDone_frame, ↓newFrame_frame, ↓modSvc_frame, ite_self, forgetO_next, forgetO_ite, Nat.reduceOr] | split))

@[simp] theorem execWaitDeadline_frame (μ : Nat) (hm : 2129922 ||| μ = μ) (thread : Nat) (s : State) : forgetO μ s (execWaitDeadline thread s) = forget μ s := widenO (a := 2129922) hm (by
  unfold execWaitDeadline
  repeat' (first | with_reducible rfl | simp only [↓endWait_frame, ↓advanceTai_frame, ite_self, forgetO_next, forgetO_ite, Nat.reduceOr] | split))

@[simp] theorem execContextExchange_frame (μ : Nat) (hm : 2097152 ||| μ = μ) (core : Nat) (s : State) : forgetO μ s (execContextExchange core s) = forget μ s := widenO (a := 2097152) hm (by
  unfold execContextExchange
  simp)

@[simp] theorem execStall_frame (μ : Nat) (hm : 2097680 ||| μ = μ) (domain : Nat) (s : State) : forgetO μ s (execStall domain s) = forget μ s := widenO (a := 2097680) hm (by
  unfold execStall
  simp)

@[simp] theorem execDomainRestart_frame (μ : Nat) (hm : 2097712 ||| μ = μ) (thread : Nat) (s : State) : forgetO μ s (execDomainRestart thread s) = forget μ s := widenO (a := 2097712) hm (by
  unfold execDomainRestart
  simp)

@[simp] theorem execHartreset_frame (μ : Nat) (hm : 2097152 ||| μ = μ) (thread : Nat) (s : State) : forgetO μ s (execHartreset thread s) = forget μ s := widenO (a := 2097152) hm (by
  unfold execHartreset
  simp)

@[simp] theorem execDebugHalt_frame (μ : Nat) (hm : 2097152 ||| μ = μ) (thread : Nat) (s : State) : forgetO μ s (execDebugHalt thread s) = forget μ s := widenO (a := 2097152) hm (by
  unfold execDebugHalt
  simp)

@[simp] theorem execDebugResume_frame (μ : Nat) (hm : 2097152 ||| μ = μ) (thread : Nat) (s : State) : forgetO μ s (execDebugResume thread s) = forget μ s := widenO (a := 2097152) hm (by
  unfold execDebugResume
  simp)

@[simp] theorem execLaneMismatch_frame (μ : Nat) (hm : 16777148 ||| μ = μ) (core : Nat) (s : State) : forgetO μ s (execLaneMismatch core s) = forget μ s := widenO (a := 16777148) hm (by
  unfold execLaneMismatch
  simp)

end Sys2Proof.Machine
end

