-- ==== Sys2Proof/Laws/FrameDeliver.lean ====
section
/-!
SUPPORT. Frames of the operations of Machine/Deliver.lean: the parts of the state that each can change.
-/
namespace Sys2Proof.Machine
set_option linter.all false

@[simp] theorem delivered_frame (μ : Nat) (hm : 2115084 ||| μ = μ) (id : Nat) (s : State) : forget μ (delivered id s) = forget μ s := widen (a := 2115084) hm (by
  unfold delivered
  simp)

@[simp] theorem deliverChannel_frame (μ : Nat) (hm : 2115100 ||| μ = μ) (id : Nat) (c : Nat) (reason : Nat) (origin : Nat) (bytes : Bytes) (flow : Option Nat) (s : State) : forget μ (deliverChannel id c reason origin bytes flow s) = forget μ s := widen (a := 2115100) hm (by
  unfold deliverChannel
  (repeat' split) <;> simp)

@[simp] theorem deliverPort_frame (μ : Nat) (hm : 2115100 ||| μ = μ) (id : Nat) (lp : Nat) (q : Nat) (cls : Nat) (default_ : Bool) (colour : Nat) (ts : Option (Nat × Nat × Nat)) (bytes : Bytes) (s : State) : forget μ (deliverPort id lp q cls default_ colour ts bytes s) = forget μ s := widen (a := 2115100) hm (by
  unfold deliverPort
  (repeat' split) <;> simp)

@[simp] theorem tblStat_frame (μ : Nat) (hm : 16 ||| μ = μ) (k : Nat) (s : State) : forget μ (tblStat k s) = forget μ s := widen (a := 16) hm (by
  unfold tblStat
  simp)

@[simp] theorem unboundCopy_frame (μ : Nat) (hm : 2115100 ||| μ = μ) (id : Nat) (s : State) : forget μ (unboundCopy id s) = forget μ s := widen (a := 2115100) hm (by
  unfold unboundCopy
  simp)

@[simp] theorem fillBuffers_frame (μ : Nat) (hm : 780 ||| μ = μ) (fn : Fn) (q ts bound flags : Nat) (hash : Bytes) :
    ∀ (l : List Work) (bs : Bytes) (s : State), forget μ (fillBuffers fn q ts bound flags hash l bs s) = forget μ s
  | [], _, _ => rfl
  | w :: l, bs, s => by
    unfold fillBuffers
    refine (fillBuffers_frame μ hm fn q ts bound flags hash l _ _).trans ?_
    refine (modWork_frame μ (or_trans rfl hm) _ _ _ _ _).trans ?_
    exact (payloadWrite_frame μ (or_trans rfl hm) _ _ _ _ _).trans (takeFree_frame μ (or_trans rfl hm) _)

@[simp] theorem countAt_frame (μ : Nat) (hm : 8192 ||| μ = μ) (i : Nat) (n : Nat) (s : State) : forget μ (countAt i n s) = forget μ s := widen (a := 8192) hm (by
  unfold countAt
  simp)

@[simp] theorem vportStat_frame (μ : Nat) (hm : 8192 ||| μ = μ) (v : Nat) (k : Nat) (n : Nat) (s : State) : forget μ (vportStat v k n s) = forget μ s := widen (a := 8192) hm (by
  unfold vportStat
  simp)

@[simp] theorem deliverTo_frame (μ : Nat) (hm : 2123532 ||| μ = μ) (id : Nat) (v : Nat) (fn : Fn) (q : Nat) (bytes : Bytes) (s : State) : forget μ (deliverTo id v fn q bytes s) = forget μ s := widen (a := 2123532) hm (by
  unfold deliverTo
  repeat' (first | with_reducible rfl | simp only [↓lostCopy_frame, ↓vportStat_frame, ↓delivered_frame, ↓fillBuffers_frame, forget_ite, Nat.reduceOr] | split))

@[simp] theorem deliverQueue_frame (μ : Nat) (hm : 2123548 ||| μ = μ) (id : Nat) (v : Nat) (q : Nat) (bytes : Bytes) (s : State) : forget μ (deliverQueue id v q bytes s) = forget μ s := widen (a := 2123548) hm (by
  unfold deliverQueue
  (repeat' split) <;> simp)

@[simp] theorem deliverInd_frame (μ : Nat) (hm : 2123548 ||| μ = μ) (id : Nat) (t : Nat) (bytes : Bytes) (s : State) : forget μ (deliverInd id t bytes s) = forget μ s := widen (a := 2123548) hm (by
  unfold deliverInd
  repeat' (first | with_reducible rfl | simp only [↓lostCopy_frame, ↓vportStat_frame, ↓deliverChannel_frame, ↓deliverTo_frame, forget_ite, Nat.reduceOr] | split))

@[simp] theorem deliverVport_frame (μ : Nat) (hm : 2123548 ||| μ = μ) (id : Nat) (v : Nat) (bytes : Bytes) (s : State) : forget μ (deliverVport id v bytes s) = forget μ s := widen (a := 2123548) hm (by
  unfold deliverVport
  simp)

@[simp] theorem enterAkz_frame (μ : Nat) (hm : 2114068 ||| μ = μ) (port : Nat) (ts : Nat) (bound : Nat) (bytes : Bytes) (back : Option (Nat × Nat × Nat)) (s : State) : forget μ (enterAkz port ts bound bytes back s) = forget μ s := widen (a := 2114068) hm (by
  unfold enterAkz
  repeat' (first | with_reducible rfl | simp only [↓newFrame_frame, ↓grantCredit_frame, ↓poolDrop_frame, Nat.reduceOr] | (refine Eq.trans (forget_foldS _ _ (fun _ _ => ?_) _ _) ?_) | (refine Eq.trans (congrArg (forget _) (congrArg Prod.snd ‹_ = (_, _)›).symm) ?_) | (refine Eq.trans (takeCells_frame _ (by first | decide | exact or_trans rfl hm) _ _ _ _ _ ‹_›) ?_) | simp only [Option.getD] | split | dsimp only))

@[simp] theorem akzLocal_frame (μ : Nat) (hm : 2123548 ||| μ = μ) (id : Nat) (port : Nat) (h : Bytes) (bytes : Bytes) (s : State) : forget μ (akzLocal id port h bytes s) = forget μ s := widen (a := 2123548) hm (by
  unfold akzLocal
  (repeat' split) <;> simp)

@[simp] theorem deliverAkzal_frame (μ : Nat) (hm : 6317852 ||| μ = μ) (id : Nat) (word : Nat) (cls : Nat) (colour : Nat) (bytes : Bytes) (s : State) : forget μ (deliverAkzal id word cls colour bytes s) = forget μ s := widen (a := 6317852) hm (by
  unfold deliverAkzal
  repeat' (first | with_reducible rfl | simp only [↓akzLocal_frame, ↓lostCopy_frame, ↓akzStat_frame, ↓forwardItem_frame, ↓holdSource_frame, forget_ite, ite_self, Nat.reduceOr] | split))

@[simp] theorem deliverCopy_frame (μ : Nat) (hm : 6317852 ||| μ = μ) (d : Delivery) (s : State) : forget μ (deliverCopy d s) = forget μ s := widen (a := 6317852) hm (by
  unfold deliverCopy
  repeat' (first | with_reducible rfl | simp only [↓deliverVport_frame, ↓deliverQueue_frame, ↓deliverInd_frame, ↓deliverPort_frame, ↓deliverChannel_frame, ↓deliverAkzal_frame, Nat.reduceOr] | split))

@[simp] theorem makeCopy_frame (μ : Nat) (hm : 6317852 ||| μ = μ) (id : Nat) (word : Nat) (bytes : Bytes) (s : State) : forget μ (makeCopy id word bytes s) = forget μ s := widen (a := 6317852) hm (by
  unfold makeCopy
  (repeat' split) <;> simp)

end Sys2Proof.Machine
end

