-- ==== Sys2Proof/Laws/FrameTblOps.lean ====
section
/-!
SUPPORT. Frames of the operations of Machine/TblOps.lean: the parts of the state that each can change.
-/
namespace Sys2Proof.Machine
set_option linter.all false

theorem inserted_frame (μ : Nat) (hm : 512 ||| μ = μ) (f : Fn) (q : Nat) (bank : Nat) (w : Work) (fin : State → State) (s : State) (h_fin : ∀ v0, forget μ (fin v0) = forget μ v0) : forget μ (inserted f q bank w fin s) = forget μ s := by
  unfold inserted
  repeat' (first | with_reducible rfl | simp only [↓(modWork_frame μ (or_trans (a := 512) (b := 512) rfl hm)), forget_ite, ite_self, h_fin] | (refine Eq.trans (forget_foldS _ _ (fun _ _ => ?_) _ _) ?_) | (refine Eq.trans (congrArg (forget _) (congrArg Prod.snd ‹_ = (_, _)›).symm) ?_) | split | dsimp only)

@[simp] theorem removeRoute_frame (μ : Nat) (hm : 8192 ||| μ = μ) (i : Nat) (s : State) : forget μ (removeRoute i s) = forget μ s := widen (a := 8192) hm (by
  unfold removeRoute
  (repeat' split) <;> simp)

@[simp] theorem highWater_frame (μ : Nat) (hm : 2097664 ||| μ = μ) (before : Nat) (s : State) : forget μ (highWater before s) = forget μ s := widen (a := 2097664) hm (by
  unfold highWater
  simp)

theorem addFlow_frame (μ : Nat) (hm : 2105864 ||| μ = μ) (rec : Bytes) (work : Option (Fn × Nat × Nat)) (s : State) (z : _) (e : addFlow rec work s = some z) : forget μ z.2 = forget μ s := widen (a := 2105864) hm (by
  revert e
  unfold addFlow
  repeat' (first | (intro e; cases e; done) | (intro e; cases e; repeat' (first | with_reducible rfl | simp only [↓pickFree_frame, ↓modTbl_frame, ↓highWater_frame, Nat.reduceOr] | (refine Eq.trans (forget_foldS _ _ (fun _ _ => ?_) _ _) ?_) | (refine Eq.trans (congrArg (forget _) (congrArg Prod.snd ‹_ = (_, _)›).symm) ?_) | (refine Eq.trans (place_frame _ (by first | decide | exact or_trans rfl hm) _ _ _ _ _ _ ‹_›) ?_) | simp only [Option.getD] | split | dsimp only)) | (intro e; obtain ⟨_, _, rfl⟩ := Option.map_eq_some_iff.mp e; repeat' (first | with_reducible rfl | simp only [↓pickFree_frame, ↓modTbl_frame, ↓highWater_frame, Nat.reduceOr] | (refine Eq.trans (forget_foldS _ _ (fun _ _ => ?_) _ _) ?_) | (refine Eq.trans (congrArg (forget _) (congrArg Prod.snd ‹_ = (_, _)›).symm) ?_) | (refine Eq.trans (place_frame _ (by first | decide | exact or_trans rfl hm) _ _ _ _ _ _ ‹_›) ?_) | simp only [Option.getD] | split | dsimp only)) | split | dsimp only))

@[simp] theorem tblDone_frame (μ : Nat) (hm : 512 ||| μ = μ) (f : Fn) (q : Nat) (w : Work) (result : Nat) (s : State) : forget μ (tblDone f q w result s) = forget μ s := widen (a := 512) hm (by
  unfold tblDone
  simp)

@[simp] theorem tblFail_frame (μ : Nat) (hm : 512 ||| μ = μ) (f : Fn) (q : Nat) (w : Work) (st : Nat) (s : State) : forget μ (tblFail f q w st s) = forget μ s := widen (a := 512) hm (by
  unfold tblFail
  simp)

@[simp] theorem toBuf_frame (μ : Nat) (hm : 260 ||| μ = μ) (f : Fn) (q : Nat) (w : Work) (bs : Bytes) (s : State) : forget μ (toBuf f q w bs s) = forget μ s := widen (a := 260) hm (by
  unfold toBuf
  simp)

@[simp] theorem flowDone_frame (μ : Nat) (hm : 520 ||| μ = μ) (f : Fn) (q : Nat) (w : Work) (result : Nat) (i : Option Nat) (s : State) : forget μ (flowDone f q w result i s) = forget μ s := widen (a := 520) hm (by
  unfold flowDone
  (repeat' split) <;> simp)

theorem runTbl_frame (μ : Nat) (hm : 512 ||| μ = μ) (f : Fn) (q : Nat) (op : Nat) (g : Work → Bytes → State → State) (s : State) (h_g : ∀ v0 v1 v2, forget μ (g v0 v1 v2) = forget μ v2) : forget μ (runTbl f q op g s) = forget μ s := by
  unfold runTbl
  repeat' (first | with_reducible rfl | simp only [↓(tblFail_frame μ (or_trans (a := 512) (b := 512) rfl hm)), forget_ite, h_g] | (refine Eq.trans (forget_foldS _ _ (fun _ _ => ?_) _ _) ?_) | (refine Eq.trans (congrArg (forget _) (congrArg Prod.snd ‹_ = (_, _)›).symm) ?_) | split | dsimp only)

@[simp] theorem writeFlow_frame (μ : Nat) (hm : 8192 ||| μ = μ) (i : Nat) (rec : Bytes) (s : State) : forget μ (writeFlow i rec s) = forget μ s := widen (a := 8192) hm (by
  unfold writeFlow
  simp)

@[simp] theorem setHit_frame (μ : Nat) (hm : 8192 ||| μ = μ) (i : Nat) (s : State) : forget μ (setHit i s) = forget μ s := widen (a := 8192) hm (by
  unfold setHit
  (repeat' split) <;> simp)

@[simp] theorem store_frame (μ : Nat) (hm : 8192 ||| μ = μ) (table : Nat) (i : Nat) (rec : Bytes) (s : State) : forget μ (store table i rec s) = forget μ s := widen (a := 8192) hm (by
  unfold store
  simp)

theorem addRoute_frame (μ : Nat) (hm : 2105864 ||| μ = μ) (rec : Bytes) (work : Option (Fn × Nat × Nat)) (s : State) (z : State) (e : addRoute rec work s = some z) : forget μ z = forget μ s := widen (a := 2105864) hm (by
  revert e
  unfold addRoute
  repeat' (first | (intro e; cases e; done) | (intro e; cases e; repeat' (first | with_reducible rfl | simp only [↓pickFree_frame, ↓modTbl_frame, ↓filterAddKey_frame, Nat.reduceOr] | (refine Eq.trans (forget_foldS _ _ (fun _ _ => ?_) _ _) ?_) | (refine Eq.trans (congrArg (forget _) (congrArg Prod.snd ‹_ = (_, _)›).symm) ?_) | (refine Eq.trans (place_frame _ (by first | decide | exact or_trans rfl hm) _ _ _ _ _ _ ‹_›) ?_) | simp only [Option.getD] | split | dsimp only)) | (intro e; obtain ⟨_, _, rfl⟩ := Option.map_eq_some_iff.mp e; repeat' (first | with_reducible rfl | simp only [↓pickFree_frame, ↓modTbl_frame, ↓filterAddKey_frame, Nat.reduceOr] | (refine Eq.trans (forget_foldS _ _ (fun _ _ => ?_) _ _) ?_) | (refine Eq.trans (congrArg (forget _) (congrArg Prod.snd ‹_ = (_, _)›).symm) ?_) | (refine Eq.trans (place_frame _ (by first | decide | exact or_trans rfl hm) _ _ _ _ _ _ ‹_›) ?_) | simp only [Option.getD] | split | dsimp only)) | split | dsimp only))

end Sys2Proof.Machine
end

