-- ==== Sys2Proof/Laws/FrameTblCmds.lean ====
section
/-!
SUPPORT. Frames of the operations of Machine/TblCmds.lean: the parts of the state that each can change.
-/
namespace Sys2Proof.Machine
set_option linter.all false

@[simp] theorem progWrite_frame (μ : Nat) (hm : 8192 ||| μ = μ) (p : Path) (s : State) : forget μ (progWrite p s) = forget μ s := widen (a := 8192) hm (by
  unfold progWrite
  simp)

@[simp] theorem seedWrite_frame (μ : Nat) (hm : 48 ||| μ = μ) (p : Path) (which : Nat) (v : Word) (s : State) : forget μ (seedWrite p which v s) = forget μ s := widen (a := 48) hm (by
  unfold seedWrite
  simp)

@[simp] theorem execFilterSwitch_frame (μ : Nat) (hm : 8192 ||| μ = μ) (s : State) : forgetO μ s (execFilterSwitch s) = forget μ s := widenO (a := 8192) hm (by
  unfold execFilterSwitch
  simp)

theorem onFlow_frame (μ : Nat) (hm : 520 ||| μ = μ) (f : Fn) (q : Nat) (w : Work) (locks : Bool) (g : Bytes → State → State) (s : State) (h_g : ∀ v0 v1, forget μ (g v0 v1) = forget μ v1) : forget μ (onFlow f q w locks g s) = forget μ s := by
  unfold onFlow
  repeat' (first | with_reducible rfl | simp only [↓(flowDone_frame μ (or_trans (a := 520) (b := 520) rfl hm)), ↓(tblFail_frame μ (or_trans (a := 512) (b := 520) rfl hm)), forget_ite, ite_self, h_g] | (refine Eq.trans (forget_foldS _ _ (fun _ _ => ?_) _ _) ?_) | (refine Eq.trans (congrArg (forget _) (congrArg Prod.snd ‹_ = (_, _)›).symm) ?_) | split | dsimp only)

@[simp] theorem execTblRead_frame (μ : Nat) (hm : 780 ||| μ = μ) (f : Fn) (q : Nat) (s : State) : forgetO μ s (execTblRead f q s) = forget μ s := widenO (a := 780) hm (by
  unfold execTblRead
  repeat' (first | with_reducible rfl | simp only [↓flowDone_frame, ↓toBuf_frame, ↓tblFail_frame, ↓tblDone_frame, forget_ite, ite_self, forgetO_next, Nat.reduceOr] | (refine Eq.trans (runTbl_frame _ (by first | decide | exact or_trans rfl hm) _ _ _ _ _ (fun _ _ _ => ?_)) ?_) | (refine Eq.trans (onFlow_frame _ (by first | decide | exact or_trans rfl hm) _ _ _ _ _ _ (fun _ _ => ?_)) ?_) | (refine Eq.trans (forget_foldS _ _ (fun _ _ => ?_) _ _) ?_) | (refine Eq.trans (congrArg (forget _) (congrArg Prod.snd ‹_ = (_, _)›).symm) ?_) | split | dsimp only))

@[simp] theorem findRoute_frame (μ : Nat) (hm : 772 ||| μ = μ) (f : Fn) (q : Nat) (w : Work) (bs : Bytes) (s : State) : forget μ (findRoute f q w bs s) = forget μ s := widen (a := 772) hm (by
  unfold findRoute
  (repeat' split) <;> simp)

@[simp] theorem execLockExpired_frame (μ : Nat) (hm : 2138642 ||| μ = μ) (index : Nat) (s : State) : forgetO μ s (execLockExpired index s) = forget μ s := widenO (a := 2138642) hm (by
  unfold execLockExpired
  (repeat' split) <;> simp)

@[simp] theorem overwriteFlow_frame (μ : Nat) (hm : 8712 ||| μ = μ) (f : Fn) (q : Nat) (w : Work) (bs : Bytes) (unlock : Bool) (s : State) : forget μ (overwriteFlow f q w bs unlock s) = forget μ s := widen (a := 8712) hm (by
  unfold overwriteFlow
  repeat' (first | with_reducible rfl | simp only [↓tblFail_frame, ↓writeFlow_frame, ↓flowDone_frame, ↓modTbl_frame, forget_ite, ite_self, Nat.reduceOr] | (refine Eq.trans (onFlow_frame _ (by first | decide | exact or_trans rfl hm) _ _ _ _ _ _ (fun _ _ => ?_)) ?_) | (refine Eq.trans (forget_foldS _ _ (fun _ _ => ?_) _ _) ?_) | (refine Eq.trans (congrArg (forget _) (congrArg Prod.snd ‹_ = (_, _)›).symm) ?_) | split | dsimp only))

@[simp] theorem execTblWriteUnlock_frame (μ : Nat) (hm : 8712 ||| μ = μ) (f : Fn) (q : Nat) (s : State) : forgetO μ s (execTblWriteUnlock f q s) = forget μ s := widenO (a := 8712) hm (by
  unfold execTblWriteUnlock
  repeat' (first | with_reducible rfl | simp only [↓overwriteFlow_frame, forgetO_next, Nat.reduceOr] | (refine Eq.trans (runTbl_frame _ (by first | decide | exact or_trans rfl hm) _ _ _ _ _ (fun _ _ _ => ?_)) ?_) | (refine Eq.trans (forget_foldS _ _ (fun _ _ => ?_) _ _) ?_) | (refine Eq.trans (congrArg (forget _) (congrArg Prod.snd ‹_ = (_, _)›).symm) ?_) | split | dsimp only))

@[simp] theorem execTblCounterRead_frame (μ : Nat) (hm : 8964 ||| μ = μ) (f : Fn) (q : Nat) (s : State) : forgetO μ s (execTblCounterRead f q s) = forget μ s := widenO (a := 8964) hm (by
  unfold execTblCounterRead
  repeat' (first | with_reducible rfl | simp only [↓tblFail_frame, ↓toBuf_frame, ↓tblDone_frame, ↓modTbl_frame, forget_ite, ite_self, forgetO_next, Nat.reduceOr] | (refine Eq.trans (runTbl_frame _ (by first | decide | exact or_trans rfl hm) _ _ _ _ _ (fun _ _ _ => ?_)) ?_) | (refine Eq.trans (forget_foldS _ _ (fun _ _ => ?_) _ _) ?_) | (refine Eq.trans (congrArg (forget _) (congrArg Prod.snd ‹_ = (_, _)›).symm) ?_) | split | dsimp only))

@[simp] theorem endPlacing_frame (μ : Nat) (hm : 8704 ||| μ = μ) (bank : Nat) (s : State) : forget μ (endPlacing bank s) = forget μ s := widen (a := 8704) hm (by
  unfold endPlacing
  repeat' (first | with_reducible rfl | simp only [↓modTbl_frame, ↓finishWork_frame, forget_ite, Nat.reduceOr] | (refine Eq.trans (forget_foldS _ _ (fun _ _ => ?_) _ _) ?_) | (refine Eq.trans (congrArg (forget _) (congrArg Prod.snd ‹_ = (_, _)›).symm) ?_) | (refine Eq.trans (putWay_frame _ (by first | decide | exact or_trans rfl hm) _ _ _ _ _ ‹_›) ?_) | simp only [Option.getD] | split | dsimp only))

@[simp] theorem writeDirect_frame (μ : Nat) (hm : 8704 ||| μ = μ) (f : Fn) (q : Nat) (w : Work) (bs : Bytes) (s : State) : forget μ (writeDirect f q w bs s) = forget μ s := widen (a := 8704) hm (by
  unfold writeDirect
  simp)

@[simp] theorem deleteFlow_frame (μ : Nat) (hm : 8712 ||| μ = μ) (f : Fn) (q : Nat) (w : Work) (bs : Bytes) (s : State) : forget μ (deleteFlow f q w bs s) = forget μ s := widen (a := 8712) hm (by
  unfold deleteFlow
  repeat' (first | with_reducible rfl | simp only [↓flowDone_frame, ↓tblFail_frame, ↓removeFlow_frame, forget_ite, ite_self, Nat.reduceOr] | split))

@[simp] theorem execTblLock_frame (μ : Nat) (hm : 8972 ||| μ = μ) (f : Fn) (q : Nat) (s : State) : forgetO μ s (execTblLock f q s) = forget μ s := widenO (a := 8972) hm (by
  unfold execTblLock
  repeat' (first | with_reducible rfl | simp only [↓tblFail_frame, ↓modTbl_frame, ↓flowDone_frame, ↓toBuf_frame, forget_ite, ite_self, forgetO_next, Nat.reduceOr] | (refine Eq.trans (runTbl_frame _ (by first | decide | exact or_trans rfl hm) _ _ _ _ _ (fun _ _ _ => ?_)) ?_) | (refine Eq.trans (onFlow_frame _ (by first | decide | exact or_trans rfl hm) _ _ _ _ _ _ (fun _ _ => ?_)) ?_) | (refine Eq.trans (forget_foldS _ _ (fun _ _ => ?_) _ _) ?_) | (refine Eq.trans (congrArg (forget _) (congrArg Prod.snd ‹_ = (_, _)›).symm) ?_) | split | dsimp only))

@[simp] theorem insertFlow_frame (μ : Nat) (hm : 2105864 ||| μ = μ) (f : Fn) (q : Nat) (w : Work) (bs : Bytes) (s : State) : forget μ (insertFlow f q w bs s) = forget μ s := widen (a := 2105864) hm (by
  unfold insertFlow
  repeat' (first | with_reducible rfl | simp only [↓tblFail_frame, ↓flowDone_frame, ↓writeFlow_frame, forget_ite, ite_self, Nat.reduceOr] | (refine Eq.trans (inserted_frame _ (by first | decide | exact or_trans rfl hm) _ _ _ _ _ _ (fun _ => ?_)) ?_) | (refine Eq.trans (forget_foldS _ _ (fun _ _ => ?_) _ _) ?_) | (refine Eq.trans (congrArg (forget _) (congrArg Prod.snd ‹_ = (_, _)›).symm) ?_) | (refine Eq.trans (addFlow_frame _ (by first | decide | exact or_trans rfl hm) _ _ _ (_, _) ‹_›) ?_) | (refine Eq.trans (addFlow_frame _ (by first | decide | exact or_trans rfl hm) _ _ _ _ ‹_›) ?_) | simp only [Option.getD] | split | dsimp only))

@[simp] theorem insertRoute_frame (μ : Nat) (hm : 2105864 ||| μ = μ) (f : Fn) (q : Nat) (w : Work) (bs : Bytes) (s : State) :
    forget μ (insertRoute f q w bs s) = forget μ s := by
  have a (k : Nat) (t : State) : forget μ (tblFail f q w k t) = forget μ t := tblFail_frame μ (or_trans rfl hm) _ _ _ _ _
  have b (k : Nat) (t : State) : forget μ (tblDone f q w k t) = forget μ t := tblDone_frame μ (or_trans rfl hm) _ _ _ _ _
  unfold insertRoute
  extract_lets rcd bank
  clear_value bank
  by_cases c : (if bits (byteAt rcd 19) 1 1 = 1 then 128 else 32) < byteAt rcd 18
  · rw [if_pos c, a]
  · rw [if_neg c]
    split
    · rw [a]
    · split
      · split
        · rw [b]
        · split
          · rfl
          · rw [b]
            exact modTbl_frame μ (or_trans rfl hm) _ _
      · split
        · rfl
        · split
          · rw [a]
          · exact (inserted_frame μ (or_trans rfl hm) _ _ _ _ _ _ (fun t => b _ t)).trans (addRoute_frame μ (or_trans rfl hm) _ _ _ _ ‹addRoute _ _ _ = some _›)

@[simp] theorem execFilterRebuild_frame (μ : Nat) (hm : 8192 ||| μ = μ) (s : State) : forgetO μ s (execFilterRebuild s) = forget μ s := widenO (a := 8192) hm (by
  unfold execFilterRebuild
  simp)

@[simp] theorem execTblUnlock_frame (μ : Nat) (hm : 8712 ||| μ = μ) (f : Fn) (q : Nat) (s : State) : forgetO μ s (execTblUnlock f q s) = forget μ s := widenO (a := 8712) hm (by
  unfold execTblUnlock
  repeat' (first | with_reducible rfl | simp only [↓flowDone_frame, ↓modTbl_frame, forgetO_next, Nat.reduceOr] | (refine Eq.trans (runTbl_frame _ (by first | decide | exact or_trans rfl hm) _ _ _ _ _ (fun _ _ _ => ?_)) ?_) | (refine Eq.trans (onFlow_frame _ (by first | decide | exact or_trans rfl hm) _ _ _ _ _ _ (fun _ _ => ?_)) ?_) | (refine Eq.trans (forget_foldS _ _ (fun _ _ => ?_) _ _) ?_) | (refine Eq.trans (congrArg (forget _) (congrArg Prod.snd ‹_ = (_, _)›).symm) ?_) | split | dsimp only))

@[simp] theorem execTblWrite_frame (μ : Nat) (hm : 8712 ||| μ = μ) (f : Fn) (q : Nat) (s : State) : forgetO μ s (execTblWrite f q s) = forget μ s := widenO (a := 8712) hm (by
  unfold execTblWrite
  repeat' (first | with_reducible rfl | simp only [↓overwriteFlow_frame, ↓writeDirect_frame, forget_ite, ite_self, forgetO_next, Nat.reduceOr] | (refine Eq.trans (runTbl_frame _ (by first | decide | exact or_trans rfl hm) _ _ _ _ _ (fun _ _ _ => ?_)) ?_) | (refine Eq.trans (forget_foldS _ _ (fun _ _ => ?_) _ _) ?_) | (refine Eq.trans (congrArg (forget _) (congrArg Prod.snd ‹_ = (_, _)›).symm) ?_) | split | dsimp only))

@[simp] theorem findFlow_frame (μ : Nat) (hm : 780 ||| μ = μ) (f : Fn) (q : Nat) (w : Work) (bs : Bytes) (s : State) : forget μ (findFlow f q w bs s) = forget μ s := widen (a := 780) hm (by
  unfold findFlow
  (repeat' split) <;> simp)

@[simp] theorem execTblLookup_frame (μ : Nat) (hm : 780 ||| μ = μ) (f : Fn) (q : Nat) (s : State) : forgetO μ s (execTblLookup f q s) = forget μ s := widenO (a := 780) hm (by
  unfold execTblLookup
  repeat' (first | with_reducible rfl | simp only [↓findFlow_frame, ↓findRoute_frame, forget_ite, ite_self, forgetO_next, Nat.reduceOr] | (refine Eq.trans (runTbl_frame _ (by first | decide | exact or_trans rfl hm) _ _ _ _ _ (fun _ _ _ => ?_)) ?_) | (refine Eq.trans (forget_foldS _ _ (fun _ _ => ?_) _ _) ?_) | (refine Eq.trans (congrArg (forget _) (congrArg Prod.snd ‹_ = (_, _)›).symm) ?_) | split | dsimp only))

@[simp] theorem deleteRoute_frame (μ : Nat) (hm : 8704 ||| μ = μ) (f : Fn) (q : Nat) (w : Work) (bs : Bytes) (s : State) : forget μ (deleteRoute f q w bs s) = forget μ s := widen (a := 8704) hm (by
  unfold deleteRoute
  repeat' (first | with_reducible rfl | simp only [↓tblFail_frame, ↓tblDone_frame, ↓removeRoute_frame, forget_ite, Nat.reduceOr] | split))

@[simp] theorem execTblDelete_frame (μ : Nat) (hm : 8712 ||| μ = μ) (f : Fn) (q : Nat) (s : State) : forgetO μ s (execTblDelete f q s) = forget μ s := widenO (a := 8712) hm (by
  unfold execTblDelete
  repeat' (first | with_reducible rfl | simp only [↓deleteFlow_frame, ↓deleteRoute_frame, forget_ite, ite_self, forgetO_next, Nat.reduceOr] | (refine Eq.trans (runTbl_frame _ (by first | decide | exact or_trans rfl hm) _ _ _ _ _ (fun _ _ _ => ?_)) ?_) | (refine Eq.trans (forget_foldS _ _ (fun _ _ => ?_) _ _) ?_) | (refine Eq.trans (congrArg (forget _) (congrArg Prod.snd ‹_ = (_, _)›).symm) ?_) | split | dsimp only))

@[simp] theorem beginMove_frame (μ : Nat) (hm : 8192 ||| μ = μ) (bank : Nat) (src : Nat) (index : Nat) (dst : Nat) (s : State) : forget μ (beginMove bank src index dst s) = forget μ s := widen (a := 8192) hm (by
  unfold beginMove
  repeat' (first | with_reducible rfl | simp only [↓modTbl_frame, forget_ite, Nat.reduceOr] | (refine Eq.trans (forget_foldS _ _ (fun _ _ => ?_) _ _) ?_) | (refine Eq.trans (congrArg (forget _) (congrArg Prod.snd ‹_ = (_, _)›).symm) ?_) | (refine Eq.trans (putWay_frame _ (by first | decide | exact or_trans rfl hm) _ _ _ _ _ ‹_›) ?_) | simp only [Option.getD] | split | dsimp only))

@[simp] theorem finishMove_frame (μ : Nat) (hm : 8192 ||| μ = μ) (bank : Nat) (s : State) : forget μ (finishMove bank s) = forget μ s := widen (a := 8192) hm (by
  unfold finishMove
  repeat' (first | with_reducible rfl | simp only [↓setBucket_frame, ↓modTbl_frame, Nat.reduceOr] | split))

@[simp] theorem execRelocationMove_frame (μ : Nat) (hm : 8704 ||| μ = μ) (bank : Nat) (s : State) : forgetO μ s (execRelocationMove bank s) = forget μ s := widenO (a := 8704) hm (by
  unfold execRelocationMove
  (repeat' split) <;> simp)

@[simp] theorem execTblInsert_frame (μ : Nat) (hm : 2105864 ||| μ = μ) (f : Fn) (q : Nat) (s : State) : forgetO μ s (execTblInsert f q s) = forget μ s := widenO (a := 2105864) hm (by
  unfold execTblInsert
  repeat' (first | with_reducible rfl | simp only [↓insertFlow_frame, ↓insertRoute_frame, forget_ite, ite_self, forgetO_next, Nat.reduceOr] | (refine Eq.trans (runTbl_frame _ (by first | decide | exact or_trans rfl hm) _ _ _ _ _ (fun _ _ _ => ?_)) ?_) | (refine Eq.trans (forget_foldS _ _ (fun _ _ => ?_) _ _) ?_) | (refine Eq.trans (congrArg (forget _) (congrArg Prod.snd ‹_ = (_, _)›).symm) ?_) | split | dsimp only))

end Sys2Proof.Machine
end

