-- ==== Sys2Proof/Laws/FrameLearn.lean ====
section
/-!
SUPPORT. Frames of the operations of Machine/Learn.lean: the parts of the state that each can change.
-/
namespace Sys2Proof.Machine
set_option linter.all false

@[simp] theorem notifyChannel_frame (μ : Nat) (hm : 2097680 ||| μ = μ) (c : Nat) (note : Bytes) (s : State) : forget μ (notifyChannel c note s) = forget μ s := widen (a := 2097680) hm (by
  unfold notifyChannel
  simp)

@[simp] theorem notifyFlow_frame (μ : Nat) (hm : 2097680 ||| μ = μ) (kind : Nat) (i : Nat) (ent : Bytes) (newV : Nat) (oldV : Nat) (s : State) : forget μ (notifyFlow kind i ent newV oldV s) = forget μ s := widen (a := 2097680) hm (by
  unfold notifyFlow
  simp)

@[simp] theorem learnNew_frame (μ : Nat) (hm : 2105880 ||| μ = μ) (v : Bytes) (key : Bytes) (l : Learn) (s : State) : forget μ (learnNew v key l s) = forget μ s := widen (a := 2105880) hm (by
  unfold learnNew
  repeat' (first | with_reducible rfl | simp only [↓tblStat_frame, ↓notifyFlow_frame, forget_ite, Nat.reduceOr] | (refine Eq.trans (forget_foldS _ _ (fun _ _ => ?_) _ _) ?_) | (refine Eq.trans (congrArg (forget _) (congrArg Prod.snd ‹_ = (_, _)›).symm) ?_) | (refine Eq.trans (addFlow_frame _ (by first | decide | exact or_trans rfl hm) _ _ _ (_, _) ‹_›) ?_) | (refine Eq.trans (addFlow_frame _ (by first | decide | exact or_trans rfl hm) _ _ _ _ ‹_›) ?_) | simp only [Option.getD] | split | dsimp only))

@[simp] theorem ageEntry_frame (μ : Nat) (hm : 2105872 ||| μ = μ) (i : Nat) (ent : Bytes) (s : State) : forget μ (ageEntry i ent s) = forget μ s := widen (a := 2105872) hm (by
  unfold ageEntry
  simp)

@[simp] theorem execAgeVisit_frame (μ : Nat) (hm : 2138642 ||| μ = μ) (index : Nat) (s : State) : forgetO μ s (execAgeVisit index s) = forget μ s := widenO (a := 2138642) hm (by
  unfold execAgeVisit
  (repeat' split) <;> simp)

@[simp] theorem learnSeen_frame (μ : Nat) (hm : 2105872 ||| μ = μ) (v : Bytes) (i : Nat) (ent : Bytes) (l : Learn) (s : State) : forget μ (learnSeen v i ent l s) = forget μ s := widen (a := 2105872) hm (by
  unfold learnSeen
  simp)

@[simp] theorem learnNow_frame (μ : Nat) (hm : 2105880 ||| μ = μ) (l : Learn) (s : State) : forget μ (learnNow l s) = forget μ s := widen (a := 2105880) hm (by
  unfold learnNow
  repeat' (first | with_reducible rfl | simp only [↓learnSeen_frame, ↓learnNew_frame, forget_ite, Nat.reduceOr] | split))

@[simp] theorem execLearnRequest_frame (μ : Nat) (hm : 2105880 ||| μ = μ) (s : State) : forgetO μ s (execLearnRequest s) = forget μ s := widenO (a := 2105880) hm (by
  unfold execLearnRequest
  (repeat' split) <;> simp)

@[simp] theorem queueLearn_frame (μ : Nat) (hm : 2105872 ||| μ = μ) (l : Learn) (s : State) : forget μ (queueLearn l s) = forget μ s := widen (a := 2105872) hm (by
  unfold queueLearn
  simp)

end Sys2Proof.Machine
end

