-- ==== Sys2Proof/Laws/FrameCry.lean ====
section
/-!
SUPPORT. Frames of the operations of Machine/Cry.lean: the parts of the state that each can change.
-/
namespace Sys2Proof.Machine
set_option linter.all false

@[simp] theorem slotUpdate_frame (μ : Nat) (hm : 65536 ||| μ = μ) (f : Fn) (w : Work) (bs : Bytes) (s : State) : forget μ (slotUpdate f w bs s).2 = forget μ s := widen (a := 65536) hm (by
  unfold slotUpdate
  repeat' (first | with_reducible rfl | simp only [↓modKeySlot_frame, Nat.reduceOr] | split))

@[simp] theorem runCry_frame (μ : Nat) (hm : 512 ||| μ = μ) (f : Fn) (q op : Nat) (g : Work → Bytes → State → Nat × State) (s : State)
    (hg : ∀ w bs t, forget μ (g w bs t).2 = forget μ t) : forget μ (runCry f q op g s) = forget μ s := by
  unfold runCry
  split
  · rfl
  · split
    · rfl
    · exact (finishWork_frame μ (or_trans rfl hm) _ _ _ _ _ _).trans ((hg _ _ _).trans (modWork_frame μ (or_trans rfl hm) _ _ _ _ _))
    · exact finishWork_frame μ (or_trans rfl hm) _ _ _ _ _ _

@[simp] theorem execKeyClear_frame (μ : Nat) (hm : 2180636 ||| μ = μ) (f : Fn) (q : Nat) (s : State) : forgetO μ s (execKeyClear f q s) = forget μ s := widenO (a := 2180636) hm (by
  unfold execKeyClear
  repeat' (first | with_reducible rfl | simp only [↓keyClear_frame, forgetO_next, Nat.reduceOr] | (refine Eq.trans (runCry_frame _ (by decide) _ _ _ _ _ (fun _ _ _ => ?_)) ?_) | (refine Eq.trans (forget_foldS _ _ (fun _ _ => ?_) _ _) ?_) | (refine Eq.trans (congrArg (forget _) (congrArg Prod.snd ‹_ = (_, _)›).symm) ?_) | split | dsimp only))

@[simp] theorem putSlot_frame (μ : Nat) (hm : 65536 ||| μ = μ) (f : Fn) (slot : Nat) (rec : Bytes) (key : Bytes) (s : State) : forget μ (putSlot f slot rec key s) = forget μ s := widen (a := 65536) hm (by
  unfold putSlot
  simp)

@[simp] theorem keyWrite_frame (μ : Nat) (hm : 65536 ||| μ = μ) (f : Fn) (w : Work) (bs : Bytes) (s : State) : forget μ (keyWrite f w bs s).2 = forget μ s := widen (a := 65536) hm (by
  unfold keyWrite
  repeat' (first | with_reducible rfl | simp only [↓putSlot_frame, Nat.reduceOr] | split))

@[simp] theorem execSuspendMessage_frame (μ : Nat) (hm : 65552 ||| μ = μ) (s : State) : forgetO μ s (execSuspendMessage s) = forget μ s := widenO (a := 65552) hm (by
  unfold execSuspendMessage
  repeat' (first | with_reducible rfl | simp only [↓cryStat_frame, ↓modEngine_frame, ↓modCry_frame, forgetO_next, forgetO_ite, Nat.reduceOr] | split))

@[simp] theorem keyUnwrapOp_frame (μ : Nat) (hm : 65536 ||| μ = μ) (f : Fn) (w : Work) (bs : Bytes) (s : State) : forget μ (keyUnwrapOp f w bs s).2 = forget μ s := widen (a := 65536) hm (by
  unfold keyUnwrapOp
  repeat' (first | with_reducible rfl | simp only [↓putSlot_frame, Nat.reduceOr] | split))

@[simp] theorem execSlotUpdate_frame (μ : Nat) (hm : 66048 ||| μ = μ) (f : Fn) (q : Nat) (s : State) : forgetO μ s (execSlotUpdate f q s) = forget μ s := widenO (a := 66048) hm (by
  unfold execSlotUpdate
  simp)

@[simp] theorem releaseDecrypted_frame (μ : Nat) (hm : 2180636 ||| μ = μ) (m : CryMsg) (id : Nat) (s : State) : forget μ (releaseDecrypted m id s) = forget μ s := widen (a := 2180636) hm (by
  unfold releaseDecrypted
  simp)

@[simp] theorem lookaside_frame (μ : Nat) (hm : 2163200 ||| μ = μ) (f : Fn) (q : Nat) (encrypt : Bool) (w : Work) (bs : Bytes) (s : State) : forget μ (lookaside f q encrypt w bs s) = forget μ s := widen (a := 2163200) hm (by
  unfold lookaside
  repeat' (first | with_reducible rfl | simp only [↓finishWork_frame, ↓takeNumber_frame, ↓dispatch_frame, ↓modWork_frame, forget_ite, Nat.reduceOr] | split))

@[simp] theorem runLookaside_frame (μ : Nat) (hm : 2163216 ||| μ = μ) (f : Fn) (q : Nat) (op : Nat) (encrypt : Bool) (s : State) : forget μ (runLookaside f q op encrypt s) = forget μ s := widen (a := 2163216) hm (by
  unfold runLookaside
  (repeat' split) <;> simp)

@[simp] theorem execLaEncrypt_frame (μ : Nat) (hm : 2163216 ||| μ = μ) (f : Fn) (q : Nat) (s : State) : forgetO μ s (execLaEncrypt f q s) = forget μ s := widenO (a := 2163216) hm (by
  unfold execLaEncrypt
  simp)

@[simp] theorem slotRead_frame (μ : Nat) (hm : 260 ||| μ = μ) (f : Fn) (q : Nat) (w : Work) (x58 : Bytes) (s : State) : forget μ (slotRead f q w x58 s).2 = forget μ s := widen (a := 260) hm (by
  unfold slotRead
  repeat' (first | with_reducible rfl | simp only [↓hostWrite_frame, Nat.reduceOr] | split))

@[simp] theorem execSlotFetchDone_frame (μ : Nat) (hm : 65536 ||| μ = μ) (slot : Nat) (s : State) : forgetO μ s (execSlotFetchDone slot s) = forget μ s := widenO (a := 65536) hm (by
  unfold execSlotFetchDone
  simp)

@[simp] theorem execKeyUnwrap_frame (μ : Nat) (hm : 66048 ||| μ = μ) (f : Fn) (q : Nat) (s : State) : forgetO μ s (execKeyUnwrap f q s) = forget μ s := widenO (a := 66048) hm (by
  unfold execKeyUnwrap
  simp)

@[simp] theorem execCheckerMismatch_frame (μ : Nat) (hm : 65536 ||| μ = μ) (engine : Nat) (s : State) : forgetO μ s (execCheckerMismatch engine s) = forget μ s := widenO (a := 65536) hm (by
  unfold execCheckerMismatch
  repeat' (first | with_reducible rfl | simp only [↓modEngine_frame, ↓engineNext_frame, ↓modCry_frame, forgetO_next, forgetO_ite, Nat.reduceOr] | split))

@[simp] theorem releaseMsg_frame (μ : Nat) (hm : 2180892 ||| μ = μ) (m : CryMsg) (s : State) : forget μ (releaseMsg m s) = forget μ s := widen (a := 2180892) hm (by
  unfold releaseMsg
  (repeat' split) <;> simp)

@[simp] theorem execCipherDone_frame (μ : Nat) (hm : 50331580 ||| μ = μ) (engine : Nat) (s : State) : forgetO μ s (execCipherDone engine s) = forget μ s := widenO (a := 50331580) hm (by
  unfold execCipherDone
  repeat' (first | with_reducible rfl | simp only [↓releaseMsg_frame, ↓modEngine_frame, ↓worked_frame, ↓countFault_frame, ↓engineNext_frame, forgetO_next, forgetO_ite, Nat.reduceOr] | split))

@[simp] theorem execLaDecrypt_frame (μ : Nat) (hm : 2163216 ||| μ = μ) (f : Fn) (q : Nat) (s : State) : forgetO μ s (execLaDecrypt f q s) = forget μ s := widenO (a := 2163216) hm (by
  unfold execLaDecrypt
  simp)

@[simp] theorem execSlotRead_frame (μ : Nat) (hm : 772 ||| μ = μ) (f : Fn) (q : Nat) (s : State) : forgetO μ s (execSlotRead f q s) = forget μ s := widenO (a := 772) hm (by
  unfold execSlotRead
  simp)

@[simp] theorem execKeyWrite_frame (μ : Nat) (hm : 66048 ||| μ = μ) (f : Fn) (q : Nat) (s : State) : forgetO μ s (execKeyWrite f q s) = forget μ s := widenO (a := 66048) hm (by
  unfold execKeyWrite
  simp)

end Sys2Proof.Machine
end

