-- ==== Sys2Proof/Laws/FrameCipher.lean ====
section
/-!
SUPPORT. Frames of the operations of Machine/Cipher.lean: the parts of the state that each can change.
-/
namespace Sys2Proof.Machine
set_option linter.all false

@[simp] theorem sendFrame_frame (μ : Nat) (hm : 81920 ||| μ = μ) (id : Nat) (m : CryMsg) (s : State) : forget μ (sendFrame id m s) = forget μ s := widen (a := 81920) hm (by
  unfold sendFrame
  simp)

@[simp] theorem encryptFrame_frame (μ : Nat) (hm : 2180636 ||| μ = μ) (id : Nat) (slot : Nat) (proto : Nat) (m : CryMarks) (s : State) : forget μ (encryptFrame id slot proto m s) = forget μ s := widen (a := 2180636) hm (by
  unfold encryptFrame
  repeat' (first | with_reducible rfl | simp only [↓sendFrame_frame, ↓refuseMsg_frame, ↓takeNumber_frame, ↓modKeySlot_frame, forget_ite, Nat.reduceOr] | split))

@[simp] theorem decryptFrame_frame (μ : Nat) (hm : 2180636 ||| μ = μ) (id : Nat) (slot : Nat) (proto : Nat) (m : CryMarks) (s : State) : forget μ (decryptFrame id slot proto m s) = forget μ s := widen (a := 2180636) hm (by
  unfold decryptFrame
  repeat' (first | with_reducible rfl | simp only [↓dropFrame_frame, ↓cryStat_frame, ↓sendFrame_frame, ↓modKeySlot_frame, ↓refuseMsg_frame, ↓cryEvent_frame, forget_ite, ite_self, Nat.reduceOr] | split))

end Sys2Proof.Machine
end

