-- ==== Sys2Proof/Laws/FrameParse.lean ====
section
/-!
SUPPORT. Frames of the operations of Machine/Parse.lean: the parts of the state that each can change.
-/
namespace Sys2Proof.Machine
set_option linter.all false

@[simp] theorem indResult_frame (μ : Nat) (hm : 16 ||| μ = μ) (p : Path) (r : Nat) (s : State) : forget μ (indResult p r s) = forget μ s := widen (a := 16) hm (by
  unfold indResult
  simp)

@[simp] theorem indWrite_frame (μ : Nat) (hm : 4112 ||| μ = μ) (p : Path) (entry : Bool) (v : Word) (s : State) : forget μ (indWrite p entry v s) = forget μ s := widen (a := 4112) hm (by
  unfold indWrite
  simp)

@[simp] theorem startForLoad_frame (μ : Nat) (hm : 135296 ||| μ = μ) (p : Nat) (s : State) : forget μ (startForLoad p s) = forget μ s := widen (a := 135296) hm (by
  unfold startForLoad
  simp)

@[simp] theorem prsEvent_frame (μ : Nat) (hm : 2097664 ||| μ = μ) (code : Nat) (detail : Nat) (s : State) : forget μ (prsEvent code detail s) = forget μ s := widen (a := 2097664) hm (by
  unfold prsEvent
  simp)

@[simp] theorem loadFail_frame (μ : Nat) (hm : 2101760 ||| μ = μ) (r : Nat) (s : State) : forget μ (loadFail r s) = forget μ s := widen (a := 2101760) hm (by
  unfold loadFail
  simp)

@[simp] theorem prsLoadStart_frame (μ : Nat) (hm : 2232960 ||| μ = μ) (p : Path) (s : State) : forget μ (prsLoadStart p s) = forget μ s := by
  have a (g : Prs → Prs) (t : State) : forget μ (modPrs g t) = forget μ t := modPrs_frame μ (or_trans rfl hm) _ _
  have b (l : List Nat) (t : State) : forget μ (foldS startForLoad l t) = forget μ t :=
    forget_foldS _ _ (fun _ _ => startForLoad_frame μ (or_trans rfl hm) _ _) _ _
  unfold prsLoadStart
  extract_lets adr len bs i
  clear_value i bs
  rw [apply_ite (forget μ)]
  split
  · rfl
  · rw [apply_ite (forget μ)]
    split
    · rw [a]
    · rw [apply_ite (forget μ)]
      split
      · exact loadFail_frame μ (or_trans rfl hm) _ _
      · rw [apply_ite (forget μ)]
        split
        · exact loadFail_frame μ (or_trans rfl hm) _ _
        · rw [b, a]

@[simp] theorem loadFails_frame (μ : Nat) (hm : 16777148 ||| μ = μ) (p : Nat) (s : State) : forget μ (loadFails p s) = forget μ s := widen (a := 16777148) hm (by
  unfold loadFails
  (repeat' split) <;> simp)

@[simp] theorem prsGone_frame (μ : Nat) (hm : 2115100 ||| μ = μ) (id : Nat) (f : Frame) (s : State) : forget μ (prsGone id f s) = forget μ s := widen (a := 2115100) hm (by
  unfold prsGone
  simp)

@[simp] theorem toChannel_frame (μ : Nat) (hm : 2115100 ||| μ = μ) (id : Nat) (c : Nat) (reason : Nat) (origin : Nat) (flow : Option Nat) (s : State) : forget μ (toChannel id c reason origin flow s) = forget μ s := widen (a := 2115100) hm (by
  unfold toChannel
  (repeat' split) <;> simp)

@[simp] theorem passResult_frame (μ : Nat) (hm : 2123292 ||| μ = μ) (id : Nat) (f : Frame) (s : State) : forget μ (passResult id f s) = forget μ s := widen (a := 2123292) hm (by
  unfold passResult
  repeat' (first | with_reducible rfl | simp only [↓bump_frame, ↓vportStat_frame, ↓modFrame_frame, ↓toChannel_frame, ↓dropFrame_frame, ↓prsGone_frame, forget_ite, ite_self, Nat.reduceOr] | (refine Eq.trans (forget_foldS _ _ (fun _ _ => ?_) _ _) ?_) | (refine Eq.trans (congrArg (forget _) (congrArg Prod.snd ‹_ = (_, _)›).symm) ?_) | split | dsimp only))

@[simp] theorem handOne_frame (μ : Nat) (hm : 2123292 ||| μ = μ) (id : Nat) (s : State) : forget μ (handOne id s) = forget μ s := widen (a := 2123292) hm (by
  unfold handOne
  (repeat' split) <;> simp)

@[simp] theorem handOver_frame (μ : Nat) (hm : 2123292 ||| μ = μ) (s : State) : forget μ (handOver s) = forget μ s := widen (a := 2123292) hm (by
  unfold handOver
  repeat' (first | with_reducible rfl | simp only [↓handOne_frame, Nat.reduceOr] | (refine Eq.trans (forget_foldS _ _ (fun _ _ => ?_) _ _) ?_) | (refine Eq.trans (congrArg (forget _) (congrArg Prod.snd ‹_ = (_, _)›).symm) ?_) | split | dsimp only))

@[simp] theorem endParse_frame (μ : Nat) (hm : 35681820 ||| μ = μ) (k : Nat) (e : Engine) (disp : Nat) (code : Nat) (s : State) : forget μ (endParse k e disp code s) = forget μ s := widen (a := 35681820) hm (by
  unfold endParse
  simp)

@[simp] theorem putEngine_frame (μ : Nat) (hm : 4096 ||| μ = μ) (k : Nat) (e : Engine) (s : State) : forget μ (putEngine k e s) = forget μ s := widen (a := 4096) hm (by
  unfold putEngine
  simp)

@[simp] theorem fragPut_frame (μ : Nat) (hm : 4096 ||| μ = μ) (key : List Nat) (way : Nat) (ports : Nat) (s : State) : forget μ (fragPut key way ports s) = forget μ s := widen (a := 4096) hm (by
  unfold fragPut
  simp)

@[simp] theorem noteCount_frame (μ : Nat) (hm : 16384 ||| μ = μ) (id : Nat) (k : Nat) (s : State) : forget μ (noteCount id k s) = forget μ s := widen (a := 16384) hm (by
  unfold noteCount
  simp)

@[simp] theorem fragTable_frame (μ : Nat) (hm : 2118144 ||| μ = μ) (e : Engine) (v6 : Bool) (s : State) : forget μ (fragTable e v6 s).2.2 = forget μ s := widen (a := 2118144) hm (by
  unfold fragTable
  repeat' (first | with_reducible rfl | simp only [↓noteCount_frame, ↓fragPut_frame, ↓prsEvent_frame, Nat.reduceOr] | split))

@[simp] theorem slots_frame (μ : Nat) (hm : 2118144 ||| μ = μ) (e : Engine) (w : Nat) (s : State) : forget μ (slots e w s).2 = forget μ s := by
  unfold slots
  dsimp only
  split
  · rfl
  · exact fragTable_frame μ (or_trans rfl hm) _ _ _
  · rfl
  · rfl

@[simp] theorem runWord_frame (μ : Nat) (hm : 35681820 ||| μ = μ) (k : Nat) (e : Engine) (w : Nat) (s : State) : forget μ (runWord k e w s) = forget μ s := widen (a := 35681820) hm (by
  unfold runWord
  repeat' (first | with_reducible rfl | simp only [↓slots_frame, ↓putEngine_frame, ↓endParse_frame, forget_ite, ite_self, Nat.reduceOr] | split))

@[simp] theorem takeTrap_frame (μ : Nat) (hm : 35681820 ||| μ = μ) (k : Nat) (e : Engine) (w : Nat) (cause : Nat) (sub : Nat) (s : State) : forget μ (takeTrap k e w cause sub s) = forget μ s := widen (a := 35681820) hm (by
  unfold takeTrap
  simp)

@[simp] theorem microword_frame (μ : Nat) (hm : 35681820 ||| μ = μ) (p : Nat → Bool) (k : Nat) (s : State) : forget μ (microword p k s) = forget μ s := widen (a := 35681820) hm (by
  unfold microword
  repeat' (first | with_reducible rfl | simp only [↓takeTrap_frame, ↓runWord_frame, forget_ite, Nat.reduceOr] | split))

@[simp] theorem execMicroJump_frame (μ : Nat) (hm : 35681820 ||| μ = μ) (engine : Nat) (s : State) : forgetO μ s (execMicroJump engine s) = forget μ s := widenO (a := 35681820) hm (by
  unfold execMicroJump
  simp)

@[simp] theorem execMicroBfx_frame (μ : Nat) (hm : 35681820 ||| μ = μ) (engine : Nat) (s : State) : forgetO μ s (execMicroBfx engine s) = forget μ s := widenO (a := 35681820) hm (by
  unfold execMicroBfx
  simp)

@[simp] theorem execMicroAdd_frame (μ : Nat) (hm : 35681820 ||| μ = μ) (engine : Nat) (s : State) : forgetO μ s (execMicroAdd engine s) = forget μ s := widenO (a := 35681820) hm (by
  unfold execMicroAdd
  simp)

@[simp] theorem execMicroMin_frame (μ : Nat) (hm : 35681820 ||| μ = μ) (engine : Nat) (s : State) : forgetO μ s (execMicroMin engine s) = forget μ s := widenO (a := 35681820) hm (by
  unfold execMicroMin
  simp)

@[simp] theorem dropUnparsed_frame (μ : Nat) (hm : 16384 ||| μ = μ) (id : Nat) (disp : Nat) (f : Frame) (s : State) : forget μ (dropUnparsed id disp f s) = forget μ s := widen (a := 16384) hm (by
  unfold dropUnparsed
  simp)

@[simp] theorem dispatchSeen_frame (μ : Nat) (hm : 2127388 ||| μ = μ) (id : Nat) (k : Nat) (f : Frame) (s : State) : forget μ (dispatchSeen id k f s) = forget μ s := widen (a := 2127388) hm (by
  unfold dispatchSeen
  (repeat' split) <;> simp)

@[simp] theorem dispatchFrame_frame (μ : Nat) (hm : 2127388 ||| μ = μ) (id : Nat) (k : Nat) (f : Frame) (s : State) : forget μ (dispatchFrame id k f s) = forget μ s := widen (a := 2127388) hm (by
  unfold dispatchFrame
  (repeat' split) <;> simp)

@[simp] theorem execParseDispatch_frame (μ : Nat) (hm : 2127388 ||| μ = μ) (frame : Nat) (engine : Nat) (s : State) : forgetO μ s (execParseDispatch frame engine s) = forget μ s := widenO (a := 2127388) hm (by
  unfold execParseDispatch
  (repeat' split) <;> simp)

@[simp] theorem badFrame_frame (μ : Nat) (hm : 2127388 ||| μ = μ) (id : Nat) (f : Frame) (s : State) : forget μ (badFrame id f s) = forget μ s := widen (a := 2127388) hm (by
  unfold badFrame
  simp)

@[simp] theorem execFrameEnd_frame (μ : Nat) (hm : 2127388 ||| μ = μ) (frame : Nat) (s : State) : forgetO μ s (execFrameEnd frame s) = forget μ s := widenO (a := 2127388) hm (by
  unfold execFrameEnd
  (repeat' split) <;> simp)

@[simp] theorem execMicroCall_frame (μ : Nat) (hm : 35681820 ||| μ = μ) (engine : Nat) (s : State) : forgetO μ s (execMicroCall engine s) = forget μ s := widenO (a := 35681820) hm (by
  unfold execMicroCall
  simp)

@[simp] theorem execMicroBudget_frame (μ : Nat) (hm : 35681820 ||| μ = μ) (engine : Nat) (s : State) : forgetO μ s (execMicroBudget engine s) = forget μ s := widenO (a := 35681820) hm (by
  unfold execMicroBudget
  (repeat' split) <;> simp)

@[simp] theorem execParityError_frame (μ : Nat) (hm : 16777148 ||| μ = μ) (engine : Nat) (store : Bool) (s : State) : forgetO μ s (execParityError engine store s) = forget μ s := widenO (a := 16777148) hm (by
  unfold execParityError
  (repeat' split) <;> simp)

@[simp] theorem execMicroTrap_frame (μ : Nat) (hm : 35681820 ||| μ = μ) (engine : Nat) (s : State) : forgetO μ s (execMicroTrap engine s) = forget μ s := widenO (a := 35681820) hm (by
  unfold execMicroTrap
  simp)

@[simp] theorem execMicroCsum_frame (μ : Nat) (hm : 35681820 ||| μ = μ) (engine : Nat) (s : State) : forgetO μ s (execMicroCsum engine s) = forget μ s := widenO (a := 35681820) hm (by
  unfold execMicroCsum
  simp)

@[simp] theorem execMicroMov_frame (μ : Nat) (hm : 35681820 ||| μ = μ) (engine : Nat) (s : State) : forgetO μ s (execMicroMov engine s) = forget μ s := widenO (a := 35681820) hm (by
  unfold execMicroMov
  simp)

@[simp] theorem execMicroShl_frame (μ : Nat) (hm : 35681820 ||| μ = μ) (engine : Nat) (s : State) : forgetO μ s (execMicroShl engine s) = forget μ s := widenO (a := 35681820) hm (by
  unfold execMicroShl
  simp)

@[simp] theorem execMicroSlt_frame (μ : Nat) (hm : 35681820 ||| μ = μ) (engine : Nat) (s : State) : forgetO μ s (execMicroSlt engine s) = forget μ s := widenO (a := 35681820) hm (by
  unfold execMicroSlt
  simp)

@[simp] theorem execMicroHashrst_frame (μ : Nat) (hm : 35681820 ||| μ = μ) (engine : Nat) (s : State) : forgetO μ s (execMicroHashrst engine s) = forget μ s := widenO (a := 35681820) hm (by
  unfold execMicroHashrst
  simp)

@[simp] theorem execMicroXor_frame (μ : Nat) (hm : 35681820 ||| μ = μ) (engine : Nat) (s : State) : forgetO μ s (execMicroXor engine s) = forget μ s := widenO (a := 35681820) hm (by
  unfold execMicroXor
  simp)

@[simp] theorem execMicroEnd_frame (μ : Nat) (hm : 35681820 ||| μ = μ) (engine : Nat) (s : State) : forgetO μ s (execMicroEnd engine s) = forget μ s := widenO (a := 35681820) hm (by
  unfold execMicroEnd
  simp)

@[simp] theorem execPairLineRewritten_frame (μ : Nat) (hm : 4096 ||| μ = μ) (line : LineRewrite) (s : State) : forgetO μ s (execPairLineRewritten line s) = forget μ s := widenO (a := 4096) hm (by
  unfold execPairLineRewritten
  simp)

@[simp] theorem execMicroFrag_frame (μ : Nat) (hm : 35681820 ||| μ = μ) (engine : Nat) (s : State) : forgetO μ s (execMicroFrag engine s) = forget μ s := widenO (a := 35681820) hm (by
  unfold execMicroFrag
  simp)

@[simp] theorem execMicroMatch_frame (μ : Nat) (hm : 35681820 ||| μ = μ) (engine : Nat) (s : State) : forgetO μ s (execMicroMatch engine s) = forget μ s := widenO (a := 35681820) hm (by
  unfold execMicroMatch
  simp)

@[simp] theorem execMicroSub_frame (μ : Nat) (hm : 35681820 ||| μ = μ) (engine : Nat) (s : State) : forgetO μ s (execMicroSub engine s) = forget μ s := widenO (a := 35681820) hm (by
  unfold execMicroSub
  simp)

@[simp] theorem execMicroNext_frame (μ : Nat) (hm : 35681820 ||| μ = μ) (engine : Nat) (s : State) : forgetO μ s (execMicroNext engine s) = forget μ s := widenO (a := 35681820) hm (by
  unfold execMicroNext
  simp)

@[simp] theorem execMicroJz_frame (μ : Nat) (hm : 35681820 ||| μ = μ) (engine : Nat) (s : State) : forgetO μ s (execMicroJz engine s) = forget μ s := widenO (a := 35681820) hm (by
  unfold execMicroJz
  simp)

@[simp] theorem execMicroResume_frame (μ : Nat) (hm : 35681820 ||| μ = μ) (engine : Nat) (s : State) : forgetO μ s (execMicroResume engine s) = forget μ s := widenO (a := 35681820) hm (by
  unfold execMicroResume
  simp)

@[simp] theorem execLoadDone_frame (μ : Nat) (hm : 16777148 ||| μ = μ) (failed : List Nat) (s : State) : forgetO μ s (execLoadDone failed s) = forget μ s := widenO (a := 16777148) hm (by
  unfold execLoadDone
  repeat' (first | with_reducible rfl | simp only [↓modDomain_frame, ↓modPrs_frame, ↓prsEvent_frame, ↓loadFails_frame, forgetO_next, Nat.reduceOr] | (refine Eq.trans (forget_foldS _ _ (fun _ _ => ?_) _ _) ?_) | (refine Eq.trans (congrArg (forget _) (congrArg Prod.snd ‹_ = (_, _)›).symm) ?_) | split | dsimp only))

@[simp] theorem execFragEntryExpiry_frame (μ : Nat) (hm : 36866 ||| μ = μ) (set : Nat) (way : Nat) (s : State) : forgetO μ s (execFragEntryExpiry set way s) = forget μ s := widenO (a := 36866) hm (by
  unfold execFragEntryExpiry
  repeat' (first | with_reducible rfl | simp only [↓modPrs_frame, ↓advanceTo_frame, forgetO_next, Nat.reduceOr] | split))

@[simp] theorem execMicroHashreg_frame (μ : Nat) (hm : 35681820 ||| μ = μ) (engine : Nat) (s : State) : forgetO μ s (execMicroHashreg engine s) = forget μ s := widenO (a := 35681820) hm (by
  unfold execMicroHashreg
  simp)

@[simp] theorem execMicroMark_frame (μ : Nat) (hm : 35681820 ||| μ = μ) (engine : Nat) (s : State) : forgetO μ s (execMicroMark engine s) = forget μ s := widenO (a := 35681820) hm (by
  unfold execMicroMark
  simp)

@[simp] theorem execMicroMax_frame (μ : Nat) (hm : 35681820 ||| μ = μ) (engine : Nat) (s : State) : forgetO μ s (execMicroMax engine s) = forget μ s := widenO (a := 35681820) hm (by
  unfold execMicroMax
  simp)

@[simp] theorem execMicroSeq_frame (μ : Nat) (hm : 35681820 ||| μ = μ) (engine : Nat) (s : State) : forgetO μ s (execMicroSeq engine s) = forget μ s := widenO (a := 35681820) hm (by
  unfold execMicroSeq
  simp)

@[simp] theorem execMicroShr_frame (μ : Nat) (hm : 35681820 ||| μ = μ) (engine : Nat) (s : State) : forgetO μ s (execMicroShr engine s) = forget μ s := widenO (a := 35681820) hm (by
  unfold execMicroShr
  simp)

@[simp] theorem execMicroOr_frame (μ : Nat) (hm : 35681820 ||| μ = μ) (engine : Nat) (s : State) : forgetO μ s (execMicroOr engine s) = forget μ s := widenO (a := 35681820) hm (by
  unfold execMicroOr
  simp)

@[simp] theorem execMicroAnd_frame (μ : Nat) (hm : 35681820 ||| μ = μ) (engine : Nat) (s : State) : forgetO μ s (execMicroAnd engine s) = forget μ s := widenO (a := 35681820) hm (by
  unfold execMicroAnd
  simp)

@[simp] theorem execMicroRet_frame (μ : Nat) (hm : 35681820 ||| μ = μ) (engine : Nat) (s : State) : forgetO μ s (execMicroRet engine s) = forget μ s := widenO (a := 35681820) hm (by
  unfold execMicroRet
  simp)

@[simp] theorem execMicroJnz_frame (μ : Nat) (hm : 35681820 ||| μ = μ) (engine : Nat) (s : State) : forgetO μ s (execMicroJnz engine s) = forget μ s := widenO (a := 35681820) hm (by
  unfold execMicroJnz
  simp)

end Sys2Proof.Machine
end

