-- ==== Sys2Proof/Laws/FrameLookup.lean ====
section
/-!
SUPPORT. Frames of the operations of Machine/Lookup.lean: the parts of the state that each can change.
-/
namespace Sys2Proof.Machine
set_option linter.all false

@[simp] theorem progError_frame (μ : Nat) (hm : 2115100 ||| μ = μ) (id : Nat) (s : State) : forget μ (progError id s) = forget μ s := widen (a := 2115100) hm (by
  unfold progError
  simp)

@[simp] theorem growCells_frame (μ : Nat) (hm : 2114048 ||| μ = μ) (id : Nat) (s : State) : forget μ (growCells id s) = forget μ s := widen (a := 2114048) hm (by
  unfold growCells
  repeat' (first | with_reducible rfl | simp only [forget_ite] | (refine Eq.trans (forget_foldS _ _ (fun _ _ => ?_) _ _) ?_) | (refine Eq.trans (congrArg (forget _) (congrArg Prod.snd ‹_ = (_, _)›).symm) ?_) | (refine Eq.trans (takeCells_frame _ (by first | decide | exact or_trans rfl hm) _ _ _ _ _ ‹_›) ?_) | simp only [Option.getD] | split | dsimp only))

@[simp] theorem insertBytes_frame (μ : Nat) (hm : 2114048 ||| μ = μ) (id : Nat) (pos : Nat) (new : Bytes) (s : State) : forget μ (insertBytes id pos new s) = forget μ s := widen (a := 2114048) hm (by
  unfold insertBytes
  (repeat' split) <;> simp)

@[simp] theorem toActions_frame (μ : Nat) (hm : 2114048 ||| μ = μ) (id : Nat) (s : State) : forget μ (toActions id s) = forget μ s := widen (a := 2114048) hm (by
  unfold toActions
  (repeat' split) <;> simp)

@[simp] theorem arrive_frame (μ : Nat) (hm : 2115100 ||| μ = μ) (id : Nat) (step : Nat) (s : State) : forget μ (arrive id step s) = forget μ s := widen (a := 2115100) hm (by
  unfold arrive
  (repeat' split) <;> simp)

@[simp] theorem leave_frame (μ : Nat) (hm : 2115100 ||| μ = μ) (id : Nat) (hit : Bool) (s : State) : forget μ (leave id hit s) = forget μ s := widen (a := 2115100) hm (by
  unfold leave
  (repeat' split) <;> simp)

@[simp] theorem hit_frame (μ : Nat) (hm : 2115100 ||| μ = μ) (id : Nat) (list : Option (List Nat)) (ctx : Ctx → Ctx) (s : State) : forget μ (hit id list ctx s) = forget μ s := widen (a := 2115100) hm (by
  unfold hit
  (repeat' split) <;> simp)

@[simp] theorem aclLookup_frame (μ : Nat) (hm : 2115100 ||| μ = μ) (id : Nat) (f : Frame) (x : Nat) (s : State) : forget μ (aclLookup id f x s) = forget μ s := widen (a := 2115100) hm (by
  unfold aclLookup
  (repeat' split) <;> simp)

theorem onStep_frame (μ : Nat) (hm : 0 ||| μ = μ) (id : Nat) (k : Nat) (g : Frame → Nat → State → State) (s : State) (h_g : ∀ v0 v1 v2, forget μ (g v0 v1 v2) = forget μ v2) : forget μ (onStep id k g s) = forget μ s := by
  unfold onStep
  repeat' (first | with_reducible rfl | simp only [forget_ite, ite_self, h_g] | (refine Eq.trans (forget_foldS _ _ (fun _ _ => ?_) _ _) ?_) | (refine Eq.trans (congrArg (forget _) (congrArg Prod.snd ‹_ = (_, _)›).symm) ?_) | split | dsimp only)

@[simp] theorem beginProgram_frame (μ : Nat) (hm : 2115100 ||| μ = μ) (id : Nat) (f : Frame) (s : State) : forget μ (beginProgram id f s) = forget μ s := widen (a := 2115100) hm (by
  unfold beginProgram
  simp)

theorem missedIn_frame (μ : Nat) (hm : 16384 ||| μ = μ) (id : Nat) (banks : List Nat) (goOn : State → State) (s : State) (h_goOn : ∀ v0, forget μ (goOn v0) = forget μ v0) : forget μ (missedIn id banks goOn s) = forget μ s := by
  unfold missedIn
  repeat' (first | with_reducible rfl | simp only [↓(modFrame_frame μ (or_trans (a := 16384) (b := 16384) rfl hm)), forget_ite, ite_self, h_goOn] | (refine Eq.trans (forget_foldS _ _ (fun _ _ => ?_) _ _) ?_) | (refine Eq.trans (congrArg (forget _) (congrArg Prod.snd ‹_ = (_, _)›).symm) ?_) | split | dsimp only)

@[simp] theorem flowLookup_frame (μ : Nat) (hm : 2123292 ||| μ = μ) (id : Nat) (f : Frame) (x : Nat) (s : State) : forget μ (flowLookup id f x s) = forget μ s := widen (a := 2123292) hm (by
  unfold flowLookup
  repeat' (first | with_reducible rfl | simp only [↓leave_frame, ↓setHit_frame, ↓toChannel_frame, ↓hit_frame, forget_ite, ite_self, Nat.reduceOr] | (refine Eq.trans (missedIn_frame _ (by first | decide | exact or_trans rfl hm) _ _ _ _ (fun _ => ?_)) ?_) | (refine Eq.trans (forget_foldS _ _ (fun _ _ => ?_) _ _) ?_) | (refine Eq.trans (congrArg (forget _) (congrArg Prod.snd ‹_ = (_, _)›).symm) ?_) | split | dsimp only))

@[simp] theorem namedFlow_frame (μ : Nat) (hm : 2115100 ||| μ = μ) (id : Nat) (i : Nat) (s : State) : forget μ (namedFlow id i s) = forget μ s := widen (a := 2115100) hm (by
  unfold namedFlow
  (repeat' split) <;> simp)

@[simp] theorem execTableProgram_frame (μ : Nat) (hm : 2115100 ||| μ = μ) (frame : Nat) (s : State) : forgetO μ s (execTableProgram frame s) = forget μ s := widenO (a := 2115100) hm (by
  unfold execTableProgram
  (repeat' split) <;> simp)

@[simp] theorem vportLookup_frame (μ : Nat) (hm : 2115100 ||| μ = μ) (id : Nat) (f : Frame) (x : Nat) (s : State) : forget μ (vportLookup id f x s) = forget μ s := widen (a := 2115100) hm (by
  unfold vportLookup
  (repeat' split) <;> simp)

@[simp] theorem execAclStep_frame (μ : Nat) (hm : 2115100 ||| μ = μ) (frame : Nat) (s : State) : forgetO μ s (execAclStep frame s) = forget μ s := widenO (a := 2115100) hm (by
  unfold execAclStep
  repeat' (first | with_reducible rfl | simp only [↓aclLookup_frame, forgetO_next, Nat.reduceOr] | (refine Eq.trans (onStep_frame _ (by first | decide | exact or_trans rfl hm) _ _ _ _ (fun _ _ _ => ?_)) ?_) | (refine Eq.trans (forget_foldS _ _ (fun _ _ => ?_) _ _) ?_) | (refine Eq.trans (congrArg (forget _) (congrArg Prod.snd ‹_ = (_, _)›).symm) ?_) | split | dsimp only))

@[simp] theorem execFlowStep_frame (μ : Nat) (hm : 2123292 ||| μ = μ) (frame : Nat) (s : State) : forgetO μ s (execFlowStep frame s) = forget μ s := widenO (a := 2123292) hm (by
  unfold execFlowStep
  repeat' (first | with_reducible rfl | simp only [↓flowLookup_frame, forgetO_next, Nat.reduceOr] | (refine Eq.trans (onStep_frame _ (by first | decide | exact or_trans rfl hm) _ _ _ _ (fun _ _ _ => ?_)) ?_) | (refine Eq.trans (forget_foldS _ _ (fun _ _ => ?_) _ _) ?_) | (refine Eq.trans (congrArg (forget _) (congrArg Prod.snd ‹_ = (_, _)›).symm) ?_) | split | dsimp only))

@[simp] theorem lpmLookup_frame (μ : Nat) (hm : 2115100 ||| μ = μ) (id : Nat) (f : Frame) (x : Nat) (s : State) : forget μ (lpmLookup id f x s) = forget μ s := widen (a := 2115100) hm (by
  unfold lpmLookup
  repeat' (first | with_reducible rfl | simp only [↓leave_frame, ↓hit_frame, forget_ite, Nat.reduceOr] | (refine Eq.trans (missedIn_frame _ (by first | decide | exact or_trans rfl hm) _ _ _ _ (fun _ => ?_)) ?_) | (refine Eq.trans (forget_foldS _ _ (fun _ _ => ?_) _ _) ?_) | (refine Eq.trans (congrArg (forget _) (congrArg Prod.snd ‹_ = (_, _)›).symm) ?_) | split | dsimp only))

@[simp] theorem execLpmStep_frame (μ : Nat) (hm : 2115100 ||| μ = μ) (frame : Nat) (s : State) : forgetO μ s (execLpmStep frame s) = forget μ s := widenO (a := 2115100) hm (by
  unfold execLpmStep
  repeat' (first | with_reducible rfl | simp only [↓lpmLookup_frame, forgetO_next, Nat.reduceOr] | (refine Eq.trans (onStep_frame _ (by first | decide | exact or_trans rfl hm) _ _ _ _ (fun _ _ _ => ?_)) ?_) | (refine Eq.trans (forget_foldS _ _ (fun _ _ => ?_) _ _) ?_) | (refine Eq.trans (congrArg (forget _) (congrArg Prod.snd ‹_ = (_, _)›).symm) ?_) | split | dsimp only))

@[simp] theorem tunnelLookup_frame (μ : Nat) (hm : 2115100 ||| μ = μ) (id : Nat) (f : Frame) (x : Nat) (s : State) : forget μ (tunnelLookup id f x s) = forget μ s := widen (a := 2115100) hm (by
  unfold tunnelLookup
  (repeat' split) <;> simp)

@[simp] theorem execTunnelStep_frame (μ : Nat) (hm : 2115100 ||| μ = μ) (frame : Nat) (s : State) : forgetO μ s (execTunnelStep frame s) = forget μ s := widenO (a := 2115100) hm (by
  unfold execTunnelStep
  repeat' (first | with_reducible rfl | simp only [↓tunnelLookup_frame, forgetO_next, Nat.reduceOr] | (refine Eq.trans (onStep_frame _ (by first | decide | exact or_trans rfl hm) _ _ _ _ (fun _ _ _ => ?_)) ?_) | (refine Eq.trans (forget_foldS _ _ (fun _ _ => ?_) _ _) ?_) | (refine Eq.trans (congrArg (forget _) (congrArg Prod.snd ‹_ = (_, _)›).symm) ?_) | split | dsimp only))

@[simp] theorem execVportStep_frame (μ : Nat) (hm : 2115100 ||| μ = μ) (frame : Nat) (s : State) : forgetO μ s (execVportStep frame s) = forget μ s := widenO (a := 2115100) hm (by
  unfold execVportStep
  repeat' (first | with_reducible rfl | simp only [↓vportLookup_frame, forgetO_next, Nat.reduceOr] | (refine Eq.trans (onStep_frame _ (by first | decide | exact or_trans rfl hm) _ _ _ _ (fun _ _ _ => ?_)) ?_) | (refine Eq.trans (forget_foldS _ _ (fun _ _ => ?_) _ _) ?_) | (refine Eq.trans (congrArg (forget _) (congrArg Prod.snd ‹_ = (_, _)›).symm) ?_) | split | dsimp only))

end Sys2Proof.Machine
end

