-- ==== Sys2Proof/Laws/FrameMeters.lean ====
section
/-!
SUPPORT. Frames of the operations of Machine/Meters.lean: the parts of the state that each can change.
-/
namespace Sys2Proof.Machine
set_option linter.all false

@[simp] theorem meterResult_frame (μ : Nat) (hm : 16 ||| μ = μ) (p : Path) (r : Nat) (s : State) : forget μ (meterResult p r s) = forget μ s := widen (a := 16) hm (by
  unfold meterResult
  simp)

@[simp] theorem meterRead_frame (μ : Nat) (hm : 16 ||| μ = μ) (p : Path) (s : State) : forget μ (meterRead p s) = forget μ s := widen (a := 16) hm (by
  unfold meterRead
  repeat' (first | with_reducible rfl | simp only [↓meterResult_frame, ↓setReg_frame, forget_ite, Nat.reduceOr] | (refine Eq.trans (forget_foldS _ _ (fun _ _ => ?_) _ _) ?_) | (refine Eq.trans (congrArg (forget _) (congrArg Prod.snd ‹_ = (_, _)›).symm) ?_) | split | dsimp only))

@[simp] theorem meterWrite_frame (μ : Nat) (hm : 16400 ||| μ = μ) (p : Path) (s : State) : forget μ (meterWrite p s) = forget μ s := widen (a := 16400) hm (by
  unfold meterWrite
  simp)

end Sys2Proof.Machine
end

