-- ==== Sys2Proof/Laws/FrameMgt.lean ====
section
/-!
SUPPORT. Frames of the operations of Machine/Mgt.lean: the parts of the state that each can change.
-/
namespace Sys2Proof.Machine
set_option linter.all false

@[simp] theorem mdioStart_frame (μ : Nat) (hm : 2068 ||| μ = μ) (p : Path) (v : Word) (s : State) : forget μ (mdioStart p v s) = forget μ s := widen (a := 2068) hm (by
  unfold mdioStart
  simp)

@[simp] theorem mgtAnswer_frame (μ : Nat) (hm : 2115084 ||| μ = μ) (k : Nat) (status : Nat) (s : State) : forget μ (mgtAnswer k status s) = forget μ s := widen (a := 2115084) hm (by
  unfold mgtAnswer
  (repeat' split) <;> simp)

@[simp] theorem mgtFlush_frame (μ : Nat) (hm : 2117132 ||| μ = μ) (s : State) : forget μ (mgtFlush s) = forget μ s := widen (a := 2117132) hm (by
  unfold mgtFlush
  repeat' (first | with_reducible rfl | simp only [↓mgtAnswer_frame, ↓modMgt_frame, Nat.reduceOr] | (refine Eq.trans (forget_foldS _ _ (fun _ _ => ?_) _ _) ?_) | (refine Eq.trans (congrArg (forget _) (congrArg Prod.snd ‹_ = (_, _)›).symm) ?_) | split | dsimp only))

@[simp] theorem mgtCfgWrite_frame (μ : Nat) (hm : 2117180 ||| μ = μ) (p : Path) (v : Word) (s : State) : forget μ (mgtCfgWrite p v s) = forget μ s := widen (a := 2117180) hm (by
  unfold mgtCfgWrite
  simp)

@[simp] theorem mgtEvent_frame (μ : Nat) (hm : 2097664 ||| μ = μ) (code : Nat) (detail : Nat) (s : State) : forget μ (mgtEvent code detail s) = forget μ s := widen (a := 2097664) hm (by
  unfold mgtEvent
  simp)

@[simp] theorem execMgtLinkUp_frame (μ : Nat) (hm : 2099712 ||| μ = μ) (s : State) : forgetO μ s (execMgtLinkUp s) = forget μ s := widenO (a := 2099712) hm (by
  unfold execMgtLinkUp
  simp)

@[simp] theorem mgtStat_frame (μ : Nat) (hm : 16 ||| μ = μ) (k : Nat) (s : State) : forget μ (mgtStat k s) = forget μ s := widen (a := 16) hm (by
  unfold mgtStat
  simp)

@[simp] theorem mgtStart_frame (μ : Nat) (hm : 2048 ||| μ = μ) (s : State) : forget μ (mgtStart s) = forget μ s := widen (a := 2048) hm (by
  unfold mgtStart
  simp)

@[simp] theorem mgtFinish_frame (μ : Nat) (hm : 2117132 ||| μ = μ) (status : Nat) (s : State) : forget μ (mgtFinish status s) = forget μ s := widen (a := 2117132) hm (by
  unfold mgtFinish
  (repeat' split) <;> simp)

@[simp] theorem execMgtFrameSent_frame (μ : Nat) (hm : 2149918 ||| μ = μ) (s : State) : forgetO μ s (execMgtFrameSent s) = forget μ s := widenO (a := 2149918) hm (by
  unfold execMgtFrameSent
  repeat' (first | with_reducible rfl | simp only [↓mgtStart_frame, ↓modMgt_frame, ↓advanceTo_frame, ↓mgtFinish_frame, ↓mgtStat_frame, ↓emit_frame, forget_ite, ite_self, forgetO_next, forgetO_ite, Nat.reduceOr] | split))

@[simp] theorem ncsiReply_frame (μ : Nat) (hm : 4 ||| μ = μ) (c : Nat) (code : Nat) (reason : Nat) (body : Bytes) (s : State) : forget μ (ncsiReply c code reason body s) = forget μ s := widen (a := 4) hm (by
  unfold ncsiReply
  simp)

@[simp] theorem ncsiOk_frame (μ : Nat) (hm : 4 ||| μ = μ) (c : Nat) (s : State) : forget μ (ncsiOk c s) = forget μ s := widen (a := 4) hm (by
  unfold ncsiOk
  simp)

@[simp] theorem ncsiSetLink_frame (μ : Nat) (hm : 4 ||| μ = μ) (c : Nat) (s : State) : forget μ (ncsiSetLink c s) = forget μ s := widen (a := 4) hm (by
  unfold ncsiSetLink
  simp)

@[simp] theorem ncsiInstall_frame (μ : Nat) (hm : 1032 ||| μ = μ) (c : Nat) (s : State) : forget μ (ncsiInstall c s) = forget μ s := widen (a := 1032) hm (by
  unfold ncsiInstall
  repeat' (first | with_reducible rfl | simp only [↓fltPlace_frame, ↓modMac_frame, Nat.reduceOr] | (refine Eq.trans (forget_foldS _ _ (fun _ _ => ?_) _ _) ?_) | (refine Eq.trans (congrArg (forget _) (congrArg Prod.snd ‹_ = (_, _)›).symm) ?_) | split | dsimp only))

@[simp] theorem modNcsi_frame (μ : Nat) (hm : 2048 ||| μ = μ) (c : Nat) (g : NcsiChannel → NcsiChannel) (s : State) : forget μ (modNcsi c g s) = forget μ s := widen (a := 2048) hm (by
  unfold modNcsi
  simp)

@[simp] theorem ncsiLink_frame (μ : Nat) (hm : 2117132 ||| μ = μ) (before : Bool) (s : State) : forget μ (ncsiLink before s) = forget μ s := widen (a := 2117132) hm (by
  unfold ncsiLink
  simp)

@[simp] theorem ncsiOn_frame (μ : Nat) (hm : 2117132 ||| μ = μ) (c : Nat) (cmd : Nat) (pl : Bytes) (s : State) : forget μ (ncsiOn c cmd pl s) = forget μ s := widen (a := 2117132) hm (by
  unfold ncsiOn
  (repeat' split) <;> simp)

@[simp] theorem ncsiReset_frame (μ : Nat) (hm : 2117132 ||| μ = μ) (c : Nat) (s : State) : forget μ (ncsiReset c s) = forget μ s := widen (a := 2117132) hm (by
  unfold ncsiReset
  simp)

@[simp] theorem execNcsiCommand_frame (μ : Nat) (hm : 2117132 ||| μ = μ) (channel : Nat) (command : Nat) (payload : Bytes) (s : State) : forgetO μ s (execNcsiCommand channel command payload s) = forget μ s := widenO (a := 2117132) hm (by
  unfold execNcsiCommand
  simp)

@[simp] theorem execMgtCarrierDrop_frame (μ : Nat) (hm : 34818 ||| μ = μ) (s : State) : forgetO μ s (execMgtCarrierDrop s) = forget μ s := widenO (a := 34818) hm (by
  unfold execMgtCarrierDrop
  simp)

@[simp] theorem mgtDeliver_frame (μ : Nat) (hm : 2114072 ||| μ = μ) (bytes : Bytes) (s : State) : forget μ (mgtDeliver bytes s) = forget μ s := widen (a := 2114072) hm (by
  unfold mgtDeliver
  repeat' (first | with_reducible rfl | simp only [↓raise_frame, ↓bump_frame, ↓poolDrop_frame, ↓modSvc_frame, ↓commitMsg_frame, ↓set_free_frame, forget_ite, Nat.reduceOr] | (refine Eq.trans (forget_foldS _ _ (fun _ _ => ?_) _ _) ?_) | (refine Eq.trans (congrArg (forget _) (congrArg Prod.snd ‹_ = (_, _)›).symm) ?_) | (refine Eq.trans (hallocNow_frame _ (by first | decide | exact or_trans rfl hm) _ _ _ _ _ ‹_›) ?_) | simp only [Option.getD] | split | dsimp only))

@[simp] theorem mgtPause_frame (μ : Nat) (hm : 2064 ||| μ = μ) (bytes : Bytes) (s : State) : forget μ (mgtPause bytes s) = forget μ s := widen (a := 2064) hm (by
  unfold mgtPause
  simp)

@[simp] theorem execMgtFrameRx_frame (μ : Nat) (hm : 2116120 ||| μ = μ) (bytes : Bytes) (fcsOk : Bool) (s : State) : forgetO μ s (execMgtFrameRx bytes fcsOk s) = forget μ s := widenO (a := 2116120) hm (by
  unfold execMgtFrameRx
  simp)

@[simp] theorem execResetChannel_frame (μ : Nat) (hm : 2117132 ||| μ = μ) (channel : Nat) (s : State) : forgetO μ s (execResetChannel channel s) = forget μ s := widenO (a := 2117132) hm (by
  unfold execResetChannel
  simp)

@[simp] theorem execMgtLinkDown_frame (μ : Nat) (hm : 2117132 ||| μ = μ) (s : State) : forgetO μ s (execMgtLinkDown s) = forget μ s := widenO (a := 2117132) hm (by
  unfold execMgtLinkDown
  simp)

@[simp] theorem execMdioDone_frame (μ : Nat) (hm : 2064 ||| μ = μ) (data : Option (BitVec 16)) (s : State) : forgetO μ s (execMdioDone data s) = forget μ s := widenO (a := 2064) hm (by
  unfold execMdioDone
  simp)

@[simp] theorem execBackoffExpiry_frame (μ : Nat) (hm : 34818 ||| μ = μ) (s : State) : forgetO μ s (execBackoffExpiry s) = forget μ s := widenO (a := 34818) hm (by
  unfold execBackoffExpiry
  (repeat' split) <;> simp)

@[simp] theorem execCollision_frame (μ : Nat) (hm : 2117148 ||| μ = μ) (bitTimes : Nat) (s : State) : forgetO μ s (execCollision bitTimes s) = forget μ s := widenO (a := 2117148) hm (by
  unfold execCollision
  simp)

@[simp] theorem execMgtTx_frame (μ : Nat) (hm : 2117132 ||| μ = μ) (s : State) : forgetO μ s (execMgtTx s) = forget μ s := widenO (a := 2117132) hm (by
  unfold execMgtTx
  (repeat' split) <;> simp)

end Sys2Proof.Machine
end

