-- ==== Sys2Proof/Laws/FrameMigration.lean ====
section
/-!
SUPPORT. Frames of the operations of Machine/Migration.lean: the parts of the state that each can change.
-/
namespace Sys2Proof.Machine
set_option linter.all false

@[simp] theorem modMig_frame (μ : Nat) (hm : 256 ||| μ = μ) (f : Fn) (g : Mig → Mig) (s : State) : forget μ (modMig f g s) = forget μ s := widen (a := 256) hm (by
  unfold modMig
  simp)

@[simp] theorem askReads_frame (μ : Nat) (hm : 256 ||| μ = μ) (f : Fn) (q : Nat) (w : Work) (s : State) : forget μ (askReads f q w s) = forget μ s := widen (a := 256) hm (by
  unfold askReads
  simp)

@[simp] theorem unpark_frame (μ : Nat) (hm : 768 ||| μ = μ) (f : Fn) (s : State) : forget μ (unpark f s) = forget μ s := widen (a := 768) hm (by
  unfold unpark
  repeat' (first | with_reducible rfl | simp only [↓askReads_frame, ↓modQm_frame, Nat.reduceOr] | (refine Eq.trans (forget_foldS _ _ (fun _ _ => ?_) _ _) ?_) | (refine Eq.trans (congrArg (forget _) (congrArg Prod.snd ‹_ = (_, _)›).symm) ?_) | split | dsimp only))

@[simp] theorem wakeVf_frame (μ : Nat) (hm : 36176660 ||| μ = μ) (f : Fn) (s : State) : forget μ (wakeVf f s) = forget μ s := widen (a := 36176660) hm (by
  unfold wakeVf
  repeat' (first | with_reducible rfl | simp only [↓settle_frame, ↓nvDrain_frame, ↓nvAen_frame, ↓modNvme_frame, ↓cxSendAll_frame, ↓flushPba_frame, forget_ite, Nat.reduceOr] | (refine Eq.trans (forget_foldS _ _ (fun _ _ => ?_) _ _) ?_) | (refine Eq.trans (congrArg (forget _) (congrArg Prod.snd ‹_ = (_, _)›).symm) ?_) | split | dsimp only))

@[simp] theorem migResult_frame (μ : Nat) (hm : 256 ||| μ = μ) (f : Fn) (r : Nat) (s : State) : forget μ (migResult f r s) = forget μ s := widen (a := 256) hm (by
  unfold migResult
  simp)

@[simp] theorem vfUnfreeze_frame (μ : Nat) (hm : 36176660 ||| μ = μ) (pf : Nat) (s : State) : forget μ (vfUnfreeze pf s) = forget μ s := widen (a := 36176660) hm (by
  unfold vfUnfreeze
  (repeat' split) <;> simp)

@[simp] theorem migPend_frame (μ : Nat) (hm : 256 ||| μ = μ) (f : Fn) (a : Nat) (s : State) : forget μ (migPend f a s) = forget μ s := widen (a := 256) hm (by
  unfold migPend
  simp)

theorem migAction_frame (μ : Nat) (hm : 256 ||| μ = μ) (pf : Nat) (g : Fn → State → State) (s : State) (h_g : ∀ v0 v1, forget μ (g v0 v1) = forget μ v1) : forget μ (migAction pf g s) = forget μ s := by
  unfold migAction
  repeat' (first | with_reducible rfl | simp only [↓(migResult_frame μ (or_trans (a := 256) (b := 256) rfl hm)), forget_ite, ite_self, h_g] | (refine Eq.trans (forget_foldS _ _ (fun _ _ => ?_) _ _) ?_) | (refine Eq.trans (congrArg (forget _) (congrArg Prod.snd ‹_ = (_, _)›).symm) ?_) | split | dsimp only)

@[simp] theorem restoreStart_frame (μ : Nat) (hm : 256 ||| μ = μ) (pf : Nat) (s : State) : forget μ (restoreStart pf s) = forget μ s := widen (a := 256) hm (by
  unfold restoreStart
  repeat' (first | with_reducible rfl | simp only [↓migResult_frame, ↓modMig_frame, ↓migPend_frame, forget_ite, ite_self, Nat.reduceOr] | (refine Eq.trans (migAction_frame _ (by first | decide | exact or_trans rfl hm) _ _ _ (fun _ _ => ?_)) ?_) | (refine Eq.trans (forget_foldS _ _ (fun _ _ => ?_) _ _) ?_) | (refine Eq.trans (congrArg (forget _) (congrArg Prod.snd ‹_ = (_, _)›).symm) ?_) | split | dsimp only))

@[simp] theorem vfSave_frame (μ : Nat) (hm : 260 ||| μ = μ) (pf : Nat) (res : HostWriteEnd) (s : State) : forget μ (vfSave pf res s) = forget μ s := by
  have a (f : Fn) (g : Mig → Mig) (t : State) : forget μ (modMig f g t) = forget μ t := modMig_frame μ (or_trans rfl hm) _ _ _
  have b (f : Fn) (k : Nat) (t : State) : forget μ (migPend f k t) = forget μ t := migPend_frame μ (or_trans rfl hm) _ _ _
  have c (f : Fn) (k : Nat) (t : State) : forget μ (migResult f k t) = forget μ t := migResult_frame μ (or_trans rfl hm) _ _ _
  unfold vfSave
  refine migAction_frame μ (or_trans rfl hm) pf _ s (fun f t => ?_)
  dsimp only
  generalize stateImage t f = img
  split
  · rw [c]
  · split
    · rw [a, b, a]
    · cases res
      · dsimp only
        rw [a, b, a]
        exact hostWrite_frame μ (or_trans rfl hm) _ _ _ _ _ _
      · dsimp only
        rw [a, b]

@[simp] theorem parkJobs_frame (μ : Nat) (hm : 1048576 ||| μ = μ) (f : Fn) (s : State) : forget μ (parkJobs f s) = forget μ s := widen (a := 1048576) hm (by
  unfold parkJobs
  repeat' (first | with_reducible rfl | simp only [↓modChan_frame, ↓mvWait_frame, forget_ite, ite_self, Nat.reduceOr] | (refine Eq.trans (forget_foldS _ _ (fun _ _ => ?_) _ _) ?_) | (refine Eq.trans (congrArg (forget _) (congrArg Prod.snd ‹_ = (_, _)›).symm) ?_) | split | dsimp only))

@[simp] theorem retractFrame_frame (μ : Nat) (hm : 2184716 ||| μ = μ) (id : Nat) (s : State) : forget μ (retractFrame id s) = forget μ s := widen (a := 2184716) hm (by
  unfold retractFrame
  repeat' (first | with_reducible rfl | simp only [↓removeMsgs_frame, ↓modPrs_frame, ↓freeFrame_frame, Nat.reduceOr] | (refine Eq.trans (forget_foldS _ _ (fun _ _ => ?_) _ _) ?_) | (refine Eq.trans (congrArg (forget _) (congrArg Prod.snd ‹_ = (_, _)›).symm) ?_) | split | dsimp only))

@[simp] theorem parkFrames_frame (μ : Nat) (hm : 2184716 ||| μ = μ) (f : Fn) (s : State) : forget μ (parkFrames f s) = forget μ s := widen (a := 2184716) hm (by
  unfold parkFrames
  repeat' (first | with_reducible rfl | simp only [↓retractFrame_frame, Nat.reduceOr] | (refine Eq.trans (forget_foldS _ _ (fun _ _ => ?_) _ _) ?_) | (refine Eq.trans (congrArg (forget _) (congrArg Prod.snd ‹_ = (_, _)›).symm) ?_) | split | dsimp only))

@[simp] theorem parkInserts_frame (μ : Nat) (hm : 8192 ||| μ = μ) (f : Fn) (s : State) : forget μ (parkInserts f s) = forget μ s := widen (a := 8192) hm (by
  unfold parkInserts
  repeat' (first | with_reducible rfl | simp only [↓removeFlow_frame, ↓removeRoute_frame, ↓modTbl_frame, forget_ite, ite_self, Nat.reduceOr] | (refine Eq.trans (forget_foldS _ _ (fun _ _ => ?_) _ _) ?_) | (refine Eq.trans (congrArg (forget _) (congrArg Prod.snd ‹_ = (_, _)›).symm) ?_) | split | dsimp only))

@[simp] theorem parkMsgs_frame (μ : Nat) (hm : 65536 ||| μ = μ) (f : Fn) (s : State) : forget μ (parkMsgs f s) = forget μ s := widen (a := 65536) hm (by
  unfold parkMsgs
  simp)

@[simp] theorem park_frame (μ : Nat) (hm : 3766028 ||| μ = μ) (f : Fn) (s : State) : forget μ (park f s) = forget μ s := widen (a := 3766028) hm (by
  unfold park
  simp)

@[simp] theorem vfFreeze_frame (μ : Nat) (hm : 3766028 ||| μ = μ) (pf : Nat) (s : State) : forget μ (vfFreeze pf s) = forget μ s := widen (a := 3766028) hm (by
  unfold vfFreeze
  repeat' (first | with_reducible rfl | simp only [↓migResult_frame, ↓modMig_frame, ↓park_frame, ↓migPend_frame, forget_ite, ite_self, Nat.reduceOr] | (refine Eq.trans (migAction_frame _ (by first | decide | exact or_trans rfl hm) _ _ _ (fun _ _ => ?_)) ?_) | (refine Eq.trans (forget_foldS _ _ (fun _ _ => ?_) _ _) ?_) | (refine Eq.trans (congrArg (forget _) (congrArg Prod.snd ‹_ = (_, _)›).symm) ?_) | split | dsimp only))

@[simp] theorem logStop_frame (μ : Nat) (hm : 256 ||| μ = μ) (pf : Nat) (s : State) : forget μ (logStop pf s) = forget μ s := widen (a := 256) hm (by
  unfold logStop
  repeat' (first | with_reducible rfl | simp only [↓modMig_frame, Nat.reduceOr] | (refine Eq.trans (migAction_frame _ (by first | decide | exact or_trans rfl hm) _ _ _ (fun _ _ => ?_)) ?_) | (refine Eq.trans (forget_foldS _ _ (fun _ _ => ?_) _ _) ?_) | (refine Eq.trans (congrArg (forget _) (congrArg Prod.snd ‹_ = (_, _)›).symm) ?_) | split | dsimp only))

@[simp] theorem logSwap_frame (μ : Nat) (hm : 256 ||| μ = μ) (pf : Nat) (s : State) : forget μ (logSwap pf s) = forget μ s := widen (a := 256) hm (by
  unfold logSwap
  repeat' (first | with_reducible rfl | simp only [↓modMig_frame, Nat.reduceOr] | (refine Eq.trans (migAction_frame _ (by first | decide | exact or_trans rfl hm) _ _ _ (fun _ _ => ?_)) ?_) | (refine Eq.trans (forget_foldS _ _ (fun _ _ => ?_) _ _) ?_) | (refine Eq.trans (congrArg (forget _) (congrArg Prod.snd ‹_ = (_, _)›).symm) ?_) | split | dsimp only))

@[simp] theorem logStart_frame (μ : Nat) (hm : 256 ||| μ = μ) (pf : Nat) (s : State) : forget μ (logStart pf s) = forget μ s := widen (a := 256) hm (by
  unfold logStart
  repeat' (first | with_reducible rfl | simp only [↓modMig_frame, ↓migResult_frame, forget_ite, ite_self, Nat.reduceOr] | (refine Eq.trans (migAction_frame _ (by first | decide | exact or_trans rfl hm) _ _ _ (fun _ _ => ?_)) ?_) | (refine Eq.trans (forget_foldS _ _ (fun _ _ => ?_) _ _) ?_) | (refine Eq.trans (congrArg (forget _) (congrArg Prod.snd ‹_ = (_, _)›).symm) ?_) | split | dsimp only))

@[simp] theorem vfGrant_frame (μ : Nat) (hm : 3744512 ||| μ = μ) (pf : Nat) (s : State) : forget μ (vfGrant pf s) = forget μ s := widen (a := 3744512) hm (by
  unfold vfGrant
  repeat' (first | with_reducible rfl | simp only [↓migResult_frame, ↓tdiError_frame, ↓modFn_frame, forget_ite, ite_self, Nat.reduceOr] | (refine Eq.trans (migAction_frame _ (by first | decide | exact or_trans rfl hm) _ _ _ (fun _ _ => ?_)) ?_) | (refine Eq.trans (forget_foldS _ _ (fun _ _ => ?_) _ _) ?_) | (refine Eq.trans (congrArg (forget _) (congrArg Prod.snd ‹_ = (_, _)›).symm) ?_) | split | dsimp only))

@[simp] theorem vportBind_frame (μ : Nat) (hm : 3744528 ||| μ = μ) (pf : Nat) (v : Word) (s : State) : forget μ (vportBind pf v s) = forget μ s := widen (a := 3744528) hm (by
  unfold vportBind
  (repeat' split) <;> simp)

@[simp] theorem restorePair_frame (μ : Nat) (hm : 524288 ||| μ = μ) (f : Fn) (r : Bytes) (s : State) : forget μ (restorePair f r s) = forget μ s := widen (a := 524288) hm (by
  unfold restorePair
  simp)

@[simp] theorem execDirtyPageLog_frame (μ : Nat) (hm : 260 ||| μ = μ) (f : Fn) (addr : Nat) (len : Nat) (s : State) : forgetO μ s (execDirtyPageLog f addr len s) = forget μ s := widenO (a := 260) hm (by
  unfold execDirtyPageLog
  simp)

@[simp] theorem restoreKeyref_frame (μ : Nat) (hm : 65536 ||| μ = μ) (v : Nat) (r : Bytes) (s : State) : forget μ (restoreKeyref v r s) = forget μ s := widen (a := 65536) hm (by
  unfold restoreKeyref
  simp)

@[simp] theorem freezeDone_frame (μ : Nat) (hm : 2097920 ||| μ = μ) (f : Fn) (s : State) : forget μ (freezeDone f s) = forget μ s := widen (a := 2097920) hm (by
  unfold freezeDone
  simp)

@[simp] theorem restorePage_frame (μ : Nat) (hm : 32784 ||| μ = μ) (f : Fn) (r : Bytes) (s : State) : forget μ (restorePage f r s) = forget μ s := widen (a := 32784) hm (by
  unfold restorePage
  simp)

@[simp] theorem restoreFilter_frame (μ : Nat) (hm : 1032 ||| μ = μ) (v : Nat) (r : Bytes) (s : State) : forget μ (restoreFilter v r s) = forget μ s := widen (a := 1032) hm (by
  unfold restoreFilter
  simp)

@[simp] theorem restoreMeter_frame (μ : Nat) (hm : 16392 ||| μ = μ) (v : Nat) (r : Bytes) (s : State) : forget μ (restoreMeter v r s) = forget μ s := widen (a := 16392) hm (by
  unfold restoreMeter
  repeat' (first | with_reducible rfl | simp only [↓pickFree_frame, ↓modTm_frame, Nat.reduceOr] | split))

@[simp] theorem restoreFlow_frame (μ : Nat) (hm : 2105864 ||| μ = μ) (v : Nat) (r : Bytes) (s : State) : forget μ (restoreFlow v r s) = forget μ s := widen (a := 2105864) hm (by
  unfold restoreFlow
  repeat' (first | with_reducible rfl | simp only [↓set_free_frame, ↓set_qm_frame, ↓set_tbl_frame, ↓set_svc_frame, forget_ite, ite_self, forgetO_next, forgetO_ite, Nat.reduceOr] | (refine Eq.trans (forget_foldS _ _ (fun _ _ => ?_) _ _) ?_) | (refine Eq.trans (congrArg (forget _) (congrArg Prod.snd ‹_ = (_, _)›).symm) ?_) | (refine Eq.trans (addFlow_frame _ (by first | decide | exact or_trans rfl hm) _ _ _ (_, _) ‹_›) ?_) | (refine Eq.trans (addFlow_frame _ (by first | decide | exact or_trans rfl hm) _ _ _ _ ‹_›) ?_) | simp only [Option.getD] | split | dsimp only))

@[simp] theorem restoreAer_frame (μ : Nat) (hm : 524288 ||| μ = μ) (f : Fn) (cid : Nat) (s : State) : forget μ (restoreAer f cid s) = forget μ s := widen (a := 524288) hm (by
  unfold restoreAer
  simp)

@[simp] theorem adminPair_frame (μ : Nat) (hm : 8 ||| μ = μ) (aqa : Nat) (asq : Nat) (acq : Nat) (s : State) : forget μ (adminPair aqa asq acq s).2.2 = forget μ s := widen (a := 8) hm (by
  unfold adminPair
  simp)

@[simp] theorem restoreController_frame (μ : Nat) (hm : 524296 ||| μ = μ) (f : Fn) (rs : List Bytes) (s : State) : forget μ (restoreController f rs s) = forget μ s := widen (a := 524296) hm (by
  unfold restoreController
  repeat' (first | with_reducible rfl | simp only [↓adminPair_frame, ↓modNvme_frame, ↓restorePair_frame, ↓restoreAer_frame, forget_ite, ite_self, Nat.reduceOr] | (refine Eq.trans (forget_foldS _ _ (fun _ _ => ?_) _ _) ?_) | (refine Eq.trans (congrArg (forget _) (congrArg Prod.snd ‹_ = (_, _)›).symm) ?_) | split | dsimp only))

@[simp] theorem restoreWork_frame (μ : Nat) (hm : 524800 ||| μ = μ) (f : Fn) (r : Bytes) (s : State) : forget μ (restoreWork f r s) = forget μ s := widen (a := 524800) hm (by
  unfold restoreWork
  simp)

@[simp] theorem restoreEvent_frame (μ : Nat) (hm : 512 ||| μ = μ) (f : Fn) (r : Bytes) (s : State) : forget μ (restoreEvent f r s) = forget μ s := widen (a := 512) hm (by
  unfold restoreEvent
  simp)

@[simp] theorem restoreMsix_frame (μ : Nat) (hm : 256 ||| μ = μ) (f : Fn) (rs : List Bytes) (s : State) : forget μ (restoreMsix f rs s) = forget μ s := widen (a := 256) hm (by
  unfold restoreMsix
  simp)

@[simp] theorem restoreQueue_frame (μ : Nat) (hm : 784 ||| μ = μ) (f : Fn) (r : Bytes) (s : State) : forget μ (restoreQueue f r s) = forget μ s := widen (a := 784) hm (by
  unfold restoreQueue
  simp)

@[simp] theorem restoreCqe_frame (μ : Nat) (hm : 2097924 ||| μ = μ) (f : Fn) (r : Bytes) (s : State) : forget μ (restoreCqe f r s) = forget μ s := widen (a := 2097924) hm (by
  unfold restoreCqe
  simp)

@[simp] theorem applyImage_frame (μ : Nat) (hm : 2746140 ||| μ = μ) (f : Fn) (secs : List (Nat × List Bytes)) (serial : Nat) (s : State) : forget μ (applyImage f secs serial s) = forget μ s := widen (a := 2746140) hm (by
  unfold applyImage
  repeat' (first | with_reducible rfl | simp only [↓restoreCqe_frame, ↓restoreQueue_frame, ↓restoreMsix_frame, ↓restoreEvent_frame, ↓restoreWork_frame, ↓restoreController_frame, ↓restoreKeyref_frame, ↓restoreFlow_frame, ↓restoreMeter_frame, ↓restoreFilter_frame, ↓modMig_frame, ↓restorePage_frame, Nat.reduceOr] | (refine Eq.trans (forget_foldS _ _ (fun _ _ => ?_) _ _) ?_) | (refine Eq.trans (congrArg (forget _) (congrArg Prod.snd ‹_ = (_, _)›).symm) ?_) | split | dsimp only))

@[simp] theorem restoreImage_frame (μ : Nat) (hm : 2746140 ||| μ = μ) (f : Fn) (image : HostRead) (s : State) : forget μ (restoreImage f image s) = forget μ s := widen (a := 2746140) hm (by
  unfold restoreImage
  repeat' (first | with_reducible rfl | simp only [↓modMig_frame, ↓applyImage_frame, forget_ite, ite_self, Nat.reduceOr] | split))

@[simp] theorem vfRestore_frame (μ : Nat) (hm : 2746174 ||| μ = μ) (pf : Nat) (image : HostRead) (s : State) : forget μ (vfRestore pf image s) = forget μ s := by
  unfold vfRestore
  split
  · rfl
  · rename_i f _
    cases h : operandRead (.pf pf) (imageBuf s f) image s with
    | none => rfl
    | some t => exact (restoreImage_frame μ (or_trans rfl hm) _ _ _).trans (operandRead_frame μ (or_trans rfl hm) _ _ _ _ _ h)

@[simp] theorem execFreezeDone_frame (μ : Nat) (hm : 2097920 ||| μ = μ) (f : Fn) (s : State) : forgetO μ s (execFreezeDone f s) = forget μ s := widenO (a := 2097920) hm (by
  unfold execFreezeDone
  simp)

@[simp] theorem vfMigDone_frame (μ : Nat) (hm : 2097920 ||| μ = μ) (f : Fn) (s : State) : forget μ (vfMigDone f s) = forget μ s := widen (a := 2097920) hm (by
  unfold vfMigDone
  repeat' (first | with_reducible rfl | simp only [↓freezeDone_frame, ↓migDone_frame, ↓modMig_frame, forget_ite, ite_self, Nat.reduceOr] | split))

@[simp] theorem execVfMigDone_frame (μ : Nat) (hm : 2097920 ||| μ = μ) (f : Fn) (s : State) : forgetO μ s (execVfMigDone f s) = forget μ s := widenO (a := 2097920) hm (by
  unfold execVfMigDone
  simp)

@[simp] theorem migSlow_frame (μ : Nat) (hm : 2130690 ||| μ = μ) (f : Fn) (s : State) : forget μ (migSlow f s) = forget μ s := widen (a := 2130690) hm (by
  unfold migSlow
  simp)

@[simp] theorem execMigSlow_frame (μ : Nat) (hm : 2130690 ||| μ = μ) (f : Fn) (s : State) : forgetO μ s (execMigSlow f s) = forget μ s := widenO (a := 2130690) hm (by
  unfold execMigSlow
  simp)

end Sys2Proof.Machine
end

