-- ==== Sys2Proof/Laws/FrameModes.lean ====
section
/-!
SUPPORT. Frames of the operations of Machine/Modes.lean: the parts of the state that each can change.
-/
namespace Sys2Proof.Machine
set_option linter.all false

@[simp] theorem execUnitReady_frame (μ : Nat) (hm : 2115228 ||| μ = μ) (unit : Nat) (s : State) : forgetO μ s (execUnitReady unit s) = forget μ s := widenO (a := 2115228) hm (by
  unfold execUnitReady
  simp)

@[simp] theorem execFunctionReady_frame (μ : Nat) (hm : 2115484 ||| μ = μ) (f : Fn) (s : State) : forgetO μ s (execFunctionReady f s) = forget μ s := widenO (a := 2115484) hm (by
  unfold execFunctionReady
  (repeat' split) <;> simp)

@[simp] theorem noteDegraded_frame (μ : Nat) (hm : 2097664 ||| μ = μ) (half : Nat) (rate : Nat) (width : Nat) (s : State) : forget μ (noteDegraded half rate width s) = forget μ s := widen (a := 2097664) hm (by
  unfold noteDegraded
  simp)

@[simp] theorem linkLost_frame (μ : Nat) (hm : 3794876 ||| μ = μ) (h : Nat) (s : State) : forget μ (linkLost h s) = forget μ s := widen (a := 3794876) hm (by
  unfold linkLost
  simp)

@[simp] theorem execLinkDisable_frame (μ : Nat) (hm : 3794876 ||| μ = μ) (half : Nat) (s : State) : forgetO μ s (execLinkDisable half s) = forget μ s := widenO (a := 3794876) hm (by
  unfold execLinkDisable
  simp)

@[simp] theorem execPerstAssert_frame (μ : Nat) (hm : 3794876 ||| μ = μ) (half : Nat) (s : State) : forgetO μ s (execPerstAssert half s) = forget μ s := widenO (a := 3794876) hm (by
  unfold execPerstAssert
  simp)

@[simp] theorem execPcieLinkFailure_frame (μ : Nat) (hm : 3794876 ||| μ = μ) (half : Nat) (s : State) : forgetO μ s (execPcieLinkFailure half s) = forget μ s := widenO (a := 3794876) hm (by
  unfold execPcieLinkFailure
  simp)

@[simp] theorem execHotReset_frame (μ : Nat) (hm : 3794876 ||| μ = μ) (half : Nat) (s : State) : forgetO μ s (execHotReset half s) = forget μ s := widenO (a := 3794876) hm (by
  unfold execHotReset
  simp)

@[simp] theorem execPcieLinkUp_frame (μ : Nat) (hm : 2097920 ||| μ = μ) (half : Nat) (rate : Nat) (width : Nat) (flit : Bool) (s : State) : forgetO μ s (execPcieLinkUp half rate width flit s) = forget μ s := widenO (a := 2097920) hm (by
  unfold execPcieLinkUp
  simp)

@[simp] theorem execPerstDeassert_frame (μ : Nat) (hm : 2099092 ||| μ = μ) (half : Nat) (s : State) : forgetO μ s (execPerstDeassert half s) = forget μ s := widenO (a := 2099092) hm (by
  unfold execPerstDeassert
  simp)

@[simp] theorem execDrainFinished_frame (μ : Nat) (hm : 16777148 ||| μ = μ) (s : State) : forgetO μ s (execDrainFinished s) = forget μ s := widenO (a := 16777148) hm (by
  unfold execDrainFinished
  (repeat' split) <;> simp)

@[simp] theorem execDrainLimitExpiry_frame (μ : Nat) (hm : 37340958 ||| μ = μ) (s : State) : forgetO μ s (execDrainLimitExpiry s) = forget μ s := widenO (a := 37340958) hm (by
  unfold execDrainLimitExpiry
  (repeat' split) <;> simp)

@[simp] theorem execBootWaitExpiry_frame (μ : Nat) (hm : 16775102 ||| μ = μ) (s : State) : forgetO μ s (execBootWaitExpiry s) = forget μ s := widenO (a := 16775102) hm (by
  unfold execBootWaitExpiry
  (repeat' split) <;> simp)

@[simp] theorem execBringupStart_frame (μ : Nat) (hm : 33554364 ||| μ = μ) (boot : BootInput) (s : State) : forgetO μ s (execBringupStart boot s) = forget μ s := widenO (a := 33554364) hm (by
  unfold execBringupStart
  (repeat' split) <;> simp)

end Sys2Proof.Machine
end

