-- ==== Sys2Proof/Laws/FrameActions.lean ====
section
/-!
SUPPORT. Frames of the operations of Machine/Actions.lean: the parts of the state that each can change.
-/
namespace Sys2Proof.Machine
set_option linter.all false

@[simp] theorem actVlanPop_frame (μ : Nat) (hm : 16384 ||| μ = μ) (id : Nat) (f : Frame) (s : State) : forget μ (actVlanPop id f s) = forget μ s := widen (a := 16384) hm (by
  unfold actVlanPop
  simp)

@[simp] theorem actDeliver_frame (μ : Nat) (hm : 6317852 ||| μ = μ) (id : Nat) (w : Nat) (f : Frame) (s : State) : forget μ (actDeliver id w f s) = forget μ s := widen (a := 6317852) hm (by
  unfold actDeliver
  simp)

@[simp] theorem flush_frame (μ : Nat) (hm : 6317852 ||| μ = μ) (id : Nat) (s : State) : forget μ (flush id s) = forget μ s := widen (a := 6317852) hm (by
  unfold flush
  repeat' (first | with_reducible rfl | simp only [↓deliverCopy_frame, ↓modFrame_frame, Nat.reduceOr] | (refine Eq.trans (forget_foldS _ _ (fun _ _ => ?_) _ _) ?_) | (refine Eq.trans (congrArg (forget _) (congrArg Prod.snd ‹_ = (_, _)›).symm) ?_) | split | dsimp only))

@[simp] theorem endList_frame (μ : Nat) (hm : 6317852 ||| μ = μ) (id : Nat) (s : State) : forget μ (endList id s) = forget μ s := widen (a := 6317852) hm (by
  unfold endList
  repeat' (first | with_reducible rfl | simp only [↓modFrame_frame, ↓dropFrame_frame, ↓settleFrame_frame, ↓flush_frame, forget_ite, Nat.reduceOr] | (refine Eq.trans (forget_foldS _ _ (fun _ _ => ?_) _ _) ?_) | (refine Eq.trans (congrArg (forget _) (congrArg Prod.snd ‹_ = (_, _)›).symm) ?_) | split | dsimp only))

@[simp] theorem endOfEntries_frame (μ : Nat) (hm : 6317852 ||| μ = μ) (id : Nat) (s : State) : forget μ (endOfEntries id s) = forget μ s := widen (a := 6317852) hm (by
  unfold endOfEntries
  (repeat' split) <;> simp)

@[simp] theorem letStand_frame (μ : Nat) (hm : 6317852 ||| μ = μ) (id : Nat) (s : State) : forget μ (letStand id s) = forget μ s := widen (a := 6317852) hm (by
  unfold letStand
  (repeat' split) <;> simp)

@[simp] theorem afterEntry_frame (μ : Nat) (hm : 6317852 ||| μ = μ) (id : Nat) (s : State) : forget μ (afterEntry id s) = forget μ s := widen (a := 6317852) hm (by
  unfold afterEntry
  (repeat' split) <;> simp)

theorem runEntry_frame (μ : Nat) (hm : 6317852 ||| μ = μ) (id : Nat) (p : Nat → Bool) (g : Nat → Frame → State → State) (s : State) (h_g : ∀ v0 v1 v2, forget μ (g v0 v1 v2) = forget μ v2) : forget μ (runEntry id p g s) = forget μ s := by
  unfold runEntry
  repeat' (first | with_reducible rfl | simp only [↓(endList_frame μ (or_trans (a := 6317852) (b := 6317852) rfl hm)), ↓(tblStat_frame μ (or_trans (a := 16) (b := 6317852) rfl hm)), ↓(modFrame_frame μ (or_trans (a := 16384) (b := 6317852) rfl hm)), ↓(afterEntry_frame μ (or_trans (a := 6317852) (b := 6317852) rfl hm)), forget_ite, ite_self, h_g] | (refine Eq.trans (forget_foldS _ _ (fun _ _ => ?_) _ _) ?_) | (refine Eq.trans (congrArg (forget _) (congrArg Prod.snd ‹_ = (_, _)›).symm) ?_) | split | dsimp only)

@[simp] theorem execActDeliverVport_frame (μ : Nat) (hm : 6317852 ||| μ = μ) (frame : Nat) (s : State) : forgetO μ s (execActDeliverVport frame s) = forget μ s := widenO (a := 6317852) hm (by
  unfold execActDeliverVport
  repeat' (first | with_reducible rfl | simp only [↓actDeliver_frame, forgetO_next, Nat.reduceOr] | (refine Eq.trans (runEntry_frame _ (by first | decide | exact or_trans rfl hm) _ _ _ _ (fun _ _ _ => ?_)) ?_) | (refine Eq.trans (forget_foldS _ _ (fun _ _ => ?_) _ _) ?_) | (refine Eq.trans (congrArg (forget _) (congrArg Prod.snd ‹_ = (_, _)›).symm) ?_) | split | dsimp only))

@[simp] theorem skipped_frame (μ : Nat) (hm : 16 ||| μ = μ) (s : State) : forget μ (skipped s) = forget μ s := widen (a := 16) hm (by
  unfold skipped
  simp)

@[simp] theorem actMeter_frame (μ : Nat) (hm : 6317852 ||| μ = μ) (id : Nat) (w : Nat) (f : Frame) (s : State) : forget μ (actMeter id w f s) = forget μ s := widen (a := 6317852) hm (by
  unfold actMeter
  simp)

@[simp] theorem execActMeter_frame (μ : Nat) (hm : 6317852 ||| μ = μ) (frame : Nat) (s : State) : forgetO μ s (execActMeter frame s) = forget μ s := widenO (a := 6317852) hm (by
  unfold execActMeter
  repeat' (first | with_reducible rfl | simp only [↓actMeter_frame, forgetO_next, Nat.reduceOr] | (refine Eq.trans (runEntry_frame _ (by first | decide | exact or_trans rfl hm) _ _ _ _ (fun _ _ _ => ?_)) ?_) | (refine Eq.trans (forget_foldS _ _ (fun _ _ => ?_) _ _) ?_) | (refine Eq.trans (congrArg (forget _) (congrArg Prod.snd ‹_ = (_, _)›).symm) ?_) | split | dsimp only))

@[simp] theorem actCipher_frame (μ : Nat) (hm : 2180636 ||| μ = μ) (encrypt : Bool) (id : Nat) (w : Nat) (f : Frame) (s : State) : forget μ (actCipher encrypt id w f s) = forget μ s := widen (a := 2180636) hm (by
  unfold actCipher
  (repeat' split) <;> simp)

theorem awaitSlot_frame (μ : Nat) (hm : 65552 ||| μ = μ) (id : Nat) (p : Nat → Bool) (run : State → State) (s : State) (h_run : ∀ v0, forget μ (run v0) = forget μ v0) : forget μ (awaitSlot id p run s) = forget μ s := by
  unfold awaitSlot
  repeat' (first | with_reducible rfl | simp only [↓(useCache_frame μ (or_trans (a := 65552) (b := 65552) rfl hm)), forget_ite, ite_self, h_run] | (refine Eq.trans (forget_foldS _ _ (fun _ _ => ?_) _ _) ?_) | (refine Eq.trans (congrArg (forget _) (congrArg Prod.snd ‹_ = (_, _)›).symm) ?_) | split | dsimp only)

@[simp] theorem execActDecrypt_frame (μ : Nat) (hm : 6383388 ||| μ = μ) (frame : Nat) (s : State) : forgetO μ s (execActDecrypt frame s) = forget μ s := widenO (a := 6383388) hm (by
  unfold execActDecrypt
  repeat' (first | with_reducible rfl | simp only [↓actCipher_frame, forgetO_next, Nat.reduceOr] | (refine Eq.trans (awaitSlot_frame _ (by first | decide | exact or_trans rfl hm) _ _ _ _ (fun _ => ?_)) ?_) | (refine Eq.trans (runEntry_frame _ (by first | decide | exact or_trans rfl hm) _ _ _ _ (fun _ _ _ => ?_)) ?_) | (refine Eq.trans (forget_foldS _ _ (fun _ _ => ?_) _ _) ?_) | (refine Eq.trans (congrArg (forget _) (congrArg Prod.snd ‹_ = (_, _)›).symm) ?_) | split | dsimp only))

@[simp] theorem actEncap_frame (μ : Nat) (hm : 6317852 ||| μ = μ) (id : Nat) (w : Nat) (f : Frame) (s : State) : forget μ (actEncap id w f s) = forget μ s := widen (a := 6317852) hm (by
  unfold actEncap
  simp)

@[simp] theorem actMirror_frame (μ : Nat) (hm : 2114064 ||| μ = μ) (id : Nat) (w : Nat) (f : Frame) (s : State) : forget μ (actMirror id w f s) = forget μ s := widen (a := 2114064) hm (by
  unfold actMirror
  repeat' (first | with_reducible rfl | simp only [↓skipped_frame, ↓newFrame_frame, ↓modFrame_frame, forget_ite, Nat.reduceOr] | (refine Eq.trans (forget_foldS _ _ (fun _ _ => ?_) _ _) ?_) | (refine Eq.trans (congrArg (forget _) (congrArg Prod.snd ‹_ = (_, _)›).symm) ?_) | (refine Eq.trans (takeCells_frame _ (by first | decide | exact or_trans rfl hm) _ _ _ _ _ ‹_›) ?_) | simp only [Option.getD] | split | dsimp only))

@[simp] theorem actChain_frame (μ : Nat) (hm : 16400 ||| μ = μ) (id : Nat) (w : Nat) (s : State) : forget μ (actChain id w s) = forget μ s := widen (a := 16400) hm (by
  unfold actChain
  (repeat' split) <;> simp)

@[simp] theorem actDecap_frame (μ : Nat) (hm : 16400 ||| μ = μ) (id : Nat) (w : Nat) (f : Frame) (s : State) : forget μ (actDecap id w f s) = forget μ s := widen (a := 16400) hm (by
  unfold actDecap
  (repeat' split) <;> simp)

@[simp] theorem execActDecap_frame (μ : Nat) (hm : 6317852 ||| μ = μ) (frame : Nat) (s : State) : forgetO μ s (execActDecap frame s) = forget μ s := widenO (a := 6317852) hm (by
  unfold execActDecap
  repeat' (first | with_reducible rfl | simp only [↓actDecap_frame, forgetO_next, Nat.reduceOr] | (refine Eq.trans (runEntry_frame _ (by first | decide | exact or_trans rfl hm) _ _ _ _ (fun _ _ _ => ?_)) ?_) | (refine Eq.trans (forget_foldS _ _ (fun _ _ => ?_) _ _) ?_) | (refine Eq.trans (congrArg (forget _) (congrArg Prod.snd ‹_ = (_, _)›).symm) ?_) | split | dsimp only))

@[simp] theorem execActEncap_frame (μ : Nat) (hm : 6317852 ||| μ = μ) (frame : Nat) (s : State) : forgetO μ s (execActEncap frame s) = forget μ s := widenO (a := 6317852) hm (by
  unfold execActEncap
  repeat' (first | with_reducible rfl | simp only [↓actEncap_frame, forgetO_next, Nat.reduceOr] | (refine Eq.trans (runEntry_frame _ (by first | decide | exact or_trans rfl hm) _ _ _ _ (fun _ _ _ => ?_)) ?_) | (refine Eq.trans (forget_foldS _ _ (fun _ _ => ?_) _ _) ?_) | (refine Eq.trans (congrArg (forget _) (congrArg Prod.snd ‹_ = (_, _)›).symm) ?_) | split | dsimp only))

@[simp] theorem actEnd_frame (μ : Nat) (hm : 16384 ||| μ = μ) (id : Nat) (s : State) : forget μ (actEnd id s) = forget μ s := widen (a := 16384) hm (by
  unfold actEnd
  simp)

@[simp] theorem execActEnd_frame (μ : Nat) (hm : 6317852 ||| μ = μ) (frame : Nat) (s : State) : forgetO μ s (execActEnd frame s) = forget μ s := widenO (a := 6317852) hm (by
  unfold execActEnd
  repeat' (first | with_reducible rfl | simp only [↓actEnd_frame, forgetO_next, Nat.reduceOr] | (refine Eq.trans (runEntry_frame _ (by first | decide | exact or_trans rfl hm) _ _ _ _ (fun _ _ _ => ?_)) ?_) | (refine Eq.trans (forget_foldS _ _ (fun _ _ => ?_) _ _) ?_) | (refine Eq.trans (congrArg (forget _) (congrArg Prod.snd ‹_ = (_, _)›).symm) ?_) | split | dsimp only))

@[simp] theorem actVlanPush_frame (μ : Nat) (hm : 2114048 ||| μ = μ) (id : Nat) (w : Nat) (s : State) : forget μ (actVlanPush id w s) = forget μ s := widen (a := 2114048) hm (by
  unfold actVlanPush
  simp)

@[simp] theorem execActDeliverInd_frame (μ : Nat) (hm : 6317852 ||| μ = μ) (frame : Nat) (s : State) : forgetO μ s (execActDeliverInd frame s) = forget μ s := widenO (a := 6317852) hm (by
  unfold execActDeliverInd
  repeat' (first | with_reducible rfl | simp only [↓actDeliver_frame, forgetO_next, Nat.reduceOr] | (refine Eq.trans (runEntry_frame _ (by first | decide | exact or_trans rfl hm) _ _ _ _ (fun _ _ _ => ?_)) ?_) | (refine Eq.trans (forget_foldS _ _ (fun _ _ => ?_) _ _) ?_) | (refine Eq.trans (congrArg (forget _) (congrArg Prod.snd ‹_ = (_, _)›).symm) ?_) | split | dsimp only))

@[simp] theorem ttlExpired_frame (μ : Nat) (hm : 6317852 ||| μ = μ) (id : Nat) (exc : Bool) (f : Frame) (s : State) : forget μ (ttlExpired id exc f s) = forget μ s := widen (a := 6317852) hm (by
  unfold ttlExpired
  simp)

@[simp] theorem actDecTtl_frame (μ : Nat) (hm : 6317852 ||| μ = μ) (id : Nat) (w : Nat) (f : Frame) (s : State) : forget μ (actDecTtl id w f s) = forget μ s := widen (a := 6317852) hm (by
  unfold actDecTtl
  (repeat' split) <;> simp)

@[simp] theorem actSetClass_frame (μ : Nat) (hm : 16384 ||| μ = μ) (id : Nat) (w : Nat) (s : State) : forget μ (actSetClass id w s) = forget μ s := widen (a := 16384) hm (by
  unfold actSetClass
  simp)

@[simp] theorem execActDeliverChannel_frame (μ : Nat) (hm : 6317852 ||| μ = μ) (frame : Nat) (s : State) : forgetO μ s (execActDeliverChannel frame s) = forget μ s := widenO (a := 6317852) hm (by
  unfold execActDeliverChannel
  repeat' (first | with_reducible rfl | simp only [↓actDeliver_frame, forgetO_next, Nat.reduceOr] | (refine Eq.trans (runEntry_frame _ (by first | decide | exact or_trans rfl hm) _ _ _ _ (fun _ _ _ => ?_)) ?_) | (refine Eq.trans (forget_foldS _ _ (fun _ _ => ?_) _ _) ?_) | (refine Eq.trans (congrArg (forget _) (congrArg Prod.snd ‹_ = (_, _)›).symm) ?_) | split | dsimp only))

@[simp] theorem actTsInsert_frame (μ : Nat) (hm : 16384 ||| μ = μ) (id : Nat) (w : Nat) (s : State) : forget μ (actTsInsert id w s) = forget μ s := widen (a := 16384) hm (by
  unfold actTsInsert
  simp)

@[simp] theorem actCount_frame (μ : Nat) (hm : 8192 ||| μ = μ) (w : Nat) (f : Frame) (s : State) : forget μ (actCount w f s) = forget μ s := widen (a := 8192) hm (by
  unfold actCount
  simp)

@[simp] theorem execActCount_frame (μ : Nat) (hm : 6317852 ||| μ = μ) (frame : Nat) (s : State) : forgetO μ s (execActCount frame s) = forget μ s := widenO (a := 6317852) hm (by
  unfold execActCount
  repeat' (first | with_reducible rfl | simp only [↓actCount_frame, forgetO_next, Nat.reduceOr] | (refine Eq.trans (runEntry_frame _ (by first | decide | exact or_trans rfl hm) _ _ _ _ (fun _ _ _ => ?_)) ?_) | (refine Eq.trans (forget_foldS _ _ (fun _ _ => ?_) _ _) ?_) | (refine Eq.trans (congrArg (forget _) (congrArg Prod.snd ‹_ = (_, _)›).symm) ?_) | split | dsimp only))

@[simp] theorem actRewrite_frame (μ : Nat) (hm : 16400 ||| μ = μ) (id : Nat) (w : Nat) (f : Frame) (s : State) : forget μ (actRewrite id w f s) = forget μ s := widen (a := 16400) hm (by
  unfold actRewrite
  (repeat' split) <;> simp)

@[simp] theorem execActRewrite_frame (μ : Nat) (hm : 6317852 ||| μ = μ) (frame : Nat) (s : State) : forgetO μ s (execActRewrite frame s) = forget μ s := widenO (a := 6317852) hm (by
  unfold execActRewrite
  repeat' (first | with_reducible rfl | simp only [↓actRewrite_frame, forgetO_next, Nat.reduceOr] | (refine Eq.trans (runEntry_frame _ (by first | decide | exact or_trans rfl hm) _ _ _ _ (fun _ _ _ => ?_)) ?_) | (refine Eq.trans (forget_foldS _ _ (fun _ _ => ?_) _ _) ?_) | (refine Eq.trans (congrArg (forget _) (congrArg Prod.snd ‹_ = (_, _)›).symm) ?_) | split | dsimp only))

@[simp] theorem execActDecTtl_frame (μ : Nat) (hm : 6317852 ||| μ = μ) (frame : Nat) (s : State) : forgetO μ s (execActDecTtl frame s) = forget μ s := widenO (a := 6317852) hm (by
  unfold execActDecTtl
  repeat' (first | with_reducible rfl | simp only [↓actDecTtl_frame, forgetO_next, Nat.reduceOr] | (refine Eq.trans (runEntry_frame _ (by first | decide | exact or_trans rfl hm) _ _ _ _ (fun _ _ _ => ?_)) ?_) | (refine Eq.trans (forget_foldS _ _ (fun _ _ => ?_) _ _) ?_) | (refine Eq.trans (congrArg (forget _) (congrArg Prod.snd ‹_ = (_, _)›).symm) ?_) | split | dsimp only))

@[simp] theorem execActTsInsert_frame (μ : Nat) (hm : 6317852 ||| μ = μ) (frame : Nat) (s : State) : forgetO μ s (execActTsInsert frame s) = forget μ s := widenO (a := 6317852) hm (by
  unfold execActTsInsert
  repeat' (first | with_reducible rfl | simp only [↓actTsInsert_frame, forgetO_next, Nat.reduceOr] | (refine Eq.trans (runEntry_frame _ (by first | decide | exact or_trans rfl hm) _ _ _ _ (fun _ _ _ => ?_)) ?_) | (refine Eq.trans (forget_foldS _ _ (fun _ _ => ?_) _ _) ?_) | (refine Eq.trans (congrArg (forget _) (congrArg Prod.snd ‹_ = (_, _)›).symm) ?_) | split | dsimp only))

@[simp] theorem actLearn_frame (μ : Nat) (hm : 2105872 ||| μ = μ) (w : Nat) (f : Frame) (s : State) : forget μ (actLearn w f s) = forget μ s := widen (a := 2105872) hm (by
  unfold actLearn
  simp)

@[simp] theorem execActLearn_frame (μ : Nat) (hm : 6317852 ||| μ = μ) (frame : Nat) (s : State) : forgetO μ s (execActLearn frame s) = forget μ s := widenO (a := 6317852) hm (by
  unfold execActLearn
  repeat' (first | with_reducible rfl | simp only [↓actLearn_frame, forgetO_next, Nat.reduceOr] | (refine Eq.trans (runEntry_frame _ (by first | decide | exact or_trans rfl hm) _ _ _ _ (fun _ _ _ => ?_)) ?_) | (refine Eq.trans (forget_foldS _ _ (fun _ _ => ?_) _ _) ?_) | (refine Eq.trans (congrArg (forget _) (congrArg Prod.snd ‹_ = (_, _)›).symm) ?_) | split | dsimp only))

@[simp] theorem execActMirror_frame (μ : Nat) (hm : 6317852 ||| μ = μ) (frame : Nat) (s : State) : forgetO μ s (execActMirror frame s) = forget μ s := widenO (a := 6317852) hm (by
  unfold execActMirror
  repeat' (first | with_reducible rfl | simp only [↓actMirror_frame, forgetO_next, Nat.reduceOr] | (refine Eq.trans (runEntry_frame _ (by first | decide | exact or_trans rfl hm) _ _ _ _ (fun _ _ _ => ?_)) ?_) | (refine Eq.trans (forget_foldS _ _ (fun _ _ => ?_) _ _) ?_) | (refine Eq.trans (congrArg (forget _) (congrArg Prod.snd ‹_ = (_, _)›).symm) ?_) | split | dsimp only))

@[simp] theorem execActDeliverAkzal_frame (μ : Nat) (hm : 6317852 ||| μ = μ) (frame : Nat) (s : State) : forgetO μ s (execActDeliverAkzal frame s) = forget μ s := widenO (a := 6317852) hm (by
  unfold execActDeliverAkzal
  repeat' (first | with_reducible rfl | simp only [↓actDeliver_frame, forgetO_next, Nat.reduceOr] | (refine Eq.trans (runEntry_frame _ (by first | decide | exact or_trans rfl hm) _ _ _ _ (fun _ _ _ => ?_)) ?_) | (refine Eq.trans (forget_foldS _ _ (fun _ _ => ?_) _ _) ?_) | (refine Eq.trans (congrArg (forget _) (congrArg Prod.snd ‹_ = (_, _)›).symm) ?_) | split | dsimp only))

@[simp] theorem execActDeliverPort_frame (μ : Nat) (hm : 6317852 ||| μ = μ) (frame : Nat) (s : State) : forgetO μ s (execActDeliverPort frame s) = forget μ s := widenO (a := 6317852) hm (by
  unfold execActDeliverPort
  repeat' (first | with_reducible rfl | simp only [↓actDeliver_frame, forgetO_next, Nat.reduceOr] | (refine Eq.trans (runEntry_frame _ (by first | decide | exact or_trans rfl hm) _ _ _ _ (fun _ _ _ => ?_)) ?_) | (refine Eq.trans (forget_foldS _ _ (fun _ _ => ?_) _ _) ?_) | (refine Eq.trans (congrArg (forget _) (congrArg Prod.snd ‹_ = (_, _)›).symm) ?_) | split | dsimp only))

@[simp] theorem execActDeliverQueue_frame (μ : Nat) (hm : 6317852 ||| μ = μ) (frame : Nat) (s : State) : forgetO μ s (execActDeliverQueue frame s) = forget μ s := widenO (a := 6317852) hm (by
  unfold execActDeliverQueue
  repeat' (first | with_reducible rfl | simp only [↓actDeliver_frame, forgetO_next, Nat.reduceOr] | (refine Eq.trans (runEntry_frame _ (by first | decide | exact or_trans rfl hm) _ _ _ _ (fun _ _ _ => ?_)) ?_) | (refine Eq.trans (forget_foldS _ _ (fun _ _ => ?_) _ _) ?_) | (refine Eq.trans (congrArg (forget _) (congrArg Prod.snd ‹_ = (_, _)›).symm) ?_) | split | dsimp only))

@[simp] theorem execActEncrypt_frame (μ : Nat) (hm : 6383388 ||| μ = μ) (frame : Nat) (s : State) : forgetO μ s (execActEncrypt frame s) = forget μ s := widenO (a := 6383388) hm (by
  unfold execActEncrypt
  repeat' (first | with_reducible rfl | simp only [↓actCipher_frame, forgetO_next, Nat.reduceOr] | (refine Eq.trans (awaitSlot_frame _ (by first | decide | exact or_trans rfl hm) _ _ _ _ (fun _ => ?_)) ?_) | (refine Eq.trans (runEntry_frame _ (by first | decide | exact or_trans rfl hm) _ _ _ _ (fun _ _ _ => ?_)) ?_) | (refine Eq.trans (forget_foldS _ _ (fun _ _ => ?_) _ _) ?_) | (refine Eq.trans (congrArg (forget _) (congrArg Prod.snd ‹_ = (_, _)›).symm) ?_) | split | dsimp only))

@[simp] theorem execActSetClass_frame (μ : Nat) (hm : 6317852 ||| μ = μ) (frame : Nat) (s : State) : forgetO μ s (execActSetClass frame s) = forget μ s := widenO (a := 6317852) hm (by
  unfold execActSetClass
  repeat' (first | with_reducible rfl | simp only [↓actSetClass_frame, forgetO_next, Nat.reduceOr] | (refine Eq.trans (runEntry_frame _ (by first | decide | exact or_trans rfl hm) _ _ _ _ (fun _ _ _ => ?_)) ?_) | (refine Eq.trans (forget_foldS _ _ (fun _ _ => ?_) _ _) ?_) | (refine Eq.trans (congrArg (forget _) (congrArg Prod.snd ‹_ = (_, _)›).symm) ?_) | split | dsimp only))

@[simp] theorem execActVlanPop_frame (μ : Nat) (hm : 6317852 ||| μ = μ) (frame : Nat) (s : State) : forgetO μ s (execActVlanPop frame s) = forget μ s := widenO (a := 6317852) hm (by
  unfold execActVlanPop
  repeat' (first | with_reducible rfl | simp only [↓actVlanPop_frame, forgetO_next, Nat.reduceOr] | (refine Eq.trans (runEntry_frame _ (by first | decide | exact or_trans rfl hm) _ _ _ _ (fun _ _ _ => ?_)) ?_) | (refine Eq.trans (forget_foldS _ _ (fun _ _ => ?_) _ _) ?_) | (refine Eq.trans (congrArg (forget _) (congrArg Prod.snd ‹_ = (_, _)›).symm) ?_) | split | dsimp only))

@[simp] theorem execActVlanPush_frame (μ : Nat) (hm : 6317852 ||| μ = μ) (frame : Nat) (s : State) : forgetO μ s (execActVlanPush frame s) = forget μ s := widenO (a := 6317852) hm (by
  unfold execActVlanPush
  repeat' (first | with_reducible rfl | simp only [↓actVlanPush_frame, forgetO_next, Nat.reduceOr] | (refine Eq.trans (runEntry_frame _ (by first | decide | exact or_trans rfl hm) _ _ _ _ (fun _ _ _ => ?_)) ?_) | (refine Eq.trans (forget_foldS _ _ (fun _ _ => ?_) _ _) ?_) | (refine Eq.trans (congrArg (forget _) (congrArg Prod.snd ‹_ = (_, _)›).symm) ?_) | split | dsimp only))

@[simp] theorem execActChain_frame (μ : Nat) (hm : 6317852 ||| μ = μ) (frame : Nat) (s : State) : forgetO μ s (execActChain frame s) = forget μ s := widenO (a := 6317852) hm (by
  unfold execActChain
  repeat' (first | with_reducible rfl | simp only [↓actChain_frame, forgetO_next, Nat.reduceOr] | (refine Eq.trans (runEntry_frame _ (by first | decide | exact or_trans rfl hm) _ _ _ _ (fun _ _ _ => ?_)) ?_) | (refine Eq.trans (forget_foldS _ _ (fun _ _ => ?_) _ _) ?_) | (refine Eq.trans (congrArg (forget _) (congrArg Prod.snd ‹_ = (_, _)›).symm) ?_) | split | dsimp only))

@[simp] theorem execActDrop_frame (μ : Nat) (hm : 6317852 ||| μ = μ) (frame : Nat) (s : State) : forgetO μ s (execActDrop frame s) = forget μ s := widenO (a := 6317852) hm (by
  unfold execActDrop
  repeat' (first | with_reducible rfl | simp only [↓endList_frame, forgetO_next, Nat.reduceOr] | (refine Eq.trans (runEntry_frame _ (by first | decide | exact or_trans rfl hm) _ _ _ _ (fun _ _ _ => ?_)) ?_) | (refine Eq.trans (forget_foldS _ _ (fun _ _ => ?_) _ _) ?_) | (refine Eq.trans (congrArg (forget _) (congrArg Prod.snd ‹_ = (_, _)›).symm) ?_) | split | dsimp only))

@[simp] theorem execActNop_frame (μ : Nat) (hm : 6317852 ||| μ = μ) (frame : Nat) (s : State) : forgetO μ s (execActNop frame s) = forget μ s := widenO (a := 6317852) hm (by
  unfold execActNop
  repeat' (first | with_reducible rfl | simp only [forgetO_next, Nat.reduceOr] | (refine Eq.trans (runEntry_frame _ (by first | decide | exact or_trans rfl hm) _ _ _ _ (fun _ _ _ => ?_)) ?_) | (refine Eq.trans (forget_foldS _ _ (fun _ _ => ?_) _ _) ?_) | (refine Eq.trans (congrArg (forget _) (congrArg Prod.snd ‹_ = (_, _)›).symm) ?_) | split | dsimp only))

@[simp] theorem actEntry_frame (μ : Nat) (hm : 6383388 ||| μ = μ) (id : Nat) (w : Nat) (f : Frame) (s : State) : forget μ (actEntry id w f s) = forget μ s := widen (a := 6383388) hm (by
  unfold actEntry
  (repeat' split) <;> simp)

@[simp] theorem execActionList_frame (μ : Nat) (hm : 6383388 ||| μ = μ) (frame : Nat) (s : State) : forgetO μ s (execActionList frame s) = forget μ s := widenO (a := 6383388) hm (by
  unfold execActionList
  repeat' (first | with_reducible rfl | simp only [↓letStand_frame, ↓endOfEntries_frame, ↓actEntry_frame, forgetO_next, forgetO_ite, Nat.reduceOr] | (refine Eq.trans (awaitSlot_frame _ (by first | decide | exact or_trans rfl hm) _ _ _ _ (fun _ => ?_)) ?_) | (refine Eq.trans (runEntry_frame _ (by first | decide | exact or_trans rfl hm) _ _ _ _ (fun _ _ _ => ?_)) ?_) | (refine Eq.trans (forget_foldS _ _ (fun _ _ => ?_) _ _) ?_) | (refine Eq.trans (congrArg (forget _) (congrArg Prod.snd ‹_ = (_, _)›).symm) ?_) | split | dsimp only))

end Sys2Proof.Machine
end

