-- ==== Sys2Proof/Laws/FrameSched.lean ====
section
/-!
SUPPORT. Frames of the operations of Machine/Sched.lean: the parts of the state that each can change.
-/
namespace Sys2Proof.Machine
set_option linter.all false

@[simp] theorem nodeResult_frame (μ : Nat) (hm : 16 ||| μ = μ) (p : Path) (r : Nat) (s : State) : forget μ (nodeResult p r s) = forget μ s := widen (a := 16) hm (by
  unfold nodeResult
  simp)

@[simp] theorem plainWrite_frame (μ : Nat) (hm : 16 ||| μ = μ) (p : Path) (r : Reg) (k : Nat) (v : Word) (s : State) : forget μ (plainWrite p r k v s) = forget μ s := widen (a := 16) hm (by
  unfold plainWrite
  simp)

@[simp] theorem shaperWrite_frame (μ : Nat) (hm : 16400 ||| μ = μ) (p : Path) (r : Reg) (k : Nat) (v : Word) (s : State) : forget μ (shaperWrite p r k v s) = forget μ s := widen (a := 16400) hm (by
  unfold shaperWrite
  simp)

@[simp] theorem fillNode_frame (μ : Nat) (hm : 16384 ||| μ = μ) (k : Nat) (s : State) : forget μ (fillNode k s) = forget μ s := widen (a := 16384) hm (by
  unfold fillNode
  simp)

@[simp] theorem cfgWrite_frame (μ : Nat) (hm : 16400 ||| μ = μ) (p : Path) (k : Nat) (v : Word) (s : State) : forget μ (cfgWrite p k v s) = forget μ s := widen (a := 16400) hm (by
  unfold cfgWrite
  simp)

@[simp] theorem nodeWrite_frame (μ : Nat) (hm : 16400 ||| μ = μ) (p : Path) (off : Nat) (v : Word) (s : State) : forget μ (nodeWrite p off v s) = forget μ s := widen (a := 16400) hm (by
  unfold nodeWrite
  (repeat' split) <;> simp)

@[simp] theorem activateList_frame (μ : Nat) (hm : 2098688 ||| μ = μ) (lp : Nat) (s : State) : forget μ (activateList lp s) = forget μ s := widen (a := 2098688) hm (by
  unfold activateList
  (repeat' split) <;> simp)

@[simp] theorem gateCommit_frame (μ : Nat) (hm : 2098688 ||| μ = μ) (p : Path) (lp : Nat) (s : State) : forget μ (gateCommit p lp s) = forget μ s := widen (a := 2098688) hm (by
  unfold gateCommit
  (repeat' split) <;> simp)

@[simp] theorem akzArrive_frame (μ : Nat) (hm : 2123548 ||| μ = μ) (port : Nat) (h : Bytes) (body : Bytes) (s : State) : forget μ (akzArrive port h body s) = forget μ s := widen (a := 2123548) hm (by
  unfold akzArrive
  repeat' (first | with_reducible rfl | simp only [↓enterAkz_frame, ↓freeBytes_frame, ↓newFrame_frame, ↓akzLocal_frame, forget_ite, Nat.reduceOr] | (refine Eq.trans (forget_foldS _ _ (fun _ _ => ?_) _ _) ?_) | (refine Eq.trans (congrArg (forget _) (congrArg Prod.snd ‹_ = (_, _)›).symm) ?_) | (refine Eq.trans (takeCells_frame _ (by first | decide | exact or_trans rfl hm) _ _ _ _ _ ‹_›) ?_) | simp only [Option.getD] | split | dsimp only))

@[simp] theorem releaseAkz_frame (μ : Nat) (hm : 6317852 ||| μ = μ) (s : State) : forget μ (releaseAkz s) = forget μ s := widen (a := 6317852) hm (by
  unfold releaseAkz
  repeat' (first | with_reducible rfl | simp only [↓akzArrive_frame, ↓modAkz_frame, Nat.reduceOr] | (refine Eq.trans (forget_foldS _ _ (fun _ _ => ?_) _ _) ?_) | (refine Eq.trans (congrArg (forget _) (congrArg Prod.snd ‹_ = (_, _)›).symm) ?_) | split | dsimp only))

@[simp] theorem chargePath_frame (μ : Nat) (hm : 16384 ||| μ = μ) (q : Nat) (len : Nat) (s : State) : forget μ (chargePath q len s) = forget μ s := widen (a := 16384) hm (by
  unfold chargePath
  repeat' (first | with_reducible rfl | simp only [↓modNode_frame, forget_ite, ite_self, Nat.reduceOr] | (refine Eq.trans (forget_foldS _ _ (fun _ _ => ?_) _ _) ?_) | (refine Eq.trans (congrArg (forget _) (congrArg Prod.snd ‹_ = (_, _)›).symm) ?_) | split | dsimp only))

@[simp] theorem drr_frame (μ : Nat) (hm : 16384 ||| μ = μ) (parent : Nat) (kids : List Nat) (len : Nat → Nat) (x51 : Nat) (x63 : State) : forget μ (drr parent kids len x51 x63).2 = forget μ x63 := widen (a := 16384) hm (by
  fun_induction drr parent kids len x51 x63
  all_goals repeat' (first | with_reducible rfl | simp only [↓modNode_frame, Nat.reduceOr, *] | (refine Eq.trans (forget_foldS _ _ (fun _ _ => ?_) _ _) ?_) | (refine Eq.trans (congrArg (forget _) (congrArg Prod.snd ‹_ = (_, _)›).symm) ?_) | split | dsimp only))

@[simp] theorem pickQueue_frame (μ : Nat) (hm : 16384 ||| μ = μ) (s : State) (lp : Nat) (c : Nat) (g : Nat) : forget μ (pickQueue s lp c g).2 = forget μ s := widen (a := 16384) hm (by
  unfold pickQueue
  simp)

@[simp] theorem pickGroup_frame (μ : Nat) (hm : 16384 ||| μ = μ) (s : State) (lp : Nat) (c : Nat) : forget μ (pickGroup s lp c).2 = forget μ s := widen (a := 16384) hm (by
  unfold pickGroup
  repeat' (first | with_reducible rfl | simp only [↓drr_frame, ↓pickQueue_frame, Nat.reduceOr] | split))

@[simp] theorem execGateListActive_frame (μ : Nat) (hm : 2131458 ||| μ = μ) (lp : Nat) (s : State) : forgetO μ s (execGateListActive lp s) = forget μ s := widenO (a := 2131458) hm (by
  unfold execGateListActive
  (repeat' split) <;> simp)

@[simp] theorem poisonedCopy_frame (μ : Nat) (hm : 2115100 ||| μ = μ) (q : Nat) (x : Copy) (s : State) : forget μ (poisonedCopy q x s) = forget μ s := widen (a := 2115100) hm (by
  unfold poisonedCopy
  simp)

@[simp] theorem startCopy_frame (μ : Nat) (hm : 2115100 ||| μ = μ) (lp : Nat) (q : Nat) (s : State) : forget μ (startCopy lp q s) = forget μ s := widen (a := 2115100) hm (by
  unfold startCopy
  (repeat' split) <;> simp)

@[simp] theorem execAkzDataRx_frame (μ : Nat) (hm : 6317852 ||| μ = μ) (port : Nat) (header : Bytes) (body : Bytes) (s : State) : forgetO μ s (execAkzDataRx port header body s) = forget μ s := widenO (a := 6317852) hm (by
  unfold execAkzDataRx
  simp)

@[simp] theorem enterCells_frame (μ : Nat) (hm : 2114048 ||| μ = μ) (id : Nat) (s : State) : forget μ (enterCells id s) = forget μ s := widen (a := 2114048) hm (by
  unfold enterCells
  repeat' (first | with_reducible rfl | simp only [↓modFrame_frame, Nat.reduceOr] | (refine Eq.trans (forget_foldS _ _ (fun _ _ => ?_) _ _) ?_) | (refine Eq.trans (congrArg (forget _) (congrArg Prod.snd ‹_ = (_, _)›).symm) ?_) | (refine Eq.trans (takeCells_frame _ (by first | decide | exact or_trans rfl hm) _ _ _ _ _ ‹_›) ?_) | simp only [Option.getD] | split | dsimp only))

@[simp] theorem txFrame_frame (μ : Nat) (hm : 2114048 ||| μ = μ) (f : Fn) (q : Nat) (s : State) : forget μ (txFrame f q s) = forget μ s := widen (a := 2114048) hm (by
  unfold txFrame
  (repeat' split) <;> simp)

@[simp] theorem execFrameTransmitted_frame (μ : Nat) (hm : 2147854 ||| μ = μ) (lp : Nat) (s : State) : forgetO μ s (execFrameTransmitted lp s) = forget μ s := widenO (a := 2147854) hm (by
  unfold execFrameTransmitted
  (repeat' split) <;> simp)

@[simp] theorem pickClass_frame (μ : Nat) (hm : 16384 ||| μ = μ) (s : State) (lp : Nat) : forget μ (pickClass s lp).2 = forget μ s := widen (a := 16384) hm (by
  unfold pickClass
  repeat' (first | with_reducible rfl | simp only [↓pickGroup_frame, ↓drr_frame, Nat.reduceOr] | split))

@[simp] theorem execScheduleDecision_frame (μ : Nat) (hm : 2147870 ||| μ = μ) (lp : Nat) (s : State) : forgetO μ s (execScheduleDecision lp s) = forget μ s := widenO (a := 2147870) hm (by
  unfold execScheduleDecision
  repeat' (first | with_reducible rfl | simp only [↓advanceTo_frame, ↓creditPath_frame, ↓judgePort_frame, ↓pickClass_frame, ↓startCopy_frame, forgetO_next, forgetO_ite, Nat.reduceOr] | (refine Eq.trans (forget_foldS _ _ (fun _ _ => ?_) _ _) ?_) | (refine Eq.trans (congrArg (forget _) (congrArg Prod.snd ‹_ = (_, _)›).symm) ?_) | split | dsimp only))

@[simp] theorem execSqFetchResume_frame (μ : Nat) (hm : 16896 ||| μ = μ) (queue : Nat) (s : State) : forgetO μ s (execSqFetchResume queue s) = forget μ s := widenO (a := 16896) hm (by
  unfold execSqFetchResume
  simp)

@[simp] theorem execTxFrame_frame (μ : Nat) (hm : 2114048 ||| μ = μ) (f : Fn) (q : Nat) (s : State) : forgetO μ s (execTxFrame f q s) = forget μ s := widenO (a := 2114048) hm (by
  unfold execTxFrame
  simp)

@[simp] theorem execCopyFinished_frame (μ : Nat) (hm : 2115084 ||| μ = μ) (frame : Nat) (s : State) : forgetO μ s (execCopyFinished frame s) = forget μ s := widenO (a := 2115084) hm (by
  unfold execCopyFinished
  simp)

@[simp] theorem execShaperCredit_frame (μ : Nat) (hm : 49154 ||| μ = μ) (node : Nat) (s : State) : forgetO μ s (execShaperCredit node s) = forget μ s := widenO (a := 49154) hm (by
  unfold execShaperCredit
  simp)

@[simp] theorem execGateEntryChange_frame (μ : Nat) (hm : 32770 ||| μ = μ) (lp : Nat) (s : State) : forgetO μ s (execGateEntryChange lp s) = forget μ s := widenO (a := 32770) hm (by
  unfold execGateEntryChange
  (repeat' split) <;> simp)

@[simp] theorem execLaunchTimeReached_frame (μ : Nat) (hm : 32770 ||| μ = μ) (queue : Nat) (s : State) : forgetO μ s (execLaunchTimeReached queue s) = forget μ s := widenO (a := 32770) hm (by
  unfold execLaunchTimeReached
  (repeat' split) <;> simp)

@[simp] theorem execHostTxResume_frame (μ : Nat) (hm : 2114048 ||| μ = μ) (frame : Nat) (s : State) : forgetO μ s (execHostTxResume frame s) = forget μ s := widenO (a := 2114048) hm (by
  unfold execHostTxResume
  (repeat' split) <;> simp)

end Sys2Proof.Machine
end

