-- ==== Sys2Proof/Laws/FrameRegWrites.lean ====
section
/-!
SUPPORT. Frames of the operations of Machine/RegWrites.lean: the parts of the state that each can change.
-/
namespace Sys2Proof.Machine
set_option linter.all false

@[simp] theorem plainReg_frame (μ : Nat) (hm : 16 ||| μ = μ) (p : Path) (r : Reg) (i : Nat) (v : Word) (s : State) : forget μ (plainReg p r i v s) = forget μ s := widen (a := 16) hm (by
  unfold plainReg
  (repeat' split) <;> simp)

@[simp] theorem akzCfgWrite_frame (μ : Nat) (hm : 6571548 ||| μ = μ) (p : Path) (v : Word) (s : State) : forget μ (akzCfgWrite p v s) = forget μ s := widen (a := 6571548) hm (by
  unfold akzCfgWrite
  repeat' (first | with_reducible rfl | simp only [↓plainReg_frame, ↓akzPortDown_frame, ↓akzBegin_frame, forget_ite, ite_self, Nat.reduceOr] | (refine Eq.trans (forget_foldS _ _ (fun _ _ => ?_) _ _) ?_) | (refine Eq.trans (congrArg (forget _) (congrArg Prod.snd ‹_ = (_, _)›).symm) ?_) | split | dsimp only))

@[simp] theorem ppsCfgWrite_frame (μ : Nat) (hm : 32788 ||| μ = μ) (p : Path) (pin : Nat) (v : Word) (s : State) : forget μ (ppsCfgWrite p pin v s) = forget μ s := widen (a := 32788) hm (by
  unfold ppsCfgWrite
  simp)

@[simp] theorem timWrite_frame (μ : Nat) (hm : 2130484 ||| μ = μ) (p : Path) (r : Reg) (i : Nat) (v : Word) (s : State) : forget μ (timWrite p r i v s) = forget μ s := widen (a := 2130484) hm (by
  unfold timWrite
  (repeat' split) <;> simp)

@[simp] theorem svcWrite_frame (μ : Nat) (hm : 2115132 ||| μ = μ) (p : Path) (t : Nat) (r : Reg) (i : Nat) (v : Word) (s : State) : forget μ (svcWrite p t r i v s) = forget μ s := widen (a := 2115132) hm (by
  unfold svcWrite
  (repeat' split) <;> simp)

@[simp] theorem winWrite_frame (μ : Nat) (hm : 16 ||| μ = μ) (p : Path) (r : Reg) (v : Word) (s : State) : forget μ (winWrite p r v s) = forget μ s := widen (a := 16) hm (by
  unfold winWrite
  (repeat' split) <;> simp)

@[simp] theorem mvAction_frame (μ : Nat) (hm : 37224976 ||| μ = μ) (p : Path) (ch : Nat) (a : Nat) (s : State) : forget μ (mvAction p ch a s) = forget μ s := widen (a := 37224976) hm (by
  unfold mvAction
  (repeat' split) <;> simp)

@[simp] theorem mvCfgWrite_frame (μ : Nat) (hm : 16 ||| μ = μ) (p : Path) (v : Word) (s : State) : forget μ (mvCfgWrite p v s) = forget μ s := widen (a := 16) hm (by
  unfold mvCfgWrite
  (repeat' split) <;> simp)

@[simp] theorem dmvWrite_frame (μ : Nat) (hm : 37224976 ||| μ = μ) (p : Path) (r : Reg) (i : Nat) (v : Word) (s : State) : forget μ (dmvWrite p r i v s) = forget μ s := widen (a := 37224976) hm (by
  unfold dmvWrite
  (repeat' split) <;> simp)

@[simp] theorem stoWrite_frame (μ : Nat) (hm : 36176660 ||| μ = μ) (p : Path) (r : Reg) (i : Nat) (v : Word) (s : State) : forget μ (stoWrite p r i v s) = forget μ s := widen (a := 36176660) hm (by
  unfold stoWrite
  (repeat' split) <;> simp)

@[simp] theorem tmWrite_frame (μ : Nat) (hm : 16400 ||| μ = μ) (p : Path) (r : Reg) (i : Nat) (v : Word) (s : State) : forget μ (tmWrite p r i v s) = forget μ s := widen (a := 16400) hm (by
  unfold tmWrite
  (repeat' split) <;> simp)

@[simp] theorem parseWrite_frame (μ : Nat) (hm : 2260668 ||| μ = μ) (p : Path) (r : Reg) (i : Nat) (v : Word) (s : State) : forget μ (parseWrite p r i v s) = forget μ s := widen (a := 2260668) hm (by
  unfold parseWrite
  (repeat' split) <;> simp)

@[simp] theorem macWrite_frame (μ : Nat) (hm : 2115100 ||| μ = μ) (p : Path) (r : Reg) (i : Nat) (v : Word) (s : State) : forget μ (macWrite p r i v s) = forget μ s := widen (a := 2115100) hm (by
  unfold macWrite
  (repeat' split) <;> simp)

@[simp] theorem qmWrite_frame (μ : Nat) (hm : 2106132 ||| μ = μ) (p : Path) (r : Reg) (i : Nat) (v : Word) (s : State) : forget μ (qmWrite p r i v s) = forget μ s := widen (a := 2106132) hm (by
  unfold qmWrite
  (repeat' split) <;> simp)

@[simp] theorem vfCtrl_frame (μ : Nat) (hm : 37320476 ||| μ = μ) (pf : Nat) (a : Nat) (s : State) : forget μ (vfCtrl pf a s) = forget μ s := widen (a := 37320476) hm (by
  unfold vfCtrl
  (repeat' split) <;> simp)

@[simp] theorem hifWrite_frame (μ : Nat) (hm : 37320476 ||| μ = μ) (p : Path) (r : Reg) (i : Nat) (v : Word) (s : State) : forget μ (hifWrite p r i v s) = forget μ s := widen (a := 37320476) hm (by
  unfold hifWrite
  (repeat' split) <;> simp)

@[simp] theorem caiWrite_frame (μ : Nat) (hm : 16777148 ||| μ = μ) (p : Path) (r : Reg) (i : Nat) (v : Word) (s : State) : forget μ (caiWrite p r i v s) = forget μ s := widen (a := 16777148) hm (by
  unfold caiWrite
  (repeat' split) <;> simp)

@[simp] theorem vfWrite_frame (μ : Nat) (hm : 37224976 ||| μ = μ) (p : Path) (r : Reg) (i : Nat) (v : Word) (s : State) : forget μ (vfWrite p r i v s) = forget μ s := widen (a := 37224976) hm (by
  unfold vfWrite
  (repeat' split) <;> simp)

@[simp] theorem regStore_frame (μ : Nat) (hm : 50331580 ||| μ = μ) (p : Path) (t : Nat) (r : Reg) (i : Nat) (v : Word) (s : State) : forget μ (regStore p t r i v s) = forget μ s := widen (a := 50331580) hm (by
  unfold regStore
  (repeat' split) <;> simp)

end Sys2Proof.Machine
end

