-- ==== Sys2Proof/Laws/FrameAccessBlock.lean ====
section
/-!
SUPPORT. Frames of the operations of Machine/AccessBlock.lean: the parts of the state that each can change.
-/
namespace Sys2Proof.Machine
set_option linter.all false

@[simp] theorem writeWindow_frame (μ : Nat) (hm : 50331580 ||| μ = μ) (p : Path) (t : Nat) (off : Nat) (v : Word) (s : State) : forget μ (writeWindow p t off v s) = forget μ s := widen (a := 50331580) hm (by
  unfold writeWindow
  (repeat' split) <;> simp)

@[simp] theorem doorbellWord32_frame (μ : Nat) (hm : 2097972 ||| μ = μ) (f : Fn) (q : Nat) (high : Bool) (off : Nat) (v : Word) (s : State) : forget μ (doorbellWord32 f q high off v s) = forget μ s := widen (a := 2097972) hm (by
  unfold doorbellWord32
  simp)

@[simp] theorem ccWrite_frame (μ : Nat) (hm : 524548 ||| μ = μ) (f : Fn) (v : Nat) (s : State) : forget μ (ccWrite f v s) = forget μ s := widen (a := 524548) hm (by
  unfold ccWrite
  simp)

@[simp] theorem nvWrite_frame (μ : Nat) (hm : 34078980 ||| μ = μ) (f : Fn) (off : Nat) (v : Word) (s : State) : forget μ (nvWrite f off v s) = forget μ s := widen (a := 34078980) hm (by
  unfold nvWrite
  (repeat' split) <;> simp)

@[simp] theorem msixWordWrite_frame (μ : Nat) (hm : 260 ||| μ = μ) (f : Fn) (o : Nat) (v : Word) (s : State) : forget μ (msixWordWrite f o v s) = forget μ s := widen (a := 260) hm (by
  unfold msixWordWrite
  simp)

@[simp] theorem writeFn_frame (μ : Nat) (hm : 50331580 ||| μ = μ) (f : Fn) (off : Nat) (v : Word) (s : State) : forget μ (writeFn f off v s) = forget μ s := widen (a := 50331580) hm (by
  unfold writeFn
  (repeat' split) <;> simp)

@[simp] theorem writeBlockWide_frame (μ : Nat) (hm : 50331580 ||| μ = μ) (p : Path) (off : Nat) (v : BitVec 64) (s : State) : forget μ (writeBlockWide p off v s) = forget μ s := widen (a := 50331580) hm (by
  unfold writeBlockWide
  (repeat' split) <;> simp)

@[simp] theorem writeBlock_frame (μ : Nat) (hm : 50331580 ||| μ = μ) (p : Path) (t : Nat) (off : Nat) (v : Word) (s : State) : forget μ (writeBlock p t off v s) = forget μ s := widen (a := 50331580) hm (by
  unfold writeBlock
  (repeat' split) <;> simp)

@[simp] theorem takeReg_frame (μ : Nat) (hm : 2114064 ||| μ = μ) (p : Path) (r : Reg) (i : Nat) (s : State) : forget μ (takeReg p r i s).2 = forget μ s := widen (a := 2114064) hm (by
  unfold takeReg
  repeat' (first | with_reducible rfl | simp only [↓mbxPop_frame, ↓setReg_frame, Nat.reduceOr] | split))

@[simp] theorem readReg_frame (μ : Nat) (hm : 2114128 ||| μ = μ) (p : Path) (off : Nat) (s : State) : forget μ (readReg p off s).2 = forget μ s := widen (a := 2114128) hm (by
  unfold readReg
  (repeat' split) <;> simp)

@[simp] theorem occTake_frame (μ : Nat) (hm : 32 ||| μ = μ) (lo : Nat) (hi : Nat) (s : State) : forget μ (occTake lo hi s).2 = forget μ s := widen (a := 32) hm (by
  unfold occTake
  simp)

@[simp] theorem cfgOcc_frame (μ : Nat) (hm : 32 ||| μ = μ) (f : Fn) (k : Nat) (s : State) : forget μ (cfgOcc f k s).2 = forget μ s := widen (a := 32) hm (by
  unfold cfgOcc
  repeat' (first | with_reducible rfl | simp only [↓occTake_frame, Nat.reduceOr] | split))

@[simp] theorem occPart_frame (μ : Nat) (hm : 32 ||| μ = μ) (p : Path) (blk : Nat) (off : Nat) (bit : Nat) (s : State) : forget μ (occPart p blk off bit s).2 = forget μ s := widen (a := 32) hm (by
  unfold occPart
  (repeat' split) <;> simp)

@[simp] theorem occRegion_frame (μ : Nat) (hm : 32 ||| μ = μ) (p : Path) (rel : Nat) (s : State) : forget μ (occRegion p rel s).2 = forget μ s := widen (a := 32) hm (by
  unfold occRegion
  simp)

@[simp] theorem readWindow_frame (μ : Nat) (hm : 2114160 ||| μ = μ) (p : Path) (off : Nat) (s : State) : forget μ (readWindow p off s).2 = forget μ s := widen (a := 2114160) hm (by
  unfold readWindow
  repeat' (first | with_reducible rfl | simp only [↓clearWakes_frame, ↓occRegion_frame, ↓cfgOcc_frame, ↓readReg_frame, Nat.reduceOr] | split))

@[simp] theorem readVf_frame (μ : Nat) (hm : 2114160 ||| μ = μ) (f : Fn) (off : Nat) (s : State) : forget μ (readVf f off s).2 = forget μ s := widen (a := 2114160) hm (by
  unfold readVf
  (repeat' split) <;> simp)

@[simp] theorem nvPropertyRead_frame (μ : Nat) (hm : 64 ||| μ = μ) (f : Fn) (off : Nat) (s : State) : forget μ (nvPropertyRead f off s).2 = forget μ s := widen (a := 64) hm (by
  unfold nvPropertyRead
  (repeat' split) <;> simp)

@[simp] theorem readFn_frame (μ : Nat) (hm : 2114160 ||| μ = μ) (f : Fn) (off : Nat) (s : State) : forget μ (readFn f off s).2 = forget μ s := widen (a := 2114160) hm (by
  unfold readFn
  (repeat' split) <;> simp)

@[simp] theorem readBlock_frame (μ : Nat) (hm : 2114160 ||| μ = μ) (p : Path) (off : Nat) (s : State) : forget μ (readBlock p off s).2 = forget μ s := widen (a := 2114160) hm (by
  unfold readBlock
  (repeat' split) <;> simp)

@[simp] theorem completeRead_frame (μ : Nat) (hm : 35668720 ||| μ = μ) (p : Path) (off : Nat) (s : State) : forget μ (completeRead p off s).2 = forget μ s := widen (a := 35668720) hm (by
  unfold completeRead
  (repeat' split) <;> simp)

@[simp] theorem completeAccess_frame (μ : Nat) (hm : 50331644 ||| μ = μ) (h : HeldAccess) (s : State) : forget μ (completeAccess h s) = forget μ s := widen (a := 50331644) hm (by
  unfold completeAccess
  (repeat' split) <;> simp)

@[simp] theorem holdAccess_frame (μ : Nat) (hm : 33554560 ||| μ = μ) (h : HeldAccess) (s : State) : forget μ (holdAccess h s) = forget μ s := widen (a := 33554560) hm (by
  unfold holdAccess
  simp)

@[simp] theorem releaseOne_frame (μ : Nat) (hm : 50331644 ||| μ = μ) (h : HeldAccess) (s : State) : forget μ (releaseOne h s) = forget μ s := widen (a := 50331644) hm (by
  unfold releaseOne
  (repeat' split) <;> simp)

@[simp] theorem releaseHolds_frame (μ : Nat) (hm : 50331644 ||| μ = μ) (s : State) : forget μ (releaseHolds s) = forget μ s := widen (a := 50331644) hm (by
  unfold releaseHolds
  repeat' (first | with_reducible rfl | simp only [↓releaseOne_frame, ↓modCai_frame, Nat.reduceOr] | (refine Eq.trans (forget_foldS _ _ (fun _ _ => ?_) _ _) ?_) | (refine Eq.trans (congrArg (forget _) (congrArg Prod.snd ‹_ = (_, _)›).symm) ?_) | split | dsimp only))

@[simp] theorem execDomainStartDone_frame (μ : Nat) (hm : 50331644 ||| μ = μ) (u : DUnit) (passed : Bool) (s : State) : forgetO μ s (execDomainStartDone u passed s) = forget μ s := widenO (a := 50331644) hm (by
  unfold execDomainStartDone
  simp)

@[simp] theorem execDomainGated_frame (μ : Nat) (hm : 128 ||| μ = μ) (u : DUnit) (s : State) : forgetO μ s (execDomainGated u s) = forget μ s := widenO (a := 128) hm (by
  unfold execDomainGated
  simp)

@[simp] theorem execDomainStop_frame (μ : Nat) (hm : 32898 ||| μ = μ) (u : DUnit) (s : State) : forgetO μ s (execDomainStop u s) = forget μ s := widenO (a := 32898) hm (by
  unfold execDomainStop
  simp)

end Sys2Proof.Machine
end

