-- ==== Sys2Proof/Laws/FrameLcs.lean ====
section
/-!
SUPPORT. Frames of the operations of Machine/Lcs.lean: the parts of the state that each can change.
-/
namespace Sys2Proof.Machine
set_option linter.all false

@[simp] theorem switchEnds_frame (μ : Nat) (hm : 50331644 ||| μ = μ) (w : Switch) (reverted : Bool) (s : State) : forget μ (switchEnds w reverted s) = forget μ s := widen (a := 50331644) hm (by
  unfold switchEnds
  repeat' (first | with_reducible rfl | simp only [↓releaseHolds_frame, ↓releaseAkz_frame, ↓endPause_frame, ↓sendTo_frame, ↓chainDone_frame, forget_ite, ite_self, Nat.reduceOr] | (refine Eq.trans (forget_foldS _ _ (fun _ _ => ?_) _ _) ?_) | (refine Eq.trans (congrArg (forget _) (congrArg Prod.snd ‹_ = (_, _)›).symm) ?_) | (refine Eq.trans (modLcs_frame _ (by decide) _ _ (fun _ => ?_)) ?_) | (show fuses _ = fuses _; first | rfl | (split <;> rfl)) | simp only [Option.getD] | split | dsimp only))

@[simp] theorem loadPrsOf_frame (μ : Nat) (hm : 4096 ||| μ = μ) (bs : Bytes) (s : State) : forget μ (loadPrsOf bs s) = forget μ s := widen (a := 4096) hm (by
  unfold loadPrsOf
  simp)

@[simp] theorem switched_frame (μ : Nat) (hm : 50331644 ||| μ = μ) (p : Path) (s : State) : forget μ (switched p s) = forget μ s := widen (a := 50331644) hm (by
  unfold switched
  repeat' (first | with_reducible rfl | simp only [↓loadPrsOf_frame, ↓migrateSettings_frame, ↓switchEnds_frame, ↓lcsEvent_frame, forget_ite, Nat.reduceOr] | (refine Eq.trans (forget_foldS _ _ (fun _ _ => ?_) _ _) ?_) | (refine Eq.trans (congrArg (forget _) (congrArg Prod.snd ‹_ = (_, _)›).symm) ?_) | (refine Eq.trans (modLcs_frame _ (by decide) _ _ (fun _ => ?_)) ?_) | (show fuses _ = fuses _; first | rfl | (split <;> rfl)) | simp only [Option.getD] | split | dsimp only))

@[simp] theorem answerAction_frame (μ : Nat) (hm : 2359808 ||| μ = μ) (who : Option Fn) (op : Nat) (status : Nat) (s : State) : forget μ (answerAction who op status s) = forget μ s := widen (a := 2359808) hm (by
  unfold answerAction
  repeat' (first | with_reducible rfl | simp only [↓mbxReply_frame, Nat.reduceOr] | (refine Eq.trans (forget_foldS _ _ (fun _ _ => ?_) _ _) ?_) | (refine Eq.trans (congrArg (forget _) (congrArg Prod.snd ‹_ = (_, _)›).symm) ?_) | (refine Eq.trans (modLcs_frame _ (by decide) _ _ (fun _ => ?_)) ?_) | (show fuses _ = fuses _; first | rfl | (split <;> rfl)) | simp only [Option.getD] | split | dsimp only))

@[simp] theorem switchThreads_frame (μ : Nat) (hm : 10617344 ||| μ = μ) (bank : Nat) (bs : Bytes) (s : State) : forget μ (switchThreads bank bs s) = forget μ s := widen (a := 10617344) hm (by
  unfold switchThreads
  simp)

theorem enterSwitch_frame (μ : Nat) (hm : 10879636 ||| μ = μ) (rollback : Bool) (fromMaster : Bool) (s : State) (z : State) (e : enterSwitch rollback fromMaster s = some z) : forget μ z = forget μ s := widen (a := 10879636) hm (by
  revert e
  unfold enterSwitch
  repeat' (first | (intro e; cases e; done) | (intro e; cases e; repeat' (first | with_reducible rfl | simp only [↓setMode_frame, ↓switchThreads_frame, Nat.reduceOr] | (refine Eq.trans (forget_foldS _ _ (fun _ _ => ?_) _ _) ?_) | (refine Eq.trans (congrArg (forget _) (congrArg Prod.snd ‹_ = (_, _)›).symm) ?_) | (refine Eq.trans (modLcs_frame _ (by decide) _ _ (fun _ => ?_)) ?_) | (show fuses _ = fuses _; first | rfl | (split <;> rfl)) | simp only [Option.getD] | split | dsimp only)) | (intro e; obtain ⟨_, _, rfl⟩ := Option.map_eq_some_iff.mp e; repeat' (first | with_reducible rfl | simp only [↓setMode_frame, ↓switchThreads_frame, Nat.reduceOr] | (refine Eq.trans (forget_foldS _ _ (fun _ _ => ?_) _ _) ?_) | (refine Eq.trans (congrArg (forget _) (congrArg Prod.snd ‹_ = (_, _)›).symm) ?_) | (refine Eq.trans (modLcs_frame _ (by decide) _ _ (fun _ => ?_)) ?_) | (show fuses _ = fuses _; first | rfl | (split <;> rfl)) | simp only [Option.getD] | split | dsimp only)) | split | dsimp only))

@[simp] theorem chainNext_frame (μ : Nat) (hm : 15073940 ||| μ = μ) (s : State) : forget μ (chainNext s) = forget μ s := widen (a := 15073940) hm (by
  unfold chainNext
  repeat' (first | with_reducible rfl | simp only [↓chainDone_frame, ↓sendTo_frame, forget_ite, Nat.reduceOr] | (refine Eq.trans (forget_foldS _ _ (fun _ _ => ?_) _ _) ?_) | (refine Eq.trans (congrArg (forget _) (congrArg Prod.snd ‹_ = (_, _)›).symm) ?_) | (refine Eq.trans (enterSwitch_frame _ (by first | decide | exact or_trans rfl hm) _ _ _ _ ‹_›) ?_) | simp only [Option.getD] | split | dsimp only))

@[simp] theorem rollback_frame (μ : Nat) (hm : 15073940 ||| μ = μ) (p : Path) (s : State) : forget μ (rollback p s) = forget μ s := widen (a := 15073940) hm (by
  unfold rollback
  repeat' (first | with_reducible rfl | simp only [↓chainNext_frame, ↓answerAction_frame, forget_ite, Nat.reduceOr] | (refine Eq.trans (forget_foldS _ _ (fun _ _ => ?_) _ _) ?_) | (refine Eq.trans (congrArg (forget _) (congrArg Prod.snd ‹_ = (_, _)›).symm) ?_) | (refine Eq.trans (modLcs_frame _ (by decide) _ _ (fun _ => ?_)) ?_) | (show fuses _ = fuses _; first | rfl | (split <;> rfl)) | simp only [Option.getD] | split | dsimp only))

@[simp] theorem commitNow_frame (μ : Nat) (hm : 2359812 ||| μ = μ) (s : State) : forget μ (commitNow s) = forget μ s := widen (a := 2359812) hm (by
  unfold commitNow
  repeat' (first | with_reducible rfl | simp only [↓lcsEvent_frame, ↓writeDir_frame, forget_ite, ite_self, Nat.reduceOr] | (refine Eq.trans (forget_foldS _ _ (fun _ _ => ?_) _ _) ?_) | (refine Eq.trans (congrArg (forget _) (congrArg Prod.snd ‹_ = (_, _)›).symm) ?_) | (refine Eq.trans (modLcs_frame _ (by decide) _ _ (fun _ => ?_)) ?_) | (show fuses _ = fuses _; first | rfl | (split <;> rfl)) | simp only [Option.getD] | split | dsimp only))

@[simp] theorem commit_frame (μ : Nat) (hm : 2359812 ||| μ = μ) (p : Path) (s : State) : forget μ (commit p s) = forget μ s := widen (a := 2359812) hm (by
  unfold commit
  (repeat' split) <;> simp)

@[simp] theorem activate_frame (μ : Nat) (hm : 15073972 ||| μ = μ) (p : Path) (s : State) : forget μ (activate p s) = forget μ s := widen (a := 15073972) hm (by
  unfold activate
  repeat' (first | with_reducible rfl | simp only [↓chainNext_frame, ↓answerAction_frame, ↓refuseRequest_frame, forget_ite, ite_self, Nat.reduceOr] | (refine Eq.trans (forget_foldS _ _ (fun _ _ => ?_) _ _) ?_) | (refine Eq.trans (congrArg (forget _) (congrArg Prod.snd ‹_ = (_, _)›).symm) ?_) | (refine Eq.trans (modLcs_frame _ (by decide) _ _ (fun _ => ?_)) ?_) | (show fuses _ = fuses _; first | rfl | (split <;> rfl)) | simp only [Option.getD] | split | dsimp only))

@[simp] theorem debugEnd_frame (μ : Nat) (hm : 2359808 ||| μ = μ) (p : Path) (s : State) : forget μ (debugEnd p s) = forget μ s := widen (a := 2359808) hm (by
  unfold debugEnd
  simp)

@[simp] theorem transition_frame (μ : Nat) (hm : 33554364 ||| μ = μ) (t : Bytes) (s : State) : forget μ (transition t s) = forget μ s := widen (a := 33554364) hm (by
  unfold transition
  repeat' (first | with_reducible rfl | simp only [modLcs_frame_all, ↓lcsEvent_frame, ↓closeDebug_frame, forget_ite, Nat.reduceOr] | (refine Eq.trans (forget_foldS _ _ (fun _ _ => ?_) _ _) ?_) | (refine Eq.trans (congrArg (forget _) (congrArg Prod.snd ‹_ = (_, _)›).symm) ?_) | (refine Eq.trans (restartDevice_frame _ (by first | decide | exact or_trans rfl hm) _ _ ‹_›) ?_) | simp only [Option.getD] | split | dsimp only))

@[simp] theorem allTdiError_frame (μ : Nat) (hm : 3744512 ||| μ = μ) (s : State) : forget μ (allTdiError s) = forget μ s := widen (a := 3744512) hm (by
  unfold allTdiError
  repeat' (first | with_reducible rfl | simp only [↓tdiError_frame, Nat.reduceOr] | (refine Eq.trans (forget_foldS _ _ (fun _ _ => ?_) _ _) ?_) | (refine Eq.trans (congrArg (forget _) (congrArg Prod.snd ‹_ = (_, _)›).symm) ?_) | split | dsimp only))

@[simp] theorem openDebug_frame (μ : Nat) (hm : 4006656 ||| μ = μ) (t : Bytes) (s : State) : forget μ (openDebug t s) = forget μ s := widen (a := 4006656) hm (by
  unfold openDebug
  repeat' (first | with_reducible rfl | simp only [↓allTdiError_frame, ↓lcsEvent_frame, forget_ite, ite_self, Nat.reduceOr] | (refine Eq.trans (forget_foldS _ _ (fun _ _ => ?_) _ _) ?_) | (refine Eq.trans (congrArg (forget _) (congrArg Prod.snd ‹_ = (_, _)›).symm) ?_) | (refine Eq.trans (modLcs_frame _ (by decide) _ _ (fun _ => ?_)) ?_) | (show fuses _ = fuses _; first | rfl | (split <;> rfl)) | simp only [Option.getD] | split | dsimp only))

@[simp] theorem tokenSubmit_frame (μ : Nat) (hm : 33554364 ||| μ = μ) (p : Path) (s : State) : forget μ (tokenSubmit p s) = forget μ s := widen (a := 33554364) hm (by
  unfold tokenSubmit
  repeat' (first | with_reducible rfl | simp only [↓setReg_frame, modLcs_frame_all, ↓lcsEvent_frame, ↓openDebug_frame, ↓transition_frame, forget_ite, ite_self, Nat.reduceOr] | split))

@[simp] theorem nonceRead_frame (μ : Nat) (hm : 262216 ||| μ = μ) (p : Path) (s : State) : forget μ (nonceRead p s).2 = forget μ s := widen (a := 262216) hm (by
  unfold nonceRead
  repeat' (first | with_reducible rfl | simp only [↓takeFree_frame, ↓set_shadow_frame, Nat.reduceOr] | (refine Eq.trans (forget_foldS _ _ (fun _ _ => ?_) _ _) ?_) | (refine Eq.trans (congrArg (forget _) (congrArg Prod.snd ‹_ = (_, _)›).symm) ?_) | (refine Eq.trans (modLcs_frame _ (by decide) _ _ (fun _ => ?_)) ?_) | (show fuses _ = fuses _; first | rfl | (split <;> rfl)) | simp only [Option.getD] | split | dsimp only))

@[simp] theorem execDebugExpiry_frame (μ : Nat) (hm : 2392578 ||| μ = μ) (s : State) : forgetO μ s (execDebugExpiry s) = forget μ s := widenO (a := 2392578) hm (by
  unfold execDebugExpiry
  (repeat' split) <;> simp)

@[simp] theorem execMbxStage_frame (μ : Nat) (hm : 15106878 ||| μ = μ) (f : Fn) (addr : Nat) (len : Nat) (image : HostRead) (s : State) : forgetO μ s (execMbxStage f addr len image s) = forget μ s := widenO (a := 15106878) hm (by
  unfold execMbxStage
  repeat' (first | with_reducible rfl | simp only [↓mbxReply_frame, ↓stageImage_frame, forgetO_next, forgetO_ite, Nat.reduceOr] | (refine Eq.trans (withRead_frame _ (by first | decide | exact or_trans rfl hm) _ _ _ _ _ (fun _ => ?_)) ?_) | (refine Eq.trans (forget_foldS _ _ (fun _ _ => ?_) _ _) ?_) | (refine Eq.trans (congrArg (forget _) (congrArg Prod.snd ‹_ = (_, _)›).symm) ?_) | split | dsimp only))

@[simp] theorem setPldm_frame (μ : Nat) (hm : 262144 ||| μ = μ) (x : PldmSt) (s : State) : forget μ (setPldm x s) = forget μ s := widen (a := 262144) hm (by
  unfold setPldm
  repeat' (first | with_reducible rfl | simp only [forget_ite, ite_self, forgetO_next, forgetO_ite, Nat.reduceOr] | (refine Eq.trans (forget_foldS _ _ (fun _ _ => ?_) _ _) ?_) | (refine Eq.trans (congrArg (forget _) (congrArg Prod.snd ‹_ = (_, _)›).symm) ?_) | (refine Eq.trans (modLcs_frame _ (by decide) _ _ (fun _ => ?_)) ?_) | (show fuses _ = fuses _; first | rfl | (split <;> rfl)) | simp only [Option.getD] | split | dsimp only))

@[simp] theorem pldm_frame (μ : Nat) (hm : 4 ||| μ = μ) (cmd : Nat) (cc : Nat) (more : Bytes) (s : State) : forget μ (pldm cmd cc more s) = forget μ s := widen (a := 4) hm (by
  unfold pldm
  simp)

@[simp] theorem execCancelUpdate_frame (μ : Nat) (hm : 262148 ||| μ = μ) (s : State) : forgetO μ s (execCancelUpdate s) = forget μ s := widenO (a := 262148) hm (by
  unfold execCancelUpdate
  repeat' (first | with_reducible rfl | simp only [↓pldm_frame, ↓setPldm_frame, forgetO_next, forgetO_ite, Nat.reduceOr] | (refine Eq.trans (forget_foldS _ _ (fun _ _ => ?_) _ _) ?_) | (refine Eq.trans (congrArg (forget _) (congrArg Prod.snd ‹_ = (_, _)›).symm) ?_) | (refine Eq.trans (modLcs_frame _ (by decide) _ _ (fun _ => ?_)) ?_) | (show fuses _ = fuses _; first | rfl | (split <;> rfl)) | simp only [Option.getD] | split | dsimp only))

@[simp] theorem execAutoCommit_frame (μ : Nat) (hm : 2392582 ||| μ = μ) (s : State) : forgetO μ s (execAutoCommit s) = forget μ s := widenO (a := 2392582) hm (by
  unfold execAutoCommit
  simp)

@[simp] theorem pldmAsk_frame (μ : Nat) (hm : 4 ||| μ = μ) (s : State) : forget μ (pldmAsk s) = forget μ s := widen (a := 4) hm (by
  unfold pldmAsk
  simp)

@[simp] theorem execUpdateComponent_frame (μ : Nat) (hm : 262148 ||| μ = μ) (classification : Nat) (identifier : Nat) (size : Nat) (s : State) : forgetO μ s (execUpdateComponent classification identifier size s) = forget μ s := widenO (a := 262148) hm (by
  unfold execUpdateComponent
  repeat' (first | with_reducible rfl | simp only [↓pldm_frame, ↓pldmAsk_frame, ↓setPldm_frame, forgetO_next, forgetO_ite, Nat.reduceOr] | (refine Eq.trans (forget_foldS _ _ (fun _ _ => ?_) _ _) ?_) | (refine Eq.trans (congrArg (forget _) (congrArg Prod.snd ‹_ = (_, _)›).symm) ?_) | (refine Eq.trans (modLcs_frame _ (by decide) _ _ (fun _ => ?_)) ?_) | (show fuses _ = fuses _; first | rfl | (split <;> rfl)) | simp only [Option.getD] | split | dsimp only))

@[simp] theorem execMbxQuery_frame (μ : Nat) (hm : 2097664 ||| μ = μ) (f : Fn) (s : State) : forgetO μ s (execMbxQuery f s) = forget μ s := widenO (a := 2097664) hm (by
  unfold execMbxQuery
  simp)

@[simp] theorem execSwitchedReply_frame (μ : Nat) (hm : 15073940 ||| μ = μ) (member : Nat) (reverted : Bool) (s : State) : forgetO μ s (execSwitchedReply member reverted s) = forget μ s := widenO (a := 15073940) hm (by
  unfold execSwitchedReply
  repeat' (first | with_reducible rfl | simp only [↓chainDone_frame, ↓chainNext_frame, forgetO_next, forgetO_ite, Nat.reduceOr] | (refine Eq.trans (forget_foldS _ _ (fun _ _ => ?_) _ _) ?_) | (refine Eq.trans (congrArg (forget _) (congrArg Prod.snd ‹_ = (_, _)›).symm) ?_) | (refine Eq.trans (modLcs_frame _ (by decide) _ _ (fun _ => ?_)) ?_) | (show fuses _ = fuses _; first | rfl | (split <;> rfl)) | simp only [Option.getD] | split | dsimp only))

@[simp] theorem execPassComponentTable_frame (μ : Nat) (hm : 262148 ||| μ = μ) (classification : Nat) (identifier : Nat) (s : State) : forgetO μ s (execPassComponentTable classification identifier s) = forget μ s := widenO (a := 262148) hm (by
  unfold execPassComponentTable
  (repeat' split) <;> simp)

@[simp] theorem execActivateFirmware_frame (μ : Nat) (hm : 15073972 ||| μ = μ) (s : State) : forgetO μ s (execActivateFirmware s) = forget μ s := widenO (a := 15073972) hm (by
  unfold execActivateFirmware
  (repeat' split) <;> simp)

@[simp] theorem execFirmwareDataReceived_frame (μ : Nat) (hm : 15073284 ||| μ = μ) (data : Bytes) (s : State) : forgetO μ s (execFirmwareDataReceived data s) = forget μ s := widenO (a := 15073284) hm (by
  unfold execFirmwareDataReceived
  repeat' (first | with_reducible rfl | simp only [↓pldmAsk_frame, ↓pldm_frame, ↓stageImage_frame, ↓setPldm_frame, forget_ite, ite_self, forgetO_next, forgetO_ite, Nat.reduceOr] | (refine Eq.trans (forget_foldS _ _ (fun _ _ => ?_) _ _) ?_) | (refine Eq.trans (congrArg (forget _) (congrArg Prod.snd ‹_ = (_, _)›).symm) ?_) | (refine Eq.trans (modLcs_frame _ (by decide) _ _ (fun _ => ?_)) ?_) | (show fuses _ = fuses _; first | rfl | (split <;> rfl)) | simp only [Option.getD] | split | dsimp only))

@[simp] theorem execDirWritten_frame (μ : Nat) (hm : 262148 ||| μ = μ) (s : State) : forgetO μ s (execDirWritten s) = forget μ s := widenO (a := 262148) hm (by
  unfold execDirWritten
  repeat' (first | with_reducible rfl | simp only [↓writeDir_frame, forgetO_next, forgetO_ite, Nat.reduceOr] | (refine Eq.trans (forget_foldS _ _ (fun _ _ => ?_) _ _) ?_) | (refine Eq.trans (congrArg (forget _) (congrArg Prod.snd ‹_ = (_, _)›).symm) ?_) | (refine Eq.trans (modLcs_frame _ (by decide) _ _ (fun _ => ?_)) ?_) | (show fuses _ = fuses _; first | rfl | (split <;> rfl)) | simp only [Option.getD] | split | dsimp only))

@[simp] theorem execActivateReverted_frame (μ : Nat) (hm : 50331646 ||| μ = μ) (s : State) : forgetO μ s (execActivateReverted s) = forget μ s := widenO (a := 50331646) hm (by
  unfold execActivateReverted
  (repeat' split) <;> simp)

@[simp] theorem execMemberSwitch_frame (μ : Nat) (hm : 15073940 ||| μ = μ) (rollback : Bool) (s : State) : forgetO μ s (execMemberSwitch rollback s) = forget μ s := widenO (a := 15073940) hm (by
  unfold execMemberSwitch
  repeat' (first | with_reducible rfl | simp only [↓sendTo_frame, forgetO_next, forgetO_ite, Nat.reduceOr] | (refine Eq.trans (forget_foldS _ _ (fun _ _ => ?_) _ _) ?_) | (refine Eq.trans (congrArg (forget _) (congrArg Prod.snd ‹_ = (_, _)›).symm) ?_) | (refine Eq.trans (enterSwitch_frame _ (by first | decide | exact or_trans rfl hm) _ _ _ _ ‹_›) ?_) | simp only [Option.getD] | split | dsimp only))

@[simp] theorem execGetStatus_frame (μ : Nat) (hm : 4 ||| μ = μ) (s : State) : forgetO μ s (execGetStatus s) = forget μ s := widenO (a := 4) hm (by
  unfold execGetStatus
  simp)

@[simp] theorem execRequestUpdate_frame (μ : Nat) (hm : 262148 ||| μ = μ) (s : State) : forgetO μ s (execRequestUpdate s) = forget μ s := widenO (a := 262148) hm (by
  unfold execRequestUpdate
  repeat' (first | with_reducible rfl | simp only [↓pldm_frame, ↓setPldm_frame, forgetO_next, forgetO_ite, Nat.reduceOr] | (refine Eq.trans (forget_foldS _ _ (fun _ _ => ?_) _ _) ?_) | (refine Eq.trans (congrArg (forget _) (congrArg Prod.snd ‹_ = (_, _)›).symm) ?_) | (refine Eq.trans (modLcs_frame _ (by decide) _ _ (fun _ => ?_)) ?_) | (show fuses _ = fuses _; first | rfl | (split <;> rfl)) | simp only [Option.getD] | split | dsimp only))

end Sys2Proof.Machine
end

