-- ==== Sys2Proof/Laws/FrameAccess.lean ====
section
/-!
SUPPORT. Frames of the operations of Machine/Access.lean: the parts of the state that each can change.
-/
namespace Sys2Proof.Machine
set_option linter.all false

@[simp] theorem access_frame (μ : Nat) (hm : 50331644 ||| μ = μ) (h : HeldAccess) (s : State) : forget μ (access h s) = forget μ s := widen (a := 50331644) hm (by
  unfold access
  simp)

@[simp] theorem fwAction_frame (μ : Nat) (hm : 50331644 ||| μ = μ) (p : Path) (a : Nat) (s : State) : forget μ (fwAction p a s) = forget μ s := widen (a := 50331644) hm (by
  unfold fwAction
  (repeat' split) <;> simp)

@[simp] theorem lcsStore_frame (μ : Nat) (hm : 67108860 ||| μ = μ) (p : Path) (r : Reg) (i : Nat) (v : Word) (s : State) : forget μ (lcsStore p r i v s) = forget μ s := widen (a := 67108860) hm (by
  unfold lcsStore
  (repeat' split) <;> simp)

@[simp] theorem writeLcs_frame (μ : Nat) (hm : 67108860 ||| μ = μ) (p : Path) (off : Nat) (v : Word) (s : State) : forget μ (writeLcs p off v s) = forget μ s := widen (a := 67108860) hm (by
  unfold writeLcs
  (repeat' split) <;> simp)

@[simp] theorem turnAway_frame (μ : Nat) (hm : 300 ||| μ = μ) (p : Path) (s : State) : forget μ (turnAway p s) = forget μ s := widen (a := 300) hm (by
  unfold turnAway
  (repeat' split) <;> simp)

@[simp] theorem accessWrite_frame (μ : Nat) (hm : 67108860 ||| μ = μ) (by_ : Path) (t : Nat) (off : Nat) (v : Word) (s : State) : forget μ (accessWrite by_ t off v s) = forget μ s := widen (a := 67108860) hm (by
  unfold accessWrite
  simp)

@[simp] theorem regWrite_frame (μ : Nat) (hm : 67108860 ||| μ = μ) (t : Nat) (off : Nat) (v : Word) (s : State) : forget μ (regWrite t off v s) = forget μ s := widen (a := 67108860) hm (by
  unfold regWrite
  simp)

@[simp] theorem readLcs_frame (μ : Nat) (hm : 262216 ||| μ = μ) (p : Path) (off : Nat) (s : State) : forget μ (readLcs p off s).2 = forget μ s := widen (a := 262216) hm (by
  unfold readLcs
  (repeat' split) <;> simp)

@[simp] theorem regRead_frame (μ : Nat) (hm : 35930872 ||| μ = μ) (off : Nat) (s : State) : forget μ (regRead off s).2 = forget μ s := widen (a := 35930872) hm (by
  unfold regRead
  (repeat' split) <;> simp)

/-- A wake of a block changes the power domains and the idle clocks alone. -/
theorem wakeBlock_form (p : Path) (b : Nat) (s : State) :
    ∃ d w, wakeBlock p b s = { s with lastWork := w, cai := { s.cai with domains := d } } := by
  unfold wakeBlock
  dsimp only
  split
  · split
    · exact ⟨_, _, rfl⟩
    · exact ⟨s.cai.domains, s.lastWork, rfl⟩
  · split
    · unfold wakeUnit
      dsimp only
      split
      · exact ⟨s.cai.domains, s.lastWork, rfl⟩
      · split
        · exact ⟨_, _, rfl⟩
        · exact ⟨_, _, rfl⟩
        · exact ⟨s.cai.domains, s.lastWork, rfl⟩
    · exact ⟨s.cai.domains, s.lastWork, rfl⟩

/-- Above the registers of a function's BARs stand its doorbells, its MSI-X table and the properties of an NVMe function. -/
theorem writeFn_high_frame (μ : Nat) (hm : 36176828 ||| μ = μ) (f : Fn) (off : Nat) (v : Word) (s : State)
    (h : (isVf f = true ∧ 0x4000 ≤ off) ∨ (isVf f = false ∧ 0x2000000 ≤ off) ∨ isNvme s f = true) : forget μ (writeFn f off v s) = forget μ s := by
  unfold writeFn
  by_cases n : isNvme s f = true
  · simp only [n, if_true]
    repeat' (first | with_reducible rfl | exact msixWordWrite_frame μ (or_trans rfl hm) _ _ _ _ | exact nvWrite_frame μ (or_trans rfl hm) _ _ _ _ | split)
  · have n : isNvme s f = false := by simpa using n
    simp only [n, Bool.false_eq_true, if_false]
    split
    · split
      · exact msixWordWrite_frame μ (or_trans rfl hm) _ _ _ _
      · rfl
    · by_cases vf : isVf f = true
      · have l : 0x4000 ≤ off := by
          rcases h with h | h | h
          · exact h.2
          · rw [vf] at h; cases h.1
          · rw [n] at h; cases h
        simp only [vf, if_true, l]
        repeat' (first | with_reducible rfl | exact msixWordWrite_frame μ (or_trans rfl hm) _ _ _ _ | exact doorbellWord32_frame μ (or_trans rfl hm) _ _ _ _ _ _ | split)
      · have vf : isVf f = false := by simpa using vf
        have l : 0x2000000 ≤ off := by
          rcases h with h | h | h
          · rw [vf] at h; cases h.1
          · exact h.2
          · rw [n] at h; cases h
        simp only [vf, Bool.false_eq_true, if_false, l, if_true]
        repeat' (first | with_reducible rfl | exact doorbellWord32_frame μ (or_trans rfl hm) _ _ _ _ _ _ | split)

/-- What a write above the registers of a function's BARs may change. -/
theorem access_high_frame (μ : Nat) (hm : 36176828 ||| μ = μ) (f : Fn) (off t : Nat) (v : Word) (s : State)
    (h : (isVf f = true ∧ 0x4000 ≤ off) ∨ (isVf f = false ∧ 0x2000000 ≤ off) ∨ isNvme s f = true) :
    forget μ (access { path := .fn f, off := off, kind := .write v, thread := t } s) = forget μ s := by
  have w (t : State) (b : Nat) (e : wakeBlock (.fn f) b s = t) : forget μ t = forget μ s ∧ isNvme t f = isNvme s f := by
    refine ⟨e ▸ wakeBlock_frame μ (or_trans rfl hm) _ _ _, ?_⟩
    obtain ⟨d, x, y⟩ := wakeBlock_form (.fn f) b s
    rw [← e, y]
    rfl
  unfold access
  split
  · exact holdAccess_frame μ (or_trans rfl hm) _ _
  · unfold completeAccess
    dsimp only
    split
    · rfl
    · split
      · exact writeFn_high_frame μ hm _ _ _ _ h
      · have x := w _ (accessBlk s (.fn f) off) rfl
        refine Eq.trans (writeFn_high_frame μ hm _ _ _ _ ?_) x.1
        rw [x.2]
        exact h

/-- The same of 8 bytes, at a doorbell or above. -/
theorem access_wide_frame (μ : Nat) (hm : 36176828 ||| μ = μ) (f : Fn) (off : Nat) (v : BitVec 64) (s : State)
    (h : (isVf f = true ∧ 0x4000 ≤ off) ∨ (isVf f = false ∧ 0x2000000 ≤ off)) :
    forget μ (access { path := .fn f, off := off, kind := .writeWide v } s) = forget μ s := by
  have nv (o : Nat) (v : Word) (t : State) (l : off ≤ o) : forget μ (writeFn f o v t) = forget μ t := by
    refine writeFn_high_frame μ hm _ _ _ _ ?_
    rcases h with h | h
    · exact .inl ⟨h.1, by omega⟩
    · exact .inr (.inl ⟨h.1, by omega⟩)
  have wide (t : State) : forget μ (writeBlockWide (.fn f) off v t) = forget μ t := by
    unfold writeBlockWide
    dsimp only
    split
    · exact doorbellTaken_frame μ (or_trans rfl hm) _ _ _ _
    · exact (nv _ _ _ (by omega)).trans (nv _ _ _ (Nat.le_refl _))
  unfold access
  split
  · exact holdAccess_frame μ (or_trans rfl hm) _ _
  · unfold completeAccess
    dsimp only
    split
    · rfl
    · split
      · exact wide _
      · exact (wide _).trans (wakeBlock_frame μ (or_trans rfl hm) _ _ _)

/-- An aligned write above the registers of a function's BARs. -/
theorem accessWrite_high_frame (μ : Nat) (hm : 36176828 ||| μ = μ) (f : Fn) (t off : Nat) (v : Word) (s : State)
    (h : (isVf f = true ∧ 0x4000 ≤ off) ∨ (isVf f = false ∧ 0x2000000 ≤ off) ∨ isNvme s f = true) :
    forget μ (accessWrite (.fn f) t off v s) = forget μ s := by
  have l : lcsAccess s (.fn f) off = false := by
    unfold lcsAccess windowed nvmePath
    rcases h with h | h | h
    · simp [h.1]
    · simp [show ¬ off < 0x2000000 by omega]
    · simp [h]
  unfold accessWrite
  split
  · exact turnAway_frame μ (or_trans rfl hm) _ _
  · simp only [show asPath (.fn f) = .fn f from rfl, l, Bool.false_eq_true, if_false]
    exact access_high_frame μ hm _ _ _ _ _ h

theorem execNvmeCqDoorbell_frame (μ : Nat) (hm : 36176828 ||| μ = μ) (f : Fn) (q : Nat) (v : Nat) (s : State) : forgetO μ s (execNvmeCqDoorbell f q v s) = forget μ s := by
  unfold execNvmeCqDoorbell
  rw [forgetO_next]
  split
  · exact accessWrite_high_frame μ (or_trans rfl hm) _ _ _ _ _ (.inr (.inr ‹_›))
  · rfl

@[simp] theorem rejectAccess_frame (μ : Nat) (hm : 2097716 ||| μ = μ) (p : Path) (off : Nat) (write : Bool) (s : State) : forget μ (rejectAccess p off write s) = forget μ s := widen (a := 2097716) hm (by
  unfold rejectAccess
  (repeat' split) <;> simp)

@[simp] theorem accessRead_frame (μ : Nat) (hm : 35931132 ||| μ = μ) (by_ : Path) (off : Nat) (s : State) : forget μ (accessRead by_ off s) = forget μ s := by
  unfold accessRead
  dsimp only
  split
  · exact turnAway_frame μ (or_trans rfl hm) _ _
  · split
    · exact (emit_frame μ (or_trans rfl hm) _ _).trans (readLcs_frame μ (or_trans rfl hm) _ _ _)
    · unfold access
      split
      · exact holdAccess_frame μ (or_trans rfl hm) _ _
      · exact (emit_frame μ (or_trans rfl hm) _ _).trans (completeRead_frame μ (or_trans rfl hm) _ _ _)

@[simp] theorem accessSized_frame (μ : Nat) (hm : 67108860 ||| μ = μ) (by_ : Path) (off : Nat) (size : Nat) (data : Option (BitVec 64)) (s : State) : forget μ (accessSized by_ off size data s) = forget μ s := widen (a := 67108860) hm (by
  unfold accessSized
  (repeat' split) <;> simp)

@[simp] theorem execMsixUnmask_frame (μ : Nat) (hm : 36176828 ||| μ = μ) (f : Fn) (change : MsixChange) (s : State) : forgetO μ s (execMsixUnmask f change s) = forget μ s := by
  unfold execMsixUnmask
  split
  · exact msixChange_frame μ (or_trans rfl hm) _ _ _
  · rw [forgetO_next]
    split
    · refine accessWrite_high_frame μ (or_trans rfl hm) _ _ _ _ _ ?_
      unfold msixBar
      cases isVf f
      · exact .inr (.inl ⟨rfl, by simp only [Bool.false_eq_true, if_false]; omega⟩)
      · exact .inl ⟨rfl, by simp only [if_true]; omega⟩
    · rfl

@[simp] theorem execBadAccess_frame (μ : Nat) (hm : 67108860 ||| μ = μ) (p : Path) (off : Nat) (access : Sized) (s : State) : forgetO μ s (execBadAccess p off access s) = forget μ s := widenO (a := 67108860) hm (by
  unfold execBadAccess
  simp)

@[simp] theorem cfgHwSet_frame (μ : Nat) (hm : 288 ||| μ = μ) (f : Fn) (off : Nat) (bit : Nat) (s : State) : forget μ (cfgHwSet f off bit s) = forget μ s := widen (a := 288) hm (by
  unfold cfgHwSet
  simp)

@[simp] theorem execNvmeSqDoorbell_frame (μ : Nat) (hm : 36176828 ||| μ = μ) (f : Fn) (q : Nat) (v : Nat) (s : State) : forgetO μ s (execNvmeSqDoorbell f q v s) = forget μ s := by
  unfold execNvmeSqDoorbell
  rw [forgetO_next]
  split
  · exact accessWrite_high_frame μ (or_trans rfl hm) _ _ _ _ _ (.inr (.inr ‹_›))
  · rfl

@[simp] theorem execLowWordRead_frame (μ : Nat) (hm : 35931132 ||| μ = μ) (p : Path) (off : Nat) (s : State) : forgetO μ s (execLowWordRead p off s) = forget μ s := widenO (a := 35931132) hm (by
  unfold execLowWordRead
  simp)

@[simp] theorem execDoorbellWrite_frame (μ : Nat) (hm : 36176828 ||| μ = μ) (f : Fn) (q : Nat) (v : BitVec 64) (form : DoorbellForm) (s : State) : forgetO μ s (execDoorbellWrite f q v form s) = forget μ s := by
  have h : (isVf f = true ∧ 0x4000 ≤ doorbellBar f q) ∨ (isVf f = false ∧ 0x2000000 ≤ doorbellBar f q) := by
    unfold doorbellBar
    cases isVf f <;> simp
  have sized (off size : Nat) (l : doorbellBar f q ≤ off) : forget μ (accessSized (.fn f) off size (some v) s) = forget μ s := by
    have h' : (isVf f = true ∧ 0x4000 ≤ off) ∨ (isVf f = false ∧ 0x2000000 ≤ off) := by
      rcases h with h | h
      · exact .inl ⟨h.1, by omega⟩
      · exact .inr ⟨h.1, by omega⟩
    have h'' : (isVf f = true ∧ 0x4000 ≤ off) ∨ (isVf f = false ∧ 0x2000000 ≤ off) ∨ isNvme s f = true := h'.imp_right .inl
    unfold accessSized
    dsimp only
    split
    · exact turnAway_frame μ (or_trans rfl hm) _ _
    · split
      · exact accessWrite_high_frame μ (or_trans rfl hm) _ _ _ _ _ h''
      · split
        · rfl
        · split
          · exact access_wide_frame μ (or_trans rfl hm) _ _ _ _ h'
          · unfold rejectAccess
            exact accessError_frame μ (or_trans rfl hm) _ _ _ _
  unfold execDoorbellWrite
  dsimp only
  split
  · exact sized _ _ (Nat.le_refl _)
  · exact accessWrite_high_frame μ (or_trans rfl hm) _ _ _ _ _ (h.imp_right .inl)
  · exact sized _ _ (by omega)
  · rw [forgetO_next]
    split
    · exact aerLog_frame μ (or_trans rfl hm) _ _ _ _
    · exact rejectRequest_frame μ (or_trans rfl hm) _ _

@[simp] theorem execHeldAccess_frame (μ : Nat) (hm : 67108860 ||| μ = μ) (p : Path) (off : Nat) (v : Option Word) (s : State) : forgetO μ s (execHeldAccess p off v s) = forget μ s := widenO (a := 67108860) hm (by
  unfold execHeldAccess
  (repeat' split) <;> simp)

@[simp] theorem execW1cHardwareSet_frame (μ : Nat) (hm : 304 ||| μ = μ) (p : Path) (off : Nat) (bit : Nat) (s : State) : forgetO μ s (execW1cHardwareSet p off bit s) = forget μ s := widenO (a := 304) hm (by
  unfold execW1cHardwareSet
  (repeat' split) <;> simp)

@[simp] theorem execReadClear_frame (μ : Nat) (hm : 35931132 ||| μ = μ) (p : Path) (off : Nat) (s : State) : forgetO μ s (execReadClear p off s) = forget μ s := widenO (a := 35931132) hm (by
  unfold execReadClear
  simp)

@[simp] theorem execRegisterWrite_frame (μ : Nat) (hm : 67108860 ||| μ = μ) (p : Path) (off : Nat) (v : Word) (s : State) : forgetO μ s (execRegisterWrite p off v s) = forget μ s := widenO (a := 67108860) hm (by
  unfold execRegisterWrite
  simp)

end Sys2Proof.Machine
end

