-- ==== Sys2Proof/Laws/FrameHarts.lean ====
section
/-!
SUPPORT. Frames of the operations of Machine/Harts.lean: the parts of the state that each can change.
-/
namespace Sys2Proof.Machine
set_option linter.all false

@[simp] theorem retire__frame (μ : Nat) (hm : 2097152 ||| μ = μ) (t : Nat) (rd : Nat) (v : Nat) (size : Nat) (s : State) : forget μ (retire_ t rd v size s) = forget μ s := widen (a := 2097152) hm (by
  unfold retire_
  simp)

@[simp] theorem countPoison_frame (μ : Nat) (hm : 16 ||| μ = μ) (a : Nat) (n : Nat) (s : State) : forget μ (countPoison a n s) = forget μ s := widen (a := 16) hm (by
  unfold countPoison
  (repeat' split) <;> simp)

@[simp] theorem illegal_frame (μ : Nat) (hm : 2097152 ||| μ = μ) (t : Nat) (bits_ : Nat) (s : State) : forget μ (illegal t bits_ s) = forget μ s := widen (a := 2097152) hm (by
  unfold illegal
  simp)

@[simp] theorem doAmo_frame (μ : Nat) (hm : 10616848 ||| μ = μ) (t w size bits_ : Nat) (s : State) : forget μ (doAmo t w size bits_ s) = forget μ s := by
  have a (s : State) : forget μ (illegal t bits_ s) = forget μ s := illegal_frame μ (or_trans rfl hm) _ _ _
  have b (x : Bool) (c v : Nat) (s : State) : forget μ (trap x c v t s) = forget μ s := trap_frame μ (or_trans rfl hm) _ _ _ _ _
  have c (rd v : Nat) (s : State) : forget μ (retire_ t rd v size s) = forget μ s := retire__frame μ (or_trans rfl hm) _ _ _ _ _
  have d (g : Thread → Thread) (s : State) : forget μ (modThread t g s) = forget μ s := modThread_frame μ (or_trans rfl hm) _ _ _
  have e (k : Nat) (bs : Bytes) (s : State) : forget μ (devWrite k bs s) = forget μ s := devWrite_frame μ (or_trans rfl hm) _ _ _
  have g (p : Bool) (x n : Nat) (s : State) : forget μ (if p = true then countPoison x n s else s) = forget μ s := by
    cases p
    · rfl
    · exact countPoison_frame μ (or_trans rfl hm) _ _ _
  unfold doAmo
  extract_lets h x y f5 n ok raw
  clear_value h x y f5 n ok raw
  split
  · rw [a]
  · split
    · split
      · rw [a]
      · split
        · first | (rw [b]; done) | rw [b, g]
        · split
          · first | (rw [b]; done) | rw [b, g]
          · rw [c, d]
    · split
      · first | (rw [b]; done) | rw [b, g]
      · split
        · first | (rw [b]; done) | rw [b, g]
        · split
          · rw [c, d, e]
          · rw [c, d]
    · split
      · rw [a]
      · split
        · first | (rw [b]; done) | rw [b, g]
        · split
          · first | (rw [b]; done) | rw [b, g]
          · rw [c, e]

@[simp] theorem csrWrite_frame (μ : Nat) (hm : 2097152 ||| μ = μ) (t : Nat) (n : Nat) (v : Nat) (s : State) : forget μ (csrWrite t n v s) = forget μ s := widen (a := 2097152) hm (by
  unfold csrWrite
  (repeat' split) <;> simp)

@[simp] theorem mret_frame (μ : Nat) (hm : 2097152 ||| μ = μ) (t : Nat) (s : State) : forget μ (mret t s) = forget μ s := widen (a := 2097152) hm (by
  unfold mret
  simp)

@[simp] theorem doSystem_frame (μ : Nat) (hm : 2097152 ||| μ = μ) (t : Nat) (w : Nat) (size : Nat) (bits_ : Nat) (s : State) : forget μ (doSystem t w size bits_ s) = forget μ s := widen (a := 2097152) hm (by
  unfold doSystem
  repeat' (first | with_reducible rfl | simp only [↓trap_frame, ↓mret_frame, ↓illegal_frame, ↓retire__frame, ↓csrWrite_frame, ↓set_svc_frame, forget_ite, ite_self, forgetO_next, forgetO_ite, Nat.reduceOr] | split))

@[simp] theorem doOpW_frame (μ : Nat) (hm : 2097152 ||| μ = μ) (t : Nat) (w : Nat) (size : Nat) (bits_ : Nat) (s : State) : forget μ (doOpW t w size bits_ s) = forget μ s := widen (a := 2097152) hm (by
  unfold doOpW
  repeat' (first | with_reducible rfl | simp only [↓retire__frame, ↓illegal_frame, ↓set_svc_frame, forget_ite, ite_self, forgetO_next, forgetO_ite, Nat.reduceOr] | split))

@[simp] theorem doOp_frame (μ : Nat) (hm : 2097152 ||| μ = μ) (t : Nat) (w : Nat) (size : Nat) (bits_ : Nat) (s : State) : forget μ (doOp t w size bits_ s) = forget μ s := widen (a := 2097152) hm (by
  unfold doOp
  (repeat' split) <;> simp)

@[simp] theorem doOpImmW_frame (μ : Nat) (hm : 2097152 ||| μ = μ) (t : Nat) (w : Nat) (size : Nat) (bits_ : Nat) (s : State) : forget μ (doOpImmW t w size bits_ s) = forget μ s := widen (a := 2097152) hm (by
  unfold doOpImmW
  (repeat' split) <;> simp)

@[simp] theorem doOpImm_frame (μ : Nat) (hm : 2097152 ||| μ = μ) (t : Nat) (w : Nat) (size : Nat) (bits_ : Nat) (s : State) : forget μ (doOpImm t w size bits_ s) = forget μ s := widen (a := 2097152) hm (by
  unfold doOpImm
  (repeat' split) <;> simp)

theorem storeMem_frame (μ : Nat) (hm : 67108860 ||| μ = μ) (t : Nat) (a : Nat) (n : Nat) (v : Nat) (s : State) (z : State) (e : storeMem t a n v s = some z) : forget μ z = forget μ s := widen (a := 67108860) hm (by
  revert e
  unfold storeMem
  repeat' (first | (intro e; cases e; done) | (intro e; cases e; repeat' (first | with_reducible rfl | simp only [↓regWrite_frame, ↓modSvc_frame, ↓devWrite_frame, ↓set_out_frame, ↓set_free_frame, ↓set_regs_frame, ↓set_occ_frame, ↓set_shadow_frame, ↓set_cai_frame, ↓set_hif_frame, ↓set_qm_frame, ↓set_mac_frame, ↓set_mgt_frame, ↓set_prs_frame, ↓set_tbl_frame, ↓set_tm_frame, ↓set_tim_frame, ↓set_cry_frame, ↓set_rel_frame, ↓set_sto_frame, ↓set_dmv_frame, ↓set_svc_frame, ↓set_akz_frame, ↓set_dev_frame, ↓set_lastWork_frame, forget_ite, ite_self, forgetO_next, forgetO_ite, Nat.reduceOr] | (refine Eq.trans (forget_foldS _ _ (fun _ _ => ?_) _ _) ?_) | (refine Eq.trans (congrArg (forget _) (congrArg Prod.snd ‹_ = (_, _)›).symm) ?_) | split | dsimp only)) | (intro e; obtain ⟨_, _, rfl⟩ := Option.map_eq_some_iff.mp e; repeat' (first | with_reducible rfl | simp only [↓regWrite_frame, ↓modSvc_frame, ↓devWrite_frame, ↓set_out_frame, ↓set_free_frame, ↓set_regs_frame, ↓set_occ_frame, ↓set_shadow_frame, ↓set_cai_frame, ↓set_hif_frame, ↓set_qm_frame, ↓set_mac_frame, ↓set_mgt_frame, ↓set_prs_frame, ↓set_tbl_frame, ↓set_tm_frame, ↓set_tim_frame, ↓set_cry_frame, ↓set_rel_frame, ↓set_sto_frame, ↓set_dmv_frame, ↓set_svc_frame, ↓set_akz_frame, ↓set_dev_frame, ↓set_lastWork_frame, forget_ite, ite_self, forgetO_next, forgetO_ite, Nat.reduceOr] | (refine Eq.trans (forget_foldS _ _ (fun _ _ => ?_) _ _) ?_) | (refine Eq.trans (congrArg (forget _) (congrArg Prod.snd ‹_ = (_, _)›).symm) ?_) | split | dsimp only)) | split | dsimp only))

@[simp] theorem doStore_frame (μ : Nat) (hm : 67108860 ||| μ = μ) (t : Nat) (w : Nat) (size : Nat) (bits_ : Nat) (s : State) : forget μ (doStore t w size bits_ s) = forget μ s := widen (a := 67108860) hm (by
  unfold doStore
  repeat' (first | with_reducible rfl | simp only [↓illegal_frame, ↓retire__frame, ↓trap_frame, ↓set_out_frame, ↓set_free_frame, ↓set_regs_frame, ↓set_occ_frame, ↓set_shadow_frame, ↓set_cai_frame, ↓set_hif_frame, ↓set_qm_frame, ↓set_mac_frame, ↓set_mgt_frame, ↓set_prs_frame, ↓set_tbl_frame, ↓set_tm_frame, ↓set_tim_frame, ↓set_cry_frame, ↓set_rel_frame, ↓set_sto_frame, ↓set_dmv_frame, ↓set_svc_frame, ↓set_akz_frame, ↓set_dev_frame, ↓set_lastWork_frame, forget_ite, ite_self, forgetO_next, forgetO_ite, Nat.reduceOr] | (refine Eq.trans (forget_foldS _ _ (fun _ _ => ?_) _ _) ?_) | (refine Eq.trans (congrArg (forget _) (congrArg Prod.snd ‹_ = (_, _)›).symm) ?_) | (refine Eq.trans (storeMem_frame _ (by first | decide | exact or_trans rfl hm) _ _ _ _ _ _ ‹_›) ?_) | simp only [Option.getD] | split | dsimp only))

theorem loadMem_frame (μ : Nat) (hm : 35930872 ||| μ = μ) (t : Nat) (a : Nat) (n : Nat) (s : State) (z : _) (e : loadMem t a n s = some z) : forget μ z.2 = forget μ s := widen (a := 35930872) hm (by
  revert e
  unfold loadMem
  repeat' (first | (intro e; cases e; done) | (intro e; cases e; repeat' (first | with_reducible rfl | simp only [↓regRead_frame, ↓set_free_frame, ↓set_regs_frame, ↓set_occ_frame, ↓set_shadow_frame, ↓set_cai_frame, ↓set_qm_frame, ↓set_tm_frame, ↓set_svc_frame, ↓set_lastWork_frame, forget_ite, ite_self, forgetO_next, forgetO_ite, Nat.reduceOr] | (refine Eq.trans (forget_foldS _ _ (fun _ _ => ?_) _ _) ?_) | (refine Eq.trans (congrArg (forget _) (congrArg Prod.snd ‹_ = (_, _)›).symm) ?_) | split | dsimp only)) | (intro e; obtain ⟨_, _, rfl⟩ := Option.map_eq_some_iff.mp e; repeat' (first | with_reducible rfl | simp only [↓regRead_frame, ↓set_free_frame, ↓set_regs_frame, ↓set_occ_frame, ↓set_shadow_frame, ↓set_cai_frame, ↓set_qm_frame, ↓set_tm_frame, ↓set_svc_frame, ↓set_lastWork_frame, forget_ite, ite_self, forgetO_next, forgetO_ite, Nat.reduceOr] | (refine Eq.trans (forget_foldS _ _ (fun _ _ => ?_) _ _) ?_) | (refine Eq.trans (congrArg (forget _) (congrArg Prod.snd ‹_ = (_, _)›).symm) ?_) | split | dsimp only)) | split | dsimp only))

@[simp] theorem doLoad_frame (μ : Nat) (hm : 35930872 ||| μ = μ) (t : Nat) (w : Nat) (size : Nat) (bits_ : Nat) (s : State) : forget μ (doLoad t w size bits_ s) = forget μ s := widen (a := 35930872) hm (by
  unfold doLoad
  repeat' (first | with_reducible rfl | simp only [↓illegal_frame, ↓trap_frame, ↓countPoison_frame, ↓retire__frame, ↓set_free_frame, ↓set_regs_frame, ↓set_occ_frame, ↓set_shadow_frame, ↓set_cai_frame, ↓set_qm_frame, ↓set_tm_frame, ↓set_svc_frame, ↓set_lastWork_frame, forget_ite, ite_self, forgetO_next, forgetO_ite, Nat.reduceOr] | (refine Eq.trans (forget_foldS _ _ (fun _ _ => ?_) _ _) ?_) | (refine Eq.trans (congrArg (forget _) (congrArg Prod.snd ‹_ = (_, _)›).symm) ?_) | (refine Eq.trans (loadMem_frame _ (by first | decide | exact or_trans rfl hm) _ _ _ _ (_, _) ‹_›) ?_) | (refine Eq.trans (loadMem_frame _ (by first | decide | exact or_trans rfl hm) _ _ _ _ _ ‹_›) ?_) | simp only [Option.getD] | split | dsimp only))

@[simp] theorem jumpTo_frame (μ : Nat) (hm : 2097152 ||| μ = μ) (t : Nat) (rd : Nat) (size : Nat) (target : Nat) (s : State) : forget μ (jumpTo t rd size target s) = forget μ s := widen (a := 2097152) hm (by
  unfold jumpTo
  simp)

@[simp] theorem ordinary_frame (μ : Nat) (hm : 67108860 ||| μ = μ) (t : Nat) (w : Nat) (size : Nat) (bits_ : Nat) (s : State) : forget μ (ordinary t w size bits_ s) = forget μ s := widen (a := 67108860) hm (by
  unfold ordinary
  repeat' (first | with_reducible rfl | simp only [↓retire__frame, ↓jumpTo_frame, ↓illegal_frame, ↓doLoad_frame, ↓doStore_frame, ↓doOpImm_frame, ↓doOpImmW_frame, ↓doOp_frame, ↓doOpW_frame, ↓doSystem_frame, ↓doAmo_frame, ↓set_out_frame, ↓set_free_frame, ↓set_regs_frame, ↓set_occ_frame, ↓set_shadow_frame, ↓set_cai_frame, ↓set_hif_frame, ↓set_qm_frame, ↓set_mac_frame, ↓set_mgt_frame, ↓set_prs_frame, ↓set_tbl_frame, ↓set_tm_frame, ↓set_tim_frame, ↓set_cry_frame, ↓set_rel_frame, ↓set_sto_frame, ↓set_dmv_frame, ↓set_svc_frame, ↓set_akz_frame, ↓set_dev_frame, ↓set_lastWork_frame, forget_ite, ite_self, forgetO_next, forgetO_ite, Nat.reduceOr] | split))

@[simp] theorem hFree_frame (μ : Nat) (hm : 2115084 ||| μ = μ) (t : Nat) (a : Nat) (s : State) : forget μ (hFree t a s) = forget μ s := widen (a := 2115084) hm (by
  unfold hFree
  (repeat' split) <;> simp)

@[simp] theorem beginWait_frame (μ : Nat) (hm : 2097152 ||| μ = μ) (t : Nat) (w : Wait) (deadline : Option Nat) (rd : Nat) (v : Nat) (s : State) : forget μ (beginWait t w deadline rd v s) = forget μ s := widen (a := 2097152) hm (by
  unfold beginWait
  simp)

@[simp] theorem hAlloc_frame (μ : Nat) (hm : 2114056 ||| μ = μ) (t : Nat) (rd : Nat) (n : Nat) (s : State) : forget μ (hAlloc t rd n s) = forget μ s := widen (a := 2114056) hm (by
  unfold hAlloc
  repeat' (first | with_reducible rfl | simp only [↓takeFree_frame, ↓retire__frame, ↓beginWait_frame, ↓set_free_frame, ↓set_qm_frame, ↓set_tm_frame, ↓set_svc_frame, forget_ite, ite_self, forgetO_next, forgetO_ite, Nat.reduceOr] | (refine Eq.trans (forget_foldS _ _ (fun _ _ => ?_) _ _) ?_) | (refine Eq.trans (congrArg (forget _) (congrArg Prod.snd ‹_ = (_, _)›).symm) ?_) | (refine Eq.trans (hallocNow_frame _ (by first | decide | exact or_trans rfl hm) _ _ _ _ _ ‹_›) ?_) | simp only [Option.getD] | split | dsimp only))

@[simp] theorem channelFault_frame (μ : Nat) (hm : 2097152 ||| μ = μ) (t : Nat) (c : Nat) (s : State) : forget μ (channelFault t c s) = forget μ s := widen (a := 2097152) hm (by
  unfold channelFault
  simp)

@[simp] theorem cPoll_frame (μ : Nat) (hm : 2097664 ||| μ = μ) (t : Nat) (rd : Nat) (a : Nat) (s : State) : forget μ (cPoll t rd a s) = forget μ s := widen (a := 2097664) hm (by
  unfold cPoll
  repeat' (first | with_reducible rfl | simp only [↓channelFault_frame, ↓retire__frame, ↓set_qm_frame, ↓set_svc_frame, forget_ite, ite_self, forgetO_next, forgetO_ite, Nat.reduceOr] | (refine Eq.trans (forget_foldS _ _ (fun _ _ => ?_) _ _) ?_) | (refine Eq.trans (congrArg (forget _) (congrArg Prod.snd ‹_ = (_, _)›).symm) ?_) | (refine Eq.trans (takeMsg_frame _ (by first | decide | exact or_trans rfl hm) _ _ _ (_, _) ‹_›) ?_) | (refine Eq.trans (takeMsg_frame _ (by first | decide | exact or_trans rfl hm) _ _ _ _ ‹_›) ?_) | simp only [Option.getD] | split | dsimp only))

@[simp] theorem cRecv_frame (μ : Nat) (hm : 2097664 ||| μ = μ) (t : Nat) (rd : Nat) (a : Nat) (b : Nat) (s : State) : forget μ (cRecv t rd a b s) = forget μ s := widen (a := 2097664) hm (by
  unfold cRecv
  repeat' (first | with_reducible rfl | simp only [↓channelFault_frame, ↓retire__frame, ↓beginWait_frame, ↓set_qm_frame, ↓set_svc_frame, forget_ite, ite_self, forgetO_next, forgetO_ite, Nat.reduceOr] | (refine Eq.trans (forget_foldS _ _ (fun _ _ => ?_) _ _) ?_) | (refine Eq.trans (congrArg (forget _) (congrArg Prod.snd ‹_ = (_, _)›).symm) ?_) | (refine Eq.trans (takeMsg_frame _ (by first | decide | exact or_trans rfl hm) _ _ _ (_, _) ‹_›) ?_) | (refine Eq.trans (takeMsg_frame _ (by first | decide | exact or_trans rfl hm) _ _ _ _ ‹_›) ?_) | simp only [Option.getD] | split | dsimp only))

@[simp] theorem cTrySend_frame (μ : Nat) (hm : 2097664 ||| μ = μ) (t : Nat) (rd : Nat) (a : Nat) (b : Nat) (s : State) : forget μ (cTrySend t rd a b s) = forget μ s := widen (a := 2097664) hm (by
  unfold cTrySend
  simp)

@[simp] theorem cSend_frame (μ : Nat) (hm : 2097664 ||| μ = μ) (t : Nat) (a : Nat) (b : Nat) (s : State) : forget μ (cSend t a b s) = forget μ s := widen (a := 2097664) hm (by
  unfold cSend
  simp)

@[simp] theorem tKill_frame (μ : Nat) (hm : 2097152 ||| μ = μ) (t : Nat) (a : Nat) (w : Nat) (s : State) : forget μ (tKill t a w s) = forget μ s := widen (a := 2097152) hm (by
  unfold tKill
  simp)

@[simp] theorem tJoin_frame (μ : Nat) (hm : 2097152 ||| μ = μ) (t : Nat) (rd : Nat) (a : Nat) (w : Nat) (s : State) : forget μ (tJoin t rd a w s) = forget μ s := widen (a := 2097152) hm (by
  unfold tJoin
  simp)

@[simp] theorem tFork_frame (μ : Nat) (hm : 2097152 ||| μ = μ) (t : Nat) (rd : Nat) (a : Nat) (b : Nat) (s : State) : forget μ (tFork t rd a b s) = forget μ s := widen (a := 2097152) hm (by
  unfold tFork
  (repeat' split) <;> simp)

@[simp] theorem extension_frame (μ : Nat) (hm : 2115084 ||| μ = μ) (t : Nat) (w : Nat) (s : State) : forget μ (extension t w s) = forget μ s := widen (a := 2115084) hm (by
  unfold extension
  (repeat' split) <;> simp)

@[simp] theorem issue_frame (μ : Nat) (hm : 67108860 ||| μ = μ) (p : Nat → Bool) (core : Nat) (s : State) : forget μ (issue p core s) = forget μ s := widen (a := 67108860) hm (by
  unfold issue
  repeat' (first | with_reducible rfl | simp only [↓takeStall_frame, ↓worked_frame, ↓modSvc_frame, ↓trap_frame, ↓countPoison_frame, ↓illegal_frame, ↓extension_frame, ↓ordinary_frame, ↓set_out_frame, ↓set_free_frame, ↓set_regs_frame, ↓set_occ_frame, ↓set_shadow_frame, ↓set_cai_frame, ↓set_hif_frame, ↓set_qm_frame, ↓set_mac_frame, ↓set_mgt_frame, ↓set_prs_frame, ↓set_tbl_frame, ↓set_tm_frame, ↓set_tim_frame, ↓set_cry_frame, ↓set_rel_frame, ↓set_sto_frame, ↓set_dmv_frame, ↓set_svc_frame, ↓set_akz_frame, ↓set_dev_frame, ↓set_lastWork_frame, forget_ite, ite_self, forgetO_next, forgetO_ite, Nat.reduceOr] | split))

/-- A word outside the standard opcodes is illegal. -/
theorem ordinary_custom (t w size own : Nat) (s : State) (h : opc w = 0x0B) : ordinary t w size own s = illegal t own s := by
  unfold ordinary
  rw [h]
  rfl

/-- What the issue of an instruction of the thread extension may change: what that instruction may, and what every issue may. -/
theorem issue_frame_of (μ : Nat) (hm : 35651600 ||| μ = μ) (f7 core : Nat) (s : State)
    (k : ∀ t w u, f3Of w = 0 → f7Of w = f7 → forget μ (extension t w u) = forget μ u) : forget μ (issue (isExt f7) core s) = forget μ s := by
  unfold issue
  split
  · rfl
  · split
    · rfl
    · rename_i i t _
      extract_lets s1 h s2
      have e1 : forget μ s1 = forget μ s := takeStall_frame μ (or_trans rfl hm) _ _
      have e2 : forget μ s2 = forget μ s :=
        (worked_frame μ (or_trans rfl hm) _ _).trans ((modSvc_frame μ (or_trans rfl hm) _ _).trans e1)
      clear_value s1 s2 h
      split
      · exact (trap_frame μ (or_trans rfl hm) _ _ _ _ _).trans e2
      · split
        · split
          · refine (trap_frame μ (or_trans rfl hm) _ _ _ _ _).trans ?_
            split
            · exact (countPoison_frame μ (or_trans rfl hm) _ _ _).trans e2
            · exact e2
          · rfl
        · split
          · exact (illegal_frame μ (or_trans rfl hm) _ _ _).trans e2
          · rfl
        · rename_i w size own _
          split
          · rfl
          · rename_i p
            simp only [isExt, Bool.not_eq_true', Bool.not_eq_false, Bool.and_eq_true, beq_iff_eq] at p
            split
            · exact (k _ _ _ p.1.2 p.2).trans e2
            · rw [ordinary_custom _ _ _ _ _ p.1.1]
              exact (illegal_frame μ (or_trans rfl hm) _ _ _).trans e2

theorem execTwait_frame (μ : Nat) (hm : 35651600 ||| μ = μ) (core : Nat) (s : State) : forgetO μ s (execTwait core s) = forget μ s := by
  unfold execTwait
  rw [forgetO_next]
  refine issue_frame_of μ (or_trans rfl hm) _ _ _ (fun t w u f3 f7 => ?_)
  simp only [extension, f3, f7, ne_eq, not_true_eq_false, if_false]
  repeat' (first | with_reducible rfl | with_reducible exact illegal_frame μ (or_trans rfl hm) _ _ _ | with_reducible exact retire__frame μ (or_trans rfl hm) _ _ _ _ _ | with_reducible exact beginWait_frame μ (or_trans rfl hm) _ _ _ _ _ _  | (with_reducible refine (retire__frame μ (or_trans rfl hm) _ _ _ _ _).trans ?_) | with_reducible exact modThread_frame μ (or_trans rfl hm) _ _ _ | split)

@[simp] theorem execCget_frame (μ : Nat) (hm : 35651600 ||| μ = μ) (core : Nat) (s : State) : forgetO μ s (execCget core s) = forget μ s := by
  unfold execCget
  rw [forgetO_next]
  refine issue_frame_of μ (or_trans rfl hm) _ _ _ (fun t w u f3 f7 => ?_)
  simp only [extension, f3, f7, ne_eq, not_true_eq_false, if_false]
  repeat' (first | with_reducible rfl | with_reducible exact illegal_frame μ (or_trans rfl hm) _ _ _ | with_reducible exact retire__frame μ (or_trans rfl hm) _ _ _ _ _ | (with_reducible refine (retire__frame μ (or_trans rfl hm) _ _ _ _ _).trans ?_) | with_reducible exact modThread_frame μ (or_trans rfl hm) _ _ _ | split)

@[simp] theorem execTkill_frame (μ : Nat) (hm : 35651600 ||| μ = μ) (core : Nat) (s : State) : forgetO μ s (execTkill core s) = forget μ s := by
  unfold execTkill
  rw [forgetO_next]
  refine issue_frame_of μ (or_trans rfl hm) _ _ _ (fun t w u f3 f7 => ?_)
  simp only [extension, f3, f7, ne_eq, not_true_eq_false, if_false]
  repeat' (first | with_reducible rfl | with_reducible exact illegal_frame μ (or_trans rfl hm) _ _ _ | with_reducible exact retire__frame μ (or_trans rfl hm) _ _ _ _ _ | with_reducible exact tKill_frame μ (or_trans rfl hm) _ _ _ _  | (with_reducible refine (retire__frame μ (or_trans rfl hm) _ _ _ _ _).trans ?_) | with_reducible exact modThread_frame μ (or_trans rfl hm) _ _ _ | split)

@[simp] theorem execCclear_frame (μ : Nat) (hm : 35651600 ||| μ = μ) (core : Nat) (s : State) : forgetO μ s (execCclear core s) = forget μ s := by
  unfold execCclear
  rw [forgetO_next]
  refine issue_frame_of μ (or_trans rfl hm) _ _ _ (fun t w u f3 f7 => ?_)
  simp only [extension, f3, f7, ne_eq, not_true_eq_false, if_false]
  repeat' (first | with_reducible rfl | with_reducible exact illegal_frame μ (or_trans rfl hm) _ _ _ | with_reducible exact retire__frame μ (or_trans rfl hm) _ _ _ _ _ | (with_reducible refine (retire__frame μ (or_trans rfl hm) _ _ _ _ _).trans ?_) | with_reducible exact modThread_frame μ (or_trans rfl hm) _ _ _ | split)

@[simp] theorem execCput_frame (μ : Nat) (hm : 35651600 ||| μ = μ) (core : Nat) (s : State) : forgetO μ s (execCput core s) = forget μ s := by
  unfold execCput
  rw [forgetO_next]
  refine issue_frame_of μ (or_trans rfl hm) _ _ _ (fun t w u f3 f7 => ?_)
  simp only [extension, f3, f7, ne_eq, not_true_eq_false, if_false]
  repeat' (first | with_reducible rfl | with_reducible exact illegal_frame μ (or_trans rfl hm) _ _ _ | with_reducible exact retire__frame μ (or_trans rfl hm) _ _ _ _ _ | (with_reducible refine (retire__frame μ (or_trans rfl hm) _ _ _ _ _).trans ?_) | with_reducible exact modThread_frame μ (or_trans rfl hm) _ _ _ | split)

@[simp] theorem execInstructionIssue_frame (μ : Nat) (hm : 67108860 ||| μ = μ) (core : Nat) (s : State) : forgetO μ s (execInstructionIssue core s) = forget μ s := widenO (a := 67108860) hm (by
  unfold execInstructionIssue
  simp)

@[simp] theorem execTexit_frame (μ : Nat) (hm : 35651600 ||| μ = μ) (core : Nat) (s : State) : forgetO μ s (execTexit core s) = forget μ s := by
  unfold execTexit
  rw [forgetO_next]
  refine issue_frame_of μ (or_trans rfl hm) _ _ _ (fun t w u f3 f7 => ?_)
  simp only [extension, f3, f7, ne_eq, not_true_eq_false, if_false]
  repeat' (first | with_reducible rfl | with_reducible exact illegal_frame μ (or_trans rfl hm) _ _ _ | with_reducible exact retire__frame μ (or_trans rfl hm) _ _ _ _ _ | with_reducible exact endThread_frame μ (or_trans rfl hm) _ _ _  | (with_reducible refine (retire__frame μ (or_trans rfl hm) _ _ _ _ _).trans ?_) | with_reducible exact modThread_frame μ (or_trans rfl hm) _ _ _ | split)

@[simp] theorem execHfree_frame (μ : Nat) (hm : 35669532 ||| μ = μ) (core : Nat) (s : State) : forgetO μ s (execHfree core s) = forget μ s := by
  unfold execHfree
  rw [forgetO_next]
  refine issue_frame_of μ (or_trans rfl hm) _ _ _ (fun t w u f3 f7 => ?_)
  simp only [extension, f3, f7, ne_eq, not_true_eq_false, if_false]
  repeat' (first | with_reducible rfl | with_reducible exact illegal_frame μ (or_trans rfl hm) _ _ _ | with_reducible exact retire__frame μ (or_trans rfl hm) _ _ _ _ _ | with_reducible exact hFree_frame μ (or_trans rfl hm) _ _ _  | (with_reducible refine (retire__frame μ (or_trans rfl hm) _ _ _ _ _).trans ?_) | with_reducible exact modThread_frame μ (or_trans rfl hm) _ _ _ | split)

@[simp] theorem execTjoin_frame (μ : Nat) (hm : 35651600 ||| μ = μ) (core : Nat) (s : State) : forgetO μ s (execTjoin core s) = forget μ s := by
  unfold execTjoin
  rw [forgetO_next]
  refine issue_frame_of μ (or_trans rfl hm) _ _ _ (fun t w u f3 f7 => ?_)
  simp only [extension, f3, f7, ne_eq, not_true_eq_false, if_false]
  repeat' (first | with_reducible rfl | with_reducible exact illegal_frame μ (or_trans rfl hm) _ _ _ | with_reducible exact retire__frame μ (or_trans rfl hm) _ _ _ _ _ | with_reducible exact tJoin_frame μ (or_trans rfl hm) _ _ _ _ _  | (with_reducible refine (retire__frame μ (or_trans rfl hm) _ _ _ _ _).trans ?_) | with_reducible exact modThread_frame μ (or_trans rfl hm) _ _ _ | split)

@[simp] theorem execHalloc_frame (μ : Nat) (hm : 35668504 ||| μ = μ) (core : Nat) (s : State) : forgetO μ s (execHalloc core s) = forget μ s := by
  unfold execHalloc
  rw [forgetO_next]
  refine issue_frame_of μ (or_trans rfl hm) _ _ _ (fun t w u f3 f7 => ?_)
  simp only [extension, f3, f7, ne_eq, not_true_eq_false, if_false]
  repeat' (first | with_reducible rfl | with_reducible exact illegal_frame μ (or_trans rfl hm) _ _ _ | with_reducible exact retire__frame μ (or_trans rfl hm) _ _ _ _ _ | with_reducible exact hAlloc_frame μ (or_trans rfl hm) _ _ _ _  | (with_reducible refine (retire__frame μ (or_trans rfl hm) _ _ _ _ _).trans ?_) | with_reducible exact modThread_frame μ (or_trans rfl hm) _ _ _ | split)

@[simp] theorem execCpoll_frame (μ : Nat) (hm : 35652112 ||| μ = μ) (core : Nat) (s : State) : forgetO μ s (execCpoll core s) = forget μ s := by
  unfold execCpoll
  rw [forgetO_next]
  refine issue_frame_of μ (or_trans rfl hm) _ _ _ (fun t w u f3 f7 => ?_)
  simp only [extension, f3, f7, ne_eq, not_true_eq_false, if_false]
  repeat' (first | with_reducible rfl | with_reducible exact illegal_frame μ (or_trans rfl hm) _ _ _ | with_reducible exact retire__frame μ (or_trans rfl hm) _ _ _ _ _ | with_reducible exact cPoll_frame μ (or_trans rfl hm) _ _ _ _  | (with_reducible refine (retire__frame μ (or_trans rfl hm) _ _ _ _ _).trans ?_) | with_reducible exact modThread_frame μ (or_trans rfl hm) _ _ _ | split)

@[simp] theorem execCrecv_frame (μ : Nat) (hm : 35652112 ||| μ = μ) (core : Nat) (s : State) : forgetO μ s (execCrecv core s) = forget μ s := by
  unfold execCrecv
  rw [forgetO_next]
  refine issue_frame_of μ (or_trans rfl hm) _ _ _ (fun t w u f3 f7 => ?_)
  simp only [extension, f3, f7, ne_eq, not_true_eq_false, if_false]
  repeat' (first | with_reducible rfl | with_reducible exact illegal_frame μ (or_trans rfl hm) _ _ _ | with_reducible exact retire__frame μ (or_trans rfl hm) _ _ _ _ _ | with_reducible exact cRecv_frame μ (or_trans rfl hm) _ _ _ _ _  | (with_reducible refine (retire__frame μ (or_trans rfl hm) _ _ _ _ _).trans ?_) | with_reducible exact modThread_frame μ (or_trans rfl hm) _ _ _ | split)

@[simp] theorem execCtrysend_frame (μ : Nat) (hm : 35652112 ||| μ = μ) (core : Nat) (s : State) : forgetO μ s (execCtrysend core s) = forget μ s := by
  unfold execCtrysend
  rw [forgetO_next]
  refine issue_frame_of μ (or_trans rfl hm) _ _ _ (fun t w u f3 f7 => ?_)
  simp only [extension, f3, f7, ne_eq, not_true_eq_false, if_false]
  repeat' (first | with_reducible rfl | with_reducible exact illegal_frame μ (or_trans rfl hm) _ _ _ | with_reducible exact retire__frame μ (or_trans rfl hm) _ _ _ _ _ | with_reducible exact cTrySend_frame μ (or_trans rfl hm) _ _ _ _ _  | (with_reducible refine (retire__frame μ (or_trans rfl hm) _ _ _ _ _).trans ?_) | with_reducible exact modThread_frame μ (or_trans rfl hm) _ _ _ | split)

@[simp] theorem execCsend_frame (μ : Nat) (hm : 35652112 ||| μ = μ) (core : Nat) (s : State) : forgetO μ s (execCsend core s) = forget μ s := by
  unfold execCsend
  rw [forgetO_next]
  refine issue_frame_of μ (or_trans rfl hm) _ _ _ (fun t w u f3 f7 => ?_)
  simp only [extension, f3, f7, ne_eq, not_true_eq_false, if_false]
  repeat' (first | with_reducible rfl | with_reducible exact illegal_frame μ (or_trans rfl hm) _ _ _ | with_reducible exact retire__frame μ (or_trans rfl hm) _ _ _ _ _ | with_reducible exact cSend_frame μ (or_trans rfl hm) _ _ _ _  | (with_reducible refine (retire__frame μ (or_trans rfl hm) _ _ _ _ _).trans ?_) | with_reducible exact modThread_frame μ (or_trans rfl hm) _ _ _ | split)

@[simp] theorem execTfork_frame (μ : Nat) (hm : 35651600 ||| μ = μ) (core : Nat) (s : State) : forgetO μ s (execTfork core s) = forget μ s := by
  unfold execTfork
  rw [forgetO_next]
  refine issue_frame_of μ (or_trans rfl hm) _ _ _ (fun t w u f3 f7 => ?_)
  simp only [extension, f3, f7, ne_eq, not_true_eq_false, if_false]
  repeat' (first | with_reducible rfl | with_reducible exact illegal_frame μ (or_trans rfl hm) _ _ _ | with_reducible exact retire__frame μ (or_trans rfl hm) _ _ _ _ _ | with_reducible exact tFork_frame μ (or_trans rfl hm) _ _ _ _ _  | (with_reducible refine (retire__frame μ (or_trans rfl hm) _ _ _ _ _).trans ?_) | with_reducible exact modThread_frame μ (or_trans rfl hm) _ _ _ | split)

end Sys2Proof.Machine
end

