-- ==== Sys2Proof/Laws/FramePins.lean ====
section
/-!
SUPPORT. Frames of the operations of Machine/Pins.lean: the parts of the state that each can change.
-/
namespace Sys2Proof.Machine
set_option linter.all false

@[simp] theorem releasePins_frame (μ : Nat) (hm : 4 ||| μ = μ) (s : State) : forget μ (releasePins s) = forget μ s := widen (a := 4) hm (by
  unfold releasePins
  repeat' (first | with_reducible rfl | simp only [↓emit_frame, Nat.reduceOr] | (refine Eq.trans (forget_foldS _ _ (fun _ _ => ?_) _ _) ?_) | (refine Eq.trans (congrArg (forget _) (congrArg Prod.snd ‹_ = (_, _)›).symm) ?_) | split | dsimp only))

end Sys2Proof.Machine
end

