-- ==== Sys2Proof/Laws/FramePower.lean ====
section
/-!
SUPPORT. Frames of the operations of Machine/Power.lean: the parts of the state that each can change.
-/
namespace Sys2Proof.Machine
set_option linter.all false

@[simp] theorem takeReading_frame (μ : Nat) (hm : 2097840 ||| μ = μ) (sensor : Nat) (v : Int) (s : State) : forget μ (takeReading sensor v s) = forget μ s := widen (a := 2097840) hm (by
  unfold takeReading
  simp)

@[simp] theorem execThermalWarnRearm_frame (μ : Nat) (hm : 2097840 ||| μ = μ) (sensor : Nat) (reading : Int) (s : State) : forgetO μ s (execThermalWarnRearm sensor reading s) = forget μ s := widenO (a := 2097840) hm (by
  unfold execThermalWarnRearm
  simp)

@[simp] theorem execThermalTrip_frame (μ : Nat) (hm : 16646076 ||| μ = μ) (sensor : Nat) (reading : Int) (s : State) : forgetO μ s (execThermalTrip sensor reading s) = forget μ s := widenO (a := 16646076) hm (by
  unfold execThermalTrip
  simp)

@[simp] theorem execPcieRefclkReturn_frame (μ : Nat) (hm : 384 ||| μ = μ) (half : Nat) (s : State) : forgetO μ s (execPcieRefclkReturn half s) = forget μ s := widenO (a := 384) hm (by
  unfold execPcieRefclkReturn
  simp)

@[simp] theorem railsRemoved_frame (μ : Nat) (hm : 8527876 ||| μ = μ) (s : State) : forget μ (railsRemoved s) = forget μ s := by
  have b := bit_of_or hm
  unfold railsRemoved
  dsimp only
  split <;> simp only [forget, emit, b 2 rfl, b 13 rfl, b 17 rfl, b 23 rfl, if_true]

@[simp] theorem execTapInstruction_frame (μ : Nat) (hm : 140 ||| μ = μ) (code : TapCode) (data : Nat) (s : State) : forgetO μ s (execTapInstruction code data s) = forget μ s := widenO (a := 140) hm (by
  unfold execTapInstruction
  (repeat' split) <;> simp)

@[simp] theorem modRail_frame (μ : Nat) (hm : 128 ||| μ = μ) (r : Rail) (g : RailSt → RailSt) (s : State) : forget μ (modRail r g s) = forget μ s := widen (a := 128) hm (by
  unfold modRail
  simp)

@[simp] theorem execRailGood_frame (μ : Nat) (hm : 33158 ||| μ = μ) (rail : Rail) (s : State) : forgetO μ s (execRailGood rail s) = forget μ s := widenO (a := 33158) hm (by
  unfold execRailGood
  simp)

@[simp] theorem execPorstAssert_frame (μ : Nat) (hm : 50331636 ||| μ = μ) (s : State) : forgetO μ s (execPorstAssert s) = forget μ s := widenO (a := 50331636) hm (by
  unfold execPorstAssert
  simp)

@[simp] theorem execSysclkReturn_frame (μ : Nat) (hm : 2130612 ||| μ = μ) (s : State) : forgetO μ s (execSysclkReturn s) = forget μ s := widenO (a := 2130612) hm (by
  unfold execSysclkReturn
  simp)

@[simp] theorem execRailFault_frame (μ : Nat) (hm : 16777148 ||| μ = μ) (loss : RailLoss) (s : State) : forgetO μ s (execRailFault loss s) = forget μ s := widenO (a := 16777148) hm (by
  unfold execRailFault
  (repeat' split) <;> simp)

@[simp] theorem execThermalWarn_frame (μ : Nat) (hm : 2097840 ||| μ = μ) (sensor : Nat) (reading : Int) (s : State) : forgetO μ s (execThermalWarn sensor reading s) = forget μ s := widenO (a := 2097840) hm (by
  unfold execThermalWarn
  simp)

@[simp] theorem execThermalRecover_frame (μ : Nat) (hm : 2097840 ||| μ = μ) (readings : List Int) (s : State) : forgetO μ s (execThermalRecover readings s) = forget μ s := widenO (a := 2097840) hm (by
  unfold execThermalRecover
  repeat' (first | with_reducible rfl | simp only [↓takeReading_frame, ↓setWake_frame, ↓modCai_frame, ite_self, forgetO_next, forgetO_ite, Nat.reduceOr] | (refine Eq.trans (forget_foldS _ _ (fun _ _ => ?_) _ _) ?_) | (refine Eq.trans (congrArg (forget _) (congrArg Prod.snd ‹_ = (_, _)›).symm) ?_) | split | dsimp only))

@[simp] theorem execAonRailLoss_frame (μ : Nat) (hm : 50331636 ||| μ = μ) (s : State) : forgetO μ s (execAonRailLoss s) = forget μ s := widenO (a := 50331636) hm (by
  unfold execAonRailLoss
  simp)

@[simp] theorem execRailOrder_frame (μ : Nat) (hm : 16646076 ||| μ = μ) (rail : Rail) (s : State) : forgetO μ s (execRailOrder rail s) = forget μ s := widenO (a := 16646076) hm (by
  unfold execRailOrder
  simp)

@[simp] theorem execWakeAtReached_frame (μ : Nat) (hm : 2130582 ||| μ = μ) (s : State) : forgetO μ s (execWakeAtReached s) = forget μ s := widenO (a := 2130582) hm (by
  unfold execWakeAtReached
  simp)

@[simp] theorem execMctpMessage_frame (μ : Nat) (hm : 2097796 ||| μ = μ) (body : Bytes) (s : State) : forgetO μ s (execMctpMessage body s) = forget μ s := widenO (a := 2097796) hm (by
  unfold execMctpMessage
  simp)

@[simp] theorem execPcieRefclkLoss_frame (μ : Nat) (hm : 3794876 ||| μ = μ) (half : Nat) (s : State) : forgetO μ s (execPcieRefclkLoss half s) = forget μ s := widenO (a := 3794876) hm (by
  unfold execPcieRefclkLoss
  simp)

@[simp] theorem execSysclkFault_frame (μ : Nat) (hm : 32944 ||| μ = μ) (s : State) : forgetO μ s (execSysclkFault s) = forget μ s := widenO (a := 32944) hm (by
  unfold execSysclkFault
  simp)

@[simp] theorem execPorstDeassert_frame (μ : Nat) (hm : 50331638 ||| μ = μ) (straps : BitVec 8) (s : State) : forgetO μ s (execPorstDeassert straps s) = forget μ s := widenO (a := 50331638) hm (by
  unfold execPorstDeassert
  simp)

@[simp] theorem execAonRailUp_frame (μ : Nat) (hm : 50331632 ||| μ = μ) (s : State) : forgetO μ s (execAonRailUp s) = forget μ s := widenO (a := 50331632) hm (by
  unfold execAonRailUp
  simp)

end Sys2Proof.Machine
end

