-- ==== Sys2Proof/Laws/FrameSpdm.lean ====
section
/-!
SUPPORT. Frames of the operations of Machine/Spdm.lean: the parts of the state that each can change.
-/
namespace Sys2Proof.Machine
set_option linter.all false

@[simp] theorem modDoe_frame (μ : Nat) (hm : 256 ||| μ = μ) (h : Nat) (g : Doe → Doe) (s : State) : forget μ (modDoe h g s) = forget μ s := widen (a := 256) hm (by
  unfold modDoe
  simp)

@[simp] theorem doeAnswer_frame (μ : Nat) (hm : 260 ||| μ = μ) (h : Nat) (code : Nat) (body : Bytes) (s : State) : forget μ (doeAnswer h code body s) = forget μ s := widen (a := 260) hm (by
  unfold doeAnswer
  simp)

@[simp] theorem spdmError_frame (μ : Nat) (hm : 260 ||| μ = μ) (h : Nat) (code : Nat) (s : State) : forget μ (spdmError h code s) = forget μ s := widen (a := 260) hm (by
  unfold spdmError
  simp)

@[simp] theorem encapsulated_frame (μ : Nat) (hm : 260 ||| μ = μ) (half : Nat) (code : Nat) (s : State) : forget μ (encapsulated half code s) = forget μ s := widen (a := 260) hm (by
  unfold encapsulated
  (repeat' split) <;> simp)

@[simp] theorem dropSession_frame (μ : Nat) (hm : 256 ||| μ = μ) (h : Nat) (id : Nat) (s : State) : forget μ (dropSession h id s) = forget μ s := widen (a := 256) hm (by
  unfold dropSession
  simp)

@[simp] theorem noDigest_frame (μ : Nat) (hm : 8 ||| μ = μ) (s : State) : forget μ (noDigest s).2 = forget μ s := widen (a := 8) hm (by
  unfold noDigest
  simp)

@[simp] theorem modIde_frame (μ : Nat) (hm : 256 ||| μ = μ) (h : Nat) (k : Nat) (g : Ide → Ide) (s : State) : forget μ (modIde h k g s) = forget μ s := widen (a := 256) hm (by
  unfold modIde
  simp)

@[simp] theorem ideProg_frame (μ : Nat) (hm : 260 ||| μ = μ) (h : Nat) (stream : Nat) (sub : Nat) (dir : Nat) (set : Nat) (key : Nat) (iv : Nat) (s : State) : forget μ (ideProg h stream sub dir set key iv s) = forget μ s := widen (a := 260) hm (by
  unfold ideProg
  simp)

theorem negotiated_frame (μ : Nat) (hm : 260 ||| μ = μ) (half : Nat) (g : State → State) (s : State) (h_g : ∀ v0, forget μ (g v0) = forget μ v0) : forgetO μ s (negotiated half g s) = forget μ s := by
  unfold negotiated
  repeat' (first | with_reducible rfl | simp only [↓(spdmError_frame μ (or_trans (a := 260) (b := 260) rfl hm)), ite_self, forgetO_next, forgetO_ite, h_g] | (refine Eq.trans (forget_foldS _ _ (fun _ _ => ?_) _ _) ?_) | (refine Eq.trans (congrArg (forget _) (congrArg Prod.snd ‹_ = (_, _)›).symm) ?_) | split | dsimp only)

@[simp] theorem execKeyExchange_frame (μ : Nat) (hm : 260 ||| μ = μ) (half : Nat) (slot : Nat) (reqId : Nat) (exchange : Nat) (s : State) : forgetO μ s (execKeyExchange half slot reqId exchange s) = forget μ s := widenO (a := 260) hm (by
  unfold execKeyExchange
  repeat' (first | with_reducible rfl | simp only [↓spdmError_frame, ↓doeAnswer_frame, ↓modDoe_frame, forget_ite, ite_self, Nat.reduceOr] | (refine Eq.trans (negotiated_frame _ (by first | decide | exact or_trans rfl hm) _ _ _ (fun _ => ?_)) ?_) | (refine Eq.trans (forget_foldS _ _ (fun _ _ => ?_) _ _) ?_) | (refine Eq.trans (congrArg (forget _) (congrArg Prod.snd ‹_ = (_, _)›).symm) ?_) | split | dsimp only))

@[simp] theorem clearVf_frame (μ : Nat) (hm : 3237660 ||| μ = μ) (f : Fn) (s : State) : forget μ (clearVf f s) = forget μ s := widen (a := 3237660) hm (by
  unfold clearVf
  repeat' (first | with_reducible rfl | simp only [↓keyClear_frame, ↓releaseLocks_frame, ↓abortMailbox_frame, ↓modQm_frame, ↓dropJobs_frame, ↓orphan_frame, ↓dropWaiting_frame, ↓modFn_frame, Nat.reduceOr] | (refine Eq.trans (forget_foldS _ _ (fun _ _ => ?_) _ _) ?_) | (refine Eq.trans (congrArg (forget _) (congrArg Prod.snd ‹_ = (_, _)›).symm) ?_) | split | dsimp only))

@[simp] theorem ideStop_frame (μ : Nat) (hm : 260 ||| μ = μ) (h : Nat) (stream : Nat) (sub : Nat) (dir : Nat) (set : Nat) (s : State) : forget μ (ideStop h stream sub dir set s) = forget μ s := widen (a := 260) hm (by
  unfold ideStop
  simp)

@[simp] theorem execChallenge_frame (μ : Nat) (hm : 268 ||| μ = μ) (half : Nat) (slot : Nat) (nonce : Nat) (kind : Nat) (s : State) : forgetO μ s (execChallenge half slot nonce kind s) = forget μ s := widenO (a := 268) hm (by
  unfold execChallenge
  repeat' (first | with_reducible rfl | simp only [↓spdmError_frame, ↓takeFree_frame, ↓doeAnswer_frame, forget_ite, ite_self, Nat.reduceOr] | (refine Eq.trans (negotiated_frame _ (by first | decide | exact or_trans rfl hm) _ _ _ (fun _ => ?_)) ?_) | (refine Eq.trans (forget_foldS _ _ (fun _ _ => ?_) _ _) ?_) | (refine Eq.trans (congrArg (forget _) (congrArg Prod.snd ‹_ = (_, _)›).symm) ?_) | split | dsimp only))

theorem inSession_frame (μ : Nat) (hm : 260 ||| μ = μ) (half : Nat) (session : Nat) (g : State → State) (s : State) (h_g : ∀ v0, forget μ (g v0) = forget μ v0) : forgetO μ s (inSession half session g s) = forget μ s := by
  unfold inSession
  repeat' (first | with_reducible rfl | simp only [↓(spdmError_frame μ (or_trans (a := 260) (b := 260) rfl hm)), forget_ite, ite_self, h_g] | (refine Eq.trans (negotiated_frame _ (by first | decide | exact or_trans rfl hm) _ _ _ (fun _ => ?_)) ?_) | (refine Eq.trans (forget_foldS _ _ (fun _ _ => ?_) _ _) ?_) | (refine Eq.trans (congrArg (forget _) (congrArg Prod.snd ‹_ = (_, _)›).symm) ?_) | split | dsimp only)

@[simp] theorem tdisp_frame (μ : Nat) (hm : 260 ||| μ = μ) (h : Nat) (kind : Nat) (body : Bytes) (s : State) : forget μ (tdisp h kind body s) = forget μ s := widen (a := 260) hm (by
  unfold tdisp
  simp)

@[simp] theorem tdispError_frame (μ : Nat) (hm : 260 ||| μ = μ) (h : Nat) (code : Nat) (s : State) : forget μ (tdispError h code s) = forget μ s := widen (a := 260) hm (by
  unfold tdispError
  simp)

@[simp] theorem ideGo_frame (μ : Nat) (hm : 260 ||| μ = μ) (h : Nat) (stream : Nat) (sub : Nat) (dir : Nat) (set : Nat) (s : State) : forget μ (ideGo h stream sub dir set s) = forget μ s := widen (a := 260) hm (by
  unfold ideGo
  simp)

@[simp] theorem execStopInterface_frame (μ : Nat) (hm : 3237660 ||| μ = μ) (f : Fn) (s : State) : forgetO μ s (execStopInterface f s) = forget μ s := widenO (a := 3237660) hm (by
  unfold execStopInterface
  simp)

@[simp] theorem modSession_frame (μ : Nat) (hm : 256 ||| μ = μ) (h : Nat) (id : Nat) (g : SpdmSession → SpdmSession) (s : State) : forget μ (modSession h id g s) = forget μ s := widen (a := 256) hm (by
  unfold modSession
  simp)

@[simp] theorem execFinish_frame (μ : Nat) (hm : 260 ||| μ = μ) (half : Nat) (session : Nat) (verified : Bool) (s : State) : forgetO μ s (execFinish half session verified s) = forget μ s := widenO (a := 260) hm (by
  unfold execFinish
  repeat' (first | with_reducible rfl | simp only [↓spdmError_frame, ↓doeAnswer_frame, ↓modSession_frame, ↓dropSession_frame, forget_ite, ite_self, Nat.reduceOr] | (refine Eq.trans (negotiated_frame _ (by first | decide | exact or_trans rfl hm) _ _ _ (fun _ => ?_)) ?_) | (refine Eq.trans (forget_foldS _ _ (fun _ _ => ?_) _ _) ?_) | (refine Eq.trans (congrArg (forget _) (congrArg Prod.snd ‹_ = (_, _)›).symm) ?_) | split | dsimp only))

@[simp] theorem execEndSession_frame (μ : Nat) (hm : 260 ||| μ = μ) (half : Nat) (session : Nat) (s : State) : forgetO μ s (execEndSession half session s) = forget μ s := widenO (a := 260) hm (by
  unfold execEndSession
  repeat' (first | with_reducible rfl | simp only [↓doeAnswer_frame, ↓dropSession_frame, Nat.reduceOr] | (refine Eq.trans (inSession_frame _ (by first | decide | exact or_trans rfl hm) _ _ _ _ (fun _ => ?_)) ?_) | (refine Eq.trans (forget_foldS _ _ (fun _ _ => ?_) _ _) ?_) | (refine Eq.trans (congrArg (forget _) (congrArg Prod.snd ‹_ = (_, _)›).symm) ?_) | split | dsimp only))

@[simp] theorem execGetDigests_frame (μ : Nat) (hm : 260 ||| μ = μ) (half : Nat) (s : State) : forgetO μ s (execGetDigests half s) = forget μ s := widenO (a := 260) hm (by
  unfold execGetDigests
  repeat' (first | with_reducible rfl | simp only [↓doeAnswer_frame, Nat.reduceOr] | (refine Eq.trans (negotiated_frame _ (by first | decide | exact or_trans rfl hm) _ _ _ (fun _ => ?_)) ?_) | (refine Eq.trans (forget_foldS _ _ (fun _ _ => ?_) _ _) ?_) | (refine Eq.trans (congrArg (forget _) (congrArg Prod.snd ‹_ = (_, _)›).symm) ?_) | split | dsimp only))

@[simp] theorem measurement_frame (μ : Nat) (hm : 8 ||| μ = μ) (i : Nat) (s : State) : forget μ (measurement i s).2 = forget μ s := widen (a := 8) hm (by
  unfold measurement
  (repeat' split) <;> simp)

@[simp] theorem execGetCertificate_frame (μ : Nat) (hm : 260 ||| μ = μ) (half : Nat) (slot : Nat) (off : Nat) (len : Nat) (s : State) : forgetO μ s (execGetCertificate half slot off len s) = forget μ s := widenO (a := 260) hm (by
  unfold execGetCertificate
  repeat' (first | with_reducible rfl | simp only [↓spdmError_frame, ↓doeAnswer_frame, forget_ite, ite_self, Nat.reduceOr] | (refine Eq.trans (negotiated_frame _ (by first | decide | exact or_trans rfl hm) _ _ _ (fun _ => ?_)) ?_) | (refine Eq.trans (forget_foldS _ _ (fun _ _ => ?_) _ _) ?_) | (refine Eq.trans (congrArg (forget _) (congrArg Prod.snd ‹_ = (_, _)›).symm) ?_) | split | dsimp only))

@[simp] theorem execIdeIntegrityFailure_frame (μ : Nat) (hm : 3744512 ||| μ = μ) (half : Nat) (stream : Nat) (s : State) : forgetO μ s (execIdeIntegrityFailure half stream s) = forget μ s := widenO (a := 3744512) hm (by
  unfold execIdeIntegrityFailure
  repeat' (first | with_reducible rfl | simp only [↓modIde_frame, ↓deliver_frame, ↓setSlot_frame, ↓tdiError_frame, ↓raise_frame, forgetO_next, forgetO_ite, Nat.reduceOr] | (refine Eq.trans (forget_foldS _ _ (fun _ _ => ?_) _ _) ?_) | (refine Eq.trans (congrArg (forget _) (congrArg Prod.snd ‹_ = (_, _)›).symm) ?_) | split | dsimp only))

@[simp] theorem tdiStart_frame (μ : Nat) (hm : 260 ||| μ = μ) (h : Nat) (f : Fn) (nonce : Nat) (s : State) : forget μ (tdiStart h f nonce s) = forget μ s := widen (a := 260) hm (by
  unfold tdiStart
  simp)

@[simp] theorem tdiLock_frame (μ : Nat) (hm : 268 ||| μ = μ) (h : Nat) (f : Fn) (stream : Nat) (s : State) : forget μ (tdiLock h f stream s) = forget μ s := widen (a := 268) hm (by
  unfold tdiLock
  simp)

@[simp] theorem vendorMsg_frame (μ : Nat) (hm : 268 ||| μ = μ) (h : Nat) (m : VendorMsg) (s : State) : forget μ (vendorMsg h m s) = forget μ s := widen (a := 268) hm (by
  unfold vendorMsg
  (repeat' split) <;> simp)

@[simp] theorem execVendorDefinedRequest_frame (μ : Nat) (hm : 268 ||| μ = μ) (half : Nat) (session : Nat) (msg : VendorMsg) (s : State) : forgetO μ s (execVendorDefinedRequest half session msg s) = forget μ s := widenO (a := 268) hm (by
  unfold execVendorDefinedRequest
  repeat' (first | with_reducible rfl | simp only [↓vendorMsg_frame, Nat.reduceOr] | (refine Eq.trans (inSession_frame _ (by first | decide | exact or_trans rfl hm) _ _ _ _ (fun _ => ?_)) ?_) | (refine Eq.trans (forget_foldS _ _ (fun _ _ => ?_) _ _) ?_) | (refine Eq.trans (congrArg (forget _) (congrArg Prod.snd ‹_ = (_, _)›).symm) ?_) | split | dsimp only))

@[simp] theorem execHeartbeat_frame (μ : Nat) (hm : 260 ||| μ = μ) (half : Nat) (session : Nat) (s : State) : forgetO μ s (execHeartbeat half session s) = forget μ s := widenO (a := 260) hm (by
  unfold execHeartbeat
  repeat' (first | with_reducible rfl | simp only [↓doeAnswer_frame, Nat.reduceOr] | (refine Eq.trans (inSession_frame _ (by first | decide | exact or_trans rfl hm) _ _ _ _ (fun _ => ?_)) ?_) | (refine Eq.trans (forget_foldS _ _ (fun _ _ => ?_) _ _) ?_) | (refine Eq.trans (congrArg (forget _) (congrArg Prod.snd ‹_ = (_, _)›).symm) ?_) | split | dsimp only))

@[simp] theorem execKeyUpdate_frame (μ : Nat) (hm : 260 ||| μ = μ) (half : Nat) (session : Nat) (operation : Nat) (s : State) : forgetO μ s (execKeyUpdate half session operation s) = forget μ s := widenO (a := 260) hm (by
  unfold execKeyUpdate
  repeat' (first | with_reducible rfl | simp only [↓spdmError_frame, ↓doeAnswer_frame, ↓modSession_frame, forget_ite, ite_self, Nat.reduceOr] | (refine Eq.trans (inSession_frame _ (by first | decide | exact or_trans rfl hm) _ _ _ _ (fun _ => ?_)) ?_) | (refine Eq.trans (forget_foldS _ _ (fun _ _ => ?_) _ _) ?_) | (refine Eq.trans (congrArg (forget _) (congrArg Prod.snd ‹_ = (_, _)›).symm) ?_) | split | dsimp only))

@[simp] theorem measurements_frame (μ : Nat) (hm : 8 ||| μ = μ) : ∀ (l : List Nat) (s : State), forget μ (measurements l s).2 = forget μ s
  | [], _ => rfl
  | i :: l, s => (measurements_frame μ hm l (measurement i s).2).trans (measurement_frame μ (or_trans rfl hm) i s)

@[simp] theorem execGetMeasurements_frame (μ : Nat) (hm : 268 ||| μ = μ) (half : Nat) (index : Nat) (nonce : Nat) (signed_ : Bool) (s : State) : forgetO μ s (execGetMeasurements half index nonce signed_ s) = forget μ s := widenO (a := 268) hm (by
  unfold execGetMeasurements
  repeat' (first | with_reducible rfl | simp only [↓takeFree_frame, ↓doeAnswer_frame, ↓measurements_frame, ↓spdmError_frame, forget_ite, ite_self, Nat.reduceOr] | (refine Eq.trans (negotiated_frame _ (by first | decide | exact or_trans rfl hm) _ _ _ (fun _ => ?_)) ?_) | (refine Eq.trans (forget_foldS _ _ (fun _ _ => ?_) _ _) ?_) | (refine Eq.trans (congrArg (forget _) (congrArg Prod.snd ‹_ = (_, _)›).symm) ?_) | split | dsimp only))

@[simp] theorem execNegotiateAlgorithms_frame (μ : Nat) (hm : 260 ||| μ = μ) (half : Nat) (baseAsym : Nat) (baseHash : Nat) (dhe : Nat) (aead : Nat) (s : State) : forgetO μ s (execNegotiateAlgorithms half baseAsym baseHash dhe aead s) = forget μ s := widenO (a := 260) hm (by
  unfold execNegotiateAlgorithms
  simp)

@[simp] theorem execGetCapabilities_frame (μ : Nat) (hm : 260 ||| μ = μ) (half : Nat) (version : Nat) (s : State) : forgetO μ s (execGetCapabilities half version s) = forget μ s := widenO (a := 260) hm (by
  unfold execGetCapabilities
  simp)

@[simp] theorem execGetVersion_frame (μ : Nat) (hm : 260 ||| μ = μ) (half : Nat) (s : State) : forgetO μ s (execGetVersion half s) = forget μ s := widenO (a := 260) hm (by
  unfold execGetVersion
  simp)

@[simp] theorem execDoeRequest_frame (μ : Nat) (hm : 260 ||| μ = μ) (half : Nat) (protocol : Nat) (length : Nat) (index : Nat) (s : State) : forgetO μ s (execDoeRequest half protocol length index s) = forget μ s := widenO (a := 260) hm (by
  unfold execDoeRequest
  simp)

end Sys2Proof.Machine
end

