-- ==== Sys2Proof/Laws/FrameDispatch.lean ====
section
/-!
SUPPORT. Frames of the operations of Machine/Dispatch.lean: the parts of the state that each can change.
-/
namespace Sys2Proof.Machine
set_option linter.all false
set_option linter.all false

end Sys2Proof.Machine
end

