-- ==== Sys2Proof/Laws/PathWrite.lean ====
section
/-!
SUPPORT. What a path's write of a register can be (R7, R12, R15, R100): turned away, held, or the register's own write. The commands of
Machine/PathCmds.lean are such writes; their frames and their effects rest on this.
-/
namespace Sys2Proof.Machine
set_option linter.all false

/-- The ACTION and the index of a write that gives both. -/
theorem fld_at16 (a i : Nat) (h : a < 4) : fld (w32 (a + at_ 16 i)) 1 0 = a := by
  unfold fld bits w32 at_
  simp only [BitVec.toNat_ofNat]
  omega

theorem fld_at8 (a b : Nat) (h : b < 4) : fld (w32 (a % 64 + at_ 8 b)) 9 8 = b := by
  unfold fld bits w32 at_
  simp only [BitVec.toNat_ofNat]
  omega

theorem fld_low (a b : Nat) : fld (w32 (a % 64 + at_ 8 b)) 5 0 = a % 64 := by
  unfold fld bits w32 at_
  simp only [BitVec.toNat_ofNat]
  omega

theorem wbit_at31 (a : Nat) : wbit (w32 (a % 8 + at_ 31 1)) 31 = true := by
  unfold wbit w32 at_
  simp only [BitVec.toNat_ofNat, Nat.testBit_eq_decide_div_mod_eq, decide_eq_true_eq]
  omega

/-- Does the offset that a path's BAR0 gives a register lead back to it, in the window of a block or, for a VF, below its doorbells? -/
def regReached (r : Reg) (i : Nat) : Bool :=
  let fit (p : Path) (top : Nat) : Bool := match regBar p r i with
    | none => true
    | some off => regAt p off == some (r, i) && decide (off < top ∧ (top = 0x2000000 → 0x100 ≤ off % 0x200000))
  fit .firmware 0x2000000 && fit (.fn (.vf 0 0)) 0x4000

/-- Does no path find the register in the LCS window? -/
def regOutside (r : Reg) (i : Nat) : Bool :=
  (regBar .firmware r i).all (fun off => off / 0x200000 != 1) && (regBar (.fn (.vf 0 0)) r i).all (fun off => off / 0x200000 != 1)

/-- A path that is no VF has a register where firmware has it, and every VF has it at one offset. -/
theorem regBar_two (p : Path) (r : Reg) (i : Nat) : regBar p r i = regBar .firmware r i ∨ regBar p r i = regBar (.fn (.vf 0 0)) r i := by
  have pf (q : Path) (a : asPath p = q) (nv : ∀ k n, q ≠ .fn (.vf k n)) : regBar p r i = regBar .firmware r i := by
    unfold regBar
    rw [a]
    generalize r.info.space = sp
    cases q with
    | fn f => cases f with
      | vf k n => exact absurd rfl (nv k n)
      | _ => cases sp <;> rfl
    | _ => cases sp <;> rfl
  cases a : asPath p with
  | fn f => cases f with
    | vf k n =>
      refine .inr ?_
      unfold regBar
      rw [a]
      generalize r.info.space = sp
      cases sp with
      | vf => rfl
      | block c =>
        by_cases h3 : c = 3
        · subst h3; rfl
        · by_cases h12 : c = 12
          · subst h12; rfl
          · simp [asPath, h3, h12]
    | pf k => exact .inl (pf _ a (fun _ _ h => nomatch h))
    | fw => exact .inl (pf _ a (fun _ _ h => nomatch h))
  | _ => exact .inl (pf _ a (fun _ _ h => nomatch h))

theorem regOutside_spec {r : Reg} {i : Nat} (h : regOutside r i = true) (p : Path) (off : Nat) (e : regBar p r i = some off) :
    off / 0x200000 ≠ 1 := by
  unfold regOutside at h
  rw [Bool.and_eq_true] at h
  rcases regBar_two p r i with x | x <;> rw [x] at e <;> rw [e] at h
  · exact bne_iff_ne.mp h.1
  · exact bne_iff_ne.mp h.2

/-- A register is reached at every index if it is at those that it has. -/
theorem regReached_of_lt {r : Reg} (n : Nat) (c : r.info.count * r.info.count2 = n) (h : ∀ i < n, (regReached r i && regOutside r i) = true)
    (i : Nat) : (regReached r i && regOutside r i) = true := by
  by_cases l : i < n
  · exact h i l
  · have none_ (p : Path) : regBar p r i = none := by
      unfold regBar
      rw [if_pos (by omega)]
    simp only [regReached, regOutside, none_, Bool.and_self, Option.all_none]

theorem regReached_spec {p : Path} {r : Reg} {i off : Nat} (h : regReached r i = true) (e : regBar p r i = some off) :
    regAt (asPath p) off = some (r, i) ∧ off < 0x2000000 ∧ (vfPath p = false → 0x100 ≤ off % 0x200000) ∧ (vfPath p = true → off < 0x4000) := by
  have hx (q : Path) (top : Nat) (hq : (match regBar q r i with
    | none => true
    | some off => regAt q off == some (r, i) && decide (off < top ∧ (top = 0x2000000 → 0x100 ≤ off % 0x200000))) = true)
      (eq : regBar q r i = some off) : regAt q off = some (r, i) ∧ off < top ∧ (top = 0x2000000 → 0x100 ≤ off % 0x200000) := by
    rw [eq] at hq
    simpa only [Bool.and_eq_true, beq_iff_eq, decide_eq_true_eq] using hq
  unfold regReached at h
  rw [Bool.and_eq_true] at h
  have pf (q : Path) (a : asPath p = q) (nv : ∀ k n, q ≠ .fn (.vf k n)) :
      regAt q off = some (r, i) ∧ off < 0x2000000 ∧ 0x100 ≤ off % 0x200000 := by
    have eq : regBar p r i = regBar .firmware r i := by
      unfold regBar
      rw [a]
      generalize r.info.space = sp
      cases q with
      | fn f => cases f with
        | vf k n => exact absurd rfl (nv k n)
        | _ => cases sp <;> rfl
      | _ => cases sp <;> rfl
    have t : regAt q off = regAt .firmware off := by
      unfold regAt
      cases q with
      | fn f => cases f with
        | vf k n => exact absurd rfl (nv k n)
        | _ => rfl
      | _ => rfl
    have x := hx .firmware _ h.1 (eq ▸ e)
    exact ⟨t ▸ x.1, x.2.1, x.2.2 rfl⟩
  have vf (k n : Nat) (a : asPath p = .fn (.vf k n)) : regAt (.fn (.vf k n)) off = some (r, i) ∧ off < 0x4000 := by
    have eq : regBar p r i = regBar (.fn (.vf 0 0)) r i := by
      unfold regBar
      rw [a]
      generalize r.info.space = sp
      cases sp with
      | vf => rfl
      | block c =>
        by_cases h3 : c = 3
        · subst h3; rfl
        · by_cases h12 : c = 12
          · subst h12; rfl
          · simp [asPath, h3, h12]
    have x := hx (.fn (.vf 0 0)) _ h.2 (eq ▸ e)
    exact ⟨x.1, x.2.1⟩
  unfold vfPath
  cases a : asPath p with
  | fn f => cases f with
    | vf k n =>
      have x := vf k n a
      exact ⟨x.1, by omega, fun h => Bool.noConfusion h, fun _ => x.2⟩
    | pf k =>
      have x := pf _ a (fun _ _ h => nomatch h)
      exact ⟨x.1, x.2.1, fun _ => x.2.2, fun h => Bool.noConfusion h⟩
    | fw =>
      have x := pf _ a (fun _ _ h => nomatch h)
      exact ⟨x.1, x.2.1, fun _ => x.2.2, fun h => Bool.noConfusion h⟩
  | _ =>
    have x := pf _ a (fun _ _ h => nomatch h)
    exact ⟨x.1, x.2.1, fun _ => x.2.2, fun h => Bool.noConfusion h⟩


/-- An access to the offset of a register is to the LCS window only where the register is LCS's. -/
theorem lcsAccess_false {p : Path} {off : Nat} (s : State) (h : off / 0x200000 ≠ 1) : lcsAccess s p off = false := by
  simp [lcsAccess, h]

/-- A write to the offset of a register that its path can reach does nothing, is held, reaches an NVMe function's properties, or is the
register's own write. -/
theorem access_write_cases (p : Path) (r : Reg) (i : Nat) (v : Word) (s : State) (off : Nat)
    (x : regAt (asPath p) off = some (r, i) ∧ off < 0x2000000 ∧ (vfPath p = false → 0x100 ≤ off % 0x200000) ∧ (vfPath p = true → off < 0x4000)) :
    access { path := asPath p, off := off, kind := .write v, thread := 0 } s = s
    ∨ access { path := asPath p, off := off, kind := .write v, thread := 0 } s = holdAccess { path := asPath p, off := off, kind := .write v, thread := 0 } s
    ∨ (∃ b, access { path := asPath p, off := off, kind := .write v, thread := 0 } s = wakeBlock (asPath p) b s)
    ∨ (∃ f b, access { path := asPath p, off := off, kind := .write v, thread := 0 } s = nvWrite f off v (wakeBlock (asPath p) b s))
    ∨ (∃ b, access { path := asPath p, off := off, kind := .write v, thread := 0 } s = regStore (asPath p) 0 r i v (wakeBlock (asPath p) b s)) := by
  unfold access
  split
  · exact .inr (.inl rfl)
  · unfold completeAccess
    dsimp only
    split
    · exact .inl rfl
    · have nh : headerAccess s (asPath p) off = false := by
        cases c : vfPath p with
        | false =>
          have y := x.2.2.1 c
          simp only [headerAccess, Bool.and_eq_false_iff, decide_eq_false_iff_not]
          exact .inr (by omega)
        | true =>
          revert c
          unfold vfPath headerAccess windowed
          cases asPath p with
          | fn f => intro c; simp [show isVf f = true from c]
          | _ => intro c; cases c
      rw [nh]
      simp only [Bool.false_eq_true, if_false]
      generalize wt : wakeBlock (asPath p) (accessBlk s (asPath p) off) s = t
      have win (q : Path) (k : 0x100 ≤ off % 0x200000) (e : regAt q off = some (r, i)) : writeWindow q 0 off v t = regStore q 0 r i v t := by
        unfold writeWindow
        rw [if_neg (by omega), e]
      cases c : asPath p with
      | tee f k => exact absurd c (by cases p <;> simp [asPath])
      | debug =>
        rw [c] at x wt
        unfold writeBlock
        dsimp only
        split
        · exact .inr (.inr (.inr (.inr ⟨_, by rw [win _ (x.2.2.1 (by simp [vfPath, c])) x.1, wt]⟩)))
        · exact .inr (.inr (.inl ⟨_, wt.symm⟩))
      | fn f =>
        rw [c] at x wt
        have hv : vfPath p = isVf f := by simp [vfPath, c]
        unfold writeBlock
        dsimp only
        unfold writeFn
        rw [if_neg (by omega)]
        split
        · split
          · rename_i a
            have := x.2.2.2 (hv.trans a.1)
            omega
          · exact .inr (.inr (.inr (.inl ⟨f, _, by rw [wt]⟩)))
        · split
          · rename_i a
            have := x.2.2.2 (hv.trans a)
            rw [if_neg (by omega), if_neg (by omega), x.1]
            exact .inr (.inr (.inr (.inr ⟨_, by rw [wt]⟩)))
          · rename_i a
            rw [if_neg (by omega)]
            exact .inr (.inr (.inr (.inr ⟨_, by rw [win _ (x.2.2.1 (by simpa [hv] using a)) x.1, wt]⟩)))
      | _ =>
        rw [c] at x wt
        unfold writeBlock
        exact .inr (.inr (.inr (.inr ⟨_, by rw [win _ (x.2.2.1 (by simp [vfPath, c])) x.1, wt]⟩)))

/-- A write of a register is turned away, held, does nothing, reaches an NVMe function's properties, or is the register's own write. -/
theorem writeOf_cases (p : Path) (r : Reg) (i : Nat) (v : Word) (s : State) (h : regReached r i = true)
    (lcs : ∀ off, regBar p r i = some off → off / 0x200000 ≠ 1) :
    writeOf p r i v s = s ∨ writeOf p r i v s = turnAway p s
    ∨ (∃ off, writeOf p r i v s = holdAccess { path := asPath p, off := off, kind := .write v, thread := 0 } s)
    ∨ (∃ b, writeOf p r i v s = wakeBlock (asPath p) b s)
    ∨ (∃ f off b, writeOf p r i v s = nvWrite f off v (wakeBlock (asPath p) b s))
    ∨ (∃ b, writeOf p r i v s = regStore (asPath p) 0 r i v (wakeBlock (asPath p) b s)) := by
  unfold writeOf
  cases e : regBar p r i with
  | none => exact .inl rfl
  | some off =>
    simp only [accessWrite, lcsAccess_false s (lcs off e), Bool.false_eq_true, if_false]
    split
    · exact .inr (.inl rfl)
    · rcases access_write_cases p r i v s off (regReached_spec h e) with x | x | x | ⟨f, x⟩ | x
      · exact .inl x
      · exact .inr (.inr (.inl ⟨off, x⟩))
      · exact .inr (.inr (.inr (.inl x)))
      · exact .inr (.inr (.inr (.inr (.inl ⟨f, off, x⟩))))
      · exact .inr (.inr (.inr (.inr (.inr x))))

/-- Which parts a write of a register may change: those of an access that is turned away or held and of an NVMe property, and those of the
register's own write. -/
theorem writeOf_frame_of (μ : Nat) (hm : 34079148 ||| μ = μ) (p : Path) (r : Reg) (i : Nat) (v : Word) (s : State) (hr : (regReached r i && regOutside r i) = true)
    (k : ∀ q t, forget μ (regStore q 0 r i v t) = forget μ t) :
    forget μ (writeOf p r i v s) = forget μ s := by
  have w (q : Path) (b : Nat) : forget μ (wakeBlock q b s) = forget μ s := wakeBlock_frame μ (or_trans rfl hm) _ _ _
  rw [Bool.and_eq_true] at hr
  rcases writeOf_cases p r i v s hr.1 (regOutside_spec hr.2 p) with e | e | ⟨off, e⟩ | ⟨b, e⟩ | ⟨f, off, b, e⟩ | ⟨b, e⟩ <;> rw [e]
  · exact turnAway_frame μ (or_trans rfl hm) _ _
  · exact holdAccess_frame μ (or_trans rfl hm) _ _
  · exact w _ _
  · exact (nvWrite_frame μ (or_trans rfl hm) _ _ _ _).trans (w _ _)
  · exact (k _ _).trans (w _ _)

/-- The same of a register of LCS, whose window answers at once. -/
theorem writeOf_lcs_frame_of (μ : Nat) (hm : 34079164 ||| μ = μ) (p : Path) (r : Reg) (i : Nat) (v : Word) (s : State) (h : regReached r i = true)
    (plain : ∀ q t, regStore q 0 r i v t = plainReg q r i v t) (k : ∀ q t, forget μ (lcsStore q r i v t) = forget μ t) :
    forget μ (writeOf p r i v s) = forget μ s := by
  have w (q : Path) (b : Nat) : forget μ (wakeBlock q b s) = forget μ s := wakeBlock_frame μ (or_trans rfl hm) _ _ _
  unfold writeOf
  cases e : regBar p r i with
  | none => rfl
  | some off =>
    have x := regReached_spec h e
    unfold accessWrite
    dsimp only
    split
    · exact turnAway_frame μ (or_trans rfl hm) _ _
    · split
      · unfold writeLcs
        rw [x.1]
        exact k _ _
      · rcases access_write_cases p r i v s off x with e | e | ⟨b, e⟩ | ⟨f, b, e⟩ | ⟨b, e⟩ <;> rw [e]
        · exact holdAccess_frame μ (or_trans rfl hm) _ _
        · exact w _ _
        · exact (nvWrite_frame μ (or_trans rfl hm) _ _ _ _).trans (w _ _)
        · rw [plain]
          exact (plainReg_frame μ (or_trans rfl hm) _ _ _ _ _).trans (w _ _)

/-- An access that acts at once, outside a window's header, reaches its block after the block's wake. -/
theorem access_acts {p : Path} {off : Nat} {s : State} (h : HeldAccess) (hp : h.path = asPath p) (ho : h.off = off) (a : actsAt p off s = true)
    (nh : headerAccess s (asPath p) off = false) :
    access h s = (match h.kind with
      | .read => emit (.readData (asPath p) off (readBlock (asPath p) off (atWork p off s)).1) (readBlock (asPath p) off (atWork p off s)).2
      | .readWide => completeAccess h s
      | .write v => writeBlock (asPath p) h.thread off v (atWork p off s)
      | .writeWide v => writeBlockWide (asPath p) off v (atWork p off s)) := by
  simp only [actsAt, Bool.and_eq_true, Bool.not_eq_true'] at a
  obtain ⟨⟨⟨_, a3⟩, a4⟩, _⟩ := a
  obtain ⟨_, off', kind, thread⟩ := h
  subst hp ho
  cases kind <;> simp only [access, a3, completeAccess, completeRead, a4, nh, atWork, Bool.not_false, Bool.true_and, Bool.false_eq_true, if_false]

/-- Where a path finds a register, its access is to no window header. -/
theorem findsAt_spec {p : Path} {off : Nat} {r : Reg} {i : Nat} (s : State) (f : findsAt p off r i = true) :
    regAt (asPath p) off = some (r, i) ∧ headerAccess s (asPath p) off = false ∧ lcsAccess s (asPath p) off = false ∧
    (vfPath p = true → off < 0x4000) ∧ (vfPath p = false → off < 0x2000000 ∧ off / 0x200000 ≠ 1 ∧ 0x100 ≤ off % 0x200000) := by
  simp only [findsAt, Bool.and_eq_true, beq_iff_eq] at f
  refine ⟨f.1, ?_, ?_, ?_, ?_⟩
  · cases c : vfPath p with
    | false =>
      have y := f.2
      simp only [c, Bool.false_eq_true, if_false, decide_eq_true_eq] at y
      simp only [headerAccess, Bool.and_eq_false_iff, decide_eq_false_iff_not]
      exact .inr (by omega)
    | true =>
      revert c
      unfold vfPath headerAccess windowed
      cases asPath p with
      | fn f => intro c; simp [show isVf f = true from c]
      | _ => intro c; cases c
  · cases c : vfPath p with
    | false =>
      have y := f.2
      simp only [c, Bool.false_eq_true, if_false, decide_eq_true_eq] at y
      simp [lcsAccess, y.2.1]
    | true =>
      revert c
      unfold vfPath lcsAccess windowed
      cases asPath p with
      | fn f => intro c; simp [show isVf f = true from c]
      | _ => intro c; cases c
  · intro c
    have y := f.2
    simpa only [c, if_true, decide_eq_true_eq] using y
  · intro c
    have y := f.2
    simpa only [c, Bool.false_eq_true, if_false, decide_eq_true_eq] using y

/-- A wake changes nothing that a path's reach rests on. -/
theorem atWork_form (p : Path) (off : Nat) (s : State) : ∃ d w, atWork p off s = { s with lastWork := w, cai := { s.cai with domains := d } } :=
  wakeBlock_form _ _ _

/-- A write that acts at once, of a register that its path finds, is the register's own write. -/
theorem accessWrite_acts {p : Path} {r : Reg} {i off : Nat} (t : Nat) (v : Word) {s : State} (f : findsAt p off r i = true)
    (a : actsAt p off s = true) : accessWrite p t off v s = regStore (asPath p) (match asPath p with
      | .fn _ => 0
      | _ => t) r i v (atWork p off s) := by
  obtain ⟨x, nh, nl, hv, hw⟩ := findsAt_spec s f
  have a' := a
  simp only [actsAt, Bool.and_eq_true, Bool.or_eq_true, Bool.not_eq_true', bne_iff_ne, ne_eq] at a'
  obtain ⟨⟨⟨⟨a1, a2⟩, _⟩, _⟩, a5⟩ := a'
  obtain ⟨d, w, e⟩ := atWork_form p off s
  unfold accessWrite
  simp only [a1, nl, Bool.not_true, Bool.false_eq_true, if_false]
  rw [access_acts (p := p) (off := off) _ rfl rfl a nh]
  dsimp only
  have win (q : Path) (u : State) (t : Nat) (k : 0x100 ≤ off % 0x200000) (e : regAt q off = some (r, i)) :
      writeWindow q t off v u = regStore q t r i v u := by
    unfold writeWindow
    rw [if_neg (by omega), e]
  generalize atWork p off s = u at e
  cases c : asPath p with
  | tee f k => exact absurd c (by cases p <;> simp [asPath])
  | debug =>
    have pd : p = .debug := by cases p <;> simp_all [asPath]
    rw [c] at x
    unfold writeBlock
    dsimp only
    rw [if_pos, win _ _ _ (hw (by simp [vfPath, c])).2.2 x]
    subst e
    rcases a5 with a5 | a5
    · exact absurd pd a5
    · exact a5
  | fn g =>
    rw [c] at x a2
    have hvf : vfPath p = isVf g := by simp [vfPath, c]
    have n : isNvme u g = false := by subst e; exact a2
    unfold writeBlock
    dsimp only
    unfold writeFn
    cases b : isVf g with
    | true =>
      have := hv (hvf.trans b)
      rw [if_neg (by omega), n]
      simp only [Bool.false_eq_true, if_false, if_true]
      rw [if_neg (by omega), if_neg (by omega), x]
    | false =>
      have := hw (hvf.trans b)
      rw [if_neg (by omega), n]
      simp only [Bool.false_eq_true, if_false]
      rw [if_neg (by omega)]
      exact win _ _ _ this.2.2 x
  | _ =>
    rw [c] at x
    unfold writeBlock
    exact win _ _ _ (hw (by simp [vfPath, c])).2.2 x

/-- A read that acts at once, of a register that its path finds, is the register's own read. -/
theorem accessRead_acts {p : Path} {r : Reg} {i off : Nat} {s : State} (f : findsAt p off r i = true) (n : countsAt p off = false)
    (a : actsAt p off s = true) :
    accessRead p off s =
      emit (.readData (asPath p) off (readReg (asPath p) off (atWork p off s)).1) (readReg (asPath p) off (atWork p off s)).2 := by
  obtain ⟨x, nh, nl, hv, hw⟩ := findsAt_spec s f
  have a' := a
  simp only [actsAt, Bool.and_eq_true, Bool.or_eq_true, Bool.not_eq_true', bne_iff_ne, ne_eq] at a'
  obtain ⟨⟨⟨⟨a1, a2⟩, _⟩, _⟩, a5⟩ := a'
  obtain ⟨d, w, e⟩ := atWork_form p off s
  unfold accessRead
  simp only [a1, nl, Bool.not_true, Bool.false_eq_true, if_false]
  rw [access_acts (p := p) (off := off) _ rfl rfl a nh]
  dsimp only
  have win (q : Path) (u : State) (c : vfPath p = false) : readWindow q off u = readReg q off u := by
    have k := hw c
    simp only [countsAt, c, Bool.false_eq_true, if_false, decide_eq_false_iff_not] at n
    unfold readWindow
    dsimp only
    rw [if_neg (by omega), if_neg (by omega), if_neg (by omega), if_neg (by omega)]
  have k : readBlock (asPath p) off (atWork p off s) = readReg (asPath p) off (atWork p off s) := by
    generalize atWork p off s = u at e
    cases c : asPath p with
    | tee f k => exact absurd c (by cases p <;> simp [asPath])
    | debug =>
      have pd : p = .debug := by cases p <;> simp_all [asPath]
      unfold readBlock
      dsimp only
      rw [if_pos, win _ _ (by simp [vfPath, c])]
      subst e
      rcases a5 with a5 | a5
      · exact absurd pd a5
      · unfold debugReaches at *
        simp only [Bool.or_eq_true, Bool.and_eq_true, Bool.not_true, Bool.false_eq_true, and_false, false_and, or_false] at a5
        simp only [Bool.or_eq_true]
        exact .inl a5
    | fn g =>
      rw [c] at a2
      have hvf : vfPath p = isVf g := by simp [vfPath, c]
      have nv : isNvme u g = false := by subst e; exact a2
      unfold readBlock
      dsimp only
      unfold readFn
      cases b : isVf g with
      | true =>
        have := hv (hvf.trans b)
        simp only [countsAt, hvf.trans b, if_true, decide_eq_false_iff_not] at n
        rw [if_neg (by omega), nv]
        simp only [Bool.false_eq_true, if_false, if_true]
        unfold readVf
        rw [if_neg (by omega), if_neg (by omega), if_neg (by omega), if_neg (by omega)]
      | false =>
        have := hw (hvf.trans b)
        rw [if_neg (by omega), nv]
        simp only [Bool.false_eq_true, if_false]
        rw [if_neg (by omega)]
        exact win _ _ (hvf.trans b)
    | _ =>
      unfold readBlock
      exact win _ _ (by simp [vfPath, c])
  rw [k]

/-- The offset that a path's BAR0 gives a register leads back to it. -/
theorem findsAt_regBar {p : Path} {r : Reg} {i off : Nat} (hr : (regReached r i && regOutside r i) = true) (e : regBar p r i = some off) :
    findsAt p off r i = true := by
  rw [Bool.and_eq_true] at hr
  have x := regReached_spec hr.1 e
  have lcs := regOutside_spec hr.2 p off e
  simp only [findsAt, x.1, beq_self_eq_true, Bool.true_and]
  cases c : vfPath p with
  | true => simpa using x.2.2.2 c
  | false => simpa using ⟨x.2.1, lcs, x.2.2.1 c⟩

/-- A write that acts at once is the register's own write. -/
theorem writeOf_acts {p : Path} {r : Reg} {i off : Nat} (v : Word) {s : State} (hr : (regReached r i && regOutside r i) = true)
    (e : regBar p r i = some off) (a : actsAt p off s = true) : writeOf p r i v s = regStore (asPath p) 0 r i v (atWork p off s) := by
  unfold writeOf
  rw [e]
  refine (accessWrite_acts 0 v (findsAt_regBar hr e) a).trans ?_
  cases asPath p <;> rfl

/-- A write that acts at once does what the register's write does. -/
theorem writeOf_does {p : Path} {r : Reg} {i off : Nat} (v : Word) {s : State} (hr : (regReached r i && regOutside r i) = true)
    (e : regBar p r i = some off) (a : actsAt p off s = true) (g : State → State) (hg : ∀ u, regStore (asPath p) 0 r i v u = g u) :
    writeOf p r i v s = g (atWork p off s) := by
  rw [writeOf_acts v hr e a, hg]

/-- An access to a register of the Cairn blocks wakes no block (R13). -/
theorem atWork_cairn {p : Path} {r : Reg} {i off b : Nat} {s : State} (sp : r.info.space = .block b) (hb : cairnBlock b = true)
    (e : regBar p r i = some off) (lt : regOff r i < 0x200000) (a : actsAt p off s = true) : atWork p off s = s := by
  have hb : b = 0 ∨ b = 1 ∨ b = 13 := by simpa [cairnBlock, or_assoc] using hb
  simp only [actsAt, Bool.and_eq_true, Bool.not_eq_true'] at a
  have nv : nvmePath s (asPath p) = false := a.1.1.1.2
  have x : off = 0x200000 * b + regOff r i ∧ vfPath p = false := by
    unfold regBar at e
    unfold vfPath
    rw [sp] at e
    split at e
    · cases e
    · cases c : asPath p with
      | fn f => cases f with
        | vf k n =>
          rw [c] at e
          rcases hb with hb | hb | hb <;> subst hb <;> cases e
        | _ =>
          rw [c] at e
          simp only [Option.some.injEq] at e
          exact ⟨e.symm, rfl⟩
      | _ =>
        rw [c] at e
        simp only [Option.some.injEq] at e
        exact ⟨e.symm, rfl⟩
  have w : windowed s (asPath p) off = true := by
    have y := x.2
    unfold windowed
    unfold vfPath at y
    rw [nv]
    have l : off < 0x2000000 := by omega
    cases c : asPath p with
    | fn f =>
      rw [c] at y
      simpa [l] using y
    | _ => simp [l]
  have k : accessBlk s (asPath p) off = b := by
    unfold accessBlk
    rw [if_pos w]
    omega
  unfold atWork wakeBlock
  rw [k]
  rcases hb with hb | hb | hb <;> subst hb <;> rfl

/-- A write of a register of the Cairn blocks that acts is the register's own write. -/
theorem writeOf_cairn {p : Path} {r : Reg} {i off b : Nat} (v : Word) {s : State} (sp : r.info.space = .block b) (hb : cairnBlock b = true)
    (hr : (regReached r i && regOutside r i) = true) (e : regBar p r i = some off) (lt : regOff r i < 0x200000) (a : actsAt p off s = true) :
    writeOf p r i v s = regStore (asPath p) 0 r i v s := by
  rw [writeOf_acts v hr e a, atWork_cairn sp hb e lt a]

/-- A write of an LCS register that a path can reach is the register's own write (R13). -/
theorem writeOf_lcs {p : Path} {r : Reg} {i off : Nat} (v : Word) {s : State} (h : regReached r i = true) (e : regBar p r i = some off)
    (a : pathOpen s p = true) (l : lcsAccess s (asPath p) off = true) : writeOf p r i v s = lcsStore (asPath p) r i v s := by
  have x := regReached_spec h e
  unfold writeOf
  rw [e]
  simp only [accessWrite, a, Bool.not_true, Bool.false_eq_true, if_false, l, if_true, writeLcs, x.1]

/-- The doorbell of a queue that a function owns takes an 8-byte write that no hold and no failed start keeps away (R125, R161). -/
theorem doorbell_acts {f : Fn} {q off : Nat} {v : BitVec 64} {s : State} (e : off = doorbellBar f q) (own : doorbellAt s f off = some q)
    (a1 : pathOpen s (.fn f) = true) (a2 : accessWaits s (.fn f) off = false) (a3 : blockDead s (.fn f) (accessBlk s (.fn f) off) = false) :
    accessSized (.fn f) off 8 (some v) s = doorbellTaken f q v (atWork (.fn f) off s) := by
  have hd : headerAccess s (.fn f) off = false := by
    cases b : isVf f with
    | true => simp [headerAccess, windowed, b]
    | false =>
      have : 0x2000000 ≤ off := by rw [e, doorbellBar, b]; simp
      simp [headerAccess, windowed, show ¬ off < 0x2000000 by omega]
  have al : off % 8 = 0 := by rw [e, doorbellBar]; split <;> omega
  have wide : wideHonoured s (.fn f) off = true := by simp [wideHonoured, own, al]
  have rest : bar2Rest s (.fn f) off = false := by simp [bar2Rest, own]
  obtain ⟨d, w, k⟩ := atWork_form (.fn f) off s
  have own' : doorbellAt (atWork (.fn f) off s) f off = some q := by rw [k]; exact own
  unfold atWork at own'
  simp only [asPath] at own'
  unfold accessSized
  simp [asPath, a1, rest, wide, access, a2, completeAccess, hd, a3, writeBlockWide, own', atWork]

/-- Nothing that a queue, its doorbell or its owner rests on changes with a wake. -/
@[simp] theorem atWork_queue (p : Path) (off : Nat) (s : State) (f : Fn) (q : Nat) : queue (atWork p off s) f q = queue s f q := by
  obtain ⟨d, w, k⟩ := atWork_form p off s
  rw [k]; rfl
@[simp] theorem atWork_ownsQueue (p : Path) (off : Nat) (s : State) (f : Fn) (q : Nat) : ownsQueue (atWork p off s) f q = ownsQueue s f q := by
  obtain ⟨d, w, k⟩ := atWork_form p off s
  rw [k]; rfl

/-- A write below 0x4000 of an NVMe function's BAR0, which no hold and no failed start keeps away, is the controller's own (R344). -/
theorem nvme_acts {f : Fn} {off : Nat} {v : Word} {s : State} (n : isNvme s f = true) (lt : off < 0x4000)
    (a1 : pathOpen s (.fn f) = true) (a2 : accessWaits s (.fn f) off = false) (a3 : blockDead s (.fn f) (accessBlk s (.fn f) off) = false) :
    accessWrite (.fn f) 0 off v s = nvWrite f off v (atWork (.fn f) off s) := by
  have w : windowed s (.fn f) off = false := by simp [windowed, nvmePath, n]
  have hd : headerAccess s (.fn f) off = false := by simp [headerAccess, w]
  have hl : lcsAccess s (.fn f) off = false := by simp [lcsAccess, w]
  have n' : isNvme (atWork (.fn f) off s) f = true := by
    obtain ⟨d, w, k⟩ := atWork_form (.fn f) off s
    rw [k]; exact n
  unfold atWork at n'
  simp only [asPath] at n'
  unfold accessWrite
  simp [asPath, a1, hl, access, a2, completeAccess, hd, a3, writeBlock, writeFn, atWork, n', show ¬ 0x3000000 ≤ off by omega, show ¬ 0x8000 ≤ off by omega]

/-- A queue whose doorbell a function's BARs hold is a queue of its own. -/
theorem doorbellAt_owned {s : State} {f : Fn} {q : Nat} (own : doorbellAt s f (doorbellBar f q) = some q) : ownsQueue s f q = true := by
  unfold doorbellAt doorbellBar at own
  cases b : isVf f <;> simp only [b, Bool.false_eq_true, if_false, if_true] at own <;> split at own
  · rename_i h
    simp only [Bool.and_eq_true] at h
    have := h.2
    rwa [show (33554432 + 8 * q - 33554432) / 8 = q by omega] at this
  · cases own
  · rename_i h
    simp only [Bool.and_eq_true] at h
    have := h.2
    rwa [show (16384 + 8 * q - 16384) / 8 = q by omega] at this
  · cases own

end Sys2Proof.Machine
end

