-- ==== Sys2Proof/Laws/FramePathCmds.lean ====
section
/-!
SUPPORT. Frames of the operations of Machine/PathCmds.lean: the parts of the state that each can change.
-/
namespace Sys2Proof.Machine
set_option linter.all false

@[simp] theorem writeOf_frame (μ : Nat) (hm : 67108860 ||| μ = μ) (p : Path) (r : Reg) (i : Nat) (v : Word) (s : State) : forget μ (writeOf p r i v s) = forget μ s := widen (a := 67108860) hm (by
  unfold writeOf
  (repeat' split) <;> simp)

@[simp] theorem execLeapAtWrite_frame (μ : Nat) (hm : 34111932 ||| μ = μ) (p : Path) (high : Bool) (v : Word) (s : State) : forgetO μ s (execLeapAtWrite p high v s) = forget μ s := by
  cases high
  · exact writeOf_frame_of μ (or_trans rfl hm) p .TIM_LEAP_AT_LO 0 v _ (by decide) (fun q t => by
    show forget μ (timWrite q .TIM_LEAP_AT_LO 0 v t) = forget μ t; unfold timWrite; repeat' (first | with_reducible rfl | with_reducible exact leapAtWrite_frame μ (or_trans rfl hm) _ _ _ _  | with_reducible exact plainReg_frame μ (or_trans rfl hm) _ _ _ _ _  | contradiction | split | dsimp only))
  · exact writeOf_frame_of μ (or_trans rfl hm) p .TIM_LEAP_AT_HI 0 v _ (by decide) (fun q t => by
    show forget μ (timWrite q .TIM_LEAP_AT_HI 0 v t) = forget μ t; unfold timWrite; repeat' (first | with_reducible rfl | with_reducible exact leapAtWrite_frame μ (or_trans rfl hm) _ _ _ _  | with_reducible exact plainReg_frame μ (or_trans rfl hm) _ _ _ _ _  | contradiction | split | dsimp only))

@[simp] theorem execTokenSubmit_frame (μ : Nat) (hm : 67108796 ||| μ = μ) (p : Path) (s : State) : forgetO μ s (execTokenSubmit p s) = forget μ s := 
  writeOf_lcs_frame_of μ (or_trans rfl hm) p .LCS_TOKEN_CTRL 0 1 _ (by decide) (fun _ _ => rfl) (fun q t => by
    show forget μ (if !lcsAnswers t .LCS_TOKEN_CTRL then t else tokenSubmit q t) = forget μ t; repeat' (first | with_reducible rfl | exact tokenSubmit_frame μ (or_trans rfl hm) _ _  | exact debugEnd_frame μ (or_trans rfl hm) _ _  | split))

@[simp] theorem execBoundAlarmWrite_frame (μ : Nat) (hm : 36209596 ||| μ = μ) (p : Path) (v : Word) (s : State) : forgetO μ s (execBoundAlarmWrite p v s) = forget μ s := 
  writeOf_frame_of μ (or_trans rfl hm) p .TIM_BOUND_ALARM 0 v _ (by decide) (fun q t => by
    show forget μ (timWrite q .TIM_BOUND_ALARM 0 v t) = forget μ t; unfold timWrite; repeat' (first | with_reducible rfl | with_reducible exact boundAlarmWrite_frame μ (or_trans rfl hm) _ _ _  | with_reducible exact plainReg_frame μ (or_trans rfl hm) _ _ _ _ _  | contradiction | split | dsimp only))

@[simp] theorem vfCtrlWrite_frame (μ : Nat) (hm : 67108860 ||| μ = μ) (pf : Nat) (action : Nat) (s : State) : forget μ (vfCtrlWrite pf action s) = forget μ s := widen (a := 67108860) hm (by
  unfold vfCtrlWrite
  simp)

@[simp] theorem execLogSwap_frame (μ : Nat) (hm : 34079164 ||| μ = μ) (pf : Nat) (s : State) : forgetO μ s (execLogSwap pf s) = forget μ s := 
  writeOf_frame_of μ (or_trans rfl hm) (.fn (.pf pf)) .HIF_VF_CTRL 0 (w32 3) _ (by decide) (fun q t => by
    show forget μ (hifWrite q .HIF_VF_CTRL 0 (w32 3) t) = forget μ t; unfold hifWrite; repeat' (first | with_reducible rfl | with_reducible exact logSwap_frame μ (or_trans rfl hm) _ _  | with_reducible exact plainReg_frame μ (or_trans rfl hm) _ _ _ _ _  | (unfold vfCtrl; simp only [show fld (w32 3) 3 0 = 3 from rfl]) | contradiction | split | dsimp only))

@[simp] theorem execDrainStandby_frame (μ : Nat) (hm : 50331580 ||| μ = μ) (p : Path) (s : State) : forgetO μ s (execDrainStandby p s) = forget μ s := 
  writeOf_frame_of μ (or_trans rfl hm) p .CAI_MODE_REQ 0 2 _ (by decide) (fun q t => by
    show forget μ (caiWrite q .CAI_MODE_REQ 0 (2 : Word) t) = forget μ t; unfold caiWrite; repeat' (first | with_reducible rfl | with_reducible exact modeRequest_frame μ (or_trans rfl hm) _ _ _  | with_reducible exact plainReg_frame μ (or_trans rfl hm) _ _ _ _ _  | contradiction | split | dsimp only))

theorem vfCtrlEnds_frame (μ : Nat) (hm : 67108860 ||| μ = μ) (pf : Nat) (action : Nat) (op : State → State) (s : State) (h_op : ∀ v0, forget μ (op v0) = forget μ v0) : forget μ (vfCtrlEnds pf action op s) = forget μ s := by
  unfold vfCtrlEnds
  repeat' (first | with_reducible rfl | simp only [↓(vfCtrlWrite_frame μ (or_trans (a := 67108860) (b := 67108860) rfl hm)), ↓(wakeBlock_frame μ (or_trans (a := 33554560) (b := 67108860) rfl hm)), ↓(set_out_frame μ (or_trans (a := 4) (b := 67108860) rfl hm)), forget_ite, ite_self, h_op] | (refine Eq.trans (forget_foldS _ _ (fun _ _ => ?_) _ _) ?_) | (refine Eq.trans (congrArg (forget _) (congrArg Prod.snd ‹_ = (_, _)›).symm) ?_) | split | dsimp only)

@[simp] theorem execVfSave_frame (μ : Nat) (hm : 34079164 ||| μ = μ) (pf : Nat) (res : HostWriteEnd) (s : State) : forgetO μ s (execVfSave pf res s) = forget μ s := by
  unfold execVfSave vfCtrlEnds vfCtrlWrite
  rw [forgetO_next]
  dsimp only
  split
  · rfl
  · split
    · exact writeOf_frame_of μ (or_trans rfl hm) (.fn (.pf pf)) .HIF_VF_CTRL 0 (w32 6) _ (by decide) (fun q t => by
      show forget μ (hifWrite q .HIF_VF_CTRL 0 (w32 6) t) = forget μ t; unfold hifWrite; repeat' (first | with_reducible rfl | with_reducible exact vfSave_frame μ (or_trans rfl hm) _ _ _  | with_reducible exact plainReg_frame μ (or_trans rfl hm) _ _ _ _ _  | (unfold vfCtrl; simp only [show fld (w32 6) 3 0 = 6 from rfl]) | contradiction | split | dsimp only))
    · exact (vfSave_frame μ (or_trans rfl hm) _ _ _).trans (wakeBlock_frame μ (or_trans rfl hm) _ _ _)

@[simp] theorem execHashSeedWrite_frame (μ : Nat) (hm : 34079164 ||| μ = μ) (p : Path) (which : Nat) (v : Word) (s : State) : forgetO μ s (execHashSeedWrite p which v s) = forget μ s := 
  writeOf_frame_of μ (or_trans rfl hm) p .TBL_HASH_SEED which v _ (regReached_of_lt _ rfl (by decide) _) (fun q t => by
    show forget μ (parseWrite q .TBL_HASH_SEED which v t) = forget μ t; unfold parseWrite; repeat' (first | with_reducible rfl | with_reducible exact seedWrite_frame μ (or_trans rfl hm) _ _ _ _  | with_reducible exact plainReg_frame μ (or_trans rfl hm) _ _ _ _ _  | contradiction | split | dsimp only))

@[simp] theorem execLogStart_frame (μ : Nat) (hm : 34079164 ||| μ = μ) (pf : Nat) (s : State) : forgetO μ s (execLogStart pf s) = forget μ s := 
  writeOf_frame_of μ (or_trans rfl hm) (.fn (.pf pf)) .HIF_VF_CTRL 0 (w32 2) _ (by decide) (fun q t => by
    show forget μ (hifWrite q .HIF_VF_CTRL 0 (w32 2) t) = forget μ t; unfold hifWrite; repeat' (first | with_reducible rfl | with_reducible exact logStart_frame μ (or_trans rfl hm) _ _  | with_reducible exact plainReg_frame μ (or_trans rfl hm) _ _ _ _ _  | (unfold vfCtrl; simp only [show fld (w32 2) 3 0 = 2 from rfl]) | contradiction | split | dsimp only))

@[simp] theorem execTimSnap_frame (μ : Nat) (hm : 34079164 ||| μ = μ) (p : Path) (s : State) : forgetO μ s (execTimSnap p s) = forget μ s := 
  writeOf_frame_of μ (or_trans rfl hm) p .TIM_SNAP 0 1 _ (by decide) (fun q t => by
    show forget μ (timWrite q .TIM_SNAP 0 (1 : Word) t) = forget μ t; unfold timWrite; simp only [show wbit 1 0 = true from rfl, if_true]; repeat' (first | with_reducible rfl | with_reducible exact timSnap_frame μ (or_trans rfl hm) _ _  | with_reducible exact plainReg_frame μ (or_trans rfl hm) _ _ _ _ _  | contradiction | split | dsimp only))

@[simp] theorem execFilterAdd_frame (μ : Nat) (hm : 34080188 ||| μ = μ) (p : Path) (s : State) : forgetO μ s (execFilterAdd p s) = forget μ s := 
  writeOf_frame_of μ (or_trans rfl hm) p .MAC_FLT_CTRL 0 1 _ (by decide) (fun q t => by
    show forget μ (macWrite q .MAC_FLT_CTRL 0 (1 : Word) t) = forget μ t; unfold macWrite; simp only [show fld 1 1 0 = 1 from rfl]; repeat' (first | with_reducible rfl | with_reducible exact filterAdd_frame μ (or_trans rfl hm) _ _  | with_reducible exact plainReg_frame μ (or_trans rfl hm) _ _ _ _ _  | contradiction | split | dsimp only))

@[simp] theorem execCtxRead_frame (μ : Nat) (hm : 34079164 ||| μ = μ) (p : Path) (s : State) : forgetO μ s (execCtxRead p s) = forget μ s := 
  writeOf_frame_of μ (or_trans rfl hm) p .STO_CTX_CTRL 0 2 _ (by decide) (fun q t => by
    show forget μ (stoWrite q .STO_CTX_CTRL 0 (2 : Word) t) = forget μ t; unfold stoWrite; simp only [show fld 2 2 0 = 2 from rfl]; repeat' (first | with_reducible rfl | with_reducible exact ctxRead_frame μ (or_trans rfl hm) _ _  | with_reducible exact plainReg_frame μ (or_trans rfl hm) _ _ _ _ _  | contradiction | split | dsimp only))

@[simp] theorem execReacquire_frame (μ : Nat) (hm : 36209596 ||| μ = μ) (p : Path) (s : State) : forgetO μ s (execReacquire p s) = forget μ s := 
  writeOf_frame_of μ (or_trans rfl hm) p .TIM_CTRL 0 1 _ (by decide) (fun q t => by
    show forget μ (timWrite q .TIM_CTRL 0 (1 : Word) t) = forget μ t; unfold timWrite; simp only [show wbit 1 0 = true from rfl, if_true]; repeat' (first | with_reducible rfl | with_reducible exact reacquire_frame μ (or_trans rfl hm) _ _  | with_reducible exact plainReg_frame μ (or_trans rfl hm) _ _ _ _ _  | contradiction | split | dsimp only))

@[simp] theorem channelAction_frame (μ : Nat) (hm : 67108860 ||| μ = μ) (p : Path) (ch : Nat) (action : Nat) (s : State) : forget μ (channelAction p ch action s) = forget μ s := widen (a := 67108860) hm (by
  unfold channelAction
  (repeat' split) <;> simp)

@[simp] theorem execRestartRequest_frame (μ : Nat) (hm : 50331580 ||| μ = μ) (p : Path) (s : State) : forgetO μ s (execRestartRequest p s) = forget μ s := 
  writeOf_frame_of μ (or_trans rfl hm) p .CAI_MODE_REQ 0 4 _ (by decide) (fun q t => by
    show forget μ (caiWrite q .CAI_MODE_REQ 0 (4 : Word) t) = forget μ t; unfold caiWrite; repeat' (first | with_reducible rfl | with_reducible exact modeRequest_frame μ (or_trans rfl hm) _ _ _  | with_reducible exact plainReg_frame μ (or_trans rfl hm) _ _ _ _ _  | contradiction | split | dsimp only))

@[simp] theorem execVportBind_frame (μ : Nat) (hm : 37299132 ||| μ = μ) (pf : Nat) (v : Word) (s : State) : forgetO μ s (execVportBind pf v s) = forget μ s := 
  writeOf_frame_of μ (or_trans rfl hm) (.fn (.pf pf)) .HIF_VF_VPORT 0 v _ (by decide) (fun q t => by
    show forget μ (hifWrite q .HIF_VF_VPORT 0 v t) = forget μ t; unfold hifWrite; repeat' (first | with_reducible rfl | with_reducible exact vportBind_frame μ (or_trans rfl hm) _ _ _  | with_reducible exact plainReg_frame μ (or_trans rfl hm) _ _ _ _ _  | contradiction | split | dsimp only))

@[simp] theorem execFilterDelete_frame (μ : Nat) (hm : 34080188 ||| μ = μ) (p : Path) (index : Nat) (s : State) : forgetO μ s (execFilterDelete p index s) = forget μ s := 
  writeOf_frame_of μ (or_trans rfl hm) p .MAC_FLT_CTRL 0 (w32 (2 + at_ 16 index)) _ (by decide) (fun q t => by
    show forget μ (macWrite q .MAC_FLT_CTRL 0 (w32 (2 + at_ 16 index)) t) = forget μ t; unfold macWrite; simp only [fld_at16 2 index (by decide)]; repeat' (first | with_reducible rfl | with_reducible exact filterOther_frame μ (or_trans rfl hm) _ _ _ _  | with_reducible exact filterAdd_frame μ (or_trans rfl hm) _ _  | with_reducible exact plainReg_frame μ (or_trans rfl hm) _ _ _ _ _  | contradiction | split | dsimp only))

@[simp] theorem execPrsLoadStart_frame (μ : Nat) (hm : 36311980 ||| μ = μ) (p : Path) (s : State) : forgetO μ s (execPrsLoadStart p s) = forget μ s := 
  writeOf_frame_of μ (or_trans rfl hm) p .PRS_LOAD_CTRL 0 1 _ (by decide) (fun q t => by
    show forget μ (parseWrite q .PRS_LOAD_CTRL 0 (1 : Word) t) = forget μ t; unfold parseWrite; simp only [show wbit 1 0 = true from rfl, if_true]; repeat' (first | with_reducible rfl | with_reducible exact prsLoadStart_frame μ (or_trans rfl hm) _ _  | with_reducible exact plainReg_frame μ (or_trans rfl hm) _ _ _ _ _  | contradiction | split | dsimp only))

@[simp] theorem execCtxResume_frame (μ : Nat) (hm : 36176828 ||| μ = μ) (p : Path) (s : State) : forgetO μ s (execCtxResume p s) = forget μ s := 
  writeOf_frame_of μ (or_trans rfl hm) p .STO_CTX_CTRL 0 3 _ (by decide) (fun q t => by
    show forget μ (stoWrite q .STO_CTX_CTRL 0 (3 : Word) t) = forget μ t; unfold stoWrite; simp only [show fld 3 2 0 = 3 from rfl]; repeat' (first | with_reducible rfl | with_reducible exact ctxResume_frame μ (or_trans rfl hm) _ _  | with_reducible exact plainReg_frame μ (or_trans rfl hm) _ _ _ _ _  | contradiction | split | dsimp only))

@[simp] theorem execFilterRead_frame (μ : Nat) (hm : 34080188 ||| μ = μ) (p : Path) (index : Nat) (s : State) : forgetO μ s (execFilterRead p index s) = forget μ s := 
  writeOf_frame_of μ (or_trans rfl hm) p .MAC_FLT_CTRL 0 (w32 (3 + at_ 16 index)) _ (by decide) (fun q t => by
    show forget μ (macWrite q .MAC_FLT_CTRL 0 (w32 (3 + at_ 16 index)) t) = forget μ t; unfold macWrite; simp only [fld_at16 3 index (by decide)]; repeat' (first | with_reducible rfl | with_reducible exact filterOther_frame μ (or_trans rfl hm) _ _ _ _  | with_reducible exact filterAdd_frame μ (or_trans rfl hm) _ _  | with_reducible exact plainReg_frame μ (or_trans rfl hm) _ _ _ _ _  | contradiction | split | dsimp only))

@[simp] theorem readOf_frame (μ : Nat) (hm : 35931132 ||| μ = μ) (p : Path) (r : Reg) (i : Nat) (s : State) : forget μ (readOf p r i s) = forget μ s := widen (a := 35931132) hm (by
  unfold readOf
  (repeat' split) <;> simp)

@[simp] theorem execSwitched_frame (μ : Nat) (hm : 50331644 ||| μ = μ) (p : Path) (s : State) : forgetO μ s (execSwitched p s) = forget μ s := 
  writeOf_lcs_frame_of μ (or_trans rfl hm) p .LCS_FW_CTRL 0 4 _ (by decide) (fun _ _ => rfl) (fun q t => by
    show forget μ (if !lcsAnswers t .LCS_FW_CTRL then t else if !mayWrite t q .LCS_FW_CTRL then t else switched q t) = forget μ t; repeat' (first | with_reducible rfl | exact switched_frame μ (or_trans rfl hm) _ _  | split))

@[simp] theorem execMeterRead_frame (μ : Nat) (hm : 34079164 ||| μ = μ) (p : Path) (s : State) : forgetO μ s (execMeterRead p s) = forget μ s := 
  writeOf_frame_of μ (or_trans rfl hm) p .TM_METER_CTRL 0 2 _ (by decide) (fun q t => by
    show forget μ (tmWrite q .TM_METER_CTRL 0 (2 : Word) t) = forget μ t; unfold tmWrite; simp only [show fld 2 1 0 = 2 from rfl]; repeat' (first | with_reducible rfl | with_reducible exact meterRead_frame μ (or_trans rfl hm) _ _  | with_reducible exact plainReg_frame μ (or_trans rfl hm) _ _ _ _ _  | contradiction | split | dsimp only))

@[simp] theorem execMbxSend_frame (μ : Nat) (hm : 36176828 ||| μ = μ) (f : Fn) (v : Word) (s : State) : forgetO μ s (execMbxSend f v s) = forget μ s := 
  writeOf_frame_of μ (or_trans rfl hm) (.fn f) .MBX_H2F_CTRL 0 v _ (by decide) (fun q t => by
    show forget μ (svcWrite q 0 .MBX_H2F_CTRL 0 v t) = forget μ t; unfold svcWrite; repeat' (first | with_reducible rfl | with_reducible exact mbxSend_frame μ (or_trans rfl hm) _ _ _  | with_reducible exact plainReg_frame μ (or_trans rfl hm) _ _ _ _ _  | contradiction | split | dsimp only))

@[simp] theorem execSvcChCfgWrite_frame (μ : Nat) (hm : 36176316 ||| μ = μ) (p : Path) (v : Word) (s : State) : forgetO μ s (execSvcChCfgWrite p v s) = forget μ s := 
  writeOf_frame_of μ (or_trans rfl hm) p .SVC_CH_CFG 0 v _ (by decide) (fun q t => by
    show forget μ (svcWrite q 0 .SVC_CH_CFG 0 v t) = forget μ t; unfold svcWrite; repeat' (first | with_reducible rfl | with_reducible exact chCfgWrite_frame μ (or_trans rfl hm) _ _ _  | with_reducible exact plainReg_frame μ (or_trans rfl hm) _ _ _ _ _  | contradiction | split | dsimp only))

@[simp] theorem execManualCommit_frame (μ : Nat) (hm : 36209596 ||| μ = μ) (p : Path) (s : State) : forgetO μ s (execManualCommit p s) = forget μ s := 
  writeOf_frame_of μ (or_trans rfl hm) p .TIM_MANUAL_COMMIT 0 1 _ (by decide) (fun q t => by
    show forget μ (timWrite q .TIM_MANUAL_COMMIT 0 (1 : Word) t) = forget μ t; unfold timWrite; simp only [show wbit 1 0 = true from rfl, if_true]; repeat' (first | with_reducible rfl | with_reducible exact manualCommit_frame μ (or_trans rfl hm) _ _  | with_reducible exact plainReg_frame μ (or_trans rfl hm) _ _ _ _ _  | contradiction | split | dsimp only))

@[simp] theorem execVfUnfreeze_frame (μ : Nat) (hm : 36176828 ||| μ = μ) (pf : Nat) (s : State) : forgetO μ s (execVfUnfreeze pf s) = forget μ s := 
  writeOf_frame_of μ (or_trans rfl hm) (.fn (.pf pf)) .HIF_VF_CTRL 0 (w32 8) _ (by decide) (fun q t => by
    show forget μ (hifWrite q .HIF_VF_CTRL 0 (w32 8) t) = forget μ t; unfold hifWrite; repeat' (first | with_reducible rfl | with_reducible exact vfUnfreeze_frame μ (or_trans rfl hm) _ _  | with_reducible exact plainReg_frame μ (or_trans rfl hm) _ _ _ _ _  | (unfold vfCtrl; simp only [show fld (w32 8) 3 0 = 8 from rfl]) | contradiction | split | dsimp only))

@[simp] theorem execNodeWrite_frame (μ : Nat) (hm : 34095548 ||| μ = μ) (p : Path) (off : Nat) (v : Word) (s : State) : forgetO μ s (execNodeWrite p off v s) = forget μ s := by
  unfold execNodeWrite
  split
  · rename_i r e
    have m := List.mem_of_find?_eq_some e
    simp only [List.mem_cons, List.not_mem_nil, or_false] at m
    rcases m with rfl | rfl | rfl | rfl | rfl | rfl | rfl | rfl
    · exact writeOf_frame_of μ (or_trans rfl hm) p .TM_NODE_CFG 0 v _ (by decide) (fun q t => by
    show forget μ (tmWrite q .TM_NODE_CFG 0 v t) = forget μ t; unfold tmWrite; repeat' (first | with_reducible rfl | with_reducible exact nodeWrite_frame μ (or_trans rfl hm) _ _ _ _  | with_reducible exact plainReg_frame μ (or_trans rfl hm) _ _ _ _ _  | contradiction | split | dsimp only))
    · exact writeOf_frame_of μ (or_trans rfl hm) p .TM_NODE_RATE 0 v _ (by decide) (fun q t => by
    show forget μ (tmWrite q .TM_NODE_RATE 0 v t) = forget μ t; unfold tmWrite; repeat' (first | with_reducible rfl | with_reducible exact nodeWrite_frame μ (or_trans rfl hm) _ _ _ _  | with_reducible exact plainReg_frame μ (or_trans rfl hm) _ _ _ _ _  | contradiction | split | dsimp only))
    · exact writeOf_frame_of μ (or_trans rfl hm) p .TM_NODE_BURST 0 v _ (by decide) (fun q t => by
    show forget μ (tmWrite q .TM_NODE_BURST 0 v t) = forget μ t; unfold tmWrite; repeat' (first | with_reducible rfl | with_reducible exact nodeWrite_frame μ (or_trans rfl hm) _ _ _ _  | with_reducible exact plainReg_frame μ (or_trans rfl hm) _ _ _ _ _  | contradiction | split | dsimp only))
    · exact writeOf_frame_of μ (or_trans rfl hm) p .TM_NODE_ADJ 0 v _ (by decide) (fun q t => by
    show forget μ (tmWrite q .TM_NODE_ADJ 0 v t) = forget μ t; unfold tmWrite; repeat' (first | with_reducible rfl | with_reducible exact nodeWrite_frame μ (or_trans rfl hm) _ _ _ _  | with_reducible exact plainReg_frame μ (or_trans rfl hm) _ _ _ _ _  | contradiction | split | dsimp only))
    · exact writeOf_frame_of μ (or_trans rfl hm) p .TM_NODE_QLIMIT_G 0 v _ (by decide) (fun q t => by
    show forget μ (tmWrite q .TM_NODE_QLIMIT_G 0 v t) = forget μ t; unfold tmWrite; repeat' (first | with_reducible rfl | with_reducible exact nodeWrite_frame μ (or_trans rfl hm) _ _ _ _  | with_reducible exact plainReg_frame μ (or_trans rfl hm) _ _ _ _ _  | contradiction | split | dsimp only))
    · exact writeOf_frame_of μ (or_trans rfl hm) p .TM_NODE_QLIMIT_Y 0 v _ (by decide) (fun q t => by
    show forget μ (tmWrite q .TM_NODE_QLIMIT_Y 0 v t) = forget μ t; unfold tmWrite; repeat' (first | with_reducible rfl | with_reducible exact nodeWrite_frame μ (or_trans rfl hm) _ _ _ _  | with_reducible exact plainReg_frame μ (or_trans rfl hm) _ _ _ _ _  | contradiction | split | dsimp only))
    · exact writeOf_frame_of μ (or_trans rfl hm) p .TM_NODE_QLIMIT_R 0 v _ (by decide) (fun q t => by
    show forget μ (tmWrite q .TM_NODE_QLIMIT_R 0 v t) = forget μ t; unfold tmWrite; repeat' (first | with_reducible rfl | with_reducible exact nodeWrite_frame μ (or_trans rfl hm) _ _ _ _  | with_reducible exact plainReg_frame μ (or_trans rfl hm) _ _ _ _ _  | contradiction | split | dsimp only))
    · exact writeOf_frame_of μ (or_trans rfl hm) p .TM_NODE_DEFQ 0 v _ (by decide) (fun q t => by
    show forget μ (tmWrite q .TM_NODE_DEFQ 0 v t) = forget μ t; unfold tmWrite; repeat' (first | with_reducible rfl | with_reducible exact nodeWrite_frame μ (or_trans rfl hm) _ _ _ _  | with_reducible exact plainReg_frame μ (or_trans rfl hm) _ _ _ _ _  | contradiction | split | dsimp only))
  · rfl

@[simp] theorem execCtxWrite_frame (μ : Nat) (hm : 34079164 ||| μ = μ) (p : Path) (s : State) : forgetO μ s (execCtxWrite p s) = forget μ s := 
  writeOf_frame_of μ (or_trans rfl hm) p .STO_CTX_CTRL 0 1 _ (by decide) (fun q t => by
    show forget μ (stoWrite q .STO_CTX_CTRL 0 (1 : Word) t) = forget μ t; unfold stoWrite; simp only [show fld 1 2 0 = 1 from rfl]; repeat' (first | with_reducible rfl | with_reducible exact ctxWrite_frame μ (or_trans rfl hm) _ _  | with_reducible exact plainReg_frame μ (or_trans rfl hm) _ _ _ _ _  | contradiction | split | dsimp only))

@[simp] theorem execMbxF2hPop_frame (μ : Nat) (hm : 35931132 ||| μ = μ) (f : Fn) (s : State) : forgetO μ s (execMbxF2hPop f s) = forget μ s := widenO (a := 35931132) hm (by
  unfold execMbxF2hPop
  simp)

@[simp] theorem execVfGrant_frame (μ : Nat) (hm : 37299132 ||| μ = μ) (pf : Nat) (s : State) : forgetO μ s (execVfGrant pf s) = forget μ s := 
  writeOf_frame_of μ (or_trans rfl hm) (.fn (.pf pf)) .HIF_VF_CTRL 0 (w32 1) _ (by decide) (fun q t => by
    show forget μ (hifWrite q .HIF_VF_CTRL 0 (w32 1) t) = forget μ t; unfold hifWrite; repeat' (first | with_reducible rfl | with_reducible exact vfGrant_frame μ (or_trans rfl hm) _ _  | with_reducible exact plainReg_frame μ (or_trans rfl hm) _ _ _ _ _  | (unfold vfCtrl; simp only [show fld (w32 1) 3 0 = 1 from rfl]) | contradiction | split | dsimp only))

@[simp] theorem execQCreate_frame (μ : Nat) (hm : 34079676 ||| μ = μ) (p : Path) (s : State) : forgetO μ s (execQCreate p s) = forget μ s := 
  writeOf_frame_of μ (or_trans rfl hm) p .QM_Q_CTRL 0 1 _ (by decide) (fun q t => by
    show forget μ (qmWrite q .QM_Q_CTRL 0 (1 : Word) t) = forget μ t; unfold qmWrite; repeat' (first | with_reducible rfl | with_reducible exact qCreate_frame μ (or_trans rfl hm) _ _  | with_reducible exact plainReg_frame μ (or_trans rfl hm) _ _ _ _ _  | simp only [show fld 1 1 0 = 1 from rfl] | contradiction | split | dsimp only))

@[simp] theorem execMdioStart_frame (μ : Nat) (hm : 34081212 ||| μ = μ) (p : Path) (v : Word) (s : State) : forgetO μ s (execMdioStart p v s) = forget μ s := 
  writeOf_frame_of μ (or_trans rfl hm) p .MGT_MDIO_CTRL 0 v _ (by decide) (fun q t => by
    show forget μ (parseWrite q .MGT_MDIO_CTRL 0 v t) = forget μ t; unfold parseWrite; repeat' (first | with_reducible rfl | with_reducible exact mdioStart_frame μ (or_trans rfl hm) _ _ _  | with_reducible exact plainReg_frame μ (or_trans rfl hm) _ _ _ _ _  | contradiction | split | dsimp only))

@[simp] theorem execDrain_frame (μ : Nat) (hm : 50331580 ||| μ = μ) (p : Path) (s : State) : forgetO μ s (execDrain p s) = forget μ s := 
  writeOf_frame_of μ (or_trans rfl hm) p .CAI_MODE_REQ 0 1 _ (by decide) (fun q t => by
    show forget μ (caiWrite q .CAI_MODE_REQ 0 (1 : Word) t) = forget μ t; unfold caiWrite; simp only [show wbit 1 0 = true from rfl, if_true]; repeat' (first | with_reducible rfl | with_reducible exact modeRequest_frame μ (or_trans rfl hm) _ _ _  | with_reducible exact plainReg_frame μ (or_trans rfl hm) _ _ _ _ _  | contradiction | split | dsimp only))

@[simp] theorem execRollback_frame (μ : Nat) (hm : 49152956 ||| μ = μ) (p : Path) (s : State) : forgetO μ s (execRollback p s) = forget μ s := by
  unfold execRollback fwAsk
  split
  · split
    · exact rollback_frame μ (or_trans rfl hm) _ _
    · rfl
  · exact writeOf_lcs_frame_of μ (or_trans rfl hm) _ .LCS_FW_CTRL 0 3 _ (by decide) (fun _ _ => rfl) (fun q t => by
      show forget μ (if !lcsAnswers t .LCS_FW_CTRL then t else if !mayWrite t q .LCS_FW_CTRL then t else rollback q t) = forget μ t; repeat' (first | with_reducible rfl | exact rollback_frame μ (or_trans rfl hm) _ _  | split))

@[simp] theorem execNsWrite_frame (μ : Nat) (hm : 34079164 ||| μ = μ) (p : Path) (s : State) : forgetO μ s (execNsWrite p s) = forget μ s := 
  writeOf_frame_of μ (or_trans rfl hm) p .STO_NS_CTRL 0 1 _ (by decide) (fun q t => by
    show forget μ (stoWrite q .STO_NS_CTRL 0 (1 : Word) t) = forget μ t; unfold stoWrite; simp only [show fld 1 1 0 = 1 from rfl]; repeat' (first | with_reducible rfl | with_reducible exact nsWrite_frame μ (or_trans rfl hm) _ _  | with_reducible exact plainReg_frame μ (or_trans rfl hm) _ _ _ _ _  | contradiction | split | dsimp only))

@[simp] theorem execTimRefCfgWrite_frame (μ : Nat) (hm : 36209596 ||| μ = μ) (p : Path) (slot : Nat) (v : Word) (s : State) : forgetO μ s (execTimRefCfgWrite p slot v s) = forget μ s := by
  unfold execTimRefCfgWrite
  rw [forgetO_next]
  split
  · rfl
  · exact writeOf_frame_of μ (or_trans rfl hm) p .TIM_REF_CFG (slot - 1) v _ (regReached_of_lt _ rfl (by decide) _) (fun q t => by
    show forget μ (timWrite q .TIM_REF_CFG (slot - 1) v t) = forget μ t; unfold timWrite; repeat' (first | with_reducible rfl | with_reducible exact refCfgWrite_frame μ (or_trans rfl hm) _ _ _ _  | with_reducible exact plainReg_frame μ (or_trans rfl hm) _ _ _ _ _  | contradiction | split | dsimp only))

@[simp] theorem execMeterWrite_frame (μ : Nat) (hm : 34095548 ||| μ = μ) (p : Path) (s : State) : forgetO μ s (execMeterWrite p s) = forget μ s := 
  writeOf_frame_of μ (or_trans rfl hm) p .TM_METER_CTRL 0 1 _ (by decide) (fun q t => by
    show forget μ (tmWrite q .TM_METER_CTRL 0 (1 : Word) t) = forget μ t; unfold tmWrite; simp only [show fld 1 1 0 = 1 from rfl]; repeat' (first | with_reducible rfl | with_reducible exact meterWrite_frame μ (or_trans rfl hm) _ _  | with_reducible exact plainReg_frame μ (or_trans rfl hm) _ _ _ _ _  | contradiction | split | dsimp only))

@[simp] theorem execProgBankSwitch_frame (μ : Nat) (hm : 34079164 ||| μ = μ) (p : Path) (bank : Bool) (s : State) : forgetO μ s (execProgBankSwitch p bank s) = forget μ s := 
  writeOf_frame_of μ (or_trans rfl hm) p .TBL_PROG_CTRL 0 (w32 (b2n bank)) _ (by decide) (fun q t => by
    show forget μ (parseWrite q .TBL_PROG_CTRL 0 (w32 (b2n bank)) t) = forget μ t; unfold parseWrite; repeat' (first | with_reducible rfl | with_reducible exact plainReg_frame μ (or_trans rfl hm) _ _ _ _ _  | contradiction | split | dsimp only))

@[simp] theorem execChannelStart_frame (μ : Nat) (hm : 37225404 ||| μ = μ) (p : Path) (ch : Nat) (s : State) : forgetO μ s (execChannelStart p ch s) = forget μ s := by
  unfold execChannelStart channelAction
  rw [forgetO_next]
  split
  · refine writeOf_frame_of μ (or_trans rfl hm) p .VF_DMV_CTRL 0 _ _ (by decide) (fun q t => ?_)
    show forget μ (vfWrite q .VF_DMV_CTRL 0 _ t) = forget μ t
    unfold vfWrite
    dsimp only
    rw [fld_at8 _ _ (by decide)]
    repeat' (first | with_reducible rfl | with_reducible exact plainReg_frame μ (or_trans rfl hm) _ _ _ _ _ | (with_reducible refine (mvChannelStart_frame μ (or_trans rfl hm) _ _ _).trans ?_) | with_reducible exact modDmv_frame μ (or_trans rfl hm) _ _ | rw [if_pos (by decide)] | rw [if_neg (by decide)] | contradiction | unfold mvAction | split | dsimp only)
  · exact (writeOf_frame_of μ (or_trans rfl hm) p .DMV_CH_CTRL 0 (w32 3) _ (by decide) (fun q t => by
    show forget μ (dmvWrite q .DMV_CH_CTRL 0 (w32 3) t) = forget μ t; unfold dmvWrite; simp only [show fld (w32 3) 1 0 = 3 from rfl]; repeat' (first | with_reducible rfl | with_reducible exact mvChannelStart_frame μ (or_trans rfl hm) _ _ _  | with_reducible exact plainReg_frame μ (or_trans rfl hm) _ _ _ _ _  | unfold mvAction | contradiction | split | dsimp only))).trans (writeOf_frame_of μ (or_trans rfl hm) p .DMV_CH_SELECT 0 (w32 ch) _ (by decide) (fun q t => by
    exact plainReg_frame μ (or_trans rfl hm) q .DMV_CH_SELECT 0 (w32 ch) t))

@[simp] theorem execFmbxSend_frame (μ : Nat) (hm : 36176828 ||| μ = μ) (p : Path) (v : Word) (s : State) : forgetO μ s (execFmbxSend p v s) = forget μ s := 
  writeOf_frame_of μ (or_trans rfl hm) p .SVC_FMBX_CTRL 0 v _ (by decide) (fun q t => by
    show forget μ (svcWrite q 0 .SVC_FMBX_CTRL 0 v t) = forget μ t; unfold svcWrite; repeat' (first | with_reducible rfl | with_reducible exact fmbxSend_frame μ (or_trans rfl hm) _ _ _  | with_reducible exact plainReg_frame μ (or_trans rfl hm) _ _ _ _ _  | contradiction | split | dsimp only))

@[simp] theorem execCommit_frame (μ : Nat) (hm : 36438972 ||| μ = μ) (p : Path) (s : State) : forgetO μ s (execCommit p s) = forget μ s := by
  unfold execCommit fwAsk
  split
  · split
    · exact commit_frame μ (or_trans rfl hm) _ _
    · rfl
  · exact writeOf_lcs_frame_of μ (or_trans rfl hm) _ .LCS_FW_CTRL 0 2 _ (by decide) (fun _ _ => rfl) (fun q t => by
      show forget μ (if !lcsAnswers t .LCS_FW_CTRL then t else if !mayWrite t q .LCS_FW_CTRL then t else commit q t) = forget μ t; repeat' (first | with_reducible rfl | exact commit_frame μ (or_trans rfl hm) _ _  | split))

@[simp] theorem execActivate_frame (μ : Nat) (hm : 49152956 ||| μ = μ) (p : Path) (s : State) : forgetO μ s (execActivate p s) = forget μ s := by
  unfold execActivate fwAsk
  split
  · split
    · exact activate_frame μ (or_trans rfl hm) _ _
    · rfl
  · exact writeOf_lcs_frame_of μ (or_trans rfl hm) _ .LCS_FW_CTRL 0 1 _ (by decide) (fun _ _ => rfl) (fun q t => by
      show forget μ (if !lcsAnswers t .LCS_FW_CTRL then t else if !mayWrite t q .LCS_FW_CTRL then t else activate q t) = forget μ t; repeat' (first | with_reducible rfl | exact activate_frame μ (or_trans rfl hm) _ _  | split))

@[simp] theorem execNonceRead_frame (μ : Nat) (hm : 35931132 ||| μ = μ) (p : Path) (s : State) : forgetO μ s (execNonceRead p s) = forget μ s := widenO (a := 35931132) hm (by
  unfold execNonceRead
  simp)

@[simp] theorem execDebugEnd_frame (μ : Nat) (hm : 36438972 ||| μ = μ) (p : Path) (s : State) : forgetO μ s (execDebugEnd p s) = forget μ s := 
  writeOf_lcs_frame_of μ (or_trans rfl hm) p .LCS_TOKEN_CTRL 0 2 _ (by decide) (fun _ _ => rfl) (fun q t => by
    show forget μ (if !lcsAnswers t .LCS_TOKEN_CTRL then t else debugEnd q t) = forget μ t; repeat' (first | with_reducible rfl | exact debugEnd_frame μ (or_trans rfl hm) _ _  | split))

@[simp] theorem execForget_frame (μ : Nat) (hm : 40371116 ||| μ = μ) (p : Path) (member : Nat) (s : State) : forgetO μ s (execForget p member s) = forget μ s := by
  have k (v : Word) (q : Path) (t : State) : forget μ (regStore q 0 .AKZ_CTRL 0 v t) = forget μ t := by
    show forget μ (if wbit v 31 then akzForget q (fld v 2 0) t else t) = forget μ t
    split
    · exact akzForget_frame μ (or_trans rfl hm) _ _ _
    · rfl
  unfold execForget
  rw [forgetO_next]
  generalize w32 _ = v
  exact writeOf_frame_of μ (or_trans rfl hm) p .AKZ_CTRL 0 v _ (by decide) (k v)

@[simp] theorem execTimUtcWrite_frame (μ : Nat) (hm : 36209596 ||| μ = μ) (p : Path) (v : Word) (s : State) : forgetO μ s (execTimUtcWrite p v s) = forget μ s := 
  writeOf_frame_of μ (or_trans rfl hm) p .TIM_UTC 0 v _ (by decide) (fun q t => by
    show forget μ (timWrite q .TIM_UTC 0 v t) = forget μ t; unfold timWrite; repeat' (first | with_reducible rfl | with_reducible exact utcWrite_frame μ (or_trans rfl hm) _ _ _  | with_reducible exact plainReg_frame μ (or_trans rfl hm) _ _ _ _ _  | contradiction | split | dsimp only))

@[simp] theorem execChannelAbort_frame (μ : Nat) (hm : 37225404 ||| μ = μ) (p : Path) (ch : Nat) (s : State) : forgetO μ s (execChannelAbort p ch s) = forget μ s := by
  unfold execChannelAbort channelAction
  rw [forgetO_next]
  split
  · refine writeOf_frame_of μ (or_trans rfl hm) p .VF_DMV_CTRL 0 _ _ (by decide) (fun q t => ?_)
    show forget μ (vfWrite q .VF_DMV_CTRL 0 _ t) = forget μ t
    unfold vfWrite
    dsimp only
    rw [fld_at8 _ _ (by decide)]
    repeat' (first | with_reducible rfl | with_reducible exact plainReg_frame μ (or_trans rfl hm) _ _ _ _ _ | (with_reducible refine (mvChannelAbort_frame μ (or_trans rfl hm) _ _ _).trans ?_) | with_reducible exact modDmv_frame μ (or_trans rfl hm) _ _ | rw [if_pos (by decide)] | rw [if_neg (by decide)] | contradiction | unfold mvAction | split | dsimp only)
  · exact (writeOf_frame_of μ (or_trans rfl hm) p .DMV_CH_CTRL 0 (w32 2) _ (by decide) (fun q t => by
    show forget μ (dmvWrite q .DMV_CH_CTRL 0 (w32 2) t) = forget μ t; unfold dmvWrite; simp only [show fld (w32 2) 1 0 = 2 from rfl]; repeat' (first | with_reducible rfl | with_reducible exact mvChannelAbort_frame μ (or_trans rfl hm) _ _ _  | with_reducible exact plainReg_frame μ (or_trans rfl hm) _ _ _ _ _  | unfold mvAction | contradiction | split | dsimp only))).trans (writeOf_frame_of μ (or_trans rfl hm) p .DMV_CH_SELECT 0 (w32 ch) _ (by decide) (fun q t => by
    exact plainReg_frame μ (or_trans rfl hm) q .DMV_CH_SELECT 0 (w32 ch) t))

@[simp] theorem execChannelResume_frame (μ : Nat) (hm : 35127740 ||| μ = μ) (p : Path) (ch : Nat) (s : State) : forgetO μ s (execChannelResume p ch s) = forget μ s := by
  unfold execChannelResume channelAction
  rw [forgetO_next]
  split
  · refine writeOf_frame_of μ (or_trans rfl hm) p .VF_DMV_CTRL 0 _ _ (by decide) (fun q t => ?_)
    show forget μ (vfWrite q .VF_DMV_CTRL 0 _ t) = forget μ t
    unfold vfWrite
    dsimp only
    rw [fld_at8 _ _ (by decide)]
    repeat' (first | with_reducible rfl | with_reducible exact plainReg_frame μ (or_trans rfl hm) _ _ _ _ _ | (with_reducible refine (mvChannelResume_frame μ (or_trans rfl hm) _ _ _).trans ?_) | with_reducible exact modDmv_frame μ (or_trans rfl hm) _ _ | rw [if_pos (by decide)] | rw [if_neg (by decide)] | contradiction | unfold mvAction | split | dsimp only)
  · exact (writeOf_frame_of μ (or_trans rfl hm) p .DMV_CH_CTRL 0 (w32 1) _ (by decide) (fun q t => by
    show forget μ (dmvWrite q .DMV_CH_CTRL 0 (w32 1) t) = forget μ t; unfold dmvWrite; simp only [show fld (w32 1) 1 0 = 1 from rfl]; repeat' (first | with_reducible rfl | with_reducible exact mvChannelResume_frame μ (or_trans rfl hm) _ _ _  | with_reducible exact plainReg_frame μ (or_trans rfl hm) _ _ _ _ _  | unfold mvAction | contradiction | split | dsimp only))).trans (writeOf_frame_of μ (or_trans rfl hm) p .DMV_CH_SELECT 0 (w32 ch) _ (by decide) (fun q t => by
    exact plainReg_frame μ (or_trans rfl hm) q .DMV_CH_SELECT 0 (w32 ch) t))

@[simp] theorem execNsRead_frame (μ : Nat) (hm : 34079164 ||| μ = μ) (p : Path) (s : State) : forgetO μ s (execNsRead p s) = forget μ s := 
  writeOf_frame_of μ (or_trans rfl hm) p .STO_NS_CTRL 0 2 _ (by decide) (fun q t => by
    show forget μ (stoWrite q .STO_NS_CTRL 0 (2 : Word) t) = forget μ t; unfold stoWrite; simp only [show fld 2 1 0 = 2 from rfl]; repeat' (first | with_reducible rfl | with_reducible exact nsRead_frame μ (or_trans rfl hm) _ _  | with_reducible exact plainReg_frame μ (or_trans rfl hm) _ _ _ _ _  | contradiction | split | dsimp only))

@[simp] theorem execCtxDisable_frame (μ : Nat) (hm : 34079676 ||| μ = μ) (p : Path) (s : State) : forgetO μ s (execCtxDisable p s) = forget μ s := 
  writeOf_frame_of μ (or_trans rfl hm) p .STO_CTX_CTRL 0 4 _ (by decide) (fun q t => by
    show forget μ (stoWrite q .STO_CTX_CTRL 0 (4 : Word) t) = forget μ t; unfold stoWrite; simp only [show fld 4 2 0 = 4 from rfl]; repeat' (first | with_reducible rfl | with_reducible exact ctxDisable_frame μ (or_trans rfl hm) _ _  | with_reducible exact plainReg_frame μ (or_trans rfl hm) _ _ _ _ _  | contradiction | split | dsimp only))

@[simp] theorem execGateCommit_frame (μ : Nat) (hm : 36177836 ||| μ = μ) (p : Path) (lp : Nat) (s : State) : forgetO μ s (execGateCommit p lp s) = forget μ s := 
  writeOf_frame_of μ (or_trans rfl hm) p .MAC_GATE_COMMIT lp 1 _ (regReached_of_lt _ rfl (by decide) _) (fun q t => by
    show forget μ (macWrite q .MAC_GATE_COMMIT lp (1 : Word) t) = forget μ t; unfold macWrite; simp only [show wbit 1 0 = true from rfl, if_true]; repeat' (first | with_reducible rfl | with_reducible exact gateCommit_frame μ (or_trans rfl hm) _ _ _  | with_reducible exact plainReg_frame μ (or_trans rfl hm) _ _ _ _ _  | contradiction | split | dsimp only))

@[simp] theorem execTblProgWrite_frame (μ : Nat) (hm : 34087340 ||| μ = μ) (p : Path) (s : State) : forgetO μ s (execTblProgWrite p s) = forget μ s := 
  writeOf_frame_of μ (or_trans rfl hm) p .TBL_PROG_WRITE 0 1 _ (by decide) (fun q t => by
    show forget μ (parseWrite q .TBL_PROG_WRITE 0 (1 : Word) t) = forget μ t; unfold parseWrite; simp only [show wbit 1 0 = true from rfl, if_true]; repeat' (first | with_reducible rfl | with_reducible exact progWrite_frame μ (or_trans rfl hm) _ _  | with_reducible exact plainReg_frame μ (or_trans rfl hm) _ _ _ _ _  | contradiction | split | dsimp only))

@[simp] theorem execPrsIndWrite_frame (μ : Nat) (hm : 34083260 ||| μ = μ) (p : Path) (entry : Bool) (v : Word) (s : State) : forgetO μ s (execPrsIndWrite p entry v s) = forget μ s := by
  cases entry
  · exact writeOf_frame_of μ (or_trans rfl hm) p .PRS_IND_CFG 0 v _ (by decide) (fun q t => by
    show forget μ (parseWrite q .PRS_IND_CFG 0 v t) = forget μ t; unfold parseWrite; repeat' (first | with_reducible rfl | with_reducible exact indWrite_frame μ (or_trans rfl hm) _ _ _ _  | with_reducible exact plainReg_frame μ (or_trans rfl hm) _ _ _ _ _  | contradiction | split | dsimp only))
  · exact writeOf_frame_of μ (or_trans rfl hm) p .PRS_IND_ENTRY 0 v _ (by decide) (fun q t => by
    show forget μ (parseWrite q .PRS_IND_ENTRY 0 v t) = forget μ t; unfold parseWrite; repeat' (first | with_reducible rfl | with_reducible exact indWrite_frame μ (or_trans rfl hm) _ _ _ _  | with_reducible exact plainReg_frame μ (or_trans rfl hm) _ _ _ _ _  | contradiction | split | dsimp only))

@[simp] theorem execStatSnap_frame (μ : Nat) (hm : 34079164 ||| μ = μ) (p : Path) (lp : Nat) (s : State) : forgetO μ s (execStatSnap p lp s) = forget μ s := 
  writeOf_frame_of μ (or_trans rfl hm) p .MAC_LP_STAT_SNAP lp 1 _ (regReached_of_lt _ rfl (by decide) _) (fun q t => by
    show forget μ (macWrite q .MAC_LP_STAT_SNAP lp (1 : Word) t) = forget μ t; unfold macWrite; simp only [show wbit 1 0 = true from rfl, if_true]; repeat' (first | with_reducible rfl | with_reducible exact statSnap_frame μ (or_trans rfl hm) _ _ _  | with_reducible exact plainReg_frame μ (or_trans rfl hm) _ _ _ _ _  | contradiction | split | dsimp only))

@[simp] theorem execPortCfgWrite_frame (μ : Nat) (hm : 36194236 ||| μ = μ) (p : Path) (port : Nat) (v : Word) (s : State) : forgetO μ s (execPortCfgWrite p port v s) = forget μ s := 
  writeOf_frame_of μ (or_trans rfl hm) p .MAC_PORT_CFG port v _ (regReached_of_lt _ rfl (by decide) _) (fun q t => by
    show forget μ (macWrite q .MAC_PORT_CFG port v t) = forget μ t; unfold macWrite; repeat' (first | with_reducible rfl | with_reducible exact portCfgWrite_frame μ (or_trans rfl hm) _ _ _ _  | with_reducible exact plainReg_frame μ (or_trans rfl hm) _ _ _ _ _  | contradiction | split | dsimp only))

@[simp] theorem execVfRestore_frame (μ : Nat) (hm : 36300734 ||| μ = μ) (pf : Nat) (image : HostRead) (s : State) : forgetO μ s (execVfRestore pf image s) = forget μ s := by
  unfold execVfRestore vfCtrlWrite
  rw [forgetO_next]
  refine (vfRestore_frame μ (or_trans rfl hm) _ _ _).trans ?_
  split
  · rfl
  · exact writeOf_frame_of μ (or_trans rfl hm) (.fn (.pf pf)) .HIF_VF_CTRL 0 (w32 7) _ (by decide) (fun q t => by
    show forget μ (hifWrite q .HIF_VF_CTRL 0 (w32 7) t) = forget μ t; unfold hifWrite; repeat' (first | with_reducible rfl | with_reducible exact restoreStart_frame μ (or_trans rfl hm) _ _  | with_reducible exact plainReg_frame μ (or_trans rfl hm) _ _ _ _ _  | (unfold vfCtrl; simp only [show fld (w32 7) 3 0 = 7 from rfl]) | contradiction | split | dsimp only))

@[simp] theorem execVfFreeze_frame (μ : Nat) (hm : 37320636 ||| μ = μ) (pf : Nat) (s : State) : forgetO μ s (execVfFreeze pf s) = forget μ s := 
  writeOf_frame_of μ (or_trans rfl hm) (.fn (.pf pf)) .HIF_VF_CTRL 0 (w32 5) _ (by decide) (fun q t => by
    show forget μ (hifWrite q .HIF_VF_CTRL 0 (w32 5) t) = forget μ t; unfold hifWrite; repeat' (first | with_reducible rfl | with_reducible exact vfFreeze_frame μ (or_trans rfl hm) _ _  | with_reducible exact plainReg_frame μ (or_trans rfl hm) _ _ _ _ _  | (unfold vfCtrl; simp only [show fld (w32 5) 3 0 = 5 from rfl]) | contradiction | split | dsimp only))

@[simp] theorem execLogStop_frame (μ : Nat) (hm : 34079164 ||| μ = μ) (pf : Nat) (s : State) : forgetO μ s (execLogStop pf s) = forget μ s := 
  writeOf_frame_of μ (or_trans rfl hm) (.fn (.pf pf)) .HIF_VF_CTRL 0 (w32 4) _ (by decide) (fun q t => by
    show forget μ (hifWrite q .HIF_VF_CTRL 0 (w32 4) t) = forget μ t; unfold hifWrite; repeat' (first | with_reducible rfl | with_reducible exact logStop_frame μ (or_trans rfl hm) _ _  | with_reducible exact plainReg_frame μ (or_trans rfl hm) _ _ _ _ _  | (unfold vfCtrl; simp only [show fld (w32 4) 3 0 = 4 from rfl]) | contradiction | split | dsimp only))

@[simp] theorem execQueueRestart_frame (μ : Nat) (hm : 36185020 ||| μ = μ) (p : Path) (s : State) : forgetO μ s (execQueueRestart p s) = forget μ s := 
  writeOf_frame_of μ (or_trans rfl hm) p .QM_Q_CTRL 0 3 _ (by decide) (fun q t => by
    show forget μ (qmWrite q .QM_Q_CTRL 0 (3 : Word) t) = forget μ t; unfold qmWrite; repeat' (first | with_reducible rfl | with_reducible exact qRestart_frame μ (or_trans rfl hm) _ _  | with_reducible exact plainReg_frame μ (or_trans rfl hm) _ _ _ _ _  | simp only [show fld 3 1 0 = 3 from rfl] | contradiction | split | dsimp only))

@[simp] theorem execQDestroy_frame (μ : Nat) (hm : 34087868 ||| μ = μ) (p : Path) (s : State) : forgetO μ s (execQDestroy p s) = forget μ s := 
  writeOf_frame_of μ (or_trans rfl hm) p .QM_Q_CTRL 0 2 _ (by decide) (fun q t => by
    show forget μ (qmWrite q .QM_Q_CTRL 0 (2 : Word) t) = forget μ t; unfold qmWrite; repeat' (first | with_reducible rfl | with_reducible exact qDestroy_frame μ (or_trans rfl hm) _ _  | with_reducible exact plainReg_frame μ (or_trans rfl hm) _ _ _ _ _  | simp only [show fld 2 1 0 = 2 from rfl] | contradiction | split | dsimp only))

@[simp] theorem execCancel_frame (μ : Nat) (hm : 50331580 ||| μ = μ) (p : Path) (s : State) : forgetO μ s (execCancel p s) = forget μ s := 
  writeOf_frame_of μ (or_trans rfl hm) p .CAI_MODE_REQ 0 3 _ (by decide) (fun q t => by
    show forget μ (caiWrite q .CAI_MODE_REQ 0 (3 : Word) t) = forget μ t; unfold caiWrite; repeat' (first | with_reducible rfl | with_reducible exact modeRequest_frame μ (or_trans rfl hm) _ _ _  | with_reducible exact plainReg_frame μ (or_trans rfl hm) _ _ _ _ _  | contradiction | split | dsimp only))

@[simp] theorem atWork_frame (μ : Nat) (hm : 33554560 ||| μ = μ) (p : Path) (off : Nat) (s : State) : forget μ (atWork p off s) = forget μ s := widen (a := 33554560) hm (by
  unfold atWork
  simp)

end Sys2Proof.Machine
end

