-- ==== Sys2Proof/Laws/Map.lean ====
section
/-!
SUPPORT. The laws of sparse maps: a read after a write, and that every operation keeps the canonical form.
-/
namespace Sys2Proof.Machine

theorem mfind_mput_same {α : Type} (m : NMap α) (k : Nat) (v : α) : mfind (mput m k v) k = some v := by
  induction m with
  | nil => simp [mput, mfind]
  | cons e t ih =>
    simp only [mput]
    split
    · simp [mfind]
    · split
      · simp [mfind]
      · rename_i h _
        simp [mfind, h, ih]

theorem mfind_mput_other {α : Type} (m : NMap α) (k j : Nat) (v : α) (h : j ≠ k) : mfind (mput m k v) j = mfind m j := by
  induction m with
  | nil => simp [mput, mfind, h]
  | cons e t ih =>
    simp only [mput]
    split
    · rename_i he
      subst he
      simp [mfind, h]
    · split
      · simp [mfind, h]
      · simp only [mfind, ih]

theorem mfind_mdel_same {α : Type} (m : NMap α) (k : Nat) : mfind (mdel m k) k = none := by
  induction m with
  | nil => rfl
  | cons e t ih =>
    by_cases h : e.1 = k
    · simpa [mdel, h] using ih
    · have h' : ¬ k = e.1 := fun c => h c.symm
      simpa [mdel, h, mfind, h'] using ih

theorem mfind_mdel_other {α : Type} (m : NMap α) (k j : Nat) (h : j ≠ k) : mfind (mdel m k) j = mfind m j := by
  induction m with
  | nil => rfl
  | cons e t ih =>
    by_cases c : e.1 = k
    · simpa [mdel, c, mfind, h] using ih
    · by_cases d : j = e.1
      · simp [mdel, c, mfind, d]
      · simpa [mdel, c, mfind, d] using ih

/-- A key reads as what was written to it. -/
@[simp] theorem mget_mset_same {α : Type} [DecidableEq α] (d : α) (m : NMap α) (k : Nat) (v : α) : mget d (mset d m k v) k = v := by
  unfold mset
  split
  · rename_i h
    simp [mget, mfind_mdel_same, h]
  · simp [mget, mfind_mput_same]

/-- A write leaves every other key alone. -/
theorem mget_mset_other {α : Type} [DecidableEq α] (d e : α) (m : NMap α) (k j : Nat) (v : α) (h : j ≠ k) :
    mget e (mset d m k v) j = mget e m j := by
  unfold mset
  split
  · simp [mget, mfind_mdel_other m k j h]
  · simp [mget, mfind_mput_other m k j v h]

@[simp] theorem mget_mmod_same {α : Type} [DecidableEq α] (d : α) (m : NMap α) (k : Nat) (f : α → α) :
    mget d (mmod d m k f) k = f (mget d m k) := mget_mset_same d m k _

theorem mget_mmod_other {α : Type} [DecidableEq α] (d e : α) (m : NMap α) (k j : Nat) (f : α → α) (h : j ≠ k) :
    mget e (mmod d m k f) j = mget e m j := mget_mset_other d e m k j _ h

/-! ### The canonical form -/

theorem mput_mem {α : Type} (m : NMap α) (k : Nat) (v : α) : ∀ e ∈ mput m k v, e = (k, v) ∨ e ∈ m := by
  induction m with
  | nil => intro e h; simpa [mput] using h
  | cons a t ih =>
    intro e h
    simp only [mput] at h
    split at h
    · rcases List.mem_cons.mp h with h | h
      · exact .inl h
      · exact .inr (List.mem_cons_of_mem _ h)
    · split at h
      · rcases List.mem_cons.mp h with h | h
        · exact .inl h
        · exact .inr h
      · rcases List.mem_cons.mp h with h | h
        · exact .inr (h ▸ List.mem_cons_self)
        · rcases ih e h with h | h
          · exact .inl h
          · exact .inr (List.mem_cons_of_mem _ h)

theorem mput_rising {α : Type} (m : NMap α) (k : Nat) (v : α) (w : m.Pairwise (fun a b => a.1 < b.1)) :
    (mput m k v).Pairwise (fun a b => a.1 < b.1) := by
  induction m with
  | nil => simp [mput]
  | cons a t ih =>
    rw [List.pairwise_cons] at w
    simp only [mput]
    split
    · rename_i h
      rw [List.pairwise_cons]
      exact ⟨fun b hb => h ▸ w.1 b hb, w.2⟩
    · split
      · rename_i h
        rw [List.pairwise_cons, List.pairwise_cons]
        refine ⟨fun b hb => ?_, w⟩
        rcases List.mem_cons.mp hb with rfl | hb
        · exact h
        · exact Nat.lt_trans h (w.1 b hb)
      · rename_i h1 h2
        rw [List.pairwise_cons]
        refine ⟨fun b hb => ?_, ih w.2⟩
        rcases mput_mem t k v b hb with rfl | hb
        · show a.1 < k
          omega
        · exact w.1 b hb

/-- Writing keeps the canonical form. -/
theorem mset_wf {α : Type} [DecidableEq α] (d : α) (m : NMap α) (k : Nat) (v : α) (w : NMapWf (fun _ => d) m) :
    NMapWf (fun _ => d) (mset d m k v) := by
  unfold mset
  split
  · exact ⟨w.1.filter _, fun e h => w.2 e ((List.mem_filter.mp h).1)⟩
  · rename_i hv
    refine ⟨mput_rising m k v w.1, fun e h => ?_⟩
    rcases mput_mem m k v e h with rfl | h
    · exact hv
    · exact w.2 e h

theorem mmod_wf {α : Type} [DecidableEq α] (d : α) (m : NMap α) (k : Nat) (f : α → α) (w : NMapWf (fun _ => d) m) :
    NMapWf (fun _ => d) (mmod d m k f) := mset_wf d m k _ w

/-! ### Numbered lists -/

@[simp] theorem updAt_getElem? {α : Type} (i : Nat) (f : α → α) (l : List α) : (updAt i f l)[i]? = l[i]?.map f := by
  unfold updAt
  split
  · rename_i a h
    obtain ⟨h1, h2⟩ := List.getElem?_eq_some_iff.mp h
    simp [h1, h2]
  · rename_i h
    simp [h]

theorem updAt_getElem?_other {α : Type} (i j : Nat) (f : α → α) (l : List α) (h : j ≠ i) : (updAt i f l)[j]? = l[j]? := by
  unfold updAt
  split
  · rw [List.getElem?_set_ne (fun c => h c.symm)]
  · rfl

@[simp] theorem updAt_length {α : Type} (i : Nat) (f : α → α) (l : List α) : (updAt i f l).length = l.length := by
  unfold updAt
  split <;> simp

@[simp] theorem updAt_getElem {α : Type} (i : Nat) (f : α → α) (l : List α) (h : i < (updAt i f l).length) :
    (updAt i f l)[i] = f (l[i]'(by simpa using h)) := by
  have k := updAt_getElem? i f l
  rw [List.getElem?_eq_getElem h, List.getElem?_eq_getElem (by simpa using h)] at k
  simpa using k

/-! ### Registers -/

/-- A register reads as what was stored in it. -/
@[simp] theorem reg_setReg_same (r : Reg) (i h : Nat) (v : Word) (s : State) : reg (setReg r i h v s) r i h = v := by
  simp [reg, setReg]

/-- Storing a register leaves every other one alone. -/
theorem reg_setReg_other (r q : Reg) (i h j k : Nat) (v : Word) (s : State) (n : regKey q j k ≠ regKey r i h) :
    reg (setReg r i h v s) q j k = reg s q j k := by
  simp [reg, setReg, mget_mset_other _ _ _ _ _ _ n]

/-- The name of a register can be read back from its place. -/
theorem ctorIdx_inj {r q : Reg} (h : r.ctorIdx = q.ctorIdx) : r = q := by
  rw [← Reg.ofNat_ctorIdx r, ← Reg.ofNat_ctorIdx q, h]

/-- Storing a register leaves another one alone, at the same instance and holder. -/
@[simp] theorem reg_setReg_ne (r q : Reg) (i h : Nat) (v : Word) (s : State) (n : q ≠ r) :
    reg (setReg r i h v s) q i h = reg s q i h := by
  refine reg_setReg_other r q i h i h v s (fun c => n (ctorIdx_inj ?_))
  simp only [regKey] at c
  omega

/-- A register reads as it did where the stored registers are the same. -/
theorem reg_congr {s t : State} (h : t.regs = s.regs) (r : Reg) (i k : Nat) : reg t r i k = reg s r i k := by
  simp [reg, h]

end Sys2Proof.Machine
end

