-- ==== Sys2Proof/Laws/State.lean ====
section
/-!
SUPPORT. What the plain updates of the state do, field by field, and what the shared operations of Ops and TimeBase leave as it was.
-/
namespace Sys2Proof.Machine
set_option linter.all false

@[simp] theorem modHalf_fields (k : Nat) (g : HalfSt → HalfSt) (s : State) :
    (modHalf k g s).pending = s.pending ∧ (modHalf k g s).elapsed = s.elapsed ∧ (modHalf k g s).out = s.out ∧ (modHalf k g s).free = s.free ∧
    (modHalf k g s).regs = s.regs ∧ (modHalf k g s).occ = s.occ ∧ (modHalf k g s).shadow = s.shadow ∧ (modHalf k g s).cai = s.cai ∧
    (modHalf k g s).qm = s.qm ∧ (modHalf k g s).mac = s.mac ∧ (modHalf k g s).mgt = s.mgt ∧ (modHalf k g s).prs = s.prs ∧
    (modHalf k g s).tbl = s.tbl ∧ (modHalf k g s).tm = s.tm ∧ (modHalf k g s).tim = s.tim ∧ (modHalf k g s).cry = s.cry ∧
    (modHalf k g s).rel = s.rel ∧ (modHalf k g s).lcs = s.lcs ∧ (modHalf k g s).sto = s.sto ∧ (modHalf k g s).dmv = s.dmv ∧
    (modHalf k g s).svc = s.svc ∧ (modHalf k g s).akz = s.akz ∧ (modHalf k g s).dev = s.dev ∧ (modHalf k g s).lastWork = s.lastWork ∧
    (modHalf k g s).hif = { s.hif with halves := updAt k g s.hif.halves } := by
  refine ⟨rfl, rfl, rfl, rfl, rfl, rfl, rfl, rfl, rfl, rfl, rfl, rfl, rfl, rfl, rfl, rfl, rfl, rfl, rfl, rfl, rfl, rfl, rfl, rfl, rfl⟩

@[simp] theorem modFn_fields (f : Fn) (g : FnSt → FnSt) (s : State) :
    (modFn f g s).pending = s.pending ∧ (modFn f g s).elapsed = s.elapsed ∧ (modFn f g s).out = s.out ∧ (modFn f g s).free = s.free ∧
    (modFn f g s).regs = s.regs ∧ (modFn f g s).occ = s.occ ∧ (modFn f g s).shadow = s.shadow ∧ (modFn f g s).cai = s.cai ∧ (modFn f g s).qm = s.qm ∧
    (modFn f g s).mac = s.mac ∧ (modFn f g s).mgt = s.mgt ∧ (modFn f g s).prs = s.prs ∧ (modFn f g s).tbl = s.tbl ∧ (modFn f g s).tm = s.tm ∧
    (modFn f g s).tim = s.tim ∧ (modFn f g s).cry = s.cry ∧ (modFn f g s).rel = s.rel ∧ (modFn f g s).lcs = s.lcs ∧ (modFn f g s).sto = s.sto ∧
    (modFn f g s).dmv = s.dmv ∧ (modFn f g s).svc = s.svc ∧ (modFn f g s).akz = s.akz ∧ (modFn f g s).dev = s.dev ∧
    (modFn f g s).lastWork = s.lastWork ∧ (modFn f g s).hif = { s.hif with fns := mmod {} s.hif.fns (fnCode f) g } := by
  refine ⟨rfl, rfl, rfl, rfl, rfl, rfl, rfl, rfl, rfl, rfl, rfl, rfl, rfl, rfl, rfl, rfl, rfl, rfl, rfl, rfl, rfl, rfl, rfl, rfl, rfl⟩

@[simp] theorem emit_fields (o : Output) (s : State) :
    (emit o s).pending = s.pending ∧ (emit o s).elapsed = s.elapsed ∧ (emit o s).free = s.free ∧ (emit o s).regs = s.regs ∧ (emit o s).occ = s.occ ∧
    (emit o s).shadow = s.shadow ∧ (emit o s).cai = s.cai ∧ (emit o s).hif = s.hif ∧ (emit o s).qm = s.qm ∧ (emit o s).mac = s.mac ∧
    (emit o s).mgt = s.mgt ∧ (emit o s).prs = s.prs ∧ (emit o s).tbl = s.tbl ∧ (emit o s).tm = s.tm ∧ (emit o s).tim = s.tim ∧
    (emit o s).cry = s.cry ∧ (emit o s).rel = s.rel ∧ (emit o s).lcs = s.lcs ∧ (emit o s).sto = s.sto ∧ (emit o s).dmv = s.dmv ∧
    (emit o s).svc = s.svc ∧ (emit o s).akz = s.akz ∧ (emit o s).dev = s.dev ∧ (emit o s).lastWork = s.lastWork ∧ (emit o s).out = o :: s.out := by
  refine ⟨rfl, rfl, rfl, rfl, rfl, rfl, rfl, rfl, rfl, rfl, rfl, rfl, rfl, rfl, rfl, rfl, rfl, rfl, rfl, rfl, rfl, rfl, rfl, rfl, rfl⟩

@[simp] theorem setReg_fields (r : Reg) (i h : Nat) (v : Word) (s : State) :
    (setReg r i h v s).pending = s.pending ∧ (setReg r i h v s).elapsed = s.elapsed ∧ (setReg r i h v s).out = s.out ∧
    (setReg r i h v s).free = s.free ∧ (setReg r i h v s).occ = s.occ ∧ (setReg r i h v s).shadow = s.shadow ∧ (setReg r i h v s).cai = s.cai ∧
    (setReg r i h v s).hif = s.hif ∧ (setReg r i h v s).qm = s.qm ∧ (setReg r i h v s).mac = s.mac ∧ (setReg r i h v s).mgt = s.mgt ∧
    (setReg r i h v s).prs = s.prs ∧ (setReg r i h v s).tbl = s.tbl ∧ (setReg r i h v s).tm = s.tm ∧ (setReg r i h v s).tim = s.tim ∧
    (setReg r i h v s).cry = s.cry ∧ (setReg r i h v s).rel = s.rel ∧ (setReg r i h v s).lcs = s.lcs ∧ (setReg r i h v s).sto = s.sto ∧
    (setReg r i h v s).dmv = s.dmv ∧ (setReg r i h v s).svc = s.svc ∧ (setReg r i h v s).akz = s.akz ∧ (setReg r i h v s).dev = s.dev ∧
    (setReg r i h v s).lastWork = s.lastWork ∧ (setReg r i h v s).regs = mset (resetAt r i) s.regs (regKey r i h) v := by
  refine ⟨rfl, rfl, rfl, rfl, rfl, rfl, rfl, rfl, rfl, rfl, rfl, rfl, rfl, rfl, rfl, rfl, rfl, rfl, rfl, rfl, rfl, rfl, rfl, rfl, rfl⟩

@[simp] theorem countOcc_fields (r : Reg) (i h bit : Nat) (s : State) :
    (countOcc r i h bit s).pending = s.pending ∧ (countOcc r i h bit s).elapsed = s.elapsed ∧ (countOcc r i h bit s).out = s.out ∧
    (countOcc r i h bit s).free = s.free ∧ (countOcc r i h bit s).regs = s.regs ∧ (countOcc r i h bit s).shadow = s.shadow ∧
    (countOcc r i h bit s).cai = s.cai ∧ (countOcc r i h bit s).hif = s.hif ∧ (countOcc r i h bit s).qm = s.qm ∧ (countOcc r i h bit s).mac = s.mac ∧
    (countOcc r i h bit s).mgt = s.mgt ∧ (countOcc r i h bit s).prs = s.prs ∧ (countOcc r i h bit s).tbl = s.tbl ∧ (countOcc r i h bit s).tm = s.tm ∧
    (countOcc r i h bit s).tim = s.tim ∧ (countOcc r i h bit s).cry = s.cry ∧ (countOcc r i h bit s).rel = s.rel ∧
    (countOcc r i h bit s).lcs = s.lcs ∧ (countOcc r i h bit s).sto = s.sto ∧ (countOcc r i h bit s).dmv = s.dmv ∧
    (countOcc r i h bit s).svc = s.svc ∧ (countOcc r i h bit s).akz = s.akz ∧ (countOcc r i h bit s).dev = s.dev ∧
    (countOcc r i h bit s).lastWork = s.lastWork := by
  refine ⟨rfl, rfl, rfl, rfl, rfl, rfl, rfl, rfl, rfl, rfl, rfl, rfl, rfl, rfl, rfl, rfl, rfl, rfl, rfl, rfl, rfl, rfl, rfl, rfl⟩

@[simp] theorem modQueue_fields (f : Fn) (q : Nat) (g : Queue → Queue) (s : State) :
    (modQueue f q g s).pending = s.pending ∧ (modQueue f q g s).elapsed = s.elapsed ∧ (modQueue f q g s).out = s.out ∧
    (modQueue f q g s).free = s.free ∧ (modQueue f q g s).regs = s.regs ∧ (modQueue f q g s).occ = s.occ ∧ (modQueue f q g s).shadow = s.shadow ∧
    (modQueue f q g s).cai = s.cai ∧ (modQueue f q g s).hif = s.hif ∧ (modQueue f q g s).mac = s.mac ∧ (modQueue f q g s).mgt = s.mgt ∧
    (modQueue f q g s).prs = s.prs ∧ (modQueue f q g s).tbl = s.tbl ∧ (modQueue f q g s).tm = s.tm ∧ (modQueue f q g s).tim = s.tim ∧
    (modQueue f q g s).cry = s.cry ∧ (modQueue f q g s).rel = s.rel ∧ (modQueue f q g s).lcs = s.lcs ∧ (modQueue f q g s).sto = s.sto ∧
    (modQueue f q g s).dmv = s.dmv ∧ (modQueue f q g s).svc = s.svc ∧ (modQueue f q g s).akz = s.akz ∧ (modQueue f q g s).dev = s.dev ∧
    (modQueue f q g s).lastWork = s.lastWork ∧ (modQueue f q g s).qm = { s.qm with queues := mmod {} s.qm.queues (qKey f q) g } := by
  refine ⟨rfl, rfl, rfl, rfl, rfl, rfl, rfl, rfl, rfl, rfl, rfl, rfl, rfl, rfl, rfl, rfl, rfl, rfl, rfl, rfl, rfl, rfl, rfl, rfl, rfl⟩

@[simp] theorem modCai_fields (g : Cai → Cai) (s : State) :
    (modCai g s).pending = s.pending ∧ (modCai g s).elapsed = s.elapsed ∧ (modCai g s).out = s.out ∧ (modCai g s).free = s.free ∧
    (modCai g s).regs = s.regs ∧ (modCai g s).occ = s.occ ∧ (modCai g s).shadow = s.shadow ∧ (modCai g s).hif = s.hif ∧ (modCai g s).qm = s.qm ∧
    (modCai g s).mac = s.mac ∧ (modCai g s).mgt = s.mgt ∧ (modCai g s).prs = s.prs ∧ (modCai g s).tbl = s.tbl ∧ (modCai g s).tm = s.tm ∧
    (modCai g s).tim = s.tim ∧ (modCai g s).cry = s.cry ∧ (modCai g s).rel = s.rel ∧ (modCai g s).lcs = s.lcs ∧ (modCai g s).sto = s.sto ∧
    (modCai g s).dmv = s.dmv ∧ (modCai g s).svc = s.svc ∧ (modCai g s).akz = s.akz ∧ (modCai g s).dev = s.dev ∧ (modCai g s).lastWork = s.lastWork ∧
    (modCai g s).cai = g s.cai := by
  refine ⟨rfl, rfl, rfl, rfl, rfl, rfl, rfl, rfl, rfl, rfl, rfl, rfl, rfl, rfl, rfl, rfl, rfl, rfl, rfl, rfl, rfl, rfl, rfl, rfl, rfl⟩

@[simp] theorem modTim_fields (g : Tim → Tim) (s : State) :
    (modTim g s).pending = s.pending ∧ (modTim g s).elapsed = s.elapsed ∧ (modTim g s).out = s.out ∧ (modTim g s).free = s.free ∧
    (modTim g s).regs = s.regs ∧ (modTim g s).occ = s.occ ∧ (modTim g s).shadow = s.shadow ∧ (modTim g s).cai = s.cai ∧ (modTim g s).hif = s.hif ∧
    (modTim g s).qm = s.qm ∧ (modTim g s).mac = s.mac ∧ (modTim g s).mgt = s.mgt ∧ (modTim g s).prs = s.prs ∧ (modTim g s).tbl = s.tbl ∧
    (modTim g s).tm = s.tm ∧ (modTim g s).cry = s.cry ∧ (modTim g s).rel = s.rel ∧ (modTim g s).lcs = s.lcs ∧ (modTim g s).sto = s.sto ∧
    (modTim g s).dmv = s.dmv ∧ (modTim g s).svc = s.svc ∧ (modTim g s).akz = s.akz ∧ (modTim g s).dev = s.dev ∧ (modTim g s).lastWork = s.lastWork ∧
    (modTim g s).tim = g s.tim := by
  refine ⟨rfl, rfl, rfl, rfl, rfl, rfl, rfl, rfl, rfl, rfl, rfl, rfl, rfl, rfl, rfl, rfl, rfl, rfl, rfl, rfl, rfl, rfl, rfl, rfl, rfl⟩

@[simp] theorem modHif_fields (g : Hif → Hif) (s : State) :
    (modHif g s).pending = s.pending ∧ (modHif g s).elapsed = s.elapsed ∧ (modHif g s).out = s.out ∧ (modHif g s).free = s.free ∧
    (modHif g s).regs = s.regs ∧ (modHif g s).occ = s.occ ∧ (modHif g s).shadow = s.shadow ∧ (modHif g s).cai = s.cai ∧ (modHif g s).qm = s.qm ∧
    (modHif g s).mac = s.mac ∧ (modHif g s).mgt = s.mgt ∧ (modHif g s).prs = s.prs ∧ (modHif g s).tbl = s.tbl ∧ (modHif g s).tm = s.tm ∧
    (modHif g s).tim = s.tim ∧ (modHif g s).cry = s.cry ∧ (modHif g s).rel = s.rel ∧ (modHif g s).lcs = s.lcs ∧ (modHif g s).sto = s.sto ∧
    (modHif g s).dmv = s.dmv ∧ (modHif g s).svc = s.svc ∧ (modHif g s).akz = s.akz ∧ (modHif g s).dev = s.dev ∧ (modHif g s).lastWork = s.lastWork ∧
    (modHif g s).hif = g s.hif := by
  refine ⟨rfl, rfl, rfl, rfl, rfl, rfl, rfl, rfl, rfl, rfl, rfl, rfl, rfl, rfl, rfl, rfl, rfl, rfl, rfl, rfl, rfl, rfl, rfl, rfl, rfl⟩

@[simp] theorem modQm_fields (g : Qm → Qm) (s : State) :
    (modQm g s).pending = s.pending ∧ (modQm g s).elapsed = s.elapsed ∧ (modQm g s).out = s.out ∧ (modQm g s).free = s.free ∧
    (modQm g s).regs = s.regs ∧ (modQm g s).occ = s.occ ∧ (modQm g s).shadow = s.shadow ∧ (modQm g s).cai = s.cai ∧ (modQm g s).hif = s.hif ∧
    (modQm g s).mac = s.mac ∧ (modQm g s).mgt = s.mgt ∧ (modQm g s).prs = s.prs ∧ (modQm g s).tbl = s.tbl ∧ (modQm g s).tm = s.tm ∧
    (modQm g s).tim = s.tim ∧ (modQm g s).cry = s.cry ∧ (modQm g s).rel = s.rel ∧ (modQm g s).lcs = s.lcs ∧ (modQm g s).sto = s.sto ∧
    (modQm g s).dmv = s.dmv ∧ (modQm g s).svc = s.svc ∧ (modQm g s).akz = s.akz ∧ (modQm g s).dev = s.dev ∧ (modQm g s).lastWork = s.lastWork ∧
    (modQm g s).qm = g s.qm := by
  refine ⟨rfl, rfl, rfl, rfl, rfl, rfl, rfl, rfl, rfl, rfl, rfl, rfl, rfl, rfl, rfl, rfl, rfl, rfl, rfl, rfl, rfl, rfl, rfl, rfl, rfl⟩

@[simp] theorem modTbl_fields (g : Tbl → Tbl) (s : State) :
    (modTbl g s).pending = s.pending ∧ (modTbl g s).elapsed = s.elapsed ∧ (modTbl g s).out = s.out ∧ (modTbl g s).free = s.free ∧
    (modTbl g s).regs = s.regs ∧ (modTbl g s).occ = s.occ ∧ (modTbl g s).shadow = s.shadow ∧ (modTbl g s).cai = s.cai ∧ (modTbl g s).hif = s.hif ∧
    (modTbl g s).qm = s.qm ∧ (modTbl g s).mac = s.mac ∧ (modTbl g s).mgt = s.mgt ∧ (modTbl g s).prs = s.prs ∧ (modTbl g s).tm = s.tm ∧
    (modTbl g s).tim = s.tim ∧ (modTbl g s).cry = s.cry ∧ (modTbl g s).rel = s.rel ∧ (modTbl g s).lcs = s.lcs ∧ (modTbl g s).sto = s.sto ∧
    (modTbl g s).dmv = s.dmv ∧ (modTbl g s).svc = s.svc ∧ (modTbl g s).akz = s.akz ∧ (modTbl g s).dev = s.dev ∧ (modTbl g s).lastWork = s.lastWork ∧
    (modTbl g s).tbl = g s.tbl := by
  refine ⟨rfl, rfl, rfl, rfl, rfl, rfl, rfl, rfl, rfl, rfl, rfl, rfl, rfl, rfl, rfl, rfl, rfl, rfl, rfl, rfl, rfl, rfl, rfl, rfl, rfl⟩

@[simp] theorem modTm_fields (g : Tm → Tm) (s : State) :
    (modTm g s).pending = s.pending ∧ (modTm g s).elapsed = s.elapsed ∧ (modTm g s).out = s.out ∧ (modTm g s).free = s.free ∧
    (modTm g s).regs = s.regs ∧ (modTm g s).occ = s.occ ∧ (modTm g s).shadow = s.shadow ∧ (modTm g s).cai = s.cai ∧ (modTm g s).hif = s.hif ∧
    (modTm g s).qm = s.qm ∧ (modTm g s).mac = s.mac ∧ (modTm g s).mgt = s.mgt ∧ (modTm g s).prs = s.prs ∧ (modTm g s).tbl = s.tbl ∧
    (modTm g s).tim = s.tim ∧ (modTm g s).cry = s.cry ∧ (modTm g s).rel = s.rel ∧ (modTm g s).lcs = s.lcs ∧ (modTm g s).sto = s.sto ∧
    (modTm g s).dmv = s.dmv ∧ (modTm g s).svc = s.svc ∧ (modTm g s).akz = s.akz ∧ (modTm g s).dev = s.dev ∧ (modTm g s).lastWork = s.lastWork ∧
    (modTm g s).tm = g s.tm := by
  refine ⟨rfl, rfl, rfl, rfl, rfl, rfl, rfl, rfl, rfl, rfl, rfl, rfl, rfl, rfl, rfl, rfl, rfl, rfl, rfl, rfl, rfl, rfl, rfl, rfl, rfl⟩

@[simp] theorem modPrs_fields (g : Prs → Prs) (s : State) :
    (modPrs g s).pending = s.pending ∧ (modPrs g s).elapsed = s.elapsed ∧ (modPrs g s).out = s.out ∧ (modPrs g s).free = s.free ∧
    (modPrs g s).regs = s.regs ∧ (modPrs g s).occ = s.occ ∧ (modPrs g s).shadow = s.shadow ∧ (modPrs g s).cai = s.cai ∧ (modPrs g s).hif = s.hif ∧
    (modPrs g s).qm = s.qm ∧ (modPrs g s).mac = s.mac ∧ (modPrs g s).mgt = s.mgt ∧ (modPrs g s).tbl = s.tbl ∧ (modPrs g s).tm = s.tm ∧
    (modPrs g s).tim = s.tim ∧ (modPrs g s).cry = s.cry ∧ (modPrs g s).rel = s.rel ∧ (modPrs g s).lcs = s.lcs ∧ (modPrs g s).sto = s.sto ∧
    (modPrs g s).dmv = s.dmv ∧ (modPrs g s).svc = s.svc ∧ (modPrs g s).akz = s.akz ∧ (modPrs g s).dev = s.dev ∧ (modPrs g s).lastWork = s.lastWork ∧
    (modPrs g s).prs = g s.prs := by
  refine ⟨rfl, rfl, rfl, rfl, rfl, rfl, rfl, rfl, rfl, rfl, rfl, rfl, rfl, rfl, rfl, rfl, rfl, rfl, rfl, rfl, rfl, rfl, rfl, rfl, rfl⟩

@[simp] theorem modMac_fields (g : Mac → Mac) (s : State) :
    (modMac g s).pending = s.pending ∧ (modMac g s).elapsed = s.elapsed ∧ (modMac g s).out = s.out ∧ (modMac g s).free = s.free ∧
    (modMac g s).regs = s.regs ∧ (modMac g s).occ = s.occ ∧ (modMac g s).shadow = s.shadow ∧ (modMac g s).cai = s.cai ∧ (modMac g s).hif = s.hif ∧
    (modMac g s).qm = s.qm ∧ (modMac g s).mgt = s.mgt ∧ (modMac g s).prs = s.prs ∧ (modMac g s).tbl = s.tbl ∧ (modMac g s).tm = s.tm ∧
    (modMac g s).tim = s.tim ∧ (modMac g s).cry = s.cry ∧ (modMac g s).rel = s.rel ∧ (modMac g s).lcs = s.lcs ∧ (modMac g s).sto = s.sto ∧
    (modMac g s).dmv = s.dmv ∧ (modMac g s).svc = s.svc ∧ (modMac g s).akz = s.akz ∧ (modMac g s).dev = s.dev ∧ (modMac g s).lastWork = s.lastWork ∧
    (modMac g s).mac = g s.mac := by
  refine ⟨rfl, rfl, rfl, rfl, rfl, rfl, rfl, rfl, rfl, rfl, rfl, rfl, rfl, rfl, rfl, rfl, rfl, rfl, rfl, rfl, rfl, rfl, rfl, rfl, rfl⟩

@[simp] theorem modMgt_fields (g : Mgt → Mgt) (s : State) :
    (modMgt g s).pending = s.pending ∧ (modMgt g s).elapsed = s.elapsed ∧ (modMgt g s).out = s.out ∧ (modMgt g s).free = s.free ∧
    (modMgt g s).regs = s.regs ∧ (modMgt g s).occ = s.occ ∧ (modMgt g s).shadow = s.shadow ∧ (modMgt g s).cai = s.cai ∧ (modMgt g s).hif = s.hif ∧
    (modMgt g s).qm = s.qm ∧ (modMgt g s).mac = s.mac ∧ (modMgt g s).prs = s.prs ∧ (modMgt g s).tbl = s.tbl ∧ (modMgt g s).tm = s.tm ∧
    (modMgt g s).tim = s.tim ∧ (modMgt g s).cry = s.cry ∧ (modMgt g s).rel = s.rel ∧ (modMgt g s).lcs = s.lcs ∧ (modMgt g s).sto = s.sto ∧
    (modMgt g s).dmv = s.dmv ∧ (modMgt g s).svc = s.svc ∧ (modMgt g s).akz = s.akz ∧ (modMgt g s).dev = s.dev ∧ (modMgt g s).lastWork = s.lastWork ∧
    (modMgt g s).mgt = g s.mgt := by
  refine ⟨rfl, rfl, rfl, rfl, rfl, rfl, rfl, rfl, rfl, rfl, rfl, rfl, rfl, rfl, rfl, rfl, rfl, rfl, rfl, rfl, rfl, rfl, rfl, rfl, rfl⟩

@[simp] theorem modCry_fields (g : Cry → Cry) (s : State) :
    (modCry g s).pending = s.pending ∧ (modCry g s).elapsed = s.elapsed ∧ (modCry g s).out = s.out ∧ (modCry g s).free = s.free ∧
    (modCry g s).regs = s.regs ∧ (modCry g s).occ = s.occ ∧ (modCry g s).shadow = s.shadow ∧ (modCry g s).cai = s.cai ∧ (modCry g s).hif = s.hif ∧
    (modCry g s).qm = s.qm ∧ (modCry g s).mac = s.mac ∧ (modCry g s).mgt = s.mgt ∧ (modCry g s).prs = s.prs ∧ (modCry g s).tbl = s.tbl ∧
    (modCry g s).tm = s.tm ∧ (modCry g s).tim = s.tim ∧ (modCry g s).rel = s.rel ∧ (modCry g s).lcs = s.lcs ∧ (modCry g s).sto = s.sto ∧
    (modCry g s).dmv = s.dmv ∧ (modCry g s).svc = s.svc ∧ (modCry g s).akz = s.akz ∧ (modCry g s).dev = s.dev ∧ (modCry g s).lastWork = s.lastWork ∧
    (modCry g s).cry = g s.cry := by
  refine ⟨rfl, rfl, rfl, rfl, rfl, rfl, rfl, rfl, rfl, rfl, rfl, rfl, rfl, rfl, rfl, rfl, rfl, rfl, rfl, rfl, rfl, rfl, rfl, rfl, rfl⟩

@[simp] theorem modRel_fields (g : Rel → Rel) (s : State) :
    (modRel g s).pending = s.pending ∧ (modRel g s).elapsed = s.elapsed ∧ (modRel g s).out = s.out ∧ (modRel g s).free = s.free ∧
    (modRel g s).regs = s.regs ∧ (modRel g s).occ = s.occ ∧ (modRel g s).shadow = s.shadow ∧ (modRel g s).cai = s.cai ∧ (modRel g s).hif = s.hif ∧
    (modRel g s).qm = s.qm ∧ (modRel g s).mac = s.mac ∧ (modRel g s).mgt = s.mgt ∧ (modRel g s).prs = s.prs ∧ (modRel g s).tbl = s.tbl ∧
    (modRel g s).tm = s.tm ∧ (modRel g s).tim = s.tim ∧ (modRel g s).cry = s.cry ∧ (modRel g s).lcs = s.lcs ∧ (modRel g s).sto = s.sto ∧
    (modRel g s).dmv = s.dmv ∧ (modRel g s).svc = s.svc ∧ (modRel g s).akz = s.akz ∧ (modRel g s).dev = s.dev ∧ (modRel g s).lastWork = s.lastWork ∧
    (modRel g s).rel = g s.rel := by
  refine ⟨rfl, rfl, rfl, rfl, rfl, rfl, rfl, rfl, rfl, rfl, rfl, rfl, rfl, rfl, rfl, rfl, rfl, rfl, rfl, rfl, rfl, rfl, rfl, rfl, rfl⟩

@[simp] theorem modLcs_fields (g : Lcs → Lcs) (s : State) :
    (modLcs g s).pending = s.pending ∧ (modLcs g s).elapsed = s.elapsed ∧ (modLcs g s).out = s.out ∧ (modLcs g s).free = s.free ∧
    (modLcs g s).regs = s.regs ∧ (modLcs g s).occ = s.occ ∧ (modLcs g s).shadow = s.shadow ∧ (modLcs g s).cai = s.cai ∧ (modLcs g s).hif = s.hif ∧
    (modLcs g s).qm = s.qm ∧ (modLcs g s).mac = s.mac ∧ (modLcs g s).mgt = s.mgt ∧ (modLcs g s).prs = s.prs ∧ (modLcs g s).tbl = s.tbl ∧
    (modLcs g s).tm = s.tm ∧ (modLcs g s).tim = s.tim ∧ (modLcs g s).cry = s.cry ∧ (modLcs g s).rel = s.rel ∧ (modLcs g s).sto = s.sto ∧
    (modLcs g s).dmv = s.dmv ∧ (modLcs g s).svc = s.svc ∧ (modLcs g s).akz = s.akz ∧ (modLcs g s).dev = s.dev ∧ (modLcs g s).lastWork = s.lastWork ∧
    (modLcs g s).lcs = g s.lcs := by
  refine ⟨rfl, rfl, rfl, rfl, rfl, rfl, rfl, rfl, rfl, rfl, rfl, rfl, rfl, rfl, rfl, rfl, rfl, rfl, rfl, rfl, rfl, rfl, rfl, rfl, rfl⟩

@[simp] theorem modSto_fields (g : Sto → Sto) (s : State) :
    (modSto g s).pending = s.pending ∧ (modSto g s).elapsed = s.elapsed ∧ (modSto g s).out = s.out ∧ (modSto g s).free = s.free ∧
    (modSto g s).regs = s.regs ∧ (modSto g s).occ = s.occ ∧ (modSto g s).shadow = s.shadow ∧ (modSto g s).cai = s.cai ∧ (modSto g s).hif = s.hif ∧
    (modSto g s).qm = s.qm ∧ (modSto g s).mac = s.mac ∧ (modSto g s).mgt = s.mgt ∧ (modSto g s).prs = s.prs ∧ (modSto g s).tbl = s.tbl ∧
    (modSto g s).tm = s.tm ∧ (modSto g s).tim = s.tim ∧ (modSto g s).cry = s.cry ∧ (modSto g s).rel = s.rel ∧ (modSto g s).lcs = s.lcs ∧
    (modSto g s).dmv = s.dmv ∧ (modSto g s).svc = s.svc ∧ (modSto g s).akz = s.akz ∧ (modSto g s).dev = s.dev ∧ (modSto g s).lastWork = s.lastWork ∧
    (modSto g s).sto = g s.sto := by
  refine ⟨rfl, rfl, rfl, rfl, rfl, rfl, rfl, rfl, rfl, rfl, rfl, rfl, rfl, rfl, rfl, rfl, rfl, rfl, rfl, rfl, rfl, rfl, rfl, rfl, rfl⟩

@[simp] theorem modDmv_fields (g : Dmv → Dmv) (s : State) :
    (modDmv g s).pending = s.pending ∧ (modDmv g s).elapsed = s.elapsed ∧ (modDmv g s).out = s.out ∧ (modDmv g s).free = s.free ∧
    (modDmv g s).regs = s.regs ∧ (modDmv g s).occ = s.occ ∧ (modDmv g s).shadow = s.shadow ∧ (modDmv g s).cai = s.cai ∧ (modDmv g s).hif = s.hif ∧
    (modDmv g s).qm = s.qm ∧ (modDmv g s).mac = s.mac ∧ (modDmv g s).mgt = s.mgt ∧ (modDmv g s).prs = s.prs ∧ (modDmv g s).tbl = s.tbl ∧
    (modDmv g s).tm = s.tm ∧ (modDmv g s).tim = s.tim ∧ (modDmv g s).cry = s.cry ∧ (modDmv g s).rel = s.rel ∧ (modDmv g s).lcs = s.lcs ∧
    (modDmv g s).sto = s.sto ∧ (modDmv g s).svc = s.svc ∧ (modDmv g s).akz = s.akz ∧ (modDmv g s).dev = s.dev ∧ (modDmv g s).lastWork = s.lastWork ∧
    (modDmv g s).dmv = g s.dmv := by
  refine ⟨rfl, rfl, rfl, rfl, rfl, rfl, rfl, rfl, rfl, rfl, rfl, rfl, rfl, rfl, rfl, rfl, rfl, rfl, rfl, rfl, rfl, rfl, rfl, rfl, rfl⟩

@[simp] theorem modSvc_fields (g : Svc → Svc) (s : State) :
    (modSvc g s).pending = s.pending ∧ (modSvc g s).elapsed = s.elapsed ∧ (modSvc g s).out = s.out ∧ (modSvc g s).free = s.free ∧
    (modSvc g s).regs = s.regs ∧ (modSvc g s).occ = s.occ ∧ (modSvc g s).shadow = s.shadow ∧ (modSvc g s).cai = s.cai ∧ (modSvc g s).hif = s.hif ∧
    (modSvc g s).qm = s.qm ∧ (modSvc g s).mac = s.mac ∧ (modSvc g s).mgt = s.mgt ∧ (modSvc g s).prs = s.prs ∧ (modSvc g s).tbl = s.tbl ∧
    (modSvc g s).tm = s.tm ∧ (modSvc g s).tim = s.tim ∧ (modSvc g s).cry = s.cry ∧ (modSvc g s).rel = s.rel ∧ (modSvc g s).lcs = s.lcs ∧
    (modSvc g s).sto = s.sto ∧ (modSvc g s).dmv = s.dmv ∧ (modSvc g s).akz = s.akz ∧ (modSvc g s).dev = s.dev ∧ (modSvc g s).lastWork = s.lastWork ∧
    (modSvc g s).svc = g s.svc := by
  refine ⟨rfl, rfl, rfl, rfl, rfl, rfl, rfl, rfl, rfl, rfl, rfl, rfl, rfl, rfl, rfl, rfl, rfl, rfl, rfl, rfl, rfl, rfl, rfl, rfl, rfl⟩

@[simp] theorem modAkz_fields (g : Akz → Akz) (s : State) :
    (modAkz g s).pending = s.pending ∧ (modAkz g s).elapsed = s.elapsed ∧ (modAkz g s).out = s.out ∧ (modAkz g s).free = s.free ∧
    (modAkz g s).regs = s.regs ∧ (modAkz g s).occ = s.occ ∧ (modAkz g s).shadow = s.shadow ∧ (modAkz g s).cai = s.cai ∧ (modAkz g s).hif = s.hif ∧
    (modAkz g s).qm = s.qm ∧ (modAkz g s).mac = s.mac ∧ (modAkz g s).mgt = s.mgt ∧ (modAkz g s).prs = s.prs ∧ (modAkz g s).tbl = s.tbl ∧
    (modAkz g s).tm = s.tm ∧ (modAkz g s).tim = s.tim ∧ (modAkz g s).cry = s.cry ∧ (modAkz g s).rel = s.rel ∧ (modAkz g s).lcs = s.lcs ∧
    (modAkz g s).sto = s.sto ∧ (modAkz g s).dmv = s.dmv ∧ (modAkz g s).svc = s.svc ∧ (modAkz g s).dev = s.dev ∧ (modAkz g s).lastWork = s.lastWork ∧
    (modAkz g s).akz = g s.akz := by
  refine ⟨rfl, rfl, rfl, rfl, rfl, rfl, rfl, rfl, rfl, rfl, rfl, rfl, rfl, rfl, rfl, rfl, rfl, rfl, rfl, rfl, rfl, rfl, rfl, rfl, rfl⟩

@[simp] theorem modWork_fields (f : Fn) (q : Nat) (ctr : BitVec 16) (g : Work → Work) (s : State) :
    (modWork f q ctr g s).pending = s.pending ∧ (modWork f q ctr g s).elapsed = s.elapsed ∧ (modWork f q ctr g s).out = s.out ∧
    (modWork f q ctr g s).free = s.free ∧ (modWork f q ctr g s).regs = s.regs ∧ (modWork f q ctr g s).occ = s.occ ∧
    (modWork f q ctr g s).shadow = s.shadow ∧ (modWork f q ctr g s).cai = s.cai ∧ (modWork f q ctr g s).hif = s.hif ∧
    (modWork f q ctr g s).mac = s.mac ∧ (modWork f q ctr g s).mgt = s.mgt ∧ (modWork f q ctr g s).prs = s.prs ∧ (modWork f q ctr g s).tbl = s.tbl ∧
    (modWork f q ctr g s).tm = s.tm ∧ (modWork f q ctr g s).tim = s.tim ∧ (modWork f q ctr g s).cry = s.cry ∧ (modWork f q ctr g s).rel = s.rel ∧
    (modWork f q ctr g s).lcs = s.lcs ∧ (modWork f q ctr g s).sto = s.sto ∧ (modWork f q ctr g s).dmv = s.dmv ∧ (modWork f q ctr g s).svc = s.svc ∧
    (modWork f q ctr g s).akz = s.akz ∧ (modWork f q ctr g s).dev = s.dev ∧ (modWork f q ctr g s).lastWork = s.lastWork := by
  have h := modWork_frame 512 rfl f q ctr g s
  refine ⟨pending_of_frame h rfl, elapsed_of_frame h rfl, out_of_frame h rfl, free_of_frame h rfl, regs_of_frame h rfl, occ_of_frame h rfl, shadow_of_frame h rfl, cai_of_frame h rfl, hif_of_frame h rfl, mac_of_frame h rfl, mgt_of_frame h rfl, prs_of_frame h rfl, tbl_of_frame h rfl, tm_of_frame h rfl, tim_of_frame h rfl, cry_of_frame h rfl, rel_of_frame h rfl, lcs_of_frame h rfl rfl, sto_of_frame h rfl, dmv_of_frame h rfl, svc_of_frame h rfl, akz_of_frame h rfl, dev_of_frame h rfl, lastWork_of_frame h rfl⟩

@[simp] theorem hwSet_fields (r : Reg) (i : Nat) (h : Nat) (bit : Nat) (s : State) :
    (hwSet r i h bit s).pending = s.pending ∧ (hwSet r i h bit s).elapsed = s.elapsed ∧ (hwSet r i h bit s).out = s.out ∧
    (hwSet r i h bit s).free = s.free ∧ (hwSet r i h bit s).shadow = s.shadow ∧ (hwSet r i h bit s).cai = s.cai ∧ (hwSet r i h bit s).hif = s.hif ∧
    (hwSet r i h bit s).qm = s.qm ∧ (hwSet r i h bit s).mac = s.mac ∧ (hwSet r i h bit s).mgt = s.mgt ∧ (hwSet r i h bit s).prs = s.prs ∧
    (hwSet r i h bit s).tbl = s.tbl ∧ (hwSet r i h bit s).tm = s.tm ∧ (hwSet r i h bit s).tim = s.tim ∧ (hwSet r i h bit s).cry = s.cry ∧
    (hwSet r i h bit s).rel = s.rel ∧ (hwSet r i h bit s).lcs = s.lcs ∧ (hwSet r i h bit s).sto = s.sto ∧ (hwSet r i h bit s).dmv = s.dmv ∧
    (hwSet r i h bit s).svc = s.svc ∧ (hwSet r i h bit s).akz = s.akz ∧ (hwSet r i h bit s).dev = s.dev ∧ (hwSet r i h bit s).lastWork = s.lastWork := by
  have h := hwSet_frame 48 rfl r i h bit s
  refine ⟨pending_of_frame h rfl, elapsed_of_frame h rfl, out_of_frame h rfl, free_of_frame h rfl, shadow_of_frame h rfl, cai_of_frame h rfl, hif_of_frame h rfl, qm_of_frame h rfl, mac_of_frame h rfl, mgt_of_frame h rfl, prs_of_frame h rfl, tbl_of_frame h rfl, tm_of_frame h rfl, tim_of_frame h rfl, cry_of_frame h rfl, rel_of_frame h rfl, lcs_of_frame h rfl rfl, sto_of_frame h rfl, dmv_of_frame h rfl, svc_of_frame h rfl, akz_of_frame h rfl, dev_of_frame h rfl, lastWork_of_frame h rfl⟩

@[simp] theorem modMsgs_fields (c : Nat) (g : List ChMsg → List ChMsg) (s : State) :
    (modMsgs c g s).pending = s.pending ∧ (modMsgs c g s).elapsed = s.elapsed ∧ (modMsgs c g s).out = s.out ∧ (modMsgs c g s).free = s.free ∧
    (modMsgs c g s).regs = s.regs ∧ (modMsgs c g s).occ = s.occ ∧ (modMsgs c g s).shadow = s.shadow ∧ (modMsgs c g s).cai = s.cai ∧
    (modMsgs c g s).hif = s.hif ∧ (modMsgs c g s).qm = s.qm ∧ (modMsgs c g s).mac = s.mac ∧ (modMsgs c g s).mgt = s.mgt ∧
    (modMsgs c g s).prs = s.prs ∧ (modMsgs c g s).tbl = s.tbl ∧ (modMsgs c g s).tm = s.tm ∧ (modMsgs c g s).tim = s.tim ∧
    (modMsgs c g s).cry = s.cry ∧ (modMsgs c g s).rel = s.rel ∧ (modMsgs c g s).lcs = s.lcs ∧ (modMsgs c g s).sto = s.sto ∧
    (modMsgs c g s).dmv = s.dmv ∧ (modMsgs c g s).akz = s.akz ∧ (modMsgs c g s).dev = s.dev ∧ (modMsgs c g s).lastWork = s.lastWork := by
  have h := modMsgs_frame 2097152 rfl c g s
  refine ⟨pending_of_frame h rfl, elapsed_of_frame h rfl, out_of_frame h rfl, free_of_frame h rfl, regs_of_frame h rfl, occ_of_frame h rfl, shadow_of_frame h rfl, cai_of_frame h rfl, hif_of_frame h rfl, qm_of_frame h rfl, mac_of_frame h rfl, mgt_of_frame h rfl, prs_of_frame h rfl, tbl_of_frame h rfl, tm_of_frame h rfl, tim_of_frame h rfl, cry_of_frame h rfl, rel_of_frame h rfl, lcs_of_frame h rfl rfl, sto_of_frame h rfl, dmv_of_frame h rfl, akz_of_frame h rfl, dev_of_frame h rfl, lastWork_of_frame h rfl⟩

@[simp] theorem modThread_fields (t : Nat) (g : Thread → Thread) (s : State) :
    (modThread t g s).pending = s.pending ∧ (modThread t g s).elapsed = s.elapsed ∧ (modThread t g s).out = s.out ∧ (modThread t g s).free = s.free ∧
    (modThread t g s).regs = s.regs ∧ (modThread t g s).occ = s.occ ∧ (modThread t g s).shadow = s.shadow ∧ (modThread t g s).cai = s.cai ∧
    (modThread t g s).hif = s.hif ∧ (modThread t g s).qm = s.qm ∧ (modThread t g s).mac = s.mac ∧ (modThread t g s).mgt = s.mgt ∧
    (modThread t g s).prs = s.prs ∧ (modThread t g s).tbl = s.tbl ∧ (modThread t g s).tm = s.tm ∧ (modThread t g s).tim = s.tim ∧
    (modThread t g s).cry = s.cry ∧ (modThread t g s).rel = s.rel ∧ (modThread t g s).lcs = s.lcs ∧ (modThread t g s).sto = s.sto ∧
    (modThread t g s).dmv = s.dmv ∧ (modThread t g s).akz = s.akz ∧ (modThread t g s).dev = s.dev ∧ (modThread t g s).lastWork = s.lastWork := by
  have h := modThread_frame 2097152 rfl t g s
  refine ⟨pending_of_frame h rfl, elapsed_of_frame h rfl, out_of_frame h rfl, free_of_frame h rfl, regs_of_frame h rfl, occ_of_frame h rfl, shadow_of_frame h rfl, cai_of_frame h rfl, hif_of_frame h rfl, qm_of_frame h rfl, mac_of_frame h rfl, mgt_of_frame h rfl, prs_of_frame h rfl, tbl_of_frame h rfl, tm_of_frame h rfl, tim_of_frame h rfl, cry_of_frame h rfl, rel_of_frame h rfl, lcs_of_frame h rfl rfl, sto_of_frame h rfl, dmv_of_frame h rfl, akz_of_frame h rfl, dev_of_frame h rfl, lastWork_of_frame h rfl⟩

@[simp] theorem endWait_fields (t : Nat) (v : Nat) (s : State) :
    (endWait t v s).pending = s.pending ∧ (endWait t v s).elapsed = s.elapsed ∧ (endWait t v s).out = s.out ∧ (endWait t v s).free = s.free ∧
    (endWait t v s).regs = s.regs ∧ (endWait t v s).occ = s.occ ∧ (endWait t v s).shadow = s.shadow ∧ (endWait t v s).cai = s.cai ∧
    (endWait t v s).hif = s.hif ∧ (endWait t v s).qm = s.qm ∧ (endWait t v s).mac = s.mac ∧ (endWait t v s).mgt = s.mgt ∧
    (endWait t v s).prs = s.prs ∧ (endWait t v s).tbl = s.tbl ∧ (endWait t v s).tm = s.tm ∧ (endWait t v s).tim = s.tim ∧
    (endWait t v s).cry = s.cry ∧ (endWait t v s).rel = s.rel ∧ (endWait t v s).lcs = s.lcs ∧ (endWait t v s).sto = s.sto ∧
    (endWait t v s).dmv = s.dmv ∧ (endWait t v s).akz = s.akz ∧ (endWait t v s).dev = s.dev ∧ (endWait t v s).lastWork = s.lastWork := by
  have h := endWait_frame 2097152 rfl t v s
  refine ⟨pending_of_frame h rfl, elapsed_of_frame h rfl, out_of_frame h rfl, free_of_frame h rfl, regs_of_frame h rfl, occ_of_frame h rfl, shadow_of_frame h rfl, cai_of_frame h rfl, hif_of_frame h rfl, qm_of_frame h rfl, mac_of_frame h rfl, mgt_of_frame h rfl, prs_of_frame h rfl, tbl_of_frame h rfl, tm_of_frame h rfl, tim_of_frame h rfl, cry_of_frame h rfl, rel_of_frame h rfl, lcs_of_frame h rfl rfl, sto_of_frame h rfl, dmv_of_frame h rfl, akz_of_frame h rfl, dev_of_frame h rfl, lastWork_of_frame h rfl⟩

@[simp] theorem pumpEvents_fields (s : State) :
    (pumpEvents s).pending = s.pending ∧ (pumpEvents s).elapsed = s.elapsed ∧ (pumpEvents s).out = s.out ∧ (pumpEvents s).free = s.free ∧
    (pumpEvents s).regs = s.regs ∧ (pumpEvents s).occ = s.occ ∧ (pumpEvents s).shadow = s.shadow ∧ (pumpEvents s).cai = s.cai ∧
    (pumpEvents s).hif = s.hif ∧ (pumpEvents s).mac = s.mac ∧ (pumpEvents s).mgt = s.mgt ∧ (pumpEvents s).prs = s.prs ∧ (pumpEvents s).tbl = s.tbl ∧
    (pumpEvents s).tm = s.tm ∧ (pumpEvents s).tim = s.tim ∧ (pumpEvents s).cry = s.cry ∧ (pumpEvents s).rel = s.rel ∧ (pumpEvents s).lcs = s.lcs ∧
    (pumpEvents s).sto = s.sto ∧ (pumpEvents s).dmv = s.dmv ∧ (pumpEvents s).akz = s.akz ∧ (pumpEvents s).dev = s.dev ∧
    (pumpEvents s).lastWork = s.lastWork := by
  have h := pumpEvents_frame 2097664 rfl s
  refine ⟨pending_of_frame h rfl, elapsed_of_frame h rfl, out_of_frame h rfl, free_of_frame h rfl, regs_of_frame h rfl, occ_of_frame h rfl, shadow_of_frame h rfl, cai_of_frame h rfl, hif_of_frame h rfl, mac_of_frame h rfl, mgt_of_frame h rfl, prs_of_frame h rfl, tbl_of_frame h rfl, tm_of_frame h rfl, tim_of_frame h rfl, cry_of_frame h rfl, rel_of_frame h rfl, lcs_of_frame h rfl rfl, sto_of_frame h rfl, dmv_of_frame h rfl, akz_of_frame h rfl, dev_of_frame h rfl, lastWork_of_frame h rfl⟩

@[simp] theorem postSource_fields (f : Fn) (eq : Option Nat) (block : Nat) (code : Nat) (detail : Nat) (s : State) :
    (postSource f eq block code detail s).pending = s.pending ∧ (postSource f eq block code detail s).elapsed = s.elapsed ∧
    (postSource f eq block code detail s).out = s.out ∧ (postSource f eq block code detail s).free = s.free ∧
    (postSource f eq block code detail s).regs = s.regs ∧ (postSource f eq block code detail s).occ = s.occ ∧
    (postSource f eq block code detail s).shadow = s.shadow ∧ (postSource f eq block code detail s).cai = s.cai ∧
    (postSource f eq block code detail s).hif = s.hif ∧ (postSource f eq block code detail s).mac = s.mac ∧
    (postSource f eq block code detail s).mgt = s.mgt ∧ (postSource f eq block code detail s).prs = s.prs ∧
    (postSource f eq block code detail s).tbl = s.tbl ∧ (postSource f eq block code detail s).tm = s.tm ∧
    (postSource f eq block code detail s).tim = s.tim ∧ (postSource f eq block code detail s).cry = s.cry ∧
    (postSource f eq block code detail s).rel = s.rel ∧ (postSource f eq block code detail s).lcs = s.lcs ∧
    (postSource f eq block code detail s).sto = s.sto ∧ (postSource f eq block code detail s).dmv = s.dmv ∧
    (postSource f eq block code detail s).akz = s.akz ∧ (postSource f eq block code detail s).dev = s.dev ∧
    (postSource f eq block code detail s).lastWork = s.lastWork := by
  have h := postSource_frame 2097664 rfl f eq block code detail s
  refine ⟨pending_of_frame h rfl, elapsed_of_frame h rfl, out_of_frame h rfl, free_of_frame h rfl, regs_of_frame h rfl, occ_of_frame h rfl, shadow_of_frame h rfl, cai_of_frame h rfl, hif_of_frame h rfl, mac_of_frame h rfl, mgt_of_frame h rfl, prs_of_frame h rfl, tbl_of_frame h rfl, tm_of_frame h rfl, tim_of_frame h rfl, cry_of_frame h rfl, rel_of_frame h rfl, lcs_of_frame h rfl rfl, sto_of_frame h rfl, dmv_of_frame h rfl, akz_of_frame h rfl, dev_of_frame h rfl, lastWork_of_frame h rfl⟩

@[simp] theorem raise_fields (block : Nat) (code : Nat) (detail : Nat) (sc : Scope) (s : State) :
    (raise block code detail sc s).pending = s.pending ∧ (raise block code detail sc s).elapsed = s.elapsed ∧
    (raise block code detail sc s).out = s.out ∧ (raise block code detail sc s).free = s.free ∧ (raise block code detail sc s).regs = s.regs ∧
    (raise block code detail sc s).occ = s.occ ∧ (raise block code detail sc s).shadow = s.shadow ∧ (raise block code detail sc s).cai = s.cai ∧
    (raise block code detail sc s).hif = s.hif ∧ (raise block code detail sc s).mac = s.mac ∧ (raise block code detail sc s).mgt = s.mgt ∧
    (raise block code detail sc s).prs = s.prs ∧ (raise block code detail sc s).tbl = s.tbl ∧ (raise block code detail sc s).tm = s.tm ∧
    (raise block code detail sc s).tim = s.tim ∧ (raise block code detail sc s).cry = s.cry ∧ (raise block code detail sc s).rel = s.rel ∧
    (raise block code detail sc s).lcs = s.lcs ∧ (raise block code detail sc s).sto = s.sto ∧ (raise block code detail sc s).dmv = s.dmv ∧
    (raise block code detail sc s).akz = s.akz ∧ (raise block code detail sc s).dev = s.dev ∧ (raise block code detail sc s).lastWork = s.lastWork := by
  have h := raise_frame 2097664 rfl block code detail sc s
  refine ⟨pending_of_frame h rfl, elapsed_of_frame h rfl, out_of_frame h rfl, free_of_frame h rfl, regs_of_frame h rfl, occ_of_frame h rfl, shadow_of_frame h rfl, cai_of_frame h rfl, hif_of_frame h rfl, mac_of_frame h rfl, mgt_of_frame h rfl, prs_of_frame h rfl, tbl_of_frame h rfl, tm_of_frame h rfl, tim_of_frame h rfl, cry_of_frame h rfl, rel_of_frame h rfl, lcs_of_frame h rfl rfl, sto_of_frame h rfl, dmv_of_frame h rfl, akz_of_frame h rfl, dev_of_frame h rfl, lastWork_of_frame h rfl⟩

@[simp] theorem modPpsOut_fields (pin : Nat) (g : PpsOut → PpsOut) (s : State) :
    (modPpsOut pin g s).pending = s.pending ∧ (modPpsOut pin g s).elapsed = s.elapsed ∧ (modPpsOut pin g s).out = s.out ∧
    (modPpsOut pin g s).free = s.free ∧ (modPpsOut pin g s).regs = s.regs ∧ (modPpsOut pin g s).occ = s.occ ∧ (modPpsOut pin g s).shadow = s.shadow ∧
    (modPpsOut pin g s).cai = s.cai ∧ (modPpsOut pin g s).hif = s.hif ∧ (modPpsOut pin g s).qm = s.qm ∧ (modPpsOut pin g s).mac = s.mac ∧
    (modPpsOut pin g s).mgt = s.mgt ∧ (modPpsOut pin g s).prs = s.prs ∧ (modPpsOut pin g s).tbl = s.tbl ∧ (modPpsOut pin g s).tm = s.tm ∧
    (modPpsOut pin g s).cry = s.cry ∧ (modPpsOut pin g s).rel = s.rel ∧ (modPpsOut pin g s).lcs = s.lcs ∧ (modPpsOut pin g s).sto = s.sto ∧
    (modPpsOut pin g s).dmv = s.dmv ∧ (modPpsOut pin g s).svc = s.svc ∧ (modPpsOut pin g s).akz = s.akz ∧ (modPpsOut pin g s).dev = s.dev ∧
    (modPpsOut pin g s).lastWork = s.lastWork := by
  have h := modPpsOut_frame 32768 rfl pin g s
  refine ⟨pending_of_frame h rfl, elapsed_of_frame h rfl, out_of_frame h rfl, free_of_frame h rfl, regs_of_frame h rfl, occ_of_frame h rfl, shadow_of_frame h rfl, cai_of_frame h rfl, hif_of_frame h rfl, qm_of_frame h rfl, mac_of_frame h rfl, mgt_of_frame h rfl, prs_of_frame h rfl, tbl_of_frame h rfl, tm_of_frame h rfl, cry_of_frame h rfl, rel_of_frame h rfl, lcs_of_frame h rfl rfl, sto_of_frame h rfl, dmv_of_frame h rfl, svc_of_frame h rfl, akz_of_frame h rfl, dev_of_frame h rfl, lastWork_of_frame h rfl⟩

@[simp] theorem settlePin_fields (pin : Nat) (s : State) :
    (settlePin pin s).pending = s.pending ∧ (settlePin pin s).elapsed = s.elapsed ∧ (settlePin pin s).free = s.free ∧
    (settlePin pin s).regs = s.regs ∧ (settlePin pin s).occ = s.occ ∧ (settlePin pin s).shadow = s.shadow ∧ (settlePin pin s).cai = s.cai ∧
    (settlePin pin s).hif = s.hif ∧ (settlePin pin s).qm = s.qm ∧ (settlePin pin s).mac = s.mac ∧ (settlePin pin s).mgt = s.mgt ∧
    (settlePin pin s).prs = s.prs ∧ (settlePin pin s).tbl = s.tbl ∧ (settlePin pin s).tm = s.tm ∧ (settlePin pin s).cry = s.cry ∧
    (settlePin pin s).rel = s.rel ∧ (settlePin pin s).lcs = s.lcs ∧ (settlePin pin s).sto = s.sto ∧ (settlePin pin s).dmv = s.dmv ∧
    (settlePin pin s).svc = s.svc ∧ (settlePin pin s).akz = s.akz ∧ (settlePin pin s).dev = s.dev ∧ (settlePin pin s).lastWork = s.lastWork := by
  have h := settlePin_frame 32772 rfl pin s
  refine ⟨pending_of_frame h rfl, elapsed_of_frame h rfl, free_of_frame h rfl, regs_of_frame h rfl, occ_of_frame h rfl, shadow_of_frame h rfl, cai_of_frame h rfl, hif_of_frame h rfl, qm_of_frame h rfl, mac_of_frame h rfl, mgt_of_frame h rfl, prs_of_frame h rfl, tbl_of_frame h rfl, tm_of_frame h rfl, cry_of_frame h rfl, rel_of_frame h rfl, lcs_of_frame h rfl rfl, sto_of_frame h rfl, dmv_of_frame h rfl, svc_of_frame h rfl, akz_of_frame h rfl, dev_of_frame h rfl, lastWork_of_frame h rfl⟩

@[simp] theorem settlePins_fields (s : State) :
    (settlePins s).pending = s.pending ∧ (settlePins s).elapsed = s.elapsed ∧ (settlePins s).free = s.free ∧ (settlePins s).regs = s.regs ∧
    (settlePins s).occ = s.occ ∧ (settlePins s).shadow = s.shadow ∧ (settlePins s).cai = s.cai ∧ (settlePins s).hif = s.hif ∧
    (settlePins s).qm = s.qm ∧ (settlePins s).mac = s.mac ∧ (settlePins s).mgt = s.mgt ∧ (settlePins s).prs = s.prs ∧ (settlePins s).tbl = s.tbl ∧
    (settlePins s).tm = s.tm ∧ (settlePins s).cry = s.cry ∧ (settlePins s).rel = s.rel ∧ (settlePins s).lcs = s.lcs ∧ (settlePins s).sto = s.sto ∧
    (settlePins s).dmv = s.dmv ∧ (settlePins s).svc = s.svc ∧ (settlePins s).akz = s.akz ∧ (settlePins s).dev = s.dev ∧
    (settlePins s).lastWork = s.lastWork := by
  have h := settlePins_frame 32772 rfl s
  refine ⟨pending_of_frame h rfl, elapsed_of_frame h rfl, free_of_frame h rfl, regs_of_frame h rfl, occ_of_frame h rfl, shadow_of_frame h rfl, cai_of_frame h rfl, hif_of_frame h rfl, qm_of_frame h rfl, mac_of_frame h rfl, mgt_of_frame h rfl, prs_of_frame h rfl, tbl_of_frame h rfl, tm_of_frame h rfl, cry_of_frame h rfl, rel_of_frame h rfl, lcs_of_frame h rfl rfl, sto_of_frame h rfl, dmv_of_frame h rfl, svc_of_frame h rfl, akz_of_frame h rfl, dev_of_frame h rfl, lastWork_of_frame h rfl⟩

@[simp] theorem boundAlarm_fields (s : State) :
    (boundAlarm s).pending = s.pending ∧ (boundAlarm s).elapsed = s.elapsed ∧ (boundAlarm s).free = s.free ∧ (boundAlarm s).shadow = s.shadow ∧
    (boundAlarm s).cai = s.cai ∧ (boundAlarm s).hif = s.hif ∧ (boundAlarm s).mac = s.mac ∧ (boundAlarm s).mgt = s.mgt ∧ (boundAlarm s).prs = s.prs ∧
    (boundAlarm s).tbl = s.tbl ∧ (boundAlarm s).tm = s.tm ∧ (boundAlarm s).cry = s.cry ∧ (boundAlarm s).rel = s.rel ∧ (boundAlarm s).lcs = s.lcs ∧
    (boundAlarm s).sto = s.sto ∧ (boundAlarm s).dmv = s.dmv ∧ (boundAlarm s).akz = s.akz ∧ (boundAlarm s).dev = s.dev ∧
    (boundAlarm s).lastWork = s.lastWork := by
  have h := boundAlarm_frame 2130484 rfl s
  refine ⟨pending_of_frame h rfl, elapsed_of_frame h rfl, free_of_frame h rfl, shadow_of_frame h rfl, cai_of_frame h rfl, hif_of_frame h rfl, mac_of_frame h rfl, mgt_of_frame h rfl, prs_of_frame h rfl, tbl_of_frame h rfl, tm_of_frame h rfl, cry_of_frame h rfl, rel_of_frame h rfl, lcs_of_frame h rfl rfl, sto_of_frame h rfl, dmv_of_frame h rfl, akz_of_frame h rfl, dev_of_frame h rfl, lastWork_of_frame h rfl⟩

@[simp] theorem pageRise_fields (b : Nat) (s : State) :
    (pageRise b s).pending = s.pending ∧ (pageRise b s).elapsed = s.elapsed ∧ (pageRise b s).out = s.out ∧ (pageRise b s).free = s.free ∧
    (pageRise b s).regs = s.regs ∧ (pageRise b s).occ = s.occ ∧ (pageRise b s).shadow = s.shadow ∧ (pageRise b s).cai = s.cai ∧
    (pageRise b s).hif = s.hif ∧ (pageRise b s).qm = s.qm ∧ (pageRise b s).mac = s.mac ∧ (pageRise b s).mgt = s.mgt ∧ (pageRise b s).prs = s.prs ∧
    (pageRise b s).tbl = s.tbl ∧ (pageRise b s).tm = s.tm ∧ (pageRise b s).cry = s.cry ∧ (pageRise b s).rel = s.rel ∧ (pageRise b s).lcs = s.lcs ∧
    (pageRise b s).sto = s.sto ∧ (pageRise b s).dmv = s.dmv ∧ (pageRise b s).svc = s.svc ∧ (pageRise b s).akz = s.akz ∧ (pageRise b s).dev = s.dev ∧
    (pageRise b s).lastWork = s.lastWork := by
  have h := pageRise_frame 32768 rfl b s
  refine ⟨pending_of_frame h rfl, elapsed_of_frame h rfl, out_of_frame h rfl, free_of_frame h rfl, regs_of_frame h rfl, occ_of_frame h rfl, shadow_of_frame h rfl, cai_of_frame h rfl, hif_of_frame h rfl, qm_of_frame h rfl, mac_of_frame h rfl, mgt_of_frame h rfl, prs_of_frame h rfl, tbl_of_frame h rfl, tm_of_frame h rfl, cry_of_frame h rfl, rel_of_frame h rfl, lcs_of_frame h rfl rfl, sto_of_frame h rfl, dmv_of_frame h rfl, svc_of_frame h rfl, akz_of_frame h rfl, dev_of_frame h rfl, lastWork_of_frame h rfl⟩

@[simp] theorem setBound_fields (b : Option Nat) (s0 : State) :
    (setBound b s0).pending = s0.pending ∧ (setBound b s0).elapsed = s0.elapsed ∧ (setBound b s0).free = s0.free ∧
    (setBound b s0).shadow = s0.shadow ∧ (setBound b s0).cai = s0.cai ∧ (setBound b s0).hif = s0.hif ∧ (setBound b s0).mac = s0.mac ∧
    (setBound b s0).mgt = s0.mgt ∧ (setBound b s0).prs = s0.prs ∧ (setBound b s0).tbl = s0.tbl ∧ (setBound b s0).tm = s0.tm ∧
    (setBound b s0).cry = s0.cry ∧ (setBound b s0).rel = s0.rel ∧ (setBound b s0).lcs = s0.lcs ∧ (setBound b s0).sto = s0.sto ∧
    (setBound b s0).dmv = s0.dmv ∧ (setBound b s0).akz = s0.akz ∧ (setBound b s0).dev = s0.dev ∧ (setBound b s0).lastWork = s0.lastWork := by
  have h := setBound_frame 2130484 rfl b s0
  refine ⟨pending_of_frame h rfl, elapsed_of_frame h rfl, free_of_frame h rfl, shadow_of_frame h rfl, cai_of_frame h rfl, hif_of_frame h rfl, mac_of_frame h rfl, mgt_of_frame h rfl, prs_of_frame h rfl, tbl_of_frame h rfl, tm_of_frame h rfl, cry_of_frame h rfl, rel_of_frame h rfl, lcs_of_frame h rfl rfl, sto_of_frame h rfl, dmv_of_frame h rfl, akz_of_frame h rfl, dev_of_frame h rfl, lastWork_of_frame h rfl⟩

@[simp] theorem growNow_fields (s : State) :
    (growNow s).pending = s.pending ∧ (growNow s).elapsed = s.elapsed ∧ (growNow s).out = s.out ∧ (growNow s).free = s.free ∧
    (growNow s).regs = s.regs ∧ (growNow s).occ = s.occ ∧ (growNow s).shadow = s.shadow ∧ (growNow s).cai = s.cai ∧ (growNow s).hif = s.hif ∧
    (growNow s).qm = s.qm ∧ (growNow s).mac = s.mac ∧ (growNow s).mgt = s.mgt ∧ (growNow s).prs = s.prs ∧ (growNow s).tbl = s.tbl ∧
    (growNow s).tm = s.tm ∧ (growNow s).cry = s.cry ∧ (growNow s).rel = s.rel ∧ (growNow s).lcs = s.lcs ∧ (growNow s).sto = s.sto ∧
    (growNow s).dmv = s.dmv ∧ (growNow s).svc = s.svc ∧ (growNow s).akz = s.akz ∧ (growNow s).dev = s.dev ∧ (growNow s).lastWork = s.lastWork := by
  have h := growNow_frame 32768 rfl s
  refine ⟨pending_of_frame h rfl, elapsed_of_frame h rfl, out_of_frame h rfl, free_of_frame h rfl, regs_of_frame h rfl, occ_of_frame h rfl, shadow_of_frame h rfl, cai_of_frame h rfl, hif_of_frame h rfl, qm_of_frame h rfl, mac_of_frame h rfl, mgt_of_frame h rfl, prs_of_frame h rfl, tbl_of_frame h rfl, tm_of_frame h rfl, cry_of_frame h rfl, rel_of_frame h rfl, lcs_of_frame h rfl rfl, sto_of_frame h rfl, dmv_of_frame h rfl, svc_of_frame h rfl, akz_of_frame h rfl, dev_of_frame h rfl, lastWork_of_frame h rfl⟩

@[simp] theorem refreshBound_fields (s : State) :
    (refreshBound s).pending = s.pending ∧ (refreshBound s).elapsed = s.elapsed ∧ (refreshBound s).free = s.free ∧
    (refreshBound s).shadow = s.shadow ∧ (refreshBound s).cai = s.cai ∧ (refreshBound s).hif = s.hif ∧ (refreshBound s).mac = s.mac ∧
    (refreshBound s).mgt = s.mgt ∧ (refreshBound s).prs = s.prs ∧ (refreshBound s).tbl = s.tbl ∧ (refreshBound s).tm = s.tm ∧
    (refreshBound s).cry = s.cry ∧ (refreshBound s).rel = s.rel ∧ (refreshBound s).lcs = s.lcs ∧ (refreshBound s).sto = s.sto ∧
    (refreshBound s).dmv = s.dmv ∧ (refreshBound s).akz = s.akz ∧ (refreshBound s).dev = s.dev ∧ (refreshBound s).lastWork = s.lastWork := by
  have h := refreshBound_frame 2130484 rfl s
  refine ⟨pending_of_frame h rfl, elapsed_of_frame h rfl, free_of_frame h rfl, shadow_of_frame h rfl, cai_of_frame h rfl, hif_of_frame h rfl, mac_of_frame h rfl, mgt_of_frame h rfl, prs_of_frame h rfl, tbl_of_frame h rfl, tm_of_frame h rfl, cry_of_frame h rfl, rel_of_frame h rfl, lcs_of_frame h rfl rfl, sto_of_frame h rfl, dmv_of_frame h rfl, akz_of_frame h rfl, dev_of_frame h rfl, lastWork_of_frame h rfl⟩

@[simp] theorem bump_fields (r : Reg) (i : Nat) (h : Nat) (n : Nat) (s : State) :
    (bump r i h n s).pending = s.pending ∧ (bump r i h n s).elapsed = s.elapsed ∧ (bump r i h n s).out = s.out ∧ (bump r i h n s).free = s.free ∧
    (bump r i h n s).occ = s.occ ∧ (bump r i h n s).shadow = s.shadow ∧ (bump r i h n s).cai = s.cai ∧ (bump r i h n s).hif = s.hif ∧
    (bump r i h n s).qm = s.qm ∧ (bump r i h n s).mac = s.mac ∧ (bump r i h n s).mgt = s.mgt ∧ (bump r i h n s).prs = s.prs ∧
    (bump r i h n s).tbl = s.tbl ∧ (bump r i h n s).tm = s.tm ∧ (bump r i h n s).tim = s.tim ∧ (bump r i h n s).cry = s.cry ∧
    (bump r i h n s).rel = s.rel ∧ (bump r i h n s).lcs = s.lcs ∧ (bump r i h n s).sto = s.sto ∧ (bump r i h n s).dmv = s.dmv ∧
    (bump r i h n s).svc = s.svc ∧ (bump r i h n s).akz = s.akz ∧ (bump r i h n s).dev = s.dev ∧ (bump r i h n s).lastWork = s.lastWork := by
  have h := bump_frame 16 rfl r i h n s
  refine ⟨pending_of_frame h rfl, elapsed_of_frame h rfl, out_of_frame h rfl, free_of_frame h rfl, occ_of_frame h rfl, shadow_of_frame h rfl, cai_of_frame h rfl, hif_of_frame h rfl, qm_of_frame h rfl, mac_of_frame h rfl, mgt_of_frame h rfl, prs_of_frame h rfl, tbl_of_frame h rfl, tm_of_frame h rfl, tim_of_frame h rfl, cry_of_frame h rfl, rel_of_frame h rfl, lcs_of_frame h rfl rfl, sto_of_frame h rfl, dmv_of_frame h rfl, svc_of_frame h rfl, akz_of_frame h rfl, dev_of_frame h rfl, lastWork_of_frame h rfl⟩

@[simp] theorem pushRecord_fields (bs : Bytes) (s : State) :
    (pushRecord bs s).pending = s.pending ∧ (pushRecord bs s).elapsed = s.elapsed ∧ (pushRecord bs s).out = s.out ∧ (pushRecord bs s).free = s.free ∧
    (pushRecord bs s).occ = s.occ ∧ (pushRecord bs s).shadow = s.shadow ∧ (pushRecord bs s).cai = s.cai ∧ (pushRecord bs s).hif = s.hif ∧
    (pushRecord bs s).mac = s.mac ∧ (pushRecord bs s).mgt = s.mgt ∧ (pushRecord bs s).prs = s.prs ∧ (pushRecord bs s).tbl = s.tbl ∧
    (pushRecord bs s).tm = s.tm ∧ (pushRecord bs s).cry = s.cry ∧ (pushRecord bs s).rel = s.rel ∧ (pushRecord bs s).lcs = s.lcs ∧
    (pushRecord bs s).sto = s.sto ∧ (pushRecord bs s).dmv = s.dmv ∧ (pushRecord bs s).akz = s.akz ∧ (pushRecord bs s).dev = s.dev ∧
    (pushRecord bs s).lastWork = s.lastWork := by
  have h := pushRecord_frame 2130448 rfl bs s
  refine ⟨pending_of_frame h rfl, elapsed_of_frame h rfl, out_of_frame h rfl, free_of_frame h rfl, occ_of_frame h rfl, shadow_of_frame h rfl, cai_of_frame h rfl, hif_of_frame h rfl, mac_of_frame h rfl, mgt_of_frame h rfl, prs_of_frame h rfl, tbl_of_frame h rfl, tm_of_frame h rfl, cry_of_frame h rfl, rel_of_frame h rfl, lcs_of_frame h rfl rfl, sto_of_frame h rfl, dmv_of_frame h rfl, akz_of_frame h rfl, dev_of_frame h rfl, lastWork_of_frame h rfl⟩

@[simp] theorem trace_fields (type : Nat) (s : State) :
    (trace type s).pending = s.pending ∧ (trace type s).elapsed = s.elapsed ∧ (trace type s).out = s.out ∧ (trace type s).free = s.free ∧
    (trace type s).occ = s.occ ∧ (trace type s).shadow = s.shadow ∧ (trace type s).cai = s.cai ∧ (trace type s).hif = s.hif ∧
    (trace type s).mac = s.mac ∧ (trace type s).mgt = s.mgt ∧ (trace type s).prs = s.prs ∧ (trace type s).tbl = s.tbl ∧ (trace type s).tm = s.tm ∧
    (trace type s).cry = s.cry ∧ (trace type s).rel = s.rel ∧ (trace type s).lcs = s.lcs ∧ (trace type s).sto = s.sto ∧ (trace type s).dmv = s.dmv ∧
    (trace type s).akz = s.akz ∧ (trace type s).dev = s.dev ∧ (trace type s).lastWork = s.lastWork := by
  have h := trace_frame 2130448 rfl type s
  refine ⟨pending_of_frame h rfl, elapsed_of_frame h rfl, out_of_frame h rfl, free_of_frame h rfl, occ_of_frame h rfl, shadow_of_frame h rfl, cai_of_frame h rfl, hif_of_frame h rfl, mac_of_frame h rfl, mgt_of_frame h rfl, prs_of_frame h rfl, tbl_of_frame h rfl, tm_of_frame h rfl, cry_of_frame h rfl, rel_of_frame h rfl, lcs_of_frame h rfl rfl, sto_of_frame h rfl, dmv_of_frame h rfl, akz_of_frame h rfl, dev_of_frame h rfl, lastWork_of_frame h rfl⟩

@[simp] theorem forcePages_fields (stepped : Bool) (s : State) :
    (forcePages stepped s).pending = s.pending ∧ (forcePages stepped s).elapsed = s.elapsed ∧ (forcePages stepped s).out = s.out ∧
    (forcePages stepped s).free = s.free ∧ (forcePages stepped s).regs = s.regs ∧ (forcePages stepped s).occ = s.occ ∧
    (forcePages stepped s).shadow = s.shadow ∧ (forcePages stepped s).cai = s.cai ∧ (forcePages stepped s).hif = s.hif ∧
    (forcePages stepped s).qm = s.qm ∧ (forcePages stepped s).mac = s.mac ∧ (forcePages stepped s).mgt = s.mgt ∧ (forcePages stepped s).prs = s.prs ∧
    (forcePages stepped s).tbl = s.tbl ∧ (forcePages stepped s).tm = s.tm ∧ (forcePages stepped s).cry = s.cry ∧ (forcePages stepped s).rel = s.rel ∧
    (forcePages stepped s).lcs = s.lcs ∧ (forcePages stepped s).sto = s.sto ∧ (forcePages stepped s).dmv = s.dmv ∧
    (forcePages stepped s).svc = s.svc ∧ (forcePages stepped s).akz = s.akz ∧ (forcePages stepped s).dev = s.dev ∧
    (forcePages stepped s).lastWork = s.lastWork := by
  have h := forcePages_frame 32768 rfl stepped s
  refine ⟨pending_of_frame h rfl, elapsed_of_frame h rfl, out_of_frame h rfl, free_of_frame h rfl, regs_of_frame h rfl, occ_of_frame h rfl, shadow_of_frame h rfl, cai_of_frame h rfl, hif_of_frame h rfl, qm_of_frame h rfl, mac_of_frame h rfl, mgt_of_frame h rfl, prs_of_frame h rfl, tbl_of_frame h rfl, tm_of_frame h rfl, cry_of_frame h rfl, rel_of_frame h rfl, lcs_of_frame h rfl rfl, sto_of_frame h rfl, dmv_of_frame h rfl, svc_of_frame h rfl, akz_of_frame h rfl, dev_of_frame h rfl, lastWork_of_frame h rfl⟩

@[simp] theorem setServo_fields (v : Servo) (s : State) :
    (setServo v s).pending = s.pending ∧ (setServo v s).elapsed = s.elapsed ∧ (setServo v s).out = s.out ∧ (setServo v s).free = s.free ∧
    (setServo v s).occ = s.occ ∧ (setServo v s).shadow = s.shadow ∧ (setServo v s).cai = s.cai ∧ (setServo v s).hif = s.hif ∧
    (setServo v s).mac = s.mac ∧ (setServo v s).mgt = s.mgt ∧ (setServo v s).prs = s.prs ∧ (setServo v s).tbl = s.tbl ∧ (setServo v s).tm = s.tm ∧
    (setServo v s).cry = s.cry ∧ (setServo v s).rel = s.rel ∧ (setServo v s).lcs = s.lcs ∧ (setServo v s).sto = s.sto ∧ (setServo v s).dmv = s.dmv ∧
    (setServo v s).akz = s.akz ∧ (setServo v s).dev = s.dev ∧ (setServo v s).lastWork = s.lastWork := by
  have h := setServo_frame 2130448 rfl v s
  refine ⟨pending_of_frame h rfl, elapsed_of_frame h rfl, out_of_frame h rfl, free_of_frame h rfl, occ_of_frame h rfl, shadow_of_frame h rfl, cai_of_frame h rfl, hif_of_frame h rfl, mac_of_frame h rfl, mgt_of_frame h rfl, prs_of_frame h rfl, tbl_of_frame h rfl, tm_of_frame h rfl, cry_of_frame h rfl, rel_of_frame h rfl, lcs_of_frame h rfl rfl, sto_of_frame h rfl, dmv_of_frame h rfl, akz_of_frame h rfl, dev_of_frame h rfl, lastWork_of_frame h rfl⟩

@[simp] theorem setModel_fields (m : BoundModel) (base : Nat) (s : State) :
    (setModel m base s).pending = s.pending ∧ (setModel m base s).elapsed = s.elapsed ∧ (setModel m base s).free = s.free ∧
    (setModel m base s).shadow = s.shadow ∧ (setModel m base s).cai = s.cai ∧ (setModel m base s).hif = s.hif ∧ (setModel m base s).mac = s.mac ∧
    (setModel m base s).mgt = s.mgt ∧ (setModel m base s).prs = s.prs ∧ (setModel m base s).tbl = s.tbl ∧ (setModel m base s).tm = s.tm ∧
    (setModel m base s).cry = s.cry ∧ (setModel m base s).rel = s.rel ∧ (setModel m base s).lcs = s.lcs ∧ (setModel m base s).sto = s.sto ∧
    (setModel m base s).dmv = s.dmv ∧ (setModel m base s).akz = s.akz ∧ (setModel m base s).dev = s.dev ∧ (setModel m base s).lastWork = s.lastWork := by
  have h := setModel_frame 2130484 rfl m base s
  refine ⟨pending_of_frame h rfl, elapsed_of_frame h rfl, free_of_frame h rfl, shadow_of_frame h rfl, cai_of_frame h rfl, hif_of_frame h rfl, mac_of_frame h rfl, mgt_of_frame h rfl, prs_of_frame h rfl, tbl_of_frame h rfl, tm_of_frame h rfl, cry_of_frame h rfl, rel_of_frame h rfl, lcs_of_frame h rfl rfl, sto_of_frame h rfl, dmv_of_frame h rfl, akz_of_frame h rfl, dev_of_frame h rfl, lastWork_of_frame h rfl⟩

@[simp] theorem enterHoldover_fields (entry : Option Nat) (s : State) :
    (enterHoldover entry s).pending = s.pending ∧ (enterHoldover entry s).elapsed = s.elapsed ∧ (enterHoldover entry s).free = s.free ∧
    (enterHoldover entry s).shadow = s.shadow ∧ (enterHoldover entry s).cai = s.cai ∧ (enterHoldover entry s).hif = s.hif ∧
    (enterHoldover entry s).mac = s.mac ∧ (enterHoldover entry s).mgt = s.mgt ∧ (enterHoldover entry s).prs = s.prs ∧
    (enterHoldover entry s).tbl = s.tbl ∧ (enterHoldover entry s).tm = s.tm ∧ (enterHoldover entry s).cry = s.cry ∧
    (enterHoldover entry s).rel = s.rel ∧ (enterHoldover entry s).lcs = s.lcs ∧ (enterHoldover entry s).sto = s.sto ∧
    (enterHoldover entry s).dmv = s.dmv ∧ (enterHoldover entry s).akz = s.akz ∧ (enterHoldover entry s).dev = s.dev ∧
    (enterHoldover entry s).lastWork = s.lastWork := by
  have h := enterHoldover_frame 2130484 rfl entry s
  refine ⟨pending_of_frame h rfl, elapsed_of_frame h rfl, free_of_frame h rfl, shadow_of_frame h rfl, cai_of_frame h rfl, hif_of_frame h rfl, mac_of_frame h rfl, mgt_of_frame h rfl, prs_of_frame h rfl, tbl_of_frame h rfl, tm_of_frame h rfl, cry_of_frame h rfl, rel_of_frame h rfl, lcs_of_frame h rfl rfl, sto_of_frame h rfl, dmv_of_frame h rfl, akz_of_frame h rfl, dev_of_frame h rfl, lastWork_of_frame h rfl⟩

@[simp] theorem stepTime_fields (t48 : Nat) (s : State) :
    (stepTime t48 s).pending = s.pending ∧ (stepTime t48 s).elapsed = s.elapsed ∧ (stepTime t48 s).out = s.out ∧ (stepTime t48 s).free = s.free ∧
    (stepTime t48 s).shadow = s.shadow ∧ (stepTime t48 s).cai = s.cai ∧ (stepTime t48 s).hif = s.hif ∧ (stepTime t48 s).mac = s.mac ∧
    (stepTime t48 s).mgt = s.mgt ∧ (stepTime t48 s).prs = s.prs ∧ (stepTime t48 s).tbl = s.tbl ∧ (stepTime t48 s).tm = s.tm ∧
    (stepTime t48 s).cry = s.cry ∧ (stepTime t48 s).rel = s.rel ∧ (stepTime t48 s).lcs = s.lcs ∧ (stepTime t48 s).sto = s.sto ∧
    (stepTime t48 s).dmv = s.dmv ∧ (stepTime t48 s).akz = s.akz ∧ (stepTime t48 s).dev = s.dev ∧ (stepTime t48 s).lastWork = s.lastWork := by
  have h := stepTime_frame 2130480 rfl t48 s
  refine ⟨pending_of_frame h rfl, elapsed_of_frame h rfl, out_of_frame h rfl, free_of_frame h rfl, shadow_of_frame h rfl, cai_of_frame h rfl, hif_of_frame h rfl, mac_of_frame h rfl, mgt_of_frame h rfl, prs_of_frame h rfl, tbl_of_frame h rfl, tm_of_frame h rfl, cry_of_frame h rfl, rel_of_frame h rfl, lcs_of_frame h rfl rfl, sto_of_frame h rfl, dmv_of_frame h rfl, akz_of_frame h rfl, dev_of_frame h rfl, lastWork_of_frame h rfl⟩

@[simp] theorem supplyUtc_fields (off : Int) (s : State) :
    (supplyUtc off s).pending = s.pending ∧ (supplyUtc off s).elapsed = s.elapsed ∧ (supplyUtc off s).out = s.out ∧ (supplyUtc off s).free = s.free ∧
    (supplyUtc off s).occ = s.occ ∧ (supplyUtc off s).shadow = s.shadow ∧ (supplyUtc off s).cai = s.cai ∧ (supplyUtc off s).hif = s.hif ∧
    (supplyUtc off s).mac = s.mac ∧ (supplyUtc off s).mgt = s.mgt ∧ (supplyUtc off s).prs = s.prs ∧ (supplyUtc off s).tbl = s.tbl ∧
    (supplyUtc off s).tm = s.tm ∧ (supplyUtc off s).cry = s.cry ∧ (supplyUtc off s).rel = s.rel ∧ (supplyUtc off s).lcs = s.lcs ∧
    (supplyUtc off s).sto = s.sto ∧ (supplyUtc off s).dmv = s.dmv ∧ (supplyUtc off s).akz = s.akz ∧ (supplyUtc off s).dev = s.dev ∧
    (supplyUtc off s).lastWork = s.lastWork := by
  have h := supplyUtc_frame 2130448 rfl off s
  refine ⟨pending_of_frame h rfl, elapsed_of_frame h rfl, out_of_frame h rfl, free_of_frame h rfl, occ_of_frame h rfl, shadow_of_frame h rfl, cai_of_frame h rfl, hif_of_frame h rfl, mac_of_frame h rfl, mgt_of_frame h rfl, prs_of_frame h rfl, tbl_of_frame h rfl, tm_of_frame h rfl, cry_of_frame h rfl, rel_of_frame h rfl, lcs_of_frame h rfl rfl, sto_of_frame h rfl, dmv_of_frame h rfl, akz_of_frame h rfl, dev_of_frame h rfl, lastWork_of_frame h rfl⟩

@[simp] theorem setPair64_fields (lo : Reg) (hi : Reg) (i : Nat) (h : Nat) (v : Nat) (s : State) :
    (setPair64 lo hi i h v s).pending = s.pending ∧ (setPair64 lo hi i h v s).elapsed = s.elapsed ∧ (setPair64 lo hi i h v s).out = s.out ∧
    (setPair64 lo hi i h v s).free = s.free ∧ (setPair64 lo hi i h v s).occ = s.occ ∧ (setPair64 lo hi i h v s).shadow = s.shadow ∧
    (setPair64 lo hi i h v s).cai = s.cai ∧ (setPair64 lo hi i h v s).hif = s.hif ∧ (setPair64 lo hi i h v s).qm = s.qm ∧
    (setPair64 lo hi i h v s).mac = s.mac ∧ (setPair64 lo hi i h v s).mgt = s.mgt ∧ (setPair64 lo hi i h v s).prs = s.prs ∧
    (setPair64 lo hi i h v s).tbl = s.tbl ∧ (setPair64 lo hi i h v s).tm = s.tm ∧ (setPair64 lo hi i h v s).tim = s.tim ∧
    (setPair64 lo hi i h v s).cry = s.cry ∧ (setPair64 lo hi i h v s).rel = s.rel ∧ (setPair64 lo hi i h v s).lcs = s.lcs ∧
    (setPair64 lo hi i h v s).sto = s.sto ∧ (setPair64 lo hi i h v s).dmv = s.dmv ∧ (setPair64 lo hi i h v s).svc = s.svc ∧
    (setPair64 lo hi i h v s).akz = s.akz ∧ (setPair64 lo hi i h v s).dev = s.dev ∧ (setPair64 lo hi i h v s).lastWork = s.lastWork := by
  have h := setPair64_frame 16 rfl lo hi i h v s
  refine ⟨pending_of_frame h rfl, elapsed_of_frame h rfl, out_of_frame h rfl, free_of_frame h rfl, occ_of_frame h rfl, shadow_of_frame h rfl, cai_of_frame h rfl, hif_of_frame h rfl, qm_of_frame h rfl, mac_of_frame h rfl, mgt_of_frame h rfl, prs_of_frame h rfl, tbl_of_frame h rfl, tm_of_frame h rfl, tim_of_frame h rfl, cry_of_frame h rfl, rel_of_frame h rfl, lcs_of_frame h rfl rfl, sto_of_frame h rfl, dmv_of_frame h rfl, svc_of_frame h rfl, akz_of_frame h rfl, dev_of_frame h rfl, lastWork_of_frame h rfl⟩

@[simp] theorem setLeap_fields (l : Option Leap) (s : State) :
    (setLeap l s).pending = s.pending ∧ (setLeap l s).elapsed = s.elapsed ∧ (setLeap l s).out = s.out ∧ (setLeap l s).free = s.free ∧
    (setLeap l s).occ = s.occ ∧ (setLeap l s).shadow = s.shadow ∧ (setLeap l s).cai = s.cai ∧ (setLeap l s).hif = s.hif ∧ (setLeap l s).qm = s.qm ∧
    (setLeap l s).mac = s.mac ∧ (setLeap l s).mgt = s.mgt ∧ (setLeap l s).prs = s.prs ∧ (setLeap l s).tbl = s.tbl ∧ (setLeap l s).tm = s.tm ∧
    (setLeap l s).cry = s.cry ∧ (setLeap l s).rel = s.rel ∧ (setLeap l s).lcs = s.lcs ∧ (setLeap l s).sto = s.sto ∧ (setLeap l s).dmv = s.dmv ∧
    (setLeap l s).svc = s.svc ∧ (setLeap l s).akz = s.akz ∧ (setLeap l s).dev = s.dev ∧ (setLeap l s).lastWork = s.lastWork := by
  have h := setLeap_frame 32784 rfl l s
  refine ⟨pending_of_frame h rfl, elapsed_of_frame h rfl, out_of_frame h rfl, free_of_frame h rfl, occ_of_frame h rfl, shadow_of_frame h rfl, cai_of_frame h rfl, hif_of_frame h rfl, qm_of_frame h rfl, mac_of_frame h rfl, mgt_of_frame h rfl, prs_of_frame h rfl, tbl_of_frame h rfl, tm_of_frame h rfl, cry_of_frame h rfl, rel_of_frame h rfl, lcs_of_frame h rfl rfl, sto_of_frame h rfl, dmv_of_frame h rfl, svc_of_frame h rfl, akz_of_frame h rfl, dev_of_frame h rfl, lastWork_of_frame h rfl⟩

@[simp] theorem announceLeap_fields (src : LeapSrc) (a : Announce) (s : State) :
    (announceLeap src a s).pending = s.pending ∧ (announceLeap src a s).elapsed = s.elapsed ∧ (announceLeap src a s).out = s.out ∧
    (announceLeap src a s).free = s.free ∧ (announceLeap src a s).occ = s.occ ∧ (announceLeap src a s).shadow = s.shadow ∧
    (announceLeap src a s).cai = s.cai ∧ (announceLeap src a s).hif = s.hif ∧ (announceLeap src a s).qm = s.qm ∧ (announceLeap src a s).mac = s.mac ∧
    (announceLeap src a s).mgt = s.mgt ∧ (announceLeap src a s).prs = s.prs ∧ (announceLeap src a s).tbl = s.tbl ∧ (announceLeap src a s).tm = s.tm ∧
    (announceLeap src a s).cry = s.cry ∧ (announceLeap src a s).rel = s.rel ∧ (announceLeap src a s).lcs = s.lcs ∧
    (announceLeap src a s).sto = s.sto ∧ (announceLeap src a s).dmv = s.dmv ∧ (announceLeap src a s).svc = s.svc ∧
    (announceLeap src a s).akz = s.akz ∧ (announceLeap src a s).dev = s.dev ∧ (announceLeap src a s).lastWork = s.lastWork := by
  have h := announceLeap_frame 32784 rfl src a s
  refine ⟨pending_of_frame h rfl, elapsed_of_frame h rfl, out_of_frame h rfl, free_of_frame h rfl, occ_of_frame h rfl, shadow_of_frame h rfl, cai_of_frame h rfl, hif_of_frame h rfl, qm_of_frame h rfl, mac_of_frame h rfl, mgt_of_frame h rfl, prs_of_frame h rfl, tbl_of_frame h rfl, tm_of_frame h rfl, cry_of_frame h rfl, rel_of_frame h rfl, lcs_of_frame h rfl rfl, sto_of_frame h rfl, dmv_of_frame h rfl, svc_of_frame h rfl, akz_of_frame h rfl, dev_of_frame h rfl, lastWork_of_frame h rfl⟩

@[simp] theorem registerUtc_fields (u : Word) (s : State) :
    (registerUtc u s).pending = s.pending ∧ (registerUtc u s).elapsed = s.elapsed ∧ (registerUtc u s).out = s.out ∧ (registerUtc u s).free = s.free ∧
    (registerUtc u s).occ = s.occ ∧ (registerUtc u s).shadow = s.shadow ∧ (registerUtc u s).cai = s.cai ∧ (registerUtc u s).hif = s.hif ∧
    (registerUtc u s).mac = s.mac ∧ (registerUtc u s).mgt = s.mgt ∧ (registerUtc u s).prs = s.prs ∧ (registerUtc u s).tbl = s.tbl ∧
    (registerUtc u s).tm = s.tm ∧ (registerUtc u s).cry = s.cry ∧ (registerUtc u s).rel = s.rel ∧ (registerUtc u s).lcs = s.lcs ∧
    (registerUtc u s).sto = s.sto ∧ (registerUtc u s).dmv = s.dmv ∧ (registerUtc u s).akz = s.akz ∧ (registerUtc u s).dev = s.dev ∧
    (registerUtc u s).lastWork = s.lastWork := by
  have h := registerUtc_frame 2130448 rfl u s
  refine ⟨pending_of_frame h rfl, elapsed_of_frame h rfl, out_of_frame h rfl, free_of_frame h rfl, occ_of_frame h rfl, shadow_of_frame h rfl, cai_of_frame h rfl, hif_of_frame h rfl, mac_of_frame h rfl, mgt_of_frame h rfl, prs_of_frame h rfl, tbl_of_frame h rfl, tm_of_frame h rfl, cry_of_frame h rfl, rel_of_frame h rfl, lcs_of_frame h rfl rfl, sto_of_frame h rfl, dmv_of_frame h rfl, akz_of_frame h rfl, dev_of_frame h rfl, lastWork_of_frame h rfl⟩

@[simp] theorem governUtc_fields (s : State) :
    (governUtc s).pending = s.pending ∧ (governUtc s).elapsed = s.elapsed ∧ (governUtc s).out = s.out ∧ (governUtc s).free = s.free ∧
    (governUtc s).occ = s.occ ∧ (governUtc s).shadow = s.shadow ∧ (governUtc s).cai = s.cai ∧ (governUtc s).hif = s.hif ∧ (governUtc s).mac = s.mac ∧
    (governUtc s).mgt = s.mgt ∧ (governUtc s).prs = s.prs ∧ (governUtc s).tbl = s.tbl ∧ (governUtc s).tm = s.tm ∧ (governUtc s).cry = s.cry ∧
    (governUtc s).rel = s.rel ∧ (governUtc s).lcs = s.lcs ∧ (governUtc s).sto = s.sto ∧ (governUtc s).dmv = s.dmv ∧ (governUtc s).akz = s.akz ∧
    (governUtc s).dev = s.dev ∧ (governUtc s).lastWork = s.lastWork := by
  have h := governUtc_frame 2130448 rfl s
  refine ⟨pending_of_frame h rfl, elapsed_of_frame h rfl, out_of_frame h rfl, free_of_frame h rfl, occ_of_frame h rfl, shadow_of_frame h rfl, cai_of_frame h rfl, hif_of_frame h rfl, mac_of_frame h rfl, mgt_of_frame h rfl, prs_of_frame h rfl, tbl_of_frame h rfl, tm_of_frame h rfl, cry_of_frame h rfl, rel_of_frame h rfl, lcs_of_frame h rfl rfl, sto_of_frame h rfl, dmv_of_frame h rfl, akz_of_frame h rfl, dev_of_frame h rfl, lastWork_of_frame h rfl⟩

@[simp] theorem switchTo_fields (id : Nat) (s : State) :
    (switchTo id s).pending = s.pending ∧ (switchTo id s).elapsed = s.elapsed ∧ (switchTo id s).free = s.free ∧ (switchTo id s).shadow = s.shadow ∧
    (switchTo id s).cai = s.cai ∧ (switchTo id s).hif = s.hif ∧ (switchTo id s).mac = s.mac ∧ (switchTo id s).mgt = s.mgt ∧
    (switchTo id s).prs = s.prs ∧ (switchTo id s).tbl = s.tbl ∧ (switchTo id s).tm = s.tm ∧ (switchTo id s).cry = s.cry ∧
    (switchTo id s).rel = s.rel ∧ (switchTo id s).lcs = s.lcs ∧ (switchTo id s).sto = s.sto ∧ (switchTo id s).dmv = s.dmv ∧
    (switchTo id s).akz = s.akz ∧ (switchTo id s).dev = s.dev ∧ (switchTo id s).lastWork = s.lastWork := by
  have h := switchTo_frame 2130484 rfl id s
  refine ⟨pending_of_frame h rfl, elapsed_of_frame h rfl, free_of_frame h rfl, shadow_of_frame h rfl, cai_of_frame h rfl, hif_of_frame h rfl, mac_of_frame h rfl, mgt_of_frame h rfl, prs_of_frame h rfl, tbl_of_frame h rfl, tm_of_frame h rfl, cry_of_frame h rfl, rel_of_frame h rfl, lcs_of_frame h rfl rfl, sto_of_frame h rfl, dmv_of_frame h rfl, akz_of_frame h rfl, dev_of_frame h rfl, lastWork_of_frame h rfl⟩

@[simp] theorem loseSelected_fields (s : State) :
    (loseSelected s).pending = s.pending ∧ (loseSelected s).elapsed = s.elapsed ∧ (loseSelected s).free = s.free ∧
    (loseSelected s).shadow = s.shadow ∧ (loseSelected s).cai = s.cai ∧ (loseSelected s).hif = s.hif ∧ (loseSelected s).mac = s.mac ∧
    (loseSelected s).mgt = s.mgt ∧ (loseSelected s).prs = s.prs ∧ (loseSelected s).tbl = s.tbl ∧ (loseSelected s).tm = s.tm ∧
    (loseSelected s).cry = s.cry ∧ (loseSelected s).rel = s.rel ∧ (loseSelected s).lcs = s.lcs ∧ (loseSelected s).sto = s.sto ∧
    (loseSelected s).dmv = s.dmv ∧ (loseSelected s).akz = s.akz ∧ (loseSelected s).dev = s.dev ∧ (loseSelected s).lastWork = s.lastWork := by
  have h := loseSelected_frame 2130484 rfl s
  refine ⟨pending_of_frame h rfl, elapsed_of_frame h rfl, free_of_frame h rfl, shadow_of_frame h rfl, cai_of_frame h rfl, hif_of_frame h rfl, mac_of_frame h rfl, mgt_of_frame h rfl, prs_of_frame h rfl, tbl_of_frame h rfl, tm_of_frame h rfl, cry_of_frame h rfl, rel_of_frame h rfl, lcs_of_frame h rfl rfl, sto_of_frame h rfl, dmv_of_frame h rfl, akz_of_frame h rfl, dev_of_frame h rfl, lastWork_of_frame h rfl⟩

@[simp] theorem modSlot_fields (id : Nat) (g : RefSlot → RefSlot) (s : State) :
    (modSlot id g s).pending = s.pending ∧ (modSlot id g s).elapsed = s.elapsed ∧ (modSlot id g s).out = s.out ∧ (modSlot id g s).free = s.free ∧
    (modSlot id g s).regs = s.regs ∧ (modSlot id g s).occ = s.occ ∧ (modSlot id g s).shadow = s.shadow ∧ (modSlot id g s).cai = s.cai ∧
    (modSlot id g s).hif = s.hif ∧ (modSlot id g s).qm = s.qm ∧ (modSlot id g s).mac = s.mac ∧ (modSlot id g s).mgt = s.mgt ∧
    (modSlot id g s).prs = s.prs ∧ (modSlot id g s).tbl = s.tbl ∧ (modSlot id g s).tm = s.tm ∧ (modSlot id g s).cry = s.cry ∧
    (modSlot id g s).rel = s.rel ∧ (modSlot id g s).lcs = s.lcs ∧ (modSlot id g s).sto = s.sto ∧ (modSlot id g s).dmv = s.dmv ∧
    (modSlot id g s).svc = s.svc ∧ (modSlot id g s).akz = s.akz ∧ (modSlot id g s).dev = s.dev ∧ (modSlot id g s).lastWork = s.lastWork := by
  have h := modSlot_frame 32768 rfl id g s
  refine ⟨pending_of_frame h rfl, elapsed_of_frame h rfl, out_of_frame h rfl, free_of_frame h rfl, regs_of_frame h rfl, occ_of_frame h rfl, shadow_of_frame h rfl, cai_of_frame h rfl, hif_of_frame h rfl, qm_of_frame h rfl, mac_of_frame h rfl, mgt_of_frame h rfl, prs_of_frame h rfl, tbl_of_frame h rfl, tm_of_frame h rfl, cry_of_frame h rfl, rel_of_frame h rfl, lcs_of_frame h rfl rfl, sto_of_frame h rfl, dmv_of_frame h rfl, svc_of_frame h rfl, akz_of_frame h rfl, dev_of_frame h rfl, lastWork_of_frame h rfl⟩

@[simp] theorem loseSlot_fields (id : Nat) (dest : RefSt) (s : State) :
    (loseSlot id dest s).pending = s.pending ∧ (loseSlot id dest s).elapsed = s.elapsed ∧ (loseSlot id dest s).free = s.free ∧
    (loseSlot id dest s).shadow = s.shadow ∧ (loseSlot id dest s).cai = s.cai ∧ (loseSlot id dest s).hif = s.hif ∧ (loseSlot id dest s).mac = s.mac ∧
    (loseSlot id dest s).mgt = s.mgt ∧ (loseSlot id dest s).prs = s.prs ∧ (loseSlot id dest s).tbl = s.tbl ∧ (loseSlot id dest s).tm = s.tm ∧
    (loseSlot id dest s).cry = s.cry ∧ (loseSlot id dest s).rel = s.rel ∧ (loseSlot id dest s).lcs = s.lcs ∧ (loseSlot id dest s).sto = s.sto ∧
    (loseSlot id dest s).dmv = s.dmv ∧ (loseSlot id dest s).akz = s.akz ∧ (loseSlot id dest s).dev = s.dev ∧
    (loseSlot id dest s).lastWork = s.lastWork := by
  have h := loseSlot_frame 2130484 rfl id dest s
  refine ⟨pending_of_frame h rfl, elapsed_of_frame h rfl, free_of_frame h rfl, shadow_of_frame h rfl, cai_of_frame h rfl, hif_of_frame h rfl, mac_of_frame h rfl, mgt_of_frame h rfl, prs_of_frame h rfl, tbl_of_frame h rfl, tm_of_frame h rfl, cry_of_frame h rfl, rel_of_frame h rfl, lcs_of_frame h rfl rfl, sto_of_frame h rfl, dmv_of_frame h rfl, akz_of_frame h rfl, dev_of_frame h rfl, lastWork_of_frame h rfl⟩

@[simp] theorem worked_fields (u : DUnit) (s : State) :
    (worked u s).pending = s.pending ∧ (worked u s).elapsed = s.elapsed ∧ (worked u s).out = s.out ∧ (worked u s).free = s.free ∧
    (worked u s).regs = s.regs ∧ (worked u s).occ = s.occ ∧ (worked u s).shadow = s.shadow ∧ (worked u s).cai = s.cai ∧ (worked u s).hif = s.hif ∧
    (worked u s).qm = s.qm ∧ (worked u s).mac = s.mac ∧ (worked u s).mgt = s.mgt ∧ (worked u s).prs = s.prs ∧ (worked u s).tbl = s.tbl ∧
    (worked u s).tm = s.tm ∧ (worked u s).tim = s.tim ∧ (worked u s).cry = s.cry ∧ (worked u s).rel = s.rel ∧ (worked u s).lcs = s.lcs ∧
    (worked u s).sto = s.sto ∧ (worked u s).dmv = s.dmv ∧ (worked u s).svc = s.svc ∧ (worked u s).akz = s.akz ∧ (worked u s).dev = s.dev := by
  have h := worked_frame 33554432 rfl u s
  refine ⟨pending_of_frame h rfl, elapsed_of_frame h rfl, out_of_frame h rfl, free_of_frame h rfl, regs_of_frame h rfl, occ_of_frame h rfl, shadow_of_frame h rfl, cai_of_frame h rfl, hif_of_frame h rfl, qm_of_frame h rfl, mac_of_frame h rfl, mgt_of_frame h rfl, prs_of_frame h rfl, tbl_of_frame h rfl, tm_of_frame h rfl, tim_of_frame h rfl, cry_of_frame h rfl, rel_of_frame h rfl, lcs_of_frame h rfl rfl, sto_of_frame h rfl, dmv_of_frame h rfl, svc_of_frame h rfl, akz_of_frame h rfl, dev_of_frame h rfl⟩

@[simp] theorem finishWork_fields (f : Fn) (q : Nat) (ctr : BitVec 16) (status : Nat) (extra : Nat) (s : State) :
    (finishWork f q ctr status extra s).pending = s.pending ∧ (finishWork f q ctr status extra s).elapsed = s.elapsed ∧
    (finishWork f q ctr status extra s).out = s.out ∧ (finishWork f q ctr status extra s).free = s.free ∧
    (finishWork f q ctr status extra s).regs = s.regs ∧ (finishWork f q ctr status extra s).occ = s.occ ∧
    (finishWork f q ctr status extra s).shadow = s.shadow ∧ (finishWork f q ctr status extra s).cai = s.cai ∧
    (finishWork f q ctr status extra s).hif = s.hif ∧ (finishWork f q ctr status extra s).mac = s.mac ∧
    (finishWork f q ctr status extra s).mgt = s.mgt ∧ (finishWork f q ctr status extra s).prs = s.prs ∧
    (finishWork f q ctr status extra s).tbl = s.tbl ∧ (finishWork f q ctr status extra s).tm = s.tm ∧
    (finishWork f q ctr status extra s).tim = s.tim ∧ (finishWork f q ctr status extra s).cry = s.cry ∧
    (finishWork f q ctr status extra s).rel = s.rel ∧ (finishWork f q ctr status extra s).lcs = s.lcs ∧
    (finishWork f q ctr status extra s).sto = s.sto ∧ (finishWork f q ctr status extra s).dmv = s.dmv ∧
    (finishWork f q ctr status extra s).svc = s.svc ∧ (finishWork f q ctr status extra s).akz = s.akz ∧
    (finishWork f q ctr status extra s).dev = s.dev ∧ (finishWork f q ctr status extra s).lastWork = s.lastWork := by
  have h := finishWork_frame 512 rfl f q ctr status extra s
  refine ⟨pending_of_frame h rfl, elapsed_of_frame h rfl, out_of_frame h rfl, free_of_frame h rfl, regs_of_frame h rfl, occ_of_frame h rfl, shadow_of_frame h rfl, cai_of_frame h rfl, hif_of_frame h rfl, mac_of_frame h rfl, mgt_of_frame h rfl, prs_of_frame h rfl, tbl_of_frame h rfl, tm_of_frame h rfl, tim_of_frame h rfl, cry_of_frame h rfl, rel_of_frame h rfl, lcs_of_frame h rfl rfl, sto_of_frame h rfl, dmv_of_frame h rfl, svc_of_frame h rfl, akz_of_frame h rfl, dev_of_frame h rfl, lastWork_of_frame h rfl⟩

@[simp] theorem sendWrite_fields (f : Fn) (pasid : Option Nat) (addr : Nat) (bytes : Bytes) (t : Tlp) (s : State) :
    (sendWrite f pasid addr bytes t s).pending = s.pending ∧ (sendWrite f pasid addr bytes t s).elapsed = s.elapsed ∧
    (sendWrite f pasid addr bytes t s).free = s.free ∧ (sendWrite f pasid addr bytes t s).regs = s.regs ∧
    (sendWrite f pasid addr bytes t s).occ = s.occ ∧ (sendWrite f pasid addr bytes t s).shadow = s.shadow ∧
    (sendWrite f pasid addr bytes t s).cai = s.cai ∧ (sendWrite f pasid addr bytes t s).hif = s.hif ∧ (sendWrite f pasid addr bytes t s).qm = s.qm ∧
    (sendWrite f pasid addr bytes t s).mac = s.mac ∧ (sendWrite f pasid addr bytes t s).mgt = s.mgt ∧ (sendWrite f pasid addr bytes t s).prs = s.prs ∧
    (sendWrite f pasid addr bytes t s).tbl = s.tbl ∧ (sendWrite f pasid addr bytes t s).tm = s.tm ∧ (sendWrite f pasid addr bytes t s).tim = s.tim ∧
    (sendWrite f pasid addr bytes t s).cry = s.cry ∧ (sendWrite f pasid addr bytes t s).rel = s.rel ∧ (sendWrite f pasid addr bytes t s).lcs = s.lcs ∧
    (sendWrite f pasid addr bytes t s).sto = s.sto ∧ (sendWrite f pasid addr bytes t s).dmv = s.dmv ∧ (sendWrite f pasid addr bytes t s).svc = s.svc ∧
    (sendWrite f pasid addr bytes t s).akz = s.akz ∧ (sendWrite f pasid addr bytes t s).dev = s.dev ∧
    (sendWrite f pasid addr bytes t s).lastWork = s.lastWork := by
  have h := sendWrite_frame 4 rfl f pasid addr bytes t s
  refine ⟨pending_of_frame h rfl, elapsed_of_frame h rfl, free_of_frame h rfl, regs_of_frame h rfl, occ_of_frame h rfl, shadow_of_frame h rfl, cai_of_frame h rfl, hif_of_frame h rfl, qm_of_frame h rfl, mac_of_frame h rfl, mgt_of_frame h rfl, prs_of_frame h rfl, tbl_of_frame h rfl, tm_of_frame h rfl, tim_of_frame h rfl, cry_of_frame h rfl, rel_of_frame h rfl, lcs_of_frame h rfl rfl, sto_of_frame h rfl, dmv_of_frame h rfl, svc_of_frame h rfl, akz_of_frame h rfl, dev_of_frame h rfl, lastWork_of_frame h rfl⟩

@[simp] theorem logWrite_fields (f : Fn) (addr : Nat) (len : Nat) (s : State) :
    (logWrite f addr len s).pending = s.pending ∧ (logWrite f addr len s).elapsed = s.elapsed ∧ (logWrite f addr len s).free = s.free ∧
    (logWrite f addr len s).regs = s.regs ∧ (logWrite f addr len s).occ = s.occ ∧ (logWrite f addr len s).shadow = s.shadow ∧
    (logWrite f addr len s).cai = s.cai ∧ (logWrite f addr len s).qm = s.qm ∧ (logWrite f addr len s).mac = s.mac ∧
    (logWrite f addr len s).mgt = s.mgt ∧ (logWrite f addr len s).prs = s.prs ∧ (logWrite f addr len s).tbl = s.tbl ∧
    (logWrite f addr len s).tm = s.tm ∧ (logWrite f addr len s).tim = s.tim ∧ (logWrite f addr len s).cry = s.cry ∧
    (logWrite f addr len s).rel = s.rel ∧ (logWrite f addr len s).lcs = s.lcs ∧ (logWrite f addr len s).sto = s.sto ∧
    (logWrite f addr len s).dmv = s.dmv ∧ (logWrite f addr len s).svc = s.svc ∧ (logWrite f addr len s).akz = s.akz ∧
    (logWrite f addr len s).dev = s.dev ∧ (logWrite f addr len s).lastWork = s.lastWork := by
  have h := logWrite_frame 260 rfl f addr len s
  refine ⟨pending_of_frame h rfl, elapsed_of_frame h rfl, free_of_frame h rfl, regs_of_frame h rfl, occ_of_frame h rfl, shadow_of_frame h rfl, cai_of_frame h rfl, qm_of_frame h rfl, mac_of_frame h rfl, mgt_of_frame h rfl, prs_of_frame h rfl, tbl_of_frame h rfl, tm_of_frame h rfl, tim_of_frame h rfl, cry_of_frame h rfl, rel_of_frame h rfl, lcs_of_frame h rfl rfl, sto_of_frame h rfl, dmv_of_frame h rfl, svc_of_frame h rfl, akz_of_frame h rfl, dev_of_frame h rfl, lastWork_of_frame h rfl⟩

@[simp] theorem hostWrite_fields (f : Fn) (pasid : Option Nat) (addr : Nat) (bytes : Bytes) (ro : Bool) (s : State) :
    (hostWrite f pasid addr bytes ro s).pending = s.pending ∧ (hostWrite f pasid addr bytes ro s).elapsed = s.elapsed ∧
    (hostWrite f pasid addr bytes ro s).free = s.free ∧ (hostWrite f pasid addr bytes ro s).regs = s.regs ∧
    (hostWrite f pasid addr bytes ro s).occ = s.occ ∧ (hostWrite f pasid addr bytes ro s).shadow = s.shadow ∧
    (hostWrite f pasid addr bytes ro s).cai = s.cai ∧ (hostWrite f pasid addr bytes ro s).qm = s.qm ∧
    (hostWrite f pasid addr bytes ro s).mac = s.mac ∧ (hostWrite f pasid addr bytes ro s).mgt = s.mgt ∧
    (hostWrite f pasid addr bytes ro s).prs = s.prs ∧ (hostWrite f pasid addr bytes ro s).tbl = s.tbl ∧
    (hostWrite f pasid addr bytes ro s).tm = s.tm ∧ (hostWrite f pasid addr bytes ro s).tim = s.tim ∧
    (hostWrite f pasid addr bytes ro s).cry = s.cry ∧ (hostWrite f pasid addr bytes ro s).rel = s.rel ∧
    (hostWrite f pasid addr bytes ro s).lcs = s.lcs ∧ (hostWrite f pasid addr bytes ro s).sto = s.sto ∧
    (hostWrite f pasid addr bytes ro s).dmv = s.dmv ∧ (hostWrite f pasid addr bytes ro s).svc = s.svc ∧
    (hostWrite f pasid addr bytes ro s).akz = s.akz ∧ (hostWrite f pasid addr bytes ro s).dev = s.dev ∧
    (hostWrite f pasid addr bytes ro s).lastWork = s.lastWork := by
  have h := hostWrite_frame 260 rfl f pasid addr bytes ro s
  refine ⟨pending_of_frame h rfl, elapsed_of_frame h rfl, free_of_frame h rfl, regs_of_frame h rfl, occ_of_frame h rfl, shadow_of_frame h rfl, cai_of_frame h rfl, qm_of_frame h rfl, mac_of_frame h rfl, mgt_of_frame h rfl, prs_of_frame h rfl, tbl_of_frame h rfl, tm_of_frame h rfl, tim_of_frame h rfl, cry_of_frame h rfl, rel_of_frame h rfl, lcs_of_frame h rfl rfl, sto_of_frame h rfl, dmv_of_frame h rfl, svc_of_frame h rfl, akz_of_frame h rfl, dev_of_frame h rfl, lastWork_of_frame h rfl⟩

@[simp] theorem modDomain_fields (u : DUnit) (g : DomainSt → DomainSt) (s : State) :
    (modDomain u g s).pending = s.pending ∧ (modDomain u g s).elapsed = s.elapsed ∧ (modDomain u g s).out = s.out ∧ (modDomain u g s).free = s.free ∧
    (modDomain u g s).regs = s.regs ∧ (modDomain u g s).occ = s.occ ∧ (modDomain u g s).shadow = s.shadow ∧ (modDomain u g s).hif = s.hif ∧
    (modDomain u g s).qm = s.qm ∧ (modDomain u g s).mac = s.mac ∧ (modDomain u g s).mgt = s.mgt ∧ (modDomain u g s).prs = s.prs ∧
    (modDomain u g s).tbl = s.tbl ∧ (modDomain u g s).tm = s.tm ∧ (modDomain u g s).tim = s.tim ∧ (modDomain u g s).cry = s.cry ∧
    (modDomain u g s).rel = s.rel ∧ (modDomain u g s).lcs = s.lcs ∧ (modDomain u g s).sto = s.sto ∧ (modDomain u g s).dmv = s.dmv ∧
    (modDomain u g s).svc = s.svc ∧ (modDomain u g s).akz = s.akz ∧ (modDomain u g s).dev = s.dev ∧ (modDomain u g s).lastWork = s.lastWork := by
  have h := modDomain_frame 128 rfl u g s
  refine ⟨pending_of_frame h rfl, elapsed_of_frame h rfl, out_of_frame h rfl, free_of_frame h rfl, regs_of_frame h rfl, occ_of_frame h rfl, shadow_of_frame h rfl, hif_of_frame h rfl, qm_of_frame h rfl, mac_of_frame h rfl, mgt_of_frame h rfl, prs_of_frame h rfl, tbl_of_frame h rfl, tm_of_frame h rfl, tim_of_frame h rfl, cry_of_frame h rfl, rel_of_frame h rfl, lcs_of_frame h rfl rfl, sto_of_frame h rfl, dmv_of_frame h rfl, svc_of_frame h rfl, akz_of_frame h rfl, dev_of_frame h rfl, lastWork_of_frame h rfl⟩

@[simp] theorem setWake_fields (cause : Nat) (s : State) :
    (setWake cause s).pending = s.pending ∧ (setWake cause s).elapsed = s.elapsed ∧ (setWake cause s).out = s.out ∧ (setWake cause s).free = s.free ∧
    (setWake cause s).regs = s.regs ∧ (setWake cause s).occ = s.occ ∧ (setWake cause s).shadow = s.shadow ∧ (setWake cause s).hif = s.hif ∧
    (setWake cause s).qm = s.qm ∧ (setWake cause s).mac = s.mac ∧ (setWake cause s).mgt = s.mgt ∧ (setWake cause s).prs = s.prs ∧
    (setWake cause s).tbl = s.tbl ∧ (setWake cause s).tm = s.tm ∧ (setWake cause s).tim = s.tim ∧ (setWake cause s).cry = s.cry ∧
    (setWake cause s).rel = s.rel ∧ (setWake cause s).lcs = s.lcs ∧ (setWake cause s).sto = s.sto ∧ (setWake cause s).dmv = s.dmv ∧
    (setWake cause s).svc = s.svc ∧ (setWake cause s).akz = s.akz ∧ (setWake cause s).dev = s.dev ∧ (setWake cause s).lastWork = s.lastWork := by
  have h := setWake_frame 128 rfl cause s
  refine ⟨pending_of_frame h rfl, elapsed_of_frame h rfl, out_of_frame h rfl, free_of_frame h rfl, regs_of_frame h rfl, occ_of_frame h rfl, shadow_of_frame h rfl, hif_of_frame h rfl, qm_of_frame h rfl, mac_of_frame h rfl, mgt_of_frame h rfl, prs_of_frame h rfl, tbl_of_frame h rfl, tm_of_frame h rfl, tim_of_frame h rfl, cry_of_frame h rfl, rel_of_frame h rfl, lcs_of_frame h rfl rfl, sto_of_frame h rfl, dmv_of_frame h rfl, svc_of_frame h rfl, akz_of_frame h rfl, dev_of_frame h rfl, lastWork_of_frame h rfl⟩

@[simp] theorem wakeRequest_fields (s : State) :
    (wakeRequest s).pending = s.pending ∧ (wakeRequest s).elapsed = s.elapsed ∧ (wakeRequest s).free = s.free ∧ (wakeRequest s).regs = s.regs ∧
    (wakeRequest s).occ = s.occ ∧ (wakeRequest s).shadow = s.shadow ∧ (wakeRequest s).hif = s.hif ∧ (wakeRequest s).mac = s.mac ∧
    (wakeRequest s).mgt = s.mgt ∧ (wakeRequest s).prs = s.prs ∧ (wakeRequest s).tbl = s.tbl ∧ (wakeRequest s).tm = s.tm ∧
    (wakeRequest s).tim = s.tim ∧ (wakeRequest s).cry = s.cry ∧ (wakeRequest s).rel = s.rel ∧ (wakeRequest s).lcs = s.lcs ∧
    (wakeRequest s).sto = s.sto ∧ (wakeRequest s).dmv = s.dmv ∧ (wakeRequest s).akz = s.akz ∧ (wakeRequest s).dev = s.dev ∧
    (wakeRequest s).lastWork = s.lastWork := by
  have h := wakeRequest_frame 2097796 rfl s
  refine ⟨pending_of_frame h rfl, elapsed_of_frame h rfl, free_of_frame h rfl, regs_of_frame h rfl, occ_of_frame h rfl, shadow_of_frame h rfl, hif_of_frame h rfl, mac_of_frame h rfl, mgt_of_frame h rfl, prs_of_frame h rfl, tbl_of_frame h rfl, tm_of_frame h rfl, tim_of_frame h rfl, cry_of_frame h rfl, rel_of_frame h rfl, lcs_of_frame h rfl rfl, sto_of_frame h rfl, dmv_of_frame h rfl, akz_of_frame h rfl, dev_of_frame h rfl, lastWork_of_frame h rfl⟩

@[simp] theorem wakePassed_fields (s : State) :
    (wakePassed s).pending = s.pending ∧ (wakePassed s).elapsed = s.elapsed ∧ (wakePassed s).free = s.free ∧ (wakePassed s).occ = s.occ ∧
    (wakePassed s).shadow = s.shadow ∧ (wakePassed s).hif = s.hif ∧ (wakePassed s).mac = s.mac ∧ (wakePassed s).mgt = s.mgt ∧
    (wakePassed s).prs = s.prs ∧ (wakePassed s).tbl = s.tbl ∧ (wakePassed s).tm = s.tm ∧ (wakePassed s).tim = s.tim ∧ (wakePassed s).cry = s.cry ∧
    (wakePassed s).rel = s.rel ∧ (wakePassed s).lcs = s.lcs ∧ (wakePassed s).sto = s.sto ∧ (wakePassed s).dmv = s.dmv ∧ (wakePassed s).akz = s.akz ∧
    (wakePassed s).dev = s.dev ∧ (wakePassed s).lastWork = s.lastWork := by
  have h := wakePassed_frame 2097812 rfl s
  refine ⟨pending_of_frame h rfl, elapsed_of_frame h rfl, free_of_frame h rfl, occ_of_frame h rfl, shadow_of_frame h rfl, hif_of_frame h rfl, mac_of_frame h rfl, mgt_of_frame h rfl, prs_of_frame h rfl, tbl_of_frame h rfl, tm_of_frame h rfl, tim_of_frame h rfl, cry_of_frame h rfl, rel_of_frame h rfl, lcs_of_frame h rfl rfl, sto_of_frame h rfl, dmv_of_frame h rfl, akz_of_frame h rfl, dev_of_frame h rfl, lastWork_of_frame h rfl⟩

@[simp] theorem ticks_fields (n : Nat) (s : State) :
    (ticks n s).pending = s.pending ∧ (ticks n s).out = s.out ∧ (ticks n s).free = s.free ∧ (ticks n s).regs = s.regs ∧ (ticks n s).occ = s.occ ∧
    (ticks n s).shadow = s.shadow ∧ (ticks n s).cai = s.cai ∧ (ticks n s).hif = s.hif ∧ (ticks n s).qm = s.qm ∧ (ticks n s).mac = s.mac ∧
    (ticks n s).mgt = s.mgt ∧ (ticks n s).prs = s.prs ∧ (ticks n s).tbl = s.tbl ∧ (ticks n s).tm = s.tm ∧ (ticks n s).cry = s.cry ∧
    (ticks n s).rel = s.rel ∧ (ticks n s).lcs = s.lcs ∧ (ticks n s).sto = s.sto ∧ (ticks n s).dmv = s.dmv ∧ (ticks n s).svc = s.svc ∧
    (ticks n s).akz = s.akz ∧ (ticks n s).dev = s.dev ∧ (ticks n s).lastWork = s.lastWork := by
  have h := ticks_frame 32770 rfl n s
  refine ⟨pending_of_frame h rfl, out_of_frame h rfl, free_of_frame h rfl, regs_of_frame h rfl, occ_of_frame h rfl, shadow_of_frame h rfl, cai_of_frame h rfl, hif_of_frame h rfl, qm_of_frame h rfl, mac_of_frame h rfl, mgt_of_frame h rfl, prs_of_frame h rfl, tbl_of_frame h rfl, tm_of_frame h rfl, cry_of_frame h rfl, rel_of_frame h rfl, lcs_of_frame h rfl rfl, sto_of_frame h rfl, dmv_of_frame h rfl, svc_of_frame h rfl, akz_of_frame h rfl, dev_of_frame h rfl, lastWork_of_frame h rfl⟩

@[simp] theorem advanceTo_fields (t : Nat) (s : State) :
    (advanceTo t s).pending = s.pending ∧ (advanceTo t s).out = s.out ∧ (advanceTo t s).free = s.free ∧ (advanceTo t s).regs = s.regs ∧
    (advanceTo t s).occ = s.occ ∧ (advanceTo t s).shadow = s.shadow ∧ (advanceTo t s).cai = s.cai ∧ (advanceTo t s).hif = s.hif ∧
    (advanceTo t s).qm = s.qm ∧ (advanceTo t s).mac = s.mac ∧ (advanceTo t s).mgt = s.mgt ∧ (advanceTo t s).prs = s.prs ∧
    (advanceTo t s).tbl = s.tbl ∧ (advanceTo t s).tm = s.tm ∧ (advanceTo t s).cry = s.cry ∧ (advanceTo t s).rel = s.rel ∧
    (advanceTo t s).lcs = s.lcs ∧ (advanceTo t s).sto = s.sto ∧ (advanceTo t s).dmv = s.dmv ∧ (advanceTo t s).svc = s.svc ∧
    (advanceTo t s).akz = s.akz ∧ (advanceTo t s).dev = s.dev ∧ (advanceTo t s).lastWork = s.lastWork := by
  have h := advanceTo_frame 32770 rfl t s
  refine ⟨pending_of_frame h rfl, out_of_frame h rfl, free_of_frame h rfl, regs_of_frame h rfl, occ_of_frame h rfl, shadow_of_frame h rfl, cai_of_frame h rfl, hif_of_frame h rfl, qm_of_frame h rfl, mac_of_frame h rfl, mgt_of_frame h rfl, prs_of_frame h rfl, tbl_of_frame h rfl, tm_of_frame h rfl, cry_of_frame h rfl, rel_of_frame h rfl, lcs_of_frame h rfl rfl, sto_of_frame h rfl, dmv_of_frame h rfl, svc_of_frame h rfl, akz_of_frame h rfl, dev_of_frame h rfl, lastWork_of_frame h rfl⟩

@[simp] theorem advanceTai_fields (t : Nat) (s : State) :
    (advanceTai t s).pending = s.pending ∧ (advanceTai t s).out = s.out ∧ (advanceTai t s).free = s.free ∧ (advanceTai t s).regs = s.regs ∧
    (advanceTai t s).occ = s.occ ∧ (advanceTai t s).shadow = s.shadow ∧ (advanceTai t s).cai = s.cai ∧ (advanceTai t s).hif = s.hif ∧
    (advanceTai t s).qm = s.qm ∧ (advanceTai t s).mac = s.mac ∧ (advanceTai t s).mgt = s.mgt ∧ (advanceTai t s).prs = s.prs ∧
    (advanceTai t s).tbl = s.tbl ∧ (advanceTai t s).tm = s.tm ∧ (advanceTai t s).cry = s.cry ∧ (advanceTai t s).rel = s.rel ∧
    (advanceTai t s).lcs = s.lcs ∧ (advanceTai t s).sto = s.sto ∧ (advanceTai t s).dmv = s.dmv ∧ (advanceTai t s).svc = s.svc ∧
    (advanceTai t s).akz = s.akz ∧ (advanceTai t s).dev = s.dev ∧ (advanceTai t s).lastWork = s.lastWork := by
  have h := advanceTai_frame 32770 rfl t s
  refine ⟨pending_of_frame h rfl, out_of_frame h rfl, free_of_frame h rfl, regs_of_frame h rfl, occ_of_frame h rfl, shadow_of_frame h rfl, cai_of_frame h rfl, hif_of_frame h rfl, qm_of_frame h rfl, mac_of_frame h rfl, mgt_of_frame h rfl, prs_of_frame h rfl, tbl_of_frame h rfl, tm_of_frame h rfl, cry_of_frame h rfl, rel_of_frame h rfl, lcs_of_frame h rfl rfl, sto_of_frame h rfl, dmv_of_frame h rfl, svc_of_frame h rfl, akz_of_frame h rfl, dev_of_frame h rfl, lastWork_of_frame h rfl⟩

@[simp] theorem reselect_fields (s : State) :
    (reselect s).pending = s.pending ∧ (reselect s).elapsed = s.elapsed ∧ (reselect s).free = s.free ∧ (reselect s).shadow = s.shadow ∧
    (reselect s).cai = s.cai ∧ (reselect s).hif = s.hif ∧ (reselect s).mac = s.mac ∧ (reselect s).mgt = s.mgt ∧ (reselect s).prs = s.prs ∧
    (reselect s).tbl = s.tbl ∧ (reselect s).tm = s.tm ∧ (reselect s).cry = s.cry ∧ (reselect s).rel = s.rel ∧ (reselect s).lcs = s.lcs ∧
    (reselect s).sto = s.sto ∧ (reselect s).dmv = s.dmv ∧ (reselect s).akz = s.akz ∧ (reselect s).dev = s.dev ∧ (reselect s).lastWork = s.lastWork := by
  have h := reselect_frame 2130484 rfl s
  refine ⟨pending_of_frame h rfl, elapsed_of_frame h rfl, free_of_frame h rfl, shadow_of_frame h rfl, cai_of_frame h rfl, hif_of_frame h rfl, mac_of_frame h rfl, mgt_of_frame h rfl, prs_of_frame h rfl, tbl_of_frame h rfl, tm_of_frame h rfl, cry_of_frame h rfl, rel_of_frame h rfl, lcs_of_frame h rfl rfl, sto_of_frame h rfl, dmv_of_frame h rfl, akz_of_frame h rfl, dev_of_frame h rfl, lastWork_of_frame h rfl⟩

@[simp] theorem reselectIfDue_fields (s : State) :
    (reselectIfDue s).pending = s.pending ∧ (reselectIfDue s).elapsed = s.elapsed ∧ (reselectIfDue s).free = s.free ∧
    (reselectIfDue s).shadow = s.shadow ∧ (reselectIfDue s).cai = s.cai ∧ (reselectIfDue s).hif = s.hif ∧ (reselectIfDue s).mac = s.mac ∧
    (reselectIfDue s).mgt = s.mgt ∧ (reselectIfDue s).prs = s.prs ∧ (reselectIfDue s).tbl = s.tbl ∧ (reselectIfDue s).tm = s.tm ∧
    (reselectIfDue s).cry = s.cry ∧ (reselectIfDue s).rel = s.rel ∧ (reselectIfDue s).lcs = s.lcs ∧ (reselectIfDue s).sto = s.sto ∧
    (reselectIfDue s).dmv = s.dmv ∧ (reselectIfDue s).akz = s.akz ∧ (reselectIfDue s).dev = s.dev ∧ (reselectIfDue s).lastWork = s.lastWork := by
  have h := reselectIfDue_frame 2130484 rfl s
  refine ⟨pending_of_frame h rfl, elapsed_of_frame h rfl, free_of_frame h rfl, shadow_of_frame h rfl, cai_of_frame h rfl, hif_of_frame h rfl, mac_of_frame h rfl, mgt_of_frame h rfl, prs_of_frame h rfl, tbl_of_frame h rfl, tm_of_frame h rfl, cry_of_frame h rfl, rel_of_frame h rfl, lcs_of_frame h rfl rfl, sto_of_frame h rfl, dmv_of_frame h rfl, akz_of_frame h rfl, dev_of_frame h rfl, lastWork_of_frame h rfl⟩

@[simp] theorem enterLocked_fields (s : State) :
    (enterLocked s).pending = s.pending ∧ (enterLocked s).elapsed = s.elapsed ∧ (enterLocked s).out = s.out ∧ (enterLocked s).free = s.free ∧
    (enterLocked s).occ = s.occ ∧ (enterLocked s).shadow = s.shadow ∧ (enterLocked s).cai = s.cai ∧ (enterLocked s).hif = s.hif ∧
    (enterLocked s).mac = s.mac ∧ (enterLocked s).mgt = s.mgt ∧ (enterLocked s).prs = s.prs ∧ (enterLocked s).tbl = s.tbl ∧
    (enterLocked s).tm = s.tm ∧ (enterLocked s).cry = s.cry ∧ (enterLocked s).rel = s.rel ∧ (enterLocked s).lcs = s.lcs ∧
    (enterLocked s).sto = s.sto ∧ (enterLocked s).dmv = s.dmv ∧ (enterLocked s).akz = s.akz ∧ (enterLocked s).dev = s.dev ∧
    (enterLocked s).lastWork = s.lastWork := by
  have h := enterLocked_frame 2130448 rfl s
  refine ⟨pending_of_frame h rfl, elapsed_of_frame h rfl, out_of_frame h rfl, free_of_frame h rfl, occ_of_frame h rfl, shadow_of_frame h rfl, cai_of_frame h rfl, hif_of_frame h rfl, mac_of_frame h rfl, mgt_of_frame h rfl, prs_of_frame h rfl, tbl_of_frame h rfl, tm_of_frame h rfl, cry_of_frame h rfl, rel_of_frame h rfl, lcs_of_frame h rfl rfl, sto_of_frame h rfl, dmv_of_frame h rfl, akz_of_frame h rfl, dev_of_frame h rfl, lastWork_of_frame h rfl⟩

@[simp] theorem stepBy_fields (theta : Int) (s : State) :
    (stepBy theta s).pending = s.pending ∧ (stepBy theta s).elapsed = s.elapsed ∧ (stepBy theta s).free = s.free ∧
    (stepBy theta s).shadow = s.shadow ∧ (stepBy theta s).hif = s.hif ∧ (stepBy theta s).mac = s.mac ∧ (stepBy theta s).mgt = s.mgt ∧
    (stepBy theta s).prs = s.prs ∧ (stepBy theta s).tbl = s.tbl ∧ (stepBy theta s).tm = s.tm ∧ (stepBy theta s).cry = s.cry ∧
    (stepBy theta s).rel = s.rel ∧ (stepBy theta s).lcs = s.lcs ∧ (stepBy theta s).sto = s.sto ∧ (stepBy theta s).dmv = s.dmv ∧
    (stepBy theta s).akz = s.akz ∧ (stepBy theta s).dev = s.dev ∧ (stepBy theta s).lastWork = s.lastWork := by
  have h := stepBy_frame 2130612 rfl theta s
  refine ⟨pending_of_frame h rfl, elapsed_of_frame h rfl, free_of_frame h rfl, shadow_of_frame h rfl, hif_of_frame h rfl, mac_of_frame h rfl, mgt_of_frame h rfl, prs_of_frame h rfl, tbl_of_frame h rfl, tm_of_frame h rfl, cry_of_frame h rfl, rel_of_frame h rfl, lcs_of_frame h rfl rfl, sto_of_frame h rfl, dmv_of_frame h rfl, akz_of_frame h rfl, dev_of_frame h rfl, lastWork_of_frame h rfl⟩

@[simp] theorem runServo_fields (theta : Int) (interval : Nat) (s : State) :
    (runServo theta interval s).pending = s.pending ∧ (runServo theta interval s).elapsed = s.elapsed ∧ (runServo theta interval s).free = s.free ∧
    (runServo theta interval s).shadow = s.shadow ∧ (runServo theta interval s).hif = s.hif ∧ (runServo theta interval s).mac = s.mac ∧
    (runServo theta interval s).mgt = s.mgt ∧ (runServo theta interval s).prs = s.prs ∧ (runServo theta interval s).tbl = s.tbl ∧
    (runServo theta interval s).tm = s.tm ∧ (runServo theta interval s).cry = s.cry ∧ (runServo theta interval s).rel = s.rel ∧
    (runServo theta interval s).lcs = s.lcs ∧ (runServo theta interval s).sto = s.sto ∧ (runServo theta interval s).dmv = s.dmv ∧
    (runServo theta interval s).akz = s.akz ∧ (runServo theta interval s).dev = s.dev ∧ (runServo theta interval s).lastWork = s.lastWork := by
  have h := runServo_frame 2130612 rfl theta interval s
  refine ⟨pending_of_frame h rfl, elapsed_of_frame h rfl, free_of_frame h rfl, shadow_of_frame h rfl, hif_of_frame h rfl, mac_of_frame h rfl, mgt_of_frame h rfl, prs_of_frame h rfl, tbl_of_frame h rfl, tm_of_frame h rfl, cry_of_frame h rfl, rel_of_frame h rfl, lcs_of_frame h rfl rfl, sto_of_frame h rfl, dmv_of_frame h rfl, akz_of_frame h rfl, dev_of_frame h rfl, lastWork_of_frame h rfl⟩

@[simp] theorem applySelected_fields (id : Nat) (theta : Int) (interval : Nat) (s : State) :
    (applySelected id theta interval s).pending = s.pending ∧ (applySelected id theta interval s).elapsed = s.elapsed ∧
    (applySelected id theta interval s).free = s.free ∧ (applySelected id theta interval s).shadow = s.shadow ∧
    (applySelected id theta interval s).hif = s.hif ∧ (applySelected id theta interval s).mac = s.mac ∧
    (applySelected id theta interval s).mgt = s.mgt ∧ (applySelected id theta interval s).prs = s.prs ∧
    (applySelected id theta interval s).tbl = s.tbl ∧ (applySelected id theta interval s).tm = s.tm ∧
    (applySelected id theta interval s).cry = s.cry ∧ (applySelected id theta interval s).rel = s.rel ∧
    (applySelected id theta interval s).lcs = s.lcs ∧ (applySelected id theta interval s).sto = s.sto ∧
    (applySelected id theta interval s).dmv = s.dmv ∧ (applySelected id theta interval s).akz = s.akz ∧
    (applySelected id theta interval s).dev = s.dev ∧ (applySelected id theta interval s).lastWork = s.lastWork := by
  have h := applySelected_frame 2130612 rfl id theta interval s
  refine ⟨pending_of_frame h rfl, elapsed_of_frame h rfl, free_of_frame h rfl, shadow_of_frame h rfl, hif_of_frame h rfl, mac_of_frame h rfl, mgt_of_frame h rfl, prs_of_frame h rfl, tbl_of_frame h rfl, tm_of_frame h rfl, cry_of_frame h rfl, rel_of_frame h rfl, lcs_of_frame h rfl rfl, sto_of_frame h rfl, dmv_of_frame h rfl, akz_of_frame h rfl, dev_of_frame h rfl, lastWork_of_frame h rfl⟩

@[simp] theorem judgeMeasurement_fields (id : Nat) (theta : Int) (m : MeasInfo) (s : State) :
    (judgeMeasurement id theta m s).pending = s.pending ∧ (judgeMeasurement id theta m s).elapsed = s.elapsed ∧
    (judgeMeasurement id theta m s).free = s.free ∧ (judgeMeasurement id theta m s).shadow = s.shadow ∧ (judgeMeasurement id theta m s).hif = s.hif ∧
    (judgeMeasurement id theta m s).mac = s.mac ∧ (judgeMeasurement id theta m s).mgt = s.mgt ∧ (judgeMeasurement id theta m s).prs = s.prs ∧
    (judgeMeasurement id theta m s).tbl = s.tbl ∧ (judgeMeasurement id theta m s).tm = s.tm ∧ (judgeMeasurement id theta m s).cry = s.cry ∧
    (judgeMeasurement id theta m s).rel = s.rel ∧ (judgeMeasurement id theta m s).lcs = s.lcs ∧ (judgeMeasurement id theta m s).sto = s.sto ∧
    (judgeMeasurement id theta m s).dmv = s.dmv ∧ (judgeMeasurement id theta m s).akz = s.akz ∧ (judgeMeasurement id theta m s).dev = s.dev ∧
    (judgeMeasurement id theta m s).lastWork = s.lastWork := by
  have h := judgeMeasurement_frame 2130612 rfl id theta m s
  refine ⟨pending_of_frame h rfl, elapsed_of_frame h rfl, free_of_frame h rfl, shadow_of_frame h rfl, hif_of_frame h rfl, mac_of_frame h rfl, mgt_of_frame h rfl, prs_of_frame h rfl, tbl_of_frame h rfl, tm_of_frame h rfl, cry_of_frame h rfl, rel_of_frame h rfl, lcs_of_frame h rfl rfl, sto_of_frame h rfl, dmv_of_frame h rfl, akz_of_frame h rfl, dev_of_frame h rfl, lastWork_of_frame h rfl⟩

@[simp] theorem measure_fields (id : Nat) (theta : Int) (m : MeasInfo) (s : State) :
    (measure id theta m s).pending = s.pending ∧ (measure id theta m s).elapsed = s.elapsed ∧ (measure id theta m s).free = s.free ∧
    (measure id theta m s).shadow = s.shadow ∧ (measure id theta m s).hif = s.hif ∧ (measure id theta m s).mac = s.mac ∧
    (measure id theta m s).mgt = s.mgt ∧ (measure id theta m s).prs = s.prs ∧ (measure id theta m s).tbl = s.tbl ∧ (measure id theta m s).tm = s.tm ∧
    (measure id theta m s).cry = s.cry ∧ (measure id theta m s).rel = s.rel ∧ (measure id theta m s).lcs = s.lcs ∧
    (measure id theta m s).sto = s.sto ∧ (measure id theta m s).dmv = s.dmv ∧ (measure id theta m s).akz = s.akz ∧
    (measure id theta m s).dev = s.dev ∧ (measure id theta m s).lastWork = s.lastWork := by
  have h := measure_frame 2130612 rfl id theta m s
  refine ⟨pending_of_frame h rfl, elapsed_of_frame h rfl, free_of_frame h rfl, shadow_of_frame h rfl, hif_of_frame h rfl, mac_of_frame h rfl, mgt_of_frame h rfl, prs_of_frame h rfl, tbl_of_frame h rfl, tm_of_frame h rfl, cry_of_frame h rfl, rel_of_frame h rfl, lcs_of_frame h rfl rfl, sto_of_frame h rfl, dmv_of_frame h rfl, akz_of_frame h rfl, dev_of_frame h rfl, lastWork_of_frame h rfl⟩

@[simp] theorem recompute_fields (s : State) :
    (recompute s).pending = s.pending ∧ (recompute s).elapsed = s.elapsed ∧ (recompute s).free = s.free ∧ (recompute s).shadow = s.shadow ∧
    (recompute s).cai = s.cai ∧ (recompute s).hif = s.hif ∧ (recompute s).mac = s.mac ∧ (recompute s).mgt = s.mgt ∧ (recompute s).prs = s.prs ∧
    (recompute s).tbl = s.tbl ∧ (recompute s).tm = s.tm ∧ (recompute s).cry = s.cry ∧ (recompute s).rel = s.rel ∧ (recompute s).lcs = s.lcs ∧
    (recompute s).sto = s.sto ∧ (recompute s).dmv = s.dmv ∧ (recompute s).akz = s.akz ∧ (recompute s).dev = s.dev ∧
    (recompute s).lastWork = s.lastWork := by
  have h := recompute_frame 2130484 rfl s
  refine ⟨pending_of_frame h rfl, elapsed_of_frame h rfl, free_of_frame h rfl, shadow_of_frame h rfl, cai_of_frame h rfl, hif_of_frame h rfl, mac_of_frame h rfl, mgt_of_frame h rfl, prs_of_frame h rfl, tbl_of_frame h rfl, tm_of_frame h rfl, cry_of_frame h rfl, rel_of_frame h rfl, lcs_of_frame h rfl rfl, sto_of_frame h rfl, dmv_of_frame h rfl, akz_of_frame h rfl, dev_of_frame h rfl, lastWork_of_frame h rfl⟩

@[simp] theorem tick_fields (s : State) :
    (tick s).pending = s.pending ∧ (tick s).out = s.out ∧ (tick s).free = s.free ∧ (tick s).regs = s.regs ∧ (tick s).occ = s.occ ∧
    (tick s).shadow = s.shadow ∧ (tick s).cai = s.cai ∧ (tick s).hif = s.hif ∧ (tick s).qm = s.qm ∧ (tick s).mac = s.mac ∧ (tick s).mgt = s.mgt ∧
    (tick s).prs = s.prs ∧ (tick s).tbl = s.tbl ∧ (tick s).tm = s.tm ∧ (tick s).cry = s.cry ∧ (tick s).rel = s.rel ∧ (tick s).lcs = s.lcs ∧
    (tick s).sto = s.sto ∧ (tick s).dmv = s.dmv ∧ (tick s).svc = s.svc ∧ (tick s).akz = s.akz ∧ (tick s).dev = s.dev ∧ (tick s).lastWork = s.lastWork := by
  have h := tick_frame 32770 rfl s
  refine ⟨pending_of_frame h rfl, out_of_frame h rfl, free_of_frame h rfl, regs_of_frame h rfl, occ_of_frame h rfl, shadow_of_frame h rfl, cai_of_frame h rfl, hif_of_frame h rfl, qm_of_frame h rfl, mac_of_frame h rfl, mgt_of_frame h rfl, prs_of_frame h rfl, tbl_of_frame h rfl, tm_of_frame h rfl, cry_of_frame h rfl, rel_of_frame h rfl, lcs_of_frame h rfl rfl, sto_of_frame h rfl, dmv_of_frame h rfl, svc_of_frame h rfl, akz_of_frame h rfl, dev_of_frame h rfl, lastWork_of_frame h rfl⟩

end Sys2Proof.Machine
end

