-- ==== Sys2Proof/Laws/Keep.lean ====
section
/-!
SUPPORT. Lemmas finer than the frames of whole parts: what an operation that changes a part leaves of that part.
-/
namespace Sys2Proof.Machine
set_option linter.all false

@[simp] theorem pushRecord_keeps_servo_bound_leap (bs : Bytes) (s : State) :
    (pushRecord bs s).tim.servo = s.tim.servo ∧ (pushRecord bs s).tim.bound = s.tim.bound ∧ (pushRecord bs s).tim.leap = s.tim.leap := by
  unfold pushRecord
  dsimp only
  split <;> simp

@[simp] theorem trace_keeps_servo_bound_leap (type : Nat) (s : State) :
    (trace type s).tim.servo = s.tim.servo ∧ (trace type s).tim.bound = s.tim.bound ∧ (trace type s).tim.leap = s.tim.leap := by
  unfold trace
  dsimp only
  split <;> simp

@[simp] theorem dropUnits_hif (f : Fn) (s : State) : (dropUnits f s).hif = s.hif :=
  hif_of_frame (dropUnits_frame 598016 rfl f s) rfl

@[simp] theorem silenceOne_keeps_ide (f : Fn) (s : State) : (silenceOne f s).hif.ide = s.hif.ide := by
  simp [silenceOne, dropJobs, dropWaiting]

@[simp] theorem tdiError_keeps_ide (f : Fn) (s : State) : (tdiError f s).hif.ide = s.hif.ide := by
  unfold tdiError
  dsimp only
  split <;> simp

/-- A passed CAI_WAKE_AT sets the wake-pending flag and the cause alone of the power record. -/
theorem wakePassed_mode (s : State) : (wakePassed s).cai.mode = s.cai.mode := by
  simp only [wakePassed, wakeRequest, setWake]
  split
  · rw [cai_of_frame (setPair64_frame 16 rfl _ _ _ _ _ _) rfl]
    (repeat' split) <;> simp
  · rfl

theorem setMode_mode (m : Mode) (s : State) : (setMode m s).cai.mode = m := by
  unfold setMode
  dsimp only
  split
  · rename_i h; exact h.symm
  · split
    · rfl
    · rw [wakePassed_mode]
      simp

/-- A stop of the fast domains changes no mode. -/
theorem stopFast_mode (s : State) : (stopFast s).cai.mode = s.cai.mode := by
  have e : (halfDown 0 (halfDown 1 s)).cai = s.cai := by
    rw [cai_of_frame (halfDown_frame 3794748 rfl 0 _) rfl, cai_of_frame (halfDown_frame 3794748 rfl 1 _) rfl]
  unfold stopFast
  simp [e]

/-- A fast stop for a fault leaves the running modes for STANDBY (R83, R95). -/
theorem faultStop_mode (s : State)
    (h : s.cai.mode ∈ [Mode.bringup, .service, .spared, .pause, .drain, .isolated, .recovery]) : (faultStop s).cai.mode = .standby := by
  have e : (emit (.pin .faultN .low) (stopFast s)).cai.mode = s.cai.mode := by simp [stopFast_mode]
  unfold faultStop faultMode
  rw [e]
  simp only [List.mem_cons, List.not_mem_nil, or_false] at h
  rcases h with h | h | h | h | h | h | h <;> simp only [h] <;> exact setMode_mode _ _

/-- The record of a unit that an update has changed. -/
@[simp] theorem domainSt_modDomain_same (u : DUnit) (g : DomainSt → DomainSt) (s : State) : domainSt (modDomain u g s) u = g (domainSt s u) := by
  have e : unitOfDomain (modDomain u g s) u = unitOfDomain s u := by cases u <;> rfl
  simp only [domainSt, e]
  exact mget_mmod_same _ _ _ _

/-! ### UTC and the beginning of time keep the servo, the bound and the power record -/

/-- Two states agree on the servo, the bound, whether time is lost, and the power record. -/
def SameServo (s t : State) : Prop := t.tim.servo = s.tim.servo ∧ t.tim.bound = s.tim.bound ∧ t.tim.lost = s.tim.lost ∧ t.cai = s.cai

theorem SameServo.trans {a b c : State} (h : SameServo a b) (k : SameServo b c) : SameServo a c :=
  ⟨k.1.trans h.1, k.2.1.trans h.2.1, k.2.2.1.trans h.2.2.1, k.2.2.2.trans h.2.2.2⟩

theorem setLeap_servo (l : Option Leap) (s : State) : SameServo s (setLeap l s) := by
  unfold setLeap
  split
  · exact ⟨rfl, rfl, rfl, rfl⟩
  · exact ⟨by simp [forcePages, setPair64], by simp [forcePages, setPair64], by simp [forcePages, setPair64], by simp [forcePages, setPair64]⟩

theorem announceLeap_servo (c : LeapSrc) (a : Announce) (s : State) : SameServo s (announceLeap c a s) := by
  unfold announceLeap
  dsimp only
  split <;> (try split) <;> first | exact setLeap_servo _ _ | exact ⟨rfl, rfl, rfl, rfl⟩

theorem trace_lost (type : Nat) (s : State) : (trace type s).tim.lost = s.tim.lost := by
  unfold trace pushRecord
  dsimp only
  (repeat' split) <;> simp

theorem supplyUtc_servo (o : Int) (s : State) : SameServo s (supplyUtc o s) := by
  unfold supplyUtc
  dsimp only
  split
  · exact ⟨rfl, rfl, rfl, rfl⟩
  · split
    · exact ⟨by simp [forcePages], by simp [forcePages], by simp [forcePages, trace_lost], by simp [forcePages]⟩
    · exact ⟨rfl, rfl, rfl, rfl⟩

theorem governUtc_servo (s : State) : SameServo s (governUtc s) := by
  unfold governUtc registerUtc
  split
  · split
    · exact (supplyUtc_servo _ _).trans (announceLeap_servo _ _ _)
    · exact announceLeap_servo _ _ _
  · split
    · split
      · exact (supplyUtc_servo _ _).trans (announceLeap_servo _ _ _)
      · exact ⟨rfl, rfl, rfl, rfl⟩
    · exact ⟨rfl, rfl, rfl, rfl⟩

theorem settlePin_servo (pin : Nat) (s : State) : SameServo s (settlePin pin s) := by
  unfold settlePin
  dsimp only
  split
  · exact ⟨by simp [modPpsOut], by simp [modPpsOut], by simp [modPpsOut], by simp [modPpsOut]⟩
  · exact ⟨rfl, rfl, rfl, rfl⟩

/-- Time begins in FREERUN with the bound UNKNOWN (R29, R477). -/
theorem beginTime_servo (s : State) :
    (beginTime s).tim.servo = .freerun ∧ (beginTime s).tim.bound = none ∧ (beginTime s).tim.lost = false ∧ (beginTime s).cai = s.cai := by
  have a (x : State) : SameServo x (boundAlarm x) :=
    SameServo.trans (b := raise 0xD 0x06 0 .device (hwSet .TIM_STATUS 0 0 1 x)) ⟨by simp, by simp, by simp, by simp⟩
      ((settlePin_servo 0 _).trans (settlePin_servo 1 _))
  have b (x : State) : SameServo x (trace 2 (raise 0xD 0x01 0 .device x)) :=
    ⟨by simp, by simp, by simp [trace_lost], by simp⟩
  have c (g : Tim → Tim) (h : ∀ t, (g t).servo = .freerun ∧ (g t).bound = none ∧ (g t).lost = false) (x : State) (k : SameServo (modTim g (setLeap none s)) x) :
      x.tim.servo = .freerun ∧ x.tim.bound = none ∧ x.tim.lost = false ∧ x.cai = s.cai :=
    ⟨k.1.trans (h _).1, k.2.1.trans (h _).2.1, k.2.2.1.trans (h _).2.2, k.2.2.2.trans (setLeap_servo none s).2.2.2⟩
  unfold beginTime
  dsimp only
  split
  · exact c _ (fun _ => ⟨rfl, rfl, rfl⟩) _ ((a _).trans (governUtc_servo _))
  · exact c _ (fun _ => ⟨rfl, rfl, rfl⟩) _ (((a _).trans (governUtc_servo _)).trans (b _))

/-- Where power and a clock are present, time that was lost starts again (R29). -/
theorem resumeTime_starts (s : State) (h1 : s.tim.lost = true) (h2 : (s.tim.tosc || s.cai.sysclk) = true) (h3 : s.cai.mode ≠ .off)
    (h4 : s.cai.porstLow = false) (h5 : s.cai.fatalRestartAt = none) :
    (resumeTime s).tim.servo = .freerun ∧ (resumeTime s).tim.bound = none ∧ (resumeTime s).tim.lost = false ∧ (resumeTime s).cai = s.cai := by
  unfold resumeTime
  rw [if_pos ⟨h1, by simpa using h2, h3, by simp [h4], h5⟩]
  exact beginTime_servo s

end Sys2Proof.Machine
end

