-- ==== Sys2Proof/Laws/Memory.lean ====
section
/-!
SUPPORT. Device memory: its canonical form, that its one write keeps it, and what a read after a write gives.
-/
namespace Sys2Proof.Machine

/-- The test and the proposition say the same. -/
theorem Memory.wf_iff (m : NMap Byte) : Memory.wf m = true ↔ NMapWf (fun _ => (0 : Byte)) m := by
  simp [Memory.wf, NMapWf]

theorem foldl_mset_wf (a : Nat) (l : List (Byte × Nat)) :
    ∀ m : NMap Byte, NMapWf (fun _ => (0 : Byte)) m → NMapWf (fun _ => (0 : Byte)) (l.foldl (fun m e => mset 0 m (a + e.2) e.1) m) := by
  induction l with
  | nil => intro m h; exact h
  | cons e t ih => intro m h; exact ih _ (mset_wf _ _ _ _ h)

/-- The one operation that writes device memory keeps its canonical form. -/
theorem devWrite_wf (a : Nat) (bs : Bytes) (s : State) (h : Memory.wf s.dev = true) : Memory.wf (devWrite a bs s).dev = true := by
  rw [Memory.wf_iff] at *
  exact foldl_mset_wf a _ _ h

/-- Device memory after reset lists nothing. -/
theorem reset_memory_wf : Memory.wf State.reset.dev = true := by rfl

theorem foldl_mset_outside (a j : Nat) (l : List (Byte × Nat)) (n : ∀ e ∈ l, j ≠ a + e.2) :
    ∀ m : NMap Byte, mget 0 (l.foldl (fun m e => mset 0 m (a + e.2) e.1) m) j = mget 0 m j := by
  induction l with
  | nil => intro m; rfl
  | cons e t ih =>
    intro m
    rw [List.foldl_cons, ih (fun x hx => n x (List.mem_cons_of_mem _ hx)), mget_mset_other _ _ _ _ _ _ (n e List.mem_cons_self)]

/-- A write leaves every byte outside the written ones alone. -/
theorem devWrite_outside (a j : Nat) (bs : Bytes) (s : State) (h : j < a ∨ a + bs.length ≤ j) :
    mget 0 (devWrite a bs s).dev j = mget 0 s.dev j := by
  refine foldl_mset_outside a j _ (fun e he => ?_) _
  have hk : e.2 < bs.length := by
    have := List.mem_zipIdx he
    omega
  omega

/-- A byte just written reads as it was written. -/
theorem devWrite_byte (a : Nat) (b : Byte) (s : State) : mget 0 (devWrite a [b] s).dev a = b := by
  show mget 0 (mset 0 s.dev (a + 0) b) a = b
  simp

end Sys2Proof.Machine
end

