-- ==== Sys2Proof/Laws/Registers.lean ====
section
/-!
SUPPORT. What the shared operations do to one register: a stored value, a set bit, a count, and the updates that touch no register.
-/
namespace Sys2Proof.Machine

@[simp] theorem reg_emit (x : Output) (s : State) (r : Reg) (i h : Nat) : reg (emit x s) r i h = reg s r i h := reg_congr (by simp) r i h

@[simp] theorem reg_raise (b c d : Nat) (sc : Scope) (s : State) (r : Reg) (i h : Nat) : reg (raise b c d sc s) r i h = reg s r i h :=
  reg_congr (by simp) r i h

@[simp] theorem reg_countOcc (q : Reg) (j k b : Nat) (s : State) (r : Reg) (i h : Nat) : reg (countOcc q j k b s) r i h = reg s r i h :=
  reg_congr (by simp) r i h

@[simp] theorem reg_ticks (n : Nat) (s : State) (r : Reg) (i h : Nat) : reg (ticks n s) r i h = reg s r i h :=
  reg_congr (by simp [ticks]) r i h

@[simp] theorem reg_advanceTo (n : Nat) (s : State) (r : Reg) (i h : Nat) : reg (advanceTo n s) r i h = reg s r i h :=
  reg_ticks _ s r i h

@[simp] theorem reg_modFn (f : Fn) (g : FnSt → FnSt) (s : State) (r : Reg) (i h : Nat) : reg (modFn f g s) r i h = reg s r i h :=
  reg_congr (by simp) r i h

@[simp] theorem reg_modHalf (k : Nat) (g : HalfSt → HalfSt) (s : State) (r : Reg) (i h : Nat) : reg (modHalf k g s) r i h = reg s r i h :=
  reg_congr (by simp) r i h

@[simp] theorem reg_modQueue (f : Fn) (q : Nat) (g : Queue → Queue) (s : State) (r : Reg) (i h : Nat) :
    reg (modQueue f q g s) r i h = reg s r i h := reg_congr (by simp) r i h

@[simp] theorem reg_modCai (g : Cai → Cai) (s : State) (r : Reg) (i h : Nat) : reg (modCai g s) r i h = reg s r i h := reg_congr (by simp) r i h
@[simp] theorem reg_modTim (g : Tim → Tim) (s : State) (r : Reg) (i h : Nat) : reg (modTim g s) r i h = reg s r i h := reg_congr (by simp) r i h
@[simp] theorem reg_modHif (g : Hif → Hif) (s : State) (r : Reg) (i h : Nat) : reg (modHif g s) r i h = reg s r i h := reg_congr (by simp) r i h
@[simp] theorem reg_modQm (g : Qm → Qm) (s : State) (r : Reg) (i h : Nat) : reg (modQm g s) r i h = reg s r i h := reg_congr (by simp) r i h
@[simp] theorem reg_modTbl (g : Tbl → Tbl) (s : State) (r : Reg) (i h : Nat) : reg (modTbl g s) r i h = reg s r i h := reg_congr (by simp) r i h
@[simp] theorem reg_modTm (g : Tm → Tm) (s : State) (r : Reg) (i h : Nat) : reg (modTm g s) r i h = reg s r i h := reg_congr (by simp) r i h
@[simp] theorem reg_modPrs (g : Prs → Prs) (s : State) (r : Reg) (i h : Nat) : reg (modPrs g s) r i h = reg s r i h := reg_congr (by simp) r i h
@[simp] theorem reg_modMac (g : Mac → Mac) (s : State) (r : Reg) (i h : Nat) : reg (modMac g s) r i h = reg s r i h := reg_congr (by simp) r i h
@[simp] theorem reg_modMgt (g : Mgt → Mgt) (s : State) (r : Reg) (i h : Nat) : reg (modMgt g s) r i h = reg s r i h := reg_congr (by simp) r i h
@[simp] theorem reg_modCry (g : Cry → Cry) (s : State) (r : Reg) (i h : Nat) : reg (modCry g s) r i h = reg s r i h := reg_congr (by simp) r i h
@[simp] theorem reg_modRel (g : Rel → Rel) (s : State) (r : Reg) (i h : Nat) : reg (modRel g s) r i h = reg s r i h := reg_congr (by simp) r i h
@[simp] theorem reg_modLcs (g : Lcs → Lcs) (s : State) (r : Reg) (i h : Nat) : reg (modLcs g s) r i h = reg s r i h := reg_congr (by simp) r i h
@[simp] theorem reg_modSto (g : Sto → Sto) (s : State) (r : Reg) (i h : Nat) : reg (modSto g s) r i h = reg s r i h := reg_congr (by simp) r i h
@[simp] theorem reg_modDmv (g : Dmv → Dmv) (s : State) (r : Reg) (i h : Nat) : reg (modDmv g s) r i h = reg s r i h := reg_congr (by simp) r i h
@[simp] theorem reg_modSvc (g : Svc → Svc) (s : State) (r : Reg) (i h : Nat) : reg (modSvc g s) r i h = reg s r i h := reg_congr (by simp) r i h
@[simp] theorem reg_modAkz (g : Akz → Akz) (s : State) (r : Reg) (i h : Nat) : reg (modAkz g s) r i h = reg s r i h := reg_congr (by simp) r i h

/-- Hardware sets one bit and keeps the others (R8). -/
@[simp] theorem reg_hwSet_same (r : Reg) (i h b : Nat) (s : State) : reg (hwSet r i h b s) r i h = reg s r i h ||| w32 (2 ^ b) := by
  simp [hwSet]

@[simp] theorem reg_hwSet_ne (r q : Reg) (i h b : Nat) (s : State) (n : q ≠ r) : reg (hwSet r i h b s) q i h = reg s q i h := by
  simp [hwSet, n]

/-- A count rises and saturates at 32 bits (R9). -/
@[simp] theorem reg_bump_same (r : Reg) (i h n : Nat) (s : State) :
    reg (bump r i h n s) r i h = w32 (satAdd 0xFFFFFFFF (reg s r i h).toNat n) := by
  simp [bump]

@[simp] theorem reg_bump_ne (r q : Reg) (i h n : Nat) (s : State) (d : q ≠ r) : reg (bump r i h n s) q i h = reg s q i h := by
  simp [bump, d]

end Sys2Proof.Machine
end

