-- ==== Sys2Proof/Laws/Safety.lean ====
section
/-!
SUPPORT. From the frames of operations to the parts of the state that a command may change.
-/
namespace Sys2Proof.Machine

/-- The bit of a part in the masks of `forget`. -/
def Part.bit : Part → Nat
  | .pending => 0
  | .elapsed => 1
  | .out => 2
  | .free => 3
  | .regs => 4
  | .occ => 5
  | .shadow => 6
  | .cai => 7
  | .hif => 8
  | .qm => 9
  | .mac => 10
  | .mgt => 11
  | .prs => 12
  | .tbl => 13
  | .tm => 14
  | .tim => 15
  | .cry => 16
  | .rel => 17
  | .lcs => 18
  | .sto => 19
  | .dmv => 20
  | .svc => 21
  | .akz => 22
  | .dev => 23
  | .fuses => 24
  | .lastWork => 25

/-- The mask of a list of parts. -/
def partMask : List Part → Nat
  | [] => 0
  | p :: ps => 2 ^ p.bit ||| partMask ps

theorem mem_allBut (ps : List Part) (p : Part) (h : p ∉ ps) : p ∈ allBut ps := by
  cases p <;> simp [allBut, h]

/-- A frame, and the list of the parts it may clear, as a statement of what has not changed. The LCS record is listed whole. -/
theorem onlyChanges_of_frame (m : Nat) (ps : List Part) {s t : State} (h : forget m t = forget m s)
    (b : (allBut ps).all (fun p => !m.testBit p.bit && (p != .lcs || !m.testBit 24)) = true) : OnlyChanges ps s t := by
  intro p hp
  have hb := List.all_eq_true.mp b p (mem_allBut ps p hp)
  simp only [Bool.and_eq_true, Bool.not_eq_true'] at hb
  cases p
  · exact pending_of_frame h hb.1
  · exact elapsed_of_frame h hb.1
  · exact out_of_frame h hb.1
  · exact free_of_frame h hb.1
  · exact regs_of_frame h hb.1
  · exact occ_of_frame h hb.1
  · exact shadow_of_frame h hb.1
  · exact cai_of_frame h hb.1
  · exact hif_of_frame h hb.1
  · exact qm_of_frame h hb.1
  · exact mac_of_frame h hb.1
  · exact mgt_of_frame h hb.1
  · exact prs_of_frame h hb.1
  · exact tbl_of_frame h hb.1
  · exact tm_of_frame h hb.1
  · exact tim_of_frame h hb.1
  · exact cry_of_frame h hb.1
  · exact rel_of_frame h hb.1
  · exact lcs_of_frame h hb.1 (by simpa using hb.2)
  · exact sto_of_frame h hb.1
  · exact dmv_of_frame h hb.1
  · exact svc_of_frame h hb.1
  · exact akz_of_frame h hb.1
  · exact dev_of_frame h hb.1
  · exact fuses_of_frame h hb.1
  · exact lastWork_of_frame h hb.1

end Sys2Proof.Machine
end

