-- ==== Sys2Proof/WellFormed.lean ====
section
/-!
DEFINITION. Well-formed commands: every operand that names an object of the device names one that the spec gives it. The meanings are total, and a
command that names none has no effect.
-/
namespace Sys2Proof

/-- PFs 0 to 3, and VF numbers 1 to 4,096 (R117, R128). -/
def pfOk (i : Nat) : Bool := decide (i < 4)
def fnOk : Fn → Bool
  | .pf i => pfOk i
  | .vf p n => pfOk p && decide (n < 4096)
  | .fw => true

/-- A path is a function of a host, or one of the three others (R476). -/
def pathOk : Path → Bool
  | .fn .fw => false
  | .fn f => fnOk f
  | .tee .fw _ => false
  | .tee f k => fnOk f && decide (k ≤ 16)
  | _ => true

/-- Halves, and pairs of ports and pins (R61, R117, R198, R411). -/
def halfOk (h : Nat) : Bool := decide (h < 2)
def pairOk (n : Nat) : Bool := decide (n < 2)

/-- The fields of an NMEA date and time, with the leap second 60; an RMC sentence has two digits of the year (R35). -/
def nmeaOk (n : Nmea) : Bool :=
  decide (n.year < (if n.rmc then 100 else 10000) ∧ 1 ≤ n.month ∧ n.month ≤ 12 ∧ 1 ≤ n.day ∧ n.day ≤ 31 ∧ n.hour < 24 ∧ n.minute < 60 ∧ n.second ≤ 60)

/-- Logical ports and priorities (R199, R204). -/
def lpOk (lp : Nat) : Bool := decide (lp < 16)
def prioOk (n : Nat) : Bool := decide (n < 8)

/-- Parse engines, with those of the spare pairs, and cipher engines (R228, R321). -/
def engineOk (e : Nat) : Bool := decide (e < 272)
def cryEngineOk (e : Nat) : Bool := decide (e < 24)

/-- Service cores, threads, fault domains (R387, R391, R405). -/
def coreOk (c : Nat) : Bool := decide (c < 64)
def threadOk (t : Nat) : Bool := decide (t < 1024)
def domainOk (d : Nat) : Bool := decide (d < 64)

/-- Mover channels, Akzal members, reference slots, tracking slots, key slots (R31, R131, R324, R370, R415). -/
def chOk (c : Nat) : Bool := decide (c < 64)
def memberOk (m : Nat) : Bool := decide (m < 8)
def refSlotOk (k : Nat) : Bool := decide (1 ≤ k ∧ k ≤ 0x14)
def tagSlotOk (k : Nat) : Bool := decide (k < 16384)
def keySlotOk (k : Nat) : Bool := decide (k < 1048576)

/-- Queue numbers of a function, and NVMe queue identifiers (R156, R344). -/
def queueOk (q : Nat) : Bool := decide (q < 270336)
def nvQueueOk (q : Nat) : Bool := decide (q < 65536)

/-- Temperature sensors, block codes, unit kinds and power states (R12, R85, R122, R435). -/
def sensorOk (k : Nat) : Bool := decide (k < 16)
def blockOk (b : Nat) : Bool := decide (b < 16)
def kindOk (k : Nat) : Bool := decide (k < 11)
def stateOk (v : Nat) : Bool := decide (v < 4)

/-- Is a command well formed? -/
def Instr.wf : Instr → Bool
  | .registerWrite p _ _ => pathOk p
  | .badAccess p _ _ => pathOk p
  | .lowWordRead p _ => pathOk p
  | .readClear p _ => pathOk p
  | .w1cHardwareSet p _ _ => pathOk p
  | .heldAccess p _ _ => pathOk p
  | .domainStop _ => true
  | .domainGated _ => true
  | .domainStartDone _ _ => true
  | .aonRailUp => true
  | .aonRailLoss => true
  | .porstAssert => true
  | .porstDeassert _ => true
  | .railGood _ => true
  | .railFault _ => true
  | .railOrder _ => true
  | .thermalWarn sensor _ => sensorOk sensor
  | .thermalTrip sensor _ => sensorOk sensor
  | .thermalRecover _ => true
  | .sysclkFault => true
  | .sysclkReturn => true
  | .ethRefclkLoss => true
  | .ethRefclkReturn => true
  | .pcieRefclkLoss half => halfOk half
  | .pcieRefclkReturn half => halfOk half
  | .mctpMessage _ => true
  | .wakeAtReached => true
  | .bringupStart _ => true
  | .bootWaitExpiry => true
  | .unitReady _ => true
  | .functionReady f => fnOk f
  | .drain p => pathOk p
  | .drainStandby p => pathOk p
  | .cancel p => pathOk p
  | .restartRequest p => pathOk p
  | .drainLimitExpiry => true
  | .drainFinished => true
  | .perstAssert half => halfOk half
  | .perstDeassert half => halfOk half
  | .pcieLinkUp half _ _ _ => halfOk half
  | .hotReset half => halfOk half
  | .linkDisable half => halfOk half
  | .pcieLinkFailure half => halfOk half
  | .configRead f _ => fnOk f
  | .busMasterDisable f => fnOk f
  | .quiesceDone f => fnOk f
  | .initiateFlr f => fnOk f
  | .flrDone f => fnOk f
  | .vfEnable pf => pfOk pf
  | .vfDisable pf => pfOk pf
  | .powerStateChange f state => fnOk f && stateOk state
  | .msixUnmask f _ => fnOk f
  | .tagSlotGrant which => which.all fnOk
  | .hostCompletion f _ _ _ => fnOk f
  | .completionTimeout slot => tagSlotOk slot
  | .quarantineEnd slot => tagSlotOk slot
  | .poisonedPostedWrite f => fnOk f
  | .atsInvalidation f _ _ _ => fnOk f
  | .pageRequest f q => fnOk f && queueOk q
  | .prgResponse f q _ => fnOk f && queueOk q
  | .pageRequestTimeout f q => fnOk f && queueOk q
  | .ptmRequest half => halfOk half
  | .doeRequest half _ _ _ => halfOk half
  | .doeAbort half => halfOk half
  | .getVersion half => halfOk half
  | .getCapabilities half _ => halfOk half
  | .negotiateAlgorithms half _ _ _ _ => halfOk half
  | .getDigests half => halfOk half
  | .getCertificate half _ _ _ => halfOk half
  | .challenge half _ _ _ => halfOk half
  | .getMeasurements half _ _ _ => halfOk half
  | .keyExchange half _ _ _ => halfOk half
  | .finish half _ _ => halfOk half
  | .keyUpdate half _ _ => halfOk half
  | .heartbeat half _ => halfOk half
  | .endSession half _ => halfOk half
  | .vendorDefinedRequest half _ _ => halfOk half
  | .stopInterface f => fnOk f
  | .ideIntegrityFailure half _ => halfOk half
  | .doorbellWrite f q _ _ => fnOk f && queueOk q
  | .sqEntryFetch f q _ => fnOk f && queueOk q
  | .staleRetry f q _ => fnOk f && queueOk q
  | .completionWrite f q _ => fnOk f && queueOk q
  | .eventRaise block _ _ _ => blockOk block
  | .eqEntryWrite f q _ => fnOk f && queueOk q
  | .moderationTimer f q => fnOk f && queueOk q
  | .qCreate p => pathOk p
  | .qDestroy p => pathOk p
  | .queueDisabled f q => fnOk f && queueOk q
  | .queueRestart p => pathOk p
  | .txFrame f q => fnOk f && queueOk q
  | .rxBuffer f q => fnOk f && queueOk q
  | .hostTxResume _ => true
  | .sqFetchResume _ => true
  | .vfGrant pf => pfOk pf
  | .vportBind pf _ => pfOk pf
  | .logStart pf => pfOk pf
  | .logSwap pf => pfOk pf
  | .logStop pf => pfOk pf
  | .dirtyPageLog f _ _ => fnOk f
  | .vfFreeze pf => pfOk pf
  | .freezeDone f => fnOk f
  | .migSlow f => fnOk f
  | .vfSave pf _ => pfOk pf
  | .vfRestore pf _ => pfOk pf
  | .vfUnfreeze pf => pfOk pf
  | .vfMigDone f => fnOk f
  | .timePageWrite f => fnOk f
  | .frameReceived lp _ _ => lpOk lp
  | .frameEnd _ => true
  | .pauseRefresh lp prio => lpOk lp && prioOk prio
  | .pauseFrameRx lp _ _ _ => lpOk lp
  | .pauseHoldExpiry lp prio => lpOk lp && prioOk prio
  | .pauseRxStorm lp prio => lpOk lp && prioOk prio
  | .pauseTxStorm lp prio => lpOk lp && prioOk prio
  | .stormRecover lp prio => lpOk lp && prioOk prio
  | .linkUp lp => lpOk lp
  | .linkDown lp => lpOk lp
  | .fecWindow lp _ _ => lpOk lp
  | .portCfgWrite p port _ => pathOk p && pairOk port
  | .filterAdd p => pathOk p
  | .filterDelete p _ => pathOk p
  | .filterRead p _ => pathOk p
  | .statSnap p lp => pathOk p && lpOk lp
  | .mgtFrameRx _ _ => true
  | .mgtTx => true
  | .collision _ => true
  | .backoffExpiry => true
  | .mdioStart p _ => pathOk p
  | .mdioDone _ => true
  | .ncsiCommand _ _ _ => true
  | .resetChannel _ => true
  | .parseDispatch _ engine => engineOk engine
  | .microNext engine => engineOk engine
  | .microJump engine => engineOk engine
  | .microJz engine => engineOk engine
  | .microJnz engine => engineOk engine
  | .microMatch engine => engineOk engine
  | .microCall engine => engineOk engine
  | .microRet engine => engineOk engine
  | .microEnd engine => engineOk engine
  | .microAdd engine => engineOk engine
  | .microSub engine => engineOk engine
  | .microAnd engine => engineOk engine
  | .microOr engine => engineOk engine
  | .microXor engine => engineOk engine
  | .microShl engine => engineOk engine
  | .microShr engine => engineOk engine
  | .microMov engine => engineOk engine
  | .microBfx engine => engineOk engine
  | .microSeq engine => engineOk engine
  | .microSlt engine => engineOk engine
  | .microMin engine => engineOk engine
  | .microMax engine => engineOk engine
  | .microCsum engine => engineOk engine
  | .microMark engine => engineOk engine
  | .microFrag engine => engineOk engine
  | .microHashreg engine => engineOk engine
  | .microTrap engine => engineOk engine
  | .microResume engine => engineOk engine
  | .microHashrst engine => engineOk engine
  | .microBudget engine => engineOk engine
  | .fragEntryExpiry _ _ => true
  | .parityError engine _ => engineOk engine
  | .pairLineRewritten line => decide (line.pair < 136) && line.poisoned.all (fun c => decide (c < 2))
  | .prsLoadStart p => pathOk p
  | .loadDone _ => true
  | .prsIndWrite p _ _ => pathOk p
  | .tableProgram _ => true
  | .vportStep _ => true
  | .tunnelStep _ => true
  | .flowStep _ => true
  | .lpmStep _ => true
  | .aclStep _ => true
  | .actionList _ => true
  | .actEnd _ => true
  | .actNop _ => true
  | .actDrop _ => true
  | .actChain _ => true
  | .actDecap _ => true
  | .actEncap _ => true
  | .actRewrite _ => true
  | .actDecTtl _ => true
  | .actVlanPush _ => true
  | .actVlanPop _ => true
  | .actMeter _ => true
  | .actCount _ => true
  | .actSetClass _ => true
  | .actEncrypt _ => true
  | .actDecrypt _ => true
  | .actDeliverVport _ => true
  | .actDeliverQueue _ => true
  | .actDeliverInd _ => true
  | .actDeliverPort _ => true
  | .actDeliverChannel _ => true
  | .actDeliverAkzal _ => true
  | .actMirror _ => true
  | .actLearn _ => true
  | .actTsInsert _ => true
  | .learnRequest => true
  | .ageVisit _ => true
  | .lockExpired _ => true
  | .tblInsert f q => fnOk f && queueOk q
  | .relocationMove _ => true
  | .tblDelete f q => fnOk f && queueOk q
  | .tblLookup f q => fnOk f && queueOk q
  | .tblRead f q => fnOk f && queueOk q
  | .tblWrite f q => fnOk f && queueOk q
  | .tblLock f q => fnOk f && queueOk q
  | .tblWriteUnlock f q => fnOk f && queueOk q
  | .tblUnlock f q => fnOk f && queueOk q
  | .tblCounterRead f q => fnOk f && queueOk q
  | .filterRebuild => true
  | .filterSwitch => true
  | .hashSeedWrite p _ _ => pathOk p
  | .tblProgWrite p => pathOk p
  | .progBankSwitch p _ => pathOk p
  | .scheduleDecision lp => lpOk lp
  | .shaperCredit _ => true
  | .launchTimeReached _ => true
  | .frameTransmitted lp => lpOk lp
  | .copyFinished _ => true
  | .gateEntryChange lp => lpOk lp
  | .gateCommit p lp => pathOk p && lpOk lp
  | .gateListActive lp => lpOk lp
  | .nodeWrite p _ _ => pathOk p
  | .meterWrite p => pathOk p
  | .meterRead p => pathOk p
  | .keyWrite f q => fnOk f && queueOk q
  | .keyUnwrap f q => fnOk f && queueOk q
  | .slotUpdate f q => fnOk f && queueOk q
  | .slotRead f q => fnOk f && queueOk q
  | .keyClear f q => fnOk f && queueOk q
  | .laEncrypt f q => fnOk f && queueOk q
  | .laDecrypt f q => fnOk f && queueOk q
  | .slotFetchDone slot => keySlotOk slot
  | .cipherDone engine => cryEngineOk engine
  | .checkerMismatch engine => cryEngineOk engine
  | .suspendMessage => true
  | .nvmeSqDoorbell f q _ => fnOk f && nvQueueOk q
  | .nvmeCqDoorbell f q _ => fnOk f && nvQueueOk q
  | .ccEnable f _ => fnOk f
  | .ccDisable f => fnOk f
  | .shutdown f => fnOk f
  | .shutdownTimeout f => fnOk f
  | .nvmeCommandFetch f q _ => fnOk f && nvQueueOk q
  | .deleteIoSq f => fnOk f
  | .createIoSq f => fnOk f
  | .getLogPage f _ => fnOk f
  | .deleteIoCq f => fnOk f
  | .createIoCq f => fnOk f
  | .identify f _ => fnOk f
  | .nvmeAbort f => fnOk f
  | .setFeatures f => fnOk f
  | .getFeatures f => fnOk f
  | .asynchronousEventRequest f => fnOk f
  | .nvmeFlush f q => fnOk f && nvQueueOk q
  | .nvmeWrite f q _ => fnOk f && nvQueueOk q
  | .nvmeRead f q _ => fnOk f && nvQueueOk q
  | .writeZeroes f q => fnOk f && nvQueueOk q
  | .datasetManagement f q _ => fnOk f && nvQueueOk q
  | .c2hData _ _ _ _ _ _ => true
  | .remoteResponse _ _ _ _ _ _ _ => true
  | .cmdTimeout _ => true
  | .connectionFailure _ _ => true
  | .retryTimeout _ => true
  | .lossTmo _ => true
  | .ctxWrite p => pathOk p
  | .ctxRead p => pathOk p
  | .ctxResume p => pathOk p
  | .ctxDisable p => pathOk p
  | .nsWrite p => pathOk p
  | .nsRead p => pathOk p
  | .cnpRx _ => true
  | .rateRecovery _ => true
  | .remoteAccess _ _ _ _ _ _ _ _ _ => true
  | .sendReceived _ _ _ _ _ => true
  | .nvmfCmd f q => fnOk f && queueOk q
  | .rdmaSend f q => fnOk f && queueOk q
  | .rdmaWrite f q => fnOk f && queueOk q
  | .rdmaRead f q => fnOk f && queueOk q
  | .recvBuffer f q => fnOk f && queueOk q
  | .trackerGrant => true
  | .copy ch _ _ => chOk ch
  | .fill ch _ => chOk ch
  | .gather ch _ _ _ => chOk ch
  | .scatter ch _ _ _ => chOk ch
  | .interleave ch _ _ => chOk ch
  | .deinterleave ch _ _ => chOk ch
  | .toPlanes ch _ _ => chOk ch
  | .fromPlanes ch _ _ => chOk ch
  | .moverAssign => true
  | .jobComplete ch _ => chOk ch
  | .busError ch _ _ _ _ _ => chOk ch
  | .channelResume p ch => pathOk p && chOk ch
  | .channelAbort p ch => pathOk p && chOk ch
  | .channelStart p ch => pathOk p && chOk ch
  | .tfork core => coreOk core
  | .tjoin core => coreOk core
  | .texit core => coreOk core
  | .tkill core => coreOk core
  | .cput core => coreOk core
  | .csend core => coreOk core
  | .ctrysend core => coreOk core
  | .cclear core => coreOk core
  | .crecv core => coreOk core
  | .cpoll core => coreOk core
  | .cget core => coreOk core
  | .twait core => coreOk core
  | .halloc core => coreOk core
  | .hfree core => coreOk core
  | .waitDeadline thread => threadOk thread
  | .inject => true
  | .stall domain => domainOk domain
  | .domainRestart thread => threadOk thread
  | .freeHandles thread => threadOk thread
  | .svcChCfgWrite p _ => pathOk p
  | .laneMismatch core => coreOk core
  | .contextExchange core => coreOk core
  | .debugHalt thread => threadOk thread
  | .debugResume thread => threadOk thread
  | .hartreset thread => threadOk thread
  | .mbxSend f _ => fnOk f
  | .mbxF2hPop f => fnOk f
  | .fmbxSend p _ => pathOk p
  | .ptpMeasurement slot _ => refSlotOk slot
  | .ppsEdge pin _ => pairOk pin
  | .nmeaSentence n => nmeaOk n
  | .manualCommit p => pathOk p
  | .reacquire p => pathOk p
  | .refQualified slot => refSlotOk slot
  | .missedInterval slot => refSlotOk slot
  | .timRefCfgWrite p slot _ => pathOk p && refSlotOk slot
  | .boundRecompute => true
  | .boundAlarmWrite p _ => pathOk p
  | .oscFault => true
  | .oscReturn => true
  | .timUtcWrite p _ => pathOk p
  | .leapAtWrite p _ _ => pathOk p
  | .leapApplied => true
  | .ppsOutEdge pin => pairOk pin
  | .ppsOutFall pin => pairOk pin
  | .todTxSentence => true
  | .tracePeriodic => true
  | .timSnap p => pathOk p
  | .akzPortUp port => pairOk port
  | .akzPortDown port => pairOk port
  | .linkFrameRx port _ _ => pairOk port
  | .linkNakRx port _ => pairOk port
  | .helloTx port => pairOk port
  | .helloRx port _ => pairOk port
  | .helloTimeout port => pairOk port
  | .masterChange => true
  | .forget p member => pathOk p && memberOk member
  | .akzDataRx port _ _ => pairOk port
  | .timeFrameTx port => pairOk port
  | .timeFrameRx port _ => pairOk port
  | .bootReq _ => true
  | .imageFrame _ => true
  | .imageResult member _ => memberOk member
  | .faultCount kind _ _ _ => kindOk kind
  | .screeSubwindow kind => kindOk kind
  | .handoffDone kind => kindOk kind
  | .repairRetest kind _ _ => kindOk kind
  | .scrub _ _ _ _ _ _ _ => true
  | .machineCheckFatal kind _ => kindOk kind
  | .mcRestart => true
  | .tokenSubmit p => pathOk p
  | .debugEnd p => pathOk p
  | .nonceRead p => pathOk p
  | .debugExpiry => true
  | .mbxStage f _ _ _ => fnOk f
  | .mbxQuery f => fnOk f
  | .requestUpdate => true
  | .passComponentTable _ _ => true
  | .updateComponent _ _ _ => true
  | .activateFirmware => true
  | .getStatus => true
  | .cancelUpdate => true
  | .activate p => pathOk p
  | .memberSwitch _ => true
  | .switched p => pathOk p
  | .switchedReply member _ => memberOk member
  | .activateReverted => true
  | .dirWritten => true
  | .commit p => pathOk p
  | .rollback p => pathOk p
  | .autoCommit => true
  | .configWrite f _ _ => fnOk f
  | .instructionIssue core => coreOk core
  | .tapInstruction _ _ => true
  | .mgtLinkUp => true
  | .mgtLinkDown => true
  | .mgtFrameSent => true
  | .mgtCarrierDrop => true
  | .nvmeTcpR2t _ _ _ _ _ => true
  | .thermalWarnRearm sensor _ => sensorOk sensor
  | .firmwareDataReceived _ => true

end Sys2Proof
end

