-- ==== Sys2Proof/Tests/Slice0.lean ====
section
/-!
SUPPORT. Tests of the model on the spec's own examples, ill-formed commands that well-formedness refuses, and for each statement with
hypotheses concrete states and operands that meet them: witness_<statement>_<clause>.
-/
namespace Sys2Proof.Tests
open Sys2Proof Sys2Proof.Machine
set_option linter.all false
set_option Elab.async false

/-- The six main rails, good. -/
def railsUp : List RailSt := List.replicate 6 { inRange := true, good := true, below10 := false }

/-- A state in SERVICE with the rails good and the links of half 0 up, and Bus Master Enable of PF0 set. -/
def up : State :=
  { State.reset with
    cai := { mode := .service, rails := railsUp, wakePending := false, perstHigh := [true, false], pcieRef := [some 0, none] },
    hif := { halves := [{ up := true }, {}], cfg := [(fnCode (.pf 0) * 1024 + 1, 6)], fns := [(fnCode (.pf 0), { ready := true })] } }

/-- s with these units RUNNING. -/
def awake (us : List DUnit) (s : State) : State := foldS (fun u s => modDomain u (fun d => { d with st := .running }) s) us s

/-- `up` with a session established on half 0. -/
def inSession : State :=
  modDoe 0 (fun d => { d with phase := 3, version := 0x13, sessions := [{ id := 65537, established := true }], nextSession := 2 }) up

/-- `inSession` with VF 1 of PF0 present, its interface as given. -/
def withTdi (t : Tdi) : State := modFn (.vf 0 0) (fun r => { r with enabled := true, ready := true, tdi := t }) inSession

/-- `up` with PF0 granted queues, EQ 262144 and CQ 131072 active with 64 entries, and SQ 0 active with the settings word given: class in bits
[30:28], CQ 131072, 64 entries. -/
def rings (cls : Nat) : State :=
  modQueue (.pf 0) 0 (fun _ => { st := .active, p := 64, c := 64, counter := 64, cfg := w32 (0x200006 + cls * 2 ^ 28) })
    (modQueue (.pf 0) 131072 (fun _ => { st := .active, p := 64, c := 64, counter := 64, cfg := w32 (262144 * 16 + 6) })
      (modQueue (.pf 0) 262144 (fun _ => { st := .active, p := 64, c := 64, counter := 64, cfg := 6 })
        (modCai (fun c => { c with settings := { pfs := [{ enabled := true, vectors := 8, qCount := 1024, eqCount := 8 }] } }) up)))

/-- SQ 0 changed by g. -/
def sq0 (g : Queue → Queue) (s : State) : State := modQueue (.pf 0) 0 g s

/-- `rings` with four VFs of PF0 settable, VF 1 of them ready with its migration record as given. -/
def vfMig (m : Mig) : State :=
  modFn (.vf 0 0) (fun r => { r with ready := true, enabled := true, mig := m })
    (modCai (fun c => { c with settings := { pfs := [{ enabled := true, totalVfs := 4, vectors := 8, qCount := 1024, eqCount := 8, vportFirst := 1, vportCount := 4 }] } }) (rings 0))

/-- A state image with no sections, for a function without a grant. -/
def bareImage : Bytes :=
  let h := padTo 128 (leBytes 4 0x5A4E5646 ++ leBytes 2 1 ++ leBytes 2 128 ++ leBytes 4 176)
  h ++ sha384 h


/-- `up` with one microword in store line 0 and parse engine 63 as given. -/
def parsing (e : Engine) (w : Nat) : State := modPrs (fun p => { p with image := { words := [w] }, engines := [(63, e)] }) up

/-- A microword of a BR_OP, an ALU_OP, an ALU destination and an AUX_OP, with ALU operand A = G1 and an immediate of 7. -/
def mword (br alu dst aux : Nat) : Nat := br * 2 ^ 189 + alu * 2 ^ 124 + dst * 2 ^ 120 + 2 ^ 116 + 2 ^ 115 + 7 * 2 ^ 83 + aux * 2 ^ 49

/-- A frame received at port 0 of 64 bytes. -/
def aFrame : Frame := { ingress := 0, source := 0, bytes := List.replicate 60 0, asEntered := List.replicate 60 0 }

/-- `up` with that frame, changed by g, as frame 5. -/
def framed (g : Frame → Frame) : State := modTm (fun t => { t with frames := [(5, g aFrame)] }) up

/-- The device memory holding these bytes from address 0. -/
def devOf (bs : Bytes) (s : State) : State := { s with dev := (bs.zipIdx.filter (fun e => e.1 != 0)).map (fun e => (e.2, e.1)) }

/-- A PRS image of one microword of zeros, its digest and signature bytes zero. -/
def onePrsImage : Bytes := leBytes 4 0x5A4E5053 ++ leBytes 2 1 ++ leBytes 2 1 ++ leBytes 4 2472 ++ List.replicate 2460 0

/-- `up` in PAUSE, its life cycle LOCKED with no firmware image held and the hash of 96 zeros for its key. -/
def paused : State := modLcs (fun l => { l with life := 1, owners := [sha384 (List.replicate 96 0)], bankA := none, bankB := none }) (modCai (fun c => { c with mode := .pause }) up)

theorem zeros_leNat (n : Nat) : leNat (List.replicate n 0) = 0 := by
  induction n with
  | zero => rfl
  | succ n ih => rw [List.replicate_succ, leNat, ih]; rfl

/-- A field of zeros beyond the head of a list of bytes is 0. -/
theorem zeros_leAt (h : Bytes) (k off n : Nat) (c : h.length ≤ off) : leAt (h ++ List.replicate k 0) off n = 0 := by
  have e : (h ++ List.replicate k 0).drop off = List.replicate (k - (off - h.length)) (0 : Byte) := by
    rw [List.drop_append, List.drop_eq_nil_of_le c]; simp
  unfold leAt slice
  dsimp only
  rw [e, List.take_replicate, List.replicate_append_replicate]
  exact zeros_leNat _

theorem onePrsImage_form : prsFormOk onePrsImage = true := by
  have e : onePrsImage = leBytes 4 0x5A4E5053 ++ leBytes 2 1 ++ leBytes 2 1 ++ leBytes 4 2472 ++ List.replicate 2460 0 := rfl
  have l : (leBytes 4 0x5A4E5053 ++ leBytes 2 1 ++ leBytes 2 1 ++ leBytes 4 2472).length = 12 := by decide
  have z (off n : Nat) (c : 12 ≤ off) : leAt onePrsImage off n = 0 := by
    rw [e]; exact zeros_leAt _ _ _ _ (by rw [l]; exact c)
  have h0 : leAt onePrsImage 0 4 = 0x5A4E5053 := by decide +kernel
  have h1 : leAt onePrsImage 4 2 = 1 := by decide +kernel
  have h2 : leAt onePrsImage 6 2 = 1 := by decide +kernel
  have h3 : leAt onePrsImage 8 4 = 2472 := by decide +kernel
  have h4 : onePrsImage.length = 2472 := by rw [e, List.length_append, l, List.length_replicate]
  have a1 : (List.range 32).all (fun i => leAt onePrsImage (32 + 4 * i) 4 % 2 ^ 31 < 2 ^ 13) = true := by
    rw [List.all_eq_true]; intro i _; rw [z _ _ (by omega)]; rfl
  have a2 : (List.range 256).all (fun i => bits (leAt onePrsImage (256 + 24 * 1 + 8 * i) 8) 62 45 == 0) = true := by
    rw [List.all_eq_true]; intro i _; rw [z _ _ (by omega)]; rfl
  unfold prsFormOk zeroAt
  dsimp only
  rw [h0, h1, h2, h3, h4, z 12 4 (by omega), z 160 96 (by omega), a1, a2]
  rfl

theorem onePrsImage_held : (devOf onePrsImage paused).dev = [(0, 0x53), (1, 0x50), (2, 0x4E), (3, 0x5A), (4, 1), (6, 1), (8, 0xA8), (9, 9)] := by
  decide +kernel

theorem onePrsImage_read : devRead (devOf onePrsImage paused) 0 2472 = onePrsImage := by
  have l : (leBytes 4 0x5A4E5053 ++ leBytes 2 1 ++ leBytes 2 1 ++ leBytes 4 2472).length = 12 := by decide
  have a : devRead (devOf onePrsImage paused) 0 12 = leBytes 4 0x5A4E5053 ++ leBytes 2 1 ++ leBytes 2 1 ++ leBytes 4 2472 := by decide +kernel
  have b : (List.range 2460).map (fun i => mget 0 (devOf onePrsImage paused).dev (0 + (12 + i))) = List.replicate 2460 (0 : Byte) := by
    rw [onePrsImage_held, List.eq_replicate_iff]
    refine ⟨by simp, fun x hx => ?_⟩
    obtain ⟨i, -, rfl⟩ := List.mem_map.mp hx
    simp only [mget, mfind]
    repeat' rw [if_neg (by omega)]
    rfl
  have c : List.range 2472 = List.range 12 ++ (List.range 2460).map (12 + ·) := List.range_add (n := 12) (m := 2460)
  unfold devRead at *
  rw [c, List.map_append, a, List.map_map]
  exact congrArg _ b

/-- `up` with frame 5 at step 0 of table program 0, the step's word and the frame's header vector as given. -/
def stepping (x : Nat) (hv : Bytes) : State :=
  modTbl (fun t => { t with programs := [(0, x)] }) (framed (fun f => { f with stage := .table, begun := true, hv := hv }))

/-- Frame 5 as `stepping` gives it. -/
def stepFrame (hv : Bytes) : Frame := { aFrame with stage := .table, begun := true, hv := hv }

/-- s with the flow entry e at this index, in the stash of its bank. -/
def withFlow (i : Nat) (e : Bytes) (s : State) : State :=
  let p := placesOf s false (flowKey e)
  modTbl (fun t => { t with flows := [(i, e)], stash := [(p.bank, [{ sig := p.sig, index := i }])] }) s

/-- s with the route r of number 7, in the stash of its bank and in the length filter. -/
def withRoute (r : Bytes) (s : State) : State :=
  let p := placesOf s true (routeKey r)
  modTbl (fun t => { t with routes := [(7, r)], stash := [(p.bank, [{ sig := p.sig, index := 7 }])], filter := (filterBits s (routeKey r)).map (fun i => (i, true)) }) s

/-- Frame 5 in the action engine with this one list to run. -/
def actFrame (l : List Nat) : Frame := { aFrame with stage := .actions, lists := [l], marks := [some 14] }

/-- A TABLE-class entry: OP, TABLE, OPT and INDEX, COUNT 2, with its operand bytes read and a tracker entry. -/
def tblWork (op table opt index : Nat) (bs : Bytes) : Work :=
  { ctr := 64, cls := 3, trk := some 0, entry := BitVec.ofNat 512 (op + table * 2 ^ 192 + opt * 2 ^ 200 + 2 * 2 ^ 208 + index * 2 ^ 224),
    reads := [{ addr := 0, len := bs.length, got := some (.data bs) }] }

/-- `rings` with SQ 0 of class TABLE holding that entry; PF0 has vports 0 to 7 and is no table administrator. -/
def tblQ (w : Work) : State :=
  setReg .TBL_ADMIN 0 0 0 <| modCai (fun c => { c with settings := { pfs := [{ enabled := true, vectors := 8, qCount := 1024, eqCount := 8, vportFirst := 0, vportCount := 8 }] } })
    (sq0 (fun q => { q with work := [w] }) (rings 3))

/-- A flow entry of vport v: a key of zeros, VALID, an empty action list. -/
def flowOf (v : Nat) : Bytes := overwrite (overwrite (List.replicate 128 0) 48 [1]) 52 (leBytes 2 v)

/-- Port 0 up and transmitting, a copy of frame 5 in queue 0, which lies under group 0 and class 0 of port 0, both weights 0; frame 5 is in its
action engine. -/
def sched (x : Copy) : State :=
  setReg .MAC_LP_CFG 0 0 0xC0000000 <| setReg .TM_NODE_CFG 0 (nodeKey 3 0) 0x80000000 <| setReg .TM_NODE_CFG 0 (nodeKey 2 0) 0x80000000 <|
    setReg .TM_NODE_CFG 0 (nodeKey 1 0) 0x80000000 <| setReg .TM_NODE_CFG 0 (nodeKey 0 0) 0x80000000 <|
    modTm (fun t => { t with nodes := [(nodeKey 3 0, { copies := [x] })] }) <| modLport 0 (fun p => { p with up := true }) (framed (fun f => { f with stage := .finished }))

/-- A copy of frame 5 for port 0. -/
def aCopy : Copy := { frame := 5, bytes := List.replicate 60 0 }

/-- The ports of the cascade up and the chip joined as member 1, port 0 as given. -/
def chained : State :=
  modAkz (fun a => { a with joined := true, member := 1, ports := [{ up := true }, { up := true }] }) up

/-- A CRYPTO-class entry: OP, the slot in CTX, AAD and data lengths, IV mode, with the bytes read from the host. -/
def cryWork (op slot aad len iv : Nat) (bs : Bytes) : Work :=
  { ctr := 64, cls := 2, trk := some 0, entry := BitVec.ofNat 512 (op + slot * 2 ^ 32 + len * 2 ^ 256 + aad * 2 ^ 288 + iv * 2 ^ 304),
    reads := [{ addr := 0, len := bs.length, got := some (.data bs) }] }

/-- `rings` with SQ 0 of class CRYPTO holding that entry, slot 9 as given and cached; PF0 has vports 0 to 7. -/
def cryQ (w : Work) (k : KeySlot) : State :=
  modCry (fun c => { c with slots := [(9, k)], cache := [9] }) (sq0 (fun q => { q with work := [w] })
    (modCai (fun c => { c with settings := { pfs := [{ enabled := true, vectors := 8, qCount := 1024, eqCount := 8, vportFirst := 0, vportCount := 8 }] } }) (rings 2)))

/-- A key record of PROTO 0, a 128-bit key and OWNER v, then its key bytes and 16 zeros. -/
def recordOf (v : Nat) : Bytes := overwrite (List.replicate 96 0) 4 (leBytes 2 v)

/-- An idle engine's message of a frame. -/
def aMsg : CryMsg := { src := .frame 5, slot := 9, encrypt := false, urgency := 4 }

/-- `up` with engine 0 running this message. -/
def ciphering (m : CryMsg) : State := modCry (fun c => { c with engines := [(0, { running := some m })] }) up

/-- `up` with PF0 an NVMe controller, number 0, in this state: two I/O queue pairs and one I/O context. -/
def nvUp (x : Nvme) : State :=
  setReg .STO_CTRL_CFG 0 0 2 <| modSto (fun t => { t with ctrls := [(fnCode (.pf 0), x)] })
    (modCai (fun c => { c with settings := { pfs := [{ enabled := true, vectors := 8, qCount := 1024, eqCount := 8, nvme := true }] } }) up)

/-- A fetched command with a tracker entry: its SQ, OPC, and Dwords by number. -/
def nvCmd (sq op : Nat) (d : List (Nat × Nat)) : NCmd :=
  { sq := sq, no := 9, trk := some 0, entry := BitVec.ofNat 512 (op + (d.map (fun e => e.2 * 2 ^ (32 * e.1))).foldl (· + ·) 0) }

/-- A namespace entry of controller 0: NSID 1, VALID, 512-byte blocks, 1,024 of them, the flags given. -/
def nsRow (flags : Nat) : Bytes :=
  padTo 32 (leBytes 2 0 ++ leBytes 4 1 ++ leBytes 1 (1 + flags) ++ leBytes 1 9 ++ leBytes 8 1024)

/-- `up` with connection context 9 in this state. -/
def conn (c : Conn) (s : State) : State := modSto (fun t => { t with conns := [(9, c)] }) s

/-- A mover job's entry: OP, addresses 0x1000 and 0x2000 of host memory, LEN, COUNT, ELEM and STRIDE. -/
def mvEntry (op len count elem str : Nat) : BitVec 512 :=
  BitVec.ofNat 512 (op + 0x1000 * 2 ^ 64 + 0x2000 * 2 ^ 128 + len * 2 ^ 256 + count * 2 ^ 288 + elem * 2 ^ 320 + str * 2 ^ 336)

/-- `rings` with mover channel ch enabled for PF0 and in this state. -/
def mover (ch : Nat) (u : MvChan) : State :=
  setReg .DMV_CH_CFG 0 ch 0x80000000 (modDmv (fun d => { d with chans := [(ch, u)] }) (rings 5))

/-- An operation of class STORAGE, its entry read. -/
def stoWork (op ctx len : Nat) (bs : Bytes) : Work :=
  { ctr := 64, cls := 4, trk := some 0, entry := BitVec.ofNat 512 (op + ctx * 2 ^ 32 + len * 2 ^ 192), reads := [{ addr := 0, len := bs.length, got := some (.data bs) }] }

/-- `up` with core 63 running and thread 1023, its context 15, in M mode at the start of device memory, where instruction w stands. -/
def hart (w : Nat) : State :=
  awake [.svcCore 63] (modSvc (fun v => { v with threads := [(1023, { st := .running, pc := devBase })] }) (devOf (leBytes 4 w) up))

/-- An instruction word: funct7, rs2, rs1, funct3, rd, opcode. -/
def rtype (f7 rs2 rs1 f3 rd op : Nat) : Nat := f7 * 2 ^ 25 + rs2 * 2 ^ 20 + rs1 * 2 ^ 15 + f3 * 2 ^ 12 + rd * 2 ^ 7 + op

/-- `up` with these threads and channel 16383: 16 entries, receive domain 0, send domain 0, these messages. -/
def channels (ts : List (Nat × Thread)) (ms : List ChMsg) : State :=
  modSvc (fun v => { v with threads := ts, channels := [(16383, { cfg := 0x80000004, msgs := ms })] }) up

/-- A running thread. -/
def aThread : Thread := { st := .running }

/-- A one-word message. -/
def aChMsg : ChMsg := { words := [7] }

theorem mfind_const {α : Type} (v : α) (l : List Nat) (k : Nat) (h : k ∈ l) : (mfind (l.map (fun i => (i, v))) k).isSome = true := by
  induction l with
  | nil => simp at h
  | cons a t ih =>
    simp only [List.map_cons, mfind]
    by_cases e : k = a
    · rw [if_pos e]; rfl
    · rw [if_neg e]
      exact ih ((List.mem_cons.mp h).resolve_left e)

theorem full_handles (s : State) (h : s.svc.handles = (List.range 65536).map (fun i => (i, { owner := .device, bytes := [] }))) : freeHandleNo s = none := by
  unfold freeHandleNo
  rw [List.find?_eq_none]
  intro k _
  by_cases hk : k < 65536
  · have := mfind_const ({ owner := .device, bytes := [] } : Handle) (List.range 65536) k (by simpa using hk)
    rw [h]
    cases hm : mfind ((List.range 65536).map (fun i => (i, ({ owner := .device, bytes := [] } : Handle)))) k with
    | none => rw [hm] at this; simp at this
    | some x => simp
  · simp [hk]

/-! ### Well-formedness: an ill-formed command for each check, which the check refuses -/

theorem test_wf_path : (Instr.registerWrite (.fn .fw) 0 0).wf = false := by decide
theorem test_wf_function : (Instr.functionReady (.vf 0 4096)).wf = false := by decide
theorem test_wf_pf : (Instr.vfEnable 4).wf = false := by decide
theorem test_wf_half : (Instr.hotReset 2).wf = false := by decide
theorem test_wf_sensor : (Instr.thermalWarn 16 0).wf = false := by decide
theorem test_wf_power_state : (Instr.powerStateChange (.pf 0) 4).wf = false := by decide
theorem test_wf_tag_slot : (Instr.completionTimeout 16384).wf = false := by decide
theorem test_wf_queue : (Instr.txFrame (.pf 0) 270336).wf = false := by decide
theorem test_wf_block : (Instr.eventRaise 16 0 0 .device).wf = false := by decide
theorem test_wf_port : (Instr.linkUp 16).wf = false := by decide
theorem test_wf_priority : (Instr.pauseRefresh 0 8).wf = false := by decide
theorem test_wf_pair : (Instr.portCfgWrite .mgmt 2 0).wf = false := by decide
theorem test_wf_engine : (Instr.microEnd 272).wf = false := by decide
theorem test_wf_cipher_engine : (Instr.cipherDone 24).wf = false := by decide
theorem test_wf_key_slot : (Instr.slotFetchDone 1048576).wf = false := by decide
theorem test_wf_nvme_queue : (Instr.nvmeFlush (.pf 0) 65536).wf = false := by decide
theorem test_wf_core : (Instr.instructionIssue 64).wf = false := by decide
theorem test_wf_thread : (Instr.debugHalt 1024).wf = false := by decide
theorem test_wf_domain : (Instr.stall 64).wf = false := by decide
theorem test_wf_channel : (Instr.fill 64 0).wf = false := by decide
theorem test_wf_member : (Instr.forget .mgmt 8).wf = false := by decide
theorem test_wf_reference : (Instr.refQualified 0x15).wf = false := by decide
theorem test_wf_kind : (Instr.faultCount 11 0 0 false).wf = false := by decide
theorem test_wf_accepts : (Instr.txFrame (.vf 3 4095) 270335).wf = true := by decide

/-! ### The spec's worked examples, and known answers -/

/-- Chapter 06, "A lap with batching": from P = C = 0xFFE0 in a ring of 64, the doorbell 0x0010 is an advance of 48. -/
theorem test_doorbell_lap : (match exec (.doorbellWrite (.pf 0) 0 0x0010 .full) (awake [.qm] (sq0 (fun u => { u with p := 0xFFE0, c := 0xFFE0 }) (rings 0))) with
    | .next t => some (queue t (.pf 0) 0).p
    | _ => none) = some 0x0010 := by decide +kernel

/-- The same example: 0x0020 fills the ring exactly, and 0x0021 after it is invalid. -/
theorem test_doorbell_full : (match exec (.doorbellWrite (.pf 0) 0 0x0021 .full) (awake [.qm] (sq0 (fun u => { u with p := 0x0020, c := 0xFFE0 }) (rings 0))) with
    | .next t => some ((queue t (.pf 0) 0).p, reg t .QM_DB_INVALID 0 (fnCode (.pf 0)))
    | _ => none) = some (0x0020, 1) := by decide +kernel

/-- Chapter 09, "IPv4 with fragments": the immediate 0x80 of BFX is a shift of 0 and a width of 4, which leaves the IHL. -/
theorem test_bfx_ihl : aluResult 9 0x45 0x80 = 5 := by decide +kernel

/-- Chapter 14, "Reshuffles": element 10 of stream 2 of an INTERLEAVE of 3 streams of 1,000 four-byte elements goes to DST + 128. -/
theorem test_interleave_place : (((mvPieces { fn := .pf 0, entry := mvEntry 5 12000 1000 4 3, src := some (List.replicate 12000 0) }).getD 32 none).map Prod.fst) = some 128 := by
  decide +kernel

/-- The same example: the eight planes of the bytes 0x00 to 0x3F. -/
theorem test_to_planes : ((mvPieces { fn := .pf 0, entry := mvEntry 7 64 64 1 0, src := some ((List.range 64).map (BitVec.ofNat 8)) }).map (fun x => (x.map Prod.snd).getD [])).flatten =
    List.replicate 8 0xAA ++ List.replicate 8 0xCC ++ List.replicate 8 0xF0 ++ [0, 0xFF, 0, 0xFF, 0, 0xFF, 0, 0xFF] ++ [0, 0, 0xFF, 0xFF, 0, 0, 0xFF, 0xFF] ++
      [0, 0, 0, 0, 0xFF, 0xFF, 0xFF, 0xFF] ++ List.replicate 16 0 := by decide +kernel

/-- R392's example: 0x12C5_850B has rd 10, so it raises the illegal-instruction exception: mcause 2, mtval the word. -/
theorem test_csend_illegal : (match exec (.csend 63) (hart 0x12C5850B) with
    | .next t => some (mget 0 (thread t 1023).csr 0x342, mget 0 (thread t 1023).csr 0x343)
    | _ => none) = some (2, 0x12C5850B) := by decide +kernel

/-- Chapter 19, "Finding occurrence counts": BOUND_ALARM's count is bits 31:16 of the word at PF BAR0 0x01FD_0040, and a read clears it. -/
theorem test_occurrence_count : (match exec (.w1cHardwareSet .mgmt 0x1A00104 1) up with
    | .next t => let a := completeRead .mgmt 0x1FD0040 t; let b := completeRead .mgmt 0x1FD0040 a.2; some (fld a.1 31 16 != 0, b.1)
    | _ => none) = some (true, 0) := by decide +kernel

/-- Chapter 11, "A 10 Gb/s queue": F1 of 1,518 bytes with LEN_ADJ 20 takes the tokens from 8,192 to 6,654 bytes. -/
theorem test_shaper_charge : (let k := nodeKey 3 0
    let s := setReg .TM_NODE_RATE 0 k 10000000 (setReg .TM_NODE_BURST 0 k 8192 (setReg .TM_NODE_ADJ 0 k 20 (sched aCopy)))
    nodeTokens (chargePath k 1518 (creditPath k s)) k) = 6654 * 8000000 := by decide +kernel

/-- Chapter 10, "An address seen on two vports": with MOVE_HOLD 1,000 ms, 0.4 s after CAND_SINCE nothing changes, and 1.05 s after it the
entry moves to vport 35. -/
theorem test_move_hold : (let e : Bytes := overwrite (overwrite (overwrite (List.replicate 128 0) 48 [5, 2, 0, 0, 0, 0x80]) 56 (leBytes 2 0x8023 ++ leBytes 6 878906)) 64 [0x20, 20]
    let v : Bytes := overwrite (List.replicate 32 0) 2 [0xE8, 3]
    let l (t : Nat) : Learn := { vsi := 7, vport := 35, mac := 1, vid := 0, ts := t }
    (learnSeen v 9 e (l 1300000000) up == up, (flowAt (learnSeen v 9 e (l 1950000000) up) 9).bind entryVport)) = (true, some 35) := by decide +kernel

/-- SHA-384 of "abc" (FIPS 180-4): its first eight bytes. -/
theorem test_sha384_abc : (sha384 [0x61, 0x62, 0x63]).take 8 = [0xCB, 0x00, 0x75, 0x3F, 0x45, 0xA3, 0x5E, 0x8B] := by decide +kernel

/-- CRC-32 of IEEE 802.3 over "123456789". -/
theorem test_crc32 : crc32 [0x31, 0x32, 0x33, 0x34, 0x35, 0x36, 0x37, 0x38, 0x39] = 0xCBF43926 := by decide +kernel

/-- R28: 1 s, 2 ns and a fraction of 0x8000 is carried as 1,000,000,003 ns. -/
theorem test_ns_rounding : toNs ((1000000002 * 65536 + 0x8000)) = 1000000003 ∧ toNs ((1000000002 * 65536 + 0x7FFF)) = 1000000002 := by decide +kernel

/-- A step on an empty queue is one tick of the Cairn clock (assumption 2). -/
theorem test_first_step_idles : (match step State.reset with
    | .next t => some t.elapsed
    | _ => none) = some 1 := by decide +kernel

/-! ### For every statement with hypotheses, states and operands that meet them -/

theorem witness_StepRunsFrontCommand_0 :
    { State.reset with pending := [.ethRefclkReturn] }.pending = .ethRefclkReturn :: [] := by decide +kernel

theorem witness_EmptyQueueTicks_0 :
    State.reset.pending = [] := by decide +kernel

theorem witness_EveryCommandChangesOnlyItsParts_0 :
    ∃ t, exec .ethRefclkReturn State.reset = .next t := ⟨_, rfl⟩

theorem witness_TrapEntry_1 :
    ({ frame := 0 } : Engine).saved = none ∧ ({ frame := 0 } : Engine).g.length = 16 := by decide +kernel

theorem witness_ResumeWord_1 :
    (∀ a : Fin 2, let w := mword 0 0 0 5 + a.val * 2 ^ 45; let e : Engine := { frame := 5, saved := some (8191, 0, 4, 0, 0) }; let s := parsing e w; mfind s.prs.engines 63 = some e ∧ w = wordAt s e.pc ∧ e.cycles < 64 ∧ e.saved = some (8191, 0, 4, 0, 0) ∧ trapOf e w = none ∧ predOk e w = true ∧ mw w 52 49 = 5 ∧ (slots e w s).1.g.length = 16) ∧
    (mw (mword 0 0 0 5) 52 49 = 5 ∧ ({ frame := 5 } : Engine).saved = none) := by
  refine ⟨?_, ?_⟩
  · decide +kernel
  · decide +kernel

theorem witness_DoubleTrap_1 :
    let w := mword 7 0 0 0 + 2 ^ 20 + 2 ^ 19; let e : Engine := { frame := 5, saved := some (0, 0, 0, 0, 0) }; let s := parsing e w; mfind s.prs.engines 63 = some e ∧ w = wordAt s e.pc ∧ e.cycles < 64 ∧ e.saved = some (0, 0, 0, 0, 0) ∧ trapOf e w = none ∧ predOk e w = false ∧ mw w 191 189 = 7 := by decide +kernel

theorem witness_TimeReferences_0 :
    let s : State := { up with tim := { slots := [(0x10, { st := .qualifying })] } }; timeRuns s = true ∧ (slotOf s 0x10).st ≠ .disabled ∧ (nowFrac s : Int) - ({} : PtpMeasurement).t2 ≤ (100000000 * 0x10000 : Nat) ∧ (slotOf (reselectIfDue s) 0x10).st ≠ .disabled ∧ (reselectIfDue s).tim.servo = .freerun ∧ (reselectIfDue s).tim.selected ≠ some 0x10 := by decide +kernel

theorem witness_TimeReferences_1 :
    (let s0 : State := { up with tim := { slots := [(0x12, { st := .qualified })], t48 := 7 * 10 ^ 9 * 2 ^ 48 } }; let s := modPpsIn 1 (fun u => { u with changedAt := some s0.elapsed }) s0; timeRuns s0 = true ∧ (s0.tim.ppsIn.getD 1 {}).changedAt = none ∧ (slotOf s0 (0x11 + 1)).st ≠ .disabled ∧ true ≠ wbit (reg s0 .TIM_PPS_IN_CFG 1 0) 0 ∧ 7 * 10 ^ 9 * 0x10000 = ((nowFrac s0 : Int) + signed 32 (reg s0 .TIM_REF_CORRECTION (0x10 + 1) 0).toNat * 256).toNat ∧ 7 = (7 * 10 ^ 9 * 0x10000 + 500000000 * 0x10000) / (1000000000 * 0x10000) ∧ ((7 * 1000000000 * 0x10000 : Nat) - ((7 * 10 ^ 9 * 0x10000 : Nat) : Int)).natAbs ≤ ppsWindow s ∧ (s0.tim.ppsIn.getD 1 {}).usedSecond ≠ some 7) ∧
    (let s0 : State := { up with tim := { slots := [(0x11, { st := .qualified })], t48 := 75 * 10 ^ 8 * 2 ^ 48 } }; let s := modPpsIn 0 (fun u => { u with changedAt := some s0.elapsed }) s0; timeRuns s0 = true ∧ (slotOf s0 (0x11 + 0)).st ≠ .disabled ∧ true ≠ wbit (reg s0 .TIM_PPS_IN_CFG 0 0) 0 ∧ 75 * 10 ^ 8 * 0x10000 = ((nowFrac s0 : Int) + signed 32 (reg s0 .TIM_REF_CORRECTION (0x10 + 0) 0).toNat * 256).toNat ∧ 8 = (75 * 10 ^ 8 * 0x10000 + 500000000 * 0x10000) / (1000000000 * 0x10000) ∧ ppsWindow s < ((8 * 1000000000 * 0x10000 : Nat) - ((75 * 10 ^ 8 * 0x10000 : Nat) : Int)).natAbs) := by
  refine ⟨?_, ?_⟩
  · decide +kernel
  · decide +kernel

theorem witness_TimeReferences_2 :
    let s : State := { up with tim := { slots := [(0x12, { st := .qualified })], t48 := 7 * 10 ^ 9 * 2 ^ 48 } }; let u := reselectIfDue (modPpsIn 1 (fun u => { u with usedSecond := some 7, edge := 7 * 10 ^ 9 * 0x10000, edgeAt := some s.elapsed, nextLabel := none }) s); ppsNmea s 1 = false ∧ timeRuns s = true ∧ (slotOf u (0x11 + 1)).st ≠ .disabled ∧ u.tim.servo = .freerun ∧ u.tim.selected ≠ some (0x11 + 1) := by decide +kernel

theorem witness_TimeReferences_3 :
    (let s : State := setReg .TIM_REF_CFG 0x10 0 1 { up with elapsed := 10000000, tim := { ppsIn := [{ edgeAt := some 0 }, {}] } }; let n : Nmea := {}; nmeaPin s = some 0 ∧ timeRuns s = true ∧ n.rmc = decide (dfld s .TIM_TOD_CFG 25 25 = 1) ∧ dfld s .TIM_TOD_CFG 26 26 = 0 ∧ n.checksumOk = true ∧ n.rmc = false ∧ (s.tim.ppsIn.getD 0 {}).edgeAt = some 0 ∧ 0 + 10000000 ≤ s.elapsed ∧ s.elapsed ≤ 0 + 950000000 ∧ (s.tim.ppsIn.getD 0 {}).lastLabel = none ∧ s.tim.servo = .freerun) ∧
    (let s : State := setReg .TIM_REF_CFG 0x10 0 1 { up with elapsed := 950000000, tim := { ppsIn := [{ edgeAt := some 0, lastLabel := some 5 }, {}] } }; let n : Nmea := {}; nmeaPin s = some 0 ∧ timeRuns s = true ∧ n.checksumOk = true ∧ (s.tim.ppsIn.getD 0 {}).edgeAt = some 0 ∧ s.elapsed ≤ 0 + 950000000 ∧ (s.tim.ppsIn.getD 0 {}).lastLabel = some 5 ∧ ((nmeaUtc n : Int) + s.tim.utcOffset).toNat ≠ 5 + 1) := by
  refine ⟨?_, ?_⟩
  · decide +kernel
  · decide +kernel

theorem witness_TimeReferences_4 :
    let s : State := { up with tim := { slots := [(1, { st := .qualifying })] } }; timeRuns s = true ∧ (slotOf s 1).st = .qualifying ∧ ppsMayQualify (advanceTo ((slotOf s 1).qualAt + max 1 (fld (slotCfg s 1) 23 16) * 1000000000) s) 1 = true := by decide +kernel

theorem witness_TimeReferences_5 :
    let s : State := setReg .TIM_REF_CFG 0 0 0x300 { up with tim := { slots := [(1, { st := .qualified, missRun := 1 })] } }; timeRuns s = true ∧ (slotOf s 1).st = .qualified ∧ (slotOf s 1).missRun + 1 < max 1 (fld (slotCfg s 1) 15 8) := by decide +kernel

theorem witness_TimeReferences_6 :
    let s : State := { up with tim := { slots := [(0x14, { st := .qualified, missRun := 5 })] } }; timeRuns s = true ∧ (slotOf s 0x14).st = .qualified ∧ max 1 (fld (slotCfg s 0x14) 15 8) ≤ (slotOf s 0x14).missRun + 1 := by decide +kernel

theorem witness_TimeReferences_7 :
    let s : State := up; let v : Word := 0x80000000; regBar .mgmt .TIM_REF_CFG (0x14 - 1) = some 0x1A00480 ∧ actsAt .mgmt 0x1A00480 s = true ∧ mayWrite s .mgmt .TIM_REF_CFG = true ∧ wbit v 31 = true ∧ (slotOf s 0x14).st = .disabled := by decide +kernel

theorem witness_TimeServoAndBound_0 :
    regBar (.fn (.pf 0)) .TIM_MANUAL_COMMIT 0 = (regBar .mgmt .TIM_MANUAL_COMMIT 0) ∧ (regBar .mgmt .TIM_MANUAL_COMMIT 0).any (actsAt .mgmt · up) = true ∧ mayWrite up .mgmt .TIM_MANUAL_COMMIT = true ∧ timeRuns up = true ∧ up.tim.servo ≠ .locked := by decide +kernel

theorem witness_TimeServoAndBound_1 :
    let s : State := { up with tim := { servo := .locked } }; (regBar .mgmt .TIM_MANUAL_COMMIT 0).any (actsAt .mgmt · s) = true ∧ mayWrite s .mgmt .TIM_MANUAL_COMMIT = true ∧ timeRuns s = true ∧ s.tim.servo = .locked := by decide +kernel

theorem witness_TimeServoAndBound_2 :
    let s : State := { up with tim := { servo := .locked } }; (regBar .mgmt .TIM_CTRL 0).any (actsAt .mgmt · s) = true ∧ mayWrite s .mgmt .TIM_CTRL = true ∧ s.tim.servo = .locked := by decide +kernel

theorem witness_TimeServoAndBound_3 :
    timeRuns up = true := by decide +kernel

theorem witness_TimeServoAndBound_4 :
    let s : State := { up with tim := { bound := some 0, boundBefore := some 0, model := .base } }; (regBar .mgmt .TIM_BOUND_ALARM 0).any (actsAt .mgmt · s) = true ∧ mayWrite s .mgmt .TIM_BOUND_ALARM = true ∧ aboveAlarm (0x10000 : Word).toNat (boundNow s) = false := by decide +kernel

theorem witness_TimeServoAndBound_5 :
    (regBar .firmware .TIM_BOUND_ALARM 0).any (actsAt .firmware · up) = true ∧ mayWrite up .firmware .TIM_BOUND_ALARM = true ∧ aboveAlarm (0xFFFFFFFF : Word).toNat (boundNow up) = true := by decide +kernel

theorem witness_TimeServoAndBound_6 :
    up.tim.tosc = true ∧ up.cai.sysclk = true ∧ up.tim.servo ≠ .locked := by decide +kernel

theorem witness_TimeServoAndBound_7 :
    let s : State := modCai (fun c => { c with sysclk := false }) up; s.tim.tosc = true ∧ s.cai.sysclk = false := by decide +kernel

theorem witness_TimeServoAndBound_8 :
    let s : State := { up with tim := { servo := .locked } }; s.tim.tosc = true ∧ s.cai.sysclk = true ∧ s.tim.servo = .locked := by decide +kernel

theorem witness_TimeServoAndBound_9 :
    let s : State := { up with tim := { tosc := false } }; s.tim.tosc = false ∧ bits s.cai.straps.toNat 1 0 ≠ 3 := by decide +kernel

theorem witness_TimeServoAndBound_10 :
    timeRuns up = true := by decide +kernel

theorem witness_TimeServoAndBound_11 :
    (regBar .mgmt .TIM_SNAP 0).any (actsAt .mgmt · up) = true ∧ mayWrite up .mgmt .TIM_SNAP = true := by decide +kernel

theorem witness_TimeUtcAndOutputs_0 :
    let s : State := { up with tim := { utcValid := true } }; let v : Word := 0x10025; (regBar .mgmt .TIM_UTC 0).any (actsAt .mgmt · s) = true ∧ mayWrite s .mgmt .TIM_UTC = true ∧ utcFromRegister s = true ∧ wbit v 16 = true ∧ wbit v 17 = false ∧ wbit v 18 = false ∧ s.tim.leap = none ∧ s.tim.utcValid = true ∧ s.tim.utcOffset ≠ signed 16 (fld v 15 0) := by decide +kernel

theorem witness_TimeUtcAndOutputs_1 :
    (let l : Leap := { at_ := 5, offset := 38, src := .utcRegister }; let s : State := { up with tim := { leap := some l } }; (regBar .mgmt .TIM_LEAP_AT_HI 0).any (actsAt .mgmt · s) = true ∧ (regBar .mgmt .TIM_LEAP_AT_LO 0).any (actsAt .mgmt · s) = true ∧ s.tim.leap = some l ∧ mayWrite s .mgmt .TIM_LEAP_AT_LO = true ∧ l.src = .utcRegister) ∧
    (up.tim.leap = none) ∧
    (∃ l, ({ up with tim := { leap := some { at_ := 5, offset := 38, src := .slot 1 } } } : State).tim.leap = some l ∧ l.src ≠ .utcRegister) := by
  refine ⟨?_, ?_, ?_⟩
  · decide +kernel
  · decide +kernel
  · exact ⟨_, rfl, by decide⟩

theorem witness_TimeUtcAndOutputs_2 :
    let l : Leap := { at_ := 5, offset := 38, src := .slot 0x14 }; let s : State := { State.reset with tim := { leap := some l } }; s.tim.leap = some l ∧ l.src = .slot 0x14 := by decide +kernel

theorem witness_TimeUtcAndOutputs_3 :
    let s : State := setReg .TIM_PPS_OUT_CFG 1 0 0x80000000 up; let u := advanceTai ((0 + 1) * 1000000000 + ppsOffset s 1).toNat s; timeRuns s = true ∧ wbit (reg s .TIM_PPS_OUT_CFG 1 0) 31 = true ∧ squelched s (reg s .TIM_PPS_OUT_CFG 1 0) = false ∧ (s.tim.ppsOut.getD 1 {}).high = false ∧ 1000000000 = (ppsPeriod (reg s .TIM_PPS_OUT_CFG 1 0) : Int) ∧ 0 = ((now s : Int) - ppsOffset s 1) / 1000000000 ∧ 0 * 1000000000 + ppsOffset s 1 ≤ ((s.tim.ppsOut.getD 1 {}).judged : Int) ∧ squelched u (reg s .TIM_PPS_OUT_CFG 1 0) = false := by decide +kernel

theorem witness_TimeUtcAndOutputs_4 :
    let s : State := { up with tim := { ppsOut := [{}, { high := true, fallAt := 100 }] } }; timeRuns s = true ∧ (s.tim.ppsOut.getD 1 {}).high = true := by decide +kernel

theorem witness_TimeUtcAndOutputs_5 :
    let s : State := setReg .TIM_TOD_CFG 0 0 0x01000000 { up with tim := { ppsOut := [{ sentenceAt := some 9, second := 3 }, {}] } }; timeRuns s = true ∧ (s.tim.ppsOut.getD 0 {}).sentenceAt = some 9 ∧ dfld s .TIM_TOD_CFG 24 24 = 1 ∧ utcOf s 3 = (1970, 1, 1, 3) := by decide +kernel

theorem witness_TimeUtcAndOutputs_6 :
    let s : State := setReg .TIM_PF_PAGE_LO 0 (fnCode (.pf 0)) 1 { up with tim := { pages := [(fnCode (.pf 0), { forced := true, seq := 4294967294 })] }, hif := { halves := [{ up := true }, {}], cfg := [(fnCode (.pf 0) * 1024 + 1, 4)] } }; let f : Fn := .pf 0; timeRuns s = true ∧ (mget ({} : PageSt) s.tim.pages (fnCode f)).forced = true ∧ (pageAddr s f).1 = true ∧ fnExists s f = true ∧ busMaster s f = true ∧ linkUp s f = true ∧ (fnSt s f).silent = false ∧ (fnSt s f).mig.st = .running ∧ 4294967294 = (mget ({} : PageSt) s.tim.pages (fnCode f)).seq := by decide +kernel

theorem witness_RailsAndResetPins_0 :
    ({ State.reset with cai := { mode := .off } } : State).cai.mode = .off := by decide +kernel

theorem witness_RailsAndResetPins_2 :
    State.reset.cai.mode ≠ .off := by decide +kernel

theorem witness_RailsAndResetPins_3 :
    let s : State := { State.reset with cai := { mode := .held, porstLow := true } }; s.cai.mode = .held ∧ s.cai.porstLow = true ∧ s.cai.sysclk = true := by decide +kernel

theorem witness_RailsAndResetPins_4 :
    let s := State.reset; let s1 := modRail .vddCore (fun r => { r with inRange := true, good := true, below10 := false }) (if (s.cai.rails.getD (railNo .vddCore) {}).inRange then advanceTo ((s.cai.rails.getD (railNo .vddCore) {}).since + 1000000) s else s); (s.cai.rails.getD (railNo .vddCore) {}).good = false ∧ railsGood s1 = false := by decide +kernel

theorem witness_RailsAndResetPins_5 :
    up.cai.mode = .service := by decide +kernel

theorem witness_RailsAndResetPins_6 :
    let s := State.reset; 3 ≤ railNo .vddCore ∧ (s.cai.rails.take 3).all (fun r => r.inRange) = false ∧ cairnRuns s = true := by decide +kernel

theorem witness_RailsAndResetPins_7 :
    let s := State.reset; cairnRuns s = true ∧ s.cai.warnArmed = true ∧ warnAt s ≤ (hottest (modCai (fun c => { c with temps := c.temps.set 15 (warnAt s) }) s)).1 := by decide +kernel

theorem witness_RailsAndResetPins_8 :
    let s := State.reset; cairnRuns s = true ∧ (hottest (modCai (fun c => { c with temps := c.temps.set 0 (warnAt s - 12) }) s)).1 ≤ warnAt s - 12 := by decide +kernel

theorem witness_RailsAndResetPins_9 :
    let s := State.reset; cairnRuns s = true ∧ 15 < 16 ∧ tripAt s ≤ tripAt s ∧ s.cai.tripped = false := by decide +kernel

theorem witness_RailsAndResetPins_10 :
    let s : State := { State.reset with cai := { tripped := true } }; cairnRuns s = true ∧ s.cai.tripped = true ∧ (foldS (fun (e : Int × Nat) s => takeReading e.2 e.1 s) (([] : List Int).take 16).zipIdx s).cai.temps.all (fun t => decide (t ≤ tripAt s - 40)) = true := by decide +kernel

theorem witness_ClocksAndWakes_0 :
    State.reset.cai.sysclk = true ∧ cairnRuns State.reset = true ∧ State.reset.tim.tosc = true := by decide +kernel

theorem witness_ClocksAndWakes_1 :
    let s : State := { State.reset with tim := { tosc := false } }; s.cai.sysclk = true ∧ cairnRuns s = true ∧ s.tim.tosc = false := by decide +kernel

theorem witness_ClocksAndWakes_2 :
    (let s : State := { State.reset with tim := { lost := true } }; s.tim.lost = true ∧ s.cai.mode ≠ .off ∧ s.cai.porstLow = false ∧ s.cai.fatalRestartAt = none) ∧
    (State.reset.tim.lost = false) := by
  refine ⟨?_, ?_⟩
  · decide +kernel
  · decide +kernel

theorem witness_ClocksAndWakes_3 :
    (halfInUse up 1 = false) ∧
    (2 ≤ 2) := by
  refine ⟨?_, ?_⟩
  · decide +kernel
  · decide +kernel

theorem witness_ClocksAndWakes_4 :
    halfInUse up 0 = true ∧ 0 < 2 ∧ cairnRuns up = true ∧ (halfSt up 0).up = true := by decide +kernel

theorem witness_ClocksAndWakes_5 :
    1 < 2 := by decide +kernel

theorem witness_ClocksAndWakes_6 :
    cairnRuns State.reset = true ∧ State.reset.cai.mode = .standby := by decide +kernel

theorem witness_ClocksAndWakes_7 :
    let s := setReg .CAI_WAKE_AT_LO 0 0 1 State.reset; pair64 s .CAI_WAKE_AT_LO .CAI_WAKE_AT_HI 0 0 ≠ 0 ∧ s.cai.mode = .standby := by decide +kernel

theorem witness_ClocksAndWakes_8 :
    cairnRuns State.reset = true := by decide +kernel

theorem witness_ClocksAndWakes_9 :
    let s := modLcs (fun l => { l with life := 2 }) State.reset; cairnRuns s = true ∧ (∀ p : Nat, p < 4 → debugGrants s p = false) := by decide +kernel

theorem witness_BootAndReadiness_0 :
    let s : State := { State.reset with cai := { rails := railsUp } }; s.cai.mode = .standby ∧ s.cai.wakePending = true ∧ railsGood s = true ∧ s.cai.orderFault = false ∧ s.cai.tripped = false ∧ s.cai.railFault = false ∧ s.cai.fatal = false ∧ s.cai.fatalRestartAt = none := by decide +kernel

theorem witness_BootAndReadiness_1 :
    let b : Bringup := { booted := false }; let s : State := { up with cai := { mode := .bringup, bringup := some b } }; s.cai.mode = .bringup ∧ s.cai.bringup = some b ∧ b.booted = false := by decide +kernel

theorem witness_BootAndReadiness_2 :
    let b : Bringup := { waitUntil := some 7 }; let s : State := { up with cai := { mode := .bringup, bringup := some b } }; s.cai.bringup = some b ∧ b.waitUntil = some 7 := by decide +kernel

theorem witness_BootAndReadiness_3 :
    firmwareUp up = true ∧ up.cai.ready.contains 0 = false := by decide +kernel

theorem witness_BootAndReadiness_4 :
    let s := modFn (.pf 0) (fun r => { r with readyWhy := some 1 }) up; (fnSt s (.pf 0)).readyWhy = some 1 ∧ 1 ≠ 3 ∧ isPf0 s 0 = true ∧ fnExists s (.pf 0) = true ∧ linkUp s (.pf 0) = true ∧ firmwareUp s = true ∧ s.cai.mode = .service := by decide +kernel

theorem witness_BootAndReadiness_5 :
    halfInUse up 0 = true ∧ 0 < 2 ∧ up.cai.mode ≠ .off ∧ up.cai.porstLow = false := by decide +kernel

theorem witness_BootAndReadiness_6 :
    let s := modCai (fun c => { c with straps := 4 }) up; halfInUse s 1 = true ∧ 1 < 2 ∧ s.cai.mode ≠ .off ∧ s.cai.porstLow = false ∧ railsGood s = true ∧ s.cai.perstHigh.getD 1 false = false := by decide +kernel

theorem witness_BootAndReadiness_7 :
    let s := modHif (fun h => { h with halves := [{}, {}] }) up; linkSupported s 7 16 true = true ∧ mayTrain s 0 = true ∧ (halfSt s 0).up = false ∧ 0 < s.hif.halves.length := by decide +kernel

theorem witness_BootAndReadiness_8 :
    linkSupported up 5 8 false = true ∧ (halfSt up 0).up = true ∧ halfInUse up 0 = true ∧ false = (halfSt up 0).flit ∧ (5 ≠ (halfSt up 0).rate ∨ 8 ≠ (halfSt up 0).width) ∧ 0 < up.hif.halves.length := by decide +kernel

theorem witness_BootAndReadiness_9 :
    (halfSt up 0).up = true := by decide +kernel

theorem witness_ModeRequests_0 :
    (regBar .mgmt .CAI_MODE_REQ 0 = some 0x134 ∧ actsAt .mgmt 0x134 up = true ∧ mayRequest up .mgmt = true ∧ up.cai.mode = .service) ∧
    (let s := modCai (fun c => { c with mode := .spared, settings := { pfs := [{ enabled := true }] } }) up; regBar (.fn (.pf 0)) .CAI_MODE_REQ 0 = some 0x134 ∧ actsAt (.fn (.pf 0)) 0x134 s = true ∧ mayRequest s (.fn (.pf 0)) = true ∧ s.cai.mode = .spared) := by
  refine ⟨?_, ?_⟩
  · decide +kernel
  · decide +kernel

theorem witness_ModeRequests_1 :
    let s := modCai (fun c => { c with mode := .test }) up; regBar .mgmt .CAI_MODE_REQ 0 = some 0x134 ∧ actsAt .mgmt 0x134 s = true ∧ mayRequest s .mgmt = true ∧ s.cai.mode = .test := by decide +kernel

theorem witness_ModeRequests_2 :
    let s := modCai (fun c => { c with mode := .drain, drain := some {} }) up; regBar .mgmt .CAI_MODE_REQ 0 = some 0x134 ∧ actsAt .mgmt 0x134 s = true ∧ mayRequest s .mgmt = true ∧ s.cai.mode = .drain := by decide +kernel

theorem witness_ModeRequests_3 :
    regBar .firmware .CAI_MODE_REQ 0 = some 0x134 ∧ actsAt .firmware 0x134 up = true ∧ mayRequest up .firmware = true ∧ up.cai.mode = .service := by decide +kernel

theorem witness_ModeRequests_4 :
    let s := modCai (fun c => { c with mode := .drain, drain := some {} }) up; s.cai.drain = some {} ∧ s.cai.mode = .drain := by decide +kernel

theorem witness_ModeRequests_5 :
    let s := modCai (fun c => { c with mode := .drain, drain := some { standby := true } }) up; s.cai.drain = some { standby := true } ∧ s.cai.mode = .drain ∧ fetchedWork s = false ∧ ({ standby := true } : DrainSt).standby = true := by decide +kernel

theorem witness_FunctionLife_0 :
    wbit (cfgGet up (.pf 0) 1) 2 = true := by decide +kernel

theorem witness_FunctionLife_1 :
    let s := cfgSet (.vf 3 4095) 1 4 up; wbit (cfgGet s (.vf 3 4095) 1) 2 = true := by decide +kernel

theorem witness_FunctionLife_2 :
    outstanding up (.pf 0) = 0 := by decide +kernel

theorem witness_FunctionLife_3 :
    (fnSt up (.vf 0 0)).flrAt = none := by decide +kernel

theorem witness_FunctionLife_4 :
    let s := modFn (.vf 0 0) (fun r => { r with flrAt := some 0 }) up; (fnSt s (.vf 0 0)).flrAt.isSome = true ∧ s.cai.mode ≠ .pause := by decide +kernel

theorem witness_FunctionLife_5 :
    let s := modFn (.pf 3) (fun r => { r with flrAt := some 0 }) up; (fnSt s (.pf 3)).flrAt.isSome = true ∧ s.cai.mode ≠ .pause := by decide +kernel

theorem witness_FunctionLife_6 :
    let s := cfgSet (.pf 0) (0x178 / 4) 16 up; vfEnabled s 0 = false ∧ ariCapable s 0 = true ∧ pfEnabled s 0 = true ∧ s.cai.mode = .service := by decide +kernel

theorem witness_FunctionLife_7 :
    let s := cfgSet (.pf 0) (0x178 / 4) 17 up; vfEnabled s 0 = true := by decide +kernel

theorem witness_FunctionLife_8 :
    let s := cfgSet (.pf 0) (0x44 / 4) 3 up; fld (cfgGet s (.pf 0) (0x44 / 4)) 1 0 = 3 := by decide +kernel

theorem witness_FunctionLife_10 :
    let s := modCai (fun c => { c with settings := { pfs := [{ enabled := true, vectors := 8 }] } }) (cfgSet (.pf 0) 1 6 (awake [.hifHalf 0, .rel] up)); msixBar (.pf 0) 7 3 = 0x300007C ∧ 7 < (if isVf (.pf 0) then 1024 else 2048) ∧ 7 < vectorsOf s (.pf 0) ∧ pathOpen s (.fn (.pf 0)) = true ∧ accessWaits s (.fn (.pf 0)) 0x300007C = false ∧ blockDead s (.fn (.pf 0)) (accessBlk s (.fn (.pf 0)) 0x300007C) = false ∧ vectorsOf (atWork (.fn (.pf 0)) 0x300007C s) (.pf 0) = vectorsOf s (.pf 0) := by decide +kernel

theorem witness_ConfigAndRequests_0 :
    configAnswers up (.pf 0) = some true := by decide +kernel

theorem witness_ConfigAndRequests_1 :
    (configAnswers State.reset (.pf 0) = none) ∧
    (let s := modFn (.pf 0) (fun r => { r with ready := false }) up; configAnswers s (.pf 0) = some false) := by
  refine ⟨?_, ?_⟩
  · decide +kernel
  · decide +kernel

theorem witness_ConfigAndRequests_2 :
    configAnswers up (.pf 0) = some true ∧ cfgDword (.pf 0) 0x180 = 0x180 / 4 ∧ vfEnabled up 0 = false := by decide +kernel

theorem witness_ConfigAndRequests_3 :
    let v : Word := 0x7FFF; configAnswers up (.pf 0) = some true ∧ cfgDword (.pf 0) 0x58 = 0x58 / 4 ∧ wbit v 15 = false := by decide +kernel

theorem witness_ConfigAndRequests_4 :
    (let r : Req := { fn := .pf 0, use := .other, len := 64 }; let s := modHif (fun h => { h with waiting := [r] }) up; s.hif.waiting.find? (grantable s (some (.pf 0))) = some r ∧ r.use = .other ∧ tlpFor s r.fn r.addr false = some {}) ∧
    (let r : Req := { fn := .pf 0, use := .other, len := 64 }; let s := modHif (fun h => { h with waiting := [r] }) up; (takeSlot r s).isSome = true) := by
  refine ⟨?_, ?_⟩
  · decide +kernel
  · intro r s
    have k (used : List Nat) (n : Nat) (u : State) (h : used = []) (hn : 0 < n) : ∃ i, (pickFree used n u).1 = some i := by
      subst h
      unfold pickFree
      dsimp only
      split
      · exact ⟨_, rfl⟩
      · exact ⟨0, by cases n <;> simp_all⟩
    obtain ⟨i, hi⟩ := k (s.hif.slots.map Prod.fst) 16384 s (by decide +kernel) (by decide)
    obtain ⟨j, hj⟩ := k (tagsUsed s r.fn) (tagCount s r.fn) (pickFree (s.hif.slots.map Prod.fst) 16384 s).2 (by decide +kernel) (by decide +kernel)
    unfold takeSlot
    dsimp only
    rw [hi, hj]
    rfl

theorem witness_ConfigAndRequests_5 :
    let r : Req := { fn := .pf 0, use := .work 0 0 0, len := 64 }; let s := modHif (fun h => { h with waiting := [r] }) up; s.hif.waiting.find? (grantable s (some (.pf 0))) = some r ∧ r.use = .work 0 0 0 ∧ tlpFor s r.fn r.addr false = some {} := by decide +kernel

theorem witness_ConfigAndRequests_6 :
    let x : Slot := { req := { fn := .pf 0, use := .other, len := 64 }, tag := 255, issued := 0, timeout := 0 }; let s := modHif (fun h => { h with slots := [(16383, x)] }) up; s.hif.slots.find? (fun e => e.2.req.fn == .pf 0 && e.2.tag == 255 && e.2.st != .quarantined) = some (16383, x) ∧ x.st = .outstanding := by decide +kernel

theorem witness_ConfigAndRequests_7 :
    up.hif.slots.find? (fun e => e.2.req.fn == .pf 0 && e.2.tag == 1 && e.2.st != .quarantined) = none := by decide +kernel

theorem witness_ConfigAndRequests_8 :
    let x : Slot := { req := { fn := .pf 0, use := .other, len := 64 }, tag := 255, issued := 0, timeout := 50000000 }; let s := modHif (fun h => { h with slots := [(0, x)] }) up; mfind s.hif.slots 0 = some x ∧ x.st = .outstanding := by decide +kernel

theorem witness_ConfigAndRequests_9 :
    let x : Slot := { req := { fn := .pf 0, use := .other, len := 64 }, tag := 255, issued := 0, timeout := 50000000, st := .quarantined }; let s := modHif (fun h => { h with slots := [(0, x)] }) up; mfind s.hif.slots 0 = some x ∧ x.st = .quarantined := by decide +kernel

theorem witness_ConfigAndRequests_12 :
    let w : Work := { ctr := 0, entry := 0, noAccess := [5] }; let s := cfgSet (.pf 0) (0x1EC / 4) 1 (modQueue (.pf 0) 0 (fun q => { q with st := .active, work := [w] }) up); refusedWork s (.pf 0) 0 = some (w, 5) ∧ (fnSt s (.pf (fnPf (.pf 0)))).pageRequests.length < (cfgGet s (.pf (fnPf (.pf 0))) (0x1EC / 4)).toNat := by decide +kernel

theorem witness_ConfigAndRequests_13 :
    let w : Work := { ctr := 0, entry := 0 }; let r : PageReq := { fn := .pf 0, sq := 0, ctr := 0, page := 5, sent := 0 }; let s := modFn (.pf 0) (fun x => { x with pageRequests := [r] }) (modQueue (.pf 0) 0 (fun q => { q with st := .active, work := [w] }) up); openPageReq s (.pf 0) 0 = some r ∧ workOf (modFn (.pf (fnPf r.fn)) (fun x => { x with pageRequests := dropFirst (· == r) x.pageRequests }) s) r.fn r.sq (BitVec.ofNat 16 r.ctr) = some w ∧ w.done = none := by decide +kernel

theorem witness_ConfigAndRequests_14 :
    let w : Work := { ctr := 0, entry := 0 }; let r : PageReq := { fn := .vf 0 0, sq := 0, ctr := 0, page := 5, sent := 0 }; let s := modFn (.pf 0) (fun x => { x with pageRequests := [r] }) (modQueue (.vf 0 0) 0 (fun q => { q with st := .active, work := [w] }) up); openPageReq s (.vf 0 0) 0 = some r ∧ workOf (modFn (.pf (fnPf r.fn)) (fun x => { x with pageRequests := dropFirst (· == r) x.pageRequests }) (advanceTo (r.sent + 1000000000) s)) r.fn r.sq (BitVec.ofNat 16 r.ctr) = some w ∧ w.done = none := by decide +kernel

theorem witness_ConfigAndRequests_15 :
    let s := cfgSet (.pf 0) (0x1F8 / 4) 1 up; halfInUse s 0 = true ∧ (halfSt s 0).up = true ∧ wbit (cfgGet s (.pf (pf0Of 0)) (0x1F8 / 4)) 0 = true := by decide +kernel

theorem witness_ConfigAndRequests_16 :
    1 < up.hif.doe.length := by decide +kernel

theorem witness_SpdmConnection_0 :
    doeOpen up 0 = true ∧ 16384 < 16385 := by decide +kernel

theorem witness_SpdmConnection_1 :
    doeOpen up 0 = true ∧ 16384 ≤ 16384 := by decide +kernel

theorem witness_SpdmConnection_2 :
    let x : SpdmSession := { id := 5, mutually := true }; let s := modDoe 0 (fun d => { d with sessions := [x] }) up; spdmOpen s 0 = true ∧ 4 ≤ 16384 ∧ (doeOf s 0).sessions.find? (fun x => x.mutually && !x.established) = some x ∧ x.encap = 0 := by decide +kernel

theorem witness_SpdmConnection_3 :
    spdmOpen up 0 = true := by decide +kernel

theorem witness_SpdmConnection_4 :
    let s := modDoe 0 (fun d => { d with phase := 1 }) up; spdmOpen s 0 = true ∧ (doeOf s 0).phase = 1 ∧ (0x13 = 0x12 ∨ 0x13 = 0x13) := by decide +kernel

theorem witness_SpdmConnection_5 :
    let s := modDoe 0 (fun d => { d with phase := 2 }) up; spdmOpen s 0 = true ∧ (doeOf s 0).phase = 2 ∧ bitOf 128 7 = true ∧ bitOf 2 1 = true ∧ 0 < s.hif.doe.length := by decide +kernel

theorem witness_SpdmConnection_6 :
    let s := modDoe 0 (fun d => { d with phase := 3 }) up; spdmOpen s 0 = true ∧ (doeOf s 0).phase = 3 := by decide +kernel

theorem witness_SpdmConnection_7 :
    let s := modDoe 1 (fun d => { d with phase := 3 }) (modHif (fun h => { h with halves := [{}, { up := true }] }) (modCai (fun c => { c with straps := 4 }) up)); spdmOpen s 1 = true ∧ (doeOf s 1).phase = 3 := by decide +kernel

theorem witness_SpdmConnection_8 :
    let s := modDoe 0 (fun d => { d with phase := 3 }) up; spdmOpen s 0 = true ∧ (doeOf s 0).phase = 3 := by decide +kernel

theorem witness_SpdmConnection_9 :
    let s := modDoe 0 (fun d => { d with phase := 3 }) up; spdmOpen s 0 = true ∧ (doeOf s 0).phase = 3 := by decide +kernel

theorem witness_SpdmConnection_10 :
    spdmOpen State.reset 0 = false := by decide +kernel

theorem witness_SpdmSessions_0 :
    let s := modDoe 0 (fun d => { d with sessions := [{ id := 1 }, { id := 2 }, { id := 3 }] }) inSession; spdmOpen s 0 = true ∧ (doeOf s 0).phase = 3 ∧ (doeOf s 0).sessions.length < 4 ∧ 131079 = 7 % 65536 + 65536 * ((doeOf s 0).nextSession % 65536) := by decide +kernel

theorem witness_SpdmSessions_1 :
    let s := modDoe 0 (fun d => { d with sessions := [{ id := 1 }, { id := 2 }, { id := 3 }, { id := 4 }] }) inSession; spdmOpen s 0 = true ∧ (doeOf s 0).phase = 3 ∧ 4 ≤ (doeOf s 0).sessions.length := by decide +kernel

theorem witness_SpdmSessions_2 :
    (let x : SpdmSession := { id := 9 }; let s := modDoe 0 (fun d => { d with sessions := [x] }) inSession; spdmOpen s 0 = true ∧ (doeOf s 0).phase = 3 ∧ sessionOf s 0 9 = some x ∧ x.established = false ∧ x.mutually = false) ∧
    (let x : SpdmSession := { id := 9, mutually := true, encap := 2 }; let s := modDoe 0 (fun d => { d with sessions := [x] }) inSession; spdmOpen s 0 = true ∧ (doeOf s 0).phase = 3 ∧ sessionOf s 0 9 = some x ∧ x.established = false ∧ x.encap = 2) := by
  refine ⟨?_, ?_⟩
  · decide +kernel
  · decide +kernel

theorem witness_SpdmSessions_3 :
    let x : SpdmSession := { id := 65537, established := true }; spdmOpen inSession 0 = true ∧ (doeOf inSession 0).phase = 3 ∧ sessionOf inSession 0 65537 = some x ∧ x.established = true := by decide +kernel

theorem witness_SpdmSessions_4 :
    let x : SpdmSession := { id := 65537, established := true }; spdmOpen inSession 0 = true ∧ (doeOf inSession 0).phase = 3 ∧ sessionOf inSession 0 65537 = some x ∧ x.established = true ∧ ideNamed 16 2 1 1 = true := by decide +kernel

theorem witness_SpdmSessions_5 :
    let x : SpdmSession := { id := 65537, established := true }; let s := modIde 0 16 (fun e => { e with enabled := true, secure := true }) (withTdi {}); spdmOpen s 0 = true ∧ (doeOf s 0).phase = 3 ∧ sessionOf s 0 65537 = some x ∧ x.established = true ∧ tdiOf s 0 (.vf 0 0) = true ∧ (fnSt s (.vf 0 0)).tdi.st = .unlocked ∧ 1 ≤ 16 ∧ 16 ≤ 16 ∧ (ideSt s 0 16).secure = true := by decide +kernel

theorem witness_SpdmSessions_6 :
    let x : SpdmSession := { id := 65537, established := true }; let s := withTdi { st := .locked, nonce := 5 }; spdmOpen s 0 = true ∧ (doeOf s 0).phase = 3 ∧ sessionOf s 0 65537 = some x ∧ x.established = true ∧ tdiOf s 0 (.vf 0 0) = true ∧ (fnSt s (.vf 0 0)).tdi.st = .locked ∧ (fnSt s (.vf 0 0)).tdi.nonce = 5 := by decide +kernel

theorem witness_SpdmSessions_7 :
    let s := withTdi { st := .error }; spdmOpen s (fnHalf s (.vf 0 0)) = true ∧ tdiOf s (fnHalf s (.vf 0 0)) (.vf 0 0) = true ∧ (fnSt s (.vf 0 0)).tdi.st ≠ .unlocked := by decide +kernel

theorem witness_SpdmSessions_8 :
    let s := modIde 1 0 (fun e => { e with secure := true }) up; (ideSt s 1 0).secure = true ∧ s.hif.slots = [] := by decide +kernel

theorem witness_RingsAndEntries_0 :
    let s := modQueue (.pf 0) 131072 (fun u => { u with unsignalled := 1, cfg := u.cfg ||| 0x04000000 }) (rings 0); (queue s (.pf 0) 131072).unsignalled ≠ 0 ∧ fld (queue s (.pf 0) 131072).cfg 27 26 = 1 := by decide +kernel

theorem witness_RingsAndEntries_1 :
    let s := sq0 (fun u => { u with work := [{ ctr := 64, entry := 2, done := some { status := 3, ts := 0, bound := 0 } }] }) (rings 0); (fnSt s (.pf 0)).silent = false ∧ frozen s (.pf 0) = false ∧ qKind (.pf 0) 0 = some .sq ∧ (dueCompletion 0 (queue s (.pf 0) 0).work).isSome = true := by decide +kernel

theorem witness_RingsAndEntries_2 :
    let s := sq0 (fun u => { u with work := [{ ctr := 64, entry := 2, done := some { status := 3, ts := 0, bound := 0 } }] }) (rings 0); let s1 := modQueue (.pf 0) 0 (fun u => { u with work := u.work.drop 1 }) s; (fnSt s (.pf 0)).silent = false ∧ frozen s (.pf 0) = false ∧ qKind (.pf 0) 0 = some .sq ∧ ((dueCompletion 0 (queue s (.pf 0) 0).work).map Prod.snd) = some 1 ∧ ringFull (queue s1 (.pf 0) (qTarget (queue s (.pf 0) 0))) = false ∧ (queue s1 (.pf 0) (qTarget (queue s (.pf 0) 0))).overflow = [] := by decide +kernel

theorem witness_RingsAndEntries_3 :
    let s := awake [.qm, .rel] (rings 0); let u := queue s (.pf 0) 0; doorbellBar (.pf 0) 0 = 0x2000000 ∧ doorbellAt s (.pf 0) 0x2000000 = some 0 ∧ pathOpen s (.fn (.pf 0)) = true ∧ accessWaits s (.fn (.pf 0)) 0x2000000 = false ∧ blockDead s (.fn (.pf 0)) (accessBlk s (.fn (.pf 0)) 0x2000000) = false ∧ qKind (.pf 0) 0 = some .sq ∧ u.st = .active ∧ ((128 : BitVec 64).truncate 16 - u.p).toNat ≤ ringSize u - (u.p - u.c).toNat := by decide +kernel

theorem witness_RingsAndEntries_4 :
    let s := awake [.qm, .rel] (rings 0); let u := queue s (.pf 0) 0; doorbellBar (.pf 0) 0 = 0x2000000 ∧ doorbellAt s (.pf 0) 0x2000000 = some 0 ∧ pathOpen s (.fn (.pf 0)) = true ∧ accessWaits s (.fn (.pf 0)) 0x2000000 = false ∧ blockDead s (.fn (.pf 0)) (accessBlk s (.fn (.pf 0)) 0x2000000) = false ∧ qKind (.pf 0) 0 = some .sq ∧ u.st = .active ∧ ringSize u - (u.p - u.c).toNat < ((129 : BitVec 64).truncate 16 - u.p).toNat ∧ ringSize u < (u.p - (129 : BitVec 64).truncate 16).toNat := by decide +kernel

theorem witness_RingsAndEntries_5 :
    let s := sq0 (fun u => { u with st := .error }) (awake [.qm, .rel] (rings 0)); doorbellBar (.pf 0) 0 = 0x2000000 ∧ doorbellAt s (.pf 0) 0x2000000 = some 0 ∧ pathOpen s (.fn (.pf 0)) = true ∧ accessWaits s (.fn (.pf 0)) 0x2000000 = false ∧ blockDead s (.fn (.pf 0)) (accessBlk s (.fn (.pf 0)) 0x2000000) = false ∧ (queue s (.pf 0) 0).st = .error := by decide +kernel

theorem witness_RingsAndEntries_6 :
    Fn.pf 0 ≠ .fw ∧ pathOpen State.reset (.fn (.pf 0)) = false := by decide +kernel

theorem witness_RingsAndEntries_7 :
    (let s := sq0 (fun u => { u with p := 65 }) (rings 0); let bs : Bytes := leBytes 64 (2 ^ 8); mayFetch s (.pf 0) 0 = true ∧ (queue s (.pf 0) 0).staleAt = none ∧ mayTake s (.pf 0) (sqeAddr (queue s (.pf 0) 0)) = true ∧ bitOf (entryField (BitVec.ofNat 512 (leNat (slice bs 0 64))) 1 1) 0 = phaseOf (queue s (.pf 0) 0) (queue s (.pf 0) 0).c) ∧
    (let s := sq0 (fun u => { u with p := 65 }) (rings 0); let bs : Bytes := leBytes 64 0; mayFetch s (.pf 0) 0 = true ∧ (queue s (.pf 0) 0).staleAt = none ∧ mayTake s (.pf 0) (sqeAddr (queue s (.pf 0) 0)) = true ∧ bitOf (entryField (BitVec.ofNat 512 (leNat (slice bs 0 64))) 1 1) 0 ≠ phaseOf (queue s (.pf 0) 0) (queue s (.pf 0) 0).c) := by
  refine ⟨?_, ?_⟩
  · decide +kernel
  · decide +kernel

theorem witness_RingsAndEntries_8 :
    (let s := sq0 (fun u => { u with p := 65 }) (rings 0); mayFetch s (.pf 0) 0 = true ∧ (queue s (.pf 0) 0).staleAt = none ∧ mayTake s (.pf 0) (sqeAddr (queue s (.pf 0) 0)) = true) ∧
    (let s := sq0 (fun u => { u with p := 65 }) (rings 0); (operandRead (.pf 0) (sqeAddr (queue s (.pf 0) 0)) .abort s).isSome = true ∧ (operandRead (.pf 0) (sqeAddr (queue s (.pf 0) 0)) .poisoned s).isSome = true ∧ (operandRead (.pf 0) (sqeAddr (queue s (.pf 0) 0)) .timeout s).isSome = true) := by
  refine ⟨?_, ?_⟩
  · decide +kernel
  · intro s
    have k (used : List Nat) (n : Nat) (u : State) (h : used = []) (hn : 0 < n) : ∃ i, (pickFree used n u).1 = some i := by
      subst h
      unfold pickFree
      dsimp only
      split
      · exact ⟨_, rfl⟩
      · exact ⟨0, by cases n <;> simp_all⟩
    have t (r : Req) (hr : r.fn = .pf 0) : (takeSlot r s).isSome = true := by
      obtain ⟨i, hi⟩ := k (s.hif.slots.map Prod.fst) 16384 s (by decide +kernel) (by decide)
      obtain ⟨j, hj⟩ := k (tagsUsed s r.fn) (tagCount s r.fn) (pickFree (s.hif.slots.map Prod.fst) 16384 s).2 (by rw [hr]; decide +kernel) (by rw [hr]; decide +kernel)
      unfold takeSlot
      dsimp only
      rw [hi, hj]
      rfl
    have m : mayTake s (.pf 0) (sqeAddr (queue s (.pf 0) 0)) = true := by decide +kernel
    unfold operandRead
    simp only [m, Bool.not_true, Bool.false_eq_true, if_false, Option.isSome_map]
    exact ⟨t _ rfl, t _ rfl, t _ rfl⟩

theorem witness_RingsAndEntries_9 :
    (let s := sq0 (fun u => { u with p := 65, staleAt := some 0 }) (rings 0); let s1 := advanceTo 1000 s; let bs : Bytes := leBytes 64 (2 ^ 8); (queue s (.pf 0) 0).staleAt = some 0 ∧ mayFetch s1 (.pf 0) 0 = true ∧ mayTake s1 (.pf 0) (sqeAddr (queue s (.pf 0) 0)) = true ∧ bitOf (entryField (BitVec.ofNat 512 (leNat (slice bs 0 64))) 1 1) 0 = phaseOf (queue s (.pf 0) 0) (queue s (.pf 0) 0).c) ∧
    (let s := sq0 (fun u => { u with p := 65, staleAt := some 0 }) (rings 0); let s1 := advanceTo 1000 s; let bs : Bytes := leBytes 64 0; (queue s (.pf 0) 0).staleAt = some 0 ∧ mayFetch s1 (.pf 0) 0 = true ∧ mayTake s1 (.pf 0) (sqeAddr (queue s (.pf 0) 0)) = true ∧ bitOf (entryField (BitVec.ofNat 512 (leNat (slice bs 0 64))) 1 1) 0 ≠ phaseOf (queue s (.pf 0) 0) (queue s (.pf 0) 0).c) := by
  refine ⟨?_, ?_⟩
  · decide +kernel
  · decide +kernel

theorem witness_RingsAndEntries_10 :
    let w : Work := { ctr := 64, entry := 1, cls := 1 }; let s := sq0 (fun u => { u with work := [w] }) (rings 1); nextWork s (.pf 0) 0 1 0x01 = some w := by decide +kernel

theorem witness_RingsAndEntries_11 :
    Fn.pf 0 ≠ .fw ∧ (rings 0).qm.events.find? (fun e => e.block == 3 && e.code == 2 && e.detail == 0 && e.fn == .pf 0 && e.eq == defaultEq (rings 0) (.pf 0)) = none := by decide +kernel

theorem witness_RingsAndEntries_12 :
    let e : EvSrc := { block := 3, code := 2, detail := 0, fn := .pf 0, eq := some 262144, ts := 0, bound := 0 }; let s := modQm (fun m => { m with events := [e] }) (rings 0); qKind (.pf 0) 262144 = some .eq ∧ (queue s (.pf 0) 262144).st = .active ∧ ringFull (queue s (.pf 0) 262144) = false ∧ (fnSt s (.pf 0)).silent = false ∧ frozen s (.pf 0) = false ∧ busMaster s (.pf 0) = true ∧ linkUp s (.pf 0) = true ∧ s.qm.events.find? (fun e => e.fn == .pf 0 && e.eq == some 262144 && e.written.isNone) = some e := by decide +kernel

theorem witness_QueueControl_0 :
    let s0 := setReg .QM_Q_SELECT 0 (pathCode (.fn (.pf 0))) 1 (setReg .QM_Q_CFG 1 (fnCode (.pf 0)) 0x20000F (awake [.qm, .rel] (rings 0))); let s := atWork (.fn (.pf 0)) 6291736 s0; regBar (.fn (.pf 0)) .QM_Q_CTRL 0 = some 6291736 ∧ actsAt (.fn (.pf 0)) 6291736 s0 = true ∧ 1 = selectedQ s (.fn (.pf 0)) ∧ ownsQueue s (.pf 0) 1 = true ∧ created (queue s (.pf 0) 1) = false ∧ settingsOk s (.pf 0) 1 = true := by decide +kernel

theorem witness_QueueControl_1 :
    (let s0 := setReg .QM_Q_SELECT 0 (pathCode (.fn (.pf 0))) 1024 (awake [.qm, .rel] (rings 0)); let s := atWork (.fn (.pf 0)) 6291736 s0; regBar (.fn (.pf 0)) .QM_Q_CTRL 0 = some 6291736 ∧ actsAt (.fn (.pf 0)) 6291736 s0 = true ∧ 1024 = selectedQ s (.fn (.pf 0)) ∧ ownsQueue s (.pf 0) 1024 = false) ∧
    (let s0 := awake [.qm, .rel] (rings 0); let s := atWork (.fn (.pf 0)) 6291736 s0; regBar (.fn (.pf 0)) .QM_Q_CTRL 0 = some 6291736 ∧ actsAt (.fn (.pf 0)) 6291736 s0 = true ∧ 0 = selectedQ s (.fn (.pf 0)) ∧ ownsQueue s (.pf 0) 0 = true ∧ created (queue s (.pf 0) 0) = true) ∧
    (let s0 := setReg .QM_Q_SELECT 0 (pathCode (.fn (.pf 0))) 1023 (awake [.qm, .rel] (rings 0)); let s := atWork (.fn (.pf 0)) 6291736 s0; regBar (.fn (.pf 0)) .QM_Q_CTRL 0 = some 6291736 ∧ actsAt (.fn (.pf 0)) 6291736 s0 = true ∧ 1023 = selectedQ s (.fn (.pf 0)) ∧ ownsQueue s (.pf 0) 1023 = true ∧ created (queue s (.pf 0) 1023) = false ∧ settingsOk s (.pf 0) 1023 = false) := by
  refine ⟨?_, ?_, ?_⟩
  · decide +kernel
  · decide +kernel
  · decide +kernel

theorem witness_QueueControl_2 :
    let s0 := awake [.qm, .rel] (rings 0); let s := atWork (.fn (.pf 0)) 6291736 s0; regBar (.fn (.pf 0)) .QM_Q_CTRL 0 = some 6291736 ∧ actsAt (.fn (.pf 0)) 6291736 s0 = true ∧ 0 = selectedQ s (.fn (.pf 0)) ∧ ownsQueue s (.pf 0) 0 = true ∧ created (queue s (.pf 0) 0) = true ∧ qKind (.pf 0) 0 = some .sq ∧ (queue s (.pf 0) 0).work = [] := by decide +kernel

theorem witness_QueueControl_3 :
    let s := modQm (fun m => { m with lastDestroy := [(fnCode (.pf 0), 0)] }) (sq0 (fun u => { u with destroying := true }) (rings 0)); let u := queue s (.pf 0) 0; u.destroying = true ∧ u.work.all (fun w => w.done.isSome) = true ∧ dueCompletion 0 u.work = none ∧ u.overflow = [] ∧ u.waiting = [] ∧ mfind s.qm.lastDestroy (fnCode (.pf 0)) = some 0 := by decide +kernel

theorem witness_QueueControl_4 :
    (let s0 := setReg .QM_Q_CFG 0 (fnCode (.pf 0)) 0x200006 (sq0 (fun u => { u with st := .quiesced }) (awake [.qm, .rel] (rings 0))); let s := atWork (.fn (.pf 0)) 6291736 s0; regBar (.fn (.pf 0)) .QM_Q_CTRL 0 = some 6291736 ∧ actsAt (.fn (.pf 0)) 6291736 s0 = true ∧ 0 = selectedQ s (.fn (.pf 0)) ∧ ownsQueue s (.pf 0) 0 = true ∧ (queue s (.pf 0) 0).st = .quiesced ∧ quiesced s (.pf 0) = true ∧ settingsOk s (.pf 0) 0 = true) ∧
    (let s0 := setReg .QM_Q_SELECT 0 (pathCode (.fn (.pf 0))) 131072 (setReg .QM_Q_CFG 131072 (fnCode (.pf 0)) 0x400006 (modQueue (.pf 0) 131072 (fun u => { u with st := .error }) (awake [.qm, .rel] (rings 0)))); let s := atWork (.fn (.pf 0)) 6291736 s0; regBar (.fn (.pf 0)) .QM_Q_CTRL 0 = some 6291736 ∧ actsAt (.fn (.pf 0)) 6291736 s0 = true ∧ 131072 = selectedQ s (.fn (.pf 0)) ∧ ownsQueue s (.pf 0) 131072 = true ∧ (queue s (.pf 0) 131072).st = .error ∧ qKind (.pf 0) 131072 = some .cq ∧ (queue s (.pf 0) 131072).overflow = [] ∧ (queue s (.pf 0) 131072).waiting = [] ∧ quiesced s (.pf 0) = true ∧ settingsOk s (.pf 0) 131072 = true) := by
  refine ⟨?_, ?_⟩
  · decide +kernel
  · decide +kernel

theorem witness_VfMigration_0 :
    (let s0 := awake [.hifHalf 0, .rel] (cfgSet (.pf 0) (0x178 / 4) 1 (vfMig {})); let s := atWork (.fn (.pf 0)) 4194844 s0; regBar (.fn (.pf 0)) .HIF_VF_CTRL 0 = some 4194844 ∧ actsAt (.fn (.pf 0)) 4194844 s0 = true ∧ selectedVf s 0 = some (.vf 0 0) ∧ (fnSt s (.vf 0 0)).mig.action = none ∧ vfEnabled s 0 = true) ∧
    (let s0 := awake [.hifHalf 0, .rel] (vfMig {}); let s := atWork (.fn (.pf 0)) 4194844 s0; regBar (.fn (.pf 0)) .HIF_VF_CTRL 0 = some 4194844 ∧ actsAt (.fn (.pf 0)) 4194844 s0 = true ∧ selectedVf s 0 = some (.vf 0 0) ∧ (fnSt s (.vf 0 0)).mig.action = none ∧ vfEnabled s 0 = false ∧ grantOk s (.vf 0 0) (grantOf s (.vf 0 0)) = false) ∧
    (let h := fnCode (.vf 0 0); let s0 := awake [.hifHalf 0, .rel] (setReg .HIF_VF_Q_COUNT 0 h (w32 (1 + 65536)) (setReg .HIF_VF_EQ 0 h 0x10000 (setReg .HIF_VF_VECTORS 0 h 1 (vfMig {})))); let s := atWork (.fn (.pf 0)) 4194844 s0; regBar (.fn (.pf 0)) .HIF_VF_CTRL 0 = some 4194844 ∧ actsAt (.fn (.pf 0)) 4194844 s0 = true ∧ selectedVf s 0 = some (.vf 0 0) ∧ (fnSt s (.vf 0 0)).mig.action = none ∧ vfEnabled s 0 = false ∧ grantOk s (.vf 0 0) (grantOf s (.vf 0 0)) = true) := by
  refine ⟨?_, ?_, ?_⟩
  · decide +kernel
  · decide +kernel
  · decide +kernel

theorem witness_VfMigration_1 :
    let s0 := awake [.hifHalf 0, .rel] (vfMig {}); let s := atWork (.fn (.pf 0)) 4194836 s0; regBar (.fn (.pf 0)) .HIF_VF_VPORT 0 = some 4194836 ∧ actsAt (.fn (.pf 0)) 4194836 s0 = true ∧ let v : Word := 0x80000004; selectedVf s 0 = some (.vf 0 0) ∧ wbit v 31 = true ∧ (pfSet s 0).nvme = false ∧ inVportRange s 0 (fld v 11 0) = true ∧ vportTaken s (.vf 0 0) (fld v 11 0) = false ∧ (fnSt s (.vf 0 0)).vport ≠ some (fld v 11 0) := by decide +kernel

theorem witness_VfMigration_2 :
    let s0 := awake [.hifHalf 0, .rel] (setReg .HIF_VF_LOG_PAGES 0 (fnCode (.vf 0 0)) 32768 (vfMig {})); let s := atWork (.fn (.pf 0)) 4194844 s0; regBar (.fn (.pf 0)) .HIF_VF_CTRL 0 = some 4194844 ∧ actsAt (.fn (.pf 0)) 4194844 s0 = true ∧ selectedVf s 0 = some (.vf 0 0) ∧ (fnSt s (.vf 0 0)).mig.action = none ∧ logOk s (.vf 0 0) = true := by decide +kernel

theorem witness_VfMigration_3 :
    let s0 := awake [.hifHalf 0, .rel] (vfMig { logging := true }); let s := atWork (.fn (.pf 0)) 4194844 s0; regBar (.fn (.pf 0)) .HIF_VF_CTRL 0 = some 4194844 ∧ actsAt (.fn (.pf 0)) 4194844 s0 = true ∧ selectedVf s 0 = some (.vf 0 0) ∧ (fnSt s (.vf 0 0)).mig.action = none := by decide +kernel

theorem witness_VfMigration_4 :
    let s0 := awake [.hifHalf 0, .rel] (vfMig { logging := true }); let s := atWork (.fn (.pf 0)) 4194844 s0; regBar (.fn (.pf 0)) .HIF_VF_CTRL 0 = some 4194844 ∧ actsAt (.fn (.pf 0)) 4194844 s0 = true ∧ selectedVf s 0 = some (.vf 0 0) ∧ (fnSt s (.vf 0 0)).mig.action = none := by decide +kernel

theorem witness_VfMigration_5 :
    (fnSt (vfMig {}) (.vf 0 0)).mig.logging = false := by decide +kernel

theorem witness_VfMigration_6 :
    let s := setReg .HIF_VF_LOG_PAGES 0 (fnCode (.vf 0 0)) 32768 (vfMig { logging := true }); (fnSt s (.vf 0 0)).mig.logging = true ∧ (fnSt s (.vf 0 0)).mig.activeB = false ∧ 134217727 % 4096 + max 1 1 ≤ 4096 ∧ 134213632 = 134217727 / 4096 * 4096 ∧ 0 = pair64 s .HIF_VF_LOG_IOVA_LO .HIF_VF_LOG_IOVA_HI 0 (fnCode (.vf 0 0)) ∧ 32767 = (134213632 - 0) / 4096 ∧ 32767 < (reg s .HIF_VF_LOG_PAGES 0 (fnCode (.vf 0 0))).toNat ∧ tlpFor s (.pf (fnPf (.vf 0 0))) 4095 false = some {} := by decide +kernel

theorem witness_VfMigration_7 :
    (let s0 := awake [.hifHalf 0, .rel] (modFn (.vf 0 0) (fun r => { r with tdi := { st := .run } }) (vfMig {})); let s := atWork (.fn (.pf 0)) 4194844 s0; regBar (.fn (.pf 0)) .HIF_VF_CTRL 0 = some 4194844 ∧ actsAt (.fn (.pf 0)) 4194844 s0 = true ∧ selectedVf s 0 = some (.vf 0 0) ∧ (fnSt s (.vf 0 0)).mig.action = none ∧ (fnSt s (.vf 0 0)).tdi.st = .run) ∧
    (let s0 := awake [.hifHalf 0, .rel] (vfMig {}); let s := atWork (.fn (.pf 0)) 4194844 s0; regBar (.fn (.pf 0)) .HIF_VF_CTRL 0 = some 4194844 ∧ actsAt (.fn (.pf 0)) 4194844 s0 = true ∧ selectedVf s 0 = some (.vf 0 0) ∧ (fnSt s (.vf 0 0)).mig.action = none ∧ (fnSt s (.vf 0 0)).tdi.st = .unlocked ∧ migRuns s (.vf 0 0) = true) := by
  refine ⟨?_, ?_⟩
  · decide +kernel
  · decide +kernel

theorem witness_VfMigration_8 :
    let s := vfMig { st := .freezing, action := some 5, result := 1 }; (fnSt s (.vf 0 0)).mig.st = .freezing ∧ freezeReady s (.vf 0 0) = true := by decide +kernel

theorem witness_VfMigration_9 :
    let s := vfMig { st := .freezing, action := some 5, result := 1 }; (fnSt s (.vf 0 0)).mig.st = .freezing ∧ (fnSt s (.vf 0 0)).mig.slow = false := by decide +kernel

theorem witness_VfMigration_10 :
    (let s0 := awake [.hifHalf 0, .rel] (setReg .HIF_VF_IMG_LEN 0 (fnCode (.vf 0 0)) 65536 (vfMig { st := .frozen })); let s := atWork (.fn (.pf 0)) 4194844 s0; regBar (.fn (.pf 0)) .HIF_VF_CTRL 0 = some 4194844 ∧ actsAt (.fn (.pf 0)) 4194844 s0 = true ∧ selectedVf s 0 = some (.vf 0 0) ∧ (fnSt s (.vf 0 0)).mig.action = none ∧ (fnSt s (.vf 0 0)).mig.st = .frozen ∧ (stateImage s (.vf 0 0)).length ≤ (vfReg s (.vf 0 0) .HIF_VF_IMG_LEN).toNat) ∧
    (let s0 := awake [.hifHalf 0, .rel] (vfMig { st := .frozen }); let s := atWork (.fn (.pf 0)) 4194844 s0; regBar (.fn (.pf 0)) .HIF_VF_CTRL 0 = some 4194844 ∧ actsAt (.fn (.pf 0)) 4194844 s0 = true ∧ selectedVf s 0 = some (.vf 0 0) ∧ (fnSt s (.vf 0 0)).mig.action = none ∧ (fnSt s (.vf 0 0)).mig.st = .frozen ∧ (vfReg s (.vf 0 0) .HIF_VF_IMG_LEN).toNat < (stateImage s (.vf 0 0)).length) := by
  refine ⟨?_, ?_⟩
  · decide +kernel
  · decide +kernel

theorem witness_VfMigration_11 :
    let s0 := awake [.hifHalf 0, .rel] (vfMig { st := .frozen }); let s := atWork (.fn (.pf 0)) 4194844 s0; let s1 := modMig (.vf 0 0) (fun m => { m with st := .restoring, imageDue := true }) (migPend (.vf 0 0) 7 s); restoring s0 0 = none ∧ regBar (.fn (.pf 0)) .HIF_VF_CTRL 0 = some 4194844 ∧ actsAt (.fn (.pf 0)) 4194844 s0 = true ∧ selectedVf s 0 = some (.vf 0 0) ∧ (fnSt s (.vf 0 0)).mig.action = none ∧ (fnSt s (.vf 0 0)).mig.st = .frozen ∧ createdQueues s (.vf 0 0) = [] ∧ restoring s1 0 = some (.vf 0 0) ∧ mayTake s1 (.pf 0) (imageBuf s1 (.vf 0 0)) = true := by decide +kernel

theorem witness_VfMigration_12 :
    (let s := vfMig { st := .restoring, action := some 7, imageDue := true }; restoring s (0) = some (.vf 0 0) ∧ mayTake s (.pf 0) (imageBuf s (.vf 0 0)) = true ∧ readImage s (.vf 0 0) (([] : Bytes).take (vfReg s (.vf 0 0) .HIF_VF_IMG_LEN).toNat) = none) ∧
    (let s := setReg .HIF_VF_IMG_LEN 0 (fnCode (.vf 0 0)) 176 (vfMig { st := .restoring, action := some 7, imageDue := true }); let data := bareImage.take (vfReg s (.vf 0 0) .HIF_VF_IMG_LEN).toNat; restoring s (0) = some (.vf 0 0) ∧ mayTake s (.pf 0) (imageBuf s (.vf 0 0)) = true ∧ readImage s (.vf 0 0) data = some [] ∧ grantFits s (.vf 0 0) data = true ∧ recordsOk s (.vf 0 0) [] = true) := by
  refine ⟨?_, ?_⟩
  · decide +kernel
  · decide +kernel

theorem witness_VfMigration_13 :
    let s := vfMig { st := .saving, action := some 6, result := 1 }; (fnSt s (.vf 0 0)).mig.action = some 6 ∧ 6 ≠ 5 ∧ (fnSt s (.vf 0 0)).mig.imageDue = false := by decide +kernel

theorem witness_VfMigration_14 :
    let s0 := awake [.hifHalf 0, .rel] (vfMig { st := .frozen }); let s := atWork (.fn (.pf 0)) 4194844 s0; regBar (.fn (.pf 0)) .HIF_VF_CTRL 0 = some 4194844 ∧ actsAt (.fn (.pf 0)) 4194844 s0 = true ∧ selectedVf s 0 = some (.vf 0 0) ∧ (fnSt s (.vf 0 0)).mig.action = none ∧ (fnSt s (.vf 0 0)).mig.st = .frozen := by decide +kernel

theorem witness_VfMigration_15 :
    let s0 := awake [.hifHalf 0, .rel] (vfMig { st := .saving, action := some 6, result := 1 }); let s := atWork (.fn (.pf 0)) 4194844 s0; regBar (.fn (.pf 0)) .HIF_VF_CTRL 0 = some 4194844 ∧ actsAt (.fn (.pf 0)) 4194844 s0 = true ∧ selectedVf s 0 = some (.vf 0 0) ∧ (fnSt s (.vf 0 0)).mig.action.isSome = true := by decide +kernel

theorem witness_PortLinksAndFlowControl_0 :
    let s := modLport 15 (fun p => { p with starting := true }) up; (lport s 15).starting = true := by decide +kernel

theorem witness_PortLinksAndFlowControl_1 :
    let s := modLport 15 (fun p => { p with up := true }) up; (lport s 15).up = true := by decide +kernel

theorem witness_PortLinksAndFlowControl_2 :
    let s := setReg .MAC_LP_FEC_CFG 0 0 5 (modLport 0 (fun p => { p with up := true }) up); (lport s 0).up = true ∧ fld (reg s .MAC_LP_FEC_CFG 0 0) 15 0 < 6 := by decide +kernel

theorem witness_PortLinksAndFlowControl_3 :
    let s := setReg .MAC_LP_FEC_CFG 0 0 5 (modLport 0 (fun p => { p with up := true }) up); (lport s 0).up = true ∧ 5 ≤ fld (reg s .MAC_LP_FEC_CFG 0 0) 15 0 := by decide +kernel

theorem witness_PortLinksAndFlowControl_4 :
    (let off := 0x800000 + regOff .MAC_PORT_CFG 1; let s0 := awake [.macPort 0, .macPort 1, .rel] up; let s := atWork .mgmt off s0; regBar .mgmt .MAC_PORT_CFG 1 = some off ∧ actsAt .mgmt off s0 = true ∧ mayWrite s (asPath .mgmt) .MAC_PORT_CFG = true ∧ 1 < 2 ∧ wbit (reg s .MAC_PORT_CFG 1 0) 31 = false ∧ wbit (applyWrite .MAC_PORT_CFG (reg s .MAC_PORT_CFG 1 0) 0x80000000) 31 = true) ∧
    (let s := atWork .mgmt (0x800000 + regOff .MAC_PORT_CFG 1) (awake [.macPort 0, .macPort 1, .rel] up); mayWrite s (asPath .mgmt) .MAC_PORT_CFG = true ∧ wbit (reg s .MAC_PORT_CFG 1 0) 31 = false ∧ wbit (applyWrite .MAC_PORT_CFG (reg s .MAC_PORT_CFG 1 0) 0) 31 = false) := by
  refine ⟨?_, ?_⟩
  · decide +kernel
  · decide +kernel

theorem witness_PortLinksAndFlowControl_5 :
    let s := setReg .MAC_LP_CFG 0 0 0x80000000 (setReg .MAC_LP_FC_CFG 0 0 1 (modLport 0 (fun p => { p with up := true }) up)); (lport s 0).up = true ∧ wbit (lpCfg s 0) 31 = true ∧ fcMode s 0 = 1 := by decide +kernel

theorem witness_PortLinksAndFlowControl_6 :
    let s := modPrio 15 7 (fun x => { x with holdUntil := some 9 }) up; (prioSt s 15 7).holdUntil = some 9 := by decide +kernel

theorem witness_PortLinksAndFlowControl_7 :
    let s := setReg .MAC_LP_FC_CFG 0 0 1 (setReg .MAC_LP_XON_CELLS 0 0 0 (modPrio 0 0 (fun x => { x with xoff := true }) up)); (prioSt s 0 0).xoff = true ∧ lossless s 0 0 = true ∧ xonCells s 0 0 ≤ cellsHeld s 0 0 := by decide +kernel

theorem witness_PortLinksAndFlowControl_8 :
    let s := setReg .MAC_LP_WD_CFG 0 0 1 (modPrio 0 7 (fun x => { x with holdUntil := some 1000000 }) up); (prioSt s 0 7).holdUntil = some 1000000 ∧ wdTime s 0 ≠ 0 ∧ (prioSt s 0 7).rxStorm = false ∧ (prioSt s 0 7).heldSince + wdTime s 0 ≤ 1000000 := by decide +kernel

theorem witness_PortLinksAndFlowControl_9 :
    let s := setReg .MAC_LP_FC_CFG 0 0 0x8002 (setReg .MAC_LP_WD_CFG 0 0 1 (modPrio 0 7 (fun x => { x with xoff := true }) up)); wdTime s 0 ≠ 0 ∧ (prioSt s 0 7).xoff = true ∧ lossless s 0 7 = true := by decide +kernel

theorem witness_PortLinksAndFlowControl_10 :
    (let s := modPrio 3 2 (fun x => { x with rxStorm := true }) up; (prioSt s 3 2).rxStorm = true ∧ (prioSt s 3 2).txStorm = false) ∧
    (let s := modPrio 3 2 (fun x => { x with rxStorm := true, txStorm := true, belowSince := some 4 }) up; (prioSt s 3 2).rxStorm = true ∧ (prioSt s 3 2).txStorm = true ∧ (prioSt s 3 2).belowSince = some 4) := by
  refine ⟨?_, ?_⟩
  · decide +kernel
  · decide +kernel

theorem witness_PortLinksAndFlowControl_11 :
    let s := modPrio 3 2 (fun x => { x with txStorm := true, belowSince := some 4 }) up; (prioSt s 3 2).rxStorm = false ∧ (prioSt s 3 2).txStorm = true ∧ (prioSt s 3 2).belowSince = some 4 := by decide +kernel

theorem witness_PortFramesAndFilters_0 :
    (let s := modLport 0 (fun p => { p with up := true }) up; (lport s 0).up = true ∧ (List.replicate 59 (0 : Byte)).length + 4 < 64) ∧
    (let s := setReg .MAC_LP_CFG 0 0 0x80000040 (modLport 0 (fun p => { p with up := true }) up); (lport s 0).up = true ∧ 64 ≤ (List.replicate 61 (0 : Byte)).length + 4 ∧ maxFrame s 0 < (List.replicate 61 (0 : Byte)).length + 4) := by
  refine ⟨?_, ?_⟩
  · decide +kernel
  · decide +kernel

theorem witness_PortFramesAndFilters_1 :
    (let s := setReg .MAC_LP_CFG 0 0 0x40 (modLport 0 (fun p => { p with up := true }) up); let b := List.replicate 60 (0xFF : Byte); (lport s 0).up = true ∧ 64 ≤ b.length + 4 ∧ b.length + 4 ≤ maxFrame s 0 ∧ wbit (lpCfg s 0) 31 = false) ∧
    (let s := setReg .MAC_LP_CFG 0 0 0x80000040 (modLport 0 (fun p => { p with up := true }) up); let b := List.replicate 60 (0 : Byte); (lport s 0).up = true ∧ 64 ≤ b.length + 4 ∧ b.length + 4 ≤ maxFrame s 0 ∧ wbit (lpCfg s 0) 31 = true ∧ beAt b 12 2 ≠ 0x8808 ∧ admitted s 0 b = false) ∧
    (let s := setReg .MAC_LP_CFG 0 0 0x80000040 (modLport 0 (fun p => { p with up := true }) up); let b := List.replicate 60 (0xFF : Byte); (lport s 0).up = true ∧ 64 ≤ b.length + 4 ∧ b.length + 4 ≤ maxFrame s 0 ∧ wbit (lpCfg s 0) 31 = true ∧ beAt b 12 2 ≠ 0x8808 ∧ admitted s 0 b = true) := by
  refine ⟨?_, ?_, ?_⟩
  · decide +kernel
  · decide +kernel
  · decide +kernel

theorem witness_PortFramesAndFilters_2 :
    (let off := (regBar .mgmt .MAC_FLT_CTRL 0).getD 0; let s0 := awake [.macPort 0, .macPort 1, .rel] (up); let s := atWork .mgmt off s0; regBar .mgmt .MAC_FLT_CTRL 0 = some off ∧ actsAt .mgmt off s0 = true ∧ (let e := fltData s .mgmt; mayWrite s .mgmt .MAC_FLT_CTRL = true ∧ fltOwns s .mgmt (fltVport e) = true ∧ lpUsed s (fltLport e) = true ∧ leAt e 6 2 < 8192 ∧ byteAt e 10 < 4 ∧ leAt e 11 5 = 0 ∧ (s.mac.filters.filter (fun x => fltValid x.2)).any (fun x => fltKey x.2 == fltKey e) = false ∧ (s.mac.filters.filter (fun x => fltValid x.2)).length < 32768)) ∧
    (∃ i, (pickFree [] 32768 up).1 = some i) := by
  refine ⟨?_, ?_⟩
  · decide +kernel
  · unfold pickFree
    dsimp only
    split
    · exact ⟨_, rfl⟩
    · exact ⟨0, by simp⟩

theorem witness_PortFramesAndFilters_3 :
    let e := List.replicate 16 (0 : Byte); let off := (regBar .mgmt .MAC_FLT_CTRL 0).getD 0; let s0 := awake [.macPort 0, .macPort 1, .rel] (modMac (fun m => { m with filters := [(32767, e)] }) up); let s := atWork .mgmt off s0; regBar .mgmt .MAC_FLT_CTRL 0 = some off ∧ actsAt .mgmt off s0 = true ∧ mayWrite s .mgmt .MAC_FLT_CTRL = true ∧ mfind s.mac.filters (32767 % 32768) = some e ∧ fltOwns s .mgmt (fltVport e) = true := by decide +kernel

theorem witness_PortFramesAndFilters_4 :
    let e := List.replicate 16 (0 : Byte); let off := (regBar .firmware .MAC_FLT_CTRL 0).getD 0; let s0 := awake [.macPort 0, .macPort 1, .rel] (modMac (fun m => { m with filters := [(0, e)] }) up); let s := atWork .firmware off s0; regBar .firmware .MAC_FLT_CTRL 0 = some off ∧ actsAt .firmware off s0 = true ∧ mayWrite s .firmware .MAC_FLT_CTRL = true ∧ mfind s.mac.filters (32768 % 32768) = some e ∧ fltOwns s .firmware (fltVport e) = true := by decide +kernel

theorem witness_PortFramesAndFilters_5 :
    let e := List.replicate 16 (0 : Byte); let off := (regBar (.fn (.pf 0)) .MAC_FLT_CTRL 0).getD 0; let s0 := awake [.macPort 0, .macPort 1, .rel] (modMac (fun m => { m with filters := [(0, e)] }) up); let s := atWork (.fn (.pf 0)) off s0; regBar (.fn (.pf 0)) .MAC_FLT_CTRL 0 = some off ∧ actsAt (.fn (.pf 0)) off s0 = true ∧ mayWrite s (.fn (.pf 0)) .MAC_FLT_CTRL = true ∧ mfind s.mac.filters (0 % 32768) = some e ∧ fltOwns s (.fn (.pf 0)) (fltVport e) = false := by decide +kernel

theorem witness_PortFramesAndFilters_6 :
    let off := (regBar .mgmt .MAC_LP_STAT_SNAP 8).getD 0; let s0 := awake [.macPort 0, .macPort 1, .rel] (up); let s := atWork .mgmt off s0; regBar .mgmt .MAC_LP_STAT_SNAP 8 = some off ∧ actsAt .mgmt off s0 = true ∧ mayWrite s .mgmt .MAC_LP_STAT_SNAP = true ∧ lpUsed s 8 = true := by decide +kernel

theorem witness_ManagementMac_0 :
    let m : ChMsg := { words := [] }; let s := modMsgs 1 (fun _ => [m]) up; chMsgs s 1 = m :: [] ∧ mgtTxStatus s m ≠ 0 := by decide +kernel

theorem witness_ManagementMac_1 :
    let m : ChMsg := { words := [0x12 + 3 * 2 ^ 32, 14, 7] }; let x : Handle := { owner := .domain 0, bytes := List.replicate 14 0 }; let s := setReg .MGT_CFG 0 0 0x80000000 (modMgt (fun y => { y with linkUp := true }) (modSvc (fun v => { v with handles := [(3, x)], channels := [(1, { msgs := [m] })] }) up)); chMsgs s 1 = m :: [] ∧ mgtTxStatus s m = 0 ∧ leAt (m.words.map (leBytes 8)).flatten 4 4 = 3 ∧ mfind s.svc.handles 3 = some x ∧ mgtRuns s = true ∧ ncsiPasses s (beAt x.bytes 0 6) = true := by decide +kernel

theorem witness_ManagementMac_2 :
    let s := modMgt (fun m => { m with sending := true, queue := [(3, [1])] }) up; s.mgt.sending = true ∧ s.mgt.queue = (3, [1]) :: [] := by decide +kernel

theorem witness_ManagementMac_3 :
    let s := setReg .MGT_CFG 0 0 1 (modMgt (fun m => { m with sending := true, queue := [(3, [1])], attempts := 14 }) up); mgtHalf s = true ∧ s.mgt.sending = true ∧ 512 ≤ 512 ∧ s.mgt.attempts + 1 < 16 := by decide +kernel

theorem witness_ManagementMac_4 :
    let s := setReg .MGT_CFG 0 0 1 (modMgt (fun m => { m with sending := true, queue := [(3, [1])] }) up); mgtHalf s = true ∧ s.mgt.sending = true ∧ 512 < 513 := by decide +kernel

theorem witness_ManagementMac_5 :
    let s := modMgt (fun m => { m with backoffUntil := some 5 }) up; s.mgt.backoffUntil = some 5 := by decide +kernel

theorem witness_ManagementMac_6 :
    let s := setReg .MGT_CFG 0 0 1 (modMgt (fun m => { m with carrier := true, queue := [(3, [1])] }) up); s.mgt.carrier = true ∧ mgtHalf s = true ∧ s.mgt.queue ≠ [] := by decide +kernel

theorem witness_ManagementMac_7 :
    up.mgt.linkUp = false ∧ fastRuns up = true ∧ mgtRmii up = false := by decide +kernel

theorem witness_ManagementMac_8 :
    (modMgt (fun m => { m with linkUp := true }) up).mgt.linkUp = true := by decide +kernel

theorem witness_ManagementMac_9 :
    (let s := setReg .MGT_CFG 0 0 0x80000000 (modMgt (fun y => { y with linkUp := true }) up); mgtRuns s = true ∧ mgtHalf s = false ∧ 64 ≤ (List.replicate 1518 (0 : Byte)).length + 4 ∧ (List.replicate 1518 (0 : Byte)).length + 4 ≤ 1522 ∧ beAt (List.replicate 1518 (0 : Byte)) 12 2 ≠ 0x8808 ∧ ncsiForwards s (beAt (List.replicate 1518 (0 : Byte)) 6 6) = true) ∧
    (let s := setReg .MGT_CFG 0 0 0x80000000 (modMgt (fun y => { y with linkUp := true }) up); mgtRuns s = true ∧ mgtHalf s = false ∧ (List.replicate 59 (0 : Byte)).length + 4 < 64 ∧ ncsiForwards s (beAt (List.replicate 59 (0 : Byte)) 6 6) = true) := by
  refine ⟨?_, ?_⟩
  · decide +kernel
  · decide +kernel

theorem witness_ManagementMac_10 :
    let off := (regBar .mgmt .MGT_MDIO_CTRL 0).getD 0; let s0 := awake [.mgt, .rel] up; let s := atWork .mgmt off s0; regBar .mgmt .MGT_MDIO_CTRL 0 = some off ∧ actsAt .mgmt off s0 = true ∧ mayWrite s .mgmt .MGT_MDIO_CTRL = true ∧ s.mgt.mdioBusy = false := by decide +kernel

theorem witness_ManagementMac_11 :
    let off := (regBar .mgmt .MGT_MDIO_CTRL 0).getD 0; let s0 := awake [.mgt, .rel] (modMgt (fun m => { m with mdioBusy := true }) up); let s := atWork .mgmt off s0; regBar .mgmt .MGT_MDIO_CTRL 0 = some off ∧ actsAt .mgmt off s0 = true ∧ s.mgt.mdioBusy = true := by decide +kernel

theorem witness_ManagementMac_12 :
    let s := setReg .MGT_MDIO_CTRL 0 0 0x08000000 (modMgt (fun m => { m with mdioBusy := true }) up); s.mgt.mdioBusy = true ∧ mdioReads s = true := by decide +kernel

theorem witness_ManagementMac_13 :
    let s := modCai (fun c => { c with straps := 64, settings := { c.settings with ncsiPackage := 2, ncsiPorts := [0, 4, 8, 12] } }) up; mgtRmii s = true ∧ ncsiHas s 3 = true ∧ fastRuns s = true ∧ bitOf (ncsiCh s 3).aen 1 = false := by decide +kernel

theorem witness_ManagementMac_14 :
    (let s := modCai (fun c => { c with straps := 64, settings := { c.settings with ncsiPackage := 2, ncsiPorts := [0, 4, 8, 12] } }) up; mgtRmii s = true ∧ fastRuns s = true ∧ 67 / 32 = s.cai.settings.ncsiPackage ∧ ncsiHas s (67 % 32) = true ∧ (ncsiCh s 3).initial = true) ∧
    (let s := modCai (fun c => { c with straps := 64, settings := { c.settings with ncsiPackage := 2, ncsiPorts := [0, 4, 8, 12] } }) up; 68 / 32 = s.cai.settings.ncsiPackage ∧ ncsiHas s (68 % 32) = false) ∧
    (let s := modNcsi 0 (fun x => { x with initial := false }) (modCai (fun c => { c with straps := 64, settings := { c.settings with ncsiPackage := 2, ncsiPorts := [0, 4, 8, 12] } }) up); mgtRmii s = true ∧ fastRuns s = true ∧ ncsiHas s (64 % 32) = true ∧ (ncsiCh s 0).initial = false) := by
  refine ⟨?_, ?_, ?_⟩
  · decide +kernel
  · decide +kernel
  · decide +kernel

theorem witness_ManagementMac_15 :
    let s := modCai (fun c => { c with straps := 64, settings := { c.settings with ncsiPackage := 2, ncsiPorts := [0, 4, 8, 12] } }) up; mgtRmii s = true ∧ fastRuns s = true ∧ 31 / 32 ≠ s.cai.settings.ncsiPackage := by decide +kernel

theorem witness_MicrowordAlu_0 :
    ∀ op : Fin 14, let w := mword 0 (op.val + 1) 15 0; let e : Engine := { frame := 5, cycles := 63 }; let s := parsing e w; mfind s.prs.engines 63 = some e ∧ w = wordAt s e.pc ∧ e.cycles < 64 ∧ e.saved = none ∧ trapOf e w = none ∧ predOk e w = true ∧ mw w 191 189 = 0 ∧ mw w 52 49 = 0 ∧ mw w 123 120 ≠ 0 ∧ mw w 123 120 < e.g.length ∧ mw w 127 124 = op.val + 1 := by decide +kernel

theorem witness_MicrowordAlu_1 :
    (∀ op : Fin 14, let w := mword 0 (op.val + 1) 0 0; let e : Engine := { frame := 5 }; let s := parsing e w; mfind s.prs.engines 63 = some e ∧ w = wordAt s e.pc ∧ e.cycles < 64 ∧ e.saved = none ∧ trapOf e w = none ∧ predOk e w = true ∧ mw w 191 189 = 0 ∧ mw w 52 49 = 0 ∧ mw w 123 120 = 0 ∧ bitOf w 143 = false ∧ mw w 127 124 = op.val + 1) ∧
    (∀ op : Fin 14, let w := mword 0 (op.val + 1) 3 0 + 2 ^ 20 + 2 ^ 19; let e : Engine := { frame := 5 }; let s := parsing e w; mfind s.prs.engines 63 = some e ∧ w = wordAt s e.pc ∧ e.cycles < 64 ∧ e.saved = none ∧ trapOf e w = none ∧ predOk e w = false ∧ mw w 191 189 = 0 ∧ mw w 52 49 = 0 ∧ mw w 127 124 = op.val + 1) := by
  refine ⟨?_, ?_⟩
  · decide +kernel
  · decide +kernel

theorem witness_MicrowordBranchesAndSlots_0 :
    (∀ op : Fin 6, let w := mword op.val 0 0 0 + 8191 * 2 ^ 168; let e : Engine := { frame := 5, depth := 3 }; let s := parsing e w; mfind s.prs.engines 63 = some e ∧ w = wordAt s e.pc ∧ e.cycles < 64 ∧ e.saved = none ∧ trapOf e w = none ∧ mw w 191 189 = op.val) ∧
    (let w := mword 6 0 0 0; let e : Engine := { frame := 5, depth := 1 }; let s := parsing e w; mfind s.prs.engines 63 = some e ∧ w = wordAt s e.pc ∧ e.cycles < 64 ∧ e.saved = none ∧ trapOf e w = none ∧ mw w 191 189 = 6) := by
  refine ⟨?_, ?_⟩
  · decide +kernel
  · decide +kernel

theorem witness_MicrowordBranchesAndSlots_1 :
    let w := mword 7 0 0 0 + 2 ^ 20 + 2 ^ 19; let e : Engine := { frame := 5 }; let s := parsing e w; mfind s.prs.engines 63 = some e ∧ w = wordAt s e.pc ∧ e.cycles < 64 ∧ e.saved = none ∧ trapOf e w = none ∧ predOk e w = false ∧ mw w 191 189 = 7 := by decide +kernel

theorem witness_MicrowordBranchesAndSlots_2 :
    (∀ a : Fin 3, let x := [1, 3, 6].getD a.val 0; let w := mword 0 0 0 x + 7 * 2 ^ 45; let e : Engine := { frame := 5 }; let s := parsing e w; mfind s.prs.engines 63 = some e ∧ w = wordAt s e.pc ∧ e.cycles < 64 ∧ e.saved = none ∧ trapOf e w = none ∧ predOk e w = true ∧ mw w 191 189 = 0 ∧ bitOf w 167 = false ∧ bitOf w 44 = false ∧ bitOf w 82 = false ∧ mw w 52 49 = x) ∧
    (∀ v : Fin 2, let w := mword 0 0 0 2 + v.val * 2 ^ 45; let e : Engine := { frame := 5, window := List.replicate 80 0, marks := List.replicate 8 14, marked := 6, cursor := 54 }; let s := parsing e w; mfind s.prs.engines 63 = some e ∧ w = wordAt s e.pc ∧ e.cycles = 0 ∧ e.saved = none ∧ trapOf e w = none ∧ predOk e w = true ∧ mw w 191 189 = 0 ∧ bitOf w 167 = false ∧ bitOf w 44 = false ∧ bitOf w 82 = false ∧ mw w 52 49 = 2) := by
  refine ⟨?_, ?_⟩
  · decide +kernel
  · decide +kernel

theorem witness_MicrowordBranchesAndSlots_3 :
    let w := mword 0 0 0 4 + 15 * 2 ^ 45; let e : Engine := { frame := 5 }; let s := parsing e w; mfind s.prs.engines 63 = some e ∧ w = wordAt s e.pc ∧ e.cycles < 64 ∧ e.saved = none ∧ trapOf e w = some (3, mw w 48 45) ∧ mw w 52 49 = 4 ∧ 16 ≤ e.g.length := by decide +kernel

theorem witness_MicrowordBranchesAndSlots_4 :
    ∀ a : Fin 2, let w := mword 0 0 0 5 + a.val * 2 ^ 45; let e : Engine := { frame := 5, saved := some (8191, 0, 4, 0, 0) }; let s := parsing e w; mfind s.prs.engines 63 = some e ∧ w = wordAt s e.pc ∧ e.cycles < 64 ∧ e.saved = some (8191, 0, 4, 0, 0) ∧ trapOf e w = none ∧ predOk e w = true ∧ mw w 52 49 = 5 := by decide +kernel

theorem witness_MicrowordBranchesAndSlots_5 :
    let e : Engine := { frame := 5, cycles := 64 }; let s := parsing e 0; mfind s.prs.engines 63 = some e ∧ 64 ≤ e.cycles := by decide +kernel

theorem witness_ParserDispatchAndStores_0 :
    let x : Frag := { key := [1], ports := 5, at_ := 9 }; let s := modPrs (fun p => { p with frags := [(4095, x)] }) up; mfind s.prs.frags (1023 * 4 + 3) = some x := by decide +kernel

theorem witness_ParserDispatchAndStores_1 :
    (let f : Frame := { aFrame with origin := some (.pf 0, 0, 0) }; let s := framed (fun _ => f); let g := seeBindings s f; frameOf s 5 = some f ∧ f.stage = .waiting ∧ f.waitCells = false ∧ fastRuns s = true ∧ dispatchHeld s = false ∧ nextToParse s 5 f = true ∧ g.origin.isSome = true ∧ g.vport = 0xFFFF) ∧
    (let f : Frame := { aFrame with stage := .waiting }; let s := modRel (fun r => { r with units := (List.range 128).map (fun i => (i, { unitReset 0 i with st := 2 })) }) (framed (fun _ => f)); let g := seeBindings s f; let s1 := modFrame 5 (fun _ => g) s; frameOf s 5 = some f ∧ f.stage = .waiting ∧ f.waitCells = false ∧ fastRuns s = true ∧ dispatchHeld s = false ∧ nextToParse s 5 f = true ∧ (g.origin.isSome = false ∨ g.vport ≠ 0xFFFF) ∧ kindGone s1 0 = true) ∧
    (let f : Frame := { aFrame with origin := some (.vf 0 0, 0, 0) }; let s := modFn (.vf 0 0) (fun r => { r with vport := some 9 }) (setReg .HIF_VF_PERM 0 (fnCode (.vf 0 0)) 1 (framed (fun _ => f))); let g := seeBindings s f; let s1 := modFrame 5 (fun _ => g) s; frameOf s 5 = some f ∧ f.stage = .waiting ∧ f.waitCells = false ∧ fastRuns s = true ∧ dispatchHeld s = false ∧ nextToParse s 5 f = true ∧ (g.origin.isSome = false ∨ g.vport ≠ 0xFFFF) ∧ kindGone s1 0 = false ∧ spoofed s1 g = true) ∧
    (let f : Frame := aFrame; let s := framed (fun _ => f); let g := seeBindings s f; let s1 := modFrame 5 (fun _ => g) s; frameOf s 5 = some f ∧ f.stage = .waiting ∧ f.waitCells = false ∧ fastRuns s = true ∧ dispatchHeld s = false ∧ nextToParse s 5 f = true ∧ (g.origin.isSome = false ∨ g.vport ≠ 0xFFFF) ∧ kindGone s1 0 = false ∧ spoofed s1 g = false ∧ entryOf s1 g = none) ∧
    (let f : Frame := { aFrame with entryPoint := some 31 }; let s := awake [.prsPair 31] (setReg .PRS_EP 31 0 0x80000000 (modPrs (fun p => { p with image := { entries := List.replicate 31 0 ++ [0x80001FFF] } }) (framed (fun _ => f)))); let g := seeBindings s f; let s1 := modFrame 5 (fun _ => g) s; frameOf s 5 = some f ∧ f.stage = .waiting ∧ f.waitCells = false ∧ fastRuns s = true ∧ dispatchHeld s = false ∧ nextToParse s 5 f = true ∧ (g.origin.isSome = false ∨ g.vport ≠ 0xFFFF) ∧ kindGone s1 0 = false ∧ spoofed s1 g = false ∧ entryOf s1 g = some (31, 8191) ∧ engineFree s1 g 63 = true) := by
  refine ⟨?_, ?_, ?_, ?_, ?_⟩
  · decide +kernel
  · decide +kernel
  · decide +kernel
  · decide +kernel
  · decide +kernel

theorem witness_ParserDispatchAndStores_2 :
    (let s := framed (fun f => { f with fcs := crc32 f.asEntered }); ∃ f, frameOf s 5 = some f ∧ f.ended = false ∧ f.ingress % 8 = 0 ∧ f.fcs = crc32 f.asEntered) ∧
    (let s := framed (fun f => f); ∃ f, frameOf s 5 = some f ∧ f.ended = false ∧ f.ingress % 8 = 0 ∧ f.fcs ≠ crc32 f.asEntered) := by
  refine ⟨?_, ?_⟩
  · exact ⟨_, rfl, by decide +kernel⟩
  · exact ⟨_, rfl, by decide +kernel⟩

theorem witness_ParserDispatchAndStores_3 :
    let e : Engine := { frame := 5 }; let s := parsing e 0; mfind s.prs.engines 63 = some e := by decide +kernel

theorem witness_ParserDispatchAndStores_4 :
    (let s := modPrs (fun p => { p with rewriting := [31] }) up; s.prs.rewriting.contains 31 = true ∧ lineSource s 31 [0] = true) ∧
    (let s := modPrs (fun p => { p with rewriting := [31] }) up; s.prs.rewriting.contains 31 = true ∧ lineSource s 31 [0, 1] = false) := by
  refine ⟨?_, ?_⟩
  · decide +kernel
  · decide +kernel

theorem witness_ParserDispatchAndStores_5 :
    (let off := (regBar .mgmt .PRS_LOAD_CTRL 0).getD 0; let s0 := awake ([.rel] ++ unitsOfKind 0) (modPrs (fun p => { p with loading := some {} }) up); let s := atWork .mgmt off s0; regBar .mgmt .PRS_LOAD_CTRL 0 = some off ∧ actsAt .mgmt off s0 = true ∧ mayWrite s .mgmt .PRS_LOAD_CTRL = true ∧ s.prs.loading.isSome = true) ∧
    (let off := (regBar .mgmt .PRS_LOAD_CTRL 0).getD 0; let s0 := awake ([.rel] ++ unitsOfKind 0) up; let s := atWork .mgmt off s0; regBar .mgmt .PRS_LOAD_CTRL 0 = some off ∧ actsAt .mgmt off s0 = true ∧ mayWrite s .mgmt .PRS_LOAD_CTRL = true ∧ s.prs.loading = none ∧ dispatchHeld s = false) ∧
    (let off := (regBar .mgmt .PRS_LOAD_CTRL 0).getD 0; let s0 := awake ([.rel] ++ unitsOfKind 0) paused; let s := atWork .mgmt off s0; regBar .mgmt .PRS_LOAD_CTRL 0 = some off ∧ actsAt .mgmt off s0 = true ∧ mayWrite s .mgmt .PRS_LOAD_CTRL = true ∧ dispatchHeld s = true ∧ s.prs.loading = none ∧ prsFormOk (devRead s (pair64 s .PRS_LOAD_ADDR_LO .PRS_LOAD_ADDR_HI 0 0) (min 199056 (leNat (devRead s (pair64 s .PRS_LOAD_ADDR_LO .PRS_LOAD_ADDR_HI 0 0 + 8) 4)))) = false) ∧
    (let s := devOf onePrsImage paused; mayWrite s .mgmt .PRS_LOAD_CTRL = true ∧ dispatchHeld s = true ∧ s.prs.loading = none ∧ prsFormOk (devRead s (pair64 s .PRS_LOAD_ADDR_LO .PRS_LOAD_ADDR_HI 0 0) (min 199056 (leNat (devRead s (pair64 s .PRS_LOAD_ADDR_LO .PRS_LOAD_ADDR_HI 0 0 + 8) 4)))) = true ∧ imageKeyHash s = some (sha384 (ownerKey s))) := by
  refine ⟨?_, ?_, ?_, ?_⟩
  · decide +kernel
  · decide +kernel
  · decide +kernel
  · have h : min 199056 (leNat (devRead (devOf onePrsImage paused) (pair64 (devOf onePrsImage paused) .PRS_LOAD_ADDR_LO .PRS_LOAD_ADDR_HI 0 0 + 8) 4)) = 2472 := by decide +kernel
    have a : pair64 (devOf onePrsImage paused) .PRS_LOAD_ADDR_LO .PRS_LOAD_ADDR_HI 0 0 = 0 := by decide +kernel
    refine ⟨by decide +kernel, by decide +kernel, by decide +kernel, ?_, by decide +kernel⟩
    rw [h, a, onePrsImage_read]
    exact onePrsImage_form

theorem witness_ParserDispatchAndStores_6 :
    let s := modPrs (fun p => { p with loading := some {} }) up; s.prs.loading = some {} := by decide +kernel

theorem witness_ParserDispatchAndStores_7 :
    (let p : Path := .fn (.pf 0); let off := (regBar p .PRS_IND_CFG 0).getD 0; let s0 := awake ([.rel] ++ unitsOfKind 0) up; let s := atWork p off s0; regBar p .PRS_IND_CFG 0 = some off ∧ actsAt p off s0 = true ∧ mayWrite s p .PRS_IND_CFG = true ∧ indOwns s p (fld (indTable s 0).cfg 11 0) = false) ∧
    (let p : Path := .mgmt; let off := (regBar p .PRS_IND_ENTRY 0).getD 0; let s0 := awake ([.rel] ++ unitsOfKind 0) (setReg .PRS_IND_SELECT 0 (pathCode .mgmt) 0xFFFFF up); let s := atWork p off s0; regBar p .PRS_IND_ENTRY 0 = some off ∧ actsAt p off s0 = true ∧ mayWrite s p .PRS_IND_CFG = true ∧ fld (reg s .PRS_IND_SELECT 0 (pathCode p)) 9 0 = 1023 ∧ indOwns s p (fld (indTable s 1023).cfg 11 0) = true) ∧
    (let p : Path := .mgmt; let off := (regBar p .PRS_IND_CFG 0).getD 0; let s0 := awake ([.rel] ++ unitsOfKind 0) (setReg .PRS_IND_SELECT 0 (pathCode .mgmt) 0xFFFFF up); let s := atWork p off s0; regBar p .PRS_IND_CFG 0 = some off ∧ actsAt p off s0 = true ∧ mayWrite s p .PRS_IND_CFG = true ∧ indOwns s p (fld (indTable s 1023).cfg 11 0) = true ∧ indOwns s p (fld (applyWrite .PRS_IND_CFG (indTable s 1023).cfg 0x9000) 11 0) = true ∧ fld (applyWrite .PRS_IND_CFG (indTable s 1023).cfg 0x9000) 15 12 ≤ 9) := by
  refine ⟨?_, ?_, ?_⟩
  · decide +kernel
  · decide +kernel
  · decide +kernel

theorem witness_TableProgramsAndSteps_0 :
    (let hv : Bytes := [0x0F, 0xFF]; let x := 1 + 2 ^ 18 + 2 ^ 42; let s := modTbl (fun t => { t with vports := [(4095, overwrite (List.replicate 24 0) 6 [1])] }) (stepping x hv); let f := stepFrame hv; frameOf s 5 = some f ∧ f.stage = .table ∧ f.begun = true ∧ forwards s = true ∧ stKind (frameStep s f) = 1 ∧ padded 2 (joined f (frameStep s f)) = some hv ∧ beNat hv = 4095 ∧ bitOf (byteAt (stored s 3 4095) 6) 0 = true) ∧
    (let hv : Bytes := [0x10, 0x00]; let x := 1 + 2 ^ 18 + 2 ^ 42; let s := stepping x hv; let f := stepFrame hv; frameOf s 5 = some f ∧ f.stage = .table ∧ f.begun = true ∧ forwards s = true ∧ stKind (frameStep s f) = 1 ∧ padded 2 (joined f (frameStep s f)) = some hv ∧ beNat hv = 4096) := by
  refine ⟨?_, ?_⟩
  · decide +kernel
  · decide +kernel

theorem witness_TableProgramsAndSteps_1 :
    (let hv : Bytes := [0xFF, 0xFF]; let x := 2 + 2 ^ 18 + 2 ^ 42; let s := modTbl (fun t => { t with tunnels := [(65535, overwrite (List.replicate 32 0) 0 [3])] }) (stepping x hv); let f := stepFrame hv; let key := padTo 26 hv; frameOf s 5 = some f ∧ f.stage = .table ∧ f.begun = true ∧ forwards s = true ∧ stKind (frameStep s f) = 2 ∧ padded 26 (joined f (frameStep s f)) = some key ∧ beAt key 0 2 = 65535 ∧ byteAt (stored s 4 65535) 0 % 4 = 3 ∧ slice (stored s 4 65535) 8 24 = slice key 2 24) ∧
    (let s := stepping 2 []; let f := stepFrame []; frameOf s 5 = some f ∧ f.stage = .table ∧ f.begun = true ∧ forwards s = true ∧ stKind (frameStep s f) = 2 ∧ padded 26 (joined f (frameStep s f)) = some (List.replicate 26 0) ∧ byteAt (stored s 4 0) 0 % 4 ≠ 3) := by
  refine ⟨?_, ?_⟩
  · decide +kernel
  · decide +kernel

theorem witness_TableProgramsAndSteps_2 :
    (let s := stepping 3 []; let f := stepFrame []; frameOf s 5 = some f ∧ f.stage = .table ∧ f.begun = true ∧ forwards s = true ∧ stKind (frameStep s f) = 3 ∧ padded 47 (joined f (frameStep s f)) = some (List.replicate 47 0) ∧ findKey s false (BitVec.ofNat 8 (stSelect (frameStep s f)) :: List.replicate 47 0) = none ∧ (moveRegOf s (bankOfKey s false (BitVec.ofNat 8 (stSelect (frameStep s f)) :: List.replicate 47 0))).active = false) ∧
    (let s := modTbl (fun t => { t with moveReg := (List.range 16).map (fun b => (b, { active := true })) }) (stepping 3 []); let f := stepFrame []; frameOf s 5 = some f ∧ f.stage = .table ∧ f.begun = true ∧ forwards s = true ∧ stKind (frameStep s f) = 3 ∧ padded 47 (joined f (frameStep s f)) = some (List.replicate 47 0) ∧ findKey s false (BitVec.ofNat 8 (stSelect (frameStep s f)) :: List.replicate 47 0) = none ∧ (moveRegOf s (bankOfKey s false (BitVec.ofNat 8 (stSelect (frameStep s f)) :: List.replicate 47 0))).active = true) ∧
    (let e : Bytes := List.replicate 48 0 ++ [3] ++ List.replicate 79 0; let s := withFlow 16777215 e (stepping 3 []); let f := stepFrame []; frameOf s 5 = some f ∧ f.stage = .table ∧ f.begun = true ∧ forwards s = true ∧ stKind (frameStep s f) = 3 ∧ padded 47 (joined f (frameStep s f)) = some (List.replicate 47 0) ∧ findKey s false (BitVec.ofNat 8 (stSelect (frameStep s f)) :: List.replicate 47 0) = some 16777215 ∧ flowAt s 16777215 = some e ∧ flowFlag e 1 = true) ∧
    (let e : Bytes := List.replicate 48 0 ++ [1] ++ List.replicate 79 0; let s := withFlow 0 e (stepping 3 []); let f := stepFrame []; frameOf s 5 = some f ∧ f.stage = .table ∧ f.begun = true ∧ forwards s = true ∧ stKind (frameStep s f) = 3 ∧ padded 47 (joined f (frameStep s f)) = some (List.replicate 47 0) ∧ findKey s false (BitVec.ofNat 8 (stSelect (frameStep s f)) :: List.replicate 47 0) = some 0 ∧ flowAt s 0 = some e ∧ flowFlag e 1 = false) := by
  refine ⟨?_, ?_, ?_, ?_⟩
  · decide +kernel
  · decide +kernel
  · decide +kernel
  · decide +kernel

theorem witness_TableProgramsAndSteps_3 :
    (let hv : Bytes := [10, 0, 0, 1]; let x := 4 + 2 ^ 18 + 3 * 2 ^ 42; let r := overwrite (List.replicate 32 0) 0 [10, 0, 0, 1]; let r := overwrite r 18 [32, 1]; let s := withRoute r (stepping x hv); let f := stepFrame hv; frameOf s 5 = some f ∧ f.stage = .table ∧ f.begun = true ∧ forwards s = true ∧ stKind (frameStep s f) = 4 ∧ joined f (frameStep s f) = some hv ∧ stCount (frameStep s f) = 1 ∧ hv.length = 4 ∧ (missedBanks s f.ctx.vrf (b2n (hv.length == 16)) (slice hv 0 16)).any (fun b => (moveRegOf s b).active) = false ∧ lookupRoute (modFrame 5 (fun f => { f with retry := [] }) s) f.ctx.vrf (b2n (hv.length == 16)) (slice hv 0 16) = some r) ∧
    (let hv : Bytes := [10, 0, 0, 1]; let x := 4 + 2 ^ 18 + 4 * 2 ^ 42; let s := stepping x hv; let f := stepFrame hv; frameOf s 5 = some f ∧ f.stage = .table ∧ f.begun = true ∧ forwards s = true ∧ stKind (frameStep s f) = 4 ∧ joined f (frameStep s f) = some [10, 0, 0, 1, 0]) := by
  refine ⟨?_, ?_⟩
  · decide +kernel
  · decide +kernel

theorem witness_TableProgramsAndSteps_4 :
    (let e : Bytes := overwrite (List.replicate 88 0) 80 [0, 0, 0xBF]; let s := modTbl (fun t => { t with acl := [(16383, e)] }) (stepping (5 + 63 * 2 ^ 24) []); let f := stepFrame []; frameOf s 5 = some f ∧ f.stage = .table ∧ f.begun = true ∧ forwards s = true ∧ stKind (frameStep s f) = 5 ∧ padded 40 (joined f (frameStep s f)) = some (List.replicate 40 0) ∧ aclMatch s (stSelect (frameStep s f) % 64) (List.replicate 40 0) = some e) ∧
    (let s := stepping 5 []; let f := stepFrame []; frameOf s 5 = some f ∧ f.stage = .table ∧ f.begun = true ∧ forwards s = true ∧ stKind (frameStep s f) = 5 ∧ padded 40 (joined f (frameStep s f)) = some (List.replicate 40 0) ∧ aclMatch s (stSelect (frameStep s f) % 64) (List.replicate 40 0) = none) := by
  refine ⟨?_, ?_⟩
  · decide +kernel
  · decide +kernel

theorem witness_TableProgramsAndSteps_5 :
    (let f : Frame := { aFrame with stage := .table }; let s := setReg .TBL_PROG_MISS 0 0 0x80000000 (framed (fun _ => f)); frameOf s 5 = some f ∧ f.stage = .table ∧ f.begun = false ∧ forwards s = true ∧ blockWaits s 7 = false ∧ kindGone s 6 = false ∧ unitDead s 0x700 = false ∧ f.flowIndex = none ∧ wbit (reg s .TBL_PROG_MISS (byteAt f.hv 58) 0) 31 = true) ∧
    (let f : Frame := { aFrame with stage := .table }; let s := framed (fun _ => f); frameOf s 5 = some f ∧ f.stage = .table ∧ f.begun = false ∧ forwards s = true ∧ blockWaits s 7 = false ∧ kindGone s 6 = false ∧ unitDead s 0x700 = false ∧ f.flowIndex = none ∧ wbit (reg s .TBL_PROG_MISS (byteAt f.hv 58) 0) 31 = false) ∧
    (let f : Frame := { aFrame with stage := .table, flowIndex := some 16777215 }; let e : Bytes := List.replicate 128 0; let s := modTbl (fun t => { t with flows := [(16777215, e)] }) (framed (fun _ => f)); frameOf s 5 = some f ∧ f.stage = .table ∧ f.begun = false ∧ forwards s = true ∧ blockWaits s 7 = false ∧ kindGone s 6 = false ∧ unitDead s 0x700 = false ∧ f.flowIndex = some 16777215 ∧ flowAt s 16777215 = some e) := by
  refine ⟨?_, ?_, ?_⟩
  · decide +kernel
  · decide +kernel
  · decide +kernel

theorem witness_TableProgramsAndSteps_6 :
    let f : Frame := { aFrame with stage := .table }; let s := modCai (fun c => { c with domains := [(0x700, { dead := true })] }) (framed (fun _ => f)); frameOf s 5 = some f ∧ f.stage = .table ∧ f.begun = false ∧ forwards s = true ∧ blockWaits s 7 = false ∧ unitDead s 0x700 = true := by decide +kernel

theorem witness_ActionEntries_0 :
    ∀ op ∈ [0x00, 0x01, 0x02, 0x03, 0x08, 0x09, 0x0A, 0x0B, 0x0C, 0x0D, 0x10, 0x11, 0x12, 0x20, 0x21, 0x22, 0x23, 0x24, 0x25, 0x28, 0x30, 0x31], let f := { actFrame [op, 0] with executed := 31 }; let s := framed (fun _ => f); frameOf s 5 = some f ∧ mayAct s 5 f = true ∧ openLists f = [[op, 0]] ∧ f.executed < 32 ∧ op % 256 = op := by decide +kernel

theorem witness_ActionEntries_1 :
    (let w := 0x18 + 65535 * 2 ^ 8 + 1 * 2 ^ 35; let f := { actFrame [w] with executed := 31 }; let s := framed (fun _ => f); frameOf s 5 = some f ∧ mayAct s 5 f = true ∧ openLists f = [[w]] ∧ f.executed < 32 ∧ w % 256 = 0x18 ∧ (cipherMarks s w f).isSome = true ∧ s.cry.cache.contains (bits w 27 8) = false ∧ s.cry.fetching.contains (bits w 27 8) = false) ∧
    (let w := 0x19 + 65535 * 2 ^ 8 + 1 * 2 ^ 35; let f := actFrame [w]; let s := modCry (fun c => { c with cache := [65535] }) (framed (fun _ => f)); frameOf s 5 = some f ∧ mayAct s 5 f = true ∧ openLists f = [[w]] ∧ f.executed < 32 ∧ w % 256 = 0x19 ∧ (cipherMarks s w f).isSome = true ∧ s.cry.cache.contains (bits w 27 8) = true) ∧
    (let w := 0x19 + 65535 * 2 ^ 8 + 1 * 2 ^ 35; let f := actFrame [w]; let s := modCry (fun c => { c with fetching := [65535] }) (framed (fun _ => f)); frameOf s 5 = some f ∧ mayAct s 5 f = true ∧ openLists f = [[w]] ∧ w % 256 = 0x19 ∧ (cipherMarks s w f).isSome = true ∧ s.cry.cache.contains (bits w 27 8) = false ∧ s.cry.fetching.contains (bits w 27 8) = true) ∧
    (let w := 0x18 + 1 * 2 ^ 35 + 7 * 2 ^ 32; let f := actFrame [w]; let s := framed (fun _ => f); frameOf s 5 = some f ∧ mayAct s 5 f = true ∧ openLists f = [[w]] ∧ f.executed < 32 ∧ w % 256 = 0x18 ∧ cipherMarks s w f = none) := by
  refine ⟨?_, ?_, ?_, ?_⟩
  · decide +kernel
  · decide +kernel
  · decide +kernel
  · decide +kernel

theorem witness_ActionEntries_2 :
    (let f := actFrame []; let s := framed (fun _ => f); frameOf s 5 = some f ∧ mayAct s 5 f = true ∧ openLists f = []) ∧
    (let f := { actFrame [1] with executed := 31 }; let s := framed (fun _ => f); frameOf s 5 = some f ∧ mayAct s 5 f = true ∧ openLists f = [[1]] ∧ f.executed < 32 ∧ ((acOp 1 == 0x18 || acOp 1 == 0x19) && (cipherMarks s 1 f).isSome) = false) ∧
    (let f := { actFrame [1] with executed := 32 }; let s := framed (fun _ => f); frameOf s 5 = some f ∧ mayAct s 5 f = true ∧ openLists f = [[1]] ∧ 32 ≤ f.executed) ∧
    (let f := { actFrame [] with stage := .finished }; let s := framed (fun _ => f); frameOf s 5 = some f ∧ f.stage = .finished) := by
  refine ⟨?_, ?_, ?_, ?_⟩
  · decide +kernel
  · decide +kernel
  · decide +kernel
  · decide +kernel

theorem witness_ActionEntries_3 :
    (let f := { actFrame [] with marks := List.replicate 7 none ++ [some 52] }; let w := 7 * 2 ^ 8 + 4 * 2 ^ 11 + 3 * 2 ^ 20; markAt f (bits w 10 8) = some 52 ∧ 52 + bits w 19 11 + bits w 21 20 + 1 ≤ min 512 f.bytes.length) ∧
    (let f := { actFrame [] with bytes := overwrite (List.replicate 60 0) 48 ([0x45] ++ List.replicate 7 0 ++ [2]) , marks := [some 48] }; markAt f 0 = some 48 ∧ ipVersion f.bytes 48 = 4 ∧ 48 + 12 ≤ f.bytes.length ∧ 1 < byteAt f.bytes (48 + 8)) ∧
    (let f := { actFrame [] with bytes := overwrite (List.replicate 60 0) 48 ([0x60] ++ List.replicate 6 0 ++ [2]) , marks := [some 48] }; markAt f 0 = some 48 ∧ ipVersion f.bytes 48 = 6 ∧ 48 + 12 ≤ f.bytes.length ∧ 1 < byteAt f.bytes (48 + 7)) ∧
    (let f := actFrame []; let w := 1048575 * 2 ^ 8 + 3; ∃ l, markAt f 0 = some 14 ∧ actionList up (bits w 31 8) = some l) := by
  refine ⟨?_, ?_, ?_, ?_⟩
  · decide +kernel
  · decide +kernel
  · decide +kernel
  · exact ⟨_, rfl, rfl⟩

theorem witness_LearningAgingAndMeters_0 :
    (let l : Learn := { vsi := 4095, vport := 3, mac := 0x020000000001, vid := 1, ts := 0 }; let s := modTbl (fun t => { t with learnQ := [l], vsis := [(4095, overwrite (List.replicate 32 0) 0 [3])] }) up; let v := vsiOf s l.vsi; let key := learnKey (byteAt v 1) l; s.tbl.learnQ = [l] ∧ bankBusy s (bankOfKey s false key) = false ∧ bitOf (byteAt v 0) 0 = true ∧ bitOf (byteAt v 0) 1 = true ∧ findKey (modTbl (fun t => { t with learnQ := [] }) s) false key = none) ∧
    (let l : Learn := { vsi := 0, vport := 3, mac := 0x020000000001, vid := 1, ts := 0 }; let s := modTbl (fun t => { t with learnQ := [l], vsis := [(0, overwrite (List.replicate 32 0) 0 [3])] }) up; let v := vsiOf s l.vsi; let key := learnKey (byteAt v 1) l; let e := key ++ List.replicate 80 0; let s := withFlow 9 e s; s.tbl.learnQ = [l] ∧ bankBusy s (bankOfKey s false key) = false ∧ bitOf (byteAt (vsiOf s l.vsi) 0) 0 = true ∧ bitOf (byteAt (vsiOf s l.vsi) 0) 1 = true ∧ findKey (modTbl (fun t => { t with learnQ := [] }) s) false key = some 9 ∧ flowAt s 9 = some e) ∧
    (let l : Learn := { vsi := 0, vport := 3, mac := 0x020000000001, vid := 1, ts := 0 }; let s := modTbl (fun t => { t with learnQ := [l] }) up; let v := vsiOf s l.vsi; s.tbl.learnQ = [l] ∧ bankBusy s (bankOfKey s false (learnKey (byteAt v 1) l)) = false ∧ bitOf (byteAt v 0) 0 = false) := by
  refine ⟨?_, ?_, ?_⟩
  · decide +kernel
  · decide +kernel
  · decide +kernel

theorem witness_LearningAgingAndMeters_1 :
    (let e : Bytes := overwrite (List.replicate 128 0) 48 [5, 0, 0, 0, 0, 0x80]; let e := overwrite e 64 [0x20, 3]; mfind up.tbl.locks 9 = none ∧ flowFlag e 2 = true ∧ bitOf (flowOwner e) 15 = true ∧ entryVport e = some 3) ∧
    (let e : Bytes := overwrite (List.replicate 128 0) 48 [5]; mfind up.tbl.locks 9 = none ∧ flowFlag e 2 = true ∧ vportFrozen up (flowOwner e) = false ∧ entryVport e ≠ some 3 ∧ candValid e = false) ∧
    (let e : Bytes := overwrite (overwrite (List.replicate 128 0) 48 [5]) 56 [3, 0x80]; let l : Learn := { vsi := 0, vport := 3, mac := 1, vid := 1, ts := 999999 }; mfind up.tbl.locks 9 = none ∧ flowFlag e 2 = true ∧ vportFrozen up (flowOwner e) = false ∧ entryVport e ≠ some l.vport ∧ candValid e = true ∧ candVport e = l.vport ∧ l.ts < candSince e + moveHold (List.replicate 32 0)) := by
  refine ⟨?_, ?_, ?_⟩
  · decide +kernel
  · decide +kernel
  · decide +kernel

theorem witness_LearningAgingAndMeters_2 :
    ∀ a ∈ [(0x0F, true, false), (0x07, false, false), (0x17, false, true)], let e : Bytes := overwrite (List.replicate 128 0) 48 [1, BitVec.ofNat 8 a.1]; let s := setReg .TBL_AGE_PERIOD 6 0 1 (withFlow 16777215 e up); flowAt s 16777215 = some e ∧ agePeriod s (byteAt e 49 % 8) ≠ 0 ∧ bankBusy s (bankOfKey s false (flowKey e)) = false ∧ mfind s.tbl.locks 16777215 = none ∧ vportFrozen s (flowOwner e) = false ∧ bitOf (byteAt e 49) 3 = a.2.1 ∧ (a.2.1 = true ∨ bitOf (byteAt e 49) 4 = a.2.2) := by decide +kernel

theorem witness_LearningAgingAndMeters_3 :
    (let p : Path := .mgmt; let off := (regBar p .TM_METER_CTRL 0).getD 0; let s0 := awake [.packet, .rel] (setReg .TM_METER_SELECT 0 (pathCode .mgmt) 0x3FFFF up); let s := atWork p off s0; regBar p .TM_METER_CTRL 0 = some off ∧ actsAt p off s0 = true ∧ mayWrite s p .TM_METER_CTRL = true ∧ selectedMeter s p = 262143 ∧ meterOwns s p (mtOwner (meterOf s 262143)) = true ∧ meterOwns s p (bits (meterData s p) 31 16) = true ∧ meterOk (meterData s p) = true) ∧
    (let p : Path := .mgmt; let off := (regBar p .TM_METER_CTRL 0).getD 0; let s0 := awake [.packet, .rel] (setReg .TM_METER_DATA 0 (pathCode .mgmt) 8 up); let s := atWork p off s0; regBar p .TM_METER_CTRL 0 = some off ∧ actsAt p off s0 = true ∧ mayWrite s p .TM_METER_CTRL = true ∧ meterOwns s p (mtOwner (meterOf s 0)) = true ∧ meterOwns s p (bits (meterData s p) 31 16) = true ∧ meterOk (meterData s p) = false) ∧
    (let p : Path := .fn (.pf 0); let off := (regBar p .TM_METER_CTRL 0).getD 0; let s0 := awake [.packet, .rel] (up); let s := atWork p off s0; regBar p .TM_METER_CTRL 0 = some off ∧ actsAt p off s0 = true ∧ mayWrite s p .TM_METER_CTRL = true ∧ meterOwns s p (mtOwner (meterOf s 0)) = false) := by
  refine ⟨?_, ?_, ?_⟩
  · decide +kernel
  · decide +kernel
  · decide +kernel

theorem witness_LearningAgingAndMeters_4 :
    (let p : Path := .mgmt; let off := (regBar p .TM_METER_CTRL 0).getD 0; let s0 := awake [.packet, .rel] (up); let s := atWork p off s0; regBar p .TM_METER_CTRL 0 = some off ∧ actsAt p off s0 = true ∧ mayWrite s p .TM_METER_CTRL = true ∧ meterOwns s p (mtOwner (meterOf s (selectedMeter s p))) = true) ∧
    (let p : Path := .fn (.pf 0); let off := (regBar p .TM_METER_CTRL 0).getD 0; let s0 := awake [.packet, .rel] (up); let s := atWork p off s0; regBar p .TM_METER_CTRL 0 = some off ∧ actsAt p off s0 = true ∧ mayWrite s p .TM_METER_CTRL = true ∧ meterOwns s p (mtOwner (meterOf s (selectedMeter s p))) = false) := by
  refine ⟨?_, ?_⟩
  · decide +kernel
  · decide +kernel

theorem witness_TableOperations_0 :
    (let bs : Bytes := List.replicate 128 0; let w := tblWork 1 0 0 0 bs; let s := tblQ w; nextWork s (.pf 0) 0 3 1 = some w ∧ (queue s (.pf 0) 0).work.any (fun x => x.cls == 3 && x.started && x.done.isNone) = false ∧ readsOf w = some (bs, 0) ∧ opTable w = 0 ∧ flowFlag (flowRecord false bs) 0 = false) ∧
    (let bs : Bytes := flowOf 8; let w := tblWork 1 0 0 0 bs; let s := tblQ w; let e := flowRecord false bs; nextWork s (.pf 0) 0 3 1 = some w ∧ (queue s (.pf 0) 0).work.any (fun x => x.cls == 3 && x.started && x.done.isNone) = false ∧ readsOf w = some (bs, 0) ∧ opTable w = 0 ∧ flowFlag e 0 = true ∧ (listOf (slice e 64 64)).all actionOk = true ∧ flowRights s (.pf 0) e = false) ∧
    (let bs : Bytes := flowOf 7; let w := tblWork 1 0 0 0 bs; let s := withFlow 16777215 (flowOf 7) (tblQ w); let e := flowRecord false bs; nextWork s (.pf 0) 0 3 1 = some w ∧ (queue s (.pf 0) 0).work.any (fun x => x.cls == 3 && x.started && x.done.isNone) = false ∧ readsOf w = some (bs, 0) ∧ opTable w = 0 ∧ flowFlag e 0 = true ∧ (listOf (slice e 64 64)).all actionOk = true ∧ flowRights s (.pf 0) e = true ∧ flowFrozen s (.pf 0) e = false ∧ findKey s false (flowKey e) = some 16777215 ∧ opOpt w 0 = false) ∧
    (let bs : Bytes := flowOf 7; let w := tblWork 1 0 0 0 bs; let s := tblQ w; let e := flowRecord false bs; nextWork s (.pf 0) 0 3 1 = some w ∧ (queue s (.pf 0) 0).work.any (fun x => x.cls == 3 && x.started && x.done.isNone) = false ∧ readsOf w = some (bs, 0) ∧ opTable w = 0 ∧ flowFlag e 0 = true ∧ (listOf (slice e 64 64)).all actionOk = true ∧ flowRights s (.pf 0) e = true ∧ flowFrozen s (.pf 0) e = false ∧ findKey s false (flowKey e) = none ∧ bankBusy s (bankOfKey s false (flowKey e)) = false) := by
  refine ⟨?_, ?_, ?_, ?_⟩
  · decide +kernel
  · decide +kernel
  · decide +kernel
  · decide +kernel

theorem witness_TableOperations_1 :
    (let bs : Bytes := List.replicate 64 0; let w := tblWork 2 0 0 0 bs; let s := tblQ w; nextWork s (.pf 0) 0 3 2 = some w ∧ (queue s (.pf 0) 0).work.any (fun x => x.cls == 3 && x.started && x.done.isNone) = false ∧ readsOf w = some (bs, 0) ∧ opTable w = 0 ∧ bankBusy s (bankOfKey s false (slice bs 0 48)) = false ∧ findKey s false (slice bs 0 48) = none) ∧
    (let bs : Bytes := List.replicate 64 0; let w := tblWork 2 0 0 0 bs; let s := withFlow 9 (flowOf 7) (tblQ w); nextWork s (.pf 0) 0 3 2 = some w ∧ (queue s (.pf 0) 0).work.any (fun x => x.cls == 3 && x.started && x.done.isNone) = false ∧ readsOf w = some (bs, 0) ∧ opTable w = 0 ∧ bankBusy s (bankOfKey s false (slice bs 0 48)) = false ∧ findKey s false (slice bs 0 48) = some 9 ∧ flowAt s 9 = some (flowOf 7) ∧ flowStatus s (.pf 0) 0 9 (flowOf 7) true = 0) ∧
    (let bs : Bytes := List.replicate 64 0; let w := tblWork 3 0 0 0 bs; let s := tblQ w; nextWork s (.pf 0) 0 3 3 = some w ∧ (queue s (.pf 0) 0).work.any (fun x => x.cls == 3 && x.started && x.done.isNone) = false ∧ readsOf w = some (bs, 0) ∧ opTable w = 0 ∧ bankBusy s (bankOfKey s false (slice bs 0 48)) = false ∧ findKey s false (slice bs 0 48) = none) ∧
    (let bs : Bytes := List.replicate 64 0; let w := tblWork 3 0 0 0 bs; let s := withFlow 9 (flowOf 7) (tblQ w); nextWork s (.pf 0) 0 3 3 = some w ∧ (queue s (.pf 0) 0).work.any (fun x => x.cls == 3 && x.started && x.done.isNone) = false ∧ readsOf w = some (bs, 0) ∧ opTable w = 0 ∧ bankBusy s (bankOfKey s false (slice bs 0 48)) = false ∧ findKey s false (slice bs 0 48) = some 9 ∧ flowAt s 9 = some (flowOf 7) ∧ flowStatus s (.pf 0) 0 9 (flowOf 7) false = 0) ∧
    (let bs : Bytes := List.replicate 64 0; let w := tblWork 2 0 0 0 bs; let s := withFlow 9 (flowOf 8) (tblQ w); nextWork s (.pf 0) 0 3 2 = some w ∧ (queue s (.pf 0) 0).work.any (fun x => x.cls == 3 && x.started && x.done.isNone) = false ∧ readsOf w = some (bs, 0) ∧ opTable w = 0 ∧ bankBusy s (bankOfKey s false (slice bs 0 48)) = false ∧ findKey s false (slice bs 0 48) = some 9 ∧ flowAt s 9 = some (flowOf 8) ∧ flowStatus s (.pf 0) 0 9 (flowOf 8) true ≠ 0) := by
  refine ⟨?_, ?_, ?_, ?_, ?_⟩
  · decide +kernel
  · decide +kernel
  · decide +kernel
  · decide +kernel
  · decide +kernel

theorem witness_TableOperations_2 :
    (let bs : Bytes := overwrite (List.replicate 32 0) 18 [32]; let w := tblWork 1 1 0 0 bs; let s := tblQ w; nextWork s (.pf 0) 0 3 1 = some w ∧ (queue s (.pf 0) 0).work.any (fun x => x.cls == 3 && x.started && x.done.isNone) = false ∧ readsOf w = some (bs, 0) ∧ opTable w = 1 ∧ tblAdmin s (.pf 0) = false ∧ byteAt (routeRecord bs) 18 ≤ 32) ∧
    (let bs : Bytes := overwrite (List.replicate 32 0) 18 [32]; let w := tblWork 2 1 0 0 bs; let s := tblQ w; nextWork s (.pf 0) 0 3 2 = some w ∧ (queue s (.pf 0) 0).work.any (fun x => x.cls == 3 && x.started && x.done.isNone) = false ∧ readsOf w = some (bs, 0) ∧ opTable w = 1 ∧ tblAdmin s (.pf 0) = false ∧ byteAt (routeRecord bs) 18 ≤ 32) ∧
    (let bs : Bytes := overwrite (List.replicate 32 0) 18 [32]; let w := tblWork 3 1 0 0 bs; let s := tblQ w; nextWork s (.pf 0) 0 3 3 = some w ∧ (queue s (.pf 0) 0).work.any (fun x => x.cls == 3 && x.started && x.done.isNone) = false ∧ readsOf w = some (bs, 0) ∧ opTable w = 1 ∧ tblAdmin s (.pf 0) = false ∧ byteAt (routeRecord bs) 18 ≤ 32) := by
  refine ⟨?_, ?_, ?_⟩
  · decide +kernel
  · decide +kernel
  · decide +kernel

theorem witness_TableOperations_3 :
    (let bs : Bytes := []; let w := tblWork 4 3 0 7 bs; let s := tblQ w; nextWork s (.pf 0) 0 3 4 = some w ∧ (queue s (.pf 0) 0).work.any (fun x => x.cls == 3 && x.started && x.done.isNone) = false ∧ readsOf w = some (bs, 0) ∧ opTable w ≠ 0 ∧ directRights s (.pf 0) (opTable w) (opIndex w) = true) ∧
    (let bs : Bytes := []; let w := tblWork 4 3 0 8 bs; let s := tblQ w; nextWork s (.pf 0) 0 3 4 = some w ∧ (queue s (.pf 0) 0).work.any (fun x => x.cls == 3 && x.started && x.done.isNone) = false ∧ readsOf w = some (bs, 0) ∧ opTable w ≠ 0 ∧ directRights s (.pf 0) (opTable w) (opIndex w) = false) ∧
    (let bs : Bytes := List.replicate 32 0; let w := tblWork 5 5 0 4095 bs; let s := setReg .TBL_ADMIN 0 0 1 (tblQ w); nextWork s (.pf 0) 0 3 5 = some w ∧ (queue s (.pf 0) 0).work.any (fun x => x.cls == 3 && x.started && x.done.isNone) = false ∧ readsOf w = some (bs, 0) ∧ opTable w = 5 ∧ directRights s (.pf 0) (opTable w) (opIndex w) = true) ∧
    (let bs : Bytes := List.replicate 64 255; let w := tblWork 5 6 0 0 bs; let s := tblQ w; nextWork s (.pf 0) 0 3 5 = some w ∧ (queue s (.pf 0) 0).work.any (fun x => x.cls == 3 && x.started && x.done.isNone) = false ∧ readsOf w = some (bs, 0) ∧ opTable w = 6 ∧ (listOf (recordIn 6 bs)).all actionOk = false) ∧
    (let bs : Bytes := List.replicate 32 0; let w := tblWork 5 5 0 4096 bs; let s := tblQ w; nextWork s (.pf 0) 0 3 5 = some w ∧ (queue s (.pf 0) 0).work.any (fun x => x.cls == 3 && x.started && x.done.isNone) = false ∧ readsOf w = some (bs, 0) ∧ opTable w ≠ 6 ∧ opTable w ≠ 0 ∧ directRights s (.pf 0) (opTable w) (opIndex w) = false) := by
  refine ⟨?_, ?_, ?_, ?_, ?_⟩
  · decide +kernel
  · decide +kernel
  · decide +kernel
  · decide +kernel
  · decide +kernel

theorem witness_TableOperations_4 :
    (let bs : Bytes := []; let w := tblWork 4 0 0 9 bs; let s := withFlow 9 (flowOf 7) (tblQ w); nextWork s (.pf 0) 0 3 4 = some w ∧ (queue s (.pf 0) 0).work.any (fun x => x.cls == 3 && x.started && x.done.isNone) = false ∧ readsOf w = some (bs, 0) ∧ opTable w = 0 ∧ opIndex w = 9 ∧ shownFlow s 9 = some (flowOf 7) ∧ flowStatus s (.pf 0) 0 9 (flowOf 7) false = 0) ∧
    (let bs : Bytes := flowOf 6; let w := tblWork 5 0 0 9 bs; let s := withFlow 9 (flowOf 7) (tblQ w); let e := flowOf 7; let r := overwrite (flowRecord (flowFlag e 4) bs) 0 (slice e 0 48); nextWork s (.pf 0) 0 3 5 = some w ∧ (queue s (.pf 0) 0).work.any (fun x => x.cls == 3 && x.started && x.done.isNone) = false ∧ readsOf w = some (bs, 0) ∧ opTable w = 0 ∧ opIndex w = 9 ∧ shownFlow s 9 = some (flowOf 7) ∧ flowStatus s (.pf 0) 0 9 e true = 0 ∧ bitOf (byteAt bs 48) 0 = true ∧ (listOf (slice bs 64 64)).all actionOk = true ∧ flowRights s (.pf 0) r = true ∧ flowFrozen s (.pf 0) r = false ∧ bankBusy s (bankOfKey s false (flowKey e)) = false) ∧
    (let bs : Bytes := flowOf 6; let w := tblWork 7 0 0 9 bs; let s := withFlow 9 (flowOf 7) (tblQ w); let e := flowOf 7; let r := overwrite (flowRecord (flowFlag e 4) bs) 0 (slice e 0 48); nextWork s (.pf 0) 0 3 7 = some w ∧ (queue s (.pf 0) 0).work.any (fun x => x.cls == 3 && x.started && x.done.isNone) = false ∧ readsOf w = some (bs, 0) ∧ opTable w = 0 ∧ opIndex w = 9 ∧ shownFlow s 9 = some (flowOf 7) ∧ flowStatus s (.pf 0) 0 9 e true = 0 ∧ bitOf (byteAt bs 48) 0 = true ∧ (listOf (slice bs 64 64)).all actionOk = true ∧ flowRights s (.pf 0) r = true ∧ flowFrozen s (.pf 0) r = false ∧ bankBusy s (bankOfKey s false (flowKey e)) = false) ∧
    (let bs : Bytes := []; let w := tblWork 6 0 0 9 bs; let s := modTbl (fun t => { t with locks := [(9, { fn := .pf 0, sq := 1, at_ := 0 })] }) (withFlow 9 (flowOf 7) (tblQ w)); let e := overwrite (flowOf 7) 50 [1]; nextWork s (.pf 0) 0 3 6 = some w ∧ (queue s (.pf 0) 0).work.any (fun x => x.cls == 3 && x.started && x.done.isNone) = false ∧ readsOf w = some (bs, 0) ∧ opTable w = 0 ∧ opIndex w = 9 ∧ shownFlow s 9 = some e ∧ flowStatus s (.pf 0) 0 9 e false = 0 ∧ (mfind s.tbl.locks 9).isSome = true) ∧
    (let bs : Bytes := []; let w := tblWork 6 0 0 9 bs; let s := withFlow 9 (flowOf 7) (tblQ w); nextWork s (.pf 0) 0 3 6 = some w ∧ (queue s (.pf 0) 0).work.any (fun x => x.cls == 3 && x.started && x.done.isNone) = false ∧ readsOf w = some (bs, 0) ∧ opTable w = 0 ∧ opIndex w = 9 ∧ shownFlow s 9 = some (flowOf 7) ∧ flowStatus s (.pf 0) 0 9 (flowOf 7) false = 0 ∧ (mfind s.tbl.locks 9).isSome = false) ∧
    (let bs : Bytes := []; let w := tblWork 8 0 0 9 bs; let s := withFlow 9 (flowOf 7) (tblQ w); nextWork s (.pf 0) 0 3 8 = some w ∧ (queue s (.pf 0) 0).work.any (fun x => x.cls == 3 && x.started && x.done.isNone) = false ∧ readsOf w = some (bs, 0) ∧ opTable w = 0 ∧ opIndex w = 9 ∧ shownFlow s 9 = some (flowOf 7) ∧ flowStatus s (.pf 0) 0 9 (flowOf 7) true = 0) := by
  refine ⟨?_, ?_, ?_, ?_, ?_, ?_⟩
  · decide +kernel
  · decide +kernel
  · decide +kernel
  · decide +kernel
  · decide +kernel
  · decide +kernel

theorem witness_TableOperations_5 :
    (let bs : Bytes := []; let w := tblWork 9 0 0 128 bs; let s := tblQ w; nextWork s (.pf 0) 0 3 9 = some w ∧ (queue s (.pf 0) 0).work.any (fun x => x.cls == 3 && x.started && x.done.isNone) = false ∧ readsOf w = some (bs, 0) ∧ entryField w.entry 26 2 = 2 ∧ counterRights s (.pf 0) (opIndex w) 2 = false) ∧
    (let bs : Bytes := []; let w := tblWork 9 0 0 126 bs; let s := tblQ w; nextWork s (.pf 0) 0 3 9 = some w ∧ (queue s (.pf 0) 0).work.any (fun x => x.cls == 3 && x.started && x.done.isNone) = false ∧ readsOf w = some (bs, 0) ∧ entryField w.entry 26 2 = 2 ∧ counterRights s (.pf 0) (opIndex w) 2 = true ∧ opOpt w 1 = false) ∧
    (let bs : Bytes := []; let w := tblWork 9 0 2 126 bs; let s := tblQ w; nextWork s (.pf 0) 0 3 9 = some w ∧ (queue s (.pf 0) 0).work.any (fun x => x.cls == 3 && x.started && x.done.isNone) = false ∧ readsOf w = some (bs, 0) ∧ entryField w.entry 26 2 = 2 ∧ counterRights s (.pf 0) (opIndex w) 2 = true ∧ opOpt w 1 = true) := by
  refine ⟨?_, ?_, ?_⟩
  · decide +kernel
  · decide +kernel
  · decide +kernel

theorem witness_TableUpkeep_0 :
    (let s := modTbl (fun t => { t with moves := [(23, [(0, 1, 2), (3, 4, 5)])] }) up; (moveRegOf s 23).active = false ∧ mget [] s.tbl.moves 23 = (0, 1, 2) :: (3, 4, 5) :: [] ∧ movesHeld s 23 = false) ∧
    (let s := modTbl (fun t => { t with moves := [(23, [(0, 1, 2)])] }) (framed (fun f => { f with stage := .table, retry := [23] })); (moveRegOf s 23).active = false ∧ mget [] s.tbl.moves 23 = [(0, 1, 2)] ∧ movesHeld s 23 = true) := by
  refine ⟨?_, ?_⟩
  · decide +kernel
  · decide +kernel

theorem witness_TableUpkeep_1 :
    (let s := modTbl (fun t => { t with moves := [(15, [(262143, 16777215, 2)])], moveReg := [(15, { active := true })] }) up; (moveRegOf s 15).active = true ∧ (mget [] (finishMove 15 s).tbl.moves 15).isEmpty = true) ∧
    (let s := modTbl (fun t => { t with moves := [(0, [(1, 2, 3), (4, 5, 6)])], moveReg := [(0, { active := true })] }) up; (moveRegOf s 0).active = true ∧ (mget [] (finishMove 0 s).tbl.moves 0).isEmpty = false) := by
  refine ⟨?_, ?_⟩
  · decide +kernel
  · decide +kernel

theorem witness_TableUpkeep_2 :
    let l : FlowLock := { fn := .pf 0, sq := 65535, at_ := 0 }; let s := modTbl (fun t => { t with locks := [(16777215, l)] }) up; mfind s.tbl.locks 16777215 = some l := by decide +kernel

theorem witness_TableUpkeep_3 :
    let s := modTbl (fun t => { t with deletes := 1 }) up; s.tbl.routes.length < s.tbl.deletes * 4 ∧ s.tbl.rebuilding = false := by decide +kernel

theorem witness_TableUpkeep_4 :
    let s := modTbl (fun t => { t with rebuilding := true }) up; s.tbl.rebuilding = true := by decide +kernel

theorem witness_TableUpkeep_5 :
    (let p : Path := .mgmt; let off := (regBar p .TBL_HASH_SEED 1).getD 0; let s0 := awake ([.packet, .rel]) (up); let s := atWork p off s0; regBar p .TBL_HASH_SEED 1 = some off ∧ actsAt p off s0 = true ∧ mayWrite s p .TBL_HASH_SEED = true ∧ 1 < 2 ∧ tablesEmpty s = true) ∧
    (let p : Path := .mgmt; let off := (regBar p .TBL_HASH_SEED 0).getD 0; let s0 := awake ([.packet, .rel]) (modTbl (fun t => { t with flows := [(0, [])] }) up); let s := atWork p off s0; regBar p .TBL_HASH_SEED 0 = some off ∧ actsAt p off s0 = true ∧ mayWrite s p .TBL_HASH_SEED = true ∧ tablesEmpty s = false) := by
  refine ⟨?_, ?_⟩
  · decide +kernel
  · decide +kernel

theorem witness_TableUpkeep_6 :
    let p : Path := .mgmt; let off := (regBar p .TBL_PROG_WRITE 0).getD 0; let s0 := awake ([.packet, .rel]) (up); let s := atWork p off s0; regBar p .TBL_PROG_WRITE 0 = some off ∧ actsAt p off s0 = true ∧ mayWrite s p .TBL_PROG_WRITE = true := by decide +kernel

theorem witness_TableUpkeep_7 :
    let p : Path := .mgmt; let off := (regBar p .TBL_PROG_CTRL 0).getD 0; let s0 := awake ([.packet, .rel]) (up); let s := atWork p off s0; regBar p .TBL_PROG_CTRL 0 = some off ∧ actsAt p off s0 = true ∧ mayWrite s p .TBL_PROG_CTRL = true := by decide +kernel

theorem witness_HostTransmitAndScheduler_0 :
    (let bs : Bytes := List.replicate 60 0; let w : Work := { ctr := 64, entry := 1, reads := [{ addr := 0, len := 60, got := some (.data bs) }] }; let s := sq0 (fun q => { q with work := [w] }) (rings 0); nextWork s (.pf 0) 0 0 1 = some w ∧ s.tm.frames.any (fun e => e.2.waitCells && e.2.origin.any (fun o => fnPf o.1 == fnPf (.pf 0))) = false ∧ readsOf w = some (bs, 0)) ∧
    (let w : Work := { ctr := 64, entry := 1, reads := [{ addr := 0, len := 60, got := some .timeout }] }; let s := sq0 (fun q => { q with work := [w] }) (rings 0); nextWork s (.pf 0) 0 0 1 = some w ∧ s.tm.frames.any (fun e => e.2.waitCells && e.2.origin.any (fun o => fnPf o.1 == fnPf (.pf 0))) = false ∧ readsOf w = some ([], 8) ∧ 8 ≠ 0) := by
  refine ⟨?_, ?_⟩
  · decide +kernel
  · decide +kernel

theorem witness_HostTransmitAndScheduler_1 :
    (let f : Frame := { aFrame with waitCells := true }; let s := framed (fun _ => f); frameOf s 5 = some f ∧ f.waitCells = true ∧ (takeCells false 5 f.bytes.length s).isSome = true) ∧
    (let f : Frame := { aFrame with waitCells := true }; let s := modTm (fun t => { t with freeOchre := 0, freeUmber := 0, freeSienna := 0 }) (framed (fun _ => f)); frameOf s 5 = some f ∧ f.waitCells = true ∧ takeCells false 5 f.bytes.length s = none) := by
  refine ⟨?_, ?_⟩
  · decide +kernel
  · decide +kernel

theorem witness_HostTransmitAndScheduler_2 :
    (let s := setReg .TM_NODE_QLIMIT_G 0 (nodeKey 3 0) 1 up; belowLimit s 0 = true) ∧
    (let s := setReg .AKZ_QLIMIT 0 0 1 up; belowLimit s 0x2000F = true) := by
  refine ⟨?_, ?_⟩
  · decide +kernel
  · decide +kernel

theorem witness_HostTransmitAndScheduler_3 :
    let s := sched aCopy; let s0 := advanceTo ((lport s 0).freeAt / 200) s; let s1 := foldS creditPath (portQueues s0 0) (judgePort 0 s0); 0 < 16 ∧ (lport s 0).sending = none ∧ portReady s1 0 = true ∧ (pickClass s1 0).1 = some (nodeKey 3 0) ∧ forwards s = true ∧ portWaits s 0 = false := by decide +kernel

theorem witness_HostTransmitAndScheduler_4 :
    let s := sched aCopy; (nodeSt s (nodeKey 3 0)).copies.head? = some aCopy ∧ cellsPoisoned s aCopy.frame = false := ⟨by decide +kernel, rfl⟩

theorem witness_HostTransmitAndScheduler_5 :
    let k := 4 * 65536 - 1; let s := setReg .TM_NODE_RATE 0 k 1 up; k % 65536 < nodeCount (k / 65536) ∧ k < 4 * 65536 ∧ nodeRate s k ≠ 0 := by decide +kernel

theorem witness_HostTransmitAndScheduler_6 :
    (let x := { aCopy with launch := some (2 ^ 40) }; let s := sched x; (nodeSt s (nodeKey 3 0)).copies.head? = some x ∧ x.launch = some (2 ^ 40) ∧ launched s x.lport x = false) ∧
    (let x := { aCopy with launch := some 0 }; let s := sched x; (nodeSt s (nodeKey 3 0)).copies.head? = some x ∧ x.launch = some 0 ∧ launched s x.lport x = true) := by
  refine ⟨?_, ?_⟩
  · decide +kernel
  · decide +kernel

theorem witness_HostTransmitAndScheduler_7 :
    let x : Sending := { copy := aCopy, start := 0, len := 64, ts := 0, bound := 0 }; let s := modLport 15 (fun p => { p with sending := some x }) up; (lport s 15).sending = some x := by decide +kernel

theorem witness_HostTransmitAndScheduler_9 :
    let l : GateList := { entries := [(500, 255)] }; let s := modLport 15 (fun p => { p with pending := some l }) up; (lport s 15).pending = some l := by decide +kernel

theorem witness_HostTransmitAndScheduler_10 :
    let l : GateList := { entries := [(500, 255)] }; let s := setReg .MAC_GATE_CFG 0 0 1 (modLport 0 (fun p => { p with oper := some l }) up); gateEnabled s 0 = true ∧ gateListAt (lport s 0) (now s) = some l := by decide +kernel

theorem witness_HostTransmitAndScheduler_11 :
    (let p : Path := .mgmt; let off := (regBar p .MAC_GATE_COMMIT 8).getD 0; let s0 := awake ([.macPort 0, .macPort 1, .rel]) (up); let s := atWork p off s0; regBar p .MAC_GATE_COMMIT 8 = some off ∧ actsAt p off s0 = true ∧ mayWrite s p .MAC_GATE_COMMIT = true ∧ lpUsed s 8 = true ∧ adminList s 8 = none) ∧
    (let p : Path := .mgmt; let off := (regBar p .MAC_GATE_COMMIT 0).getD 0; let s0 := awake ([.macPort 0, .macPort 1, .rel]) (setReg .MAC_GATE_CFG 0 0 1 (setReg .MAC_GATE_ADMIN_LEN 0 0 1 (setReg .MAC_GATE_ADMIN_CYCLE 0 0 256 (setReg .MAC_GATE_ADMIN_ENTRY_LO 0 0 1000000000 up)))); let s := atWork p off s0; regBar p .MAC_GATE_COMMIT 0 = some off ∧ actsAt p off s0 = true ∧ mayWrite s p .MAC_GATE_COMMIT = true ∧ lpUsed s 0 = true ∧ (adminList s 0).isSome = true ∧ (lport s 0).pending = none) := by
  refine ⟨?_, ?_⟩
  · decide +kernel
  · decide +kernel

theorem witness_HostTransmitAndScheduler_12 :
    (0 < 256 ∧ 1000 + 1000 ≤ 2000) ∧
    (0 < 256 ∧ 1999 < 1000 + 1000) := by
  refine ⟨?_, ?_⟩
  · decide +kernel
  · decide +kernel

theorem witness_NodeRegistersAndCascadeFrames_0 :
    (let p : Path := .mgmt; let off := (regBar p .TM_NODE_CFG 0).getD 0; let s0 := awake ([.packet, .rel]) (setReg .TM_NODE_SELECT 0 (pathCode .mgmt) 2 up); let s := atWork p off s0; regBar p .TM_NODE_CFG 0 = some off ∧ actsAt p off s0 = true ∧ (let k := nodeKey 2 0; let new := (nodeCfg s k &&& ~~~ w32 (cfgFields 2)) ||| ((128 : Word) &&& w32 (cfgFields 2)); mayWrite s p .TM_NODE_CFG = true ∧ selectedNode s p = some k ∧ cfgRefused s k (nodeCfg s k) new = true)) ∧
    (let p : Path := .mgmt; let off := (regBar p .TM_NODE_CFG 0).getD 0; let s0 := awake ([.packet, .rel]) (setReg .TM_NODE_SELECT 0 (pathCode .mgmt) (8191 * 256 + 2) up); let s := atWork p off s0; regBar p .TM_NODE_CFG 0 = some off ∧ actsAt p off s0 = true ∧ (let k := nodeKey 2 8191; let new := (nodeCfg s k &&& ~~~ w32 (cfgFields 2)) ||| ((0x80000007 : Word) &&& w32 (cfgFields 2)); mayWrite s p .TM_NODE_CFG = true ∧ selectedNode s p = some k ∧ cfgRefused s k (nodeCfg s k) new = false ∧ wbit new 31 = true ∧ wbit (nodeCfg s k) 31 = false)) ∧
    (let p : Path := .mgmt; let off := (regBar p .TM_NODE_CFG 0).getD 0; let s0 := awake ([.packet, .rel]) (setReg .TM_NODE_SELECT 0 (pathCode .mgmt) (65535 * 256 + 3) up); let s := atWork p off s0; regBar p .TM_NODE_CFG 0 = some off ∧ actsAt p off s0 = true ∧ (let k := nodeKey 3 65535; let new := (nodeCfg s k &&& ~~~ w32 (cfgFields 3)) ||| ((8191 : Word) &&& w32 (cfgFields 3)); mayWrite s p .TM_NODE_CFG = true ∧ selectedNode s p = some k ∧ cfgRefused s k (nodeCfg s k) new = false ∧ wbit new 31 = false)) := by
  refine ⟨?_, ?_, ?_⟩
  · decide +kernel
  · decide +kernel
  · decide +kernel

theorem witness_NodeRegistersAndCascadeFrames_1 :
    (nodeReg 0x210 = some .TM_NODE_ADJ ∧ nodeReg 0x218 = some .TM_NODE_QLIMIT_G ∧ nodeReg 0x228 = some .TM_NODE_DEFQ ∧ nodeReg 0x208 = some .TM_NODE_RATE) ∧
    (let p : Path := .mgmt; let off := (regBar p .TM_NODE_ADJ 0).getD 0; let s0 := awake ([.packet, .rel]) (up); let s := atWork p off s0; regBar p .TM_NODE_ADJ 0 = some off ∧ actsAt p off s0 = true ∧ (let k := nodeKey 0 0; mayWrite s p .TM_NODE_CFG = true ∧ selectedNode s p = some k)) ∧
    (let p : Path := .mgmt; let off := (regBar p .TM_NODE_QLIMIT_G 0).getD 0; let s0 := awake ([.packet, .rel]) (setReg .TM_NODE_SELECT 0 (pathCode .mgmt) (65535 * 256 + 3) up); let s := atWork p off s0; regBar p .TM_NODE_QLIMIT_G 0 = some off ∧ actsAt p off s0 = true ∧ (let k := nodeKey 3 65535; mayWrite s p .TM_NODE_CFG = true ∧ selectedNode s p = some k ∧ k / 65536 = 3)) ∧
    (let p : Path := .mgmt; let off := (regBar p .TM_NODE_QLIMIT_G 0).getD 0; let s0 := awake ([.packet, .rel]) (setReg .TM_NODE_SELECT 0 (pathCode .mgmt) (127 * 256 + 1) up); let s := atWork p off s0; regBar p .TM_NODE_QLIMIT_G 0 = some off ∧ actsAt p off s0 = true ∧ (let k := nodeKey 1 127; mayWrite s p .TM_NODE_CFG = true ∧ selectedNode s p = some k ∧ k / 65536 ≠ 3)) ∧
    (let p : Path := .mgmt; let off := (regBar p .TM_NODE_DEFQ 0).getD 0; let s0 := awake ([.packet, .rel]) (setReg .TM_NODE_SELECT 0 (pathCode .mgmt) (127 * 256 + 1) up); let s := atWork p off s0; regBar p .TM_NODE_DEFQ 0 = some off ∧ actsAt p off s0 = true ∧ (let k := nodeKey 1 127; mayWrite s p .TM_NODE_CFG = true ∧ selectedNode s p = some k ∧ k / 65536 = 1)) ∧
    (let p : Path := .mgmt; let off := (regBar p .TM_NODE_RATE 0).getD 0; let s0 := awake ([.packet, .rel]) (setReg .TM_NODE_SELECT 0 (pathCode .mgmt) (15 * 256) up); let s := atWork p off s0; regBar p .TM_NODE_RATE 0 = some off ∧ actsAt p off s0 = true ∧ (let k := nodeKey 0 15; mayWrite s p .TM_NODE_CFG = true ∧ selectedNode s p = some k)) := by
  refine ⟨?_, ?_, ?_, ?_, ?_, ?_⟩
  · decide +kernel
  · decide +kernel
  · decide +kernel
  · decide +kernel
  · decide +kernel
  · decide +kernel

theorem witness_NodeRegistersAndCascadeFrames_2 :
    (let h : Bytes := [0, 0x08, 3, 0]; let s := modCai (fun c => { c with mode := .pause }) chained; (akzPort s 1).up = true ∧ hdType h = 0 ∧ s.akz.joined = true ∧ hdDest h = s.akz.member ∧ s.cai.mode = .pause) ∧
    (let h : Bytes := [0, 0x08, 3, 0]; let s := chained; 1 < 2 ∧ (akzPort s 1).up = true ∧ hdType h = 0 ∧ s.akz.joined = true ∧ hdDest h = s.akz.member ∧ hdKind h = 0 ∧ s.cai.mode ≠ .pause) ∧
    (∀ n ∈ [0, 1], let h : Bytes := [0, 0x10, n, 0]; let s := chained; (akzPort s 0).up = true ∧ hdType h = 0 ∧ s.akz.joined = true ∧ hdDest h ≠ s.akz.member ∧ byteAt h 2 ≤ 1) ∧
    (let h : Bytes := [0, 0x10, 2, 0]; let s := chained; (akzPort s 0).up = true ∧ hdType h = 0 ∧ s.akz.joined = true ∧ hdDest h ≠ s.akz.member ∧ 1 < byteAt h 2) := by
  refine ⟨?_, ?_, ?_, ?_⟩
  · decide +kernel
  · decide +kernel
  · decide +kernel
  · decide +kernel

theorem witness_KeysAndCiphers_0 :
    (let bs : Bytes := overwrite (recordOf 7) 1 [4]; let w := cryWork 16 9 0 0 0 bs; let s := cryQ w { owner := 7 }; let u := modWork (.pf 0) 0 w.ctr (fun w => { w with started := true }) s; nextWork s (.pf 0) 0 2 16 = some w ∧ readsOf w = some (bs, 0) ∧ recordOk (slice bs 0 64) = false) ∧
    (let bs : Bytes := overwrite (recordOf 7) 95 [1]; let w := cryWork 16 9 0 0 0 bs; let s := cryQ w { owner := 7 }; let u := modWork (.pf 0) 0 w.ctr (fun w => { w with started := true }) s; nextWork s (.pf 0) 0 2 16 = some w ∧ readsOf w = some (bs, 0) ∧ byteAt bs 2 = 0 ∧ leNat ((slice bs 64 32).drop 16) ≠ 0) ∧
    (let bs : Bytes := recordOf 8; let w := cryWork 16 9 0 0 0 bs; let s := cryQ w { owner := 7 }; let u := modWork (.pf 0) 0 w.ctr (fun w => { w with started := true }) s; nextWork s (.pf 0) 0 2 16 = some w ∧ readsOf w = some (bs, 0) ∧ recordOk (slice bs 0 64) = true ∧ leNat ((slice bs 64 32).drop 16) = 0 ∧ mayWriteSlot u (.pf 0) (ctxSlot w) (slice bs 0 64) = false) ∧
    (let bs : Bytes := recordOf 7; let w := cryWork 16 9 0 0 0 bs; let s := cryQ w { owner := 7 }; let u := modWork (.pf 0) 0 w.ctr (fun w => { w with started := true }) s; nextWork s (.pf 0) 0 2 16 = some w ∧ readsOf w = some (bs, 0) ∧ recordOk (slice bs 0 64) = true ∧ leNat ((slice bs 64 32).drop 16) = 0 ∧ mayWriteSlot u (.pf 0) (ctxSlot w) (slice bs 0 64) = true) := by
  refine ⟨?_, ?_, ?_, ?_⟩
  · decide +kernel
  · decide +kernel
  · decide +kernel
  · decide +kernel

theorem witness_KeysAndCiphers_1 :
    (let bs : Bytes := overwrite (recordOf 7) 1 [4]; let k : KeySlot := { owner := 7, kek := true, key := some [0x00, 0x01, 0x02, 0x03, 0x04, 0x05, 0x06, 0x07, 0x08, 0x09, 0x0A, 0x0B, 0x0C, 0x0D, 0x0E, 0x0F] }; let w : Work := let x := cryWork 17 9 0 0 0 bs; { x with entry := x.entry ||| BitVec.ofNat 512 (9 * 2 ^ 192) }; let s := cryQ w k; let u := modWork (.pf 0) 0 w.ctr (fun w => { w with started := true }) s; nextWork s (.pf 0) 0 2 17 = some w ∧ readsOf w = some (bs, 0) ∧ recordOk (slice bs 0 64) = false) ∧
    (let bs : Bytes := recordOf 7 ++ List.replicate 8 0; let k : KeySlot := { owner := 7, kek := true, key := some [0x00, 0x01, 0x02, 0x03, 0x04, 0x05, 0x06, 0x07, 0x08, 0x09, 0x0A, 0x0B, 0x0C, 0x0D, 0x0E, 0x0F] }; let w : Work := let x := cryWork 17 9 0 0 0 bs; { x with entry := x.entry ||| BitVec.ofNat 512 (9 * 2 ^ 192) }; let s := cryQ w k; let u := modWork (.pf 0) 0 w.ctr (fun w => { w with started := true }) s; nextWork s (.pf 0) 0 2 17 = some w ∧ readsOf w = some (bs, 0) ∧ recordOk (slice bs 0 64) = true ∧ mayWriteSlot u (.pf 0) (ctxSlot w) (slice bs 0 64) = true ∧ slot_ u (entryField w.entry 24 4 % 1048576) = k ∧ k.key.isSome = true ∧ keyUnwrap (k.key.getD []) (slice bs 64 24) = none) ∧
    (let bs : Bytes := (recordOf 7).take 64 ++ [0x1F, 0xA6, 0x8B, 0x0A, 0x81, 0x12, 0xB4, 0x47, 0xAE, 0xF3, 0x4B, 0xD8, 0xFB, 0x5A, 0x7B, 0x82, 0x9D, 0x3E, 0x86, 0x23, 0x71, 0xD2, 0xCF, 0xE5]; let k : KeySlot := { owner := 7, kek := true, key := some [0x00, 0x01, 0x02, 0x03, 0x04, 0x05, 0x06, 0x07, 0x08, 0x09, 0x0A, 0x0B, 0x0C, 0x0D, 0x0E, 0x0F] }; let w : Work := let x := cryWork 17 9 0 0 0 bs; { x with entry := x.entry ||| BitVec.ofNat 512 (9 * 2 ^ 192) }; let s := cryQ w k; let u := modWork (.pf 0) 0 w.ctr (fun w => { w with started := true }) s; nextWork s (.pf 0) 0 2 17 = some w ∧ readsOf w = some (bs, 0) ∧ recordOk (slice bs 0 64) = true ∧ mayWriteSlot u (.pf 0) (ctxSlot w) (slice bs 0 64) = true ∧ slot_ u (entryField w.entry 24 4 % 1048576) = k ∧ k.key.isSome = true ∧ (keyUnwrap (k.key.getD []) (slice bs 64 24)).isSome = true) := by
  refine ⟨?_, ?_, ?_⟩
  · decide +kernel
  · decide +kernel
  · decide +kernel

theorem witness_KeysAndCiphers_2 :
    (let bs : Bytes := List.replicate 64 0; let w := cryWork 18 9 0 0 0 bs; let s := cryQ w { owner := 8 }; let u := modWork (.pf 0) 0 w.ctr (fun w => { w with started := true }) s; nextWork s (.pf 0) 0 2 18 = some w ∧ readsOf w = some (bs, 0) ∧ ownerRights u (.pf 0) (slot_ u (ctxSlot w)).owner = false) ∧
    (let bs : Bytes := List.replicate 64 0; let w := cryWork 19 9 0 0 0 bs; let s := cryQ w { owner := 8 }; let u := modWork (.pf 0) 0 w.ctr (fun w => { w with started := true }) s; nextWork s (.pf 0) 0 2 19 = some w ∧ readsOf w = some (bs, 0) ∧ ownerRights u (.pf 0) (slot_ u (ctxSlot w)).owner = false) ∧
    (let bs : Bytes := List.replicate 64 0; let w := cryWork 20 9 0 0 0 bs; let s := cryQ w { owner := 8 }; let u := modWork (.pf 0) 0 w.ctr (fun w => { w with started := true }) s; nextWork s (.pf 0) 0 2 20 = some w ∧ readsOf w = some (bs, 0) ∧ ownerRights u (.pf 0) (slot_ u (ctxSlot w)).owner = false) ∧
    (let bs : Bytes := List.replicate 64 0; let w := cryWork 18 9 0 0 0 bs; let s := cryQ w { owner := 7, next := 1 }; let u := modWork (.pf 0) 0 w.ctr (fun w => { w with started := true }) s; nextWork s (.pf 0) 0 2 18 = some w ∧ readsOf w = some (bs, 0) ∧ ownerRights u (.pf 0) (slot_ u (ctxSlot w)).owner = true ∧ (slot_ u (ctxSlot w)).dir = false ∧ leAt bs 32 8 < (slot_ u (ctxSlot w)).next) ∧
    (let bs : Bytes := List.replicate 64 0; let w := cryWork 18 9 0 0 0 bs; let s := cryQ w { owner := 7 }; let u := modWork (.pf 0) 0 w.ctr (fun w => { w with started := true }) s; nextWork s (.pf 0) 0 2 18 = some w ∧ readsOf w = some (bs, 0) ∧ ownerRights u (.pf 0) (slot_ u (ctxSlot w)).owner = true ∧ (slot_ u (ctxSlot w)).dir = false ∧ (slot_ u (ctxSlot w)).next ≤ leAt bs 32 8) ∧
    (let bs : Bytes := []; let w := cryWork 19 9 0 0 0 bs; let s := cryQ w { owner := 7 }; let u := modWork (.pf 0) 0 w.ctr (fun w => { w with started := true }) s; nextWork s (.pf 0) 0 2 19 = some w ∧ readsOf w = some (bs, 0) ∧ ownerRights u (.pf 0) (slot_ u (ctxSlot w)).owner = true) ∧
    (let bs : Bytes := []; let w := cryWork 20 9 0 0 0 bs; let s := cryQ w { owner := 7 }; let u := modWork (.pf 0) 0 w.ctr (fun w => { w with started := true }) s; nextWork s (.pf 0) 0 2 20 = some w ∧ readsOf w = some (bs, 0) ∧ ownerRights u (.pf 0) (slot_ u (ctxSlot w)).owner = true) := by
  refine ⟨?_, ?_, ?_, ?_, ?_, ?_, ?_⟩
  · decide +kernel
  · decide +kernel
  · decide +kernel
  · decide +kernel
  · decide +kernel
  · decide +kernel
  · decide +kernel

theorem witness_KeysAndCiphers_3 :
    (let bs : Bytes := [1]; let w := cryWork 1 9 0 0 0 bs; let s := cryQ w { owner := 7, proto := 1, key := some (List.replicate 16 0) }; let u := modWork (.pf 0) 0 w.ctr (fun w => { w with started := true }) s; nextWork s (.pf 0) 0 2 1 = some w ∧ readsOf w = some (bs, 0) ∧ (useCache (ctxSlot w) s).1 = true ∧ (let u := (useCache (ctxSlot w) s).2; cryGone u = false ∧ (slot_ u (ctxSlot w)).key = some (List.replicate 16 0) ∧ (slot_ u (ctxSlot w)).proto ≠ 0)) ∧
    (let bs : Bytes := [1]; let w := cryWork 2 9 0 0 0 bs; let s := cryQ w { owner := 7, proto := 1, key := some (List.replicate 16 0) }; let u := modWork (.pf 0) 0 w.ctr (fun w => { w with started := true }) s; nextWork s (.pf 0) 0 2 2 = some w ∧ readsOf w = some (bs, 0) ∧ (useCache (ctxSlot w) s).1 = true ∧ (let u := (useCache (ctxSlot w) s).2; cryGone u = false ∧ (slot_ u (ctxSlot w)).key = some (List.replicate 16 0) ∧ (slot_ u (ctxSlot w)).proto ≠ 0)) ∧
    (let bs : Bytes := [1]; let w := cryWork 1 9 0 1 0 bs; let s := cryQ w { owner := 7, key := some (List.replicate 16 0) }; let u := modWork (.pf 0) 0 w.ctr (fun w => { w with started := true }) s; nextWork s (.pf 0) 0 2 1 = some w ∧ readsOf w = some (bs, 0) ∧ (useCache (ctxSlot w) s).1 = true ∧ (let u := (useCache (ctxSlot w) s).2; cryGone u = false ∧ (slot_ u (ctxSlot w)).key = some (List.replicate 16 0) ∧ (slot_ u (ctxSlot w)).proto = 0 ∧ (slot_ u (ctxSlot w)).kek = false ∧ ownerRights u (.pf 0) (slot_ u (ctxSlot w)).owner = true ∧ (slot_ u (ctxSlot w)).dir = false ∧ entryField w.entry 38 1 ≠ 1 ∧ (takeNumber (ctxSlot w) u).1 = some 0)) ∧
    (let bs : Bytes := [0x58, 0xE2, 0xFC, 0xCE, 0xFA, 0x7E, 0x30, 0x61, 0x36, 0x7F, 0x1D, 0x57, 0xA4, 0xE7, 0x45, 0x5A]; let w := cryWork 2 9 0 0 1 bs; let s := cryQ w { owner := 7, dir := true, key := some (List.replicate 16 0) }; let u := modWork (.pf 0) 0 w.ctr (fun w => { w with started := true }) s; nextWork s (.pf 0) 0 2 2 = some w ∧ readsOf w = some (bs, 0) ∧ (useCache (ctxSlot w) s).1 = true ∧ (let u := (useCache (ctxSlot w) s).2; cryGone u = false ∧ (slot_ u (ctxSlot w)).key = some (List.replicate 16 0) ∧ (slot_ u (ctxSlot w)).proto = 0 ∧ (slot_ u (ctxSlot w)).kek = false ∧ ownerRights u (.pf 0) (slot_ u (ctxSlot w)).owner = true ∧ (slot_ u (ctxSlot w)).dir = true ∧ entryField w.entry 38 1 = 1 ∧ gcmOpen (List.replicate 16 0) (slice (entryBytes w.entry) 40 12) (slice bs 0 (entryField w.entry 36 2)) (slice bs (entryField w.entry 36 2) (entryField w.entry 32 4)) (slice bs (entryField w.entry 36 2 + entryField w.entry 32 4) 16) = some [])) := by
  refine ⟨?_, ?_, ?_, ?_⟩
  · decide +kernel
  · decide +kernel
  · decide +kernel
  · decide +kernel

theorem witness_KeysAndCiphers_4 :
    let s := modCry (fun c => { c with fetching := [1048575] }) up; s.cry.fetching.contains 1048575 = true := by decide +kernel

theorem witness_KeysAndCiphers_5 :
    ((cryEngine (ciphering aMsg) 0).running = some aMsg ∧ aMsg.refused = [] ∧ (activeUnits (ciphering aMsg) 2).isEmpty = false) ∧
    (let m := { aMsg with refused := [4] }; (cryEngine (ciphering m) 0).running = some m ∧ m.refused = [4] ∧ (activeUnits (ciphering m) 2).isEmpty = false) ∧
    (let m := { aMsg with refused := [4, 5] }; (cryEngine (ciphering m) 0).running = some m ∧ m.refused = 4 :: 5 :: [] ∧ (activeUnits (ciphering m) 2).isEmpty = false ∧ ∃ c rest, activeUnits (releaseMsg m (modEngine 0 (fun u => { u with running := none }) (worked (.cryEngine 0) (ciphering m)))) 2 = c :: rest) := by
  refine ⟨?_, ?_, ?_⟩
  · decide +kernel
  · decide +kernel
  · exact ⟨by decide +kernel, by decide +kernel, by decide +kernel, 0, [], by decide +kernel⟩

theorem witness_KeysAndCiphers_6 :
    (let s := modCry (fun c => { c with slots := [(9, { replay := true, seenBelow := 1 })] }) up; aMsg.ok = true ∧ aMsg.encrypt = false ∧ (slot_ s 9).proto ≠ 3 ∧ replayed (slot_ s aMsg.slot) aMsg.n = true) ∧
    (aMsg.ok = true ∧ aMsg.encrypt = false ∧ (slot_ up 9).proto ≠ 3 ∧ replayed (slot_ up aMsg.slot) aMsg.n = false) := by
  refine ⟨?_, ?_⟩
  · decide +kernel
  · decide +kernel

theorem witness_KeysAndCiphers_7 :
    (let m := { aMsg with refused := [1, 2] }; (cryEngine (ciphering m) 0).running = some m ∧ 2 ≤ m.refused.length) ∧
    (let u := modEngine 0 (fun u => { u with running := none }) (awake [.cryEngine 1] (ciphering aMsg)); aMsg.refused.length < 2 ∧ ((activeUnits u 1).find? (fun x => x != 0 && engineRuns u x && (cryEngine u x).running.isNone)).isSome = true) ∧
    (let s := modCry (fun c => { c with engines := (List.range 64).map (fun i => (i, { running := some aMsg })) }) up; let u := modEngine 0 (fun u => { u with running := none }) s; (cryEngine s 0).running = some aMsg ∧ aMsg.refused.length < 2 ∧ (activeUnits u 1).find? (fun x => x != 0 && engineRuns u x && (cryEngine u x).running.isNone) = none) := by
  refine ⟨?_, ?_, ?_⟩
  · decide +kernel
  · decide +kernel
  · decide +kernel

theorem witness_KeysAndCiphers_8 :
    let m := { aMsg with urgency := 3 }; let s := modRel (fun r => { r with units := (List.range 21).map (fun i => (65536 + i + 1, { st := 3 })) }) (modCry (fun c => { c with waiting := [m] }) (ciphering aMsg)); mostUrgent s.cry.waiting = some m ∧ activeUnits s 1 = [0] ∧ (cryEngine s 0).running = some aMsg ∧ (cryEngine s 0).suspended = none ∧ m.urgency < aMsg.urgency := by decide +kernel

theorem witness_NvmeControllers_0 :
    let s := nvUp { aqa := 0x10001 }; let cc := 0x460001; isNvme s (.pf 0) = true ∧ bitOf (nvme s (.pf 0)).cc 0 = false ∧ nvEnableOk (nvme s (.pf 0)) cc = true := by decide +kernel

theorem witness_NvmeControllers_1 :
    let s := nvUp { cc := 1, rdy := true }; isNvme s (.pf 0) = true ∧ bitOf (nvme s (.pf 0)).cc 0 = true := by decide +kernel

theorem witness_NvmeControllers_2 :
    let s := nvUp { cc := 1, rdy := true }; isNvme s (.pf 0) = true ∧ bitOf (nvme s (.pf 0)).cc 0 = true ∧ (nvme s (.pf 0)).shst = 0 := by decide +kernel

theorem witness_NvmeControllers_3 :
    let s := nvUp { cc := 1, shutAt := some 0 }; (nvme s (.pf 0)).shutAt = some 0 := by decide +kernel

theorem witness_NvmeControllers_4 :
    (let f : Fn := .pf 0; let off := 0x1000 + 8 * 1; let s0 := awake [.sto, .rel] (nvUp { cc := 1, rdy := true, sqs := [(2, { base := 0, size := 8, cq := 2 }), (1535, { base := 0, size := 9, cq := 2 })], cqs := [(2, { base := 0, size := 8 })] }); let s := atWork (.fn f) off s0; off < 0x4000 ∧ isNvme s0 f = true ∧ pathOpen s0 (.fn f) = true ∧ accessWaits s0 (.fn f) off = false ∧ blockDead s0 (.fn f) (accessBlk s0 (.fn f) off) = false ∧ (nvme s f).rdy = true ∧ mfind (nvme s f).sqs 1 = none) ∧
    (let f : Fn := .pf 0; let off := 0x1000 + 8 * 1535; let s0 := awake [.sto, .rel] (nvUp { cc := 1, rdy := true, sqs := [(2, { base := 0, size := 8, cq := 2 }), (1535, { base := 0, size := 9, cq := 2 })], cqs := [(2, { base := 0, size := 8 })] }); let s := atWork (.fn f) off s0; off < 0x4000 ∧ isNvme s0 f = true ∧ pathOpen s0 (.fn f) = true ∧ accessWaits s0 (.fn f) off = false ∧ blockDead s0 (.fn f) (accessBlk s0 (.fn f) off) = false ∧ (nvme s f).rdy = true ∧ (mfind (nvme s f).sqs 1535).map NSq.size = some 9 ∧ (65536 + 8) % 65536 < 9 ∧ 65536 + 8 < 2 ^ 32 ∧ 9 ≤ 9 % 65536) := by
  refine ⟨?_, ?_⟩
  · decide +kernel
  · decide +kernel

theorem witness_NvmeControllers_5 :
    (let f : Fn := .pf 0; let off := 0x1004 + 8 * 1; let s0 := awake [.sto, .rel] (nvUp { cc := 1, rdy := true, sqs := [(2, { base := 0, size := 8, cq := 2 }), (1535, { base := 0, size := 9, cq := 2 })], cqs := [(2, { base := 0, size := 8 })] }); let s := atWork (.fn f) off s0; off < 0x4000 ∧ isNvme s0 f = true ∧ pathOpen s0 (.fn f) = true ∧ accessWaits s0 (.fn f) off = false ∧ blockDead s0 (.fn f) (accessBlk s0 (.fn f) off) = false ∧ (nvme s f).rdy = true ∧ mfind (nvme s f).cqs 1 = none) ∧
    (let f : Fn := .pf 0; let off := 0x1004 + 8 * 2; let s0 := awake [.sto, .rel] (nvUp { cc := 1, rdy := true, sqs := [(2, { base := 0, size := 8, cq := 2 }), (1535, { base := 0, size := 9, cq := 2 })], cqs := [(2, { base := 0, size := 8 })] }); let s := atWork (.fn f) off s0; off < 0x4000 ∧ isNvme s0 f = true ∧ pathOpen s0 (.fn f) = true ∧ accessWaits s0 (.fn f) off = false ∧ blockDead s0 (.fn f) (accessBlk s0 (.fn f) off) = false ∧ (nvme s f).rdy = true ∧ (mfind (nvme s f).cqs 2).map NCq.size = some 8 ∧ (65536 + 7) % 65536 < 8 ∧ 65536 + 7 < 2 ^ 32 ∧ 8 ≤ 8 % 65536) := by
  refine ⟨?_, ?_⟩
  · decide +kernel
  · decide +kernel

theorem witness_NvmeControllers_6 :
    let u : NSq := { base := 0, size := 8, cq := 2, head := 7, tail := 0 }; let s := nvUp { cc := 1, rdy := true, sqs := [(2, u)] }; mfind (nvme s (.pf 0)).sqs 2 = some u ∧ nvFetches s (.pf 0) = true ∧ u.head ≠ u.tail ∧ mayTake s (.pf 0) (u.base + 64 * u.head) = true := by decide +kernel

theorem witness_NvmeControllers_7 :
    let u : NSq := { base := 0, size := 8, cq := 2, head := 7, tail := 0 }; let s := nvUp { cc := 1, rdy := true, sqs := [(2, u)] }; mfind (nvme s (.pf 0)).sqs 2 = some u ∧ nvFetches s (.pf 0) = true ∧ u.head ≠ u.tail ∧ mayTake s (.pf 0) (u.base + 64 * u.head) = true ∧ operandRead (.pf 0) (u.base + 64 * u.head) .badAddress s = some s := by decide +kernel

theorem witness_NvmeControllers_8 :
    (let c := nvCmd 0 5 [(10, 268369922), (11, 458753)]; let s := nvUp { cc := 1, rdy := true, cmds := [c] }; nvNext s (.pf 0) 0 5 = some c ∧ cdw c 10 % 65536 = 2 ∧ cdw c 10 / 65536 = 4095 ∧ psdt c = 0 ∧ bitOf (cdw c 11) 0 = true ∧ 2 ≠ 0 ∧ 2 ≤ ioqPairs s (.pf 0) ∧ 4095 ≠ 0 ∧ 4095 ≤ 0xFFF ∧ prp1 c % nvPage (nvme s (.pf 0)) = 0 ∧ mfind (nvme s (.pf 0)).cqs 2 = none ∧ poolFull (pairsTaken s) (nvme s (.pf 0)).cqs.length (nvme s (.pf 0)).sqs.length = false ∧ cdw c 11 / 65536 < vectorsOf s (.pf 0)) ∧
    (let c := nvCmd 0 5 [(10, 65538), (11, 1)]; let s := nvUp { cc := 1, rdy := true, cmds := [c], cqs := [(2, { base := 0, size := 8 })] }; nvNext s (.pf 0) 0 5 = some c ∧ cdw c 10 % 65536 = 2 ∧ cdw c 10 / 65536 = 1 ∧ psdt c = 0 ∧ bitOf (cdw c 11) 0 = true ∧ 2 ≠ 0 ∧ 2 ≤ ioqPairs s (.pf 0) ∧ 1 ≠ 0 ∧ 1 ≤ 0xFFF ∧ prp1 c % nvPage (nvme s (.pf 0)) = 0 ∧ (mfind (nvme s (.pf 0)).cqs 2).isSome = true) ∧
    (let c := nvCmd 0 1 [(10, 65537), (11, 131073)]; let s := nvUp { cc := 1, rdy := true, cmds := [c], cqs := [(2, { base := 0, size := 8 })] }; nvNext s (.pf 0) 0 1 = some c ∧ cdw c 10 % 65536 = 1 ∧ cdw c 10 / 65536 = 1 ∧ psdt c = 0 ∧ bitOf (cdw c 11) 0 = true ∧ 1 ≠ 0 ∧ 1 ≤ ioqPairs s (.pf 0) ∧ 1 ≠ 0 ∧ 1 ≤ 0xFFF ∧ prp1 c % nvPage (nvme s (.pf 0)) = 0 ∧ mfind (nvme s (.pf 0)).sqs 1 = none ∧ cdw c 11 / 65536 ≠ 0 ∧ (mfind (nvme s (.pf 0)).cqs (cdw c 11 / 65536)).isSome = true ∧ poolFull (pairsTaken s) (nvme s (.pf 0)).sqs.length (nvme s (.pf 0)).cqs.length = false) ∧
    (let c := nvCmd 0 1 [(10, 65537), (11, 1)]; let s := nvUp { cc := 1, rdy := true, cmds := [c], cqs := [(2, { base := 0, size := 8 })] }; nvNext s (.pf 0) 0 1 = some c ∧ cdw c 10 % 65536 = 1 ∧ cdw c 10 / 65536 = 1 ∧ psdt c = 0 ∧ bitOf (cdw c 11) 0 = true ∧ 1 ≠ 0 ∧ 1 ≤ ioqPairs s (.pf 0) ∧ 1 ≠ 0 ∧ 1 ≤ 0xFFF ∧ prp1 c % nvPage (nvme s (.pf 0)) = 0 ∧ mfind (nvme s (.pf 0)).sqs 1 = none ∧ cdw c 11 / 65536 = 0 ∧ poolFull (pairsTaken s) (nvme s (.pf 0)).sqs.length (nvme s (.pf 0)).cqs.length = false) := by
  refine ⟨?_, ?_, ?_, ?_⟩
  · decide +kernel
  · decide +kernel
  · decide +kernel
  · decide +kernel

theorem witness_NvmeControllers_9 :
    (let c := nvCmd 0 0 [(10, 0)]; let s := nvUp { cc := 1, rdy := true, cmds := [c] }; nvNext s (.pf 0) 0 0 = some c ∧ cdw c 10 % 65536 = 0) ∧
    (let c := nvCmd 0 0 [(10, 1)]; let s := nvUp { cc := 1, rdy := true, cmds := [c] }; nvNext s (.pf 0) 0 0 = some c ∧ cdw c 10 % 65536 = 1 ∧ mfind (nvme s (.pf 0)).sqs 1 = none) ∧
    (let c := nvCmd 0 4 [(10, 0)]; let s := nvUp { cc := 1, rdy := true, cmds := [c] }; nvNext s (.pf 0) 0 4 = some c ∧ cdw c 10 % 65536 = 0) ∧
    (let c := nvCmd 0 4 [(10, 1)]; let s := nvUp { cc := 1, rdy := true, cmds := [c] }; nvNext s (.pf 0) 0 4 = some c ∧ cdw c 10 % 65536 = 1 ∧ mfind (nvme s (.pf 0)).cqs 1 = none) ∧
    (let c := nvCmd 0 0 [(10, 1)]; let s := nvUp { cc := 1, rdy := true, cmds := [c], sqs := [(1, { base := 0, size := 8, cq := 2 })], cqs := [(2, { base := 0, size := 8 }), (3, { base := 0, size := 8 })] }; nvNext s (.pf 0) 0 0 = some c ∧ cdw c 10 % 65536 = 1 ∧ (mfind (nvme s (.pf 0)).sqs 1).isSome = true) ∧
    (let c := nvCmd 0 4 [(10, 2)]; let s := nvUp { cc := 1, rdy := true, cmds := [c], sqs := [(1, { base := 0, size := 8, cq := 2 })], cqs := [(2, { base := 0, size := 8 }), (3, { base := 0, size := 8 })] }; nvNext s (.pf 0) 0 4 = some c ∧ cdw c 10 % 65536 = 2 ∧ (mfind (nvme s (.pf 0)).cqs 2).isSome = true ∧ (nvme s (.pf 0)).sqs.any (fun e => e.2.cq == 2) = true) ∧
    (let c := nvCmd 0 4 [(10, 3)]; let s := nvUp { cc := 1, rdy := true, cmds := [c], sqs := [(1, { base := 0, size := 8, cq := 2 })], cqs := [(2, { base := 0, size := 8 }), (3, { base := 0, size := 8 })] }; nvNext s (.pf 0) 0 4 = some c ∧ cdw c 10 % 65536 = 3 ∧ (mfind (nvme s (.pf 0)).cqs 3).isSome = true ∧ (nvme s (.pf 0)).sqs.any (fun e => e.2.cq == 3) = false) := by
  refine ⟨?_, ?_, ?_, ?_, ?_, ?_, ?_⟩
  · decide +kernel
  · decide +kernel
  · decide +kernel
  · decide +kernel
  · decide +kernel
  · decide +kernel
  · decide +kernel

theorem witness_NvmeControllers_10 :
    (let c := nvCmd 0 6 [(10, 1)]; let s := nvUp { cc := 1, rdy := true, cmds := [c] }; nvNext s (.pf 0) 0 6 = some c ∧ cdw c 10 % 256 = 1) ∧
    (let c := nvCmd 0 6 [(1, 0)]; let s := nvUp { cc := 1, rdy := true, cmds := [c] }; nvNext s (.pf 0) 0 6 = some c ∧ cdw c 10 % 256 = 0 ∧ cdw c 1 = 0) ∧
    (let c := nvCmd 0 6 [(1, 257)]; let s := nvUp { cc := 1, rdy := true, cmds := [c] }; nvNext s (.pf 0) 0 6 = some c ∧ cdw c 10 % 256 = 0 ∧ 256 < cdw c 1) ∧
    (let c := nvCmd 0 6 [(1, 1)]; let s := modSto (fun t => { t with ns := [(5, nsRow 0)] }) <| nvUp { cc := 1, rdy := true, cmds := [c] }; nvNext s (.pf 0) 0 6 = some c ∧ cdw c 10 % 256 = 0 ∧ cdw c 1 ≠ 0 ∧ cdw c 1 ≤ 256 ∧ nsFind s (.pf 0) (cdw c 1) = some (5, nsRow 0)) ∧
    (let c := nvCmd 0 6 [(1, 4294967293), (10, 2)]; let s := nvUp { cc := 1, rdy := true, cmds := [c] }; nvNext s (.pf 0) 0 6 = some c ∧ cdw c 10 % 256 = 2 ∧ cdw c 1 < 0xFFFFFFFE) ∧
    (let c := nvCmd 0 6 [(10, 4)]; let s := nvUp { cc := 1, rdy := true, cmds := [c] }; nvNext s (.pf 0) 0 6 = some c ∧ 3 < cdw c 10 % 256) ∧
    (let c := nvCmd 0 2 [(10, 0)]; let s := nvUp { cc := 1, rdy := true, cmds := [c] }; nvNext s (.pf 0) 0 2 = some c ∧ cdw c 10 % 256 = 0) ∧
    (let c := nvCmd 0 2 [(10, 5)]; let s := nvUp { cc := 1, rdy := true, cmds := [c] }; nvNext s (.pf 0) 0 2 = some c ∧ 4 < cdw c 10 % 256) ∧
    (let c := nvCmd 0 2 [(10, 8323074)]; let s := nvUp { cc := 1, rdy := true, cmds := [c] }; nvNext s (.pf 0) 0 2 = some c ∧ cdw c 10 % 256 = 2 ∧ cdw c 10 / 65536 = 127 ∧ cdw c 11 % 65536 = 0 ∧ cdw c 12 = 0 ∧ cdw c 13 = 0 ∧ (smartLog s (nvme s (.pf 0))).length = 512) := by
  refine ⟨?_, ?_, ?_, ?_, ?_, ?_, ?_, ?_, ?_⟩
  · decide +kernel
  · decide +kernel
  · decide +kernel
  · decide +kernel
  · decide +kernel
  · decide +kernel
  · decide +kernel
  · decide +kernel
  · decide +kernel

theorem witness_NvmeControllers_11 :
    (let c := nvCmd 0 8 [(10, 3)]; let s := nvUp { cc := 1, rdy := true, cmds := [c] }; nvNext s (.pf 0) 0 8 = some c ∧ ((nvme s (.pf 0)).cmds.find? (fun n => n.sq == cdw c 10 % 65536 && entryField n.entry 2 2 == cdw c 10 / 65536 && n.no != c.no && !n.discard)) = none) ∧
    (let c := nvCmd 0 8 [(10, 458755)]; let n : NCmd := { nvCmd 3 2 [] with no := 8, st := .ready, entry := BitVec.ofNat 512 (2 + 7 * 65536) }; let s := nvUp { cc := 1, rdy := true, cmds := [n, c] }; nvNext s (.pf 0) 0 8 = some c ∧ ((nvme s (.pf 0)).cmds.find? (fun n => n.sq == cdw c 10 % 65536 && entryField n.entry 2 2 == cdw c 10 / 65536 && n.no != c.no && !n.discard)) = some n ∧ ((nvme s (.pf 0)).cmds.filter (fun n => n.sq == 0 && entryField n.entry 0 1 == 8 && n.st != .fetched)).length < 4 ∧ n.st = .ready) := by
  refine ⟨?_, ?_⟩
  · decide +kernel
  · decide +kernel

theorem witness_NvmeControllers_12 :
    (let c := nvCmd 0 9 [(10, 7), (11, 3)]; let s := nvUp { cc := 1, rdy := true, cmds := [c] }; nvNext s (.pf 0) 0 9 = some c ∧ cdw c 10 % 256 = 7 ∧ 7 ∈ featIds ∧ bitOf (cdw c 10) 31 = false) ∧
    (let c := nvCmd 0 9 [(10, 1), (11, 3)]; let s := nvUp { cc := 1, rdy := true, cmds := [c] }; nvNext s (.pf 0) 0 9 = some c ∧ cdw c 10 % 256 = 1 ∧ 1 ∈ featIds ∧ bitOf (cdw c 10) 31 = false) ∧
    (let c := nvCmd 0 9 [(10, 6), (11, 3)]; let s := nvUp { cc := 1, rdy := true, cmds := [c] }; nvNext s (.pf 0) 0 9 = some c ∧ cdw c 10 % 256 = 6 ∧ 6 ∈ featIds ∧ bitOf (cdw c 10) 31 = false) ∧
    (let c := nvCmd 0 9 [(10, 8), (11, 3)]; let s := nvUp { cc := 1, rdy := true, cmds := [c] }; nvNext s (.pf 0) 0 9 = some c ∧ cdw c 10 % 256 = 8 ∧ 8 ∈ featIds ∧ bitOf (cdw c 10) 31 = false) ∧
    (let c := nvCmd 0 9 [(10, 11), (11, 3)]; let s := nvUp { cc := 1, rdy := true, cmds := [c] }; nvNext s (.pf 0) 0 9 = some c ∧ cdw c 10 % 256 = 11 ∧ 11 ∈ featIds ∧ bitOf (cdw c 10) 31 = false) ∧
    (let c := nvCmd 0 9 [(10, 2), (11, 1)]; let s := nvUp { cc := 1, rdy := true, cmds := [c] }; nvNext s (.pf 0) 0 9 = some c ∧ cdw c 10 % 256 = 2 ∧ 2 ∈ featIds ∧ bitOf (cdw c 10) 31 = false ∧ cdw c 11 % 32 ≠ 0) ∧
    (let c := nvCmd 0 10 [(10, 9)]; let s := nvUp { cc := 1, rdy := true, cmds := [c] }; nvNext s (.pf 0) 0 10 = some c ∧ cdw c 10 % 256 = 9 ∧ 9 ∈ featIds ∧ bits (cdw c 10) 10 8 = 0) := by
  refine ⟨?_, ?_, ?_, ?_, ?_, ?_, ?_⟩
  · decide +kernel
  · decide +kernel
  · decide +kernel
  · decide +kernel
  · decide +kernel
  · decide +kernel
  · decide +kernel

theorem witness_NvmeControllers_13 :
    (let c := nvCmd 0 12 []; let s := nvUp { cc := 1, rdy := true, cmds := [c], aers := [1, 2, 3, 4] }; nvNext s (.pf 0) 0 12 = some c ∧ 4 ≤ (nvme s (.pf 0)).aers.length) ∧
    (let c := nvCmd 0 12 []; let s := nvUp { cc := 1, rdy := true, cmds := [c], aers := [1, 2, 3] }; nvNext s (.pf 0) 0 12 = some c ∧ (nvme s (.pf 0)).aers.length < 4 ∧ (nvme s (.pf 0)).events = []) ∧
    (let c := nvCmd 0 12 []; let s := nvUp { cc := 1, rdy := true, cmds := [c], events := [5] }; nvNext s (.pf 0) 0 12 = some c ∧ (nvme s (.pf 0)).aers.length < 4 ∧ (nvme s (.pf 0)).events = [5]) := by
  refine ⟨?_, ?_, ?_⟩
  · decide +kernel
  · decide +kernel
  · decide +kernel

theorem witness_NvmeIoAndTransport_0 :
    (let c := nvCmd 2 2 [(1, 2)]; let s := modSto (fun t => { t with ns := [(5, nsRow 0)] }) <| nvUp { cc := 1, rdy := true, cmds := [c] }; let e := nsRow 0; 2 ≠ 0 ∧ nvNeedsList s (.pf 0) c ((cdw c 12 % 65536 + 1) * 2 ^ byteAt e 7) = false ∧ nvNext s (.pf 0) 2 2 = some c ∧ nsOf s (.pf 0) c = none) ∧
    (let c := nvCmd 2 2 [(1, 1), (10, 1024)]; let s := modSto (fun t => { t with ns := [(5, nsRow 0)] }) <| nvUp { cc := 1, rdy := true, cmds := [c] }; let e := nsRow 0; 2 ≠ 0 ∧ nvNeedsList s (.pf 0) c ((cdw c 12 % 65536 + 1) * 2 ^ byteAt e 7) = false ∧ nvNext s (.pf 0) 2 2 = some c ∧ nsOf s (.pf 0) c = some e ∧ (nvCheck s (.pf 0) c e true true false (.data [])).1 ≠ 0) ∧
    (let c := nvCmd 2 2 [(1, 1), (10, 1023)]; let s := modSto (fun t => { t with ns := [(5, nsRow 0)] }) <| nvUp { cc := 1, rdy := true, cmds := [c] }; let e := nsRow 0; 2 ≠ 0 ∧ nvNeedsList s (.pf 0) c ((cdw c 12 % 65536 + 1) * 2 ^ byteAt e 7) = false ∧ nvNext s (.pf 0) 2 2 = some c ∧ nsOf s (.pf 0) c = some e ∧ (nvCheck s (.pf 0) c e true true false (.data [])).1 = 0) ∧
    (let c := nvCmd 65535 1 [(1, 2)]; let s := modSto (fun t => { t with ns := [(5, nsRow 0)] }) <| nvUp { cc := 1, rdy := true, cmds := [c] }; let e := nsRow 0; 65535 ≠ 0 ∧ nvNeedsList s (.pf 0) c ((cdw c 12 % 65536 + 1) * 2 ^ byteAt e 7) = false ∧ nvNext s (.pf 0) 65535 1 = some c ∧ nsOf s (.pf 0) c = none) ∧
    (let c := nvCmd 2 1 [(1, 1), (10, 1024)]; let s := modSto (fun t => { t with ns := [(5, nsRow 0)] }) <| nvUp { cc := 1, rdy := true, cmds := [c] }; let e := nsRow 0; 2 ≠ 0 ∧ nvNeedsList s (.pf 0) c ((cdw c 12 % 65536 + 1) * 2 ^ byteAt e 7) = false ∧ nvNext s (.pf 0) 2 1 = some c ∧ nsOf s (.pf 0) c = some e ∧ (nvCheck s (.pf 0) c e true true true (.data [])).1 ≠ 0) ∧
    (let c := nvCmd 65535 1 [(1, 1), (10, 1023)]; let s := modSto (fun t => { t with ns := [(5, nsRow 0)] }) <| nvUp { cc := 1, rdy := true, cmds := [c] }; let e := nsRow 0; 65535 ≠ 0 ∧ nvNeedsList s (.pf 0) c ((cdw c 12 % 65536 + 1) * 2 ^ byteAt e 7) = false ∧ nvNext s (.pf 0) 65535 1 = some c ∧ nsOf s (.pf 0) c = some e ∧ (nvCheck s (.pf 0) c e true true true (.data [])).1 = 0 ∧ inCapsule s e 512 = false) ∧
    (let c := nvCmd 65535 1 [(1, 1), (6, 4096), (10, 1023)]; let s := modSto (fun t => { t with ns := [(5, nsRow 0)] }) <| nvUp { cc := 1, rdy := true, cmds := [c] }; let e := nsRow 0; 65535 ≠ 0 ∧ nvNeedsList s (.pf 0) c ((cdw c 12 % 65536 + 1) * 2 ^ byteAt e 7) = false ∧ nvNext s (.pf 0) 65535 1 = some c ∧ nsOf s (.pf 0) c = some e ∧ (nvCheck s (.pf 0) c e true true true (.data [])).1 = 0 ∧ stoGone s = false ∧ mayTake s (.pf 0) (segAddr (nvCheck s (.pf 0) c e true true true (.data [])).2 0) = true) := by
  refine ⟨?_, ?_, ?_, ?_, ?_, ?_, ?_⟩
  · decide +kernel
  · decide +kernel
  · decide +kernel
  · decide +kernel
  · decide +kernel
  · decide +kernel
  · decide +kernel

theorem witness_NvmeIoAndTransport_1 :
    (let c := nvCmd 2 8 [(1, 2)]; let s := modSto (fun t => { t with ns := [(5, nsRow 0)] }) <| nvUp { cc := 1, rdy := true, cmds := [c] }; let e := nsRow 0; 2 ≠ 0 ∧ nvNeedsList s (.pf 0) c ((cdw c 12 % 65536 + 1) * 2 ^ byteAt e 7) = false ∧ nvNext s (.pf 0) 2 8 = some c ∧ nsOf s (.pf 0) c = none) ∧
    (let c := nvCmd 2 8 [(1, 1), (10, 1024)]; let s := modSto (fun t => { t with ns := [(5, nsRow 0)] }) <| nvUp { cc := 1, rdy := true, cmds := [c] }; let e := nsRow 0; 2 ≠ 0 ∧ nvNeedsList s (.pf 0) c ((cdw c 12 % 65536 + 1) * 2 ^ byteAt e 7) = false ∧ nvNext s (.pf 0) 2 8 = some c ∧ nsOf s (.pf 0) c = some e ∧ (nvCheck s (.pf 0) c e true false true (.data [])).1 ≠ 0) ∧
    (let c := nvCmd 2 8 [(1, 1), (10, 1023)]; let s := modSto (fun t => { t with ns := [(5, nsRow 0)] }) <| nvUp { cc := 1, rdy := true, cmds := [c] }; let e := nsRow 0; 2 ≠ 0 ∧ nvNeedsList s (.pf 0) c ((cdw c 12 % 65536 + 1) * 2 ^ byteAt e 7) = false ∧ nvNext s (.pf 0) 2 8 = some c ∧ nsOf s (.pf 0) c = some e ∧ (nvCheck s (.pf 0) c e true false true (.data [])).1 = 0) ∧
    (let c := nvCmd 2 0 [(1, 2)]; let s := modSto (fun t => { t with ns := [(5, nsRow 0)] }) <| nvUp { cc := 1, rdy := true, cmds := [c] }; let e := nsRow 0; 2 ≠ 0 ∧ nvNeedsList s (.pf 0) c ((cdw c 12 % 65536 + 1) * 2 ^ byteAt e 7) = false ∧ nvNext s (.pf 0) 2 0 = some c ∧ nsOf s (.pf 0) c = none) ∧
    (let c := nvCmd 2 0 [(1, 1)]; let s := modSto (fun t => { t with ns := [(5, nsRow 0)] }) <| nvUp { cc := 1, rdy := true, cmds := [c] }; let e := nsRow 0; 2 ≠ 0 ∧ nvNeedsList s (.pf 0) c ((cdw c 12 % 65536 + 1) * 2 ^ byteAt e 7) = false ∧ nvNext s (.pf 0) 2 0 = some c ∧ nsOf s (.pf 0) c = some e) := by
  refine ⟨?_, ?_, ?_, ?_, ?_⟩
  · decide +kernel
  · decide +kernel
  · decide +kernel
  · decide +kernel
  · decide +kernel

theorem witness_NvmeIoAndTransport_2 :
    (let c := nvCmd 2 2 [(10, 1024)]; let e := nsRow 0; let s := up; (cdw c 12 % 65536 + 1) * 2 ^ byteAt e 7 ≤ 2 ^ 21 ∧ (nvSegs s (.pf 0) c ((cdw c 12 % 65536 + 1) * 2 ^ byteAt e 7) []).isSome = true ∧ leAt e 8 8 < entryField c.entry 40 8 + (cdw c 12 % 65536 + 1)) ∧
    (let c := nvCmd 2 2 [(10, 1023)]; let e := nsRow 2; let s := up; (cdw c 12 % 65536 + 1) * 2 ^ byteAt e 7 ≤ 2 ^ 21 ∧ (nvSegs s (.pf 0) c ((cdw c 12 % 65536 + 1) * 2 ^ byteAt e 7) []).isSome = true ∧ entryField c.entry 40 8 + (cdw c 12 % 65536 + 1) ≤ leAt e 8 8 ∧ bitOf (byteAt e 6) 1 = true) ∧
    (let c := nvCmd 2 2 [(10, 1023)]; let e := nsRow 0; let s := up; (cdw c 12 % 65536 + 1) * 2 ^ byteAt e 7 ≤ 2 ^ 21 ∧ (nvSegs s (.pf 0) c ((cdw c 12 % 65536 + 1) * 2 ^ byteAt e 7) []).isSome = true ∧ entryField c.entry 40 8 + (cdw c 12 % 65536 + 1) ≤ leAt e 8 8 ∧ bitOf (byteAt e 6) 1 = false) := by
  refine ⟨?_, ?_, ?_⟩
  · decide +kernel
  · decide +kernel
  · decide +kernel

theorem witness_NvmeIoAndTransport_3 :
    (let c := nvCmd 2 9 [(1, 2)]; let s := modSto (fun t => { t with ns := [(5, nsRow 0)] }) <| nvUp { cc := 1, rdy := true, cmds := [c] }; let e := nsRow 0; let l := HostRead.data []; 2 ≠ 0 ∧ nvNext s (.pf 0) 2 9 = some c ∧ nsOf s (.pf 0) c = none) ∧
    (let c := nvCmd 2 9 [(1, 1)]; let s := modSto (fun t => { t with ns := [(5, nsRow 0)] }) <| nvUp { cc := 1, rdy := true, cmds := [c] }; let e := nsRow 0; let l := HostRead.data []; 2 ≠ 0 ∧ nvNext s (.pf 0) 2 9 = some c ∧ cdw c 10 % 256 + 1 = 1 ∧ nsOf s (.pf 0) c = some e ∧ (prpSegs (nvPage (nvme s (.pf 0))) (prp1 c) (prp2 c) 16 []).isSome = true ∧ psdt c ≠ 3 ∧ mayTake s (.pf 0) (if psdt c = 0 then prp1 c else entryField c.entry 24 8) = true ∧ (let rs : Bytes := padTo 16 (List.replicate 8 0 ++ [1, 4]); (List.range 1).any (fun i => decide (leAt e 8 8 < leAt rs (16 * i + 8) 8 + leAt rs (16 * i + 4) 4)) = true)) ∧
    (let c := nvCmd 2 9 [(1, 1)]; let s := modSto (fun t => { t with ns := [(5, nsRow 0)] }) <| nvUp { cc := 1, rdy := true, cmds := [c] }; let e := nsRow 0; let l := HostRead.data []; 2 ≠ 0 ∧ nvNext s (.pf 0) 2 9 = some c ∧ cdw c 10 % 256 + 1 = 1 ∧ nsOf s (.pf 0) c = some e ∧ (prpSegs (nvPage (nvme s (.pf 0))) (prp1 c) (prp2 c) 16 []).isSome = true ∧ psdt c ≠ 3 ∧ mayTake s (.pf 0) (if psdt c = 0 then prp1 c else entryField c.entry 24 8) = true ∧ (let rs : Bytes := padTo 16 (List.replicate 8 0 ++ [0, 4]); (List.range 1).any (fun i => decide (leAt e 8 8 < leAt rs (16 * i + 8) 8 + leAt rs (16 * i + 4) 4)) = false ∧ bitOf (cdw c 11) 2 = false)) ∧
    (let c := nvCmd 2 9 [(1, 1), (11, 4)]; let s := modSto (fun t => { t with ns := [(5, nsRow 0)] }) <| nvUp { cc := 1, rdy := true, cmds := [c] }; let e := nsRow 0; let l := HostRead.data []; 2 ≠ 0 ∧ nvNext s (.pf 0) 2 9 = some c ∧ cdw c 10 % 256 + 1 = 1 ∧ nsOf s (.pf 0) c = some e ∧ (prpSegs (nvPage (nvme s (.pf 0))) (prp1 c) (prp2 c) 16 []).isSome = true ∧ psdt c ≠ 3 ∧ mayTake s (.pf 0) (if psdt c = 0 then prp1 c else entryField c.entry 24 8) = true ∧ (let rs : Bytes := padTo 16 (List.replicate 8 0 ++ [0, 4]); (List.range 1).any (fun i => decide (leAt e 8 8 < leAt rs (16 * i + 8) 8 + leAt rs (16 * i + 4) 4)) = false ∧ bitOf (cdw c 11) 2 = true ∧ bitOf (byteAt e 6) 1 = false)) := by
  refine ⟨?_, ?_, ?_, ?_⟩
  · decide +kernel
  · decide +kernel
  · decide +kernel
  · decide +kernel

theorem witness_NvmeIoAndTransport_4 :
    (let n : NCmd := { nvCmd 2 2 [] with ctx := 9, wireId := 65535, st := .sent }; let s := conn { data := overwrite (List.replicate 128 0) 0 [1], st := .established } (nvUp { cc := 1, rdy := true, cmds := [n] }); let u := seqRx 9 (pduLen (connOf s 9) 24 4) s; (connOf s 9).st = .established ∧ cxType (connOf s 9) = 1 ∧ wireCmd s 9 65535 = some ((.pf 0), n) ∧ n.discard = false ∧ u ≠ s) ∧
    (let n : NCmd := { nvCmd 2 2 [] with ctx := 9, wireId := 65535, st := .sent, discard := true }; let s := conn { data := overwrite (List.replicate 128 0) 0 [1], st := .established } (nvUp { cc := 1, rdy := true, cmds := [n] }); (connOf s 9).st = .established ∧ cxType (connOf s 9) = 1 ∧ wireCmd s 9 65535 = some ((.pf 0), n) ∧ n.discard = true) := by
  refine ⟨?_, ?_⟩
  · decide +kernel
  · decide +kernel

theorem witness_NvmeIoAndTransport_5 :
    let n : NCmd := { nvCmd 2 2 [] with ctx := 9, wireId := 65535, st := .sent }; let s := conn { data := overwrite (List.replicate 128 0) 0 [1], st := .established } (nvUp { cc := 1, rdy := true, cmds := [n] }); let u := heard 9 (seqRx 9 (pduLen (connOf s 9) 24 0) s); (connOf s 9).st = .established ∧ cxType (connOf s 9) = 1 ∧ wireCmd s 9 65535 = some ((.pf 0), n) ∧ mayTake s (.pf 0) (segAddr n.buf 0) = true ∧ (slice (List.replicate 512 7) 0 512).length ≤ 4096 * max 1 (leAt (connOf u 9).data 66 2) := by decide +kernel

theorem witness_NvmeIoAndTransport_6 :
    let n : NCmd := { nvCmd 2 2 [] with ctx := 9, wireId := 65535, st := .sent }; let s := conn { data := overwrite (List.replicate 128 0) 0 [1], st := .established } (nvUp { cc := 1, rdy := true, cmds := [n] }); (connOf s 9).st = .established ∧ cxType (connOf s 9) = 1 ∧ wireCmd s 9 65535 = some ((.pf 0), n) ∧ operandRead (.pf 0) (segAddr n.buf 0) .badAddress s = some s := by decide +kernel

theorem witness_NvmeIoAndTransport_7 :
    let n : NCmd := { nvCmd 2 2 [] with ctx := 9, wireId := 65535, st := .sent }; let s := conn { data := overwrite (List.replicate 128 0) 0 [1], st := .established } (nvUp { cc := 1, rdy := true, cmds := [n] }); let u := cnpSend 9 true (seqRx 9 (pduLen (connOf s 9) 24 0) s); cxType (connOf s 9) = 1 ∧ wireCmd u 9 65535 = some ((.pf 0), n) := by decide +kernel

theorem witness_NvmeIoAndTransport_8 :
    (let n := nvCmd 2 2 []; n.discard = false ∧ n.dataError = false ∧ n.resend = false) ∧
    (let n := { nvCmd 2 2 [] with dataError := true }; n.discard = false ∧ n.dataError = true) ∧
    (let n : NCmd := { nvCmd 2 2 [] with ctx := 9, wireId := 65535, st := .sent, resend := true }; let s := conn { data := overwrite (List.replicate 128 0) 0 [1], st := .established } (nvUp { cc := 1, rdy := true, cmds := [n] }); n.discard = false ∧ n.dataError = false ∧ n.resend = true ∧ n.digestFails < retryLimit (connOf s n.ctx)) := by
  refine ⟨?_, ?_, ?_⟩
  · decide +kernel
  · decide +kernel
  · decide +kernel

theorem witness_NvmeIoAndTransport_9 :
    let n : NCmd := { nvCmd 2 2 [] with ctx := 9, wireId := 65535, st := .sent }; let s := conn { data := overwrite (List.replicate 128 0) 0 [1], st := .established } (nvUp { cc := 1, rdy := true, cmds := [n] }); oldestSent s 9 = some 0 := by decide +kernel

theorem witness_NvmeIoAndTransport_10 :
    (connOf (conn { data := overwrite (List.replicate 128 0) 0 [1], st := .established } up) 9).st = .established := by decide +kernel

theorem witness_NvmeIoAndTransport_11 :
    (let n : NCmd := { nvCmd 2 2 [] with ctx := 9, wireId := 65535, st := .sent }; let s := conn { data := overwrite (List.replicate 128 0) 0 [1], st := .established } (nvUp { cc := 1, rdy := true, cmds := [n] }); (connOf s 9).st = .established ∧ (oldestSent s 9).isSome = true ∧ retryLimit (connOf s 9) ≤ (connOf s 9).retries + 1) ∧
    (let n : NCmd := { nvCmd 2 2 [] with ctx := 9, wireId := 65535, st := .sent }; let s := conn { data := overwrite (overwrite (List.replicate 128 0) 0 [1]) 70 [2], st := .established } (nvUp { cc := 1, rdy := true, cmds := [n] }); (connOf s 9).st = .established ∧ (oldestSent s 9).isSome = true ∧ (connOf s 9).retries + 1 < retryLimit (connOf s 9)) := by
  refine ⟨?_, ?_⟩
  · decide +kernel
  · decide +kernel

theorem witness_NvmeIoAndTransport_12 :
    (connOf (conn { st := .recovering } up) 9).st = .recovering := by decide +kernel

theorem witness_ContextsAndRdma_0 :
    (let p : Path := .mgmt; let off := (regBar p .STO_CTX_CTRL 0).getD 0; let s0 := awake ([.rel, .sto]) (modSto (fun t => { t with conns := [(0, { st := .failed })] }) up); let s := atWork p off s0; regBar p .STO_CTX_CTRL 0 = some off ∧ actsAt p off s0 = true ∧ stoWriter (asPath p) = true ∧ (connOf s (cxSelected s (asPath p))).st ≠ .disabled) ∧
    (let p : Path := .mgmt; let off := (regBar p .STO_CTX_CTRL 0).getD 0; let s0 := awake ([.rel, .sto]) (setReg .STO_CTX_DATA 18 (pathCode .mgmt) 16711680 (setReg .STO_CTX_DATA 17 (pathCode .mgmt) 524288 (setReg .STO_CTX_DATA 16 (pathCode .mgmt) 69632 (setReg .STO_CTX_DATA 0 (pathCode .mgmt) 1 (up))))); let s := atWork p off s0; regBar p .STO_CTX_CTRL 0 = some off ∧ actsAt p off s0 = true ∧ stoWriter (asPath p) = true ∧ (connOf s (cxSelected s (asPath p))).st = .disabled ∧ cxOk (cxData s (asPath p)) = false) ∧
    (let p : Path := .mgmt; let off := (regBar p .STO_CTX_CTRL 0).getD 0; let s0 := awake ([.rel, .sto]) (setReg .STO_CTX_DATA 18 (pathCode .mgmt) 16711680 (setReg .STO_CTX_DATA 17 (pathCode .mgmt) 458752 (setReg .STO_CTX_DATA 16 (pathCode .mgmt) 69632 (setReg .STO_CTX_DATA 0 (pathCode .mgmt) 1 (up))))); let s := atWork p off s0; regBar p .STO_CTX_CTRL 0 = some off ∧ actsAt p off s0 = true ∧ stoWriter (asPath p) = true ∧ (connOf s (cxSelected s (asPath p))).st = .disabled ∧ cxOk (cxData s (asPath p)) = true) := by
  refine ⟨?_, ?_, ?_⟩
  · decide +kernel
  · decide +kernel
  · decide +kernel

theorem witness_ContextsAndRdma_1 :
    let p : Path := .firmware; let off := (regBar p .STO_CTX_CTRL 0).getD 0; let s0 := awake ([.rel, .sto]) (up); let s := atWork p off s0; regBar p .STO_CTX_CTRL 0 = some off ∧ actsAt p off s0 = true ∧ stoWriter (asPath p) = true := by decide +kernel

theorem witness_ContextsAndRdma_2 :
    let p : Path := .mgmt; let off := (regBar p .STO_CTX_CTRL 0).getD 0; let s0 := awake ([.rel, .sto]) (up); let s := atWork p off s0; regBar p .STO_CTX_CTRL 0 = some off ∧ actsAt p off s0 = true ∧ stoWriter (asPath p) = true ∧ (connOf s (cxSelected s (asPath p))).st ≠ .recovering := by decide +kernel

theorem witness_ContextsAndRdma_3 :
    let p : Path := .mgmt; let off := (regBar p .STO_CTX_CTRL 0).getD 0; let s0 := awake ([.rel, .sto]) (setReg .STO_CTX_SELECT 0 (pathCode .mgmt) 9 (conn { st := .recovering } up)); let s := atWork p off s0; regBar p .STO_CTX_CTRL 0 = some off ∧ actsAt p off s0 = true ∧ stoWriter (asPath p) = true ∧ cxSelected s (asPath p) = 9 ∧ (connOf s 9).st = .recovering ∧ s.sto.ops = [] := by decide +kernel

theorem witness_ContextsAndRdma_4 :
    let p : Path := .debug; let off := (regBar p .STO_CTX_CTRL 0).getD 0; let s0 := awake ([.rel, .sto]) (up); let s := atWork p off s0; regBar p .STO_CTX_CTRL 0 = some off ∧ actsAt p off s0 = true ∧ stoWriter (asPath p) = true := by decide +kernel

theorem witness_ContextsAndRdma_5 :
    (let p : Path := .fn (.pf 0); let off := (regBar p .STO_CTX_CTRL 0).getD 0; let s0 := awake ([.rel, .sto]) (up); let s := atWork p off s0; regBar p .STO_CTX_CTRL 0 = some off ∧ actsAt p off s0 = true ∧ stoWriter (asPath p) = false) ∧
    (let p : Path := .fn (.pf 0); let off := (regBar p .STO_NS_CTRL 0).getD 0; let s0 := awake ([.rel, .sto]) (up); let s := atWork p off s0; regBar p .STO_NS_CTRL 0 = some off ∧ actsAt p off s0 = true ∧ stoWriter (asPath p) = false) := by
  refine ⟨?_, ?_⟩
  · decide +kernel
  · decide +kernel

theorem witness_ContextsAndRdma_6 :
    (let p : Path := .mgmt; let off := (regBar p .STO_NS_CTRL 0).getD 0; let s0 := awake ([.rel, .sto]) (setReg .STO_NS_DATA 1 (pathCode .mgmt) 0x0A010000 up); let s := atWork p off s0; regBar p .STO_NS_CTRL 0 = some off ∧ actsAt p off s0 = true ∧ (let d := nsRecord (nsData s (asPath p)); stoWriter (asPath p) = true ∧ byteAt d 7 ≠ 9 ∧ byteAt d 7 ≠ 12)) ∧
    (let p : Path := .mgmt; let off := (regBar p .STO_NS_CTRL 0).getD 0; let s0 := awake ([.rel, .sto]) (setReg .STO_NS_SELECT 0 (pathCode .mgmt) 65535 (setReg .STO_NS_DATA 1 (pathCode .mgmt) 0x0C000000 (setReg .STO_NS_DATA 4 (pathCode .mgmt) 0xFFFF (setReg .STO_NS_DATA 5 (pathCode .mgmt) 0xFFFF0000 up)))); let s := atWork p off s0; regBar p .STO_NS_CTRL 0 = some off ∧ actsAt p off s0 = true ∧ (let d := nsRecord (nsData s (asPath p)); stoWriter (asPath p) = true ∧ nsSelected s (asPath p) = 65535 ∧ nsValid d = false ∧ nsValid (nsEntry s 65535) = false ∧ byteAt d 7 = 12 ∧ nsCtx d 0 = 0xFFFF ∧ nsCtx d 1 = 0xFFFF)) := by
  refine ⟨?_, ?_⟩
  · decide +kernel
  · decide +kernel

theorem witness_ContextsAndRdma_7 :
    let p : Path := .mgmt; let off := (regBar p .STO_NS_CTRL 0).getD 0; let s0 := awake ([.rel, .sto]) (up); let s := atWork p off s0; regBar p .STO_NS_CTRL 0 = some off ∧ actsAt p off s0 = true ∧ stoWriter (asPath p) = true := by decide +kernel

theorem witness_ContextsAndRdma_8 :
    (let s := conn { data := overwrite (overwrite (List.replicate 128 0) 0 [2]) 76 [100], st := .established, rate := 1 } up; 2 ≤ cxType (connOf s 9) ∧ leAt (connOf s 9).data 76 4 ≠ 0 ∧ (connOf s 9).rate ≠ 0 ∧ (connOf s 9).st ≠ .disabled ∧ (connOf s 9).rate ≠ leAt (connOf s 9).data 76 4) ∧
    (let s := conn { data := overwrite (overwrite (List.replicate 128 0) 0 [2]) 76 [100], st := .established, rate := 100 } up; 2 ≤ cxType (connOf s 9) ∧ leAt (connOf s 9).data 76 4 ≠ 0 ∧ (connOf s 9).rate ≠ 0 ∧ (connOf s 9).rate = leAt (connOf s 9).data 76 4) := by
  refine ⟨?_, ?_⟩
  · decide +kernel
  · decide +kernel

theorem witness_ContextsAndRdma_9 :
    let s := conn { data := overwrite (List.replicate 128 0) 0 [3], st := .established } up; 2 ≤ cxType (connOf s 9) ∧ (connOf s 9).st ≠ .disabled ∧ (connOf s 9).rate = 0 ∧ leAt (connOf s 9).data 76 4 = 0 := by decide +kernel

theorem witness_ContextsAndRdma_10 :
    (let s := conn { data := overwrite (overwrite (List.replicate 128 0) 0 [2]) 76 [100], st := .established, rate := 1 } up; let u := cnpSend 9 true s; cxType (connOf s 9) = 2 ∧ (connOf s 9).st = .established ∧ rkeyBuf u 9 0 = none) ∧
    (let s := conn { data := overwrite (overwrite (List.replicate 128 0) 0 [2]) 76 [100], st := .established, rate := 1 } (modSto (fun t => { t with ops := [{ fn := .pf 0, sq := 0, ctr := 64, trk := 0, ctx := 9, op := 3, no := 0, sent := true, buf := 4096, len := 100 }] }) up); let u := cnpSend 9 true s; cxType (connOf s 9) = 2 ∧ (connOf s 9).st = .established ∧ rkeyBuf u 9 0 = some (.pf 0, none, [(4096, 100)]) ∧ 100 < 1 + 100 ∧ 100 ≤ 100 ∧ mayTake u (.pf 0) (segAddr [(4096, 100)] 0) = true) := by
  refine ⟨?_, ?_⟩
  · decide +kernel
  · decide +kernel

theorem witness_ContextsAndRdma_11 :
    (let s := conn { data := overwrite (overwrite (List.replicate 128 0) 0 [2]) 76 [100], st := .established, rate := 1 } up; let u := cnpSend 9 false s; cxType (connOf s 9) = 2 ∧ (connOf s 9).st = .established ∧ u.sto.ops.filter (fun o => o.ctx == 9 && o.op == 5) = []) ∧
    (let o : StoOp := { fn := .pf 0, sq := 0, ctr := 64, trk := 0, ctx := 9, op := 5, no := 0, sent := true, buf := 4096, len := 100 }; let s := conn { data := overwrite (overwrite (List.replicate 128 0) 0 [2]) 76 [100], st := .established, rate := 1 } (modSto (fun t => { t with ops := [o] }) up); let u := cnpSend 9 false s; cxType (connOf s 9) = 2 ∧ (connOf s 9).st = .established ∧ u.sto.ops.filter (fun o => o.ctx == 9 && o.op == 5) = [o] ∧ o.len < (List.replicate 101 (0 : Byte)).length ∧ (List.replicate 100 (0 : Byte)).length ≤ o.len) := by
  refine ⟨?_, ?_⟩
  · decide +kernel
  · decide +kernel

theorem witness_ContextsAndRdma_12 :
    (∀ op ∈ [1, 2, 3, 4, 5], let w := stoWork op 9 64 []; let s := conn { st := .failed } (sq0 (fun q => { q with work := [w] }) (rings 4)); nextWork s (.pf 0) 0 4 op = some w ∧ readsOf w = some ([], 0) ∧ entryField w.entry 4 2 = 9 ∧ stoGone s = false ∧ (connOf s 9).st = .failed) ∧
    (∀ op ∈ [1, 2, 3, 4, 5], let w := stoWork op 9 64 []; let s := conn { st := .disabled } (sq0 (fun q => { q with work := [w] }) (rings 4)); nextWork s (.pf 0) 0 4 op = some w ∧ readsOf w = some ([], 0) ∧ entryField w.entry 4 2 = 9 ∧ stoGone s = false ∧ (connOf s 9).st = .disabled) ∧
    (∀ op ∈ [1, 2, 3, 4, 5], let w := stoWork op 9 64 []; let s := conn { st := .established } (sq0 (fun q => { q with work := [w] }) (rings 4)); nextWork s (.pf 0) 0 4 op = some w ∧ readsOf w = some ([], 0) ∧ entryField w.entry 4 2 = 9 ∧ stoGone s = false ∧ (connOf s 9).st = .established) ∧
    (∀ op ∈ [1, 2, 3, 4, 5], let w := stoWork op 9 64 []; let s := conn { st := .recovering } (sq0 (fun q => { q with work := [w] }) (rings 4)); nextWork s (.pf 0) 0 4 op = some w ∧ readsOf w = some ([], 0) ∧ entryField w.entry 4 2 = 9 ∧ stoGone s = false ∧ (connOf s 9).st = .recovering) := by
  refine ⟨?_, ?_, ?_, ?_⟩
  · decide +kernel
  · decide +kernel
  · decide +kernel
  · decide +kernel

theorem witness_DataMover_0 :
    (∀ op ∈ [1, 2, 3, 4, 5, 6, 7, 8], let j : Job := { fn := .pf 0, entry := mvEntry op 64 4 4 4, src := some (List.replicate 64 0) }; let s := mover 63 { jobs := [j], st := .running }; (mvChan s 63).jobs = [j] ∧ (mvChan s 63).st = .running ∧ entryField j.entry 0 1 = op ∧ j.src = some (List.replicate 64 0) ∧ (activeUnits s 4).contains (mvChan s 63).mover = true) ∧
    (∀ op ∈ [1, 2, 3, 4, 5, 6, 7, 8], let j : Job := { fn := .pf 0, entry := mvEntry op 64 4 4 4 }; let s := mover 63 { jobs := [j], st := .running }; (mvChan s 63).jobs = [j] ∧ (mvChan s 63).st = .running ∧ entryField j.entry 0 1 = op ∧ j.src = none ∧  mayTake s (.pf 0) (entryField j.entry 24 8) = true ∧ mayTake s (.pf 0) (entryField j.entry 8 8) = true ∧ (mvFetch s j 2 24 (mvSpans j.entry).2.2 (.data [])).isOk = true ∧ (mvFetch s j 0 8 (mvSourceLen j.entry) (.data [])).isOk = true ∧ (activeUnits s 4).contains (mvChan s 63).mover = true) ∧
    (let j : Job := { fn := .pf 0, entry := mvEntry 3 64 4 4 4 }; let s := mover 63 { jobs := [j], st := .running }; (mvChan s 63).jobs = [j] ∧ (mvChan s 63).st = .running ∧ entryField j.entry 0 1 = 3 ∧ j.src = none ∧ mayTake s (.pf 0) (entryField j.entry 24 8) = true ∧ (mvFetch s j 2 24 (mvSpans j.entry).2.2 (.data [])).isOk = true ∧ operandRead j.fn (entryField j.entry 8 8) .badAddress s = some s ∧ (mvFetch s j 0 8 (mvSourceLen j.entry) .badAddress).isOk = false ∧ (activeUnits s 4).contains (mvChan s 63).mover = true) := by
  refine ⟨?_, ?_, ?_⟩
  · decide +kernel
  · decide +kernel
  · decide +kernel

theorem witness_DataMover_1 :
    (let j : Job := { fn := .pf 0, entry := mvEntry 1 200 0 0 0, src := some (List.replicate 200 0) }; 0 + 1 < (mvPieces j).length ∧ ((mvPieces j).getD 0 none).isSome = true ∧ mvElementOk up j 0 = true ∧ mvPoisonAt up j 0 = none ∧ (mvWritePiece j 0 0 (List.replicate 64 0) up).1 = true) ∧
    (let j : Job := { fn := .pf 0, entry := mvEntry 1 200 0 0 0, src := some (List.replicate 200 0) }; 3 + 1 = (mvPieces j).length ∧ ((mvPieces j).getD 3 none).isSome = true ∧ mvElementOk up j 3 = true ∧ mvPoisonAt up j 3 = none ∧ (mvWritePiece j 3 192 (List.replicate 8 0) up).1 = true) := by
  refine ⟨?_, ?_⟩
  · decide +kernel
  · decide +kernel

theorem witness_DataMover_2 :
    (let j : Job := { fn := .pf 0, entry := mvEntry 1 64 0 0 0, pos := 0 }; let s := mover 63 { flushing := [j] }; (mvChan s 63).flushing = [j] ∧ [j] ≠ [] ∧ [j].any wroteHost = false) ∧
    (let j : Job := { fn := .pf 0, entry := mvEntry 1 64 0 0 0, pos := 1, src := some (List.replicate 64 0) }; let s := mover 63 { flushing := [j] }; (mvChan s 63).flushing = [j] ∧ [j] ≠ [] ∧ ([j].filter wroteHost).getLast? = some j ∧ mvLastAddr j = 0x203F ∧ mayTake s j.fn (mvLastAddr j) = true ∧ operandRead j.fn (mvLastAddr j) .badAddress s = some s) := by
  refine ⟨?_, ?_⟩
  · decide +kernel
  · decide +kernel

theorem witness_DataMover_3 :
    (let j : Job := { fn := .pf 0, entry := 1 }; let s := mover 63 { flushing := [j] }; (mvChan s 63).flushing ≠ []) ∧
    (let j : Job := { fn := .pf 0, entry := 1 }; let s := mover 63 { jobs := [j], st := .running }; (mvChan s 63).jobs ≠ [] ∧ (mvChan s 63).st ≠ .halted) ∧
    (let s := mover 63 { st := .halted, haltAt := some 0, failAddr := 9 }; (mvChan s 63).st = .halted ∧ (mvChan s 63).haltAt = some s.elapsed ∧ 8 < (mvChan s 63).failAddr) := by
  refine ⟨?_, ?_, ?_⟩
  · decide +kernel
  · decide +kernel
  · decide +kernel

theorem witness_DataMover_4 :
    (let j : Job := { fn := .pf 0, entry := 1, trk := some 0 }; let s := modRel (fun r => { r with units := (List.range 9).map (fun i => (4 * 65536 + i, { st := 3 })) }) (mover 63 { jobs := [j] }); mvLeast (fun c => mvPrio s c * 2 ^ 64 + (mvChan s c).waitNo) (mvSelect s mvReady) = some 63 ∧ blockWaits s 11 = false ∧ kindGone s 4 = true) ∧
    (let j : Job := { fn := .pf 0, entry := 1, trk := some 0 }; let s := mover 63 { jobs := [j] }; mvLeast (fun c => mvPrio s c * 2 ^ 64 + (mvChan s c).waitNo) (mvSelect s mvReady) = some 63 ∧ blockWaits s 11 = false ∧ kindGone s 4 = false ∧ unitDead s 0xB00 = false ∧ (freeMovers s).head? = some 0) ∧
    (let j : Job := { fn := .pf 0, entry := 1, trk := some 0 }; let s := modDmv (fun d => { d with chans := (List.range 8).map (fun i => (i, { jobs := [j], st := .running, mover := i })) ++ [(63, { jobs := [j] })] }) (mover 63 {}); let s := setReg .DMV_CH_CFG 0 7 0x87000000 s; mvLeast (fun c => mvPrio s c * 2 ^ 64 + (mvChan s c).waitNo) (mvSelect s mvReady) = some 63 ∧ blockWaits s 11 = false ∧ kindGone s 4 = false ∧ unitDead s 0xB00 = false ∧ freeMovers s = [] ∧ mvLeast (fun c => (7 - mvPrio s c) * 2 ^ 64 + (2 ^ 64 - 1 - (mvChan s c).runNo)) (mvRunning s) = some 7 ∧ mvPrio s 63 < mvPrio s 7) ∧
    (let j : Job := { fn := .pf 0, entry := 1, trk := some 0 }; let s := modDmv (fun d => { d with chans := (List.range 8).map (fun i => (i, { jobs := [j], st := .running, mover := i })) ++ [(63, { jobs := [j] })] }) (mover 63 {}); mvLeast (fun c => mvPrio s c * 2 ^ 64 + (mvChan s c).waitNo) (mvSelect s mvReady) = some 63 ∧ blockWaits s 11 = false ∧ kindGone s 4 = false ∧ unitDead s 0xB00 = false ∧ freeMovers s = [] ∧ mvLeast (fun c => (7 - mvPrio s c) * 2 ^ 64 + (2 ^ 64 - 1 - (mvChan s c).runNo)) (mvRunning s) = some 0 ∧ mvPrio s 0 ≤ mvPrio s 63) := by
  refine ⟨?_, ?_, ?_, ?_⟩
  · decide +kernel
  · decide +kernel
  · decide +kernel
  · decide +kernel

theorem witness_DataMover_5 :
    (let p : Path := .fn (.pf 0); let q := asPath p; let o1 := (regBar p .DMV_CH_SELECT 0).getD 0; let o2 := (regBar p .DMV_CH_CTRL 0).getD 0; let s0 := awake ([.rel, .dmv]) (setReg .DMV_CH_CFG 0 63 0x80001000 up); let s1 := plainReg q .DMV_CH_SELECT 0 (w32 63) (atWork p o1 s0); let s := atWork p o2 s1; vfPath p = false ∧ regBar p .DMV_CH_SELECT 0 = some o1 ∧ actsAt p o1 s0 = true ∧ regBar p .DMV_CH_CTRL 0 = some o2 ∧ actsAt p o2 s1 = true ∧ mvSelected s q = 63 ∧ mvControls s q 63 = false) ∧
    (let p : Path := .fn (.pf 0); let q := asPath p; let o1 := (regBar p .DMV_CH_SELECT 0).getD 0; let o2 := (regBar p .DMV_CH_CTRL 0).getD 0; let s0 := awake ([.rel, .dmv]) (mover 63 {}); let s1 := plainReg q .DMV_CH_SELECT 0 (w32 63) (atWork p o1 s0); let s := atWork p o2 s1; vfPath p = false ∧ regBar p .DMV_CH_SELECT 0 = some o1 ∧ actsAt p o1 s0 = true ∧ regBar p .DMV_CH_CTRL 0 = some o2 ∧ actsAt p o2 s1 = true ∧ mvSelected s q = 63 ∧ mvControls s q 63 = true ∧ (mvChan s 63).st ≠ .halted ∧ mvOwner s 63 ≠ .fw) ∧
    (let p : Path := .fn (.pf 0); let q := asPath p; let o1 := (regBar p .DMV_CH_SELECT 0).getD 0; let o2 := (regBar p .DMV_CH_CTRL 0).getD 0; let s0 := awake ([.rel, .dmv]) (mover 63 { st := .halted }); let s1 := plainReg q .DMV_CH_SELECT 0 (w32 63) (atWork p o1 s0); let s := atWork p o2 s1; vfPath p = false ∧ regBar p .DMV_CH_SELECT 0 = some o1 ∧ actsAt p o1 s0 = true ∧ regBar p .DMV_CH_CTRL 0 = some o2 ∧ actsAt p o2 s1 = true ∧ mvSelected s q = 63 ∧ mvControls s q 63 = true ∧ (mvChan s 63).st = .halted) ∧
    (let p : Path := .firmware; let q := asPath p; let o1 := (regBar p .DMV_CH_SELECT 0).getD 0; let o2 := (regBar p .DMV_CH_CTRL 0).getD 0; let s0 := awake ([.rel, .dmv]) (setReg .DMV_CH_CFG 0 63 0x80008000 (mover 63 { jobs := [{ fn := .pf 0, entry := 1 }] })); let s1 := plainReg q .DMV_CH_SELECT 0 (w32 63) (atWork p o1 s0); let s := atWork p o2 s1; vfPath p = false ∧ regBar p .DMV_CH_SELECT 0 = some o1 ∧ actsAt p o1 s0 = true ∧ regBar p .DMV_CH_CTRL 0 = some o2 ∧ actsAt p o2 s1 = true ∧ mvSelected s q = 63 ∧ mvOwner s 63 = .fw ∧ mayWrite s q .DMV_CH_DESC = true ∧ (mvChan s 63).jobs ≠ []) ∧
    (let p : Path := .firmware; let q := asPath p; let o1 := (regBar p .DMV_CH_SELECT 0).getD 0; let o2 := (regBar p .DMV_CH_CTRL 0).getD 0; let s0 := awake ([.rel, .dmv]) (setReg .DMV_CH_DESC 0 63 2 (setReg .DMV_CH_DESC 1 63 63 (setReg .DMV_CH_DESC 8 63 64 (setReg .DMV_CH_CFG 0 63 0x80008000 (mover 63 {}))))); let s1 := plainReg q .DMV_CH_SELECT 0 (w32 63) (atWork p o1 s0); let s := atWork p o2 s1; vfPath p = false ∧ regBar p .DMV_CH_SELECT 0 = some o1 ∧ actsAt p o1 s0 = true ∧ regBar p .DMV_CH_CTRL 0 = some o2 ∧ actsAt p o2 s1 = true ∧ mvSelected s q = 63 ∧ mvOwner s 63 = .fw ∧ mayWrite s q .DMV_CH_DESC = true ∧ (mvChan s 63).jobs = [] ∧ (mvChan s 63).flushing = [] ∧ modeFetches s = true ∧ headerStatus 5 (descEntry s 63) = 0 ∧ entryField (descEntry s 63) 4 1 % 64 = 63 ∧ mvStatus s .fw (descEntry s 63) = 0) := by
  refine ⟨?_, ?_, ?_, ?_, ?_⟩
  · decide +kernel
  · decide +kernel
  · decide +kernel
  · decide +kernel
  · decide +kernel

theorem witness_DataMover_6 :
    (let p : Path := .fn (.vf 0 0); let off := (regBar p .VF_DMV_CTRL 0).getD 0; let s0 := awake ([.rel, .dmv]) (cfgSet (.pf 0) 94 8 (vfMig {})); let s := modDmv (fun d => { d with vfChan := mset 0 d.vfChan (fnCode (.vf 0 0)) 63 }) (atWork p off s0); asPath p = .fn (.vf 0 0) ∧ regBar p .VF_DMV_CTRL 0 = some off ∧ actsAt p off s0 = true ∧ mvControls s (.fn (.vf 0 0)) 63 = false) ∧
    (let p : Path := .fn (.vf 0 0); let off := (regBar p .VF_DMV_CTRL 0).getD 0; let s0 := awake ([.rel, .dmv]) (setReg .DMV_CH_CFG 0 63 0x80004000 (modDmv (fun d => { d with chans := [(63, { st := .halted })] }) (cfgSet (.pf 0) 94 8 (vfMig {})))); let s := modDmv (fun d => { d with vfChan := mset 0 d.vfChan (fnCode (.vf 0 0)) 63 }) (atWork p off s0); asPath p = .fn (.vf 0 0) ∧ regBar p .VF_DMV_CTRL 0 = some off ∧ actsAt p off s0 = true ∧ mvControls s (.fn (.vf 0 0)) 63 = true ∧ (mvChan s 63).st = .halted) := by
  refine ⟨?_, ?_⟩
  · decide +kernel
  · decide +kernel

theorem witness_DataMover_7 :
    (let a : TrkAsk := { no := 9, sq := 2, nvme := true }; let s := setReg .STO_TRK_FN_LIMIT 0 0 1 (nvUp { cc := 1, rdy := true, cmds := [{ nvCmd 2 2 [] with trk := none }] }); mvLeast (fun c => (BitVec.ofNat 16 c - BitVec.ofNat 16 (s.sto.lastFn + 1)).toNat) ((trkFns s).filter (fun c => (oldestAsk s c).isSome && trkRoom s (fnOf c))) = some (fnCode (.pf 0)) ∧ oldestAsk s (fnCode (.pf 0)) = some a) ∧
    (let a : TrkAsk := { no := 0, sq := 0, ctr := 64 }; let w : Work := { stoWork 1 9 64 [] with trk := none }; let s := setReg .STO_TRK_FN_LIMIT 0 0 1 (sq0 (fun q => { q with work := [w] }) (rings 4)); mvLeast (fun c => (BitVec.ofNat 16 c - BitVec.ofNat 16 (s.sto.lastFn + 1)).toNat) ((trkFns s).filter (fun c => (oldestAsk s c).isSome && trkRoom s (fnOf c))) = some (fnCode (.pf 0)) ∧ oldestAsk s (fnCode (.pf 0)) = some a ∧ ((workOf (modWork (.pf 0) 0 64 (fun w => { w with trk := some (trkFree s) }) s) (.pf 0) 0 64).map (fun w => w.cls)) = some 4) ∧
    (let j : Job := { fn := .fw, entry := 1, arrived := 3 }; let a : TrkAsk := { no := 3, sq := 0, ch := some 63 }; let s := setReg .STO_TRK_FN_LIMIT 0 (fnCode .fw) 1 (mover 63 { jobs := [j] }); mvLeast (fun c => (BitVec.ofNat 16 c - BitVec.ofNat 16 (s.sto.lastFn + 1)).toNat) ((trkFns s).filter (fun c => (oldestAsk s c).isSome && trkRoom s (fnOf c))) = some (fnCode .fw) ∧ oldestAsk s (fnCode .fw) = some a) := by
  refine ⟨?_, ?_, ?_⟩
  · decide +kernel
  · decide +kernel
  · decide +kernel

theorem witness_ThreadInstructions_0 :
    ∀ x ∈ [(0x00, 31, 5), (0x01, 31, 0), (0x02, 0, 0), (0x03, 0, 0), (0x08, 0, 0), (0x09, 0, 5), (0x0A, 31, 5), (0x0B, 0, 0), (0x0C, 31, 5), (0x0D, 31, 0), (0x0E, 31, 0), (0x10, 0, 0), (0x14, 31, 0), (0x15, 0, 0)], let w := rtype x.1 x.2.2 (if x.1 = 0x0B then 0 else 6) 0 x.2.1 0x0B; let s := hart w; fastRuns s = true ∧ coreUp s 63 = true ∧ nextThread s 63 = some (15, 1023) ∧ stallPending s 1023 = [] ∧ (thread s 1023).pc % 2 = 0 ∧ fetchInstr s (thread s 1023) = some (some w, 4, w) ∧ opc w = 0x0B ∧ f3Of w = 0 ∧ f7Of w = x.1 ∧ rdOf w = x.2.1 ∧ rs2Of w = x.2.2 ∧ (x.1 = 0x0B → rs1Of w = 0) ∧ (thread s 1023).staging.length < 7 := by decide +kernel

theorem witness_ThreadInstructions_1 :
    (let u := channels [(1023, aThread)] []; (List.range 16).find? (fun k => (thread u (1023 / 16 * 16 + k)).st == .free) = some 0) ∧
    (let u := channels ((List.range 16).map (fun i => (1008 + i, aThread))) []; (List.range 16).find? (fun k => (thread u (1023 / 16 * 16 + k)).st == .free) = none) ∧
    (let u := channels [(1022, { st := .zombie, parent := some 1023 }), (1023, aThread)] []; 1022 < 1024 ∧ (thread u 1022).st = .zombie ∧ (thread u 1022).parent = some 1023) ∧
    (let u := channels [(1022, { st := .running, parent := some 1023 }), (1023, aThread)] []; 1022 < 1024 ∧ (thread u 1022).st = .running ∧ (thread u 1022).parent = some 1023) ∧
    (let u := channels [(1022, aThread), (1023, aThread)] []; (thread u 1023).mmode = true ∧ 1022 ≠ 1023 ∧ live u 1022 = true ∧ (thread u 1022).domain = (thread u 1023).domain) ∧
    (maySend (channels [(0, aThread)] []) 0 16384 = false ∧ mayRecv (channels [(0, aThread)] []) 0 1 = false) ∧
    (let u := channels [(0, aThread)] (List.replicate 16 aChMsg); maySend u 0 16383 = true ∧ chFull u 16383 = true) ∧
    (let u := channels [(0, aThread)] (List.replicate 15 aChMsg); maySend u 0 16383 = true ∧ chFull u 16383 = false ∧ mayRecv u 0 16383 = true ∧ (takeMsg 0 16383 u).isSome = true) ∧
    (let u := channels [(0, aThread)] []; mayRecv u 0 16383 = true ∧ (takeMsg 0 16383 u).isSome = false) ∧
    (freeHandleNo up = some 0 ∧ 14 ≤ 16380 ∧ (hallocNow 0 16380 0 up).isSome = true) ∧
    (∀ s : State, s.svc.handles = (List.range 65536).map (fun i => (i, { owner := .device, bytes := [] })) → freeHandleNo s = none) ∧
    (let x : Handle := { owner := .domain 0, bytes := [] }; let u := modSvc (fun v => { v with handles := [(65535, x)] }) (channels [(0, aThread)] []); mfind u.svc.handles 65535 = some x ∧ x.owner = .domain (thread u 0).domain) := by
  refine ⟨?_, ?_, ?_, ?_, ?_, ?_, ?_, ?_, ?_, ?_, ?_, ?_⟩
  · decide +kernel
  · decide +kernel
  · decide +kernel
  · decide +kernel
  · decide +kernel
  · decide +kernel
  · decide +kernel
  · decide +kernel
  · decide +kernel
  · decide +kernel
  · exact full_handles
  · decide +kernel

theorem witness_ThreadInstructions_2 :
    (let w := rtype 0x7F 31 31 7 31 0x37; let s := hart w; fastRuns s = true ∧ coreUp s 63 = true ∧ nextThread s 63 = some (15, 1023) ∧ stallPending s 1023 = [] ∧ (thread s 1023).pc % 2 = 0 ∧ fetchInstr s (thread s 1023) = some (some w, 4, w) ∧ opc w ≠ 0x0B ∧ opc w = 0x37) ∧
    (let w := rtype 0 0 0 0 31 0x17; let s := hart w; fastRuns s = true ∧ coreUp s 63 = true ∧ nextThread s 63 = some (15, 1023) ∧ stallPending s 1023 = [] ∧ (thread s 1023).pc % 2 = 0 ∧ fetchInstr s (thread s 1023) = some (some w, 4, w) ∧ opc w ≠ 0x0B ∧ opc w = 0x17) ∧
    (let w := rtype 0 0 0 0 1 0x6F; let s := hart w; fastRuns s = true ∧ coreUp s 63 = true ∧ nextThread s 63 = some (15, 1023) ∧ stallPending s 1023 = [] ∧ (thread s 1023).pc % 2 = 0 ∧ fetchInstr s (thread s 1023) = some (some w, 4, w) ∧ opc w ≠ 0x0B ∧ opc w = 0x6F) ∧
    (let w := rtype 0 1 1 0 0 0x63; let s := hart w; fastRuns s = true ∧ coreUp s 63 = true ∧ nextThread s 63 = some (15, 1023) ∧ stallPending s 1023 = [] ∧ (thread s 1023).pc % 2 = 0 ∧ fetchInstr s (thread s 1023) = some (some w, 4, w) ∧ opc w ≠ 0x0B ∧ opc w = 0x63 ∧ branchTaken (f3Of w) (xreg (thread s 1023) (rs1Of w)) (xreg (thread s 1023) (rs2Of w)) = some true) ∧
    (let w := rtype 0 1 1 1 0 0x63; let s := hart w; fastRuns s = true ∧ coreUp s 63 = true ∧ nextThread s 63 = some (15, 1023) ∧ stallPending s 1023 = [] ∧ (thread s 1023).pc % 2 = 0 ∧ fetchInstr s (thread s 1023) = some (some w, 4, w) ∧ opc w ≠ 0x0B ∧ opc w = 0x63 ∧ branchTaken (f3Of w) (xreg (thread s 1023) (rs1Of w)) (xreg (thread s 1023) (rs2Of w)) = some false) ∧
    (let w := rtype 0 1 1 0 0 0x33; let s := hart w; fastRuns s = true ∧ coreUp s 63 = true ∧ nextThread s 63 = some (15, 1023) ∧ stallPending s 1023 = [] ∧ (thread s 1023).pc % 2 = 0 ∧ fetchInstr s (thread s 1023) = some (some w, 4, w) ∧ opc w ≠ 0x0B ∧ opc w = 0x33 ∧ f7Of w = 0) ∧
    (let w := rtype 1 1 1 4 1 0x33; let s := hart w; fastRuns s = true ∧ coreUp s 63 = true ∧ nextThread s 63 = some (15, 1023) ∧ stallPending s 1023 = [] ∧ (thread s 1023).pc % 2 = 0 ∧ fetchInstr s (thread s 1023) = some (some w, 4, w) ∧ opc w ≠ 0x0B ∧ opc w = 0x33 ∧ f7Of w = 1) ∧
    (let w := 0x00000073; let s := hart w; fastRuns s = true ∧ coreUp s 63 = true ∧ nextThread s 63 = some (15, 1023) ∧ stallPending s 1023 = [] ∧ (thread s 1023).pc % 2 = 0 ∧ fetchInstr s (thread s 1023) = some (some w, 4, w) ∧ opc w ≠ 0x0B ∧ opc w = 0x73 ∧ w = 0x00000073) ∧
    (let w := 0x30200073; let s := hart w; fastRuns s = true ∧ coreUp s 63 = true ∧ nextThread s 63 = some (15, 1023) ∧ stallPending s 1023 = [] ∧ (thread s 1023).pc % 2 = 0 ∧ fetchInstr s (thread s 1023) = some (some w, 4, w) ∧ opc w ≠ 0x0B ∧ opc w = 0x73 ∧ w = 0x30200073 ∧ (thread s 1023).mmode = true) ∧
    (let w := 1; let s := hart w; fastRuns s = true ∧ coreUp s 63 = true ∧ nextThread s 63 = some (15, 1023) ∧ stallPending s 1023 = [] ∧ (thread s 1023).pc % 2 = 0 ∧ fetchInstr s (thread s 1023) = some (some 0x13, 2, 1) ∧ opc 0x13 ≠ 0x0B) := by
  refine ⟨?_, ?_, ?_, ?_, ?_, ?_, ?_, ?_, ?_, ?_⟩
  · decide +kernel
  · decide +kernel
  · decide +kernel
  · decide +kernel
  · decide +kernel
  · decide +kernel
  · decide +kernel
  · decide +kernel
  · decide +kernel
  · decide +kernel

theorem witness_ServiceArray_0 :
    let h : Thread := { st := .waiting, wait := some .until, deadline := some 5 }; let s := channels [(1023, h)] []; (thread s 1023).deadline = some 5 ∧ (thread s 1023).st = .waiting ∧ (thread s 1023).halted = false := by decide +kernel

theorem witness_ServiceArray_1 :
    let h : Thread := { st := .waiting, wait := some (.recv 16383), domain := 63 }; let s := modSvc (fun v => { v with channels := [(16383, { cfg := 0x803F3F04 })] }) (channels [(1023, h)] []); 63 < 64 ∧ (mget ({} : Domain) s.svc.domains 63).stalled = false ∧ stalledNow s 63 = true := by decide +kernel

theorem witness_ServiceArray_2 :
    (let m : ChMsg := { words := [0x10 + 65535 * 2 ^ 32, 60, 0, 0, 9], domain := 3 }; let w := (m.words.map (leBytes 8)).flatten; let s := modSvc (fun v => { v with channels := [(2, { msgs := [m] })] }) up; chMsgs s 2 = [m] ∧ s.tm.injectHeld = none ∧ cellFree s = true ∧ mfind s.svc.handles (leAt w 4 2) = none) ∧
    (let m : ChMsg := { words := [0x10 + 65535 * 2 ^ 32, 60, 0, 0, 9], domain := 3 }; let w := (m.words.map (leBytes 8)).flatten; let s := modSvc (fun v => { v with handles := [(65535, { owner := .domain 4, bytes := List.replicate 60 0 })] }) <| modSvc (fun v => { v with channels := [(2, { msgs := [m] })] }) up; chMsgs s 2 = [m] ∧ s.tm.injectHeld = none ∧ cellFree s = true ∧ (mfind s.svc.handles (leAt w 4 2)).isSome = true ∧ injectStatus s m ≠ 0) ∧
    (let m : ChMsg := { words := [0x10 + 65535 * 2 ^ 32, 60, 0, 0, 9], domain := 3 }; let w := (m.words.map (leBytes 8)).flatten; let s := modSvc (fun v => { v with handles := [(65535, { owner := .domain 3, bytes := List.replicate 60 0 })] }) <| modSvc (fun v => { v with channels := [(2, { msgs := [m] })] }) up; chMsgs s 2 = [m] ∧ s.tm.injectHeld = none ∧ cellFree s = true ∧ (mfind s.svc.handles (leAt w 4 2)).isSome = true ∧ injectStatus s m = 0) := by
  refine ⟨?_, ?_, ?_⟩
  · decide +kernel
  · decide +kernel
  · decide +kernel

theorem witness_ServiceArray_3 :
    (domSelected up = 0 ∧ controlsDomain up 5 0 = false) ∧
    (let s := setReg .SVC_DOMAIN_SELECT 0 (pathCode .firmware) 63 up; domSelected s = 63 ∧ controlsDomain s 0 63 = true ∧ fld (chCfg s 4) 13 8 ≠ 63) := by
  refine ⟨?_, ?_⟩
  · decide +kernel
  · decide +kernel

theorem witness_ServiceArray_4 :
    (let p : Path := .mgmt; let off := (regBar p .SVC_CH_CFG 0).getD 0; let s0 := awake ([.rel, .sto] ++ unitsOfKind 3) (setReg .SVC_CH_SELECT 0 (pathCode .mgmt) 16383 (modSvc (fun v => { v with channels := [(16383, { cfg := 0x80000004, msgs := [aChMsg] })] }) up)); let s := atWork p off s0; regBar p .SVC_CH_CFG 0 = some off ∧ actsAt p off s0 = true ∧ mayWrite s (asPath p) .SVC_CH_CFG = true ∧ fld (reg s .SVC_CH_SELECT 0 (pathCode (asPath p))) 13 0 = 16383 ∧ readMask .SVC_CH_CFG 0x80000005 ≠ chCfg s 16383 ∧ wbit (chCfg s 16383) 31 = true ∧ chBusy s 16383 = true) ∧
    (let p : Path := .mgmt; let off := (regBar p .SVC_CH_CFG 0).getD 0; let s0 := awake ([.rel, .sto] ++ unitsOfKind 3) (setReg .SVC_CH_SELECT 0 (pathCode .mgmt) 16383 (modSvc (fun v => { v with channels := (16383, { cfg := 0 }) :: (List.range 252).map (fun i => (16 + i, { cfg := 0x8000000C })) }) up)); let s := atWork p off s0; regBar p .SVC_CH_CFG 0 = some off ∧ actsAt p off s0 = true ∧ (mayWrite s (asPath p) .SVC_CH_CFG = true ∧ fld (reg s .SVC_CH_SELECT 0 (pathCode (asPath p))) 13 0 = 16383 ∧ let v := readMask .SVC_CH_CFG 0x80000004; 16 ≤ 16383 ∧ 4 ≤ fld v 3 0 ∧ fld v 3 0 ≤ 12 ∧ wbit (chCfg s 16383) 31 = false ∧ wbit v 31 = true ∧ 1048576 < slotsUsed s + 2 ^ fld v 3 0)) ∧
    (let p : Path := .mgmt; let off := (regBar p .SVC_CH_CFG 0).getD 0; let s0 := awake ([.rel, .sto] ++ unitsOfKind 3) (setReg .SVC_CH_SELECT 0 (pathCode .mgmt) 16383 (modSvc (fun v => { v with channels := [(16383, { cfg := 0, msgs := [] })] }) up)); let s := atWork p off s0; regBar p .SVC_CH_CFG 0 = some off ∧ actsAt p off s0 = true ∧ (mayWrite s (asPath p) .SVC_CH_CFG = true ∧ fld (reg s .SVC_CH_SELECT 0 (pathCode (asPath p))) 13 0 = 16383 ∧ let v := readMask .SVC_CH_CFG 0x8000000C; 16 ≤ 16383 ∧ 4 ≤ fld v 3 0 ∧ fld v 3 0 ≤ 12 ∧ wbit (chCfg s 16383) 31 = false ∧ wbit v 31 = true ∧ slotsUsed s + 2 ^ fld v 3 0 ≤ 1048576)) ∧
    (let p : Path := .mgmt; let off := (regBar p .SVC_CH_CFG 0).getD 0; let s0 := awake ([.rel, .sto] ++ unitsOfKind 3) (setReg .SVC_CH_SELECT 0 (pathCode .mgmt) 16383 (modSvc (fun v => { v with channels := [(16383, { cfg := 0, msgs := [] })] }) up)); let s := atWork p off s0; regBar p .SVC_CH_CFG 0 = some off ∧ actsAt p off s0 = true ∧ mayWrite s (asPath p) .SVC_CH_CFG = true ∧ fld (reg s .SVC_CH_SELECT 0 (pathCode (asPath p))) 13 0 = 16383 ∧ fld (readMask .SVC_CH_CFG 3) 3 0 < 4 ∧ 12 < fld (readMask .SVC_CH_CFG 13) 3 0 ∧ wbit (chCfg s 16383) 31 = false) := by
  refine ⟨?_, ?_, ?_, ?_⟩
  · decide +kernel
  · decide +kernel
  · decide +kernel
  · decide +kernel

theorem witness_ServiceArray_5 :
    ((let s := awake (unitsOfKind 3) up; coreUp s 63 = true)) ∧
    (coreUp up 63 = false) := by
  refine ⟨?_, ?_⟩
  · decide +kernel
  · decide +kernel

theorem witness_ServiceArray_6 :
    let s := modSvc (fun v => { v with hosts := [(63, List.range 17)] }) up; 16 < (coreContexts s 63).length := by decide +kernel

theorem witness_ServiceArray_7 :
    ∀ st ∈ [ThSt.running, ThSt.waiting], let s := channels [(1023, { st := st })] []; debugGrants s 1 = true ∧ (thread s 1023).st = st := by decide +kernel

theorem witness_ServiceArray_8 :
    let s := modLcs (fun l => { l with life := 2 }) up; debugGrants s 1 = false := by decide +kernel

theorem witness_ServiceArray_9 :
    (let off := (regBar (.fn (.pf 0)) .MBX_H2F_CTRL 0).getD 0; let s0 := awake ([.rel, .sto] ++ unitsOfKind 3) (modCai (fun c => { c with settings := { pfs := [{ enabled := true, vectors := 8 }] } }) (modSvc (fun v => { v with mbx := [(0, { h2fFull := true })] }) up)); let s := atWork (.fn (.pf 0)) off s0; regBar (.fn (.pf 0)) .MBX_H2F_CTRL 0 = some off ∧ actsAt (.fn (.pf 0)) off s0 = true ∧ hasMailbox s (.pf 0) = true ∧ wbit (0x80000038 : Word) 31 = true ∧ (mbxOf s (.pf 0)).h2fFull = true) ∧
    (let off := (regBar (.fn (.pf 0)) .MBX_H2F_CTRL 0).getD 0; let s0 := awake ([.rel, .sto] ++ unitsOfKind 3) (modCai (fun c => { c with settings := { pfs := [{ enabled := true, vectors := 8 }] } }) (modSvc (fun v => { v with mbx := [(0, { h2fFull := false })] }) up)); let s := atWork (.fn (.pf 0)) off s0; regBar (.fn (.pf 0)) .MBX_H2F_CTRL 0 = some off ∧ actsAt (.fn (.pf 0)) off s0 = true ∧ hasMailbox s (.pf 0) = true ∧ wbit (0x80000038 : Word) 31 = true ∧ (mbxOf s (.pf 0)).h2fFull = false) := by
  refine ⟨?_, ?_⟩
  · decide +kernel
  · decide +kernel

theorem witness_ServiceArray_10 :
    (let off := (regBar (.fn (.pf 0)) .MBX_F2H_POP 0).getD 0; let s0 := awake ([.rel, .sto] ++ unitsOfKind 3) (modCai (fun c => { c with settings := { pfs := [{ enabled := true, vectors := 8 }] } }) (modSvc (fun v => { v with mbx := [(0, { f2hFull := true })] }) up)); let s := atWork (.fn (.pf 0)) off s0; regBar (.fn (.pf 0)) .MBX_F2H_POP 0 = some off ∧ actsAt (.fn (.pf 0)) off s0 = true ∧ mfind s.shadow (shadowKey (.fn (.pf 0)) off) = none ∧ (mbxOf s (.pf 0)).f2hFull = true) ∧
    (let off := (regBar (.fn (.pf 0)) .MBX_F2H_POP 0).getD 0; let s0 := awake ([.rel, .sto] ++ unitsOfKind 3) (modCai (fun c => { c with settings := { pfs := [{ enabled := true, vectors := 8 }] } }) (modSvc (fun v => { v with mbx := [(0, { f2hFull := false })] }) up)); let s := atWork (.fn (.pf 0)) off s0; regBar (.fn (.pf 0)) .MBX_F2H_POP 0 = some off ∧ actsAt (.fn (.pf 0)) off s0 = true ∧ mfind s.shadow (shadowKey (.fn (.pf 0)) off) = none ∧ (mbxOf s (.pf 0)).f2hFull = false) := by
  refine ⟨?_, ?_⟩
  · decide +kernel
  · decide +kernel

theorem witness_ServiceArray_11 :
    (let p : Path := .mgmt; let off := (regBar p .SVC_FMBX_CTRL 0).getD 0; let s0 := awake ([.rel, .sto] ++ unitsOfKind 3) (up); let s := atWork p off s0; regBar p .SVC_FMBX_CTRL 0 = some off ∧ actsAt p off s0 = true ∧ (let v : Word := 0x80384FFF; mayWrite s (asPath p) .SVC_FMBX_CTRL = true ∧ wbit v 31 = true ∧ hasMailbox s (fnOfCode (fld v 14 0)) = false)) ∧
    (let p : Path := .mgmt; let off := (regBar p .SVC_FMBX_CTRL 0).getD 0; let s0 := awake ([.rel, .sto] ++ unitsOfKind 3) (modCai (fun c => { c with settings := { pfs := [{ enabled := true, vectors := 8 }] } }) (modSvc (fun v => { v with mbx := [(0, { f2hFull := false })] }) (modFn (.pf 0) (fun r => { r with ready := false }) up))); let s := atWork p off s0; regBar p .SVC_FMBX_CTRL 0 = some off ∧ actsAt p off s0 = true ∧ (let v : Word := 0x80380000; mayWrite s (asPath p) .SVC_FMBX_CTRL = true ∧ wbit v 31 = true ∧ hasMailbox s (fnOfCode (fld v 14 0)) = true ∧ (fnSt s (fnOfCode (fld v 14 0))).ready = false)) ∧
    (let p : Path := .mgmt; let off := (regBar p .SVC_FMBX_CTRL 0).getD 0; let s0 := awake ([.rel, .sto] ++ unitsOfKind 3) (modCai (fun c => { c with settings := { pfs := [{ enabled := true, vectors := 8 }] } }) (modSvc (fun v => { v with mbx := [(0, { f2hFull := true })] }) up)); let s := atWork p off s0; regBar p .SVC_FMBX_CTRL 0 = some off ∧ actsAt p off s0 = true ∧ (let v : Word := 0x80380000; mayWrite s (asPath p) .SVC_FMBX_CTRL = true ∧ wbit v 31 = true ∧ hasMailbox s (fnOfCode (fld v 14 0)) = true ∧ (fnSt s (fnOfCode (fld v 14 0))).ready = true ∧ (mbxOf s (fnOfCode (fld v 14 0))).f2hFull = true)) ∧
    (let p : Path := .mgmt; let off := (regBar p .SVC_FMBX_CTRL 0).getD 0; let s0 := awake ([.rel, .sto] ++ unitsOfKind 3) (modCai (fun c => { c with settings := { pfs := [{ enabled := true, vectors := 8 }] } }) (modSvc (fun v => { v with mbx := [(0, { f2hFull := false })] }) up)); let s := atWork p off s0; regBar p .SVC_FMBX_CTRL 0 = some off ∧ actsAt p off s0 = true ∧ (let v : Word := 0x80380000; mayWrite s (asPath p) .SVC_FMBX_CTRL = true ∧ wbit v 31 = true ∧ hasMailbox s (fnOfCode (fld v 14 0)) = true ∧ (fnSt s (fnOfCode (fld v 14 0))).ready = true ∧ (mbxOf s (fnOfCode (fld v 14 0))).f2hFull = false)) := by
  refine ⟨?_, ?_, ?_, ?_⟩
  · decide +kernel
  · decide +kernel
  · decide +kernel
  · decide +kernel

theorem witness_AkzalCascade_0 :
    let s := setReg .AKZ_CFG 0 0 2 up; 1 < 2 ∧ (akzPort s 1).up = false ∧ akzMayRun s 1 = true := by decide +kernel

theorem witness_AkzalCascade_1 :
    (1 : Nat) < 2 := by decide +kernel

theorem witness_AkzalCascade_2 :
    let s := modAkzPort 1 (fun x => { x with expect := 4095 }) chained; 1 < 2 ∧ (akzPort s 1).up = true ∧ 8191 % 4096 = (akzPort s 1).expect ∧ 0 % 4096 ≠ (akzPort s 1).expect ∧ 7 < 8 := by decide +kernel

theorem witness_AkzalCascade_3 :
    (let f : LinkFrame := { seq := 4095, item := { header := List.replicate 8 0, body := [] } }; let s := modAkzPort 1 (fun x => { x with replay := [f], replayed := 8 }) chained; 1 < 2 ∧ (akzPort s 1).up = true ∧ (let s1 := acked 1 ((4095 + 4095) % 4096) s; ((akzPort s1 1).replay.map LinkFrame.seq).head? = some (4095 % 4096) ∧ 8 ≤ (akzPort s1 1).replayed)) ∧
    (let f : LinkFrame := { seq := 0, item := { header := List.replicate 8 0, body := [] } }; let s := modAkzPort 1 (fun x => { x with replay := [f], replayed := 7 }) chained; 1 < 2 ∧ (akzPort s 1).up = true ∧ (let s1 := acked 1 ((4096 + 4095) % 4096) s; ((akzPort s1 1).replay.map LinkFrame.seq).head? = some (4096 % 4096) ∧ (akzPort s1 1).replayed < 8)) := by
  refine ⟨?_, ?_⟩
  · decide +kernel
  · decide +kernel

theorem witness_AkzalCascade_4 :
    1 < 2 ∧ (akzPort chained 1).up = true := by decide +kernel

theorem witness_AkzalCascade_5 :
    let h : Hello := {}; 1 < 2 ∧ (akzPort chained 1).up = true ∧ h.joined = true := by decide +kernel

theorem witness_AkzalCascade_6 :
    1 < 2 ∧ (akzPort chained 1).up = true := by decide +kernel

theorem witness_AkzalCascade_7 :
    (let s := modAkz (fun a => { a with reachable := 0x86, masterOk := 0x84 }) chained; (maskBits s.akz.reachable).find? (bitOf ((s.akz.masterOk &&& (255 - 2 ^ s.akz.member)) ||| (if wbit (reg s .AKZ_CFG 0 0) 3 then 2 ^ s.akz.member else 0))) = some 1 ∧ some 1 ≠ s.akz.master) ∧
    (let s := modAkz (fun a => { a with reachable := 0x86, masterOk := 0x84, master := some 1 }) chained; (maskBits s.akz.reachable).find? (bitOf ((s.akz.masterOk &&& (255 - 2 ^ s.akz.member)) ||| (if wbit (reg s .AKZ_CFG 0 0) 3 then 2 ^ s.akz.member else 0))) = s.akz.master) := by
  refine ⟨?_, ?_⟩
  · decide +kernel
  · decide +kernel

theorem witness_AkzalCascade_8 :
    (let p : Path := .mgmt; let off := (regBar p .AKZ_CTRL 0).getD 0; let s0 := awake ([.akzPort 0, .akzPort 1]) (modAkz (fun a => { a with members := 0x82, whole := true }) chained); let s := atWork p off s0; regBar p .AKZ_CTRL 0 = some off ∧ actsAt p off s0 = true ∧ mayWrite s p .AKZ_CTRL = true ∧ 7 < 8 ∧ bitOf (reachNow s) 7 = false ∧ bitOf s.akz.members 7 = true ∧ s.akz.whole = true) ∧
    (let p : Path := .mgmt; let off := (regBar p .AKZ_CTRL 0).getD 0; let s0 := awake ([.akzPort 0, .akzPort 1]) (modAkz (fun a => { a with members := 0x82, whole := false }) chained); let s := atWork p off s0; regBar p .AKZ_CTRL 0 = some off ∧ actsAt p off s0 = true ∧ mayWrite s p .AKZ_CTRL = true ∧ 7 < 8 ∧ bitOf (reachNow s) 7 = false ∧ bitOf s.akz.members 7 = true ∧ s.akz.whole = false ∧ (let s1 := modAkz (fun a => { a with members := a.members &&& (255 - 2 ^ 7), serials := mdel a.serials 7 }) s; s1.akz.joined = true ∧ (maskBits s1.akz.members).all (fun k => bitOf (reachNow s1) k) = true)) := by
  refine ⟨?_, ?_⟩
  · decide +kernel
  · decide +kernel

theorem witness_AkzalCascade_9 :
    (1 < 2 ∧ chained.akz.joined = true ∧ controlRoom chained 1 2 (controlItem chained 2 0 (List.replicate 64 0)) = true) ∧
    (let s := modAkzPort 1 (fun x => { x with up := false }) chained; 1 < 2 ∧ s.akz.joined = true ∧ controlRoom s 1 2 (controlItem s 2 0 (List.replicate 64 0)) = false) := by
  refine ⟨?_, ?_⟩
  · decide +kernel
  · decide +kernel

theorem witness_AkzalCascade_10 :
    ((akzPort chained 1).timeSent.find? (fun e => e.1 == leAt (List.replicate 64 0) 12 2 && decide (chained.elapsed ≤ e.2.2 + 4000000)) = none ∧ 1 < 2 ∧ (akzPort chained 1).up = true) ∧
    (let b : Bytes := overwrite (List.replicate 64 0) 26 [2]; let s := modSlot (0x13 + 1) (fun r => { r with st := .qualified }) (modAkzPort 1 (fun x => { x with timeSent := [(0, 5, 0)] }) chained); 1 < 2 ∧ (akzPort s 1).up = true ∧ (akzPort s 1).timeSent.find? (fun e => e.1 == leAt b 12 2 && decide (s.elapsed ≤ e.2.2 + 4000000)) = some (0, 5, 0) ∧ (slotOf s (0x13 + 1)).st ≠ .disabled ∧ 2 ≤ byteAt b 26 ∧ leAt b 28 4 ≠ 0xFFFFFFFF ∧ bitOf (byteAt b 35) s.akz.member = false) := by
  refine ⟨?_, ?_⟩
  · decide +kernel
  · decide +kernel

theorem witness_AkzalCascade_11 :
    (∀ m ∈ [Mode.service, Mode.spared, Mode.isolated], let s := modCai (fun c => { c with mode := m }) (modLcs (fun l => { l with running := [1] }) chained); s.cai.mode = m ∧ (akzPort s 1).up = true ∧ s.lcs.running ≠ []) ∧
    (let s := modCai (fun c => { c with straps := 0x20, bringup := some { waitUntil := some 9 } }) chained; bitOf s.cai.straps.toNat 5 = true ∧ (s.cai.bringup.map Bringup.waitUntil).getD none ≠ none) := by
  refine ⟨?_, ?_⟩
  · decide +kernel
  · decide +kernel

theorem witness_AkzalCascade_12 :
    (let b : Bytes := leBytes 4 0 ++ leBytes 4 2 ++ List.replicate 48 0 ++ [7]; let s := modAkz (fun a => { a with whole := true, master := none }) chained; (akzPort s 0).up = true ∧ s.akz.whole = true ∧ leAt b 0 4 = 0 ∧ s.cai.mode ≠ .bringup ∧ (b.drop 56).length < leAt b 4 4) ∧
    (let b : Bytes := leBytes 4 0 ++ leBytes 4 1 ++ sha384 [7] ++ [7]; let s := modAkz (fun a => { a with whole := true, master := none }) chained; (akzPort s 0).up = true ∧ s.akz.whole = true ∧ leAt b 0 4 = 0 ∧ s.cai.mode ≠ .bringup ∧ leAt b 4 4 ≤ (b.drop 56).length ∧ s.akz.master = none ∧ (sha384 (b.drop 56) == slice b 8 48) = true) ∧
    (let b : Bytes := leBytes 4 0 ++ leBytes 4 1 ++ sha384 [7] ++ [7]; let s := modAkz (fun a => { a with whole := true, master := some 7 }) chained; (akzPort s 0).up = true ∧ s.akz.whole = true ∧ leAt b 0 4 = 0 ∧ s.cai.mode ≠ .bringup ∧ leAt b 4 4 ≤ (b.drop 56).length ∧ s.akz.master = some 7 ∧ (sha384 (b.drop 56) == slice b 8 48) = true) ∧
    (let b : Bytes := leBytes 4 1 ++ List.replicate 52 0; let s := modAkz (fun a => { a with whole := true, imgGot := [7] }) chained; (akzPort s 0).up = true ∧ s.akz.whole = true ∧ leAt b 0 4 = s.akz.imgGot.length ∧ s.cai.mode ≠ .bringup) := by
  refine ⟨?_, ?_, ?_, ?_⟩
  · decide +kernel
  · decide +kernel
  · decide +kernel
  · decide +kernel

theorem witness_AkzalCascade_13 :
    (isMaster up = true) ∧
    (let s := modAkz (fun a => { a with master := some 7 }) chained; isMaster s = false ∧ s.akz.master = some 7) := by
  refine ⟨?_, ?_⟩
  · decide +kernel
  · decide +kernel

theorem witness_Reliability_0 :
    ((unitCounts 4).1 ≤ 65535) ∧
    (let s := up; (unitOf s 0 0).st = 0 ∧ 0 < (unitCounts 0).1 ∧ instanceGated s 0 0 = true) ∧
    (let s := awake [.prsPair 0] up; let s1 := modUnit 0 0 (addCount s 0) s; (unitOf s 0 0).st = 0 ∧ 0 < (unitCounts 0).1 ∧ instanceGated s 0 0 = false ∧ screeValue s1 0 (unitOf s1 0 0) < screeThreshold s 0) ∧
    (let s := setReg .REL_SCREE_CFG 0 0 0x01000001 (awake [.prsPair 0] up); let s1 := modUnit 0 0 (addCount s 0) s; (unitOf s 0 0).st = 0 ∧ 0 < (unitCounts 0).1 ∧ instanceGated s 0 0 = false ∧ screeThreshold s 0 ≤ screeValue s1 0 (unitOf s1 0 0)) ∧
    (let s := up; let s1 := modUnit 8 2 (addCount s 8) s; (unitOf s 8 2).st = 0 ∧ 2 < (unitCounts 8).1 ∧ instanceGated s 8 2 = false ∧ screeValue s1 8 (unitOf s1 8 2) < screeThreshold s 8) ∧
    (let u := addCount up 10 (mget {} up.rel.rows (rowKey 10 3 4096)); 10 < 11 ∧ screeValue up 10 u < screeThreshold up 10) := by
  refine ⟨?_, ?_, ?_, ?_, ?_, ?_⟩
  · decide +kernel
  · decide +kernel
  · decide +kernel
  · decide +kernel
  · decide +kernel
  · decide +kernel

theorem witness_Reliability_1 :
    (up.cai.mode ≠ .off ∧ up.cai.mode = .service) ∧
    ((modCai (fun c => { c with mode := .off }) up).cai.mode = .off) ∧
    (∀ m ∈ [Mode.bringup, .service, .spared, .pause, .drain, .isolated, .recovery, .held, .standby, .test, .returned], let s := modCai (fun c => { c with mode := m }) up; s.cai.mode = m ∧ m ≠ .off) := by
  refine ⟨?_, ?_, ?_⟩
  · decide +kernel
  · decide +kernel
  · decide +kernel

theorem witness_Reliability_2 :
    ∃ s1 : State, s1 = advanceTo (ceilDiv ((subWindow up 0 + 1) * screeWindow up 0) 8) up := ⟨_, rfl⟩

theorem witness_Reliability_3 :
    (let h : Handoff := { kind := 0, leaves := 135, joins := some 128 }; let s := modRel (fun r => { r with handoffs := [h] }) up; s.rel.handoffs.find? (fun h => h.kind == 0) = some h ∧ h.joins = some 128) ∧
    (let h : Handoff := { kind := 0, leaves := 135, joins := none }; let s := modRel (fun r => { r with handoffs := [h] }) up; s.rel.handoffs.find? (fun h => h.kind == 0) = some h ∧ h.joins = none ∧ 0 ≠ 3) := by
  refine ⟨?_, ?_⟩
  · decide +kernel
  · decide +kernel

theorem witness_Reliability_4 :
    (let s0 := modRel (fun r => { r with units := [(6 * 65536 + 17, { st := 3 })] }) up; let u := unitOf s0 6 17; let s := advanceTo (u.retiredAt + dfld s0 .REL_REPAIR_DELAY 31 0 * 1000000000) s0; let s1 := newEpoch 6 17 (modUnit 6 17 (fun u => { u with strikes := 1, counts := [] }) s); u.st = 3 ∧ 6 < 7 ∧ (unitCounts 6).2 ≤ (activeUnits s1 6).length + (s1.rel.handoffs.filter (fun h => h.kind == 6 && h.joins.isSome)).length ∧ (let s2 := mcLog 4 6 17 0xFFFF (unitOf s1 6 17).epoch 0 0 (modUnit 6 17 (fun u => { u with st := 1 }) s1); engagedOf s2 6 = 0)) ∧
    (let s0 := modRel (fun r => { r with engaged := [(6, 1)], units := [(6 * 65536 + 17, { st := 3 })] }) up; let u := unitOf s0 6 17; let s := advanceTo (u.retiredAt + dfld s0 .REL_REPAIR_DELAY 31 0 * 1000000000) s0; let s1 := newEpoch 6 17 (modUnit 6 17 (fun u => { u with strikes := 1, counts := [] }) s); u.st = 3 ∧ 6 < 7 ∧ (unitCounts 6).2 ≤ (activeUnits s1 6).length + (s1.rel.handoffs.filter (fun h => h.kind == 6 && h.joins.isSome)).length ∧ (let s2 := mcLog 4 6 17 0xFFFF (unitOf s1 6 17).epoch 0 0 (modUnit 6 17 (fun u => { u with st := 1 }) s1); 0 < engagedOf s2 6)) ∧
    (let s0 := modRel (fun r => { r with units := [(6 * 65536 + 17, { st := 3 }), (6 * 65536, { st := 5 })] }) up; let u := unitOf s0 6 17; let s := advanceTo (u.retiredAt + dfld s0 .REL_REPAIR_DELAY 31 0 * 1000000000) s0; let s1 := newEpoch 6 17 (modUnit 6 17 (fun u => { u with strikes := 1, counts := [] }) s); u.st = 3 ∧ 6 < 7 ∧ (activeUnits s1 6).length + (s1.rel.handoffs.filter (fun h => h.kind == 6 && h.joins.isSome)).length < (unitCounts 6).2) := by
  refine ⟨?_, ?_, ?_⟩
  · decide +kernel
  · decide +kernel
  · decide +kernel

theorem witness_Reliability_5 :
    (readLine true (List.replicate 80 0) = .clean) ∧
    (readLine true (overwrite (List.replicate 80 0) 79 [255]) = .corrected) ∧
    (readLine true (poisonedLine true (List.replicate 64 0)) = .poisoned) ∧
    (readLine false (List.replicate 76 0) = .clean) ∧
    (readLine false (overwrite (List.replicate 76 0) 75 [255]) = .corrected) ∧
    (readLine false (overwrite (List.replicate 76 0) 0 [1, 0, 0, 0, 2, 0, 0, 0, 3]) = .uncorrectable) ∧
    (readLine false (poisonedLine false (List.replicate 64 0)) = .poisoned) := by
  refine ⟨?_, ?_, ?_, ?_, ?_, ?_, ?_⟩
  · decide +kernel
  · decide +kernel
  · decide +kernel
  · decide +kernel
  · decide +kernel
  · decide +kernel
  · decide +kernel

theorem witness_Reliability_6 :
    let s := modCai (fun c => { c with fatalRestartAt := some 9 }) up; s.cai.fatalRestartAt = some 9 := by decide +kernel

theorem witness_TokensAndUpdates_0 :
    let p : Path := .mgmt; let off := (regBar p .LCS_TOKEN_CTRL 0).getD 0; let s := up; regBar p .LCS_TOKEN_CTRL 0 = some off ∧ pathOpen s p = true ∧ lcsAccess s (asPath p) off = true ∧ s.lcs.life ≠ 4 ∧ mayWrite s (asPath p) .LCS_TOKEN_CTRL = true := by decide +kernel

theorem witness_TokensAndUpdates_1 :
    (tokenFormOk [] = false) ∧
    (let t : Bytes := padTo 352 (leBytes 4 0x5A4E544B ++ [2, 1]); tokenFormOk t = true) := by
  refine ⟨?_, ?_⟩
  · decide +kernel
  · decide +kernel

theorem witness_TokensAndUpdates_2 :
    (let p : Path := .mgmt; let off := (regBar p .LCS_TOKEN_CTRL 0).getD 0; let s := up; regBar p .LCS_TOKEN_CTRL 0 = some off ∧ pathOpen s p = true ∧ lcsAccess s (asPath p) off = true ∧ s.lcs.life ≠ 4 ∧ mayWrite s (asPath p) .LCS_TOKEN_CTRL = true) ∧
    (let d : DebugSession := { perms := 15, endAt := 9 }; let s := modLcs (fun l => { l with session := some d }) up; s.lcs.session = some d) := by
  refine ⟨?_, ?_⟩
  · decide +kernel
  · decide +kernel

theorem witness_TokensAndUpdates_3 :
    (let p : Path := .firmware; let off := (regBar p .LCS_NONCE_LO 0).getD 0; let s := up; regBar p .LCS_NONCE_LO 0 = some off ∧ pathOpen s p = true ∧ lcsAccess s (asPath p) off = true ∧ s.lcs.life ≠ 4 ∧ asPath p = .firmware) ∧
    (let p : Path := .mgmt; let off := (regBar p .LCS_NONCE_LO 0).getD 0; let s := up; regBar p .LCS_NONCE_LO 0 = some off ∧ pathOpen s p = true ∧ lcsAccess s (asPath p) off = true ∧ s.lcs.life ≠ 4 ∧ asPath p = .mgmt) := by
  refine ⟨?_, ?_⟩
  · decide +kernel
  · decide +kernel

theorem witness_TokensAndUpdates_4 :
    (let s := modFn (.pf 1) (fun x => { x with ready := true }) up; firmwareUp s = true ∧ (fnSt s (.pf 1)).ready = true ∧ fnPf0 s (.pf 1) = false) ∧
    (let s := modFn (.pf 0) (fun x => { x with ready := true }) up; firmwareUp s = true ∧ (fnSt s (.pf 0)).ready = true ∧ fnPf0 s (.pf 0) = true ∧ isMaster s = true) ∧
    (let s := modFn (.pf 0) (fun x => { x with ready := true }) up; mayTake s (.pf 0) 0 = true ∧ operandRead (.pf 0) 0 .badAddress s = some s) := by
  refine ⟨?_, ?_, ?_⟩
  · decide +kernel
  · decide +kernel
  · decide +kernel

theorem witness_TokensAndUpdates_5 :
    (let s := modFn (.pf 1) (fun x => { x with ready := true }) (modCai (fun c => { c with settings := { pfs := [{}, { enabled := true }] } }) up); firmwareUp s = true ∧ (fnSt s (.pf 1)).ready = true ∧ actionAsker s (.fn (.pf 1)) = some (some (.pf 1)) ∧ askerOk s (some (.pf 1)) = false) ∧
    (let p : Path := .mgmt; let off := (regBar p .LCS_FW_CTRL 0).getD 0; let s := modLcs (fun l => { l with staged := some [1], committed := true }) up; regBar p .LCS_FW_CTRL 0 = some off ∧ pathOpen s p = true ∧ lcsAccess s (asPath p) off = true ∧ s.lcs.life ≠ 4 ∧ (match p with  | .fn _ => False  | _ => True) ∧ mayWrite s p .LCS_FW_CTRL = true ∧ actionAsker s p = some none ∧ askerOk s none = true ∧ s.cai.mode = .service ∧ isMaster s = true ∧ s.lcs.chain = none ∧ chainWhole s = true ∧ s.lcs.staged.isSome = true ∧ allVerified s = true ∧ s.lcs.committed = true) ∧
    (let p : Path := .mgmt; let off := (regBar p .LCS_FW_CTRL 0).getD 0; let s := modLcs (fun l => { l with committed := false }) up; regBar p .LCS_FW_CTRL 0 = some off ∧ pathOpen s p = true ∧ lcsAccess s (asPath p) off = true ∧ s.lcs.life ≠ 4 ∧ mayWrite s p .LCS_FW_CTRL = true ∧ actionAsker s p = some none ∧ askerOk s none = true ∧ s.cai.mode = .service ∧ isMaster s = true ∧ s.lcs.chain = none ∧ s.lcs.committed = false ∧ rollingBack s = false) ∧
    (let p : Path := .mgmt; let off := (regBar p .LCS_FW_CTRL 0).getD 0; let s := modCai (fun c => { c with mode := .drain }) up; regBar p .LCS_FW_CTRL 0 = some off ∧ pathOpen s p = true ∧ lcsAccess s (asPath p) off = true ∧ s.lcs.life ≠ 4 ∧ mayWrite s p .LCS_FW_CTRL = true ∧ actionAsker s p = some none ∧ s.cai.mode ≠ .service ∧ s.cai.mode ≠ .spared) := by
  refine ⟨?_, ?_, ?_, ?_⟩
  · decide +kernel
  · decide +kernel
  · decide +kernel
  · decide +kernel

theorem witness_TokensAndUpdates_6 :
    (let s := setReg .LCS_FW_CFG 0 0 1 (modLcs (fun l => { l with committed := false }) up); dfld s .LCS_FW_CFG 15 0 ≠ 0 ∧ s.lcs.committed = false ∧ rollingBack s = false) ∧
    (let s := modLcs (fun l => { l with dir0 := some {}, dirPending := none }) up; directory s = some (0, {})) := by
  refine ⟨?_, ?_⟩
  · decide +kernel
  · decide +kernel

theorem witness_TokensAndUpdates_7 :
    (let s := modLcs (fun l => { l with staged := some [1] }) chained; isMaster s = false ∧ s.lcs.switch_ = none ∧ (enterSwitch false true s).isSome = true) ∧
    (let s := modLcs (fun l => { l with committed := true }) (modAkz (fun a => { a with master := some 7 }) chained); isMaster s = false ∧ s.lcs.switch_ = none ∧ (enterSwitch true true s).isSome = false ∧ s.akz.master = some 7) := by
  refine ⟨?_, ?_⟩
  · decide +kernel
  · decide +kernel

theorem witness_TokensAndUpdates_8 :
    ∀ m ∈ [Mode.service, Mode.spared], let s := modCai (fun c => { c with mode := m }) (modLcs (fun l => { l with staged := some [1] }) up); s.cai.mode = m ∧ s.lcs.staged = some [1] := by decide +kernel

theorem witness_TokensAndUpdates_9 :
    let p : Path := .mgmt; let off := (regBar p .LCS_FW_CTRL 0).getD 0; let s := modLcs (fun l => { l with switch_ := some { entered := 0, bank := 1 } }) paused; regBar p .LCS_FW_CTRL 0 = some off ∧ pathOpen s p = true ∧ lcsAccess s (asPath p) off = true ∧ s.lcs.life ≠ 4 ∧ s.lcs.switch_ = some { entered := 0, bank := 1 } ∧ s.cai.mode = .pause ∧ mayWrite s p .LCS_FW_CTRL = true ∧ s.elapsed ≤ 0 + 2500000 := by decide +kernel

theorem witness_TokensAndUpdates_10 :
    let c : ChainSwitch := { left := [7, 0] }; let s := modLcs (fun l => { l with chain := some c }) up; s.lcs.chain = some c ∧ c.left.head? = some 7 := by decide +kernel

theorem witness_TokensAndUpdates_11 :
    (let s := modLcs (fun l => { l with dirPending := some 9 }) up; s.lcs.dirPending.isSome = true ∧ directory s = none) ∧
    (let s := modLcs (fun l => { l with dirPending := some 9, dir1 := some { seq := 4294967295 } }) up; s.lcs.dirPending.isSome = true ∧ directory s = some (1, { seq := 4294967295 })) := by
  refine ⟨?_, ?_⟩
  · decide +kernel
  · decide +kernel

theorem witness_PldmUpdate_0 :
    (let s := setPldm .idle up; firmwareUp s = true ∧ s.lcs.pldm = .idle) ∧
    (let s := setPldm .learn up; firmwareUp s = true ∧ s.lcs.pldm = .learn) ∧
    (let s := setPldm .ready up; firmwareUp s = true ∧ s.lcs.pldm = .ready) := by
  refine ⟨?_, ?_, ?_⟩
  · decide +kernel
  · decide +kernel
  · decide +kernel

theorem witness_PldmUpdate_1 :
    (let s := setPldm .download (modLcs (fun l => { l with pldmLen := 2 }) up); firmwareUp s = true ∧ s.lcs.pldm = .download ∧ (let s1 := modLcs (fun l => { l with pldmGot := (l.pldmGot ++ [1]).take l.pldmLen }) s; s1.lcs.pldmGot.length < s1.lcs.pldmLen)) ∧
    (let s := setPldm .download (modLcs (fun l => { l with pldmLen := 2 }) up); let s1 := modLcs (fun l => { l with pldmGot := (l.pldmGot ++ [1, 2]).take l.pldmLen }) s; firmwareUp s = true ∧ s.lcs.pldm = .download ∧ s1.lcs.pldmLen ≤ s1.lcs.pldmGot.length ∧ isMaster (pldm 0x16 0 [] s1) = true ∧ (stageImage s1.lcs.pldmGot (pldm 0x16 0 [] s1)).1 ≠ 0) := by
  refine ⟨?_, ?_⟩
  · decide +kernel
  · decide +kernel

theorem witness_PldmUpdate_2 :
    let s := setPldm .ready up; firmwareUp s = true ∧ s.lcs.pldm = .ready := by decide +kernel

theorem witness_RegisterAccess_0 :
    (Reg.TIM_SERVO_CFG ∈ [Reg.TIM_SERVO_CFG, .TIM_TRACE_CFG, .CAI_PM_CFG, .CAI_LED_CFG, .CAI_FAULT, .CAI_MODE, .HIF_ACCESS_ERR, .TBL_STATUS, .MBX_STATUS] ∧ findsAt .mgmt 0x1A00140 .TIM_SERVO_CFG 0 = true ∧ actsAt .mgmt 0x1A00140 up = true ∧ mayWrite up .mgmt .TIM_SERVO_CFG = true ∧ regPlace up .mgmt .TIM_SERVO_CFG 0 = some (0, 0)) ∧
    (findsAt (.fn (.pf 0)) 0x10C .CAI_FAULT 0 = true ∧ actsAt (.fn (.pf 0)) 0x10C (rings 0) = true ∧ mayWrite (rings 0) (.fn (.pf 0)) .CAI_FAULT = true ∧ regPlace (rings 0) (.fn (.pf 0)) .CAI_FAULT 0 = some (0, 0)) := by
  refine ⟨?_, ?_⟩
  · decide +kernel
  · decide +kernel

theorem witness_RegisterAccess_1 :
    (pathOpen (rings 0) (.fn (.pf 0)) = true ∧ ¬(2 = 4 ∧ 0x102 % 4 = 0) ∧ bar2Rest (rings 0) (.fn (.pf 0)) 0x102 = false ∧ ¬(2 = 8 ∧ wideHonoured (rings 0) (.fn (.pf 0)) 0x102 = true) ∧ wbit (reg (rings 0) .HIF_ACCESS_ERR 0 (fnCode (.pf 0))) 0 = false) ∧
    (let s := hwSet .HIF_ACCESS_ERR 0 (fnCode (.pf 0)) 0 (rings 0); pathOpen s (.fn (.pf 0)) = true ∧ bar2Rest s (.fn (.pf 0)) 0x3000002 = false ∧ wbit (reg s .HIF_ACCESS_ERR 0 (fnCode (.pf 0))) 0 = true) ∧
    (∀ p ∈ [Path.firmware, .mgmt, .debug], pathOpen up p = true ∧ bar2Rest up p 0x1A00140 = false ∧ ¬(8 = 8 ∧ wideHonoured up p 0x1A00140 = true)) := by
  refine ⟨?_, ?_, ?_⟩
  · decide +kernel
  · decide +kernel
  · decide +kernel

theorem witness_RegisterAccess_2 :
    (let s : State := { up with shadow := [(shadowKey .mgmt 0x1A00114, 5)] }; findsAt .mgmt 0x1A00114 .TIM_SNAP_SEC_HI 0 = true ∧ countsAt .mgmt 0x1A00114 = false ∧ actsAt .mgmt 0x1A00114 s = true ∧ mfind s.shadow (shadowKey .mgmt 0x1A00114) = some 5) ∧
    (findsAt .mgmt 0x1A00110 .TIM_SNAP_SEC_LO 0 = true ∧ countsAt .mgmt 0x1A00110 = false ∧ actsAt .mgmt 0x1A00110 up = true ∧ lowWord .TIM_SNAP_SEC_LO 0 = true ∧ mfind up.shadow (shadowKey .mgmt 0x1A00110) = none ∧ regAt .mgmt (0x1A00110 + 4) = some (.TIM_SNAP_SEC_HI, 0)) := by
  refine ⟨?_, ?_⟩
  · decide +kernel
  · decide +kernel

theorem witness_RegisterAccess_3 :
    ((regBar .mgmt .TIM_REF_MISSES 19).any (fun off => decide (findsAt .mgmt off .TIM_REF_MISSES 19 = true ∧ countsAt .mgmt off = false ∧ actsAt .mgmt off up = true ∧ off % 4 = 0 ∧ mfind up.shadow (shadowKey .mgmt off) = none ∧ regPlace (atWork .mgmt off up) .mgmt .TIM_REF_MISSES 19 = some (19, 0))) = true) ∧
    (lowWord .TIM_REF_MISSES 19 = false ∧ Reg.TIM_REF_MISSES ≠ .MBX_F2H_POP ∧ regPlace up .mgmt .TIM_REF_MISSES 19 = some (19, 0) ∧ Reg.TIM_REF_MISSES.accMask (· == .rc) ≠ 0) := by
  refine ⟨?_, ?_⟩
  · decide +kernel
  · decide +kernel

theorem witness_RegisterAccess_4 :
    (∀ p ∈ [Path.firmware, .mgmt, .debug], regAt p 0x1A00104 = some (.TIM_STATUS, 0) ∧ wbit (Reg.TIM_STATUS.accMask (· == .w1c)) 6 = true ∧ Reg.TIM_STATUS.info.held ≠ .function) ∧
    (regAt (.fn (.pf 0)) 0x1A00104 = some (.TIM_STATUS, 0) ∧ wbit (Reg.TIM_STATUS.accMask (· == .w1c)) 0 = true ∧ 0x1A00104 < 0x4000000) := by
  refine ⟨?_, ?_⟩
  · decide +kernel
  · decide +kernel

theorem witness_RegisterAccess_5 :
    let s := modHif (fun h => { h with halves := [{}, {}] }) up; pathOpen s .mgmt = true ∧ windowed s .mgmt 0x600100 = true ∧ (domainSt s .qm).st = .gated ∧ (domainSt s .qm).dead = false ∧ toStart s .qm = false ∧ fastRuns s = true := by decide +kernel

theorem witness_RegisterAccess_6 :
    (let s := modHif (fun h => { h with halves := [{}, {}] }) (modDomain .qm (fun d => { d with st := .running }) up); mayStop s .qm = true) ∧
    (let s := modDomain .qm (fun d => { d with st := .stopping }) up; (domainSt s .qm).st = .stopping) ∧
    (let s := modDomain .qm (fun d => { d with st := .starting }) up; unitState s .qm = .starting ∧ s.cai.heldAccesses = [] ∧ (unitCode .qm = unitCode .rel → DUnit.qm = .rel) ∧ (domainSt s .qm).retried = false) := by
  refine ⟨?_, ?_, ?_⟩
  · decide +kernel
  · decide +kernel
  · decide +kernel

end Sys2Proof.Tests
end

section
/-!
SUPPORT. The scope of the machine: the state after reset (O3), and the completion of every command (O5), whose meaning ends in a next state on
each of its branches.
-/
namespace Sys2Proof.Machine

/-! ### Reset (R7, R469, R477) -/

/-- At reset one register alone is stored: TIM_STATUS, with BOUND_ALARM set (R477). -/
theorem reg_reset (r : Reg) (i h : Nat) :
    reg State.reset r i h = if regKey r i h = regKey .TIM_STATUS 0 0 then 2 else resetAt r i := by
  have stored : State.reset.regs = [(regKey .TIM_STATUS 0 0, 2)] := rfl
  rw [reg, stored, mget, mfind, mfind]
  split <;> rfl

/-- Settles O3: the fields of the reset state by evaluation, and its registers by `reg_reset`. -/
theorem resetState : Obligations.ResetState :=
  ⟨⟨rfl, rfl, rfl, rfl, rfl, rfl, rfl, rfl, rfl, rfl, rfl, rfl⟩, reg_reset⟩

/-! ### Every command completes (R1) -/

/-- An outcome that is a next state: the block has not stopped. -/
def Completes (o : Outcome) : Prop := ∃ t, o = .next t

theorem Completes.next {t : State} : Completes (.next t) := ⟨t, rfl⟩

theorem Completes.ite {c : Prop} [Decidable c] {a b : Outcome} (ha : Completes a) (hb : Completes b) : Completes (if c then a else b) := by
  split
  · exact ha
  · exact hb

/-- A case that ends the command at once, and the rest of the command. -/
theorem Completes.guard {c : Prop} [Decidable c] {t : State} {o : Outcome} (h : Completes o) : Completes (if c then .next t else o) :=
  .ite .next h

theorem execW1cHardwareSet_completes (p : Path) (off bit : Nat) (s : State) : Completes (execW1cHardwareSet p off bit s) := by
  unfold execW1cHardwareSet
  split
  · refine .guard ?_
    split
    · exact .guard .next
    · exact .next
  · split
    · exact .guard .next
    · exact .next

/-- An entry's read: its data is accepted or is stale, and every other end leaves a state too (R162). -/
theorem execSqEntryFetch_completes (f : Fn) (q : Nat) (got : HostRead) (s : State) : Completes (execSqEntryFetch f q got s) := by
  refine .guard ?_
  split
  · exact .next
  · exact .guard .next
  · exact .next

theorem execStaleRetry_completes (f : Fn) (q : Nat) (got : HostRead) (s : State) : Completes (execStaleRetry f q got s) := by
  unfold execStaleRetry
  dsimp only
  split
  · exact .next
  · refine .guard ?_
    split
    · exact .next
    · exact .guard .next
    · exact .next

/-- Every command ends in a next state. The commands are grouped by the shape of their meaning: first those that are one operation on the
state, then those that choose by conditions, and last those that look into a record, each along the branches of its definition. -/
theorem exec_completes (i : Instr) (s : State) : Completes (exec i s) := by
  cases i with
  | registerWrite | badAccess | lowWordRead | readClear | domainStop | domainGated | domainStartDone | aonRailLoss | sysclkReturn
  | ethRefclkLoss | ethRefclkReturn | drain | drainStandby | cancel | restartRequest | busMasterDisable | initiateFlr | vfEnable
  | vfDisable | powerStateChange | poisonedPostedWrite | atsInvalidation | doeAbort | eventRaise | qCreate | qDestroy | queueRestart
  | txFrame | vfGrant | vportBind | logStart | logSwap | logStop | dirtyPageLog | vfFreeze | freezeDone | migSlow | vfSave | vfRestore
  | vfUnfreeze | vfMigDone | portCfgWrite | filterAdd | filterDelete | filterRead | statSnap | mdioStart | microNext | microJump
  | microJz | microJnz | microMatch | microCall | microRet | microEnd | microAdd | microSub | microAnd | microOr | microXor | microShl
  | microShr | microMov | microBfx | microSeq | microSlt | microMin | microMax | microCsum | microMark | microFrag | microHashreg
  | microTrap | microResume | microHashrst | prsLoadStart | prsIndWrite | vportStep | tunnelStep | flowStep | lpmStep | aclStep | actEnd
  | actNop | actDrop | actChain | actDecap | actEncap | actRewrite | actDecTtl | actVlanPush | actVlanPop | actMeter | actCount
  | actSetClass | actEncrypt | actDecrypt | actDeliverVport | actDeliverQueue | actDeliverInd | actDeliverPort | actDeliverChannel
  | actDeliverAkzal | actMirror | actLearn | actTsInsert | tblInsert | tblDelete | tblLookup | tblRead | tblWrite | tblLock
  | tblWriteUnlock | tblUnlock | tblCounterRead | hashSeedWrite | tblProgWrite | progBankSwitch | copyFinished | gateCommit | meterWrite
  | meterRead | keyWrite | keyUnwrap | slotUpdate | slotRead | keyClear | laEncrypt | laDecrypt | nvmeSqDoorbell | nvmeCqDoorbell
  | deleteIoSq | createIoSq | getLogPage | deleteIoCq | createIoCq | identify | nvmeAbort | setFeatures | getFeatures
  | asynchronousEventRequest | nvmeFlush | nvmeWrite | nvmeRead | writeZeroes | retryTimeout | ctxWrite | ctxRead | ctxResume
  | ctxDisable | nsWrite | nsRead | nvmfCmd | rdmaSend | rdmaWrite | rdmaRead | recvBuffer | copy | fill | gather | scatter | interleave
  | deinterleave | toPlanes | fromPlanes | channelResume | channelAbort | channelStart | tfork | tjoin | texit | tkill | cput | csend
  | ctrysend | cclear | crecv | cpoll | cget | twait | halloc | hfree | domainRestart | freeHandles | svcChCfgWrite | mbxSend | mbxF2hPop
  | fmbxSend | manualCommit | reacquire | timRefCfgWrite | boundAlarmWrite | timUtcWrite | leapAtWrite | timSnap | forget | faultCount
  | screeSubwindow | machineCheckFatal | tokenSubmit | debugEnd | nonceRead | activate | switched | commit | rollback | instructionIssue =>
    exact .next
  | aonRailUp | porstAssert | porstDeassert | railOrder | thermalWarn | pcieRefclkLoss | pcieRefclkReturn | mctpMessage | wakeAtReached
  | unitReady | perstAssert | perstDeassert | hotReset | linkDisable | pcieLinkFailure | quiesceDone | flrDone | getVersion
  | ideIntegrityFailure | moderationTimer | queueDisabled | sqFetchResume | timePageWrite | pauseRefresh | pauseTxStorm | linkUp
  | linkDown | resetChannel | pairLineRewritten | filterRebuild | filterSwitch | shaperCredit | slotFetchDone | ccEnable | ccDisable
  | shutdown | connectionFailure | lossTmo | cnpRx | busError | stall | laneMismatch | contextExchange | debugHalt | debugResume
  | hartreset | ptpMeasurement | refQualified | boundRecompute | ppsOutFall | tracePeriodic | akzPortUp | akzPortDown | helloTx | helloRx
  | helloTimeout | masterChange | timeFrameTx | getStatus | dirWritten | autoCommit | mgtLinkUp | mgtLinkDown | mgtCarrierDrop
  | thermalWarnRearm =>
    exact .guard .next
  | railGood | thermalTrip | thermalRecover | ptmRequest | getDigests | getCertificate | challenge | getMeasurements | keyExchange
  | finish | keyUpdate | heartbeat | endSession | vendorDefinedRequest | pauseFrameRx | fecWindow | mdioDone | rateRecovery | jobComplete
  | oscReturn | ppsOutEdge | mbxStage | mbxQuery | requestUpdate | cancelUpdate | firmwareDataReceived =>
    exact .guard (.guard .next)
  | missedInterval =>
    exact .ite (.guard .next) .next
  | sysclkFault | getCapabilities | negotiateAlgorithms | stopInterface | collision | ppsEdge | oscFault | linkNakRx | imageFrame =>
    exact .guard (.guard (.guard .next))
  | doeRequest | mgtFrameRx | repairRetest =>
    exact .guard (.guard (.guard (.guard .next)))
  | pcieLinkUp | akzDataRx =>
    exact .guard (.ite (.guard .next) (.guard .next))
  | ncsiCommand =>
    exact .guard (.guard (.guard (.guard (.guard (.guard .next)))))
  | frameReceived =>
    exact .guard (.guard (.guard (.guard (.ite (.guard .next) (.guard .next)))))
  | w1cHardwareSet => exact execW1cHardwareSet_completes _ _ _ s
  | heldAccess => rw [exec_heldAccess]; fun_cases execHeldAccess <;> exact .next
  | railFault => rw [exec_railFault]; fun_cases execRailFault <;> exact .next
  | bringupStart => rw [exec_bringupStart]; fun_cases execBringupStart <;> exact .next
  | bootWaitExpiry => rw [exec_bootWaitExpiry]; fun_cases execBootWaitExpiry <;> exact .next
  | functionReady => rw [exec_functionReady]; fun_cases execFunctionReady <;> exact .next
  | drainLimitExpiry => rw [exec_drainLimitExpiry]; fun_cases execDrainLimitExpiry <;> exact .next
  | drainFinished => rw [exec_drainFinished]; fun_cases execDrainFinished <;> exact .next
  | configRead => rw [exec_configRead]; fun_cases execConfigRead <;> exact .next
  | msixUnmask => rw [exec_msixUnmask]; fun_cases execMsixUnmask <;> exact .next
  | tagSlotGrant => rw [exec_tagSlotGrant]; fun_cases execTagSlotGrant <;> exact .next
  | hostCompletion => rw [exec_hostCompletion]; fun_cases execHostCompletion <;> exact .next
  | completionTimeout => rw [exec_completionTimeout]; fun_cases execCompletionTimeout <;> exact .next
  | quarantineEnd => rw [exec_quarantineEnd]; fun_cases execQuarantineEnd <;> exact .next
  | pageRequest => rw [exec_pageRequest]; fun_cases execPageRequest <;> exact .next
  | prgResponse => rw [exec_prgResponse]; fun_cases execPrgResponse <;> exact .next
  | pageRequestTimeout => rw [exec_pageRequestTimeout]; fun_cases execPageRequestTimeout <;> exact .next
  | doorbellWrite => rw [exec_doorbellWrite]; fun_cases execDoorbellWrite <;> exact .next
  | sqEntryFetch => exact execSqEntryFetch_completes _ _ _ s
  | staleRetry => exact execStaleRetry_completes _ _ _ s
  | completionWrite => rw [exec_completionWrite]; fun_cases execCompletionWrite <;> exact .next
  | eqEntryWrite => rw [exec_eqEntryWrite]; fun_cases execEqEntryWrite <;> exact .next
  | rxBuffer => rw [exec_rxBuffer]; fun_cases execRxBuffer <;> exact .next
  | hostTxResume => rw [exec_hostTxResume]; fun_cases execHostTxResume <;> exact .next
  | frameEnd => rw [exec_frameEnd]; fun_cases execFrameEnd <;> exact .next
  | pauseHoldExpiry => rw [exec_pauseHoldExpiry]; fun_cases execPauseHoldExpiry <;> exact .next
  | pauseRxStorm => rw [exec_pauseRxStorm]; fun_cases execPauseRxStorm <;> exact .next
  | stormRecover => rw [exec_stormRecover]; fun_cases execStormRecover <;> exact .next
  | mgtTx => rw [exec_mgtTx]; fun_cases execMgtTx <;> exact .next
  | backoffExpiry => rw [exec_backoffExpiry]; fun_cases execBackoffExpiry <;> exact .next
  | parseDispatch => rw [exec_parseDispatch]; fun_cases execParseDispatch <;> exact .next
  | microBudget => rw [exec_microBudget]; fun_cases execMicroBudget <;> exact .next
  | fragEntryExpiry => rw [exec_fragEntryExpiry]; fun_cases execFragEntryExpiry <;> exact .next
  | parityError => rw [exec_parityError]; fun_cases execParityError <;> exact .next
  | loadDone => rw [exec_loadDone]; fun_cases execLoadDone <;> exact .next
  | tableProgram => rw [exec_tableProgram]; fun_cases execTableProgram <;> exact .next
  | actionList => rw [exec_actionList]; fun_cases execActionList <;> exact .next
  | learnRequest => rw [exec_learnRequest]; fun_cases execLearnRequest <;> exact .next
  | ageVisit => rw [exec_ageVisit]; fun_cases execAgeVisit <;> exact .next
  | lockExpired => rw [exec_lockExpired]; fun_cases execLockExpired <;> exact .next
  | relocationMove => rw [exec_relocationMove]; fun_cases execRelocationMove <;> exact .next
  | scheduleDecision => rw [exec_scheduleDecision]; fun_cases execScheduleDecision <;> exact .next
  | launchTimeReached => rw [exec_launchTimeReached]; fun_cases execLaunchTimeReached <;> exact .next
  | frameTransmitted => rw [exec_frameTransmitted]; fun_cases execFrameTransmitted <;> exact .next
  | gateEntryChange => rw [exec_gateEntryChange]; fun_cases execGateEntryChange <;> exact .next
  | gateListActive => rw [exec_gateListActive]; fun_cases execGateListActive <;> exact .next
  | nodeWrite => rw [exec_nodeWrite]; fun_cases execNodeWrite <;> exact .next
  | cipherDone => rw [exec_cipherDone]; fun_cases execCipherDone <;> exact .next
  | checkerMismatch => rw [exec_checkerMismatch]; fun_cases execCheckerMismatch <;> exact .next
  | suspendMessage => rw [exec_suspendMessage]; fun_cases execSuspendMessage <;> exact .next
  | shutdownTimeout => rw [exec_shutdownTimeout]; fun_cases execShutdownTimeout <;> exact .next
  | nvmeCommandFetch => rw [exec_nvmeCommandFetch]; fun_cases execNvmeCommandFetch <;> exact .next
  | datasetManagement => rw [exec_datasetManagement]; fun_cases execDatasetManagement <;> exact .next
  | c2hData => rw [exec_c2hData]; fun_cases execC2hData <;> exact .next
  | remoteResponse => rw [exec_remoteResponse]; fun_cases execRemoteResponse <;> exact .next
  | cmdTimeout => rw [exec_cmdTimeout]; fun_cases execCmdTimeout <;> exact .next
  | remoteAccess => rw [exec_remoteAccess]; fun_cases execRemoteAccess <;> exact .next
  | sendReceived => rw [exec_sendReceived]; fun_cases execSendReceived <;> exact .next
  | trackerGrant => rw [exec_trackerGrant]; fun_cases execTrackerGrant <;> exact .next
  | moverAssign => rw [exec_moverAssign]; fun_cases execMoverAssign <;> exact .next
  | waitDeadline => rw [exec_waitDeadline]; fun_cases execWaitDeadline <;> exact .next
  | inject => rw [exec_inject]; fun_cases execInject <;> exact .next
  | nmeaSentence => rw [exec_nmeaSentence]; fun_cases execNmeaSentence <;> exact .next
  | leapApplied => rw [exec_leapApplied]; fun_cases execLeapApplied <;> exact .next
  | todTxSentence => rw [exec_todTxSentence]; fun_cases execTodTxSentence <;> exact .next
  | linkFrameRx => rw [exec_linkFrameRx]; fun_cases execLinkFrameRx <;> exact .next
  | timeFrameRx => rw [exec_timeFrameRx]; fun_cases execTimeFrameRx <;> exact .next
  | bootReq => rw [exec_bootReq]; fun_cases execBootReq <;> exact .next
  | imageResult => rw [exec_imageResult]; fun_cases execImageResult <;> exact .next
  | handoffDone => rw [exec_handoffDone]; fun_cases execHandoffDone <;> exact .next
  | scrub => rw [exec_scrub]; fun_cases execScrub <;> exact .next
  | mcRestart => rw [exec_mcRestart]; fun_cases execMcRestart <;> exact .next
  | debugExpiry => rw [exec_debugExpiry]; fun_cases execDebugExpiry <;> exact .next
  | passComponentTable => rw [exec_passComponentTable]; fun_cases execPassComponentTable <;> exact .next
  | updateComponent => rw [exec_updateComponent]; fun_cases execUpdateComponent <;> exact .next
  | activateFirmware => rw [exec_activateFirmware]; fun_cases execActivateFirmware <;> exact .next
  | memberSwitch => rw [exec_memberSwitch]; fun_cases execMemberSwitch <;> exact .next
  | switchedReply => rw [exec_switchedReply]; fun_cases execSwitchedReply <;> exact .next
  | activateReverted => rw [exec_activateReverted]; fun_cases execActivateReverted <;> exact .next
  | configWrite => rw [exec_configWrite]; fun_cases execConfigWrite <;> exact .next
  | tapInstruction => rw [exec_tapInstruction]; fun_cases execTapInstruction <;> exact .next
  | mgtFrameSent => rw [exec_mgtFrameSent]; fun_cases execMgtFrameSent <;> exact .next
  | nvmeTcpR2t => rw [exec_nvmeTcpR2t]; fun_cases execNvmeTcpR2t <;> exact .next

/-- Settles O5, by cases on the command. -/
theorem everyCommandCompletes : Obligations.EveryCommandCompletes := exec_completes

end Sys2Proof.Machine
end

section
/-!
SUPPORT. What an access of a path leaves, apart from the register that it reaches: the wake of its block, a rejected access, a held one, and
the power manager's stops and starts (R4, R15, R78 to R80).
-/
namespace Sys2Proof.Machine

/-! ### The wake of a block -/

@[simp] theorem atWork_regs (p : Path) (off : Nat) (s : State) : (atWork p off s).regs = s.regs := by
  obtain ⟨d, w, e⟩ := atWork_form p off s
  rw [e]

@[simp] theorem atWork_out (p : Path) (off : Nat) (s : State) : (atWork p off s).out = s.out := by
  obtain ⟨d, w, e⟩ := atWork_form p off s
  rw [e]

@[simp] theorem atWork_shadow (p : Path) (off : Nat) (s : State) : (atWork p off s).shadow = s.shadow := by
  obtain ⟨d, w, e⟩ := atWork_form p off s
  rw [e]

@[simp] theorem reg_atWork (p : Path) (off : Nat) (s : State) (r : Reg) (i h : Nat) : reg (atWork p off s) r i h = reg s r i h :=
  reg_congr (atWork_regs p off s) r i h

/-- Who may write a register does not change with a wake. -/
@[simp] theorem mayWrite_atWork (p : Path) (off : Nat) (s : State) (q : Path) (r : Reg) : mayWrite (atWork p off s) q r = mayWrite s q r := by
  obtain ⟨d, w, e⟩ := atWork_form p off s
  rw [e]
  rfl

/-- Where a path's register is stored does not change with a wake. -/
@[simp] theorem regPlace_atWork (p : Path) (off : Nat) (s : State) (q : Path) (r : Reg) (i : Nat) :
    regPlace (atWork p off s) q r i = regPlace s q r i := by
  obtain ⟨d, w, e⟩ := atWork_form p off s
  rw [e]
  rfl

/-- An aligned offset is that of its word. -/
theorem wordOff_of_aligned {off : Nat} (h : off % 4 = 0) : wordOff off = off := by
  unfold wordOff
  omega

/-! ### Plain writes, bit by bit (R7) -/

/-- The registers of the plain writes: ones whose write does nothing beyond their fields. -/
def plainRegs : List Reg :=
  [.TIM_SERVO_CFG, .TIM_TRACE_CFG, .CAI_PM_CFG, .CAI_LED_CFG, .CAI_FAULT, .CAI_MODE, .HIF_ACCESS_ERR, .TBL_STATUS, .MBX_STATUS]

/-- A write of one of them is a plain write, whoever makes it. -/
theorem regStore_plain {r : Reg} (h : r ∈ plainRegs) (p : Path) (t i : Nat) (v : Word) (s : State) :
    regStore p t r i v s = plainReg p r i v s := by
  simp only [plainRegs, List.mem_cons, List.not_mem_nil, or_false] at h
  rcases h with rfl | rfl | rfl | rfl | rfl | rfl | rfl | rfl | rfl <;>
    cases p with
    | fn f => cases f <;> rfl
    | _ => rfl

/-- A plain write by a path that may write the register and reaches it. -/
theorem plainReg_placed {p : Path} {r : Reg} {i j h : Nat} {s : State} (m : mayWrite s p r = true) (e : regPlace s p r i = some (j, h)) (v : Word) :
    plainReg p r i v s = setReg r j h (applyWrite r (reg s r j h) v) s := by
  simp [plainReg, m, e]

/-- No bit of a register is of two of the access codes by which a write takes effect. -/
def accApart (r : Reg) : Prop :=
  r.accMask (· == .rw) &&& r.accMask (· == .w1c) = 0 ∧ r.accMask (· == .rw) &&& r.accMask (· == .w1s) = 0 ∧
    r.accMask (· == .w1c) &&& r.accMask (· == .w1s) = 0

theorem accApart_plain {r : Reg} (h : r ∈ plainRegs) : accApart r := by
  simp only [plainRegs, List.mem_cons, List.not_mem_nil, or_false] at h
  rcases h with rfl | rfl | rfl | rfl | rfl | rfl | rfl | rfl | rfl <;> exact ⟨rfl, rfl, rfl⟩

/-- Two masks without a common bit. -/
theorem getLsbD_of_and_eq_zero {a b : Word} (h : a &&& b = 0) (k : Nat) : (a.getLsbD k && b.getLsbD k) = false := by
  rw [← BitVec.getLsbD_and, h]
  exact BitVec.getLsbD_zero

/-- A write takes each bit by its access code (R7). -/
theorem getLsbD_applyWrite {r : Reg} (d : accApart r) (old v : Word) (k : Nat) :
    (applyWrite r old v).getLsbD k = (if (r.accMask (· == .rw)).getLsbD k then v.getLsbD k
      else if (r.accMask (· == .w1c)).getLsbD k then old.getLsbD k && !v.getLsbD k
      else if (r.accMask (· == .w1s)).getLsbD k then old.getLsbD k || v.getLsbD k else old.getLsbD k) := by
  obtain ⟨rwC, rwS, cS⟩ := d
  have rwC := getLsbD_of_and_eq_zero rwC k
  have rwS := getLsbD_of_and_eq_zero rwS k
  have cS := getLsbD_of_and_eq_zero cS k
  by_cases hk : k < 32
  · simp only [applyWrite, BitVec.getLsbD_or, BitVec.getLsbD_and, BitVec.getLsbD_not, hk, decide_true, Bool.true_and]
    generalize (r.accMask (· == .rw)).getLsbD k = rw, (r.accMask (· == .w1c)).getLsbD k = c, (r.accMask (· == .w1s)).getLsbD k = st,
      old.getLsbD k = o, v.getLsbD k = n at *
    revert rw c st o n
    decide
  · simp [BitVec.getLsbD_of_ge _ k (Nat.le_of_not_lt hk)]

/-- A plain register's write that acts: the register, bit by bit. -/
theorem registerWrite_plain {p : Path} {off i j h : Nat} {r : Reg} {s : State} (hr : r ∈ plainRegs) (f : findsAt p off r i = true)
    (a : actsAt p off s = true) (al : off % 4 = 0) (m : mayWrite s (asPath p) r = true) (e : regPlace s (asPath p) r i = some (j, h)) (v : Word) :
    exec (.registerWrite p off v) s = .next (setReg r j h (applyWrite r (reg s r j h) v) (atWork p off s)) := by
  rw [exec_registerWrite, execRegisterWrite, wordOff_of_aligned al, accessWrite_acts _ v f a, regStore_plain hr,
    plainReg_placed ((mayWrite_atWork ..).trans m) ((regPlace_atWork ..).trans e), reg_atWork]

/-! ### Rejected accesses (R4) -/

/-- What HIF_ACCESS_ERR records of a rejected access, ERR apart: the VF that made it, and whether it was a write. -/
def errRecord (f : Fn) (write : Bool) : Nat :=
  (match f with
    | .vf _ n => at_ 20 n + at_ 19 1
    | _ => 0) + at_ 18 (b2n write)

theorem accessError_out (f : Fn) (off : Nat) (write : Bool) (s : State) : (accessError f off write s).out = s.out :=
  out_of_frame (accessError_frame 2097712 rfl f off write s) rfl

/-- The first rejected access of a function since ERR was cleared is recorded whole. -/
theorem accessError_first {f : Fn} {s : State} (nf : f ≠ .fw) (e : wbit (reg s .HIF_ACCESS_ERR 0 (fnCode (.pf (fnPf f)))) 0 = false)
    (off : Nat) (write : Bool) :
    reg (accessError f off write s) .HIF_ACCESS_ERR_OFFSET 0 (fnCode (.pf (fnPf f))) = w32 (bits off 24 0) ∧
      reg (accessError f off write s) .HIF_ACCESS_ERR 0 (fnCode (.pf (fnPf f))) = w32 (errRecord f write) ||| 1 := by
  cases f with
  | fw => exact absurd rfl nf
  | _ => simp [accessError, e, errRecord, show w32 1 = 1 from rfl]

/-- Later ones leave the offset that is recorded. -/
theorem accessError_later {f : Fn} {s : State} (e : wbit (reg s .HIF_ACCESS_ERR 0 (fnCode (.pf (fnPf f)))) 0 = true) (off : Nat) (write : Bool) :
    reg (accessError f off write s) .HIF_ACCESS_ERR_OFFSET 0 (fnCode (.pf (fnPf f))) = reg s .HIF_ACCESS_ERR_OFFSET 0 (fnCode (.pf (fnPf f))) := by
  unfold accessError
  split <;> simp [e]

/-- The offset of a rejected access within its BAR, as HIF_ACCESS_ERR_OFFSET records it. -/
def barOffset (off : Nat) : Nat := off % 0x1000000 + (if off < 0x2000000 then off / 0x1000000 * 0x1000000 else 0)

/-- It fits the recorded field. -/
theorem toNat_barOffset (off : Nat) : (w32 (bits (barOffset off) 24 0)).toNat = barOffset off := by
  simp only [barOffset, w32, bits, BitVec.toNat_ofNat, Nat.shiftRight_zero]
  split <;> omega

/-- A rejected access leaves the outputs, but for the ones that a read returns. -/
theorem rejectAccess_out (p : Path) (off : Nat) (write : Bool) (s : State) :
    (rejectAccess p off write s).out = if write then s.out else .readData p off 0xFFFFFFFF :: s.out := by
  unfold rejectAccess
  cases p <;> cases write <;> simp [accessError_out]

/-- What a rejected access leaves in the registers is what its record leaves. -/
theorem reg_rejectAccess (f : Fn) (off : Nat) (write : Bool) (s : State) (r : Reg) (i h : Nat) :
    reg (rejectAccess (.fn f) off write s) r i h = reg (accessError f (barOffset off) write s) r i h := by
  cases write <;> simp [rejectAccess, barOffset]

/-- A rejected write of a path that is no function does nothing. -/
theorem rejectAccess_write {p : Path} (h : ∀ f, p ≠ .fn f) (off : Nat) (s : State) : rejectAccess p off true s = s := by
  cases p with
  | fn f => exact absurd rfl (h f)
  | _ => rfl

/-- An access that is neither aligned in 4 bytes, nor to the rest of BAR2, nor an honoured 8-byte one, is rejected. -/
theorem badAccess_rejected {p : Path} {off size : Nat} {s : State} (o : pathOpen s p = true) (n4 : ¬(size = 4 ∧ off % 4 = 0))
    (nr : bar2Rest s (asPath p) off = false) (n8 : ¬(size = 8 ∧ wideHonoured s (asPath p) off = true)) (data : Option (BitVec 64)) :
    exec (.badAccess p off ⟨size, data⟩) s = .next (rejectAccess (asPath p) off data.isSome s) := by
  simp [execBadAccess, accessSized, o, n4, nr, n8]

/-! ### Reads: shadows and read-clear (R5, R9) -/

/-- A read that acts, of a register that its path finds. -/
theorem read_acts {p : Path} {off i : Nat} {r : Reg} {s : State} (f : findsAt p off r i = true) (n : countsAt p off = false)
    (a : actsAt p off s = true) (al : off % 4 = 0) :
    accessRead p (wordOff off) s = emit (.readData (asPath p) off (readReg (asPath p) off (atWork p off s)).1)
      (readReg (asPath p) off (atWork p off s)).2 := by
  rw [wordOff_of_aligned al, accessRead_acts f n a]

/-- A word that a shadow holds is read from it, and the shadow is gone. -/
theorem readReg_shadowed {p : Path} {off i : Nat} {r : Reg} {s : State} {v : Word} (x : regAt p off = some (r, i))
    (sh : mfind s.shadow (shadowKey p off) = some v) : readReg p off s = (v, { s with shadow := mdel s.shadow (shadowKey p off) }) := by
  simp only [readReg, x, sh]

/-- A read of a low word that no shadow holds captures its high word. -/
theorem readReg_low {p : Path} {off i i' : Nat} {r r' : Reg} {s : State} (x : regAt p off = some (r, i))
    (sh : mfind s.shadow (shadowKey p off) = none) (lo : lowWord r i = true) (hi : regAt p (off + 4) = some (r', i')) :
    readReg p off s = ((takeReg p r i s).1, { (takeReg p r i s).2 with
      shadow := mput (takeReg p r i s).2.shadow (shadowKey p (off + 4)) (readMask r' (w32 (regNow s p r' i'))) }) := by
  simp only [readReg, x, sh, lo, hi, if_true]

/-- A read of another register that no shadow holds is its own. -/
theorem readReg_single {p : Path} {off i : Nat} {r : Reg} {s : State} (x : regAt p off = some (r, i)) (sh : mfind s.shadow (shadowKey p off) = none)
    (lo : lowWord r i = false) : readReg p off s = takeReg p r i s := by
  simp only [readReg, x, sh, lo, Bool.false_eq_true, if_false]

/-- A read of a register other than the mailbox's pop shows its readable bits, and changes at most the register. -/
theorem takeReg_cases {r : Reg} (n : r ≠ .MBX_F2H_POP) (p : Path) (i : Nat) (s : State) :
    takeReg p r i s = (readMask r (w32 (regNow s p r i)), s) ∨
      ∃ j h v, takeReg p r i s = (readMask r (w32 (regNow s p r i)), setReg r j h v s) := by
  unfold takeReg
  split
  · exact absurd rfl n
  · dsimp only
    split
    · exact .inl rfl
    · split
      · exact .inr ⟨_, _, _, rfl⟩
      · exact .inl rfl

theorem takeReg_value {r : Reg} (n : r ≠ .MBX_F2H_POP) (p : Path) (i : Nat) (s : State) :
    (takeReg p r i s).1 = readMask r (w32 (regNow s p r i)) := by
  rcases takeReg_cases n p i s with e | ⟨j, h, v, e⟩ <;> rw [e]

theorem takeReg_out {r : Reg} (n : r ≠ .MBX_F2H_POP) (p : Path) (i : Nat) (s : State) : (takeReg p r i s).2.out = s.out := by
  rcases takeReg_cases n p i s with e | ⟨j, h, v, e⟩ <;> rw [e]
  rfl

/-- A read clears the RC fields of the register that its path reaches (R9). -/
theorem takeReg_clears {r : Reg} {p : Path} {i j h : Nat} {s : State} (n : r ≠ .MBX_F2H_POP) (rc : r.accMask (· == .rc) ≠ 0)
    (e : regPlace s p r i = some (j, h)) : (takeReg p r i s).2 = setReg r j h (reg s r j h &&& ~~~ r.accMask (· == .rc)) s := by
  unfold takeReg
  split
  · exact absurd rfl n
  · simp only [rc, e, if_false]

/-- The mailbox's pop is no low word. -/
theorem ne_pop_of_lowWord {r : Reg} {i : Nat} (h : lowWord r i = true) : r ≠ .MBX_F2H_POP := by
  rintro rfl
  cases h

/-! ### Held accesses (R15) -/

/-- What QM's unit does rests on nothing that a held access changes. -/
theorem unitState_qm_modHeld (g : List HeldAccess → List HeldAccess) (s : State) :
    unitState (modCai (fun c => { c with heldAccesses := g c.heldAccesses }) s) .qm = unitState s .qm := rfl

/-- QM's unit neither runs nor starts. -/
theorem unitState_qm_gated {s : State} (st : (domainSt s .qm).st = .gated) (ns : toStart s .qm = false) : unitState s .qm = .gated := by
  simp [unitState, st, unitOfDomain, ns]

/-- A wake of QM while its unit is gated and may start: it starts. -/
theorem wakeBlock_qm {p : Path} {s : State} (u : unitState s .qm = .gated) (st : (domainSt s .qm).st = .gated) (nd : (domainSt s .qm).dead = false)
    (run : fastRuns s = true) :
    wakeBlock p 3 s = modDomain .qm (fun d => { d with st := .starting, since := s.elapsed, retried := false }) s := by
  simp [wakeBlock, blockUnits, u, st, nd, unitKind, wakeUnit, run]

/-- An access to QM's window past its header reaches QM. -/
theorem accessBlk_qm {s : State} {p : Path} {off : Nat} (w : windowed s p off = true) (b : off / 0x200000 = 3) : accessBlk s p off = 3 := by
  unfold accessBlk
  rw [if_pos w, b]

/-- While QM is gated it must wait. -/
theorem accessWaits_qm {s : State} {p : Path} {off : Nat} (w : windowed s p off = true) (hd : 0x100 ≤ off % 0x200000) (b : off / 0x200000 = 3)
    (u : unitState s .qm = .gated) (nd : (domainSt s .qm).dead = false) : accessWaits s p off = true := by
  have k := accessBlk_qm w b
  have never : neverHeld s p off = false := by simp [neverHeld, headerAccess, k, cairnBlock, hd]
  have here : heldHere s p off = true := by simp [heldHere, k, blockDead, blockState, cairnBlock, blockUnits, u, nd]
  simp [accessWaits, never, here]

/-- An access of an open path that is not to the LCS window goes to its block. -/
theorem heldAccess_access {p : Path} {off : Nat} {s : State} (o : pathOpen s p = true) (nl : lcsAccess s (asPath p) off = false) (al : off % 4 = 0)
    (v : Option Word) :
    exec (.heldAccess p off v) s = .next (access { path := asPath p, off := off, kind := match v with
      | none => .read
      | some w => .write w } s) := by
  cases v <;> simp [execHeldAccess, wordOff_of_aligned al, accessRead, accessWrite, o, nl]

/-- One to QM while QM is gated is held, and QM starts. -/
theorem access_held_qm {h : HeldAccess} {s : State} (w : windowed s h.path h.off = true) (hd : 0x100 ≤ h.off % 0x200000) (b : h.off / 0x200000 = 3)
    (st : (domainSt s .qm).st = .gated) (nd : (domainSt s .qm).dead = false) (ns : toStart s .qm = false) (run : fastRuns s = true) :
    access h s = modDomain .qm (fun d => { d with st := .starting, since := s.elapsed, retried := false })
      (modCai (fun c => { c with heldAccesses := c.heldAccesses ++ [h] }) s) := by
  have u := unitState_qm_gated st ns
  rw [access, if_pos (accessWaits_qm w hd b u nd), holdAccess, accessBlk_qm w b]
  exact wakeBlock_qm ((unitState_qm_modHeld (· ++ [h]) s).trans u) st nd run

/-! ### Stops and starts (R78 to R80) -/

/-- A unit's record rests on the CAI record alone. -/
theorem domainSt_congr {s t : State} (h : t.cai = s.cai) (u : DUnit) : domainSt t u = domainSt s u := by
  have e : unitOfDomain t u = unitOfDomain s u := by cases u <;> simp [unitOfDomain, bifurcated, h]
  rw [domainSt, domainSt, h, e]

/-- The record of a unit does not change with that of another. -/
theorem domainSt_modDomain_other {u v : DUnit} {s : State} (n : unitCode (unitOfDomain s u) ≠ unitCode (unitOfDomain s v))
    (g : DomainSt → DomainSt) : domainSt (modDomain v g s) u = domainSt s u := by
  have e : unitOfDomain (modDomain v g s) u = unitOfDomain s u := by cases u <;> rfl
  rw [domainSt, domainSt, e]
  exact mget_mmod_other _ _ _ _ _ _ n

/-- A unit's record has no part in the accesses that are held. -/
theorem modDomain_heldAccesses (u : DUnit) (g : DomainSt → DomainSt) (s : State) : (modDomain u g s).cai.heldAccesses = s.cai.heldAccesses := rfl

/-- A unit that begins to run changes the CAI record in its own power record alone. -/
theorem unitRuns_cai (u : DUnit) (s : State) : (unitRuns u s).cai = (modDomain u (fun _ => { st := .running, since := s.elapsed }) s).cai := by
  have epochs (l : List (Nat × Nat)) (t : State) : (foldS (fun (e : Nat × Nat) s => newEpoch e.1 e.2 s) l t).cai = t.cai := by
    refine cai_of_frame (m := 131072) (forget_foldS _ _ (fun e u => ?_) l t) rfl
    exact newEpoch_frame 131072 rfl e.1 e.2 u
  have counted (v : DUnit) (t : State) : (countWake v t).cai = t.cai := cai_of_frame (countWake_frame 16 rfl v t) rfl
  have next (e : Nat) (t : State) : (engineNext e t).cai = t.cai := cai_of_frame (engineNext_frame 65536 rfl e t) rfl
  have serve (c : Nat) (t : State) : (serveCore c t).cai = t.cai := cai_of_frame (serveCore_frame 2097664 rfl c t) rfl
  unfold unitRuns
  dsimp only
  split <;> simp only [next, serve, epochs, counted, worked_fields]

/-- The record of a unit that runs. -/
theorem domainSt_unitRuns (u : DUnit) (s : State) : domainSt (unitRuns u s) u = { st := .running, since := s.elapsed } := by
  rw [domainSt_congr (unitRuns_cai u s), domainSt_modDomain_same]

/-- The start of a unit leaves the accesses that are held. -/
theorem unitRuns_heldAccesses (u : DUnit) (s : State) : (unitRuns u s).cai.heldAccesses = s.cai.heldAccesses := by
  rw [unitRuns_cai, modDomain_heldAccesses]

/-- Only the Reliability domain has its number, in whichever mode HIF is. -/
theorem unitCode_unitOfDomain_ne_rel {u : DUnit} (n : unitCode u ≠ unitCode .rel) (s : State) :
    unitCode (unitOfDomain s u) ≠ unitCode (unitOfDomain s .rel) := by
  cases u with
  | hifHalf h =>
    intro e
    revert n
    simp only [unitOfDomain, unitCode] at e ⊢
    split at e <;> omega
  | _ => exact n

/-- The start of the Reliability domain leaves another unit's record. -/
theorem domainSt_withRel {u : DUnit} (n : unitCode u = unitCode .rel → u = .rel) (s : State) : domainSt (withRel u s) u = domainSt s u := by
  unfold withRel
  split
  · rename_i h
    rw [domainSt_congr (unitRuns_cai _ s), domainSt_modDomain_other (unitCode_unitOfDomain_ne_rel (fun e => h.1 (n e)) s)]
  · rfl

theorem withRel_heldAccesses (u : DUnit) (s : State) : (withRel u s).cai.heldAccesses = s.cai.heldAccesses := by
  unfold withRel
  split
  · exact unitRuns_heldAccesses _ s
  · rfl

/-- Where no access is held, their release changes no unit. -/
theorem domainSt_releaseHolds {s : State} (h : s.cai.heldAccesses = []) (u : DUnit) : domainSt (releaseHolds s) u = domainSt s u := by
  have none_held : (modCai (fun c => { c with heldAccesses := [] }) s).cai = s.cai :=
    congrArg (fun l => { s.cai with heldAccesses := l }) h.symm
  rw [releaseHolds, h]
  exact domainSt_congr none_held u

/-- A unit begins to stop once it has had no work for IDLE_HOLD (R78). -/
theorem beginStop_stopping {u : DUnit} {s : State} (m : mayStop s u = true) :
    (domainSt (beginStop u s) u).st = .stopping ∧ s.elapsed ≤ (beginStop u s).elapsed ∧
      (domainSt s u).since + idleHold s ≤ (beginStop u s).elapsed := by
  simp only [beginStop, m, Bool.not_true, Bool.false_eq_true, if_false, domainSt_modDomain_same, modDomain_fields, advanceTo, ticks, true_and]
  omega

/-- A stop ends in GATED, or in STARTING where a wake came meanwhile (R79). -/
theorem endStop_state {u : DUnit} {s : State} (h : (domainSt s u).st = .stopping) :
    (domainSt (endStop u s) u).st = if (domainSt s u).wakeQueued then .starting else .gated := by
  simp [endStop, h]

/-- A start that passes makes its unit run (R79). -/
theorem endStart_passed {u : DUnit} {s : State} (h : unitState s u = .starting) (n : unitCode u = unitCode .rel → u = .rel) :
    domainSt (endStart u true s) u = { st := .running, since := s.elapsed } := by
  rw [endStart, if_neg (by simp [h]), if_pos rfl, domainSt_withRel n, domainSt_unitRuns]

/-- A start whose self-test fails once is made again (R80). -/
theorem endStart_failed_once {u : DUnit} {s : State} (h : unitState s u = .starting) (r : (domainSt s u).retried = false) :
    endStart u false s = modDomain u (fun d => { d with st := .starting, retried := true }) s := by
  simp [endStart, h, r]

/-- A start that passes leaves them too; their release comes after it. -/
theorem endStart_passed_heldAccesses {u : DUnit} {s : State} (h : unitState s u = .starting) :
    (endStart u true s).cai.heldAccesses = s.cai.heldAccesses := by
  rw [endStart, if_neg (by simp [h]), if_pos rfl, withRel_heldAccesses, unitRuns_heldAccesses]

/-! ### The obligation -/

/-- Settles O54, clause by clause: each access acts, is rejected or is held as the lemmas above say, and the state it leaves is read off. -/
theorem registerAccess : Obligations.RegisterAccess := by
  refine ⟨?write, ?bad, ?low, ?clear, ?set, ?held, ?domain⟩
  case write =>
    intro p off i j h k v r s hr f a al m e
    exact ⟨_, registerWrite_plain hr f a al m e v, getLsbD_applyWrite (accApart_plain hr) _ v k⟩
  case bad =>
    intro p off size data s o n4 nr n8
    refine ⟨_, badAccess_rejected o n4 nr n8 data, rejectAccess_out .., ?_, ?_⟩
    · intro f nf e
      rw [e]
      simp only [reg_rejectAccess]
      refine ⟨fun err => ?_, fun err => accessError_later err _ _⟩
      obtain ⟨offset, record⟩ := accessError_first nf err (barOffset off) data.isSome
      rw [offset, record]
      exact ⟨toNat_barOffset off, rfl⟩
    · intro nf wr
      rw [wr]
      exact rejectAccess_write nf off s
  case low =>
    intro p off i r s f n a al
    have x := (findsAt_spec s f).1
    refine ⟨fun v sh => ?_, fun r' i' lo sh hi => ⟨_, congrArg Host.Outcome.next (read_acts f n a al), ?_, ?_⟩⟩ <;>
      rw [← atWork_shadow p off s] at sh
    · rw [exec_lowWordRead, execLowWordRead, read_acts f n a al, readReg_shadowed x sh, atWork_shadow]
    · rw [readReg_low x sh lo hi, takeReg_value (ne_pop_of_lowWord lo)]
      simp only [emit_fields, takeReg_out (ne_pop_of_lowWord lo), atWork_out]
    · rw [readReg_low x sh lo hi]
      exact mfind_mput_same _ _ _
  case clear =>
    intro p off i j k r s f n a al np lo sh e e' rc
    rw [← atWork_shadow p off s] at sh
    have x := (findsAt_spec s f).1
    refine ⟨_, congrArg Host.Outcome.next (read_acts f n a al), ?_, ?_⟩ <;> rw [readReg_single x sh lo]
    · simp only [emit_fields, takeReg_value np, takeReg_out np, atWork_out]
    · rw [takeReg_clears np rc e', reg_emit, reg_setReg_same, reg_atWork]
  case set =>
    intro p off b i r s x wc
    refine ⟨fun hp nf => ⟨?_, reg_hwSet_same r i 0 b s⟩, fun f hp lt => ⟨?_, reg_hwSet_same r i _ b s⟩⟩
    · rcases hp with rfl | rfl | rfl <;> simp [execW1cHardwareSet, x, wc, nf]
    · subst hp
      simp [execW1cHardwareSet, x, wc, Nat.not_le.mpr lt]
  case held =>
    intro p off v s o w al hd b st nd ns run
    have nl : lcsAccess s (asPath p) off = false := lcsAccess_false s (by omega)
    refine ⟨_, heldAccess_access o nl al v, ?_⟩
    rw [access_held_qm w hd b st nd ns run]
    refine ⟨?_, by simp, by simp, rfl⟩
    rw [domainSt_modDomain_same]
  case domain =>
    intro u s
    refine ⟨fun m => ⟨_, rfl, beginStop_stopping m⟩, fun h => ⟨_, rfl, endStop_state h⟩, fun h none_ n => ⟨_, rfl, ?_⟩,
      fun h none_ r => ⟨_, rfl, ?_⟩⟩
    · rw [domainSt_releaseHolds ((endStart_passed_heldAccesses h).trans none_), endStart_passed h n]
      exact ⟨rfl, rfl⟩
    · rw [endStart_failed_once h r, domainSt_releaseHolds ((modDomain_heldAccesses ..).trans none_), domainSt_modDomain_same]
      exact ⟨rfl, rfl⟩

end Sys2Proof.Machine
end

section
/-!
SUPPORT. The parser's dispatch and stores: an equation for each case in which a frame is dispatched or ends, an engine meets a parity error,
an image is loaded or an indirection table is written (R18, R186, R187, R228, R241, R250, R252 to R256), and the statement O35.
-/
namespace Sys2Proof.Machine

/-! ### Frames and engines -/

/-- A frame that an update has changed. -/
@[simp] theorem frameOf_modFrame_same (id : Nat) (g : Frame → Frame) (s : State) : frameOf (modFrame id g s) id = (frameOf s id).map g := by
  unfold frameOf modFrame
  cases h : mfind s.tm.frames id with
  | none => simp [h]
  | some f => simp [mfind_mput_same]

/-- A write of an engine leaves the frames. -/
@[simp] theorem frameOf_putEngine (k : Nat) (e : Engine) (id : Nat) (s : State) : frameOf (putEngine k e s) id = frameOf s id := rfl

@[simp] theorem mfind_putEngine_same (k : Nat) (e : Engine) (s : State) : mfind (putEngine k e s).prs.engines k = some e :=
  mfind_mput_same _ _ _

/-! ### Dispatch (R186, R187, R228, R241) -/

/-- A frame that may be dispatched is, under the bindings of this moment. -/
theorem parseDispatch_dispatches {id : Nat} {f : Frame} {s : State} (h : frameOf s id = some f) (st : f.stage = .waiting) (w : f.waitCells = false)
    (fast : fastRuns s = true) (held : dispatchHeld s = false) (next_ : nextToParse s id f = true) (k : Nat) :
    exec (.parseDispatch id k) s = .next (dispatchSeen id k (seeBindings s f) (modFrame id (fun _ => seeBindings s f) s)) := by
  simp [execParseDispatch, h, st, w, fast, held, next_, dispatchFrame]

/-- What a host sends from a function without a vport is dropped (R187). -/
theorem dispatchSeen_noVport {g : Frame} (o : g.origin.isSome = true) (v : g.vport = 0xFFFF) (id k : Nat) (s : State) :
    dispatchSeen id k g s = dropFrame id 0x05 s := by
  simp [dispatchSeen, o, v]

section
variable {g : Frame} {s : State} (bound : g.origin.isSome = false ∨ g.vport ≠ 0xFFFF)
include bound

/-- A frame of the wire, or of a function with a vport, is not dropped for want of one. -/
theorem not_unbound : ¬ (g.origin.isSome = true ∧ g.vport = 0xFFFF) := by
  rintro ⟨o, v⟩
  rcases bound with b | b
  · simp [b] at o
  · exact b v

/-- Without any pair left a frame has no parse: disposition 3 (R442). -/
theorem dispatchSeen_noPair (gone : kindGone s 0 = true) (id k : Nat) : dispatchSeen id k g s = handOver (dropUnparsed id 3 g s) := by
  rw [dispatchSeen, if_neg (not_unbound bound), if_pos gone]

/-- A frame with a source address that is not its VF's is dropped and counted (R186). -/
theorem dispatchSeen_spoofed (pair : kindGone s 0 = false) (sp : spoofed s g = true) (id k : Nat) :
    dispatchSeen id k g s = dropFrame id 0x05 (vportStat g.vport 5 g.bytes.length s) := by
  rw [dispatchSeen, if_neg (not_unbound bound), if_neg (by simp [pair]), if_pos sp]

/-- Without an entry point a frame has no parse: disposition 2 (R241). -/
theorem dispatchSeen_noEntry (pair : kindGone s 0 = false) (own : spoofed s g = false) (none_ : entryOf s g = none) (id k : Nat) :
    dispatchSeen id k g s = handOver (dropUnparsed id 2 g s) := by
  rw [dispatchSeen, if_neg (not_unbound bound), if_neg (by simp [pair]), if_neg (by simp [own]), none_]

/-- Any other frame begins its parse on a free engine (R228). -/
theorem dispatchSeen_parsed {e pc k : Nat} (pair : kindGone s 0 = false) (own : spoofed s g = false) (entry : entryOf s g = some (e, pc))
    (free : engineFree s g k = true) (id : Nat) :
    dispatchSeen id k g s =
      putEngine k (freshEngine s id g e pc) (modFrame id (fun f => { f with stage := .parsing, prsCounts := [] }) s) := by
  simp only [dispatchSeen, not_unbound bound, pair, own, entry, free, Bool.false_eq_true, if_false, if_true]

end

/-! ### The end of a received frame (R18) -/

/-- A frame with a correct FCS is counted, with its bytes, and has ended. -/
theorem frameEnd_good {id : Nat} {f : Frame} {s : State} (h : frameOf s id = some f) (e : f.ended = false) (wire : f.ingress % 8 = 0)
    (fcs : f.fcs = crc32 f.asEntered) :
    exec (.frameEnd id) s = .next (handOver (modFrame id (fun f => { f with ended := true })
      (lpCount (f.ingress / 16) 1 (f.asEntered.length + 4) (lpCount (f.ingress / 16) 0 1 s)))) := by
  simp only [exec_frameEnd, execFrameEnd, h, e, wire, Bool.false_eq_true, ne_eq, not_true_eq_false, or_self, if_false, if_pos fcs]

/-- One without leaves nothing but its count. -/
theorem frameEnd_bad {id : Nat} {f : Frame} {s : State} (h : frameOf s id = some f) (e : f.ended = false) (wire : f.ingress % 8 = 0)
    (fcs : f.fcs ≠ crc32 f.asEntered) : exec (.frameEnd id) s = .next (badFrame id f s) := by
  simp only [exec_frameEnd, execFrameEnd, h, e, wire, Bool.false_eq_true, ne_eq, not_true_eq_false, or_self, if_false, if_neg fcs]

/-! ### Expiry and parity (R250, R255) -/

/-- An entry that expires leaves the fragment table (R250). -/
theorem fragEntryExpiry_deletes {set way : Nat} {x : Frag} {s : State} (h : mfind s.prs.frags (set * 4 + way) = some x) :
    exec (.fragEntryExpiry set way) s =
      .next (modPrs (fun p => { p with frags := mdel p.frags (set * 4 + way) }) (advanceTo (x.at_ + fragTimeout s) s)) := by
  simp only [exec_fragEntryExpiry, execFragEntryExpiry, h]

/-- The frame of a failing engine waits for another pair, and REL counts the fault (R255). -/
theorem parityError_restarts {k : Nat} {e : Engine} {s : State} (h : mfind s.prs.engines k = some e) (store : Bool) :
    exec (.parityError k store) s = .next (countFault 0 (k / 2) 0 false
      (modFrame e.frame (fun f => { f with stage := .waiting, notPair := some (k / 2), prsCounts := [] })
        (modPrs (fun x => { x with
          engines := mdel x.engines k,
          rewriting := if store && !x.rewriting.contains (k / 2) then (k / 2) :: x.rewriting else x.rewriting }) s))) := by
  simp only [exec_parityError, execParityError, h]

/-- A line with a good source is written, and its pair takes frames again (R255). -/
theorem pairLineRewritten_writes {l : LineRewrite} {s : State} (h : s.prs.rewriting.contains l.pair = true)
    (src : lineSource s l.pair l.poisoned = true) :
    exec (.pairLineRewritten l) s = .next (modPrs (fun x => { x with
      rewriting := x.rewriting.filter (· != l.pair),
      golden := if l.poisoned.contains 0 && l.poisoned.contains 1 then [x.image, x.image] else x.golden }) s) := by
  rw [exec_pairLineRewritten, execPairLineRewritten, if_neg (by rw [h, src]; simp)]

/-- A line without one stays as it is. -/
theorem pairLineRewritten_waits {l : LineRewrite} {s : State} (src : lineSource s l.pair l.poisoned = false) :
    exec (.pairLineRewritten l) s = .next s := by
  rw [exec_pairLineRewritten, execPairLineRewritten, if_pos (.inr (by simp [src]))]

/-! ### Loads (R252 to R254) -/

/-- START of a load, by a path that reaches PRS_LOAD_CTRL. -/
theorem prsLoadStart_acts {p : Path} {off : Nat} {s : State} (e : regBar p .PRS_LOAD_CTRL 0 = some off) (a : actsAt p off s = true) :
    exec (.prsLoadStart p) s = .next (prsLoadStart (asPath p) (atWork p off s)) :=
  congrArg Host.Outcome.next (writeOf_does 1 (by decide) e a (prsLoadStart (asPath p)) (fun _ => rfl))

/-- The bytes that a load takes: as many as the image's header says, and no more than the longest image has. -/
def loadBytes (s : State) : Bytes :=
  devRead s (pair64 s .PRS_LOAD_ADDR_LO .PRS_LOAD_ADDR_HI 0 0)
    (min 199056 (leNat (devRead s (pair64 s .PRS_LOAD_ADDR_LO .PRS_LOAD_ADDR_HI 0 0 + 8) 4)))

/-- A START while a load runs does nothing (assumption 129). -/
theorem prsLoadStart_loading {s : State} (l : s.prs.loading.isSome = true) (p : Path) : prsLoadStart p s = s := by
  rw [prsLoadStart, if_pos (.inr l)]

section
variable {p : Path} {s : State} (m : mayWrite s p .PRS_LOAD_CTRL = true) (l : s.prs.loading = none)
include m l

/-- A START while frames are dispatched is refused (R254). -/
theorem prsLoadStart_notHeld (d : dispatchHeld s = false) : prsLoadStart p s = modPrs (fun p => { p with loadResult := 1 }) s := by
  rw [prsLoadStart, if_neg (by simp [m, l]), if_pos (by simp [d])]

/-- An image whose form is not that of one is refused (R253). -/
theorem prsLoadStart_badForm (d : dispatchHeld s = true) (form : prsFormOk (loadBytes s) = false) : prsLoadStart p s = loadFail 2 s := by
  unfold loadBytes at form
  simp [prsLoadStart, m, l, d, form]

/-- One of the right form is loaded where the owner's key, which is fused, has signed it (R253). -/
theorem prsLoadStart_wellFormed (d : dispatchHeld s = true) (form : prsFormOk (loadBytes s) = true) :
    prsLoadStart p s = if imageKeyHash s = some (sha384 (ownerKey s)) ∧ prsSigOk (ownerKey s) (loadBytes s) = true then
        foldS startForLoad (activeUnits s 0) (modPrs (fun p => { p with
          loading := some (prsImageOf (loadBytes s)), golden := [prsImageOf (loadBytes s), prsImageOf (loadBytes s)], loadResult := 4 }) s)
      else loadFail 3 s := by
  by_cases key : imageKeyHash s = some (sha384 (ownerKey s))
  · cases sig : prsSigOk (ownerKey s) (loadBytes s) <;> unfold loadBytes at form sig ⊢ <;> simp [prsLoadStart, m, l, d, form, key, sig]
  · unfold loadBytes at form
    simp [prsLoadStart, m, l, d, form, key]

end

/-- A load that no pair fails puts its image in force (R253). -/
theorem loadDone_nil {i : PrsImage} {s : State} (l : s.prs.loading = some i) :
    exec (.loadDone []) s = .next (prsEvent 0x01 0
      (modPrs (fun p => { p with image := i, loaded := true, loading := none, loadResult := 0, loadPairs := [] })
        (foldS (fun p s => modDomain (.prsPair p) (fun _ => { since := s.elapsed }) s) s.prs.loadPairs s))) := by
  simp only [exec_loadDone, execLoadDone, l, foldS]

/-- Its event leaves the parser as it is. -/
theorem prsEvent_prs (code detail : Nat) (s : State) : (prsEvent code detail s).prs = s.prs := by
  simp [prsEvent]

/-! ### Indirection tables (R256) -/

/-- A write of PRS_IND_ENTRY or PRS_IND_CFG, by a path that reaches it. -/
theorem prsIndWrite_acts {p : Path} {off : Nat} {s : State} {en : Bool} (e : regBar p (if en then .PRS_IND_ENTRY else .PRS_IND_CFG) 0 = some off)
    (a : actsAt p off s = true) (v : Word) : exec (.prsIndWrite p en v) s = .next (indWrite (asPath p) en v (atWork p off s)) := by
  cases en with
  | true => exact congrArg Host.Outcome.next (writeOf_does v (by decide) e a (indWrite (asPath p) true v) (fun _ => rfl))
  | false => exact congrArg Host.Outcome.next (writeOf_does v (by decide) e a (indWrite (asPath p) false v) (fun _ => rfl))

/-- The table that a path selects, and the entry in it. -/
def indSelected (s : State) (p : Path) : Nat := fld (reg s .PRS_IND_SELECT 0 (pathCode p)) 9 0
def indSlot (s : State) (p : Path) : Nat :=
  fld (reg s .PRS_IND_SELECT 0 (pathCode p)) 19 19 * 512 + fld (reg s .PRS_IND_SELECT 0 (pathCode p)) 18 10 % 512

/-- The table of another function does not change. -/
theorem indWrite_notOwned {p : Path} {s : State} (own : indOwns s p (fld (indTable s (indSelected s p)).cfg 11 0) = false) (en : Bool) (v : Word) :
    indWrite p en v s = s := by
  unfold indSelected at own
  simp [indWrite, own]

section
variable {p : Path} {s : State} (m : mayWrite s p .PRS_IND_CFG = true) (own : indOwns s p (fld (indTable s (indSelected s p)).cfg 11 0) = true)
include m own

/-- An entry of an owned table takes its target. -/
theorem indWrite_entry (v : Word) :
    indWrite p true v s = indResult p 0 (modPrs (fun y => { y with ind := mmod {} y.ind (indSelected s p) (fun x => { x with
      targets := mset 0 x.targets (indSlot s p) (fld v 23 0) }) }) s) := by
  unfold indSelected at own
  simp [indWrite, m, own, indSelected, indSlot]

/-- A configuration that leaves the table owned and has a size that there is, is taken. -/
theorem indWrite_cfg {v : Word} (own' : indOwns s p (fld (applyWrite .PRS_IND_CFG (indTable s (indSelected s p)).cfg v) 11 0) = true)
    (size : fld (applyWrite .PRS_IND_CFG (indTable s (indSelected s p)).cfg v) 15 12 ≤ 9) :
    indWrite p false v s = indResult p 0 (modPrs (fun y => { y with ind := mmod {} y.ind (indSelected s p) (fun x => { x with
      cfg := applyWrite .PRS_IND_CFG (indTable s (indSelected s p)).cfg v }) }) s) := by
  unfold indSelected at own own' size
  simp [indWrite, m, own, own', Nat.not_lt.mpr size, indSelected]

end

/-! ### The obligation -/

/-- Settles O35, clause by clause, by the equations above. -/
theorem parserDispatchAndStores : Obligations.ParserDispatchAndStores := by
  refine ⟨?expiry, ?dispatch, ?frameEnd, ?parity, ?line, ?start, ?done, ?ind⟩
  case expiry =>
    exact fun _ _ _ _ h => ⟨_, fragEntryExpiry_deletes h, by simp⟩
  case dispatch =>
    rintro id k pc e f g s _ h st w fast held next_ rfl rfl
    rw [parseDispatch_dispatches h st w fast held next_]
    refine ⟨fun o v => congrArg _ (dispatchSeen_noVport o v ..), fun bound => ⟨fun gone => congrArg _ (dispatchSeen_noPair bound gone ..),
      fun pair sp => congrArg _ (dispatchSeen_spoofed bound pair sp ..), fun pair own entry => congrArg _ (dispatchSeen_noEntry bound pair own entry ..),
      fun pair own entry free => ⟨_, congrArg _ (dispatchSeen_parsed bound pair own entry free id), ?_, ?_⟩⟩⟩
    · exact mfind_putEngine_same ..
    · simp [h]
  case frameEnd =>
    exact fun _ _ _ h e wire => ⟨frameEnd_good h e wire, frameEnd_bad h e wire⟩
  case parity =>
    exact fun _ store _ _ h => ⟨_, parityError_restarts h store, rfl⟩
  case line =>
    exact fun p poisoned _ h => ⟨fun src => ⟨_, pairLineRewritten_writes (l := ⟨p, poisoned⟩) h src, rfl, rfl, rfl⟩,
      fun src => pairLineRewritten_waits (l := ⟨p, poisoned⟩) src⟩
  case start =>
    rintro p off s0 _ e a rfl m
    rw [prsLoadStart_acts e a]
    refine ⟨fun l => congrArg _ (prsLoadStart_loading l _), fun l d => congrArg _ (prsLoadStart_notHeld m l d), ?_⟩
    rintro bs d l rfl
    refine ⟨fun bad => congrArg _ (prsLoadStart_badForm m l d bad), fun form => ?_⟩
    have started := prsLoadStart_wellFormed m l d form
    split
    · next signed_ => exact congrArg _ (started.trans (if_pos signed_))
    · next unsigned_ => exact congrArg _ (started.trans (if_neg unsigned_))
  case done =>
    intro i s l
    refine ⟨_, loadDone_nil l, ?_⟩
    rw [prsEvent_prs]
    exact ⟨rfl, rfl, rfl, rfl⟩
  case ind =>
    rintro p off _ v _ s0 _ en e a rfl m rfl rfl
    rw [prsIndWrite_acts e a]
    refine ⟨fun foreign => congrArg _ (indWrite_notOwned foreign en v), ?_, ?_⟩
    · rintro own rfl
      exact ⟨_, congrArg _ (indWrite_entry m own v), rfl⟩
    · rintro own rfl own' size
      exact ⟨_, congrArg _ (indWrite_cfg m own own' size), rfl⟩

end Sys2Proof.Machine
end

section
/-!
SUPPORT. Host transmit and the scheduler: an equation for each case in which a frame enters, waits, is chosen, starts and leaves, and the gates'
lists (R166, R205, R207, R296, R299, R301, R304, R309, R311, R312), and the statement O41.
-/
namespace Sys2Proof.Machine

/-! ### Host transmit (R166, R296, R299) -/

section
variable {f : Fn} {q : Nat} {w : Work} {s : State} (next_ : nextWork s f q 0 1 = some w)
  (room : s.tm.frames.any (fun e => e.2.waitCells && e.2.origin.any (fun o => fnPf o.1 == fnPf f)) = false)
include next_ room

/-- An entry whose reads are in sends its frame (R166). -/
theorem txFrame_sends {bs : Bytes} (reads : readsOf w = some (bs, 0)) {r : Nat × State}
    (new : r = newFrame (hostFrame s f q w bs) (modWork f q w.ctr (fun w => { w with started := true }) s)) :
    txFrame f q s = enterCells r.1 (modWork f q w.ctr (fun w => { w with ref := some r.1 }) r.2) := by
  subst new
  simp only [txFrame, next_, room, reads, Bool.false_eq_true, if_false]

/-- One with a read that failed ends with that read's status (R166). -/
theorem txFrame_fails {bs : Bytes} {st : Nat} (reads : readsOf w = some (bs, st)) (bad : st ≠ 0) : txFrame f q s = finishWork f q w.ctr st 0 s := by
  obtain ⟨n, rfl⟩ := Nat.exists_eq_succ_of_ne_zero bad
  simp only [txFrame, next_, room, reads, Bool.false_eq_true, if_false]

end

/-- A frame that waits for cells tries again when some have come free (R296). -/
theorem hostTxResume_enters {id : Nat} {f : Frame} {s : State} (h : frameOf s id = some f) (w : f.waitCells = true) :
    exec (.hostTxResume id) s = .next (enterCells id s) := by
  simp only [exec_hostTxResume, execHostTxResume, h, w, if_true]

/-- It takes its cells, and its timestamp is of that moment. -/
theorem enterCells_takes {id : Nat} {f : Frame} {s t : State} (h : frameOf s id = some f) (cells : takeCells false id f.bytes.length s = some t) :
    enterCells id s = modFrame id (fun f => { f with waitCells := false, ts := nowFrac s, bound := bound16 s }) t := by
  simp only [enterCells, h, cells]

/-- Without enough of them it waits. -/
theorem enterCells_waits {id : Nat} {f : Frame} {s : State} (h : frameOf s id = some f) (cells : takeCells false id f.bytes.length s = none) :
    enterCells id s = modFrame id (fun f => { f with waitCells := true }) s := by
  simp only [enterCells, h, cells]

/-- What an egress queue held goes on once its depth is below its limit (R299). -/
theorem sqFetchResume_releases {q : Nat} {s : State} (below : belowLimit s q = true) :
    exec (.sqFetchResume q) s =
      .next (modTm (fun t => { t with injectHeld := if t.injectHeld = some q then none else t.injectHeld }) (releaseHeld q s)) := by
  rw [exec_sqFetchResume, execSqFetchResume, if_pos below]

/-! ### The scheduler (R301, R304, R309) -/

/-- A decision of a port that can start a frame starts the head copy of the queue that it chooses (R301). -/
theorem scheduleDecision_starts {lp q : Nat} {s s0 s1 u : State} (port : lp < 16) (idle : (lport s lp).sending = none) (fwd : forwards s = true)
    (waits : portWaits s lp = false) (e0 : s0 = advanceTo ((lport s lp).freeAt / 200) s)
    (e1 : s1 = foldS creditPath (portQueues s0 lp) (judgePort lp s0)) (ready : portReady s1 lp = true) (pick : pickClass s1 lp = (some q, u)) :
    exec (.scheduleDecision lp) s = .next (startCopy lp q u) := by
  have decides : ¬ (16 ≤ lp ∨ (lport s lp).sending.isSome ∨ !forwards s ∨ portWaits s lp) := by
    simp [Nat.not_le.mpr port, idle, fwd, waits]
  subst e0 e1
  rw [exec_scheduleDecision, execScheduleDecision, if_neg decides]
  simp only [ready, pick, Bool.not_true, Bool.false_eq_true, if_false]

/-- The copy starts: it occupies the port for its time on the wire, and its queue's path is credited to this moment and charged (R301, R304). -/
theorem startCopy_sends {q : Nat} {x : Copy} {s : State} (head : (nodeSt s q).copies.head? = some x) (whole : cellsPoisoned s x.frame = false)
    (lp : Nat) :
    startCopy lp q s = judgeQueue q (popHead q (chargePath q (wireLen x) (creditPath q
      (modLport lp (fun p => { p with
        sending := some { copy := x, start := startAt s lp, len := wireLen x, ts := txStamp s lp, bound := bound16 s },
        freeAt := startAt s lp + wireTime s lp (wireLen x + 20) }) s)))) := by
  simp only [startCopy, head, whole, Bool.false_eq_true, if_false]

/-- A shaped node's tokens are credited, at the moment from which they are at least 0 (R304). -/
theorem shaperCredit_credits {k : Nat} {s : State} (node : k % 65536 < nodeCount (k / 65536)) (level : k < 4 * 65536) (shaped : nodeRate s k ≠ 0) :
    exec (.shaperCredit k) s =
      .next (applyCredit k (advanceTo ((nodeSt s k).creditAt + ceilDiv (-(nodeTokens s k)).toNat (nodeRate s k)) s)) := by
  rw [exec_shaperCredit, execShaperCredit, if_neg (by omega)]

/-- Device time comes to a launch time that is still to come; one that has passed waits for nothing (R309). -/
theorem launchTimeReached_waits {q t : Nat} {x : Copy} {s : State} (head : (nodeSt s (nodeKey 3 q)).copies.head? = some x)
    (launch : x.launch = some t) :
    exec (.launchTimeReached q) s =
      .next (if launched s x.lport x then s else advanceTai (ceilDiv (t * 65536 - (txStamp s x.lport - startTime s x.lport)) 65536) s) := by
  simp only [exec_launchTimeReached, execLaunchTimeReached, head, launch]

/-! ### Transmission (R205, R207) -/

/-- The last bit of the copy leaves: the port is free, its counters count the frame, and the copy is done. -/
theorem frameTransmitted_leaves {lp : Nat} {x : Sending} {s s0 s1 : State} (sending : (lport s lp).sending = some x)
    (e0 : s0 = advanceTo (ceilDiv (x.start + wireTime s lp (x.len + 8)) 200) s)
    (e1 : s1 = if (oneStep x.copy x.ts).isSome then lpCount lp 15 1 s0 else s0) :
    exec (.frameTransmitted lp) s = .next (copyDone x.copy.frame .port (toNs x.ts) x.bound
      (emit (.frameOut lp (toNs x.ts) (onWire ((oneStep x.copy x.ts).getD x.copy.bytes)))
        (lpCount lp 11 x.len (lpCount lp 10 1 (modLport lp (fun p => { p with sending := none }) s1))))) := by
  subst e0 e1
  simp only [exec_frameTransmitted, execFrameTransmitted, sending]

/-! ### Gates (R311, R312) -/

/-- A pending list becomes operational at its change time (R312). -/
theorem gateListActive_activates {lp : Nat} {l : GateList} {s : State} (pending : (lport s lp).pending = some l) :
    exec (.gateListActive lp) s = .next (activateList lp (advanceTai l.change s)) := by
  simp only [exec_gateListActive, execGateListActive, pending]

/-- Device time comes to the end of the entry in force (R311). -/
theorem gateEntryChange_advances {lp : Nat} {l : GateList} {s : State} (on_ : gateEnabled s lp = true)
    (list : gateListAt (lport s lp) (now s) = some l) :
    exec (.gateEntryChange lp) s =
      .next (advanceTai (nowFrac s / 65536 + (partAt (gateParts l) 0 (cyclePos l (nowFrac s / 65536))).2.2) s) := by
  rw [exec_gateEntryChange, execGateEntryChange, if_neg (by simp [on_]), list]

/-- A logical port that the mode uses has its gate registers (R198). -/
theorem portAbsent_gateCommit {s : State} {lp : Nat} (used : lpUsed s lp = true) : portAbsent s .MAC_GATE_COMMIT lp = false := by
  have port : regPort .MAC_GATE_COMMIT lp = some lp := congrArg some (Nat.div_one lp)
  simp [portAbsent, port, used]

/-- COMMIT, by a path that reaches the register of a port that the mode uses. -/
theorem gateCommit_acts {p : Path} {off lp : Nat} {s : State} (e : regBar p .MAC_GATE_COMMIT lp = some off) (a : actsAt p off s = true)
    (used : lpUsed (atWork p off s) lp = true) : exec (.gateCommit p lp) s = .next (gateCommit (asPath p) lp (atWork p off s)) := by
  have write : regStore (asPath p) 0 .MAC_GATE_COMMIT lp 1 (atWork p off s) = gateCommit (asPath p) lp (atWork p off s) := by
    change macWrite (asPath p) .MAC_GATE_COMMIT lp 1 (atWork p off s) = _
    rw [macWrite, portAbsent_gateCommit used]
    rfl
  rw [exec_gateCommit, execGateCommit, writeOf_acts 1 (regReached_of_lt _ rfl (by decide) _) e a, write]

section
variable {p : Path} {lp : Nat} {s : State} (m : mayWrite s p .MAC_GATE_COMMIT = true) (used : lpUsed s lp = true)
include m used

/-- An admin list that may not be committed leaves RESULT 1 (R310, R312). -/
theorem gateCommit_refused (list : adminList s lp = none) : gateCommit p lp s = modLport lp (fun x => { x with gateResult := 1 }) s := by
  rw [gateCommit, if_neg (by simp [m, used]), list]

/-- One that may becomes the pending list, where none is pending (R312). -/
theorem gateCommit_commits {l : GateList} (list : adminList s lp = some l) (free : (lport s lp).pending = none) :
    gateCommit p lp s = modLport lp (fun x => { x with
      gateResult := 0, pending := some { l with change := changeTime l.base l.cycle (ceilDiv (nowFrac s) 65536) },
      gateChange := changeTime l.base l.cycle (ceilDiv (nowFrac s) 65536) }) s := by
  rw [gateCommit, if_neg (by simp [m, used]), list, free]
  rfl

end

/-! ### CONFIG_CHANGE_TIME (R312) -/

/-- A quotient that is rounded up covers the number, by less than one divisor more. -/
theorem ceilDiv_mul_bounds {d : Nat} (h : 0 < d) (n : Nat) : n ≤ ceilDiv n d * d ∧ ceilDiv n d * d < n + d := by
  have up : (n + d - 1) / d * d + (n + d - 1) % d = n + d - 1 := Nat.div_add_mod' _ _
  have rest := Nat.mod_lt (n + d - 1) h
  unfold ceilDiv
  omega

/-- A base time that lies 1 us ahead or more is the change time. -/
theorem changeTime_ahead {base t : Nat} (h : t + 1000 ≤ base) (cycle : Nat) : changeTime base cycle t = base := if_pos h

/-- After an earlier one, whole cycles follow, up to that moment. -/
theorem changeTime_after {base t : Nat} (h : base < t + 1000) (cycle : Nat) :
    changeTime base cycle t = base + ceilDiv (t + 1000 - base) cycle * cycle := if_neg (Nat.not_le.mpr h)

/-- The change time is 1 us ahead or more: base itself, or the first moment from then that is whole cycles after base. -/
theorem changeTime_spec {cycle : Nat} (h : 0 < cycle) (base t : Nat) :
    t + 1000 ≤ changeTime base cycle t ∧ (t + 1000 ≤ base → changeTime base cycle t = base) ∧
      (base < t + 1000 → changeTime base cycle t < t + 1000 + cycle ∧ cycle ∣ changeTime base cycle t - base) := by
  have bounds := ceilDiv_mul_bounds h (t + 1000 - base)
  refine ⟨?_, fun ahead => changeTime_ahead ahead cycle, fun after => ?_⟩
  · rcases Nat.lt_or_ge base (t + 1000) with after | ahead
    · rw [changeTime_after after]
      omega
    · rwa [changeTime_ahead ahead]
  · rw [changeTime_after after, Nat.add_sub_cancel_left]
    exact ⟨by omega, Nat.dvd_mul_left _ _⟩

/-! ### The obligation -/

/-- Settles O41, clause by clause, by the equations above. -/
theorem hostTransmitAndScheduler : Obligations.HostTransmitAndScheduler := by
  refine ⟨?tx, ?resume, fun _ _ below => sqFetchResume_releases below,
    fun _ _ _ _ _ _ port idle fwd waits e0 e1 ready pick => scheduleDecision_starts port idle fwd waits e0 e1 ready pick,
    fun lp _ _ _ head whole => startCopy_sends head whole lp, fun _ _ node level shaped => shaperCredit_credits node level shaped, ?launch,
    fun _ _ _ _ _ sending e0 e1 => frameTransmitted_leaves sending e0 e1, fun _ _ => rfl, fun _ _ _ pending => gateListActive_activates pending,
    fun _ _ _ on_ list => gateEntryChange_advances on_ list, ?commit, fun base _ t h => changeTime_spec h base t⟩
  case tx =>
    exact fun f q st w bs s next_ room => ⟨fun reads _ new => congrArg _ (txFrame_sends next_ room reads new),
      fun reads bad => congrArg _ (txFrame_fails next_ room reads bad)⟩
  case resume =>
    intro id f s h w
    rw [hostTxResume_enters h w]
    exact ⟨fun _ cells => congrArg _ (enterCells_takes h cells), fun cells => congrArg _ (enterCells_waits h cells)⟩
  case launch =>
    intro q t x s head launch
    rw [launchTimeReached_waits head launch]
    exact ⟨fun later => by rw [if_neg (by simp [later])], fun passed => by rw [if_pos passed]⟩
  case commit =>
    rintro p off lp s0 _ e a rfl m used
    rw [gateCommit_acts e a used]
    refine ⟨fun list => congrArg _ (gateCommit_refused m used list), ?_⟩
    rintro l _ list free rfl
    exact congrArg _ (gateCommit_commits m used list free)

end Sys2Proof.Machine
end

section
/-!
SUPPORT. Boot, readiness and the halves' reset pins and links: an equation for each case in which BRINGUP starts, a unit or a function becomes
ready, and a half's PERSTn_N or link changes (R83, R84, R94, R95, R98, R100, R102, R119), and the statement O21.
-/
namespace Sys2Proof.Machine

/-! ### Records of functions and of halves -/

/-- A function's record after its change. -/
@[simp] theorem fnSt_modFn_same (f : Fn) (g : FnSt → FnSt) (s : State) : fnSt (modFn f g s) f = g (fnSt s f) := mget_mmod_same _ _ _ _

/-- A half's record after its change, where there is such a half. -/
theorem halfSt_modHalf_same {k : Nat} {s : State} (h : k < s.hif.halves.length) (g : HalfSt → HalfSt) :
    halfSt (modHalf k g s) k = g (halfSt s k) := by
  simp [halfSt, modHalf, h]

/-- A half's record rests on HIF's alone. -/
theorem halfSt_congr {s t : State} (h : t.hif = s.hif) (k : Nat) : halfSt t k = halfSt s k := by
  rw [halfSt, halfSt, h]

/-! ### BRINGUP (R95, R98, R107) -/

/-- From STANDBY with a wake pending, every main rail good and no fault, BRINGUP begins (R95). -/
theorem bringupStart_wakes {s : State} (mode : s.cai.mode = .standby) (wake : s.cai.wakePending = true) (rails : railsGood s = true)
    (order : s.cai.orderFault = false) (cool : s.cai.tripped = false) (railOk : s.cai.railFault = false) (sound : s.cai.fatal = false)
    (due : s.cai.fatalRestartAt = none) (boot : BootInput) :
    exec (.bringupStart boot) s = .next (bootSteps boot (setMode .bringup (modCai (fun c => { c with
      wakePending := false, wakeSource := false, wakeCause := 0, resetCause := c.wakeCause, railFault := false, fatal := false,
      bringup := some { started := s.elapsed, warm := !s.dev.isEmpty } }) (restartReset s)))) := by
  have starts : ¬ (!s.cai.wakePending ∨ !railsGood s ∨ s.cai.orderFault ∨ s.cai.tripped ∨ s.cai.fatalRestartAt.isSome) := by
    simp [wake, rails, order, cool, due]
  simp only [exec_bringupStart, execBringupStart, mode, if_neg starts, railOk, sound, Bool.or_self, Bool.false_eq_true, if_false]

/-- The BRINGUP that a RESTART has entered boots once (R97). -/
theorem bringupStart_restarts {s : State} {b : Bringup} (mode : s.cai.mode = .bringup) (restart : s.cai.bringup = some b) (new : b.booted = false)
    (boot : BootInput) :
    exec (.bringupStart boot) s = .next (bootSteps boot (modCai (fun c => { c with bringup := some { b with booted := true } }) s)) := by
  simp only [exec_bringupStart, execBringupStart, mode, restart, new, Bool.false_eq_true, if_false]

/-- No image of the UP neighbour has begun to arrive: the banks are read (R98 step 6). -/
theorem bootWaitExpiry_falls_back {s : State} {b : Bringup} {t : Nat} (boot : s.cai.bringup = some b) (wait : b.waitUntil = some t) :
    exec .bootWaitExpiry s = .next (bootBanks (bootFallback 2
      (modCai (fun c => { c with bringup := some { b with waitUntil := none } }) (advanceTo t s)))) := by
  simp only [exec_bootWaitExpiry, execBootWaitExpiry, boot, wait]

/-- Outside BRINGUP there is no end of it to judge (R95). -/
theorem tryFinish_of_ne_bringup {s : State} (h : s.cai.mode ≠ .bringup) : tryFinish s = s := if_neg fun c => h c.1

/-! ### Readiness (R95, R100, R102) -/

/-- A unit that was not ready becomes so, while firmware runs (R102). -/
theorem unitReady_adds {unit : Nat} {s : State} (fw : firmwareUp s = true) (new : s.cai.ready.contains unit = false) :
    exec (.unitReady unit) s = .next (tryFinish (modCai (fun c => { c with ready := c.ready ++ [unit] }) s)) := by
  rw [exec_unitReady, execUnitReady, if_neg (by rw [fw, new]; simp)]

/-- A PF0 that is ready after a conventional reset sends a DRS Message; in SERVICE the mode stays (R100). -/
theorem functionReady_pf0 {i why : Nat} {s : State} (due : (fnSt s (.pf i)).readyWhy = some why) (reset : why ≠ 3) (pf0 : isPf0 s i = true)
    (there : fnExists s (.pf i) = true) (link : linkUp s (.pf i) = true) (fw : firmwareUp s = true) (mode : s.cai.mode = .service) :
    exec (.functionReady (.pf i)) s =
      .next (emit (.drs (.pf i)) (modFn (.pf i) (fun r => { r with ready := true, readyWhy := none }) s)) := by
  have becomes : ¬ (!fnExists s (.pf i) ∨ !linkUp s (.pf i) ∨ !firmwareUp s ∨
      ((s.cai.mode = .recovery ∨ s.cai.mode = .returned) ∧ Fn.pf i ≠ .pf 0)) := by
    simp [there, link, fw, mode]
  simp only [exec_functionReady, execFunctionReady, due, if_neg becomes, if_neg reset, pf0, if_true]
  rw [if_neg (by simp [mode]), tryFinish_of_ne_bringup (by simp [mode])]

/-! ### Reset pins of the halves (R83, R84, R94) -/

/-- The pin of a half in use acts wherever the Cairn domain runs out of reset: what PERST_ASSERT and PERST_DEASSERT ignore does not hold. -/
theorem perst_not_ignored {half : Nat} {s : State} (used : halfInUse s half = true) (lt : half < 2) (on_ : s.cai.mode ≠ .off)
    (porst : s.cai.porstLow = false) : ¬ (!halfInUse s half ∨ 2 ≤ half ∨ s.cai.mode = .off ∨ s.cai.porstLow) := by
  simp [used, lt, on_, porst]

section
variable {half : Nat} {s : State} (used : halfInUse s half = true) (lt : half < 2) (on_ : s.cai.mode ≠ .off) (porst : s.cai.porstLow = false)
include used lt on_ porst

/-- PERSTn_N goes low: the half's link is lost (R83). -/
theorem perstAssert_loses :
    exec (.perstAssert half) s = .next (linkLost half (modCai (fun c => { c with perstHigh := c.perstHigh.set half false }) s)) := by
  rw [exec_perstAssert, execPerstAssert, if_neg (perst_not_ignored used lt on_ porst)]

/-- PERSTn_N goes high with the main rails good: it is a wake, the half trains, and PERST_HOLD may end (R84, R94, R107). -/
theorem perstDeassert_wakes (rails : railsGood s = true) (low : s.cai.perstHigh.getD half false = false) :
    exec (.perstDeassert half) s = .next (leaveHold (startTraining half (setWake 6
      (modCai (fun c => { c with perstHigh := c.perstHigh.set half true }) s)))) := by
  simp only [exec_perstDeassert, execPerstDeassert, if_neg (perst_not_ignored used lt on_ porst), rails, low, Bool.not_false, and_self, if_true]

end

/-! ### Links of the halves (R84, R116, R119) -/

/-- An event leaves the halves' records, and so does that of a link below its rate or width. -/
@[simp] theorem halfSt_raise (block code detail : Nat) (sc : Scope) (s : State) (k : Nat) : halfSt (raise block code detail sc s) k = halfSt s k :=
  halfSt_congr (by simp) k

@[simp] theorem halfSt_noteDegraded (half rate width : Nat) (s : State) (k : Nat) : halfSt (noteDegraded half rate width s) k = halfSt s k :=
  halfSt_congr (hif_of_frame (noteDegraded_frame 2097664 rfl half rate width s) rfl) k

section
variable {half rate width : Nat} {flit : Bool} {s : State} (able : linkSupported s rate width flit = true)
include able

/-- A half that may train comes up as negotiated (R84, R116). -/
theorem pcieLinkUp_trains (train : mayTrain s half = true) (down : (halfSt s half).up = false) :
    exec (.pcieLinkUp half rate width flit) s = .next (noteDegraded half rate width (raise 0x2 0x01 half (.half half)
      (modHalf half (fun _ => { up := true, rate := rate, width := width, flit := flit, training := false }) s))) := by
  simp only [exec_pcieLinkUp, execPcieLinkUp, able, train, down, Bool.not_true, Bool.false_eq_true, if_false]

/-- A link that is up takes a new rate or width in its encoding (R116, R155). -/
theorem pcieLinkUp_changes (up : (halfSt s half).up = true) (used : halfInUse s half = true) (same : flit = (halfSt s half).flit)
    (new : rate ≠ (halfSt s half).rate ∨ width ≠ (halfSt s half).width) :
    exec (.pcieLinkUp half rate width flit) s =
      .next (noteDegraded half rate width (modHalf half (fun h => { h with rate := rate, width := width }) s)) := by
  have changes : halfInUse s half = true ∧ flit = (halfSt s half).flit ∧ (rate ≠ (halfSt s half).rate ∨ width ≠ (halfSt s half).width) :=
    ⟨used, same, new⟩
  simp only [exec_pcieLinkUp, execPcieLinkUp, able, up, Bool.not_true, Bool.false_eq_true, if_false, if_true, if_pos changes]

end

/-! ### The obligation -/

/-- Settles O21, clause by clause, by the equations above. -/
theorem bootAndReadiness : Obligations.BootAndReadiness := by
  refine ⟨?wakes, fun boot _ _ mode restart new => bringupStart_restarts mode restart new boot,
    fun _ _ _ boot wait => bootWaitExpiry_falls_back boot wait, fun _ _ fw new => unitReady_adds fw new, ?ready,
    fun _ _ used lt on_ porst => perstAssert_loses used lt on_ porst,
    fun _ _ used lt on_ porst rails low => perstDeassert_wakes used lt on_ porst rails low, ?trains, ?changes, ?lost⟩
  case wakes =>
    exact fun boot _ mode wake rails order cool railOk sound due => bringupStart_wakes mode wake rails order cool railOk sound due boot
  case ready =>
    intro i why s due reset pf0 there link fw mode
    refine ⟨_, functionReady_pf0 due reset pf0 there link fw mode, ?_, ?_, by simp⟩
    all_goals exact congrArg _ (fnSt_modFn_same ..)
  case trains =>
    intro half rate width flit s able train down there
    refine ⟨_, pcieLinkUp_trains able train down, ?_⟩
    rw [halfSt_noteDegraded, halfSt_raise, halfSt_modHalf_same there]
  case changes =>
    intro half rate width flit s able up used same new there
    refine ⟨_, pcieLinkUp_changes able up used same new, ?_⟩
    rw [halfSt_noteDegraded, halfSt_modHalf_same there]
  case lost =>
    exact fun _ _ up => ⟨if_pos up, if_pos up, if_pos up⟩

end Sys2Proof.Machine
end

section
/-!
SUPPORT. The Akzal cascade: an equation for each case in which a port or its link changes, membership is told and judged, time passes along the
chain, and an image is asked for, passed and reported (R77, R412 to R418, R423 to R426), and the statement O50.
-/
namespace Sys2Proof.Machine

/-! ### Ports (R77, R412, R414) -/

/-- A port that may run comes up, grants its credit per class, and the chain is judged again. -/
theorem akzPortUp_grants {p : Nat} {s s1 s2 : State} (lt : p < 2) (down : (akzPort s p).up = false) (run : akzMayRun s p = true)
    (e1 : s1 = akzEvent 0x01 p (modAkzPort p (fun x => { x with up := true, training := false }) s))
    (e2 : s2 = foldS (fun c s => grantCredit (some (p, c, dfld s .AKZ_CREDIT_CELLS 15 0)) s) (List.range 8) s1) :
    exec (.akzPortUp p) s = .next (judgeChain (tryJoin none s2)) := by
  have rises : ¬ (2 ≤ p ∨ (akzPort s p).up ∨ !akzMayRun s p) := by simp [lt, down, run]
  rw [e2, e1]
  exact if_neg rises

/-! ### The link (R412 to R414) -/

section
variable {p : Nat} {s : State} (lt : p < 2) (up : (akzPort s p).up = true)
include lt up

/-- The commands of a port's link and neighbour act on a port that is up. -/
theorem akz_not_ignored : ¬ (2 ≤ p ∨ !(akzPort s p).up) := by
  simp [lt, up]

/-- A good frame in sequence is acknowledged, and the next one is expected. -/
theorem linkFrameRx_acknowledges {q : Nat} (next_ : q % 4096 = (akzPort s p).expect) :
    exec (.linkFrameRx p true (.frame q)) s =
      .next (emit (.akz p 3 1 (leBytes 2 q)) (modAkzPort p (fun x => { x with expect := (x.expect + 1) % 4096 }) s)) := by
  rw [exec_linkFrameRx, execLinkFrameRx, if_neg (akz_not_ignored lt up)]
  exact if_pos ⟨rfl, next_⟩

/-- One that fails its CRC or is out of sequence is answered with a NAK, which names the first sequence lacking. -/
theorem linkFrameRx_refuses {ok : Bool} {q : Nat} (bad : ok = false ∨ q % 4096 ≠ (akzPort s p).expect) :
    exec (.linkFrameRx p ok (.frame q)) s = .next (emit (.akz p 3 2 (leBytes 2 (akzPort s p).expect)) s) := by
  rw [exec_linkFrameRx, execLinkFrameRx, if_neg (akz_not_ignored lt up)]
  refine if_neg fun ⟨good, next_⟩ => ?_
  rcases bad with rfl | gap
  · cases good
  · exact gap next_

/-- An acknowledgement frees the frames up to its sequence. -/
theorem linkFrameRx_ack (q : Nat) : exec (.linkFrameRx p true (.ack q)) s = .next (acked p (q % 4096) s) := by
  rw [exec_linkFrameRx, execLinkFrameRx, if_neg (akz_not_ignored lt up)]
  rfl

/-- Credit of a class is added to what the port holds, and frames may start. -/
theorem linkFrameRx_credit {c : Nat} (cls : c < 8) (n : Nat) :
    exec (.linkFrameRx p true (.credit c n)) s = .next (akzPump p (modAkzPort p (fun x => { x with credit := updAt c (· + n) x.credit }) s)) := by
  rw [exec_linkFrameRx, execLinkFrameRx, if_neg (akz_not_ignored lt up)]
  exact if_pos ⟨rfl, cls⟩

section
variable {q : Nat} {s1 : State} (e1 : s1 = acked p ((q + 4095) % 4096) s) (head : ((akzPort s1 p).replay.map LinkFrame.seq).head? = some (q % 4096))
include e1 head

/-- After 8 replays of the frame that a NAK names, the port goes down (R412). -/
theorem linkNakRx_gives_up (spent : 8 ≤ (akzPort s1 p).replayed) : exec (.linkNakRx p q) s = .next (akzPortDown p s1) := by
  subst e1
  simp only [exec_linkNakRx, execLinkNakRx, if_neg (akz_not_ignored lt up), head, ne_eq, not_true_eq_false, if_false, if_pos spent]

/-- Before that, the frames from the one that a NAK names are replayed, and counted in REPLAYS (R413). -/
theorem linkNakRx_replays (left : (akzPort s1 p).replayed < 8) :
    exec (.linkNakRx p q) s =
      .next (foldS (fun (f : LinkFrame) s => emit (.akz p (hdType f.item.header) f.seq (linkFrame f.item)) s) (akzPort s1 p).replay
        (akzStat 3 (akzPort s1 p).replay.length (modAkzPort p (fun x => { x with replayed := x.replayed + 1 }) s1))) := by
  subst e1
  simp only [exec_linkNakRx, execLinkNakRx, if_neg (akz_not_ignored lt up), head, ne_eq, not_true_eq_false, if_false, if_neg (Nat.not_le.mpr left)]

end

/-! ### Membership (R415 to R418) -/

/-- A HELLO tells the member's number and serial, MASTER_OK with its own word for itself, MEMBERS, and what is reached through it (R416). -/
theorem helloTx_tells {own : Nat} (e : own = (if s.akz.joined then 2 ^ s.akz.member else 0)) :
    exec (.helloTx p) s = .next (sendControl p 1 0 (leBytes 1 s.akz.member ++ leBytes 8 serial64 ++
      leBytes 1 ((s.akz.masterOk &&& (255 - own)) ||| (if wbit (reg s .AKZ_CFG 0 0) 3 then own else 0)) ++ leBytes 1 s.akz.members ++
      leBytes 1 (own ||| (akzPort s (1 - p)).reach)) s) := by
  subst e
  rw [exec_helloTx, execHelloTx, if_neg (akz_not_ignored lt up)]

/-- The HELLO of a neighbour that has joined renews the neighbour, and carries the members' serials and their word for the master (R415, R416). -/
theorem helloRx_joined {h : Hello} {s2 : State} (joined : h.joined = true)
    (e2 : s2 = tryJoin (some h.lowSerial) (modAkzPort p (fun x => { x with
      nbJoined := true, nbMember := h.member % 8, nbSerial := h.serial, reach := h.reach % 256, headSerial := h.headSerial,
      helloAt := s.elapsed }) s)) :
    exec (.helloRx p h) s = .next (judgeChain (modAkz (fun a => { a with
      masterOk := (a.masterOk &&& (255 - h.reach % 256)) ||| (h.masterOk &&& (h.reach % 256)),
      members := a.members ||| (if a.joined then h.reach % 256 ||| (if s.akz.joined then 0 else h.members % 256) else 0),
      serials := mput a.serials (h.member % 8) h.serial }) s2)) := by
  subst e2
  simp only [exec_helloRx, execHelloRx, if_neg (akz_not_ignored lt up), joined, if_true]

/-- Without a HELLO for 4 intervals the neighbour is lost, and what is reached through it (R416). -/
theorem helloTimeout_loses :
    exec (.helloTimeout p) s =
      .next (judgeChain (modAkzPort p (fun x => { x with reach := 0, nbJoined := false }) (advanceTo ((akzPort s p).helloAt + 400000) s))) := by
  rw [exec_helloTimeout, execHelloTimeout, if_neg (akz_not_ignored lt up)]

end

/-- The master as R417 has it: the lowest-numbered reachable member with MASTER_OK set, this device's own being its register's. -/
def masterNow (s : State) : Option Nat :=
  if s.akz.joined then (maskBits s.akz.reachable).find? (bitOf ((s.akz.masterOk &&& (255 - 2 ^ s.akz.member)) |||
    (if wbit (reg s .AKZ_CFG 0 0) 3 then 2 ^ s.akz.member else 0))) else none

/-- A new master is recorded, with its event; the one there was leaves the state as it is. -/
theorem masterChange_judges (s : State) :
    exec .masterChange s = .next (if masterNow s = s.akz.master then s
      else akzEvent 0x05 ((masterNow s).getD s.akz.member) (modAkz (fun a => { a with master := masterNow s }) s)) := by
  rw [exec_masterChange]
  exact (apply_ite Host.Outcome.next ..).symm

/-- An event leaves the cascade's record. -/
@[simp] theorem akzEvent_akz (code detail : Nat) (s : State) : (akzEvent code detail s).akz = s.akz := by
  simp [akzEvent]

/-- The member that FORGET names. -/
theorem fld_at31 (m : Nat) (h : m < 8) : fld (w32 (m % 8 + at_ 31 1)) 2 0 = m := by
  unfold fld bits w32 at_
  simp only [BitVec.toNat_ofNat]
  omega

/-- A write of AKZ_CTRL with its bit 31 set is FORGET of the member that it names (R427). -/
theorem regStore_akzCtrl (p : Path) (v : Word) (s : State) :
    regStore p 0 .AKZ_CTRL 0 v s = if wbit v 31 then akzForget p (fld v 2 0) s else s := rfl

/-- FORGET, by a path that reaches AKZ_CTRL. -/
theorem forget_acts {p : Path} {off m : Nat} {s : State} (e : regBar p .AKZ_CTRL 0 = some off) (a : actsAt p off s = true) (lt : m < 8) :
    exec (.forget p m) s = .next (akzForget (asPath p) m (atWork p off s)) := by
  rw [exec_forget, execForget, writeOf_acts _ (by decide) e a, regStore_akzCtrl, if_pos (wbit_at31 m), fld_at31 m lt]

/-- The state without a member in MEMBERS. -/
def withoutMember (m : Nat) (s : State) : State :=
  modAkz (fun a => { a with members := a.members &&& (255 - 2 ^ m), serials := mdel a.serials m }) s

/-- Does a device of a chain reach every member (R418)? -/
def reachesAll (s : State) : Bool := s.akz.joined && (maskBits s.akz.members).all (fun k => bitOf (reachNow s) k)

/-- A lost member is removed; where a broken chain now reaches every member, it is whole again (R418). -/
theorem akzForget_removes {p : Path} {m : Nat} {s : State} (w : mayWrite s p .AKZ_CTRL = true) (lt : m < 8) (lost : bitOf (reachNow s) m = false)
    (member : bitOf s.akz.members m = true) :
    akzForget p m s = if reachesAll (withoutMember m s) ∧ !s.akz.whole then
        akzEvent 0x07 m (modAkz (fun a => { a with whole := true }) (withoutMember m s))
      else withoutMember m s := by
  rw [akzForget, if_neg (by simp [w, lt, lost, member])]
  rfl

/-! ### Time along the chain (R423, R424, R50, R51) -/

/-- The body of a time frame on a port (R423): its moment, number and echo, then the servo, UTC, the bound and the path from the master. -/
def timeFrame (s : State) (p : Nat) : Bytes :=
  leBytes 8 (nowFrac s / 0x10000) ++ leBytes 2 (nowFrac s % 0x10000) ++ leBytes 2 (akzPort s p).timeSeq ++
    leBytes 2 ((akzPort s p).timeRx.getD (0, 0)).1 ++ [0, 0] ++
    leBytes 8 (((akzPort s p).timeRx.getD (0, 0)).2 / 0x10000) ++ leBytes 2 (((akzPort s p).timeRx.getD (0, 0)).2 % 0x10000) ++
    leBytes 1 s.tim.servo.code ++ leBytes 1 (b2n s.tim.utcValid + 2 * b2n s.tim.leap.isSome) ++ leBytes 4 (bound32 s) ++
    leBytes 2 (unsigned 16 s.tim.utcOffset) ++ leBytes 1 (if isAkz s.tim.refId then (slotOf s s.tim.refId).hops else 0) ++
    leBytes 1 (2 ^ s.akz.member ||| (if isAkz s.tim.refId then (slotOf s s.tim.refId).path else 0)) ++ leBytes 8 (s.tim.traceNext - 1) ++
    leBytes 8 ((s.tim.leap.map Leap.at_).getD 0) ++ leBytes 2 ((s.tim.leap.map (fun l => unsigned 16 l.offset)).getD 0) ++ List.replicate 10 0

@[simp] theorem leBytes_length (n v : Nat) : (leBytes n v).length = n := by
  induction n generalizing v with
  | zero => rfl
  | succ n ih => rw [leBytes, List.length_cons, ih]

theorem timeFrame_length (s : State) (p : Nat) : (timeFrame s p).length = 64 := by
  simp [timeFrame]

/-- It begins with the moment at which it leaves and its number. -/
theorem timeFrame_take (s : State) (p : Nat) :
    (timeFrame s p).take 12 = leBytes 8 (nowFrac s / 0x10000) ++ leBytes 2 (nowFrac s % 0x10000) ++ leBytes 2 (akzPort s p).timeSeq := by
  simp [timeFrame, List.take_append, List.take_of_length_le]

/-- A time frame that finds no room is skipped (assumption 102). -/
theorem timeFrameTx_skips {p : Nat} {s : State} (full : controlRoom s p 2 (controlItem s 2 0 (List.replicate 64 0)) = false) :
    exec (.timeFrameTx p) s = .next s := by
  rw [exec_timeFrameTx, execTimeFrameTx, if_pos (.inr (.inr (by rw [full]; rfl)))]

/-- One that leaves is numbered, and its moment is kept for the echo (R423). -/
theorem timeFrameTx_sends {p : Nat} {s : State} (lt : p < 2) (joined : s.akz.joined = true)
    (room : controlRoom s p 2 (controlItem s 2 0 (List.replicate 64 0)) = true) :
    exec (.timeFrameTx p) s = .next (modAkzPort p (fun x => { x with
      timeSeq := (x.timeSeq + 1) % 65536, timeSent := ((x.timeSeq, nowFrac s, s.elapsed) :: x.timeSent).take 8 })
        (sendControl p 2 0 (timeFrame s p) s)) := by
  rw [exec_timeFrameTx, execTimeFrameTx, joined, room, if_neg (by simp [lt])]
  rfl

section
variable {p : Nat} {b : Bytes} {s s1 : State} (lt : p < 2) (up : (akzPort s p).up = true)
  (e1 : s1 = modAkzPort p (fun x => { x with timeRx := some (leAt b 10 2, nowFrac s) }) s)
include lt up e1

/-- A time frame whose echo names no frame that is still kept is noted alone (R424). -/
theorem timeFrameRx_notes (unknown : (akzPort s p).timeSent.find? (fun e => e.1 == leAt b 12 2 && decide (s.elapsed ≤ e.2.2 + 4000000)) = none) :
    exec (.timeFrameRx p b) s = .next s1 := by
  subst e1
  simp only [exec_timeFrameRx, execTimeFrameRx, if_neg (akz_not_ignored lt up), unknown]

/-- One of a neighbour that is locked, with a known bound and a path that does not pass this device, is a measurement of its slot (R424). -/
theorem timeFrameRx_measures {e : Nat × Nat × Nat} {th : Int × Int}
    (sent : (akzPort s p).timeSent.find? (fun e => e.1 == leAt b 12 2 && decide (s.elapsed ≤ e.2.2 + 4000000)) = some e)
    (enabled : (slotOf s (0x13 + p)).st ≠ .disabled) (locked : 2 ≤ byteAt b 26) (bound : leAt b 28 4 ≠ 0xFFFFFFFF)
    (away : bitOf (byteAt b 35) s.akz.member = false)
    (et : th = ptpTheta s (0x13 + p)
      { t1 := leAt b 0 8 * 0x10000 + leAt b 8 2, t2 := nowFrac s, t3 := e.2.1, t4 := leAt b 16 8 * 0x10000 + leAt b 24 2 }) :
    exec (.timeFrameRx p b) s = .next (akzUtc (0x13 + p) b (measure (0x13 + p) th.1
      { mpd := th.2.natAbs, interval := firstInterval (0x13 + p), neighbour := leAt b 28 4 * nsUnits, sourceId := (akzPort s p).nbSerial,
        hops := byteAt b 34 + 1, upstreamSeq := leAt b 36 8 }
      (modSlot (0x13 + p) (fun r => { r with path := byteAt b 35 }) s1))) := by
  subst e1 et
  have usable : ¬ ((slotOf s (0x13 + p)).st = .disabled ∨ byteAt b 26 < 2 ∨ leAt b 28 4 = 0xFFFFFFFF ∨ bitOf (byteAt b 35) s.akz.member) := by
    simp [enabled, Nat.not_lt.mpr locked, bound, away]
  simp only [exec_timeFrameRx, execTimeFrameRx, if_neg (akz_not_ignored lt up), sent]
  exact if_neg usable

end

/-! ### Images (R425, R426) -/

/-- A request of the DOWN neighbour is answered with the active image, in the modes of R425. -/
theorem bootReq_answers {s : State} (mode : s.cai.mode = .service ∨ s.cai.mode = .spared ∨ s.cai.mode = .isolated) (up : (akzPort s 1).up = true)
    (image : s.lcs.running ≠ []) :
    exec (.bootReq true) s = .next (akzPump 1 (modAkzPort 1 (fun x => { x with imgOut := s.lcs.running, imgOff := 0 }) s)) := by
  have answers : (akzPort s 1).up ∧ !s.lcs.running.isEmpty := by simp [up, image]
  rcases mode with mode | mode | mode <;> simp only [exec_bootReq, execBootReq, mode, if_true, if_pos answers]

/-- A device that waits for its neighbour's image asks for it on the UP port. -/
theorem bootReq_asks {s : State} (strap : bitOf s.cai.straps.toNat 5 = true) (waits : (s.cai.bringup.map Bringup.waitUntil).getD none ≠ none) :
    exec (.bootReq false) s = .next (sendControl 0 5 0 (leBytes 1 0) s) := by
  rw [exec_bootReq, execBootReq, if_neg (by decide), if_pos ⟨strap, waits⟩]

/-- The result of staging goes towards the master, where there is one (R426). -/
def reportStaged (s : State) (r : Nat × State) : State :=
  match s.akz.master with
  | some m => sendTo m (leBytes 1 1 ++ leBytes 1 s.akz.member ++ leBytes 1 r.1) r.2
  | none => r.2

/-- A device of a whole chain takes a piece that begins an image or continues it. -/
theorem image_not_ignored {b : Bytes} {s : State} (up : (akzPort s 0).up = true) (whole : s.akz.whole = true)
    (next_ : leAt b 0 4 = 0 ∨ leAt b 0 4 = s.akz.imgGot.length) (booting : Bool) :
    ¬ (!(akzPort s 0).up ∨ (!booting ∧ !s.akz.whole) ∨ (leAt b 0 4 ≠ 0 ∧ leAt b 0 4 ≠ s.akz.imgGot.length)) := by
  rw [← not_or]
  simp [up, whole, next_]

section
variable {b got : Bytes} {s s1 : State} (up : (akzPort s 0).up = true) (whole : s.akz.whole = true)
  (next_ : leAt b 0 4 = 0 ∨ leAt b 0 4 = s.akz.imgGot.length) (eg : got = (if leAt b 0 4 = 0 then [] else s.akz.imgGot) ++ b.drop 56)
  (e1 : s1 = modAkz (fun a => { a with imgLen := leAt b 4 4, imgHash := slice b 8 48, imgGot := got })
    (modCai (fun c => { c with bringup := c.bringup.map (fun b => { b with waitUntil := none }) }) s))
include up whole next_ eg e1

/-- A piece that leaves the image short is kept. -/
theorem imageFrame_gathers (short : got.length < leAt b 4 4) : exec (.imageFrame b) s = .next s1 := by
  subst eg e1
  rw [exec_imageFrame, execImageFrame, if_neg (image_not_ignored up whole next_ _)]
  exact if_pos short

/-- The piece that completes an image with the right hash has it staged, and the result reported. -/
theorem imageFrame_stages (mode : s.cai.mode ≠ .bringup) (full : leAt b 4 4 ≤ got.length) (hash : (sha384 got == slice b 8 48) = true)
    {r : Nat × State} (er : r = stageImage got (modAkz (fun a => { a with imgGot := [] }) s1)) :
    exec (.imageFrame b) s = .next (reportStaged s r) := by
  have notBooting : (s.cai.mode == .bringup) = false := beq_eq_false_iff_ne.mpr mode
  subst er e1
  rw [exec_imageFrame, execImageFrame, if_neg (image_not_ignored up whole next_ _)]
  simp only [← eg, if_neg (Nat.not_lt.mpr full), notBooting, hash, Bool.false_and, Bool.false_eq_true, if_false, if_true]
  rfl

end

/-- A member's result is taken by the master. -/
theorem imageResult_taken {s : State} (m : isMaster s = true) (member st : Nat) :
    exec (.imageResult member st) s = .next (takeResult (member % 8) (st % 256) s) := by
  rw [exec_imageResult, execImageResult, if_pos m]

/-- Another member passes it on towards the master. -/
theorem imageResult_passed {s : State} {k : Nat} (m : isMaster s = false) (master : s.akz.master = some k) (member st : Nat) :
    exec (.imageResult member st) s = .next (sendTo k (leBytes 1 1 ++ leBytes 1 member ++ leBytes 1 st) s) := by
  simp only [exec_imageResult, execImageResult, m, Bool.false_eq_true, if_false, master]

/-! ### The obligation -/

/-- Settles O50, clause by clause, by the equations above. -/
theorem akzalCascade : Obligations.AkzalCascade := by
  refine ⟨fun _ _ _ _ lt down run e1 e2 => akzPortUp_grants lt down run e1 e2, fun _ _ => ⟨fun lt => if_pos lt, rfl, rfl⟩, ?link,
    fun _ _ _ _ lt up e1 head => ⟨linkNakRx_gives_up lt up e1 head, linkNakRx_replays lt up e1 head⟩,
    fun _ _ _ lt up e => helloTx_tells lt up e, fun _ _ _ _ lt up joined e2 => helloRx_joined lt up joined e2,
    fun _ _ lt up => helloTimeout_loses lt up, ?master, ?forget, ?timeTx,
    fun _ _ _ _ lt up e1 => ⟨timeFrameRx_notes lt up e1, fun _ _ sent enabled locked bound away et =>
      timeFrameRx_measures lt up e1 sent enabled locked bound away et⟩,
    fun _ => ⟨bootReq_answers, bootReq_asks⟩, ?image,
    fun member st _ => ⟨fun m => imageResult_taken m member st, fun _ m master => imageResult_passed m master member st⟩⟩
  case link =>
    intro p q c n ok s lt up
    refine ⟨?_, linkFrameRx_refuses lt up, linkFrameRx_ack lt up q, fun cls => linkFrameRx_credit lt up cls n⟩
    rintro rfl next_
    exact linkFrameRx_acknowledges lt up next_
  case master =>
    intro m s em
    have judged := masterChange_judges s
    rw [show masterNow s = m from em.symm] at judged
    refine ⟨fun same => judged.trans (congrArg _ (if_pos same)), fun new => ⟨_, judged.trans (congrArg _ (if_neg new)), ?_, rfl⟩⟩
    rw [akzEvent_akz]
    rfl
  case forget =>
    rintro p _ off m s0 _ s1 rfl e a rfl w lt lost member e1
    rw [forget_acts e a lt, akzForget_removes w lt lost member, ← show s1 = withoutMember m _ from e1]
    refine ⟨fun kept => congrArg _ (if_neg ?_), fun broken joined all_ => congrArg _ (if_pos ?_)⟩
    · rcases kept with whole | alone | gap
      · simp [whole]
      · simp [reachesAll, alone]
      · simp [reachesAll, gap]
    · simp only [reachesAll, joined, all_, broken, Bool.and_self, Bool.not_false, and_self]
  case timeTx =>
    exact fun p s lt joined => ⟨timeFrameTx_skips, fun room =>
      ⟨timeFrame s p, timeFrameTx_sends lt joined room, timeFrame_length s p, timeFrame_take s p⟩⟩
  case image =>
    intro b got s s1 up whole next_ mode eg e1
    refine ⟨imageFrame_gathers up whole next_ eg e1, fun r full none_ hash er => ?_, fun r m full master hash er => ?_⟩
    · rw [imageFrame_stages up whole next_ eg e1 mode full hash er, reportStaged, none_]
    · rw [imageFrame_stages up whole next_ eg e1 mode full hash er, reportStaged, master]

end Sys2Proof.Machine
end

section
/-!
SUPPORT. Device memory stays in its canonical form (R108, R374, R390): every write of it is `devWrite`, and every loss of it (a stop without
power, a reset, a zeroisation) lists nothing. The frames of Laws/ say which operations leave it alone; the lemmas here follow the others up to the
commands, along the branches of their definitions, and settle O9.
-/
namespace Sys2Proof.Machine

/-! ### The invariant and the frames -/

/-- Device memory is in its canonical form. -/
def DevWf (s : State) : Prop := NMapWf (fun _ => (0 : Byte)) s.dev

/-- The invariant, told of the state with every part cleared but device memory (`forget`, 2^26 - 1 - 2^23), so that the frame of an operation
that does not write device memory removes the operation from it. -/
@[simp] abbrev DevOk (s : State) : Prop := DevWf (forget 58720255 s)

theorem devOk_iff (s : State) : DevOk s ↔ NMapWf (fun _ => (0 : Byte)) s.dev := Iff.rfl

theorem nil_wf : NMapWf (fun _ => (0 : Byte)) [] := ⟨.nil, fun _ h => nomatch h⟩

@[simp] theorem devWf_ite (c : Prop) [Decidable c] (a b : State) : DevWf (if c then a else b) ↔ (c → DevWf a) ∧ (¬c → DevWf b) := by
  split <;> simp [*]

/-- The LCS record is no part of device memory, whatever becomes of its fuses. -/
@[simp] theorem forget_modLcs_dev (g : Lcs → Lcs) (s : State) : forget 58720255 (modLcs g s) = forget 58720255 s :=
  modLcs_frame_all _ rfl g s

/-- What leaves device memory alone keeps the invariant. -/
theorem devOk_of_frame {s t : State} (h : forget 58720255 t = forget 58720255 s) (w : DevOk s) : DevOk t := by
  rw [DevOk, h]
  exact w

theorem devOk_getD {o : Option State} {d : State} (h : ∀ t, o = some t → DevOk t) (w : DevOk d) : DevOk (o.getD d) := by
  cases o with
  | none => exact w
  | some t => exact h t rfl

theorem devOk_foldS {α : Type} {f : α → State → State} (h : ∀ a t, DevOk t → DevOk (f a t)) :
    ∀ {l : List α} {s : State}, DevOk s → DevOk (foldS f l s)
  | [], _, w => w
  | a :: l, s, w => devOk_foldS h (l := l) (h a s w)

/-- The invariant in the next state of an outcome. -/
def DevOkO : Outcome → Prop
  | .next t => DevOk t
  | _ => True

theorem DevOkO.next {t : State} (w : DevOk t) : DevOkO (.next t) := w

@[simp] theorem devOkO_next (t : State) : DevOkO (.next t) ↔ DevWf (forget 58720255 t) := Iff.rfl

@[simp] theorem devOkO_ite (c : Prop) [Decidable c] (a b : Outcome) : DevOkO (if c then a else b) ↔ (c → DevOkO a) ∧ (¬c → DevOkO b) := by
  split <;> simp [*]

theorem devOkO_of_frame {s : State} {o : Outcome} (h : forgetO 58720255 s o = forget 58720255 s) (w : DevOk s) : DevOkO o := by
  cases o with
  | next t => exact devOk_of_frame h w
  | _ => trivial

section
variable {s : State} (w : DevOk s)
include w

/-! ### Writes and losses of device memory (R73, R108, R374, R390, R450, R469) -/

@[simp] theorem devWrite_devOk (a : Nat) (bs : Bytes) : DevOk (devWrite a bs s) := foldl_mset_wf a _ _ w

@[simp] theorem stopFast_devOk : DevOk (stopFast s) := by
  have e : (halfDown 0 (halfDown 1 s)).dev = s.dev :=
    (dev_of_frame (halfDown_frame 3794748 rfl 0 _) rfl).trans (dev_of_frame (halfDown_frame 3794748 rfl 1 _) rfl)
  change NMapWf _ (if _ then (halfDown 0 (halfDown 1 s)).dev else [])
  rw [e]
  split
  · exact w
  · exact nil_wf

@[simp] theorem restartReset_devOk : DevOk (restartReset s) := by
  change NMapWf _ (if _ then s.dev else [])
  split
  · exact w
  · exact nil_wf

omit w in
@[simp] theorem powerReset_devOk : DevOk (powerReset s) := nil_wf

omit w in
@[simp] theorem railsRemoved_devOk : DevOk (railsRemoved s) := by
  unfold railsRemoved
  dsimp only
  split <;> exact nil_wf

omit w in
@[simp] theorem zeroise_devOk : DevOk (zeroise s) := by
  have e : (zeroise s).dev = [] :=
    (dev_of_frame (lcsEvent_frame 58720255 rfl _ _ _) rfl).trans ((dev_of_frame (closeDebug_frame 58720255 rfl _) rfl).trans
      (dev_of_frame (zeroRegions_frame 58720255 rfl _) rfl))
  exact (devOk_iff _).mpr (e ▸ nil_wf)

/-! ### Stops and restarts (R73, R95 to R97, R443) -/

@[simp] theorem fatalCheck_devOk (kind index : Nat) : DevOk (fatalCheck kind index s) := by simp [fatalCheck, w]

@[simp] theorem faultStop_devOk : DevOk (faultStop s) := by
  unfold faultStop faultMode
  split <;> simp [w]

theorem restartDevice_devOk {t : State} (e : restartDevice s = some t) : DevOk t := by
  unfold restartDevice at e
  dsimp only at e
  split at e
  · cases e
    split <;> simp [w]
  · cases e; simp [w]
  · cases e; simp [w]
  · cases e; simp [w]
  · cases e

@[simp] theorem modeRequest_devOk (p : Path) (request : Nat) : DevOk (modeRequest p request s) := by
  unfold modeRequest
  split
  · exact w
  · split
    · simp [w]
    · simp [w]
    · simp [w]
    · exact devOk_getD (fun _ e => restartDevice_devOk w e) (by simp [w])
    · exact w

/-! ### Counted faults (R434 to R443) -/

@[simp] theorem lastingCopy_devOk (kind index value : Nat) : DevOk (lastingCopy kind index value s) := by simp [lastingCopy, w]

@[simp] theorem lastingRow_devOk (kind index row value : Nat) : DevOk (lastingRow kind index row value s) := by
  unfold lastingRow
  dsimp only
  split
  · simp [w]
  · split
    · simp [w]
    · split
      · next t e =>
        have wt : DevOk t := devOk_of_frame (takePage_frame _ rfl _ _ e) (by simp [w])
        simp [wt]
      · simp [w]

@[simp] theorem countFault_devOk (kind index row : Nat) (recheck : Bool) : DevOk (countFault kind index row recheck s) := by
  simp [countFault, countUnit, countRow, w]

@[simp] theorem loadFails_devOk (p : Nat) : DevOk (loadFails p s) := by
  unfold loadFails
  split <;> simp [w]

/-! ### The mover (R372, R376, R377) -/

theorem withRead_devOk {f : Fn} {addr : Nat} {got : HostRead} {k : State → State} (h : ∀ t, DevOk t → DevOk (k t)) :
    DevOk (withRead f addr got k s) := by
  unfold withRead
  split
  · next t e => exact h t (devOk_of_frame (operandRead_frame _ rfl _ _ _ _ _ e) w)
  · exact w

theorem mvReads_devOk {j : Job} {k off : Nat} {n : Option Nat} {host : HostRead} {next : State → State}
    (h : ∀ t, DevOk t → DevOk (next t)) : DevOk (mvReads j k off n host next s) := by
  unfold mvReads
  split
  · exact h s w
  · exact withRead_devOk w h

@[simp] theorem mvWritePiece_devOk (j : Job) (i off : Nat) (bs : Bytes) : DevOk (mvWritePiece j i off bs s).2 := by
  unfold mvWritePiece
  dsimp only
  split
  · split
    · exact w
    · simp [w]
  · simp [w]

omit w in
@[simp] theorem mvAdvance_devOk (ch : Nat) (j : Job) (ps : List (Option (Nat × Bytes))) (n : Nat) :
    ∀ {s : State} (_ : DevOk s) (i : Nat), DevOk (mvAdvance ch j ps n i s) := by
  induction n with
  | zero =>
    intro s w i
    simp [mvAdvance, w]
  | succ n ih =>
    intro s w i
    unfold mvAdvance
    dsimp only
    split
    · simp [w]
    · split
      · simp [w]
      · split
        · simp [w]
        · split
          · simp [w]
          · split
            · split
              · simp [w]
              · exact ih (mvWritePiece_devOk w ..) _
            · simp [w]

/-- A running channel's work: its pieces are written once its index table and its source are read. -/
@[simp] theorem mvWork_devOk (op ch n : Nat) (src idx : HostRead) : DevOk (mvWork op ch n src idx s) := by
  unfold mvWork
  dsimp only
  split
  · exact w
  · split
    · exact w
    · split
      · simp [w]
      · refine mvReads_devOk w fun t wt => ?_
        split
        · simp [wt]
        · refine mvReads_devOk wt fun u wu => ?_
          split <;> simp [wu]

/-! ### Starts and boot (R79, R80, R98, R108 to R111) -/

@[simp] theorem startFails_devOk (u : DUnit) : DevOk (startFails u s) := by
  unfold startFails
  dsimp only
  split
  · split <;> simp [w]
  · split <;> simp [w]

@[simp] theorem endStart_devOk (u : DUnit) (passed : Bool) : DevOk (endStart u passed s) := by simp [endStart, w]

@[simp] theorem startImage_devOk (slot : Nat) (bs : Bytes) : DevOk (startImage slot bs s) := by
  unfold startImage
  dsimp only
  split <;> simp [w]

@[simp] theorem bootRecovery_devOk : DevOk (bootRecovery s) := by
  unfold bootRecovery
  dsimp only
  split <;> simp [w]

@[simp] theorem bootInto_devOk (b : Nat) (bs : Bytes) : DevOk (bootInto b bs s) := by simp [bootInto, w]

@[simp] theorem bootBanks_devOk : DevOk (bootBanks s) := by
  unfold bootBanks
  dsimp only
  split <;> simp [w]

@[simp] theorem bootNeighbour_devOk (bs : Bytes) : DevOk (bootNeighbour bs s) := by simp [bootNeighbour, w]

/-- Steps 1 to 7 of BRINGUP: the keys, after a zeroisation that was pending, then the domains, then the source of the image. -/
@[simp] theorem bootSteps_devOk (boot : BootInput) : DevOk (bootSteps boot s) := by
  unfold bootSteps
  extract_lets s0 s1 test s2 s3 wait
  have w1 : DevOk s1 := by simp [s1, s0, w]
  have w3 : DevOk s3 := by simp [s3, s2, w1]
  clear_value s3 s1
  split
  · simp [w1]
  · split
    · simp [w1]
    · split
      · simp [w3]
      · split
        · split <;> simp [w3]
        · simp [w3]

theorem execBringupStart_devOk (boot : BootInput) : DevOkO (execBringupStart boot s) := by
  unfold execBringupStart
  split <;> simp [w]

theorem execBootWaitExpiry_devOk : DevOkO (execBootWaitExpiry s) := by
  unfold execBootWaitExpiry
  split
  · split <;> simp [w]
  · simp [w]

/-! ### Images staged and switched (R426, R450, R454, R458 to R464) -/

@[simp] theorem stageImage_devOk (bs : Bytes) : DevOk (stageImage bs s).2 := by
  unfold stageImage
  dsimp only
  split
  · exact w
  · split
    · simp [w]
    · split <;> simp [w]

theorem execImageFrame_devOk (body : Bytes) : DevOkO (execImageFrame body s) := by
  unfold execImageFrame
  extract_lets off booting got s1 s2 ok r
  have w1 : DevOk s1 := by simp [s1, w]
  have w2 : DevOk s2 := by simp [s2, w1]
  have wr : DevOk r.2 := by
    dsimp only [r]
    split <;> simp [w2]
  clear_value r s2 s1
  split
  · exact .next w
  · split
    · exact .next w1
    · split
      · simp [w2]
      · split <;> simp [wr]

theorem execMbxStage_devOk (f : Fn) (addr len : Nat) (image : HostRead) : DevOkO (execMbxStage f addr len image s) := by
  unfold execMbxStage
  split
  · exact .next w
  · split
    · simp [w]
    · refine .next (withRead_devOk w fun t wt => ?_)
      split <;> simp [wt]

theorem execFirmwareDataReceived_devOk (data : Bytes) : DevOkO (execFirmwareDataReceived data s) := by
  unfold execFirmwareDataReceived
  extract_lets s1 s2 r s3
  have w2 : DevOk s2 := by simp [s2, s1, w]
  have wr : DevOk r.2 := by
    dsimp only [r]
    split <;> simp [w2]
  have w3 : DevOk s3 := by simp [s3, wr]
  clear_value s3 r s2
  split
  · exact .next w
  · split
    · simp [s1, w]
    · split <;> simp [w3]

@[simp] theorem switchThreads_devOk (bank : Nat) (bs : Bytes) : DevOk (switchThreads bank bs s) := by simp [switchThreads, w]

theorem enterSwitch_devOk {rollback fromMaster : Bool} {t : State} (e : enterSwitch rollback fromMaster s = some t) : DevOk t := by
  unfold enterSwitch at e
  dsimp only at e
  split at e
  · split at e
    · cases e
    · cases e; simp [w]
  · split at e
    · cases e
    · cases e; simp [w]
  · cases e

@[simp] theorem chainNext_devOk : DevOk (chainNext s) := by
  unfold chainNext
  split
  · exact w
  · split
    · simp [w]
    · split
      · exact devOk_getD (fun _ e => enterSwitch_devOk w e) (by simp [w])
      · simp [w]

@[simp] theorem rollback_devOk (p : Path) : DevOk (rollback p s) := by
  unfold rollback
  split <;> simp [w]

@[simp] theorem activate_devOk (p : Path) : DevOk (activate p s) := by
  unfold activate
  split <;> simp [w]

theorem restarted_devOk : DevOk ((restartDevice s).getD s) := devOk_getD (fun _ e => restartDevice_devOk w e) w

@[simp] theorem transition_devOk (t : Bytes) : DevOk (transition t s) := by
  unfold transition
  dsimp only
  split
  · exact restarted_devOk (by simp [w])
  · split
    · exact restarted_devOk (by simp [w])
    · simp [w]

@[simp] theorem tokenSubmit_devOk (p : Path) : DevOk (tokenSubmit p s) := by simp [tokenSubmit, w]

theorem execSwitchedReply_devOk (member : Nat) (reverted : Bool) : DevOkO (execSwitchedReply member reverted s) := by
  unfold execSwitchedReply
  split <;> simp [w]

theorem execActivateFirmware_devOk : DevOkO (execActivateFirmware s) := by
  unfold execActivateFirmware
  split
  · exact .next w
  · split <;> simp [w]

theorem execMemberSwitch_devOk (rollback : Bool) : DevOkO (execMemberSwitch rollback s) := by
  unfold execMemberSwitch
  split
  · exact .next w
  · split
    · next e => exact .next (enterSwitch_devOk w e)
    · split <;> simp [w]

/-! ### Register writes (R7, R15, R454, R470) -/

@[simp] theorem caiWrite_devOk (p : Path) (r : Reg) (i : Nat) (v : Word) : DevOk (caiWrite p r i v s) := by
  unfold caiWrite
  split <;> simp [w]

@[simp] theorem regStore_devOk (p : Path) (t : Nat) (r : Reg) (i : Nat) (v : Word) : DevOk (regStore p t r i v s) := by
  unfold regStore
  split
  case h_14 => split <;> simp [w]
  all_goals simp [w]

@[simp] theorem writeWindow_devOk (p : Path) (t off : Nat) (v : Word) : DevOk (writeWindow p t off v s) := by
  unfold writeWindow
  split
  · simp [w]
  · split <;> simp [w]

@[simp] theorem writeFn_devOk (f : Fn) (off : Nat) (v : Word) : DevOk (writeFn f off v s) := by
  unfold writeFn
  (repeat' split) <;> simp [w]

@[simp] theorem writeBlock_devOk (p : Path) (t off : Nat) (v : Word) : DevOk (writeBlock p t off v s) := by
  unfold writeBlock
  split <;> simp [w]

@[simp] theorem writeBlockWide_devOk (p : Path) (off : Nat) (v : BitVec 64) : DevOk (writeBlockWide p off v s) := by
  unfold writeBlockWide
  split
  · split <;> simp [w]
  · exact w

@[simp] theorem completeAccess_devOk (h : HeldAccess) : DevOk (completeAccess h s) := by
  unfold completeAccess
  dsimp only
  split <;> simp [w]

@[simp] theorem releaseHolds_devOk : DevOk (releaseHolds s) :=
  devOk_foldS (fun h t wt => by simp [releaseOne, wt]) (by simp [w])

@[simp] theorem access_devOk (h : HeldAccess) : DevOk (access h s) := by simp [access, w]

/-- A switch that ends lets the accesses go that PAUSE held. -/
@[simp] theorem switchEnds_devOk (x : Switch) (reverted : Bool) : DevOk (switchEnds x reverted s) := by
  unfold switchEnds
  dsimp only
  split
  · split <;> simp [w]
  · simp [w]

@[simp] theorem switched_devOk (p : Path) : DevOk (switched p s) := by
  unfold switched
  split <;> simp [w]

theorem execActivateReverted_devOk : DevOkO (execActivateReverted s) := by
  unfold execActivateReverted
  split
  · have ran (b : Nat) (bs : Bytes) (k : Nat) : DevOk (switchThreads b bs (advanceTo k s)) := by simp [w]
    simp [ran]
  · exact .next w

@[simp] theorem fwAction_devOk (p : Path) (a : Nat) : DevOk (fwAction p a s) := by
  unfold fwAction
  split
  · exact w
  · split <;> simp [w]

@[simp] theorem lcsStore_devOk (p : Path) (r : Reg) (i : Nat) (v : Word) : DevOk (lcsStore p r i v s) := by
  unfold lcsStore
  split
  · exact w
  · split <;> simp [w]

@[simp] theorem writeLcs_devOk (p : Path) (off : Nat) (v : Word) : DevOk (writeLcs p off v s) := by
  unfold writeLcs
  split <;> simp [w]

@[simp] theorem accessWrite_devOk (p : Path) (t off : Nat) (v : Word) : DevOk (accessWrite p t off v s) := by simp [accessWrite, w]

@[simp] theorem accessSized_devOk (p : Path) (off size : Nat) (data : Option (BitVec 64)) : DevOk (accessSized p off size data s) := by
  unfold accessSized
  dsimp only
  split
  · simp [w]
  · split
    · split <;> simp [w]
    · simp [w]

@[simp] theorem writeOf_devOk (p : Path) (r : Reg) (i : Nat) (v : Word) : DevOk (writeOf p r i v s) := by
  unfold writeOf
  split <;> simp [w]

/-- An action that a path asks for, by its mailbox or by a write. -/
theorem fwAsk_devOk {act : Path → State → State} (h : ∀ p, DevOk (act p s)) (p : Path) (v : Word) : DevOk (fwAsk p v act s) := by
  unfold fwAsk
  split
  · split
    · exact h _
    · exact w
  · simp [w]

/-! ### Threads (R387, R390) -/

theorem storeMem_devOk {t a n v : Nat} {u : State} (e : storeMem t a n v s = some u) : DevOk u := by
  unfold storeMem at e
  dsimp only at e
  split at e
  · cases e
  · split at e
    · split at e <;> cases e <;> simp [regWrite, w]
    · obtain ⟨x, -, rfl⟩ := Option.map_eq_some_iff.mp e
      simp [w]
    · cases e; simp [w]
    · cases e

@[simp] theorem doStore_devOk (t x size bits_ : Nat) : DevOk (doStore t x size bits_ s) := by
  unfold doStore
  dsimp only
  split
  · simp [w]
  · split
    · simp [w]
    · next e => exact storeMem_devOk (by simp [w]) e

@[simp] theorem doAmo_devOk (t x size bits_ : Nat) : DevOk (doAmo t x size bits_ s) := by
  unfold doAmo
  extract_lets h a b f5 n ok raw
  clear_value h a b f5 n ok raw
  split
  · simp [w]
  · split
    · simp [w]
    · simp [w]
    · split <;> simp [w]

@[simp] theorem ordinary_devOk (t x size bits_ : Nat) : DevOk (ordinary t x size bits_ s) := by
  unfold ordinary
  dsimp only
  (repeat' split) <;> simp [w]

@[simp] theorem issue_devOk (p : Nat → Bool) (core : Nat) : DevOk (issue p core s) := by
  unfold issue
  dsimp only
  (repeat' split) <;> simp [w]

/-! ### The commands that write or lose device memory -/

theorem execCipherDone_devOk (engine : Nat) : DevOkO (execCipherDone engine s) := by
  unfold execCipherDone
  dsimp only
  (repeat' split) <;> simp [w]

theorem execParityError_devOk (engine : Nat) (store : Bool) : DevOkO (execParityError engine store s) := by
  unfold execParityError
  split <;> simp [w]

theorem execLoadDone_devOk (failed : List Nat) : DevOkO (execLoadDone failed s) := by
  unfold execLoadDone
  split
  · exact .next w
  · have gated : DevOk (foldS (fun p t => modDomain (.prsPair p) (fun _ => { since := t.elapsed }) t) s.prs.loadPairs s) :=
      devOk_foldS (fun _ _ wt => by simp [wt]) w
    have handed (u : State) (wu : DevOk u) : DevOk (foldS loadFails failed u) := devOk_foldS (fun p _ wt => loadFails_devOk wt p) wu
    simpa using handed _ (by simpa using gated)

theorem execHandoffDone_devOk (kind : Nat) : DevOkO (execHandoffDone kind s) := by
  unfold execHandoffDone
  split
  · exact .next w
  · dsimp only
    split <;> simp [w]

theorem execScrub_devOk (hbm : Bool) (line index row : Nat) (stored reread : Bytes) (secondCopy : Bool) :
    DevOkO (execScrub hbm line index row stored reread secondCopy s) := by
  unfold execScrub
  split <;> simp [w]

theorem execDrainFinished_devOk : DevOkO (execDrainFinished s) := by
  unfold execDrainFinished
  split <;> simp [w]

theorem execRailFault_devOk (loss : RailLoss) : DevOkO (execRailFault loss s) := by
  unfold execRailFault
  dsimp only
  split <;> simp [w]

theorem execThermalTrip_devOk (sensor : Nat) (reading : Int) : DevOkO (execThermalTrip sensor reading s) := by simp [execThermalTrip, w]

theorem execRailOrder_devOk (rail : Rail) : DevOkO (execRailOrder rail s) := by simp [execRailOrder, w]

theorem execHeldAccess_devOk (p : Path) (off : Nat) (v : Option Word) : DevOkO (execHeldAccess p off v s) := by
  unfold execHeldAccess
  split <;> simp [w]

/-! ### Every command, every step -/

/-- Every command keeps device memory canonical: the commands that write it by the lemmas above, every other by its frame. -/
theorem exec_devOk (i : Instr) : DevOkO (exec i s) := by
  cases i with
  | copy | fill | gather | scatter | interleave | deinterleave | toPlanes | fromPlanes => exact .next (mvWork_devOk w ..)
  | drain | drainStandby | cancel | restartRequest | tokenSubmit | switched => exact .next (writeOf_devOk w ..)
  | activate => exact .next (fwAsk_devOk w (activate_devOk w) ..)
  | rollback => exact .next (fwAsk_devOk w (rollback_devOk w) ..)
  | registerWrite => exact .next (accessWrite_devOk w ..)
  | badAccess => exact .next (accessSized_devOk w ..)
  | heldAccess => exact execHeldAccess_devOk w ..
  | instructionIssue => exact .next (issue_devOk w ..)
  | faultCount => exact .next (countFault_devOk w ..)
  | machineCheckFatal => exact .next (fatalCheck_devOk w ..)
  | handoffDone => exact execHandoffDone_devOk w ..
  | scrub => exact execScrub_devOk w ..
  | laneMismatch => simp [execLaneMismatch, w]
  | cipherDone => exact execCipherDone_devOk w ..
  | parityError => exact execParityError_devOk w ..
  | loadDone => exact execLoadDone_devOk w ..
  | domainStartDone => simp [execDomainStartDone, w]
  | bringupStart => exact execBringupStart_devOk w ..
  | bootWaitExpiry => exact execBootWaitExpiry_devOk w
  | drainFinished => exact execDrainFinished_devOk w
  | imageFrame => exact execImageFrame_devOk w ..
  | mbxStage => exact execMbxStage_devOk w ..
  | firmwareDataReceived => exact execFirmwareDataReceived_devOk w ..
  | switchedReply => exact execSwitchedReply_devOk w ..
  | activateFirmware => exact execActivateFirmware_devOk w
  | activateReverted => exact execActivateReverted_devOk w
  | memberSwitch => exact execMemberSwitch_devOk w ..
  | thermalTrip => exact execThermalTrip_devOk w ..
  | railFault => exact execRailFault_devOk w ..
  | railOrder => exact execRailOrder_devOk w ..
  | porstAssert => simp [execPorstAssert, w]
  | porstDeassert => simp [execPorstDeassert, w]
  | aonRailUp => simp [execAonRailUp, w]
  | aonRailLoss => simp [execAonRailLoss]
  | nvmeCqDoorbell => exact devOkO_of_frame (execNvmeCqDoorbell_frame _ rfl ..) w
  | twait => exact devOkO_of_frame (execTwait_frame _ rfl ..) w
  | _ => exact devOkO_of_frame (by simp) w

theorem step_devOk : DevOkO (step s) := by
  unfold step
  split
  · next i rest _ => exact exec_devOk (s := { s with pending := rest }) w i
  · simp [w]

end

/-- Settles O9: a step is the front command or a tick, and each keeps the form. -/
theorem deviceMemoryCanonical : Obligations.DeviceMemoryCanonical := by
  intro s t w e
  have next := step_devOk w
  rw [e] at next
  exact next

end Sys2Proof.Machine
end

section
/-!
SUPPORT. What a write of CAI_MODE_REQ asks for, in each mode that a request is listed for and in one that lists none, and how a drain ends (R95 to
R97, R105), and the statement O22.
-/
namespace Sys2Proof.Machine

/-! ### A mode that is left or entered (R95) -/

theorem wakePassed_drain (s : State) : (wakePassed s).cai.drain = s.cai.drain := by
  simp only [wakePassed, wakeRequest, setWake]
  split
  · rw [cai_of_frame (setPair64_frame 16 rfl _ _ _ _ _ _) rfl]
    (repeat' split) <;> simp
  · rfl

/-- A mode other than DRAIN that is entered forgets the drain. -/
theorem setMode_drain {m : Mode} {s : State} (new : m ≠ s.cai.mode) (other : m ≠ .drain) : (setMode m s).cai.drain = none := by
  simp only [setMode, if_neg new, if_neg other]
  split
  · rfl
  · rw [wakePassed_drain]
    simp

theorem serviceMode_ne_drain (s : State) : serviceMode s ≠ .drain := by
  unfold serviceMode
  split <;> decide

/-! ### Requests (R95 to R97) -/

/-- A write of CAI_MODE_REQ that acts is the request that it names: CAI is never gated. -/
theorem writeOf_modeReq {p : Path} {off : Nat} {s : State} (v : Word) (e : regBar p .CAI_MODE_REQ 0 = some off) (a : actsAt p off s = true) :
    writeOf p .CAI_MODE_REQ 0 v s = modeRequest (asPath p) (fld v 3 0) s :=
  writeOf_cairn v rfl rfl (by decide) e (by decide) a

section
variable {p : Path} {s : State} (may : mayRequest s p = true)
include may

theorem modeRequest_drains {request : Nat} (drain : request = 1 ∨ request = 2) (mode : s.cai.mode = .service ∨ s.cai.mode = .spared) :
    modeRequest p request s =
      modCai (fun c => { c with drain := some { entered := s.elapsed, standby := request == 2 } }) (setMode .drain s) := by
  rcases drain with rfl | rfl <;> simp [modeRequest, may, mode]

/-- In TEST no request is listed: REQ_REFUSED is set (R96). -/
theorem modeRequest_refused {request : Nat} (known : request ∈ [1, 2, 3, 4]) (mode : s.cai.mode = .test) :
    modeRequest p request s = hwSet .CAI_MODE 0 0 13 s := by
  have restart : restartDevice s = none := by rw [restartDevice, mode]
  simp only [List.mem_cons, List.not_mem_nil, or_false] at known
  rcases known with rfl | rfl | rfl | rfl <;> simp [modeRequest, may, mode, restart, refuseRequest]

theorem modeRequest_cancels (mode : s.cai.mode = .drain) : modeRequest p 3 s = setMode (serviceMode s) s := by
  simp [modeRequest, may, mode]

theorem modeRequest_restarts (mode : s.cai.mode = .service ∨ s.cai.mode = .spared ∨ s.cai.mode = .isolated) :
    modeRequest p 4 s = modCai (fun c => { c with resetCause := 5, bringup := some { started := s.elapsed, booted := false } })
      (setMode .bringup (restartReset (stopFast s))) := by
  rcases mode with mode | mode | mode <;> simp [modeRequest, may, restartDevice, mode]

end

/-! ### The end of a drain (R105, R441) -/

theorem drainLimitExpiry_flushes {s : State} {d : DrainSt} (drain : s.cai.drain = some d) (mode : s.cai.mode = .drain) :
    exec .drainLimitExpiry s = .next (drainFlush (advanceTo (d.entered + max 1 (dfld s .CAI_MODE_CFG 31 16) * 1000000) s)) := by
  simp [execDrainLimitExpiry, drain, mode]

theorem drainFinished_stops {s : State} {d : DrainSt} (drain : s.cai.drain = some d) (mode : s.cai.mode = .drain)
    (done : fetchedWork s = false) (standby : d.standby = true) :
    exec .drainFinished s = .next (modRel (fun r => { r with stoppedInOrder := true }) (setMode .standby (stopFast s))) := by
  simp [execDrainFinished, drain, mode, done, standby]

/-! ### The obligation -/

/-- Settles O22, clause by clause. -/
theorem modeRequests : Obligations.ModeRequests := by
  refine ⟨?drains, ?refused, ?cancels, ?restarts, fun _ _ => drainLimitExpiry_flushes, fun _ _ => drainFinished_stops⟩
  case drains =>
    intro p off s e a may mode
    refine ⟨_, _, congrArg Host.Outcome.next ((writeOf_modeReq 1 e a).trans (modeRequest_drains may (.inl rfl) mode)), setMode_mode .drain s, rfl,
      congrArg Host.Outcome.next ((writeOf_modeReq 2 e a).trans (modeRequest_drains may (.inr rfl) mode)), setMode_mode .drain s, rfl⟩
  case refused =>
    intro p off s e a may mode
    have refused (v : Word) (known : fld v 3 0 ∈ [1, 2, 3, 4]) : writeOf p .CAI_MODE_REQ 0 v s = hwSet .CAI_MODE 0 0 13 s :=
      (writeOf_modeReq v e a).trans (modeRequest_refused may known mode)
    exact ⟨congrArg Host.Outcome.next (refused 1 (by decide)), congrArg Host.Outcome.next (refused 2 (by decide)), congrArg Host.Outcome.next (refused 3 (by decide)),
      congrArg Host.Outcome.next (refused 4 (by decide))⟩
  case cancels =>
    intro p off s e a may mode
    refine ⟨_, congrArg Host.Outcome.next ((writeOf_modeReq 3 e a).trans (modeRequest_cancels may mode)), setMode_mode _ s, setMode_drain ?_ (serviceMode_ne_drain s)⟩
    rw [mode]
    exact serviceMode_ne_drain s
  case restarts =>
    exact fun p off s e a may mode => congrArg Host.Outcome.next ((writeOf_modeReq 4 e a).trans (modeRequest_restarts may mode))

end Sys2Proof.Machine
end

section
/-!
SUPPORT. The life of a function: Bus Master Enable, an FLR, VF Enable, power states and the MSI-X table, an equation for each (R100, R122, R130,
R140 to R142, R176), and the statement O23.
-/
namespace Sys2Proof.Machine

/-! ### A function's record -/

theorem fnSt_congr {s t : State} (h : t.hif = s.hif) (f : Fn) : fnSt t f = fnSt s f := by rw [fnSt, fnSt, h]

@[simp] theorem fnSt_raise (b c d : Nat) (sc : Scope) (s : State) (f : Fn) : fnSt (raise b c d sc s) f = fnSt s f := fnSt_congr (by simp) f

@[simp] theorem fnSt_emit (o : Output) (s : State) (f : Fn) : fnSt (emit o s) f = fnSt s f := rfl

/-! ### Bus Master Enable (R140, R142) -/

theorem busMasterDisable_pf {i : Nat} {s : State} (set : wbit (cfgGet s (.pf i) 1) 2 = true) :
    exec (.busMasterDisable (.pf i)) s = .next (raise 0x2 0x07 (fnCode (.pf i)) (.function (.pf i))
      (silence (.pf i) (cfgSet (.pf i) 1 (setFld (cfgGet s (.pf i) 1) 2 2 0) s))) := by
  simp [execBusMasterDisable, busMasterOff, set, isVf, fnPf]

/-- A VF's interface goes to ERROR with it (R153). -/
theorem busMasterDisable_vf {p n : Nat} {s : State} (set : wbit (cfgGet s (.vf p n) 1) 2 = true) :
    exec (.busMasterDisable (.vf p n)) s = .next (raise 0x2 0x07 (fnCode (.vf p n)) (.function (.pf p))
      (silence (.vf p n) (tdiError (.vf p n) (cfgSet (.vf p n) 1 (setFld (cfgGet s (.vf p n) 1) 2 2 0) s)))) := by
  simp [execBusMasterDisable, busMasterOff, set, isVf, fnPf]

/-! ### FLR (R141) -/

/-- The FLR of a VF begins: what it was doing has ended, its moment is recorded, and it is not ready. -/
theorem initiateFlr_vf {p n : Nat} {s : State} (idle : (fnSt s (.vf p n)).flrAt = none) :
    ∃ u, exec (.initiateFlr (.vf p n)) s =
      .next (modFn (.vf p n) (fun r => { r with ready := false }) (modFn (.vf p n) (fun r => { r with flrAt := some s.elapsed }) u)) :=
  ⟨_, congrArg Host.Outcome.next (if_neg (by simp [idle]))⟩

/-- An FLR ends: whatever the reset left, the function is ready, silent only while its interface is in ERROR, and its FRS Message is the last
that leaves. -/
theorem flrDone_ready {f : Fn} {s : State} (flr : (fnSt s f).flrAt.isSome = true) (mode : s.cai.mode ≠ .pause) :
    ∃ u, exec (.flrDone f) s = .next (emit (.frs f frsFlr) (raise 0x2 0x06 (fnCode f) (.function (.pf (fnPf f)))
      (modFn f (fun r => { r with ready := true, flrAt := none, silent := r.tdi.st == .error, awaitQuiesce := false }) u))) :=
  ⟨_, if_neg (by simp [mode, Option.isSome_iff_ne_none.mp flr])⟩

/-! ### VF Enable (R128, R130) -/

theorem vfEnable_readies {pf : Nat} {s : State} (off : vfEnabled s pf = false) (ari : ariCapable s pf = true) (enabled : pfEnabled s pf = true)
    (mode : s.cai.mode = .service ∨ s.cai.mode = .spared) :
    exec (.vfEnable pf) s = .next (emit (.frs (.pf pf) frsVfEnabled)
      (foldS (fun k u => modFn (.vf pf k) (fun r => { r with enabled := true, ready := true }) u)
        (List.range (min (fld (cfgGet s (.pf pf) (0x180 / 4)) 15 0) (totalVfs s pf)))
        (cfgSet (.pf pf) (0x178 / 4) (setFld (cfgGet s (.pf pf) (0x178 / 4)) 0 0 1) s))) := by
  rw [exec_vfEnable, execVfEnable, vfEnable, if_neg]
  rcases mode with mode | mode <;> simp [off, ari, enabled, mode]

theorem vfDisable_resets {pf : Nat} {s : State} (on_ : vfEnabled s pf = true) :
    exec (.vfDisable pf) s = .next (emit (.frs (.pf pf) frsVfDisabled)
      (foldS (fun f u => modFn f (fun r => { r with enabled := false, ready := false, silent := r.tdi.st == .error }) (resetFunction true f (tdiError f u)))
        (vfsOf s pf) (cfgSet (.pf pf) (0x178 / 4) (setFld (cfgGet s (.pf pf) (0x178 / 4)) 0 0 0) s))) := by
  rw [exec_vfDisable, execVfDisable, vfDisable, if_neg (by simp [on_])]

/-! ### Power states (R100, R122) -/

/-- From D3hot to D0 the function has its readiness to come. -/
theorem powerStateChange_d0 {f : Fn} {s : State} (d3 : fld (cfgGet s f (0x44 / 4)) 1 0 = 3) :
    exec (.powerStateChange f 0) s =
      .next (modFn f (fun r => { r with ready := false, readyWhy := some 3 }) (cfgSet f (0x44 / 4) 0 s)) := by
  rw [exec_powerStateChange, execPowerStateChange, powerState, if_neg (by decide), if_pos ⟨rfl, d3⟩]

/-! ### MSI-X (R122, R126, R176) -/

/-- The table stands above every register window, so that a write of it meets no window. -/
theorem msixBar_windowed (s : State) (f : Fn) (n part : Nat) : windowed s (.fn f) (msixBar f n part) = false := by
  cases vf : isVf f with
  | false => simp [windowed, msixBar, vf, show ¬ 0x3000000 + 16 * n + 4 * part < 0x2000000 by omega]
  | true => simp [windowed, vf]

/-- A write of a table dword, taken at once by the function's BARs. -/
theorem writeFn_msixBar {f : Fn} {n part : Nat} (in_ : n < if isVf f then 1024 else 2048) (dword : part < 4) (v : Word) (s : State) :
    writeFn f (msixBar f n part) v s = msixChange f (.entry n part v) s := by
  have place (o : Nat) (e : o = 16 * n + 4 * part) : msixWordWrite f o v s = msixChange f (.entry n part v) s := by
    rw [msixWordWrite, show o / 16 = n by omega, show o % 16 / 4 = part by omega]
  unfold writeFn msixBar
  cases vf : isVf f <;> simp only [vf, Bool.false_eq_true, if_false, if_true, true_and] at in_ ⊢
  · rw [if_pos (by omega), if_pos (by omega), place _ (by omega)]
  · have low : ¬ 0x3000000 ≤ 0x8000 + 16 * n + 4 * part := by omega
    have table : 0x8000 ≤ 0x8000 + 16 * n + 4 * part ∧ 0x8000 + 16 * n + 4 * part < 0xC000 := by omega
    simp only [low, table.1, table.2, if_false, if_true, ite_self]
    exact place _ (by omega)

/-- The same by the access of the function, which no hold and no failed start keeps away. -/
theorem accessWrite_msixBar {f : Fn} {n part off : Nat} {s : State} (e : off = msixBar f n part) (in_ : n < if isVf f then 1024 else 2048)
    (dword : part < 4) (open_ : pathOpen s (.fn f) = true) (free : accessWaits s (.fn f) off = false)
    (alive : blockDead s (.fn f) (accessBlk s (.fn f) off) = false) (v : Word) :
    accessWrite (.fn f) 0 off v s = msixChange f (.entry n part v) (atWork (.fn f) off s) := by
  have w : windowed s (.fn f) off = false := e ▸ msixBar_windowed s f n part
  have header : headerAccess s (.fn f) off = false := by simp [headerAccess, w]
  have lcs : lcsAccess s (.fn f) off = false := by simp [lcsAccess, w]
  have taken := writeFn_msixBar in_ dword v (atWork (.fn f) off s)
  rw [← e] at taken
  rw [← taken]
  simp [accessWrite, asPath, open_, lcs, access, free, completeAccess, header, alive, writeBlock, atWork]

/-- The mask bit of an entry changes, and the pending vectors that it opens are sent. -/
theorem msixChange_mask {f : Fn} {n : Nat} {s : State} (vector : n < vectorsOf s f) (v : Word) :
    msixChange f (.entry n 3 v) s = flushPba f (modFn f (fun r => { r with
      msix := mset (2 ^ 96) r.msix n (msixEntry s f n / 2 ^ 128 * 2 ^ 128 + at_ 96 (v.toNat % 2) + msixEntry s f n % 2 ^ 96) }) s) := by
  rw [msixChange, if_neg (by omega)]
  rfl

/-! ### The obligation -/

/-- Settles O23, clause by clause. -/
theorem functionLife : Obligations.FunctionLife := by
  refine ⟨fun _ _ => busMasterDisable_pf, fun _ _ _ => busMasterDisable_vf, fun _ _ none_ => if_pos none_, ?begins, ?vf, ?pf,
    fun _ _ => vfEnable_readies, ?disable, fun _ _ => ⟨rfl, rfl, rfl, powerStateChange_d0⟩, fun _ _ _ _ => rfl, ?entry⟩
  case begins =>
    intro p n s idle
    obtain ⟨u, e⟩ := initiateFlr_vf idle
    exact ⟨_, e, by simp, by simp⟩
  case vf =>
    intro p n s flr mode
    obtain ⟨u, e⟩ := flrDone_ready flr mode
    exact ⟨_, e, by simp, by simp, by simp, by simp⟩
  case pf =>
    intro i s flr mode
    obtain ⟨u, e⟩ := flrDone_ready flr mode
    exact ⟨_, e, by simp, by simp, by simp, by simp⟩
  case disable =>
    rintro pf s on_ _ rfl
    exact vfDisable_resets on_
  case entry =>
    rintro f n off v s s1 - bar in_ vector open_ free alive rfl same
    rw [exec_msixUnmask, execMsixUnmask, if_pos (by decide), ← bar, accessWrite_msixBar bar in_ (by decide) open_ free alive,
      msixChange_mask (same ▸ vector)]

end Sys2Proof.Machine
end

section
/-!
SUPPORT. Hidden failure: an equation for each way in which a fault counts, a hand-off ends, a retired unit is retested and a line is scrubbed, and
what a fatal check leaves (R107, R432 to R443), and the statement O51.
-/
namespace Sys2Proof.Machine

/-! ### Counted faults (R434, R435) -/

/-- A unit that is not in the active set, is none of its kind, or is gated counts nothing. -/
theorem countFault_idle {k i : Nat} {s : State} (unit : k < 9) (idle : (unitOf s k i).st ≠ 0 ∨ (unitCounts k).1 ≤ i ∨ instanceGated s k i = true)
    (r : Nat) (b : Bool) : countFault k i r b s = s := by
  rw [countFault, if_pos unit, countUnit, if_pos idle]

section
variable {k i v : Nat} {s s1 : State} (unit : k < 9) (active : (unitOf s k i).st = 0) (present : i < (unitCounts k).1)
  (runs : instanceGated s k i = false) (counted : s1 = modUnit k i (addCount s k) s) (value : v = screeValue s1 k (unitOf s1 k i))
include unit active present runs counted value

/-- One of the active set counts, and the count is judged against its threshold. -/
theorem countFault_unit (r : Nat) (b : Bool) :
    countFault k i r b s = if b = true ∨ screeThreshold s k ≤ v then (if k < 7 then retire k i v s1 else lastingCopy k i v s1)
      else mcLog 0 k i 0xFFFF 0 0 v s1 := by
  subst value counted
  rw [countFault, if_pos unit, countUnit, if_neg]
  simp [active, runs, present]

theorem countFault_unit_absorbed (r : Nat) {b : Bool} (good : b = false) (below : v < screeThreshold s k) :
    countFault k i r b s = mcLog 0 k i 0xFFFF 0 0 v s1 := by
  rw [countFault_unit unit active present runs counted value, if_neg (by simp [good, below])]

theorem countFault_unit_lasting (r : Nat) {b : Bool} (lasting : b = true ∨ screeThreshold s k ≤ v) :
    countFault k i r b s = if k < 7 then retire k i v s1 else lastingCopy k i v s1 := by
  rw [countFault_unit unit active present runs counted value, if_pos lasting]

end

/-- A memory row counts likewise. -/
theorem countFault_row {k i r v : Nat} {s s1 : State} {u : RelUnit} (row : 9 ≤ k) (known : k < 11)
    (record : u = addCount s k (mget {} s.rel.rows (rowKey k i r)))
    (counted : s1 = modRel (fun x => { x with rows := mset {} x.rows (rowKey k i r) u }) s) (value : v = screeValue s1 k u) (b : Bool) :
    countFault k i r b s = if b = true ∨ screeThreshold s k ≤ v then lastingRow k i r v s1 else mcLog 0 k i 0xFFFF 0 r v s1 := by
  subst value counted record
  rw [countFault, if_neg (by omega), if_pos known]
  rfl

theorem countFault_unknown {k : Nat} (unknown : 11 ≤ k) (i r : Nat) (b : Bool) (s : State) : countFault k i r b s = s := by
  rw [countFault, if_neg (by omega), if_neg (by omega)]

/-! ### Fatal checks (R86, R107, R443, R446) -/

/-- The mode after a stop for a fault, where R95 lists the mode. -/
theorem faultMode_mode {s : State} (listed : s.cai.mode ∈ [Mode.bringup, .service, .spared, .pause, .drain, .isolated, .recovery]) :
    (faultMode s).cai.mode = .standby := by
  simp only [List.mem_cons, List.not_mem_nil, or_false] at listed
  unfold faultMode
  rcases listed with h | h | h | h | h | h | h <;> simp only [h] <;> exact setMode_mode _ _

/-- Any other mode stays. -/
theorem faultMode_unlisted {s : State} (listed : s.cai.mode ∈ [Mode.held, .standby, .test, .returned]) : faultMode s = s := by
  simp only [List.mem_cons, List.not_mem_nil, or_false] at listed
  unfold faultMode
  rcases listed with h | h | h | h <;> simp only [h]

/-- The power record after a fatal check: FATAL and the wake's cause, and in STANDBY the moment of the restart. -/
theorem fatalCheck_cai {k i : Nat} {s : State} (on_ : s.cai.mode ≠ .off) :
    ∃ c, c = (faultMode (stopFast (mcLog 7 k i 0xFFFF 0 0 0 s))).cai ∧ (fatalCheck k i s).cai =
      { c with fatal := true, wakeCause := 4, fatalRestartAt := if c.mode = .standby then some (s.elapsed + 1000000) else c.fatalRestartAt } := by
  refine ⟨_, rfl, ?_⟩
  rw [fatalCheck, if_neg on_]
  dsimp only
  split <;> simp [discardTime, relEvent]

/-- One of the Cairn copies discards time and the log. -/
theorem fatalCheck_cairn {i : Nat} {s : State} (on_ : s.cai.mode ≠ .off) :
    (fatalCheck 8 i s).rel.log = [] ∧ (fatalCheck 8 i s).tim.lost = true := by
  rw [fatalCheck, if_neg on_]
  exact ⟨rfl, rfl⟩

/-- 1 ms after the stop a wake is pending, with the cause of a fatal check. -/
theorem mcRestart_wakes {a : Nat} {s : State} (due : s.cai.fatalRestartAt = some a) :
    ∃ t, exec .mcRestart s = .next t ∧ t.cai.fatalRestartAt = none ∧ t.cai.wakePending = true ∧ t.cai.wakeCause = 4 ∧ a ≤ t.elapsed := by
  have ran : exec .mcRestart s = .next (resumeTime (modCai (fun c => { c with
      fatalRestartAt := none, wakePending := true, wakeCause := 4 }) (advanceTo a s))) := by
    rw [exec_mcRestart, execMcRestart, due]
  refine ⟨_, ran, ?_⟩
  rw [cai_of_frame (resumeTime_frame 2130484 rfl _) rfl, elapsed_of_frame (resumeTime_frame 2130484 rfl _) rfl]
  exact ⟨rfl, rfl, rfl, (by change a ≤ s.elapsed + (a - s.elapsed); omega)⟩

/-! ### Hand-offs (R437, R440, R442) -/

section
variable {k : Nat} {h : Handoff} {s s1 : State} (oldest : s.rel.handoffs.find? (fun h => h.kind == k) = some h)
  (e1 : s1 = modRel (fun r => { r with handoffs := dropFirst (· == h) r.handoffs }) s)
include oldest e1

/-- The spare joins the active set, running where either unit ran, in a new epoch, and takes over what the other held. -/
theorem handoffDone_joins {j : Nat} {power own st : DState} {s2 s3 s4 : State} (joins : h.joins = some j)
    (ep : power = ((powerUnit k h.leaves).map (fun u => (domainSt s1 u).st)).getD .gated)
    (eo : own = ((powerUnit k j).map (fun u => (domainSt s1 u).st)).getD .gated) (es : st = if own = .gated then power else own)
    (e2 : s2 = newEpoch k j (modUnit k j (fun u => { u with st := 0 }) (setPower k j { st := st, since := s1.elapsed } (setPower k h.leaves {} s1))))
    (e3 : s3 = mcLog 2 k h.leaves j (unitOf s2 k j).epoch 0 0 s2)
    (e4 : s4 = relEvent 0x01 k h.leaves (setEngaged k (engagedOf s3 k + 1) s3)) :
    exec (.handoffDone k) s = .next (rerun k (spareExhausted k h.leaves (moveUnit k h.leaves (some j) s4))) := by
  subst e4 e3 e2 es eo ep e1
  simp only [exec_handoffDone, execHandoffDone, oldest, joins, Option.map_map]
  rfl

/-- With no spare the set is reduced; the last core that leaves is a fatal check. -/
theorem handoffDone_reduces {s2 s3 : State} (joins : h.joins = none)
    (e2 : s2 = relEvent 0x04 k h.leaves (mcLog 3 k h.leaves 0xFFFF 0 0 0 (setPower k h.leaves {} s1)))
    (e3 : s3 = rerun k (spareExhausted k h.leaves s2)) :
    exec (.handoffDone k) s =
      if k = 3 ∧ (activeUnits s3 3).isEmpty = true then .next (fatalCheck 3 h.leaves s3) else .next (moveUnit k h.leaves none s3) := by
  subst e3 e2 e1
  simp only [exec_handoffDone, execHandoffDone, oldest, joins]

end

/-! ### Repairs (R438) -/

section
variable {k i : Nat} {u : RelUnit} {s0 s : State} (eu : u = unitOf s0 k i) (retired : u.st = 3) (kind : k < 7)
  (es : s = advanceTo (u.retiredAt + dfld s0 .REL_REPAIR_DELAY 31 0 * 1000000000) s0)
include eu retired kind es

theorem repairRetest_fails :
    exec (.repairRetest k i false) s0 = .next (mcLog 1 k i 0xFFFF 0 0 0 (modUnit k i (fun u => { u with st := 5 }) s)) := by
  subst es eu
  rw [exec_repairRetest, execRepairRetest, if_neg (by simp [retired, kind])]
  rfl

variable {e : Nat} {s1 s2 : State} (e1 : s1 = newEpoch k i (modUnit k i (fun u => { u with strikes := 1, counts := [] }) s))
  (ee : e = (unitOf s1 k i).epoch)
include e1 ee

/-- A unit that passes joins a set that is short of one. -/
theorem repairRetest_joins
    (short : (activeUnits s1 k).length + (s1.rel.handoffs.filter (fun h => h.kind == k && h.joins.isSome)).length < (unitCounts k).2)
    (e2 : s2 = mcLog 4 k i i e 0 0 (modUnit k i (fun u => { u with st := 0 }) s1)) :
    exec (.repairRetest k i true) s0 = .next (rerun k (if k = 3 then returnCore i s2 else s2)) := by
  subst e2 ee e1 es eu
  rw [exec_repairRetest, execRepairRetest, if_neg (by simp [retired, kind])]
  exact if_pos short

/-- Otherwise it is a spare, and an engagement of its kind ends where there is one. -/
theorem repairRetest_spares
    (whole : (unitCounts k).2 ≤ (activeUnits s1 k).length + (s1.rel.handoffs.filter (fun h => h.kind == k && h.joins.isSome)).length)
    (e2 : s2 = mcLog 4 k i 0xFFFF e 0 0 (modUnit k i (fun u => { u with st := 1 }) s1)) :
    exec (.repairRetest k i true) s0 =
      if 0 < engagedOf s2 k then .next (relEvent 0x02 k i (setEngaged k (engagedOf s2 k - 1) s2)) else .next s2 := by
  subst e2 ee e1 es eu
  rw [exec_repairRetest, execRepairRetest, if_neg (by simp [retired, kind])]
  exact if_neg (Nat.not_lt.mpr whole)

end

/-! ### The obligation -/

/-- Settles O51, clause by clause, by the equations above. -/
theorem reliability : Obligations.Reliability := by
  refine ⟨?count, ?fatal, ?subwindow, ?handoff, ?retest, ?scrub, fun _ _ => mcRestart_wakes⟩
  case count =>
    intro k i r v b s s1
    refine ⟨fun unknown => congrArg Host.Outcome.next (countFault_unknown unknown i r b s),
      fun unit idle => congrArg Host.Outcome.next (countFault_idle unit idle r b), fun unit active present runs e1 ev => ?_,
      fun u row known eu e1 ev => ?_⟩
    · have lasting := countFault_unit_lasting unit active present runs e1 ev r (b := b)
      exact ⟨fun good below => congrArg Host.Outcome.next (countFault_unit_absorbed unit active present runs e1 ev r good below),
        fun past replaced => congrArg Host.Outcome.next ((lasting past).trans (if_pos replaced)),
        fun past copy => congrArg Host.Outcome.next ((lasting past).trans (if_neg (Nat.not_lt.mpr copy)))⟩
    · have judged := countFault_row row known eu e1 ev b
      exact ⟨fun good below => congrArg Host.Outcome.next (judged.trans (if_neg (by simp [good, below]))),
        fun past => congrArg Host.Outcome.next (judged.trans (if_pos past))⟩
  case fatal =>
    intro k i s
    refine ⟨fun off => congrArg Host.Outcome.next (if_pos off), fun on_ => ⟨_, rfl, ?_⟩⟩
    obtain ⟨c, ec, cai⟩ := fatalCheck_cai (k := k) (i := i) on_
    have stopped : (stopFast (mcLog 7 k i 0xFFFF 0 0 0 s)).cai.mode = s.cai.mode := by simp [stopFast_mode, mcLog]
    rw [cai]
    refine ⟨rfl, rfl, fun listed => ?_, fun listed => ?_, fun copy => copy ▸ fatalCheck_cairn on_⟩
    · have standby : c.mode = .standby := ec ▸ faultMode_mode (by rw [stopped]; simpa using listed)
      exact ⟨standby, if_pos standby⟩
    · have kept := faultMode_unlisted (s := stopFast (mcLog 7 k i 0xFFFF 0 0 0 s)) (by rw [stopped]; simpa using listed)
      rw [kept] at ec
      exact ec ▸ stopped
  case subwindow =>
    rintro k s _ rfl
    exact ⟨_, rfl, rfl, rfl, rfl⟩
  case handoff =>
    intro k h s s1 s2 s3 s4 oldest e1
    refine ⟨fun j power own st joins ep eo es e2 e3 e4 => handoffDone_joins oldest e1 joins ep eo es e2 e3 e4, fun joins e2 e3 => ?_⟩
    have reduced := handoffDone_reduces oldest e1 joins e2 e3
    refine ⟨fun cores none_ => reduced.trans (if_pos ⟨cores, by rw [none_]; rfl⟩), fun left => reduced.trans (if_neg ?_)⟩
    rintro ⟨cores, none_⟩
    rcases left with other | some_
    · exact other cores
    · exact some_ (List.isEmpty_iff.mp none_)
  case retest =>
    intro k i e u s0 s s1 s2 eu retired kind es
    refine ⟨repairRetest_fails eu retired kind es, fun e1 ee => ⟨fun short e2 => repairRetest_joins eu retired kind es e1 ee short e2,
      fun whole e2 => ?_⟩⟩
    have spared := repairRetest_spares eu retired kind es e1 ee whole e2
    exact ⟨fun engaged => spared.trans (if_pos engaged), fun none_ => spared.trans (if_neg (by omega))⟩
  case scrub =>
    intro hbm line i r st re two s
    rw [exec_scrub]
    unfold execScrub
    refine ⟨fun read => ?_, fun read => ?_, fun read one => ?_, fun read both => ?_⟩
    · rw [read]
    · rw [read]
    · rw [read, one]
      rfl
    · rw [read, both]
      rfl

end Sys2Proof.Machine
end

section
/-!
SUPPORT. The DOE mailbox and the SPDM connection: an equation for each data object and each request before a session (R148, R149, R452), and the
statement O25.
-/
namespace Sys2Proof.Machine

/-! ### Data objects (R148) -/

/-- The DOE mailbox of a half after its change, where there is such a half. -/
theorem doeOf_modDoe_same {half : Nat} {s : State} (present : half < s.hif.doe.length) (g : Doe → Doe) :
    doeOf (modDoe half g s) half = g (doeOf s half) := by
  simp [doeOf, modDoe, present]

/-- A mailbox that answers SPDM takes data objects. -/
theorem doeOpen_of_spdmOpen {half : Nat} {s : State} (opened : spdmOpen s half = true) : doeOpen s half = true :=
  (Bool.and_eq_true_iff.mp opened).1

section
variable {half length : Nat} {s : State} (opened : doeOpen s half = true)
include opened

/-- An object of more than 16,384 DW sets DOE Error. -/
theorem doeRequest_oversized (protocol index : Nat) (long : 16384 < length) :
    exec (.doeRequest half protocol length index) s = .next (modDoe half (fun d => { d with error := true }) s) := by
  rw [exec_doeRequest, execDoeRequest, if_neg (by simp [opened]), if_pos long]

/-- Any other object of DOE Discovery is answered. -/
theorem doeRequest_discovery (index : Nat) (fits : length ≤ 16384) :
    exec (.doeRequest half 0 length index) s = .next (doeAnswer half 0 (discovery index) s) := by
  rw [exec_doeRequest, execDoeRequest, if_neg (by simp [opened]), if_neg (Nat.not_lt.mpr fits), if_pos rfl]

end

/-- GET_ENCAPSULATED_REQUEST fetches the first request of a handshake with mutual authentication (R149). -/
theorem doeRequest_encapsulated {half length : Nat} {x : SpdmSession} {s : State} (opened : spdmOpen s half = true) (fits : length ≤ 16384)
    (handshake : (doeOf s half).sessions.find? (fun x => x.mutually && !x.established) = some x) (first_ : x.encap = 0) :
    exec (.doeRequest half 1 length 0xEA) s = .next (doeAnswer half 0x6A [0x81] s) := by
  have fetched : encapsulated half 0xEA s = doeAnswer half 0x6A [0x81] s := by
    rw [encapsulated, handshake]
    dsimp only
    rw [if_pos rfl, if_pos first_, encapRequest]
  rw [exec_doeRequest, execDoeRequest, if_neg (by simp [doeOpen_of_spdmOpen opened]), if_neg (Nat.not_lt.mpr fits), if_neg (by decide),
    if_pos ⟨rfl, opened, .inl rfl⟩, fetched]

/-! ### Version, capabilities and algorithms (R149) -/

section
variable {half : Nat} {s : State} (opened : spdmOpen s half = true)
include opened

/-- GET_VERSION starts the connection anew. -/
theorem getVersion_answered :
    exec (.getVersion half) s =
      .next (doeAnswer half 0x04 [0x12, 0x13] (modDoe half (fun d => { d with phase := 1, version := 0, sessions := [] }) s)) := by
  rw [exec_getVersion, execGetVersion, if_neg (by simp [opened])]

theorem getCapabilities_answered {version : Nat} (phase : (doeOf s half).phase = 1) (known : version = 0x12 ∨ version = 0x13) :
    exec (.getCapabilities half version) s =
      .next (doeAnswer half 0x61 [BitVec.ofNat 8 version] (modDoe half (fun d => { d with phase := 2, version := version }) s)) := by
  rw [exec_getCapabilities, execGetCapabilities, if_neg (by simp [opened]), if_neg (by simp [phase]), if_neg (by omega)]

/-- NEGOTIATE_ALGORITHMS with ECDSA P-384 and SHA-384 among those asked for is answered, and the connection is negotiated. -/
theorem negotiateAlgorithms_answered {asym hash : Nat} (phase : (doeOf s half).phase = 2) (p384 : bitOf asym 7 = true) (sha : bitOf hash 1 = true)
    (dhe aead : Nat) :
    ∃ body, exec (.negotiateAlgorithms half asym hash dhe aead) s =
      .next (doeAnswer half 0x63 body (modDoe half (fun d => { d with phase := 3 }) s)) := by
  rw [exec_negotiateAlgorithms, execNegotiateAlgorithms, if_neg (by simp [opened]), if_neg (by simp [phase]), if_neg (by simp [p384, sha])]
  exact ⟨_, rfl⟩

end

/-- An answer makes Data Object Ready and leaves the connection. -/
theorem doeAnswer_ready {half : Nat} {s : State} (present : half < s.hif.doe.length) (code : Nat) (body : Bytes) :
    (doeOf (doeAnswer half code body s) half).phase = (doeOf s half).phase ∧ (doeOf (doeAnswer half code body s) half).ready = true := by
  have after : doeOf (doeAnswer half code body s) half =
      { doeOf s half with ready := true, answer := (doeOf s half).answer ++ BitVec.ofNat 8 code :: body } := doeOf_modDoe_same present _
  rw [after]
  exact ⟨rfl, rfl⟩

/-! ### Requests of a negotiated connection (R149, R452) -/

/-- A request that needs negotiated algorithms does nothing where SPDM is not answered. -/
theorem negotiated_closed {half : Nat} {s : State} (closed : spdmOpen s half = false) (g : State → State) : negotiated half g s = .next s := by
  rw [negotiated, if_pos (by simp [closed])]

section
variable {half : Nat} {s : State} (opened : spdmOpen s half = true) (phase : (doeOf s half).phase = 3)
include opened phase

/-- Once the algorithms are negotiated it is answered. -/
theorem negotiated_open (g : State → State) : negotiated half g s = .next (g s) := by
  rw [negotiated, if_neg (by simp [opened]), if_neg (by simp [phase])]

theorem getDigests_answered : exec (.getDigests half) s = .next (doeAnswer half 0x01 (1 :: sha384 (certChain s)) s) := by
  rw [exec_getDigests, execGetDigests, negotiated_open opened phase]

/-- GET_CERTIFICATE answers with the portion and the length that remains, or refuses an offset behind the chain. -/
theorem getCertificate_answered {off len : Nat} {part : Bytes} (portion : part = ((certChain s).drop off).take len) :
    exec (.getCertificate half 0 off len) s = .next (if (certChain s).length ≤ off then spdmError half errInvalid s
      else doeAnswer half 0x02 (leBytes 2 part.length ++ leBytes 2 ((certChain s).length - off - part.length) ++ part) s) := by
  rw [exec_getCertificate, execGetCertificate, negotiated_open opened phase, portion]
  simp only [ne_eq, not_true_eq_false, false_or]

theorem challenge_answered (nonce kind : Nat) :
    exec (.challenge half 0 nonce kind) s =
      .next (doeAnswer half 0x03 (signedBody s nonce (Config.freeValue s.free) (sha384 (certChain s) ++ leBytes 1 kind))
        { s with free := s.free + 1 }) := by
  rw [exec_challenge, execChallenge, negotiated_open opened phase, if_neg (by simp)]
  rfl

/-- GET_MEASUREMENTS of index 0 gives the number of blocks. -/
theorem getMeasurements_count (nonce : Nat) : exec (.getMeasurements half 0 nonce false) s = .next (doeAnswer half 0x60 [5] s) := by
  rw [exec_getMeasurements, execGetMeasurements, negotiated_open opened phase]
  rfl

/-- The fifth block tells of the life cycle, the SVN floor, the debug permissions and the owner transfers. -/
theorem getMeasurements_fifth (nonce : Nat) :
    exec (.getMeasurements half 5 nonce false) s = .next (doeAnswer half 0x60
      [5, BitVec.ofNat 8 s.lcs.life, BitVec.ofNat 8 s.lcs.svnFloor, BitVec.ofNat 8 ((s.lcs.session.map DebugSession.perms).getD 0),
        BitVec.ofNat 8 (s.lcs.owners.length - 1)] s) := by
  rw [exec_getMeasurements, execGetMeasurements, negotiated_open opened phase]
  rfl

end

/-! ### The obligation -/

/-- Settles O25, clause by clause, by the equations above. -/
theorem spdmConnection : Obligations.SpdmConnection := by
  refine ⟨fun _ _ _ _ _ opened long => doeRequest_oversized opened _ _ long, fun _ _ _ _ opened fits => doeRequest_discovery opened _ fits,
    fun _ _ _ _ opened fits handshake first_ => doeRequest_encapsulated opened fits handshake first_, fun _ _ => getVersion_answered,
    fun _ _ _ opened phase known => getCapabilities_answered opened phase known, ?negotiate,
    fun _ _ => getDigests_answered, fun _ _ _ _ _ opened phase portion => getCertificate_answered opened phase portion,
    fun _ nonce kind _ opened phase => challenge_answered opened phase nonce kind,
    fun _ nonce _ opened phase => ⟨getMeasurements_count opened phase nonce, getMeasurements_fifth opened phase nonce⟩, ?closed⟩
  case negotiate =>
    intro half asym hash dhe aead s opened phase p384 sha
    obtain ⟨body, answered⟩ := negotiateAlgorithms_answered opened phase p384 sha dhe aead
    refine ⟨_, answered, fun present => ?_⟩
    obtain ⟨kept, ready⟩ := doeAnswer_ready (s := modDoe half (fun d => { d with phase := 3 }) s) (by simpa [modDoe] using present) 0x63 body
    exact ⟨kept.trans (congrArg Doe.phase (doeOf_modDoe_same present _)), ready⟩
  case closed =>
    intro half a b c d g s closed
    have shut : (!spdmOpen s half) = true := by simp [closed]
    refine ⟨if_pos shut, if_pos shut, if_pos shut, ?_, ?_, ?_, ?_⟩
    · rw [exec_getDigests, execGetDigests, negotiated_closed closed]
    · rw [exec_getCertificate, execGetCertificate, negotiated_closed closed]
    · rw [exec_challenge, execChallenge, negotiated_closed closed]
    · rw [exec_getMeasurements, execGetMeasurements, negotiated_closed closed]

end Sys2Proof.Machine
end

section
/-!
SUPPORT. SPDM sessions, the IDE_KM and TDISP messages inside them and IDE failures: an equation for each (R149 to R153), and the statement O26.
-/
namespace Sys2Proof.Machine

/-! ### Sessions (R149) -/

section
variable {half : Nat} {s : State} (opened : spdmOpen s half = true) (phase : (doeOf s half).phase = 3)
include opened phase

/-- KEY_EXCHANGE opens a session while fewer than four are open. -/
theorem keyExchange_opens {req id : Nat} (room : (doeOf s half).sessions.length < 4)
    (named : id = req % 65536 + 65536 * ((doeOf s half).nextSession % 65536)) (exch : Nat) :
    exec (.keyExchange half 0 req exch) s =
      .next (doeAnswer half 0x64 (leBytes 4 id ++ [BitVec.ofNat 8 (b2n Config.mutualAuth)] ++ leBytes 96 (Config.exchange exch))
        (modDoe half (fun d => { d with sessions := d.sessions ++ [{ id := id, mutually := Config.mutualAuth }],
                                        nextSession := (d.nextSession + 1) % 65536 }) s)) := by
  rw [exec_keyExchange, execKeyExchange, negotiated_open opened phase, if_neg (by simp), if_neg (Nat.not_le.mpr room), named]

/-- The fifth receives SessionLimitExceeded. -/
theorem keyExchange_limit (full : 4 ≤ (doeOf s half).sessions.length) (req exch : Nat) :
    exec (.keyExchange half 0 req exch) s = .next (spdmError half errLimit s) := by
  rw [exec_keyExchange, execKeyExchange, negotiated_open opened phase, if_neg (by simp), if_pos full]

variable {session : Nat} {x : SpdmSession} (found : sessionOf s half session = some x)
include found

/-- FINISH establishes the session where what the requester sends verifies, and ends it elsewhere. -/
theorem finish_judged (open_ : x.established = false) (answered : x.mutually = false ∨ x.encap = 2) (verified : Bool) :
    exec (.finish half session verified) s = .next (if verified
      then doeAnswer half 0x65 (leBytes 4 session) (modSession half session (fun x => { x with established := true }) s)
      else spdmError half errDecrypt (dropSession half session s)) := by
  have due : ¬ (x.established || (x.mutually && x.encap != 2)) = true := by rcases answered with h | h <;> simp [open_, h]
  rw [exec_finish, execFinish, negotiated_open opened phase, found]
  dsimp only
  rw [if_neg due]

variable (established : x.established = true)
include established

/-- A request of an established session is answered. -/
theorem inSession_established (g : State → State) : inSession half session g s = .next (g s) := by
  rw [inSession, negotiated_open opened phase, found]
  dsimp only
  rw [if_pos established]

theorem keyUpdate_requester :
    exec (.keyUpdate half session 1) s =
      .next (doeAnswer half 0x69 [1] (modSession half session (fun x => { x with reqGen := x.reqGen + 1 }) s)) := by
  rw [exec_keyUpdate, execKeyUpdate, inSession_established opened phase found established]
  rfl

theorem keyUpdate_both :
    exec (.keyUpdate half session 2) s =
      .next (doeAnswer half 0x69 [2] (modSession half session (fun x => { x with reqGen := x.reqGen + 1, rspGen := x.rspGen + 1 }) s)) := by
  rw [exec_keyUpdate, execKeyUpdate, inSession_established opened phase found established]
  rfl

theorem heartbeat_answered : exec (.heartbeat half session) s = .next (doeAnswer half 0x68 [] s) :=
  inSession_established opened phase found established _

theorem endSession_drops : exec (.endSession half session) s = .next (doeAnswer half 0x6C [] (dropSession half session s)) := by
  rw [exec_endSession, execEndSession, inSession_established opened phase found established]

theorem vendorDefinedRequest_acts (m : VendorMsg) : exec (.vendorDefinedRequest half session m) s = .next (vendorMsg half m s) :=
  inSession_established opened phase found established _

end

/-! ### IDE keys (R150) -/

/-- An IDE stream rests on the streams alone. -/
theorem ideSt_congr {s t : State} (h : t.hif.ide = s.hif.ide) (half stream : Nat) : ideSt t half stream = ideSt s half stream := by
  rw [ideSt, ideSt, h]

@[simp] theorem ideSt_modIde_same (half stream : Nat) (g : Ide → Ide) (s : State) :
    ideSt (modIde half stream g s) half stream = g (ideSt s half stream) :=
  mget_mmod_same _ _ _ _

/-- A DOE answer leaves the IDE streams. -/
@[simp] theorem ideSt_doeAnswer (h code : Nat) (body : Bytes) (s : State) (half stream : Nat) :
    ideSt (doeAnswer h code body s) half stream = ideSt s half stream := rfl

/-- KEY_PROG of a lane and key set that exist stores the key and its IV. -/
theorem ideProg_stores {stream sub dir set : Nat} (named : ideNamed stream sub dir set = true) (half key iv : Nat) (s : State) :
    (ideLane sub dir * 2 + set, key, iv) ∈ (ideSt (ideProg half stream sub dir set key iv s) half stream).keys := by
  rw [ideProg, if_neg (by simp [named])]
  simp

/-! ### TDISP interfaces (R152, R153) -/

/-- A TDISP answer leaves the functions. -/
@[simp] theorem fnSt_tdisp (h kind : Nat) (body : Bytes) (s : State) (f : Fn) : fnSt (tdisp h kind body s) f = fnSt s f := rfl

section
variable {half : Nat} {f : Fn} {s : State} (interface : tdiOf s half f = true)
include interface

/-- LOCK_INTERFACE locks an unlocked interface to a selective stream that is Secure. -/
theorem tdiLock_locks {stream : Nat} (unlocked : (fnSt s f).tdi.st = .unlocked) (selective : 1 ≤ stream ∧ stream ≤ 16)
    (secure : (ideSt s half stream).secure = true) :
    (fnSt (tdiLock half f stream s) f).tdi.st = .locked ∧ (fnSt (tdiLock half f stream s) f).tdi.stream = stream := by
  have allowed : ¬ (stream = 0 ∨ 16 < stream ∨ (!(ideSt s half stream).secure) = true) := by simp [secure]; omega
  rw [tdiLock, if_neg (by simp [interface]), if_neg (by simp [unlocked]), if_neg allowed]
  simp

/-- START_INTERFACE runs a locked interface when its nonce is returned. -/
theorem tdiStart_runs {nonce : Nat} (locked : (fnSt s f).tdi.st = .locked) (returned : (fnSt s f).tdi.nonce = nonce) :
    (fnSt (tdiStart half f nonce s) f).tdi.st = .run := by
  rw [tdiStart, if_neg (by simp [interface]), if_neg (by simp [locked]), if_neg (by simp [returned])]
  simp

end

/-- STOP_INTERFACE clears the VF and returns its interface to CONFIG_UNLOCKED. -/
theorem stopInterface_clears {f : Fn} {s : State} (opened : spdmOpen s (fnHalf s f) = true) (interface : tdiOf s (fnHalf s f) f = true)
    (bound : (fnSt s f).tdi.st ≠ .unlocked) :
    exec (.stopInterface f) s =
      .next (tdisp (fnHalf s f) 0x07 [] (modFn f (fun r => { r with tdi := {}, silent := r.awaitQuiesce }) (clearVf f s))) := by
  rw [exec_stopInterface, execStopInterface, if_neg (by simp [opened]), if_neg (by simp [interface]), if_neg bound]

/-! ### IDE failures (R151, R153) -/

/-- Interfaces that move to ERROR leave the IDE streams. -/
theorem foldS_tdiError_ide (l : List (Nat × FnSt)) (s : State) :
    (foldS (fun (e : Nat × FnSt) s => tdiError (fnOf e.1) s) l s).hif.ide = s.hif.ide := by
  induction l generalizing s with
  | nil => rfl
  | cons e l ih => rw [foldS, ih, tdiError_keeps_ide]

/-- With no request in a slot, a failure of a Secure stream leaves it as the failure makes it: what follows touches no stream. -/
theorem ideIntegrityFailure_stream {half stream : Nat} {s : State} (secure : (ideSt s half stream).secure = true) (idle : s.hif.slots = []) :
    ∃ t, exec (.ideIntegrityFailure half stream) s = .next t ∧
      ideSt t half stream = { ideSt s half stream with secure := false, failLogged := true, keys := [], active := [] } := by
  have made := ideSt_modIde_same half stream (fun e => { e with secure := false, failLogged := true, keys := [], active := [] }) s
  have empty : (modIde half stream (fun e => { e with secure := false, failLogged := true, keys := [], active := [] }) s).hif.slots = [] := idle
  rw [exec_ideIntegrityFailure, execIdeIntegrityFailure, if_neg (by simp [secure])]
  refine ⟨_, rfl, (ideSt_congr ?_ half stream).trans made⟩
  rw [empty, List.filter_nil, foldS]
  simp only [raise_fields, foldS_tdiError_ide]

/-! ### The obligation -/

/-- Settles O26, clause by clause, by the equations above. -/
theorem spdmSessions : Obligations.SpdmSessions := by
  refine ⟨fun _ _ exch _ _ opened phase room named => keyExchange_opens opened phase room named exch,
    fun _ req exch _ opened phase full => keyExchange_limit opened phase full req exch,
    fun _ _ _ _ opened phase found open_ answered =>
      ⟨finish_judged opened phase found open_ answered true, finish_judged opened phase found open_ answered false⟩,
    fun _ _ _ _ opened phase found est => ⟨keyUpdate_requester opened phase found est, keyUpdate_both opened phase found est,
      heartbeat_answered opened phase found est, endSession_drops opened phase found est⟩,
    fun half _ _ _ _ _ key iv _ s opened phase found est named =>
      ⟨_, vendorDefinedRequest_acts opened phase found est _, ideProg_stores named half key iv s⟩,
    fun _ _ _ _ _ _ opened phase found est interface unlocked low high secure =>
      ⟨_, vendorDefinedRequest_acts opened phase found est _, tdiLock_locks interface unlocked ⟨low, high⟩ secure⟩,
    fun _ _ _ _ _ _ opened phase found est interface locked returned =>
      ⟨_, vendorDefinedRequest_acts opened phase found est _, tdiStart_runs interface locked returned⟩,
    fun f _ opened interface bound => ⟨_, stopInterface_clears opened interface bound, ?stopped, rfl⟩, ?failure⟩
  case stopped => rw [fnSt_tdisp, fnSt_modFn_same]
  case failure =>
    intro half stream s secure idle
    obtain ⟨t, failed, left⟩ := ideIntegrityFailure_stream secure idle
    exact ⟨t, failed, congrArg Ide.secure left, congrArg Ide.failLogged left, congrArg Ide.keys left⟩

end Sys2Proof.Machine
end

section
/-!
SUPPORT. Rings and their entries: an equation for each case in which a doorbell acts, a submission entry is fetched, a completion or an event entry
is written and the moderation timer ends (R139, R158, R161, R162, R165, R167, R169, R171, R174, R176, R181), and the statement O27.
-/
namespace Sys2Proof.Machine

/-! ### Moderation (R176) -/

/-- A moment that a command tells of is not after the clock (assumption 3). -/
theorem le_elapsed_advanceTo (t : Nat) (s : State) : t ≤ (advanceTo t s).elapsed := by
  show t ≤ s.elapsed + (t - s.elapsed)
  omega

@[simp] theorem queue_advanceTo (t : Nat) (s : State) (f : Fn) (q : Nat) : queue (advanceTo t s) f q = queue s f q := rfl

/-- An entry that is unsignalled for TIMER µs signals a queue whose interrupts are enabled. -/
theorem maybeSignal_elapsed {f : Fn} {q : Nat} {s : State} (unsignalled : (queue s f q).unsignalled ≠ 0) (enabled : fld (queue s f q).cfg 27 26 = 1)
    (passed : (queue s f q).oldest + fld (queue s f q).moder 31 24 * 1000 ≤ s.elapsed) : maybeSignal f q s = signal f q s := by
  rw [maybeSignal]
  exact if_pos (by simp [enabled, passed]; omega)

theorem moderationTimer_signals {f : Fn} {q : Nat} {s : State} (unsignalled : (queue s f q).unsignalled ≠ 0)
    (enabled : fld (queue s f q).cfg 27 26 = 1) :
    exec (.moderationTimer f q) s = .next (signal f q (advanceTo ((queue s f q).oldest + fld (queue s f q).moder 31 24 * 1000) s)) := by
  rw [exec_moderationTimer, execModerationTimer, if_neg unsignalled]
  exact congrArg Host.Outcome.next (maybeSignal_elapsed (by simpa using unsignalled) (by simpa using enabled) (le_elapsed_advanceTo _ s))

/-! ### Completions (R169, R171, R181) -/

section
variable {f : Fn} {q n : Nat} {e : Cqe} {s : State} (runs : (fnSt s f).silent = false) (thawed : frozen s f = false)
  (kind : qKind f q = some .sq) (due : dueCompletion q (queue s f q).work = some (e, n))
include runs thawed kind due

/-- The next due completion of an SQ goes to its CQ. -/
theorem completionWrite_landed :
    exec (.completionWrite f q .landed) s =
      .next (postCqe f (qTarget (queue s f q)) e (modQueue f q (fun u => { u with work := u.work.drop n }) s)) := by
  rw [exec_completionWrite, execCompletionWrite, if_neg (by simp [runs, thawed, kind]), due]

/-- A CQ whose ring the host refuses to take the completion into enters ERROR, and the completion waits for it. -/
theorem completionWrite_failed {s1 : State} (taken : s1 = modQueue f q (fun u => { u with work := u.work.drop n }) s)
    (room : ringFull (queue s1 f (qTarget (queue s f q))) = false) (first_ : (queue s1 f (qTarget (queue s f q))).overflow = []) :
    exec (.completionWrite f q .failed) s =
      .next (postCqe f (qTarget (queue s f q)) e (queueError f (qTarget (queue s f q)) s1)) := by
  subst taken
  rw [exec_completionWrite, execCompletionWrite, if_neg (by simp [runs, thawed, kind]), due]
  exact if_neg (by simp [room, first_])

end

/-! ### Doorbells (R161 to R163) -/

section
variable {f : Fn} {q : Nat} {v : BitVec 64} {s : State}

/-- A doorbell of a queue that the function owns acts on it while it is ACTIVE. -/
theorem doorbellTaken_active {k : QKind} (kind : qKind f q = some k) (own : ownsQueue s f q = true) (active : (queue s f q).st = .active) :
    doorbellTaken f q v s = doorbell f q k v s := by
  rw [doorbellTaken, kind]
  exact if_pos (by simp [own, active])

/-- A doorbell of a queue that is DISABLED or in ERROR is ignored. -/
theorem doorbellTaken_stopped (stopped : (queue s f q).st = .disabled ∨ (queue s f q).st = .error) : doorbellTaken f q v s = s := by
  rw [doorbellTaken]
  split
  · rfl
  · exact if_neg (by rcases stopped with h | h <;> simp [h])

/-- A value that asks for no more entries than the ring has room for moves the producer counter of an SQ (R162). -/
theorem doorbell_moves (room : (v.truncate 16 - (queue s f q).p).toNat ≤ ringSize (queue s f q) - ((queue s f q).p - (queue s f q).c).toNat) :
    doorbell f q .sq v s = modQueue f q (fun u => { u with p := v.truncate 16, counter := v.truncate 16 }) s := by
  rw [doorbell]
  refine (if_pos (by simpa using room)).trans ?_
  simp [applyArm, acceptDoorbell]

/-- A value that is neither ahead of the counter within that room nor behind it within the ring is invalid: it is counted and raised (R162). -/
theorem doorbell_invalid (kind : qKind f q = some .sq)
    (beyond : ringSize (queue s f q) - ((queue s f q).p - (queue s f q).c).toNat < (v.truncate 16 - (queue s f q).p).toNat)
    (behind : ringSize (queue s f q) < ((queue s f q).p - v.truncate 16).toNat) :
    doorbell f q .sq v s = qmEvent f q 0x02 (.function f) (bump .QM_DB_INVALID 0 (fnCode f) 1 s) := by
  have scope : queueScope f q = .function f := if_neg (by simp [kind])
  rw [doorbell, ← scope]
  exact (if_neg (by simpa using beyond)).trans (if_neg (fun stale => absurd stale.2 (Nat.not_le.mpr behind)))

section
variable {off : Nat} (place : off = doorbellBar f q) (own : doorbellAt s f off = some q) (opened : pathOpen s (.fn f) = true)
  (free : accessWaits s (.fn f) off = false) (alive : blockDead s (.fn f) (accessBlk s (.fn f) off) = false)
include place own opened free alive

/-- An 8-byte write that nothing holds reaches the doorbell, in the state in which QM has noted its work. -/
theorem doorbellWrite_full : exec (.doorbellWrite f q v .full) s = .next (doorbellTaken f q v (atWork (.fn f) off s)) := by
  rw [← doorbell_acts place own opened free alive, place]
  rfl

/-- It acts on an SQ that is ACTIVE. -/
theorem doorbellWrite_sq (kind : qKind f q = some .sq) (active : (queue s f q).st = .active) :
    exec (.doorbellWrite f q v .full) s = .next (doorbell f q .sq v (atWork (.fn f) off s)) := by
  have owned : ownsQueue s f q = true := doorbellAt_owned (place ▸ own)
  rw [doorbellWrite_full place own opened free alive, doorbellTaken_active kind (by simpa using owned) (by simpa using active)]

end

/-- Where the function's BARs are closed, a doorbell write of any form is an unsupported request (R126). -/
theorem doorbellWrite_turnedAway (closed : pathOpen s (.fn f) = false) (form : DoorbellForm) :
    exec (.doorbellWrite f q v form) s = .next (rejectRequest f s) := by
  have shut : (!pathOpen s (.fn f)) = true := by simp [closed]
  rw [exec_doorbellWrite]
  cases form with
  | full => exact congrArg Host.Outcome.next (if_pos shut)
  | low => exact congrArg Host.Outcome.next (if_pos shut)
  | other => exact congrArg Host.Outcome.next (if_pos shut)
  | poisoned => exact congrArg Host.Outcome.next (if_neg (by simp [closed]))

theorem rejectRequest_out_head (real : f ≠ .fw) : (rejectRequest f s).out.head? = some (.unsupported f) := by
  rw [rejectRequest, if_neg real]
  rfl

end

/-! ### Fetching (R139, R165, R181) -/

/-- A read that may be issued and brings data leaves the state. -/
theorem operandRead_data {f : Fn} {addr : Nat} {s : State} (take : mayTake s f addr = true) (bs : Bytes) :
    operandRead f addr (.data bs) s = some s := by
  rw [operandRead, if_neg (by simp [take])]

section
variable {f : Fn} {q : Nat} {s : State} (fetch : mayFetch s f q = true) (fresh : (queue s f q).staleAt = none)
include fetch fresh

/-- A fetch whose read brings no data stops the SQ in ERROR. -/
theorem sqEntryFetch_ended {got : HostRead} {s1 : State} (noData : ∀ bs, got ≠ .data bs)
    (ended : operandRead f (sqeAddr (queue s f q)) got s = some s1) : exec (.sqEntryFetch f q got) s = .next (queueError f q s1) := by
  refine (if_neg (by simp [fetch, fresh])).trans ?_
  rw [ended]
  cases got with
  | data bs => exact absurd rfl (noData bs)
  | _ => rfl

/-- An entry with the phase of its counter joins the work; one with the other phase is stale, and is to be read once more. -/
theorem sqEntryFetch_data {bs : Bytes} {e : BitVec 512} (take : mayTake s f (sqeAddr (queue s f q)) = true)
    (read : e = BitVec.ofNat 512 (leNat (slice bs 0 64))) :
    exec (.sqEntryFetch f q (.data bs)) s =
      if bitOf (entryField e 1 1) 0 = phaseOf (queue s f q) (queue s f q).c then .next (acceptEntry f q e s)
      else .next (modQueue f q (fun u => { u with staleAt := some s.elapsed }) s) := by
  subst read
  refine (if_neg (by simp [fetch, fresh])).trans ?_
  rw [operandRead_data take]

end

/-- The second read of a stale entry, 1 µs later: it joins the work where its phase is valid now; elsewhere it completes as STALE_ENTRY, and the
queue goes on (R139). -/
theorem staleRetry_data {f : Fn} {q at_ : Nat} {bs : Bytes} {e : BitVec 512} {u : Queue} {s s1 : State} (eu : u = queue s f q)
    (marked : u.staleAt = some at_) (later : s1 = advanceTo (at_ + 1000) s) (fetch : mayFetch s1 f q = true)
    (take : mayTake s1 f (sqeAddr u) = true) (read : e = BitVec.ofNat 512 (leNat (slice bs 0 64))) :
    exec (.staleRetry f q (.data bs)) s =
      if bitOf (entryField e 1 1) 0 = phaseOf u u.c then .next (acceptEntry f q e s1)
      else .next (finishWork f q u.c 0x06 0 (modQueue f q (fun x =>
        { x with work := x.work ++ [{ ctr := u.c, entry := e, cls := qClass u, started := true }], c := x.c + 1, staleAt := none }) s1)) := by
  subst eu later read
  rw [exec_staleRetry]
  unfold execStaleRetry
  dsimp only
  rw [marked]
  refine (if_neg (by simp [fetch])).trans ?_
  rw [operandRead_data take]
  -- the entry that the model adds is read off the queue's record at s1, whose counter and settings are those of u
  rfl

/-- RX_BUFFER posts the buffer of the next entry (R167). -/
theorem rxBuffer_posts {f : Fn} {q : Nat} {w : Work} {s : State} (next_ : nextWork s f q 1 0x01 = some w) :
    exec (.rxBuffer f q) s = .next (modWork f q w.ctr (fun w => { w with started := true }) s) := by
  rw [exec_rxBuffer, execRxBuffer, next_]

/-! ### Events (R174, R175) -/

/-- An occurrence at a source that a function has none of yet is a new source. -/
theorem postSource_new {f : Fn} {eq : Option Nat} {block code detail : Nat} {s : State} (real : f ≠ .fw)
    (new : s.qm.events.find? (fun e => e.block == block && e.code == code && e.detail == detail && e.fn == f && e.eq == eq) = none) :
    (postSource f eq block code detail s).qm.events =
      s.qm.events ++ [{ block := block, code := code, detail := detail, fn := f, eq := eq, ts := now s, bound := bound16 s }] := by
  rw [postSource]
  dsimp only
  rw [new]
  dsimp only
  rw [if_neg real]
  rfl

section
variable {f : Fn} {q : Nat} {e : EvSrc} {s : State} (kind : qKind f q = some .eq) (active : (queue s f q).st = .active)
  (room : ringFull (queue s f q) = false) (runs : (fnSt s f).silent = false) (thawed : frozen s f = false) (master : busMaster s f = true)
  (up : linkUp s f = true) (oldest : s.qm.events.find? (fun e => e.fn == f && e.eq == some q && e.written.isNone) = some e)
include kind active room runs thawed master up oldest

/-- The oldest unwritten source of an EQ is written to its ring. -/
theorem eqEntryWrite_landed :
    exec (.eqEntryWrite f q .landed) s = .next (writeRing f q 16 (eqeBytes (queue s f q) e)
      (modQm (fun m =>
        { m with
          events := updFirst (fun e => e.fn == f && e.eq == some q && e.written.isNone)
            (fun e => { e with written := some (queue s f q).p }) m.events })
        s)) := by
  rw [exec_eqEntryWrite, execEqEntryWrite, if_neg (by simp [kind, active, room, runs, thawed, master, up]), oldest]

/-- An EQ whose entry the host refuses enters ERROR. -/
theorem eqEntryWrite_failed : exec (.eqEntryWrite f q .failed) s = .next (queueError f q s) := by
  rw [exec_eqEntryWrite, execEqEntryWrite, if_neg (by simp [kind, active, room, runs, thawed, master, up]), oldest]

end

/-! ### The obligation -/

/-- Settles O27, clause by clause, by the equations above. -/
theorem ringsAndEntries : Obligations.RingsAndEntries := by
  refine ⟨fun _ _ _ unsignalled enabled => moderationTimer_signals unsignalled enabled,
    fun _ _ _ _ _ runs thawed kind due => completionWrite_landed runs thawed kind due,
    fun _ _ _ _ _ _ runs thawed kind due taken room first_ => completionWrite_failed runs thawed kind due taken room first_,
    ?moves, ?invalid, ?ignored,
    fun _ _ _ _ real closed form => ⟨doorbellWrite_turnedAway closed form, rejectRequest_out_head real⟩,
    fun _ _ _ _ _ fetch fresh take read =>
      ⟨fun valid => (sqEntryFetch_data fetch fresh take read).trans (if_pos valid),
        fun stale => (sqEntryFetch_data fetch fresh take read).trans (if_neg stale)⟩,
    fun _ _ _ _ fetch fresh => ⟨fun ended => sqEntryFetch_ended fetch fresh (fun _ => nofun) ended,
      fun ended => sqEntryFetch_ended fetch fresh (fun _ => nofun) ended, fun ended => sqEntryFetch_ended fetch fresh (fun _ => nofun) ended⟩,
    fun _ _ _ _ _ _ _ _ eu marked later fetch take read =>
      ⟨fun valid => (staleRetry_data eu marked later fetch take read).trans (if_pos valid),
        fun stale => (staleRetry_data eu marked later fetch take read).trans (if_neg stale)⟩,
    fun _ _ _ _ next_ => rxBuffer_posts next_,
    fun _ _ _ _ _ real new => ⟨_, rfl, postSource_new real new⟩,
    fun _ _ _ _ kind active room runs thawed master up oldest =>
      ⟨eqEntryWrite_landed kind active room runs thawed master up oldest, eqEntryWrite_failed kind active room runs thawed master up oldest⟩⟩
  case moves =>
    rintro f q off v _ s place own opened free alive kind rfl active room
    rw [doorbellWrite_sq place own opened free alive kind active, doorbell_moves (by simpa using room)]
  case invalid =>
    rintro f q off v _ s place own opened free alive kind rfl active beyond behind
    rw [doorbellWrite_sq place own opened free alive kind active, doorbell_invalid kind (by simpa using beyond) (by simpa using behind)]
  case ignored =>
    intro f q off v s place own opened free alive stopped
    rw [doorbellWrite_full place own opened free alive, doorbellTaken_stopped (by simpa using stopped)]

end Sys2Proof.Machine
end

section
/-!
SUPPORT. QM_Q_CTRL: an equation for each case in which a queue is created, destroyed or restarted, what each leaves of the queue's record, and the
end of a DESTROY (R177 to R180), and the statement O28.
-/
namespace Sys2Proof.Machine

/-! ### A queue's record -/

/-- A queue's record rests on QM's queues alone. -/
theorem queue_congr {s t : State} (h : t.qm.queues = s.qm.queues) (f : Fn) (q : Nat) : queue t f q = queue s f q := by
  rw [queue, queue, h]

@[simp] theorem queue_modQueue_same (f : Fn) (q : Nat) (g : Queue → Queue) (s : State) : queue (modQueue f q g s) f q = g (queue s f q) :=
  mget_mmod_same _ _ _ _

/-- A change of any queue leaves a record that the change would leave as it is. -/
theorem queue_modQueue_of_fixed {f : Fn} {q : Nat} {g : Queue → Queue} {s : State} (fixed : g (queue s f q) = queue s f q) (f' : Fn) (q' : Nat) :
    queue (modQueue f' q' g s) f q = queue s f q := by
  by_cases same : qKey f q = qKey f' q'
  · have record : queue s f' q' = queue s f q := by rw [queue, queue, same]
    calc queue (modQueue f' q' g s) f q = queue (modQueue f' q' g s) f' q' := by rw [queue, queue, same]
      _ = queue s f q := by rw [queue_modQueue_same, record, fixed]
  · exact mget_mmod_other _ _ _ _ _ _ same

theorem queue_foldS_modQueue_of_fixed {f : Fn} {q : Nat} {g : Queue → Queue} (f' : Fn) (l : List Nat) {s : State}
    (fixed : g (queue s f q) = queue s f q) : queue (foldS (fun k s => modQueue f' k g s) l s) f q = queue s f q := by
  induction l generalizing s with
  | nil => rfl
  | cons k l ih =>
    have kept := queue_modQueue_of_fixed fixed f' k
    rw [foldS, ih (by rw [kept, fixed]), kept]

@[simp] theorem queue_modFn (f' : Fn) (g : FnSt → FnSt) (s : State) (f : Fn) (q : Nat) : queue (modFn f' g s) f q = queue s f q := rfl

@[simp] theorem queue_releaseLocks (f' : Fn) (k : Option Nat) (s : State) (f : Fn) (q : Nat) : queue (releaseLocks f' k s) f q = queue s f q := rfl

@[simp] theorem queue_setQResult (p : Path) (r : Nat) (s : State) (f : Fn) (q : Nat) : queue (setQResult p r s) f q = queue s f q := rfl

/-- A change of the event sources leaves the queues. -/
@[simp] theorem queue_modEvents (g : Qm → List EvSrc) (s : State) (f : Fn) (q : Nat) :
    queue (modQm (fun m => { m with events := g m }) s) f q = queue s f q := rfl

@[simp] theorem queue_flushPba (f' : Fn) (s : State) (f : Fn) (q : Nat) : queue (flushPba f' s) f q = queue s f q :=
  queue_congr (congrArg Qm.queues (qm_of_frame (flushPba_frame 260 rfl f' s) rfl)) f q

/-- A new default EQ takes events; it leaves the queues. -/
@[simp] theorem queue_newDefaultEq (f' : Fn) (q' : Nat) (s : State) (f : Fn) (q : Nat) : queue (newDefaultEq f' q' s) f q = queue s f q := by
  rw [newDefaultEq]
  split <;> rfl

/-! ### RESULT (R177) -/

/-- RESULT of a path's last QM_Q_CTRL write reads as it was set. -/
theorem qResult_setQResult {r : Nat} (small : r < 16) (p : Path) (s : State) :
    fld (reg (setQResult p r s) .QM_Q_STATE 0 (pathCode p)) 15 12 = r := by
  rw [setQResult, reg_modQm, reg_setReg_same]
  revert r
  decide

/-! ### The settings that come into force (R178, R180) -/

/-- The record of a queue into which the settings in its registers have just come into force: ACTIVE, both counters at the ring's size, no work. -/
def freshQueue (s : State) (f : Fn) (q : Nat) : Queue :=
  let cfg := reg s .QM_Q_CFG q (fnCode f)
  let n : BitVec 16 := BitVec.ofNat 16 (2 ^ fld cfg 3 0)
  { st := .active, p := n, c := n, counter := n, base := pair64 s .QM_Q_BASE_LO .QM_Q_BASE_HI q (fnCode f), cfg := cfg,
    pasid := reg s .QM_Q_PASID q (fnCode f), moder := reg s .QM_CQ_MODERATION q (fnCode f) }

@[simp] theorem queue_applySettings (f : Fn) (q : Nat) (s : State) : queue (applySettings f q s) f q = freshQueue s f q :=
  queue_modQueue_same _ _ _ _

/-- A record without held completions is the same with them taken away. -/
theorem queue_without_completions {u : Queue} (noOverflow : u.overflow = []) (noWaiting : u.waiting = []) :
    { u with overflow := [], waiting := [] } = u := by
  cases u
  cases noOverflow
  cases noWaiting
  rfl

/-- Unblocking touches BLOCKED queues alone (R172). -/
theorem queue_setBlocked_false {f : Fn} {q : Nat} {s : State} (running : (queue s f q).st ≠ .blocked) (f' : Fn) (cq : Nat) :
    queue (setBlocked f' cq false s) f q = queue s f q :=
  queue_foldS_modQueue_of_fixed f' _ (if_neg running)

/-- With no completion to hand over, a CQ that holds none and is not BLOCKED stays as it is (R171). -/
theorem queue_settle_nil {f : Fn} {cq : Nat} {s : State} (running : (queue s f cq).st ≠ .blocked) (noOverflow : (queue s f cq).overflow = [])
    (noWaiting : (queue s f cq).waiting = []) : queue (settle f cq [] s) f cq = queue s f cq := by
  have settled : settle f cq [] s = setBlocked f cq false (modQueue f cq (fun u => { u with overflow := [], waiting := [] }) s) := rfl
  rw [settled, queue_setBlocked_false (by simpa using running), queue_modQueue_same]
  exact queue_without_completions noOverflow noWaiting

/-- What RESTART writes of the completions that a CQ in ERROR held: nothing where it held none. -/
theorem queue_settled {f : Fn} {q : Nat} {s : State} {u : Queue} (held : u.st = .error ∧ qKind f q = some .cq → u.overflow = [] ∧ u.waiting = []) :
    queue (if u.st = .error ∧ qKind f q = some .cq then settle f q (u.overflow ++ u.waiting) (applySettings f q s) else applySettings f q s) f q =
      freshQueue s f q := by
  split
  case isTrue failed =>
    obtain ⟨noOverflow, noWaiting⟩ := held failed
    rw [noOverflow, noWaiting, List.append_nil, queue_settle_nil] <;> simp [freshQueue]
  case isFalse => exact queue_applySettings f q s

/-! ### The actions of QM_Q_CTRL (R177 to R180) -/

section
variable {f : Fn} {off : Nat} {s : State} (place : regBar (.fn f) .QM_Q_CTRL 0 = some off) (acts : actsAt (.fn f) off s = true)
include place acts

theorem exec_qCreate_acts : exec (.qCreate (.fn f)) s = .next (qCreate (.fn f) (atWork (.fn f) off s)) :=
  congrArg Host.Outcome.next (writeOf_does 1 (by decide) place acts _ (fun _ => rfl))

theorem exec_qDestroy_acts : exec (.qDestroy (.fn f)) s = .next (qDestroy (.fn f) (atWork (.fn f) off s)) :=
  congrArg Host.Outcome.next (writeOf_does 2 (by decide) place acts _ (fun _ => rfl))

theorem exec_queueRestart_acts : exec (.queueRestart (.fn f)) s = .next (qRestart (.fn f) (atWork (.fn f) off s)) :=
  congrArg Host.Outcome.next (writeOf_does 3 (by decide) place acts _ (fun _ => rfl))

end

section
variable {f : Fn} {q : Nat} {s : State} (selected : q = selectedQ s (.fn f))
include selected

/-- A queue that is not the function's answers NOT_OWNED. -/
theorem qCreate_notOwned (foreign : ownsQueue s f q = false) : qCreate (.fn f) s = setQResult (.fn f) 1 s := by
  subst selected
  exact if_pos (by simp [foreign])

variable (own : ownsQueue s f q = true)
include own

/-- A queue that is created already answers BUSY. -/
theorem qCreate_busy (there : created (queue s f q) = true) : qCreate (.fn f) s = setQResult (.fn f) 3 s := by
  subst selected
  exact (if_neg (by simp [own])).trans (if_pos there)

/-- Settings that fail a check answer BAD_CONFIG. -/
theorem qCreate_badConfig (absent : created (queue s f q) = false) (wrong : settingsOk s f q = false) :
    qCreate (.fn f) s = setQResult (.fn f) 2 s := by
  subst selected
  exact (if_neg (by simp [own])).trans ((if_neg (by simp [absent])).trans (if_pos (by simp [wrong])))

/-- Settings that pass come into force, and an EQ may become its function's default. -/
theorem qCreate_done (absent : created (queue s f q) = false) (passed : settingsOk s f q = true) :
    qCreate (.fn f) s =
      setQResult (.fn f) 0 (if qKind f q = some .eq then newDefaultEq f q (applySettings f q s) else applySettings f q s) := by
  subst selected
  exact (if_neg (by simp [own])).trans ((if_neg (by simp [absent])).trans (if_neg (by simp [passed])))

/-- The record of the queue that CREATE makes. -/
theorem queue_qCreate (absent : created (queue s f q) = false) (passed : settingsOk s f q = true) :
    queue (qCreate (.fn f) s) f q = freshQueue s f q := by
  rw [qCreate_done selected own absent passed]
  split <;> simp

/-- DESTROY of an SQ without work marks it and releases its locks; RESULT is PENDING until it is DISABLED (R179). -/
theorem qDestroy_idle (there : created (queue s f q) = true) (kind : qKind f q = some .sq) (idle : (queue s f q).work = []) :
    qDestroy (.fn f) s = modQm (fun m => { m with lastDestroy := mput m.lastDestroy (fnCode f) q })
      (setQResult (.fn f) 4 (releaseLocks f (some q) (modQueue f q (fun u => { u with destroying := true }) s))) := by
  subst selected
  refine (if_neg (by simp [own])).trans ((if_neg (by simp [there])).trans ((if_neg (by simp [kind])).trans ?_))
  rw [idle]
  rfl

/-- RESTART of a queue in QUIESCED, or in ERROR with no completion held, brings its settings into force anew (R180). -/
theorem qRestart_done (stopped : (queue s f q).st = .quiesced ∨
      ((queue s f q).st = .error ∧ (qKind f q = some .cq → (queue s f q).overflow = [] ∧ (queue s f q).waiting = [])))
    (quiet : quiesced s f = true) (passed : settingsOk s f q = true) :
    ∃ t, qRestart (.fn f) s = setQResult (.fn f) 0 t ∧ queue t f q = freshQueue s f q := by
  have may : ((queue s f q).st == .quiesced || (queue s f q).st == .error) = true := by
    rcases stopped with quiescedSt | ⟨error, _⟩
    · simp [quiescedSt]
    · simp [error]
  have held : (queue s f q).st = .error ∧ qKind f q = some .cq → (queue s f q).overflow = [] ∧ (queue s f q).waiting = [] := by
    rintro ⟨error, cq⟩
    rcases stopped with quiescedSt | ⟨_, none_⟩
    · rw [quiescedSt] at error
      cases error
    · exact none_ cq
  have settled := queue_settled (s := s) held
  subst selected
  refine ⟨_, (if_neg (by simp [own])).trans ((if_neg (by rw [may, quiet]; decide)).trans (if_neg (by simp [passed]))), ?_⟩
  rw [queue_releaseLocks]
  split <;> split <;> simpa using settled

end

/-- A DESTROY ends once the queue has neither unfinished work nor a completion to give: its record is that of a DISABLED queue, and RESULT of the
function reads DONE where this DESTROY was its last QM_Q_CTRL write (R179, R177). -/
theorem queueDisabled_ends {f : Fn} {q : Nat} {s : State} (destroying : (queue s f q).destroying = true)
    (finished : (queue s f q).work.all (fun w => w.done.isSome) = true) (given : dueCompletion q (queue s f q).work = none)
    (noOverflow : (queue s f q).overflow = []) (noWaiting : (queue s f q).waiting = []) (last : mfind s.qm.lastDestroy (fnCode f) = some q) :
    ∃ t, exec (.queueDisabled f q) s = .next (setQResult (.fn f) 0 t) ∧ queue t f q = {} := by
  refine ⟨_, (if_pos (by simp [destroying, finished, given, noOverflow, noWaiting])).trans (congrArg Host.Outcome.next (if_pos last)), ?_⟩
  rw [queue_modEvents, queue_modFn, queue_modQueue_same]

/-! ### The obligation -/

/-- Settles O28, clause by clause, by the equations above. -/
theorem queueControl : Obligations.QueueControl := by
  refine ⟨?create, ?refused, ?destroy, ?disabled, ?restart⟩
  case create =>
    rintro f q off _ _ s0 _ place acts rfl selected own absent passed rfl rfl
    refine ⟨_, exec_qCreate_acts place acts, ?_, queue_qCreate selected own absent passed⟩
    rw [qCreate_done selected own absent passed]
    exact qResult_setQResult (by decide) _ _
  case refused =>
    rintro f q off s0 _ place acts rfl selected
    rw [exec_qCreate_acts place acts]
    exact ⟨fun foreign => congrArg _ (qCreate_notOwned selected foreign), fun own there => congrArg _ (qCreate_busy selected own there),
      fun own absent wrong => congrArg _ (qCreate_badConfig selected own absent wrong)⟩
  case destroy =>
    rintro f q off s0 _ place acts rfl selected own there kind idle
    rw [exec_qDestroy_acts place acts, qDestroy_idle selected own there kind idle]
  case disabled =>
    rintro f q _ s rfl destroying finished given noOverflow noWaiting last
    obtain ⟨t, ended, record⟩ := queueDisabled_ends destroying finished given noOverflow noWaiting last
    exact ⟨_, ended, (queue_setQResult ..).trans record, qResult_setQResult (by decide) _ _⟩
  case restart =>
    rintro f q off _ _ s0 _ place acts rfl selected own stopped quiet passed rfl rfl
    obtain ⟨t, restarted, record⟩ := qRestart_done selected own stopped quiet passed
    refine ⟨_, exec_queueRestart_acts place acts, ?_⟩
    rw [restarted, queue_setQResult, record]
    exact ⟨qResult_setQResult (by decide) _ _, rfl, rfl, rfl⟩

end Sys2Proof.Machine
end

section
/-!
SUPPORT. A VF's grant, vport, dirty-page log and migration: an equation for each case of a PF's write of HIF_VF_CTRL or HIF_VF_VPORT, of
DIRTY_PAGE_LOG and of the events that end an action (R185, R186, R189 to R192, R194 to R196), and the statement O29.
-/
namespace Sys2Proof.Machine

/-! ### A VF's migration record -/

@[simp] theorem fnSt_modMig_same (f : Fn) (g : Mig → Mig) (s : State) : fnSt (modMig f g s) f = { fnSt s f with mig := g (fnSt s f).mig } :=
  fnSt_modFn_same ..

/-! ### Writes that take effect at once (R186, R188) -/

@[simp] theorem asPath_pf (pf : Nat) : asPath (.fn (.pf pf)) = .fn (.pf pf) := rfl

section
variable {pf off : Nat} {s : State} (place : regBar (.fn (.pf pf)) .HIF_VF_CTRL 0 = some off) (acts : actsAt (.fn (.pf pf)) off s = true)
include place acts

/-- A write of HIF_VF_CTRL does what its ACTION names. -/
theorem vfCtrlWrite_acts (a : Nat) : vfCtrlWrite pf a s = vfCtrl pf (fld (w32 a) 3 0) (atWork (.fn (.pf pf)) off s) :=
  writeOf_does (w32 a) (by decide) place acts _ (fun _ => rfl)

theorem exec_vfGrant_acts : exec (.vfGrant pf) s = .next (vfGrant pf (atWork (.fn (.pf pf)) off s)) :=
  congrArg Host.Outcome.next (vfCtrlWrite_acts place acts 1)

theorem exec_logStart_acts : exec (.logStart pf) s = .next (logStart pf (atWork (.fn (.pf pf)) off s)) :=
  congrArg Host.Outcome.next (vfCtrlWrite_acts place acts 2)

theorem exec_logSwap_acts : exec (.logSwap pf) s = .next (logSwap pf (atWork (.fn (.pf pf)) off s)) :=
  congrArg Host.Outcome.next (vfCtrlWrite_acts place acts 3)

theorem exec_logStop_acts : exec (.logStop pf) s = .next (logStop pf (atWork (.fn (.pf pf)) off s)) :=
  congrArg Host.Outcome.next (vfCtrlWrite_acts place acts 4)

theorem exec_vfFreeze_acts : exec (.vfFreeze pf) s = .next (vfFreeze pf (atWork (.fn (.pf pf)) off s)) :=
  congrArg Host.Outcome.next (vfCtrlWrite_acts place acts 5)

theorem exec_vfUnfreeze_acts : exec (.vfUnfreeze pf) s = .next (vfUnfreeze pf (atWork (.fn (.pf pf)) off s)) :=
  congrArg Host.Outcome.next (vfCtrlWrite_acts place acts 8)

/-- A RESTORE that begins reads its image in the state that the write leaves. -/
theorem exec_vfRestore_acts (none_ : restoring s pf = none) (image : HostRead) :
    exec (.vfRestore pf image) s = .next (vfRestore pf image (restoreStart pf (atWork (.fn (.pf pf)) off s))) := by
  rw [exec_vfRestore, execVfRestore, if_neg (by simp [none_])]
  exact congrArg (fun t => Host.Outcome.next (vfRestore pf image t)) (vfCtrlWrite_acts place acts 7)

/-- HIF answers an access to HIF_VF_CTRL. -/
theorem accessBlk_vfCtrl : accessBlk s (.fn (.pf pf)) off = 2 := by
  have offset : off = 0x200000 * 2 + regOff .HIF_VF_CTRL 0 := (Option.some.inj place).symm
  have window : off < 0x2000000 ∧ off / 0x200000 = 2 := by rw [offset]; decide
  simp only [actsAt, asPath_pf, Bool.and_eq_true, Bool.not_eq_true'] at acts
  obtain ⟨⟨⟨⟨-, notNvme⟩, -⟩, -⟩, -⟩ := acts
  have windowed_ : windowed s (.fn (.pf pf)) off = true := by simp [windowed, window.1, notNvme, isVf]
  unfold accessBlk
  rw [if_pos windowed_, window.2]

theorem exec_vfSave_acts (res : HostWriteEnd) : exec (.vfSave pf res) s = .next (vfSave pf res (atWork (.fn (.pf pf)) off s)) := by
  have hif := accessBlk_vfCtrl place acts
  have acts' := acts
  simp only [actsAt, asPath_pf, hif, Bool.and_eq_true, Bool.not_eq_true'] at acts'
  obtain ⟨⟨⟨⟨open_, notNvme⟩, free⟩, alive⟩, -⟩ := acts'
  rw [exec_vfSave, execVfSave, vfCtrlEnds, place]
  dsimp only
  rw [if_neg (by simp [open_, notNvme, free, alive]), atWork, asPath_pf, hif]

end

theorem exec_vportBind_acts {pf off : Nat} {s : State} (place : regBar (.fn (.pf pf)) .HIF_VF_VPORT 0 = some off)
    (acts : actsAt (.fn (.pf pf)) off s = true) (v : Word) :
    exec (.vportBind pf v) s = .next (vportBind pf v (atWork (.fn (.pf pf)) off s)) :=
  congrArg Host.Outcome.next (writeOf_does v (by decide) place acts _ (fun _ => rfl))

/-! ### Actions of the selected VF (R189) -/

section
variable {pf : Nat} {f : Fn} {s : State} (selected : selectedVf s pf = some f)
include selected

/-- While an action is PENDING another answers BUSY. -/
theorem migAction_busy (pending : (fnSt s f).mig.action.isSome = true) (g : Fn → State → State) : migAction pf g s = migResult f 2 s := by
  rw [migAction, selected]
  exact if_pos pending

variable (idle : (fnSt s f).mig.action = none)
include idle

/-- With none PENDING it acts on the selected VF. -/
theorem migAction_idle (g : Fn → State → State) : migAction pf g s = g f s := by
  rw [migAction, selected]
  exact if_neg (by simp [idle])

/-! ### Grants (R185) -/

theorem vfGrant_busy (on_ : vfEnabled s pf = true) : vfGrant pf s = migResult f 2 s :=
  (migAction_idle selected idle _).trans (if_pos on_)

theorem vfGrant_badConfig (off_ : vfEnabled s pf = false) (wrong : grantOk s f (grantOf s f) = false) : vfGrant pf s = migResult f 3 s :=
  (migAction_idle selected idle _).trans ((if_neg (by simp [off_])).trans (if_pos (by simp [wrong])))

theorem vfGrant_done (off_ : vfEnabled s pf = false) (passed : grantOk s f (grantOf s f) = true) :
    vfGrant pf s = migResult f 0 (tdiError f (modFn f (fun r => { r with grant := some (grantOf s f) }) s)) :=
  (migAction_idle selected idle _).trans ((if_neg (by simp [off_])).trans (if_neg (by simp [passed])))

/-! ### The dirty-page log's actions (R190, R191) -/

theorem logStart_done (passed : logOk s f = true) :
    logStart pf s = modMig f (fun m => { m with result := 0, logging := true, activeB := false, rangeMiss := false }) s :=
  (migAction_idle selected idle _).trans (if_pos passed)

theorem logSwap_done : logSwap pf s = modMig f (fun m => { m with result := 0, activeB := !m.activeB, rangeMiss := false }) s :=
  migAction_idle selected idle _

theorem logStop_done : logStop pf s = modMig f (fun m => { m with result := 0, logging := false }) s :=
  migAction_idle selected idle _

/-! ### FREEZE (R192) -/

/-- A VF whose interface is locked is not frozen. -/
theorem vfFreeze_locked (locked : (fnSt s f).tdi.st = .locked ∨ (fnSt s f).tdi.st = .run) : vfFreeze pf s = migResult f 8 s :=
  (migAction_idle selected idle _).trans (if_pos locked)

theorem vfFreeze_begins (unlocked : (fnSt s f).tdi.st = .unlocked) (runs : migRuns s f = true) :
    vfFreeze pf s = modMig f (fun m => { m with st := .freezing, freezeAt := s.elapsed, slow := false }) (park f (migPend f 5 s)) :=
  (migAction_idle selected idle _).trans ((if_neg (by simp [unlocked])).trans (if_neg (by simp [runs])))

/-! ### SAVE, RESTORE and UNFREEZE of a FROZEN VF (R194 to R196) -/

variable (frozen_ : (fnSt s f).mig.st = .frozen)
include frozen_

/-- An image that the buffer holds is written to it. -/
theorem vfSave_landed (fits : (stateImage s f).length ≤ (vfReg s f .HIF_VF_IMG_LEN).toNat) :
    vfSave pf .landed s = modMig f (fun m => { m with st := .saving, ending := 0 }) (migPend f 6
      (modMig f (fun m => { m with imgUsed := (stateImage s f).length }) (hostWrite (.pf pf) none (imageBuf s f) (stateImage s f) false s))) :=
  (migAction_idle selected idle _).trans ((if_neg (by simp [frozen_])).trans (if_neg (Nat.not_lt.mpr fits)))

/-- Of a longer one the length alone is told, and the SAVE is to end NO_SPACE. -/
theorem vfSave_noSpace (long : (vfReg s f .HIF_VF_IMG_LEN).toNat < (stateImage s f).length) (res : HostWriteEnd) :
    vfSave pf res s = modMig f (fun m => { m with st := .saving, ending := 5 }) (migPend f 6
      (modMig f (fun m => { m with imgUsed := (stateImage s f).length }) s)) :=
  (migAction_idle selected idle _).trans ((if_neg (by simp [frozen_])).trans (if_pos long))

theorem restoreStart_begins (noQueue : createdQueues s f = []) :
    restoreStart pf s = modMig f (fun m => { m with st := .restoring, imageDue := true }) (migPend f 7 s) :=
  (migAction_idle selected idle _).trans (if_neg (by simp [frozen_, noQueue]))

theorem vfUnfreeze_frozen : vfUnfreeze pf s = migResult f 0 (wakeVf f (unpark f (modMig f (fun m => { m with st := .running }) s))) := by
  rw [vfUnfreeze, selected]
  dsimp only
  rw [if_neg (by simp [frozen_]), if_neg (by simp [idle]), if_pos frozen_]

end

/-! ### Vports (R186, R187) -/

/-- A vport in the PF's range that no other function has becomes the VF's. -/
theorem vportBind_binds {pf : Nat} {v : Word} {f : Fn} {s : State} (selected : selectedVf s pf = some f) (bind : wbit v 31 = true)
    (network : (pfSet s pf).nvme = false) (inRange : inVportRange s pf (fld v 11 0) = true) (free : vportTaken s f (fld v 11 0) = false)
    (new : (fnSt s f).vport ≠ some (fld v 11 0)) :
    vportBind pf v s = setReg .HIF_VF_VPORT 0 (fnCode f) (applyWrite .HIF_VF_VPORT (vfReg s f .HIF_VF_VPORT) v)
      (tdiError f (modFn f (fun r => { r with vport := some (fld v 11 0) }) s)) := by
  rw [vportBind, selected]
  dsimp only
  rw [if_neg (by simp [bind]), if_neg (by simp [network, inRange, free]), if_neg new]

/-! ### DIRTY_PAGE_LOG (R190) -/

/-- A write within one page of the logged range sets that page's bit in the active buffer. -/
theorem logWrite_page {f : Fn} {addr len iova a i w : Nat} {t : Tlp} {s : State} (logging : (fnSt s f).mig.logging = true)
    (bufferA : (fnSt s f).mig.activeB = false) (onePage : addr % 4096 + max len 1 ≤ 4096) (page : a = addr / 4096 * 4096)
    (start : iova = pair64 s .HIF_VF_LOG_IOVA_LO .HIF_VF_LOG_IOVA_HI 0 (fnCode f)) (above : iova ≤ a) (index : i = (a - iova) / 4096)
    (below : i < (reg s .HIF_VF_LOG_PAGES 0 (fnCode f)).toNat)
    (byte : w = pair64 s .HIF_VF_LOG_A_LO .HIF_VF_LOG_A_HI 0 (fnCode f) + i / 8) (leaves : tlpFor s (.pf (fnPf f)) w false = some t) :
    logWrite f addr len s = emit (.setBits (.pf (fnPf f)) w (2 ^ (i % 8)) t) s := by
  have pages : (addr + max len 1 - 1) / 4096 + 1 - addr / 4096 = 1 := by omega
  subst page start index byte
  simp [logWrite, logging, bufferA, pages, foldS, above, below, leaves]

/-! ### The ends of actions (R189, R192, R195) -/

theorem migSlow_raises {f : Fn} {s : State} (freezing : (fnSt s f).mig.st = .freezing) (first : (fnSt s f).mig.slow = false) :
    migSlow f s = raise 0x2 0x0D (fnCode f % 4096) (.function (.pf (fnPf f))) (modMig f (fun m => { m with slow := true })
      (advanceTo ((fnSt s f).mig.freezeAt + (vfReg s f .HIF_VF_FREEZE_LIMIT).toNat * 1000000) s)) :=
  if_neg (by simp [freezing, first])

/-- The read of an image that may be made brings it. -/
theorem vfRestore_data {pf : Nat} {f : Fn} {s : State} (waits : restoring s pf = some f) (take : mayTake s (.pf pf) (imageBuf s f) = true)
    (bs : Bytes) : vfRestore pf (.data bs) s = restoreImage f (.data bs) s := by
  rw [vfRestore, waits]
  dsimp only
  rw [operandRead_data take]
  rfl

/-- So it does where the RESTORE has begun already. -/
theorem exec_vfRestore_data {pf : Nat} {f : Fn} {s : State} (waits : restoring s pf = some f) (take : mayTake s (.pf pf) (imageBuf s f) = true)
    (bs : Bytes) : exec (.vfRestore pf (.data bs)) s = .next (restoreImage f (.data bs) s) := by
  rw [exec_vfRestore, execVfRestore, if_pos (by simp [waits]), vfRestore_data waits take]

section
variable {f : Fn} {bs data : Bytes} {s : State} (image : data = bs.take (vfReg s f .HIF_VF_IMG_LEN).toNat)
include image

/-- An image that fails the checks of its form is not applied. -/
theorem restoreImage_unreadable (bad : readImage s f data = none) :
    restoreImage f (.data bs) s = modMig f (fun m => { m with imageDue := false, ending := 4 }) s := by
  subst image
  simp only [restoreImage, bad]

/-- One that passes every check is. -/
theorem restoreImage_applied {secs : List (Nat × List Bytes)} (good : readImage s f data = some secs) (fits : grantFits s f data = true)
    (records : recordsOk s f secs = true) :
    restoreImage f (.data bs) s = modMig f (fun m => { m with imageDue := false, ending := 0 }) (applyImage f secs (leAt data 16 8) s) := by
  subst image
  simp only [restoreImage, good, fits, records, Bool.and_self, if_true]

end

/-- A SAVE or RESTORE that waits for no image ends with its RESULT, and the VF is FROZEN. -/
theorem vfMigDone_ends {f : Fn} {a : Nat} {s : State} (pending : (fnSt s f).mig.action = some a) (noFreeze : a ≠ 5)
    (read : (fnSt s f).mig.imageDue = false) :
    vfMigDone f s = migDone f (fnSt s f).mig.ending (modMig f (fun m => { m with st := .frozen }) s) := by
  rw [vfMigDone, pending]
  split
  case h_1 none_ => cases none_
  case h_2 freeze => exact absurd (Option.some.inj freeze) noFreeze
  case h_3 => exact if_neg (by simp [read])

/-! ### The obligation -/

/-- Settles O29, clause by clause, by the equations above. -/
theorem vfMigration : Obligations.VfMigration := by
  refine ⟨?grant, ?vport, ?logStart, ?logSwap, ?logStop, ?notLogging, ?dirtyPage, ?freeze, ?freezeDone, ?slow, ?save, ?restoreBegins, ?restoreReads,
    ?migDone, ?unfreeze, ?busy⟩
  case grant =>
    rintro pf off f s0 _ place acts rfl selected idle
    rw [exec_vfGrant_acts place acts]
    exact ⟨fun on_ => congrArg _ (vfGrant_busy selected idle on_), fun off_ wrong => congrArg _ (vfGrant_badConfig selected idle off_ wrong),
      fun off_ passed => congrArg _ (vfGrant_done selected idle off_ passed)⟩
  case vport =>
    rintro pf off v f s0 _ place acts rfl selected bind network inRange free new
    rw [exec_vportBind_acts place acts, vportBind_binds selected bind network inRange free new]
  case logStart =>
    rintro pf off f s0 _ place acts rfl selected idle passed
    exact ⟨_, (exec_logStart_acts place acts).trans (congrArg _ (logStart_done selected idle passed)), by simp⟩
  case logSwap =>
    rintro pf off f s0 _ place acts rfl selected idle
    exact ⟨_, (exec_logSwap_acts place acts).trans (congrArg _ (logSwap_done selected idle)), by simp⟩
  case logStop =>
    rintro pf off f s0 _ place acts rfl selected idle
    exact ⟨_, (exec_logStop_acts place acts).trans (congrArg _ (logStop_done selected idle)), by simp⟩
  case notLogging => exact fun f addr len s off_ => congrArg _ (if_pos (by simp [off_]))
  case dirtyPage =>
    exact fun f addr len a i iova s logging bufferA onePage page start above index below w t byte leaves =>
      congrArg _ (logWrite_page logging bufferA onePage page start above index below byte leaves)
  case freeze =>
    rintro pf off f s0 _ place acts rfl selected idle
    rw [exec_vfFreeze_acts place acts]
    exact ⟨fun locked => congrArg _ (vfFreeze_locked selected idle locked),
      fun unlocked runs => congrArg _ (vfFreeze_begins selected idle unlocked runs)⟩
  case freezeDone => exact fun f s freezing ready => congrArg _ (if_pos ⟨freezing, ready⟩)
  case slow => exact fun f s freezing first => congrArg _ (migSlow_raises freezing first)
  case save =>
    rintro pf _ off f s0 _ place acts rfl selected idle frozen_ rfl
    rw [exec_vfSave_acts place acts]
    exact ⟨fun fits => congrArg _ (vfSave_landed selected idle frozen_ fits), fun long => congrArg _ (vfSave_noSpace selected idle frozen_ long _)⟩
  case restoreBegins =>
    rintro pf off bs f s0 _ none_ place acts rfl selected idle frozen_ noQueue _ rfl waits take
    rw [exec_vfRestore_acts place acts none_, restoreStart_begins selected idle frozen_ noQueue, vfRestore_data waits take]
  case restoreReads =>
    intro pf bs data f s waits take image
    rw [exec_vfRestore_data waits take]
    exact ⟨fun bad => congrArg _ (restoreImage_unreadable image bad),
      fun secs good fits records => congrArg _ (restoreImage_applied image good fits records)⟩
  case migDone => exact fun f a s pending noFreeze read => congrArg _ (vfMigDone_ends pending noFreeze read)
  case unfreeze =>
    rintro pf off f s0 _ place acts rfl selected idle frozen_
    rw [exec_vfUnfreeze_acts place acts, vfUnfreeze_frozen selected idle frozen_]
  case busy =>
    rintro pf off f s0 _ place acts rfl selected pending
    rw [exec_vfGrant_acts place acts, exec_logStart_acts place acts, exec_logSwap_acts place acts, exec_logStop_acts place acts,
      exec_vfFreeze_acts place acts, exec_vfSave_acts place acts]
    have busy (g : Fn → State → State) := migAction_busy selected pending g
    exact ⟨congrArg _ (busy _), congrArg _ (busy _), congrArg _ (busy _), congrArg _ (busy _), congrArg _ (busy _), congrArg _ (busy _)⟩

end Sys2Proof.Machine
end

section
/-!
SUPPORT. The logical ports: an equation for each case of the links, the FEC windows, MAC_PORTn_CFG, received pause and the pause watchdog (R199, R201,
R203, R212 to R214, R216), and the statement O30.
-/
namespace Sys2Proof.Machine

/-! ### Links and FEC windows (R201, R203) -/

theorem exec_linkUp_starting {lp : Nat} {s : State} (starting : (lport s lp).starting = true) :
    exec (.linkUp lp) s = .next (ncsiAen 0 lp (raise 0x4 0x01 (lp + at_ 4 0) .device
      (setLanes lp true (modLport lp (fun p => { p with up := true, starting := false }) s)))) :=
  if_neg (by simp [starting])

section
variable {lp : Nat} {s : State} (up : (lport s lp).up = true)
include up

theorem exec_linkDown_up : exec (.linkDown lp) s = .next (lportDown lp s) :=
  if_pos up

variable {u : Nat}

/-- More uncorrected codewords than DEGRADE_LIMIT degrade the port. -/
theorem exec_fecWindow_above (c : Nat) (above : fld (reg s .MAC_LP_FEC_CFG lp 0) 15 0 < u) :
    exec (.fecWindow lp c u) s = .next (raise 0x4 0x03 (lp + at_ 4 0) .device
      (modLport lp (fun p => { p with fecDegraded := true, goodWindows := 0 }) (lpCount lp 17 u (lpCount lp 16 c s)))) :=
  (if_neg (by simp [up])).trans (if_pos above)

/-- A window within it is one good window more. -/
theorem exec_fecWindow_within (c : Nat) (within : u ≤ fld (reg s .MAC_LP_FEC_CFG lp 0) 15 0) :
    exec (.fecWindow lp c u) s = .next
      (modLport lp (fun p => { p with fecDegraded := p.fecDegraded && decide (p.goodWindows < 99), goodWindows := p.goodWindows + 1 })
        (lpCount lp 17 u (lpCount lp 16 c s))) :=
  (if_neg (by simp [up])).trans (if_neg (Nat.not_lt.mpr within))

end

/-! ### MAC_PORTn_CFG (R199) -/

theorem exec_portCfgWrite_acts {p : Path} {off n : Nat} {s : State} (place : regBar p .MAC_PORT_CFG n = some off) (acts : actsAt p off s = true)
    (v : Word) : exec (.portCfgWrite p n v) s = .next (portCfgWrite (asPath p) n v (atWork p off s)) :=
  congrArg Host.Outcome.next (writeOf_does v (regReached_of_lt 2 rfl (by decide) n) place acts _ (fun _ => rfl))

/-- A port that is not enabled takes every field. -/
theorem portCfgWrite_disabled {p : Path} {n : Nat} {old new v : Word} {s : State} (may : mayWrite s p .MAC_PORT_CFG = true) (port : n < 2)
    (before : old = reg s .MAC_PORT_CFG n 0) (written : new = applyWrite .MAC_PORT_CFG old v) (disabled : wbit old 31 = false) :
    portCfgWrite p n v s = if wbit new 31
      then foldS (fun lp s => if (lport s lp).up then s else beginUp lp s) (lpsOf n) (setReg .MAC_PORT_CFG n 0 new s)
      else foldS lportDown (lpsOf n) (setReg .MAC_PORT_CFG n 0 new s) := by
  subst written before
  rw [portCfgWrite, if_neg (by simp [may, port])]
  exact if_neg (by simp [disabled])

/-! ### Received and transmitted pause (R212 to R214) -/

/-- A PAUSE frame is counted, and in PAUSE mode it holds priority 0. -/
theorem exec_pauseFrameRx_pause {lp : Nat} {s : State} (up : (lport s lp).up = true) (receives : wbit (lpCfg s lp) 31 = true)
    (mode : fcMode s lp = 1) (enable : Nat) (quanta : List Nat) :
    exec (.pauseFrameRx lp 1 enable quanta) s =
      .next (pauseTime lp 0 (quanta.headD 0 % 65536) (lpCount lp 6 1 (lpCount lp 1 64 (lpCount lp 0 1 s)))) := by
  rw [exec_pauseFrameRx, execPauseFrameRx, if_neg (by simp [up]), if_neg (by simp [receives]), controlFrame]
  exact congrArg _ ((if_neg (by decide)).trans (if_pos ⟨rfl, mode⟩))

theorem exec_pauseHoldExpiry_held {lp prio t : Nat} {s : State} (held : (prioSt s lp prio).holdUntil = some t) :
    exec (.pauseHoldExpiry lp prio) s = .next (modPrio lp prio (fun x => { x with holdUntil := none }) (advanceTo t s)) := by
  rw [exec_pauseHoldExpiry, execPauseHoldExpiry, held]

/-- A priority in XOFF repeats its pause frame as REFRESH ends. -/
theorem exec_pauseRefresh_repeats {lp prio : Nat} {s s1 : State} (xoff : (prioSt s lp prio).xoff = true) (loss : lossless s lp prio = true)
    (above : xonCells s lp prio ≤ cellsHeld s lp prio)
    (due : s1 = advanceTo ((prioSt s lp prio).lastSent + ceilDiv (max 1 (fld (reg s .MAC_LP_FC_REFRESH lp 0) 15 0) * 512) (lpRate s lp)) s) :
    exec (.pauseRefresh lp prio) s = .next (modPrio lp prio (fun y => { y with lastSent := s1.elapsed }) (sendPause lp prio (fcQuanta s lp) s1)) := by
  subst due
  exact if_neg (by simp [xoff, loss, above])

/-! ### The pause watchdog (R216) -/

section
variable {lp prio : Nat} {s : State}

/-- A hold that lasts WD_TIME without a break is a received storm. -/
theorem exec_pauseRxStorm_begins {t : Nat} (held : (prioSt s lp prio).holdUntil = some t) (watched : wdTime s lp ≠ 0)
    (first : (prioSt s lp prio).rxStorm = false) (lasts : (prioSt s lp prio).heldSince + wdTime s lp ≤ t) :
    exec (.pauseRxStorm lp prio) s = .next (raise 0x4 0x04 (lp + at_ 4 prio) .device
      (modPrio lp prio (fun x => { x with rxStorm := true, holdUntil := none }) (advanceTo ((prioSt s lp prio).heldSince + wdTime s lp) s))) := by
  rw [exec_pauseRxStorm, execPauseRxStorm]
  simp only [held]
  exact if_neg (by simp [watched, first, lasts])

/-- An XOFF that lasts WD_TIME is a transmitted storm, and ends. -/
theorem exec_pauseTxStorm_begins (watched : wdTime s lp ≠ 0) (xoff : (prioSt s lp prio).xoff = true) (loss : lossless s lp prio = true) :
    exec (.pauseTxStorm lp prio) s = .next (raise 0x4 0x05 (lp + at_ 4 prio) .device (judgeFlow lp prio
      (modPrio lp prio (fun x => { x with xoff := false, txStorm := true, belowSince := none })
        (sendPause lp prio 0 (advanceTo ((prioSt s lp prio).xoffSince + wdTime s lp) s))))) :=
  if_neg (by simp [watched, xoff, loss])

/-- With no transmitted storm that could end, the received storm ends. -/
theorem exec_stormRecover_rx (rx : (prioSt s lp prio).rxStorm = true)
    (noTx : (prioSt s lp prio).txStorm = false ∨ (prioSt s lp prio).belowSince = none) :
    exec (.stormRecover lp prio) s = .next (rxRecover lp prio s) := by
  have none_ : (if (prioSt s lp prio).txStorm then (prioSt s lp prio).belowSince else none) = none := by
    rcases noTx with tx | below
    · rw [tx]; rfl
    · rw [below]; exact ite_self _
  rw [exec_stormRecover, execStormRecover]
  simp only [rx, none_]

variable {since : Nat} (tx : (prioSt s lp prio).txStorm = true) (below : (prioSt s lp prio).belowSince = some since)
include tx below

/-- Of two storms the one whose time ends first clears. -/
theorem exec_stormRecover_both (rx : (prioSt s lp prio).rxStorm = true) :
    exec (.stormRecover lp prio) s =
      .next (if (prioSt s lp prio).lastPause ≤ since then rxRecover lp prio s else txRecover lp prio since s) := by
  rw [exec_stormRecover, execStormRecover]
  simp only [rx, tx, below, if_true]

theorem exec_stormRecover_tx (rx : (prioSt s lp prio).rxStorm = false) : exec (.stormRecover lp prio) s = .next (txRecover lp prio since s) := by
  rw [exec_stormRecover, execStormRecover]
  simp only [rx, tx, below, if_true]

end

/-! ### The obligation -/

/-- Settles O30, clause by clause, by the equations above. -/
theorem portLinksAndFlowControl : Obligations.PortLinksAndFlowControl := by
  refine ⟨?linkUp, ?linkDown, ?fecAbove, ?fecWithin, ?portCfg, ?pauseFrame, ?holdExpiry, ?refresh, ?rxStorm, ?txStorm, ?recoverRx, ?recoverTx⟩
  case linkUp => exact fun lp s starting => exec_linkUp_starting starting
  case linkDown => exact fun lp s up => exec_linkDown_up up
  case fecAbove => exact fun lp c u s up above => exec_fecWindow_above up c above
  case fecWithin => exact fun lp c u s up within => exec_fecWindow_within up c within
  case portCfg =>
    rintro p off n v old new s0 _ place acts rfl may port before written disabled
    rw [exec_portCfgWrite_acts place acts, portCfgWrite_disabled may port before written disabled]
    exact ⟨fun on_ => congrArg _ (if_pos on_), fun off_ => congrArg _ (if_neg (by simp [off_]))⟩
  case pauseFrame => exact fun lp enable quanta s up receives mode => exec_pauseFrameRx_pause up receives mode enable quanta
  case holdExpiry => exact fun lp prio t s held => exec_pauseHoldExpiry_held held
  case refresh => exact fun lp prio s s1 xoff loss above due => exec_pauseRefresh_repeats xoff loss above due
  case rxStorm => exact fun lp prio t s held watched first lasts => exec_pauseRxStorm_begins held watched first lasts
  case txStorm => exact fun lp prio s watched xoff loss => exec_pauseTxStorm_begins watched xoff loss
  case recoverRx =>
    exact fun lp prio s rx => ⟨fun noTx => exec_stormRecover_rx rx noTx, fun since tx below => exec_stormRecover_both tx below rx⟩
  case recoverTx => exact fun lp prio since s rx tx below => exec_stormRecover_tx tx below rx

end Sys2Proof.Machine
end

section
/-!
SUPPORT. Received frames, the receive filters and STAT_SNAP: an equation for each case of a frame's size, port and filters and of an action of
MAC_FLT_CTRL, and what a snapshot leaves in the registers (R204, R208, R210, R212, R217, R296), and the statement O31.
-/
namespace Sys2Proof.Machine

/-! ### Received frames (R204, R208, R212) -/

section
variable {lp : Nat} {bytes : Bytes} {s : State} (up : (lport s lp).up = true)
include up

/-- A frame of fewer than 64 bytes with its FCS is a runt. -/
theorem exec_frameReceived_runt (short : bytes.length + 4 < 64) (fcs : BitVec 32) : exec (.frameReceived lp bytes fcs) s = .next (lpCount lp 3 1 s) :=
  (if_neg (by simp [up])).trans (if_pos short)

variable (whole : 64 ≤ bytes.length + 4)
include whole

theorem exec_frameReceived_oversize (long : maxFrame s lp < bytes.length + 4) (fcs : BitVec 32) :
    exec (.frameReceived lp bytes fcs) s = .next (lpCount lp 4 1 s) :=
  (if_neg (by simp [up])).trans ((if_neg (Nat.not_lt.mpr whole)).trans (if_pos long))

variable (fits : bytes.length + 4 ≤ maxFrame s lp)
include fits

/-- A frame within the sizes is judged by RX_EN, its type and the filters. -/
theorem exec_frameReceived_sized (fcs : BitVec 32) :
    exec (.frameReceived lp bytes fcs) s = if !wbit (lpCfg s lp) 31 then .next (lpCount lp 5 1 s)
      else if beAt bytes 12 2 = 0x8808 then
        if fcs.toNat = crc32 bytes then
          .next (controlFrame lp (bytes.length + 4) (beAt bytes 14 2) (if beAt bytes 14 2 = 1 then 0 else beAt bytes 16 2)
            (if beAt bytes 14 2 = 1 then [beAt bytes 16 2] else (List.range 8).map (fun k => beAt bytes (18 + 2 * k) 2)) s)
        else .next (lpCount lp 2 1 s)
      else if !admitted s lp bytes then .next (lpCount lp 5 1 s)
      else .next (takeFrame lp bytes fcs.toNat s) :=
  (if_neg (by simp [up])).trans ((if_neg (Nat.not_lt.mpr whole)).trans (if_neg (Nat.not_lt.mpr fits)))

theorem exec_frameReceived_disabled (disabled : wbit (lpCfg s lp) 31 = false) (fcs : BitVec 32) :
    exec (.frameReceived lp bytes fcs) s = .next (lpCount lp 5 1 s) :=
  (exec_frameReceived_sized up whole fits fcs).trans (if_pos (by simp [disabled]))

variable (receives : wbit (lpCfg s lp) 31 = true) (noControl : beAt bytes 12 2 ≠ 0x8808)
include receives noControl

/-- A frame that is no MAC control frame is filtered, or taken. -/
theorem exec_frameReceived_judged (fcs : BitVec 32) :
    exec (.frameReceived lp bytes fcs) s = if !admitted s lp bytes then .next (lpCount lp 5 1 s) else .next (takeFrame lp bytes fcs.toNat s) :=
  (exec_frameReceived_sized up whole fits fcs).trans ((if_neg (by simp [receives])).trans (if_neg noControl))

end

/-! ### Writes of MAC_FLT_CTRL that take effect at once (R210) -/

/-- INDEX of a write of MAC_FLT_CTRL. -/
theorem fltIndex (a i : Nat) (action : a < 4) : fld (w32 (a + at_ 16 i)) 30 16 = i % 32768 := by
  unfold fld bits w32 at_
  simp only [BitVec.toNat_ofNat]
  omega

/-- DELETE and READ take INDEX's 15 bits. -/
theorem filterOther_mod (p : Path) (read : Bool) (index : Nat) (s : State) : filterOther p read (index % 32768) s = filterOther p read index s := by
  simp only [filterOther, Nat.mod_mod]

section
variable {p : Path} {off : Nat} {s : State} (place : regBar p .MAC_FLT_CTRL 0 = some off) (acts : actsAt p off s = true)
include place acts

theorem exec_filterAdd_acts : exec (.filterAdd p) s = .next (filterAdd (asPath p) (atWork p off s)) :=
  congrArg Host.Outcome.next (writeOf_does 1 (by decide) place acts _ (fun _ => rfl))

theorem exec_filterDelete_acts (index : Nat) : exec (.filterDelete p index) s = .next (filterOther (asPath p) false index (atWork p off s)) :=
  congrArg Host.Outcome.next (writeOf_does _ (by decide) place acts _ (fun u => by
    show macWrite (asPath p) .MAC_FLT_CTRL 0 (w32 (2 + at_ 16 index)) u = _
    rw [macWrite, fld_at16 2 index (by decide), fltIndex 2 index (by decide), filterOther_mod _ false]
    rfl))

theorem exec_filterRead_acts (index : Nat) : exec (.filterRead p index) s = .next (filterOther (asPath p) true index (atWork p off s)) :=
  congrArg Host.Outcome.next (writeOf_does _ (by decide) place acts _ (fun u => by
    show macWrite (asPath p) .MAC_FLT_CTRL 0 (w32 (3 + at_ 16 index)) u = _
    rw [macWrite, fld_at16 3 index (by decide), fltIndex 3 index (by decide), filterOther_mod _ true]
    rfl))

end

/-! ### Actions on the filter memory (R209, R210) -/

section
variable {p : Path} {s : State} (may : mayWrite s p .MAC_FLT_CTRL = true)
include may

/-- An entry of the path's own vport and in its right form is placed. -/
theorem filterAdd_places {e : Bytes} (data : e = fltData s p) (own : fltOwns s p (fltVport e) = true) (used : lpUsed s (fltLport e) = true)
    (vlan : leAt e 6 2 < 8192) (flags : byteAt e 10 < 4) (rest : leAt e 11 5 = 0) :
    filterAdd p s = fltResult p (fltPlace e s).1 (fltPlace e s).2.1 (fltPlace e s).2.2 := by
  subst data
  rw [filterAdd, if_neg (by simp [may])]
  exact (if_neg (by simp [own])).trans (if_neg (by simp [used, rest]; omega))

variable {index : Nat} {e : Bytes} (entry : mfind s.mac.filters (index % 32768) = some e)
include entry

/-- DELETE and READ of another's entry answer NOT_OWNED. -/
theorem filterOther_notOwned (foreign : fltOwns s p (fltVport e) = false) (read : Bool) :
    filterOther p read index s = fltResult p 1 none s := by
  rw [filterOther, if_neg (by simp [may])]
  dsimp only
  rw [entry]
  exact if_pos (by simp [foreign])

variable (own : fltOwns s p (fltVport e) = true)
include own

/-- READ copies an entry of the path's own, and DELETE clears it. -/
theorem filterOther_owned (read : Bool) :
    filterOther p read index s = fltResult p 0 none (if read
      then foldS (fun k s => setReg .MAC_FLT_DATA k (pathCode p) (w32 (leAt e (4 * k) 4)) s) (List.range 4) s
      else modMac (fun m => { m with filters := mdel m.filters (index % 32768) }) s) := by
  rw [filterOther, if_neg (by simp [may])]
  dsimp only
  rw [entry]
  refine (if_neg (by simp [own])).trans ?_
  cases read <;> rfl

end

/-- A new entry, with room, is held at the index chosen, its MULTICAST being its address's. -/
theorem fltPlace_free {e : Bytes} {i : Nat} {held : NMap Bytes} {s : State} (valid : held = s.mac.filters.filter (fun x => fltValid x.2))
    (new : held.any (fun x => fltKey x.2 == fltKey e) = false) (room : held.length < 32768)
    (choice : (pickFree (held.map Prod.fst) 32768 s).1 = some i) :
    fltPlace e s = (0, some i, modMac (fun m => { m with
      filters := mput m.filters i (overwrite e 10 [BitVec.ofNat 8 (b2n (fltValid e) + 2 * b2n (isMulticast e))]) })
      (pickFree (held.map Prod.fst) 32768 s).2) := by
  subst valid
  refine (if_neg (by simp [new])).trans ((if_neg (Nat.not_le.mpr room)).trans ?_)
  simp only [choice]

/-- Choosing a free index takes a free value, and leaves the ports as they are. -/
theorem pickFree_mac (used : List Nat) (n : Nat) (s : State) : (pickFree used n s).2.mac = s.mac :=
  mac_of_frame (pickFree_frame 8 rfl used n s) rfl

theorem fltResult_mac (p : Path) (r : Nat) (i : Option Nat) (s : State) : (fltResult p r i s).mac = s.mac :=
  mac_of_frame (fltResult_frame 16 rfl p r i s) rfl

theorem fltStatus_fltResult (p : Path) (r i : Nat) (s : State) :
    reg (fltResult p r (some i) s) .MAC_FLT_STATUS 0 (pathCode p) = w32 (r + at_ 16 i) :=
  reg_setReg_same ..

/-! ### STAT_SNAP (R217) -/

/-- MAC_LP_STAT_SNAP is there for every logical port that the breakout mode uses. -/
theorem portAbsent_statSnap {lp : Nat} {s : State} (used : lpUsed s lp = true) : portAbsent s .MAC_LP_STAT_SNAP lp = false := by
  have port : regPort .MAC_LP_STAT_SNAP lp = some lp := by
    rw [regPort]
    exact (if_pos (by decide)).trans (congrArg some (Nat.div_one lp))
  simp [portAbsent, port, used]

theorem exec_statSnap_acts {p : Path} {off lp : Nat} {s : State} (place : regBar p .MAC_LP_STAT_SNAP lp = some off) (acts : actsAt p off s = true)
    (used : lpUsed (atWork p off s) lp = true) : exec (.statSnap p lp) s = .next (statSnap (asPath p) lp (atWork p off s)) := by
  have write : writeOf p .MAC_LP_STAT_SNAP lp 1 s = macWrite (asPath p) .MAC_LP_STAT_SNAP lp 1 (atWork p off s) :=
    writeOf_acts 1 (regReached_of_lt 16 rfl (by decide) lp) place acts
  exact congrArg Host.Outcome.next (write.trans (if_neg (by simp [portAbsent_statSnap used])))

/-- A snapshot holds the bound and the time of its cycle. -/
theorem statSnap_stamps {p : Path} {lp : Nat} {s : State} (may : mayWrite s p .MAC_LP_STAT_SNAP = true) (used : lpUsed s lp = true) :
    reg (statSnap p lp s) .MAC_LP_SNAP_BOUND lp 0 = w32 (bound32 s) ∧ reg (statSnap p lp s) .MAC_LP_SNAP_TIME_LO lp 0 = w32 (now s) ∧
      reg (statSnap p lp s) .MAC_LP_SNAP_TIME_HI lp 0 = w32 (now s / 2 ^ 32) := by
  rw [statSnap, if_neg (by simp [may, used])]
  simp [setPair64]

/-- A snapshot leaves the counters themselves as they are. -/
theorem statSnap_mac (p : Path) (lp : Nat) (s : State) : (statSnap p lp s).mac = s.mac :=
  mac_of_frame (statSnap_frame 16 rfl p lp s) rfl

/-! ### The obligation -/

/-- Settles O31, clause by clause, by the equations above. -/
theorem portFramesAndFilters : Obligations.PortFramesAndFilters := by
  refine ⟨?size, ?admission, ?add, ?delete, ?read, ?notOwned, ?snap⟩
  case size =>
    exact fun lp bytes fcs s up => ⟨fun short => exec_frameReceived_runt up short fcs,
      fun whole long => exec_frameReceived_oversize up whole long fcs⟩
  case admission =>
    intro lp bytes fcs s up whole fits
    refine ⟨fun disabled => exec_frameReceived_disabled up whole fits disabled fcs, fun receives noControl refused => ?_,
      fun receives noControl passed => ?_⟩
    · exact (exec_frameReceived_judged up whole fits receives noControl fcs).trans (if_pos (by simp [refused]))
    · exact (exec_frameReceived_judged up whole fits receives noControl fcs).trans (if_neg (by simp [passed]))
  case add =>
    rintro p off e i held _ s0 _ place acts rfl may data own used vlan flags rest valid new room rfl choice
    refine ⟨_, exec_filterAdd_acts place acts, ?_⟩
    rw [filterAdd_places may data own used vlan flags rest, fltPlace_free valid new room choice]
    exact ⟨by rw [fltResult_mac, modMac, pickFree_mac], fltStatus_fltResult ..⟩
  case delete =>
    rintro p off index e s0 _ place acts rfl may entry own
    rw [exec_filterDelete_acts place acts, filterOther_owned may entry own]
    rfl
  case read =>
    rintro p off index e s0 _ place acts rfl may entry own
    rw [exec_filterRead_acts place acts, filterOther_owned may entry own]
    rfl
  case notOwned =>
    rintro p off index e s0 _ place acts rfl may entry foreign
    rw [exec_filterDelete_acts place acts, exec_filterRead_acts place acts]
    exact ⟨congrArg _ (filterOther_notOwned may entry foreign false), congrArg _ (filterOther_notOwned may entry foreign true)⟩
  case snap =>
    rintro p off lp s0 _ place acts rfl may used
    obtain ⟨bound, low, high⟩ := statSnap_stamps may used
    exact ⟨_, exec_statSnap_acts place acts used, bound, low, high, statSnap_mac ..⟩

end Sys2Proof.Machine
end

section
/-!
SUPPORT. The management MAC: an equation for each case of the frames that it sends and receives, of half duplex, of its link, of MDIO and of the NC-SI
commands (R213, R220 to R223, R225, R403), and the statement O32.
-/
namespace Sys2Proof.Machine

/-! ### Frames to send (R403) -/

section
variable {m : ChMsg} {rest : List ChMsg} {s : State} (oldest : chMsgs s 1 = m :: rest)
include oldest

/-- A message that fails its checks is answered with its status. -/
theorem exec_mgtTx_refused (bad : mgtTxStatus s m ≠ 0) :
    exec .mgtTx s = .next (sendDone 0x13 (leAt (m.words.map (leBytes 8)).flatten 2 2) (mgtTxStatus s m)
      (leAt (m.words.map (leBytes 8)).flatten 16 8) m.domain m.epoch (roomMade 1 (modMsgs 1 (·.drop 1) s))) := by
  rw [exec_mgtTx, execMgtTx, oldest]
  exact if_pos bad

/-- One that passes them queues its handle's bytes, and its answer is owed. -/
theorem exec_mgtTx_queues {w : Bytes} {x : Handle} {k : Nat} (good : mgtTxStatus s m = 0) (message : w = (m.words.map (leBytes 8)).flatten)
    (named : k = leAt w 4 4) (handle : mfind s.svc.handles k = some x) (runs : mgtRuns s = true) (passes : ncsiPasses s (beAt x.bytes 0 6) = true) :
    ∃ u, exec .mgtTx s = .next (mgtStart (modMgt (fun y => { y with queue := y.queue ++ [(k, x.bytes.take (leAt w 8 2))] }) u)) ∧
      mfind u.svc.owed k = some { kind := 0x13, reply := leAt w 2 2, tag := leAt w 16 8, domain := m.domain, epoch := m.epoch } := by
  subst named message
  rw [exec_mgtTx, execMgtTx, oldest]
  dsimp only
  rw [handle, if_neg (by simp [good]), if_neg (by simp [runs, passes])]
  exact ⟨_, rfl, mfind_mput_same ..⟩

end

/-- The frame being sent leaves padded and with its FCS. -/
theorem exec_mgtFrameSent_sends {f : Nat × Bytes} {rest : List (Nat × Bytes)} {s : State} (sending : s.mgt.sending = true)
    (head : s.mgt.queue = f :: rest) :
    exec .mgtFrameSent s = .next (mgtFinish 0 (bump .MGT_STAT 0 0 1 (emit (.mgtOut ((f.2 ++ List.replicate (60 - f.2.length) 0)
      ++ leBytes 4 (crc32 (f.2 ++ List.replicate (60 - f.2.length) 0)))) s))) := by
  rw [exec_mgtFrameSent, execMgtFrameSent, if_pos sending]
  dsimp only
  rw [head]
  exact if_neg (by simp [sending])

/-! ### Half duplex (R221) -/

/-- Drawing a free value leaves the registers. -/
@[simp] theorem reg_takeFree (s : State) (r : Reg) (i h : Nat) : reg (takeFree s).2 r i h = reg s r i h := rfl

section
variable {n : Nat} {s : State} (half : mgtHalf s = true) (sending : s.mgt.sending = true)
include half sending

/-- A collision that is not late, with attempts left, backs off. -/
theorem exec_collision_backsOff (early : n ≤ 512) (again : s.mgt.attempts + 1 < 16) :
    exec (.collision n) s = .next (modMgt (fun m => { m with
      sending := false, attempts := s.mgt.attempts + 1,
      backoffUntil := some (s.elapsed + bitTime s (Config.freeValue s.free % 2 ^ min (s.mgt.attempts + 1) 10 * 512 + 32)) })
      (takeFree (mgtStat 4 s)).2) :=
  (if_neg (by simp [half, sending])).trans ((if_neg (Nat.not_lt.mpr early)).trans (if_neg (Nat.not_le.mpr again)))

/-- A late one ends the frame. -/
theorem exec_collision_late (late : 512 < n) :
    exec (.collision n) s = .next (mgtFinish 0x30 (bump .MGT_STAT 5 0 1 (bump .MGT_STAT 4 0 1 s))) :=
  (if_neg (by simp [half, sending])).trans (if_pos late)

end

theorem exec_backoffExpiry_retries {t : Nat} {s : State} (waits : s.mgt.backoffUntil = some t) :
    exec .backoffExpiry s = .next (mgtStart (modMgt (fun m => { m with backoffUntil := none }) (advanceTo t s))) := by
  rw [exec_backoffExpiry, execBackoffExpiry, waits]

/-- A frame that deferred starts after the gap. -/
theorem exec_mgtCarrierDrop_starts {s : State} (carrier : s.mgt.carrier = true) (half : mgtHalf s = true) (queued : s.mgt.queue ≠ []) :
    exec .mgtCarrierDrop s = .next (mgtStart (advanceTo (s.elapsed + bitTime s 96) (modMgt (fun m => { m with carrier := false }) s))) :=
  (if_pos carrier).trans (congrArg Host.Outcome.next (if_pos (by simp [half, queued])))

/-! ### The link (R225) -/

theorem exec_mgtLinkUp_down {s : State} (down : s.mgt.linkUp = false) (fast : fastRuns s = true) (rgmii : mgtRmii s = false) :
    exec .mgtLinkUp s = .next (raise 0x5 0x01 0 .device (modMgt (fun m => { m with linkUp := true }) s)) :=
  if_neg (by simp [down, fast, rgmii])

theorem exec_mgtLinkDown_up {s : State} (up : s.mgt.linkUp = true) :
    exec .mgtLinkDown s = .next (raise 0x5 0x02 0 .device (mgtFlush (modMgt (fun m => { m with linkUp := false }) s))) :=
  if_pos up

/-! ### Received frames (R213, R220, R403) -/

section
variable {bytes : Bytes} {s : State} (runs : mgtRuns s = true) (full : mgtHalf s = false) (forwards : ncsiForwards s (beAt bytes 6 6) = true)
include runs full forwards

/-- In full duplex a frame is judged by its size, its FCS and its type. -/
theorem exec_mgtFrameRx_runs (fcsOk : Bool) :
    exec (.mgtFrameRx bytes fcsOk) s = if bytes.length + 4 < 64 ∨ 1522 < bytes.length + 4 then .next (mgtStat 3 s)
      else if !fcsOk then .next (mgtStat 2 s)
      else if beAt bytes 12 2 = 0x8808 ∧ beAt bytes 14 2 = 1 then .next (mgtPause bytes s)
      else .next (mgtDeliver bytes (mgtStat 1 s)) := by
  rw [exec_mgtFrameRx, execMgtFrameRx]
  simp only [full, Bool.false_eq_true, if_false]
  exact if_neg (by simp [runs, forwards])

theorem exec_mgtFrameRx_short (short : bytes.length + 4 < 64) (fcsOk : Bool) :
    exec (.mgtFrameRx bytes fcsOk) s = .next (bump .MGT_STAT 3 0 1 s) :=
  (exec_mgtFrameRx_runs runs full forwards fcsOk).trans (if_pos (.inl short))

variable (whole : 64 ≤ bytes.length + 4) (fits : bytes.length + 4 ≤ 1522)
include whole fits

theorem exec_mgtFrameRx_badFcs : exec (.mgtFrameRx bytes false) s = .next (bump .MGT_STAT 2 0 1 s) :=
  (exec_mgtFrameRx_runs runs full forwards false).trans (if_neg (by omega))

theorem exec_mgtFrameRx_delivers (noControl : beAt bytes 12 2 ≠ 0x8808) :
    exec (.mgtFrameRx bytes true) s = .next (mgtDeliver bytes (bump .MGT_STAT 1 0 1 s)) :=
  (exec_mgtFrameRx_runs runs full forwards true).trans
    ((if_neg (by omega)).trans ((if_neg (by decide)).trans (if_neg (by simp [noControl]))))

end

/-! ### MDIO (R222) -/

theorem exec_mdioStart_acts {p : Path} {off : Nat} {s : State} (place : regBar p .MGT_MDIO_CTRL 0 = some off) (acts : actsAt p off s = true)
    (v : Word) : exec (.mdioStart p v) s = .next (mdioStart (asPath p) v (atWork p off s)) :=
  congrArg Host.Outcome.next (writeOf_does v (by decide) place acts _ (fun _ => rfl))

/-- A frame starts with the written fields. -/
theorem mdioStart_starts {p : Path} {v c : Word} {s : State} (may : mayWrite s p .MGT_MDIO_CTRL = true) (idle : s.mgt.mdioBusy = false)
    (written : c = applyWrite .MGT_MDIO_CTRL (reg s .MGT_MDIO_CTRL 0 0) v) :
    mdioStart p v s = emit (.mdioOut c (fld (reg s .MGT_MDIO_DATA 0 0) 15 0))
      (modMgt (fun m => { m with mdioBusy := true, mdioNoAck := false }) (setReg .MGT_MDIO_CTRL 0 0 c s)) := by
  subst written
  exact if_neg (by simp [may, idle])

theorem mdioStart_busy {s : State} (busy : s.mgt.mdioBusy = true) (p : Path) (v : Word) : mdioStart p v s = s :=
  if_pos (.inr busy)

/-- A read ends with what was read, or all ones and NO_ACK. -/
theorem exec_mdioDone_reads {s : State} (busy : s.mgt.mdioBusy = true) (reads : mdioReads s = true) (data : Option (BitVec 16)) :
    exec (.mdioDone data) s = .next (setReg .MGT_MDIO_DATA 0 0 (w32 ((data.map BitVec.toNat).getD 0xFFFF))
      (modMgt (fun m => { m with mdioBusy := false, mdioNoAck := data.isNone }) s)) := by
  rw [exec_mdioDone, execMdioDone, if_neg (by simp [busy])]
  simp only [reads, Bool.true_and, if_true]

/-! ### NC-SI (R223) -/

/-- A reset whose channel has no Configuration Required AEN is its record's and its filters', and its event. -/
theorem exec_resetChannel_resets {c : Nat} {s : State} (rmii : mgtRmii s = true) (has : ncsiHas s c = true) (fast : fastRuns s = true)
    (noAen : bitOf (ncsiCh s c).aen 1 = false) :
    exec (.resetChannel c) s =
      .next (emit (.ncsi c 0 0 []) (raise 0x5 0x04 c .device (ncsiLink (mgtLink s) (ncsiInstall c (modNcsi c (fun _ => {}) s))))) := by
  rw [exec_resetChannel, execResetChannel, if_pos ⟨rmii, has, fast⟩, ncsiReset, if_neg (by simp [noAen])]
  rfl

section
variable {id : Nat} {s : State} (rmii : mgtRmii s = true) (fast : fastRuns s = true)

/-- A command of another package is not the device's. -/
theorem exec_ncsiCommand_other (other : id / 32 ≠ s.cai.settings.ncsiPackage) (cmd : Nat) (pl : Bytes) :
    exec (.ncsiCommand id cmd pl) s = .next s :=
  if_pos (.inr (.inr other))

include rmii fast
variable {cmd : Nat} (package : id / 32 = s.cai.settings.ncsiPackage) (channel : cmd ≠ 1 ∧ cmd ≠ 2)
include package channel

theorem exec_ncsiCommand_noChannel (absent : ncsiHas s (id % 32) = false) (pl : Bytes) :
    exec (.ncsiCommand id cmd pl) s = .next (emit (.ncsi id 1 2 []) s) :=
  (if_neg (by simp [rmii, fast, package])).trans ((if_neg (by simp [channel])).trans (if_pos (by simp [absent])))

/-- A channel command acts on its channel: Clear Initial State and Reset Channel always, every other outside the Initial State. -/
theorem exec_ncsiCommand_channel (has : ncsiHas s (id % 32) = true) (pl : Bytes) :
    exec (.ncsiCommand id cmd pl) s =
      if cmd = 0x00 then .next (ncsiOk (id % 32) (modNcsi (id % 32) (fun x => { x with initial := false }) s))
      else if cmd = 0x05 then .next (ncsiOk (id % 32) (ncsiReset (id % 32) s))
      else if (ncsiCh s (id % 32)).initial then .next (ncsiReply (id % 32) 1 0x0001 [] s)
      else .next (ncsiOn (id % 32) cmd pl s) :=
  (if_neg (by simp [rmii, fast, package])).trans ((if_neg (by simp [channel])).trans (if_neg (by simp [has])))

end

/-! ### The obligation -/

/-- Settles O32, clause by clause, by the equations above. -/
theorem managementMac : Obligations.ManagementMac := by
  refine ⟨?txRefused, ?txQueues, ?sent, ?backsOff, ?late, ?backoff, ?carrier, ?linkUp, ?linkDown, ?rx, ?mdioStart, ?mdioBusy, ?mdioDone, ?reset,
    ?command, ?otherPackage⟩
  case txRefused => exact fun m rest s oldest bad => exec_mgtTx_refused oldest bad
  case txQueues =>
    exact fun m rest w x k s oldest good message named handle runs passes => exec_mgtTx_queues oldest good message named handle runs passes
  case sent => exact fun f rest s sending head => exec_mgtFrameSent_sends sending head
  case backsOff =>
    rintro n _ s half sending early again rfl
    exact ⟨_, exec_collision_backsOff half sending early again, rfl, rfl, rfl, by rw [reg_modMgt, reg_takeFree, mgtStat, reg_bump_same]⟩
  case late => exact fun n s half sending late => exec_collision_late half sending late
  case backoff => exact fun t s waits => exec_backoffExpiry_retries waits
  case carrier => exact fun s carrier half queued => exec_mgtCarrierDrop_starts carrier half queued
  case linkUp => exact fun s down fast rgmii => exec_mgtLinkUp_down down fast rgmii
  case linkDown => exact fun s up => exec_mgtLinkDown_up up
  case rx =>
    exact fun bytes s runs full forwards => ⟨fun whole fits => exec_mgtFrameRx_badFcs runs full forwards whole fits,
      fun whole fits noControl => exec_mgtFrameRx_delivers runs full forwards whole fits noControl,
      fun short => exec_mgtFrameRx_short runs full forwards short true⟩
  case mdioStart =>
    rintro p off v c s0 _ place acts rfl may idle written
    rw [exec_mdioStart_acts place acts, mdioStart_starts may idle written]
  case mdioBusy =>
    rintro p off v s0 _ place acts rfl busy
    rw [exec_mdioStart_acts place acts, mdioStart_busy busy]
  case mdioDone => exact fun data s busy reads => exec_mdioDone_reads busy reads data
  case reset =>
    rintro c s _ rmii has fast noAen rfl
    exact exec_resetChannel_resets rmii has fast noAen
  case command =>
    rintro id _ pl s rmii fast package rfl
    have acts {cmd : Nat} (channel : cmd ≠ 1 ∧ cmd ≠ 2) := exec_ncsiCommand_channel rmii fast package channel
    refine ⟨fun absent => exec_ncsiCommand_noChannel rmii fast package (by decide) absent pl, fun has => ?clear, fun has initial => ?refused,
      fun has left => ?enable⟩
    case clear => exact (acts (by decide) has pl).trans (if_pos rfl)
    case refused => exact (acts (by decide) has pl).trans ((if_neg (by decide)).trans ((if_neg (by decide)).trans (if_pos initial)))
    case enable => exact (acts (by decide) has pl).trans ((if_neg (by decide)).trans ((if_neg (by decide)).trans (if_neg (by simp [left]))))
  case otherPackage => exact fun id cmd pl s _ _ other => exec_ncsiCommand_other other cmd pl

end Sys2Proof.Machine
end

section
/-!
SUPPORT. The microwords of the parse engines: the registers of an engine, what a word's slots write, an equation for each way in which a word
ends (a trap, RESUME, END, or the next word), and the statements O11, O14 and O15 (R234 to R245).
-/
namespace Sys2Proof.Machine

/-! ### The registers of an engine (R231) -/

/-- A register other than G0 reads as it was written, in 32 bits. -/
theorem greg_setG_same {r : Nat} {e : Engine} (nz : r ≠ 0) (fits : r < e.g.length) (v : Nat) : greg (setG r v e) r = v % 2 ^ 32 := by
  simp [greg, setG, nz, fits]

/-- A write leaves every other register. -/
theorem greg_setG_other {r i : Nat} (other : i ≠ r) (v : Nat) (e : Engine) : greg (setG r v e) i = greg e i := by
  unfold setG
  split
  · rfl
  · simp [greg, List.getD, List.getElem?_set_ne other.symm]

@[simp] theorem setG_length (r v : Nat) (e : Engine) : (setG r v e).g.length = e.g.length := by
  unfold setG
  split
  · rfl
  · exact List.length_set ..

/-- A register write leaves everything else of the engine. -/
@[simp] theorem setG_fields (r v : Nat) (e : Engine) :
    (setG r v e).hv = e.hv ∧ (setG r v e).fed = e.fed ∧ (setG r v e).marks = e.marks ∧ (setG r v e).marked = e.marked ∧
    (setG r v e).traps = e.traps := by
  unfold setG
  split <;> exact ⟨rfl, rfl, rfl, rfl, rfl⟩

/-! ### Trap entry (R243, R245) -/

/-- The engine at the first word of a handler. -/
def trapped (e : Engine) (w cause sub : Nat) : Engine :=
  { setG 14 (cause + at_ 8 (sub % 65536)) (setG 15 e.pc { e with cycles := e.cycles + wordCycles w, traps := e.traps + 1 }) with
    saved := some (e.pc, e.cursor, e.depth, greg e 14, greg e 15)
    pc := cause }

/-- A trap outside a handler enters one (R243). -/
theorem takeTrap_enters {e : Engine} (out : e.saved = none) (k w cause sub : Nat) (s : State) :
    takeTrap k e w cause sub s = putEngine k (trapped e w cause sub) s := by
  simp [takeTrap, out, trapped]

/-- A trap in a handler ends the parse (R245). -/
theorem takeTrap_inHandler {e : Engine} (handler : e.saved.isSome = true) (k w cause sub : Nat) (s : State) :
    takeTrap k e w cause sub s = endParse k { e with cycles := e.cycles + wordCycles w, traps := e.traps + 1 } 1 0x81
      (noteCount e.frame 4 (raise 0x6 0x04 e.entry .device s)) := by
  simp [takeTrap, handler, prsEvent]

section
variable {e : Engine} (w cause sub : Nat)

theorem greg_trapped_14 (fits : 16 ≤ e.g.length) : greg (trapped e w cause sub) 14 = (cause + at_ 8 (sub % 65536)) % 2 ^ 32 :=
  greg_setG_same (by decide) (by rw [setG_length]; exact Nat.lt_of_lt_of_le (by decide) fits) _

theorem greg_trapped_15 (fits : 16 ≤ e.g.length) : greg (trapped e w cause sub) 15 = e.pc % 2 ^ 32 :=
  (greg_setG_other (by decide) ..).trans (greg_setG_same (by decide) fits _)

/-- A trap loads G14 and G15 alone. -/
theorem greg_trapped_lower {i : Nat} (low : i < 14) : greg (trapped e w cause sub) i = greg e i :=
  (greg_setG_other (Nat.ne_of_lt low) ..).trans (greg_setG_other (Nat.ne_of_lt (Nat.lt_succ_of_lt low)) ..)

/-- A trap counts, and leaves the header vector and the hash accumulator. -/
theorem trapped_keeps :
    (trapped e w cause sub).traps = e.traps + 1 ∧ (trapped e w cause sub).hv = e.hv ∧ (trapped e w cause sub).fed = e.fed := by
  simp [trapped]

end

/-- A cause and a sub-code lie side by side in G14, and fill 24 bits of it. -/
theorem cause_subCode_word {cause sub : Nat} (c : cause < 256) (b : sub < 65536) :
    (cause + at_ 8 (sub % 65536)) % 2 ^ 32 = cause + 256 * sub := by
  rw [at_, Nat.shiftLeft_eq]
  omega

/-! ### RESUME (R244) -/

section
variable (w : Nat) (sv : Nat × Nat × Nat × Nat × Nat) {x : Engine}

theorem greg_resume_14 (fits : 14 < x.g.length) : greg (resume w sv x) 14 = sv.2.2.2.1 % 2 ^ 32 :=
  greg_setG_same (by decide) (by rwa [setG_length]) _

theorem greg_resume_15 (fits : 15 < x.g.length) : greg (resume w sv x) 15 = sv.2.2.2.2 % 2 ^ 32 :=
  (greg_setG_other (by decide) ..).trans (greg_setG_same (by decide) fits _)

/-- RESUME restores G14 and G15 alone of the registers. -/
theorem greg_resume_lower {i : Nat} (low : i < 14) : greg (resume w sv x) i = greg x i :=
  (greg_setG_other (Nat.ne_of_lt low) ..).trans (greg_setG_other (Nat.ne_of_lt (Nat.lt_succ_of_lt low)) ..)

/-- RESUME leaves the header vector, the hash accumulator and the marks. -/
@[simp] theorem resume_keeps :
    (resume w sv x).hv = x.hv ∧ (resume w sv x).fed = x.fed ∧ (resume w sv x).marks = x.marks ∧ (resume w sv x).marked = x.marked := by
  simp [resume]

end

/-- Outside a handler a RESUME word is illegal. -/
theorem trapOf_resume_outside {e : Engine} {w : Nat} (aux : mw w 52 49 = 5) (out : e.saved = none) : trapOf e w = some (2, 0) := by
  have illegal : illegalWord e w = true := by simp [illegalWord, aux, out]
  rw [trapOf, if_pos illegal]

/-! ### A word that takes no trap (R234, R239) -/

/-- The engine and the state after the slots of a word but its branch: as they were where the predicate fails. -/
def acts (e : Engine) (w : Nat) (s : State) : Engine × State := if predOk e w then slots e w s else (e, s)

theorem acts_predicate {e : Engine} {w : Nat} (ok : predOk e w = true) (s : State) : acts e w s = slots e w s := if_pos ok

theorem acts_noPredicate {e : Engine} {w : Nat} (fails : predOk e w = false) (s : State) : acts e w s = (e, s) := if_neg (by simp [fails])

/-- The engine at the word after w, which began as e and whose slots made it y. -/
def wentOn (e : Engine) (w : Nat) (s : State) (y : Engine) : Engine :=
  { y with
    cycles := e.cycles + wordCycles w
    pc := (branch s e w).1
    stack := (branch s e w).2.1
    depth := (branch s e w).2.2 }

/-- Outside a handler a word that is not END goes on by its branch. -/
theorem runWord_goesOn {e : Engine} {w : Nat} (out : e.saved = none) (br : mw w 191 189 ≠ 7) (k : Nat) (s : State) :
    runWord k e w s = putEngine k (wentOn e w s (acts e w s).1) (acts e w s).2 := by
  simp only [runWord, out, if_neg br]
  rfl

/-- An END word ends the parse, in a handler too where it does not resume. -/
theorem runWord_ends {e : Engine} {w : Nat} (stays : e.saved = none ∨ predOk e w = false) (br : mw w 191 189 = 7) (k : Nat) (s : State) :
    runWord k e w s =
      endParse k { (acts e w s).1 with cycles := e.cycles + wordCycles w } (mw w 184 181) (mw w 175 168) (acts e w s).2 := by
  unfold runWord
  split
  · next handler =>
    have fails : predOk e w = false := stays.resolve_left (by simp [handler])
    rw [if_neg (by simp [fails]), if_pos br]
    rfl
  · exact if_pos br

/-- In a handler a RESUME word gives back what was saved. -/
theorem runWord_resumes {e : Engine} {w : Nat} {sv : Nat × Nat × Nat × Nat × Nat} (handler : e.saved = some sv) (ok : predOk e w = true)
    (aux : mw w 52 49 = 5) (k : Nat) (s : State) :
    runWord k e w s = putEngine k (resume w sv { (slots e w s).1 with cycles := e.cycles + wordCycles w }) (slots e w s).2 := by
  simp [runWord, handler, ok, aux]

/-! ### A microword's command (R240) -/

theorem hasBr_iff {n w : Nat} : hasBr n w = true ↔ mw w 191 189 = n := beq_iff_eq

theorem hasAlu_iff {n w : Nat} : hasAlu n w = true ↔ mw w 127 124 = n := beq_iff_eq

theorem hasAux_iff {n w : Nat} : hasAux n w = true ↔ mw w 52 49 = n := beq_iff_eq

section
variable {k w : Nat} {e : Engine} {s : State} {p : Nat → Bool} (at_k : mfind s.prs.engines k = some e) (word : w = wordAt s e.pc)
  (budget : e.cycles < 64) (has : p w = true)
include at_k word budget has

/-- A word that traps takes its trap. -/
theorem microword_traps {t : Nat × Nat} (traps : trapOf e w = some t) : microword p k s = takeTrap k e w t.1 t.2 s := by
  subst word
  simp [microword, at_k, has, Nat.not_le.mpr budget, traps]

/-- A word that takes no trap executes whole. -/
theorem microword_runs (noTrap : trapOf e w = none) : microword p k s = runWord k e w s := by
  subst word
  simp [microword, at_k, has, Nat.not_le.mpr budget, noTrap]

end

section
variable {k w : Nat} {e : Engine} {s : State} (at_k : mfind s.prs.engines k = some e) (word : w = wordAt s e.pc) (budget : e.cycles < 64)
  (noTrap : trapOf e w = none)
include at_k word budget noTrap

/-- RESUME in a handler goes back with what its other slots did. -/
theorem exec_microResume_resumes {sv : Nat × Nat × Nat × Nat × Nat} (handler : e.saved = some sv) (ok : predOk e w = true) (aux : mw w 52 49 = 5) :
    exec (.microResume k) s =
      .next (putEngine k (resume w sv { (slots e w s).1 with cycles := e.cycles + wordCycles w }) (slots e w s).2) :=
  congrArg Host.Outcome.next
    ((microword_runs at_k word budget (hasAux_iff.mpr aux) noTrap).trans (runWord_resumes handler ok aux k s))

/-- An END word whose predicate fails ends the parse by its branch alone, also in a handler. -/
theorem exec_microEnd_noPredicate (fails : predOk e w = false) (br : mw w 191 189 = 7) :
    exec (.microEnd k) s = .next (endParse k { e with cycles := e.cycles + wordCycles w } (mw w 184 181) (mw w 175 168) s) := by
  have ends := runWord_ends (.inr fails) br k s
  rw [acts_noPredicate fails] at ends
  exact congrArg Host.Outcome.next ((microword_runs at_k word budget (hasBr_iff.mpr br) noTrap).trans ends)

end

/-! ### The obligations of traps -/

/-- Settles O11: the engine of a handler's first word is `trapped`. -/
theorem trapEntry : Obligations.TrapEntry := by
  refine ⟨fun k w cause sub e s out regs pc c b => ?_, fun w sv x => ?_⟩
  · have fits : 16 ≤ e.g.length := Nat.le_of_eq regs.symm
    obtain ⟨traps, hv, fed⟩ := trapped_keeps (e := e) w cause sub
    rw [takeTrap_enters out]
    refine ⟨_, mfind_putEngine_same .., rfl, ?g14, ?g15, traps, hv, fed, fun i low => greg_trapped_lower w cause sub low⟩
    case g14 => exact (greg_trapped_14 w cause sub fits).trans (cause_subCode_word c b)
    case g15 => exact (greg_trapped_15 w cause sub fits).trans (Nat.mod_eq_of_lt (Nat.lt_trans pc (by decide)))
  · obtain ⟨hv, fed, -, -⟩ := resume_keeps w sv (x := x)
    exact ⟨hv, fed⟩

/-- Settles O14, by the equation of RESUME in a handler. -/
theorem resumeWord : Obligations.ResumeWord := by
  refine ⟨fun w e => trapOf_resume_outside, ?_⟩
  rintro k w e _ sv s at_k word budget handler noTrap ok aux rfl regs
  obtain ⟨hv, fed, marks, marked⟩ := resume_keeps w sv (x := { (slots e w s).1 with cycles := e.cycles + wordCycles w })
  exact ⟨_, _, exec_microResume_resumes at_k word budget noTrap handler ok aux, mfind_putEngine_same .., rfl, rfl, rfl,
    greg_resume_14 w sv (regs.symm ▸ by decide), greg_resume_15 w sv (regs.symm ▸ by decide), fun i low => greg_resume_lower w sv low,
    hv, fed, marks, marked, rfl⟩

/-- Settles O15, by the equations of a trap and of END in a handler. -/
theorem doubleTrap : Obligations.DoubleTrap :=
  ⟨fun k w cause sub _ s handler => takeTrap_inHandler handler k w cause sub s,
    fun _ _ _ _ _ at_k word budget _ noTrap fails br => exec_microEnd_noPredicate at_k word budget noTrap fails br⟩

end Sys2Proof.Machine
end

section
/-!
SUPPORT. What the slots of a word make of its engine (R234, R236, R238), and the statements O33 and O34.
-/
namespace Sys2Proof.Machine

/-! ### The slots of a word (R234, R238) -/

/-- The engine after the extracts, LD, ST, the ALU and the cursor of a word. -/
def written (e : Engine) (w : Nat) : Engine :=
  { regWrites e w { e with hv := hvWrites e w, fed := (e.fed ++ hashFeed e w).take 64 } with cursor := nextCursor e w }

/-- The engine after a FRAG word. -/
def fragged (e : Engine) (w : Nat) (s : State) : Engine :=
  { setG 12 (fragTable e (mw w 48 45 == 1) s).2.1 (setG 13 (fragTable e (mw w 48 45 == 1) s).1 (written e w)) with
    fragResult := (fragTable e (mw w 48 45 == 1) s).1 }

section
variable {w : Nat} (e : Engine) (s : State)

theorem slots_noAux (aux : mw w 52 49 = 0) : slots e w s = (written e w, s) := by
  simp [slots, written, aux]

theorem slots_mark (aux : mw w 52 49 = 1) :
    slots e w s = ({ written e w with
      marks := (written e w).marks.set (mw w 47 45) e.cursor
      marked := (written e w).marked ||| 2 ^ mw w 47 45 }, s) := by
  simp [slots, written, aux]

theorem slots_frag (aux : mw w 52 49 = 2) : slots e w s = (fragged e w s, (fragTable e (mw w 48 45 == 1) s).2.2) := by
  simp [slots, written, fragged, aux]

theorem slots_hashreg (aux : mw w 52 49 = 3) : slots e w s = (written e w, s) := by
  simp [slots, written, aux]

theorem slots_hashrst (aux : mw w 52 49 = 6) : slots e w s = ({ written e w with fed := [] }, s) := by
  simp [slots, written, aux]

end

/-- LD and the ALU write registers alone, and no register is added. -/
@[simp] theorem regWrites_keeps (e : Engine) (w : Nat) (x : Engine) :
    (regWrites e w x).fed = x.fed ∧ (regWrites e w x).marks = x.marks ∧ (regWrites e w x).marked = x.marked := by
  by_cases ld : bitOf w 143 <;> by_cases alu : mw w 127 124 = 0 <;> simp [regWrites, ld, alu]

@[simp] theorem written_marks (e : Engine) (w : Nat) : (written e w).marks = e.marks ∧ (written e w).marked = e.marked := by
  simp [written]

/-- Without extracts only HASHREG feeds the hash, with its register (R238). -/
theorem written_fed_hashreg {e : Engine} {w : Nat} (xa : bitOf w 167 = false) (xb : bitOf w 44 = false) (aux : mw w 52 49 = 3) :
    (written e w).fed = (e.fed ++ beBytes 4 (greg e (mw w 48 45))).take 64 := by
  simp [written, hashFeed, xa, xb, aux]

/-! ### The ALU (R236) -/

/-- Operand B: the immediate, or a register. -/
def aluB (e : Engine) (w : Nat) : Nat := if bitOf w 115 then mw w 114 83 else greg e (mw w 86 83)

/-- The ALU's result lands in its destination, after LD's. -/
theorem greg_written_alu {e : Engine} {w : Nat} (op : mw w 127 124 ≠ 0) (nz : mw w 123 120 ≠ 0) (fits : mw w 123 120 < e.g.length) :
    greg (written e w) (mw w 123 120) = aluResult (mw w 127 124) (greg e (mw w 119 116)) (aluB e w) % 2 ^ 32 := by
  have last (x : Engine) (len : x.g.length = e.g.length) :
      greg (setG (mw w 123 120) (aluResult (mw w 127 124) (greg e (mw w 119 116)) (aluB e w)) x) (mw w 123 120) =
        aluResult (mw w 127 124) (greg e (mw w 119 116)) (aluB e w) % 2 ^ 32 :=
    greg_setG_same nz (len.symm ▸ fits) _
  simp only [written, regWrites, if_neg op]
  exact last _ (by split <;> simp)

/-- Without LD an ALU word for G0 writes no register. -/
theorem written_noDestination {e : Engine} {w : Nat} (dst : mw w 123 120 = 0) (ld : bitOf w 143 = false) : (written e w).g = e.g := by
  simp [written, regWrites, ld, dst, setG]

/-- The commands of the ALU's operations. -/
def aluCommands (k : Nat) : List (Nat × Instr) :=
  [(1, .microAdd k), (2, .microSub k), (3, .microAnd k), (4, .microOr k), (5, .microXor k), (6, .microShl k), (7, .microShr k), (8, .microMov k),
    (9, .microBfx k), (10, .microSeq k), (11, .microSlt k), (12, .microMin k), (13, .microMax k), (14, .microCsum k)]

/-- Each executes a word with its operation. -/
theorem aluCommands_run (k : Nat) (s : State) : ∀ q ∈ aluCommands k, exec q.2 s = .next (microword (hasAlu q.1) k s) := by
  simp only [aluCommands, List.forall_mem_cons, List.not_mem_nil, false_implies, implies_true, and_true]
  exact ⟨rfl, rfl, rfl, rfl, rfl, rfl, rfl, rfl, rfl, rfl, rfl, rfl, rfl, rfl⟩

/-! ### The branch (R235) -/

section
variable {w : Nat} (s : State) (e : Engine)

theorem branch_next (br : mw w 191 189 = 0) : branch s e w = ((e.pc + 1) % 8192, e.stack, e.depth) := by simp [branch, br]

theorem branch_jump (br : mw w 191 189 = 1) : branch s e w = (mw w 180 168, e.stack, e.depth) := by simp [branch, br]

theorem branch_jz (br : mw w 191 189 = 2) :
    branch s e w = (if greg e (mw w 188 185) = 0 then mw w 180 168 else (e.pc + 1) % 8192, e.stack, e.depth) := by simp [branch, br]

theorem branch_jnz (br : mw w 191 189 = 3) :
    branch s e w = (if greg e (mw w 188 185) ≠ 0 then mw w 180 168 else (e.pc + 1) % 8192, e.stack, e.depth) := by simp [branch, br]

theorem branch_match (br : mw w 191 189 = 4) : branch s e w = (matchTarget s e w, e.stack, e.depth) := by simp [branch, br]

theorem branch_call (br : mw w 191 189 = 5) :
    branch s e w = (mw w 180 168, e.stack.set e.depth ((e.pc + 1) % 8192), e.depth + 1) := by simp [branch, br]

theorem branch_ret (br : mw w 191 189 = 6) : branch s e w = (e.stack.getD (e.depth - 1) 0, e.stack, e.depth - 1) := by simp [branch, br]

end

/-! ### A word outside a handler that goes on -/

section
variable {k w : Nat} {e : Engine} {s : State} {i : Instr} {p : Nat → Bool} (at_k : mfind s.prs.engines k = some e) (word : w = wordAt s e.pc)
  (budget : e.cycles < 64) (out : e.saved = none) (noTrap : trapOf e w = none)
include at_k word budget out noTrap

/-- The command of a word that is not END leaves the engine at the next word. -/
theorem exec_goesOn (br : mw w 191 189 ≠ 7) (runs : exec i s = .next (microword p k s)) (has : p w = true) :
    ∃ t, exec i s = .next t ∧ mfind t.prs.engines k = some (wentOn e w s (acts e w s).1) := by
  refine ⟨_, runs, ?_⟩
  rw [microword_runs at_k word budget has noTrap, runWord_goesOn out br]
  exact mfind_putEngine_same ..

/-- A branch that is not END goes where `branch` says. -/
theorem exec_branches {n pc depth : Nat} {stack : List Nat} (runs : exec i s = .next (microword (hasBr n) k s)) (br : mw w 191 189 = n)
    (go : n ≠ 7) (goes : branch s e w = (pc, stack, depth)) :
    ∃ t x, exec i s = .next t ∧ mfind t.prs.engines k = some x ∧ x.pc = pc ∧ x.stack = stack ∧ x.depth = depth := by
  obtain ⟨t, run, found⟩ := exec_goesOn at_k word budget out noTrap (br ▸ go) runs (hasBr_iff.mpr br)
  exact ⟨t, _, run, found, congrArg Prod.fst goes, congrArg (·.2.1) goes, congrArg (·.2.2) goes⟩

section
variable {op : Nat} (br : mw w 191 189 = 0) (aux : mw w 52 49 = 0) (runs : exec i s = .next (microword (hasAlu op) k s)) (alu : mw w 127 124 = op)
include br aux runs alu

/-- An ALU word writes the result of its operation, cut to 32 bits (R236). -/
theorem exec_alu_writes {v : Nat} (ok : predOk e w = true) (nz : mw w 123 120 ≠ 0) (fits : mw w 123 120 < e.g.length) (isOp : op ≠ 0)
    (result : aluResult op (greg e (mw w 119 116)) (aluB e w) % 2 ^ 32 = v) :
    ∃ t x, exec i s = .next t ∧ mfind t.prs.engines k = some x ∧ greg x (mw w 123 120) = v ∧ x.pc = (e.pc + 1) % 8192 := by
  obtain ⟨t, run, found⟩ := exec_goesOn at_k word budget out noTrap (br ▸ by decide) runs (hasAlu_iff.mpr alu)
  rw [acts_predicate ok, slots_noAux e s aux] at found
  have value : greg (written e w) (mw w 123 120) = v := by
    rw [greg_written_alu (alu ▸ isOp) nz fits, alu, result]
  exact ⟨t, _, run, found, value, congrArg Prod.fst (branch_next s e br)⟩

/-- Where the predicate fails, or for G0 without LD, it writes no register. -/
theorem exec_alu_silent (silent : predOk e w = false ∨ (mw w 123 120 = 0 ∧ bitOf w 143 = false)) :
    ∃ t x, exec i s = .next t ∧ mfind t.prs.engines k = some x ∧ x.g = e.g ∧ x.pc = (e.pc + 1) % 8192 ∧ x.cycles = e.cycles + 1 := by
  obtain ⟨t, run, found⟩ := exec_goesOn at_k word budget out noTrap (br ▸ by decide) runs (hasAlu_iff.mpr alu)
  have regs : (acts e w s).1.g = e.g := by
    cases ok : predOk e w with
    | false => rw [acts_noPredicate ok]
    | true =>
      obtain ⟨dst, ld⟩ := silent.resolve_left (by simp [ok])
      rw [acts_predicate ok, slots_noAux e s aux]
      exact written_noDestination dst ld
  exact ⟨t, _, run, found, regs, congrArg Prod.fst (branch_next s e br), congrArg (e.cycles + ·) (if_neg (by simp [aux]))⟩

end

end

/-- TRAP enters the handler of SOFT, at word 3, with its argument for sub-code (R242, R243). -/
theorem exec_microTrap_enters {k w : Nat} {e : Engine} {s : State} (at_k : mfind s.prs.engines k = some e) (word : w = wordAt s e.pc)
    (budget : e.cycles < 64) (out : e.saved = none) (traps : trapOf e w = some (3, mw w 48 45)) (aux : mw w 52 49 = 4) :
    exec (.microTrap k) s = .next (putEngine k (trapped e w 3 (mw w 48 45)) s) :=
  congrArg Host.Outcome.next
    ((microword_traps at_k word budget (hasAux_iff.mpr aux) traps).trans (takeTrap_enters out ..))

/-- 64 cycles end the parse (R240). -/
theorem exec_microBudget_spent {k : Nat} {e : Engine} {s : State} (at_k : mfind s.prs.engines k = some e) (spent : 64 ≤ e.cycles) :
    exec (.microBudget k) s = .next (endParse k e 1 0x80 (noteCount e.frame 3 (raise 0x6 0x03 e.entry .device s))) := by
  simp only [exec_microBudget, execMicroBudget, at_k, if_neg (Nat.not_lt.mpr spent)]
  rfl

/-! ### The obligations -/

/-- A comparison's result is a single bit. -/
theorem b2n_decide_mod (c : Prop) [Decidable c] : b2n (decide c) % 2 ^ 32 = if c then 1 else 0 := by
  by_cases h : c <;> simp [b2n, h]

/-- Settles O33: each command writes what `aluResult` gives for its operation. -/
theorem microwordAlu : Obligations.MicrowordAlu := by
  refine ⟨?writes, ?silent⟩
  case writes =>
    rintro k w _ _ _ e s at_k word budget out noTrap ok br aux rfl rfl rfl nz fits
    have writes {i : Instr} {op v : Nat} (runs : exec i s = .next (microword (hasAlu op) k s)) (isOp : op ≠ 0)
        (result : aluResult op (greg e (mw w 119 116)) (aluB e w) % 2 ^ 32 = v) (alu : mw w 127 124 = op) :=
      exec_alu_writes at_k word budget out noTrap br aux runs alu ok nz fits isOp result
    exact ⟨writes (exec_microAdd ..) (by decide) (Nat.mod_mod ..),
      writes (exec_microSub ..) (by decide) (Nat.mod_eq_of_lt (BitVec.isLt _)),
      writes (exec_microAnd ..) (by decide) rfl,
      writes (exec_microOr ..) (by decide) rfl,
      writes (exec_microXor ..) (by decide) rfl,
      writes (exec_microShl ..) (by decide) (Nat.mod_mod ..),
      writes (exec_microShr ..) (by decide) rfl,
      writes (exec_microMov ..) (by decide) rfl,
      writes (exec_microBfx ..) (by decide) rfl,
      writes (exec_microSeq ..) (by decide) (b2n_decide_mod _),
      writes (exec_microSlt ..) (by decide) (b2n_decide_mod _),
      writes (exec_microMin ..) (by decide) rfl,
      writes (exec_microMax ..) (by decide) rfl,
      writes (exec_microCsum ..) (by decide) rfl⟩
  case silent =>
    exact fun q k w e s command at_k word budget out noTrap br aux alu silent =>
      exec_alu_silent at_k word budget out noTrap br aux (aluCommands_run k s q command) alu silent

/-- Settles O34, clause by clause: the branches, END, the AUX slots, TRAP, RESUME and the budget. -/
theorem microwordBranchesAndSlots : Obligations.MicrowordBranchesAndSlots := by
  refine ⟨?branches, ?ends, ?aux, ?trap, ?resume, ?budget⟩
  case branches =>
    intro k w e s at_k word budget out noTrap
    have branches {i : Instr} {n pc depth : Nat} {stack : List Nat} (runs : exec i s = .next (microword (hasBr n) k s)) (go : n ≠ 7)
        (goes : mw w 191 189 = n → branch s e w = (pc, stack, depth)) (br : mw w 191 189 = n) :=
      exec_branches at_k word budget out noTrap runs br go (goes br)
    refine ⟨fun br => ?next, fun br => ?jump, fun br => ?jz, fun br => ?jnz, fun br => ?mtch, fun br => ?call, fun br => ?ret⟩
    case next =>
      obtain ⟨t, x, run, found, pc, -, depth⟩ := branches (exec_microNext ..) (by decide) (branch_next s e) br
      exact ⟨t, x, run, found, pc, depth⟩
    case jump =>
      obtain ⟨t, x, run, found, pc, -, depth⟩ := branches (exec_microJump ..) (by decide) (branch_jump s e) br
      exact ⟨t, x, run, found, pc, depth⟩
    case jz =>
      obtain ⟨t, x, run, found, pc, -⟩ := branches (exec_microJz ..) (by decide) (branch_jz s e) br
      exact ⟨t, x, run, found, pc⟩
    case jnz =>
      obtain ⟨t, x, run, found, pc, -⟩ := branches (exec_microJnz ..) (by decide) (branch_jnz s e) br
      exact ⟨t, x, run, found, pc⟩
    case mtch =>
      obtain ⟨t, x, run, found, pc, -⟩ := branches (exec_microMatch ..) (by decide) (branch_match s e) br
      exact ⟨t, x, run, found, pc⟩
    case call => exact branches (exec_microCall ..) (by decide) (branch_call s e) br
    case ret =>
      obtain ⟨t, x, run, found, pc, -, depth⟩ := branches (exec_microRet ..) (by decide) (branch_ret s e) br
      exact ⟨t, x, run, found, pc, depth⟩
  case ends =>
    exact fun _ _ _ _ at_k word budget _ noTrap fails br => exec_microEnd_noPredicate at_k word budget noTrap fails br
  case aux =>
    intro k w e s at_k word budget out noTrap ok br xa xb _
    have goesOn {i : Instr} {n : Nat} {y : Engine} {u : State} (runs : exec i s = .next (microword (hasAux n) k s)) (aux : mw w 52 49 = n)
        (made : slots e w s = (y, u)) : ∃ t, exec i s = .next t ∧ mfind t.prs.engines k = some (wentOn e w s y) := by
      have goes := exec_goesOn at_k word budget out noTrap (br ▸ by decide) runs (hasAux_iff.mpr aux)
      rwa [acts_predicate ok, made] at goes
    obtain ⟨marks, marked⟩ := written_marks e w
    refine ⟨fun aux => ?mark, fun aux => ?frag, fun aux => ?hashreg, fun aux => ?hashrst⟩
    case mark =>
      obtain ⟨t, run, found⟩ := goesOn (exec_microMark ..) aux (slots_mark e s aux)
      exact ⟨t, _, run, found, congrArg (List.set · ..) marks, congrArg (· ||| 2 ^ mw w 47 45) marked⟩
    case frag =>
      obtain ⟨t, run, found⟩ := goesOn (exec_microFrag ..) aux (slots_frag e s aux)
      exact ⟨t, _, run, found, rfl, congrArg (e.cycles + ·) (if_pos aux)⟩
    case hashreg =>
      obtain ⟨t, run, found⟩ := goesOn (exec_microHashreg ..) aux (slots_hashreg e s aux)
      exact ⟨t, _, run, found, written_fed_hashreg xa xb aux⟩
    case hashrst =>
      obtain ⟨t, run, found⟩ := goesOn (exec_microHashrst ..) aux (slots_hashrst e s aux)
      exact ⟨t, _, run, found, rfl⟩
  case trap =>
    intro k w e s at_k word budget out traps aux fits
    exact ⟨_, _, exec_microTrap_enters at_k word budget out traps aux, mfind_putEngine_same .., rfl, greg_trapped_15 w 3 _ fits,
      greg_trapped_14 w 3 _ fits, rfl, (trapped_keeps w 3 _).1⟩
  case resume =>
    exact fun _ _ _ _ _ at_k word budget handler noTrap ok aux =>
      ⟨_, _, exec_microResume_resumes at_k word budget noTrap handler ok aux, mfind_putEngine_same .., rfl, rfl, rfl, rfl⟩
  case budget => exact fun _ _ _ at_k spent => exec_microBudget_spent at_k spent

end Sys2Proof.Machine
end

section
/-!
SUPPORT. Table programs: what a step of each kind does with its key, an equation for each way its lookup ends, how a frame's program begins
(R258 to R261, R267, R268, R274, R276 to R279, R291), and the statement O36.
-/
namespace Sys2Proof.Machine

/-! ### A frame at a step of its program (R258) -/

section
variable {id : Nat} {f : Frame} {s : State} (at_id : frameOf s id = some f) (stage : f.stage = .table) (begun : f.begun = true)
  (forwarding : forwards s = true)
include at_id stage begun forwarding

theorem onStep_runs {k : Nat} (kind : stKind (frameStep s f) = k) (g : Frame → Nat → State → State) :
    onStep id k g s = g f (frameStep s f) s := by
  simp [onStep, at_id, stage, begun, forwarding, kind]

theorem exec_vportStep_looks (kind : stKind (frameStep s f) = 1) :
    exec (.vportStep id) s = .next (vportLookup id f (frameStep s f) s) :=
  congrArg Host.Outcome.next (onStep_runs at_id stage begun forwarding kind _)

theorem exec_tunnelStep_looks (kind : stKind (frameStep s f) = 2) :
    exec (.tunnelStep id) s = .next (tunnelLookup id f (frameStep s f) s) :=
  congrArg Host.Outcome.next (onStep_runs at_id stage begun forwarding kind _)

theorem exec_flowStep_looks (kind : stKind (frameStep s f) = 3) :
    exec (.flowStep id) s = .next (flowLookup id f (frameStep s f) s) :=
  congrArg Host.Outcome.next (onStep_runs at_id stage begun forwarding kind _)

theorem exec_lpmStep_looks (kind : stKind (frameStep s f) = 4) :
    exec (.lpmStep id) s = .next (lpmLookup id f (frameStep s f) s) :=
  congrArg Host.Outcome.next (onStep_runs at_id stage begun forwarding kind _)

theorem exec_aclStep_looks (kind : stKind (frameStep s f) = 5) :
    exec (.aclStep id) s = .next (aclLookup id f (frameStep s f) s) :=
  congrArg Host.Outcome.next (onStep_runs at_id stage begun forwarding kind _)

end

/-! ### VPORT and TUNNEL: an entry named by index (R267, R268) -/

section
variable {f : Frame} {x : Nat} {s : State} {key : Bytes} (id : Nat)

theorem vportLookup_hit (keyed : padded 2 (joined f x) = some key) (inTable : beNat key < 4096)
    (valid : bitOf (byteAt (stored s 3 (beNat key)) 6) 0 = true) :
    vportLookup id f x s =
      hit id (if bitOf (byteAt (stored s 3 (beNat key)) 15) 7 then none else actionList s (leAt (stored s 3 (beNat key)) 12 3))
        (fun c => { c with srcVport := beNat key, vsi := leAt (stored s 3 (beNat key)) 2 2, vrf := leAt (stored s 3 (beNat key)) 4 2,
                           user := leAt (stored s 3 (beNat key)) 16 8 }) s := by
  rw [vportLookup, keyed]
  exact if_neg (by simp [valid, inTable])

theorem vportLookup_miss (keyed : padded 2 (joined f x) = some key)
    (absent : 4096 ≤ beNat key ∨ bitOf (byteAt (stored s 3 (beNat key)) 6) 0 = false) : vportLookup id f x s = leave id false s := by
  rw [vportLookup, keyed]
  exact if_pos (by simpa using absent)

theorem tunnelLookup_hit (keyed : padded 26 (joined f x) = some key) (valid : byteAt (stored s 4 (beAt key 0 2)) 0 % 4 = 3)
    (same : slice (stored s 4 (beAt key 0 2)) 8 24 = slice key 2 24) :
    tunnelLookup id f x s = hit id none (fun c => { c with tunnel := beAt key 0 2, vsi := leAt (stored s 4 (beAt key 0 2)) 4 2 }) s := by
  rw [tunnelLookup, keyed]
  exact if_pos ⟨valid, same⟩

theorem tunnelLookup_miss (keyed : padded 26 (joined f x) = some key)
    (other : byteAt (stored s 4 (beAt key 0 2)) 0 % 4 ≠ 3 ∨ slice (stored s 4 (beAt key 0 2)) 8 24 ≠ slice key 2 24) :
    tunnelLookup id f x s = leave id false s := by
  rw [tunnelLookup, keyed]
  exact if_neg fun both => other.elim (fun no => no both.1) (fun no => no both.2)

end

/-! ### A lookup without a match, and moves in progress (R274) -/

theorem missedIn_waits {banks : List Nat} {s : State} (moving : banks.any (fun b => (moveRegOf s b).active) = true) (id : Nat) (goOn : State → State) :
    missedIn id banks goOn s = modFrame id (fun f => { f with retry := banks }) s := if_pos moving

theorem missedIn_goesOn {banks : List Nat} {s : State} (still : banks.any (fun b => (moveRegOf s b).active) = false) (id : Nat) (goOn : State → State) :
    missedIn id banks goOn s = goOn (modFrame id (fun f => { f with retry := [] }) s) := if_neg (by simp [still])

/-! ### FLOW (R276, R285) -/

section
variable {f : Frame} {x : Nat} {s : State} {k key : Bytes} (id : Nat) (keyed : padded 47 (joined f x) = some k)
  (selected : key = BitVec.ofNat 8 (stSelect x) :: k)
include keyed selected

theorem flowLookup_absent (absent : findKey s false key = none) :
    flowLookup id f x s = missedIn id [bankOfKey s false key] (leave id false) s := by
  subst selected
  simp [flowLookup, keyed, absent]

section
variable {i : Nat} {e : Bytes} (found : findKey s false key = some i) (entry : flowAt s i = some e)
include found entry

/-- HOLD of a matching entry ends the program as MISS, with its own reason. -/
theorem flowLookup_held (hold : flowFlag e 1 = true) :
    flowLookup id f x s = toChannel id (missChannel s f) 0x98 1 (some i) (setHit i (modFrame id (fun f => { f with retry := [] }) s)) := by
  subst selected
  simp [flowLookup, keyed, found, entry, hold, missedIn]

theorem flowLookup_hit (free : flowFlag e 1 = false) :
    flowLookup id f x s = hit id (some (listOf (slice e 64 64))) (fun c => c) (setHit i (modFrame id (fun f => { f with retry := [] }) s)) := by
  subst selected
  simp [flowLookup, keyed, found, entry, free, missedIn]

end

end

/-! ### LPM (R259, R278) -/

section
variable {f : Frame} {x : Nat} {s : State} {a : Bytes} (id : Nat) (keyed : joined f x = some a)
include keyed

/-- Anything but one extract of an address's length misses. -/
theorem lpmLookup_noAddress (form : stCount x ≠ 1 ∨ (a.length ≠ 4 ∧ a.length ≠ 16)) : lpmLookup id f x s = leave id false s := by
  rw [lpmLookup, keyed]
  exact if_pos form

section
variable (one : stCount x = 1) (address : a.length = 4 ∨ a.length = 16) {banks : List Nat}
  (missed : banks = missedBanks s f.ctx.vrf (b2n (a.length == 16)) (slice a 0 16))
include one address missed

theorem lpmLookup_waits (moving : banks.any (fun b => (moveRegOf s b).active) = true) :
    lpmLookup id f x s = modFrame id (fun g => { g with retry := banks }) s := by
  subst missed
  rw [lpmLookup, keyed]
  exact (if_neg (by omega)).trans (missedIn_waits moving id _)

variable {r : State} (again : r = modFrame id (fun g => { g with retry := [] }) s)
  (still : banks.any (fun b => (moveRegOf s b).active) = false)
include again still

theorem lpmLookup_hit {e : Bytes} (found : lookupRoute r f.ctx.vrf (b2n (a.length == 16)) (slice a 0 16) = some e) :
    lpmLookup id f x s = hit id (actionList r (leAt e 20 3)) (fun c => c) r := by
  subst missed again
  rw [lpmLookup, keyed]
  refine (if_neg (by omega)).trans ((missedIn_goesOn still id _).trans ?_)
  rw [found]

theorem lpmLookup_miss (absent : lookupRoute r f.ctx.vrf (b2n (a.length == 16)) (slice a 0 16) = none) : lpmLookup id f x s = leave id false r := by
  subst missed again
  rw [lpmLookup, keyed]
  refine (if_neg (by omega)).trans ((missedIn_goesOn still id _).trans ?_)
  rw [absent]

end

end

/-! ### ACL (R279) -/

section
variable {f : Frame} {x : Nat} {s : State} {key : Bytes} (id : Nat) (keyed : padded 40 (joined f x) = some key)
include keyed

theorem aclLookup_hit {e : Bytes} (found : aclMatch s (stSelect x % 64) key = some e) :
    aclLookup id f x s = hit id (actionList s (leAt e 84 3)) (fun c => c) s := by
  rw [aclLookup, keyed, Option.bind_some, found]

theorem aclLookup_miss (absent : aclMatch s (stSelect x % 64) key = none) : aclLookup id f x s = leave id false s := by
  rw [aclLookup, keyed, Option.bind_some, absent]

end

/-! ### TABLE_PROGRAM (R258, R260, R291) -/

section
variable {id : Nat} {f : Frame} {s : State} (at_id : frameOf s id = some f) (stage : f.stage = .table) (fresh : f.begun = false)
  (forwarding : forwards s = true) (ready : blockWaits s 7 = false)
include at_id stage fresh forwarding ready

theorem exec_tableProgram_gone (gone : kindGone s 6 = true ∨ unitDead s 0x700 = true) : exec (.tableProgram id) s = .next (prsGone id f s) := by
  rw [exec_tableProgram, execTableProgram, at_id]
  exact (if_neg (by simp [stage, fresh, forwarding, ready])).trans (if_pos gone)

variable (there : kindGone s 6 = false) (alive : unitDead s 0x700 = false)
include there alive

theorem exec_tableProgram_begins (unnamed : f.flowIndex = none) : exec (.tableProgram id) s = .next (beginProgram id f s) := by
  rw [exec_tableProgram, execTableProgram, at_id]
  refine (if_neg (by simp [stage, fresh, forwarding, ready])).trans ((if_neg (by simp [there, alive])).trans ?_)
  rw [unnamed]

theorem exec_tableProgram_named {i : Nat} (named : f.flowIndex = some i) : exec (.tableProgram id) s = .next (namedFlow id i s) := by
  rw [exec_tableProgram, execTableProgram, at_id]
  refine (if_neg (by simp [stage, fresh, forwarding, ready])).trans ((if_neg (by simp [there, alive])).trans ?_)
  rw [named]

end

section
variable {f : Frame} {s : State} (id : Nat)

theorem beginProgram_valid (valid : wbit (reg s .TBL_PROG_MISS (byteAt f.hv 58) 0) 31 = true) :
    beginProgram id f s = arrive id 0 (modFrame id (fun g => { g with
      begun := true, bank := dfld s .TBL_PROG_CTRL 0 0, program := byteAt f.hv 58, ctx := { srcVport := leAt g.hv 2 2 } }) s) := if_neg (by simp [valid])

theorem beginProgram_invalid (invalid : wbit (reg s .TBL_PROG_MISS (byteAt f.hv 58) 0) 31 = false) :
    beginProgram id f s = dropFrame id 0x05 (bump .PRS_STAT 0 0 1 s) := if_pos (by simp [invalid])

theorem namedFlow_present {i : Nat} {e : Bytes} (entry : flowAt s i = some e) :
    namedFlow id i s = toActions id (modFrame id (fun f => { f with
      begun := true, ctx := { srcVport := leAt f.hv 2 2 }, lists := [listOf (slice e 64 64)] }) s) := by
  rw [namedFlow, entry]

end

/-! ### The obligation -/

/-- Settles O36: each command runs its lookup at a step of its kind, and the lookup ends as its equations say. -/
theorem tableProgramsAndSteps : Obligations.TableProgramsAndSteps := by
  refine ⟨?vport, ?tunnel, ?flow, ?lpm, ?acl, ?program, ?gone⟩
  case vport =>
    rintro id _ key _ f s at_id stage begun forwarding kind keyed rfl rfl
    rw [exec_vportStep_looks at_id stage begun forwarding kind]
    exact ⟨fun inTable valid => congrArg _ (vportLookup_hit id keyed inTable valid),
      fun absent => congrArg _ (vportLookup_miss id keyed absent)⟩
  case tunnel =>
    rintro id _ key _ f s at_id stage begun forwarding kind keyed rfl rfl
    rw [exec_tunnelStep_looks at_id stage begun forwarding kind]
    exact ⟨fun valid same => congrArg _ (tunnelLookup_hit id keyed valid same),
      fun other => congrArg _ (tunnelLookup_miss id keyed other)⟩
  case flow =>
    rintro id i _ key f s _ at_id stage begun forwarding kind keyed rfl rfl
    rw [exec_flowStep_looks at_id stage begun forwarding kind]
    refine ⟨fun absent => ?absent, fun e found entry => ?found⟩
    case absent =>
      have missed := flowLookup_absent id keyed rfl absent
      exact ⟨fun still => congrArg _ (missed.trans (missedIn_goesOn (by simpa using still) id _)),
        fun moving => congrArg _ (missed.trans (missedIn_waits (by simpa using moving) id _))⟩
    case found =>
      exact ⟨fun hold => congrArg _ (flowLookup_held id keyed rfl found entry hold),
        fun free => congrArg _ (flowLookup_hit id keyed rfl found entry free)⟩
  case lpm =>
    intro id a f s r at_id stage begun forwarding kind keyed again
    rw [exec_lpmStep_looks at_id stage begun forwarding kind]
    refine ⟨fun form => ?noAddress, fun one address => ⟨fun moving => ?waits, fun still => ⟨fun e found => ?hits, fun absent => ?misses⟩⟩⟩
    case noAddress => exact congrArg _ (lpmLookup_noAddress id keyed form)
    case waits => exact congrArg _ (lpmLookup_waits id keyed one address rfl moving)
    case hits => exact congrArg _ (lpmLookup_hit id keyed one address rfl again still found)
    case misses => exact congrArg _ (lpmLookup_miss id keyed one address rfl again still absent)
  case acl =>
    intro id key f s at_id stage begun forwarding kind keyed
    rw [exec_aclStep_looks at_id stage begun forwarding kind]
    exact ⟨fun e found => congrArg _ (aclLookup_hit id keyed found), fun absent => congrArg _ (aclLookup_miss id keyed absent)⟩
  case program =>
    intro id f s at_id stage fresh forwarding ready there alive
    have begins := exec_tableProgram_begins at_id stage fresh forwarding ready there alive
    refine ⟨fun unnamed valid => ?_, fun unnamed invalid => ?_, fun i e named entry => ?_⟩
    · exact (begins unnamed).trans (congrArg _ (beginProgram_valid id valid))
    · exact (begins unnamed).trans (congrArg _ (beginProgram_invalid id invalid))
    · exact (exec_tableProgram_named at_id stage fresh forwarding ready there alive named).trans (congrArg _ (namedFlow_present id entry))
  case gone => exact fun _ _ _ at_id stage fresh forwarding ready gone => exec_tableProgram_gone at_id stage fresh forwarding ready gone

end Sys2Proof.Machine
end

section
/-!
SUPPORT. The operations of TABLE-class queues: what an operation runs once its record is in, an equation for each way that it ends
(R286 to R290), and the statement O39.
-/
namespace Sys2Proof.Machine

/-! ### An operation that runs (R286, R290) -/

section
variable {f : Fn} {q : Nat} {w : Work} {bs : Bytes} {s : State}
  (alone : (queue s f q).work.any (fun x => x.cls == 3 && x.started && x.done.isNone) = false) (record : readsOf w = some (bs, 0))
include alone record

theorem runTbl_runs {op : Nat} (oldest : nextWork s f q 3 op = some w) (g : Work → Bytes → State → State) : runTbl f q op g s = g w bs s := by
  rw [runTbl, oldest]
  refine (if_neg (by rw [alone]; exact Bool.false_ne_true)).trans ?_
  rw [record]
  rfl

theorem exec_tblWriteUnlock_runs (oldest : nextWork s f q 3 7 = some w) : exec (.tblWriteUnlock f q) s = .next (overwriteFlow f q w bs true s) :=
  congrArg Host.Outcome.next (runTbl_runs alone record oldest _)

section
variable (flow : opTable w = 0)
include flow

theorem exec_tblInsert_flow (oldest : nextWork s f q 3 1 = some w) : exec (.tblInsert f q) s = .next (insertFlow f q w bs s) :=
  congrArg Host.Outcome.next ((runTbl_runs alone record oldest _).trans (if_pos flow))

theorem exec_tblDelete_flow (oldest : nextWork s f q 3 2 = some w) : exec (.tblDelete f q) s = .next (deleteFlow f q w bs s) :=
  congrArg Host.Outcome.next ((runTbl_runs alone record oldest _).trans (if_pos flow))

theorem exec_tblLookup_flow (oldest : nextWork s f q 3 3 = some w) : exec (.tblLookup f q) s = .next (findFlow f q w bs s) :=
  congrArg Host.Outcome.next ((runTbl_runs alone record oldest _).trans (if_pos flow))

theorem exec_tblWrite_flow (oldest : nextWork s f q 3 5 = some w) : exec (.tblWrite f q) s = .next (overwriteFlow f q w bs false s) :=
  congrArg Host.Outcome.next ((runTbl_runs alone record oldest _).trans (if_pos flow))

end

section
variable (other : opTable w ≠ 0)
include other

theorem exec_tblInsert_route (oldest : nextWork s f q 3 1 = some w) : exec (.tblInsert f q) s = .next (insertRoute f q w bs s) :=
  congrArg Host.Outcome.next ((runTbl_runs alone record oldest _).trans (if_neg other))

theorem exec_tblDelete_route (oldest : nextWork s f q 3 2 = some w) : exec (.tblDelete f q) s = .next (deleteRoute f q w bs s) :=
  congrArg Host.Outcome.next ((runTbl_runs alone record oldest _).trans (if_neg other))

theorem exec_tblLookup_route (oldest : nextWork s f q 3 3 = some w) : exec (.tblLookup f q) s = .next (findRoute f q w bs s) :=
  congrArg Host.Outcome.next ((runTbl_runs alone record oldest _).trans (if_neg other))

theorem exec_tblWrite_direct (oldest : nextWork s f q 3 5 = some w) : exec (.tblWrite f q) s = .next (writeDirect f q w bs s) :=
  congrArg Host.Outcome.next ((runTbl_runs alone record oldest _).trans (if_neg other))

theorem exec_tblRead_direct (oldest : nextWork s f q 3 4 = some w) (rights : directRights s f (opTable w) (opIndex w) = true) :
    exec (.tblRead f q) s = .next (tblDone f q w 0 (toBuf f q w (shown s (opTable w) (opIndex w)) s)) :=
  congrArg Host.Outcome.next ((runTbl_runs alone record oldest _).trans ((if_neg other).trans (if_neg (by simp [rights]))))

theorem exec_tblRead_direct_refused (oldest : nextWork s f q 3 4 = some w) (noRights : directRights s f (opTable w) (opIndex w) = false) :
    exec (.tblRead f q) s = .next (tblFail f q w 0x05 s) :=
  congrArg Host.Outcome.next ((runTbl_runs alone record oldest _).trans ((if_neg other).trans (if_pos (by simp [noRights]))))

end

section
variable (oldest : nextWork s f q 3 9 = some w)
include oldest

theorem exec_tblCounterRead_refused (noRights : counterRights s f (opIndex w) (entryField w.entry 26 2) = false) :
    exec (.tblCounterRead f q) s = .next (tblFail f q w 0x05 s) :=
  congrArg Host.Outcome.next ((runTbl_runs alone record oldest _).trans (if_pos (by simp [noRights])))

/-- COUNTER_READ gives the counters to BUF, and clears them where its option says so. -/
theorem exec_tblCounterRead_reads {n : Nat} {u : State} (count : n = entryField w.entry 26 2) (rights : counterRights s f (opIndex w) n = true)
    (given : u = toBuf f q w ((((List.range n).map (fun k => mget (0, 0) s.tbl.counters (opIndex w + k))).map
      (fun c => leBytes 8 c.1 ++ leBytes 8 c.2)).flatten) s) :
    exec (.tblCounterRead f q) s = .next (tblDone f q w 0 (if opOpt w 1 then
      modTbl (fun t => { t with counters := t.counters.filter (fun e => decide (e.1 < opIndex w ∨ opIndex w + n ≤ e.1)) }) u else u)) := by
  subst count given
  exact congrArg Host.Outcome.next ((runTbl_runs alone record oldest _).trans (if_neg (by simp [rights])))

end

end

/-! ### INSERT (R272, R287) -/

section
variable {f : Fn} {q : Nat} {w : Work} {bs e : Bytes} {s : State} (made : e = flowRecord (isVf f) bs)
include made

theorem insertFlow_malformed (bad : flowFlag e 0 = false ∨ (listOf (slice e 64 64)).all actionOk = false) :
    insertFlow f q w bs s = tblFail f q w 0x01 s := by
  rcases bad with bad | bad <;> simp [insertFlow, ← made, bad]

variable (valid : flowFlag e 0 = true) (entries : (listOf (slice e 64 64)).all actionOk = true)
include valid entries

theorem insertFlow_noRights (noRights : flowRights s f e = false) : insertFlow f q w bs s = tblFail f q w 0x05 s := by
  simp [insertFlow, ← made, valid, entries, noRights]

variable (rights : flowRights s f e = true) (thawed : flowFrozen s f e = false)
include rights thawed

theorem insertFlow_exists {i : Nat} (found : findKey s false (flowKey e) = some i) (keep : opOpt w 0 = false) :
    insertFlow f q w bs s = flowDone f q w 2 (some i) s := by
  simp [insertFlow, ← made, valid, entries, rights, thawed, found, keep]

section
variable (absent : findKey s false (flowKey e) = none) (idle : bankBusy s (bankOfKey s false (flowKey e)) = false)
include absent idle

theorem insertFlow_full (full : addFlow e (some (f, q, w.ctr.toNat)) s = none) : insertFlow f q w bs s = tblFail f q w 0x18 s := by
  simp [insertFlow, ← made, valid, entries, rights, thawed, absent, idle, full]

theorem insertFlow_adds {j : Nat} {t : State} (added : addFlow e (some (f, q, w.ctr.toNat)) s = some (j, t)) :
    insertFlow f q w bs s = inserted f q (bankOfKey s false (flowKey e)) w (flowDone f q w 0 (some j)) t := by
  simp [insertFlow, ← made, valid, entries, rights, thawed, absent, idle, added]

end

end

/-! ### DELETE and LOOKUP of a flow entry (R287, R288) -/

section
variable {f : Fn} {q i : Nat} {w : Work} {bs e : Bytes} {s : State}

section
variable (idle : bankBusy s (bankOfKey s false (slice bs 0 48)) = false)
include idle

theorem deleteFlow_absent (absent : findKey s false (slice bs 0 48) = none) : deleteFlow f q w bs s = flowDone f q w 1 none s := by
  simp [deleteFlow, idle, absent]

variable (found : findKey s false (slice bs 0 48) = some i) (entry : flowAt s i = some e)
include found entry

theorem deleteFlow_removes (allowed : flowStatus s f q i e true = 0) : deleteFlow f q w bs s = flowDone f q w 0 (some i) (removeFlow i s) := by
  simp [deleteFlow, idle, found, entry, allowed]

theorem deleteFlow_refused (refused : flowStatus s f q i e true ≠ 0) :
    deleteFlow f q w bs s = tblFail f q w (flowStatus s f q i e true) s := by
  simp [deleteFlow, idle, found, entry, refused]

end

theorem findFlow_absent (absent : findKey s false (slice bs 0 48) = none) : findFlow f q w bs s = flowDone f q w 1 none s := by
  rw [findFlow, absent]

theorem findFlow_gives (found : findKey s false (slice bs 0 48) = some i) (entry : flowAt s i = some e) (allowed : flowStatus s f q i e false = 0) :
    findFlow f q w bs s = flowDone f q w 0 (some i) (toBuf f q w ((shownFlow s i).getD []) s) := by
  simp [findFlow, found, entry, allowed]

end

/-! ### Routes of a function without administrator's rights (R289) -/

section
variable {f : Fn} {q : Nat} {w : Work} {bs : Bytes} {s : State} (noAdmin : tblAdmin s f = false)
include noAdmin

theorem insertRoute_refused (length : byteAt (routeRecord bs) 18 ≤ 32) : insertRoute f q w bs s = tblFail f q w 0x05 s := by
  have fits : ¬ (if bits (byteAt (routeRecord bs) 19) 1 1 = 1 then 128 else 32) < byteAt (routeRecord bs) 18 := by split <;> omega
  simp only [insertRoute, if_neg fits, noAdmin, Bool.not_false, if_true]

theorem deleteRoute_refused : deleteRoute f q w bs s = tblFail f q w 0x05 s := if_pos (by rw [noAdmin]; rfl)

theorem findRoute_refused : findRoute f q w bs s = tblFail f q w 0x05 s := if_pos (by rw [noAdmin]; rfl)

end

/-! ### WRITE of a direct table (R287, R289) -/

section
variable {f : Fn} {q : Nat} {w : Work} {bs : Bytes} {s : State}

theorem writeDirect_vsi (vsi : opTable w = 5) (rights : directRights s f (opTable w) (opIndex w) = true) :
    writeDirect f q w bs s = tblDone f q w 0 (store 5 (opIndex w) (recordIn 5 bs) s) := by
  rw [vsi] at rights
  simp [writeDirect, vsi, rights]

theorem writeDirect_badActions (action : opTable w = 6) (bad : (listOf (recordIn 6 bs)).all actionOk = false) :
    writeDirect f q w bs s = tblFail f q w 0x01 s :=
  if_pos ⟨action, by rw [action, bad]; rfl⟩

theorem writeDirect_noRights (noAction : opTable w ≠ 6) (noRights : directRights s f (opTable w) (opIndex w) = false) :
    writeDirect f q w bs s = tblFail f q w 0x05 s :=
  (if_neg (fun c => noAction c.1)).trans (if_pos (by rw [noRights]; rfl))

end

/-! ### Operations on the flow entry INDEX (R287 to R289) -/

section
variable {f : Fn} {q : Nat} {w : Work} {bs e : Bytes} {s : State} (entry : shownFlow s (opIndex w) = some e)
include entry

theorem onFlow_allowed {locks : Bool} (allowed : flowStatus s f q (opIndex w) e locks = 0) (g : Bytes → State → State) :
    onFlow f q w locks g s = g e s := by
  rw [onFlow, entry]
  exact if_neg (not_not_intro allowed)

/-- A record in its right form, within the function's rights before and after, takes the entry's place. -/
theorem overwriteFlow_writes {r : Bytes} (made : r = overwrite (flowRecord (flowFlag e 4) bs) 0 (slice e 0 48))
    (allowed : flowStatus s f q (opIndex w) e true = 0) (valid : bitOf (byteAt bs 48) 0 = true)
    (entries : (listOf (slice bs 64 64)).all actionOk = true) (rights : flowRights s f r = true) (thawed : flowFrozen s f r = false)
    (idle : bankBusy s (bankOfKey s false (flowKey e)) = false) (unlock : Bool) :
    overwriteFlow f q w bs unlock s = flowDone f q w 0 (some (opIndex w)) (if unlock
      then modTbl (fun t => { t with locks := mdel t.locks (opIndex w) }) (writeFlow (opIndex w) r s) else writeFlow (opIndex w) r s) := by
  simp [overwriteFlow, ← made, valid, entries, onFlow_allowed entry allowed, rights, thawed, idle]

section
variable (alone : (queue s f q).work.any (fun x => x.cls == 3 && x.started && x.done.isNone) = false) (record : readsOf w = some (bs, 0))
include alone record

theorem exec_tblRead_flow (flow : opTable w = 0) (oldest : nextWork s f q 3 4 = some w) (allowed : flowStatus s f q (opIndex w) e false = 0) :
    exec (.tblRead f q) s = .next (flowDone f q w 0 (some (opIndex w)) (toBuf f q w e s)) :=
  congrArg Host.Outcome.next ((runTbl_runs alone record oldest _).trans ((if_pos flow).trans (onFlow_allowed entry allowed _)))

theorem exec_tblUnlock_unlocks (oldest : nextWork s f q 3 8 = some w) (allowed : flowStatus s f q (opIndex w) e true = 0) :
    exec (.tblUnlock f q) s =
      .next (flowDone f q w 0 (some (opIndex w)) (modTbl (fun t => { t with locks := mdel t.locks (opIndex w) }) s)) :=
  congrArg Host.Outcome.next ((runTbl_runs alone record oldest _).trans (onFlow_allowed entry allowed _))

variable (oldest : nextWork s f q 3 6 = some w) (allowed : flowStatus s f q (opIndex w) e false = 0)
include oldest allowed

theorem exec_tblLock_held (held : (mfind s.tbl.locks (opIndex w)).isSome = true) : exec (.tblLock f q) s = .next (tblFail f q w 0x19 s) :=
  congrArg Host.Outcome.next ((runTbl_runs alone record oldest _).trans ((onFlow_allowed entry allowed _).trans (if_pos held)))

theorem exec_tblLock_locks {u : State} (free : (mfind s.tbl.locks (opIndex w)).isSome = false)
    (locked : u = modTbl (fun t => { t with locks := mput t.locks (opIndex w) { fn := f, sq := q, at_ := s.elapsed } }) s) :
    exec (.tblLock f q) s = .next (flowDone f q w 0 (some (opIndex w)) (toBuf f q w ((shownFlow u (opIndex w)).getD []) u)) := by
  subst locked
  exact congrArg Host.Outcome.next
    ((runTbl_runs alone record oldest _).trans ((onFlow_allowed entry allowed _).trans (if_neg (by rw [free]; decide))))

end

end

/-! ### The obligation -/

/-- Settles O39: each command runs its operation on the record, and the operation ends as its equations say. -/
theorem tableOperations : Obligations.TableOperations := by
  refine ⟨?insert, ?byKey, ?routes, ?direct, ?byIndex, ?counters⟩
  case insert =>
    intro f q i w bs e s oldest alone record flow made
    rw [exec_tblInsert_flow alone record flow oldest]
    refine ⟨fun bad => ?malformed, fun valid entries noRights => ?noRights, fun valid entries rights thawed =>
      ⟨fun found keep => ?present, fun absent idle => ?new⟩⟩
    case malformed => exact congrArg _ (insertFlow_malformed made bad)
    case noRights => exact congrArg _ (insertFlow_noRights made valid entries noRights)
    case present => exact congrArg _ (insertFlow_exists made valid entries rights thawed found keep)
    case new =>
      refine congrArg _ ?_
      cases added : addFlow e (some (f, q, w.ctr.toNat)) s with
      | none => exact insertFlow_full made valid entries rights thawed absent idle added
      | some x => exact insertFlow_adds made valid entries rights thawed absent idle added
  case byKey =>
    intro f q i w bs e s alone record flow
    refine ⟨fun oldest idle => ?delete, fun oldest => ?lookup⟩
    case delete =>
      rw [exec_tblDelete_flow alone record flow oldest]
      exact ⟨fun absent => congrArg _ (deleteFlow_absent idle absent),
        fun found entry allowed => congrArg _ (deleteFlow_removes idle found entry allowed),
        fun found entry refused => congrArg _ (deleteFlow_refused idle found entry refused)⟩
    case lookup =>
      rw [exec_tblLookup_flow alone record flow oldest]
      exact ⟨fun absent => congrArg _ (findFlow_absent absent), fun found entry allowed => congrArg _ (findFlow_gives found entry allowed)⟩
  case routes =>
    intro f q w bs s alone record lpm noAdmin
    have other : opTable w ≠ 0 := by omega
    refine ⟨fun length oldest => ?insert, fun oldest => ?delete, fun oldest => ?lookup⟩
    case insert => exact (exec_tblInsert_route alone record other oldest).trans (congrArg _ (insertRoute_refused noAdmin length))
    case delete => exact (exec_tblDelete_route alone record other oldest).trans (congrArg _ (deleteRoute_refused noAdmin))
    case lookup => exact (exec_tblLookup_route alone record other oldest).trans (congrArg _ (findRoute_refused noAdmin))
  case direct =>
    intro f q w bs s alone record other
    refine ⟨fun oldest => ⟨fun rights => ?reads, fun noRights => ?refused⟩, fun oldest => ?write⟩
    case reads => exact exec_tblRead_direct alone record other oldest rights
    case refused => exact exec_tblRead_direct_refused alone record other oldest noRights
    case write =>
      rw [exec_tblWrite_direct alone record other oldest]
      exact ⟨fun rights vsi => congrArg _ (writeDirect_vsi vsi rights), fun action bad => congrArg _ (writeDirect_badActions action bad),
        fun noAction noRights => congrArg _ (writeDirect_noRights noAction noRights)⟩
  case byIndex =>
    rintro f q _ w bs e r s alone record flow rfl entry made
    refine ⟨fun oldest allowed => ?read, fun allowed valid entries rights thawed idle => ?write, fun oldest allowed held => ?held,
      fun u oldest allowed free locked => ?locks, fun oldest allowed => ?unlocks⟩
    case read => exact exec_tblRead_flow entry alone record flow oldest allowed
    case write =>
      have writes := overwriteFlow_writes entry made allowed valid entries rights thawed idle
      exact ⟨fun oldest => (exec_tblWrite_flow alone record flow oldest).trans (congrArg _ (writes false)),
        fun oldest => (exec_tblWriteUnlock_runs alone record oldest).trans (congrArg _ (writes true))⟩
    case held => exact exec_tblLock_held entry alone record oldest allowed held
    case locks => exact exec_tblLock_locks entry alone record oldest allowed free locked
    case unlocks => exact exec_tblUnlock_unlocks entry alone record oldest allowed
  case counters =>
    rintro f q n w bs s u oldest alone record count
    refine ⟨fun noRights => exec_tblCounterRead_refused alone record oldest (count ▸ noRights), fun rights given => ?_⟩
    rw [exec_tblCounterRead_reads alone record oldest count rights given]
    exact ⟨fun keep => congrArg _ (congrArg _ (if_neg (by rw [keep]; decide))), fun clear => congrArg _ (congrArg _ (if_pos clear))⟩

end Sys2Proof.Machine
end

section
/-!
SUPPORT. The scope of a step: the front command on the rest of the queue (O1, O7), and the parts of the state that each command leaves as they
were (O6).
-/
namespace Sys2Proof.Machine

/-! ### A command's parts as a mask -/

/-- The bits of the parts are distinct. -/
theorem Part.bit_injective : Function.Injective Part.bit := by
  intro p q
  cases p <;> cases q <;> simp [Part.bit]

/-- The mask of a list of parts has the bits of those parts. -/
theorem testBit_partMask (ps : List Part) (p : Part) : (partMask ps).testBit p.bit = true ↔ p ∈ ps := by
  induction ps with
  | nil => simp [partMask]
  | cons q ps ih =>
    rw [partMask, Nat.testBit_or, Bool.or_eq_true, ih, List.mem_cons, Nat.testBit_two_pow]
    simp [Part.bit_injective.eq_iff, eq_comm]

/-- A frame that clears the listed parts leaves the others: a list with the fuses has the LCS record too, of which they are a field. -/
theorem onlyChanges_of_partMask {ps : List Part} {s t : State} (h : forget (partMask ps) t = forget (partMask ps) s)
    (l : Part.fuses ∈ ps → Part.lcs ∈ ps) : OnlyChanges ps s t := by
  refine onlyChanges_of_frame _ ps h (List.all_eq_true.mpr fun p hp => ?_)
  have out : p ∉ ps := by simpa [allBut, List.mem_filter] using (List.mem_filter.mp hp).2
  have clear {q : Part} (hq : q ∉ ps) : (partMask ps).testBit q.bit = false := by rw [← Bool.not_eq_true, testBit_partMask]; exact hq
  by_cases e : p = .lcs
  · subst e
    have fused := clear (fun hf => out (l hf))
    rw [Part.bit] at fused
    simp [clear out, fused]
  · simp [clear out, e]

/-! ### Every command's frame -/

theorem mayChange_fuses (i : Instr) : Part.fuses ∈ mayChange i → Part.lcs ∈ mayChange i := by
  cases i <;> simp [mayChange, allBut]

/-- Every command changes the parts of its list alone: its frame, for the mask of the list. -/
theorem exec_frame (i : Instr) (s : State) : forgetO (partMask (mayChange i)) s (exec i s) = forget (partMask (mayChange i)) s := by
  cases i with
  | nvmeCqDoorbell => exact execNvmeCqDoorbell_frame 36176828 rfl ..
  | twait => exact execTwait_frame 35651600 rfl ..
  | _ => simp [mayChange, allBut, partMask, Part.bit]

/-- Settles O6, by the frame of each command. -/
theorem everyCommandChangesOnlyItsParts : Obligations.EveryCommandChangesOnlyItsParts := fun i s _ h =>
  onlyChanges_of_partMask (frame_of_next (exec_frame i s) h) (mayChange_fuses i)

/-! ### A step -/

/-- Settles O1. -/
theorem stepRunsFrontCommand : Obligations.StepRunsFrontCommand := by
  intro i rest s h
  rw [step, h]

/-- No command adds to the queue or takes from it. -/
theorem exec_pending {i : Instr} {s t : State} (h : exec i s = .next t) : t.pending = s.pending :=
  everyCommandChangesOnlyItsParts i s t h .pending (by cases i <;> simp [mayChange, allBut])

/-- Settles O7: the front command is taken, and it leaves the rest. -/
theorem queueAdvancesByOne : Obligations.QueueAdvancesByOne := by
  intro s t h
  rw [step] at h
  split at h
  · next i rest e => rw [exec_pending h, e]; rfl
  · next e =>
    cases h
    rw [e]
    exact (pending_of_frame (tick_frame 32770 rfl s) rfl).trans e

end Sys2Proof.Machine
end

section
/-!
SUPPORT. The life cycle (R448 to R450): every operation leaves the life-cycle fuses, as its frame says, but an accepted TRANSITION token and the
zeroisation of a pending return. The lemmas follow these two up to the commands and settle O8, with O4 for the reset state and O13 for a VF.
-/
namespace Sys2Proof.Machine

/-! ### The invariant and the frames -/

/-- From a legal life-cycle record to a legal one, along a permitted transition. -/
def LifeStep (s t : State) : Prop := LifeOk s.lcs → LifeOk t.lcs ∧ LifeEdge s.lcs t.lcs

/-- The same, told of the states with every part cleared but the fuses (`forget`, 2^26 - 1 - 2^24), so that the frame of an operation that leaves
the fuses removes the operation from it. -/
@[simp] abbrev Life (s t : State) : Prop := LifeStep (forget 50331647 s) (forget 50331647 t)

theorem life_iff (s t : State) : Life s t ↔ LifeStep s t := Iff.rfl

@[simp] theorem lifeStep_refl (s : State) : LifeStep s s := fun h => ⟨h, .inl rfl⟩

@[simp] theorem lifeStep_ite (c : Prop) [Decidable c] (s a b : State) :
    LifeStep s (if c then a else b) ↔ (c → LifeStep s a) ∧ (¬c → LifeStep s b) := by
  split <;> simp [*]

theorem life_of_frame {s t : State} (h : forget 50331647 t = forget 50331647 s) : Life s t := by simp [h]

/-- The record and the edges rest on the fuses alone. -/
theorem life_of_fuses {s t : State} {life : Nat} {owners : List Bytes} {rp : Bool} {rt : Nat} (h : fuses t.lcs = (life, owners, rp, rt))
    (k : LifeOk s.lcs → LifeOk { life, owners, returnPending := rp, returnTo := rt } ∧ LifeEdge s.lcs { life }) : Life s t := by
  simp only [fuses, Prod.mk.injEq] at h
  obtain ⟨rfl, rfl, rfl, rfl⟩ := h
  exact k

/-! ### The two operations that change the fuses -/

/-- Zeroisation takes a pending return to its state (R450). -/
theorem zeroise_fuses (s : State) : fuses (zeroise s).lcs = (s.lcs.returnTo, s.lcs.owners, false, s.lcs.returnTo) := by
  unfold zeroise
  dsimp only
  rw [fuses_of_frame (lcsEvent_frame 2097664 rfl _ _ _) rfl, fuses_of_frame (closeDebug_frame 2359808 rfl _) rfl]
  have kept (u : State) : fuses (zeroRegions u).lcs = fuses u.lcs := fuses_of_frame (zeroRegions_frame 262148 rfl u) rfl
  have := kept { s with cry := {}, dev := [], tbl := {}, prs := {}, hif := { s.hif with doe := [{}, {}], ide := [] }, rel := { s.rel with poison := [] } }
  simp only [fuses, Prod.mk.injEq] at this ⊢
  simp [modLcs, this]

theorem zeroise_life {s : State} (p : s.lcs.returnPending = true) : Life s (zeroise s) := by
  refine life_of_fuses (zeroise_fuses s) fun ⟨_, few, maker, returns⟩ => ?_
  obtain ⟨from_, to_⟩ := returns p
  have owned : s.lcs.owners ≠ [] := fun e => by have := maker.mpr e; omega
  refine ⟨⟨by dsimp only; omega, few, ?_, nofun⟩, .inr (.inr (.inr (.inl ⟨from_, p, to_⟩)))⟩
  exact ⟨fun e => by dsimp only at e; omega, fun e => absurd e owned⟩

/-- The states and targets in which a TRANSITION token may act (R449). -/
theorem tokenAllowed_transition {s : State} {t : Bytes} (k : byteAt t 4 ≠ 1) (h : tokenAllowed s t = 0) :
    (s.lcs.life = 0 ∧ byteAt t 5 = 1) ∨ (s.lcs.life = 1 ∧ byteAt t 5 = 2) ∨
      ((s.lcs.life = 1 ∨ s.lcs.life = 2) ∧ (byteAt t 5 = 3 ∨ byteAt t 5 = 4)) ∨
      (s.lcs.life = 3 ∧ ((byteAt t 5 = 1 ∧ s.lcs.owners.length < 4) ∨ byteAt t 5 = 4)) := by
  unfold tokenAllowed at h
  dsimp only at h
  rw [if_neg k] at h
  generalize s.lcs.life = life at *
  generalize byteAt t 5 = dest at *
  split at h
  case h_7 =>
    split at h
    · cases h
    · split at h <;> simp_all
  all_goals simp_all

/-- A RESTART leaves the fuses. -/
theorem fuses_restarted (s : State) : fuses ((restartDevice s).getD s).lcs = fuses s.lcs := by
  cases e : restartDevice s with
  | none => rfl
  | some t => exact fuses_of_frame (restartDevice_frame 16777148 rfl s t e) rfl

/-- A transition to RETURNED, or from OWNED or FIELD to SPENT, waits for zeroisation; any other takes effect, OWNED with its new slot. -/
theorem transition_fuses (t : Bytes) (s : State) : fuses (transition t s).lcs =
    if byteAt t 5 = 3 ∨ (byteAt t 5 = 4 ∧ s.lcs.life ≠ 3) then (s.lcs.life, s.lcs.owners, true, byteAt t 5)
    else (byteAt t 5, s.lcs.owners ++ (if byteAt t 5 = 1 then [slice t 40 48] else []), s.lcs.returnPending, s.lcs.returnTo) := by
  have moved (d : Nat) (u : State) : fuses (lcsEvent 0x05 d (closeDebug u)).lcs = fuses u.lcs :=
    (fuses_of_frame (lcsEvent_frame 2097664 rfl _ _ _) rfl).trans (fuses_of_frame (closeDebug_frame 2359808 rfl _) rfl)
  unfold transition
  dsimp only
  split
  · rw [fuses_restarted]
    rfl
  · split
    · rw [fuses_restarted, moved]
      rfl
    · rw [moved]
      rfl

theorem transition_life {s : State} {t : Bytes} (k : byteAt t 4 ≠ 1) (h : tokenAllowed s t = 0) : Life s (transition t s) := by
  have allowed := tokenAllowed_transition k h
  have e := transition_fuses t s
  split at e
  · next c =>
    refine life_of_fuses e fun ⟨four, few, maker, _⟩ => ⟨⟨four, few, maker, fun _ => ⟨?_, ?_⟩⟩, .inl rfl⟩ <;> dsimp only <;> omega
  · next c =>
    refine life_of_fuses e fun ⟨four, few, maker, returns⟩ => ?_
    have owned (n : s.lcs.life ≠ 0) : s.lcs.owners ≠ [] := fun e => n (maker.mpr e)
    simp only [LifeOk, LifeEdge]
    rcases allowed with ⟨a, d⟩ | ⟨a, d⟩ | ⟨a, d⟩ | ⟨a, ⟨d, n⟩ | d⟩
    · simp_all
    · simp_all
    · omega
    · have room : s.lcs.owners.length ≤ 3 := Nat.le_of_lt_succ n
      simp_all
    · simp_all

/-! ### Tokens (R454) -/

theorem tokenAllowed_of_judgeToken {s : State} {t : Bytes} (h : judgeToken s t = 0) : tokenAllowed s t = 0 := by
  unfold judgeToken at h
  dsimp only at h
  repeat (split at h; · exact absurd h (by decide))
  exact h

/-- What a token may do rests on the fuses alone. -/
theorem tokenAllowed_congr {s u : State} (h : fuses u.lcs = fuses s.lcs) (t : Bytes) : tokenAllowed u t = tokenAllowed s t := by
  simp only [fuses, Prod.mk.injEq] at h
  simp only [tokenAllowed, h]

/-- A submitted token moves the life cycle at most by the transition that it is permitted. -/
@[simp] theorem tokenSubmit_life (p : Path) (s : State) : Life s (tokenSubmit p s) := by
  unfold tokenSubmit
  split
  · exact lifeStep_refl _
  · extract_lets t r s1 s2
    have f1 : forget 50331647 s1 = forget 50331647 s := 
      (setReg_frame _ rfl ..).trans (modLcs_frame _ rfl _ _ fun _ => rfl)
    have f2 : forget 50331647 s2 = forget 50331647 s := by simp [s2, f1]
    split
    · simp [f1]
    · next accepted =>
      split
      · simp [f2]
      · next k =>
        have allowed : tokenAllowed s2 t = 0 :=
          (tokenAllowed_congr (fuses_of_frame f2 rfl) t).trans (tokenAllowed_of_judgeToken (Decidable.of_not_not accepted))
        have moved := transition_life k allowed
        rw [Life, f2] at moved
        exact moved

/-! ### Register writes, and the instructions that make them (R390, R467) -/

@[simp] theorem lcsStore_life (p : Path) (r : Reg) (i : Nat) (v : Word) (s : State) : Life s (lcsStore p r i v s) := by
  unfold lcsStore
  split
  · exact lifeStep_refl _
  · split
    · simp
    · simp
    · simp

@[simp] theorem writeLcs_life (p : Path) (off : Nat) (v : Word) (s : State) : Life s (writeLcs p off v s) := by
  unfold writeLcs
  split
  · exact lifeStep_refl _
  · exact lcsStore_life _ _ _ _ _

@[simp] theorem accessWrite_life (p : Path) (t off : Nat) (v : Word) (s : State) : Life s (accessWrite p t off v s) := by simp [accessWrite]

@[simp] theorem accessSized_life (p : Path) (off size : Nat) (data : Option (BitVec 64)) (s : State) : Life s (accessSized p off size data s) := by
  unfold accessSized
  dsimp only
  split
  · simp
  · split
    · split <;> simp
    · simp

@[simp] theorem writeOf_life (p : Path) (r : Reg) (i : Nat) (v : Word) (s : State) : Life s (writeOf p r i v s) := by
  unfold writeOf
  split <;> simp

theorem execHeldAccess_life {p : Path} {off : Nat} {v : Option Word} {s t : State} (h : execHeldAccess p off v s = .next t) : Life s t := by
  unfold execHeldAccess at h
  split at h <;> cases h <;> simp

theorem storeMem_life {t a n v : Nat} {s u : State} (e : storeMem t a n v s = some u) : Life s u := by
  unfold storeMem at e
  dsimp only at e
  split at e
  · cases e
  · split at e
    · split at e <;> cases e <;> simp [regWrite]
    · obtain ⟨x, -, rfl⟩ := Option.map_eq_some_iff.mp e
      simp
    · cases e; simp
    · cases e

/-- A store retires before its write, which may be that of a token. -/
@[simp] theorem doStore_life (t x size bits_ : Nat) (s : State) : Life s (doStore t x size bits_ s) := by
  unfold doStore
  dsimp only
  split
  · simp
  · split
    · simp
    · next e => simpa using storeMem_life e

@[simp] theorem ordinary_life (t x size bits_ : Nat) (s : State) : Life s (ordinary t x size bits_ s) := by
  unfold ordinary
  dsimp only
  (repeat' split) <;> simp

/-- An instruction is issued after a STALL interrupt is taken and the core's work is told. -/
@[simp] theorem issue_life (p : Nat → Bool) (core : Nat) (s : State) : Life s (issue p core s) := by
  have issued (t i : Nat) (x size own : Nat) := ordinary_life t x size own
    (worked (.svcCore (corePhys s core)) (modSvc (fun v => { v with last := mset 15 v.last core i }) (takeStall t s)))
  unfold issue
  dsimp only
  (repeat' split) <;> simp_all

/-! ### BRINGUP (R98, R450) -/

/-- The zeroisation of a pending return is the one step of BRINGUP that moves the life cycle. -/
@[simp] theorem bootSteps_life (boot : BootInput) (s : State) : Life s (bootSteps boot s) := by
  unfold bootSteps
  extract_lets s0 s1 test s2 s3 wait
  have f0 : forget 50331647 s0 = forget 50331647 s := by simp [s0]
  have l1 : Life s s1 := by
    simp only [s1]
    split
    · next p =>
      have p0 : s0.lcs.returnPending = true := by
        have := congrArg (fun f => f.2.2.1) (fuses_of_frame f0 rfl)
        exact this.trans p
      have z := zeroise_life p0
      rw [Life, f0] at z
      simpa using z
    · simp [f0]
  have l3 : Life s s3 := by
    simp only [s3, s2]
    split <;> simpa using l1
  clear_value s3 s1
  split
  · simpa using l1
  · split
    · simpa using l1
    · split
      · simpa using l3
      · split
        · split <;> simpa using l3
        · simpa using l3

theorem execBringupStart_life (boot : BootInput) {s t : State} (h : execBringupStart boot s = .next t) : Life s t := by
  have booted {u : State} (f : forget 50331647 u = forget 50331647 s) : Life s (bootSteps boot u) := by
    have := bootSteps_life boot u
    rw [Life, f] at this
    exact this
  unfold execBringupStart at h
  split at h
  · split at h
    · cases h; exact lifeStep_refl _
    · cases h; exact booted (by simp)
  · split at h
    · cases h; exact lifeStep_refl _
    · cases h; exact booted (by simp)
  · cases h; exact lifeStep_refl _

/-! ### The obligations -/

/-- Every command keeps the life cycle: those whose list of parts holds the fuses by the lemmas above, every other by its frame. -/
theorem exec_life {i : Instr} {s t : State} (h : exec i s = .next t) : Life s t := by
  by_cases f : Part.fuses ∈ mayChange i
  · cases i
    case registerWrite => cases h; exact accessWrite_life _ _ _ _ _
    case badAccess => cases h; exact accessSized_life _ _ _ _ _
    case heldAccess => exact execHeldAccess_life h
    case instructionIssue => cases h; exact issue_life _ _ _
    case bringupStart => exact execBringupStart_life _ h
    case tokenSubmit => cases h; exact writeOf_life _ _ _ _ _
    all_goals exact absurd f (by simp [mayChange, allBut])
  · exact life_of_fuses (everyCommandChangesOnlyItsParts i s t h .fuses f) fun ok => ⟨ok, .inl rfl⟩

/-- Settles O8: a step is the front command or a tick. -/
theorem lifeCycleKept : Obligations.LifeCycleKept := by
  intro s t ok h
  have ticked : LifeStep s (tick s) := (life_iff s (tick s)).mp (life_of_frame (tick_frame 50331647 rfl s))
  rw [step] at h
  split at h
  · next i rest _ => exact (life_iff { s with pending := rest } t).mp (exec_life h) ok
  · cases h
    exact ticked ok

/-- Settles O4. -/
theorem invariantsAtReset : Obligations.InvariantsAtReset := ⟨by simp [LifeOk, State.reset], nil_wf⟩

/-! ### A VF has no access to the registers of LCS (R467) -/

/-- A VF's access reaches no window, that of LCS among them. -/
theorem lcsAccess_vf (p n off : Nat) (s : State) : lcsAccess s (.fn (.vf p n)) off = false := by simp [lcsAccess, windowed, isVf]

/-- Settles O13: a VF's write acts on its own registers, and such an access leaves the fuses. -/
theorem vfNeverMovesLifeCycle : Obligations.VfNeverMovesLifeCycle := by
  intro p n off v s t h
  cases h
  have kept : forget 50331647 (accessWrite (.fn (.vf p n)) (supervisor s 0) (wordOff off) v s) = forget 50331647 s := by
    simp [accessWrite, asPath, lcsAccess_vf]
  exact fuses_of_frame kept rfl

end Sys2Proof.Machine
end

section
/-!
SUPPORT. The event of a gate list that takes effect (R175, R219, R317), and the statement O12.
-/
namespace Sys2Proof.Machine

/-- A port's pending list takes effect, and MAC raises GATE_LIST_ACTIVE with the port as DETAIL (R317). -/
theorem activateList_pending {lp : Nat} {l : GateList} {s : State} (h : (lport s lp).pending = some l) :
    activateList lp s = raise 0x4 0x07 lp .device (modLport lp (fun p => { p with oper := some l, pending := none }) s) := by
  rw [activateList, h]
  rfl

theorem lport_advanceTai (t lp : Nat) (s : State) : lport (advanceTai t s) lp = lport s lp :=
  congrArg (fun m : Mac => m.lports.getD lp {}) (mac_of_frame (advanceTai_frame 32770 rfl t s) rfl)

/-- The PFs that a device-wide event of a block reaches are the enabled ones whose mask asks for the block (R175, R219). -/
theorem mem_maskedPfs (s : State) (block i : Nat) :
    Fn.pf i ∈ maskedPfs s block ↔ i < 4 ∧ pfEnabled s i = true ∧ wbit (reg s .QM_EVENT_MASK 0 (fnCode (.pf i))) block = true := by
  simp [maskedPfs]

/-- Such an event goes to a PF's default EQ. -/
theorem mem_eventTargets_device (s : State) (block i : Nat) (eq : Option Nat) :
    (Fn.pf i, eq) ∈ eventTargets s block .device ↔ Fn.pf i ∈ maskedPfs s block ∧ eq = defaultEq s (.pf i) := by
  have firmware : (Fn.pf i, eq) ∉ (if wbit (reg s .SVC_FW_EVENT_MASK 0 0) block then [(Fn.fw, (none : Option Nat))] else []) := by
    split <;> simp
  simp only [eventTargets, List.mem_append, firmware, or_false, List.mem_map, Prod.mk.injEq]
  exact ⟨fun ⟨_, m, f, e⟩ => f ▸ ⟨m, e.symm⟩, fun ⟨m, e⟩ => ⟨_, m, rfl, e.symm⟩⟩

/-- Settles O12. -/
theorem gateListEvent : Obligations.GateListEvent := by
  refine ⟨fun lp l s _ h => ?_, fun i eq s => ?_⟩
  · rw [exec_gateListActive, execGateListActive, h]
    exact congrArg _ (activateList_pending ((congrArg LPort.pending (lport_advanceTai ..)).trans h))
  · rw [mem_eventTargets_device, mem_maskedPfs]
    simp only [and_assoc]

end Sys2Proof.Machine
end

section
/-!
SUPPORT. The PLDM update agent (R459): an equation for each command in each of its states, and the statement O53.
-/
namespace Sys2Proof.Machine

/-! ### The commands, state by state -/

section
variable {s : State} (up : firmwareUp s = true)
include up

theorem requestUpdate_begins (st : s.lcs.pldm = .idle) : exec .requestUpdate s =
    .next (pldm 0x10 0 (leBytes 3 0) (setPldm .learn (modLcs (fun l => { l with pldmGot := [], pldmLen := 0 }) s))) := by
  simp [execRequestUpdate, up, st]

theorem requestUpdate_refused (st : s.lcs.pldm ≠ .idle) : exec .requestUpdate s = .next (pldm 0x10 0x81 [] s) := by
  simp [execRequestUpdate, up, st]

theorem passComponentTable_idle (c i : Nat) (st : s.lcs.pldm = .idle) : exec (.passComponentTable c i) s = .next (pldm 0x13 0x80 [] s) := by
  simp [execPassComponentTable, up, st]

theorem passComponentTable_taken (st : s.lcs.pldm = .learn) : exec (.passComponentTable 0xA 0x3216) s =
    .next (pldm 0x13 0 (leBytes 2 0) (setPldm .ready s)) := by
  simp [execPassComponentTable, up, st]

theorem updateComponent_idle (c i n : Nat) (st : s.lcs.pldm = .idle) : exec (.updateComponent c i n) s = .next (pldm 0x14 0x80 [] s) := by
  simp [execUpdateComponent, up, st]

theorem updateComponent_begins (n : Nat) (st : s.lcs.pldm = .ready) : exec (.updateComponent 0xA 0x3216 n) s =
    .next (pldmAsk (pldm 0x14 0 (leBytes 2 0) (setPldm .download (modLcs (fun l => { l with pldmLen := n, pldmGot := [] }) s)))) := by
  simp [execUpdateComponent, up, st]

theorem activateFirmware_idle (st : s.lcs.pldm = .idle) : exec .activateFirmware s = .next (pldm 0x1A 0x80 [] s) := by
  simp [execActivateFirmware, up, st]

/-- ACTIVATE_FIRMWARE answers what the activation made of the request: a switch or a chain that runs, or its RESULT. -/
theorem activateFirmware_activates {s1 : State} (st : s.lcs.pldm = .ready) (made : s1 = activate .mgmt (setPldm .idle s)) :
    exec .activateFirmware s =
      .next (pldm 0x1A (if s1.lcs.chain.isSome ∨ s1.lcs.switch_.isSome ∨ s1.lcs.result = 0 then 0 else 0x84) [] s1) := by
  subst made
  simp [execActivateFirmware, up, st]

theorem cancelUpdate_idle (st : s.lcs.pldm = .idle) : exec .cancelUpdate s = .next (pldm 0x1D 0x80 [] s) := by
  simp [execCancelUpdate, up, st]

theorem cancelUpdate_ends (st : s.lcs.pldm ≠ .idle) : exec .cancelUpdate s =
    .next (pldm 0x1D 0 [] (setPldm .idle (modLcs (fun l => { l with pldmGot := [], pldmLen := 0 }) s))) := by
  simp [execCancelUpdate, up, st]

theorem getStatus_answers : exec .getStatus s = .next (pldm 0x1B 0 (leBytes 1 (pldmNo s.lcs.pldm)) s) := by
  simp [execGetStatus, up]

/-! ### The pieces of an image -/

section
variable {d : Bytes} {s1 : State} (st : s.lcs.pldm = .download)
  (got : s1 = modLcs (fun l => { l with pldmGot := (l.pldmGot ++ d).take l.pldmLen }) s)
include st got

/-- While pieces are missing the next is asked for. -/
theorem firmwareDataReceived_asks (part : s1.lcs.pldmGot.length < s1.lcs.pldmLen) : exec (.firmwareDataReceived d) s = .next (pldmAsk s1) := by
  subst got
  rw [exec_firmwareDataReceived, execFirmwareDataReceived, if_neg (by simp [up, st])]
  exact if_pos part

/-- The whole image is staged, and the agent reports how that ended. -/
theorem firmwareDataReceived_stages {r : Nat × State} (whole : s1.lcs.pldmLen ≤ s1.lcs.pldmGot.length) (m : isMaster (pldm 0x16 0 [] s1) = true)
    (staged : r = stageImage s1.lcs.pldmGot (pldm 0x16 0 [] s1)) : exec (.firmwareDataReceived d) s =
      .next (if r.1 ≠ 0 then setPldm .ready (modLcs (fun l => { l with pldmGot := [] }) (pldm 0x17 r.1 [] r.2))
        else pldm 0x18 0 [] (setPldm .ready (modLcs (fun l => { l with pldmGot := [] }) (pldm 0x17 r.1 [] r.2)))) := by
  subst got staged
  rw [exec_firmwareDataReceived, execFirmwareDataReceived, if_neg (by simp [up, st]), ite_not]
  dsimp only
  rw [if_neg (Nat.not_lt.mpr whole), if_pos m]
  rfl

end

end

/-! ### The obligation -/

/-- Settles O53, command by command, by the equations above. -/
theorem pldmUpdate : Obligations.PldmUpdate := by
  refine ⟨fun n s up => ⟨fun idle => ?_, fun busy => ⟨requestUpdate_refused up busy, cancelUpdate_ends up busy⟩, passComponentTable_taken up,
    updateComponent_begins up n, getStatus_answers up⟩, fun d s s1 up st got => ⟨firmwareDataReceived_asks up st got, fun r => ?_⟩,
    fun s s1 up => activateFirmware_activates up⟩
  · exact ⟨requestUpdate_begins up idle, passComponentTable_idle up _ _ idle, updateComponent_idle up _ _ n idle, activateFirmware_idle up idle,
      cancelUpdate_idle up idle⟩
  · exact firmwareDataReceived_stages up st got

end Sys2Proof.Machine
end

section
/-!
SUPPORT. Writes of a scheduler node's registers (R302, R318, R319) and data frames of the cascade (R420, R421): an equation for each case, and the
statement O42.
-/
namespace Sys2Proof.Machine

/-! ### A node register's write -/

/-- The registers of a node that NODE_WRITE names are those of their offsets, and each path that has one finds it there. -/
theorem nodeReg_spec {o : Nat} {r : Reg} (h : nodeReg o = some r) :
    regOff r 0 = o ∧ (regReached r 0 && regOutside r 0) = true ∧ ∀ (p : Path) (v : Word) (s : State), regStore p 0 r 0 v s = nodeWrite p (regOff r 0) v s := by
  have found := List.mem_of_find?_eq_some h
  have place : r.info.off = o := by simpa using List.find?_some h
  simp only [List.mem_cons, List.not_mem_nil, or_false] at found
  rcases found with rfl | rfl | rfl | rfl | rfl | rfl | rfl | rfl <;> exact ⟨place, by decide, fun _ _ _ => rfl⟩

section
variable {p : Path} {o off : Nat} {r : Reg} {v : Word} {s : State} (named : nodeReg o = some r) (place : regBar p r 0 = some off)
  (acts : actsAt p off s = true)
include named place acts

/-- A path's write of a node register, where it acts. -/
theorem exec_nodeWrite_acts : exec (.nodeWrite p o v) s = .next (nodeWrite (asPath p) o v (atWork p off s)) := by
  obtain ⟨rfl, reached, write⟩ := nodeReg_spec named
  rw [exec_nodeWrite, execNodeWrite, named]
  exact congrArg Host.Outcome.next ((writeOf_acts v reached place acts).trans (write ..))

end

/-- The write of a path that may, to the node that it has selected, goes by its offset (R318). -/
theorem nodeWrite_selected {p : Path} {s : State} {k : Nat} (may : mayWrite s p .TM_NODE_CFG = true) (selected : selectedNode s p = some k)
    (o : Nat) (v : Word) :
    nodeWrite p o v s = (match o with
      | 0x204 => cfgWrite p k v s
      | 0x208 => shaperWrite p .TM_NODE_RATE k v s
      | 0x20C => shaperWrite p .TM_NODE_BURST k v s
      | 0x210 => plainWrite p .TM_NODE_ADJ k v s
      | 0x218 => if k / 65536 = 3 then plainWrite p .TM_NODE_QLIMIT_G k v s else s
      | 0x21C => if k / 65536 = 3 then plainWrite p .TM_NODE_QLIMIT_Y k v s else s
      | 0x220 => if k / 65536 = 3 then plainWrite p .TM_NODE_QLIMIT_R k v s else s
      | 0x228 => if k / 65536 = 1 then plainWrite p .TM_NODE_DEFQ k v s else s
      | _ => s) := by
  rw [nodeWrite, may, selected] <;> rfl

section
variable {p : Path} {k : Nat} {v new : Word} {s : State}
  (made : new = (nodeCfg s k &&& ~~~ w32 (cfgFields (k / 65536))) ||| (v &&& w32 (cfgFields (k / 65536))))
include made

/-- A configuration that R302 refuses ends with BAD_CONFIG. -/
theorem cfgWrite_refused (bad : cfgRefused s k (nodeCfg s k) new = true) : cfgWrite p k v s = nodeResult p 2 s := by
  subst made
  exact if_pos bad

/-- A node that becomes VALID has its tokens filled (R304). -/
theorem cfgWrite_fills (good : cfgRefused s k (nodeCfg s k) new = false) (valid : wbit new 31 = true) (was : wbit (nodeCfg s k) 31 = false) :
    cfgWrite p k v s = nodeResult p 0 (fillNode k (setReg .TM_NODE_CFG 0 k new s)) := by
  subst made
  refine (if_neg (by simp [good])).trans (congrArg _ (if_pos ?_))
  simp [valid, was]

theorem cfgWrite_keeps (good : cfgRefused s k (nodeCfg s k) new = false) (same : wbit new 31 = false ∨ wbit (nodeCfg s k) 31 = true) :
    cfgWrite p k v s = nodeResult p 0 (setReg .TM_NODE_CFG 0 k new s) := by
  subst made
  refine (if_neg (by simp [good])).trans (congrArg _ (if_neg ?_))
  rcases same with e | e <;> simp [e]

end

/-- A write of RATE or BURST shows RESULT 0. -/
theorem shaperWrite_done (p : Path) (r : Reg) (k : Nat) (v : Word) (s : State) :
    fld (reg (shaperWrite p r k v s) .TM_NODE_STATUS 0 (pathCode p)) 31 0 = 0 := by
  simp [shaperWrite, plainWrite, nodeResult, modNode, fld, bits, w32]

/-! ### A data frame of the cascade -/

section
variable {port : Nat} {h : Bytes} {s : State} (body : Bytes) (lt : port < 2) (up : (akzPort s port).up = true) (data : hdType h = 0)
  (joined : s.akz.joined = true)
include lt up data joined

/-- A frame for this member is held while it is in PAUSE (R103). -/
theorem akzDataRx_held (mine : hdDest h = s.akz.member) (pause : s.cai.mode = .pause) :
    exec (.akzDataRx port h body) s = .next (modAkz (fun a => { a with heldRx := a.heldRx ++ [(port, h, body)] }) s) := by
  simp [execAkzDataRx, Nat.not_le.mpr lt, up, data, joined, mine, pause]

/-- One of KIND 0 enters the ingress of its port (R421). -/
theorem akzDataRx_enters (mine : hdDest h = s.akz.member) (runs : s.cai.mode ≠ .pause) (kind : hdKind h = 0) :
    exec (.akzDataRx port h body) s = .next (enterAkz port (nowFrac s) (bound16 s) body (some (port, hdCls h, akzCells body)) s) := by
  simp [execAkzDataRx, Nat.not_le.mpr lt, up, data, joined, mine, runs, akzArrive, kind]

/-- One for another member whose TTL has run out is dropped and counted (R420). -/
theorem akzDataRx_expired (other : hdDest h ≠ s.akz.member) (ttl : byteAt h 2 ≤ 1) :
    exec (.akzDataRx port h body) s = .next (grantCredit (some (port, hdCls h, akzCells body)) (akzStat 1 1 s)) := by
  simp [execAkzDataRx, Nat.not_le.mpr lt, up, data, joined, other, ttl]

/-- Any other goes on by the opposite port (R420). -/
theorem akzDataRx_forwards (other : hdDest h ≠ s.akz.member) (ttl : 1 < byteAt h 2) : exec (.akzDataRx port h body) s = .next
    (forwardItem (1 - port) { header := overwrite h 2 [BitVec.ofNat 8 (byteAt h 2 - 1)], body := body, back := some (port, hdCls h, akzCells body) } s) := by
  simp [execAkzDataRx, Nat.not_le.mpr lt, up, data, joined, other, Nat.not_le.mpr ttl]

end

/-! ### The obligation -/

/-- Settles O42, clause by clause, by the equations above. -/
theorem nodeRegistersAndCascadeFrames : Obligations.NodeRegistersAndCascadeFrames := by
  refine ⟨?config, ?others, ?frames⟩
  case config =>
    rintro p off k v new s0 s place acts rfl may selected made
    have e : exec (.nodeWrite p 0x204 v) s0 = .next (cfgWrite (asPath p) k v (atWork p off s0)) :=
      (exec_nodeWrite_acts rfl place acts).trans (congrArg _ (nodeWrite_selected may selected 0x204 v))
    rw [e]
    exact ⟨fun bad => congrArg _ (cfgWrite_refused made bad), fun good valid was => congrArg _ (cfgWrite_fills made good valid was),
      fun good same => congrArg _ (cfgWrite_keeps made good same)⟩
  case others =>
    rintro p o off k r v s0 s named place acts rfl may selected
    rw [exec_nodeWrite_acts named place acts, nodeWrite_selected may selected]
    refine ⟨?_, ?_, ?_, ?_, ?_⟩ <;> rintro rfl
    · rfl
    · exact fun level => congrArg _ (if_pos level)
    · exact fun level => congrArg _ (if_neg level)
    · exact fun level => congrArg _ (if_pos level)
    · exact ⟨_, rfl, rfl, shaperWrite_done ..⟩
  case frames =>
    intro port h body s lt up data joined
    exact ⟨akzDataRx_held body lt up data joined, akzDataRx_enters body lt up data joined, akzDataRx_expired body lt up data joined,
      akzDataRx_forwards body lt up data joined⟩

end Sys2Proof.Machine
end

section
/-!
SUPPORT. Key and slot operations, look-aside messages, and the engines with their checker (R322 to R340): an equation for each case, and the
statement O43.
-/
namespace Sys2Proof.Machine

/-! ### The oldest CRYPTO entry of a queue, its reads in (R329) -/

section
variable {f : Fn} {q : Nat} {w : Work} {bs : Bytes} {s u : State} (record : readsOf w = some (bs, 0))
  (begun : u = modWork f q w.ctr (fun w => { w with started := true }) s)

section
include record begun

theorem runCry_runs {op : Nat} (oldest : nextWork s f q 2 op = some w) (g : Work → Bytes → State → Nat × State) :
    runCry f q op g s = finishWork f q w.ctr (g w bs u).1 0 (g w bs u).2 := by
  rw [runCry, oldest, begun]
  simp only [record]

/-- The operation's status and state are those with which the entry ends. -/
theorem runCry_ends {op status : Nat} {t : State} {g : Work → Bytes → State → Nat × State} (oldest : nextWork s f q 2 op = some w)
    (e : g w bs u = (status, t)) : Host.Outcome.next (φ := Fault) (ρ := Refusal) (runCry f q op g s) = .next (finishWork f q w.ctr status 0 t) := by
  rw [runCry_runs record begun oldest, e]

end

/-! ### KEY_WRITE and KEY_UNWRAP (R330, R331) -/

section
variable {r k : Bytes} (field : r = slice bs 0 64) (key : k = slice bs 64 32)
include field key

theorem keyWrite_badRecord (bad : recordOk r = false ∨ (byteAt r 2 = 0 ∧ leNat (k.drop 16) ≠ 0)) : keyWrite f w bs u = (0x02, u) := by
  subst field key
  exact if_pos (by simpa using bad)

theorem keyWrite_noRights (good : recordOk r = true) (fits : ¬ (byteAt r 2 = 0 ∧ leNat (k.drop 16) ≠ 0))
    (no : mayWriteSlot u f (ctxSlot w) r = false) : keyWrite f w bs u = (0x05, u) := by
  subst field key
  exact (if_neg (by simp only [good, fits]; decide)).trans (if_pos (by simp [no]))

theorem keyWrite_writes (good : recordOk r = true) (fits : ¬ (byteAt r 2 = 0 ∧ leNat (k.drop 16) ≠ 0))
    (may : mayWriteSlot u f (ctxSlot w) r = true) :
    keyWrite f w bs u = (0, putSlot f (ctxSlot w) r (if byteAt r 2 = 0 then k.take 16 else k) u) := by
  subst field key
  exact (if_neg (by simp only [good, fits]; decide)).trans (if_neg (by simp [may]))

end

section
variable {r kk : Bytes} {kek : KeySlot} (field : r = slice bs 0 64) (under : kek = slot_ u (entryField w.entry 24 4 % 1048576))
include field

theorem keyUnwrapOp_badRecord (bad : recordOk r = false) : keyUnwrapOp f w bs u = (0x02, u) := by
  subst field
  exact if_pos (by simp [bad])

section
variable (good : recordOk r = true) (may : mayWriteSlot u f (ctxSlot w) r = true)
include under good may

/-- A checked record's key is unwrapped under the key of KEK_SLOT, where that is one that the submitter may use. -/
theorem keyUnwrapOp_checked : keyUnwrapOp f w bs u = (match kek.key with
    | none => (0x05, u)
    | some kk =>
      if !kek.kek ∨ !ownerRights u f kek.owner then (0x05, u)
      else match keyUnwrap kk (slice bs 64 (if byteAt r 2 = 0 then 24 else 40)) with
      | none => (0x10, u)
      | some key => (0, putSlot f (ctxSlot w) r key u)) := by
  subst field under
  exact (if_neg (by simp [good])).trans (if_neg (by simp [may]))

theorem keyUnwrapOp_noKek (no : kek.key = none ∨ kek.kek = false ∨ ownerRights u f kek.owner = false) :
    keyUnwrapOp f w bs u = (0x05, u) := by
  rw [keyUnwrapOp_checked field under good may]
  split
  · rfl
  · next kk e =>
    rw [e] at no
    exact if_pos (by simpa using no)

theorem keyUnwrapOp_unwraps (key : kek.key = some kk) (isKek : kek.kek = true) (rights : ownerRights u f kek.owner = true) :
    keyUnwrapOp f w bs u = (match keyUnwrap kk (slice bs 64 (if byteAt r 2 = 0 then 24 else 40)) with
      | none => (0x10, u)
      | some key => (0, putSlot f (ctxSlot w) r key u)) := by
  rw [keyUnwrapOp_checked field under good may, key]
  exact if_neg (by simp [isKek, rights])

end
end

/-! ### SLOT_UPDATE (R331) -/

section
variable {k : KeySlot} (named : k = slot_ u (ctxSlot w))
include named

theorem slotUpdate_noRights (no : ownerRights u f k.owner = false) : slotUpdate f w bs u = (0x05, u) := by
  subst named
  exact if_pos (by simp [no])

section
variable (rights : ownerRights u f k.owner = true) (transmit : k.dir = false)
include rights transmit

/-- A transmit slot's NEXT never falls. -/
theorem slotUpdate_falls (below : leAt bs 32 8 < k.next) : slotUpdate f w bs u = (0x05, u) := by
  subst named
  exact (if_neg (by simp [rights])).trans (if_pos (by simp [transmit, below]))

theorem slotUpdate_writes (above : k.next ≤ leAt bs 32 8) : slotUpdate f w bs u = (0, modKeySlot (ctxSlot w) (fun x => { x with
    next := leAt bs 32 8, rekeyAt := leAt bs 40 8, tcpNext := leAt bs 48 4, resync := false,
    seen := if x.dir ∧ leAt bs 32 8 ≠ x.next then [] else x.seen, seenBelow := if x.dir ∧ leAt bs 32 8 ≠ x.next then 0 else x.seenBelow }) u) := by
  subst named
  exact (if_neg (by simp [rights])).trans (if_neg (by simp [above]))

end
end

/-! ### Look-aside messages (R333, R337, R339) -/

section
include record

theorem runLookaside_runs {op : Nat} (encrypt : Bool) (oldest : nextWork s f q 2 op = some w) (cached : useCache (ctxSlot w) s = (true, u)) :
    runLookaside f q op encrypt s = lookaside f q encrypt w bs u := by
  rw [runLookaside, oldest]
  simp only [record, cached, if_true]

end

section
variable {key : Bytes} {k : KeySlot} (here : cryGone u = false) (named : k = slot_ u (ctxSlot w)) (keyed : k.key = some key)
include here named keyed

/-- A slot of another protocol, a key-encryption key, one of the other direction or one of another owner is refused. -/
theorem lookaside_refused (encrypt : Bool) (no : k.proto ≠ 0 ∨ k.kek = true ∨ ownerRights u f k.owner = false) :
    lookaside f q encrypt w bs u = finishWork f q w.ctr 0x05 0 u := by
  subst named
  simp only [lookaside, here, keyed, Bool.false_eq_true, if_false]
  exact if_pos (by simpa only [Bool.not_eq_true'] using no.imp_right (·.imp_right .inr))

/-- A message in counter mode takes the slot's next number. -/
theorem lookaside_encrypts {n : Nat} {t : State} (proto : k.proto = 0) (data : k.kek = false) (rights : ownerRights u f k.owner = true)
    (transmit : k.dir = false) (counter : entryField w.entry 38 1 ≠ 1) (taken : takeNumber (ctxSlot w) u = (some n, t)) :
    lookaside f q true w bs u = dispatch { src := .lookaside f q w.ctr.toNat, slot := ctxSlot w, encrypt := true, urgency := 1 + entryField w.entry 39 1, n := n, dst := entryField w.entry 24 8, extra := n, out := (gcmSeal key (laNonce k n) (slice bs 0 (entryField w.entry 36 2)) (slice bs (entryField w.entry 36 2) (entryField w.entry 32 4))).1 ++ (gcmSeal key (laNonce k n) (slice bs 0 (entryField w.entry 36 2)) (slice bs (entryField w.entry 36 2) (entryField w.entry 32 4))).2 }
      (modWork f q w.ctr (fun w => { w with started := true }) t) := by
  subst named
  simp [lookaside, here, keyed, proto, data, rights, transmit, counter, taken]

/-- A message with an explicit nonce is opened with it. -/
theorem lookaside_opens {x : Bytes} (proto : k.proto = 0) (data : k.kek = false) (rights : ownerRights u f k.owner = true)
    (receive : k.dir = true) (explicit : entryField w.entry 38 1 = 1)
    (opened : gcmOpen key (slice (entryBytes w.entry) 40 12) (slice bs 0 (entryField w.entry 36 2)) (slice bs (entryField w.entry 36 2) (entryField w.entry 32 4))
      (slice bs (entryField w.entry 36 2 + entryField w.entry 32 4) 16) = some x) :
    lookaside f q false w bs u = dispatch { src := .lookaside f q w.ctr.toNat, slot := ctxSlot w, encrypt := false, urgency := 1 + entryField w.entry 39 1, n := 0, dst := entryField w.entry 24 8, extra := 0, out := x }
      (modWork f q w.ctr (fun w => { w with started := true }) u) := by
  subst named
  simp [lookaside, here, keyed, proto, data, rights, receive, explicit, opened]

end

end

/-! ### Engines and the checker (R322, R323, R335, R336, R340) -/

section
variable {e : Nat} {m : CryMsg} {s s1 u : State} (running : (cryEngine s e).running = some m)
include running

section
variable (checked : (activeUnits s 2).isEmpty = false)
  (released : s1 = releaseMsg m (modEngine e (fun u => { u with running := none }) (worked (.cryEngine e) s)))
include checked released

/-- An output that the checker agrees with is released; a run that was refused before charges the unit at fault. -/
theorem exec_cipherDone_releases : exec (.cipherDone e) s = .next (engineNext e (match m.refused with
    | [] => s1
    | [d] => countFault 1 d 0 false s1
    | _ => match activeUnits s1 2 with
      | c :: _ => countFault 2 c 0 false s1
      | [] => s1)) := by
  rw [exec_cipherDone, execCipherDone, running]
  simp only [checked, Bool.false_eq_true, if_false, ← released] <;> rfl

end

section
variable (idle : u = modEngine e (fun u => { u with running := none }) s)
include idle

theorem exec_checkerMismatch_holds (thrice : 2 ≤ m.refused.length) : exec (.checkerMismatch e) s =
    .next (engineNext e (modCry (fun c => { c with held := c.held ++ [{ m with refused := [] }] }) u)) := by
  rw [exec_checkerMismatch, execCheckerMismatch, running, idle]
  exact if_pos (by simp; omega)

/-- A message that may run again runs on another engine, or waits. -/
theorem exec_checkerMismatch_again (again : m.refused.length < 2) : exec (.checkerMismatch e) s =
    (match (activeUnits u 1).find? (fun x => x != e && engineRuns u x && (cryEngine u x).running.isNone) with
      | some d => .next (engineNext e (modEngine d (fun x => { x with running := some { m with refused := m.refused ++ [e] } }) u))
      | none => .next (modCry (fun c => { c with waiting := { m with refused := m.refused ++ [e] } :: c.waiting }) (engineNext e u))) := by
  rw [exec_checkerMismatch, execCheckerMismatch, running, idle]
  exact if_neg (by simp; omega)

end

end

section
variable {m : CryMsg} (id : Nat) {s : State} (ok : m.ok = true)
include ok

theorem releaseDecrypted_replayed (notTls : (slot_ s m.slot).proto ≠ 3) (again : replayed (slot_ s m.slot) m.n = true) : releaseDecrypted m id s =
    dropFrame id 0x05 (cryStat 1 (modKeySlot m.slot (fun k => { k with replays := bumpSlot k.replays }) s)) :=
  (if_neg (by simp [ok])).trans (if_pos ⟨notTls, again⟩)

theorem releaseDecrypted_accepted (new : replayed (slot_ s m.slot) m.n = false) : releaseDecrypted m id s =
    modFrame id (fun f => { f with bytes := m.out, inCry := false, decrypted := true })
      (modKeySlot m.slot (fun k => if k.proto = 3 then { k with next := m.n + 1, tcpNext := m.extra } else acceptNumber k m.n) s) :=
  (if_neg (by simp [ok])).trans (if_neg (by simp [new]))

end

/-- A more urgent message suspends the one that the only active engine runs. -/
theorem exec_suspendMessage_suspends {e : Nat} {w m : CryMsg} {s : State} (waits : mostUrgent s.cry.waiting = some w) (only : activeUnits s 1 = [e])
    (running : (cryEngine s e).running = some m) (none_ : (cryEngine s e).suspended = none) (less : w.urgency < m.urgency) :
    exec .suspendMessage s = .next (cryStat 7 (modEngine e (fun _ => { running := some w, suspended := some m })
      (modCry (fun c => { c with waiting := dropFirst (· == w) c.waiting }) s))) := by
  have later : m.urgency ≠ 0 := by omega
  simp [execSuspendMessage, waits, only, running, none_, less, later]

/-- A fetched slot enters the cache (R327). -/
theorem exec_slotFetchDone_caches {n : Nat} {s : State} (fetching : s.cry.fetching.contains n = true) : exec (.slotFetchDone n) s =
    .next (modCry (fun c => { c with fetching := c.fetching.filter (· != n), cache := (n :: c.cache.filter (· != n)).take 4096 }) s) :=
  if_pos fetching

/-! ### The obligation -/

/-- Settles O43, clause by clause, by the equations above. -/
theorem keysAndCiphers : Obligations.KeysAndCiphers := by
  refine ⟨?write, ?unwrap, ?slot, ?lookaside, fun n s fetching => ⟨_, exec_slotFetchDone_caches fetching, rfl, rfl⟩, ?done,
    fun m id s ok _ _ notTls => ⟨releaseDecrypted_replayed id ok notTls, releaseDecrypted_accepted id ok⟩, ?mismatch,
    fun e w m s => exec_suspendMessage_suspends⟩
  case write =>
    intro f q w bs r k s u oldest record begun field key
    exact ⟨fun bad => runCry_ends record begun oldest (keyWrite_badRecord field key bad), fun good fits =>
      ⟨fun no => runCry_ends record begun oldest (keyWrite_noRights field key good fits no),
        fun may => runCry_ends record begun oldest (keyWrite_writes field key good fits may)⟩⟩
  case unwrap =>
    intro f q w bs r kk kek s u oldest record begun field under
    refine ⟨fun bad => runCry_ends record begun oldest (keyUnwrapOp_badRecord field bad),
      fun good may no => runCry_ends record begun oldest (keyUnwrapOp_noKek field under good may no), fun good may key isKek rights => ?_⟩
    have unwraps := keyUnwrapOp_unwraps field under good may key isKek rights
    exact ⟨fun fails => runCry_ends record begun oldest (by rw [unwraps, fails]),
      fun k opens => runCry_ends record begun oldest (by rw [unwraps, opens])⟩
  case slot =>
    intro f q w bs k s u record begun named
    refine ⟨fun no => ?refused, fun rights => ?allowed⟩
    case refused =>
      have noRights : ownerRights u f (slot_ u (ctxSlot w)).owner = false := named ▸ no
      exact ⟨fun oldest => runCry_ends record begun oldest (slotUpdate_noRights named no),
        fun oldest => runCry_ends record begun oldest (if_pos (by rw [noRights]; rfl)),
        fun oldest => runCry_ends record begun oldest (if_neg (by rw [noRights]; decide))⟩
    case allowed =>
      have hasRights : ownerRights u f (slot_ u (ctxSlot w)).owner = true := named ▸ rights
      refine ⟨fun oldest transmit below => runCry_ends record begun oldest (slotUpdate_falls named rights transmit below),
        fun oldest transmit above => runCry_ends record begun oldest (slotUpdate_writes named rights transmit above),
        fun oldest => runCry_ends record begun oldest ?_,
        fun oldest => runCry_ends record begun oldest (if_pos hasRights)⟩
      subst named
      exact if_neg (by rw [hasRights]; decide)
  case lookaside =>
    intro f q w bs key k s u record cached here named keyed
    have runs {op : Nat} (encrypt : Bool) (oldest : nextWork s f q 2 op = some w) := runLookaside_runs record encrypt oldest cached
    exact ⟨fun no => ⟨fun oldest => congrArg _ ((runs true oldest).trans (lookaside_refused here named keyed true no)),
        fun oldest => congrArg _ ((runs false oldest).trans (lookaside_refused here named keyed false no))⟩,
      fun n t oldest proto data rights transmit counter taken =>
        congrArg _ ((runs true oldest).trans (lookaside_encrypts here named keyed proto data rights transmit counter taken)),
      fun x oldest proto data rights receive explicit opened =>
        congrArg _ ((runs false oldest).trans (lookaside_opens here named keyed proto data rights receive explicit opened))⟩
  case done =>
    intro e m s s1 running checked released
    rw [exec_cipherDone_releases running checked released]
    exact ⟨fun first => by rw [first], fun d second => by rw [second], fun d1 d2 more c rest third checker => by simp only [third, checker]⟩
  case mismatch =>
    intro e m s u running idle
    refine ⟨exec_checkerMismatch_holds running idle, fun d again other => ?_, fun again none_ => ?_⟩
    · rw [exec_checkerMismatch_again running idle again, other]
    · rw [exec_checkerMismatch_again running idle again, none_]

end Sys2Proof.Machine
end

section
/-!
SUPPORT. The emulated NVMe controllers (R344 to R354): an equation for each case of their properties, doorbells, fetching and admin commands, and
the statement O44.
-/
namespace Sys2Proof.Machine

/-! ### A controller's record -/

@[simp] theorem nvme_modNvme_same (f : Fn) (g : Nvme → Nvme) (s : State) : nvme (modNvme f g s) f = g (nvme s f) := mget_mmod_same _ _ _ _

/-- A controller rests on the STO record alone. -/
theorem nvme_congr {s t : State} (h : t.sto = s.sto) (f : Fn) : nvme t f = nvme s f := by rw [nvme, nvme, h]

/-! ### Enable, disable and shutdown (R345, R346) -/

theorem nvme_ccEnable {f : Fn} {cc : Nat} {s : State} (off : bitOf (nvme s f).cc 0 = false) (ok : nvEnableOk (nvme s f) cc = true) :
    nvme (ccEnable f cc s) f = { nvme s f with
      cc := ccFields cc + 1, rdy := true, shst := 0, shutAt := none,
      sqs := [(0, { base := (nvme s f).asq, size := bits (nvme s f).aqa 11 0 + 1, cq := 0 })],
      cqs := [(0, { base := (nvme s f).acq, size := bits (nvme s f).aqa 27 16 + 1, vector := 0, ien := true })], aers := [], events := [] } := by
  have spoken (c : Prop) [Decidable c] (g : FnSt → FnSt) (t : State) : nvme (if c then flushPba f (modFn f g t) else t) f = nvme t f := by
    split
    · exact nvme_congr (sto_of_frame (flushPba_frame 260 rfl f _) rfl) f
    · rfl
  unfold ccEnable
  dsimp only
  rw [if_neg (by simp [off, ok]), spoken, nvme_modNvme_same]

/-- The fields of CC with EN set. -/
theorem bitOf_ccFields_succ (cc : Nat) : bitOf (ccFields cc + 1) 0 = true := by
  have even : ccFields cc % 2 = 0 := by
    rw [ccFields, ← Nat.and_one_is_mod, Nat.and_assoc]
    simp
  simp [bitOf, Nat.testBit_zero, Nat.add_mod, even]

theorem exec_shutdown_begins {f : Fn} {s : State} (c : isNvme s f = true) (on : bitOf (nvme s f).cc 0 = true) (none_ : (nvme s f).shst = 0) :
    exec (.shutdown f) s = .next (nvShutCheck f (modNvme f (fun x => { x with
      shst := 1, shutAt := some s.elapsed, cmds := x.cmds.filter (fun c => c.st == .sent || c.st == .held), aers := [] }) s)) := by
  rw [exec_shutdown, execShutdown, if_pos c, shutdown, if_neg (by simp [on, none_])]

theorem exec_shutdownTimeout_ends {f : Fn} {a : Nat} {s : State} (since : (nvme s f).shutAt = some a) : exec (.shutdownTimeout f) s =
    .next (modNvme f (fun x => { nvDiscard (fun _ => true) x with shst := 2, shutAt := none }) (advanceTo (a + 1000000000) s)) := by
  rw [exec_shutdownTimeout, execShutdownTimeout, since]

/-- The clock is brought forward to a moment, where that is ahead. -/
theorem elapsed_advanceTo (t : Nat) (s : State) : (advanceTo t s).elapsed = max s.elapsed t := by
  simp only [advanceTo, ticks]
  omega

/-! ### Doorbells (R344, R350) -/

/-- The doorbells stand above the properties, a queue's tail below its head. -/
theorem nvWrite_doorbell (f : Fn) {off : Nat} (v : Word) (s : State) (above : 0x1000 ≤ off) (below : off < 0x4000) :
    nvWrite f off v s = if off % 8 = 0 then nvSqTail f ((off - 0x1000) / 8) v.toNat s else nvCqHead f ((off - 0x1000) / 8) v.toNat s := by
  unfold nvWrite
  split
  case h_7 => exact if_neg (by omega)
  all_goals omega

theorem isNvme_atWork (p : Path) (off : Nat) (s : State) (f : Fn) : isNvme (atWork p off s) f = isNvme s f := by
  obtain ⟨d, w, k⟩ := atWork_form p off s
  rw [k]; rfl

section
variable {f : Fn} {q off v : Nat} {s0 : State} (below : off < 0x4000) (c : isNvme s0 f = true) (opened : pathOpen s0 (.fn f) = true)
  (free : accessWaits s0 (.fn f) off = false) (alive : blockDead s0 (.fn f) (accessBlk s0 (.fn f) off) = false) (word : v < 2 ^ 32)
include below c opened free alive word

theorem exec_nvmeSqDoorbell_acts (place : off = 0x1000 + 8 * q) :
    exec (.nvmeSqDoorbell f q v) s0 = .next (nvSqTail f q v (atWork (.fn f) off s0)) := by
  rw [exec_nvmeSqDoorbell, execNvmeSqDoorbell, if_pos c, ← place, nvme_acts c below opened free alive,
    nvWrite_doorbell f _ _ (by omega) below, if_pos (by omega)]
  have index : (off - 0x1000) / 8 = q := by omega
  have value : (w32 v).toNat = v := Nat.mod_eq_of_lt word
  rw [index, value]

theorem exec_nvmeCqDoorbell_acts (place : off = 0x1004 + 8 * q) :
    exec (.nvmeCqDoorbell f q v) s0 = .next (nvCqHead f q v (atWork (.fn f) off s0)) := by
  rw [exec_nvmeCqDoorbell, execNvmeCqDoorbell, if_pos c, ← place, nvme_acts c below opened free alive,
    nvWrite_doorbell f _ _ (by omega) below, if_neg (by omega)]
  have index : (off - 0x1000) / 8 = q := by omega
  have value : (w32 v).toNat = v := Nat.mod_eq_of_lt word
  rw [index, value]

end

section
variable {f : Fn} {q v : Nat} {s : State} (c : isNvme s f = true) (ready : (nvme s f).rdy = true)
include c ready

theorem nvSqTail_absent (absent : mfind (nvme s f).sqs q = none) : nvSqTail f q v s = nvAen f (at_ 16 1 + at_ 8 0) s := by
  simp [nvSqTail, c, ready, absent, nvBadDoorbell]

theorem nvSqTail_beyond {u : NSq} (there : mfind (nvme s f).sqs q = some u) (beyond : u.size ≤ v % 65536) :
    nvSqTail f q v s = nvAen f (at_ 16 1 + at_ 8 1) s := by
  simp [nvSqTail, c, ready, there, Nat.not_lt.mpr beyond, nvBadDoorbell]

theorem nvSqTail_moves {u : NSq} (there : mfind (nvme s f).sqs q = some u) (within : v % 65536 < u.size) :
    nvSqTail f q v s = modNvme f (fun x => { x with sqs := mput x.sqs q { u with tail := v % 65536 } }) s := by
  simp [nvSqTail, c, ready, there, within]

theorem nvCqHead_absent (absent : mfind (nvme s f).cqs q = none) : nvCqHead f q v s = nvAen f (at_ 16 1 + at_ 8 0) s := by
  simp [nvCqHead, c, ready, absent, nvBadDoorbell]

theorem nvCqHead_beyond {u : NCq} (there : mfind (nvme s f).cqs q = some u) (beyond : u.size ≤ v % 65536) :
    nvCqHead f q v s = nvAen f (at_ 16 1 + at_ 8 1) s := by
  simp [nvCqHead, c, ready, there, Nat.not_lt.mpr beyond, nvBadDoorbell]

theorem nvCqHead_moves {u : NCq} (there : mfind (nvme s f).cqs q = some u) (within : v % 65536 < u.size) : nvCqHead f q v s =
    nvDrain f q u.waiting (modNvme f (fun x => { x with cqs := mput x.cqs q { u with head := v % 65536 } }) s) := by
  simp [nvCqHead, c, ready, there, within]

end

/-! ### Fetching (R350) -/

theorem nvme_arrivals (f : Fn) (s : State) : nvme (modSto (fun t => { t with arrivals := t.arrivals + 1 }) s) f = nvme s f := rfl

section
variable {f : Fn} {q : Nat} {u : NSq} {s : State} (there : mfind (nvme s f).sqs q = some u) (fetches : nvFetches s f = true) (more : u.head ≠ u.tail)
include there fetches more

/-- The command at an SQ's head is fetched once its read has ended. -/
theorem exec_nvmeCommandFetch_takes {bs : Bytes} {e : BitVec 512} (take : mayTake s f (u.base + 64 * u.head) = true)
    (entry : e = BitVec.ofNat 512 (leNat (slice bs 0 64))) : exec (.nvmeCommandFetch f q (.data bs)) s =
      .next (modSto (fun t => { t with arrivals := t.arrivals + 1 }) (modNvme f (fun x => { x with
        sqs := mput x.sqs q { u with head := (u.head + 1) % u.size }
        cmds := x.cmds ++ [{ sq := q, entry := e, no := s.sto.arrivals, ns := ((nsFind s f (entryField e 4 4)).map Prod.snd).getD [] }] }) s)) := by
  subst entry
  rw [exec_nvmeCommandFetch, execNvmeCommandFetch, there]
  dsimp only
  rw [if_pos ⟨fetches, more⟩, withRead, operandRead_data take]

/-- A read that fails is made again. -/
theorem exec_nvmeCommandFetch_fails {got : HostRead} {s1 : State} (read : operandRead f (u.base + 64 * u.head) got s = some s1)
    (failed : ∀ bs, got ≠ .data bs) : exec (.nvmeCommandFetch f q got) s = .next s1 := by
  rw [exec_nvmeCommandFetch, execNvmeCommandFetch, there]
  dsimp only
  rw [if_pos ⟨fetches, more⟩, withRead, read]
  cases got with
  | data bs => exact absurd rfl (failed bs)
  | _ => rfl

end

/-! ### Admin commands (R347) -/

/-- The admin command of an opcode is carried out. -/
theorem admin_runs {f : Fn} {op : Nat} {c : NCmd} {s : State} (next : nvNext s f 0 op = some c) (g : NCmd → State → State) :
    admin f op g s = g c s := by
  rw [admin, next]

section
variable {f : Fn} {c : NCmd} {q size : Nat} {s : State} (id : q = cdw c 10 % 65536)
include id

section
variable (length : size = cdw c 10 / 65536) (prp : psdt c = 0) (contiguous : bitOf (cdw c 11) 0 = true) (notAdmin : q ≠ 0)
  (few : q ≤ ioqPairs s f) (some_ : size ≠ 0) (fits : size ≤ 0xFFF) (aligned : prp1 c % nvPage (nvme s f) = 0)
include length prp contiguous notAdmin few some_ fits aligned

theorem exec_createIoCq_creates (next : nvNext s f 0 5 = some c) (absent : mfind (nvme s f).cqs q = none)
    (room : poolFull (pairsTaken s) (nvme s f).cqs.length (nvme s f).sqs.length = false) (vector : cdw c 11 / 65536 < vectorsOf s f) :
    exec (.createIoCq f) s = .next (nvComplete f c.no 0 0 (modNvme f (fun x => { x with
      cqs := mput x.cqs q { base := prp1 c, size := size + 1, vector := cdw c 11 / 65536, ien := bitOf (cdw c 11) 1 } }) s)) := by
  subst id length
  rw [exec_createIoCq, execCreateIoCq, admin_runs next]
  simp [prp, contiguous, notAdmin, some_, aligned, absent, room, Nat.not_lt.mpr few, Nat.not_lt.mpr fits, Nat.not_le.mpr vector]

theorem exec_createIoSq_creates (next : nvNext s f 0 1 = some c) (absent : mfind (nvme s f).sqs q = none)
    (room : poolFull (pairsTaken s) (nvme s f).sqs.length (nvme s f).cqs.length = false) (ownCq : cdw c 11 / 65536 ≠ 0)
    (cq : (mfind (nvme s f).cqs (cdw c 11 / 65536)).isSome = true) :
    exec (.createIoSq f) s = .next (nvComplete f c.no 0 0 (modNvme f (fun x => { x with
      sqs := mput x.sqs q { base := prp1 c, size := size + 1, cq := cdw c 11 / 65536 } }) s)) := by
  subst id length
  have there : mfind (nvme s f).cqs (cdw c 11 / 65536) ≠ none := Option.isSome_iff_ne_none.mp cq
  rw [exec_createIoSq, execCreateIoSq, admin_runs next]
  simp [prp, contiguous, notAdmin, some_, aligned, absent, room, ownCq, there, Nat.not_lt.mpr few, Nat.not_lt.mpr fits]

end

theorem exec_createIoCq_exists (prp : psdt c = 0) (contiguous : bitOf (cdw c 11) 0 = true) (next : nvNext s f 0 5 = some c)
    (there : (mfind (nvme s f).cqs q).isSome = true) : exec (.createIoCq f) s = .next (nvComplete f c.no (nvSt 1 1 0) 0 s) := by
  subst id
  rw [exec_createIoCq, execCreateIoCq, admin_runs next]
  simp [prp, contiguous, there, nvSt, at_]

/-- CQ 0 takes no I/O queue's completions. -/
theorem exec_createIoSq_noCq (prp : psdt c = 0) (contiguous : bitOf (cdw c 11) 0 = true) (notAdmin : q ≠ 0) (few : q ≤ ioqPairs s f)
    (next : nvNext s f 0 1 = some c) (absent : mfind (nvme s f).sqs q = none)
    (room : poolFull (pairsTaken s) (nvme s f).sqs.length (nvme s f).cqs.length = false) (cq : cdw c 11 / 65536 = 0) :
    exec (.createIoSq f) s = .next (nvComplete f c.no (nvSt 1 0 0) 0 s) := by
  subst id
  rw [exec_createIoSq, execCreateIoSq, admin_runs next]
  simp [prp, contiguous, notAdmin, absent, room, cq, Nat.not_lt.mpr few, nvSt, at_]

theorem exec_deleteIoSq_absent (next : nvNext s f 0 0 = some c) (no : q = 0 ∨ mfind (nvme s f).sqs q = none) :
    exec (.deleteIoSq f) s = .next (nvComplete f c.no (nvSt 1 1 0) 0 s) := by
  subst id
  rw [exec_deleteIoSq, execDeleteIoSq, admin_runs next]
  exact congrArg _ (if_pos (no.imp_right Option.isNone_iff_eq_none.mpr))

theorem exec_deleteIoSq_deletes (next : nvNext s f 0 0 = some c) (notAdmin : q ≠ 0) (there : (mfind (nvme s f).sqs q).isSome = true) :
    exec (.deleteIoSq f) s = .next (nvComplete f c.no 0 0 (modNvme f (fun x => { x with sqs := mdel x.sqs q }) (nvSqGone f q s))) := by
  subst id
  rw [exec_deleteIoSq, execDeleteIoSq, admin_runs next]
  exact congrArg _ (if_neg (not_or.mpr ⟨notAdmin, by simp [Option.isSome_iff_ne_none.mp there]⟩))

section
variable (next : nvNext s f 0 4 = some c)
include next

theorem exec_deleteIoCq_absent (no : q = 0 ∨ mfind (nvme s f).cqs q = none) :
    exec (.deleteIoCq f) s = .next (nvComplete f c.no (nvSt 1 1 0) 0 s) := by
  subst id
  rw [exec_deleteIoCq, execDeleteIoCq, admin_runs next]
  simp [no, nvSt, at_]

section
variable (notAdmin : q ≠ 0) (there : (mfind (nvme s f).cqs q).isSome = true)
include notAdmin there

/-- A CQ that an SQ completes to is not deleted. -/
theorem exec_deleteIoCq_targeted (used : (nvme s f).sqs.any (fun e => e.2.cq == q) = true) :
    exec (.deleteIoCq f) s = .next (nvComplete f c.no (nvSt 1 0xC 0) 0 s) := by
  subst id
  rw [exec_deleteIoCq, execDeleteIoCq, admin_runs next]
  simp only [Option.isNone_eq_false_iff.mpr there, used, notAdmin, false_or, Bool.false_eq_true, if_false, if_true]
  rfl

theorem exec_deleteIoCq_deletes (unused : (nvme s f).sqs.any (fun e => e.2.cq == q) = false) :
    exec (.deleteIoCq f) s = .next (nvComplete f c.no 0 0 (modNvme f (fun x => { x with cqs := mdel x.cqs q }) s)) := by
  subst id
  rw [exec_deleteIoCq, execDeleteIoCq, admin_runs next]
  simp only [Option.isNone_eq_false_iff.mpr there, unused, notAdmin, false_or, Bool.false_eq_true, if_false, if_true]

end
end
end

section
variable {f : Fn} {c : NCmd} {s : State}

/-! ### IDENTIFY and GET_LOG_PAGE (R347) -/

section
variable (next : nvNext s f 0 6 = some c) (list : HostRead)
include next

theorem exec_identify_controller (cns : cdw c 10 % 256 = 1) : exec (.identify f list) s = .next (adminData f c (identifyCtrl s f) list s) := by
  rw [exec_identify, execIdentify, admin_runs next]
  simp only [cns]

theorem exec_identify_badNamespace (cns : cdw c 10 % 256 = 0) (bad : cdw c 1 = 0 ∨ 256 < cdw c 1) :
    exec (.identify f list) s = .next (nvComplete f c.no (nvSt 0 0xB 0) 0 s) := by
  rw [exec_identify, execIdentify, admin_runs next]
  simp only [cns, bad, if_true]

theorem exec_identify_namespace {e : Nat × Bytes} (cns : cdw c 10 % 256 = 0) (some_ : cdw c 1 ≠ 0) (few : cdw c 1 ≤ 256)
    (found : nsFind s f (cdw c 1) = some e) : exec (.identify f list) s = .next (adminData f c (identifyNs e.2) list s) := by
  rw [exec_identify, execIdentify, admin_runs next]
  simp only [cns, some_, Nat.not_lt.mpr few, found, or_self, if_false]

theorem exec_identify_active (cns : cdw c 10 % 256 = 2) (below : cdw c 1 < 0xFFFFFFFE) : exec (.identify f list) s =
    .next (adminData f c (slice ((activeNs s f (cdw c 1)).map (leBytes 4)).flatten 0 4096) list s) := by
  rw [exec_identify, execIdentify, admin_runs next]
  simp only [cns, Nat.not_le.mpr below, if_false]

theorem exec_identify_other (cns : 3 < cdw c 10 % 256) : exec (.identify f list) s = .next (nvComplete f c.no (nvSt 0 2 0) 0 s) := by
  rw [exec_identify, execIdentify, admin_runs next]
  refine congrArg _ ?_
  dsimp only
  split
  case h_5 => rfl
  all_goals omega

end

section
variable (next : nvNext s f 0 2 = some c) (list : HostRead)
include next

theorem exec_getLogPage_other (page : cdw c 10 % 256 = 0 ∨ 4 < cdw c 10 % 256) :
    exec (.getLogPage f list) s = .next (nvComplete f c.no (nvSt 0 2 0) 0 s) := by
  rw [exec_getLogPage, execGetLogPage, admin_runs next]
  refine congrArg _ ?_
  dsimp only
  split
  case h_5 => rfl
  all_goals omega

/-- The SMART/Health log whole: 128 dwords from offset 0. -/
theorem exec_getLogPage_smart (page : cdw c 10 % 256 = 2) (low : cdw c 10 / 65536 = 127) (high : cdw c 11 % 65536 = 0) (off : cdw c 12 = 0)
    (offHigh : cdw c 13 = 0) (long : (smartLog s (nvme s f)).length = 512) :
    exec (.getLogPage f list) s = .next (adminData f c (slice (smartLog s (nvme s f)) 0 512) list s) := by
  rw [exec_getLogPage, execGetLogPage, admin_runs next]
  simp [page, low, high, off, offHigh, long, at_]

end

/-! ### ABORT, features and asynchronous events (R347, R352) -/

section
variable {n : NCmd} (next : nvNext s f 0 8 = some c)
include next

theorem exec_nvmeAbort_absent (no : (nvme s f).cmds.find? (fun n => n.sq == cdw c 10 % 65536 && entryField n.entry 2 2 == cdw c 10 / 65536 &&
    n.no != c.no && !n.discard) = none) : exec (.nvmeAbort f) s = .next (nvComplete f c.no 0 1 s) := by
  rw [exec_nvmeAbort, execNvmeAbort, admin_runs next]
  simp only [no]

/-- A command that has not been sent is removed. -/
theorem exec_nvmeAbort_removes (found : (nvme s f).cmds.find? (fun n => n.sq == cdw c 10 % 65536 && entryField n.entry 2 2 == cdw c 10 / 65536 &&
      n.no != c.no && !n.discard) = some n)
    (few : ((nvme s f).cmds.filter (fun n => n.sq == 0 && entryField n.entry 0 1 == 8 && n.st != .fetched)).length < 4) (ready : n.st = .ready) :
    exec (.nvmeAbort f) s = .next (nvComplete f c.no 0 0 (nvComplete f n.no (nvSt 0 7 0) 0
      (modNvme f (fun x => { x with aers := x.aers.filter (· != n.no) }) s))) := by
  have unsent : ¬ (n.st = .sent ∨ n.st = .held) := by simp [ready]
  rw [exec_nvmeAbort, execNvmeAbort, admin_runs next]
  simp only [found, Nat.not_le.mpr few, unsent, if_false]

end

theorem exec_setFeatures_queues (next : nvNext s f 0 9 = some c) (unsaved : bitOf (cdw c 10) 31 = false) (queues : cdw c 10 % 256 = 7) :
    exec (.setFeatures f) s = .next (nvComplete f c.no 0 ((ioqPairs s f - 1) + at_ 16 (ioqPairs s f - 1)) s) := by
  rw [exec_setFeatures, execSetFeatures, admin_runs next]
  simp [unsaved, queues, featIds]

section
variable {fid v : Nat} (id : fid = cdw c 10 % 256) (value : v = cdw c 11) (known : fid ∈ featIds)
include id value known

section
variable (next : nvNext s f 0 9 = some c) (unsaved : bitOf (cdw c 10) 31 = false)
include next unsaved

theorem exec_setFeatures_sets (plain : fid = 1 ∨ fid = 6 ∨ fid = 8 ∨ fid = 0xB) : exec (.setFeatures f) s =
    .next (nvComplete f c.no 0 0 (modNvme f (fun x => { x with features := mset 0 x.features fid v }) s)) := by
  subst id value
  rw [exec_setFeatures, execSetFeatures, admin_runs next]
  rcases plain with e | e | e | e <;> simp [e, unsaved, featKey, featIds]

end

/-- Power Management takes power state 0 alone. -/
theorem exec_setFeatures_power (next : nvNext s f 0 9 = some c) (power : fid = 2) (other : v % 32 ≠ 0) :
    exec (.setFeatures f) s = .next (nvComplete f c.no (nvSt 0 2 0) 0 s) := by
  subst id value
  rw [exec_setFeatures, execSetFeatures, admin_runs next]
  simp [power, other]

theorem exec_getFeatures_current (next : nvNext s f 0 0xA = some c) (current : bits (cdw c 10) 10 8 = 0) :
    exec (.getFeatures f) s = .next (nvComplete f c.no 0 (featValue s f fid (v % 65536)) s) := by
  subst id value
  rw [exec_getFeatures, execGetFeatures, admin_runs next]
  simp [known, current]

end

section
variable (next : nvNext s f 0 0xC = some c)
include next

theorem exec_asynchronousEventRequest_limit (four : 4 ≤ (nvme s f).aers.length) :
    exec (.asynchronousEventRequest f) s = .next (nvComplete f c.no (nvSt 1 5 0) 0 s) := by
  rw [exec_asynchronousEventRequest, execAsynchronousEventRequest, admin_runs next]
  exact congrArg _ (if_pos four)

section
variable (few : (nvme s f).aers.length < 4)
include few

theorem exec_asynchronousEventRequest_waits (none_ : (nvme s f).events = []) : exec (.asynchronousEventRequest f) s =
    .next (modNvme f (fun x => { x with
      aers := x.aers ++ [c.no], cmds := updFirst (fun n => n.no == c.no) (fun n => { n with st := .ready, ctx := 0x10000 }) x.cmds }) s) := by
  rw [exec_asynchronousEventRequest, execAsynchronousEventRequest, admin_runs next]
  simp only [Nat.not_le.mpr few, none_, if_false]

/-- An event that waits completes the request. -/
theorem exec_asynchronousEventRequest_event {e : Nat} {rest : List Nat} (oldest : (nvme s f).events = e :: rest) :
    exec (.asynchronousEventRequest f) s = .next (nvComplete f c.no 0 e (modNvme f (fun x => { x with events := rest }) s)) := by
  rw [exec_asynchronousEventRequest, execAsynchronousEventRequest, admin_runs next]
  simp only [Nat.not_le.mpr few, oldest, if_false]

end
end
end

/-! ### The obligation -/

/-- Settles O44, clause by clause, by the equations above. -/
theorem nvmeControllers : Obligations.NvmeControllers := by
  refine ⟨?enable, ?disable, fun f s => exec_shutdown_begins, ?timeout, ?sqDoorbell, ?cqDoorbell, ?fetch,
    fun f q got u s s1 there fetches more read failed => exec_nvmeCommandFetch_fails there fetches more read failed, ?create, ?delete, ?identify,
    fun f c n s next => ⟨exec_nvmeAbort_absent next, exec_nvmeAbort_removes next⟩, ?features,
    fun f c s next => ⟨exec_asynchronousEventRequest_limit next, fun few none_ => ⟨_, exec_asynchronousEventRequest_waits next few none_, ?aers⟩,
      fun e rest few oldest => exec_asynchronousEventRequest_event next few oldest⟩⟩
  case enable =>
    intro f cc s isController off ok
    refine ⟨_, if_pos isController, ?_⟩
    rw [nvme_ccEnable off ok]
    exact ⟨rfl, bitOf_ccFields_succ cc, rfl, rfl, rfl, rfl⟩
  case disable =>
    intro f s isController on
    refine ⟨_, if_pos ⟨isController, on⟩, ?_⟩
    rw [nvDisable, nvme_modNvme_same]
    exact ⟨rfl, rfl, rfl, rfl, rfl, rfl, rfl⟩
  case timeout =>
    intro f a s since
    refine ⟨_, exec_shutdownTimeout_ends since, ?_⟩
    rw [nvme_modNvme_same]
    exact ⟨rfl, rfl, (elapsed_advanceTo _ s).symm⟩
  case sqDoorbell =>
    rintro f q off v s0 _ place below isController opened free alive rfl word ready
    rw [exec_nvmeSqDoorbell_acts below isController opened free alive word place]
    rw [← isNvme_atWork (.fn f) off] at isController
    refine ⟨fun absent => congrArg _ (nvSqTail_absent isController ready absent), fun u there =>
      ⟨fun within => ⟨_, congrArg _ (nvSqTail_moves isController ready there within), ?_⟩,
        fun beyond => congrArg _ (nvSqTail_beyond isController ready there beyond)⟩⟩
    rw [nvme_modNvme_same]
    exact mfind_mput_same _ _ _
  case cqDoorbell =>
    rintro f q off v s0 _ place below isController opened free alive rfl word ready
    rw [exec_nvmeCqDoorbell_acts below isController opened free alive word place]
    rw [← isNvme_atWork (.fn f) off] at isController
    exact ⟨fun absent => congrArg _ (nvCqHead_absent isController ready absent), fun u there =>
      ⟨fun within => congrArg _ (nvCqHead_moves isController ready there within),
        fun beyond => congrArg _ (nvCqHead_beyond isController ready there beyond)⟩⟩
  case fetch =>
    intro f q bs e u s there fetches more take entry
    refine ⟨_, exec_nvmeCommandFetch_takes there fetches more take entry, ?_⟩
    rw [nvme_arrivals, nvme_modNvme_same]
    exact ⟨mfind_mput_same _ _ _, rfl, rfl⟩
  case create =>
    intro f c q size s id length prp contiguous notAdmin few some_ fits aligned
    exact ⟨exec_createIoCq_creates id length prp contiguous notAdmin few some_ fits aligned, exec_createIoCq_exists id prp contiguous,
      exec_createIoSq_creates id length prp contiguous notAdmin few some_ fits aligned,
      exec_createIoSq_noCq id prp contiguous notAdmin few⟩
  case delete =>
    intro f c q s id
    exact ⟨fun next => ⟨exec_deleteIoSq_absent id next, exec_deleteIoSq_deletes id next⟩,
      fun next => ⟨exec_deleteIoCq_absent id next, exec_deleteIoCq_targeted id next, exec_deleteIoCq_deletes id next⟩⟩
  case identify =>
    intro f c list s
    exact ⟨fun next => ⟨exec_identify_controller next list, exec_identify_badNamespace next list, fun e => exec_identify_namespace next list,
        exec_identify_active next list, exec_identify_other next list⟩,
      fun next => ⟨exec_getLogPage_other next list, exec_getLogPage_smart next list⟩⟩
  case features =>
    intro f c fid v s id value known
    exact ⟨fun next unsaved => ⟨fun queues => exec_setFeatures_queues next unsaved (id.symm.trans queues), exec_setFeatures_sets id value known next unsaved,
      exec_setFeatures_power id value known next⟩, exec_getFeatures_current id value known⟩
  case aers => rw [nvme_modNvme_same]

end Sys2Proof.Machine
end

section
/-!
SUPPORT. NVMe I/O commands, the data and responses of the transports, and the failure of a connection (R347 to R364): an equation for each case,
and the statement O45.
-/
namespace Sys2Proof.Machine

/-! ### I/O commands (R347, R351 to R353) -/

/-- What a command's list read goes on to, where no list is needed or its read ends with data. -/
theorem withList_runs {s : State} {f : Fn} {c : NCmd} {n : Nat} (lb : Bytes) (k : State → State) (take : nvNeedsList s f c n = false ∨
    mayTake s f (if psdt c = 0 then prp2 c else entryField c.entry 24 8) = true) : withList f c n (.data lb) k s = k s := by
  rw [withList]
  split
  case isTrue needs => rw [withRead, operandRead_data (take.resolve_left (by simp [needs]))]
  case isFalse => rfl

section
variable {f : Fn} {q op n : Nat} {c : NCmd} {e lb : Bytes} {rw_ data wr : Bool} {host : HostRead} {s : State} (io : q ≠ 0) (next : nvNext s f q op = some c)
include io next

theorem nvIo_noNamespace (list : HostRead) (no : nsOf s f c = none) : nvIo f q op rw_ data wr list host s = nvComplete f c.no (nvSt 0 0xB 0) 0 s := by
  simp [nvIo, next, io, no]

section
variable (there : nsOf s f c = some e) (blocks : n = (cdw c 12 % 65536 + 1) * 2 ^ byteAt e 7)
  (list : data = false ∨ nvNeedsList s f c n = false ∨ mayTake s f (if psdt c = 0 then prp2 c else entryField c.entry 24 8) = true)
include there blocks list

/-- A command of a namespace is judged by nvCheck, its list read where it needs one. -/
theorem nvIo_checked : nvIo f q op rw_ data wr (.data lb) host s =
    if (nvCheck s f c e rw_ data wr (.data lb)).1 ≠ 0 then nvComplete f c.no (nvCheck s f c e rw_ data wr (.data lb)).1 0 s
    else nvLaunch f { c with buf := (nvCheck s f c e rw_ data wr (.data lb)).2 } e op n host s := by
  subst blocks
  simp only [nvIo, next, io, there, if_false]
  split
  case isTrue reads =>
    obtain ⟨carries, -⟩ := reads
    rw [withList_runs lb _ (list.resolve_left (by simp [carries]))]
  case isFalse => rfl

theorem nvIo_refused (bad : (nvCheck s f c e rw_ data wr (.data lb)).1 ≠ 0) :
    nvIo f q op rw_ data wr (.data lb) host s = nvComplete f c.no (nvCheck s f c e rw_ data wr (.data lb)).1 0 s := by
  rw [nvIo_checked io next there blocks list, if_pos bad]

theorem nvIo_launches (good : (nvCheck s f c e rw_ data wr (.data lb)).1 = 0) :
    nvIo f q op rw_ data wr (.data lb) host s = nvLaunch f { c with buf := (nvCheck s f c e rw_ data wr (.data lb)).2 } e op n host s := by
  rw [nvIo_checked io next there blocks list, if_neg (not_not_intro good)]

end
end

/-- Only a Write carries its data in its capsule. -/
theorem nvLaunch_dispatches {f : Fn} {c : NCmd} {e : Bytes} {op n : Nat} {host : HostRead} {s : State}
    (plain : op ≠ 1 ∨ inCapsule s e n = false) : nvLaunch f c e op n host s = nvDispatch f c e (nvCountIo f op n s) := by
  rw [nvLaunch, if_neg]
  rcases plain with h | h <;> simp [h]

/-- The data of a Write is read before it is sent where it goes in its capsule. -/
theorem nvLaunch_write {f : Fn} {c : NCmd} {e bs : Bytes} {n : Nat} {s : State} (alive : stoGone s = false)
    (take : mayTake s f (segAddr c.buf 0) = true) : nvLaunch f c e 1 n (.data bs) s =
      nvDispatch f { c with capsule := if inCapsule s e n then slice bs 0 n else c.capsule } e (nvCountIo f 1 n s) := by
  by_cases inside : inCapsule s e n = true
  · rw [nvLaunch, if_pos (by simp [inside, alive]), withRead, operandRead_data take, if_pos inside]
  · rw [nvLaunch_dispatches (.inr (Bool.eq_false_iff.mpr inside)), if_neg inside]

theorem nvCheck_flush (s : State) (f : Fn) (c : NCmd) (e : Bytes) : nvCheck s f c e false false false (.data []) = (0, []) := rfl

section
variable {s : State} {f : Fn} {c : NCmd} {e lb : Bytes} {wr : Bool} {segs : List (Nat × Nat)} (short : (cdw c 12 % 65536 + 1) * 2 ^ byteAt e 7 ≤ 2 ^ 21)
  (found : nvSegs s f c ((cdw c 12 % 65536 + 1) * 2 ^ byteAt e 7) lb = some segs)
include short found

/-- The bounds of the namespace come first, then its write protection. -/
theorem nvCheck_pointed : nvCheck s f c e true true wr (.data lb) = if leAt e 8 8 < entryField c.entry 40 8 + (cdw c 12 % 65536 + 1) then (nvSt 0 0x80 1, [])
    else if wr && bitOf (byteAt e 6) 1 then (nvSt 1 0x82 1, []) else (0, segs) := by
  have small : ¬ 2097152 < (cdw c 12 % 65536 + 1) * 2 ^ byteAt e 7 := Nat.not_lt.mpr short
  simp [nvCheck, found, small]

theorem nvCheck_beyond (beyond : leAt e 8 8 < entryField c.entry 40 8 + (cdw c 12 % 65536 + 1)) :
    nvCheck s f c e true true wr (.data lb) = (nvSt 0 0x80 1, []) := by
  rw [nvCheck_pointed short found, if_pos beyond]

section
variable (within : entryField c.entry 40 8 + (cdw c 12 % 65536 + 1) ≤ leAt e 8 8)
include within

theorem nvCheck_readOnly (readOnly : bitOf (byteAt e 6) 1 = true) : nvCheck s f c e true true true (.data lb) = (nvSt 1 0x82 1, []) := by
  simp [nvCheck_pointed short found, readOnly, Nat.not_lt.mpr within]

theorem nvCheck_passes (allowed : wr = false ∨ bitOf (byteAt e 6) 1 = false) : nvCheck s f c e true true wr (.data lb) = (0, segs) := by
  rcases allowed with h | h <;> simp [nvCheck_pointed short found, h, Nat.not_lt.mpr within]

end
end

/-! ### DATASET_MANAGEMENT (R347, R353) -/

section
variable {f : Fn} {q n : Nat} {c : NCmd} {e bs rs : Bytes} {s : State} (next : nvNext s f q 9 = some c)
include next

theorem exec_datasetManagement_noNamespace (no : nsOf s f c = none) :
    exec (.datasetManagement f q (.data bs)) s = .next (nvComplete f c.no (nvSt 0 0xB 0) 0 s) := by
  simp [execDatasetManagement, next, no]

section
variable (count : n = cdw c 10 % 256 + 1) (ranges : rs = slice bs 0 (16 * n)) (there : nsOf s f c = some e)
  (prps : (prpSegs (nvPage (nvme s f)) (prp1 c) (prp2 c) (16 * n) []).isSome = true) (form : psdt c ≠ 3)
  (take : mayTake s f (if psdt c = 0 then prp1 c else entryField c.entry 24 8) = true)
include count ranges there prps form take

/-- The ranges, once read, are judged against the namespace's size and the attributes. -/
theorem exec_datasetManagement_reads : exec (.datasetManagement f q (.data bs)) s =
    .next (if (List.range n).any (fun i => decide (leAt e 8 8 < leAt rs (16 * i + 8) 8 + leAt rs (16 * i + 4) 4)) then nvComplete f c.no (nvSt 0 0x80 1) 0 s
      else if !bitOf (cdw c 11) 2 then nvComplete f c.no 0 0 s
      else if bitOf (byteAt e 6) 1 then nvComplete f c.no (nvSt 1 0x82 1) 0 s
      else nvDispatch f { c with ranges := rs } e s) := by
  subst count ranges
  rw [exec_datasetManagement, execDatasetManagement, next]
  dsimp only
  rw [there]
  dsimp only
  rw [if_neg (not_or.mpr ⟨by simpa [← Option.isSome_iff_ne_none] using prps, form⟩), withRead, operandRead_data take]

theorem exec_datasetManagement_beyond
    (beyond : (List.range n).any (fun i => decide (leAt e 8 8 < leAt rs (16 * i + 8) 8 + leAt rs (16 * i + 4) 4)) = true) :
    exec (.datasetManagement f q (.data bs)) s = .next (nvComplete f c.no (nvSt 0 0x80 1) 0 s) := by
  rw [exec_datasetManagement_reads next count ranges there prps form take, if_pos beyond]

section
variable (within : (List.range n).any (fun i => decide (leAt e 8 8 < leAt rs (16 * i + 8) 8 + leAt rs (16 * i + 4) 4)) = false)
include within

theorem exec_datasetManagement_hint (hint : bitOf (cdw c 11) 2 = false) :
    exec (.datasetManagement f q (.data bs)) s = .next (nvComplete f c.no 0 0 s) := by
  rw [exec_datasetManagement_reads next count ranges there prps form take, within]
  simp [hint]

theorem exec_datasetManagement_deallocates (deallocate : bitOf (cdw c 11) 2 = true) (writable : bitOf (byteAt e 6) 1 = false) :
    exec (.datasetManagement f q (.data bs)) s = .next (nvDispatch f { c with ranges := rs } e s) := by
  rw [exec_datasetManagement_reads next count ranges there prps form take, within]
  simp [deallocate, writable]

end
end
end

/-! ### Data and responses of the transports (R350, R351, R353, R359, R360) -/

section
variable {ctx wire off : Nat} {f : Fn} {n : NCmd} {s : State} (up : (connOf s ctx).st = .established) (tcp : cxType (connOf s ctx) = 1)
include up tcp

theorem exec_c2hData_badHeader (data : Bytes) (ok : Bool) : exec (.c2hData ctx wire off data false ok) s =
    .next (raise 0xA 0x04 ctx .device (connFail ctx (emit (.remote ctx 0x02 []) s))) := by
  rw [exec_c2hData, execC2hData, if_neg (not_or.mpr ⟨not_not_intro up, not_not_intro tcp⟩)]
  rfl

section
variable (sent : wireCmd s ctx wire = some (f, n))
include sent

section
variable {data : Bytes} {u : State} (seq : u = seqRx ctx (pduLen (connOf s ctx) 24 data.length) s)
include seq

/-- A data digest that fails makes the command run again. -/
theorem exec_c2hData_badData : exec (.c2hData ctx wire off data true false) s =
    .next (modCmd f n.no (fun n => { n with digestFails := n.digestFails + 1, resend := true }) (bump .STO_STAT 3 0 1 (heard ctx u))) := by
  subst seq
  rw [exec_c2hData, execC2hData, if_neg (not_or.mpr ⟨not_not_intro up, not_not_intro tcp⟩)]
  simp only [sent]
  rfl

theorem exec_c2hData_lands (wanted : n.discard = false) : exec (.c2hData ctx wire off data true true) s = .next (bufWrite f n.buf off data (heard ctx u)) := by
  subst seq
  rw [exec_c2hData, execC2hData, if_neg (not_or.mpr ⟨not_not_intro up, not_not_intro tcp⟩)]
  simp [sent, wanted]

theorem exec_c2hData_discards (dropped : n.discard = true) : exec (.c2hData ctx wire off data true true) s = .next (heard ctx u) := by
  subst seq
  rw [exec_c2hData, execC2hData, if_neg (not_or.mpr ⟨not_not_intro up, not_not_intro tcp⟩)]
  simp [sent, dropped]

end

theorem exec_nvmeTcpR2t_fails {len : Nat} {got : HostRead} {s1 : State} (read : operandRead f (segAddr n.buf off) got s = some s1)
    (failed : ∀ bs, got ≠ .data bs) : exec (.nvmeTcpR2t ctx wire off len got) s =
      .next (modCmd f n.no (fun n => { n with dataError := true }) (heard ctx (seqRx ctx (pduLen (connOf s ctx) 24 0) s1))) := by
  rw [exec_nvmeTcpR2t, execNvmeTcpR2t, if_neg (not_or.mpr ⟨not_not_intro up, not_not_intro tcp⟩)]
  simp only [sent, withRead, read]

theorem exec_nvmeTcpR2t_sends {len : Nat} {bs : Bytes} (take : mayTake s f (segAddr n.buf off) = true) : exec (.nvmeTcpR2t ctx wire off len (.data bs)) s =
    .next (h2cData ctx wire off (slice bs 0 len) (heard ctx (seqRx ctx (pduLen (connOf s ctx) 24 0) s))) := by
  rw [exec_nvmeTcpR2t, execNvmeTcpR2t, if_neg (not_or.mpr ⟨not_not_intro up, not_not_intro tcp⟩)]
  simp only [sent, withRead, operandRead_data take]

end
end

/-- Data of at most MAXH2CDATA goes in one H2CData PDU (R357, R359). -/
theorem h2cData_one {ctx wire off : Nat} {data : Bytes} {s : State} (fits : data.length ≤ 4096 * max 1 (leAt (connOf s ctx).data 66 2)) :
    h2cData ctx wire off data s =
      emit (.remote ctx 0x06 (leBytes 2 wire ++ leBytes 4 off ++ data)) (seqTx ctx (pduLen (connOf s ctx) 24 data.length) s) := by
  have one : max 1 (ceilDiv data.length (4096 * max 1 (leAt (connOf s ctx).data 66 2))) = 1 := by
    have pos : 0 < 4096 * max 1 (leAt (connOf s ctx).data 66 2) := by omega
    generalize 4096 * max 1 (leAt (connOf s ctx).data 66 2) = most at fits pos ⊢
    have le : ceilDiv data.length most ≤ 1 := by
      rw [ceilDiv]
      exact Nat.lt_succ_iff.mp (Nat.div_lt_of_lt_mul (by omega))
    omega
  rw [h2cData, one]
  simp only [List.range_one, foldS, Nat.zero_mul, List.drop_zero, Nat.add_zero, List.take_of_length_le fits]

theorem exec_remoteResponse_command {ctx wire status dw0 : Nat} {data : Bytes} {ic ecn : Bool} {f : Fn} {n : NCmd} {s u : State}
    (tcp : cxType (connOf s ctx) = 1) (heard_ : u = cnpSend ctx ecn (seqRx ctx (pduLen (connOf s ctx) 24 0) s))
    (sent : wireCmd u ctx wire = some (f, n)) : exec (.remoteResponse ctx wire status dw0 data ic ecn) s =
      .next (cxSendAll ctx (abortMissed f n (nvRespond f n status dw0 (heard ctx u)))) := by
  subst heard_
  rw [exec_remoteResponse, execRemoteResponse, if_neg (by simp [tcp]), if_neg (by simp [tcp])]
  simp only [tcp, if_true, sent]

section
variable {f : Fn} {n : NCmd} {status dw0 : Nat} {s : State} (wanted : n.discard = false)
include wanted

theorem nvRespond_dataError (failed : n.dataError = true) : nvRespond f n status dw0 s = nvComplete f n.no (nvSt 0 4 0) 0 s := by
  simp [nvRespond, wanted, failed]

theorem nvRespond_completes (ok : n.dataError = false) (once : n.resend = false) :
    nvRespond f n status dw0 s = nvComplete f n.no (status % 2 ^ 15) dw0 s := by
  simp [nvRespond, wanted, ok, once]

/-- A command whose data failed its digest is sent again. -/
theorem nvRespond_resends (ok : n.dataError = false) (again : n.resend = true) (few : n.digestFails < retryLimit (connOf s n.ctx)) :
    nvRespond f n status dw0 s = modCmd f n.no (fun n => { n with st := .held }) s := by
  simp [nvRespond, wanted, ok, again, Nat.not_le.mpr few]

end

/-! ### The failure of a connection (R356, R358 to R360, R363) -/

section
variable {ctx : Nat} {s : State}

theorem exec_cmdTimeout_fails {a : Nat} (oldest : oldestSent s ctx = some a) : exec (.cmdTimeout ctx) s =
    .next (connFail ctx (advanceTo (a + leAt (connOf s ctx).data 74 2 * 1000000000) s)) := by
  rw [exec_cmdTimeout, execCmdTimeout, oldest]

theorem exec_connectionFailure_up (up : (connOf s ctx).st = .established) (digest : Bool) :
    exec (.connectionFailure ctx digest) s = .next (if digest then headerFailure ctx s else connFail ctx s) := by
  rw [exec_connectionFailure, execConnectionFailure, if_neg (not_not_intro up)]

theorem exec_lossTmo_fails (down : (connOf s ctx).st = .recovering) :
    exec (.lossTmo ctx) s = .next (cxLose ctx (raise 0xA 0x03 ctx .device (modConn ctx (fun x => { x with st := .failed })
      (advanceTo ((connOf s ctx).downAt + leAt (connOf s ctx).data 72 2 * 1000000000) s)))) := by
  rw [exec_lossTmo, execLossTmo, if_neg (not_not_intro down)]

section
variable (up : (connOf s ctx).st = .established) (waits : (oldestSent s ctx).isSome = true)
include up waits

theorem cxRetry_tried (tried : retryLimit (connOf s ctx) ≤ (connOf s ctx).retries) : cxRetry ctx s = connFail ctx s := by
  simp [cxRetry, up, Option.isSome_iff_ne_none.mp waits, tried]

theorem cxRetry_again (few : (connOf s ctx).retries < retryLimit (connOf s ctx)) :
    cxRetry ctx s = emit (.remote ctx 0x82 []) (modConn ctx (fun x => { x with retries := x.retries + 1 }) s) := by
  simp [cxRetry, up, Option.isSome_iff_ne_none.mp waits, Nat.not_le.mpr few]

end
end

/-! ### The obligation -/

/-- Settles O45, clause by clause, by the equations above. -/
theorem nvmeIoAndTransport : Obligations.NvmeIoAndTransport := by
  refine ⟨?readWrite, ?zeroesFlush, fun s f c e wr segs lb short found => ⟨nvCheck_beyond short found, nvCheck_readOnly short found, nvCheck_passes short found⟩,
    ?dataset, ?c2h, ?r2t, fun ctx wire off len got f n s s1 up tcp sent => exec_nvmeTcpR2t_fails up tcp sent,
    fun ctx wire status dw0 data ic ecn f n s u => exec_remoteResponse_command,
    fun f n status dw0 s => ⟨nvRespond_completes, nvRespond_dataError, nvRespond_resends⟩, fun ctx a s => exec_cmdTimeout_fails,
    fun ctx s up => ⟨exec_connectionFailure_up up false, exec_connectionFailure_up up true⟩,
    fun ctx s up waits => ⟨fun tried => congrArg _ (cxRetry_tried up waits tried), fun few => congrArg _ (cxRetry_again up waits few)⟩,
    fun ctx s => exec_lossTmo_fails⟩
  case readWrite =>
    intro f q n c e lb h s io blocks list
    simp only [exec_nvmeRead, execNvmeRead, exec_nvmeWrite, execNvmeWrite]
    refine ⟨fun next => ⟨fun no => ?_, fun there bad => ?_, fun there good => ?_⟩,
      fun next => ⟨fun no => ?_, fun there bad => ?_, fun there good outside => ?_, fun bs there good alive take => ?_⟩⟩
    · rw [nvIo_noNamespace io next _ no]
    · rw [nvIo_refused io next there blocks (.inr list) bad]
    · rw [nvIo_launches io next there blocks (.inr list) good, nvLaunch_dispatches (.inl (by decide))]
    · rw [nvIo_noNamespace io next _ no]
    · rw [nvIo_refused io next there blocks (.inr list) bad]
    · rw [nvIo_launches io next there blocks (.inr list) good, nvLaunch_dispatches (.inr outside)]
    · rw [nvIo_launches io next there blocks (.inr list) good, nvLaunch_write (c := { c with buf := _ }) alive take]
  case zeroesFlush =>
    intro f q n c e s io blocks
    simp only [exec_writeZeroes, execWriteZeroes, exec_nvmeFlush, execNvmeFlush]
    refine ⟨fun next => ⟨fun no => ?_, fun there bad => ?_, fun there good => ?_⟩, fun next => ⟨fun no => ?_, fun there => ?_⟩⟩
    · rw [nvIo_noNamespace io next _ no]
    · rw [nvIo_refused io next there blocks (.inl rfl) bad]
    · rw [nvIo_launches io next there blocks (.inl rfl) good, nvLaunch_dispatches (.inl (by decide))]
    · rw [nvIo_noNamespace io next _ no]
    · rw [nvIo_launches io next there blocks (.inl rfl) (by rw [nvCheck_flush]), nvCheck_flush, nvLaunch_dispatches (.inl (by decide))]
  case dataset =>
    intro f q n c e bs rs s next count ranges
    exact ⟨exec_datasetManagement_noNamespace next, fun there prps form take => ⟨exec_datasetManagement_beyond next count ranges there prps form take,
      exec_datasetManagement_hint next count ranges there prps form take, exec_datasetManagement_deallocates next count ranges there prps form take⟩⟩
  case c2h =>
    intro ctx wire off data f n s u up tcp seq sent
    exact ⟨exec_c2hData_badData up tcp sent seq, exec_c2hData_lands up tcp sent seq, exec_c2hData_discards up tcp sent seq,
      exec_c2hData_badHeader up tcp data⟩
  case r2t =>
    rintro ctx wire off len _ bs f n s _ up tcp rfl sent take rfl fits
    rw [exec_nvmeTcpR2t_sends up tcp sent take, h2cData_one fits]

end Sys2Proof.Machine
end

section
/-!
SUPPORT. Connection contexts and namespaces by register, arrivals of RoCEv2, and STORAGE-class operations (R348, R354, R357 to R368): an equation
for each case, and the statement O46.
-/
namespace Sys2Proof.Machine

/-! ### The actions of STO_CTX_CTRL and STO_NS_CTRL (R348, R357, R358, R368) -/

section
variable {p : Path} {off : Nat} {s : State} (acts : actsAt p off s = true)
include acts

section
variable (place : regBar p .STO_CTX_CTRL 0 = some off)
include place

theorem exec_ctxWrite_acts : exec (.ctxWrite p) s = .next (ctxWrite (asPath p) (atWork p off s)) :=
  congrArg Host.Outcome.next (writeOf_does 1 (by decide) place acts _ (fun _ => rfl))

theorem exec_ctxRead_acts : exec (.ctxRead p) s = .next (ctxRead (asPath p) (atWork p off s)) :=
  congrArg Host.Outcome.next (writeOf_does 2 (by decide) place acts _ (fun _ => rfl))

theorem exec_ctxResume_acts : exec (.ctxResume p) s = .next (ctxResume (asPath p) (atWork p off s)) :=
  congrArg Host.Outcome.next (writeOf_does 3 (by decide) place acts _ (fun _ => rfl))

theorem exec_ctxDisable_acts : exec (.ctxDisable p) s = .next (ctxDisable (asPath p) (atWork p off s)) :=
  congrArg Host.Outcome.next (writeOf_does 4 (by decide) place acts _ (fun _ => rfl))

end

section
variable (place : regBar p .STO_NS_CTRL 0 = some off)
include place

theorem exec_nsWrite_acts : exec (.nsWrite p) s = .next (nsWrite (asPath p) (atWork p off s)) :=
  congrArg Host.Outcome.next (writeOf_does 1 (by decide) place acts _ (fun _ => rfl))

theorem exec_nsRead_acts : exec (.nsRead p) s = .next (nsRead (asPath p) (atWork p off s)) :=
  congrArg Host.Outcome.next (writeOf_does 2 (by decide) place acts _ (fun _ => rfl))

end
end

section
variable {p : Path} {s : State} (may : stoWriter p = true)
include may

section
variable {c : Nat} {d : Bytes} (selected : c = cxSelected s p)
include selected

theorem ctxWrite_busy (used : (connOf s c).st ≠ .disabled) : ctxWrite p s = cxResult p 1 s := by
  simp [ctxWrite, may, ← selected, used]

theorem ctxResume_idle (up : (connOf s c).st ≠ .recovering) : ctxResume p s = cxResult p 1 s := by
  simp [ctxResume, may, ← selected, up]

theorem ctxDisable_ends :
    ctxDisable p s = cxResult p 0 (cxLose c (failover c (modConn c (fun x => { x with st := .disabled }) s))) := by
  simp [ctxDisable, may, ← selected]

section
variable (data : d = cxData s p)
include data

section
variable (free : (connOf s c).st = .disabled)
include free

theorem ctxWrite_malformed (bad : cxOk d = false) : ctxWrite p s = cxResult p 2 s := by
  simp [ctxWrite, may, ← selected, free, ← data, bad]

theorem ctxWrite_writes (good : cxOk d = true) : ctxWrite p s = cxResult p 0 (modConn c (fun _ =>
    { data := overwrite d 1 [0], st := if byteAt d 0 = 0 then .disabled else .established, rate := leAt d 76 4 }) s) := by
  simp [ctxWrite, may, ← selected, free, ← data, good]

end

theorem ctxResume_idleOps {u : State} (down : (connOf s c).st = .recovering) (idle : s.sto.ops = [])
    (up : u = raise 0xA 0x02 c .device (modConn c (fun x => { x with
      st := .established, retries := 0, data := overwrite (overwrite (overwrite x.data 44 (slice d 44 4)) 48 (slice d 48 8)) 60 (slice d 60 4) }) s)) :
    ctxResume p s = cxResult p 0 (cxSendAll c
      (modSto (fun t => { t with ops := t.ops.map (fun o => if o.ctx = c ∧ o.op = 1 then { o with sent := false } else o) }) u)) := by
  subst up
  simp [ctxResume, may, ← selected, down, ← data, idle, foldS]

end
end

theorem ctxRead_shows {x : Conn} (selected : x = connOf s (cxSelected s p)) : ctxRead p s =
    cxResult p 0 (foldS (fun i u => setReg .STO_CTX_DATA i (pathCode p) (w32 (leAt (overwrite x.data 1 (leBytes 1 x.st.code)) (4 * i) 4)) u)
      (List.range 32) s) := by
  simp [ctxRead, may, ← selected]

theorem nsRead_shows : nsRead p s = setReg .STO_NS_STATUS 0 (pathCode p) 0
    (foldS (fun i u => setReg .STO_NS_DATA i (pathCode p) (w32 (leAt (nsEntry s (nsSelected s p)) (4 * i) 4)) u) (List.range 8) s) := by
  simp [nsRead, may]

section
variable {d : Bytes} (data : d = nsRecord (nsData s p))
include data

theorem nsWrite_badFormat (nine : byteAt d 7 ≠ 9) (twelve : byteAt d 7 ≠ 12) : nsWrite p s = setReg .STO_NS_STATUS 0 (pathCode p) 2 s := by
  simp [nsWrite, may, ← data, nine, twelve, w32]

/-- An entry that is not VALID and was not is written, and no controller is told. -/
theorem nsWrite_quiet {i : Nat} (selected : i = nsSelected s p) (unused : nsValid d = false) (was : nsValid (nsEntry s i) = false)
    (format : byteAt d 7 = 9 ∨ byteAt d 7 = 12) (first : nsCtx d 0 = 0xFFFF ∨ cxType (connOf s (nsCtx d 0)) ≠ 0)
    (second : nsCtx d 1 = 0xFFFF ∨ cxType (connOf s (nsCtx d 1)) ≠ 0) : nsWrite p s =
      setReg .STO_NS_STATUS 0 (pathCode p) 0 (modSto (fun t => { t with ns := mset (List.replicate 32 0) t.ns i d }) s) := by
  have form : (byteAt d 7 != 9 && byteAt d 7 != 12) = false := by rcases format with h | h <;> simp [h]
  have ok0 : (nsCtx d 0 == 0xFFFF || cxType (connOf s (nsCtx d 0)) != 0) = true := by simpa using first
  have ok1 : (nsCtx d 1 == 0xFFFF || cxType (connOf s (nsCtx d 1)) != 0) = true := by simpa using second
  simp only [nsWrite, ← data, ← selected, may, unused, was, form, ok0, ok1]
  rfl

end
end

section
variable {p : Path} (may : stoWriter p = false) (s : State)
include may

theorem ctxWrite_barred : ctxWrite p s = s := by simp [ctxWrite, may]
theorem ctxRead_barred : ctxRead p s = s := by simp [ctxRead, may]
theorem ctxResume_barred : ctxResume p s = s := by simp [ctxResume, may]
theorem ctxDisable_barred : ctxDisable p s = s := by simp [ctxDisable, may]
theorem nsWrite_barred : nsWrite p s = s := by simp [nsWrite, may]
theorem nsRead_barred : nsRead p s = s := by simp [nsRead, may]

end

/-! ### The rate of a RoCEv2 context (R357, R361) -/

@[simp] theorem connOf_modConn_same (c : Nat) (g : Conn → Conn) (s : State) : connOf (modConn c g s) c = g (connOf s c) :=
  mget_mmod_same ..

theorem connOf_advanceTo (t c : Nat) (s : State) : connOf (advanceTo t s) c = connOf s c :=
  congrArg (fun m : Sto => mget ({} : Conn) m.conns c) (sto_of_frame (advanceTo_frame 32770 rfl t s) rfl)

/-- A context with a ceiling may send at its RATE. -/
theorem cxTop_ceiling {s : State} {x : Conn} {top : Nat} (ceiling : top = leAt x.data 76 4) (some_ : top ≠ 0) : cxTop s x = top := by
  rw [cxTop, ← ceiling, if_neg some_]

section
variable {ctx : Nat} {s : State} (roce : 2 ≤ cxType (connOf s ctx))
include roce

theorem exec_cnpRx_halves (live : (connOf s ctx).st ≠ .disabled) : exec (.cnpRx ctx) s = .next (modConn ctx (fun x => { x with
    rate := max 1 ((if (connOf s ctx).rate = 0 then cxTop s (connOf s ctx) else (connOf s ctx).rate) / 2), rateAt := s.elapsed }) s) := by
  rw [exec_cnpRx, execCnpRx, if_neg (not_or.mpr ⟨Nat.not_lt.mpr roce, live⟩)]

section
variable {top : Nat} (ceiling : top = leAt (connOf s ctx).data 76 4) (some_ : top ≠ 0) (runs : (connOf s ctx).rate ≠ 0)
include ceiling some_ runs

theorem exec_rateRecovery_full (full : (connOf s ctx).rate = top) : exec (.rateRecovery ctx) s = .next s := by
  rw [exec_rateRecovery, execRateRecovery, if_neg (not_or.mpr ⟨Nat.not_lt.mpr roce, runs⟩)]
  simp only [cxTop_ceiling ceiling some_, full, if_true]

theorem exec_rateRecovery_recovers (below : (connOf s ctx).rate ≠ top) : exec (.rateRecovery ctx) s =
    .next (modConn ctx (fun x => { x with
      rate := if min top ((connOf s ctx).rate + max 1 (top / 16)) = top ∧ leAt x.data 76 4 = 0 then 0 else min top ((connOf s ctx).rate + max 1 (top / 16))
      rateAt := (advanceTo ((connOf s ctx).rateAt + 100000) s).elapsed }) (advanceTo ((connOf s ctx).rateAt + 100000) s)) := by
  rw [exec_rateRecovery, execRateRecovery, if_neg (not_or.mpr ⟨Nat.not_lt.mpr roce, runs⟩)]
  simp only [cxTop_ceiling ceiling some_, below, if_false]

end
end

/-! ### A peer's READ, WRITE and SEND (R361, R362, R365, R366) -/

section
variable {ctx : Nat} {s : State} (rc : cxType (connOf s ctx) = 2) (up : (connOf s ctx).st = .established)
include rc up

theorem exec_remoteAccess_badIcrc (w : Bool) (rkey off len : Nat) (data : Bytes) (host : HostRead) (ecn : Bool) :
    exec (.remoteAccess ctx w rkey off len data host false ecn) s = .next (bump .STO_STAT 2 0 1 s) := by
  simp [execRemoteAccess, rc, up]

section
variable {u : State} {rkey off len : Nat} {data : Bytes} {host : HostRead} {ecn : Bool} (arrived : u = cnpSend ctx ecn s)
include arrived

theorem exec_remoteAccess_noKey (w : Bool) (no : rkeyBuf u ctx rkey = none) :
    exec (.remoteAccess ctx w rkey off len data host true ecn) s = .next (emit (.remote ctx 0x83 []) (bump .STO_STAT 1 0 1 u)) := by
  subst arrived
  simp [execRemoteAccess, rc, up, no]

section
variable {f : Fn} {pasid : Option Nat} {segs : List (Nat × Nat)} (found : rkeyBuf u ctx rkey = some (f, pasid, segs))
include found

theorem exec_remoteAccess_outside (beyond : (segs.map Prod.snd).foldl (· + ·) 0 < off + len) (w : Bool) :
    exec (.remoteAccess ctx w rkey off len data host true ecn) s = .next (emit (.remote ctx 0x83 []) (bump .STO_STAT 1 0 1 u)) := by
  subst arrived
  simp [execRemoteAccess, rc, up, found, beyond]

theorem exec_remoteAccess_reads {bs : Bytes} (within : off + len ≤ (segs.map Prod.snd).foldl (· + ·) 0)
    (take : mayTake u f (segAddr segs off) = true) : exec (.remoteAccess ctx false rkey off len data (.data bs) true ecn) s =
      .next (emit (.remote ctx 0x84 (slice bs 0 len)) (seqRx ctx (packets (connOf s ctx) len) u)) := by
  subst arrived
  simp [execRemoteAccess, rc, up, found, Nat.not_lt.mpr within, withRead, operandRead_data take]

end
end

theorem exec_sendReceived_badIcrc (data : Bytes) (imm : Option (BitVec 32)) (ecn : Bool) :
    exec (.sendReceived ctx data imm false ecn) s = .next (bump .STO_STAT 2 0 1 s) := by
  simp [execSendReceived, rc, up]

section
variable {u : State} {data : Bytes} {imm : Option (BitVec 32)} {ecn : Bool} {o : StoOp} (arrived : u = cnpSend ctx ecn s)
include arrived

theorem exec_sendReceived_noBuffer (no : u.sto.ops.filter (fun o => o.ctx == ctx && o.op == 5) = []) :
    exec (.sendReceived ctx data imm true ecn) s = .next (emit (.remote ctx 0x86 []) u) := by
  subst arrived
  simp [execSendReceived, rc, up, no]

section
variable (posted : u.sto.ops.filter (fun o => o.ctx == ctx && o.op == 5) = [o])
include posted

theorem exec_sendReceived_tooLong (short : o.len < data.length) :
    exec (.sendReceived ctx data imm true ecn) s = .next (emit (.remote ctx 0x85 []) (opDone o.no 0x02 0 u)) := by
  subst arrived
  simp [execSendReceived, rc, up, posted, short]

theorem exec_sendReceived_lands (fits : data.length ≤ o.len) : exec (.sendReceived ctx data imm true ecn) s =
    .next (opDone o.no 0 (at_ 8 data.length + at_ 40 ((imm.map BitVec.toNat).getD 0) + at_ 72 (b2n imm.isSome))
      (seqRx ctx (packets (connOf s ctx) data.length) (payloadWrite o.fn (qPasid (queue u o.fn o.sq)) o.buf data u))) := by
  subst arrived
  simp [execSendReceived, rc, up, posted, Nat.not_lt.mpr fits]

end
end
end

/-! ### STORAGE-class operations (R354, R365, R366) -/

section
variable {f : Fn} {q op c : Nat} {w : Work} {bs : Bytes} {s u : State} (next : nextWork s f q 4 op = some w) (reads : readsOf w = some (bs, 0))
  (context : c = entryField w.entry 4 2) (started : u = modWork f q w.ctr (fun w => { w with started := true }) s) (alive : stoGone s = false)
include next reads context started alive

theorem stoDispatch_lost (down : (connOf s c).st = .failed ∨ (connOf s c).st = .disabled) :
    stoDispatch f q op s = finishWork f q w.ctr 0x21 0 u := by
  subst context started
  simp [stoDispatch, next, reads, alive, down]

theorem stoDispatch_sends (up : (connOf s c).st = .established ∨ (connOf s c).st = .recovering) : stoDispatch f q op s =
    cxSendAll c (modSto (fun t => { t with ops := t.ops ++ [{ fn := f, sq := q, ctr := w.ctr, trk := w.trk.getD 0, ctx := c, op := op, no := w.arrived, buf := entryField w.entry 16 8, len := entryField w.entry 24 4, gen := mget 0 s.sto.gens (w.trk.getD 0) }] }) u) := by
  subst context started
  rcases up with h | h <;> simp [stoDispatch, next, reads, alive, h]

end

/-! ### The obligation -/

/-- Settles O46, clause by clause, by the equations above. -/
theorem contextsAndRdma : Obligations.ContextsAndRdma := by
  refine ⟨?write, ?read, ?resume, ?resumed, ?disable, ?barred, ?nsWrite, ?nsRead, ?rates, ?noCeiling, ?access, ?send, ?dispatch⟩
  case write =>
    rintro p off c d s0 _ place acts rfl may selected data
    rw [exec_ctxWrite_acts acts place]
    exact ⟨fun used => congrArg _ (ctxWrite_busy may selected used), fun free bad => congrArg _ (ctxWrite_malformed may selected data free bad),
      fun free good => congrArg _ (ctxWrite_writes may selected data free good)⟩
  case read =>
    rintro p off x s0 _ place acts rfl may selected
    rw [exec_ctxRead_acts acts place, ctxRead_shows may selected]
  case resume =>
    rintro p off c s0 _ place acts rfl may selected up
    rw [exec_ctxResume_acts acts place, ctxResume_idle may selected up]
  case resumed =>
    rintro p off c d s0 _ u place acts rfl may selected data down idle up
    rw [exec_ctxResume_acts acts place, ctxResume_idleOps may selected data down idle up]
  case disable =>
    rintro p off c s0 _ place acts rfl may selected
    rw [exec_ctxDisable_acts acts place, ctxDisable_ends may selected]
  case barred =>
    refine fun p o1 o2 s0 s may => ⟨?_, ?_⟩
    · rintro place acts rfl
      rw [exec_ctxWrite_acts acts place, exec_ctxRead_acts acts place, exec_ctxResume_acts acts place, exec_ctxDisable_acts acts place,
        ctxWrite_barred may, ctxRead_barred may, ctxResume_barred may, ctxDisable_barred may]
      exact ⟨rfl, rfl, rfl, rfl⟩
    · rintro place acts rfl
      rw [exec_nsWrite_acts acts place, exec_nsRead_acts acts place, nsWrite_barred may, nsRead_barred may]
      exact ⟨rfl, rfl⟩
  case nsWrite =>
    rintro p off i d s0 _ place acts rfl may selected data
    rw [exec_nsWrite_acts acts place]
    exact ⟨fun nine twelve => congrArg _ (nsWrite_badFormat may data nine twelve),
      fun unused was format first second => congrArg _ (nsWrite_quiet may data selected unused was format first second)⟩
  case nsRead =>
    rintro p off s0 _ place acts rfl may
    rw [exec_nsRead_acts acts place, nsRead_shows may]
  case rates =>
    intro ctx top s roce ceiling some_ runs
    refine ⟨fun live => ?_, exec_rateRecovery_full roce ceiling some_ runs,
      fun below => ⟨_, exec_rateRecovery_recovers roce ceiling some_ runs below, rfl, ?_⟩⟩
    · rw [exec_cnpRx_halves roce live, if_neg runs]
    · rw [connOf_modConn_same, connOf_advanceTo, ← ceiling]
      exact ⟨if_neg fun h => some_ h.2, rfl⟩
  case noCeiling =>
    intro ctx s roce live starts open_
    rw [exec_cnpRx_halves roce live, if_pos starts, cxTop, if_pos open_]
  case access =>
    intro ctx rkey off len data bs host ecn f pasid segs s u rc up arrived
    exact ⟨exec_remoteAccess_badIcrc rc up .., exec_remoteAccess_noKey rc up arrived,
      fun found => ⟨exec_remoteAccess_outside rc up arrived found, exec_remoteAccess_reads rc up arrived found⟩⟩
  case send =>
    intro ctx data imm ecn o s u rc up arrived
    exact ⟨exec_sendReceived_badIcrc rc up .., exec_sendReceived_noBuffer rc up arrived,
      fun posted => ⟨exec_sendReceived_tooLong rc up arrived posted, exec_sendReceived_lands rc up arrived posted⟩⟩
  case dispatch =>
    intro f q op c w bs s u next reads context started alive r ends
    have dispatched : stoDispatch f q op s = r := by
      rcases ends with ⟨down, rfl⟩ | ⟨up, rfl⟩
      · exact stoDispatch_lost next reads context started alive down
      · exact stoDispatch_sends next reads context started alive up
    refine ⟨?_, ?_, ?_, ?_, ?_⟩ <;> rintro rfl <;> exact congrArg Host.Outcome.next dispatched

end Sys2Proof.Machine
end

section
/-!
SUPPORT. The data mover: jobs, completions and bus errors, movers, a channel's controls, and the in-flight tracker (R354, R371 to R384): an equation
for each case, and the statement O47.
-/
namespace Sys2Proof.Machine

@[simp] theorem mvChan_modChan_same (ch : Nat) (g : MvChan → MvChan) (s : State) : mvChan (modChan ch g s) ch = g (mvChan s ch) :=
  mget_mmod_same ..

/-! ### A job's reads and pieces (R376, R377) -/

section
variable {s : State} {j : Job} {k off : Nat} {n : Option Nat} {got : HostRead} (next : State → State)

/-- A job's read that brings its bytes goes on. -/
theorem mvReads_ok {bs : Bytes} (fetched : mvFetch s j k off n got = .ok bs)
    (take : ∀ m, n = some m → mvDevice j.entry k = false → mayTake s j.fn (entryField j.entry off 8) = true) :
    mvReads j k off n got next s = next s := by
  cases n with
  | none => rfl
  | some m =>
    cases device : mvDevice j.entry k with
    | true => simp [mvReads, device]
    | false =>
      cases got with
      | data b => simp [mvReads, device, withRead, operandRead_data (take m rfl device)]
      | _ => simp [mvFetch, device] at fetched

/-- One that fails is a read of HOST space, made as every host read is. -/
theorem mvReads_error {s1 : State} {x : Nat × Nat × Bool} (read : operandRead j.fn (entryField j.entry off 8) got s = some s1)
    (failed : mvFetch s1 j k off n got = .error x) : mvReads j k off n got next s = next s1 := by
  cases n with
  | none => simp [mvFetch] at failed
  | some m =>
    cases device : mvDevice j.entry k with
    | true => simp [mvFetch, device] at failed
    | false => simp [mvReads, device, withRead, read]

end

section
variable {op ch n : Nat} {src idx : HostRead} {j : Job} {js : List Job} {s : State} (first : (mvChan s ch).jobs = j :: js)
  (running : (mvChan s ch).st = .running) (active : (activeUnits s 4).contains (mvChan s ch).mover = true) (opcode_ : entryField j.entry 0 1 = op)
include first running active opcode_

theorem mvWork_goesOn {b : Bytes} (begun : j.src = some b) : mvWork op ch n src idx s = mvAdvance ch j (mvPieces j) n j.pos s := by
  simp only [mvWork, first, running, active, opcode_, begun]
  simp

section
variable (fresh : j.src = none)
  (takeIndex : ∀ m, (mvSpans j.entry).2.2 = some m → mvDevice j.entry 2 = false → mayTake s j.fn (entryField j.entry 24 8) = true)
  {ib : Bytes} (index : mvFetch s j 2 24 (mvSpans j.entry).2.2 idx = .ok ib)
include fresh takeIndex index

/-- A job that begins reads its index table, then its source. -/
theorem mvWork_begins {sb : Bytes} (takeSource : ∀ m, mvSourceLen j.entry = some m → mvDevice j.entry 0 = false → mayTake s j.fn (entryField j.entry 8 8) = true)
    (source : mvFetch s j 0 8 (mvSourceLen j.entry) src = .ok sb) : mvWork op ch n src idx s =
      mvAdvance ch { j with src := some sb, idx := ib } (mvPieces { j with src := some sb, idx := ib }) n 0
        (modChan ch (fun u => { u with jobs := updAt 0 (fun _ => { j with src := some sb, idx := ib }) u.jobs }) s) := by
  simp only [mvWork, first, running, active, opcode_, fresh, mvReads_ok _ index takeIndex, index, mvReads_ok _ source takeSource, source]
  simp

theorem mvWork_sourceFails {x : Nat × Nat × Bool} {s1 : State} (read : operandRead j.fn (entryField j.entry 8 8) src s = some s1)
    (failed : mvFetch s1 j 0 8 (mvSourceLen j.entry) src = .error x) : mvWork op ch n src idx s = busError ch x.1 x.2.1 false false x.2.2 s1 := by
  simp only [mvWork, first, running, active, opcode_, fresh, mvReads_ok _ index takeIndex, index, mvReads_error _ read failed, failed]
  simp

end
end

section
variable {ch n i : Nat} {j : Job} {ps : List (Option (Nat × Bytes))} {a : Nat} {bs : Bytes} {s t : State} (piece : ps.getD i none = some (a, bs))
  (ok : mvElementOk s j i = true) (clean : mvPoisonAt s j i = none) (written : mvWritePiece j i a bs s = (true, t))
include piece ok clean written

theorem mvAdvance_next (more : i + 1 < ps.length) : mvAdvance ch j ps (n + 1) i s = mvAdvance ch j ps n (i + 1) t := by
  rw [mvAdvance, if_neg (by omega)]
  simp only [piece, ok, clean, written, Bool.not_true, Bool.false_eq_true, if_false, if_true, Nat.ne_of_lt more]

theorem mvAdvance_last (last : i + 1 = ps.length) : mvAdvance ch j ps (n + 1) i s =
    jobWritten ch 0 (modChan ch (fun u => { u with jobs := updAt 0 (fun x => { x with pos := i + 1 }) u.jobs }) t) := by
  rw [mvAdvance, if_neg (by omega)]
  simp only [piece, ok, clean, written, Bool.not_true, Bool.false_eq_true, if_false, if_true]
  exact if_pos last

end

/-! ### Completion and bus errors (R378, R380) -/

section
variable {ch : Nat} {js : List Job} {s : State} (issued : (mvChan s ch).flushing = js) (some_ : js ≠ [])
include issued some_

theorem exec_jobComplete_device (got : HostRead) (none_ : js.any wroteHost = false) : exec (.jobComplete ch got) s =
    .next (foldS (fun j s => jobDone ch j j.status s) js (modChan ch (fun u => { u with flushing := [] }) s)) := by
  subst issued
  simp only [exec_jobComplete, execJobComplete, List.isEmpty_iff, some_, none_]
  rfl

section
variable {j : Job} (last : (js.filter wroteHost).getLast? = some j)
include last

/-- Jobs that wrote to HOST space wait for a flushing read of the last address written. -/
theorem exec_jobComplete_flushes (got : HostRead) : exec (.jobComplete ch got) s = .next (withRead j.fn (mvLastAddr j) got (fun s1 => match got with
    | .data _ => foldS (fun j s => jobDone ch j j.status s) js (modChan ch (fun u => { u with flushing := [] }) (bump .DMV_STAT 2 0 1 s1))
    | _ => busError ch (readCause got) (mvLastAddr j) false true false (bump .DMV_STAT 2 0 1 s1)) s) := by
  have host : js.any wroteHost = true :=
    List.any_eq_true.mpr ⟨j, by simpa using List.mem_filter.mp (List.mem_of_getLast? last)⟩
  subst issued
  simp only [exec_jobComplete, execJobComplete, List.isEmpty_iff, some_, host, last] <;> rfl

theorem exec_jobComplete_data {bs : Bytes} (take : mayTake s j.fn (mvLastAddr j) = true) : exec (.jobComplete ch (.data bs)) s =
    .next (foldS (fun j s => jobDone ch j j.status s) js (modChan ch (fun u => { u with flushing := [] }) (bump .DMV_STAT 2 0 1 s))) := by
  rw [exec_jobComplete_flushes issued some_ last, withRead, operandRead_data take]

theorem exec_jobComplete_fails {got : HostRead} {s1 : State} (failed : ∀ bs, got ≠ .data bs)
    (read : operandRead j.fn (mvLastAddr j) got s = some s1) : exec (.jobComplete ch got) s =
      .next (busError ch (readCause got) (mvLastAddr j) false true false (bump .DMV_STAT 2 0 1 s1)) := by
  rw [exec_jobComplete_flushes issued some_ last, withRead, read]
  cases got with
  | data bs => exact absurd rfl (failed bs)
  | _ => rfl

end
end

/-- The latch of a channel after a bus error (R380). -/
def mvLatched (cause addr : Nat) (write flush device : Bool) (now_ : Nat) (u : MvChan) : Prop :=
  u.cause = cause ∧ u.dirWrite = write ∧ u.flushErr = flush ∧ u.device = device ∧ u.failAddr = addr ∧ u.haltAt = some now_

section
variable (ch cause addr : Nat) (write flush device : Bool) (s : State)

theorem mvChan_raise (block code detail c : Nat) (sc : Scope) (u : State) : mvChan (raise block code detail sc u) c = mvChan u c :=
  congrArg (fun d : Dmv => mget ({} : MvChan) d.chans c) (dmv_of_frame (raise_frame 2097664 rfl block code detail sc u) rfl)

theorem busError_halts : (mvChan (busError ch cause addr write flush device s) ch).st = .halted := by
  rw [busError, mvChan_raise, mvChan_modChan_same]

theorem busError_latches (takes : (mvChan s ch).st ≠ .halted ∨ (mvChan s ch).haltAt = some s.elapsed ∧ addr < (mvChan s ch).failAddr) :
    mvLatched cause addr write flush device s.elapsed (mvChan (busError ch cause addr write flush device s) ch) := by
  have latch : mvLatches s (mvChan s ch) addr = true := by
    rcases takes with h | ⟨h, lt⟩
    · simp [mvLatches, h]
    · simp [mvLatches, h, lt]
  simp only [busError, mvChan_raise, mvChan_modChan_same, latch, if_true]
  exact ⟨rfl, rfl, rfl, rfl, rfl, rfl⟩

theorem exec_busError_arises (errs : mvErrs s (mvChan s ch) flush = true) :
    exec (.busError ch cause addr write flush device) s = .next (busError ch cause addr write flush device s) :=
  if_pos errs

end

/-! ### Movers (R372, R373) -/

section
variable {w : Nat} {s : State} (first : mvLeast (fun c => mvPrio s c * 2 ^ 64 + (mvChan s c).waitNo) (mvSelect s mvReady) = some w)
  (free : blockWaits s 11 = false)
include first free

theorem exec_moverAssign_gone (gone : kindGone s 4 = true) : exec .moverAssign s = .next (jobWritten w 0x3F s) := by
  simp only [exec_moverAssign, execMoverAssign, first, free, gone]
  rfl

section
variable (there : kindGone s 4 = false) (alive : unitDead s 0xB00 = false)
include there alive

theorem exec_moverAssign_free {m : Nat} (idle : (freeMovers s).head? = some m) : exec .moverAssign s = .next (mvRun w m s) := by
  simp only [exec_moverAssign, execMoverAssign, first, free, there, alive, idle]
  rfl

theorem exec_moverAssign_full {v : Nat} (none_ : freeMovers s = [])
    (last : mvLeast (fun c => (7 - mvPrio s c) * 2 ^ 64 + (2 ^ 64 - 1 - (mvChan s c).runNo)) (mvRunning s) = some v) :
    exec .moverAssign s = if mvPrio s w < mvPrio s v then
      .next (mvRun w (mvChan s v).mover (mvWait v (modChan v (fun u => { u with st := .preempted }) (bump .DMV_STAT 0 0 1 s)))) else .next s := by
  simp only [exec_moverAssign, execMoverAssign, first, free, there, alive, none_, last]
  rfl

end
end

/-! ### A channel's controls (R381, R383 to R385) -/

section
variable {p : Path} {ch o1 o2 : Nat} {s s1 : State} (notVf : vfPath p = false) (select : regBar p .DMV_CH_SELECT 0 = some o1)
  (acts1 : actsAt p o1 s = true) (then_ : s1 = plainReg (asPath p) .DMV_CH_SELECT 0 (w32 ch) (atWork p o1 s))
  (control : regBar p .DMV_CH_CTRL 0 = some o2) (acts2 : actsAt p o2 s1 = true)
include notVf select acts1 then_ control acts2

/-- A path other than a VF's selects the channel and writes its ACTION. -/
theorem channelAction_selects {a : Nat} {g : State → State} (does : ∀ u, mvAction (asPath p) (mvSelected u (asPath p)) (fld (w32 a) 1 0) u = g u) :
    channelAction p ch a s = g (atWork p o2 s1) := by
  have e : channelAction p ch a s = writeOf p .DMV_CH_CTRL 0 (w32 a) (writeOf p .DMV_CH_SELECT 0 (w32 ch) s) := by
    rw [channelAction]
    split
    case h_1 k n vf => simp [vfPath, vf, isVf] at notVf
    case h_2 => rfl
  rw [e, writeOf_does (w32 ch) (by decide) select acts1 (plainReg (asPath p) .DMV_CH_SELECT 0 (w32 ch)) (fun _ => rfl), ← then_]
  exact writeOf_does (w32 a) (by decide) control acts2 g does

end

section
variable {p : Path} {v m off ch c : Nat} {s : State} (vf : asPath p = .fn (.vf v m)) (place : regBar p .VF_DMV_CTRL 0 = some off)
  (acts : actsAt p off s = true) (channel : c = ch % 64)
include vf place acts channel

/-- A VF names the channel in its write (R385). -/
theorem channelAction_vf {a : Nat} (small : a < 4) : channelAction p ch a s = mvAction (.fn (.vf v m)) c (if a < 3 then a else 0)
    (modDmv (fun d => { d with vfChan := mset 0 d.vfChan (fnCode (.vf v m)) c }) (atWork p off s)) := by
  subst channel
  simp only [channelAction, vf]
  rw [writeOf_acts _ (by decide) place acts, vf]
  show vfWrite (.fn (.vf v m)) .VF_DMV_CTRL 0 _ _ = _
  rw [vfWrite, fld_low, fld_at8 _ _ small]

end

section
variable {p : Path} {c : Nat} {s : State}

theorem mvControl_barred (barred : mvControls s p c = false) : mvChannelResume p c s = mvResult p 2 s ∧ mvChannelAbort p c s = mvResult p 2 s := by
  simp [mvChannelResume, mvChannelAbort, barred]

section
variable (may : mvControls s p c = true)
include may

theorem mvControl_notHalted (runs : (mvChan s c).st ≠ .halted) :
    mvChannelResume p c s = mvResult p 1 s ∧ mvChannelAbort p c s = mvResult p 1 s := by
  simp [mvChannelResume, mvChannelAbort, may, runs]

theorem mvControl_halted (halted : (mvChan s c).st = .halted) : mvChannelResume p c s = mvResult p 0 (mvWait c (modChan c mvUnlatch s)) ∧
    mvChannelAbort p c s = mvResult p 0 (foldS (fun j s => jobDone c j 0x30 s) (mvChan s c).jobs (modChan c (fun u => { mvUnlatch u with jobs := [] }) s)) := by
  simp [mvChannelResume, mvChannelAbort, may, halted]

end

theorem mvChannelStart_barred (barred : mvOwner s c ≠ .fw ∨ mayWrite s p .DMV_CH_DESC = false) : mvChannelStart p c s = mvResult p 2 s :=
  if_pos (by simpa using barred)

section
variable (owner : mvOwner s c = .fw) (may : mayWrite s p .DMV_CH_DESC = true)
include owner may

theorem mvChannelStart_busy (busy : (mvChan s c).jobs ≠ [] ∨ modeFetches s = false) : mvChannelStart p c s = mvResult p 1 s := by
  have h : !(mvChan s c).jobs.isEmpty ∨ !(mvChan s c).flushing.isEmpty ∨ !modeFetches s := by
    rcases busy with h | h <;> simp [h]
  exact (if_neg (by simp [owner, may])).trans (if_pos h)

theorem mvChannelStart_starts {u : State} (idle : (mvChan s c).jobs = []) (flushed : (mvChan s c).flushing = []) (fetches : modeFetches s = true)
    (header : headerStatus 5 (descEntry s c) = 0) (same : entryField (descEntry s c) 4 1 % 64 = c) (good : mvStatus s .fw (descEntry s c) = 0)
    (shown : u = mvResult p 0 (modChan c (fun u => { u with jobStatus := none }) s)) : mvChannelStart p c s =
      modChan c (fun x => { x with jobs := [{ fn := .fw, entry := descEntry s c, arrived := u.sto.arrivals }] })
        (modSto (fun t => { t with arrivals := t.arrivals + 1 }) u) := by
  subst shown
  simp [mvChannelStart, owner, may, idle, flushed, fetches, header, same, good]

end
end

/-! ### The in-flight tracker (R354) -/

section
variable {c : Nat} {a : TrkAsk} {s s1 : State} (next : mvLeast (fun c => (BitVec.ofNat 16 c - BitVec.ofNat 16 (s.sto.lastFn + 1)).toNat)
    ((trkFns s).filter (fun c => (oldestAsk s c).isSome && trkRoom s (fnOf c))) = some c) (oldest : oldestAsk s c = some a)
  (granted : s1 = modSto (fun t => { t with lastFn := c, gens := mset 0 t.gens (trkFree s) ((mget 0 t.gens (trkFree s) + 1) % 2 ^ 14) }) s)
include next oldest granted

theorem exec_trackerGrant_channel {ch : Nat} (channel : a.ch = some ch) : exec .trackerGrant s = .next (trkHigh (mvWait ch (modChan ch (fun u => { u with
    jobs := u.jobs.map (fun j => if mvTracked j then j else { j with trk := some (trkFree s) }) }) s1))) := by
  subst granted
  simp only [exec_trackerGrant, execTrackerGrant, next, oldest, channel]

section
variable (noChannel : a.ch = none)
include noChannel

theorem exec_trackerGrant_nvme (nvme_ : a.nvme = true) : exec .trackerGrant s = .next (trkHigh (modSto (fun t => { t with
    ctrls := mmod {} t.ctrls c (fun x => { x with
      cmds := updFirst (fun n => n.no == a.no) (fun n => { n with trk := some (trkFree s) }) x.cmds }) }) s1)) := by
  subst granted
  simp only [exec_trackerGrant, execTrackerGrant, next, oldest, noChannel, nvme_, if_true]

theorem exec_trackerGrant_entry {w : Work} (entry : a.nvme = false)
    (there : workOf (modWork (fnOf c) a.sq a.ctr (fun w => { w with trk := some (trkFree s) }) s1) (fnOf c) a.sq a.ctr = some w) (other : w.cls ≠ 5) :
    exec .trackerGrant s = .next (trkHigh (modWork (fnOf c) a.sq a.ctr (fun w => { w with trk := some (trkFree s) }) s1)) := by
  subst granted
  simp only [exec_trackerGrant, execTrackerGrant, next, oldest, noChannel, entry, there, other, Bool.false_eq_true, if_false]

end
end

/-! ### The obligation -/

/-- Settles O47, clause by clause, by the equations above. -/
theorem dataMover : Obligations.DataMover := by
  refine ⟨?work, fun ch n i j ps a bs s t piece ok clean written =>
      ⟨mvAdvance_next piece ok clean written, mvAdvance_last piece ok clean written⟩,
    fun ch js s issued some_ => ⟨exec_jobComplete_device issued some_, fun j bs last => exec_jobComplete_data issued some_ last,
      fun j got s1 last => exec_jobComplete_fails issued some_ last⟩, ?bus, ?assign, ?controls, ?vfControls,
    fun c a s s1 next oldest granted => ⟨fun ch => exec_trackerGrant_channel next oldest granted, exec_trackerGrant_nvme next oldest granted,
      fun w noChannel => exec_trackerGrant_entry next oldest granted noChannel⟩⟩
  case work =>
    intro ch n src idx j js s r first running active runs
    have work : ∀ op, entryField j.entry 0 1 = op → mvWork op ch n src idx s = r := by
      intro op opcode_
      obtain ⟨b, begun, rfl⟩ | ⟨fresh, takeIndex, sb, ib, index, takeSource, source, rfl⟩ | ⟨fresh, takeIndex, ib, x, s1, index, read, failed, rfl⟩ := runs
      · exact mvWork_goesOn first running active opcode_ begun
      · exact mvWork_begins first running active opcode_ fresh takeIndex index takeSource source
      · exact mvWork_sourceFails first running active opcode_ fresh takeIndex index read failed
    refine ⟨?_, ?_, fun e => congrArg Host.Outcome.next (work 3 e), fun e => congrArg Host.Outcome.next (work 4 e), ?_, ?_, ?_, ?_⟩
    · rintro e rfl
      exact congrArg Host.Outcome.next (work 1 e)
    · rintro e rfl rfl
      exact congrArg Host.Outcome.next (work 2 e)
    · rintro e rfl
      exact congrArg Host.Outcome.next (work 5 e)
    · rintro e rfl
      exact congrArg Host.Outcome.next (work 6 e)
    · rintro e rfl
      exact congrArg Host.Outcome.next (work 7 e)
    · rintro e rfl
      exact congrArg Host.Outcome.next (work 8 e)
  case bus =>
    intro ch cause addr write flush device s errs
    have arises : mvErrs s (mvChan s ch) flush = true := by
      rcases errs with ⟨rfl, h⟩ | ⟨rfl, runs, h⟩ | ⟨rfl, halted, h⟩
      · simp [mvErrs, h]
      · simp [mvErrs, runs, h]
      · simp [mvErrs, halted, h]
    exact ⟨_, exec_busError_arises ch cause addr write flush device s arises, rfl, busError_halts .., busError_latches ch cause addr write flush device s⟩
  case assign =>
    intro w v s first free
    refine ⟨exec_moverAssign_gone first free, fun there alive => ⟨fun m => exec_moverAssign_free first free there alive, fun none_ last => ?_⟩⟩
    rw [exec_moverAssign_full first free there alive none_ last]
    exact ⟨fun urgent => if_pos urgent, fun same => if_neg (Nat.not_lt.mpr same)⟩
  case controls =>
    rintro p _ o1 o2 ch c s0 s1 _ notVf rfl select acts1 then_ control acts2 rfl rfl
    have resume := channelAction_selects notVf select acts1 then_ control acts2 (a := 1) (fun _ => rfl)
    have abort := channelAction_selects notVf select acts1 then_ control acts2 (a := 2) (fun _ => rfl)
    have start := channelAction_selects notVf select acts1 then_ control acts2 (a := 3) (fun _ => rfl)
    rw [exec_channelResume, exec_channelAbort, exec_channelStart, execChannelResume, execChannelAbort, execChannelStart, resume, abort, start]
    refine ⟨fun barred => ?_, fun may runs => ?_, fun may halted => ?_, fun barred => ?_, fun owner may busy => ?_,
      fun u owner may idle flushed fetches header same good shown => ?_⟩
    · exact (mvControl_barred barred).imp (congrArg _) (congrArg _)
    · exact (mvControl_notHalted may runs).imp (congrArg _) (congrArg _)
    · exact (mvControl_halted may halted).imp (congrArg _) (congrArg _)
    · exact congrArg _ (mvChannelStart_barred barred)
    · exact congrArg _ (mvChannelStart_busy owner may busy)
    · exact congrArg _ (mvChannelStart_starts owner may idle flushed fetches header same good shown)
  case vfControls =>
    rintro p v m off ch c s0 _ vf place acts channel rfl
    rw [exec_channelResume, exec_channelAbort, exec_channelStart, execChannelResume, execChannelAbort, execChannelStart,
      channelAction_vf vf place acts channel (by decide), channelAction_vf vf place acts channel (by decide),
      channelAction_vf vf place acts channel (by decide)]
    refine ⟨fun barred => ?_, fun may halted => ?_, rfl⟩
    · exact (mvControl_barred barred).imp (congrArg _) (congrArg _)
    · exact (mvControl_halted may halted).imp (congrArg _) (congrArg _)

end Sys2Proof.Machine
end

section
/-!
SUPPORT. The instruction that a core issues from its next ready thread (R388, R389) and the fourteen instructions of the thread extension (R392 to
R401): an equation for each case, and the statement O48.
-/
namespace Sys2Proof.Machine

/-! ### Issue (R389) -/

/-- What a core and a domain have done last is no thread's. -/
theorem thread_issued (d : DUnit) (core i k : Nat) (s : State) :
    thread (worked d (modSvc (fun v => { v with last := mset 15 v.last core i }) s)) k = thread s k := rfl

section
variable {core i t w size own : Nat} {s : State} (fast : fastRuns s = true) (up : coreUp s core = true) (next : nextThread s core = some (i, t))
  (calm : stallPending s t = []) (even : (thread s t).pc % 2 = 0) (fetched : fetchInstr s (thread s t) = some (some w, size, own))
include fast up next calm even fetched

/-- A core issues a word of which p holds: an instruction of the thread extension, or an ordinary one. -/
theorem issue_issues {p : Nat → Bool} (takes : p w = true) : issue p core s = if opc w = 0x0B ∧ size = 4
    then extension t w (worked (.svcCore (corePhys s core)) (modSvc (fun v => { v with last := mset 15 v.last core i }) s))
    else ordinary t w size own (worked (.svcCore (corePhys s core)) (modSvc (fun v => { v with last := mset 15 v.last core i }) s)) := by
  have quiet : takeStall t s = s := by rw [takeStall, calm]
  simp only [issue, fast, up, next, quiet, even, fetched, takes]
  rfl

theorem exec_instructionIssue_ordinary (other : opc w ≠ 0x0B) : exec (.instructionIssue core) s =
    .next (ordinary t w size own (worked (.svcCore (corePhys s core)) (modSvc (fun v => { v with last := mset 15 v.last core i }) s))) := by
  have plain : (fun w => !anyExt w) w = true := by simp [anyExt, isExt, other]
  exact congrArg Host.Outcome.next ((issue_issues fast up next calm even fetched plain).trans (if_neg fun h => other h.1))

/-- An instruction of the extension is issued by its own row. -/
theorem issue_extension {f7 : Nat} (code : opc w = 0x0B) (form : f3Of w = 0) (long : size = 4) (function : f7Of w = f7) : issue (isExt f7) core s =
    extension t w (worked (.svcCore (corePhys s core)) (modSvc (fun v => { v with last := mset 15 v.last core i }) s)) :=
  (issue_issues fast up next calm even fetched (by simp [isExt, code, form, function])).trans (if_pos ⟨code, long⟩)

end

/-! ### The thread extension (R392 to R401) -/

section
variable {t w : Nat} {s : State} (form : f3Of w = 0)
include form

theorem extension_tFork (f7 : f7Of w = 0x00) :
    extension t w s = tFork t (rdOf w) (xreg (thread s t) (rs1Of w)) (xreg (thread s t) (rs2Of w)) s := by
  simp [extension, form, f7]

theorem extension_tJoin (f7 : f7Of w = 0x01) (r2 : rs2Of w = 0) : extension t w s = tJoin t (rdOf w) (xreg (thread s t) (rs1Of w)) w s := by
  simp [extension, form, f7, r2]

theorem extension_cTrySend (f7 : f7Of w = 0x0A) :
    extension t w s = cTrySend t (rdOf w) (xreg (thread s t) (rs1Of w)) (xreg (thread s t) (rs2Of w)) s := by
  simp [extension, form, f7]

theorem extension_cRecv (f7 : f7Of w = 0x0C) :
    extension t w s = cRecv t (rdOf w) (xreg (thread s t) (rs1Of w)) (xreg (thread s t) (rs2Of w)) s := by
  simp [extension, form, f7]

theorem extension_cPoll (f7 : f7Of w = 0x0D) (r2 : rs2Of w = 0) : extension t w s = cPoll t (rdOf w) (xreg (thread s t) (rs1Of w)) s := by
  simp [extension, form, f7, r2]

theorem extension_cGet (f7 : f7Of w = 0x0E) (r2 : rs2Of w = 0) : extension t w s = retire_ t (rdOf w)
    (if xreg (thread s t) (rs1Of w) < (thread s t).rx.length then (thread s t).rx.getD (xreg (thread s t) (rs1Of w)) 0 else 0) 4 s := by
  simp [extension, form, f7, r2]

theorem extension_hAlloc (f7 : f7Of w = 0x14) (r2 : rs2Of w = 0) : extension t w s = hAlloc t (rdOf w) (xreg (thread s t) (rs1Of w)) s := by
  simp [extension, form, f7, r2]

section
variable (rd : rdOf w = 0)
include rd

theorem extension_cSend (f7 : f7Of w = 0x09) : extension t w s = cSend t (xreg (thread s t) (rs1Of w)) (xreg (thread s t) (rs2Of w)) s := by
  simp [extension, form, f7, rd]

section
variable (r2 : rs2Of w = 0)
include r2

theorem extension_tExit (f7 : f7Of w = 0x02) : extension t w s = endThread t (xreg (thread s t) (rs1Of w)) s := by
  simp [extension, form, f7, rd, r2]

theorem extension_tKill (f7 : f7Of w = 0x03) : extension t w s = tKill t (xreg (thread s t) (rs1Of w)) w s := by
  simp [extension, form, f7, rd, r2]

theorem extension_cPut (f7 : f7Of w = 0x08) (room : (thread s t).staging.length < 7) : extension t w s =
    retire_ t 0 0 4 (modThread t (fun h => { h with staging := h.staging ++ [xreg (thread s t) (rs1Of w)] }) s) := by
  simp [extension, form, f7, rd, r2, room]

theorem extension_cClear (f7 : f7Of w = 0x0B) (r1 : rs1Of w = 0) :
    extension t w s = retire_ t 0 0 4 (modThread t (fun h => { h with staging := [] }) s) := by
  simp [extension, form, f7, rd, r1, r2]

theorem extension_tWait (f7 : f7Of w = 0x10) : extension t w s = if xreg (thread s t) (rs1Of w) ≤ now s then retire_ t 0 0 4 s
    else beginWait t .until (some (xreg (thread s t) (rs1Of w))) 0 0 s := by
  simp [extension, form, f7, rd, r2]

theorem extension_hFree (f7 : f7Of w = 0x15) : extension t w s = hFree t (xreg (thread s t) (rs1Of w)) s := by
  simp [extension, form, f7, rd, r2]

end
end
end

/-! ### What an instruction of the extension does -/

section
variable {t rd a b w : Nat} {u : State}

theorem tFork_forks {k : Nat} (free : (List.range 16).find? (fun k => (thread u (t / 16 * 16 + k)).st == .free) = some k) : tFork t rd a b u =
    retire_ t rd (t / 16 * 16 + k) 4 (modThread (t / 16 * 16 + k) (fun _ => { startedThread (a / 2 * 2) b (mget 0 (thread u t).csr 0x7C0) (some t) with
      mmode := (thread u t).mmode, csr := mset 0 (mset 0 (mset 0 (mset 0 (thread u t).csr 0x300 0) 0x304 (2 ^ 16)) 0x7C0 (mget 0 (thread u t).csr 0x7C0)) 0xB02 0 }) u) := by
  simp only [tFork, free]

theorem tFork_full (none_ : (List.range 16).find? (fun k => (thread u (t / 16 * 16 + k)).st == .free) = none) :
    tFork t rd a b u = retire_ t rd (2 ^ 64 - 1) 4 u := by
  simp only [tFork, none_]

section
variable (inside : a < 1024) (child : (thread u a).parent = some t)
include inside child

theorem tJoin_zombie (ended : (thread u a).st = .zombie) : tJoin t rd a w u = retire_ t rd (thread u a).exit 4 (freeThread a u) := by
  simp [tJoin, Nat.not_le.mpr inside, ended, child]

theorem tJoin_waits (runs : (thread u a).st = .running) : tJoin t rd a w u = beginWait t (.join a) none rd 0 u := by
  simp [tJoin, Nat.not_le.mpr inside, runs, child]

end

theorem tKill_kills (machine : (thread u t).mmode = true) (other : a ≠ t) (inside : a < 1024) (alive : live u a = true)
    (same : (thread u a).domain = (thread u t).domain) : tKill t a w u = retire_ t 0 0 4 (endThread a (2 ^ 64 - 1) u) := by
  have used : (thread u a).st ≠ .free := by
    intro free
    simp [live, free] at alive
  simp [tKill, machine, other, Nat.not_le.mpr inside, used, same, alive]

theorem send_barred (barred : maySend u t a = false) : cSend t a b u = channelFault t a u ∧ cTrySend t rd a b u = channelFault t a u := by
  simp [cSend, cTrySend, barred]

section
variable (may : maySend u t a = true)
include may

theorem send_full (full : chFull u a = true) : cSend t a b u = beginWait t (.send a) none 0 b u ∧ cTrySend t rd a b u = retire_ t rd 1 4 u := by
  simp [cSend, cTrySend, may, full]

theorem send_commits (room : chFull u a = false) :
    cSend t a b u = retire_ t 0 0 4 (modThread t (fun h => { h with staging := [] }) (commitMsg a (stagedMsg u t b) u)) ∧
    cTrySend t rd a b u = retire_ t rd 0 4 (modThread t (fun h => { h with staging := [] }) (commitMsg a (stagedMsg u t b) u)) := by
  simp [cSend, cTrySend, may, room]

end

theorem receive_barred (barred : mayRecv u t a = false) : cRecv t rd a b u = channelFault t a u ∧ cPoll t rd a u = channelFault t a u := by
  simp [cRecv, cPoll, barred]

section
variable (may : mayRecv u t a = true)
include may

theorem receive_takes {v : Nat} {u1 : State} (taken : takeMsg t a u = some (v, u1)) :
    cRecv t rd a b u = retire_ t rd v 4 u1 ∧ cPoll t rd a u = retire_ t rd v 4 u1 := by
  simp [cRecv, cPoll, may, taken]

theorem receive_empty (none_ : takeMsg t a u = none) :
    cPoll t rd a u = retire_ t rd 0 4 u ∧ (b = 0 → cRecv t rd a b u = beginWait t (.recv a) none rd 0 u) := by
  refine ⟨by simp [cPoll, may, none_], ?_⟩
  rintro rfl
  simp [cRecv, may, none_]

end

section
variable (long : 14 ≤ a) (short : a ≤ 16380)
include long short

theorem hAlloc_allocates {k : Nat} {u1 : State} (free : freeHandleNo u = some k) (taken : hallocNow k a (thread u t).domain u = some u1) :
    hAlloc t rd a u = retire_ t rd k 4 u1 := by
  simp [hAlloc, Nat.not_lt.mpr long, Nat.not_lt.mpr short, free, taken]

theorem hAlloc_exhausted (none_ : freeHandleNo u = none) : hAlloc t rd a u = retire_ t rd (2 ^ 64 - 1) 4 u := by
  simp [hAlloc, Nat.not_lt.mpr long, Nat.not_lt.mpr short, none_]

end

theorem hFree_frees {x : Handle} (there : mfind u.svc.handles a = some x) (own : x.owner = .domain (thread u t).domain) :
    hFree t a u = retire_ t 0 0 4 (freeHandle a u) := by
  simp [hFree, there, own]

end

/-! ### Ordinary instructions (R388) -/

section
variable {t w size own : Nat} {s : State}

theorem ordinary_lui (code : opc w = 0x37) : ordinary t w size own s = retire_ t (rdOf w) (immU w) size s := by
  simp [ordinary, code]

theorem ordinary_auipc (code : opc w = 0x17) : ordinary t w size own s = retire_ t (rdOf w) (m64 ((thread s t).pc + immU w)) size s := by
  simp [ordinary, code]

theorem ordinary_jal (code : opc w = 0x6F) : ordinary t w size own s = jumpTo t (rdOf w) size (m64 ((thread s t).pc + immJ w)) s := by
  simp [ordinary, code]

section
variable (code : opc w = 0x63)
include code

theorem ordinary_branch_taken (taken : branchTaken (f3Of w) (xreg (thread s t) (rs1Of w)) (xreg (thread s t) (rs2Of w)) = some true) :
    ordinary t w size own s = jumpTo t 0 size (m64 ((thread s t).pc + immB w)) s := by
  simp [ordinary, code, taken]

theorem ordinary_branch_passed (passed : branchTaken (f3Of w) (xreg (thread s t) (rs1Of w)) (xreg (thread s t) (rs2Of w)) = some false) :
    ordinary t w size own s = retire_ t 0 0 size s := by
  simp [ordinary, code, passed]

end

section
variable (code : opc w = 0x33)
include code

theorem ordinary_alu (f7 : f7Of w = 0) : ordinary t w size own s =
    retire_ t (rdOf w) (alu (f3Of w) false (xreg (thread s t) (rs1Of w)) (xreg (thread s t) (rs2Of w))) size s := by
  simp [ordinary, code, doOp, f7]

theorem ordinary_mulDiv (f7 : f7Of w = 1) : ordinary t w size own s =
    retire_ t (rdOf w) (mulDiv (f3Of w) (xreg (thread s t) (rs1Of w)) (xreg (thread s t) (rs2Of w))) size s := by
  simp [ordinary, code, doOp, f7]

end

theorem ordinary_ecall : ordinary t 0x00000073 size own s = trap false (if (thread s t).mmode then 11 else 8) 0 t s := rfl

theorem ordinary_mret (machine : (thread s t).mmode = true) : ordinary t 0x30200073 size own s = mret t s :=
  if_pos machine

end

/-! ### The obligation -/

/-- Settles O48, clause by clause, by the equations above. -/
theorem threadInstructions : Obligations.ThreadInstructions := by
  refine ⟨?extended, ?effects, ?issued⟩
  case extended =>
    rintro core i t w own _ _ s u fast up next calm even fetched code form rfl rfl rfl
    have runs : ∀ {f7 : Nat}, f7Of w = f7 → issue (isExt f7) core s = _ := issue_extension fast up next calm even fetched code form rfl
    refine ⟨fun f7 => ?_, fun f7 r2 => ?_, fun f7 rd r2 => ?_, fun f7 rd r2 => ?_, fun f7 rd r2 room => ?_, fun f7 rd => ?_, fun f7 => ?_,
      fun f7 rd r1 r2 => ?_, fun f7 => ?_, fun f7 r2 => ?_, fun f7 r2 => ?_, fun f7 rd r2 => ?_, fun f7 r2 => ?_, fun f7 rd r2 => ?_⟩
    all_goals refine congrArg Host.Outcome.next ((runs f7).trans ?_)
    · exact extension_tFork form f7
    · exact extension_tJoin form f7 r2
    · exact extension_tExit form rd r2 f7
    · exact extension_tKill form rd r2 f7
    · exact extension_cPut form rd r2 f7 room
    · exact extension_cSend form rd f7
    · exact extension_cTrySend form f7
    · exact extension_cClear form rd r2 f7 r1
    · exact extension_cRecv form f7
    · exact extension_cPoll form f7 r2
    · exact extension_cGet form f7 r2
    · exact extension_tWait form rd r2 f7
    · exact extension_hAlloc form f7 r2
    · exact extension_hFree form rd r2 f7
  case effects =>
    intro t rd a b w u
    exact ⟨fun k => tFork_forks, tFork_full, fun inside ended child => tJoin_zombie inside child ended,
      fun inside runs child => tJoin_waits inside child runs, tKill_kills, send_barred, send_full, send_commits, receive_barred,
      fun v u1 may => receive_takes may, receive_empty, fun k u1 long short => hAlloc_allocates long short, hAlloc_exhausted, fun x => hFree_frees⟩
  case issued =>
    rintro core i t w size own _ _ s u fast up next calm even fetched other rfl rfl rfl
    rw [exec_instructionIssue_ordinary fast up next calm even fetched other]
    refine ⟨rfl, fun code => congrArg _ (ordinary_lui code), fun code => congrArg _ (ordinary_auipc code), fun code => congrArg _ (ordinary_jal code),
      fun code taken => congrArg _ (ordinary_branch_taken code taken), fun code passed => congrArg _ (ordinary_branch_passed code passed),
      fun code f7 => congrArg _ (ordinary_alu code f7), fun code f7 => congrArg _ (ordinary_mulDiv code f7), ?ecall, ?mret⟩
    case ecall =>
      rintro _ rfl
      exact congrArg Host.Outcome.next ordinary_ecall
    case mret =>
      rintro _ rfl machine
      exact congrArg Host.Outcome.next (ordinary_mret machine)

end Sys2Proof.Machine
end

section
/-!
SUPPORT. Waits, stalls, injection, domains, channels, cores, the debugger and mailboxes of the service array (R391 to R408): an equation for each
case, and the statement O49.
-/
namespace Sys2Proof.Machine

/-! ### Waits and stalls (R394, R406) -/

theorem exec_waitDeadline_ends {t d : Nat} {s : State} (due : (thread s t).deadline = some d) (waits : (thread s t).st = .waiting)
    (free : (thread s t).halted = false) : exec (.waitDeadline t) s = .next (endWait t 0 (advanceTai d s)) := by
  simp [execWaitDeadline, due, waits, free]

theorem exec_stall_raises {d : Nat} {s s1 : State} (inside : d < 64) (once : (mget ({} : Domain) s.svc.domains d).stalled = false)
    (stalls : stalledNow s d = true)
    (marked : s1 = modSvc (fun u => { u with domains := mmod {} u.domains d (fun x => { x with stalled := true, irq := true }) }) s) :
    exec (.stall d) s = .next (takeStall (supervisor s d) (raise 0xC 0x11 d .device (svcStat 3 1 s1))) := by
  subst marked
  simp [execStall, Nat.not_le.mpr inside, once, stalls]

/-! ### Injection (R402) -/

section
variable {m : ChMsg} {rest : List ChMsg} {w : Bytes} {s s1 : State} (oldest : chMsgs s 2 = m :: rest) (noHeld : s.tm.injectHeld = none)
  (cell : cellFree s = true) (bytes : w = (m.words.map (leBytes 8)).flatten) (taken : s1 = roomMade 2 (modMsgs 2 (·.drop 1) s))
include oldest noHeld cell bytes taken

theorem exec_inject_noHandle (no : mfind s.svc.handles (leAt w 4 2) = none) :
    exec .inject s = .next (sendDone 0x11 (leAt w 2 2) (injectStatus s m) (leAt w 32 8) m.domain m.epoch s1) := by
  subst bytes taken
  simp [execInject, oldest, noHeld, cell, no]

section
variable {x : Handle} (handle : mfind s.svc.handles (leAt w 4 2) = some x)
include handle

theorem exec_inject_refused (bad : injectStatus s m ≠ 0) :
    exec .inject s = .next (sendDone 0x11 (leAt w 2 2) (injectStatus s m) (leAt w 32 8) m.domain m.epoch s1) := by
  subst bytes taken
  simp [execInject, oldest, noHeld, cell, handle, bad]

theorem exec_inject_enters (good : injectStatus s m = 0) : exec .inject s = .next (newFrame { ingress := 3 + at_ 4 (leAt w 24 2), source := srcInject, bytes := x.bytes.take (leAt w 8 2), asEntered := x.bytes.take (leAt w 8 2), ended := true, ochre := x.ochre, umber := x.umber, sienna := x.sienna, ts := nowFrac s, bound := bound16 s, metadata := leAt w 16 8, entryPoint := if bitOf (byteAt w 1) 1 then none else some (byteAt w 10), flowIndex := if bitOf (byteAt w 1) 0 then some (leAt w 12 3) else none, injected := some (leAt w 2 2, leAt w 32 8, m.domain, m.epoch) }
    (modSvc (fun v => { v with handles := mdel v.handles (leAt w 4 2) }) s1)).2 := by
  subst bytes taken
  simp [execInject, oldest, noHeld, cell, handle, good]

end
end

/-! ### Domains (R407) -/

section
variable {t d : Nat} {s : State} (selected : d = domSelected s)
include selected

theorem domain_barred (barred : controlsDomain s t d = false) :
    exec (.domainRestart t) s = .next (domResult 1 s) ∧ exec (.freeHandles t) s = .next (domResult 1 s) := by
  simp [execDomainRestart, domainRestart, execFreeHandles, freeHandles, ← selected, barred]

section
variable (may : controlsDomain s t d = true)
include may

theorem exec_domainRestart_restarts (other : fld (chCfg s 4) 13 8 ≠ d) : exec (.domainRestart t) s = .next (domResult 0 (modSvc (fun v => { v with
      domains := mmod {} v.domains d (fun x => { x with epoch := (x.epoch + 1) % 65536 })
      deferred := v.deferred.filter (fun e => !owedTo d (domEpoch s d) e.2) })
    (killThreads (fun k h => h.domain == d && k != supervisor s d) s))) := by
  simp [execDomainRestart, domainRestart, ← selected, may, other]

theorem exec_freeHandles_frees {hs : List Nat} (owned : hs = (s.svc.handles.filter (fun e => e.2.owner == .domain d)).map Prod.fst) :
    exec (.freeHandles t) s = .next (domResult 0 (svcStat 2 hs.length (foldS freeHandle hs s))) := by
  subst owned
  simp [execFreeHandles, freeHandles, ← selected, may]

end
end

/-! ### Channel configuration (R397) -/

theorem exec_svcChCfgWrite_acts {p : Path} {off : Nat} {v : Word} {s : State} (place : regBar p .SVC_CH_CFG 0 = some off) (acts : actsAt p off s = true) :
    exec (.svcChCfgWrite p v) s = .next (chCfgWrite (asPath p) v (atWork p off s)) :=
  congrArg Host.Outcome.next (writeOf_does v (by decide) place acts (chCfgWrite (asPath p) v) (fun _ => by cases asPath p <;> rfl))

section
variable {p : Path} {c : Nat} {v0 v : Word} {s : State} (may : mayWrite s p .SVC_CH_CFG = true)
  (selected : c = fld (reg s .SVC_CH_SELECT 0 (pathCode p)) 13 0) (value : v = readMask .SVC_CH_CFG v0)
include may selected value

/-- A channel that is in use keeps its configuration. -/
theorem chCfgWrite_busy (changes : v ≠ chCfg s c) (valid : wbit (chCfg s c) 31 = true) (busy : chBusy s c = true) :
    chCfgWrite p v0 s = setReg .SVC_CH_STATUS 0 (pathCode p) (w32 (at_ 16 1)) s := by
  simp [chCfgWrite, may, ← selected, ← value, changes, valid, busy]

section
variable (firmware : 16 ≤ c) (unused : wbit (chCfg s c) 31 = false)
include firmware unused

theorem chCfgWrite_badSize (bad : fld v 3 0 < 4 ∨ 12 < fld v 3 0) :
    chCfgWrite p v0 s = setReg .SVC_CH_STATUS 0 (pathCode p) (w32 (at_ 16 1)) s := by
  simp [chCfgWrite, may, ← selected, ← value, unused, Nat.not_lt.mpr firmware, bad]

section
variable (low : 4 ≤ fld v 3 0) (high : fld v 3 0 ≤ 12) (valid : wbit v 31 = true)
include low high valid

/-- A new channel is made where the slots suffice. -/
theorem chCfgWrite_valid : chCfgWrite p v0 s = if 1048576 < slotsUsed s + 2 ^ fld v 3 0 then setReg .SVC_CH_STATUS 0 (pathCode p) (w32 (at_ 16 2)) s
    else setReg .SVC_CH_STATUS 0 (pathCode p) (w32 (at_ 16 0)) (modSvc (fun x => { x with channels := mmod {} x.channels c (fun y => { y with cfg := v }) }) s) := by
  simp [chCfgWrite, may, ← selected, ← value, unused, Nat.not_lt.mpr firmware, Nat.not_lt.mpr low, Nat.not_lt.mpr high, valid]

end
end
end

/-! ### Cores (R391) and the debugger (R394, R405) -/

section
variable {core : Nat} {s : State}

theorem exec_contextExchange_rotates (many : 16 < (coreContexts s core).length) : exec (.contextExchange core) s =
    .next (modSvc (fun v => { v with hosts := mput v.hosts core ((coreContexts s core).drop 1 ++ (coreContexts s core).take 1) }) s) :=
  if_neg (Nat.not_le.mpr many)

section
variable (t : Nat) (no : debugGrants s 1 = false)
include no

theorem debugger_barred : exec (.debugHalt t) s = .next s ∧ exec (.debugResume t) s = .next s ∧ exec (.hartreset t) s = .next s := by
  simp [execDebugHalt, execDebugResume, execHartreset, no]

end

section
variable (t : Nat) (grants : debugGrants s 1 = true)
include grants

theorem debugger_halts (alive : (thread s t).st = .running ∨ (thread s t).st = .waiting) :
    exec (.debugHalt t) s = .next (modThread t (fun h => { h with halted := true }) (abandonWait t s)) ∧
    exec (.hartreset t) s = .next (endThread t (2 ^ 64 - 1) s) := by
  rcases alive with h | h <;> simp [execDebugHalt, execHartreset, grants, live, h]

theorem debugger_resumes : exec (.debugResume t) s = .next (takeStall t (modThread t (fun h => { h with halted := false }) s)) := by
  simp [execDebugResume, grants]

end
end

/-! ### Mailboxes (R408) -/

theorem exec_mbxSend_acts {f : Fn} {off : Nat} {v : Word} {s : State} (place : regBar (.fn f) .MBX_H2F_CTRL 0 = some off)
    (acts : actsAt (.fn f) off s = true) : exec (.mbxSend f v) s = .next (mbxSend f v (atWork (.fn f) off s)) :=
  congrArg Host.Outcome.next (writeOf_does v (by decide) place acts (mbxSend f v) (fun _ => rfl))

theorem exec_fmbxSend_acts {p : Path} {off : Nat} {v : Word} {s : State} (place : regBar p .SVC_FMBX_CTRL 0 = some off) (acts : actsAt p off s = true) :
    exec (.fmbxSend p v) s = .next (fmbxSend (asPath p) v (atWork p off s)) :=
  congrArg Host.Outcome.next (writeOf_does v (by decide) place acts (fmbxSend (asPath p) v) (fun _ => by cases asPath p <;> rfl))

/-- The mailbox's pop does not stand among the occurrence counts. -/
theorem countsAt_mbxPop {f : Fn} {off : Nat} (place : regBar (.fn f) .MBX_F2H_POP 0 = some off) : countsAt (.fn f) off = false := by
  cases f with
  | vf k n =>
    have e : off = 0x478 := (Option.some.inj place).symm
    subst e
    rfl
  | _ =>
    have e : off = 0x1800178 := (Option.some.inj place).symm
    subst e
    rfl

/-- A function's read of its mailbox's pop, where no shadow holds the word. -/
theorem exec_mbxF2hPop_acts {f : Fn} {off : Nat} {s : State} (host : f ≠ .fw) (place : regBar (.fn f) .MBX_F2H_POP 0 = some off)
    (acts : actsAt (.fn f) off s = true) (bare : mfind (atWork (.fn f) off s).shadow (shadowKey (.fn f) off) = none) : exec (.mbxF2hPop f) s =
      .next (emit (.readData (.fn f) off (mbxPop f (atWork (.fn f) off s)).1) (mbxPop f (atWork (.fn f) off s)).2) := by
  have found : findsAt (.fn f) off .MBX_F2H_POP 0 = true := findsAt_regBar (by decide) place
  obtain ⟨here, -⟩ := findsAt_spec s found
  have pop : readReg (.fn f) off (atWork (.fn f) off s) = mbxPop f (atWork (.fn f) off s) :=
    (readReg_single here bare rfl).trans (if_neg host)
  rw [exec_mbxF2hPop, execMbxF2hPop, readOf, place]
  dsimp only
  rw [accessRead_acts found (countsAt_mbxPop place) acts]
  exact congrArg (fun r => Host.Outcome.next (emit (.readData (.fn f) off r.1) r.2)) pop

section
variable {f : Fn} {v : Word} {s : State} (has : hasMailbox s f = true) (send : wbit v 31 = true)
include has send

theorem mbxSend_full (full : (mbxOf s f).h2fFull = true) : mbxSend f v s = hwSet .MBX_STATUS 0 (fnCode f) 3 s := by
  simp [mbxSend, has, send, full]

theorem mbxSend_sends {body : Bytes} (room : (mbxOf s f).h2fFull = false)
    (data : body = slice (((List.range 14).map (fun i => leBytes 4 (reg s .MBX_H2F_DATA i (fnCode f)).toNat)).flatten.take (min 56 (fld v 5 0))) 0 56) :
    mbxSend f v s = devSend 4 ((0x20 + at_ 8 (min 56 (fld v 5 0)) + at_ 16 (fnCode f)) :: (List.range 7).map (fun i => leAt body (8 * i) 8))
      (modMbx f (fun b => { b with h2fFull := true }) s) := by
  subst data
  simp only [mbxSend, has, send, room]
  rfl

end

theorem mbxPop_full {f : Fn} {s : State} (full : (mbxOf s f).f2hFull = true) : mbxPop f s = (w32 ((mbxOf s f).f2h.length + at_ 31 1),
    devSend 4 [0x22 + at_ 16 (fnCode f)] (modMbx f (fun b => { b with f2hFull := false, f2h := [] }) s)) := by
  simp [mbxPop, full]

theorem mbxPop_empty {f : Fn} {s : State} (empty : (mbxOf s f).f2hFull = false) : mbxPop f s = (0, s) := by
  simp [mbxPop, empty]

section
variable {f : Fn} {d : Bytes} {s : State}

theorem f2hSend_none (no : hasMailbox s f = false) : f2hSend f d s = (2, s) := by
  simp [f2hSend, no]

section
variable (has : hasMailbox s f = true)
include has

theorem f2hSend_notReady (down : (fnSt s f).ready = false) : f2hSend f d s = (3, s) := by
  simp [f2hSend, has, down]

theorem f2hSend_full (ready : (fnSt s f).ready = true) (full : (mbxOf s f).f2hFull = true) : f2hSend f d s = (1, s) := by
  simp [f2hSend, has, ready, full]

theorem f2hSend_sends (ready : (fnSt s f).ready = true) (room : (mbxOf s f).f2hFull = false) :
    f2hSend f d s = (0, raise 0xC 0x01 0 (.function f) (modMbx f (fun b => { b with f2hFull := true, f2h := d }) s)) := by
  simp [f2hSend, has, ready, room]

end
end

/-- Firmware's message shows in SVC_FMBX_STATUS what became of it. -/
theorem fmbxSend_shows {p : Path} {v : Word} {s : State} {d : Bytes} (may : mayWrite s p .SVC_FMBX_CTRL = true) (send : wbit v 31 = true)
    (data : d = ((List.range 14).map (fun i => leBytes 4 (reg s .SVC_FMBX_DATA i (pathCode p)).toNat)).flatten.take (min 56 (fld v 21 16))) :
    fmbxSend p v s = setReg .SVC_FMBX_STATUS 0 (pathCode p) (w32 (f2hSend (fnOfCode (fld v 14 0)) d s).1) (f2hSend (fnOfCode (fld v 14 0)) d s).2 := by
  subst data
  exact if_neg (by simp [may, send])

/-! ### The obligation -/

/-- Settles O49, clause by clause, by the equations above. -/
theorem serviceArray : Obligations.ServiceArray := by
  refine ⟨fun t d s => exec_waitDeadline_ends, ?stall, ?inject, ?domains, ?channels, fun core s => ⟨fun up => if_pos up, fun down => if_neg (by simp [down])⟩,
    fun core s many => ⟨_, exec_contextExchange_rotates many, rfl⟩, fun t s grants => ⟨debugger_halts t grants, debugger_resumes t grants⟩,
    fun t s => debugger_barred t, ?send, ?pop, ?firmware⟩
  case stall =>
    intro d s s1 inside once stalls marked
    refine ⟨exec_stall_raises inside once stalls marked, ?_⟩
    subst marked
    simp [modSvc]
  case inject =>
    intro m rest w s s1 oldest noHeld cell bytes taken
    exact ⟨exec_inject_noHandle oldest noHeld cell bytes taken, fun x handle =>
      ⟨exec_inject_refused oldest noHeld cell bytes taken handle, exec_inject_enters oldest noHeld cell bytes taken handle⟩⟩
  case domains =>
    intro t d s selected
    exact ⟨domain_barred selected, exec_domainRestart_restarts selected, fun hs may => exec_freeHandles_frees selected may⟩
  case channels =>
    rintro p _ off c v0 v s0 _ rfl place acts rfl may selected value
    rw [exec_svcChCfgWrite_acts place acts]
    refine ⟨fun changes valid busy => congrArg _ (chCfgWrite_busy may selected value changes valid busy),
      fun firmware low high unused => ⟨fun valid many => congrArg _ ?many, fun valid few => congrArg _ ?few⟩,
      fun firmware bad unused => congrArg _ (chCfgWrite_badSize may selected value firmware unused bad)⟩
    case many => rw [chCfgWrite_valid may selected value firmware unused low high valid, if_pos many]
    case few => rw [chCfgWrite_valid may selected value firmware unused low high valid, if_neg (Nat.not_lt.mpr few)]
  case send =>
    rintro f off v body s0 _ place acts rfl has sends
    rw [exec_mbxSend_acts place acts]
    exact ⟨fun full => congrArg _ (mbxSend_full has sends full), fun room data => congrArg _ (mbxSend_sends has sends room data)⟩
  case pop =>
    rintro f off s0 _ host place acts rfl bare
    rw [exec_mbxF2hPop_acts host place acts bare]
    exact ⟨fun full => by rw [mbxPop_full full], fun empty => by rw [mbxPop_empty empty]⟩
  case firmware =>
    rintro p _ off v d s0 _ rfl place acts rfl may sends data
    rw [exec_fmbxSend_acts place acts, fmbxSend_shows may sends data]
    exact ⟨fun no => by rw [f2hSend_none no]; rfl, fun has down => by rw [f2hSend_notReady has down]; rfl,
      fun has ready full => by rw [f2hSend_full has ready full]; rfl, fun has ready room => by rw [f2hSend_sends has ready room]; rfl⟩

end Sys2Proof.Machine
end

section
/-!
SUPPORT. Life-cycle tokens and debug sessions, staging, and the activation of the chain with commit and rollback (R449 to R467): an equation for each
case, and the statement O52.
-/
namespace Sys2Proof.Machine

theorem lcsAnswers_live {s : State} (live : s.lcs.life ≠ 4) (r : Reg) : lcsAnswers s r = true := by
  simp [lcsAnswers, live]

/-! ### Tokens and debug sessions (R449, R450, R454, R455) -/

section
variable {p : Path} {off : Nat} {s : State} (place : regBar p .LCS_TOKEN_CTRL 0 = some off) (opened : pathOpen s p = true)
  (access_ : lcsAccess s (asPath p) off = true) (live : s.lcs.life ≠ 4)
include place opened access_ live

theorem exec_tokenSubmit_acts : exec (.tokenSubmit p) s = .next (tokenSubmit (asPath p) s) := by
  rw [exec_tokenSubmit, execTokenSubmit, writeOf_lcs 1 (by decide) place opened access_, lcsStore, lcsAnswers_live live]
  rfl

theorem exec_debugEnd_closes (may : mayWrite s (asPath p) .LCS_TOKEN_CTRL = true) : exec (.debugEnd p) s = .next (closeDebug s) := by
  rw [exec_debugEnd, execDebugEnd, writeOf_lcs 2 (by decide) place opened access_, lcsStore, lcsAnswers_live live]
  exact congrArg Host.Outcome.next (if_pos (show mayWrite s (asPath p) .LCS_TOKEN_CTRL = true ∧ s.lcs.life ≠ 4 from ⟨may, live⟩))

end

/-- A submitted token consumes the nonce and is judged (R454). -/
theorem tokenSubmit_judges {p : Path} {r : Nat} {t : Bytes} {s s1 : State} (live : s.lcs.life ≠ 4) (may : mayWrite s p .LCS_TOKEN_CTRL = true)
    (bytes : t = ((List.range 88).map (fun i => leBytes 4 (reg s .LCS_TOKEN_BUF i (pathCode p)).toNat)).flatten) (result : r = judgeToken s t)
    (shown : s1 = setReg .LCS_TOKEN_STATUS 0 (pathCode p) (w32 r) (modLcs (fun l => { l with nonce := none }) s)) :
    tokenSubmit p s = if r ≠ 0 then lcsEvent 0x02 r s1
      else if byteAt t 4 = 1 then openDebug t (lcsEvent 0x01 (byteAt t 4) s1) else transition t (lcsEvent 0x01 (byteAt t 4) s1) := by
  subst shown result bytes
  exact if_neg (by simp [may, live])

theorem judgeToken_malformed {s : State} {t : Bytes} (bad : tokenFormOk t = false) : judgeToken s t = 1 := by
  simp [judgeToken, bad]

theorem judgeToken_formed {s : State} {t : Bytes} (good : tokenFormOk t = true) : judgeToken s t =
    if leAt t 8 16 ≠ Config.serial % 2 ^ 128 then 2
    else if s.lcs.nonce ≠ some (leAt t 24 8) then 3
    else if s.lcs.life ≠ 0 ∧ signerHash s (byteAt t 6) ≠ some (sha384 (slice t 160 96)) then 4
    else if s.lcs.life ≠ 0 ∧ sigOk (slice t 160 96) (sha384 (t.take 256)) (slice t 256 96) = false then 5 else tokenAllowed s t := by
  simp [judgeToken, good]

theorem exec_debugExpiry_closes {s : State} {d : DebugSession} (session : s.lcs.session = some d) :
    exec .debugExpiry s = .next (closeDebug (advanceTo d.endAt s)) := by
  rw [exec_debugExpiry, execDebugExpiry, session]

/-- A read of LCS_NONCE_LO draws a nonce and keeps its high word for the next read. -/
theorem exec_nonceRead_draws {p : Path} {off : Nat} {s : State} (place : regBar p .LCS_NONCE_LO 0 = some off) (opened : pathOpen s p = true)
    (access_ : lcsAccess s (asPath p) off = true) (live : s.lcs.life ≠ 4) :
    exec (.nonceRead p) s = .next (emit (.readData (asPath p) off (nonceRead (asPath p) s).1) (nonceRead (asPath p) s).2) := by
  have here := (regReached_spec (by decide) place).1
  rw [exec_nonceRead, execNonceRead, readOf, place]
  simp only [accessRead, opened, access_, readLcs, here, lcsAnswers_live live]
  rfl

/-- The paths that may read it: all but a VF's. -/
theorem nonceRead_new {p : Path} {s : State} (live : s.lcs.life ≠ 4) (who : (∃ i, p = .fn (.pf i)) ∨ p = .firmware ∨ p = .mgmt ∨ p = .debug) :
    nonceRead p s = (w32 ((takeFree s).1 % 2 ^ 64), { modLcs (fun l => { l with nonce := some ((takeFree s).1 % 2 ^ 64), nonceShown := (takeFree s).1 % 2 ^ 64 }) (takeFree s).2 with
      shadow := mput (takeFree s).2.shadow (pathCode p * 2 ^ 26 + 0x20011C) (w32 ((takeFree s).1 % 2 ^ 64 / 2 ^ 32)) }) := by
  rcases who with ⟨i, rfl⟩ | rfl | rfl | rfl <;> exact if_neg live

/-! ### Staging (R459) -/

section
variable {f : Fn} {s : State} (up : firmwareUp s = true) (ready : (fnSt s f).ready = true)
include up ready

theorem exec_mbxStage_refused (bad : fnPf0 s f = false ∨ isMaster s = false) (a len : Nat) (img : HostRead) :
    exec (.mbxStage f a len img) s = .next (mbxReply f 1 0x05 [] s) := by
  rcases bad with h | h <;> simp [execMbxStage, up, ready, h]

section
variable {a : Nat} (len : Nat) (pf0 : fnPf0 s f = true) (master : isMaster s = true)
include pf0 master

theorem exec_mbxStage_stages {bs : Bytes} (take : mayTake s f a = true) : exec (.mbxStage f a len (.data bs)) s =
    .next (mbxReply f 1 (stageImage (slice bs 0 len) s).1 [] (stageImage (slice bs 0 len) s).2) := by
  simp [execMbxStage, up, ready, pf0, master, withRead, operandRead_data take]

theorem exec_mbxStage_fails {got : HostRead} {s1 : State} (failed : got = .badAddress ∨ got = .timeout ∨ got = .abort ∨ got = .poisoned)
    (read : operandRead f a got s = some s1) : exec (.mbxStage f a len got) s = .next (mbxReply f 1 (hostReadStatus got) [] s1) := by
  rcases failed with rfl | rfl | rfl | rfl <;> simp [execMbxStage, up, ready, pf0, master, withRead, read]

end

theorem exec_mbxQuery_answers (pf0 : fnPf0 s f = true) : exec (.mbxQuery f) s =
    .next (mbxReply f 5 0 (leBytes 1 s.lcs.active ++ leBytes 1 (b2n s.lcs.staged.isSome + 2 * b2n s.lcs.committed) ++ leBytes 4 0
      ++ leBytes 4 (fwVersion s.lcs.running) ++ leBytes 4 ((s.lcs.staged.map fwVersion).getD 0) ++ leBytes 1 s.lcs.svnFloor) s) := by
  simp [execMbxQuery, up, ready, pf0]

theorem exec_mbxQuery_refused (other : fnPf0 s f = false) : exec (.mbxQuery f) s = .next (mbxReply f 5 0x05 [] s) := by
  simp [execMbxQuery, up, ready, other]

end

/-! ### Asking for an action (R460 to R464) -/

/-- A path asks for an action: a function through its mailbox, any other by LCS_FW_CTRL. -/
def fwAsks (p q : Path) (s : State) : Prop :=
  (∃ f, p = .fn f ∧ q = p ∧ firmwareUp s = true ∧ (fnSt s f).ready = true) ∨
    ((∀ f, p ≠ .fn f) ∧ q = asPath p ∧ s.lcs.life ≠ 4 ∧ mayWrite s q .LCS_FW_CTRL = true ∧
      ∃ off, regBar p .LCS_FW_CTRL 0 = some off ∧ pathOpen s p = true ∧ lcsAccess s q off = true)

/-- The write of an action to LCS_FW_CTRL, where LCS takes it. -/
theorem fwCtrl_acts {p : Path} {off : Nat} {v : Word} {s : State} (place : regBar p .LCS_FW_CTRL 0 = some off) (opened : pathOpen s p = true)
    (access_ : lcsAccess s (asPath p) off = true) (live : s.lcs.life ≠ 4) (may : mayWrite s (asPath p) .LCS_FW_CTRL = true) {act : Path → State → State}
    (acts : ∀ q u, mayWrite u q .LCS_FW_CTRL = true → fwAction q (fld v 2 0) u = act q u) : writeOf p .LCS_FW_CTRL 0 v s = act (asPath p) s := by
  rw [writeOf_lcs v (by decide) place opened access_, lcsStore, lcsAnswers_live live]
  exact acts _ _ may

section
variable {p q : Path} {s : State} (asks : fwAsks p q s)
include asks

theorem fwAsk_acts {v : Word} {act : Path → State → State} (acts : ∀ q u, mayWrite u q .LCS_FW_CTRL = true → fwAction q (fld v 2 0) u = act q u) :
    fwAsk p v act s = act q s := by
  obtain ⟨f, rfl, rfl, up, ready⟩ | ⟨other, rfl, live, may, off, place, opened, access_⟩ := asks
  · simp [fwAsk, up, ready]
  · have e : fwAsk p v act s = writeOf p .LCS_FW_CTRL 0 v s := by
      cases p with
      | fn f => exact absurd rfl (other f)
      | _ => rfl
    rw [e, fwCtrl_acts place opened access_ live may acts]

theorem exec_activate_asks : exec (.activate p) s = .next (activate q s) :=
  congrArg Host.Outcome.next (fwAsk_acts (v := 1) asks fun _ _ may => if_neg (by simp [may]))

theorem exec_commit_asks : exec (.commit p) s = .next (commit q s) :=
  congrArg Host.Outcome.next (fwAsk_acts (v := 2) asks fun _ _ may => if_neg (by simp [may]))

theorem exec_rollback_asks : exec (.rollback p) s = .next (rollback q s) :=
  congrArg Host.Outcome.next (fwAsk_acts (v := 3) asks fun _ _ may => if_neg (by simp [may]))

end

section
variable {q : Path} {w : Option Fn} {s : State} (asker : actionAsker s q = some w)
include asker

theorem commit_refused (bad : askerOk s w = false ∨ s.lcs.committed = true ∨ rollingBack s = true) : commit q s = answerAction w 3 0x05 s := by
  rcases bad with h | h | h <;> simp [commit, asker, h]

theorem commit_commits (ok : askerOk s w = true) (open_ : s.lcs.committed = false) (forward : rollingBack s = false) :
    commit q s = answerAction w 3 0 (commitNow s) := by
  simp [commit, asker, ok, open_, forward]

theorem rollback_refused (bad : askerOk s w = false ∨ isMaster s = false ∨ s.lcs.committed = true ∨ s.lcs.chain.isSome = true) :
    rollback q s = answerAction w 4 0x05 s := by
  rcases bad with h | h | h | h
  · simp [rollback, asker, h]
  · simp [rollback, asker, h]
  · simp [rollback, asker, h]
  · simp [rollback, asker, Option.isSome_iff_ne_none.mp h]

section
variable (notService : s.cai.mode ≠ .service) (notSpared : s.cai.mode ≠ .spared)
include notService notSpared

theorem rollback_badMode : rollback q s = answerAction w 4 0x05 s := by
  simp [rollback, asker, notService, notSpared]

theorem activate_badMode : activate q s = answerAction w 2 0x05 (refuseRequest s) := by
  simp [activate, asker, notService, notSpared]

end

section
variable (mode : s.cai.mode = .service ∨ s.cai.mode = .spared)
include mode

theorem activate_refused (bad : askerOk s w = false ∨ isMaster s = false ∨ chainWhole s = false ∨ s.lcs.staged = none ∨ allVerified s = false ∨
    s.lcs.committed = false ∨ s.lcs.chain.isSome = true) : activate q s = answerAction w 2 0x05 s := by
  have modeOk : (s.cai.mode == .service || s.cai.mode == .spared) = true := by simpa using mode
  have no : (askerOk s w && true && isMaster s && chainWhole s && s.lcs.staged.isSome && allVerified s && s.lcs.committed && s.lcs.chain.isNone) = false := by
    rcases bad with h | h | h | h | h | h | h
    all_goals simp [h]
  simp only [activate, asker, modeOk, no, Bool.false_eq_true, if_false, if_true]

section
variable (ok : askerOk s w = true) (master : isMaster s = true) (idle : s.lcs.chain = none)
include ok master idle

theorem activate_begins (whole : chainWhole s = true) (staged : s.lcs.staged.isSome = true) (verified : allVerified s = true)
    (committed : s.lcs.committed = true) :
    activate q s = chainNext (modLcs (fun l => { l with chain := some { left := switchOrder s }, replyTo := w }) s) := by
  rcases mode with h | h <;> simp [activate, asker, ok, master, idle, whole, staged, verified, committed, h]

theorem rollback_begins (open_ : s.lcs.committed = false) :
    rollback q s = chainNext (modLcs (fun l => { l with chain := some { rollback := true, left := switchOrder s }, replyTo := w }) s) := by
  rcases mode with h | h <;> simp [rollback, asker, ok, master, idle, open_, h]

end
end
end

/-! ### Commit and the flash directory (R458, R464) -/

theorem lcs_lcsEvent (code detail : Nat) (s : State) : (lcsEvent code detail s).lcs = s.lcs :=
  lcs_of_frame (raise_frame 2097664 rfl 1 code detail .device s) rfl rfl

theorem writeDir_none (active : Nat) (committed : Bool) {s : State} (no : directory s = none) : writeDir active committed s = s := by
  rw [writeDir, no]

/-- The directory that is not the newest is written, and the newest stays. -/
theorem lcs_writeDir_some (active : Nat) (committed : Bool) {s : State} {k : Nat} {d : FlashDir} (newest : directory s = some (k, d)) :
    (writeDir active committed s).lcs = if k = 0
      then { s.lcs with dir1 := some { d with seq := (d.seq + 1) % 2 ^ 32, active := active, committed := committed } }
      else { s.lcs with dir0 := some { d with seq := (d.seq + 1) % 2 ^ 32, active := active, committed := committed } } := by
  rw [writeDir, newest]
  rfl

/-- A write of the directory leaves the floor and the commitment. -/
theorem writeDir_keeps (active : Nat) (committed : Bool) (s : State) :
    (writeDir active committed s).lcs.svnFloor = s.lcs.svnFloor ∧ (writeDir active committed s).lcs.committed = s.lcs.committed := by
  cases newest : directory s with
  | none =>
    rw [writeDir_none active committed newest]
    exact ⟨rfl, rfl⟩
  | some e =>
    rw [lcs_writeDir_some active committed newest]
    split <;> exact ⟨rfl, rfl⟩

theorem commitNow_commits (s : State) :
    (commitNow s).lcs.svnFloor = max s.lcs.svnFloor (byteAt s.lcs.running 14) ∧ (commitNow s).lcs.committed = true := by
  rw [commitNow, lcs_lcsEvent]
  split
  · exact ⟨rfl, rfl⟩
  · exact writeDir_keeps ..

theorem commitNow_writes {s : State} {k : Nat} {d : FlashDir} (idle : s.lcs.dirPending = none) (newest : directory s = some (k, d)) :
    (if k = 0 then (commitNow s).lcs.dir1 else (commitNow s).lcs.dir0) =
      some { d with seq := (d.seq + 1) % 2 ^ 32, active := s.lcs.active, committed := true } := by
  have same : directory (modLcs (fun l => { l with svnFloor := max s.lcs.svnFloor (byteAt s.lcs.running 14), committed := true }) s) = some (k, d) := newest
  simp only [commitNow, lcs_lcsEvent, idle, Option.isSome_none, Bool.false_eq_true, if_false, lcs_writeDir_some _ _ same]
  split <;> rfl

theorem exec_autoCommit_commits {s : State} (period : dfld s .LCS_FW_CFG 15 0 ≠ 0) (open_ : s.lcs.committed = false) (forward : rollingBack s = false) :
    exec .autoCommit s = .next (commitNow (advanceTo (s.lcs.switchedAt + dfld s .LCS_FW_CFG 15 0 * 1000000000) s)) := by
  simp [execAutoCommit, period, open_, forward]

theorem exec_dirWritten_writes {s : State} (pending : s.lcs.dirPending.isSome = true) :
    exec .dirWritten s = .next (modLcs (fun l => { l with dirPending := none }) (writeDir s.lcs.active s.lcs.committed s)) :=
  if_neg (by simpa [← Option.isSome_iff_ne_none] using pending)

/-! ### Switching (R460 to R463, R466) -/

section
variable {r : Bool} {s : State} (member : isMaster s = false) (idle : s.lcs.switch_ = none)
include member idle

theorem exec_memberSwitch_enters {t : State} (enters : enterSwitch r true s = some t) : exec (.memberSwitch r) s = .next t := by
  simp [execMemberSwitch, member, idle, enters]

theorem exec_memberSwitch_refuses {m : Nat} (cannot : enterSwitch r true s = none) (master : s.akz.master = some m) :
    exec (.memberSwitch r) s = .next (sendTo m (leBytes 1 4 ++ leBytes 1 s.akz.member) s) := by
  simp [execMemberSwitch, member, idle, cannot, master]

end

theorem enterSwitch_staged {bs : Bytes} (from_ : Bool) {s : State} (mode : s.cai.mode = .service ∨ s.cai.mode = .spared)
    (staged : s.lcs.staged = some bs) : enterSwitch false from_ s = some (switchThreads (1 - s.lcs.active) bs (modLcs (fun l => { l with
      switch_ := some { entered := s.elapsed, bank := 1 - s.lcs.active, rollback := false, fromMaster := from_ } }) (setMode .pause s))) := by
  rcases mode with h | h <;> simp [enterSwitch, otherImage, staged, h]

section
variable {w : Switch} {s : State} (switching : s.lcs.switch_ = some w) (pause : s.cai.mode = .pause)
include switching pause

theorem switched_switches {p : Path} {bs : Bytes} {s2 : State} (may : mayWrite s p .LCS_FW_CTRL = true) (soon : s.elapsed ≤ w.entered + 2500000)
    (image : bs = (otherImage w.rollback s).getD []) (new : s2 = modLcs (fun l => { l with
      active := w.bank, committed := w.rollback, running := bs, staged := none, memberResults := [], dirPending := some (s.elapsed + 100000000), switchedAt := s.elapsed })
      (loadPrsOf bs (migrateSettings bs w.bank s))) :
    switched p s = switchEnds w false (lcsEvent (if w.rollback then 0x09 else 0x06) w.bank s2) := by
  subst new image
  simp only [switched, switching, pause, may, Nat.not_lt.mpr soon, Bool.not_true, Bool.false_eq_true, or_self, if_false]

theorem exec_activateReverted_reverts : exec .activateReverted s = .next (switchEnds w true (lcsEvent 0x07 s.lcs.active
    (loadPrsOf s.lcs.running (switchThreads s.lcs.active s.lcs.running (advanceTo (w.entered + 2500000) s))))) := by
  simp only [exec_activateReverted, execActivateReverted, switching, pause]

end

section
variable {m : Nat} {c : ChainSwitch} {s : State} (chain : s.lcs.chain = some c) (front : c.left.head? = some m)
include chain front

theorem exec_switchedReply_reverted : exec (.switchedReply m true) s = .next (chainDone c.rollback 0x20 s) := by
  simp [execSwitchedReply, chain, front]

theorem exec_switchedReply_switched :
    exec (.switchedReply m false) s = .next (chainNext (modLcs (fun l => { l with chain := some { c with left := c.left.drop 1 } }) s)) := by
  simp [execSwitchedReply, chain, front]

end

/-! ### The obligation -/

/-- Settles O52, clause by clause, by the equations above. -/
theorem tokensAndUpdates : Obligations.TokensAndUpdates := by
  refine ⟨?token, fun s t => ⟨judgeToken_malformed, judgeToken_formed⟩, ?debug, ?nonce, ?stage, ?actions, ?commit,
    fun r s member idle => ⟨fun t => exec_memberSwitch_enters member idle, fun m => exec_memberSwitch_refuses member idle⟩,
    fun bs from_ s => enterSwitch_staged from_, ?switch, fun m c s chain front => ⟨exec_switchedReply_reverted chain front, exec_switchedReply_switched chain front⟩,
    ?directory⟩
  case token =>
    rintro p _ off r t s s1 rfl place opened access_ live may bytes result shown
    rw [exec_tokenSubmit_acts place opened access_ live, tokenSubmit_judges live may bytes result shown]
  case debug =>
    refine fun p q off d s => ⟨?_, exec_debugExpiry_closes⟩
    rintro rfl place opened access_ live may
    exact exec_debugEnd_closes place opened access_ live may
  case nonce =>
    rintro p _ off _ s rfl place opened access_ live who rfl
    rw [exec_nonceRead_draws place opened access_ live, nonceRead_new live who]
    exact ⟨_, rfl, rfl, rfl, mfind_mput_same .., rfl⟩
  case stage =>
    intro f a len bs s up ready
    exact ⟨fun bad => exec_mbxStage_refused up ready bad a len, fun pf0 master => ⟨exec_mbxStage_stages up ready len pf0 master,
      fun got s1 => exec_mbxStage_fails up ready len pf0 master⟩, exec_mbxQuery_answers up ready, exec_mbxQuery_refused up ready⟩
  case actions =>
    intro p q w s asks asker
    rw [exec_activate_asks asks, exec_commit_asks asks, exec_rollback_asks asks]
    refine ⟨fun bad => ⟨?_, ?_⟩, fun mode => ⟨fun bad => ?_, fun bad => ?_⟩, fun notService notSpared => ⟨?_, ?_⟩,
      fun ok mode master idle => ⟨fun whole staged verified committed => ?_, fun open_ => ?_⟩, fun ok open_ forward => ?_, fun bad => ?_⟩
    · rw [commit_refused asker (.inl bad)]
    · rw [rollback_refused asker (.inl bad)]
    · rw [activate_refused asker mode bad]
    · rw [rollback_refused asker (.inr bad)]
    · rw [activate_badMode asker notService notSpared]
    · rw [rollback_badMode asker notService notSpared]
    · rw [activate_begins asker mode ok master idle whole staged verified committed]
    · rw [rollback_begins asker mode ok master idle open_]
    · rw [commit_commits asker ok open_ forward]
    · rw [commit_refused asker (.inr bad)]
  case commit =>
    intro s
    obtain ⟨floor, committed⟩ := commitNow_commits s
    exact ⟨floor, committed, fun k d => commitNow_writes, exec_autoCommit_commits⟩
  case switch =>
    refine fun p q off w s switching pause => ⟨fun bs s2 => ?_, exec_activateReverted_reverts switching pause⟩
    rintro rfl place opened access_ live may soon image new
    exact congrArg Host.Outcome.next ((fwCtrl_acts (v := 4) place opened access_ live may fun _ _ may => if_neg (by simp [may])).trans
      (switched_switches switching pause may soon image new))
  case directory =>
    intro s pending
    rw [exec_dirWritten_writes pending]
    refine ⟨fun no => by rw [writeDir_none _ _ no], fun k d newest => ⟨_, rfl, rfl, ?_⟩⟩
    have written := lcs_writeDir_some s.lcs.active s.lcs.committed newest
    by_cases first : k = 0
    · simp [modLcs, written, first]
    · simp [modLcs, written, first]

end Sys2Proof.Machine
end

section
/-!
SUPPORT. The Cairn clock (R29, assumptions 2 and 3): the tick of an empty queue (O2), and that no command takes the clock back (O10). Every frame
that leaves the clock says so of its operation; the lemmas here follow `ticks`, which alone moves it, up to the commands that tell of a moment.
-/
namespace Sys2Proof.Machine

/-! ### The tick of an empty queue -/

/-- Settles O2: the step is `tick`, and the frame of a tick leaves all but the clock and the time unit. -/
theorem emptyQueueTicks : Obligations.EmptyQueueTicks := by
  intro s h
  refine ⟨tick s, by rw [step, h], rfl, ?_, onlyChanges_of_partMask (tick_frame _ rfl s) (by simp)⟩
  simp [tick, ticks]

/-! ### A moment that the clock has reached -/

/-- The clock has reached the tick n. -/
def Reached (n : Nat) (s : State) : Prop := n ≤ s.elapsed

/-- The same, told of the state with every part cleared but the clock (`forget`, 2^26 - 1 - 2), so that the frame of an operation that leaves the
clock removes the operation from it. -/
@[simp] abbrev Since (n : Nat) (s : State) : Prop := Reached n (forget 67108861 s)

@[simp] theorem reached_ite (n : Nat) (c : Prop) [Decidable c] (a b : State) :
    Reached n (if c then a else b) ↔ (c → Reached n a) ∧ (¬c → Reached n b) := by
  split <;> simp [*]

/-- The same of the next state of an outcome. -/
def SinceO (n : Nat) : Outcome → Prop
  | .next t => Since n t
  | _ => True

@[simp] theorem sinceO_next (n : Nat) (t : State) : SinceO n (.next t) ↔ Reached n (forget 67108861 t) := Iff.rfl

@[simp] theorem sinceO_ite (n : Nat) (c : Prop) [Decidable c] (a b : Outcome) :
    SinceO n (if c then a else b) ↔ (c → SinceO n a) ∧ (¬c → SinceO n b) := by
  split <;> simp [*]

/-- What leaves the clock alone keeps the moment reached. -/
theorem since_of_frame {n : Nat} {s t : State} (h : forget 67108861 t = forget 67108861 s) (w : Since n s) : Since n t := by
  rw [Since, h]; exact w

theorem sinceO_of_frame {n : Nat} {s : State} {o : Outcome} (h : forgetO 67108861 s o = forget 67108861 s) (w : Since n s) : SinceO n o := by
  cases o with
  | next t => exact since_of_frame h w
  | _ => trivial

section
variable {n : Nat} {s : State} (w : Since n s)
include w

/-! ### The clock moves forward (assumption 3) -/

@[simp] theorem ticks_since (k : Nat) : Since n (ticks k s) := Nat.le_add_right_of_le w

@[simp] theorem advanceTo_since (k : Nat) : Since n (advanceTo k s) := ticks_since w _

@[simp] theorem advanceTai_since (k : Nat) : Since n (advanceTai k s) := ticks_since w _

theorem since_foldS {α : Type} {f : α → State → State} (h : ∀ a t, forget 67108861 (f a t) = forget 67108861 t) (l : List α) :
    Since n (foldS f l s) := since_of_frame (forget_foldS _ f h l s) w

/-! ### Reads whose end a command brings: one that times out takes the function's completion timeout (R134) -/

theorem operandRead_since {f : Fn} {addr : Nat} {got : HostRead} {t : State} (e : operandRead f addr got s = some t) : Since n t := by
  unfold operandRead at e
  split at e
  · cases e
  · split at e
    · cases e; exact w
    · cases e; exact w
    · obtain ⟨x, took, rfl⟩ := Option.map_eq_some_iff.mp e
      have := advanceTo_since (since_of_frame (takeSlot_frame _ rfl _ _ _ took) w) (s.elapsed + x.2.1.timeout)
      simpa using this
    · obtain ⟨x, took, rfl⟩ := Option.map_eq_some_iff.mp e
      have := since_of_frame (takeSlot_frame _ rfl _ _ _ took) w
      simpa using this

theorem withRead_since {f : Fn} {addr : Nat} {got : HostRead} {k : State → State} (h : ∀ t, Since n t → Since n (k t)) :
    Since n (withRead f addr got k s) := by
  unfold withRead
  split
  · next t e => exact h t (operandRead_since w e)
  · exact w

theorem execSqEntryFetch_since (f : Fn) (q : Nat) (got : HostRead) : SinceO n (execSqEntryFetch f q got s) := by
  unfold execSqEntryFetch
  dsimp only
  split
  · simp [w]
  · split
    · simp [w]
    · simp [w]
    · next t _ e => simpa using operandRead_since w e

theorem execStaleRetry_since (f : Fn) (q : Nat) (got : HostRead) : SinceO n (execStaleRetry f q got s) := by
  unfold execStaleRetry
  dsimp only
  split
  · simp [w]
  · split
    · simp [w]
    · split
      · simp [w]
      · simp [w]
      · next t _ e => simpa using operandRead_since (advanceTo_since w _) e

/-! ### Migration, storms and the scheduler (R192, R195, R216, R311) -/

@[simp] theorem migSlow_since (f : Fn) : Since n (migSlow f s) := by simp [migSlow, w]

@[simp] theorem vfRestore_since (pf : Nat) (image : HostRead) : Since n (vfRestore pf image s) := by
  unfold vfRestore
  split
  · exact w
  · cases e : operandRead _ _ image s with
    | none => exact w
    | some t => simpa using operandRead_since w e

theorem execVfRestore_since (pf : Nat) (image : HostRead) : SinceO n (execVfRestore pf image s) := by
  have asked (pf : Nat) : Since n (if (restoring s pf).isSome then s else vfCtrlWrite pf 7 s) := by simp [w]
  exact vfRestore_since (asked pf) pf image

@[simp] theorem rxRecover_since (lp prio : Nat) : Since n (rxRecover lp prio s) := by simp [rxRecover, w]

@[simp] theorem txRecover_since (lp prio k : Nat) : Since n (txRecover lp prio k s) := by simp [txRecover, w]

theorem execStormRecover_since (lp prio : Nat) : SinceO n (execStormRecover lp prio s) := by
  unfold execStormRecover
  dsimp only
  split <;> simp [w]

theorem execScheduleDecision_since (lp : Nat) : SinceO n (execScheduleDecision lp s) := by
  have credited (l : List Nat) : Since n (foldS creditPath l (judgePort lp (advanceTo ((lport s lp).freeAt / 200) s))) :=
    since_foldS (by simp [w]) (creditPath_frame _ rfl) l
  unfold execScheduleDecision
  dsimp only
  split
  · exact w
  · split
    · exact credited _
    · split
      · simpa using credited _
      · exact credited _

/-! ### NVMe commands and connections (R347 to R361) -/

theorem execNvmeCommandFetch_since (f : Fn) (q : Nat) (got : HostRead) : SinceO n (execNvmeCommandFetch f q got s) := by
  unfold execNvmeCommandFetch
  split
  · rw [sinceO_ite]
    refine ⟨fun _ => withRead_since w fun t wt => ?_, fun _ => w⟩
    split
    · simpa using wt
    · exact wt
  · exact w

theorem withList_since {f : Fn} {c : NCmd} {k : Nat} {list : HostRead} {next : State → State} (h : ∀ t, Since n t → Since n (next t)) :
    Since n (withList f c k list next s) := by
  unfold withList
  split
  · exact withRead_since w h
  · exact h s w

@[simp] theorem adminData_since (f : Fn) (c : NCmd) (bs : Bytes) (list : HostRead) : Since n (adminData f c bs list s) := by
  unfold adminData
  split
  · simp [w]
  · refine withList_since w fun t wt => ?_
    dsimp only
    (repeat' split) <;> simp [bufWrite_frame, wt]

@[simp] theorem nvLaunch_since (f : Fn) (c : NCmd) (e : Bytes) (op k : Nat) (host : HostRead) : Since n (nvLaunch f c e op k host s) := by
  unfold nvLaunch
  split
  · refine withRead_since w fun t wt => ?_
    split <;> simp [wt]
  · simp [w]

@[simp] theorem nvIo_since (f : Fn) (q op : Nat) (rw data wr : Bool) (list host : HostRead) : Since n (nvIo f q op rw data wr list host s) := by
  unfold nvIo
  have go (c : NCmd) (e : Bytes) (k : Nat) (t : State) (wt : Since n t) : Since n (let r := nvCheck t f c e rw data wr list
      if r.1 ≠ 0 then nvComplete f c.no r.1 0 t else nvLaunch f { c with buf := r.2 } e op k host t) := by simp [wt]
  split
  · split
    · simp [w]
    · exact w
  · split
    · exact w
    · split
      · simp [w]
      · dsimp only
        split
        · exact withList_since w (go _ _ _)
        · exact go _ _ _ _ w

theorem execDatasetManagement_since (f : Fn) (q : Nat) (ranges : HostRead) : SinceO n (execDatasetManagement f q ranges s) := by
  unfold execDatasetManagement
  split
  · simp [w]
  · split
    · simp [w]
    · dsimp only
      split
      · simp [w]
      · refine withRead_since w fun t wt => ?_
        split <;> simp [wt]

theorem admin_since {f : Fn} {op : Nat} {k : NCmd → State → State} (h : ∀ c t, Since n t → Since n (k c t)) : Since n (admin f op k s) := by
  unfold admin
  split
  · exact h _ s w
  · split
    · simp [w]
    · exact w

theorem execGetLogPage_since (f : Fn) (list : HostRead) : SinceO n (execGetLogPage f list s) := by
  refine admin_since w fun c t wt => ?_
  dsimp only
  split <;> simp [wt]

theorem execIdentify_since (f : Fn) (list : HostRead) : SinceO n (execIdentify f list s) := by
  refine admin_since w fun c t wt => ?_
  dsimp only
  split
  · split
    · simp [wt]
    · exact adminData_since wt ..
  · exact adminData_since wt ..
  · split
    · simp [wt]
    · exact adminData_since wt ..
  · split
    · exact adminData_since wt ..
    · simp [wt]
  · simp [wt]

theorem execRemoteAccess_since (ctx : Nat) (write : Bool) (rkey off len : Nat) (data : Bytes) (host : HostRead) (icrcOk ecn : Bool) :
    SinceO n (execRemoteAccess ctx write rkey off len data host icrcOk ecn s) := by
  unfold execRemoteAccess
  dsimp only
  split
  · exact w
  · split
    · simp [w]
    · split
      · split
        · simp [w]
        · split
          · simp [payloadFold_frame, w]
          · refine withRead_since (by simp [w]) fun t wt => ?_
            (repeat' split) <;> simp [wt]
      · simp [w]

/-! ### The mover, and staging (R372, R376, R458) -/

theorem mvReads_since {j : Job} {k off : Nat} {len : Option Nat} {host : HostRead} {next : State → State}
    (h : ∀ t, Since n t → Since n (next t)) : Since n (mvReads j k off len host next s) := by
  unfold mvReads
  split
  · exact h s w
  · exact withRead_since w h

@[simp] theorem mvWork_since (op ch k : Nat) (src idx : HostRead) : Since n (mvWork op ch k src idx s) := by
  unfold mvWork
  dsimp only
  split
  · exact w
  · split
    · exact w
    · split
      · simp [w]
      · refine mvReads_since w fun t wt => ?_
        split
        · simp [wt]
        · refine mvReads_since wt fun u wu => ?_
          split <;> simp [wu]

theorem execJobComplete_since (ch : Nat) (flush : HostRead) : SinceO n (execJobComplete ch flush s) := by
  have ends (u : MvChan) (t : State) (wt : Since n t) :
      Since n (foldS (fun j t => jobDone ch j j.status t) u.flushing (modChan ch (fun u => { u with flushing := [] }) t)) :=
    since_foldS (by simp [wt]) (fun j t => jobDone_frame _ rfl ch j j.status t) _
  unfold execJobComplete
  dsimp only
  split
  · exact w
  · split
    · exact ends _ _ w
    · refine withRead_since w fun t wt => ?_
      split
      · exact ends _ _ (by simp [wt])
      · simp [wt]

theorem execMbxStage_since (f : Fn) (addr len : Nat) (image : HostRead) : SinceO n (execMbxStage f addr len image s) := by
  unfold execMbxStage
  split
  · exact w
  · split
    · simp [w]
    · refine withRead_since w fun t wt => ?_
      split <;> simp [wt]

theorem execNvmeTcpR2t_since (ctx wire off len : Nat) (host : HostRead) : SinceO n (execNvmeTcpR2t ctx wire off len host s) := by
  unfold execNvmeTcpR2t
  dsimp only
  split
  · exact w
  · split
    · refine withRead_since w fun t wt => ?_
      split <;> simp [wt]
    · split
      · refine withRead_since w fun t wt => ?_
        split <;> simp [wt]
      · simp [w]

/-! ### Every command, every step -/

/-- No command takes the clock back: those that bring it forward by the lemmas above, every other leaves it, as its frame says. -/
theorem exec_since (i : Instr) : SinceO n (exec i s) := by
  cases i with
  | porstDeassert | railGood | wakeAtReached | moderationTimer | timePageWrite | pauseRefresh | pauseTxStorm | shaperCredit | lossTmo | rateRecovery |
  refQualified | missedInterval | boundRecompute | ppsOutEdge | ppsOutFall | tracePeriodic | helloTimeout | screeSubwindow | repairRetest |
  autoCommit | mgtCarrierDrop =>
    simp [execPorstDeassert, execRailGood, execWakeAtReached, execModerationTimer, execTimePageWrite, execPauseRefresh, execPauseTxStorm,
      execShaperCredit, execLossTmo, execRateRecovery, execRefQualified, execMissedInterval, execBoundRecompute, execPpsOutEdge, execPpsOutFall,
      execTracePeriodic, execHelloTimeout, execScreeSubwindow, execRepairRetest, execAutoCommit, execMgtCarrierDrop, w]
  | drainLimitExpiry => rw [exec_drainLimitExpiry]; unfold execDrainLimitExpiry; split <;> simp [w]
  | completionTimeout => rw [exec_completionTimeout]; unfold execCompletionTimeout; split <;> simp [w]
  | quarantineEnd => rw [exec_quarantineEnd]; unfold execQuarantineEnd; split <;> simp [w]
  | pageRequestTimeout => rw [exec_pageRequestTimeout]; unfold execPageRequestTimeout; split <;> simp [w]
  | pauseHoldExpiry => rw [exec_pauseHoldExpiry]; unfold execPauseHoldExpiry; split <;> simp [w]
  | backoffExpiry => rw [exec_backoffExpiry]; unfold execBackoffExpiry; split <;> simp [w]
  | lockExpired => rw [exec_lockExpired]; unfold execLockExpired; split <;> simp [w]
  | frameTransmitted => rw [exec_frameTransmitted]; unfold execFrameTransmitted; split <;> simp [w]
  | gateListActive => rw [exec_gateListActive]; unfold execGateListActive; split <;> simp [w]
  | shutdownTimeout => rw [exec_shutdownTimeout]; unfold execShutdownTimeout; split <;> simp [w]
  | cmdTimeout => rw [exec_cmdTimeout]; unfold execCmdTimeout; split <;> simp [w]
  | leapApplied => rw [exec_leapApplied]; unfold execLeapApplied; split <;> simp [w]
  | mcRestart => rw [exec_mcRestart]; unfold execMcRestart; split <;> simp [w]
  | debugExpiry => rw [exec_debugExpiry]; unfold execDebugExpiry; split <;> simp [w]
  | activateReverted => rw [exec_activateReverted]; unfold execActivateReverted; split <;> simp [w]
  | pauseRxStorm => rw [exec_pauseRxStorm]; unfold execPauseRxStorm; dsimp only; (repeat' split) <;> simp [w]
  | fragEntryExpiry => rw [exec_fragEntryExpiry]; unfold execFragEntryExpiry; dsimp only; (repeat' split) <;> simp [w]
  | ageVisit => rw [exec_ageVisit]; unfold execAgeVisit; (repeat' split) <;> simp [w]
  | launchTimeReached => rw [exec_launchTimeReached]; unfold execLaunchTimeReached; (repeat' split) <;> simp [w]
  | gateEntryChange => rw [exec_gateEntryChange]; unfold execGateEntryChange; (repeat' split) <;> simp [w]
  | waitDeadline => rw [exec_waitDeadline]; unfold execWaitDeadline; dsimp only; (repeat' split) <;> simp [w]
  | todTxSentence => rw [exec_todTxSentence]; unfold execTodTxSentence; dsimp only; (repeat' split) <;> simp [w]
  | mgtFrameSent => rw [exec_mgtFrameSent]; unfold execMgtFrameSent; dsimp only; (repeat' split) <;> simp [w]
  | bootWaitExpiry => rw [exec_bootWaitExpiry]; unfold execBootWaitExpiry; (repeat' split) <;> simp [w]
  | sqEntryFetch => exact execSqEntryFetch_since w ..
  | staleRetry => exact execStaleRetry_since w ..
  | vfRestore => exact execVfRestore_since w ..
  | stormRecover => exact execStormRecover_since w ..
  | scheduleDecision => exact execScheduleDecision_since w ..
  | nvmeCommandFetch => exact execNvmeCommandFetch_since w ..
  | getLogPage => exact execGetLogPage_since w ..
  | identify => exact execIdentify_since w ..
  | datasetManagement => exact execDatasetManagement_since w ..
  | remoteAccess => exact execRemoteAccess_since w ..
  | jobComplete => exact execJobComplete_since w ..
  | mbxStage => exact execMbxStage_since w ..
  | nvmeTcpR2t => exact execNvmeTcpR2t_since w ..
  | migSlow => exact migSlow_since w _
  | domainStop => simp [execDomainStop, beginStop, w]
  | aonRailUp => simp [execAonRailUp, w]
  | nvmeFlush | nvmeWrite | nvmeRead | writeZeroes => exact nvIo_since w ..
  | copy | fill | gather | scatter | interleave | deinterleave | toPlanes | fromPlanes => exact mvWork_since w ..
  | nvmeCqDoorbell => exact sinceO_of_frame (execNvmeCqDoorbell_frame _ rfl ..) w
  | twait => exact sinceO_of_frame (execTwait_frame _ rfl ..) w
  | _ => exact sinceO_of_frame (by simp) w

theorem step_since : SinceO n (step s) := by
  unfold step
  split
  · next i rest _ => exact exec_since (s := { s with pending := rest }) w i
  · exact ticks_since w 1

end

/-- Settles O10: a step is the front command or a tick, and neither takes the clock back. -/
theorem timeNeverGoesBack : Obligations.TimeNeverGoesBack := by
  intro s t e
  have next := step_since (n := s.elapsed) (s := s) (Nat.le_refl _)
  rw [e] at next
  exact next

end Sys2Proof.Machine
end

section
/-!
SUPPORT. The rails, PORST_N and temperatures (R72 to R74, R83 to R86, R94, R95, R475): what each makes of the power record, and the statement O19.
-/
namespace Sys2Proof.Machine

/-! ### The pins that lose their supply or are held (R92) -/

theorem out_foldS_emit {α : Type} (o : α → Output) (l : List α) (s : State) :
    (foldS (fun a s => emit (o a) s) l s).out = (l.map o).reverse ++ s.out := by
  induction l generalizing s with
  | nil => rfl
  | cons a l ih =>
    rw [foldS, ih]
    simp

/-- Every digital output is released. -/
theorem mem_out_releasePins {s : State} {p : OutPin} (h : p ∈ digitalOutputs) : .pin p .z ∈ (releasePins s).out := by
  rw [releasePins, out_foldS_emit]
  simp [h]

@[simp] theorem releasePins_tim (s : State) : (releasePins s).tim = s.tim := tim_of_frame (releasePins_frame 4 rfl s) rfl

@[simp] theorem releasePins_pending (s : State) : (releasePins s).pending = s.pending := pending_of_frame (releasePins_frame 4 rfl s) rfl

/-! ### PORST_N (R29, R83, R94, R95) -/

/-- PORST_N rises on a device that is HELD: the power record is that of STANDBY with a wake pending, and time, lost with the reset, starts
again. -/
theorem porstDeassert_standby {straps : BitVec 8} {s : State} (held : s.cai.mode = .held) (low : s.cai.porstLow = true)
    (clock : s.cai.sysclk = true) :
    ∃ u, exec (.porstDeassert straps) s = .next (raise 0x0 0x07 (Mode.standby.code + 16 * Mode.held.code) .device u) ∧
      u.tim.servo = .freerun ∧ u.tim.bound = none ∧ u.cai.mode = .standby ∧ u.cai.prevMode = .held ∧ u.cai.straps = straps ∧
      u.cai.wakePending = true ∧ u.cai.porstLow = false := by
  rw [exec_porstDeassert, execPorstDeassert, if_neg (by simp [held, low])]
  dsimp only
  refine ⟨_, rfl, ?_⟩
  generalize e : emit (.pin .faultN .high) _ = u
  have lost : u.tim.lost = true := by simp [← e, powerReset]
  have sysclk : u.cai.sysclk = true := by simp [← e, powerReset, clock]
  have due : u.cai.fatalRestartAt = none := by simp [← e, powerReset]
  have low : u.cai.porstLow = false := by simp [← e]
  obtain ⟨mode, left⟩ : u.cai.mode = .standby ∧ u.cai.prevMode = .held ∧ u.cai.straps = straps ∧ u.cai.wakePending = true := by simp [← e]
  obtain ⟨servo, bound, -, cai⟩ := resumeTime_starts u lost (by simp [sysclk]) (by simp [mode]) low due
  simp [servo, bound, cai, mode, left, low]

/-! ### Main rails (R72, R73, R86) -/

/-- A main rail that leaves its range stops a device that runs (R73, R86, R95). -/
theorem railFault_stops {rail : Rail} {below10 : Bool} {s : State}
    (mode : s.cai.mode ∈ [Mode.bringup, .service, .spared, .pause, .drain, .isolated, .recovery]) :
    ∃ u, exec (.railFault ⟨rail, below10⟩) s = .next (raise 0x0 0x01 (railNo rail) .device
        (modCai (fun c => { c with railFault := true, wakePending := false, wakeCause := 1 }) u)) ∧ u.cai.mode = .standby := by
  simp only [exec_railFault, execRailFault]
  split
  · simp_all
  · simp_all
  · simp_all
  · exact ⟨_, rfl, faultStop_mode _ (by simpa [modRail] using mode)⟩

/-! ### Temperatures (R85) -/

/-- A reading 3 °C below WARN arms the warning again. -/
theorem takeReading_rearms {sensor : Nat} {v : Int} {s : State}
    (cool : (hottest (modCai (fun c => { c with temps := c.temps.set sensor v }) s)).1 ≤ warnAt s - 12) :
    takeReading sensor v s = modCai (fun c => { c with temps := s.cai.temps.set sensor v, warnArmed := true }) s := by
  unfold takeReading
  rw [if_neg (by omega), if_pos cool]
  rfl

/-! ### The obligation -/

/-- Settles O19, clause by clause: each command's case is reached, and the power record it leaves is read off. -/
theorem railsAndResetPins : Obligations.RailsAndResetPins := by
  refine ⟨?up, ?loss, ?assert, ?deassert, ?good, ?fault, ?order, ?warn, ?rearm, ?trip, ?recover⟩
  case up =>
    intro s off
    rw [exec_aonRailUp, execAonRailUp, if_neg (not_not_intro off)]
    exact ⟨_, rfl, rfl, rfl, rfl, rfl⟩
  case loss => exact fun s => ⟨_, rfl, rfl, rfl, by simp [powerReset], by simp [powerReset], by simp [powerReset]⟩
  case assert =>
    intro s on_
    rw [exec_porstAssert, execPorstAssert, if_neg on_]
    refine ⟨_, rfl, rfl, rfl, rfl, fun p h => ?_⟩
    simpa using mem_out_releasePins h
  case deassert =>
    intro straps s held low clock
    obtain ⟨u, e, left⟩ := porstDeassert_standby (straps := straps) held low clock
    refine ⟨_, e, ?_⟩
    simp [left]
  case good =>
    rintro rail s s1 bad rfl waits
    simp only [exec_railGood, execRailGood, bad]
    rw [if_neg (by simp), if_pos (by simpa using waits)]
  case fault =>
    intro rail below10 s mode
    obtain ⟨u, e, standby⟩ := railFault_stops (rail := rail) (below10 := below10) mode
    refine ⟨_, e, ?_⟩
    simp [standby]
  case order =>
    intro rail s stageC low runs
    simp only [exec_railOrder, execRailOrder]
    rw [if_neg (by simp [stageC, low, runs])]
    exact ⟨_, rfl, by simp, by simp, by simp⟩
  case warn =>
    intro sensor v s runs armed hot
    rw [exec_thermalWarn, execThermalWarn, if_pos runs, takeReading, if_pos ⟨hot, armed⟩]
    exact ⟨_, rfl, by simp, by simp, by simp⟩
  case rearm =>
    intro sensor v s runs cool
    rw [exec_thermalWarnRearm, execThermalWarnRearm, if_pos runs, takeReading_rearms cool]
  case trip =>
    intro sensor v s runs there hot first
    simp only [exec_thermalTrip, execThermalTrip, runs]
    rw [if_neg (by simp), if_neg (by simp [there, hot, first])]
    exact ⟨_, rfl, by simp, by simp, by simp⟩
  case recover =>
    rintro readings s s1 runs tripped rfl cool
    simp only [exec_thermalRecover, execThermalRecover, runs]
    rw [if_neg (by simp), if_pos ⟨tripped, cool⟩]

end Sys2Proof.Machine
end

section
/-!
SUPPORT. Clocks, wakes, MCTP and the TAP (R29, R76, R77, R81, R84, R89, R107): what each command makes of the state, and the statement O20.
-/
namespace Sys2Proof.Machine

/-! ### SYSCLK (R29, R76) -/

/-- Where time was not lost, the return of a clock starts nothing. -/
theorem resumeTime_running {s : State} (h : s.tim.lost = false) : resumeTime s = s := if_neg (by simp [h])

/-- The start of time changes nothing of the power record. -/
@[simp] theorem resumeTime_cai (s : State) : (resumeTime s).cai = s.cai := by
  unfold resumeTime
  split
  · obtain ⟨-, -, -, cai⟩ := beginTime_servo s
    exact cai
  · rfl

/-! ### Wakes (R81, R107) -/

/-- A wake source in STANDBY leaves a wake pending, with its cause. -/
theorem wakeRequest_wakes {s : State} (standby : s.cai.mode = .standby) :
    (wakeRequest s).cai.wakePending = true ∧ (wakeRequest s).cai.wakeCause = 6 := by
  unfold wakeRequest
  rw [if_neg (not_not_intro standby)]
  dsimp only
  split <;> simp [setWake, standby]

/-- A wake source changes no mode. -/
theorem wakeRequest_mode (s : State) : (wakeRequest s).cai.mode = s.cai.mode := by
  simp only [wakeRequest, setWake]
  (repeat' split) <;> simp

/-- In STANDBY, CAI_WAKE_AT is reached: it reads zero, and a wake is pending. -/
theorem wakeAtReached_wakes {s : State} (set_ : pair64 s .CAI_WAKE_AT_LO .CAI_WAKE_AT_HI 0 0 ≠ 0) (standby : s.cai.mode = .standby) :
    ∃ t, exec .wakeAtReached s = .next t ∧ reg t .CAI_WAKE_AT_LO 0 0 = 0 ∧ reg t .CAI_WAKE_AT_HI 0 0 = 0 ∧
      t.cai.wakePending = true ∧ t.cai.wakeCause = 6 := by
  simp only [exec_wakeAtReached, execWakeAtReached]
  rw [if_neg (by simp [set_, standby])]
  refine ⟨_, rfl, by simp [setPair64, w32], by simp [setPair64, w32], ?_⟩
  have wakes := wakeRequest_wakes (s := advanceTai (pair64 s .CAI_WAKE_AT_LO .CAI_WAKE_AT_HI 0 0) s) (by simpa using standby)
  simpa [setPair64] using wakes

/-! ### The obligation -/

/-- Settles O20, clause by clause: each command's case is reached, and what it leaves is read off. -/
theorem clocksAndWakes : Obligations.ClocksAndWakes := by
  refine ⟨?fault, ?faultBoth, ?return_, ?loss, ?lossUp, ?refclk, ?mctp, fun _ set_ standby => wakeAtReached_wakes set_ standby, ?idcode, ?hidden⟩
  case fault =>
    intro s on_ runs tosc
    simp only [exec_sysclkFault, execSysclkFault, on_, runs, tosc, Bool.not_true, Bool.false_eq_true, if_false, if_true]
  case faultBoth =>
    intro s on_ runs tosc
    simp only [exec_sysclkFault, execSysclkFault, on_, runs, tosc, Bool.not_true, Bool.false_eq_true, if_false]
  case return_ =>
    refine fun s => ⟨_, rfl, resumeTime_cai _, fun kept => ?_, fun lost on_ porst due => ?_⟩
    · rw [resumeTime_running (by simpa using kept)]
      rfl
    · obtain ⟨servo, bound, starts, -⟩ := resumeTime_starts (modCai (fun c => { c with sysclk := true }) s) lost (by simp) on_ porst due
      exact ⟨servo, bound, starts⟩
  case loss =>
    intro half s idle
    simp only [exec_pcieRefclkLoss, execPcieRefclkLoss]
    rw [if_neg]
    rintro ⟨used, lt, runs⟩
    rcases idle with h | h | h
    · simp [used] at h
    · omega
    · simp [runs] at h
  case lossUp =>
    intro half s used lt runs up
    simp only [exec_pcieRefclkLoss, execPcieRefclkLoss, up, if_true]
    rw [if_pos ⟨used, lt, runs⟩]
  case refclk => exact fun half s lt => if_pos lt
  case mctp =>
    intro body s runs
    rw [exec_mctpMessage, execMctpMessage, runs, if_neg (by simp)]
    refine ⟨_, rfl, by simp, fun standby => ?_, ?_⟩
    · simpa using wakeRequest_wakes standby
    · simpa using wakeRequest_mode s
  case idcode =>
    intro data s runs
    simp only [exec_tapInstruction, execTapInstruction, runs]
    exact ⟨_, rfl, by simp, by simp⟩
  case hidden =>
    intro c data s runs denied
    simp only [exec_tapInstruction, execTapInstruction, runs, denied 0, denied 1, denied 2, denied 3, Nat.reduceLT]
    exact ⟨_, rfl, by simp⟩

end Sys2Proof.Machine
end

section
/-!
SUPPORT. Configuration accesses and the requests that a function makes of the host: an equation for each case of an access, a grant, a completion, a
timer, a translation, a page request, PTM and DOE Abort (R54, R117, R124 to R148), and the statement O24.
-/
namespace Sys2Proof.Machine

/-! ### Configuration accesses (R100, R117, R120 to R128) -/

section
variable {f : Fn} {s : State}

theorem exec_configRead_answered (h : configAnswers s f = some true) (off : Nat) :
    exec (.configRead f off) s = .next (emit (.configData f off (some (cfgRead s f off))) s) := by
  rw [exec_configRead, execConfigRead, h]

theorem exec_configWrite_answered (h : configAnswers s f = some true) (off : Nat) (v : Word) :
    exec (.configWrite f off v) s = .next (configWrite f off v s) := by
  rw [exec_configWrite, execConfigWrite, h]

/-- No function answers: either access is rejected. -/
theorem exec_config_rejected (h : configAnswers s f = none) (off : Nat) (v : Word) :
    exec (.configRead f off) s = .next (configRejected f s) ∧ exec (.configWrite f off v) s = .next (configRejected f s) := by
  rw [exec_configRead, execConfigRead, exec_configWrite, execConfigWrite, h]
  exact ⟨rfl, rfl⟩

/-- A function that is not ready: Request Retry Status for either access. -/
theorem exec_config_retried (h : configAnswers s f = some false) (off : Nat) (v : Word) :
    exec (.configRead f off) s = .next (emit (.configData f off none) s) ∧
      exec (.configWrite f off v) s = .next (emit (.configData f off none) s) := by
  rw [exec_configRead, execConfigRead, exec_configWrite, execConfigWrite, h]
  exact ⟨rfl, rfl⟩

end

/-- A rejected access completes with Unsupported Request last. -/
theorem configRejected_out (f : Fn) (s : State) : (configRejected f s).out.head? = some (.unsupported f) := by
  unfold configRejected
  split <;> simp

/-- NumVFs, while no VF is enabled, takes at most TotalVFs (R128). -/
theorem configWrite_numVfs {i off : Nat} {s : State} (d : cfgDword (.pf i) off = 0x180 / 4) (none_ : vfEnabled s i = false) (v : Word) :
    configWrite (.pf i) off v s = cfgSet (.pf i) (0x180 / 4) (w32 (min (fld v 15 0) (totalVfs s i))) s := by
  simp [configWrite, d, isVf, fnPf, none_]

/-- Device Control, without Initiate FLR, takes its writable bits (R122, R141). -/
theorem configWrite_deviceControl {f : Fn} {off : Nat} {s : State} {v : Word} (d : cfgDword f off = 0x58 / 4) (flr : wbit v 15 = false) :
    configWrite f off v s = cfgSet f (0x58 / 4)
      (((cfgGet s f (0x58 / 4) &&& ~~~ cfgWritable s f (0x58 / 4)) ||| (v &&& cfgWritable s f (0x58 / 4))) &&& ~~~ (v &&& cfgW1c f (0x58 / 4))) s := by
  simp [configWrite, d, flr]

/-! ### Tags and completions (R131 to R135, R141) -/

/-- What a slot that is taken holds. -/
theorem takeSlot_slot {r : Req} {x : Slot} {slot : Nat} {s s1 : State} (h : takeSlot r s = some (slot, x, s1)) :
    x.req = r ∧ x.issued = s.elapsed ∧ x.timeout = timeoutOf s r.fn ∧ x.stream = (tlpFor s r.fn r.addr false).bind Tlp.stream := by
  unfold takeSlot at h
  dsimp only at h
  split at h
  · cases h
    exact ⟨rfl, rfl, rfl, rfl⟩
  · cases h

section
variable {which : Option Fn} {s s1 : State} {r : Req} {x : Slot} {t : Tlp} {slot : Nat} (first : s.hif.waiting.find? (grantable s which) = some r)
  (carries : tlpFor s r.fn r.addr false = some t) (taken : takeSlot r s = some (slot, x, s1))
include first carries taken

/-- The oldest request that may be issued is issued, at its own address where it is no read of an entry. -/
theorem exec_tagSlotGrant_other (use : r.use = .other) :
    exec (.tagSlotGrant which) s = .next (emit (.hostRead r.fn x.tag r.addr r.len { t with translated := false })
      (modHif (fun h => { h with waiting := dropFirst (· == r) h.waiting, slots := mput h.slots slot x }) s1)) := by
  simp only [exec_tagSlotGrant, execTagSlotGrant, first, taken, use, carries, Option.getD_some]

/-- A read of an entry is issued at the address that its translation gives. -/
theorem exec_tagSlotGrant_work {q c i : Nat} (use : r.use = .work q c i) :
    exec (.tagSlotGrant which) s =
      .next (emit (.hostRead r.fn x.tag (translatedAddr s r.fn (qPasid (queue s r.fn q)) r.addr).1 r.len
          { t with translated := (translatedAddr s r.fn (qPasid (queue s r.fn q)) r.addr).2 })
        (modHif (fun h => { h with waiting := dropFirst (· == r) h.waiting, slots := mput h.slots slot x }) s1)) := by
  simp only [exec_tagSlotGrant, execTagSlotGrant, first, taken, use, carries, Option.getD_some]

end

section
variable {f : Fn} {tag n : Nat} {x : Slot} {s : State}
  (held : s.hif.slots.find? (fun e => e.2.req.fn == f && e.2.tag == tag && e.2.st != .quarantined) = some (n, x)) (st : x.st = .outstanding)
include held st

/-- The last completion of a request delivers its data and frees the slot. -/
theorem exec_hostCompletion_last (bs : Bytes) :
    exec (.hostCompletion f tag (.data bs) true) s = .next (deliver x.req (.data (x.got ++ bs)) (setSlot n none s)) := by
  simp only [exec_hostCompletion, execHostCompletion, held, st, if_true]

/-- An earlier one adds to the data that the slot holds. -/
theorem exec_hostCompletion_more (bs : Bytes) :
    exec (.hostCompletion f tag (.data bs) false) s = .next (setSlot n (some { x with got := x.got ++ bs }) s) := by
  simp only [exec_hostCompletion, execHostCompletion, held, st, Bool.false_eq_true, if_false]

end

/-- A completion that matches no request. -/
theorem exec_hostCompletion_unexpected {f : Fn} {tag : Nat} {s : State}
    (none_ : s.hif.slots.find? (fun e => e.2.req.fn == f && e.2.tag == tag && e.2.st != .quarantined) = none) (status : HostRead) (last : Bool) :
    exec (.hostCompletion f tag status last) s = .next (unexpected f s) := by
  simp only [exec_hostCompletion, execHostCompletion, none_]

section
variable {slot : Nat} {x : Slot} {s : State} (held : mfind s.hif.slots slot = some x)
include held

/-- A request's timer expires: the slot and the tag are quarantined, and the request ends with a timeout. -/
theorem exec_completionTimeout_expires (st : x.st = .outstanding) :
    exec (.completionTimeout slot) s = .next (timedOut x.req.fn (deliver x.req .timeout (setSlot slot (some { x with
      st := .quarantined, quarantineEnd := (advanceTo (x.issued + x.timeout) s).elapsed + 2 * x.timeout, got := [] })
        (advanceTo (x.issued + x.timeout) s)))) := by
  simp [exec_completionTimeout, execCompletionTimeout, held, st]

/-- A quarantine ends: the slot is free. -/
theorem exec_quarantineEnd_frees (st : x.st = .quarantined) :
    exec (.quarantineEnd slot) s = .next (setSlot slot none (advanceTo x.quarantineEnd s)) := by
  simp only [exec_quarantineEnd, execQuarantineEnd, held, st, if_true]

end

/-! ### Translations (R143) -/

/-- A request for translations leaves those that the cache holds, and sends nothing yet. -/
theorem askTranslations_keeps (f : Fn) (q ctr : Nat) (pages : List Nat) (s : State) :
    (askTranslations f q ctr pages s).out = s.out ∧ (askTranslations f q ctr pages s).hif.ats = s.hif.ats := by
  unfold askTranslations
  dsimp only
  split <;> exact ⟨rfl, rfl⟩

/-- What each of a fold's operations leaves, the fold leaves. -/
theorem foldS_keeps {α β : Type} (p : State → β) {g : α → State → State} (h : ∀ a t, p (g a t) = p t) (l : List α) (s : State) :
    p (foldS g l s) = p s := by
  induction l generalizing s with
  | nil => rfl
  | cons a l ih => rw [foldS, ih, h]

/-- An invalidation takes the translations of its pages from the cache and answers; the reads that wait ask for theirs anew. -/
theorem exec_atsInvalidation_drops (f : Fn) (pasid : Option Nat) (page count : Nat) (s : State) :
    ∃ t, exec (.atsInvalidation f pasid page count) s = .next (emit (.atsDone f) t) ∧ t.out = s.out ∧
      t.hif.ats = s.hif.ats.filter (fun e => !(e.fn == f && e.pasid == pasid && decide (page ≤ e.page ∧ e.page < page + count))) := by
  refine ⟨_, rfl, ?_⟩
  rw [← Prod.mk.injEq]
  refine (foldS_keeps (fun t => (t.out, t.hif.ats)) (fun r t => ?_) _ _).trans rfl
  split
  · next q c i use =>
    obtain ⟨out, ats⟩ := askTranslations_keeps f q c ((pagesOf r.addr r.len).filter fun p => decide (page ≤ p ∧ p < page + count)) t
    split
    · exact Prod.ext out ats
    · rfl
  · rfl

/-! ### Page requests (R144) -/

theorem exec_pageRequest_sends {f : Fn} {q page : Nat} {w : Work} {s : State} (refused : refusedWork s f q = some (w, page))
    (room : (fnSt s (.pf (fnPf f))).pageRequests.length < (cfgGet s (.pf (fnPf f)) (0x1EC / 4)).toNat) :
    exec (.pageRequest f q) s = .next (emit (.pageRequest f (page * 4096))
      (modFn (.pf (fnPf f)) (fun r => { r with pageRequests := r.pageRequests ++ [{ fn := f, sq := q, ctr := w.ctr.toNat, page := page, sent := s.elapsed }] })
        (modWork f q w.ctr (fun w => { w with noAccess := w.noAccess.drop 1 }) s))) := by
  simp only [exec_pageRequest, execPageRequest, refused, if_pos room]

/-- A Page Request whose entry still waits has been answered, or has not. -/
theorem pageAnswered_waiting {r : PageReq} {w : Work} {s s1 : State}
    (freed : s1 = modFn (.pf (fnPf r.fn)) (fun x => { x with pageRequests := dropFirst (· == r) x.pageRequests }) s)
    (work : workOf s1 r.fn r.sq (BitVec.ofNat 16 r.ctr) = some w) (waits : w.done = none) (success failure : Bool) :
    pageAnswered r success failure s =
      if success then modHif (fun h => { h with waiting :=
        { fn := r.fn, use := .translate r.sq r.ctr r.page, addr := r.page * 4096, len := 8 } :: h.waiting }) s1
      else if failure then raise 0x2 0x0B (fnCode r.fn) (.function (.pf (fnPf r.fn))) (translationFails r.fn r.sq r.ctr 0x03 s1)
      else translationFails r.fn r.sq r.ctr 0x03 s1 := by
  subst freed
  simp [pageAnswered, work, waits]

theorem exec_prgResponse_open {f : Fn} {q : Nat} {r : PageReq} {s : State} (open_ : openPageReq s f q = some r) (answer : PrgAnswer) :
    exec (.prgResponse f q answer) s = .next (pageAnswered r (answer == .success) (answer == .responseFailure) s) := by
  simp only [exec_prgResponse, execPrgResponse, open_]

theorem exec_pageRequestTimeout_open {f : Fn} {q : Nat} {r : PageReq} {s : State} (open_ : openPageReq s f q = some r) :
    exec (.pageRequestTimeout f q) s = .next (pageAnswered r false true (advanceTo (r.sent + 1000000000) s)) := by
  simp only [exec_pageRequestTimeout, execPageRequestTimeout, open_]

/-! ### PTM and DOE Abort (R54, R147, R148) -/

theorem exec_ptmRequest_answers {half : Nat} {s : State} (used : halfInUse s half = true) (up : (halfSt s half).up = true)
    (enabled : wbit (cfgGet s (.pf (pf0Of half)) (0x1F8 / 4)) 0 = true) : exec (.ptmRequest half) s = .next (emit (.ptm half (now s)) s) := by
  simp only [exec_ptmRequest, execPtmRequest]
  rw [if_neg (by simp [used, up]), if_pos enabled]

/-! ### The obligation -/

/-- Settles O24, clause by clause, by the equations above. -/
theorem configAndRequests : Obligations.ConfigAndRequests := by
  refine ⟨fun f off s h => exec_configRead_answered h off, ?unanswered, ?numVfs, ?control, ?grant, ?grantWork, ?completion, ?unexpected, ?timeout,
    ?quarantine, fun f s => rfl, ?invalidation, fun f q page w s refused room => exec_pageRequest_sends refused room, ?response, ?pageTimeout,
    fun half s used up enabled => exec_ptmRequest_answers used up enabled, ?doe⟩
  case unanswered =>
    intro f off v s
    refine ⟨fun h => ?_, fun h => exec_config_retried h off v⟩
    obtain ⟨read, write⟩ := exec_config_rejected h off v
    exact ⟨read, write, configRejected_out f s⟩
  case numVfs =>
    intro i off v s answers d none_
    rw [exec_configWrite_answered answers, configWrite_numVfs d none_]
  case control =>
    rintro f off v _ _ s answers d flr rfl rfl
    rw [exec_configWrite_answered answers, configWrite_deviceControl d flr]
  case grant =>
    intro which s s1 r x t slot first use carries taken
    obtain ⟨req, issued, timeout, stream⟩ := takeSlot_slot taken
    exact ⟨exec_tagSlotGrant_other first carries taken use, req, issued, timeout, by rw [stream, carries]; rfl⟩
  case grantWork =>
    rintro which s s1 r x t slot q c i first use carries taken _ rfl
    exact exec_tagSlotGrant_work first carries taken use
  case completion =>
    exact fun f tag n x bs s held st => ⟨exec_hostCompletion_last held st bs, exec_hostCompletion_more held st bs⟩
  case unexpected => exact fun f tag status last s none_ => exec_hostCompletion_unexpected none_ status last
  case timeout =>
    rintro slot x s _ held st rfl
    exact exec_completionTimeout_expires held st
  case quarantine =>
    intro slot x s held st
    exact ⟨_, exec_quarantineEnd_frees held st, mfind_mdel_same _ _, elapsed_advanceTo _ _⟩
  case invalidation =>
    intro f pasid page count s
    obtain ⟨t, e, out, ats⟩ := exec_atsInvalidation_drops f pasid page count s
    refine ⟨_, e, congrArg (_ :: ·) out, fun x => ?_⟩
    have there : x ∈ (emit (.atsDone f) t).hif.ats ↔ x ∈ t.hif.ats := Iff.rfl
    rw [there, ats, List.mem_filter]
    simp only [Bool.not_eq_true', ← Bool.not_eq_true, Bool.and_eq_true, beq_iff_eq, decide_eq_true_eq, and_assoc]
  case response =>
    rintro f q r w s _ s1 open_ rfl freed work waits
    simp only [exec_prgResponse_open open_, pageAnswered_waiting freed work waits]
    exact ⟨rfl, rfl, rfl⟩
  case pageTimeout =>
    rintro f q r w s _ s1 open_ rfl freed work waits
    rw [exec_pageRequestTimeout_open open_, pageAnswered_waiting freed work waits]
    rfl
  case doe =>
    intro half s there
    have aborted : (doeAbort half s).hif.doe[half]? = some { s.hif.doe[half] with error := false, ready := false, answer := [] } := by
      simp [doeAbort, modHif, there]
    exact ⟨_, _, rfl, aborted, rfl, rfl, rfl⟩

end Sys2Proof.Machine
end

section
/-!
SUPPORT. The servo, its clocks and the bound: what a write of a TIM register is, an equation for each case of a manual commit, of REACQUIRE, of the
alarm and of the oscillator, and what the bound and a snapshot read after them (R37, R43, R47, R53, R62, R65, R477), and the statement O17.
-/
namespace Sys2Proof.Machine

/-! ### Writes of the registers of TIM (R65): TIM is never gated -/

section
variable {p : Path} {r : Reg} {off : Nat} {s : State} (acts : actsAt p off s = true)
include acts

theorem exec_manualCommit_acts (place : regBar p .TIM_MANUAL_COMMIT 0 = some off) : exec (.manualCommit p) s = .next (manualCommit (asPath p) s) :=
  congrArg Host.Outcome.next (writeOf_cairn 1 rfl rfl (by decide) place (by decide) acts)

theorem exec_reacquire_acts (place : regBar p .TIM_CTRL 0 = some off) : exec (.reacquire p) s = .next (reacquire (asPath p) s) :=
  congrArg Host.Outcome.next (writeOf_cairn 1 rfl rfl (by decide) place (by decide) acts)

theorem exec_boundAlarmWrite_acts (v : Word) (place : regBar p .TIM_BOUND_ALARM 0 = some off) :
    exec (.boundAlarmWrite p v) s = .next (boundAlarmWrite (asPath p) v s) :=
  congrArg Host.Outcome.next (writeOf_cairn v rfl rfl (by decide) place (by decide) acts)

theorem exec_timSnap_acts (place : regBar p .TIM_SNAP 0 = some off) : exec (.timSnap p) s = .next (timSnap (asPath p) s) :=
  congrArg Host.Outcome.next (writeOf_cairn 1 rfl rfl (by decide) place (by decide) acts)

end

/-! ### Manual commits and REACQUIRE (R37, R43) -/

section
variable {p : Path} {s : State}

theorem manualCommit_steps (may : mayWrite s p .TIM_MANUAL_COMMIT = true) (runs : timeRuns s = true) (free : s.tim.servo ≠ .locked) :
    manualCommit p s = enterHoldover (some ((reg s .TIM_MANUAL_BOUND 0 0).toNat * nsUnits))
      (modTim (fun u => { u with refId := 0x15 }) (stepTime (pair64 s .TIM_MANUAL_TIME_LO .TIM_MANUAL_TIME_HI 0 0 * 2 ^ 48) s)) := by
  rw [manualCommit, if_neg (by simp [may, runs]), if_neg free]

theorem manualCommit_refused (may : mayWrite s p .TIM_MANUAL_COMMIT = true) (runs : timeRuns s = true) (locked : s.tim.servo = .locked) :
    manualCommit p s = hwSet .TIM_STATUS 0 0 6 s := by
  rw [manualCommit, if_neg (by simp [may, runs]), if_pos locked]

theorem reacquire_acquires (may : mayWrite s p .TIM_CTRL = true) (held : s.tim.servo = .locked ∨ s.tim.servo = .holdover) :
    reacquire p s = setServo .acquiring (modTim (fun t => { t with lockRun := 0, reacquired := true }) s) :=
  if_pos (by simpa [may] using held)

/-! ### The bound and its alarm (R47, R477) -/

theorem boundAlarmWrite_below {v : Word} (may : mayWrite s p .TIM_BOUND_ALARM = true) (below : aboveAlarm v.toNat (boundNow s) = false) :
    boundAlarmWrite p v s = setReg .TIM_BOUND_ALARM 0 0 v s := by
  simp [boundAlarmWrite, may, below]

theorem boundAlarmWrite_crossed {v : Word} (may : mayWrite s p .TIM_BOUND_ALARM = true) (above : aboveAlarm v.toNat (boundNow s) = true) :
    boundAlarmWrite p v s = boundAlarm (setReg .TIM_BOUND_ALARM 0 0 v s) := by
  simp [boundAlarmWrite, may, above]

end

/-- An update of the page lines leaves the bound. -/
theorem pageRise_bound (b : Nat) (s : State) : (pageRise b s).tim.bound = s.tim.bound := rfl

theorem boundAlarm_bound (s : State) : (boundAlarm s).tim.bound = s.tim.bound := by
  obtain ⟨-, first, -⟩ := settlePin_servo 0 (raise 0xD 0x06 0 .device (hwSet .TIM_STATUS 0 0 1 s))
  obtain ⟨-, both, -⟩ := settlePin_servo 1 (settlePin 0 (raise 0xD 0x06 0 .device (hwSet .TIM_STATUS 0 0 1 s)))
  rw [boundAlarm, settlePins, both, first]
  simp

/-- The bound takes the value that it is set to, whether or not it crosses the alarm limit. -/
theorem setBound_bound (b : Option Nat) (s : State) : (setBound b s).tim.bound = b := by
  unfold setBound
  dsimp only
  split
  · next same => exact same.symm
  · cases b with
    | none => split <;> simp [boundAlarm_bound]
    | some v => split <;> simp [boundAlarm_bound, pageRise_bound]

theorem exec_boundRecompute_refreshes {s : State} (runs : timeRuns s = true) :
    exec .boundRecompute s = .next (recompute (advanceTo (s.tim.bGrowAt + 256) s)) := if_pos runs

theorem recompute_bound (s : State) : (recompute s).tim.bound = modelNext (growNow (reselectIfDue s)) := setBound_bound _ _

theorem recompute_elapsed (s : State) : (recompute s).elapsed = s.elapsed := elapsed_of_frame (recompute_frame 67108861 rfl s) rfl

/-! ### The oscillator (R29, R53) -/

section
variable {s : State} (ran : s.tim.tosc = true)
include ran

/-- TIM changes over to SYSCLK_IN: in LOCKED it enters HOLDOVER. -/
theorem exec_oscFault_locked (clock : s.cai.sysclk = true) (locked : s.tim.servo = .locked) :
    exec .oscFault s = .next (trace 2 (enterHoldover (modelNow s)
      (raise 0xD 0x07 0 .device (modTim (fun t => { t with tosc := false, oscFault := true }) (growNow s))))) := by
  simp only [exec_oscFault, execOscFault, ran, clock, locked, Bool.not_true, Bool.false_eq_true, if_false, if_true]

/-- In any other state the bound goes on with the growth of SYSCLK_IN. -/
theorem exec_oscFault_unlocked (clock : s.cai.sysclk = true) (free : s.tim.servo ≠ .locked) :
    exec .oscFault s = .next
      (let u := raise 0xD 0x07 0 .device (modTim (fun t => { t with tosc := false, oscFault := true }) (growNow s))
       trace 2 (setBound (modelNext u) (modTim (fun t => { t with lockRun := 0 }) u))) := by
  simp only [exec_oscFault, execOscFault, ran, clock, if_neg free, Bool.not_true, Bool.false_eq_true, if_false]

/-- With both clocks stopped time is lost. -/
theorem exec_oscFault_loses (stopped : s.cai.sysclk = false) :
    exec .oscFault s = .next (discardTime
      (raise 0xD 0x07 0 .device (modTim (fun t => { t with tosc := false, oscFault := true }) (growNow s)))) := by
  simp only [exec_oscFault, execOscFault, ran, stopped, Bool.not_true, Bool.not_false, Bool.false_eq_true, if_false, if_true]

end

theorem exec_oscReturn_returns {s : State} (gone : s.tim.tosc = false) (fitted : bits s.cai.straps.toNat 1 0 ≠ 3) :
    exec .oscReturn s = .next
      (let u := modTim (fun t => { t with tosc := true, oscFault := false, lockRun := 0 }) (growNow s)
       if s.tim.lost then resumeTime u else trace 2 (setBound (modelNext u) u)) := by
  simp only [exec_oscReturn, execOscReturn, gone]
  rw [if_neg (by simpa using fitted)]
  split <;> rfl

/-! ### Traces and snapshots (R62, R65) -/

theorem exec_tracePeriodic_appends {s : State} (runs : timeRuns s = true) :
    exec .tracePeriodic s = .next
      (let u := advanceTo (s.tim.periodicAt + max 1 (dfld s .TIM_TRACE_CFG 15 0) * 1000000000) s
       trace 1 (modTim (fun t => { t with periodicAt := u.elapsed }) u)) := if_pos runs

/-- A snapshot holds the time and the bound for the path that takes it. -/
theorem timSnap_regs {p : Path} {s : State} (may : mayWrite s p .TIM_SNAP = true) :
    reg (timSnap p s) .TIM_SNAP_BOUND 0 (pathCode p) = w32 (bound32 s) ∧
      reg (timSnap p s) .TIM_SNAP_NS 0 (pathCode p) = w32 (nowFrac s / 0x10000 % 1000000000) ∧
      reg (timSnap p s) .TIM_SNAP_SEC_LO 0 (pathCode p) = w32 (nowFrac s / 0x10000 / 1000000000) := by
  rw [timSnap, if_neg (by simp [may])]
  simp

/-! ### The obligation -/

/-- Settles O17, clause by clause, by the equations above. -/
theorem timeServoAndBound : Obligations.TimeServoAndBound := by
  refine ⟨fun p off s place acts may runs free => ?_, fun p off s place acts may runs locked => ?_, fun p off s place acts may held => ?_,
    ?recompute, fun p off v s place acts may below => ?_, fun p off v s place acts may above => ?_, ?unlocked, ?lost,
    fun s ran clock locked => exec_oscFault_locked ran clock locked, ?returns, ?trace, ?snap⟩
  · rw [exec_manualCommit_acts acts place, manualCommit_steps may runs free]
  · rw [exec_manualCommit_acts acts place, manualCommit_refused may runs locked]
  · rw [exec_reacquire_acts acts place, reacquire_acquires may held]
  case recompute =>
    rintro s _ runs rfl
    refine ⟨_, exec_boundRecompute_refreshes runs, recompute_bound _, ?_⟩
    rw [recompute_elapsed, elapsed_advanceTo]
  · rw [exec_boundAlarmWrite_acts acts v place, boundAlarmWrite_below may below]
  · rw [exec_boundAlarmWrite_acts acts v place, boundAlarmWrite_crossed may above, boundAlarm]
  case unlocked =>
    rintro s ran clock free _ rfl
    exact exec_oscFault_unlocked ran clock free
  case lost => exact fun s ran stopped => ⟨_, exec_oscFault_loses ran stopped, rfl, rfl, rfl, by simp [discardTime]⟩
  case returns =>
    rintro s _ gone fitted rfl
    exact exec_oscReturn_returns gone fitted
  case trace =>
    rintro s _ runs rfl
    exact exec_tracePeriodic_appends runs
  case snap => exact fun p off s place acts may => ⟨_, exec_timSnap_acts acts place, timSnap_regs may⟩

end Sys2Proof.Machine
end

section
/-!
SUPPORT. References: what an accepted measurement leaves of its slot, an equation for each case of a pulse, of a sentence and of a slot that
qualifies, misses an interval or is enabled (R32 to R35, R38, R39, R65), and the statement O16.
-/
namespace Sys2Proof.Machine

/-! ### The records of slots (R30) -/

@[simp] theorem slotOf_modSlot_same (id : Nat) (g : RefSlot → RefSlot) (s : State) : slotOf (modSlot id g s) id = g (slotOf s id) :=
  mget_mmod_same _ _ _ _

/-- A slot's record rests on the time unit's alone. -/
theorem slotOf_congr {s t : State} (h : t.tim.slots = s.tim.slots) (id : Nat) : slotOf t id = slotOf s id := by
  rw [slotOf, slotOf, h]

theorem slotOf_modTim {g : Tim → Tim} {s : State} (keeps : (g s.tim).slots = s.tim.slots) (id : Nat) : slotOf (modTim g s) id = slotOf s id :=
  slotOf_congr keeps id

@[simp] theorem modSlot_measCount (id : Nat) (g : RefSlot → RefSlot) (s : State) : (modSlot id g s).tim.measCount = s.tim.measCount := rfl
@[simp] theorem modSlot_selected (id : Nat) (g : RefSlot → RefSlot) (s : State) : (modSlot id g s).tim.selected = s.tim.selected := rfl

@[simp] theorem slotOf_setReg (r : Reg) (i h : Nat) (v : Word) (s : State) (id : Nat) : slotOf (setReg r i h v s) id = slotOf s id :=
  slotOf_congr (by simp) id

@[simp] theorem slotOf_bump (r : Reg) (i h n : Nat) (s : State) (id : Nat) : slotOf (bump r i h n s) id = slotOf s id :=
  slotOf_congr (by simp) id

@[simp] theorem slotOf_advanceTo (t : Nat) (s : State) (id : Nat) : slotOf (advanceTo t s) id = slotOf s id := by
  refine slotOf_congr ?_ id
  unfold advanceTo ticks
  dsimp only
  split <;> rfl

/-! ### Measurements (R33, R38) -/

/-- A measurement of an enabled slot that is not selected, in FREERUN or ACQUIRING, is accepted: it is its slot's last, and one more. -/
theorem judgeMeasurement_accepts {id : Nat} {theta : Int} {m : MeasInfo} {s : State} (enabled : (slotOf s id).st ≠ .disabled)
    (free : s.tim.servo = .freerun ∨ s.tim.servo = .acquiring) (other : s.tim.selected ≠ some id) :
    (slotOf (judgeMeasurement id theta m s) id).lastTheta = theta ∧ (slotOf (judgeMeasurement id theta m s) id).missRun = 0 ∧
      (slotOf (judgeMeasurement id theta m s) id).lastAccepted = s.elapsed ∧
      (judgeMeasurement id theta m s).tim.measCount = s.tim.measCount + 1 ∧ (judgeMeasurement id theta m s).tim.selected = s.tim.selected := by
  have lax : (s.tim.servo == .locked || s.tim.servo == .holdover) = false := by rcases free with h | h <;> rw [h] <;> rfl
  unfold judgeMeasurement
  dsimp only
  rw [if_neg enabled, lax, Bool.not_false, Bool.true_or, if_neg (by simp), if_neg (by simpa using other)]
  simp [slotOf_modTim]

theorem measure_runs {s : State} (runs : timeRuns s = true) (id : Nat) (theta : Int) (m : MeasInfo) :
    measure id theta m s = judgeMeasurement id theta m (reselectIfDue s) := if_pos runs

/-- A pending leap that changes leaves the slots and the measurements counted. -/
theorem setLeap_keeps (l : Option Leap) (s : State) :
    (setLeap l s).tim.slots = s.tim.slots ∧ (setLeap l s).tim.measCount = s.tim.measCount := by
  unfold setLeap
  split
  · exact ⟨rfl, rfl⟩
  · simp [forcePages, setPair64]

/-- A source that announces no leap withdraws its own at most. -/
theorem announceLeap_none_keeps (src : LeapSrc) (s : State) :
    (announceLeap src .none s).tim.slots = s.tim.slots ∧ (announceLeap src .none s).tim.measCount = s.tim.measCount := by
  simp only [announceLeap]
  split
  · exact setLeap_keeps none s
  · exact ⟨rfl, rfl⟩

/-- The Announce data of a slot that is not selected change its own UTC and leap, and withdraw a leap that it had announced. -/
theorem ptpUtc_keeps {slot : Nat} {s : State} (m : PtpMeasurement) (other : s.tim.selected ≠ some slot) :
    (slotOf (ptpUtc slot m s) slot).lastTheta = (slotOf s slot).lastTheta ∧ (slotOf (ptpUtc slot m s) slot).missRun = (slotOf s slot).missRun ∧
      (slotOf (ptpUtc slot m s) slot).lastAccepted = (slotOf s slot).lastAccepted ∧ (ptpUtc slot m s).tim.measCount = s.tim.measCount := by
  have noted (g : RefSlot → RefSlot) (u : State) (e : u.tim.slots = (modSlot slot g s).tim.slots) : slotOf u slot = g (slotOf s slot) :=
    (slotOf_congr e slot).trans (slotOf_modSlot_same ..)
  unfold ptpUtc
  dsimp only
  rw [if_neg other]
  generalize (if m.leap61 = true then Announce.month true else if m.leap59 = true then Announce.month false else Announce.none) = a
  by_cases withdraws : a = .none
  · rw [if_pos withdraws]
    obtain ⟨slots, count⟩ := announceLeap_none_keeps (.slot slot)
      (modSlot slot (fun r => { r with utc := if m.utcValid then some m.utcOffset else none, announce := a }) s)
    rw [noted _ _ slots, count]
    exact ⟨rfl, rfl, rfl, rfl⟩
  · rw [if_neg withdraws, noted _ _ rfl]
    exact ⟨rfl, rfl, rfl, rfl⟩

theorem exec_ptpMeasurement_measures {slot : Nat} {m : PtpMeasurement} {s : State} (low : 1 ≤ slot) (high : slot ≤ 0x10)
    (enabled : (slotOf s slot).st ≠ .disabled) (fresh : (nowFrac s : Int) - m.t2 ≤ (100000000 * 0x10000 : Nat)) :
    exec (.ptpMeasurement slot m) s = .next (ptpUtc slot m (measure slot (ptpTheta s slot m).1
      { mpd := (ptpTheta s slot m).2.natAbs, interval := m.interval * 0x10000, sourceId := m.grandmaster, hops := m.stepsRemoved } s)) := by
  rw [exec_ptpMeasurement, execPtpMeasurement, if_neg]
  rintro (h | h | h | h)
  · omega
  · omega
  · exact enabled h
  · omega

/-! ### Pulses (R34) -/

/-- The time at which a pulse was seen, with its slot's correction, in units of 2^-16 ns. -/
def pulseTime (s : State) (pin : Nat) : Nat := ((nowFrac s : Int) + signed 32 (reg s .TIM_REF_CORRECTION (0x10 + pin) 0).toNat * 256).toNat

/-- The second that a time is nearest to. -/
def nearestSecond (t : Nat) : Nat := (t + 500000000 * 0x10000) / (1000000000 * 0x10000)

/-- An edge of the configured polarity, long enough and apart from the one before, is judged against the window round its second. -/
theorem exec_ppsEdge_judged {pin held : Nat} {rising : Bool} {s : State} (pins : pin < 2) (runs : timeRuns s = true) (long : 100 ≤ held)
    (apart : ∀ t, (s.tim.ppsIn.getD pin {}).changedAt = some t → t + 100 ≤ s.elapsed)
    (enabled : (slotOf s (0x11 + pin)).st ≠ .disabled) (polarity : rising ≠ wbit (reg s .TIM_PPS_IN_CFG pin 0) 0) :
    exec (.ppsEdge pin ⟨rising, held⟩) s =
      let u := modPpsIn pin (fun u => { u with changedAt := some s.elapsed }) s
      let sec := nearestSecond (pulseTime s pin)
      if ppsWindow u < ((sec * 1000000000 * 0x10000 : Nat) - (pulseTime s pin : Int)).natAbs ∨ (s.tim.ppsIn.getD pin {}).usedSecond = some sec then
        .next (raise 0xD 0x0A 0 .device u) else .next (useEdge pin sec (pulseTime s pin) u) := by
  rw [exec_ppsEdge, execPpsEdge]
  dsimp only
  rw [if_neg (by simp [runs]; omega), if_neg]
  · rfl
  · rintro (short | off_ | same)
    · rcases Bool.or_eq_true_iff.mp short with h | h
      · exact absurd (of_decide_eq_true h) (by omega)
      · split at h
        · next t e => exact absurd (of_decide_eq_true h) (by have := apart t e; omega)
        · exact Bool.false_ne_true h
    · exact enabled off_
    · exact polarity same

/-- A pulse that no sentence labels measures its slot's phase. -/
theorem useEdge_measures {pin sec edge : Nat} {s : State} (phase : ppsNmea s pin = false) (runs : timeRuns s = true) :
    useEdge pin sec edge s = judgeMeasurement (0x11 + pin) ((sec * 1000000000 * 0x10000 : Nat) - (edge : Int)) {} (reselectIfDue
      (modPpsIn pin (fun u => { u with usedSecond := some sec, edge := edge, edgeAt := some s.elapsed, nextLabel := none }) s)) := by
  simp only [useEdge, phase, Bool.not_false, if_true, ppsMeasure]
  exact if_pos runs

/-! ### Sentences (R35) -/

section
variable {n : Nmea} {pin at_ : Nat} {s : State} (labels : nmeaPin s = some pin) (runs : timeRuns s = true)
  (kind : n.rmc = decide (dfld s .TIM_TOD_CFG 25 25 = 1)) (before : dfld s .TIM_TOD_CFG 26 26 = 0) (sum : n.checksumOk = true)
  (valid : n.rmc = true → n.statusA = true) (pulse : (s.tim.ppsIn.getD pin {}).edgeAt = some at_) (early : at_ + 10000000 ≤ s.elapsed)
  (late : s.elapsed ≤ at_ + 950000000)
include labels runs kind before sum valid pulse early late

/-- A sentence of the selected kind, with LABEL 0 and in time, is judged as the label of the pulse before it. -/
theorem exec_nmeaSentence_labels :
    exec (.nmeaSentence n) s = .next (labelPulse pin (nmeaUtc n) true (s.tim.ppsIn.getD pin {}).edge s) := by
  simp only [exec_nmeaSentence, execNmeaSentence, labels, pulse]
  rw [if_neg (by simp [runs, kind]), if_neg (by simpa [sum] using valid), if_neg (by simp [before]), decide_eq_true ⟨early, late⟩]

end

section
variable {pin utc edge : Nat} {s : State}

/-- The label is the next second, and near where the servo holds the time. -/
theorem labelPulse_measures (next : ∀ l, (s.tim.ppsIn.getD pin {}).lastLabel = some l → ((utc : Int) + s.tim.utcOffset).toNat = l + 1)
    (near : s.tim.servo = .locked ∨ s.tim.servo = .holdover →
      ((((utc : Int) + s.tim.utcOffset).toNat * 1000000000 * 0x10000 : Nat) - (edge : Int)).natAbs ≤ ppsWindow s) :
    labelPulse pin utc true edge s = measure (0x11 + pin) ((((utc : Int) + s.tim.utcOffset).toNat * 1000000000 * 0x10000 : Nat) - (edge : Int)) {}
      (modPpsIn pin (fun u => { u with lastLabel := some ((utc : Int) + s.tim.utcOffset).toNat }) s) := by
  have order : labelInOrder (s.tim.ppsIn.getD pin {}) ((utc : Int) + s.tim.utcOffset).toNat = true := by
    unfold labelInOrder
    split
    · next l e => exact decide_eq_true (next l e)
    · rfl
  have close : labelNear s ((utc : Int) + s.tim.utcOffset).toNat edge = true := by
    simp only [labelNear, Bool.or_eq_true, Bool.not_eq_true', Bool.or_eq_false_iff, beq_eq_false_iff_ne, decide_eq_true_eq]
    by_cases strict : s.tim.servo = .locked ∨ s.tim.servo = .holdover
    · exact .inr (near strict)
    · exact .inl (not_or.mp strict)
  simp only [labelPulse, order, close, Bool.and_self, if_true]
  rfl

/-- A label that is not the next second is discarded; it is the previous label of the next sentence all the same (assumption 126). -/
theorem labelPulse_discards {l : Nat} (last : (s.tim.ppsIn.getD pin {}).lastLabel = some l) (skips : ((utc : Int) + s.tim.utcOffset).toNat ≠ l + 1) :
    labelPulse pin utc true edge s = raise 0xD 0x0B 0 .device
      (modPpsIn pin (fun u => { u with lastLabel := some ((utc : Int) + s.tim.utcOffset).toNat }) s) := by
  have order : labelInOrder (s.tim.ppsIn.getD pin {}) ((utc : Int) + s.tim.utcOffset).toNat = false := by
    rw [labelInOrder, last]
    exact decide_eq_false skips
  simp only [labelPulse, order, Bool.and_false, Bool.false_and, Bool.false_eq_true, if_false]

end

/-! ### Qualification and misses (R38, R39) -/

section
variable {slot : Nat} {s : State} (runs : timeRuns s = true)
include runs

theorem exec_refQualified_qualifies (st : (slotOf s slot).st = .qualifying)
    (may : ppsMayQualify (advanceTo ((slotOf s slot).qualAt + max 1 (fld (slotCfg s slot) 23 16) * 1000000000) s) slot = true) :
    exec (.refQualified slot) s = .next (reselect (modSlot slot (fun r => { r with st := .qualified, inconsistent := false })
      (advanceTo ((slotOf s slot).qualAt + max 1 (fld (slotCfg s slot) 23 16) * 1000000000) s))) := if_pos ⟨st, runs, may⟩

/-- An expected interval has passed with no measurement: it is counted, and the slot is lost where it is the last that it may miss. -/
theorem exec_missedInterval_counts (st : (slotOf s slot).st = .qualifying ∨ (slotOf s slot).st = .qualified) :
    exec (.missedInterval slot) s =
      let due := (slotOf s slot).expectAt + (slotOf s slot).interval
      let u := bump .TIM_REF_MISSES (slot - 1) 0 1 (modSlot slot (fun r => { r with missRun := r.missRun + 1, expectAt := due })
        (advanceTo (ceilDiv due 0x10000) s))
      if max 1 (fld (slotCfg s slot) 15 8) ≤ (slotOf s slot).missRun + 1 then .next (loseSlot slot .lost u) else .next u :=
  if_pos ⟨st, runs⟩

end

/-! ### TIM_REF_CFG (R65) -/

/-- A path finds TIM_REF_CFG in the window of TIM, whichever slot's it is. -/
theorem exec_timRefCfgWrite_acts {p : Path} {slot off : Nat} {s : State} (v : Word) (low : 1 ≤ slot) (high : slot ≤ 0x14)
    (place : regBar p .TIM_REF_CFG (slot - 1) = some off) (acts : actsAt p off s = true) :
    exec (.timRefCfgWrite p slot v) s = .next (refCfgWrite (asPath p) slot v s) := by
  have reached : ∀ i < 20, (regReached .TIM_REF_CFG i && regOutside .TIM_REF_CFG i) = true ∧ regOff .TIM_REF_CFG i < 0x200000 := by decide
  obtain ⟨found, inWindow⟩ := reached (slot - 1) (by omega)
  have same : slot - 1 + 1 = slot := by omega
  rw [exec_timRefCfgWrite, execTimRefCfgWrite, if_neg (by omega), writeOf_cairn v rfl rfl found place inWindow acts]
  exact congrArg (fun k => Host.Outcome.next (refCfgWrite (asPath p) k v s)) same

/-- ENABLE begins to qualify a slot that was disabled. -/
theorem refCfgWrite_enables {p : Path} {slot : Nat} {v : Word} {s : State} (low : 1 ≤ slot) (high : slot ≤ 0x14)
    (may : mayWrite s p .TIM_REF_CFG = true) (enable : wbit v 31 = true) (off_ : (slotOf s slot).st = .disabled) :
    refCfgWrite p slot v s = modSlot slot (fun _ =>
        { st := .qualifying, qualAt := s.elapsed, expectAt := s.elapsed * 0x10000, interval := firstInterval slot })
      (setReg .TIM_REF_CFG (slot - 1) 0 (applyWrite .TIM_REF_CFG (slotCfg s slot) (if isPps slot then v else setFld v 0 0 0)) s) := by
  simp only [refCfgWrite]
  rw [if_neg (by simp [may]; omega), if_pos enable, if_pos off_]

/-! ### The obligation -/

/-- Settles O16, clause by clause, by the equations above. -/
theorem timeReferences : Obligations.TimeReferences := by
  refine ⟨?ptp, ?pulse, ?phase, ?sentence, fun slot s runs st may => exec_refQualified_qualifies runs st may, ?missed, ?lost, ?config⟩
  case ptp =>
    rintro slot m s _ low high runs enabled rfl fresh enabled' free other
    refine ⟨_, exec_ptpMeasurement_measures low high enabled fresh, ?_⟩
    rw [measure_runs runs]
    obtain ⟨theta, miss, accepted, count, selected⟩ := judgeMeasurement_accepts (theta := (ptpTheta s slot m).1)
      (m := { mpd := (ptpTheta s slot m).2.natAbs, interval := m.interval * 0x10000, sourceId := m.grandmaster, hops := m.stepsRemoved })
      enabled' free other
    obtain ⟨theta', miss', accepted', count'⟩ := ptpUtc_keeps m (selected.symm ▸ other)
    exact ⟨theta'.trans theta, miss'.trans miss, accepted'.trans accepted, count'.trans count⟩
  case pulse =>
    rintro pin held rising s _ pins runs long apart rfl enabled polarity _ _ rfl rfl
    have judged := exec_ppsEdge_judged pins runs long apart enabled polarity
    refine ⟨fun near first => ?_, fun out => ?_⟩
    · exact judged.trans (if_neg (not_or.mpr ⟨Nat.not_lt.mpr near, first⟩))
    · exact judged.trans (if_pos out)
  case phase =>
    rintro pin sec edge s _ phase runs rfl enabled free other
    rw [useEdge_measures phase runs]
    obtain ⟨theta, miss, -, count, -⟩ := judgeMeasurement_accepts enabled free other
    exact ⟨theta, miss, count⟩
  case sentence =>
    rintro n pin at_ _ s labels runs kind before sum valid pulse early late rfl
    rw [exec_nmeaSentence_labels labels runs kind before sum valid pulse early late]
    exact ⟨fun next near => by rw [labelPulse_measures next near], fun l last skips => by rw [labelPulse_discards last skips]⟩
  case missed =>
    intro slot s runs st more
    have counted := exec_missedInterval_counts runs st
    refine ⟨_, counted.trans (if_neg (Nat.not_le.mpr more)), by simp, by simp, ?_⟩
    rw [reg_bump_same]
    rfl
  case lost =>
    rintro slot s runs st last _ rfl
    exact (exec_missedInterval_counts runs st).trans (if_pos last)
  case config =>
    intro p slot off v s low high place acts may enable off_
    rw [exec_timRefCfgWrite_acts v low high place acts, refCfgWrite_enables low high may enable off_]
    rfl

end Sys2Proof.Machine
end
